-- ==== Sys2Proof/Word.lean ====
section
/-!
DEFINITION. The word types of the BML-3400 model: a register is 32 bits wide unless its entry
states 64 (R12). Counts, indexes, rates and table keys are plain numbers.
-/
namespace Sys2Proof

/-- A 32-bit register image (R12). -/
abbrev Word := BitVec 32

/-- A 64-bit register image (R12). -/
abbrev Word64 := BitVec 64

/-- A sparse table: index and entry, indexes strictly rising. An index that is not listed
holds the table's default entry. -/
abbrev Tbl (α : Type) := List (Nat × α)

end Sys2Proof
end

