-- ==== Sys2Proof/Syntax.lean ====
section
/-!
DEFINITION. The commands and events of the BML-3400-FA: one constructor of `Instr` for each row of
the table of operations and events. A Halyard command carries the descriptor's header fields
(R442) and its parameters in the order of its table (R443); what the device reads from host memory
for it (the data buffer) is an operand too. An event carries what the outside world shows the
device at that moment.
Where the spec leaves a point open: DESIGN CHOICE 15 (notes/assumptions).
-/
namespace Sys2Proof

/-- The source of a Halyard command (R438): a host queue, the in-band channel with the key of the
message (R463), or the board channel. -/
inductive CmdSrc where
  | host (q : Nat)
  | inband (originSerial originQueue originSeq : Nat) (directed : Bool)
  | board
deriving DecidableEq, Repr

/-- The header of a command descriptor (R442), with the route that a directed command's data
buffer begins with (R444) and what happened to the data buffer's accesses (R454). -/
structure HlyHdr where
  src : CmdSrc
  seq : Nat := 0
  fence : Bool := false
  remote : Bool := false
  directed : Bool := false
  interrupt : Bool := false
  target : Nat := 0
  /-- The descriptor's reserved bits, as one number; 0 when all are clear. -/
  reserved : Nat := 0
  dataLength : Nat := 0
  dataAddress : Nat := 0
  /-- The route of a directed command: hop_count and out_port slots. -/
  hopCount : Nat := 0
  outPorts : List Nat := []
  /-- A read of the input data buffer returned poison or an error. -/
  inputError : Bool := false
  /-- A write of the output data buffer returned an error. -/
  outputError : Bool := false
deriving DecidableEq, Repr

/-- The fields of R48. -/
structure ContractP where
  contractId : Nat
  inst : Nat
  sl : Nat
  aware : Bool
  destType : Nat
  /-- Device ID, group, or tree (one element), or the device IDs of a list. -/
  dest : List Nat
  committed : Nat
  peak : Nat
  burst : Nat
  maxPacket : Nat
  bound : Nat
  replayAllowance : Bool
  lateThreshold : Nat
  egressPorts : Nat
  reefedSafe : Bool
  remoteBudget : Nat
  hostStore : Bool
deriving DecidableEq, Repr

/-- The fields of R49. -/
structure ResvP where
  resvId : Nat
  srcDevice : Nat
  inst : Nat
  sl : Nat
  destination : Bool
  egressPorts : Nat
  committed : Nat
  burst : Nat
  maxPacket : Nat
  replayAllowance : Bool
  reefedSafe : Bool
deriving DecidableEq, Repr

/-- The header fields of a Hjeluf packet (R153, R155): the first 128 bits, and ordering_count and
intermediate_group from the data header or the control extension word. -/
structure Hdr where
  destDevice : Nat := 0
  destEndpoint : Nat := 0
  srcDevice : Nat := 0
  inst : Nat := 0
  sl : Nat := 0
  response : Bool := false
  flagged : Bool := false
  colour : Nat := 0
  mark : Bool := false
  late : Bool := false
  epoch : Nat := 0
  data : Bool := false
  multicast : Bool := false
  nonminimal : Bool := false
  ordSeg : Bool := false
  opcode : Nat := 0
  seq : Nat := 0
  deadline : Nat := 0
  orderingCount : Nat := 0
  interGroup : Nat := 0
  payloadLength : Nat := 0
deriving DecidableEq, Repr

/-- A packet in or at the device: its header, its operation fields as numbers, in the order of the table that lays them
out (R352, R278, R393), and the bytes of its payload that follow them. -/
structure Packet where
  /-- The model's name of the packet inside the device. -/
  pid : Nat
  hdr : Hdr
  fields : List Nat := []
  payload : List Nat := []
deriving DecidableEq, Repr

/-- The operation fields that every engine request carries (R352) with its sender. -/
structure Req where
  srcDevice : Nat
  srcInst : Nat
  srcQueue : Nat
  opTag : Nat
  instGen : Nat
  sl : Nat
deriving DecidableEq, Repr

/-- The access fields of a one-sided request (R352). -/
structure Access where
  region : Nat
  key : Nat
  offset : Nat
  length : Nat
deriving DecidableEq, Repr

/-- The fields of a response (R352). -/
structure Rsp where
  inst : Nat
  opTag : Nat
  instGen : Nat
  status : Nat
  dataOffset : Nat
deriving DecidableEq, Repr

/-- A send descriptor (R337). -/
structure Desc where
  op : Nat
  signalled : Bool := false
  fence : Bool := false
  flagged : Bool := false
  bestEffort : Bool := false
  triggered : Bool := false
  multicast : Bool := false
  sl : Nat := 0
  localHeap : Bool := false
  aop : Nat := 0
  size16 : Bool := false
  length : Nat := 0
  wrId : Nat := 0
  localAddr : Nat := 0
  destDevice : Nat := 0
  destEndpoint : Nat := 0
  destInst : Nat := 0
  trigCounter : Nat := 0
  doneCounter : Nat := 0
  doneValid : Bool := false
  trigThreshold : Nat := 0
  region : Nat := 0
  key : Nat := 0
  remoteOffset : Nat := 0
  context : Nat := 0
  operandA : Nat := 0
  operandB : Nat := 0
deriving DecidableEq, Repr

/-- A receive descriptor (R357). -/
structure RecvDesc where
  op : Nat := 0x20
  anySource : Bool := false
  localHeap : Bool := false
  length : Nat := 0
  wrId : Nat := 0
  localAddr : Nat := 0
  srcDevice : Nat := 0
  srcInst : Nat := 0
  context : Nat := 0
  matchBits : Nat := 0
  ignoreBits : Nat := 0
deriving DecidableEq, Repr

/-- An MPU region entry (R472). -/
structure MpuRegion where
  valid : Bool := false
  space : Nat := 0
  /-- Three bits per privilege level: tenant chain, firmware, management (read, write, execute). -/
  perm : BitVec 9 := 0
  link : Nat := 0
  function : Nat := 0
  ownFunction : Bool := false
  pages : Nat := 0
  basePage : Nat := 0
  reserved : Nat := 0
deriving DecidableEq, Repr

/-- An access of an internal master, as its protection unit sees it (R473). -/
structure MpuAccess where
  master : Nat
  kind : Nat
  privilege : Nat
  space : Nat
  address : Nat
  pageCount : Nat
  inst : Nat
deriving DecidableEq, Repr

/-- The settings of a power channel (R516): units are the step of each setting. -/
structure ChanSet where
  inrush : Nat
  energyBudget : Nat
  fastTrip : Nat
  limit : Nat
  faultTime : Nat
  rampTimeout : Nat
  retryCount : Nat
deriving DecidableEq, Repr

/-- A child slot of a collective group (R379). -/
structure ChildSlot where
  device : Nat
  inst : Nat
  members : Nat
deriving DecidableEq, Repr

/-- A member slot of a collective group (R379). -/
structure MemberSlot where
  inst : Nat
  contribRegion : Nat
  contribOffset : Nat
  resultRegion : Nat
  resultOffset : Nat
  arrivalCounter : Nat
deriving DecidableEq, Repr

/-- The fields of R378. -/
structure GroupP where
  group : Nat
  inst : Nat
  sl : Nat
  operation : Nat
  type : Nat
  op : Nat
  elements : Nat
  root : Bool
  parent : Nat
  totalMembers : Nat
  rootMember : Nat
  children : List ChildSlot
  members : List MemberSlot
deriving DecidableEq, Repr

/-- The remote-access region entry of REGION_SET (R345, R373). -/
structure RegionP where
  region : Nat
  valid : Bool
  inst : Nat
  kind : Nat
  base : Nat
  length : Nat
  key : Nat
  rights : Nat
  filterDevice : Nat
  filterMask : Nat
  filterAny : Bool
  filterInst : Nat
  counterValid : Bool
  counter : Nat
deriving DecidableEq, Repr

/-- The parameters of QUEUE_CREATE (R373). -/
structure QueueP where
  inst : Nat
  kind : Nat
  queue : Nat
  base : Nat
  log2Size : Nat
  cq : Nat
  engine : Nat
  weight : Nat
  maxOut : Nat
  vector : Nat
deriving DecidableEq, Repr

/-- The parameters of EXTENT_BIND (R295, R444). -/
structure BindP where
  handle : Nat
  count : Nat
  use : Nat
  inst : Nat
  firstSlot : Nat
  cohWindow : Nat
  expWindow : Nat
  firstIndex : Nat
  key : Nat
  readOnly : Bool
  access : List Nat
  keep : Bool
deriving DecidableEq, Repr

/-- The parameters of IMPORT_MAP (R295). -/
structure ImportP where
  inst : Nat
  slot : Nat
  remoteDevice : Nat
  window : Nat
  index : Nat
  key : Nat
  preColour : Nat
  sl : Nat
  map : Bool
deriving DecidableEq, Repr

/-- The fields of a window request or response (R278). -/
structure WinF where
  window : Nat
  key : Nat
  offset : Nat
  length : Nat
  poison : Bool := false
deriving DecidableEq, Repr

/-- The eight operations of the directory (R306) that a request can ask for. -/
inductive CohOp where
  | rdS | rdOwn | own | rdCur | wrNC
  /-- RdAny of CXL.cache: RdS when the line is not Invalid, else RdOwn. -/
  | rdAny
  /-- Any other request opcode to a coherent-shared address. -/
  | unsupported
  /-- MemSpecRd, a hint. -/
  | hint
deriving DecidableEq, Repr

/-- The forms of a snoop response (R309). -/
inductive SnoopForm where
  /-- BIRspI alone, or RspIHitSE. -/
  | invalid
  /-- BIConflict then BIRspI, or RspIHitI. -/
  | invalidWriteback
  /-- RspIFwdM with data. -/
  | forwardModified
deriving DecidableEq, Repr

/-- One value per fault source subject (R521). -/
inductive Subject where
  | none
  | inst (i : Nat)
  | port (p : Nat)
  | unit (u : Nat)
deriving DecidableEq, Repr

/-- A training sequence as received on one lane (R244): 128 bits. -/
abbrev TrainSeq := BitVec 128

/-- The local delivery of a multicast tree entry (R185): whether there is one, and its endpoint. -/
structure Delivery where
  here : Bool
  endpoint : Nat
deriving DecidableEq, Repr

/-- An access to BAR0 of instance 0 (R435): its address in the BAR, and whether it writes. -/
structure Bar0Access where
  address : Nat
  write : Bool
deriving DecidableEq, Repr

/-- The origin of an in-band message (R192, R461): its serial, and its device ID where it has one. -/
structure Origin where
  serial : Nat
  device : Nat
deriving DecidableEq, Repr

/-- The port lists of a directed route (R192): the ports to leave by, and the ports recorded on the way. -/
structure RoutePorts where
  outPorts : List Nat
  retPorts : List Nat
deriving DecidableEq, Repr

/-- A CXL host's release of Dynamic Capacity (R283): its host link, and the extent. -/
structure CapacityRelease where
  link : Nat
  handle : Nat
deriving DecidableEq, Repr

/-- The straps of the management complex (R557): SMBus address, PPS selection and flash. -/
structure MgmtStraps where
  smbaddr : Nat
  ppssel : Nat
  flash : Nat
deriving DecidableEq, Repr

/-- The commands and events of the BML-3400-FA, one constructor per row of the table. -/
inductive Instr where
  -- Halyard: general (R456, R457, R434), power and slots (R515)
  | nop (h : HlyHdr)
  | deviceQuery (h : HlyHdr)
  | inbandSet (h : HlyHdr) (cm : Nat) (accept : Bool) (count : Nat) (serials : List Nat) (timeout retries hold : Nat)
  | hostLinkSet (h : HlyHdr) (link cm windowLog2 releaseTimeout : Nat)
  | modeSet (h : HlyHdr) (mode reefForm : Nat) (force : Bool)
  | pwrSet (h : HlyHdr) (feed cm : Nat) (set : ChanSet) (rearm : Bool) (windowMs wakeGpio sleepIdle powerOffIdle : Nat)
  | pwrQuery (h : HlyHdr) (channel : Nat)
  | pwrCapture (h : HlyHdr) (action mask channel first count : Nat)
  | slotSet (h : HlyHdr) (slot cm : Nat) (enable autoPower pginUse : Bool) (set : ChanSet)
  | slotPower (h : HlyHdr) (slot : Nat) (on force : Bool)
  | slotQuery (h : HlyHdr) (slot : Nat)
  -- lanes and ports (R266)
  | portModeSet (h : HlyHdr) (port mode width maxRate : Nat)
  | laneSet (h : HlyHdr) (port cm corrThreshold corrWindow marginFloor : Nat) (autoSpare idleEnable : Bool) (idleEntry trainTimeout : Nat)
  | laneSpare (h : HlyHdr) (port action lane : Nat)
  | laneTest (h : HlyHdr) (lane function pattern userPattern inject symbols every : Nat)
  | laneQuery (h : HlyHdr) (port : Nat)
  -- link and transport (R231)
  | linkSet (h : HlyHdr) (port cm linkTimeout replayLimit retrainLimit : Nat) (shares : List Nat)
  | trnSet (h : HlyHdr) (cm ackDelay nakDelay retryTimeout retryLimit ctxIdle sendWindow : Nat)
  | contextPin (h : HlyHdr) (peer inst cls half : Nat) (pin : Bool)
  | faultInject (h : HlyHdr) (port kind n count : Nat)
  | linkQuery (h : HlyHdr) (port : Nat)
  | trnQuery (h : HlyHdr) (peer inst cls half : Nat)
  -- routing, ordering and multicast (R194)
  | routeWrite (h : HlyHdr) (tiles mode table first count : Nat) (masks : List Nat)
  | routeEpochAdvance (h : HlyHdr) (epoch : Nat)
  | routeEpochRetire (h : HlyHdr)
  | routePortSet (h : HlyHdr) (port kind group member : Nat) (up : Bool)
  | routePolicySet (h : HlyHdr) (sl mode bias : Nat)
  | contractRouteSet (h : HlyHdr) (contractId mode count : Nat) (groups : List Nat)
  | routeEndpointSet (h : HlyHdr) (endpoint target destination : Nat)
  | treeInstall (h : HlyHdr) (tree : Nat) (valid : Bool) (upstream branches : Nat) (delivery : Delivery) (leaves : List Nat)
  | treeRemove (h : HlyHdr) (tree : Nat)
  | treeFence (h : HlyHdr) (scope tree branch : Nat)
  | holdSet (h : HlyHdr) (quota : Nat)
  | discover (h : HlyHdr)
  | idAssign (h : HlyHdr) (deviceId : Nat) (force : Bool)
  -- contracts (R48, R49, R458) and fabric time (R456)
  | contractInstall (h : HlyHdr) (c : ContractP)
  | contractModify (h : HlyHdr) (contractId cm committed peak burst : Nat) (aware : Bool) (bound lateThreshold remoteBudget : Nat)
  | contractRemove (h : HlyHdr) (contractId : Nat)
  | contractQuery (h : HlyHdr) (contractId : Nat)
  | hopReserve (h : HlyHdr) (r : ResvP)
  | hopRelease (h : HlyHdr) (resvId : Nat)
  | meterSet (h : HlyHdr) (inst committed peak committedBurst peakBurst : Nat)
  | portReserveSet (h : HlyHdr) (port fraction : Nat)
  | ftuSet (h : HlyHdr) (cm : Nat) (grandmaster : Bool) (parentPort syncPeriod : Nat) (ppsIn ppsOut : Bool)
  -- output buffer (R121), egress and arbiters (R148)
  | bufferAccountSet (h : HlyHdr) (account minReserve alphaExp markThreshold : Nat)
  | bufferPoolSet (h : HlyHdr) (contractPool : Nat)
  | auditSet (h : HlyHdr) (enable : Bool) (residencyMs : Nat)
  | bufferReclaim (h : HlyHdr) (mode queue : Nat)
  | bufferQuery (h : HlyHdr) (account : Nat)
  | egsLeafBind (h : HlyHdr) (output sl inst queue weight rate burst : Nat) (tokenReset : Bool)
  | egsLeafUnbind (h : HlyHdr) (queue : Nat)
  | egsNodeSet (h : HlyHdr) (target output sl queue cm weight rate burst : Nat) (tokenReset : Bool)
  | egsQuery (h : HlyHdr) (target output sl queue : Nat)
  | arbSet (h : HlyHdr) (resource index cm : Nat) (compat : Bool) (thresholdExp requester weight : Nat)
  | arbQuery (h : HlyHdr) (resource index : Nat)
  -- pools (R295)
  | poolLinkSet (h : HlyHdr) (link memInst releaseTimeout : Nat)
  | extentBind (h : HlyHdr) (b : BindP)
  | extentUnbind (h : HlyHdr) (handle count : Nat) (zero : Bool)
  | importMap (h : HlyHdr) (m : ImportP)
  | extentZero (h : HlyHdr) (handle count : Nat)
  | extentQuery (h : HlyHdr) (handle count : Nat)
  | functionBind (h : HlyHdr) (port routingId link vslot : Nat)
  | functionUnbind (h : HlyHdr) (port routingId : Nat)
  | slotRemove (h : HlyHdr) (port : Nat)
  | hbmPartitionSet (h : HlyHdr) (directory matching heaps : Nat)
  -- directory (R324)
  | cohAgentAdd (h : HlyHdr) (agent kind port : Nat)
  | cohAgentRemove (h : HlyHdr) (agent : Nat)
  | cohWindowCreate (h : HlyHdr) (window mask : Nat)
  | cohWindowAgents (h : HlyHdr) (window mask : Nat)
  | cohWindowMap (h : HlyHdr) (window inst firstSlot : Nat) (map : Bool)
  | cohWindowDestroy (h : HlyHdr) (window : Nat)
  | dirSet (h : HlyHdr) (cm snoopTimeout : Nat) (scrubEnable : Bool)
  | dirQuery (h : HlyHdr) (window extentIndex lineIndex : Nat)
  -- engines (R373)
  | queueCreate (h : HlyHdr) (q : QueueP)
  | queueDestroy (h : HlyHdr) (kind queue : Nat)
  | queueMove (h : HlyHdr) (queue engine : Nat)
  | queueRestart (h : HlyHdr) (kind queue : Nat)
  | regionSet (h : HlyHdr) (r : RegionP)
  | engInstanceSet (h : HlyHdr) (inst counterBase counterCount heap matchEntries onDieReserve : Nat)
  | engSet (h : HlyHdr) (cm rnrDelay rnrLimit lockAge : Nat)
  | lockBreak (h : HlyHdr) (index : Nat)
  | engQuery (h : HlyHdr) (kind index : Nat)
  -- collectives (R402)
  | collGroupSet (h : HlyHdr) (g : GroupP)
  | collGroupRemove (h : HlyHdr) (group : Nat)
  | collFence (h : HlyHdr) (group target index : Nat)
  | collQuery (h : HlyHdr) (group : Nat)
  -- instances (R426)
  | instanceCreate (h : HlyHdr) (inst link function resetMode drainTimeout vectors : Nat)
  | instanceSet (h : HlyHdr) (inst cm resetMode drainTimeout vectors : Nat)
  | instanceReset (h : HlyHdr) (inst form : Nat)
  | instanceDisable (h : HlyHdr) (inst : Nat)
  | dirtyLogSet (h : HlyHdr) (inst : Nat) (enable : Bool) (baseA baseB rangeBase rangePages : Nat) (inFunction : Bool)
  | dirtyLogSwap (h : HlyHdr) (inst : Nat)
  | instanceQuery (h : HlyHdr) (inst : Nat)
  -- protection and interrupts (R481)
  | mpuRulesSet (h : HlyHdr) (master set first count : Nat) (entries : List MpuRegion)
  | mpuSwap (h : HlyHdr) (master : Nat)
  | mpuQuery (h : HlyHdr) (master : Nat)
  | debugUnlock (h : HlyHdr) (action serial nonce : Nat) (signatureOk : Bool)
  | icuSet (h : HlyHdr) (target first count priority coreMask threshold : Nat)
  | icuQuery (h : HlyHdr) (first count : Nat)
  -- faults, spares, background (R537)
  | faultSet (h : HlyHdr) (first count cm severity quietMs vector : Nat)
  | faultForce (h : HlyHdr) (source : Nat) (force : Bool) (kind subject : Nat)
  | faultClear (h : HlyHdr) (first count : Nat) (sticky : Bool)
  | faultQuery (h : HlyHdr) (first count : Nat)
  | spareSwap (h : HlyHdr) (kind unit : Nat)
  | spareQuery (h : HlyHdr) (kind : Nat)
  | backgroundSet (h : HlyHdr) (cm hbmPatrolH sramPatrolMs calPeriodMs trendThreshold trendWindowMin auto : Nat)
  -- observation (R554)
  | ttcSet (h : HlyHdr) (block counter event samplePeriod : Nat)
  | dumpSet (h : HlyHdr) (stream cm intervalMs ringBase slots vector : Nat) (inMemory : Bool)
  | probeSet (h : HlyHdr) (probe bridge action source destination kindMask matchAddr mask records : Nat)
  | probeQuery (h : HlyHdr) (probe first count : Nat)
  | mtrSet (h : HlyHdr) (action inst : Nat)
  -- reset and boot (R572)
  | fwWrite (h : HlyHdr) (slot offset : Nat) (final : Bool) (data : List Nat)
  | fwActivate (h : HlyHdr) (slot when : Nat) (raiseFloor : Bool)
  | deviceReset (h : HlyHdr) (kind : Nat)
  | fabricLeave (h : HlyHdr) (force : Bool)
  | deviceResetEffect
  -- doorbells and register accesses (R333, R441, R435, R469, R485)
  | doorbellSend (inst queue index : Nat)
  | doorbellReceive (inst queue index : Nat)
  | doorbellCompletion (inst queue index : Nat)
  | doorbellCompletionArm (inst queue index : Nat)
  | hlyCommandProducerWrite (q index : Nat)
  | hlyReplyConsumerWrite (q index : Nat)
  | hlyQueueEnable (q : Nat)
  | hlyQueueDisable (q : Nat)
  | icuClaimRead (core : Nat) (viaBar0 : Bool)
  | icuCompleteWrite (core source : Nat) (viaBar0 : Bool)
  | icuSwiWrite (value : Word)
  | mpuViolPop (value : Word)
  | ftuTimeLoRead
  | reg64LowHalfRead (window offset : Nat)
  | bar0IllegalAccess (write : Bool)
  | bar0UnmappedAccess (access : Bar0Access)
  | registerWrite (window offset : Nat) (value : Word)
  -- host configuration events (R415, R428, R486)
  | functionLevelReset (inst : Nat)
  | vfEnableClear (link : Nat)
  | busMasterEnableClear (inst : Nat)
  | msixUnmask (inst vector : Nat) (wholeFunction : Bool)
  -- the board and in-band channels (R461 to R467), discovery (R191, R192)
  | boardChannelRequest (code inputLength : Nat)
  | hlyCmdReceive (origin : Origin) (queue seq segIndex segCount attempt : Nat) (directed : Bool) (retPorts : List Nat)
  | hlyReplyReceive (queue seq segIndex segCount attempt status result : Nat) (deviceValid : Bool) (device : Nat) (out : List Nat)
  | inbandTimeout (queue seq : Nat)
  | reassemblyTimeout (serial queue seq : Nat)
  | inbandHoldExpiry (serial queue seq : Nat)
  | directedReceive (port hopCount hopPtr : Nat) (ports : RoutePorts) (message : List Nat)
  | neighbourReceive (port serial neighbourPort : Nat)
  -- fabric time (R69 to R72)
  | syncPeriod
  | ftSyncReqReceive (port exchange t1 : Nat)
  | ftSyncRspReceive (port exchange depth t2 t3 : Nat)
  | parentReplyLoss
  | mastheadTimeTick
  | wakeSyncWindowEnd
  -- packets through the device (R163 to R168, R110, R128 to R139)
  | packetIngress (input : Nat) (p : Packet) (length : Nat) (rxVl : Nat) (preYellow firstOfOp : Bool)
  | routeRetry (pid : Nat)
  | bufferAdmission (pid : Nat)
  | egressSelect (output : Nat)
  | framePreempt (output pid progress : Nat)
  | suspendedFrameResume (output vl : Nat)
  -- link layer (R198 to R215, R262)
  | linkFrameReceive (port : Nat) (sync : BitVec 16) (head : BitVec 128) (pid : Nat) (bytes : List Nat) (frameCrc : BitVec 32)
      (marked : Bool) (lost : Nat)
  | linkControlFlitReceive (port : Nat) (flit : BitVec 512) (sync : BitVec 16)
  | replayTimeout (port : Nat)
  | retrainLimitExpiry (port : Nat)
  | linkInitFlitTimer (port : Nat)
  | portDisableDrainTimeout (port : Nat)
  -- transport (R216 to R227)
  | transportDataReceive (p : Packet) (check : BitVec 64) (ticketUsed : Bool)
  | topenReceive (peer inst cls initialSeq sl : Nat)
  | tcloseReceive (peer inst cls nextSeq sl : Nat)
  | tackReceive (peer inst cls ackSeq : Nat) (openAck openRefused closeAck : Bool) (lates : List Nat) (marks ticketsReturned ticketsGranted : Nat)
  | tnakReceive (peer inst cls seq : Nat) (transit : Bool) (reason : Nat)
  | ackDelayExpiry (peer inst cls : Nat)
  | nakDelayExpiry (peer inst cls : Nat)
  | retryTimeout (peer inst cls : Nat)
  | ctxIdleExpiry (peer inst cls : Nat)
  | contextFetchDone (peer inst cls half : Nat)
  | mcAckReceive (port tree srcDevice inst op delivered fenced : Nat)
  -- engines: descriptors (R336 to R340, R353, R354)
  | descriptorFetch (queue bits : Nat) (readOk : Bool)
  | put (queue : Nat) (d : Desc)
  | get (queue : Nat) (d : Desc)
  | atomic (queue : Nat) (d : Desc)
  | send (queue : Nat) (d : Desc)
  | lock (queue : Nat) (d : Desc)
  | unlock (queue : Nat) (d : Desc)
  | counterAdd (queue : Nat) (d : Desc)
  | counterSet (queue : Nat) (d : Desc)
  | descNop (queue : Nat) (d : Desc)
  | triggerFire (engine : Nat)
  | edgeWaitRelease (pid : Nat)
  | flaggedLateSend (peer inst cls : Nat)
  | receiveTake (queue bits : Nat)
  | rnrDelayExpiry (opTag : Nat)
  | lockAgeExpiry (index : Nat)
  -- engines: arrivals (R346 to R352, R359 to R368)
  | putArrival (r : Req) (a : Access) (data : List Nat) (last : Bool)
  | getArrival (r : Req) (a : Access) (poison : Bool)
  | atomicArrival (r : Req) (a : Access) (aop : Nat) (size16 : Bool) (opA opB old : Nat)
  | lockArrival (r : Req) (a : Access) (wait : Bool)
  | unlockArrival (r : Req) (a : Access)
  | lockAbandonArrival (r : Req) (queue : Nat)
  | sendEagerArrival (r : Req) (dstInst context msn msgOffset matchBits msgLength : Nat) (data : List Nat)
  | sendRtsArrival (r : Req) (dstInst context msn matchBits msgLength : Nat)
  | rgetArrival (r : Req) (rvTag rvGen offset length : Nat)
  | putAckArrival (r : Rsp)
  | getDataArrival (r : Rsp) (data : List Nat)
  | atomicResultArrival (r : Rsp) (old : Nat)
  | lockResultArrival (r : Rsp) (lockIndex srcDevice : Nat)
  | sendAckArrival (r : Rsp)
  | sendRnrArrival (r : Rsp)
  | rgetDataArrival (r : Rsp) (data : List Nat)
  | rdoneArrival (r : Rsp) (bytes : Nat)
  | engErrorArrival (r : Rsp)
  -- host memory accesses and windows (R33, R66, R277 to R279)
  | hostMemoryAccess (inst address length : Nat) (write cxl : Bool) (data : List Nat)
  | hostWindowStore (inst address length : Nat) (posted : Bool) (data : List Nat)
  | wreadArrival (srcDevice srcInst sl : Nat) (w : WinF)
  | wwriteArrival (srcDevice srcInst sl : Nat) (w : WinF) (data : List Nat)
  | wreadDataArrival (inst : Nat) (w : WinF) (data : List Nat)
  | wwriteDoneArrival (inst : Nat) (w : WinF)
  | werrorArrival (inst : Nat) (w : WinF) (reason : Nat)
  -- directory (R306 to R320)
  | coherentRequest (agent : Option Nat) (handle lineIndex : Nat) (op : CohOp) (offset : Nat) (data : List Nat)
  | coherentWriteback (agent handle lineIndex keep : Nat) (data : List Nat)
  | evictionNotice (agent handle lineIndex : Nat)
  | snoopResponseReceive (agent handle lineIndex : Nat) (form : SnoopForm) (data : List Nat)
  | biconflictReceive (agent handle lineIndex : Nat)
  | memoryWriteDone (handle lineIndex : Nat)
  | snoopTimeoutExpiry (agent handle lineIndex : Nat)
  | recallComplete (recallId : Nat)
  -- reduction unit (R388 to R397)
  | memberArrival (group member : Nat) (values : List Nat) (failed poison : Bool)
  | rdxUpArrival (group srcDevice srcInst sl round members : Nat) (fenced arrival : Bool) (elementOffset : Nat) (poison : Bool) (values : List Nat)
  | rdxDownArrival (group round combined : Nat) (fenced : Bool) (status elementOffset : Nat) (values : List Nat)
  -- pool events (R280 to R296)
  | zeroingComplete (handle : Nat)
  | dynamicCapacityRelease (release : CapacityRelease)
  | dynamicCapacityAddReject (handle : Nat)
  | releaseTimeoutExpiry (handle : Nat) (isFunction : Bool) (port routingId : Nat)
  | unbindDrainComplete (handle : Nat)
  | virtualSlotPowerOff (link vslot : Nat)
  | functionResetComplete (port routingId : Nat)
  | expanderEnumerated (port serial : Nat) (isExpander : Bool) (capacity : Nat) (further functions : List Nat)
  -- completions of long commands (R88, R149, R190, R370, R403, R423, R476, R533)
  | hopReleaseDrained (resvId : Nat)
  | hopReleaseTimeout (resvId : Nat)
  | treeDrained (tree : Nat)
  | leafDrained (queue : Nat)
  | groupDrained (group : Nat)
  | queueMoveForwardDone (queue : Nat)
  | logSwapWritebackDone (inst : Nat)
  | mpuSwapCommit (master : Nat)
  | mpuSwapRetire (master : Nat)
  | spareSwapComplete (kind unit : Nat)
  -- instance reset (R411 to R418)
  | resetDrainComplete (inst : Nat)
  | drainTimeoutExpiry (inst : Nat)
  | generationWaitExpiry (inst : Nat)
  | resetForceExpiry (inst : Nat)
  | resetItemsDone (inst : Nat)
  -- operating modes (R508 to R510)
  | stormJibDrained
  | stormJibWake (cause : Nat)
  | barePolesCommandTimeout
  | wakeGpio
  -- lanes and training (R242 to R259)
  | rateStepComplete (port : Nat)
  | rateStepTimeout (port : Nat)
  | lossOfSignal (lane : Nat)
  | lossOfLock (lane : Nat)
  | codewordLockLoss (port : Nat)
  | corrWindowEnd (lane corrected : Nat)
  | marginReport (lane margin : Nat)
  | wearFlag (lane : Nat)
  | trainingSequenceReceive (lane : Nat) (seq : TrainSeq)
  | trainDetectSignal (lane : Nat)
  | equaliseTimeout (port : Nat)
  | lockAchieved (port : Nat) (skews : List Nat)
  | trainTimeout (port : Nat)
  | backoffElapsed (port : Nat)
  | idleEntryExpiry (port : Nat)
  | fastExit (port : Nat)
  | fastExitLockTimeout (port : Nat)
  | subReq (port : Nat) (msg : BitVec 64)
  | subAck (port : Nat) (msg : BitVec 64)
  | subCompareDone (port differing : Nat)
  | subDone (port : Nat) (msg : BitVec 64)
  | subAbort (port : Nat) (msg : BitVec 64)
  | stepMsg (port : Nat) (msg : BitVec 64)
  | stepAck (port : Nat) (msg : BitVec 64)
  | idleEnter (port : Nat) (msg : BitVec 64)
  | wake (port : Nat) (msg : BitVec 64)
  | testReq (port : Nat) (msg : BitVec 64)
  | testAck (port : Nat) (msg : BitVec 64)
  -- audit and arbiters (R116, R147)
  | auditPassEnd
  | arbStarveThreshold (resource index requester : Nat) (grantedNow : Bool)
  -- power channels (R490 to R505)
  | feedWindowEnter (feed voltage : Nat)
  | feedWindowExit (feed voltage : Nat)
  | insertionDelayElapsed (feed : Nat)
  | rampComplete (channel : Nat)
  | qualificationDone (channel : Nat) (pgin : Bool)
  | currentOverLimit (channel current : Nat)
  | currentBelowRecovery (channel current : Nat)
  | faultTimerTrip (channel : Nat)
  | fastTrip (channel : Nat) (withEnergy : Bool)
  | energyBudgetTrip (channel : Nat)
  | rampTimeout (channel : Nat)
  | coolDownElapsed (channel : Nat)
  | attemptCountReset (channel : Nat)
  | reverseCurrent (feed : Nat)
  | reverseRecovery (feed : Nat)
  | feedBelow5v (feed : Nat)
  | thermalTrip (sensor : Nat)
  | temperatureReading (sensor : Nat) (celsius : Int)
  | presenceDebounced (slot : Nat)
  | presenceLost (slot port : Nat) (linkDown : Bool)
  | pginFall (slot : Nat)
  | measurementWindowEnd (channel vPeak vMin iPeak iMin pMean energy : Nat)
  | captureRecord (channel voltage current power cause : Nat)
  | continuousCaptureEnd (channel : Nat)
  -- engine-cluster domains (R512, R513)
  | sleepIdleExpiry (domain : Nat)
  | powerOffIdleExpiry (domain : Nat)
  | domainOffDone (domain : Nat)
  | domainPacketArrival (domain : Nat) (p : Packet)
  | domainWakeDone (domain : Nat)
  | domainWakeTimeout (domain : Nat)
  -- faults and spares (R522 to R535)
  | quietPeriodExpiry
  | trendFire (kind unit : Nat)
  | hbmUncorrectableError (address : Nat) (owner : Nat) (patrol : Bool)
  | sramUncorrectableError (row : Nat)
  | engineDuplicateFail (engine : Nat)
  | managementCoreWatchdog (core : Nat)
  | calPeriod
  -- dumps, counters, probes (R541 to R553)
  | dumpInterval (stream : Nat) (freed : List Nat)
  | dumpSlotWritten (stream : Nat) (freed : List Nat)
  | counterAccumulate
  | sampleCountdownZero (engine counter programCounter : Nat)
  | probeMatch (bridge source destination kind address length : Nat) (direction : Bool)
  | traceRecordTimeout (probe : Nat)
  -- resets and boot (R558 to R568)
  | coldReset (insdly : Nat) (straps : MgmtStraps) (calibFailed baselines : List Nat)
  | vauxLoss
  | warmReset (trigger : Nat)
  | managementComplexReset (trigger : Nat)
  | imageCheckDone (slot : Nat) (ok : Bool) (version fwVersion : Nat)
  | bootReady
  -- switch core and host reads (R98 to R100, R416, R477)
  | centralSchedulerMatching (stagedFirst stagedNext : List Nat)
  | hostReadCompletion (tag : Nat) (values : List Nat) (error poison : Bool)
  | hostCompletionTimeout (tag : Nat)
  | directoryReadDone (handle lineIndex : Nat) (poison : Bool)
  | vfEnableSet (link numVfs : Nat)
  | busMasterEnableSet (inst : Nat)
  | perst0Deassertion
  | vaux33Rise (insdly smbaddr ppssel flash : Nat)
  | meteringSlotWaitTimeout (inst : Nat)
  | ppsInputEdge
  | ppsOutputSecond
  | mctpControlMessage (command : Nat)
  | jtagInstructionUpdate (instruction : Nat)
  | viralReceived (port : Nat)
  | pcieLinkTrained (port rate width : Nat) (cxlOffered flit256 : Bool)
  | prbsCheckerLock (lane : Nat)
  | prbsLockLoss (lane : Nat)
  | directoryBankFailure (bank : Nat)
  | routeBankFailure (tile bank : Nat)
  | pseudoChannelFailure (channel : Nat)
  | managementCoreFailure (core : Nat)
  | ageingMonitorFlag (kind unit : Nat)
  | datapathError
  | shroudBridgeTimeout (bridge : Nat)
  | managementFirmwareFault (source : CmdSrc) (seq : Nat)
deriving DecidableEq, Repr

end Sys2Proof
end

