-- ==== Sys2Proof/Decode.lean ====
section
/-!
DEFINITION. The table of operations gives no row any bits: a command reaches the block as a whole,
with its operands, and no word spells one.
Where the spec leaves a point open: DESIGN CHOICE 10 (notes/assumptions).
-/
namespace Sys2Proof

/-- The command that a word of the table's bits spells: none, since no row has bits. -/
def decodeTableWord (_nbits _w : Nat) : Option Instr := none

end Sys2Proof
end

