-- ==== Sys2Proof/Machine/Tables.lean ====
section
/-!
DEFINITION. Sparse tables and the byte memory: their look-up, update and canonical form. A table
lists index and entry with indexes strictly rising; a memory lists address and byte in the same way
and lists no byte that is 0, which is what an unlisted address reads as.
Where the spec leaves a point open: DESIGN CHOICE 4 (notes/assumptions).
-/
namespace Sys2Proof

/-- The entry listed at an index. -/
def Tbl.find {α : Type} : Tbl α → Nat → Option α
  | [], _ => none
  | (j, a) :: t, k => if j = k then some a else Tbl.find t k

/-- The entry at an index, where `d` is what an unlisted index holds. -/
def Tbl.get {α : Type} (t : Tbl α) (k : Nat) (d : α) : α := (Tbl.find t k).getD d

/-- The table with `a` at index `k`, kept in rising order. -/
def Tbl.put {α : Type} : Tbl α → Nat → α → Tbl α
  | [], k, a => [(k, a)]
  | (j, b) :: t, k, a =>
    if k < j then (k, a) :: (j, b) :: t
    else if k = j then (k, a) :: t
    else (j, b) :: Tbl.put t k a

/-- The table with nothing listed at index `k`. -/
def Tbl.del {α : Type} : Tbl α → Nat → Tbl α
  | [], _ => []
  | (j, b) :: t, k => if j = k then Tbl.del t k else (j, b) :: Tbl.del t k

/-- Is index `k` listed? -/
def Tbl.has {α : Type} (t : Tbl α) (k : Nat) : Bool := (Tbl.find t k).isSome

/-- The table with the entry at `k` changed by `f`, where an unlisted index holds `d`. -/
def Tbl.upd {α : Type} (t : Tbl α) (k : Nat) (d : α) (f : α → α) : Tbl α := Tbl.put t k (f (Tbl.get t k d))

/-- The table with every listed entry changed by `f`. -/
def Tbl.mapv {α : Type} (t : Tbl α) (f : α → α) : Tbl α := t.map fun e => (e.1, f e.2)

/-- The table with the entries that `p` keeps. -/
def Tbl.keep {α : Type} (t : Tbl α) (p : Nat → α → Bool) : Tbl α := t.filter fun e => p e.1 e.2

/-- The indexes that are listed. -/
def Tbl.keys {α : Type} (t : Tbl α) : List Nat := t.map (·.1)

/-- Indexes rise strictly. -/
def Tbl.wf {α : Type} : Tbl α → Bool
  | [] => true
  | [_] => true
  | (j, _) :: (k, b) :: t => decide (j < k) && Tbl.wf ((k, b) :: t)

end Sys2Proof

namespace Sys2Proof.Machine

/-- What a byte of memory that nothing has written reads as. -/
abbrev memDefault : BitVec 8 := 0

/-- One byte of memory. -/
def memByte (m : List Host.Cell) (a : Nat) : BitVec 8 := Tbl.get m a memDefault

/-- Memory with one byte written, kept in canonical form. -/
def memPut (m : List Host.Cell) (a : Nat) (b : BitVec 8) : List Host.Cell :=
  if b = memDefault then Tbl.del m a else Tbl.put m a b

/-- Memory with bytes written from an address upwards, lowest address first. -/
def memWrite (m : List Host.Cell) (a : Nat) : List Nat → List Host.Cell
  | [] => m
  | b :: bs => memWrite (memPut m a (BitVec.ofNat 8 b)) (a + 1) bs

/-- `n` bytes of memory from an address upwards. -/
def memRead (m : List Host.Cell) (a : Nat) : Nat → List Nat
  | 0 => []
  | n + 1 => (memByte m a).toNat :: memRead m (a + 1) n

/-- Memory with every byte of [a, a + n) reading 0. -/
def memZero (m : List Host.Cell) (a n : Nat) : List Host.Cell :=
  m.filter fun c => !(decide (a ≤ c.1) && decide (c.1 < a + n))

/-- The canonical form: addresses strictly rising, and no entry that an unlisted address reads as. -/
def Memory.wf (m : List Host.Cell) : Bool := Tbl.wf m && m.all fun c => c.2 != memDefault

/-! ### Lists and numbers -/

/-- A list without the first element equal to `x`. -/
def dropFirst {α : Type} [DecidableEq α] (x : α) : List α → List α
  | [] => []
  | y :: t => if x = y then t else y :: dropFirst x t

/-- A list with `x` added once at the end. -/
def addOnce {α : Type} [DecidableEq α] (l : List α) (x : α) : List α := if x ∈ l then l else l ++ [x]

/-- The first element that `p` accepts, with the list without it. -/
def takeFirst {α : Type} (p : α → Bool) : List α → Option (α × List α)
  | [] => none
  | x :: t => if p x then some (x, t) else (takeFirst p t).map fun r => (r.1, x :: r.2)

/-- The list with the first element that `p` accepts changed by `f`. -/
def updFirst {α : Type} (p : α → Bool) (f : α → α) : List α → List α
  | [] => []
  | x :: t => if p x then f x :: t else x :: updFirst p f t

/-- Ceiling of a quotient. -/
def ceilDiv (a b : Nat) : Nat := (a + b - 1) / b

/-- The sum of a list. -/
def sumOf {α : Type} (l : List α) (f : α → Nat) : Nat := l.foldl (fun n x => n + f x) 0

/-- A number's `n` lowest bytes, least significant first. -/
def bytesLE : Nat → Nat → List Nat
  | 0, _ => []
  | n + 1, v => v % 256 :: bytesLE n (v / 256)

/-- The number that bytes spell, least significant first. -/
def ofBytesLE : List Nat → Nat
  | [] => 0
  | b :: bs => b + 256 * ofBytesLE bs

/-- Values packed at their widths, the first in the lowest bits (R443). -/
def packBits : List (Nat × Nat) → Nat
  | [] => 0
  | (v, w) :: t => v % 2 ^ w + 2 ^ w * packBits t

/-- The values that packed bits hold, by their widths (R443). -/
def unpackBits : List Nat → Nat → List Nat
  | [], _ => []
  | w :: ws, n => n % 2 ^ w :: unpackBits ws (n / 2 ^ w)

/-- Bits [hi:lo] of a number. -/
def bitsOf (n hi lo : Nat) : Nat := n / 2 ^ lo % 2 ^ (hi + 1 - lo)

/-- A Bool as a bit. -/
def b2n (b : Bool) : Nat := if b then 1 else 0

/-- Bit `i` of a change mask (R443). -/
def cmBit (cm i : Nat) : Bool := cm.testBit i

/-- The new value of a field whose bit of the change mask is set, the old value otherwise (R443). -/
def pick {α : Type} (cm i : Nat) (new old : α) : α := if cmBit cm i then new else old

/-- A status register with bit `i` set. -/
def setFlag {n : Nat} (v : BitVec n) (i : Nat) : BitVec n := v ||| (1#n <<< i)

/-- Saturating addition in `w` bits. -/
def satAdd (w a b : Nat) : Nat := min (a + b) (2 ^ w - 1)

/-- A difference of two counts that are taken modulo `m`. -/
def modSub (m a b : Nat) : Nat := (a + m - b % m) % m

/-- An integer as `w` bits, two's complement. -/
def intBits (w : Nat) (i : Int) : Nat := (i % (2 ^ w : Int)).toNat

end Sys2Proof.Machine
end

