-- ==== Sys2Proof/WellFormed.lean ====
section
/-!
DEFINITION. Well-formed commands: every parameter of a Halyard command fits the width at which R443 packs it, every list that
travels in its data buffer fits its slots (R444), and every operand of an event fits the field that carries it.
-/
namespace Sys2Proof

/-- Numbers that each take a field of `w` bits. -/
def wide (w : Nat) (l : List Nat) : List (Nat × Nat) := l.map fun v => (v, w)

/-- Every value fits its width. -/
def fits (l : List (Nat × Nat)) : Bool := l.all fun f => decide (f.1 < 2 ^ f.2)

/-! ### Parameters of Halyard commands, in table order with their widths (R443) -/

/-- The settings of a power channel (R516), each as a count of its steps. -/
def ChanSet.params (c : ChanSet) : List (Nat × Nat) :=
  [(c.inrush, 7), (c.energyBudget, 9), (c.fastTrip, 9), (c.limit, 8), (c.faultTime, 7), (c.rampTimeout, 7), (c.retryCount, 3)]

/-- The fields of CONTRACT_INSTALL (R48): a list of devices fills eight slots, the unused ones with 0xFFFF. -/
def ContractP.params (c : ContractP) : List (Nat × Nat) :=
  [(c.contractId, 14), (c.inst, 10), (c.sl, 3), (c.aware.toNat, 1), (c.destType, 2)] ++
  ((List.range 8).map fun k => (c.dest.getD k (if c.destType = 3 then 0xFFFF else 0), 16)) ++
  [(c.committed, 22), (c.peak, 22), (c.burst, 25), (c.maxPacket, 13), (c.bound, 24), (c.replayAllowance.toNat, 1),
    (c.lateThreshold, 16), (c.egressPorts, 32), (c.reefedSafe.toNat, 1), (c.remoteBudget, 24), (c.hostStore.toNat, 1)]

/-- The fields of HOP_RESERVE (R49); the key is service level, instance and source device from its lowest bits. -/
def ResvP.params (r : ResvP) : List (Nat × Nat) :=
  [(r.resvId, 15), (r.sl, 3), (r.inst, 10), (r.srcDevice, 16), (r.destination.toNat, 1), (r.egressPorts, 32), (r.committed, 22),
    (r.burst, 25), (r.maxPacket, 13), (r.replayAllowance.toNat, 1), (r.reefedSafe.toNat, 1)]

/-- The fields of EXTENT_BIND (R295, R444). -/
def BindP.params (b : BindP) : List (Nat × Nat) :=
  [(b.handle, 19), (b.count, 10), (b.use, 2), (b.inst, 10), (b.firstSlot, 14), (b.cohWindow, 8), (b.expWindow, 12),
    (b.firstIndex, 12), (b.key, 16), (b.readOnly.toNat, 1), (b.access.length, 5), (b.keep.toNat, 1)]

/-- The fields of IMPORT_MAP (R295). -/
def ImportP.params (m : ImportP) : List (Nat × Nat) :=
  [(m.inst, 10), (m.slot, 14), (m.remoteDevice, 16), (m.window, 12), (m.index, 12), (m.key, 16), (m.preColour, 2), (m.sl, 3),
    (m.map.toNat, 1)]

/-- The fields of QUEUE_CREATE (R373). -/
def QueueP.params (q : QueueP) : List (Nat × Nat) :=
  [(q.inst, 10), (q.kind, 2), (q.queue, 14), (q.base, 64), (q.log2Size, 5), (q.cq, 14), (q.engine, 7), (q.weight, 8),
    (q.maxOut, 10), (q.vector, 11)]

/-- The fields of REGION_SET (R373). -/
def RegionP.params (r : RegionP) : List (Nat × Nat) :=
  [(r.region, 16), (r.valid.toNat, 1), (r.inst, 10), (r.kind, 1), (r.base, 52), (r.length, 25), (r.key, 16), (r.rights, 4),
    (r.filterDevice, 16), (r.filterMask, 16), (r.filterAny.toNat, 1), (r.filterInst, 10), (r.counterValid.toNat, 1), (r.counter, 12)]

/-- The fields of COLL_GROUP_SET (R378). -/
def GroupP.params (g : GroupP) : List (Nat × Nat) :=
  [(g.group, 12), (g.inst, 10), (g.sl, 3), (g.operation, 2), (g.type, 4), (g.op, 3), (g.elements, 16), (g.root.toNat, 1),
    (g.parent, 16), (g.totalMembers, 20), (g.children.length, 6), (g.members.length, 5), (g.rootMember, 4)]

/-- The slots of COLL_GROUP_SET in its data buffer (R379). -/
def GroupP.slots (g : GroupP) : List (Nat × Nat) :=
  (g.children.flatMap fun c => [(c.device, 16), (c.inst, 10), (c.members, 20)]) ++
  g.members.flatMap fun m => [(m.inst, 10), (m.contribRegion, 16), (m.contribOffset, 36), (m.resultRegion, 16), (m.resultOffset, 36),
    (m.arrivalCounter, 12)]

/-- The fields of a region entry (R472). -/
def MpuRegion.params (r : MpuRegion) : List (Nat × Nat) :=
  [(r.space, 2), (r.link, 5), (r.function, 10), (r.reserved, 16), (r.pages, 32), (r.basePage, 52)]

/-- The parameters of a Halyard command, each with its width, in the order in which they are packed from descriptor bit 160
upwards (R443); nothing for an event. -/
def Instr.params : Instr → List (Nat × Nat)
  | .nop _ => []
  | .deviceQuery _ => []
  | .inbandSet _ cm accept count serials timeout retries hold => [(cm, 16), (accept.toNat, 1), (count, 3)] ++ ((List.range 4).map fun k => (serials.getD k 0, 64)) ++ [(timeout, 10), (retries, 4), (hold, 7)]
  | .hostLinkSet _ link cm windowLog2 releaseTimeout => [(link, 5), (cm, 16), (windowLog2, 6), (releaseTimeout, 6)]
  | .modeSet _ mode reefForm force => [(mode, 2), (reefForm, 1), (force.toNat, 1)]
  | .pwrSet _ feed cm set rearm windowMs wakeGpio_ sleepIdle powerOffIdle => [(feed, 1), (cm, 16)] ++ set.params ++ [(rearm.toNat, 1), (windowMs, 10), (wakeGpio_, 6), (sleepIdle, 10), (powerOffIdle, 14)]
  | .pwrQuery _ channel => [(channel, 6)]
  | .pwrCapture _ action mask channel first count => [(action, 2), (mask, 34), (channel, 6), (first, 12), (count, 13)]
  | .slotSet _ slot cm enable autoPower pginUse set => [(slot, 5), (cm, 16), (enable.toNat, 1), (autoPower.toNat, 1), (pginUse.toNat, 1)] ++ set.params
  | .slotPower _ slot on force => [(slot, 5), (on.toNat, 1), (force.toNat, 1)]
  | .slotQuery _ slot => [(slot, 5)]
  | .portModeSet _ port mode width maxRate => [(port, 5), (mode, 3), (width, 3), (maxRate, 4)]
  | .laneSet _ port cm corrThreshold corrWindow marginFloor autoSpare idleEnable idleEntry trainTimeout_ => [(port, 5), (cm, 16), (corrThreshold, 16), (corrWindow, 10), (marginFloor, 9), (autoSpare.toNat, 1), (idleEnable.toNat, 1), (idleEntry, 10), (trainTimeout_, 10)]
  | .laneSpare _ port action lane => [(port, 5), (action, 1), (lane, 3)]
  | .laneTest _ lane function pattern userPattern inject symbols every => [(lane, 9), (function, 3), (pattern, 4), (userPattern, 64), (inject, 6), (symbols, 5), (every, 16)]
  | .laneQuery _ port => [(port, 5)]
  | .linkSet _ port cm linkTimeout replayLimit retrainLimit shares => [(port, 5), (cm, 16), (linkTimeout, 9), (replayLimit, 8), (retrainLimit, 10)] ++ wide 14 shares
  | .trnSet _ cm ackDelay nakDelay retryTimeout_ retryLimit ctxIdle sendWindow => [(cm, 16), (ackDelay, 9), (nakDelay, 14), (retryTimeout_, 14), (retryLimit, 8), (ctxIdle, 10), (sendWindow, 7)]
  | .contextPin _ peer inst cls half pin => [(peer, 16), (inst, 10), (cls, 1), (half, 1), (pin.toNat, 1)]
  | .faultInject _ port kind n count => [(port, 5), (kind, 3), (n, 16), (count, 16)]
  | .linkQuery _ port => [(port, 5)]
  | .trnQuery _ peer inst cls half => [(peer, 16), (inst, 10), (cls, 1), (half, 1)]
  | .routeWrite _ tiles mode table first count _ => [(tiles, 4), (mode, 1), (table, 1), (first, 10), (count, 7)]
  | .routeEpochAdvance _ epoch => [(epoch, 2)]
  | .routeEpochRetire _ => []
  | .routePortSet _ port kind group member up => [(port, 5), (kind, 2), (group, 10), (member, 6), (up.toNat, 1)]
  | .routePolicySet _ sl mode bias => [(sl, 3), (mode, 2), (bias, 16)]
  | .contractRouteSet _ contractId mode count groups => [(contractId, 14), (mode, 1), (count, 3)] ++ wide 10 groups
  | .routeEndpointSet _ endpoint target destination => [(endpoint, 4), (target, 2), (destination, 6)]
  | .treeInstall _ tree valid upstream branches delivery _ =>
    [(tree, 13), (valid.toNat, 1), (upstream, 6), (branches, 32), (delivery.here.toNat, 1), (delivery.endpoint, 4)]
  | .treeRemove _ tree => [(tree, 13)]
  | .treeFence _ scope tree branch => [(scope, 1), (tree, 13), (branch, 6)]
  | .holdSet _ quota => [(quota, 4)]
  | .discover _ => []
  | .idAssign _ deviceId force => [(deviceId, 16), (force.toNat, 1)]
  | .contractInstall _ c => c.params
  | .contractModify _ contractId cm committed peak burst aware bound lateThreshold remoteBudget => [(contractId, 14), (cm, 16), (committed, 22), (peak, 22), (burst, 25), (aware.toNat, 1), (bound, 24), (lateThreshold, 16), (remoteBudget, 24)]
  | .contractRemove _ contractId => [(contractId, 14)]
  | .contractQuery _ contractId => [(contractId, 14)]
  | .hopReserve _ r => r.params
  | .hopRelease _ resvId => [(resvId, 15)]
  | .meterSet _ inst committed peak committedBurst peakBurst => [(inst, 10), (committed, 22), (peak, 22), (committedBurst, 25), (peakBurst, 25)]
  | .portReserveSet _ port fraction => [(port, 5), (fraction, 6)]
  | .ftuSet _ cm grandmaster parentPort syncPeriod_ ppsIn ppsOut => [(cm, 16), (grandmaster.toNat, 1), (parentPort, 5), (syncPeriod_, 10), (ppsIn.toNat, 1), (ppsOut.toNat, 1)]
  | .bufferAccountSet _ account minReserve alphaExp markThreshold => [(account, 10), (minReserve, 13), (alphaExp, 3), (markThreshold, 20)]
  | .bufferPoolSet _ contractPool => [(contractPool, 20)]
  | .auditSet _ enable residencyMs => [(enable.toNat, 1), (residencyMs, 6)]
  | .bufferReclaim _ mode queue => [(mode, 2), (queue, 16)]
  | .bufferQuery _ account => [(account, 10)]
  | .egsLeafBind _ output sl inst queue weight rate burst tokenReset => [(output, 6), (sl, 3), (inst, 10), (queue, 16), (weight, 8), (rate, 22), (burst, 25), (tokenReset.toNat, 1)]
  | .egsLeafUnbind _ queue => [(queue, 16)]
  | .egsNodeSet _ target output sl queue cm weight rate burst tokenReset => [(target, 2), (output, 6), (sl, 3), (queue, 16), (cm, 16), (weight, 8), (rate, 22), (burst, 25), (tokenReset.toNat, 1)]
  | .egsQuery _ target output sl queue => [(target, 2), (output, 6), (sl, 3), (queue, 16)]
  | .arbSet _ resource index cm compat thresholdExp requester weight => [(resource, 2), (index, 8), (cm, 16), (compat.toNat, 1), (thresholdExp, 5), (requester, 5), (weight, 8)]
  | .arbQuery _ resource index => [(resource, 2), (index, 8)]
  | .poolLinkSet _ link memInst releaseTimeout => [(link, 5), (memInst, 10), (releaseTimeout, 6)]
  | .extentBind _ b => b.params
  | .extentUnbind _ handle count zero => [(handle, 19), (count, 10), (zero.toNat, 1)]
  | .importMap _ m => m.params
  | .extentZero _ handle count => [(handle, 19), (count, 10)]
  | .extentQuery _ handle count => [(handle, 19), (count, 10)]
  | .functionBind _ port routingId link vslot => [(port, 5), (routingId, 16), (link, 5), (vslot, 5)]
  | .functionUnbind _ port routingId => [(port, 5), (routingId, 16)]
  | .slotRemove _ port => [(port, 5)]
  | .hbmPartitionSet _ directory matching heaps => [(directory, 8), (matching, 6), (heaps, 7)]
  | .cohAgentAdd _ agent kind port => [(agent, 6), (kind, 1), (port, 5)]
  | .cohAgentRemove _ agent => [(agent, 6)]
  | .cohWindowCreate _ window mask => [(window, 8), (mask, 64)]
  | .cohWindowAgents _ window mask => [(window, 8), (mask, 64)]
  | .cohWindowMap _ window inst firstSlot map => [(window, 8), (inst, 10), (firstSlot, 14), (map.toNat, 1)]
  | .cohWindowDestroy _ window => [(window, 8)]
  | .dirSet _ cm snoopTimeout scrubEnable => [(cm, 16), (snoopTimeout, 14), (scrubEnable.toNat, 1)]
  | .dirQuery _ window extentIndex lineIndex => [(window, 8), (extentIndex, 12), (lineIndex, 22)]
  | .queueCreate _ q => q.params
  | .queueDestroy _ kind queue => [(kind, 2), (queue, 14)]
  | .queueMove _ queue engine => [(queue, 14), (engine, 7)]
  | .queueRestart _ kind queue => [(kind, 2), (queue, 14)]
  | .regionSet _ r => r.params
  | .engInstanceSet _ inst counterBase counterCount heap matchEntries onDieReserve => [(inst, 10), (counterBase, 14), (counterCount, 13), (heap, 16), (matchEntries, 27), (onDieReserve, 19)]
  | .engSet _ cm rnrDelay rnrLimit lockAge => [(cm, 16), (rnrDelay, 10), (rnrLimit, 9), (lockAge, 14)]
  | .lockBreak _ index => [(index, 12)]
  | .engQuery _ kind index => [(kind, 3), (index, 14)]
  | .collGroupSet _ g => g.params
  | .collGroupRemove _ group => [(group, 12)]
  | .collFence _ group target index => [(group, 12), (target, 1), (index, 5)]
  | .collQuery _ group => [(group, 12)]
  | .instanceCreate _ inst link function resetMode drainTimeout vectors => [(inst, 10), (link, 5), (function, 10), (resetMode, 1), (drainTimeout, 9), (vectors, 7)]
  | .instanceSet _ inst cm resetMode drainTimeout vectors => [(inst, 10), (cm, 16), (resetMode, 1), (drainTimeout, 9), (vectors, 7)]
  | .instanceReset _ inst form => [(inst, 10), (form, 2)]
  | .instanceDisable _ inst => [(inst, 10)]
  | .dirtyLogSet _ inst enable baseA baseB rangeBase rangePages _ => [(inst, 10), (enable.toNat, 1), (baseA, 64), (baseB, 64), (rangeBase, 64), (rangePages, 33)]
  | .dirtyLogSwap _ inst => [(inst, 10)]
  | .instanceQuery _ inst => [(inst, 10)]
  | .mpuRulesSet _ master set first count _ => [(master, 8), (set, 1), (first, 6), (count, 7)]
  | .mpuSwap _ master => [(master, 8)]
  | .mpuQuery _ master => [(master, 8)]
  | .debugUnlock _ action _ _ _ => [(action, 2)]
  | .icuSet _ target first count priority coreMask threshold => [(target, 1), (first, 11), (count, 12), (priority, 8), (coreMask, 5), (threshold, 8)]
  | .icuQuery _ first count => [(first, 11), (count, 7)]
  | .faultSet _ first count cm severity quietMs vector => [(first, 11), (count, 12), (cm, 16), (severity, 3), (quietMs, 16), (vector, 6)]
  | .faultForce _ source force kind subject => [(source, 11), (force.toNat, 1), (kind, 2), (subject, 10)]
  | .faultClear _ first count sticky => [(first, 11), (count, 12), (sticky.toNat, 1)]
  | .faultQuery _ first count => [(first, 11), (count, 9)]
  | .spareSwap _ kind unit => [(kind, 3), (unit, 20)]
  | .spareQuery _ kind => [(kind, 3)]
  | .backgroundSet _ cm hbmPatrolH sramPatrolMs calPeriodMs trendThreshold trendWindowMin auto => [(cm, 16), (hbmPatrolH, 8), (sramPatrolMs, 16), (calPeriodMs, 14), (trendThreshold, 10), (trendWindowMin, 11), (auto, 7)]
  | .ttcSet _ block counter event samplePeriod => [(block, 5), (counter, 3), (event, 13), (samplePeriod, 32)]
  | .dumpSet _ stream cm intervalMs ringBase slots vector _ => [(stream, 1), (cm, 16), (intervalMs, 16), (ringBase, 64), (slots, 7), (vector, 6)]
  | .probeSet _ probe bridge action source destination kindMask matchAddr mask records => [(probe, 3), (bridge, 8), (action, 2), (source, 5), (destination, 5), (kindMask, 5), (matchAddr, 64), (mask, 64), (records, 17)]
  | .probeQuery _ probe first count => [(probe, 3), (first, 16), (count, 16)]
  | .mtrSet _ action inst => [(action, 1), (inst, 10)]
  | .fwWrite _ slot offset final _ => [(slot, 1), (offset, 25), (final.toNat, 1)]
  | .fwActivate _ slot t raiseFloor => [(slot, 1), (t, 2), (raiseFloor.toNat, 1)]
  | .deviceReset _ kind => [(kind, 2)]
  | .fabricLeave _ force => [(force.toNat, 1)]
  | .deviceResetEffect => []
  | .doorbellSend _ _ _ => []
  | .doorbellReceive _ _ _ => []
  | .doorbellCompletion _ _ _ => []
  | .doorbellCompletionArm _ _ _ => []
  | .hlyCommandProducerWrite _ _ => []
  | .hlyReplyConsumerWrite _ _ => []
  | .hlyQueueEnable _ => []
  | .hlyQueueDisable _ => []
  | .icuClaimRead _ _ => []
  | .icuCompleteWrite _ _ _ => []
  | .icuSwiWrite _ => []
  | .mpuViolPop _ => []
  | .ftuTimeLoRead => []
  | .reg64LowHalfRead _ _ => []
  | .bar0IllegalAccess _ => []
  | .bar0UnmappedAccess _ => []
  | .registerWrite _ _ _ => []
  | .functionLevelReset _ => []
  | .vfEnableClear _ => []
  | .busMasterEnableClear _ => []
  | .msixUnmask _ _ _ => []
  | .boardChannelRequest _ _ => []
  | .hlyCmdReceive _ _ _ _ _ _ _ _ => []
  | .hlyReplyReceive _ _ _ _ _ _ _ _ _ _ => []
  | .inbandTimeout _ _ => []
  | .reassemblyTimeout _ _ _ => []
  | .inbandHoldExpiry _ _ _ => []
  | .directedReceive _ _ _ _ _ => []
  | .neighbourReceive _ _ _ => []
  | .syncPeriod => []
  | .ftSyncReqReceive _ _ _ => []
  | .ftSyncRspReceive _ _ _ _ _ => []
  | .parentReplyLoss => []
  | .mastheadTimeTick => []
  | .wakeSyncWindowEnd => []
  | .packetIngress _ _ _ _ _ _ => []
  | .routeRetry _ => []
  | .bufferAdmission _ => []
  | .egressSelect _ => []
  | .framePreempt _ _ _ => []
  | .suspendedFrameResume _ _ => []
  | .linkFrameReceive _ _ _ _ _ _ _ _ => []
  | .linkControlFlitReceive _ _ _ => []
  | .replayTimeout _ => []
  | .retrainLimitExpiry _ => []
  | .linkInitFlitTimer _ => []
  | .portDisableDrainTimeout _ => []
  | .transportDataReceive _ _ _ => []
  | .topenReceive _ _ _ _ _ => []
  | .tcloseReceive _ _ _ _ _ => []
  | .tackReceive _ _ _ _ _ _ _ _ _ _ _ => []
  | .tnakReceive _ _ _ _ _ _ => []
  | .ackDelayExpiry _ _ _ => []
  | .nakDelayExpiry _ _ _ => []
  | .retryTimeout _ _ _ => []
  | .ctxIdleExpiry _ _ _ => []
  | .contextFetchDone _ _ _ _ => []
  | .mcAckReceive _ _ _ _ _ _ _ => []
  | .descriptorFetch _ _ _ => []
  | .put _ _ => []
  | .get _ _ => []
  | .atomic _ _ => []
  | .send _ _ => []
  | .lock _ _ => []
  | .unlock _ _ => []
  | .counterAdd _ _ => []
  | .counterSet _ _ => []
  | .descNop _ _ => []
  | .triggerFire _ => []
  | .edgeWaitRelease _ => []
  | .flaggedLateSend _ _ _ => []
  | .receiveTake _ _ => []
  | .rnrDelayExpiry _ => []
  | .lockAgeExpiry _ => []
  | .putArrival _ _ _ _ => []
  | .getArrival _ _ _ => []
  | .atomicArrival _ _ _ _ _ _ _ => []
  | .lockArrival _ _ _ => []
  | .unlockArrival _ _ => []
  | .lockAbandonArrival _ _ => []
  | .sendEagerArrival _ _ _ _ _ _ _ _ => []
  | .sendRtsArrival _ _ _ _ _ _ => []
  | .rgetArrival _ _ _ _ _ => []
  | .putAckArrival _ => []
  | .getDataArrival _ _ => []
  | .atomicResultArrival _ _ => []
  | .lockResultArrival _ _ _ => []
  | .sendAckArrival _ => []
  | .sendRnrArrival _ => []
  | .rgetDataArrival _ _ => []
  | .rdoneArrival _ _ => []
  | .engErrorArrival _ => []
  | .hostMemoryAccess _ _ _ _ _ _ => []
  | .hostWindowStore _ _ _ _ _ => []
  | .wreadArrival _ _ _ _ => []
  | .wwriteArrival _ _ _ _ _ => []
  | .wreadDataArrival _ _ _ => []
  | .wwriteDoneArrival _ _ => []
  | .werrorArrival _ _ _ => []
  | .coherentRequest _ _ _ _ _ _ => []
  | .coherentWriteback _ _ _ _ _ => []
  | .evictionNotice _ _ _ => []
  | .snoopResponseReceive _ _ _ _ _ => []
  | .biconflictReceive _ _ _ => []
  | .memoryWriteDone _ _ => []
  | .snoopTimeoutExpiry _ _ _ => []
  | .recallComplete _ => []
  | .memberArrival _ _ _ _ _ => []
  | .rdxUpArrival _ _ _ _ _ _ _ _ _ _ _ => []
  | .rdxDownArrival _ _ _ _ _ _ _ => []
  | .zeroingComplete _ => []
  | .dynamicCapacityRelease _ => []
  | .dynamicCapacityAddReject _ => []
  | .releaseTimeoutExpiry _ _ _ _ => []
  | .unbindDrainComplete _ => []
  | .virtualSlotPowerOff _ _ => []
  | .functionResetComplete _ _ => []
  | .expanderEnumerated _ _ _ _ _ _ => []
  | .hopReleaseDrained _ => []
  | .hopReleaseTimeout _ => []
  | .treeDrained _ => []
  | .leafDrained _ => []
  | .groupDrained _ => []
  | .queueMoveForwardDone _ => []
  | .logSwapWritebackDone _ => []
  | .mpuSwapCommit _ => []
  | .mpuSwapRetire _ => []
  | .spareSwapComplete _ _ => []
  | .resetDrainComplete _ => []
  | .drainTimeoutExpiry _ => []
  | .generationWaitExpiry _ => []
  | .resetForceExpiry _ => []
  | .resetItemsDone _ => []
  | .stormJibDrained => []
  | .stormJibWake _ => []
  | .barePolesCommandTimeout => []
  | .wakeGpio => []
  | .rateStepComplete _ => []
  | .rateStepTimeout _ => []
  | .lossOfSignal _ => []
  | .lossOfLock _ => []
  | .codewordLockLoss _ => []
  | .corrWindowEnd _ _ => []
  | .marginReport _ _ => []
  | .wearFlag _ => []
  | .trainingSequenceReceive _ _ => []
  | .trainDetectSignal _ => []
  | .equaliseTimeout _ => []
  | .lockAchieved _ _ => []
  | .trainTimeout _ => []
  | .backoffElapsed _ => []
  | .idleEntryExpiry _ => []
  | .fastExit _ => []
  | .fastExitLockTimeout _ => []
  | .subReq _ _ => []
  | .subAck _ _ => []
  | .subCompareDone _ _ => []
  | .subDone _ _ => []
  | .subAbort _ _ => []
  | .stepMsg _ _ => []
  | .stepAck _ _ => []
  | .idleEnter _ _ => []
  | .wake _ _ => []
  | .testReq _ _ => []
  | .testAck _ _ => []
  | .auditPassEnd => []
  | .arbStarveThreshold _ _ _ _ => []
  | .feedWindowEnter _ _ => []
  | .feedWindowExit _ _ => []
  | .insertionDelayElapsed _ => []
  | .rampComplete _ => []
  | .qualificationDone _ _ => []
  | .currentOverLimit _ _ => []
  | .currentBelowRecovery _ _ => []
  | .faultTimerTrip _ => []
  | .fastTrip _ _ => []
  | .energyBudgetTrip _ => []
  | .rampTimeout _ => []
  | .coolDownElapsed _ => []
  | .attemptCountReset _ => []
  | .reverseCurrent _ => []
  | .reverseRecovery _ => []
  | .feedBelow5v _ => []
  | .thermalTrip _ => []
  | .temperatureReading _ _ => []
  | .presenceDebounced _ => []
  | .presenceLost _ _ _ => []
  | .pginFall _ => []
  | .measurementWindowEnd _ _ _ _ _ _ _ => []
  | .captureRecord _ _ _ _ _ => []
  | .continuousCaptureEnd _ => []
  | .sleepIdleExpiry _ => []
  | .powerOffIdleExpiry _ => []
  | .domainOffDone _ => []
  | .domainPacketArrival _ _ => []
  | .domainWakeDone _ => []
  | .domainWakeTimeout _ => []
  | .quietPeriodExpiry => []
  | .trendFire _ _ => []
  | .hbmUncorrectableError _ _ _ => []
  | .sramUncorrectableError _ => []
  | .engineDuplicateFail _ => []
  | .managementCoreWatchdog _ => []
  | .calPeriod => []
  | .dumpInterval _ _ => []
  | .dumpSlotWritten _ _ => []
  | .counterAccumulate => []
  | .sampleCountdownZero _ _ _ => []
  | .probeMatch _ _ _ _ _ _ _ => []
  | .traceRecordTimeout _ => []
  | .coldReset _ _ _ _ => []
  | .vauxLoss => []
  | .warmReset _ => []
  | .managementComplexReset _ => []
  | .imageCheckDone _ _ _ _ => []
  | .bootReady => []
  | .centralSchedulerMatching _ _ => []
  | .hostReadCompletion _ _ _ _ => []
  | .hostCompletionTimeout _ => []
  | .directoryReadDone _ _ _ => []
  | .vfEnableSet _ _ => []
  | .busMasterEnableSet _ => []
  | .perst0Deassertion => []
  | .vaux33Rise _ _ _ _ => []
  | .meteringSlotWaitTimeout _ => []
  | .ppsInputEdge => []
  | .ppsOutputSecond => []
  | .mctpControlMessage _ => []
  | .jtagInstructionUpdate _ => []
  | .viralReceived _ => []
  | .pcieLinkTrained _ _ _ _ _ => []
  | .prbsCheckerLock _ => []
  | .prbsLockLoss _ => []
  | .directoryBankFailure _ => []
  | .routeBankFailure _ _ => []
  | .pseudoChannelFailure _ => []
  | .managementCoreFailure _ => []
  | .ageingMonitorFlag _ _ => []
  | .datapathError => []
  | .shroudBridgeTimeout _ => []
  | .managementFirmwareFault _ _ => []

/-! ### Operands of events -/

/-- The fields of a request's sender (R352). -/
def Req.operands (r : Req) : List (Nat × Nat) :=
  [(r.srcDevice, 16), (r.srcInst, 10), (r.srcQueue, 14), (r.opTag, 16), (r.instGen, 4), (r.sl, 3)]

/-- The access fields of a request (R352). -/
def Access.operands (a : Access) : List (Nat × Nat) := [(a.region, 16), (a.key, 16), (a.offset, 36), (a.length, 32)]

/-- The fields of a response (R352). -/
def Rsp.operands (r : Rsp) : List (Nat × Nat) := [(r.inst, 10), (r.opTag, 16), (r.instGen, 4), (r.status, 8), (r.dataOffset, 36)]

/-- The fields of a window request or response (R278). -/
def WinF.operands (w : WinF) : List (Nat × Nat) := [(w.window, 12), (w.key, 16), (w.offset, 40), (w.length, 13)]

/-- The fields of a packet header (R153). -/
def Packet.operands (p : Packet) : List (Nat × Nat) :=
  [(p.hdr.destDevice, 16), (p.hdr.destEndpoint, 4), (p.hdr.srcDevice, 16), (p.hdr.inst, 10), (p.hdr.sl, 3), (p.hdr.colour, 2),
    (p.hdr.epoch, 2), (p.hdr.opcode, 8), (p.hdr.seq, 24), (p.hdr.deadline, 32), (p.hdr.orderingCount, 16), (p.hdr.interGroup, 10),
    (p.hdr.payloadLength, 13)] ++ wide 8 p.payload

/-- The fields of a send descriptor (R337). -/
def Desc.operands (d : Desc) : List (Nat × Nat) :=
  [(d.op, 8), (d.sl, 3), (d.aop, 4), (d.length, 32), (d.wrId, 64), (d.localAddr, 64), (d.destDevice, 16), (d.destEndpoint, 4),
    (d.destInst, 10), (d.trigCounter, 12), (d.doneCounter, 12), (d.trigThreshold, 32), (d.region, 16), (d.key, 16),
    (d.remoteOffset, 36), (d.context, 20), (d.operandA, 64), (d.operandB, 64)]

/-- The fields of a receive descriptor (R357). -/
def RecvDesc.operands (d : RecvDesc) : List (Nat × Nat) :=
  [(d.op, 8), (d.length, 32), (d.wrId, 64), (d.localAddr, 64), (d.srcDevice, 16), (d.srcInst, 10), (d.context, 20),
    (d.matchBits, 64), (d.ignoreBits, 64)]

/-- What a command reads from its data buffer (R444), and the operands of an event, each with the width of its field. -/
def Instr.operands : Instr → List (Nat × Nat)
  | .nop _ => []
  | .deviceQuery _ => []
  | .inbandSet _ _ _ _ _ _ _ _ => []
  | .hostLinkSet _ _ _ _ _ => []
  | .modeSet _ _ _ _ => []
  | .pwrSet _ _ _ _ _ _ _ _ _ => []
  | .pwrQuery _ _ => []
  | .pwrCapture _ _ _ _ _ _ => []
  | .slotSet _ _ _ _ _ _ _ => []
  | .slotPower _ _ _ _ => []
  | .slotQuery _ _ => []
  | .portModeSet _ _ _ _ _ => []
  | .laneSet _ _ _ _ _ _ _ _ _ _ => []
  | .laneSpare _ _ _ _ => []
  | .laneTest _ _ _ _ _ _ _ _ => []
  | .laneQuery _ _ => []
  | .linkSet _ _ _ _ _ _ _ => []
  | .trnSet _ _ _ _ _ _ _ _ => []
  | .contextPin _ _ _ _ _ _ => []
  | .faultInject _ _ _ _ _ => []
  | .linkQuery _ _ => []
  | .trnQuery _ _ _ _ _ => []
  | .routeEpochAdvance _ _ => []
  | .routeEpochRetire _ => []
  | .routePortSet _ _ _ _ _ _ => []
  | .routePolicySet _ _ _ _ => []
  | .contractRouteSet _ _ _ _ _ => []
  | .routeEndpointSet _ _ _ _ => []
  | .treeRemove _ _ => []
  | .treeFence _ _ _ _ => []
  | .holdSet _ _ => []
  | .discover _ => []
  | .idAssign _ _ _ => []
  | .contractInstall _ _ => []
  | .contractModify _ _ _ _ _ _ _ _ _ _ => []
  | .contractRemove _ _ => []
  | .contractQuery _ _ => []
  | .hopReserve _ _ => []
  | .hopRelease _ _ => []
  | .meterSet _ _ _ _ _ _ => []
  | .portReserveSet _ _ _ => []
  | .ftuSet _ _ _ _ _ _ _ => []
  | .bufferAccountSet _ _ _ _ _ => []
  | .bufferPoolSet _ _ => []
  | .auditSet _ _ _ => []
  | .bufferReclaim _ _ _ => []
  | .bufferQuery _ _ => []
  | .egsLeafBind _ _ _ _ _ _ _ _ _ => []
  | .egsLeafUnbind _ _ => []
  | .egsNodeSet _ _ _ _ _ _ _ _ _ _ => []
  | .egsQuery _ _ _ _ _ => []
  | .arbSet _ _ _ _ _ _ _ _ => []
  | .arbQuery _ _ _ => []
  | .poolLinkSet _ _ _ _ => []
  | .extentUnbind _ _ _ _ => []
  | .importMap _ _ => []
  | .extentZero _ _ _ => []
  | .extentQuery _ _ _ => []
  | .functionBind _ _ _ _ _ => []
  | .functionUnbind _ _ _ => []
  | .slotRemove _ _ => []
  | .hbmPartitionSet _ _ _ _ => []
  | .cohAgentAdd _ _ _ _ => []
  | .cohAgentRemove _ _ => []
  | .cohWindowCreate _ _ _ => []
  | .cohWindowAgents _ _ _ => []
  | .cohWindowMap _ _ _ _ _ => []
  | .cohWindowDestroy _ _ => []
  | .dirSet _ _ _ _ => []
  | .dirQuery _ _ _ _ => []
  | .queueCreate _ _ => []
  | .queueDestroy _ _ _ => []
  | .queueMove _ _ _ => []
  | .queueRestart _ _ _ => []
  | .regionSet _ _ => []
  | .engInstanceSet _ _ _ _ _ _ _ => []
  | .engSet _ _ _ _ _ => []
  | .lockBreak _ _ => []
  | .engQuery _ _ _ => []
  | .collGroupRemove _ _ => []
  | .collFence _ _ _ _ => []
  | .collQuery _ _ => []
  | .instanceCreate _ _ _ _ _ _ _ => []
  | .instanceSet _ _ _ _ _ _ => []
  | .instanceReset _ _ _ => []
  | .instanceDisable _ _ => []
  | .dirtyLogSet _ _ _ _ _ _ _ _ => []
  | .dirtyLogSwap _ _ => []
  | .instanceQuery _ _ => []
  | .mpuSwap _ _ => []
  | .mpuQuery _ _ => []
  | .icuSet _ _ _ _ _ _ _ => []
  | .icuQuery _ _ _ => []
  | .faultSet _ _ _ _ _ _ _ => []
  | .faultForce _ _ _ _ _ => []
  | .faultClear _ _ _ _ => []
  | .faultQuery _ _ _ => []
  | .spareSwap _ _ _ => []
  | .spareQuery _ _ => []
  | .backgroundSet _ _ _ _ _ _ _ _ => []
  | .ttcSet _ _ _ _ _ => []
  | .dumpSet _ _ _ _ _ _ _ _ => []
  | .probeSet _ _ _ _ _ _ _ _ _ _ => []
  | .probeQuery _ _ _ _ => []
  | .mtrSet _ _ _ => []
  | .fwActivate _ _ _ _ => []
  | .deviceReset _ _ => []
  | .fabricLeave _ _ => []
  | .routeWrite _ _ _ _ _ _ masks => wide 32 masks
  | .treeInstall _ _ _ _ _ _ leaves => wide 16 leaves
  | .extentBind _ b => wide 26 b.access
  | .collGroupSet _ g => g.slots
  | .mpuRulesSet _ _ _ _ _ entries => entries.flatMap MpuRegion.params
  | .debugUnlock _ _ serial nonce _ => [(serial, 64)] ++ [(nonce, 256)]
  | .fwWrite _ _ _ _ data => wide 8 data
  | .deviceResetEffect => []
  | .doorbellSend inst queue index => [(inst, 10), (queue, 14), (index, 16)]
  | .doorbellReceive inst queue index => [(inst, 10), (queue, 14), (index, 16)]
  | .doorbellCompletion inst queue index => [(inst, 10), (queue, 14), (index, 16)]
  | .doorbellCompletionArm inst queue index => [(inst, 10), (queue, 14), (index, 16)]
  | .hlyCommandProducerWrite q index => [(q, 3), (index, 16)]
  | .hlyReplyConsumerWrite q index => [(q, 3), (index, 16)]
  | .hlyQueueEnable q => [(q, 3)]
  | .hlyQueueDisable q => [(q, 3)]
  | .icuClaimRead core _ => [(core, 3)]
  | .icuCompleteWrite core source _ => [(core, 3), (source, 11)]
  | .icuSwiWrite _ => []
  | .mpuViolPop _ => []
  | .ftuTimeLoRead => []
  | .reg64LowHalfRead window offset => [(window, 5), (offset, 18)]
  | .bar0IllegalAccess _ => []
  | .bar0UnmappedAccess access => [(access.address, 23)]
  | .registerWrite window offset _ => [(window, 5), (offset, 18)]
  | .functionLevelReset inst => [(inst, 10)]
  | .vfEnableClear link => [(link, 5)]
  | .busMasterEnableClear inst => [(inst, 10)]
  | .msixUnmask inst vector _ => [(inst, 10), (vector, 6)]
  | .boardChannelRequest code inputLength => [(code, 16), (inputLength, 32)]
  | .hlyCmdReceive origin queue seq segIndex segCount attempt _ retPorts =>
    [(origin.serial, 64), (origin.device, 16), (queue, 3), (seq, 16), (segIndex, 6), (segCount, 7), (attempt, 4)] ++ wide 5 retPorts
  | .hlyReplyReceive queue seq segIndex segCount attempt status result _ device out => [(queue, 3), (seq, 16), (segIndex, 6), (segCount, 7), (attempt, 4), (status, 16), (result, 128), (device, 16)] ++ wide 8 out
  | .inbandTimeout queue seq => [(queue, 3), (seq, 16)]
  | .reassemblyTimeout serial queue seq => [(serial, 64), (queue, 3), (seq, 16)]
  | .inbandHoldExpiry serial queue seq => [(serial, 64), (queue, 3), (seq, 16)]
  | .directedReceive port hopCount hopPtr ports message =>
    [(port, 5), (hopCount, 4), (hopPtr, 4)] ++ wide 5 ports.outPorts ++ wide 5 ports.retPorts ++ wide 8 message
  | .neighbourReceive port serial neighbourPort => [(port, 5), (serial, 64), (neighbourPort, 5)]
  | .syncPeriod => []
  | .ftSyncReqReceive port exchange t1 => [(port, 5), (exchange, 16), (t1, 64)]
  | .ftSyncRspReceive port exchange depth t2 t3 => [(port, 5), (exchange, 16), (depth, 6), (t2, 64), (t3, 64)]
  | .parentReplyLoss => []
  | .mastheadTimeTick => []
  | .wakeSyncWindowEnd => []
  | .packetIngress input p length rxVl _ _ => [(input, 6), (length, 13), (rxVl, 3)] ++ p.operands
  | .routeRetry pid => [(pid, 64)]
  | .bufferAdmission pid => [(pid, 64)]
  | .egressSelect output => [(output, 6)]
  | .framePreempt output pid progress => [(output, 6), (pid, 64), (progress, 7)]
  | .suspendedFrameResume output vl => [(output, 6), (vl, 3)]
  | .linkFrameReceive port _ _ _ bytes _ _ lost => [(port, 5), (lost, 32)] ++ wide 8 bytes
  | .linkControlFlitReceive port _ _ => [(port, 5)]
  | .replayTimeout port => [(port, 5)]
  | .retrainLimitExpiry port => [(port, 5)]
  | .linkInitFlitTimer port => [(port, 5)]
  | .portDisableDrainTimeout port => [(port, 5)]
  | .transportDataReceive p _ _ => p.operands
  | .topenReceive peer inst cls initialSeq sl => [(peer, 16), (inst, 10), (cls, 1), (initialSeq, 24), (sl, 3)]
  | .tcloseReceive peer inst cls nextSeq sl => [(peer, 16), (inst, 10), (cls, 1), (nextSeq, 24), (sl, 3)]
  | .tackReceive peer inst cls ackSeq _ _ _ lates marks ticketsReturned ticketsGranted => [(peer, 16), (inst, 10), (cls, 1), (ackSeq, 24), (marks, 16), (ticketsReturned, 4), (ticketsGranted, 4)] ++ wide 16 lates
  | .tnakReceive peer inst cls seq _ reason => [(peer, 16), (inst, 10), (cls, 1), (seq, 24), (reason, 8)]
  | .ackDelayExpiry peer inst cls => [(peer, 16), (inst, 10), (cls, 1)]
  | .nakDelayExpiry peer inst cls => [(peer, 16), (inst, 10), (cls, 1)]
  | .retryTimeout peer inst cls => [(peer, 16), (inst, 10), (cls, 1)]
  | .ctxIdleExpiry peer inst cls => [(peer, 16), (inst, 10), (cls, 1)]
  | .contextFetchDone peer inst cls half => [(peer, 16), (inst, 10), (cls, 1), (half, 1)]
  | .mcAckReceive port tree srcDevice inst op delivered fenced => [(port, 5), (tree, 13), (srcDevice, 16), (inst, 10), (op, 24), (delivered, 16), (fenced, 16)]
  | .descriptorFetch queue bits _ => [(queue, 14), (bits, 512)]
  | .put queue d => [(queue, 14)] ++ d.operands
  | .get queue d => [(queue, 14)] ++ d.operands
  | .atomic queue d => [(queue, 14)] ++ d.operands
  | .send queue d => [(queue, 14)] ++ d.operands
  | .lock queue d => [(queue, 14)] ++ d.operands
  | .unlock queue d => [(queue, 14)] ++ d.operands
  | .counterAdd queue d => [(queue, 14)] ++ d.operands
  | .counterSet queue d => [(queue, 14)] ++ d.operands
  | .descNop queue d => [(queue, 14)] ++ d.operands
  | .triggerFire engine => [(engine, 7)]
  | .edgeWaitRelease pid => [(pid, 64)]
  | .flaggedLateSend peer inst cls => [(peer, 16), (inst, 10), (cls, 1)]
  | .receiveTake queue bits => [(queue, 14), (bits, 512)]
  | .rnrDelayExpiry opTag => [(opTag, 16)]
  | .lockAgeExpiry index => [(index, 16)]
  | .putArrival r a data _ => r.operands ++ a.operands ++ wide 8 data
  | .getArrival r a _ => r.operands ++ a.operands
  | .atomicArrival r a aop _ opA opB old => [(aop, 4), (opA, 128), (opB, 128), (old, 128)] ++ r.operands ++ a.operands
  | .lockArrival r a _ => r.operands ++ a.operands
  | .unlockArrival r a => r.operands ++ a.operands
  | .lockAbandonArrival r queue => [(queue, 14)] ++ r.operands
  | .sendEagerArrival r dstInst context msn msgOffset matchBits msgLength data => [(dstInst, 10), (context, 20), (msn, 16), (msgOffset, 14), (matchBits, 64), (msgLength, 32)] ++ r.operands ++ wide 8 data
  | .sendRtsArrival r dstInst context msn matchBits msgLength => [(dstInst, 10), (context, 20), (msn, 16), (matchBits, 64), (msgLength, 32)] ++ r.operands
  | .rgetArrival r rvTag rvGen offset length => [(rvTag, 16), (rvGen, 4), (offset, 40), (length, 32)] ++ r.operands
  | .putAckArrival r => r.operands
  | .getDataArrival r data => r.operands ++ wide 8 data
  | .atomicResultArrival r old => [(old, 128)] ++ r.operands
  | .lockResultArrival r lockIndex srcDevice => [(lockIndex, 12), (srcDevice, 16)] ++ r.operands
  | .sendAckArrival r => r.operands
  | .sendRnrArrival r => r.operands
  | .rgetDataArrival r data => r.operands ++ wide 8 data
  | .rdoneArrival r bytes => [(bytes, 32)] ++ r.operands
  | .engErrorArrival r => r.operands
  | .hostMemoryAccess inst address length _ _ data => [(inst, 10), (address, 64), (length, 32)] ++ wide 8 data
  | .hostWindowStore inst address length _ data => [(inst, 10), (address, 64), (length, 32)] ++ wide 8 data
  | .wreadArrival srcDevice srcInst sl w => [(srcDevice, 16), (srcInst, 10), (sl, 3)] ++ w.operands
  | .wwriteArrival srcDevice srcInst sl w data => [(srcDevice, 16), (srcInst, 10), (sl, 3)] ++ w.operands ++ wide 8 data
  | .wreadDataArrival inst w data => [(inst, 10)] ++ w.operands ++ wide 8 data
  | .wwriteDoneArrival inst w => [(inst, 10)] ++ w.operands
  | .werrorArrival inst w reason => [(inst, 10), (reason, 8)] ++ w.operands
  | .coherentRequest _ handle lineIndex _ offset data => [(handle, 19), (lineIndex, 22), (offset, 40)] ++ wide 8 data
  | .coherentWriteback agent handle lineIndex keep data => [(agent, 6), (handle, 19), (lineIndex, 22), (keep, 2)] ++ wide 8 data
  | .evictionNotice agent handle lineIndex => [(agent, 6), (handle, 19), (lineIndex, 22)]
  | .snoopResponseReceive agent handle lineIndex _ data => [(agent, 6), (handle, 19), (lineIndex, 22)] ++ wide 8 data
  | .biconflictReceive agent handle lineIndex => [(agent, 6), (handle, 19), (lineIndex, 22)]
  | .memoryWriteDone handle lineIndex => [(handle, 19), (lineIndex, 22)]
  | .snoopTimeoutExpiry agent handle lineIndex => [(agent, 6), (handle, 19), (lineIndex, 22)]
  | .recallComplete recallId => [(recallId, 64)]
  | .memberArrival group member values _ _ => [(group, 12), (member, 4)] ++ wide 64 values
  | .rdxUpArrival group srcDevice srcInst sl round members _ _ elementOffset _ values => [(group, 12), (srcDevice, 16), (srcInst, 10), (sl, 3), (round, 32), (members, 20), (elementOffset, 32)] ++ wide 64 values
  | .rdxDownArrival group round combined _ status elementOffset values => [(group, 12), (round, 32), (combined, 20), (status, 16), (elementOffset, 32)] ++ wide 64 values
  | .zeroingComplete handle => [(handle, 19)]
  | .dynamicCapacityRelease release => [(release.link, 5), (release.handle, 19)]
  | .dynamicCapacityAddReject handle => [(handle, 19)]
  | .releaseTimeoutExpiry handle _ port routingId => [(handle, 19), (port, 5), (routingId, 16)]
  | .unbindDrainComplete handle => [(handle, 19)]
  | .virtualSlotPowerOff link vslot => [(link, 5), (vslot, 5)]
  | .functionResetComplete port routingId => [(port, 5), (routingId, 16)]
  | .expanderEnumerated port serial _ capacity further functions =>
    [(port, 5), (serial, 64), (capacity, 64)] ++ wide 64 further ++ wide 16 functions
  | .hopReleaseDrained resvId => [(resvId, 15)]
  | .hopReleaseTimeout resvId => [(resvId, 15)]
  | .treeDrained tree => [(tree, 13)]
  | .leafDrained queue => [(queue, 16)]
  | .groupDrained group => [(group, 12)]
  | .queueMoveForwardDone queue => [(queue, 14)]
  | .logSwapWritebackDone inst => [(inst, 10)]
  | .mpuSwapCommit master => [(master, 8)]
  | .mpuSwapRetire master => [(master, 8)]
  | .spareSwapComplete kind unit => [(kind, 3), (unit, 20)]
  | .resetDrainComplete inst => [(inst, 10)]
  | .drainTimeoutExpiry inst => [(inst, 10)]
  | .generationWaitExpiry inst => [(inst, 10)]
  | .resetForceExpiry inst => [(inst, 10)]
  | .resetItemsDone inst => [(inst, 10)]
  | .stormJibDrained => []
  | .stormJibWake cause => [(cause, 4)]
  | .barePolesCommandTimeout => []
  | .wakeGpio => []
  | .rateStepComplete port => [(port, 5)]
  | .rateStepTimeout port => [(port, 5)]
  | .lossOfSignal lane => [(lane, 9)]
  | .lossOfLock lane => [(lane, 9)]
  | .codewordLockLoss port => [(port, 5)]
  | .corrWindowEnd lane corrected => [(lane, 9), (corrected, 16)]
  | .marginReport lane margin => [(lane, 9), (margin, 9)]
  | .wearFlag lane => [(lane, 9)]
  | .trainingSequenceReceive lane _ => [(lane, 9)]
  | .trainDetectSignal lane => [(lane, 9)]
  | .equaliseTimeout port => [(port, 5)]
  | .lockAchieved port skews => [(port, 5)] ++ wide 16 skews
  | .trainTimeout port => [(port, 5)]
  | .backoffElapsed port => [(port, 5)]
  | .idleEntryExpiry port => [(port, 5)]
  | .fastExit port => [(port, 5)]
  | .fastExitLockTimeout port => [(port, 5)]
  | .subReq port _ => [(port, 5)]
  | .subAck port _ => [(port, 5)]
  | .subCompareDone port differing => [(port, 5), (differing, 16)]
  | .subDone port _ => [(port, 5)]
  | .subAbort port _ => [(port, 5)]
  | .stepMsg port _ => [(port, 5)]
  | .stepAck port _ => [(port, 5)]
  | .idleEnter port _ => [(port, 5)]
  | .wake port _ => [(port, 5)]
  | .testReq port _ => [(port, 5)]
  | .testAck port _ => [(port, 5)]
  | .auditPassEnd => []
  | .arbStarveThreshold resource index requester _ => [(resource, 2), (index, 16), (requester, 5)]
  | .feedWindowEnter feed voltage => [(feed, 1), (voltage, 16)]
  | .feedWindowExit feed voltage => [(feed, 1), (voltage, 16)]
  | .insertionDelayElapsed feed => [(feed, 1)]
  | .rampComplete channel => [(channel, 6)]
  | .qualificationDone channel _ => [(channel, 6)]
  | .currentOverLimit channel current => [(channel, 6), (current, 16)]
  | .currentBelowRecovery channel current => [(channel, 6), (current, 16)]
  | .faultTimerTrip channel => [(channel, 6)]
  | .fastTrip channel _ => [(channel, 6)]
  | .energyBudgetTrip channel => [(channel, 6)]
  | .rampTimeout channel => [(channel, 6)]
  | .coolDownElapsed channel => [(channel, 6)]
  | .attemptCountReset channel => [(channel, 6)]
  | .reverseCurrent feed => [(feed, 1)]
  | .reverseRecovery feed => [(feed, 1)]
  | .feedBelow5v feed => [(feed, 1)]
  | .thermalTrip sensor => [(sensor, 8)]
  | .temperatureReading sensor _ => [(sensor, 8)]
  | .presenceDebounced slot => [(slot, 5)]
  | .presenceLost slot port _ => [(slot, 5), (port, 5)]
  | .pginFall slot => [(slot, 5)]
  | .measurementWindowEnd channel vPeak vMin iPeak iMin pMean energy => [(channel, 6), (vPeak, 16), (vMin, 16), (iPeak, 16), (iMin, 16), (pMean, 32), (energy, 48)]
  | .captureRecord channel voltage current power cause => [(channel, 6), (voltage, 16), (current, 16), (power, 32), (cause, 4)]
  | .continuousCaptureEnd channel => [(channel, 6)]
  | .sleepIdleExpiry domain => [(domain, 4)]
  | .powerOffIdleExpiry domain => [(domain, 4)]
  | .domainOffDone domain => [(domain, 4)]
  | .domainPacketArrival domain p => [(domain, 4)] ++ p.operands
  | .domainWakeDone domain => [(domain, 4)]
  | .domainWakeTimeout domain => [(domain, 4)]
  | .quietPeriodExpiry => []
  | .trendFire kind unit => [(kind, 3), (unit, 20)]
  | .hbmUncorrectableError address owner _ => [(address, 64), (owner, 10)]
  | .sramUncorrectableError row => [(row, 20)]
  | .engineDuplicateFail engine => [(engine, 7)]
  | .managementCoreWatchdog core => [(core, 3)]
  | .calPeriod => []
  | .dumpInterval stream freed => [(stream, 1)] ++ wide 6 freed
  | .dumpSlotWritten stream freed => [(stream, 1)] ++ wide 6 freed
  | .counterAccumulate => []
  | .sampleCountdownZero engine counter programCounter => [(engine, 7), (counter, 3), (programCounter, 32)]
  | .probeMatch bridge source destination kind address length _ => [(bridge, 8), (source, 11), (destination, 5), (kind, 3), (address, 64), (length, 32)]
  | .traceRecordTimeout probe => [(probe, 3)]
  | .coldReset insdly straps calibFailed baselines =>
    [(insdly, 8), (straps.smbaddr, 8), (straps.ppssel, 8), (straps.flash, 8)] ++ wide 9 calibFailed ++ wide 32 baselines
  | .vauxLoss => []
  | .warmReset trigger => [(trigger, 4)]
  | .managementComplexReset trigger => [(trigger, 4)]
  | .imageCheckDone slot _ version fwVersion => [(slot, 1), (version, 32), (fwVersion, 24)]
  | .bootReady => []
  | .centralSchedulerMatching stagedFirst stagedNext => wide 64 stagedFirst ++ wide 64 stagedNext
  | .hostReadCompletion tag values _ _ => [(tag, 64)] ++ wide 64 values
  | .hostCompletionTimeout tag => [(tag, 64)]
  | .directoryReadDone handle lineIndex _ => [(handle, 19), (lineIndex, 22)]
  | .vfEnableSet link numVfs => [(link, 5), (numVfs, 10)]
  | .busMasterEnableSet inst => [(inst, 10)]
  | .perst0Deassertion => []
  | .vaux33Rise insdly smbaddr ppssel flash => [(insdly, 8), (smbaddr, 8), (ppssel, 8), (flash, 8)]
  | .meteringSlotWaitTimeout inst => [(inst, 10)]
  | .ppsInputEdge => []
  | .ppsOutputSecond => []
  | .mctpControlMessage command => [(command, 8)]
  | .jtagInstructionUpdate instruction => [(instruction, 8)]
  | .viralReceived port => [(port, 5)]
  | .pcieLinkTrained port rate width _ _ => [(port, 5), (rate, 4), (width, 3)]
  | .prbsCheckerLock lane => [(lane, 9)]
  | .prbsLockLoss lane => [(lane, 9)]
  | .directoryBankFailure bank => [(bank, 6)]
  | .routeBankFailure tile bank => [(tile, 2), (bank, 6)]
  | .pseudoChannelFailure channel => [(channel, 6)]
  | .managementCoreFailure core => [(core, 3)]
  | .ageingMonitorFlag kind unit => [(kind, 3), (unit, 20)]
  | .datapathError => []
  | .shroudBridgeTimeout bridge => [(bridge, 8)]
  | .managementFirmwareFault _ seq => [(seq, 16)]

/-! ### The check -/

/-- The source of a command (R438). -/
def CmdSrc.wf : CmdSrc → Bool
  | .host q => decide (q < 8)
  | .inband o q n _ => fits [(o, 64), (q, 3), (n, 16)]
  | .board => true

/-- The header of a descriptor (R442). -/
def HlyHdr.wf (h : HlyHdr) : Bool :=
  h.src.wf && fits ([(h.reserved, 12), (h.seq, 16), (h.target, 16), (h.dataLength, 32), (h.dataAddress, 64), (h.hopCount, 4)] ++ wide 5 h.outPorts)

/-- The header that a command carries. -/
def Instr.header : Instr → Option HlyHdr
  | .nop h => some h
  | .deviceQuery h => some h
  | .inbandSet h _ _ _ _ _ _ _ => some h
  | .hostLinkSet h _ _ _ _ => some h
  | .modeSet h _ _ _ => some h
  | .pwrSet h _ _ _ _ _ _ _ _ => some h
  | .pwrQuery h _ => some h
  | .pwrCapture h _ _ _ _ _ => some h
  | .slotSet h _ _ _ _ _ _ => some h
  | .slotPower h _ _ _ => some h
  | .slotQuery h _ => some h
  | .portModeSet h _ _ _ _ => some h
  | .laneSet h _ _ _ _ _ _ _ _ _ => some h
  | .laneSpare h _ _ _ => some h
  | .laneTest h _ _ _ _ _ _ _ => some h
  | .laneQuery h _ => some h
  | .linkSet h _ _ _ _ _ _ => some h
  | .trnSet h _ _ _ _ _ _ _ => some h
  | .contextPin h _ _ _ _ _ => some h
  | .faultInject h _ _ _ _ => some h
  | .linkQuery h _ => some h
  | .trnQuery h _ _ _ _ => some h
  | .routeWrite h _ _ _ _ _ _ => some h
  | .routeEpochAdvance h _ => some h
  | .routeEpochRetire h => some h
  | .routePortSet h _ _ _ _ _ => some h
  | .routePolicySet h _ _ _ => some h
  | .contractRouteSet h _ _ _ _ => some h
  | .routeEndpointSet h _ _ _ => some h
  | .treeInstall h _ _ _ _ _ _ => some h
  | .treeRemove h _ => some h
  | .treeFence h _ _ _ => some h
  | .holdSet h _ => some h
  | .discover h => some h
  | .idAssign h _ _ => some h
  | .contractInstall h _ => some h
  | .contractModify h _ _ _ _ _ _ _ _ _ => some h
  | .contractRemove h _ => some h
  | .contractQuery h _ => some h
  | .hopReserve h _ => some h
  | .hopRelease h _ => some h
  | .meterSet h _ _ _ _ _ => some h
  | .portReserveSet h _ _ => some h
  | .ftuSet h _ _ _ _ _ _ => some h
  | .bufferAccountSet h _ _ _ _ => some h
  | .bufferPoolSet h _ => some h
  | .auditSet h _ _ => some h
  | .bufferReclaim h _ _ => some h
  | .bufferQuery h _ => some h
  | .egsLeafBind h _ _ _ _ _ _ _ _ => some h
  | .egsLeafUnbind h _ => some h
  | .egsNodeSet h _ _ _ _ _ _ _ _ _ => some h
  | .egsQuery h _ _ _ _ => some h
  | .arbSet h _ _ _ _ _ _ _ => some h
  | .arbQuery h _ _ => some h
  | .poolLinkSet h _ _ _ => some h
  | .extentBind h _ => some h
  | .extentUnbind h _ _ _ => some h
  | .importMap h _ => some h
  | .extentZero h _ _ => some h
  | .extentQuery h _ _ => some h
  | .functionBind h _ _ _ _ => some h
  | .functionUnbind h _ _ => some h
  | .slotRemove h _ => some h
  | .hbmPartitionSet h _ _ _ => some h
  | .cohAgentAdd h _ _ _ => some h
  | .cohAgentRemove h _ => some h
  | .cohWindowCreate h _ _ => some h
  | .cohWindowAgents h _ _ => some h
  | .cohWindowMap h _ _ _ _ => some h
  | .cohWindowDestroy h _ => some h
  | .dirSet h _ _ _ => some h
  | .dirQuery h _ _ _ => some h
  | .queueCreate h _ => some h
  | .queueDestroy h _ _ => some h
  | .queueMove h _ _ => some h
  | .queueRestart h _ _ => some h
  | .regionSet h _ => some h
  | .engInstanceSet h _ _ _ _ _ _ => some h
  | .engSet h _ _ _ _ => some h
  | .lockBreak h _ => some h
  | .engQuery h _ _ => some h
  | .collGroupSet h _ => some h
  | .collGroupRemove h _ => some h
  | .collFence h _ _ _ => some h
  | .collQuery h _ => some h
  | .instanceCreate h _ _ _ _ _ _ => some h
  | .instanceSet h _ _ _ _ _ => some h
  | .instanceReset h _ _ => some h
  | .instanceDisable h _ => some h
  | .dirtyLogSet h _ _ _ _ _ _ _ => some h
  | .dirtyLogSwap h _ => some h
  | .instanceQuery h _ => some h
  | .mpuRulesSet h _ _ _ _ _ => some h
  | .mpuSwap h _ => some h
  | .mpuQuery h _ => some h
  | .debugUnlock h _ _ _ _ => some h
  | .icuSet h _ _ _ _ _ _ => some h
  | .icuQuery h _ _ => some h
  | .faultSet h _ _ _ _ _ _ => some h
  | .faultForce h _ _ _ _ => some h
  | .faultClear h _ _ _ => some h
  | .faultQuery h _ _ => some h
  | .spareSwap h _ _ => some h
  | .spareQuery h _ => some h
  | .backgroundSet h _ _ _ _ _ _ _ => some h
  | .ttcSet h _ _ _ _ => some h
  | .dumpSet h _ _ _ _ _ _ _ => some h
  | .probeSet h _ _ _ _ _ _ _ _ _ => some h
  | .probeQuery h _ _ _ => some h
  | .mtrSet h _ _ => some h
  | .fwWrite h _ _ _ _ => some h
  | .fwActivate h _ _ _ => some h
  | .deviceReset h _ => some h
  | .fabricLeave h _ => some h
  | _ => none

/-- A destination fills the eight slots of R48: one number, or a list of at most eight device IDs, none of them the 0xFFFF that
marks an unused slot (R158). -/
def ContractP.slotsOk (c : ContractP) : Bool :=
  if c.destType = 3 then decide (c.dest.length ≤ 8) && c.dest.all (· != 0xFFFF) else c.dest.length == 1

/-- A list that travels in the parameters fills its slots: the four serials of INBAND_SET (R456), the seven shares of LINK_SET
(R231), the four groups of CONTRACT_ROUTE_SET (R194), and the destination of CONTRACT_INSTALL (R48). -/
def Instr.slotsOk : Instr → Bool
  | .inbandSet _ _ _ _ serials _ _ _ => serials.length == 4
  | .linkSet _ _ _ _ _ _ shares => shares.length == 7
  | .contractRouteSet _ _ _ _ groups => groups.length == 4
  | .contractInstall _ c => c.slotsOk
  | _ => true

/-- A command is well formed. -/
def Instr.wf (i : Instr) : Bool := (i.header.all HlyHdr.wf) && fits i.params && fits i.operands && i.slotsOk

end Sys2Proof
end

