-- ==== Sys2Proof/Machine/Descriptor.lean ====
section
/-!
DEFINITION. The command descriptor of Halyard (R442, R443, R455): the 64 bytes that spell a command in a command ring and at the
start of a command message, and the reading of them back into the command.
Where the spec leaves a point open: DESIGN CHOICE 15, 145 (notes/assumptions).
-/
namespace Sys2Proof

/-- What the host brings with a descriptor, beside its 512 bits: the source (R438), the route of a directed command and the lists
that travel in the data buffer (R444), what happened to that buffer's accesses (R454), and whether the addresses or the signature
that a command gives are good (R424, R480, R545). -/
structure Brought where
  src : CmdSrc
  hopCount : Nat := 0
  outPorts : List Nat := []
  inputError : Bool := false
  outputError : Bool := false
  list : List Nat := []
  children : List ChildSlot := []
  members : List MemberSlot := []
  entries : List MpuRegion := []
  serial : Nat := 0
  nonce : Nat := 0
  fact : Bool := false
deriving DecidableEq, Repr

/-- The part of a header that its descriptor does not hold. -/
def HlyHdr.brought (h : HlyHdr) : Brought :=
  { src := h.src, hopCount := h.hopCount, outPorts := h.outPorts, inputError := h.inputError, outputError := h.outputError }

/-- The command code of a Halyard command (R455); 0, which is reserved, for an event. -/
def Instr.code : Instr → Nat
  | .nop _ => 0x0001
  | .deviceQuery _ => 0x0002
  | .inbandSet _ _ _ _ _ _ _ _ => 0x0003
  | .hostLinkSet _ _ _ _ _ => 0x0004
  | .modeSet _ _ _ _ => 0x0101
  | .pwrSet _ _ _ _ _ _ _ _ _ => 0x0102
  | .pwrQuery _ _ => 0x0103
  | .pwrCapture _ _ _ _ _ _ => 0x0104
  | .slotSet _ _ _ _ _ _ _ => 0x0105
  | .slotPower _ _ _ _ => 0x0106
  | .slotQuery _ _ => 0x0107
  | .portModeSet _ _ _ _ _ => 0x0201
  | .laneSet _ _ _ _ _ _ _ _ _ _ => 0x0202
  | .laneSpare _ _ _ _ => 0x0203
  | .laneTest _ _ _ _ _ _ _ _ => 0x0204
  | .laneQuery _ _ => 0x0205
  | .linkSet _ _ _ _ _ _ _ => 0x0301
  | .trnSet _ _ _ _ _ _ _ _ => 0x0302
  | .contextPin _ _ _ _ _ _ => 0x0303
  | .faultInject _ _ _ _ _ => 0x0304
  | .linkQuery _ _ => 0x0305
  | .trnQuery _ _ _ _ _ => 0x0306
  | .routeWrite _ _ _ _ _ _ _ => 0x0401
  | .routeEpochAdvance _ _ => 0x0402
  | .routeEpochRetire _ => 0x0403
  | .routePortSet _ _ _ _ _ _ => 0x0404
  | .routePolicySet _ _ _ _ => 0x0405
  | .contractRouteSet _ _ _ _ _ => 0x0406
  | .routeEndpointSet _ _ _ _ => 0x0407
  | .treeInstall _ _ _ _ _ _ _ => 0x0408
  | .treeRemove _ _ => 0x0409
  | .treeFence _ _ _ _ => 0x040A
  | .holdSet _ _ => 0x040B
  | .discover _ => 0x040C
  | .idAssign _ _ _ => 0x040D
  | .contractInstall _ _ => 0x0501
  | .contractModify _ _ _ _ _ _ _ _ _ _ => 0x0502
  | .contractRemove _ _ => 0x0503
  | .contractQuery _ _ => 0x0504
  | .hopReserve _ _ => 0x0505
  | .hopRelease _ _ => 0x0506
  | .meterSet _ _ _ _ _ _ => 0x0507
  | .portReserveSet _ _ _ => 0x0508
  | .ftuSet _ _ _ _ _ _ _ => 0x0509
  | .bufferAccountSet _ _ _ _ _ => 0x0601
  | .bufferPoolSet _ _ => 0x0602
  | .auditSet _ _ _ => 0x0603
  | .bufferReclaim _ _ _ => 0x0604
  | .bufferQuery _ _ => 0x0605
  | .egsLeafBind _ _ _ _ _ _ _ _ _ => 0x0606
  | .egsLeafUnbind _ _ => 0x0607
  | .egsNodeSet _ _ _ _ _ _ _ _ _ _ => 0x0608
  | .egsQuery _ _ _ _ _ => 0x0609
  | .arbSet _ _ _ _ _ _ _ _ => 0x060A
  | .arbQuery _ _ _ => 0x060B
  | .poolLinkSet _ _ _ _ => 0x0701
  | .extentBind _ _ => 0x0702
  | .extentUnbind _ _ _ _ => 0x0703
  | .importMap _ _ => 0x0704
  | .extentZero _ _ _ => 0x0705
  | .extentQuery _ _ _ => 0x0706
  | .functionBind _ _ _ _ _ => 0x0707
  | .functionUnbind _ _ _ => 0x0708
  | .slotRemove _ _ => 0x0709
  | .hbmPartitionSet _ _ _ _ => 0x070A
  | .cohAgentAdd _ _ _ _ => 0x0801
  | .cohAgentRemove _ _ => 0x0802
  | .cohWindowCreate _ _ _ => 0x0803
  | .cohWindowAgents _ _ _ => 0x0804
  | .cohWindowMap _ _ _ _ _ => 0x0805
  | .cohWindowDestroy _ _ => 0x0806
  | .dirSet _ _ _ _ => 0x0807
  | .dirQuery _ _ _ _ => 0x0808
  | .queueCreate _ _ => 0x0901
  | .queueDestroy _ _ _ => 0x0902
  | .queueMove _ _ _ => 0x0903
  | .queueRestart _ _ _ => 0x0904
  | .regionSet _ _ => 0x0905
  | .engInstanceSet _ _ _ _ _ _ _ => 0x0906
  | .engSet _ _ _ _ _ => 0x0907
  | .lockBreak _ _ => 0x0908
  | .engQuery _ _ _ => 0x0909
  | .collGroupSet _ _ => 0x0A01
  | .collGroupRemove _ _ => 0x0A02
  | .collFence _ _ _ _ => 0x0A03
  | .collQuery _ _ => 0x0A04
  | .instanceCreate _ _ _ _ _ _ _ => 0x0B01
  | .instanceSet _ _ _ _ _ _ => 0x0B02
  | .instanceReset _ _ _ => 0x0B03
  | .instanceDisable _ _ => 0x0B04
  | .dirtyLogSet _ _ _ _ _ _ _ _ => 0x0B05
  | .dirtyLogSwap _ _ => 0x0B06
  | .instanceQuery _ _ => 0x0B07
  | .mpuRulesSet _ _ _ _ _ _ => 0x0C01
  | .mpuSwap _ _ => 0x0C02
  | .mpuQuery _ _ => 0x0C03
  | .debugUnlock _ _ _ _ _ => 0x0C04
  | .icuSet _ _ _ _ _ _ _ => 0x0C05
  | .icuQuery _ _ _ => 0x0C06
  | .faultSet _ _ _ _ _ _ _ => 0x0D01
  | .faultForce _ _ _ _ _ => 0x0D02
  | .faultClear _ _ _ _ => 0x0D03
  | .faultQuery _ _ _ => 0x0D04
  | .spareSwap _ _ _ => 0x0D05
  | .spareQuery _ _ => 0x0D06
  | .backgroundSet _ _ _ _ _ _ _ _ => 0x0D07
  | .ttcSet _ _ _ _ _ => 0x0E01
  | .dumpSet _ _ _ _ _ _ _ _ => 0x0E02
  | .probeSet _ _ _ _ _ _ _ _ _ _ => 0x0E03
  | .probeQuery _ _ _ _ => 0x0E04
  | .mtrSet _ _ _ => 0x0E05
  | .fwWrite _ _ _ _ _ => 0x0F01
  | .fwActivate _ _ _ _ => 0x0F02
  | .deviceReset _ _ => 0x0F03
  | .fabricLeave _ _ => 0x0F04
  | _ => 0

/-- What a command brings beside its descriptor. -/
def Instr.brought (i : Instr) (h : HlyHdr) : Brought :=
  match i with
  | .routeWrite _ _ _ _ _ _ masks => { h.brought with list := masks }
  | .treeInstall _ _ _ _ _ _ leaves => { h.brought with list := leaves }
  | .extentBind _ b => { h.brought with list := b.access }
  | .collGroupSet _ g => { h.brought with children := g.children, members := g.members }
  | .dirtyLogSet _ _ _ _ _ _ _ inFunction => { h.brought with fact := inFunction }
  | .mpuRulesSet _ _ _ _ _ entries => { h.brought with entries := entries }
  | .debugUnlock _ _ serial nonce signatureOk => { h.brought with serial := serial, nonce := nonce, fact := signatureOk }
  | .dumpSet _ _ _ _ _ _ _ inMemory => { h.brought with fact := inMemory }
  | .fwWrite _ _ _ _ data => { h.brought with list := data }
  | _ => h.brought

/-- The widths of the header's fields, from descriptor bit 0 (R442). -/
def headWidths : List Nat := [16, 1, 1, 1, 1, 12, 16, 16, 32, 64]

/-- The header of a descriptor, as fields with their widths (R442). -/
def HlyHdr.fields (h : HlyHdr) (code : Nat) : List (Nat × Nat) :=
  [(code, 16), (h.fence.toNat, 1), (h.remote.toNat, 1), (h.directed.toNat, 1), (h.interrupt.toNat, 1), (h.reserved, 12), (h.seq, 16),
    (h.target, 16), (h.dataLength, 32), (h.dataAddress, 64)]

/-- The 512 bits of a command's descriptor (R442, R443). -/
def Instr.descriptor (i : Instr) (h : HlyHdr) : Nat := Machine.packBits (h.fields i.code ++ i.params)

/-- A region entry of a rule set, 16 bytes (R472). -/
def MpuRegion.image (e : MpuRegion) : Nat :=
  Machine.packBits [(e.valid.toNat, 1), (e.space, 2), (e.perm.toNat, 9), (e.link, 5), (e.function, 10), (e.ownFunction.toNat, 1), (e.reserved, 4),
    (e.pages, 32), (e.basePage, 52), (0, 12)]

/-- The input data that a command brings in its data buffer (R379, R444, R472, R480). The signature of a debug unlock is no
operand: its bytes stand as 0 (DESIGN CHOICE 145). -/
def Instr.inputBytes : Instr → List Nat
  | .routeWrite _ _ _ _ _ _ masks => masks.flatMap (Machine.bytesLE 4)
  | .treeInstall _ _ _ _ _ _ leaves => leaves.flatMap (Machine.bytesLE 2)
  | .extentBind _ b => b.access.flatMap (Machine.bytesLE 4)
  | .collGroupSet _ g =>
    (g.children.flatMap fun c => Machine.bytesLE 8 (Machine.packBits [(c.device, 16), (c.inst, 10), (c.members, 20)])) ++
      g.members.flatMap fun m => Machine.bytesLE 16 (Machine.packBits
        [(m.inst, 10), (m.contribRegion, 16), (m.contribOffset, 36), (m.resultRegion, 16), (m.resultOffset, 36), (m.arrivalCounter, 12)])
  | .mpuRulesSet _ _ _ _ _ entries => entries.flatMap fun e => Machine.bytesLE 16 e.image
  | .debugUnlock _ action serial nonce _ =>
    if action = 1 then Machine.bytesLE 8 serial ++ Machine.bytesLE 32 nonce ++ List.replicate 96 0 else []
  | .fwWrite _ _ _ _ data => data
  | _ => []

/-- The header that a descriptor spells. -/
def readHeader (c : Brought) (w : Nat) : HlyHdr :=
  match Machine.unpackBits headWidths w with
  | [_, fence, remote, directed, interrupt, reserved, seq, target, len, addr] =>
    { src := c.src, seq, fence := fence == 1, remote := remote == 1, directed := directed == 1, interrupt := interrupt == 1, target, reserved, dataLength := len, dataAddress := addr, hopCount := c.hopCount, outPorts := c.outPorts, inputError := c.inputError, outputError := c.outputError }
  | _ => { src := c.src }

/-- The commands of class 0x00 (R455), from their code and the bits of their parameters. -/
def readGeneral (_ : Brought) (h : HlyHdr) (code p : Nat) : Option Instr :=
  match code with
  | 0x0001 => some (.nop h)
  | 0x0002 => some (.deviceQuery h)
  | 0x0003 =>
    match Machine.unpackBits [16, 1, 3, 64, 64, 64, 64, 10, 4, 7] p with
    | [x1, x2, x3, x4, x5, x6, x7, x8, x9, x10] =>
      some (.inbandSet h x1 (x2 == 1) x3 [x4, x5, x6, x7] x8 x9 x10)
    | _ => none
  | 0x0004 =>
    match Machine.unpackBits [5, 16, 6, 6] p with
    | [x1, x2, x3, x4] =>
      some (.hostLinkSet h x1 x2 x3 x4)
    | _ => none
  | _ => none

/-- The commands of class 0x01 (R455), from their code and the bits of their parameters. -/
def readPower (_ : Brought) (h : HlyHdr) (code p : Nat) : Option Instr :=
  match code with
  | 0x0101 =>
    match Machine.unpackBits [2, 1, 1] p with
    | [x1, x2, x3] =>
      some (.modeSet h x1 x2 (x3 == 1))
    | _ => none
  | 0x0102 =>
    match Machine.unpackBits [1, 16, 7, 9, 9, 8, 7, 7, 3, 1, 10, 6, 10, 14] p with
    | [x1, x2, x3, x4, x5, x6, x7, x8, x9, x10, x11, x12, x13, x14] =>
      some (.pwrSet h x1 x2 { inrush := x3, energyBudget := x4, fastTrip := x5, limit := x6, faultTime := x7, rampTimeout := x8, retryCount := x9 } (x10 == 1) x11 x12 x13 x14)
    | _ => none
  | 0x0103 =>
    match Machine.unpackBits [6] p with
    | [x1] =>
      some (.pwrQuery h x1)
    | _ => none
  | 0x0104 =>
    match Machine.unpackBits [2, 34, 6, 12, 13] p with
    | [x1, x2, x3, x4, x5] =>
      some (.pwrCapture h x1 x2 x3 x4 x5)
    | _ => none
  | 0x0105 =>
    match Machine.unpackBits [5, 16, 1, 1, 1, 7, 9, 9, 8, 7, 7, 3] p with
    | [x1, x2, x3, x4, x5, x6, x7, x8, x9, x10, x11, x12] =>
      some (.slotSet h x1 x2 (x3 == 1) (x4 == 1) (x5 == 1) { inrush := x6, energyBudget := x7, fastTrip := x8, limit := x9, faultTime := x10, rampTimeout := x11, retryCount := x12 })
    | _ => none
  | 0x0106 =>
    match Machine.unpackBits [5, 1, 1] p with
    | [x1, x2, x3] =>
      some (.slotPower h x1 (x2 == 1) (x3 == 1))
    | _ => none
  | 0x0107 =>
    match Machine.unpackBits [5] p with
    | [x1] =>
      some (.slotQuery h x1)
    | _ => none
  | _ => none

/-- The commands of class 0x02 (R455), from their code and the bits of their parameters. -/
def readPorts (_ : Brought) (h : HlyHdr) (code p : Nat) : Option Instr :=
  match code with
  | 0x0201 =>
    match Machine.unpackBits [5, 3, 3, 4] p with
    | [x1, x2, x3, x4] =>
      some (.portModeSet h x1 x2 x3 x4)
    | _ => none
  | 0x0202 =>
    match Machine.unpackBits [5, 16, 16, 10, 9, 1, 1, 10, 10] p with
    | [x1, x2, x3, x4, x5, x6, x7, x8, x9] =>
      some (.laneSet h x1 x2 x3 x4 x5 (x6 == 1) (x7 == 1) x8 x9)
    | _ => none
  | 0x0203 =>
    match Machine.unpackBits [5, 1, 3] p with
    | [x1, x2, x3] =>
      some (.laneSpare h x1 x2 x3)
    | _ => none
  | 0x0204 =>
    match Machine.unpackBits [9, 3, 4, 64, 6, 5, 16] p with
    | [x1, x2, x3, x4, x5, x6, x7] =>
      some (.laneTest h x1 x2 x3 x4 x5 x6 x7)
    | _ => none
  | 0x0205 =>
    match Machine.unpackBits [5] p with
    | [x1] =>
      some (.laneQuery h x1)
    | _ => none
  | _ => none

/-- The commands of class 0x03 (R455), from their code and the bits of their parameters. -/
def readLinks (_ : Brought) (h : HlyHdr) (code p : Nat) : Option Instr :=
  match code with
  | 0x0301 =>
    match Machine.unpackBits [5, 16, 9, 8, 10, 14, 14, 14, 14, 14, 14, 14] p with
    | [x1, x2, x3, x4, x5, x6, x7, x8, x9, x10, x11, x12] =>
      some (.linkSet h x1 x2 x3 x4 x5 [x6, x7, x8, x9, x10, x11, x12])
    | _ => none
  | 0x0302 =>
    match Machine.unpackBits [16, 9, 14, 14, 8, 10, 7] p with
    | [x1, x2, x3, x4, x5, x6, x7] =>
      some (.trnSet h x1 x2 x3 x4 x5 x6 x7)
    | _ => none
  | 0x0303 =>
    match Machine.unpackBits [16, 10, 1, 1, 1] p with
    | [x1, x2, x3, x4, x5] =>
      some (.contextPin h x1 x2 x3 x4 (x5 == 1))
    | _ => none
  | 0x0304 =>
    match Machine.unpackBits [5, 3, 16, 16] p with
    | [x1, x2, x3, x4] =>
      some (.faultInject h x1 x2 x3 x4)
    | _ => none
  | 0x0305 =>
    match Machine.unpackBits [5] p with
    | [x1] =>
      some (.linkQuery h x1)
    | _ => none
  | 0x0306 =>
    match Machine.unpackBits [16, 10, 1, 1] p with
    | [x1, x2, x3, x4] =>
      some (.trnQuery h x1 x2 x3 x4)
    | _ => none
  | _ => none

/-- The commands of class 0x04 (R455), from their code and the bits of their parameters. -/
def readRouting (c : Brought) (h : HlyHdr) (code p : Nat) : Option Instr :=
  match code with
  | 0x0401 =>
    match Machine.unpackBits [4, 1, 1, 10, 7] p with
    | [x1, x2, x3, x4, x5] =>
      some (.routeWrite h x1 x2 x3 x4 x5 c.list)
    | _ => none
  | 0x0402 =>
    match Machine.unpackBits [2] p with
    | [x1] =>
      some (.routeEpochAdvance h x1)
    | _ => none
  | 0x0403 => some (.routeEpochRetire h)
  | 0x0404 =>
    match Machine.unpackBits [5, 2, 10, 6, 1] p with
    | [x1, x2, x3, x4, x5] =>
      some (.routePortSet h x1 x2 x3 x4 (x5 == 1))
    | _ => none
  | 0x0405 =>
    match Machine.unpackBits [3, 2, 16] p with
    | [x1, x2, x3] =>
      some (.routePolicySet h x1 x2 x3)
    | _ => none
  | 0x0406 =>
    match Machine.unpackBits [14, 1, 3, 10, 10, 10, 10] p with
    | [x1, x2, x3, x4, x5, x6, x7] =>
      some (.contractRouteSet h x1 x2 x3 [x4, x5, x6, x7])
    | _ => none
  | 0x0407 =>
    match Machine.unpackBits [4, 2, 6] p with
    | [x1, x2, x3] =>
      some (.routeEndpointSet h x1 x2 x3)
    | _ => none
  | 0x0408 =>
    match Machine.unpackBits [13, 1, 6, 32, 1, 4] p with
    | [x1, x2, x3, x4, x5, x6] =>
      some (.treeInstall h x1 (x2 == 1) x3 x4 { here := x5 == 1, endpoint := x6 } c.list)
    | _ => none
  | 0x0409 =>
    match Machine.unpackBits [13] p with
    | [x1] =>
      some (.treeRemove h x1)
    | _ => none
  | 0x040A =>
    match Machine.unpackBits [1, 13, 6] p with
    | [x1, x2, x3] =>
      some (.treeFence h x1 x2 x3)
    | _ => none
  | 0x040B =>
    match Machine.unpackBits [4] p with
    | [x1] =>
      some (.holdSet h x1)
    | _ => none
  | 0x040C => some (.discover h)
  | 0x040D =>
    match Machine.unpackBits [16, 1] p with
    | [x1, x2] =>
      some (.idAssign h x1 (x2 == 1))
    | _ => none
  | _ => none

/-- The commands of class 0x05 (R455), from their code and the bits of their parameters. -/
def readContracts (_ : Brought) (h : HlyHdr) (code p : Nat) : Option Instr :=
  match code with
  | 0x0501 =>
    match Machine.unpackBits [14, 10, 3, 1, 2, 16, 16, 16, 16, 16, 16, 16, 16, 22, 22, 25, 13, 24, 1, 16, 32, 1, 24, 1] p with
    | [x1, x2, x3, x4, x5, x6, x7, x8, x9, x10, x11, x12, x13, x14, x15, x16, x17, x18, x19, x20, x21, x22, x23, x24] =>
      some (.contractInstall h { contractId := x1, inst := x2, sl := x3, aware := (x4 == 1), destType := x5, dest := (if x5 = 3 then [x6, x7, x8, x9, x10, x11, x12, x13].filter (· != 0xFFFF) else [x6]), committed := x14, peak := x15, burst := x16, maxPacket := x17, bound := x18, replayAllowance := (x19 == 1), lateThreshold := x20, egressPorts := x21, reefedSafe := (x22 == 1), remoteBudget := x23, hostStore := (x24 == 1) })
    | _ => none
  | 0x0502 =>
    match Machine.unpackBits [14, 16, 22, 22, 25, 1, 24, 16, 24] p with
    | [x1, x2, x3, x4, x5, x6, x7, x8, x9] =>
      some (.contractModify h x1 x2 x3 x4 x5 (x6 == 1) x7 x8 x9)
    | _ => none
  | 0x0503 =>
    match Machine.unpackBits [14] p with
    | [x1] =>
      some (.contractRemove h x1)
    | _ => none
  | 0x0504 =>
    match Machine.unpackBits [14] p with
    | [x1] =>
      some (.contractQuery h x1)
    | _ => none
  | 0x0505 =>
    match Machine.unpackBits [15, 3, 10, 16, 1, 32, 22, 25, 13, 1, 1] p with
    | [x1, x2, x3, x4, x5, x6, x7, x8, x9, x10, x11] =>
      some (.hopReserve h { resvId := x1, srcDevice := x4, inst := x3, sl := x2, destination := (x5 == 1), egressPorts := x6, committed := x7, burst := x8, maxPacket := x9, replayAllowance := (x10 == 1), reefedSafe := (x11 == 1) })
    | _ => none
  | 0x0506 =>
    match Machine.unpackBits [15] p with
    | [x1] =>
      some (.hopRelease h x1)
    | _ => none
  | 0x0507 =>
    match Machine.unpackBits [10, 22, 22, 25, 25] p with
    | [x1, x2, x3, x4, x5] =>
      some (.meterSet h x1 x2 x3 x4 x5)
    | _ => none
  | 0x0508 =>
    match Machine.unpackBits [5, 6] p with
    | [x1, x2] =>
      some (.portReserveSet h x1 x2)
    | _ => none
  | 0x0509 =>
    match Machine.unpackBits [16, 1, 5, 10, 1, 1] p with
    | [x1, x2, x3, x4, x5, x6] =>
      some (.ftuSet h x1 (x2 == 1) x3 x4 (x5 == 1) (x6 == 1))
    | _ => none
  | _ => none

/-- The commands of class 0x06 (R455), from their code and the bits of their parameters. -/
def readSwitch (_ : Brought) (h : HlyHdr) (code p : Nat) : Option Instr :=
  match code with
  | 0x0601 =>
    match Machine.unpackBits [10, 13, 3, 20] p with
    | [x1, x2, x3, x4] =>
      some (.bufferAccountSet h x1 x2 x3 x4)
    | _ => none
  | 0x0602 =>
    match Machine.unpackBits [20] p with
    | [x1] =>
      some (.bufferPoolSet h x1)
    | _ => none
  | 0x0603 =>
    match Machine.unpackBits [1, 6] p with
    | [x1, x2] =>
      some (.auditSet h (x1 == 1) x2)
    | _ => none
  | 0x0604 =>
    match Machine.unpackBits [2, 16] p with
    | [x1, x2] =>
      some (.bufferReclaim h x1 x2)
    | _ => none
  | 0x0605 =>
    match Machine.unpackBits [10] p with
    | [x1] =>
      some (.bufferQuery h x1)
    | _ => none
  | 0x0606 =>
    match Machine.unpackBits [6, 3, 10, 16, 8, 22, 25, 1] p with
    | [x1, x2, x3, x4, x5, x6, x7, x8] =>
      some (.egsLeafBind h x1 x2 x3 x4 x5 x6 x7 (x8 == 1))
    | _ => none
  | 0x0607 =>
    match Machine.unpackBits [16] p with
    | [x1] =>
      some (.egsLeafUnbind h x1)
    | _ => none
  | 0x0608 =>
    match Machine.unpackBits [2, 6, 3, 16, 16, 8, 22, 25, 1] p with
    | [x1, x2, x3, x4, x5, x6, x7, x8, x9] =>
      some (.egsNodeSet h x1 x2 x3 x4 x5 x6 x7 x8 (x9 == 1))
    | _ => none
  | 0x0609 =>
    match Machine.unpackBits [2, 6, 3, 16] p with
    | [x1, x2, x3, x4] =>
      some (.egsQuery h x1 x2 x3 x4)
    | _ => none
  | 0x060A =>
    match Machine.unpackBits [2, 8, 16, 1, 5, 5, 8] p with
    | [x1, x2, x3, x4, x5, x6, x7] =>
      some (.arbSet h x1 x2 x3 (x4 == 1) x5 x6 x7)
    | _ => none
  | 0x060B =>
    match Machine.unpackBits [2, 8] p with
    | [x1, x2] =>
      some (.arbQuery h x1 x2)
    | _ => none
  | _ => none

/-- The commands of class 0x07 (R455), from their code and the bits of their parameters. -/
def readPools (c : Brought) (h : HlyHdr) (code p : Nat) : Option Instr :=
  match code with
  | 0x0701 =>
    match Machine.unpackBits [5, 10, 6] p with
    | [x1, x2, x3] =>
      some (.poolLinkSet h x1 x2 x3)
    | _ => none
  | 0x0702 =>
    match Machine.unpackBits [19, 10, 2, 10, 14, 8, 12, 12, 16, 1, 5, 1] p with
    | [x1, x2, x3, x4, x5, x6, x7, x8, x9, x10, x11, x12] =>
      some (.extentBind h { handle := x1, count := x2, use := x3, inst := x4, firstSlot := x5, cohWindow := x6, expWindow := x7, firstIndex := x8, key := x9, readOnly := (x10 == 1), access := c.list.take x11, keep := (x12 == 1) })
    | _ => none
  | 0x0703 =>
    match Machine.unpackBits [19, 10, 1] p with
    | [x1, x2, x3] =>
      some (.extentUnbind h x1 x2 (x3 == 1))
    | _ => none
  | 0x0704 =>
    match Machine.unpackBits [10, 14, 16, 12, 12, 16, 2, 3, 1] p with
    | [x1, x2, x3, x4, x5, x6, x7, x8, x9] =>
      some (.importMap h { inst := x1, slot := x2, remoteDevice := x3, window := x4, index := x5, key := x6, preColour := x7, sl := x8, map := (x9 == 1) })
    | _ => none
  | 0x0705 =>
    match Machine.unpackBits [19, 10] p with
    | [x1, x2] =>
      some (.extentZero h x1 x2)
    | _ => none
  | 0x0706 =>
    match Machine.unpackBits [19, 10] p with
    | [x1, x2] =>
      some (.extentQuery h x1 x2)
    | _ => none
  | 0x0707 =>
    match Machine.unpackBits [5, 16, 5, 5] p with
    | [x1, x2, x3, x4] =>
      some (.functionBind h x1 x2 x3 x4)
    | _ => none
  | 0x0708 =>
    match Machine.unpackBits [5, 16] p with
    | [x1, x2] =>
      some (.functionUnbind h x1 x2)
    | _ => none
  | 0x0709 =>
    match Machine.unpackBits [5] p with
    | [x1] =>
      some (.slotRemove h x1)
    | _ => none
  | 0x070A =>
    match Machine.unpackBits [8, 6, 7] p with
    | [x1, x2, x3] =>
      some (.hbmPartitionSet h x1 x2 x3)
    | _ => none
  | _ => none

/-- The commands of class 0x08 (R455), from their code and the bits of their parameters. -/
def readDirectory (_ : Brought) (h : HlyHdr) (code p : Nat) : Option Instr :=
  match code with
  | 0x0801 =>
    match Machine.unpackBits [6, 1, 5] p with
    | [x1, x2, x3] =>
      some (.cohAgentAdd h x1 x2 x3)
    | _ => none
  | 0x0802 =>
    match Machine.unpackBits [6] p with
    | [x1] =>
      some (.cohAgentRemove h x1)
    | _ => none
  | 0x0803 =>
    match Machine.unpackBits [8, 64] p with
    | [x1, x2] =>
      some (.cohWindowCreate h x1 x2)
    | _ => none
  | 0x0804 =>
    match Machine.unpackBits [8, 64] p with
    | [x1, x2] =>
      some (.cohWindowAgents h x1 x2)
    | _ => none
  | 0x0805 =>
    match Machine.unpackBits [8, 10, 14, 1] p with
    | [x1, x2, x3, x4] =>
      some (.cohWindowMap h x1 x2 x3 (x4 == 1))
    | _ => none
  | 0x0806 =>
    match Machine.unpackBits [8] p with
    | [x1] =>
      some (.cohWindowDestroy h x1)
    | _ => none
  | 0x0807 =>
    match Machine.unpackBits [16, 14, 1] p with
    | [x1, x2, x3] =>
      some (.dirSet h x1 x2 (x3 == 1))
    | _ => none
  | 0x0808 =>
    match Machine.unpackBits [8, 12, 22] p with
    | [x1, x2, x3] =>
      some (.dirQuery h x1 x2 x3)
    | _ => none
  | _ => none

/-- The commands of class 0x09 (R455), from their code and the bits of their parameters. -/
def readEngines (_ : Brought) (h : HlyHdr) (code p : Nat) : Option Instr :=
  match code with
  | 0x0901 =>
    match Machine.unpackBits [10, 2, 14, 64, 5, 14, 7, 8, 10, 11] p with
    | [x1, x2, x3, x4, x5, x6, x7, x8, x9, x10] =>
      some (.queueCreate h { inst := x1, kind := x2, queue := x3, base := x4, log2Size := x5, cq := x6, engine := x7, weight := x8, maxOut := x9, vector := x10 })
    | _ => none
  | 0x0902 =>
    match Machine.unpackBits [2, 14] p with
    | [x1, x2] =>
      some (.queueDestroy h x1 x2)
    | _ => none
  | 0x0903 =>
    match Machine.unpackBits [14, 7] p with
    | [x1, x2] =>
      some (.queueMove h x1 x2)
    | _ => none
  | 0x0904 =>
    match Machine.unpackBits [2, 14] p with
    | [x1, x2] =>
      some (.queueRestart h x1 x2)
    | _ => none
  | 0x0905 =>
    match Machine.unpackBits [16, 1, 10, 1, 52, 25, 16, 4, 16, 16, 1, 10, 1, 12] p with
    | [x1, x2, x3, x4, x5, x6, x7, x8, x9, x10, x11, x12, x13, x14] =>
      some (.regionSet h { region := x1, valid := (x2 == 1), inst := x3, kind := x4, base := x5, length := x6, key := x7, rights := x8, filterDevice := x9, filterMask := x10, filterAny := (x11 == 1), filterInst := x12, counterValid := (x13 == 1), counter := x14 })
    | _ => none
  | 0x0906 =>
    match Machine.unpackBits [10, 14, 13, 16, 27, 19] p with
    | [x1, x2, x3, x4, x5, x6] =>
      some (.engInstanceSet h x1 x2 x3 x4 x5 x6)
    | _ => none
  | 0x0907 =>
    match Machine.unpackBits [16, 10, 9, 14] p with
    | [x1, x2, x3, x4] =>
      some (.engSet h x1 x2 x3 x4)
    | _ => none
  | 0x0908 =>
    match Machine.unpackBits [12] p with
    | [x1] =>
      some (.lockBreak h x1)
    | _ => none
  | 0x0909 =>
    match Machine.unpackBits [3, 14] p with
    | [x1, x2] =>
      some (.engQuery h x1 x2)
    | _ => none
  | _ => none

/-- The commands of class 0x0A (R455), from their code and the bits of their parameters. -/
def readCollectives (c : Brought) (h : HlyHdr) (code p : Nat) : Option Instr :=
  match code with
  | 0x0A01 =>
    match Machine.unpackBits [12, 10, 3, 2, 4, 3, 16, 1, 16, 20, 6, 5, 4] p with
    | [x1, x2, x3, x4, x5, x6, x7, x8, x9, x10, x11, x12, x13] =>
      some (.collGroupSet h { group := x1, inst := x2, sl := x3, operation := x4, type := x5, op := x6, elements := x7, root := (x8 == 1), parent := x9, totalMembers := x10, rootMember := x13, children := c.children.take x11, members := c.members.take x12 })
    | _ => none
  | 0x0A02 =>
    match Machine.unpackBits [12] p with
    | [x1] =>
      some (.collGroupRemove h x1)
    | _ => none
  | 0x0A03 =>
    match Machine.unpackBits [12, 1, 5] p with
    | [x1, x2, x3] =>
      some (.collFence h x1 x2 x3)
    | _ => none
  | 0x0A04 =>
    match Machine.unpackBits [12] p with
    | [x1] =>
      some (.collQuery h x1)
    | _ => none
  | _ => none

/-- The commands of class 0x0B (R455), from their code and the bits of their parameters. -/
def readInstances (c : Brought) (h : HlyHdr) (code p : Nat) : Option Instr :=
  match code with
  | 0x0B01 =>
    match Machine.unpackBits [10, 5, 10, 1, 9, 7] p with
    | [x1, x2, x3, x4, x5, x6] =>
      some (.instanceCreate h x1 x2 x3 x4 x5 x6)
    | _ => none
  | 0x0B02 =>
    match Machine.unpackBits [10, 16, 1, 9, 7] p with
    | [x1, x2, x3, x4, x5] =>
      some (.instanceSet h x1 x2 x3 x4 x5)
    | _ => none
  | 0x0B03 =>
    match Machine.unpackBits [10, 2] p with
    | [x1, x2] =>
      some (.instanceReset h x1 x2)
    | _ => none
  | 0x0B04 =>
    match Machine.unpackBits [10] p with
    | [x1] =>
      some (.instanceDisable h x1)
    | _ => none
  | 0x0B05 =>
    match Machine.unpackBits [10, 1, 64, 64, 64, 33] p with
    | [x1, x2, x3, x4, x5, x6] =>
      some (.dirtyLogSet h x1 (x2 == 1) x3 x4 x5 x6 c.fact)
    | _ => none
  | 0x0B06 =>
    match Machine.unpackBits [10] p with
    | [x1] =>
      some (.dirtyLogSwap h x1)
    | _ => none
  | 0x0B07 =>
    match Machine.unpackBits [10] p with
    | [x1] =>
      some (.instanceQuery h x1)
    | _ => none
  | _ => none

/-- The commands of class 0x0C (R455), from their code and the bits of their parameters. -/
def readProtection (c : Brought) (h : HlyHdr) (code p : Nat) : Option Instr :=
  match code with
  | 0x0C01 =>
    match Machine.unpackBits [8, 1, 6, 7] p with
    | [x1, x2, x3, x4] =>
      some (.mpuRulesSet h x1 x2 x3 x4 c.entries)
    | _ => none
  | 0x0C02 =>
    match Machine.unpackBits [8] p with
    | [x1] =>
      some (.mpuSwap h x1)
    | _ => none
  | 0x0C03 =>
    match Machine.unpackBits [8] p with
    | [x1] =>
      some (.mpuQuery h x1)
    | _ => none
  | 0x0C04 =>
    match Machine.unpackBits [2] p with
    | [x1] =>
      some (.debugUnlock h x1 c.serial c.nonce c.fact)
    | _ => none
  | 0x0C05 =>
    match Machine.unpackBits [1, 11, 12, 8, 5, 8] p with
    | [x1, x2, x3, x4, x5, x6] =>
      some (.icuSet h x1 x2 x3 x4 x5 x6)
    | _ => none
  | 0x0C06 =>
    match Machine.unpackBits [11, 7] p with
    | [x1, x2] =>
      some (.icuQuery h x1 x2)
    | _ => none
  | _ => none

/-- The commands of class 0x0D (R455), from their code and the bits of their parameters. -/
def readFaults (_ : Brought) (h : HlyHdr) (code p : Nat) : Option Instr :=
  match code with
  | 0x0D01 =>
    match Machine.unpackBits [11, 12, 16, 3, 16, 6] p with
    | [x1, x2, x3, x4, x5, x6] =>
      some (.faultSet h x1 x2 x3 x4 x5 x6)
    | _ => none
  | 0x0D02 =>
    match Machine.unpackBits [11, 1, 2, 10] p with
    | [x1, x2, x3, x4] =>
      some (.faultForce h x1 (x2 == 1) x3 x4)
    | _ => none
  | 0x0D03 =>
    match Machine.unpackBits [11, 12, 1] p with
    | [x1, x2, x3] =>
      some (.faultClear h x1 x2 (x3 == 1))
    | _ => none
  | 0x0D04 =>
    match Machine.unpackBits [11, 9] p with
    | [x1, x2] =>
      some (.faultQuery h x1 x2)
    | _ => none
  | 0x0D05 =>
    match Machine.unpackBits [3, 20] p with
    | [x1, x2] =>
      some (.spareSwap h x1 x2)
    | _ => none
  | 0x0D06 =>
    match Machine.unpackBits [3] p with
    | [x1] =>
      some (.spareQuery h x1)
    | _ => none
  | 0x0D07 =>
    match Machine.unpackBits [16, 8, 16, 14, 10, 11, 7] p with
    | [x1, x2, x3, x4, x5, x6, x7] =>
      some (.backgroundSet h x1 x2 x3 x4 x5 x6 x7)
    | _ => none
  | _ => none

/-- The commands of class 0x0E (R455), from their code and the bits of their parameters. -/
def readObservation (c : Brought) (h : HlyHdr) (code p : Nat) : Option Instr :=
  match code with
  | 0x0E01 =>
    match Machine.unpackBits [5, 3, 13, 32] p with
    | [x1, x2, x3, x4] =>
      some (.ttcSet h x1 x2 x3 x4)
    | _ => none
  | 0x0E02 =>
    match Machine.unpackBits [1, 16, 16, 64, 7, 6] p with
    | [x1, x2, x3, x4, x5, x6] =>
      some (.dumpSet h x1 x2 x3 x4 x5 x6 c.fact)
    | _ => none
  | 0x0E03 =>
    match Machine.unpackBits [3, 8, 2, 5, 5, 5, 64, 64, 17] p with
    | [x1, x2, x3, x4, x5, x6, x7, x8, x9] =>
      some (.probeSet h x1 x2 x3 x4 x5 x6 x7 x8 x9)
    | _ => none
  | 0x0E04 =>
    match Machine.unpackBits [3, 16, 16] p with
    | [x1, x2, x3] =>
      some (.probeQuery h x1 x2 x3)
    | _ => none
  | 0x0E05 =>
    match Machine.unpackBits [1, 10] p with
    | [x1, x2] =>
      some (.mtrSet h x1 x2)
    | _ => none
  | _ => none

/-- The commands of class 0x0F (R455), from their code and the bits of their parameters. -/
def readBoot (c : Brought) (h : HlyHdr) (code p : Nat) : Option Instr :=
  match code with
  | 0x0F01 =>
    match Machine.unpackBits [1, 25, 1] p with
    | [x1, x2, x3] =>
      some (.fwWrite h x1 x2 (x3 == 1) c.list)
    | _ => none
  | 0x0F02 =>
    match Machine.unpackBits [1, 2, 1] p with
    | [x1, x2, x3] =>
      some (.fwActivate h x1 x2 (x3 == 1))
    | _ => none
  | 0x0F03 =>
    match Machine.unpackBits [2] p with
    | [x1] =>
      some (.deviceReset h x1)
    | _ => none
  | 0x0F04 =>
    match Machine.unpackBits [1] p with
    | [x1] =>
      some (.fabricLeave h (x1 == 1))
    | _ => none
  | _ => none

/-- The command that a descriptor spells, with what the host brings for it: none where the code is reserved (R454, R455). -/
def readDescriptor (c : Brought) (w : Nat) : Option Instr :=
  let h := readHeader c w
  let code := w % 2 ^ 16
  let p := w / 2 ^ 160
  match code / 256 with
  | 0x00 => readGeneral c h code p
  | 0x01 => readPower c h code p
  | 0x02 => readPorts c h code p
  | 0x03 => readLinks c h code p
  | 0x04 => readRouting c h code p
  | 0x05 => readContracts c h code p
  | 0x06 => readSwitch c h code p
  | 0x07 => readPools c h code p
  | 0x08 => readDirectory c h code p
  | 0x09 => readEngines c h code p
  | 0x0A => readCollectives c h code p
  | 0x0B => readInstances c h code p
  | 0x0C => readProtection c h code p
  | 0x0D => readFaults c h code p
  | 0x0E => readObservation c h code p
  | 0x0F => readBoot c h code p
  | _ => none

end Sys2Proof
end

