-- ==== Sys2Proof/Config.lean ====
section
/-!
DEFINITION. What one part fixes, and the values that the spec leaves open. A constant without a body
has no value that a proof can see, so whatever is proved of the model holds for every value of it.
Where the spec leaves a point open: DESIGN CHOICE 3, 11, 41, 154, 158 (notes/assumptions).
-/
namespace Sys2Proof.Config

/-- What a signed image gives the device at boot beside its firmware (R564): the lock list, the
management cores' rule set A, and the boot configuration. -/
structure BootImage where
  /-- The lock list, at most 16 entries (R478). -/
  locks : List MpuRegion := []
  /-- Rule set A of the management cores, at most 64 regions (R477). -/
  rulesA : List MpuRegion := []
  /-- Mode, width and maximum rate of each port. -/
  ports : Nat → Nat × Nat × Nat := fun _ => (0, 3, 4)
  /-- Subsystem vendor ID and subsystem ID of every function (R431). -/
  subsystem : Nat × Nat := (0x1F3C, 0x3400)
  /-- The telltale configuration: programmable (R540). -/
  programmable : Bool := false
  /-- Priority and mask of each interrupt source (R488). -/
  icu : List (Nat × Nat × BitVec 5) := []
deriving Inhabited

/-- The free values of the model: the n-th value that a step takes where the spec states none. The
count of values taken is `State.freeCount`. -/
opaque freeValue : Nat → BitVec 64

/-- The device's serial number (RTE_SERIAL_LO and RTE_SERIAL_HI, R196). -/
opaque serial : Nat

/-- The fused lifecycle state: true is production, false development (R479). -/
opaque production : Bool

/-- The fused minimum security version at the first boot (R564, MGC_BOOT_STATUS). -/
opaque fusedFloor : Nat

/-- The image of a flash slot, by the slot and the firmware version of its image (R564). -/
opaque bootImage : Nat → Nat → BootImage

/-- The image in a flash slot passes the key and signature checks of R564, by the slot and the pieces that FW_WRITE
has written to it, newest first. -/
opaque imageGood : Nat → List (Nat × List Nat) → Bool

/-- The security version of the image in a flash slot (R564), by the same. -/
opaque imageVersion : Nat → List (Nat × List Nat) → Nat

/-- A bridge of the shroud network is implemented, by its number (R552, R554): the spec does not list the bridges. -/
opaque bridgeExists : Nat → Bool

/-- The board crosses the two wires of a lane's receive pair, by physical lane (R243): training corrects it. -/
opaque polarityInverted : Nat → Bool

/-- What a port's receivers ask of the far end in training (R244): precoding, by port; the coefficient requests of a lane (6 bits),
by physical lane and margin; and the preset that goes with them, by physical lane. The spec leaves adaptation to the part. -/
opaque wantsPrecode : Nat → Bool
opaque coeffRequest : Nat → Nat → Nat
opaque coeffPreset : Nat → Nat

/-- What a preset sets a cursor to, and the least and greatest coefficient of a cursor (R244): 0 pre, 1 main, 2 post. -/
opaque presetValue : Nat → Nat → Int
opaque coeffMin : Nat → Int
opaque coeffMax : Nat → Int

/-- The HBM channel, 0 to 63, of a line by handle and line, and of an address (R142): the spec does not state the interleaving. -/
opaque lineChannel : Nat → Nat → Nat
opaque addressChannel : Nat → Nat

/-- The flash repair record is good at a boot (R565). -/
opaque repairRecordGood : Bool

/-- HBM post-package repair has a row left for this HBM row (R533): what the stacks allow is theirs. -/
opaque hbmRowFree : Nat → Bool

/-- The HBM row that holds an address (R521, R533): how rows are numbered is the stacks'. -/
opaque hbmRow : Nat → Nat

/-- The time, in ns, that a host link whose rate is not known takes to receive a packet of this many bytes (R76):
the spec states none for a link that has never trained. -/
opaque hostReceiveNs : Nat → Nat

end Sys2Proof.Config
end

