-- ==== Sys2Proof/Machine/State.lean ====
section
/-!
DEFINITION. The state of the BML-3400-FA as plain data: one structure for each block, and `State`,
which holds them with the queue of commands. A field's docstring gives its width, the rule that
names it and its reset value, in the form "text. width; rule; reset value". The reset value is
the field's default, so that `State.reset` is every field at its default. "DESIGN CHOICE (n)" names
the log entry of a value for which the spec gives none.
-/
namespace Sys2Proof.Machine

/-- The machine never stops with a fault: whatever the spec describes leads to a next state (an
error status, a fault source, a halted or an unpowered device, each part of State). There is no
constructor, so that no command can fault. -/
inductive Fault where
deriving DecidableEq, Repr

/-- Why a command has no next state. -/
inductive Refusal where
  /-- Raised by an arm of `exec` whose command has no meaning yet. Safe: the model says nothing. -/
  | notModelled (mnemonic : String)
deriving DecidableEq, Repr
/-! ### Halyard (HLY) -/

/-- The firmware state of HLY_STATUS.fw_state (R469). -/
inductive FwState where
  | booting | running | halted
deriving DecidableEq, Repr

/-- A host command queue: its registers and rings (R440, R441, R469). -/
structure HQueue where
  /-- HLY_QCMD base: command ring address. 64 bits; R469; reset 0 -/
  cmdBase : Word64 := 0
  /-- HLY_QREPLY base: reply ring address. 64 bits; R469; reset 0 -/
  replyBase : Word64 := 0
  /-- HLY_QCFG.enable. 1 bit; R469; reset 0 -/
  enable : Bool := false
  /-- HLY_QCFG.log2_size. 4 bits, 4 to 12; R469; reset 4 -/
  log2Size : Nat := 4
  /-- HLY_QCFG.privilege: true is board, false management. 1 bit; R469; reset 0 -/
  board : Bool := false
  /-- HLY_QCFG.vector. 6 bits; R469; reset 0 -/
  vector : Nat := 0
  /-- HLY_QCFG.error. 1 bit; R441; reset 0 -/
  error : Bool := false
  /-- HLY_QCFG.reply_full. 1 bit; R452; reset 0 -/
  replyFull : Bool := false
  /-- Command producer index. 16 bits; R441; reset 0 (R469) -/
  cmdProducer : Nat := 0
  /-- HLY_QSTATE.cmd_consumer. 16 bits; R469; reset 0 -/
  cmdConsumer : Nat := 0
  /-- HLY_QSTATE.reply_producer. 16 bits; R469; reset 0 -/
  replyProducer : Nat := 0
  /-- Reply consumer index. 16 bits; R437; reset 0 (R469) -/
  replyConsumer : Nat := 0
deriving DecidableEq, Repr

/-- A status reply (R446) with the output data buffer that goes before it (R445, R594). -/
structure Reply where
  src : CmdSrc
  status : Nat
  seq : Nat
  code : Nat
  remote : Bool
  deviceValid : Bool
  device : Nat
  /-- The result field, reply bits [223:96], as one number. -/
  result : Nat
  /-- The output data buffer, byte 0 first. -/
  out : List Nat
  interrupt : Bool
  /-- Bit [255] of a reply on a host queue: 1 on the ring's first pass, inverted at each wrap. -/
  phase : Bool := false
deriving DecidableEq, Repr

/-- What a command may name and another be changing (R451). -/
inductive Obj where
  | device
  | inst (i : Nat)
  | port (p : Nat)
  | contract (c : Nat)
  | resv (r : Nat)
  | tree (t : Nat)
  | leaf (q : Nat)
  | extent (h : Nat)
  | function (port rid : Nat)
  | window (w : Nat)
  | agent (a : Nat)
  | sendQueue (q : Nat)
  | group (g : Nat)
  | master (m : Nat)
  | slot (n : Nat)
  | chan (c : Nat)
  | spare (kind unit : Nat)
deriving DecidableEq, Repr

/-- What an accepted command waits for before it completes (R449): the point its chapter names. -/
inductive Wait where
  /-- The reply of another device (R450, R463): resends so far, the target, the route of a directed command, and the descriptor that
  its message begins with. -/
  | remote (attempt target : Nat) (directed : Bool) (ports : List Nat) (descriptor : Nat)
  /-- The drain of a hop reservation (R88). -/
  | hopRelease (resvId : Nat)
  /-- The drain of an egress leaf (R149). -/
  | leafUnbind (queue : Nat)
  /-- The drain of a multicast tree (R190). -/
  | treeRemove (tree : Nat)
  /-- A port mode change (R262). -/
  | portMode (port : Nat)
  /-- Zeroing of extents (R280, R283); `handles` not yet free. -/
  | zeroing (handles : List Nat) (result : Nat)
  /-- An unbind's drain, release and zeroing (R283). -/
  | unbind (handles : List Nat) (zero : Bool)
  /-- A bind that zeroes its extents first or waits for the host (R282). -/
  | bind (handles : List Nat)
  /-- The accesses through an import slot that an unmap drains (R295). -/
  | importUnmap (inst slot : Nat)
  /-- A function release (R287). -/
  | functionUnbind (port rid : Nat)
  /-- A directory recall (R320, R322). -/
  | recall (recallId : Nat)
  /-- The end of a send queue's operations, or of a receive queue's as 65,536 + its number (R374). -/
  | queueDestroy (queue : Nat)
  /-- A metering dump asked for, by its snapshot number (R554). -/
  | dump (seq : Nat)
  /-- A queue move (R370). -/
  | queueMove (queue : Nat)
  /-- The drain of a collective group (R403). -/
  | groupRemove (group : Nat)
  /-- An instance reset (R414 to R419). -/
  | instReset (inst : Nat)
  /-- An instance disable (R413, R551). -/
  | instDisable (inst : Nat)
  /-- The writeback of a log swap (R423). -/
  | logSwap (inst : Nat)
  /-- The commit and retirement of a rule set (R476, R477). -/
  | mpuSwap (master : Nat)
  /-- A spare swap (R533). -/
  | spareSwap (kind unit : Nat)
  /-- A mode change (R507, R508, R510). -/
  | modeChange
  /-- HOP_RESERVE at a destination waits until every engine-cluster domain is On (R517). -/
  | domainsOn (resvId result : Nat)
  /-- A device or management complex reset (R558, R561). -/
  | reset
deriving DecidableEq, Repr

/-- A command that is accepted and not completed (R450). -/
structure Prog where
  src : CmdSrc
  seq : Nat
  code : Nat
  interrupt : Bool
  objs : List Obj
  wait : Wait
  /-- Its reply is discarded, after a Function Level Reset of instance 0. R562 -/
  mute : Bool := false
  /-- A write of its output data buffer returns an error. R454 -/
  outErr : Bool := false
  /-- Input data of a command to another device, which a resend carries again. R461, R463 -/
  input : List Nat := []
deriving DecidableEq, Repr

/-- The key of an in-band command (R463). -/
structure InbandKey where
  serial : Nat
  queue : Nat
  seq : Nat
deriving DecidableEq, Repr

/-- A message in reassembly (R461). -/
structure Reassembly where
  key : InbandKey
  segCount : Nat
  have_ : List Nat
deriving DecidableEq, Repr

/-- Halyard's state (R438 to R469). -/
structure Hly where
  /-- HLY_STATUS.fw_state. 2 bits; R469; reset 0b00 booting -/
  fwState : FwState := .booting
  /-- HLY_FW_VERSION patch, minor and major, as bits [23:0]. 24 bits; R469; reset 0 -/
  fwVersion : Nat := 0
  /-- HLY_FW_VERSION.image. 1 bit; R469; reset 0 -/
  fwImage : Nat := 0
  /-- HLY_INT_STATUS [4:0]. 5 bits; R469; reset 0 -/
  intStatus : BitVec 5 := 0
  /-- HLY_INT_ENABLE [4:0]. 5 bits; R469; reset 0 -/
  intEnable : BitVec 5 := 0
  /-- The eight host queues. 8 entries; R440; reset as HQueue -/
  queues : Tbl HQueue := []
  /-- Commands accepted and not completed. at most 64; R450; reset none -/
  progress : List Prog := []
  /-- Finished commands' replies that wait on a full reply ring, oldest first. list; R452; reset none -/
  heldReplies : List Reply := []
  /-- The board channel's request: its code and input length. one command; R467; reset none -/
  boardReq : Option (Nat × Nat) := none
  /-- INBAND_SET.accept: trusted origins only. 1 bit; R465; reset 0 -/
  trustedOnly : Bool := false
  /-- Trusted serials. 0 to 4 of 64 bits; R465; reset none -/
  trusted : List Nat := []
  /-- inband_timeout in units of 10 us. 10 bits; R465; reset 20 -/
  inbandTimeout : Nat := 20
  /-- inband_retries. 4 bits; R465; reset 8 -/
  inbandRetries : Nat := 8
  /-- inband_hold in units of 10 ms. 7 bits; R465; reset 100 -/
  inbandHold : Nat := 100
  /-- Messages in reassembly. at most 64; R461; reset none -/
  reassembly : List Reassembly := []
  /-- In-band commands received whole and not yet accepted, with the attempt's return port when
  directed. list; R461; reset none -/
  inbandReady : List InbandKey := []
  /-- The reply cache. at most 256 entries; R463; reset none -/
  replyCache : List (InbandKey × Reply) := []
  /-- Remote replies in reassembly at this origin: queue, seq, segments. list; R461; reset none -/
  replySegs : List (Nat × Nat × List Nat) := []
  /-- Return ports recorded for a directed command, for its reply. list; R192; reset none -/
  returnPorts : List (InbandKey × List Nat) := []
  /-- The device that each in-band command came from, for its reply. R459, R461; reset none -/
  origins : List (InbandKey × Nat) := []
  /-- The source served last in the rotating order of R447 (0 to 7 host queues, 8 in-band,
  9 board). 4 bits; R447; reset 9, DESIGN CHOICE (2) -/
  lastSource : Nat := 9
deriving DecidableEq, Repr
/-! ### Power, slots and operating modes (PWR, SLT) -/

/-- The operating modes (R38). -/
inductive Mode where
  | fullSail | reefed | stormJib | barePoles
deriving DecidableEq, Repr

/-- The channel states of R494. -/
inductive ChanState where
  | off | insertion | ramping | qualifying | on | coolDown | latchedOff
deriving DecidableEq, Repr

/-- Why a channel is measured continuously (R504). -/
structure Capture where
  startUp : Bool := false
  recovery : Bool := false
  test : Bool := false
deriving DecidableEq, Repr

/-- One power channel: channels 0 and 1 feeds, 2 + s slot s (R489 to R505). -/
structure Chan where
  /-- PWR_FEED.state, SLT_STATUS.state. 3 bits; R519; reset 0 Off -/
  state : ChanState := .off
  /-- PWR_FEED.in_window (feeds). 1 bit; R490; reset 0 -/
  inWindow : Bool := false
  /-- Fault timer running. 1 bit; R519; reset 0 -/
  timer : Bool := false
  /-- PWR_FEED.reverse_off (feeds). 1 bit; R493; reset 0 -/
  reverseOff : Bool := false
  /-- attempts. 3 bits; R519; reset 0 -/
  attempts : Nat := 0
  /-- Retries made since the last reset of the count. R500; reset 0 -/
  retries : Nat := 0
  /-- last_cause. 3 bits; R519; reset 0 -/
  lastCause : Nat := 0
  /-- PWR_FEED.voltage in mV, or a slot's output. 16 bits; R519; reset 0 -/
  voltage : Nat := 0
  /-- SLT_STATUS.current in mA (feeds: 10 mA). 16 bits; R519; reset 0 -/
  current : Nat := 0
  /-- The fault timer has withheld power-good, and the qualification restarts. R497; reset 0 -/
  withheld : Bool := false
  /-- Energy in mJ. 48 bits, saturating; R519; reset 0 -/
  energy : Nat := 0
  /-- The last completed window: peak and minimum voltage and current, mean power. R504; reset 0 -/
  window : List Nat := [0, 0, 0, 0, 0]
  /-- Continuous capture. R504; reset off -/
  capture : Capture := {}
  /-- Capture records, oldest first: the 64-bit image of R505. 4,096 entries; R504; reset none -/
  records : List Nat := []
  /-- Number of the next record. 8 bits; R505; reset 0 -/
  sequence : Nat := 0
  /-- Slot settings: enable, auto_power and pgin_use. 1 bit each; R501, R502; reset 0, 1, 0 -/
  enabled : Bool := false
  autoPower : Bool := true
  pginUse : Bool := false
  /-- SLT_STATUS.present. 1 bit; R519; reset 0 -/
  present : Bool := false
  /-- The auxiliary power-good input. 1 bit; R502; reset 0 -/
  pgin : Bool := false
  /-- The feed has been below 5.0 V since it was last in window (feeds). 1 bit; R494; reset 0 -/
  below5 : Bool := false
  /-- Settings of R516 in their steps when changed from the defaults. R516; reset default -/
  set_ : Option ChanSet := none
deriving DecidableEq, Repr

/-- The states of an engine-cluster domain (R512). -/
inductive DomState where
  | on | sleep | committed | off
deriving DecidableEq, Repr

/-- One engine-cluster power domain (R512 to R514). -/
structure Domain where
  /-- PWR_DOMAIN.state. 2 bits; R519; reset 0 On -/
  state : DomState := .on
  /-- PWR_DOMAIN.wakes. 16 bits, saturating; R519; reset 0 -/
  wakes : Nat := 0
  /-- The domain is waking or powering on. R513; reset 0 -/
  waking : Bool := false
  /-- A wake is owed once the power-off completes. R517; reset 0 -/
  wakeAfter : Bool := false
  /-- Packets held at the bridge. R513; reset none -/
  held : List Packet := []
deriving DecidableEq, Repr

/-- A mode change in progress (R506 to R510). -/
structure ModeChange where
  target : Mode
  reefForm : Nat
  force : Bool
  /-- Ports whose rate step is awaited. R507, R508 -/
  steps : List Nat := []
  /-- Storm jib: green packets and instance resets are still awaited. R508 -/
  draining : Bool := false
deriving DecidableEq, Repr

/-- Power, slots and modes (R489 to R519). -/
structure Pwr where
  /-- PWR_STATUS.mode. 2 bits; R519; reset 0b00 full sail -/
  mode : Mode := .fullSail
  /-- The mode that storm jib was entered from. R506; reset full sail -/
  modeLeft : Mode := .fullSail
  /-- PWR_STATUS.changing: the mode change in progress. 1 bit; R519; reset none -/
  change : Option ModeChange := none
  /-- reef_form in force. 1 bit; R507; reset 0, DESIGN CHOICE (2) -/
  reefForm : Nat := 0
  /-- PWR_STATUS.insdly. 2 bits; R519; reset strap, 2 -/
  insdly : Nat := 2
  /-- PWR_STATUS.wake_gpio. 6 bits; R519; reset 63 -/
  wakeGpio : Nat := 63
  /-- PWR_STATUS.window_ms. 10 bits; R519; reset 100 -/
  windowMs : Nat := 100
  /-- sleep_idle in us. 10 bits; R516; reset 10 -/
  sleepIdle : Nat := 10
  /-- power_off_idle in ms. 14 bits; R516; reset 0 -/
  powerOffIdle : Nat := 0
  /-- Power channels. 34 entries; R489; reset as Chan -/
  chans : Tbl Chan := []
  /-- Engine-cluster domains. 16 entries; R512; reset as Domain -/
  domains : Tbl Domain := []
  /-- Responses discarded at a domain committed to power-off. count; R513; reset 0 -/
  domainDrops : Nat := 0
  /-- THERMTRIP_N is held low by a thermal trip. 1 bit; R592; reset 0 -/
  thermTrip : Bool := false
  /-- PWR_INT_STATUS [5:0]. 6 bits; R519; reset 0 -/
  intStatus : BitVec 6 := 0
  /-- PWR_INT_ENABLE [5:0]. 6 bits; R519; reset 0 -/
  intEnable : BitVec 6 := 0
  /-- SLT_INT_STATUS [4:0]. 5 bits; R519; reset 0 -/
  sltStatus : BitVec 5 := 0
  /-- SLT_INT_ENABLE [4:0]. 5 bits; R519; reset 0 -/
  sltEnable : BitVec 5 := 0
  /-- No feed holds power-good since one did: the package but for the power and slot die is unpowered. R517; reset 0 -/
  lost : Bool := false
  /-- What happened in bare poles and waits for the next boot: a source number, 2,048 a feed trip, 4,096 + s a
  presence change of slot s. R511; reset none -/
  recorded : List Nat := []
deriving DecidableEq, Repr
/-! ### Fabric time (FTU) -/

/-- The synchronisation states of R71. -/
inductive SyncState where
  | unsynchronised | synchronised | holdover
deriving DecidableEq, Repr

/-- The exchanges of one port (R70). -/
structure FtPort where
  /-- Exchange number of the request outstanding, none when answered. 16 bits; R466; reset none -/
  outstanding : Option Nat := none
  /-- t1 of the outstanding request, in 1/16 ns. 64 bits; R70; reset 0 -/
  t1 : Nat := 0
  /-- One-way delays of the last 16 exchanges, newest first, in half units of 1/16 ns. 16 entries; R70; reset none -/
  delays : List Int := []
deriving DecidableEq, Repr

/-- The fabric-time unit (R69 to R73, R92). -/
structure Ftu where
  /-- Fabric time in 1/16 ns. 64 bits; R69; reset 0 -/
  time : Nat := 0
  /-- Fraction of a unit of 1/16 ns carried between core cycles. fraction; R69; reset 0 -/
  frac : Rat := 0
  /-- FTU_TIME_HI: bits [63:32] latched by the last read of FTU_TIME_LO. 32 bits; R92; reset 0 -/
  timeHi : Nat := 0
  /-- FTU_SYNC_STATUS.state. 2 bits; R92; reset 0b00 Unsynchronised -/
  sync : SyncState := .unsynchronised
  /-- FTU_SYNC_STATUS.grandmaster. 1 bit; R92; reset 0 -/
  grandmaster : Bool := false
  /-- FTU_SYNC_STATUS.parent_port. 5 bits; R92; reset 0 -/
  parentPort : Nat := 0
  /-- A parent port has been given by FTU_SET. 1 bit; R69; reset 0, DESIGN CHOICE (2) -/
  parentSet : Bool := false
  /-- FTU_SYNC_STATUS.depth. 6 bits; R92; reset 0 -/
  depth : Nat := 0
  /-- FTU_SYNC_STATUS.pps_locked. 1 bit; R92; reset 0 -/
  ppsLocked : Bool := false
  /-- FTU_SYNC_STATUS.last_offset: offset of the last exchange in 1/16 ns, unsaturated. 16 bits in
  the register; R92; reset 0 -/
  lastOffset : Int := 0
  /-- The sync period in us. 10 bits, 1 to 1,000; R70; reset 16 -/
  syncPeriod : Nat := 16
  /-- FTU_SET.pps_in. 1 bit; R456; reset 0, DESIGN CHOICE (2) -/
  ppsIn : Bool := false
  /-- FTU_SET.pps_out. 1 bit; R456; reset 0, DESIGN CHOICE (2) -/
  ppsOut : Bool := false
  /-- The frequency estimate of R70. fraction; R70; reset 0 -/
  freq : Rat := 0
  /-- The trim in force until the next exchange. fraction; R70; reset 0 -/
  trim : Rat := 0
  /-- Consecutive parent exchanges with an offset magnitude of at most 16 units. count; R71; reset 0 -/
  goodRun : Nat := 0
  /-- Consecutive parent exchanges with an offset magnitude above 16 units. count; R71; reset 0 -/
  badRun : Nat := 0
  /-- The device exchanges with its parent every 1 us, after a wake. 1 bit; R72; reset 0 -/
  fastExchange : Bool := false
  /-- The next exchange number. 16 bits; R466; reset 0, DESIGN CHOICE (2) -/
  exchange : Nat := 0
  /-- Ports: exchanges and delays (FTU_LINK_DELAY). 32 entries; R70; reset as FtPort -/
  ports : Tbl FtPort := []
deriving DecidableEq, Repr

/-! ### Admission, contracts and policers (ADM, POL) -/

/-- A contract of the source device's table (R48) with its policer (R59), its miss counts (R87),
its own hop budget (R50) and its share of the contract pool (R108). -/
structure Contract where
  p : ContractP
  /-- Committed bucket tc, in units of 1/3,200,000 byte. R59 -/
  tc : Nat
  /-- Peak bucket tp, in the same units. R59 -/
  tp : Nat
  /-- Core time of the last refill, in 1/400 ns. R59 -/
  refillAt : Nat
  /-- Misses since the last late event. 16 bits; R87 -/
  miss : Nat := 0
  /-- Lifetime miss total. 48 bits, saturating; R87 -/
  missTotal : Nat := 0
  /-- The device's own hop budget in ns. R50 -/
  hopBudget : Nat
  /-- The listed ports on which it was accepted with the control figure. 32 bits; R78, R146 -/
  control : Nat := 0
  /-- The contract-pool cells of the contract's account. R108 -/
  share : Nat
  /-- Cells of the account in use. R110 -/
  used : Nat := 0
  /-- Contract route set (R166): policy mode, and groups allowed. -/
  routeMode : Nat := 0
  routeGroups : List Nat := []
deriving DecidableEq, Repr

/-- A hop reservation (R49) with its budget (R50) and its account (R108). -/
structure Resv where
  p : ResvP
  hopBudget : Nat
  /-- The listed ports on which it was accepted with the control figure. 32 bits; R78, R146 -/
  control : Nat := 0
  share : Nat
  used : Nat := 0
  /-- HOP_RELEASE has been accepted and the drain is awaited. R88 -/
  releasing : Bool := false
deriving DecidableEq, Repr

/-- An instance's fall-back meter (R67): unmetered while its peak rate is 0. -/
structure Meter where
  committed : Nat := 0
  peak : Nat := 0
  committedBurst : Nat := 0
  peakBurst : Nat := 0
  tc : Nat := 0
  tp : Nat := 0
  refillAt : Nat := 0
deriving DecidableEq, Repr

/-- Reservations of one port (R55, R56). -/
structure AdmPort where
  /-- ADM_PORT_RESV.fraction, in 1/64. 6 bits; R55; reset 48 -/
  fraction : Nat := 48
  /-- ADM_PORT_RESV.overcommit. 1 bit; R56; reset 0 -/
  overcommit : Bool := false
deriving DecidableEq, Repr

/-- Admission (R46 to R92). -/
structure Adm where
  /-- The contract table. 16,384 entries; R48; reset none installed -/
  contracts : Tbl Contract := []
  /-- The hop reservation table. 32,768 entries; R49; reset none installed -/
  resvs : Tbl Resv := []
  /-- Fall-back meters by instance. 1,024 entries; R67; reset unmetered -/
  meters : Tbl Meter := []
  /-- ADM_PORT_RESV per port. 32 entries; R92; reset as AdmPort -/
  ports : Tbl AdmPort := []
  /-- ADM_INT_STATUS [4:0]. 5 bits; R92; reset 0 -/
  intStatus : BitVec 5 := 0
  /-- ADM_INT_ENABLE [4:0]. 5 bits; R92; reset 0 -/
  intEnable : BitVec 5 := 0
  /-- Green packets counted as unjudged. count; R74; reset 0 -/
  unjudged : Nat := 0
  /-- Packets counted as unreserved green. count; R84; reset 0 -/
  unreservedGreen : Nat := 0
  /-- Contracts stay suspended for storm jib (R41, R91). 1 bit; R41; reset 0 -/
  stormSuspend : Bool := false
deriving DecidableEq, Repr
/-! ### Switch core, central scheduler and output buffer (XSW, CSC, OBF) -/

/-- A buffer account (R94, R107, R110, R113). -/
structure Account where
  /-- min_reserve in cells. 13 bits; R107; reset 64 -/
  minReserve : Nat := 64
  /-- alpha_exp, -3 to +3. 3 bits; R110; reset 0 -/
  alphaExp : Int := 0
  /-- mark_threshold in cells. 20 bits; R113; reset 4,096 -/
  markThreshold : Nat := 4096
  /-- Cells taken from the minimum reserve. count; R110; reset 0 -/
  fromReserve : Nat := 0
  /-- Cells taken from the shared pool. count; R110; reset 0 -/
  fromShared : Nat := 0
  /-- Admission waits counted on the account. count; R111; reset 0 -/
  waits : Nat := 0
deriving DecidableEq, Repr

/-- The state field of a cell tag (R114). -/
inductive CellState where
  | free | reserved | linked | reading
deriving DecidableEq, Repr

/-- A cell tag (R114). -/
structure CellTag where
  next : Nat := 0xFFFFF
  owner : Nat := 0xFFFF
  epoch : Nat := 0
  allocTime : Nat := 0
  state : CellState := .free
  first : Bool := false
  overdue : Bool := false
deriving DecidableEq, Repr

/-- Whose account the cells of a packet came from (R110). -/
inductive Charge where
  | none
  | contract (id : Nat)
  | resv (id : Nat)
deriving DecidableEq, Repr

/-- A packet that waits at its ingress, from the routing stage to its buffer admission
(R97, R111, R118, R168). -/
structure WaitPkt where
  pkt : Packet
  len : Nat
  input : Nat
  /-- Arrived on this VL at its input. -/
  rxVl : Nat
  /-- Residency clock when the header first reached the routing stage. R118 -/
  routedAt : Nat
  /-- The outputs still to be admitted, each with its VL; empty while a route is awaited (R168). -/
  outs : List (Nat × Nat)
  /-- The packet was built in or entered this device (R130). -/
  fromLocal : Bool
  /-- The packet is in its end-to-end transport's care (R119). -/
  sequenced : Bool
  /-- It waits for peak tokens at the source (R64), not for a route or for room. -/
  edgeWait : Bool := false
  /-- Its sender pre-coloured it yellow. R60 -/
  preYellow : Bool := false
  /-- Core time at which its edge wait began. R64, R549 -/
  waitFrom : Option Nat := none
  /-- The local instance as whose traffic it was policed here, when not its header's. R350, R394 -/
  own : Option Nat := none
  /-- Its place in the order of arrival at the routing stage. R82, R97 -/
  no : Nat := 0
  /-- A message segment of the management complex that comes to the routing stage in the next core cycle. R461 -/
  built : Bool := false
  /-- Flits of its frame, as the link head gave them; 0 where it came on no link. R209 -/
  flits : Nat := 0
deriving DecidableEq, Repr

/-- A packet in the output buffer (R95, R110, R114). -/
structure BufPkt where
  pkt : Packet
  len : Nat
  input : Nat
  rxVl : Nat
  output : Nat
  vl : Nat
  queue : Nat
  account : Nat
  charge : Charge
  takeR : Nat
  takeM : Nat
  takeS : Nat
  /-- Its cells, first cell first. R95 -/
  cells : List Nat
  /-- Cells written into the buffer. R103, R114 -/
  written : Nat := 0
  /-- Selected by the egress and being read. R114 -/
  started : Bool := false
  routedAt : Nat
  sequenced : Bool
  fromLocal : Bool
  /-- Green that matches no reservation here. R84, R136 -/
  unreserved : Bool := false
  /-- Its place in the order of arrival at the routing stage. R82 -/
  no : Nat := 0
  /-- Flits of its frame, as the link head gave them; 0 where it came on no link. R209 -/
  flits : Nat := 0
  /-- The contract or reservation that it was charged to is removed: those cells count as shared use. R125 -/
  stray : Bool := false
deriving DecidableEq, Repr

/-- A pair locked in a matching (R100). -/
structure Pair where
  input : Nat
  output : Nat
  pid : Nat
deriving DecidableEq, Repr

/-- One matching of the central scheduler (R99). -/
structure Matching where
  /-- Pairs locked. at most 36; R100; reset none -/
  pairs : List Pair := []
  /-- Grant pointer per output slot. 36 of 0 to 35; R99; reset 0, DESIGN CHOICE (2) -/
  grantPtr : Tbl Nat := []
  /-- Accept pointer per input. 36 of 0 to 35; R99; reset 0, DESIGN CHOICE (2) -/
  acceptPtr : Tbl Nat := []
deriving DecidableEq, Repr

/-- A staging buffer (R96). -/
structure Staging where
  /-- CSC_STAGING.high_water. 7 bits; R126; reset 0 -/
  highWater : Nat := 0
deriving DecidableEq, Repr

/-- The central scheduler and the switch core (R93 to R102). -/
structure Csc where
  /-- Matching A, write slot 0. R98; reset none locked -/
  a : Matching := {}
  /-- Matching B, write slot 1. R98; reset none locked -/
  b : Matching := {}
  /-- Staging buffers. 36 of 64 cells; R96; reset empty -/
  staging : Tbl Staging := []
  /-- The cells of each packet that have come to its input's staging buffer, by packet: those that have not crossed stand
  there (CSC_STAGING.occupancy). 7 bits an input; R96, R126; reset none -/
  come : Tbl Nat := []
  /-- Cells that the ingress ports hold back while a staging buffer is full, by packet, oldest first. list; R96; reset none -/
  back : List Nat := []
  /-- Transfers suspended by a broken pair keep their count in BufPkt.written; their packets. list; R100; reset none -/
  broken : List Nat := []
deriving DecidableEq, Repr

/-- The audit (R116 to R120). -/
structure Audit where
  /-- OBF_AUDIT_STATUS.enabled. 1 bit; R126; reset 1 -/
  enabled : Bool := true
  /-- OBF_AUDIT_STATUS.residency_ms. 6 bits; R126; reset 10 -/
  residencyMs : Nat := 10
  /-- The limit that the next pass starts with. 6 bits; R124; reset 10 -/
  nextResidencyMs : Nat := 10
  /-- OBF_AUDIT_STATUS.pass_count. 16 bits; R126; reset 0 -/
  passCount : Nat := 0
  /-- A pass has completed since the audit was enabled. 1 bit; R121; reset 0 -/
  passDone : Bool := false
  /-- Orphans of the last completed pass: the cell and its tag. list; R116; reset none -/
  orphans : List (Nat × CellTag) := []
  /-- Cells over residency in the last completed pass. list; R116; reset none -/
  overResidency : List Nat := []
  /-- The last pass found a free-list mismatch. 1 bit; R116; reset 0 -/
  mismatch : Bool := false
deriving DecidableEq, Repr

/-- The output buffer (R106 to R125). -/
structure Obf where
  /-- Buffer accounts. 236 entries; R94; reset as Account -/
  accounts : Tbl Account := []
  /-- OBF_POOL.pool_size: the contract pool in cells. 20 bits; R108; reset 262,144 -/
  poolSize : Nat := 262144
  /-- Cells that count as shared use after their reservation was removed. count; R125; reset 0 -/
  strayShared : Nat := 0
  /-- Cell tags. 1,048,576 of 72 bits; R114; reset free -/
  cells : Tbl CellTag := []
  /-- Free cells missing from the free list. list; R116; reset none -/
  unlisted : List Nat := []
  /-- Queue epochs. 65,535 of 8 bits; R115; reset 0, DESIGN CHOICE (2) -/
  epochs : Tbl Nat := []
  /-- The residency clock. 24 bits; R115; reset 0, DESIGN CHOICE (2) -/
  residency : Nat := 0
  /-- Core cycles since the residency clock advanced. count; R115; reset 0 -/
  residencyFrac : Nat := 0
  /-- The audit. R116; reset as Audit -/
  audit : Audit := {}
  /-- OBF_INT_STATUS [3:0]. 4 bits; R126; reset 0 -/
  intStatus : BitVec 4 := 0
  /-- OBF_INT_ENABLE [3:0]. 4 bits; R126; reset 0 -/
  intEnable : BitVec 4 := 0
  /-- Packets at ingress, oldest first. list; R97, R111; reset none -/
  waiting : List WaitPkt := []
  /-- Packets in the buffer, in the order of their admission. list; R110; reset none -/
  pkts : List BufPkt := []
  /-- Rotating order for an output's last cells: one past the last winner. 36 of 0 to 35; R125; reset 0, DESIGN CHOICE (2) -/
  turn : Tbl Nat := []
  /-- Device-wide rotating order for the shared pool's last cells. 0 to 35; R125; reset 0, DESIGN CHOICE (2) -/
  turnAll : Nat := 0
  /-- Packets that have come to the routing stage so far, which numbers them. R82; MODEL's own; reset 0 -/
  arrived : Nat := 0
deriving DecidableEq, Repr

/-! ### Egress scheduling and the arbiters (EGS, ARB registers) -/

/-- A token shaper (R133, R134). -/
structure Shaper where
  /-- Rate in Mb/s, 0 unshaped. 22 bits; R133; reset 0 -/
  rate : Nat := 0
  /-- Depth in bytes. 25 bits; R133; reset 4,224 (R135) -/
  burst : Nat := 4224
  /-- token_reset: 0 to full, 1 to empty. 1 bit; R134; reset 0 -/
  tokenReset : Bool := false
  /-- Tokens in units of 1/3,200,000 byte. signed; R133; reset full -/
  tokens : Int := 4224 * 3200000
  /-- Core time of the last refill, in 1/400 ns. R133; reset 0 -/
  refillAt : Nat := 0
deriving DecidableEq, Repr

/-- A child of a service node or port node: its weight, deficit and shaper (R132, R133). -/
structure Child where
  /-- Weight. 8 bits, 1 to 255; R132; reset 16 -/
  weight : Nat := 16
  /-- Deficit in bytes. signed; R132; reset 0, DESIGN CHOICE (2) -/
  deficit : Int := 0
  /-- Its weight has changed since the node last visited it: its deficit is cut at the next visit. R150; reset 0 -/
  cut : Bool := false
  /-- The shaper. R133; reset unshaped -/
  shaper : Shaper := {}
deriving DecidableEq, Repr

/-- A bound leaf (R148, R149). -/
structure Leaf where
  output : Nat
  sl : Nat
  inst : Nat
  child : Child
  /-- EGS_LEAF_UNBIND has been accepted; the leaf drains. R149 -/
  unbinding : Bool := false
deriving DecidableEq, Repr

/-- A resume slot (R139, R104). -/
structure ResumeSlot where
  queue : Nat
  pid : Nat
  /-- The first cell of the frame. R139 -/
  firstCell : Nat
  /-- Flits of the frame already sent, 0 to 66. R138 -/
  progress : Nat
  /-- Suspended for a stalled ingress (R104), not cut by a control packet (R138). -/
  stalled : Bool
  /-- Its frame is being sent again: the slot is held until the last flit. R139 -/
  resumed : Bool := false
deriving DecidableEq, Repr

/-- The frame that an output is sending. -/
structure Sending where
  pid : Nat
  progress : Nat
deriving DecidableEq, Repr

/-- One output's egress (R127 to R141). -/
structure Egress where
  /-- The frame being sent. R128; reset none -/
  sending : Option Sending := none
  /-- Resume slots by VL. 7 entries; R139; reset free -/
  resume : Tbl ResumeSlot := []
  /-- VL6 bytes sent, with the core time of each, newest first, for the window of R79. list; R79; reset none -/
  vl6Sent : List (Nat × Nat) := []
  /-- Unreserved-green share in 1/64. 4 bits; R136; reset 1 -/
  unresShare : Nat := 1
  /-- Unreserved-green tokens, in 1/3,200,000 byte. signed; R136; reset full -/
  unresTokens : Int := 4224 * 3200000
  /-- Background slice tokens, in 1/3,200,000 byte. signed; R127; reset full, DESIGN CHOICE (2) -/
  sliceTokens : Int := 4224 * 3200000
  /-- Core time of the last refill of both, in 1/400 ns. R136; reset 0 -/
  refillAt : Nat := 0
  /-- The child that the port node visits, and whether it has its quantum of this visit. R132; reset 0, DESIGN CHOICE (2) -/
  visit : Nat × Bool := (0, false)
  /-- The same for each service node: the queue visited. 7 entries; R132; reset 0, DESIGN CHOICE (2) -/
  svcVisit : Tbl (Nat × Bool) := []
  /-- The queue of background frames, 0x0080 + output, as lengths in bytes, oldest first. list; R127, R129; reset none -/
  background : List Nat := []
  /-- The background frame being sent: its bytes that were left as it started. R45; reset none -/
  backSending : Option Nat := none
deriving DecidableEq, Repr

/-- Egress scheduling (R127 to R151). -/
structure Egs where
  /-- Bound leaves by queue number. 63,487 entries; R129; reset none bound -/
  leaves : Tbl Leaf := []
  /-- The transit and default subscriber queues by queue number: weight, deficit. R129; reset weight 16 -/
  subs : Tbl Child := []
  /-- Service nodes by 7 * output + level. 252 entries; R132; reset as Child -/
  svc : Tbl Child := []
  /-- Port nodes by output. 36 entries; R132; reset as Child -/
  port : Tbl Child := []
  /-- Outputs. 36 entries; R127; reset as Egress -/
  out : Tbl Egress := []
  /-- EGS_INT_STATUS [3:0]. 4 bits; R152; reset 0 -/
  intStatus : BitVec 4 := 0
  /-- EGS_INT_ENABLE [3:0]. 4 bits; R152; reset 0 -/
  intEnable : BitVec 4 := 0
deriving DecidableEq, Repr

/-- One arbiter (R142 to R147). -/
structure Arb where
  /-- PREFIX_ARB_CFG.compat. 1 bit; R152; reset 0 -/
  compat : Bool := false
  /-- PREFIX_ARB_CFG.threshold_exp. 5 bits; R152; reset 16 -/
  thresholdExp : Nat := 16
  /-- PREFIX_ARB_CFG.owner while PREFIX_ARB_CFG.granted. 5 bits and 1 bit; R152; reset not granted -/
  owner : Option Nat := none
  /-- Weights by requester. 8 bits each; R143; reset 16 -/
  weights : Tbl Nat := []
  /-- Progress counts by requester, in preemption units. counts; R143; reset 0 -/
  progress : Tbl Nat := []
  /-- Owners that have been preempted, the latest first. list; R143; reset none -/
  preempted : List Nat := []
  /-- Weighted round robin of each class: the requester whose turn it is, and the grants left to it. R143; reset 0 -/
  turns : Tbl (Nat × Nat) := []
  /-- Wait counters by requester, in core cycles. counts; R147; reset 0 -/
  waits : Tbl Nat := []
  /-- Requesters whose wait counter has reached the threshold since they last held a grant. list; R147; reset none -/
  reached : List Nat := []
  /-- Core cycles since the background class last held the grant while it asks. at most 63; R44; reset 0 -/
  slice : Nat := 0
  /-- PREFIX_ARB_STARVE.starved. 24 bits; R152; reset 0 -/
  starved : BitVec 24 := 0
deriving DecidableEq, Repr

/-- The arbiters of R142: by 256 * resource + index, with resources 0 egress link, 1 HBM channel,
2 directory bank, 3 engine-cluster accelerator. -/
structure Arbs where
  /-- The arbiters. 36 + 64 + 33 + 32 entries; R142; reset as Arb -/
  arb : Tbl Arb := []
  /-- PREFIX_ARB_INT_ENABLE.enable of EGS, HMC, DIR, MEC. 4 of 1 bit; R152; reset 0 -/
  intEnable : BitVec 4 := 0
deriving DecidableEq, Repr
/-! ### Routing, ordering and multicast (RTE) -/

/-- The states of a route bank (R161). -/
inductive BankState where
  | empty | written | active | old
deriving DecidableEq, Repr

/-- The two tables of a bank (R161): candidate masks by destination group and member. -/
structure RouteTables where
  /-- Group table. 1,024 masks of 32 bits; R161; reset 0 (R163) -/
  group : Tbl Word := []
  /-- Member table. 64 masks of 32 bits; R161; reset 0 (R163) -/
  member : Tbl Word := []
deriving DecidableEq, Repr

/-- A bank's state and tag, the same in every tile (R25, R161). -/
structure Bank where
  state : BankState := .empty
  tag : Nat := 0
deriving DecidableEq, Repr

/-- RTE_PORT_ROUTE and the neighbour of a port (R160, R191, R196). -/
structure PortRoute where
  /-- kind: 0 not fabric, 1 local, 2 global. 2 bits; R160; reset 0 -/
  kind : Nat := 0
  /-- up: in ports_up. 1 bit; R196; reset 0 -/
  up : Bool := false
  /-- neighbour_group. 10 bits; R196; reset 0 -/
  group : Nat := 0
  /-- neighbour_member. 6 bits; R196; reset 0 -/
  member : Nat := 0
  /-- neighbour_valid. 1 bit; R191; reset 0 -/
  nbrValid : Bool := false
  /-- neighbour_port. 5 bits; R191; reset 0 -/
  nbrPort : Nat := 0
  /-- The neighbour's serial number. 64 bits; R191; reset 0 -/
  nbrSerial : Nat := 0
deriving DecidableEq, Repr

/-- The policy of a service level for yellow packets (R165). -/
structure RoutePolicy where
  /-- 0 adaptive, 1 minimal, 2 non-minimal. 2 bits; R165; reset 0 -/
  mode : Nat := 0
  /-- Bias in cells. 16 bits; R165; reset 64 -/
  bias : Nat := 64
deriving DecidableEq, Repr

/-- An endpoint entry (R160). -/
inductive EndpointDest where
  | unassigned
  | localOutput (o : Nat)
  | hostLink (p : Nat)
deriving DecidableEq, Repr

/-- A multicast operation that waits for acknowledgements at this device (R188). -/
structure McOp where
  srcDevice : Nat
  inst : Nat
  op : Nat
  sl : Nat
  /-- The phase of the link towards the root, going down. R186, R188 -/
  phase : Nat := 0
  /-- Branches (0 to 31, 32 for the local copy) still awaited. -/
  awaiting : List Nat
  delivered : Nat
  fenced : Nat
deriving DecidableEq, Repr

/-- A tree entry (R185) with its operations in flight (R190). -/
structure Tree where
  /-- Port towards the root, 0x3F at the root. 6 bits; R185 -/
  upstream : Nat
  /-- Branch ports. 32 bits; R185 -/
  branches : Word
  /-- A copy is delivered here. 1 bit; R185 -/
  loc : Bool
  /-- Endpoint of the local copy. 4 bits; R185 -/
  localEndpoint : Nat
  /-- Leaves by branch, 32 for local. 16 bits each; R185 -/
  leaves : Tbl Nat
  /-- Fenced: branch bits and bit 32 for local. 33 bits; R185 -/
  fenced : BitVec 33 := 0
  /-- TREE_REMOVE has been accepted; no new packet. R190 -/
  removing : Bool := false
  ops : List McOp := []
deriving DecidableEq, Repr

/-- Routing (R153 to R196). -/
structure Rte where
  /-- RTE_DEVICE_ID.device_id. 16 bits; R196; reset 0 -/
  deviceId : Nat := 0
  /-- RTE_DEVICE_ID.valid. 1 bit; R196; reset 0 -/
  valid : Bool := false
  /-- Banks 0 and 1. 2 entries; R161; reset bank 0 active with tag 0, bank 1 empty (R163) -/
  bank0 : Bank := { state := .active }
  bank1 : Bank := {}
  /-- Tables of each tile's banks, by 2 * tile + bank. 8 entries; R161; reset every entry 0 -/
  tables : Tbl RouteTables := []
  /-- RTE_EPOCH.spare_tiles. 4 bits; R196; reset 0 -/
  spareTiles : BitVec 4 := 0
  /-- RTE_EPOCH.old_arrival. 1 bit; R196; reset 0 -/
  oldArrival : Bool := false
  /-- Port routes. 32 entries; R196; reset as PortRoute -/
  ports : Tbl PortRoute := []
  /-- Policies by service level. 7 entries; R165; reset as RoutePolicy -/
  policies : Tbl RoutePolicy := []
  /-- Rotating pointers by 7 * tile + VL (tile 4 for local inputs). 0 to 31; R164; reset 0, DESIGN CHOICE (2) -/
  loadPtr : Tbl Nat := []
  /-- Endpoints 1 to 15. 15 entries; R160; reset unassigned -/
  endpoints : Tbl EndpointDest := []
  /-- The tree table. 8,192 entries; R185; reset none installed -/
  trees : Tbl Tree := []
  /-- RTE_HOLD_TICKETS.quota. 4 bits; R182; reset 1 -/
  quota : Nat := 1
  /-- RTE_HOLD.high_water. 13 bits; R196; reset 0 -/
  holdHighWater : Nat := 0
  /-- RTE_INT_STATUS [6:0]. 7 bits; R196; reset 0 -/
  intStatus : BitVec 7 := 0
  /-- RTE_INT_ENABLE [6:0]. 7 bits; R196; reset 0 -/
  intEnable : BitVec 7 := 0
deriving DecidableEq, Repr
/-! ### Link layer (LNK) -/

/-- The link states of R214. -/
inductive LinkState where
  | down | init | up | replay | retrain
deriving DecidableEq, Repr

/-- A frame in the replay buffer (R212). -/
structure ReplayFrame where
  seq : Nat
  vl : Nat
  flits : Nat
  pkt : Packet
  len : Nat
  sequenced : Bool
  /-- Residency clock of its first transmission. R212 -/
  stamp : Nat
  /-- Flits sent so far. R213 -/
  sent : Nat
  /-- It was closed with the abort marker, as its replay is. R105, R206 -/
  aborted : Bool := false
deriving DecidableEq, Repr

/-- A frame that a receiver has open on a VL (R140, R204). -/
structure OpenFrame where
  seq : Nat
  flits : Nat
  duplicate : Bool
  /-- The packet put to the routing stage by cut-through. R204 -/
  pid : Option Nat := none
deriving DecidableEq, Repr

/-- Credits of one VL of a port (R208 to R211). -/
structure LinkVl where
  /-- LNK_CREDIT.limit: the share advertised by the far end. 14 bits; R208; reset 0 -/
  limit : Nat := 0
  /-- Flits debited less flits returned. count; R208; reset 0 -/
  debited : Nat := 0
  /-- The count last reported by the far end. 14 bits; R209; reset 0 -/
  reported : Nat := 0
  /-- LNK_RXVL.share in force. 14 bits; R211; reset 1,984 (VL0 to VL5), 384 (VL6) -/
  share : Nat := 1984
  /-- The share from the port's next Init. 14 bits; R232; reset as share -/
  nextShare : Nat := 1984
  /-- LNK_RXVL.in_use. 14 bits; R233; reset 0 -/
  held : Nat := 0
  /-- Cumulative flits freed. 14 bits; R209; reset 0 -/
  freed : Nat := 0
  /-- The count of flits freed that was reported last. 14 bits; R209; MODEL's own; reset 0 -/
  told : Nat := 0
  /-- The frame open at the receiver. one per VL; R140; reset none -/
  openFrame : Option OpenFrame := none
deriving DecidableEq, Repr

/-- A fault injection (R229). -/
structure Inject where
  /-- 0 off, 1 drop, 2 corrupt trailer, 3 corrupt head, 4 reorder. 3 bits; R231; reset 0 -/
  kind : Nat := 0
  /-- Every nth. 16 bits; R229; reset 0 -/
  n : Nat := 0
  /-- Events to inject, 0 without limit. 16 bits; R229; reset 0 -/
  count : Nat := 0
  /-- Frames or pairs counted since the last event. count; R229; reset 0 -/
  seen : Nat := 0
  /-- The first packet of a pair has left. 1 bit; R229; reset 0 -/
  half : Bool := false
  /-- Events injected. count; R229; reset 0 -/
  done : Nat := 0
  /-- The packet held by kind 4. R229; reset none -/
  held : Option Nat := none
deriving DecidableEq, Repr

/-- The link layer of one native port (R198 to R215). -/
structure LnkPort where
  /-- LNK_STATE.state. 3 bits; R233; reset 0 Down -/
  state : LinkState := .down
  /-- LNK_STATE.link_timeout in units of 0.25 us. 9 bits; R233; reset 4 -/
  timeout : Nat := 4
  /-- LNK_STATE.replay_limit. 8 bits; R233; reset 8 -/
  replayLimit : Nat := 8
  /-- The replay_limit that the replay timer started with. 8 bits; R232; reset 8 -/
  limitNow : Nat := 8
  /-- retrain_limit in ms. 10 bits; R214; reset 10 -/
  retrainLimit : Nat := 10
  /-- LNK_STATE.timeouts. 8 bits; R233; reset 0 -/
  timeouts : Nat := 0
  /-- LNK_SEQ.tx_next. 16 bits; R233; reset 0 -/
  txNext : Nat := 0
  /-- LNK_SEQ.rx_expected. 16 bits; R233; reset 0 -/
  rxExpected : Nat := 0
  /-- The received map: distances above e already received. 8,192 bits; R204; reset 0 -/
  rxMap : List Nat := []
  /-- The replay buffer, oldest first. 8,192 flits; R212; reset empty -/
  replay : List ReplayFrame := []
  /-- Frames of the replay in progress not yet started. list; R213; reset none -/
  toReplay : List Nat := []
  /-- The replayed frame on the wire. 16 bits and valid; R213; reset none -/
  replaying : Option Nat := none
  /-- The replayed frame that a control packet has cut, with its progress count: it holds its VL's resume slot. 16 and 7 bits and valid; R213; reset none -/
  replayCut : Option (Nat × Nat) := none
  /-- Credits by VL. 7 entries; R208; reset as LinkVl -/
  vls : Tbl LinkVl := []
  /-- The port still sends subtype 1 flits. 1 bit; R214; reset 0 -/
  sendInit : Bool := false
  /-- A subtype 1 flit is due, and waits for a flit slot with no frame flit ready. 1 bit; R202; reset 0 -/
  initDue : Bool := false
  /-- The acknowledgement sent last. 16 bits; R205; MODEL's own; reset 0 -/
  ackTold : Nat := 0
  /-- The injection. R229; reset off -/
  inject : Inject := {}
deriving DecidableEq, Repr

/-- The link layer (R197 to R215, R229 to R233). -/
structure Lnk where
  /-- Ports. 32 entries; R214; reset as LnkPort -/
  ports : Tbl LnkPort := []
  /-- LNK_INT_STATUS [4:0]. 5 bits; R233; reset 0 -/
  intStatus : BitVec 5 := 0
  /-- LNK_INT_ENABLE [4:0]. 5 bits; R233; reset 0 -/
  intEnable : BitVec 5 := 0
deriving DecidableEq, Repr

/-! ### End-to-end transport (TRN) -/

/-- A context: an ordering stream (R178, R217). At a send half `peer` is the destination device, at
a receive half the source device. -/
structure CtxKey where
  peer : Nat
  inst : Nat
  cls : Nat
deriving DecidableEq, Repr

/-- Memory that a packet's payload was read from, which a resend reads again (R222, R226). -/
structure Source where
  inst : Nat
  /-- An address of the instance's function, or of `Pool.mem` for its heap. -/
  address : Nat
  length : Nat
  /-- The master that read it (R470). -/
  master : Nat
  heap : Bool
deriving DecidableEq, Repr

/-- A transport-sequenced packet that is sent and not acknowledged, or waits to be sent (R180,
R219, R220). -/
structure SentPkt where
  pkt : Packet
  len : Nat
  input : Nat
  /-- The operation slot it belongs to, if any. R351 -/
  op : Option Nat
  /-- The 64-bit deadline of a green packet. R225 -/
  deadline : Nat := 0
  /-- It holds a hold ticket. R180 -/
  ticket : Bool := false
  /-- It has been admitted by the policer. R64 -/
  policed : Bool := true
  /-- Its sender pre-coloured it yellow. R60 -/
  preYellow : Bool := false
  /-- The instance as whose traffic it is policed, when not its header's. R394 -/
  polInst : Option Nat := none
  /-- Core time at which its edge wait began. R64 -/
  waitFrom : Option Nat := none
  /-- Host memory that a resend reads again; none where nothing was read. R226 -/
  src : Option Source := none
deriving DecidableEq, Repr

/-- The state of a send half (R219, R221). -/
inductive SendState where
  | spill | opening | opened | closing
deriving DecidableEq, Repr

/-- A send half (R217 to R225). -/
structure SendCtx where
  key : CtxKey
  state : SendState := .opening
  /-- Number of the next packet. 24 bits; R220 -/
  next : Nat := 0
  /-- Packets sent and not acknowledged, oldest first. R220 -/
  unacked : List SentPkt := []
  /-- Packets that wait to be sent, oldest first. R180, R219, R220 -/
  queue : List SentPkt := []
  /-- Resends without ack progress. R225 -/
  resends : Nat := 0
  /-- The retry_limit that its retry timer started with. R228, R232 -/
  retryLimit : Nat := 16
  /-- Numbers of the packets still to be sent again in the resend under way, in order. R225, R230 -/
  again : List Nat := []
  /-- The read of source memory that the first of them waits for, by its tag. R226 -/
  reread : Option Nat := none
  /-- Acknowledgements and timers that wait for the half's fetch, in order of arrival. R217, R230 -/
  fetchWait : List Instr := []
  /-- A resend has been sent since anything was last unacknowledged. R221 -/
  resentIdle : Bool := false
  /-- Congestion marks since opening. R232 -/
  marks : Nat := 0
  /-- Late count since opening. R232 -/
  lates : Nat := 0
  /-- Hold tickets held. R180 -/
  tickets : Nat := 0
  /-- Tickets in use by flagged packets. R180 -/
  ticketsUsed : Nat := 0
  /-- Segment parity. R179 -/
  parity : Bool := false
  /-- Packets of the segment sent so far. R179 -/
  segCount : Nat := 0
  /-- Next message number. 16 bits; R359 -/
  nextMsn : Nat := 0
  /-- Service level of the last packet. R227 -/
  sl : Nat := 0
  pinned : Bool := false
  onDie : Bool := true
  /-- Use stamp, for the least recently used half. R217 -/
  used : Nat := 0
deriving DecidableEq, Repr

/-- A flagged packet in the completion-hold buffer (R181, R182). -/
structure HeldPkt where
  pkt : Packet
  ticket : Bool
deriving DecidableEq, Repr

/-- A receive half (R217 to R224). -/
structure RecvCtx where
  key : CtxKey
  /-- The expected number e. 24 bits; R220 -/
  expected : Nat := 0
  /-- Distances above e already accepted. 1,024 bits; R220 -/
  map : List Nat := []
  /-- Accepted since the last TACK. R222 -/
  sinceAck : Nat := 0
  /-- Late packets since the last TACK by service level. R227 -/
  lateBySl : List Nat := []
  /-- Late count since opening. R232 -/
  lates : Nat := 0
  /-- Marks since the last TACK and since opening. R227, R232 -/
  marksSinceAck : Nat := 0
  marks : Nat := 0
  /-- Hold tickets granted to the peer. R182 -/
  granted : Nat := 0
  /-- The quota in force at its opening. R182, R195 -/
  quota : Nat := 0
  /-- Tickets to return in the next TACK. R180 -/
  toReturn : Nat := 0
  /-- Packets delivered by parity. R181 -/
  count0 : Nat := 0
  count1 : Nat := 0
  /-- Flagged packets held. R181 -/
  held : List HeldPkt := []
  /-- Packets, and timers, that wait for the half's fetch, in arrival order. R217, R230 -/
  fetchWait : List Instr := []
  /-- TCLOSE received: the number below which every packet must be accepted. R221 -/
  closeAt : Option Nat := none
  /-- Expected message number. 16 bits; R359 -/
  expectedMsn : Nat := 0
  sl : Nat := 0
  pinned : Bool := false
  onDie : Bool := true
  used : Nat := 0
deriving DecidableEq, Repr

/-- Transport (R217 to R228). -/
structure Trn where
  /-- Send halves. R217; reset none -/
  sends : List SendCtx := []
  /-- Receive halves. R217; reset none -/
  recvs : List RecvCtx := []
  /-- Pins of halves that are not open yet: peer, instance, class, half. R218; reset none -/
  pins : List (CtxKey × Nat) := []
  /-- ack_delay in 0.25 us. 9 bits; R228; reset 8 -/
  ackDelay : Nat := 8
  /-- nak_delay in us. 14 bits; R228; reset 128 -/
  nakDelay : Nat := 128
  /-- retry_timeout in 100 us. 14 bits; R228; reset 20 -/
  retryTimeout : Nat := 20
  /-- retry_limit. 8 bits; R228; reset 16 -/
  retryLimit : Nat := 16
  /-- ctx_idle in ms. 10 bits; R228; reset 64 -/
  ctxIdle : Nat := 64
  /-- send_window in 16 packets. 7 bits; R228; reset 64 -/
  sendWindow : Nat := 64
  /-- Use stamps given so far. R217; reset 0 -/
  useCount : Nat := 0
  /-- Rotating order for returned tickets: the context granted last. R182; reset none -/
  ticketTurn : Option CtxKey := none
  /-- Green packets counted as unpinned. R218; reset 0 -/
  unpinnedGreen : Nat := 0
  /-- Late packets that this device took as their destination, in its own count of misses. R87; reset 0 -/
  misses : Nat := 0
  /-- Packets discarded for a failed end-to-end check. R154; reset 0 -/
  badChecks : Nat := 0
  /-- TRN_INT_STATUS [4:0]. 5 bits; R233; reset 0 -/
  intStatus : BitVec 5 := 0
  /-- TRN_INT_ENABLE [4:0]. 5 bits; R233; reset 0 -/
  intEnable : BitVec 5 := 0
  /-- Packets built here so far: the model names the next one 2^32 + this. MODEL's own; reset 0 -/
  built : Nat := 0
  /-- Multicast operations of this source: the next number. 24 bits; R153; reset 0, DESIGN CHOICE (2) -/
  mcNext : Nat := 0
deriving DecidableEq, Repr
/-! ### Lanes and ports (LNE, PRT) -/

/-- The training states of PRT_STATUS.train_state (R243, R269). -/
inductive TrainState where
  | detect | sync | negotiate | equalise | lock | ready | backoff | step | disabled
deriving DecidableEq, Repr

/-- PRT_STATUS.sub_state (R269). -/
inductive SubState where
  | idle | bridging | comparing | retuning
deriving DecidableEq, Repr

/-- A substitution or return in progress on one direction of a port (R253, R254). -/
structure Subst where
  lane : Nat
  /-- This device is the receiver of the direction, and asked for it. R252 -/
  receiver : Bool
  /-- A return of the spare, not a replacement. R254 -/
  isReturn : Bool
  /-- The codeword from which both lanes carry the symbols. R253 -/
  codeword : Nat
deriving DecidableEq, Repr

/-- A rate step in progress (R255). -/
structure RateStep where
  rate : Nat
  width : Nat
  codeword : Nat
  /-- STEP_ACK has been sent or received. -/
  acked : Bool
  initiator : Bool
deriving DecidableEq, Repr

/-- One port (R243 to R267). -/
structure Port where
  /-- PRT_MODE.mode. 3 bits; R269; reset 0 (ports 0 and 1: 2) -/
  mode : Nat := 0
  /-- PRT_MODE.width. 3 bits; R269; reset 3 (ports 0 and 1: 4) -/
  width : Nat := 3
  /-- PRT_MODE.max_rate. 4 bits; R269; reset 4 (ports 0 and 1: 11) -/
  maxRate : Nat := 4
  /-- PRT_MODE.pair_lead. 1 bit; R269; reset 0 (port 0: 1) -/
  pairLead : Bool := false
  /-- PRT_MODE.idle_enable. 1 bit; R269; reset 0 -/
  idleEnable : Bool := false
  /-- PRT_MODE.auto_spare. 1 bit; R269; reset 1 -/
  autoSpare : Bool := true
  /-- corr_threshold. 16 bits; R267; reset 4,096 -/
  corrThreshold : Nat := 4096
  /-- corr_window in ms. 10 bits; R267; reset 1 -/
  corrWindow : Nat := 1
  /-- margin_floor in mUI. 9 bits; R267; reset 120 -/
  marginFloor : Nat := 120
  /-- idle_entry in us. 10 bits; R267; reset 10 -/
  idleEntry : Nat := 10
  /-- train_timeout in ms. 10 bits; R267; reset 200 -/
  trainTimeout : Nat := 200
  /-- PRT_STATUS.train_state. 4 bits; R269; reset 8 Disabled -/
  train : TrainState := .disabled
  /-- PRT_STATUS.trained_rate, none is 0xF. 4 bits; R269; reset 0xF -/
  trainedRate : Option Nat := none
  /-- PRT_STATUS.trained_width, none is 7. 3 bits; R269; reset 7 -/
  trainedWidth : Option Nat := none
  /-- Rate and width at which the port last trained since reset. R54, R256; reset none -/
  lastTrained : Option (Nat × Nat) := none
  /-- Rate and width that it ran before storm jib. R256; reset none -/
  preStorm : Option (Nat × Nat) := none
  /-- Rate and width that it ran in full sail, before a reefed step. R507; reset none -/
  preReef : Option (Nat × Nat) := none
  /-- PRT_STATUS.spare_in_use and spare_for, of this receive direction. 1 and 4 bits; R269; reset not in use -/
  spareFor : Option Nat := none
  /-- The transmit direction's spare carries this lane. R253; reset none -/
  txSpareFor : Option Nat := none
  /-- PRT_STATUS.sub_state. 2 bits; R269; reset 0 -/
  subState : SubState := .idle
  /-- The substitution in progress. R253; reset none -/
  subst : Option Subst := none
  /-- Lanes whose request waits for the substitution in progress. R268; reset none -/
  subWait : List Nat := []
  /-- PRT_STATUS.spare_failed. 1 bit; R269; reset 0 -/
  spareFailed : Bool := false
  /-- PRT_STATUS.channel_ok. 1 bit; R269; reset 0 -/
  channelOk : Bool := false
  /-- PRT_STATUS.stepped. 1 bit; R269; reset 0 -/
  stepped : Bool := false
  /-- PRT_STATUS.idle: the transmit direction is in port idle. 1 bit; R269; reset 0 -/
  txIdle : Bool := false
  /-- The receive direction is in port idle. 1 bit; R248; reset 0 -/
  rxIdle : Bool := false
  /-- The rate step in progress. R255; reset none -/
  step : Option RateStep := none
  /-- STEP received while a substitution was in progress: its rate, width and codeword. R268; reset none -/
  stepHeld : Option (Nat × Nat × Nat) := none
  /-- The step that this device asked for and has not been acknowledged. R255; reset none -/
  stepTarget : Option (Nat × Nat) := none
  /-- WAKE received from the far end since the wake. R256; reset 0 -/
  wakeSeen : Bool := false
  /-- Lanes failed in this training. list of 0 to 8; R243, R245; reset none -/
  failedLanes : List Nat := []
  /-- Lanes that passed Sync, with the logical lane the sender named. list; R243; reset none -/
  synced : List (Nat × Nat) := []
  /-- Sequences with ack set received on each lane. 9 counts; R243; reset 0 -/
  acks : Tbl Nat := []
  /-- Good sequences received on each lane. 9 counts; R244; reset 0 -/
  goodSeqs : Tbl Nat := []
  /-- The far end's offer: rates, widths and spare_ok. R244; reset none -/
  offer : Option (Nat × Nat × Bool) := none
  /-- Agreed rate and width. R245; reset none -/
  agreed : Option (Nat × Nat) := none
  /-- The transmitter precodes, as the far end requested at Negotiate. R238, R244; reset 0 -/
  precode : Bool := false
  /-- A PCIe or CXL link is in L1, in storm jib. R38, R508; reset 0 -/
  l1 : Bool := false
  /-- The training in progress is a quick retrain. R246; reset 0 -/
  quick : Bool := false
  /-- Equalise has sent the port back to Negotiate once. R243; reset 0 -/
  renegotiated : Bool := false
  /-- Failed attempts in a row, for the backoff. R243; reset 0 -/
  backoffs : Nat := 0
  /-- The skew measured at Lock, in units of 1/16 ns. R266; reset 0 -/
  skew : Nat := 0
  /-- PRT_FEC_UNCORR. 32 bits, saturating; R269; reset 0 -/
  uncorr : Nat := 0
  /-- The codeword number of this transmit direction. 24 bits; R251; reset 0 -/
  codeword : Nat := 0
  /-- The part of the codeword in progress that has passed, in 1/8,192,000,000. R251; reset 0 -/
  codewordPart : Nat := 0
  /-- The port drains for mode 0. R262; reset 0 -/
  draining : Bool := false
  /-- The port was configured for CXL and trained as PCIe. 1 bit; R595; reset 0 -/
  downgraded : Bool := false
  /-- Flit mode negotiated as 256-byte. R265; reset 0 -/
  cxlUp : Bool := false
  /-- The port has been contained (R525). 1 bit; R525; reset 0 -/
  contained : Bool := false
deriving DecidableEq, Repr

/-- One physical lane (R257 to R269). -/
structure Lane where
  /-- LNE_STATUS.los. 1 bit; R269; reset 1 -/
  los : Bool := true
  /-- LNE_STATUS.locked. 1 bit; R269; reset 0 -/
  locked : Bool := false
  /-- LNE_STATUS.polarity. 1 bit; R269; reset 0 -/
  polarity : Bool := false
  /-- LNE_STATUS.prbs_lock. 1 bit; R269; reset 0 -/
  prbsLock : Bool := false
  /-- LNE_STATUS.wear. 1 bit; R269; reset 0 -/
  wear : Bool := false
  /-- LNE_STATUS.logical when substitution has changed it: none is the reset lane, 0xF none. 4 bits; R269; reset l mod 9 -/
  logical : Option Nat := none
  /-- LNE_STATUS.retired. 1 bit; R269; reset 0 -/
  retired : Bool := false
  /-- LNE_STATUS.margin in mUI. 9 bits; R269; reset 0 -/
  margin : Nat := 0
  /-- LNE_FEC.corrected. 16 bits; R269; reset 0 -/
  corrected : Nat := 0
  /-- The corr_threshold of the window in progress. 16 bits; R242, R267; reset 4,096 -/
  threshold : Nat := 4096
  /-- LNE_PRBS_ERR.errors. 48 bits; R269; reset 0 -/
  prbsErr : Nat := 0
  /-- LNE_PRBS_BITS.bits. 48 bits; R269; reset 0 -/
  prbsBits : Nat := 0
  /-- The part of a bit that a locked checker has still to compare, in 1/1,600,000. R258; reset 0 -/
  prbsPart : Nat := 0
  /-- The LANE_TEST function: 0 off, 1 generate, 2 check, 3 both, 4 symbol injection. 3 bits; R266; reset 0 -/
  testFn : Nat := 0
  /-- pattern. 4 bits; R266; reset 0 -/
  pattern : Nat := 0
  /-- user pattern. 64 bits; R266; reset 0 -/
  userPattern : Nat := 0
  /-- inject. 6 bits; R266; reset 0 -/
  inject : Nat := 0
  /-- s. 5 bits; R266; reset 0 -/
  symbols : Nat := 0
  /-- m. 16 bits; R266; reset 0 -/
  every : Nat := 0
  /-- The transmitter's pre-, main- and post-cursor coefficients. R243, R244; reset 0 DESIGN CHOICE (log 154) -/
  coeffs : Int × Int × Int := (0, 0, 0)
  /-- The replies to the far end's last coefficient requests. 6 bits; R244; reset 0 -/
  coeffStatus : Nat := 0
  /-- A corrected-symbol indication of a PCIe or CXL lane, kept for the next training. R242; reset 0 -/
  marked : Bool := false
  /-- The lane core failed its first calibration. R568; reset 0 -/
  calibFailed : Bool := false
  /-- The ageing monitor's baseline, as first calibration recorded it. R568; reset 0 -/
  baseline : Nat := 0
  /-- The spare's test waits for TEST_ACK. 1 bit; R259; reset 0 -/
  testAsked : Bool := false
deriving DecidableEq, Repr

/-- Lanes and ports (R234 to R269). -/
structure Prt where
  /-- Ports. 32 entries; R269; reset as Port, ports 0 and 1 one PCIe upstream x16 link -/
  ports : Tbl Port := [(0, { mode := 2, width := 4, maxRate := 11, pairLead := true }),
    (1, { mode := 2, width := 4, maxRate := 11 })]
  /-- Physical lanes. 288 entries; R269; reset as Lane -/
  lanes : Tbl Lane := []
  /-- PRT_INT_STATUS [6:0]. 7 bits; R269; reset 0 -/
  intStatus : BitVec 7 := 0
  /-- PRT_INT_ENABLE [6:0]. 7 bits; R269; reset 0 -/
  intEnable : BitVec 7 := 0
  /-- LNE_INT_STATUS [4:0]. 5 bits; R269; reset 0 -/
  lneStatus : BitVec 5 := 0
  /-- LNE_INT_ENABLE [4:0]. 5 bits; R269; reset 0 -/
  lneEnable : BitVec 5 := 0
deriving DecidableEq, Repr
/-! ### Memory and device pools (HMC and the pool of chapter 8) -/

/-- The states of an extent (R280). -/
inductive ExtState where
  | absent | freeDirty | zeroing | freeClean | binding | bound | unbinding | poisoned
deriving DecidableEq, Repr

/-- The last owner of an extent (R281). -/
inductive Owner where
  | none
  | inst (i : Nat)
  | cohWindow (w : Nat)
  | expWindow (w : Nat)
deriving DecidableEq, Repr

/-- An extent (R270 to R281). -/
structure Extent where
  /-- State. R280; reset Absent (near pool: Free dirty, 0 to 315) -/
  state : ExtState := .absent
  /-- Use of the binding: 0 private, 1 coherent-shared, 2 fabric-exported. 2 bits; R272; reset 0 -/
  use : Nat := 0
  /-- Last owner. R281; reset none -/
  owner : Owner := .none
  /-- The instance that EXTENT_BIND named, which a fabric-exported extent is charged to. 10 bits; R550; reset 0 -/
  binder : Nat := 0
  /-- Slots that map it: instance and slot, valid ones. R275; reset none -/
  slots : List (Nat × Nat) := []
  /-- Slot entries written and not yet valid. R282; reset none -/
  pending : List (Nat × Nat) := []
  /-- Exported window and index, or coherent window and index. R274; reset none -/
  window : Option (Nat × Nat) := none
  /-- The directory backing index. R301; reset none -/
  backing : Option Nat := none
  /-- An unbind waits for the host's release, then zeroes if set. R283; reset 0 -/
  zeroAfter : Bool := false
  /-- An unbind has passed its fence. R283; reset 0 -/
  fenced : Bool := false
  /-- The CXL host links whose Dynamic Capacity release is awaited. R283; reset none -/
  releaseWait : List Nat := []
  /-- An EXTENT_UNBIND is in progress on it. R283; reset 0 -/
  running : Bool := false
  /-- The status that its unbind or bind will answer. R284, R296; reset 0 -/
  note : Nat := 0
deriving DecidableEq, Repr

/-- An import slot (R277). -/
structure Import where
  remoteDevice : Nat
  window : Nat
  index : Nat
  key : Nat
  preColour : Nat
  sl : Nat
deriving DecidableEq, Repr

/-- A slot of an instance's map (R275). -/
inductive Slot where
  | local (handle : Nat)
  | import (i : Import)
deriving DecidableEq, Repr

/-- An exported window (R274). -/
structure ExpWindow where
  key : Nat
  readOnly : Bool
  access : List Nat
  /-- Handles by extent index. -/
  extents : Tbl Nat
  /-- One past the highest index that a bind has given. -/
  size : Nat := 0
deriving DecidableEq, Repr

/-- A bound function (R286). -/
structure BoundFn where
  port : Nat
  routingId : Nat
  link : Nat
  vslot : Nat
  /-- FUNCTION_UNBIND is in progress: 0 no, 1 waits for the host, 2 waits for the reset. R287 -/
  unbinding : Nat := 0
  /-- release_timeout passed or the function was removed. R287 -/
  lateRelease : Bool := false
deriving DecidableEq, Repr

/-- A virtual slot's view to the host (R286, R287). -/
structure VSlot where
  present : Bool := false
  attention : Bool := false
  linkDown : Bool := false
deriving DecidableEq, Repr

/-- What stands behind a downstream port (R271, R288). -/
structure Downstream where
  /-- Serial number of the arrived device. 64 bits; R288; reset 0 -/
  serial : Nat := 0
  /-- An expander (extents), not an endpoint. R288; reset 0 -/
  isExpander : Bool := false
  /-- The extents that each logical device of an expander gives, in their order. at most 16 logical devices; R265, R271; reset none -/
  layout : List Nat := []
  /-- Functions listed: routing IDs. R288; reset none -/
  functions : List Nat := []
  /-- A Type 1 or Type 2 device (CXL.cache). R297; reset 0 -/
  caching : Bool := false
  /-- The slot is held at step 1 of arrival. R291; reset 0 -/
  held : Bool := false
  /-- Arrival step reached: 0 none, 1 presence, 2 power, 3 link, 4 enumerated. R288; reset 0 -/
  step : Nat := 0
  /-- SLOT_REMOVE is in progress. R289; reset 0 -/
  removing : Bool := false
deriving DecidableEq, Repr

/-- A host link's pool settings (R276, R284, R434). -/
structure HostLink where
  /-- window_log2. 6 bits; R434; reset 34 -/
  windowLog2 : Nat := 34
  /-- release_timeout in s. 6 bits; R284; reset 10 -/
  releaseTimeout : Nat := 10
  /-- Memory instance of a CXL host link. 10 bits; R276; reset none -/
  memInst : Option Nat := none
  /-- VF Enable with its NumVFs. R408; reset 0 -/
  vfEnable : Bool := false
  numVfs : Nat := 0
deriving DecidableEq, Repr

/-- A window request that this device has sent and awaits (R278, R279). -/
structure WinReq where
  inst : Nat
  remote : Nat
  w : WinF
  write : Bool
  posted : Bool
  cxl : Bool
  /-- The instance address of the access. R344 -/
  address : Nat := 0
deriving DecidableEq, Repr

/-- The pools (R270 to R296). -/
structure Pool where
  /-- Extents by handle. 262,528 entries; R270; reset Absent, near-pool extents 0 to 315 Free dirty (R292) -/
  extents : Tbl Extent := []
  /-- Slot maps by 16,384 * instance + slot. 1,024 x 16,384; R275; reset empty -/
  slots : Tbl Slot := []
  /-- Exported windows. 4,096 entries; R274; reset none -/
  windows : Tbl ExpWindow := []
  /-- Bound functions. at most 256; R286; reset none -/
  functions : List BoundFn := []
  /-- Virtual slots by 32 * link + slot. 32 x 32; R286; reset as VSlot -/
  vslots : Tbl VSlot := []
  /-- Downstream ports. 32 entries; R288; reset as Downstream -/
  down : Tbl Downstream := []
  /-- Host links by even or single port. 32 entries; R284, R434; reset as HostLink -/
  links : Tbl HostLink := []
  /-- HMC_PARTITION sizes of the directory, matching and heap regions. 8, 6, 7 bits; R292; reset 32, 16, 16 -/
  dirUnits : Nat := 32
  mtcUnits : Nat := 16
  heapUnits : Nat := 16
  /-- Window requests sent and not answered. list; R278; reset none -/
  winReqs : List WinReq := []
  /-- The bytes of the extents and of the engine heaps: byte `o` of extent `h` at 2^28 h + o, byte `o`
  of instance i's heap at 2^47 + 2^40 i + o. bytes of 8 bits; R270, R292; reset nothing listed, an
  unlisted byte reads 0, DESIGN CHOICE (4) -/
  mem : List Host.Cell := []
  /-- Accesses counted against an instance as refused. per instance; R33, R279; reset 0 -/
  refused : Tbl Nat := []
deriving DecidableEq, Repr
/-! ### Coherence directory (DIR) -/

/-- The state field of a directory entry (R302). -/
inductive LineState where
  | invalid | shared | em
deriving DecidableEq, Repr

/-- A directory entry (R302). -/
structure DirEntry where
  sharers : Word64 := 0
  state : LineState := .invalid
  poisoned : Bool := false
deriving DecidableEq, Repr

/-- A request at the directory (R306). -/
structure CohReq where
  /-- Who is answered: an agent, or a non-caching requester. -/
  who : Option Nat
  /-- The agent as which it is served: none for a non-caching access (R298, R299). -/
  agent : Option Nat
  op : CohOp
  /-- The byte of the line at which the data begins. R312 -/
  offset : Nat := 0
  data : List Nat
deriving DecidableEq, Repr

/-- One snoop that a tracker awaits (R316). -/
structure Snoop where
  agent : Nat
  /-- Answered invalid with a writeback in flight. R309 -/
  wbInFlight : Bool := false
  /-- BIConflict was received for it. R309 -/
  conflict : Bool := false
  /-- The owner's writeback came before the response. R316 -/
  wbTaken : Bool := false
deriving DecidableEq, Repr

/-- What a tracker is doing with its line (R315). -/
inductive TrackKind where
  | request (r : CohReq)
  /-- A rebuild of R305, ahead of what waits on the line. -/
  | rebuild
  /-- A recall of R320, named by its number. -/
  | recall (id : Nat)
  /-- An eviction notice of R306, of an agent. -/
  | evict (agent : Nat)
deriving DecidableEq, Repr

/-- A line tracker (R315). -/
structure Tracker where
  /-- Handle and line index. -/
  handle : Nat
  line : Nat
  kind : TrackKind
  /-- Its snoops have been sent. R312 -/
  started : Bool := false
  snoops : List Snoop := []
  /-- Writebacks of the line taken and not yet in memory. R315 -/
  writes : Nat := 0
  /-- A read has been issued, or the write of a WrNC. R312 -/
  reading : Bool := false
  writing : Bool := false
  /-- The line's queue. R315 -/
  queue : List TrackKind := []
deriving DecidableEq, Repr

/-- A writeback in the write lane, until it is in memory (R314). -/
structure WbPending where
  handle : Nat
  line : Nat
  agent : Nat
  /-- It came with a snoop response, which no grant answers. R309 -/
  forwarded : Bool := false
deriving DecidableEq, Repr

/-- A recall (R320): its scope and what it completes. -/
structure Recall where
  id : Nat
  /-- Handles of the range. -/
  handles : List Nat
  /-- Agents whose bits it clears; all agents when empty. -/
  agents : List Nat
  /-- A poison recall discards the data. R321 -/
  poison : Bool
  /-- Lines found with a bit in its scope and not yet given to a tracker. R320 -/
  todo : List Nat
deriving DecidableEq, Repr

/-- A caching agent (R297, R327). -/
structure Agent where
  /-- DIR_AGENT.kind: 0 CXL host link, 1 downstream CXL.cache device. 1 bit; R327 -/
  kind : Nat
  /-- DIR_AGENT.port. 5 bits; R327 -/
  port : Nat
  /-- DIR_AGENT.timeouts. 16 bits, saturating; R327 -/
  timeouts : Nat := 0
  /-- COH_AGENT_REMOVE recalls its lines. R322 -/
  removing : Bool := false
deriving DecidableEq, Repr

/-- A coherent window (R273, R299, R300). -/
structure CohWindow where
  /-- Agent mask. 64 bits; R299 -/
  mask : Word64
  /-- Handles bound to it, in window order. R273 -/
  extents : List Nat := []
  /-- Instances that map it, with their first slot. R300 -/
  maps : List (Nat × Nat) := []
deriving DecidableEq, Repr

/-- A physical bank (R304, R327). -/
structure DirBank where
  /-- DIR_BANK.logical, none is 0x3F. 6 bits; R327; reset b (spare: none) -/
  moved : Option Nat := none
  /-- DIR_BANK.failed. 1 bit; R327; reset 0 -/
  failed : Bool := false
  /-- Rotating agent order: one past the last request taken. 0 to 64; R315; reset 0, DESIGN CHOICE (2) -/
  turn : Nat := 0
deriving DecidableEq, Repr

/-- The directory (R297 to R327). -/
structure Dir where
  /-- Agents by number. 64 entries; R297; reset none assigned -/
  agents : Tbl Agent := []
  /-- Coherent windows. 256 entries; R273; reset none -/
  windows : Tbl CohWindow := []
  /-- Entries by 4,194,304 * handle + line. R302; reset Invalid -/
  entries : Tbl DirEntry := []
  /-- Entries that fail their check uncorrectably when next fetched. R305; reset none -/
  badEntries : List Nat := []
  /-- Line trackers in use. 33 x 256; R315; reset none -/
  trackers : List Tracker := []
  /-- Writebacks not yet in memory. list; R314; reset none -/
  writebacks : List WbPending := []
  /-- Recalls in progress. list; R320; reset none -/
  recalls : List Recall := []
  /-- Recalls started so far, which number them. R320; reset 0 -/
  recallCount : Nat := 0
  /-- Agents timed out for a line: later responses are discarded. agent, handle, line; R318; reset none -/
  timedOut : List (Nat × Nat × Nat) := []
  /-- DIR_CFG.snoop_timeout in 10 us. 14 bits; R327; reset 100 -/
  snoopTimeout : Nat := 100
  /-- DIR_CFG.scrub_enable. 1 bit; R327; reset 1 -/
  scrub : Bool := true
  /-- BIConflicts not yet acknowledged: agent, handle, line. R309; reset none -/
  acks : List (Nat × Nat × Nat) := []
  /-- Requests with an unsupported opcode. count; R306; reset 0 -/
  protocol : Nat := 0
  /-- Writebacks and data from an agent that is not the owner. count; R313; reset 0 -/
  unexpected : Nat := 0
  /-- Writebacks discarded. count; R318, R321; reset 0 -/
  lost : Nat := 0
  /-- DIR_STALE_SNOOPS. 48 bits, saturating; R327; reset 0 -/
  stale : Nat := 0
  /-- DIR_INT_STATUS [5:0]. 6 bits; R327; reset 0 -/
  intStatus : BitVec 6 := 0
  /-- DIR_INT_ENABLE [5:0]. 6 bits; R327; reset 0 -/
  intEnable : BitVec 6 := 0
  /-- The lines whose entries each set of a bank caches, the most recently used first, by 4,096 * logical bank + set. at most 16 lines a
  set; R304; reset none -/
  cache : Tbl (List Nat) := []
  /-- Banks. 33 entries; R304; reset as DirBank -/
  banks : Tbl DirBank := []
deriving DecidableEq, Repr
/-! ### Message engines, matching and locks (MEC, MTC) -/

/-- An operation in flight (R329, R330): what its slot holds. -/
structure OpSlot where
  /-- [15:9] engine position, [8:0] slot. 16 bits; R330 -/
  opTag : Nat
  queue : Nat
  inst : Nat
  /-- The queue generation at issue (R370). -/
  queueGen : Nat
  d : Desc
  /-- Bytes of the result that have landed. R338 -/
  bytes : Nat := 0
  /-- SEND: its message number and refusals so far. R359, R363 -/
  msn : Nat := 0
  rnrCount : Nat := 0
  rnrWait : Bool := false
  /-- The rnr_limit that its timer started under; none before its first start. R375 -/
  rnrLimit : Option Nat := none
  /-- Its packets not yet covered by a TACK. R222 -/
  unacked : Nat := 0
  /-- Its first packet has been admitted: no later one is refused. R64 -/
  admitted : Bool := false
  /-- Its result has come; the record waits for order, TACKs or queue room. R340, R343 -/
  result : Option (Nat × Nat) := none
  /-- Fields of the record: detail and refusal reason, retry_after. R341 -/
  detail : Nat := 0
  refusal : Nat := 0
  retryAfter : Nat := 0
  /-- A SEND that ended with RNR_EXCEEDED: a zero-length message stands in for it and is not answered yet; true once the
  record is written. R363 -/
  standIn : Option Bool := none
  /-- RECEIVE side: an RGET issued for a matched rendezvous message. R361 -/
  isRget : Bool := false
  /-- Triggered: completes in its own turn. R340 -/
  triggered : Bool := false
  /-- A fence's triggered operations that had fired before it was fetched and have not completed. R340 -/
  fenceOn : List Nat := []
deriving DecidableEq, Repr

/-- A send queue (R332, R336, R370). -/
structure SendQueue where
  inst : Nat
  base : Nat
  log2Size : Nat
  cq : Nat
  engine : Nat
  weight : Nat
  maxOut : Nat
  producer : Nat := 0
  consumer : Nat := 0
  error : Bool := false
  /-- Generation, modulo 256. R370 -/
  gen : Nat := 0
  /-- QUEUE_MOVE in progress: the old engine. R370 -/
  moving : Option Nat := none
  /-- QUEUE_DESTROY in progress. R374 -/
  destroying : Bool := false
  /-- Fetching is stopped: completion queue full (R343) or trigger list full (R355). -/
  stalled : Bool := false
  /-- Locks held: device and lock index recorded by the source. R365 -/
  locks : List (Nat × Nat) := []
  /-- Descriptors fetched whose records are not yet written, in order: op_tag. R340 -/
  order : List Nat := []
  /-- Visits of the present round of weighted round robin that it has had. R336 -/
  visits : Nat := 0
  /-- Operations fetched or fired and not yet started, by op_tag, oldest first. R336, R354 -/
  issue : List Nat := []
deriving DecidableEq, Repr

/-- A receive queue (R332). -/
structure RecvQueue where
  inst : Nat
  base : Nat
  log2Size : Nat
  cq : Nat
  producer : Nat := 0
  consumer : Nat := 0
  error : Bool := false
  /-- Stalled on quota. R363 -/
  stalled : Bool := false
  /-- QUEUE_DESTROY in progress: matched receives finish. R374 -/
  destroying : Bool := false
deriving DecidableEq, Repr

/-- A completion or event queue (R332, R342, R344). -/
structure RecordQueue where
  inst : Nat
  base : Nat
  log2Size : Nat
  vector : Nat
  /-- Records written, modulo 65,536. -/
  producer : Nat := 0
  consumer : Nat := 0
  /-- The next record raises the vector. R333 -/
  armed : Bool := false
  error : Bool := false
  /-- Completion records that wait for room, oldest first: their fields in the order of R341. R343 -/
  held : List (List Nat) := []
deriving DecidableEq, Repr

/-- A trigger entry (R354). -/
structure Trigger where
  engine : Nat
  queue : Nat
  d : Desc
  /-- It has fired and waits to be issued. -/
  fired : Bool := false
  /-- Fence operations of its queue that were fetched after it fired and wait for it, by op_tag. R340 -/
  fences : List Nat := []
deriving DecidableEq, Repr

/-- A read of an instance's memory that serves a GET or an RGET, or gets the data of a PUT, a SEND or an ATOMIC (R338,
R347, R361): what is still to be read. -/
structure PendRead where
  /-- The instance whose memory is read. -/
  inst : Nat
  req : Req
  /-- The opcode of the packets that carry what is read: 0x11 GET_DATA, 0x16 RGET_DATA, 0x00 PUT, 0x02 ATOMIC,
  0x05 SEND_EAGER. R351 -/
  opcode : Nat
  /-- Address of the part being read, and its data_offset. -/
  address : Nat
  offset : Nat
  /-- Bytes still to be read, with the part being read. -/
  left : Nat
  /-- The master that reads (R470): an engine position, or a cluster's bulk mover. -/
  master : Nat
  /-- The operation slot that is read for; none for a GET. R361 -/
  slot : Option Nat := none
  /-- The stream whose resend is read for. R226 -/
  again : Option CtxKey := none
deriving DecidableEq, Repr

/-- An instance's engine resources (R353, R362, R373). -/
structure EngInst where
  counterBase : Nat := 0
  counterCount : Nat := 0
  /-- Heap in units of 2 MiB. R373 -/
  heap : Nat := 0
  matchEntries : Nat := 0
  onDieReserve : Nat := 0
  /-- Heap bytes of the matching unit and working areas in use, in 256-byte units. R362, R400 -/
  heapUsed : Nat := 0
  /-- Events that could not be posted. R344 -/
  lost : Nat := 0
  /-- The next event record sets lost. R344 -/
  lostFlag : Bool := false
  /-- Doorbells and other accesses counted against the instance. R334, R437 -/
  ignored : Nat := 0
deriving DecidableEq, Repr

/-- Message engines (R328 to R355, R365 to R376). -/
structure Mec where
  /-- Send queues. 16,384 entries; R332; reset none -/
  sendQ : Tbl SendQueue := []
  /-- Receive queues. 4,096 entries; R332; reset none -/
  recvQ : Tbl RecvQueue := []
  /-- Completion queues. 16,384 entries; R332; reset none -/
  compQ : Tbl RecordQueue := []
  /-- Event queues. 1,024 entries; R332; reset none -/
  eventQ : Tbl RecordQueue := []
  /-- Operation slots by op_tag. 65,536 entries; R329; reset none in use -/
  slots : Tbl OpSlot := []
  /-- Trigger entries, oldest first. 128 x 8,192; R329; reset none -/
  triggers : List Trigger := []
  /-- LOCK_ABANDONs owed to other devices: device, instance and send queue, oldest first. R368; MODEL's own, empty
  between steps -/
  abandons : List (Nat × Nat × Nat) := []
  /-- Counters. 16,384 of 64 bits; R353; reset 0 -/
  counters : Tbl Nat := []
  /-- Regions. 65,536 entries; R345; reset not valid -/
  regions : Tbl RegionP := []
  /-- Per instance. 1,024 entries; R373; reset as EngInst -/
  inst : Tbl EngInst := []
  /-- Host reads that serve GETs and RGETs, by tag. R347, R361; reset none -/
  reads : Tbl PendRead := []
  /-- Host reads issued so far, which give the tags. MODEL's own; reset 0 -/
  readCount : Nat := 0
  /-- Engine positions served by a spare. 128 bits; R26, R377; reset none -/
  spares : List Nat := []
  /-- rnr_delay in us. 10 bits; R375; reset 16 -/
  rnrDelay : Nat := 16
  /-- rnr_limit. 9 bits; R375; reset 64 -/
  rnrLimit : Nat := 64
  /-- lock_age in ms. 14 bits; R375; reset 100 -/
  lockAge : Nat := 100
  /-- MEC_INT_STATUS [4:0]. 5 bits; R377; reset 0 -/
  intStatus : BitVec 5 := 0
  /-- MEC_INT_ENABLE [4:0]. 5 bits; R377; reset 0 -/
  intEnable : BitVec 5 := 0
  /-- PUTs that were refused, of which packets are still to come: source device, instance, op_tag and inst_gen. R346; reset none -/
  refusedPuts : List (Nat × Nat × Nat × Nat) := []
deriving DecidableEq, Repr

/-- Who asks for a range (R365): source device, instance and send queue. -/
structure LockOwner where
  device : Nat
  inst : Nat
  queue : Nat
deriving DecidableEq, Repr

/-- A lock table entry (R365 to R368): Free entries are not listed. -/
structure LockEntry where
  region : Nat
  offset : Nat
  length : Nat
  owner : LockOwner
  /-- Abandoned, not Held. R368 -/
  abandoned : Bool := false
  /-- Its age has been reported. R369 -/
  reported : Bool := false
deriving DecidableEq, Repr

/-- An access or LOCK that waits on a Held range (R366, R367). -/
structure LockWait where
  owner : LockOwner
  req : Req
  region : Nat
  offset : Nat
  length : Nat
  /-- The waiting command of this model, retried at release. -/
  isLock : Bool
  /-- The region entry under which it was checked. R374 -/
  entry : RegionP
  what : Instr
deriving DecidableEq, Repr

/-- The lock table (R365 to R369). -/
structure Locks where
  /-- Lock table by index. 4,096 entries; R365; reset Free -/
  table : Tbl LockEntry := []
  /-- Wait list in order of arrival. 4,096 entries; R365; reset none -/
  waits : List LockWait := []
  /-- LOCK_ABANDONs that found nothing. count; R376; reset 0 -/
  unmatched : Nat := 0
deriving DecidableEq, Repr

/-- A posted receive (R356, R358). -/
structure Posted where
  inst : Nat
  queue : Nat
  d : RecvDesc
  onDie : Bool
deriving DecidableEq, Repr

/-- A message known to the matching unit (R356 to R361). -/
structure Msg where
  srcDevice : Nat
  srcInst : Nat
  inst : Nat
  context : Nat
  msn : Nat
  matchBits : Nat
  length : Nat
  rendezvous : Bool
  /-- The sender's op_tag and generation. R352 -/
  opTag : Nat
  instGen : Nat
  sl : Nat
  /-- Eager data received: offset and bytes of each packet. -/
  data : List (Nat × List Nat)
  /-- The first packet has arrived. R359 -/
  first : Bool
  /-- The receive matched to it. R358 -/
  taken : Option Posted
  /-- SEND_ACK has been sent. R361 -/
  acked : Bool := false
  /-- In the unexpected list, not early. R358 -/
  unexpected : Bool := false
  onDie : Bool := true
  /-- Heap units of 256 bytes it holds. R362 -/
  heap : Nat := 0
  /-- The op_tag of the RGET issued for it and bytes read. R361 -/
  rget : Option Nat := none
  got : Nat := 0
deriving DecidableEq, Repr

/-- A receive context of the matching unit: a sender's stream to this device (R359, R363). -/
structure MtcCtx where
  srcDevice : Nat
  srcInst : Nat
  /-- The expected message number. 16 bits; R359 -/
  expected : Nat := 0
  /-- The SEND_RNR floor, with the instance whose message was refused. R363, R417 -/
  floor : Option (Nat × Nat) := none
  /-- Later packets of refused transmissions that are still to come: msn and msg_offset. R363 -/
  drop : List (Nat × Nat) := []
  /-- Message numbers beyond the expected one whose messages have been answered with an error or discarded. R359, R416 -/
  passed : List Nat := []
deriving DecidableEq, Repr

/-- The matching unit (R356 to R364). -/
structure Mtc where
  /-- Posted receives in posting order. list; R358; reset empty -/
  posted : List Posted := []
  /-- Messages early, unexpected, matched or partly received, in order of entry. list; R358; reset empty -/
  msgs : List Msg := []
  /-- Streams. list; R359; reset none -/
  ctxs : List MtcCtx := []
  /-- Messages discarded as duplicates. count; R359; reset 0 -/
  duplicates : Nat := 0
  /-- MTC_INT_STATUS [2:0]. 3 bits; R377; reset 0 -/
  intStatus : BitVec 3 := 0
  /-- MTC_INT_ENABLE [2:0]. 3 bits; R377; reset 0 -/
  intEnable : BitVec 3 := 0
deriving DecidableEq, Repr
/-! ### Reduction unit (RDX) -/

/-- The states of R392, of an installed group. -/
inductive GroupState where
  | collecting | waiting | fenced
deriving DecidableEq, Repr

/-- An element in the working area: an exact record (R383) with its flags, or a native value. -/
inductive Elem where
  | exact (acc : BitVec 320) (nan posInf negInf nonNegZero : Bool)
  | native (v : Nat)
deriving DecidableEq, Repr

/-- One input of a round: a member slot or a child slot (R387, R391). -/
structure RdxInput where
  /-- Elements present, by element number. R391 -/
  elems : Tbl Elem := []
  /-- Arrived: its contribution is being read, or an arrival packet came. R388, R391 -/
  arrived : Bool := false
  /-- Members counted. R393 -/
  members : Nat := 0
deriving DecidableEq, Repr

/-- A collective group's entry (R378, R392). -/
structure Group where
  p : GroupP
  state : GroupState := .collecting
  /-- The open round. R392 -/
  round : Nat := 1
  /-- Each member's base, the counter's value at installation. R388 -/
  bases : List Nat
  /-- Rounds for which each member has a header. R397 -/
  written : Tbl Nat := []
  /-- Fenced member slots and child slots. R395 -/
  memberFenced : List Nat := []
  childFenced : List Nat := []
  /-- Inputs of the open round by slot: members, then 16 + child. R387 -/
  inputs : Tbl RdxInput := []
  /-- Elements combined and sent up. R391 -/
  sentUp : Nat := 0
  /-- A contribution read returned poison in this round. R398 -/
  poison : Bool := false
  /-- A fence is owed at the completion of the round in Waiting. R395 -/
  fenceNext : Bool := false
  /-- Down chunks received. R391 -/
  down : Tbl Nat := []
  /-- The combined count of the last completed round. R402 -/
  lastCombined : Nat := 0
  /-- COLL_GROUP_REMOVE has been accepted. R403 -/
  removing : Bool := false
  /-- Its working area in bytes. R400 -/
  area : Nat
deriving DecidableEq, Repr

/-- The reduction unit (R378 to R406). -/
structure Rdx where
  /-- Groups by number. 4,096 entries; R378; reset Not installed -/
  groups : Tbl Group := []
  /-- RDX_INT_STATUS [5:0]. 6 bits; R406; reset 0 -/
  intStatus : BitVec 6 := 0
  /-- RDX_INT_ENABLE [5:0]. 6 bits; R406; reset 0 -/
  intEnable : BitVec 6 := 0
  /-- RDX_DOWNs discarded for groups not installed. count; R404; reset 0 -/
  unknownDown : Nat := 0
deriving DecidableEq, Repr
/-! ### Instances (INS) -/

/-- The states of an instance (R409). -/
inductive InstState where
  | free | enabled | resetting | contained
deriving DecidableEq, Repr

/-- Where a reset stands (R416). -/
inductive ResetPhase where
  | none
  /-- From 0 to D, drain form. -/
  | draining
  /-- Waits at the generation step under R411. -/
  | genWait
  /-- After the generation step, until no item remains. -/
  | ending
deriving DecidableEq, Repr

/-- The dirty-page log of an instance (R420 to R423). -/
structure DirtyLog where
  /-- INS_STATE.log_enabled. 1 bit; R430; reset 0 -/
  enabled : Bool := false
  /-- INS_STATE.log_buffer: B is active. 1 bit; R430; reset 0 -/
  activeB : Bool := false
  baseA : Nat := 0
  baseB : Nat := 0
  rangeBase : Nat := 0
  rangePages : Nat := 0
  /-- Pages marked in each buffer and not yet written back (the log cache). R422 -/
  marksA : List Nat := []
  marksB : List Nat := []
  /-- out_of_range count since the previous swap. R420 -/
  outOfRange : Nat := 0
  /-- The out_of_range count that the reply of a swap in progress carries. R423 -/
  replyRange : Nat := 0
  /-- Swaps. 32 bits; R423 -/
  swaps : Nat := 0
  /-- A swap or a disable writes back. R423, R424 -/
  swapping : Bool := false
  disabling : Bool := false
deriving DecidableEq, Repr

/-- An access of the device to memory of an instance's function, which waits while Bus Master
Enable is clear (R428): a write of data at an address, a read, or an MSI-X message. -/
inductive HostAcc where
  | write (address : Nat) (data : List Nat)
  | read (address length tag : Nat)
  | msix (vector : Nat)
deriving DecidableEq, Repr

/-- An instance (R407 to R430). -/
structure Instance where
  /-- INS_STATE.state. 2 bits; R430; reset Free (instance 0: Enabled) -/
  state : InstState := .free
  /-- INS_STATE.generation. 4 bits; R430; reset 0 -/
  gen : Nat := 0
  /-- INS_STATE.reset_mode: squash. 1 bit; R430; reset 0 (instance 0: 1) -/
  squash : Bool := false
  /-- INS_STATE.port. 5 bits; R430; reset 0 -/
  port : Nat := 0
  /-- INS_STATE.function. 10 bits; R430; reset 0 -/
  function : Nat := 0
  /-- drain_timeout in 0.1 ms. 9 bits; R418; reset 100 -/
  drainTimeout : Nat := 100
  /-- MSI-X vectors. 7 bits; R427; reset 16 -/
  vectors : Nat := 16
  /-- INS_STATE.bme_held. 1 bit; R430; reset 0 -/
  bmeHeld : Bool := false
  /-- The dirty-page log. R420; reset off -/
  log : DirtyLog := {}
  /-- The reset in progress. R416; reset none -/
  phase : ResetPhase := .none
  /-- Items squashed at drain_timeout, and ended by force. R418, R419 -/
  squashed : Nat := 0
  timedOut : Bool := false
  forced : Bool := false
  /-- INSTANCE_DISABLE: Free at completion. R413 -/
  disabling : Bool := false
  /-- An FLR waits on the reset. R415, R428 -/
  flr : Bool := false
  /-- Generations retired less than 64 ms ago, newest first, each with the core time. R411 -/
  retired : List (Nat × Nat) := []
  /-- Host reads issued and not completed: tags. R414 -/
  reads : List Nat := []
  /-- Host accesses that wait while Bus Master Enable is clear, oldest first. R414, R428 -/
  heldAcc : List HostAcc := []
  /-- Lost while metered: the instance waits for a metering record slot. R551 -/
  meteringWait : Bool := false
deriving DecidableEq, Repr

/-- Instances (R407 to R430). -/
structure Ins where
  /-- Instances. 1,024 entries; R409; reset Free, instance 0 Enabled with reset_mode 1 -/
  inst : Tbl Instance := [(0, { state := .enabled, squash := true })]
  /-- INS_INT_STATUS [5:0]. 6 bits; R430; reset 0 -/
  intStatus : BitVec 6 := 0
  /-- INS_INT_ENABLE [5:0]. 6 bits; R430; reset 0 -/
  intEnable : BitVec 6 := 0
deriving DecidableEq, Repr
/-! ### Protection and interrupts (MPU, ICU) -/

/-- Where a rule-set swap stands (R476, R477). -/
inductive SwapPhase where
  | idle
  /-- Awaits its commit point. -/
  | commit
  /-- Awaits the retirement of the accesses issued before it. -/
  | retire
deriving DecidableEq, Repr

/-- A master's protection unit (R471). -/
structure Master where
  /-- MPU_MASTER.active_set: B is active. 1 bit; R488; reset 0 -/
  activeB : Bool := false
  /-- Rule set A. 64 entries; R471; reset empty -/
  setA : Tbl MpuRegion := []
  /-- Rule set B. 64 entries; R471; reset empty -/
  setB : Tbl MpuRegion := []
  /-- MPU_MASTER.swap_pending and its phase. 1 bit; R488; reset 0 -/
  swap : SwapPhase := .idle
  /-- Host reads issued before the commit and not retired: tags. R477; reset none -/
  reads : List Nat := []
deriving DecidableEq, Repr

/-- A violation record (R475). -/
structure Violation where
  address : Nat
  kind : Nat
  privilege : Nat
  master : Nat
  space : Nat
  setB : Bool
  region : Nat
deriving DecidableEq, Repr

/-- Memory protection (R470 to R480, R488). -/
structure Mpu where
  /-- Masters. 0 to 160, 137 implemented; R470; reset as Master -/
  masters : Tbl Master := []
  /-- The lock list. 16 entries; R478; reset empty until boot fills it -/
  locks : Tbl MpuRegion := []
  /-- The violation queue, head first. 16 entries; R475; reset empty -/
  viol : List Violation := []
  /-- MPU_VIOL_LOST.lost. 16 bits, saturating; R488; reset 0 -/
  lost : Nat := 0
  /-- MPU_STATUS.unlocked. 1 bit; R488; reset 0 -/
  unlocked : Bool := false
  /-- The debug nonce outstanding, MPU_STATUS.nonce_valid. 256 bits; R480; reset none -/
  nonce : Option Nat := none
  /-- The debug port's error flag. 1 bit; R474; reset 0 -/
  debugError : Bool := false
  /-- MPU_INT_STATUS [3:0]. 4 bits; R488; reset 0 -/
  intStatus : BitVec 4 := 0
  /-- MPU_INT_ENABLE [3:0]. 4 bits; R488; reset 0 -/
  intEnable : BitVec 4 := 0
deriving DecidableEq, Repr

/-- An interrupt source (R482). -/
structure IcuSource where
  /-- ICU_SOURCE.priority. 8 bits; R488; reset 0 -/
  priority : Nat := 0
  /-- ICU_SOURCE.core_mask. 5 bits; R488; reset 0 -/
  mask : BitVec 5 := 0
  /-- The latch of a latched source. 1 bit; R482; reset 0 -/
  latch : Bool := false
  /-- ICU_SOURCE.claimed and claim_core. 1 and 3 bits; R488; reset not claimed -/
  claimed : Option Nat := none
deriving DecidableEq, Repr

/-- A management core at the interrupt controller (R484, R485). -/
structure IcuCore where
  /-- ICU_CORE.threshold. 8 bits; R488; reset 0 -/
  threshold : Nat := 0
  /-- Claims outstanding, newest first: ICU_CORE.depth. 0 to 8; R485; reset none -/
  claims : List Nat := []
deriving DecidableEq, Repr

/-- The interrupt controller (R482 to R485). -/
structure Icu where
  /-- Sources. 2,048 entries; R482; reset as IcuSource -/
  sources : Tbl IcuSource := []
  /-- Cores. 5 entries; R484; reset as IcuCore -/
  cores : Tbl IcuCore := []
  /-- The core number that the spare core 4 has taken. R470; reset none -/
  spareFor : Option Nat := none
  /-- Complete writes that named a source not claimed. count; R487; reset 0 -/
  badCompletes : Nat := 0
deriving DecidableEq, Repr

/-- An MSI-X vector of an instance (R486). -/
structure Vector where
  masked : Bool := true
  pending : Bool := false
deriving DecidableEq, Repr

/-- The MSI-X state of one instance (R486). -/
structure Msix where
  /-- MSI-X Enable of the function, as the host's configuration writes leave it. 1 bit; R486; reset 0 -/
  enable : Bool := false
  /-- Function Mask. 1 bit; R486; reset 0 -/
  functionMask : Bool := false
  /-- Vectors: mask and pending bits. 1 to 64 entries; R437; reset masked, not pending -/
  vectors : Tbl Vector := []
  /-- Events counted against the instance. count; R486; reset 0 -/
  dropped : Nat := 0
deriving DecidableEq, Repr
/-! ### Faults, spares and background work (FLT) -/

/-- A fault source (R520 to R532). -/
structure FaultSrc where
  /-- FLT_SOURCE.severity when FAULT_SET has changed it; else the source map's. 3 bits; R539; reset source map -/
  severity : Option Nat := none
  /-- FLT_SOURCE.force, with its subject. 1 bit; R532; reset 0 -/
  force : Option Subject := none
  /-- FLT_SOURCE.active of a level source. 1 bit; R539; reset 0 -/
  active : Bool := false
  /-- FLT_SOURCE.effective. 3 bits; R539; reset 0 (kept) -/
  effective : Nat := 0
  /-- FLT_SOURCE.sticky. 1 bit; R531; reset 0 (kept) -/
  sticky : Bool := false
  /-- Its uncleared events: the subject and the effective severity of each. R521, R528, R537; reset none (kept) -/
  unc : List (Subject × Nat) := []
deriving DecidableEq, Repr

/-- A spare swap in progress (R533). -/
structure SwapRun where
  kind : Nat
  unit : Nat
  /-- It came from SPARE_SWAP, not from a degrade or a trend. -/
  commanded : Bool
deriving DecidableEq, Repr

/-- Faults, spares and background settings (R520 to R539). -/
structure Flt where
  /-- Sources. 2,048 entries; R520; reset as FaultSrc -/
  sources : Tbl FaultSrc := []
  /-- Actions owed to faults raised in this step: source, effective severity and subject, oldest
  first. R523; MODEL's own, empty between steps -/
  actions : List (Nat × Nat × Subject) := []
  /-- FLT_RECOVERIES. 32 bits, saturating; R539; reset 0 (kept) -/
  recoveries : Nat := 0
  /-- FLT_CFG.quiet_ms. 16 bits; R539; reset 1,000 -/
  quietMs : Nat := 1000
  /-- FLT_CFG.vector. 6 bits; R539; reset 0 -/
  vector : Nat := 0
  /-- FLT_CFG.auto. 7 bits; R539; reset 0 until boot firmware applies the default of all ones -/
  auto : BitVec 7 := 0
  /-- FLT_STATUS.halted. 1 bit; R539; reset 0 -/
  halted : Bool := false
  /-- FLT_INT_STATUS [3:0]. 4 bits; R539; reset 0 -/
  intStatus : BitVec 4 := 0
  /-- FLT_INT_ENABLE [3:0]. 4 bits; R539; reset 0 -/
  intEnable : BitVec 4 := 0
  /-- Spares in use: kind, spare number, unit replaced. R533; reset none -/
  spares : List (Nat × Nat × Nat) := []
  /-- Units retired: kind and unit. R534; reset none -/
  retired : List (Nat × Nat) := []
  /-- Swaps in progress, and trends that wait for one. R533, R538; reset none -/
  swaps : List SwapRun := []
  swapWait : List SwapRun := []
  /-- hbm_patrol_h. 8 bits; R537; reset 24 -/
  hbmPatrolH : Nat := 24
  /-- sram_patrol_ms. 16 bits; R537; reset 1,000 -/
  sramPatrolMs : Nat := 1000
  /-- cal_period_ms. 14 bits; R537; reset 1,000 -/
  calPeriodMs : Nat := 1000
  /-- trend_threshold. 10 bits; R537; reset 64 -/
  trendThreshold : Nat := 64
  /-- trend_window_min. 11 bits; R537; reset 60 -/
  trendWindowMin : Nat := 60
  /-- Poisoned 64-byte HBM lines, by line number. R535; reset none -/
  poisonLines : List Nat := []
  /-- Last reading of each thermal sensor in degrees C. R522; reset none -/
  temps : Tbl (Option Int) := []
  /-- Calibrations run. R536; reset 0 -/
  calibrations : Nat := 0
deriving DecidableEq, Repr
/-! ### Observation and metering (TTC, MTR, SHN) -/

/-- A counter of the programmable configuration (R540, R541, R544). -/
structure TtcCounter where
  /-- The event selected. 13 bits; R554; reset none -/
  event : Option Nat := none
  /-- sample_period. 32 bits; R544; reset 0 off -/
  period : Nat := 0
  /-- The local 32-bit register. R541; reset 0 -/
  local_ : Nat := 0
  /-- The 64-bit accumulator. R541; reset 0 -/
  value : Nat := 0
  /-- Countdowns by engine position. R544; reset none -/
  countdown : Tbl Nat := []
  /-- Program counters recorded, by engine position. R544; reset 0 -/
  sampled : Tbl Nat := []
deriving DecidableEq, Repr

/-- A snapshot staged for a dump stream (R546, R551, R554). -/
structure Snapshot where
  /-- 0 to 4. R547 -/
  kind : Nat
  /-- Its number in the stream. R547 -/
  seq : Nat
  /-- The instance whose INSTANCE_DISABLE waits for it. R551 -/
  final : Option Nat := none
  /-- The bytes of the slot. R547, R548 -/
  image : List Nat
deriving DecidableEq, Repr

/-- A dump stream (R545 to R547). -/
structure Stream where
  /-- interval_ms, 0 off. 16 bits; R545; reset 0 -/
  interval : Nat := 0
  /-- Ring base. 64 bits; R545; reset 0, DESIGN CHOICE (2) -/
  base : Nat := 0
  /-- Slots, 0 while no ring is set. 7 bits; R545; reset 0, DESIGN CHOICE (2) -/
  slots : Nat := 0
  /-- MSI-X vector. 6 bits; R545; reset 0, DESIGN CHOICE (2) -/
  vector : Nat := 0
  /-- The slot written next. R546; reset 0 -/
  next : Nat := 0
  /-- Slots whose valid byte is 1, as software leaves them. R546; reset none -/
  full : List Nat := []
  /-- Snapshots staged and not yet written, oldest first. R546; reset none -/
  staged : List Snapshot := []
  /-- Settings that take effect at the next interval boundary. R554; reset none -/
  pending : Option (Nat × Nat × Nat × Nat) := none
  /-- sequence. 32 bits; R547; reset 0 -/
  sequence : Nat := 0
  /-- lost. 32 bits; R547; reset 0 -/
  lost : Nat := 0
  /-- skipped. 32 bits; R547; reset 0 -/
  skipped : Nat := 0
deriving DecidableEq, Repr

/-- A metering record's cumulative fields (R549). -/
structure MeterRec where
  /-- flags [0]: created since the previous periodic dump. 1 bit; R549 -/
  created : Bool := false
  txBytes : Nat := 0
  txPackets : Nat := 0
  rxBytes : Nat := 0
  rxPackets : Nat := 0
  greenBytes : Nat := 0
  beInBytes : Nat := 0
  beExcessBytes : Nat := 0
  suspendedBytes : Nat := 0
  reservedKbit : Nat := 0
  extentMs : Nat := 0
  engineBusyNs : Nat := 0
  edgeWaitNs : Nat := 0
  refused : Nat := 0
  late : Nat := 0
  marks : Nat := 0
deriving DecidableEq, Repr

/-- A shroud-network probe (R552, R553). -/
structure Probe where
  /-- SHN_PROBE.action. 2 bits; R556; reset 0 -/
  action : Nat := 0
  /-- SHN_PROBE.bridge. 8 bits; R556; reset 0 -/
  bridge : Nat := 0
  source : Nat := 0
  destination : Nat := 0
  kindMask : BitVec 5 := 0
  matchAddr : Word64 := 0
  mask : Word64 := 0
  /-- Trace area in records. 17 bits; R553; reset 0 -/
  records : Nat := 0
  /-- SHN_PROBE.stopped. 1 bit; R556; reset 0 -/
  stopped : Bool := false
  /-- Matches and bytes. 64 bits each; R553; reset 0 -/
  matches_ : Nat := 0
  bytes : Nat := 0
  /-- Records dropped. R553; reset 0 -/
  dropped : Nat := 0
  /-- Write index. R554; reset 0 -/
  writeIndex : Nat := 0
  /-- Records held, as the 256-bit image of each, oldest first. R553; reset none -/
  trace : List Nat := []
  /-- Records that wait for the background slice. R553; reset none -/
  traceWait : List Nat := []
deriving DecidableEq, Repr

/-- Telltale counters, dumps, metering and probes (R540 to R556). -/
structure Ttc where
  /-- TTC_STATUS.config: programmable. 1 bit; R556; reset boot configuration, 0 before boot -/
  programmable : Bool := false
  /-- Counts of the fixed configuration by event number. 8,192 of 64 bits; R541; reset 0 -/
  counts : Tbl Nat := []
  /-- Counters of the programmable configuration by 8 * block + counter. 224 entries; R540; reset as TtcCounter -/
  counters : Tbl TtcCounter := []
  /-- Dump streams 0 and 1. 2 entries; R545; reset as Stream -/
  stream0 : Stream := {}
  stream1 : Stream := {}
  /-- Time since the last millisecond that R549 and R550 charge, in 1/1,600 ns. count; R549; reset 0, DESIGN CHOICE (2) -/
  msClock : Nat := 0
  /-- Metering records. 1,024 entries; R549; reset 0 -/
  meters : Tbl MeterRec := []
  /-- Probes. 8 entries; R552; reset as Probe -/
  probes : Tbl Probe := []
  /-- TTC_INT_STATUS [2:0]. 3 bits; R556; reset 0 -/
  intStatus : BitVec 3 := 0
  /-- TTC_INT_ENABLE [2:0]. 3 bits; R556; reset 0 -/
  intEnable : BitVec 3 := 0
deriving DecidableEq, Repr
/-! ### Reset, boot and the test port (MGC) -/

/-- The stages of MGC_BOOT_STATUS.stage (R566, chapter 18). -/
inductive BootStage where
  | selfTest | imageRead | checks | fwStart | config | ready
deriving DecidableEq, Repr

/-- A flash image slot, as the last FW_WRITE or check left it (R563 to R565). -/
structure FlashSlot where
  /-- Bytes written by FW_WRITE: offset and length of each piece, newest first. R572; reset none -/
  pieces : List (Nat × List Nat) := []
  /-- FW_WRITE is filling it: no final piece yet. R573; reset 0 -/
  filling : Bool := false
  /-- The last check of R564: none before one, else whether it passed. R565; reset none -/
  ok : Option Bool := none
  /-- Security version of the image. R564; reset 0 -/
  version : Nat := 0
  /-- Firmware version of the image: patch, minor, major. 24 bits; R469; reset 0 -/
  fwVersion : Nat := 0
deriving DecidableEq, Repr

/-- A reset that has been asked for and takes effect later (R572). -/
structure PendingReset where
  /-- 0 warm, 1 management complex, 2 cold. -/
  kind : Nat
  /-- Trigger code of MGC_RESET_CAUSE. -/
  trigger : Nat
deriving DecidableEq, Repr

/-- The management complex, boot and straps (R557 to R573). -/
structure Mgc where
  /-- MGC_RESET_CAUSE.kind. 3 bits; chapter 18, R558; reset 0 (kept) -/
  resetKind : Nat := 0
  /-- MGC_RESET_CAUSE.trigger. 4 bits; chapter 18, R558; reset 0 (kept) -/
  trigger : Nat := 0
  /-- MGC_RESET_CAUSE.warm_count. 16 bits, saturating; chapter 18, R558; reset 0 (kept) -/
  warmCount : Nat := 0
  /-- MGC_BOOT_STATUS.stage. 4 bits; chapter 18, R566; reset 0 -/
  stage : BootStage := .selfTest
  /-- MGC_BOOT_STATUS.repair_bad. 1 bit; R565; reset 0 -/
  repairBad : Bool := false
  /-- MGC_BOOT_STATUS.floor beyond the fused value, by raise_floor. 5 bits; R572; reset fused -/
  floor : Option Nat := none
  /-- Fuses used by raise_floor. at most 32; R572; reset 0, DESIGN CHOICE (2) -/
  fusesUsed : Nat := 0
  /-- Flash slots 0 and 1. 2 of 32 MiB; R563; reset as FlashSlot -/
  slot0 : FlashSlot := {}
  slot1 : FlashSlot := {}
  /-- The slot that the activation record names. 1 bit; R563; reset 0, DESIGN CHOICE (2) -/
  activation : Nat := 0
  /-- The boot ROM has tried the first slot and it failed. R565; reset 0 -/
  triedFirst : Bool := false
  /-- STRAP_SMBADDR. 3 bits; R557; reset strap, 0 -/
  smbAddr : Nat := 0
  /-- STRAP_PPSSEL. 1 bit; R557; reset strap, 0 -/
  ppsSel : Nat := 0
  /-- STRAP_FLASH. 1 bit; R557; reset strap, 1 -/
  flash : Nat := 1
  /-- A reset that takes effect later. R572; reset none -/
  pendingReset : Option PendingReset := none
  /-- VAUX33 is up: the masthead domain runs. R24, R557; reset 1 -/
  vaux : Bool := true
  /-- PERST0_N is asserted. R558, R587; reset 1, DESIGN CHOICE (2) -/
  perst0 : Bool := true
  /-- The TAP instruction in force. 8 bits; R587; reset IDCODE, DESIGN CHOICE (2) -/
  tap : Nat := 1
  /-- An FLR of instance 0 waits for the end of a management-complex reset. R573; reset 0 -/
  flrWait : Bool := false
  /-- A management-complex reset is under way. R560; reset 0 -/
  mgmtReset : Bool := false
  /-- Management cores that have failed or whose watchdog has expired. 5 bits; R533; reset none -/
  coresFailed : List Nat := []
  /-- FABRIC_LEAVE is in progress. R570; reset 0 -/
  leaving : Bool := false
  /-- Subsystem vendor ID and subsystem ID, from the boot configuration. 16 and 16 bits; R431; reset 0x1F3C, 0x3400 -/
  subsystem : Nat × Nat := (0x1F3C, 0x3400)
  /-- The packets that R157 counts and answers. count; R157; reset 0 -/
  reservedOpcodes : Nat := 0
  /-- Packets for an unassigned endpoint, answered. R160; reset 0 -/
  unassigned : Nat := 0
  /-- MCTP control messages answered. count; R467; reset 0 -/
  mctp : Nat := 0
deriving DecidableEq, Repr
/-! ### Outputs -/

/-- What a link frame looks like on the wire (R198, R200): its head, the sync headers of its flits and its frame_crc. -/
structure WireFrame where
  head : BitVec 128
  sync : List (BitVec 16)
  frameCrc : Nat
deriving DecidableEq, Repr

/-- What the device shows the outside world: one entry each time it writes, sends or answers. -/
inductive Out where
  /-- A status reply and its output data, written to the queue's rings or sent on its channel (R446). -/
  | reply (r : Reply)
  /-- A reply sent in-band by HLY_REPLY, or DIRECTED on the recorded return ports (R461). -/
  | inbandReply (key : InbandKey) (ports : List Nat) (r : Reply)
  /-- The segments of a command message sent to another device (R461), with the descriptor that the message begins with. -/
  | inbandCommand (target : Nat) (directed : Bool) (ports : List Nat) (queue seq attempt descriptor : Nat)
  /-- A response on the board channel that is no reply: 0x0217, busy (R467). -/
  | board (status : Nat)
  /-- The answer to an MCTP control message, as its base specification gives it (R467). -/
  | mctp (command : Nat)
  /-- An event record on an instance's event queue (R344): kind, detail, subject, aux, data, lost. -/
  | event (inst queue index : Nat) (fields : List Nat)
  /-- An event of the pool for instance 0 (R288, R290). -/
  | poolEvent (arrival : Bool) (fields : List Nat)
  /-- A completion record (R341) at an index of a completion queue. -/
  | completion (cq index : Nat) (fields : List Nat)
  /-- An MSI-X message (R486). -/
  | msix (inst vector : Nat)
  /-- A packet built here and handed to admission and transport. -/
  | packet (p : Packet) (len : Nat)
  /-- A frame sent on a port, with the bits that its header leaves with (R86, R113, R200). -/
  | frame (port vl seq flits : Nat) (pkt : Packet) (aborted : Bool) (wire : Option WireFrame)
  /-- A frame that has started is closed with an abort marker: the tag of its last flit (R105, R198). -/
  | abortMark (port vl : Nat) (pkt : Packet) (sync : BitVec 16)
  /-- Idle flits sent in place of a frame, by injection (R229). -/
  | dropped (port seq : Nat)
  /-- A background frame of an output, or the rest of one that was preempted, sent (R45, R127): its queue and its bytes. -/
  | background (output queue bytes : Nat)
  /-- The refusal status of a packet, returned to its sender at a local input or a host link (R62, R65). -/
  | refused (pid inst reason retryAfter : Nat)
  /-- A packet delivered at a local output (R47). -/
  | delivered (output : Nat) (p : Packet)
  /-- A packet that transport hands to the path that its opcode names, in order where it is flagged (R47, R181). -/
  | handed (p : Packet)
  /-- A link control flit (R201). -/
  | controlFlit (port : Nat) (flit : BitVec 512)
  /-- A lane-management message (R251). -/
  | laneMsg (port : Nat) (msg : BitVec 64)
  /-- A training sequence state or lane action at a port (R243, R256). -/
  | training (port : Nat) (state : TrainState)
  /-- The training sequences that a native port sends on its nine lanes from now on (R243, R244). -/
  | sequence (port : Nat) (seqs : List (BitVec 128))
  /-- A transport control packet: opcode of R227, peer, instance, class, fields. -/
  | trnControl (opcode peer inst cls : Nat) (fields : List Nat)
  /-- An MC_ACK sent on a port (R188). -/
  | mcAck (port tree srcDevice inst op delivered fenced : Nat)
  /-- A one-hop management packet (R466): opcode, port, fields. -/
  | oneHop (opcode port : Nat) (fields : List Nat)
  /-- A directed packet sent on a port (R192). -/
  | directed (port hopCount hopPtr : Nat) (outPorts retPorts : List Nat)
  /-- An unreachable reply to a directed packet (R192). -/
  | unreachable (ports : List Nat)
  /-- An engine response (R351): opcode, device, op_tag, inst_gen, status, data_offset, data. -/
  | engRsp (opcode device inst opTag instGen status offset : Nat) (data : List Nat)
  /-- An engine request (R351): opcode, device, op_tag, fields, data. -/
  | engReq (opcode device inst opTag instGen : Nat) (fields data : List Nat)
  /-- A write to memory of an instance's function, at a bus address (R347). -/
  | hostWrite (inst address : Nat) (data : List Nat)
  /-- A read of memory of an instance's function (R347). -/
  | hostRead (inst address length tag : Nat)
  /-- A write or an atomic on a region in the heap or at a bus address (R345, R348). -/
  | regionWrite (region offset : Nat) (data : List Nat)
  /-- A window response (R277): opcode, device, fields, reason or data. -/
  | window (opcode device inst : Nat) (w : WinF) (data : List Nat)
  /-- What a host's load or store ends in: 0 completion, 1 poison, 2 Completer Abort, 3 unsupported
  request, 4 CXL.mem error, with the path of R33. -/
  | hostRsp (inst result path : Nat) (data : List Nat := [])
  /-- A snoop to an agent (R307). -/
  | snoop (agent handle line : Nat)
  /-- A grant or completion to an agent or a non-caching requester (R308): operation code, whether the
  data is poisoned, and the data. -/
  | grant (agent : Option Nat) (op : Nat) (handle line : Nat) (poison : Bool) (data : List Nat := [])
  /-- BIConflictAck (R309). -/
  | conflictAck (agent handle line : Nat)
  /-- A read or write of a line of memory (R312). -/
  | lineRead (handle line : Nat)
  | lineWrite (handle line : Nat) (data : List Nat)
  /-- A Dynamic Capacity event towards a host: 0 add, 1 release request, with the handle (R282, R283). -/
  | capacity (link kind handle : Nat) (shared : Bool)
  /-- An action on a downstream function or slot (R286, R287): 0 Function Level Reset. -/
  | function (port routingId action : Nat)
  /-- A collective packet (R393): up, device, fields, elements. -/
  | rdx (up : Bool) (group device inst : Nat) (fields : List Nat) (elems : List Elem)
  /-- The result header, and data, written to a member (R390). -/
  | rdxResult (group member round status combined : Nat) (data : List Nat)
  /-- A dirty-page log written back: byte addresses of its buffer, and the bits ORed into each (R10, R421, R422). -/
  | logWrite (inst : Nat) (bits : List (Nat × Nat))
  /-- A contribution read (R388). -/
  | rdxRead (group member : Nat)
  /-- Viral signalled on a port (R526). -/
  | viral (port : Nat)
  /-- A snapshot slot written (R546): stream, slot, header and entries. -/
  | dump (stream slot : Nat) (image : List Nat)
  /-- A PPS pulse (R69). -/
  | pps
  /-- A trace record at the external port (R553). -/
  | trace (record : Nat)
  /-- Configuration Request Retry Status, or the end of an FLR, as configuration requests see it (R415, R567). -/
  | config (inst : Nat) (ready : Bool)
  /-- A value returned to a register read (R435). -/
  | readData (value : Nat)
deriving DecidableEq, Repr

/-- The latches of the 64-bit registers (R435). -/
structure RegLatch where
  block : Nat
  offset : Nat
  upper : Nat
deriving DecidableEq, Repr

/-- The whole device. -/
structure State where
  /-- The model's queue of commands that wait, first in, first out. MODEL's own -/
  pending : List Instr := []
  /-- The model's list of commands that the device takes again in a later core cycle. MODEL's own -/
  waiting : List Instr := []
  /-- The model's count of free values used. MODEL's own; reset 0, DESIGN CHOICE (3) -/
  freeCount : Nat := 0
  /-- What the device has shown the outside world, newest first. MODEL's own; reset none -/
  out : List Out := []
  /-- Time that the core clock has run, in units of 1/400 ns. R24; reset 0 -/
  coreTime : Nat := 0
  /-- Fabric time kept by the masthead while the hub clocks are stopped. 64 bits; R72; reset none -/
  masthead : Option Nat := none
  /-- Halyard. -/
  hly : Hly := {}
  /-- Fabric time. -/
  ftu : Ftu := {}
  /-- Admission and contracts. -/
  adm : Adm := {}
  /-- The central scheduler and staging. -/
  csc : Csc := {}
  /-- The output buffer. -/
  obf : Obf := {}
  /-- Egress scheduling. -/
  egs : Egs := {}
  /-- Arbiters. -/
  arbs : Arbs := {}
  /-- Routing. -/
  rte : Rte := {}
  /-- The link layer. -/
  lnk : Lnk := {}
  /-- Transport. -/
  trn : Trn := {}
  /-- Lanes and ports. -/
  prt : Prt := {}
  /-- Memory and device pools. -/
  pool : Pool := {}
  /-- The directory. -/
  dir : Dir := {}
  /-- Message engines. -/
  mec : Mec := {}
  /-- The lock table. -/
  locks : Locks := {}
  /-- Matching. -/
  mtc : Mtc := {}
  /-- The reduction unit. -/
  rdx : Rdx := {}
  /-- Instances. -/
  ins : Ins := {}
  /-- Memory protection. -/
  mpu : Mpu := {}
  /-- Interrupts. -/
  icu : Icu := {}
  /-- MSI-X by instance. 1,024 entries; R486; reset as Msix -/
  msix : Tbl Msix := []
  /-- Power, slots and modes. -/
  pwr : Pwr := {}
  /-- Faults and spares. -/
  flt : Flt := {}
  /-- Observation. -/
  ttc : Ttc := {}
  /-- Management complex, boot and straps. -/
  mgc : Mgc := {}
  /-- Latches of 64-bit registers. R435; reset 0 -/
  latches : List RegLatch := []
deriving DecidableEq, Repr

/-- The device right after a cold reset, before its boot has begun: every field at the value that
the spec states, or that the log names. -/
def State.reset : State := {}

end Sys2Proof.Machine
end

