-- ==== Sys2Proof/Machine/Ops.lean ====
section
/-!
DEFINITION. The named operations over the state that every family uses: one update for each block,
what the device writes to hosts, counters, events, interrupts and the raising of faults.
Where the spec leaves a point open: DESIGN CHOICE 3, 12, 114, 118, 167; DEDUCED 8 (notes/assumptions).
-/
namespace Sys2Proof.Machine

/-! ### One update for each block of the state -/

/-- The state with its block `hly` changed. -/
def State.upHly (s : State) (f : Hly → Hly) : State := { s with hly := f s.hly }
/-- The state with its block `ftu` changed. -/
def State.upFtu (s : State) (f : Ftu → Ftu) : State := { s with ftu := f s.ftu }
/-- The state with its block `adm` changed. -/
def State.upAdm (s : State) (f : Adm → Adm) : State := { s with adm := f s.adm }
/-- The state with its block `csc` changed. -/
def State.upCsc (s : State) (f : Csc → Csc) : State := { s with csc := f s.csc }
/-- The state with its block `obf` changed. -/
def State.upObf (s : State) (f : Obf → Obf) : State := { s with obf := f s.obf }
/-- The state with its block `egs` changed. -/
def State.upEgs (s : State) (f : Egs → Egs) : State := { s with egs := f s.egs }
/-- The state with its block `arbs` changed. -/
def State.upArbs (s : State) (f : Arbs → Arbs) : State := { s with arbs := f s.arbs }
/-- The state with its block `rte` changed. -/
def State.upRte (s : State) (f : Rte → Rte) : State := { s with rte := f s.rte }
/-- The state with its block `lnk` changed. -/
def State.upLnk (s : State) (f : Lnk → Lnk) : State := { s with lnk := f s.lnk }
/-- The state with its block `trn` changed. -/
def State.upTrn (s : State) (f : Trn → Trn) : State := { s with trn := f s.trn }
/-- The state with its block `prt` changed. -/
def State.upPrt (s : State) (f : Prt → Prt) : State := { s with prt := f s.prt }
/-- The state with its block `pool` changed. -/
def State.upPool (s : State) (f : Pool → Pool) : State := { s with pool := f s.pool }
/-- The state with its block `dir` changed. -/
def State.upDir (s : State) (f : Dir → Dir) : State := { s with dir := f s.dir }
/-- The state with its block `mec` changed. -/
def State.upMec (s : State) (f : Mec → Mec) : State := { s with mec := f s.mec }
/-- The state with its block `locks` changed. -/
def State.upLocks (s : State) (f : Locks → Locks) : State := { s with locks := f s.locks }
/-- The state with its block `mtc` changed. -/
def State.upMtc (s : State) (f : Mtc → Mtc) : State := { s with mtc := f s.mtc }
/-- The state with its block `rdx` changed. -/
def State.upRdx (s : State) (f : Rdx → Rdx) : State := { s with rdx := f s.rdx }
/-- The state with its block `ins` changed. -/
def State.upIns (s : State) (f : Ins → Ins) : State := { s with ins := f s.ins }
/-- The state with its block `mpu` changed. -/
def State.upMpu (s : State) (f : Mpu → Mpu) : State := { s with mpu := f s.mpu }
/-- The state with its block `icu` changed. -/
def State.upIcu (s : State) (f : Icu → Icu) : State := { s with icu := f s.icu }
/-- The state with its block `pwr` changed. -/
def State.upPwr (s : State) (f : Pwr → Pwr) : State := { s with pwr := f s.pwr }
/-- The state with its block `flt` changed. -/
def State.upFlt (s : State) (f : Flt → Flt) : State := { s with flt := f s.flt }
/-- The state with its block `ttc` changed. -/
def State.upTtc (s : State) (f : Ttc → Ttc) : State := { s with ttc := f s.ttc }
/-- The state with its block `mgc` changed. -/
def State.upMgc (s : State) (f : Mgc → Mgc) : State := { s with mgc := f s.mgc }

/-! ### Basic effects -/

/-- The device shows something to the outside world. -/
def State.emit (s : State) (o : Out) : State := { s with out := o :: s.out }

/-- A free value: the value that the spec leaves open, and the state that has used it. -/
def State.fresh (s : State) : Nat × State :=
  ((Config.freeValue s.freeCount).toNat, { s with freeCount := s.freeCount + 1 })

/-- An event counted by a telltale counter (R541, R542): `e` is the event number. -/
def State.tally (s : State) (e : Nat) (n : Nat := 1) : State :=
  s.upTtc fun t =>
    if t.programmable then
      { t with counters := t.counters.mapv fun c =>
          if c.event = some e then { c with local_ := (c.local_ + n) % 2 ^ 32 } else c }
    else { t with counts := t.counts.put e ((t.counts.get e 0 + n) % 2 ^ 64) }

/-- Event number of a block's local index (R542). -/
def evt (block index : Nat) : Nat := 256 * block + index

/-- A latched interrupt source is set (R482). -/
def State.latchSrc (s : State) (src : Nat) : State :=
  s.upIcu fun c => { c with sources := c.sources.upd src {} fun x => { x with latch := true } }

/-! ### Instances and what the device writes to their hosts -/

/-- An instance. -/
def State.instance_ (s : State) (i : Nat) : Instance := s.ins.inst.get i {}

/-- The state with an instance changed. -/
def State.upInst (s : State) (i : Nat) (f : Instance → Instance) : State :=
  s.upIns fun n => { n with inst := n.inst.upd i {} f }

/-- "Enabled" as R54, R346 and R409 use it. -/
def State.enabled (s : State) (i : Nat) : Bool := (s.instance_ i).state = .enabled

/-- An instance that has a function (R409). -/
def State.notFree (s : State) (i : Nat) : Bool := (s.instance_ i).state != .free

/-- Metering: an instance's record changed (R549). -/
def State.meter (s : State) (i : Nat) (f : MeterRec → MeterRec) : State :=
  s.upTtc fun t => { t with meters := t.meters.upd i {} f }

/-- Counting against an instance as an ignored doorbell or access (R334, R437). -/
def State.countIgnored (s : State) (i : Nat) : State :=
  s.upMec fun m => { m with inst := m.inst.upd i {} fun e => { e with ignored := e.ignored + 1 } }

/-- An access of the device to an instance's memory: it waits while Bus Master Enable is clear
(R428), and else goes out. -/
def State.access (s : State) (i : Nat) (a : HostAcc) (o : Out) : State :=
  if (s.instance_ i).bmeHeld then s.upInst i fun n => { n with heldAcc := n.heldAcc ++ [a] }
  else s.emit o

/-- The pages of the logged range that a write marks, and whether it touches a page outside (R420,
R421): the offset of the first byte from range_base may be negative. -/
def logPages (l : DirtyLog) (address len : Nat) : List Nat × Bool :=
  let first := address / 4096
  let last := (address + len - 1) / 4096
  let base := l.rangeBase / 4096
  let pages := (List.range (last + 1 - first)).map (· + first)
  let inR := fun p => decide (base ≤ p) && decide (p < base + l.rangePages)
  ((pages.filter inR).map (· - base), pages.any fun p => !inR p)

/-- The dirty-page log of a write of `len` bytes through the instance's function (R420). -/
def markLog (l : DirtyLog) (address len : Nat) : DirtyLog :=
  if l.enabled && decide (0 < len) then
    let (ps, outside) := logPages l address len
    let l := if l.activeB then { l with marksB := ps.foldl addOnce l.marksB }
      else { l with marksA := ps.foldl addOnce l.marksA }
    if outside then { l with outOfRange := l.outOfRange + 1 } else l
  else l

/-- The bits of marked pages in a buffer, by the address of their byte (R10, R421). -/
def logBits (base : Nat) (pages : List Nat) : Tbl Nat :=
  pages.foldl (fun (t : Tbl Nat) p => t.upd (base + p / 8) 0 fun b => b ||| 2 ^ (p % 8)) []

/-- The lines of 64 bytes in which marked pages have their bits (R421, R422), the first marked first. -/
def logLines (pages : List Nat) : List Nat := (pages.reverse.map (· / 512)).dedup.reverse

/-- The lines that the log cache holds (R422). -/
def State.cachedLines (s : State) : Nat :=
  sumOf s.ins.inst fun n => (logLines n.2.log.marksA).length + (logLines n.2.log.marksB).length

/-- The marks of a buffer that `p` picks are ORed into memory and leave the log cache (R422, R423): these writes are not logged. -/
def State.logBack (s : State) (i : Nat) (b : Bool) (p : Nat → Bool) : State :=
  let l := (s.instance_ i).log
  let marks := if b then l.marksB else l.marksA
  let rest := marks.filter fun x => !p x
  let s := s.upInst i fun n => { n with log := if b then { n.log with marksB := rest } else { n.log with marksA := rest } }
  if (marks.filter p).isEmpty then s else s.emit (.logWrite i (logBits (if b then l.baseB else l.baseA) (marks.filter p)))

/-- The log cache holds 4,096 lines (R422). Which line it evicts is not stated: DESIGN CHOICE 167, that of the buffer being marked which
was marked first. -/
def State.evictLines (s : State) (i : Nat) : State :=
  let l := (s.instance_ i).log
  let out := (logLines (if l.activeB then l.marksB else l.marksA)).take (s.cachedLines - 4096)
  s.logBack i l.activeB fun p => out.contains (p / 512)

/-- A write of data to memory of an instance's function, marked in its log (R420). -/
def State.hostWrite (s : State) (i address : Nat) (data : List Nat) : State :=
  ((s.upInst i fun n => { n with log := markLog n.log address data.length }).evictLines i).access i
    (.write address data) (.hostWrite i address data)

/-- A read of memory of an instance's function, named by a tag until it completes (R414). -/
def State.hostRead (s : State) (i address length tag : Nat) : State :=
  (s.upInst i fun n => { n with reads := n.reads ++ [tag] }).access i
    (.read address length tag) (.hostRead i address length tag)

/-- An MSI-X message for an event of an instance (R486). -/
def State.msixSend (s : State) (i vector : Nat) : State :=
  let m := s.msix.get i {}
  let put := fun (m : Msix) => { s with msix := s.msix.put i m }
  if !m.enable || decide ((s.instance_ i).vectors ≤ vector) then put { m with dropped := m.dropped + 1 }
  else
    let v := m.vectors.get vector {}
    if v.pending then s
    else if v.masked || m.functionMask then
      put { m with vectors := m.vectors.put vector { v with pending := true } }
    else s.access i (.msix vector) (.msix i vector)

/-- Entries of a ring in use, from its indexes modulo 65,536 (R333). -/
def ringUsed (producer consumer : Nat) : Nat := modSub 65536 producer consumer

/-- The phase bit of a ring entry: 1 on the first pass, inverted at each wrap (R341, R440). -/
def ringPhase (index log2Size : Nat) : Bool := decide (index / 2 ^ log2Size % 2 = 0)

/-- The instance's event queue (R332): its number. -/
def State.eventQueue (s : State) (i : Nat) : Option (Nat × RecordQueue) :=
  s.mec.eventQ.find? fun e => e.2.inst == i

/-- An event that could not be posted (R344). -/
def State.eventLost (s : State) (i : Nat) : State :=
  s.upMec fun m => { m with inst := m.inst.upd i {} fun e => { e with lost := e.lost + 1, lostFlag := true } }

/-- An event record of 32 bytes (R344). -/
def eventImage (kind detail subject aux data : Nat) (lost phase : Bool) : Nat :=
  packBits [(kind, 8), (detail, 8), (subject, 16), (aux, 32), (data, 128), (0, 62), (b2n lost, 1), (b2n phase, 1)]

/-- An event posted to an instance's event queue (R344). -/
def State.post (s : State) (i kind detail subject aux data : Nat) : State :=
  match s.eventQueue i with
  | none => s.eventLost i
  | some (q, r) =>
    if r.error || decide (2 ^ r.log2Size ≤ ringUsed r.producer r.consumer) then s.eventLost i
    else
      let lost := (s.mec.inst.get i {}).lostFlag
      let phase := ringPhase r.producer r.log2Size
      let s := s.upMec fun m => { m with
        eventQ := m.eventQ.put q { r with producer := (r.producer + 1) % 65536 }
        inst := if lost then m.inst.upd i {} fun e => { e with lostFlag := false } else m.inst }
      let s := s.emit (.event i q r.producer [kind, detail, subject, aux, data, b2n lost])
      let s := s.hostWrite i (r.base + 32 * (r.producer % 2 ^ r.log2Size))
        (bytesLE 32 (eventImage kind detail subject aux data lost phase))
      s.msixSend i r.vector

/-! ### Fault sources (R520 to R532) -/

/-- A source of the source map (R521): its number, default severity, and whether it is a level
source. -/
def faultMap : List (Nat × Nat × Bool) :=
  [(0, 1, false), (1, 1, false), (2, 1, true), (3, 2, false),
   (64, 1, false), (65, 2, false), (66, 2, false), (67, 2, false), (68, 2, false), (69, 5, false),
   (128, 1, false), (129, 5, false), (192, 3, false), (193, 2, false), (194, 2, false),
   (256, 2, false), (257, 3, false), (258, 2, false), (259, 2, false), (260, 2, false),
   (261, 4, false), (262, 3, false), (320, 6, false), (384, 2, false), (385, 2, false),
   (386, 3, false), (576, 2, true), (577, 2, false), (578, 2, false), (704, 2, false)] ++
  [(768, 1, false), (769, 3, false), (770, 2, false), (771, 2, false), (772, 4, false),
   (773, 2, false), (774, 3, false), (832, 1, false), (833, 2, false), (834, 3, false),
   (835, 2, true), (896, 2, false), (897, 3, false), (960, 3, false), (1024, 2, false),
   (1025, 3, false), (1026, 2, false), (1027, 2, false), (1088, 1, false), (1089, 3, false),
   (1152, 3, false), (1216, 2, false), (1217, 1, false), (1218, 2, false)] ++
  [(1344, 1, true), (1345, 1, false), (1346, 3, false), (1408, 2, false), (1409, 3, false),
   (1410, 1, false), (1411, 2, true), (1412, 3, false), (1413, 3, true), (1414, 3, false),
   (1415, 2, true), (1416, 6, false), (1472, 2, false), (1473, 2, true), (1474, 2, false),
   (1475, 2, false), (1664, 3, false), (1728, 3, false), (1729, 3, false)]

/-- The source map names this source; the others are reserved and never fire (R520). -/
def faultKnown (src : Nat) : Bool := faultMap.any fun e => e.1 == src

/-- Default severity (R521); 0 for reserved sources (R539). -/
def faultDefault (src : Nat) : Nat := ((faultMap.find? fun e => e.1 == src).map (·.2.1)).getD 0

/-- A fault source. -/
def State.fault (s : State) (src : Nat) : FaultSrc := s.flt.sources.get src {}

/-- The state with a fault source changed. -/
def State.upFault (s : State) (src : Nat) (f : FaultSrc → FaultSrc) : State :=
  s.upFlt fun x => { x with sources := x.sources.upd src {} f }

/-- Programmed severity (R537, R539). -/
def State.severity (s : State) (src : Nat) : Nat := ((s.fault src).severity).getD (faultDefault src)

/-- The severity that an event takes effect at, from the programmed one and its subject (R524). -/
def effectiveSeverity (sev : Nat) (subj : Subject) : Nat :=
  match sev, subj with
  | 4, .inst i => if i = 0 then 3 else 4
  | 4, .port p => if p ≤ 1 then 3 else 5
  | 4, _ => 3
  | 5, .port p => if p ≤ 1 then 3 else 5
  | 5, .inst i => if i = 0 then 3 else 4
  | 5, _ => 3
  | n, _ => n

/-- A fault raised: everything that R523 says of its severity but the action, and the effective
severity at which the action follows. -/
def State.raiseNote (s : State) (src : Nat) (subj : Subject) : Nat × State :=
  if !faultKnown src then (0, s)
  else
    let e := effectiveSeverity (s.severity src) subj
    if e = 0 then (0, s)
    else
      let s := s.tally (evt 21 e)
      let s := s.upFault src fun f => { f with
        sticky := true, effective := e
        unc := if 2 ≤ e then addOnce f.unc (subj, e) else f.unc }
      if 2 ≤ e then
        let s := s.upFlt fun f => { f with intStatus := setFlag f.intStatus 0 }
        (e, s.msixSend 0 s.flt.vector)
      else (e, s)

/-- A fault raised: the action of its severity is owed, and follows in the same step (R523). -/
def State.raise (s : State) (src : Nat) (subj : Subject := .none) : State :=
  let r := s.raiseNote src subj
  if 3 ≤ r.1 then r.2.upFlt fun f => { f with actions := f.actions ++ [(src, r.1, subj)] } else r.2

/-- The condition of a level source begins to hold: it raises once (R521). -/
def State.raiseLevel (s : State) (src : Nat) (subj : Subject := .none) : State :=
  if (s.fault src).active then s
  else (s.upFault src fun f => { f with active := true }).raise src subj

/-- FAULT_N is held low (R528). -/
def State.faultN (s : State) : Bool := s.flt.sources.any fun e => !e.2.unc.isEmpty

/-- A level source's condition no longer holds (R521). -/
def State.lower (s : State) (src : Nat) : State := s.upFault src fun f => { f with active := false }

end Sys2Proof.Machine
end

