-- ==== Sys2Proof/Machine/Wire.lean ====
section
/-!
DEFINITION. What a packet and a link frame look like on the wire: headers, operation fields and the extension word (R153,
R155, R278, R352, R393), the end-to-end check (R154), flit tags (R198), and the checks of link frames (R200, R201).
Where the spec leaves a point open: DESIGN CHOICE 142; DEDUCED 30, 165 (notes/assumptions).
-/
namespace Sys2Proof.Machine

/-! ### Checks -/

/-- One bit of CRC-16, polynomial 0x1021 (R200). -/
def crc16Bit (c : BitVec 16) (b : Bool) : BitVec 16 :=
  if (c.getLsbD 15) != b then (c <<< 1) ^^^ 0x1021#16 else c <<< 1

/-- CRC-16 with initial value 0xFFFF over the lowest `n` bits of a number, highest bit first (R200). -/
def crc16 (v : Nat) : Nat → BitVec 16 → BitVec 16
  | 0, c => c
  | n + 1, c => crc16 v n (crc16Bit c (v.testBit n))

/-- The CRC-16 of the lowest `n` bits of a number (R200, R201). -/
def crc16Of (v n : Nat) : Nat := (crc16 v n 0xFFFF).toNat

/-- A link head's head_crc holds (R200). -/
def headOk (head : BitVec 128) : Bool := crc16Of head.toNat 112 == bitsOf head.toNat 127 112

/-- A link control flit's crc holds (R201). -/
def flitOk (flit : BitVec 512) : Bool := crc16Of flit.toNat 496 == bitsOf flit.toNat 511 496

/-- One bit of CRC-64 with the ECMA-182 polynomial (R154). -/
def crc64Bit (c : Nat) (b : Bool) : Nat :=
  let t := 2 * c % 2 ^ 64
  if c.testBit 63 != b then t ^^^ 0x42F0E1EBA9EA3693 else t

/-- CRC-64 over bytes, initial value and final XOR all ones (R154): each byte's highest bit first, DESIGN CHOICE 142. -/
def crc64 (bytes : List Nat) : Nat :=
  bytes.foldl (fun c b => (List.range 8).foldl (fun c i => crc64Bit c (b.testBit (7 - i))) c) (2 ^ 64 - 1) ^^^ (2 ^ 64 - 1)

/-- One bit of the CRC-32 of IEEE 802.3, which takes each byte's lowest bit first (R200). -/
def crc32Bit (c : Nat) (b : Bool) : Nat := if c.testBit 0 != b then (c / 2) ^^^ 0xEDB88320 else c / 2

/-- CRC-32 of the IEEE 802.3 polynomial over bytes (R200). -/
def crc32 (bytes : List Nat) : Nat :=
  bytes.foldl (fun c b => (List.range 8).foldl (fun c i => crc32Bit c (b.testBit i)) c) (2 ^ 32 - 1) ^^^ (2 ^ 32 - 1)

/-! ### Packets (R153 to R155) -/

/-- A control packet that carries the extension word (R155): it is flagged or non-minimal. -/
def hasExt (h : Hdr) : Bool := !h.data && (h.flagged || h.nonminimal)

/-- The bytes of a packet by its header (R153 to R155): header and check take 64 bytes of a data packet, and a control packet
has 16 bytes of header and its extension word. -/
def pktLen (h : Hdr) : Nat := if h.data then 64 + h.payloadLength else 16 + 4 * b2n (hasExt h) + h.payloadLength

/-- The bytes of a packet of `len` bytes whose header changes from `h` to `h'` (R155): the extension word comes or goes. -/
def lenAs (len : Nat) (h h' : Hdr) : Nat := len + 4 * b2n (hasExt h') - 4 * b2n (hasExt h)

/-- Header bits [127:0] (R153). -/
def headerBits (h : Hdr) : List (Nat × Nat) :=
  [(h.destDevice, 16), (h.destEndpoint, 4), (h.srcDevice, 16), (h.inst, 10), (h.sl, 3), (b2n h.response, 1), (b2n h.flagged, 1),
    (h.colour, 2), (b2n h.mark, 1), (b2n h.late, 1), (h.epoch, 2), (b2n h.data, 1), (b2n h.multicast, 1), (b2n h.nonminimal, 1),
    (b2n (hasExt h), 1), (b2n h.ordSeg, 1), (0, 2), (h.opcode, 8), (h.seq, 24), (h.deadline, 32)]

/-- Widths of the fields that a packet carries for its opcode, in their order from the lowest bit: the operation fields of
engines, windows and collectives (R278, R352, R393), and the payload of transport control, of MC_ACK and of the one-hop packets
(R188, R227, R466). -/
def fieldWidths (opcode : Nat) : List Nat :=
  if opcode ≤ 0x04 then [16, 4, 16, 16, 36]
  else if opcode ≤ 0x06 then [16, 4, 10, 20, 16, 14, 8]
  else if opcode = 0x07 then [16, 4, 16, 4, 32, 16]
  else if opcode < 0x40 then [16, 4, 8, 36, 24]
  else if opcode < 0x60 then [12, 16, 40, 13, 1, 14]
  else if opcode < 0x80 then [12, 16, 20, 1, 15, 8, 16]
  else if opcode = 0x80 then [24, 8, 8, 8, 8, 8, 8, 8, 8, 16, 4, 4]
  else if opcode = 0x81 then [24, 8]
  else if opcode < 0xA0 then [24]
  else if opcode = 0xA0 then [16, 16]
  else if opcode = 0xC3 then [16, 48, 64]
  else if opcode = 0xC4 then [16, 8, 40, 64, 64]
  else if opcode = 0xC5 then [64, 8]
  else []

/-- Bytes of a packet's fields. -/
def fieldBytes (opcode : Nat) : Nat := (fieldWidths opcode).foldl (· + ·) 0 / 8

/-- A packet's fields as one number. -/
def fieldBits (p : Packet) : Nat := packBits (p.fields.zip (fieldWidths p.hdr.opcode))

/-- The bytes of a packet's header, without its extension word (R153): 32 of a data packet, its operation fields among them, and
16 of a control packet. -/
def headerBytes (p : Packet) (h : Hdr) : List Nat :=
  if h.data then
    bytesLE 32 (packBits (headerBits h ++ [(h.orderingCount, 16), (h.interGroup, 10), (h.payloadLength, 13), (0, 1), (fieldBits p, 88)]))
  else bytesLE 16 (packBits (headerBits h))

/-- The payload of a data packet, of as many bytes as its header says (R153). -/
def dataPayload (p : Packet) : List Nat := p.payload.take p.hdr.payloadLength ++ List.replicate (p.hdr.payloadLength - p.payload.length) 0

/-- The crc of a data packet's end-to-end check (R154): congestion_mark, late and route_epoch count as 0. -/
def pktCheck (p : Packet) : Nat :=
  crc64 (headerBytes p { p.hdr with mark := false, late := false, epoch := 0 } ++ dataPayload p)

/-- The bytes of a packet (R153 to R155, R352). -/
def pktBytes (p : Packet) : List Nat :=
  if p.hdr.data then headerBytes p p.hdr ++ dataPayload p ++ bytesLE 32 (pktCheck p)
  else
    headerBytes p p.hdr ++ (if hasExt p.hdr then bytesLE 4 (packBits [(p.hdr.orderingCount, 16), (p.hdr.interGroup, 10)]) else []) ++
      bytesLE (min p.hdr.payloadLength (fieldBytes p.hdr.opcode)) (fieldBits p) ++ p.payload

/-- The packet that bytes spell (R153, R155, R352), under a name of the model's. -/
def readPkt (pid : Nat) (bytes : List Nat) : Packet :=
  match unpackBits ((headerBits {}).map (·.2)) (ofBytesLE (bytes.take 16)) with
  | [dest, endpoint, src, inst, sl, response, flagged, colour, mark, late, epoch, data, multicast, nonminimal, ext, ordSeg, _,
      opcode, seq, deadline] =>
    let hdr : Hdr := {
      destDevice := dest, destEndpoint := endpoint, srcDevice := src, inst, sl, response := response == 1, flagged := flagged == 1
      colour, mark := mark == 1, late := late == 1, epoch, data := data == 1, multicast := multicast == 1
      nonminimal := nonminimal == 1, ordSeg := ordSeg == 1, opcode, seq, deadline }
    let cut := fun (b : List Nat) => (unpackBits (fieldWidths opcode) (ofBytesLE (b.take (fieldBytes opcode))))
    if data = 1 then
      match unpackBits [16, 10, 13, 1, 88] (ofBytesLE ((bytes.drop 16).take 16)) with
      | [orderingCount, interGroup, payloadLength, _, op] =>
        { pid, hdr := { hdr with orderingCount, interGroup, payloadLength }, fields := unpackBits (fieldWidths opcode) op
          payload := (bytes.drop 32).take payloadLength }
      | _ => { pid, hdr }
    else
      let body := bytes.drop (16 + 4 * ext)
      let word := if ext = 1 then ofBytesLE ((bytes.drop 16).take 4) else 0
      { pid, hdr := { hdr with orderingCount := bitsOf word 15 0, interGroup := bitsOf word 25 16, payloadLength := body.length }
        fields := cut body, payload := body.drop (fieldBytes opcode) }
  | _ => { pid, hdr := {} }

/-! ### Messages of the management lane (R192, R461) -/

/-- The directed-route extension, 24 bytes (R192). -/
def routeExtension (hopCount hopPtr : Nat) (outPorts retPorts : List Nat) : List Nat :=
  let slots := fun (l : List Nat) => (List.range 15).map fun i => ((l.getD i 0, 5) : Nat × Nat)
  bytesLE 24 (packBits ([(hopCount, 4), (hopPtr, 4)] ++ slots outPorts ++ slots retPorts))

/-- The in-band prefix, 32 bytes (R461): kind 1 of a command, 2 of a reply. -/
def inbandPrefix (kind index count queue seq length serial attempt : Nat) : List Nat :=
  bytesLE 32 (packBits [(kind, 8), (index, 8), (count, 8), (queue, 3), (0, 5), (seq, 16), (length, 16), (serial, 64), (attempt, 8)])

/-- A message's segments of up to 384 bytes (R461). -/
def segments (message : List Nat) : List (List Nat) :=
  (List.range (ceilDiv message.length 384)).map fun i => (message.drop (384 * i)).take 384

/-! ### Flits (R198 to R201) -/

/-- A flit's tag (R198). -/
structure Tag where
  /-- 0 continuation, 1 frame start, 2 link control flit, 3 idle. -/
  kind : Nat
  vl : Nat
  last : Bool
  abort : Bool
deriving DecidableEq, Repr

/-- The eight sync headers of a flit, block 0 in the lowest two bits: header 0b01 carries 0 and 0b10 carries 1 (R198). -/
def syncOf (tag : Nat) : BitVec 16 := BitVec.ofNat 16 (packBits ((List.range 8).map fun i => (if tag.testBit i then 2 else 1, 2)))

/-- The tag that sync headers carry, none where a header or the parity is bad (R198). -/
def readTag (sync : BitVec 16) : Option Tag :=
  let pairs := (List.range 8).map fun i => bitsOf sync.toNat (2 * i + 1) (2 * i)
  if (pairs.any fun b => b = 0 || b = 3) || pairs.countP (· = 2) % 2 = 0 then none
  else
    let n := packBits (pairs.map fun b => (b - 1, 1))
    some { kind := bitsOf n 1 0, vl := bitsOf n 4 2, last := n.testBit 5, abort := n.testBit 6 }

/-- The bits of a tag, with its parity (R198). -/
def tagBits (t : Tag) : Nat :=
  let n := packBits [(t.kind, 2), (t.vl, 3), (b2n t.last, 1), (b2n t.abort, 1)]
  n + 128 * (1 - ((List.range 7).countP fun i => n.testBit i) % 2)

/-- The tags of a frame's flits (R198): a start, then continuations, the last of which ends the frame. -/
def frameTags (vl flits : Nat) (abort : Bool) : List (BitVec 16) :=
  (List.range flits).map fun i =>
    let last := decide (i + 1 = flits)
    syncOf (tagBits { kind := if i = 0 then 1 else 0, vl, last, abort := abort && last })

/-- A link head but for its head_crc (R200): credit reports are a VL and its count. -/
def headBits (seq : Nat) (ack : Option Nat) (vl flits : Nat) (credits : List (Nat × Nat)) : Nat :=
  let a := credits.getD 0 (0, 0)
  let b := credits.getD 1 (0, 0)
  packBits [(seq, 16), (ack.getD 0, 16), (b2n ack.isSome, 1), (vl, 3), (flits, 7), (a.1, 3), (a.2, 14), (b.1, 3), (b.2, 14),
    (b2n (decide (0 < credits.length)), 1), (b2n (decide (1 < credits.length)), 1)]

/-- A link head (R200). -/
def linkHead (seq : Nat) (ack : Option Nat) (vl flits : Nat) (credits : List (Nat × Nat)) : BitVec 128 :=
  let n := headBits seq ack vl flits credits
  BitVec.ofNat 128 (n + 2 ^ 112 * crc16Of n 112)

/-- A link control flit (R201). -/
def controlFlit (subtype ack : Nat) (counts : List Nat) : BitVec 512 :=
  let n := packBits ([(subtype, 4), (ack, 16), (1, 1)] ++ counts.map fun c => (c, 14))
  BitVec.ofNat 512 (n + 2 ^ 496 * crc16Of n 496)

end Sys2Proof.Machine
end

