-- ==== Sys2Proof/Machine/Buffer.lean ====
section
/-!
DEFINITION. The output buffer: accounts and pools (R106 to R112), cells and their tags (R114, R115),
queues (R129, R130), buffer admission (R110) and the freeing of packets.
Where the spec leaves a point open: DESIGN CHOICE 27; DEDUCED 29 (notes/assumptions).
-/
namespace Sys2Proof.Machine

/-! ### Ports -/

/-- A port. -/
def State.port (s : State) (p : Nat) : Port :=
  s.prt.ports.get p (if p = 0 then { mode := 2, width := 4, maxRate := 11, pairLead := true }
    else if p = 1 then { mode := 2, width := 4, maxRate := 11 } else {})

/-- The state with a port changed. -/
def State.upPort (s : State) (p : Nat) (f : Port → Port) : State :=
  s.upPrt fun t => { t with ports := t.ports.put p (f (s.port p)) }

/-- The port is in native mode (R260). -/
def State.isNative (s : State) (p : Nat) : Bool := (s.port p).mode = 1

/-- A packet at this output is forwarded to another device, and not delivered here: the output is a native port (R51). -/
def State.forwards (s : State) (o : Nat) : Bool := decide (o < 32) && s.isNative o

/-! ### Colours and accounts -/

/-- A packet is green (R58). -/
def isGreen (h : Hdr) : Bool := h.colour = 1 && h.sl ≠ 7

/-- A packet travels on VL6 (R169). -/
def isMgmt (h : Hdr) : Bool := h.sl = 7

/-- A packet belongs to an ordering stream, which transport sequences (R178, R197). -/
def inStream (h : Hdr) : Bool := !h.multicast && decide (h.opcode < 0x80) && !isMgmt h

/-- A packet is served as yellow (R58). -/
def isYellow (h : Hdr) : Bool := !isGreen h && !isMgmt h

/-- The class of a VL at a local output (R94). -/
def vlClass (vl : Nat) : Nat := if vl ≤ 2 then 0 else if vl ≤ 5 then 1 else 2

/-- The buffer account of an output and VL (R94). -/
def accountOf (output vl : Nat) : Nat :=
  if output < 32 then 7 * output + vl else 224 + 3 * (output - 32) + vlClass vl

/-- The cells of a packet of `len` bytes (R95). -/
def cellsOf (len : Nat) : Nat := ceilDiv len 256

/-- A buffer account. -/
def State.account (s : State) (a : Nat) : Account := s.obf.accounts.get a {}

/-- The state with a buffer account changed. -/
def State.upAccount (s : State) (a : Nat) (f : Account → Account) : State :=
  s.upObf fun b => { b with accounts := b.accounts.upd a {} f }

/-- Σ min_reserve over the 236 accounts. -/
def Obf.sumReserve (b : Obf) : Nat := sumOf (List.range 236) fun a => (b.accounts.get a {}).minReserve

/-- The contract-pool cells that reservations and contracts hold (R108). -/
def State.poolReserved (s : State) : Nat :=
  sumOf s.adm.contracts (fun c => c.2.share) + sumOf s.adm.resvs (fun r => r.2.share)

/-- The shared pool's size (R106). -/
def State.sharedSize (s : State) : Nat := 1048576 - s.obf.sumReserve - s.obf.poolSize

/-- An account's free part of its minimum reserve. -/
def Account.reserveFree (a : Account) : Nat := a.minReserve - a.fromReserve

/-- An account's shared use: cells from the shared pool, and cells beyond its minimum reserve (R123). -/
def Account.sharedUse (a : Account) : Nat := a.fromShared + (a.fromReserve - a.minReserve)

/-- Free cells of the shared pool. -/
def State.sharedFree (s : State) : Nat :=
  s.sharedSize - (sumOf s.obf.accounts fun a => a.2.sharedUse) - s.obf.strayShared

/-- floor(alpha × n) (R110). -/
def alphaOf (exp : Int) (n : Nat) : Nat :=
  if 0 ≤ exp then n * 2 ^ exp.toNat else n / 2 ^ (-exp).toNat

/-- Cells queued on an account. -/
def State.queuedOn (s : State) (a : Nat) : Nat :=
  sumOf (s.obf.pkts.filter fun p => p.account == a) fun p => p.cells.length

/-! ### Reservations that a packet matches (R51) -/

/-- The reservations that match a green packet here: key and role (R51). -/
def State.matchingResvs (s : State) (h : Hdr) (delivered : Bool) : List (Nat × Resv) :=
  s.adm.resvs.filter fun r =>
    r.2.p.srcDevice == h.srcDevice && r.2.p.inst == h.inst && r.2.p.sl == h.sl && r.2.p.destination == delivered

/-- A set of egress ports lists a port. -/
def lists (ports port : Nat) : Bool := ports.testBit port

/-- The packet's destination lies in the contract's destination set (R48, R52). -/
def destIn (c : ContractP) (h : Hdr) : Bool :=
  match c.destType with
  | 0 => !h.multicast && c.dest == [h.destDevice]
  | 1 => !h.multicast && c.dest == [h.destDevice / 64]
  | 2 => h.multicast && c.dest == [h.destDevice]
  | _ => !h.multicast && (c.dest.filter (· ≠ 0xFFFF)).contains h.destDevice

/-- The header under which a packet is policed and looked for among the contracts: that of the local instance as whose
traffic it is built, where that is not its header's (R350, R394). -/
def polAs (h : Hdr) (own : Option Nat) : Hdr := { h with inst := own.getD h.inst }

/-- The contract that a packet matches at its source device (R52). -/
def State.contractFor (s : State) (h : Hdr) : Option (Nat × Contract) :=
  s.adm.contracts.find? fun c => c.2.p.inst == h.inst && c.2.p.sl == h.sl && destIn c.2.p h

/-- The account of its own that a green packet is charged to at an output: the contract's at the
source device, else the lowest matching reservation that lists the port and has a free cell, else
the lowest that lists it (R51); at an output that delivers it here, the destination's. -/
def State.chargeOf (s : State) (w : WaitPkt) (output : Nat) : Charge :=
  if !isGreen w.pkt.hdr then .none
  else
    let out := s.forwards output
    let own := if w.fromLocal then
        (s.contractFor (polAs w.pkt.hdr w.own)).filter fun c => out && lists c.2.p.egressPorts output
      else none
    match own with
    | some c => .contract c.1
    | none =>
      let rs := (s.matchingResvs w.pkt.hdr (!out)).filter fun r => !out || lists r.2.p.egressPorts output
      match rs.find? (fun r => decide (r.2.used < r.2.share)), rs with
      | some r, _ => .resv r.1
      | none, r :: _ => .resv r.1
      | none, [] => .none

/-- A green packet matches a reservation of its own here: its contract's at the source, or one with its key and the
role that fits, whatever ports that lists (R51). -/
def State.reservedHere (s : State) (w : WaitPkt) (output : Nat) : Bool :=
  (w.fromLocal && s.forwards output && (s.contractFor (polAs w.pkt.hdr w.own)).isSome) ||
    !(s.matchingResvs w.pkt.hdr (!s.forwards output)).isEmpty

/-- Free cells of a contract's or reservation's own account. -/
def State.chargeFree (s : State) : Charge → Nat
  | .none => 0
  | .contract c => ((s.adm.contracts.find c).map fun x => x.share - x.used).getD 0
  | .resv r => ((s.adm.resvs.find r).map fun x => x.share - x.used).getD 0

/-- Cells charged to, or returned to, a contract's or reservation's account. -/
def State.charge (s : State) (c : Charge) (f : Nat → Nat) : State :=
  match c with
  | .none => s
  | .contract i => match s.adm.contracts.find i with
    | none => s
    | some x => s.upAdm fun a => { a with contracts := a.contracts.put i { x with used := f x.used } }
  | .resv i => match s.adm.resvs.find i with
    | none => s
    | some x => s.upAdm fun a => { a with resvs := a.resvs.put i { x with used := f x.used } }

/-! ### Queues and cells -/

/-- A queue number is assigned (R129). -/
def State.queueAssigned (s : State) (q : Nat) : Bool :=
  decide (q < 36) || (decide (0x40 ≤ q) && decide (q < 0x40 + 36)) ||
    (decide (0x80 ≤ q) && decide (q < 0x80 + 36)) || (decide (0x100 ≤ q) && decide (q ≤ 0x5EB)) ||
    (decide (0x800 ≤ q) && s.egs.leaves.has q)

/-- The leaf bound to an output, service level and instance that still takes packets (R130, R149). -/
def State.leafFor (s : State) (output sl inst : Nat) : Option Nat :=
  (s.egs.leaves.find? fun l =>
    l.2.output == output && l.2.sl == sl && l.2.inst == inst && !l.2.unbinding).map (·.1)

/-- The local instance whose traffic a packet built or taken in here is (R130): the one it was policed as, or a
request's own; none for a response that serves no local instance. -/
def localInst (h : Hdr) (own : Option Nat) : Option Nat :=
  own.orElse fun _ => if h.response then none else some h.inst

/-- The queue that a packet joins at an output (R129, R130). -/
def State.queueFor (s : State) (h : Hdr) (input output : Nat) (fromLocal : Bool) (own : Option Nat) : Nat :=
  if isMgmt h then 0x40 + output
  else if isGreen h then output
  else if fromLocal then
    ((localInst h own).bind fun i => s.leafFor output h.sl i).getD (0x100 + 35 * output + 5 * h.sl + 4)
  else 0x100 + 35 * output + 5 * h.sl + min (input / 8) 3

/-- A queue holds a packet. -/
def State.queueBusy (s : State) (q : Nat) : Bool := s.obf.pkts.any fun p => p.queue == q

/-- The lowest `n` cells that no tag lists, from index `k` up. -/
def lowestFree : List (Nat × CellTag) → Nat → Nat → List Nat
  | [], k, n => (List.range n).map (· + k)
  | (j, _) :: t, k, n =>
    if n ≤ j - k then (List.range n).map (· + k)
    else (List.range (j - k)).map (· + k) ++ lowestFree t (j + 1) (n - (j - k))

/-- The free cells that a packet takes: cells missing from the free list are not taken (R116). -/
def Obf.takeCells (b : Obf) (n : Nat) : List Nat :=
  lowestFree (b.unlisted.foldl (fun (t : Tbl CellTag) c => t.put c {}) b.cells) 0 n

/-- Tags of a packet's cells at its admission: reserved, chained, the first marked (R114). -/
def tagCells (cells : List Nat) (owner epoch routedAt now : Nat) (overdue : Bool) (first : Bool) :
    List (Nat × CellTag) :=
  match cells with
  | [] => []
  | c :: t =>
    (c, { next := t.head?.getD 0xFFFFF, owner, epoch, state := .reserved, first
          allocTime := if first then routedAt else now
          overdue := first && overdue }) :: tagCells t owner epoch routedAt now overdue false

/-- The state with a cell's tag changed. -/
def State.upCell (s : State) (c : Nat) (f : CellTag → CellTag) : State :=
  s.upObf fun b => match b.cells.find c with
    | none => b
    | some t => { b with cells := b.cells.put c (f t) }

/-- The epoch of a queue advances when it has become empty (R115). -/
def State.settleQueue (s : State) (q : Nat) : State :=
  if s.queueBusy q then s
  else s.upObf fun b => { b with epochs := b.epochs.upd q 0 fun e => (e + 1) % 256 }

/-- The residency clock's reading less a stamp, modulo 2^24 (R115, R116). -/
def State.age (s : State) (stamp : Nat) : Nat := modSub (2 ^ 24) s.obf.residency stamp

/-- A stamp is older than a residency limit in ms (R116): the clock advances every 1.024 us. -/
def State.overLimit (s : State) (stamp ms : Nat) : Bool := decide (ms * 1000000 < s.age stamp * 1024)

/-- The signed difference deadline − now of R75, in units of 1/16 ns. -/
def State.slack (s : State) (deadline : Nat) : Int :=
  (BitVec.ofNat 32 deadline - BitVec.ofNat 32 s.ftu.time).toInt

/-- The device is Synchronised (R71). -/
def State.synced (s : State) : Bool := s.ftu.sync = .synchronised

/-- The deadline of a green packet whose late bit is clear has passed (R75). -/
def State.pastDue (s : State) (h : Hdr) : Bool :=
  isGreen h && !h.late && decide (s.slack h.deadline < 0)

/-! ### Admission and freeing -/

/-- What admission takes from each part for `n` cells, or nothing (R110). -/
def State.takes (s : State) (green : Bool) (c : Charge) (a n : Nat) : Option (Nat × Nat × Nat) :=
  let takeR := if green then min n (s.chargeFree c) else 0
  let acc := s.account a
  let takeM := min (n - takeR) acc.reserveFree
  let need := n - takeR - takeM
  if need = 0 then some (takeR, takeM, 0)
  else if need ≤ s.sharedFree && decide (acc.sharedUse + need ≤ alphaOf acc.alphaExp s.sharedFree) then
    some (takeR, takeM, need)
  else none

/-- A waiting packet admitted to an output on a VL, or not (R110, R112, R118). -/
def State.takeIn (s : State) (w : WaitPkt) (output vl : Nat) : Option State :=
  let h := w.pkt.hdr
  let n := cellsOf w.len
  let a := accountOf output vl
  let c := s.chargeOf w output
  match s.takes (isGreen h) c a n with
  | none => none
  | some (r, m, sh) =>
    let q := s.queueFor h w.input output w.fromLocal w.own
    let cells := s.obf.takeCells n
    let overdue := s.overLimit w.routedAt s.obf.audit.residencyMs && s.pastDue h
    let tags := tagCells cells q (s.obf.epochs.get q 0) w.routedAt s.obf.residency overdue true
    let s := s.charge c (· + r)
    let s := s.upAccount a fun x => { x with fromReserve := x.fromReserve + m, fromShared := x.fromShared + sh }
    some (s.upObf fun b => { b with
      cells := tags.foldl (fun (t : Tbl CellTag) e => t.put e.1 e.2) b.cells
      pkts := b.pkts ++ [{ pkt := w.pkt, len := w.len, input := w.input, rxVl := w.rxVl, output, vl, queue := q
                           account := a, charge := c, takeR := r, takeM := m, takeS := sh, cells
                           routedAt := w.routedAt, sequenced := w.sequenced, fromLocal := w.fromLocal
                           unreserved := isGreen h && !s.reservedHere w output, no := w.no, flits := w.flits }] })

/-- The cells of a buffered packet go back to the parts they were taken from, and its queue settles
(R110, R115). -/
def State.freePkt (s : State) (p : BufPkt) : State :=
  let s := if p.stray then s.upObf fun b => { b with strayShared := b.strayShared - p.takeR }
    else s.charge p.charge (· - p.takeR)
  let s := s.upAccount p.account fun x => { x with
    fromReserve := x.fromReserve - p.takeM, fromShared := x.fromShared - p.takeS }
  let s := s.upObf fun b => { b with
    cells := p.cells.foldl Tbl.del b.cells
    pkts := b.pkts.filter fun x => !(x.pkt.pid == p.pkt.pid && x.output == p.output) }
  s.settleQueue p.queue

/-- A buffered packet by its name and output. -/
def State.bufPkt (s : State) (pid output : Nat) : Option BufPkt :=
  s.obf.pkts.find? fun p => p.pkt.pid == pid && p.output == output

/-- The state with a buffered packet changed. -/
def State.upBufPkt (s : State) (pid output : Nat) (f : BufPkt → BufPkt) : State :=
  s.upObf fun b => { b with pkts := updFirst (fun p => p.pkt.pid == pid && p.output == output) f b.pkts }

/-- The cells that a removed contract or reservation still holds count as shared use until freed (R125): its number
may be given again, and they never go to the new account. -/
def State.strand (s : State) (c : Charge) : State :=
  s.upObf fun b => { b with
    strayShared := b.strayShared + sumOf (b.pkts.filter fun p => p.charge == c && !p.stray) (·.takeR)
    pkts := b.pkts.map fun p => if p.charge == c then { p with stray := true } else p }

/-- Packets of an epoch that are present in the device (R173), each counted once: looked up and waiting, a route found or
not; buffered; or in a replay buffer after its last cell has left. -/
def State.present (s : State) (epoch : Nat) : Nat :=
  let waits := (s.obf.waiting.filter fun w => !w.edgeWait && w.pkt.hdr.epoch == epoch).map (·.pkt.pid)
  let held := (s.obf.pkts.filter fun p => p.pkt.hdr.epoch == epoch).map (·.pkt.pid)
  let sent := s.lnk.ports.flatMap fun l => (l.2.replay.filter fun f => f.pkt.hdr.epoch == epoch).map (·.pkt.pid)
  (waits ++ held ++ sent).dedup.length

/-- The bank that is old, by its tag (R161). -/
def State.oldTag (s : State) : Option Nat :=
  if s.rte.bank0.state = .old then some s.rte.bank0.tag
  else if s.rte.bank1.state = .old then some s.rte.bank1.tag else none

/-- The old count (R173). -/
def State.oldCount (s : State) : Nat := (s.oldTag.map s.present).getD 0

/-- old_drained is set when the old count has reached 0 (R173). -/
def State.settleOld (s : State) (before : Nat) : State :=
  if decide (0 < before) && s.oldCount = 0 then s.upRte fun r => { r with intStatus := setFlag r.intStatus 1 } else s

end Sys2Proof.Machine
end

