-- ==== Sys2Proof/Machine/Protect.lean ====
section
/-!
DEFINITION. Memory protection: the check of R473, the violation queue (R475), and the interrupt
controller's pending sources, routing and claims (R482 to R485).
-/
namespace Sys2Proof.Machine

/-- Implemented masters (R470). -/
def masterExists (m : Nat) : Bool :=
  decide (m ≤ 148) || (decide (152 ≤ m) && decide (m ≤ 156)) || m == 160

/-- A master's protection unit. -/
def State.master (s : State) (m : Nat) : Master := s.mpu.masters.get m {}

/-- The state with a master's unit changed. -/
def State.upMaster (s : State) (m : Nat) (f : Master → Master) : State :=
  s.upMpu fun u => { u with masters := u.masters.upd m {} f }

/-- The active set of a master (R471). -/
def Master.active (m : Master) : Tbl MpuRegion := if m.activeB then m.setB else m.setA

/-- Bit `3 v + k` of perm: kind `k` (0 read, 1 write, 2 execute) at privilege `v` (R472). -/
def permits (r : MpuRegion) (priv kind : Nat) : Bool := r.perm.getLsbD (3 * priv + kind)

/-- A valid entry covers a page of a space; in space 0, of the function that the entry names (R472). -/
def State.covers (s : State) (r : MpuRegion) (space page inst : Nat) : Bool :=
  r.valid && r.space == space && decide (r.basePage ≤ page) && decide (page < r.basePage + r.pages) &&
    (space ≠ 0 || r.ownFunction ||
      (r.link == (s.instance_ inst).port && r.function == (s.instance_ inst).function))

/-- The first refusal of R473 on one page: none, or the region as R473 numbers it. -/
def State.pageRefusal (s : State) (a : MpuAccess) (page : Nat) : Option Nat :=
  let lock := s.mpu.locks.filter fun e => s.covers e.2 a.space page a.inst
  let regions := (s.master a.master).active.filter fun e => s.covers e.2 a.space page a.inst
  match lock with
  | (j, _) :: _ =>
    if a.master = 160 && !(!Config.production && s.mpu.unlocked) then some (64 + j)
    else
      let cover : Tbl MpuRegion := regions ++ lock.map fun (e : Nat × MpuRegion) => (64 + e.1, e.2)
      (cover.find? fun e => !permits e.2 a.privilege a.kind).map (·.1)
  | [] =>
    if regions.isEmpty then some 0x7F
    else (regions.find? fun e => !permits e.2 a.privilege a.kind).map (·.1)

/-- The refusal of an access and the page it falls on: the first page that refuses (R473). -/
def State.mpuRefusal (s : State) (a : MpuAccess) : Option (Nat × Nat) :=
  (List.range a.pageCount).findSome? fun i => (s.pageRefusal a (a.address / 4096 + i)).map fun r => (r, a.address / 4096 + i)

/-- The violation record of a refusal (R475): the record is queued, or lost when the queue is full. Its address is the first byte
that is refused. -/
def State.violate (s : State) (a : MpuAccess) (region page : Nat) : State :=
  if s.mpu.viol.length < 16 then
    s.upMpu fun u => { u with
      viol := u.viol ++ [{ address := max a.address (4096 * page), kind := a.kind, privilege := a.privilege, master := a.master
                           space := a.space, setB := (s.master a.master).activeB, region }]
      intStatus := setFlag u.intStatus 0 }
  else
    (s.upMpu fun u => { u with lost := satAdd 16 u.lost 1, intStatus := setFlag u.intStatus 2 }).raise 1217

/-- The fault of a violation record and its subject (R475, R522). -/
def State.noteViolation (s : State) (a : MpuAccess) (region : Nat) : State :=
  let s := if a.master = 160 then s.upMpu fun u => { u with debugError := true } else s
  if a.master = 160 && decide (64 ≤ region) && decide (region < 80) then
    (s.upMpu fun u => { u with intStatus := setFlag u.intStatus 1 }).raise 1218
  else s.raise 1216 (if a.privilege = 0 then .inst a.inst else .none)

/-! ### The interrupt controller -/

/-- A status register raises its block's source (R482). -/
def raised {n : Nat} (status enable : BitVec n) : Bool := status &&& enable != 0

/-- A starvation flag of an arbiter resource raises its block's source (R152, R482). -/
def State.starving (s : State) (resource : Nat) : Bool :=
  s.arbs.intEnable.getLsbD resource &&
    s.arbs.arb.any fun e => e.1 / 256 == resource && e.2.starved != 0

/-- The block sources 0 to 27 (R483). -/
def State.blockSource (s : State) (n : Nat) : Bool :=
  match n with
  | 0 => raised s.prt.lneStatus s.prt.lneEnable
  | 1 => raised s.prt.intStatus s.prt.intEnable
  | 2 => raised s.lnk.intStatus s.lnk.intEnable
  | 3 => raised s.trn.intStatus s.trn.intEnable
  | 4 => raised s.rte.intStatus s.rte.intEnable
  | 6 => raised s.obf.intStatus s.obf.intEnable
  | 8 => raised s.egs.intStatus s.egs.intEnable || s.starving 0
  | 9 => raised s.adm.intStatus s.adm.intEnable
  | 12 => raised s.dir.intStatus s.dir.intEnable || s.starving 2
  | 13 => s.starving 1
  | 14 => raised s.mec.intStatus s.mec.intEnable || s.starving 3
  | 15 => raised s.mtc.intStatus s.mtc.intEnable
  | 16 => raised s.rdx.intStatus s.rdx.intEnable
  | 17 => raised s.ins.intStatus s.ins.intEnable
  | 18 => raised s.hly.intStatus s.hly.intEnable
  | 19 => raised s.mpu.intStatus s.mpu.intEnable
  | 21 => raised s.flt.intStatus s.flt.intEnable
  | 22 => raised s.pwr.intStatus s.pwr.intEnable
  | 23 => raised s.pwr.sltStatus s.pwr.sltEnable
  | 24 => raised s.ttc.intStatus s.ttc.intEnable
  | _ => false

/-- An uncleared fault of a severity (R483). -/
def State.unclearedAt (s : State) (sev : Nat) : Bool :=
  s.flt.sources.any fun e => e.2.unc.any fun u => u.2 == sev

/-- A latched source (R483). -/
def latchedSource (n : Nat) : Bool :=
  (decide (32 ≤ n) && decide (n ≤ 36)) || (decide (64 ≤ n) && decide (n ≤ 201)) ||
    (decide (512 ≤ n) && decide (n ≤ 543)) || (decide (1024 ≤ n) && decide (n < 2048))

/-- A source is pending (R482, R483). -/
def State.pendingSrc (s : State) (n : Nat) : Bool :=
  if n < 28 then s.blockSource n
  else if latchedSource n then (s.icu.sources.get n {}).latch
  else if 258 ≤ n ∧ n ≤ 262 then s.unclearedAt (n - 256)
  else false

/-- A core's running priority (R484). -/
def State.running (s : State) (c : Nat) : Nat :=
  let k := s.icu.cores.get c {}
  k.claims.foldl (fun p src => max p (s.icu.sources.get src {}).priority) k.threshold

/-- The core numbers that receive sources: 0 to 3, of which the spare core may have taken one (R470,
R484). -/
def State.coreTakes (s : State) (c : Nat) : Bool :=
  decide (c < 4) && (!s.mgc.coresFailed.contains c || s.icu.spareFor == some c)

/-- The core that a pending, unclaimed source is routed to (R484). -/
def State.routeSrc (s : State) (n : Nat) : Option Nat :=
  let x := s.icu.sources.get n {}
  if x.priority = 0 || x.claimed.isSome || !s.pendingSrc n then none
  else
    let el := (List.range 4).filter fun c =>
      s.coreTakes c && x.mask.getLsbD c && decide (s.running c < x.priority)
    el.foldl (fun best c => match best with
      | none => some c
      | some b => if s.running c < s.running b then some c else some b) none

/-- The source that a claim by core `c` returns: the routed one of highest priority, the lower number
on a tie (R485). Sources without an entry have priority 0 and are never routed. -/
def State.claimable (s : State) (c : Nat) : Option Nat :=
  (s.icu.sources.filter fun e => s.routeSrc e.1 == some c).foldl (fun best e => match best with
    | none => some e.1
    | some b => if (s.icu.sources.get b {}).priority < e.2.priority then some e.1 else some b) none

end Sys2Proof.Machine
end

