-- ==== Sys2Proof/Machine/Records.lean ====
section
/-!
DEFINITION. Operations in flight at the source: slots and queues (R330 to R336), completion records
in descriptor order (R340 to R343), counters and triggers (R353, R354), and the error state of a send
queue (R372).
Where the spec leaves a point open: DESIGN CHOICE 27, 112 (notes/assumptions).
-/
namespace Sys2Proof.Machine

/-- Completion statuses (R371). -/
abbrev stSuccess : Nat := 0x00
abbrev stPartial : Nat := 0x01
abbrev stTruncated : Nat := 0x02
abbrev stLockAbandoned : Nat := 0x03
abbrev stRefused : Nat := 0x10
abbrev stNoRoute : Nat := 0x11
abbrev stTransport : Nat := 0x12
abbrev stFenced : Nat := 0x13
abbrev stUnavailable : Nat := 0x14
abbrev stRemoteAccess : Nat := 0x15
abbrev stRemoteInstance : Nat := 0x16
abbrev stPoisoned : Nat := 0x17
abbrev stRnrExceeded : Nat := 0x18
abbrev stLockBusy : Nat := 0x19
abbrev stLockLimit : Nat := 0x1A
abbrev stNotOwner : Nat := 0x1B
abbrev stProtection : Nat := 0x20
abbrev stBadDescriptor : Nat := 0x21
abbrev stFlushed : Nat := 0x22

/-! ### Counters and triggers -/

/-- An instance's engine resources. -/
def State.engInst (s : State) (i : Nat) : EngInst := s.mec.inst.get i {}

/-- The device counter that an instance's index names, when it lies in its range (R353). -/
def State.counterIx (s : State) (i idx : Nat) : Option Nat :=
  let e := s.engInst i
  if idx < e.counterCount then some (e.counterBase + idx) else none

/-- A trigger has its counter at its threshold or beyond (R354): it fires. -/
def fireOne (m : Mec) (t : Trigger) : Trigger :=
  match m.sendQ.find t.queue with
  | none => t
  | some q =>
    let e := m.inst.get q.inst {}
    if t.fired then t
    else { t with fired := decide (t.d.trigCounter < e.counterCount) &&
             decide (t.d.trigThreshold ≤ m.counters.get (e.counterBase + t.d.trigCounter) 0) }

/-- Triggers whose counters have reached their thresholds fire (R354). -/
def State.fireTriggers (s : State) : State :=
  s.upMec fun m => { m with triggers := m.triggers.map (fireOne m) }

/-- A counter given a value, modulo 2^64, and the triggers that it fires (R353, R354). -/
def State.setCounter (s : State) (c v : Nat) : State :=
  (s.upMec fun m => { m with counters := m.counters.put c (v % 2 ^ 64) }).fireTriggers

/-- A counter advanced (R353). -/
def State.addCounter (s : State) (c n : Nat) : State := s.setCounter c (s.mec.counters.get c 0 + n)

/-- The counter of an instance advanced, when the index lies in its range. -/
def State.bump (s : State) (i idx : Nat) : State :=
  match s.counterIx i idx with
  | none => s
  | some c => s.addCounter c 1

/-! ### Completion records -/

/-- The 32 bytes of a completion record, as a number (R341). -/
def completionImage (kind status queue bytes wrId detail srcDevice srcInst refusal retryAfter : Nat) (phase : Bool) : Nat :=
  packBits [(kind, 8), (status, 8), (queue, 14), (0, 2), (bytes, 32), (wrId, 64), (detail, 64), (srcDevice, 16),
    (srcInst, 10), (refusal, 4), (retryAfter, 16), (0, 17), (b2n phase, 1)]

/-- A completion queue has no free entry (R343). -/
def RecordQueue.full (q : RecordQueue) : Bool := decide (2 ^ q.log2Size ≤ ringUsed q.producer q.consumer)

/-- A completion record written to a queue with room, and its interrupt (R333, R341, R486): `l` is its fields but the
phase, in the order of R341. -/
def State.writeRecord (s : State) (cq : Nat) (r : RecordQueue) (l : List Nat) : State :=
  match l with
  | [kind, status, queue, bytes, wrId, detail, srcDevice, srcInst, refusal, retryAfter] =>
    let phase := ringPhase r.producer r.log2Size
    let s := s.upMec fun m => { m with
      compQ := m.compQ.put cq { r with producer := (r.producer + 1) % 65536, armed := false } }
    let s := s.emit (.completion cq r.producer l)
    let s := s.hostWrite r.inst (r.base + 32 * (r.producer % 2 ^ r.log2Size))
      (bytesLE 32 (completionImage kind status queue bytes wrId detail srcDevice srcInst refusal retryAfter phase))
    if r.armed then s.msixSend r.inst r.vector else s
  | _ => s

/-- A completion queue that a record found full: the queues that complete to it stop, and CQ_FULL is
posted once (R343). -/
def State.cqFull (s : State) (cq : Nat) : State :=
  match s.mec.compQ.find cq with
  | none => s
  | some r =>
    let first := !(s.mec.sendQ.any fun q => q.2.cq == cq && q.2.stalled)
    let s := s.upMec fun m => { m with
      intStatus := setFlag m.intStatus 1
      sendQ := m.sendQ.mapv fun q => if q.cq = cq then { q with stalled := true } else q }
    if first then s.post r.inst 0x08 0 cq 0 0 else s

/-- A completion record (R341): it waits while its queue has no room (R343). -/
def State.putRecord (s : State) (cq : Nat) (kind status queue bytes wrId detail srcDevice srcInst refusal retryAfter : Nat) : State :=
  let l := [kind, status, queue, bytes, wrId, detail, srcDevice, srcInst, refusal, retryAfter]
  match s.mec.compQ.find cq with
  | none => s
  | some r =>
    if r.full || !r.held.isEmpty then
      (s.upMec fun m => { m with compQ := m.compQ.put cq { r with held := r.held ++ [l] } }).cqFull cq
    else s.writeRecord cq r l

/-- Records that waited for room, written as far as it goes (R343). -/
def State.writeHeld (s : State) (cq : Nat) : Nat → State
  | 0 => s
  | fuel + 1 =>
    match s.mec.compQ.find cq with
    | none => s
    | some r =>
      match r.held with
      | [] => s
      | l :: rest => if r.full then s else (s.writeRecord cq { r with held := rest } l).writeHeld cq fuel

/-! ### Operation slots -/

/-- The slot of an op_tag. -/
def State.slot (s : State) (tag : Nat) : Option OpSlot := s.mec.slots.find tag

/-- The state with a slot changed. -/
def State.upSlot (s : State) (tag : Nat) (f : OpSlot → OpSlot) : State :=
  s.upMec fun m => match m.slots.find tag with
    | none => m
    | some x => { m with slots := m.slots.put tag (f x) }

/-- Operation slots that a queue holds. -/
def State.queueSlots (s : State) (q : Nat) : Nat := (s.mec.slots.filter fun x => x.2.queue == q && !x.2.isRget).length

/-- The lowest free slot of an engine position (R330). -/
def State.freeSlot (s : State) (engine : Nat) : Option Nat :=
  ((List.range 512).find? fun k => !s.mec.slots.has (512 * engine + k)).map (· + 512 * engine)

/-- Success, in the sense of R342: statuses 0x00 to 0x03. -/
def isSuccess (st : Nat) : Bool := decide (st ≤ 3)

/-- LOCK_ABANDON owed to each device that holds a lock of a send queue (R368): it is sent in the same step. -/
def State.abandonLocks (s : State) (q : Nat) : State :=
  match s.mec.sendQ.find q with
  | none => s
  | some x => s.upMec fun m => { m with
      sendQ := m.sendQ.put q { x with locks := [] }
      abandons := m.abandons ++ (x.locks.map (·.1)).dedup.map fun dev => (dev, x.inst, q) }

/-- A send queue enters the error state (R372): its locks are abandoned and the event is posted. -/
def State.sendQueueError (s : State) (q status : Nat) : State :=
  match s.mec.sendQ.find q with
  | none => s
  | some x =>
    if x.error then s
    else
      let s := s.upMec fun m => { m with
        sendQ := m.sendQ.put q { x with error := true }, intStatus := setFlag m.intStatus 0 }
      (s.abandonLocks q).post x.inst 0x07 status q 0 0

/-- An engine has worked for an instance (R549): how long is a free value. -/
def State.engineBusy (s : State) (i : Nat) : State :=
  let (ns, s) := s.fresh
  s.meter i fun m => { m with engineBusyNs := (m.engineBusyNs + ns) % 2 ^ 64 }

/-- The record of a finished operation, and what its status brings (R342, R371, R372): none is written
for a success that is not signalled. -/
def State.retire (s : State) (x : OpSlot) (status bytes : Nat) : State :=
  let s := s.upMec fun m => { m with
    slots := (if x.standIn.isSome then m.slots.put x.opTag { x with standIn := some true } else m.slots.del x.opTag).mapv fun o =>
      { o with fenceOn := o.fenceOn.filter (· ≠ x.opTag) }
    reads := m.reads.keep fun _ p => p.slot != some x.opTag }
  let s := s.engineBusy x.inst
  let s := if isSuccess status && x.d.doneValid then s.bump x.inst x.d.doneCounter else s
  let cq := ((s.mec.sendQ.find x.queue).map (·.cq)).getD 0
  let s := if isSuccess status && !x.d.signalled then s
    else s.putRecord cq 0x01 status x.queue bytes x.d.wrId x.detail 0 0 x.refusal x.retryAfter
  if status = stProtection ∨ status = stBadDescriptor then s.sendQueueError x.queue status else s

/-- A result that can be written now: its packets are acknowledged (R222), and its completion queue
has room unless no record is due (R343). -/
def State.writable (s : State) (x : OpSlot) (status : Nat) : Bool :=
  x.unacked = 0 &&
    ((isSuccess status && !x.d.signalled) ||
      (match (s.mec.sendQ.find x.queue).bind fun q => s.mec.compQ.find q.cq with
       | none => true
       | some c => !c.full && c.held.isEmpty))

/-- Finished results of a queue written in descriptor order, as far as they can be (R340, R343). -/
def State.drainOrder (s : State) (q : Nat) : Nat → State
  | 0 => s
  | fuel + 1 =>
    match s.mec.sendQ.find q with
    | none => s
    | some x =>
      match x.order with
      | [] => s
      | tag :: rest =>
        match s.slot tag with
        | none => (s.upMec fun m => { m with sendQ := m.sendQ.put q { x with order := rest } }).drainOrder q fuel
        | some o =>
          match o.result with
          | none => s
          | some (st, bytes) =>
            if s.writable o st then
              ((s.upMec fun m => { m with sendQ := m.sendQ.put q { x with order := rest } }).retire o st bytes).drainOrder q fuel
            else if o.unacked = 0 then s.cqFull x.cq
            else s

/-- Triggered operations of a queue complete in their own turn (R340). -/
def State.drainTriggered (s : State) (q : Nat) : State :=
  (s.mec.slots.filter fun e => e.2.queue == q && e.2.triggered).foldl (fun s e =>
    match e.2.result with
    | none => s
    | some (st, bytes) =>
      if s.writable e.2 st then s.retire e.2 st bytes
      else if e.2.unacked = 0 then s.cqFull (((s.mec.sendQ.find q).map (·.cq)).getD 0) else s) s

/-- Whatever a queue can write now is written. -/
def State.drainQueue (s : State) (q : Nat) : State :=
  (s.drainOrder q ((((s.mec.sendQ.find q).map fun x => x.order.length).getD 0) + 1)).drainTriggered q

/-- A record of a receive (R341): statuses 0x00 to 0x03 included, since a receive always completes
with a record. -/
def State.receiveRecord (s : State) (rq status bytes wrId matchBits srcDevice srcInst : Nat) (reason retry : Nat := 0) : State :=
  match s.mec.recvQ.find rq with
  | none => s
  | some x => s.putRecord x.cq 0x02 status rq bytes wrId matchBits srcDevice srcInst reason retry

/-- A read of a matched rendezvous message ends (R361): its slot is freed and the receive completes, with the
reason and retry_after of an RGET that was refused (R65). -/
def State.endRget (s : State) (tag status bytes : Nat) : State :=
  let (reason, retry) := ((s.slot tag).map fun o => (o.refusal, o.retryAfter)).getD (0, 0)
  let s := s.upMec fun m => { m with slots := m.slots.del tag }
  match takeFirst (fun (m : Msg) => m.rget == some tag) s.mtc.msgs with
  | none => s
  | some (m, rest) =>
    let s := s.upMtc fun t => { t with msgs := rest }
    match m.taken with
    | none => s
    | some r => s.receiveRecord r.queue status bytes r.d.wrId m.matchBits m.srcDevice m.srcInst reason retry

/-- An operation has its result: status and bytes moved (R338, R340). A stand-in that is answered frees its slot (R363). -/
def State.finishOp (s : State) (tag status bytes : Nat) : State :=
  match s.slot tag with
  | none => s
  | some x =>
    if x.isRget then s.endRget tag status bytes
    else match x.standIn with
      | some true => s.upMec fun m => { m with slots := m.slots.del tag }
      | some false => s.upSlot tag fun o => { o with standIn := none }
      | none =>
        if x.result.isSome then s
        else (s.upSlot tag fun o => { o with result := some (status, bytes) }).drainQueue x.queue

/-- An operation that ends before it sends anything: its slot is taken, given its result and drained. -/
def State.failOp (s : State) (tag status : Nat) : State := s.finishOp tag status 0

/-- A queue move ends when the last of its operations has left the old engine (R370). -/
def State.moveDone (s : State) (q : Nat) : Bool :=
  match s.mec.sendQ.find q with
  | none => false
  | some x => !(s.mec.slots.any fun e => e.2.queue == q && !e.2.isRget && e.2.queueGen != x.gen)

end Sys2Proof.Machine
end

