-- ==== Sys2Proof/Machine/Routing.lean ====
section
/-!
DEFINITION. Routing: banks, candidates, load and virtual lanes (R160 to R176), packets built in the
device and put to their ingress, and the multicast trees' fences and acknowledgements (R185 to R190).
Where the spec leaves a point open: DESIGN CHOICE 138, 139, 162; DEDUCED 28, 128, 136, 165 (notes/assumptions).
-/
namespace Sys2Proof.Machine

/-- The tile of an input (R25): a local input is served by the tile of its place among the four. -/
def tileOf (input : Nat) : Nat := if input < 32 then input / 8 else (input - 32) % 4

/-- A port's route settings. -/
def State.rport (s : State) (p : Nat) : PortRoute := s.rte.ports.get p {}

/-- A bank. -/
def State.bank (s : State) (b : Nat) : Bank := if b = 0 then s.rte.bank0 else s.rte.bank1

/-- The bank that is active (R161). -/
def State.activeBank (s : State) : Nat := if s.rte.bank0.state = .active then 0 else 1

/-- The tag of the active bank (R196). -/
def State.activeEpoch (s : State) : Nat := (s.bank s.activeBank).tag

/-- The bank that routes an epoch (R162), none when no bank carries the tag (R176). -/
def State.bankFor (s : State) (epoch : Nat) : Option Nat :=
  if s.rte.bank0.state ≠ .empty ∧ s.rte.bank0.tag = epoch then some 0
  else if s.rte.bank1.state ≠ .empty ∧ s.rte.bank1.tag = epoch then some 1 else none

/-- The tables of a tile's bank (R161). -/
def State.routeTables (s : State) (tile b : Nat) : RouteTables := s.rte.tables.get (2 * tile + b) {}

/-- The group and the member of a device ID (R6). -/
def groupOf (d : Nat) : Nat := d / 64
def memberOf (d : Nat) : Nat := d % 64

/-- The device's own group. -/
def State.ownGroup (s : State) : Nat := groupOf s.rte.deviceId

/-- The ports of a mask that are up, and of a kind where one is asked for (R196). -/
def State.candPorts (s : State) (mask : Word) (localOnly : Bool) : List Nat :=
  (List.range 32).filter fun p =>
    mask.getLsbD p && (s.rport p).up && (!localOnly || (s.rport p).kind == 1)

/-- The candidates of a unicast lookup for another device (R163). -/
def State.candidates (s : State) (tile b : Nat) (h : Hdr) : List Nat :=
  let t := s.routeTables tile b
  if groupOf h.destDevice = s.ownGroup then s.candPorts (t.member.get (memberOf h.destDevice) 0) true
  else if h.nonminimal && h.interGroup ≠ s.ownGroup then s.candPorts (t.group.get h.interGroup 0) false
  else s.candPorts (t.group.get (groupOf h.destDevice) 0) false

/-- The phase of the next hop over a port (R169). -/
def State.phaseOf (s : State) (h : Hdr) (port : Nat) : Nat :=
  let overGlobal := (s.rport port).kind = 2
  if groupOf h.destDevice = s.ownGroup then 2
  else if h.nonminimal && h.interGroup = s.ownGroup then (if overGlobal then 2 else 1)
  else if overGlobal then 1 else 0

/-- The virtual lane of the next hop: a packet that came over a link never takes a lower phase than
the one it arrived on (R169, R170). -/
def State.nextVl (s : State) (h : Hdr) (port rxVl : Nat) (arrived : Bool) : Nat :=
  if isMgmt h then 6
  else
    let ph := s.phaseOf h port
    let ph := if arrived && decide (ph < rxVl % 3) then rxVl % 3 else ph
    3 * b2n h.response + ph

/-- The table's phase is below the phase that the packet arrived on (R170). -/
def State.phaseLow (s : State) (h : Hdr) (port rxVl : Nat) (arrived : Bool) : Bool :=
  !isMgmt h && arrived && decide (s.phaseOf h port < rxVl % 3)

/-- The flits of a frame that carries `len` bytes (R200). -/
def flitsOf (len : Nat) : Nat := ceilDiv (len + 24) 64

/-! ### Links (R208 to R211) -/

/-- A native port's link layer. -/
def State.lport (s : State) (p : Nat) : LnkPort := s.lnk.ports.get p {}

/-- The state with a port's link layer changed. -/
def State.upLport (s : State) (p : Nat) (f : LnkPort → LnkPort) : State :=
  s.upLnk fun l => { l with ports := l.ports.upd p {} f }

/-- The default credits of a VL (R211). -/
def vlDefault (v : Nat) : LinkVl := if v = 6 then { share := 384, nextShare := 384 } else {}

/-- The state with a VL of a port changed. -/
def State.upLinkVl (s : State) (p v : Nat) (f : LinkVl → LinkVl) : State :=
  s.upLport p fun l => { l with vls := l.vls.upd v (vlDefault v) f }

/-- The credits of a VL of a port's link. -/
def State.linkVl (s : State) (p v : Nat) : LinkVl :=
  (s.lnk.ports.get p {}).vls.get v (if v = 6 then { share := 384, nextShare := 384 } else {})

/-- Flits of a VL freed at the receiver (R209). -/
def State.freeFlits (s : State) (p v n : Nat) : State :=
  s.upLinkVl p v fun c => { c with freed := (c.freed + n) % 16384, held := c.held - n }

/-- avail = limit − debited + returned (R208). -/
def LinkVl.avail (c : LinkVl) : Nat := c.limit - c.debited

/-- The load of a candidate port (R164). -/
def State.load (s : State) (port vl : Nat) : Nat :=
  s.queuedOn (accountOf port vl) + if (s.linkVl port vl).avail = 0 then 64 else 0

/-- The candidate of least load; ties go to the first at or after the rotating pointer (R164). -/
def leastLoaded (load : Nat → Nat) (ptr : Nat) (cand : List Nat) : Option Nat :=
  let ordered := (cand.filter fun p => decide (ptr ≤ p)) ++ (cand.filter fun p => decide (p < ptr))
  ordered.foldl (fun best p => match best with
    | none => some p
    | some b => if load p < load b then some p else some b) none

/-- The reserved egress ports of a green packet here: its contract's at the source, else the union of
the reservations it matches; none when no reservation matches (R51, R167). -/
def State.reservedPorts (s : State) (h : Hdr) (atSource : Bool) (own : Option Nat) : Option (Nat → Bool) :=
  match (if atSource then s.contractFor (polAs h own) else none) with
  | some c => some (lists c.2.p.egressPorts)
  | none =>
    match s.matchingResvs h false with
    | [] => none
    | rs => some fun p => rs.any fun r => lists r.2.p.egressPorts p

/-- The candidates after the restriction of R167, and whether it left none. -/
def restrict (allowed : Option (Nat → Bool)) (cand : List Nat) : List Nat × Bool :=
  match allowed with
  | none => (cand, false)
  | some f => let k := cand.filter f
              if k.isEmpty then (cand, !cand.isEmpty) else (k, false)

/-- Green at a device where it matches no reservation of its own (R84). -/
def State.countUnreserved (s : State) : State :=
  ((s.upAdm fun a => { a with unreservedGreen := a.unreservedGreen + 1, intStatus := setFlag a.intStatus 2 }).tally
    (evt 9 0)).raise 577

/-- The least load towards a group by the bank of a tile, for an adaptive decision (R165, R166). -/
def State.loadTowards (s : State) (tile b : Nat) (h : Hdr) (g : Nat) : Option Nat :=
  let h := { h with nonminimal := true, interGroup := g }
  let cand := s.candidates tile b h
  (cand.map fun p => s.load p (s.nextVl h p 0 false)).min?

/-- The least load on the minimal path. -/
def State.loadMinimal (s : State) (tile b : Nat) (h : Hdr) : Option Nat :=
  let h := { h with nonminimal := false, interGroup := 0 }
  ((s.candidates tile b h).map fun p => s.load p (s.nextVl h p 0 false)).min?

/-- Groups that a draw may give: a non-empty group-table entry, neither the source's group nor the
destination's (R165). -/
def State.drawGroups (s : State) (tile b : Nat) (h : Hdr) : List Nat :=
  ((s.routeTables tile b).group.filter fun e =>
    e.2 != 0 && e.1 != s.ownGroup && e.1 != groupOf h.destDevice).map (·.1)

/-- The minimal or non-minimal choice that the source device makes (R165, R166). The draw is a free
value. -/
def State.choosePath (s : State) (tile : Nat) (h : Hdr) (own : Option Nat) : Hdr × State :=
  let b := s.activeBank
  if h.multicast || isMgmt h || groupOf h.destDevice = s.ownGroup then (h, s)
  else if isGreen h then
    match s.contractFor (polAs h own) with
    | some (_, c) =>
      if c.routeMode = 1 then
        let best := c.routeGroups.foldl (fun (a : Option (Nat × Nat)) g =>
          match s.loadTowards tile b h g, a with
          | none, a => a
          | some l, none => some (l, g)
          | some l, some (m, k) => if l < m then some (l, g) else some (m, k)) none
        match best with
        | some (_, g) => ({ h with nonminimal := true, interGroup := g }, s)
        | none => (h, s)
      else (h, s)
    | none => (h, s)
  else
    let pol := s.rte.policies.get h.sl {}
    let gs := s.drawGroups tile b h
    if pol.mode = 1 || gs.isEmpty then (h, s)
    else
      let (v, s) := s.fresh
      let g := gs.getD (v % gs.length) 0
      let go := pol.mode = 2 ||
        (match s.loadMinimal tile b h, s.loadTowards tile b h g with
         | some m, some l => decide (2 * l + pol.bias < m)
         | _, _ => false)
      (if go then { h with nonminimal := true, interGroup := g } else h, s)

/-- Where a lookup sends a packet. -/
inductive RouteAns where
  | out (output vl : Nat)
  | none_
deriving DecidableEq, Repr

/-- The output of an endpoint of this device (R160): an unassigned one leads to the management complex. -/
def State.endpointOut (s : State) (e : Nat) : Nat :=
  if e = 0 then 35
  else match s.rte.endpoints.get e .unassigned with
    | .unassigned => 35
    | .localOutput o => o
    | .hostLink p => p

/-- The lookup of a packet at an input (R160 to R170, R176): the answer, and the state with the
pointer moved and the sources raised. R164 has one pointer per tile and virtual lane, and candidates may lead to different
lanes: DESIGN CHOICE 138, the lane of the first candidate names the pointer that breaks a tie, and that of the port chosen is
moved. -/
def State.lookup (s : State) (h : Hdr) (input rxVl : Nat) (atSource : Bool) (own : Option Nat) : RouteAns × State :=
  let arrived := decide (input < 32) && !atSource
  if !s.rte.valid then (.none_, s)
  else if h.destDevice = s.rte.deviceId then
    let o := s.endpointOut h.destEndpoint
    let s := if isGreen h && (s.matchingResvs h true).isEmpty then s.countUnreserved else s
    (.out o (if isMgmt h then 6 else if arrived then rxVl else 3 * b2n h.response), s)
  else
    let tile := tileOf input
    let (b, s) := match s.bankFor h.epoch with
      | some b => (b, s)
      | none => (s.activeBank, (s.upRte fun r => { r with intStatus := setFlag r.intStatus 2 }).raise 258)
    let cand := s.candidates tile b h
    let allowed := if isGreen h then s.reservedPorts h atSource own else none
    let (cand, miss) := restrict allowed cand
    let s := if miss then (s.upRte fun r => { r with intStatus := setFlag r.intStatus 4 }).raise 259 else s
    let s := if isGreen h && allowed.isNone && !cand.isEmpty then s.countUnreserved else s
    let vlAt := fun p => s.nextVl h p rxVl arrived
    let lane := (cand.head?.map vlAt).getD 0
    let ptr := s.rte.loadPtr.get (7 * tile + lane) 0
    match leastLoaded (fun p => s.load p (vlAt p)) ptr cand with
    | none => (.none_, s)
    | some p =>
      let v := vlAt p
      let low := s.phaseLow h p rxVl arrived
      let s := s.upRte fun r => { r with loadPtr := r.loadPtr.put (7 * tile + v) ((p + 1) % 32) }
      let s := if low then (s.upRte fun r => { r with intStatus := setFlag r.intStatus 3 }).raise 257 else s
      (.out p v, s)

/-! ### Packets that the device builds -/

/-- A name for a packet built here. -/
def State.newPid (s : State) : Nat × State :=
  (2 ^ 32 + s.trn.built, s.upTrn fun t => { t with built := t.built + 1 })

/-- The input that packets of an opcode are built at (R93): engine clusters 0 to 7 at 32 and 8 to 15
at 33, the reduction unit and the matching unit (RGET and what answers a SEND: SEND_ACK, SEND_RNR and RDONE) at 34, memory paths
and the management complex at 35. -/
def inputFor (opcode cluster : Nat) : Nat :=
  if opcode = 0x07 ∨ opcode = 0x14 ∨ opcode = 0x15 ∨ opcode = 0x17 then 34
  else if opcode < 0x40 then (if cluster % 16 < 8 then 32 else 33)
  else if 0x60 ≤ opcode ∧ opcode < 0x80 then 34 else 35

/-- A packet comes to wait at its ingress, in order of arrival, which numbers it (R82, R97). -/
def State.putWaiting (s : State) (w : WaitPkt) : State :=
  s.upObf fun b => { b with
    waiting := b.waiting ++ [{ w with no := if w.no = 0 then b.arrived + 1 else w.no }], arrived := b.arrived + 1 }

/-- A packet built here that leaves on one port and VL, whatever the routes say, put to its ingress (R188, R192). -/
def State.putPort (s : State) (pkt : Packet) (len port vl : Nat) : State :=
  s.putWaiting { pkt, len, input := 35, rxVl := vl, routedAt := s.obf.residency, outs := [(port, vl)], fromLocal := true
                 sequenced := false }

/-- A message segment that the management complex has built (R461): it comes to the routing stage in the next core cycle. -/
def State.putBuilt (s : State) (pkt : Packet) (len : Nat) : State :=
  s.putWaiting { pkt, len, input := 35, rxVl := 6, routedAt := s.obf.residency, outs := [], fromLocal := true, sequenced := false
                 built := true }

/-- A native port whose link is up in the sense of R38. -/
def State.linkUp (s : State) (p : Nat) : Bool :=
  s.isNative p && ((s.lport p).state = .up || (s.lport p).state = .replay)

/-- A packet of the management lane sent on a port (R459, R460): service level 7, VL6, colour 0b11, instance 0, dest_device 0. -/
def State.sendMgmt (s : State) (opcode : Nat) (response data : Bool) (fields payload : List Nat) (port : Nat) : State :=
  let (pid, s) := s.newPid
  let hdr : Hdr := { srcDevice := s.rte.deviceId, sl := 7, colour := 3, opcode, response, data
                     payloadLength := if data then payload.length else fieldBytes opcode }
  s.putPort { pid, hdr, fields, payload } (pktLen hdr) port 6

/-! ### Multicast trees (R185 to R190) -/

/-- A tree entry, when installed. -/
def State.tree (s : State) (t : Nat) : Option Tree := s.rte.trees.find t

/-- A branch (0 to 31, 32 for the local copy) is fenced (R185). -/
def Tree.isFenced (t : Tree) (b : Nat) : Bool := t.fenced.getLsbD b

/-- The branches of a tree that an entry names, with 32 for the local copy (R185). -/
def Tree.all (t : Tree) : List Nat :=
  ((List.range 32).filter fun p => t.branches.getLsbD p) ++ if t.loc then [32] else []

/-- Destinations behind a branch. -/
def Tree.leavesOf (t : Tree) (b : Nat) : Nat := t.leaves.get b 0

/-- Destinations behind branches that are fenced. -/
def Tree.fencedLeaves (t : Tree) : Nat := sumOf (t.all.filter t.isFenced) t.leavesOf

/-- A multicast operation ended at its root: the packet's operation is found by its number, and the
operation of its descriptor ends with the last of its packets (R188, R338). -/
def State.rootDone (s : State) (o : McOp) : State :=
  match s.mec.slots.find? fun x => x.2.d.multicast && x.2.inst == o.inst &&
      decide (modSub (2 ^ 24) o.op x.2.msn < ceilDiv x.2.d.length 4096) with
  | none => s
  | some (tag, x) =>
    let s := s.upSlot tag fun y => { y with
      unacked := y.unacked - 1
      detail := o.delivered + 65536 * max o.fenced (y.detail / 65536)
      bytes := y.bytes }
    if x.unacked ≤ 1 then
      s.finishOp tag (if max o.fenced (x.detail / 65536) = 0 then stSuccess else stPartial) x.d.length
    else s

/-- MC_ACK sent on a port (R188): a yellow control packet with the tree in dest_device and the counts in its payload, on
VL 3 + phase, or on VL6 where the packet it answers is management (R169; DEDUCED 136). -/
def State.sendMcAck (s : State) (port t : Nat) (o : McOp) : State :=
  let (pid, s) := s.newPid
  let hdr : Hdr := { destDevice := t, srcDevice := o.srcDevice, inst := o.inst, sl := o.sl, response := true, multicast := true
                     opcode := 0xA0, seq := o.op, payloadLength := 4 }
  (s.emit (.mcAck port t o.srcDevice o.inst o.op o.delivered o.fenced)).putPort
    { pid, hdr, fields := [o.delivered, o.fenced] } 20 port (if o.sl = 7 then 6 else 3 + o.phase)

/-- An operation of a tree with nothing left to wait for ends: MC_ACK goes upstream, or the source
completes at the root (R188). -/
def State.mcEnd (s : State) (t : Nat) (tr : Tree) (o : McOp) : State :=
  if tr.upstream = 0x3F then s.rootDone o else s.sendMcAck tr.upstream t o

/-- The operations of a tree that wait for nothing more end (R188). -/
def State.mcSettle (s : State) (t : Nat) : State :=
  match s.tree t with
  | none => s
  | some tr =>
    let ended := tr.ops.filter fun o => o.awaiting.isEmpty
    let s := s.upRte fun r => { r with
      trees := r.trees.put t { tr with ops := tr.ops.filter fun o => !o.awaiting.isEmpty } }
    ended.foldl (fun s o => s.mcEnd t tr o) s

/-- One branch, or the local copy, of an installed tree fenced (R189, R190). -/
def State.fenceBranch (s : State) (t b : Nat) : State :=
  match s.tree t with
  | none => s
  | some tr =>
    let ops := tr.ops.map fun o =>
      if o.awaiting.contains b then
        { o with awaiting := o.awaiting.filter (· ≠ b), fenced := o.fenced + tr.leavesOf b }
      else o
    (s.upRte fun r => { r with
      trees := r.trees.put t { tr with fenced := tr.fenced ||| (1#33 <<< b), ops } }).mcSettle t

/-- A branch fenced in every installed tree that has it (R189). -/
def State.fenceAll (s : State) (b : Nat) : State :=
  s.rte.trees.keys.foldl (fun s t =>
    if ((s.tree t).map fun x => x.all.contains b).getD false then s.fenceBranch t b else s) s

/-- A branch, or the local copy, of an operation is acknowledged or delivered (R188). -/
def State.mcBranchDone (s : State) (t b srcDevice inst op delivered fenced : Nat) : State :=
  match s.tree t with
  | none => s
  | some tr =>
    let hit := fun (o : McOp) => o.srcDevice == srcDevice && o.inst == inst && o.op == op && o.awaiting.contains b
    let ops := updFirst hit (fun o => { o with
      awaiting := o.awaiting.filter (· ≠ b), delivered := o.delivered + delivered, fenced := o.fenced + fenced }) tr.ops
    (s.upRte fun r => { r with trees := r.trees.put t { tr with ops } }).mcSettle t

/-- The end of a local copy, delivered or not (R154, R188). -/
def State.mcLocal (s : State) (h : Hdr) (ok : Bool) : State :=
  match s.tree h.destDevice with
  | none => s
  | some tr => s.mcBranchDone h.destDevice 32 h.srcDevice h.inst h.seq
      (if ok then tr.leavesOf 32 else 0) (if ok then 0 else tr.leavesOf 32)

/-- The frame of a packet that came by cut-through is still open at the link: it is not accepted yet (R204, R210). -/
def State.frameOpen (s : State) (input vl pid : Nat) : Bool :=
  (s.linkVl input vl).openFrame.any fun o => o.pid == some pid

/-- The link buffer space of a packet that is dealt with at the routing stage is free again (R209), once its frame is accepted
(R210). -/
def State.freeRx (s : State) (w : WaitPkt) : State :=
  if !w.fromLocal && decide (w.input < 32) && s.isNative w.input && !s.frameOpen w.input w.rxVl w.pkt.pid then s.freeFlits w.input w.rxVl w.flits else s

/-- A branch of a tree with its output and VL for a copy (R169, R186, R188): 32 is the local copy. A copy of service
level 7 travels on VL6. -/
def State.branchOut (s : State) (t : Tree) (h : Hdr) (rxVl : Nat) (arrived : Bool) (b : Nat) : Nat × Nat :=
  let base := if arrived then rxVl % 3 else 0
  let vl := fun (phase : Nat) => if isMgmt h then 6 else 3 * b2n h.response + phase
  if b = 32 then (s.endpointOut t.localEndpoint, vl base) else (b, vl (min 2 (base + b2n ((s.rport b).kind == 2))))

/-- No installed tree takes the packet (R190): MC_ACK with delivered 0 and fenced 1 goes back. -/
def State.treeMissing (s : State) (h : Hdr) (rxVl : Nat) (port : Option Nat) : State :=
  let s := (s.upRte fun r => { r with intStatus := setFlag r.intStatus 5 }).raise 260
  let o : McOp := { srcDevice := h.srcDevice, inst := h.inst, op := h.seq, sl := h.sl, phase := rxVl % 3, awaiting := []
                    delivered := 0, fenced := 1 }
  match port with
  | some p => s.sendMcAck p h.destDevice o
  | none => s.rootDone o

/-- A green multicast packet against the reservations here (R84, R167): the tree's branches are the candidates of its
transit reservations, and a copy delivered here needs a destination's. -/
def State.greenTree (s : State) (t : Tree) (h : Hdr) (atSource : Bool) (own : Option Nat) : State :=
  if !isGreen h then s
  else
    let s := if t.loc && (s.matchingResvs h true).isEmpty then s.countUnreserved else s
    if t.branches = 0 then s
    else match s.reservedPorts h atSource own with
      | none => s.countUnreserved
      | some f =>
        if (List.range 32).any fun p => t.branches.getLsbD p && f p then s
        else (s.upRte fun r => { r with intStatus := setFlag r.intStatus 4 }).raise 259

/-- A copy is withheld for a fenced branch (R187, R196). -/
def State.noteFenceSkip (s : State) : State := s.upRte fun r => { r with intStatus := setFlag r.intStatus 6 }

/-- A multicast packet at the routing stage (R186 to R190): it waits for a copy to each branch that is not
fenced, and its operation is recorded. One that is not copied gives its link buffer space back (R209). -/
def State.routeTree (s : State) (w : WaitPkt) (port : Option Nat) : State :=
  let h := w.pkt.hdr
  match (s.tree h.destDevice).filter fun t => !t.removing with
  | none => (s.treeMissing h w.rxVl port).freeRx w
  | some t =>
    let open_ := t.all.filter fun b => !t.isFenced b
    let s := s.greenTree t h port.isNone w.own
    let s := if open_.length < t.all.length then s.noteFenceSkip else s
    let op : McOp := { srcDevice := h.srcDevice, inst := h.inst, op := h.seq, sl := h.sl, phase := w.rxVl % 3, awaiting := open_
                       delivered := 0, fenced := t.fencedLeaves }
    let s := s.upRte fun r => { r with trees := r.trees.put h.destDevice { t with ops := t.ops ++ [op] } }
    let outs := open_.map (s.branchOut t h w.rxVl port.isSome)
    if outs.isEmpty then (s.mcSettle h.destDevice).freeRx w else s.putWaiting { w with outs }

/-! ### Packets that the device builds, at their ingress -/

/-- A lookup has found no candidate (R168, R196). -/
def State.noCandidate (s : State) : State := s.upRte fun r => { r with intStatus := setFlag r.intStatus 0 }

/-- A packet of this device at the routing stage: its epoch is stamped (R175), its path chosen (R165)
and its output looked up; multicast follows its tree (R186). One without a candidate, whose operation could not be ended any
more, waits like one in transit (R168; DESIGN CHOICE 139). On its input it is held on the first VL of its class (R97). A word
that a non-minimal path adds was not policed (R155; DEDUCED 165). -/
def State.inject (s : State) (p : Packet) (len input : Nat) (sequenced : Bool) (own : Option Nat) : State :=
  let (h, s) := s.choosePath (tileOf input) { p.hdr with epoch := s.activeEpoch } own
  let len := lenAs len p.hdr h
  let w : WaitPkt := { pkt := { p with hdr := h }, len, input, rxVl := if isMgmt h then 6 else 3 * b2n h.response
                       routedAt := s.obf.residency, outs := [], fromLocal := true, sequenced, own }
  let s := s.emit (.packet w.pkt len)
  if h.multicast then s.routeTree w none
  else match s.lookup h input 0 true own with
    | (.out o v, s) => s.putWaiting { w with outs := [(o, v)] }
    | (.none_, s) => s.noCandidate.putWaiting w

/-- The message segments built in the last core cycle come to the routing stage (DESIGN CHOICE 162). -/
def State.routeBuilt (s : State) : State :=
  (s.obf.waiting.filter fun w => w.built).foldl (fun s w =>
    (s.upObf fun b => { b with waiting := b.waiting.filter fun x => !(x.built && x.pkt.pid == w.pkt.pid) }).inject w.pkt w.len w.input
      false none) s

/-- Payload bytes of a transport control packet (R227). -/
def ctrlPayload (opcode : Nat) : Nat := if opcode = 0x80 then 14 else if opcode = 0x81 then 4 else 3

/-- A control packet without data built here, yellow and unpoliced (R227). -/
def State.control (s : State) (opcode dest inst sl : Nat) (response : Bool) (fields : List Nat) : State :=
  let (pid, s) := s.newPid
  s.inject { pid, fields, hdr := { destDevice := dest, srcDevice := s.rte.deviceId, inst, sl, response, opcode,
                                      payloadLength := ctrlPayload opcode } }
    (16 + ctrlPayload opcode) (inputFor opcode 0) false none

end Sys2Proof.Machine
end

