-- ==== Sys2Proof/Machine/Halyard.lean ====
section
/-!
DEFINITION. The Halyard command protocol: when a command is accepted, the checks that every command
passes (R454), and the writing of replies (R446 to R453).
Where the spec leaves a point open: DESIGN CHOICE 6; DEDUCED 14, 18, 20, 21 (notes/assumptions).
-/
namespace Sys2Proof.Machine

/-- What a command's chapter answers once the common checks have passed. -/
inductive HRes where
  /-- Refused with a status: nothing changes. -/
  | refuse (status : Nat)
  /-- Complete: the state, the status, the result field and the output data. -/
  | done (s : State) (status result : Nat) (out : List Nat)
  /-- In progress: the state, what it waits for, and the objects it is changing. -/
  | pend (s : State) (w : Wait) (holds : List Obj)

/-- Complete with 0x0000, no result and no data. -/
abbrev HRes.ok (s : State) : HRes := .done s 0 0 []

/-- Complete with output data. -/
abbrev HRes.data (s : State) (out : List Nat) : HRes := .done s 0 0 out

/-- The first refusal whose condition holds, else what follows. -/
def refuseIf : List (Bool × Nat) → HRes → HRes
  | [], r => r
  | (b, st) :: t, r => if b then .refuse st else refuseIf t r

/-! ### Sources -/

/-- A host queue. -/
def State.hq (s : State) (q : Nat) : HQueue := s.hly.queues.get q {}

/-- The state with a host queue changed. -/
def State.upHq (s : State) (q : Nat) (f : HQueue → HQueue) : State :=
  s.upHly fun h => { h with queues := h.queues.upd q {} f }

/-- The number of a source in the rotating order (R438, R447). -/
def srcIndex : CmdSrc → Nat
  | .host q => q
  | .inband .. => 8
  | .board => 9

/-- The key of an in-band command (R463). -/
def srcKey : CmdSrc → Option InbandKey
  | .inband o q n _ => some { serial := o, queue := q, seq := n }
  | _ => none

/-- Two commands come from one of the ten sources of R438. -/
def sameSource (a b : CmdSrc) : Bool := srcIndex a == srcIndex b

/-- The source has management privilege (R438). -/
def State.management (s : State) : CmdSrc → Bool
  | .host q => !(s.hq q).board
  | .inband .. => true
  | .board => false

/-- A reply ring without a free entry (R452). -/
def HQueue.ringFull (q : HQueue) : Bool :=
  decide (2 ^ q.log2Size ≤ ringUsed q.replyProducer q.replyConsumer)

/-- The source of a waiting command that comes over Halyard. -/
def srcOf (i : Instr) : Option CmdSrc := i.header.map (·.src)

/-! ### Acceptance -/

/-- The device serves this source at all: its firmware runs or a reduced set applies (R439, R453,
R526, R560, R565), and it has power and its clocks run. -/
def State.serves (s : State) (src : CmdSrc) : Bool :=
  !s.pwr.lost && match s.pwr.mode with
  | .barePoles => src == .board
  | .stormJib => false
  | _ =>
    !s.mgc.mgmtReset &&
      (match s.hly.fwState with
       | .booting => false
       | .running => true
       | .halted => s.flt.halted || src == .board)

/-- The command waits at its source: a command of an enabled host queue without error and with room
for the reply, an in-band message received whole, or the board channel's request. -/
def State.sourceReady (s : State) : CmdSrc → Bool
  | .host q =>
    let x := s.hq q
    x.enable && !x.error && x.cmdProducer != x.cmdConsumer && !x.ringFull &&
      !(s.hly.heldReplies.any fun r => r.src == .host q)
  | .inband o q n _ => s.hly.inbandReady.any (· == { serial := o, queue := q, seq := n })
  | .board => s.hly.boardReq.isSome && !(s.hly.progress.any fun p => p.src == .board)

/-- The command can be accepted now (R447 to R453). -/
def State.acceptable (s : State) (h : HlyHdr) : Bool :=
  s.serves h.src && s.sourceReady h.src && decide (s.hly.progress.length < 64) &&
    (!h.fence || !(s.hly.progress.any fun p => sameSource p.src h.src)) &&
    !(s.waiting.any fun i => (srcOf i).any fun src => sameSource src h.src)

/-- The commands that a source with board privilege may issue (R439). -/
def boardCode (code : Nat) : Bool := [0x0001, 0x0002, 0x0101, 0x0103, 0x0107, 0x0D04].contains code

/-- The commands that a halted device accepts (R439, R526). -/
def haltCode (code : Nat) : Bool := [0x0001, 0x0002, 0x0D04, 0x0F03].contains code

/-- The commands that the board channel has while neither image passes its checks (R565). -/
def romCode (code : Nat) : Bool := [0x0001, 0x0002, 0x0F01].contains code

/-- Neither flash image passes its checks, and the boot ROM alone runs (R565). -/
def State.romOnly (s : State) : Bool := s.hly.fwState = .halted && !s.flt.halted

/-- data_length or data_address does not fit (R442, R445, R461, R467). -/
def dataBad (h : HlyHdr) (inLen outLen : Nat) : Bool :=
  let route := if h.directed then 24 else 0
  decide (h.dataLength < max (inLen + route) (outLen + route)) ||
    decide (1048576 < h.dataLength) ||
    (match h.src with
     | .host _ =>
       decide (h.dataAddress % 64 ≠ 0) || (h.dataLength = 0 && h.dataAddress ≠ 0) ||
         (h.remote && (decide (16384 < 64 + inLen) || decide (16384 < 32 + outLen)))
     | .inband .. => decide (16384 < 64 + inLen) || decide (16384 < 32 + outLen)
     | .board => decide (1024 < inLen) || decide (1024 < outLen))

/-- The status that the common checks answer, in the order of R454; none when they pass. `names` are
the objects for which no chapter states an outcome (R451). -/
def State.commonStatus (s : State) (code : Nat) (h : HlyHdr) (inLen outLen : Nat) (names : List Obj) :
    Option Nat :=
  let fromHost := match h.src with | .host _ => true | _ => false
  if h.reserved ≠ 0 || (h.directed && !h.remote) || (!fromHost && (h.remote || h.directed)) then some 0x0121
  else if dataBad h inLen outLen then some 0x0122
  else if h.directed && (h.hopCount = 0 || decide (15 < h.hopCount)) then some 0x0123
  else if (s.flt.halted && !haltCode code) || (s.romOnly && !romCode code) then some 0x0333
  else if !s.management h.src && !boardCode code && !(s.flt.halted && haltCode code) &&
      !(s.romOnly && romCode code) then some 0x0401
  else if s.hly.trustedOnly && (srcKey h.src).any (fun k => !s.hly.trusted.contains k.serial) then some 0x0402
  else if h.inputError && decide (0 < inLen) then some 0x0502
  else if !h.remote && s.hly.progress.any (fun p => p.objs.any fun o => names.contains o) then some 0x0329
  else if (srcKey h.src).isSome &&
      decide (256 ≤ s.hly.replyCache.length + (s.hly.progress.filter fun p => (srcKey p.src).isSome).length) then
    some 0x0216
  else if s.pwr.mode = .barePoles && !([0x0001, 0x0002, 0x0101].contains code) then some 0x0303
  else none

/-! ### Replies -/

/-- The status reply of a command that ran here (R446). -/
def State.mkReply (s : State) (src : CmdSrc) (seq code : Nat) (interrupt : Bool)
    (status result : Nat) (out : List Nat) : Reply :=
  { src, status, seq, code, remote := false, deviceValid := s.rte.valid
    device := if s.rte.valid then s.rte.deviceId else 0
    result := result % 2 ^ 128, out, interrupt }

/-- The 32 bytes of a status reply, as a number (R446). -/
def replyImage (r : Reply) : Nat :=
  packBits [(r.status, 16), (r.seq, 16), (r.code, 16),
    ((match r.src with | .host q => q | .inband _ q _ _ => q | .board => 0), 3), (b2n r.remote, 1), (b2n r.deviceValid, 1), (0, 11),
    (r.device, 16), (0, 16), (r.result, 128), (r.out.length, 31), (b2n r.phase, 1)]

/-- A reply written into its queue's ring, which has room (R440, R449). -/
def State.ringReply (s : State) (q : Nat) (r : Reply) : State :=
  let x := s.hq q
  let r := { r with phase := ringPhase x.replyProducer x.log2Size }
  let s := (s.upHq q fun x => { x with replyProducer := (x.replyProducer + 1) % 65536 }).emit (.reply r)
  if r.interrupt then s.msixSend 0 x.vector else s

/-! ### The management lane (R192, R459 to R463) -/

/-- A message sent to another device in segments (R461): by directed route on the first of its ports, or by the route tables on
VL6 to the device's management complex. On a directed route whose first port is not an up native port this device itself
answers, as unreachable, and nothing leaves (R192). -/
def State.sendLane (s : State) (kind target : Nat) (directed : Bool) (ports : List Nat) (queue seq serial attempt : Nat)
    (message : List Nat) : State :=
  let segs := segments message
  let payload := fun (i : Nat) (b : List Nat) => inbandPrefix kind i segs.length queue seq message.length serial attempt ++ b
  let response := decide (kind = 2)
  if directed then
    if s.linkUp (ports.getD 0 0) then
      (segs.zipIdx).foldl (fun s e => s.sendMgmt 0xC1 response true [] (routeExtension ports.length 1 ports [] ++ payload e.2 e.1)
        (ports.getD 0 0)) s
    else s.emit (.unreachable [])
  else
    (segs.zipIdx).foldl (fun s e =>
      let (pid, s) := s.newPid
      let hdr : Hdr := { destDevice := target, srcDevice := s.rte.deviceId, sl := 7, colour := 3, response, data := true
                         opcode := if response then 0xC2 else 0xC0, payloadLength := 32 + e.1.length }
      s.putBuilt { pid, hdr, payload := payload e.2 e.1 } (pktLen hdr)) s

/-- The reply message of an in-band command: the reply, then its output data (R461). -/
def State.sendLaneReply (s : State) (k : InbandKey) (directed : Bool) (ports : List Nat) (r : Reply) : State :=
  (s.emit (.inbandReply k ports r)).sendLane 2 (((s.hly.origins.find? fun e => e.1 == k).map (·.2)).getD 0) directed ports k.queue k.seq
    k.serial 0 (bytesLE 32 (replyImage r) ++ r.out)

/-- The command message of a command to another device: its descriptor, then its input data (R461). -/
def State.sendLaneCommand (s : State) (target : Nat) (directed : Bool) (ports : List Nat) (queue seq attempt descriptor : Nat)
    (input : List Nat) : State :=
  (s.emit (.inbandCommand target directed ports queue seq attempt descriptor)).sendLane 1 target directed ports queue seq
    Config.serial attempt (bytesLE 64 descriptor ++ input)

/-- A reply sent on the way that its command came (R446, R452, R461, R463, R467). -/
def State.writeReply (s : State) (r : Reply) : State :=
  match r.src with
  | .host q =>
    if (s.hq q).ringFull || s.hly.heldReplies.any (fun x => x.src == .host q) then
      (s.upHq q fun x => { x with replyFull := true }).upHly fun h => { h with
        heldReplies := h.heldReplies ++ [r], intStatus := setFlag h.intStatus 1 }
    else s.ringReply q r
  | .inband o q n directed =>
    let k : InbandKey := { serial := o, queue := q, seq := n }
    let ports := if directed then ((s.hly.returnPorts.find? fun e => e.1 == k).map (·.2)).getD [] else []
    (s.upHly fun h => { h with
      replyCache := if r.status = 0x0216 then h.replyCache else h.replyCache ++ [(k, r)] }).sendLaneReply k directed ports r
  | .board => (s.upHly fun h => { h with boardReq := none }).emit (.reply r)

/-- A status that the firmware answers also sets its bit of HLY_INT_STATUS (R462, R469). -/
def State.noteStatus (s : State) (status : Nat) : State :=
  if status = 0x0402 then s.upHly fun h => { h with intStatus := setFlag h.intStatus 3 }
  else if status = 0x0503 then s.upHly fun h => { h with intStatus := setFlag h.intStatus 4 }
  else if status = 0x0604 then s.upHly fun h => { h with intStatus := setFlag h.intStatus 2 }
  else s

/-- A command completes: its one reply is written after its effects (R449). An error on the write of
its output data leaves the effect and changes the status (R454). -/
def State.complete (s : State) (src : CmdSrc) (seq code : Nat) (interrupt outErr : Bool)
    (status result : Nat) (out : List Nat) : State :=
  let status := if outErr && !out.isEmpty then 0x0502 else status
  (s.noteStatus status).writeReply (s.mkReply src seq code interrupt status result out)

/-- A command in progress completes: the first that `p` accepts. -/
def State.finish (s : State) (p : Prog → Bool) (status result : Nat) (out : List Nat := []) : State :=
  match takeFirst p s.hly.progress with
  | none => s
  | some (g, rest) =>
    let s := s.upHly fun h => { h with progress := rest }
    if g.mute then s.noteStatus status
    else s.complete g.src g.seq g.code g.interrupt g.outErr status result out

/-- The command in progress that waits for `w` completes. -/
def State.finishWait (s : State) (w : Wait) (status result : Nat) : State :=
  s.finish (fun p => p.wait == w) status result

/-- Every command in progress that waits for `w` completes. -/
def State.finishEvery (s : State) (w : Wait) (status result : Nat) : State :=
  (s.hly.progress.filter fun p => p.wait == w).foldl (fun s _ => s.finishWait w status result) s

/-- What acceptance itself does: the descriptor is fetched, and the rotating order moves on (R447). -/
def State.fetchCmd (s : State) (h : HlyHdr) : State :=
  let s := s.upHly fun x => { x with lastSource := srcIndex h.src }
  match h.src with
  | .host q => s.upHq q fun x => { x with cmdConsumer := (x.cmdConsumer + 1) % 65536 }
  | .inband o q n _ => s.upHly fun x => { x with
      inbandReady := dropFirst { serial := o, queue := q, seq := n } x.inbandReady }
  | .board => s

/-- A command accepted for another device (R450, R459, R463). -/
def State.sendRemote (s : State) (h : HlyHdr) (code descriptor : Nat) (input : List Nat) : State :=
  let q := srcIndex h.src
  (s.upHly fun x => { x with progress := x.progress ++ [{
      src := h.src, seq := h.seq, code, interrupt := h.interrupt, objs := []
      wait := .remote 0 h.target h.directed h.outPorts descriptor, outErr := h.outputError, input }] }).sendLaneCommand
    h.target h.directed h.outPorts q h.seq 0 descriptor input

/-- A Halyard command: it waits, or it is accepted, checked and then refused, completed or put in
progress (R447 to R454). `i` is the command itself, `names` the objects of R451. -/
def runHly (i : Instr) (code : Nat) (h : HlyHdr) (inLen outLen : Nat) (names : List Obj)
    (body : State → HRes) (s : State) : State :=
  if !s.acceptable h then { s with waiting := s.waiting ++ [i] }
  else
    let t := s.fetchCmd h
    match s.commonStatus code h inLen outLen names with
    | some st => t.complete h.src h.seq code h.interrupt false st 0 []
    | none =>
      if h.remote then t.sendRemote h code (i.descriptor h) i.inputBytes
      else
        match body t with
        | .refuse st => t.complete h.src h.seq code h.interrupt false st 0 []
        | .done u st result out =>
          if h.dataLength < out.length then t.complete h.src h.seq code h.interrupt false 0x0122 0 []
          else u.complete h.src h.seq code h.interrupt h.outputError st result out
        | .pend u w holds => u.upHly fun x => { x with progress := x.progress ++ [{
            src := h.src, seq := h.seq, code, interrupt := h.interrupt, objs := holds, wait := w
            outErr := h.outputError }] }

end Sys2Proof.Machine
end

