-- ==== Sys2Proof/Machine/Policing.lean ====
section
/-!
DEFINITION. The policer (R59 to R68): contract and fall-back meters, verdicts, refusals and what
metering records of them (R549). Tokens are counted in 1/3,200,000 byte, so that a rate in Mb/s times
a time in 1/400 ns is a number of tokens exactly.
Where the spec leaves a point open: DEDUCED 83 (notes/assumptions).
-/
namespace Sys2Proof.Machine

/-- Tokens of `n` bytes. -/
def tok (n : Nat) : Nat := 3200000 * n

/-- A bucket refilled to `now` at a rate in Mb/s, up to its depth in bytes (R59). -/
def refill (tokens rate since now depth : Nat) : Nat := min (tok depth) (tokens + rate * (now - since))

/-- The verdict of a meter (R59, R62). -/
inductive Verdict where
  | green | yellow | red
deriving DecidableEq, Repr

/-- The two-rate meter of R59 on buckets already refilled: the verdict and the buckets after it. -/
def judge (tc tp bytes : Nat) (forceYellow : Bool) : Verdict × Nat × Nat :=
  let b := tok bytes
  if tp < b then (.red, tc, tp)
  else if forceYellow then (.yellow, tc, tp - b)
  else if tc < b then (.yellow, tc, tp - b)
  else (.green, tc - b, tp - b)

/-- A contract with its buckets refilled to the present. -/
def Contract.refilled (c : Contract) (now : Nat) : Contract :=
  { c with tc := refill c.tc c.p.committed c.refillAt now c.p.burst
           tp := refill c.tp c.p.peak c.refillAt now (2 * c.p.maxPacket), refillAt := now }

/-- A meter with its buckets refilled to the present. -/
def Meter.refilled (m : Meter) (now : Nat) : Meter :=
  { m with tc := refill m.tc m.committed m.refillAt now m.committedBurst
           tp := refill m.tp m.peak m.refillAt now m.peakBurst, refillAt := now }

/-- retry_after of R65: units of 64 ns until a bucket of tokens `tp` that fills at `rate` holds `bytes`,
saturating; 0xFFFF when no wait helps. One unit of 64 ns is 25,600 units of 1/400 ns. -/
def retryAfter (tp rate bytes depth : Nat) : Nat :=
  if depth < bytes || rate = 0 then 0xFFFF else min 0xFFFF (ceilDiv (tok bytes - tp) (rate * 25600))

/-- The device colours no packet green: it is not Synchronised, or storm jib has suspended its
contracts (R41, R74). -/
def State.suspended (s : State) : Bool := !s.synced || s.adm.stormSuspend

/-- What the policer answers: the header the packet leaves with and its 64-bit deadline, a refusal with
its reason and retry_after, or a wait at the source. -/
inductive Policed where
  | send (h : Hdr) (deadline : Nat)
  | refuse (reason retryAfter : Nat)
  | wait
deriving DecidableEq, Repr

/-- Metering of an admitted packet (R549). -/
def State.meterTx (s : State) (i bytes : Nat) (f : MeterRec → MeterRec) : State :=
  s.meter i fun m => f { m with txBytes := (m.txBytes + bytes) % 2 ^ 64, txPackets := (m.txPackets + 1) % 2 ^ 64 }

/-- Metering of a refused packet (R549). -/
def State.meterRefused (s : State) (i : Nat) : State :=
  ((s.meter i fun m => { m with refused := (m.refused + 1) % 2 ^ 32 }).tally (evt 9 2)).upAdm fun a => { a with
    intStatus := setFlag a.intStatus 1 }

/-- The fall-back meter of an instance judges a packet (R67): green and yellow are carried yellow. A
later packet larger than the peak depth is carried once the bucket is full, and empties it (R64). -/
def State.policeMeter (s : State) (h : Hdr) (len : Nat) (first : Bool) : Policed × State :=
  let i := h.inst
  let m := (s.adm.meters.get i {}).refilled s.coreTime
  let put := fun (m : Meter) => s.upAdm fun a => { a with meters := a.meters.put i m }
  let y := { h with colour := 0, deadline := 0 }
  let inProfile := fun (s : State) => s.meterTx i len fun r => { r with beInBytes := (r.beInBytes + len) % 2 ^ 64 }
  let excess := fun (s : State) => s.meterTx i len fun r => { r with beExcessBytes := (r.beExcessBytes + len) % 2 ^ 64 }
  if m.peak = 0 then (.send y 0, inProfile s)
  else if !first && decide (m.peakBurst < len) then
    if m.tp < tok m.peakBurst then (.wait, put m) else (.send y 0, excess (put { m with tp := 0 }))
  else
    let (v, tc, tp) := judge m.tc m.tp len false
    match v with
    | .green => (.send y 0, inProfile (put { m with tc, tp }))
    | .yellow => (.send y 0, excess (put { m with tc, tp }))
    | .red =>
      if first then (.refuse 3 (retryAfter m.tp m.peak len m.peakBurst), (put m).meterRefused i)
      else (.wait, put m)

/-- The policer at the source device (R59 to R68, R74): `first` is the first packet of an operation or
a single-packet operation, `pre` a yellow pre-colour (R60). -/
def State.police (s : State) (h : Hdr) (len : Nat) (first pre : Bool) : Policed × State :=
  if h.sl = 7 then
    if h.inst = 0 then (.send { h with colour := 3, deadline := 0 } 0, s)
    else (.refuse 1 0xFFFF, (s.meterRefused h.inst).raise 578 (.inst h.inst))
  else
    match s.contractFor h with
    | none => s.policeMeter h len first
    | some (id, c) =>
      if c.p.maxPacket < len then
        if first then (.refuse 2 0xFFFF, s.meterRefused h.inst) else s.policeMeter h len first
      else
        let c := c.refilled s.coreTime
        let (v, tc, tp) := judge c.tc c.tp len (c.p.aware && pre)
        let s := s.upAdm fun a => { a with contracts := a.contracts.put id { c with tc, tp } }
        match v with
        | .red =>
          if first then (.refuse 1 (retryAfter c.tp c.p.peak len (2 * c.p.maxPacket)), s.meterRefused h.inst)
          else (.wait, s)
        | .yellow =>
          (.send { h with colour := 0, deadline := 0 } 0,
            s.meterTx h.inst len fun r => { r with beExcessBytes := (r.beExcessBytes + len) % 2 ^ 64 })
        | .green =>
          if s.suspended then
            (.send { h with colour := 0, deadline := 0 } 0,
              s.meterTx h.inst len fun r => { r with suspendedBytes := (r.suspendedBytes + len) % 2 ^ 64 })
          else
            let d := s.ftu.time + 16 * c.p.bound
            (.send { h with colour := 1, deadline := d % 2 ^ 32 } d,
              s.meterTx h.inst len fun r => { r with greenBytes := (r.greenBytes + len) % 2 ^ 64 })

/-! ### Waiting at the source (R64) -/

/-- The time, in ns, that an edge wait has lasted (R549). -/
def State.endWait (s : State) (i : Nat) (from_ : Option Nat) : State :=
  match from_ with
  | none => s
  | some t => s.meter i fun m => { m with edgeWaitNs := (m.edgeWaitNs + (s.coreTime - t) / 400) % 2 ^ 64 }

/-- A packet outside transport's care waits at the source for peak tokens (R64). -/
def State.edgeWait (s : State) (p : Packet) (len input : Nat) (preYellow : Bool) : State :=
  s.putWaiting {
    pkt := p, len, input, rxVl := if isMgmt p.hdr then 6 else 3 * b2n p.hdr.response, routedAt := s.obf.residency, outs := []
    fromLocal := true, sequenced := false, edgeWait := true, preYellow, waitFrom := some s.coreTime }

end Sys2Proof.Machine
end

