-- ==== Sys2Proof/Machine/Transport.lean ====
section
/-!
DEFINITION. End-to-end transport at its two halves (R217 to R227): contexts, sending in order within
the window, flagged packets and their tickets (R178 to R182), acknowledgements, resends and failures.
Where the spec leaves a point open: DESIGN CHOICE 144; DEDUCED 127, 143 (notes/assumptions).
-/
namespace Sys2Proof.Machine

/-! ### Contexts -/

/-- A send half. -/
def State.sendCtx (s : State) (k : CtxKey) : Option SendCtx := s.trn.sends.find? fun c => c.key == k

/-- A receive half. -/
def State.recvCtx (s : State) (k : CtxKey) : Option RecvCtx := s.trn.recvs.find? fun c => c.key == k

/-- The state with a send half changed. -/
def State.upSend (s : State) (k : CtxKey) (f : SendCtx → SendCtx) : State :=
  s.upTrn fun t => { t with sends := updFirst (fun c => c.key == k) f t.sends }

/-- The state with a receive half changed. -/
def State.upRecv (s : State) (k : CtxKey) (f : RecvCtx → RecvCtx) : State :=
  s.upTrn fun t => { t with recvs := updFirst (fun c => c.key == k) f t.recvs }

/-- Halves on die (R217). -/
def Trn.onDie (t : Trn) : Nat := (t.sends.filter fun c => c.onDie && c.state != .spill).length + (t.recvs.filter (·.onDie)).length

/-- Halves in HBM (R217). -/
def Trn.inHbm (t : Trn) : Nat := (t.sends.filter fun c => !c.onDie && c.state != .spill).length + (t.recvs.filter fun c => !c.onDie).length

/-- Pinned halves, with the pins of halves not yet open (R218). -/
def Trn.pinned (t : Trn) : Nat := (t.sends.filter (·.pinned)).length + (t.recvs.filter (·.pinned)).length + t.pins.length

/-- The least recently used unpinned half on die: true for a send half, with its key (R217). -/
def Trn.victim (t : Trn) : Option (Bool × CtxKey) :=
  let ss := (t.sends.filter fun c => c.onDie && !c.pinned && c.state != .spill).map fun c => (c.used, true, c.key)
  let rs := (t.recvs.filter fun c => c.onDie && !c.pinned).map fun c => (c.used, false, c.key)
  ((ss ++ rs).foldl (fun best e => match best with
    | none => some e
    | some b => if e.1 < b.1 then some e else some b) none).map (·.2)

/-- A half brought on die or written out to HBM (R217): true for a send half. -/
def Trn.place (t : Trn) (half : Bool × CtxKey) (onDie : Bool) : Trn :=
  if half.1 then
    { t with sends := updFirst (fun c => c.key == half.2) (fun c => { c with onDie, used := if onDie then t.useCount else c.used }) t.sends }
  else { t with recvs := updFirst (fun c => c.key == half.2) (fun c => { c with onDie, used := if onDie then t.useCount else c.used }) t.recvs }

/-- Room for one more half on die, made by writing out the least recently used unpinned one; none when
neither a free HBM entry nor an unpinned half exists (R217). -/
def Trn.makeRoom (t : Trn) : Option Trn :=
  if t.onDie < 16384 then some t
  else if 262144 ≤ t.inHbm then none
  else t.victim.map fun v => t.place v false

/-- A half fetched from HBM, another written out in its place (R217): the entry that it leaves there is free for that one. -/
def Trn.fetched (t : Trn) (half : Bool × CtxKey) : Trn :=
  let u := { (t.place half true) with useCount := t.useCount + 1 }
  if u.onDie ≤ 16384 then u else match u.victim with
    | none => t
    | some v => u.place v false

/-- A pin waits for a half that is not open yet (R218): half 0 send, 1 receive. -/
def Trn.pinWaits (t : Trn) (k : CtxKey) (half : Nat) : Bool := t.pins.any (· == (k, half))

/-- The service level of a packet's transport control (R227). -/
def State.trnControl (s : State) (opcode peer inst cls sl : Nat) (response : Bool) (fields : List Nat) : State :=
  (s.control opcode peer inst sl response fields).emit (.trnControl opcode peer inst cls fields)

/-- Bits [37:14] of fabric time, the initial number of a context (R219). -/
def State.initialSeq (s : State) : Nat := bitsOf s.ftu.time 37 14

/-- A send half opened with TOPEN (R219), or waiting for an entry (R217), when its pin waits with it (R218). -/
def State.openSend (s : State) (k : CtxKey) (sl : Nat) : State :=
  let half : SendCtx := { key := k, sl, next := s.initialSeq, used := s.trn.useCount, retryLimit := s.trn.retryLimit }
  match s.trn.makeRoom with
  | none =>
    (s.upTrn fun t => { t with
      sends := t.sends ++ [{ half with state := .spill }], intStatus := setFlag t.intStatus 3 }).raise 192
  | some t =>
    (s.upTrn fun _ => { t with
      sends := t.sends ++ [{ half with pinned := t.pinWaits k 0 }], pins := t.pins.filter (· != (k, 0))
      useCount := t.useCount + 1 }).trnControl
      0x82 k.peer k.inst k.cls sl false [s.initialSeq]

/-! ### Sending -/

/-- The routing stage finds no candidate for a packet built at an input, as traffic of `own` (R168). -/
def State.noRoute (s : State) (h : Hdr) (input : Nat) (own : Option Nat) : Bool :=
  let r := s.choosePath (tileOf input) { h with epoch := s.activeEpoch } own
  match (r.2.lookup r.1 input 0 true own).1 with
  | .none_ => true
  | .out .. => false

/-- A Synchronised device finds that its time has passed the 64-bit deadline of a green packet (R75, R225). -/
def State.passed (s : State) (h : Hdr) (deadline : Nat) : Bool := isGreen h && s.synced && decide (deadline < s.ftu.time)

/-- A packet of a context closes its segment: it is flagged, or the segment is full (R179). -/
def SendCtx.closes (c : SendCtx) (h : Hdr) : Bool := h.flagged || decide (c.segCount = 65535)

/-- An earlier flagged packet of a context is in flight: it is not acknowledged, or holds a ticket (R180). -/
def SendCtx.flaggedOut (c : SendCtx) : Bool := decide (c.ticketsUsed ≠ 0) || c.unacked.any fun p => p.pkt.hdr.flagged

/-- The header that a packet of a context leaves with: its number, segment parity and ordering count
(R179, R220), and the context after it. -/
def stampSend (c : SendCtx) (h : Hdr) : Hdr × SendCtx :=
  let flag := c.closes h
  ({ h with seq := c.next, ordSeg := c.parity, flagged := flag, orderingCount := if flag then c.segCount else 0 },
   { c with next := (c.next + 1) % 2 ^ 24, sl := h.sl
            parity := if flag then !c.parity else c.parity, segCount := if flag then 0 else c.segCount + 1 })

/-- A packet of a context sent (R180, R220): it is numbered, kept until acknowledged, and put to its
ingress. `ticket` is a flagged packet sent early. A green packet whose 64-bit deadline has passed while it waited for its
context goes with its late bit set, which keeps R75's window (DEDUCED 143). -/
def State.sendNow (s : State) (k : CtxKey) (p : SentPkt) (ticket : Bool) : State :=
  match s.sendCtx k with
  | none => s
  | some c =>
    let (h, c) := stampSend c p.pkt.hdr
    let h := { h with late := h.late || s.passed h p.deadline }
    let p := { p with pkt := { p.pkt with hdr := h }, ticket, len := lenAs p.len p.pkt.hdr h }
    let s := s.upSend k fun _ => { c with
      unacked := c.unacked ++ [p], ticketsUsed := c.ticketsUsed + b2n ticket, used := s.trn.useCount
      retryLimit := if c.unacked.isEmpty then s.trn.retryLimit else c.retryLimit }
    let s := s.upTrn fun t => { t with useCount := t.useCount + 1 }
    let s := if isGreen h && !c.pinned then
        (s.upTrn fun t => { t with unpinnedGreen := t.unpinnedGreen + 1 }).tally (evt 3 0) else s
    s.inject p.pkt p.len p.input true p.polInst

/-- A queued packet passes the policer, when it has not yet (R64): the packet as it leaves, or none
while it waits for tokens. -/
def State.policeQueued (s : State) (p : SentPkt) : Option SentPkt × State :=
  if p.policed then (some p, s)
  else
    let i := p.polInst.getD p.pkt.hdr.inst
    match s.police { p.pkt.hdr with inst := i } p.len false p.preYellow with
    | (.send h d, s) =>
      (some { p with pkt := { p.pkt with hdr := { h with inst := p.pkt.hdr.inst } }, deadline := d, policed := true },
        s.endWait i p.waitFrom)
    | (_, s) => (none, s)

/-- A queued packet of an operation finds no route: it is not built, and its operation ends (R168). -/
def State.endUnrouted (s : State) (tag : Nat) : State :=
  (s.upSlot tag fun o => { o with unacked := o.unacked - 1 }).finishOp tag stNoRoute 0

/-- Packets of a context sent as far as their routes, the window, the policer and the flagged-packet rule allow
(R64, R168, R180, R220). -/
def State.pump (s : State) (k : CtxKey) : Nat → State
  | 0 => s
  | fuel + 1 =>
    match s.sendCtx k with
    | none => s
    | some c =>
      match c.queue with
      | [] => s
      | p :: rest =>
        if c.state ≠ .opened || !c.onDie || decide (16 * s.trn.sendWindow ≤ c.unacked.length) then s
        else if c.closes p.pkt.hdr && (c.flaggedOut || c.tickets = 0) then s
        else if p.op.isSome && s.noRoute p.pkt.hdr p.input p.polInst then
          ((s.upSend k fun c => { c with queue := rest }).endUnrouted (p.op.getD 0)).pump k fuel
        else
          match s.policeQueued p with
          | (some p, s) => ((s.upSend k fun c => { c with queue := rest }).sendNow k p (c.closes p.pkt.hdr)).pump k fuel
          | (none, s) => s.upSend k fun c => { c with
              queue := { p with waitFrom := some (p.waitFrom.getD s.coreTime) } :: rest }

/-- A context sends what it can. -/
def State.pumpAll (s : State) (k : CtxKey) : State :=
  s.pump k (((s.sendCtx k).map fun c => c.queue.length).getD 0)

/-- The key of a packet's context at its source device (R178, R217). -/
def sendKey (h : Hdr) : CtxKey := { peer := h.destDevice, inst := h.inst, cls := b2n h.response }

/-- The key of a packet's context at its destination device. -/
def recvKey (h : Hdr) : CtxKey := { peer := h.srcDevice, inst := h.inst, cls := b2n h.response }

/-- A transport-sequenced packet handed to transport: it joins its context's queue, which opens when it
is not held (R219). -/
def State.handOver (s : State) (p : SentPkt) : State :=
  let k := sendKey p.pkt.hdr
  let s := if (s.sendCtx k).isSome then s else s.openSend k p.pkt.hdr.sl
  (s.upSend k fun c => { c with queue := c.queue ++ [p] }).pumpAll k

/-- Payload bytes of an engine response without data (R351, R352): the operation fields, and what follows. -/
def rspPayload (opcode extra : Nat) : Nat := 11 + (if opcode = 0x13 then 2 else if opcode = 0x17 then 4 else extra)

/-- An engine response built at an input and handed to transport (R93, R350, R351): one with data is policed, as traffic of the
local instance `own` that serves it, and `src` is the memory that its data was read from. -/
def State.respond (s : State) (opcode dest inst opTag instGen status offset sl : Nat) (data : List Nat) (extra : Nat := 0)
    (own : Option Nat := none) (input : Nat := inputFor opcode 0) (src : Option Source := none) : State :=
  let carries := decide (opcode = 0x11) || decide (opcode = 0x16)
  let (pid, s) := s.newPid
  let hdr : Hdr := { destDevice := dest, srcDevice := s.rte.deviceId, inst, sl, response := true, opcode, data := carries,
                     payloadLength := if carries then data.length else rspPayload opcode extra }
  (s.emit (.engRsp opcode dest inst opTag instGen status offset data)).handOver
    { pkt := { pid, hdr, fields := [opTag, instGen, status, offset], payload := data }, len := pktLen hdr, input, op := none
      policed := !carries, polInst := own, src }

/-! ### Acknowledgement -/

/-- A number of a context lies below `e`, within half the number space. -/
def seqBelow (e n : Nat) : Bool := n ≠ e && decide (modSub (2 ^ 24) e n < 2 ^ 23)

/-- The packets that an acknowledgement of `e` covers, and the rest (R222). -/
def splitAcked (e : Nat) (l : List SentPkt) : List SentPkt × List SentPkt :=
  (l.filter fun p => seqBelow e p.pkt.hdr.seq, l.filter fun p => !seqBelow e p.pkt.hdr.seq)

/-- Packets acknowledged: their operations come nearer to completion (R222). -/
def State.ackOps (s : State) (ps : List SentPkt) : State :=
  ps.foldl (fun s p => match p.op with
    | none => s
    | some tag =>
      let s := s.upSlot tag fun o => { o with unacked := o.unacked - 1 }
      match s.slot tag with
      | none => s
      | some o => s.drainQueue o.queue) s

/-- An acknowledgement taken: every packet below `e` is acknowledged (R222, R225). -/
def State.ackTo (s : State) (k : CtxKey) (e : Nat) : State :=
  match s.sendCtx k with
  | none => s
  | some c =>
    let (done, rest) := splitAcked e c.unacked
    if done.isEmpty then s
    else
      ((s.upSend k fun c => { c with
        unacked := rest, resends := 0, retryLimit := s.trn.retryLimit
        resentIdle := if rest.isEmpty then false else c.resentIdle }).ackOps done).pumpAll k

/-- The bytes of the next part of a read: those of one data packet (R339, R347, R359, R361). -/
def PendRead.part (p : PendRead) : Nat := min p.left (if p.opcode = 0x05 && p.offset = 0 then 4072 else 4096)

/-- A part of a read of host memory issued: up to the next data packet (R347). -/
def State.issueRead (s : State) (p : PendRead) : State :=
  let tag := s.mec.readCount
  (s.upMec fun m => { m with readCount := tag + 1, reads := m.reads.put tag p }).hostRead p.inst p.address p.part tag

/-- A packet sent again (R225): its route epoch is fresh, and its late bit is set when a Synchronised sender finds its 64-bit
deadline passed. -/
def State.sendAgain (s : State) (p : SentPkt) : State :=
  let (pid, s) := s.newPid
  (s.tally (evt 3 1)).inject { p.pkt with pid, hdr := { p.pkt.hdr with late := p.pkt.hdr.late || s.passed p.pkt.hdr p.deadline } }
    p.len p.input true p.polInst

/-- A packet rebuilt for its resend (R226): its payload ends in what its source memory holds now. -/
def SentPkt.rebuilt (p : SentPkt) (data : List Nat) : SentPkt :=
  { p with pkt := { p.pkt with payload := p.pkt.payload.take (p.pkt.payload.length - data.length) ++ data } }

/-- The read of a packet's source memory for its resend (R222, R226). -/
def Source.read (m : Source) (k : CtxKey) : PendRead :=
  { inst := m.inst, opcode := 0x00, address := m.address, offset := 0, left := m.length, master := m.master, again := some k
    req := { srcDevice := 0, srcInst := m.inst, srcQueue := 0, opTag := 0, instGen := 0, sl := 0 } }

/-- A resend goes on (R225, R226): each packet in order, an engine-built one once its source memory has been read again. -/
def State.pumpAgain (s : State) (k : CtxKey) : Nat → State
  | 0 => s
  | fuel + 1 =>
    match s.sendCtx k with
    | none => s
    | some c =>
      match c.reread, c.again with
      | some _, _ => s
      | none, [] => s
      | none, n :: rest =>
        match c.unacked.find? fun p => p.pkt.hdr.seq == n with
        | none => (s.upSend k fun c => { c with again := rest }).pumpAgain k fuel
        | some p => match p.src with
          | none => ((s.upSend k fun c => { c with again := rest }).sendAgain p).pumpAgain k fuel
          | some m =>
            if m.heap then
              ((s.upSend k fun c => { c with again := rest }).sendAgain (p.rebuilt (memRead s.pool.mem m.address m.length))).pumpAgain k fuel
            else (s.upSend k fun c => { c with reread := some s.mec.readCount }).issueRead (m.read k)

/-- A resend goes as far as it can. -/
def State.resendAll (s : State) (k : CtxKey) : State := s.pumpAgain k (((s.sendCtx k).map fun c => c.again.length).getD 0)

/-- Every unacknowledged packet from number `n` onwards is sent again, in order (R225): a resend under way starts again from
there (R230). -/
def State.resendFrom (s : State) (k : CtxKey) (n : Nat) : State :=
  (s.upSend k fun c => { c with
    resentIdle := true, reread := none
    again := (c.unacked.filter fun p => !seqBelow n p.pkt.hdr.seq).map (·.pkt.hdr.seq) }).resendAll k

/-- Source memory has been read again for a resend (R226). Where it comes with poison or an error, the operation ends POISONED, as
its first read would end it, and the packet is not sent again: DESIGN CHOICE 144. -/
def State.rereadDone (s : State) (k : CtxKey) (tag : Nat) (values : List Nat) (bad : Bool) : State :=
  match s.sendCtx k with
  | none => s
  | some c =>
    if c.reread ≠ some tag then s
    else
      let s := s.upSend k fun c => { c with reread := none, again := c.again.drop 1 }
      let s := match c.unacked.find? fun p => c.again.head? == some p.pkt.hdr.seq with
        | none => s
        | some p => if bad then (p.op.map fun o => s.finishOp o stPoisoned 0).getD s
          else s.sendAgain (p.rebuilt (values.take ((p.src.map Source.length).getD 0)))
      s.resendAll k

/-- An import access fails (R66, R279): a load ends with poison or Completer Abort, a store is logged. -/
def State.failImport (s : State) (r : WinReq) (kind reason : Nat) : State :=
  if r.write then
    let s := s.post r.inst kind reason (r.address / 2 ^ 28 % 16384) r.w.length r.address
    if r.posted then s else s.emit (.hostRsp r.inst (if r.cxl then 4 else 2) 4)
  else s.emit (.hostRsp r.inst (if r.cxl then 1 else 2) 4)

/-- A slot's unmap completes when no request of the slot is in flight (R277). -/
def State.settleUnmap (s : State) (i slot : Nat) : State :=
  if s.pool.winReqs.any fun r => r.inst == i && r.address / 2 ^ 28 % 16384 == slot then s
  else s.finishWait (.importUnmap i slot) 0 0

/-- The window request that a packet carries (R278): its fields. -/
def winFields (w : WinF) : List Nat := [w.window, w.key, w.offset, w.length, b2n w.poison]

/-- The window requests of packets that transport gives up on fail (R225, R279). -/
def State.failWindows (s : State) (k : CtxKey) (ps : List SentPkt) : State :=
  ps.foldl (fun s p =>
    let hit := fun (r : WinReq) => (p.pkt.hdr.opcode = 0x40 || p.pkt.hdr.opcode = 0x41) && r.inst == k.inst &&
      r.remote == k.peer && winFields r.w == p.pkt.fields && r.write == decide (p.pkt.hdr.opcode = 0x41)
    match takeFirst hit s.pool.winReqs with
    | none => s
    | some (r, rest) => ((s.upPool fun x => { x with winReqs := rest }).failImport r 0x06 stTransport).settleUnmap r.inst (r.address / 2 ^ 28 % 16384)) s

/-- A context fails: its operations end with TRANSPORT_FAILED, and it closes (R225). -/
def State.failSend (s : State) (k : CtxKey) : State :=
  match s.sendCtx k with
  | none => s
  | some c =>
    let tags := ((c.unacked ++ c.queue).filterMap (·.op)).dedup
    let s := s.upTrn fun t => { t with
      sends := t.sends.filter fun x => x.key != k
      pins := if c.pinned then t.pins ++ [(k, 0)] else t.pins
      intStatus := setFlag t.intStatus 0 }
    let s := (s.raise 194).failWindows k (c.unacked ++ c.queue)
    tags.foldl (fun s tag => (s.upSlot tag fun o => { o with unacked := 0 }).finishOp tag stTransport 0) s

/-- TNAK for a sequenced packet that this device ends (R224): reason 1 reclaimed, 2 aborted, 3 lost with
link. -/
def State.transitNak (s : State) (h : Hdr) (reason : Nat) : State :=
  (s.upTrn fun t => { t with intStatus := setFlag t.intStatus 4 }).trnControl 0x81 h.srcDevice h.inst (b2n h.response)
    h.sl true [h.seq, 1 + 2 * reason]

/-! ### Receiving -/

/-- Tickets granted over all contexts (R182). -/
def Trn.granted (t : Trn) : Nat := sumOf t.recvs (·.granted)

/-- The tickets that the next TACK of a context grants (R182): one, when the context is short of the quota that it opened with
(R195) and its turn among the contexts short of theirs comes within the ungranted entries. -/
def Trn.grantFor (t : Trn) (k : CtxKey) : Nat :=
  let short := (t.recvs.filter fun c => decide (c.granted < c.quota)).map (·.key)
  let order := match t.ticketTurn.bind fun x => short.findIdx? (· == x) with
    | some i => short.drop (i + 1) ++ short.take (i + 1)
    | none => short
  if (order.take (4096 - t.granted)).contains k then 1 else 0

/-- TACK for a context (R222, R227): what has come since the last one goes with it. Where no half is held, it has the service
level `sl` of the packet that it answers. -/
def State.sendTack (s : State) (k : CtxKey) (openAck openRefused closeAck : Bool) (sl : Nat := 0) : State :=
  match s.recvCtx k with
  | none => s.trnControl 0x80 k.peer k.inst k.cls sl true [0, b2n openAck + 2 * b2n openRefused + 4 * b2n closeAck]
  | some c =>
    let more := if openAck then 0 else s.trn.grantFor k
    let s := s.upTrn fun t => if more = 0 then t else { t with ticketTurn := some k }
    let s := s.upRecv k fun c => { c with
      sinceAck := 0, lateBySl := [], marksSinceAck := 0, toReturn := 0, granted := c.granted + more }
    s.trnControl 0x80 k.peer k.inst k.cls c.sl true
      ([c.expected, b2n openAck + 2 * b2n openRefused + 4 * b2n closeAck] ++
        ((List.range 7).map fun l => min 255 (c.lateBySl.getD l 0)) ++
        [min 65535 c.marksSinceAck, c.toReturn, if openAck then c.granted else more])

/-- Flagged packets in the completion-hold buffer (R182): beyond its entries they wait at the local output (R184). -/
def Trn.heldCount (t : Trn) : Nat := min 4096 (sumOf t.recvs fun c => c.held.length)

/-- A receive half created at an opening, with the tickets that the quota and the entries allow (R182,
R219); none when it cannot be created. -/
def State.openRecv (s : State) (k : CtxKey) (initial sl : Nat) : Option State :=
  match s.trn.makeRoom with
  | none => none
  | some t =>
    let g := min s.rte.quota (4096 - t.granted)
    some (s.upTrn fun _ => { t with
      recvs := t.recvs ++ [{ key := k, expected := initial, sl, granted := g, quota := s.rte.quota
                             pinned := t.pinWaits k 1, used := t.useCount }]
      pins := t.pins.filter (· != (k, 1)), useCount := t.useCount + 1 })

end Sys2Proof.Machine
end

