-- ==== Sys2Proof/Machine/Link.lean ====
section
/-!
DEFINITION. The link layer of a native port (R197 to R215, R229, R230): its heads, control flits and
checks, credits, the replay buffer, the link states, and the discarding of partial frames.
Where the spec leaves a point open: DESIGN CHOICE 133, 164; DEDUCED 123, 130 (notes/assumptions).
-/
namespace Sys2Proof.Machine

/-! ### Ports, rates and lengths -/

/-- The port is a host link: PCIe or CXL upstream (R260). -/
def State.isHostLink (s : State) (p : Nat) : Bool := (s.port p).mode = 2 || (s.port p).mode = 4

/-- The port is a downstream link (R260). -/
def State.isDownstream (s : State) (p : Nat) : Bool := (s.port p).mode = 3 || (s.port p).mode = 5

/-- The port is half of an x16 link: its even port, else itself (R5). -/
def State.leadPort (s : State) (p : Nat) : Nat := if (s.port p).width = 4 then 2 * (p / 2) else p

/-- The ports of a link, by its even or single port (R5). -/
def State.linkPorts (s : State) (p : Nat) : List Nat := if (s.port p).width = 4 then [p, p + 1] else [p]

/-- The rate of one lane in Mb/s by its code (R234, R269). -/
def laneRate (code : Nat) : Nat := if code ≤ 4 then 25000 * 2 ^ code else 2500 * 2 ^ (code - 5)

/-- The rate of a link in Mb/s by its rate and width codes (R235). -/
def linkRate (rate width : Nat) : Nat := laneRate rate * 2 ^ width

/-- The trained rate of a port in Mb/s, 0 while it is not trained. -/
def State.trainedMbps (s : State) (p : Nat) : Nat :=
  match (s.port p).trainedRate, (s.port p).trainedWidth with
  | some r, some w => linkRate r w
  | _, _ => 0

/-- The rate at which a port is judged: its trained rate, else the rate at which it last trained (R54). -/
def State.judgedMbps (s : State) (p : Nat) : Nat :=
  if s.trainedMbps p ≠ 0 then s.trainedMbps p
  else match (s.port p).lastTrained with
    | some (r, w) => linkRate r w
    | none => 0

/-- The rate of an input or output: a local one counts as 3.2 Tb/s (R103). -/
def State.sideMbps (s : State) (o : Nat) : Nat := if o < 32 then s.trainedMbps o else 3200000

/-- The reading of the residency clock is older than the residency limit of the audit (R116, R212). -/
def State.stale (s : State) (stamp : Nat) : Bool := s.overLimit stamp s.obf.audit.residencyMs

/-! ### Link state -/

/-- Flits in the replay buffer (R212). -/
def LnkPort.flits (l : LnkPort) : Nat := sumOf l.replay (·.flits)

/-- A frame of `f` flits may start on a VL of a port: the link is Up, no replay is under way or its frame has been
cut, the port has left port idle (R249), credit and replay buffer have room (R208, R212, R213). -/
def State.canStart (s : State) (p v f : Nat) : Bool :=
  let l := s.lport p
  ((l.state = .up && l.toReplay.isEmpty) || l.replayCut.isSome) && !(s.port p).draining && !(s.port p).txIdle &&
    decide (f ≤ (s.linkVl p v).avail) && decide (l.flits + f ≤ 8192)

/-- The replayed frame of a port that a control packet has cut, with its progress count (R213). -/
def LnkPort.cutFrame (l : LnkPort) : Option (ReplayFrame × Nat) :=
  l.replayCut.bind fun c => (l.replay.find? fun f => f.seq == c.1).map fun f => (f, c.2)

/-- The replayed frame on the wire of a port has ended, and a cut one that has been acknowledged goes on no more (R213). -/
def State.replayOver (s : State) (p : Nat) : State :=
  let l := s.lport p
  if l.replaying.isNone && (l.replayCut.isNone || l.cutFrame.isSome) then s
  else s.upLport p fun l => { l with replaying := none, replayCut := if l.cutFrame.isSome then l.replayCut else none }

/-- An injection has done its work on one frame or pair: the nth counts as an event (R229). -/
def State.countInject (s : State) (p : Nat) : Bool × State :=
  let i := (s.lport p).inject
  if i.kind = 0 then (false, s)
  else if i.seen + 1 < i.n then (false, s.upLport p fun l => { l with inject := { i with seen := i.seen + 1 } })
  else if i.count ≠ 0 && decide (i.count ≤ i.done + 1) then
    (true, (s.upLport p fun l => { l with inject := { i with kind := 0, seen := 0, done := i.done + 1 } }).upLnk
      fun l => { l with intStatus := setFlag l.intStatus 4 })
  else (true, s.upLport p fun l => { l with inject := { i with seen := 0, done := i.done + 1 } })

/-- The VLs of a port whose count of flits freed the far end has not been told (R209). -/
def State.untold (s : State) (p : Nat) : List Nat := (List.range 7).filter fun v => (s.linkVl p v).freed != (s.linkVl p v).told

/-- The acknowledgement, and the counts of these VLs, have been sent to the far end (R205, R209). -/
def State.told (s : State) (p : Nat) (vls : List Nat) : State :=
  s.upLport p fun l => { l with
    ackTold := l.rxExpected
    vls := vls.foldl (fun (t : Tbl LinkVl) v => t.upd v (vlDefault v) fun c => { c with told := c.freed }) l.vls }

/-- A frame on the wire (R198, R200, R213): its head carries the acknowledgement and two credit reports of the moment, of the
lowest VLs with something to report (DESIGN CHOICE 164). An aborted frame ends in the abort marker (R206). -/
def State.wireFrame (s : State) (p : Nat) (f : ReplayFrame) : WireFrame :=
  { head := linkHead f.seq (some (s.lport p).rxExpected) f.vl f.flits (((s.untold p).take 2).map fun v => (v, (s.linkVl p v).freed))
    sync := frameTags f.vl f.flits f.aborted, frameCrc := crc32 (pktBytes f.pkt) }

/-- A frame put on the wire (R200, R213). -/
def State.sendFrame (s : State) (p : Nat) (f : ReplayFrame) (damage : WireFrame → WireFrame) : State :=
  (s.emit (.frame p f.vl f.seq f.flits f.pkt f.aborted (some (damage (s.wireFrame p f)))))

/-- A frame put on the wire, as injection lets it (R229): replaced by idle flits, with a bit of its frame_crc or of its
head_crc inverted, or whole. A head that the far end will not take tells it nothing (R207). -/
def State.putFrame (s : State) (p : Nat) (f : ReplayFrame) : State :=
  let k := (s.lport p).inject.kind
  let whole := fun (s : State) => (s.sendFrame p f id).told p ((s.untold p).take 2)
  if k = 0 || k = 4 then whole s
  else
    let (hit, s) := s.countInject p
    if !hit then whole s
    else match k with
      | 1 => s.emit (.dropped p f.seq)
      | 2 => (s.sendFrame p f fun w => { w with frameCrc := w.frameCrc ^^^ 1 }).told p ((s.untold p).take 2)
      | _ => s.sendFrame p f fun w => { w with head := w.head ^^^ (1#128 <<< 112) }

/-- A new frame starts on a port (R203, R208, R212): it is numbered, its flits are debited, and it enters
the replay buffer. -/
def State.startFrame (s : State) (p v : Nat) (pkt : Packet) (len : Nat) (sequenced : Bool) : State :=
  let f := flitsOf len
  let fr : ReplayFrame := { seq := (s.lport p).txNext, vl := v, flits := f, pkt, len, sequenced
                            stamp := s.obf.residency, sent := 0 }
  let s := s.upLport p fun l => { l with txNext := (l.txNext + 1) % 65536, replay := l.replay ++ [fr] }
  (s.upLinkVl p v fun c => { c with debited := c.debited + f }).putFrame p fr

/-- The replay timer of a port starts from 0 (R213), under the replay_limit of the moment (R232). -/
def LnkPort.restart (l : LnkPort) : LnkPort := { l with limitNow := l.replayLimit }

/-- The frame of a packet has sent all its flits, or has been closed with the abort marker (R206, R212): the replay timer starts
where it is the oldest. -/
def State.frameSent (s : State) (p pid : Nat) (aborted : Bool) : State :=
  s.upLport p fun l =>
    let l := if (l.replay.head?.any fun f => f.pkt.pid == pid) then l.restart else l
    { l with replay := l.replay.map fun f =>
        if f.pkt.pid = pid then { f with sent := f.flits, aborted := f.aborted || aborted } else f }

/-- A number lies below an acknowledgement, within the last 8,192 numbers (R205). -/
def ackCovers (ack seq : Nat) : Bool :=
  let d := modSub 65536 ack seq
  decide (0 < d) && decide (d ≤ 8192)

/-- An acknowledgement taken (R205, R213): frames below it leave the replay buffer. -/
def State.takeAck (s : State) (p ack : Nat) : State :=
  let l := s.lport p
  let rest := l.replay.filter fun f => !ackCovers ack f.seq
  if rest.length = l.replay.length then s
  else
    let before := s.oldCount
    (s.upLport p fun l => { l.restart with
      replay := rest, timeouts := 0
      toReplay := l.toReplay.filter fun q => rest.any fun f => f.seq == q
      state := if l.state = .replay && (l.toReplay.filter fun q => rest.any fun f => f.seq == q).isEmpty then .up
        else l.state }).settleOld before

/-- A credit report taken (R209): returned is the change in the reported count modulo 16,384. -/
def State.takeCredit (s : State) (p v count : Nat) : State :=
  s.upLinkVl p v fun c => { c with
    debited := c.debited - modSub 16384 count c.reported, reported := count }

/-- The receiver's seven counts of flits freed (R201). -/
def State.freedCounts (s : State) (p : Nat) : List Nat := (List.range 7).map fun v => (s.linkVl p v).freed

/-- A link protocol error (R207). -/
def State.linkProtocol (s : State) (p : Nat) : State :=
  (s.upLnk fun l => { l with intStatus := setFlag l.intStatus 3 }).raise 128 (.port p)

/-- A frame that has started is closed with the abort marker (R105, R198): a last continuation flit. -/
def abortMark (b : BufPkt) : Out :=
  .abortMark b.output b.vl b.pkt (syncOf (tagBits { kind := 0, vl := b.vl, last := true, abort := true }))

/-- The copies of a packet that cut-through has already forwarded end here: those that have started are
closed with an abort marker, and their cells are freed (R105, R207). -/
def State.dropCopies (s : State) (pid : Nat) : State :=
  let s := s.upObf fun b => { b with waiting := b.waiting.filter fun w => w.pkt.pid != pid }
  (s.obf.pkts.filter fun b => b.pkt.pid == pid).foldl (fun s b =>
    let s := if b.started then
        ((s.emit (abortMark b)).upEgs fun e => { e with
          intStatus := setFlag e.intStatus 1
          out := e.out.upd b.output {} fun g => { g with
            sending := g.sending.filter fun x => x.pid != pid
            resume := g.resume.keep fun _ r => r.pid != pid } }).frameSent b.output pid true
      else s
    s.freePkt b) s

/-- The open frame of a VL is discarded (R207). -/
def State.dropOpen (s : State) (p v : Nat) : State :=
  match (s.linkVl p v).openFrame with
  | none => s
  | some o =>
    let s := s.upLinkVl p v fun c => { c with openFrame := none, held := c.held - (if o.duplicate then 0 else o.flits) }
    match o.pid with
    | none => s
    | some pid => s.dropCopies pid

/-- Every open partial frame of a port is discarded (R207, R215). -/
def State.dropAllOpen (s : State) (p : Nat) : State := (List.range 7).foldl (fun s v => s.dropOpen p v) s

/-- The receiver's decision at a head (R204): the distance of a new frame, none for a duplicate. -/
def LnkPort.judge (l : LnkPort) (seq : Nat) : Option Nat :=
  let d := modSub 65536 seq l.rxExpected
  if 8192 ≤ d || l.rxMap.contains d then none else some d

/-- `e` advanced past every consecutive set bit of the map (R204). -/
def advanceMap (modulus : Nat) : Nat → Nat → List Nat → Nat × List Nat
  | 0, e, m => (e, m)
  | fuel + 1, e, m =>
    if m.contains 0 then
      advanceMap modulus fuel ((e + 1) % modulus) ((m.filter (· ≠ 0)).map (· - 1))
    else (e, m)

/-- A frame accepted (R204). -/
def State.acceptFrame (s : State) (p d : Nat) : State :=
  s.upLport p fun l =>
    let (e, m) := advanceMap 65536 (l.rxMap.length + 1) l.rxExpected (addOnce l.rxMap d)
    { l with rxExpected := e, rxMap := m }

/-! ### Changes of link state (R214) -/

/-- Lanes trained from Down: the link enters Init (R214), with the shares that LINK_SET left for it. -/
def State.enterInit (s : State) (p : Nat) : State :=
  (s.upLport p fun l => { l with
    state := .init, sendInit := true, initDue := false, ackTold := 0, txNext := 0, rxExpected := 0, rxMap := [], replay := []
    toReplay := []
    replaying := none, replayCut := none, timeouts := 0 }).upLport p fun l => { l with
      vls := (List.range 7).foldl (fun (t : Tbl LinkVl) v =>
        let c := t.get v (vlDefault v)
        t.put v { share := c.nextShare, nextShare := c.nextShare }) l.vls }

/-- The replay of every unacknowledged frame begins (R213). A green frame whose first transmission is older
than the residency limit gets its late bit, when the device is Synchronised (R212). -/
def State.enterReplay (s : State) (p : Nat) : State :=
  s.upLport p fun l =>
    let late := fun (f : ReplayFrame) => isGreen f.pkt.hdr && s.synced && s.stale f.stamp
    { l.restart with
      state := if l.replay.isEmpty then .up else .replay
      replay := l.replay.map fun f =>
        if late f then { f with pkt := { f.pkt with hdr := { f.pkt.hdr with late := true } } } else f
      toReplay := l.replay.map (·.seq), replaying := none, replayCut := none }

/-- The link enters Retrain (R214). -/
def State.enterRetrain (s : State) (p : Nat) : State :=
  ((s.upLport p fun l => { l with state := .retrain, toReplay := [], replaying := none, replayCut := none }).upLnk fun l => { l with
    intStatus := setFlag l.intStatus 1 }).tally (evt 2 (32 + p))

/-- The lanes of a port have trained (R214): from Down to Init, from Retrain to Replay. -/
def State.lanesTrained (s : State) (p : Nat) : State :=
  match (s.lport p).state with
  | .down => s.enterInit p
  | .retrain => (s.upLport p fun l => { l with timeouts := 0 }).enterReplay p
  | _ => s

/-- The device becomes Unsynchronised (R71): the loss is reported where it was Synchronised or in Holdover. -/
def State.unsync (s : State) : State :=
  let lost := s.ftu.sync ≠ .unsynchronised
  let s := s.upFtu fun f => { f with sync := .unsynchronised, goodRun := 0, badRun := 0 }
  if lost then (s.upAdm fun a => { a with intStatus := setFlag a.intStatus 3 }).raise 704 else s

/-- The parent port of a device that is no grandmaster is down (R71). -/
def State.parentDown (s : State) (p : Nat) : State :=
  if s.ftu.parentSet && !s.ftu.grandmaster && s.ftu.parentPort = p && s.ftu.sync ≠ .unsynchronised then s.unsync else s

/-- The link goes Down: the replay buffer and every partial frame are discarded, and transport is told of
the sequenced packets lost with them (R215, R224). -/
def State.linkLost (s : State) (p : Nat) : State :=
  let lost := (s.lport p).replay
  let s := s.parentDown p
  let before := s.oldCount
  let s := s.dropAllOpen p
  let s := s.upLport p fun l => { l with
    state := .down, replay := [], toReplay := [], replaying := none, replayCut := none, sendInit := false, initDue := false
    timeouts := 0
    vls := l.vls.mapv fun c => { c with limit := 0, debited := 0, reported := 0 } }
  let s := (lost.filter (·.sequenced)).foldl (fun s f => s.transitNak f.pkt.hdr 3) s
  s.settleOld before

/-- The port leaves the set of ports up (R196). -/
def State.portDown (s : State) (p : Nat) : State :=
  s.upRte fun r => { r with ports := r.ports.upd p {} fun x => { x with up := false } }

/-- On entry to Down from Retrain (R215). -/
def State.linkDown (s : State) (p : Nat) : State :=
  (((s.linkLost p).upLnk fun l => { l with intStatus := setFlag l.intStatus 2 }).fenceAll p).raise
    129 (.port p)

end Sys2Proof.Machine
end

