-- ==== Sys2Proof/Machine/Egress.lean ====
section
/-!
DEFINITION. Egress scheduling (R127 to R141): eligibility, the classes, the yellow hierarchy with its
deficits and shapers, frames started, cut, suspended and resumed, and the marks and late bits that a
header leaves with (R86, R113).
Where the spec leaves a point open: DESIGN CHOICE 7; DEDUCED 23, 126, 130, 153 (notes/assumptions).
-/
namespace Sys2Proof.Machine

/-- An output's egress. -/
def State.egress (s : State) (o : Nat) : Egress := s.egs.out.get o {}

/-- The state with an output's egress changed. -/
def State.upEgress (s : State) (o : Nat) (f : Egress → Egress) : State :=
  s.upEgs fun e => { e with out := e.out.upd o {} f }

/-! ### Shapers (R127, R133, R136) -/

/-- Tokens refilled up to the depth (R133): 1/3,200,000 byte each. -/
def refillTo (tokens : Int) (rate64 : Nat) (since now depth : Nat) : Int :=
  min (3200000 * depth : Nat) (tokens + (rate64 * (now - since) / 64 : Nat))

/-- A shaper refilled to the present (R133). -/
def Shaper.refilled (h : Shaper) (now : Nat) : Shaper :=
  if h.rate = 0 then { h with refillAt := now }
  else { h with tokens := refillTo h.tokens (64 * h.rate) h.refillAt now h.burst, refillAt := now }

/-- A node is eligible only while its tokens are above 0 (R133). -/
def Shaper.open_ (h : Shaper) : Bool := h.rate = 0 || decide (0 < h.tokens)

/-- A packet sent through a shaper (R133). -/
def Shaper.spend (h : Shaper) (len : Nat) : Shaper :=
  if h.rate = 0 then h else { h with tokens := h.tokens - (3200000 * len : Nat) }

/-- An output's own shapers refilled to the present: unreserved green and background (R127, R136). -/
def State.refillEgress (s : State) (o : Nat) : State :=
  let r := s.sideMbps o
  s.upEgress o fun e => { e with
    unresTokens := refillTo e.unresTokens (e.unresShare * r) e.refillAt s.coreTime 4224
    sliceTokens := refillTo e.sliceTokens r e.refillAt s.coreTime 4224
    refillAt := s.coreTime }

/-- VL6 bytes sent in the last 1 us (R79, R127): 1 us is 400,000 units of 1/400 ns. -/
def State.vl6Bytes (s : State) (o : Nat) : Nat :=
  sumOf ((s.egress o).vl6Sent.filter fun e => decide (s.coreTime < e.1 + 400000)) (·.2)

/-! ### Eligibility -/

/-- The cells that must be in the buffer before a packet may be selected (R103). -/
def startThreshold (n rin rout : Nat) : Nat :=
  if rout ≤ rin then 1 else n - (n - 1) * rin / rout

/-- The resume slot of a VL of an output is held, by a frame of its queues or by a replayed one (R139, R213). -/
def State.slotHeld (s : State) (o vl : Nat) : Bool :=
  (s.egress o).resume.has vl || (s.lport o).cutFrame.any fun c => c.1.vl == vl

/-- The resume slot of a VL of an output is held by another frame than a packet's (R139): a frame that has resumed holds
its own until its last flit. -/
def State.slotTaken (s : State) (o vl pid : Nat) : Bool :=
  ((s.egress o).resume.find vl).any (fun r => r.pid != pid) || (s.lport o).cutFrame.any fun c => c.1.vl == vl

/-- The block behind a local output has room for a packet (R128): all but an early flagged packet that finds no entry of the
completion-hold buffer, which waits there (R184). -/
def State.roomAt (s : State) (b : BufPkt) : Bool :=
  let h := b.pkt.hdr
  !h.flagged || decide (s.trn.heldCount < 4096) || (s.recvCtx (recvKey h)).all fun c =>
    h.orderingCount == (if h.ordSeg then c.count1 else c.count0)

/-- What holds a packet for its link, or for the block that receives it (R128): credit at a port, room at a local output. -/
def State.credited (s : State) (b : BufPkt) : Bool :=
  if 32 ≤ b.output then s.roomAt b
  else if s.isNative b.output then s.canStart b.output b.vl (flitsOf b.len)
  else (s.port b.output).train = .ready

/-- A packet is ready but for credit (R128, R132): its start threshold is met (R103), and its VL has no open resume slot (R139,
R140). -/
def State.readyBut (s : State) (b : BufPkt) : Bool :=
  !b.started && decide (0 < b.written) &&
    decide (startThreshold b.cells.length (s.sideMbps b.input) (s.sideMbps b.output) ≤ b.written) &&
    !s.slotHeld b.output b.vl

/-- A packet may be selected (R128). -/
def State.eligible (s : State) (b : BufPkt) : Bool := s.readyBut b && s.credited b

/-- The packets waiting at an output, in order of admission. -/
def State.waitingAt (s : State) (o : Nat) : List BufPkt :=
  s.obf.pkts.filter fun b => b.output == o && !b.started

/-- A packet heads its chain: it is the oldest of its queue and VL that is not being sent (R131). -/
def State.headsChain (s : State) (b : BufPkt) : Bool :=
  (s.obf.pkts.find? fun c => c.queue == b.queue && c.vl == b.vl && !c.started).any fun c => c.pkt.pid == b.pkt.pid

/-- The oldest eligible head of a chain of a queue, of those that `ok` allows (R131). -/
def State.queueHeadOf (s : State) (q : Nat) (ok : BufPkt → Bool) : Option BufPkt :=
  s.obf.pkts.find? fun b => b.queue == q && !b.started && s.eligible b && ok b && s.headsChain b

/-- The head of a queue (R131). -/
def State.queueHead (s : State) (q : Nat) : Option BufPkt := s.queueHeadOf q fun _ => true

/-- The first cell of a packet carries overdue (R117, R118). -/
def State.overdue (s : State) (b : BufPkt) : Bool :=
  ((b.cells.head?.bind fun c => s.obf.cells.find c).map (·.overdue)).getD false

/-- The key by which green packets are ordered (R82, R99): the signed distance of the deadline, negative once it has passed;
a packet that is late or overdue counts as earliest, and its deadline is never compared again (R75, R117). -/
def State.greenKey (s : State) (b : BufPkt) : Int :=
  if b.pkt.hdr.late || s.overdue b then -(2 ^ 40) else s.slack b.pkt.hdr.deadline

/-- The deadline order of green packets (R82): true when `a` goes before `b`. Of equal keys the lower ingress goes first, and
of one ingress the packet that came first. -/
def State.greenBefore (s : State) (a b : BufPkt) : Bool :=
  decide (s.greenKey a < s.greenKey b) || (s.greenKey a == s.greenKey b &&
    (decide (a.input < b.input) || (a.input == b.input && decide (a.no ≤ b.no))))

/-- The green packet that goes first of those that `ok` allows (R82, R137). -/
def State.greenHead (s : State) (o : Nat) (ok : BufPkt → Bool) : Option BufPkt :=
  ((s.waitingAt o).filter fun b => isGreen b.pkt.hdr && s.eligible b && ok b).foldl (fun best b =>
    match best with
    | none => some b
    | some a => if s.greenBefore a b then some a else some b) none

/-! ### The yellow hierarchy (R132) -/

/-- The child after `k` in a node's order. -/
def nextKid (kids : List Nat) (k : Nat) : Nat :=
  ((kids.find? fun x => decide (k < x)).orElse fun _ => kids.head?).getD 0

/-- A child's deficit as the node finds it at a visit: cut to its quantum after a change of its weight (R150). -/
def Child.visited (c : Child) : Child :=
  if c.cut then { c with deficit := min c.deficit (256 * c.weight : Nat), cut := false } else c

/-- Deficit round robin over a node's children (R132): the child that sends next, the children and the visit
after it. `head` is the length of a child's eligible head packet. -/
def drr (now : Nat) (kids : List Nat) (head : Nat → Option Nat) :
    Nat → Tbl Child → Nat × Bool → Option (Nat × Tbl Child × (Nat × Bool))
  | 0, _, _ => none
  | fuel + 1, t, v =>
    if !kids.contains v.1 then drr now kids head fuel t (nextKid kids v.1, false)
    else
      let c := (t.get v.1 {}).visited
      match head v.1 with
      | none => drr now kids head fuel t (nextKid kids v.1, false)
      | some len =>
        if !(c.shaper.refilled now).open_ then drr now kids head fuel t (nextKid kids v.1, false)
        else
          let c := { c with deficit := if v.2 then c.deficit else c.deficit + (256 * c.weight : Nat)
                            shaper := c.shaper.refilled now }
          if (len : Int) ≤ c.deficit then
            some (v.1, t.put v.1 { c with deficit := c.deficit - len, shaper := c.shaper.spend len }, (v.1, true))
          else drr now kids head fuel (t.put v.1 c) (nextKid kids v.1, false)

/-- Rounds that certainly reach a packet: a quantum is at least 256 bytes and a packet at most 4,160. -/
def drrFuel (kids : List Nat) : Nat := 20 * (kids.length + 1)

/-- The subscriber queues of a service node (R129). -/
def State.subscribers (s : State) (o level : Nat) : List Nat :=
  (List.range 5).map (· + (0x100 + 35 * o + 5 * level)) ++
    (s.egs.leaves.filter fun l => l.2.output == o && l.2.sl == level).map (·.1)

/-- The children of a service node as one table: the unbound subscribers and the bound leaves. -/
def State.subTable (s : State) (kids : List Nat) : Tbl Child :=
  kids.foldl (fun (t : Tbl Child) q =>
    t.put q (match s.egs.leaves.find q with | some l => l.child | none => s.egs.subs.get q {})) []

/-- The state with a service node's children put back. -/
def State.putSubs (s : State) (t : Tbl Child) : State :=
  t.foldl (fun s (e : Nat × Child) => s.upEgs fun g => match g.leaves.find e.1 with
    | some l => { g with leaves := g.leaves.put e.1 { l with child := e.2 } }
    | none => if e.2 = {} then g else { g with subs := g.subs.put e.1 e.2 }) s

/-- The packet that a service node sends next of those that `ok` allows, with the node after it (R132). -/
def State.svcPick (s : State) (o level : Nat) (ok : BufPkt → Bool) : Option (BufPkt × Tbl Child × (Nat × Bool)) :=
  let kids := s.subscribers o level
  let visit := (s.egress o).svcVisit.get level (0, false)
  match drr s.coreTime kids (fun q => (s.queueHeadOf q ok).map (·.len)) (drrFuel kids) (s.subTable kids) visit with
  | none => none
  | some (q, t, v) => (s.queueHeadOf q ok).map fun b => (b, t, v)

/-- The yellow packet that an output sends next of those that `ok` allows, and the hierarchy after it (R132, R133). -/
def State.yellowPick (s : State) (o : Nat) (ok : BufPkt → Bool) : Option (BufPkt × State) :=
  let node := (s.egs.port.get o {})
  let shaper := node.shaper.refilled s.coreTime
  if !shaper.open_ then none
  else
    let kids := List.range 7
    let t : Tbl Child := kids.foldl (fun (t : Tbl Child) l => t.put l (s.egs.svc.get (7 * o + l) {})) []
    match drr s.coreTime kids (fun l => (s.svcPick o l ok).map fun r => r.1.len) (drrFuel kids) t (s.egress o).visit with
    | none => none
    | some (l, t, v) =>
      match s.svcPick o l ok with
      | none => none
      | some (b, subs, sv) =>
        let s := s.putSubs subs
        let s := s.upEgs fun g => { g with
          svc := t.foldl (fun (x : Tbl Child) e => if e.2 = {} && !x.has (7 * o + e.1) then x else x.put (7 * o + e.1) e.2) g.svc
          port := if shaper.rate = 0 then g.port else g.port.put o { node with shaper := shaper.spend b.len } }
        some (b, s.upEgress o fun e => { e with visit := v, svcVisit := e.svcVisit.put l sv })

/-- A queue of the yellow hierarchy keeps its deficit: it holds a packet that may go, or that lacks credit alone (R132). -/
def State.keepsDeficit (s : State) (q : Nat) : Bool := s.obf.pkts.any fun b => b.queue == q && s.headsChain b && s.readyBut b

/-- The children of an output's nodes that have become empty or ineligible keep no deficit (R132). -/
def State.settleDeficits (s : State) (o : Nat) : State :=
  let zero := fun (keep : Bool) (c : Child) => if keep then c else { c with deficit := 0 }
  let kept := s.keepsDeficit
  let level := fun (l : Nat) => (s.subscribers o l).any kept
  s.upEgs fun g => { g with
    leaves := g.leaves.map fun e => if e.2.output = o then (e.1, { e.2 with child := zero (kept e.1) e.2.child }) else e
    subs := g.subs.map fun e => if 0x100 + 35 * o ≤ e.1 && decide (e.1 < 0x100 + 35 * (o + 1)) then (e.1, zero (kept e.1) e.2) else e
    svc := g.svc.map fun e => if e.1 / 7 = o then (e.1, zero (level (e.1 % 7)) e.2) else e }

/-! ### Sending -/

/-- A green packet that the device could not judge (R74). -/
def State.countUnjudged (s : State) : State :=
  (s.upAdm fun a => { a with unjudged := a.unjudged + 1 }).tally (evt 9 1)

/-- A frame leaves the egress (R86, R113, R117): congestion mark, late bit or unjudged count. -/
def State.leaveHdr (s : State) (b : BufPkt) : Hdr × State :=
  let h := b.pkt.hdr
  let mark := isYellow h && decide ((s.account b.account).markThreshold ≠ 1048575) &&
    decide ((s.account b.account).markThreshold < s.queuedOn b.account - b.cells.length)
  let h := if mark then { h with mark := true } else h
  if isGreen h && !h.late then
    if s.synced then
      let late := s.overdue b || (decide (b.output < 32) && decide (s.slack h.deadline < 0))
      ({ h with late }, if late then s.tally (evt 9 3) else s)
    else (h, s.countUnjudged)
  else (h, s)

/-- The time that an egress port writes into a synchronisation packet as its first bit leaves (R70, R466): t1 or t3. -/
def stampTime (p : Packet) (now : Nat) : Packet :=
  match p.fields with
  | [n, z, _] => if p.hdr.opcode = 0xC3 then { p with fields := [n, z, now] } else p
  | [n, depth, z, t2, _] => if p.hdr.opcode = 0xC4 then { p with fields := [n, depth, z, t2, now] } else p
  | _ => p

/-- The requester keeps the t1 that its request left with (R70). -/
def State.keepT1 (s : State) (port : Nat) (p : Packet) : State :=
  if p.hdr.opcode ≠ 0xC3 then s
  else s.upFtu fun f => { f with ports := f.ports.upd port {} fun x =>
      if x.outstanding = p.fields.head? then { x with t1 := f.time } else x }

/-- A packet starts to leave (R128): its cells are being read, its header is final, and it is framed at a
native port. -/
def State.startSend (s : State) (b : BufPkt) : State :=
  let (h, s) := s.leaveHdr b
  let s := s.upBufPkt b.pkt.pid b.output fun x => { x with started := true, pkt := { x.pkt with hdr := h } }
  let s := b.cells.foldl (fun s c => s.upCell c fun t => if t.state = .linked then { t with state := .reading } else t) s
  let s := s.upEgress b.output fun e => { e with
    sending := some { pid := b.pkt.pid, progress := 0 }
    vl6Sent := if b.vl = 6 then (s.coreTime, b.len) :: e.vl6Sent.filter fun x => decide (s.coreTime < x.1 + 400000)
      else e.vl6Sent }
  let pkt := stampTime { b.pkt with hdr := h } s.ftu.time
  let s := s.keepT1 b.output pkt
  if 32 ≤ b.output then
    -- transport control takes no flagged bit, and belongs to no stream (R178)
    let stray := h.flagged && decide (0x80 ≤ h.opcode) && decide (h.opcode < 0xA0)
    (if stray then s.tally (evt 4 0) else s).emit (.delivered b.output (if stray then { pkt with hdr := { h with flagged := false } } else pkt))
  else if s.isNative b.output then s.startFrame b.output b.vl pkt b.len b.sequenced
  else s.emit (.frame b.output b.vl 0 (flitsOf b.len) pkt false none)

/-- The frame that an output sends has reached its end: its cells are freed (R212), and its resume slot (R139). -/
def State.endFrame (s : State) (o : Nat) (b : BufPkt) : State :=
  let before := s.oldCount
  let s := s.upEgress o fun e => { e with sending := none, resume := e.resume.keep fun _ r => r.pid != b.pkt.pid }
  let s := if decide (o < 32) && s.isNative o then s.frameSent o b.pkt.pid false else s
  (s.freePkt b).settleOld before

/-- The frame that an output sends lacks its next cell: it is suspended at its next boundary (R104), once its VL's resume
slot holds no other frame (R125). -/
def State.suspendFrame (s : State) (o : Nat) (b : BufPkt) : State :=
  if s.slotTaken o b.vl b.pkt.pid then s
  else (s.upEgress o fun e => { e with
    sending := none
    resume := e.resume.put b.vl { queue := b.queue, pid := b.pkt.pid, firstCell := b.cells.head?.getD 0
                                  progress := min (flitsOf b.len) (4 * b.written), stalled := true } }).upEgs
    fun g => { g with intStatus := setFlag g.intStatus 0 }

/-- A frame boundary of an output: the frame being sent ends, a background frame among them, or is suspended for want of a
cell. -/
def State.boundary (s : State) (o : Nat) : State :=
  match (s.egress o).sending with
  | none => s.upEgress o fun e => { e with backSending := none }
  | some f =>
    match s.bufPkt f.pid o with
    | none => s.upEgress o fun e => { e with sending := none }
    | some b => if b.written < b.cells.length then s.suspendFrame o b else s.endFrame o b

/-- A suspended frame goes on from its progress count (R138, R104); it holds its slot until its last flit is sent (R139). -/
def State.resumeSend (s : State) (o vl : Nat) : State :=
  match (s.egress o).resume.find vl with
  | none => s
  | some r => s.upEgress o fun e => { e with
      sending := some { pid := r.pid, progress := r.progress }, resume := e.resume.put vl { r with resumed := true } }

/-- The cell that a suspended frame waits for has arrived (R104). -/
def State.canResume (s : State) (o : Nat) (r : ResumeSlot) : Bool :=
  match s.bufPkt r.pid o with
  | none => false
  | some b => !r.resumed && (!r.stalled || b.written = b.cells.length || decide (r.progress < 4 * b.written))

/-- A control packet may cut the frame of a packet: its class is not lower than the frame's, and in compatibility mode
it is management (R79, R138, R145). -/
def State.mayCut (s : State) (o : Nat) (ctl frame : Hdr) : Bool :=
  !ctl.data && frame.data &&
    (isMgmt ctl || (!(s.arbs.arb.get o {}).compat && !isMgmt frame && (isGreen ctl || !isGreen frame)))

/-- The class of an eligible management packet, while the window of R79 has room. -/
def State.mgmtHead (s : State) (o : Nat) : Option BufPkt :=
  (s.queueHead (0x40 + o)).filter fun b => decide (s.vl6Bytes o + b.len ≤ 512)

/-- A packet is unreserved green at its output (R84, R136). -/
def State.unresHeld (s : State) (o : Nat) (b : BufPkt) : Bool := b.unreserved && decide ((s.egress o).unresTokens ≤ 0)

/-- A green packet takes its tokens of the unreserved-green shaper when it is selected (R133, R136). -/
def State.spendGreen (s : State) (o : Nat) (b : BufPkt) : State :=
  if b.unreserved then s.upEgress o fun e => { e with unresTokens := e.unresTokens - (3200000 * b.len : Nat) } else s

/-- A green packet waits at an output that its shaper does not hold: a yellow control packet does not go before it (R79). -/
def State.greenWaits (s : State) (o : Nat) : Bool := (s.greenHead o fun b => !s.unresHeld o b).isSome

/-- The control packet that goes before the rest of a cut frame, and the state it is sent from: management, then green,
then yellow (R79, R138, R141). -/
def State.cutter (s : State) (o : Nat) (frame : Hdr) : Option (BufPkt × State) :=
  match (s.mgmtHead o).filter fun b => s.mayCut o b.pkt.hdr frame with
  | some b => some (b, s)
  | none =>
    match s.greenHead o fun b => s.mayCut o b.pkt.hdr frame && !s.unresHeld o b with
    | some b => some (b, s.spendGreen o b)
    | none => if s.greenWaits o then none else s.yellowPick o fun b => s.mayCut o b.pkt.hdr frame

/-- The state from which a named control packet is sent that cuts a frame: it is the one that goes first of those that may
cut it (R79, R127, R131, R136 to R138, R141). `s` holds the frame in its VL's resume slot. -/
def State.cutBy (s : State) (o : Nat) (c : BufPkt) (frame : Hdr) : Option State :=
  match s.cutter o frame with
  | some (b, t) => if b.pkt.pid = c.pkt.pid then some t else none
  | none => none

/-- The next replayed frame of a port starts (R213); after the last, the link is Up again. -/
def State.replayNext (s : State) (p : Nat) : State :=
  let l := s.lport p
  match l.toReplay with
  | [] => s
  | q :: rest =>
    let s := s.upLport p fun l => { l with toReplay := rest, replaying := some q, state := if rest.isEmpty then .up else l.state }
    match l.replay.find? fun f => f.seq == q with
    | none => s
    | some f => s.putFrame p f

/-- The oldest background frame of an output starts, at the cost of its slice (R44, R127). -/
def State.sendBackground (s : State) (o : Nat) : State :=
  match (s.egress o).background with
  | [] => s
  | n :: rest => (s.upEgress o fun e => { e with
      background := rest, backSending := some n, sliceTokens := e.sliceTokens - (3200000 * n : Nat) }).emit
      (.background o (0x80 + o) n)

/-- A background frame may be sent: one waits, and the port's link runs (R128). -/
def State.backgroundReady (s : State) (o : Nat) : Bool :=
  !(s.egress o).background.isEmpty && (decide (32 ≤ o) || (s.port o).train = .ready)

/-- Background frames put to an output's queue (R129, R536). -/
def State.queueBackground (s : State) (o : Nat) (lens : List Nat) : State :=
  s.upEgress o fun e => { e with background := e.background ++ lens }

/-- Selection at a frame boundary (R127, R128, R136): management, green, background in its slice, yellow,
background beyond it. -/
def State.select (s : State) (o : Nat) : State :=
  let e := s.egress o
  match s.mgmtHead o with
  | some b => s.startSend b
  | none =>
    let free := fun b => !s.unresHeld o b
    let held := (s.greenHead o fun b => s.unresHeld o b).isSome
    let s := if held then s.upEgs fun g => { g with intStatus := setFlag g.intStatus 2 } else s
    match s.greenHead o free with
    | some b =>
      (s.spendGreen o b).startSend b
    | none =>
      if s.backgroundReady o && decide (0 < e.sliceTokens) then s.sendBackground o
      else match s.yellowPick o fun _ => true with
        | some (b, s) => s.startSend b
        | none => if s.backgroundReady o then s.sendBackground o else s

/-- A packet that the reordering injection counts (R229). -/
def reorders (b : BufPkt) : Bool := b.sequenced && !b.pkt.hdr.multicast

/-- A selection that passes over one packet (R229). -/
def State.selectPast (s : State) (o pid : Nat) : State :=
  let u := (s.upBufPkt pid o fun x => { x with started := true }).select o
  u.upBufPkt pid o fun x => { x with started := false }

/-- The packet that an output has just begun to send. -/
def State.sendingPkt (s : State) (o : Nat) : Option BufPkt :=
  (s.egress o).sending.bind fun f => s.bufPkt f.pid o

/-- Selection with the reordering injection of R229: such packets are taken in pairs, and the first of every nth pair is held
until the next such packet has been sent ahead of it. The pair is counted when both have left. -/
def State.selectInjected (s : State) (o : Nat) : State :=
  let i := (s.lport o).inject
  let put := fun (s : State) (half : Bool) (held : Option Nat) => s.upLport o fun l => { l with inject := { l.inject with half, held } }
  let sent := fun (s : State) => ((s.sendingPkt o).map reorders).getD false
  match i.held with
  | some pid =>
    let t := s.selectPast o pid
    if sent t then put t true none else t
  | none =>
    let t := s.select o
    if i.kind ≠ 4 || !sent t then t
    else if i.half then put (t.countInject o).2 false none
    else if i.seen + 1 < i.n then put t true none
    else
      let pid := ((t.egress o).sending.map (·.pid)).getD 0
      let v := s.selectPast o pid
      if sent v then put v true none else put v true (some pid)

/-- What goes out at a frame boundary (R128, R138, R213): the rest of a cut frame once no packet that may cut it is
eligible, a replayed frame before what is not replayed, then a selection. -/
def State.selectOut (s : State) (o : Nat) : State :=
  let s := (((s.boundary o).replayOver o).refillEgress o).settleDeficits o
  State.settleDeficits (s := match (s.lport o).cutFrame with
  | some (f, _) =>
    match s.cutter o f.pkt.hdr with
    | some (b, t) => t.startSend b
    | none => s.upLport o fun l => { l with replaying := some f.seq, replayCut := none }
  | none =>
    if decide (o < 32) && !(s.lport o).toReplay.isEmpty then s.replayNext o
    else
      match (s.egress o).resume.find? fun r => s.canResume o r.2 with
      | some (vl, r) =>
        match s.cutter o (((s.bufPkt r.pid o).map (·.pkt.hdr)).getD {}) with
        | some (b, t) => t.startSend b
        | none => s.resumeSend o vl
      | none => s.selectInjected o) o

/-- The frame that an output sends is cut: its VL's resume slot holds it (R138, R139). -/
def State.holdFrame (s : State) (o : Nat) (b : BufPkt) (progress : Nat) : State :=
  s.upEgress o fun e => { e with
    sending := none
    resume := e.resume.put b.vl { queue := b.queue, pid := b.pkt.pid, firstCell := b.cells.head?.getD 0
                                  progress, stalled := false } }

/-- The replayed frame on the wire is cut (R213). -/
def State.holdReplay (s : State) (o : Nat) (f : ReplayFrame) (progress : Nat) : State :=
  s.upLport o fun l => { l with replaying := none, replayCut := some (f.seq, progress) }

/-- A control packet goes before the rest of the background frame that an output sends, at a 64-byte boundary (R45, R138):
the rest waits at the head of its queue. -/
def State.cutBackground (s : State) (o : Nat) (c : BufPkt) (progress : Nat) : State :=
  match (s.egress o).backSending with
  | none => s
  | some n =>
    if n ≤ 64 * progress then s
    else
      match (((s.refillEgress o).upEgress o fun e => { e with
          background := (n - 64 * progress) :: e.background, backSending := none
          sliceTokens := e.sliceTokens + (3200000 * (n - 64 * progress) : Nat) })).cutBy o c { data := true } with
      | none => s
      | some t => t.startSend c

/-! ### Link control flits (R201, R202) -/

/-- A frame flit is ready for a port's next flit slot (R202): a frame is being sent, replayed or cut, or a packet may be
selected. -/
def State.flitReady (s : State) (p : Nat) : Bool :=
  (s.egress p).sending.isSome || (s.egress p).backSending.isSome || !(s.lport p).toReplay.isEmpty || (s.lport p).replaying.isSome ||
    ((s.waitingAt p).any s.eligible)

/-- A link control flit (R201): subtype 0 reports what has been accepted and freed, subtype 1 the receive shares. -/
def State.sendControl (s : State) (p subtype : Nat) : State :=
  let counts := if subtype = 1 then (List.range 7).map fun v => (s.linkVl p v).share else s.freedCounts p
  let s := s.emit (.controlFlit p (controlFlit subtype (s.lport p).rxExpected counts))
  if subtype = 1 then s.upLport p fun l => { l with initDue := false, ackTold := l.rxExpected } else s.told p (List.range 7)

/-- A native port's flit slot (R202): with no frame flit ready it takes the link control flit that is due, of initialisation
(R214), or of an acknowledgement or freed flits that the far end has not been told of; a port in port idle leaves it for that
(DEDUCED 153). -/
def State.controlSlot (s : State) (p : Nat) : State :=
  let l := s.lport p
  if s.flitReady p then s
  else if l.initDue then (s.upPort p fun x => { x with txIdle := false }).sendControl p 1
  else if (l.state = .up || l.state = .replay) && (l.ackTold != l.rxExpected || !(s.untold p).isEmpty) then
    (s.upPort p fun x => { x with txIdle := false }).sendControl p 0
  else s

/-- A control packet cuts the data frame that an output sends, at a boundary (R138, R139, R141): `progress` flits of the
frame have gone. A replayed frame is cut like another (R213). -/
def State.cutFrame (s : State) (o pid progress : Nat) : State :=
  let r := s.refillEgress o
  match r.bufPkt pid o, (r.egress o).sending with
  | none, _ => s
  | some c, some f =>
    match r.bufPkt f.pid o with
    | none => s
    | some b =>
      if r.slotTaken o b.vl f.pid || decide (flitsOf b.len ≤ progress) || decide (progress < f.progress) then s
      else
        match (r.holdFrame o b progress).cutBy o c b.pkt.hdr with
        | none => s
        | some t => t.startSend c
  | some c, none =>
    match (r.lport o).replaying.bind fun q => (r.lport o).replay.find? fun f => f.seq == q with
    | none => s.cutBackground o c progress
    | some f =>
      if r.slotHeld o f.vl || decide (f.flits ≤ progress) then s
      else
        match (r.holdReplay o f progress).cutBy o c f.pkt.hdr with
        | none => s
        | some t => t.startSend c

/-- A frame that an output holds suspended or cut is closed with an abort marker (R105, R151): its cells are
freed, and transport is told. -/
def State.abortFrame (s : State) (o : Nat) (b : BufPkt) : State :=
  let before := s.oldCount
  let s := ((s.emit (abortMark b)).upEgs fun e => { e with intStatus := setFlag e.intStatus 1 }).upEgress o
    fun e => { e with sending := e.sending.filter fun x => x.pid != b.pkt.pid
                      resume := e.resume.keep fun _ r => r.pid != b.pkt.pid }
  let s := if decide (o < 32) && s.isNative o then s.frameSent o b.pkt.pid true else s
  let s := (s.freePkt b).settleOld before
  if b.sequenced then s.transitNak b.pkt.hdr 2 else s

/-- The frames of an output that are cut or suspended are aborted, as when its rate changes (R151). -/
def State.abortCut (s : State) (o : Nat) : State :=
  (s.egress o).resume.foldl (fun s (r : Nat × ResumeSlot) =>
    match s.bufPkt r.2.pid o with | some b => s.abortFrame o b | none => s) s

/-- The suspended frames whose ingress port is contained are aborted (R105). -/
def State.abortFrom (s : State) (input : Nat) : State :=
  (s.obf.pkts.filter fun b => b.input == input && b.started && decide (b.written < b.cells.length)).foldl
    (fun s b => s.abortFrame b.output b) s

end Sys2Proof.Machine
end

