-- ==== Sys2Proof/Machine/Ports.lean ====
section
/-!
DEFINITION. Training of native ports (R243 to R246), reservations against a port's rate (R54 to R56),
live substitution of lanes (R252 to R254) and rate steps (R255, R256).
Where the spec leaves a point open: DESIGN CHOICE 133; DEDUCED 30, 159, 161 (notes/assumptions).
-/
namespace Sys2Proof.Machine

/-! ### Lanes -/

/-- A physical lane (R4). -/
def State.lane (s : State) (l : Nat) : Lane := s.prt.lanes.get l {}

/-- The state with a physical lane changed. -/
def State.upLane (s : State) (l : Nat) (f : Lane → Lane) : State :=
  s.upPrt fun t => { t with lanes := t.lanes.upd l {} f }

/-- The logical lane that uses a physical lane; 0xF none (R269). -/
def State.logicalOf (s : State) (l : Nat) : Nat := (s.lane l).logical.getD (l % 9)

/-- The physical lane of a port that a logical lane uses, of its 9 (R4, R243): its own at reset. -/
def State.physicalOf (s : State) (p k : Nat) : Nat :=
  (((List.range 9).map (9 * p + ·)).find? fun l => s.logicalOf l == k).getD (9 * p + k)

/-! ### Reservations of a port -/

/-- Committed rates reserved on a port, in Mb/s (R54). -/
def State.reservedOn (s : State) (p : Nat) : Nat :=
  sumOf (s.adm.contracts.filter fun c => lists c.2.p.egressPorts p) (fun c => c.2.p.committed) +
    sumOf (s.adm.resvs.filter fun r => !r.2.p.destination && lists r.2.p.egressPorts p) fun r => r.2.p.committed

/-- A port's reservations (R55). -/
def State.admPort (s : State) (p : Nat) : AdmPort := s.adm.ports.get p {}

/-- A sum of committed rates fits in a port's reservable fraction of a rate (R54, R55). -/
def State.fits (s : State) (p sum rate : Nat) : Bool := decide (64 * sum ≤ (s.admPort p).fraction * rate)

/-- A hop reservation or contract lists the port. -/
def State.portListed (s : State) (p : Nat) : Bool :=
  s.adm.contracts.any (fun c => lists c.2.p.egressPorts p) ||
    s.adm.resvs.any fun r => !r.2.p.destination && lists r.2.p.egressPorts p

/-- A port enters the overcommitted state: one event of the device's level source (R56). -/
def State.enterOvercommit (s : State) (p : Nat) : State :=
  let s := s.upAdm fun a => { a with
    ports := a.ports.upd p {} fun x => { x with overcommit := true }, intStatus := setFlag a.intStatus 4 }
  (s.upFault 576 fun f => { f with active := true }).raise 576 (.port p)

/-- A port leaves the overcommitted state (R56): the source is active while any port is overcommitted. -/
def State.leaveOvercommit (s : State) (p : Nat) : State :=
  let s := s.upAdm fun a => { a with ports := a.ports.upd p {} fun x => { x with overcommit := false } }
  if s.adm.ports.any fun x => x.2.overcommit then s else s.lower 576

/-- A port has trained (R56). -/
def State.settleTrained (s : State) (p before : Nat) : State :=
  let rate := s.trainedMbps p
  let o := (s.admPort p).overcommit
  if s.fits p (s.reservedOn p) rate then (if o then s.leaveOvercommit p else s)
  else if decide (rate < before) && !o then s.enterOvercommit p else s

/-- Reservations of a port have been released or changed (R56). A raised fraction, and a CONTRACT_MODIFY, are taken as releases, and
an untrained port is judged at the rate at which it last trained (DESIGN CHOICE 133). -/
def State.settleReleased (s : State) (p : Nat) : State :=
  if (s.admPort p).overcommit && s.fits p (s.reservedOn p) (s.judgedMbps p) then s.leaveOvercommit p else s

/-! ### Training (R243 to R246) -/

/-- CRC-8, polynomial 0x07, initial value 0, over the lowest `n` bits, highest bit first (R244, R251). -/
def crc8 (v : Nat) : Nat → BitVec 8 → BitVec 8
  | 0, c => c
  | n + 1, c => crc8 v n (if (c.getLsbD 7) != v.testBit n then (c <<< 1) ^^^ 0x07#8 else c <<< 1)

/-- A training sequence is good: its marker and its crc hold (R244). -/
def seqOk (q : BitVec 128) : Bool :=
  bitsOf q.toNat 15 0 == 0x5A3C && (crc8 q.toNat 120 0).toNat == bitsOf q.toNat 127 120

/-- A lane-management message's crc holds (R251). -/
def msgOk (m : BitVec 64) : Bool := (crc8 m.toNat 56 0).toNat == bitsOf m.toNat 63 56

/-- The fields of a lane-management message (R251): lane, rate, width and codeword. -/
def msgLane (m : BitVec 64) : Nat := bitsOf m.toNat 11 8
def msgRate (m : BitVec 64) : Nat := bitsOf m.toNat 15 12
def msgWidth (m : BitVec 64) : Nat := bitsOf m.toNat 18 16
def msgCodeword (m : BitVec 64) : Nat := bitsOf m.toNat 42 19

/-- A lane-management message (R251). -/
def laneMessage (type lane rate width codeword : Nat) : BitVec 64 :=
  let body := packBits [(type, 8), (lane, 4), (rate, 4), (width, 3), (codeword, 24), (0, 13)]
  BitVec.ofNat 64 (body + 2 ^ 56 * (crc8 body 56 0).toNat)

/-- A message sent on the port's lane-management channel (R250). -/
def State.sendLaneMsg (s : State) (p type lane rate width codeword : Nat) : State :=
  s.emit (.laneMsg p (laneMessage type lane rate width codeword))

/-- The number of a training state (R269). -/
def trainNum : TrainState → Nat
  | .detect => 0
  | .sync => 1
  | .negotiate => 2
  | .equalise => 3
  | .lock => 4
  | .ready => 5
  | .backoff => 6
  | .step => 7
  | .disabled => 8

/-- The rate and width of a port in reefed mode (R507): at most 1.6 Tb/s. -/
def reefedTarget (form rate width : Nat) : Nat × Nat :=
  if linkRate rate width ≤ 1600000 then (rate, width)
  else if form = 0 then (min 3 rate, width) else (rate, min 2 width)

/-- The device is in storm jib, or its ports step down for it (R508). -/
def State.jibbed (s : State) : Bool :=
  s.pwr.mode = .stormJib || s.pwr.change.any fun c => c.target == .stormJib && !c.draining

/-- The highest rate and width codes of a port in a mode other than storm jib (R38, R507). -/
def State.sailLimit (s : State) (p : Nat) : Nat × Nat :=
  let x := s.port p
  let rate := min 4 x.maxRate
  let width := min 3 x.width
  let mode := if s.pwr.mode = .stormJib then s.pwr.modeLeft else s.pwr.mode
  match s.pwr.change.bind fun c => if c.target == .reefed then some c.reefForm else none with
  | some form => reefedTarget form rate width
  | none => if mode = .reefed then reefedTarget s.pwr.reefForm rate width else (rate, width)

/-- The highest rate and width codes at which a port trains now (R38, R255): its step's target too. -/
def State.trainLimit (s : State) (p : Nat) : Nat × Nat :=
  let top := if s.jibbed then (0, 0) else s.sailLimit p
  match (s.port p).stepTarget with
  | some (r, w) => (min r top.1, min w top.2)
  | none => top

/-- The bits of the codes up to a limit. -/
def codesTo (n : Nat) : Nat := 2 ^ (n + 1) - 1

/-- A logical lane is good here (R243, R245, R568): the far end sends it on a lane that has passed Sync, has not failed, and is
calibrated. -/
def State.goodLane (s : State) (p k : Nat) : Bool :=
  (s.port p).synced.any fun e => e.2 == k && !(s.port p).failedLanes.contains e.1 && !(s.lane (9 * p + e.1)).calibFailed

/-- The lane that the spare replaces where good lanes fill a width, by its code (R245); none where they do not. -/
def placeAt (good : Nat → Bool) (w : Nat) : Option (Option Nat) :=
  match (List.range (2 ^ w)).filter fun k => !good k with
  | [] => some none
  | [k] => if good 8 then some (some k) else none
  | _ => none

/-- The widths that a port offers, one bit each (R244, R245; DEDUCED 159): those up to a limit that its good lanes fill, once Sync has found
them. -/
def State.offeredWidths (s : State) (p limit : Nat) : Nat :=
  if (s.port p).synced.isEmpty then codesTo limit
  else ((List.range (limit + 1)).filter fun w => (placeAt (s.goodLane p) w).isSome).foldl (fun m w => m + 2 ^ w) 0

/-- The training sequence that a port sends on a lane (R244). -/
def State.trainSeq (s : State) (p k : Nat) : BitVec 128 :=
  let x := s.port p
  let l := s.lane (9 * p + k)
  let top := s.trainLimit p
  let body := packBits [(0x5A3C, 16), (k, 4), (p, 5), (trainNum x.train, 3), (codesTo top.1, 5), (s.offeredWidths p top.2, 4),
    (b2n !x.spareFailed, 1), (b2n (Config.wantsPrecode p), 1), (b2n (x.goodSeqs.any fun g => decide (16 ≤ g.2)), 1),
    (if x.train = .equalise then Config.coeffRequest (9 * p + k) l.margin else 0, 6), (l.coeffStatus, 6),
    (Config.coeffPreset (9 * p + k), 4), (0, 64)]
  BitVec.ofNat 128 (body + 2 ^ 120 * (crc8 body 120 0).toNat)

/-- A native port in training sends its sequences on its nine lanes (R243). -/
def State.sendSequences (s : State) (p : Nat) : State :=
  match (s.port p).train with
  | .detect | .sync | .negotiate | .equalise =>
    if s.isNative p then s.emit (.sequence p ((List.range 9).map (s.trainSeq p))) else s
  | _ => s

/-- A port enters a training state. Codewords are numbered from its entry to Lock (R251). -/
def State.setTrain (s : State) (p : Nat) (t : TrainState) : State :=
  ((s.upPort p fun x => { x with
    train := t, codeword := if t = .lock then 0 else x.codeword, codewordPart := if t = .lock then 0 else x.codewordPart }).emit
    (.training p t)).sendSequences p

/-- Training starts at Detect with nothing known (R243). -/
def State.startDetect (s : State) (p : Nat) : State :=
  ((s.refillEgress p).upPort p fun x => { x with
    trainedRate := none, trainedWidth := none, failedLanes := [], synced := [], acks := [], goodSeqs := [], offer := none, agreed := none, quick := false
    renegotiated := false, subst := none, subWait := [], step := none, stepHeld := none, stepTarget := none
    subState := .idle, channelOk := false, txIdle := false, rxIdle := false, draining := false }).setTrain p .detect

/-- Training enters Sync (R243, R246). -/
def State.startSync (s : State) (p : Nat) (quick : Bool) : State :=
  (s.upPort p fun x => { x with
    synced := [], acks := [], goodSeqs := [], quick, subst := none, subWait := [], subState := .idle
    step := none, stepHeld := none, txIdle := false, rxIdle := false }).setTrain p .sync

/-- The link of an Up port enters Retrain, and its lanes a quick retrain (R214, R246); a step under way leaves
its target to be trained at (R255). -/
def State.retrainPort (s : State) (p : Nat) : State :=
  let st := (s.lport p).state
  if st = .up || st = .replay then
    let target := (s.port p).step.map fun t => (t.rate, t.width)
    ((s.enterRetrain p).upPort p fun x => { x with stepTarget := target.orElse fun _ => x.stepTarget }).startSync p true
  else s

/-- The highest code that both masks have. -/
def highestCommon (a b : Nat) : Option Nat := ((List.range 5).filter fun k => a.testBit k && b.testBit k).getLast?

/-- Rate and width chosen from the far end's offer under limits, and the lane that the spare replaces (R245). -/
def State.choose (s : State) (p rates widths : Nat) (top : Nat × Nat) : Option (Nat × Nat × Option Nat) :=
  match highestCommon (codesTo top.1) rates, highestCommon (s.offeredWidths p top.2) widths with
  | some r, some w => (placeAt (s.goodLane p) w).map fun spare => (r, w, spare)
  | _, _ => none

/-- Failed attempt (R243): Backoff of 1 ms, doubling up to 64 ms. -/
def State.enterBackoff (s : State) (p : Nat) : State :=
  let s := (s.upPort p fun x => { x with backoffs := min 6 (x.backoffs + 1) }).setTrain p .backoff
  (s.upPrt fun t => { t with intStatus := setFlag t.intStatus 1 }).raise 65 (.port p)

/-- The logical lane that the far end sends on a physical lane of a port, as Sync found it (R243); 15 where its number is
another lane's. -/
def Port.laneId (x : Port) (j : Nat) : Nat :=
  match x.synced.find? (·.1 == j) with
  | some e => e.2
  | none => if x.synced.any (·.2 == j) then 15 else j

/-- Lanes as a full training places them (R243, R245, R269): the spare carries the lane that it replaces. -/
def State.assignLanes (s : State) (p : Nat) (spare : Option Nat) : State :=
  (List.range 9).foldl (fun s j =>
    let k := (s.port p).laneId j
    let u := if k = 8 then spare.getD 8 else if spare = some k then 15 else k
    s.upLane (9 * p + j) fun l => { l with
      logical := if u = j then none else some u, retired := false, polarity := Config.polarityInverted (9 * p + j) }) s

/-- Agreement with the far end's offer (R38, R245): what the port would run outside reefed mode or storm jib is kept for the steps
back (R256, R507; DEDUCED 161). -/
def State.negotiate (s : State) (p : Nat) : State :=
  match (s.port p).offer with
  | none => s
  | some (rates, widths, spareOk) =>
    let top := (min 4 (s.port p).maxRate, min 3 (s.port p).width)
    let kept := fun (c : Option (Nat × Nat × Option Nat)) => c.map fun c => (c.1, c.2.1)
    match s.choose p rates widths (s.trainLimit p) with
    | some (r, w, spare) =>
      ((s.upPort p fun y => { y with
        agreed := some (r, w), spareFor := spare, spareFailed := !(s.goodLane p 8 && spareOk)
        preStorm := if s.jibbed then kept (s.choose p rates widths (s.sailLimit p)) else y.preStorm
        preReef := if s.sailLimit p = top then y.preReef else kept (s.choose p rates widths top) }).assignLanes p spare).setTrain p
        .equalise
    | none => s.enterBackoff p

/-- The lane-management channel has a lane (R250): the free spare while it is good, else the retired lane while it has signal. -/
def State.channelLane (s : State) (p : Nat) : Bool :=
  match (s.port p).spareFor with
  | none => !(s.port p).spareFailed
  | some _ => (List.range 9).any fun j => (s.lane (9 * p + j)).retired && !(s.lane (9 * p + j)).los

/-- A lane that carried the channel may have failed: without another the port has none (R250). -/
def State.checkChannel (s : State) (p : Nat) : State :=
  s.upPort p fun x => { x with channelOk := x.channelOk && s.channelLane p }

/-- The receiving direction takes a lane from the spare (R246, R253, R269): it is retired where a substitution did so. -/
def State.laneToSpare (s : State) (p k : Nat) (retired : Bool) : State :=
  let lane := s.physicalOf p k
  let spare := s.physicalOf p 8
  let s := s.upPort p fun x => { x with spareFor := some k }
  (s.upLane spare fun l => { l with logical := some k }).upLane lane fun l => { l with logical := some 15, retired }

/-- The receiving direction gives a lane back from the spare (R254, R269). -/
def State.laneFromSpare (s : State) (p k : Nat) : State :=
  let spare := s.physicalOf p k
  let lane := (((List.range 9).map (9 * p + ·)).find? fun l => (s.lane l).retired).getD (9 * p + k)
  let s := s.upPort p fun x => { x with spareFor := none }
  (s.upLane spare fun l => { l with logical := some 8 }).upLane lane fun l => { l with logical := some k, retired := false }

/-- Active lanes of a port have failed while it retrains or locks (R241, R246): the free and good spare takes one; with more, or
without it, the port goes back to Negotiate. With none, it goes on to the state `next`. -/
def State.lanesFail (s : State) (p : Nat) (bad : List Nat) (next : TrainState) : State :=
  let x := s.port p
  let back := (s.upPort p fun y => { y with
    quick := false, offer := none, failedLanes := (bad.map fun k => s.physicalOf p k % 9).foldl addOnce y.failedLanes }).setTrain p
    .negotiate
  match bad with
  | [] => s.setTrain p next
  | [k] => if x.spareFor.isNone && !x.spareFailed then (s.laneToSpare p k false).setTrain p next else back
  | _ => back

/-- A native port reaches Ready at a rate and width (R243, R245). -/
def State.portReady (s : State) (p rate width skew : Nat) : State :=
  let old := (s.port p).lastTrained
  let before := s.judgedMbps p
  let spare := (s.port p).spareFor
  let changed := (s.port p).trainedRate ≠ some rate || (s.port p).trainedWidth ≠ some width
  let s := if changed then (s.abortCut p).refillEgress p else s
  let s := s.upPort p fun x => { x with
    trainedRate := some rate, trainedWidth := some width, lastTrained := some (rate, width), skew, backoffs := 0
    txSpareFor := spare, channelOk := s.channelLane p, stepTarget := none, quick := false
    preStorm := if rate = 0 && width = 0 then x.preStorm else none
    stepped := decide (rate = 0) && decide (width = 0) && x.preStorm.isSome }
  let s := (List.range 9).foldl (fun s j => s.upLane (9 * p + j) fun l => { l with locked := !l.los && l.logical ≠ some 15 }) s
  let s := s.setTrain p .ready
  let s := s.upPrt fun t => { t with intStatus := setFlag t.intStatus 0 }
  let reduced := match old with
    | none => false
    | some (r, w) => decide (rate < r) || decide (width < w)
  let s := if reduced then
      (s.upPrt fun t => { t with intStatus := setFlag t.intStatus 4 }).raise 66 (.port p)
    else s
  (s.settleTrained p before).lanesTrained p

/-- Tests on the port's spare end at a substitution request or a step (R259). -/
def State.stopSpareTest (s : State) (p : Nat) : State :=
  s.upLane (9 * p + 8) fun l => { l with testFn := 0, testAsked := false, prbsLock := false }

/-! ### Rate steps (R255, R256) -/

/-- A rate step asked for by this device (R255): STEP is sent with a codeword ahead. -/
def State.askStep (s : State) (p rate width : Nat) : State :=
  let n := ((s.port p).codeword + 64) % 2 ^ 24
  ((s.stopSpareTest p).upPort p fun x => { x with
    step := some { rate, width, codeword := n, acked := false, initiator := true }
    stepTarget := some (rate, width), train := .step }).sendLaneMsg p 0x05 0 rate width n

/-! ### Live substitution (R252 to R254) -/

/-- A substitution or a step is in progress on the port. -/
def Port.busy (x : Port) : Bool := x.subst.isSome || x.step.isSome || x.stepTarget.isSome

/-- A substitution asked for by the receiver (R252, R253): step 1. -/
def State.askSubst (s : State) (p lane : Nat) (isReturn : Bool) : State :=
  ((s.stopSpareTest p).upPort p fun x => { x with
    subst := some { lane, receiver := true, isReturn, codeword := 0 } }).sendLaneMsg p 0x01 lane 0 0 0

/-- A detector of R242 fires on a physical lane of an Up native port (R242, R252, R268). -/
def State.detector (s : State) (l : Nat) : State :=
  let p := l / 9
  let x := s.port p
  let k := s.logicalOf l
  let up := (s.lport p).state = .up || (s.lport p).state = .replay
  if !s.isNative p then s
  else if k = 8 then
    let s := (s.upPort p fun y => { y with spareFailed := true }).checkChannel p
    match x.subst with
    | some b => if b.receiver then (s.upPort p fun y => { y with subst := none, subState := .idle }).sendLaneMsg p 0x04 b.lane 0 0 0
      else s
    | none => s
  else if !up || !x.autoSpare || k = 15 || decide (2 ^ x.trainedWidth.getD 0 ≤ k) then s
  else if x.subst.isSome then s.upPort p fun y => { y with subWait := addOnce y.subWait k }
  else if x.spareFor.isSome then
    (s.upPrt fun t => { t with intStatus := setFlag t.intStatus 3 }).raise 67 (.port p)
  else if x.spareFailed || !x.channelOk then s
  else s.askSubst p k false

/-- The substitution in progress has ended; a waiting STEP is answered (R268), and a waiting request finds
the spare in use (R268). -/
def State.substEnd (s : State) (p : Nat) : State :=
  let x := s.port p
  let s := s.upPort p fun y => { y with subst := none, subState := .idle, subWait := [], stepHeld := none }
  let s := match x.stepHeld, x.stepTarget with
    | none, some (r, w) => if x.step.isNone then s.askStep p r w else s
    | none, none => s
    | some (r, w, n), _ =>
      (s.upPort p fun y => { y with
        step := some { rate := r, width := w, codeword := n, acked := true, initiator := false }
        train := .step }).sendLaneMsg p 0x06 0 r w n
  if !x.subWait.isEmpty && (s.port p).spareFor.isSome then
    (s.upPrt fun t => { t with intStatus := setFlag t.intStatus 3 }).raise 67 (.port p)
  else s

/-- The receiving direction takes a lane from the spare, or gives it back (R253, R254, R269). -/
def State.swapLane (s : State) (p k : Nat) (isReturn : Bool) : State :=
  if isReturn then s.laneFromSpare p k else s.laneToSpare p k true

/-- A step asked for on a native port whose link is up: a port under substitution steps after it (R268), and one without a
lane-management channel by retraining at the target (R250). -/
def State.stepPort (s : State) (p rate width : Nat) : State :=
  let x := s.port p
  if x.trainedRate = some rate && x.trainedWidth = some width then s
  else if x.subst.isSome then s.upPort p fun x => { x with stepTarget := some (rate, width) }
  else if x.channelOk then s.askStep p rate width
  else (s.upPort p fun x => { x with stepTarget := some (rate, width) }).retrainPort p

end Sys2Proof.Machine
end

