-- ==== Sys2Proof/Machine/Ingress.lean ====
section
/-!
DEFINITION. The routing stage: packets that arrive on links (R159 to R170, R173, R176), multicast
replication (R186 to R190), buffer admission of waiting packets (R97, R110, R111), and the transport of
cells by the central scheduler (R98 to R102).
Where the spec leaves a point open: DESIGN CHOICE 137 (notes/assumptions).
-/
namespace Sys2Proof.Machine

/-! ### Arrival -/

/-- A packet of the old epoch arrives (R173). -/
def State.noteOld (s : State) (h : Hdr) : State :=
  if s.oldTag = some h.epoch then s.upRte fun r => { r with oldArrival := true } else s

/-- A packet that the receiving port itself consumes (R159, R188, R192, R466): MC_ACK, DIRECTED and the one-hop packets. Its
own event brings what it carries. -/
def consumedAtPort (h : Hdr) : Bool :=
  h.opcode = 0xA0 || h.opcode = 0xC1 || h.opcode = 0xC3 || h.opcode = 0xC4 || h.opcode = 0xC5

/-- A packet that arrived on a link is looked up (R159 to R170): without a route, or a device ID, it waits (R159, R168). -/
def State.routeArrived (s : State) (w : WaitPkt) (port : Nat) : State :=
  let h := w.pkt.hdr
  let noRoute := fun (s : State) => (s.noCandidate.raise 256 (.port port)).putWaiting { w with outs := [] }
  if consumedAtPort h then (if h.flagged then s.tally (evt 4 0) else s).freeRx w
  else if !s.rte.valid then noRoute s
  else if h.multicast then s.routeTree w (some port)
  else
    match s.lookup h port w.rxVl false none with
    | (.none_, s) => noRoute s
    | (.out o v, s) => s.putWaiting { w with outs := [(o, v)] }

/-- A packet's header reaches the routing stage from a native link (R163). A colour that is reserved is
carried, served as yellow and counted (R58). -/
def State.arrive (s : State) (port : Nat) (pkt : Packet) (len rxVl flits : Nat) : State :=
  let s := if pkt.hdr.colour = 2 then s.tally (evt 4 2) else s
  (s.noteOld pkt.hdr).routeArrived
    { pkt, len, input := port, rxVl, flits, routedAt := s.obf.residency, outs := [], fromLocal := false
      sequenced := inStream pkt.hdr } port

/-- A waiting packet without a route is looked up again (R168). -/
def State.retryRoute (s : State) (pid : Nat) : State :=
  match takeFirst (fun (w : WaitPkt) => w.pkt.pid == pid && w.outs.isEmpty && !w.edgeWait && !w.built) s.obf.waiting with
  | none => s
  | some (w, rest) =>
    if !s.rte.valid then s
    else
      let h := w.pkt.hdr
      if h.multicast then (s.upObf fun b => { b with waiting := rest }).routeTree w (if w.fromLocal then none else some w.input)
      else
        match s.lookup h w.input w.rxVl w.fromLocal w.own with
        | (.none_, _) => s
        | (.out o v, t) => t.upObf fun b => { b with
            waiting := updFirst (fun x => x.pkt.pid == pid && x.outs.isEmpty) (fun x => { x with outs := [(o, v)] }) b.waiting }

/-! ### Buffer admission -/

/-- The VL at the input on which a packet waits, and its place among the oldest four of it (R97). -/
def State.offered (s : State) (w : WaitPkt) : Bool :=
  (((s.obf.waiting.filter fun x => x.input == w.input && x.rxVl == w.rxVl && !x.edgeWait && !x.built).take 4).any
    fun x => x.pkt.pid == w.pkt.pid)

/-- Distance from a pointer, of 36. -/
def fromPtr (ptr i : Nat) : Nat := (i + 36 - ptr) % 36

/-- The copies of other waiting packets that could be admitted in this cycle, and could not once the state is `t` (R125). -/
def State.losers (s t : State) (pid : Nat) : List (WaitPkt × Nat) :=
  (s.obf.waiting.filter fun x => x.pkt.pid ≠ pid && s.offered x).flatMap fun x =>
    (x.outs.filter fun o => (s.takeIn x o.1 o.2).isSome && (t.takeIn x o.1 o.2).isNone).map fun o => (x, o.1)

/-- Of two packets that need the same last cells in one cycle, `x` for output `xo` goes before `w` for output `o` (R125):
in the rotating order of the output, or of the device, and of one input the oldest. -/
def State.goesBefore (s : State) (x w : WaitPkt) (xo o : Nat) : Bool :=
  let ptr := if xo = o then s.obf.turn.get o 0 else s.obf.turnAll
  decide (fromPtr ptr x.input < fromPtr ptr w.input) || (x.input == w.input && decide (x.no < w.no))

/-- The rotating orders move to one past the winner of the last cells (R125). -/
def State.moveTurns (s : State) (input o : Nat) (outs : List Nat) : State :=
  let next := (input + 1) % 36
  s.upObf fun b => { b with
    turn := if outs.contains o then b.turn.put o next else b.turn
    turnAll := if outs.any (· ≠ o) then next else b.turnAll }

/-- One copy of a waiting packet admitted, or counted as a wait on its account (R110, R111): for the last cells the
rotating order decides between it and what waits beside it (R125). -/
def State.admitOut (s : State) (w : WaitPkt) (o : Nat × Nat) : Bool × State :=
  let a := accountOf o.1 o.2
  let wait := (false, (s.upAccount a fun x => { x with waits := x.waits + 1 }).tally (evt 6 a))
  match s.takeIn w o.1 o.2 with
  | none => wait
  | some t =>
    let l := s.losers t w.pkt.pid
    if l.any fun x => s.goesBefore x.1 w x.2 o.1 then wait else (true, t.moveTurns w.input o.1 (l.map (·.2)))

/-- The branch of a tree that a copy's output stands for (R185): 32 the local copy, wherever its endpoint is. -/
def State.branchAt (s : State) (t : Tree) (o : Nat) : Nat :=
  if t.loc && (decide (32 ≤ o) || (o == s.endpointOut t.localEndpoint && !t.branches.getLsbD o)) then 32 else o

/-- The copy of a branch is not made when the branch has been fenced in the meantime (R187, R190). -/
def State.branchOpen (s : State) (h : Hdr) (o : Nat) : Bool :=
  !h.multicast || consumedAtPort h || (match s.tree h.destDevice with
    | none => true
    | some t => !t.isFenced (s.branchAt t o))

/-- A waiting packet offered to buffer admission (R97, R110, R187): it leaves its ingress when every copy has
been admitted. -/
def State.offer (s : State) (pid : Nat) : State :=
  match s.obf.waiting.find? fun w => w.pkt.pid == pid && !w.outs.isEmpty with
  | none => s
  | some w =>
    if !s.offered w then s
    else
      let before := s.oldCount
      let outs := w.outs.filter fun o => s.branchOpen w.pkt.hdr o.1
      let s := if outs.length < w.outs.length then s.noteFenceSkip else s
      let (left, s) := outs.foldl (fun (a : List (Nat × Nat) × State) o =>
        let r := a.2.admitOut w o
        (if r.1 then a.1 else a.1 ++ [o], r.2)) ([], s)
      let s := s.upObf fun b => { b with
        waiting := if left.isEmpty then b.waiting.filter fun x => x.pkt.pid != pid
          else b.waiting.map fun x => if x.pkt.pid = pid then { x with outs := left } else x }
      (if s.obf.pkts.any fun b => b.pkt.pid == pid then s else if left.isEmpty then s.freeRx w else s).settleOld before

/-! ### The central scheduler (R98 to R102) -/

/-- The input at which a packet's cells stand: of one in the buffer, or of one that waits. -/
def State.inputOf (s : State) (pid : Nat) : Option Nat :=
  ((s.obf.pkts.find? fun b => b.pkt.pid == pid).map (·.input)).orElse fun _ =>
    (s.obf.waiting.find? fun w => w.pkt.pid == pid).map (·.input)

/-- The cells of a packet. -/
def State.cellsTotal (s : State) (pid : Nat) : Nat :=
  (((s.obf.pkts.find? fun b => b.pkt.pid == pid).map fun b => b.cells.length).orElse fun _ =>
    (s.obf.waiting.find? fun w => w.pkt.pid == pid).map fun w => cellsOf w.len).getD 0

/-- The cells of a packet that every copy of it has taken across: none while a copy waits for admission. -/
def State.crossed (s : State) (pid : Nat) : Nat :=
  if s.obf.waiting.any fun w => w.pkt.pid == pid then 0
  else (((s.obf.pkts.filter fun b => b.pkt.pid == pid).map (·.written)).min?).getD 0

/-- The cells in the staging buffer of an input (R96, R126). -/
def State.occupancy (s : State) (i : Nat) : Nat :=
  sumOf (s.csc.come.filter fun e => s.inputOf e.1 = some i) fun e => e.2 - s.crossed e.1

/-- A cell of a packet comes to its input's staging buffer, which has room for 64; without room the ingress holds it
back, and no cell is discarded (R96). -/
def State.stageCell (s : State) (pid : Nat) : State :=
  match s.inputOf pid with
  | none => s
  | some i =>
    if s.cellsTotal pid ≤ s.csc.come.get pid 0 then s
    else if 64 ≤ s.occupancy i then s.upCsc fun c => { c with back := c.back ++ [pid] }
    else
      let n := s.occupancy i + 1
      s.upCsc fun c => { c with
        come := c.come.put pid (c.come.get pid 0 + 1)
        staging := c.staging.upd i {} fun g => { g with highWater := max g.highWater n } }

/-- The cells that were held back, and those that come in this cycle, go to the staging buffers; what is left of packets that
are gone is forgotten (R96). -/
def State.stageCells (s : State) (new : List Nat) : State :=
  let held := s.csc.back
  let s := s.upCsc fun c => { c with back := [], come := c.come.keep fun p _ => (s.inputOf p).isSome }
  (held ++ new).foldl State.stageCell s

/-- The next cell of a buffered packet is in its staging buffer. -/
def State.staged (s : State) (b : BufPkt) : Bool := decide (b.written < s.csc.come.get b.pkt.pid 0)

/-- A buffered packet that waits for its pair in a matching, its next cell staged (R98). -/
def State.requests (s : State) (b : BufPkt) (pairs : List Pair) : Bool :=
  decide (b.written < b.cells.length) && s.staged b && !(pairs.any fun q => q.pid == b.pkt.pid && q.output == b.output)

/-- The order of two requests at an output slot (R99, R100): VL6, then green by deadline, then the rest. -/
def State.rank (s : State) (b : BufPkt) : Int × Int :=
  if isMgmt b.pkt.hdr then (0, 0)
  else if isGreen b.pkt.hdr then (1, s.greenKey b)
  else (2, 0)

/-- Strict order of ranks. -/
def rankBelow (a b : Int × Int) : Bool := decide (a.1 < b.1) || (a.1 == b.1 && decide (a.2 < b.2))

/-- The request that an output slot grants (R99). -/
def State.grantOf (s : State) (ptr : Nat) (l : List BufPkt) : Option BufPkt :=
  l.foldl (fun best b => match best with
    | none => some b
    | some a =>
      if rankBelow (s.rank b) (s.rank a) then some b
      else if rankBelow (s.rank a) (s.rank b) then some a
      else if fromPtr ptr b.input < fromPtr ptr a.input then some b else some a) none

/-- One iteration of request, grant and accept of a matching (R99). `reqs` are the requests of inputs and
outputs still unmatched; the first iteration moves the pointers. -/
def State.iterate (s : State) (reqs : List BufPkt) (first : Bool) (m : Matching) : Matching :=
  let free := reqs.filter fun b => !(m.pairs.any fun q => q.input == b.input || q.output == b.output)
  let outs := (free.map (·.output)).dedup
  let grants := outs.filterMap fun o =>
    s.grantOf (m.grantPtr.get o 0) (free.filter fun b => b.output == o)
  let ins := (grants.map (·.input)).dedup
  ins.foldl (fun (m : Matching) i =>
    let mine := grants.filter fun b => b.input == i
    let ptr := m.acceptPtr.get i 0
    match mine.foldl (fun (best : Option BufPkt) b => match best with
      | none => some b
      | some a => if fromPtr ptr b.output < fromPtr ptr a.output then some b else some a) none with
    | none => m
    | some b =>
      let m := { m with pairs := m.pairs ++ [{ input := i, output := b.output, pid := b.pkt.pid }] }
      if first then { m with grantPtr := m.grantPtr.put b.output ((i + 1) % 36)
                             acceptPtr := m.acceptPtr.put i ((b.output + 1) % 36) }
      else m) m

/-- Locked pairs of lower order that a blocked high-class request breaks (R100). -/
def State.breakPairs (s : State) (reqs : List BufPkt) (m : Matching) : Matching :=
  let high := reqs.filter fun b => decide ((s.rank b).1 < 2)
  high.foldl (fun (m : Matching) b =>
    let block := m.pairs.filter fun q => q.input == b.input || q.output == b.output
    let lower := block.all fun q => match s.bufPkt q.pid q.output with
      | none => true
      | some c => rankBelow (s.rank b) (s.rank c)
    if lower then { m with pairs := m.pairs.filter fun q => !(q.input == b.input || q.output == b.output) } else m) m

/-- A matching computed anew (R99, R100): broken pairs, then three iterations. R100 does not say whether a packet whose pair
is broken may request again at once: DESIGN CHOICE 137, it does so from the next matching on. -/
def State.computeMatching (s : State) (other : List Pair) (m : Matching) : Matching :=
  let reqs := s.obf.pkts.filter fun b => s.requests b (m.pairs ++ other)
  let m := s.breakPairs reqs m
  s.iterate reqs false (s.iterate reqs false (s.iterate reqs true m))

/-- A packet has cells that have not crossed, or a copy that waits for admission. -/
def State.crossing (s : State) (pid : Nat) : Bool :=
  (s.obf.waiting.any fun w => w.pkt.pid == pid) ||
    s.obf.pkts.any fun b => b.pkt.pid == pid && decide (b.written < b.cells.length)

/-- One cell of a packet crosses and is linked to its packet (R100, R114). When an accepted packet's last cell
has crossed, the flits that its head named are freed at the link receiver (R209); before it is accepted none is counted
(R210). -/
def State.moveCell (s : State) (pid output : Nat) : State :=
  match s.bufPkt pid output with
  | none => s
  | some b =>
    if b.cells.length ≤ b.written then s
    else
      let s := s.upCell (b.cells.getD b.written 0) fun t => { t with state := if b.started then .reading else .linked }
      let s := s.upBufPkt pid output fun x => { x with written := x.written + 1 }
      if s.crossing pid || b.fromLocal || !s.forwards b.input || s.frameOpen b.input b.rxVl pid then s
      else s.freeFlits b.input b.rxVl b.flits

/-- The cells of a matching's pairs cross, where they are staged, and finished pairs unlock (R100). -/
def State.crossPairs (s : State) (pairs : List Pair) : State :=
  pairs.foldl (fun s q => match s.bufPkt q.pid q.output with
    | none => s
    | some b => if s.staged b then s.moveCell q.pid q.output else s) s

/-- Pairs whose packets still have cells to move (R100). -/
def State.keepPairs (s : State) (pairs : List Pair) : List Pair :=
  pairs.filter fun q => match s.bufPkt q.pid q.output with
    | none => false
    | some b => decide (b.written < b.cells.length)

end Sys2Proof.Machine
end

