-- ==== Sys2Proof/Machine/Modes.lean ====
section
/-!
DEFINITION. Changes of operating mode (R38 to R43, R506 to R510): the steps of the native ports and what
follows the last of them.
Where the spec leaves a point open: DEDUCED 116, 119 (notes/assumptions).
-/
namespace Sys2Proof.Machine

/-- The datapath runs (R38, R42, R526). -/
def State.forwarding (s : State) : Bool :=
  s.pwr.mode ≠ .stormJib && s.pwr.mode ≠ .barePoles && !s.pwr.lost && !s.flt.halted

/-- The packet that waits for a half's fetch is green (R230). -/
def greenWait (i : Instr) : Bool :=
  match i with
  | .transportDataReceive p _ _ => isGreen p.hdr
  | _ => false

/-- A green packet is held anywhere in the device (R41): at an ingress, in the output buffer, in a replay buffer, at a send half
that may not send it yet, at a receive half, or before a domain that wakes. -/
def State.greenHeld (s : State) : Bool :=
  s.obf.waiting.any (fun w => isGreen w.pkt.hdr) || s.obf.pkts.any (fun b => isGreen b.pkt.hdr) ||
    s.lnk.ports.any (fun l => l.2.replay.any fun f => isGreen f.pkt.hdr) ||
    s.trn.sends.any (fun c => c.queue.any fun p => isGreen p.pkt.hdr) ||
    s.trn.recvs.any (fun c => c.held.any (fun x => isGreen x.pkt.hdr) || c.fetchWait.any greenWait) ||
    s.pwr.domains.any fun d => d.2.held.any fun p => isGreen p.hdr

/-- The device is in storm jib or enters it. -/
def State.asleep (s : State) : Bool := s.pwr.mode = .stormJib || s.pwr.change.any fun c => c.target == .stormJib

/-- An instance reset is in progress (R428). -/
def State.resetting (s : State) : Bool := s.ins.inst.any fun i => i.2.state == .resetting

/-- The native ports whose link is up. -/
def State.upPorts (s : State) : List Nat := (List.range 32).filter s.linkUp

/-- The reefed rate of a port in Mb/s, from the rate at which it is judged (R40, R507). -/
def State.reefedMbps (s : State) (form p : Nat) : Nat :=
  match (s.port p).lastTrained with
  | none => 0
  | some (r, w) => let t := reefedTarget form r w; linkRate t.1 t.2

/-- A step to a target asked for on each of some ports, which the mode change then awaits (R507, R508); so it does a substitution
in progress on a port that needs no step (R43). -/
def State.stepPorts (s : State) (ps : List Nat) (target : Nat → Nat × Nat) : State :=
  let go := ps.filter fun p => (s.port p).trainedRate ≠ some (target p).1 || (s.port p).trainedWidth ≠ some (target p).2 ||
    (s.port p).subst.isSome
  let s := go.foldl (fun s p => s.stepPort p (target p).1 (target p).2) s
  s.upPwr fun w => { w with change := w.change.map fun c => { c with steps := go } }

/-- A mode change has completed: its flag and its reply (R449, R519). -/
def State.modeReply (s : State) : State :=
  (s.upPwr fun w => { w with intStatus := setFlag w.intStatus 4 }).finishWait .modeChange 0 0

/-- Entry to storm jib is complete (R508): the reply is written, and the hub clocks stop. The masthead takes the fabric
time, truncated to a whole nanosecond (R72). -/
def State.enterStorm (s : State) : State :=
  let s := s.modeReply
  let s := s.upFtu fun f => { f with sync := if f.sync = .synchronised then .holdover else f.sync }
  { (s.upPwr fun w => { w with modeLeft := w.mode, mode := .stormJib, change := none }) with masthead := some (s.ftu.time / 16 * 16) }

/-- The last step of a mode change, or substitution in its way, has completed (R43, R507, R508). -/
def State.modeDone (s : State) : State :=
  match s.pwr.change with
  | none => s
  | some c =>
    if c.draining || !c.steps.isEmpty then s
    else match c.target with
      | .stormJib => s.enterStorm
      | .reefed => (s.upPwr fun w => { w with mode := .reefed, reefForm := c.reefForm, change := none }).modeReply
      | .fullSail => (s.upPwr fun w => { w with change := none }).modeReply
      | .barePoles => s

/-- The PCIe and CXL links enter L1, or leave it (R38, R508). -/
def State.hostLinksL1 (s : State) (on : Bool) : State :=
  s.upPrt fun t => { t with ports := t.ports.mapv fun x => { x with l1 := on && decide (2 ≤ x.mode) && decide (x.mode ≤ 5) && x.trainedRate.isSome } }

/-- A port's step, or the training in its place, has ended (R507, R508). -/
def State.modeStepDone (s : State) (p : Nat) : State :=
  match s.pwr.change with
  | none => s
  | some c =>
    if c.steps.contains p then
      (s.upPwr fun w => { w with change := some { c with steps := c.steps.filter (· ≠ p) } }).modeDone
    else s

/-- Entry to storm jib has drained (R508): every native port steps to one lane at code 0 (R256), and what it ran is kept
for the wake; PCIe and CXL links enter L1. -/
def State.stormSteps (s : State) : State :=
  let ps := s.upPorts
  let s := s.hostLinksL1 true
  let s := ps.foldl (fun s p => s.upPort p fun x => { x with
    wakeSeen := false
    preStorm := match x.trainedRate, x.trainedWidth with
      | some r, some w => some (r, w)
      | _, _ => x.preStorm }) s
  (s.stepPorts ps fun _ => (0, 0)).modeDone

/-- A port steps back to what it ran before storm jib, once both ends are awake (R256). -/
def State.stepBack (s : State) (p : Nat) : State :=
  match (s.port p).preStorm with
  | none => s
  | some (r, w) =>
    if s.linkUp p && (s.port p).wakeSeen && !s.asleep && (s.port p).step.isNone then s.stepPort p r w else s

/-- A native port is told of the wake, and steps back where it can (R256). -/
def State.wakePort (s : State) (p : Nat) : State := (s.sendLaneMsg p 0x08 0 0 0 0).stepBack p

/-- A waking event (R42, R43, R72, R506, R509): an entry to storm jib is abandoned, and storm jib ends in the mode that it
was entered from. In any other mode it is nothing. -/
def State.wake (s : State) : State :=
  if (s.pwr.change.any fun c => c.target == .stormJib) then
    let s := ((s.upPwr fun w => { w with change := none }).upAdm fun a => { a with stormSuspend := false }).hostLinksL1 false
    (s.upPorts.foldl (fun s p => (s.upPort p fun x => { x with wakeSeen := true }).stepBack p) s).finishWait .modeChange 0x032F 0
  else if s.pwr.mode = .stormJib then
    -- fabric time never moves backwards, though the masthead took it without its part of a nanosecond (R69)
    let t := s.masthead.getD s.ftu.time
    let s := { ((s.upPwr fun w => { w with mode := w.modeLeft }).hostLinksL1 false) with masthead := none }
    let now := s.ftu.grandmaster && s.ftu.sync = .holdover
    let s := s.upFtu fun f => { f with
      time := max f.time t, frac := if t ≤ f.time then f.frac else 0, goodRun := 0, badRun := 0, fastExchange := f.parentSet && !f.grandmaster
      sync := if now then .synchronised else f.sync }
    let s := s.upAdm fun a => { a with stormSuspend := a.stormSuspend && !now }
    s.upPorts.foldl State.wakePort s
  else s

end Sys2Proof.Machine
end

