-- ==== Sys2Proof/Machine/Boot.lean ====
section
/-!
DEFINITION. Resets of the device (R558 to R561) and bare poles (R510): what each keeps.
Where the spec leaves a point open: DESIGN CHOICE 132; DEDUCED 61, 116, 155 (notes/assumptions).
-/
namespace Sys2Proof.Machine

/-- Level sources whose condition the power and slot die keeps through every reset (R493, R500). -/
def powerLevel (src : Nat) : Bool := src == 1411 || src == 1413 || src == 1473

/-- The kept fields of a fault source (R539); a power condition stays active. -/
def FaultSrc.kept (src : Nat) (f : FaultSrc) : FaultSrc :=
  { sticky := f.sticky, effective := f.effective, unc := f.unc, active := f.active && powerLevel src }

/-- Faults after a reset (R528, R531, R533, R558): kept fields, and the row repairs that the boot reapplies. The
sensors' last readings are forgotten at a cold reset (R522). -/
def Flt.afterReset (f : Flt) (cold : Bool) : Flt :=
  { sources := f.sources.map fun e => (e.1, e.2.kept e.1)
    recoveries := f.recoveries
    spares := f.spares.filter fun x => x.1 == 3 || x.1 == 4
    temps := if cold then [] else f.temps }

/-- Power channels, straps and the wake GPIO belong to the power and slot die (R24, R511, R558); energy counts from a cold
reset (R519). The spec does not say which resets reach the interrupt status and enables of PWR and SLT: here every one clears them
(DESIGN CHOICE 132). -/
def Pwr.afterReset (w : Pwr) (cold : Bool) : Pwr :=
  { insdly := w.insdly, wakeGpio := w.wakeGpio, windowMs := w.windowMs, thermTrip := w.thermTrip, recorded := w.recorded
    chans := if cold then w.chans.mapv fun c => { c with energy := 0 } else w.chans }

/-- What the masthead, the flash and the fuses keep of the management complex (R24, R558, R563, R572). -/
def Mgc.afterReset (m : Mgc) (kind trigger : Nat) : Mgc :=
  { resetKind := kind, trigger
    warmCount := if kind = 0 then 0 else if kind = 2 then satAdd 16 m.warmCount 1 else m.warmCount
    floor := m.floor, fusesUsed := m.fusesUsed, slot0 := { m.slot0 with ok := none }, slot1 := { m.slot1 with ok := none }
    activation := m.activation, smbAddr := m.smbAddr, ppsSel := m.ppsSel, flash := m.flash, vaux := m.vaux
    perst0 := m.perst0, tap := m.tap }

/-- Telltale counters through a warm reset (R541, R558). -/
def Ttc.afterReset (t : Ttc) (warm : Bool) : Ttc :=
  if warm then { counts := t.counts, counters := t.counters, programmable := t.programmable } else {}

/-- What first calibration found of the lane cores, which a later boot finds again (R568; DEDUCED 155). -/
def Prt.afterReset (t : Prt) : Prt :=
  { lanes := (t.lanes.mapv fun l => ({ calibFailed := l.calibFailed, baseline := l.baseline } : Lane)).keep fun _ l => l != {} }

/-- The device at the start of its boot (R558, R559, R566): kind 0 cold, 1 bare-poles wake, 2 warm. -/
def State.reboot (s : State) (kind trigger : Nat) : State :=
  { State.reset with
    pending := s.pending, freeCount := s.freeCount, out := s.out, coreTime := s.coreTime
    pwr := s.pwr.afterReset (decide (kind = 0)), flt := s.flt.afterReset (decide (kind = 0))
    prt := if kind = 0 then State.reset.prt else s.prt.afterReset
    ttc := s.ttc.afterReset (decide (kind = 2)), mgc := s.mgc.afterReset kind trigger }

/-- Bare poles begins (R38, R510): the reply is written, and the hub loses power. -/
def State.enterBare (s : State) : State :=
  let s := s.modeReply
  let t := s.reboot 1 s.mgc.trigger
  { t with pwr := { t.pwr with mode := .barePoles }, mgc := { t.mgc with resetKind := s.mgc.resetKind }, ttc := s.ttc.afterReset true }

/-- Entry to bare poles is asked for, and no other command and no spare swap is in progress (R510, R538). -/
def State.settleBare (s : State) : State :=
  if (s.pwr.change.any fun c => c.target == .barePoles) && s.flt.swaps.isEmpty &&
      s.hly.progress.all fun g => g.wait == .modeChange then s.enterBare
  else s

/-- Bare poles ends (R39, R506, R511): the device boots from the SRAM self-test. -/
def State.leaveBare (s : State) : State := s.reboot 1 6

end Sys2Proof.Machine
end

