-- ==== Sys2Proof/Machine/Directory.lean ====
section
/-!
DEFINITION. Extents and their lines (R270 to R281, R301 to R304), and the directory's work on one line:
trackers, snoops, reads and writes (R305 to R318), and recalls (R320, R321).
Where the spec leaves a point open: DEDUCED 78 (notes/assumptions).
-/
namespace Sys2Proof.Machine

/-! ### Extents -/

/-- 256 MiB units of the near pool: what regions 0 to 3 leave of the 384 (R292). -/
def State.nearUnits (s : State) : Nat := 384 - 4 - s.pool.dirUnits - s.pool.mtcUnits - s.pool.heapUnits

/-- Base of the near pool in 256 MiB units (R292). -/
def State.nearBase (s : State) : Nat := 4 + s.pool.dirUnits + s.pool.mtcUnits + s.pool.heapUnits

/-- A handle of a near-pool extent within the region (R270). -/
def State.isNear (s : State) (h : Nat) : Bool := decide (0x40000 ≤ h) && decide (h < 0x40000 + s.nearUnits)

/-- An extent: an unlisted one is Absent, or Free dirty within the near pool (R280, R292). -/
def State.extent (s : State) (h : Nat) : Extent :=
  (s.pool.extents.find h).getD { state := if s.isNear h then .freeDirty else .absent }

/-- The state with an extent changed. -/
def State.upExtent (s : State) (h : Nat) (f : Extent → Extent) : State :=
  let e := f (s.extent h)
  s.upPool fun p => { p with extents := p.extents.put h e }

/-- The address of an extent's byte in `Pool.mem`. -/
def extentByte (h offset : Nat) : Nat := 2 ^ 28 * h + offset

/-- The lines of an extent (R323). -/
abbrev extentLines : Nat := 4194304

/-- The downstream port that owns a handle (R271). -/
def State.handlePort (s : State) (h : Nat) : Nat := s.leadPort (h / 8192)

/-- The handles that the link of a downstream port owns: the first and how many (R271). -/
def State.portHandles (s : State) (p : Nat) : Nat × Nat :=
  if (s.port p).width = 4 then (8192 * (2 * (p / 2)), 16384) else (8192 * p, 8192)

/-- The HBM line, by number, that holds byte `o` of a near-pool extent (R270). -/
def State.hbmLine (s : State) (h o : Nat) : Nat := ((s.nearBase + (h - 0x40000)) * 2 ^ 28 + o) / 64

/-- A read of [o, o + n) of an extent returns poison (R34, R535). -/
def State.poisoned (s : State) (h o n : Nat) : Bool :=
  (s.extent h).state = .poisoned ||
    (s.isNear h && s.flt.poisonLines.any fun l => decide (s.hbmLine h o ≤ l) && decide (l ≤ s.hbmLine h (o + n - 1)))

/-- Bytes written to an extent: discarded when it is poisoned (R34); a full-line write clears the line's mark (R535). -/
def State.writeExtent (s : State) (h o : Nat) (data : List Nat) : State :=
  if (s.extent h).state = .poisoned then s
  else
    let s := s.upPool fun p => { p with mem := memWrite p.mem (extentByte h o) data }
    if s.isNear h then
      s.upFlt fun f => { f with poisonLines := f.poisonLines.filter fun l =>
        !(decide (s.hbmLine h o * 64 + (o % 64) ≤ l * 64) && decide (l * 64 + 64 ≤ s.hbmLine h o * 64 + o % 64 + data.length)) }
    else s

/-- Bytes read from an extent. -/
def State.readExtent (s : State) (h o n : Nat) : List Nat := memRead s.pool.mem (extentByte h o) n

/-! ### Entries -/

/-- Key of a line's entry. -/
def lineKey (h line : Nat) : Nat := extentLines * h + line

/-- A line's directory entry (R302). -/
def State.dirEntry (s : State) (h line : Nat) : DirEntry := s.dir.entries.get (lineKey h line) {}

/-- The state with an entry written; one that is all zero is not listed. -/
def State.setEntry (s : State) (h line : Nat) (e : DirEntry) : State :=
  s.upDir fun d => { d with
    entries := if e = {} then d.entries.del (lineKey h line) else d.entries.put (lineKey h line) e }

/-- The agents whose bits are set. -/
def DirEntry.agents (e : DirEntry) : List Nat := (List.range 64).filter fun a => e.sharers.getLsbD a

/-- The recorded owner (R303). -/
def DirEntry.owner (e : DirEntry) : Option Nat := if e.state = .em then e.agents.head? else none

/-- The sharer vector of some agents. -/
def sharersOf (l : List Nat) : Word64 := l.foldl (fun v a => v ||| (1#64 <<< a)) 0

/-- An entry without an agent's bit: Invalid once no bit is left (R303). -/
def DirEntry.without (e : DirEntry) (a : Nat) : DirEntry :=
  let l := e.agents.filter (· ≠ a)
  { e with sharers := sharersOf l, state := if l.isEmpty then .invalid else e.state }

/-- The line's memory is poisoned: its extent, or its entry says so (R302, R321). -/
def State.linePoisoned (s : State) (h line : Nat) : Bool := (s.extent h).state = .poisoned || (s.dirEntry h line).poisoned

/-- The coherent window that an extent is bound to, and its agent mask (R273, R299). -/
def State.windowMask (s : State) (h : Nat) : Word64 :=
  match (s.extent h).window with
  | none => 0
  | some (w, _) => ((s.dir.windows.find w).map (·.mask)).getD 0

/-- The logical bank of a line (R304). -/
def State.logicalBank (s : State) (h line : Nat) : Nat :=
  let l := ((s.extent h).backing.getD 0) * extentLines + line
  (bitsOf l 4 0).xor <| (bitsOf l 9 5).xor <| (bitsOf l 14 10).xor <| (bitsOf l 19 15).xor <| (bitsOf l 24 20).xor <|
    (bitsOf l 29 25).xor (bitsOf l 30 30)

/-- The set of the directory cache that holds a line's entry: its logical bank, and L[16:5] (R304). -/
def State.cacheSet (s : State) (h line : Nat) : Nat :=
  4096 * s.logicalBank h line + bitsOf (((s.extent h).backing.getD 0) * extentLines + line) 16 5

/-- A line's entry is in the directory cache (R304). -/
def State.cachedEntry (s : State) (h line : Nat) : Bool := (s.dir.cache.get (s.cacheSet h line) []).contains (lineKey h line)

/-- A line's entry is used: fetched where its set lacks it, in the place of the least recently used of 16 (R304). -/
def State.touchEntry (s : State) (h line : Nat) : State :=
  let k := s.cacheSet h line
  s.upDir fun d => { d with cache := d.cache.upd k [] fun l => (lineKey h line :: l.filter (· ≠ lineKey h line)).take 16 }

/-! ### Trackers -/

/-- The tracker of a line. -/
def State.tracker (s : State) (h line : Nat) : Option Tracker := s.dir.trackers.find? fun t => t.handle == h && t.line == line

/-- The state with a line's tracker changed. -/
def State.upTracker (s : State) (h line : Nat) (f : Tracker → Tracker) : State :=
  s.upDir fun d => { d with trackers := updFirst (fun t => t.handle == h && t.line == line) f d.trackers }

/-- Trackers of a logical bank in use. -/
def State.bankTrackers (s : State) (b : Nat) : Nat := (s.dir.trackers.filter fun t => s.logicalBank t.handle t.line == b).length

/-- Lines in the writeback buffer of a logical bank (R315). -/
def State.bankWritebacks (s : State) (b : Nat) : Nat := (s.dir.writebacks.filter fun w => s.logicalBank w.handle w.line == b).length

/-- Line queue entries of a logical bank in use. -/
def State.bankQueued (s : State) (b : Nat) : Nat :=
  sumOf (s.dir.trackers.filter fun t => s.logicalBank t.handle t.line == b) fun t => t.queue.length

/-- The agents that an operation snoops (R312). -/
def snoopsFor (r : CohReq) (e : DirEntry) : List Nat :=
  match r.op, e.state with
  | .wrNC, _ => e.agents
  | _, .invalid => []
  | .rdOwn, .shared => e.agents.filter fun x => some x ≠ r.agent
  | .own, .shared => e.agents.filter fun x => some x ≠ r.agent
  | _, .shared => []
  | _, .em => e.agents.filter fun x => some x ≠ r.agent

/-- The number of an operation in a grant (R308): 5 is a writeback's, 6 an eviction notice's. -/
def opCode : CohOp → Nat
  | .rdS => 0
  | .rdOwn => 1
  | .own => 2
  | .rdAny => 1
  | .rdCur => 3
  | .wrNC => 4
  | .hint => 7
  | .unsupported => 8

/-- The entry after an operation's read or write (R312). -/
def entryAfter (r : CohReq) (e : DirEntry) : DirEntry :=
  match r.op, r.agent with
  | .rdS, some a =>
    if e.state = .shared then { e with sharers := e.sharers ||| (1#64 <<< a) }
    else { e with state := .shared, sharers := 1#64 <<< a }
  | .rdOwn, some a => { e with state := .em, sharers := 1#64 <<< a }
  | .own, some a => { e with state := .em, sharers := 1#64 <<< a }
  | .wrNC, _ => { e with state := .invalid, sharers := 0 }
  | _, _ => e

/-- A grant, with the agent recorded (R308, R312); a bit set anew ends what a timeout had said of the agent. -/
def State.grantTo (s : State) (h line : Nat) (r : CohReq) (poison : Bool) (data : List Nat := []) : State :=
  let s := if s.linePoisoned h line then s else s.setEntry h line (entryAfter r (s.dirEntry h line))
  let s := match r.agent with
    | some a => s.upDir fun d => { d with timedOut := d.timedOut.filter (· ≠ (a, h, line)) }
    | none => s
  s.emit (.grant r.who (opCode r.op) h line poison data)

/-- A writeback, or forwarded data, is discarded (R318, R319, R321). -/
def State.wbLost (s : State) : State :=
  (s.upDir fun d => { d with lost := d.lost + 1, intStatus := setFlag d.intStatus 3 }).raise 771

/-- A writeback from an agent that is not the owner (R313). -/
def State.wbUnexpected (s : State) : State :=
  (s.upDir fun d => { d with unexpected := d.unexpected + 1, intStatus := setFlag d.intStatus 1 }).raise 770

/-- A tracker begins what it has taken: an entry that fails its check is rebuilt first (R305), and the
snoops that the entry calls for are sent (R312, R320). -/
def State.trackStart (s : State) (t : Tracker) : State :=
  let h := t.handle
  let line := t.line
  let s := s.touchEntry h line
  let e := s.dirEntry h line
  let send := fun (s : State) (l : List Nat) =>
    l.foldl (fun s a => s.emit (.snoop a h line))
      (s.upTracker h line fun t => { t with started := true, snoops := l.map fun a => { agent := a } })
  if s.dir.badEntries.contains (lineKey h line) then
    let who := (List.range 64).filter fun a => (s.windowMask h).getLsbD a
    let s := s.upDir fun d => { d with
      badEntries := d.badEntries.filter (· ≠ lineKey h line), intStatus := setFlag d.intStatus 2 }
    let s := s.upTracker h line fun t => { t with kind := .rebuild, queue := t.kind :: t.queue }
    (send (s.setEntry h line { state := .em, sharers := sharersOf who }) who).raise 769
  else
    match t.kind with
    | .rebuild => send s e.agents
    | .recall id =>
      let scope := ((s.dir.recalls.find? fun r => r.id == id).map (·.agents)).getD []
      send s (e.agents.filter fun a => scope.isEmpty || scope.contains a)
    | .evict _ => send s []
    | .request r =>
      let r := { r with op := if r.op = .rdAny then (if e.state = .invalid then .rdOwn else .rdS) else r.op }
      send (s.upTracker h line fun t => { t with kind := .request r }) (if s.linePoisoned h line then [] else snoopsFor r e)

/-- A tracker whose snoops are final, with no write of its line outstanding: it reads, writes or ends;
true when it ends (R308, R312, R315, R319, R321). -/
def State.trackAct (s : State) (t : Tracker) : Bool × State :=
  let h := t.handle
  let line := t.line
  match t.kind with
  | .rebuild => (true, s.setEntry h line {})
  | .recall id =>
    let poison := ((s.dir.recalls.find? fun r => r.id == id).map (·.poison)).getD false
    (true, if poison then s.setEntry h line { poisoned := true } else s)
  | .evict a =>
    let e := s.dirEntry h line
    (true, (if e.state = .em && e.sharers.getLsbD a then s.setEntry h line { e with state := .invalid, sharers := 0 } else s).emit
      (.grant (some a) 6 h line false))
  | .request r =>
    if s.linePoisoned h line then
      (true, if r.op = .wrNC then s.wbLost.grantTo h line r true else s.grantTo h line r true)
    else if r.op = .own then (true, s.grantTo h line r false)
    else if r.op = .wrNC then
      if r.data.isEmpty then (true, s.grantTo h line r false)
      else
        (false, (((s.writeExtent h (64 * line + r.offset) (r.data.take (64 - r.offset))).emit (.lineWrite h line r.data)).upTracker h line fun t =>
          { t with writing := true }))
    else (false, (s.emit (.lineRead h line)).upTracker h line fun t => { t with reading := true })

/-- A recall that has a line to give, once a tracker of its bank is free (R320). -/
def State.placeRecall (s : State) (id : Nat) : State :=
  match s.dir.recalls.find? fun r => r.id == id with
  | none => s
  | some r =>
    let free := r.todo.filter fun k => (s.tracker (k / extentLines) (k % extentLines)).isNone &&
      decide (s.bankTrackers (s.logicalBank (k / extentLines) (k % extentLines)) < 256)
    match free.head? with
    | none => s
    | some k =>
      s.upDir fun d => { d with
        recalls := updFirst (fun x => x.id == id) (fun x => { x with todo := x.todo.filter (· ≠ k) }) d.recalls
        trackers := d.trackers ++ [{ handle := k / extentLines, line := k % extentLines, kind := .recall id }] }

/-- A tracker runs as far as it can; when it ends it takes the head of its line's queue without giving up
the line, or is freed (R315). -/
def State.trackRun (s : State) (h line : Nat) : Nat → State
  | 0 => s
  | fuel + 1 =>
    match s.tracker h line with
    | none => s
    | some t =>
      if !t.started then (s.trackStart t).trackRun h line fuel
      else if !t.snoops.isEmpty || t.writes ≠ 0 || t.reading || t.writing then s
      else match s.trackAct t with
        | (false, s) => s
        | (true, s) =>
          match t.queue with
          | k :: q => (s.upTracker h line fun t => { t with kind := k, started := false, queue := q }).trackRun h line fuel
          | [] => s.upDir fun d => { d with trackers := d.trackers.filter fun x => !(x.handle == h && x.line == line) }

/-- The work that a line's tracker can do: twice its queue and its own. -/
def State.runLine (s : State) (h line : Nat) : State :=
  s.trackRun h line (((s.tracker h line).map fun t => 3 * t.queue.length + 6).getD 0)

/-- The read or the write that a tracker waited for is done: its requester is answered, and the line goes on (R308). -/
def State.trackDone (s : State) (h line : Nat) (poison : Bool) : State :=
  match s.tracker h line with
  | none => s
  | some t =>
    let s := s.upTracker h line fun t => { t with reading := false, writing := false }
    let s := match t.kind with
      | .request r =>
        let bad := poison || s.linePoisoned h line
        s.grantTo h line r bad (if t.reading && !bad then s.readExtent h (64 * line) 64 else [])
      | _ => s
    match t.queue with
    | k :: q => (s.upTracker h line fun t => { t with kind := k, started := false, queue := q }).runLine h line
    | [] => s.upDir fun d => { d with trackers := d.trackers.filter fun x => !(x.handle == h && x.line == line) }

/-! ### Snoops -/

/-- BIConflicts acknowledged whose agent has no writeback of the line outstanding, none on its way that the snoop
awaits, and no request for it (R309). -/
def State.settleAcks (s : State) : State :=
  let owed := fun (k : Nat × Nat × Nat) =>
    s.dir.writebacks.any (fun w => w.agent == k.1 && w.handle == k.2.1 && w.line == k.2.2) ||
    (match s.tracker k.2.1 k.2.2 with
     | none => false
     | some t =>
       t.snoops.any (fun n => n.agent == k.1 && (n.wbInFlight || (s.dirEntry k.2.1 k.2.2).owner == some k.1)) ||
       (t.kind :: t.queue).any fun x => match x with
         | .request r => r.who == some k.1
         | .evict a => a == k.1
         | _ => false)
  let done := s.dir.acks.filter fun k => !owed k
  done.foldl (fun s k => s.emit (.conflictAck k.1 k.2.1 k.2.2)) (s.upDir fun d => { d with acks := d.acks.filter owed })

/-- A snoop is final: the agent's bit is cleared, and the line goes on (R316). -/
def State.snoopFinal (s : State) (h line a : Nat) : State :=
  let s := s.setEntry h line ((s.dirEntry h line).without a)
  ((s.upTracker h line fun t => { t with snoops := t.snoops.filter fun n => n.agent ≠ a }).runLine h line).settleAcks

/-- A snoop of a line to an agent that awaits its response. -/
def State.snoopOf (s : State) (h line a : Nat) : Option Snoop := (s.tracker h line).bind fun t => t.snoops.find? fun n => n.agent == a

/-- The state with a snoop changed. -/
def State.upSnoop (s : State) (h line a : Nat) (f : Snoop → Snoop) : State :=
  s.upTracker h line fun t => { t with snoops := updFirst (fun n => n.agent == a) f t.snoops }

/-- An agent may be the owner of a line: the entry records it, or a rebuild treats it so (R305, R309). -/
def State.ownsLine (s : State) (h line a : Nat) : Bool :=
  (s.dirEntry h line).state = .em && (s.dirEntry h line).sharers.getLsbD a

/-- A writeback's data written to memory: the line's reads wait for it (R314, R315). -/
def State.writeBack (s : State) (h line a : Nat) (data : List Nat) (forwarded : Bool) : State :=
  let s := (s.writeExtent h (64 * line) (data.take 64)).emit (.lineWrite h line data)
  let s := s.upDir fun d => { d with writebacks := d.writebacks ++ [{ handle := h, line, agent := a, forwarded }] }
  s.upTracker h line fun t => { t with writes := t.writes + 1 }

/-! ### Recalls -/

/-- A recall started over some extents (R320): its lines with a bit in scope; idle lines take a tracker each, busy
lines take it into their queue. -/
def State.startRecall (s : State) (handles agents : List Nat) (poison : Bool) : Nat × State :=
  let id := s.dir.recallCount
  let hit := fun (e : DirEntry) => e.agents.any fun a => agents.isEmpty || agents.contains a
  let lines := (s.dir.entries.filter fun e => handles.contains (e.1 / extentLines) && hit e.2).map (·.1)
  let busy := lines.filter fun k => (s.tracker (k / extentLines) (k % extentLines)).isSome
  let idle := lines.filter fun k => (s.tracker (k / extentLines) (k % extentLines)).isNone
  let s := s.upDir fun d => { d with
    recallCount := id + 1, recalls := d.recalls ++ [{ id, handles, agents, poison, todo := idle }] }
  let s := busy.foldl (fun s k =>
    s.upTracker (k / extentLines) (k % extentLines) fun t => { t with queue := t.queue ++ [.recall id] }) s
  (id, idle.foldl (fun s k => (s.placeRecall id).runLine (k / extentLines) (k % extentLines)) s)

/-- A recall has scanned and snooped its whole range (R320). -/
def State.recallEnded (s : State) (r : Recall) : Bool :=
  r.todo.isEmpty && !(s.dir.trackers.any fun t => (t.kind :: t.queue).contains (.recall r.id))

end Sys2Proof.Machine
end

