-- ==== Sys2Proof/Machine/Pool.lean ====
section
/-!
DEFINITION. The pools: what a bind writes and commits (R282), what an unbind fences and ends (R283), and
what the arrival and loss of the hardware behind an extent or a function bring (R288 to R291).
Where the spec leaves a point open: DEDUCED 51, 63, 173 (notes/assumptions).
-/
namespace Sys2Proof.Machine

/-- A host link's pool settings. -/
def State.hostLink (s : State) (l : Nat) : HostLink := s.pool.links.get l {}

/-- The host reaches an instance's function (R408): a virtual function only while VF Enable is set and NumVFs covers it. -/
def State.reachable (s : State) (i : Nat) : Bool :=
  let n := s.instance_ i
  n.function = 0 || ((s.hostLink n.port).vfEnable && decide (n.function ≤ (s.hostLink n.port).numVfs))

/-- The state with a host link's settings changed. -/
def State.upHostLink (s : State) (l : Nat) (f : HostLink → HostLink) : State :=
  s.upPool fun p => { p with links := p.links.upd l {} f }

/-- The CXL host link whose memory instance this is (R276). -/
def State.memLink (s : State) (i : Nat) : Option Nat := (s.pool.links.find? fun l => l.2.memInst == some i).map (·.1)

/-- Key of an instance's slot. -/
def slotKey (i slot : Nat) : Nat := 16384 * i + slot

/-- An instance's slot (R275). -/
def State.slotOf (s : State) (i slot : Nat) : Option Slot := s.pool.slots.find (slotKey i slot)

/-- A downstream port's record. -/
def State.downOf (s : State) (p : Nat) : Downstream := s.pool.down.get p {}

/-- The state with a downstream port's record changed. -/
def State.upDown (s : State) (p : Nat) (f : Downstream → Downstream) : State :=
  s.upPool fun x => { x with down := x.down.upd p {} f }

/-- A virtual slot of a host link (R286). -/
def State.upVslot (s : State) (link vslot : Nat) (f : VSlot → VSlot) : State :=
  s.upPool fun x => { x with vslots := x.vslots.upd (32 * link + vslot) {} f }

/-- An access refused and counted against an instance (R33, R279). -/
def State.refuseAccess (s : State) (i : Nat) (result : Nat) : State :=
  (s.upPool fun p => { p with refused := p.refused.upd i 0 (· + 1) }).emit (.hostRsp i result 0)

/-! ### Binding (R282) -/

/-- A bound extent is announced: a Dynamic Capacity add towards a CXL host, in the region of the coherent-shared extents or that of the
private ones (R300), else an event (R282, R344). -/
def State.announce (s : State) (h : Nat) (at_ : Nat × Nat) : State :=
  match s.memLink at_.1 with
  | some l => s.emit (.capacity l 0 h ((s.extent h).use = 1))
  | none => s.post at_.1 0x03 0 at_.2 0 h

/-- An extent's slot entries and window entry become valid (R282). -/
def State.bindOne (s : State) (h : Nat) : State :=
  let e := s.extent h
  let s := s.upExtent h fun e => { e with state := .bound, slots := e.pending, pending := [], note := 0, zeroAfter := false }
  let s := s.upPool fun p => { p with slots := e.pending.foldl (fun (t : Tbl Slot) x => t.put (slotKey x.1 x.2) (.local h)) p.slots }
  match e.use, e.window with
  | 2, some (w, i) => s.upPool fun p => { p with
      windows := match p.windows.find w with
        | none => p.windows
        | some x => p.windows.put w { x with extents := x.extents.put i h, size := max x.size (i + 1) } }
  | _, _ => s

/-- The commit of a bind, and its announcements (R282). -/
def State.commitBind (s : State) (handles : List Nat) : State :=
  let s := handles.foldl State.bindOne s
  handles.foldl (fun s h => (s.extent h).slots.foldl (fun s x => s.announce h x) s) s

/-- A bind in progress that names an extent ends when none of its extents is zeroed any more: with the commit, or with
0x0501 when one was lost (R282, R296). -/
def State.settleBind (s : State) (h : Nat) : State :=
  match s.hly.progress.findSome? fun g => match g.wait with
      | .bind hs => if hs.contains h then some hs else none
      | _ => none with
  | none => s
  | some hs =>
    if hs.any fun x => (s.extent x).state == .zeroing then s
    else if hs.any fun x => (s.extent x).note == 0x0501 then
      let back := fun (e : Extent) => { e with
        pending := [], note := 0, zeroAfter := false, window := none, backing := none
        state := if e.state = .binding then (if e.zeroAfter then .freeClean else .freeDirty) else e.state }
      let s := (hs.foldl (fun s x => s.upExtent x back) s).upDir fun d => { d with
        windows := d.windows.mapv fun w => { w with extents := w.extents.filter fun x => !hs.contains x } }
      (s.upPool fun p => { p with windows := p.windows.keep fun i w =>
        !w.extents.isEmpty || p.extents.any fun x => x.2.use == 2 && (x.2.window.map (·.1)) == some i }).finishWait (.bind hs) 0x0501 0
    else (s.commitBind hs).finishWait (.bind hs) 0 0

/-! ### Unbinding (R283) -/

/-- Where an extent of the downstream pool lies in its expander: the logical device, and the unit of 256 MiB within it (R271). -/
def State.expanderPlace (s : State) (h : Nat) : Option (Nat × Nat) :=
  let p := s.handlePort h
  let k := h - (s.portHandles p).1
  let l := (s.downOf p).layout
  ((List.range l.length).find? fun j => decide (k < (l.take (j + 1)).sum)).map fun j => (j, k - (l.take j).sum)

/-- The fence of an unbind: every slot and the exported window stop mapping the extent (R283). -/
def State.fenceExtent (s : State) (h : Nat) : State :=
  let e := s.extent h
  let s := s.upExtent h fun e => { e with fenced := true, releaseWait := [], slots := [], pending := [] }
  s.upPool fun p => { p with
    slots := p.slots.keep fun _ x => match x with
      | .local y => y ≠ h
      | .import _ => true
    windows := match e.use, e.window with
      | 2, some (w, _) => match p.windows.find w with
        | none => p.windows
        | some x =>
          let ext := x.extents.keep fun _ y => y ≠ h
          if ext.isEmpty then p.windows.del w else p.windows.put w { x with extents := ext }
      | _, _ => p.windows }

/-- The unbind that names an extent completes when none of its extents is still being unbound (R283, R284, R296). -/
def State.settleUnbind (s : State) (h : Nat) : State :=
  match s.hly.progress.findSome? fun g => match g.wait with
      | .unbind hs z => if hs.contains h then some (hs, z) else none
      | _ => none with
  | none => s
  | some (hs, z) =>
    if hs.any fun x => (s.extent x).running then s
    else
      let st := hs.foldl (fun n x => max n (s.extent x).note) 0
      (hs.foldl (fun s x => s.upExtent x fun e => { e with note := 0 }) s).finishWait (.unbind hs z) st 0

/-- An extent's unbind is over: Free dirty or Free clean, Absent when it was Poisoned, Poisoned when it was lost
meanwhile (R280, R283, R291, R296). -/
def State.unbindEnds (s : State) (h : Nat) (clean : Bool) : State :=
  let e := s.extent h
  let st : ExtState := if e.state = .poisoned then (if e.note = 1 then .poisoned else .absent)
    else if clean then .freeClean else .freeDirty
  let s := s.upDir fun d => { d with
    windows := d.windows.mapv fun w => { w with extents := w.extents.filter (· ≠ h) }
    cache := (d.cache.mapv fun l => l.filter fun k => k / extentLines ≠ h).keep fun _ l => !l.isEmpty
    entries := if e.use = 1 then d.entries.keep fun k _ => k / extentLines ≠ h else d.entries }
  (s.upExtent h fun e => { e with
    state := st, running := false, fenced := false, zeroAfter := false, window := none, backing := none, use := 0
    owner := if st = .absent then .none else e.owner }).settleUnbind h

/-- What follows the recall of an unbind, or its drain where no recall is due: zeroing, or the end (R283). -/
def State.unbindZero (s : State) (h : Nat) : State :=
  let e := s.extent h
  if e.zeroAfter && e.state = .unbinding then s.upExtent h fun e => { e with state := .zeroing }
  else s.unbindEnds h false

/-- A recall that this extent's unbind awaits. -/
def State.recallOf (s : State) (h : Nat) : Option Recall := s.dir.recalls.find? fun r => r.handles == [h] && r.agents.isEmpty && !r.poison

/-- The step after an unbind's drain (R283, R291, R296). -/
def State.unbindDrained (s : State) (h : Nat) : State :=
  let e := s.extent h
  if e.state = .unbinding && e.use = 1 then
    let (id, s) := s.startRecall [h] [] false
    match s.dir.recalls.find? fun r => r.id == id with
    | some r =>
      if s.recallEnded r then
        (s.upDir fun d => { d with
          recalls := d.recalls.filter fun x => x.id ≠ id, intStatus := setFlag d.intStatus 4 }).unbindZero h
      else s
    | none => s
  else s.unbindZero h

/-! ### Functions and slots (R286 to R291) -/

/-- The device withdraws a bound function and FUNCTION_UNBIND completes (R287). -/
def State.functionGone (s : State) (f : BoundFn) (status : Nat) (surprise : Bool) : State :=
  let s := s.upVslot f.link f.vslot fun v => { present := false, attention := false, linkDown := surprise || v.linkDown }
  (s.upPool fun p => { p with
    functions := p.functions.filter fun x => !(x.port == f.port && x.routingId == f.routingId) }).finishWait
    (.functionUnbind f.port f.routingId) status 0

/-- Surprise removal of what stands behind an extent (R290, R296). -/
def State.poisonExtent (s : State) (h : Nat) : State :=
  let e := s.extent h
  let insts := (e.slots.map (·.1)).dedup
  let s := s.upExtent h fun e => { e with
    state := .poisoned, pending := []
    note := if e.running then 1 else if e.state = .zeroing || e.state = .binding then 0x0501 else e.note }
  let s := if e.use = 1 && e.window.isSome then
      let (id, s) := s.startRecall [h] [] true
      match s.dir.recalls.find? fun r => r.id == id with
      | some r => if s.recallEnded r then s.upDir fun d => { d with
          recalls := d.recalls.filter fun x => x.id ≠ id, intStatus := setFlag d.intStatus 4 } else s
      | none => s
    else s
  let s := if e.running then
      (if e.state = .zeroing then s.unbindEnds h false
       else match s.recallOf h with
        | some r => (s.upDir fun d => { d with recalls := d.recalls.filter fun x => x.id ≠ r.id }).unbindEnds h false
        | none => s)
    else s
  let s := (if e.state = .zeroing || e.state = .binding then s.settleBind h else s)
  -- EXTENT_ZERO of the extent ends with it
  let s := s.hly.progress.foldl (fun s g => match g.wait with
    | .zeroing hs _ => if hs.contains h then s.finishWait g.wait 0x0501 0 else s
    | _ => s) s
  insts.foldl (fun s i => s.post i 0x05 0 0 0 h) s

/-- The presence or the link of a downstream port is lost without SLOT_REMOVE (R290). -/
def State.surpriseRemoval (s : State) (p : Nat) : State :=
  let (first, n) := s.portHandles p
  let handles := (s.pool.extents.filter fun e => decide (first ≤ e.1) && decide (e.1 < first + n) && e.2.state != .absent).map (·.1)
  let s := handles.foldl State.poisonExtent s
  let s := (s.pool.functions.filter fun f => s.leadPort f.port == s.leadPort p).foldl (fun s f =>
    let s := s.upVslot f.link f.vslot fun v => { v with linkDown := true }
    let s := if f.unbinding = 0 then s else s.functionGone f 0 true
    match s.ins.inst.find? fun i => i.2.state != .free && i.2.port == f.link && i.2.function == 0 with
    | some (i, _) => s.post i 0x05 0 f.vslot 0 f.routingId
    | none => s) s
  let s := s.upDown p fun d => { d with step := 0, functions := [], held := false }
  (s.emit (.poolEvent false [p, (s.downOf p).serial, handles.length])).raise 1475 (.port p)

/-- A slot of a downstream port still holds Poisoned extents (R291). -/
def State.slotPoisoned (s : State) (p : Nat) : Bool :=
  let (first, n) := s.portHandles p
  s.pool.extents.any fun e => decide (first ≤ e.1) && decide (e.1 < first + n) && e.2.state == .poisoned

end Sys2Proof.Machine
end

