-- ==== Sys2Proof/Machine/Power.lean ====
section
/-!
DEFINITION. The power channels (R489 to R505): their settings, state machine, trips and capture, and the
faults of the power and slot die.
Where the spec leaves a point open: DEDUCED 45, 48, 51 (notes/assumptions).
-/
namespace Sys2Proof.Machine

/-! ### Channels and settings -/

/-- A channel. -/
def State.chan (s : State) (c : Nat) : Chan := s.pwr.chans.get c {}

/-- The state with a channel changed. -/
def State.upChan (s : State) (c : Nat) (f : Chan → Chan) : State :=
  s.upPwr fun w => { w with chans := w.chans.upd c {} f }

/-- Default settings of a feed and of a slot, in the steps of each (R516). -/
def feedDefault : ChanSet :=
  { inrush := 30, energyBudget := 20, fastTrip := 250, limit := 115, faultTime := 10, rampTimeout := 50, retryCount := 0 }
def slotDefault : ChanSet :=
  { inrush := 20, energyBudget := 50, fastTrip := 25, limit := 70, faultTime := 10, rampTimeout := 50, retryCount := 0 }

/-- Settings in force on a channel (R516). -/
def State.chanSet (s : State) (c : Nat) : ChanSet := (s.chan c).set_.getD (if c < 2 then feedDefault else slotDefault)

/-- A current setting in mA, by its step (R516): feeds 1 A; slots 0.1 A. -/
def limitMa (c steps : Nat) : Nat := if c < 2 then 1000 * steps else 100 * steps

/-- Settings outside their ranges, or out of order (R515, R516). -/
def chanSetBad (c : Nat) (x : ChanSet) : Bool :=
  let out := fun (lo hi v : Nat) => decide (v < lo) || decide (hi < v)
  (if c < 2 then out 5 60 x.inrush || out 1 200 x.energyBudget || out 100 300 x.fastTrip || out 20 150 x.limit
   else out 2 100 x.inrush || out 1 500 x.energyBudget || out 2 50 x.fastTrip || out 5 200 x.limit) ||
    out 1 100 x.faultTime || out 1 100 x.rampTimeout || decide (7 < x.retryCount) ||
    decide (limitMa c x.limit ≤ limitMa c x.inrush) || decide (1000 * x.fastTrip ≤ limitMa c x.limit)

/-- New settings by a change mask whose first bit of them is `i` (R443, R515). -/
def mergeSet (cm i : Nat) (new old : ChanSet) : ChanSet :=
  { inrush := pick cm i new.inrush old.inrush, energyBudget := pick cm (i + 1) new.energyBudget old.energyBudget
    fastTrip := pick cm (i + 2) new.fastTrip old.fastTrip, limit := pick cm (i + 3) new.limit old.limit
    faultTime := pick cm (i + 4) new.faultTime old.faultTime, rampTimeout := pick cm (i + 5) new.rampTimeout old.rampTimeout
    retryCount := pick cm (i + 6) new.retryCount old.retryCount }

/-- Gate on (R494): a feed's gate is off while reverse current holds it off (R493). -/
def Chan.gate (c : Chan) : Bool := (c.state = .ramping || c.state = .qualifying || c.state = .on) && !c.reverseOff

/-- The state codes of R494. -/
def chanNum : ChanState → Nat
  | .off => 0
  | .insertion => 1
  | .ramping => 2
  | .qualifying => 3
  | .on => 4
  | .coolDown => 5
  | .latchedOff => 6

/-- The slot channel's downstream port: slot s supplies port s (R289). -/
def slotPort (c : Nat) : Nat := c - 2

/-! ### Faults of the power and slot die (R511, R518) -/

/-- Interrupt flags of an event, by the code that bare poles records it with (R519). -/
def State.powerFlags (s : State) (code : Nat) : State :=
  if 4096 ≤ code then s.upPwr fun w => { w with sltStatus := setFlag w.sltStatus 4 }
  else match code with
    | 1408 | 1409 => s.upPwr fun w => { w with intStatus := setFlag w.intStatus 1 }
    | 1410 => s.upPwr fun w => { w with intStatus := setFlag w.intStatus 2 }
    | 1411 => s.upPwr fun w => { w with intStatus := setFlag w.intStatus 3 }
    | 1412 | 2048 => s.upPwr fun w => { w with intStatus := setFlag w.intStatus 0 }
    | 1414 => s.upPwr fun w => { w with intStatus := setFlag w.intStatus 5 }
    | 1472 => s.upPwr fun w => { w with sltStatus := setFlag w.sltStatus 0 }
    | 1473 => s.upPwr fun w => { w with sltStatus := setFlag w.sltStatus 1 }
    | 1474 => s.upPwr fun w => { w with sltStatus := setFlag w.sltStatus 3 }
    | _ => s

/-- A slot's presence change: its flag, and its interrupt source latches (R483, R519). -/
def State.presenceFlag (s : State) (slot : Nat) : State := (s.powerFlags (4096 + slot)).latchSrc (512 + slot)

/-- An event of the power and slot die: its flags and its source, or a record of it in bare poles (R511, R518). -/
def State.powerEvent (s : State) (code : Nat) : State :=
  if s.pwr.mode = .barePoles then s.upPwr fun w => { w with recorded := addOnce w.recorded code }
  else (s.powerFlags code).raise code

/-- The same for a level source whose condition holds: it raises once (R521). -/
def State.powerLevel (s : State) (code : Nat) (holds : Bool) : State :=
  if !holds then (if (s.fault code).active then s.lower code else s)
  else if (s.fault code).active then s
  else (s.upFault code fun f => { f with active := true }).powerEvent code

/-- The level conditions of the channels (R493, R500, R518), and the loss of all power when the last feed loses
power-good. -/
def State.settlePower (s : State) (had : Nat) : State :=
  let on := (if (s.chan 0).state = .on then 1 else 0) + (if (s.chan 1).state = .on then 1 else 0)
  let s := s.powerLevel 1411 (decide (on < 2))
  let s := s.powerLevel 1413 ((s.chan 0).state = .latchedOff || (s.chan 1).state = .latchedOff)
  let s := s.powerLevel 1473 ((List.range 32).any fun n => (s.chan (n + 2)).state = .latchedOff)
  if 0 < had && on = 0 then s.upPwr fun w => { w with lost := true } else s

/-- Feeds that hold power-good. -/
def State.feedsOn (s : State) : Nat := (if (s.chan 0).state = .on then 1 else 0) + (if (s.chan 1).state = .on then 1 else 0)

/-! ### Transitions (R494) -/

/-- A channel starts Ramping (R494, R499, R504): the energy sum of the budget is cleared, and continuous capture runs. -/
def State.startRamp (s : State) (c : Nat) : State :=
  s.upChan c fun x => { x with state := .ramping, timer := false, withheld := false, capture := { x.capture with startUp := true } }

/-- A channel goes to Off; a feed in window begins its insertion delay (R491, R494). -/
def State.chanOff (s : State) (c : Nat) (clear : Bool) : State :=
  s.upChan c fun x => { x with
    state := if c < 2 && x.inWindow then .insertion else .off
    timer := false, withheld := false, reverseOff := false
    attempts := if clear then 0 else x.attempts, retries := if clear then 0 else x.retries }

/-- A slot that was On has lost its power without SLOT_REMOVE (R290, R503). -/
def State.slotSurprise (s : State) (c : Nat) : State :=
  let p := s.leadPort (slotPort c)
  if s.pwr.mode ≠ .barePoles && s.isDownstream p && decide (0 < (s.downOf p).step) then s.surpriseRemoval p else s

/-- A trip with cause 1 to 5 (R499, R500): Cool-down while retries are left, else Latched off. -/
def State.trip (s : State) (c cause : Nat) : State :=
  let s := s.wake
  let had := s.feedsOn
  let x := s.chan c
  let n := (s.chanSet c).retryCount
  let again := decide (x.retries < n)
  let s := s.upChan c fun x => { x with
    state := if again then .coolDown else .latchedOff
    timer := false, withheld := false, reverseOff := false, lastCause := cause
    attempts := min 7 (x.attempts + 1), retries := if again then x.retries + 1 else x.retries
    capture := { x.capture with recovery := true } }
  let s := s.powerEvent (if c < 2 then 1412 else 1472)
  let s := if 2 ≤ c && x.state = .on then s.slotSurprise c else s
  s.settlePower had

/-- A feed at power-good leaves a window (R492): no attempt is counted. -/
def State.windowTrip (s : State) (feed cause : Nat) : State :=
  let s := s.wake
  let had := s.feedsOn
  let s := (s.chanOff feed false).upChan feed fun x => { x with
    lastCause := cause, capture := { x.capture with recovery := true } }
  let s := if s.pwr.mode = .barePoles then s.upPwr fun w => { w with recorded := addOnce w.recorded 2048 }
    else s.powerFlags 2048
  s.settlePower had

/-- An ordered switch-off (R494, R498, R517). -/
def State.switchOff (s : State) (c : Nat) (clear : Bool) : State :=
  let had := s.feedsOn
  (s.chanOff c clear).settlePower had

/-- A slot's power is wanted by its presence (R288, R291, R501): the slot is held at step 1 while Poisoned extents are
left. -/
def State.presencePower (s : State) (slot : Nat) : State :=
  let p := s.leadPort slot
  let x := s.chan (slot + 2)
  if s.slotPoisoned p then s.upDown p fun d => { d with held := true, step := 1 }
  else
    let s := s.upDown p fun d => { d with held := false, step := max 1 d.step }
    if x.enabled && x.autoPower && x.state = .off then s.startRamp (slot + 2) else s

/-- Slots held at step 1 whose Poisoned extents have all become Absent (R291). -/
def State.settleHeld (s : State) : State :=
  let ps := (s.pool.down.filter fun e => e.2.held && !s.slotPoisoned e.1).map (·.1)
  ps.foldl (fun s p => (s.upDown p fun d => { d with held := false }).presencePower p) s

/-- The slot's presence input is read, debounced (R288, R501, R511). -/
def State.presenceSeen (s : State) (slot : Nat) : State :=
  let s := s.upChan (slot + 2) fun x => { x with present := true }
  if s.pwr.mode = .barePoles then s.upPwr fun w => { w with recorded := addOnce w.recorded (4096 + slot) }
  else (s.presenceFlag slot).presencePower slot

/-- Presence lost (R290, R500, R511, R517). -/
def State.presenceGone (s : State) (slot port : Nat) : State :=
  let c := slot + 2
  let st := (s.chan c).state
  let s := s.upChan c fun x => { x with present := false, attempts := 0, retries := 0 }
  let s := if st = .ramping || st = .qualifying || st = .coolDown then s.chanOff c true else s
  if s.pwr.mode = .barePoles then s.upPwr fun w => { w with recorded := addOnce w.recorded (4096 + slot) }
  else
    let s := s.presenceFlag slot
    let p := s.leadPort port
    if s.isDownstream p && decide (0 < (s.downOf p).step) then s.surpriseRemoval p else s

/-- What bare poles recorded is acted on after the boot (R511). -/
def State.actRecorded (s : State) : State :=
  let codes := s.pwr.recorded
  let s := s.upPwr fun w => { w with recorded := [] }
  codes.foldl (fun s code =>
    if 4096 ≤ code then
      (if (s.chan (code - 4096 + 2)).present then s.presenceSeen (code - 4096) else s.presenceFlag (code - 4096))
    else (s.powerFlags code).raise code) s

/-! ### Measurement (R504, R505) -/

/-- The continuous regime (R504). -/
def Capture.any (c : Capture) : Bool := c.startUp || c.recovery || c.test

/-- The image of a capture record (R505). -/
def Chan.record (x : Chan) (voltage current power cause : Nat) : Nat :=
  packBits [(voltage, 16), (current, 16), (power, 16), (chanNum x.state, 3), (b2n (x.state = .on), 1), (b2n x.timer, 1), (cause, 3),
    (x.sequence, 8)]

end Sys2Proof.Machine
end

