-- ==== Sys2Proof/Machine/Access.lean ====
section
/-!
DEFINITION. Regions and one-sided access at the destination (R331, R345 to R349), and the lock table
(R365 to R368).
Where the spec leaves a point open: DESIGN CHOICE 121; DEDUCED 88, 122 (notes/assumptions).
-/
namespace Sys2Proof.Machine

/-! ### Regions -/

/-- The serving cluster of an access (R331). -/
def clusterOf (a : Access) : Nat := (a.region + a.offset / 4096) % 16

/-- A region entry that is valid (R346). -/
def State.region (s : State) (i : Nat) : Option RegionP := (s.mec.regions.find i).filter (·.valid)

/-- A source passes a region's filter (R345). -/
def regionPasses (r : RegionP) (device inst : Nat) : Bool :=
  ((r.filterDevice.xor device).land r.filterMask == 0) && (r.filterAny || r.filterInst == inst)

/-- Where an instance's heap begins in the HBM: heaps lie in instance order in their region (R292, R373). -/
def State.heapBase (s : State) (i : Nat) : Nat :=
  (4 + s.pool.dirUnits + s.pool.mtcUnits) * 2 ^ 28 + 2097152 * sumOf (s.mec.inst.filter fun e => decide (e.1 < i)) fun e => e.2.heap

/-- The address in `Pool.mem` of byte `o` of an instance's heap. -/
def heapByte (i o : Nat) : Nat := 2 ^ 47 + 2 ^ 40 * i + o

/-- The access of a serving unit, as its protection unit sees it (R470, R473). -/
def State.regionAccess (s : State) (r : RegionP) (master kind offset length : Nat) : MpuAccess :=
  let first := if r.kind = 0 then 4096 * r.base + offset else s.heapBase r.inst + 4096 * r.base + offset
  { master, kind, privilege := 1, space := r.kind, address := first
    pageCount := (first + length - 1) / 4096 + 1 - first / 4096, inst := r.inst }

/-- The first failure of R346, by the status that answers it. `right` is 0 read, 1 write, 2 atomic, 3 lock. -/
def State.regionRefusal (s : State) (device inst : Nat) (a : Access) (right : Nat) : Option Nat :=
  match s.region a.region with
  | none => some stRemoteAccess
  | some r =>
    if r.key ≠ a.key || !regionPasses r device inst || !r.rights.testBit right || decide (4096 * r.length < a.offset + a.length) then
      some stRemoteAccess
    else if !s.enabled r.inst then some stRemoteInstance
    else none

/-- A refusal by the serving unit's protection unit leaves its record and fault (R473 to R475). -/
def State.protect (s : State) (a : MpuAccess) : Bool × State :=
  match s.mpuRefusal a with
  | none => (true, s)
  | some (region, page) => (false, (s.violate a region page).noteViolation a region)

/-- The whole check of an access by a serving cluster: the region that passes, or the status (R346, R474). -/
def State.guard (s : State) (r : Req) (a : Access) (right kind : Nat) : Except Nat RegionP × State :=
  match s.regionRefusal r.srcDevice r.srcInst a right, s.region a.region with
  | some st, _ => (.error st, s)
  | none, none => (.error stRemoteAccess, s)
  | none, some g =>
    match s.protect (s.regionAccess g (128 + clusterOf a) kind a.offset a.length) with
    | (true, s) => (.ok g, s)
    | (false, s) => (.error stRemoteAccess, s)

/-- Bytes written to a region (R347): to memory of the owner's function, or to its heap. -/
def State.writeRegion (s : State) (g : RegionP) (offset : Nat) (data : List Nat) : State :=
  if g.kind = 0 then s.hostWrite g.inst (4096 * g.base + offset) data
  else (s.upPool fun p => { p with mem := memWrite p.mem (heapByte g.inst (4096 * g.base + offset)) data }).emit
    (.regionWrite g.region offset data)

/-- A PUT or an atomic has landed in a region: its counter advances (R345, R353). -/
def State.landed (s : State) (g : RegionP) : State := if g.counterValid then s.bump g.inst g.counter else s

/-- ENG_ERROR to a requester (R346), from the cluster that serves it (R93, R331). -/
def State.engError (s : State) (r : Req) (cluster status : Nat) : State :=
  s.respond 0x18 r.srcDevice r.srcInst r.opTag r.instGen status 0 r.sl [] (input := inputFor 0x18 cluster)

/-- The cluster of the unit that reads: a cluster's bulk mover, or an engine (R331, R470). -/
def PendRead.cluster (p : PendRead) : Nat := if 128 ≤ p.master then p.master - 128 else p.master / 8

/-- The memory of the part being read (R226). -/
def PendRead.source (p : PendRead) : Source := { inst := p.inst, address := p.address, length := p.part, master := p.master, heap := false }

/-! ### One-sided operations -/

/-- A request that is served once it has passed its checks (R346, R374). -/
def State.checked (s : State) (r : Req) (a : Access) (right kind : Nat) (serve : RegionP → State → State) : State :=
  match s.guard r a right kind with
  | (.error st, s) => s.engError r (clusterOf a) st
  | (.ok g, s) => serve g (s.engineBusy g.inst)

/-- A packet of a PUT served (R347). -/
def State.servePut (s : State) (g : RegionP) (r : Req) (a : Access) (data : List Nat) (last : Bool) : State :=
  let s := s.writeRegion g a.offset data
  if last then
    (s.respond 0x10 r.srcDevice r.srcInst r.opTag r.instGen stSuccess 0 r.sl [] (input := inputFor 0x10 (clusterOf a))).landed g
  else s

/-- One packet of the data of a GET or an RGET (R347, R361), as traffic of the instance `own` (R350). -/
def State.sendData (s : State) (r : Req) (opcode own cluster offset : Nat) (src : Source) (data : List Nat) : State :=
  s.respond opcode r.srcDevice r.srcInst r.opTag r.instGen stSuccess offset r.sl data 0 (some own) (inputFor opcode cluster) (some src)

/-- The data of a GET or an RGET that lies in the heap, in packets of up to 4,096 bytes (R347, R361): `address` is that of the
whole in `Pool.mem`. -/
def State.sendHeapData (s : State) (r : Req) (opcode own cluster address offset length : Nat) : Nat → State
  | 0 => s
  | fuel + 1 =>
    let n := min 4096 (length - offset)
    if n = 0 then s
    else
      (s.sendData r opcode own cluster offset { inst := own, address := address + offset, length := n, master := 0, heap := true }
        (memRead s.pool.mem (address + offset) n)).sendHeapData r opcode own cluster address (offset + n) length fuel

/-- A GET served (R347): it is answered at once from the heap, from host memory as its reads complete. -/
def State.serveGet (s : State) (g : RegionP) (r : Req) (a : Access) (poison : Bool) : State :=
  if g.kind = 0 then
    s.issueRead {
      inst := g.inst, req := r, opcode := 0x11, address := 4096 * g.base + a.offset, offset := 0, left := a.length
      master := 128 + clusterOf a }
  else if poison then s.engError r (clusterOf a) stPoisoned
  else s.sendHeapData r 0x11 g.inst (clusterOf a) (heapByte g.inst (4096 * g.base + a.offset)) 0 a.length (ceilDiv a.length 4096)

/-- The value that an atomic stores (R348), on `w` bits. -/
def atomicStore (aop w a b old : Nat) : Nat :=
  let m := 2 ^ w
  let sgn := fun (n : Nat) => (BitVec.ofNat w n).toInt
  match aop with
  | 0 => (old + a) % m
  | 1 => if old = a then b else old
  | 2 => a
  | 3 => if sgn a < sgn old then a else old
  | 4 => if sgn old < sgn a then a else old
  | 5 => min old a
  | _ => max old a

/-- Bytes that an atomic works on (R348). -/
def atomicSize (size16 : Bool) : Nat := if size16 then 16 else 8

/-- An ATOMIC served (R348): the old value of host memory is what the read returned. -/
def State.serveAtomic (s : State) (g : RegionP) (r : Req) (a : Access) (aop : Nat) (size16 : Bool) (opA opB old : Nat) : State :=
  let n := atomicSize size16
  if 6 < aop || a.offset % n ≠ 0 then s.engError r (clusterOf a) stBadDescriptor
  else
    let old := if g.kind = 0 then old % 2 ^ (8 * n)
      else ofBytesLE (memRead s.pool.mem (heapByte g.inst (4096 * g.base + a.offset)) n)
    let s := s.writeRegion g a.offset (bytesLE n (atomicStore aop (8 * n) (opA % 2 ^ (8 * n)) (opB % 2 ^ (8 * n)) old))
    (s.respond 0x12 r.srcDevice r.srcInst r.opTag r.instGen stSuccess 0 r.sl (bytesLE n old) n
      (input := inputFor 0x12 (clusterOf a))).landed g

/-! ### Locks -/

/-- The owner that a request stands for (R365). -/
def ownerOf (r : Req) : LockOwner := { device := r.srcDevice, inst := r.srcInst, queue := r.srcQueue }

/-- Two ranges of a region overlap. -/
def LockEntry.meets (e : LockEntry) (region offset length : Nat) : Bool :=
  e.region == region && decide (e.offset < offset + length) && decide (offset < e.offset + e.length)

/-- A Held entry of another owner overlaps a range (R366, R367). -/
def State.heldByOther (s : State) (o : LockOwner) (region offset length : Nat) : Bool :=
  s.locks.table.any fun e => !e.2.abandoned && e.2.owner != o && e.2.meets region offset length

/-- Any Held entry overlaps a range (R366). -/
def State.held (s : State) (region offset length : Nat) : Bool :=
  s.locks.table.any fun e => !e.2.abandoned && e.2.meets region offset length

/-- LOCK_RESULT (R351). -/
def State.lockResult (s : State) (r : Req) (a : Access) (status index : Nat) : State :=
  s.respond 0x13 r.srcDevice r.srcInst r.opTag r.instGen status 0 r.sl (bytesLE 2 index) (input := inputFor 0x13 (clusterOf a))

/-- A range given to a requester, where no Held entry overlaps it (R366). -/
def State.grantLock (s : State) (r : Req) (a : Access) : State :=
  let old := s.locks.table.filter fun e => e.2.abandoned && e.2.meets a.region a.offset a.length
  let table := s.locks.table.keep fun _ e => !(e.abandoned && e.meets a.region a.offset a.length)
  match (List.range 4096).find? fun i => !table.has i with
  | none => s.lockResult r a stLockLimit 0
  | some free =>
    let i := (old.head?.map (·.1)).getD free
    (s.upLocks fun l => { l with
      table := table.put i { region := a.region, offset := a.offset, length := a.length, owner := ownerOf r } }).lockResult r a
      (if old.isEmpty then stSuccess else stLockAbandoned) i

/-- A waiting command put in the wait list (R366, R367). -/
def State.waitLock (s : State) (g : RegionP) (r : Req) (a : Access) (isLock : Bool) (what : Instr) : State :=
  s.upLocks fun l => { l with waits := l.waits ++ [{
    owner := ownerOf r, req := r, region := a.region, offset := a.offset, length := a.length, isLock, entry := g, what }] }

/-- A LOCK served (R366). -/
def State.serveLock (s : State) (g : RegionP) (r : Req) (a : Access) (wait : Bool) (what : Instr) : State :=
  if a.offset % 64 ≠ 0 || a.length % 64 ≠ 0 || a.length = 0 || decide (1048576 < a.length) then s.engError r (clusterOf a) stBadDescriptor
  else if s.held a.region a.offset a.length then
    if wait && decide (s.locks.waits.length < 4096) then s.waitLock g r a true what else s.lockResult r a stLockBusy 0
  else s.grantLock r a

/-- A LOCK or an UNLOCK that passes R346: it touches no memory. -/
def State.checkedLock (s : State) (r : Req) (a : Access) (serve : RegionP → State → State) : State :=
  match s.regionRefusal r.srcDevice r.srcInst a 3, s.region a.region with
  | some st, _ => s.engError r (clusterOf a) st
  | none, some g => serve g s
  | none, none => s

/-- An access that may wait on a Held range (R367). -/
def State.behindLock (s : State) (g : RegionP) (r : Req) (a : Access) (what : Instr) (serve : State → State) : State :=
  if s.heldByOther (ownerOf r) a.region a.offset a.length then
    if s.locks.waits.length < 4096 then s.waitLock g r a false what else s.engError r (clusterOf a) stLockBusy
  else serve s

/-- What a waiter does once nothing holds it back (R366, R367). -/
def State.serveWaiter (s : State) (w : LockWait) : State :=
  match w.what with
  | .putArrival r a data last => s.servePut w.entry r a data last
  | .getArrival r a poison => s.serveGet w.entry r a poison
  | .atomicArrival r a aop size16 opA opB old => s.serveAtomic w.entry r a aop size16 opA opB old
  | .lockArrival r a _ => s.grantLock r a
  | _ => s

/-- The waiters that a change of the table sets free, in their order of arrival (R366 to R368). -/
def State.runWaits (s : State) : State :=
  let ws := s.locks.waits
  ws.foldl (fun s w =>
    let blocked := if w.isLock then s.held w.region w.offset w.length else s.heldByOther w.owner w.region w.offset w.length
    if blocked then s.upLocks fun l => { l with waits := l.waits ++ [w] } else s.serveWaiter w)
    (s.upLocks fun l => { l with waits := [] })

/-- A Held entry becomes Abandoned, and its first waiters are served (R368). -/
def State.abandonLock (s : State) (i : Nat) : State :=
  match s.locks.table.find i with
  | none => s
  | some e => (s.upLocks fun l => { l with table := l.table.put i { e with abandoned := true } }).runWaits

/-- UNLOCK served (R367). -/
def State.serveUnlock (s : State) (r : Req) (a : Access) : State :=
  match s.locks.table.find? fun e => !e.2.abandoned && e.2.region == a.region && e.2.offset == a.offset &&
      e.2.length == a.length && e.2.owner == ownerOf r with
  | none => s.lockResult r a stNotOwner 0
  | some (i, _) => ((s.upLocks fun l => { l with table := l.table.del i }).lockResult r a stSuccess i).runWaits

/-- LOCK_ABANDON of an owner (R368, R376). -/
def State.abandonOwner (s : State) (o : LockOwner) : State :=
  let ids := (s.locks.table.filter fun e => !e.2.abandoned && e.2.owner == o).map (·.1)
  if ids.isEmpty then s.upLocks fun l => { l with unmatched := l.unmatched + 1 }
  else ids.foldl State.abandonLock s

end Sys2Proof.Machine
end

