-- ==== Sys2Proof/Machine/Numbers.lean ====
section
/-!
DEFINITION. The arithmetic of collectives: element types and operations (R381, R382), exact records
(R383 to R386), and the binary64 addition of ordered sums (R387).
-/
namespace Sys2Proof.Machine

/-- Bytes of an element type (R381). -/
def typeWidth (t : Nat) : Nat :=
  match t with
  | 0 => 4
  | 1 => 4
  | 2 => 8
  | 3 => 8
  | 4 => 2
  | 5 => 2
  | 6 => 4
  | _ => 8

/-- A floating-point type. -/
def isFloat (t : Nat) : Bool := decide (4 ≤ t) && decide (t ≤ 7)

/-- Exponent bits of a floating-point type. -/
def expBits (t : Nat) : Nat :=
  match t with
  | 4 => 5
  | 5 => 8
  | 6 => 8
  | _ => 11

/-- Fraction bits of a floating-point type. -/
def fracBits (t : Nat) : Nat :=
  match t with
  | 4 => 10
  | 5 => 7
  | 6 => 23
  | _ => 52

/-- The fields of a floating-point pattern: sign, biased exponent, fraction. -/
def fpSign (t v : Nat) : Bool := v.testBit (8 * typeWidth t - 1)
def fpExp (t v : Nat) : Nat := v / 2 ^ fracBits t % 2 ^ expBits t
def fpFrac (t v : Nat) : Nat := v % 2 ^ fracBits t

/-- The largest biased exponent: infinities and NaNs. -/
def expMax (t : Nat) : Nat := 2 ^ expBits t - 1

def fpNan (t v : Nat) : Bool := fpExp t v == expMax t && fpFrac t v != 0
def fpInf (t v : Nat) : Bool := fpExp t v == expMax t && fpFrac t v == 0
def fpZero (t v : Nat) : Bool := fpExp t v == 0 && fpFrac t v == 0

/-- The sign bit of a type. -/
def signBit (t : Nat) : Nat := 2 ^ (8 * typeWidth t - 1)

/-- The pattern of +infinity. -/
def plusInf (t : Nat) : Nat := expMax t * 2 ^ fracBits t

/-- The canonical quiet NaN (R382). -/
def quietNan (t : Nat) : Nat := plusInf t + 2 ^ (fracBits t - 1)

/-- The magnitude of a finite pattern in units of the type's smallest subnormal (R384). -/
def fpMagnitude (t v : Nat) : Nat :=
  if fpExp t v = 0 then fpFrac t v else (2 ^ fracBits t + fpFrac t v) * 2 ^ (fpExp t v - 1)

/-- The value of a finite pattern in units of the type's smallest subnormal (R384). -/
def fpValue (t v : Nat) : Int := if fpSign t v then -(fpMagnitude t v : Int) else fpMagnitude t v

/-- A magnitude in units of the smallest subnormal rounded to nearest, ties to even, as a pattern without
its sign; beyond the largest finite value, infinity (R386). -/
def roundMagnitude (t n : Nat) : Nat :=
  let f := fracBits t
  if n < 2 ^ (f + 1) then n
  else
    let k := Nat.log2 n - f
    let q := n / 2 ^ k
    let r := n % 2 ^ k
    let half := 2 ^ (k - 1)
    let q := if half < r || (r = half && q % 2 = 1) then q + 1 else q
    min (plusInf t) (k * 2 ^ f + q)

/-- A non-zero value rounded to the type (R386). -/
def roundValue (t : Nat) (v : Int) : Nat := roundMagnitude t v.natAbs + (if v < 0 then signBit t else 0)

/-- The sum of the type is carried in exact records (R383). -/
def exactSum (t op : Nat) : Bool := op = 0 && decide (4 ≤ t) && decide (t ≤ 6)

/-- The sum of the type is combined in slot order (R387). -/
def orderedSum (t op : Nat) : Bool := op = 0 && t = 7

/-- A contribution as an exact record (R384). -/
def toRecord (t v : Nat) : Elem :=
  if fpNan t v then .exact 0 true false false true
  else if fpInf t v then .exact 0 false (!fpSign t v) (fpSign t v) true
  else if fpZero t v then .exact 0 false false false (!fpSign t v)
  else .exact (BitVec.ofInt 320 (fpValue t v)) false false false true

/-- The result of a record (R386). -/
def ofRecord (t : Nat) (acc : BitVec 320) (nan posInf negInf nonNegZero : Bool) : Nat :=
  if nan || (posInf && negInf) then quietNan t
  else if posInf then plusInf t
  else if negInf then plusInf t + signBit t
  else if acc = 0 then (if nonNegZero then 0 else signBit t)
  else roundValue t acc.toInt

/-- An exact record of 48 bytes, as a number (R383). -/
def recordImage (acc : BitVec 320) (nan posInf negInf nonNegZero : Bool) : Nat :=
  packBits [(acc.toNat, 320), (b2n nan, 1), (b2n posInf, 1), (b2n negInf, 1), (b2n nonNegZero, 1)]

/-- The record that 48 bytes hold (R383). -/
def recordOf (v : Nat) : Elem :=
  .exact (BitVec.ofNat 320 v) (v.testBit 320) (v.testBit 321) (v.testBit 322) (v.testBit 323)

/-- An IEEE 754 binary64 addition, round to nearest even, with the canonical NaN (R387). -/
def addDouble (a b : Nat) : Nat :=
  if fpNan 7 a || fpNan 7 b then quietNan 7
  else if fpInf 7 a && fpInf 7 b then (if fpSign 7 a = fpSign 7 b then a else quietNan 7)
  else if fpInf 7 a then a
  else if fpInf 7 b then b
  else
    let v := fpValue 7 a + fpValue 7 b
    if v = 0 then (if fpSign 7 a && fpSign 7 b then signBit 7 else 0) else roundValue 7 v

/-- A signed integer type (R381). -/
def isSigned (t : Nat) : Bool := t = 0 || t = 2

/-- A floating-point order in which −0 is less than +0 (R382). -/
def fpKey (t v : Nat) : Int := if fpSign t v then -(v % signBit t : Nat) - 1 else (v % signBit t : Nat)

/-- The lesser, or the greater, of two native values (R382). -/
def pickNative (t : Nat) (least : Bool) (a b : Nat) : Nat :=
  if isFloat t then
    if fpNan t a || fpNan t b then quietNan t
    else if (decide (fpKey t a ≤ fpKey t b)) = least then a else b
  else if isSigned t then
    let w := 8 * typeWidth t
    if (decide ((BitVec.ofNat w a).toInt ≤ (BitVec.ofNat w b).toInt)) = least then a else b
  else if (decide (a ≤ b)) = least then a else b

/-- Two native values combined (R381, R382, R387). -/
def combineNative (t op a b : Nat) : Nat :=
  match op with
  | 0 => if t = 7 then addDouble a b else (a + b) % 2 ^ (8 * typeWidth t)
  | 1 => pickNative t true a b
  | 2 => pickNative t false a b
  | 3 => a.land b
  | 4 => a.lor b
  | _ => a.xor b

/-- Two elements combined: records exactly (R385), native values by the operation. -/
def combineElem (t op : Nat) (a b : Elem) : Elem :=
  match a, b with
  | .exact x n p m z, .exact y n' p' m' z' => .exact (x + y) (n || n') (p || p') (m || m') (z || z')
  | .native x, .native y => .native (combineNative t op x y)
  | x, _ => x

/-- A member's native value as an element of a group's working area (R384). -/
def toElem (t op v : Nat) : Elem := if exactSum t op then toRecord t v else .native v

/-- An element of a packet from a child as an element of the working area (R383). -/
def ofWire (t op v : Nat) : Elem := if exactSum t op then recordOf v else .native v

/-- An element's native result at the root (R382, R386): a single floating-point NaN is made canonical. -/
def finalValue (t op : Nat) (e : Elem) : Nat :=
  match e with
  | .exact acc n p m z => ofRecord t acc n p m z
  | .native v => if isFloat t && (decide (op ≤ 2)) && fpNan t v then quietNan t else v

end Sys2Proof.Machine
end

