-- ==== Sys2Proof/Machine/Rounds.lean ====
section
/-!
DEFINITION. The rounds of collective groups (R387 to R398): inputs and chunks, what travels up and down,
results written to members, and fences.
-/
namespace Sys2Proof.Machine

/-- An installed group. -/
def State.group (s : State) (g : Nat) : Option Group := s.rdx.groups.find g

/-- The state with an installed group changed. -/
def State.upGroup (s : State) (g : Nat) (f : Group → Group) : State :=
  s.upRdx fun r => match r.groups.find g with
    | none => r
    | some x => { r with groups := r.groups.put g (f x) }

/-- Barrier and broadcast send arrivals only (R380). -/
def Group.arrivalsOnly (g : Group) : Bool := decide (g.p.operation ≤ 1)

/-- The inputs of a group in the fixed order: member slots, then child slots as 16 + slot (R387). -/
def Group.slots (g : Group) : List Nat := List.range g.p.members.length ++ (List.range g.p.children.length).map (16 + ·)

/-- An input slot is fenced. -/
def Group.isFenced (g : Group) (k : Nat) : Bool := if k < 16 then g.memberFenced.contains k else g.childFenced.contains (k - 16)

/-- An input of the open round. -/
def Group.input (g : Group) (k : Nat) : RdxInput := g.inputs.get k {}

/-- Elements in a chunk on the way up (R391). -/
def Group.chunk (g : Group) : Nat :=
  if exactSum g.p.type g.p.op then 85 else if orderedSum g.p.type g.p.op then 512 else 4096 / typeWidth g.p.type

/-- Elements in a chunk on the way down (R391). -/
def Group.downChunk (g : Group) : Nat := 4096 / typeWidth g.p.type

/-- Every input holds the elements [a, a + n) (R391). -/
def Group.holds (g : Group) (a n : Nat) : Bool :=
  (g.slots.filter fun k => !g.isFenced k).all fun k => (List.range n).all fun i => (g.input k).elems.has (a + i)

/-- Every input has arrived. -/
def Group.allArrived (g : Group) : Bool := (g.slots.filter fun k => !g.isFenced k).all fun k => (g.input k).arrived

/-- The combination of an element over the inputs, in the fixed order (R385, R387). -/
def Group.combined (g : Group) (e : Nat) : Elem :=
  match (g.slots.filter fun k => !g.isFenced k).filterMap fun k => (g.input k).elems.find e with
  | [] => .native 0
  | x :: t => t.foldl (combineElem g.p.type g.p.op) x

/-- Members of the device's subtree (R379). -/
def subtreeMembers (p : GroupP) : Nat := p.members.length + sumOf p.children fun c => c.members

/-- Members counted in the open round (R390). -/
def Group.counted (g : Group) : Nat := sumOf g.slots fun k => (g.input k).members

/-- Bytes of an element on the way up. -/
def Group.upWidth (g : Group) : Nat := if exactSum g.p.type g.p.op then 48 else typeWidth g.p.type

/-- Bytes of an element in a packet (R383, R391). -/
def elemBytes (width : Nat) : Elem → List Nat
  | .exact acc nan posInf negInf nonNegZero => bytesLE width (recordImage acc nan posInf negInf nonNegZero)
  | .native v => bytesLE width v

/-- A collective packet built, and handed to transport as traffic of the owning instance (R393, R394). -/
def State.sendRdx (s : State) (up : Bool) (gid : Nat) (g : Group) (device inst members : Nat) (fenced : Bool)
    (offset status : Nat) (elems : List Elem) : State :=
  let (pid, s) := s.newPid
  let fields := [gid, g.round % 65536, members, b2n fenced, offset, status]
  let payload := elems.flatMap (elemBytes (if up then g.upWidth else typeWidth g.p.type))
  let hdr : Hdr := { destDevice := device, srcDevice := s.rte.deviceId, inst, sl := g.p.sl, response := !up
                     opcode := if up then 0x60 else 0x61, data := !elems.isEmpty
                     payloadLength := if elems.isEmpty then 11 else payload.length }
  (s.emit (.rdx up gid device inst fields elems)).handOver
    { pkt := { pid, hdr, fields, payload }, len := pktLen hdr, input := inputFor 0x60 0
      op := none, policed := false, polInst := some g.p.inst }

/-- A packet to the parent (R391, R395): the child's owning instance is this device's own. -/
def State.sendUp (s : State) (gid : Nat) (g : Group) (fenced : Bool) (offset : Nat) (elems : List Elem) : State :=
  s.sendRdx true gid g g.p.parent g.p.inst (subtreeMembers g.p) fenced offset (if g.poison then stPoisoned else stSuccess) elems

/-- Packets to a child (R391): chunks of native values, or one control packet. -/
def State.sendDown (s : State) (gid : Nat) (g : Group) (c : ChildSlot) (combined : Nat) (fenced : Bool) (status : Nat)
    (values : List Nat) : State :=
  if values.isEmpty then s.sendRdx false gid g c.device c.inst combined fenced 0 status []
  else
    let n := g.downChunk
    (List.range (ceilDiv values.length n)).foldl (fun s i =>
      s.sendRdx false gid g c.device c.inst combined fenced (n * i) status (((values.drop (n * i)).take n).map .native)) s

/-- The children that a result goes to. -/
def Group.openChildren (g : Group) : List ChildSlot :=
  ((List.range g.p.children.length).filter fun c => !g.childFenced.contains c).filterMap fun c => g.p.children[c]?

/-- An access of the reduction unit to a region of a member (R389): the region that passes. -/
def State.memberGuard (s : State) (inst region offset length right kind : Nat) : Option RegionP × State :=
  match s.mec.regions.find region with
  | none => (none, s)
  | some g =>
    match s.regionRefusal s.rte.deviceId inst { region, key := g.key, offset, length } right with
    | some _ => (none, s)
    | none =>
      match s.protect (s.regionAccess g 144 kind offset length) with
      | (true, s) => (some g, s)
      | (false, s) => (none, s)

/-- The result header of 32 bytes, as a number (R390). -/
def resultHeader (round status combined : Nat) : Nat := packBits [(round, 16), (status, 8), (0, 8), (combined, 20)]

/-- A result written to a member: the data first and the header after it, once for each round (R390, R397). -/
def State.writeResult (s : State) (gid m round status combined : Nat) (data : List Nat) : State :=
  match s.group gid with
  | none => s
  | some g =>
    match g.p.members[m]? with
    | none => s
    | some x =>
      let s := s.upGroup gid fun g => { g with written := g.written.put m round }
      match s.memberGuard x.inst x.resultRegion x.resultOffset (32 + data.length) 1 1 with
      | (none, s) => s
      | (some r, s) =>
        let s := if data.isEmpty then s else s.writeRegion r (x.resultOffset + 32) data
        let s := s.writeRegion r x.resultOffset (bytesLE 32 (resultHeader round status combined))
        (s.emit (.rdxResult gid m (round % 65536) status combined data)).landed r

/-- Bytes of native values. -/
def nativeBytes (t : Nat) (l : List Nat) : List Nat := l.foldr (fun v b => bytesLE (typeWidth t) v ++ b) []

/-- The open round's result written to every unfenced member that has no header for it. -/
def State.writeMembers (s : State) (gid : Nat) (g : Group) (status combined : Nat) (values : List Nat) : State :=
  ((List.range g.p.members.length).filter fun m =>
    !g.memberFenced.contains m && decide (g.written.get m 0 < g.round)).foldl (fun s m =>
      let data := status = stSuccess && (g.p.operation = 1 || g.p.operation = 3 || (g.p.operation = 2 && g.p.root && m = g.p.rootMember))
      s.writeResult gid m g.round status combined (if data then nativeBytes g.p.type values else [])) s

/-- The group enters Fenced (R395, R397). -/
def State.enterFenced (s : State) (gid : Nat) : State :=
  (s.upGroup gid fun g => { g with state := .fenced }).upRdx fun r => { r with intStatus := setFlag r.intStatus 0 }

/-- The round ends MEMBER_FENCED at this device: headers, RDX_DOWN with fenced set, and Fenced (R395 to R397). -/
def State.endFenced (s : State) (gid combined : Nat) : State :=
  match s.group gid with
  | none => s
  | some g =>
    let s := g.openChildren.foldl (fun s c => s.sendDown gid g c combined true stFenced []) s
    (s.writeMembers gid g stFenced combined []).enterFenced gid

/-- The round's data is cleared and the next round opens (R392). -/
def Group.nextRound (g : Group) (combined : Nat) : Group :=
  { g with state := .collecting, round := g.round + 1, inputs := [], sentUp := 0, poison := false, down := [], lastCombined := combined }

/-- A fence in Collecting: the root ends the round; another device tells its parent and waits (R395). -/
def State.fenceCollecting (s : State) (gid : Nat) : State :=
  match s.group gid with
  | none => s
  | some g =>
    if g.p.root then s.endFenced gid g.counted
    else (s.sendUp gid g true 0 []).upGroup gid fun g => { g with state := .waiting }

/-- A fence's effect in the group's state (R395). -/
def State.fenceEffect (s : State) (gid : Nat) : State :=
  match s.group gid with
  | none => s
  | some g =>
    match g.state with
    | .collecting => s.fenceCollecting gid
    | .waiting => s.upGroup gid fun g => { g with fenceNext := true }
    | .fenced => s

/-- A member slot or a child slot fenced (R395): nothing more happens when it already is. -/
def State.fenceSlot (s : State) (gid k : Nat) : State :=
  match s.group gid with
  | none => s
  | some g =>
    if g.isFenced k then s
    else
      (s.upGroup gid fun g => if k < 16 then { g with memberFenced := g.memberFenced ++ [k] }
        else { g with childFenced := g.childFenced ++ [k - 16] }).fenceEffect gid

/-- The root completes a round (R380, R386, R390, R395). -/
def State.rootRound (s : State) (gid : Nat) (g : Group) : State :=
  let combined := g.counted
  if combined ≠ g.p.totalMembers then
    ((s.upRdx fun r => { r with intStatus := setFlag r.intStatus 1 }).raise 1025).endFenced gid combined
  else
    let status := if g.poison then stPoisoned else stSuccess
    let values := if g.poison || g.p.operation = 0 then []
      else if g.p.operation = 1 then (List.range g.p.elements).map fun e =>
        match (g.input g.p.rootMember).elems.find e with
        | some (.native v) => v
        | _ => 0
      else (List.range g.p.elements).map fun e => finalValue g.p.type g.p.op (g.combined e)
    let down := if g.p.operation = 2 then [] else values
    let s := g.openChildren.foldl (fun s c => s.sendDown gid g c combined false status down) s
    let s := s.writeMembers gid g status combined values
    s.upGroup gid fun g => g.nextRound combined

/-- A group in Collecting goes as far as its inputs allow (R391, R392). -/
def State.rdxProgress (s : State) (gid : Nat) : Nat → State
  | 0 => s
  | fuel + 1 =>
    match s.group gid with
    | none => s
    | some g =>
      if g.state ≠ .collecting then s
      else if g.p.root then
        if g.allArrived && (g.arrivalsOnly || g.holds 0 g.p.elements) then s.rootRound gid g else s
      else if g.arrivalsOnly then
        if g.allArrived then (s.sendUp gid g false 0 []).upGroup gid fun g => { g with state := .waiting } else s
      else
        let n := min g.chunk (g.p.elements - g.sentUp)
        if g.holds g.sentUp n then
          let s := s.sendUp gid g false g.sentUp ((List.range n).map fun i => g.combined (g.sentUp + i))
          if g.p.elements ≤ g.sentUp + n then s.upGroup gid fun g => { g with sentUp := g.sentUp + n, state := .waiting }
          else (s.upGroup gid fun g => { g with sentUp := g.sentUp + n }).rdxProgress gid fuel
        else s

/-- A group goes on: at most one chunk for each 85 elements. -/
def State.runGroup (s : State) (gid : Nat) : State :=
  s.rdxProgress gid (((s.group gid).map fun g => g.p.elements / 8 + 2).getD 0)

/-- The member slots of an instance fenced in every group (R395, R416). -/
def State.fenceMembers (s : State) (i : Nat) : State :=
  s.rdx.groups.foldl (fun s e =>
    (List.range e.2.p.members.length).foldl (fun s m =>
      if (e.2.p.members[m]?.map (·.inst)) = some i then s.fenceSlot e.1 m else s) s) s

/-- The transport context to a child or to the parent of a group has failed (R395, R396). -/
def State.rdxContextLost (s : State) (k : CtxKey) : State :=
  s.rdx.groups.foldl (fun s e =>
    let g := e.2
    if k.cls = 1 then
      (List.range g.p.children.length).foldl (fun s c => match g.p.children[c]? with
        | some x => if x.device = k.peer && x.inst = k.inst then s.fenceSlot e.1 (16 + c) else s
        | none => s) s
    else if !g.p.root && g.p.parent = k.peer && g.p.inst = k.inst && g.state ≠ .fenced then
      (((s.upRdx fun r => { r with intStatus := setFlag r.intStatus 3 }).raise 1026).endFenced e.1 g.counted)
    else s) s

end Sys2Proof.Machine
end

