-- ==== Sys2Proof/Machine/Dumps.lean ====
section
/-!
DEFINITION. Snapshots of the telltale counters and the metering records, and the dump streams that carry
them (R545 to R551).
Where the spec leaves a point open: DESIGN CHOICE 113, 163, 168; DEDUCED 102 (notes/assumptions).
-/
namespace Sys2Proof.Machine

/-- Bytes of an output buffer: each value at its number of bytes, little-endian (R10, R594). -/
def outBytes : List (Nat × Nat) → List Nat
  | [] => []
  | (n, v) :: t => bytesLE n v ++ outBytes t

/-- INS_STATE.state of an instance state (R430). -/
def instStateNum : InstState → Nat
  | .free => 0
  | .enabled => 1
  | .resetting => 2
  | .contained => 3

/-- FTU_SYNC_STATUS.state (R92). -/
def syncNum : SyncState → Nat
  | .unsynchronised => 0
  | .synchronised => 1
  | .holdover => 2

/-- A dump stream. -/
def State.stream (s : State) (n : Nat) : Stream := if n = 0 then s.ttc.stream0 else s.ttc.stream1

/-- The state with a dump stream changed. -/
def State.upStream (s : State) (n : Nat) (f : Stream → Stream) : State :=
  s.upTtc fun t => if n = 0 then { t with stream0 := f t.stream0 } else { t with stream1 := f t.stream1 }

/-- An instance's metering record of 128 bytes (R549). -/
def State.meterImage (s : State) (i : Nat) : List Nat :=
  let m := s.ttc.meters.get i {}
  let n := s.instance_ i
  outBytes [(2, i), (1, instStateNum n.state + 4 * n.gen), (1, b2n m.created), (4, 0), (8, m.txBytes), (8, m.txPackets),
    (8, m.rxBytes), (8, m.rxPackets), (8, m.greenBytes), (8, m.beInBytes), (8, m.beExcessBytes), (8, m.suspendedBytes),
    (8, m.reservedKbit), (8, m.extentMs), (8, m.engineBusyNs), (8, m.edgeWaitNs), (4, m.refused), (4, m.late), (4, m.marks), (12, 0)]

/-- The 64-bit value of a counter, with what its block still holds (R541). -/
def TtcCounter.total (c : TtcCounter) : Nat := (c.value + c.local_) % 2 ^ 64

/-- The entries of a snapshot of a kind (R548). -/
def State.entries (s : State) (kind i : Nat) : Nat × List Nat :=
  match kind with
  | 0 => (8192, outBytes ((List.range 8192).map fun e => (8, s.ttc.counts.get e 0)))
  | 1 => (224, outBytes ((List.range 224).flatMap fun c =>
      let x := s.ttc.counters.get c {}
      [(2, x.event.getD 0), (6, 0), (8, x.total)]))
  | 4 => (1, s.meterImage i)
  | _ => (1024, (List.range 1024).flatMap s.meterImage)

/-- The image of a slot: the dump header and the entries (R547, R548). -/
def State.slotImage (s : State) (st : Stream) (kind i : Nat) : List Nat :=
  let (n, body) := s.entries kind i
  outBytes [(1, 1), (1, kind), (1, syncNum s.ftu.sync), (1, 0), (4, st.sequence), (8, s.ftu.time), (4, st.interval), (4, st.lost),
    (4, st.skipped), (4, n), (2, s.rte.deviceId), (30, 0)] ++ body

/-- Slot size of a stream, rounded up to 4 KiB (R548). -/
def State.slotSize (s : State) (n : Nat) : Nat :=
  let bytes := if n = 0 then (if s.ttc.programmable then 3648 else 65600) else 131136
  4096 * ceilDiv bytes 4096

/-- The slot that a stream would write next is free (R546). -/
def Stream.slotFree (st : Stream) : Bool := decide (0 < st.slots) && !st.full.contains st.next

/-- The frames in which a slot of so many bytes leaves on the egress link as background work (R129, R536): DESIGN
CHOICE 163, 4,096 bytes at most, at output 0. -/
def slotFrames (bytes : Nat) : List Nat := (List.range (ceilDiv bytes 4096)).map fun k => min 4096 (bytes - 4096 * k)

/-- A snapshot staged (R546, R551, R554): its slot leaves on the link of the host of instance 0. -/
def State.stage (s : State) (n kind i : Nat) (final : Option Nat) : State :=
  let st := s.stream n
  let snap : Snapshot := { kind, seq := st.sequence, final, image := s.slotImage st kind i }
  let s := s.upStream n fun st => { st with staged := st.staged ++ [snap], sequence := (st.sequence + 1) % 2 ^ 32 }
  let s := s.queueBackground 0 (slotFrames snap.image.length)
  let s := if kind = 2 then s.upTtc fun t => { t with meters := t.meters.mapv fun m => { m with created := false } } else s
  if n = 0 then
    (s.upCsc fun c => { c with staging := c.staging.mapv fun g => { g with highWater := 0 } }).upRte fun r => { r with holdHighWater := 0 }
  else s

/-- Slots that software has freed (R546). -/
def State.freeSlots (s : State) (n : Nat) (freed : List Nat) : State :=
  s.upStream n fun st => { st with full := st.full.filter fun x => !freed.contains x }

/-- An instance number becomes Free (R409, R413): its generation is kept, with those retired of late (R410, R411). -/
def State.freeInstance (s : State) (i : Nat) : State :=
  (s.upInst i fun n => { gen := n.gen, retired := n.retired }).finishWait (.instDisable i) 0 0

/-- A staged snapshot is in memory (R546): its slot is valid and the vector is raised; a command that waited for it
completes (R551, R554). -/
def State.writeSlot (s : State) (n : Nat) : State :=
  let st := s.stream n
  match st.staged with
  | [] => s
  | snap :: rest =>
    if !st.slotFree then s
    else
      let left := sumOf (rest ++ (s.stream (1 - n)).staged) fun p => (slotFrames p.image.length).length
      let s := s.upEgress 0 fun e => { e with background := e.background.drop (e.background.length - left) }
      let s := s.upStream n fun st => { st with staged := rest, full := st.full ++ [st.next], next := (st.next + 1) % st.slots }
      let s := (s.emit (.dump n st.next snap.image)).hostWrite 0 (st.base + s.slotSize n * st.next) snap.image
      let s := if n = 0 then s.upTtc fun t => { t with intStatus := setFlag t.intStatus 0 } else s
      let s := s.msixSend 0 st.vector
      let s := if n = 1 then s.finishWait (.dump snap.seq) 0 0 else s
      match snap.final with
      | some i => s.freeInstance i
      | none => s

/-- The interrupt and the count of a snapshot that found no free slot (R547). -/
def State.loseSnapshot (s : State) (n : Nat) : State :=
  let s := s.upStream n fun st => { st with lost := (st.lost + 1) % 2 ^ 32, sequence := (st.sequence + 1) % 2 ^ 32 }
  if n = 0 then s.upTtc fun t => { t with intStatus := setFlag t.intStatus 1 } else s

/-- An instance's disable ends: its final record goes to stream 1, when that has a ring (R413, R551). -/
def State.disableEnds (s : State) (i : Nat) : State :=
  if (s.stream 1).slots = 0 then s.freeInstance i
  else (s.upInst i fun n => { n with meteringWait := true }).stage 1 4 i (some i)

/-! ### What is charged by the millisecond (R549, R550) -/

/-- The state of an instance lets its record accumulate (R549). -/
def State.metered (s : State) (i : Nat) : Bool := (s.instance_ i).state ≠ .free

/-- The instances that an extent is charged to (R550): from its commit to its fence. -/
def Extent.charged (e : Extent) : List Nat :=
  let held := e.state = .bound || ((e.state = .unbinding || e.state = .poisoned) && !e.fenced)
  if !held then [] else if e.use = 2 then [e.binder] else (e.slots.map (·.1)).dedup

/-- One millisecond of contracts installed and extents bound, charged to their instances (R549, R550). -/
def State.chargeMs (s : State) : State :=
  let s := s.adm.contracts.foldl (fun s e =>
    if s.metered e.2.p.inst then s.meter e.2.p.inst fun m => { m with reservedKbit := (m.reservedKbit + e.2.p.committed) % 2 ^ 64 } else s) s
  s.pool.extents.foldl (fun s e => e.2.charged.foldl (fun s i =>
    if s.metered i then s.meter i fun m => { m with extentMs := (m.extentMs + 1) % 2 ^ 64 } else s) s) s

/-- The lane rate of a port in Mb/s (R234): that of its training, or of its test (R260). -/
def Port.laneMbps (x : Port) : Nat :=
  if x.mode = 6 then laneRate x.maxRate else ((x.trainedRate.orElse fun _ => x.agreed.map (·.1)).map laneRate).getD 0

/-- Codewords that a native port's transmitter has sent since Lock (R238, R251): 5,120 payload bits each. -/
def Port.codewordsPass (x : Port) (dt : Nat) : Port :=
  if x.mode = 1 && (x.train = .lock || x.train = .ready || x.train = .step) then
    let t := x.codewordPart + x.laneMbps * 2 ^ ((x.trainedWidth.orElse fun _ => x.agreed.map (·.2)).getD 0) * dt
    { x with codeword := (x.codeword + t / 8192000000) % 2 ^ 24, codewordPart := t % 8192000000 }
  else x

/-- Bits that a locked checker has compared (R258), at its lane's rate. -/
def Lane.bitsPass (l : Lane) (mbps dt : Nat) : Lane :=
  if l.prbsLock then
    let t := l.prbsPart + mbps * dt
    { l with prbsBits := satAdd 48 l.prbsBits (t / 1600000), prbsPart := t % 1600000 }
  else l

/-- Time passes on the lanes, in 1/1,600 ns. -/
def State.lanesPass (s : State) (dt : Nat) : State :=
  s.upPrt fun t => { t with
    ports := t.ports.mapv fun x => x.codewordsPass dt
    lanes := t.lanes.map fun e => (e.1, e.2.bitsPass (s.port (e.1 / 9)).laneMbps dt) }

/-- Time passes on the lanes and for metering, in 1/1,600 ns and by less than a millisecond. -/
def State.passTime (s : State) (dt : Nat) : State :=
  let s := s.lanesPass dt
  let t := s.ttc.msClock + dt
  if t < 1600000000 then s.upTtc fun x => { x with msClock := t }
  else (s.upTtc fun x => { x with msClock := t - 1600000000 }).chargeMs

end Sys2Proof.Machine
end

