-- ==== Sys2Proof/Machine/Resets.lean ====
section
/-!
DEFINITION. Instance resets (R410, R411, R414 to R419, R428): outstanding items, the drain, the generation
step, what is freed after it, and containment (R409).
Where the spec leaves a point open: DEDUCED 96, 101, 106 (notes/assumptions).
-/
namespace Sys2Proof.Machine

/-- A receive half that belongs to an instance of this device: responses to it, and its own requests looped back
(R414, R416). -/
def State.ownHalf (s : State) (i : Nat) (k : CtxKey) : Bool := k.inst == i && (k.cls == 1 || k.peer == s.rte.deviceId)

/-- An early message (R359): not yet in the lists. -/
def Msg.early (m : Msg) : Bool := !m.unexpected && m.taken.isNone

/-- Outstanding items of an instance (R414), each once: a host read that a slot or an access still waits for is counted as that. -/
def State.outstanding (s : State) (i : Nat) : Nat :=
  let n := s.instance_ i
  (s.mec.slots.filter fun e => e.2.inst == i).length + (n.reads.filter fun t => !s.mec.reads.has t).length + n.heldAcc.length +
    (s.locks.waits.filter fun w => w.entry.inst == i).length + (s.mec.reads.filter fun e => e.2.inst == i && e.2.opcode == 0x11).length +
    (s.mtc.msgs.filter fun m => m.inst == i && m.early).length +
    (s.mec.reads.filter fun e => e.2.inst == i && e.2.opcode == 0x16).length +
    sumOf (s.trn.recvs.filter fun c => s.ownHalf i c.key) fun c => c.held.length

/-- The messages of a stream that are not whole are discarded, and receives matched to them complete with
TRANSPORT_FAILED (R364). -/
def State.dropMessages (s : State) (k : CtxKey) : State :=
  let mine := fun (m : Msg) => m.srcDevice == k.peer && m.srcInst == k.inst
  let whole := fun (m : Msg) => m.first && !m.rendezvous && decide (m.length ≤ sumOf m.data (·.2.length))
  let gone := s.mtc.msgs.filter fun m => mine m && !(whole m && m.unexpected) && (!m.rendezvous || m.rget.isSome || !m.unexpected)
  let s := s.upMtc fun t => { t with
    msgs := t.msgs.filter fun m => !gone.contains m
    ctxs := t.ctxs.filter fun c => !(c.srcDevice == k.peer && c.srcInst == k.inst) }
  let s := s.upMec fun e => { e with refusedPuts := e.refusedPuts.filter fun p => !(p.1 == k.peer && p.2.1 == k.inst) }
  let s := gone.foldl (fun s m => s.upMec fun e => { e with
    inst := e.inst.upd m.inst {} fun x => { x with heapUsed := x.heapUsed - m.heap } }) s
  gone.foldl (fun s m =>
    let s := match m.rget with | some tag => s.upMec fun e => { e with slots := e.slots.del tag } | none => s
    match m.taken with
    | none => s
    | some r => s.receiveRecord r.queue stTransport (min m.got r.d.length) r.d.wrId m.matchBits m.srcDevice m.srcInst) s

/-- A receive half freed (R221, R230, R364): held packets and waiting packets of it go with it. -/
def State.freeRecv (s : State) (k : CtxKey) : State :=
  let s := s.upTrn fun t => { t with
    recvs := t.recvs.filter fun c => c.key != k
    pins := if ((s.recvCtx k).map (·.pinned)).getD false then t.pins ++ [(k, 1)] else t.pins }
  if k.cls = 0 then s.dropMessages k else s

/-- The end of a drain at D (R416): each slot is freed without a record, unsent packets are discarded, what waited
to start does not, accesses that wait behind a lock are answered REMOTE_INSTANCE, and accesses that wait for Bus Master Enable are dropped (R428). -/
def State.squashWork (s : State) (i : Nat) : State :=
  let s := s.upMec fun m => { m with
    slots := m.slots.keep fun _ x => x.inst ≠ i
    reads := m.reads.keep fun _ x => !(x.inst == i && x.opcode != 0x11)
    sendQ := m.sendQ.mapv fun q => if q.inst = i then { q with order := [], issue := [] } else q }
  let s := s.upTrn fun t => { t with sends := t.sends.map fun c => if c.key.inst = i && c.key.cls = 0 then { c with queue := [] } else c }
  let held := (s.instance_ i).heldAcc.filterMap fun a => match a with
    | .read _ _ tag => some tag
    | _ => none
  let s := s.upInst i fun n => { n with heldAcc := [], reads := n.reads.filter fun t => !held.contains t }
  let s := s.upMec fun m => { m with reads := m.reads.keep fun t _ => !held.contains t }
  let mine := s.locks.waits.filter fun w => w.entry.inst == i
  mine.foldl (fun s w => s.engError w.req (clusterOf { region := w.region, key := 0, offset := w.offset, length := w.length }) stRemoteInstance)
    (s.upLocks fun l => { l with waits := l.waits.filter fun w => w.entry.inst ≠ i })

/-- What follows within 1 us of D (R416): halves, lists, locks, member slots and held packets. -/
def State.releaseWork (s : State) (i : Nat) : State :=
  let keep := fun (k : CtxKey) => !(k.inst == i && k.cls == 0)
  let s := s.upTrn fun t => { t with
    pins := t.pins ++ ((t.sends.filter fun c => !keep c.key && c.pinned).map fun c => (c.key, 0))
    sends := t.sends.filter fun c => keep c.key }
  let s := ((s.trn.recvs.filter fun c => s.ownHalf i c.key).map (·.key)).foldl State.freeRecv s
  let s := s.upMtc fun t => { t with
    posted := t.posted.filter fun p => p.inst ≠ i
    msgs := t.msgs.filter fun m => m.inst ≠ i
    ctxs := t.ctxs.map fun c =>
      let gone := t.msgs.filter fun m => m.inst == i && m.early && m.srcDevice == c.srcDevice && m.srcInst == c.srcInst
      { c with
        floor := c.floor.filter fun f => f.2 ≠ i
        passed := c.passed ++ gone.map (·.msn) } }
  let s := s.upMec fun m => { m with inst := m.inst.upd i {} fun e => { e with
    heapUsed := 16 * sumOf (s.rdx.groups.filter fun g => g.2.p.inst == i) fun g => ceilDiv g.2.area 4096 } }
  let s := ((s.mec.sendQ.filter fun q => q.2.inst == i).map (·.1)).foldl State.abandonLocks s
  s.fenceMembers i

/-- Generations retired less than 64 ms ago (R411): 64 ms is 25,600,000,000 units of 1/400 ns. -/
def State.retiredNow (s : State) (i : Nat) : List Nat :=
  ((s.instance_ i).retired.filter fun r => decide (s.coreTime < r.2 + 25600000000)).map (·.1)

/-- The generation step (R410, R411, R416), or the wait for it. -/
def State.genStep (s : State) (i : Nat) : State :=
  let n := s.instance_ i
  let g := (n.gen + 1) % 16
  if (s.retiredNow i).contains g then
    (s.upInst i fun n => { n with phase := .genWait }).upIns fun x => { x with
      intStatus := if n.phase = .genWait then x.intStatus else setFlag x.intStatus 3 }
  else
    let s := s.upInst i fun n => { n with
      phase := .ending, gen := g
      retired := (n.gen, s.coreTime) :: n.retired.filter fun r => decide (s.coreTime < r.2 + 25600000000) }
    (s.squashWork i).releaseWork i

/-- A reset begins (R416): in squash form, or with nothing outstanding, its generation step follows at once. -/
def State.startReset (s : State) (i : Nat) (squash : Bool) : State :=
  let s := s.upInst i fun n => { n with state := .resetting, phase := .draining, squashed := 0, timedOut := false, forced := false }
  if squash || s.outstanding i = 0 then s.genStep i else s

/-- An FLR of instance 0 (R562): the HLY queue registers are cleared, and the replies of commands from host queues that are in
progress are discarded. -/
def State.flr0 (s : State) : State :=
  let fromHost := fun (c : CmdSrc) => match c with
    | .host _ => true
    | _ => false
  let s := s.upHly fun h => { h with
    queues := [], heldReplies := h.heldReplies.filter fun r => !fromHost r.src
    progress := h.progress.map fun p => if fromHost p.src then { p with mute := true } else p }
  let s := { s with waiting := s.waiting.filter fun i => !(srcOf i).any fromHost }
  ((s.upInst 0 fun n => { n with flr := true }).emit (.config 0 false)).startReset 0 (s.instance_ 0).squash

/-- A queue leaves the error state (R372). -/
def State.restartQueue (s : State) (kind queue : Nat) : State :=
  if kind = 0 then s.upMec fun m => match m.sendQ.find queue with
    | none => m
    | some x => { m with sendQ := m.sendQ.put queue { x with error := false } }
  else s.upMec fun m => match m.recvQ.find queue with
    | none => m
    | some x => { m with recvQ := m.recvQ.put queue { x with error := false } }

/-- A move has ended (R370): the command completes and event 0x0C is posted; a QUEUE_RESTART that waited for it acts (R376). -/
def State.finishMove (s : State) (q : Nat) : State :=
  match s.mec.sendQ.find q with
  | none => s
  | some x =>
    let s := s.upMec fun m => { m with
      sendQ := m.sendQ.put q { x with moving := none }, intStatus := setFlag m.intStatus 4 }
    let s := s.finish (fun p => p.wait == .queueMove q && p.code == 0x0903) 0 0
    let s := if s.hly.progress.any fun p => p.wait == .queueMove q then (s.restartQueue 0 q).finishEvery (.queueMove q) 0 0 else s
    s.post x.inst 0x0C 0 q 0 0

/-- Queues of an instance destroyed (R416): a move of one of them completes first (R428), and a command that destroys one ends. -/
def State.dropQueues (s : State) (i : Nat) : State :=
  let qs := (s.mec.sendQ.filter fun q => q.2.inst == i).map (·.1)
  let rs := (s.mec.recvQ.filter fun q => q.2.inst == i).map (·.1)
  let e := s.engInst i
  let s := ((s.mec.sendQ.filter fun q => q.2.inst == i && q.2.moving.isSome).map (·.1)).foldl State.finishMove s
  let s := s.upMec fun m => { m with
    sendQ := m.sendQ.keep fun _ q => q.inst ≠ i
    recvQ := m.recvQ.keep fun _ q => q.inst ≠ i
    compQ := m.compQ.keep fun _ q => q.inst ≠ i
    eventQ := m.eventQ.keep fun _ q => q.inst ≠ i
    triggers := m.triggers.filter fun t => !qs.contains t.queue
    counters := m.counters.keep fun c _ => !(decide (e.counterBase ≤ c) && decide (c < e.counterBase + e.counterCount))
    inst := m.inst.upd i {} fun x => { x with lost := 0, lostFlag := false } }
  let s := qs.foldl (fun s q => (s.finishEvery (.queueMove q) 0 0).finishWait (.queueDestroy q) 0 0) s
  rs.foldl (fun s q => s.finishWait (.queueDestroy (65536 + q)) 0 0) s

/-- The severity-4 faults that name an instance are cleared as it leaves Contained, but for a source that stays active or
forced (R528, R529). -/
def State.clearContained (s : State) (i : Nat) : State :=
  s.upFlt fun f => { f with sources := f.sources.mapv fun x =>
    if x.active || x.force.isSome then x else { x with unc := x.unc.filter fun u => !(u.1 == .inst i && u.2 == 4) } }

/-- A reset has no item left (R413, R416, R419). -/
def State.resetEnds (s : State) (i : Nat) : State :=
  let n := s.instance_ i
  let s := (s.dropQueues i).clearContained i
  let s := s.upInst i fun n => { n with state := .enabled, phase := .none, flr := false }
  let s := s.upIns fun x => { x with intStatus := setFlag x.intStatus 0 }
  let s := if n.flr then s.emit (.config i true) else s
  let s := s.finishWait (.instReset i) (if n.forced then 0x0603 else if n.timedOut then 1 else 0)
    (if n.timedOut || n.forced then min n.squashed 0xFFFFF else 0)
  if n.disabling then s.disableEnds i else s

/-- An instance enters Contained (R409, R428): its work is squashed, and a drain under way ends. A disable under way goes
on. -/
def State.containInst (s : State) (i : Nat) : State :=
  let n := s.instance_ i
  if i = 0 || n.state = .free || n.state = .contained || n.disabling then s
  else
    let left := s.outstanding i
    let s := s.upInst i fun n => { n with state := .contained, phase := .none }
    let s := ((s.squashWork i).releaseWork i).upIns fun x => { x with intStatus := setFlag x.intStatus 5 }
    if n.state = .resetting then
      let s := s.finishWait (.instReset i) (if left = 0 then 0 else 1) (min left 0xFFFFF)
      if n.flr then (s.upInst i fun n => { n with flr := false }).emit (.config i true) else s
    else s

end Sys2Proof.Machine
end

