-- ==== Sys2Proof/Machine/Spares.lean ====
section
/-!
DEFINITION. Spares (R26, R533, R534): which unit has one free, the swap onto it, and what a degrade does
where none is free. Kinds: 1 engine, 2 management core, 3 SRAM row, 4 HBM row, 5 HBM pseudo-channel,
6 directory bank, 7 route bank.
-/
namespace Sys2Proof.Machine

/-- The kind of spare that a source's degrade action brings in (R533). -/
def spareKind (src : Nat) : Option Nat :=
  match src with
  | 897 => some 1
  | 1728 => some 2
  | 1729 => some 2
  | 1346 => some 3
  | 833 => some 4
  | 834 => some 5
  | 774 => some 6
  | 262 => some 7
  | _ => none

/-- The number of the spare that serves a unit: the cluster pair of an engine (R26), the array of 1,024 rows of
an SRAM row, the stack of a pseudo-channel, the tile of a route bank (R533). -/
def spareNumber (kind unit : Nat) : Nat :=
  match kind with
  | 1 => unit / 16
  | 3 => unit / 1024
  | 4 => unit
  | 5 => unit / 32
  | 7 => unit / 2
  | _ => 0

/-- Units of a kind that the device has: 128 engine positions, 4 cores, 64 pseudo-channels, 32 logical directory
banks, 8 route banks; rows fill the field. -/
def unitCount (kind : Nat) : Nat :=
  match kind with
  | 1 => 128
  | 2 => 4
  | 5 => 64
  | 6 => 32
  | 7 => 8
  | _ => 1048576

/-- Spares of a kind in use. -/
def State.sparesUsed (s : State) (kind : Nat) : List (Nat × Nat × Nat) := s.flt.spares.filter fun x => x.1 == kind

/-- A spare is free for a unit (R533, R534). -/
def State.spareFree (s : State) (kind unit : Nat) : Bool :=
  let mine := (s.sparesUsed kind).filter fun x => x.2.1 == spareNumber kind unit
  match kind with
  | 3 => decide (mine.length < 2) && decide ((s.sparesUsed 3).length < 4096)
  | 4 => Config.hbmRowFree unit && mine.isEmpty
  | _ => mine.isEmpty

/-- Slots that the send queues of an engine position may hold, and its queues (R336). -/
def State.engineLoad (s : State) (engine : Nat) : Nat × Nat :=
  let l := s.mec.sendQ.filter fun q => q.2.engine == engine
  (sumOf l fun q => q.2.maxOut, l.length)

/-- An engine position can take a queue of `maxOut` slots (R336). -/
def State.engineTakes (s : State) (engine maxOut : Nat) : Bool :=
  let (n, k) := s.engineLoad engine
  decide (n + maxOut ≤ 512) && decide (k < 512)

/-- A send queue's context moved to another engine: its generation advances (R370). -/
def State.moveQueue (s : State) (q engine : Nat) : State :=
  s.upMec fun m => match m.sendQ.find q with
    | none => m
    | some x => { m with sendQ := m.sendQ.put q { x with engine, gen := (x.gen + 1) % 256, moving := some x.engine, visits := 0 } }

/-- The queues of a retired position: each moves to an engine of the same cluster that can take it, and else enters
the error state (R534). -/
def State.retireEngine (s : State) (engine : Nat) : State :=
  let qs := (s.mec.sendQ.filter fun q => q.2.engine == engine).map (·.1)
  let cluster := (List.range 8).map (· + 8 * (engine / 8))
  qs.foldl (fun s q => match s.mec.sendQ.find q with
    | none => s
    | some x =>
      match cluster.find? fun n => n != engine && !s.flt.retired.contains (1, n) && s.engineTakes n x.maxOut with
      | some n => s.moveQueue q n
      | none => s.sendQueueError q stFlushed) s

/-- A degrade, or a trend, that finds no spare free for its unit (R534). -/
def State.degradeWithout (s : State) (kind unit : Nat) : State :=
  let s := s.upFlt fun f => { f with intStatus := setFlag f.intStatus 3 }
  match kind with
  | 1 => (s.upFlt fun f => { f with retired := addOnce f.retired (1, unit) }).retireEngine unit
  | 2 => s.upFlt fun f => { f with retired := addOnce f.retired (2, unit) }
  | 5 => s.raiseLevel 835 (.unit unit)
  | _ => s

/-- A swap of a unit wanted by a degrade, a trend or an ageing monitor (R533, R534, R538): it waits for a swap of its
kind in progress. -/
def State.wantSwap (s : State) (kind unit : Nat) : State :=
  let r : SwapRun := { kind, unit, commanded := false }
  if s.flt.swaps.any (fun x => x.kind == kind && x.unit == unit) || s.flt.swapWait.contains r then s
  else if s.flt.retired.contains (kind, unit) then s
  else if s.flt.swaps.any fun x => x.kind == kind then s.upFlt fun f => { f with swapWait := f.swapWait ++ [r] }
  else if s.spareFree kind unit then s.upFlt fun f => { f with swaps := f.swaps ++ [r] }
  else s.degradeWithout kind unit

/-- The degrade action of a source's event (R523, R534). -/
def State.degrade (s : State) (src : Nat) (subj : Subject) : State :=
  match spareKind src, subj with
  | some k, .unit u => s.wantSwap k u
  | _, _ => s

/-- The spare takes over (R533): what a swap of each kind changes in the device's other state. -/
def State.spareTakes (s : State) (kind unit : Nat) : State :=
  match kind with
  | 1 => s.upMec fun m => { m with spares := addOnce m.spares unit }
  | 2 =>
    let s := s.upIcu fun c => { c with
      spareFor := some unit
      sources := c.sources.mapv fun x => if x.claimed = some unit then { x with claimed := none, latch := true } else x
      cores := c.cores.upd unit {} fun k => { k with claims := [] } }
    s
  | 6 => s.upDir fun d =>
    let old := ((d.banks.find? fun b => b.2.moved == some unit).map (·.1)).getD unit
    let banks := d.banks.upd old {} fun b => { b with moved := some 63 }
    { d with banks := banks.upd 32 {} fun b => { b with moved := some unit } }
  | 7 => s.upRte fun r => { r with spareTiles := r.spareTiles ||| (1#4 <<< (unit / 2)) }
  | _ => s

/-- A swap in progress completes (R533), and the next that waits for its kind begins (R538). -/
def State.swapDone (s : State) (kind unit : Nat) : State :=
  if s.flt.halted || !(s.flt.swaps.any fun x => x.kind == kind && x.unit == unit) then s
  else
    let s := s.upFlt fun f => { f with
      swaps := f.swaps.filter fun x => !(x.kind == kind && x.unit == unit)
      spares := f.spares ++ [(kind, spareNumber kind unit, unit)]
      intStatus := setFlag f.intStatus 2 }
    let s := (s.spareTakes kind unit).finishWait (.spareSwap kind unit) 0 0
    match takeFirst (fun (x : SwapRun) => x.kind == kind) s.flt.swapWait with
    | none => s
    | some (n, rest) => (s.upFlt fun f => { f with swapWait := rest }).wantSwap kind n.unit

end Sys2Proof.Machine
end

