-- ==== Sys2Proof/Machine/Contain.lean ====
section
/-!
DEFINITION. What follows the faults of a step (R523 to R526): degrade, containment of an instance or of a
port, and halt; and how a command ends.
Where the spec leaves a point open: DEDUCED 8, 19, 34, 60, 87, 120 (notes/assumptions).
-/
namespace Sys2Proof.Machine

/-- Commands in progress end with a status, as far as replies can be written (R468, R511, R560): the replies of in-band
commands are lost with the fabric when `lost` is set. -/
def State.abandonAll (s : State) (status : Nat) (lost : Bool) : State :=
  s.hly.progress.foldl (fun s g =>
    let inb := (srcKey g.src).isSome
    if lost && inb then s.upHly fun h => { h with progress := dropFirst g h.progress }
    else s.finish (fun x => x == g) status 0) s

/-- A buffered packet of a port that is contained is freed (R224, R525). -/
def State.freeQueued (s : State) (b : BufPkt) : State :=
  let before := s.oldCount
  let t := (s.freePkt b).settleOld before
  let t := if decide (b.input < 32) && t.isNative b.input && decide (b.written < b.cells.length) then
      t.freeFlits b.input b.rxVl (flitsOf b.len) else t
  if b.sequenced && !b.started && !b.pkt.hdr.multicast then t.transitNak b.pkt.hdr 3 else t

/-- Training that a port had, and what it negotiated, is gone. -/
def State.linkOff (s : State) (p : Nat) : State :=
  ((s.refillEgress p).upPort p fun x => { x with
    trainedRate := none, trainedWidth := none, channelOk := false, subst := none, subWait := [], step := none
    stepHeld := none, stepTarget := none, subState := .idle, txIdle := false, rxIdle := false, cxlUp := false
    draining := false }).setTrain p .disabled

/-- A native port that drains for mode 0 and has nothing unacknowledged goes Down without LNK_DOWN, and is
Disabled (R262). -/
def State.portOff (s : State) (p : Nat) : State :=
  let s := ((s.linkLost p).refillEgress p).upPort p fun x => { x with
    mode := 0, draining := false, trainedRate := none, trainedWidth := none, channelOk := false
    subst := none, subWait := [], step := none, stepHeld := none, stepTarget := none, subState := .idle
    spareFor := none, txSpareFor := none, txIdle := false, rxIdle := false, contained := false }
  (s.setTrain p .disabled).finishWait (.portMode p) 0 0

/-- A native port is contained (R215, R525): one that drained for mode 0 is Disabled. -/
def State.containNative (s : State) (p : Nat) : State :=
  let s := ((s.abortFrom p).linkLost p).portDown p
  let s := s.upEgress p fun e => { e with sending := none, resume := [] }
  let s := (s.obf.pkts.filter fun b => b.output == p).foldl State.freeQueued s
  let s := s.fenceAll p
  (if (s.port p).draining then s.portOff p else s.linkOff p).modeStepDone p

/-- The instances of a host link (R408, R525). -/
def State.instancesOn (s : State) (p : Nat) : List Nat :=
  (s.ins.inst.filter fun e => e.2.state != .free && s.leadPort e.2.port == s.leadPort p).map (·.1)

/-- A CXL link signals viral before it is disabled (R525, R526). -/
def State.disableLink (s : State) (p : Nat) : State :=
  let s := if (s.port p).mode = 4 || (s.port p).mode = 5 then s.emit (.viral p) else s
  (s.linkPorts (s.leadPort p)).foldl State.linkOff s

/-- A port is contained (R525). -/
def State.containPort (s : State) (p : Nat) : State :=
  if (s.port p).contained then s
  else
    let s := (s.linkPorts (s.leadPort p)).foldl (fun s q => s.upPort q fun x => { x with contained := true }) s
    if s.isNative p then s.containNative p
    else if s.isHostLink p then (s.instancesOn p).foldl State.containInst (s.disableLink p)
    else if s.isDownstream p then (s.surpriseRemoval (s.leadPort p)).disableLink p
    else s

/-- The device halts (R43, R468, R526). -/
def State.halt (s : State) : State :=
  if s.flt.halted then s
  else
    let s := (s.upFlt fun f => { f with halted := true }).upHly fun h => { h with fwState := .halted }
    let s := (s.upPwr fun w => { w with change := none }).abandonAll 0x0503 true
    let s := s.upMec fun m => { m with
      slots := [], reads := [], sendQ := m.sendQ.mapv fun q => { q with order := [], issue := [] } }
    let s := s.upCsc fun c => { c with a := { c.a with pairs := [] }, b := { c.b with pairs := [] } }
    (List.range 32).foldl (fun s p =>
      if s.isNative p then ((s.linkLost p).portDown p).linkOff p
      else if decide (2 ≤ p) && ((s.isHostLink p || s.isDownstream p) && s.leadPort p == p) then s.disableLink p
      else s) s

/-- The action that a fault's effective severity calls for (R523). -/
def State.act (s : State) (src sev : Nat) (subj : Subject) : State :=
  if s.flt.halted then s
  else match sev, subj with
    | 3, _ => s.degrade src subj
    | 4, .inst i => s.containInst i
    | 5, .port p => s.containPort p
    | 6, _ => s.halt
    | _, _ => s

/-- The actions owed, oldest first, with those that they bring about; a halt supersedes every other (R538). An action
raises only faults that its own state has not had before, so their number is bounded. -/
def State.runActions (s : State) : Nat → State
  | 0 => s
  | fuel + 1 =>
    if s.flt.actions.any fun a => a.2.1 == 6 then (s.upFlt fun f => { f with actions := [] }).halt
    else match s.flt.actions with
      | [] => s
      | (src, sev, subj) :: rest => ((s.upFlt fun f => { f with actions := rest }).act src sev subj).runActions fuel

/-- Every action owed is taken (R523). -/
def State.actAll (s : State) : State := s.runActions (4096 + 4 * s.flt.actions.length)

/-- LOCK_ABANDONs owed are handed to transport, flagged (R368): like a response without data, they are not policed. -/
def State.sendAbandons (s : State) : State :=
  s.mec.abandons.foldl (fun s a =>
    let (pid, s) := s.newPid
    let sl := ((s.sendCtx { peer := a.1, inst := a.2.1, cls := 0 }).map (·.sl)).getD 0
    let hdr : Hdr := { destDevice := a.1, srcDevice := s.rte.deviceId, inst := a.2.1, sl, flagged := true, opcode := 0x08, payloadLength := 13 }
    let cluster := ((s.mec.sendQ.find a.2.2).map fun q => q.engine / 8).getD 0
    (s.emit (.engReq 0x08 a.1 a.2.1 0 (s.instance_ a.2.1).gen [a.2.2] [])).handOver {
      pkt := { pid, hdr, fields := [0, (s.instance_ a.2.1).gen, 0, 0], payload := bytesLE 2 a.2.2 }, len := pktLen hdr
      input := inputFor 0x08 cluster, op := none })
    (s.upMec fun m => { m with abandons := [] })

/-- The send queues being destroyed whose operations have finished go, and the receive queues whose matched receives have;
their commands complete (R374). -/
def State.settleDestroys (s : State) : State :=
  let done := (s.mec.sendQ.filter fun q => q.2.destroying && s.queueSlots q.1 == 0 && q.2.issue.isEmpty).map (·.1)
  let s := done.foldl (fun s q =>
    (s.upMec fun m => { m with sendQ := m.sendQ.del q }).finishWait (.queueDestroy q) 0 0) s
  let busy := fun (q : Nat) => s.mtc.msgs.any fun m => m.taken.any fun p => p.queue == q
  let over_ := (s.mec.recvQ.filter fun q => q.2.destroying && !busy q.1).map (·.1)
  over_.foldl (fun s q =>
    (s.upMec fun m => { m with recvQ := m.recvQ.del q }).finishWait (.queueDestroy (65536 + q)) 0 0) s

/-- FABRIC_LEAVE (R262, R570): native ports that do not drain are Disabled, and the command completes with the last. -/
def State.settleLeave (s : State) : State :=
  if !s.mgc.leaving then s
  else
    let ps := (List.range 32).filter s.isNative
    let s := (ps.filter fun p => !((s.port p).draining && s.linkUp p && !(s.lport p).replay.isEmpty)).foldl State.portOff s
    if (List.range 32).any s.isNative then s
    else (s.upMgc fun m => { m with leaving := false }).finishWait (.portMode 32) 0 0

/-- The end of a step: the actions of its faults, and what waited for the operations that it ended. -/
def State.settle (s : State) : State := (((s.actAll.sendAbandons.actAll).settleDestroys).settleHeld).settleLeave.settleBare

/-- Contained ports whose fault has cleared begin training (R525). -/
def State.recoverPorts (s : State) : State :=
  (List.range 32).foldl (fun s p =>
    let unc := s.flt.sources.any fun f => f.2.unc.any fun u => u.2 == 5 &&
      (match u.1 with
       | .port q => s.leadPort q == s.leadPort p
       | _ => false)
    if !(s.port p).contained || unc then s
    else
      let s := s.upPort p fun x => { x with contained := false }
      if s.isNative p then s.startDetect p else s.setTrain p .sync) s

/-- A command's next state: its effect, with the actions of the faults it raised (R523). -/
def ends (s : State) : Host.Outcome State Fault Refusal := .next s.settle

end Sys2Proof.Machine
end

