-- ==== Sys2Proof/Machine/HalyardCmds.lean ====
section
/-!
DEFINITION. The commands of the Halyard chapter (R434, R456, R457), the doorbells of the host queues (R441,
R469), the in-band channel (R461 to R463) and the board channel (R467).
Where the spec leaves a point open: DESIGN CHOICE 17; DEDUCED 16, 20, 125, 171, 175 (notes/assumptions).
-/
namespace Sys2Proof.Machine

/-- A value is outside a range. -/
def outside (lo hi v : Nat) : Bool := decide (v < lo) || decide (hi < v)

/-! ### General commands -/

/-- NOP (R456). -/
def execNop (h : HlyHdr) (s : State) : Host.Outcome State Fault Refusal :=
  ends <| runHly (.nop h) 0x0001 h 0 0 [] (fun s => .ok s) s

/-- The mode as DEVICE_QUERY and PWR_STATUS number it (R457, R519). -/
def modeNum : Mode → Nat
  | .fullSail => 0
  | .reefed => 1
  | .stormJib => 2
  | .barePoles => 3

/-- HLY_FW_VERSION (R469). -/
def State.fwVersionReg (s : State) : Nat := s.hly.fwVersion % 2 ^ 24 + 2 ^ 24 * s.hly.fwImage

/-- The output of DEVICE_QUERY (R457). -/
def State.deviceImage (s : State) : List Nat :=
  if s.pwr.mode = .barePoles then
    outBytes [(8, Config.serial), (3, 0), (1, 0xB0), (4, 0), (1, 3), (47, 0)]
  else
    outBytes [(8, Config.serial), (2, s.rte.deviceId), (1, b2n s.rte.valid), (1, 0xB0), (4, s.fwVersionReg), (1, modeNum s.pwr.mode),
      (1, syncNum s.ftu.sync), (46, 0)]

/-- DEVICE_QUERY (R456, R457). -/
def execDeviceQuery (h : HlyHdr) (s : State) : Host.Outcome State Fault Refusal :=
  ends <| runHly (.deviceQuery h) 0x0002 h 0 64 [] (fun s => .data s s.deviceImage) s

/-- What INBAND_SET does (R456, R465): the six changeable fields have bits 0 to 5 of the change mask. -/
def inbandSetBody (cm : Nat) (accept : Bool) (count : Nat) (serials : List Nat) (timeout retries hold : Nat) (s : State) : HRes :=
  let y := s.hly
  let t := pick cm 3 timeout y.inbandTimeout
  let r := pick cm 4 retries y.inbandRetries
  let d := pick cm 5 hold y.inbandHold
  refuseIf [
    ((cmBit cm 1 && decide (4 < count)) || outside 1 1000 t || outside 1 15 r || outside 1 100 d || decide (1000 * d ≤ t * (r + 1)),
      0x0124)] <|
  .ok <| s.upHly fun x => { x with
    trustedOnly := pick cm 0 accept x.trustedOnly
    trusted := (pick cm 2 serials x.trusted).take (pick cm 1 count x.trusted.length)
    inbandTimeout := t, inbandRetries := r, inbandHold := d }

/-- INBAND_SET (R456, R462, R465). -/
def execInbandSet (h : HlyHdr) (cm : Nat) (accept : Bool) (count : Nat) (serials : List Nat) (timeout retries hold : Nat) (s : State) :
    Host.Outcome State Fault Refusal :=
  ends <| runHly (.inbandSet h cm accept count serials timeout retries hold) 0x0003 h 0 0 []
    (inbandSetBody cm accept count serials timeout retries hold) s

/-- The port names a host link: the even port of an x16 link, or a port of its own (R5, R260). -/
def State.namesHostLink (s : State) (p : Nat) : Bool := s.isHostLink p && s.leadPort p == p

/-- What HOST_LINK_SET does (R434, R456). Whether Memory Space Enable is set is a free value: the host's writes to the
configuration space are outside the device. -/
def hostLinkSetBody (link cm windowLog2 releaseTimeout : Nat) (s : State) : HRes :=
  let (mse, t) := s.fresh
  let s := if cmBit cm 0 then t else s
  refuseIf [
    (decide (31 < link) || (cmBit cm 0 && outside 28 42 windowLog2) || (cmBit cm 1 && decide (60 < releaseTimeout)), 0x0124),
    (!s.namesHostLink link, 0x0111),
    (cmBit cm 0 && link = 0, 0x0118),
    (cmBit cm 0 && decide (mse % 2 = 1), 0x032A)] <|
  .ok <| s.upHostLink link fun l => { l with
    windowLog2 := pick cm 0 windowLog2 l.windowLog2, releaseTimeout := pick cm 1 releaseTimeout l.releaseTimeout }

/-- HOST_LINK_SET (R434, R456). -/
def execHostLinkSet (h : HlyHdr) (link cm windowLog2 releaseTimeout : Nat) (s : State) : Host.Outcome State Fault Refusal :=
  ends <| runHly (.hostLinkSet h link cm windowLog2 releaseTimeout) 0x0004 h 0 0 [.port link]
    (hostLinkSetBody link cm windowLog2 releaseTimeout) s

/-! ### Doorbells of the host queues (R441, R452, R469) -/

/-- Held replies of a queue go into its ring while it has room (R452). -/
def State.flushReplies (s : State) (q : Nat) : Nat → State
  | 0 => s
  | fuel + 1 =>
    if (s.hq q).ringFull then s
    else
      match takeFirst (fun (r : Reply) => r.src == .host q) s.hly.heldReplies with
      | none => s.upHq q fun x => { x with replyFull := false }
      | some (r, rest) => ((s.upHly fun h => { h with heldReplies := rest }).ringReply q r).flushReplies q fuel

/-- A doorbell of a host queue while the management cores restart is held (R560), and else taken. -/
def State.doorbell (s : State) (i : Instr) (f : State → State) : State :=
  if s.mgc.mgmtReset then { s with waiting := s.waiting ++ [i] } else f s

/-- A new command producer index (R441): the queue's interrupt source is latched (R483). -/
def State.producerWrite (s : State) (q index : Nat) : State :=
  let x := s.hq q
  if !x.enable || x.error then s
  else
    let s := s.latchSrc (192 + q)
    if 2 ^ x.log2Size < ringUsed index x.cmdConsumer then
      (s.upHq q fun x => { x with error := true }).upHly fun h => { h with intStatus := setFlag h.intStatus 0 }
    else s.upHq q fun x => { x with cmdProducer := index % 65536 }

/-- HLY_COMMAND_PRODUCER_WRITE (R441, R453). -/
def execHlyCommandProducerWrite (q index : Nat) (s : State) : Host.Outcome State Fault Refusal :=
  ends (s.wake.doorbell (.hlyCommandProducerWrite q index) fun s => if 7 < q then s else s.producerWrite q index)

/-- HLY_REPLY_CONSUMER_WRITE (R441, R452). -/
def execHlyReplyConsumerWrite (q index : Nat) (s : State) : Host.Outcome State Fault Refusal :=
  ends (s.wake.doorbell (.hlyReplyConsumerWrite q index) fun s =>
    if decide (7 < q) || !(s.hq q).enable then s
    else (s.upHq q fun x => { x with replyConsumer := index % 65536 }).flushReplies q (s.hly.heldReplies.length + 1))

/-- A queue starts with both indexes 0 (R469); an enabled one is not changed. -/
def State.enableQueue (s : State) (q : Nat) : State :=
  if (s.hq q).enable then s
  else s.upHq q fun x => { x with
    enable := true, error := false, replyFull := false, cmdProducer := 0, cmdConsumer := 0, replyProducer := 0, replyConsumer := 0 }

/-- HLY_QUEUE_ENABLE (R469). -/
def execHlyQueueEnable (q : Nat) (s : State) : Host.Outcome State Fault Refusal :=
  ends (if 7 < q then s.wake else s.wake.enableQueue q)

/-- HLY_QUEUE_DISABLE (R441, R468): commands accepted go on, and a queue in the error state stays in it until it is enabled again. -/
def execHlyQueueDisable (q : Nat) (s : State) : Host.Outcome State Fault Refusal :=
  ends (if 7 < q then s.wake else s.wake.upHq q fun x => { x with enable := false })

/-! ### The in-band channel (R461 to R463) -/

/-- A command message is whole (R463): a duplicate of a command in progress is discarded, a cached reply is sent again, and
any other waits to be accepted, with the channel's interrupt source latched (R483, DEDUCED 171). -/
def State.inbandWhole (s : State) (k : InbandKey) (directed : Bool) (ports : List Nat) : State :=
  let s := if directed then s.upHly fun h => { h with
      returnPorts := (h.returnPorts.filter fun e => e.1 != k) ++ [(k, ports)] } else s
  if s.hly.inbandReady.contains k || s.hly.progress.any fun g => srcKey g.src == some k then s
  else
    match s.hly.replyCache.find? fun e => e.1 == k with
    | some (_, r) => s.sendLaneReply k directed (if directed then ports else []) r
    | none => (s.latchSrc 200).upHly fun h => { h with inbandReady := h.inbandReady ++ [k] }

/-- One segment of a command message (R461). -/
def State.inbandSegment (s : State) (k : InbandKey) (index count : Nat) (directed : Bool) (ports : List Nat) : State :=
  if count = 0 || decide (43 < count) || decide (count ≤ index) then s
  else
    let have_ := ((s.hly.reassembly.find? fun r => r.key == k).map (·.have_)).getD []
    let have_ := addOnce have_ index
    if count ≤ have_.length then
      (s.upHly fun h => { h with reassembly := h.reassembly.filter fun r => r.key != k }).inbandWhole k directed ports
    else if s.hly.reassembly.any fun r => r.key == k then
      s.upHly fun h => { h with reassembly := updFirst (fun r => r.key == k) (fun r => { r with have_ }) h.reassembly }
    else if 64 ≤ s.hly.reassembly.length then s.tally (evt 18 1)
    else s.upHly fun h => { h with reassembly := h.reassembly ++ [{ key := k, segCount := count, have_ }] }

/-- HLY_CMD_RECEIVE (R461 to R463): a routed reply goes back to the origin's device ID. Without a valid device ID only directed commands
are taken, and others wait at their ingress (R159). -/
def execHlyCmdReceive (origin : Origin) (queue seq segIndex segCount attempt : Nat) (directed : Bool) (retPorts : List Nat) (s : State) :
    Host.Outcome State Fault Refusal :=
  let s := s.wake
  let k : InbandKey := { serial := origin.serial, queue, seq }
  ends (if !s.rte.valid && !directed then
      { s with waiting := s.waiting ++ [.hlyCmdReceive origin queue seq segIndex segCount attempt directed retPorts] }
    else (s.upHly fun h => { h with origins := (h.origins.filter fun e => e.1 != k) ++ [(k, origin.device)] }).inbandSegment k segIndex
      segCount directed retPorts)

/-- A remote reply is whole: the origin writes it to the host queue of its command (R459). -/
def State.remoteReply (s : State) (queue seq status result : Nat) (deviceValid : Bool) (device : Nat) (out : List Nat) : State :=
  let mine := fun (g : Prog) => g.src == .host queue && g.seq == seq && (match g.wait with
    | .remote .. => true
    | _ => false)
  match takeFirst mine s.hly.progress with
  | none => s
  | some (g, rest) =>
    let s := s.upHly fun h => { h with progress := rest }
    let status := if g.outErr && !out.isEmpty then 0x0502 else status
    if g.mute then s.noteStatus status
    else (s.noteStatus status).writeReply
      { src := g.src, status, seq, code := g.code, remote := true, deviceValid, device, result := result % 2 ^ 128, out, interrupt := g.interrupt }

/-- A command to another device awaits its reply here. -/
def State.awaitsRemote (s : State) (queue seq : Nat) : Bool :=
  s.hly.progress.any fun g => g.src == .host queue && g.seq == seq && (match g.wait with
    | .remote .. => true
    | _ => false)

/-- HLY_REPLY_RECEIVE (R459, R461, R468): a reply that no command awaits is discarded and counted. -/
def execHlyReplyReceive (queue seq segIndex segCount attempt status result : Nat) (deviceValid : Bool) (device : Nat)
    (out : List Nat) (s : State) : Host.Outcome State Fault Refusal :=
  let _ := attempt
  ends (if !s.awaitsRemote queue seq then s.tally (evt 18 1)
    else if segCount = 0 || decide (43 < segCount) || decide (segCount ≤ segIndex) then s
    else
      let have_ := ((s.hly.replySegs.find? fun e => e.1 == queue && e.2.1 == seq).map (·.2.2)).getD []
      let have_ := addOnce have_ segIndex
      let rest := s.hly.replySegs.filter fun e => !(e.1 == queue && e.2.1 == seq)
      if segCount ≤ have_.length then
        (s.upHly fun h => { h with replySegs := rest }).remoteReply queue seq status result deviceValid device out
      else s.upHly fun h => { h with replySegs := rest ++ [(queue, seq, have_)] })

/-- The origin's timer of a remote command passes (R463): a resend, or 0x0604. -/
def State.inbandRetry (s : State) (queue seq : Nat) : State :=
  match s.hly.progress.findSome? fun g => if g.src == .host queue && g.seq == seq then
      (match g.wait with
       | .remote n t d ports m => some (n, t, d, ports, m, g.input)
       | _ => none) else none with
  | none => s
  | some (n, t, d, ports, m, input) =>
    if n < s.hly.inbandRetries then
      (s.upHly fun h => { h with
        progress := updFirst (fun g => g.src == .host queue && g.seq == seq) (fun g => { g with wait := .remote (n + 1) t d ports m })
          h.progress }).sendLaneCommand t d ports queue seq (n + 1) m input
    else
      (s.upHly fun h => { h with replySegs := h.replySegs.filter fun e => !(e.1 == queue && e.2.1 == seq) }).finish
        (fun g => g.src == .host queue && g.seq == seq) 0x0604 0

/-- INBAND_TIMEOUT (R463). -/
def execInbandTimeout (queue seq : Nat) (s : State) : Host.Outcome State Fault Refusal := ends (s.inbandRetry queue seq)

/-- A message not whole in time is discarded, and each of its segments counted (R32, R461). -/
def State.dropMessage (s : State) (k : InbandKey) : State :=
  let gone := s.hly.reassembly.filter fun r => r.key == k
  let s := s.upHly fun h => { h with reassembly := h.reassembly.filter fun r => r.key != k }
  (gone.flatMap (·.have_)).foldl (fun s _ => s.tally (evt 18 1)) s

/-- REASSEMBLY_TIMEOUT (R461). -/
def execReassemblyTimeout (serial queue seq : Nat) (s : State) : Host.Outcome State Fault Refusal :=
  ends (s.dropMessage { serial, queue, seq })

/-- INBAND_HOLD_EXPIRY (R463): a cached reply's entry ends. -/
def execInbandHoldExpiry (serial queue seq : Nat) (s : State) : Host.Outcome State Fault Refusal :=
  ends (s.upHly fun h => { h with
    replyCache := h.replyCache.filter fun e => e.1 != { serial, queue, seq }
    origins := h.origins.filter fun e => e.1 != { serial, queue, seq }
    returnPorts := h.returnPorts.filter fun e => e.1 != { serial, queue, seq } })

/-! ### The board channel (R467) -/

/-- The board channel holds a command. -/
def State.boardBusy (s : State) : Bool := s.hly.boardReq.isSome || s.hly.progress.any fun g => g.src == .board

/-- BOARD_CHANNEL_REQUEST (R467, R511): the channel holds one command at a time; in storm jib any command wakes. -/
def execBoardChannelRequest (code inputLength : Nat) (s : State) : Host.Outcome State Fault Refusal :=
  let s := s.wake
  ends (if s.boardBusy then s.emit (.board 0x0217)
    else (s.latchSrc 201).upHly fun h => { h with boardReq := some (code, inputLength) })

/-- MCTP_CONTROL_MESSAGE (R467): answered under the base specification, and counted. -/
def execMctpControlMessage (command : Nat) (s : State) : Host.Outcome State Fault Refusal :=
  ends ((s.upMgc fun m => { m with mctp := m.mctp + 1 }).emit (.mctp command))

/-- MANAGEMENT_FIRMWARE_FAULT (R454): the command in progress is abandoned. -/
def execManagementFirmwareFault (source : CmdSrc) (seq : Nat) (s : State) : Host.Outcome State Fault Refusal :=
  ends ((s.finish (fun g => g.src == source && g.seq == seq) 0x0503 0).raise 1152)

end Sys2Proof.Machine
end

