-- ==== Sys2Proof/Machine/LinkCmds.lean ====
section
/-!
DEFINITION. The commands and events of the link layer (R198 to R215, R229 to R232).
Where the spec leaves a point open: DEDUCED 125, 148, 160 (notes/assumptions).
-/
namespace Sys2Proof.Machine

/-! ### Halyard commands -/

/-- The shares that result from LINK_SET (R231): VL `v` has bit 3 + v of the change mask. -/
def State.newShares (s : State) (port cm : Nat) (shares : List Nat) : List Nat :=
  (List.range 7).map fun v => pick cm (3 + v) (shares.getD v 0) (s.linkVl port v).nextShare

/-- What LINK_SET does (R231, R232). -/
def linkSetBody (port cm linkTimeout replayLimit retrainLimit : Nat) (shares : List Nat) (s : State) : HRes :=
  let new := s.newShares port cm shares
  let anyShare := (List.range 7).any fun v => cmBit cm (3 + v)
  refuseIf [
    (decide (31 < port) || (cmBit cm 0 && outside 1 256 linkTimeout) || (cmBit cm 1 && outside 1 255 replayLimit) ||
      (cmBit cm 2 && outside 1 1000 retrainLimit) || (anyShare && new.any fun x => outside 66 12288 x) ||
      (anyShare && decide (12288 < new.foldl (· + ·) 0)), 0x0114),
    (!s.isNative port, 0x0111),
    (cmBit cm 0 && s.portListed port, 0x0310),
    (anyShare && (s.lport port).state ≠ .down, 0x0311)] <|
  .ok <| s.upLport port fun l => { l with
    timeout := pick cm 0 linkTimeout l.timeout
    replayLimit := pick cm 1 replayLimit l.replayLimit
    retrainLimit := pick cm 2 retrainLimit l.retrainLimit
    vls := if anyShare then (List.range 7).foldl (fun (t : Tbl LinkVl) v =>
        t.upd v (vlDefault v) fun c => { c with nextShare := new.getD v 0 }) l.vls else l.vls }

/-- LINK_SET (R231, R232). -/
def execLinkSet (h : HlyHdr) (port cm linkTimeout replayLimit retrainLimit : Nat) (shares : List Nat) (s : State) :
    Host.Outcome State Fault Refusal :=
  ends <| runHly (.linkSet h port cm linkTimeout replayLimit retrainLimit shares) 0x0301 h 0 0 [.port port]
    (linkSetBody port cm linkTimeout replayLimit retrainLimit shares) s

/-- What FAULT_INJECT does (R229, R231). -/
def faultInjectBody (port kind n count : Nat) (s : State) : HRes :=
  refuseIf [
    (decide (31 < port) || decide (4 < kind) || (kind ≠ 0 && outside 2 65535 n) || decide (65535 < count), 0x0116),
    (decide (1 ≤ kind) && decide (kind ≤ 3) && !s.isNative port, 0x0111)] <|
  .ok <| s.upLport port fun l => { l with inject := if kind = 0 then {} else { kind, n, count } }

/-- FAULT_INJECT (R229, R231). -/
def execFaultInject (h : HlyHdr) (port kind n count : Nat) (s : State) : Host.Outcome State Fault Refusal :=
  ends <| runHly (.faultInject h port kind n count) 0x0304 h 0 0 [.port port] (faultInjectBody port kind n count) s

/-- The number of a link state (R233). -/
def linkStateNum : LinkState → Nat
  | .down => 0
  | .init => 1
  | .up => 2
  | .replay => 3
  | .retrain => 4

/-- The output of LINK_QUERY, 72 bytes (R595). -/
def State.linkImage (s : State) (p : Nat) : List Nat :=
  let l := s.lport p
  outBytes ([(2, linkStateNum l.state), (2, l.txNext), (2, l.rxExpected), (2, 0), (2, l.flits), (2, l.replay.length), (4, 0)] ++
    (List.range 7).flatMap fun v =>
      let c := s.linkVl p v
      [(2, c.avail), (2, c.limit), (2, c.share), (2, c.held)])

/-- LINK_QUERY (R231, R595). -/
def execLinkQuery (h : HlyHdr) (port : Nat) (s : State) : Host.Outcome State Fault Refusal :=
  ends <| runHly (.linkQuery h port) 0x0305 h 0 72 [] (fun s =>
    refuseIf [(decide (31 < port), 0x0114)] (.data s (s.linkImage port))) s

/-! ### Frames received (R200 to R210) -/

/-- The acknowledgement and the credit reports of a link head (R200). -/
def State.takeHead (s : State) (p h : Nat) : State :=
  let s := if h.testBit 32 then s.takeAck p (bitsOf h 31 16) else s
  let s := if h.testBit 77 then s.takeCredit p (bitsOf h 45 43) (bitsOf h 59 46) else s
  if h.testBit 78 then s.takeCredit p (bitsOf h 62 60) (bitsOf h 76 63) else s

/-- The last flit of a new frame arrives (R204, R206, R207): accepted with a good frame_crc or an abort marker,
whose packet is discarded. `open_` is the frame's entry when its start came before: its flits are freed now where all its cells
have crossed already (R209, R210). -/
def State.frameEnd (s : State) (p v seq flits : Nat) (pkt : Packet) (crcOk abort : Bool) (open_ : Option OpenFrame) : State :=
  let s := s.upLinkVl p v fun c => { c with openFrame := none }
  let dropped := fun (s : State) => ((open_.bind (·.pid)).map s.dropCopies).getD s
  match (s.lport p).judge seq with
  | none => s
  | some d =>
    if abort then ((dropped s).acceptFrame p d).freeFlits p v flits
    else if !crcOk then dropped (s.upLinkVl p v fun c => { c with held := c.held - flits })
    else
      let s := s.acceptFrame p d
      match open_ with
      | none => s.arrive p pkt (pktLen pkt.hdr) v flits
      | some o => if (o.pid.map s.crossing).getD false then s else s.freeFlits p v flits

/-- A frame is taken as a start on a VL with no frame open (R204): new, or a duplicate that takes no space. -/
def State.beginFrame (s : State) (p head : Nat) (pkt : Packet) (crcOk : Bool) (t : Tag) : State :=
  let seq := bitsOf head 15 0
  let v := bitsOf head 35 33
  let flits := bitsOf head 42 36
  match (s.lport p).judge seq with
  | none =>
    let s := s.tally (evt 2 (64 + p))
    if t.last then s
    else s.upLinkVl p v fun c => { c with openFrame := some { seq, flits, duplicate := true } }
  | some _ =>
    let s := s.upLinkVl p v fun c => { c with held := c.held + flits }
    if t.last then s.frameEnd p v seq flits pkt crcOk t.abort none
    else (s.upLinkVl p v fun c => { c with
      openFrame := some { seq, flits, duplicate := false, pid := some pkt.pid } }).arrive p pkt (pktLen pkt.hdr) v flits

/-- A start flit with a good head (R204, R207): the open frame of its VL is discarded, without fault where the start has its
number, and the frame is judged new or duplicate before it takes any buffer space. -/
def State.frameStart (s : State) (p head : Nat) (pkt : Packet) (crcOk : Bool) (t : Tag) : State :=
  let v := bitsOf head 35 33
  match (s.linkVl p v).openFrame with
  | none => s.beginFrame p head pkt crcOk t
  | some o =>
    let s := s.dropOpen p v
    (if o.seq = bitsOf head 15 0 then s else s.linkProtocol p).beginFrame p head pkt crcOk t

/-- A start flit whose head cannot be taken (R207): its flits are discarded up to the last one of its VL, and a frame that was
open there with them (DEDUCED 148). -/
def State.damagedStart (s : State) (p head : Nat) (t : Tag) : State :=
  let s := s.dropOpen p t.vl
  if t.last then s
  else s.upLinkVl p t.vl fun c => { c with openFrame := some { seq := bitsOf head 15 0, flits := 0, duplicate := true } }

/-- A continuation flit (R204, R207): the last one ends its frame. -/
def State.continueFrame (s : State) (p : Nat) (pkt : Packet) (crcOk : Bool) (t : Tag) : State :=
  match (s.linkVl p t.vl).openFrame with
  | none => s.linkProtocol p
  | some o =>
    if !t.last then s
    else if o.duplicate then s.upLinkVl p t.vl fun c => { c with openFrame := none }
    else s.frameEnd p t.vl o.seq o.flits pkt crcOk t.abort (some o)

/-- A head that this receiver takes: its CRC holds, and it names a VL, the one of its tag, and 1 to 66 flits (R200, R207). -/
def headTaken (head : BitVec 128) (t : Tag) : Bool :=
  let h := head.toNat
  headOk head && bitsOf h 35 33 != 7 && bitsOf h 35 33 == t.vl && decide (1 ≤ bitsOf h 42 36) && decide (bitsOf h 42 36 ≤ 66)

/-- What the receiver does with a flit of a frame (R198, R204 to R207): a frame that it takes wakes the device (R42). -/
def State.rxFrame (s : State) (p : Nat) (sync : BitVec 16) (head : BitVec 128) (pkt : Packet) (crcOk : Bool) : State :=
  if (s.lport p).state = .down then s
  else match readTag sync with
    | none => (s.dropAllOpen p).linkProtocol p
    | some t =>
      if t.kind = 1 then
        if headTaken head t then
          (((s.wake.upPort p fun x => { x with rxIdle := false }).upLport p fun l => { l with
            sendInit := false, initDue := false }).takeHead p head.toNat).frameStart p head.toNat pkt crcOk t
        else s.damagedStart p head.toNat t
      else if t.kind = 0 then s.continueFrame p pkt crcOk t
      else s

/-- LINK_FRAME_RECEIVE (R42, R198, R204 to R207, R239): a start flit, or a continuation flit, with the bytes of its frame's packet
and the frame_crc of the trailer; whether a flit of the frame carries the error mark of an uncorrectable codeword, and how many
such codewords came since the last flit. -/
def execLinkFrameReceive (port : Nat) (sync : BitVec 16) (head : BitVec 128) (pid : Nat) (bytes : List Nat) (frameCrc : BitVec 32)
    (marked : Bool) (lost : Nat) (s : State) : Host.Outcome State Fault Refusal :=
  let s := s.upPort port fun x => { x with uncorr := satAdd 32 x.uncorr lost }
  ends (s.rxFrame port sync head (readPkt pid bytes) (!marked && frameCrc.toNat == crc32 bytes))

/-- The drain of R262 has come to its end. -/
def State.settleDrain (s : State) (p : Nat) : State :=
  if (s.port p).draining && (s.lport p).replay.isEmpty then s.portOff p else s

/-- What a link control flit does (R201, R207, R209, R214). -/
def State.rxControl (s : State) (p : Nat) (flit : BitVec 512) (sync : BitVec 16) : State :=
  if (s.lport p).state = .down then s
  else if (readTag sync).isNone then (s.dropAllOpen p).linkProtocol p
  else if (readTag sync).all (fun t => t.kind != 2) || !flitOk flit then s
  else
    let f := flit.toNat
    let s := s.upPort p fun x => { x with rxIdle := false }
    let s := if f.testBit 20 then s.takeAck p (bitsOf f 19 4) else s
    let count := fun v => bitsOf f (34 + 14 * v) (21 + 14 * v)
    match bitsOf f 3 0 with
    | 0 =>
      ((List.range 7).foldl (fun s v => s.takeCredit p v (count v))
        (s.upLport p fun l => { l with sendInit := false, initDue := false })).settleDrain p
    | 1 =>
      if (s.lport p).state = .init then
        (List.range 7).foldl (fun s v => s.upLinkVl p v fun c => { c with limit := count v, debited := 0, reported := 0 })
          (s.upLport p fun l => { l with state := .up })
      else s
    | _ => s

/-- LINK_CONTROL_FLIT_RECEIVE (R201, R207, R209, R214). -/
def execLinkControlFlitReceive (port : Nat) (flit : BitVec 512) (sync : BitVec 16) (s : State) :
    Host.Outcome State Fault Refusal :=
  ends (s.rxControl port flit sync)

/-! ### Timers of the link layer (R213, R214, R262) -/

/-- The replay timer runs (R213): a frame is unacknowledged, the oldest has been sent whole, and no rate step
holds the timer (R255). -/
def State.replayTimerRuns (s : State) (p : Nat) : Bool :=
  let l := s.lport p
  (l.state = .up || l.state = .replay) && (s.port p).train ≠ .step &&
    (match l.replay with
     | [] => false
     | f :: _ => f.sent = f.flits)

/-- The replay timer reaches link_timeout (R213, R214), under the replay_limit that it started with (R232). -/
def State.replayTimeout (s : State) (p : Nat) : State :=
  let l := s.lport p
  if !s.replayTimerRuns p then s
  else if l.limitNow ≤ l.timeouts + 1 then
    (s.upLport p fun l => { l with timeouts := l.timeouts + 1 }).retrainPort p
  else
    ((((s.upLport p fun l => { l with timeouts := l.timeouts + 1 }).enterReplay p).upLnk fun l => { l with
      intStatus := setFlag l.intStatus 0 }).tally (evt 2 p))

/-- REPLAY_TIMEOUT (R213, R214). -/
def execReplayTimeout (port : Nat) (s : State) : Host.Outcome State Fault Refusal := ends (s.replayTimeout port)

/-- RETRAIN_LIMIT_EXPIRY (R214, R215): Retrain to Down, and training starts at Detect (R243). -/
def execRetrainLimitExpiry (port : Nat) (s : State) : Host.Outcome State Fault Refusal :=
  ends (if (s.lport port).state = .retrain then ((s.startDetect port).linkDown port).modeStepDone port else s)

/-- LINK_INIT_FLIT_TIMER (R202, R214): a subtype 1 flit with the receive shares falls due, while the port sends them, and takes
the first slot without a frame flit. -/
def execLinkInitFlitTimer (port : Nat) (s : State) : Host.Outcome State Fault Refusal :=
  ends (if (s.lport port).sendInit then (s.upLport port fun l => { l with initDue := true }).controlSlot port else s)

/-- PORT_DISABLE_DRAIN_TIMEOUT (R262): frames still unacknowledged are discarded, and transport is told. -/
def execPortDisableDrainTimeout (port : Nat) (s : State) : Host.Outcome State Fault Refusal :=
  ends (if (s.port port).draining then s.portOff port else s)

end Sys2Proof.Machine
end

