-- ==== Sys2Proof/Machine/TransportCmds.lean ====
section
/-!
DEFINITION. The commands and events of end-to-end transport and of ordering (R178 to R184, R217 to R232,
R364).
Where the spec leaves a point open: DESIGN CHOICE 24, 146; DEDUCED 129, 147, 166, 169 (notes/assumptions).
-/
namespace Sys2Proof.Machine

/-! ### Halyard commands -/

/-- What TRN_SET does (R228, R231). -/
def trnSetBody (cm ackDelay nakDelay retryTimeout retryLimit ctxIdle sendWindow : Nat) (s : State) : HRes :=
  refuseIf [((cmBit cm 0 && outside 1 256 ackDelay) || (cmBit cm 1 && outside 1 16000 nakDelay) ||
      (cmBit cm 2 && outside 1 10000 retryTimeout) || (cmBit cm 3 && outside 1 255 retryLimit) ||
      (cmBit cm 4 && outside 1 1000 ctxIdle) || (cmBit cm 5 && outside 1 64 sendWindow), 0x0115)] <|
  .ok <| s.upTrn fun t => { t with
    ackDelay := pick cm 0 ackDelay t.ackDelay
    nakDelay := pick cm 1 nakDelay t.nakDelay
    retryTimeout := pick cm 2 retryTimeout t.retryTimeout
    retryLimit := pick cm 3 retryLimit t.retryLimit
    ctxIdle := pick cm 4 ctxIdle t.ctxIdle
    sendWindow := pick cm 5 sendWindow t.sendWindow }

/-- TRN_SET (R228, R231). -/
def execTrnSet (h : HlyHdr) (cm ackDelay nakDelay retryTimeout retryLimit ctxIdle sendWindow : Nat) (s : State) :
    Host.Outcome State Fault Refusal :=
  ends <| runHly (.trnSet h cm ackDelay nakDelay retryTimeout retryLimit ctxIdle sendWindow) 0x0302 h 0 0 []
    (trnSetBody cm ackDelay nakDelay retryTimeout retryLimit ctxIdle sendWindow) s

/-- A half is pinned, open or not (R218). -/
def State.isPinned (s : State) (k : CtxKey) (half : Nat) : Bool :=
  s.trn.pinWaits k half ||
    (if half = 0 then ((s.sendCtx k).map (·.pinned)).getD false else ((s.recvCtx k).map (·.pinned)).getD false)

/-- The receive half has every packet below the number that TCLOSE named: it is freed, and answered, unless it is pinned
(R218, R221). -/
def State.settleClose (s : State) (k : CtxKey) : State :=
  match s.recvCtx k with
  | none => s
  | some c =>
    match c.closeAt with
    | none => s
    | some n => if c.expected = n && !c.pinned then (s.sendTack k false false true).freeRecv k else s

/-- A half that is not open is pinned from its opening (R218). A receive half whose closing its pin has held back closes as the
pin goes (R221). -/
def State.setPin (s : State) (k : CtxKey) (half : Nat) (pin : Bool) : State :=
  let openHalf := if half = 0 then (s.sendCtx k).any fun c => c.state != .spill else (s.recvCtx k).isSome
  if openHalf then
    if half = 0 then s.upSend k fun c => { c with pinned := pin }
    else (s.upRecv k fun c => { c with pinned := pin }).settleClose k
  else s.upTrn fun t => { t with
    pins := if pin then addOnce t.pins (k, half) else t.pins.filter (· != (k, half)) }

/-- What CONTEXT_PIN does (R218, R231). -/
def contextPinBody (peer inst cls half : Nat) (pin : Bool) (s : State) : HRes :=
  let k : CtxKey := { peer, inst, cls }
  if decide (65535 < peer) || decide (1023 < inst) || decide (1 < cls) || decide (1 < half) then .refuse 0x0116
  else if pin && !s.isPinned k half && decide (8192 ≤ s.trn.pinned) then
    .done (s.upTrn fun t => { t with intStatus := setFlag t.intStatus 2 }) 0x0208 0 []
  else .ok (s.setPin k half pin)

/-- CONTEXT_PIN (R218, R231). -/
def execContextPin (h : HlyHdr) (peer inst cls half : Nat) (pin : Bool) (s : State) : Host.Outcome State Fault Refusal :=
  ends <| runHly (.contextPin h peer inst cls half pin) 0x0303 h 0 0 [.inst inst] (contextPinBody peer inst cls half pin) s

/-- The output of TRN_QUERY for a send half, 32 bytes (R595). -/
def sendImage (c : SendCtx) : List Nat :=
  outBytes [(4, c.next), (4, ((c.unacked.head?).map (·.pkt.hdr.seq)).getD c.next), (4, c.unacked.length), (4, c.marks),
    (4, c.lates), (1, c.tickets), (1, b2n c.pinned + 2 * b2n c.onDie), (2, c.nextMsn), (8, 0)]

/-- The output of TRN_QUERY for a receive half, 32 bytes (R595). -/
def recvImage (c : RecvCtx) : List Nat :=
  outBytes [(4, c.expected), (4, 0), (4, c.map.length), (4, c.marks), (4, c.lates), (1, c.granted),
    (1, b2n c.pinned + 2 * b2n c.onDie), (2, c.expectedMsn), (8, 0)]

/-- What TRN_QUERY does (R231, R595). -/
def trnQueryBody (peer inst cls half : Nat) (s : State) : HRes :=
  let k : CtxKey := { peer, inst, cls }
  if decide (65535 < peer) || decide (1023 < inst) || decide (1 < cls) || decide (1 < half) then .refuse 0x0116
  else if half = 0 then
    match s.sendCtx k with
    | none => .refuse 0x0312
    | some c => .data s (sendImage c)
  else
    match s.recvCtx k with
    | none => .refuse 0x0312
    | some c => .data s (recvImage { c with
        expectedMsn := ((s.mtc.ctxs.find? fun m => m.srcDevice == peer && m.srcInst == inst).map (·.expected)).getD 0 })

/-- TRN_QUERY (R231, R595). -/
def execTrnQuery (h : HlyHdr) (peer inst cls half : Nat) (s : State) : Host.Outcome State Fault Refusal :=
  ends <| runHly (.trnQuery h peer inst cls half) 0x0306 h 0 32 [] (trnQueryBody peer inst cls half) s

/-! ### Packets received (R178 to R184, R220, R222) -/

/-- The management complex answers a packet with an error response (R157, R160). The spec does not name the packet: DESIGN
CHOICE 146, it is ENG_ERROR from input 35, with the op_tag and inst_gen of an engine packet, else 0. Its status is a free value. -/
def State.complexAnswer (s : State) (p : Packet) : State :=
  let (v, s) := s.fresh
  let field := fun (i : Nat) => if p.hdr.opcode < 0x40 then p.fields.getD i 0 else 0
  s.respond 0x18 p.hdr.srcDevice p.hdr.inst (field 0) (field 1) (v % 256) 0 (min p.hdr.sl 6) [] (input := 35)

/-- A packet with a reserved opcode goes to the management complex, which counts it and answers it (R157). -/
def State.reservedOpcode (s : State) (p : Packet) : State :=
  ((s.upMgc fun m => { m with reservedOpcodes := m.reservedOpcodes + 1 }).tally (evt 27 0)).complexAnswer p

/-- A packet for an unassigned endpoint goes to the management complex, which counts it and answers it (R160). -/
def State.unassignedEndpoint (s : State) (p : Packet) : State :=
  (s.upMgc fun m => { m with unassigned := m.unassigned + 1 }).complexAnswer p

/-- A packet names an endpoint of this device that is not assigned (R160); a multicast packet names none. -/
def State.noEndpoint (s : State) (h : Hdr) : Bool :=
  !h.multicast && h.destEndpoint != 0 && s.rte.endpoints.get h.destEndpoint .unassigned == .unassigned

/-- An opcode that no rule assigns (R157). -/
def opcodeReserved (op : Nat) : Bool :=
  (decide (0x09 ≤ op) && decide (op ≤ 0x0F)) || (decide (0x19 ≤ op) && decide (op ≤ 0x3F)) ||
    (decide (0x45 ≤ op) && decide (op ≤ 0x5F)) || (decide (0x62 ≤ op) && decide (op ≤ 0x7F)) ||
    (decide (0x84 ≤ op) && decide (op ≤ 0x9F)) || (decide (0xA1 ≤ op) && decide (op ≤ 0xBF)) || decide (0xE0 ≤ op)

/-- The instance that a packet is delivered to (R47, R549): a response's requester; for a request the owner of the region, the receiving
instance of a message, the sender whose message is read, or the group's owning instance. A window request has none (DEDUCED 169). -/
def State.servedInst (s : State) (p : Packet) : Option Nat :=
  let f := fun k => p.fields.getD k 0
  let op := p.hdr.opcode
  if p.hdr.response then some p.hdr.inst
  else if op ≤ 0x04 then (s.region (f 2)).map (·.inst)
  else if op ≤ 0x06 then some (f 2)
  else if op = 0x07 then (s.slot (f 2)).map (·.inst)
  else if op = 0x60 then (s.group (f 0)).map (·.p.inst)
  else if op = 0x08 || op = 0x40 || op = 0x41 then none
  else some p.hdr.inst

/-- A packet is handed to the path that its opcode names (R47), which is the management complex for a reserved opcode and for an
unassigned endpoint (R157, R160). -/
def State.hand (s : State) (p : Packet) (len : Nat) : State :=
  let s := match s.servedInst p with
    | none => s
    | some i => s.meter i fun m => { m with rxBytes := (m.rxBytes + len) % 2 ^ 64, rxPackets := (m.rxPackets + 1) % 2 ^ 64 }
  let s := s.emit (.handed p)
  if opcodeReserved p.hdr.opcode then s.reservedOpcode p
  else if s.noEndpoint p.hdr then s.unassignedEndpoint p else s

/-- A late packet is counted at its destination (R87). -/
def State.countMiss (s : State) : State := s.upTrn fun t => { t with misses := t.misses + 1 }

/-- The late bit as the destination device judges it at the delivery stage (R86, R183): a miss is counted here (R87). -/
def State.judgeArrival (s : State) (h : Hdr) : Hdr × State :=
  if !isGreen h then (h, s)
  else if h.late then (h, s.countMiss)
  else if !s.synced then (h, s.countUnjudged)
  else if s.slack h.deadline < 0 then ({ h with late := true }, s.countMiss.tally (evt 9 3))
  else (h, s)

/-- Packets delivered of a parity (R181). -/
def RecvCtx.count (c : RecvCtx) (parity : Bool) : Nat := if parity then c.count1 else c.count0

/-- A parity's count set (R181). -/
def RecvCtx.setCount (c : RecvCtx) (parity : Bool) (n : Nat) : RecvCtx :=
  if parity then { c with count1 := n } else { c with count0 := n }

/-- Held flagged packets whose counts are met are delivered (R181): each may open the way for the next. -/
def State.releaseHeld (s : State) (k : CtxKey) : Nat → State
  | 0 => s
  | fuel + 1 =>
    match s.recvCtx k with
    | none => s
    | some c =>
      match takeFirst (fun (x : HeldPkt) => x.pkt.hdr.orderingCount == c.count x.pkt.hdr.ordSeg) c.held with
      | none => s
      | some (x, rest) =>
        let s := s.upRecv k fun c => { (c.setCount x.pkt.hdr.ordSeg 0) with
          held := rest, toReturn := c.toReturn + b2n x.ticket }
        ((s.hand x.pkt (pktLen x.pkt.hdr)).sendTack k false false false).releaseHeld k fuel

/-- The high-water mark of the completion-hold buffer (R196). -/
def State.noteHold (s : State) : State :=
  s.upRte fun r => { r with holdHighWater := max r.holdHighWater s.trn.heldCount }

/-- An accepted packet is counted and delivered, or held (R181, R184). -/
def State.deliverOrdered (s : State) (k : CtxKey) (p : Packet) (ticket : Bool) : State :=
  match s.recvCtx k with
  | none => s
  | some c =>
    let h := p.hdr
    if !h.flagged then
      ((s.upRecv k fun c => c.setCount h.ordSeg (c.count h.ordSeg + 1)).hand p (pktLen h)).releaseHeld k (c.held.length)
    else if h.orderingCount = c.count h.ordSeg then
      let s := s.upRecv k fun c => { (c.setCount h.ordSeg 0) with toReturn := c.toReturn + b2n ticket }
      ((s.hand p (pktLen h)).sendTack k false false false).releaseHeld k (c.held.length)
    else
      let s := if ticket && decide (0 < c.granted) then s else s.raise 261
      ((s.upRecv k fun c => { c with held := c.held ++ [{ pkt := p, ticket }] }).tally (evt 4 1)).noteHold

/-- A sequenced packet judged at its receive half (R220, R222). -/
def State.judgeSeq (s : State) (p : Packet) (ticket : Bool) : State :=
  let k := recvKey p.hdr
  match s.recvCtx k with
  | none => s.tally (evt 3 2)
  | some c =>
    let d := modSub (2 ^ 24) p.hdr.seq c.expected
    if decide (1024 ≤ d) && decide (d < 2 ^ 23) then
      (s.upTrn fun t => { t with intStatus := setFlag t.intStatus 1 }).raise 193
    else if decide (2 ^ 23 ≤ d) || c.map.contains d then s
    else
      let (e, m) := advanceMap (2 ^ 24) (c.map.length + 1) c.expected (addOnce c.map d)
      let (h, s) := s.judgeArrival p.hdr
      let s := s.upRecv k fun c => { c with
        expected := e, map := m, sinceAck := c.sinceAck + 1, sl := h.sl, used := s.trn.useCount
        marks := c.marks + b2n h.mark, marksSinceAck := c.marksSinceAck + b2n h.mark
        lates := c.lates + b2n h.late
        lateBySl := if h.late then (List.range 7).map fun l => c.lateBySl.getD l 0 + b2n (l == h.sl) else c.lateBySl }
      let s := s.upTrn fun t => { t with useCount := t.useCount + 1 }
      let s := s.deliverOrdered k { p with hdr := h } ticket
      let s := match s.recvCtx k with
        | none => s
        | some c => if decide (32 ≤ c.sinceAck) || (h.late && decide (0 < c.sinceAck)) then s.sendTack k false false false else s
      s.settleClose k

/-- A packet reaches the delivery stage of this device (R47, R154, R178, R217, R220). -/
def State.rxData (s : State) (p : Packet) (check : BitVec 64) (ticket : Bool) : State :=
  let h := p.hdr
  let ordered := inStream h
  let checkOk := !h.data || decide (check.toNat = pktCheck p)
  let s := if h.flagged && !ordered then s.tally (evt 4 0) else s
  let s := if checkOk then s else s.upTrn fun t => { t with badChecks := t.badChecks + 1 }
  if h.multicast then
    if checkOk then
      let (g, s) := s.judgeArrival h
      (s.hand { p with hdr := { g with flagged := false } } (pktLen h)).mcLocal h true
    else s.mcLocal h false
  else if !checkOk then s
  else if !ordered then s.hand { p with hdr := { h with flagged := false } } (pktLen h)
  else
    match s.recvCtx (recvKey h) with
    | none => s.tally (evt 3 2)
    | some c =>
      if c.onDie then s.judgeSeq p ticket
      else s.upRecv (recvKey h) fun c => { c with fetchWait := c.fetchWait ++ [.transportDataReceive p check ticket] }

/-- TRANSPORT_DATA_RECEIVE (R154, R217, R220): `check` is the crc that the packet came with. -/
def execTransportDataReceive (p : Packet) (check : BitVec 64) (ticketUsed : Bool) (s : State) : Host.Outcome State Fault Refusal :=
  ends (s.rxData p check ticketUsed)

/-- An event of a send half acts on it on die; one in HBM is fetched, and what needs it waits for the fetch (R217, R230). -/
def State.onSend (s : State) (k : CtxKey) (what : Instr) (f : State → State) : State :=
  match s.sendCtx k with
  | none => f s
  | some c => if c.onDie then f s else s.upSend k fun c => { c with fetchWait := c.fetchWait ++ [what] }

/-- An event of a receive half, as of a send half. -/
def State.onRecv (s : State) (k : CtxKey) (what : Instr) (f : State → State) : State :=
  match s.recvCtx k with
  | none => f s
  | some c => if c.onDie then f s else s.upRecv k fun c => { c with fetchWait := c.fetchWait ++ [what] }

/-! ### Opening and closing (R219, R221) -/

/-- TOPEN (R219, R230): a half still open is freed and a new one starts at the new number. -/
def State.rxOpen (s : State) (k : CtxKey) (initialSeq sl : Nat) : State :=
  let s := if (s.recvCtx k).isSome then s.freeRecv k else s
  match s.openRecv k (initialSeq % 2 ^ 24) sl with
  | some t => t.sendTack k true false false
  | none =>
    ((s.upTrn fun t => { t with intStatus := setFlag t.intStatus 3 }).raise 192).sendTack k false true false sl

/-- TOPEN_RECEIVE (R219). -/
def execTopenReceive (peer inst cls initialSeq sl : Nat) (s : State) : Host.Outcome State Fault Refusal :=
  ends (s.rxOpen { peer, inst, cls } initialSeq sl)

/-- TCLOSE (R221): a half that is not held is answered as closed. -/
def State.rxClose (s : State) (k : CtxKey) (nextSeq sl : Nat) : State :=
  if (s.recvCtx k).isSome then (s.upRecv k fun c => { c with closeAt := some (nextSeq % 2 ^ 24), sl }).settleClose k
  else s.sendTack k false false true sl

/-- TCLOSE_RECEIVE (R221). -/
def execTcloseReceive (peer inst cls nextSeq sl : Nat) (s : State) : Host.Outcome State Fault Refusal :=
  let k : CtxKey := { peer, inst, cls }
  ends (s.onRecv k (.tcloseReceive peer inst cls nextSeq sl) fun s => s.rxClose k nextSeq sl)

/-- CTX_IDLE_EXPIRY (R221): TCLOSE is sent for an unpinned half with nothing outstanding, unless a resend was sent
while it was idle. -/
def State.idleExpiry (s : State) (k : CtxKey) : State :=
  match s.sendCtx k with
  | none => s
  | some c =>
    if c.pinned || c.state ≠ .opened || !c.unacked.isEmpty || !c.queue.isEmpty then s
    else if c.resentIdle then s.upSend k fun c => { c with resentIdle := false }
    else (s.upSend k fun c => { c with state := .closing }).trnControl 0x83 k.peer k.inst k.cls c.sl false [c.next]

/-- CTX_IDLE_EXPIRY (R221). -/
def execCtxIdleExpiry (peer inst cls : Nat) (s : State) : Host.Outcome State Fault Refusal :=
  let k : CtxKey := { peer, inst, cls }
  ends (s.onSend k (.ctxIdleExpiry peer inst cls) fun s => s.idleExpiry k)

/-! ### Acknowledgements (R87, R222, R225, R227) -/

/-- A miss returned for a contract (R87): the late event at the threshold, and the count's restart. -/
def State.miss (s : State) (id : Nat) : State :=
  match s.adm.contracts.find id with
  | none => s
  | some c =>
    let n := c.miss + 1
    let hit := decide (0 < c.p.lateThreshold) && decide (c.p.lateThreshold ≤ n)
    let s := s.upAdm fun a => { a with contracts := a.contracts.put id { c with
      miss := if hit then 0 else n, missTotal := satAdd 48 c.missTotal 1 } }
    if hit then
      (s.upAdm fun a => { a with intStatus := setFlag a.intStatus 0 }).post c.p.inst 0x01 0 id n 0
    else s

/-- The instances as whose traffic the unacknowledged green packets of a service level were policed, oldest first (R350,
R394). -/
def SendCtx.greenOwners (c : SendCtx) (sl : Nat) : List Nat :=
  (c.unacked.filter fun p => isGreen p.pkt.hdr && p.pkt.hdr.sl == sl).map fun p => p.polInst.getD c.key.inst

/-- Misses of a context by service level (R87, R227): each goes to the contract that the context's packets of
that level match. A TACK does not name the packets that were late: DEDUCED 147, the oldest unacknowledged green ones. -/
def State.takeLates (s : State) (k : CtxKey) (lates : List Nat) : State :=
  let c := s.sendCtx k
  (List.range 7).foldl (fun s sl =>
    let owners := (c.map fun c => c.greenOwners sl).getD []
    (List.range (lates.getD sl 0)).foldl (fun s i =>
      let inst := owners.getD i (owners.getLastD k.inst)
      let s := s.meter inst fun m => { m with late := (m.late + 1) % 2 ^ 32 }
      match s.contractFor { destDevice := k.peer, inst, sl, response := decide (k.cls = 1) } with
      | none => s
      | some (id, _) => s.miss id) s) s

/-- A send half is freed, and its context opens again for what waits to be sent, or because it is pinned: a pinned half is
never closed (R218, R221; DEDUCED 166). -/
def State.closeSend (s : State) (k : CtxKey) (c : SendCtx) : State :=
  let s := s.upTrn fun t => { t with
    sends := t.sends.filter fun x => x.key != k, pins := if c.pinned then t.pins ++ [(k, 0)] else t.pins }
  let s := if c.pinned then s.openSend k c.sl else s
  c.queue.foldl (fun s p => s.handOver p) s

/-- TACK at its sender (R180, R219, R222, R225, R227). -/
def State.rxTack (s : State) (k : CtxKey) (ack : Nat) (openAck openRefused closeAck : Bool) (lates : List Nat)
    (marks returned granted : Nat) : State :=
  match s.sendCtx k with
  | none => s
  | some c =>
    let s := s.takeLates k lates
    let s := if marks = 0 then s else s.meter k.inst fun m => { m with marks := (m.marks + marks) % 2 ^ 32 }
    let s := s.upSend k fun c => { c with
      marks := c.marks + marks, lates := c.lates + lates.foldl (· + ·) 0
      tickets := min 15 (c.tickets + granted), ticketsUsed := c.ticketsUsed - returned }
    if openRefused && c.state = .opening then s
    else if closeAck && c.state = .closing then s.closeSend k c
    else
      let s := if openAck && c.state = .opening then s.upSend k fun c => { c with state := .opened } else s
      (s.ackTo k ack).pumpAll k

/-- TACK_RECEIVE (R222). -/
def execTackReceive (peer inst cls ackSeq : Nat) (openAck openRefused closeAck : Bool) (lates : List Nat)
    (marks ticketsReturned ticketsGranted : Nat) (s : State) : Host.Outcome State Fault Refusal :=
  let k : CtxKey := { peer, inst, cls }
  ends (s.onSend k (.tackReceive peer inst cls ackSeq openAck openRefused closeAck lates marks ticketsReturned ticketsGranted) fun s =>
    s.rxTack k ackSeq openAck openRefused closeAck lates marks ticketsReturned ticketsGranted)

/-- A resend, or the failure of the context after retry_limit of them without ack progress (R225): the limit in force when the
retry timer started (R232), which a resend restarts. -/
def State.retryFrom (s : State) (k : CtxKey) (n : Nat) : State :=
  match s.sendCtx k with
  | none => s
  | some c =>
    if c.retryLimit ≤ c.resends then (s.failSend k).rdxContextLost k
    else (s.upSend k fun c => { c with resends := c.resends + 1, retryLimit := s.trn.retryLimit }).resendFrom k n

/-- TNAK at its sender (R225, R230): one below the acknowledged numbers is ignored. -/
def State.rxTnak (s : State) (k : CtxKey) (seq : Nat) (transit : Bool) : State :=
  match s.sendCtx k with
  | none => s
  | some c =>
    if !(c.unacked.any fun p => p.pkt.hdr.seq == seq) then s
    else (if transit then s else s.ackTo k seq).retryFrom k seq

/-- TNAK_RECEIVE (R225). -/
def execTnakReceive (peer inst cls seq : Nat) (transit : Bool) (reason : Nat) (s : State) :
    Host.Outcome State Fault Refusal :=
  -- the reason tells software why; the sender does the same for each (R225)
  let k : CtxKey := { peer, inst, cls }
  ends (if 3 < reason then s else s.onSend k (.tnakReceive peer inst cls seq transit reason) fun s => s.rxTnak k seq transit)

/-- A TACK for what has been accepted since the last (R222). -/
def State.ackDue (s : State) (k : CtxKey) : State :=
  match s.recvCtx k with
  | none => s
  | some c => if c.sinceAck = 0 then s else s.sendTack k false false false

/-- ACK_DELAY_EXPIRY (R222). -/
def execAckDelayExpiry (peer inst cls : Nat) (s : State) : Host.Outcome State Fault Refusal :=
  let k : CtxKey := { peer, inst, cls }
  ends (s.onRecv k (.ackDelayExpiry peer inst cls) fun s => s.ackDue k)

/-- TNAK of the missing number, while packets above it are held (R223). -/
def State.nakDue (s : State) (k : CtxKey) : State :=
  match s.recvCtx k with
  | none => s
  | some c => if c.map.isEmpty then s else s.trnControl 0x81 k.peer k.inst k.cls c.sl true [c.expected, 0]

/-- NAK_DELAY_EXPIRY (R223). -/
def execNakDelayExpiry (peer inst cls : Nat) (s : State) : Host.Outcome State Fault Refusal :=
  let k : CtxKey := { peer, inst, cls }
  ends (s.onRecv k (.nakDelayExpiry peer inst cls) fun s => s.nakDue k)

/-- The retry timer reaches retry_timeout (R219, R225): an opening or a closing is asked for again, and
unacknowledged packets are sent again from the oldest. -/
def State.retryExpiry (s : State) (k : CtxKey) : State :=
  match s.sendCtx k with
  | none => s
  | some c =>
    match c.state with
    | .opening => s.trnControl 0x82 k.peer k.inst k.cls c.sl false [c.next]
    | .closing => s.trnControl 0x83 k.peer k.inst k.cls c.sl false [c.next]
    | .spill =>
      match s.trn.makeRoom with
      | none => s
      | some t => (s.upTrn fun _ => { t with
          sends := updFirst (fun x => x.key == k) (fun x => { x with
            state := .opening, next := s.initialSeq, pinned := t.pinWaits k 0, used := t.useCount }) t.sends
          pins := t.pins.filter (· != (k, 0)), useCount := t.useCount + 1 }).trnControl
          0x82 k.peer k.inst k.cls c.sl false [s.initialSeq]
    | .opened =>
      match c.unacked with
      | [] => s
      | p :: _ => s.retryFrom k p.pkt.hdr.seq

/-- RETRY_TIMEOUT (R219, R225). -/
def execRetryTimeout (peer inst cls : Nat) (s : State) : Host.Outcome State Fault Refusal :=
  let k : CtxKey := { peer, inst, cls }
  ends (s.onSend k (.retryTimeout peer inst cls) fun s => s.retryExpiry k)

/-- What waited for a half's fetch acts on it (R217, R230). -/
def State.goOn (s : State) (i : Instr) : State :=
  match i with
  | .transportDataReceive p _ ticket => s.judgeSeq p ticket
  | .tcloseReceive peer inst cls nextSeq sl => s.rxClose { peer, inst, cls } nextSeq sl
  | .ackDelayExpiry peer inst cls => s.ackDue { peer, inst, cls }
  | .nakDelayExpiry peer inst cls => s.nakDue { peer, inst, cls }
  | .tackReceive peer inst cls ack openAck openRefused closeAck lates marks returned granted =>
    s.rxTack { peer, inst, cls } ack openAck openRefused closeAck lates marks returned granted
  | .tnakReceive peer inst cls seq transit _ => s.rxTnak { peer, inst, cls } seq transit
  | .ctxIdleExpiry peer inst cls => s.idleExpiry { peer, inst, cls }
  | .retryTimeout peer inst cls => s.retryExpiry { peer, inst, cls }
  | _ => s

/-- The half is on die, another written out in its place, and what waited for it goes on in order of arrival (R217, R230). -/
def State.fetchDone (s : State) (k : CtxKey) (half : Nat) : State :=
  let wait := if half = 0 then (s.sendCtx k).bind fun c => if c.onDie then none else some c.fetchWait
    else (s.recvCtx k).bind fun c => if c.onDie then none else some c.fetchWait
  match wait with
  | none => s
  | some w =>
    let s := s.upTrn fun t => t.fetched (half == 0, k)
    let s := if half = 0 then s.upSend k fun c => { c with fetchWait := [] } else s.upRecv k fun c => { c with fetchWait := [] }
    let s := w.foldl State.goOn s
    if half = 0 then s.pumpAll k else s

/-- CONTEXT_FETCH_DONE (R217, R230). -/
def execContextFetchDone (peer inst cls half : Nat) (s : State) : Host.Outcome State Fault Refusal :=
  ends (s.fetchDone { peer, inst, cls } half)

/-- FLAGGED_LATE_SEND (R180): a flagged packet without a ticket goes once every earlier packet of its stream is
acknowledged and no earlier flagged packet holds a ticket; what waited behind it follows. -/
def State.lateSend (s : State) (k : CtxKey) : State :=
  match s.sendCtx k with
  | none => s
  | some c =>
    match c.queue with
    | [] => s
    | p :: rest =>
      if !c.closes p.pkt.hdr || !c.unacked.isEmpty || c.ticketsUsed ≠ 0 || c.state ≠ .opened || !c.onDie then s
      else
        match s.policeQueued p with
        | (some p, s) => ((s.upSend k fun c => { c with queue := rest }).sendNow k p false).pumpAll k
        | (none, s) => s.upSend k fun c => { c with
            queue := { p with waitFrom := some (p.waitFrom.getD s.coreTime) } :: rest }

/-- FLAGGED_LATE_SEND (R180). -/
def execFlaggedLateSend (peer inst cls : Nat) (s : State) : Host.Outcome State Fault Refusal :=
  ends (s.lateSend { peer, inst, cls })

/-- MC_ACK_RECEIVE (R188, R190): a branch of an operation is acknowledged; one from a fenced branch finds nothing
that waits for it. -/
def execMcAckReceive (port tree srcDevice inst op delivered fenced : Nat) (s : State) : Host.Outcome State Fault Refusal :=
  ends (s.mcBranchDone tree port srcDevice inst op delivered fenced)

end Sys2Proof.Machine
end

