-- ==== Sys2Proof/Machine/PortCmds.lean ====
section
/-!
DEFINITION. The commands and events of lanes and ports (R234 to R269).
Where the spec leaves a point open: DESIGN CHOICE 22, 41, 168; DEDUCED 43, 131, 160, 176 (notes/assumptions).
-/
namespace Sys2Proof.Machine

/-! ### Halyard commands -/

/-- The maximum rates and widths of a mode (R260, R264, R265, R269): native codes 0 to 4, PCIe 5 to 11, CXL up to
64 GT/s. -/
def modeTakes (mode width maxRate : Nat) : Bool :=
  match mode with
  | 0 => decide (width ≤ 4) && decide (maxRate ≤ 11)
  | 1 => decide (width ≤ 3) && decide (maxRate ≤ 4)
  | 6 => width = 3 && decide (maxRate ≤ 11)
  | 2 | 3 => (width = 3 || width = 4) && decide (5 ≤ maxRate) && decide (maxRate ≤ 11)
  | 4 | 5 => (width = 3 || width = 4) && decide (5 ≤ maxRate) && decide (maxRate ≤ 10)
  | _ => false

/-- Something uses the port, so that it may not be disabled (R266): a reservation, contract, instance, extent
binding or bound function. -/
def State.portUsed (s : State) (p : Nat) : Bool :=
  s.portListed p || s.ins.inst.any (fun i => i.2.state != .free && i.2.port == p) ||
    s.pool.extents.any (fun e => e.1 / 8192 == p && (e.2.state == .bound || e.2.state == .binding)) ||
    s.pool.functions.any (fun f => f.port == p || f.link == p)

/-- A port set to a mode from Disabled, with the training that follows (R262, R266). -/
def State.setMode (s : State) (p mode width maxRate : Nat) (lead : Bool) : State :=
  let s := s.upPort p fun x => { x with mode, width, maxRate, pairLead := lead, downgraded := false, cxlUp := false, backoffs := 0 }
  match mode with
  | 1 => s.startDetect p
  | 6 => s
  | _ => s.setTrain p .sync

/-- What PORT_MODE_SET does (R261, R262, R266, R268). -/
def portModeSetBody (port mode width maxRate : Nat) (s : State) : HRes :=
  let ps := if mode = 0 then s.linkPorts port else if width = 4 then [port, port + 1] else [port]
  refuseIf [
    (decide (31 < port) || !modeTakes mode width maxRate, 0x0117),
    (decide (port ≤ 1) || (mode ≠ 0 && width = 4 && port % 2 = 1), 0x0118),
    (mode ≠ 0 && ps.any (fun p => (s.port p).mode ≠ 0), 0x0313),
    (mode = 0 && ps.any s.portUsed, 0x0316)] <|
  if mode ≠ 0 then
    .ok (ps.foldl (fun s p => s.setMode p mode width maxRate (width = 4 && p = port)) s)
  else if (s.port port).mode = 0 then .ok s
  else if s.linkUp port && !(s.lport port).replay.isEmpty then
    .pend (s.upPort port fun x => { x with draining := true }) (.portMode port) [.port port]
  else .ok (ps.foldl (fun s p => s.portOff p) s)

/-- PORT_MODE_SET (R262, R266). -/
def execPortModeSet (h : HlyHdr) (port mode width maxRate : Nat) (s : State) : Host.Outcome State Fault Refusal :=
  ends <| runHly (.portModeSet h port mode width maxRate) 0x0201 h 0 0 [.port port] (portModeSetBody port mode width maxRate) s

/-- What LANE_SET does (R266, R267). -/
def laneSetBody (port cm corrThreshold corrWindow marginFloor : Nat) (autoSpare idleEnable : Bool) (idleEntry trainTimeout : Nat)
    (s : State) : HRes :=
  refuseIf [
    (decide (31 < port) || (cmBit cm 0 && outside 1 65535 corrThreshold) || (cmBit cm 1 && outside 1 1000 corrWindow) ||
      (cmBit cm 2 && decide (500 < marginFloor)) || (cmBit cm 5 && outside 1 1000 idleEntry) ||
      (cmBit cm 6 && outside 10 1000 trainTimeout), 0x0117),
    ((cmBit cm 3 || cmBit cm 4) && !s.isNative port, 0x0111)] <|
  .ok <| s.upPort port fun x => { x with
    corrThreshold := pick cm 0 corrThreshold x.corrThreshold
    corrWindow := pick cm 1 corrWindow x.corrWindow
    marginFloor := pick cm 2 marginFloor x.marginFloor
    autoSpare := pick cm 3 autoSpare x.autoSpare
    idleEnable := pick cm 4 idleEnable x.idleEnable
    idleEntry := pick cm 5 idleEntry x.idleEntry
    trainTimeout := pick cm 6 trainTimeout x.trainTimeout }

/-- LANE_SET (R266, R267). -/
def execLaneSet (h : HlyHdr) (port cm corrThreshold corrWindow marginFloor : Nat) (autoSpare idleEnable : Bool)
    (idleEntry trainTimeout : Nat) (s : State) : Host.Outcome State Fault Refusal :=
  ends <| runHly (.laneSet h port cm corrThreshold corrWindow marginFloor autoSpare idleEnable idleEntry trainTimeout)
    0x0202 h 0 0 [.port port] (laneSetBody port cm corrThreshold corrWindow marginFloor autoSpare idleEnable idleEntry trainTimeout) s

/-- What LANE_SPARE does (R252, R254, R266). -/
def laneSpareBody (port action lane : Nat) (s : State) : HRes :=
  let x := s.port port
  refuseIf [
    (decide (31 < port) || decide (1 < action) || decide (7 < lane) ||
      (action = 0 && decide (2 ^ x.trainedWidth.getD 3 ≤ lane)), 0x0117),
    (!s.isNative port, 0x0111),
    (!s.linkUp port, 0x0313),
    (x.busy, 0x0317),
    (!x.channelOk || x.spareFailed || (action = 0 && x.spareFor.isSome) || (action = 1 && x.spareFor ≠ some lane), 0x0314)] <|
  .ok (s.askSubst port lane (action = 1))

/-- LANE_SPARE (R252, R254, R266). -/
def execLaneSpare (h : HlyHdr) (port action lane : Nat) (s : State) : Host.Outcome State Fault Refusal :=
  ends <| runHly (.laneSpare h port action lane) 0x0203 h 0 0 [.port port] (laneSpareBody port action lane) s

/-- A lane is the free spare of an Up native port (R259). -/
def State.freeSpare (s : State) (l : Nat) : Bool :=
  let p := l / 9
  l % 9 = 8 && s.linkUp p && (s.port p).spareFor.isNone && (s.port p).txSpareFor.isNone && !(s.port p).busy

/-- What LANE_TEST does (R257 to R259, R266): on a spare, the far end is asked first. -/
def laneTestBody (lane function pattern userPattern inject symbols every : Nat) (s : State) : HRes :=
  let p := lane / 9
  let test := (s.port p).mode = 6
  refuseIf [
    (decide (287 < lane) || decide (4 < function) || decide (8 < pattern) ||
      !(decide (inject ≤ 1) || (decide (10 ≤ inject) && decide (inject ≤ 40))) ||
      (function = 4 && (outside 1 16 symbols || decide (every = 0))), 0x0117),
    (function ≠ 0 && !test && !s.freeSpare lane, 0x0313)] <|
  let starts := function = 2 || function = 3
  let s := s.upLane lane fun l => { l with
    testFn := function, pattern, userPattern, inject, symbols, every, prbsLock := false
    prbsErr := if starts then 0 else l.prbsErr, prbsBits := if starts then 0 else l.prbsBits, prbsPart := if starts then 0 else l.prbsPart
    testAsked := function ≠ 0 && !test }
  .ok (if function ≠ 0 && !test then s.sendLaneMsg p 0x09 8 0 0 0 else s)

/-- LANE_TEST (R257 to R259, R266). -/
def execLaneTest (h : HlyHdr) (lane function pattern userPattern inject symbols every : Nat) (s : State) :
    Host.Outcome State Fault Refusal :=
  ends <| runHly (.laneTest h lane function pattern userPattern inject symbols every) 0x0204 h 0 0 [.port (lane / 9)]
    (laneTestBody lane function pattern userPattern inject symbols every) s

/-- The number of a substitution state (R269). -/
def subNum : SubState → Nat
  | .idle => 0
  | .bridging => 1
  | .comparing => 2
  | .retuning => 3

/-- The output of LANE_QUERY, in the order of R266 and laid out under R594. -/
def State.laneImage (s : State) (p : Nat) : List Nat :=
  let x := s.port p
  outBytes ([(1, trainNum x.train), (1, x.trainedRate.getD 15), (1, x.trainedWidth.getD 7),
    (1, b2n x.spareFor.isSome + 2 * b2n x.spareFailed + 4 * subNum x.subState), (1, x.spareFor.getD 0), (3, 0)] ++
    ((List.range 9).flatMap fun k =>
      let l := s.lane (9 * p + k)
      [(4, l.corrected), (8, l.prbsErr), (8, l.prbsBits), (4, l.margin)]) ++ [(4, x.skew)])

/-- LANE_QUERY (R266). -/
def execLaneQuery (h : HlyHdr) (port : Nat) (s : State) : Host.Outcome State Fault Refusal :=
  ends <| runHly (.laneQuery h port) 0x0205 h 0 228 [] (fun s =>
    refuseIf [(decide (31 < port), 0x0117)] (.data s (s.laneImage port))) s

/-! ### Detectors (R242) -/

/-- A substitution has ended; where no step follows it, a mode change awaits the port no longer (R43). -/
def State.substOver (s : State) (p : Nat) : State :=
  let s := s.substEnd p
  if (s.port p).step.isSome || (s.port p).stepTarget.isSome then s else s.modeStepDone p

/-- A detector fires (R242): where that ends a substitution, as of the spare that fails (R268), what waited for it follows. -/
def State.detected (s : State) (l : Nat) : State :=
  let t := s.detector l
  if (s.port (l / 9)).subst.isSome && (t.port (l / 9)).subst.isNone then t.substOver (l / 9) else t

/-- A lane has failed hard (R242, R268): on an active lane of an Up native link the source is raised and the link enters
Retrain, a free spare is marked failed, a retired lane carries the channel no more (R250), and a PCIe or CXL link recovers by its own
standard. -/
def State.lostLane (s : State) (l src : Nat) : State :=
  let p := l / 9
  let k := s.logicalOf l
  if !s.isNative p then s
  else if k = 8 then s.detected l
  else if (s.lane l).retired then s.checkChannel p
  else if s.linkUp p && k ≠ 15 && decide (k < 2 ^ (s.port p).trainedWidth.getD 0) then (s.raise src (.unit l)).retrainPort p
  else s

/-- LNE_STATUS.elec_idle of a native port's lane (R247, R269): the free spare lies beyond no width, and carries the channel while
the active lanes are in port idle (R248, R250). A port that boot has not reached yet shows the reset value 0 (DEDUCED 176). -/
def State.elecIdle (s : State) (l : Nat) : Bool :=
  let x := s.port (l / 9)
  let k := s.logicalOf l
  (x.train = .disabled && s.hly.fwState ≠ .booting) || x.train = .backoff || (x.txIdle && decide (k < 8)) || (l % 9 = 8 && s.pwr.mode = .stormJib) ||
    (decide (k < 8) && (x.trainedWidth.any fun w => decide (2 ^ w ≤ k)))

/-- LOSS_OF_SIGNAL (R242): outside electrical idle, and not on a direction in port idle (R248). -/
def execLossOfSignal (lane : Nat) (s : State) : Host.Outcome State Fault Refusal :=
  ends (if (s.port (lane / 9)).rxIdle then s
    else ((s.upLane lane fun l => { l with los := true }).upPrt fun t => { t with
      lneStatus := setFlag t.lneStatus 0 }).lostLane lane 0)

/-- LOSS_OF_LOCK (R242). -/
def execLossOfLock (lane : Nat) (s : State) : Host.Outcome State Fault Refusal :=
  ends (((s.upLane lane fun l => { l with locked := false }).upPrt fun t => { t with
    lneStatus := setFlag t.lneStatus 1 }).lostLane lane 1)

/-- Codeword lock is lost: 8 consecutive codewords could not be corrected (R239, R242). -/
def State.lostCodeword (s : State) (p : Nat) : State :=
  let s := (s.upPort p fun x => { x with uncorr := satAdd 32 x.uncorr 8 }).upPrt fun t => { t with
    intStatus := setFlag t.intStatus 6 }
  if s.linkUp p then (s.raise 64 (.port p)).retrainPort p else s

/-- CODEWORD_LOCK_LOSS (R242). -/
def execCodewordLockLoss (port : Nat) (s : State) : Host.Outcome State Fault Refusal := ends (s.lostCodeword port)

/-- CORR_WINDOW_END (R242, R267): the count of the window that ends, and substitution above the threshold that the window began
with; the next one begins with the threshold now set. A lane of a PCIe or CXL link keeps the indication for its next training. -/
def execCorrWindowEnd (lane corrected : Nat) (s : State) : Host.Outcome State Fault Refusal :=
  let over_ := decide ((s.lane lane).threshold < corrected)
  let s := s.upLane lane fun l => { l with
    corrected := min 65535 corrected, threshold := (s.port (lane / 9)).corrThreshold, marked := l.marked || (over_ && !s.isNative (lane / 9)) }
  ends (if over_ then (s.upPrt fun t => { t with lneStatus := setFlag t.lneStatus 2 }).detected lane else s)

/-- The lanes that training at the agreed width uses: those of the width, with the spare in the place of the lane it
replaces (R243, R245). -/
def State.usedLanes (s : State) (p : Nat) : List Nat :=
  let w := ((s.port p).agreed.map (·.2)).getD 0
  (List.range (2 ^ w)).map fun k => s.physicalOf p k

/-- Every used lane has reached the margin floor: Equalise is over (R243). -/
def State.settleEqualise (s : State) (p : Nat) : State :=
  if (s.port p).train = .equalise && (s.usedLanes p).all fun l => decide ((s.port p).marginFloor ≤ (s.lane l).margin) then
    s.setTrain p .lock
  else s

/-- MARGIN_REPORT (R242, R243): at Equalise it counts towards Lock, and on an Up link it judges the lane. -/
def execMarginReport (lane margin : Nat) (s : State) : Host.Outcome State Fault Refusal :=
  let p := lane / 9
  let s := s.upLane lane fun l => { l with margin := min 511 margin }
  ends (if (s.port p).train = .equalise then s.settleEqualise p
    else if margin < (s.port p).marginFloor then
      (s.upPrt fun t => { t with lneStatus := setFlag t.lneStatus 3 }).detected lane
    else s)

/-- WEAR_FLAG (R242): the flag is a level source, and asks for a substitution. -/
def execWearFlag (lane : Nat) (s : State) : Host.Outcome State Fault Refusal :=
  ends (((s.upLane lane fun l => { l with wear := true }).raiseLevel 2 (.unit lane)).detected lane)

/-! ### Training (R243 to R246) -/

/-- TRAIN_DETECT_SIGNAL (R243): loss of signal clears on a lane, and Detect gives way to Sync. -/
def execTrainDetectSignal (lane : Nat) (s : State) : Host.Outcome State Fault Refusal :=
  let p := lane / 9
  let s := s.upLane lane fun l => { l with los := false }
  ends (if (s.port p).train = .detect && !(s.port p).contained then s.startSync p false else s)

/-- The lanes that fail in a quick retrain (R246): active lanes without signal, or without lock although others have passed Sync. -/
def State.quickFailed (s : State) (p : Nat) : List Nat :=
  (List.range (2 ^ (s.port p).trainedWidth.getD 0)).filter fun k =>
    let l := s.lane (s.physicalOf p k)
    l.los || !l.locked

/-- Sync is left (R243, R246): a quick retrain goes on to Lock when its lanes are good, or the spare can replace the one
that is not; else Negotiate chooses anew. -/
def State.leaveSync (s : State) (p : Nat) : State :=
  let x := s.port p
  if !x.quick then s.setTrain p .negotiate
  else if x.stepTarget.isSome then (s.upPort p fun y => { y with quick := false }).setTrain p .negotiate
  else s.lanesFail p (s.quickFailed p) .lock

/-- A coefficient after a request of the far end, with the reply to it (R244): 0 hold, 1 increase, 2 decrease, 3 go to preset. -/
def adjust (cursor preset request : Nat) (c : Int) : Nat × Int :=
  match request with
  | 1 => if c < Config.coeffMax cursor then (0, c + 1) else (1, c)
  | 2 => if Config.coeffMin cursor < c then (0, c - 1) else (1, c)
  | 3 => (0, Config.presetValue preset cursor)
  | _ => (2, c)

/-- The far end's coefficient requests taken on a lane (R243, R244). -/
def Lane.adjusted (l : Lane) (requests preset : Nat) : Lane :=
  let pre := adjust 0 preset (bitsOf requests 1 0) l.coeffs.1
  let main := adjust 1 preset (bitsOf requests 3 2) l.coeffs.2.1
  let post := adjust 2 preset (bitsOf requests 5 4) l.coeffs.2.2
  { l with coeffs := (pre.2, main.2, post.2), coeffStatus := pre.1 + 4 * main.1 + 16 * post.1 }

/-- What a training sequence received on a lane does (R243 to R245): lanes are mapped by the far end's numbers. -/
def State.rxSequence (s : State) (lane : Nat) (q : TrainSeq) : State :=
  let p := lane / 9
  let k := lane % 9
  let n := q.toNat
  if !s.isNative p || !seqOk q || decide (8 < bitsOf n 19 16) || (s.port p).contained then s
  else
    match (s.port p).train with
    | .sync =>
      let s := s.upPort p fun x => { x with
        synced := if x.synced.any (·.1 == k) then x.synced else x.synced ++ [(k, bitsOf n 19 16)]
        goodSeqs := x.goodSeqs.put k (x.goodSeqs.get k 0 + 1)
        acks := if n.testBit 39 then x.acks.put k (x.acks.get k 0 + 1) else x.acks }
      let s := s.upLane lane fun l => { l with locked := true }
      let s := if (s.port p).goodSeqs.get k 0 = 16 then s.sendSequences p else s
      if 16 ≤ (s.port p).acks.get k 0 then s.leaveSync p else s
    | .negotiate =>
      let s := s.upPort p fun x => { x with
        synced := if x.synced.any (·.1 == k) then x.synced else x.synced ++ [(k, bitsOf n 19 16)]
        offer := some (bitsOf n 32 28, bitsOf n 36 33, n.testBit 37), precode := n.testBit 38 }
      s.negotiate p
    | .equalise =>
      if bitsOf n 45 40 = 0 then s
      else (s.upLane lane fun l => l.adjusted (bitsOf n 45 40) (bitsOf n 55 52)).sendSequences p
    | _ => s

/-- TRAINING_SEQUENCE_RECEIVE (R243 to R245). -/
def execTrainingSequenceReceive (lane : Nat) (seq : TrainSeq) (s : State) : Host.Outcome State Fault Refusal :=
  ends (s.rxSequence lane seq)

/-- EQUALISE_TIMEOUT (R243): lanes below the floor have failed; the port returns to Negotiate once, and else goes to
Lock. -/
def execEqualiseTimeout (port : Nat) (s : State) : Host.Outcome State Fault Refusal :=
  let x := s.port port
  let bad := ((s.usedLanes port).filter fun l => decide ((s.lane l).margin < x.marginFloor)).map (· % 9)
  let t := s.upPort port fun y => { y with failedLanes := bad.foldl addOnce y.failedLanes }
  ends (if x.train ≠ .equalise then s
    else if bad.isEmpty || x.renegotiated then t.setTrain port .lock
    else (t.upPort port fun y => { y with renegotiated := true, offer := none }).setTrain port .negotiate)

/-- A physical lane of a port is out of the alignment range of 20 ns, 320 units of 1/16 ns (R241). -/
def skewed (skews : List Nat) (l : Nat) : Bool := decide (320 < skews.getD (l % 9) 0)

/-- LOCK_ACHIEVED (R241, R243, R191): with the skew of each physical lane behind the earliest, in 1/16 ns. A lane beyond 20 ns is a
failed lane; the port reaches Ready, and NEIGHBOUR goes to the far end. -/
def execLockAchieved (port : Nat) (skews : List Nat) (s : State) : Host.Outcome State Fault Refusal :=
  let x := s.port port
  let target : Nat × Nat := match x.agreed, x.quick with
    | some a, false => a
    | _, _ => (x.trainedRate.getD 0, x.trainedWidth.getD 0)
  let bad := (List.range (2 ^ target.2)).filter fun k => skewed skews (s.physicalOf port k)
  ends (if x.train ≠ .lock then s
    else
      let s := s.upPort port fun y => { y with
        spareFailed := y.spareFailed || (y.spareFor.isNone && skewed skews (s.physicalOf port 8)) }
      let s := s.lanesFail port bad .lock
      if (s.port port).train ≠ .lock then s
      else
        let skew := (((List.range 9).map fun k => skews.getD k 0).filter (· ≤ 320)).foldl max 0
        (((s.portReady port target.1 target.2 skew).emit (.oneHop 0xC5 port [Config.serial, port])).sendMgmt 0xC5 false false
          [Config.serial, port] [] port).modeStepDone port)

/-- TRAIN_TIMEOUT (R243): Sync or Lock to Backoff. -/
def execTrainTimeout (port : Nat) (s : State) : Host.Outcome State Fault Refusal :=
  ends (if ((s.port port).train = .sync || (s.port port).train = .lock) && s.isNative port then s.enterBackoff port else s)

/-- BACKOFF_ELAPSED (R243): Backoff to Detect. -/
def execBackoffElapsed (port : Nat) (s : State) : Host.Outcome State Fault Refusal :=
  ends (if (s.port port).train = .backoff && !(s.port port).contained then s.startDetect port else s)

/-! ### Port idle (R247 to R249) -/

/-- A direction of a native port may enter port idle (R248): nothing but idle flits to send, nothing unacknowledged and nothing to
report; and the channel can announce it. -/
def State.mayIdle (s : State) (p : Nat) : Bool :=
  let x := s.port p
  s.linkUp p && x.idleEnable && !x.txIdle && x.channelOk && !s.portListed p && (s.lport p).replay.isEmpty && !s.flitReady p &&
    (s.lport p).ackTold == (s.lport p).rxExpected && (s.untold p).isEmpty

/-- IDLE_ENTRY_EXPIRY (R248): the entry is announced. -/
def execIdleEntryExpiry (port : Nat) (s : State) : Host.Outcome State Fault Refusal :=
  ends (if s.mayIdle port then
      (s.upPort port fun x => { x with txIdle := true }).sendLaneMsg port 0x07 0 0 0 0
    else s)

/-- FAST_EXIT (R249): a frame is ready, and the direction leaves port idle. -/
def execFastExit (port : Nat) (s : State) : Host.Outcome State Fault Refusal :=
  ends (s.upPort port fun x => { x with txIdle := false })

/-- FAST_EXIT_LOCK_TIMEOUT (R249): the receiver takes the failure as codeword lock loss. -/
def execFastExitLockTimeout (port : Nat) (s : State) : Host.Outcome State Fault Refusal :=
  ends (if (s.port port).rxIdle then (s.upPort port fun x => { x with rxIdle := false }).lostCodeword port else s)

/-- IDLE_ENTER (R248): the direction from the far end is in port idle. -/
def execIdleEnter (port : Nat) (msg : BitVec 64) (s : State) : Host.Outcome State Fault Refusal :=
  ends (if msgOk msg && s.isNative port then s.upPort port fun x => { x with rxIdle := true } else s)

/-! ### Substitution (R252 to R254) -/

/-- SUB_REQ (R253, step 2): the sender chooses N and bridges the lane; a test on the spare stops (R259). -/
def execSubReq (port : Nat) (msg : BitVec 64) (s : State) : Host.Outcome State Fault Refusal :=
  let k := msgLane msg
  let x := s.port port
  let n := (x.codeword + 64) % 2 ^ 24
  ends (if !msgOk msg || !s.isNative port || x.subst.isSome then s
    else ((s.stopSpareTest port).upPort port fun y => { y with
      subst := some { lane := k, receiver := false, isReturn := y.txSpareFor = some k, codeword := n }
      subState := .bridging }).sendLaneMsg port 0x02 k 0 0 n)

/-- SUB_ACK (R253, step 3): the receiver compares from codeword N. -/
def execSubAck (port : Nat) (msg : BitVec 64) (s : State) : Host.Outcome State Fault Refusal :=
  ends (match (s.port port).subst with
    | some b => if msgOk msg && b.receiver then s.upPort port fun y => { y with
        subst := some { b with codeword := msgCodeword msg }, subState := .comparing } else s
    | none => s)

/-- SUB_COMPARE_DONE (R253, step 4): the lane is taken from the spare, or the spare is marked failed. -/
def execSubCompareDone (port differing : Nat) (s : State) : Host.Outcome State Fault Refusal :=
  ends (match (s.port port).subst with
    | some b =>
      if !b.receiver || (s.port port).subState ≠ .comparing then s
      else if differing ≤ 4 then
        ((((s.swapLane port b.lane b.isReturn).sendLaneMsg port 0x03 b.lane 0 0 0).upPrt fun t => { t with
          intStatus := setFlag t.intStatus 2 }).substOver port)
      else
        ((s.upPort port fun y => { y with spareFailed := y.spareFailed || !b.isReturn }).sendLaneMsg port 0x04 b.lane 0 0 0).checkChannel
          port |>.substOver port
    | none => s)

/-- SUB_DONE (R253, step 5): the sender stops driving the lane, which becomes the channel's lane (R250). -/
def execSubDone (port : Nat) (msg : BitVec 64) (s : State) : Host.Outcome State Fault Refusal :=
  ends (match (s.port port).subst with
    | some b =>
      if !msgOk msg || b.receiver then s
      else ((s.upPort port fun y => { y with txSpareFor := if b.isReturn then none else some b.lane }).substOver port)
    | none => s)

/-- SUB_ABORT (R253): the lane is kept, and the spare is marked failed. -/
def execSubAbort (port : Nat) (msg : BitVec 64) (s : State) : Host.Outcome State Fault Refusal :=
  ends (match (s.port port).subst with
    | some b =>
      if !msgOk msg then s
      else ((s.upPort port fun y => { y with spareFailed := y.spareFailed || !b.isReturn }).checkChannel port).substOver port
    | none => s)

/-! ### Rate steps (R255, R256) -/

/-- STEP (R255, R268): answered at once, or after the substitution in progress. -/
def execStepMsg (port : Nat) (msg : BitVec 64) (s : State) : Host.Outcome State Fault Refusal :=
  let r := msgRate msg
  let w := msgWidth msg
  let n := msgCodeword msg
  ends (if !msgOk msg || !s.linkUp port || decide (4 < r) || decide (3 < w) then s
    else if (s.port port).subst.isSome then s.upPort port fun y => { y with stepHeld := some (r, w, n) }
    else ((s.stopSpareTest port).upPort port fun y => { y with
      step := some { rate := r, width := w, codeword := n, acked := true, initiator := false }
      train := .step }).sendLaneMsg port 0x06 0 r w n)

/-- STEP_ACK (R255). -/
def execStepAck (port : Nat) (msg : BitVec 64) (s : State) : Host.Outcome State Fault Refusal :=
  ends (if msgOk msg then s.upPort port fun y => { y with step := y.step.map fun t => { t with acked := true } } else s)

/-- RATE_STEP_COMPLETE (R255, R256): the port runs at the step's rate and width, and the link stayed Up. -/
def execRateStepComplete (port : Nat) (s : State) : Host.Outcome State Fault Refusal :=
  ends (match (s.port port).step with
    | none => s
    | some t =>
      if !t.acked then s
      else
        let before := s.judgedMbps port
        let storm := decide (t.rate = 0) && decide (t.width = 0) && (s.port port).preStorm.isSome
        let s := (s.refillEgress port).upPort port fun y => { y with
          trainedRate := some t.rate, trainedWidth := some t.width, lastTrained := some (t.rate, t.width)
          step := none, stepTarget := none, train := .ready, stepped := storm
          preStorm := if storm then y.preStorm else none }
        let s := (s.emit (.training port .ready)).upPrt fun u => { u with intStatus := setFlag u.intStatus 5 }
        ((s.settleTrained port before).modeStepDone port).stepBack port)

/-- RATE_STEP_TIMEOUT (R255): the link enters Retrain, and the port trains at the step's target. -/
def execRateStepTimeout (port : Nat) (s : State) : Host.Outcome State Fault Refusal :=
  ends (if (s.port port).step.isSome then s.retrainPort port else s)

/-- WAKE (R256, R268): the far end has left storm jib. -/
def execWake (port : Nat) (msg : BitVec 64) (s : State) : Host.Outcome State Fault Refusal :=
  ends (if msgOk msg && s.isNative port then
      (s.upPort port fun y => { y with wakeSeen := true }).stepBack port
    else s)

/-! ### Tests (R257 to R259) -/

/-- TEST_REQ (R259): the free spare of an Up port takes part. -/
def execTestReq (port : Nat) (msg : BitVec 64) (s : State) : Host.Outcome State Fault Refusal :=
  ends (if msgOk msg && s.freeSpare (9 * port + 8) then s.sendLaneMsg port 0x0A 8 0 0 0 else s)

/-- TEST_ACK (R259): the spare's generator or checker runs. -/
def execTestAck (port : Nat) (msg : BitVec 64) (s : State) : Host.Outcome State Fault Refusal :=
  ends (if msgOk msg then s.upLane (9 * port + 8) fun l => { l with testAsked := false } else s)

/-- PRBS_CHECKER_LOCK (R258): 64 consecutive error-free bits. -/
def execPrbsCheckerLock (lane : Nat) (s : State) : Host.Outcome State Fault Refusal :=
  ends (s.upLane lane fun l => { l with
    prbsLock := l.prbsLock || ((l.testFn = 2 || l.testFn = 3) && !l.testAsked) })

/-- PRBS_LOCK_LOSS (R258): 64 errors in 1,024 bits; the checker then relocks. -/
def execPrbsLockLoss (lane : Nat) (s : State) : Host.Outcome State Fault Refusal :=
  ends (if (s.lane lane).prbsLock then
      (s.upLane lane fun l => { l with prbsLock := false, prbsErr := satAdd 48 l.prbsErr 64 }).upPrt fun t => { t with
        lneStatus := setFlag t.lneStatus 4 }
    else s)

/-- VIRAL_RECEIVED (R527): PRT_VIRAL against the port of a CXL link. -/
def execViralReceived (port : Nat) (s : State) : Host.Outcome State Fault Refusal :=
  ends (if (s.port port).mode = 4 || (s.port port).mode = 5 then s.raise 69 (.port port) else s)

end Sys2Proof.Machine
end

