-- ==== Sys2Proof/Machine/PowerCmds.lean ====
section
/-!
DEFINITION. The commands and events of power, slots, operating modes and engine-cluster domains (R489 to R519, R592).
Where the spec leaves a point open: DEDUCED 44, 45, 46, 47, 48, 49, 50, 51 (notes/assumptions).
-/
namespace Sys2Proof.Machine

/-! ### Operating modes (R506 to R511) -/

/-- What a port ran in full sail is kept for the exit from reefed mode (R507). -/
def State.keepSail (s : State) : State :=
  s.upPorts.foldl (fun s p => s.upPort p fun x => { x with preReef := match x.trainedRate, x.trainedWidth with
    | some r, some w => some (r, w)
    | _, _ => x.preReef }) s

/-- A port's rate and width once the device is back in full sail (R507). -/
def State.sailTarget (s : State) (p : Nat) : Nat × Nat :=
  (s.port p).preReef.getD ((s.port p).trainedRate.getD 0, (s.port p).trainedWidth.getD 0)

/-- A change that has begun: complete at once when nothing is awaited, else in progress (R507, R508). -/
def State.changeRes (s : State) : HRes :=
  if s.pwr.change.any fun c => c.steps.isEmpty && !c.draining && c.target != .barePoles then .ok s.modeDone
  else .pend s .modeChange [.device]

/-- The change to a target mode begins (R506 to R510). -/
def State.beginMode (s : State) (target : Mode) (reefForm : Nat) (force : Bool) : HRes :=
  let s := s.upPwr fun w => { w with change := some { target, reefForm, force, draining := decide (target = .stormJib) } }
  match target with
  | .reefed =>
    let s := if s.pwr.mode = .fullSail then s.keepSail else s
    (s.stepPorts s.upPorts fun p => reefedTarget reefForm ((s.port p).trainedRate.getD 0) ((s.port p).trainedWidth.getD 0)).changeRes
  | .fullSail =>
    let s := s.upPwr fun w => { w with mode := .fullSail }
    (s.stepPorts s.upPorts s.sailTarget).changeRes
  | .stormJib => (s.upAdm fun a => { a with stormSuspend := true }).changeRes
  | .barePoles => s.changeRes

/-- The mode that a parameter names. -/
def modeOf : Nat → Mode
  | 0 => .fullSail
  | 1 => .reefed
  | 2 => .stormJib
  | _ => .barePoles

/-- Bare poles would lose something that is installed, bound or enabled (R510). -/
def State.bareBlocked (s : State) : Bool :=
  !s.adm.contracts.isEmpty || !s.adm.resvs.isEmpty || s.pool.extents.any (fun e => e.2.state == .bound) ||
    !s.pool.functions.isEmpty || s.ins.inst.any fun i => i.1 ≠ 0 && i.2.state == .enabled

/-- Something full-sail is installed (R80). -/
def State.fullSailBudget (s : State) : Bool :=
  s.adm.contracts.any (fun c => !c.2.p.reefedSafe) || s.adm.resvs.any fun r => !r.2.p.reefedSafe

/-- The reservations of some port would not fit its reefed rate (R40). -/
def State.reefBlocked (s : State) (form : Nat) : Bool :=
  (List.range 32).any fun p => !s.fits p (s.reservedOn p) (s.reefedMbps form p)

/-- What MODE_SET does (R40, R43, R80, R506, R510). -/
def modeSetBody (mode reefForm : Nat) (force : Bool) (s : State) : HRes :=
  refuseIf [
    (decide (3 < mode) || decide (1 < reefForm), 0x0127),
    (s.pwr.change.isSome, 0x032E)] <|
  if modeOf mode = s.pwr.mode then .ok s
  else if s.pwr.mode = .barePoles then (if mode = 0 then .ok s.leaveBare else .refuse 0x0303)
  else
    refuseIf [
      (mode = 1 && s.reefBlocked reefForm, 0x0331),
      (mode = 1 && s.fullSailBudget, 0x0305),
      (mode = 3 && !force && s.bareBlocked, 0x0332)] <|
    s.beginMode (modeOf mode) reefForm force

/-- MODE_SET (R506, R515). -/
def execModeSet (h : HlyHdr) (mode reefForm : Nat) (force : Bool) (s : State) : Host.Outcome State Fault Refusal :=
  ends <| runHly (.modeSet h mode reefForm force) 0x0101 h 0 0 [] (modeSetBody mode reefForm force) s

/-- STORM_JIB_DRAINED (R41, R428, R508, R538): no green packet is held, no instance reset and no spare swap is in progress. -/
def execStormJibDrained (s : State) : Host.Outcome State Fault Refusal :=
  ends (match s.pwr.change with
    | none => s
    | some c =>
      if !c.draining || s.greenHeld || s.resetting || !s.flt.swaps.isEmpty then s
      else (s.upPwr fun w => { w with change := some { c with draining := false } }).stormSteps)

/-- STORM_JIB_WAKE (R42, R43, R509, R511). -/
def execStormJibWake (cause : Nat) (s : State) : Host.Outcome State Fault Refusal :=
  let _ := cause
  ends s.wake

/-- BARE_POLES_COMMAND_TIMEOUT (R510): commands still running complete with 0x0503. -/
def execBarePolesCommandTimeout (s : State) : Host.Outcome State Fault Refusal :=
  ends (if s.pwr.change.any fun c => c.target == .barePoles then
      (s.hly.progress.filter fun g => g.wait != .modeChange).foldl (fun s g => s.finish (fun x => x == g) 0x0503 0) s
    else s)

/-- The wake GPIO's ball belongs to an enabled slot (R502, R517). -/
def State.wakeBlocked (s : State) : Bool := decide (s.pwr.wakeGpio < 32) && (s.chan (s.pwr.wakeGpio + 2)).enabled

/-- WAKE_GPIO (R510, R511). -/
def execWakeGpio (s : State) : Host.Outcome State Fault Refusal :=
  ends (if decide (31 < s.pwr.wakeGpio) || s.wakeBlocked then s
    else if s.pwr.mode = .barePoles then s.leaveBare
    else s.wake)

/-! ### Commands of power and slots (R515) -/

/-- What PWR_SET does (R494, R515, R516, R592): the twelve changeable fields have bits 0 to 11 of the change mask. -/
def pwrSetBody (feed cm : Nat) (set : ChanSet) (rearm : Bool) (windowMs wakeGpio sleepIdle powerOffIdle : Nat) (s : State) : HRes :=
  let n := mergeSet cm 0 set (s.chanSet feed)
  let goes := cmBit cm 7 && rearm
  refuseIf [
    (decide (1 < feed) || chanSetBad feed n || (cmBit cm 8 && outside 1 1000 windowMs) ||
      (cmBit cm 9 && decide (31 < wakeGpio) && wakeGpio ≠ 63) || (cmBit cm 10 && decide (1000 < sleepIdle)) ||
      (cmBit cm 11 && decide (10000 < powerOffIdle)), 0x0127),
    (goes && ((s.chan feed).state ≠ .latchedOff || s.pwr.thermTrip), 0x0330)] <|
  let s := s.upChan feed fun x => { x with set_ := if n = s.chanSet feed then x.set_ else some n }
  let s := s.upPwr fun w => { w with
    windowMs := pick cm 8 windowMs w.windowMs, wakeGpio := pick cm 9 wakeGpio w.wakeGpio
    sleepIdle := pick cm 10 sleepIdle w.sleepIdle, powerOffIdle := pick cm 11 powerOffIdle w.powerOffIdle }
  .ok (if goes then s.switchOff feed true else s)

/-- PWR_SET (R515, R516). -/
def execPwrSet (h : HlyHdr) (feed cm : Nat) (set : ChanSet) (rearm : Bool) (windowMs wakeGpio sleepIdle powerOffIdle : Nat)
    (s : State) : Host.Outcome State Fault Refusal :=
  ends <| runHly (.pwrSet h feed cm set rearm windowMs wakeGpio sleepIdle powerOffIdle) 0x0102 h 0 0 [.chan feed]
    (pwrSetBody feed cm set rearm windowMs wakeGpio sleepIdle powerOffIdle) s

/-- The output of PWR_QUERY (R594): state, last window, energy, attempts, last cause, settings. -/
def State.chanImage (s : State) (c : Nat) : List Nat :=
  let x := s.chan c
  let n := s.chanSet c
  outBytes ([(4, chanNum x.state)] ++ x.window.map (fun v => (4, v)) ++ [(8, x.energy), (4, x.attempts), (4, x.lastCause)] ++
    [n.inrush, n.energyBudget, n.fastTrip, n.limit, n.faultTime, n.rampTimeout, n.retryCount].map fun v => (4, v))

/-- PWR_QUERY (R515). -/
def execPwrQuery (h : HlyHdr) (channel : Nat) (s : State) : Host.Outcome State Fault Refusal :=
  ends <| runHly (.pwrQuery h channel) 0x0103 h 0 68 [] (fun s => if 33 < channel then .refuse 0x0127 else .data s (s.chanImage channel)) s

/-- What PWR_CAPTURE does (R504, R505): records are counted from the oldest that the ring holds. -/
def pwrCaptureBody (action mask channel first count : Nat) (s : State) : HRes :=
  let on := fun (b : Bool) => s.upPwr fun w => { w with
    chans := ((List.range 34).filter mask.testBit).foldl (fun (t : Tbl Chan) c =>
      t.upd c {} fun x => { x with capture := { x.capture with test := b } }) w.chans }
  refuseIf [
    (decide (2 < action) || (decide (action < 2) && decide (2 ^ 34 ≤ mask)) ||
      (action = 2 && (decide (33 < channel) || outside 1 4096 count || decide (4096 < first + count))), 0x0127)] <|
  match action with
  | 0 => .ok (on true)
  | 1 => .ok (on false)
  | _ =>
    let r := (s.chan channel).records
    .data s (outBytes ((List.range count).map fun i => (8, r.getD (first + i) 0)))

/-- PWR_CAPTURE (R504, R515). -/
def execPwrCapture (h : HlyHdr) (action mask channel first count : Nat) (s : State) : Host.Outcome State Fault Refusal :=
  ends <| runHly (.pwrCapture h action mask channel first count) 0x0104 h 0 (if action = 2 then 8 * count else 0) []
    (pwrCaptureBody action mask channel first count) s

/-- The conditions of R289 hold at a slot's port: an extent or a function of it is in use. -/
def State.slotInUse (s : State) (slot : Nat) : Bool :=
  let p := s.leadPort slot
  let (first, n) := s.portHandles p
  s.pool.extents.any (fun e => decide (first ≤ e.1) && decide (e.1 < first + n) &&
    !(e.2.state == .absent || e.2.state == .freeDirty || e.2.state == .freeClean)) ||
    s.pool.functions.any fun f => s.leadPort f.port == p

/-- What SLOT_SET does (R501, R515, R516): enable, auto_power, pgin_use and the settings have bits 0 to 9 of the change
mask. -/
def slotSetBody (slot cm : Nat) (enable autoPower pginUse : Bool) (set : ChanSet) (s : State) : HRes :=
  let c := slot + 2
  let n := mergeSet cm 3 set (s.chanSet c)
  let x := s.chan c
  let en := pick cm 0 enable x.enabled
  refuseIf [
    (decide (31 < slot) || chanSetBad c n, 0x0127),
    (x.enabled && !en && s.slotInUse slot, 0x0318)] <|
  let t := s.upChan c fun x => { x with
    enabled := en, autoPower := pick cm 1 autoPower x.autoPower, pginUse := pick cm 2 pginUse x.pginUse
    present := x.present && en, set_ := if n = s.chanSet c then x.set_ else some n }
  let t := if x.enabled && !en then (t.switchOff c true).upDown (s.leadPort slot) fun d => { d with held := false, step := 0 } else t
  .ok (if en && (t.chan c).autoPower && !x.autoPower && x.present then t.presencePower slot else t)

/-- SLOT_SET (R501, R515). -/
def execSlotSet (h : HlyHdr) (slot cm : Nat) (enable autoPower pginUse : Bool) (set : ChanSet) (s : State) :
    Host.Outcome State Fault Refusal :=
  ends <| runHly (.slotSet h slot cm enable autoPower pginUse set) 0x0105 h 0 0 [.slot slot]
    (slotSetBody slot cm enable autoPower pginUse set) s

/-- What SLOT_POWER does (R494, R503, R517): a forced switch-off of an On slot is a surprise removal. -/
def slotPowerBody (slot : Nat) (on force : Bool) (s : State) : HRes :=
  let c := slot + 2
  let x := s.chan c
  let isOff := x.state = .off || x.state = .latchedOff
  refuseIf [
    (decide (31 < slot), 0x0127),
    (!x.enabled || on != isOff, 0x0330),
    (on && (s.slotPoisoned (s.leadPort slot) && (s.downOf (s.leadPort slot)).held), 0x0318),
    (!on && !force && s.slotInUse slot, 0x0318)] <|
  if on then
    let s := if x.state = .latchedOff then s.switchOff c true else s
    .ok (s.startRamp c)
  else
    let t := s.switchOff c (x.state = .coolDown)
    .ok (if force && x.state = .on then t.slotSurprise c else t)

/-- SLOT_POWER (R503, R515). -/
def execSlotPower (h : HlyHdr) (slot : Nat) (on force : Bool) (s : State) : Host.Outcome State Fault Refusal :=
  ends <| runHly (.slotPower h slot on force) 0x0106 h 0 0 [.slot slot] (slotPowerBody slot on force) s

/-- SLOT_QUERY (R515): as PWR_QUERY, then presence and the auxiliary power-good input. -/
def execSlotQuery (h : HlyHdr) (slot : Nat) (s : State) : Host.Outcome State Fault Refusal :=
  ends <| runHly (.slotQuery h slot) 0x0107 h 0 76 [] (fun s =>
    if 31 < slot then .refuse 0x0127
    else .data s (s.chanImage (slot + 2) ++ outBytes [(4, b2n (s.chan (slot + 2)).present), (4, b2n (s.chan (slot + 2)).pgin)])) s

/-! ### Feeds (R490 to R494) -/

/-- FEED_WINDOW_ENTER (R490, R491, R494). -/
def execFeedWindowEnter (feed voltage : Nat) (s : State) : Host.Outcome State Fault Refusal :=
  ends (if 1 < feed then s
    else s.upChan feed fun x => { x with
      inWindow := true, voltage := min voltage 65535, below5 := false, state := if x.state = .off then .insertion else x.state })

/-- FEED_WINDOW_EXIT (R490 to R492, R494): below 10.2 V, or above 13.8 V. -/
def execFeedWindowExit (feed voltage : Nat) (s : State) : Host.Outcome State Fault Refusal :=
  let low := decide (voltage < 10200)
  ends (if decide (1 < feed) || (!low && decide (voltage ≤ 13800)) || !(s.chan feed).inWindow then s
    else
      let was := (s.chan feed).state
      let s := s.upChan feed fun x => { x with
        inWindow := false, voltage := min voltage 65535, state := if x.state = .insertion then .off else x.state }
      let s := if was = .on then s.windowTrip feed (if low then 7 else 6) else s
      s.powerEvent (if low then 1408 else 1409))

/-- INSERTION_DELAY_ELAPSED (R491, R494). -/
def execInsertionDelayElapsed (feed : Nat) (s : State) : Host.Outcome State Fault Refusal :=
  ends (if decide (1 < feed) || (s.chan feed).state ≠ .insertion then s else s.startRamp feed)

/-- REVERSE_CURRENT (R493): the feed keeps power-good. -/
def execReverseCurrent (feed : Nat) (s : State) : Host.Outcome State Fault Refusal :=
  ends (if decide (1 < feed) || (s.chan feed).state ≠ .on then s
    else (s.upChan feed fun x => { x with reverseOff := true }).powerEvent 1410)

/-- REVERSE_RECOVERY (R493, R517). -/
def execReverseRecovery (feed : Nat) (s : State) : Host.Outcome State Fault Refusal :=
  ends (if 1 < feed then s else s.upChan feed fun x => { x with reverseOff := false })

/-- A feed latched off is released (R494, R500). -/
def State.releaseFeed (s : State) (feed : Nat) : State :=
  if (s.chan feed).state = .latchedOff then s.switchOff feed true else s

/-- FEED_BELOW_5V (R494, R592): while a thermal trip holds THERMTRIP_N low, both feeds leave together. -/
def execFeedBelow5v (feed : Nat) (s : State) : Host.Outcome State Fault Refusal :=
  ends (if 1 < feed then s
    else
      let s := s.upChan feed fun x => { x with below5 := true }
      if !s.pwr.thermTrip then s.releaseFeed feed
      else if (s.chan 0).below5 && (s.chan 1).below5 then
        ((s.upPwr fun w => { w with thermTrip := false }).releaseFeed 0).releaseFeed 1
      else s)

/-- THERMAL_TRIP (R592). -/
def execThermalTrip (sensor : Nat) (s : State) : Host.Outcome State Fault Refusal :=
  let _ := sensor
  let had := s.feedsOn
  let latch := fun (x : Chan) => { x with state := ChanState.latchedOff, timer := false, withheld := false, reverseOff := false }
  ends ((((s.upPwr fun w => { w with thermTrip := true }).upChan 0 latch).upChan 1 latch).settlePower had)

/-- TEMPERATURE_READING (R522). -/
def execTemperatureReading (sensor : Nat) (celsius : Int) (s : State) : Host.Outcome State Fault Refusal :=
  let before := (s.flt.temps.get sensor none).getD 0
  let s := s.upFlt fun f => { f with temps := f.temps.put sensor (some celsius) }
  let hot := s.flt.temps.any fun e => e.2.any fun t => decide (102 ≤ t)
  let warm := s.flt.temps.any fun e => e.2.any fun t => decide (99 ≤ t)
  let s := s.powerLevel 1415 (hot || (warm && (s.fault 1415).active))
  ends (if decide (112 ≤ celsius) && decide (before < 112) then s.powerEvent 1416 else s)

/-! ### Channels (R494 to R500) -/

/-- The channel exists. -/
def isChan (c : Nat) : Bool := decide (c < 34)

/-- The fault timer is armed (R496). -/
def Chan.armed (x : Chan) : Bool := x.state = .ramping || x.state = .qualifying || x.state = .on

/-- RAMP_COMPLETE (R494). -/
def execRampComplete (channel : Nat) (s : State) : Host.Outcome State Fault Refusal :=
  ends (if !isChan channel || (s.chan channel).state ≠ .ramping then s
    else s.upChan channel fun x => { x with state := .qualifying })

/-- The channel reaches On: power-good (R494, R498, R519). -/
def State.powerGood (s : State) (c : Nat) : State :=
  let s := (s.upChan c fun x => { x with state := .on, withheld := false }).settlePower s.feedsOn
  if c < 2 || s.pwr.mode = .barePoles then s
  else
    let s := s.upPwr fun w => { w with sltStatus := setFlag w.sltStatus 2 }
    s.upDown (s.leadPort (slotPort c)) fun d => { d with step := if d.step = 1 then 2 else d.step }

/-- QUALIFICATION_DONE (R494, R495, R497, R502, R517): the fault timer and a low auxiliary input withhold power-good. -/
def execQualificationDone (channel : Nat) (pgin : Bool) (s : State) : Host.Outcome State Fault Refusal :=
  ends (if !isChan channel || (s.chan channel).state ≠ .qualifying then s
    else
      let s := if channel < 2 then s else s.upChan channel fun x => { x with pgin }
      if (s.chan channel).timer then s.upChan channel fun x => { x with withheld := true }
      else if (s.chan channel).pginUse && !pgin then s
      else s.powerGood channel)

/-- CURRENT_OVER_LIMIT (R496, R497). -/
def execCurrentOverLimit (channel current : Nat) (s : State) : Host.Outcome State Fault Refusal :=
  ends (if !isChan channel || !(s.chan channel).armed || decide (current ≤ limitMa channel (s.chanSet channel).limit) then s
    else s.upChan channel fun x => { x with timer := true, current := min current 65535 })

/-- CURRENT_BELOW_RECOVERY (R495, R496): below 95 % of the limit. -/
def execCurrentBelowRecovery (channel current : Nat) (s : State) : Host.Outcome State Fault Refusal :=
  ends (if !isChan channel || decide (95 * limitMa channel (s.chanSet channel).limit ≤ 100 * current) then s
    else s.upChan channel fun x => { x with timer := false, withheld := false, current := min current 65535 })

/-- FAULT_TIMER_TRIP (R496, R499, R517). -/
def execFaultTimerTrip (channel : Nat) (s : State) : Host.Outcome State Fault Refusal :=
  ends (if isChan channel && (s.chan channel).timer && (s.chan channel).armed then s.trip channel 3 else s)

/-- FAST_TRIP (R499, R517): with the energy budget in the same sample, one trip of cause 4. -/
def execFastTrip (channel : Nat) (withEnergy : Bool) (s : State) : Host.Outcome State Fault Refusal :=
  ends (if isChan channel && (s.chan channel).gate then
      s.trip channel (if withEnergy && (s.chan channel).state = .ramping then 4 else 1)
    else s)

/-- ENERGY_BUDGET_TRIP (R499). -/
def execEnergyBudgetTrip (channel : Nat) (s : State) : Host.Outcome State Fault Refusal :=
  ends (if isChan channel && (s.chan channel).state = .ramping then s.trip channel 2 else s)

/-- RAMP_TIMEOUT (R495, R499): the start-up timer does not run while the fault timer has the counter. -/
def execRampTimeout (channel : Nat) (s : State) : Host.Outcome State Fault Refusal :=
  ends (if isChan channel && (s.chan channel).state = .ramping && !(s.chan channel).timer then s.trip channel 5 else s)

/-- COOL_DOWN_ELAPSED (R494, R500). -/
def execCoolDownElapsed (channel : Nat) (s : State) : Host.Outcome State Fault Refusal :=
  ends (if isChan channel && (s.chan channel).state = .coolDown then s.startRamp channel else s)

/-- ATTEMPT_COUNT_RESET (R500). -/
def execAttemptCountReset (channel : Nat) (s : State) : Host.Outcome State Fault Refusal :=
  ends (if isChan channel && (s.chan channel).state = .on then s.upChan channel fun x => { x with attempts := 0, retries := 0 }
    else s)

/-! ### Slots (R501 to R503) -/

/-- PRESENCE_DEBOUNCED (R288, R501, R511): the input of a slot that is not enabled is ignored. -/
def execPresenceDebounced (slot : Nat) (s : State) : Host.Outcome State Fault Refusal :=
  ends (if decide (31 < slot) || !(s.chan (slot + 2)).enabled then s else s.wake.presenceSeen slot)

/-- PRESENCE_LOST (R290, R500, R511, R517): the presence of an enabled slot, or the link of a downstream port. -/
def execPresenceLost (slot port : Nat) (linkDown : Bool) (s : State) : Host.Outcome State Fault Refusal :=
  ends (if linkDown then
      let p := s.leadPort port
      (if s.isDownstream p && !(s.downOf p).removing && decide (2 < (s.downOf p).step) then
        (s.linkPorts p).foldl State.linkOff (s.wake.surpriseRemoval p) else s)
    else if decide (31 < slot) || !(s.chan (slot + 2)).enabled then s
    else s.wake.presenceGone slot port)

/-- PGIN_FALL (R498, R502). -/
def execPginFall (slot : Nat) (s : State) : Host.Outcome State Fault Refusal :=
  let x := s.chan (slot + 2)
  ends (if decide (31 < slot) || !x.enabled then s
    else
      let s := s.upChan (slot + 2) fun x => { x with pgin := false }
      if x.pginUse && x.state = .on then s.powerEvent 1474 else s)

/-! ### Measurement (R504, R505) -/

/-- MEASUREMENT_WINDOW_END (R504): the energy runs in both regimes; the window only in its own. -/
def execMeasurementWindowEnd (channel vPeak vMin iPeak iMin pMean energy : Nat) (s : State) : Host.Outcome State Fault Refusal :=
  ends (if !isChan channel then s
    else s.upChan channel fun x => { x with
      window := if x.capture.any then x.window else [vPeak, vMin, iPeak, iMin, pMean]
      energy := satAdd 48 x.energy energy })

/-- CAPTURE_RECORD (R504, R505): the oldest record of the ring of 4,096 is overwritten. -/
def execCaptureRecord (channel voltage current power cause : Nat) (s : State) : Host.Outcome State Fault Refusal :=
  ends (if !isChan channel || !(s.chan channel).capture.any then s
    else s.upChan channel fun x => { x with
      records := (if 4096 ≤ x.records.length then x.records.drop 1 else x.records) ++ [x.record voltage current power cause]
      sequence := (x.sequence + 1) % 256, voltage := min voltage 65535, current := min current 65535 })

/-- CONTINUOUS_CAPTURE_END (R504): 100 ms after On or Latched off; a test goes on. -/
def execContinuousCaptureEnd (channel : Nat) (s : State) : Host.Outcome State Fault Refusal :=
  ends (if isChan channel && ((s.chan channel).state = .on || (s.chan channel).state = .latchedOff) then
      s.upChan channel fun x => { x with capture := { x.capture with startUp := false, recovery := false } }
    else s)

/-! ### Engine-cluster domains (R512 to R514) -/

/-- A domain. -/
def State.domain (s : State) (d : Nat) : Domain := s.pwr.domains.get d {}

/-- The state with a domain changed. -/
def State.upDomain (s : State) (d : Nat) (f : Domain → Domain) : State :=
  s.upPwr fun w => { w with domains := w.domains.upd d {} f }

/-- Every domain is pinned: a destination hop reservation is installed (R514). -/
def State.pinned (s : State) : Bool := s.adm.resvs.any fun r => r.2.p.destination

/-- A domain with no work of its engines 8d to 8d + 7 (R512). -/
def State.domainIdle (s : State) (d : Nat) : Bool :=
  !(s.mec.sendQ.any fun q => q.2.engine / 8 == d) && !(s.mec.slots.any fun x => x.1 / 4096 == d) &&
    !(s.mec.triggers.any fun t => t.engine / 8 == d)

/-- SLEEP_IDLE_EXPIRY (R512, R514). -/
def execSleepIdleExpiry (domain : Nat) (s : State) : Host.Outcome State Fault Refusal :=
  let x := s.domain domain
  ends (if decide (15 < domain) || x.state ≠ .on || s.pwr.sleepIdle = 0 || s.pinned then s
    else s.upDomain domain fun x => { x with state := .sleep })

/-- POWER_OFF_IDLE_EXPIRY (R512, R514): the commit. -/
def execPowerOffIdleExpiry (domain : Nat) (s : State) : Host.Outcome State Fault Refusal :=
  let x := s.domain domain
  ends (if decide (15 < domain) || !(x.state = .on || x.state = .sleep) || x.waking || s.pwr.powerOffIdle = 0 || s.pinned ||
      !s.domainIdle domain then s
    else s.upDomain domain fun x => { x with state := .committed })

/-- DOMAIN_OFF_DONE (R512, R517): a domain that is wanted powers on again. -/
def execDomainOffDone (domain : Nat) (s : State) : Host.Outcome State Fault Refusal :=
  ends (if (s.domain domain).state ≠ .committed then s
    else s.upDomain domain fun x => { x with state := .off, waking := x.wakeAfter, wakeAfter := false })

/-- A domain is wanted (R513, R517): one that is committed powers on once it is off. -/
def State.wantDomain (s : State) (d : Nat) : State :=
  match (s.domain d).state with
  | .on => s
  | .committed => s.upDomain d fun x => { x with wakeAfter := true }
  | _ => s.upDomain d fun x => { x with waking := true }

/-- A packet that a committed domain turns away (R513). -/
def State.turnAway (s : State) (domain : Nat) (p : Packet) : State :=
  if p.hdr.response then s.upPwr fun w => { w with domainDrops := w.domainDrops + 1 }
  else s.respond 0x18 p.hdr.srcDevice p.hdr.inst (p.fields.getD 0 0) (p.fields.getD 1 0) stUnavailable 0 p.hdr.sl []
    (input := inputFor 0x18 domain)

/-- DOMAIN_PACKET_ARRIVAL (R513, R517). -/
def execDomainPacketArrival (domain : Nat) (p : Packet) (s : State) : Host.Outcome State Fault Refusal :=
  let x := s.domain domain
  ends (if 15 < domain then s
    else match x.state with
      | .on => s.emit (.handed p)
      | .committed => s.turnAway domain p
      | _ => s.upDomain domain fun x => { x with waking := true, held := x.held ++ [p] })

/-- HOP_RESERVE commands that waited for the domains complete (R517). -/
def State.domainsReady (s : State) : State :=
  if (List.range 16).all fun d => (s.domain d).state = .on then
    s.hly.progress.foldl (fun s g => match g.wait with
      | .domainsOn _ result => s.finish (fun x => x == g) 0 result
      | _ => s) s
  else s

/-- DOMAIN_WAKE_DONE (R512, R513): held packets are taken, oldest first. -/
def execDomainWakeDone (domain : Nat) (s : State) : Host.Outcome State Fault Refusal :=
  let x := s.domain domain
  ends (if !x.waking then s
    else
      let s := s.upDomain domain fun x => { x with state := .on, waking := false, wakes := satAdd 16 x.wakes 1, held := [] }
      (x.held.foldl (fun s p => s.emit (.handed p)) s).domainsReady)

/-- DOMAIN_WAKE_TIMEOUT (R513, R518). -/
def execDomainWakeTimeout (domain : Nat) (s : State) : Host.Outcome State Fault Refusal :=
  ends (if (s.domain domain).waking then s.powerEvent 1414 else s)

end Sys2Proof.Machine
end

