-- ==== Sys2Proof/Machine/BootCmds.lean ====
section
/-!
DEFINITION. The commands and events of resets, boot, leaving a fabric and the test port (R557 to R573, R587).
Where the spec leaves a point open: DESIGN CHOICE 10, 55, 56; DEDUCED 49, 57, 58, 59, 60 (notes/assumptions).
-/
namespace Sys2Proof.Machine

/-! ### Resets (R558 to R561) -/

/-- A management-complex reset begins (R480, R558, R560). -/
def State.mgmtStart (s : State) (trigger : Nat) : State :=
  let s := s.upMgc fun m => { m with
    mgmtReset := true, resetKind := 3, trigger, warmCount := satAdd 16 m.warmCount 1, stage := .checks, triedFirst := false
    pendingReset := none, coresFailed := [] }
  let s := s.upMpu fun u => { u with unlocked := false, nonce := none }
  let s := s.upIcu fun c => { c with
    cores := c.cores.mapv fun k => { k with claims := [] }, sources := c.sources.mapv fun x => { x with claimed := none } }
  s.upHly fun h => { h with
    fwState := if h.fwState = .halted then .halted else .booting
    progress := h.progress.map fun g => { g with wait := .reset, objs := [] } }

/-- The feeds and every slot switched Off (R558). -/
def State.allOff (s : State) : State :=
  let s := (List.range 34).foldl (fun s c => s.chanOff c true) s
  s.upPwr fun w => { w with lost := true }

/-- A reset that was asked for takes effect (R558, R572): 0 warm, 1 management complex, 2 cold. -/
def State.takeReset (s : State) (kind trigger : Nat) : State :=
  match kind with
  | 0 => s.reboot 2 trigger
  | 1 => s.mgmtStart trigger
  | _ => ((s.reboot 0 trigger).upMgc fun m => { m with pendingReset := some { kind := 2, trigger } }).allOff

/-- DEVICE_RESET (R572): the reply is written, and the reset follows 10 ms later. -/
def execDeviceReset (h : HlyHdr) (kind : Nat) (s : State) : Host.Outcome State Fault Refusal :=
  ends <| runHly (.deviceReset h kind) 0x0F03 h 0 0 [] (fun s =>
    if 2 < kind then .refuse 0x012B else .ok (s.upMgc fun m => { m with pendingReset := some { kind, trigger := 1 } })) s

/-- DEVICE_RESET_EFFECT (R558, R572, R573). -/
def execDeviceResetEffect (s : State) : Host.Outcome State Fault Refusal :=
  ends (match s.mgc.pendingReset with
    | some r => if s.pwr.lost then s else s.takeReset r.kind r.trigger
    | none => s)

/-- The straps as the masthead samples them (R557). -/
def State.sampleStraps (s : State) (insdly smbaddr ppssel flash : Nat) : State :=
  (s.upPwr fun w => { w with insdly := insdly % 4 }).upMgc fun m => { m with
    smbAddr := smbaddr % 8, ppsSel := ppssel % 2, flash := flash % 2 }

/-- First calibration of the 288 lanes (R568): it records each ageing monitor's baseline, and a lane core that fails raises
LNE_CALIB. -/
def State.calibrate (s : State) (failed baselines : List Nat) : State :=
  let s := (List.range 288).foldl (fun s l => if (baselines.getD l 0) = 0 then s
    else s.upLane l fun x => { x with baseline := baselines.getD l 0 % 2 ^ 32 }) s
  (failed.filter (· < 288)).foldl (fun s l => (s.upLane l fun x => { x with calibFailed := true }).raise 3 (.unit l)) s

/-- COLD_RESET (R558, R568): the first power-good after both feeds lacked it; the trigger is DEVICE_RESET's where that switched
the feeds off. First calibration gives the lanes that fail it, and each ageing monitor's baseline. -/
def execColdReset (insdly : Nat) (straps : MgmtStraps) (calibFailed baselines : List Nat) (s : State) :
    Host.Outcome State Fault Refusal :=
  let trigger := if s.mgc.pendingReset.any fun r => r.kind == 2 then 1 else if s.mgc.trigger = 5 && s.pwr.lost then 5 else 0
  ends (if !s.mgc.vaux then s else ((s.reboot 0 trigger).sampleStraps insdly straps.smbaddr straps.ppssel straps.flash).calibrate calibFailed baselines)

/-- VAUX_LOSS (R528, R531, R558, R592): the masthead's state and the kept fields are gone; flash and fuses are not, and slot
channels keep their state. -/
def execVauxLoss (s : State) : Host.Outcome State Fault Refusal :=
  let t := s.reboot 0 5
  let slots := (s.pwr.chans.keep fun c _ => decide (2 ≤ c)).mapv fun c => { c with energy := 0 }
  ends { t with
    flt := { spares := t.flt.spares }
    pwr := { chans := slots, lost := true }
    mgc := { floor := t.mgc.floor, fusesUsed := t.mgc.fusesUsed, slot0 := t.mgc.slot0, slot1 := t.mgc.slot1
             activation := t.mgc.activation, trigger := 5, vaux := false } }

/-- VAUX33_RISE (R557): the masthead domain starts. -/
def execVaux33Rise (insdly smbaddr ppssel flash : Nat) (s : State) : Host.Outcome State Fault Refusal :=
  ends (if s.mgc.vaux then s else (s.upMgc fun m => { m with vaux := true }).sampleStraps insdly smbaddr ppssel flash)

/-- WARM_RESET (R558, R573): trigger 2 PERST0_N, 3 the watchdogs of every core. The hub must have power. -/
def execWarmReset (trigger : Nat) (s : State) : Host.Outcome State Fault Refusal :=
  let t := if s.pwr.mode = .barePoles || s.pwr.lost then s else s.reboot 2 trigger
  ends (if trigger = 2 then t.upMgc fun m => { m with perst0 := true } else t)

/-- MANAGEMENT_COMPLEX_RESET (R560). -/
def execManagementComplexReset (trigger : Nat) (s : State) : Host.Outcome State Fault Refusal :=
  ends (if s.pwr.mode = .barePoles || s.pwr.lost then s else s.mgmtStart trigger)

/-! ### Flash images (R563 to R565, R572) -/

/-- A flash slot. -/
def Mgc.flashSlot (m : Mgc) (n : Nat) : FlashSlot := if n = 0 then m.slot0 else m.slot1

/-- The state with a flash slot changed. -/
def State.upFlash (s : State) (n : Nat) (f : FlashSlot → FlashSlot) : State :=
  s.upMgc fun m => if n = 0 then { m with slot0 := f m.slot0 } else { m with slot1 := f m.slot1 }

/-- The management cores run the image of a slot (R469, R565). -/
def State.runningSlot (s : State) (n : Nat) : Bool :=
  (s.hly.fwState = .running || s.flt.halted) && s.hly.fwImage == n

/-- What FW_WRITE does (R572). -/
def fwWriteBody (slot offset : Nat) (final : Bool) (data : List Nat) (s : State) : HRes :=
  refuseIf [
    (decide (1 < slot) || decide (offset % 4096 ≠ 0) || decide (33554432 < offset + data.length), 0x012B),
    (s.runningSlot slot, 0x0338)] <|
  .ok <| s.upFlash slot fun f => { f with pieces := (offset, data) :: f.pieces, filling := !final, ok := none }

/-- FW_WRITE (R572): it completes when the data is programmed. -/
def execFwWrite (h : HlyHdr) (slot offset : Nat) (final : Bool) (data : List Nat) (s : State) : Host.Outcome State Fault Refusal :=
  ends <| runHly (.fwWrite h slot offset final data) 0x0F01 h data.length 0 [] (fwWriteBody slot offset final data) s

/-- The fused minimum security version, with what raise_floor has added (R564, R572). -/
def State.floor (s : State) : Nat := s.mgc.floor.getD Config.fusedFloor

/-- The checks of R564 on the image of a slot: signature, and its version. -/
def State.imageOk (s : State) (n : Nat) : Bool × Nat :=
  let f := s.mgc.flashSlot n
  match f.ok with
  | some b => (b, f.version)
  | none => (Config.imageGood n f.pieces, Config.imageVersion n f.pieces)

/-- What FW_ACTIVATE does (R572, R573). -/
def fwActivateBody (slot when_ : Nat) (raiseFloor : Bool) (s : State) : HRes :=
  let (good, version) := s.imageOk slot
  refuseIf [
    (decide (1 < slot) || decide (2 < when_), 0x012B),
    ((s.mgc.flashSlot slot).filling || !good, 0x0405),
    (decide (version < s.floor), 0x0406),
    (raiseFloor && decide (32 ≤ s.mgc.fusesUsed), 0x021A)] <|
  .ok <| s.upMgc fun m => { m with
    activation := slot
    floor := if raiseFloor then some version else m.floor
    fusesUsed := if raiseFloor then m.fusesUsed + 1 else m.fusesUsed
    pendingReset := match when_ with
      | 1 => some { kind := 1, trigger := 4 }
      | 2 => some { kind := 0, trigger := 4 }
      | _ => m.pendingReset }

/-- A reset that FW_ACTIVATE asked for follows its reply. -/
def State.activateNow (s : State) : State :=
  match s.mgc.pendingReset with
  | some r => if r.trigger = 4 then s.takeReset r.kind r.trigger else s
  | none => s

/-- FW_ACTIVATE (R572). -/
def execFwActivate (h : HlyHdr) (slot when_ : Nat) (raiseFloor : Bool) (s : State) : Host.Outcome State Fault Refusal :=
  let t := runHly (.fwActivate h slot when_ raiseFloor) 0x0F02 h 0 0 [] (fwActivateBody slot when_ raiseFloor) s
  ends (if s.acceptable h then t.activateNow else t)

/-! ### Boot (R564 to R567) -/

/-- An image that passes runs (R477, R478, R564): at a boot the lock list and rule set A of the management cores are
installed. -/
def State.imageRuns (s : State) (slot fwVersion : Nat) : State :=
  let img := Config.bootImage slot fwVersion
  let number := fun (l : List MpuRegion) => (List.range l.length).zip l
  let s := if s.mgc.mgmtReset then s else s.upMpu fun u => { u with
    locks := number (img.locks.take 16)
    masters := (List.range 5).foldl (fun (t : Tbl Master) k =>
      t.upd (152 + k) {} fun m => { m with setA := number (img.rulesA.take 64) }) u.masters }
  (s.upMgc fun m => { m with stage := .fwStart }).upHly fun h => { h with fwVersion := fwVersion % 2 ^ 24, fwImage := slot }

/-- IMAGE_CHECK_DONE (R564, R565): the slot that the activation record names first, then the other; with both failed the
firmware stays halted. -/
def execImageCheckDone (slot : Nat) (ok : Bool) (version fwVersion : Nat) (s : State) : Host.Outcome State Fault Refusal :=
  let want := if s.mgc.triedFirst then 1 - s.mgc.activation else s.mgc.activation
  ends (if s.hly.fwState ≠ .booting || slot ≠ want || s.mgc.stage = .fwStart then s
    else
      let pass := ok && decide (s.floor ≤ version)
      let s := s.upFlash slot fun f => { f with ok := some pass, version, fwVersion := fwVersion % 2 ^ 24 }
      if pass then s.imageRuns slot fwVersion
      else if s.mgc.triedFirst then (s.upHly fun h => { h with fwState := .halted }).raise 1152
      else s.upMgc fun m => { m with triedFirst := true, stage := .imageRead })

/-- The boot configuration's mode of a port, where the port takes it (R260, R564). -/
def State.bootPort (s : State) (cfg : Nat → Nat × Nat × Nat) (p : Nat) : State :=
  let (mode, width, rate) := cfg p
  if decide (p ≤ 1) || mode = 0 || !modeTakes mode width rate || (s.port p).mode ≠ 0 || (width = 4 && p % 2 = 1) then s
  else if width = 4 then (s.setMode p mode width rate true).setMode (p + 1) mode width rate false
  else s.setMode p mode width rate false

/-- The repairs of the flash repair record (R533, R565): a bad record is ignored. -/
def State.applyRepairs (s : State) : State :=
  let bad := !Config.repairRecordGood
  (s.upMgc fun m => { m with repairBad := bad }).upFlt fun f => { f with
    spares := if bad then f.spares.filter fun x => x.1 != 3 else f.spares }

/-- The boot configuration applied (R534, R540, R564, R566). -/
def State.applyBoot (s : State) : State :=
  let img := Config.bootImage s.hly.fwImage s.hly.fwVersion
  let s := s.applyRepairs
  let s := (List.range 32).foldl (fun s p => s.bootPort img.ports p) s
  let s := (s.upTtc fun t => { t with programmable := img.programmable }).upMgc fun m => { m with subsystem := img.subsystem }
  let s := s.upIcu fun c => { c with sources := img.icu.foldl (fun (t : Tbl IcuSource) e =>
    t.upd (e.1 % 2048) {} fun x => { x with priority := e.2.1 % 256, mask := e.2.2 }) c.sources }
  (s.upFlt fun f => { f with auto := 127 }).actRecorded

/-- The firmware runs again after a management-complex reset (R560, R573): the commands that it interrupted end with
0x0503, but for those whose replies go to a remote origin. -/
def State.mgmtEnds (s : State) : State :=
  let s := s.abandonAll 0x0503 true
  let again := s.mgc.flrWait
  let s := s.upMgc fun m => { m with mgmtReset := false, flrWait := false }
  if again then s.flr0 else s

/-- BOOT_READY (R566, R567). -/
def execBootReady (s : State) : Host.Outcome State Fault Refusal :=
  ends (if s.hly.fwState ≠ .booting || s.mgc.stage ≠ .fwStart then s
    else
      let s := (s.upMgc fun m => { m with stage := .ready }).upHly fun h => { h with fwState := .running }
      if s.mgc.mgmtReset then s.mgmtEnds else s.applyBoot.emit (.config 0 true))

/-- PERST0_DEASSERTION (R566, R587): the link of port pair 0 starts training, and the test state ends: an instruction that takes
balls from their function is replaced by BYPASS. -/
def execPerst0Deassertion (s : State) : Host.Outcome State Fault Refusal :=
  let s := s.upMgc fun m => { m with perst0 := false, tap := if decide (3 ≤ m.tap) && decide (m.tap ≤ 7) then 0 else m.tap }
  ends (if s.pwr.mode = .barePoles || s.pwr.lost then s else (s.setTrain 0 .sync).setTrain 1 .sync)

/-- The test state holds (R587). -/
def State.testState (s : State) : Bool :=
  s.mgc.perst0 && (List.range 32).all fun p => !s.isNative p || (s.port p).train = .detect || (s.port p).train = .disabled

/-- JTAG_INSTRUCTION_UPDATE (R587): 0 BYPASS, 1 IDCODE, 2 SAMPLE/PRELOAD, 3 EXTEST, 4 CLAMP, 5 HIGHZ, 6 EXTEST_PULSE,
7 EXTEST_TRAIN, 8 DEBUG. -/
def execJtagInstructionUpdate (instruction : Nat) (s : State) : Host.Outcome State Fault Refusal :=
  let asleep := s.pwr.mode = .stormJib || s.pwr.mode = .barePoles || s.pwr.lost
  let takes := decide (3 ≤ instruction) && decide (instruction ≤ 7)
  ends (s.upMgc fun m => { m with
    tap := if asleep || decide (8 < instruction) || (takes && !s.testState) then 0 else instruction })

/-! ### Leaving a fabric (R570) -/

/-- What FABRIC_LEAVE does (R262, R570, R572, R573). -/
def fabricLeaveBody (force : Bool) (s : State) : HRes :=
  let left := !s.adm.contracts.isEmpty || !s.adm.resvs.isEmpty || !s.rte.trees.isEmpty || !s.rdx.groups.isEmpty
  refuseIf [(!force && left, 0x0339), (!s.rte.valid, 0x030B)] <|
  let s := (s.upRte fun r => { r with valid := false }).upMgc fun m => { m with leaving := true }
  .pend (((List.range 32).filter s.isNative).foldl (fun s p => s.upPort p fun x => { x with draining := s.linkUp p }) s)
    (.portMode 32) ((List.range 32).map Obj.port)

/-- FABRIC_LEAVE (R570, R572). -/
def execFabricLeave (h : HlyHdr) (force : Bool) (s : State) : Host.Outcome State Fault Refusal :=
  ends <| runHly (.fabricLeave h force) 0x0F04 h 0 0 [] (fabricLeaveBody force) s

end Sys2Proof.Machine
end

