-- ==== Sys2Proof/Machine/SwitchCmds.lean ====
section
/-!
DEFINITION. The commands and events of the switch core, the output buffer, egress scheduling and the
arbiters (R93 to R152), and of a packet's way through the device (R58 to R68, R163 to R170).
Where the spec leaves a point open: DESIGN CHOICE 22, 135, 140, 141; DEDUCED 25, 125 (notes/assumptions).
-/
namespace Sys2Proof.Machine

/-! ### Output buffer (R106 to R125) -/

/-- A 3-bit two's complement number (R121). -/
def signed3 (v : Nat) : Int := if v < 4 then v else (v : Int) - 8

/-- An account set (R107, R110, R113): cells in use beyond the new minimum reserve count as shared (R123). -/
def Account.set_ (a : Account) (minReserve : Nat) (alpha : Int) (mark : Nat) : Account :=
  { a with minReserve, alphaExp := alpha, markThreshold := mark }

/-- The sum of the minimum reserves once some accounts have a new one. -/
def State.reserveAfter (s : State) (accounts : List Nat) (minReserve : Nat) : Nat :=
  sumOf (List.range 236) fun a => if accounts.contains a then minReserve else (s.account a).minReserve

/-- The cells that an account holds beyond a minimum reserve, which count as shared use (R123). -/
def Account.excess (a : Account) (minReserve : Nat) : Nat := a.fromReserve - minReserve

/-- A new minimum reserve of some accounts can be supplied (R121, R123): what the increases take is free in the shared pool,
or comes back to it from the decreases, whose cells in excess use do not. -/
def State.reserveFits (s : State) (accounts : List Nat) (minReserve : Nat) : Bool :=
  let need := sumOf accounts fun a => minReserve - (s.account a).minReserve
  let back := sumOf accounts fun a =>
    let x := s.account a
    (x.minReserve - minReserve) - (x.excess minReserve - x.excess x.minReserve)
  decide (need ≤ s.sharedFree + back)

/-- What BUFFER_ACCOUNT_SET does (R106, R107, R121, R123). -/
def bufferAccountSetBody (account minReserve alphaExp markThreshold : Nat) (s : State) : HRes :=
  let all := if account = 0x3FF then List.range 236 else [account]
  let after := s.reserveAfter all minReserve
  refuseIf [
    (outside 34 4096 minReserve, 0x010B),
    ((account ≠ 0x3FF && decide (235 < account)) || alphaExp = 4 || decide (7 < alphaExp) || decide (1048575 < markThreshold) ||
      decide (1048576 < after + s.obf.poolSize), 0x010C),
    (!s.reserveFits all minReserve, 0x0205)] <|
  .ok <| all.foldl (fun s a => s.upAccount a fun x => x.set_ minReserve (signed3 alphaExp) markThreshold) s

/-- BUFFER_ACCOUNT_SET (R121). -/
def execBufferAccountSet (h : HlyHdr) (account minReserve alphaExp markThreshold : Nat) (s : State) :
    Host.Outcome State Fault Refusal :=
  ends <| runHly (.bufferAccountSet h account minReserve alphaExp markThreshold) 0x0601 h 0 0 []
    (bufferAccountSetBody account minReserve alphaExp markThreshold) s

/-- What BUFFER_POOL_SET does (R106, R108, R121, R123). -/
def bufferPoolSetBody (contractPool : Nat) (s : State) : HRes :=
  refuseIf [
    (decide (1048575 < contractPool) || decide (1048576 < s.obf.sumReserve + contractPool), 0x010C),
    (decide (s.obf.poolSize + s.sharedFree < contractPool), 0x0205),
    (decide (contractPool < s.poolReserved), 0x0306)] <|
  .ok (s.upObf fun b => { b with poolSize := contractPool })

/-- BUFFER_POOL_SET (R121). -/
def execBufferPoolSet (h : HlyHdr) (contractPool : Nat) (s : State) : Host.Outcome State Fault Refusal :=
  ends <| runHly (.bufferPoolSet h contractPool) 0x0602 h 0 0 [] (bufferPoolSetBody contractPool) s

/-- What AUDIT_SET does (R116, R121, R124). -/
def auditSetBody (enable : Bool) (residencyMs : Nat) (s : State) : HRes :=
  refuseIf [(outside 1 50 residencyMs, 0x010C)] <|
  .ok <| s.upObf fun b => { b with audit := { b.audit with
    enabled := enable, nextResidencyMs := residencyMs
    residencyMs := if enable && !b.audit.enabled then residencyMs else b.audit.residencyMs
    passDone := b.audit.passDone && !(enable && !b.audit.enabled) } }

/-- AUDIT_SET (R121, R124). -/
def execAuditSet (h : HlyHdr) (enable : Bool) (residencyMs : Nat) (s : State) : Host.Outcome State Fault Refusal :=
  ends <| runHly (.auditSet h enable residencyMs) 0x0603 h 0 0 [] (auditSetBody enable residencyMs) s

/-- Orphans reclaimed (R120, R125): a cell whose tag has changed is skipped. The counts are cells reclaimed and skipped. -/
def State.reclaimOrphans (s : State) : (Nat × Nat) × State :=
  s.obf.audit.orphans.foldl (fun r (e : Nat × CellTag) =>
    let same := match r.2.obf.cells.find e.1 with
      | none => false
      | some t => t.owner == e.2.owner && t.epoch == e.2.epoch && t.allocTime == e.2.allocTime
    if same then ((r.1.1 + 1, r.1.2), r.2.upObf fun b => { b with cells := b.cells.del e.1 })
    else ((r.1.1, r.1.2 + 1), r.2)) ((0, 0), s)

/-- A buffered packet has a cell over residency (R116). -/
def State.overAge (s : State) (b : BufPkt) : Bool :=
  b.cells.any fun c => match s.obf.cells.find c with
    | none => false
    | some t => (t.state == .linked || t.state == .reading) && s.stale t.allocTime

/-- Over-residency packets of a queue reclaimed (R119, R120, R125, R224): packets being read and packets not under
transport sequencing are skipped. R122 acts on the cells reported: DESIGN CHOICE 135, mode 1 takes the packets over the residency at the
moment of the command. -/
def State.reclaimQueue (s : State) (queue : Nat) : (Nat × Nat) × State :=
  (s.obf.pkts.filter fun b => b.queue == queue && s.overAge b).foldl (fun r b =>
    let n := b.cells.length
    if b.started || !b.sequenced || isMgmt b.pkt.hdr then ((r.1.1, r.1.2 + n), r.2)
    else
      let before := r.2.oldCount
      let t := (r.2.freePkt b).settleOld before
      let t := if decide (b.input < 32) && t.isNative b.input && decide (b.written < n) && !t.frameOpen b.input b.rxVl b.pkt.pid then
          t.freeFlits b.input b.rxVl b.flits else t
      ((r.1.1 + n, r.1.2), t.transitNak b.pkt.hdr 1)) ((0, 0), s)

/-- What BUFFER_RECLAIM does (R119, R120, R122): the counts in the result, and status 0x0001 when cells were skipped. -/
def bufferReclaimBody (mode queue : Nat) (s : State) : HRes :=
  refuseIf [
    (!s.obf.audit.passDone, 0x0307),
    (decide (2 < mode) || (mode = 1 && decide (0xFFFF ≤ queue)), 0x010C)] <|
  let ((done, skipped), t) := match mode with
    | 0 => s.reclaimOrphans
    | 1 => s.reclaimQueue queue
    | _ => ((s.obf.unlisted.length, 0), s.upObf fun b => { b with unlisted := [] })
  .done (t.upObf fun b => { b with intStatus := setFlag b.intStatus 3 }) (if skipped = 0 then 0 else 0x0001)
    (packBits [(done, 21), (skipped, 21)]) []

/-- BUFFER_RECLAIM (R120, R121, R122). -/
def execBufferReclaim (h : HlyHdr) (mode queue : Nat) (s : State) : Host.Outcome State Fault Refusal :=
  ends <| runHly (.bufferReclaim h mode queue) 0x0604 h 0 0 [] (bufferReclaimBody mode queue) s

/-- The output of BUFFER_QUERY (R595). -/
def State.bufferImage (s : State) (account : Nat) : List Nat :=
  if account = 0x3FF then
    outBytes [(4, s.obf.sumReserve), (4, s.obf.poolSize), (4, s.sharedSize), (4, s.poolReserved)]
  else
    let a := s.account account
    outBytes [(2, a.minReserve), (1, intBits 8 a.alphaExp), (1, 0), (4, a.markThreshold), (4, min a.fromReserve a.minReserve),
      (4, a.sharedUse), (4, s.queuedOn account)]

/-- BUFFER_QUERY (R121, R122, R595). -/
def execBufferQuery (h : HlyHdr) (account : Nat) (s : State) : Host.Outcome State Fault Refusal :=
  ends <| runHly (.bufferQuery h account) 0x0605 h 0 (if account = 0x3FF then 16 else 20) [] (fun s =>
    refuseIf [(account ≠ 0x3FF && decide (235 < account), 0x010C)] (.data s (s.bufferImage account))) s

/-! ### The audit (R116 to R119) -/

/-- A tag is an orphan's (R116). -/
def State.isOrphan (s : State) (t : CellTag) : Bool :=
  t.state != .free &&
    (t.owner == 0xFFFF || !s.queueAssigned t.owner || !s.queueBusy t.owner || t.epoch != s.obf.epochs.get t.owner 0)

/-- The overdue bit that the audit sets on a first cell (R117). -/
def State.auditCell (s : State) (late : List Nat) (c : Nat) (t : CellTag) : CellTag :=
  if late.contains c && (t.state == .linked || t.state == .reading) && s.stale t.allocTime then { t with overdue := true } else t

/-- The first cells of green packets whose late bit is clear and whose deadlines have passed (R117). -/
def State.lateFirsts (s : State) : List Nat :=
  (s.obf.pkts.filter fun b => s.pastDue b.pkt.hdr).filterMap fun b => b.cells.head?

/-- A pass of the audit ends (R116, R117, R119). -/
def State.auditPass (s : State) : State :=
  if !s.obf.audit.enabled then s
  else
    let orphans := s.obf.cells.filter fun e => s.isOrphan e.2
    let aged := (s.obf.cells.filter fun e => (e.2.state == .linked || e.2.state == .reading) && s.stale e.2.allocTime).map (·.1)
    let mismatch := !s.obf.unlisted.isEmpty
    let late := s.lateFirsts
    let s := s.upObf fun b => { b with
      cells := b.cells.map fun e => (e.1, s.auditCell late e.1 e.2)
      audit := { b.audit with passCount := (b.audit.passCount + 1) % 65536, passDone := true, orphans, overResidency := aged, mismatch, residencyMs := b.audit.nextResidencyMs } }
    let flag := fun (c : Bool) (bit src : Nat) (s : State) =>
      if c then (s.upObf fun b => { b with intStatus := setFlag b.intStatus bit }).raise src else s
    flag mismatch 2 386 (flag (!aged.isEmpty) 1 385 (flag (!orphans.isEmpty) 0 384 s))

/-- AUDIT_PASS_END (R116, R117, R119). -/
def execAuditPassEnd (s : State) : Host.Outcome State Fault Refusal := ends s.auditPass

/-! ### Egress (R133 to R150) -/

/-- A shaper changed (R134): its tokens are set when its rate or burst changes. -/
def Shaper.set_ (h : Shaper) (now : Nat) (rateTo burstTo : Option Nat) (resetTo : Option Bool) : Shaper :=
  let h := h.refilled now
  let reset := resetTo.getD h.tokenReset
  let rate := rateTo.getD h.rate
  let burst := burstTo.getD h.burst
  if rate ≠ h.rate || burst ≠ h.burst then
    { rate, burst, tokenReset := reset, tokens := if reset then 0 else (3200000 * burst : Nat), refillAt := now }
  else { h with tokenReset := reset }

/-- A child's weight set: its deficit is cut to the new quantum at its next visit (R150). -/
def Child.setWeight (c : Child) (w : Nat) : Child := { c with weight := w, cut := true }

/-- Weight, rate and burst in range (R132, R133). -/
def shaperBad (cmW cmR cmB : Bool) (weight rate burst : Nat) : Bool :=
  (cmW && outside 1 255 weight) || (cmR && decide (3200000 < rate)) || (cmB && outside 4224 16777216 burst)

/-- What EGS_LEAF_BIND does (R148, R134). -/
def egsLeafBindBody (output sl inst queue weight rate burst : Nat) (tokenReset : Bool) (s : State) : HRes :=
  refuseIf [
    (decide (35 < output) || decide (6 < sl) || decide (1023 < inst) || outside 0x0800 0xFFFE queue ||
      shaperBad true true true weight rate burst, 0x010D),
    (s.egs.leaves.has queue || (s.egs.leaves.any fun l =>
      l.2.output == output && l.2.sl == sl && l.2.inst == inst), 0x0206),
    (!s.enabled inst, 0x0301)] <|
  let shaper : Shaper := { rate, burst, tokenReset, tokens := if tokenReset then 0 else (3200000 * burst : Nat), refillAt := s.coreTime }
  .ok <| s.upEgs fun e => { e with leaves := e.leaves.put queue { output, sl, inst, child := { weight, shaper } } }

/-- EGS_LEAF_BIND (R148). -/
def execEgsLeafBind (h : HlyHdr) (output sl inst queue weight rate burst : Nat) (tokenReset : Bool) (s : State) :
    Host.Outcome State Fault Refusal :=
  ends <| runHly (.egsLeafBind h output sl inst queue weight rate burst tokenReset) 0x0606 h 0 0 [.inst inst, .leaf queue]
    (egsLeafBindBody output sl inst queue weight rate burst tokenReset) s

/-- A leaf that drains is empty: it is unbound (R149, R152). -/
def State.unbindLeaf (s : State) (queue : Nat) : State :=
  s.upEgs fun e => { e with leaves := e.leaves.del queue, intStatus := setFlag e.intStatus 3 }

/-- What EGS_LEAF_UNBIND does (R148, R149). -/
def egsLeafUnbindBody (queue : Nat) (s : State) : HRes :=
  match s.egs.leaves.find queue with
  | none => .refuse (if outside 0x0800 0xFFFE queue then 0x010D else 0x0309)
  | some l =>
    if outside 0x0800 0xFFFE queue then .refuse 0x010D
    else if s.queueBusy queue then
      .pend (s.upEgs fun e => { e with leaves := e.leaves.put queue { l with unbinding := true } }) (.leafUnbind queue) [.leaf queue]
    else .ok (s.unbindLeaf queue)

/-- EGS_LEAF_UNBIND (R148, R149). -/
def execEgsLeafUnbind (h : HlyHdr) (queue : Nat) (s : State) : Host.Outcome State Fault Refusal :=
  ends <| runHly (.egsLeafUnbind h queue) 0x0607 h 0 0 [.leaf queue] (egsLeafUnbindBody queue) s

/-- LEAF_DRAINED (R149): the queue number is free, and the command completes. -/
def execLeafDrained (queue : Nat) (s : State) : Host.Outcome State Fault Refusal :=
  ends (match s.egs.leaves.find queue with
    | none => s
    | some l => if l.unbinding && !s.queueBusy queue then (s.unbindLeaf queue).finishWait (.leafUnbind queue) 0 0 else s)

/-- A node of the yellow hierarchy changed by EGS_NODE_SET (R134, R150). -/
def Child.set_ (c : Child) (now cm weight rate burst : Nat) (tokenReset : Bool) : Child :=
  let c := if cmBit cm 0 then c.setWeight weight else c
  let shaper := c.shaper.set_ now (if cmBit cm 1 then some rate else none) (if cmBit cm 2 then some burst else none)
    (if cmBit cm 3 then some tokenReset else none)
  { c with shaper }

/-- What EGS_NODE_SET does (R136, R148, R150). -/
def egsNodeSetBody (target output sl queue cm weight rate burst : Nat) (tokenReset : Bool) (s : State) : HRes :=
  let now := s.coreTime
  if target = 3 then
    refuseIf [
      (decide (35 < output) || (cmBit cm 1 && decide (8 < rate)), 0x010D),
      (cmBit cm 1 && decide (output < 32) && decide (64 < (s.admPort output).fraction + 1 + rate), 0x0304)] <|
    .ok (if cmBit cm 1 then (s.refillEgress output).upEgress output fun e => { e with unresShare := rate } else s)
  else
    refuseIf [
      (decide (3 < target) || decide (35 < output) || (target = 1 && decide (6 < sl)) ||
        (target = 0 && outside 0x0800 0xFFFE queue) || shaperBad (cmBit cm 0) (cmBit cm 1) (cmBit cm 2) weight rate burst, 0x010D),
      (target = 0 && !s.egs.leaves.has queue, 0x0309)] <|
    .ok <| s.upEgs fun e =>
      match target with
      | 0 => match e.leaves.find queue with
        | none => e
        | some l => { e with leaves := e.leaves.put queue { l with child := l.child.set_ now cm weight rate burst tokenReset } }
      | 1 => { e with svc := e.svc.upd (7 * output + sl) {} fun c => c.set_ now cm weight rate burst tokenReset }
      | _ => { e with port := e.port.upd output {} fun c => c.set_ now cm weight rate burst tokenReset }

/-- EGS_NODE_SET (R148). -/
def execEgsNodeSet (h : HlyHdr) (target output sl queue cm weight rate burst : Nat) (tokenReset : Bool) (s : State) :
    Host.Outcome State Fault Refusal :=
  ends <| runHly (.egsNodeSet h target output sl queue cm weight rate burst tokenReset) 0x0608 h 0 0
    (if target = 0 then [.leaf queue] else []) (egsNodeSetBody target output sl queue cm weight rate burst tokenReset) s

/-- Tokens in whole bytes, two's complement (R595). R149 does not say how a part of a byte is shown: DESIGN CHOICE 141, it is
rounded down. -/
def tokenBytes (t : Int) : Nat := intBits 32 (t / 3200000)

/-- The output of EGS_QUERY for a node (R595). -/
def nodeImage (c : Child) (now queued resume : Nat) : List Nat :=
  let h := c.shaper.refilled now
  outBytes [(1, c.weight), (3, 0), (4, intBits 32 c.deficit), (4, h.rate), (4, h.burst), (4, tokenBytes h.tokens), (4, queued),
    (1, resume), (3, 0)]

/-- Cells queued by the packets that a test picks. -/
def State.cellsWhere (s : State) (p : BufPkt → Bool) : Nat := sumOf (s.obf.pkts.filter p) fun b => b.cells.length

/-- The resume slots of an output that hold a frame, one bit per VL (R152). -/
def State.resumeHeld (s : State) (o : Nat) : Nat := sumOf (List.range 7) fun v => if s.slotHeld o v then 2 ^ v else 0

/-- What EGS_QUERY does (R148, R149, R595). For the unreserved-green shaper R149 does not say what is queued at the node and
below it: DESIGN CHOICE 140, the cells of the output's unreserved green packets. -/
def egsQueryBody (target output sl queue : Nat) (s : State) : HRes :=
  let now := s.coreTime
  refuseIf [
    (decide (3 < target) || decide (35 < output) || (target = 1 && decide (6 < sl)) ||
      (target = 0 && outside 0x0800 0xFFFE queue), 0x010D),
    (target = 0 && !s.egs.leaves.has queue, 0x0309)] <|
  match target with
  | 0 => .data s (nodeImage (((s.egs.leaves.find queue).map (·.child)).getD {}) now (s.cellsWhere fun b => b.queue == queue) 0)
  | 1 => .data s (nodeImage (s.egs.svc.get (7 * output + sl) {}) now
      (s.cellsWhere fun b => b.output == output && isYellow b.pkt.hdr && b.pkt.hdr.sl == sl) 0)
  | 2 => .data s (nodeImage (s.egs.port.get output {}) now
      (s.cellsWhere fun b => b.output == output && isYellow b.pkt.hdr) (s.resumeHeld output))
  | _ =>
    let t := s.refillEgress output
    .data s (outBytes [(4, 0), (4, 0), (4, (s.egress output).unresShare), (4, 4224), (4, tokenBytes (t.egress output).unresTokens),
      (4, s.cellsWhere fun b => b.output == output && b.unreserved), (4, 0)])

/-- EGS_QUERY (R148, R595). -/
def execEgsQuery (h : HlyHdr) (target output sl queue : Nat) (s : State) : Host.Outcome State Fault Refusal :=
  ends <| runHly (.egsQuery h target output sl queue) 0x0609 h 0 28 [] (egsQueryBody target output sl queue) s

/-! ### Arbiters (R142 to R148) -/

/-- Arbiters of a resource (R142). -/
def arbCount (resource : Nat) : Nat :=
  match resource with
  | 0 => 36
  | 1 => 64
  | 2 => 33
  | _ => 32

/-- Requesters of a resource (R142). -/
def arbRequesters (resource : Nat) : Nat :=
  match resource with
  | 0 => 10
  | 1 => 24
  | 2 => 5
  | _ => 11

/-- An arbiter. -/
def State.arbiter (s : State) (resource index : Nat) : Arb := s.arbs.arb.get (256 * resource + index) {}

/-- The state with an arbiter changed. -/
def State.upArb (s : State) (resource index : Nat) (f : Arb → Arb) : State :=
  s.upArbs fun a => { a with arb := a.arb.upd (256 * resource + index) {} f }

/-- A hop reservation or contract that lists the port was accepted with the control figure (R78, R146). -/
def State.controlFigure (s : State) (p : Nat) : Bool :=
  s.adm.contracts.any (fun c => c.2.control.testBit p) || s.adm.resvs.any fun r => r.2.control.testBit p

/-- What ARB_SET does (R142, R143, R145 to R148). -/
def arbSetBody (resource index cm : Nat) (compat : Bool) (thresholdExp requester weight : Nat) (s : State) : HRes :=
  let idx := if index = 0xFF then List.range (arbCount resource) else [index]
  refuseIf [
    (decide (3 < resource) || (index ≠ 0xFF && decide (arbCount resource ≤ index)) || (cmBit cm 1 && outside 10 24 thresholdExp) ||
      (cmBit cm 2 && (outside 1 255 weight || decide (arbRequesters resource ≤ requester))), 0x010E),
    (resource = 0 && cmBit cm 0 && compat && idx.any (fun p => !(s.arbiter 0 p).compat && s.controlFigure p), 0x0308)] <|
  .ok <| idx.foldl (fun s i => s.upArb resource i fun a => { a with
    compat := pick cm 0 compat a.compat
    thresholdExp := pick cm 1 thresholdExp a.thresholdExp
    weights := if cmBit cm 2 then a.weights.put requester weight else a.weights }) s

/-- ARB_SET (R148). -/
def execArbSet (h : HlyHdr) (resource index cm : Nat) (compat : Bool) (thresholdExp requester weight : Nat) (s : State) :
    Host.Outcome State Fault Refusal :=
  ends <| runHly (.arbSet h resource index cm compat thresholdExp requester weight) 0x060A h 0 0 []
    (arbSetBody resource index cm compat thresholdExp requester weight) s

/-- The requester of an output's arbiter that a packet stands for (R142). -/
def requesterOf (h : Hdr) : Nat := if isMgmt h then 0 else if isGreen h then 1 else 3 + h.sl

/-- The requester that holds an arbiter's grant (R142, R143): at an output, the class of the frame being sent, or background. -/
def State.arbOwner (s : State) (resource index : Nat) : Option Nat :=
  if resource = 0 then
    if (s.egress index).backSending.isSome then some 2 else (s.sendingPkt index).map fun b => requesterOf b.pkt.hdr
  else (s.arbiter resource index).owner

/-- PREFIX_ARB_CFG (R152). -/
def State.arbCfg (s : State) (resource index : Nat) : Nat :=
  let a := s.arbiter resource index
  let owner := s.arbOwner resource index
  packBits [(b2n a.compat, 1), (a.thresholdExp, 5), (owner.getD 0, 5), (b2n owner.isSome, 1)]

/-- The output of ARB_QUERY: the arbiter's two registers and the weights of its requesters (R148, R594). -/
def State.arbImage (s : State) (resource index : Nat) : List Nat :=
  let a := s.arbiter resource index
  outBytes ([(4, s.arbCfg resource index), (4, a.starved.toNat)] ++ (List.range 24).map fun r =>
    (1, if r < arbRequesters resource then a.weights.get r 16 else 0))

/-- ARB_QUERY (R148). -/
def execArbQuery (h : HlyHdr) (resource index : Nat) (s : State) : Host.Outcome State Fault Refusal :=
  ends <| runHly (.arbQuery h resource index) 0x060B h 0 32 [] (fun s =>
    refuseIf [(decide (3 < resource) || decide (arbCount resource ≤ index), 0x010E)] (.data s (s.arbImage resource index))) s

/-- The block of a resource's arbiters (R142). -/
def arbBlock (resource : Nat) : Nat :=
  match resource with
  | 0 => 8
  | 1 => 13
  | 2 => 12
  | _ => 14

/-- A requester's wait counter has reached its arbiter's threshold (R147): its bit is set, and the event is counted. -/
def State.starve (s : State) (resource index requester : Nat) : State :=
  (s.upArb resource index fun a => { a with starved := setFlag a.starved requester, reached := addOnce a.reached requester }).tally
    (evt (arbBlock resource) (128 + index))

/-- A requester holds the grant (R143, R147): its wait counter is cleared. At an output the grant is the frame being sent. -/
def Arb.grant (a : Arb) (resource requester : Nat) : Arb :=
  { a with
    owner := if resource = 0 then none else some requester
    preempted := a.preempted.filter (· ≠ requester), waits := a.waits.del requester, reached := a.reached.filter (· ≠ requester) }

/-- ARB_STARVE_THRESHOLD (R147, R151): the requester's bit is set, also in the cycle in which it is granted; the grant
then clears its wait counter. -/
def execArbStarveThreshold (resource index requester : Nat) (grantedNow : Bool) (s : State) : Host.Outcome State Fault Refusal :=
  ends (if decide (3 < resource) || decide (arbCount resource ≤ index) || decide (arbRequesters resource ≤ requester) then s
    else
      let t := s.starve resource index requester
      if grantedNow then t.upArb resource index fun a => a.grant resource requester else t)

/-! ### A packet's way through the device -/

/-- A packet that enters at a local input or from a host link is policed here, at its source (R28, R58 to R68). -/
def State.enterSource (s : State) (input : Nat) (p : Packet) (length : Nat) (preYellow first : Bool) : State :=
  match s.police p.hdr length first preYellow with
  | (.send h _, s) => s.inject { p with hdr := h } length input false none
  | (.refuse reason retry, s) => s.emit (.refused p.pid p.hdr.inst reason retry)
  | (.wait, s) => s.edgeWait p length input preYellow

/-- PACKET_INGRESS (R163): from a native or downstream link the packet is looked up; elsewhere this device is its source.
In storm jib the packet wakes the device, and is taken once forwarding has resumed (R42). -/
def execPacketIngress (input : Nat) (p : Packet) (length rxVl : Nat) (preYellow firstOfOp : Bool) (s : State) :
    Host.Outcome State Fault Refusal :=
  let s := if input < 32 then s.wake else s
  ends (if decide (35 < input) || !s.forwarding then s
    else if decide (input < 32) && !s.isHostLink input then s.arrive input p length rxVl (flitsOf length)
    else s.enterSource input p length preYellow firstOfOp)

/-- ROUTE_RETRY (R168). -/
def execRouteRetry (pid : Nat) (s : State) : Host.Outcome State Fault Refusal :=
  ends (if s.forwarding then s.retryRoute pid else s)

/-- BUFFER_ADMISSION (R110). -/
def execBufferAdmission (pid : Nat) (s : State) : Host.Outcome State Fault Refusal :=
  ends (if s.forwarding then s.offer pid else s)

/-- EGRESS_SELECT (R128). -/
def execEgressSelect (output : Nat) (s : State) : Host.Outcome State Fault Refusal :=
  ends (if s.forwarding && decide (output ≤ 35) then s.selectOut output else s)

/-- FRAME_PREEMPT (R138). -/
def execFramePreempt (output pid progress : Nat) (s : State) : Host.Outcome State Fault Refusal :=
  ends (if s.forwarding && decide (output ≤ 35) then s.cutFrame output pid progress else s)

/-- SUSPENDED_FRAME_RESUME (R104). -/
def execSuspendedFrameResume (output vl : Nat) (s : State) : Host.Outcome State Fault Refusal :=
  ends (match (s.egress output).resume.find vl with
    | none => s
    | some r => if s.forwarding && (s.egress output).sending.isNone && s.canResume output r then s.resumeSend output vl else s)

/-- CENTRAL_SCHEDULER_MATCHING (R96, R98 to R102): one core cycle of the scheduler, with the packets of which a first cell,
or a next cell, comes to the staging buffers in it. -/
def execCentralSchedulerMatching (stagedFirst stagedNext : List Nat) (s : State) : Host.Outcome State Fault Refusal :=
  ends (if !s.forwarding then s
    else
      let s := s.stageCells (stagedFirst ++ stagedNext)
      let a := s.computeMatching s.csc.b.pairs s.csc.a
      let b := s.computeMatching a.pairs s.csc.b
      let gone := ((s.csc.a.pairs ++ s.csc.b.pairs).filter fun q => !(a.pairs ++ b.pairs).contains q).map (·.pid)
      let s := s.crossPairs (a.pairs ++ b.pairs)
      s.upCsc fun c => { c with
        a := { a with pairs := s.keepPairs a.pairs }, b := { b with pairs := s.keepPairs b.pairs }
        broken := (gone.foldl addOnce c.broken).filter fun p => s.obf.pkts.any fun x => x.pkt.pid == p })

/-- A packet that waits at its source for peak tokens is judged again (R64). -/
def State.releaseEdge (s : State) (pid : Nat) : State :=
  match takeFirst (fun (w : WaitPkt) => w.pkt.pid == pid && w.edgeWait) s.obf.waiting with
  | some (w, rest) =>
    match s.police w.pkt.hdr w.len false w.preYellow with
    | (.send h _, s) =>
      ((s.upObf fun b => { b with waiting := rest }).endWait h.inst w.waitFrom).inject { w.pkt with hdr := h } w.len w.input false none
    | (_, s) => s
  | none =>
    match s.trn.sends.find? fun c => (c.queue.head?).any fun p => p.pkt.pid == pid with
    | none => s
    | some c => s.pumpAll c.key

/-- EDGE_WAIT_RELEASE (R64). -/
def execEdgeWaitRelease (pid : Nat) (s : State) : Host.Outcome State Fault Refusal := ends (s.releaseEdge pid)

end Sys2Proof.Machine
end

