-- ==== Sys2Proof/Machine/AdmCmds.lean ====
section
/-!
DEFINITION. The commands of contracts, hop reservations, meters and port fractions (R46 to R91, R458), with
the hop budget of R76.
Where the spec leaves a point open: DESIGN CHOICE 134; DEDUCED 35, 36, 37, 38 (notes/assumptions).
-/
namespace Sys2Proof.Machine

/-! ### The hop budget (R76 to R78) -/

/-- The averaged one-way delay of a port's link in 1/16 ns (FTU_LINK_DELAY, R70, R92): 0 until 16 exchanges have
completed, and at a port that is not native. The spec does not state how the average is rounded: it is rounded down to whole
units (DESIGN CHOICE 134). -/
def State.linkDelay (s : State) (p : Nat) : Nat :=
  let d := (s.ftu.ports.get p {}).delays
  if d.length < 16 || !s.isNative p then 0
  else ((d.foldl (fun (a : Int) x => a + x) 0) / 32).toNat

/-- A port's rate as a budget takes it (R77): a reefed-safe budget takes no more than 1.6 Tb/s. -/
def budgetRate (reefed : Bool) (mbps : Nat) : Nat := if reefed then min mbps 1600000 else mbps

/-- The cut-through latency in ns by the slower port's rate (R77). -/
def cutThrough (control reefed : Bool) (mbps : Nat) : Nat :=
  (if control then 160 else 190) + 15 * (3200000 / mbps - 1) + (if reefed then if control then 57 else 74 else 0)

/-- The worst preemption wait in ns at an egress port's rate (R78). -/
def preemptWait (control : Bool) (mbps : Nat) : Nat := ceilDiv ((if control then 5120 else 37888) * 1000) mbps

/-- What the ingress adds to the cut-through term, as a fraction of ns: numerator and denominator (R76). -/
abbrev Extra := Nat × Nat

/-- The control figure of R78 applies on an egress port: packets of 64 bytes, on an arbiter that is not in compatibility mode
(R146). -/
def State.controlAt (s : State) (maxPacket p : Nat) : Bool := decide (maxPacket = 64) && !(s.arbiter 0 p).compat

/-- The ports of a bitmap on which the control figure applies. -/
def State.controlPorts (s : State) (maxPacket bitmap : Nat) : Nat :=
  ((List.range 32).filter fun p => lists bitmap p && s.controlAt maxPacket p).foldl (fun m p => m + 2 ^ p) 0

/-- The hop budget of one egress port in ns (R76): the slower of the two rates, the ingress's addition. -/
def State.portBudget (s : State) (ingress : Nat) (extra : Extra) (control reefed replay : Bool) (burst committed p : Nat) : Nat :=
  let rate := budgetRate reefed (s.judgedMbps p)
  let delay := s.linkDelay p
  let base := cutThrough control reefed (min (budgetRate reefed ingress) rate)
  let tCt := ceilDiv ((16 * base + delay) * extra.2 + 16 * extra.1) (16 * extra.2)
  let tRep := if replay then ceilDiv (16 * (250 * (s.lport p).timeout + 96) + 2 * delay) 16 else 0
  tCt + preemptWait (control && !(s.arbiter 0 p).compat) rate + ceilDiv (burst * 8 * 1000) committed + tRep

/-- The largest of some numbers. -/
def maxOf (l : List Nat) : Nat := l.foldl max 0

/-- The slowest native port of kind local or global, which a reservation takes as its ingress (R76): 3.2 Tb/s when
no such port has trained. -/
def State.slowestNative (s : State) : Nat :=
  let rates := ((List.range 32).filter fun p => s.isNative p && ((s.rport p).kind = 1 || (s.rport p).kind = 2)).map s.judgedMbps
  (rates.filter (· ≠ 0)).foldl min 3200000

/-- The ports of a bitmap. -/
def portsOf (bitmap : Nat) : List Nat := (List.range 32).filter (lists bitmap)

/-- What a host link adds at the source device (R76): 120 ns, and on a link slower than 1,024 Gb/s the receipt of the
packet. -/
def State.hostExtra (s : State) (inst maxPacket : Nat) : Extra :=
  let rate := s.judgedMbps (s.leadPort (s.instance_ inst).port)
  if rate = 0 then (120 + Config.hostReceiveNs maxPacket, 1)
  else if rate < 1024000 then (120 * rate + maxPacket * 8 * 1000, rate)
  else (120, 1)

/-- The source device's own hop budget for a contract (R50, R53, R76). -/
def State.contractBudget (s : State) (c : ContractP) : Nat :=
  let extra := if c.hostStore then s.hostExtra c.inst c.maxPacket else (0, 1)
  maxOf <| (portsOf c.egressPorts).map <|
    s.portBudget 3200000 extra (c.maxPacket = 64) c.reefedSafe c.replayAllowance c.burst c.committed

/-- The hop budget of a reservation (R50, R76): a destination has the cut-through term of its ingress alone. -/
def State.resvBudget (s : State) (r : ResvP) : Nat :=
  if r.destination then cutThrough (r.maxPacket = 64) r.reefedSafe (budgetRate r.reefedSafe s.slowestNative)
  else maxOf <| (portsOf r.egressPorts).map <|
    s.portBudget s.slowestNative (0, 1) (r.maxPacket = 64) r.reefedSafe r.replayAllowance r.burst r.committed

/-! ### The checks of R54 -/

/-- The slowest rate of the listed ports as check 2 judges them; a port that is not native has rate 0 (R54). -/
def State.slowestListed (s : State) (bitmap : Nat) : Nat :=
  ((portsOf bitmap).map fun p => if s.isNative p then s.judgedMbps p else 0).foldl min 3200000

/-- The device IDs of a destination set meet those of another (R54, check 4): unused slots of a list are 0xFFFF. -/
def destMeet (a b : ContractP) : Bool :=
  let tree := fun (c : ContractP) => c.destType = 2
  let ids := fun (c : ContractP) => if c.destType = 3 then c.dest.filter (· ≠ 0xFFFF) else c.dest
  if tree a || tree b then tree a && tree b && a.dest == b.dest
  else match a.destType, b.destType with
    | 1, 1 => a.dest == b.dest
    | 1, _ => (ids b).any fun d => a.dest == [d / 64]
    | _, 1 => (ids a).any fun d => b.dest == [d / 64]
    | _, _ => (ids a).any fun d => (ids b).contains d

/-- The pool cells of one listed port (R108). -/
def portShare (burst : Nat) : Nat := ceilDiv burst 256 + 17

/-- Check 9 on every listed port, with `own` already reserved there by the contract itself (R54, R88). -/
def State.rateFits (s : State) (bitmap committed own : Nat) : Bool :=
  (portsOf bitmap).all fun p => s.fits p (s.reservedOn p - own + committed) (s.judgedMbps p)

/-- Check 10 (R54, R108): the pool has room for `share` cells in place of `own`. -/
def State.poolFits (s : State) (share own : Nat) : Bool := decide (s.poolReserved - own + share ≤ s.obf.poolSize)

/-- The round trip of R81 is within the replay timeout of every listed port. -/
def State.tripFits (s : State) (bitmap : Nat) : Bool :=
  (portsOf bitmap).all fun p => decide (2 * s.linkDelay p + 16 * 96 ≤ 16 * 250 * (s.lport p).timeout)

/-- Check 2 of a contract (R54). -/
def State.contractRates (s : State) (c : ContractP) : Bool :=
  decide (1 ≤ c.committed) && !(portsOf c.egressPorts).isEmpty && decide (c.committed ≤ c.peak) &&
    decide (c.peak ≤ s.slowestListed c.egressPorts)

/-- Check 2 of a reservation (R54). -/
def State.resvRates (s : State) (r : ResvP) : Bool :=
  decide (1 ≤ r.committed) &&
    (if r.destination then (portsOf r.egressPorts).isEmpty
     else !(portsOf r.egressPorts).isEmpty && decide (r.committed ≤ s.slowestListed r.egressPorts))

/-- What CONTRACT_INSTALL does (R48, R50, R54, R81, R108): both buckets start full (R59). -/
def contractInstallBody (c : ContractP) (s : State) : HRes :=
  let budget := s.contractBudget c
  let share := portShare c.burst * (portsOf c.egressPorts).length
  refuseIf [
    (decide (6 < c.sl), 0x0101),
    (!s.contractRates c, 0x0102),
    (outside 64 4160 c.maxPacket, 0x0103),
    (s.adm.contracts.any fun e => e.2.p.inst == c.inst && e.2.p.sl == c.sl && destMeet e.2.p c, 0x0104),
    (outside 1000 10000000 c.bound, 0x0105),
    (outside c.maxPacket 16777216 c.burst, 0x0106),
    (!s.tripFits c.egressPorts, 0x010A),
    (!s.enabled c.inst, 0x0301),
    (decide (16383 < c.contractId) || s.adm.contracts.has c.contractId, 0x0201),
    (!s.rateFits c.egressPorts c.committed 0, 0x0203),
    (!s.poolFits share 0, 0x0204),
    (decide (c.bound < budget + c.remoteBudget), 0x0107)] <|
  .ok <| s.upAdm fun a => { a with contracts := a.contracts.put c.contractId {
    p := c, tc := tok c.burst, tp := tok (2 * c.maxPacket), refillAt := s.coreTime, hopBudget := budget, share
    control := s.controlPorts c.maxPacket c.egressPorts } }

/-- CONTRACT_INSTALL (R48, R54). -/
def execContractInstall (h : HlyHdr) (c : ContractP) (s : State) : Host.Outcome State Fault Refusal :=
  ends <| runHly (.contractInstall h c) 0x0501 h 0 0 [.contract c.contractId] (contractInstallBody c) s

/-- The released or changed rates of some ports judged (R56). -/
def State.settlePorts (s : State) (bitmap : Nat) : State := (portsOf bitmap).foldl State.settleReleased s

/-- What CONTRACT_MODIFY does (R88): the seven changeable fields have bits 0 to 6 of the change mask. -/
def contractModifyBody (contractId cm committed peak burst : Nat) (aware : Bool) (bound lateThreshold remoteBudget : Nat)
    (s : State) : HRes :=
  match s.adm.contracts.find contractId with
  | none => .refuse 0x030E
  | some c =>
    let p := { c.p with
      committed := pick cm 0 committed c.p.committed, peak := pick cm 1 peak c.p.peak, burst := pick cm 2 burst c.p.burst
      aware := pick cm 3 aware c.p.aware, bound := pick cm 4 bound c.p.bound
      lateThreshold := pick cm 5 lateThreshold c.p.lateThreshold, remoteBudget := pick cm 6 remoteBudget c.p.remoteBudget }
    let cost := cmBit cm 0 || cmBit cm 2
    let budget := if cost then s.contractBudget p else c.hopBudget
    let share := portShare p.burst * (portsOf p.egressPorts).length
    refuseIf [
      ((cmBit cm 0 || cmBit cm 1) && !s.contractRates p, 0x0102),
      (cmBit cm 4 && outside 1000 10000000 p.bound, 0x0105),
      (cmBit cm 2 && outside p.maxPacket 16777216 p.burst, 0x0106),
      (cmBit cm 0 && !s.rateFits p.egressPorts p.committed c.p.committed, 0x0203),
      (cmBit cm 2 && !s.poolFits share c.share, 0x0204),
      ((cost || cmBit cm 4 || cmBit cm 6) && decide (p.bound < budget + p.remoteBudget), 0x0107)] <|
    let r := c.refilled s.coreTime
    let new := { r with p, hopBudget := budget, share, control := if cost then s.controlPorts p.maxPacket p.egressPorts else c.control, tc := min r.tc (tok p.burst) }
    .ok <| (s.upAdm fun a => { a with contracts := a.contracts.put contractId new }).settlePorts p.egressPorts

/-- CONTRACT_MODIFY (R88, R458). -/
def execContractModify (h : HlyHdr) (contractId cm committed peak burst : Nat) (aware : Bool)
    (bound lateThreshold remoteBudget : Nat) (s : State) : Host.Outcome State Fault Refusal :=
  ends <| runHly (.contractModify h contractId cm committed peak burst aware bound lateThreshold remoteBudget) 0x0502 h 0 0
    [.contract contractId] (contractModifyBody contractId cm committed peak burst aware bound lateThreshold remoteBudget) s

/-- What CONTRACT_REMOVE does (R88, R125): cells that it still holds count as shared until freed. -/
def contractRemoveBody (contractId : Nat) (s : State) : HRes :=
  match s.adm.contracts.find contractId with
  | none => .refuse 0x030E
  | some c =>
    .ok <| ((s.strand (.contract contractId)).upAdm fun a => { a with
      contracts := a.contracts.del contractId }).settlePorts c.p.egressPorts

/-- CONTRACT_REMOVE (R88, R458). -/
def execContractRemove (h : HlyHdr) (contractId : Nat) (s : State) : Host.Outcome State Fault Refusal :=
  ends <| runHly (.contractRemove h contractId) 0x0503 h 0 0 [.contract contractId] (contractRemoveBody contractId) s

/-- The dest_value of a contract (R48): a list's unused slots are 0xFFFF. -/
def destValue (c : ContractP) : Nat :=
  if c.destType = 3 then packBits ((List.range 8).map fun i => (c.dest.getD i 0xFFFF, 16)) else c.dest.head?.getD 0

/-- The fields of R48 packed at their widths. -/
def contractPacked (c : ContractP) : Nat :=
  packBits [(c.contractId, 14), (c.inst, 10), (c.sl, 3), (b2n c.aware, 1), (c.destType, 2), (destValue c, 128),
    (c.committed, 22), (c.peak, 22), (c.burst, 25), (c.maxPacket, 13), (c.bound, 24), (b2n c.replayAllowance, 1),
    (c.lateThreshold, 16), (c.egressPorts, 32), (b2n c.reefedSafe, 1), (c.remoteBudget, 24), (b2n c.hostStore, 1)]

/-- The output of CONTRACT_QUERY, 68 bytes (R595). -/
def contractImage (c : Contract) : List Nat :=
  outBytes [(48, contractPacked c.p), (4, c.tc / 3200000), (4, c.tp / 3200000), (2, c.miss), (6, c.missTotal),
    (4, c.hopBudget % 2 ^ 24)]

/-- CONTRACT_QUERY (R458, R595). -/
def execContractQuery (h : HlyHdr) (contractId : Nat) (s : State) : Host.Outcome State Fault Refusal :=
  ends <| runHly (.contractQuery h contractId) 0x0504 h 0 68 [.contract contractId] (fun s =>
    match s.adm.contracts.find contractId with
    | none => .refuse 0x030E
    | some c => .data s (contractImage (c.refilled s.coreTime))) s

/-! ### Hop reservations (R49, R88) -/

/-- Every engine-cluster domain is wanted, as a destination reservation pins them (R514, R517). -/
def State.wantAll (s : State) : State := (List.range 16).foldl State.wantDomain s

/-- What HOP_RESERVE does (R49, R50, R54, R81, R108, R517): the result is the hop budget. -/
def hopReserveBody (r : ResvP) (s : State) : HRes :=
  let budget := s.resvBudget r
  let share := portShare r.burst * (if r.destination then 1 else (portsOf r.egressPorts).length)
  refuseIf [
    (decide (6 < r.sl), 0x0101),
    (!s.resvRates r, 0x0102),
    (outside 64 4160 r.maxPacket, 0x0103),
    (outside r.maxPacket 16777216 r.burst, 0x0106),
    (!s.tripFits r.egressPorts, 0x010A),
    (decide (32767 < r.resvId) || s.adm.resvs.has r.resvId, 0x0202),
    (!s.rateFits r.egressPorts r.committed 0, 0x0203),
    (!s.poolFits share 0, 0x0204)] <|
  let t := s.upAdm fun a => { a with resvs := a.resvs.put r.resvId {
    p := r, hopBudget := budget, share, control := s.controlPorts r.maxPacket r.egressPorts } }
  if !r.destination || (List.range 16).all (fun d => (t.domain d).state = .on) then .done t 0 (budget % 2 ^ 24) []
  else .pend t.wantAll (.domainsOn r.resvId (budget % 2 ^ 24)) [.resv r.resvId]

/-- HOP_RESERVE (R49, R54). -/
def execHopReserve (h : HlyHdr) (r : ResvP) (s : State) : Host.Outcome State Fault Refusal :=
  ends <| runHly (.hopReserve h r) 0x0505 h 0 0 [.resv r.resvId] (hopReserveBody r) s

/-- A reservation is released (R88, R125). -/
def State.releaseResv (s : State) (resvId : Nat) (r : Resv) : State :=
  ((s.strand (.resv resvId)).upAdm fun a => { a with resvs := a.resvs.del resvId }).settlePorts r.p.egressPorts

/-- What HOP_RELEASE does (R88). -/
def hopReleaseBody (resvId : Nat) (s : State) : HRes :=
  match s.adm.resvs.find resvId with
  | none => .refuse 0x0302
  | some r =>
    if r.used = 0 then .ok (s.releaseResv resvId r)
    else .pend (s.upAdm fun a => { a with resvs := a.resvs.put resvId { r with releasing := true } }) (.hopRelease resvId) [.resv resvId]

/-- HOP_RELEASE (R88, R458). -/
def execHopRelease (h : HlyHdr) (resvId : Nat) (s : State) : Host.Outcome State Fault Refusal :=
  ends <| runHly (.hopRelease h resvId) 0x0506 h 0 0 [.resv resvId] (hopReleaseBody resvId) s

/-- HOP_RELEASE_DRAINED (R88). -/
def execHopReleaseDrained (resvId : Nat) (s : State) : Host.Outcome State Fault Refusal :=
  ends (match s.adm.resvs.find resvId with
    | none => s
    | some r =>
      if r.releasing && r.used = 0 then (s.releaseResv resvId r).finishWait (.hopRelease resvId) 0 0 else s)

/-- HOP_RELEASE_TIMEOUT (R88, R125). -/
def execHopReleaseTimeout (resvId : Nat) (s : State) : Host.Outcome State Fault Refusal :=
  ends (match s.adm.resvs.find resvId with
    | none => s
    | some r =>
      if r.releasing && r.used ≠ 0 then (s.releaseResv resvId r).finishWait (.hopRelease resvId) 0x0601 0 else s)

/-! ### Meters and fractions -/

/-- What METER_SET does (R67, R458): an unmetered meter that becomes metered starts with full buckets. -/
def meterSetBody (inst committed peak committedBurst peakBurst : Nat) (s : State) : HRes :=
  refuseIf [
    (peak ≠ 0 && decide (peak < committed), 0x0102),
    (outside 64 16777216 committedBurst || outside 64 16777216 peakBurst, 0x0106),
    (!s.enabled inst, 0x0301)] <|
  let m := (s.adm.meters.get inst {}).refilled s.coreTime
  let full := decide (m.peak = 0)
  let tc := if full then tok committedBurst else min m.tc (tok committedBurst)
  let tp := if full then tok peakBurst else min m.tp (tok peakBurst)
  .ok <| s.upAdm fun a => { a with meters := a.meters.put inst {
    committed, peak, committedBurst, peakBurst, tc, tp, refillAt := s.coreTime } }

/-- METER_SET (R67, R458). -/
def execMeterSet (h : HlyHdr) (inst committed peak committedBurst peakBurst : Nat) (s : State) :
    Host.Outcome State Fault Refusal :=
  ends <| runHly (.meterSet h inst committed peak committedBurst peakBurst) 0x0507 h 0 0 [.inst inst]
    (meterSetBody inst committed peak committedBurst peakBurst) s

/-- What PORT_RESERVE_SET does (R55, R136). -/
def portReserveSetBody (port fraction : Nat) (s : State) : HRes :=
  refuseIf [
    (decide (56 < fraction) || decide (31 < port), 0x0108),
    (decide (fraction * s.judgedMbps port < 64 * s.reservedOn port) ||
      decide (64 < fraction + 1 + (s.egress port).unresShare), 0x0304)] <|
  .ok <| (s.upAdm fun a => { a with ports := a.ports.upd port {} fun x => { x with fraction } }).settleReleased port

/-- PORT_RESERVE_SET (R55, R458). -/
def execPortReserveSet (h : HlyHdr) (port fraction : Nat) (s : State) : Host.Outcome State Fault Refusal :=
  ends <| runHly (.portReserveSet h port fraction) 0x0508 h 0 0 [.port port] (portReserveSetBody port fraction) s

end Sys2Proof.Machine
end

