-- ==== Sys2Proof/Machine/RouteCmds.lean ====
section
/-!
DEFINITION. The commands and events of routing, multicast trees, discovery and device IDs (R159 to R196).
Where the spec leaves a point open: DESIGN CHOICE 151; DEDUCED 28, 31, 32, 33, 125, 128, 149, 150, 152 (notes/assumptions).
-/
namespace Sys2Proof.Machine

/-! ### Route tables (R161, R172 to R177) -/

/-- The state with a bank changed: its state and tag are the same in every tile (R161). -/
def State.upBank (s : State) (b : Nat) (f : Bank → Bank) : State :=
  s.upRte fun r => if b = 0 then { r with bank0 := f r.bank0 } else { r with bank1 := f r.bank1 }

/-- The bank that is not active. -/
def State.inactiveBank (s : State) : Nat := 1 - s.activeBank

/-- The state with the tables of a tile's bank changed (R161). -/
def State.upTables (s : State) (tile b : Nat) (f : RouteTables → RouteTables) : State :=
  s.upRte fun r => { r with tables := r.tables.upd (2 * tile + b) {} f }

/-- Masks written to a table from an index upwards. -/
def writeMasks (t : Tbl Word) (first : Nat) : List Nat → Tbl Word
  | [] => t
  | m :: ms => writeMasks (t.put first (BitVec.ofNat 32 m)) (first + 1) ms

/-- A mask may stand in a table (R194): its ports are fabric ports, and none is global in a member entry. -/
def State.maskOk (s : State) (table mask : Nat) : Bool :=
  (portsOf mask).all fun p => (s.rport p).kind ≠ 0 && !(table = 1 && (s.rport p).kind = 2)

/-- What ROUTE_WRITE does (R172, R194, R195): the inactive bank becomes written with tag active + 1. R172 writes it "optionally
first copying the active bank", and R194 has one mode of two: DEDUCED 150, mode 1 copies and writes no entry. -/
def routeWriteBody (tiles mode table first count : Nat) (masks : List Nat) (s : State) : HRes :=
  let b := s.inactiveBank
  let ms := (List.range count).map fun i => masks.getD i 0
  refuseIf [
    (tiles % 16 = 0 || decide (15 < tiles) || decide (1 < mode) || decide (1 < table) || outside 1 64 count ||
      decide ((if table = 0 then 1024 else 64) < first + count), 0x010F),
    (mode = 0 && ms.any (fun m => !s.maskOk table m), 0x0110),
    ((s.bank b).state = .old, 0x030A)] <|
  let write := fun (s : State) tile =>
    if mode = 1 then s.upTables tile b fun _ => s.routeTables tile s.activeBank
    else s.upTables tile b fun t =>
      if table = 0 then { t with group := writeMasks t.group first ms } else { t with member := writeMasks t.member first ms }
  .ok <| (((List.range 4).filter tiles.testBit).foldl write s).upBank b fun x => { x with
    state := .written, tag := (s.activeEpoch + 1) % 4 }

/-- ROUTE_WRITE (R172, R194, R444). -/
def execRouteWrite (h : HlyHdr) (tiles mode table first count : Nat) (masks : List Nat) (s : State) :
    Host.Outcome State Fault Refusal :=
  ends <| runHly (.routeWrite h tiles mode table first count masks) 0x0401 h (if mode = 1 then 0 else 4 * count) 0 []
    (routeWriteBody tiles mode table first count masks) s

/-- What ROUTE_EPOCH_ADVANCE does (R172, R173, R194): the written bank becomes active, the active one old; an old count
that is 0 then has reached 0. -/
def routeEpochAdvanceBody (epoch : Nat) (s : State) : HRes :=
  let b := s.inactiveBank
  refuseIf [
    (epoch ≠ (s.activeEpoch + 1) % 4, 0x010F),
    ((s.bank b).state ≠ .written, 0x030C)] <|
  let t := (s.upBank (1 - b) fun x => { x with state := .old }).upBank b fun x => { x with state := .active }
  .ok (if t.oldCount = 0 then t.upRte fun r => { r with intStatus := setFlag r.intStatus 1 } else t)

/-- ROUTE_EPOCH_ADVANCE (R172, R194). -/
def execRouteEpochAdvance (h : HlyHdr) (epoch : Nat) (s : State) : Host.Outcome State Fault Refusal :=
  ends <| runHly (.routeEpochAdvance h epoch) 0x0402 h 0 0 [] (routeEpochAdvanceBody epoch) s

/-- What ROUTE_EPOCH_RETIRE does (R172, R174, R194): the old bank becomes empty. -/
def routeEpochRetireBody (s : State) : HRes :=
  let b := s.inactiveBank
  refuseIf [((s.bank b).state ≠ .old || s.oldCount ≠ 0, 0x030D)] <|
  .ok <| s.upBank b fun x => { x with state := .empty }

/-- ROUTE_EPOCH_RETIRE (R172, R174, R194). -/
def execRouteEpochRetire (h : HlyHdr) (s : State) : Host.Outcome State Fault Refusal :=
  ends <| runHly (.routeEpochRetire h) 0x0403 h 0 0 [] routeEpochRetireBody s

/-! ### Ports, policies, endpoints (R160, R165, R166) -/

/-- What ROUTE_PORT_SET does (R160, R194, R195). -/
def routePortSetBody (port kind group member : Nat) (up : Bool) (s : State) : HRes :=
  refuseIf [
    (decide (31 < port) || decide (2 < kind) || decide (1023 < group) || decide (63 < member), 0x010F),
    (!s.isNative port, 0x0111)] <|
  .ok <| s.upRte fun r => { r with ports := r.ports.upd port {} fun x => { x with kind, up, group, member } }

/-- ROUTE_PORT_SET (R194). -/
def execRoutePortSet (h : HlyHdr) (port kind group member : Nat) (up : Bool) (s : State) : Host.Outcome State Fault Refusal :=
  ends <| runHly (.routePortSet h port kind group member up) 0x0404 h 0 0 [.port port]
    (routePortSetBody port kind group member up) s

/-- ROUTE_POLICY_SET (R165, R194). -/
def execRoutePolicySet (h : HlyHdr) (sl mode bias : Nat) (s : State) : Host.Outcome State Fault Refusal :=
  ends <| runHly (.routePolicySet h sl mode bias) 0x0405 h 0 0 [] (fun s =>
    refuseIf [(decide (6 < sl) || decide (2 < mode) || decide (65535 < bias), 0x010F)] <|
    .ok <| s.upRte fun r => { r with policies := r.policies.put sl { mode, bias } }) s

/-- What CONTRACT_ROUTE_SET does (R166, R194). -/
def contractRouteSetBody (contractId mode count : Nat) (groups : List Nat) (s : State) : HRes :=
  let gs := groups.take count
  refuseIf [
    (decide (1 < mode) || outside 1 4 count || gs.any (fun g => decide (1023 < g)), 0x010F),
    (!s.adm.contracts.has contractId, 0x030E)] <|
  match s.adm.contracts.find contractId with
  | none => .refuse 0x030E
  | some c => .ok <| s.upAdm fun a => { a with contracts := a.contracts.put contractId { c with routeMode := mode, routeGroups := gs } }

/-- CONTRACT_ROUTE_SET (R166, R194). -/
def execContractRouteSet (h : HlyHdr) (contractId mode count : Nat) (groups : List Nat) (s : State) :
    Host.Outcome State Fault Refusal :=
  ends <| runHly (.contractRouteSet h contractId mode count groups) 0x0406 h 0 0 [.contract contractId]
    (contractRouteSetBody contractId mode count groups) s

/-- What ROUTE_ENDPOINT_SET does (R160, R194). -/
def routeEndpointSetBody (endpoint target destination : Nat) (s : State) : HRes :=
  refuseIf [(outside 1 15 endpoint || decide (2 < target) || (target = 1 && outside 32 35 destination) ||
    (target = 2 && !s.namesHostLink destination), 0x0112)] <|
  let e : EndpointDest := if target = 0 then .unassigned else if target = 1 then .localOutput destination else .hostLink destination
  .ok <| s.upRte fun r => { r with endpoints := r.endpoints.put endpoint e }

/-- ROUTE_ENDPOINT_SET (R160, R194). -/
def execRouteEndpointSet (h : HlyHdr) (endpoint target destination : Nat) (s : State) : Host.Outcome State Fault Refusal :=
  ends <| runHly (.routeEndpointSet h endpoint target destination) 0x0407 h 0 0 [] (routeEndpointSetBody endpoint target destination) s

/-! ### Trees (R185 to R190) -/

/-- What TREE_INSTALL does (R185, R189, R194): a fresh entry has no branch fenced. One whose valid field is 0 is not installed (DEDUCED 149). -/
def treeInstallBody (tree : Nat) (valid : Bool) (upstream branches : Nat) (delivery : Delivery) (leaves : List Nat) (s : State) : HRes :=
  refuseIf [
    (decide (8191 < tree) || (decide (31 < upstream) && upstream ≠ 0x3F) || decide (65535 < sumOf leaves id) ||
      (portsOf branches).any (fun p => !s.isNative p), 0x0113),
    ((s.tree tree).isSome, 0x0207)] <|
  let lv := (leaves.zip (List.range 33)).foldl (fun (t : Tbl Nat) e => if e.1 = 0 then t else t.put e.2 e.1) []
  .ok <| if !valid then s else s.upRte fun r => { r with trees := r.trees.put tree {
    upstream, branches := BitVec.ofNat 32 branches, loc := delivery.here, localEndpoint := delivery.endpoint, leaves := lv } }

/-- TREE_INSTALL (R185, R194, R444). -/
def execTreeInstall (h : HlyHdr) (tree : Nat) (valid : Bool) (upstream branches : Nat) (delivery : Delivery) (leaves : List Nat)
    (s : State) : Host.Outcome State Fault Refusal :=
  ends <| runHly (.treeInstall h tree valid upstream branches delivery leaves) 0x0408 h 66 0 [.tree tree]
    (treeInstallBody tree valid upstream branches delivery leaves) s

/-- Copies and acknowledgements of a tree that are pending (R190). -/
def State.treePending (s : State) (tree : Nat) : Bool :=
  let of := fun (h : Hdr) => h.multicast && h.destDevice == tree
  ((s.tree tree).map fun t => !t.ops.isEmpty).getD false || s.obf.waiting.any (fun w => of w.pkt.hdr) ||
    s.obf.pkts.any fun b => of b.pkt.hdr

/-- A tree entry removed. -/
def State.dropTree (s : State) (tree : Nat) : State := s.upRte fun r => { r with trees := r.trees.del tree }

/-- What TREE_REMOVE does (R190, R194). -/
def treeRemoveBody (tree : Nat) (s : State) : HRes :=
  match s.tree tree with
  | none => .refuse 0x030F
  | some t =>
    if s.treePending tree then
      .pend (s.upRte fun r => { r with trees := r.trees.put tree { t with removing := true } }) (.treeRemove tree) [.tree tree]
    else .ok (s.dropTree tree)

/-- TREE_REMOVE (R190, R194). -/
def execTreeRemove (h : HlyHdr) (tree : Nat) (s : State) : Host.Outcome State Fault Refusal :=
  ends <| runHly (.treeRemove h tree) 0x0409 h 0 0 [.tree tree] (treeRemoveBody tree) s

/-- TREE_DRAINED (R190). -/
def execTreeDrained (tree : Nat) (s : State) : Host.Outcome State Fault Refusal :=
  ends (match s.tree tree with
    | none => s
    | some t => if t.removing && !s.treePending tree then (s.dropTree tree).finishWait (.treeRemove tree) 0 0 else s)

/-- What TREE_FENCE does (R189, R190, R194). -/
def treeFenceBody (scope tree branch : Nat) (s : State) : HRes :=
  let b := if branch = 0x3F then 32 else branch
  refuseIf [
    (decide (1 < scope) || (decide (31 < branch) && branch ≠ 0x3F) || (scope = 0 && decide (8191 < tree)), 0x0113),
    (scope = 0 && (s.tree tree).isNone, 0x030F)] <|
  .ok (if scope = 1 then s.fenceAll b else s.fenceBranch tree b)

/-- TREE_FENCE (R189, R194). -/
def execTreeFence (h : HlyHdr) (scope tree branch : Nat) (s : State) : Host.Outcome State Fault Refusal :=
  ends <| runHly (.treeFence h scope tree branch) 0x040A h 0 0 (if scope = 0 then [.tree tree] else [])
    (treeFenceBody scope tree branch) s

/-- HOLD_SET (R182, R194). -/
def execHoldSet (h : HlyHdr) (quota : Nat) (s : State) : Host.Outcome State Fault Refusal :=
  ends <| runHly (.holdSet h quota) 0x040B h 0 0 [] (fun s =>
    refuseIf [(decide (8 < quota), 0x010F)] (.ok (s.upRte fun r => { r with quota }))) s

/-! ### Discovery and device IDs (R191 to R193) -/

/-- The record of a port in DISCOVER's output, 16 bytes (R595). -/
def State.discoverPort (s : State) (p : Nat) : List Nat :=
  let lead := s.port (s.leadPort p)
  let x := if s.isNative p then s.port p else lead
  let r := s.rport p
  let state := if s.isNative p then linkStateNum (s.lport p).state else if x.trainedRate.isSome then 2 else 0
  outBytes [(1, x.mode), (1, state + 8 * b2n x.downgraded), (1, x.trainedRate.getD 15), (1, x.trainedWidth.getD 7),
    (1, r.kind + 4 * b2n r.nbrValid), (1, r.nbrPort), (2, 0), (8, if r.nbrValid then r.nbrSerial else 0)]

/-- The output of DISCOVER, 528 bytes (R193, R595). -/
def State.discoverImage (s : State) : List Nat :=
  outBytes [(8, Config.serial), (2, s.rte.deviceId), (1, b2n s.rte.valid), (1, 0xB0), (4, 0)] ++
    (List.range 32).flatMap s.discoverPort

/-- DISCOVER (R193, R194). -/
def execDiscover (h : HlyHdr) (s : State) : Host.Outcome State Fault Refusal :=
  ends <| runHly (.discover h) 0x040C h 0 528 [] (fun s => .data s s.discoverImage) s

/-- What ID_ASSIGN does (R193): a forced change needs a device without contracts, hop reservations and open transport
contexts. -/
def idAssignBody (deviceId : Nat) (force : Bool) (s : State) : HRes :=
  let clear := s.adm.contracts.isEmpty && s.adm.resvs.isEmpty && s.trn.sends.isEmpty && s.trn.recvs.isEmpty
  refuseIf [(s.rte.valid && !(force && clear), 0x030B)] <|
  .ok <| s.upRte fun r => { r with deviceId := deviceId % 65536, valid := true }

/-- ID_ASSIGN (R193, R194). -/
def execIdAssign (h : HlyHdr) (deviceId : Nat) (force : Bool) (s : State) : Host.Outcome State Fault Refusal :=
  ends <| runHly (.idAssign h deviceId force) 0x040D h 0 0 [] (idAssignBody deviceId force) s

/-- A directed packet is well formed (R192): it has 1 to 15 hops to travel, and it has come over one of them. -/
def routeOk (hopCount hopPtr : Nat) : Bool := decide (1 ≤ hopPtr) && decide (hopPtr ≤ hopCount) && decide (hopCount ≤ 15)

/-- The return ports of a directed packet with its ingress port recorded (R192). -/
def recordPort (hopPtr port : Nat) (retPorts : List Nat) : List Nat :=
  (List.range 15).map fun i => if i + 1 = hopPtr then port else retPorts.getD i 0

/-- The unreachable reply (R192): it goes back over the recorded return ports. The spec gives it no content: DESIGN CHOICE 151, it is a
directed response with its extension alone. -/
def State.sendUnreachable (s : State) (ports : List Nat) : State :=
  (s.emit (.unreachable ports)).sendMgmt 0xC1 true true [] (routeExtension ports.length 1 ports []) (ports.getD 0 0)

/-- A directed packet at this device (R192): its ingress port is recorded, and it is delivered to the management complex at output
35, goes on, or is answered as unreachable. A malformed one ends here, and is counted with the in-band segments discarded (R32;
DEDUCED 152). -/
def State.directed (s : State) (port hopCount hopPtr : Nat) (ports : RoutePorts) (message : List Nat) : State :=
  let ret := recordPort hopPtr port ports.retPorts
  let next := ports.outPorts.getD hopPtr 0
  if !routeOk hopCount hopPtr then s.tally (evt 18 1)
  else if hopPtr = hopCount then s.emit (.directed 35 hopCount hopPtr ports.outPorts ret)
  else if s.linkUp next then
    (s.emit (.directed next hopCount (hopPtr + 1) ports.outPorts ret)).sendMgmt 0xC1 (message.head? == some 2) true []
      (routeExtension hopCount (hopPtr + 1) ports.outPorts ret ++ message) next
  else s.sendUnreachable (ret.take hopPtr).reverse

/-- DIRECTED_RECEIVE (R42, R192): it wakes a device in storm jib, and waits while the datapath is halted. -/
def execDirectedReceive (port hopCount hopPtr : Nat) (ports : RoutePorts) (message : List Nat) (s : State) :
    Host.Outcome State Fault Refusal :=
  ends (if !s.linkUp port then s
    else
      let s := s.wake
      if s.forwarding then s.directed port hopCount hopPtr ports message
      else { s with waiting := s.waiting ++ [.directedReceive port hopCount hopPtr ports message] })

/-- NEIGHBOUR_RECEIVE (R42, R159, R191). -/
def execNeighbourReceive (port serial neighbourPort : Nat) (s : State) : Host.Outcome State Fault Refusal :=
  ends (if !s.linkUp port then s
    else
      let s := s.wake
      if s.forwarding then
        s.upRte fun r => { r with ports := r.ports.upd port {} fun x => { x with
          nbrValid := true, nbrSerial := serial % 2 ^ 64, nbrPort := neighbourPort % 32 } }
      else { s with waiting := s.waiting ++ [.neighbourReceive port serial neighbourPort] })

end Sys2Proof.Machine
end

