-- ==== Sys2Proof/Machine/PoolCmds.lean ====
section
/-!
DEFINITION. The commands and events of the memory and device pools (R270 to R296), and the training of a PCIe or
CXL link (R263, R265, R288).
Where the spec leaves a point open: DESIGN CHOICE 22, 42; DEDUCED 63, 64, 65, 66, 67, 68, 69 (notes/assumptions).
-/
namespace Sys2Proof.Machine

/-! ### Ranges and names -/

/-- A range of extent handles within one of the two sources (R270). -/
def handlesOk (handle count : Nat) : Bool :=
  decide (handle + count ≤ 0x40000) || (decide (0x40000 ≤ handle) && decide (handle + count ≤ 0x40000 + 384))

/-- The handles of a range. -/
def handleRange (handle count : Nat) : List Nat := (List.range count).map (· + handle)

/-- An extent is free (R280). -/
def isFree (e : Extent) : Bool := e.state == .freeDirty || e.state == .freeClean

/-- An instance's slot is named by a bind that has not committed (R282). -/
def State.slotPending (s : State) (i slot : Nat) : Bool := s.pool.extents.any fun e => e.2.pending.contains (i, slot)

/-- An instance's slot is empty (R275, R282). -/
def State.slotEmpty (s : State) (i slot : Nat) : Bool := (s.slotOf i slot).isNone && !s.slotPending i slot

/-- Non-empty slots, with those that binds have named (R275, R294). -/
def State.slotCount (s : State) : Nat := s.pool.slots.length + sumOf s.pool.extents fun e => e.2.pending.length

/-- Coherent-shared extents (R273). -/
def State.cohExtents (s : State) : Nat := sumOf s.dir.windows fun w => w.2.extents.length

/-- The coherent-shared extents that the directory region has room for (R273). -/
def State.cohRoom (s : State) : Nat := min 512 (4 * s.pool.dirUnits)

/-! ### Host links and binding (R282, R284) -/

/-- What POOL_LINK_SET does (R276, R284, R295). -/
def poolLinkSetBody (link memInst releaseTimeout : Nat) (s : State) : HRes :=
  let held := (s.hostLink link).memInst.any fun i => s.pool.slots.any fun x => x.1 / 16384 == i && match x.2 with
    | .local _ => true
    | .import _ => false
  refuseIf [
    (decide (1023 < memInst) || decide (60 < releaseTimeout), 0x0119),
    (!s.notFree memInst, 0x0301),
    (!(s.namesHostLink link && (s.port link).mode = 4), 0x0111),
    (held, 0x0318)] <|
  .ok <| s.upHostLink link fun l => { l with memInst := some memInst, releaseTimeout }

/-- POOL_LINK_SET (R276, R295). -/
def execPoolLinkSet (h : HlyHdr) (link memInst releaseTimeout : Nat) (s : State) : Host.Outcome State Fault Refusal :=
  ends <| runHly (.poolLinkSet h link memInst releaseTimeout) 0x0701 h 0 0 [] (poolLinkSetBody link memInst releaseTimeout) s

/-- The owner that a bind records (R281). -/
def bindOwner (b : BindP) : Owner := if b.use = 2 then .expWindow b.expWindow else if b.use = 1 then .cohWindow b.cohWindow else .inst b.inst

/-- A field of EXTENT_BIND is out of range or reserved (R273 to R275, R295). -/
def bindBad (b : BindP) : Bool :=
  outside 1 512 b.count || !handlesOk b.handle b.count || decide (2 < b.use) ||
    (decide (b.use ≤ 1) && decide (16384 < b.firstSlot + b.count)) || (b.use = 1 && decide (255 < b.cohWindow)) ||
    (b.use = 2 && (decide (4096 < b.firstIndex + b.count) || outside 1 16 b.access.length))

/-- A slot, or an index of an exported window, that a bind names is not empty (R282, R295). -/
def State.bindTaken (s : State) (b : BindP) : Bool :=
  (List.range b.count).any fun k =>
    if b.use = 2 then
      ((s.pool.windows.find b.expWindow).map fun w => w.extents.has (b.firstIndex + k)).getD false ||
        s.pool.extents.any fun e => e.2.use == 2 && e.2.window == some (b.expWindow, b.firstIndex + k)
    else !s.slotEmpty b.inst (b.firstSlot + k)

/-- The lowest free backing index (R301). -/
def State.freeBacking (s : State) : Nat :=
  ((List.range 513).find? fun i => !s.pool.extents.any fun e => e.2.backing == some i).getD 0

/-- One extent enters its bind (R280 to R282, R301): zeroed first unless it is clean or kept for its last owner. -/
def State.bindExtent (s : State) (b : BindP) (k : Nat) : State :=
  let h := b.handle + k
  let e := s.extent h
  let kept := e.state == .freeDirty && b.keep && e.owner == bindOwner b
  let zero := e.state == .freeDirty && !kept
  let place := if b.use = 2 then some (b.expWindow, b.firstIndex + k)
    else if b.use = 1 then some (b.cohWindow, ((s.dir.windows.find b.cohWindow).map fun w => w.extents.length).getD 0) else none
  let back := if b.use = 1 then some s.freeBacking else none
  let s := s.upExtent h fun x => { x with
    state := if zero then .zeroing else .binding, use := b.use, binder := b.inst, owner := bindOwner b, window := place, backing := back
    pending := if b.use = 2 then [] else [(b.inst, b.firstSlot + k)], zeroAfter := !kept, note := 0 }
  if b.use = 1 then
    s.upDir fun d => { d with
      windows := d.windows.upd b.cohWindow { mask := 0 } fun w => { w with extents := w.extents ++ [h] } }
  else s

/-- What EXTENT_BIND does (R273 to R275, R281, R282, R294, R295): a new exported window takes the key, the read-only bit and the
access list of the bind that creates it. -/
def extentBindBody (b : BindP) (s : State) : HRes :=
  let hs := handleRange b.handle b.count
  refuseIf [
    (bindBad b, 0x011A),
    (b.use = 1 && !s.dir.windows.has b.cohWindow, 0x031B),
    (hs.any (fun h => !isFree (s.extent h)) || s.bindTaken b, 0x0318),
    (decide (b.use ≤ 1) && decide (524288 < s.slotCount + b.count), 0x0209),
    (b.use = 1 && (decide (s.cohRoom < s.cohExtents + b.count) ||
      decide (512 < ((s.dir.windows.find b.cohWindow).map fun w => w.extents.length).getD 0 + b.count)), 0x020A),
    (b.use = 2 && decide (4095 < b.expWindow), 0x020C),
    (decide (b.use ≤ 1) && !s.enabled b.inst, 0x0301)] <|
  let t := (List.range b.count).foldl (fun s k => s.bindExtent b k) s
  let t := if b.use = 2 && !t.pool.windows.has b.expWindow then
      t.upPool fun p => { p with windows := p.windows.put b.expWindow { key := b.key, readOnly := b.readOnly, access := b.access, extents := [] } }
    else t
  if hs.any fun h => (t.extent h).state == .zeroing then .pend t (.bind hs) (hs.map .extent) else .ok (t.commitBind hs)

/-- EXTENT_BIND (R282, R295, R444). -/
def execExtentBind (h : HlyHdr) (b : BindP) (s : State) : Host.Outcome State Fault Refusal :=
  ends <| runHly (.extentBind h b) 0x0702 h (if b.use = 2 then 4 * b.access.length else 0) 0
    ((handleRange b.handle b.count).map .extent) (extentBindBody b) s

/-- Zeroing of an extent finishes (R280, R282, R283, R535). -/
def State.zeroed (s : State) (h : Nat) : State :=
  let e := s.extent h
  let first := s.hbmLine h 0
  let s := s.upPool fun p => { p with mem := memZero p.mem (extentByte h 0) (2 ^ 28) }
  let s := if s.isNear h then s.upFlt fun f => { f with
      poisonLines := f.poisonLines.filter fun l => !(decide (first ≤ l) && decide (l < first + 2 ^ 22)) } else s
  let bound := s.hly.progress.any fun g => match g.wait with
    | .bind hs => hs.contains h
    | _ => false
  if e.running then s.unbindEnds h true
  else if bound then (s.upExtent h fun x => { x with state := .binding }).settleBind h
  else
    let s := s.upExtent h fun x => { x with state := .freeClean }
    s.hly.progress.foldl (fun s g => match g.wait with
      | .zeroing hs r => if hs.contains h && !(hs.any fun x => (s.extent x).state == .zeroing) then s.finishWait (.zeroing hs r) 0 r else s
      | _ => s) s

/-- ZEROING_COMPLETE (R280 to R283). -/
def execZeroingComplete (handle : Nat) (s : State) : Host.Outcome State Fault Refusal :=
  ends (if (s.extent handle).state = .zeroing then s.zeroed handle else s)

/-- What EXTENT_ZERO does (R280, R295). -/
def extentZeroBody (handle count : Nat) (s : State) : HRes :=
  let hs := handleRange handle count
  refuseIf [
    (outside 1 512 count || !handlesOk handle count, 0x011A),
    (hs.any fun h => (s.extent h).state != .freeDirty, 0x0318)] <|
  .pend (hs.foldl (fun s h => s.upExtent h fun e => { e with state := .zeroing }) s) (.zeroing hs 0) (hs.map .extent)

/-- EXTENT_ZERO (R280, R295). -/
def execExtentZero (h : HlyHdr) (handle count : Nat) (s : State) : Host.Outcome State Fault Refusal :=
  ends <| runHly (.extentZero h handle count) 0x0705 h 0 0 ((handleRange handle count).map .extent) (extentZeroBody handle count) s

/-! ### Unbinding (R283, R284) -/

/-- One extent enters its unbind (R283, R284, R291): a CXL host is asked for the extent first, unless its release_timeout
is 0; a Poisoned extent goes straight to its fence. -/
def State.unbindExtent (s : State) (zero : Bool) (h : Nat) : State :=
  let e := s.extent h
  let links := ((e.slots.map (·.1)).dedup.filterMap s.memLink).filter fun l => (s.hostLink l).releaseTimeout ≠ 0
  let s := s.upExtent h fun x => { x with
    state := if x.state = .poisoned then .poisoned else .unbinding, running := true, zeroAfter := zero, note := 0, fenced := false }
  if e.state = .poisoned || links.isEmpty then s.fenceExtent h
  else links.foldl (fun s l => s.emit (.capacity l 1 h (e.use = 1))) (s.upExtent h fun x => { x with releaseWait := links })

/-- What EXTENT_UNBIND does (R283, R295). -/
def extentUnbindBody (handle count : Nat) (zero : Bool) (s : State) : HRes :=
  let hs := handleRange handle count
  refuseIf [
    (outside 1 512 count || !handlesOk handle count, 0x011A),
    (hs.any fun h => (s.extent h).state != .bound && (s.extent h).state != .poisoned, 0x0318)] <|
  .pend (hs.foldl (fun s h => s.unbindExtent zero h) s) (.unbind hs zero) (hs.map .extent)

/-- EXTENT_UNBIND (R283, R295). -/
def execExtentUnbind (h : HlyHdr) (handle count : Nat) (zero : Bool) (s : State) : Host.Outcome State Fault Refusal :=
  ends <| runHly (.extentUnbind h handle count zero) 0x0703 h 0 0 ((handleRange handle count).map .extent)
    (extentUnbindBody handle count zero) s

/-- DYNAMIC_CAPACITY_RELEASE (R283): the fence comes once every CXL host that was asked has released the extent. -/
def execDynamicCapacityRelease (release : CapacityRelease) (s : State) : Host.Outcome State Fault Refusal :=
  let ⟨link, handle⟩ := release
  let left := (s.extent handle).releaseWait.filter (· ≠ link)
  ends (if !(s.extent handle).releaseWait.contains link then s
    else if left.isEmpty then s.fenceExtent handle
    else s.upExtent handle fun e => { e with releaseWait := left })

/-- DYNAMIC_CAPACITY_ADD_REJECT (R296): the extent is fenced and drained, and the event goes to the instance that held it. -/
def execDynamicCapacityAddReject (handle : Nat) (s : State) : Host.Outcome State Fault Refusal :=
  let e := s.extent handle
  let at_ := e.slots.filter fun x => (s.memLink x.1).isSome
  ends (if e.state ≠ .bound || at_.isEmpty then s
    else
      let s := (s.upExtent handle fun x => { x with state := .unbinding, running := true, zeroAfter := false, note := 0 }).fenceExtent handle
      at_.foldl (fun s x => s.post x.1 0x04 0 x.2 0 handle) s)

/-- An unbind that no command awaits follows a rejected add (R296). -/
def State.rejected (s : State) (h : Nat) : Bool :=
  !s.hly.progress.any fun g => match g.wait with
    | .unbind hs _ => hs.contains h
    | _ => false

/-- UNBIND_DRAIN_COMPLETE (R283, R296). -/
def execUnbindDrainComplete (handle : Nat) (s : State) : Host.Outcome State Fault Refusal :=
  let e := s.extent handle
  ends (if !e.running || !e.fenced || e.state = .zeroing || (s.recallOf handle).isSome then s
    else if s.rejected handle then s.unbindEnds handle false
    else s.unbindDrained handle)

/-! ### Imports and queries (R277, R295) -/

/-- Window requests in flight through an instance's slot (R277). -/
def State.importBusy (s : State) (i slot : Nat) : Bool := s.pool.winReqs.any fun r => r.inst == i && r.address / 2 ^ 28 % 16384 == slot

/-- What IMPORT_MAP does (R277, R295). -/
def importMapBody (m : ImportP) (s : State) : HRes :=
  refuseIf [
    (decide (1023 < m.inst) || decide (16383 < m.slot) || decide (4095 < m.window) || decide (4095 < m.index) || decide (1 < m.preColour) ||
      decide (7 < m.sl), 0x011A),
    (!s.notFree m.inst, 0x0301)] <|
  if m.map then
    refuseIf [(!s.slotEmpty m.inst m.slot, 0x0318), (decide (524288 ≤ s.slotCount), 0x0209)] <|
    .ok <| s.upPool fun p => { p with slots := p.slots.put (slotKey m.inst m.slot) (.import {
      remoteDevice := m.remoteDevice, window := m.window, index := m.index, key := m.key, preColour := m.preColour, sl := m.sl }) }
  else match s.slotOf m.inst m.slot with
    | some (.import _) =>
      let t := s.upPool fun p => { p with slots := p.slots.del (slotKey m.inst m.slot) }
      if s.importBusy m.inst m.slot then .pend t (.importUnmap m.inst m.slot) [] else .ok t
    | _ => .refuse 0x0318

/-- IMPORT_MAP (R277, R295). -/
def execImportMap (h : HlyHdr) (m : ImportP) (s : State) : Host.Outcome State Fault Refusal :=
  ends <| runHly (.importMap h m) 0x0704 h 0 0 [.inst m.inst] (importMapBody m) s

/-- The number of an extent state in EXTENT_QUERY: the order of R280. -/
def extStateNum : ExtState → Nat
  | .absent => 0
  | .freeDirty => 1
  | .zeroing => 2
  | .freeClean => 3
  | .binding => 4
  | .bound => 5
  | .unbinding => 6
  | .poisoned => 7

/-- The last owner in EXTENT_QUERY: a kind in bits [17:16] and its number. -/
def ownerNum : Owner → Nat
  | .none => 0
  | .inst i => 65536 + i
  | .cohWindow w => 131072 + w
  | .expWindow w => 196608 + w

/-- An extent's record in EXTENT_QUERY's output (R295, R594). -/
def extentImage (e : Extent) : List Nat :=
  outBytes ([(4, extStateNum e.state), (1, e.use), (3, 0), (4, ownerNum e.owner), (4, e.slots.length)] ++
    e.slots.flatMap (fun x => [(2, x.1), (2, x.2)]) ++ [(1, b2n (e.state == .freeClean)), (3, 0)])

/-- EXTENT_QUERY (R295, R594). -/
def execExtentQuery (h : HlyHdr) (handle count : Nat) (s : State) : Host.Outcome State Fault Refusal :=
  ends <| runHly (.extentQuery h handle count) 0x0706 h 0 (20 * count) ((handleRange handle count).map .extent) (fun s =>
    refuseIf [(outside 1 64 count || !handlesOk handle count, 0x011A)] <|
    .data s ((handleRange handle count).flatMap fun k => extentImage (s.extent k))) s

/-! ### Functions (R286, R287) -/

/-- A bound function by its name. -/
def State.boundFn (s : State) (port rid : Nat) : Option BoundFn := s.pool.functions.find? fun f => f.port == port && f.routingId == rid

/-- The state with a bound function changed. -/
def State.upFn (s : State) (port rid : Nat) (f : BoundFn → BoundFn) : State :=
  s.upPool fun p => { p with functions := updFirst (fun x => x.port == port && x.routingId == rid) f p.functions }

/-- What FUNCTION_BIND does (R286, R294, R295). -/
def functionBindBody (port routingId link vslot : Nat) (s : State) : HRes :=
  let d := s.downOf port
  refuseIf [
    (decide (31 < port) || decide (65535 < routingId) || !s.namesHostLink link || decide (31 < vslot), 0x011A),
    ((s.boundFn port routingId).isSome || decide (d.step < 4) || !d.functions.contains routingId ||
      s.pool.functions.any (fun f => f.link == link && f.vslot == vslot), 0x0318),
    (decide (256 ≤ s.pool.functions.length), 0x020D)] <|
  .ok <| (s.upPool fun p => { p with functions := p.functions ++ [{ port, routingId, link, vslot }] }).upVslot link vslot fun _ =>
    { present := true }

/-- FUNCTION_BIND (R286, R295). -/
def execFunctionBind (h : HlyHdr) (port routingId link vslot : Nat) (s : State) : Host.Outcome State Fault Refusal :=
  ends <| runHly (.functionBind h port routingId link vslot) 0x0707 h 0 0 [.function port routingId]
    (functionBindBody port routingId link vslot) s

/-- The second stage of a function's release: its Function Level Reset is issued (R287). -/
def State.resetFunction (s : State) (f : BoundFn) (late : Bool) : State :=
  (s.upFn f.port f.routingId fun x => { x with unbinding := 2, lateRelease := late }).emit (.function f.port f.routingId 0)

/-- What FUNCTION_UNBIND does (R284, R287, R295): a release_timeout of 0 skips the wait. -/
def functionUnbindBody (port routingId : Nat) (s : State) : HRes :=
  match s.boundFn port routingId with
  | none => .refuse 0x0318
  | some f =>
    let t := s.upVslot f.link f.vslot fun v => { v with attention := true }
    let t := if (s.hostLink f.link).releaseTimeout = 0 then t.resetFunction f false
      else t.upFn port routingId fun x => { x with unbinding := 1 }
    .pend t (.functionUnbind port routingId) [.function port routingId]

/-- FUNCTION_UNBIND (R287, R295). -/
def execFunctionUnbind (h : HlyHdr) (port routingId : Nat) (s : State) : Host.Outcome State Fault Refusal :=
  ends <| runHly (.functionUnbind h port routingId) 0x0708 h 0 0 [.function port routingId] (functionUnbindBody port routingId) s

/-- VIRTUAL_SLOT_POWER_OFF (R287). -/
def execVirtualSlotPowerOff (link vslot : Nat) (s : State) : Host.Outcome State Fault Refusal :=
  ends (match s.pool.functions.find? fun f => f.link == link && f.vslot == vslot && f.unbinding == 1 with
    | none => s
    | some f => s.resetFunction f false)

/-- RELEASE_TIMEOUT_EXPIRY (R284, R287). -/
def execReleaseTimeoutExpiry (handle : Nat) (isFunction : Bool) (port routingId : Nat) (s : State) :
    Host.Outcome State Fault Refusal :=
  ends (if isFunction then
      match s.boundFn port routingId with
      | none => s
      | some f =>
        if f.unbinding = 1 then (s.upVslot f.link f.vslot fun v => { v with linkDown := true }).resetFunction f true else s
    else if !(s.extent handle).releaseWait.isEmpty then (s.upExtent handle fun e => { e with note := 0x0602 }).fenceExtent handle
    else s)

/-- FUNCTION_RESET_COMPLETE (R287). -/
def execFunctionResetComplete (port routingId : Nat) (s : State) : Host.Outcome State Fault Refusal :=
  ends (match s.boundFn port routingId with
    | none => s
    | some f => if f.unbinding = 2 then s.functionGone f (if f.lateRelease then 0x0602 else 0) f.lateRelease else s)

/-! ### Arrival and removal (R288, R289) -/

/-- What SLOT_REMOVE does (R289): the link stops, the slot power goes off and its extents become Absent. -/
def slotRemoveBody (port : Nat) (s : State) : HRes :=
  let lead := s.leadPort port
  let (first, n) := s.portHandles lead
  refuseIf [(!s.isDownstream port || s.slotInUse port, 0x0318)] <|
  let t := (s.linkPorts lead).foldl State.linkOff (s.upDown lead fun d => { d with removing := true })
  let t := t.switchOff (lead + 2) false
  let t := t.upPool fun p => { p with extents := p.extents.keep fun h _ => !(decide (first ≤ h) && decide (h < first + n)) }
  .ok (t.upDown lead fun d => { d with removing := false, step := 0, layout := [], functions := [], held := false, caching := false, isExpander := false })

/-- SLOT_REMOVE (R289, R295). -/
def execSlotRemove (h : HlyHdr) (port : Nat) (s : State) : Host.Outcome State Fault Refusal :=
  ends <| runHly (.slotRemove h port) 0x0709 h 0 0 [.port port] (slotRemoveBody port) s

/-- The units of 256 MiB that each logical device of an expander gives: the first 16 are enumerated, each rounded down (R265, R271,
R294). -/
def expanderUnits (capacities : List Nat) : List Nat := (capacities.take 16).map (· / 2 ^ 28)

/-- EXPANDER_ENUMERATED (R271, R288): the capacities in bytes of the first logical device and of any further ones are laid out
in their order from the link's first handle;
what is beyond its handles is left over, counted in 256 MiB. A device on a CXL link that is no expander is of Type 1 or Type 2 (R265). -/
def execExpanderEnumerated (port serial : Nat) (isExpander : Bool) (capacity : Nat) (further functions : List Nat) (s : State) :
    Host.Outcome State Fault Refusal :=
  let lead := s.leadPort port
  let (first, n) := s.portHandles lead
  let units := if isExpander then expanderUnits (capacity :: further) else []
  let made := min units.sum n
  ends (if !s.isDownstream lead || (s.downOf lead).step ≠ 3 then s
    else
      let s := s.upPool fun p => { p with
        extents := (List.range made).foldl (fun (t : Tbl Extent) k => t.put (first + k) { state := .freeDirty }) p.extents }
      let s := s.upDown lead fun d => { d with
        serial := serial % 2 ^ 64, isExpander, layout := units, functions := if isExpander then [] else functions, step := 4
        caching := !isExpander && (s.port lead).cxlUp }
      s.emit (.poolEvent true [lead, serial % 2 ^ 64, made, units.sum - made]))

/-- A lane core that the spare core replaces at training (R242, R263, R568): it failed its calibration, or carries a corrected-symbol,
wear or margin indication. -/
def State.worn (s : State) (p k : Nat) : Bool :=
  let l := s.lane (9 * p + k)
  l.wear || l.marked || l.calibFailed || (decide (0 < l.margin) && decide (l.margin < (s.port p).marginFloor))

/-- PCIE_LINK_TRAINED (R263 to R265, R288), at a rate and width up to those configured: a CXL link whose partner does not take 256-byte flits is trained as PCIe. -/
def execPcieLinkTrained (port rate width : Nat) (cxlOffered flit256 : Bool) (s : State) : Host.Outcome State Fault Refusal :=
  let lead := s.leadPort port
  let x := s.port lead
  let cxl := x.mode = 4 || x.mode = 5
  let ready := decide (5 ≤ rate) && decide (rate ≤ x.maxRate) && decide (width ≤ x.width) && (s.isHostLink lead || (s.isDownstream lead && decide (2 ≤ (s.downOf lead).step))) && !x.contained &&
    s.pwr.mode ≠ .barePoles && !s.pwr.lost && !s.flt.halted && (lead ≠ 0 || !s.mgc.perst0)
  ends (if !ready then s
    else
      let s := (s.linkPorts lead).foldl (fun s p =>
        let spare := (List.range 8).find? fun k => s.worn p k
        (((s.refillEgress p).assignLanes p spare).upPort p fun y => { y with
          trainedRate := some rate, trainedWidth := some width, lastTrained := some (rate, width), spareFor := spare
          cxlUp := cxl && cxlOffered && flit256, downgraded := cxl && !(cxlOffered && flit256) }).setTrain p .ready) s
      let s := s.upPrt fun t => { t with intStatus := setFlag t.intStatus 0 }
      let s := if cxl && cxlOffered && !flit256 then s.raise 68 (.port lead) else s
      s.upDown lead fun d => if s.isDownstream lead && d.step = 2 then { d with step := 3 } else d)

/-! ### HBM partitioning (R292, R293) -/

/-- A region of the HBM holds live contents (R293). -/
def State.regionLive (s : State) (r : Nat) : Bool :=
  match r with
  | 1 => decide (0 < s.cohExtents)
  | 2 => s.mtc.posted.any (fun p => !p.onDie) || s.mtc.msgs.any fun m => !m.onDie
  | 3 => s.mec.inst.any fun e => decide (0 < e.2.heap)
  | 4 => s.pool.extents.any fun e => decide (0x40000 ≤ e.1) && !isFree e.2 && e.2.state != .absent
  | _ => false

/-- Base and size of each region for three sizes (R292). -/
def regionPlaces (d m h : Nat) : List (Nat × Nat) :=
  [(0, 4), (4, d), (4 + d, m), (4 + d + m, h), (4 + d + m + h, 384 - 4 - d - m - h)]

/-- What HBM_PARTITION_SET does (R292, R293). -/
def hbmPartitionSetBody (directory matching heaps : Nat) (s : State) : HRes :=
  let old := regionPlaces s.pool.dirUnits s.pool.mtcUnits s.pool.heapUnits
  let new := regionPlaces directory matching heaps
  refuseIf [
    (decide (128 < directory) || decide (32 < matching) || decide (64 < heaps), 0x0119),
    ((List.range 5).any fun r => old.getD r (0, 0) != new.getD r (0, 0) && s.regionLive r, 0x0319)] <|
  let t := s.upPool fun p => { p with dirUnits := directory, mtcUnits := matching, heapUnits := heaps }
  .ok <| t.upPool fun p => { p with
    extents := p.extents.keep fun h e => decide (h < 0x40000) || (t.isNear h && e.state != .absent) }

/-- HBM_PARTITION_SET (R293, R295). -/
def execHbmPartitionSet (h : HlyHdr) (directory matching heaps : Nat) (s : State) : Host.Outcome State Fault Refusal :=
  ends <| runHly (.hbmPartitionSet h directory matching heaps) 0x070A h 0 0 [] (hbmPartitionSetBody directory matching heaps) s

end Sys2Proof.Machine
end

