-- ==== Sys2Proof/Machine/DirCmds.lean ====
section
/-!
DEFINITION. The commands and events of the coherence directory (R297 to R326): agents and windows, requests,
writebacks, snoop responses, and the end of reads, writes and recalls.
Where the spec leaves a point open: DESIGN CHOICE 76; DEDUCED 74, 75, 77 (notes/assumptions).
-/
namespace Sys2Proof.Machine

/-! ### Agents and windows (R297 to R300, R322, R324, R325) -/

/-- The sharer vector of the assigned agents (R327). -/
def State.agentMask (s : State) : Word64 := sharersOf s.dir.agents.keys

/-- A port may be an agent's (R297, R324): the even port of a CXL host link, or of a downstream CXL link to a Type 1 or
Type 2 device. -/
def State.agentPort (s : State) (kind port : Nat) : Bool :=
  if kind = 0 then s.namesHostLink port && (s.port port).mode = 4
  else (s.port port).mode = 5 && s.leadPort port == port && (s.downOf port).caching

/-- What COH_AGENT_ADD does (R297, R324). -/
def cohAgentAddBody (agent kind port : Nat) (s : State) : HRes :=
  refuseIf [
    (decide (63 < agent) || decide (1 < kind) || decide (31 < port), 0x011B),
    (!s.agentPort kind port, 0x0111),
    (decide (64 ≤ s.dir.agents.length), 0x020B),
    (s.dir.agents.any fun a => a.1 == agent || a.2.port == port, 0x031A)] <|
  .ok <| s.upDir fun d => { d with agents := d.agents.put agent { kind, port } }

/-- COH_AGENT_ADD (R324, R325). -/
def execCohAgentAdd (h : HlyHdr) (agent kind port : Nat) (s : State) : Host.Outcome State Fault Refusal :=
  ends <| runHly (.cohAgentAdd h agent kind port) 0x0801 h 0 0 [.agent agent] (cohAgentAddBody agent kind port) s

/-- A recall that has ended is over (R320): its interrupt, and what it completes (R322, R325). -/
def State.closeRecall (s : State) (id : Nat) : State :=
  let mine := s.hly.progress.filter fun g => g.wait == .recall id
  let gone := (mine.filter fun g => g.code == 0x0802).flatMap fun g => g.objs.filterMap fun o => match o with
    | .agent a => some a
    | _ => none
  (s.upDir fun d => { d with
    recalls := d.recalls.filter fun x => x.id ≠ id
    agents := d.agents.keep fun a _ => !gone.contains a
    intStatus := setFlag d.intStatus 4 }).finishWait (.recall id) 0 0

/-- A command that recalls: at once when nothing is cached in the range, else in progress until RECALL_COMPLETE (R320). -/
def State.recallOrWait (s : State) (handles agents : List Nat) (holds : List Obj) (over_ : State → State) : HRes :=
  let (id, s) := s.startRecall handles agents false
  if s.dir.recalls.any fun r => r.id == id && s.recallEnded r then .ok (over_ (s.closeRecall id))
  else .pend s (.recall id) holds

/-- Every extent of the coherent windows. -/
def State.allCoherent (s : State) : List Nat := s.dir.windows.flatMap fun w => w.2.extents

/-- What COH_AGENT_REMOVE does (R322, R324). -/
def cohAgentRemoveBody (agent : Nat) (s : State) : HRes :=
  refuseIf [
    (decide (63 < agent), 0x011B),
    (!s.dir.agents.has agent || s.dir.windows.any fun w => w.2.mask.getLsbD agent, 0x031A)] <|
  (s.upDir fun d => { d with agents := d.agents.upd agent { kind := 0, port := 0 } fun a => { a with removing := true } }).recallOrWait
    s.allCoherent [agent] [.agent agent] fun s => s.upDir fun d => { d with agents := d.agents.del agent }

/-- COH_AGENT_REMOVE (R322, R324). -/
def execCohAgentRemove (h : HlyHdr) (agent : Nat) (s : State) : Host.Outcome State Fault Refusal :=
  ends <| runHly (.cohAgentRemove h agent) 0x0802 h 0 0 [.agent agent] (cohAgentRemoveBody agent) s

/-- A mask names an agent that is not assigned (R324). -/
def State.maskBad (s : State) (mask : Nat) : Bool := (List.range 64).any fun a => mask.testBit a && !s.dir.agents.has a

/-- What COH_WINDOW_CREATE does (R299, R324). -/
def cohWindowCreateBody (window mask : Nat) (s : State) : HRes :=
  refuseIf [
    (decide (255 < window) || decide (2 ^ 64 ≤ mask) || s.maskBad mask, 0x011B),
    (s.dir.windows.has window, 0x031B)] <|
  .ok <| s.upDir fun d => { d with windows := d.windows.put window { mask := BitVec.ofNat 64 mask } }

/-- COH_WINDOW_CREATE (R299, R324). -/
def execCohWindowCreate (h : HlyHdr) (window mask : Nat) (s : State) : Host.Outcome State Fault Refusal :=
  ends <| runHly (.cohWindowCreate h window mask) 0x0803 h 0 0 [.window window] (cohWindowCreateBody window mask) s

/-- What COH_WINDOW_AGENTS does (R299, R324, R325): clearing a bit recalls the agent's lines in the window. -/
def cohWindowAgentsBody (window mask : Nat) (s : State) : HRes :=
  refuseIf [
    (decide (255 < window) || decide (2 ^ 64 ≤ mask) || s.maskBad mask, 0x011B),
    (!s.dir.windows.has window, 0x031B)] <|
  let w := s.dir.windows.get window { mask := 0 }
  let cleared := (List.range 64).filter fun a => w.mask.getLsbD a && !mask.testBit a
  let s := s.upDir fun d => { d with windows := d.windows.put window { w with mask := BitVec.ofNat 64 mask } }
  if cleared.isEmpty then .ok s else s.recallOrWait w.extents cleared [.window window] id

/-- COH_WINDOW_AGENTS (R299, R324, R325). -/
def execCohWindowAgents (h : HlyHdr) (window mask : Nat) (s : State) : Host.Outcome State Fault Refusal :=
  ends <| runHly (.cohWindowAgents h window mask) 0x0804 h 0 0 [.window window] (cohWindowAgentsBody window mask) s

/-- The instances that map a window (R300): by COH_WINDOW_MAP, or by the binds of its extents. -/
def State.windowInsts (s : State) (window : Nat) : List Nat :=
  let w := s.dir.windows.get window { mask := 0 }
  (w.maps.map (·.1) ++ w.extents.flatMap fun h => ((s.extent h).slots ++ (s.extent h).pending).map (·.1)).dedup

/-- An extent's slots are valid at once: it is Bound, or lives on in another way than a bind in progress (R282, R300). -/
def slotsValid (e : Extent) : Bool := e.state == .bound || e.state == .poisoned || (e.state == .unbinding && !e.fenced)

/-- One extent of a window mapped into a slot (R300): an extent that is still being bound takes the slot at its commit. -/
def State.mapCoherent (s : State) (inst slot h : Nat) : State :=
  if slotsValid (s.extent h) then
    (s.upExtent h fun e => { e with slots := e.slots ++ [(inst, slot)] }).upPool fun p => { p with
      slots := p.slots.put (slotKey inst slot) (.local h) }
  else s.upExtent h fun e => { e with pending := e.pending ++ [(inst, slot)] }

/-- One slot of a window's mapping removed (R300, R324). -/
def State.unmapCoherent (s : State) (inst slot h : Nat) : State :=
  (s.upExtent h fun e => { e with
    slots := e.slots.filter (· ≠ (inst, slot)), pending := e.pending.filter (· ≠ (inst, slot)) }).upPool fun p => { p with
    slots := p.slots.del (slotKey inst slot) }

/-- What COH_WINDOW_MAP does (R300, R324). -/
def cohWindowMapBody (window inst firstSlot : Nat) (map : Bool) (s : State) : HRes :=
  let w := s.dir.windows.get window { mask := 0 }
  let n := w.extents.length
  let pairs := (List.range n).zip w.extents
  let mapped := fun (k h : Nat) => ((s.extent h).slots ++ (s.extent h).pending).contains (inst, firstSlot + k)
  refuseIf [
    (decide (16384 < firstSlot + n) || decide (16383 < firstSlot), 0x011A),
    (!s.dir.windows.has window, 0x031B),
    (if map then pairs.any fun x => !s.slotEmpty inst (firstSlot + x.1) else pairs.any fun x => !mapped x.1 x.2, 0x0318),
    (map && !(s.windowInsts window).contains inst && decide (64 ≤ (s.windowInsts window).length), 0x020E),
    (map && decide (524288 < s.slotCount + n), 0x0209),
    (!s.enabled inst, 0x0301)] <|
  let s := s.upDir fun d => { d with windows := d.windows.put window { w with
    maps := if map then w.maps ++ [(inst, firstSlot)] else w.maps.filter (· ≠ (inst, firstSlot)) } }
  .ok <| pairs.foldl (fun s x => if map then s.mapCoherent inst (firstSlot + x.1) x.2 else s.unmapCoherent inst (firstSlot + x.1) x.2) s

/-- COH_WINDOW_MAP (R300, R324). -/
def execCohWindowMap (h : HlyHdr) (window inst firstSlot : Nat) (map : Bool) (s : State) : Host.Outcome State Fault Refusal :=
  ends <| runHly (.cohWindowMap h window inst firstSlot map) 0x0805 h 0 0 [.window window, .inst inst]
    (cohWindowMapBody window inst firstSlot map) s

/-- What COH_WINDOW_DESTROY does (R322, R324). -/
def cohWindowDestroyBody (window : Nat) (s : State) : HRes :=
  refuseIf [
    (!s.dir.windows.has window, 0x031B),
    (!(s.dir.windows.get window { mask := 0 }).extents.isEmpty, 0x031C)] <|
  .ok <| s.upDir fun d => { d with windows := d.windows.del window }

/-- COH_WINDOW_DESTROY (R322, R324). -/
def execCohWindowDestroy (h : HlyHdr) (window : Nat) (s : State) : Host.Outcome State Fault Refusal :=
  ends <| runHly (.cohWindowDestroy h window) 0x0806 h 0 0 [.window window] (cohWindowDestroyBody window) s

/-- What DIR_SET does (R318, R324). -/
def dirSetBody (cm snoopTimeout : Nat) (scrubEnable : Bool) (s : State) : HRes :=
  refuseIf [(cmBit cm 0 && outside 1 10000 snoopTimeout, 0x011B)] <|
  .ok <| s.upDir fun d => { d with snoopTimeout := pick cm 0 snoopTimeout d.snoopTimeout, scrub := pick cm 1 scrubEnable d.scrub }

/-- DIR_SET (R318, R324). -/
def execDirSet (h : HlyHdr) (cm snoopTimeout : Nat) (scrubEnable : Bool) (s : State) : Host.Outcome State Fault Refusal :=
  ends <| runHly (.dirSet h cm snoopTimeout scrubEnable) 0x0807 h 0 0 [] (dirSetBody cm snoopTimeout scrubEnable) s

/-- The state field of an entry (R302). -/
def lineStateNum : LineState → Nat
  | .invalid => 0
  | .shared => 1
  | .em => 2

/-- A tracker awaits a writeback in flight (R316). -/
def Tracker.wbPending (t : Tracker) : Bool := t.snoops.any (·.wbInFlight)

/-- What DIR_QUERY returns (R324, R594): the entry, whether it is cached, the tracker's state (0 none, 1 awaits snoops, 2 awaits
memory), writeback-pending and the queue's depth. The check byte is a free value: R302 names the code and not its bits. -/
def dirQueryBody (window extentIndex lineIndex : Nat) (s : State) : HRes :=
  let w := s.dir.windows.get window { mask := 0 }
  match refuseIf [
    (decide (255 < window) || decide (extentLines ≤ lineIndex), 0x011B),
    (!s.dir.windows.has window, 0x031B)] (.ok s), w.extents[extentIndex]? with
  | .done _ _ _ _, none => .refuse 0x011B
  | .done s _ _ _, some h =>
    let e := s.dirEntry h lineIndex
    let (check, s) := s.fresh
    let t := s.tracker h lineIndex
    let state := match t with
      | none => 0
      | some t => if t.snoops.isEmpty then 2 else 1
    .data s (outBytes [(8, e.sharers.toNat), (7, lineStateNum e.state + 4 * b2n (e.poisoned || (e.state == .invalid && s.linePoisoned h lineIndex))), (1, check % 256), (1, b2n (s.cachedEntry h lineIndex)), (4, state),
      (1, b2n (t.any Tracker.wbPending)), (4, (t.map fun t => t.queue.length).getD 0)])
  | r, _ => r

/-- DIR_QUERY (R324). -/
def execDirQuery (h : HlyHdr) (window extentIndex lineIndex : Nat) (s : State) : Host.Outcome State Fault Refusal :=
  ends <| runHly (.dirQuery h window extentIndex lineIndex) 0x0808 h 0 26 [] (dirQueryBody window extentIndex lineIndex) s

/-! ### Requests (R306, R312, R315) -/

/-- The directory serves accesses to an extent (R283, R296, R321): it is coherent-shared and no unbind has passed its fence. -/
def State.cohServed (s : State) (h : Nat) : Bool :=
  let e := s.extent h
  e.use = 1 && e.window.isSome && slotsValid e

/-- A request enters its line's queue or takes a tracker; false when it waits on the request lane (R315, R319). -/
def State.takeRequest (s : State) (h line : Nat) (k : TrackKind) : Bool × State :=
  let b := s.logicalBank h line
  match s.tracker h line with
  | some _ =>
    if s.bankQueued b < 1024 then (true, s.upTracker h line fun t => { t with queue := t.queue ++ [k] }) else (false, s)
  | none =>
    if s.bankTrackers b < 256 then
      let s := s.upDir fun d => { d with trackers := d.trackers ++ [{ handle := h, line, kind := k }] }
      let s := if s.bankTrackers b = 256 then s.upDir fun d => { d with intStatus := setFlag d.intStatus 5 } else s
      (true, s.runLine h line)
    else (false, s)

/-- The physical bank that serves a logical one (R304). -/
def State.physicalBank (s : State) (b : Nat) : Nat :=
  ((s.dir.banks.find? fun x => x.2.moved == some b).map (·.1)).getD b

/-- The bank's pointer moves to one past the last request it takes (R315). -/
def State.bankTurn (s : State) (h line pos : Nat) : State :=
  s.upDir fun d => { d with banks := d.banks.upd (s.physicalBank (s.logicalBank h line)) {} fun x => { x with turn := (pos + 1) % 65 } }

/-- A request from the owner shows that no writeback of the line is coming (R316). -/
def State.endWbWait (s : State) (h line : Nat) (a : Option Nat) : State :=
  match a with
  | none => s
  | some a =>
    match s.snoopOf h line a with
    | some n => if n.wbInFlight && !(s.dir.writebacks.any fun w => w.handle == h && w.line == line && w.agent == a) then s.snoopFinal h line a else s
    | none => s

/-- A request of the directory taken by its bank (R312, R315), or kept on the request lane as `again`. -/
def State.dirRequest (s : State) (h line : Nat) (who : Option Nat) (k : TrackKind) (again : Instr) : State :=
  let s := s.endWbWait h line who
  match s.takeRequest h line k with
  | (true, s) => s.bankTurn h line (who.getD 64)
  | (false, s) => { s with waiting := s.waiting ++ [again] }

/-- The agent as which a request is served (R298, R299): none when it is non-caching. -/
def State.servedAs (s : State) (h : Nat) (agent : Option Nat) : Option Nat :=
  agent.filter fun a => s.dir.agents.has a && (s.windowMask h).getLsbD a

/-- The operation as which a request is served (R299): without an agent, a read is RdCur. -/
def servedOp (op : CohOp) (as_ : Option Nat) : CohOp :=
  match op, as_ with
  | .wrNC, _ => .wrNC
  | o, some _ => o
  | _, none => .rdCur

/-- An access to an extent that no window serves is refused (R33, R296): a CXL host's as its memory instance's. -/
def State.cohRefused (s : State) (agent : Option Nat) (h line : Nat) : State :=
  match agent.bind fun a => s.dir.agents.find a with
  | some x =>
    match x.kind, (s.hostLink x.port).memInst with
    | 0, some i => s.refuseAccess i 4
    | _, _ => s.emit (.grant agent 9 h line false)
  | none => s.emit (.grant agent 9 h line false)

/-- A request to a coherent-shared line (R306, R312). -/
def State.cohRequest (s : State) (agent : Option Nat) (h line : Nat) (op : CohOp) (offset : Nat) (data : List Nat) : State :=
  if op = .hint then s
  else if !s.cohServed h then s.cohRefused agent h line
  else if op = .unsupported then
    ((s.upDir fun d => { d with protocol := d.protocol + 1 }).emit (.grant agent 8 h line false)).raise 773
  else
    let as_ := s.servedAs h agent
    s.dirRequest h line agent (.request { who := agent, agent := as_, op := servedOp op as_, data, offset })
      (.coherentRequest agent h line op offset data)

/-- The logical bank of a request that waits on the request lane, and its position in the bank's order (R315). -/
def State.dirAsk (s : State) : Instr → Option (Nat × Nat)
  | .coherentRequest agent handle lineIndex _ _ _ => some (s.logicalBank handle lineIndex, agent.getD 64)
  | .evictionNotice agent handle lineIndex => some (s.logicalBank handle lineIndex, agent)
  | _ => none

/-- COHERENT_REQUEST (R306, R312, R315). -/
def execCoherentRequest (agent : Option Nat) (handle lineIndex : Nat) (op : CohOp) (offset : Nat) (data : List Nat) (s : State) :
    Host.Outcome State Fault Refusal :=
  let s := s.wake
  ends (if !s.forwarding || decide (extentLines ≤ lineIndex) then s else s.cohRequest agent handle lineIndex op offset data)

/-- EVICTION_NOTICE (R306, R312): a request of its own form. -/
def execEvictionNotice (agent handle lineIndex : Nat) (s : State) : Host.Outcome State Fault Refusal :=
  let s := s.wake
  ends (if !s.forwarding || decide (extentLines ≤ lineIndex) then s
    else if !s.cohServed handle then s.cohRefused (some agent) handle lineIndex
    else s.dirRequest handle lineIndex (some agent) (.evict agent) (.evictionNotice agent handle lineIndex))

/-! ### Writebacks (R312 to R316, R318, R321) -/

/-- The recorded owner, or a possible one while the line is rebuilt (R305, R313). -/
def State.mayOwn (s : State) (h line a : Nat) : Bool :=
  s.ownsLine h line a || (match s.tracker h line with
    | some t => t.kind == .rebuild && t.snoops.any fun n => n.agent == a
    | none => false)

/-- The entry after a writeback, by the state that the owner keeps: 0 Invalid, 1 Shared, 2 EM (R306, R312). A line that is being
rebuilt keeps its other possible owners. -/
def State.keepState (s : State) (h line a keep : Nat) : State :=
  let e := s.dirEntry h line
  if (s.tracker h line).any fun t => t.kind == .rebuild then (if keep = 0 then s.setEntry h line (e.without a) else s)
  else s.setEntry h line (match keep with
    | 0 => e.without a
    | 1 => { e with state := .shared, sharers := 1#64 <<< a }
    | _ => e)

/-- The recall of a poisoned extent that discards writebacks (R321). -/
def State.discards (s : State) (h line : Nat) : Bool := s.linePoisoned h line

/-- A writeback taken (R312 to R316). -/
def State.takeWriteback (s : State) (a h line keep : Nat) (data : List Nat) : State :=
  let cmp := fun (s : State) => s.emit (.grant (some a) 5 h line false)
  if s.dir.timedOut.contains (a, h, line) then cmp s.wbLost
  else if (s.extent h).use ≠ 1 || (s.extent h).window.isNone || !s.mayOwn h line a then cmp s.wbUnexpected
  else
    let s := (s.touchEntry h line).keepState h line a keep
    let flight := (s.snoopOf h line a).any (·.wbInFlight)
    let s := if flight then s else s.upSnoop h line a fun n => { n with wbTaken := true }
    if s.discards h line then
      let s := cmp s.wbLost
      if flight then s.snoopFinal h line a else s
    else s.writeBack h line a data false

/-- COHERENT_WRITEBACK (R312, R313, R315): it waits at its link while its bank's buffer of 64 lines is full. -/
def execCoherentWriteback (agent handle lineIndex keep : Nat) (data : List Nat) (s : State) : Host.Outcome State Fault Refusal :=
  let s := s.wake
  ends (if !s.forwarding || decide (extentLines ≤ lineIndex) then s
    else if 64 ≤ s.bankWritebacks (s.logicalBank handle lineIndex) then
      { s with waiting := s.waiting ++ [.coherentWriteback agent handle lineIndex keep data] }
    else s.takeWriteback agent handle lineIndex keep data)

/-- A write of a line is in memory (R314): the oldest writeback taken, or the write of a WrNC. -/
def State.lineWritten (s : State) (h line : Nat) : State :=
  match takeFirst (fun (w : WbPending) => w.handle == h && w.line == line) s.dir.writebacks with
  | some (w, rest) =>
    let s := s.upDir fun d => { d with writebacks := rest }
    let s := if w.forwarded then s else s.emit (.grant (some w.agent) 5 h line false)
    let s := s.upTracker h line fun t => { t with writes := t.writes - 1 }
    let s := if (s.snoopOf h line w.agent).any (·.wbInFlight) then s.snoopFinal h line w.agent else s.runLine h line
    s.settleAcks
  | none =>
    if (s.tracker h line).any (·.writing) then s.trackDone h line false else s

/-- MEMORY_WRITE_DONE (R314 to R316). -/
def execMemoryWriteDone (handle lineIndex : Nat) (s : State) : Host.Outcome State Fault Refusal :=
  ends (if s.forwarding then s.lineWritten handle lineIndex else s)

/-- DIRECTORY_READ_DONE (R308, R312, R319): the data of a read that a tracker awaits. -/
def execDirectoryReadDone (handle lineIndex : Nat) (poison : Bool) (s : State) : Host.Outcome State Fault Refusal :=
  ends (if s.forwarding && (s.tracker handle lineIndex).any (·.reading) then
      s.trackDone handle lineIndex (poison || s.poisoned handle (64 * lineIndex) 64)
    else s)

/-! ### Snoop responses (R309, R316 to R318) -/

/-- A response from an agent that the entry does not record as owner (R309, R313, R317). -/
def State.otherResponse (s : State) (a h line : Nat) (form : SnoopForm) : State :=
  let s := if (s.dirEntry h line).sharers.getLsbD a then
      (s.upDir fun d => { d with stale := satAdd 48 d.stale 1 }).tally (evt 12 0) else s
  (if form = .forwardModified then s.wbUnexpected else s).snoopFinal h line a

/-- A response from the owner (R309, R316). -/
def State.ownerResponse (s : State) (a h line : Nat) (n : Snoop) (form : SnoopForm) (data : List Nat) : State :=
  match if n.conflict && form == .invalid then .invalidWriteback else form with
  | .invalid => s.snoopFinal h line a
  | .invalidWriteback => s.upSnoop h line a fun n => { n with wbInFlight := true }
  | .forwardModified =>
    if s.discards h line then s.wbLost.snoopFinal h line a
    else (s.upSnoop h line a fun n => { n with wbInFlight := true }).writeBack h line a data true

/-- A snoop response taken (R309, R316, R318). -/
def State.snoopResponse (s : State) (a h line : Nat) (form : SnoopForm) (data : List Nat) : State :=
  if s.dir.timedOut.contains (a, h, line) then s.upDir fun d => { d with lost := d.lost + 1 }
  else match s.snoopOf h line a with
    | none => s
    | some n =>
      if n.wbTaken then s.snoopFinal h line a
      else if n.wbInFlight then s
      else if s.mayOwn h line a then s.ownerResponse a h line n form data
      else s.otherResponse a h line form

/-- SNOOP_RESPONSE_RECEIVE (R309, R316). -/
def execSnoopResponseReceive (agent handle lineIndex : Nat) (form : SnoopForm) (data : List Nat) (s : State) :
    Host.Outcome State Fault Refusal :=
  let s := s.wake
  ends (if s.forwarding then s.snoopResponse agent handle lineIndex form data else s)

/-- BICONFLICT_RECEIVE (R309): it is acknowledged after the completion of what the host asked for earlier. -/
def execBiconflictReceive (agent handle lineIndex : Nat) (s : State) : Host.Outcome State Fault Refusal :=
  let s := s.wake
  ends (if !s.forwarding then s
    else ((s.upSnoop handle lineIndex agent fun n => { n with conflict := true }).upDir fun d => { d with
      acks := d.acks ++ [(agent, handle, lineIndex)] }).settleAcks)

/-- The subject of a snoop timeout (R318): the memory instance of the host link, or the downstream port. -/
def State.agentSubject (s : State) (a : Nat) : Subject :=
  match s.dir.agents.find a with
  | none => .none
  | some x => if x.kind = 0 then (((s.hostLink x.port).memInst).map Subject.inst).getD .none else .port x.port

/-- SNOOP_TIMEOUT_EXPIRY (R318). -/
def execSnoopTimeoutExpiry (agent handle lineIndex : Nat) (s : State) : Host.Outcome State Fault Refusal :=
  ends (if !s.forwarding || (s.snoopOf handle lineIndex agent).isNone then s
    else
      let s := s.upDir fun d => { d with
        timedOut := d.timedOut ++ [(agent, handle, lineIndex)], intStatus := setFlag d.intStatus 0
        agents := if d.agents.has agent then
            d.agents.upd agent { kind := 0, port := 0 } fun x => { x with timeouts := satAdd 16 x.timeouts 1 } else d.agents }
      (s.raise 772 (s.agentSubject agent)).snoopFinal handle lineIndex agent)

/-! ### Recalls (R320 to R322) -/

/-- A recall goes on with the lines that have no tracker yet, or ends (R283, R320 to R322). -/
def State.recallStep (s : State) (r : Recall) : State :=
  let s := (List.range r.todo.length).foldl (fun s _ =>
    match (s.dir.recalls.find? fun x => x.id == r.id) with
    | none => s
    | some x =>
      let t := s.placeRecall r.id
      match t.dir.recalls.find? fun y => y.id == r.id with
      | some y => match x.todo.find? fun k => !y.todo.contains k with
        | some k => t.runLine (k / extentLines) (k % extentLines)
        | none => s
      | none => s) s
  match s.dir.recalls.find? fun x => x.id == r.id with
  | none => s
  | some x =>
    if s.recallEnded x then
      let s := s.closeRecall r.id
      match r.handles, r.agents.isEmpty && !r.poison with
      | [h], true => if (s.extent h).running then s.unbindZero h else s
      | _, _ => s
    else s

/-- RECALL_COMPLETE (R283, R320, R322, R325): a recall whose lines are all done ends. -/
def execRecallComplete (recallId : Nat) (s : State) : Host.Outcome State Fault Refusal :=
  ends (match s.forwarding, s.dir.recalls.find? fun r => r.id == recallId with
    | true, some r => s.recallStep r
    | _, _ => s)

end Sys2Proof.Machine
end

