-- ==== Sys2Proof/Machine/HostMemCmds.lean ====
section
/-!
DEFINITION. Host loads and stores (R33, R34, R275, R276), imports through the fabric (R66, R277 to R279), and the
service of windows that this device exports (R274, R277, R278).
Where the spec leaves a point open: DEDUCED 62, 70, 71, 72, 73, 170, 172 (notes/assumptions).
-/
namespace Sys2Proof.Machine

/-! ### At the importing device (R66, R277, R279) -/

/-- Bytes of the stores whose copies are kept for a resend: those of every WWRITE that is not acknowledged yet (R226, R277). -/
def State.resendBytes (s : State) : Nat :=
  sumOf s.trn.sends fun c => sumOf ((c.unacked ++ c.queue).filter fun p => p.pkt.hdr.opcode == 0x41) fun p => p.pkt.hdr.payloadLength

/-- A store through an import slot that the edge refuses (R66), and a load: the host's answer, and the event of a store. -/
def State.refuseImport (s : State) (r : WinReq) (reason : Nat) : State :=
  if r.write then
    let s := s.post r.inst 0x02 reason (r.address / 2 ^ 28 % 16384) r.w.length r.address
    if r.posted then s else s.emit (.hostRsp r.inst 2 4)
  else s.emit (.hostRsp r.inst (if r.cxl then 1 else 2) 4)

/-- The header of a window request (R277, R278). -/
def State.windowHdr (s : State) (x : Import) (r : WinReq) : Hdr :=
  { destDevice := x.remoteDevice, srcDevice := s.rte.deviceId, inst := r.inst, sl := x.sl
    opcode := if r.write then 0x41 else 0x40, data := r.write, payloadLength := if r.write then r.w.length else 12 }

/-- A load or store through an import slot (R66, R277): policed, and sent as a window request. A store waits at the host link while
its copy has no room; one that a CXL host awaits is answered as it is handed over, for the window write is posted. -/
def State.importAccess (s : State) (x : Import) (r : WinReq) (data : List Nat) (again : Instr) : State :=
  if r.write && decide (2 ^ 28 < s.resendBytes + r.w.length) then { s with waiting := s.waiting ++ [again] }
  else
    let h := s.windowHdr x r
    let len := pktLen h
    if s.noRoute h 35 none then s.failImport r 0x06 stNoRoute
    else match s.police h len true (x.preColour = 0) with
      | (.refuse reason _, s) => s.refuseImport r reason
      | (.wait, s) => s.refuseImport r 1
      | (.send h d, s) =>
        let (pid, s) := s.newPid
        let s := (s.upPool fun p => { p with winReqs := p.winReqs ++ [r] }).handOver {
          pkt := { pid, hdr := h, fields := winFields r.w, payload := data }, len, input := inputFor h.opcode 0, op := none, deadline := d }
        let s := s.emit (.window h.opcode x.remoteDevice r.inst r.w data)
        if r.write && !r.posted then s.emit (.hostRsp r.inst 0 4) else s

/-! ### Decoding a host's access (R33, R275) -/

/-- A load or store of an extent that is private (R33, R34). -/
def State.localAccess (s : State) (i h o n : Nat) (write posted : Bool) (data : List Nat) : State :=
  let path := if s.isNear h then 2 else 1
  if write then
    let s := s.writeExtent h o (data.take n)
    if posted then s else s.emit (.hostRsp i 0 path)
  else if s.poisoned h o n then s.emit (.hostRsp i 1 path)
  else s.emit (.hostRsp i 0 path (s.readExtent h o n))

/-- A host's access to a coherent-shared extent without a cached copy (R298): one request for each line that it touches. -/
def State.uncachedAccess (s : State) (h o n : Nat) (write : Bool) (data : List Nat) : State :=
  let first := o / 64
  (List.range ((o + n - 1) / 64 + 1 - first)).foldl (fun s k =>
    let line := first + k
    let lo := max o (64 * line)
    let hi := min (o + n) (64 * line + 64)
    s.cohRequest none h line (if write then .wrNC else .rdCur) (lo - 64 * line)
      (if write then (data.drop (lo - o)).take (hi - lo) else [])) s

/-- A host's access decoded by slot (R33, R275 to R277, R409). -/
def State.hostAccess (s : State) (i address length : Nat) (write posted cxl : Bool) (data : List Nat) (again : Instr) : State :=
  let refuse := fun (s : State) => s.refuseAccess i (if cxl then 4 else 3)
  let slot := address / 2 ^ 28 % 16384
  let o := address % 2 ^ 28
  let n := min length (2 ^ 28 - o)
  if !s.enabled i || n = 0 then refuse s
  else match s.slotOf i slot with
    | none => refuse s
    | some (.local h) =>
      if (s.extent h).use = 1 then s.uncachedAccess h o n write data
      else s.localAccess i h o n write posted data
    | some (.import x) =>
      s.importAccess x {
        inst := i, remote := x.remoteDevice, write, posted, cxl, address
        w := { window := x.window, key := x.key, offset := 2 ^ 28 * x.index + o, length := n } } data again

/-- HOST_MEMORY_ACCESS (R33, R34, R275 to R277): a PCIe store is posted. A CXL.mem request carries no function, so its instance is a
CXL host link's memory instance (R276). -/
def execHostMemoryAccess (inst address length : Nat) (write cxl : Bool) (data : List Nat) (s : State) :
    Host.Outcome State Fault Refusal :=
  let t := s.wake
  ends (if !cxl && !s.reachable inst || cxl && (s.memLink inst).isNone then s
    else if !t.forwarding then t
    else t.hostAccess inst address length write (!cxl) cxl data (.hostMemoryAccess inst address length write cxl data))

/-- An instance's host link is a CXL link (R260). -/
def State.overCxl (s : State) (i : Nat) : Bool := (s.port (s.instance_ i).port).mode = 4

/-- HOST_WINDOW_STORE (R66, R277). -/
def execHostWindowStore (inst address length : Nat) (posted : Bool) (data : List Nat) (s : State) :
    Host.Outcome State Fault Refusal :=
  let t := s.wake
  ends (if posted && !s.reachable inst then s
    else if !t.forwarding then t
    else t.hostAccess inst address length true posted (t.overCxl inst) data (.hostWindowStore inst address length posted data))

/-! ### At the exporting device (R274, R277, R278) -/

/-- A window response built and handed to transport (R278). -/
def State.windowRsp (s : State) (opcode dest inst sl : Nat) (w : WinF) (data : List Nat) : State :=
  let (pid, s) := s.newPid
  let carries := decide (opcode = 0x42)
  let payload := if carries then data.length else if opcode = 0x44 then 13 else 12
  let hdr : Hdr := { destDevice := dest, srcDevice := s.rte.deviceId, inst, sl, response := true, opcode, data := carries
                     payloadLength := payload }
  (s.emit (.window opcode dest inst w data)).handOver
    { pkt := { pid, hdr, fields := winFields w, payload := data }, len := pktLen hdr, input := inputFor opcode 0, op := none }

/-- Why a window request is refused (R274, R277): the reason of WERROR, or the extent that serves it. A request of an instance of this
device that is Resetting is refused with reason 3 (R416, DEDUCED 170). -/
def State.windowCheck (s : State) (device inst : Nat) (w : WinF) (write : Bool) : Except Nat Nat :=
  match s.pool.windows.find w.window with
  | none => .error 1
  | some x =>
    let k := w.offset / 2 ^ 28
    if x.size ≤ k || decide (2 ^ 28 < w.offset % 2 ^ 28 + w.length) then .error 2
    else match x.extents.find k with
      | none => .error 1
      | some h =>
        if x.key ≠ w.key || !x.access.contains (1024 * device + inst) || (write && x.readOnly) ||
            (device = s.rte.deviceId && (s.instance_ inst).state = .resetting) then .error 3
        else .ok h

/-- A window read served (R277, R278, R290). -/
def State.serveWread (s : State) (device inst sl : Nat) (w : WinF) : State :=
  match s.windowCheck device inst w false with
  | .error r => s.windowRsp 0x44 device inst sl w [r]
  | .ok h =>
    let bad := s.poisoned h (w.offset % 2 ^ 28) w.length
    s.windowRsp 0x42 device inst sl { w with poison := bad } (if bad then List.replicate w.length 0 else s.readExtent h (w.offset % 2 ^ 28) w.length)

/-- WREAD_ARRIVAL (R274, R277, R278). -/
def execWreadArrival (srcDevice srcInst sl : Nat) (w : WinF) (s : State) : Host.Outcome State Fault Refusal :=
  ends (if s.forwarding then s.serveWread srcDevice srcInst sl w else s)

/-- A window write served (R34, R277, R278). -/
def State.serveWwrite (s : State) (device inst sl : Nat) (w : WinF) (data : List Nat) : State :=
  match s.windowCheck device inst w true with
  | .error r => s.windowRsp 0x44 device inst sl w [r]
  | .ok h =>
    if (s.extent h).state = .poisoned then s.windowRsp 0x44 device inst sl w [4]
    else (s.writeExtent h (w.offset % 2 ^ 28) (data.take w.length)).windowRsp 0x43 device inst sl w []

/-- WWRITE_ARRIVAL (R274, R277, R278). -/
def execWwriteArrival (srcDevice srcInst sl : Nat) (w : WinF) (data : List Nat) (s : State) : Host.Outcome State Fault Refusal :=
  ends (if s.forwarding then s.serveWwrite srcDevice srcInst sl w data else s)

/-! ### Responses at the importing device (R278, R279) -/

/-- The request that a response answers, by instance, direction, window, key, offset and length (R278). -/
def answers (i : Nat) (w : WinF) (write : Option Bool) (r : WinReq) : Bool :=
  r.inst == i && r.w.window == w.window && r.w.key == w.key && r.w.offset == w.offset && r.w.length == w.length &&
    (match write with
     | none => true
     | some b => r.write == b)

/-- A response taken: the request leaves, and `f` says what its host is told (R278). -/
def State.windowDone (s : State) (i : Nat) (w : WinF) (write : Option Bool) (f : WinReq → State → State) : State :=
  match takeFirst (answers i w write) s.pool.winReqs with
  | none => s
  | some (r, rest) => (f r (s.upPool fun p => { p with winReqs := rest })).settleUnmap i (r.address / 2 ^ 28 % 16384)

/-- WREAD_DATA_ARRIVAL (R278, R279). -/
def execWreadDataArrival (inst : Nat) (w : WinF) (data : List Nat) (s : State) : Host.Outcome State Fault Refusal :=
  ends (if s.forwarding then s.windowDone inst w (some false) fun r s =>
      if w.poison then s.emit (.hostRsp inst (if r.cxl then 1 else 2) 4) else s.emit (.hostRsp inst 0 4 data)
    else s)

/-- WWRITE_DONE_ARRIVAL (R277, R278): the copy kept for resend is freed. -/
def execWwriteDoneArrival (inst : Nat) (w : WinF) (s : State) : Host.Outcome State Fault Refusal :=
  ends (if s.forwarding then s.windowDone inst w (some true) fun _ s => s else s)

/-- WERROR_ARRIVAL (R279): a load fails; a store is logged. -/
def execWerrorArrival (inst : Nat) (w : WinF) (reason : Nat) (s : State) : Host.Outcome State Fault Refusal :=
  ends (if s.forwarding then s.windowDone inst w none fun r s =>
      if r.write then s.post inst 0x06 reason (r.address / 2 ^ 28 % 16384) r.w.length r.address
      else s.emit (.hostRsp inst (if r.cxl then 1 else 2) 4)
    else s)

end Sys2Proof.Machine
end

