-- ==== Sys2Proof/Machine/EngCmds.lean ====
section
/-!
DEFINITION. The commands of the engines and of matching (R332 to R334, R344 to R346, R362, R369 to R375), and the
doorbells of an instance (R333, R334).
Where the spec leaves a point open: DESIGN CHOICE 80; DEDUCED 79, 81, 89 (notes/assumptions).
-/
namespace Sys2Proof.Machine

/-! ### Matching entries and heaps (R362, R373) -/

/-- Entries of an instance in its matching lists (R362): posted receives, and messages that are early or unexpected. -/
def State.entriesUsed (s : State) (i : Nat) (onDie : Bool) : Nat :=
  (s.mtc.posted.filter fun p => p.inst == i && p.onDie == onDie).length +
    (s.mtc.msgs.filter fun m => m.inst == i && m.taken.isNone && m.onDie == onDie).length

/-- Entries of every instance, on die or in HBM (R377). -/
def State.entriesAll (s : State) (onDie : Bool) : Nat :=
  (s.mtc.posted.filter fun p => p.onDie == onDie).length +
    (s.mtc.msgs.filter fun m => m.taken.isNone && m.onDie == onDie).length

/-- Entries on die that come from the shared pool (R362). -/
def State.sharedUsed (s : State) : Nat :=
  sumOf ((s.mtc.posted.map (·.inst) ++ s.mtc.msgs.map (·.inst)).dedup) fun i => s.entriesUsed i true - (s.engInst i).onDieReserve

/-- Entries of the shared on-die pool: what the reserves leave of 262,144 (R362, R377). -/
def State.sharedRoom (s : State) : Nat := 262144 - sumOf s.mec.inst fun e => e.2.onDieReserve

/-- Overflow entries in HBM (R292). -/
def State.overflowRoom (s : State) : Nat := 2097152 * s.pool.mtcUnits

/-- Where an instance's next entry goes (R362): on die, in HBM, or nowhere. -/
def State.entryPlace (s : State) (i : Nat) : Option Bool :=
  if s.entriesUsed i true < (s.engInst i).onDieReserve || decide (s.sharedUsed < s.sharedRoom) then some true
  else if s.entriesAll false < s.overflowRoom then some false
  else none

/-- Heap units of 2 MiB of the engine-heap region (R292, R373). -/
def State.heapUnitsAll (s : State) : Nat := 128 * s.pool.heapUnits

/-! ### Queues (R332, R336, R373, R374) -/

/-- A queue of a kind is created (R332). -/
def State.queueExists (s : State) (kind queue : Nat) : Bool :=
  match kind with
  | 0 => s.mec.sendQ.has queue
  | 1 => s.mec.recvQ.has queue
  | 2 => s.mec.compQ.has queue
  | _ => s.mec.eventQ.has queue

/-- The device limit of a queue kind is reached (R332). -/
def State.queueFull (s : State) (kind : Nat) : Bool :=
  match kind with
  | 0 => decide (16384 ≤ s.mec.sendQ.length)
  | 1 => decide (4096 ≤ s.mec.recvQ.length)
  | 2 => decide (16384 ≤ s.mec.compQ.length)
  | _ => decide (1024 ≤ s.mec.eventQ.length)

/-- Bytes of an entry of a queue kind (R332). -/
def entryBytes (kind : Nat) : Nat := if kind ≤ 1 then 64 else 32

/-- A parameter of QUEUE_CREATE is out of range (R332, R336, R373): those that the kind does not use are not read. -/
def queueBad (q : QueueP) : Bool :=
  decide (1023 < q.inst) || decide (3 < q.kind) || decide (16383 < q.queue) || outside 6 16 q.log2Size ||
    decide (2 ^ 64 ≤ q.base) || decide (q.base % (entryBytes q.kind * 2 ^ q.log2Size) ≠ 0) ||
    (decide (q.kind ≤ 1) && decide (16383 < q.cq)) ||
    (q.kind = 0 && (decide (127 < q.engine) || outside 1 255 q.weight || outside 1 512 q.maxOut)) ||
    (decide (2 ≤ q.kind) && decide (2047 < q.vector))

/-- The queue added (R332). -/
def State.addQueue (s : State) (q : QueueP) : State :=
  match q.kind with
  | 0 => (s.upMec fun m => { m with sendQ := m.sendQ.put q.queue {
      inst := q.inst, base := q.base, log2Size := q.log2Size, cq := q.cq, engine := q.engine, weight := q.weight
      maxOut := q.maxOut } }).wantDomain (q.engine / 8)
  | 1 => s.upMec fun m => { m with recvQ := m.recvQ.put q.queue {
      inst := q.inst, base := q.base, log2Size := q.log2Size, cq := q.cq } }
  | 2 => s.upMec fun m => { m with compQ := m.compQ.put q.queue {
      inst := q.inst, base := q.base, log2Size := q.log2Size, vector := q.vector } }
  | _ => s.upMec fun m => { m with eventQ := m.eventQ.put q.queue {
      inst := q.inst, base := q.base, log2Size := q.log2Size, vector := q.vector } }

/-- What QUEUE_CREATE does (R332, R336, R373). -/
def queueCreateBody (q : QueueP) (s : State) : HRes :=
  refuseIf [
    (queueBad q, 0x011C),
    (!s.enabled q.inst, 0x0301),
    (s.queueExists q.kind q.queue ||
      (decide (q.kind ≤ 1) && !((s.mec.compQ.find q.cq).any fun c => c.inst == q.inst)) ||
      (q.kind = 3 && (s.eventQueue q.inst).isSome), 0x031D),
    (q.kind = 0 && !s.engineTakes q.engine q.maxOut, 0x020F),
    (s.queueFull q.kind, 0x0210)] <|
  .ok (s.addQueue q)

/-- QUEUE_CREATE (R373). -/
def execQueueCreate (h : HlyHdr) (q : QueueP) (s : State) : Host.Outcome State Fault Refusal :=
  ends <| runHly (.queueCreate h q) 0x0901 h 0 0 (if q.kind = 0 then [.sendQueue q.queue] else []) (queueCreateBody q) s

/-- The held triggered descriptors of a queue complete with FLUSHED (R355, R374): one that has fired is flushed as it starts. -/
def State.flushTriggers (s : State) (q : Nat) : State :=
  let mine := s.mec.triggers.filter fun t => t.queue == q
  let cq := ((s.mec.sendQ.find q).map (·.cq)).getD 0
  mine.foldl (fun s t => s.putRecord cq 0x01 stFlushed q 0 t.d.wrId 0 0 0 0 0)
    (s.upMec fun m => { m with triggers := m.triggers.filter fun t => t.queue ≠ q })

/-- Posted receives of a queue that goes complete with FLUSHED (R371). -/
def State.flushPosted (s : State) (q : Nat) : State :=
  (s.mtc.posted.filter fun p => p.queue == q).foldl (fun s p => s.receiveRecord q stFlushed 0 p.d.wrId 0 0 0)
    (s.upMtc fun t => { t with posted := t.posted.filter fun p => p.queue ≠ q })

/-- What QUEUE_DESTROY does (R368, R373, R374). -/
def queueDestroyBody (kind queue : Nat) (s : State) : HRes :=
  refuseIf [
    (decide (3 < kind) || decide (16383 < queue), 0x011C),
    (!s.queueExists kind queue ||
      (kind = 2 && (s.mec.sendQ.any (fun q => q.2.cq == queue) || s.mec.recvQ.any fun q => q.2.cq == queue)), 0x031E)] <|
  match kind with
  | 0 =>
    let s := s.upMec fun m => match m.sendQ.find queue with
      | none => m
      | some x => { m with sendQ := m.sendQ.put queue { x with destroying := true } }
    .pend ((s.flushTriggers queue).abandonLocks queue) (.queueDestroy queue) [.sendQueue queue]
  | 1 =>
    let s := s.upMec fun m => match m.recvQ.find queue with
      | none => m
      | some x => { m with recvQ := m.recvQ.put queue { x with destroying := true } }
    .pend (s.flushPosted queue) (.queueDestroy (65536 + queue)) []
  | 2 => .ok <| s.upMec fun m => { m with compQ := m.compQ.del queue }
  | _ => .ok <| s.upMec fun m => { m with eventQ := m.eventQ.del queue }

/-- QUEUE_DESTROY (R373, R374): it completes once the queue's operations have finished. -/
def execQueueDestroy (h : HlyHdr) (kind queue : Nat) (s : State) : Host.Outcome State Fault Refusal :=
  ends <| runHly (.queueDestroy h kind queue) 0x0902 h 0 0 (if kind = 0 then [.sendQueue queue] else []) (queueDestroyBody kind queue) s

/-- What QUEUE_MOVE does (R336, R370, R373). -/
def queueMoveBody (queue engine : Nat) (s : State) : HRes :=
  match refuseIf [
    (decide (16383 < queue) || decide (127 < engine), 0x011C),
    (!s.mec.sendQ.has queue, 0x031E),
    ((s.mec.sendQ.find queue).any fun q => q.moving.isSome, 0x031F),
    (!s.engineTakes engine (((s.mec.sendQ.find queue).map (·.maxOut)).getD 0), 0x020F)] (.ok s) with
  | .done s _ _ _ =>
    let s := (s.moveQueue queue engine).wantDomain (engine / 8)
    if s.moveDone queue then .ok (s.finishMove queue) else .pend s (.queueMove queue) [.sendQueue queue]
  | r => r

/-- QUEUE_MOVE (R370, R373): a move in progress is answered with 0x031F. -/
def execQueueMove (h : HlyHdr) (queue engine : Nat) (s : State) : Host.Outcome State Fault Refusal :=
  ends <| runHly (.queueMove h queue engine) 0x0903 h 0 0 [] (queueMoveBody queue engine) s

/-- QUEUE_MOVE_FORWARD_DONE (R370): the old engine's count is 0. -/
def execQueueMoveForwardDone (queue : Nat) (s : State) : Host.Outcome State Fault Refusal :=
  ends (if ((s.mec.sendQ.find queue).any fun q => q.moving.isSome) && s.moveDone queue then s.finishMove queue else s)

/-- A queue that is in the error state (R373). -/
def State.queueInError (s : State) (kind queue : Nat) : Bool :=
  match kind with
  | 0 => (s.mec.sendQ.find queue).any (·.error)
  | 1 => (s.mec.recvQ.find queue).any (·.error)
  | _ => false

/-- What QUEUE_RESTART does (R372, R373, R376): a move in progress completes first. -/
def queueRestartBody (kind queue : Nat) (s : State) : HRes :=
  refuseIf [(!s.queueInError kind queue, 0x031E)] <|
  if kind = 0 && (s.mec.sendQ.find queue).any fun q => q.moving.isSome then .pend s (.queueMove queue) []
  else .ok (s.restartQueue kind queue)

/-- QUEUE_RESTART (R372, R373). -/
def execQueueRestart (h : HlyHdr) (kind queue : Nat) (s : State) : Host.Outcome State Fault Refusal :=
  ends <| runHly (.queueRestart h kind queue) 0x0904 h 0 0 [] (queueRestartBody kind queue) s

/-! ### Regions, quotas and settings (R345, R353, R373 to R375) -/

/-- A field of REGION_SET is out of range (R345, R373). -/
def State.regionBad (s : State) (r : RegionP) : Bool :=
  decide (65535 < r.region) || decide (1023 < r.inst) || decide (1 < r.kind) || decide (2 ^ 52 ≤ r.base) ||
    outside 1 16777216 r.length || decide (65535 < r.key) || decide (15 < r.rights) || decide (65535 < r.filterDevice) ||
    decide (65535 < r.filterMask) || (!r.filterAny && decide (1023 < r.filterInst)) ||
    (r.counterValid && decide ((s.engInst r.inst).counterCount ≤ r.counter))

/-- What REGION_SET does (R345, R373). -/
def regionSetBody (r : RegionP) (s : State) : HRes :=
  refuseIf [(s.regionBad r, 0x011C), (!s.enabled r.inst, 0x0301)] <|
  .ok <| s.upMec fun m => { m with regions := if r.valid then m.regions.put r.region r else m.regions.del r.region }

/-- REGION_SET (R345, R373, R374). -/
def execRegionSet (h : HlyHdr) (r : RegionP) (s : State) : Host.Outcome State Fault Refusal :=
  ends <| runHly (.regionSet h r) 0x0905 h 0 0 [.inst r.inst] (regionSetBody r) s

/-- Another instance's counters meet a range (R353). -/
def State.countersTaken (s : State) (i base count : Nat) : Bool :=
  s.mec.inst.any fun e => e.1 != i && decide (e.2.counterBase < base + count) && decide (base < e.2.counterBase + e.2.counterCount)

/-- What an instance uses of its quotas exceeds new ones (R362, R373): entries, heap, or a counter that a region, a trigger or a
member slot names. -/
def State.quotaBelow (s : State) (i count heap entries : Nat) : Bool :=
  let qs : Tbl SendQueue := s.mec.sendQ.filter fun q => q.2.inst == i
  decide (entries < s.entriesUsed i true + s.entriesUsed i false) || decide (8192 * heap < (s.engInst i).heapUsed) ||
    s.mec.regions.any (fun r => r.2.inst == i && r.2.counterValid && decide (count ≤ r.2.counter)) ||
    s.mec.triggers.any (fun t => qs.has t.queue && decide (count ≤ t.d.trigCounter)) ||
    s.rdx.groups.any fun g => g.2.p.members.any fun m => m.inst == i && decide (count ≤ m.arrivalCounter)

/-- What ENG_INSTANCE_SET does (R353, R362, R373, R374). -/
def engInstanceSetBody (inst base count heap entries reserve : Nat) (s : State) : HRes :=
  let others := s.mec.inst.filter fun e => e.1 != inst
  refuseIf [
    (decide (1023 < inst) || decide (16383 < base) || decide (4096 < count) || decide (16384 < base + count) ||
      decide (65535 < heap) || decide (2 ^ 27 ≤ entries) || decide (2 ^ 19 ≤ reserve), 0x011C),
    (!s.notFree inst, 0x0301),
    (s.countersTaken inst base count || decide (s.heapUnitsAll < heap + sumOf others fun e => e.2.heap) ||
      decide (262144 + s.overflowRoom < entries + sumOf others fun e => e.2.matchEntries) ||
      decide (262144 < reserve + sumOf others fun e => e.2.onDieReserve), 0x0212),
    (s.quotaBelow inst count heap entries, 0x0320)] <|
  .ok <| (s.upMec fun m => { m with inst := m.inst.upd inst {} fun e => { e with
    counterBase := base, counterCount := count, heap, matchEntries := entries, onDieReserve := reserve } }).fireTriggers

/-- ENG_INSTANCE_SET (R373, R374). -/
def execEngInstanceSet (h : HlyHdr) (inst counterBase counterCount heap matchEntries onDieReserve : Nat) (s : State) :
    Host.Outcome State Fault Refusal :=
  ends <| runHly (.engInstanceSet h inst counterBase counterCount heap matchEntries onDieReserve) 0x0906 h 0 0 [.inst inst]
    (engInstanceSetBody inst counterBase counterCount heap matchEntries onDieReserve) s

/-- What ENG_SET does (R373, R375). -/
def engSetBody (cm rnrDelay rnrLimit lockAge : Nat) (s : State) : HRes :=
  refuseIf [
    ((cmBit cm 0 && outside 1 1000 rnrDelay) || (cmBit cm 1 && decide (255 < rnrLimit)) || (cmBit cm 2 && outside 1 10000 lockAge),
      0x011D)] <|
  .ok <| s.upMec fun m => { m with
    rnrDelay := pick cm 0 rnrDelay m.rnrDelay, rnrLimit := pick cm 1 rnrLimit m.rnrLimit, lockAge := pick cm 2 lockAge m.lockAge }

/-- ENG_SET (R373, R375). -/
def execEngSet (h : HlyHdr) (cm rnrDelay rnrLimit lockAge : Nat) (s : State) : Host.Outcome State Fault Refusal :=
  ends <| runHly (.engSet h cm rnrDelay rnrLimit lockAge) 0x0907 h 0 0 [] (engSetBody cm rnrDelay rnrLimit lockAge) s

/-- LOCK_BREAK (R368, R373). -/
def execLockBreak (h : HlyHdr) (index : Nat) (s : State) : Host.Outcome State Fault Refusal :=
  ends <| runHly (.lockBreak h index) 0x0908 h 0 0 [] (fun s =>
    refuseIf [
      (decide (4095 < index), 0x011C),
      (!((s.locks.table.find index).any fun e => !e.abandoned), 0x0321)] (.ok (s.abandonLock index))) s

/-- The output of ENG_QUERY for a queue, 16 bytes (R595): zeros for a queue that is not created. -/
def State.queueImage (s : State) (kind q : Nat) : List Nat :=
  let row := fun (p c : Nat) (err mv : Bool) (gen slots engine inst lost : Nat) =>
    outBytes [(2, p), (2, c), (1, b2n err + 2 * b2n mv), (1, gen), (2, slots), (2, engine), (2, inst), (4, lost)]
  match kind with
  | 0 => match s.mec.sendQ.find q with
    | some x => row x.producer x.consumer x.error x.moving.isSome x.gen (s.queueSlots q) x.engine x.inst 0
    | none => row 0 0 false false 0 0 0 0 0
  | 1 => match s.mec.recvQ.find q with
    | some x => row x.producer x.consumer x.error false 0 0 0 x.inst 0
    | none => row 0 0 false false 0 0 0 0 0
  | 2 => match s.mec.compQ.find q with
    | some x => row x.producer x.consumer x.error false 0 0 0 x.inst 0
    | none => row 0 0 false false 0 0 0 0 0
  | _ => match s.mec.eventQ.find q with
    | some x => row x.producer x.consumer x.error false 0 0 0 x.inst (s.engInst x.inst).lost
    | none => row 0 0 false false 0 0 0 0 0

/-- Operation slots of an engine position in use (R330). -/
def State.engineSlots (s : State) (engine : Nat) : Nat := (s.mec.slots.filter fun x => x.1 / 512 == engine).length

/-- The output of ENG_QUERY for an engine, 8 bytes, and for an instance, 24 bytes (R595). -/
def State.engImage (s : State) (kind index : Nat) : List Nat :=
  if kind = 4 then
    outBytes [(2, (s.engineLoad index).2), (2, s.engineSlots index), (4, (s.mec.triggers.filter fun t => t.engine == index).length)]
  else
    let e := s.engInst index
    outBytes [(4, s.entriesUsed index true + s.entriesUsed index false), (4, s.entriesUsed index true), (4, e.heapUsed),
      (2, e.counterBase), (2, e.counterCount), (4, e.lost), (4, 0)]

/-- Output bytes of ENG_QUERY by kind (R595). -/
def engQueryLen (kind : Nat) : Nat := if kind ≤ 3 then 16 else if kind = 4 then 8 else 24

/-- ENG_QUERY (R373, R374, R595). -/
def execEngQuery (h : HlyHdr) (kind index : Nat) (s : State) : Host.Outcome State Fault Refusal :=
  ends <| runHly (.engQuery h kind index) 0x0909 h 0 (engQueryLen kind) [] (fun s =>
    refuseIf [
      (decide (5 < kind) || decide (16383 < index) || (kind = 4 && decide (127 < index)) || (kind = 5 && decide (1023 < index)), 0x011C),
      (kind = 5 && !s.notFree index, 0x0301)]
      (.data s (if kind ≤ 3 then s.queueImage kind index else s.engImage kind index))) s

/-! ### Doorbells (R333, R334, R409, R437) -/

/-- A doorbell that is ignored and counted (R334). -/
def State.ignoreDoorbell (s : State) (i : Nat) : State := (s.countIgnored i).tally (evt 14 0)

/-- A receive queue enters the error state (R334, R372). -/
def State.recvQueueError (s : State) (q status : Nat) : State :=
  match s.mec.recvQ.find q with
  | none => s
  | some x =>
    if x.error then s
    else (s.upMec fun m => { m with
      recvQ := m.recvQ.put q { x with error := true }, intStatus := setFlag m.intStatus 0 }).post x.inst 0x07 status q 0 0

/-- A doorbell takes effect only on an Enabled instance, and is ignored on another (R408, R409, R416); a waking one is held until forwarding resumes (R42). -/
def State.ring (s : State) (i : Nat) (f : State → State) : State :=
  if !s.reachable i then s
  else
    let s := s.wake
    if !s.forwarding || !s.enabled i then s else f s

/-- The new producer index of a send queue (R333, R334). -/
def State.sendDoorbell (s : State) (i q index : Nat) : State :=
  match s.mec.sendQ.find q with
  | none => s.ignoreDoorbell i
  | some x =>
    if x.inst ≠ i then s.ignoreDoorbell i
    else if 2 ^ x.log2Size < ringUsed index x.consumer then s.sendQueueError q stBadDescriptor
    else (s.upMec fun m => { m with sendQ := m.sendQ.put q { x with producer := index % 65536 } }).wantDomain (x.engine / 8)

/-- The new producer index of a receive queue (R333, R334). -/
def State.recvDoorbell (s : State) (i q index : Nat) : State :=
  match s.mec.recvQ.find q with
  | none => s.ignoreDoorbell i
  | some x =>
    if x.inst ≠ i then s.ignoreDoorbell i
    else if 2 ^ x.log2Size < ringUsed index x.consumer then s.recvQueueError q stBadDescriptor
    else s.upMec fun m => { m with recvQ := m.recvQ.put q { x with producer := index % 65536 } }

/-- A completion queue has room again (R343): what waited is written, and fetching resumes. -/
def State.resumeCq (s : State) (cq : Nat) : State :=
  let s := s.writeHeld cq (((s.mec.compQ.find cq).map fun r => r.held.length).getD 0)
  let s := if (s.mec.compQ.find cq).any fun r => !r.full then
      s.upMec fun m => { m with sendQ := m.sendQ.mapv fun q => if q.cq = cq then { q with stalled := false } else q }
    else s
  ((s.mec.sendQ.filter fun q => q.2.cq == cq).map (·.1)).foldl State.drainQueue s

/-- The new consumer index of a completion queue, or of the instance's event queue (R333, R343). -/
def State.compDoorbell (s : State) (i q index : Nat) (arm : Bool) : State :=
  match s.mec.compQ.find q, s.mec.eventQ.find q with
  | some x, _ =>
    if x.inst ≠ i then s.ignoreDoorbell i
    else (s.upMec fun m => { m with
      compQ := m.compQ.put q { x with consumer := index % 65536, armed := x.armed || arm } }).resumeCq q
  | none, some x =>
    -- R333 has no kind for an event queue: its consumer index comes by the kinds of a completion queue (DESIGN CHOICE)
    if x.inst ≠ i then s.ignoreDoorbell i
    else s.upMec fun m => { m with eventQ := m.eventQ.put q { x with consumer := index % 65536 } }
  | none, none => s.ignoreDoorbell i

/-- DOORBELL_SEND (R333, R334). -/
def execDoorbellSend (inst queue index : Nat) (s : State) : Host.Outcome State Fault Refusal :=
  ends (s.ring inst fun s => s.sendDoorbell inst queue index)

/-- DOORBELL_RECEIVE (R333, R334). -/
def execDoorbellReceive (inst queue index : Nat) (s : State) : Host.Outcome State Fault Refusal :=
  ends (s.ring inst fun s => s.recvDoorbell inst queue index)

/-- DOORBELL_COMPLETION (R333, R343). -/
def execDoorbellCompletion (inst queue index : Nat) (s : State) : Host.Outcome State Fault Refusal :=
  ends (s.ring inst fun s => s.compDoorbell inst queue index false)

/-- DOORBELL_COMPLETION_ARM (R333, R343). -/
def execDoorbellCompletionArm (inst queue index : Nat) (s : State) : Host.Outcome State Fault Refusal :=
  ends (s.ring inst fun s => s.compDoorbell inst queue index true)

end Sys2Proof.Machine
end

