-- ==== Sys2Proof/Machine/EngineOps.lean ====
section
/-!
DEFINITION. Send descriptors at the engine that issues them (R335 to R340, R348, R353 to R355, R359, R365): fetching,
checking and starting, and the packets that an operation sends.
Where the spec leaves a point open: DESIGN CHOICE 84; DEDUCED 82, 85, 86 (notes/assumptions).
-/
namespace Sys2Proof.Machine

/-! ### Local buffers (R335, R337, R470, R474) -/

/-- An engine position works: the datapath runs and its domain is On (R512). -/
def State.engineRuns (s : State) (engine : Nat) : Bool := s.forwarding && (s.domain (engine / 8)).state = .on

/-- Pages of the access of `n` bytes from an address. -/
def pagesOf (first n : Nat) : Nat := if n = 0 then 0 else (first + n - 1) / 4096 + 1 - first / 4096

/-- The access to a local buffer, as the engine position's protection unit sees it (R337, R470, R472). -/
def State.localAcc (s : State) (o : OpSlot) (kind offset n : Nat) : MpuAccess :=
  let first := (if o.d.localHeap then s.heapBase o.inst else 0) + o.d.localAddr + offset
  { master := o.opTag / 512, kind, privilege := 0, space := b2n o.d.localHeap, address := first, pageCount := pagesOf first n
    inst := o.inst }

/-- A local buffer may be used (R335, R371): it lies in the heap where it names the heap, and the protection unit allows it. -/
def State.localOk (s : State) (o : OpSlot) (kind offset n : Nat) : Bool × State :=
  if o.d.localHeap && decide (2097152 * (s.engInst o.inst).heap < o.d.localAddr + offset + n) then (false, s)
  else s.protect (s.localAcc o kind offset n)

/-- Bytes written to an operation's local buffer (R338). -/
def State.localWrite (s : State) (o : OpSlot) (offset : Nat) (data : List Nat) : State :=
  if o.d.localHeap then s.upPool fun p => { p with mem := memWrite p.mem (heapByte o.inst (o.d.localAddr + offset)) data }
  else s.hostWrite o.inst (o.d.localAddr + offset) data

/-- Bytes of an operation's local buffer in the heap. -/
def State.heapRead (s : State) (o : OpSlot) (offset n : Nat) : List Nat :=
  memRead s.pool.mem (heapByte o.inst (o.d.localAddr + offset)) n

/-! ### Fetching (R335, R336, R340, R343, R354, R355, R372) -/

/-- A descriptor is a BAD_DESCRIPTOR (R337 to R340, R348, R353): service level 7 is the policer's to refuse (R68). -/
def State.badDesc (s : State) (i : Nat) (d : Desc) : Bool :=
  let n := (s.engInst i).counterCount
  outside 1 9 d.op || (d.triggered && d.fence) || (d.flagged && d.multicast) || (d.multicast && decide (d.op ≠ 1)) ||
    ([1, 2, 5, 6].contains d.op && outside 1 1073741824 d.length) || (d.op = 4 && decide (1073741824 < d.length)) ||
    (d.op = 3 && decide (6 < d.aop)) || (d.doneValid && decide (n ≤ d.doneCounter)) ||
    ((d.triggered || d.op = 7 || d.op = 8) && decide (n ≤ d.trigCounter))

/-- The command that starts a descriptor's operation (R338). -/
def opCommand (q : Nat) (d : Desc) : Instr :=
  match d.op with
  | 1 => .put q d
  | 2 => .get q d
  | 3 => .atomic q d
  | 4 => .send q d
  | 5 => .lock q d
  | 6 => .unlock q d
  | 7 => .counterAdd q d
  | 8 => .counterSet q d
  | _ => .descNop q d

/-- The completion queue of a send queue has room (R343). -/
def State.cqRoom (s : State) (cq : Nat) : Bool := (s.mec.compQ.find cq).any fun c => !c.full && c.held.isEmpty

/-- An engine may fetch from a queue (R336, R343, R374, R416, R428): what has fired of the queue goes first (R354). -/
def State.fetchReady (s : State) (q : Nat) (x : SendQueue) : Bool :=
  s.engineRuns x.engine && s.enabled x.inst && !(s.instance_ x.inst).bmeHeld && !x.destroying &&
    x.producer != x.consumer && s.cqRoom x.cq && decide (s.queueSlots q < x.maxOut) && !(s.mec.triggers.any fun t => t.queue == q && t.fired)

/-- It is a queue's turn in the weighted round robin of its engine (R336). -/
def State.myTurn (s : State) (q : Nat) (x : SendQueue) : Bool :=
  decide (x.visits < x.weight) ||
    !(s.mec.sendQ.any fun e => e.1 != q && e.2.engine == x.engine && decide (e.2.visits < e.2.weight) && s.fetchReady e.1 e.2)

/-- A visit of the round robin: a round begins anew when the queue has had its weight (R336). -/
def State.countVisit (s : State) (q : Nat) (x : SendQueue) : State :=
  s.upMec fun m =>
    let all := if x.visits < x.weight then m.sendQ
      else m.sendQ.mapv fun e => if e.engine = x.engine then { e with visits := 0 } else e
    { m with sendQ := match all.find q with
        | none => all
        | some y => all.put q { y with visits := y.visits + 1 } }

/-- An operation slot taken by a descriptor (R330, R340): it waits to start, in order unless it was triggered. -/
def State.takeSlot (s : State) (q : Nat) (x : SendQueue) (engine : Nat) (d : Desc) (triggered : Bool) : Option (Nat × State) :=
  match s.freeSlot engine with
  | none => none
  | some tag =>
    let fired := (s.mec.slots.filter fun e => e.2.queue == q && e.2.triggered).map (·.1)
    some (tag, s.upMec fun m => { m with
      slots := m.slots.put tag {
        opTag := tag, queue := q, inst := x.inst, queueGen := x.gen, d, triggered, fenceOn := if d.fence then fired else [] }
      triggers := if d.fence then
          m.triggers.map fun t => if t.queue = q && t.fired then { t with fences := t.fences ++ [tag] } else t
        else m.triggers
      sendQ := m.sendQ.put q { x with
        issue := x.issue ++ [tag], order := if triggered then x.order else x.order ++ [tag] } })

/-- An operation that is not started leaves the list of those that wait to start. -/
def State.unqueue (s : State) (q tag : Nat) : State :=
  s.upMec fun m => match m.sendQ.find q with
    | none => m
    | some x => { m with sendQ := m.sendQ.put q { x with issue := x.issue.filter (· ≠ tag) } }

/-- An operation ends before it starts: with 0x20 or 0x21 its queue enters the error state, and what waits to start behind it
completes with FLUSHED (R372). -/
def State.failStart (s : State) (q tag status : Nat) : State :=
  let later := (((s.mec.sendQ.find q).map (·.issue)).getD []).dropWhile (· ≠ tag)
  let s := (s.unqueue q tag).finishOp tag status 0
  if status = stProtection || status = stBadDescriptor then
    (later.drop 1).foldl (fun s t => (s.unqueue q t).finishOp t stFlushed 0) (s.sendQueueError q status)
  else s

/-- A descriptor taken from the ring (R340, R354, R355, R372). -/
def State.takeDesc (s : State) (q : Nat) (x : SendQueue) (d : Desc) : State :=
  let next := { x with consumer := (x.consumer + 1) % 65536, stalled := false }
  let bad := s.badDesc x.inst d
  if d.triggered && !x.error && !bad then
    if decide (8192 ≤ (s.mec.triggers.filter fun t => t.engine == x.engine).length) then
      if x.stalled then s
      else (s.upMec fun m => { m with
        sendQ := m.sendQ.put q { x with stalled := true }, intStatus := setFlag m.intStatus 3 }).post x.inst 0x0B 0 q 0 0
    else
      (s.upMec fun m => { m with
        sendQ := m.sendQ.put q next, triggers := m.triggers ++ [{ engine := x.engine, queue := q, d }] }).fireTriggers
  else match s.takeSlot q next x.engine d false with
    | none => s
    | some (tag, s) =>
      if x.error then s.failStart q tag stFlushed
      else if bad then s.failStart q tag stBadDescriptor
      else { s with waiting := s.waiting ++ [opCommand q d] }

/-- A descriptor fetched (R335, R336): the ring must lie in a region that grants execute to the tenant chain. -/
def State.fetchDesc (s : State) (q : Nat) (d : Desc) (readOk : Bool) : State :=
  match s.mec.sendQ.find q with
  | none => s
  | some x =>
    if !s.fetchReady q x || !s.myTurn q x then s
    else
      let s := s.countVisit q x
      let first := x.base + 64 * (x.consumer % 2 ^ x.log2Size)
      match s.protect { master := x.engine, kind := 2, privilege := 0, space := 0, address := first, pageCount := 1, inst := x.inst } with
      | (false, s) => s.sendQueueError q stProtection
      | (true, s) =>
        if !readOk then s.sendQueueError q stPoisoned
        else match s.mec.sendQ.find q with
          | none => s
          | some x => s.takeDesc q x d

/-- The send descriptor that 512 bits of a ring spell (R337): reserved bits are ignored (R15). -/
def sendDescOf (v : Nat) : Desc :=
  { op := bitsOf v 7 0, signalled := v.testBit 8, fence := v.testBit 9, flagged := v.testBit 10, bestEffort := v.testBit 11
    triggered := v.testBit 12, multicast := v.testBit 13, sl := bitsOf v 18 16, localHeap := v.testBit 19, aop := bitsOf v 23 20
    size16 := v.testBit 24, length := bitsOf v 63 32, wrId := bitsOf v 127 64, localAddr := bitsOf v 191 128
    destDevice := bitsOf v 207 192, destEndpoint := bitsOf v 211 208, destInst := bitsOf v 221 212, trigCounter := bitsOf v 235 224
    doneCounter := bitsOf v 247 236, doneValid := v.testBit 248, trigThreshold := bitsOf v 287 256, region := bitsOf v 303 288
    key := bitsOf v 319 304, remoteOffset := bitsOf v 355 320, context := bitsOf v 375 356, operandA := bitsOf v 447 384
    operandB := bitsOf v 511 448 }

/-- DESCRIPTOR_FETCH (R335 to R337, R340, R343, R354, R372). -/
def execDescriptorFetch (queue bits : Nat) (readOk : Bool) (s : State) : Host.Outcome State Fault Refusal :=
  ends (s.fetchDesc queue (sendDescOf bits) readOk)

/-- A trigger may start: it has fired, and its queue and engine have a slot for it (R336, R354). -/
def State.canFire (s : State) (engine : Nat) (t : Trigger) : Bool :=
  t.engine == engine && t.fired && (s.mec.sendQ.find t.queue).all fun x =>
    s.engineRuns engine && s.enabled x.inst && decide (s.queueSlots t.queue < x.maxOut)

/-- The first trigger that may start does so, in the order of insertion (R354): it takes a slot of its engine and completes in its own
turn. -/
def State.fireTrigger (s : State) (engine : Nat) : State :=
  match takeFirst (s.canFire engine) s.mec.triggers with
  | none => s
  | some (t, rest) =>
    match s.mec.sendQ.find t.queue with
    | none => s.upMec fun m => { m with triggers := rest }
    | some x =>
      match s.takeSlot t.queue x engine t.d true with
      | none => s
      | some (tag, s) =>
        let s := s.upMec fun m => { m with
          triggers := rest
          slots := m.slots.mapv fun o => if t.fences.contains o.opTag then { o with fenceOn := o.fenceOn ++ [tag] } else o }
        if x.error then s.failStart t.queue tag stFlushed else { s with waiting := s.waiting ++ [opCommand t.queue t.d] }

/-- TRIGGER_FIRE (R354). -/
def execTriggerFire (engine : Nat) (s : State) : Host.Outcome State Fault Refusal := ends (s.fireTrigger engine)

/-! ### Starting an operation (R338 to R340) -/

/-- The oldest operation of a queue that waits to start with this descriptor. -/
def State.startTag (s : State) (q : Nat) (d : Desc) : Option Nat :=
  (s.mec.sendQ.find q).bind fun x => x.issue.find? fun tag => (s.slot tag).any fun o => o.d == d

/-- A fence holds its operation back (R340). -/
def State.fenced (s : State) (x : SendQueue) (tag : Nat) (o : OpSlot) : Bool :=
  o.d.fence && (x.order.head? != some tag || !o.fenceOn.isEmpty || s.mec.triggers.any fun t => t.fences.contains tag)

/-- An operation starts (R338, R340), unless a fence or a sleeping engine holds it: it is then tried again. -/
def State.startOp (s : State) (q : Nat) (d : Desc) (op : Nat) (f : OpSlot → State → State) : State :=
  match s.startTag q d, s.mec.sendQ.find q with
  | some tag, some x =>
    match s.slot tag with
    | none => s
    | some o =>
      if d.op ≠ op then s
      else if !s.engineRuns (tag / 512) || s.fenced x tag o then { s with waiting := s.waiting ++ [opCommand q d] }
      else f o (s.unqueue q tag)
  | _, _ => s

/-- The local buffer is checked before the operation runs (R335, R371). -/
def State.withLocal (s : State) (o : OpSlot) (kind offset n : Nat) (f : State → State) : State :=
  match s.localOk o kind offset n with
  | (true, s) => f s
  | (false, s) => s.failStart o.queue o.opTag stProtection

/-! ### Packets of an operation (R64, R168, R179, R339, R351, R352) -/

/-- The header of a packet that an operation sends (R337, R339, R351). -/
def State.opHdr (s : State) (o : OpSlot) (opcode payload : Nat) (data last : Bool) : Hdr :=
  { destDevice := o.d.destDevice, destEndpoint := o.d.destEndpoint, srcDevice := s.rte.deviceId, inst := o.inst, sl := o.d.sl
    flagged := o.d.flagged && last && decide (o.d.sl ≠ 7), opcode, data, multicast := o.d.multicast, payloadLength := payload }

/-- A packet of an operation put on its way (R178, R197): multicast and management packets outside transport's care. -/
def State.launch (s : State) (o : OpSlot) (p : SentPkt) : State :=
  if o.d.multicast || o.d.sl = 7 then
    if p.policed then s.inject p.pkt p.len p.input false none
    else match s.police p.pkt.hdr p.len false p.preYellow with
      | (.send h _, s) => s.inject { p.pkt with hdr := h } p.len p.input false none
      | (_, s) => s.edgeWait p.pkt p.len p.input p.preYellow
  else (s.upSlot o.opTag fun x => { x with unacked := x.unacked + 1 }).handOver { p with op := some o.opTag }

/-- A packet of an operation built and sent (R64, R168, R351): the first decides admission, and a packet without a route ends the
operation. -/
def State.sendOp (s : State) (o : OpSlot) (opcode payload : Nat) (carries : Bool) (fields data : List Nat) (first last : Bool)
    (src : Option Source := none) : State :=
  let h := s.opHdr o opcode payload carries last
  let h := if o.d.multicast then { h with seq := s.trn.mcNext } else h
  let len := pktLen h
  let input := inputFor opcode (o.opTag / 4096)
  if !o.d.multicast && s.noRoute h input none then s.finishOp o.opTag stNoRoute 0
  else
    let go := fun (s : State) (h : Hdr) (deadline : Nat) (policed : Bool) =>
      let (pid, s) := s.newPid
      let s := if o.d.multicast then s.upTrn fun t => { t with mcNext := (t.mcNext + 1) % 2 ^ 24 } else s
      (s.emit (.engReq opcode o.d.destDevice o.inst o.opTag (s.instance_ o.inst).gen fields data)).launch o {
        pkt := { pid, hdr := h, fields := o.opTag :: (s.instance_ o.inst).gen :: fields, payload := data }, len, input
        op := none, deadline, policed, preYellow := o.d.bestEffort, src }
    if first && !o.admitted then match s.police h len true o.d.bestEffort with
      | (.send h deadline, s) => go (s.upSlot o.opTag fun x => { x with admitted := true }) h deadline true
      | (.refuse reason retry, s) =>
        (s.upSlot o.opTag fun x => { x with refusal := reason, retryAfter := retry }).finishOp o.opTag stRefused 0
      | (.wait, s) => s
    else go s h 0 false

/-- The access fields of an operation (R352). -/
def accessFields (o : OpSlot) (offset : Nat) : List Nat := [o.d.region, o.d.key, o.d.remoteOffset + offset]

/-- A part of a PUT or of an eager message sent (R339, R352, R359, R360): the first packet of a message begins with its header. -/
def State.sendPart (s : State) (o : OpSlot) (opcode offset : Nat) (data : List Nat) (src : Option Source := none) : State :=
  let last := decide (o.d.length ≤ offset + data.length)
  if opcode = 0x00 then s.sendOp o opcode data.length true (accessFields o offset) data (offset = 0) last src
  else
    s.sendOp o opcode (data.length + if offset = 0 then 24 else 0) true [o.d.destInst, o.d.context, o.msn, offset]
      (if offset = 0 then bytesLE 24 (packBits [(o.d.operandA, 64), (o.d.length, 31), (0, 1)]) ++ data else data) (offset = 0) last src

/-- The operation goes on: it has no result yet. -/
def State.unresolved (s : State) (tag : Nat) : Bool := (s.slot tag).any fun o => o.result.isNone

/-- Where `n` bytes of an operation's local buffer lie in the heap (R226). -/
def OpSlot.heapSource (o : OpSlot) (offset n : Nat) : Source :=
  { inst := o.inst, address := heapByte o.inst (o.d.localAddr + offset), length := n, master := o.opTag / 512, heap := true }

/-- Parts of a PUT or of an eager message that lie in the heap, sent one after another (R339, R359). -/
def State.sendHeap (s : State) (o : OpSlot) (opcode offset : Nat) : Nat → State
  | 0 => s
  | fuel + 1 =>
    if !s.unresolved o.opTag || decide (o.d.length ≤ offset) then s
    else
      let n := min (o.d.length - offset) (if opcode = 0x05 && offset = 0 then 4072 else 4096)
      (s.sendPart o opcode offset (s.heapRead o offset n) (some (o.heapSource offset n))).sendHeap o opcode (offset + n) fuel

/-- The requester's fields of an operation of this device. -/
def State.ownReq (s : State) (o : OpSlot) : Req :=
  { srcDevice := s.rte.deviceId, srcInst := o.inst, srcQueue := o.queue, opTag := o.opTag, instGen := (s.instance_ o.inst).gen, sl := o.d.sl }

/-- The data of a PUT or of an eager message: from the heap at once, from host memory as its reads complete (R338, R339). -/
def State.sendData_ (s : State) (o : OpSlot) (opcode : Nat) : State :=
  if o.d.localHeap then s.sendHeap o opcode 0 (ceilDiv o.d.length 4096 + 1)
  else s.issueRead {
    inst := o.inst, req := s.ownReq o, opcode, address := o.d.localAddr, offset := 0, left := o.d.length
    master := o.opTag / 512, slot := some o.opTag }

/-! ### The operations of R338 -/

/-- PUT starts (R338, R339, R168): a multicast one needs its tree here. -/
def State.startPut (s : State) (o : OpSlot) : State :=
  s.withLocal o 0 0 o.d.length fun s =>
    if o.d.multicast then
      if (s.tree o.d.destDevice).isNone then s.finishOp o.opTag stNoRoute 0
      else (s.upSlot o.opTag fun x => { x with msn := s.trn.mcNext, unacked := ceilDiv o.d.length 4096 }).sendData_ { o with msn := s.trn.mcNext } 0x00
    else s.sendData_ o 0x00

/-- PUT (R338, R339). -/
def execPut (queue : Nat) (d : Desc) (s : State) : Host.Outcome State Fault Refusal :=
  ends (s.startOp queue d 1 fun o s => s.startPut o)

/-- GET (R338). -/
def execGet (queue : Nat) (d : Desc) (s : State) : Host.Outcome State Fault Refusal :=
  ends (s.startOp queue d 2 fun o s =>
    s.withLocal o 1 0 o.d.length fun s =>
      s.sendOp o 0x01 15 false (accessFields o 0) (bytesLE 4 o.d.length) true true)

/-- The atomic's packet, with its operands (R348, R351). -/
def State.sendAtomic (s : State) (o : OpSlot) (a b : Nat) (src : Option Source := none) : State :=
  let n := if o.d.size16 then 16 else 8
  s.sendOp o 0x02 (12 + 2 * n) false (accessFields o 0) ((o.d.aop + 16 * b2n o.d.size16) :: (bytesLE n a ++ bytesLE n b)) true true src

/-- ATOMIC starts (R338, R348): the operands of 16 bytes are read from the local buffer. -/
def State.startAtomic (s : State) (o : OpSlot) : State :=
  if o.d.size16 then
    s.withLocal o 0 0 32 fun s => s.withLocal o 1 32 16 fun s =>
      if o.d.localHeap then s.sendAtomic o (ofBytesLE (s.heapRead o 0 16)) (ofBytesLE (s.heapRead o 16 16)) (some (o.heapSource 0 32))
      else s.issueRead {
        inst := o.inst, req := s.ownReq o, opcode := 0x02, address := o.d.localAddr, offset := 0, left := 32
        master := o.opTag / 512, slot := some o.opTag }
  else s.withLocal o 1 0 8 fun s => s.sendAtomic o o.d.operandA o.d.operandB

/-- ATOMIC (R338, R348). -/
def execAtomic (queue : Nat) (d : Desc) (s : State) : Host.Outcome State Fault Refusal :=
  ends (s.startOp queue d 3 fun o s => s.startAtomic o)

/-- The stream of an operation's packets (R178). -/
def opStream (o : OpSlot) : CtxKey := { peer := o.d.destDevice, inst := o.inst, cls := 0 }

/-- The next message number of a stream, which opens when it is not held (R219, R359). -/
def State.takeMsn (s : State) (k : CtxKey) (sl : Nat) : Nat × State :=
  let s := if (s.sendCtx k).isSome then s else s.openSend k sl
  (((s.sendCtx k).map (·.nextMsn)).getD 0, s.upSend k fun c => { c with nextMsn := (c.nextMsn + 1) % 65536 })

/-- A message sent, or sent again with its number (R359, R360, R363): eager up to 16,384 bytes, else by rendezvous; a
stand-in is a message of no bytes with match bits 0. -/
def State.sendMessage (s : State) (o : OpSlot) : State :=
  if o.standIn.isSome then
    s.sendPart { o with d := { o.d with length := 0, operandA := 0 } } 0x05 0 []
  else if 16384 < o.d.length then
    s.sendOp o 0x06 35 false [o.d.destInst, o.d.context, o.msn, 0] (bytesLE 24 (packBits [(o.d.operandA, 64), (o.d.length, 31), (1, 1)])) true true
  else if o.d.length = 0 then s.sendPart o 0x05 0 []
  else s.sendData_ o 0x05

/-- SEND starts (R338, R359). -/
def State.startMessage (s : State) (o : OpSlot) : State :=
  s.withLocal o 0 0 o.d.length fun s =>
    let (msn, s) := s.takeMsn (opStream o) o.d.sl
    (s.upSlot o.opTag fun x => { x with msn }).sendMessage { o with msn }

/-- SEND (R338, R359, R360). -/
def execSend (queue : Nat) (d : Desc) (s : State) : Host.Outcome State Fault Refusal :=
  ends (s.startOp queue d 4 fun o s => s.startMessage o)

/-- Locks that a queue holds, and LOCKs of it on their way (R365, R366). -/
def State.queueLocks (s : State) (q tag : Nat) : Nat :=
  (((s.mec.sendQ.find q).map fun x => x.locks.length).getD 0) +
    (s.mec.slots.filter fun e => e.2.queue == q && e.2.d.op == 5 && e.1 != tag && e.2.unacked != 0 && e.2.result.isNone).length

/-- LOCK starts (R338, R365, R366). R351 gives the packet a mode and R337 no field that says which: it is a free value. -/
def State.startLock (s : State) (o : OpSlot) : State :=
  if 8 ≤ s.queueLocks o.queue o.opTag then s.finishOp o.opTag stLockLimit 0
  else
    let (mode, s) := s.fresh
    s.sendOp o 0x03 16 false (accessFields o 0) (bytesLE 4 o.d.length ++ [mode % 2]) true true

/-- LOCK (R338, R365, R366). -/
def execLock (queue : Nat) (d : Desc) (s : State) : Host.Outcome State Fault Refusal :=
  ends (s.startOp queue d 5 fun o s => s.startLock o)

/-- UNLOCK (R338, R367). -/
def execUnlock (queue : Nat) (d : Desc) (s : State) : Host.Outcome State Fault Refusal :=
  ends (s.startOp queue d 6 fun o s => s.sendOp o 0x04 15 false (accessFields o 0) (bytesLE 4 o.d.length) true true)

/-- COUNTER_ADD (R338, R353). -/
def execCounterAdd (queue : Nat) (d : Desc) (s : State) : Host.Outcome State Fault Refusal :=
  ends (s.startOp queue d 7 fun o s =>
    match s.counterIx o.inst o.d.trigCounter with
    | some c => (s.addCounter c o.d.operandA).finishOp o.opTag stSuccess 0
    | none => s.failStart o.queue o.opTag stBadDescriptor)

/-- COUNTER_SET (R338, R353). -/
def execCounterSet (queue : Nat) (d : Desc) (s : State) : Host.Outcome State Fault Refusal :=
  ends (s.startOp queue d 8 fun o s =>
    match s.counterIx o.inst o.d.trigCounter with
    | some c => (s.setCounter c o.d.operandA).finishOp o.opTag stSuccess 0
    | none => s.failStart o.queue o.opTag stBadDescriptor)

/-- The descriptor operation NOP (R338). -/
def execDescNop (queue : Nat) (d : Desc) (s : State) : Host.Outcome State Fault Refusal :=
  ends (s.startOp queue d 9 fun o s => s.finishOp o.opTag stSuccess 0)

/-! ### Refused messages (R363, R375) -/

/-- An earlier refused message of a stream waits to be sent again (R363). -/
def State.earlierRefused (s : State) (o : OpSlot) : Bool :=
  s.mec.slots.any fun e => e.2.rnrWait && opStream e.2 == opStream o && e.1 != o.opTag && decide (0 < modSub 65536 o.msn e.2.msn) &&
    decide (modSub 65536 o.msn e.2.msn < 32768)

/-- RNR_DELAY_EXPIRY (R363, R375): a refused message is sent again whole, in msn order. -/
def execRnrDelayExpiry (opTag : Nat) (s : State) : Host.Outcome State Fault Refusal :=
  ends (match s.slot opTag with
    | none => s
    | some o =>
      if !o.rnrWait || !s.forwarding then s
      else if s.earlierRefused o then { s with waiting := s.waiting ++ [.rnrDelayExpiry opTag] }
      else (s.upSlot opTag fun x => { x with rnrWait := false }).sendMessage o)

/-! ### Locks too long held (R369) -/

/-- LOCK_AGE_EXPIRY (R369). -/
def execLockAgeExpiry (index : Nat) (s : State) : Host.Outcome State Fault Refusal :=
  ends (match s.locks.table.find index with
    | none => s
    | some e =>
      if e.abandoned || e.reported || !s.forwarding then s
      else
        let owner := ((s.region e.region).map (·.inst)).getD 0
        let s := (s.upLocks fun l => { l with table := l.table.put index { e with reported := true } }).upMec fun m => { m with
          intStatus := setFlag m.intStatus 2 }
        (s.raise 896 (.inst owner)).post owner 0x0A 0 index 0 0)

end Sys2Proof.Machine
end

