-- ==== Sys2Proof/Machine/EngineArrivals.lean ====
section
/-!
DEFINITION. What arrives at the engines: requests served at the destination (R346 to R349, R366 to R368), the reads of host
memory that return (R347, R416, R477), and the responses that end an operation (R338, R352, R361, R363, R366).
Where the spec leaves a point open: DEDUCED 88, 90, 91, 92, 95 (notes/assumptions).
-/
namespace Sys2Proof.Machine

/-! ### One-sided requests (R346 to R349) -/

/-- What names a PUT at its destination (R352). -/
def putName (r : Req) : Nat × Nat × Nat × Nat := (r.srcDevice, r.srcInst, r.opTag, r.instGen)

/-- A packet of a PUT that was refused is discarded; nothing is kept of the PUT after its last (R346). -/
def State.dropPut (s : State) (r : Req) (last : Bool) : State :=
  s.upMec fun m => { m with refusedPuts := if last then m.refusedPuts.filter (· ≠ putName r) else addOnce m.refusedPuts (putName r) }

/-- A packet of a PUT refused (R346): the PUT is answered with one ENG_ERROR, and completes by it alone. -/
def State.refusePut (s : State) (r : Req) (a : Access) (last : Bool) (status : Nat) : State :=
  (if s.mec.refusedPuts.contains (putName r) then s else s.engError r (clusterOf a) status).dropPut r last

/-- PUT_ARRIVAL (R346, R347, R367): one packet of a PUT. -/
def execPutArrival (r : Req) (a : Access) (data : List Nat) (last : Bool) (s : State) : Host.Outcome State Fault Refusal :=
  ends (if !s.forwarding then s
    else match s.guard r { a with length := data.length } 1 1 with
      | (.error st, s) => s.refusePut r a last st
      | (.ok g, s) =>
        if s.mec.refusedPuts.contains (putName r) then s.dropPut r last
        else if s.heldByOther (ownerOf r) a.region a.offset data.length && decide (4096 ≤ s.locks.waits.length) then
          s.refusePut r a last stLockBusy
        else (s.engineBusy g.inst).behindLock g r { a with length := data.length } (.putArrival r a data last) fun s =>
          s.servePut g r a data last)

/-- GET_ARRIVAL (R346, R347, R367): `poison` is what a read of the heap returns. -/
def execGetArrival (r : Req) (a : Access) (poison : Bool) (s : State) : Host.Outcome State Fault Refusal :=
  ends (if !s.forwarding then s
    else s.checked r a 0 0 fun g s => s.behindLock g r a (.getArrival r a poison) fun s => s.serveGet g r a poison)

/-- ATOMIC_ARRIVAL (R346, R348, R367): `old` is what a read of host memory returns. -/
def execAtomicArrival (r : Req) (a : Access) (aop : Nat) (size16 : Bool) (opA opB old : Nat) (s : State) :
    Host.Outcome State Fault Refusal :=
  ends (if !s.forwarding then s
    else
      let a := { a with length := atomicSize size16 }
      s.checked r a 2 1 fun g s =>
        s.behindLock g r a (.atomicArrival r a aop size16 opA opB old) fun s => s.serveAtomic g r a aop size16 opA opB old)

/-- LOCK_ARRIVAL (R366). -/
def execLockArrival (r : Req) (a : Access) (wait : Bool) (s : State) : Host.Outcome State Fault Refusal :=
  ends (if !s.forwarding then s else s.checkedLock r a fun g s => s.serveLock g r a wait (.lockArrival r a wait))

/-- UNLOCK_ARRIVAL (R367). -/
def execUnlockArrival (r : Req) (a : Access) (s : State) : Host.Outcome State Fault Refusal :=
  ends (if !s.forwarding then s else s.checkedLock r a fun _ s => s.serveUnlock r a)

/-- LOCK_ABANDON_ARRIVAL (R368). -/
def execLockAbandonArrival (r : Req) (queue : Nat) (s : State) : Host.Outcome State Fault Refusal :=
  ends (if !s.forwarding then s else s.abandonOwner { device := r.srcDevice, inst := r.srcInst, queue })

/-! ### Reads of host memory that return (R347, R416, R477) -/

/-- A read is outstanding no more (R414, R477). -/
def State.readDone (s : State) (tag : Nat) (i : Nat) : State :=
  let s := s.upInst i fun n => { n with reads := n.reads.filter (· ≠ tag) }
  (s.upMec fun m => { m with reads := m.reads.del tag }).upMpu fun u => { u with
    masters := u.masters.mapv fun m => { m with reads := m.reads.filter (· ≠ tag) } }

/-- The next part of a read (R347). -/
def PendRead.next (p : PendRead) : PendRead :=
  { p with address := p.address + p.part, offset := p.offset + p.part, left := p.left - p.part }

/-- The part read was not the last. -/
def PendRead.more (p : PendRead) : Bool := decide (p.part < p.left)

/-- The rest of a GET: after D of a reset it is answered REMOTE_INSTANCE (R416). -/
def State.getRest (s : State) (p : PendRead) : State :=
  if !p.more then s
  else if !s.enabled p.inst && (s.instance_ p.inst).phase ≠ .draining then s.engError p.req p.cluster stRemoteInstance
  else s.issueRead p.next

/-- Data of a GET or an RGET: sent on to the requester, which poison answers instead (R347, R361). -/
def State.serveRead (s : State) (p : PendRead) (values : List Nat) (bad : Bool) : State :=
  if bad then
    let s := s.engError p.req p.cluster stPoisoned
    match p.slot with
    | none => s
    | some tag => s.finishOp tag stPoisoned 0
  else (s.sendData p.req p.opcode p.inst p.cluster p.offset p.source (values.take p.part)).getRest p

/-- Data of an operation of this device: it becomes a packet of it (R338, R339, R348). -/
def State.feedOp (s : State) (p : PendRead) (o : OpSlot) (values : List Nat) (bad : Bool) : State :=
  if o.result.isSome then s
  else if bad then s.finishOp o.opTag stPoisoned 0
  else if p.opcode = 0x02 then s.sendAtomic o (ofBytesLE (values.take 16)) (ofBytesLE ((values.drop 16).take 16)) (some p.source)
  else
    let s := s.sendPart o p.opcode p.offset (values.take p.part) (some p.source)
    if p.more && s.unresolved o.opTag then s.issueRead p.next else s

/-- A read of host memory has returned: one that nothing waits for is discarded (R416). -/
def State.readReturns (s : State) (tag : Nat) (values : List Nat) (bad : Bool) : State :=
  match s.mec.reads.find tag with
  | none =>
    let held := (s.ins.inst.filter fun e => e.2.reads.contains tag).map (·.1)
    held.foldl (fun s i => s.readDone tag i) s
  | some p =>
    let s := s.readDone tag p.inst
    if let some k := p.again then s.rereadDone k tag values bad
    else if p.opcode = 0x11 || p.opcode = 0x16 then s.serveRead p values bad
    else match p.slot.bind s.slot with
      | none => s
      | some o => s.feedOp p o values bad

/-- HOST_READ_COMPLETION (R347, R416, R477). -/
def execHostReadCompletion (tag : Nat) (values : List Nat) (error poison : Bool) (s : State) : Host.Outcome State Fault Refusal :=
  ends (s.readReturns tag values (error || poison))

/-- HOST_COMPLETION_TIMEOUT (R416, R477): the read ends without data. -/
def execHostCompletionTimeout (tag : Nat) (s : State) : Host.Outcome State Fault Refusal :=
  ends (s.readReturns tag [] true)

/-! ### Responses (R338, R352) -/

/-- The slot that a response names: it is discarded when its generation is not the current one (R352, R410), or the slot
does not hold an operation of that instance. -/
def State.rspSlot (s : State) (r : Rsp) : Option OpSlot :=
  if r.instGen = (s.instance_ r.inst).gen then (s.slot r.opTag).filter fun o => o.inst == r.inst else none

/-- A response acts on the operation that it names, of one of these kinds (R338); another one is discarded. -/
def State.answered (s : State) (r : Rsp) (ops : List Nat) (f : OpSlot → State → State) : State :=
  if !s.forwarding then s
  else match s.rspSlot r with
    | none => s
    | some o => if ops.contains o.d.op && !o.isRget && (o.result.isNone || o.standIn.isSome) then f o s else s

/-- PUT_ACK_ARRIVAL (R338). -/
def execPutAckArrival (r : Rsp) (s : State) : Host.Outcome State Fault Refusal :=
  ends (s.answered r [1] fun o s => s.finishOp o.opTag r.status o.d.length)

/-- GET_DATA_ARRIVAL (R338, R347): the last data written completes the GET. -/
def execGetDataArrival (r : Rsp) (data : List Nat) (s : State) : Host.Outcome State Fault Refusal :=
  ends (s.answered r [2] fun o s =>
    let s := (s.localWrite o r.dataOffset data).upSlot o.opTag fun x => { x with bytes := x.bytes + data.length }
    if o.d.length ≤ o.bytes + data.length then s.finishOp o.opTag stSuccess o.d.length else s)

/-- ATOMIC_RESULT_ARRIVAL (R338, R348): the old value goes to local_addr, or 32 bytes beyond it for 16 bytes. -/
def execAtomicResultArrival (r : Rsp) (old : Nat) (s : State) : Host.Outcome State Fault Refusal :=
  ends (s.answered r [3] fun o s =>
    let n := atomicSize o.d.size16
    (s.localWrite o (if o.d.size16 then 32 else 0) (bytesLE n old)).finishOp o.opTag r.status n)

/-- LOCK_RESULT_ARRIVAL (R338, R365, R366, R368): the source records where a lock is held; one that comes to a queue which gives
up its locks is abandoned. -/
def execLockResultArrival (r : Rsp) (lockIndex srcDevice : Nat) (s : State) : Host.Outcome State Fault Refusal :=
  ends (s.answered r [5, 6] fun o s =>
    let s := match s.mec.sendQ.find o.queue with
      | none => s
      | some x =>
        if o.d.op = 5 && isSuccess r.status then
          let s := s.upMec fun m => { m with sendQ := m.sendQ.put o.queue { x with locks := x.locks ++ [(srcDevice, lockIndex)] } }
          if x.error || x.destroying then s.abandonLocks o.queue else s
        else if o.d.op = 6 && isSuccess r.status then
          s.upMec fun m => { m with sendQ := m.sendQ.put o.queue { x with locks := dropFirst (srcDevice, lockIndex) x.locks } }
        else s
    s.finishOp o.opTag r.status 0)

/-- SEND_ACK_ARRIVAL (R338). -/
def execSendAckArrival (r : Rsp) (s : State) : Host.Outcome State Fault Refusal :=
  ends (s.answered r [4] fun o s => s.finishOp o.opTag r.status o.d.length)

/-- A SEND that its receiver refused (R363): it waits rnr_delay; after rnr_limit refusals, by the limit that its timer last started under
(R375), it ends and a message of no bytes takes its number. -/
def State.refusedSend (s : State) (o : OpSlot) : State :=
  let n := o.rnrCount + 1
  let limit := o.rnrLimit.getD s.mec.rnrLimit
  if o.standIn.isNone && limit ≠ 0 && decide (limit ≤ n) then
    let s := s.upSlot o.opTag fun x => { x with rnrCount := n, standIn := some false, result := some (stRnrExceeded, 0) }
    (s.sendMessage { o with standIn := some false }).drainQueue o.queue
  else s.upSlot o.opTag fun x => { x with rnrCount := n, rnrWait := true, rnrLimit := some s.mec.rnrLimit }

/-- SEND_RNR_ARRIVAL (R363). -/
def execSendRnrArrival (r : Rsp) (s : State) : Host.Outcome State Fault Refusal :=
  ends (s.answered r [4] fun o s => s.refusedSend o)

/-- RDONE_ARRIVAL (R338, R361): the rendezvous SEND completes with the bytes read. -/
def execRdoneArrival (r : Rsp) (bytes : Nat) (s : State) : Host.Outcome State Fault Refusal :=
  ends (s.answered r [4] fun o s => s.finishOp o.opTag stSuccess bytes)

/-- ENG_ERROR_ARRIVAL (R346): the operation, or the receive whose message is being read, ends with its status. -/
def execEngErrorArrival (r : Rsp) (s : State) : Host.Outcome State Fault Refusal :=
  ends (if !s.forwarding then s
    else match s.rspSlot r with
      | none => s
      | some o => s.finishOp o.opTag r.status (if o.isRget then o.bytes else 0))

/-! ### Rendezvous reads (R361) -/

/-- An RGET served from the SEND's local buffer (R361, R410): one of another generation is discarded. -/
def State.serveRget (s : State) (r : Req) (rvTag rvGen offset length : Nat) : State :=
  match s.slot rvTag with
  | none => s
  | some o =>
    if o.d.op ≠ 4 || o.isRget || o.result.isSome || (s.instance_ o.inst).gen ≠ rvGen || decide (o.d.length < offset + length) then s
    else if o.d.localHeap then
      s.sendHeapData r 0x16 o.inst (rvTag / 4096) (heapByte o.inst o.d.localAddr) offset (offset + length) (ceilDiv length 4096)
    else s.issueRead {
      inst := o.inst, req := r, opcode := 0x16, address := o.d.localAddr + offset, offset, left := length
      master := rvTag / 512, slot := some rvTag }

/-- RGET_ARRIVAL (R361, R410). -/
def execRgetArrival (r : Req) (rvTag rvGen offset length : Nat) (s : State) : Host.Outcome State Fault Refusal :=
  ends (if !s.forwarding then s else s.serveRget r rvTag rvGen offset length)

/-- The message that a rendezvous read belongs to. -/
def State.rgetMsg (s : State) (tag : Nat) : Option Msg := s.mtc.msgs.find? fun m => m.rget == some tag

/-- The end of a rendezvous message (R361): RDONE to its sender, and the receive completes. -/
def State.rendezvousDone (s : State) (m : Msg) (tag bytes : Nat) : State :=
  let s := s.respond 0x17 m.srcDevice m.srcInst m.opTag m.instGen stSuccess 0 m.sl (bytesLE 4 bytes)
  let buffer := (m.taken.map fun p => p.d.length).getD 0
  s.endRget tag (if buffer < m.length then stTruncated else stSuccess) bytes

/-- RGET_DATA_ARRIVAL (R361): the last data written ends the message. -/
def execRgetDataArrival (r : Rsp) (data : List Nat) (s : State) : Host.Outcome State Fault Refusal :=
  ends (if !s.forwarding then s
    else match s.rspSlot r, s.rgetMsg r.opTag with
      | some o, some m =>
        if !o.isRget then s
        else
          let s := (s.localWrite o r.dataOffset data).upSlot o.opTag fun x => { x with bytes := x.bytes + data.length }
          if o.d.length ≤ o.bytes + data.length then s.rendezvousDone m o.opTag o.d.length else s
      | _, _ => s)

end Sys2Proof.Machine
end

