-- ==== Sys2Proof/Machine/Matching.lean ====
section
/-!
DEFINITION. The matching unit (R356 to R364): message numbers, the posted and unexpected lists, quotas and refusals, and
where a message is placed.
Where the spec leaves a point open: DESIGN CHOICE 93; DEDUCED 92, 94 (notes/assumptions).
-/
namespace Sys2Proof.Machine

/-! ### Streams (R359, R363) -/

/-- What the matching unit keeps of a sender's stream. -/
def State.mtcCtx (s : State) (dev inst : Nat) : MtcCtx :=
  (s.mtc.ctxs.find? fun c => c.srcDevice == dev && c.srcInst == inst).getD { srcDevice := dev, srcInst := inst }

/-- The state with what it keeps of a stream changed. -/
def State.upMtcCtx (s : State) (dev inst : Nat) (f : MtcCtx → MtcCtx) : State :=
  let c := f (s.mtcCtx dev inst)
  s.upMtc fun t => { t with ctxs := t.ctxs.filter (fun c => !(c.srcDevice == dev && c.srcInst == inst)) ++ [c] }

/-- A message is that of a stream with this number. -/
def Msg.isIt (m : Msg) (dev inst msn : Nat) : Bool := m.srcDevice == dev && m.srcInst == inst && m.msn == msn

/-- The message of a stream with a number, where it is known. -/
def State.msg (s : State) (dev inst msn : Nat) : Option Msg := s.mtc.msgs.find? fun m => m.isIt dev inst msn

/-- A message put in place of what was kept of it. -/
def State.putMsg (s : State) (m : Msg) : State :=
  s.upMtc fun t => { t with
    msgs := if t.msgs.any fun x => x.isIt m.srcDevice m.srcInst m.msn then
        t.msgs.map fun x => if x.isIt m.srcDevice m.srcInst m.msn then m else x
      else t.msgs ++ [m] }

/-- A message that leaves the matching unit. -/
def State.dropMsg (s : State) (m : Msg) : State :=
  s.upMtc fun t => { t with msgs := t.msgs.filter fun x => !x.isIt m.srcDevice m.srcInst m.msn }

/-- Heap units of an instance given or given back (R362). -/
def State.useHeap (s : State) (i : Nat) (f : Nat → Nat) : State :=
  s.upMec fun e => { e with inst := e.inst.upd i {} fun x => { x with heapUsed := f x.heapUsed } }

/-- A message with its heap units changed to `n` (R362). -/
def State.setHeap (s : State) (m : Msg) (n : Nat) : Msg × State :=
  ({ m with heap := n }, s.useHeap m.inst fun u => u + n - m.heap)

/-! ### Matching (R356, R358) -/

/-- A message and a receive match (R356). -/
def matches_ (m : Msg) (p : Posted) : Bool :=
  m.inst == p.inst && m.context == p.d.context &&
    (m.matchBits.xor p.d.matchBits).land ((2 ^ 64 - 1).xor p.d.ignoreBits) == 0 &&
    (p.d.anySource || (p.d.srcDevice == m.srcDevice && p.d.srcInst == m.srcInst))

/-- Bytes of a message that have come. -/
def Msg.come (m : Msg) : Nat := m.got + sumOf m.data (·.2.length)

/-- A receive's buffer as an operation's (R357). -/
def recvSlot (tag : Nat) (p : Posted) (m : Msg) (n : Nat) : OpSlot :=
  { opTag := tag, queue := p.queue, inst := p.inst, queueGen := 0, isRget := true
    d := { op := 0, length := n, localAddr := p.d.localAddr, localHeap := p.d.localHeap, destDevice := m.srcDevice, sl := m.sl } }

/-- Data of an eager message placed in a receive's buffer, as far as the buffer goes (R361). -/
def State.place (s : State) (p : Posted) (m : Msg) (offset : Nat) (data : List Nat) : State :=
  let data := data.take (p.d.length - offset)
  if data.isEmpty then s else s.localWrite (recvSlot 0 p m p.d.length) offset data

/-- SEND_ACK for a message whose last packet has been placed or stored (R361). -/
def State.ackMsg (s : State) (m : Msg) : State :=
  if m.acked || m.rendezvous || !m.first || decide (m.come < m.length) then s
  else (s.putMsg { m with acked := true }).respond 0x14 m.srcDevice m.srcInst m.opTag m.instGen stSuccess 0 m.sl []

/-- A matched eager message whose data is all placed: the receive completes (R361). -/
def State.finishEager (s : State) (m : Msg) : State :=
  match m.taken with
  | none => s
  | some p =>
    if m.got < m.length then s
    else (s.dropMsg m).receiveRecord p.queue (if p.d.length < m.length then stTruncated else stSuccess) (min m.length p.d.length)
      p.d.wrId m.matchBits m.srcDevice m.srcInst

/-- An eager message taken by a receive: what has come is copied out of the heap (R361). -/
def State.takeEager (s : State) (m : Msg) (p : Posted) : State :=
  let s := m.data.foldl (fun s e => s.place p m e.1 e.2) s
  let (m, s) := s.setHeap { m with taken := some p, unexpected := false, got := m.come, data := [] } 0
  let s := (s.putMsg m).ackMsg m
  s.finishEager m

/-- The lowest free slot of the engine positions that run, for a rendezvous read (R330). -/
def State.rgetSlot (s : State) : Option Nat :=
  (List.range 128).findSome? fun e => if s.engineRuns e then s.freeSlot e else none

/-- A rendezvous message taken by a receive: one RGET is issued (R361); it waits while no slot is free. One that reads no byte ends
at once. -/
def State.takeRendezvous (s : State) (m : Msg) (p : Posted) : State :=
  let n := min m.length p.d.length
  let m := { m with taken := some p, unexpected := false }
  match s.rgetSlot with
  | none => s.putMsg m
  | some tag =>
    let o := recvSlot tag p m n
    let s := (s.putMsg { m with rget := some tag }).upMec fun e => { e with slots := e.slots.put tag o }
    if n = 0 then s.rendezvousDone m tag 0
    else match s.localOk o 1 0 n with
      | (false, s) => (s.finishOp tag stProtection 0).recvQueueError p.queue stProtection
      | (true, s) => s.sendOp o 0x07 15 false [m.opTag, m.instGen, 0] (bytesLE 4 n) true true

/-- A message taken by a receive (R358, R361). -/
def State.takeMsg (s : State) (m : Msg) (p : Posted) : State := if m.rendezvous then s.takeRendezvous m p else s.takeEager m p

/-- Rendezvous messages that wait for a slot are tried again (R361). -/
def State.retryRgets (s : State) : State :=
  (s.mtc.msgs.filter fun m => m.rendezvous && m.rget.isNone && m.taken.isSome).foldl (fun s m => match m.taken with
    | none => s
    | some p => s.takeRendezvous m p) s

/-- A message enters matching (R358): the first receive that matches takes it, or it is the last of the unexpected ones. -/
def State.enterMatching (s : State) (m : Msg) : State :=
  match takeFirst (fun p => matches_ m p) s.mtc.posted with
  | some (p, rest) => (s.upMtc fun t => { t with posted := rest }).takeMsg m p
  | none =>
    let m := { m with unexpected := true }
    ((s.dropMsg m).upMtc fun t => { t with msgs := t.msgs ++ [m] }).ackMsg m

/-- The stream goes on past its expected message, and early messages that are now in order follow (R359). -/
def State.advance (s : State) (dev inst : Nat) : Nat → State
  | 0 => s
  | fuel + 1 =>
    let c := s.mtcCtx dev inst
    if c.passed.contains c.expected then
      (s.upMtcCtx dev inst fun c => { c with
        expected := (c.expected + 1) % 65536, passed := c.passed.filter (· ≠ c.expected) }).advance dev inst fuel
    else match s.msg dev inst c.expected with
      | none => s
      | some m =>
        if !m.first || !m.early then s
        else ((s.upMtcCtx dev inst fun c => { c with expected := (c.expected + 1) % 65536 }).enterMatching m).advance dev inst fuel

/-- The messages that may follow one in order. -/
def State.advanceAll (s : State) (dev inst : Nat) : State :=
  s.advance dev inst (s.mtc.msgs.length + (s.mtcCtx dev inst).passed.length + 1)

/-! ### Quotas and refusals (R362, R363) -/

/-- Heap units of an eager message (R362). -/
def heapUnits (length : Nat) : Nat := ceilDiv length 256

/-- Why an instance's quota does not hold one more entry and heap units (R362): 1 its quota, 2 no overflow entry is free. -/
def State.quotaRefusal (s : State) (i entry units : Nat) : Option Nat :=
  if decide ((s.engInst i).matchEntries < s.entriesUsed i true + s.entriesUsed i false + entry) ||
      decide (8192 * (s.engInst i).heap < (s.engInst i).heapUsed + units) then some 1
  else if entry ≠ 0 && (s.entryPlace i).isNone then some 2
  else none

/-- The matching store found full (R377). -/
def State.storeFull (s : State) (why : Nat) : State :=
  if why = 2 then (s.upMtc fun t => { t with intStatus := setFlag t.intStatus 2 }).raise 960 else s

/-- The offsets of a message's later packets (R359): 4,072, and every 4,096 bytes beyond. -/
def laterOffsets (length : Nat) : List Nat := (List.range (ceilDiv (length - 4072) 4096)).map fun k => 4072 + 4096 * k

/-- A first packet refused with SEND_RNR (R363): what has come of the message is discarded, and its later packets will be. -/
def State.refuseMsg (s : State) (r : Req) (dst msn length : Nat) (rendezvous : Bool) : State :=
  let old := s.msg r.srcDevice r.srcInst msn
  let come := (old.map fun m => m.data.map (·.1)).getD []
  let s := match old with
    | none => s
    | some m => (s.useHeap m.inst fun u => u - m.heap).dropMsg m
  let later := if rendezvous then [] else (laterOffsets length).filter fun o => !come.contains o
  let s := s.upMtcCtx r.srcDevice r.srcInst fun c => { c with
    drop := c.drop ++ later.map fun o => (msn, o)
    floor := match c.floor with
      | some (f, i) => if 0 < modSub 65536 msn f && decide (modSub 65536 msn f < 32768) then some (f, i) else some (msn, dst)
      | none => some (msn, dst) }
  (s.upMtc fun t => { t with intStatus := setFlag t.intStatus 0 }).respond 0x15 r.srcDevice r.srcInst r.opTag r.instGen stSuccess 0 r.sl []

/-- A message lies above the stream's floor (R363). -/
def aboveFloor (c : MtcCtx) (msn : Nat) : Bool :=
  c.floor.any fun f => 0 < modSub 65536 msn f.1 && decide (modSub 65536 msn f.1 < 32768)

/-- A message's number is done with, though the message is not taken (R359, R416). -/
def State.passMsn (s : State) (dev inst msn : Nat) : State :=
  (s.upMtcCtx dev inst fun c => { c with passed := c.passed ++ [msn] }).advanceAll dev inst

/-- The first packet of a message (R359, R361, R363): `m` is the message, with what had come of it before. -/
def State.firstPacket (s : State) (r : Req) (m : Msg) : State :=
  let c := s.mtcCtx r.srcDevice r.srcInst
  let d := modSub 65536 m.msn c.expected
  let old := s.msg r.srcDevice r.srcInst m.msn
  if 32768 ≤ d || c.passed.contains m.msn || (old.any fun x => x.first) then
    s.upMtc fun t => { t with duplicates := t.duplicates + 1 }
  else if !s.enabled m.inst then
    let s := match old with
      | none => s
      | some x => (s.useHeap x.inst fun u => u - x.heap).dropMsg x
    (s.respond 0x18 r.srcDevice r.srcInst r.opTag r.instGen stRemoteInstance 0 r.sl [] (input := 34)).passMsn r.srcDevice r.srcInst m.msn
  else if aboveFloor c m.msn then s.refuseMsg r m.inst m.msn m.length m.rendezvous
  else
    let stored := !(decide (d = 0) && s.mtc.posted.any fun p => matches_ m p)
    let units := if stored && !m.rendezvous then heapUnits m.length else m.heap
    match if stored then s.quotaRefusal m.inst (b2n old.isNone) (units - m.heap) else none with
    | some why => (s.storeFull why).refuseMsg r m.inst m.msn m.length m.rendezvous
    | none =>
      let s := s.upMtcCtx r.srcDevice r.srcInst fun c => { c with floor := c.floor.filter fun f => f.1 ≠ m.msn }
      let onDie := match old with
        | some x => x.onDie
        | none => (s.entryPlace m.inst).getD true
      let (m, s) := s.setHeap { m with onDie } units
      let s := (s.putMsg m).ackMsg m
      if d = 0 then s.advanceAll r.srcDevice r.srcInst else s

/-- A later packet of an eager message (R359, R361, R363). -/
def State.laterPacket (s : State) (r : Req) (dst context msn offset : Nat) (data : List Nat) : State :=
  let c := s.mtcCtx r.srcDevice r.srcInst
  if c.drop.contains (msn, offset) then s.upMtcCtx r.srcDevice r.srcInst fun c => { c with drop := dropFirst (msn, offset) c.drop }
  else match s.msg r.srcDevice r.srcInst msn with
    | some m =>
      match m.taken with
      | some p =>
        let m := { m with got := m.got + data.length }
        let s := ((s.place p m offset data).putMsg m).ackMsg m
        s.finishEager m
      | none =>
        let m := { m with data := m.data ++ [(offset, data)] }
        let (m, s) := if m.first then (m, s) else s.setHeap m (m.heap + heapUnits data.length)
        (s.putMsg m).ackMsg m
    | none =>
      if 32768 ≤ modSub 65536 msn c.expected || c.passed.contains msn || !s.enabled dst then s
      else
        let m : Msg := {
          srcDevice := r.srcDevice, srcInst := r.srcInst, inst := dst, context, msn, matchBits := 0, length := 0, rendezvous := false
          opTag := r.opTag, instGen := r.instGen, sl := r.sl, data := [(offset, data)], first := false, taken := none
          onDie := (s.entryPlace dst).getD false }
        let (m, s) := s.setHeap m (heapUnits data.length)
        s.putMsg m

/-- SEND_EAGER_ARRIVAL (R359 to R363). -/
def execSendEagerArrival (r : Req) (dstInst context msn msgOffset matchBits msgLength : Nat) (data : List Nat) (s : State) :
    Host.Outcome State Fault Refusal :=
  ends (if !s.forwarding then s
    else if msgOffset ≠ 0 then s.laterPacket r dstInst context msn msgOffset data
    else
      let old := s.msg r.srcDevice r.srcInst msn
      s.firstPacket r {
        srcDevice := r.srcDevice, srcInst := r.srcInst, inst := dstInst, context, msn, matchBits, length := msgLength
        rendezvous := false, opTag := r.opTag, instGen := r.instGen, sl := r.sl, first := true, taken := none
        data := (if data.isEmpty then [] else [(0, data)]) ++ (old.map (·.data)).getD [], heap := (old.map (·.heap)).getD 0 })

/-- SEND_RTS_ARRIVAL (R359, R361 to R363). -/
def execSendRtsArrival (r : Req) (dstInst context msn matchBits msgLength : Nat) (s : State) : Host.Outcome State Fault Refusal :=
  ends (if !s.forwarding then s
    else s.firstPacket r {
      srcDevice := r.srcDevice, srcInst := r.srcInst, inst := dstInst, context, msn, matchBits, length := msgLength
      rendezvous := true, opTag := r.opTag, instGen := r.instGen, sl := r.sl, first := true, taken := none, data := [] })

/-! ### Receives (R335, R343, R357, R358, R363, R372) -/

/-- A receive descriptor is a BAD_DESCRIPTOR (R357). -/
def badRecv (d : RecvDesc) : Bool := decide (d.op ≠ 0x20) || decide (1073741824 < d.length)

/-- A receive that ends as its descriptor is taken, with an error of the descriptor or of its buffer (R371, R372). -/
def State.endRecv (s : State) (q status : Nat) (d : RecvDesc) : State :=
  let s := s.receiveRecord q status 0 d.wrId 0 0 0
  if status = stFlushed then s else s.recvQueueError q status

/-- A receive enters matching (R358): the oldest unexpected message that matches is taken, or it joins the posted list, where the
quota must hold its entry (R362, R363). -/
def State.postReceive (s : State) (q : Nat) (x : RecvQueue) (d : RecvDesc) : State :=
  let took := fun (s : State) => s.upMec fun m => { m with
    recvQ := m.recvQ.put q { x with consumer := (x.consumer + 1) % 65536, stalled := false } }
  let p : Posted := { inst := x.inst, queue := q, d, onDie := (s.entryPlace x.inst).getD true }
  match s.mtc.msgs.find? fun m => m.unexpected && matches_ m p with
  | some m => (took s).takeMsg m p
  | none =>
    match s.quotaRefusal x.inst 1 0 with
    | none => (took s).upMtc fun t => { t with posted := t.posted ++ [p] }
    | some why =>
      if x.stalled then s
      else
        let s := s.upMec fun m => { m with recvQ := m.recvQ.put q { x with stalled := true } }
        ((s.upMtc fun t => { t with intStatus := setFlag t.intStatus 1 }).storeFull why).post x.inst 0x09 0 q 0 0

/-- The next receive descriptor of a queue taken (R335, R343, R357, R358, R372). -/
def State.takeReceive (s : State) (q : Nat) (d : RecvDesc) : State :=
  match s.mec.recvQ.find q with
  | none => s
  | some x =>
    if !s.forwarding || !s.enabled x.inst || (s.instance_ x.inst).bmeHeld || x.destroying || x.producer == x.consumer || !s.cqRoom x.cq then s
    else
      let took := s.upMec fun m => { m with recvQ := m.recvQ.put q { x with consumer := (x.consumer + 1) % 65536, stalled := false } }
      if x.error then took.endRecv q stFlushed d
      else if badRecv d then took.endRecv q stBadDescriptor d
      else if d.localHeap && decide (2097152 * (s.engInst x.inst).heap < d.localAddr + d.length) then took.endRecv q stProtection d
      else s.postReceive q x d

/-- The receive descriptor that 512 bits of a ring spell (R357): reserved bits are ignored (R15). -/
def recvDescOf (v : Nat) : RecvDesc :=
  { op := bitsOf v 7 0, anySource := v.testBit 8, localHeap := v.testBit 9, length := bitsOf v 63 32, wrId := bitsOf v 127 64
    localAddr := bitsOf v 191 128, srcDevice := bitsOf v 207 192, srcInst := bitsOf v 217 208, context := bitsOf v 243 224
    matchBits := bitsOf v 319 256, ignoreBits := bitsOf v 383 320 }

/-- RECEIVE_TAKE (R357, R358, R363). -/
def execReceiveTake (queue bits : Nat) (s : State) : Host.Outcome State Fault Refusal := ends (s.takeReceive queue (recvDescOf bits))

end Sys2Proof.Machine
end

