-- ==== Sys2Proof/Machine/Collectives.lean ====
section
/-!
DEFINITION. The commands and events of collectives: groups (R378, R379, R400 to R403), members that arrive (R388, R389, R397,
R398), and what travels up and down the tree (R391 to R397, R404).
Where the spec leaves a point open: DESIGN CHOICE 22; DEDUCED 97, 98 (notes/assumptions).
-/
namespace Sys2Proof.Machine

/-! ### Installing a group (R378 to R381, R400 to R402) -/

/-- Bytes of a group's working area (R400). -/
def areaOf (p : GroupP) : Nat :=
  match p.operation with
  | 0 => 0
  | 1 => p.elements * typeWidth p.type
  | _ =>
    if exactSum p.type p.op then p.elements * 48
    else if orderedSum p.type p.op then p.elements * 8 * (p.members.length + p.children.length)
    else p.elements * 8

/-- Heap units of 256 bytes of a working area, rounded up to 4 KiB (R400). -/
def areaUnits (bytes : Nat) : Nat := 16 * ceilDiv bytes 4096

/-- A pair of type and operation that R381 does not allow: type is not read for a barrier, op only for reduce and allreduce. -/
def badTypeOp (p : GroupP) : Bool :=
  (decide (1 ≤ p.operation) && decide (7 < p.type)) ||
    (decide (2 ≤ p.operation) && (decide (5 < p.op) || (isFloat p.type && decide (3 ≤ p.op))))

/-- A field of COLL_GROUP_SET is out of range or reserved (R378, R379, R381, R401, R402). -/
def State.groupBad (s : State) (p : GroupP) : Bool :=
  decide (4095 < p.group) || outside 1 1023 p.inst || decide (6 < p.sl) || decide (3 < p.operation) || badTypeOp p ||
    (if p.operation = 0 then decide (p.elements ≠ 0) else outside 1 32768 p.elements || decide (65536 < p.elements * typeWidth p.type)) ||
    (!p.root && decide (65535 < p.parent)) || outside 1 1048575 p.totalMembers || decide (32 < p.children.length) ||
    decide (16 < p.members.length) || (p.root && decide (1 ≤ p.operation) && decide (p.operation ≤ 2) && decide (p.members.length ≤ p.rootMember)) ||
    decide (p.totalMembers < subtreeMembers p) || (p.root && decide (subtreeMembers p ≠ p.totalMembers)) ||
    p.members.any fun m => decide ((s.engInst m.inst).counterCount ≤ m.arrivalCounter)

/-- A region that a member slot names serves it (R389, R402): valid, its instance's, with the right and long enough. -/
def State.regionServes (s : State) (inst region right last : Nat) : Bool :=
  (s.region region).any fun r => r.inst == inst && r.rights.testBit right && decide (last ≤ 4096 * r.length)

/-- A member slot whose contribution is read (R380, R388). -/
def readsMember (p : GroupP) (m : Nat) : Bool := decide (2 ≤ p.operation) || (p.operation = 1 && p.root && m = p.rootMember)

/-- A member slot that data is written to (R380, R390). -/
def writesMember (p : GroupP) (m : Nat) : Bool :=
  p.operation = 1 || p.operation = 3 || (p.operation = 2 && p.root && m = p.rootMember)

/-- Bytes of a round's data for one member. -/
def roundBytes (p : GroupP) : Nat := p.elements * typeWidth p.type

/-- A member slot's regions serve it (R402). -/
def State.memberServed (s : State) (p : GroupP) (m : Nat) (x : MemberSlot) : Bool :=
  (!readsMember p m || s.regionServes x.inst x.contribRegion 0 (x.contribOffset + roundBytes p)) &&
    s.regionServes x.inst x.resultRegion 1 (x.resultOffset + 32 + (if writesMember p m then roundBytes p else 0))

/-- Member slots in use on the device (R401). -/
def State.memberSlots (s : State) : Nat := sumOf s.rdx.groups fun g => g.2.p.members.length

/-- What COLL_GROUP_SET does (R378 to R381, R388, R400 to R403). -/
def collGroupSetBody (p : GroupP) (s : State) : HRes :=
  let e := s.engInst p.inst
  refuseIf [
    (s.groupBad p, 0x011E),
    (!s.enabled p.inst || p.members.any fun m => !s.enabled m.inst, 0x0301),
    ((s.group p.group).isSome, 0x0322),
    ((List.range p.members.length).any fun m => (p.members[m]?).any fun x => !s.memberServed p m x, 0x0323),
    (decide (16384 < s.memberSlots + p.members.length), 0x0213),
    (decide (8192 * e.heap < e.heapUsed + areaUnits (areaOf p)), 0x0214)] <|
  let bases := p.members.map fun m => s.mec.counters.get ((s.engInst m.inst).counterBase + m.arrivalCounter) 0
  let s := s.upRdx fun r => { r with groups := r.groups.put p.group { p, bases, area := areaOf p } }
  let s := s.upMec fun m => { m with inst := m.inst.upd p.inst {} fun x => { x with heapUsed := x.heapUsed + areaUnits (areaOf p) } }
  .ok (s.runGroup p.group)

/-- COLL_GROUP_SET (R378, R379, R402). -/
def execCollGroupSet (h : HlyHdr) (g : GroupP) (s : State) : Host.Outcome State Fault Refusal :=
  ends <| runHly (.collGroupSet h g) 0x0A01 h (8 * g.children.length + 16 * g.members.length) 0 [.inst g.inst] (collGroupSetBody g) s

/-! ### Removing, fencing and querying (R395, R402, R403) -/

/-- A packet of a group that its device still holds (R403). -/
def isGroupPkt (gid : Nat) (p : Packet) : Bool := (p.hdr.opcode == 0x60 || p.hdr.opcode == 0x61) && p.fields.head? == some gid

/-- Packets of a group remain in the device (R403): queued, unacknowledged or buffered. -/
def State.groupBusy (s : State) (gid : Nat) : Bool :=
  (s.trn.sends.any fun c => (c.unacked ++ c.queue).any fun p => isGroupPkt gid p.pkt) ||
    (s.trn.recvs.any fun c => c.held.any fun p => isGroupPkt gid p.pkt) ||
    (s.obf.pkts.any fun b => isGroupPkt gid b.pkt) || s.obf.waiting.any fun w => isGroupPkt gid w.pkt

/-- A group that is being removed goes, once it is Fenced and drained (R403). -/
def State.settleGroup (s : State) (gid : Nat) : State :=
  match s.group gid with
  | none => s
  | some g =>
    if !g.removing || g.state ≠ .fenced || s.groupBusy gid then s
    else
      let s := s.upRdx fun r => { r with groups := r.groups.del gid, intStatus := setFlag r.intStatus 5 }
      (s.upMec fun m => { m with
        inst := m.inst.upd g.p.inst {} fun x => { x with heapUsed := x.heapUsed - areaUnits g.area } }).finishWait (.groupRemove gid) 0 0

/-- GROUP_DRAINED (R403). -/
def execGroupDrained (group : Nat) (s : State) : Host.Outcome State Fault Refusal := ends (s.settleGroup group)

/-- What COLL_GROUP_REMOVE does (R395, R402, R403): every slot is fenced at once. -/
def collGroupRemoveBody (gid : Nat) (s : State) : HRes :=
  match s.group gid with
  | none => .refuse 0x0324
  | some g =>
    let s := s.upGroup gid fun g => { g with
      removing := true, memberFenced := List.range g.p.members.length, childFenced := List.range g.p.children.length }
    let s := if g.slots.all fun k => g.isFenced k then s else s.fenceEffect gid
    .pend s (.groupRemove gid) [.group gid]

/-- COLL_GROUP_REMOVE (R402, R403): it completes when the group is Fenced and drained. -/
def execCollGroupRemove (h : HlyHdr) (group : Nat) (s : State) : Host.Outcome State Fault Refusal :=
  ends <| runHly (.collGroupRemove h group) 0x0A02 h 0 0 [.group group] (collGroupRemoveBody group) s

/-- What COLL_FENCE does (R395, R402, R403): a slot already fenced completes 0x0000 without effect. -/
def collFenceBody (gid target index : Nat) (s : State) : HRes :=
  match s.group gid with
  | none => .refuse (if decide (1 < target) || decide (31 < index) || decide (4095 < gid) then 0x011E else 0x0324)
  | some g =>
    refuseIf [
      (decide (1 < target) || decide ((if target = 0 then g.p.members.length else g.p.children.length) ≤ index), 0x011E)] <|
    .ok (s.fenceSlot gid (if target = 0 then index else 16 + index))

/-- COLL_FENCE (R395, R402). -/
def execCollFence (h : HlyHdr) (group target index : Nat) (s : State) : Host.Outcome State Fault Refusal :=
  ends <| runHly (.collFence h group target index) 0x0A03 h 0 0 [.group group] (collFenceBody group target index) s

/-- RDX_GROUP.state of a group's state (R406). -/
def groupStateNum : GroupState → Nat
  | .collecting => 1
  | .waiting => 2
  | .fenced => 3

/-- Chunks of a round on the way up (R391): one for arrivals. -/
def Group.chunks (g : Group) : Nat := if g.arrivalsOnly then 1 else ceilDiv g.p.elements g.chunk

/-- Inputs that hold a chunk (R402). -/
def Group.present (g : Group) (c : Nat) : Nat :=
  let first := c * g.chunk
  let n := min g.chunk (g.p.elements - first)
  (g.slots.filter fun k => if g.arrivalsOnly then (g.input k).arrived else (List.range n).all fun i => (g.input k).elems.has (first + i)).length

/-- Slots as a number with one bit for each. -/
def slotMask (l : List Nat) : Nat := l.foldl (fun m k => m.lor (2 ^ k)) 0

/-- The output of COLL_QUERY (R402, R594): state, round, inputs present for each chunk, fenced member and child slots, and the
combined count of the last completed round. -/
def groupImage (g : Group) : List Nat :=
  outBytes ([(4, groupStateNum g.state), (4, g.round)] ++ (List.range g.chunks).map (fun c => (4, g.present c)) ++
    [(4, slotMask g.memberFenced), (4, slotMask g.childFenced), (4, g.lastCombined)])

/-- Output bytes of COLL_QUERY. -/
def State.groupQueryLen (s : State) (gid : Nat) : Nat := ((s.group gid).map fun g => 20 + 4 * g.chunks).getD 0

/-- COLL_QUERY (R402, R594). -/
def execCollQuery (h : HlyHdr) (group : Nat) (s : State) : Host.Outcome State Fault Refusal :=
  ends <| runHly (.collQuery h group) 0x0A04 h 0 (s.groupQueryLen group) [] (fun s => match s.group group with
    | none => .refuse 0x0324
    | some g => .data s (groupImage g)) s

/-! ### Members that arrive (R388, R389, R397, R398) -/

/-- A member has arrived for a round: its counter is at least its base plus the round (R388). -/
def State.memberAt (s : State) (g : Group) (m : Nat) (x : MemberSlot) (round : Nat) : Bool :=
  (s.counterIx x.inst x.arrivalCounter).any fun c => decide (g.bases.getD m 0 + round ≤ s.mec.counters.get c 0)

/-- Native values of a type held in bytes. -/
def nativeValues (t : Nat) : List Nat → Nat → List Nat
  | _, 0 => []
  | bytes, n + 1 => ofBytesLE (bytes.take (typeWidth t)) :: nativeValues t (bytes.drop (typeWidth t)) n

/-- Elements from an offset in an input (R391). -/
def putElems (x : RdxInput) (offset : Nat) (elems : List Elem) : RdxInput :=
  { x with elems := (elems.foldl (fun (t : Tbl Elem × Nat) e => (t.1.put t.2 e, t.2 + 1)) (x.elems, offset)).1 }

/-- A member counted in the open round, with its elements (R388, R391). -/
def State.countMember (s : State) (gid m : Nat) (elems : List Elem) : State :=
  (s.upGroup gid fun g => { g with
    inputs := g.inputs.put m { putElems (g.input m) 0 elems with arrived := true, members := 1 } }).runGroup gid

/-- The read of a contribution failed other than by poison (R395, R405). -/
def State.memberReadFails (s : State) (gid m : Nat) : State :=
  ((s.upRdx fun r => { r with intStatus := setFlag r.intStatus 2 }).raise 1024).fenceSlot gid m

/-- A member's contribution is read (R388, R389, R398): `values` is what host memory returns. -/
def State.readMember (s : State) (gid : Nat) (g : Group) (m : Nat) (x : MemberSlot) (values : List Nat) (failed poison : Bool) : State :=
  match s.memberGuard x.inst x.contribRegion x.contribOffset (roundBytes g.p) 0 0 with
  | (none, s) => s.memberReadFails gid m
  | (some r, s) =>
    let s := s.emit (.rdxRead gid m)
    if failed then s.memberReadFails gid m
    else
      let native := if r.kind = 0 then (List.range g.p.elements).map fun i => values.getD i 0 % 2 ^ (8 * typeWidth g.p.type)
        else nativeValues g.p.type (memRead s.pool.mem (heapByte r.inst (4096 * r.base + x.contribOffset)) (roundBytes g.p)) g.p.elements
      if poison then
        (s.upGroup gid fun g => { g with poison := true }).countMember gid m
          ((List.range g.p.elements).map fun _ => toElem g.p.type g.p.op 0)
      else s.countMember gid m (native.map fun v => if g.p.operation = 1 then .native v else toElem g.p.type g.p.op v)

/-- A member arrives at a group that is Fenced (R397): it is given the header of its next round that has none. -/
def State.arriveFenced (s : State) (gid : Nat) (g : Group) (m : Nat) (x : MemberSlot) : State :=
  let round := max (g.written.get m 0 + 1) g.round
  if s.memberAt g m x round then s.writeResult gid m round stFenced g.lastCombined [] else s

/-- MEMBER_ARRIVAL (R388, R389, R397, R398): in another state than Collecting, or for a fenced slot, it waits or nothing is read. -/
def execMemberArrival (group member : Nat) (values : List Nat) (failed poison : Bool) (s : State) : Host.Outcome State Fault Refusal :=
  ends (match s.group group with
    | none => s
    | some g =>
      match g.p.members[member]? with
      | none => s
      | some x =>
        if !s.forwarding then s
        else match g.state with
          | .fenced => s.arriveFenced group g member x
          | .waiting => s
          | .collecting =>
            if g.isFenced member || (g.input member).arrived || !s.memberAt g member x g.round then s
            else if readsMember g.p member then s.readMember group g member x values failed poison
            else s.countMember group member [])

/-! ### Up the tree (R391 to R395, R404) -/

/-- RDX_DOWN with fenced set, in answer to an RDX_UP (R397, R404), as traffic of the instance `own` of an installed group (R394). -/
def State.answerUp (s : State) (gid dev inst sl round : Nat) (own : Option Nat) : State :=
  let (pid, s) := s.newPid
  let fields := [gid, round % 65536, 0, 1, 0, stFenced]
  let hdr : Hdr := { destDevice := dev, srcDevice := s.rte.deviceId, inst, sl, response := true, opcode := 0x61, payloadLength := 11 }
  (s.emit (.rdx false gid dev inst fields [])).handOver {
    pkt := { pid, hdr, fields }, len := pktLen hdr, input := inputFor 0x60 0, op := none, policed := false, polInst := own }

/-- A collective packet names a group that is not installed (R404, R405). -/
def State.unknownGroup (s : State) : State := (s.upRdx fun r => { r with intStatus := setFlag r.intStatus 4 }).raise 1027

/-- What an RDX_UP brings is taken into the open round (R391, R393, R398). -/
def State.takeUp (s : State) (gid : Nat) (g : Group) (c members offset : Nat) (poison : Bool) (values : List Nat) : State :=
  let k := 16 + c
  (s.upGroup gid fun g => { g with
    poison := g.poison || poison
    inputs := g.inputs.put k { putElems (g.input k) offset (values.map fun v => ofWire g.p.type g.p.op v) with arrived := true, members } }).runGroup gid

/-- An RDX_UP at an installed group (R391, R395, R397). -/
def State.upArrives (s : State) (gid : Nat) (g : Group) (c : Nat) (x : ChildSlot) (round members : Nat) (fenced : Bool) (offset : Nat)
    (poison : Bool) (values : List Nat) : State :=
  if g.state = .fenced then s.answerUp gid x.device x.inst g.p.sl round (some g.p.inst)
  else if fenced then s.fenceSlot gid (16 + c)
  else if g.state ≠ .collecting || g.round % 65536 ≠ round || g.isFenced (16 + c) then s
  else if members ≠ x.members then
    ((s.upRdx fun r => { r with intStatus := setFlag r.intStatus 1 }).raise 1025).fenceSlot gid (16 + c)
  else s.takeUp gid g c members offset poison values

/-- RDX_UP_ARRIVAL (R391, R393, R395, R397, R404): one from a device that is no child of the group is discarded. -/
def execRdxUpArrival (group srcDevice srcInst sl round members : Nat) (fenced arrival : Bool) (elementOffset : Nat) (poison : Bool)
    (values : List Nat) (s : State) : Host.Outcome State Fault Refusal :=
  ends (if !s.forwarding then s
    else match s.group group with
      | none => (s.answerUp group srcDevice srcInst sl round none).unknownGroup
      | some g =>
        match (List.range g.p.children.length).find? fun c => (g.p.children[c]?).any fun x => x.device == srcDevice && x.inst == srcInst with
        | none => s
        | some c =>
          match g.p.children[c]? with
          | none => s
          | some x => s.upArrives group g c x round members fenced elementOffset poison (if arrival then [] else values))

/-! ### Down the tree (R391, R392, R395 to R397) -/

/-- The values of a round that have come down, in element order. -/
def Group.downValues (g : Group) : List Nat := (List.range g.p.elements).map fun e => g.down.get e 0

/-- A round has come down whole (R392, R395): it is forwarded and written, and the next round opens, or is fenced at once. -/
def State.downDone (s : State) (gid combined status : Nat) (values : List Nat) : State :=
  match s.group gid with
  | none => s
  | some g =>
    let s := g.openChildren.foldl (fun s c => s.sendDown gid g c combined false status values) s
    let s := s.writeMembers gid g status combined values
    let s := s.upGroup gid fun g => { g.nextRound combined with fenceNext := false }
    if g.fenceNext then s.fenceCollecting gid else s.runGroup gid

/-- An RDX_DOWN at an installed group (R391, R392, R397). -/
def State.downArrives (s : State) (gid : Nat) (g : Group) (round combined : Nat) (fenced : Bool) (status offset : Nat)
    (values : List Nat) : State :=
  if g.state = .fenced || g.p.root then s
  else if fenced || status = stFenced then s.endFenced gid combined
  else if g.state ≠ .waiting || g.round % 65536 ≠ round then s
  else if values.isEmpty then s.downDone gid combined status []
  else
    let down := (values.foldl (fun (t : Tbl Nat × Nat) v => (t.1.put t.2 v, t.2 + 1)) (g.down, offset)).1
    let s := s.upGroup gid fun g => { g with down }
    if g.p.elements ≤ down.length then s.downDone gid combined status ({ g with down }.downValues) else s

/-- RDX_DOWN_ARRIVAL (R391, R392, R395 to R397, R404). -/
def execRdxDownArrival (group round combined : Nat) (fenced : Bool) (status elementOffset : Nat) (values : List Nat) (s : State) :
    Host.Outcome State Fault Refusal :=
  ends (if !s.forwarding then s
    else match s.group group with
      | none => (s.upRdx fun r => { r with unknownDown := r.unknownDown + 1 }).unknownGroup
      | some g => s.downArrives group g round combined fenced status elementOffset values)

end Sys2Proof.Machine
end

