-- ==== Sys2Proof/Machine/FaultCmds.lean ====
section
/-!
DEFINITION. The commands and events of faults, spares and background work (R520 to R539).
Where the spec leaves a point open: DESIGN CHOICE 52, 53; DEDUCED 54, 175 (notes/assumptions).
-/
namespace Sys2Proof.Machine

/-! ### The FLT registers (R539) -/

/-- FLT_STATUS (R539). -/
def State.fltStatus (s : State) : Nat :=
  let l := s.flt.sources.filter fun e => !e.2.unc.isEmpty
  let high := l.foldl (fun n e => e.2.unc.foldl (fun n u => max n u.2) n) 0
  packBits [(l.length, 12), (high, 3), (b2n s.faultN, 1), (b2n s.flt.halted, 1)]

/-- FLT_CFG (R539). -/
def State.fltCfg (s : State) : Nat := packBits [(s.flt.quietMs, 16), (s.flt.vector, 6), (s.flt.auto.toNat, 7)]

/-- FLT_SOURCE (R539). -/
def State.fltSource (s : State) (src : Nat) : Nat :=
  let f := s.fault src
  packBits [((if faultKnown src then s.severity src else 0), 3), (b2n f.force.isSome, 1), (b2n (f.active || f.force.isSome), 1),
    (b2n (!f.unc.isEmpty), 1), (f.effective, 3), (b2n f.sticky, 1)]

/-! ### Halyard commands (R537) -/

/-- A range of sources does not fit (R537). -/
def rangeBad (first count most : Nat) : Bool := outside 1 most count || decide (2048 < first + count)

/-- What FAULT_SET does (R520, R537): severity, quiet_ms and vector have bits 0 to 2 of the change mask; a reserved
source's severity has no effect. -/
def faultSetBody (first count cm severity quietMs vector : Nat) (s : State) : HRes :=
  refuseIf [
    (rangeBad first count 2048 || (cmBit cm 0 && decide (6 < severity)) || (cmBit cm 1 && decide (60000 < quietMs)) ||
      (cmBit cm 2 && decide (63 < vector)), 0x0128)] <|
  let srcs := if cmBit cm 0 then (faultMap.map (·.1)).filter fun n => decide (first ≤ n) && decide (n < first + count) else []
  .ok <| s.upFlt fun f => { f with
    sources := srcs.foldl (fun (t : Tbl FaultSrc) n => t.upd n {} fun x => { x with severity := some severity }) f.sources
    quietMs := pick cm 1 quietMs f.quietMs, vector := pick cm 2 vector f.vector }

/-- FAULT_SET (R537). -/
def execFaultSet (h : HlyHdr) (first count cm severity quietMs vector : Nat) (s : State) : Host.Outcome State Fault Refusal :=
  ends <| runHly (.faultSet h first count cm severity quietMs vector) 0x0D01 h 0 0 []
    (faultSetBody first count cm severity quietMs vector) s

/-- The subject that a FAULT_FORCE gives. -/
def subjectOf (kind subject : Nat) : Subject :=
  match kind with
  | 1 => .inst subject
  | 2 => .port subject
  | _ => .none

/-- A force bit set or cleared (R532, R538): a source already active takes no new event. -/
def State.forceFault (s : State) (source : Nat) (force : Bool) (subj : Subject) : State :=
  if !faultKnown source then s
  else if !force then s.upFault source fun f => { f with force := none }
  else
    let f := s.fault source
    let was := f.active || f.force.isSome
    let s := s.upFault source fun f => { f with force := some subj }
    if was then s else s.raise source subj

/-- What FAULT_FORCE does (R524, R532, R537). -/
def faultForceBody (source : Nat) (force : Bool) (kind subject : Nat) (s : State) : HRes :=
  refuseIf [
    (decide (2047 < source) || decide (2 < kind) || decide (1023 < subject) || (kind = 2 && decide (31 < subject)), 0x0128)] <|
  .ok (s.forceFault source force (subjectOf kind subject))

/-- FAULT_FORCE (R532, R537). -/
def execFaultForce (h : HlyHdr) (source : Nat) (force : Bool) (kind subject : Nat) (s : State) : Host.Outcome State Fault Refusal :=
  ends <| runHly (.faultForce h source force kind subject) 0x0D02 h 0 0 [] (faultForceBody source force kind subject) s

/-- Uncleared faults of sources that `p` accepts are cleared, by severity (R529, R530): an active or a forced source
stays. -/
def State.clearFaults (s : State) (p : Nat → Bool) (sev : Nat → Bool) : State :=
  let clear := fun (e : Nat × FaultSrc) =>
    if !p e.1 || e.2.active || e.2.force.isSome then e else (e.1, { e.2 with unc := e.2.unc.filter fun u => !sev u.2 })
  s.upFlt fun f => { f with sources := f.sources.map clear }

/-- What FAULT_CLEAR does (R525, R529, R531). -/
def faultClearBody (first count : Nat) (sticky : Bool) (s : State) : HRes :=
  let inR := fun (n : Nat) => decide (first ≤ n) && decide (n < first + count)
  refuseIf [(rangeBad first count 2048, 0x0128)] <|
  let s := s.clearFaults inR fun _ => true
  let unstick := fun (e : Nat × FaultSrc) => if inR e.1 && sticky then (e.1, { e.2 with sticky := false }) else e
  let s := s.upFlt fun f => { f with sources := f.sources.map unstick }
  .ok s.recoverPorts

/-- FAULT_CLEAR (R529, R537). -/
def execFaultClear (h : HlyHdr) (first count : Nat) (sticky : Bool) (s : State) : Host.Outcome State Fault Refusal :=
  ends <| runHly (.faultClear h first count sticky) 0x0D03 h 0 0 [] (faultClearBody first count sticky) s

/-- FAULT_QUERY (R537, R595). -/
def execFaultQuery (h : HlyHdr) (first count : Nat) (s : State) : Host.Outcome State Fault Refusal :=
  ends <| runHly (.faultQuery h first count) 0x0D04 h 0 (16 + 4 * min count 256) [] (fun s =>
    if rangeBad first count 256 then .refuse 0x0128
    else .data s (outBytes ([(4, s.fltStatus), (4, s.flt.recoveries), (4, s.fltCfg), (4, count)] ++
      (List.range count).map fun i => (4, s.fltSource (first + i))))) s

/-- What SPARE_SWAP does (R533, R534, R537). -/
def spareSwapBody (kind unit : Nat) (s : State) : HRes :=
  refuseIf [
    (outside 1 7 kind || decide (1048575 < unit), 0x0128),
    (!s.spareFree kind unit, 0x0218),
    (s.flt.swaps.any (fun x => x.kind == kind), 0x0334),
    (s.flt.retired.contains (kind, unit) || decide (unitCount kind ≤ unit), 0x0335)] <|
  .pend (s.upFlt fun f => { f with swaps := f.swaps ++ [{ kind, unit, commanded := true }] }) (.spareSwap kind unit)
    [.spare kind unit]

/-- SPARE_SWAP (R533, R537). -/
def execSpareSwap (h : HlyHdr) (kind unit : Nat) (s : State) : Host.Outcome State Fault Refusal :=
  ends <| runHly (.spareSwap h kind unit) 0x0D05 h 0 0 [] (spareSwapBody kind unit) s

/-- Spares of a kind that the device has (R533): HBM rows are what the stacks allow, and none is counted. -/
def spareCount (kind : Nat) : Nat :=
  match kind with
  | 1 => 8
  | 3 => 4096
  | 5 => 2
  | 7 => 4
  | 4 => 0
  | _ => 1

/-- What SPARE_QUERY does (R537, R594): spares free, the units retired with their count, and the unit that each spare
replaces with their count. The number of HBM rows that can still be repaired is a free value. -/
def spareQueryBody (kind : Nat) (s : State) : HRes :=
  if outside 1 7 kind then .refuse 0x0128
  else
    let used := s.sparesUsed kind
    let gone := (s.flt.retired.filter fun r => r.1 == kind).map (·.2)
    let (v, t) := if kind = 4 then s.fresh else (spareCount kind - used.length, s)
    .data t (outBytes ([(4, v), (4, gone.length)] ++ gone.map (fun u => (4, u)) ++ [(4, used.length)] ++ used.map fun x => (4, x.2.2)))

/-- SPARE_QUERY (R537). -/
def execSpareQuery (h : HlyHdr) (kind : Nat) (s : State) : Host.Outcome State Fault Refusal :=
  ends <| runHly (.spareQuery h kind) 0x0D06 h 0 12 [] (spareQueryBody kind) s

/-- What BACKGROUND_SET does (R534, R536, R537): the six changeable fields have bits 0 to 5 of the change mask. -/
def backgroundSetBody (cm hbmPatrolH sramPatrolMs calPeriodMs trendThreshold trendWindowMin auto : Nat) (s : State) : HRes :=
  refuseIf [
    ((cmBit cm 0 && outside 1 168 hbmPatrolH) || (cmBit cm 1 && outside 100 60000 sramPatrolMs) ||
      (cmBit cm 2 && outside 10 10000 calPeriodMs) || (cmBit cm 3 && outside 1 1000 trendThreshold) ||
      (cmBit cm 4 && outside 1 1440 trendWindowMin) || (cmBit cm 5 && decide (127 < auto)), 0x0129)] <|
  .ok <| s.upFlt fun f => { f with
    hbmPatrolH := pick cm 0 hbmPatrolH f.hbmPatrolH, sramPatrolMs := pick cm 1 sramPatrolMs f.sramPatrolMs
    calPeriodMs := pick cm 2 calPeriodMs f.calPeriodMs, trendThreshold := pick cm 3 trendThreshold f.trendThreshold
    trendWindowMin := pick cm 4 trendWindowMin f.trendWindowMin, auto := pick cm 5 (BitVec.ofNat 7 auto) f.auto }

/-- BACKGROUND_SET (R536, R537). -/
def execBackgroundSet (h : HlyHdr) (cm hbmPatrolH sramPatrolMs calPeriodMs trendThreshold trendWindowMin auto : Nat) (s : State) :
    Host.Outcome State Fault Refusal :=
  ends <| runHly (.backgroundSet h cm hbmPatrolH sramPatrolMs calPeriodMs trendThreshold trendWindowMin auto) 0x0D07 h 0 0 []
    (backgroundSetBody cm hbmPatrolH sramPatrolMs calPeriodMs trendThreshold trendWindowMin auto) s

/-! ### Recovery (R530) -/

/-- The severities that a recovery clears. -/
def recoverable (sev : Nat) : Bool := sev = 2 || sev = 3 || sev = 5

/-- The quiet period has passed (R525, R530): a level source that is active holds recovery back, and so does a forced source, which is
active (R532). -/
def State.recover (s : State) : State :=
  let due := s.flt.sources.any fun e => e.2.unc.any fun u => recoverable u.2
  let active := s.flt.sources.any fun e =>
    (e.2.active || e.2.force.isSome) && decide (2 ≤ e.2.effective)
  if s.flt.quietMs = 0 || !due || active || s.flt.halted then s
  else
    ((s.clearFaults (fun _ => true) recoverable).upFlt fun f => { f with
      recoveries := satAdd 32 f.recoveries 1, intStatus := setFlag f.intStatus 1 }).recoverPorts

/-- QUIET_PERIOD_EXPIRY (R530). -/
def execQuietPeriodExpiry (s : State) : Host.Outcome State Fault Refusal := ends s.recover

/-! ### Spares (R533, R534) -/

/-- TREND_FIRE (R534): it acts while the kind's auto bit is set. -/
def execTrendFire (kind unit : Nat) (s : State) : Host.Outcome State Fault Refusal :=
  ends (if s.flt.halted || outside 1 7 kind || decide (unitCount kind ≤ unit) || !s.flt.auto.getLsbD (kind - 1) then s
    else s.wantSwap kind unit)

/-- SPARE_SWAP_COMPLETE (R533). -/
def execSpareSwapComplete (kind unit : Nat) (s : State) : Host.Outcome State Fault Refusal := ends (s.swapDone kind unit)

/-- SRAM_UNCORRECTABLE_ERROR (R533). -/
def execSramUncorrectableError (row : Nat) (s : State) : Host.Outcome State Fault Refusal := ends (s.raise 1346 (.unit row))

/-- ENGINE_DUPLICATE_FAIL (R522, R533). -/
def execEngineDuplicateFail (engine : Nat) (s : State) : Host.Outcome State Fault Refusal :=
  ends (if 127 < engine then s else s.raise 897 (.unit engine))

/-- A management core has failed (R470, R533): the commands that it ran end by MANAGEMENT_FIRMWARE_FAULT (DEDUCED 175). -/
def State.coreFails (s : State) (src core : Nat) : State :=
  if 4 < core then s else (s.upMgc fun m => { m with coresFailed := addOnce m.coresFailed core }).raise src (.unit core)

/-- MANAGEMENT_CORE_WATCHDOG (R533). -/
def execManagementCoreWatchdog (core : Nat) (s : State) : Host.Outcome State Fault Refusal := ends (s.coreFails 1729 core)

/-- MANAGEMENT_CORE_FAILURE (R470, R533). -/
def execManagementCoreFailure (core : Nat) (s : State) : Host.Outcome State Fault Refusal := ends (s.coreFails 1728 core)

/-- DIRECTORY_BANK_FAILURE (R533, R327): the unit is the logical bank that the physical bank serves. -/
def execDirectoryBankFailure (bank : Nat) (s : State) : Host.Outcome State Fault Refusal :=
  ends (if 32 < bank then s
    else
      let logical := (s.dir.banks.get bank {}).moved.getD (if bank = 32 then 63 else bank)
      let s := s.upDir fun d => { d with banks := d.banks.upd bank {} fun b => { b with failed := true } }
      s.raise 774 (if logical = 63 then .none else .unit logical))

/-- ROUTE_BANK_FAILURE (R162, R533). -/
def execRouteBankFailure (tile bank : Nat) (s : State) : Host.Outcome State Fault Refusal :=
  ends (if decide (3 < tile) || decide (1 < bank) then s else s.raise 262 (.unit (2 * tile + bank)))

/-- PSEUDO_CHANNEL_FAILURE (R533). -/
def execPseudoChannelFailure (channel : Nat) (s : State) : Host.Outcome State Fault Refusal :=
  ends (if 63 < channel then s else s.raise 834 (.unit channel))

/-- AGEING_MONITOR_FLAG (R533): the unit is swapped whatever the source's severity. -/
def execAgeingMonitorFlag (kind unit : Nat) (s : State) : Host.Outcome State Fault Refusal :=
  let s := s.raiseLevel 1344 (.unit unit)
  ends (if s.flt.halted || !([1, 2, 6, 7].contains kind) || decide (unitCount kind ≤ unit) then s else s.wantSwap kind unit)

/-! ### Errors (R521, R535) -/

/-- The HBM region that holds an address (R292): 0 System, 1 Directory, 2 Matching, 3 Heaps, 4 Near pool. -/
def State.hbmRegion (s : State) (address : Nat) : Nat :=
  let u := address / 2 ^ 28
  let d := 4 + s.pool.dirUnits
  let m := d + s.pool.mtcUnits
  if u < 4 then 0 else if u < d then 1 else if u < m then 2 else if u < m + s.pool.heapUnits then 3 else 4

/-- Directory entries of a 64-byte line of the backing store (R292, R301, R302): 64 MiB an extent, 16 bytes an entry. -/
def State.lostEntries (s : State) (address : Nat) : State :=
  let o := address - 2 ^ 30
  match s.pool.extents.find? fun e => e.2.backing == some (o / 2 ^ 26) with
  | none => s
  | some (h, _) =>
    let line := o % 2 ^ 26 / 64 * 4
    s.upDir fun d => { d with badEntries := (List.range 4).foldl (fun l i => addOnce l (4194304 * h + line + i)) d.badEntries }

/-- A context half spilled to HBM is lost (R225, R535): `n` counts the send halves in HBM from 1, and 0 is any other
item. -/
def State.lostSystemItem (s : State) (n : Nat) : State :=
  match n, (s.trn.sends.filter fun c => !c.onDie) with
  | k + 1, l => match l[k]? with
    | some c => s.failSend c.key
    | none => s
  | _, _ => s

/-- HBM_UNCORRECTABLE_ERROR (R535): patrol scrub marks the line alone. `owner` is the instance of a matching entry, or
names a spilled half. -/
def execHbmUncorrectableError (address owner : Nat) (patrol : Bool) (s : State) : Host.Outcome State Fault Refusal :=
  let s := (s.upFlt fun f => { f with poisonLines := addOnce f.poisonLines (address / 64) }).raise 833
    (.unit (Config.hbmRow address))
  ends (match s.hbmRegion address, patrol with
    | 1, _ => s.lostEntries address
    | 0, false => s.lostSystemItem owner
    | 2, false => s.containInst owner
    | _, _ => s)

/-- DATAPATH_ERROR (R521, R526). -/
def execDatapathError (s : State) : Host.Outcome State Fault Refusal := ends (s.raise 320)

/-- SHROUD_BRIDGE_TIMEOUT (R521). -/
def execShroudBridgeTimeout (bridge : Nat) (s : State) : Host.Outcome State Fault Refusal :=
  let _ := bridge
  ends (s.raise 1664)

/-- CAL_PERIOD (R536): calibration of the free spares and idle lanes, where the hub's clocks run. -/
def execCalPeriod (s : State) : Host.Outcome State Fault Refusal :=
  ends (if s.pwr.mode = .stormJib || s.pwr.mode = .barePoles then s else s.upFlt fun f => { f with calibrations := f.calibrations + 1 })

end Sys2Proof.Machine
end

