-- ==== Sys2Proof/Machine/InstCmds.lean ====
section
/-!
DEFINITION. The commands and events of instances (R407 to R430): creation, resets and their steps, the dirty-page log, and what
a host's configuration writes do (R408, R415, R428).
Where the spec leaves a point open: DEDUCED 99, 100, 101, 103, 104, 105, 109 (notes/assumptions).
-/
namespace Sys2Proof.Machine

/-! ### Creation and settings (R407 to R409, R412, R418, R426, R427) -/

/-- MSI-X vectors of the instances of a host link but one (R427). -/
def State.linkVectors (s : State) (link but : Nat) : Nat :=
  sumOf (s.ins.inst.filter fun e => e.1 != but && e.2.state != .free && e.2.port == link) fun e => e.2.vectors

/-- A function of a host link is assigned to an instance (R407). -/
def State.functionTaken (s : State) (link function : Nat) : Bool :=
  s.ins.inst.any fun e => e.2.state != .free && e.2.port == link && e.2.function == function

/-- What INSTANCE_CREATE does (R407, R409, R426, R427, R549). -/
def instanceCreateBody (inst link function resetMode drainTimeout vectors : Nat) (s : State) : HRes :=
  refuseIf [
    (decide (1023 < inst) || decide (31 < link) || decide (1023 < function) || decide (1 < resetMode) || outside 1 300 drainTimeout ||
      outside 1 64 vectors, 0x011F),
    (!s.namesHostLink link, 0x0111),
    (inst = 0 || s.notFree inst || s.functionTaken link function, 0x0325),
    (decide (4096 < s.linkVectors link inst + vectors), 0x0215)] <|
  .ok <| (s.upInst inst fun n => {
    state := .enabled, gen := n.gen, retired := n.retired, squash := resetMode = 1, port := link, function, drainTimeout, vectors }).upTtc fun t =>
      { t with meters := t.meters.put inst { created := true } }

/-- INSTANCE_CREATE (R426). -/
def execInstanceCreate (h : HlyHdr) (inst link function resetMode drainTimeout vectors : Nat) (s : State) :
    Host.Outcome State Fault Refusal :=
  ends <| runHly (.instanceCreate h inst link function resetMode drainTimeout vectors) 0x0B01 h 0 0 [.inst inst]
    (instanceCreateBody inst link function resetMode drainTimeout vectors) s

/-- What INSTANCE_SET does (R412, R418, R426, R427). -/
def instanceSetBody (inst cm resetMode drainTimeout vectors : Nat) (s : State) : HRes :=
  let n := s.instance_ inst
  refuseIf [
    (decide (1023 < inst) || (cmBit cm 0 && decide (1 < resetMode)) || (cmBit cm 1 && outside 1 300 drainTimeout) ||
      (cmBit cm 2 && outside 1 64 vectors), 0x011F),
    (!s.notFree inst, 0x0301),
    (cmBit cm 2 && decide (4096 < s.linkVectors n.port inst + vectors), 0x0215)] <|
  .ok <| s.upInst inst fun n => { n with
    squash := if cmBit cm 0 then resetMode = 1 else n.squash
    drainTimeout := pick cm 1 drainTimeout n.drainTimeout, vectors := pick cm 2 vectors n.vectors }

/-- INSTANCE_SET (R426). -/
def execInstanceSet (h : HlyHdr) (inst cm resetMode drainTimeout vectors : Nat) (s : State) : Host.Outcome State Fault Refusal :=
  ends <| runHly (.instanceSet h inst cm resetMode drainTimeout vectors) 0x0B02 h 0 0 []
    (instanceSetBody inst cm resetMode drainTimeout vectors) s

/-! ### Resets (R414 to R419, R426, R428) -/

/-- What INSTANCE_RESET does (R415, R416, R426): form 0 default, 1 drain, 2 squash. -/
def instanceResetBody (inst form : Nat) (s : State) : HRes :=
  let n := s.instance_ inst
  refuseIf [
    (decide (1023 < inst) || decide (2 < form), 0x011F),
    (inst = 0, 0x0325),
    (!s.notFree inst, 0x0301),
    (n.state = .resetting, 0x0327)] <|
  .pend (s.startReset inst (form = 2 || (form = 0 && n.squash))) (.instReset inst) [.inst inst]

/-- INSTANCE_RESET (R415, R419, R426): it completes when no item remains. -/
def execInstanceReset (h : HlyHdr) (inst form : Nat) (s : State) : Host.Outcome State Fault Refusal :=
  ends <| runHly (.instanceReset h inst form) 0x0B03 h 0 0 [] (instanceResetBody inst form) s

/-- The slots of an instance that hold something, or that a bind has named (R275, R282). -/
def State.slotsInUse (s : State) (i : Nat) (imports : Bool) : Bool :=
  (s.pool.slots.any fun x => x.1 / 16384 == i && (match x.2 with
    | .local _ => !imports
    | .import _ => imports)) || (!imports && s.pool.extents.any fun e => e.2.pending.any fun x => x.1 == i)

/-- Something of R413 is bound to an instance. -/
def State.boundTo (s : State) (i : Nat) : Bool :=
  (s.adm.contracts.any fun c => c.2.p.inst == i) || (s.egs.leaves.any fun l => l.2.inst == i) || s.slotsInUse i false || s.slotsInUse i true ||
    (s.dir.windows.any fun w => w.2.maps.any fun m => m.1 == i) || (s.mec.regions.any fun r => r.2.inst == i && r.2.valid) ||
    (s.rdx.groups.any fun g => g.2.p.inst == i) || (s.instance_ i).log.enabled || (s.pool.links.any fun l => l.2.memInst == some i)

/-- An instance is to be Free (R413): a squash reset runs, which a drain under way becomes. -/
def State.beginDisable (s : State) (i : Nat) : State :=
  let n := s.instance_ i
  let s := s.upInst i fun n => { n with disabling := true }
  if n.state ≠ .resetting then s.startReset i true
  else if n.phase = .draining then s.genStep i
  else s

/-- What INSTANCE_DISABLE does (R413, R415, R426). -/
def instanceDisableBody (inst : Nat) (s : State) : HRes :=
  refuseIf [
    (inst = 0, 0x0325),
    (!s.notFree inst, 0x0301),
    (s.boundTo inst, 0x0326)] <|
  .pend (s.beginDisable inst) (.instDisable inst) [.inst inst]

/-- INSTANCE_DISABLE (R413, R426, R551). -/
def execInstanceDisable (h : HlyHdr) (inst : Nat) (s : State) : Host.Outcome State Fault Refusal :=
  ends <| runHly (.instanceDisable h inst) 0x0B04 h 0 0 [.inst inst] (instanceDisableBody inst) s

/-- RESET_DRAIN_COMPLETE (R416): the outstanding items have reached 0. -/
def execResetDrainComplete (inst : Nat) (s : State) : Host.Outcome State Fault Refusal :=
  ends (if (s.instance_ inst).phase = .draining && s.outstanding inst = 0 then s.genStep inst else s)

/-- DRAIN_TIMEOUT_EXPIRY (R416, R418, R419): what remains is squashed. -/
def execDrainTimeoutExpiry (inst : Nat) (s : State) : Host.Outcome State Fault Refusal :=
  ends (if (s.instance_ inst).phase = .draining && s.outstanding inst ≠ 0 then
    let left := s.outstanding inst
    let s := (s.upInst inst fun n => { n with squashed := left, timedOut := true }).upIns fun x => { x with intStatus := setFlag x.intStatus 1 }
    (s.raise 1088 (.inst inst)).genStep inst
  else s)

/-- GENERATION_WAIT_EXPIRY (R411): the 64 ms since the generation value that comes next was retired have passed. -/
def execGenerationWaitExpiry (inst : Nat) (s : State) : Host.Outcome State Fault Refusal :=
  ends (if (s.instance_ inst).phase = .genWait then
      (s.upInst inst fun n => { n with retired := n.retired.filter fun r => r.1 ≠ (n.gen + 1) % 16 }).genStep inst
    else s)

/-- RESET_ITEMS_DONE (R413, R416, R419): no item remains. -/
def execResetItemsDone (inst : Nat) (s : State) : Host.Outcome State Fault Refusal :=
  ends (if (s.instance_ inst).phase = .ending && s.outstanding inst = 0 then s.resetEnds inst else s)

/-- Every item of an instance that is still outstanding is ended (R418). -/
def State.endItems (s : State) (i : Nat) : State :=
  let s := (s.squashWork i).releaseWork i
  let s := s.upMec fun m => { m with reads := m.reads.keep fun _ p => p.inst ≠ i }
  s.upInst i fun n => { n with reads := [], heldAcc := [] }

/-- RESET_FORCE_EXPIRY (R418, R419): 90 ms after the trigger, what remains is ended by force and the reset completes. -/
def execResetForceExpiry (inst : Nat) (s : State) : Host.Outcome State Fault Refusal :=
  ends (if (s.instance_ inst).state = .resetting && s.outstanding inst ≠ 0 then
    let left := s.outstanding inst
    let s := (s.upInst inst fun n => { n with squashed := n.squashed + left, forced := true }).upIns fun x => { x with
      intStatus := setFlag x.intStatus 2 }
    let s := ((s.endItems inst).raise 1089 (.inst inst))
    let s := if (s.instance_ inst).phase = .ending then s else s.genStep inst
    if (s.instance_ inst).phase = .ending then s.resetEnds inst else s
  else s)

/-! ### What a host's configuration writes do (R408, R415, R428, R486, R562) -/

/-- A configuration access of a host: it wakes storm jib (R42), and reaches a device that forwards. -/
def State.hostConfig (s : State) (f : State → State) : State :=
  let t := s.wake
  if t.forwarding then f t else t

/-- An instance's reset by FLR begins, or joins one that runs (R415, R428). One that is Contained has nothing left to end, and stays so
(R409). -/
def State.flr (s : State) (i : Nat) : State :=
  let n := s.instance_ i
  let s := s.latchSrc (1024 + i)
  match n.state with
  | .free => s
  | .contained => (s.emit (.config i false)).emit (.config i true)
  | .resetting => (s.upInst i fun n => { n with flr := true }).emit (.config i false)
  | .enabled =>
    if i = 0 then (if s.mgc.mgmtReset then s.upMgc fun m => { m with flrWait := true } else s.flr0)
    else ((s.upInst i fun n => { n with flr := true }).emit (.config i false)).startReset i n.squash

/-- FUNCTION_LEVEL_RESET (R415, R428, R483, R562, R573). -/
def execFunctionLevelReset (inst : Nat) (s : State) : Host.Outcome State Fault Refusal :=
  ends (if !s.reachable inst then s else s.hostConfig fun s => s.flr inst)

/-- The instances on a link's virtual functions (R408, R415). -/
def State.vfInstances (s : State) (link : Nat) : List Nat :=
  (s.ins.inst.filter fun e => e.2.state != .free && e.2.port == link && e.2.function != 0).map (·.1)

/-- A reset that VF Enable starts (R415): one that runs goes on, and a Contained instance stays so. -/
def State.vfReset (s : State) (i : Nat) : State :=
  let s := s.latchSrc (1024 + i)
  if (s.instance_ i).state = .enabled then s.startReset i (s.instance_ i).squash else s

/-- VF_ENABLE_CLEAR (R408, R415, R483). -/
def execVfEnableClear (link : Nat) (s : State) : Host.Outcome State Fault Refusal :=
  ends (s.hostConfig fun s =>
    if !s.namesHostLink link || !(s.hostLink link).vfEnable then s
    else (s.vfInstances link).foldl State.vfReset (s.upHostLink link fun l => { l with vfEnable := false }))

/-- VF_ENABLE_SET (R408, R415, R483): the instances on the virtual functions can be reached. -/
def execVfEnableSet (link numVfs : Nat) (s : State) : Host.Outcome State Fault Refusal :=
  ends (s.hostConfig fun s =>
    if !s.namesHostLink link then s
    else (s.vfInstances link).foldl (fun s i => s.latchSrc (1024 + i))
      (s.upHostLink link fun l => { l with vfEnable := true, numVfs := min numVfs 1023 }))

/-- BUS_MASTER_ENABLE_CLEAR (R428, R430): accesses to the host's memory wait. -/
def execBusMasterEnableClear (inst : Nat) (s : State) : Host.Outcome State Fault Refusal :=
  ends (s.hostConfig fun s => if s.notFree inst then s.upInst inst fun n => { n with bmeHeld := true } else s)

/-- An access that waited goes out (R428). -/
def State.release (s : State) (i : Nat) (a : HostAcc) : State :=
  match a with
  | .write address data => s.emit (.hostWrite i address data)
  | .read address length tag => s.emit (.hostRead i address length tag)
  | .msix vector => s.emit (.msix i vector)

/-- BUS_MASTER_ENABLE_SET (R428, R430): the accesses that waited go out in order. -/
def execBusMasterEnableSet (inst : Nat) (s : State) : Host.Outcome State Fault Refusal :=
  ends (s.hostConfig fun s =>
    let held := (s.instance_ inst).heldAcc
    if s.notFree inst then held.foldl (fun s a => s.release inst a) (s.upInst inst fun n => { n with bmeHeld := false, heldAcc := [] }) else s)

/-! ### The dirty-page log (R420 to R424, R426) -/

/-- Alignment and range of DIRTY_LOG_SET (R421): `inFunction` says that the buffers lie in memory of the function. -/
def logBad (enable : Bool) (baseA baseB rangeBase rangePages : Nat) (inFunction : Bool) : Bool :=
  enable && (decide (baseA % 4096 ≠ 0) || decide (baseB % 4096 ≠ 0) || decide (rangeBase % 4096 ≠ 0) || outside 1 4294967296 rangePages ||
    !inFunction)

/-- Every mark of a buffer is written back (R423, R424). -/
def State.flushLog (s : State) (i : Nat) (b : Bool) : State := s.logBack i b fun _ => true

/-- What DIRTY_LOG_SET does (R420, R421, R424, R426): disabling completes after the same write-back as a swap. -/
def dirtyLogSetBody (inst : Nat) (enable : Bool) (baseA baseB rangeBase rangePages : Nat) (inFunction : Bool) (s : State) : HRes :=
  let l := (s.instance_ inst).log
  refuseIf [
    (decide (1023 < inst) || logBad enable baseA baseB rangeBase rangePages inFunction, 0x011F),
    (!s.notFree inst, 0x0301),
    (l.swapping || l.disabling, 0x0328)] <|
  if enable then
    .ok <| ((s.flushLog inst false).flushLog inst true).upInst inst fun n => { n with log := { n.log with
      enabled := true, activeB := false, baseA, baseB, rangeBase, rangePages, outOfRange := 0 } }
  else if l.enabled then
    .pend (s.upInst inst fun n => { n with log := { n.log with enabled := false, disabling := true } }) (.logSwap inst) []
  else .ok s

/-- DIRTY_LOG_SET (R420, R426). -/
def execDirtyLogSet (h : HlyHdr) (inst : Nat) (enable : Bool) (baseA baseB rangeBase rangePages : Nat) (inFunction : Bool) (s : State) :
    Host.Outcome State Fault Refusal :=
  ends <| runHly (.dirtyLogSet h inst enable baseA baseB rangeBase rangePages inFunction) 0x0B05 h 0 0 []
    (dirtyLogSetBody inst enable baseA baseB rangeBase rangePages inFunction) s

/-- What DIRTY_LOG_SWAP does (R423, R426, R428): later writes are marked in the other buffer at once. -/
def dirtyLogSwapBody (inst : Nat) (s : State) : HRes :=
  let l := (s.instance_ inst).log
  refuseIf [
    (!s.notFree inst, 0x0301),
    (!l.enabled || l.swapping || l.disabling, 0x0328)] <|
  .pend (s.upInst inst fun n => { n with log := { n.log with
    activeB := !n.log.activeB, swapping := true, replyRange := n.log.outOfRange, outOfRange := 0 } }) (.logSwap inst) []

/-- DIRTY_LOG_SWAP (R423, R426): it completes after its write-back. -/
def execDirtyLogSwap (h : HlyHdr) (inst : Nat) (s : State) : Host.Outcome State Fault Refusal :=
  ends <| runHly (.dirtyLogSwap h inst) 0x0B06 h 0 0 [] (dirtyLogSwapBody inst) s

/-- Data writes marked in the log wait to be issued (R423, R428). -/
def Instance.writesHeld (n : Instance) : Bool := n.heldAcc.any fun a => match a with
  | .write .. => true
  | _ => false

/-- LOG_SWAP_WRITEBACK_DONE (R423, R424): the old buffer's lines are written back, and its data writes have been issued. -/
def execLogSwapWritebackDone (inst : Nat) (s : State) : Host.Outcome State Fault Refusal :=
  let n := s.instance_ inst
  ends (if n.writesHeld then s
    else if n.log.swapping then
      let s := s.flushLog inst (!n.log.activeB)
      let s := s.upInst inst fun n => { n with log := { n.log with swapping := false, swaps := (n.log.swaps + 1) % 2 ^ 32 } }
      let s := s.upIns fun x => { x with intStatus := setFlag x.intStatus 4 }
      s.finishWait (.logSwap inst) 0 (packBits [((n.log.swaps + 1) % 2 ^ 32, 32), (b2n n.log.activeB, 1), (n.log.replyRange, 32)])
    else if n.log.disabling then
      (((s.flushLog inst false).flushLog inst true).upInst inst fun n => { n with log := { n.log with disabling := false } }).finishWait
        (.logSwap inst) 0 0
    else s)

/-! ### INSTANCE_QUERY (R426, R595) -/

/-- The resources of R412 that are bound to an instance, by row. -/
def State.boundRows (s : State) (i : Nat) : List Bool :=
  let e := s.engInst i
  let queues := s.mec.sendQ.any (fun q => q.2.inst == i) || s.mec.recvQ.any (fun q => q.2.inst == i)
  let vectors := s.mec.compQ.any (fun q => q.2.inst == i) || s.mec.eventQ.any fun q => q.2.inst == i
  [s.adm.contracts.any fun c => c.2.p.inst == i, (s.adm.meters.get i {}).peak ≠ 0, s.egs.leaves.any fun l => l.2.inst == i,
    queues || vectors, s.mec.regions.any fun r => r.2.inst == i && r.2.valid,
    decide (0 < e.counterCount + e.heap + e.matchEntries + e.onDieReserve), s.slotsInUse i false, s.slotsInUse i true,
    s.dir.windows.any fun w => w.2.maps.any fun m => m.1 == i,
    s.rdx.groups.any fun g => g.2.p.inst == i || g.2.p.members.any fun m => m.inst == i,
    s.pool.links.any fun l => l.2.memInst == some i, vectors, false, (s.instance_ i).log.enabled, s.notFree i]

/-- Bits of a list, the first lowest. -/
def bitsNum (l : List Bool) : Nat := packBits (l.map fun b => (b2n b, 1))

/-- The output of INSTANCE_QUERY, 32 bytes (R595). -/
def State.instanceImage (s : State) (i : Nat) : List Nat :=
  let n := s.instance_ i
  outBytes [(1, instStateNum n.state), (1, n.gen), (1, n.port), (1, b2n n.squash), (2, n.function), (2, n.drainTimeout),
    (4, s.outstanding i), (1, bitsNum [n.log.enabled, n.log.activeB, n.log.swapping]), (3, 0), (4, n.log.swaps), (4, n.log.outOfRange),
    (2, bitsNum (s.boundRows i)), (6, 0)]

/-- INSTANCE_QUERY (R409, R426, R595). -/
def execInstanceQuery (h : HlyHdr) (inst : Nat) (s : State) : Host.Outcome State Fault Refusal :=
  ends <| runHly (.instanceQuery h inst) 0x0B07 h 0 32 [] (fun s =>
    refuseIf [(decide (1023 < inst), 0x011F), (!s.notFree inst, 0x0301)] (.data s (s.instanceImage inst))) s

/-! ### MSI-X masks (R486) -/

/-- A vector that is unmasked sends its pending message (R486). -/
def State.sendPending (s : State) (i v : Nat) : State :=
  let m := s.msix.get i {}
  let x := m.vectors.get v {}
  if !x.pending || x.masked || m.functionMask || !m.enable then s
  else ({ s with msix := s.msix.put i { m with vectors := m.vectors.put v { x with pending := false } } }).access i (.msix v) (.msix i v)

/-- MSIX_UNMASK (R486): the host enables MSI-X and clears Function Mask, or clears one vector's mask. -/
def execMsixUnmask (inst vector : Nat) (wholeFunction : Bool) (s : State) : Host.Outcome State Fault Refusal :=
  ends (s.hostConfig fun s =>
    let m := s.msix.get inst {}
    if !s.notFree inst || decide ((s.instance_ inst).vectors ≤ vector) then s
    else if wholeFunction then
      let s := { s with msix := s.msix.put inst { m with enable := true, functionMask := false } }
      (m.vectors.map (·.1)).foldl (fun s v => s.sendPending inst v) s
    else
      let x := m.vectors.get vector {}
      ({ s with msix := s.msix.put inst { m with enable := true, vectors := m.vectors.put vector { x with masked := false } } }).sendPending
        inst vector)

end Sys2Proof.Machine
end

