-- ==== Sys2Proof/Machine/ProtCmds.lean ====
section
/-!
DEFINITION. The commands and events of memory protection and of the interrupt controller (R470 to R488).
Where the spec leaves a point open: DESIGN CHOICE 22; DEDUCED 107, 108 (notes/assumptions).
-/
namespace Sys2Proof.Machine

/-! ### Rule sets (R471, R472, R476, R477, R481) -/

/-- A region entry with a reserved encoding (R472): a reserved bit, or a valid entry of no pages. -/
def badEntry (r : MpuRegion) : Bool :=
  r.reserved ≠ 0 || (r.valid && r.pages = 0) || decide (2 ^ 32 ≤ r.pages) || decide (2 ^ 52 ≤ r.basePage) || decide (3 < r.space) ||
    decide (31 < r.link) || decide (1023 < r.function)

/-- Entries written to a set from a region upwards (R481): an entry of zeros is not listed. -/
def putEntries (t : Tbl MpuRegion) (first : Nat) : List MpuRegion → Tbl MpuRegion
  | [] => t
  | e :: rest => putEntries (if e = {} then t.del first else t.put first e) (first + 1) rest

/-- What MPU_RULES_SET does (R476, R477, R481): only the inactive set is written. -/
def mpuRulesSetBody (master set first count : Nat) (entries : List MpuRegion) (s : State) : HRes :=
  let m := s.master master
  refuseIf [
    (!masterExists master || decide (1 < set) || decide (63 < first) || outside 1 64 count || decide (64 < first + count) ||
      decide (entries.length ≠ count) || entries.any badEntry, 0x0125),
    (m.activeB == (set == 1) || m.swap ≠ .idle, 0x032B)] <|
  .ok <| s.upMaster master fun m =>
    if set = 1 then { m with setB := putEntries m.setB first entries } else { m with setA := putEntries m.setA first entries }

/-- MPU_RULES_SET (R481). -/
def execMpuRulesSet (h : HlyHdr) (master set first count : Nat) (entries : List MpuRegion) (s : State) : Host.Outcome State Fault Refusal :=
  ends <| runHly (.mpuRulesSet h master set first count entries) 0x0C01 h (16 * count) 0 [] (mpuRulesSetBody master set first count entries) s

/-- The masters that an MPU_SWAP names: 0xFF is every engine position (R477). -/
def swapMasters (master : Nat) : List Nat := if master = 255 then List.range 128 else [master]

/-- What MPU_SWAP does (R476, R477, R481): each master awaits its commit point. -/
def mpuSwapBody (master : Nat) (s : State) : HRes :=
  refuseIf [
    (master ≠ 255 && !masterExists master, 0x0125),
    ((swapMasters master).any fun m => (s.master m).swap ≠ .idle, 0x032C)] <|
  .pend ((swapMasters master).foldl (fun s m => s.upMaster m fun x => { x with swap := .commit }) s) (.mpuSwap master) []

/-- MPU_SWAP (R477, R481): it completes when the accesses issued before its commit have retired. -/
def execMpuSwap (h : HlyHdr) (master : Nat) (s : State) : Host.Outcome State Fault Refusal :=
  ends <| runHly (.mpuSwap h master) 0x0C02 h 0 0 [] (mpuSwapBody master) s

/-- MPU_SWAP_COMMIT (R476, R477): the sets change places; the reads issued before are remembered until they retire. -/
def execMpuSwapCommit (master : Nat) (s : State) : Host.Outcome State Fault Refusal :=
  ends (if (s.master master).swap = .commit then
    s.upMaster master fun m => { m with
      activeB := !m.activeB, swap := .retire, reads := (s.mec.reads.filter fun p => p.2.master == master).map (·.1) }
  else s)

/-- A swap command completes (R477, R488). -/
def State.ruleSwapDone (s : State) (master : Nat) : State :=
  let all := s.hly.progress.any fun p => p.wait == .mpuSwap 255
  let s := s.upMpu fun u => { u with intStatus := setFlag u.intStatus 3 }
  if all && decide (master < 128) then s.finishWait (.mpuSwap 255) 0 0 else s.finishWait (.mpuSwap master) 0 0

/-- MPU_SWAP_RETIRE (R477): every access issued before the commit has retired. -/
def execMpuSwapRetire (master : Nat) (s : State) : Host.Outcome State Fault Refusal :=
  ends (if (s.master master).swap = .retire && (s.master master).reads.isEmpty then
    let s := s.upMaster master fun m => { m with swap := .idle }
    let all := s.hly.progress.any fun p => p.wait == .mpuSwap 255
    if all && decide (master < 128) && (List.range 128).any fun m => (s.master m).swap ≠ .idle then s else s.ruleSwapDone master
  else s)

/-- A region entry of 16 bytes (R472). -/
def entryImage (r : MpuRegion) : List Nat :=
  bytesLE 16 (packBits [(b2n r.valid, 1), (r.space, 2), (r.perm.toNat, 9), (r.link, 5), (r.function, 10), (b2n r.ownFunction, 1),
    (r.reserved, 4), (r.pages, 32), (r.basePage, 52)])

/-- MPU_VIOL_INFO of a record (R488). -/
def violInfo (v : Violation) : Nat :=
  packBits [(1, 1), (v.kind, 2), (v.privilege, 2), (v.master, 8), (v.region, 7), (b2n v.setB, 1), (v.space, 2)]

/-- MPU_STATUS (R488). -/
def State.mpuStatus (s : State) : Nat :=
  packBits [(if Config.production then 1 else 0, 2), (b2n s.mpu.unlocked, 1), (b2n s.mpu.nonce.isSome, 1), (s.mpu.viol.length, 5)]

/-- The output of MPU_QUERY (R481, R594): active set, both sets, the violation queue as the images of its registers, and
MPU_STATUS. -/
def State.mpuImage (s : State) (master : Nat) : List Nat :=
  let m := s.master master
  let set := fun (t : Tbl MpuRegion) => (List.range 64).flatMap fun i => entryImage (t.get i {})
  outBytes [(4, b2n m.activeB)] ++ set m.setA ++ set m.setB ++
    ((List.range 16).flatMap fun i => match s.mpu.viol[i]? with
      | some v => outBytes [(8, v.address), (4, violInfo v)]
      | none => outBytes [(12, 0)]) ++ outBytes [(4, s.mpuStatus)]

/-- MPU_QUERY (R481, R594). -/
def execMpuQuery (h : HlyHdr) (master : Nat) (s : State) : Host.Outcome State Fault Refusal :=
  ends <| runHly (.mpuQuery h master) 0x0C03 h 0 2248 [] (fun s =>
    if masterExists master then .data s (s.mpuImage master) else .refuse 0x0125) s

/-- MPU_VIOL_POP: a write of MPU_VIOL_INFO (R475, R488). The loss count starts anew when the queue empties. -/
def execMpuViolPop (value : Word) (s : State) : Host.Outcome State Fault Refusal :=
  let s := s.wake
  ends (if !value.getLsbD 0 || s.mpu.viol.isEmpty then s
    else s.upMpu fun u => { u with viol := u.viol.drop 1, lost := if u.viol.length ≤ 1 then 0 else u.lost })

/-! ### Debug unlock (R479, R480) -/

/-- A fresh nonce of 32 bytes (R480): a free value. -/
def State.freshNonce (s : State) : Nat × State :=
  let (a, s) := s.fresh
  let (b, s) := s.fresh
  let (c, s) := s.fresh
  let (d, s) := s.fresh
  (a + 2 ^ 64 * b + 2 ^ 128 * c + 2 ^ 192 * d, s)

/-- What DEBUG_UNLOCK does (R480, R481): action 1 consumes the nonce whether it succeeds or fails. -/
def debugUnlockBody (action serial nonce : Nat) (signatureOk : Bool) (s : State) : HRes :=
  refuseIf [
    (decide (2 < action), 0x0125),
    (Config.production, 0x0403),
    (action = 1 && s.mpu.nonce.isNone, 0x032D)] <|
  match action with
  | 0 =>
    let (n, s) := s.freshNonce
    .data (s.upMpu fun u => { u with nonce := some n }) (bytesLE 32 n)
  | 1 =>
    let good := serial = Config.serial && s.mpu.nonce = some nonce && signatureOk
    let s := s.upMpu fun u => { u with nonce := none, unlocked := u.unlocked || good }
    .done s (if good then 0 else 0x0404) 0 []
  | _ => .ok <| s.upMpu fun u => { u with unlocked := false }

/-- DEBUG_UNLOCK (R480, R481). -/
def execDebugUnlock (h : HlyHdr) (action serial nonce : Nat) (signatureOk : Bool) (s : State) : Host.Outcome State Fault Refusal :=
  ends <| runHly (.debugUnlock h action serial nonce signatureOk) 0x0C04 h (if action = 1 then 136 else 0) (if action = 0 then 32 else 0) []
    (debugUnlockBody action serial nonce signatureOk) s

/-! ### Interrupts (R481 to R485) -/

/-- What ICU_SET does (R481, R482, R484): target 0 sources, 1 a core's threshold. -/
def icuSetBody (target first count priority coreMask threshold : Nat) (s : State) : HRes :=
  refuseIf [
    (decide (1 < target) || decide (2047 < first) || outside 1 2048 count || decide (2048 < first + count) || decide (255 < priority) ||
      decide (31 < coreMask) || decide (255 < threshold) || (target = 1 && decide (4 < first)), 0x0126)] <|
  .ok <| s.upIcu fun c =>
    if target = 1 then { c with cores := c.cores.upd first {} fun x => { x with threshold } }
    else { c with sources := (List.range count).foldl (fun (t : Tbl IcuSource) i =>
      t.upd (first + i) {} fun x => { x with priority, mask := BitVec.ofNat 5 coreMask }) c.sources }

/-- ICU_SET (R481). -/
def execIcuSet (h : HlyHdr) (target first count priority coreMask threshold : Nat) (s : State) : Host.Outcome State Fault Refusal :=
  ends <| runHly (.icuSet h target first count priority coreMask threshold) 0x0C05 h 0 0 []
    (icuSetBody target first count priority coreMask threshold) s

/-- ICU_SOURCE of a source (R488). -/
def State.icuSourceReg (s : State) (n : Nat) : Nat :=
  let x := s.icu.sources.get n {}
  packBits [(x.priority, 8), (x.mask.toNat, 5), (b2n (s.pendingSrc n), 1), (b2n x.claimed.isSome, 1), (x.claimed.getD 0, 3)]

/-- ICU_QUERY (R481, R594). -/
def execIcuQuery (h : HlyHdr) (first count : Nat) (s : State) : Host.Outcome State Fault Refusal :=
  ends <| runHly (.icuQuery h first count) 0x0C06 h 0 (4 * count) [] (fun s =>
    refuseIf [(decide (2047 < first) || outside 1 64 count || decide (2048 < first + count), 0x0126)] <|
    .data s ((List.range count).flatMap fun i => outBytes [(4, s.icuSourceReg (first + i))])) s

/-- What a claim by a core returns when there is nothing for it (R485). -/
abbrev noClaim : Nat := 0xFFF

/-- ICU_CLAIM_READ (R484, R485): through BAR0, or beyond depth 8, it returns 0xFFF without effect. -/
def execIcuClaimRead (core : Nat) (viaBar0 : Bool) (s : State) : Host.Outcome State Fault Refusal :=
  let s := if viaBar0 then s.wake else s
  let depth := (s.icu.cores.get core {}).claims.length
  ends (match s.claimable core with
    | none => s.emit (.readData noClaim)
    | some n =>
      if viaBar0 || decide (4 < core) || decide (8 ≤ depth) then s.emit (.readData noClaim)
      else
        (s.upIcu fun c => { c with
          sources := c.sources.upd n {} fun x => { x with claimed := some core, latch := false }
          cores := c.cores.upd core {} fun k => { k with claims := n :: k.claims } }).emit (.readData n))

/-- ICU_COMPLETE_WRITE (R485, R487): ignored through BAR0; one that names a source the core has not claimed is counted. -/
def execIcuCompleteWrite (core source : Nat) (viaBar0 : Bool) (s : State) : Host.Outcome State Fault Refusal :=
  ends (if viaBar0 then s.wake
    else if (s.icu.cores.get core {}).claims.contains source then
      s.upIcu fun c => { c with
        sources := c.sources.upd source {} fun x => { x with claimed := none }
        cores := c.cores.upd core {} fun k => { k with claims := k.claims.filter (· ≠ source) } }
    else s.upIcu fun c => { c with badCompletes := c.badCompletes + 1 })

/-- ICU_SWI_WRITE (R483, R488): each bit that is written 1 sets its latch. -/
def execIcuSwiWrite (value : Word) (s : State) : Host.Outcome State Fault Refusal :=
  ends (((List.range 5).filter fun c => value.getLsbD c).foldl (fun s c => s.latchSrc (32 + c)) s.wake)

end Sys2Proof.Machine
end

