-- ==== Sys2Proof/Machine/ObsCmds.lean ====
section
/-!
DEFINITION. The commands and events of observation: telltale counters and sampling, dumps, metering on request, and probes
(R540 to R556).
Where the spec leaves a point open: DEDUCED 110, 111 (notes/assumptions).
-/
namespace Sys2Proof.Machine

/-! ### Telltale counters (R540 to R544, R554) -/

/-- Assigned local indices of a block's events, as ranges (R542). -/
def assignedEvents (block : Nat) : List (Nat × Nat) :=
  match block with
  | 2 => [(0, 95)]
  | 3 => [(0, 2)]
  | 4 => [(0, 2)]
  | 6 => [(0, 235)]
  | 8 => [(128, 255)]
  | 9 => [(0, 3)]
  | 12 => [(0, 0), (128, 255)]
  | 13 => [(128, 255)]
  | 14 => [(0, 2), (128, 255)]
  | 18 => [(0, 2)]
  | 21 => [(1, 6)]
  | 27 => [(0, 0)]
  | _ => []

/-- An event number that a block assigns (R542). -/
def eventOf (block event : Nat) : Bool :=
  event / 256 == block && (assignedEvents block).any fun r => decide (r.1 ≤ event % 256) && decide (event % 256 ≤ r.2)

/-- What TTC_SET does (R544, R554): the accumulated value is kept. -/
def ttcSetBody (block counter event samplePeriod : Nat) (s : State) : HRes :=
  refuseIf [
    (decide (27 < block) || decide (7 < counter) || !eventOf block event || decide (2 ^ 32 ≤ samplePeriod) ||
      (samplePeriod ≠ 0 && block ≠ 14), 0x012A),
    (!s.ttc.programmable, 0x0336)] <|
  .ok <| s.upTtc fun t => { t with counters := t.counters.upd (8 * block + counter) {} fun c => { c with
    event := some event, period := samplePeriod, countdown := [] } }

/-- TTC_SET (R554). -/
def execTtcSet (h : HlyHdr) (block counter event samplePeriod : Nat) (s : State) : Host.Outcome State Fault Refusal :=
  ends <| runHly (.ttcSet h block counter event samplePeriod) 0x0E01 h 0 0 [] (ttcSetBody block counter event samplePeriod) s

/-- COUNTER_ACCUMULATE (R541): every 1 us the local registers are added to the accumulators. -/
def execCounterAccumulate (s : State) : Host.Outcome State Fault Refusal :=
  ends (if s.ttc.programmable then
    s.upTtc fun t => { t with counters := t.counters.mapv fun c => { c with value := c.total, local_ := 0 } }
  else s)

/-- SAMPLE_COUNTDOWN_ZERO (R544): `counter` is one of the eight of MEC. -/
def execSampleCountdownZero (engine counter programCounter : Nat) (s : State) : Host.Outcome State Fault Refusal :=
  let k := 112 + counter
  let c := s.ttc.counters.get k {}
  ends (if !s.ttc.programmable || decide (7 < counter) || decide (127 < engine) || c.period = 0 then s
    else (s.upTtc fun t => { t with counters := t.counters.put k { c with
      countdown := c.countdown.put engine c.period, sampled := c.sampled.put engine programCounter } }).latchSrc (64 + engine))

/-! ### Dumps (R545 to R548, R551, R554) -/

/-- New settings of a stream in force (R545, R547): enabling it clears its lost and skipped counts. -/
def Stream.apply (st : Stream) (v : Nat × Nat × Nat × Nat) : Stream :=
  let (interval, base, slots, vector) := v
  let ring := base ≠ st.base || slots ≠ st.slots
  { st with
    interval, base, slots, vector, pending := none
    next := if ring then 0 else st.next, full := if ring then [] else st.full
    lost := if st.interval = 0 && interval ≠ 0 then 0 else st.lost
    skipped := if st.interval = 0 && interval ≠ 0 then 0 else st.skipped }

/-- What DUMP_SET does (R545, R554): a stream that is off has no interval boundary to wait for. -/
def dumpSetBody (stream cm intervalMs ringBase slots vector : Nat) (inMemory : Bool) (s : State) : HRes :=
  let st := s.stream stream
  let ring := cmBit cm 1 || cmBit cm 2
  refuseIf [
    (decide (1 < stream) || (cmBit cm 0 && decide (60000 < intervalMs)) || (cmBit cm 1 && (decide (ringBase % 4096 ≠ 0) || !inMemory)) ||
      (cmBit cm 2 && outside 2 64 slots) || (cmBit cm 3 && decide (63 < vector)), 0x012A),
    (ring && st.interval ≠ 0, 0x0337)] <|
  let old := st.pending.getD (st.interval, st.base, st.slots, st.vector)
  let v := (pick cm 0 intervalMs old.1, pick cm 1 ringBase old.2.1, pick cm 2 slots old.2.2.1, pick cm 3 vector old.2.2.2)
  .ok <| s.upStream stream fun st => if st.interval = 0 then st.apply v else { st with pending := some v }

/-- DUMP_SET (R554). -/
def execDumpSet (h : HlyHdr) (stream cm intervalMs ringBase slots vector : Nat) (inMemory : Bool) (s : State) :
    Host.Outcome State Fault Refusal :=
  ends <| runHly (.dumpSet h stream cm intervalMs ringBase slots vector inMemory) 0x0E02 h 0 0 []
    (dumpSetBody stream cm intervalMs ringBase slots vector inMemory) s

/-- A slot is free for one more snapshot, beside those staged (R546, R547). -/
def Stream.hasRoom (st : Stream) : Bool :=
  decide (st.staged.length < st.slots) && !st.full.contains ((st.next + st.staged.length) % st.slots)

/-- A snapshot at an interval boundary (R545 to R547): skipped while the hub clocks are stopped, lost when no slot is free. -/
def State.snapshot (s : State) (n : Nat) : State :=
  let st := s.stream n
  if st.interval = 0 then s
  else if s.pwr.mode = .stormJib then
    s.upStream n fun st => { st with skipped := (st.skipped + 1) % 2 ^ 32, sequence := (st.sequence + 1) % 2 ^ 32 }
  else if !st.hasRoom then s.loseSnapshot n
  else s.stage n (if n = 1 then 2 else if s.ttc.programmable then 1 else 0) 0 none

/-- DUMP_INTERVAL (R545 to R547, R554): settings that wait for the boundary are in force first; `freed` is what software has freed. -/
def execDumpInterval (stream : Nat) (freed : List Nat) (s : State) : Host.Outcome State Fault Refusal :=
  ends (if s.pwr.lost || s.pwr.mode = .barePoles || decide (1 < stream) then s
    else
      let s := (s.freeSlots stream freed).upStream stream fun st => match st.pending with
        | none => st
        | some v => st.apply v
      s.snapshot stream)

/-- DUMP_SLOT_WRITTEN (R546, R551, R554): the oldest staged snapshot is in memory. -/
def execDumpSlotWritten (stream : Nat) (freed : List Nat) (s : State) : Host.Outcome State Fault Refusal :=
  ends (if s.pwr.lost || s.pwr.mode = .barePoles || s.pwr.mode = .stormJib || decide (1 < stream) then s
    else (s.freeSlots stream freed).writeSlot stream)

/-- What MTR_SET does (R551, R554): it completes when its slot is valid. -/
def mtrSetBody (action inst : Nat) (s : State) : HRes :=
  refuseIf [
    (decide (1 < action) || (action = 1 && decide (1023 < inst)), 0x012A),
    (action = 1 && !s.notFree inst, 0x0301),
    ((s.stream 1).slots = 0, 0x0336)] <|
  .pend (s.stage 1 (if action = 0 then 3 else 4) inst none) (.dump (s.stream 1).sequence) []

/-- MTR_SET (R554). -/
def execMtrSet (h : HlyHdr) (action inst : Nat) (s : State) : Host.Outcome State Fault Refusal :=
  ends <| runHly (.mtrSet h action inst) 0x0E05 h 0 0 [] (mtrSetBody action inst) s

/-- METERING_SLOT_WAIT_TIMEOUT (R551): the record is lost and INSTANCE_DISABLE completes with 0x0001. -/
def execMeteringSlotWaitTimeout (inst : Nat) (s : State) : Host.Outcome State Fault Refusal :=
  ends (if !(s.instance_ inst).meteringWait then s
    else
      let s := s.upStream 1 fun st => { st with staged := st.staged.filter fun p => p.final ≠ some inst, lost := (st.lost + 1) % 2 ^ 32 }
      (s.finishWait (.instDisable inst) 1 0).freeInstance inst)

/-! ### Probes (R552 to R554) -/

/-- A probe. -/
def State.probe (s : State) (n : Nat) : Probe := s.ttc.probes.get n {}

/-- Bytes of the trace areas of the probes but one (R554). -/
def State.traceBytes (s : State) (but : Nat) : Nat :=
  32 * sumOf (s.ttc.probes.filter fun e => e.1 != but && decide (2 ≤ e.2.action)) fun e => e.2.records

/-- What PROBE_SET does (R552 to R554): its counts and its write index are cleared. -/
def probeSetBody (probe bridge action source destination kindMask matchAddr mask records : Nat) (s : State) : HRes :=
  refuseIf [
    (decide (7 < probe) || decide (255 < bridge) || !Config.bridgeExists bridge || decide (3 < action) || decide (31 < source) ||
      decide (31 < destination) || decide (31 < kindMask) || outside 1 65536 records, 0x012A),
    (decide (2 ≤ action) && decide (67108864 < s.traceBytes probe + 32 * records), 0x0219)] <|
  .ok <| s.upTtc fun t => { t with probes := t.probes.put probe {
    action, bridge, source, destination, kindMask := BitVec.ofNat 5 kindMask, matchAddr := BitVec.ofNat 64 matchAddr
    mask := BitVec.ofNat 64 mask, records } }

/-- PROBE_SET (R554). -/
def execProbeSet (h : HlyHdr) (probe bridge action source destination kindMask matchAddr mask records : Nat) (s : State) :
    Host.Outcome State Fault Refusal :=
  ends <| runHly (.probeSet h probe bridge action source destination kindMask matchAddr mask records) 0x0E03 h 0 0 []
    (probeSetBody probe bridge action source destination kindMask matchAddr mask records) s

/-- A packet on a bridge matches a probe's filter (R552). -/
def probeHits (p : Probe) (bridge source destination kind address : Nat) : Bool :=
  p.action ≠ 0 && !p.stopped && p.bridge == bridge && (p.source = 31 || p.source == source) && (p.destination = 31 || p.destination == destination) &&
    p.kindMask.getLsbD kind && (BitVec.ofNat 64 address ^^^ p.matchAddr) &&& p.mask == 0

/-- A trace record of 32 bytes, as a number (R553). -/
def traceImage (time bridge source destination kind address length : Nat) (direction : Bool) : Nat :=
  packBits [(time, 64), (bridge, 8), (source, 5), (kind, 3), (destination, 5), (0, 2), (b2n direction, 1), (0, 8), (length, 32), (address, 64)]

/-- A match counts at a probe (R553), and a tracing one has a record to write. -/
def Probe.hit (p : Probe) (length record : Nat) : Probe :=
  let p := { p with matches_ := (p.matches_ + 1) % 2 ^ 64, bytes := (p.bytes + length) % 2 ^ 64 }
  if 2 ≤ p.action then { p with traceWait := p.traceWait ++ [record] } else p

/-- PROBE_MATCH (R552, R553): every probe that matches counts. -/
def execProbeMatch (bridge source destination kind address length : Nat) (direction : Bool) (s : State) :
    Host.Outcome State Fault Refusal :=
  let record := traceImage s.ftu.time bridge source destination kind address length direction
  let act := fun (p : Probe) => if probeHits p bridge source destination kind address then p.hit length record else p
  ends (s.upTtc fun t => { t with probes := t.probes.mapv act })

/-- A record written to a probe's trace area (R553): stop mode stops when the area is full, wrap mode overwrites the oldest. -/
def Probe.write (p : Probe) (record : Nat) : Probe :=
  if p.stopped || p.records = 0 then p
  else if p.action = 2 then
    let trace := p.trace ++ [record]
    { p with trace, writeIndex := p.writeIndex + 1, stopped := decide (p.records ≤ trace.length) }
  else
    let trace := if p.records ≤ p.trace.length then p.trace.drop 1 else p.trace
    { p with trace := trace ++ [record], writeIndex := (p.writeIndex + 1) % p.records }

/-- The background slice writes the trace records that wait (R536, R553); they leave on the external port too while the straps give the
shared ball to the trace clock (R557). -/
def State.writeTraces (s : State) : State :=
  s.ttc.probes.foldl (fun s e =>
    let p := e.2.traceWait.foldl Probe.write { e.2 with traceWait := [] }
    let s := s.upTtc fun t => { t with
      probes := t.probes.put e.1 p, intStatus := if p.stopped && !e.2.stopped then setFlag t.intStatus 2 else t.intStatus }
    if s.mgc.ppsSel = 1 then e.2.traceWait.foldl (fun s r => s.emit (.trace r)) s else s) s

/-- TRACE_RECORD_TIMEOUT (R553): the oldest record that waits is dropped and counted. -/
def execTraceRecordTimeout (probe : Nat) (s : State) : Host.Outcome State Fault Refusal :=
  let p := s.probe probe
  ends (if p.traceWait.isEmpty then s
    else s.upTtc fun t => { t with probes := t.probes.put probe { p with traceWait := p.traceWait.drop 1, dropped := p.dropped + 1 } })

/-- The record at a place of a probe's trace area (R553, R554). -/
def Probe.recordAt (p : Probe) (i : Nat) : Option Nat :=
  if p.trace.length ≤ i then none
  else if p.action = 3 && decide (p.records ≤ p.trace.length) then p.trace[(i + p.records - p.writeIndex) % p.records]?
  else p.trace[i]?

/-- The output of PROBE_QUERY (R554, R594): match count, byte count, write index, dropped count, then the records; a place that holds
none reads as zeros. -/
def probeImage (p : Probe) (first count : Nat) : List Nat :=
  outBytes [(8, p.matches_), (8, p.bytes), (4, p.writeIndex), (4, p.dropped)] ++
    (List.range count).flatMap fun i => bytesLE 32 ((p.recordAt (first + i)).getD 0)

/-- PROBE_QUERY (R554, R594). -/
def execProbeQuery (h : HlyHdr) (probe first count : Nat) (s : State) : Host.Outcome State Fault Refusal :=
  ends <| runHly (.probeQuery h probe first count) 0x0E04 h 0 (24 + 32 * count) [] (fun s =>
    refuseIf [(decide (7 < probe) || decide (65535 < first) || decide (4096 < count), 0x012A)] (.data s (probeImage (s.probe probe) first count))) s

end Sys2Proof.Machine
end

