-- ==== Sys2Proof/Machine/RegisterMap.lean ====
section
/-!
DEFINITION. Where the registers stand in BAR0 of instance 0 (R12, R436) and the value that a read of each returns (R92, R126, R152,
R196, R233, R269, R292, R326, R377, R406, R430, R469, R488, R519, R539, R556, R573): a field of State, or what State tells. Blocks are
numbered in the order of R436, as R483 numbers them.
Where the spec leaves a point open: DEDUCED 116, 156, 174 (notes/assumptions).
-/
namespace Sys2Proof.Machine

/-! ### Addresses -/

/-- The block and the offset that an address of BAR0 names (R436): windows of 256 KiB in the order of the blocks; none from
0x0070_0000 up, which is reserved. -/
def windowOf (address : Nat) : Option (Nat × Nat) :=
  if address < 0x700000 then some (address / 0x40000, address % 0x40000) else none

/-- The base of a window, the blocks' in their order and the reserved ones after them (R436). -/
def windowBase (window : Nat) : Nat := 0x40000 * window

/-- The entry of a register array: the offset of an entry of `size` bytes among `n` from `base`. -/
def arrayIndex (base size n offset : Nat) : Option Nat :=
  if base ≤ offset ∧ offset < base + size * n ∧ (offset - base) % size = 0 then some ((offset - base) / size) else none

/-- The first register array of a list that holds an offset, with its entry's value. -/
def firstArray (offset : Nat) : List (Nat × Nat × Nat × (Nat → Nat)) → Option Nat
  | [] => none
  | (base, size, n, f) :: t =>
    match arrayIndex base size n offset with
    | some i => some (f i)
    | none => firstArray offset t

/-! ### Lanes, ports and links -/

/-- LNE_STATUS (R269). -/
def State.lneStatus (s : State) (l : Nat) : Nat :=
  let x := s.lane l
  packBits [(b2n x.los, 1), (b2n x.locked, 1), (b2n (s.elecIdle l), 1), (b2n x.polarity, 1), (b2n (x.testFn ≠ 0), 1), (b2n x.prbsLock, 1),
    (b2n x.wear, 1), (s.logicalOf l, 4), (b2n x.retired, 1), (x.margin, 9)]

/-- PRT_MODE (R269). -/
def Port.modeReg (x : Port) : Nat :=
  packBits [(x.mode, 3), (x.width, 3), (x.maxRate, 4), (b2n x.pairLead, 1), (b2n x.idleEnable, 1), (b2n x.autoSpare, 1)]

/-- PRT_STATUS (R269). -/
def Port.statusReg (x : Port) : Nat :=
  packBits [(trainNum x.train, 4), (x.trainedRate.getD 15, 4), (x.trainedWidth.getD 7, 3), (b2n x.spareFor.isSome, 1),
    (x.spareFor.getD 0, 4), (subNum x.subState, 2), (b2n x.spareFailed, 1), (b2n x.channelOk, 1), (b2n x.stepped, 1), (b2n x.txIdle, 1)]

/-- LNK_STATE (R233). -/
def LnkPort.stateReg (l : LnkPort) : Nat :=
  packBits [(linkStateNum l.state, 3), (b2n (l.inject.kind ≠ 0), 1), (l.timeout, 9), (l.replayLimit, 8), (l.timeouts, 8)]

/-- The registers of LNE, PRT and LNK (R233, R269), by block. -/
def State.lanesReg (s : State) (block offset : Nat) : Option Nat :=
  match block with
  | 0 => firstArray offset [
      (0x10, 4, 1, fun _ => s.prt.lneStatus.toNat), (0x14, 4, 1, fun _ => s.prt.lneEnable.toNat),
      (0x1000, 4, 288, s.lneStatus), (0x2000, 4, 288, fun l => (s.lane l).corrected)]
  | 1 => firstArray offset [
      (0x10, 4, 1, fun _ => s.prt.intStatus.toNat), (0x14, 4, 1, fun _ => s.prt.intEnable.toNat),
      (0x100, 4, 32, fun p => (s.port p).modeReg), (0x200, 4, 32, fun p => (s.port p).statusReg), (0x300, 4, 32, fun p => (s.port p).uncorr)]
  | _ => firstArray offset [
      (0x10, 4, 1, fun _ => s.lnk.intStatus.toNat), (0x14, 4, 1, fun _ => s.lnk.intEnable.toNat),
      (0x100, 4, 32, fun p => (s.lport p).stateReg),
      (0x200, 4, 32, fun p => packBits [((s.lport p).txNext, 16), ((s.lport p).rxExpected, 16)]),
      (0x300, 4, 32, fun p => packBits [((s.lport p).flits, 14), ((s.lport p).replay.length, 14)]),
      (0x1000, 4, 256, fun k => if k % 8 = 7 then 0 else
        packBits [((s.linkVl (k / 8) (k % 8)).avail, 14), ((s.linkVl (k / 8) (k % 8)).limit, 14)]),
      (0x2000, 4, 256, fun k => if k % 8 = 7 then 0 else
        packBits [((s.linkVl (k / 8) (k % 8)).share, 14), ((s.linkVl (k / 8) (k % 8)).held, 14)])]

/-! ### Transport and routing -/

/-- The registers of TRN (R233). -/
def State.trnReg (s : State) (offset : Nat) : Option Nat :=
  let halves := fun (die : Bool) => (s.trn.sends.filter fun c => c.onDie == die).length + (s.trn.recvs.filter fun c => c.onDie == die).length
  firstArray offset [
    (0x00, 4, 1, fun _ => packBits [(halves true, 15), (s.trn.pinned, 14)]), (0x04, 4, 1, fun _ => packBits [(halves false, 19)]),
    (0x08, 4, 1, fun _ => packBits [(s.trn.retryLimit, 8), (s.trn.sendWindow, 7)]),
    (0x10, 4, 1, fun _ => s.trn.intStatus.toNat), (0x14, 4, 1, fun _ => s.trn.intEnable.toNat)]

/-- RTE_EPOCH (R196). -/
def State.epochReg (s : State) : Nat :=
  let bank := fun (n : Nat) => if n = 0 then s.rte.bank0 else s.rte.bank1
  packBits [((bank s.activeBank).tag, 2), (s.oldTag.getD 0, 2), (b2n s.oldTag.isSome, 1),
    (b2n (s.rte.bank0.state = .written || s.rte.bank1.state = .written), 1), (b2n s.rte.oldArrival, 1), (s.rte.spareTiles.toNat, 4)]

/-- RTE_PORT_ROUTE (R196). -/
def PortRoute.reg (r : PortRoute) : Nat :=
  packBits [(r.kind, 2), (b2n r.up, 1), (r.group, 10), (r.member, 6), (b2n r.nbrValid, 1), (r.nbrPort, 5)]

/-- The registers of RTE (R196). -/
def State.rteReg (s : State) (offset : Nat) : Option Nat :=
  firstArray offset [
    (0x00, 4, 1, fun _ => packBits [(s.rte.deviceId, 16), (b2n s.rte.valid, 1)]), (0x08, 4, 1, fun _ => Config.serial % 2 ^ 32),
    (0x0C, 4, 1, fun _ => Config.serial / 2 ^ 32 % 2 ^ 32), (0x10, 4, 1, fun _ => s.epochReg), (0x14, 4, 1, fun _ => s.oldCount % 2 ^ 24),
    (0x20, 4, 1, fun _ => packBits [(s.trn.heldCount, 13), (s.rte.holdHighWater, 13)]),
    (0x24, 4, 1, fun _ => packBits [(s.trn.granted, 13), (s.rte.quota, 4)]),
    (0x30, 4, 1, fun _ => s.rte.intStatus.toNat), (0x34, 4, 1, fun _ => s.rte.intEnable.toNat), (0x100, 4, 32, fun p => (s.rport p).reg)]

/-! ### The switch core, egress and delivery -/

/-- XSW_STATUS (R126): the core clock, stopped while the hub is off, starts or sleeps (R38, R566; DEDUCED 156); retention of the
buffer SRAM (R508); and the inputs with cells staged. -/
def State.xswStatus (s : State) : Nat :=
  let runs := s.pwr.mode ≠ .stormJib && s.pwr.mode ≠ .barePoles && !s.pwr.lost && s.mgc.stage ≠ .selfTest
  packBits [(if runs then (if s.pwr.mode = .reefed then 2 else 1) else 0, 2), (b2n (s.pwr.mode = .stormJib), 1),
    (((List.range 36).filter fun i => decide (0 < s.occupancy i)).length, 6)]

/-- CSC_STATUS (R126): the pairs locked in the two matchings. -/
def State.cscStatus (s : State) : Nat := packBits [(s.csc.a.pairs.length, 6), (s.csc.b.pairs.length, 6)]

/-- OBF_AUDIT_FOUND (R126). -/
def Audit.found (a : Audit) : Nat := packBits [(min a.orphans.length 65535, 16), (min a.overResidency.length 65535, 16)]

/-- OBF_AUDIT_FIRST and OBF_AUDIT_FIRST_Q (R126): the first orphan of the last pass. -/
def Audit.first (a : Audit) : Nat := (a.orphans.head?.map (·.1)).getD 0xFFFFF
def Audit.firstQ (a : Audit) : Nat := (a.orphans.head?.map fun o => packBits [(o.2.owner, 16), (o.2.epoch, 8)]).getD 0xFFFF

/-- The registers of OBF (R126). -/
def State.obfReg (s : State) (offset : Nat) : Option Nat :=
  let a := s.obf.audit
  firstArray offset [
    (0x00, 4, 1, fun _ => packBits [(s.sharedFree, 20)]), (0x04, 4, 1, fun _ => packBits [(s.obf.poolSize, 20)]),
    (0x08, 4, 1, fun _ => packBits [(s.poolReserved, 20)]),
    (0x10, 4, 1, fun _ => packBits [(a.passCount, 16), (b2n a.enabled, 1), (a.residencyMs, 6)]), (0x14, 4, 1, fun _ => a.found),
    (0x18, 4, 1, fun _ => a.first), (0x1C, 4, 1, fun _ => a.firstQ),
    (0x20, 4, 1, fun _ => s.obf.intStatus.toNat), (0x24, 4, 1, fun _ => s.obf.intEnable.toNat),
    (0x1000, 4, 236, fun i => packBits [((s.account i).fromReserve + (s.account i).fromShared, 20)])]

/-- EGS_PORT_STATE (R152). -/
def State.egsPortState (s : State) (o : Nat) : Nat :=
  let e := (s.refillEgress o).egress o
  packBits [(s.resumeHeld o, 7), (e.unresShare, 4), (b2n (decide (512 ≤ s.vl6Bytes o)), 1), (b2n (decide (e.unresTokens ≤ 0)), 1)]

/-- The registers of EGS (R152). -/
def State.egsReg (s : State) (offset : Nat) : Option Nat :=
  firstArray offset [
    (0x00, 4, 1, fun _ => packBits [(s.egs.leaves.length, 16), (((List.range 36).filter fun o => (s.arbiter 0 o).compat).length, 6)]),
    (0x10, 4, 1, fun _ => s.egs.intStatus.toNat), (0x14, 4, 1, fun _ => s.egs.intEnable.toNat), (0x100, 4, 36, s.egsPortState)]

/-- ADM_STATUS (R92): storm jib is named where the device is Synchronised besides (DEDUCED 174). -/
def State.admStatus (s : State) : Nat :=
  packBits [(b2n s.suspended, 1), (if !s.synced then 1 else if s.adm.stormSuspend then 2 else 0, 2), (s.adm.contracts.length, 15)]

/-- The registers of ADM (R92). -/
def State.admReg (s : State) (offset : Nat) : Option Nat :=
  firstArray offset [
    (0x00, 4, 1, fun _ => s.admStatus), (0x04, 4, 1, fun _ => packBits [(s.adm.resvs.length, 16)]),
    (0x10, 4, 1, fun _ => s.adm.intStatus.toNat), (0x14, 4, 1, fun _ => s.adm.intEnable.toNat),
    (0x200, 4, 32, fun p => packBits [(s.reservedOn p, 22), ((s.adm.ports.get p {}).fraction, 6), (b2n (s.adm.ports.get p {}).overcommit, 1)])]

/-- FTU_SYNC_STATUS (R92). -/
def State.syncReg (s : State) : Nat :=
  packBits [(syncNum s.ftu.sync, 2), (b2n s.ftu.grandmaster, 1), (s.ftu.parentPort, 5), (s.ftu.depth, 6), (b2n s.ftu.ppsLocked, 1), (0, 1),
    (intBits 16 s.ftu.lastOffset, 16)]

/-- The registers of FTU (R92); FTU_TIME_LO is read by a command of its own. -/
def State.ftuReg (s : State) (offset : Nat) : Option Nat :=
  firstArray offset [
    (0x00, 4, 1, fun _ => s.ftu.time % 2 ^ 32), (0x04, 4, 1, fun _ => s.ftu.timeHi % 2 ^ 32), (0x10, 4, 1, fun _ => s.syncReg),
    (0x100, 4, 32, fun p => s.linkDelay p % 2 ^ 24)]

/-- The registers of an arbiter resource of so many arbiters (R152). -/
def State.arbReg (s : State) (resource offset : Nat) : Option Nat :=
  firstArray offset [
    (0x7FC, 4, 1, fun _ => b2n (s.arbs.intEnable.getLsbD resource)), (0x800, 4, arbCount resource, s.arbCfg resource),
    (0xC00, 4, arbCount resource, fun n => (s.arbiter resource n).starved.toNat)]

/-! ### Memory, directory, engines and collectives -/

/-- HMC_PARTITION (R292, R293): the system region always holds live contents. -/
def State.partitionReg (s : State) (r : Nat) : Nat :=
  let (base, size) := (regionPlaces s.pool.dirUnits s.pool.mtcUnits s.pool.heapUnits).getD r (0, 0)
  packBits [(base, 9), (size, 9), (b2n (r = 0 || s.regionLive r), 1)]

/-- DIR_BANK (R327): the logical bank that the physical bank serves, none on the idle spare. -/
def State.bankReg (s : State) (b : Nat) : Nat :=
  let x := s.dir.banks.get b {}
  let logical := x.moved.getD (if b = 32 then 63 else b)
  let here := decide (logical < 32)
  packBits [(if here then s.bankTrackers logical else 0, 9), (if here then s.bankQueued logical else 0, 11), (logical, 6), (b2n (b = 32), 1),
    (b2n x.failed, 1)]

/-- DIR_AGENT (R326). -/
def State.agentReg (s : State) (a : Nat) : Nat :=
  ((s.dir.agents.find a).map fun x => packBits [(1, 1), (x.kind, 1), (x.port, 5), (x.timeouts, 16)]).getD 0

/-- The registers of DIR (R326). -/
def State.dirReg (s : State) (offset : Nat) : Option Nat :=
  firstArray offset [
    (0x00, 4, 1, fun _ => packBits [(s.dir.windows.length, 9), (s.dir.agents.length, 7), (s.cohExtents, 10)]),
    (0x04, 4, 1, fun _ => packBits [(s.dir.snoopTimeout, 14), (b2n s.dir.scrub, 1)]),
    (0x10, 4, 1, fun _ => s.dir.intStatus.toNat), (0x14, 4, 1, fun _ => s.dir.intEnable.toNat),
    (0x20, 4, 1, fun _ => s.agentMask.toNat % 2 ^ 32), (0x24, 4, 1, fun _ => s.agentMask.toNat / 2 ^ 32), (0x100, 4, 33, s.bankReg), (0x200, 4, 64, s.agentReg)]

/-- The registers of MEC (R377). -/
def State.mecReg (s : State) (offset : Nat) : Option Nat :=
  firstArray offset [
    (0x00, 4, 1, fun _ => packBits [(s.mec.sendQ.length, 15), (s.mec.recvQ.length, 13)]),
    (0x04, 4, 1, fun _ => packBits [((s.locks.table.filter fun e => !e.2.abandoned).length, 13),
      ((s.locks.table.filter fun e => e.2.abandoned).length, 13)]),
    (0x08, 4, 1, fun _ => packBits [(s.locks.waits.length, 13)]),
    (0x10, 4, 1, fun _ => s.mec.intStatus.toNat), (0x14, 4, 1, fun _ => s.mec.intEnable.toNat),
    (0x18, 4, 1, fun _ => packBits [(s.mec.compQ.length, 15), (s.mec.eventQ.length, 11)]),
    (0x100, 4, 128, fun e => packBits [((s.engineLoad e).2, 10), (s.engineSlots e, 10), (b2n (s.mec.spares.contains e), 1)])]

/-- The registers of MTC (R377). -/
def State.mtcReg (s : State) (offset : Nat) : Option Nat :=
  firstArray offset [
    (0x00, 4, 1, fun _ => packBits [(s.entriesAll true, 19)]), (0x04, 4, 1, fun _ => packBits [(s.entriesAll false, 27)]),
    (0x10, 4, 1, fun _ => s.mtc.intStatus.toNat), (0x14, 4, 1, fun _ => s.mtc.intEnable.toNat)]

/-- RDX_GROUP (R406). -/
def Group.reg (g : Group) : Nat :=
  packBits [(groupStateNum g.state, 2), (g.round, 16), (b2n g.p.root, 1), (g.p.members.length, 5), (g.p.children.length, 6)]

/-- The registers of RDX (R406). -/
def State.rdxReg (s : State) (offset : Nat) : Option Nat :=
  firstArray offset [
    (0x00, 4, 1, fun _ => packBits [(s.rdx.groups.length, 13), (sumOf s.rdx.groups fun g => g.2.p.members.length, 15)]),
    (0x10, 4, 1, fun _ => s.rdx.intStatus.toNat), (0x14, 4, 1, fun _ => s.rdx.intEnable.toNat),
    (0x1000, 4, 4096, fun g => ((s.group g).map Group.reg).getD 0)]

/-! ### Instances, commands and protection -/

/-- INS_STATE (R430). -/
def Instance.stateReg (n : Instance) : Nat :=
  packBits [(instStateNum n.state, 2), (n.gen, 4), (b2n n.squash, 1), (n.port, 5), (n.function, 10), (b2n n.log.enabled, 1),
    (b2n n.log.activeB, 1), (b2n n.bmeHeld, 1)]

/-- The registers of INS (R430). -/
def State.insReg (s : State) (offset : Nat) : Option Nat :=
  let inState := fun (st : InstState) => (s.ins.inst.filter fun e => e.2.state == st).length
  firstArray offset [
    (0x00, 4, 1, fun _ => packBits [(inState .enabled, 11), (inState .resetting, 11)]),
    (0x10, 4, 1, fun _ => s.ins.intStatus.toNat), (0x14, 4, 1, fun _ => s.ins.intEnable.toNat),
    (0x1000, 4, 1024, fun i => (s.instance_ i).stateReg), (0x2000, 4, 1024, fun i => min (s.outstanding i) 0xFFFFF)]

/-- HLY_QCFG.busy (R469): commands of the queue are in progress. -/
def State.hostQueueBusy (s : State) (q : Nat) : Bool := s.hly.progress.any fun g => g.src == .host q

/-- HLY_STATUS (R469). -/
def State.hlyStatus (s : State) : Nat :=
  packBits [(b2n (s.hly.fwState = .running && !s.mgc.mgmtReset), 1),
    (match s.hly.fwState with | .booting => 0 | .running => 1 | .halted => 2, 2),
    (sumOf (List.range 8) fun q => if (s.hq q).enable then 2 ^ q else 0, 8), (s.hly.progress.length, 7), (b2n s.boardBusy, 1)]

/-- The six registers of a host queue (R469). -/
def State.queueReg (s : State) (q k : Nat) : Nat :=
  let x := s.hq q
  match k with
  | 0 => x.cmdBase.toNat % 2 ^ 32
  | 1 => x.cmdBase.toNat / 2 ^ 32
  | 2 => x.replyBase.toNat % 2 ^ 32
  | 3 => x.replyBase.toNat / 2 ^ 32
  | 4 => packBits [(b2n x.enable, 1), (x.log2Size, 4), (b2n x.board, 1), (x.vector, 6), (b2n (s.hostQueueBusy q), 1), (b2n x.error, 1),
      (b2n x.replyFull, 1)]
  | _ => packBits [(x.cmdConsumer, 16), (x.replyProducer, 16)]

/-- The registers of HLY (R469). -/
def State.hlyReg (s : State) (offset : Nat) : Option Nat :=
  firstArray offset ([
    (0x00, 4, 1, fun _ => s.hlyStatus), (0x04, 4, 1, fun _ => s.fwVersionReg),
    (0x10, 4, 1, fun _ => s.hly.intStatus.toNat), (0x14, 4, 1, fun _ => s.hly.intEnable.toNat)] ++
    (List.range 6).map fun k => (0x100 + 4 * k, 32, 8, fun q => s.queueReg q k))

/-- MPU_MASTER (R488). -/
def State.masterReg (s : State) (m : Nat) : Nat :=
  packBits [(b2n (s.master m).activeB, 1), (b2n ((s.master m).swap ≠ .idle), 1), (b2n (masterExists m), 1)]

/-- The registers of MPU (R488). -/
def State.mpuReg (s : State) (offset : Nat) : Option Nat :=
  firstArray offset [
    (0x00, 4, 1, fun _ => s.mpuStatus), (0x10, 4, 1, fun _ => s.mpu.intStatus.toNat), (0x14, 4, 1, fun _ => s.mpu.intEnable.toNat),
    (0x28, 4, 1, fun _ => (s.mpu.viol.head?.map violInfo).getD 0), (0x2C, 4, 1, fun _ => s.mpu.lost), (0x100, 4, 161, s.masterReg)]

/-- ICU_CORE (R488): at depth 8 the depth reads 0 with the request line down. -/
def State.coreReg (s : State) (c : Nat) : Nat :=
  let k := s.icu.cores.get c {}
  packBits [(k.threshold, 8), (s.running c, 8), (k.claims.length, 3), (b2n (decide (k.claims.length < 8) && (s.claimable c).isSome), 1),
    (b2n (c = 4 && s.icu.spareFor.isNone), 1)]

/-- ICU_PENDING (R488). -/
def State.pendingReg (s : State) (k : Nat) : Nat := sumOf (List.range 32) fun j => if s.pendingSrc (32 * k + j) then 2 ^ j else 0

/-- The registers of ICU (R488): through BAR0 a claim reads 0xFFF (R485), and a written source number does not read back. -/
def State.icuReg (s : State) (offset : Nat) : Option Nat :=
  firstArray offset [
    (0x80, 4, 1, fun _ => sumOf (List.range 5) fun c => if (s.icu.sources.get (32 + c) {}).latch then 2 ^ c else 0),
    (0x100, 16, 5, fun _ => noClaim), (0x104, 16, 5, fun _ => 0), (0x108, 16, 5, s.coreReg),
    (0x400, 4, 64, s.pendingReg), (0x4000, 4, 2048, s.icuSourceReg)]

/-! ### Faults, power and observation -/

/-- FLT_SPARES (R539). -/
def State.sparesReg (s : State) : Nat :=
  let n := fun (k : Nat) => (s.sparesUsed k).length
  packBits [(n 1, 4), (b2n (n 2 ≠ 0), 1), (b2n (n 6 ≠ 0), 1), (s.rte.spareTiles.toNat, 4),
    (sumOf (List.range 2) fun k => if (s.sparesUsed 5).any fun x => x.2.1 == k then 2 ^ k else 0, 2), (n 3, 13)]

/-- The registers of FLT (R539). -/
def State.fltReg (s : State) (offset : Nat) : Option Nat :=
  firstArray offset [
    (0x00, 4, 1, fun _ => s.fltStatus), (0x04, 4, 1, fun _ => s.flt.recoveries), (0x08, 4, 1, fun _ => s.fltCfg),
    (0x10, 4, 1, fun _ => s.flt.intStatus.toNat), (0x14, 4, 1, fun _ => s.flt.intEnable.toNat), (0x20, 4, 1, fun _ => s.sparesReg),
    (0x1000, 4, 2048, s.fltSource)]

/-- PWR_STATUS (R519). -/
def State.pwrStatus (s : State) : Nat :=
  packBits [(modeNum s.pwr.mode, 2), (b2n s.pwr.change.isSome, 1), (s.pwr.insdly, 2), (s.pwr.wakeGpio, 6), (b2n s.wakeBlocked, 1),
    (s.pwr.windowMs, 10)]

/-- PWR_FEED (R519). -/
def Chan.feedReg (x : Chan) : Nat :=
  packBits [(chanNum x.state, 3), (b2n x.inWindow, 1), (b2n x.gate, 1), (b2n (x.state = .on), 1), (b2n x.timer, 1), (b2n x.reverseOff, 1),
    (x.attempts, 3), (x.lastCause, 3), (x.voltage, 16)]

/-- PWR_DOMAIN (R512, R519): in storm jib every domain is in retention (R514). -/
def State.domainReg (s : State) (d : Nat) : Nat :=
  let x := s.domain d
  packBits [(match x.state with
      | .on => if s.pwr.mode = .stormJib then 1 else 0
      | .sleep => 1
      | .committed => 2
      | .off => 3, 2), (b2n s.pinned, 1), (x.wakes, 16)]

/-- The registers of PWR (R519). -/
def State.pwrReg (s : State) (offset : Nat) : Option Nat :=
  firstArray offset [
    (0x00, 4, 1, fun _ => s.pwrStatus), (0x10, 4, 1, fun _ => s.pwr.intStatus.toNat), (0x14, 4, 1, fun _ => s.pwr.intEnable.toNat),
    (0x100, 4, 2, fun f => (s.chan f).feedReg), (0x300, 4, 16, s.domainReg)]

/-- SLT_STATUS (R519): an enabled slot owns the shared ball (R502). -/
def State.sltStatusReg (s : State) (slot : Nat) : Nat :=
  let x := s.chan (slot + 2)
  packBits [(chanNum x.state, 3), (b2n x.enabled, 1), (b2n x.present, 1), (b2n x.gate, 1), (b2n (x.state = .on), 1), (b2n x.timer, 1),
    (x.attempts, 3), (x.lastCause, 3), (b2n x.enabled, 1), (b2n (s.downOf (s.leadPort slot)).held, 1), (x.current, 16)]

/-- The registers of SLT (R519). -/
def State.sltReg (s : State) (offset : Nat) : Option Nat :=
  firstArray offset [
    (0x10, 4, 1, fun _ => s.pwr.sltStatus.toNat), (0x14, 4, 1, fun _ => s.pwr.sltEnable.toNat), (0x100, 4, 32, s.sltStatusReg)]

/-- A GPIO as it reads (R502, R582): 0 while its slot has the shared ball, else what the board drives. -/
def State.gpioReads (s : State) (n : Nat) (driven : Bool) : Bool := driven && !(s.chan (n + 2)).enabled

/-- Free slots of a stream's ring (R556). -/
def Stream.freeCount (st : Stream) : Nat := st.slots - st.full.length

/-- TTC_STATUS, MTR_STATUS and SHN_PROBE (R556). -/
def State.ttcStatus (s : State) : Nat :=
  packBits [(b2n s.ttc.programmable, 1), (b2n (s.ttc.stream0.interval ≠ 0), 1), (s.ttc.stream0.freeCount, 7)]
def State.mtrStatus (s : State) : Nat :=
  packBits [(b2n (s.ttc.stream1.interval ≠ 0), 1), (s.ttc.stream1.freeCount, 7), (b2n (!s.ttc.stream1.staged.isEmpty), 1)]
def Probe.reg (p : Probe) : Nat := packBits [(p.action, 2), (p.bridge, 8), (b2n p.stopped, 1), (p.trace.length, 17)]

/-- MGC_RESET_CAUSE (R573). -/
def State.resetCause (s : State) : Nat := packBits [(s.mgc.resetKind, 3), (s.mgc.trigger, 4), (s.mgc.warmCount, 16)]

/-- The number of a boot stage (R573). -/
def stageNum : BootStage → Nat
  | .selfTest => 0
  | .imageRead => 1
  | .checks => 2
  | .fwStart => 3
  | .config => 4
  | .ready => 5

/-- MGC_BOOT_STATUS (R573). -/
def State.bootStatus (s : State) : Nat :=
  packBits [(stageNum s.mgc.stage, 4), (b2n (s.mgc.slot0.ok = some true), 1), (b2n (s.mgc.slot1.ok = some true), 1), (b2n s.mgc.repairBad, 1),
    (s.floor, 5)]

/-! ### The whole map -/

/-- The value of a 32-bit register (R436), where one stands at this offset of this block; 20, 10 and 25 to 27 have no interrupt
registers (R483). -/
def State.reg32 (s : State) (block offset : Nat) : Option Nat :=
  match block with
  | 3 => s.trnReg offset
  | 4 => s.rteReg offset
  | 5 => firstArray offset [(0x00, 4, 1, fun _ => s.xswStatus)]
  | 6 => s.obfReg offset
  | 7 => firstArray offset [(0x00, 4, 1, fun _ => s.cscStatus),
      (0x100, 4, 36, fun i => packBits [(s.occupancy i, 7), ((s.csc.staging.get i {}).highWater, 7)])]
  | 8 => (s.egsReg offset).orElse fun _ => s.arbReg 0 offset
  | 9 => s.admReg offset
  | 11 => s.ftuReg offset
  | 12 => (s.dirReg offset).orElse fun _ => s.arbReg 2 offset
  | 13 => (firstArray offset [(0x100, 4, 5, s.partitionReg)]).orElse fun _ => s.arbReg 1 offset
  | 14 => (s.mecReg offset).orElse fun _ => s.arbReg 3 offset
  | 15 => s.mtcReg offset
  | 16 => s.rdxReg offset
  | 17 => s.insReg offset
  | 18 => s.hlyReg offset
  | 19 => s.mpuReg offset
  | 20 => s.icuReg offset
  | 21 => s.fltReg offset
  | 22 => s.pwrReg offset
  | 23 => s.sltReg offset
  | 24 => firstArray offset [(0x00, 4, 1, fun _ => s.ttcStatus), (0x10, 4, 1, fun _ => s.ttc.intStatus.toNat),
      (0x14, 4, 1, fun _ => s.ttc.intEnable.toNat)]
  | 25 => firstArray offset [(0x00, 4, 1, fun _ => s.mtrStatus)]
  | 26 => firstArray offset [(0x100, 4, 8, fun n => (s.probe n).reg)]
  | 27 => firstArray offset [(0x00, 4, 1, fun _ => s.resetCause), (0x04, 4, 1, fun _ => s.bootStatus)]
  | 10 => none
  | b => if b < 3 then s.lanesReg b offset else none

/-- TTC_COUNT (R556). -/
def State.ttcCount (s : State) (e : Nat) : Nat :=
  if !s.ttc.programmable then s.ttc.counts.get e 0
  else if e < 224 then (s.ttc.counters.get e {}).value
  else 0

/-- The value of a 64-bit register (R435), where one stands at this offset of this block. -/
def State.reg64 (s : State) (block offset : Nat) : Option Nat :=
  match block with
  | 0 =>
    match arrayIndex 0x4000 8 288 offset, arrayIndex 0x6000 8 288 offset with
    | some l, _ => some (s.prt.lanes.get l {}).prbsErr
    | none, some l => some (s.prt.lanes.get l {}).prbsBits
    | none, none => none
  | 12 => if offset = 0x40 then some s.dir.stale else none
  | 19 => if offset = 0x20 then some ((s.mpu.viol.head?.map (·.address)).getD 0) else none
  | 22 => (arrayIndex 0x200 8 2 offset).map fun f => (s.pwr.chans.get f {}).energy
  | 23 => (arrayIndex 0x200 8 32 offset).map fun p => (s.pwr.chans.get (2 + p) {}).energy
  | 24 => (arrayIndex 0x10000 8 8192 offset).map s.ttcCount
  | _ => none

/-- An offset of a block holds a register, or a half of one of 64 bits (R435). -/
def State.holdsReg (s : State) (block offset : Nat) : Bool :=
  (s.reg32 block offset).isSome || (s.reg64 block offset).isSome || (decide (4 ≤ offset) && (s.reg64 block (offset - 4)).isSome)

end Sys2Proof.Machine
end

