-- ==== Sys2Proof/Machine/Registers.lean ====
section
/-!
DEFINITION. Accesses of the host to BAR0 of instance 0: the reads that have an effect (R92, R435), the accesses that reach no
register (R435), and the write of a register (R13 to R16). Blocks are numbered in the order of R436, as R483 numbers them. What every function tells of itself (R431).
Where the spec leaves a point open: DESIGN CHOICE 117; DEDUCED 115 (notes/assumptions).
-/
namespace Sys2Proof.Machine

/-! ### Identity and reads -/

/-- What a function shows of itself in its configuration space (R431). -/
structure Identity where
  vendorId : Nat
  deviceId : Nat
  revisionId : Nat
  classCode : Nat
  subsystemVendorId : Nat
  subsystemId : Nat
  headerType : Nat
  interruptPin : Nat
deriving DecidableEq, Repr

/-- The identity of a physical or virtual function (R431): subsystem from the boot configuration. -/
def State.identity (s : State) (virtual : Bool) : Identity :=
  { vendorId := 0x1F3C, deviceId := if virtual then 0x3401 else 0x3400, revisionId := 0xB0, classCode := 0x028000
    subsystemVendorId := s.mgc.subsystem.1, subsystemId := s.mgc.subsystem.2, headerType := 0, interruptPin := 0 }

/-- The functions of a host link (R407, R408, R432). -/
inductive FunctionKind where
  | pciePf | cxlPf | vf
deriving DecidableEq, Repr

/-- The capabilities that a function can offer (R432). -/
inductive Capability where
  | powerManagement | pciExpressFlr | msix | advancedErrorReporting | deviceSerialNumber | ari | sriov | linkCapabilities | cxlDvsecs
deriving DecidableEq, Repr

/-- The capabilities of a function (R432): no ATS, PASID, PRI, ACS, TPH, PTM or IDE. -/
def capabilities : FunctionKind → List Capability
  | .vf => [.pciExpressFlr, .msix, .ari]
  | .pciePf => [.powerManagement, .pciExpressFlr, .msix, .advancedErrorReporting, .deviceSerialNumber, .ari, .sriov, .linkCapabilities]
  | .cxlPf => [.powerManagement, .pciExpressFlr, .msix, .advancedErrorReporting, .deviceSerialNumber, .ari, .sriov, .linkCapabilities, .cxlDvsecs]

/-- The bytes of a BAR of a function on a host link, 0 where it is not implemented (R433, R434): BAR0 the registers, BAR2 the page of
doorbells and MSI-X, BAR4 the memory window. `zero`: the function of instance 0. -/
def State.barBytes (s : State) (link bar : Nat) (kind : FunctionKind) (zero : Bool) : Nat :=
  match bar with
  | 0 => if zero then 8 * 2 ^ 20 else if kind = .cxlPf then 65536 else 0
  | 2 => 65536
  | 4 => 2 ^ (s.pool.links.get link {}).windowLog2
  | _ => 0

/-- FTU_TIME_LO_READ (R92): the low half is returned, and the high half is latched. -/
def execFtuTimeLoRead (s : State) : Host.Outcome State Fault Refusal :=
  let s := s.wake
  ends ((s.upFtu fun f => { f with timeHi := s.ftu.time / 2 ^ 32 }).emit (.readData (s.ftu.time % 2 ^ 32)))

/-- The lower half of a 64-bit register is read (R435): its upper half is latched. -/
def State.readLow (s : State) (block offset v : Nat) : State :=
  let rest := s.latches.filter fun r => r.block != block || r.offset != offset
  { s with latches := { block, offset, upper := v / 2 ^ 32 } :: rest }.emit (.readData (v % 2 ^ 32))

/-- REG64_LOW_HALF_READ (R435, R436). -/
def execReg64LowHalfRead (window offset : Nat) (s : State) : Host.Outcome State Fault Refusal :=
  let s := s.wake
  ends (match windowOf (windowBase window + offset) with
    | none => s
    | some (block, offset) =>
      match s.reg64 block offset with
      | some v => s.readLow block offset v
      | none => s)

/-- An access that acts on no register (R435, R542): a read returns 0, a write is ignored, and the access is counted. -/
def State.strayAccess (s : State) (write : Bool) (index : Nat) : State :=
  let s := s.wake.tally (evt 18 index)
  if write then s else s.emit (.readData 0)

/-- BAR0_ILLEGAL_ACCESS (R435): a size other than 4 or 8 bytes, or an address that is not aligned. -/
def execBar0IllegalAccess (write : Bool) (s : State) : Host.Outcome State Fault Refusal := ends (s.strayAccess write 2)

/-- BAR0_UNMAPPED_ACCESS (R435, R436): an offset that holds no register, inside a window or in the reserved range; an address of a
register is none such. -/
def execBar0UnmappedAccess (access : Bar0Access) (s : State) : Host.Outcome State Fault Refusal :=
  ends (if (windowOf access.address).any fun w => s.holdsReg w.1 w.2 then s.wake else s.strayAccess access.write 0)

/-! ### Writes of registers -/

/-- A W1C field (R13): a bit written 1 is cleared, a bit written 0 stays. -/
def w1c {n : Nat} (v : BitVec n) (value : Word) : BitVec n := v &&& ~~~(BitVec.ofNat n value.toNat)

/-- An RW field from bit 0 (R13), with the reserved bits above it ignored (R15). -/
def rwLow (n : Nat) (value : Word) : BitVec n := BitVec.ofNat n value.toNat

/-- A write of a block's interrupt status (R13). -/
def State.writeIntStatus (s : State) (block : Nat) (v : Word) : State :=
  match block with
  | 0 => s.upPrt fun x => { x with lneStatus := w1c x.lneStatus v }
  | 1 => s.upPrt fun x => { x with intStatus := w1c x.intStatus v }
  | 2 => s.upLnk fun x => { x with intStatus := w1c x.intStatus v }
  | 3 => s.upTrn fun x => { x with intStatus := w1c x.intStatus v }
  | 4 => s.upRte fun x => { x with intStatus := w1c x.intStatus v }
  | 6 => s.upObf fun x => { x with intStatus := w1c x.intStatus v }
  | 8 => s.upEgs fun x => { x with intStatus := w1c x.intStatus v }
  | 9 => s.upAdm fun x => { x with intStatus := w1c x.intStatus v }
  | 12 => s.upDir fun x => { x with intStatus := w1c x.intStatus v }
  | 14 => s.upMec fun x => { x with intStatus := w1c x.intStatus v }
  | 15 => s.upMtc fun x => { x with intStatus := w1c x.intStatus v }
  | 16 => s.upRdx fun x => { x with intStatus := w1c x.intStatus v }
  | 17 => s.upIns fun x => { x with intStatus := w1c x.intStatus v }
  | 18 => s.upHly fun x => { x with intStatus := w1c x.intStatus v }
  | 19 => s.upMpu fun x => { x with intStatus := w1c x.intStatus v }
  | 21 => s.upFlt fun x => { x with intStatus := w1c x.intStatus v }
  | 22 => s.upPwr fun x => { x with intStatus := w1c x.intStatus v }
  | 23 => s.upPwr fun x => { x with sltStatus := w1c x.sltStatus v }
  | 24 => s.upTtc fun x => { x with intStatus := w1c x.intStatus v }
  | _ => s

/-- A write of a block's interrupt enables (R13). -/
def State.writeIntEnable (s : State) (block : Nat) (v : Word) : State :=
  match block with
  | 0 => s.upPrt fun x => { x with lneEnable := rwLow 5 v }
  | 1 => s.upPrt fun x => { x with intEnable := rwLow 7 v }
  | 2 => s.upLnk fun x => { x with intEnable := rwLow 5 v }
  | 3 => s.upTrn fun x => { x with intEnable := rwLow 5 v }
  | 4 => s.upRte fun x => { x with intEnable := rwLow 7 v }
  | 6 => s.upObf fun x => { x with intEnable := rwLow 4 v }
  | 8 => s.upEgs fun x => { x with intEnable := rwLow 4 v }
  | 9 => s.upAdm fun x => { x with intEnable := rwLow 5 v }
  | 12 => s.upDir fun x => { x with intEnable := rwLow 6 v }
  | 14 => s.upMec fun x => { x with intEnable := rwLow 5 v }
  | 15 => s.upMtc fun x => { x with intEnable := rwLow 3 v }
  | 16 => s.upRdx fun x => { x with intEnable := rwLow 6 v }
  | 17 => s.upIns fun x => { x with intEnable := rwLow 6 v }
  | 18 => s.upHly fun x => { x with intEnable := rwLow 5 v }
  | 19 => s.upMpu fun x => { x with intEnable := rwLow 4 v }
  | 21 => s.upFlt fun x => { x with intEnable := rwLow 4 v }
  | 22 => s.upPwr fun x => { x with intEnable := rwLow 6 v }
  | 23 => s.upPwr fun x => { x with sltEnable := rwLow 5 v }
  | 24 => s.upTtc fun x => { x with intEnable := rwLow 3 v }
  | _ => s

/-- Offset of a block's interrupt status; the enables follow it. -/
def intOffset (block : Nat) : Nat :=
  match block with
  | 4 => 0x30
  | 6 => 0x20
  | _ => 0x10

/-- The blocks with arbiters (R142, R152), as their resource and its number of arbiters: EGS, HMC, DIR, MEC. -/
def arbResource (block : Nat) : Option (Nat × Nat) :=
  match block with
  | 8 => some (0, 36)
  | 13 => some (1, 64)
  | 12 => some (2, 33)
  | 14 => some (3, 32)
  | _ => none

/-- A write of an arbiter register (R152): the starvation flags of an arbiter, or the block's enable. -/
def State.writeArb (s : State) (res n offset : Nat) (v : Word) : State :=
  if offset = 0x7FC then
    s.upArbs fun a => { a with intEnable := (a.intEnable &&& ~~~(1#4 <<< res)) ||| ((rwLow 4 v &&& 1#4) <<< res) }
  else
    match arrayIndex 0xC00 4 n offset with
    | some i => s.upArbs fun a => { a with arb := a.arb.upd (256 * res + i) {} fun x => { x with starved := w1c x.starved v } }
    | none => s

/-- The base fields and the size of a queue can be written (R469). -/
def State.queueOpen (s : State) (q : Nat) : Bool := !(s.hq q).enable && !s.hostQueueBusy q

/-- A 64-bit address with its lower half written, where bits [11:0] are reserved (R15). -/
def putLow (a : Word64) (v : Word) : Word64 := (a &&& 0xFFFFFFFF00000000#64) ||| (v.setWidth 64 &&& 0xFFFFF000#64)

/-- A 64-bit address with its upper half written. -/
def putHigh (a : Word64) (v : Word) : Word64 := (a &&& 0xFFFFFFFF#64) ||| (v.setWidth 64 <<< 32)

/-- A write of HLY_QCFG (R16, R469): a reserved size is ignored, the size is kept while the queue is enabled or busy, and
the enable bit starts or stops the queue. -/
def State.writeQcfg (s : State) (q : Nat) (v : Word) : State :=
  let size := bitsOf v.toNat 4 1
  let sized := s.queueOpen q && decide (4 ≤ size) && decide (size ≤ 12)
  let s := s.upHq q fun x => { x with
    log2Size := if sized then size else x.log2Size, board := v.toNat.testBit 5, vector := bitsOf v.toNat 11 6 }
  if v.toNat.testBit 0 then s.enableQueue q else s.upHq q fun x => { x with enable := false }

/-- A write of a register of a host queue (R469). -/
def State.writeQueueReg (s : State) (q off : Nat) (v : Word) : State :=
  match off with
  | 0x00 => if s.queueOpen q then s.upHq q fun x => { x with cmdBase := putLow x.cmdBase v } else s
  | 0x04 => if s.queueOpen q then s.upHq q fun x => { x with cmdBase := putHigh x.cmdBase v } else s
  | 0x08 => if s.queueOpen q then s.upHq q fun x => { x with replyBase := putLow x.replyBase v } else s
  | 0x0C => if s.queueOpen q then s.upHq q fun x => { x with replyBase := putHigh x.replyBase v } else s
  | 0x10 => s.writeQcfg q v
  | _ => s

/-- A write of a register that has no command of its own (R13): its fields act by their access codes, and a register that
reports state only ignores it. -/
def State.writeReg (s : State) (block offset : Nat) (v : Word) : State :=
  if offset = intOffset block then s.writeIntStatus block v
  else if offset = intOffset block + 4 then s.writeIntEnable block v
  else if block = 4 ∧ offset = 0x10 then (if v.toNat.testBit 6 then s.upRte fun x => { x with oldArrival := false } else s)
  else if block = 18 ∧ 0x100 ≤ offset ∧ offset < 0x200 then s.writeQueueReg ((offset - 0x100) / 32) ((offset - 0x100) % 32) v
  else
    match arbResource block with
    | some (res, n) => s.writeArb res n offset v
    | none => s

/-- REGISTER_WRITE (R13 to R16, R152, R435, R436, R469): an aligned write of 4 bytes; one of 8 bytes is two of these. At an offset
that holds no register, and in the reserved range, it is ignored and counted. -/
def execRegisterWrite (window offset : Nat) (value : Word) (s : State) : Host.Outcome State Fault Refusal :=
  ends (match windowOf (windowBase window + offset) with
    | none => s.strayAccess true 0
    | some (block, offset) => if s.holdsReg block offset then s.wake.writeReg block offset value else s.strayAccess true 0)

end Sys2Proof.Machine
end

