-- ==== Sys2Proof/Machine/Arbiters.lean ====
section
/-!
DEFINITION. The arbiters of R142 from cycle to cycle (R44, R45, R143 to R147, R151): what asks for a grant, who holds it, who has been
preempted, how long each has waited. Requests are read off the work that State holds; an operation that one command brings to its end
asks for nothing.
Where the spec leaves a point open: DESIGN CHOICE 26, 157, 158 (notes/assumptions).
-/
namespace Sys2Proof.Machine

/-! ### Who asks -/

/-- The classes of R142, highest first; background within its slice (R44) stands between response and request (DESIGN CHOICE 157). -/
def clsEmergency : Nat := 0
def clsResponse : Nat := 1
def clsSliced : Nat := 2
def clsRequest : Nat := 3
def clsBackground : Nat := 4

/-- An asserted request at an arbiter: its requester of R142, and the class that its access is in. -/
structure Ask where
  requester : Nat
  cls : Nat
deriving DecidableEq, Repr

/-- The class of a requester (R142); at an HBM channel `serves` says that its access serves a response or a writeback. -/
def classOf (resource requester : Nat) (serves : Bool) : Nat :=
  match resource, requester with
  | 1, 21 | 1, 22 | 2, 0 | 3, 9 => clsEmergency
  | 1, 23 | 2, 4 | 3, 10 => clsBackground
  | 2, 1 | 2, 2 | 3, 8 => clsResponse
  | 1, _ => if serves then clsResponse else clsRequest
  | _, _ => clsRequest

/-- An asserted request by its arbiter: 256 * resource + index. -/
abbrev Asked := Nat × Ask

/-- A request at an arbiter. -/
def asked (resource index requester : Nat) (serves : Bool) : Asked :=
  (256 * resource + index, { requester, cls := classOf resource requester serves })

/-- The requests at the HBM channels: lines that the directory reads or writes back, the clusters' reads of the heap, and dumps
that are being written. -/
def State.hbmAsks (s : State) : List Asked :=
  ((s.dir.trackers.filter fun t => t.reading || t.writing || decide (0 < t.writes)).map fun t =>
    asked 1 (Config.lineChannel t.handle t.line % 64) 16 (decide (0 < t.writes))) ++
  (s.mec.reads.map fun r => asked 1 (Config.addressChannel r.2.address % 64) (r.2.cluster % 16) (r.2.opcode == 0x11 || r.2.opcode == 0x16)) ++
  ([s.ttc.stream0, s.ttc.stream1].filter fun t => !t.staged.isEmpty).map fun t => asked 1 (Config.addressChannel t.base % 64) 23 false

/-- The requests at the directory banks: a line operation in progress, for its snoop responses or for its own steps, and the
writebacks that are not yet in memory. -/
def State.dirAsks (s : State) : List Asked :=
  (s.dir.trackers.map fun t => asked 2 (s.physicalBank (s.logicalBank t.handle t.line)) (if t.snoops.isEmpty then 3 else 2) false) ++
  s.dir.writebacks.map fun w => asked 2 (s.physicalBank (s.logicalBank w.handle w.line)) 1 false

/-- The requests at the accelerators of the clusters: the engines' operations without a result, atomics at the atomic unit, and the
remote response path. -/
def State.mecAsks (s : State) : List Asked :=
  ((s.mec.slots.filter fun o => o.2.result.isNone).map fun o =>
    let e := o.2.opTag / 512
    asked 3 (2 * (e / 8 % 16) + b2n (o.2.d.op == 3)) (e % 8) false) ++
  (s.mec.reads.filter fun r => r.2.slot.isNone).map fun r => asked 3 (2 * (r.2.cluster % 16)) 8 false

/-- The requests at the outputs: the classes with a packet that may go, and background work, but for the class being sent. -/
def State.egsAsks (s : State) : List Asked :=
  let packets := (s.obf.pkts.filter s.eligible).map fun (b : BufPkt) => (b.output, requesterOf b.pkt.hdr)
  let back := (s.egs.out.filter fun e => s.backgroundReady e.1).map fun (e : Nat × Egress) => (e.1, 2)
  ((packets ++ back).filter fun (r : Nat × Nat) => s.arbOwner 0 r.1 ≠ some r.2).map fun r => (r.1, { requester := r.2, cls := clsRequest })

/-- Every asserted request. -/
def State.asks (s : State) : List Asked := s.egsAsks ++ s.hbmAsks ++ s.dirAsks ++ s.mecAsks

/-! ### The grant of one arbiter -/

/-- An owner drops its request, and with it its progress; so does whoever waits (R143). -/
def Arb.settle (a : Arb) (asks : List Ask) : Arb :=
  let on := fun r => asks.any fun k => k.requester == r
  { a with owner := a.owner.filter on, preempted := a.preempted.filter on, progress := a.progress.keep fun r _ => on r
           waits := a.waits.keep fun r _ => on r, reached := a.reached.filter on
           slice := if asks.any (fun k => k.cls == clsBackground) then a.slice else 0 }

/-- The requests as this cycle classes them (R44): in one cycle of 64 background has its slice. -/
def Arb.classed (a : Arb) (asks : List Ask) : List Ask :=
  if a.slice < 63 then asks else asks.map fun k => if k.cls = clsBackground then { k with cls := clsSliced } else k

/-- The highest class that asks. -/
def topClass (asks : List Ask) : Nat := asks.foldl (fun c k => min c k.cls) 5

/-- The class of a requester among the asserted requests. -/
def classAmong (asks : List Ask) (r : Nat) : Nat := topClass (asks.filter fun k => k.requester == r)

/-- The owner loses its grant (R143 to R145): a higher class asks, in compatibility mode only an emergency requester. -/
def Arb.loses (a : Arb) (asks : List Ask) : Bool :=
  a.owner.any fun o => decide (topClass asks < classAmong asks o) && (!a.compat || topClass asks == clsEmergency)

/-- The next requester of a class in weighted round robin, with the turn after it (R143): the one whose turn it is while it has
grants left, else the next by number. -/
def Arb.robin (a : Arb) (cls : Nat) (asks : List Ask) : Option (Nat × (Nat × Nat)) :=
  let (turn, left) := a.turns.get cls (0, 0)
  let rs := (asks.filter fun k => k.cls == cls).map (·.requester)
  if rs.contains turn && decide (0 < left) then some (turn, (turn, left - 1))
  else
    let next := ((List.range 24).find? fun r => decide (turn < r) && rs.contains r).orElse fun _ => (List.range 24).find? rs.contains
    next.map fun r => (r, (r, a.weights.get r 16 - 1))

/-- A new grant (R143): the highest class that asks; of it first the owner that was preempted last, else weighted round robin. -/
def Arb.award (a : Arb) (resource : Nat) (asks : List Ask) : Arb :=
  let cls := topClass asks
  match a.preempted.find? fun r => classAmong asks r == cls with
  | some r => a.grant resource r
  | none =>
    match a.robin cls asks with
    | some (r, turn) => { a.grant resource r with turns := a.turns.put cls turn }
    | none => a

/-- One cycle of an arbiter's grant (R143 to R145, R151): the owner does one more unit of its work, or gives way and keeps its
progress count, or a new grant is made. -/
def Arb.turn (a : Arb) (resource : Nat) (asks : List Ask) : Arb :=
  let a := if a.loses asks then { a with owner := none, preempted := a.owner.toList ++ a.preempted } else a
  match a.owner with
  | some o => { a with progress := a.progress.put o (a.progress.get o 0 + 1) }
  | none => a.award resource asks

/-- The wait counters of the requesters that ask without a grant (R147, R151): those that the owner of the cycle before does not
hold, and the owner from the cycle in which it is preempted. -/
def Arb.wait (a : Arb) (asks : List Ask) (held : Option Nat) : Arb :=
  { a with waits := ((asks.map (·.requester)).dedup.filter fun r => some r ≠ held).foldl (fun (t : Tbl Nat) r =>
      t.put r (t.get r 0 + 1)) a.waits }

/-- The requesters whose wait counters reach the threshold of 2^e in this cycle (R147). -/
def Arb.reaches (a : Arb) : List Nat :=
  (a.waits.filter fun w => decide (2 ^ a.thresholdExp ≤ w.2) && !a.reached.contains w.1).map (·.1)

/-- The background class has had its cycle of 64, or has come one cycle nearer to it (R44). -/
def Arb.sliced (a : Arb) (asks : List Ask) : Arb :=
  let back := asks.filter fun k => k.cls == clsBackground
  if back.isEmpty then a
  else { a with slice := if back.any (fun k => a.owner == some k.requester) then 0 else min 63 (a.slice + 1) }

/-! ### One core cycle -/

/-- One core cycle of one arbiter (R143 to R147): counters that reach the threshold set their starvation bits, also where the
requester is granted in the same cycle. An output's grants are the frames that it sends (R127 to R141). -/
def State.arbCycle (s : State) (key : Nat) (asks : List Ask) : State :=
  let resource := key / 256
  let index := key % 256
  let a := (s.arbiter resource index).settle asks
  let cls := a.classed asks
  let held := if resource ≠ 0 && !a.loses cls then a.owner else none
  let a := a.wait asks held
  let s := a.reaches.foldl (fun s r => s.starve resource index r) (s.upArb resource index fun _ => a)
  if resource = 0 then s else s.upArb resource index fun a => (a.turn resource cls).sliced asks

/-- The arbiter has something to do in a cycle, although nobody may ask. -/
def Arb.busy (a : Arb) : Bool := a.owner.isSome || !a.preempted.isEmpty || !a.waits.isEmpty || !a.progress.isEmpty

/-- One core cycle of every arbiter at which something is asked for or held. -/
def State.arbitrate (s : State) : State :=
  let asks := s.asks
  let keys := (asks.map (·.1) ++ (s.arbs.arb.filter fun e => e.2.busy).map (·.1)).dedup
  keys.foldl (fun s k => s.arbCycle k ((asks.filter fun x => x.1 == k).map (·.2))) s

end Sys2Proof.Machine
end

