-- ==== Sys2Proof/Machine/Clock.lean ====
section
/-!
DEFINITION. One core cycle (R24): what the block does while no command waits. Time passes, and what waits is taken again.
Where the spec leaves a point open: DESIGN CHOICE 5, 6, 113 (notes/assumptions).
-/
namespace Sys2Proof.Machine

/-- The length of a core cycle in 1/400 ns (R24): 0.64 ns in full sail, 1 ns in reefed; none while the clock is stopped. -/
def State.cycleTime (s : State) : Option Nat :=
  if s.pwr.lost then none
  else match s.pwr.mode with
    | .fullSail => some 256
    | .reefed => some 400
    | _ => none

/-- Fabric time advances by 16 (1 + trim) units per ns (R69, R70). -/
def Ftu.advance (f : Ftu) (dt : Nat) : Ftu :=
  let x := f.frac + 16 * (1 + f.trim) * dt / 400
  { f with time := (f.time + x.floor.toNat) % 2 ^ 64, frac := x - x.floor }

/-- Core cycles of the residency clock's period of 1.024 us (R115). -/
def residencyPeriod (m : Mode) : Nat := if m = .reefed then 1024 else 1600

/-- The residency clock (R115). -/
def Obf.age (b : Obf) (m : Mode) : Obf :=
  if b.residencyFrac + 1 < residencyPeriod m then { b with residencyFrac := b.residencyFrac + 1 }
  else { b with residencyFrac := 0, residency := (b.residency + 1) % 2 ^ 24 }

/-- The first waiting command of each of `m` positions in turn, from position `k` upwards; `pos` gives a command's (R315, R447). -/
def oneTurn (pos : Instr → Option Nat) (m k : Nat) (l : List Instr) : Nat → List Instr × List Instr
  | 0 => ([], l)
  | n + 1 =>
    match takeFirst (fun i => pos i == some (k % m)) l with
    | none => oneTurn pos m (k + 1) l n
    | some (i, rest) =>
      let r := oneTurn pos m (k + 1) rest n
      (i :: r.1, r.2)

/-- Waiting commands in rotating order of `m` positions from position `k`, one of each position a turn (R315, R447). -/
def rotate (pos : Instr → Option Nat) (m k : Nat) (l : List Instr) : Nat → List Instr
  | 0 => l
  | n + 1 => if l.isEmpty then [] else (oneTurn pos m k l m).1 ++ rotate pos m k (oneTurn pos m k l m).2 n

/-- The waiting requests of each bank of the directory in its rotating order, agents 0 to 63 and then non-caching accesses (R315). -/
def State.bankOrder (s : State) : List Instr :=
  (List.range 32).flatMap fun b =>
    let l := s.waiting.filter fun i => (s.dirAsk i).map (·.1) == some b
    rotate (fun i => (s.dirAsk i).map (·.2)) 65 (s.dir.banks.get (s.physicalBank b) {}).turn l (l.length + 1)

/-- What waits is taken again in this cycle: first what is neither a Halyard command nor a directory request, in its order, then the
directory requests in each bank's rotating order (R315), then the Halyard commands in rotating order from one past the last source
served (R447). -/
def State.takeWaiting (s : State) : State :=
  let cmds := s.waiting.filter fun i => (srcOf i).isSome
  { s with
    pending := (s.waiting.filter fun i => (srcOf i).isNone && (s.dirAsk i).isNone) ++ s.bankOrder ++
      rotate (fun i => (srcOf i).map srcIndex) 10 (s.hly.lastSource + 1) cmds (cmds.length + 1)
    waiting := [] }

/-- The flit slots of the native ports (R202): a link control flit goes where one is due and no frame flit is ready. -/
def State.flitSlots (s : State) : State := ((List.range 32).filter s.isNative).foldl State.controlSlot s

/-- One core cycle. In a mode whose core clock is stopped no time passes. -/
def coreCycle (s : State) : State :=
  match s.cycleTime with
  | none => if s.pwr.lost then s else s.takeWaiting
  | some dt =>
    let s := { s with coreTime := s.coreTime + dt }
    let s := ((s.upFtu fun f => f.advance dt).upObf fun b => b.age s.pwr.mode).passTime (4 * dt)
    (s.routeBuilt.arbitrate.flitSlots.retryRgets.writeTraces).takeWaiting

end Sys2Proof.Machine
end

