-- ==== Sys2Proof/Machine/FtuCmds.lean ====
section
/-!
DEFINITION. Fabric time (R69 to R74, R92, R456): FTU_SET, the exchanges, holdover and the PPS balls.
Where the spec leaves a point open: DEDUCED 39, 40, 125 (notes/assumptions).
-/
namespace Sys2Proof.Machine

/-- The device becomes Synchronised (R71, R72): exchanges return to the sync period, and contracts suspended for storm jib
resume, once the device has woken (R41). -/
def State.synchronise (s : State) : State :=
  let s := s.upFtu fun f => { f with sync := .synchronised, goodRun := 0, badRun := 0, fastExchange := false }
  if s.asleep then s else s.upAdm fun a => { a with stormSuspend := false }

/-- What FTU_SET does (R70, R71, R456): the five changeable fields have bits 0 to 4 of the change mask. -/
def ftuSetBody (cm : Nat) (grandmaster : Bool) (parentPort syncPeriod : Nat) (ppsIn ppsOut : Bool) (s : State) : HRes :=
  let gm := pick cm 0 grandmaster s.ftu.grandmaster
  let inp := pick cm 3 ppsIn s.ftu.ppsIn
  refuseIf [
    (cmBit cm 2 && outside 1 1000 syncPeriod, 0x0109),
    (cmBit cm 1 && (decide (31 < parentPort) || !s.isNative parentPort), 0x0111),
    (inp && !gm, 0x0124)] <|
  let s := s.upFtu fun f => { f with
    grandmaster := gm, ppsIn := inp, ppsOut := pick cm 4 ppsOut f.ppsOut
    parentPort := pick cm 1 parentPort f.parentPort, parentSet := f.parentSet || cmBit cm 1
    syncPeriod := pick cm 2 syncPeriod f.syncPeriod
    depth := if gm then 0 else f.depth, ppsLocked := f.ppsLocked && inp }
  .ok (if cmBit cm 0 then (if gm then s.synchronise else s.unsync) else s)

/-- FTU_SET (R456). -/
def execFtuSet (h : HlyHdr) (cm : Nat) (grandmaster : Bool) (parentPort syncPeriod : Nat) (ppsIn ppsOut : Bool) (s : State) :
    Host.Outcome State Fault Refusal :=
  ends <| runHly (.ftuSet h cm grandmaster parentPort syncPeriod ppsIn ppsOut) 0x0509 h 0 0 []
    (ftuSetBody cm grandmaster parentPort syncPeriod ppsIn ppsOut) s

/-- The device steers by its parent (R70). -/
def State.isChild (s : State) : Bool := s.ftu.parentSet && !s.ftu.grandmaster

/-- A request sent on a port (R70, R466), which takes t1 as it leaves. -/
def State.askTime (s : State) (p : Nat) : State :=
  let n := (s.ftu.exchange + 1) % 65536
  ((s.upFtu fun f => { f with
    exchange := n, ports := f.ports.upd p {} fun x => { x with outstanding := some n, t1 := f.time } }).emit
    (.oneHop 0xC3 p [n, s.ftu.time])).sendMgmt 0xC3 false false [n, 0, s.ftu.time] [] p

/-- SYNC_PERIOD (R70, R72): an exchange on every Up native port; the 1 us exchanges after a wake run on the parent port. -/
def execSyncPeriod (s : State) : Host.Outcome State Fault Refusal :=
  let ps := if s.ftu.fastExchange then s.upPorts.filter fun p => p == s.ftu.parentPort else s.upPorts
  ends (if s.forwarding then ps.foldl State.askTime s else s)

/-- The answer to a request (R70, R466): t2 is the time of arrival, and t3 is taken as the answer leaves. -/
def State.answerTime (s : State) (port exchange : Nat) : State :=
  (s.emit (.oneHop 0xC4 port [exchange % 65536, s.ftu.depth, s.ftu.time, s.ftu.time])).sendMgmt 0xC4 true false
    [exchange % 65536, s.ftu.depth, 0, s.ftu.time, s.ftu.time] [] port

/-- FT_SYNC_REQ_RECEIVE (R42, R70, R466): the neighbour's request is answered on its port; its t1 is the requester's own. -/
def execFtSyncReqReceive (port exchange t1 : Nat) (s : State) : Host.Outcome State Fault Refusal :=
  let _ := t1
  let s := if s.linkUp port then s.wake else s
  ends (if s.forwarding && s.linkUp port then s.answerTime port exchange else s)

/-- A value held within 1,000 parts per million (R70). -/
def clipPpm (x : Rat) : Rat := max (-1 / 1000) (min (1 / 1000) x)

/-- The loop of R70 for an offset `o` and a sync period `t`, both in 1/16 ns. -/
def Ftu.steer (f : Ftu) (o t : Rat) : Ftu :=
  let freq := clipPpm (f.freq + o / (16 * t))
  { f with freq, trim := clipPpm (freq + o / (2 * t)) }

/-- The sync period in force in 1/16 ns (R70, R72). -/
def Ftu.period (f : Ftu) : Rat := 16000 * (if f.fastExchange then 1 else f.syncPeriod : Nat)

/-- The state of R71 after an exchange of twice the offset `off2`. -/
def State.judgeOffset (s : State) (off2 : Int) : State :=
  let f := s.ftu
  let a := off2.natAbs
  if f.sync = .synchronised then
    if 128 < a then s.unsync
    else if a ≤ 32 then s.upFtu fun f => { f with badRun := 0 }
    else if 4 ≤ f.badRun + 1 then s.unsync
    else s.upFtu fun f => { f with badRun := f.badRun + 1 }
  else if a ≤ 32 then
    if 8 ≤ f.goodRun + 1 then s.synchronise else s.upFtu fun f => { f with goodRun := f.goodRun + 1 }
  else s.upFtu fun f => { f with goodRun := 0 }

/-- An exchange on the parent port (R70 to R72): depth, step or steering, and state. A step leaves the frequency estimate
as it was. -/
def State.parentExchange (s : State) (depth : Nat) (off2 : Int) : State :=
  let s := s.upFtu fun f => { f with depth := min 63 (depth + 1), lastOffset := max (-32768) (min 32767 (off2.tdiv 2)) }
  if s.ftu.sync ≠ .synchronised && decide (2048 < off2) then
    s.upFtu fun f =>
      let t : Rat := (f.time : Rat) + f.frac + (off2 : Rat) / 2
      { (f.steer 0 f.period) with time := t.floor.toNat % 2 ^ 64, frac := t - t.floor, goodRun := 0 }
  else (s.upFtu fun f => f.steer ((off2 : Rat) / 2) f.period).judgeOffset off2

/-- The answer to the exchange outstanding on a port (R70). -/
def State.timeAnswer (s : State) (port exchange depth t2 t3 : Nat) : State :=
  let x := s.ftu.ports.get port {}
  if x.outstanding ≠ some exchange then s
  else
    let t4 : Int := s.ftu.time
    let t1 : Int := x.t1
    let s := s.upFtu fun f => { f with ports := f.ports.put port { x with
      outstanding := none, delays := (((t4 - t1) - ((t3 : Int) - t2)) :: x.delays).take 16 } }
    if s.isChild && s.ftu.parentPort = port then s.parentExchange depth (((t2 : Int) - t1) - (t4 - t3)) else s

/-- FT_SYNC_RSP_RECEIVE (R42, R70 to R72). -/
def execFtSyncRspReceive (port exchange depth t2 t3 : Nat) (s : State) : Host.Outcome State Fault Refusal :=
  let s := if s.linkUp port then s.wake else s
  ends (if s.forwarding then s.timeAnswer port exchange depth t2 t3 else s)

/-- PARENT_REPLY_LOSS (R71): no reply for 64 sync periods. -/
def execParentReplyLoss (s : State) : Host.Outcome State Fault Refusal :=
  ends (if s.isChild && s.forwarding && s.ftu.sync ≠ .unsynchronised then s.unsync else s)

/-- MASTHEAD_TIME_TICK (R72): one period of the 32.768 kHz clock while the hub clocks are stopped. -/
def execMastheadTimeTick (s : State) : Host.Outcome State Fault Refusal :=
  ends (if s.masthead.isNone then s
    else { s with masthead := s.masthead.map fun t => (t + (488281 - 98 * s.ftu.depth)) % 2 ^ 64 }.passTime 48828125)

/-- WAKE_SYNC_WINDOW_END (R71, R72): 50 us after a wake exchanges return to the sync period, and a device still in Holdover
becomes Unsynchronised. -/
def execWakeSyncWindowEnd (s : State) : Host.Outcome State Fault Refusal :=
  ends (if s.pwr.mode = .stormJib then s
    else
      let s := s.upFtu fun f => { f with fastExchange := false }
      if s.ftu.sync = .holdover then s.unsync else s)

/-- PPS_INPUT_EDGE (R69): a grandmaster that selects the input disciplines its time to it. How far each pulse moves its
rate is a free value. -/
def execPpsInputEdge (s : State) : Host.Outcome State Fault Refusal :=
  ends (if s.ftu.grandmaster && s.ftu.ppsIn then
      let (v, s) := s.fresh
      s.upFtu fun f => { f with ppsLocked := true, trim := clipPpm (((v % 2001 : Nat) : Rat) / 1000000 - 1 / 1000) }
    else s)

/-- PPS_OUTPUT_SECOND (R69, R557): the ball carries PPS output where the strap gives it. -/
def execPpsOutputSecond (s : State) : Host.Outcome State Fault Refusal :=
  ends (if s.ftu.ppsOut && s.mgc.ppsSel = 0 && s.pwr.mode ≠ .barePoles then s.emit .pps else s)

end Sys2Proof.Machine
end

