-- ==== Sys2Proof/Machine/Dispatch.lean ====
section
/-!
DEFINITION. One arm for each command: a direct call of its meaning.
Where the spec leaves a point open: DESIGN CHOICE 1 (notes/assumptions).
-/
namespace Sys2Proof.Machine

/-- What a command does to everything but the queue. -/
def exec (i : Instr) (s : State) : Host.Outcome State Fault Refusal :=
  match i with
  | .nop h => Sys2Proof.Machine.execNop h s
  | .deviceQuery h => Sys2Proof.Machine.execDeviceQuery h s
  | .inbandSet h cm accept count serials timeout retries hold => Sys2Proof.Machine.execInbandSet h cm accept count serials timeout retries hold s
  | .hostLinkSet h link cm windowLog2 releaseTimeout => Sys2Proof.Machine.execHostLinkSet h link cm windowLog2 releaseTimeout s
  | .modeSet h mode reefForm force => Sys2Proof.Machine.execModeSet h mode reefForm force s
  | .pwrSet h feed cm set rearm windowMs wakeGpio sleepIdle powerOffIdle => Sys2Proof.Machine.execPwrSet h feed cm set rearm windowMs wakeGpio sleepIdle powerOffIdle s
  | .pwrQuery h channel => Sys2Proof.Machine.execPwrQuery h channel s
  | .pwrCapture h action mask channel first count => Sys2Proof.Machine.execPwrCapture h action mask channel first count s
  | .slotSet h slot cm enable autoPower pginUse set => Sys2Proof.Machine.execSlotSet h slot cm enable autoPower pginUse set s
  | .slotPower h slot on force => Sys2Proof.Machine.execSlotPower h slot on force s
  | .slotQuery h slot => Sys2Proof.Machine.execSlotQuery h slot s
  | .portModeSet h port mode width maxRate => Sys2Proof.Machine.execPortModeSet h port mode width maxRate s
  | .laneSet h port cm corrThreshold corrWindow marginFloor autoSpare idleEnable idleEntry trainTimeout => Sys2Proof.Machine.execLaneSet h port cm corrThreshold corrWindow marginFloor autoSpare idleEnable idleEntry trainTimeout s
  | .laneSpare h port action lane => Sys2Proof.Machine.execLaneSpare h port action lane s
  | .laneTest h lane function pattern userPattern inject symbols every => Sys2Proof.Machine.execLaneTest h lane function pattern userPattern inject symbols every s
  | .laneQuery h port => Sys2Proof.Machine.execLaneQuery h port s
  | .linkSet h port cm linkTimeout replayLimit retrainLimit shares => Sys2Proof.Machine.execLinkSet h port cm linkTimeout replayLimit retrainLimit shares s
  | .trnSet h cm ackDelay nakDelay retryTimeout retryLimit ctxIdle sendWindow => Sys2Proof.Machine.execTrnSet h cm ackDelay nakDelay retryTimeout retryLimit ctxIdle sendWindow s
  | .contextPin h peer inst cls half pin => Sys2Proof.Machine.execContextPin h peer inst cls half pin s
  | .faultInject h port kind n count => Sys2Proof.Machine.execFaultInject h port kind n count s
  | .linkQuery h port => Sys2Proof.Machine.execLinkQuery h port s
  | .trnQuery h peer inst cls half => Sys2Proof.Machine.execTrnQuery h peer inst cls half s
  | .routeWrite h tiles mode table first count masks => Sys2Proof.Machine.execRouteWrite h tiles mode table first count masks s
  | .routeEpochAdvance h epoch => Sys2Proof.Machine.execRouteEpochAdvance h epoch s
  | .routeEpochRetire h => Sys2Proof.Machine.execRouteEpochRetire h s
  | .routePortSet h port kind group member up => Sys2Proof.Machine.execRoutePortSet h port kind group member up s
  | .routePolicySet h sl mode bias => Sys2Proof.Machine.execRoutePolicySet h sl mode bias s
  | .contractRouteSet h contractId mode count groups => Sys2Proof.Machine.execContractRouteSet h contractId mode count groups s
  | .routeEndpointSet h endpoint target destination => Sys2Proof.Machine.execRouteEndpointSet h endpoint target destination s
  | .treeInstall h tree valid upstream branches delivery leaves => Sys2Proof.Machine.execTreeInstall h tree valid upstream branches delivery leaves s
  | .treeRemove h tree => Sys2Proof.Machine.execTreeRemove h tree s
  | .treeFence h scope tree branch => Sys2Proof.Machine.execTreeFence h scope tree branch s
  | .holdSet h quota => Sys2Proof.Machine.execHoldSet h quota s
  | .discover h => Sys2Proof.Machine.execDiscover h s
  | .idAssign h deviceId force => Sys2Proof.Machine.execIdAssign h deviceId force s
  | .contractInstall h c => Sys2Proof.Machine.execContractInstall h c s
  | .contractModify h contractId cm committed peak burst aware bound lateThreshold remoteBudget => Sys2Proof.Machine.execContractModify h contractId cm committed peak burst aware bound lateThreshold remoteBudget s
  | .contractRemove h contractId => Sys2Proof.Machine.execContractRemove h contractId s
  | .contractQuery h contractId => Sys2Proof.Machine.execContractQuery h contractId s
  | .hopReserve h r => Sys2Proof.Machine.execHopReserve h r s
  | .hopRelease h resvId => Sys2Proof.Machine.execHopRelease h resvId s
  | .meterSet h inst committed peak committedBurst peakBurst => Sys2Proof.Machine.execMeterSet h inst committed peak committedBurst peakBurst s
  | .portReserveSet h port fraction => Sys2Proof.Machine.execPortReserveSet h port fraction s
  | .ftuSet h cm grandmaster parentPort syncPeriod ppsIn ppsOut => Sys2Proof.Machine.execFtuSet h cm grandmaster parentPort syncPeriod ppsIn ppsOut s
  | .bufferAccountSet h account minReserve alphaExp markThreshold => Sys2Proof.Machine.execBufferAccountSet h account minReserve alphaExp markThreshold s
  | .bufferPoolSet h contractPool => Sys2Proof.Machine.execBufferPoolSet h contractPool s
  | .auditSet h enable residencyMs => Sys2Proof.Machine.execAuditSet h enable residencyMs s
  | .bufferReclaim h mode queue => Sys2Proof.Machine.execBufferReclaim h mode queue s
  | .bufferQuery h account => Sys2Proof.Machine.execBufferQuery h account s
  | .egsLeafBind h output sl inst queue weight rate burst tokenReset => Sys2Proof.Machine.execEgsLeafBind h output sl inst queue weight rate burst tokenReset s
  | .egsLeafUnbind h queue => Sys2Proof.Machine.execEgsLeafUnbind h queue s
  | .egsNodeSet h target output sl queue cm weight rate burst tokenReset => Sys2Proof.Machine.execEgsNodeSet h target output sl queue cm weight rate burst tokenReset s
  | .egsQuery h target output sl queue => Sys2Proof.Machine.execEgsQuery h target output sl queue s
  | .arbSet h resource index cm compat thresholdExp requester weight => Sys2Proof.Machine.execArbSet h resource index cm compat thresholdExp requester weight s
  | .arbQuery h resource index => Sys2Proof.Machine.execArbQuery h resource index s
  | .poolLinkSet h link memInst releaseTimeout => Sys2Proof.Machine.execPoolLinkSet h link memInst releaseTimeout s
  | .extentBind h b => Sys2Proof.Machine.execExtentBind h b s
  | .extentUnbind h handle count zero => Sys2Proof.Machine.execExtentUnbind h handle count zero s
  | .importMap h m => Sys2Proof.Machine.execImportMap h m s
  | .extentZero h handle count => Sys2Proof.Machine.execExtentZero h handle count s
  | .extentQuery h handle count => Sys2Proof.Machine.execExtentQuery h handle count s
  | .functionBind h port routingId link vslot => Sys2Proof.Machine.execFunctionBind h port routingId link vslot s
  | .functionUnbind h port routingId => Sys2Proof.Machine.execFunctionUnbind h port routingId s
  | .slotRemove h port => Sys2Proof.Machine.execSlotRemove h port s
  | .hbmPartitionSet h directory matching heaps => Sys2Proof.Machine.execHbmPartitionSet h directory matching heaps s
  | .cohAgentAdd h agent kind port => Sys2Proof.Machine.execCohAgentAdd h agent kind port s
  | .cohAgentRemove h agent => Sys2Proof.Machine.execCohAgentRemove h agent s
  | .cohWindowCreate h window mask => Sys2Proof.Machine.execCohWindowCreate h window mask s
  | .cohWindowAgents h window mask => Sys2Proof.Machine.execCohWindowAgents h window mask s
  | .cohWindowMap h window inst firstSlot map => Sys2Proof.Machine.execCohWindowMap h window inst firstSlot map s
  | .cohWindowDestroy h window => Sys2Proof.Machine.execCohWindowDestroy h window s
  | .dirSet h cm snoopTimeout scrubEnable => Sys2Proof.Machine.execDirSet h cm snoopTimeout scrubEnable s
  | .dirQuery h window extentIndex lineIndex => Sys2Proof.Machine.execDirQuery h window extentIndex lineIndex s
  | .queueCreate h q => Sys2Proof.Machine.execQueueCreate h q s
  | .queueDestroy h kind queue => Sys2Proof.Machine.execQueueDestroy h kind queue s
  | .queueMove h queue engine => Sys2Proof.Machine.execQueueMove h queue engine s
  | .queueRestart h kind queue => Sys2Proof.Machine.execQueueRestart h kind queue s
  | .regionSet h r => Sys2Proof.Machine.execRegionSet h r s
  | .engInstanceSet h inst counterBase counterCount heap matchEntries onDieReserve => Sys2Proof.Machine.execEngInstanceSet h inst counterBase counterCount heap matchEntries onDieReserve s
  | .engSet h cm rnrDelay rnrLimit lockAge => Sys2Proof.Machine.execEngSet h cm rnrDelay rnrLimit lockAge s
  | .lockBreak h index => Sys2Proof.Machine.execLockBreak h index s
  | .engQuery h kind index => Sys2Proof.Machine.execEngQuery h kind index s
  | .collGroupSet h g => Sys2Proof.Machine.execCollGroupSet h g s
  | .collGroupRemove h group => Sys2Proof.Machine.execCollGroupRemove h group s
  | .collFence h group target index => Sys2Proof.Machine.execCollFence h group target index s
  | .collQuery h group => Sys2Proof.Machine.execCollQuery h group s
  | .instanceCreate h inst link function resetMode drainTimeout vectors => Sys2Proof.Machine.execInstanceCreate h inst link function resetMode drainTimeout vectors s
  | .instanceSet h inst cm resetMode drainTimeout vectors => Sys2Proof.Machine.execInstanceSet h inst cm resetMode drainTimeout vectors s
  | .instanceReset h inst form => Sys2Proof.Machine.execInstanceReset h inst form s
  | .instanceDisable h inst => Sys2Proof.Machine.execInstanceDisable h inst s
  | .dirtyLogSet h inst enable baseA baseB rangeBase rangePages inFunction => Sys2Proof.Machine.execDirtyLogSet h inst enable baseA baseB rangeBase rangePages inFunction s
  | .dirtyLogSwap h inst => Sys2Proof.Machine.execDirtyLogSwap h inst s
  | .instanceQuery h inst => Sys2Proof.Machine.execInstanceQuery h inst s
  | .mpuRulesSet h master set first count entries => Sys2Proof.Machine.execMpuRulesSet h master set first count entries s
  | .mpuSwap h master => Sys2Proof.Machine.execMpuSwap h master s
  | .mpuQuery h master => Sys2Proof.Machine.execMpuQuery h master s
  | .debugUnlock h action serial nonce signatureOk => Sys2Proof.Machine.execDebugUnlock h action serial nonce signatureOk s
  | .icuSet h target first count priority coreMask threshold => Sys2Proof.Machine.execIcuSet h target first count priority coreMask threshold s
  | .icuQuery h first count => Sys2Proof.Machine.execIcuQuery h first count s
  | .faultSet h first count cm severity quietMs vector => Sys2Proof.Machine.execFaultSet h first count cm severity quietMs vector s
  | .faultForce h source force kind subject => Sys2Proof.Machine.execFaultForce h source force kind subject s
  | .faultClear h first count sticky => Sys2Proof.Machine.execFaultClear h first count sticky s
  | .faultQuery h first count => Sys2Proof.Machine.execFaultQuery h first count s
  | .spareSwap h kind unit => Sys2Proof.Machine.execSpareSwap h kind unit s
  | .spareQuery h kind => Sys2Proof.Machine.execSpareQuery h kind s
  | .backgroundSet h cm hbmPatrolH sramPatrolMs calPeriodMs trendThreshold trendWindowMin auto => Sys2Proof.Machine.execBackgroundSet h cm hbmPatrolH sramPatrolMs calPeriodMs trendThreshold trendWindowMin auto s
  | .ttcSet h block counter event samplePeriod => Sys2Proof.Machine.execTtcSet h block counter event samplePeriod s
  | .dumpSet h stream cm intervalMs ringBase slots vector inMemory => Sys2Proof.Machine.execDumpSet h stream cm intervalMs ringBase slots vector inMemory s
  | .probeSet h probe bridge action source destination kindMask matchAddr mask records => Sys2Proof.Machine.execProbeSet h probe bridge action source destination kindMask matchAddr mask records s
  | .probeQuery h probe first count => Sys2Proof.Machine.execProbeQuery h probe first count s
  | .mtrSet h action inst => Sys2Proof.Machine.execMtrSet h action inst s
  | .fwWrite h slot offset final data => Sys2Proof.Machine.execFwWrite h slot offset final data s
  | .fwActivate h slot when raiseFloor => Sys2Proof.Machine.execFwActivate h slot when raiseFloor s
  | .deviceReset h kind => Sys2Proof.Machine.execDeviceReset h kind s
  | .fabricLeave h force => Sys2Proof.Machine.execFabricLeave h force s
  | .deviceResetEffect => Sys2Proof.Machine.execDeviceResetEffect s
  | .doorbellSend inst queue index => Sys2Proof.Machine.execDoorbellSend inst queue index s
  | .doorbellReceive inst queue index => Sys2Proof.Machine.execDoorbellReceive inst queue index s
  | .doorbellCompletion inst queue index => Sys2Proof.Machine.execDoorbellCompletion inst queue index s
  | .doorbellCompletionArm inst queue index => Sys2Proof.Machine.execDoorbellCompletionArm inst queue index s
  | .hlyCommandProducerWrite q index => Sys2Proof.Machine.execHlyCommandProducerWrite q index s
  | .hlyReplyConsumerWrite q index => Sys2Proof.Machine.execHlyReplyConsumerWrite q index s
  | .hlyQueueEnable q => Sys2Proof.Machine.execHlyQueueEnable q s
  | .hlyQueueDisable q => Sys2Proof.Machine.execHlyQueueDisable q s
  | .icuClaimRead core viaBar0 => Sys2Proof.Machine.execIcuClaimRead core viaBar0 s
  | .icuCompleteWrite core source viaBar0 => Sys2Proof.Machine.execIcuCompleteWrite core source viaBar0 s
  | .icuSwiWrite value => Sys2Proof.Machine.execIcuSwiWrite value s
  | .mpuViolPop value => Sys2Proof.Machine.execMpuViolPop value s
  | .ftuTimeLoRead => Sys2Proof.Machine.execFtuTimeLoRead s
  | .reg64LowHalfRead window offset => Sys2Proof.Machine.execReg64LowHalfRead window offset s
  | .bar0IllegalAccess write => Sys2Proof.Machine.execBar0IllegalAccess write s
  | .bar0UnmappedAccess access => Sys2Proof.Machine.execBar0UnmappedAccess access s
  | .registerWrite window offset value => Sys2Proof.Machine.execRegisterWrite window offset value s
  | .functionLevelReset inst => Sys2Proof.Machine.execFunctionLevelReset inst s
  | .vfEnableClear link => Sys2Proof.Machine.execVfEnableClear link s
  | .busMasterEnableClear inst => Sys2Proof.Machine.execBusMasterEnableClear inst s
  | .msixUnmask inst vector wholeFunction => Sys2Proof.Machine.execMsixUnmask inst vector wholeFunction s
  | .boardChannelRequest code inputLength => Sys2Proof.Machine.execBoardChannelRequest code inputLength s
  | .hlyCmdReceive origin queue seq segIndex segCount attempt directed retPorts => Sys2Proof.Machine.execHlyCmdReceive origin queue seq segIndex segCount attempt directed retPorts s
  | .hlyReplyReceive queue seq segIndex segCount attempt status result deviceValid device out => Sys2Proof.Machine.execHlyReplyReceive queue seq segIndex segCount attempt status result deviceValid device out s
  | .inbandTimeout queue seq => Sys2Proof.Machine.execInbandTimeout queue seq s
  | .reassemblyTimeout serial queue seq => Sys2Proof.Machine.execReassemblyTimeout serial queue seq s
  | .inbandHoldExpiry serial queue seq => Sys2Proof.Machine.execInbandHoldExpiry serial queue seq s
  | .directedReceive port hopCount hopPtr ports message => Sys2Proof.Machine.execDirectedReceive port hopCount hopPtr ports message s
  | .neighbourReceive port serial neighbourPort => Sys2Proof.Machine.execNeighbourReceive port serial neighbourPort s
  | .syncPeriod => Sys2Proof.Machine.execSyncPeriod s
  | .ftSyncReqReceive port exchange t1 => Sys2Proof.Machine.execFtSyncReqReceive port exchange t1 s
  | .ftSyncRspReceive port exchange depth t2 t3 => Sys2Proof.Machine.execFtSyncRspReceive port exchange depth t2 t3 s
  | .parentReplyLoss => Sys2Proof.Machine.execParentReplyLoss s
  | .mastheadTimeTick => Sys2Proof.Machine.execMastheadTimeTick s
  | .wakeSyncWindowEnd => Sys2Proof.Machine.execWakeSyncWindowEnd s
  | .packetIngress input p length rxVl preYellow firstOfOp => Sys2Proof.Machine.execPacketIngress input p length rxVl preYellow firstOfOp s
  | .routeRetry pid => Sys2Proof.Machine.execRouteRetry pid s
  | .bufferAdmission pid => Sys2Proof.Machine.execBufferAdmission pid s
  | .egressSelect output => Sys2Proof.Machine.execEgressSelect output s
  | .framePreempt output pid progress => Sys2Proof.Machine.execFramePreempt output pid progress s
  | .suspendedFrameResume output vl => Sys2Proof.Machine.execSuspendedFrameResume output vl s
  | .linkFrameReceive port sync head pid bytes frameCrc marked lost => Sys2Proof.Machine.execLinkFrameReceive port sync head pid bytes frameCrc marked lost s
  | .linkControlFlitReceive port flit sync => Sys2Proof.Machine.execLinkControlFlitReceive port flit sync s
  | .replayTimeout port => Sys2Proof.Machine.execReplayTimeout port s
  | .retrainLimitExpiry port => Sys2Proof.Machine.execRetrainLimitExpiry port s
  | .linkInitFlitTimer port => Sys2Proof.Machine.execLinkInitFlitTimer port s
  | .portDisableDrainTimeout port => Sys2Proof.Machine.execPortDisableDrainTimeout port s
  | .transportDataReceive p check ticketUsed => Sys2Proof.Machine.execTransportDataReceive p check ticketUsed s
  | .topenReceive peer inst cls initialSeq sl => Sys2Proof.Machine.execTopenReceive peer inst cls initialSeq sl s
  | .tcloseReceive peer inst cls nextSeq sl => Sys2Proof.Machine.execTcloseReceive peer inst cls nextSeq sl s
  | .tackReceive peer inst cls ackSeq openAck openRefused closeAck lates marks ticketsReturned ticketsGranted => Sys2Proof.Machine.execTackReceive peer inst cls ackSeq openAck openRefused closeAck lates marks ticketsReturned ticketsGranted s
  | .tnakReceive peer inst cls seq transit reason => Sys2Proof.Machine.execTnakReceive peer inst cls seq transit reason s
  | .ackDelayExpiry peer inst cls => Sys2Proof.Machine.execAckDelayExpiry peer inst cls s
  | .nakDelayExpiry peer inst cls => Sys2Proof.Machine.execNakDelayExpiry peer inst cls s
  | .retryTimeout peer inst cls => Sys2Proof.Machine.execRetryTimeout peer inst cls s
  | .ctxIdleExpiry peer inst cls => Sys2Proof.Machine.execCtxIdleExpiry peer inst cls s
  | .contextFetchDone peer inst cls half => Sys2Proof.Machine.execContextFetchDone peer inst cls half s
  | .mcAckReceive port tree srcDevice inst op delivered fenced => Sys2Proof.Machine.execMcAckReceive port tree srcDevice inst op delivered fenced s
  | .descriptorFetch queue bits readOk => Sys2Proof.Machine.execDescriptorFetch queue bits readOk s
  | .put queue d => Sys2Proof.Machine.execPut queue d s
  | .get queue d => Sys2Proof.Machine.execGet queue d s
  | .atomic queue d => Sys2Proof.Machine.execAtomic queue d s
  | .send queue d => Sys2Proof.Machine.execSend queue d s
  | .lock queue d => Sys2Proof.Machine.execLock queue d s
  | .unlock queue d => Sys2Proof.Machine.execUnlock queue d s
  | .counterAdd queue d => Sys2Proof.Machine.execCounterAdd queue d s
  | .counterSet queue d => Sys2Proof.Machine.execCounterSet queue d s
  | .descNop queue d => Sys2Proof.Machine.execDescNop queue d s
  | .triggerFire engine => Sys2Proof.Machine.execTriggerFire engine s
  | .edgeWaitRelease pid => Sys2Proof.Machine.execEdgeWaitRelease pid s
  | .flaggedLateSend peer inst cls => Sys2Proof.Machine.execFlaggedLateSend peer inst cls s
  | .receiveTake queue bits => Sys2Proof.Machine.execReceiveTake queue bits s
  | .rnrDelayExpiry opTag => Sys2Proof.Machine.execRnrDelayExpiry opTag s
  | .lockAgeExpiry index => Sys2Proof.Machine.execLockAgeExpiry index s
  | .putArrival r a data last => Sys2Proof.Machine.execPutArrival r a data last s
  | .getArrival r a poison => Sys2Proof.Machine.execGetArrival r a poison s
  | .atomicArrival r a aop size16 opA opB old => Sys2Proof.Machine.execAtomicArrival r a aop size16 opA opB old s
  | .lockArrival r a wait => Sys2Proof.Machine.execLockArrival r a wait s
  | .unlockArrival r a => Sys2Proof.Machine.execUnlockArrival r a s
  | .lockAbandonArrival r queue => Sys2Proof.Machine.execLockAbandonArrival r queue s
  | .sendEagerArrival r dstInst context msn msgOffset matchBits msgLength data => Sys2Proof.Machine.execSendEagerArrival r dstInst context msn msgOffset matchBits msgLength data s
  | .sendRtsArrival r dstInst context msn matchBits msgLength => Sys2Proof.Machine.execSendRtsArrival r dstInst context msn matchBits msgLength s
  | .rgetArrival r rvTag rvGen offset length => Sys2Proof.Machine.execRgetArrival r rvTag rvGen offset length s
  | .putAckArrival r => Sys2Proof.Machine.execPutAckArrival r s
  | .getDataArrival r data => Sys2Proof.Machine.execGetDataArrival r data s
  | .atomicResultArrival r old => Sys2Proof.Machine.execAtomicResultArrival r old s
  | .lockResultArrival r lockIndex srcDevice => Sys2Proof.Machine.execLockResultArrival r lockIndex srcDevice s
  | .sendAckArrival r => Sys2Proof.Machine.execSendAckArrival r s
  | .sendRnrArrival r => Sys2Proof.Machine.execSendRnrArrival r s
  | .rgetDataArrival r data => Sys2Proof.Machine.execRgetDataArrival r data s
  | .rdoneArrival r bytes => Sys2Proof.Machine.execRdoneArrival r bytes s
  | .engErrorArrival r => Sys2Proof.Machine.execEngErrorArrival r s
  | .hostMemoryAccess inst address length write cxl data => Sys2Proof.Machine.execHostMemoryAccess inst address length write cxl data s
  | .hostWindowStore inst address length posted data => Sys2Proof.Machine.execHostWindowStore inst address length posted data s
  | .wreadArrival srcDevice srcInst sl w => Sys2Proof.Machine.execWreadArrival srcDevice srcInst sl w s
  | .wwriteArrival srcDevice srcInst sl w data => Sys2Proof.Machine.execWwriteArrival srcDevice srcInst sl w data s
  | .wreadDataArrival inst w data => Sys2Proof.Machine.execWreadDataArrival inst w data s
  | .wwriteDoneArrival inst w => Sys2Proof.Machine.execWwriteDoneArrival inst w s
  | .werrorArrival inst w reason => Sys2Proof.Machine.execWerrorArrival inst w reason s
  | .coherentRequest agent handle lineIndex op offset data => Sys2Proof.Machine.execCoherentRequest agent handle lineIndex op offset data s
  | .coherentWriteback agent handle lineIndex keep data => Sys2Proof.Machine.execCoherentWriteback agent handle lineIndex keep data s
  | .evictionNotice agent handle lineIndex => Sys2Proof.Machine.execEvictionNotice agent handle lineIndex s
  | .snoopResponseReceive agent handle lineIndex form data => Sys2Proof.Machine.execSnoopResponseReceive agent handle lineIndex form data s
  | .biconflictReceive agent handle lineIndex => Sys2Proof.Machine.execBiconflictReceive agent handle lineIndex s
  | .memoryWriteDone handle lineIndex => Sys2Proof.Machine.execMemoryWriteDone handle lineIndex s
  | .snoopTimeoutExpiry agent handle lineIndex => Sys2Proof.Machine.execSnoopTimeoutExpiry agent handle lineIndex s
  | .recallComplete recallId => Sys2Proof.Machine.execRecallComplete recallId s
  | .memberArrival group member values failed poison => Sys2Proof.Machine.execMemberArrival group member values failed poison s
  | .rdxUpArrival group srcDevice srcInst sl round members fenced arrival elementOffset poison values => Sys2Proof.Machine.execRdxUpArrival group srcDevice srcInst sl round members fenced arrival elementOffset poison values s
  | .rdxDownArrival group round combined fenced status elementOffset values => Sys2Proof.Machine.execRdxDownArrival group round combined fenced status elementOffset values s
  | .zeroingComplete handle => Sys2Proof.Machine.execZeroingComplete handle s
  | .dynamicCapacityRelease release => Sys2Proof.Machine.execDynamicCapacityRelease release s
  | .dynamicCapacityAddReject handle => Sys2Proof.Machine.execDynamicCapacityAddReject handle s
  | .releaseTimeoutExpiry handle isFunction port routingId => Sys2Proof.Machine.execReleaseTimeoutExpiry handle isFunction port routingId s
  | .unbindDrainComplete handle => Sys2Proof.Machine.execUnbindDrainComplete handle s
  | .virtualSlotPowerOff link vslot => Sys2Proof.Machine.execVirtualSlotPowerOff link vslot s
  | .functionResetComplete port routingId => Sys2Proof.Machine.execFunctionResetComplete port routingId s
  | .expanderEnumerated port serial isExpander capacity further functions => Sys2Proof.Machine.execExpanderEnumerated port serial isExpander capacity further functions s
  | .hopReleaseDrained resvId => Sys2Proof.Machine.execHopReleaseDrained resvId s
  | .hopReleaseTimeout resvId => Sys2Proof.Machine.execHopReleaseTimeout resvId s
  | .treeDrained tree => Sys2Proof.Machine.execTreeDrained tree s
  | .leafDrained queue => Sys2Proof.Machine.execLeafDrained queue s
  | .groupDrained group => Sys2Proof.Machine.execGroupDrained group s
  | .queueMoveForwardDone queue => Sys2Proof.Machine.execQueueMoveForwardDone queue s
  | .logSwapWritebackDone inst => Sys2Proof.Machine.execLogSwapWritebackDone inst s
  | .mpuSwapCommit master => Sys2Proof.Machine.execMpuSwapCommit master s
  | .mpuSwapRetire master => Sys2Proof.Machine.execMpuSwapRetire master s
  | .spareSwapComplete kind unit => Sys2Proof.Machine.execSpareSwapComplete kind unit s
  | .resetDrainComplete inst => Sys2Proof.Machine.execResetDrainComplete inst s
  | .drainTimeoutExpiry inst => Sys2Proof.Machine.execDrainTimeoutExpiry inst s
  | .generationWaitExpiry inst => Sys2Proof.Machine.execGenerationWaitExpiry inst s
  | .resetForceExpiry inst => Sys2Proof.Machine.execResetForceExpiry inst s
  | .resetItemsDone inst => Sys2Proof.Machine.execResetItemsDone inst s
  | .stormJibDrained => Sys2Proof.Machine.execStormJibDrained s
  | .stormJibWake cause => Sys2Proof.Machine.execStormJibWake cause s
  | .barePolesCommandTimeout => Sys2Proof.Machine.execBarePolesCommandTimeout s
  | .wakeGpio => Sys2Proof.Machine.execWakeGpio s
  | .rateStepComplete port => Sys2Proof.Machine.execRateStepComplete port s
  | .rateStepTimeout port => Sys2Proof.Machine.execRateStepTimeout port s
  | .lossOfSignal lane => Sys2Proof.Machine.execLossOfSignal lane s
  | .lossOfLock lane => Sys2Proof.Machine.execLossOfLock lane s
  | .codewordLockLoss port => Sys2Proof.Machine.execCodewordLockLoss port s
  | .corrWindowEnd lane corrected => Sys2Proof.Machine.execCorrWindowEnd lane corrected s
  | .marginReport lane margin => Sys2Proof.Machine.execMarginReport lane margin s
  | .wearFlag lane => Sys2Proof.Machine.execWearFlag lane s
  | .trainingSequenceReceive lane seq => Sys2Proof.Machine.execTrainingSequenceReceive lane seq s
  | .trainDetectSignal lane => Sys2Proof.Machine.execTrainDetectSignal lane s
  | .equaliseTimeout port => Sys2Proof.Machine.execEqualiseTimeout port s
  | .lockAchieved port skews => Sys2Proof.Machine.execLockAchieved port skews s
  | .trainTimeout port => Sys2Proof.Machine.execTrainTimeout port s
  | .backoffElapsed port => Sys2Proof.Machine.execBackoffElapsed port s
  | .idleEntryExpiry port => Sys2Proof.Machine.execIdleEntryExpiry port s
  | .fastExit port => Sys2Proof.Machine.execFastExit port s
  | .fastExitLockTimeout port => Sys2Proof.Machine.execFastExitLockTimeout port s
  | .subReq port msg => Sys2Proof.Machine.execSubReq port msg s
  | .subAck port msg => Sys2Proof.Machine.execSubAck port msg s
  | .subCompareDone port differing => Sys2Proof.Machine.execSubCompareDone port differing s
  | .subDone port msg => Sys2Proof.Machine.execSubDone port msg s
  | .subAbort port msg => Sys2Proof.Machine.execSubAbort port msg s
  | .stepMsg port msg => Sys2Proof.Machine.execStepMsg port msg s
  | .stepAck port msg => Sys2Proof.Machine.execStepAck port msg s
  | .idleEnter port msg => Sys2Proof.Machine.execIdleEnter port msg s
  | .wake port msg => Sys2Proof.Machine.execWake port msg s
  | .testReq port msg => Sys2Proof.Machine.execTestReq port msg s
  | .testAck port msg => Sys2Proof.Machine.execTestAck port msg s
  | .auditPassEnd => Sys2Proof.Machine.execAuditPassEnd s
  | .arbStarveThreshold resource index requester grantedNow => Sys2Proof.Machine.execArbStarveThreshold resource index requester grantedNow s
  | .feedWindowEnter feed voltage => Sys2Proof.Machine.execFeedWindowEnter feed voltage s
  | .feedWindowExit feed voltage => Sys2Proof.Machine.execFeedWindowExit feed voltage s
  | .insertionDelayElapsed feed => Sys2Proof.Machine.execInsertionDelayElapsed feed s
  | .rampComplete channel => Sys2Proof.Machine.execRampComplete channel s
  | .qualificationDone channel pgin => Sys2Proof.Machine.execQualificationDone channel pgin s
  | .currentOverLimit channel current => Sys2Proof.Machine.execCurrentOverLimit channel current s
  | .currentBelowRecovery channel current => Sys2Proof.Machine.execCurrentBelowRecovery channel current s
  | .faultTimerTrip channel => Sys2Proof.Machine.execFaultTimerTrip channel s
  | .fastTrip channel withEnergy => Sys2Proof.Machine.execFastTrip channel withEnergy s
  | .energyBudgetTrip channel => Sys2Proof.Machine.execEnergyBudgetTrip channel s
  | .rampTimeout channel => Sys2Proof.Machine.execRampTimeout channel s
  | .coolDownElapsed channel => Sys2Proof.Machine.execCoolDownElapsed channel s
  | .attemptCountReset channel => Sys2Proof.Machine.execAttemptCountReset channel s
  | .reverseCurrent feed => Sys2Proof.Machine.execReverseCurrent feed s
  | .reverseRecovery feed => Sys2Proof.Machine.execReverseRecovery feed s
  | .feedBelow5v feed => Sys2Proof.Machine.execFeedBelow5v feed s
  | .thermalTrip sensor => Sys2Proof.Machine.execThermalTrip sensor s
  | .temperatureReading sensor celsius => Sys2Proof.Machine.execTemperatureReading sensor celsius s
  | .presenceDebounced slot => Sys2Proof.Machine.execPresenceDebounced slot s
  | .presenceLost slot port linkDown => Sys2Proof.Machine.execPresenceLost slot port linkDown s
  | .pginFall slot => Sys2Proof.Machine.execPginFall slot s
  | .measurementWindowEnd channel vPeak vMin iPeak iMin pMean energy => Sys2Proof.Machine.execMeasurementWindowEnd channel vPeak vMin iPeak iMin pMean energy s
  | .captureRecord channel voltage current power cause => Sys2Proof.Machine.execCaptureRecord channel voltage current power cause s
  | .continuousCaptureEnd channel => Sys2Proof.Machine.execContinuousCaptureEnd channel s
  | .sleepIdleExpiry domain => Sys2Proof.Machine.execSleepIdleExpiry domain s
  | .powerOffIdleExpiry domain => Sys2Proof.Machine.execPowerOffIdleExpiry domain s
  | .domainOffDone domain => Sys2Proof.Machine.execDomainOffDone domain s
  | .domainPacketArrival domain p => Sys2Proof.Machine.execDomainPacketArrival domain p s
  | .domainWakeDone domain => Sys2Proof.Machine.execDomainWakeDone domain s
  | .domainWakeTimeout domain => Sys2Proof.Machine.execDomainWakeTimeout domain s
  | .quietPeriodExpiry => Sys2Proof.Machine.execQuietPeriodExpiry s
  | .trendFire kind unit => Sys2Proof.Machine.execTrendFire kind unit s
  | .hbmUncorrectableError address owner patrol => Sys2Proof.Machine.execHbmUncorrectableError address owner patrol s
  | .sramUncorrectableError row => Sys2Proof.Machine.execSramUncorrectableError row s
  | .engineDuplicateFail engine => Sys2Proof.Machine.execEngineDuplicateFail engine s
  | .managementCoreWatchdog core => Sys2Proof.Machine.execManagementCoreWatchdog core s
  | .calPeriod => Sys2Proof.Machine.execCalPeriod s
  | .dumpInterval stream freed => Sys2Proof.Machine.execDumpInterval stream freed s
  | .dumpSlotWritten stream freed => Sys2Proof.Machine.execDumpSlotWritten stream freed s
  | .counterAccumulate => Sys2Proof.Machine.execCounterAccumulate s
  | .sampleCountdownZero engine counter programCounter => Sys2Proof.Machine.execSampleCountdownZero engine counter programCounter s
  | .probeMatch bridge source destination kind address length direction => Sys2Proof.Machine.execProbeMatch bridge source destination kind address length direction s
  | .traceRecordTimeout probe => Sys2Proof.Machine.execTraceRecordTimeout probe s
  | .coldReset insdly straps calibFailed baselines => Sys2Proof.Machine.execColdReset insdly straps calibFailed baselines s
  | .vauxLoss => Sys2Proof.Machine.execVauxLoss s
  | .warmReset trigger => Sys2Proof.Machine.execWarmReset trigger s
  | .managementComplexReset trigger => Sys2Proof.Machine.execManagementComplexReset trigger s
  | .imageCheckDone slot ok version fwVersion => Sys2Proof.Machine.execImageCheckDone slot ok version fwVersion s
  | .bootReady => Sys2Proof.Machine.execBootReady s
  | .centralSchedulerMatching stagedFirst stagedNext => Sys2Proof.Machine.execCentralSchedulerMatching stagedFirst stagedNext s
  | .hostReadCompletion tag values error poison => Sys2Proof.Machine.execHostReadCompletion tag values error poison s
  | .hostCompletionTimeout tag => Sys2Proof.Machine.execHostCompletionTimeout tag s
  | .directoryReadDone handle lineIndex poison => Sys2Proof.Machine.execDirectoryReadDone handle lineIndex poison s
  | .vfEnableSet link numVfs => Sys2Proof.Machine.execVfEnableSet link numVfs s
  | .busMasterEnableSet inst => Sys2Proof.Machine.execBusMasterEnableSet inst s
  | .perst0Deassertion => Sys2Proof.Machine.execPerst0Deassertion s
  | .vaux33Rise insdly smbaddr ppssel flash => Sys2Proof.Machine.execVaux33Rise insdly smbaddr ppssel flash s
  | .meteringSlotWaitTimeout inst => Sys2Proof.Machine.execMeteringSlotWaitTimeout inst s
  | .ppsInputEdge => Sys2Proof.Machine.execPpsInputEdge s
  | .ppsOutputSecond => Sys2Proof.Machine.execPpsOutputSecond s
  | .mctpControlMessage command => Sys2Proof.Machine.execMctpControlMessage command s
  | .jtagInstructionUpdate instruction => Sys2Proof.Machine.execJtagInstructionUpdate instruction s
  | .viralReceived port => Sys2Proof.Machine.execViralReceived port s
  | .pcieLinkTrained port rate width cxlOffered flit256 => Sys2Proof.Machine.execPcieLinkTrained port rate width cxlOffered flit256 s
  | .prbsCheckerLock lane => Sys2Proof.Machine.execPrbsCheckerLock lane s
  | .prbsLockLoss lane => Sys2Proof.Machine.execPrbsLockLoss lane s
  | .directoryBankFailure bank => Sys2Proof.Machine.execDirectoryBankFailure bank s
  | .routeBankFailure tile bank => Sys2Proof.Machine.execRouteBankFailure tile bank s
  | .pseudoChannelFailure channel => Sys2Proof.Machine.execPseudoChannelFailure channel s
  | .managementCoreFailure core => Sys2Proof.Machine.execManagementCoreFailure core s
  | .ageingMonitorFlag kind unit => Sys2Proof.Machine.execAgeingMonitorFlag kind unit s
  | .datapathError => Sys2Proof.Machine.execDatapathError s
  | .shroudBridgeTimeout bridge => Sys2Proof.Machine.execShroudBridgeTimeout bridge s
  | .managementFirmwareFault source seq => Sys2Proof.Machine.execManagementFirmwareFault source seq s

end Sys2Proof.Machine
end

