-- ==== Sys2Proof/Safety.lean ====
section
/-!
DEFINITION. What counts as a safe run, in the terms that claims use: when a step owes nothing at its end, when a Halyard command
runs, what its answer leaves, and which memories are in canonical form.
Where the spec leaves a point open: DESIGN CHOICE 4 (notes/assumptions).
-/
namespace Sys2Proof.Machine

/-- Nothing is owed at the end of a step: no action of a fault (R523), no LOCK_ABANDON (R368), no queue that is being destroyed
(R374), no slot held for a Poisoned extent (R291), no fabric being left (R570), and no entry to bare poles (R510). -/
def State.calm (s : State) : Bool :=
  s.flt.actions.isEmpty && s.mec.abandons.isEmpty && (s.mec.sendQ.all fun q => !q.2.destroying) &&
    (s.mec.recvQ.all fun q => !q.2.destroying) && (s.pool.down.all fun e => !e.2.held) && !s.mgc.leaving &&
    !(s.pwr.change.any fun c => c.target == .barePoles)

/-- A Halyard command is accepted in this step, passes the checks of R454 that all commands share, and runs at this device. The
command's code, the bytes that it reads and writes in its data buffer, and the objects that R451 guards are given. -/
def State.runs (s : State) (h : HlyHdr) (code inLen outLen : Nat) (names : List Obj) : Bool :=
  s.acceptable h && (s.commonStatus code h inLen outLen names).isNone && !h.remote

/-- The state after the reply of a command that has succeeded with status 0x0000 (R446, R449). -/
def State.answer (s : State) (h : HlyHdr) (code result : Nat) (out : List Nat) : State :=
  s.complete h.src h.seq code h.interrupt h.outputError 0 result out

/-- The state in which a command is in progress and waits (R450). -/
def State.started (s : State) (h : HlyHdr) (code : Nat) (w : Wait) (holds : List Obj) : State :=
  s.upHly fun x => { x with progress := x.progress ++ [{
    src := h.src, seq := h.seq, code, interrupt := h.interrupt, objs := holds, wait := w, outErr := h.outputError }] }

/-- The outcome `o` is the next state in which a command has had its effect, the state `v`, and has answered 0x0000. -/
def Answers (o : Host.Outcome State Fault Refusal) (v : State) (h : HlyHdr) (code : Nat) (result : Nat := 0) (out : List Nat := []) : Prop :=
  o = .next (v.answer h code result out).settle

/-- The outcome `o` is the next state in which a command has had its first effect, the state `v`, and is in progress. -/
def Starts (o : Host.Outcome State Fault Refusal) (v : State) (h : HlyHdr) (code : Nat) (w : Wait) (holds : List Obj) : Prop :=
  o = .next (v.started h code w holds).settle

/-- The outcome `o` is the next state in which an event has had its effect, the state `v`, with the actions of the faults that it
raised. -/
def Gives (o : Host.Outcome State Fault Refusal) (v : State) : Prop := o = .next v.settle

/-- The near and far memory of the pool is in canonical form. -/
def State.memOk (s : State) : Bool := Memory.wf s.pool.mem

/-- The device is not in storm jib and not entering it, so that a waking event is nothing (R42, R511). -/
def State.awake (s : State) : Bool := s.pwr.mode != .stormJib && !(s.pwr.change.any fun c => c.target == .stormJib)

/-- A command of this list is the one that the step takes next. -/
def State.front (s : State) (i : Instr) : State := { s with pending := i :: s.pending }

/-- The routing block is as a reset leaves it (R163): bank 0 active with tag 0 and every entry of every tile 0, bank 1 and the spare
bank empty, active_epoch 0. -/
def State.rteFresh (s : State) : Prop :=
  s.rte.bank0 = { state := .active, tag := 0 } ∧ s.rte.bank1 = { state := .empty, tag := 0 } ∧ s.rte.spareTiles = 0 ∧ s.activeEpoch = 0 ∧
    ∀ tile b, (s.routeTables tile b).group = [] ∧ (s.routeTables tile b).member = []

/-! ### What a step leaves -/

/-- The parts of the state beside the queue. -/
inductive Block where
  | waiting | freeCount | out | coreTime | masthead | hly | ftu | adm | csc | obf | egs | arbs | rte | lnk | trn | prt | pool | dir
  | mec | locks | mtc | rdx | ins | mpu | icu | msix | pwr | flt | ttc | mgc | latches
deriving DecidableEq, Repr

/-- Two states agree in a part. -/
def Same (b : Block) (s t : State) : Prop :=
  match b with
  | .waiting => t.waiting = s.waiting
  | .freeCount => t.freeCount = s.freeCount
  | .out => t.out = s.out
  | .coreTime => t.coreTime = s.coreTime
  | .masthead => t.masthead = s.masthead
  | .hly => t.hly = s.hly
  | .ftu => t.ftu = s.ftu
  | .adm => t.adm = s.adm
  | .csc => t.csc = s.csc
  | .obf => t.obf = s.obf
  | .egs => t.egs = s.egs
  | .arbs => t.arbs = s.arbs
  | .rte => t.rte = s.rte
  | .lnk => t.lnk = s.lnk
  | .trn => t.trn = s.trn
  | .prt => t.prt = s.prt
  | .pool => t.pool = s.pool
  | .dir => t.dir = s.dir
  | .mec => t.mec = s.mec
  | .locks => t.locks = s.locks
  | .mtc => t.mtc = s.mtc
  | .rdx => t.rdx = s.rdx
  | .ins => t.ins = s.ins
  | .mpu => t.mpu = s.mpu
  | .icu => t.icu = s.icu
  | .msix => t.msix = s.msix
  | .pwr => t.pwr = s.pwr
  | .flt => t.flt = s.flt
  | .ttc => t.ttc = s.ttc
  | .mgc => t.mgc = s.mgc
  | .latches => t.latches = s.latches

/-- The outcome `o` of a command in the state `s` is a next state that differs from `s` in the listed parts at most. -/
def LeavesBut (o : Host.Outcome State Fault Refusal) (s : State) (l : List Block) : Prop :=
  ∃ t : State, o = .next t ∧ t.pending = s.pending ∧ ∀ b, b ∉ l → Same b s t

/-- The outcome `o` of a command in the state `s` is a next state in which the command's own effect, before the actions of the faults that
it raised, has changed the listed parts at most. -/
def KeepsBut (o : Host.Outcome State Fault Refusal) (s : State) (l : List Block) : Prop :=
  ∃ u : State, Gives o u ∧ u.pending = s.pending ∧ ∀ b, b ∉ l → Same b s u

/-- The parts that a Halyard command changes by being taken and answered (R446, R447, R449): the record of commands, the outputs, the
MSI-X table, the dirty-page log of instance 0, into whose memory the reply goes, and the commands that wait; where the command or its
reply travels in-band (R461), also the packets that wait at the ingress and the count of packets built. -/
def replyParts (h : HlyHdr) : List Block :=
  [.hly, .ins, .msix, .out, .waiting] ++ if (srcKey h.src).isSome || h.remote then [.obf, .trn] else []

end Sys2Proof.Machine
end

