-- ==== Sys2Proof/Certificates/Slice0/Obligations.lean ====
section
/-! DEFINITION. The statements about the model, one definition each, in the order of OBLIGATIONS.json. `Answers`, `Starts`, `Gives`,
`LeavesBut`, `KeepsBut` and the other words they use stand in Sys2Proof/Safety.lean. -/

open Sys2Proof Sys2Proof.Machine

/-- The general commands NOP, DEVICE_QUERY, INBAND_SET, HOST_LINK_SET and FTU_SET (R434, R456, R457, R465, R69). Each, on
parameters in range, answers 0x0000 with its effect: the registers it sets hold the values that its change mask selects.
The numbers of mask bits are read from R443, log entry 16.
Completion, in the conclusion: exec answers a next state, that of the command's own effect, on every state and operands that meet the
hypotheses, for each of nop, deviceQuery, inbandSet, hostLinkSet, ftuSet. -/
def Obligations.GeneralCommandsComplete : Prop :=
  (∀ (s : State) (h : HlyHdr), s.runs h 0x0001 0 0 [] = true → Answers (exec (.nop h) s) (s.fetchCmd h) h 0x0001) ∧
  (∀ (s : State) (h : HlyHdr), s.runs h 0x0002 0 64 [] = true →
    Answers (exec (.deviceQuery h) s) (s.fetchCmd h) h 0x0002 0 s.deviceImage ∧ s.deviceImage.length = 64) ∧
  (∀ (s : State) (h : HlyHdr) (cm : Nat) (accept : Bool) (count : Nat) (serials : List Nat) (timeout retries hold : Nat),
    s.runs h 0x0003 0 0 [] = true → count ≤ 4 → 1 ≤ timeout → timeout ≤ 1000 → 1 ≤ retries → retries ≤ 15 → 1 ≤ hold → hold ≤ 100 →
    timeout * (retries + 1) < 1000 * hold → (∀ i, i < 6 → cmBit cm i = true) →
    ∃ v : State, Answers (exec (.inbandSet h cm accept count serials timeout retries hold) s) v h 0x0003 ∧
      v.hly.trustedOnly = accept ∧ v.hly.trusted = serials.take count ∧ v.hly.inbandTimeout = timeout ∧
      v.hly.inbandRetries = retries ∧ v.hly.inbandHold = hold ∧ v.ftu = s.ftu ∧ v.pool = s.pool ∧ v.pwr = s.pwr) ∧
  (∀ (s : State) (h : HlyHdr) (link cm windowLog2 releaseTimeout : Nat),
    s.runs h 0x0004 0 0 [.port link] = true → s.namesHostLink link = true → link ≤ 31 → cmBit cm 0 = false → releaseTimeout ≤ 60 →
    ∃ v : State, Answers (exec (.hostLinkSet h link cm windowLog2 releaseTimeout) s) v h 0x0004 ∧
      (v.hostLink link).releaseTimeout = pick cm 1 releaseTimeout (s.hostLink link).releaseTimeout ∧
      (v.hostLink link).windowLog2 = (s.hostLink link).windowLog2 ∧ v.pool.mem = s.pool.mem) ∧
  (∀ (s : State) (h : HlyHdr) (cm : Nat) (grandmaster : Bool) (parentPort syncPeriod : Nat) (ppsIn ppsOut : Bool),
    s.runs h 0x0509 0 0 [] = true → cmBit cm 0 = false → 1 ≤ syncPeriod → syncPeriod ≤ 1000 →
    parentPort ≤ 31 → s.isNative parentPort = true → s.ftu.grandmaster = true →
    ∃ v : State, Answers (exec (.ftuSet h cm grandmaster parentPort syncPeriod ppsIn ppsOut) s) v h 0x0509 ∧
      v.ftu.parentPort = pick cm 1 parentPort s.ftu.parentPort ∧ v.ftu.syncPeriod = pick cm 2 syncPeriod s.ftu.syncPeriod ∧
      v.ftu.ppsIn = pick cm 3 ppsIn s.ftu.ppsIn ∧ v.ftu.ppsOut = pick cm 4 ppsOut s.ftu.ppsOut ∧
      v.ftu.grandmaster = s.ftu.grandmaster ∧ v.ftu.sync = s.ftu.sync ∧ v.ftu.time = s.ftu.time ∧ v.adm = s.adm)

/-- The commands of power, slots and modes (R506, R515): each, where the spec does not refuse it, completes or is in progress with
its effect. An entry to storm jib (MODE_SET 2) suspends new green packets and waits (R508).
Where the specification gives an output no layout of its own, its bytes are the model's choice, log entry 22.
The numbers of mask bits are read from R443, log entry 46.
Completion, in the conclusion: exec answers a next state, that of the command's own effect, on every state and operands that meet the
hypotheses, for each of modeSet, pwrSet, pwrQuery, pwrCapture, slotSet, slotPower, slotQuery. -/
def Obligations.PowerCommandsComplete : Prop :=
  (∀ (s : State) (h : HlyHdr) (reefForm : Nat) (force : Bool),
    s.runs h 0x0101 0 0 [] = true → reefForm ≤ 1 → s.pwr.change = none → s.pwr.mode = .fullSail ∨ s.pwr.mode = .reefed →
    ∃ v : State, Starts (exec (.modeSet h 2 reefForm force) s) v h 0x0101 .modeChange [.device] ∧ v.adm.stormSuspend = true ∧
      v.pwr.change = some { target := .stormJib, reefForm, force, draining := true } ∧ v.pwr.mode = s.pwr.mode ∧ v.pool = s.pool) ∧
  (∀ (s : State) (h : HlyHdr) (feed cm : Nat) (set : ChanSet) (rearm : Bool) (windowMs wakeGpio sleepIdle powerOffIdle : Nat),
    s.runs h 0x0102 0 0 [.chan feed] = true → feed ≤ 1 → chanSetBad feed (mergeSet cm 0 set (s.chanSet feed)) = false →
    (cmBit cm 7 = true → rearm = true → (s.chan feed).state = .latchedOff ∧ s.pwr.thermTrip = false) →
    1 ≤ windowMs → windowMs ≤ 1000 → wakeGpio ≤ 31 ∨ wakeGpio = 63 → sleepIdle ≤ 1000 → powerOffIdle ≤ 10000 →
    ∃ v : State, Answers (exec (.pwrSet h feed cm set rearm windowMs wakeGpio sleepIdle powerOffIdle) s) v h 0x0102 ∧
      v.chanSet feed = mergeSet cm 0 set (s.chanSet feed) ∧ v.pwr.windowMs = pick cm 8 windowMs s.pwr.windowMs ∧
      v.pwr.wakeGpio = pick cm 9 wakeGpio s.pwr.wakeGpio ∧ v.pwr.sleepIdle = pick cm 10 sleepIdle s.pwr.sleepIdle ∧
      v.pwr.powerOffIdle = pick cm 11 powerOffIdle s.pwr.powerOffIdle ∧ v.pwr.mode = s.pwr.mode ∧ v.pool = s.pool ∧
      (cmBit cm 7 = true → rearm = true → (v.chan feed).attempts = 0 ∧
        (v.chan feed).state = if (s.chan feed).inWindow then .insertion else .off)) ∧
  (∀ (s : State) (h : HlyHdr) (channel : Nat), s.runs h 0x0103 0 68 [] = true → channel ≤ 33 → (s.chanImage channel).length ≤ h.dataLength →
    Answers (exec (.pwrQuery h channel) s) (s.fetchCmd h) h 0x0103 0 (s.chanImage channel)) ∧
  (∀ (s : State) (h : HlyHdr) (action mask channel first count : Nat), action ≤ 1 → mask < 2 ^ 34 → channel ≤ 33 →
    s.runs h 0x0104 0 0 [] = true → mask = 2 ^ channel →
    ∃ v : State, Answers (exec (.pwrCapture h action mask channel first count) s) v h 0x0104 ∧
      (v.chan channel).capture.test = decide (action = 0) ∧ (v.chan channel).records = (s.chan channel).records) ∧
  (∀ (s : State) (h : HlyHdr) (mask channel first count : Nat), channel ≤ 33 → 1 ≤ count → first + count ≤ 4096 →
    s.runs h 0x0104 0 (8 * count) [] = true →
    ∃ out : List Nat, out.length = 8 * count ∧ Answers (exec (.pwrCapture h 2 mask channel first count) s) (s.fetchCmd h) h 0x0104 0 out ∧
      out = outBytes ((List.range count).map fun i => (8, (s.chan channel).records.getD (first + i) 0))) ∧
  (∀ (s : State) (h : HlyHdr) (slot cm : Nat) (enable autoPower pginUse : Bool) (set : ChanSet),
    s.runs h 0x0105 0 0 [.slot slot] = true → slot ≤ 31 → chanSetBad (slot + 2) (mergeSet cm 3 set (s.chanSet (slot + 2))) = false →
    (s.chan (slot + 2)).enabled = true → cmBit cm 0 = true → enable = true → (s.chan (slot + 2)).present = false →
    ∃ v : State, Answers (exec (.slotSet h slot cm enable autoPower pginUse set) s) v h 0x0105 ∧
      (v.chan (slot + 2)).enabled = true ∧ (v.chan (slot + 2)).autoPower = pick cm 1 autoPower (s.chan (slot + 2)).autoPower ∧
      (v.chan (slot + 2)).pginUse = pick cm 2 pginUse (s.chan (slot + 2)).pginUse ∧
      v.chanSet (slot + 2) = mergeSet cm 3 set (s.chanSet (slot + 2)) ∧ (v.chan (slot + 2)).state = (s.chan (slot + 2)).state ∧
      v.pool = s.pool) ∧
  (∀ (s : State) (h : HlyHdr) (slot cm : Nat) (enable autoPower pginUse : Bool) (set : ChanSet),
    s.runs h 0x0105 0 0 [.slot slot] = true → slot ≤ 31 → chanSetBad (slot + 2) (mergeSet cm 3 set (s.chanSet (slot + 2))) = false →
    s.slotInUse slot = false → cmBit cm 0 = true → enable = false →
    ∃ v : State, Answers (exec (.slotSet h slot cm enable autoPower pginUse set) s) v h 0x0105 ∧
      (v.chan (slot + 2)).enabled = false ∧ (v.chan (slot + 2)).present = false ∧
      ((s.chan (slot + 2)).enabled = true → (v.chan (slot + 2)).state = .off)) ∧
  (∀ (s : State) (h : HlyHdr) (slot : Nat) (force : Bool), s.runs h 0x0106 0 0 [.slot slot] = true → slot ≤ 31 →
    (s.chan (slot + 2)).enabled = true → (s.chan (slot + 2)).state = .off ∨ (s.chan (slot + 2)).state = .latchedOff →
    (s.downOf (s.leadPort slot)).held = false →
    ∃ v : State, Answers (exec (.slotPower h slot true force) s) v h 0x0106 ∧ (v.chan (slot + 2)).state = .ramping ∧ v.pool = s.pool) ∧
  (∀ (s : State) (h : HlyHdr) (slot : Nat), s.runs h 0x0106 0 0 [.slot slot] = true → slot ≤ 31 →
    (s.chan (slot + 2)).enabled = true → (s.chan (slot + 2)).state = .on ∨ (s.chan (slot + 2)).state = .ramping →
    s.slotInUse slot = false →
    ∃ v : State, Answers (exec (.slotPower h slot false false) s) v h 0x0106 ∧ (v.chan (slot + 2)).state = .off ∧ v.pool = s.pool) ∧
  (∀ (s : State) (h : HlyHdr) (slot : Nat), s.runs h 0x0107 0 76 [] = true → slot ≤ 31 → (s.chanImage (slot + 2)).length + 8 ≤ h.dataLength →
    Answers (exec (.slotQuery h slot) s) (s.fetchCmd h) h 0x0107 0 (s.chanImage (slot + 2) ++
      outBytes [(4, b2n (s.chan (slot + 2)).present), (4, b2n (s.chan (slot + 2)).pgin)]))

/-- The events of feeds and power channels (R490 to R500, R592): each moves its channel through the states of R494.
What a window exit does outside On, and which latch raises a fault, are read from R494 and R500, log entry 48.
A trip of a feed (R499, R500), by each of its five causes: the cause is kept, the attempt is counted, and the feed cools down
while retries are left or else is latched off. A feed, since the trip of a slot that is On is a surprise removal as well.
Completion, in the conclusion: exec answers a next state, that of the command's own effect, on every state and operands that meet the
hypotheses, for each of feedWindowEnter, feedWindowExit, insertionDelayElapsed, rampComplete, qualificationDone, currentOverLimit,
currentBelowRecovery, faultTimerTrip, fastTrip, energyBudgetTrip, rampTimeout, coolDownElapsed, attemptCountReset, reverseCurrent,
reverseRecovery, feedBelow5v, thermalTrip, temperatureReading. -/
def Obligations.ChannelEventsTakeEffect : Prop :=
  (∀ (s : State) (feed voltage : Nat), feed ≤ 1 → ∃ u : State, Gives (exec (.feedWindowEnter feed voltage) s) u ∧
    (u.chan feed).inWindow = true ∧ (u.chan feed).below5 = false ∧
    (u.chan feed).state = (if (s.chan feed).state = .off then .insertion else (s.chan feed).state) ∧ u.flt = s.flt) ∧
  (∀ (s : State) (feed voltage : Nat), feed ≤ 1 → voltage < 10200 ∨ 13800 < voltage → (s.chan feed).inWindow = true →
    s.awake = true → s.pwr.mode ≠ .barePoles → ∃ u : State, Gives (exec (.feedWindowExit feed voltage) s) u ∧
      (u.chan feed).inWindow = false ∧
      (u.chan feed).state = (if (s.chan feed).state = .on ∨ (s.chan feed).state = .insertion then .off else (s.chan feed).state) ∧
      u.pwr.mode = s.pwr.mode) ∧
  (∀ (s : State) (feed : Nat), feed ≤ 1 → (s.chan feed).state = .insertion → ∃ u : State,
    Gives (exec (.insertionDelayElapsed feed) s) u ∧ (u.chan feed).state = .ramping ∧ (u.chan feed).timer = false) ∧
  (∀ (s : State) (feed : Nat), feed ≤ 1 → (s.chan feed).state = .on → ∃ u : State,
    Gives (exec (.reverseCurrent feed) s) u ∧ (u.chan feed).reverseOff = true ∧ (u.chan feed).state = .on ∧ (u.chan feed).gate = false) ∧
  (∀ (s : State) (feed : Nat), feed ≤ 1 → ∃ u : State,
    Gives (exec (.reverseRecovery feed) s) u ∧ (u.chan feed).reverseOff = false ∧ (u.chan feed).state = (s.chan feed).state) ∧
  (∀ (s : State) (feed : Nat), feed ≤ 1 → s.pwr.thermTrip = false → ∃ u : State,
    Gives (exec (.feedBelow5v feed) s) u ∧ (u.chan feed).below5 = true ∧
    ((s.chan feed).state = .latchedOff → (s.chan feed).inWindow = false → (u.chan feed).state = .off ∧ (u.chan feed).attempts = 0)) ∧
  (∀ (s : State) (sensor : Nat), ∃ u : State, Gives (exec (.thermalTrip sensor) s) u ∧ u.pwr.thermTrip = true ∧
    (u.chan 0).state = .latchedOff ∧ (u.chan 1).state = .latchedOff) ∧
  (∀ (s : State) (sensor : Nat) (celsius : Int), ∃ u : State, Gives (exec (.temperatureReading sensor celsius) s) u ∧
    u.flt.temps.get sensor none = some celsius ∧ u.pwr.chans = s.pwr.chans) ∧
  (∀ (s : State) (c : Nat), c ≤ 33 → (s.chan c).state = .ramping → ∃ u : State, Gives (exec (.rampComplete c) s) u ∧
    (u.chan c).state = .qualifying ∧ (∀ d, d ≠ c → u.chan d = s.chan d)) ∧
  (∀ (s : State) (c : Nat) (pgin : Bool), c ≤ 33 → (s.chan c).state = .qualifying → (s.chan c).timer = false →
    c < 2 ∨ (s.chan c).pginUse = false ∨ pgin = true → ∃ u : State, Gives (exec (.qualificationDone c pgin) s) u ∧
      (u.chan c).state = .on ∧ (∀ d, d ≠ c → u.chan d = s.chan d)) ∧
  (∀ (s : State) (c : Nat) (pgin : Bool), c ≤ 33 → (s.chan c).state = .qualifying → (s.chan c).timer = true → ∃ u : State,
    Gives (exec (.qualificationDone c pgin) s) u ∧ (u.chan c).state = .qualifying ∧ (u.chan c).withheld = true) ∧
  (∀ (s : State) (c current : Nat), c ≤ 33 → (s.chan c).state = .ramping ∨ (s.chan c).state = .qualifying ∨ (s.chan c).state = .on →
    limitMa c (s.chanSet c).limit < current → ∃ u : State, Gives (exec (.currentOverLimit c current) s) u ∧ (u.chan c).timer = true ∧
      (u.chan c).state = (s.chan c).state) ∧
  (∀ (s : State) (c current : Nat), c ≤ 33 → 100 * current < 95 * limitMa c (s.chanSet c).limit → ∃ u : State,
    Gives (exec (.currentBelowRecovery c current) s) u ∧ (u.chan c).timer = false ∧ (u.chan c).withheld = false) ∧
  (∀ (s : State) (c : Nat), c ≤ 33 → (s.chan c).state = .coolDown → ∃ u : State, Gives (exec (.coolDownElapsed c) s) u ∧
    (u.chan c).state = .ramping ∧ (u.chan c).retries = (s.chan c).retries) ∧
  (∀ (s : State) (c : Nat), c ≤ 33 → (s.chan c).state = .on → ∃ u : State, Gives (exec (.attemptCountReset c) s) u ∧
    (u.chan c).attempts = 0 ∧ (u.chan c).retries = 0 ∧ (u.chan c).state = .on) ∧
  (∀ (s : State) (c : Nat), c ≤ 1 → s.awake = true →
      let after (cause : Nat) (u : State) : Prop :=
        (u.chan c).lastCause = cause ∧ (u.chan c).attempts = min 7 ((s.chan c).attempts + 1) ∧ (u.chan c).timer = false ∧
        (u.chan c).state = (if (s.chan c).retries < (s.chanSet c).retryCount then .coolDown else .latchedOff) ∧ u.chanSet c = s.chanSet c
      ((s.chan c).state = .on → (s.chan c).timer = true → ∃ u : State, Gives (exec (.faultTimerTrip c) s) u ∧ after 3 u) ∧
      ((s.chan c).state = .on → (s.chan c).reverseOff = false → ∀ withEnergy, ∃ u : State, Gives (exec (.fastTrip c withEnergy) s) u ∧ after 1 u) ∧
      ((s.chan c).state = .ramping → (s.chan c).reverseOff = false → ∃ u : State, Gives (exec (.fastTrip c true) s) u ∧ after 4 u) ∧
      ((s.chan c).state = .ramping → ∃ u : State, Gives (exec (.energyBudgetTrip c) s) u ∧ after 2 u) ∧
      ((s.chan c).state = .ramping → (s.chan c).timer = false → ∃ u : State, Gives (exec (.rampTimeout c) s) u ∧ after 5 u))

/-- The events of slots, of measurement and capture, and of the engine-cluster domains and modes (R501 to R514).
Presence, in the states of which the specification says nothing, follows log entries 45, 50 and 51.
Completion, in the conclusion: exec answers a next state, that of the command's own effect, on every state and operands that meet the
hypotheses, for each of stormJibDrained, stormJibWake, barePolesCommandTimeout, wakeGpio, presenceDebounced, presenceLost, pginFall,
measurementWindowEnd, captureRecord, continuousCaptureEnd, sleepIdleExpiry, powerOffIdleExpiry, domainOffDone, domainPacketArrival,
domainWakeDone, domainWakeTimeout. -/
def Obligations.SlotAndDomainEventsTakeEffect : Prop :=
  (∀ (s : State) (slot : Nat), slot ≤ 31 → (s.chan (slot + 2)).enabled = true → s.awake = true → ∃ u : State,
    Gives (exec (.presenceDebounced slot) s) u ∧ (u.chan (slot + 2)).present = true) ∧
  (∀ (s : State) (slot port : Nat), slot ≤ 31 → (s.chan (slot + 2)).enabled = true → s.awake = true →
    s.isDownstream (s.leadPort port) = false → ∃ u : State, Gives (exec (.presenceLost slot port false) s) u ∧
      (u.chan (slot + 2)).present = false ∧ (u.chan (slot + 2)).attempts = 0 ∧
      ((s.chan (slot + 2)).state = .ramping → (u.chan (slot + 2)).state = .off)) ∧
  (∀ (s : State) (slot : Nat), slot ≤ 31 → (s.chan (slot + 2)).enabled = true → ∃ u : State, Gives (exec (.pginFall slot) s) u ∧
    (u.chan (slot + 2)).pgin = false ∧ (u.chan (slot + 2)).state = (s.chan (slot + 2)).state) ∧
  (∀ (s : State) (c vPeak vMin iPeak iMin pMean energy : Nat), c ≤ 33 → ∃ u : State,
    Gives (exec (.measurementWindowEnd c vPeak vMin iPeak iMin pMean energy) s) u ∧
    (u.chan c).energy = min ((s.chan c).energy + energy) (2 ^ 48 - 1) ∧
    ((s.chan c).capture.any = false → (u.chan c).window = [vPeak, vMin, iPeak, iMin, pMean])) ∧
  (∀ (s : State) (c voltage current power cause : Nat), c ≤ 33 → (s.chan c).capture.any = true → ∃ u : State,
    Gives (exec (.captureRecord c voltage current power cause) s) u ∧
    (u.chan c).records.getLast? = some ((s.chan c).record voltage current power cause) ∧
    ((s.chan c).records.length ≤ 4096 → (u.chan c).records.length ≤ 4096) ∧ (u.chan c).sequence = ((s.chan c).sequence + 1) % 256) ∧
  (∀ (s : State) (c : Nat), c ≤ 33 → (s.chan c).state = .on ∨ (s.chan c).state = .latchedOff → ∃ u : State,
    Gives (exec (.continuousCaptureEnd c) s) u ∧ (u.chan c).capture.startUp = false ∧ (u.chan c).capture.recovery = false ∧
    (u.chan c).capture.test = (s.chan c).capture.test) ∧
  (∀ (s : State) (d : Nat), d ≤ 15 → (s.domain d).state = .on → s.pwr.sleepIdle ≠ 0 → s.pinned = false → ∃ u : State,
    Gives (exec (.sleepIdleExpiry d) s) u ∧ (u.domain d).state = .sleep) ∧
  (∀ (s : State) (d : Nat), d ≤ 15 → (s.domain d).state = .on ∨ (s.domain d).state = .sleep → (s.domain d).waking = false →
    s.pwr.powerOffIdle ≠ 0 → s.pinned = false → s.domainIdle d = true → ∃ u : State,
    Gives (exec (.powerOffIdleExpiry d) s) u ∧ (u.domain d).state = .committed) ∧
  (∀ (s : State) (d : Nat), (s.domain d).state = .committed → ∃ u : State, Gives (exec (.domainOffDone d) s) u ∧
    (u.domain d).state = .off ∧ (u.domain d).waking = (s.domain d).wakeAfter) ∧
  (∀ (s : State) (d : Nat) (p : Packet), d ≤ 15 → (s.domain d).state = .sleep ∨ (s.domain d).state = .off → ∃ u : State,
    Gives (exec (.domainPacketArrival d p) s) u ∧ (u.domain d).waking = true ∧ (u.domain d).held = (s.domain d).held ++ [p]) ∧
  (∀ (s : State) (d : Nat) (p : Packet), d ≤ 15 → (s.domain d).state = .on → ∃ u : State,
    Gives (exec (.domainPacketArrival d p) s) u ∧ u.out = .handed p :: s.out ∧ u.pwr = s.pwr) ∧
  (∀ (s : State) (d : Nat), (s.domain d).waking = true → s.hly.progress = [] → ∃ u : State, Gives (exec (.domainWakeDone d) s) u ∧
    (u.domain d).state = .on ∧ (u.domain d).waking = false ∧ (u.domain d).held = [] ∧
    (u.domain d).wakes = min ((s.domain d).wakes + 1) 65535 ∧ u.out = ((s.domain d).held.map Out.handed).reverse ++ s.out) ∧
  (∀ (s : State) (d : Nat), (s.domain d).waking = true → s.pwr.mode ≠ .barePoles → ∃ u : State,
    Gives (exec (.domainWakeTimeout d) s) u ∧ (u.domain d).waking = true ∧ u.pwr.intStatus = setFlag s.pwr.intStatus 5) ∧
  (∀ (s : State) (c : ModeChange), s.pwr.change = some c → c.target = .stormJib → c.draining = true → s.greenHeld = false →
    s.resetting = false → s.flt.swaps = [] → s.upPorts = [] → ∃ u : State, Gives (exec .stormJibDrained s) u ∧
      u.pwr.mode = .stormJib ∧ u.pwr.change = none ∧ u.pwr.modeLeft = s.pwr.mode ∧ u.masthead = some (s.ftu.time / 16 * 16)) ∧
  (∀ (s : State) (cause : Nat), s.pwr.change = none → s.pwr.mode = .stormJib → s.upPorts = [] → ∃ u : State,
    Gives (exec (.stormJibWake cause) s) u ∧ u.pwr.mode = s.pwr.modeLeft ∧ u.masthead = none ∧
    u.ftu.time = max s.ftu.time (s.masthead.getD s.ftu.time)) ∧
  (∀ (s : State) (c : ModeChange) (g : Prog), s.pwr.change = some c → c.target = .barePoles → s.hly.progress = [g] →
    g.wait ≠ .modeChange → ∃ u : State, Gives (exec .barePolesCommandTimeout s) u ∧ u.hly.progress = []) ∧
  (∀ (s : State), s.pwr.wakeGpio ≤ 31 → s.wakeBlocked = false → s.pwr.change = none → s.pwr.mode = .stormJib → s.upPorts = [] →
    ∃ u : State, Gives (exec .wakeGpio s) u ∧ u.pwr.mode = s.pwr.modeLeft)

/-- The commands of ports and lanes (R262, R266, R267, R257): each, where the spec does not refuse it, completes with its effect.
Where the specification gives an output no layout of its own, its bytes are the model's choice, log entry 22.
Completion, in the conclusion: exec answers a next state, that of the command's own effect, on every state and operands that meet the
hypotheses, for each of portModeSet, laneSet, laneSpare, laneTest, laneQuery. -/
def Obligations.PortCommandsComplete : Prop :=
  (∀ (s : State) (h : HlyHdr) (port width maxRate : Nat), s.runs h 0x0201 0 0 [.port port] = true → 2 ≤ port → port ≤ 31 →
    width ≤ 3 → maxRate ≤ 4 → (s.port port).mode = 0 →
    ∃ v : State, Answers (exec (.portModeSet h port 1 width maxRate) s) v h 0x0201 ∧ (v.port port).mode = 1 ∧ (v.port port).width = width ∧
      (v.port port).maxRate = maxRate ∧ (v.port port).train = .detect ∧ (v.port port).trainedRate = none ∧ v.pool = s.pool ∧ v.adm = s.adm) ∧
  (∀ (s : State) (h : HlyHdr) (port mode maxRate : Nat), s.runs h 0x0201 0 0 [.port port] = true → 2 ≤ port → port ≤ 31 →
    2 ≤ mode → mode ≤ 5 → 5 ≤ maxRate → maxRate ≤ 10 → (s.port port).mode = 0 →
    ∃ v : State, Answers (exec (.portModeSet h port mode 3 maxRate) s) v h 0x0201 ∧ (v.port port).mode = mode ∧
      (v.port port).train = .sync ∧ v.pool = s.pool) ∧
  (∀ (s : State) (h : HlyHdr) (port width maxRate : Nat), s.runs h 0x0201 0 0 [.port port] = true → 2 ≤ port → port ≤ 31 →
    width ≤ 4 → maxRate ≤ 11 → (s.linkPorts port).any s.portUsed = false → (s.port port).mode = 0 →
    Answers (exec (.portModeSet h port 0 width maxRate) s) (s.fetchCmd h) h 0x0201) ∧
  (∀ (s : State) (h : HlyHdr) (port width maxRate : Nat), s.runs h 0x0201 0 0 [.port port] = true → 2 ≤ port → port ≤ 31 →
    width ≤ 4 → maxRate ≤ 11 → s.portUsed port = false → (s.port port).mode ≠ 0 → (s.port port).width ≠ 4 → s.linkUp port = false →
    ∃ v : State, Answers (exec (.portModeSet h port 0 width maxRate) s) v h 0x0201 ∧ (v.port port).mode = 0 ∧
      (v.port port).train = .disabled ∧ v.pool = s.pool) ∧
  (∀ (s : State) (h : HlyHdr) (port cm corrThreshold corrWindow marginFloor : Nat) (autoSpare idleEnable : Bool) (idleEntry trainTimeout : Nat),
    s.runs h 0x0202 0 0 [.port port] = true → port ≤ 31 → s.isNative port = true → 1 ≤ corrThreshold → corrThreshold ≤ 65535 →
    1 ≤ corrWindow → corrWindow ≤ 1000 → marginFloor ≤ 500 → 1 ≤ idleEntry → idleEntry ≤ 1000 → 10 ≤ trainTimeout → trainTimeout ≤ 1000 →
    ∃ v : State, Answers (exec (.laneSet h port cm corrThreshold corrWindow marginFloor autoSpare idleEnable idleEntry trainTimeout) s) v h 0x0202 ∧
      (v.port port).corrThreshold = pick cm 0 corrThreshold (s.port port).corrThreshold ∧
      (v.port port).corrWindow = pick cm 1 corrWindow (s.port port).corrWindow ∧
      (v.port port).marginFloor = pick cm 2 marginFloor (s.port port).marginFloor ∧
      (v.port port).autoSpare = pick cm 3 autoSpare (s.port port).autoSpare ∧
      (v.port port).idleEnable = pick cm 4 idleEnable (s.port port).idleEnable ∧
      (v.port port).idleEntry = pick cm 5 idleEntry (s.port port).idleEntry ∧
      (v.port port).trainTimeout = pick cm 6 trainTimeout (s.port port).trainTimeout ∧
      (v.port port).train = (s.port port).train ∧ (∀ p, p ≠ port → v.port p = s.port p) ∧ v.prt.lanes = s.prt.lanes) ∧
  (∀ (s : State) (h : HlyHdr) (port lane : Nat), s.runs h 0x0203 0 0 [.port port] = true → port ≤ 31 →
    lane < 2 ^ (s.port port).trainedWidth.getD 3 → lane ≤ 7 → s.isNative port = true → s.linkUp port = true → (s.port port).busy = false →
    (s.port port).channelOk = true → (s.port port).spareFailed = false → (s.port port).spareFor = none →
    ∃ v : State, Answers (exec (.laneSpare h port 0 lane) s) v h 0x0203 ∧
      (v.port port).subst = some { lane, receiver := true, isReturn := false, codeword := 0 } ∧
      v.out = .laneMsg port (laneMessage 0x01 lane 0 0 0) :: s.out ∧ (v.port port).spareFor = none) ∧
  (∀ (s : State) (h : HlyHdr) (port lane : Nat), s.runs h 0x0203 0 0 [.port port] = true → port ≤ 31 → lane ≤ 7 →
    s.isNative port = true → s.linkUp port = true → (s.port port).busy = false →
    (s.port port).channelOk = true → (s.port port).spareFailed = false → (s.port port).spareFor = some lane →
    ∃ v : State, Answers (exec (.laneSpare h port 1 lane) s) v h 0x0203 ∧
      (v.port port).subst = some { lane, receiver := true, isReturn := true, codeword := 0 }) ∧
  (∀ (s : State) (h : HlyHdr) (lane function pattern userPattern inject symbols every : Nat), s.runs h 0x0204 0 0 [.port (lane / 9)] = true →
    lane ≤ 287 → function ≤ 4 → pattern ≤ 8 → inject ≤ 1 ∨ (10 ≤ inject ∧ inject ≤ 40) → (function = 4 → 1 ≤ symbols ∧ symbols ≤ 16 ∧ 1 ≤ every) →
    function = 0 ∨ (s.port (lane / 9)).mode = 6 ∨ s.freeSpare lane = true →
    ∃ v : State, Answers (exec (.laneTest h lane function pattern userPattern inject symbols every) s) v h 0x0204 ∧
      (v.lane lane).testFn = function ∧ (v.lane lane).pattern = pattern ∧ (v.lane lane).inject = inject ∧ (v.lane lane).prbsLock = false ∧
      (v.lane lane).testAsked = (function ≠ 0 && (s.port (lane / 9)).mode ≠ 6) ∧
      ((function = 2 ∨ function = 3) → (v.lane lane).prbsErr = 0 ∧ (v.lane lane).prbsBits = 0) ∧ (∀ k, k ≠ lane → v.lane k = s.lane k)) ∧
  (∀ (s : State) (h : HlyHdr) (port : Nat), s.runs h 0x0205 0 228 [] = true → port ≤ 31 →
    Answers (exec (.laneQuery h port) s) (s.fetchCmd h) h 0x0205 0 (s.laneImage port) ∧ (s.laneImage port).length = 228)

/-- The detectors of lanes (R242): each sets its flag, and a lane that is not of a native port starts neither a
substitution nor a retrain.
Completion, in the conclusion: exec answers a next state, that of the command's own effect, on every state and operands that meet the
hypotheses, for each of lossOfSignal, lossOfLock, codewordLockLoss, corrWindowEnd, marginReport, wearFlag, trainingSequenceReceive,
trainDetectSignal, equaliseTimeout, lockAchieved, trainTimeout, backoffElapsed. -/
def Obligations.LaneDetectorsTakeEffect : Prop :=
  (∀ (s : State) (lane : Nat), (s.port (lane / 9)).rxIdle = false → s.isNative (lane / 9) = false → ∃ u : State,
    Gives (exec (.lossOfSignal lane) s) u ∧ (u.lane lane).los = true ∧ u.prt.lneStatus = setFlag s.prt.lneStatus 0 ∧
    (∀ k, k ≠ lane → u.lane k = s.lane k) ∧ u.prt.ports = s.prt.ports) ∧
  (∀ (s : State) (lane : Nat), s.isNative (lane / 9) = false → ∃ u : State, Gives (exec (.lossOfLock lane) s) u ∧
    (u.lane lane).locked = false ∧ u.prt.lneStatus = setFlag s.prt.lneStatus 1 ∧ (∀ k, k ≠ lane → u.lane k = s.lane k)) ∧
  (∀ (s : State) (port : Nat), s.linkUp port = true → ∃ u : State,
    Gives (exec (.codewordLockLoss port) s) u ∧ (u.lport port).state = .retrain ∧ (u.port port).train = .sync ∧
    u.prt.intStatus.getLsbD 6 = true) ∧
  (∀ (s : State) (lane corrected : Nat), corrected ≤ (s.lane lane).threshold → ∃ u : State,
    Gives (exec (.corrWindowEnd lane corrected) s) u ∧ (u.lane lane).corrected = min 65535 corrected ∧
    (u.lane lane).threshold = (s.port (lane / 9)).corrThreshold ∧ u.prt.ports = s.prt.ports ∧
    u.prt.lneStatus = s.prt.lneStatus) ∧
  (∀ (s : State) (lane corrected : Nat), (s.lane lane).threshold < corrected → s.linkUp (lane / 9) = true →
    (s.port (lane / 9)).autoSpare = true → s.logicalOf lane < 2 ^ (s.port (lane / 9)).trainedWidth.getD 0 → lane % 9 ≠ 8 →
    (s.lane lane).logical = none →
    (s.port (lane / 9)).subst = none → (s.port (lane / 9)).spareFor = none → (s.port (lane / 9)).spareFailed = false →
    (s.port (lane / 9)).channelOk = true → ∃ u : State, Gives (exec (.corrWindowEnd lane corrected) s) u ∧
      (u.port (lane / 9)).subst = some { lane := lane % 9, receiver := true, isReturn := false, codeword := 0 } ∧
      u.prt.lneStatus = setFlag s.prt.lneStatus 2) ∧
  (∀ (s : State) (lane margin : Nat), (s.port (lane / 9)).train ≠ .equalise → (s.port (lane / 9)).marginFloor ≤ margin → ∃ u : State,
    Gives (exec (.marginReport lane margin) s) u ∧ (u.lane lane).margin = min 511 margin ∧ u.prt.lneStatus = s.prt.lneStatus ∧
    u.prt.ports = s.prt.ports) ∧
  (∀ (s : State) (lane : Nat), s.isNative (lane / 9) = false → ∃ u : State, Gives (exec (.wearFlag lane) s) u ∧
    (u.lane lane).wear = true ∧ u.prt.ports = s.prt.ports) ∧
  (∀ (s : State) (lane : Nat), (s.port (lane / 9)).train = .detect → (s.port (lane / 9)).contained = false → ∃ u : State,
    Gives (exec (.trainDetectSignal lane) s) u ∧ (u.lane lane).los = false ∧ (u.port (lane / 9)).train = .sync) ∧
  (∀ (s : State) (lane : Nat) (q : TrainSeq), s.isNative (lane / 9) = true → seqOk q = true → bitsOf q.toNat 19 16 ≤ 8 →
    (s.port (lane / 9)).contained = false → (s.port (lane / 9)).train = .sync → (s.port (lane / 9)).acks.get (lane % 9) 0 < 15 → ∃ u : State,
    Gives (exec (.trainingSequenceReceive lane q) s) u ∧ (u.lane lane).locked = true ∧ (u.port (lane / 9)).train = .sync ∧
    (u.port (lane / 9)).goodSeqs.get (lane % 9) 0 = (s.port (lane / 9)).goodSeqs.get (lane % 9) 0 + 1) ∧
  (∀ (s : State) (port : Nat), (s.port port).train = .equalise → (s.port port).renegotiated = true → ∃ u : State,
    Gives (exec (.equaliseTimeout port) s) u ∧ (u.port port).train = .lock) ∧
  (∀ (s : State) (port rate width : Nat) (skews : List Nat), (s.port port).train = .lock → (s.port port).agreed = some (rate, width) →
    (s.port port).quick = false → s.pwr.change = none → port ≤ 31 → (s.port port).contained = false → (∀ k ∈ skews, k ≤ 320) → ∃ u : State,
    Gives (exec (.lockAchieved port skews) s) u ∧ (u.port port).train = .ready ∧ (u.port port).trainedRate = some rate ∧
      (u.port port).trainedWidth = some width ∧ (u.port port).skew = ((List.range 9).map fun k => skews.getD k 0).foldl max 0) ∧
  (∀ (s : State) (port rate width k : Nat) (skews : List Nat), (s.port port).train = .lock → (s.port port).agreed = some (rate, width) →
    (s.port port).quick = false → (s.port port).spareFor.isSome = true → k < 2 ^ width → 320 < skews.getD (s.physicalOf port k % 9) 0 →
    ∃ u : State, Gives (exec (.lockAchieved port skews) s) u ∧ (u.port port).train = .negotiate ∧
      s.physicalOf port k % 9 ∈ (u.port port).failedLanes ∧ (u.port port).trainedRate = (s.port port).trainedRate) ∧
  (∀ (s : State) (port : Nat), (s.port port).train = .sync ∨ (s.port port).train = .lock → s.isNative port = true → ∃ u : State,
    Gives (exec (.trainTimeout port) s) u ∧ (u.port port).train = .backoff ∧ (u.port port).backoffs = min 6 ((s.port port).backoffs + 1) ∧
    u.prt.intStatus = setFlag s.prt.intStatus 1) ∧
  (∀ (s : State) (port : Nat), (s.port port).train = .backoff → (s.port port).contained = false → ∃ u : State,
    Gives (exec (.backoffElapsed port) s) u ∧ (u.port port).train = .detect ∧ (u.port port).backoffs = (s.port port).backoffs)

/-- Port idle, live substitution, rate steps and lane tests (R247 to R259): the messages of the lane-management channel and the
events of their exchanges.
Completion, in the conclusion: exec answers a next state, that of the command's own effect, on every state and operands that meet the
hypotheses, for each of rateStepComplete, rateStepTimeout, idleEntryExpiry, fastExit, fastExitLockTimeout, subReq, subAck, subCompareDone,
subDone, subAbort, stepMsg, stepAck, idleEnter, wake, testReq, testAck, viralReceived, prbsCheckerLock, prbsLockLoss. -/
def Obligations.LaneExchangesTakeEffect : Prop :=
  (∀ (s : State) (port : Nat), s.mayIdle port = true → ∃ u : State, Gives (exec (.idleEntryExpiry port) s) u ∧
    (u.port port).txIdle = true ∧ u.out = .laneMsg port (laneMessage 0x07 0 0 0 0) :: s.out) ∧
  (∀ (s : State) (port : Nat), ∃ u : State, Gives (exec (.fastExit port) s) u ∧ (u.port port).txIdle = false ∧
    (∀ p, p ≠ port → u.port p = s.port p)) ∧
  (∀ (s : State) (port : Nat), (s.port port).rxIdle = true → s.linkUp port = true → ∃ u : State,
    Gives (exec (.fastExitLockTimeout port) s) u ∧ (u.port port).rxIdle = false ∧ (u.lport port).state = .retrain) ∧
  (∀ (s : State) (port : Nat) (msg : BitVec 64), msgOk msg = true → s.isNative port = true → ∃ u : State,
    Gives (exec (.idleEnter port msg) s) u ∧ (u.port port).rxIdle = true ∧ u.out = s.out) ∧
  (∀ (s : State) (port : Nat) (msg : BitVec 64), msgOk msg = true → s.isNative port = true → (s.port port).subst = none → ∃ u : State,
    Gives (exec (.subReq port msg) s) u ∧ (u.port port).subState = .bridging ∧
    ((u.port port).subst.map fun b => (b.lane, b.receiver, b.codeword)) = some (msgLane msg, false, ((s.port port).codeword + 64) % 2 ^ 24) ∧
    u.out = .laneMsg port (laneMessage 0x02 (msgLane msg) 0 0 (((s.port port).codeword + 64) % 2 ^ 24)) :: s.out) ∧
  (∀ (s : State) (port : Nat) (msg : BitVec 64) (b : Subst), (s.port port).subst = some b → b.receiver = true → msgOk msg = true →
    ∃ u : State, Gives (exec (.subAck port msg) s) u ∧ (u.port port).subState = .comparing ∧
      (u.port port).subst = some { b with codeword := msgCodeword msg }) ∧
  (∀ (s : State) (port differing : Nat) (b : Subst), (s.port port).subst = some b → b.receiver = true → (s.port port).subState = .comparing →
    (s.port port).stepHeld = none → (s.port port).stepTarget = none → (s.port port).subWait = [] → b.lane ≤ 7 →
    ∃ u : State, Gives (exec (.subCompareDone port differing) s) u ∧ (u.port port).subst = none ∧ (u.port port).subState = .idle ∧
      (differing ≤ 4 → (u.port port).spareFor = (if b.isReturn then none else some b.lane) ∧
        (s.pwr.change = none → u.out = .laneMsg port (laneMessage 0x03 b.lane 0 0 0) :: s.out) ∧
        u.prt.intStatus = setFlag s.prt.intStatus 2 ∧
        (b.isReturn = false → (u.lane (s.physicalOf port b.lane)).retired = true ∧
          (u.lane (s.physicalOf port b.lane)).logical = some 15) ∧
        ∀ j, j < 9 → b.isReturn = true → (s.lane (9 * port + j)).retired = true →
          (∀ i, i < 9 → (s.lane (9 * port + i)).retired = true → i = j) →
          (u.lane (9 * port + j)).retired = false ∧ (u.lane (9 * port + j)).logical = some b.lane) ∧
      (4 < differing → (u.port port).spareFor = (s.port port).spareFor ∧
        (u.port port).spareFailed = ((s.port port).spareFailed || !b.isReturn) ∧
        (s.pwr.change = none → u.out = .laneMsg port (laneMessage 0x04 b.lane 0 0 0) :: s.out))) ∧
  (∀ (s : State) (port : Nat) (msg : BitVec 64) (b : Subst), (s.port port).subst = some b → b.receiver = false → msgOk msg = true →
    (s.port port).stepHeld = none → (s.port port).stepTarget = none → (s.port port).subWait = [] →
    ∃ u : State, Gives (exec (.subDone port msg) s) u ∧ (u.port port).txSpareFor = (if b.isReturn then none else some b.lane) ∧
      (u.port port).subst = none) ∧
  (∀ (s : State) (port : Nat) (msg : BitVec 64) (b : Subst), (s.port port).subst = some b → msgOk msg = true →
    (s.port port).stepHeld = none → (s.port port).stepTarget = none → (s.port port).subWait = [] →
    ∃ u : State, Gives (exec (.subAbort port msg) s) u ∧ (u.port port).spareFailed = ((s.port port).spareFailed || !b.isReturn) ∧
      (u.port port).subst = none ∧ (u.port port).spareFor = (s.port port).spareFor) ∧
  (∀ (s : State) (port : Nat) (msg : BitVec 64), msgOk msg = true → s.linkUp port = true → msgRate msg ≤ 4 → msgWidth msg ≤ 3 →
    (s.port port).subst = none → ∃ u : State, Gives (exec (.stepMsg port msg) s) u ∧ (u.port port).train = .step ∧
      (u.port port).step = some { rate := msgRate msg, width := msgWidth msg, codeword := msgCodeword msg, acked := true, initiator := false } ∧
      u.out = .laneMsg port (laneMessage 0x06 0 (msgRate msg) (msgWidth msg) (msgCodeword msg)) :: s.out) ∧
  (∀ (s : State) (port : Nat) (msg : BitVec 64) (t : RateStep), msgOk msg = true → (s.port port).step = some t → ∃ u : State,
    Gives (exec (.stepAck port msg) s) u ∧ (u.port port).step = some { t with acked := true }) ∧
  (∀ (s : State) (port : Nat) (t : RateStep), (s.port port).step = some t → t.acked = true → s.pwr.change = none →
    (s.port port).preStorm = none → ∃ u : State, Gives (exec (.rateStepComplete port) s) u ∧ (u.port port).trainedRate = some t.rate ∧
      (u.port port).trainedWidth = some t.width ∧ (u.port port).step = none ∧ (u.port port).train = .ready) ∧
  (∀ (s : State) (port : Nat) (t : RateStep), (s.port port).step = some t → (s.lport port).state = .up → ∃ u : State,
    Gives (exec (.rateStepTimeout port) s) u ∧ (u.lport port).state = .retrain ∧ (u.port port).stepTarget = some (t.rate, t.width) ∧
    (u.port port).step = none) ∧
  (∀ (s : State) (port : Nat) (msg : BitVec 64), msgOk msg = true → s.isNative port = true → (s.port port).preStorm = none → ∃ u : State,
    Gives (exec (.wake port msg) s) u ∧ (u.port port).wakeSeen = true ∧ u.out = s.out) ∧
  (∀ (s : State) (port : Nat) (msg : BitVec 64), msgOk msg = true → s.freeSpare (9 * port + 8) = true → ∃ u : State,
    Gives (exec (.testReq port msg) s) u ∧ u.out = .laneMsg port (laneMessage 0x0A 8 0 0 0) :: s.out ∧ u.prt = s.prt) ∧
  (∀ (s : State) (port : Nat) (msg : BitVec 64), msgOk msg = true → ∃ u : State, Gives (exec (.testAck port msg) s) u ∧
    (u.lane (9 * port + 8)).testAsked = false ∧ (u.lane (9 * port + 8)).testFn = (s.lane (9 * port + 8)).testFn) ∧
  (∀ (s : State) (lane : Nat), (s.lane lane).testFn = 2 ∨ (s.lane lane).testFn = 3 → (s.lane lane).testAsked = false → ∃ u : State,
    Gives (exec (.prbsCheckerLock lane) s) u ∧ (u.lane lane).prbsLock = true ∧ (u.lane lane).prbsErr = (s.lane lane).prbsErr) ∧
  (∀ (s : State) (lane : Nat), (s.lane lane).prbsLock = true → ∃ u : State, Gives (exec (.prbsLockLoss lane) s) u ∧
    (u.lane lane).prbsLock = false ∧ (u.lane lane).prbsErr = min ((s.lane lane).prbsErr + 64) (2 ^ 48 - 1) ∧
    u.prt.lneStatus = setFlag s.prt.lneStatus 4) ∧
  (∀ (s : State) (port : Nat), (s.port port).mode = 4 ∨ (s.port port).mode = 5 → ∃ u : State, Gives (exec (.viralReceived port) s) u ∧
    (u.fault 69).sticky = decide ((s.fault 69).sticky = true ∨ 0 < effectiveSeverity (s.severity 69) (.port port)))

/-- The commands of the link layer and of transport (R218, R228 to R232): each, on operands in range, completes with its effect.
Completion, in the conclusion: exec answers a next state, that of the command's own effect, on every state and operands that meet the
hypotheses, for each of linkSet, trnSet, contextPin, faultInject, linkQuery, trnQuery. -/
def Obligations.LinkAndTransportCommandsComplete : Prop :=
  (∀ (s : State) (h : HlyHdr) (port cm linkTimeout replayLimit retrainLimit : Nat) (shares : List Nat),
    s.runs h 0x0301 0 0 [.port port] = true → port ≤ 31 → s.isNative port = true → 1 ≤ linkTimeout → linkTimeout ≤ 256 → 1 ≤ replayLimit →
    replayLimit ≤ 255 → 1 ≤ retrainLimit → retrainLimit ≤ 1000 → (cmBit cm 0 = true → s.portListed port = false) →
    (∀ v, v < 7 → cmBit cm (3 + v) = false) ∨ ((s.lport port).state = .down ∧ (∀ x ∈ s.newShares port cm shares, 66 ≤ x ∧ x ≤ 12288) ∧
      (s.newShares port cm shares).foldl (· + ·) 0 ≤ 12288) →
    ∃ v : State, Answers (exec (.linkSet h port cm linkTimeout replayLimit retrainLimit shares) s) v h 0x0301 ∧
      (v.lport port).timeout = pick cm 0 linkTimeout (s.lport port).timeout ∧
      (v.lport port).replayLimit = pick cm 1 replayLimit (s.lport port).replayLimit ∧
      (v.lport port).retrainLimit = pick cm 2 retrainLimit (s.lport port).retrainLimit ∧ (v.lport port).state = (s.lport port).state ∧
      (v.lport port).replay = (s.lport port).replay ∧ v.prt = s.prt ∧ v.obf = s.obf) ∧
  (∀ (s : State) (h : HlyHdr) (port kind n count : Nat), s.runs h 0x0304 0 0 [.port port] = true → port ≤ 31 → kind ≤ 4 →
    (kind ≠ 0 → 2 ≤ n ∧ n ≤ 65535) → count ≤ 65535 → (1 ≤ kind → kind ≤ 3 → s.isNative port = true) →
    ∃ v : State, Answers (exec (.faultInject h port kind n count) s) v h 0x0304 ∧ (v.lport port).inject.kind = kind ∧
      (kind ≠ 0 → (v.lport port).inject.n = n ∧ (v.lport port).inject.count = count ∧ (v.lport port).inject.done = 0) ∧
      (v.lport port).replay = (s.lport port).replay) ∧
  (∀ (s : State) (h : HlyHdr) (port : Nat), s.runs h 0x0305 0 72 [] = true → port ≤ 31 →
    Answers (exec (.linkQuery h port) s) (s.fetchCmd h) h 0x0305 0 (s.linkImage port) ∧ (s.linkImage port).length = 72) ∧
  (∀ (s : State) (h : HlyHdr) (cm ackDelay nakDelay retryTimeout retryLimit ctxIdle sendWindow : Nat), s.runs h 0x0302 0 0 [] = true →
    1 ≤ ackDelay → ackDelay ≤ 256 → 1 ≤ nakDelay → nakDelay ≤ 16000 → 1 ≤ retryTimeout → retryTimeout ≤ 10000 → 1 ≤ retryLimit →
    retryLimit ≤ 255 → 1 ≤ ctxIdle → ctxIdle ≤ 1000 → 1 ≤ sendWindow → sendWindow ≤ 64 →
    ∃ v : State, Answers (exec (.trnSet h cm ackDelay nakDelay retryTimeout retryLimit ctxIdle sendWindow) s) v h 0x0302 ∧
      v.trn.ackDelay = pick cm 0 ackDelay s.trn.ackDelay ∧ v.trn.nakDelay = pick cm 1 nakDelay s.trn.nakDelay ∧
      v.trn.retryTimeout = pick cm 2 retryTimeout s.trn.retryTimeout ∧ v.trn.retryLimit = pick cm 3 retryLimit s.trn.retryLimit ∧
      v.trn.ctxIdle = pick cm 4 ctxIdle s.trn.ctxIdle ∧ v.trn.sendWindow = pick cm 5 sendWindow s.trn.sendWindow ∧
      v.trn.sends = s.trn.sends ∧ v.trn.recvs = s.trn.recvs) ∧
  (∀ (s : State) (h : HlyHdr) (peer inst cls half : Nat) (pin : Bool), s.runs h 0x0303 0 0 [.inst inst] = true → peer ≤ 65535 → inst ≤ 1023 →
    cls ≤ 1 → half ≤ 1 → pin = false ∨ s.trn.pinned < 8192 → ((s.sendCtx { peer, inst, cls }).all fun c => c.state == .spill) = true →
    s.recvCtx { peer, inst, cls } = none →
    ∃ v : State, Answers (exec (.contextPin h peer inst cls half pin) s) v h 0x0303 ∧
      v.trn.pinWaits { peer, inst, cls } half = pin ∧ v.trn.sends = s.trn.sends ∧ v.trn.recvs = s.trn.recvs) ∧
  (∀ (s : State) (h : HlyHdr) (peer inst cls : Nat) (pin : Bool) (c : SendCtx), s.runs h 0x0303 0 0 [.inst inst] = true → peer ≤ 65535 →
    inst ≤ 1023 → cls ≤ 1 → pin = false ∨ s.trn.pinned < 8192 → s.sendCtx { peer, inst, cls } = some c → c.state ≠ .spill →
    ∃ v : State, Answers (exec (.contextPin h peer inst cls 0 pin) s) v h 0x0303 ∧
      v.sendCtx { peer, inst, cls } = some { c with pinned := pin }) ∧
  (∀ (s : State) (h : HlyHdr) (peer inst cls : Nat) (c : SendCtx), s.runs h 0x0306 0 32 [] = true → peer ≤ 65535 → inst ≤ 1023 →
    cls ≤ 1 → s.sendCtx { peer, inst, cls } = some c →
    Answers (exec (.trnQuery h peer inst cls 0) s) (s.fetchCmd h) h 0x0306 0 (sendImage c) ∧ (sendImage c).length = 32) ∧
  (∀ (s : State) (h : HlyHdr) (peer inst cls : Nat) (c : RecvCtx), s.runs h 0x0306 0 32 [] = true → peer ≤ 65535 → inst ≤ 1023 →
    cls ≤ 1 → s.recvCtx { peer, inst, cls } = some c →
    ∃ n : Nat, Answers (exec (.trnQuery h peer inst cls 1) s) (s.fetchCmd h) h 0x0306 0 (recvImage { c with expectedMsn := n }) ∧
      (recvImage { c with expectedMsn := n }).length = 32)

/-- The events of the link layer (R204 to R215): a good frame in order is accepted and its flits held, a control flit reports
credit, and the timers replay, retrain, take the link down, send the shares and end a drain.
The order in which a CRC takes its bits is the model's choice, log entry 30.
Completion, in the conclusion: exec answers a next state, that of the command's own effect, on every state and operands that meet the
hypotheses, for each of linkFrameReceive, linkControlFlitReceive, replayTimeout, retrainLimitExpiry, linkInitFlitTimer,
portDisableDrainTimeout. -/
def Obligations.LinkEventsTakeEffect : Prop :=
  (∀ (s : State) (p : Nat) (sync : BitVec 16) (head : BitVec 128) (pid : Nat) (bytes : List Nat) (frameCrc : BitVec 32) (lost : Nat) (t : Tag),
    (s.lport p).state = .up → s.awake = true → readTag sync = some t → t.kind = 1 → t.last = true → t.abort = false →
    headTaken head t = true → frameCrc.toNat = crc32 bytes → consumedAtPort (readPkt pid bytes).hdr = false →
    (readPkt pid bytes).hdr.multicast = false →
    (s.linkVl p t.vl).openFrame = none → (s.lport p).rxMap = [] → bitsOf head.toNat 15 0 = (s.lport p).rxExpected →
    ∃ u : State, Gives (exec (.linkFrameReceive p sync head pid bytes frameCrc false lost) s) u ∧
      (u.lport p).rxExpected = ((s.lport p).rxExpected + 1) % 65536 ∧ (u.lport p).rxMap = [] ∧ (u.lport p).sendInit = false ∧
      (u.linkVl p t.vl).held = (s.linkVl p t.vl).held + bitsOf head.toNat 42 36 ∧
      (u.lport p).txNext = (s.lport p).txNext) ∧
  (∀ (s : State) (p : Nat) (sync : BitVec 16) (head : BitVec 128) (pid : Nat) (bytes : List Nat) (frameCrc : BitVec 32) (marked : Bool)
    (lost : Nat) (t : Tag),
    (s.lport p).state = .up → s.awake = true → readTag sync = some t → t.kind = 1 → t.last = true → t.abort = false →
    headTaken head t = true → marked = true ∨ frameCrc.toNat ≠ crc32 bytes → (s.linkVl p t.vl).openFrame = none →
    ∃ u : State, Gives (exec (.linkFrameReceive p sync head pid bytes frameCrc marked lost) s) u ∧
      (u.lport p).rxExpected = (s.lport p).rxExpected ∧ (u.linkVl p t.vl).held = (s.linkVl p t.vl).held ∧ u.obf = s.obf ∧
      (u.port p).uncorr = min ((s.port p).uncorr + lost) (2 ^ 32 - 1)) ∧
  (∀ (s : State) (p : Nat) (flit : BitVec 512) (sync : BitVec 16) (t : Tag), (s.lport p).state ≠ .down → readTag sync = some t →
    t.kind = 2 → flitOk flit = true → bitsOf flit.toNat 3 0 = 0 → (s.port p).draining = false →
    ∃ u : State, Gives (exec (.linkControlFlitReceive p flit sync) s) u ∧ (u.lport p).sendInit = false ∧
      (∀ v, v < 7 → (u.linkVl p v).reported = bitsOf flit.toNat (34 + 14 * v) (21 + 14 * v) ∧
        (u.linkVl p v).limit = (s.linkVl p v).limit ∧ (u.linkVl p v).debited = (s.linkVl p v).debited -
          modSub 16384 (bitsOf flit.toNat (34 + 14 * v) (21 + 14 * v)) (s.linkVl p v).reported)) ∧
  (∀ (s : State) (p : Nat) (flit : BitVec 512) (sync : BitVec 16) (t : Tag), (s.lport p).state = .init → readTag sync = some t →
    t.kind = 2 → flitOk flit = true → bitsOf flit.toNat 3 0 = 1 →
    ∃ u : State, Gives (exec (.linkControlFlitReceive p flit sync) s) u ∧ (u.lport p).state = .up ∧
      (∀ v, v < 7 → (u.linkVl p v).limit = bitsOf flit.toNat (34 + 14 * v) (21 + 14 * v) ∧ (u.linkVl p v).debited = 0)) ∧
  (∀ (s : State) (p : Nat), s.replayTimerRuns p = true → (s.lport p).timeouts + 1 < (s.lport p).limitNow →
    ∃ u : State, Gives (exec (.replayTimeout p) s) u ∧ (u.lport p).state = .replay ∧ (u.lport p).timeouts = (s.lport p).timeouts + 1 ∧
      (u.lport p).toReplay = (s.lport p).replay.map (·.seq) ∧ u.lnk.intStatus = setFlag s.lnk.intStatus 0) ∧
  (∀ (s : State) (p : Nat), s.replayTimerRuns p = true → (s.lport p).limitNow ≤ (s.lport p).timeouts + 1 →
    ∃ u : State, Gives (exec (.replayTimeout p) s) u ∧ (u.lport p).state = .retrain ∧ (u.port p).train = .sync) ∧
  (∀ (s : State) (p : Nat), (s.lport p).state = .retrain → ∃ u : State, Gives (exec (.retrainLimitExpiry p) s) u ∧
    (u.lport p).state = .down ∧ (u.lport p).replay = [] ∧ (u.port p).train = .detect) ∧
  (∀ (s : State) (p : Nat), (s.lport p).sendInit = true → s.flitReady p = false → ∃ u : State,
    Gives (exec (.linkInitFlitTimer p) s) u ∧ (u.lport p).initDue = false ∧ (u.lport p).ackTold = (s.lport p).rxExpected ∧
    u.out = .controlFlit p (controlFlit 1 (s.lport p).rxExpected ((List.range 7).map fun v => (s.linkVl p v).share)) :: s.out) ∧
  (∀ (s : State) (p : Nat), (s.lport p).sendInit = true → s.flitReady p = true → ∃ u : State,
    Gives (exec (.linkInitFlitTimer p) s) u ∧ (u.lport p).initDue = true ∧ u.out = s.out) ∧
  (∀ (s : State) (p : Nat), (s.port p).draining = true → ∃ u : State, Gives (exec (.portDisableDrainTimeout p) s) u ∧
    (u.port p).mode = 0 ∧ (u.port p).train = .disabled ∧ (u.port p).draining = false)

/-- The events of transport contexts (R180, R217 to R225): data in order advances the expected number, openings and closings move
the halves, acknowledgements free packets, and the timers acknowledge, ask again and resend.
Completion, in the conclusion: exec answers a next state, that of the command's own effect, on every state and operands that meet the
hypotheses, for each of transportDataReceive, topenReceive, tcloseReceive, tackReceive, tnakReceive, ackDelayExpiry, nakDelayExpiry,
retryTimeout, ctxIdleExpiry, contextFetchDone, mcAckReceive, flaggedLateSend. -/
def Obligations.TransportEventsTakeEffect : Prop :=
  (∀ (s : State) (p : Packet) (check : BitVec 64) (c : RecvCtx) (ticket : Bool), s.recvCtx (recvKey p.hdr) = some c →
    inStream p.hdr = true → (p.hdr.data = true → check.toNat = pktCheck p) → opcodeReserved p.hdr.opcode = false → p.hdr.flagged = false → c.onDie = true → c.fetchWait = [] → c.map = [] →
    c.held = [] → c.closeAt = none → p.hdr.seq = c.expected →
    ∃ u : State, Gives (exec (.transportDataReceive p check ticket) s) u ∧
      ((u.recvCtx (recvKey p.hdr)).map fun x => (x.expected, x.map)) = some ((c.expected + 1) % 2 ^ 24, [])) ∧
  (∀ (s : State) (p : Packet) (check : BitVec 64) (ticket : Bool), p.hdr.multicast = false → inStream p.hdr = false →
    (p.hdr.data = true → check.toNat = pktCheck p) → opcodeReserved p.hdr.opcode = false → s.noEndpoint p.hdr = false →
    p.hdr.flagged = false → ∃ u : State, Gives (exec (.transportDataReceive p check ticket) s) u ∧ u.out = .handed p :: s.out ∧ u.trn = s.trn) ∧
  (∀ (s : State) (peer inst cls seq sl : Nat), s.recvCtx { peer, inst, cls } = none → s.trn.onDie < 16384 →
    ∃ u : State, Gives (exec (.topenReceive peer inst cls seq sl) s) u ∧
      ((u.recvCtx { peer, inst, cls }).map fun x => (x.expected, x.map)) = some (seq % 2 ^ 24, [])) ∧
  (∀ (s : State) (peer inst cls seq sl : Nat) (c : RecvCtx), s.recvCtx { peer, inst, cls } = some c → c.expected = seq % 2 ^ 24 →
    c.onDie = true → c.pinned = false →
    ∃ u : State, Gives (exec (.tcloseReceive peer inst cls seq sl) s) u ∧ u.recvCtx { peer, inst, cls } = none) ∧
  (∀ (s : State) (peer inst cls seq sl : Nat) (c : RecvCtx), s.recvCtx { peer, inst, cls } = some c → c.onDie = false →
    ∃ u : State, Gives (exec (.tcloseReceive peer inst cls seq sl) s) u ∧
      u.recvCtx { peer, inst, cls } = some { c with fetchWait := c.fetchWait ++ [.tcloseReceive peer inst cls seq sl] }) ∧
  (∀ (s : State) (peer inst cls : Nat) (c : SendCtx), s.sendCtx { peer, inst, cls } = some c → c.onDie = true → c.pinned = false →
    c.state = .opened → c.unacked = [] → c.queue = [] → c.resentIdle = false →
    ∃ u : State, Gives (exec (.ctxIdleExpiry peer inst cls) s) u ∧ ((u.sendCtx { peer, inst, cls }).map (·.state)) = some .closing ∧
      u.out.head? = some (.trnControl 0x83 peer inst cls [c.next])) ∧
  (∀ (s : State) (peer inst cls ack : Nat) (c : SendCtx), s.sendCtx { peer, inst, cls } = some c → c.onDie = true → c.state = .opening →
    c.queue = [] → c.unacked = [] → ∃ u : State, Gives (exec (.tackReceive peer inst cls ack true false false [] 0 0 0) s) u ∧
      ((u.sendCtx { peer, inst, cls }).map (·.state)) = some .opened) ∧
  (∀ (s : State) (peer inst cls ack : Nat) (c : SendCtx) (p : SentPkt), s.sendCtx { peer, inst, cls } = some c → c.onDie = true →
    c.state = .opened → c.queue = [] → c.unacked = [p] → p.op = none → seqBelow ack p.pkt.hdr.seq = true →
    ∃ u : State, Gives (exec (.tackReceive peer inst cls ack false false false [] 0 0 0) s) u ∧
      ((u.sendCtx { peer, inst, cls }).map fun x => (x.unacked, x.resends)) = some ([], 0)) ∧
  (∀ (s : State) (peer inst cls seq reason : Nat) (c : SendCtx), reason ≤ 3 → s.sendCtx { peer, inst, cls } = some c →
    c.onDie = true →
    (c.unacked.any fun p => p.pkt.hdr.seq == seq) = true → c.resends < c.retryLimit →
    ∃ u : State, Gives (exec (.tnakReceive peer inst cls seq true reason) s) u ∧
      ((u.sendCtx { peer, inst, cls }).map fun x => (x.unacked, x.resends)) = some (c.unacked, c.resends + 1)) ∧
  (∀ (s : State) (peer inst cls : Nat) (c : RecvCtx), s.recvCtx { peer, inst, cls } = some c → c.onDie = true → c.sinceAck ≠ 0 →
    ∃ u : State, Gives (exec (.ackDelayExpiry peer inst cls) s) u ∧
      ((u.recvCtx { peer, inst, cls }).map fun x => (x.expected, x.sinceAck)) = some (c.expected, 0)) ∧
  (∀ (s : State) (peer inst cls : Nat) (c : RecvCtx), s.recvCtx { peer, inst, cls } = some c → c.onDie = true → c.map ≠ [] →
    ∃ u : State, Gives (exec (.nakDelayExpiry peer inst cls) s) u ∧
      u.out.head? = some (.trnControl 0x81 peer inst cls [c.expected, 0]) ∧ u.trn.recvs = s.trn.recvs) ∧
  (∀ (s : State) (peer inst cls : Nat) (c : SendCtx), s.sendCtx { peer, inst, cls } = some c → c.onDie = true →
    c.state = .opening → ∃ u : State, Gives (exec (.retryTimeout peer inst cls) s) u ∧
      u.out.head? = some (.trnControl 0x82 peer inst cls [c.next]) ∧ u.trn.sends = s.trn.sends) ∧
  (∀ (s : State) (peer inst cls : Nat) (c : SendCtx), s.sendCtx { peer, inst, cls } = some c → c.onDie = false → c.queue = [] →
    c.fetchWait = [] →
    s.trn.onDie < 16384 → ∃ u : State, Gives (exec (.contextFetchDone peer inst cls 0) s) u ∧
      ((u.sendCtx { peer, inst, cls }).map (·.onDie)) = some true) ∧
  (∀ (s : State) (peer inst cls : Nat) (c : RecvCtx), s.recvCtx { peer, inst, cls } = some c → c.onDie = false → c.fetchWait = [] →
    s.trn.onDie < 16384 → ∃ u : State, Gives (exec (.contextFetchDone peer inst cls 1) s) u ∧
      ((u.recvCtx { peer, inst, cls }).map (·.onDie)) = some true) ∧
  (∀ (s : State) (peer inst cls : Nat) (c : SendCtx) (p : SentPkt), s.sendCtx { peer, inst, cls } = some c → c.queue = [p] →
    p.pkt.hdr.flagged = true → c.unacked = [] → c.ticketsUsed = 0 → c.state = .opened → c.onDie = true → p.policed = true →
    ∃ u : State, Gives (exec (.flaggedLateSend peer inst cls) s) u ∧
      ((u.sendCtx { peer, inst, cls }).map fun x => (x.queue, x.next, x.unacked.length)) = some ([], (c.next + 1) % 2 ^ 24, 1)) ∧
  (∀ (s : State) (port tree srcDevice inst op delivered fenced : Nat) (t : Tree) (o : McOp), s.tree tree = some t → t.ops = [o] →
    o.srcDevice = srcDevice → o.inst = inst → o.op = op → port ∈ o.awaiting → (∃ b ∈ o.awaiting, b ≠ port) →
    ∃ u : State, Gives (exec (.mcAckReceive port tree srcDevice inst op delivered fenced) s) u ∧
      ((u.tree tree).map (·.ops)) = some
        [{ o with awaiting := o.awaiting.filter (· ≠ port), delivered := o.delivered + delivered, fenced := o.fenced + fenced }])

/-- The doorbells of the host queues, the in-band channel and the board channel (R441, R461 to R469).
What waits to be accepted, and in which order, follows log entries 6 and 20.
Completion, in the conclusion: exec answers a next state, that of the command's own effect, on every state and operands that meet the
hypotheses, for each of hlyCommandProducerWrite, hlyReplyConsumerWrite, hlyQueueEnable, hlyQueueDisable, boardChannelRequest,
hlyCmdReceive, hlyReplyReceive, inbandTimeout, reassemblyTimeout, inbandHoldExpiry, mctpControlMessage, managementFirmwareFault. -/
def Obligations.ChannelsOfCommandsTakeEffect : Prop :=
  (∀ (s : State) (q index : Nat), q ≤ 7 → s.awake = true → s.mgc.mgmtReset = false → (s.hq q).enable = true → (s.hq q).error = false →
    ∃ u : State, Gives (exec (.hlyCommandProducerWrite q index) s) u ∧
      (ringUsed index (s.hq q).cmdConsumer ≤ 2 ^ (s.hq q).log2Size → (u.hq q).cmdProducer = index % 65536 ∧ (u.hq q).error = false) ∧
      (2 ^ (s.hq q).log2Size < ringUsed index (s.hq q).cmdConsumer → (u.hq q).cmdProducer = (s.hq q).cmdProducer ∧ (u.hq q).error = true ∧
        u.hly.intStatus = setFlag s.hly.intStatus 0)) ∧
  (∀ (s : State) (q index : Nat), q ≤ 7 → s.awake = true → s.mgc.mgmtReset = false → (s.hq q).enable = true → s.hly.heldReplies = [] →
    ∃ u : State, Gives (exec (.hlyReplyConsumerWrite q index) s) u ∧ (u.hq q).replyConsumer = index % 65536 ∧
      (u.hq q).replyProducer = (s.hq q).replyProducer ∧ u.out = s.out) ∧
  (∀ (s : State) (q : Nat), q ≤ 7 → s.awake = true → (s.hq q).enable = false →
    ∃ u : State, Gives (exec (.hlyQueueEnable q) s) u ∧ (u.hq q).enable = true ∧ (u.hq q).error = false ∧ (u.hq q).cmdProducer = 0 ∧
      (u.hq q).cmdConsumer = 0 ∧ (u.hq q).replyProducer = 0 ∧ (u.hq q).replyConsumer = 0 ∧ (u.hq q).log2Size = (s.hq q).log2Size) ∧
  (∀ (s : State) (q : Nat), q ≤ 7 → s.awake = true →
    ∃ u : State, Gives (exec (.hlyQueueDisable q) s) u ∧ (u.hq q).enable = false ∧ u.hly.progress = s.hly.progress) ∧
  (∀ (s : State) (origin : Origin) (queue seq attempt : Nat) (directed : Bool) (ports : List Nat), s.awake = true → s.rte.valid = true ∨ directed = true →
    ({ serial := origin.serial, queue, seq } : InbandKey) ∉ s.hly.inbandReady → (s.hly.progress.any fun g => srcKey g.src == some ({ serial := origin.serial, queue, seq } : InbandKey)) = false →
    (s.hly.replyCache.find? fun e => e.1 == ({ serial := origin.serial, queue, seq } : InbandKey)) = none →
    ∃ u : State, Gives (exec (.hlyCmdReceive origin queue seq 0 1 attempt directed ports) s) u ∧
      u.hly.inbandReady = s.hly.inbandReady ++ [({ serial := origin.serial, queue, seq } : InbandKey)]) ∧
  (∀ (s : State) (queue seq attempt status result n t m device : Nat) (d : Bool) (ports : List Nat) (dv : Bool) (out : List Nat) (g : Prog),
    s.hly.progress = [g] → g.src = .host queue → g.seq = seq → g.wait = .remote n t d ports m →
    ∃ u : State, Gives (exec (.hlyReplyReceive queue seq 0 1 attempt status result dv device out) s) u ∧ u.hly.progress = []) ∧
  (∀ (s : State) (queue seq n t m : Nat) (d : Bool) (ports : List Nat) (g : Prog), s.hly.progress = [g] → g.src = .host queue → g.seq = seq →
    g.wait = .remote n t d ports m → n < s.hly.inbandRetries → d = false ∨ s.linkUp (ports.getD 0 0) = true →
    ∃ u : State, Gives (exec (.inbandTimeout queue seq) s) u ∧ u.hly.progress = [{ g with wait := .remote (n + 1) t d ports m }] ∧
      u.out = .inbandCommand t d ports queue seq (n + 1) m :: s.out) ∧
  (∀ (s : State) (queue seq n t m : Nat) (d : Bool) (ports : List Nat) (g : Prog), s.hly.progress = [g] → g.src = .host queue → g.seq = seq →
    g.wait = .remote n t d ports m → s.hly.inbandRetries ≤ n →
    ∃ u : State, Gives (exec (.inbandTimeout queue seq) s) u ∧ u.hly.progress = []) ∧
  (∀ (s : State) (serial queue seq : Nat), ∃ u : State, Gives (exec (.reassemblyTimeout serial queue seq) s) u ∧
    (∀ r ∈ u.hly.reassembly, r.key ≠ ({ serial, queue, seq } : InbandKey)) ∧ u.hly.inbandReady = s.hly.inbandReady) ∧
  (∀ (s : State) (serial queue seq : Nat), ∃ u : State, Gives (exec (.inbandHoldExpiry serial queue seq) s) u ∧
    (∀ e ∈ u.hly.replyCache, e.1 ≠ ({ serial, queue, seq } : InbandKey)) ∧ u.hly.inbandReady = s.hly.inbandReady) ∧
  (∀ (s : State) (code len : Nat), s.awake = true → ∃ u : State, Gives (exec (.boardChannelRequest code len) s) u ∧
    (s.boardBusy = false → u.hly.boardReq = some (code, len)) ∧
    (s.boardBusy = true → u.hly.boardReq = s.hly.boardReq ∧ u.out = .board 0x0217 :: s.out)) ∧
  (∀ (s : State) (command : Nat), ∃ u : State, Gives (exec (.mctpControlMessage command) s) u ∧ u.mgc.mctp = s.mgc.mctp + 1 ∧
    u.out = .mctp command :: s.out ∧ u.hly = s.hly) ∧
  (∀ (s : State) (source : CmdSrc) (seq : Nat) (g : Prog), s.hly.progress = [g] → g.src = source → g.seq = seq →
    ∃ u : State, Gives (exec (.managementFirmwareFault source seq) s) u ∧ u.hly.progress = [])

/-- The commands of routing, trees, discovery and device IDs (R160 to R195): each, where the spec does not refuse it, completes with
its effect.
Completion, in the conclusion: exec answers a next state, that of the command's own effect, on every state and operands that meet the
hypotheses, for each of routeWrite, routeEpochAdvance, routeEpochRetire, routePortSet, routePolicySet, contractRouteSet, routeEndpointSet,
treeInstall, treeRemove, treeFence, holdSet, discover, idAssign. -/
def Obligations.RoutingCommandsComplete : Prop :=
  (∀ (s : State) (h : HlyHdr) (tile first : Nat) (m : Nat), tile ≤ 3 → first ≤ 1023 → s.runs h 0x0401 4 0 [] = true →
    s.maskOk 0 m = true → (s.bank s.inactiveBank).state ≠ .old →
    ∃ v : State, Answers (exec (.routeWrite h (2 ^ tile) 0 0 first 1 [m]) s) v h 0x0401 ∧
      (v.routeTables tile s.inactiveBank).group.get first 0 = BitVec.ofNat 32 m ∧ (v.bank s.inactiveBank).state = .written ∧
      (v.bank s.inactiveBank).tag = (s.activeEpoch + 1) % 4 ∧ v.routeTables tile s.activeBank = s.routeTables tile s.activeBank ∧
      v.bank s.activeBank = s.bank s.activeBank) ∧
  (∀ (s : State) (h : HlyHdr) (tile first : Nat) (masks : List Nat), tile ≤ 3 → first ≤ 960 → s.runs h 0x0401 0 0 [] = true →
    (s.bank s.inactiveBank).state ≠ .old →
    ∃ v : State, Answers (exec (.routeWrite h (2 ^ tile) 1 0 first 64 masks) s) v h 0x0401 ∧
      v.routeTables tile s.inactiveBank = s.routeTables tile s.activeBank ∧ (v.bank s.inactiveBank).state = .written) ∧
  (∀ (s : State) (h : HlyHdr), s.runs h 0x0402 0 0 [] = true → (s.bank s.inactiveBank).state = .written →
    ∃ v : State, Answers (exec (.routeEpochAdvance h ((s.activeEpoch + 1) % 4)) s) v h 0x0402 ∧
      (v.bank s.inactiveBank).state = .active ∧ (v.bank s.activeBank).state = .old ∧ v.rte.tables = s.rte.tables) ∧
  (∀ (s : State) (h : HlyHdr), s.runs h 0x0403 0 0 [] = true → (s.bank s.inactiveBank).state = .old → s.oldCount = 0 →
    ∃ v : State, Answers (exec (.routeEpochRetire h) s) v h 0x0403 ∧ (v.bank s.inactiveBank).state = .empty ∧
      v.bank s.activeBank = s.bank s.activeBank) ∧
  (∀ (s : State) (h : HlyHdr) (port kind group member : Nat) (up : Bool), s.runs h 0x0404 0 0 [.port port] = true → port ≤ 31 → kind ≤ 2 →
    group ≤ 1023 → member ≤ 63 → s.isNative port = true →
    ∃ v : State, Answers (exec (.routePortSet h port kind group member up) s) v h 0x0404 ∧ (v.rport port).kind = kind ∧
      (v.rport port).up = up ∧ (v.rport port).group = group ∧ (v.rport port).member = member ∧ (∀ p, p ≠ port → v.rport p = s.rport p)) ∧
  (∀ (s : State) (h : HlyHdr) (sl mode bias : Nat), s.runs h 0x0405 0 0 [] = true → sl ≤ 6 → mode ≤ 2 → bias ≤ 65535 →
    ∃ v : State, Answers (exec (.routePolicySet h sl mode bias) s) v h 0x0405 ∧ v.rte.policies.find sl = some { mode, bias } ∧
      v.rte.tables = s.rte.tables) ∧
  (∀ (s : State) (h : HlyHdr) (contractId mode count : Nat) (groups : List Nat) (c : Contract), s.runs h 0x0406 0 0 [.contract contractId] = true →
    mode ≤ 1 → 1 ≤ count → count ≤ 4 → (∀ g ∈ groups, g ≤ 1023) → s.adm.contracts.find contractId = some c →
    ∃ v : State, Answers (exec (.contractRouteSet h contractId mode count groups) s) v h 0x0406 ∧
      v.adm.contracts.find contractId = some { c with routeMode := mode, routeGroups := groups.take count }) ∧
  (∀ (s : State) (h : HlyHdr) (endpoint destination : Nat), s.runs h 0x0407 0 0 [] = true → 1 ≤ endpoint → endpoint ≤ 15 →
    32 ≤ destination → destination ≤ 35 →
    ∃ v : State, Answers (exec (.routeEndpointSet h endpoint 1 destination) s) v h 0x0407 ∧
      v.rte.endpoints.find endpoint = some (.localOutput destination)) ∧
  (∀ (s : State) (h : HlyHdr) (endpoint destination : Nat), s.runs h 0x0407 0 0 [] = true → 1 ≤ endpoint → endpoint ≤ 15 →
    s.namesHostLink destination = true →
    ∃ v : State, Answers (exec (.routeEndpointSet h endpoint 2 destination) s) v h 0x0407 ∧
      v.rte.endpoints.find endpoint = some (.hostLink destination)) ∧
  (∀ (s : State) (h : HlyHdr) (tree upstream branches : Nat) (delivery : Delivery) (leaves : List Nat),
    s.runs h 0x0408 66 0 [.tree tree] = true → tree ≤ 8191 → upstream ≤ 31 ∨ upstream = 0x3F → sumOf leaves id ≤ 65535 →
    (∀ p ∈ portsOf branches, s.isNative p = true) → s.tree tree = none →
    ∃ v : State, Answers (exec (.treeInstall h tree true upstream branches delivery leaves) s) v h 0x0408 ∧
      ((v.tree tree).map fun t => (t.upstream, t.branches, t.loc, t.localEndpoint, t.fenced, t.ops)) =
        some (upstream, BitVec.ofNat 32 branches, delivery.here, delivery.endpoint, 0, [])) ∧
  (∀ (s : State) (h : HlyHdr) (tree : Nat) (t : Tree), s.runs h 0x0409 0 0 [.tree tree] = true → s.tree tree = some t →
    s.treePending tree = false → ∃ v : State, Answers (exec (.treeRemove h tree) s) v h 0x0409 ∧ v.tree tree = none) ∧
  (∀ (s : State) (h : HlyHdr) (tree : Nat) (t : Tree), s.runs h 0x0409 0 0 [.tree tree] = true → s.tree tree = some t →
    s.treePending tree = true → ∃ v : State, Starts (exec (.treeRemove h tree) s) v h 0x0409 (.treeRemove tree) [.tree tree] ∧
      v.tree tree = some { t with removing := true }) ∧
  (∀ (s : State) (h : HlyHdr) (tree branch : Nat) (t : Tree), s.runs h 0x040A 0 0 [.tree tree] = true → tree ≤ 8191 → branch ≤ 31 →
    s.tree tree = some t → t.ops = [] →
    ∃ v : State, Answers (exec (.treeFence h 0 tree branch) s) v h 0x040A ∧ ((v.tree tree).map fun x => x.isFenced branch) = some true) ∧
  (∀ (s : State) (h : HlyHdr) (quota : Nat), s.runs h 0x040B 0 0 [] = true → quota ≤ 8 →
    ∃ v : State, Answers (exec (.holdSet h quota) s) v h 0x040B ∧ v.rte.quota = quota ∧ v.trn = s.trn) ∧
  (∀ (s : State) (h : HlyHdr), s.runs h 0x040C 0 528 [] = true →
    Answers (exec (.discover h) s) (s.fetchCmd h) h 0x040C 0 s.discoverImage ∧ s.discoverImage.length = 528) ∧
  (∀ (s : State) (h : HlyHdr) (deviceId : Nat) (force : Bool), s.runs h 0x040D 0 0 [] = true → s.rte.valid = false ∨ (force = true ∧
      s.adm.contracts = [] ∧ s.adm.resvs = [] ∧ s.trn.sends = [] ∧ s.trn.recvs = []) →
    ∃ v : State, Answers (exec (.idAssign h deviceId force) s) v h 0x040D ∧ v.rte.deviceId = deviceId % 65536 ∧ v.rte.valid = true)

/-- The commands of admission (R54, R55, R67, R88): each, where no check of R54 refuses it, completes with its effect, and HOP_RESERVE
answers the hop budget.
Completion, in the conclusion: exec answers a next state, that of the command's own effect, on every state and operands that meet the
hypotheses, for each of contractInstall, contractModify, contractRemove, contractQuery, hopReserve, hopRelease, meterSet, portReserveSet. -/
def Obligations.AdmissionCommandsComplete : Prop :=
  (∀ (s : State) (h : HlyHdr) (c : ContractP), s.runs h 0x0501 0 0 [.contract c.contractId] = true → c.sl ≤ 6 → s.contractRates c = true →
    64 ≤ c.maxPacket → c.maxPacket ≤ 4160 → (s.adm.contracts.any fun e => e.2.p.inst == c.inst && e.2.p.sl == c.sl && destMeet e.2.p c) = false →
    1000 ≤ c.bound → c.bound ≤ 10000000 → c.maxPacket ≤ c.burst → c.burst ≤ 16777216 → s.tripFits c.egressPorts = true →
    s.enabled c.inst = true → c.contractId ≤ 16383 → s.adm.contracts.has c.contractId = false →
    s.rateFits c.egressPorts c.committed 0 = true → s.poolFits (portShare c.burst * (portsOf c.egressPorts).length) 0 = true →
    s.contractBudget c + c.remoteBudget ≤ c.bound →
    ∃ v : State, Answers (exec (.contractInstall h c) s) v h 0x0501 ∧
      ((v.adm.contracts.find c.contractId).map fun x => (x.p, x.tc, x.tp, x.hopBudget, x.miss)) =
        some (c, tok c.burst, tok (2 * c.maxPacket), s.contractBudget c, 0) ∧ v.adm.resvs = s.adm.resvs ∧ v.obf = s.obf) ∧
  (∀ (s : State) (h : HlyHdr) (id : Nat) (aware : Bool) (lateThreshold : Nat) (c : Contract), s.runs h 0x0502 0 0 [.contract id] = true →
    s.adm.contracts.find id = some c →
    ∃ v : State, Answers (exec (.contractModify h id 40 0 0 0 aware 0 lateThreshold 0) s) v h 0x0502 ∧
      ((v.adm.contracts.find id).map fun x => (x.p, x.hopBudget, x.miss)) =
        some ({ c.p with aware, lateThreshold }, c.hopBudget, c.miss) ∧ v.adm.resvs = s.adm.resvs) ∧
  (∀ (s : State) (h : HlyHdr) (id : Nat) (c : Contract), s.runs h 0x0503 0 0 [.contract id] = true → s.adm.contracts.find id = some c →
    ∃ v : State, Answers (exec (.contractRemove h id) s) v h 0x0503 ∧ v.adm.contracts.find id = none ∧ v.adm.resvs = s.adm.resvs) ∧
  (∀ (s : State) (h : HlyHdr) (id : Nat) (c : Contract), s.runs h 0x0504 0 68 [.contract id] = true → s.adm.contracts.find id = some c →
    Answers (exec (.contractQuery h id) s) (s.fetchCmd h) h 0x0504 0 (contractImage (c.refilled s.coreTime)) ∧
      (contractImage (c.refilled s.coreTime)).length = 68) ∧
  (∀ (s : State) (h : HlyHdr) (r : ResvP), s.runs h 0x0505 0 0 [.resv r.resvId] = true → r.sl ≤ 6 → s.resvRates r = true →
    64 ≤ r.maxPacket → r.maxPacket ≤ 4160 → r.maxPacket ≤ r.burst → r.burst ≤ 16777216 → s.tripFits r.egressPorts = true →
    r.resvId ≤ 32767 → s.adm.resvs.has r.resvId = false → s.rateFits r.egressPorts r.committed 0 = true →
    s.poolFits (portShare r.burst * (if r.destination then 1 else (portsOf r.egressPorts).length)) 0 = true →
    r.destination = false →
    ∃ v : State, Answers (exec (.hopReserve h r) s) v h 0x0505 (s.resvBudget r % 2 ^ 24) ∧
      ((v.adm.resvs.find r.resvId).map fun x => (x.p, x.hopBudget)) = some (r, s.resvBudget r) ∧ v.adm.contracts = s.adm.contracts) ∧
  (∀ (s : State) (h : HlyHdr) (r : ResvP), s.runs h 0x0505 0 0 [.resv r.resvId] = true → r.sl ≤ 6 → s.resvRates r = true →
    64 ≤ r.maxPacket → r.maxPacket ≤ 4160 → r.maxPacket ≤ r.burst → r.burst ≤ 16777216 → s.tripFits r.egressPorts = true →
    r.resvId ≤ 32767 → s.adm.resvs.has r.resvId = false → s.rateFits r.egressPorts r.committed 0 = true →
    s.poolFits (portShare r.burst) 0 = true → r.destination = true → (∃ d, d < 16 ∧ (s.domain d).state ≠ .on) →
    ∃ v : State, Starts (exec (.hopReserve h r) s) v h 0x0505 (.domainsOn r.resvId (s.resvBudget r % 2 ^ 24)) [.resv r.resvId] ∧
      ((v.adm.resvs.find r.resvId).map (·.p)) = some r) ∧
  (∀ (s : State) (h : HlyHdr) (id : Nat) (r : Resv), s.runs h 0x0506 0 0 [.resv id] = true → s.adm.resvs.find id = some r → r.used = 0 →
    ∃ v : State, Answers (exec (.hopRelease h id) s) v h 0x0506 ∧ v.adm.resvs.find id = none ∧ v.adm.contracts = s.adm.contracts) ∧
  (∀ (s : State) (h : HlyHdr) (id : Nat) (r : Resv), s.runs h 0x0506 0 0 [.resv id] = true → s.adm.resvs.find id = some r → r.used ≠ 0 →
    ∃ v : State, Starts (exec (.hopRelease h id) s) v h 0x0506 (.hopRelease id) [.resv id] ∧
      v.adm.resvs.find id = some { r with releasing := true }) ∧
  (∀ (s : State) (h : HlyHdr) (inst committed peak committedBurst peakBurst : Nat), s.runs h 0x0507 0 0 [.inst inst] = true →
    peak = 0 ∨ committed ≤ peak → 64 ≤ committedBurst → committedBurst ≤ 16777216 → 64 ≤ peakBurst → peakBurst ≤ 16777216 →
    s.enabled inst = true →
    ∃ v : State, Answers (exec (.meterSet h inst committed peak committedBurst peakBurst) s) v h 0x0507 ∧
      (v.adm.meters.get inst {}).committed = committed ∧ (v.adm.meters.get inst {}).peak = peak ∧
      (v.adm.meters.get inst {}).committedBurst = committedBurst ∧ (v.adm.meters.get inst {}).peakBurst = peakBurst ∧
      v.adm.contracts = s.adm.contracts) ∧
  (∀ (s : State) (h : HlyHdr) (port fraction : Nat), s.runs h 0x0508 0 0 [.port port] = true → port ≤ 31 → fraction ≤ 56 →
    64 * s.reservedOn port ≤ fraction * s.judgedMbps port → fraction + 1 + (s.egress port).unresShare ≤ 64 →
    ∃ v : State, Answers (exec (.portReserveSet h port fraction) s) v h 0x0508 ∧ (v.admPort port).fraction = fraction ∧
      v.adm.contracts = s.adm.contracts)

/-- The events of routing and admission (R88, R190 to R192): directed packets, neighbours, drained trees and released reservations.
Completion, in the conclusion: exec answers a next state, that of the command's own effect, on every state and operands that meet the
hypotheses, for each of directedReceive, neighbourReceive, hopReleaseDrained, hopReleaseTimeout, treeDrained. -/
def Obligations.RoutingEventsTakeEffect : Prop :=
  (∀ (s : State) (tree : Nat) (t : Tree), s.tree tree = some t → t.removing = true → s.treePending tree = false →
    ∃ u : State, Gives (exec (.treeDrained tree) s) u ∧ u.tree tree = none) ∧
  (∀ (s : State) (port n : Nat) (ports : RoutePorts) (message : List Nat), s.awake = true → s.forwarding = true → s.linkUp port = true → 1 ≤ n → n ≤ 15 →
    ∃ u : State, ∃ ret : List Nat, Gives (exec (.directedReceive port n n ports message) s) u ∧ ret.length = 15 ∧
      ret[n - 1]? = some port ∧ u.out = .directed 35 n n ports.outPorts ret :: s.out ∧ u.rte = s.rte) ∧
  (∀ (s : State) (port n k : Nat) (ports : RoutePorts) (message : List Nat), s.awake = true → s.forwarding = true → s.linkUp port = true → 1 ≤ k → k < n → n ≤ 15 →
    s.linkUp (ports.outPorts.getD k 0) = true →
    ∃ u : State, ∃ ret : List Nat, Gives (exec (.directedReceive port n k ports message) s) u ∧ ret[k - 1]? = some port ∧
      u.out = .directed (ports.outPorts.getD k 0) n (k + 1) ports.outPorts ret :: s.out) ∧
  (∀ (s : State) (port serial nbr : Nat), s.awake = true → s.forwarding = true → s.linkUp port = true →
    ∃ u : State, Gives (exec (.neighbourReceive port serial nbr) s) u ∧ (u.rport port).nbrValid = true ∧
      (u.rport port).nbrSerial = serial % 2 ^ 64 ∧ (u.rport port).nbrPort = nbr % 32 ∧ (u.rport port).kind = (s.rport port).kind) ∧
  (∀ (s : State) (id : Nat) (r : Resv), s.adm.resvs.find id = some r → r.releasing = true → r.used = 0 →
    ∃ u : State, Gives (exec (.hopReleaseDrained id) s) u ∧ u.adm.resvs.find id = none) ∧
  (∀ (s : State) (id : Nat) (r : Resv), s.adm.resvs.find id = some r → r.releasing = true → r.used ≠ 0 →
    ∃ u : State, Gives (exec (.hopReleaseTimeout id) s) u ∧ u.adm.resvs.find id = none)

/-- The events of fabric time (R69 to R72): exchanges with neighbours, the loss of the parent, the masthead's tick and the pulses.
What a PPS edge does to the trim is a free value, log entry 39.
Completion, in the conclusion: exec answers a next state, that of the command's own effect, on every state and operands that meet the
hypotheses, for each of syncPeriod, ftSyncReqReceive, ftSyncRspReceive, parentReplyLoss, mastheadTimeTick, wakeSyncWindowEnd,
ppsInputEdge, ppsOutputSecond. -/
def Obligations.TimeEventsTakeEffect : Prop :=
  (∀ (s : State), s.forwarding = true → s.ftu.fastExchange = false → s.ftu.exchange < 65536 →
    ∃ u : State, Gives (exec .syncPeriod s) u ∧ u.ftu.exchange = (s.ftu.exchange + s.upPorts.length) % 65536 ∧
      u.out.length = s.out.length + s.upPorts.length ∧ u.ftu.time = s.ftu.time) ∧
  (∀ (s : State) (port x t1 : Nat), s.awake = true → s.forwarding = true → s.linkUp port = true →
    ∃ u : State, Gives (exec (.ftSyncReqReceive port x t1) s) u ∧
      u.out = .oneHop 0xC4 port [x % 65536, s.ftu.depth, s.ftu.time, s.ftu.time] :: s.out ∧ u.ftu = s.ftu) ∧
  (∀ (s : State) (port x depth t2 t3 : Nat), s.awake = true → s.forwarding = true → (s.ftu.ports.get port {}).outstanding = some x →
    ∃ u : State, Gives (exec (.ftSyncRspReceive port x depth t2 t3) s) u ∧ (u.ftu.ports.get port {}).outstanding = none ∧
      (u.ftu.ports.get port {}).delays = (((s.ftu.time : Int) - (s.ftu.ports.get port {}).t1 - ((t3 : Int) - t2)) ::
        (s.ftu.ports.get port {}).delays).take 16 ∧
      (s.isChild = true → s.ftu.parentPort = port → u.ftu.depth = min 63 (depth + 1) ∧
        u.ftu.lastOffset =
          max (-32768) (min 32767 ((((t2 : Int) - (s.ftu.ports.get port {}).t1) - ((s.ftu.time : Int) - t3)).tdiv 2))) ∧
      (s.isChild = false → u.ftu.depth = s.ftu.depth ∧ u.ftu.time = s.ftu.time)) ∧
  (∀ (s : State), s.isChild = true → s.forwarding = true → s.ftu.sync ≠ .unsynchronised →
    ∃ u : State, Gives (exec .parentReplyLoss s) u ∧ u.ftu.sync = .unsynchronised ∧ u.adm.intStatus = setFlag s.adm.intStatus 3) ∧
  (∀ (s : State) (t : Nat), s.masthead = some t →
    ∃ u : State, Gives (exec .mastheadTimeTick s) u ∧ u.masthead = some ((t + (488281 - 98 * s.ftu.depth)) % 2 ^ 64) ∧
      u.ftu.time = s.ftu.time) ∧
  (∀ (s : State), s.pwr.mode ≠ .stormJib → ∃ u : State, Gives (exec .wakeSyncWindowEnd s) u ∧ u.ftu.fastExchange = false ∧
    u.adm.stormSuspend = s.adm.stormSuspend ∧ u.ftu.sync ≠ .holdover) ∧
  (∀ (s : State), s.ftu.grandmaster = true → s.ftu.ppsIn = true → ∃ u : State, Gives (exec .ppsInputEdge s) u ∧
    u.ftu.ppsLocked = true ∧ -1 / 1000 ≤ u.ftu.trim ∧ u.ftu.trim ≤ 1 / 1000 ∧ u.ftu.time = s.ftu.time) ∧
  (∀ (s : State), s.ftu.ppsOut = true → s.mgc.ppsSel = 0 → s.pwr.mode ≠ .barePoles → ∃ u : State, Gives (exec .ppsOutputSecond s) u ∧
    u.out = .pps :: s.out ∧ u.ftu = s.ftu)

/-- The commands of the output buffer, of egress and of the arbiters (R121, R148): each, where the spec does not refuse it, completes
with its effect.
Where the specification gives an output no layout of its own, its bytes are the model's choice, log entry 22.
The numbers of mask bits are read from R443, log entry 25.
Completion, in the conclusion: exec answers a next state, that of the command's own effect, on every state and operands that meet the
hypotheses, for each of bufferAccountSet, bufferPoolSet, auditSet, bufferReclaim, bufferQuery, egsLeafBind, egsLeafUnbind, egsNodeSet,
egsQuery, arbSet, arbQuery. -/
def Obligations.SwitchCommandsComplete : Prop :=
  (∀ (s : State) (h : HlyHdr) (account minReserve alphaExp mark : Nat), s.runs h 0x0601 0 0 [] = true → account ≤ 235 → 34 ≤ minReserve →
    minReserve ≤ 4096 → alphaExp ≤ 7 → alphaExp ≠ 4 → mark ≤ 1048575 → s.reserveAfter [account] minReserve + s.obf.poolSize ≤ 1048576 →
    s.reserveFits [account] minReserve = true →
    ∃ v : State, Answers (exec (.bufferAccountSet h account minReserve alphaExp mark) s) v h 0x0601 ∧
      (v.account account).minReserve = minReserve ∧ (v.account account).alphaExp = signed3 alphaExp ∧
      (v.account account).markThreshold = mark ∧ (v.account account).fromReserve = (s.account account).fromReserve ∧
      (∀ a, a ≠ account → v.account a = s.account a) ∧ v.obf.pkts = s.obf.pkts) ∧
  (∀ (s : State) (h : HlyHdr) (minReserve alphaExp mark : Nat), s.runs h 0x0601 0 0 [] = true → 34 ≤ minReserve →
    minReserve ≤ 4096 → alphaExp ≤ 7 → alphaExp ≠ 4 → mark ≤ 1048575 → s.reserveAfter (List.range 236) minReserve + s.obf.poolSize ≤ 1048576 →
    s.reserveFits (List.range 236) minReserve = true →
    ∃ v : State, Answers (exec (.bufferAccountSet h 0x3FF minReserve alphaExp mark) s) v h 0x0601 ∧
      (∀ a, a < 236 → (v.account a).minReserve = minReserve ∧ (v.account a).markThreshold = mark) ∧ v.obf.pkts = s.obf.pkts) ∧
  (∀ (s : State) (h : HlyHdr) (pool : Nat), s.runs h 0x0602 0 0 [] = true → pool ≤ 1048575 → s.obf.sumReserve + pool ≤ 1048576 →
    pool ≤ s.obf.poolSize + s.sharedFree → s.poolReserved ≤ pool →
    ∃ v : State, Answers (exec (.bufferPoolSet h pool) s) v h 0x0602 ∧ v.obf.poolSize = pool ∧ v.obf.accounts = s.obf.accounts) ∧
  (∀ (s : State) (h : HlyHdr) (enable : Bool) (ms : Nat), s.runs h 0x0603 0 0 [] = true → 1 ≤ ms → ms ≤ 50 →
    ∃ v : State, Answers (exec (.auditSet h enable ms) s) v h 0x0603 ∧ v.obf.audit.enabled = enable ∧ v.obf.audit.nextResidencyMs = ms ∧
      v.obf.cells = s.obf.cells) ∧
  (∀ (s : State) (h : HlyHdr) (queue : Nat), s.runs h 0x0604 0 0 [] = true → s.obf.audit.passDone = true →
    ∃ v : State, Answers (exec (.bufferReclaim h 2 queue) s) v h 0x0604 (packBits [(s.obf.unlisted.length, 21), (0, 21)]) ∧
      v.obf.unlisted = [] ∧ v.obf.cells = s.obf.cells ∧ v.obf.intStatus = setFlag s.obf.intStatus 3) ∧
  (∀ (s : State) (h : HlyHdr) (queue : Nat) (c : Nat) (t : CellTag), s.runs h 0x0604 0 0 [] = true → s.obf.audit.passDone = true →
    s.obf.audit.orphans = [(c, t)] → s.obf.cells.find c = some t →
    ∃ v : State, Answers (exec (.bufferReclaim h 0 queue) s) v h 0x0604 1 ∧ v.obf.cells.find c = none ∧ v.obf.pkts = s.obf.pkts) ∧
  (∀ (s : State) (h : HlyHdr) (queue : Nat), s.runs h 0x0604 0 0 [] = true → s.obf.audit.passDone = true → queue < 0xFFFF → s.obf.pkts = [] →
    ∃ v : State, Answers (exec (.bufferReclaim h 1 queue) s) v h 0x0604 0 ∧ v.obf.cells = s.obf.cells) ∧
  (∀ (s : State) (h : HlyHdr) (account : Nat), account ≤ 235 → s.runs h 0x0605 0 20 [] = true →
    Answers (exec (.bufferQuery h account) s) (s.fetchCmd h) h 0x0605 0 (s.bufferImage account) ∧ (s.bufferImage account).length = 20) ∧
  (∀ (s : State) (h : HlyHdr), s.runs h 0x0605 0 16 [] = true →
    Answers (exec (.bufferQuery h 0x3FF) s) (s.fetchCmd h) h 0x0605 0 (s.bufferImage 0x3FF) ∧ (s.bufferImage 0x3FF).length = 16) ∧
  (∀ (s : State) (h : HlyHdr) (output sl inst queue weight rate burst : Nat) (tokenReset : Bool), s.runs h 0x0606 0 0 [.inst inst, .leaf queue] = true →
    output ≤ 35 → sl ≤ 6 → inst ≤ 1023 → 0x0800 ≤ queue → queue ≤ 0xFFFE → 1 ≤ weight → weight ≤ 255 → rate ≤ 3200000 → 4224 ≤ burst →
    burst ≤ 16777216 → s.egs.leaves.has queue = false →
    (s.egs.leaves.any fun l => l.2.output == output && l.2.sl == sl && l.2.inst == inst) = false → s.enabled inst = true →
    ∃ v : State, Answers (exec (.egsLeafBind h output sl inst queue weight rate burst tokenReset) s) v h 0x0606 ∧
      ((v.egs.leaves.find queue).map fun l => (l.output, l.sl, l.inst, l.child.weight, l.child.shaper.rate, l.child.shaper.burst, l.unbinding)) =
        some (output, sl, inst, weight, rate, burst, false)) ∧
  (∀ (s : State) (h : HlyHdr) (queue : Nat) (l : Leaf), s.runs h 0x0607 0 0 [.leaf queue] = true → 0x0800 ≤ queue → queue ≤ 0xFFFE →
    s.egs.leaves.find queue = some l → s.queueBusy queue = false →
    ∃ v : State, Answers (exec (.egsLeafUnbind h queue) s) v h 0x0607 ∧ v.egs.leaves.find queue = none) ∧
  (∀ (s : State) (h : HlyHdr) (queue : Nat) (l : Leaf), s.runs h 0x0607 0 0 [.leaf queue] = true → 0x0800 ≤ queue → queue ≤ 0xFFFE →
    s.egs.leaves.find queue = some l → s.queueBusy queue = true →
    ∃ v : State, Starts (exec (.egsLeafUnbind h queue) s) v h 0x0607 (.leafUnbind queue) [.leaf queue] ∧
      v.egs.leaves.find queue = some { l with unbinding := true }) ∧
  (∀ (s : State) (h : HlyHdr) (target output sl queue cm weight rate burst : Nat) (tokenReset : Bool), target = 1 ∨ target = 2 →
    s.runs h 0x0608 0 0 [] = true → output ≤ 35 → sl ≤ 6 → 1 ≤ weight → weight ≤ 255 → rate ≤ 3200000 → 4224 ≤ burst → burst ≤ 16777216 →
    ∃ v : State, Answers (exec (.egsNodeSet h target output sl queue cm weight rate burst tokenReset) s) v h 0x0608 ∧
      (target = 1 → (v.egs.svc.get (7 * output + sl) {}).weight = pick cm 0 weight (s.egs.svc.get (7 * output + sl) {}).weight ∧
        (v.egs.svc.get (7 * output + sl) {}).shaper.rate = pick cm 1 rate (s.egs.svc.get (7 * output + sl) {}).shaper.rate) ∧
      (target = 2 → (v.egs.port.get output {}).weight = pick cm 0 weight (s.egs.port.get output {}).weight ∧
        (v.egs.port.get output {}).shaper.burst = pick cm 2 burst (s.egs.port.get output {}).shaper.burst) ∧ v.obf = s.obf) ∧
  (∀ (s : State) (h : HlyHdr) (output sl queue cm weight rate burst : Nat) (tokenReset : Bool) (l : Leaf), s.runs h 0x0608 0 0 [.leaf queue] = true →
    output ≤ 35 → 0x0800 ≤ queue → queue ≤ 0xFFFE → s.egs.leaves.find queue = some l → 1 ≤ weight → weight ≤ 255 → rate ≤ 3200000 → 4224 ≤ burst →
    burst ≤ 16777216 →
    ∃ v : State, Answers (exec (.egsNodeSet h 0 output sl queue cm weight rate burst tokenReset) s) v h 0x0608 ∧
      ((v.egs.leaves.find queue).map fun x => (x.output, x.child.weight)) = some (l.output, pick cm 0 weight l.child.weight)) ∧
  (∀ (s : State) (h : HlyHdr) (output sl queue cm weight rate burst : Nat) (tokenReset : Bool), s.runs h 0x0608 0 0 [] = true → output ≤ 35 →
    cmBit cm 1 = true → rate ≤ 8 → (output < 32 → (s.admPort output).fraction + 1 + rate ≤ 64) →
    ∃ v : State, Answers (exec (.egsNodeSet h 3 output sl queue cm weight rate burst tokenReset) s) v h 0x0608 ∧
      (v.egress output).unresShare = rate ∧ v.adm = s.adm) ∧
  (∀ (s : State) (h : HlyHdr) (target output sl queue : Nat), s.runs h 0x0609 0 28 [] = true → target ≤ 3 → output ≤ 35 → sl ≤ 6 →
    (target = 0 → 0x0800 ≤ queue ∧ queue ≤ 0xFFFE ∧ s.egs.leaves.has queue = true) →
    ∃ out : List Nat, Answers (exec (.egsQuery h target output sl queue) s) (s.fetchCmd h) h 0x0609 0 out ∧ out.length = 28 ∧
      (target = 2 → out = nodeImage (s.egs.port.get output {}) s.coreTime
        (s.cellsWhere fun b => b.output == output && isYellow b.pkt.hdr) (s.resumeHeld output))) ∧
  (∀ (s : State) (h : HlyHdr) (resource index cm : Nat) (compat : Bool) (thr requester weight : Nat), s.runs h 0x060A 0 0 [] = true →
    resource ≤ 3 → index < arbCount resource → 10 ≤ thr → thr ≤ 24 → 1 ≤ weight → weight ≤ 255 → requester < arbRequesters resource →
    (resource = 0 → cmBit cm 0 = true → compat = true → (s.arbiter 0 index).compat = true ∨ s.controlFigure index = false) →
    ∃ v : State, Answers (exec (.arbSet h resource index cm compat thr requester weight) s) v h 0x060A ∧
      (v.arbiter resource index).compat = pick cm 0 compat (s.arbiter resource index).compat ∧
      (v.arbiter resource index).thresholdExp = pick cm 1 thr (s.arbiter resource index).thresholdExp ∧
      (cmBit cm 2 = true → (v.arbiter resource index).weights.get requester 16 = weight) ∧
      (v.arbiter resource index).starved = (s.arbiter resource index).starved) ∧
  (∀ (s : State) (h : HlyHdr) (resource index : Nat), s.runs h 0x060B 0 32 [] = true → resource ≤ 3 → index < arbCount resource →
    Answers (exec (.arbQuery h resource index) s) (s.fetchCmd h) h 0x060B 0 (s.arbImage resource index) ∧
      (s.arbImage resource index).length = 32)

/-- A packet's way through the switch (R64, R97 to R141, R163, R168): it enters at its ingress, is routed, admitted to the buffer,
crosses, is selected at its output, and may be cut and resumed there; and the events of the audit and of the arbiters.
Which free entry is taken, where one is, is the model's choice, log entry 27.
Completion, in the conclusion: exec answers a next state, that of the command's own effect, on every state and operands that meet the
hypotheses, for each of packetIngress, routeRetry, bufferAdmission, egressSelect, framePreempt, suspendedFrameResume, edgeWaitRelease,
leafDrained, auditPassEnd, arbStarveThreshold, centralSchedulerMatching. -/
def Obligations.SwitchEventsTakeEffect : Prop :=
  (∀ (s : State) (input length rxVl : Nat) (p : Packet) (pre first : Bool), s.awake = true → s.forwarding = true → input < 32 →
    s.isHostLink input = false → s.rte.valid = true → consumedAtPort p.hdr = false → p.hdr.multicast = false → p.hdr.colour = 0 → p.hdr.sl ≤ 6 →
    p.hdr.destDevice = s.rte.deviceId →
    ∃ u : State, ∃ w : WaitPkt, Gives (exec (.packetIngress input p length rxVl pre first) s) u ∧ u.obf.waiting = s.obf.waiting ++ [w] ∧
      w.pkt = p ∧ w.len = length ∧ w.input = input ∧ w.outs = [(s.endpointOut p.hdr.destEndpoint, rxVl)] ∧ u.obf.pkts = s.obf.pkts) ∧
  (∀ (s : State) (input length rxVl : Nat) (p : Packet) (pre first : Bool), s.forwarding = true → 32 ≤ input → input ≤ 35 → p.hdr.sl = 7 →
    p.hdr.inst = 0 → p.hdr.multicast = false →
    ∃ u : State, ∃ w : WaitPkt, Gives (exec (.packetIngress input p length rxVl pre first) s) u ∧ u.obf.waiting = s.obf.waiting ++ [w] ∧
      w.pkt.hdr.colour = 3 ∧ w.pkt.pid = p.pid ∧ w.fromLocal = true) ∧
  (∀ (s : State) (w : WaitPkt), s.forwarding = true → s.rte.valid = true → s.obf.waiting = [w] → w.outs = [] → w.edgeWait = false → w.built = false →
    w.pkt.hdr.multicast = false → w.pkt.hdr.destDevice = s.rte.deviceId →
    ∃ u : State, ∃ o : Nat × Nat, Gives (exec (.routeRetry w.pkt.pid) s) u ∧ u.obf.waiting = [{ w with outs := [o] }] ∧
      o.1 = s.endpointOut w.pkt.hdr.destEndpoint) ∧
  (∀ (s : State) (w : WaitPkt) (o vl : Nat), s.forwarding = true → s.obf.waiting = [w] → w.outs = [(o, vl)] → w.edgeWait = false → w.built = false →
    w.pkt.hdr.multicast = false → isGreen w.pkt.hdr = false → cellsOf w.len ≤ (s.account (accountOf o vl)).reserveFree →
    ∃ u : State, ∃ b : BufPkt, Gives (exec (.bufferAdmission w.pkt.pid) s) u ∧ u.obf.waiting = [] ∧ u.obf.pkts = s.obf.pkts ++ [b] ∧
      b.pkt = w.pkt ∧ b.output = o ∧ b.vl = vl ∧ b.takeM = cellsOf w.len ∧ b.takeS = 0 ∧
      (u.account (accountOf o vl)).fromReserve = (s.account (accountOf o vl)).fromReserve + cellsOf w.len) ∧
  (∀ (s : State) (o : Nat) (b : BufPkt), s.forwarding = true → o ≤ 35 → (s.egress o).sending = none → (s.egress o).resume = [] →
    (s.lport o).toReplay = [] → (s.lport o).replaying = none → (s.lport o).replayCut = none → (s.lport o).inject = {} → (s.refillEgress o).mgmtHead o = some b → b.output = o →
    ∃ u : State, Gives (exec (.egressSelect o) s) u ∧ (u.egress o).sending = some { pid := b.pkt.pid, progress := 0 }) ∧
  (∀ (s : State) (o progress : Nat) (f : Sending) (b c : BufPkt) (t : State), s.forwarding = true → o ≤ 35 → (s.egress o).sending = some f →
    s.bufPkt c.pkt.pid o = some c → s.bufPkt f.pid o = some b → c.output = o → s.slotTaken o b.vl f.pid = false →
    progress < flitsOf b.len → f.progress ≤ progress →
    ((s.refillEgress o).holdFrame o b progress).cutter o b.pkt.hdr = some (c, t) →
    ∃ u : State, Gives (exec (.framePreempt o c.pkt.pid progress) s) u ∧ (u.egress o).sending = some { pid := c.pkt.pid, progress := 0 } ∧
      (((u.egress o).resume.find b.vl).map fun r => (r.pid, r.progress, r.stalled)) = some (f.pid, progress, false)) ∧
  (∀ (s : State) (o vl : Nat) (r : ResumeSlot), s.forwarding = true → (s.egress o).resume.find vl = some r → (s.egress o).sending = none →
    s.canResume o r = true →
    ∃ u : State, Gives (exec (.suspendedFrameResume o vl) s) u ∧ (u.egress o).sending = some { pid := r.pid, progress := r.progress } ∧
      ((u.egress o).resume.find vl).map (·.resumed) = some true) ∧
  (∀ (s : State) (b : BufPkt), s.forwarding = true → s.obf.pkts = [b] → b.written = 0 → 2 ≤ b.cells.length → s.csc.a.pairs = [] →
    s.csc.b.pairs = [] → s.csc.come = [] → s.csc.back = [] →
    ∃ u : State, Gives (exec (.centralSchedulerMatching [b.pkt.pid] []) s) u ∧ u.obf.pkts = [{ b with written := 1 }] ∧
      u.csc.a.pairs = [{ input := b.input, output := b.output, pid := b.pkt.pid }]) ∧
  (∀ (s : State) (w : WaitPkt), s.obf.waiting = [w] → w.edgeWait = true → w.pkt.hdr.sl ≤ 6 → w.pkt.hdr.multicast = false → s.contractFor w.pkt.hdr = none →
    (s.adm.meters.get w.pkt.hdr.inst {}).peak = 0 →
    ∃ u : State, ∃ x : WaitPkt, Gives (exec (.edgeWaitRelease w.pkt.pid) s) u ∧ u.obf.waiting = [x] ∧ x.edgeWait = false ∧
      x.pkt.pid = w.pkt.pid ∧ x.pkt.hdr.colour = 0) ∧
  (∀ (s : State), s.obf.audit.enabled = true → ∃ u : State, Gives (exec .auditPassEnd s) u ∧ u.obf.audit.passDone = true ∧
    u.obf.audit.passCount = (s.obf.audit.passCount + 1) % 65536 ∧ u.obf.audit.residencyMs = s.obf.audit.nextResidencyMs ∧
    u.obf.pkts = s.obf.pkts) ∧
  (∀ (s : State) (queue : Nat) (l : Leaf), s.egs.leaves.find queue = some l → l.unbinding = true → s.queueBusy queue = false →
    ∃ u : State, Gives (exec (.leafDrained queue) s) u ∧ u.egs.leaves.find queue = none ∧ u.egs.intStatus = setFlag s.egs.intStatus 3) ∧
  (∀ (s : State) (resource index requester : Nat) (now : Bool), resource ≤ 3 → index < arbCount resource → requester < arbRequesters resource →
    ∃ u : State, Gives (exec (.arbStarveThreshold resource index requester now) s) u ∧
      (u.arbiter resource index).starved = setFlag (s.arbiter resource index).starved requester ∧
      (u.arbiter resource index).owner = (if now then (if resource = 0 then none else some requester) else (s.arbiter resource index).owner) ∧
      (now = true → (u.arbiter resource index).waits.get requester 0 = 0)) ∧
  (∀ (s : State) (o progress n : Nat) (c : BufPkt) (t : State), s.forwarding = true → o ≤ 35 → (s.egress o).sending = none →
    (s.lport o).replaying = none → s.bufPkt c.pkt.pid o = some c → c.output = o → (s.egress o).backSending = some n → 64 * progress < n →
    ((s.refillEgress o).upEgress o fun e => { e with
      background := (n - 64 * progress) :: e.background, backSending := none,
      sliceTokens := e.sliceTokens + (3200000 * (n - 64 * progress) : Nat) }).cutter o { data := true } = some (c, t) →
    ∃ u : State, Gives (exec (.framePreempt o c.pkt.pid progress) s) u ∧ (u.egress o).sending = some { pid := c.pkt.pid, progress := 0 } ∧
      (u.egress o).backSending = none ∧ (u.egress o).background = (n - 64 * progress) :: (s.egress o).background) ∧
  (∀ (s : State) (o progress : Nat) (f : ReplayFrame) (c : BufPkt) (t : State), s.forwarding = true → o ≤ 31 → (s.egress o).sending = none →
    s.bufPkt c.pkt.pid o = some c → (s.lport o).replaying = some f.seq → (s.lport o).replay.find? (fun x => x.seq == f.seq) = some f →
    c.output = o → s.slotHeld o f.vl = false → progress < f.flits →
    ((s.refillEgress o).holdReplay o f progress).cutter o f.pkt.hdr = some (c, t) →
    ∃ u : State, Gives (exec (.framePreempt o c.pkt.pid progress) s) u ∧ (u.egress o).sending = some { pid := c.pkt.pid, progress := 0 } ∧
      (u.lport o).replayCut = some (f.seq, progress))

/-- The commands of the memory and device pools (R276 to R295): each, where the spec does not refuse it, completes or begins with its
effect.
Where the specification gives an output no layout of its own, its bytes are the model's choice, log entry 22.
Completion, in the conclusion: exec answers a next state, that of the command's own effect, on every state and operands that meet the
hypotheses, for each of poolLinkSet, extentBind, extentUnbind, importMap, extentZero, extentQuery, functionBind, functionUnbind,
slotRemove, hbmPartitionSet. -/
def Obligations.PoolCommandsComplete : Prop :=
  (∀ (s : State) (h : HlyHdr) (link memInst releaseTimeout : Nat), s.runs h 0x0701 0 0 [] = true → memInst ≤ 1023 → releaseTimeout ≤ 60 →
    s.notFree memInst = true → s.namesHostLink link = true → (s.port link).mode = 4 → s.pool.slots = [] →
    ∃ v : State, Answers (exec (.poolLinkSet h link memInst releaseTimeout) s) v h 0x0701 ∧ (v.hostLink link).memInst = some memInst ∧
      (v.hostLink link).releaseTimeout = releaseTimeout ∧ (v.hostLink link).windowLog2 = (s.hostLink link).windowLog2 ∧
      (∀ l, l ≠ link → v.hostLink l = s.hostLink l) ∧ v.pool.mem = s.pool.mem) ∧
  (∀ (s : State) (h : HlyHdr) (b : BindP), b.use = 0 → s.runs h 0x0702 0 0 ((handleRange b.handle b.count).map .extent) = true →
    bindBad b = false → s.bindTaken b = false → s.slotCount + b.count ≤ 524288 → s.enabled b.inst = true →
    (∀ k, k < b.count → (s.extent (b.handle + k)).state = .freeClean) →
    ∃ v : State, Answers (exec (.extentBind h b) s) v h 0x0702 ∧ v.pool.mem = s.pool.mem ∧
      (∀ k, k < b.count → (v.extent (b.handle + k)).state = .bound ∧ (v.extent (b.handle + k)).owner = .inst b.inst ∧
        (v.extent (b.handle + k)).slots = [(b.inst, b.firstSlot + k)] ∧ v.slotOf b.inst (b.firstSlot + k) = some (.local (b.handle + k)))) ∧
  (∀ (s : State) (h : HlyHdr) (b : BindP), b.use = 0 → b.keep = false → s.runs h 0x0702 0 0 ((handleRange b.handle b.count).map .extent) = true →
    bindBad b = false → s.bindTaken b = false → s.slotCount + b.count ≤ 524288 → s.enabled b.inst = true →
    (∀ k, k < b.count → (s.extent (b.handle + k)).state = .freeDirty) →
    ∃ v : State, Starts (exec (.extentBind h b) s) v h 0x0702 (.bind (handleRange b.handle b.count))
        ((handleRange b.handle b.count).map .extent) ∧ v.pool.slots = s.pool.slots ∧
      (∀ k, k < b.count → (v.extent (b.handle + k)).state = .zeroing ∧ (v.extent (b.handle + k)).slots = (s.extent (b.handle + k)).slots)) ∧
  (∀ (s : State) (h : HlyHdr) (b : BindP), b.use = 2 → b.count = 1 → s.runs h 0x0702 (4 * b.access.length) 0 [.extent b.handle] = true →
    b.expWindow ≤ 4095 → bindBad b = false → s.bindTaken b = false → (s.extent b.handle).state = .freeClean → s.pool.windows.find b.expWindow = none →
    ∃ v : State, Answers (exec (.extentBind h b) s) v h 0x0702 ∧ (v.extent b.handle).state = .bound ∧
      (v.extent b.handle).owner = .expWindow b.expWindow ∧ v.pool.windows.find b.expWindow =
        some { key := b.key, readOnly := b.readOnly, access := b.access, extents := [(b.firstIndex, b.handle)], size := b.firstIndex + 1 }) ∧
  (∀ (s : State) (h : HlyHdr) (handle count : Nat) (zero : Bool), s.runs h 0x0703 0 0 ((handleRange handle count).map .extent) = true →
    1 ≤ count → count ≤ 512 → handlesOk handle count = true → (∀ k, k < count → (s.extent (handle + k)).state = .bound) →
    ∃ v : State, Starts (exec (.extentUnbind h handle count zero) s) v h 0x0703 (.unbind (handleRange handle count) zero)
        ((handleRange handle count).map .extent) ∧ v.pool.mem = s.pool.mem ∧
      (∀ k, k < count → (v.extent (handle + k)).state = .unbinding ∧ (v.extent (handle + k)).running = true ∧
        (v.extent (handle + k)).zeroAfter = zero)) ∧
  (∀ (s : State) (h : HlyHdr) (m : ImportP), s.runs h 0x0704 0 0 [.inst m.inst] = true → m.inst ≤ 1023 → m.slot ≤ 16383 → m.window ≤ 4095 →
    m.index ≤ 4095 → m.preColour ≤ 1 → m.sl ≤ 7 → s.notFree m.inst = true → m.map = true → s.slotEmpty m.inst m.slot = true →
    s.slotCount < 524288 →
    ∃ v : State, Answers (exec (.importMap h m) s) v h 0x0704 ∧ v.slotOf m.inst m.slot = some (.import {
      remoteDevice := m.remoteDevice, window := m.window, index := m.index, key := m.key, preColour := m.preColour, sl := m.sl }) ∧
      v.pool.extents = s.pool.extents) ∧
  (∀ (s : State) (h : HlyHdr) (m : ImportP) (e : Import), s.runs h 0x0704 0 0 [.inst m.inst] = true → m.inst ≤ 1023 → m.slot ≤ 16383 →
    m.window ≤ 4095 → m.index ≤ 4095 → m.preColour ≤ 1 → m.sl ≤ 7 → s.notFree m.inst = true → m.map = false →
    s.slotOf m.inst m.slot = some (.import e) →
    ∃ v : State, v.slotOf m.inst m.slot = none ∧
      (s.importBusy m.inst m.slot = false → Answers (exec (.importMap h m) s) v h 0x0704) ∧
      (s.importBusy m.inst m.slot = true → Starts (exec (.importMap h m) s) v h 0x0704 (.importUnmap m.inst m.slot) [])) ∧
  (∀ (s : State) (h : HlyHdr) (handle count : Nat), s.runs h 0x0705 0 0 ((handleRange handle count).map .extent) = true → 1 ≤ count →
    count ≤ 512 → handlesOk handle count = true → (∀ k, k < count → (s.extent (handle + k)).state = .freeDirty) →
    ∃ v : State, Starts (exec (.extentZero h handle count) s) v h 0x0705 (.zeroing (handleRange handle count) 0)
        ((handleRange handle count).map .extent) ∧ v.pool.slots = s.pool.slots ∧
      (∀ k, k < count → (v.extent (handle + k)).state = .zeroing)) ∧
  (∀ (s : State) (h : HlyHdr) (handle count : Nat), s.runs h 0x0706 0 (20 * count) ((handleRange handle count).map .extent) = true → 1 ≤ count →
    count ≤ 64 → handlesOk handle count = true →
    ((handleRange handle count).flatMap fun k => extentImage (s.extent k)).length ≤ h.dataLength →
    Answers (exec (.extentQuery h handle count) s) (s.fetchCmd h) h 0x0706 0
      ((handleRange handle count).flatMap fun k => extentImage (s.extent k))) ∧
  (∀ (s : State) (h : HlyHdr) (port routingId link vslot : Nat), s.runs h 0x0707 0 0 [.function port routingId] = true → port ≤ 31 →
    routingId ≤ 65535 → s.namesHostLink link = true → vslot ≤ 31 → s.boundFn port routingId = none → 4 ≤ (s.downOf port).step →
    routingId ∈ (s.downOf port).functions → (∀ f ∈ s.pool.functions, f.link ≠ link ∨ f.vslot ≠ vslot) → s.pool.functions.length < 256 →
    ∃ v : State, Answers (exec (.functionBind h port routingId link vslot) s) v h 0x0707 ∧
      v.pool.functions = s.pool.functions ++ [({ port, routingId, link, vslot } : BoundFn)] ∧
      v.pool.vslots.get (32 * link + vslot) {} = ({ present := true } : VSlot)) ∧
  (∀ (s : State) (h : HlyHdr) (port routingId : Nat) (f : BoundFn), s.runs h 0x0708 0 0 [.function port routingId] = true →
    s.boundFn port routingId = some f →
    ∃ v : State, Starts (exec (.functionUnbind h port routingId) s) v h 0x0708 (.functionUnbind port routingId) [.function port routingId] ∧
      (v.boundFn port routingId).map (·.unbinding) = some (if (s.hostLink f.link).releaseTimeout = 0 then 2 else 1) ∧
      (v.pool.vslots.get (32 * f.link + f.vslot) {}).attention = true) ∧
  (∀ (s : State) (h : HlyHdr) (port : Nat), s.runs h 0x0709 0 0 [.port port] = true → s.isDownstream port = true → s.slotInUse port = false →
    ∃ v : State, Answers (exec (.slotRemove h port) s) v h 0x0709 ∧ (v.downOf (s.leadPort port)).step = 0 ∧
      (v.downOf (s.leadPort port)).functions = [] ∧ (v.downOf (s.leadPort port)).removing = false) ∧
  (∀ (s : State) (h : HlyHdr) (directory matching heaps : Nat), s.runs h 0x070A 0 0 [] = true → directory ≤ 128 → matching ≤ 32 → heaps ≤ 64 →
    (∀ r, r < 5 → s.regionLive r = false) →
    ∃ v : State, Answers (exec (.hbmPartitionSet h directory matching heaps) s) v h 0x070A ∧ v.pool.dirUnits = directory ∧
      v.pool.mtcUnits = matching ∧ v.pool.heapUnits = heaps ∧ v.pool.slots = s.pool.slots)

/-- The events of the memory and device pools (R263, R280 to R290): zeroing, the stages of a release, arrival and training.
Completion, in the conclusion: exec answers a next state, that of the command's own effect, on every state and operands that meet the
hypotheses, for each of zeroingComplete, dynamicCapacityRelease, dynamicCapacityAddReject, releaseTimeoutExpiry, unbindDrainComplete,
virtualSlotPowerOff, functionResetComplete, expanderEnumerated, pcieLinkTrained. -/
def Obligations.PoolEventsTakeEffect : Prop :=
  (∀ (s : State) (handle : Nat), (s.extent handle).state = .zeroing → (s.extent handle).running = false → s.hly.progress = [] →
    ∃ u : State, Gives (exec (.zeroingComplete handle) s) u ∧ (u.extent handle).state = .freeClean ∧
      (∀ o, o < 2 ^ 28 → memByte u.pool.mem (extentByte handle o) = 0) ∧
      (∀ a, a < extentByte handle 0 ∨ extentByte handle 0 + 2 ^ 28 ≤ a → memByte u.pool.mem a = memByte s.pool.mem a)) ∧
  (∀ (s : State) (link handle : Nat), (s.extent handle).releaseWait = [link] →
    ∃ u : State, Gives (exec (.dynamicCapacityRelease { link, handle }) s) u ∧ (u.extent handle).fenced = true ∧ (u.extent handle).releaseWait = [] ∧
      (u.extent handle).slots = [] ∧ (∀ i slot, u.slotOf i slot ≠ some (.local handle)) ∧ u.pool.mem = s.pool.mem) ∧
  (∀ (s : State) (handle inst slot link : Nat), (s.extent handle).state = .bound → (s.extent handle).slots = [(inst, slot)] →
    s.memLink inst = some link →
    ∃ u : State, Gives (exec (.dynamicCapacityAddReject handle) s) u ∧ (u.extent handle).state = .unbinding ∧
      (u.extent handle).fenced = true ∧ (u.extent handle).slots = []) ∧
  (∀ (s : State) (handle : Nat), (s.extent handle).state = .unbinding → (s.extent handle).running = true → (s.extent handle).fenced = true →
    (s.extent handle).use ≠ 1 → (s.extent handle).zeroAfter = false → s.recallOf handle = none →
    ∃ u : State, Gives (exec (.unbindDrainComplete handle) s) u ∧ (u.extent handle).state = .freeDirty ∧ (u.extent handle).running = false ∧
      u.pool.mem = s.pool.mem) ∧
  (∀ (s : State) (handle : Nat), (s.extent handle).state = .unbinding → (s.extent handle).running = true → (s.extent handle).fenced = true →
    (s.extent handle).use ≠ 1 → (s.extent handle).zeroAfter = true → s.recallOf handle = none → s.rejected handle = false →
    ∃ u : State, Gives (exec (.unbindDrainComplete handle) s) u ∧ (u.extent handle).state = .zeroing) ∧
  (∀ (s : State) (f : BoundFn), s.pool.functions = [f] → f.unbinding = 1 →
    ∃ u : State, Gives (exec (.virtualSlotPowerOff f.link f.vslot) s) u ∧
      u.pool.functions = [{ f with unbinding := 2, lateRelease := false }]) ∧
  (∀ (s : State) (handle port routingId : Nat), (s.extent handle).releaseWait ≠ [] →
    ∃ u : State, Gives (exec (.releaseTimeoutExpiry handle false port routingId) s) u ∧ (u.extent handle).fenced = true ∧
      (u.extent handle).note = 0x0602) ∧
  (∀ (s : State) (handle : Nat) (f : BoundFn), s.pool.functions = [f] → f.unbinding = 1 →
    ∃ u : State, Gives (exec (.releaseTimeoutExpiry handle true f.port f.routingId) s) u ∧
      u.pool.functions = [{ f with unbinding := 2, lateRelease := true }]) ∧
  (∀ (s : State) (port routingId : Nat) (f : BoundFn), s.boundFn port routingId = some f → f.unbinding = 2 →
    ∃ u : State, Gives (exec (.functionResetComplete port routingId) s) u ∧ u.boundFn port routingId = none) ∧
  (∀ (s : State) (port serial capacity : Nat) (further functions : List Nat), s.isDownstream (s.leadPort port) = true →
    (s.downOf (s.leadPort port)).step = 3 →
    ∃ u : State, Gives (exec (.expanderEnumerated port serial true capacity further functions) s) u ∧
      (u.downOf (s.leadPort port)).layout = ((capacity :: further).take 16).map (· / 2 ^ 28) ∧
      (u.downOf (s.leadPort port)).step = 4 ∧ (u.downOf (s.leadPort port)).serial = serial % 2 ^ 64 ∧
      (u.downOf (s.leadPort port)).functions = [] ∧
      (∀ k, k < (((capacity :: further).take 16).map (· / 2 ^ 28)).sum → k < (s.portHandles (s.leadPort port)).2 → (u.extent ((s.portHandles (s.leadPort port)).1 + k)).state = .freeDirty)) ∧
  (∀ (s : State) (port serial capacity : Nat) (further functions : List Nat), s.isDownstream (s.leadPort port) = true →
    (s.downOf (s.leadPort port)).step = 3 →
    ∃ u : State, Gives (exec (.expanderEnumerated port serial false capacity further functions) s) u ∧
      (u.downOf (s.leadPort port)).step = 4 ∧ (u.downOf (s.leadPort port)).functions = functions ∧
      (u.downOf (s.leadPort port)).caching = (s.port (s.leadPort port)).cxlUp ∧ u.pool.extents = s.pool.extents) ∧
  (∀ (s : State) (port rate width : Nat) (cxl flit256 : Bool), 5 ≤ rate → rate ≤ (s.port (s.leadPort port)).maxRate →
    width ≤ (s.port (s.leadPort port)).width → s.isHostLink (s.leadPort port) = true → (s.port (s.leadPort port)).contained = false →
    s.pwr.mode ≠ .barePoles → s.pwr.lost = false → s.flt.halted = false → s.mgc.perst0 = false →
    ∃ u : State, Gives (exec (.pcieLinkTrained port rate width cxl flit256) s) u ∧
      (∀ p ∈ s.linkPorts (s.leadPort port), (u.port p).train = .ready ∧ (u.port p).trainedRate = some rate ∧
        (u.port p).trainedWidth = some width ∧
        (u.port p).cxlUp = (((s.port (s.leadPort port)).mode == 4 || (s.port (s.leadPort port)).mode == 5) && cxl && flit256)))

/-- The commands of the coherence directory (R297 to R302, R318 to R325): each, where the spec does not refuse it, completes with its
effect.
Completion, in the conclusion: exec answers a next state, that of the command's own effect, on every state and operands that meet the
hypotheses, for each of cohAgentAdd, cohAgentRemove, cohWindowCreate, cohWindowAgents, cohWindowMap, cohWindowDestroy, dirSet, dirQuery. -/
def Obligations.DirectoryCommandsComplete : Prop :=
  (∀ (s : State) (h : HlyHdr) (agent kind port : Nat), s.runs h 0x0801 0 0 [.agent agent] = true → agent ≤ 63 → kind ≤ 1 → port ≤ 31 →
    s.agentPort kind port = true → s.dir.agents.length < 64 → (∀ a ∈ s.dir.agents, a.1 ≠ agent ∧ a.2.port ≠ port) →
    ∃ v : State, Answers (exec (.cohAgentAdd h agent kind port) s) v h 0x0801 ∧ v.dir.agents.find agent = some { kind, port } ∧
      (∀ a, a ≠ agent → v.dir.agents.find a = s.dir.agents.find a) ∧ v.dir.entries = s.dir.entries) ∧
  (∀ (s : State) (h : HlyHdr) (agent : Nat), s.runs h 0x0802 0 0 [.agent agent] = true → agent ≤ 63 → s.dir.agents.has agent = true →
    (∀ w ∈ s.dir.windows, w.2.mask.getLsbD agent = false) → s.dir.entries = [] → s.dir.trackers = [] →
    ∃ v : State, Answers (exec (.cohAgentRemove h agent) s) v h 0x0802 ∧ v.dir.agents.find agent = none ∧ v.dir.windows = s.dir.windows) ∧
  (∀ (s : State) (h : HlyHdr) (window mask : Nat), s.runs h 0x0803 0 0 [.window window] = true → window ≤ 255 → mask < 2 ^ 64 →
    s.maskBad mask = false → s.dir.windows.has window = false →
    ∃ v : State, Answers (exec (.cohWindowCreate h window mask) s) v h 0x0803 ∧
      v.dir.windows.find window = some { mask := BitVec.ofNat 64 mask } ∧ v.dir.agents = s.dir.agents) ∧
  (∀ (s : State) (h : HlyHdr) (window mask : Nat) (w : CohWindow), s.runs h 0x0804 0 0 [.window window] = true → window ≤ 255 → mask < 2 ^ 64 →
    s.maskBad mask = false → s.dir.windows.find window = some w → s.dir.entries = [] → s.dir.trackers = [] →
    ∃ v : State, Answers (exec (.cohWindowAgents h window mask) s) v h 0x0804 ∧
      v.dir.windows.find window = some { w with mask := BitVec.ofNat 64 mask }) ∧
  (∀ (s : State) (h : HlyHdr) (window inst firstSlot : Nat) (w : CohWindow), s.runs h 0x0805 0 0 [.window window, .inst inst] = true →
    firstSlot ≤ 16383 → firstSlot + w.extents.length ≤ 16384 → s.dir.windows.find window = some w →
    (∀ k, k < w.extents.length → s.slotEmpty inst (firstSlot + k) = true) → (s.windowInsts window).length < 64 →
    s.slotCount + w.extents.length ≤ 524288 → s.enabled inst = true → (∀ e ∈ w.extents, slotsValid (s.extent e) = true) →
    ∃ v : State, Answers (exec (.cohWindowMap h window inst firstSlot true) s) v h 0x0805 ∧
      (v.dir.windows.find window).map (·.maps) = some (w.maps ++ [(inst, firstSlot)]) ∧
      (∀ k e, w.extents[k]? = some e → v.slotOf inst (firstSlot + k) = some (.local e)) ∧ v.pool.mem = s.pool.mem) ∧
  (∀ (s : State) (h : HlyHdr) (window inst firstSlot : Nat) (w : CohWindow), s.runs h 0x0805 0 0 [.window window, .inst inst] = true →
    firstSlot ≤ 16383 → firstSlot + w.extents.length ≤ 16384 → s.dir.windows.find window = some w → s.enabled inst = true →
    (∀ k e, w.extents[k]? = some e → (inst, firstSlot + k) ∈ (s.extent e).slots) →
    ∃ v : State, Answers (exec (.cohWindowMap h window inst firstSlot false) s) v h 0x0805 ∧
      (∀ k, k < w.extents.length → v.slotOf inst (firstSlot + k) = none) ∧ v.pool.mem = s.pool.mem) ∧
  (∀ (s : State) (h : HlyHdr) (window : Nat) (w : CohWindow), s.runs h 0x0806 0 0 [.window window] = true →
    s.dir.windows.find window = some w → w.extents = [] →
    ∃ v : State, Answers (exec (.cohWindowDestroy h window) s) v h 0x0806 ∧ v.dir.windows.find window = none ∧ v.dir.agents = s.dir.agents) ∧
  (∀ (s : State) (h : HlyHdr) (cm snoopTimeout : Nat) (scrubEnable : Bool), s.runs h 0x0807 0 0 [] = true → 1 ≤ snoopTimeout →
    snoopTimeout ≤ 10000 →
    ∃ v : State, Answers (exec (.dirSet h cm snoopTimeout scrubEnable) s) v h 0x0807 ∧
      v.dir.snoopTimeout = pick cm 0 snoopTimeout s.dir.snoopTimeout ∧ v.dir.scrub = pick cm 1 scrubEnable s.dir.scrub ∧
      v.dir.windows = s.dir.windows) ∧
  (∀ (s : State) (h : HlyHdr) (window extentIndex lineIndex e : Nat) (w : CohWindow), s.runs h 0x0808 0 26 [] = true → window ≤ 255 →
    lineIndex < extentLines → s.dir.windows.find window = some w → w.extents[extentIndex]? = some e → s.tracker e lineIndex = none →
    ∃ (v : State) (check : Nat), check < 256 ∧ v.dir = s.dir ∧
      Answers (exec (.dirQuery h window extentIndex lineIndex) s) v h 0x0808 0 (outBytes [(8, (s.dirEntry e lineIndex).sharers.toNat),
        (7, lineStateNum (s.dirEntry e lineIndex).state + 4 * b2n ((s.dirEntry e lineIndex).poisoned ||
          ((s.dirEntry e lineIndex).state == .invalid && s.linePoisoned e lineIndex))), (1, check), (1, b2n (s.cachedEntry e lineIndex)), (4, 0),
        (1, 0), (4, 0)]))

/-- The events of the coherence directory (R303 to R321): requests and the grants that answer them, writebacks, snoops and their
time limit, and the end of recalls.
Completion, in the conclusion: exec answers a next state, that of the command's own effect, on every state and operands that meet the
hypotheses, for each of coherentRequest, coherentWriteback, evictionNotice, snoopResponseReceive, biconflictReceive, memoryWriteDone,
snoopTimeoutExpiry, recallComplete, directoryReadDone. -/
def Obligations.DirectoryEventsTakeEffect : Prop :=
  (∀ (s : State) (a handle line offset : Nat) (data : List Nat), s.awake = true → s.forwarding = true → line < extentLines →
    s.cohServed handle = true → s.servedAs handle (some a) = some a → s.tracker handle line = none →
    lineKey handle line ∉ s.dir.badEntries → s.bankTrackers (s.logicalBank handle line) < 256 →
    (s.dirEntry handle line).state = .invalid → s.linePoisoned handle line = false →
    ∃ u : State, Gives (exec (.coherentRequest (some a) handle line .rdS offset data) s) u ∧
      (u.tracker handle line).map (fun t => (t.kind, t.reading, t.snoops)) =
        some (.request { who := some a, agent := some a, op := .rdS, data, offset }, true, []) ∧
      u.out = .lineRead handle line :: s.out ∧ u.pool.mem = s.pool.mem) ∧
  (∀ (s : State) (a handle line offset : Nat) (data : List Nat), s.awake = true → s.forwarding = true → line < extentLines →
    s.cohServed handle = true → s.servedAs handle (some a) = some a → s.tracker handle line = none →
    lineKey handle line ∉ s.dir.badEntries → s.bankTrackers (s.logicalBank handle line) < 256 →
    (s.dirEntry handle line).state = .invalid → s.linePoisoned handle line = false →
    ∃ u : State, Gives (exec (.coherentRequest (some a) handle line .own offset data) s) u ∧
      (u.dirEntry handle line).state = .em ∧ (u.dirEntry handle line).sharers = 1#64 <<< a ∧ u.tracker handle line = none ∧
      u.out = .grant (some a) 2 handle line false [] :: s.out) ∧
  (∀ (s : State) (handle line : Nat) (t : Tracker) (r : CohReq), s.forwarding = true → s.tracker handle line = some t →
    t.kind = .request r → t.reading = true → t.queue = [] → s.poisoned handle (64 * line) 64 = false → s.linePoisoned handle line = false →
    ∃ u : State, Gives (exec (.directoryReadDone handle line false) s) u ∧
      u.dirEntry handle line = entryAfter r (s.dirEntry handle line) ∧ u.tracker handle line = none ∧
      u.out = .grant r.who (opCode r.op) handle line false (s.readExtent handle (64 * line) 64) :: s.out) ∧
  (∀ (s : State) (a handle line : Nat), s.awake = true → s.forwarding = true → line < extentLines → s.cohServed handle = true →
    s.tracker handle line = none → lineKey handle line ∉ s.dir.badEntries → s.bankTrackers (s.logicalBank handle line) < 256 →
    s.ownsLine handle line a = true →
    ∃ u : State, Gives (exec (.evictionNotice a handle line) s) u ∧ (u.dirEntry handle line).state = .invalid ∧
      (u.dirEntry handle line).sharers = 0 ∧ u.out = .grant (some a) 6 handle line false [] :: s.out) ∧
  (∀ (s : State) (a handle line : Nat) (data : List Nat), s.awake = true → s.forwarding = true → line < extentLines →
    (a, handle, line) ∉ s.dir.timedOut → (s.extent handle).use = 1 → (s.extent handle).window ≠ none → s.ownsLine handle line a = true →
    s.tracker handle line = none → s.linePoisoned handle line = false → s.bankWritebacks (s.logicalBank handle line) < 64 → data.length = 64 → (∀ b ∈ data, b < 256) →
    ∃ u : State, Gives (exec (.coherentWriteback a handle line 0 data) s) u ∧ u.readExtent handle (64 * line) 64 = data ∧
      u.dirEntry handle line = (s.dirEntry handle line).without a ∧
      u.dir.writebacks = s.dir.writebacks ++ [{ handle, line, agent := a, forwarded := false }] ∧
      (∀ x, x < extentByte handle (64 * line) ∨ extentByte handle (64 * line) + 64 ≤ x → memByte u.pool.mem x = memByte s.pool.mem x)) ∧
  (∀ (s : State) (w : WbPending), s.forwarding = true → s.dir.writebacks = [w] → w.forwarded = false → s.tracker w.handle w.line = none →
    s.dir.acks = [] →
    ∃ u : State, Gives (exec (.memoryWriteDone w.handle w.line) s) u ∧ u.dir.writebacks = [] ∧
      u.out = .grant (some w.agent) 5 w.handle w.line false [] :: s.out ∧ u.dir.entries = s.dir.entries) ∧
  (∀ (s : State) (a handle line : Nat) (n : Snoop) (data : List Nat), s.awake = true → s.forwarding = true →
    (a, handle, line) ∉ s.dir.timedOut → s.snoopOf handle line a = some n → n.wbTaken = false → n.wbInFlight = false →
    s.ownsLine handle line a = true →
    ∃ u : State, Gives (exec (.snoopResponseReceive a handle line .invalidWriteback data) s) u ∧
      u.snoopOf handle line a = some { n with wbInFlight := true } ∧ u.dir.entries = s.dir.entries ∧ u.pool.mem = s.pool.mem) ∧
  (∀ (s : State) (a handle line id : Nat) (n : Snoop) (t : Tracker) (data : List Nat), s.awake = true → s.forwarding = true →
    (a, handle, line) ∉ s.dir.timedOut → s.tracker handle line = some t → t.kind = .recall id → t.snoops = [n] → n.agent = a →
    n.wbTaken = false → n.wbInFlight = false → n.conflict = false → t.started = true → t.queue = [] → t.writes = 0 → t.reading = false →
    t.writing = false → s.ownsLine handle line a = true → s.dir.recalls = [] →
    ∃ u : State, Gives (exec (.snoopResponseReceive a handle line .invalid data) s) u ∧ u.tracker handle line = none ∧
      u.dirEntry handle line = (s.dirEntry handle line).without a) ∧
  (∀ (s : State) (a handle line : Nat) (n : Snoop), s.awake = true → s.forwarding = true → s.snoopOf handle line a = some n →
    ∃ u : State, Gives (exec (.biconflictReceive a handle line) s) u ∧ (u.snoopOf handle line a).map (·.conflict) = some true ∧
      u.dir.entries = s.dir.entries) ∧
  (∀ (s : State) (a handle line id : Nat) (n : Snoop) (t : Tracker), s.forwarding = true → s.tracker handle line = some t →
    t.kind = .recall id → t.snoops = [n] → n.agent = a → t.started = true → t.queue = [] → t.writes = 0 → t.reading = false →
    t.writing = false → s.dir.recalls = [] →
    ∃ u : State, Gives (exec (.snoopTimeoutExpiry a handle line) s) u ∧ (a, handle, line) ∈ u.dir.timedOut ∧ u.tracker handle line = none ∧
      u.dirEntry handle line = (s.dirEntry handle line).without a ∧ u.dir.intStatus.getLsbD 0 = true) ∧
  (∀ (s : State) (r : Recall), s.forwarding = true → s.dir.recalls = [r] → r.todo = [] → s.dir.trackers = [] → r.agents ≠ [] →
    ∃ u : State, Gives (exec (.recallComplete r.id) s) u ∧ u.dir.recalls = [] ∧ u.dir.intStatus = setFlag s.dir.intStatus 4 ∧
      u.dir.entries = s.dir.entries)

/-- Host loads and stores, and the requests and responses of windows (R33, R34, R275 to R279): a local extent is read or written, an
When a posted CXL store is answered is the model's choice, log entry 71.
Completion, in the conclusion: exec answers a next state, that of the command's own effect, on every state and operands that meet the
hypotheses, for each of hostMemoryAccess, hostWindowStore, wreadArrival, wwriteArrival, wreadDataArrival, wwriteDoneArrival,
werrorArrival. -/
def Obligations.HostMemoryTakesEffect : Prop :=
  (∀ (s : State) (inst address length e : Nat) (cxl : Bool) (data : List Nat), s.awake = true → s.forwarding = true →
    cxl = true ∨ s.reachable inst = true → s.enabled inst = true → 1 ≤ length → address % 2 ^ 28 + length ≤ 2 ^ 28 →
    s.slotOf inst (address / 2 ^ 28 % 16384) = some (.local e) → (s.extent e).use ≠ 1 → s.poisoned e (address % 2 ^ 28) length = false →
    ∃ u : State, Gives (exec (.hostMemoryAccess inst address length false cxl data) s) u ∧ u.pool = s.pool ∧
      u.out = .hostRsp inst 0 (if s.isNear e then 2 else 1) (s.readExtent e (address % 2 ^ 28) length) :: s.out) ∧
  (∀ (s : State) (inst address length e : Nat) (cxl : Bool) (data : List Nat), s.awake = true → s.forwarding = true →
    cxl = true ∨ s.reachable inst = true → s.enabled inst = true → 1 ≤ length → address % 2 ^ 28 + length ≤ 2 ^ 28 →
    s.slotOf inst (address / 2 ^ 28 % 16384) = some (.local e) → (s.extent e).use ≠ 1 → (s.extent e).state ≠ .poisoned →
    data.length = length → (∀ b ∈ data, b < 256) →
    ∃ u : State, Gives (exec (.hostMemoryAccess inst address length true cxl data) s) u ∧
      u.readExtent e (address % 2 ^ 28) length = data ∧ u.pool.extents = s.pool.extents ∧
      (∀ a, a < extentByte e (address % 2 ^ 28) ∨ extentByte e (address % 2 ^ 28) + length ≤ a →
        memByte u.pool.mem a = memByte s.pool.mem a) ∧
      (cxl = true → u.out = .hostRsp inst 0 (if s.isNear e then 2 else 1) [] :: s.out) ∧ (cxl = false → u.out = s.out)) ∧
  (∀ (s : State) (inst address length : Nat) (write cxl : Bool) (data : List Nat), s.awake = true → s.forwarding = true →
    cxl = true ∨ s.reachable inst = true → s.slotOf inst (address / 2 ^ 28 % 16384) = none ∨ s.enabled inst = false →
    ∃ u : State, Gives (exec (.hostMemoryAccess inst address length write cxl data) s) u ∧
      u.pool.refused.get inst 0 = s.pool.refused.get inst 0 + 1 ∧ u.pool.mem = s.pool.mem ∧
      u.out = .hostRsp inst (if cxl then 4 else 3) 0 [] :: s.out) ∧
  (∀ (s t : State) (inst address length : Nat) (posted : Bool) (data : List Nat) (x : Import) (r : WinReq) (hdr : Hdr) (d : Nat),
    s.awake = true → s.forwarding = true → posted = false ∨ s.reachable inst = true → s.enabled inst = true → 1 ≤ length →
    address % 2 ^ 28 + length ≤ 2 ^ 28 → s.slotOf inst (address / 2 ^ 28 % 16384) = some (.import x) →
    r = { inst, remote := x.remoteDevice, write := true, posted, cxl := s.overCxl inst, address,
          w := { window := x.window, key := x.key, offset := 2 ^ 28 * x.index + address % 2 ^ 28, length } } →
    s.resendBytes + length ≤ 2 ^ 28 → s.noRoute (s.windowHdr x r) 35 none = false →
    s.police (s.windowHdr x r) (pktLen (s.windowHdr x r)) true (x.preColour = 0) = (.send hdr d, t) →
    ∃ u : State, Gives (exec (.hostWindowStore inst address length posted data) s) u ∧ u.pool.winReqs = s.pool.winReqs ++ [r] ∧
      u.pool.mem = s.pool.mem ∧ u.pool.slots = s.pool.slots) ∧
  (∀ (s : State) (device inst sl e : Nat) (w : WinF), s.forwarding = true → s.windowCheck device inst w false = .ok e →
    s.poisoned e (w.offset % 2 ^ 28) w.length = false →
    ∃ u : State, Gives (exec (.wreadArrival device inst sl w) s) u ∧
      u = s.windowRsp 0x42 device inst sl { w with poison := false } (s.readExtent e (w.offset % 2 ^ 28) w.length) ∧
      u.pool = s.pool) ∧
  (∀ (s : State) (device inst sl e : Nat) (w : WinF) (data : List Nat), s.forwarding = true → s.windowCheck device inst w true = .ok e →
    (s.extent e).state ≠ .poisoned → data.length = w.length → (∀ b ∈ data, b < 256) →
    ∃ u : State, Gives (exec (.wwriteArrival device inst sl w data) s) u ∧ u.readExtent e (w.offset % 2 ^ 28) w.length = data ∧
      u = (s.writeExtent e (w.offset % 2 ^ 28) data).windowRsp 0x43 device inst sl w [] ∧
      (∀ a, a < extentByte e (w.offset % 2 ^ 28) ∨ extentByte e (w.offset % 2 ^ 28) + w.length ≤ a →
        memByte u.pool.mem a = memByte s.pool.mem a)) ∧
  (∀ (s : State) (r : WinReq) (data : List Nat), s.forwarding = true → s.pool.winReqs = [r] → r.write = false → r.w.poison = false →
    s.hly.progress = [] →
    ∃ u : State, Gives (exec (.wreadDataArrival r.inst r.w data) s) u ∧ u.pool.winReqs = [] ∧ u.out = .hostRsp r.inst 0 4 data :: s.out) ∧
  (∀ (s : State) (r : WinReq), s.forwarding = true → s.pool.winReqs = [r] → r.write = true → s.hly.progress = [] →
    ∃ u : State, Gives (exec (.wwriteDoneArrival r.inst r.w) s) u ∧ u.pool.winReqs = [] ∧ u.out = s.out ∧ u.pool.mem = s.pool.mem) ∧
  (∀ (s : State) (r : WinReq) (reason : Nat), s.forwarding = true → s.pool.winReqs = [r] → r.write = false → s.hly.progress = [] →
    ∃ u : State, Gives (exec (.werrorArrival r.inst r.w reason) s) u ∧ u.pool.winReqs = [] ∧
      u.out = .hostRsp r.inst (if r.cxl then 1 else 2) 4 [] :: s.out ∧ u.pool.mem = s.pool.mem)

/-- The commands of the message engines and of matching (R332 to R336, R345, R353, R362, R368 to R375): each, where the spec does not
refuse it, completes or begins with its effect.
Completion, in the conclusion: exec answers a next state, that of the command's own effect, on every state and operands that meet the
hypotheses, for each of queueCreate, queueDestroy, queueMove, queueRestart, regionSet, engInstanceSet, engSet, lockBreak, engQuery,
queueMoveForwardDone. -/
def Obligations.EngineCommandsComplete : Prop :=
  (∀ (s : State) (h : HlyHdr) (q : QueueP), s.runs h 0x0901 0 0 (if q.kind = 0 then [.sendQueue q.queue] else []) = true →
    queueBad q = false → s.enabled q.inst = true → s.queueExists q.kind q.queue = false →
    (q.kind ≤ 1 → ((s.mec.compQ.find q.cq).any fun c => c.inst == q.inst) = true) → (q.kind = 3 → s.eventQueue q.inst = none) →
    (q.kind = 0 → s.engineTakes q.engine q.maxOut = true) → s.queueFull q.kind = false →
    ∃ v : State, Answers (exec (.queueCreate h q) s) v h 0x0901 ∧
      (q.kind = 0 → v.mec.sendQ.find q.queue = some { inst := q.inst, base := q.base, log2Size := q.log2Size, cq := q.cq, engine := q.engine, weight := q.weight, maxOut := q.maxOut }) ∧
      (q.kind = 1 → v.mec.recvQ.find q.queue = some { inst := q.inst, base := q.base, log2Size := q.log2Size, cq := q.cq }) ∧
      (q.kind = 2 → v.mec.compQ.find q.queue = some { inst := q.inst, base := q.base, log2Size := q.log2Size, vector := q.vector }) ∧
      (q.kind = 3 → v.mec.eventQ.find q.queue = some { inst := q.inst, base := q.base, log2Size := q.log2Size, vector := q.vector })) ∧
  (∀ (s : State) (h : HlyHdr) (queue : Nat) (x : SendQueue), s.runs h 0x0902 0 0 [.sendQueue queue] = true → queue ≤ 16383 →
    s.mec.sendQ.find queue = some x → (∀ t ∈ s.mec.triggers, t.queue ≠ queue) →
    ∃ v : State, Starts (exec (.queueDestroy h 0 queue) s) v h 0x0902 (.queueDestroy queue) [.sendQueue queue] ∧
      v.mec.sendQ.find queue = some { x with destroying := true, locks := [] } ∧
      v.mec.abandons = s.mec.abandons ++ (x.locks.map (·.1)).dedup.map fun d => (d, x.inst, queue)) ∧
  (∀ (s : State) (h : HlyHdr) (queue : Nat) (x : RecvQueue), s.runs h 0x0902 0 0 [] = true → queue ≤ 16383 →
    s.mec.recvQ.find queue = some x → (∀ p ∈ s.mtc.posted, p.queue ≠ queue) →
    ∃ v : State, Starts (exec (.queueDestroy h 1 queue) s) v h 0x0902 (.queueDestroy (65536 + queue)) [] ∧
      v.mec.recvQ.find queue = some { x with destroying := true }) ∧
  (∀ (s : State) (h : HlyHdr) (queue : Nat), s.runs h 0x0902 0 0 [] = true → queue ≤ 16383 → s.mec.compQ.has queue = true →
    (∀ q ∈ s.mec.sendQ, q.2.cq ≠ queue) → (∀ q ∈ s.mec.recvQ, q.2.cq ≠ queue) →
    ∃ v : State, Answers (exec (.queueDestroy h 2 queue) s) v h 0x0902 ∧ v.mec.compQ.find queue = none) ∧
  (∀ (s : State) (h : HlyHdr) (queue : Nat), s.runs h 0x0902 0 0 [] = true → queue ≤ 16383 → s.mec.eventQ.has queue = true →
    ∃ v : State, Answers (exec (.queueDestroy h 3 queue) s) v h 0x0902 ∧ v.mec.eventQ.find queue = none) ∧
  (∀ (s : State) (h : HlyHdr) (queue engine : Nat) (x : SendQueue), s.runs h 0x0903 0 0 [] = true → queue ≤ 16383 → engine ≤ 127 →
    s.mec.sendQ.find queue = some x → x.moving = none → s.engineTakes engine x.maxOut = true →
    (∃ e ∈ s.mec.slots, e.2.queue = queue ∧ e.2.isRget = false ∧ e.2.queueGen ≠ (x.gen + 1) % 256) →
    ∃ v : State, Starts (exec (.queueMove h queue engine) s) v h 0x0903 (.queueMove queue) [.sendQueue queue] ∧
      v.mec.sendQ.find queue = some { x with engine, gen := (x.gen + 1) % 256, moving := some x.engine, visits := 0 }) ∧
  (∀ (s : State) (h : HlyHdr) (queue engine : Nat) (x : SendQueue), s.runs h 0x0903 0 0 [] = true → queue ≤ 16383 → engine ≤ 127 →
    s.mec.sendQ.find queue = some x → x.moving = none → s.engineTakes engine x.maxOut = true → s.hly.progress = [] →
    (∀ e ∈ s.mec.slots, e.2.queue ≠ queue) →
    ∃ v : State, Answers (exec (.queueMove h queue engine) s) v h 0x0903 ∧
      v.mec.sendQ.find queue = some { x with engine, gen := (x.gen + 1) % 256, moving := none, visits := 0 }) ∧
  (∀ (s : State) (h : HlyHdr) (queue : Nat) (x : SendQueue), s.runs h 0x0904 0 0 [] = true → s.mec.sendQ.find queue = some x →
    x.error = true → x.moving = none →
    ∃ v : State, Answers (exec (.queueRestart h 0 queue) s) v h 0x0904 ∧ v.mec.sendQ.find queue = some { x with error := false }) ∧
  (∀ (s : State) (h : HlyHdr) (queue : Nat) (x : RecvQueue), s.runs h 0x0904 0 0 [] = true → s.mec.recvQ.find queue = some x →
    x.error = true →
    ∃ v : State, Answers (exec (.queueRestart h 1 queue) s) v h 0x0904 ∧ v.mec.recvQ.find queue = some { x with error := false }) ∧
  (∀ (s : State) (h : HlyHdr) (r : RegionP), s.runs h 0x0905 0 0 [.inst r.inst] = true → s.regionBad r = false → s.enabled r.inst = true →
    ∃ v : State, Answers (exec (.regionSet h r) s) v h 0x0905 ∧ v.mec.regions.find r.region = (if r.valid then some r else none) ∧
      (∀ i, i ≠ r.region → v.mec.regions.find i = s.mec.regions.find i)) ∧
  (∀ (s : State) (h : HlyHdr) (inst base count heap entries reserve : Nat), s.runs h 0x0906 0 0 [.inst inst] = true → inst ≤ 1023 →
    base + count ≤ 16384 → base ≤ 16383 → count ≤ 4096 → heap ≤ 65535 → entries < 2 ^ 27 → reserve < 2 ^ 19 → s.notFree inst = true →
    s.countersTaken inst base count = false →
    heap + sumOf (s.mec.inst.filter fun e => e.1 != inst) (fun e => e.2.heap) ≤ s.heapUnitsAll →
    entries + sumOf (s.mec.inst.filter fun e => e.1 != inst) (fun e => e.2.matchEntries) ≤ 262144 + s.overflowRoom →
    reserve + sumOf (s.mec.inst.filter fun e => e.1 != inst) (fun e => e.2.onDieReserve) ≤ 262144 →
    s.quotaBelow inst count heap entries = false →
    ∃ v : State, Answers (exec (.engInstanceSet h inst base count heap entries reserve) s) v h 0x0906 ∧
      v.engInst inst = { s.engInst inst with counterBase := base, counterCount := count, heap, matchEntries := entries, onDieReserve := reserve } ∧
      v.mec.counters = s.mec.counters) ∧
  (∀ (s : State) (h : HlyHdr) (cm rnrDelay rnrLimit lockAge : Nat), s.runs h 0x0907 0 0 [] = true → 1 ≤ rnrDelay → rnrDelay ≤ 1000 →
    rnrLimit ≤ 255 → 1 ≤ lockAge → lockAge ≤ 10000 →
    ∃ v : State, Answers (exec (.engSet h cm rnrDelay rnrLimit lockAge) s) v h 0x0907 ∧ v.mec.rnrDelay = pick cm 0 rnrDelay s.mec.rnrDelay ∧
      v.mec.rnrLimit = pick cm 1 rnrLimit s.mec.rnrLimit ∧ v.mec.lockAge = pick cm 2 lockAge s.mec.lockAge ∧ v.mec.sendQ = s.mec.sendQ) ∧
  (∀ (s : State) (h : HlyHdr) (index : Nat) (e : LockEntry), s.runs h 0x0908 0 0 [] = true → index ≤ 4095 →
    s.locks.table.find index = some e → e.abandoned = false → s.locks.waits = [] →
    ∃ v : State, Answers (exec (.lockBreak h index) s) v h 0x0908 ∧ v.locks.table.find index = some { e with abandoned := true } ∧
      v.pool = s.pool) ∧
  (∀ (s : State) (h : HlyHdr) (kind index : Nat), s.runs h 0x0909 0 (engQueryLen kind) [] = true → kind ≤ 5 → index ≤ 16383 →
    (kind = 4 → index ≤ 127) → (kind = 5 → index ≤ 1023 ∧ s.notFree index = true) →
    ∃ out : List Nat, Answers (exec (.engQuery h kind index) s) (s.fetchCmd h) h 0x0909 0 out ∧ out.length = engQueryLen kind ∧
      out = (if kind ≤ 3 then s.queueImage kind index else s.engImage kind index)) ∧
  (∀ (s : State) (queue : Nat) (x : SendQueue), s.mec.sendQ.find queue = some x → x.moving ≠ none → s.moveDone queue = true →
    s.hly.progress = [] →
    ∃ u : State, Gives (exec (.queueMoveForwardDone queue) s) u ∧ u.mec.sendQ.find queue = some { x with moving := none } ∧
      u.pool = s.pool)

/-- The doorbells of an instance (R333, R334, R343): a producer index within the ring is taken, a consumer index makes room, and a
doorbell of a queue that is not the instance's is ignored and counted.
Completion, in the conclusion: exec answers a next state, that of the command's own effect, on every state and operands that meet the
hypotheses, for each of doorbellSend, doorbellReceive, doorbellCompletion, doorbellCompletionArm. -/
def Obligations.DoorbellsTakeEffect : Prop :=
  (∀ (s : State) (inst queue index : Nat) (x : SendQueue), s.reachable inst = true → s.awake = true → s.forwarding = true →
    s.enabled inst = true → s.mec.sendQ.find queue = some x → x.inst = inst → ringUsed index x.consumer ≤ 2 ^ x.log2Size →
    ∃ u : State, Gives (exec (.doorbellSend inst queue index) s) u ∧ u.mec.sendQ.find queue = some { x with producer := index % 65536 } ∧
      (∀ q, q ≠ queue → u.mec.sendQ.find q = s.mec.sendQ.find q) ∧ u.pool = s.pool) ∧
  (∀ (s : State) (inst queue index : Nat) (x : SendQueue), s.reachable inst = true → s.awake = true → s.forwarding = true →
    s.enabled inst = true → s.mec.sendQ.find queue = some x → x.inst = inst → 2 ^ x.log2Size < ringUsed index x.consumer → x.error = false →
    ∃ u : State, Gives (exec (.doorbellSend inst queue index) s) u ∧ (u.mec.sendQ.find queue).map (·.error) = some true ∧
      (u.mec.sendQ.find queue).map (·.producer) = some x.producer ∧ u.pool = s.pool) ∧
  (∀ (s : State) (inst queue index : Nat) (x : RecvQueue), s.reachable inst = true → s.awake = true → s.forwarding = true →
    s.enabled inst = true → s.mec.recvQ.find queue = some x → x.inst = inst → ringUsed index x.consumer ≤ 2 ^ x.log2Size →
    ∃ u : State, Gives (exec (.doorbellReceive inst queue index) s) u ∧ u.mec.recvQ.find queue = some { x with producer := index % 65536 } ∧
      u.mec.sendQ = s.mec.sendQ) ∧
  (∀ (s : State) (inst queue index : Nat) (x : RecordQueue), s.reachable inst = true → s.awake = true → s.forwarding = true →
    s.enabled inst = true → s.mec.compQ.find queue = some x → x.inst = inst → x.held = [] → s.mec.sendQ = [] →
    ∃ u : State, Gives (exec (.doorbellCompletion inst queue index) s) u ∧
      u.mec.compQ.find queue = some { x with consumer := index % 65536 } ∧ u.pool = s.pool) ∧
  (∀ (s : State) (inst queue index : Nat) (x : RecordQueue), s.reachable inst = true → s.awake = true → s.forwarding = true →
    s.enabled inst = true → s.mec.compQ.find queue = some x → x.inst = inst → x.held = [] → s.mec.sendQ = [] →
    ∃ u : State, Gives (exec (.doorbellCompletionArm inst queue index) s) u ∧
      u.mec.compQ.find queue = some { x with consumer := index % 65536, armed := true } ∧ u.pool = s.pool) ∧
  (∀ (s : State) (inst queue index : Nat), s.reachable inst = true → s.awake = true → s.forwarding = true → s.enabled inst = true →
    s.mec.sendQ.find queue = none →
    ∃ u : State, Gives (exec (.doorbellSend inst queue index) s) u ∧ (u.engInst inst).ignored = (s.engInst inst).ignored + 1 ∧
      u.mec.sendQ = s.mec.sendQ ∧ u.pool = s.pool)

/-- The operations of send descriptors (R335 to R340, R348, R353, R354, R359, R363, R365): a fetched descriptor takes a slot, and an
operation that waits to start, is not fenced and runs on an engine that works goes out with the fields of R352, or ends at once.
Which free entry is taken, where one is, is the model's choice, log entry 27.
An operation that has its result while its packets are not all acknowledged keeps it in its slot, and writes no record (R338, R340).
Completion, in the conclusion: exec answers a next state, that of the command's own effect, on every state and operands that meet the
hypotheses, for each of descriptorFetch, put, get, atomic, send, lock, unlock, counterAdd, counterSet, descNop, triggerFire,
rnrDelayExpiry, lockAgeExpiry. -/
def Obligations.DescriptorOperationsTakeEffect : Prop :=
  (∀ (s : State) (queue tag : Nat) (x : SendQueue) (bits : Nat) (d : Desc), d = sendDescOf bits → s.mec.sendQ.find queue = some x → s.fetchReady queue x = true →
    s.mec.sendQ = [(queue, x)] → x.error = false → d.triggered = false → s.badDesc x.inst d = false → s.freeSlot x.engine = some tag →
    s.mpuRefusal { master := x.engine, kind := 2, privilege := 0, space := 0, address := x.base + 64 * (x.consumer % 2 ^ x.log2Size), pageCount := 1, inst := x.inst } = none →
    ∃ u : State, Gives (exec (.descriptorFetch queue bits true) s) u ∧ u.waiting = s.waiting ++ [opCommand queue d] ∧
      (u.mec.sendQ.find queue).map (fun y => (y.consumer, y.issue, y.order)) =
        some ((x.consumer + 1) % 65536, x.issue ++ [tag], x.order ++ [tag]) ∧
      (u.slot tag).map (fun o => (o.queue, o.inst, o.d, o.result)) = some (queue, x.inst, d, none)) ∧
  (∀ (s : State) (queue : Nat) (x : SendQueue) (bits : Nat) (d : Desc), d = sendDescOf bits → s.mec.sendQ.find queue = some x → s.fetchReady queue x = true →
    s.mec.sendQ = [(queue, x)] → x.error = false → d.triggered = true → s.badDesc x.inst d = false →
    (s.mec.triggers.filter fun t => t.engine == x.engine).length < 8192 →
    s.mpuRefusal { master := x.engine, kind := 2, privilege := 0, space := 0, address := x.base + 64 * (x.consumer % 2 ^ x.log2Size), pageCount := 1, inst := x.inst } = none →
    ∃ u : State, Gives (exec (.descriptorFetch queue bits true) s) u ∧ u.waiting = s.waiting ∧ u.mec.slots = s.mec.slots ∧
      u.mec.triggers.map (·.d) = s.mec.triggers.map (·.d) ++ [d]) ∧
  (∀ (s : State) (queue tag : Nat) (x : SendQueue) (o : OpSlot) (d : Desc), s.startTag queue d = some tag →
    s.mec.sendQ.find queue = some x → s.slot tag = some o → s.engineRuns (tag / 512) = true → s.fenced x tag o = false →
    (d.op = 1 → ∃ u : State, Gives (exec (.put queue d) s) u ∧ u = (s.unqueue queue tag).startPut o) ∧
    (d.op = 2 → (s.unqueue queue tag).localOk o 1 0 o.d.length = (true, s.unqueue queue tag) →
      ∃ u : State, Gives (exec (.get queue d) s) u ∧ u = (s.unqueue queue tag).sendOp o 0x01 15 false
        [o.d.region, o.d.key, o.d.remoteOffset] (bytesLE 4 o.d.length) true true) ∧
    (d.op = 3 → o.d.size16 = false → (s.unqueue queue tag).localOk o 1 0 8 = (true, s.unqueue queue tag) →
      ∃ u : State, Gives (exec (.atomic queue d) s) u ∧ u = (s.unqueue queue tag).sendOp o 0x02 28 false
        [o.d.region, o.d.key, o.d.remoteOffset] (o.d.aop :: (bytesLE 8 o.d.operandA ++ bytesLE 8 o.d.operandB)) true true) ∧
    (d.op = 4 → ∃ u : State, Gives (exec (.send queue d) s) u ∧ u = (s.unqueue queue tag).startMessage o) ∧
    (d.op = 5 → s.queueLocks o.queue o.opTag < 8 →
      ∃ (u : State) (mode : Nat), mode < 2 ∧ Gives (exec (.lock queue d) s) u ∧ u = (s.unqueue queue tag).fresh.2.sendOp o 0x03 16 false
        [o.d.region, o.d.key, o.d.remoteOffset] (bytesLE 4 o.d.length ++ [mode]) true true) ∧
    (d.op = 6 → ∃ u : State, Gives (exec (.unlock queue d) s) u ∧ u = (s.unqueue queue tag).sendOp o 0x04 15 false
        [o.d.region, o.d.key, o.d.remoteOffset] (bytesLE 4 o.d.length) true true) ∧
    (d.op = 7 → ∀ c, s.counterIx o.inst o.d.trigCounter = some c →
      ∃ u : State, Gives (exec (.counterAdd queue d) s) u ∧
        u = ((s.unqueue queue tag).setCounter c (s.mec.counters.get c 0 + o.d.operandA)).finishOp o.opTag 0x00 0) ∧
    (d.op = 8 → ∀ c, s.counterIx o.inst o.d.trigCounter = some c →
      ∃ u : State, Gives (exec (.counterSet queue d) s) u ∧
        u = ((s.unqueue queue tag).setCounter c o.d.operandA).finishOp o.opTag 0x00 0) ∧
    (d.op = 9 → ∃ u : State, Gives (exec (.descNop queue d) s) u ∧ u = (s.unqueue queue tag).finishOp o.opTag 0x00 0)) ∧
  (∀ (s : State) (engine tag : Nat) (t : Trigger) (x : SendQueue), s.mec.triggers = [t] → t.engine = engine → t.fired = true →
    s.mec.sendQ.find t.queue = some x → s.engineRuns engine = true → s.enabled x.inst = true → s.queueSlots t.queue < x.maxOut →
    s.freeSlot engine = some tag → x.error = false →
    ∃ u : State, Gives (exec (.triggerFire engine) s) u ∧ u.mec.triggers = [] ∧ u.waiting = s.waiting ++ [opCommand t.queue t.d] ∧
      (u.slot tag).map (fun o => (o.queue, o.d, o.triggered)) = some (t.queue, t.d, true)) ∧
  (∀ (s : State) (tag : Nat) (o : OpSlot), s.slot tag = some o → o.rnrWait = true → s.forwarding = true → s.earlierRefused o = false →
    ∃ u : State, Gives (exec (.rnrDelayExpiry tag) s) u ∧ u = (s.upSlot tag fun x => { x with rnrWait := false }).sendMessage o) ∧
  (∀ (s : State) (index : Nat) (e : LockEntry), s.locks.table.find index = some e → e.abandoned = false → e.reported = false →
    s.forwarding = true →
    ∃ u : State, Gives (exec (.lockAgeExpiry index) s) u ∧ u.locks.table.find index = some { e with reported := true } ∧
      u.mec.intStatus = setFlag s.mec.intStatus 2 ∧ u.pool = s.pool) ∧
  (∀ (s : State) (tag status bytes : Nat) (x : OpSlot) (q : SendQueue), s.slot tag = some x → x.opTag = tag → x.isRget = false →
      x.standIn = none → x.result = none → x.triggered = false → x.unacked ≠ 0 → s.mec.sendQ.find x.queue = some q → q.order = [tag] →
      (∀ e ∈ s.mec.slots, e.2.triggered = false) →
      s.finishOp tag status bytes = s.upSlot tag fun o => { o with result := some (status, bytes) })

/-- One-sided requests and locks at the destination (R345 to R349, R365 to R368): an access that passes R346 and the protection unit
and waits on no lock is served.
Completion, in the conclusion: exec answers a next state, that of the command's own effect, on every state and operands that meet the
hypotheses, for each of putArrival, getArrival, atomicArrival, lockArrival, unlockArrival, lockAbandonArrival. -/
def Obligations.EngineRequestsServed : Prop :=
  (∀ (s : State) (r : Req) (a : Access) (data : List Nat) (last : Bool) (g : RegionP), s.forwarding = true →
    s.guard r { a with length := data.length } 1 1 = (.ok g, s) → s.heldByOther (ownerOf r) a.region a.offset data.length = false →
    putName r ∉ s.mec.refusedPuts →
    ∃ u : State, Gives (exec (.putArrival r a data last) s) u ∧ u = (s.engineBusy g.inst).servePut g r a data last ∧
      (g.kind ≠ 0 → (∀ b ∈ data, b < 256) → memRead u.pool.mem (heapByte g.inst (4096 * g.base + a.offset)) data.length = data) ∧
      (g.kind = 0 → u.pool = s.pool) ∧
      (∀ x, x < heapByte g.inst (4096 * g.base + a.offset) ∨ heapByte g.inst (4096 * g.base + a.offset) + data.length ≤ x →
        memByte u.pool.mem x = memByte s.pool.mem x)) ∧
  (∀ (s : State) (r : Req) (a : Access) (g : RegionP), s.forwarding = true → s.guard r a 0 0 = (.ok g, s) →
    s.heldByOther (ownerOf r) a.region a.offset a.length = false →
    ∃ u : State, Gives (exec (.getArrival r a false) s) u ∧ u.pool = s.pool ∧
      (g.kind ≠ 0 → u = (s.engineBusy g.inst).sendHeapData r 0x11 g.inst (clusterOf a)
        (heapByte g.inst (4096 * g.base + a.offset)) 0 a.length (ceilDiv a.length 4096)) ∧
      (g.kind = 0 → (u.mec.reads.find s.mec.readCount).map (fun p => (p.inst, p.opcode, p.address, p.left)) =
        some (g.inst, 0x11, 4096 * g.base + a.offset, a.length))) ∧
  (∀ (s : State) (r : Req) (a : Access) (aop : Nat) (size16 : Bool) (opA opB old : Nat) (g : RegionP), s.forwarding = true →
    s.guard r { a with length := atomicSize size16 } 2 1 = (.ok g, s) → aop ≤ 6 → a.offset % atomicSize size16 = 0 → g.kind ≠ 0 →
    s.heldByOther (ownerOf r) a.region a.offset (atomicSize size16) = false →
    ∃ u : State, Gives (exec (.atomicArrival r a aop size16 opA opB old) s) u ∧
      memRead u.pool.mem (heapByte g.inst (4096 * g.base + a.offset)) (atomicSize size16) =
        bytesLE (atomicSize size16) (atomicStore aop (8 * atomicSize size16) (opA % 2 ^ (8 * atomicSize size16))
          (opB % 2 ^ (8 * atomicSize size16))
          (ofBytesLE (memRead s.pool.mem (heapByte g.inst (4096 * g.base + a.offset)) (atomicSize size16)))) ∧
      (∀ x, x < heapByte g.inst (4096 * g.base + a.offset) ∨
        heapByte g.inst (4096 * g.base + a.offset) + atomicSize size16 ≤ x → memByte u.pool.mem x = memByte s.pool.mem x)) ∧
  (∀ (s : State) (r : Req) (a : Access) (wait : Bool) (g : RegionP), s.forwarding = true → s.region a.region = some g →
    s.regionRefusal r.srcDevice r.srcInst a 3 = none → a.offset % 64 = 0 → a.length % 64 = 0 → 0 < a.length → a.length ≤ 1048576 →
    s.locks.table = [] →
    ∃ u : State, Gives (exec (.lockArrival r a wait) s) u ∧
      u.locks.table = [(0, { region := a.region, offset := a.offset, length := a.length, owner := ownerOf r })] ∧
      u.locks.waits = s.locks.waits ∧ u.pool = s.pool) ∧
  (∀ (s : State) (r : Req) (a : Access) (g : RegionP), s.forwarding = true → s.region a.region = some g →
    s.regionRefusal r.srcDevice r.srcInst a 3 = none → a.offset % 64 = 0 → a.length % 64 = 0 → 0 < a.length → a.length ≤ 1048576 →
    s.held a.region a.offset a.length = true → s.locks.waits.length < 4096 →
    ∃ u : State, Gives (exec (.lockArrival r a true) s) u ∧ u.locks.table = s.locks.table ∧
      (u.locks.waits.map fun w => (w.req, w.isLock)) = (s.locks.waits.map fun w => (w.req, w.isLock)) ++ [(r, true)]) ∧
  (∀ (s : State) (r : Req) (a : Access) (g : RegionP) (i : Nat), s.forwarding = true → s.region a.region = some g →
    s.regionRefusal r.srcDevice r.srcInst a 3 = none → s.locks.waits = [] →
    s.locks.table = [(i, { region := a.region, offset := a.offset, length := a.length, owner := ownerOf r })] →
    ∃ u : State, Gives (exec (.unlockArrival r a) s) u ∧ u.locks.table = [] ∧ u.pool = s.pool) ∧
  (∀ (s : State) (r : Req) (queue i : Nat) (e : LockEntry), s.forwarding = true → s.locks.waits = [] → s.locks.table = [(i, e)] →
    e.abandoned = false → e.owner = { device := r.srcDevice, inst := r.srcInst, queue } →
    ∃ u : State, Gives (exec (.lockAbandonArrival r queue) s) u ∧ u.locks.table = [(i, { e with abandoned := true })] ∧ u.out = s.out)

/-- The responses that come to the engines, and the reads of host memory that return (R338, R346, R347, R352, R361, R363, R366, R477):
each acts on the operation that it names.
Completion, in the conclusion: exec answers a next state, that of the command's own effect, on every state and operands that meet the
hypotheses, for each of rgetArrival, putAckArrival, getDataArrival, atomicResultArrival, lockResultArrival, sendAckArrival,
sendRnrArrival, rgetDataArrival, rdoneArrival, engErrorArrival, hostReadCompletion, hostCompletionTimeout. -/
def Obligations.EngineResponsesTakeEffect : Prop :=
  (∀ (s : State) (r : Rsp) (o : OpSlot), s.forwarding = true → s.rspSlot r = some o → o.isRget = false → o.result = none →
    o.standIn = none →
    (o.d.op = 1 → ∃ u : State, Gives (exec (.putAckArrival r) s) u ∧ u = s.finishOp o.opTag r.status o.d.length) ∧
    (o.d.op = 2 → ∀ data : List Nat, o.bytes + data.length < o.d.length → ∃ u : State, Gives (exec (.getDataArrival r data) s) u ∧
      u = (s.localWrite o r.dataOffset data).upSlot o.opTag fun x => { x with bytes := x.bytes + data.length }) ∧
    (o.d.op = 2 → ∀ data : List Nat, o.d.length ≤ o.bytes + data.length → ∃ u : State, Gives (exec (.getDataArrival r data) s) u ∧
      u = ((s.localWrite o r.dataOffset data).upSlot o.opTag fun x => { x with bytes := x.bytes + data.length }).finishOp o.opTag 0x00 o.d.length) ∧
    (o.d.op = 3 → ∀ old : Nat, ∃ u : State, Gives (exec (.atomicResultArrival r old) s) u ∧
      u = (s.localWrite o (if o.d.size16 then 32 else 0) (bytesLE (atomicSize o.d.size16) old)).finishOp o.opTag r.status (atomicSize o.d.size16)) ∧
    (o.d.op = 4 → ∃ u : State, Gives (exec (.sendAckArrival r) s) u ∧ u = s.finishOp o.opTag r.status o.d.length) ∧
    (o.d.op = 4 → o.rnrLimit.getD s.mec.rnrLimit = 0 → ∃ u : State, Gives (exec (.sendRnrArrival r) s) u ∧
      u = s.upSlot o.opTag fun x => { x with rnrCount := o.rnrCount + 1, rnrWait := true, rnrLimit := some s.mec.rnrLimit }) ∧
    (o.d.op = 4 → ∀ bytes : Nat, ∃ u : State, Gives (exec (.rdoneArrival r bytes) s) u ∧ u = s.finishOp o.opTag 0x00 bytes) ∧
    (o.d.op = 5 → ∀ (index device : Nat) (q : SendQueue), s.mec.sendQ.find o.queue = some q → q.error = false → q.destroying = false →
      r.status ≤ 3 → ∃ u : State, Gives (exec (.lockResultArrival r index device) s) u ∧
      u = (s.upMec fun m => { m with sendQ := m.sendQ.put o.queue { q with locks := q.locks ++ [(device, index)] } }).finishOp o.opTag r.status 0) ∧
    (o.d.op = 6 → ∀ (index device : Nat) (q : SendQueue), s.mec.sendQ.find o.queue = some q → r.status ≤ 3 →
      ∃ u : State, Gives (exec (.lockResultArrival r index device) s) u ∧
      u = (s.upMec fun m => { m with sendQ := m.sendQ.put o.queue { q with locks := dropFirst (device, index) q.locks } }).finishOp o.opTag r.status 0)) ∧
  (∀ (s : State) (r : Rsp) (o : OpSlot), s.forwarding = true → s.rspSlot r = some o →
    ∃ u : State, Gives (exec (.engErrorArrival r) s) u ∧ u = s.finishOp o.opTag r.status (if o.isRget then o.bytes else 0)) ∧
  (∀ (s : State) (r : Req) (rvTag offset length : Nat) (o : OpSlot), s.forwarding = true → s.slot rvTag = some o → o.d.op = 4 →
    o.isRget = false → o.result = none → offset + length ≤ o.d.length →
    ∃ u : State, Gives (exec (.rgetArrival r rvTag (s.instance_ o.inst).gen offset length) s) u ∧ u.pool = s.pool ∧
      (o.d.localHeap = true → u = s.sendHeapData r 0x16 o.inst (rvTag / 4096) (heapByte o.inst o.d.localAddr) offset (offset + length)
        (ceilDiv length 4096)) ∧
      (o.d.localHeap = false → (u.mec.reads.find s.mec.readCount).map (fun p => (p.inst, p.opcode, p.address, p.left)) =
        some (o.inst, 0x16, o.d.localAddr + offset, length))) ∧
  (∀ (s : State) (r : Rsp) (o : OpSlot) (m : Msg) (data : List Nat), s.forwarding = true → s.rspSlot r = some o →
    s.rgetMsg r.opTag = some m → o.isRget = true →
    ∃ u : State, Gives (exec (.rgetDataArrival r data) s) u ∧
      (o.bytes + data.length < o.d.length →
        u = (s.localWrite o r.dataOffset data).upSlot o.opTag fun x => { x with bytes := x.bytes + data.length }) ∧
      (o.d.length ≤ o.bytes + data.length →
        u = ((s.localWrite o r.dataOffset data).upSlot o.opTag fun x => { x with bytes := x.bytes + data.length }).rendezvousDone m o.opTag o.d.length)) ∧
  (∀ (s : State) (tag : Nat) (values : List Nat) (p : PendRead), s.mec.reads.find tag = some p → p.again = none → p.opcode = 0x11 →
    p.left ≤ p.part →
    ∃ u : State, Gives (exec (.hostReadCompletion tag values false false) s) u ∧ u.mec.reads.find tag = none ∧
      u = (s.readDone tag p.inst).sendData p.req 0x11 p.inst p.cluster p.offset p.source (values.take p.part)) ∧
  (∀ (s : State) (tag : Nat) (p : PendRead), s.mec.reads.find tag = some p → p.again = none → p.opcode = 0x11 → p.slot = none →
    ∃ u : State, Gives (exec (.hostCompletionTimeout tag) s) u ∧ u.mec.reads.find tag = none ∧
      u = (s.readDone tag p.inst).engError p.req p.cluster 0x17)

/-- Messages and receives meet in the matching unit (R356 to R363): a first packet without a receive becomes an unexpected message in the
order of its stream, a first packet with one is placed, and a receive without a message is posted.
Completion, in the conclusion: exec answers a next state, that of the command's own effect, on every state and operands that meet the
hypotheses, for each of receiveTake, sendEagerArrival, sendRtsArrival. -/
def Obligations.MatchingEventsTakeEffect : Prop :=
  (∀ (s : State) (r : Req) (dst context bits length : Nat) (data : List Nat), s.forwarding = true → s.mtc.ctxs = [] → s.mtc.msgs = [] →
    s.mtc.posted = [] → s.enabled dst = true → s.quotaRefusal dst 1 (heapUnits length) = none →
    ∃ u : State, Gives (exec (.sendEagerArrival r dst context 0 0 bits length data) s) u ∧
      (u.mtc.msgs.map fun m => (m.inst, m.context, m.msn, m.matchBits, m.length, m.unexpected)) = [(dst, context, 0, bits, length, true)] ∧
      (u.mtcCtx r.srcDevice r.srcInst).expected = 1 ∧ u.pool = s.pool) ∧
  (∀ (s : State) (r : Req) (dst context bits : Nat) (data : List Nat) (p : Posted), s.forwarding = true → s.mtc.ctxs = [] →
    s.mtc.msgs = [] → s.mtc.posted = [p] → s.enabled dst = true → p.inst = dst → p.d.context = context → p.d.matchBits = bits →
    p.d.anySource = true → data ≠ [] → data.length ≤ p.d.length →
    ∃ u : State, Gives (exec (.sendEagerArrival r dst context 0 0 bits data.length data) s) u ∧ u.mtc.msgs = [] ∧ u.mtc.posted = [] ∧
      (u.mtcCtx r.srcDevice r.srcInst).expected = 1) ∧
  (∀ (s : State) (r : Req) (dst context bits length : Nat), s.forwarding = true → s.mtc.ctxs = [] → s.mtc.msgs = [] → s.mtc.posted = [] →
    s.enabled dst = true → s.quotaRefusal dst 1 0 = none →
    ∃ u : State, Gives (exec (.sendRtsArrival r dst context 0 bits length) s) u ∧
      (u.mtc.msgs.map fun m => (m.inst, m.context, m.msn, m.matchBits, m.length, m.rendezvous, m.unexpected)) =
        [(dst, context, 0, bits, length, true, true)] ∧ (u.mtcCtx r.srcDevice r.srcInst).expected = 1 ∧ u.pool = s.pool) ∧
  (∀ (s : State) (queue bits : Nat) (d : RecvDesc) (x : RecvQueue), d = recvDescOf bits → s.forwarding = true → s.mec.recvQ.find queue = some x →
    s.enabled x.inst = true → (s.instance_ x.inst).bmeHeld = false → x.destroying = false → x.producer ≠ x.consumer → s.cqRoom x.cq = true →
    x.error = false → badRecv d = false → d.localHeap = false → (∀ m ∈ s.mtc.msgs, m.unexpected = false) → s.quotaRefusal x.inst 1 0 = none →
    ∃ u : State, Gives (exec (.receiveTake queue bits) s) u ∧
      (u.mtc.posted.map fun p => (p.inst, p.queue, p.d)) = (s.mtc.posted.map fun p => (p.inst, p.queue, p.d)) ++ [(x.inst, queue, d)] ∧
      u.mec.recvQ.find queue = some { x with consumer := (x.consumer + 1) % 65536, stalled := false } ∧ u.pool = s.pool)

/-- Collectives. The commands (R378 to R381, R395, R400 to R403): each, where the spec does not refuse it, completes or begins with its effect.
The events (R388 to R404): members that arrive, packets up and down the tree, and a group that has drained.
Where the specification gives an output no layout of its own, its bytes are the model's choice, log entry 22.
Completion, in the conclusion: exec answers a next state, that of the command's own effect, on every state and operands that meet the
hypotheses, for each of collGroupSet, collGroupRemove, collFence, collQuery, memberArrival, rdxUpArrival, rdxDownArrival, groupDrained. -/
def Obligations.CollectivesTakeEffect : Prop :=
  (∀ (s : State) (h : HlyHdr) (p : GroupP), s.runs h 0x0A01 (8 * p.children.length + 16 * p.members.length) 0 [.inst p.inst] = true →
    s.groupBad p = false → s.enabled p.inst = true → (∀ m ∈ p.members, s.enabled m.inst = true) → s.group p.group = none →
    (∀ m x, p.members[m]? = some x → s.memberServed p m x = true) → s.memberSlots + p.members.length ≤ 16384 →
    (s.engInst p.inst).heapUsed + areaUnits (areaOf p) ≤ 8192 * (s.engInst p.inst).heap → p.members ≠ [] →
    ∃ v : State, Answers (exec (.collGroupSet h p) s) v h 0x0A01 ∧
      ((v.group p.group).map fun g => (g.p, g.state, g.round, g.memberFenced, g.area)) = some (p, .collecting, 1, [], areaOf p) ∧
      (v.engInst p.inst).heapUsed = (s.engInst p.inst).heapUsed + areaUnits (areaOf p) ∧ v.pool = s.pool) ∧
  (∀ (s : State) (h : HlyHdr) (gid : Nat) (g : Group), s.runs h 0x0A02 0 0 [.group gid] = true → s.group gid = some g → g.state = .waiting →
    ∃ v : State, Starts (exec (.collGroupRemove h gid) s) v h 0x0A02 (.groupRemove gid) [.group gid] ∧
      ((v.group gid).map fun x => (x.removing, x.memberFenced, x.childFenced)) =
        some (true, List.range g.p.members.length, List.range g.p.children.length)) ∧
  (∀ (s : State) (h : HlyHdr) (gid index : Nat) (g : Group), s.runs h 0x0A03 0 0 [.group gid] = true → s.group gid = some g →
    g.state = .waiting → index < g.p.children.length → g.childFenced = [] →
    ∃ v : State, Answers (exec (.collFence h gid 1 index) s) v h 0x0A03 ∧
      ((v.group gid).map fun x => (x.childFenced, x.fenceNext, x.state)) = some ([index], true, .waiting)) ∧
  (∀ (s : State) (h : HlyHdr) (gid : Nat) (g : Group), s.group gid = some g → s.runs h 0x0A04 0 (20 + 4 * g.chunks) [] = true →
    Answers (exec (.collQuery h gid) s) (s.fetchCmd h) h 0x0A04 0 (groupImage g) ∧ (groupImage g).length = 20 + 4 * g.chunks) ∧
(∀ (s : State) (gid m : Nat) (values : List Nat) (failed poison : Bool) (g : Group) (x : MemberSlot), s.forwarding = true →
    s.group gid = some g → g.p.members[m]? = some x → g.state = .collecting → g.isFenced m = false → (g.input m).arrived = false →
    s.memberAt g m x g.round = true → readsMember g.p m = false →
    ∃ u : State, Gives (exec (.memberArrival gid m values failed poison) s) u ∧ u = s.countMember gid m []) ∧
  (∀ (s : State) (gid device inst sl round members offset : Nat) (poison : Bool) (values : List Nat) (g : Group), s.forwarding = true →
    s.group gid = some g → g.p.children = [{ device, inst, members }] → g.state = .collecting → g.round % 65536 = round →
    g.childFenced = [] →
    ∃ u : State, Gives (exec (.rdxUpArrival gid device inst sl round members false false offset poison values) s) u ∧
      u = s.takeUp gid g 0 members offset poison values) ∧
  (∀ (s : State) (gid device inst sl round members offset : Nat) (fenced arrival poison : Bool) (values : List Nat), s.forwarding = true →
    s.group gid = none →
    ∃ u : State, Gives (exec (.rdxUpArrival gid device inst sl round members fenced arrival offset poison values) s) u ∧
      u.rdx.groups = s.rdx.groups ∧ u.rdx.intStatus = setFlag s.rdx.intStatus 4 ∧ u.pool = s.pool) ∧
  (∀ (s : State) (gid round combined : Nat) (g : Group), s.forwarding = true → s.group gid = some g → g.state = .waiting →
    g.p.root = false → g.round % 65536 = round →
    ∃ u : State, Gives (exec (.rdxDownArrival gid round combined false 0 0 []) s) u ∧ u = s.downDone gid combined 0 []) ∧
  (∀ (s : State) (gid round combined status offset : Nat) (fenced : Bool) (values : List Nat), s.forwarding = true → s.group gid = none →
    ∃ u : State, Gives (exec (.rdxDownArrival gid round combined fenced status offset values) s) u ∧
      u.rdx.unknownDown = s.rdx.unknownDown + 1 ∧ u.rdx.intStatus = setFlag s.rdx.intStatus 4) ∧
  (∀ (s : State) (gid : Nat) (g : Group), s.group gid = some g → g.removing = true → g.state = .fenced → s.groupBusy gid = false →
    ∃ u : State, Gives (exec (.groupDrained gid) s) u ∧ u.group gid = none ∧ u.rdx.intStatus = setFlag s.rdx.intStatus 5 ∧
      (u.engInst g.p.inst).heapUsed = (s.engInst g.p.inst).heapUsed - areaUnits g.area)

/-- The commands of instances (R407 to R413, R418 to R427): each, where the spec does not refuse it, completes or begins with its effect.
Completion, in the conclusion: exec answers a next state, that of the command's own effect, on every state and operands that meet the
hypotheses, for each of instanceCreate, instanceSet, instanceReset, instanceDisable, dirtyLogSet, dirtyLogSwap, instanceQuery. -/
def Obligations.InstanceCommandsComplete : Prop :=
  (∀ (s : State) (h : HlyHdr) (inst link function resetMode drainTimeout vectors : Nat), s.runs h 0x0B01 0 0 [.inst inst] = true →
    1 ≤ inst → inst ≤ 1023 → link ≤ 31 → function ≤ 1023 → resetMode ≤ 1 → 1 ≤ drainTimeout → drainTimeout ≤ 300 → 1 ≤ vectors → vectors ≤ 64 →
    s.namesHostLink link = true → s.notFree inst = false → s.functionTaken link function = false → s.linkVectors link inst + vectors ≤ 4096 →
    ∃ v : State, Answers (exec (.instanceCreate h inst link function resetMode drainTimeout vectors) s) v h 0x0B01 ∧
      v.instance_ inst = { state := .enabled, gen := (s.instance_ inst).gen, retired := (s.instance_ inst).retired, squash := resetMode == 1, port := link, function, drainTimeout, vectors } ∧
      (∀ i, i ≠ inst → v.instance_ i = s.instance_ i) ∧ (v.ttc.meters.get inst {}).created = true) ∧
  (∀ (s : State) (h : HlyHdr) (inst cm resetMode drainTimeout vectors : Nat), s.runs h 0x0B02 0 0 [] = true → inst ≤ 1023 → resetMode ≤ 1 →
    1 ≤ drainTimeout → drainTimeout ≤ 300 → 1 ≤ vectors → vectors ≤ 64 → s.notFree inst = true →
    s.linkVectors (s.instance_ inst).port inst + vectors ≤ 4096 →
    ∃ v : State, Answers (exec (.instanceSet h inst cm resetMode drainTimeout vectors) s) v h 0x0B02 ∧
      v.instance_ inst = { s.instance_ inst with squash := pick cm 0 (resetMode == 1) (s.instance_ inst).squash, drainTimeout := pick cm 1 drainTimeout (s.instance_ inst).drainTimeout, vectors := pick cm 2 vectors (s.instance_ inst).vectors } ∧
      (∀ i, i ≠ inst → v.instance_ i = s.instance_ i)) ∧
  (∀ (s : State) (h : HlyHdr) (inst form : Nat), s.runs h 0x0B03 0 0 [] = true → 1 ≤ inst → inst ≤ 1023 → form ≤ 2 → s.notFree inst = true →
    (s.instance_ inst).state ≠ .resetting →
    ∃ v : State, Starts (exec (.instanceReset h inst form) s) v h 0x0B03 (.instReset inst) [.inst inst] ∧
      v = (s.fetchCmd h).startReset inst (form = 2 || (form = 0 && (s.instance_ inst).squash)) ∧
      (form = 1 → s.outstanding inst ≠ 0 → (v.instance_ inst).state = .resetting ∧ (v.instance_ inst).phase = .draining ∧
        (v.instance_ inst).gen = (s.instance_ inst).gen)) ∧
  (∀ (s : State) (h : HlyHdr) (inst : Nat), s.runs h 0x0B04 0 0 [.inst inst] = true → 1 ≤ inst → s.notFree inst = true → s.boundTo inst = false →
    ∃ v : State, Starts (exec (.instanceDisable h inst) s) v h 0x0B04 (.instDisable inst) [.inst inst] ∧
      v = (s.fetchCmd h).beginDisable inst) ∧
  (∀ (s : State) (h : HlyHdr) (inst baseA baseB rangeBase rangePages : Nat), s.runs h 0x0B05 0 0 [] = true → inst ≤ 1023 →
    baseA % 4096 = 0 → baseB % 4096 = 0 → rangeBase % 4096 = 0 → 1 ≤ rangePages → rangePages ≤ 4294967296 → s.notFree inst = true →
    (s.instance_ inst).log.swapping = false → (s.instance_ inst).log.disabling = false →
    ∃ v : State, Answers (exec (.dirtyLogSet h inst true baseA baseB rangeBase rangePages true) s) v h 0x0B05 ∧
      (v.instance_ inst).log.enabled = true ∧ (v.instance_ inst).log.activeB = false ∧ (v.instance_ inst).log.baseA = baseA ∧
      (v.instance_ inst).log.baseB = baseB ∧ (v.instance_ inst).log.rangeBase = rangeBase ∧ (v.instance_ inst).log.rangePages = rangePages ∧
      (v.instance_ inst).log.outOfRange = 0 ∧ (v.instance_ inst).state = (s.instance_ inst).state) ∧
  (∀ (s : State) (h : HlyHdr) (inst baseA baseB rangeBase rangePages : Nat) (inFunction : Bool), s.runs h 0x0B05 0 0 [] = true → inst ≤ 1023 →
    s.notFree inst = true → (s.instance_ inst).log.swapping = false → (s.instance_ inst).log.disabling = false →
    (s.instance_ inst).log.enabled = true →
    ∃ v : State, Starts (exec (.dirtyLogSet h inst false baseA baseB rangeBase rangePages inFunction) s) v h 0x0B05 (.logSwap inst) [] ∧
      (v.instance_ inst).log = { (s.instance_ inst).log with enabled := false, disabling := true }) ∧
  (∀ (s : State) (h : HlyHdr) (inst : Nat), s.runs h 0x0B06 0 0 [] = true → s.notFree inst = true → (s.instance_ inst).log.enabled = true →
    (s.instance_ inst).log.swapping = false → (s.instance_ inst).log.disabling = false →
    ∃ v : State, Starts (exec (.dirtyLogSwap h inst) s) v h 0x0B06 (.logSwap inst) [] ∧
      (v.instance_ inst).log = { (s.instance_ inst).log with activeB := !(s.instance_ inst).log.activeB, swapping := true, replyRange := (s.instance_ inst).log.outOfRange, outOfRange := 0 }) ∧
  (∀ (s : State) (h : HlyHdr) (inst : Nat), s.runs h 0x0B07 0 32 [] = true → inst ≤ 1023 → s.notFree inst = true →
    Answers (exec (.instanceQuery h inst) s) (s.fetchCmd h) h 0x0B07 0 (s.instanceImage inst) ∧ (s.instanceImage inst).length = 32)

/-- The steps of an instance's reset (R411, R415 to R419), the write-back of its dirty-page log (R423), and what the configuration writes of a
host do (R408, R428, R486).
Completion, in the conclusion: exec answers a next state, that of the command's own effect, on every state and operands that meet the
hypotheses, for each of functionLevelReset, vfEnableClear, busMasterEnableClear, msixUnmask, logSwapWritebackDone, resetDrainComplete,
drainTimeoutExpiry, generationWaitExpiry, resetForceExpiry, resetItemsDone, vfEnableSet, busMasterEnableSet. -/
def Obligations.InstanceEventsTakeEffect : Prop :=
  (∀ (s : State) (inst : Nat), (s.instance_ inst).phase = .draining → s.outstanding inst = 0 →
    ∃ u : State, Gives (exec (.resetDrainComplete inst) s) u ∧ u = s.genStep inst ∧
      ((s.retiredNow inst).contains (((s.instance_ inst).gen + 1) % 16) = true →
        (u.instance_ inst).phase = .genWait ∧ u.ins.intStatus = setFlag s.ins.intStatus 3)) ∧
  (∀ (s : State) (inst : Nat), (s.instance_ inst).phase = .draining → s.outstanding inst ≠ 0 →
    ∃ u : State, Gives (exec (.drainTimeoutExpiry inst) s) u ∧
      u = (((s.upInst inst fun n => { n with squashed := s.outstanding inst, timedOut := true }).upIns fun x => { x with intStatus := setFlag x.intStatus 1 }).raise 1088 (.inst inst)).genStep inst) ∧
  (∀ (s : State) (inst : Nat), (s.instance_ inst).phase = .genWait →
    ∃ u : State, Gives (exec (.generationWaitExpiry inst) s) u ∧ (u.instance_ inst).phase = .ending ∧
      (u.instance_ inst).gen = ((s.instance_ inst).gen + 1) % 16 ∧ (u.instance_ inst).state = (s.instance_ inst).state) ∧
  (∀ (s : State) (inst : Nat), (s.instance_ inst).phase = .ending → s.outstanding inst = 0 →
    ∃ u : State, Gives (exec (.resetItemsDone inst) s) u ∧ u = s.resetEnds inst) ∧
  (∀ (s t : State) (inst : Nat), (s.instance_ inst).state = .resetting → s.outstanding inst ≠ 0 →
    t = (((s.upInst inst fun n => { n with squashed := n.squashed + s.outstanding inst, forced := true }).upIns fun x => { x with intStatus := setFlag x.intStatus 2 }).endItems inst).raise 1089 (.inst inst) →
    (t.instance_ inst).phase = .ending →
    ∃ u : State, Gives (exec (.resetForceExpiry inst) s) u ∧ u = t.resetEnds inst) ∧
  (∀ (s : State) (inst : Nat), (s.instance_ inst).writesHeld = false → (s.instance_ inst).log.swapping = true → s.hly.progress = [] →
    ∃ u : State, Gives (exec (.logSwapWritebackDone inst) s) u ∧ (u.instance_ inst).log.swapping = false ∧
      (u.instance_ inst).log.swaps = ((s.instance_ inst).log.swaps + 1) % 2 ^ 32 ∧ u.ins.intStatus = setFlag s.ins.intStatus 4 ∧
      (if (s.instance_ inst).log.activeB then (u.instance_ inst).log.marksA else (u.instance_ inst).log.marksB) = []) ∧
  (∀ (s : State) (inst : Nat), 1 ≤ inst → s.reachable inst = true → s.awake = true → s.forwarding = true → (s.instance_ inst).state = .enabled →
    ∃ u : State, Gives (exec (.functionLevelReset inst) s) u ∧
      u = (((s.latchSrc (1024 + inst)).upInst inst fun n => { n with flr := true }).emit (.config inst false)).startReset inst (s.instance_ inst).squash) ∧
  (∀ (s : State) (link : Nat), s.awake = true → s.forwarding = true → s.namesHostLink link = true → (s.hostLink link).vfEnable = true →
    ∃ u : State, Gives (exec (.vfEnableClear link) s) u ∧
      u = (s.vfInstances link).foldl State.vfReset (s.upHostLink link fun l => { l with vfEnable := false })) ∧
  (∀ (s : State) (link n : Nat), s.awake = true → s.forwarding = true → s.namesHostLink link = true → n ≤ 1023 →
    ∃ u : State, Gives (exec (.vfEnableSet link n) s) u ∧ (u.hostLink link).vfEnable = true ∧ (u.hostLink link).numVfs = n ∧
      (∀ i, i ∈ s.vfInstances link → (u.icu.sources.get (1024 + i) {}).latch = true)) ∧
  (∀ (s : State) (inst : Nat), s.awake = true → s.forwarding = true → s.notFree inst = true →
    ∃ u : State, Gives (exec (.busMasterEnableClear inst) s) u ∧ u.instance_ inst = { s.instance_ inst with bmeHeld := true } ∧ u.out = s.out) ∧
  (∀ (s : State) (inst : Nat), s.awake = true → s.forwarding = true → s.notFree inst = true →
    ∃ u : State, Gives (exec (.busMasterEnableSet inst) s) u ∧ u.instance_ inst = { s.instance_ inst with bmeHeld := false, heldAcc := [] } ∧
      u.out.length = s.out.length + (s.instance_ inst).heldAcc.length) ∧
  (∀ (s : State) (inst vector : Nat), s.awake = true → s.forwarding = true → s.notFree inst = true → vector < (s.instance_ inst).vectors →
    (s.instance_ inst).bmeHeld = false → (s.msix.get inst {}).functionMask = false → ((s.msix.get inst {}).vectors.get vector {}).pending = true →
    ∃ u : State, Gives (exec (.msixUnmask inst vector false) s) u ∧ ((u.msix.get inst {}).vectors.get vector {}).masked = false ∧
      ((u.msix.get inst {}).vectors.get vector {}).pending = false ∧ u.out = .msix inst vector :: s.out)

/-- The commands of memory protection, debug and the interrupt controller (R470 to R485): each, where the spec does not refuse it, completes
or begins with its effect. DEBUG_UNLOCK is refused on a production part and has its effect on another (R480).
Where the specification gives an output no layout of its own, its bytes are the model's choice, log entry 22.
Completion, in the conclusion: exec answers a next state, that of the command's own effect, on every state and operands that meet the
hypotheses, for each of mpuRulesSet, mpuSwap, mpuQuery, debugUnlock, icuSet, icuQuery. -/
def Obligations.ProtectionCommandsComplete : Prop :=
  (∀ (s : State) (h : HlyHdr) (master set first count : Nat) (entries : List MpuRegion), s.runs h 0x0C01 (16 * count) 0 [] = true →
    masterExists master = true → set ≤ 1 → first ≤ 63 → 1 ≤ count → first + count ≤ 64 → entries.length = count →
    (∀ e ∈ entries, badEntry e = false) → (s.master master).activeB ≠ (set == 1) → (s.master master).swap = .idle →
    ∃ v : State, Answers (exec (.mpuRulesSet h master set first count entries) s) v h 0x0C01 ∧
      (v.master master).active = (s.master master).active ∧
      (set = 1 → (v.master master).setB = putEntries (s.master master).setB first entries) ∧
      (set = 0 → (v.master master).setA = putEntries (s.master master).setA first entries)) ∧
  (∀ (s : State) (h : HlyHdr) (master : Nat), s.runs h 0x0C02 0 0 [] = true → master = 255 ∨ masterExists master = true →
    (∀ m ∈ swapMasters master, (s.master m).swap = .idle) →
    ∃ v : State, Starts (exec (.mpuSwap h master) s) v h 0x0C02 (.mpuSwap master) [] ∧
      (∀ m ∈ swapMasters master, (v.master m).swap = .commit ∧ (v.master m).active = (s.master m).active)) ∧
  (∀ (s : State) (h : HlyHdr) (master : Nat), s.runs h 0x0C03 0 2248 [] = true → masterExists master = true →
    Answers (exec (.mpuQuery h master) s) (s.fetchCmd h) h 0x0C03 0 (s.mpuImage master) ∧ (s.mpuImage master).length = 2248) ∧
  (∀ (s : State) (h : HlyHdr) (serial nonce : Nat) (ok : Bool), s.runs h 0x0C04 0 0 [] = true →
    (Config.production = false → ∃ v : State, Answers (exec (.debugUnlock h 2 serial nonce ok) s) v h 0x0C04 ∧ v.mpu.unlocked = false ∧
      v.mpu.nonce = s.mpu.nonce) ∧
    (Config.production = true → exec (.debugUnlock h 2 serial nonce ok) s =
      .next ((s.fetchCmd h).complete h.src h.seq 0x0C04 h.interrupt false 0x0403 0 []).settle)) ∧
  (∀ (s : State) (h : HlyHdr) (serial nonce : Nat) (ok : Bool), s.runs h 0x0C04 0 32 [] = true →
    (Config.production = false → ∃ (v : State) (n : Nat), Answers (exec (.debugUnlock h 0 serial nonce ok) s) v h 0x0C04 0 (bytesLE 32 n) ∧
      v.mpu.nonce = some n ∧ v.mpu.unlocked = s.mpu.unlocked) ∧
    (Config.production = true → exec (.debugUnlock h 0 serial nonce ok) s =
      .next ((s.fetchCmd h).complete h.src h.seq 0x0C04 h.interrupt false 0x0403 0 []).settle)) ∧
  (∀ (s : State) (h : HlyHdr) (nonce : Nat), s.runs h 0x0C04 136 0 [] = true → s.mpu.nonce = some nonce →
    (Config.production = false → ∃ v : State, Answers (exec (.debugUnlock h 1 Config.serial nonce true) s) v h 0x0C04 ∧
      v.mpu.nonce = none ∧ v.mpu.unlocked = true) ∧
    (Config.production = true → exec (.debugUnlock h 1 Config.serial nonce true) s =
      .next ((s.fetchCmd h).complete h.src h.seq 0x0C04 h.interrupt false 0x0403 0 []).settle)) ∧
  (∀ (s : State) (h : HlyHdr) (first count priority mask threshold : Nat), s.runs h 0x0C05 0 0 [] = true → first ≤ 2047 → 1 ≤ count →
    first + count ≤ 2048 → priority ≤ 255 → mask ≤ 31 → threshold ≤ 255 →
    ∃ v : State, Answers (exec (.icuSet h 0 first count priority mask threshold) s) v h 0x0C05 ∧
      (∀ i, i < count → (v.icu.sources.get (first + i) {}).priority = priority ∧
        (v.icu.sources.get (first + i) {}).mask = BitVec.ofNat 5 mask ∧
        (v.icu.sources.get (first + i) {}).latch = (s.icu.sources.get (first + i) {}).latch) ∧ v.icu.cores = s.icu.cores) ∧
  (∀ (s : State) (h : HlyHdr) (core count priority mask threshold : Nat), s.runs h 0x0C05 0 0 [] = true → core ≤ 4 → 1 ≤ count →
    count ≤ 2044 → priority ≤ 255 → mask ≤ 31 → threshold ≤ 255 →
    ∃ v : State, Answers (exec (.icuSet h 1 core count priority mask threshold) s) v h 0x0C05 ∧
      (v.icu.cores.get core {}).threshold = threshold ∧ (v.icu.cores.get core {}).claims = (s.icu.cores.get core {}).claims ∧
      v.icu.sources = s.icu.sources) ∧
  (∀ (s : State) (h : HlyHdr) (first count : Nat), s.runs h 0x0C06 0 (4 * count) [] = true → first ≤ 2047 → 1 ≤ count → count ≤ 64 →
    first + count ≤ 2048 →
    ∃ out : List Nat, Answers (exec (.icuQuery h first count) s) (s.fetchCmd h) h 0x0C06 0 out ∧ out.length = 4 * count ∧
      out = (List.range count).flatMap fun i => bytesLE 4 (s.icuSourceReg (first + i)))

/-- A rule set's commit and its end (R477), violations popped (R475), and the claims, completions and software interrupts of the interrupt
controller (R483 to R488).
Completion, in the conclusion: exec answers a next state, that of the command's own effect, on every state and operands that meet the
hypotheses, for each of icuClaimRead, icuCompleteWrite, icuSwiWrite, mpuViolPop, mpuSwapCommit, mpuSwapRetire. -/
def Obligations.ProtectionEventsTakeEffect : Prop :=
  (∀ (s : State) (m : Nat), (s.master m).swap = .commit →
    ∃ u : State, Gives (exec (.mpuSwapCommit m) s) u ∧ (u.master m).activeB = !(s.master m).activeB ∧ (u.master m).swap = .retire ∧
      (u.master m).setA = (s.master m).setA ∧ (u.master m).setB = (s.master m).setB ∧ (∀ n, n ≠ m → u.master n = s.master n)) ∧
  (∀ (s : State) (m : Nat), (s.master m).swap = .retire → (s.master m).reads = [] → s.hly.progress = [] →
    ∃ u : State, Gives (exec (.mpuSwapRetire m) s) u ∧ (u.master m).swap = .idle ∧ (u.master m).activeB = (s.master m).activeB ∧
      u.mpu.intStatus = setFlag s.mpu.intStatus 3) ∧
  (∀ (s : State) (value : Word) (a : Violation) (l : List Violation), s.awake = true → s.mpu.viol = a :: l → value.getLsbD 0 = true →
    ∃ u : State, Gives (exec (.mpuViolPop value) s) u ∧ u.mpu.viol = l ∧ u.mpu.masters = s.mpu.masters ∧ (l = [] → u.mpu.lost = 0) ∧
      (l ≠ [] → u.mpu.lost = s.mpu.lost)) ∧
  (∀ (s : State) (core n : Nat), core ≤ 4 → s.claimable core = some n → (s.icu.cores.get core {}).claims.length < 8 →
    ∃ u : State, Gives (exec (.icuClaimRead core false) s) u ∧ u.out = .readData n :: s.out ∧
      (u.icu.sources.get n {}).claimed = some core ∧ (u.icu.sources.get n {}).latch = false ∧
      (u.icu.cores.get core {}).claims = n :: (s.icu.cores.get core {}).claims) ∧
  (∀ (s : State) (core : Nat), s.claimable core = none ∨ 8 ≤ (s.icu.cores.get core {}).claims.length →
    ∃ u : State, Gives (exec (.icuClaimRead core false) s) u ∧ u.out = .readData 0xFFF :: s.out ∧ u.icu = s.icu) ∧
  (∀ (s : State) (core n : Nat), n ∈ (s.icu.cores.get core {}).claims →
    ∃ u : State, Gives (exec (.icuCompleteWrite core n false) s) u ∧ (u.icu.sources.get n {}).claimed = none ∧
      n ∉ (u.icu.cores.get core {}).claims ∧ u.icu.badCompletes = s.icu.badCompletes) ∧
  (∀ (s : State) (core n : Nat), n ∉ (s.icu.cores.get core {}).claims →
    ∃ u : State, Gives (exec (.icuCompleteWrite core n false) s) u ∧ u.icu.sources = s.icu.sources ∧ u.icu.cores = s.icu.cores ∧
      u.icu.badCompletes = s.icu.badCompletes + 1) ∧
  (∀ (s : State) (value : Word), s.awake = true →
    ∃ u : State, Gives (exec (.icuSwiWrite value) s) u ∧
      (∀ c, c < 5 → (u.icu.sources.get (32 + c) {}).latch = (value.getLsbD c || (s.icu.sources.get (32 + c) {}).latch)) ∧
      (∀ n, n < 32 ∨ 36 < n → u.icu.sources.get n {} = s.icu.sources.get n {}))

/-- The commands of faults, spares and background work (R520 to R537): each, where the spec does not refuse it, completes or begins with its
effect.
Completion, in the conclusion: exec answers a next state, that of the command's own effect, on every state and operands that meet the
hypotheses, for each of faultSet, faultForce, faultClear, faultQuery, spareSwap, spareQuery, backgroundSet. -/
def Obligations.FaultCommandsComplete : Prop :=
  (∀ (s : State) (h : HlyHdr) (first count cm severity quietMs vector : Nat), s.runs h 0x0D01 0 0 [] = true → 1 ≤ count → count ≤ 2048 →
    first + count ≤ 2048 → severity ≤ 6 → quietMs ≤ 60000 → vector ≤ 63 →
    ∃ v : State, Answers (exec (.faultSet h first count cm severity quietMs vector) s) v h 0x0D01 ∧
      v.flt.quietMs = pick cm 1 quietMs s.flt.quietMs ∧ v.flt.vector = pick cm 2 vector s.flt.vector ∧
      (∀ n, faultKnown n = true → first ≤ n → n < first + count → v.severity n = pick cm 0 severity (s.severity n)) ∧
      (∀ n, n < first ∨ first + count ≤ n → v.severity n = s.severity n)) ∧
  (∀ (s : State) (h : HlyHdr) (source kind subject : Nat), s.runs h 0x0D02 0 0 [] = true → source ≤ 2047 → kind ≤ 2 → subject ≤ 1023 →
    (kind = 2 → subject ≤ 31) → faultKnown source = true →
    (∃ v : State, Answers (exec (.faultForce h source false kind subject) s) v h 0x0D02 ∧ (v.fault source).force = none ∧
      (v.fault source).unc = (s.fault source).unc) ∧
    (∃ v : State, Answers (exec (.faultForce h source true kind subject) s) v h 0x0D02 ∧
      (v.fault source).force = some (subjectOf kind subject))) ∧
  (∀ (s : State) (h : HlyHdr) (first count : Nat) (sticky : Bool), s.runs h 0x0D03 0 0 [] = true → 1 ≤ count → count ≤ 2048 →
    first + count ≤ 2048 →
    ∃ v : State, Answers (exec (.faultClear h first count sticky) s) v h 0x0D03 ∧
      (∀ n, first ≤ n → n < first + count → (s.fault n).active = false → (s.fault n).force = none → (v.fault n).unc = []) ∧
      (∀ n, first ≤ n → n < first + count → (v.fault n).sticky = (if sticky then false else (s.fault n).sticky)) ∧
      (∀ n, n < first ∨ first + count ≤ n → v.fault n = s.fault n)) ∧
  (∀ (s : State) (h : HlyHdr) (first count : Nat), s.runs h 0x0D04 0 (16 + 4 * count) [] = true → 1 ≤ count → count ≤ 256 →
    first + count ≤ 2048 →
    ∃ out : List Nat, Answers (exec (.faultQuery h first count) s) (s.fetchCmd h) h 0x0D04 0 out ∧ out.length = 16 + 4 * count) ∧
  (∀ (s : State) (h : HlyHdr) (kind unit : Nat), s.runs h 0x0D05 0 0 [] = true → 1 ≤ kind → kind ≤ 7 → unit < unitCount kind →
    s.spareFree kind unit = true → s.flt.swaps = [] → (kind, unit) ∉ s.flt.retired →
    ∃ v : State, Starts (exec (.spareSwap h kind unit) s) v h 0x0D05 (.spareSwap kind unit) [.spare kind unit] ∧
      v.flt.swaps = [{ kind, unit, commanded := true }] ∧ v.flt.spares = s.flt.spares) ∧
  (∀ (s : State) (h : HlyHdr) (kind : Nat), s.runs h 0x0D06 0 12 [] = true → 1 ≤ kind → kind ≤ 7 → kind ≠ 4 →
    12 + 4 * (s.flt.retired.filter fun r => r.1 == kind).length + 4 * (s.sparesUsed kind).length ≤ h.dataLength →
    ∃ out : List Nat, Answers (exec (.spareQuery h kind) s) (s.fetchCmd h) h 0x0D06 0 out ∧
      out.take 4 = bytesLE 4 (spareCount kind - (s.sparesUsed kind).length)) ∧
  (∀ (s : State) (h : HlyHdr) (cm hbm sram cal trend window auto : Nat), s.runs h 0x0D07 0 0 [] = true → 1 ≤ hbm → hbm ≤ 168 → 100 ≤ sram →
    sram ≤ 60000 → 10 ≤ cal → cal ≤ 10000 → 1 ≤ trend → trend ≤ 1000 → 1 ≤ window → window ≤ 1440 → auto ≤ 127 →
    ∃ v : State, Answers (exec (.backgroundSet h cm hbm sram cal trend window auto) s) v h 0x0D07 ∧
      v.flt.hbmPatrolH = pick cm 0 hbm s.flt.hbmPatrolH ∧ v.flt.sramPatrolMs = pick cm 1 sram s.flt.sramPatrolMs ∧
      v.flt.calPeriodMs = pick cm 2 cal s.flt.calPeriodMs ∧ v.flt.trendThreshold = pick cm 3 trend s.flt.trendThreshold ∧
      v.flt.trendWindowMin = pick cm 4 window s.flt.trendWindowMin ∧ v.flt.auto = pick cm 5 (BitVec.ofNat 7 auto) s.flt.auto)

/-- The events that raise faults, errors of memories, spares and background work (R521 to R536): the source that each names is raised with
its subject, and what else the event does is done.
Completion, in the conclusion: exec answers a next state, that of the command's own effect, on every state and operands that meet the
hypotheses, for each of spareSwapComplete, quietPeriodExpiry, trendFire, hbmUncorrectableError, sramUncorrectableError,
engineDuplicateFail, managementCoreWatchdog, calPeriod, directoryBankFailure, routeBankFailure, pseudoChannelFailure,
managementCoreFailure, ageingMonitorFlag, datapathError, shroudBridgeTimeout. -/
def Obligations.FaultEventsTakeEffect : Prop :=
  (∀ (s : State) (row : Nat), Gives (exec (.sramUncorrectableError row) s) (s.raise 1346 (.unit row))) ∧
  (∀ (s : State) (engine : Nat), engine ≤ 127 → Gives (exec (.engineDuplicateFail engine) s) (s.raise 897 (.unit engine))) ∧
  (∀ (s : State) (core : Nat), core ≤ 4 →
    (∃ u : State, Gives (exec (.managementCoreWatchdog core) s) u ∧ core ∈ u.mgc.coresFailed ∧
      u = (s.upMgc fun m => { m with coresFailed := addOnce m.coresFailed core }).raise 1729 (.unit core)) ∧
    (∃ u : State, Gives (exec (.managementCoreFailure core) s) u ∧ core ∈ u.mgc.coresFailed ∧
      u = (s.upMgc fun m => { m with coresFailed := addOnce m.coresFailed core }).raise 1728 (.unit core))) ∧
  (∀ (s : State) (bank : Nat), bank ≤ 31 → (s.dir.banks.get bank {}).moved = none →
    ∃ u : State, Gives (exec (.directoryBankFailure bank) s) u ∧ (u.dir.banks.get bank {}).failed = true ∧
      u = (s.upDir fun d => { d with banks := d.banks.upd bank {} fun b => { b with failed := true } }).raise 774 (.unit bank)) ∧
  (∀ (s : State) (tile bank : Nat), tile ≤ 3 → bank ≤ 1 → Gives (exec (.routeBankFailure tile bank) s) (s.raise 262 (.unit (2 * tile + bank)))) ∧
  (∀ (s : State) (channel : Nat), channel ≤ 63 → Gives (exec (.pseudoChannelFailure channel) s) (s.raise 834 (.unit channel))) ∧
  (∀ (s : State), Gives (exec .datapathError s) (s.raise 320)) ∧
  (∀ (s : State) (bridge : Nat), Gives (exec (.shroudBridgeTimeout bridge) s) (s.raise 1664)) ∧
  (∀ (s : State) (address owner : Nat), ∃ u : State, Gives (exec (.hbmUncorrectableError address owner true) s) u ∧
    address / 64 ∈ u.flt.poisonLines ∧ (s.hbmRegion address ≠ 1 → u =
      (s.upFlt fun f => { f with poisonLines := addOnce f.poisonLines (address / 64) }).raise 833 (.unit (Config.hbmRow address)))) ∧
  (∀ (s : State) (kind unit : Nat), kind ∈ [1, 2, 6, 7] → unit < unitCount kind → s.flt.halted = false →
    ∃ u : State, Gives (exec (.ageingMonitorFlag kind unit) s) u ∧ u = (s.raiseLevel 1344 (.unit unit)).wantSwap kind unit) ∧
  (∀ (s : State) (kind unit : Nat), s.flt.halted = false → 1 ≤ kind → kind ≤ 7 → unit < unitCount kind → s.flt.auto.getLsbD (kind - 1) = true →
    s.spareFree kind unit = true → s.flt.swaps = [] → s.flt.swapWait = [] → (kind, unit) ∉ s.flt.retired →
    ∃ u : State, Gives (exec (.trendFire kind unit) s) u ∧ u.flt.swaps = [{ kind, unit, commanded := false }]) ∧
  (∀ (s : State) (kind unit : Nat) (c : Bool), s.flt.halted = false → s.flt.swaps = [{ kind, unit, commanded := c }] → s.flt.swapWait = [] →
    ∃ u : State, Gives (exec (.spareSwapComplete kind unit) s) u ∧ u.flt.swaps = [] ∧
      u.flt.spares = s.flt.spares ++ [(kind, spareNumber kind unit, unit)] ∧ u.flt.intStatus = setFlag s.flt.intStatus 2) ∧
  (∀ (s : State), s.flt.quietMs ≠ 0 → s.flt.halted = false → (∃ e ∈ s.flt.sources, ∃ x ∈ e.2.unc, recoverable x.2 = true) →
    (∀ e ∈ s.flt.sources, e.2.active = false ∧ e.2.force = none) →
    ∃ u : State, Gives (exec .quietPeriodExpiry s) u ∧ u.flt.recoveries = satAdd 32 s.flt.recoveries 1 ∧
      (∀ n x, x ∈ (u.fault n).unc → recoverable x.2 = false)) ∧
  (∀ (s : State), s.pwr.mode ≠ .stormJib → s.pwr.mode ≠ .barePoles →
    ∃ u : State, Gives (exec .calPeriod s) u ∧ u.flt.calibrations = s.flt.calibrations + 1 ∧ u.flt.sources = s.flt.sources)

/-- What raising a fault does (R520 to R524): with an effective severity that is not 0 the source's sticky bit is set, the severity is
recorded, and at severity 2 and above the fault stays uncleared with its subject. -/
def Obligations.RaisedFaultIsNoted : Prop :=
  ∀ (s : State) (src : Nat) (subj : Subject), faultKnown src = true → effectiveSeverity (s.severity src) subj ≠ 0 →
    ((s.raise src subj).fault src).sticky = true ∧ ((s.raise src subj).fault src).effective = effectiveSeverity (s.severity src) subj ∧
    (2 ≤ effectiveSeverity (s.severity src) subj →
      (subj, effectiveSeverity (s.severity src) subj) ∈ ((s.raise src subj).fault src).unc ∧ (s.raise src subj).faultN = true) ∧
    (∀ n, n ≠ src → (s.raise src subj).fault n = s.fault n) ∧ (s.raise src subj).pool = s.pool

/-- The commands of observation (R540 to R554): each, where the spec does not refuse it, completes or begins with its effect.
Completion, in the conclusion: exec answers a next state, that of the command's own effect, on every state and operands that meet the
hypotheses, for each of ttcSet, dumpSet, probeSet, probeQuery, mtrSet. -/
def Obligations.ObservationCommandsComplete : Prop :=
  (∀ (s : State) (h : HlyHdr) (block counter event period : Nat), s.runs h 0x0E01 0 0 [] = true → block ≤ 27 → counter ≤ 7 →
    eventOf block event = true → period < 2 ^ 32 → (period ≠ 0 → block = 14) → s.ttc.programmable = true →
    ∃ v : State, Answers (exec (.ttcSet h block counter event period) s) v h 0x0E01 ∧
      v.ttc.counters.get (8 * block + counter) {} =
        { s.ttc.counters.get (8 * block + counter) {} with event := some event, period, countdown := [] } ∧
      (∀ k, k ≠ 8 * block + counter → v.ttc.counters.get k {} = s.ttc.counters.get k {})) ∧
  (∀ (s : State) (h : HlyHdr) (stream cm interval base slots vector : Nat), s.runs h 0x0E02 0 0 [] = true → stream ≤ 1 → interval ≤ 60000 →
    base % 4096 = 0 → 2 ≤ slots → slots ≤ 64 → vector ≤ 63 → (s.stream stream).interval = 0 → (s.stream stream).pending = none →
    ∃ v : State, Answers (exec (.dumpSet h stream cm interval base slots vector true) s) v h 0x0E02 ∧
      (v.stream stream).interval = pick cm 0 interval (s.stream stream).interval ∧
      (v.stream stream).base = pick cm 1 base (s.stream stream).base ∧ (v.stream stream).slots = pick cm 2 slots (s.stream stream).slots ∧
      (v.stream stream).vector = pick cm 3 vector (s.stream stream).vector ∧ (v.stream stream).staged = (s.stream stream).staged) ∧
  (∀ (s : State) (h : HlyHdr) (stream cm interval base slots vector : Nat), s.runs h 0x0E02 0 0 [] = true → stream ≤ 1 → interval ≤ 60000 →
    vector ≤ 63 → cmBit cm 1 = false → cmBit cm 2 = false → (s.stream stream).interval ≠ 0 → (s.stream stream).pending = none →
    ∃ v : State, Answers (exec (.dumpSet h stream cm interval base slots vector true) s) v h 0x0E02 ∧
      (v.stream stream).interval = (s.stream stream).interval ∧
      (v.stream stream).pending = some (pick cm 0 interval (s.stream stream).interval, (s.stream stream).base, (s.stream stream).slots,
        pick cm 3 vector (s.stream stream).vector)) ∧
  (∀ (s : State) (h : HlyHdr) (probe bridge action source destination kinds addr mask records : Nat), s.runs h 0x0E03 0 0 [] = true → probe ≤ 7 →
    bridge ≤ 255 → action ≤ 3 → source ≤ 31 → destination ≤ 31 → kinds ≤ 31 → 1 ≤ records → records ≤ 65536 →
    s.traceBytes probe + 32 * records ≤ 67108864 →
    (Config.bridgeExists bridge = true → ∃ v : State,
      Answers (exec (.probeSet h probe bridge action source destination kinds addr mask records) s) v h 0x0E03 ∧
      v.probe probe = { action, bridge, source, destination, kindMask := BitVec.ofNat 5 kinds, matchAddr := BitVec.ofNat 64 addr, mask := BitVec.ofNat 64 mask, records } ∧
      (∀ p, p ≠ probe → v.probe p = s.probe p)) ∧
    (Config.bridgeExists bridge = false →
      exec (.probeSet h probe bridge action source destination kinds addr mask records) s =
        .next ((s.fetchCmd h).complete h.src h.seq 0x0E03 h.interrupt false 0x012A 0 []).settle)) ∧
  (∀ (s : State) (h : HlyHdr) (probe first count : Nat), s.runs h 0x0E04 0 (24 + 32 * count) [] = true → probe ≤ 7 → first ≤ 65535 →
    count ≤ 4096 →
    Answers (exec (.probeQuery h probe first count) s) (s.fetchCmd h) h 0x0E04 0 (probeImage (s.probe probe) first count) ∧
      (probeImage (s.probe probe) first count).length = 24 + 32 * count) ∧
  (∀ (s : State) (h : HlyHdr) (action inst : Nat), s.runs h 0x0E05 0 0 [] = true → action ≤ 1 → inst ≤ 1023 → s.notFree inst = true →
    (s.stream 1).slots ≠ 0 →
    ∃ v : State, Starts (exec (.mtrSet h action inst) s) v h 0x0E05 (.dump (s.stream 1).sequence) [] ∧
      (v.stream 1).staged.length = (s.stream 1).staged.length + 1 ∧ (v.stream 1).sequence = ((s.stream 1).sequence + 1) % 2 ^ 32)

/-- The events of observation (R541 to R553): accumulation, sampling, snapshots and their slots, probes and trace records.
How much an operation adds to engine_busy_ns, and when a millisecond is charged, are the model's choice, log entries 112 and 113.
Completion, in the conclusion: exec answers a next state, that of the command's own effect, on every state and operands that meet the
hypotheses, for each of dumpInterval, dumpSlotWritten, counterAccumulate, sampleCountdownZero, probeMatch, traceRecordTimeout,
meteringSlotWaitTimeout. -/
def Obligations.ObservationEventsTakeEffect : Prop :=
  (∀ (s : State), s.ttc.programmable = true →
    ∃ u : State, Gives (exec .counterAccumulate s) u ∧ (∀ k, (u.ttc.counters.get k {}).local_ = 0 ∧
      (u.ttc.counters.get k {}).value = (s.ttc.counters.get k {}).total)) ∧
  (∀ (s : State) (engine counter pc : Nat), s.ttc.programmable = true → counter ≤ 7 → engine ≤ 127 →
    (s.ttc.counters.get (112 + counter) {}).period ≠ 0 →
    ∃ u : State, Gives (exec (.sampleCountdownZero engine counter pc) s) u ∧
      (u.ttc.counters.get (112 + counter) {}).sampled.get engine 0 = pc ∧
      (u.ttc.counters.get (112 + counter) {}).countdown.get engine 0 = (s.ttc.counters.get (112 + counter) {}).period ∧
      (u.icu.sources.get (64 + engine) {}).latch = true) ∧
  (∀ (s : State) (stream : Nat), stream ≤ 1 → s.pwr.lost = false → s.pwr.mode ≠ .barePoles → s.pwr.mode ≠ .stormJib →
    (s.stream stream).pending = none → (s.stream stream).interval ≠ 0 → (s.stream stream).hasRoom = true →
    ∃ u : State, Gives (exec (.dumpInterval stream []) s) u ∧ (u.stream stream).staged.length = (s.stream stream).staged.length + 1 ∧
      (u.stream stream).sequence = ((s.stream stream).sequence + 1) % 2 ^ 32 ∧ (u.stream stream).lost = (s.stream stream).lost) ∧
  (∀ (s : State) (stream : Nat), stream ≤ 1 → s.pwr.lost = false → s.pwr.mode ≠ .barePoles → s.pwr.mode ≠ .stormJib →
    (s.stream stream).pending = none → (s.stream stream).interval ≠ 0 → (s.stream stream).hasRoom = false →
    ∃ u : State, Gives (exec (.dumpInterval stream []) s) u ∧ (u.stream stream).staged = (s.stream stream).staged ∧
      (u.stream stream).lost = ((s.stream stream).lost + 1) % 2 ^ 32 ∧
      (u.stream stream).sequence = ((s.stream stream).sequence + 1) % 2 ^ 32) ∧
  (∀ (s : State) (stream : Nat) (snap : Snapshot) (rest : List Snapshot), stream ≤ 1 → s.pwr.lost = false → s.pwr.mode ≠ .barePoles →
    s.pwr.mode ≠ .stormJib → (s.stream stream).staged = snap :: rest → (s.stream stream).slotFree = true → snap.final = none →
    ∃ u : State, Gives (exec (.dumpSlotWritten stream []) s) u ∧ (u.stream stream).staged = rest ∧
      (u.stream stream).full = (s.stream stream).full ++ [(s.stream stream).next] ∧
      (u.stream stream).next = ((s.stream stream).next + 1) % (s.stream stream).slots ∧ .dump stream (s.stream stream).next snap.image ∈ u.out) ∧
  (∀ (s : State) (inst : Nat), (s.instance_ inst).meteringWait = true → s.hly.progress = [] →
    ∃ u : State, Gives (exec (.meteringSlotWaitTimeout inst) s) u ∧ (u.instance_ inst).state = .free ∧
      (u.instance_ inst).gen = (s.instance_ inst).gen ∧ (u.stream 1).lost = ((s.stream 1).lost + 1) % 2 ^ 32) ∧
  (∀ (s : State) (bridge source destination kind address length p : Nat) (direction : Bool),
    probeHits (s.probe p) bridge source destination kind address = true → (s.probe p).action = 1 →
    ∃ u : State, Gives (exec (.probeMatch bridge source destination kind address length direction) s) u ∧
      (u.probe p).matches_ = ((s.probe p).matches_ + 1) % 2 ^ 64 ∧ (u.probe p).bytes = ((s.probe p).bytes + length) % 2 ^ 64 ∧
      (u.probe p).traceWait = (s.probe p).traceWait ∧
      (∀ q, probeHits (s.probe q) bridge source destination kind address = false → u.probe q = s.probe q)) ∧
  (∀ (s : State) (p r : Nat) (rest : List Nat), (s.probe p).traceWait = r :: rest →
    ∃ u : State, Gives (exec (.traceRecordTimeout p) s) u ∧ u.probe p = { s.probe p with traceWait := rest, dropped := (s.probe p).dropped + 1 })

/-- The commands of firmware, resets and leaving a fabric (R564, R570, R572): each, where the spec does not refuse it, completes or begins with its
effect. Then resets, power of the masthead, and the steps of a boot (R557 to R567, R587).
What becomes of the feeds and slots at a cold reset by command and at the loss of the auxiliary supply follows log entries 57 and 58.
Completion, in the conclusion: exec answers a next state, that of the command's own effect, on every state and operands that meet the
hypotheses, for each of fwWrite, fwActivate, deviceReset, fabricLeave, deviceResetEffect, coldReset, vauxLoss, warmReset,
managementComplexReset, imageCheckDone, bootReady, perst0Deassertion, vaux33Rise, jtagInstructionUpdate. -/
def Obligations.BootAndResetsTakeEffect : Prop :=
  (∀ (s : State) (h : HlyHdr) (slot offset : Nat) (final : Bool) (data : List Nat), s.runs h 0x0F01 data.length 0 [] = true → slot ≤ 1 →
    offset % 4096 = 0 → offset + data.length ≤ 33554432 → s.runningSlot slot = false →
    ∃ v : State, Answers (exec (.fwWrite h slot offset final data) s) v h 0x0F01 ∧
      (v.mgc.flashSlot slot).pieces = (offset, data) :: (s.mgc.flashSlot slot).pieces ∧ (v.mgc.flashSlot slot).filling = !final ∧
      (v.mgc.flashSlot slot).ok = none ∧ v.mgc.flashSlot (1 - slot) = s.mgc.flashSlot (1 - slot)) ∧
  (∀ (s : State) (h : HlyHdr) (slot : Nat) (raiseFloor : Bool), s.runs h 0x0F02 0 0 [] = true → slot ≤ 1 →
    (s.mgc.flashSlot slot).filling = false → (s.imageOk slot).1 = true → s.floor ≤ (s.imageOk slot).2 →
    (raiseFloor = true → s.mgc.fusesUsed < 32) → s.mgc.pendingReset = none →
    ∃ v : State, Answers (exec (.fwActivate h slot 0 raiseFloor) s) v h 0x0F02 ∧ v.mgc.activation = slot ∧
      v.floor = (if raiseFloor then (s.imageOk slot).2 else s.floor) ∧
      v.mgc.fusesUsed = s.mgc.fusesUsed + (if raiseFloor then 1 else 0) ∧ v.mgc.pendingReset = none) ∧
  (∀ (s : State) (h : HlyHdr) (kind : Nat), s.runs h 0x0F03 0 0 [] = true → kind ≤ 2 →
    ∃ v : State, Answers (exec (.deviceReset h kind) s) v h 0x0F03 ∧ v.mgc.pendingReset = some { kind, trigger := 1 } ∧
      v.rte = s.rte ∧ v.pool = s.pool) ∧
  (∀ (s : State) (h : HlyHdr) (force : Bool), s.runs h 0x0F04 0 0 [] = true → s.rte.valid = true →
    force = true ∨ (s.adm.contracts = [] ∧ s.adm.resvs = [] ∧ s.rte.trees = [] ∧ s.rdx.groups = []) →
    ∃ v : State, Starts (exec (.fabricLeave h force) s) v h 0x0F04 (.portMode 32) ((List.range 32).map Obj.port) ∧
      v.rte.valid = false ∧ v.mgc.leaving = true ∧ (∀ p, p < 32 → s.isNative p = true → (v.port p).draining = s.linkUp p)) ∧
(∀ (s : State) (r : PendingReset), s.mgc.pendingReset = some r → s.pwr.lost = false →
    ∃ u : State, Gives (exec .deviceResetEffect s) u ∧ u = s.takeReset r.kind r.trigger) ∧
  (∀ (s : State) (insdly : Nat) (straps : MgmtStraps) (failed baselines : List Nat), s.mgc.vaux = true → s.mgc.pendingReset = none →
    s.mgc.trigger ≠ 5 →
    ∃ u : State, Gives (exec (.coldReset insdly straps failed baselines) s) u ∧ u.mgc.resetKind = 0 ∧ u.mgc.trigger = 0 ∧
      u.mgc.warmCount = 0 ∧ u.pwr.insdly = insdly % 4 ∧ u.mgc.smbAddr = straps.smbaddr % 8 ∧ u.mgc.ppsSel = straps.ppssel % 2 ∧
      u.mgc.flash = straps.flash % 2 ∧ u.pool = State.reset.pool ∧ u.adm = State.reset.adm ∧ u.rte = State.reset.rte ∧ u.pending = s.pending ∧
      (∀ l, l < 288 → l ∈ failed → (u.lane l).calibFailed = true ∧ (u.fault 3).sticky = true) ∧
      (∀ l, l < 288 → l ∉ failed → (u.lane l).calibFailed = false) ∧
      (∀ l, l < 288 → (u.lane l).baseline = baselines.getD l 0 % 2 ^ 32)) ∧
  (∀ (s : State), ∃ u : State, Gives (exec .vauxLoss s) u ∧ u.mgc.vaux = false ∧ u.mgc.trigger = 5 ∧ u.mgc.activation = s.mgc.activation ∧
    u.mgc.floor = s.mgc.floor ∧ u.pwr.lost = true ∧ u.flt.sources = [] ∧ u.pool = State.reset.pool ∧ u.pending = s.pending) ∧
  (∀ (s : State) (insdly smbaddr ppssel flash : Nat), s.mgc.vaux = false →
    ∃ u : State, Gives (exec (.vaux33Rise insdly smbaddr ppssel flash) s) u ∧ u.mgc.vaux = true ∧ u.pwr.insdly = insdly % 4 ∧
      u.mgc.smbAddr = smbaddr % 8 ∧ u.mgc.ppsSel = ppssel % 2 ∧ u.mgc.flash = flash % 2) ∧
  (∀ (s : State) (trigger : Nat), s.pwr.mode ≠ .barePoles → s.pwr.lost = false →
    ∃ u : State, Gives (exec (.warmReset trigger) s) u ∧ u.mgc.resetKind = 2 ∧ u.mgc.trigger = trigger ∧
      u.mgc.warmCount = satAdd 16 s.mgc.warmCount 1 ∧ u.ttc.counts = s.ttc.counts ∧ u.flt.recoveries = s.flt.recoveries ∧
      u.pool = State.reset.pool ∧ u.mec = State.reset.mec ∧ u.pending = s.pending ∧ (trigger = 2 → u.mgc.perst0 = true)) ∧
  (∀ (s : State) (trigger : Nat), s.pwr.mode ≠ .barePoles → s.pwr.lost = false →
    ∃ u : State, Gives (exec (.managementComplexReset trigger) s) u ∧ u.mgc.mgmtReset = true ∧ u.mgc.resetKind = 3 ∧
      u.mgc.warmCount = satAdd 16 s.mgc.warmCount 1 ∧ u.mpu.unlocked = false ∧ u.mpu.nonce = none ∧ u.pool = s.pool ∧ u.rte = s.rte ∧
      u.obf = s.obf ∧ u.trn = s.trn) ∧
  (∀ (s : State) (version fwVersion : Nat), s.hly.fwState = .booting → s.mgc.stage ≠ .fwStart → s.mgc.triedFirst = false →
    s.mgc.activation ≤ 1 → s.floor ≤ version →
    ∃ u : State, Gives (exec (.imageCheckDone s.mgc.activation true version fwVersion) s) u ∧ u.mgc.stage = .fwStart ∧
      u.hly.fwImage = s.mgc.activation ∧ u.hly.fwVersion = fwVersion % 2 ^ 24 ∧ (u.mgc.flashSlot s.mgc.activation).ok = some true) ∧
  (∀ (s : State) (version fwVersion : Nat), s.hly.fwState = .booting → s.mgc.stage ≠ .fwStart → s.mgc.triedFirst = false →
    ∃ u : State, Gives (exec (.imageCheckDone s.mgc.activation false version fwVersion) s) u ∧ u.mgc.triedFirst = true ∧
      u.hly.fwState = .booting) ∧
  (∀ (s : State), s.hly.fwState = .booting → s.mgc.stage = .fwStart → s.mgc.mgmtReset = true → s.mgc.flrWait = false → s.hly.progress = [] →
    ∃ u : State, Gives (exec .bootReady s) u ∧ u.hly.fwState = .running ∧ u.mgc.stage = .ready ∧ u.mgc.mgmtReset = false ∧ u.rte = s.rte) ∧
  (∀ (s : State), s.hly.fwState = .booting → s.mgc.stage = .fwStart → s.mgc.mgmtReset = false →
    ∃ u : State, Gives (exec .bootReady s) u ∧ u.hly.fwState = .running ∧ .config 0 true ∈ u.out) ∧
  (∀ (s : State), s.pwr.mode ≠ .barePoles → s.pwr.lost = false →
    ∃ u : State, Gives (exec .perst0Deassertion s) u ∧ u.mgc.perst0 = false ∧ (u.port 0).train = .sync ∧ (u.port 1).train = .sync) ∧
  (∀ (s : State) (instruction : Nat), s.pwr.mode ≠ .stormJib → s.pwr.mode ≠ .barePoles → s.pwr.lost = false → instruction ≤ 8 →
    ∃ u : State, Gives (exec (.jtagInstructionUpdate instruction) s) u ∧
      (instruction < 3 ∨ instruction = 8 ∨ s.testState = true → u.mgc.tap = instruction) ∧
      (3 ≤ instruction → instruction ≤ 7 → s.testState = false → u.mgc.tap = 0))

/-- Accesses of the host to the registers (R13 to R16, R92, R435, R469): reads that latch, accesses that reach no register, and a write.
Completion, in the conclusion: exec answers a next state, that of the command's own effect, on every state and operands that meet the
hypotheses, for each of ftuTimeLoRead, reg64LowHalfRead, bar0IllegalAccess, bar0UnmappedAccess, registerWrite. -/
def Obligations.RegisterAccessesTakeEffect : Prop :=
  (∀ (s : State), s.awake = true →
    ∃ u : State, Gives (exec .ftuTimeLoRead s) u ∧ u.out = .readData (s.ftu.time % 2 ^ 32) :: s.out ∧ u.ftu.timeHi = s.ftu.time / 2 ^ 32 ∧
      u.ftu.time = s.ftu.time) ∧
  (∀ (s : State) (block offset v : Nat), s.awake = true → block < 28 → offset < 0x40000 → s.reg64 block offset = some v →
    ∃ u : State, Gives (exec (.reg64LowHalfRead block offset) s) u ∧ u.out = .readData (v % 2 ^ 32) :: s.out ∧
      u.latches.head? = some { block, offset, upper := v / 2 ^ 32 } ∧ u.pwr = s.pwr) ∧
  (∀ (s : State), s.awake = true →
    (∃ u : State, Gives (exec (.bar0IllegalAccess false) s) u ∧ u.out = .readData 0 :: s.out ∧ u.hly = s.hly) ∧
    (∃ u : State, Gives (exec (.bar0IllegalAccess true) s) u ∧ u.out = s.out ∧ u.hly = s.hly)) ∧
  (∀ (s : State) (address : Nat), s.awake = true → ((windowOf address).any fun w => s.holdsReg w.1 w.2) = false →
    (∃ u : State, Gives (exec (.bar0UnmappedAccess { address, write := false }) s) u ∧ u.out = .readData 0 :: s.out ∧ u.hly = s.hly) ∧
    (∃ u : State, Gives (exec (.bar0UnmappedAccess { address, write := true }) s) u ∧ u.out = s.out ∧ u.hly = s.hly)) ∧
  (∀ (s : State) (window offset : Nat) (value : Word), s.awake = true → 28 ≤ window →
    ∃ u : State, Gives (exec (.registerWrite window offset value) s) u ∧ u.out = s.out ∧ u.hly = s.hly ∧ u.rte = s.rte) ∧
  (∀ (s : State) (value : Word), s.awake = true →
    (∃ u : State, Gives (exec (.registerWrite 2 0x10 value) s) u ∧ u.lnk.intStatus = s.lnk.intStatus &&& ~~~(value.setWidth 5) ∧
      u.lnk.intEnable = s.lnk.intEnable) ∧
    (∃ u : State, Gives (exec (.registerWrite 2 0x14 value) s) u ∧ u.lnk.intEnable = value.setWidth 5 ∧
      u.lnk.intStatus = s.lnk.intStatus) ∧
    (∃ u : State, Gives (exec (.registerWrite 18 0x10 value) s) u ∧ u.hly.intStatus = s.hly.intStatus &&& ~~~(value.setWidth 5) ∧
      u.hly.queues = s.hly.queues) ∧
    (∀ q, q ≤ 7 → s.queueOpen q = true → ∃ u : State, Gives (exec (.registerWrite 18 (0x100 + 32 * q) value) s) u ∧
      (u.hq q).cmdBase = ((s.hq q).cmdBase &&& 0xFFFFFFFF00000000) ||| (value.setWidth 64 &&& 0xFFFFF000)) ∧
    (∀ q, q ≤ 7 → s.queueOpen q = false → ∃ u : State, Gives (exec (.registerWrite 18 (0x100 + 32 * q) value) s) u ∧ u.hq q = s.hq q))

/-- A query leaves everything but the record of commands and what carries its answer (R594, R595): it changes no setting, no memory and no
other part of the device. A value that the specification leaves open advances the counter of free values. -/
def Obligations.QueriesLeaveTheRest : Prop :=
  (∀ (s : State) (h : HlyHdr), s.calm = true → LeavesBut (exec (.nop h) s) s (replyParts h)) ∧
  (∀ (s : State) (h : HlyHdr), s.calm = true → LeavesBut (exec (.deviceQuery h) s) s (replyParts h)) ∧
  (∀ (s : State) (h : HlyHdr) (port : Nat), s.calm = true → LeavesBut (exec (.linkQuery h port) s) s (replyParts h)) ∧
  (∀ (s : State) (h : HlyHdr) (peer inst cls half : Nat), s.calm = true → LeavesBut (exec (.trnQuery h peer inst cls half) s) s
    (replyParts h)) ∧
  (∀ (s : State) (h : HlyHdr) (port : Nat), s.calm = true → LeavesBut (exec (.laneQuery h port) s) s (replyParts h)) ∧
  (∀ (s : State) (h : HlyHdr) (account : Nat), s.calm = true → LeavesBut (exec (.bufferQuery h account) s) s (replyParts h)) ∧
  (∀ (s : State) (h : HlyHdr) (resource index : Nat), s.calm = true → LeavesBut (exec (.arbQuery h resource index) s) s (replyParts h)) ∧
  (∀ (s : State) (h : HlyHdr) (channel : Nat), s.calm = true → LeavesBut (exec (.pwrQuery h channel) s) s (replyParts h)) ∧
  (∀ (s : State) (h : HlyHdr) (slot : Nat), s.calm = true → LeavesBut (exec (.slotQuery h slot) s) s (replyParts h)) ∧
  (∀ (s : State) (h : HlyHdr) (first count : Nat), s.calm = true → LeavesBut (exec (.faultQuery h first count) s) s (replyParts h)) ∧
  (∀ (s : State) (h : HlyHdr) (contractId : Nat), s.calm = true → LeavesBut (exec (.contractQuery h contractId) s) s (replyParts h)) ∧
  (∀ (s : State) (h : HlyHdr), s.calm = true → LeavesBut (exec (.discover h) s) s (replyParts h)) ∧
  (∀ (s : State) (h : HlyHdr) (handle count : Nat), s.calm = true → LeavesBut (exec (.extentQuery h handle count) s) s (replyParts h)) ∧
  (∀ (s : State) (h : HlyHdr) (kind index : Nat), s.calm = true → LeavesBut (exec (.engQuery h kind index) s) s (replyParts h)) ∧
  (∀ (s : State) (h : HlyHdr) (target output sl queue : Nat), s.calm = true → LeavesBut (exec (.egsQuery h target output sl queue) s) s
    (.egs :: (replyParts h))) ∧
  (∀ (s : State) (h : HlyHdr) (group : Nat), s.calm = true → LeavesBut (exec (.collQuery h group) s) s (replyParts h)) ∧
  (∀ (s : State) (h : HlyHdr) (inst : Nat), s.calm = true → LeavesBut (exec (.instanceQuery h inst) s) s (replyParts h)) ∧
  (∀ (s : State) (h : HlyHdr) (master : Nat), s.calm = true → LeavesBut (exec (.mpuQuery h master) s) s (replyParts h)) ∧
  (∀ (s : State) (h : HlyHdr) (first count : Nat), s.calm = true → LeavesBut (exec (.icuQuery h first count) s) s (replyParts h)) ∧
  (∀ (s : State) (h : HlyHdr) (probe first count : Nat), s.calm = true → LeavesBut (exec (.probeQuery h probe first count) s) s
    (replyParts h)) ∧
  (∀ (s : State) (h : HlyHdr) (kind : Nat), s.calm = true → LeavesBut (exec (.spareQuery h kind) s) s (.freeCount :: (replyParts h))) ∧
  (∀ (s : State) (h : HlyHdr) (window extentIndex lineIndex : Nat), s.calm = true → LeavesBut (exec (.dirQuery h window extentIndex
    lineIndex) s) s (.freeCount :: (replyParts h)))

/-- A setting changes its own block and what carries its answer, and leaves every other part of the device, memory of the pool among them. -/
def Obligations.SettingsLeaveTheRest : Prop :=
  (∀ (s : State) (h : HlyHdr) (cm : Nat) (accept : Bool) (count : Nat) (serials : List Nat) (timeout retries hold : Nat), s.calm = true →
    LeavesBut (exec (.inbandSet h cm accept count serials timeout retries hold) s) s (replyParts h)) ∧
  (∀ (s : State) (h : HlyHdr) (inst cm resetMode drainTimeout vectors : Nat), s.calm = true → LeavesBut (exec (.instanceSet h inst cm
    resetMode drainTimeout vectors) s) s (replyParts h)) ∧
  (∀ (s : State) (h : HlyHdr) (inst : Nat) (enable : Bool) (baseA baseB rangeBase rangePages : Nat) (inFunction : Bool), s.calm = true →
    LeavesBut (exec (.dirtyLogSet h inst enable baseA baseB rangeBase rangePages inFunction) s) s (replyParts h)) ∧
  (∀ (s : State) (h : HlyHdr) (inst : Nat), s.calm = true → LeavesBut (exec (.dirtyLogSwap h inst) s) s (replyParts h)) ∧
  (∀ (s : State) (h : HlyHdr) (port cm linkTimeout replayLimit retrainLimit : Nat) (shares : List Nat), s.calm = true → LeavesBut (exec
    (.linkSet h port cm linkTimeout replayLimit retrainLimit shares) s) s (.lnk :: (replyParts h))) ∧
  (∀ (s : State) (h : HlyHdr) (port kind n count : Nat), s.calm = true → LeavesBut (exec (.faultInject h port kind n count) s) s (.lnk ::
    (replyParts h))) ∧
  (∀ (s : State) (h : HlyHdr) (cm ackDelay nakDelay retryTimeout retryLimit ctxIdle sendWindow : Nat), s.calm = true → LeavesBut (exec
    (.trnSet h cm ackDelay nakDelay retryTimeout retryLimit ctxIdle sendWindow) s) s (.trn :: (replyParts h))) ∧
  (∀ (s : State) (h : HlyHdr) (port cm corrThreshold corrWindow marginFloor : Nat) (autoSpare idleEnable : Bool) (idleEntry trainTimeout :
    Nat), s.calm = true → LeavesBut (exec (.laneSet h port cm corrThreshold corrWindow marginFloor autoSpare idleEnable idleEntry
    trainTimeout) s) s (.prt :: (replyParts h))) ∧
  (∀ (s : State) (h : HlyHdr) (port action lane : Nat), s.calm = true → LeavesBut (exec (.laneSpare h port action lane) s) s (.prt ::
    (replyParts h))) ∧
  (∀ (s : State) (h : HlyHdr) (lane function pattern userPattern inject symbols every : Nat), s.calm = true → LeavesBut (exec (.laneTest h
    lane function pattern userPattern inject symbols every) s) s (.prt :: (replyParts h))) ∧
  (∀ (s : State) (h : HlyHdr) (account minReserve alphaExp markThreshold : Nat), s.calm = true → LeavesBut (exec (.bufferAccountSet h
    account minReserve alphaExp markThreshold) s) s (.obf :: (replyParts h))) ∧
  (∀ (s : State) (h : HlyHdr) (contractPool : Nat), s.calm = true → LeavesBut (exec (.bufferPoolSet h contractPool) s) s (.obf ::
    (replyParts h))) ∧
  (∀ (s : State) (h : HlyHdr) (enable : Bool) (residencyMs : Nat), s.calm = true → LeavesBut (exec (.auditSet h enable residencyMs) s) s
    (.obf :: (replyParts h))) ∧
  (∀ (s : State) (h : HlyHdr) (output sl inst queue weight rate burst : Nat) (tokenReset : Bool), s.calm = true → LeavesBut (exec
    (.egsLeafBind h output sl inst queue weight rate burst tokenReset) s) s (.egs :: (replyParts h))) ∧
  (∀ (s : State) (h : HlyHdr) (queue : Nat), s.calm = true → LeavesBut (exec (.egsLeafUnbind h queue) s) s (.egs :: (replyParts h))) ∧
  (∀ (s : State) (h : HlyHdr) (target output sl queue cm weight rate burst : Nat) (tokenReset : Bool), s.calm = true → LeavesBut (exec
    (.egsNodeSet h target output sl queue cm weight rate burst tokenReset) s) s (.egs :: (replyParts h))) ∧
  (∀ (s : State) (h : HlyHdr) (resource index cm : Nat) (compat : Bool) (thresholdExp requester weight : Nat), s.calm = true → LeavesBut
    (exec (.arbSet h resource index cm compat thresholdExp requester weight) s) s (.arbs :: (replyParts h))) ∧
  (∀ (s : State) (h : HlyHdr) (action mask channel first count : Nat), s.calm = true → LeavesBut (exec (.pwrCapture h action mask channel
    first count) s) s (.pwr :: (replyParts h))) ∧
  (∀ (s : State) (h : HlyHdr) (first count cm severity quietMs vector : Nat), s.calm = true → LeavesBut (exec (.faultSet h first count cm
    severity quietMs vector) s) s (.flt :: (replyParts h))) ∧
  (∀ (s : State) (h : HlyHdr) (kind unit : Nat), s.calm = true → LeavesBut (exec (.spareSwap h kind unit) s) s (.flt :: (replyParts h))) ∧
  (∀ (s : State) (h : HlyHdr) (cm hbmPatrolH sramPatrolMs calPeriodMs trendThreshold trendWindowMin auto : Nat), s.calm = true → LeavesBut
    (exec (.backgroundSet h cm hbmPatrolH sramPatrolMs calPeriodMs trendThreshold trendWindowMin auto) s) s (.flt :: (replyParts h))) ∧
  (∀ (s : State) (h : HlyHdr) (kind : Nat), s.calm = true → LeavesBut (exec (.deviceReset h kind) s) s (.mgc :: (replyParts h))) ∧
  (∀ (s : State) (h : HlyHdr) (slot offset : Nat) (final : Bool) (data : List Nat), s.calm = true → LeavesBut (exec (.fwWrite h slot
    offset final data) s) s (.mgc :: (replyParts h))) ∧
  (∀ (s : State) (h : HlyHdr) (c : ContractP), s.calm = true → LeavesBut (exec (.contractInstall h c) s) s (.adm :: (replyParts h))) ∧
  (∀ (s : State) (h : HlyHdr) (inst committed peak committedBurst peakBurst : Nat), s.calm = true → LeavesBut (exec (.meterSet h inst
    committed peak committedBurst peakBurst) s) s (.adm :: (replyParts h))) ∧
  (∀ (s : State) (h : HlyHdr) (contractId mode count : Nat) (groups : List Nat), s.calm = true → LeavesBut (exec (.contractRouteSet h
    contractId mode count groups) s) s (.adm :: (replyParts h))) ∧
  (∀ (s : State) (h : HlyHdr) (r : ResvP), s.calm = true → LeavesBut (exec (.hopReserve h r) s) s (.adm :: .pwr :: (replyParts h))) ∧
  (∀ (s : State) (h : HlyHdr) (tiles mode table first count : Nat) (masks : List Nat), s.calm = true → LeavesBut (exec (.routeWrite h
    tiles mode table first count masks) s) s (.rte :: (replyParts h))) ∧
  (∀ (s : State) (h : HlyHdr) (epoch : Nat), s.calm = true → LeavesBut (exec (.routeEpochAdvance h epoch) s) s (.rte :: (replyParts h))) ∧
  (∀ (s : State) (h : HlyHdr), s.calm = true → LeavesBut (exec (.routeEpochRetire h) s) s (.rte :: (replyParts h))) ∧
  (∀ (s : State) (h : HlyHdr) (port kind group member : Nat) (up : Bool), s.calm = true → LeavesBut (exec (.routePortSet h port kind group
    member up) s) s (.rte :: (replyParts h))) ∧
  (∀ (s : State) (h : HlyHdr) (sl mode bias : Nat), s.calm = true → LeavesBut (exec (.routePolicySet h sl mode bias) s) s (.rte ::
    (replyParts h))) ∧
  (∀ (s : State) (h : HlyHdr) (endpoint target destination : Nat), s.calm = true → LeavesBut (exec (.routeEndpointSet h endpoint target
    destination) s) s (.rte :: (replyParts h))) ∧
  (∀ (s : State) (h : HlyHdr) (tree : Nat) (valid : Bool) (upstream branches : Nat) (delivery : Delivery) (leaves : List Nat), s.calm = true → LeavesBut (exec (.treeInstall h tree valid upstream branches delivery leaves) s) s (.rte :: (replyParts
    h))) ∧
  (∀ (s : State) (h : HlyHdr) (tree : Nat), s.calm = true → LeavesBut (exec (.treeRemove h tree) s) s (.rte :: (replyParts h))) ∧
  (∀ (s : State) (h : HlyHdr) (quota : Nat), s.calm = true → LeavesBut (exec (.holdSet h quota) s) s (.rte :: (replyParts h))) ∧
  (∀ (s : State) (h : HlyHdr) (deviceId : Nat) (force : Bool), s.calm = true → LeavesBut (exec (.idAssign h deviceId force) s) s (.rte ::
    (replyParts h))) ∧
  (∀ (s : State) (h : HlyHdr) (link memInst releaseTimeout : Nat), s.calm = true → LeavesBut (exec (.poolLinkSet h link memInst
    releaseTimeout) s) s (.pool :: (replyParts h))) ∧
  (∀ (s : State) (h : HlyHdr) (handle count : Nat), s.calm = true → LeavesBut (exec (.extentZero h handle count) s) s (.pool ::
    (replyParts h))) ∧
  (∀ (s : State) (h : HlyHdr) (handle count : Nat) (zero : Bool), s.calm = true → LeavesBut (exec (.extentUnbind h handle count zero) s) s
    (.pool :: (replyParts h))) ∧
  (∀ (s : State) (h : HlyHdr) (m : ImportP), s.calm = true → LeavesBut (exec (.importMap h m) s) s (.pool :: (replyParts h))) ∧
  (∀ (s : State) (h : HlyHdr) (port routingId link vslot : Nat), s.calm = true → LeavesBut (exec (.functionBind h port routingId link
    vslot) s) s (.pool :: (replyParts h))) ∧
  (∀ (s : State) (h : HlyHdr) (port routingId : Nat), s.calm = true → LeavesBut (exec (.functionUnbind h port routingId) s) s (.pool ::
    (replyParts h))) ∧
  (∀ (s : State) (h : HlyHdr) (directory matching heaps : Nat), s.calm = true → LeavesBut (exec (.hbmPartitionSet h directory matching
    heaps) s) s (.pool :: (replyParts h))) ∧
  (∀ (s : State) (h : HlyHdr) (link cm windowLog2 releaseTimeout : Nat), s.calm = true → LeavesBut (exec (.hostLinkSet h link cm
    windowLog2 releaseTimeout) s) s (.pool :: .freeCount :: (replyParts h))) ∧
  (∀ (s : State) (h : HlyHdr) (agent kind port : Nat), s.calm = true → LeavesBut (exec (.cohAgentAdd h agent kind port) s) s (.dir ::
    (replyParts h))) ∧
  (∀ (s : State) (h : HlyHdr) (window mask : Nat), s.calm = true → LeavesBut (exec (.cohWindowCreate h window mask) s) s (.dir ::
    (replyParts h))) ∧
  (∀ (s : State) (h : HlyHdr) (window : Nat), s.calm = true → LeavesBut (exec (.cohWindowDestroy h window) s) s (.dir :: (replyParts h))) ∧
  (∀ (s : State) (h : HlyHdr) (cm snoopTimeout : Nat) (scrubEnable : Bool), s.calm = true → LeavesBut (exec (.dirSet h cm snoopTimeout
    scrubEnable) s) s (.dir :: (replyParts h))) ∧
  (∀ (s : State) (h : HlyHdr) (window inst firstSlot : Nat) (map : Bool), s.calm = true → LeavesBut (exec (.cohWindowMap h window inst
    firstSlot map) s) s (.dir :: .pool :: (replyParts h))) ∧
  (∀ (s : State) (h : HlyHdr) (kind queue : Nat), s.calm = true → LeavesBut (exec (.queueRestart h kind queue) s) s (.mec :: (replyParts h))) ∧
  (∀ (s : State) (h : HlyHdr) (r : RegionP), s.calm = true → LeavesBut (exec (.regionSet h r) s) s (.mec :: (replyParts h))) ∧
  (∀ (s : State) (h : HlyHdr) (inst counterBase counterCount heap matchEntries onDieReserve : Nat), s.calm = true → LeavesBut (exec
    (.engInstanceSet h inst counterBase counterCount heap matchEntries onDieReserve) s) s (.mec :: (replyParts h))) ∧
  (∀ (s : State) (h : HlyHdr) (cm rnrDelay rnrLimit lockAge : Nat), s.calm = true → LeavesBut (exec (.engSet h cm rnrDelay rnrLimit
    lockAge) s) s (.mec :: (replyParts h))) ∧
  (∀ (s : State) (h : HlyHdr) (q : QueueP), s.calm = true → LeavesBut (exec (.queueCreate h q) s) s (.mec :: .pwr :: (replyParts h))) ∧
  (∀ (s : State) (h : HlyHdr) (queue engine : Nat), s.calm = true → LeavesBut (exec (.queueMove h queue engine) s) s (.obf :: .trn :: .mec :: .pwr ::
    (replyParts h))) ∧
  (∀ (s : State) (h : HlyHdr) (inst link function resetMode drainTimeout vectors : Nat), s.calm = true → LeavesBut (exec (.instanceCreate
    h inst link function resetMode drainTimeout vectors) s) s (.ttc :: (replyParts h))) ∧
  (∀ (s : State) (h : HlyHdr) (block counter event samplePeriod : Nat), s.calm = true → LeavesBut (exec (.ttcSet h block counter event
    samplePeriod) s) s (.ttc :: (replyParts h))) ∧
  (∀ (s : State) (h : HlyHdr) (stream cm intervalMs ringBase slots vector : Nat) (inMemory : Bool), s.calm = true → LeavesBut (exec
    (.dumpSet h stream cm intervalMs ringBase slots vector inMemory) s) s (.ttc :: (replyParts h))) ∧
  (∀ (s : State) (h : HlyHdr) (probe bridge action source destination kindMask matchAddr mask records : Nat), s.calm = true → LeavesBut
    (exec (.probeSet h probe bridge action source destination kindMask matchAddr mask records) s) s (.ttc :: (replyParts h))) ∧
  (∀ (s : State) (h : HlyHdr) (master set first count : Nat) (entries : List MpuRegion), s.calm = true → LeavesBut (exec (.mpuRulesSet h
    master set first count entries) s) s (.mpu :: (replyParts h))) ∧
  (∀ (s : State) (h : HlyHdr) (master : Nat), s.calm = true → LeavesBut (exec (.mpuSwap h master) s) s (.mpu :: (replyParts h))) ∧
  (∀ (s : State) (h : HlyHdr) (action serial nonce : Nat) (signatureOk : Bool), s.calm = true → LeavesBut (exec (.debugUnlock h action
    serial nonce signatureOk) s) s (.mpu :: .freeCount :: (replyParts h))) ∧
  (∀ (s : State) (h : HlyHdr) (target first count priority coreMask threshold : Nat), s.calm = true → LeavesBut (exec (.icuSet h target
    first count priority coreMask threshold) s) s (.icu :: (replyParts h)))

/-- An event that raises no fault changes the blocks that its rules name and leaves every other part of the device. -/
def Obligations.EventsLeaveTheRest : Prop :=
  (∀ (s : State) (serial queue seq : Nat), s.calm = true → LeavesBut (exec (.reassemblyTimeout serial queue seq) s) s [.hly, .ttc]) ∧
  (∀ (s : State) (serial queue seq : Nat), s.calm = true → LeavesBut (exec (.inbandHoldExpiry serial queue seq) s) s [.hly]) ∧
  (∀ (s : State) (port exchange t1 : Nat), s.calm = true → s.awake = true → LeavesBut (exec (.ftSyncReqReceive port exchange t1) s) s
    [.out, .obf, .trn]) ∧
  (∀ (s : State), s.calm = true → LeavesBut (exec (.ppsOutputSecond) s) s [.out]) ∧
  (∀ (s : State) (port : Nat), s.calm = true → LeavesBut (exec (.linkInitFlitTimer port) s) s [.out, .lnk, .prt]) ∧
  (∀ (s : State) (port : Nat) (msg : BitVec 64), s.calm = true → LeavesBut (exec (.testReq port msg) s) s [.out]) ∧
  (∀ (s : State) (port hopCount hopPtr : Nat) (ports : RoutePorts) (message : List Nat), s.calm = true → s.awake = true → LeavesBut (exec
    (.directedReceive port hopCount hopPtr ports message) s) s [.waiting, .out, .obf, .trn, .ttc]) ∧
  (∀ (s : State) (port : Nat), s.calm = true → LeavesBut (exec (.fastExit port) s) s [.prt]) ∧
  (∀ (s : State) (port : Nat) (msg : BitVec 64), s.calm = true → LeavesBut (exec (.idleEnter port msg) s) s [.prt]) ∧
  (∀ (s : State) (port : Nat) (msg : BitVec 64), s.calm = true → LeavesBut (exec (.subAck port msg) s) s [.prt]) ∧
  (∀ (s : State) (port : Nat) (msg : BitVec 64), s.calm = true → LeavesBut (exec (.stepAck port msg) s) s [.prt]) ∧
  (∀ (s : State) (port : Nat) (msg : BitVec 64), s.calm = true → LeavesBut (exec (.testAck port msg) s) s [.prt]) ∧
  (∀ (s : State) (lane : Nat), s.calm = true → LeavesBut (exec (.prbsCheckerLock lane) s) s [.prt]) ∧
  (∀ (s : State) (lane : Nat), s.calm = true → LeavesBut (exec (.prbsLockLoss lane) s) s [.prt]) ∧
  (∀ (s : State) (output vl : Nat), s.calm = true → LeavesBut (exec (.suspendedFrameResume output vl) s) s [.egs]) ∧
  (∀ (s : State) (feed voltage : Nat), s.calm = true → LeavesBut (exec (.feedWindowEnter feed voltage) s) s [.pwr]) ∧
  (∀ (s : State) (feed : Nat), s.calm = true → LeavesBut (exec (.insertionDelayElapsed feed) s) s [.pwr]) ∧
  (∀ (s : State) (feed : Nat), s.calm = true → LeavesBut (exec (.reverseRecovery feed) s) s [.pwr]) ∧
  (∀ (s : State) (channel : Nat), s.calm = true → LeavesBut (exec (.rampComplete channel) s) s [.pwr]) ∧
  (∀ (s : State) (channel current : Nat), s.calm = true → LeavesBut (exec (.currentOverLimit channel current) s) s [.pwr]) ∧
  (∀ (s : State) (channel current : Nat), s.calm = true → LeavesBut (exec (.currentBelowRecovery channel current) s) s [.pwr]) ∧
  (∀ (s : State) (channel : Nat), s.calm = true → LeavesBut (exec (.coolDownElapsed channel) s) s [.pwr]) ∧
  (∀ (s : State) (channel : Nat), s.calm = true → LeavesBut (exec (.attemptCountReset channel) s) s [.pwr]) ∧
  (∀ (s : State) (channel vPeak vMin iPeak iMin pMean energy : Nat), s.calm = true → LeavesBut (exec (.measurementWindowEnd channel vPeak
    vMin iPeak iMin pMean energy) s) s [.pwr]) ∧
  (∀ (s : State) (channel voltage current power cause : Nat), s.calm = true → LeavesBut (exec (.captureRecord channel voltage current
    power cause) s) s [.pwr]) ∧
  (∀ (s : State) (channel : Nat), s.calm = true → LeavesBut (exec (.continuousCaptureEnd channel) s) s [.pwr]) ∧
  (∀ (s : State) (domain : Nat), s.calm = true → LeavesBut (exec (.sleepIdleExpiry domain) s) s [.pwr]) ∧
  (∀ (s : State) (domain : Nat), s.calm = true → LeavesBut (exec (.powerOffIdleExpiry domain) s) s [.pwr]) ∧
  (∀ (s : State) (domain : Nat), s.calm = true → LeavesBut (exec (.domainOffDone domain) s) s [.pwr]) ∧
  (∀ (s : State), s.calm = true → LeavesBut (exec (.calPeriod) s) s [.flt]) ∧
  (∀ (s : State) (port serial neighbourPort : Nat), s.calm = true → s.awake = true → LeavesBut (exec (.neighbourReceive port serial
    neighbourPort) s) s [.waiting, .rte]) ∧
  (∀ (s : State) (release : CapacityRelease), s.calm = true → LeavesBut (exec (.dynamicCapacityRelease release) s) s [.pool]) ∧
  (∀ (s : State), s.calm = true → LeavesBut (exec (.counterAccumulate) s) s [.ttc]) ∧
  (∀ (s : State) (bridge source destination kind address length : Nat) (direction : Bool), s.calm = true → LeavesBut (exec (.probeMatch
    bridge source destination kind address length direction) s) s [.ttc]) ∧
  (∀ (s : State) (probe : Nat), s.calm = true → LeavesBut (exec (.traceRecordTimeout probe) s) s [.ttc]) ∧
  (∀ (s : State) (command : Nat), s.calm = true → LeavesBut (exec (.mctpControlMessage command) s) s [.mgc, .out]) ∧
  (∀ (s : State) (instruction : Nat), s.calm = true → LeavesBut (exec (.jtagInstructionUpdate instruction) s) s [.mgc]) ∧
  (∀ (s : State), s.calm = true → LeavesBut (exec .syncPeriod s) s [.out, .ftu, .obf, .trn]) ∧
  (∀ (s : State), s.calm = true → LeavesBut (exec (.mastheadTimeTick) s) s [.masthead, .prt, .ttc]) ∧
  (∀ (s : State), s.calm = true → LeavesBut (exec (.ppsInputEdge) s) s [.ftu, .freeCount]) ∧
  (∀ (s : State) (lane : Nat), s.calm = true → LeavesBut (exec (.trainDetectSignal lane) s) s [.out, .prt]) ∧
  (∀ (s : State) (port : Nat), s.calm = true → LeavesBut (exec (.backoffElapsed port) s) s [.out, .egs, .prt]) ∧
  (∀ (s : State) (port : Nat), s.calm = true → LeavesBut (exec (.idleEntryExpiry port) s) s [.out, .prt]) ∧
  (∀ (s : State) (port : Nat) (msg : BitVec 64), s.calm = true → LeavesBut (exec (.subReq port msg) s) s [.out, .prt]) ∧
  (∀ (s : State) (port : Nat) (msg : BitVec 64), s.calm = true → LeavesBut (exec (.stepMsg port msg) s) s [.out, .prt]) ∧
  (∀ (s : State) (port : Nat) (msg : BitVec 64), s.calm = true → LeavesBut (exec (.wake port msg) s) s [.out, .lnk, .prt, .ttc]) ∧
  (∀ (s : State) (resource index requester : Nat) (grantedNow : Bool), s.calm = true → LeavesBut (exec (.arbStarveThreshold resource index
    requester grantedNow) s) s [.arbs, .ttc]) ∧
  (∀ (s : State) (link vslot : Nat), s.calm = true → LeavesBut (exec (.virtualSlotPowerOff link vslot) s) s [.out, .pool]) ∧
  (∀ (s : State) (handle : Nat) (isFunction : Bool) (port routingId : Nat), s.calm = true → LeavesBut (exec (.releaseTimeoutExpiry handle
    isFunction port routingId) s) s [.out, .pool]) ∧
  (∀ (s : State) (port serial : Nat) (isExpander : Bool) (capacity : Nat) (further functions : List Nat), s.calm = true → LeavesBut (exec
    (.expanderEnumerated port serial isExpander capacity further functions) s) s [.out, .pool]) ∧
  (∀ (s : State) (engine counter programCounter : Nat), s.calm = true → LeavesBut (exec (.sampleCountdownZero engine counter
    programCounter) s) s [.icu, .ttc]) ∧
  (∀ (s : State) (pid : Nat), s.calm = true → LeavesBut (exec (.bufferAdmission pid) s) s [.adm, .obf, .rte, .lnk, .ttc]) ∧
  (∀ (s : State) (stagedFirst stagedNext : List Nat), s.calm = true → LeavesBut (exec (.centralSchedulerMatching stagedFirst stagedNext)
    s) s [.csc, .lnk, .obf]) ∧
  (∀ (s : State), s.calm = true → LeavesBut (exec (.perst0Deassertion) s) s [.mgc, .out, .prt]) ∧
  (∀ (s : State) (queue seq : Nat), s.calm = true → LeavesBut (exec (.inbandTimeout queue seq) s) s [.out, .hly, .obf, .trn, .ins, .msix]) ∧
  (∀ (s : State), s.calm = true → LeavesBut (exec .barePolesCommandTimeout s) s [.out, .hly, .obf, .trn, .ins, .msix]) ∧
  (∀ (s : State) (inst : Nat), s.calm = true → LeavesBut (exec (.logSwapWritebackDone inst) s) s [.out, .hly, .obf, .trn, .ins, .msix]) ∧
  (∀ (s : State) (queue seq segIndex segCount attempt status result : Nat) (deviceValid : Bool) (device : Nat) (out : List Nat), s.calm =
    true → LeavesBut (exec (.hlyReplyReceive queue seq segIndex segCount attempt status result deviceValid device out) s) s [.out, .hly,
    .obf, .trn, .ins, .msix, .ttc]) ∧
  (∀ (s : State) (stream : Nat) (freed : List Nat), s.calm = true → LeavesBut (exec (.dumpSlotWritten stream freed) s) s [.out, .hly,
    .obf, .egs, .trn, .ins, .msix, .ttc]) ∧
  (∀ (s : State) (inst : Nat), s.calm = true → LeavesBut (exec (.meteringSlotWaitTimeout inst) s) s [.out, .hly, .obf, .trn, .ins, .msix,
    .ttc]) ∧
  (∀ (s : State) (queue : Nat), s.calm = true → LeavesBut (exec (.leafDrained queue) s) s [.out, .hly, .obf, .egs, .trn, .ins, .msix]) ∧
  (∀ (s : State) (domain : Nat), s.calm = true → LeavesBut (exec (.domainWakeDone domain) s) s [.out, .hly, .obf, .trn, .ins, .msix,
    .pwr]) ∧
  (∀ (s : State) (tree : Nat), s.calm = true → LeavesBut (exec (.treeDrained tree) s) s [.out, .hly, .obf, .rte, .trn, .ins, .msix]) ∧
  (∀ (s : State) (handle : Nat), s.calm = true → LeavesBut (exec (.dynamicCapacityAddReject handle) s) s [.ins, .mec, .msix, .out, .pool]) ∧
  (∀ (s : State) (inst : Nat) (w : WinF) (data : List Nat), s.calm = true → LeavesBut (exec (.wreadDataArrival inst w data) s) s [.out,
    .hly, .obf, .trn, .pool, .ins, .msix]) ∧
  (∀ (s : State) (inst : Nat) (w : WinF), s.calm = true → LeavesBut (exec (.wwriteDoneArrival inst w) s) s [.out, .hly, .obf, .trn, .pool,
    .ins, .msix]) ∧
  (∀ (s : State) (queue : Nat), s.calm = true → LeavesBut (exec (.queueMoveForwardDone queue) s) s [.out, .hly, .obf, .trn, .mec, .ins,
    .msix])

/-- A step takes the command at the front of the queue and is its meaning on the state with the queue's rest. On an empty queue one core
cycle passes (R24): the model's choice, log entry 5. -/
def Obligations.StepTakesTheFront : Prop :=
  (∀ (s : State) (i : Instr), step (s.front i) = exec i s) ∧
  (∀ (s : State) (i : Instr) (rest : List Instr), s.pending = i :: rest → step s = exec i { s with pending := rest }) ∧
  (∀ (s : State), s.pending = [] → step s = .next (coreCycle s))

/-- No command, no event and no core cycle stops the block: the specification gives each an effect, so that every step answers a next
state. -/
def Obligations.EveryStepAnswersNext : Prop :=
  (∀ (i : Instr) (s : State), ∃ t : State, exec i s = .next t) ∧ (∀ (s : State), ∃ t : State, step s = .next t)

/-- What the other statements call an answer (R446, R449): where nothing is owed at the end of the step, taking a command and answering it
change the record of commands, the outputs, the MSI-X table and the dirty-page log of instance 0 at most, and where the reply goes in-band
also what waits at the ingress (R461); and the reply of a command from
a host queue whose reply ring has room is the latest output, with its status, seq, code and result.
The list in which it waits is the model's own, log entry 6.
A command that cannot be accepted yet waits, whatever it is, and nothing else changes (R447, R448, R450, R452). -/
def Obligations.AnswerLeavesTheRest : Prop :=
  (∀ (s : State) (h : HlyHdr), s.calm = true → (s.fetchCmd h).calm = true ∧ ∀ b, b ≠ .hly → Same b s (s.fetchCmd h)) ∧
  (∀ (s : State) (h : HlyHdr) (code result : Nat) (out : List Nat), s.calm = true →
    (s.answer h code result out).settle = s.answer h code result out ∧ (s.answer h code result out).pending = s.pending ∧
      ∀ b, b ∉ ([.hly, .ins, .msix, .out] ++ (if (srcKey h.src).isSome then [.obf, .trn] else []) : List Block) →
        Same b s (s.answer h code result out)) ∧
  (∀ (s : State) (h : HlyHdr) (code : Nat) (w : Wait) (holds : List Obj), s.calm = true →
    (s.started h code w holds).settle = s.started h code w holds ∧ (s.started h code w holds).pending = s.pending ∧
      (∀ b, b ≠ .hly → Same b s (s.started h code w holds)) ∧
      ∃ g : Prog, (s.started h code w holds).hly.progress = s.hly.progress ++ [g] ∧ g.src = h.src ∧ g.seq = h.seq ∧ g.code = code ∧ g.wait = w) ∧
  (∀ (s : State) (h : HlyHdr) (q code result : Nat) (out : List Nat), h.src = .host q → h.interrupt = false → (s.hq q).ringFull = false →
    (s.hly.heldReplies.any fun x => x.src == .host q) = false → h.outputError = false →
    ∃ r : Reply, (s.answer h code result out).out = .reply r :: s.out ∧ r.status = 0 ∧ r.seq = h.seq ∧ r.code = code ∧ r.src = .host q ∧
      r.result = result % 2 ^ 128 ∧ r.out = out ∧ r.phase = ringPhase (s.hq q).replyProducer (s.hq q).log2Size ∧
      ((s.answer h code result out).hq q).replyProducer = ((s.hq q).replyProducer + 1) % 65536) ∧
  (∀ (s : State) (i : Instr) (h : HlyHdr), i.header = some h → s.acceptable h = false → s.calm = true →
      exec i s = .next { s with waiting := s.waiting ++ [i] })

/-- R57: a queue without management privilege is refused the commands of contracts, reservations, meters and port reserves with 0x0401,
where no earlier check of R454 refuses them. -/
def Obligations.ContractsNeedManagement : Prop :=
  ∀ (s : State) (i : Instr) (h : HlyHdr), i.header = some h → i.code ∈ [0x0501, 0x0502, 0x0503, 0x0505, 0x0506, 0x0507, 0x0508] →
    s.acceptable h = true → h.reserved = 0 → h.remote = false → h.directed = false → dataBad h 0 0 = false → s.flt.halted = false →
    s.romOnly = false → s.management h.src = false →
    exec i s = .next (((s.fetchCmd h).complete h.src h.seq i.code h.interrupt false 0x0401 0 []).settle)

/-- A setting of one contract, port, window or instance leaves the settings of every other as they were. -/
def Obligations.SettingsLeaveTheirNeighbours : Prop :=
  (∀ (s : State) (h : HlyHdr) (port cm ct cw mf : Nat) (as ie : Bool) (en tt : Nat), s.calm = true →
    ∃ t : State, exec (.laneSet h port cm ct cw mf as ie en tt) s = .next t ∧ ∀ q, q ≠ port → t.port q = s.port q) ∧
  (∀ (s : State) (h : HlyHdr) (port cm lt rl rt : Nat) (shares : List Nat), s.calm = true →
    ∃ t : State, exec (.linkSet h port cm lt rl rt shares) s = .next t ∧ ∀ q, q ≠ port → t.lport q = s.lport q) ∧
  (∀ (s : State) (h : HlyHdr) (c : ContractP), s.calm = true →
    ∃ t : State, exec (.contractInstall h c) s = .next t ∧
      (∀ k, k ≠ c.contractId → Tbl.find t.adm.contracts k = Tbl.find s.adm.contracts k) ∧ t.adm.resvs = s.adm.resvs) ∧
  (∀ (s : State) (h : HlyHdr) (r : ResvP), s.calm = true →
    ∃ t : State, exec (.hopReserve h r) s = .next t ∧ (∀ k, k ≠ r.resvId → Tbl.find t.adm.resvs k = Tbl.find s.adm.resvs k) ∧
      t.adm.contracts = s.adm.contracts) ∧
  (∀ (s : State) (h : HlyHdr) (inst committed peak cb pb : Nat), s.calm = true →
    ∃ t : State, exec (.meterSet h inst committed peak cb pb) s = .next t ∧ t.adm.contracts = s.adm.contracts ∧
      (∀ k, k ≠ inst → Tbl.find t.adm.meters k = Tbl.find s.adm.meters k)) ∧
  (∀ (s : State) (h : HlyHdr) (account mr ae mt : Nat), s.calm = true →
    ∃ t : State, exec (.bufferAccountSet h account mr ae mt) s = .next t ∧ (∀ k, k ≠ account → t.account k = s.account k) ∧
      t.obf.poolSize = s.obf.poolSize) ∧
  (∀ (s : State) (h : HlyHdr) (port kind group member : Nat) (up : Bool), s.calm = true →
    ∃ t : State, exec (.routePortSet h port kind group member up) s = .next t ∧ (∀ k, k ≠ port → Tbl.find t.rte.ports k = Tbl.find s.rte.ports k) ∧
      t.rte.tables = s.rte.tables ∧ t.rte.trees = s.rte.trees) ∧
  (∀ (s : State) (h : HlyHdr) (tree : Nat) (valid : Bool) (upstream branches : Nat) (delivery : Delivery) (leaves : List Nat), s.calm = true →
    ∃ t : State, exec (.treeInstall h tree valid upstream branches delivery leaves) s = .next t ∧
      (∀ k, k ≠ tree → Tbl.find t.rte.trees k = Tbl.find s.rte.trees k) ∧ t.rte.tables = s.rte.tables) ∧
  (∀ (s : State) (h : HlyHdr) (window mask : Nat), s.calm = true →
    ∃ t : State, exec (.cohWindowCreate h window mask) s = .next t ∧
      (∀ k, k ≠ window → Tbl.find t.dir.windows k = Tbl.find s.dir.windows k) ∧ t.dir.entries = s.dir.entries) ∧
  (∀ (s : State) (h : HlyHdr) (r : RegionP), s.calm = true →
    ∃ t : State, exec (.regionSet h r) s = .next t ∧ (∀ k, k ≠ r.region → Tbl.find t.mec.regions k = Tbl.find s.mec.regions k)) ∧
  (∀ (s : State) (h : HlyHdr) (inst cm rm dt v : Nat), s.calm = true →
    ∃ t : State, exec (.instanceSet h inst cm rm dt v) s = .next t ∧ (∀ k, k ≠ inst → k ≠ 0 → Tbl.find t.ins.inst k = Tbl.find s.ins.inst k)) ∧
  (∀ (s : State) (h : HlyHdr) (master set first count : Nat) (entries : List MpuRegion), s.calm = true →
    ∃ t : State, exec (.mpuRulesSet h master set first count entries) s = .next t ∧
      (∀ k, k ≠ master → Tbl.find t.mpu.masters k = Tbl.find s.mpu.masters k)) ∧
  (∀ (s : State) (h : HlyHdr) (first count cm severity quietMs vector : Nat), s.calm = true →
    ∃ t : State, exec (.faultSet h first count cm severity quietMs vector) s = .next t ∧
      (∀ k, k < first ∨ first + count ≤ k → t.severity k = s.severity k) ∧ t.flt.recoveries = s.flt.recoveries) ∧
  (∀ (s : State) (h : HlyHdr) (probe bridge action source destination kindMask matchAddr mask records : Nat), s.calm = true →
    ∃ t : State, exec (.probeSet h probe bridge action source destination kindMask matchAddr mask records) s = .next t ∧
      (∀ k, k ≠ probe → Tbl.find t.ttc.probes k = Tbl.find s.ttc.probes k))

/-- The machine right after reset, in the values that the specification gives for it: fabric time 0 (R69), full sail (R506), the firmware
not yet running and the in-band settings of R465, no device ID (R196), the division of the output buffer (R109), fresh arbiters, the
engines' timers (R375), no instance but instance 0, the unlock state (R480), the fault settings (R539), and no command that waits.
No clause is about a value that the specification does not give (log entry 2). -/
def Obligations.ResetStateIsAsSpecified : Prop :=
  State.reset.ftu.time = 0 ∧ State.reset.pwr.mode = .fullSail ∧ State.reset.hly.fwState = .booting ∧ State.reset.hly.inbandTimeout = 20 ∧
  State.reset.hly.inbandRetries = 8 ∧ State.reset.hly.inbandHold = 100 ∧ State.reset.hly.trusted = [] ∧ State.reset.rte.valid = false ∧
  State.reset.rte.deviceId = 0 ∧ State.reset.rte.quota = 1 ∧ State.reset.obf.poolSize = 262144 ∧ State.reset.sharedSize = 771328 ∧
  (∀ a, a < 236 → (State.reset.account a).minReserve = 64) ∧ State.reset.adm.contracts = [] ∧ State.reset.adm.resvs = [] ∧
  State.reset.pool.extents = [] ∧ State.reset.dir.entries = [] ∧ State.reset.mpu.unlocked = false ∧ State.reset.mpu.nonce = none ∧
  State.reset.pwr.wakeGpio = 63 ∧ State.reset.pwr.windowMs = 100 ∧ State.reset.flt.halted = false ∧ State.reset.faultN = false ∧
  State.reset.pending = [] ∧ State.reset.waiting = [] ∧ State.reset.out = []

/-- The routing block as R163 leaves it: bank 0 active with tag 0 and no candidate anywhere, bank 1 and the spare bank empty. -/
def Obligations.RoutingAfterReset : Prop :=
  (∀ (s : State) (insdly : Nat) (straps : MgmtStraps) (failed baselines : List Nat), s.mgc.vaux = true →
    ∃ t : State, exec (.coldReset insdly straps failed baselines) s = .next t ∧ t.rteFresh) ∧
  (∀ (s : State) (trigger : Nat), s.pwr.mode ≠ .barePoles → s.pwr.lost = false →
    ∃ t : State, exec (.warmReset trigger) s = .next t ∧ t.rteFresh) ∧
  (∀ (s : State), ∃ t : State, exec .vauxLoss s = .next t ∧ t.rteFresh) ∧
  (∀ (s : State) (r : PendingReset), s.mgc.pendingReset = some r → s.pwr.lost = false → r.kind ≠ 1 →
    ∃ t : State, exec .deviceResetEffect s = .next t ∧ t.rteFresh) ∧
  (∀ (s : State) (h : HlyHdr) (reefForm : Nat) (force : Bool), s.runs h 0x0101 0 0 [] = true → s.pwr.mode = .barePoles → s.pwr.change = none →
    reefForm ≤ 1 → ∃ t : State, exec (.modeSet h 0 reefForm force) s = .next t ∧ t.rteFresh) ∧
  State.reset.rteFresh

/-- The memory of the pool is in canonical form right after reset: log entry 4 says what a byte that nothing has written reads as. -/
def Obligations.ResetMemoryIsCanonical : Prop :=
  State.reset.memOk = true ∧ ∀ a, memByte State.reset.pool.mem a = memDefault

/-- Every step keeps the memory of the pool in canonical form: addresses strictly rising, and no entry equal to what an unlisted address
reads as. -/
def Obligations.StepKeepsMemoryCanonical : Prop :=
  ∀ (s t : State), s.memOk = true → step s = .next t → t.memOk = true

/-- A command's meaning leaves the queue alone: what it leaves to be done waits in its own list. -/
def Obligations.CommandsLeaveTheQueue : Prop :=
  ∀ (i : Instr) (s t : State), exec i s = .next t → t.pending = s.pending

/-- The descriptor of every well-formed Halyard command, packed as R442 and R443 lay it out, reads back as that command, with every
parameter at every value that its width admits. -/
def Obligations.DescriptorsReadBack : Prop :=
  ∀ (i : Instr) (h : HlyHdr), i.header = some h → i.wf = true → readDescriptor (i.brought h) (i.descriptor h) = some i

/-- R385: two records combine by adding their accumulators as 320-bit integers and ORing their flags. The combination is exact: a sum of
records is the same in whatever order and grouping they come, and its accumulator is the sum of theirs modulo 2^320. -/
def Obligations.RecordsCombineExactly : Prop :=
  (∀ (t op : Nat) (x y : BitVec 320) (n p m z n' p' m' z' : Bool), combineElem t op (.exact x n p m z) (.exact y n' p' m' z') =
    .exact (x + y) (n || n') (p || p') (m || m') (z || z')) ∧
  (∀ (t op : Nat) (a : Elem) (l k : List Elem), (∀ e ∈ a :: l, ∃ x n p m z, e = .exact x n p m z) → l.Perm k →
    l.foldl (combineElem t op) a = k.foldl (combineElem t op) a) ∧
  (∀ (t op : Nat) (l : List (BitVec 320)), ∃ n p m z, (l.map fun x => Elem.exact x false false false false).foldl (combineElem t op)
    (.exact 0 false false false false) = .exact (BitVec.ofNat 320 (l.map BitVec.toNat).sum) n p m z)

/-- The Halyard commands that may raise a fault, end work of others or begin a long change change the blocks that their rules name, and leave
every other part of the device (before the actions of the faults that they raise, R523). -/
def Obligations.OtherCommandsKeepTheRest : Prop :=
  (∀ (s : State) (h : HlyHdr) (contractId cm committed peak burst : Nat) (aware : Bool) (bound lateThreshold remoteBudget : Nat), KeepsBut
    (exec (.contractModify h contractId cm committed peak burst aware bound lateThreshold remoteBudget) s) s (.adm :: .flt :: (replyParts h))) ∧
  (∀ (s : State) (h : HlyHdr) (peer inst cls half : Nat) (pin : Bool), KeepsBut (exec (.contextPin h peer inst cls half pin) s) s
    (.obf :: .trn :: .freeCount :: .adm :: .rte :: .mec :: .mtc :: .flt :: .ttc :: (replyParts h))) ∧
  (∀ (s : State) (h : HlyHdr) (port fraction : Nat), KeepsBut (exec (.portReserveSet h port fraction) s) s (.adm :: .flt :: (replyParts h))) ∧
  (∀ (s : State) (h : HlyHdr) (kind queue : Nat), KeepsBut (exec (.queueDestroy h kind queue) s) s (.mec :: .mtc :: (replyParts h))) ∧
  (∀ (s : State) (h : HlyHdr) (source : Nat) (force : Bool) (kind subject : Nat), KeepsBut (exec (.faultForce h source force kind subject)
    s) s (.flt :: .ttc :: (replyParts h))) ∧
  (∀ (s : State) (h : HlyHdr) (first count : Nat) (sticky : Bool), KeepsBut (exec (.faultClear h first count sticky) s) s (.egs :: .prt ::
    .flt :: (replyParts h))) ∧
  (∀ (s : State) (h : HlyHdr) (feed cm : Nat) (set : ChanSet) (rearm : Bool) (windowMs wakeGpio sleepIdle powerOffIdle : Nat), KeepsBut
    (exec (.pwrSet h feed cm set rearm windowMs wakeGpio sleepIdle powerOffIdle) s) s (.pwr :: .flt :: .ttc :: (replyParts h))) ∧
  (∀ (s : State) (h : HlyHdr) (contractId : Nat), KeepsBut (exec (.contractRemove h contractId) s) s (.adm :: .obf :: .flt :: (replyParts h))) ∧
  (∀ (s : State) (h : HlyHdr) (resvId : Nat), KeepsBut (exec (.hopRelease h resvId) s) s (.adm :: .obf :: .flt :: (replyParts h))) ∧
  (∀ (s : State) (h : HlyHdr) (b : BindP), KeepsBut (exec (.extentBind h b) s) s (.pool :: .dir :: .mec :: (replyParts h))) ∧
  (∀ (s : State) (h : HlyHdr) (action inst : Nat), KeepsBut (exec (.mtrSet h action inst) s) s (.csc :: .egs :: .rte :: .ttc ::
    (replyParts h))) ∧
  (∀ (s : State) (h : HlyHdr) (force : Bool), KeepsBut (exec (.fabricLeave h force) s) s (.rte :: .prt :: .mgc :: (replyParts h))) ∧
  (∀ (s : State) (h : HlyHdr) (mode reefForm : Nat) (force : Bool), s.pwr.mode ≠ .barePoles → KeepsBut (exec (.modeSet h mode reefForm
    force) s) s (.obf :: .trn :: .adm :: .lnk :: .prt :: .pwr :: .ttc ::
    (replyParts h))) ∧
  (∀ (s : State) (h : HlyHdr) (slot cm : Nat) (enable autoPower pginUse : Bool) (set : ChanSet), KeepsBut (exec (.slotSet h slot cm enable
    autoPower pginUse set) s) s (.pool :: .pwr :: .flt :: .ttc :: (replyParts h))) ∧
  (∀ (s : State) (h : HlyHdr) (cm : Nat) (grandmaster : Bool) (parentPort syncPeriod : Nat) (ppsIn ppsOut : Bool), KeepsBut (exec (.ftuSet
    h cm grandmaster parentPort syncPeriod ppsIn ppsOut) s) s (.ftu :: .adm :: .flt :: .ttc :: (replyParts h))) ∧
  (∀ (s : State) (h : HlyHdr) (agent : Nat), KeepsBut (exec (.cohAgentRemove h agent) s) s (.obf :: .trn :: .pool :: .dir :: .flt :: .ttc :: (replyParts h))) ∧
  (∀ (s : State) (h : HlyHdr) (window mask : Nat), KeepsBut (exec (.cohWindowAgents h window mask) s) s (.obf :: .trn :: .pool :: .dir :: .flt :: .ttc ::
    (replyParts h))) ∧
  (∀ (s : State) (h : HlyHdr) (scope tree branch : Nat), KeepsBut (exec (.treeFence h scope tree branch) s) s (.obf :: .trn :: .freeCount :: .rte :: .mec
    :: .mtc :: .ttc :: (replyParts h))) ∧
  (∀ (s : State) (h : HlyHdr) (port : Nat), KeepsBut (exec (.slotRemove h port) s) s (.egs :: .prt :: .pool :: .pwr :: .flt :: .ttc ::
    (replyParts h))) ∧
  (∀ (s : State) (h : HlyHdr) (mode queue : Nat), KeepsBut (exec (.bufferReclaim h mode queue) s) s (.freeCount :: .adm :: .obf :: .rte ::
    .lnk :: .trn :: .flt :: .ttc :: (replyParts h))) ∧
  (∀ (s : State) (h : HlyHdr) (index : Nat), KeepsBut (exec (.lockBreak h index) s) s (.obf :: .trn :: .freeCount :: .adm :: .rte :: .pool :: .mec ::
    .locks :: .mtc :: .flt :: .ttc :: (replyParts h))) ∧
  (∀ (s : State) (h : HlyHdr) (port mode width maxRate : Nat), KeepsBut (exec (.portModeSet h port mode width maxRate) s) s (.freeCount ::
    .ftu :: .adm :: .obf :: .egs :: .rte :: .lnk :: .trn :: .prt :: .flt :: .ttc :: (replyParts h))) ∧
  (∀ (s : State) (h : HlyHdr) (g : GroupP), KeepsBut (exec (.collGroupSet h g) s) s (.obf :: .trn :: .freeCount :: .adm :: .rte :: .pool :: .mec :: .mtc
    :: .rdx :: .mpu :: .flt :: .ttc :: (replyParts h))) ∧
  (∀ (s : State) (h : HlyHdr) (group : Nat), KeepsBut (exec (.collGroupRemove h group) s) s (.obf :: .trn :: .freeCount :: .adm :: .rte :: .pool :: .mec
    :: .mtc :: .rdx :: .mpu :: .flt :: .ttc :: (replyParts h))) ∧
  (∀ (s : State) (h : HlyHdr) (group target index : Nat), KeepsBut (exec (.collFence h group target index) s) s (.obf :: .trn :: .freeCount :: .adm ::
    .rte :: .pool :: .mec :: .mtc :: .rdx :: .mpu :: .flt :: .ttc :: (replyParts h))) ∧
  (∀ (s : State) (h : HlyHdr) (inst form : Nat), KeepsBut (exec (.instanceReset h inst form) s) s (.freeCount :: .adm :: .obf :: .rte ::
    .trn :: .pool :: .mec :: .locks :: .mtc :: .rdx :: .mpu :: .flt :: .ttc :: (replyParts h))) ∧
  (∀ (s : State) (h : HlyHdr) (inst : Nat), KeepsBut (exec (.instanceDisable h inst) s) s (.freeCount :: .adm :: .obf :: .rte :: .trn ::
    .pool :: .mec :: .locks :: .mtc :: .rdx :: .mpu :: .flt :: .ttc :: (replyParts h))) ∧
  (∀ (s : State) (h : HlyHdr) (slot : Nat) (on force : Bool), KeepsBut (exec (.slotPower h slot on force) s) s (.freeCount :: .ftu :: .adm
    :: .obf :: .egs :: .rte :: .lnk :: .trn :: .pool :: .dir :: .mec :: .mtc :: .pwr :: .flt :: .ttc :: (replyParts h)))

/-- A host access, a doorbell or a message of a board channel that finds the device awake changes the blocks that its rules name, and leaves every
other part of the device (before the actions of the faults that it raises, R523). -/
def Obligations.HostAccessesKeepTheRest : Prop :=
  (∀ (s : State) (q : Nat), s.awake = true → KeepsBut (exec (.hlyQueueEnable q) s) s [.hly]) ∧
  (∀ (s : State) (q : Nat), s.awake = true → KeepsBut (exec (.hlyQueueDisable q) s) s [.hly]) ∧
  (∀ (s : State) (core source : Nat) (viaBar0 : Bool), s.awake = true → KeepsBut (exec (.icuCompleteWrite core source viaBar0) s) s
    [.icu]) ∧
  (∀ (s : State) (value : Word), s.awake = true → KeepsBut (exec (.icuSwiWrite value) s) s [.icu]) ∧
  (∀ (s : State) (value : Word), s.awake = true → KeepsBut (exec (.mpuViolPop value) s) s [.mpu]) ∧
  (∀ (s : State) (inst : Nat), s.awake = true → KeepsBut (exec (.busMasterEnableClear inst) s) s [.ins]) ∧
  (∀ (s : State) (q index : Nat), s.awake = true → KeepsBut (exec (.hlyCommandProducerWrite q index) s) s [.waiting, .hly, .icu]) ∧
  (∀ (s : State) (core : Nat) (viaBar0 : Bool), s.awake = true → KeepsBut (exec (.icuClaimRead core viaBar0) s) s [.out, .icu]) ∧
  (∀ (s : State), s.awake = true → KeepsBut (exec .ftuTimeLoRead s) s [.out, .ftu]) ∧
  (∀ (s : State) (window offset : Nat), s.awake = true → KeepsBut (exec (.reg64LowHalfRead window offset) s) s [.out, .latches]) ∧
  (∀ (s : State) (write : Bool), s.awake = true → KeepsBut (exec (.bar0IllegalAccess write) s) s [.out, .ttc]) ∧
  (∀ (s : State) (access : Bar0Access), s.awake = true → KeepsBut (exec (.bar0UnmappedAccess access) s) s [.out, .ttc]) ∧
  (∀ (s : State) (code inputLength : Nat), s.awake = true → KeepsBut (exec (.boardChannelRequest code inputLength) s) s [.out, .hly, .icu]) ∧
  (∀ (s : State) (link numVfs : Nat), s.awake = true → KeepsBut (exec (.vfEnableSet link numVfs) s) s [.pool, .icu]) ∧
  (∀ (s : State) (inst : Nat), s.awake = true → KeepsBut (exec (.busMasterEnableSet inst) s) s [.out, .ins]) ∧
  (∀ (s : State) (inst vector : Nat) (wholeFunction : Bool), s.awake = true → KeepsBut (exec (.msixUnmask inst vector wholeFunction) s) s
    [.out, .ins, .msix]) ∧
  (∀ (s : State) (origin : Origin) (queue seq segIndex segCount attempt : Nat) (directed : Bool) (retPorts : List Nat), s.awake = true →
    KeepsBut (exec (.hlyCmdReceive origin queue seq segIndex segCount attempt directed retPorts) s) s [.waiting, .out, .hly, .obf,
    .trn, .ttc, .icu]) ∧
  (∀ (s : State) (inst queue index : Nat), s.awake = true → KeepsBut (exec (.doorbellReceive inst queue index) s) s [.out, .mec, .ins,
    .msix, .ttc]) ∧
  (∀ (s : State) (q index : Nat), s.awake = true → KeepsBut (exec (.hlyReplyConsumerWrite q index) s) s [.waiting, .out, .hly, .ins,
    .msix]) ∧
  (∀ (s : State) (inst queue index : Nat), s.awake = true → KeepsBut (exec (.doorbellSend inst queue index) s) s [.out, .mec, .ins, .msix,
    .pwr, .ttc]) ∧
  (∀ (s : State) (inst queue index : Nat), s.awake = true → KeepsBut (exec (.doorbellCompletion inst queue index) s) s [.freeCount, .out,
    .mec, .ins, .msix, .ttc]) ∧
  (∀ (s : State) (inst queue index : Nat), s.awake = true → KeepsBut (exec (.doorbellCompletionArm inst queue index) s) s [.freeCount,
    .out, .mec, .ins, .msix, .ttc]) ∧
  (∀ (s : State) (inst address length : Nat) (write cxl : Bool) (data : List Nat), s.awake = true → KeepsBut (exec (.hostMemoryAccess inst
    address length write cxl data) s) s [.waiting, .freeCount, .out, .adm, .obf, .rte, .trn, .pool, .dir, .mec, .mtc, .ins, .msix, .flt,
    .ttc]) ∧
  (∀ (s : State) (inst address length : Nat) (posted : Bool) (data : List Nat), s.awake = true → KeepsBut (exec (.hostWindowStore inst
    address length posted data) s) s [.waiting, .freeCount, .out, .adm, .obf, .rte, .trn, .pool, .dir, .mec, .mtc, .ins, .msix, .flt,
    .ttc]) ∧
  (∀ (s : State) (link : Nat), s.awake = true → KeepsBut (exec (.vfEnableClear link) s) s [.freeCount, .out, .adm, .obf, .rte, .trn,
    .pool, .mec, .locks, .mtc, .rdx, .ins, .mpu, .icu, .msix, .flt, .ttc]) ∧
  (∀ (s : State) (window offset : Nat) (value : Word), s.awake = true → KeepsBut (exec (.registerWrite window offset value) s) s [.hly, .adm, .obf,
    .egs, .arbs, .rte, .lnk, .trn, .prt, .dir, .mec, .mtc, .rdx, .ins, .mpu, .pwr, .flt, .ttc]) ∧
  (∀ (s : State) (inst : Nat), s.awake = true → KeepsBut (exec (.functionLevelReset inst) s) s [.waiting, .freeCount, .out, .hly, .adm,
    .obf, .rte, .trn, .pool, .mec, .locks, .mtc, .rdx, .ins, .mpu, .icu, .msix, .flt, .ttc, .mgc])

/-- What packets, links, transport contexts and time do changes the blocks that their rules name, and leaves every other part of the device (before
the actions of the faults that it raises, R523). -/
def Obligations.PacketEventsKeepTheRest : Prop :=
  (∀ (s : State) (port : Nat), KeepsBut (exec (.replayTimeout port) s) s [.out, .lnk, .prt, .ttc]) ∧
  (∀ (s : State), KeepsBut (exec .auditPassEnd s) s [.out, .obf, .ins, .msix, .flt, .ttc]) ∧
  (∀ (s : State) (port exchange depth t2 t3 : Nat), s.awake = true → KeepsBut (exec (.ftSyncRspReceive port exchange depth t2 t3) s) s
    [.out, .ftu, .adm, .ins, .msix, .flt, .ttc]) ∧
  (∀ (s : State), KeepsBut (exec .parentReplyLoss s) s [.out, .ftu, .adm, .ins, .msix, .flt, .ttc]) ∧
  (∀ (s : State), KeepsBut (exec .wakeSyncWindowEnd s) s [.out, .ftu, .adm, .ins, .msix, .flt, .ttc]) ∧
  (∀ (s : State) (resvId : Nat), KeepsBut (exec (.hopReleaseDrained resvId) s) s [.out, .hly, .adm, .obf, .trn, .ins, .msix, .flt]) ∧
  (∀ (s : State) (resvId : Nat), KeepsBut (exec (.hopReleaseTimeout resvId) s) s [.out, .hly, .adm, .obf, .trn, .ins, .msix, .flt]) ∧
  (∀ (s : State) (pid : Nat), KeepsBut (exec (.edgeWaitRelease pid) s) s [.freeCount, .out, .adm, .obf, .rte, .trn, .mec, .mtc, .ins,
    .msix, .flt, .ttc]) ∧
  (∀ (s : State) (input : Nat) (p : Packet) (length : Nat) (rxVl : Nat) (preYellow firstOfOp : Bool), s.awake = true → KeepsBut (exec
    (.packetIngress input p length rxVl preYellow firstOfOp) s) s [.freeCount, .out, .adm, .obf, .rte, .lnk, .trn, .mec, .mtc, .ins,
    .msix, .flt, .ttc]) ∧
  (∀ (s : State) (pid : Nat), KeepsBut (exec (.routeRetry pid) s) s [.freeCount, .out, .adm, .obf, .rte, .lnk, .trn, .mec, .mtc, .ins,
    .msix, .flt, .ttc]) ∧
  (∀ (s : State) (output : Nat), KeepsBut (exec (.egressSelect output) s) s [.out, .ftu, .adm, .obf, .egs, .rte, .lnk, .ttc]) ∧
  (∀ (s : State) (output pid progress : Nat), KeepsBut (exec (.framePreempt output pid progress) s) s [.out, .ftu, .adm, .obf, .egs, .lnk,
    .ttc]) ∧
  (∀ (s : State) (port : Nat) (sync : BitVec 16) (head : BitVec 128) (pid : Nat) (bytes : List Nat) (frameCrc : BitVec 32) (marked : Bool)
    (lost : Nat), s.awake = true → KeepsBut (exec (.linkFrameReceive port sync head pid bytes frameCrc marked lost) s) s [.freeCount,
    .out, .adm, .obf, .egs, .rte, .lnk, .trn, .prt, .mec, .mtc, .ins, .msix, .flt, .ttc]) ∧
  (∀ (s : State) (port : Nat) (flit : BitVec 512) (sync : BitVec 16), KeepsBut (exec (.linkControlFlitReceive port flit sync) s) s
    [.freeCount, .out, .hly, .ftu, .adm, .obf, .egs, .rte, .lnk, .trn, .prt, .ins, .msix, .flt, .ttc]) ∧
  (∀ (s : State) (port : Nat), KeepsBut (exec (.portDisableDrainTimeout port) s) s [.freeCount, .out, .hly, .ftu, .adm, .obf, .egs, .rte,
    .lnk, .trn, .prt, .ins, .msix, .flt, .ttc]) ∧
  (∀ (s : State) (port : Nat), KeepsBut (exec (.retrainLimitExpiry port) s) s [.freeCount, .out, .masthead, .hly, .ftu, .adm, .obf, .egs,
    .rte, .lnk, .trn, .prt, .mec, .mtc, .ins, .msix, .pwr, .flt, .ttc])

/-- What engines, matching, locks, windows and collectives do changes the blocks that their rules name, and leaves every other part of the device
(before the actions of the faults that it raises, R523). -/
def Obligations.EngineEventsKeepTheRest : Prop :=
  (∀ (s : State) (inst : Nat) (w : WinF) (reason : Nat), KeepsBut (exec (.werrorArrival inst w reason) s) s [.out, .hly, .obf, .trn,
    .pool, .mec, .ins, .msix]) ∧
  (∀ (s : State) (group : Nat), KeepsBut (exec (.groupDrained group) s) s [.out, .hly, .obf, .trn, .mec, .rdx, .ins, .msix]) ∧
  (∀ (s : State) (index : Nat), KeepsBut (exec (.lockAgeExpiry index) s) s [.out, .mec, .locks, .ins, .msix, .flt, .ttc]) ∧
  (∀ (s : State) (r : Rsp), KeepsBut (exec (.putAckArrival r) s) s [.freeCount, .out, .mec, .mtc, .ins, .msix, .ttc]) ∧
  (∀ (s : State) (r : Rsp) (lockIndex srcDevice : Nat), KeepsBut (exec (.lockResultArrival r lockIndex srcDevice) s) s [.freeCount, .out,
    .mec, .mtc, .ins, .msix, .ttc]) ∧
  (∀ (s : State) (r : Rsp), KeepsBut (exec (.sendAckArrival r) s) s [.freeCount, .out, .mec, .mtc, .ins, .msix, .ttc]) ∧
  (∀ (s : State) (r : Rsp) (bytes : Nat), KeepsBut (exec (.rdoneArrival r bytes) s) s [.freeCount, .out, .mec, .mtc, .ins, .msix, .ttc]) ∧
  (∀ (s : State) (r : Rsp), KeepsBut (exec (.engErrorArrival r) s) s [.freeCount, .out, .mec, .mtc, .ins, .msix, .ttc]) ∧
  (∀ (s : State) (queue : Nat) (d : Desc), KeepsBut (exec (.counterAdd queue d) s) s [.waiting, .freeCount, .out, .mec, .mtc, .ins, .msix,
    .ttc]) ∧
  (∀ (s : State) (queue : Nat) (d : Desc), KeepsBut (exec (.counterSet queue d) s) s [.waiting, .freeCount, .out, .mec, .mtc, .ins, .msix,
    .ttc]) ∧
  (∀ (s : State) (queue : Nat) (d : Desc), KeepsBut (exec (.descNop queue d) s) s [.waiting, .freeCount, .out, .mec, .mtc, .ins, .msix,
    .ttc]) ∧
  (∀ (s : State) (engine : Nat), KeepsBut (exec (.triggerFire engine) s) s [.waiting, .freeCount, .out, .mec, .mtc, .ins, .msix, .ttc]) ∧
  (∀ (s : State) (r : Rsp) (data : List Nat), KeepsBut (exec (.getDataArrival r data) s) s [.freeCount, .out, .pool, .mec, .mtc, .ins,
    .msix, .ttc]) ∧
  (∀ (s : State) (r : Rsp) (old : Nat), KeepsBut (exec (.atomicResultArrival r old) s) s [.freeCount, .out, .pool, .mec, .mtc, .ins,
    .msix, .ttc]) ∧
  (∀ (s : State) (queue bits : Nat) (readOk : Bool), KeepsBut (exec (.descriptorFetch queue bits readOk) s) s [.waiting, .freeCount,
    .out, .mec, .mtc, .ins, .mpu, .msix, .flt, .ttc]) ∧
  (∀ (s : State) (srcDevice srcInst sl : Nat) (w : WinF), KeepsBut (exec (.wreadArrival srcDevice srcInst sl w) s) s [.freeCount, .out,
    .adm, .obf, .rte, .trn, .mec, .mtc, .ins, .msix, .flt, .ttc]) ∧
  (∀ (s : State) (r : Req) (a : Access) (wait : Bool), KeepsBut (exec (.lockArrival r a wait) s) s [.freeCount, .out, .adm, .obf, .rte,
    .trn, .mec, .locks, .mtc, .ins, .msix, .flt, .ttc]) ∧
  (∀ (s : State) (r : Req) (rvTag rvGen offset length : Nat), KeepsBut (exec (.rgetArrival r rvTag rvGen offset length) s) s [.freeCount,
    .out, .adm, .obf, .rte, .trn, .mec, .mtc, .ins, .msix, .flt, .ttc]) ∧
  (∀ (s : State) (srcDevice srcInst sl : Nat) (w : WinF) (data : List Nat), KeepsBut (exec (.wwriteArrival srcDevice srcInst sl w data) s)
    s [.freeCount, .out, .adm, .obf, .rte, .trn, .pool, .mec, .mtc, .ins, .msix, .flt, .ttc]) ∧
  (∀ (s : State) (r : Rsp), KeepsBut (exec (.sendRnrArrival r) s) s [.freeCount, .out, .adm, .obf, .rte, .trn, .mec, .mtc, .ins, .msix,
    .flt, .ttc]) ∧
  (∀ (s : State) (queue : Nat) (d : Desc), KeepsBut (exec (.lock queue d) s) s [.waiting, .freeCount, .out, .adm, .obf, .rte, .trn, .mec,
    .mtc, .ins, .msix, .flt, .ttc]) ∧
  (∀ (s : State) (queue : Nat) (d : Desc), KeepsBut (exec (.unlock queue d) s) s [.waiting, .freeCount, .out, .adm, .obf, .rte, .trn,
    .mec, .mtc, .ins, .msix, .flt, .ttc]) ∧
  (∀ (s : State) (opTag : Nat), KeepsBut (exec (.rnrDelayExpiry opTag) s) s [.waiting, .freeCount, .out, .adm, .obf, .rte, .trn, .mec,
    .mtc, .ins, .msix, .flt, .ttc]) ∧
  (∀ (s : State) (r : Req) (a : Access) (poison : Bool), KeepsBut (exec (.getArrival r a poison) s) s [.freeCount, .out, .adm, .obf, .rte,
    .trn, .mec, .locks, .mtc, .ins, .mpu, .msix, .flt, .ttc]) ∧
  (∀ (s : State) (r : Req) (a : Access), KeepsBut (exec (.unlockArrival r a) s) s [.freeCount, .out, .adm, .obf, .rte, .trn, .pool, .mec,
    .locks, .mtc, .ins, .msix, .flt, .ttc]) ∧
  (∀ (s : State) (r : Req) (queue : Nat), KeepsBut (exec (.lockAbandonArrival r queue) s) s [.freeCount, .out, .adm, .obf, .rte, .trn,
    .pool, .mec, .locks, .mtc, .ins, .msix, .flt, .ttc]) ∧
  (∀ (s : State) (r : Rsp) (data : List Nat), KeepsBut (exec (.rgetDataArrival r data) s) s [.freeCount, .out, .adm, .obf, .rte, .trn,
    .pool, .mec, .mtc, .ins, .msix, .flt, .ttc]) ∧
  (∀ (s : State) (tag : Nat) (values : List Nat) (error poison : Bool), KeepsBut (exec (.hostReadCompletion tag values error poison) s) s
    [.freeCount, .out, .adm, .obf, .rte, .trn, .mec, .mtc, .ins, .mpu, .msix, .flt, .ttc]) ∧
  (∀ (s : State) (tag : Nat), KeepsBut (exec (.hostCompletionTimeout tag) s) s [.freeCount, .out, .adm, .obf, .rte, .trn, .mec, .mtc,
    .ins, .mpu, .msix, .flt, .ttc]) ∧
  (∀ (s : State) (queue : Nat) (d : Desc), KeepsBut (exec (.put queue d) s) s [.waiting, .freeCount, .out, .adm, .obf, .rte, .trn, .mec,
    .mtc, .ins, .mpu, .msix, .flt, .ttc]) ∧
  (∀ (s : State) (queue : Nat) (d : Desc), KeepsBut (exec (.get queue d) s) s [.waiting, .freeCount, .out, .adm, .obf, .rte, .trn, .mec,
    .mtc, .ins, .mpu, .msix, .flt, .ttc]) ∧
  (∀ (s : State) (queue : Nat) (d : Desc), KeepsBut (exec (.atomic queue d) s) s [.waiting, .freeCount, .out, .adm, .obf, .rte, .trn,
    .mec, .mtc, .ins, .mpu, .msix, .flt, .ttc]) ∧
  (∀ (s : State) (queue : Nat) (d : Desc), KeepsBut (exec (.send queue d) s) s [.waiting, .freeCount, .out, .adm, .obf, .rte, .trn, .mec,
    .mtc, .ins, .mpu, .msix, .flt, .ttc]) ∧
  (∀ (s : State) (queue bits : Nat), KeepsBut (exec (.receiveTake queue bits) s) s [.freeCount, .out, .adm, .obf, .rte, .trn,
    .pool, .mec, .mtc, .ins, .mpu, .msix, .flt, .ttc]) ∧
  (∀ (s : State) (r : Req) (a : Access) (data : List Nat) (last : Bool), KeepsBut (exec (.putArrival r a data last) s) s [.freeCount,
    .out, .adm, .obf, .rte, .trn, .pool, .mec, .locks, .mtc, .ins, .mpu, .msix, .flt, .ttc]) ∧
  (∀ (s : State) (r : Req) (a : Access) (aop : Nat) (size16 : Bool) (opA opB old : Nat), KeepsBut (exec (.atomicArrival r a aop size16 opA
    opB old) s) s [.freeCount, .out, .adm, .obf, .rte, .trn, .pool, .mec, .locks, .mtc, .ins, .mpu, .msix, .flt, .ttc]) ∧
  (∀ (s : State) (r : Req) (dstInst context msn msgOffset matchBits msgLength : Nat) (data : List Nat), KeepsBut (exec (.sendEagerArrival
    r dstInst context msn msgOffset matchBits msgLength data) s) s [.freeCount, .out, .adm, .obf, .rte, .trn, .pool, .mec, .mtc, .ins,
    .mpu, .msix, .flt, .ttc]) ∧
  (∀ (s : State) (r : Req) (dstInst context msn matchBits msgLength : Nat), KeepsBut (exec (.sendRtsArrival r dstInst context msn
    matchBits msgLength) s) s [.freeCount, .out, .adm, .obf, .rte, .trn, .pool, .mec, .mtc, .ins, .mpu, .msix, .flt, .ttc]) ∧
  (∀ (s : State) (group member : Nat) (values : List Nat) (failed poison : Bool), KeepsBut (exec (.memberArrival group member values
    failed poison) s) s [.freeCount, .out, .adm, .obf, .rte, .trn, .pool, .mec, .mtc, .rdx, .ins, .mpu, .msix, .flt, .ttc]) ∧
  (∀ (s : State) (group srcDevice srcInst sl round members : Nat) (fenced arrival : Bool) (elementOffset : Nat) (poison : Bool) (values :
    List Nat), KeepsBut (exec (.rdxUpArrival group srcDevice srcInst sl round members fenced arrival elementOffset poison values) s) s
    [.freeCount, .out, .adm, .obf, .rte, .trn, .pool, .mec, .mtc, .rdx, .ins, .mpu, .msix, .flt, .ttc]) ∧
  (∀ (s : State) (group round combined : Nat) (fenced : Bool) (status elementOffset : Nat) (values : List Nat), KeepsBut (exec
    (.rdxDownArrival group round combined fenced status elementOffset values) s) s [.freeCount, .out, .adm, .obf, .rte, .trn, .pool, .mec,
    .mtc, .rdx, .ins, .mpu, .msix, .flt, .ttc])

/-- The other events change the blocks that their rules name, and leave every other part of the device (before the actions of the faults that they
raise, R523). -/
def Obligations.DeviceEventsKeepTheRest : Prop :=
  (∀ (s : State) (agent handle lineIndex : Nat), s.awake = true → KeepsBut (exec (.biconflictReceive agent handle lineIndex) s) s [.out,
    .dir]) ∧
  (∀ (s : State) (slot : Nat), s.awake = true → KeepsBut (exec (.presenceDebounced slot) s) s [.pool, .pwr, .icu]) ∧
  (∀ (s : State), KeepsBut (exec .quietPeriodExpiry s) s [.out, .egs, .prt, .flt]) ∧
  (∀ (s : State) (stream : Nat) (freed : List Nat), KeepsBut (exec (.dumpInterval stream freed) s) s [.csc, .egs, .rte, .ttc]) ∧
  (∀ (s : State) (port : Nat), KeepsBut (exec (.rateStepTimeout port) s) s [.out, .lnk, .prt, .ttc]) ∧
  (∀ (s : State) (row : Nat), KeepsBut (exec (.sramUncorrectableError row) s) s [.out, .ins, .msix, .flt, .ttc]) ∧
  (∀ (s : State) (engine : Nat), KeepsBut (exec (.engineDuplicateFail engine) s) s [.out, .ins, .msix, .flt, .ttc]) ∧
  (∀ (s : State) (port : Nat), KeepsBut (exec (.viralReceived port) s) s [.out, .ins, .msix, .flt, .ttc]) ∧
  (∀ (s : State) (tile bank : Nat), KeepsBut (exec (.routeBankFailure tile bank) s) s [.out, .ins, .msix, .flt, .ttc]) ∧
  (∀ (s : State) (channel : Nat), KeepsBut (exec (.pseudoChannelFailure channel) s) s [.out, .ins, .msix, .flt, .ttc]) ∧
  (∀ (s : State), KeepsBut (exec .datapathError s) s [.out, .ins, .msix, .flt, .ttc]) ∧
  (∀ (s : State) (bridge : Nat), KeepsBut (exec (.shroudBridgeTimeout bridge) s) s [.out, .ins, .msix, .flt, .ttc]) ∧
  (∀ (s : State) (lane corrected : Nat), KeepsBut (exec (.corrWindowEnd lane corrected) s) s [.out, .masthead, .hly, .ftu, .obf, .trn,
    .prt, .ins, .msix, .pwr, .flt, .ttc]) ∧
  (∀ (s : State) (lane margin : Nat), KeepsBut (exec (.marginReport lane margin) s) s [.out, .masthead, .hly, .ftu, .obf, .trn, .prt,
    .ins, .msix, .pwr, .flt, .ttc]) ∧
  (∀ (s : State) (lane : Nat), KeepsBut (exec (.wearFlag lane) s) s [.out, .masthead, .hly, .ftu, .obf, .trn, .prt, .ins, .msix, .pwr,
    .flt, .ttc]) ∧
  (∀ (s : State) (port : Nat), KeepsBut (exec (.trainTimeout port) s) s [.out, .prt, .ins, .msix, .flt, .ttc]) ∧
  (∀ (s : State) (port differing : Nat), KeepsBut (exec (.subCompareDone port differing) s) s [.out, .masthead, .hly, .ftu, .obf, .trn,
    .prt, .ins, .msix, .pwr, .flt, .ttc]) ∧
  (∀ (s : State) (port : Nat) (msg : BitVec 64), KeepsBut (exec (.subDone port msg) s) s [.out, .masthead, .hly, .ftu, .obf, .trn, .prt,
    .ins, .msix, .pwr, .flt, .ttc]) ∧
  (∀ (s : State) (port : Nat) (msg : BitVec 64), KeepsBut (exec (.subAbort port msg) s) s [.out, .masthead, .hly, .ftu, .obf, .trn, .prt,
    .ins, .msix, .pwr, .flt, .ttc]) ∧
  (∀ (s : State) (feed voltage : Nat), s.awake = true → KeepsBut (exec (.feedWindowExit feed voltage) s) s [.out, .ins, .msix, .pwr, .flt,
    .ttc]) ∧
  (∀ (s : State) (feed : Nat), KeepsBut (exec (.reverseCurrent feed) s) s [.out, .ins, .msix, .pwr, .flt, .ttc]) ∧
  (∀ (s : State) (feed : Nat), KeepsBut (exec (.feedBelow5v feed) s) s [.out, .ins, .msix, .pwr, .flt, .ttc]) ∧
  (∀ (s : State) (sensor : Nat), KeepsBut (exec (.thermalTrip sensor) s) s [.out, .ins, .msix, .pwr, .flt, .ttc]) ∧
  (∀ (s : State) (sensor : Nat) (celsius : Int), KeepsBut (exec (.temperatureReading sensor celsius) s) s [.out, .ins, .msix, .pwr, .flt,
    .ttc]) ∧
  (∀ (s : State) (slot : Nat), KeepsBut (exec (.pginFall slot) s) s [.out, .ins, .msix, .pwr, .flt, .ttc]) ∧
  (∀ (s : State) (domain : Nat), KeepsBut (exec (.domainWakeTimeout domain) s) s [.out, .ins, .msix, .pwr, .flt, .ttc]) ∧
  (∀ (s : State) (kind unit : Nat), KeepsBut (exec (.trendFire kind unit) s) s [.out, .mec, .ins, .msix, .flt, .ttc]) ∧
  (∀ (s : State) (core : Nat), KeepsBut (exec (.managementCoreWatchdog core) s) s [.out, .ins, .msix, .flt, .ttc, .mgc]) ∧
  (∀ (s : State) (bank : Nat), KeepsBut (exec (.directoryBankFailure bank) s) s [.out, .dir, .ins, .msix, .flt, .ttc]) ∧
  (∀ (s : State) (core : Nat), KeepsBut (exec (.managementCoreFailure core) s) s [.out, .ins, .msix, .flt, .ttc, .mgc]) ∧
  (∀ (s : State) (kind unit : Nat), KeepsBut (exec (.ageingMonitorFlag kind unit) s) s [.out, .mec, .ins, .msix, .flt, .ttc]) ∧
  (∀ (s : State) (source : CmdSrc) (seq : Nat), KeepsBut (exec (.managementFirmwareFault source seq) s) s [.out, .hly, .obf, .trn, .ins,
    .msix, .flt, .ttc]) ∧
  (∀ (s : State) (agent handle lineIndex keep : Nat) (data : List Nat), s.awake = true → KeepsBut (exec (.coherentWriteback agent handle
    lineIndex keep data) s) s [.waiting, .out, .pool, .dir, .ins, .msix, .flt, .ttc]) ∧
  (∀ (s : State) (agent handle lineIndex : Nat) (form : SnoopForm) (data : List Nat), s.awake = true → KeepsBut (exec
    (.snoopResponseReceive agent handle lineIndex form data) s) s [.out, .pool, .dir, .ins, .msix, .flt, .ttc]) ∧
  (∀ (s : State) (handle lineIndex : Nat), KeepsBut (exec (.memoryWriteDone handle lineIndex) s) s [.out, .pool, .dir, .ins, .msix, .flt,
    .ttc]) ∧
  (∀ (s : State) (agent handle lineIndex : Nat), KeepsBut (exec (.snoopTimeoutExpiry agent handle lineIndex) s) s [.out, .pool, .dir,
    .ins, .msix, .flt, .ttc]) ∧
  (∀ (s : State) (master : Nat), KeepsBut (exec (.mpuSwapCommit master) s) s [.freeCount, .out, .mec, .ins, .mpu, .msix, .ttc]) ∧
  (∀ (s : State) (lane : Nat), KeepsBut (exec (.lossOfSignal lane) s) s [.out, .masthead, .hly, .ftu, .obf, .lnk, .trn, .prt, .ins, .msix,
    .pwr, .flt, .ttc]) ∧
  (∀ (s : State) (lane : Nat), KeepsBut (exec (.lossOfLock lane) s) s [.out, .masthead, .hly, .ftu, .obf, .lnk, .trn, .prt, .ins, .msix,
    .pwr, .flt, .ttc]) ∧
  (∀ (s : State) (port : Nat), KeepsBut (exec (.codewordLockLoss port) s) s [.out, .lnk, .prt, .ins, .msix, .flt, .ttc]) ∧
  (∀ (s : State) (port : Nat), KeepsBut (exec (.fastExitLockTimeout port) s) s [.out, .lnk, .prt, .ins, .msix, .flt, .ttc]) ∧
  (∀ (s : State) (channel : Nat) (pgin : Bool), KeepsBut (exec (.qualificationDone channel pgin) s) s [.out, .pool, .ins, .msix, .pwr,
    .flt, .ttc]) ∧
  (∀ (s : State) (handle lineIndex : Nat) (poison : Bool), KeepsBut (exec (.directoryReadDone handle lineIndex poison) s) s [.out, .pool,
    .dir, .ins, .msix, .flt, .ttc]) ∧
  (∀ (s : State) (port rate width : Nat) (cxlOffered flit256 : Bool), KeepsBut (exec (.pcieLinkTrained port rate width cxlOffered flit256)
    s) s [.out, .egs, .prt, .pool, .ins, .msix, .flt, .ttc]) ∧
  (∀ (s : State) (port tree srcDevice inst op delivered fenced : Nat), KeepsBut (exec (.mcAckReceive port tree srcDevice inst op delivered
    fenced) s) s [.freeCount, .out, .obf, .rte, .trn, .mec, .mtc, .ins, .msix, .ttc]) ∧
  (∀ (s : State) (agent : Option Nat) (handle lineIndex : Nat) (op : CohOp) (offset : Nat) (data : List Nat), s.awake = true → KeepsBut
    (exec (.coherentRequest agent handle lineIndex op offset data) s) s [.waiting, .out, .pool, .dir, .ins, .msix, .flt, .ttc]) ∧
  (∀ (s : State) (agent handle lineIndex : Nat), s.awake = true → KeepsBut (exec (.evictionNotice agent handle lineIndex) s) s [.waiting,
    .out, .pool, .dir, .ins, .msix, .flt, .ttc]) ∧
  (∀ (s : State) (recallId : Nat), KeepsBut (exec (.recallComplete recallId) s) s [.out, .hly, .obf, .trn, .pool, .dir, .ins, .msix, .flt,
    .ttc]) ∧
  (∀ (s : State) (handle : Nat), KeepsBut (exec (.zeroingComplete handle) s) s [.out, .hly, .obf, .trn, .pool, .dir, .mec, .ins, .msix,
    .flt]) ∧
  (∀ (s : State) (handle : Nat), KeepsBut (exec (.unbindDrainComplete handle) s) s [.out, .hly, .obf, .trn, .pool, .dir, .ins, .msix,
    .flt, .ttc]) ∧
  (∀ (s : State) (master : Nat), KeepsBut (exec (.mpuSwapRetire master) s) s [.freeCount, .out, .hly, .obf, .trn, .mec, .ins, .mpu, .msix,
    .ttc]) ∧
  (∀ (s : State), KeepsBut (exec .stormJibDrained s) s [.out, .masthead, .hly, .ftu, .obf, .lnk, .trn, .prt, .ins, .msix, .pwr, .ttc]) ∧
  (∀ (s : State) (lane : Nat) (seq : TrainSeq), KeepsBut (exec (.trainingSequenceReceive lane seq) s) s [.out, .prt, .ins, .msix, .flt,
    .ttc]) ∧
  (∀ (s : State) (port : Nat), KeepsBut (exec (.equaliseTimeout port) s) s [.out, .prt, .ins, .msix, .flt, .ttc]) ∧
  (∀ (s : State) (cause : Nat), KeepsBut (exec (.stormJibWake cause) s) s [.out, .masthead, .hly, .ftu, .adm, .obf, .lnk, .trn, .prt,
    .ins, .msix, .pwr, .ttc]) ∧
  (∀ (s : State) (peer inst cls : Nat), KeepsBut (exec (.ackDelayExpiry peer inst cls) s) s [.freeCount, .out, .adm, .obf, .rte, .trn,
    .ins, .msix, .flt, .ttc]) ∧
  (∀ (s : State) (peer inst cls : Nat), KeepsBut (exec (.nakDelayExpiry peer inst cls) s) s [.freeCount, .out, .adm, .obf, .rte, .trn,
    .ins, .msix, .flt, .ttc]) ∧
  (∀ (s : State) (peer inst cls : Nat), KeepsBut (exec (.ctxIdleExpiry peer inst cls) s) s [.freeCount, .out, .adm, .obf, .rte, .trn,
    .ins, .msix, .flt, .ttc]) ∧
  (∀ (s : State) (peer inst cls : Nat), KeepsBut (exec (.flaggedLateSend peer inst cls) s) s [.freeCount, .out, .adm, .obf, .rte, .trn,
    .mec, .mtc, .ins, .msix, .flt, .ttc]) ∧
  (∀ (s : State) (kind unit : Nat), KeepsBut (exec (.spareSwapComplete kind unit) s) s [.out, .hly, .obf, .rte, .trn, .dir, .mec, .ins,
    .icu, .msix, .flt, .ttc]) ∧
  (∀ (s : State) (port : Nat), KeepsBut (exec (.rateStepComplete port) s) s [.out, .masthead, .hly, .ftu, .adm, .obf, .egs, .lnk, .trn,
    .prt, .ins, .msix, .pwr, .flt, .ttc]) ∧
  (∀ (s : State) (peer inst cls ackSeq : Nat) (openAck openRefused closeAck : Bool) (lates : List Nat) (marks ticketsReturned
    ticketsGranted : Nat), KeepsBut (exec (.tackReceive peer inst cls ackSeq openAck openRefused closeAck lates marks ticketsReturned
    ticketsGranted) s) s [.freeCount, .out, .adm, .obf, .rte, .trn, .mec, .mtc, .ins, .msix, .flt, .ttc]) ∧
  (∀ (s : State) (domain : Nat) (p : Packet), KeepsBut (exec (.domainPacketArrival domain p) s) s [.freeCount, .out, .adm, .obf, .rte,
    .trn, .mec, .mtc, .ins, .msix, .pwr, .flt, .ttc]) ∧
  (∀ (s : State) (peer inst cls initialSeq sl : Nat), KeepsBut (exec (.topenReceive peer inst cls initialSeq sl) s) s [.freeCount, .out,
    .adm, .obf, .rte, .trn, .mec, .mtc, .ins, .msix, .flt, .ttc]) ∧
  (∀ (s : State) (peer inst cls nextSeq sl : Nat), KeepsBut (exec (.tcloseReceive peer inst cls nextSeq sl) s) s [.freeCount, .out, .adm,
    .obf, .rte, .trn, .mec, .mtc, .ins, .msix, .flt, .ttc]) ∧
  (∀ (s : State) (p : Packet) (check : BitVec 64) (ticketUsed : Bool), KeepsBut (exec (.transportDataReceive p check ticketUsed) s) s [.freeCount,
    .out, .adm, .obf, .rte, .trn, .mec, .mtc, .ins, .msix, .flt, .ttc, .mgc]) ∧
  (∀ (s : State) (peer inst cls half : Nat), KeepsBut (exec (.contextFetchDone peer inst cls half) s) s [.freeCount, .out, .hly, .adm,
    .obf, .rte, .trn, .pool, .mec, .mtc, .rdx, .ins, .mpu, .msix, .flt, .ttc, .mgc]) ∧
  (∀ (s : State) (peer inst cls seq : Nat) (transit : Bool) (reason : Nat), KeepsBut (exec (.tnakReceive peer inst cls seq transit reason)
    s) s [.freeCount, .out, .hly, .adm, .obf, .rte, .trn, .pool, .mec, .mtc, .rdx, .ins, .mpu, .msix, .flt, .ttc]) ∧
  (∀ (s : State) (peer inst cls : Nat), KeepsBut (exec (.retryTimeout peer inst cls) s) s [.freeCount, .out, .hly, .adm, .obf, .rte, .trn,
    .pool, .mec, .mtc, .rdx, .ins, .mpu, .msix, .flt, .ttc]) ∧
  (∀ (s : State) (inst : Nat), KeepsBut (exec (.resetDrainComplete inst) s) s [.freeCount, .out, .adm, .obf, .rte, .trn, .pool, .mec,
    .locks, .mtc, .rdx, .ins, .mpu, .msix, .flt, .ttc]) ∧
  (∀ (s : State) (inst : Nat), KeepsBut (exec (.drainTimeoutExpiry inst) s) s [.freeCount, .out, .adm, .obf, .rte, .trn, .pool, .mec,
    .locks, .mtc, .rdx, .ins, .mpu, .msix, .flt, .ttc]) ∧
  (∀ (s : State) (inst : Nat), KeepsBut (exec (.generationWaitExpiry inst) s) s [.freeCount, .out, .adm, .obf, .rte, .trn, .pool, .mec,
    .locks, .mtc, .rdx, .ins, .mpu, .msix, .flt, .ttc]) ∧
  (∀ (s : State) (port : Nat) (skews : List Nat), KeepsBut (exec (.lockAchieved port skews) s) s [.freeCount, .out, .masthead, .hly, .ftu,
    .adm, .obf, .egs, .rte, .lnk, .trn, .prt, .ins, .msix, .pwr, .flt, .ttc]) ∧
  (∀ (s : State) (port routingId : Nat), KeepsBut (exec (.functionResetComplete port routingId) s) s [.freeCount, .out, .hly, .ftu, .adm,
    .obf, .egs, .rte, .lnk, .trn, .pool, .mec, .mtc, .ins, .msix, .flt, .ttc]) ∧
  (∀ (s : State) (channel : Nat), s.awake = true → KeepsBut (exec (.faultTimerTrip channel) s) s [.freeCount, .out, .hly, .ftu, .adm,
    .obf, .egs, .rte, .lnk, .trn, .pool, .dir, .mec, .mtc, .ins, .msix, .pwr, .flt, .ttc]) ∧
  (∀ (s : State) (channel : Nat) (withEnergy : Bool), s.awake = true → KeepsBut (exec (.fastTrip channel withEnergy) s) s [.freeCount,
    .out, .hly, .ftu, .adm, .obf, .egs, .rte, .lnk, .trn, .pool, .dir, .mec, .mtc, .ins, .msix, .pwr, .flt, .ttc]) ∧
  (∀ (s : State) (channel : Nat), s.awake = true → KeepsBut (exec (.energyBudgetTrip channel) s) s [.freeCount, .out, .hly, .ftu, .adm,
    .obf, .egs, .rte, .lnk, .trn, .pool, .dir, .mec, .mtc, .ins, .msix, .pwr, .flt, .ttc]) ∧
  (∀ (s : State) (channel : Nat), s.awake = true → KeepsBut (exec (.rampTimeout channel) s) s [.freeCount, .out, .hly, .ftu, .adm, .obf,
    .egs, .rte, .lnk, .trn, .pool, .dir, .mec, .mtc, .ins, .msix, .pwr, .flt, .ttc]) ∧
  (∀ (s : State) (slot port : Nat) (linkDown : Bool), s.awake = true → KeepsBut (exec (.presenceLost slot port linkDown) s) s [.freeCount,
    .out, .hly, .ftu, .adm, .obf, .egs, .rte, .lnk, .trn, .prt, .pool, .dir, .mec, .mtc, .ins, .msix, .pwr, .flt, .ttc, .icu]) ∧
  (∀ (s : State) (inst : Nat), KeepsBut (exec (.resetForceExpiry inst) s) s [.waiting, .freeCount, .out, .hly, .adm, .csc, .obf, .egs,
    .rte, .trn, .pool, .mec, .locks, .mtc, .rdx, .ins, .mpu, .icu, .msix, .flt, .ttc, .mgc]) ∧
  (∀ (s : State) (inst : Nat), KeepsBut (exec (.resetItemsDone inst) s) s [.waiting, .freeCount, .out, .hly, .adm, .csc, .obf, .egs, .rte,
    .trn, .pool, .mec, .locks, .mtc, .rdx, .ins, .mpu, .icu, .msix, .flt, .ttc, .mgc]) ∧
  (∀ (s : State) (address : Nat) (owner : Nat) (patrol : Bool), KeepsBut (exec (.hbmUncorrectableError address owner patrol) s) s
    [.waiting, .freeCount, .out, .hly, .adm, .obf, .rte, .trn, .pool, .dir, .mec, .locks, .mtc, .rdx, .ins, .mpu, .icu, .msix, .flt, .ttc,
    .mgc])
end

