-- ==== Sys2Proof/Laws/State.lean ====
section
/-!
SUPPORT. What each block update and each output changes, and what it leaves: one lemma for each field of the state.
-/
namespace Sys2Proof.Machine

/-! ### `upHly` -/

@[simp] theorem State.upHly_pending (s : State) (f : Hly → Hly) : (s.upHly f).pending = s.pending := rfl
@[simp] theorem State.upHly_waiting (s : State) (f : Hly → Hly) : (s.upHly f).waiting = s.waiting := rfl
@[simp] theorem State.upHly_freeCount (s : State) (f : Hly → Hly) : (s.upHly f).freeCount = s.freeCount := rfl
@[simp] theorem State.upHly_out (s : State) (f : Hly → Hly) : (s.upHly f).out = s.out := rfl
@[simp] theorem State.upHly_coreTime (s : State) (f : Hly → Hly) : (s.upHly f).coreTime = s.coreTime := rfl
@[simp] theorem State.upHly_masthead (s : State) (f : Hly → Hly) : (s.upHly f).masthead = s.masthead := rfl
@[simp] theorem State.upHly_hly (s : State) (f : Hly → Hly) : (s.upHly f).hly = f s.hly := rfl
@[simp] theorem State.upHly_ftu (s : State) (f : Hly → Hly) : (s.upHly f).ftu = s.ftu := rfl
@[simp] theorem State.upHly_adm (s : State) (f : Hly → Hly) : (s.upHly f).adm = s.adm := rfl
@[simp] theorem State.upHly_csc (s : State) (f : Hly → Hly) : (s.upHly f).csc = s.csc := rfl
@[simp] theorem State.upHly_obf (s : State) (f : Hly → Hly) : (s.upHly f).obf = s.obf := rfl
@[simp] theorem State.upHly_egs (s : State) (f : Hly → Hly) : (s.upHly f).egs = s.egs := rfl
@[simp] theorem State.upHly_arbs (s : State) (f : Hly → Hly) : (s.upHly f).arbs = s.arbs := rfl
@[simp] theorem State.upHly_rte (s : State) (f : Hly → Hly) : (s.upHly f).rte = s.rte := rfl
@[simp] theorem State.upHly_lnk (s : State) (f : Hly → Hly) : (s.upHly f).lnk = s.lnk := rfl
@[simp] theorem State.upHly_trn (s : State) (f : Hly → Hly) : (s.upHly f).trn = s.trn := rfl
@[simp] theorem State.upHly_prt (s : State) (f : Hly → Hly) : (s.upHly f).prt = s.prt := rfl
@[simp] theorem State.upHly_pool (s : State) (f : Hly → Hly) : (s.upHly f).pool = s.pool := rfl
@[simp] theorem State.upHly_dir (s : State) (f : Hly → Hly) : (s.upHly f).dir = s.dir := rfl
@[simp] theorem State.upHly_mec (s : State) (f : Hly → Hly) : (s.upHly f).mec = s.mec := rfl
@[simp] theorem State.upHly_locks (s : State) (f : Hly → Hly) : (s.upHly f).locks = s.locks := rfl
@[simp] theorem State.upHly_mtc (s : State) (f : Hly → Hly) : (s.upHly f).mtc = s.mtc := rfl
@[simp] theorem State.upHly_rdx (s : State) (f : Hly → Hly) : (s.upHly f).rdx = s.rdx := rfl
@[simp] theorem State.upHly_ins (s : State) (f : Hly → Hly) : (s.upHly f).ins = s.ins := rfl
@[simp] theorem State.upHly_mpu (s : State) (f : Hly → Hly) : (s.upHly f).mpu = s.mpu := rfl
@[simp] theorem State.upHly_icu (s : State) (f : Hly → Hly) : (s.upHly f).icu = s.icu := rfl
@[simp] theorem State.upHly_msix (s : State) (f : Hly → Hly) : (s.upHly f).msix = s.msix := rfl
@[simp] theorem State.upHly_pwr (s : State) (f : Hly → Hly) : (s.upHly f).pwr = s.pwr := rfl
@[simp] theorem State.upHly_flt (s : State) (f : Hly → Hly) : (s.upHly f).flt = s.flt := rfl
@[simp] theorem State.upHly_ttc (s : State) (f : Hly → Hly) : (s.upHly f).ttc = s.ttc := rfl
@[simp] theorem State.upHly_mgc (s : State) (f : Hly → Hly) : (s.upHly f).mgc = s.mgc := rfl
@[simp] theorem State.upHly_latches (s : State) (f : Hly → Hly) : (s.upHly f).latches = s.latches := rfl

/-! ### `upFtu` -/

@[simp] theorem State.upFtu_pending (s : State) (f : Ftu → Ftu) : (s.upFtu f).pending = s.pending := rfl
@[simp] theorem State.upFtu_waiting (s : State) (f : Ftu → Ftu) : (s.upFtu f).waiting = s.waiting := rfl
@[simp] theorem State.upFtu_freeCount (s : State) (f : Ftu → Ftu) : (s.upFtu f).freeCount = s.freeCount := rfl
@[simp] theorem State.upFtu_out (s : State) (f : Ftu → Ftu) : (s.upFtu f).out = s.out := rfl
@[simp] theorem State.upFtu_coreTime (s : State) (f : Ftu → Ftu) : (s.upFtu f).coreTime = s.coreTime := rfl
@[simp] theorem State.upFtu_masthead (s : State) (f : Ftu → Ftu) : (s.upFtu f).masthead = s.masthead := rfl
@[simp] theorem State.upFtu_hly (s : State) (f : Ftu → Ftu) : (s.upFtu f).hly = s.hly := rfl
@[simp] theorem State.upFtu_ftu (s : State) (f : Ftu → Ftu) : (s.upFtu f).ftu = f s.ftu := rfl
@[simp] theorem State.upFtu_adm (s : State) (f : Ftu → Ftu) : (s.upFtu f).adm = s.adm := rfl
@[simp] theorem State.upFtu_csc (s : State) (f : Ftu → Ftu) : (s.upFtu f).csc = s.csc := rfl
@[simp] theorem State.upFtu_obf (s : State) (f : Ftu → Ftu) : (s.upFtu f).obf = s.obf := rfl
@[simp] theorem State.upFtu_egs (s : State) (f : Ftu → Ftu) : (s.upFtu f).egs = s.egs := rfl
@[simp] theorem State.upFtu_arbs (s : State) (f : Ftu → Ftu) : (s.upFtu f).arbs = s.arbs := rfl
@[simp] theorem State.upFtu_rte (s : State) (f : Ftu → Ftu) : (s.upFtu f).rte = s.rte := rfl
@[simp] theorem State.upFtu_lnk (s : State) (f : Ftu → Ftu) : (s.upFtu f).lnk = s.lnk := rfl
@[simp] theorem State.upFtu_trn (s : State) (f : Ftu → Ftu) : (s.upFtu f).trn = s.trn := rfl
@[simp] theorem State.upFtu_prt (s : State) (f : Ftu → Ftu) : (s.upFtu f).prt = s.prt := rfl
@[simp] theorem State.upFtu_pool (s : State) (f : Ftu → Ftu) : (s.upFtu f).pool = s.pool := rfl
@[simp] theorem State.upFtu_dir (s : State) (f : Ftu → Ftu) : (s.upFtu f).dir = s.dir := rfl
@[simp] theorem State.upFtu_mec (s : State) (f : Ftu → Ftu) : (s.upFtu f).mec = s.mec := rfl
@[simp] theorem State.upFtu_locks (s : State) (f : Ftu → Ftu) : (s.upFtu f).locks = s.locks := rfl
@[simp] theorem State.upFtu_mtc (s : State) (f : Ftu → Ftu) : (s.upFtu f).mtc = s.mtc := rfl
@[simp] theorem State.upFtu_rdx (s : State) (f : Ftu → Ftu) : (s.upFtu f).rdx = s.rdx := rfl
@[simp] theorem State.upFtu_ins (s : State) (f : Ftu → Ftu) : (s.upFtu f).ins = s.ins := rfl
@[simp] theorem State.upFtu_mpu (s : State) (f : Ftu → Ftu) : (s.upFtu f).mpu = s.mpu := rfl
@[simp] theorem State.upFtu_icu (s : State) (f : Ftu → Ftu) : (s.upFtu f).icu = s.icu := rfl
@[simp] theorem State.upFtu_msix (s : State) (f : Ftu → Ftu) : (s.upFtu f).msix = s.msix := rfl
@[simp] theorem State.upFtu_pwr (s : State) (f : Ftu → Ftu) : (s.upFtu f).pwr = s.pwr := rfl
@[simp] theorem State.upFtu_flt (s : State) (f : Ftu → Ftu) : (s.upFtu f).flt = s.flt := rfl
@[simp] theorem State.upFtu_ttc (s : State) (f : Ftu → Ftu) : (s.upFtu f).ttc = s.ttc := rfl
@[simp] theorem State.upFtu_mgc (s : State) (f : Ftu → Ftu) : (s.upFtu f).mgc = s.mgc := rfl
@[simp] theorem State.upFtu_latches (s : State) (f : Ftu → Ftu) : (s.upFtu f).latches = s.latches := rfl

/-! ### `upAdm` -/

@[simp] theorem State.upAdm_pending (s : State) (f : Adm → Adm) : (s.upAdm f).pending = s.pending := rfl
@[simp] theorem State.upAdm_waiting (s : State) (f : Adm → Adm) : (s.upAdm f).waiting = s.waiting := rfl
@[simp] theorem State.upAdm_freeCount (s : State) (f : Adm → Adm) : (s.upAdm f).freeCount = s.freeCount := rfl
@[simp] theorem State.upAdm_out (s : State) (f : Adm → Adm) : (s.upAdm f).out = s.out := rfl
@[simp] theorem State.upAdm_coreTime (s : State) (f : Adm → Adm) : (s.upAdm f).coreTime = s.coreTime := rfl
@[simp] theorem State.upAdm_masthead (s : State) (f : Adm → Adm) : (s.upAdm f).masthead = s.masthead := rfl
@[simp] theorem State.upAdm_hly (s : State) (f : Adm → Adm) : (s.upAdm f).hly = s.hly := rfl
@[simp] theorem State.upAdm_ftu (s : State) (f : Adm → Adm) : (s.upAdm f).ftu = s.ftu := rfl
@[simp] theorem State.upAdm_adm (s : State) (f : Adm → Adm) : (s.upAdm f).adm = f s.adm := rfl
@[simp] theorem State.upAdm_csc (s : State) (f : Adm → Adm) : (s.upAdm f).csc = s.csc := rfl
@[simp] theorem State.upAdm_obf (s : State) (f : Adm → Adm) : (s.upAdm f).obf = s.obf := rfl
@[simp] theorem State.upAdm_egs (s : State) (f : Adm → Adm) : (s.upAdm f).egs = s.egs := rfl
@[simp] theorem State.upAdm_arbs (s : State) (f : Adm → Adm) : (s.upAdm f).arbs = s.arbs := rfl
@[simp] theorem State.upAdm_rte (s : State) (f : Adm → Adm) : (s.upAdm f).rte = s.rte := rfl
@[simp] theorem State.upAdm_lnk (s : State) (f : Adm → Adm) : (s.upAdm f).lnk = s.lnk := rfl
@[simp] theorem State.upAdm_trn (s : State) (f : Adm → Adm) : (s.upAdm f).trn = s.trn := rfl
@[simp] theorem State.upAdm_prt (s : State) (f : Adm → Adm) : (s.upAdm f).prt = s.prt := rfl
@[simp] theorem State.upAdm_pool (s : State) (f : Adm → Adm) : (s.upAdm f).pool = s.pool := rfl
@[simp] theorem State.upAdm_dir (s : State) (f : Adm → Adm) : (s.upAdm f).dir = s.dir := rfl
@[simp] theorem State.upAdm_mec (s : State) (f : Adm → Adm) : (s.upAdm f).mec = s.mec := rfl
@[simp] theorem State.upAdm_locks (s : State) (f : Adm → Adm) : (s.upAdm f).locks = s.locks := rfl
@[simp] theorem State.upAdm_mtc (s : State) (f : Adm → Adm) : (s.upAdm f).mtc = s.mtc := rfl
@[simp] theorem State.upAdm_rdx (s : State) (f : Adm → Adm) : (s.upAdm f).rdx = s.rdx := rfl
@[simp] theorem State.upAdm_ins (s : State) (f : Adm → Adm) : (s.upAdm f).ins = s.ins := rfl
@[simp] theorem State.upAdm_mpu (s : State) (f : Adm → Adm) : (s.upAdm f).mpu = s.mpu := rfl
@[simp] theorem State.upAdm_icu (s : State) (f : Adm → Adm) : (s.upAdm f).icu = s.icu := rfl
@[simp] theorem State.upAdm_msix (s : State) (f : Adm → Adm) : (s.upAdm f).msix = s.msix := rfl
@[simp] theorem State.upAdm_pwr (s : State) (f : Adm → Adm) : (s.upAdm f).pwr = s.pwr := rfl
@[simp] theorem State.upAdm_flt (s : State) (f : Adm → Adm) : (s.upAdm f).flt = s.flt := rfl
@[simp] theorem State.upAdm_ttc (s : State) (f : Adm → Adm) : (s.upAdm f).ttc = s.ttc := rfl
@[simp] theorem State.upAdm_mgc (s : State) (f : Adm → Adm) : (s.upAdm f).mgc = s.mgc := rfl
@[simp] theorem State.upAdm_latches (s : State) (f : Adm → Adm) : (s.upAdm f).latches = s.latches := rfl

/-! ### `upCsc` -/

@[simp] theorem State.upCsc_pending (s : State) (f : Csc → Csc) : (s.upCsc f).pending = s.pending := rfl
@[simp] theorem State.upCsc_waiting (s : State) (f : Csc → Csc) : (s.upCsc f).waiting = s.waiting := rfl
@[simp] theorem State.upCsc_freeCount (s : State) (f : Csc → Csc) : (s.upCsc f).freeCount = s.freeCount := rfl
@[simp] theorem State.upCsc_out (s : State) (f : Csc → Csc) : (s.upCsc f).out = s.out := rfl
@[simp] theorem State.upCsc_coreTime (s : State) (f : Csc → Csc) : (s.upCsc f).coreTime = s.coreTime := rfl
@[simp] theorem State.upCsc_masthead (s : State) (f : Csc → Csc) : (s.upCsc f).masthead = s.masthead := rfl
@[simp] theorem State.upCsc_hly (s : State) (f : Csc → Csc) : (s.upCsc f).hly = s.hly := rfl
@[simp] theorem State.upCsc_ftu (s : State) (f : Csc → Csc) : (s.upCsc f).ftu = s.ftu := rfl
@[simp] theorem State.upCsc_adm (s : State) (f : Csc → Csc) : (s.upCsc f).adm = s.adm := rfl
@[simp] theorem State.upCsc_csc (s : State) (f : Csc → Csc) : (s.upCsc f).csc = f s.csc := rfl
@[simp] theorem State.upCsc_obf (s : State) (f : Csc → Csc) : (s.upCsc f).obf = s.obf := rfl
@[simp] theorem State.upCsc_egs (s : State) (f : Csc → Csc) : (s.upCsc f).egs = s.egs := rfl
@[simp] theorem State.upCsc_arbs (s : State) (f : Csc → Csc) : (s.upCsc f).arbs = s.arbs := rfl
@[simp] theorem State.upCsc_rte (s : State) (f : Csc → Csc) : (s.upCsc f).rte = s.rte := rfl
@[simp] theorem State.upCsc_lnk (s : State) (f : Csc → Csc) : (s.upCsc f).lnk = s.lnk := rfl
@[simp] theorem State.upCsc_trn (s : State) (f : Csc → Csc) : (s.upCsc f).trn = s.trn := rfl
@[simp] theorem State.upCsc_prt (s : State) (f : Csc → Csc) : (s.upCsc f).prt = s.prt := rfl
@[simp] theorem State.upCsc_pool (s : State) (f : Csc → Csc) : (s.upCsc f).pool = s.pool := rfl
@[simp] theorem State.upCsc_dir (s : State) (f : Csc → Csc) : (s.upCsc f).dir = s.dir := rfl
@[simp] theorem State.upCsc_mec (s : State) (f : Csc → Csc) : (s.upCsc f).mec = s.mec := rfl
@[simp] theorem State.upCsc_locks (s : State) (f : Csc → Csc) : (s.upCsc f).locks = s.locks := rfl
@[simp] theorem State.upCsc_mtc (s : State) (f : Csc → Csc) : (s.upCsc f).mtc = s.mtc := rfl
@[simp] theorem State.upCsc_rdx (s : State) (f : Csc → Csc) : (s.upCsc f).rdx = s.rdx := rfl
@[simp] theorem State.upCsc_ins (s : State) (f : Csc → Csc) : (s.upCsc f).ins = s.ins := rfl
@[simp] theorem State.upCsc_mpu (s : State) (f : Csc → Csc) : (s.upCsc f).mpu = s.mpu := rfl
@[simp] theorem State.upCsc_icu (s : State) (f : Csc → Csc) : (s.upCsc f).icu = s.icu := rfl
@[simp] theorem State.upCsc_msix (s : State) (f : Csc → Csc) : (s.upCsc f).msix = s.msix := rfl
@[simp] theorem State.upCsc_pwr (s : State) (f : Csc → Csc) : (s.upCsc f).pwr = s.pwr := rfl
@[simp] theorem State.upCsc_flt (s : State) (f : Csc → Csc) : (s.upCsc f).flt = s.flt := rfl
@[simp] theorem State.upCsc_ttc (s : State) (f : Csc → Csc) : (s.upCsc f).ttc = s.ttc := rfl
@[simp] theorem State.upCsc_mgc (s : State) (f : Csc → Csc) : (s.upCsc f).mgc = s.mgc := rfl
@[simp] theorem State.upCsc_latches (s : State) (f : Csc → Csc) : (s.upCsc f).latches = s.latches := rfl

/-! ### `upObf` -/

@[simp] theorem State.upObf_pending (s : State) (f : Obf → Obf) : (s.upObf f).pending = s.pending := rfl
@[simp] theorem State.upObf_waiting (s : State) (f : Obf → Obf) : (s.upObf f).waiting = s.waiting := rfl
@[simp] theorem State.upObf_freeCount (s : State) (f : Obf → Obf) : (s.upObf f).freeCount = s.freeCount := rfl
@[simp] theorem State.upObf_out (s : State) (f : Obf → Obf) : (s.upObf f).out = s.out := rfl
@[simp] theorem State.upObf_coreTime (s : State) (f : Obf → Obf) : (s.upObf f).coreTime = s.coreTime := rfl
@[simp] theorem State.upObf_masthead (s : State) (f : Obf → Obf) : (s.upObf f).masthead = s.masthead := rfl
@[simp] theorem State.upObf_hly (s : State) (f : Obf → Obf) : (s.upObf f).hly = s.hly := rfl
@[simp] theorem State.upObf_ftu (s : State) (f : Obf → Obf) : (s.upObf f).ftu = s.ftu := rfl
@[simp] theorem State.upObf_adm (s : State) (f : Obf → Obf) : (s.upObf f).adm = s.adm := rfl
@[simp] theorem State.upObf_csc (s : State) (f : Obf → Obf) : (s.upObf f).csc = s.csc := rfl
@[simp] theorem State.upObf_obf (s : State) (f : Obf → Obf) : (s.upObf f).obf = f s.obf := rfl
@[simp] theorem State.upObf_egs (s : State) (f : Obf → Obf) : (s.upObf f).egs = s.egs := rfl
@[simp] theorem State.upObf_arbs (s : State) (f : Obf → Obf) : (s.upObf f).arbs = s.arbs := rfl
@[simp] theorem State.upObf_rte (s : State) (f : Obf → Obf) : (s.upObf f).rte = s.rte := rfl
@[simp] theorem State.upObf_lnk (s : State) (f : Obf → Obf) : (s.upObf f).lnk = s.lnk := rfl
@[simp] theorem State.upObf_trn (s : State) (f : Obf → Obf) : (s.upObf f).trn = s.trn := rfl
@[simp] theorem State.upObf_prt (s : State) (f : Obf → Obf) : (s.upObf f).prt = s.prt := rfl
@[simp] theorem State.upObf_pool (s : State) (f : Obf → Obf) : (s.upObf f).pool = s.pool := rfl
@[simp] theorem State.upObf_dir (s : State) (f : Obf → Obf) : (s.upObf f).dir = s.dir := rfl
@[simp] theorem State.upObf_mec (s : State) (f : Obf → Obf) : (s.upObf f).mec = s.mec := rfl
@[simp] theorem State.upObf_locks (s : State) (f : Obf → Obf) : (s.upObf f).locks = s.locks := rfl
@[simp] theorem State.upObf_mtc (s : State) (f : Obf → Obf) : (s.upObf f).mtc = s.mtc := rfl
@[simp] theorem State.upObf_rdx (s : State) (f : Obf → Obf) : (s.upObf f).rdx = s.rdx := rfl
@[simp] theorem State.upObf_ins (s : State) (f : Obf → Obf) : (s.upObf f).ins = s.ins := rfl
@[simp] theorem State.upObf_mpu (s : State) (f : Obf → Obf) : (s.upObf f).mpu = s.mpu := rfl
@[simp] theorem State.upObf_icu (s : State) (f : Obf → Obf) : (s.upObf f).icu = s.icu := rfl
@[simp] theorem State.upObf_msix (s : State) (f : Obf → Obf) : (s.upObf f).msix = s.msix := rfl
@[simp] theorem State.upObf_pwr (s : State) (f : Obf → Obf) : (s.upObf f).pwr = s.pwr := rfl
@[simp] theorem State.upObf_flt (s : State) (f : Obf → Obf) : (s.upObf f).flt = s.flt := rfl
@[simp] theorem State.upObf_ttc (s : State) (f : Obf → Obf) : (s.upObf f).ttc = s.ttc := rfl
@[simp] theorem State.upObf_mgc (s : State) (f : Obf → Obf) : (s.upObf f).mgc = s.mgc := rfl
@[simp] theorem State.upObf_latches (s : State) (f : Obf → Obf) : (s.upObf f).latches = s.latches := rfl

/-! ### `upEgs` -/

@[simp] theorem State.upEgs_pending (s : State) (f : Egs → Egs) : (s.upEgs f).pending = s.pending := rfl
@[simp] theorem State.upEgs_waiting (s : State) (f : Egs → Egs) : (s.upEgs f).waiting = s.waiting := rfl
@[simp] theorem State.upEgs_freeCount (s : State) (f : Egs → Egs) : (s.upEgs f).freeCount = s.freeCount := rfl
@[simp] theorem State.upEgs_out (s : State) (f : Egs → Egs) : (s.upEgs f).out = s.out := rfl
@[simp] theorem State.upEgs_coreTime (s : State) (f : Egs → Egs) : (s.upEgs f).coreTime = s.coreTime := rfl
@[simp] theorem State.upEgs_masthead (s : State) (f : Egs → Egs) : (s.upEgs f).masthead = s.masthead := rfl
@[simp] theorem State.upEgs_hly (s : State) (f : Egs → Egs) : (s.upEgs f).hly = s.hly := rfl
@[simp] theorem State.upEgs_ftu (s : State) (f : Egs → Egs) : (s.upEgs f).ftu = s.ftu := rfl
@[simp] theorem State.upEgs_adm (s : State) (f : Egs → Egs) : (s.upEgs f).adm = s.adm := rfl
@[simp] theorem State.upEgs_csc (s : State) (f : Egs → Egs) : (s.upEgs f).csc = s.csc := rfl
@[simp] theorem State.upEgs_obf (s : State) (f : Egs → Egs) : (s.upEgs f).obf = s.obf := rfl
@[simp] theorem State.upEgs_egs (s : State) (f : Egs → Egs) : (s.upEgs f).egs = f s.egs := rfl
@[simp] theorem State.upEgs_arbs (s : State) (f : Egs → Egs) : (s.upEgs f).arbs = s.arbs := rfl
@[simp] theorem State.upEgs_rte (s : State) (f : Egs → Egs) : (s.upEgs f).rte = s.rte := rfl
@[simp] theorem State.upEgs_lnk (s : State) (f : Egs → Egs) : (s.upEgs f).lnk = s.lnk := rfl
@[simp] theorem State.upEgs_trn (s : State) (f : Egs → Egs) : (s.upEgs f).trn = s.trn := rfl
@[simp] theorem State.upEgs_prt (s : State) (f : Egs → Egs) : (s.upEgs f).prt = s.prt := rfl
@[simp] theorem State.upEgs_pool (s : State) (f : Egs → Egs) : (s.upEgs f).pool = s.pool := rfl
@[simp] theorem State.upEgs_dir (s : State) (f : Egs → Egs) : (s.upEgs f).dir = s.dir := rfl
@[simp] theorem State.upEgs_mec (s : State) (f : Egs → Egs) : (s.upEgs f).mec = s.mec := rfl
@[simp] theorem State.upEgs_locks (s : State) (f : Egs → Egs) : (s.upEgs f).locks = s.locks := rfl
@[simp] theorem State.upEgs_mtc (s : State) (f : Egs → Egs) : (s.upEgs f).mtc = s.mtc := rfl
@[simp] theorem State.upEgs_rdx (s : State) (f : Egs → Egs) : (s.upEgs f).rdx = s.rdx := rfl
@[simp] theorem State.upEgs_ins (s : State) (f : Egs → Egs) : (s.upEgs f).ins = s.ins := rfl
@[simp] theorem State.upEgs_mpu (s : State) (f : Egs → Egs) : (s.upEgs f).mpu = s.mpu := rfl
@[simp] theorem State.upEgs_icu (s : State) (f : Egs → Egs) : (s.upEgs f).icu = s.icu := rfl
@[simp] theorem State.upEgs_msix (s : State) (f : Egs → Egs) : (s.upEgs f).msix = s.msix := rfl
@[simp] theorem State.upEgs_pwr (s : State) (f : Egs → Egs) : (s.upEgs f).pwr = s.pwr := rfl
@[simp] theorem State.upEgs_flt (s : State) (f : Egs → Egs) : (s.upEgs f).flt = s.flt := rfl
@[simp] theorem State.upEgs_ttc (s : State) (f : Egs → Egs) : (s.upEgs f).ttc = s.ttc := rfl
@[simp] theorem State.upEgs_mgc (s : State) (f : Egs → Egs) : (s.upEgs f).mgc = s.mgc := rfl
@[simp] theorem State.upEgs_latches (s : State) (f : Egs → Egs) : (s.upEgs f).latches = s.latches := rfl

/-! ### `upArbs` -/

@[simp] theorem State.upArbs_pending (s : State) (f : Arbs → Arbs) : (s.upArbs f).pending = s.pending := rfl
@[simp] theorem State.upArbs_waiting (s : State) (f : Arbs → Arbs) : (s.upArbs f).waiting = s.waiting := rfl
@[simp] theorem State.upArbs_freeCount (s : State) (f : Arbs → Arbs) : (s.upArbs f).freeCount = s.freeCount := rfl
@[simp] theorem State.upArbs_out (s : State) (f : Arbs → Arbs) : (s.upArbs f).out = s.out := rfl
@[simp] theorem State.upArbs_coreTime (s : State) (f : Arbs → Arbs) : (s.upArbs f).coreTime = s.coreTime := rfl
@[simp] theorem State.upArbs_masthead (s : State) (f : Arbs → Arbs) : (s.upArbs f).masthead = s.masthead := rfl
@[simp] theorem State.upArbs_hly (s : State) (f : Arbs → Arbs) : (s.upArbs f).hly = s.hly := rfl
@[simp] theorem State.upArbs_ftu (s : State) (f : Arbs → Arbs) : (s.upArbs f).ftu = s.ftu := rfl
@[simp] theorem State.upArbs_adm (s : State) (f : Arbs → Arbs) : (s.upArbs f).adm = s.adm := rfl
@[simp] theorem State.upArbs_csc (s : State) (f : Arbs → Arbs) : (s.upArbs f).csc = s.csc := rfl
@[simp] theorem State.upArbs_obf (s : State) (f : Arbs → Arbs) : (s.upArbs f).obf = s.obf := rfl
@[simp] theorem State.upArbs_egs (s : State) (f : Arbs → Arbs) : (s.upArbs f).egs = s.egs := rfl
@[simp] theorem State.upArbs_arbs (s : State) (f : Arbs → Arbs) : (s.upArbs f).arbs = f s.arbs := rfl
@[simp] theorem State.upArbs_rte (s : State) (f : Arbs → Arbs) : (s.upArbs f).rte = s.rte := rfl
@[simp] theorem State.upArbs_lnk (s : State) (f : Arbs → Arbs) : (s.upArbs f).lnk = s.lnk := rfl
@[simp] theorem State.upArbs_trn (s : State) (f : Arbs → Arbs) : (s.upArbs f).trn = s.trn := rfl
@[simp] theorem State.upArbs_prt (s : State) (f : Arbs → Arbs) : (s.upArbs f).prt = s.prt := rfl
@[simp] theorem State.upArbs_pool (s : State) (f : Arbs → Arbs) : (s.upArbs f).pool = s.pool := rfl
@[simp] theorem State.upArbs_dir (s : State) (f : Arbs → Arbs) : (s.upArbs f).dir = s.dir := rfl
@[simp] theorem State.upArbs_mec (s : State) (f : Arbs → Arbs) : (s.upArbs f).mec = s.mec := rfl
@[simp] theorem State.upArbs_locks (s : State) (f : Arbs → Arbs) : (s.upArbs f).locks = s.locks := rfl
@[simp] theorem State.upArbs_mtc (s : State) (f : Arbs → Arbs) : (s.upArbs f).mtc = s.mtc := rfl
@[simp] theorem State.upArbs_rdx (s : State) (f : Arbs → Arbs) : (s.upArbs f).rdx = s.rdx := rfl
@[simp] theorem State.upArbs_ins (s : State) (f : Arbs → Arbs) : (s.upArbs f).ins = s.ins := rfl
@[simp] theorem State.upArbs_mpu (s : State) (f : Arbs → Arbs) : (s.upArbs f).mpu = s.mpu := rfl
@[simp] theorem State.upArbs_icu (s : State) (f : Arbs → Arbs) : (s.upArbs f).icu = s.icu := rfl
@[simp] theorem State.upArbs_msix (s : State) (f : Arbs → Arbs) : (s.upArbs f).msix = s.msix := rfl
@[simp] theorem State.upArbs_pwr (s : State) (f : Arbs → Arbs) : (s.upArbs f).pwr = s.pwr := rfl
@[simp] theorem State.upArbs_flt (s : State) (f : Arbs → Arbs) : (s.upArbs f).flt = s.flt := rfl
@[simp] theorem State.upArbs_ttc (s : State) (f : Arbs → Arbs) : (s.upArbs f).ttc = s.ttc := rfl
@[simp] theorem State.upArbs_mgc (s : State) (f : Arbs → Arbs) : (s.upArbs f).mgc = s.mgc := rfl
@[simp] theorem State.upArbs_latches (s : State) (f : Arbs → Arbs) : (s.upArbs f).latches = s.latches := rfl

/-! ### `upRte` -/

@[simp] theorem State.upRte_pending (s : State) (f : Rte → Rte) : (s.upRte f).pending = s.pending := rfl
@[simp] theorem State.upRte_waiting (s : State) (f : Rte → Rte) : (s.upRte f).waiting = s.waiting := rfl
@[simp] theorem State.upRte_freeCount (s : State) (f : Rte → Rte) : (s.upRte f).freeCount = s.freeCount := rfl
@[simp] theorem State.upRte_out (s : State) (f : Rte → Rte) : (s.upRte f).out = s.out := rfl
@[simp] theorem State.upRte_coreTime (s : State) (f : Rte → Rte) : (s.upRte f).coreTime = s.coreTime := rfl
@[simp] theorem State.upRte_masthead (s : State) (f : Rte → Rte) : (s.upRte f).masthead = s.masthead := rfl
@[simp] theorem State.upRte_hly (s : State) (f : Rte → Rte) : (s.upRte f).hly = s.hly := rfl
@[simp] theorem State.upRte_ftu (s : State) (f : Rte → Rte) : (s.upRte f).ftu = s.ftu := rfl
@[simp] theorem State.upRte_adm (s : State) (f : Rte → Rte) : (s.upRte f).adm = s.adm := rfl
@[simp] theorem State.upRte_csc (s : State) (f : Rte → Rte) : (s.upRte f).csc = s.csc := rfl
@[simp] theorem State.upRte_obf (s : State) (f : Rte → Rte) : (s.upRte f).obf = s.obf := rfl
@[simp] theorem State.upRte_egs (s : State) (f : Rte → Rte) : (s.upRte f).egs = s.egs := rfl
@[simp] theorem State.upRte_arbs (s : State) (f : Rte → Rte) : (s.upRte f).arbs = s.arbs := rfl
@[simp] theorem State.upRte_rte (s : State) (f : Rte → Rte) : (s.upRte f).rte = f s.rte := rfl
@[simp] theorem State.upRte_lnk (s : State) (f : Rte → Rte) : (s.upRte f).lnk = s.lnk := rfl
@[simp] theorem State.upRte_trn (s : State) (f : Rte → Rte) : (s.upRte f).trn = s.trn := rfl
@[simp] theorem State.upRte_prt (s : State) (f : Rte → Rte) : (s.upRte f).prt = s.prt := rfl
@[simp] theorem State.upRte_pool (s : State) (f : Rte → Rte) : (s.upRte f).pool = s.pool := rfl
@[simp] theorem State.upRte_dir (s : State) (f : Rte → Rte) : (s.upRte f).dir = s.dir := rfl
@[simp] theorem State.upRte_mec (s : State) (f : Rte → Rte) : (s.upRte f).mec = s.mec := rfl
@[simp] theorem State.upRte_locks (s : State) (f : Rte → Rte) : (s.upRte f).locks = s.locks := rfl
@[simp] theorem State.upRte_mtc (s : State) (f : Rte → Rte) : (s.upRte f).mtc = s.mtc := rfl
@[simp] theorem State.upRte_rdx (s : State) (f : Rte → Rte) : (s.upRte f).rdx = s.rdx := rfl
@[simp] theorem State.upRte_ins (s : State) (f : Rte → Rte) : (s.upRte f).ins = s.ins := rfl
@[simp] theorem State.upRte_mpu (s : State) (f : Rte → Rte) : (s.upRte f).mpu = s.mpu := rfl
@[simp] theorem State.upRte_icu (s : State) (f : Rte → Rte) : (s.upRte f).icu = s.icu := rfl
@[simp] theorem State.upRte_msix (s : State) (f : Rte → Rte) : (s.upRte f).msix = s.msix := rfl
@[simp] theorem State.upRte_pwr (s : State) (f : Rte → Rte) : (s.upRte f).pwr = s.pwr := rfl
@[simp] theorem State.upRte_flt (s : State) (f : Rte → Rte) : (s.upRte f).flt = s.flt := rfl
@[simp] theorem State.upRte_ttc (s : State) (f : Rte → Rte) : (s.upRte f).ttc = s.ttc := rfl
@[simp] theorem State.upRte_mgc (s : State) (f : Rte → Rte) : (s.upRte f).mgc = s.mgc := rfl
@[simp] theorem State.upRte_latches (s : State) (f : Rte → Rte) : (s.upRte f).latches = s.latches := rfl

/-! ### `upLnk` -/

@[simp] theorem State.upLnk_pending (s : State) (f : Lnk → Lnk) : (s.upLnk f).pending = s.pending := rfl
@[simp] theorem State.upLnk_waiting (s : State) (f : Lnk → Lnk) : (s.upLnk f).waiting = s.waiting := rfl
@[simp] theorem State.upLnk_freeCount (s : State) (f : Lnk → Lnk) : (s.upLnk f).freeCount = s.freeCount := rfl
@[simp] theorem State.upLnk_out (s : State) (f : Lnk → Lnk) : (s.upLnk f).out = s.out := rfl
@[simp] theorem State.upLnk_coreTime (s : State) (f : Lnk → Lnk) : (s.upLnk f).coreTime = s.coreTime := rfl
@[simp] theorem State.upLnk_masthead (s : State) (f : Lnk → Lnk) : (s.upLnk f).masthead = s.masthead := rfl
@[simp] theorem State.upLnk_hly (s : State) (f : Lnk → Lnk) : (s.upLnk f).hly = s.hly := rfl
@[simp] theorem State.upLnk_ftu (s : State) (f : Lnk → Lnk) : (s.upLnk f).ftu = s.ftu := rfl
@[simp] theorem State.upLnk_adm (s : State) (f : Lnk → Lnk) : (s.upLnk f).adm = s.adm := rfl
@[simp] theorem State.upLnk_csc (s : State) (f : Lnk → Lnk) : (s.upLnk f).csc = s.csc := rfl
@[simp] theorem State.upLnk_obf (s : State) (f : Lnk → Lnk) : (s.upLnk f).obf = s.obf := rfl
@[simp] theorem State.upLnk_egs (s : State) (f : Lnk → Lnk) : (s.upLnk f).egs = s.egs := rfl
@[simp] theorem State.upLnk_arbs (s : State) (f : Lnk → Lnk) : (s.upLnk f).arbs = s.arbs := rfl
@[simp] theorem State.upLnk_rte (s : State) (f : Lnk → Lnk) : (s.upLnk f).rte = s.rte := rfl
@[simp] theorem State.upLnk_lnk (s : State) (f : Lnk → Lnk) : (s.upLnk f).lnk = f s.lnk := rfl
@[simp] theorem State.upLnk_trn (s : State) (f : Lnk → Lnk) : (s.upLnk f).trn = s.trn := rfl
@[simp] theorem State.upLnk_prt (s : State) (f : Lnk → Lnk) : (s.upLnk f).prt = s.prt := rfl
@[simp] theorem State.upLnk_pool (s : State) (f : Lnk → Lnk) : (s.upLnk f).pool = s.pool := rfl
@[simp] theorem State.upLnk_dir (s : State) (f : Lnk → Lnk) : (s.upLnk f).dir = s.dir := rfl
@[simp] theorem State.upLnk_mec (s : State) (f : Lnk → Lnk) : (s.upLnk f).mec = s.mec := rfl
@[simp] theorem State.upLnk_locks (s : State) (f : Lnk → Lnk) : (s.upLnk f).locks = s.locks := rfl
@[simp] theorem State.upLnk_mtc (s : State) (f : Lnk → Lnk) : (s.upLnk f).mtc = s.mtc := rfl
@[simp] theorem State.upLnk_rdx (s : State) (f : Lnk → Lnk) : (s.upLnk f).rdx = s.rdx := rfl
@[simp] theorem State.upLnk_ins (s : State) (f : Lnk → Lnk) : (s.upLnk f).ins = s.ins := rfl
@[simp] theorem State.upLnk_mpu (s : State) (f : Lnk → Lnk) : (s.upLnk f).mpu = s.mpu := rfl
@[simp] theorem State.upLnk_icu (s : State) (f : Lnk → Lnk) : (s.upLnk f).icu = s.icu := rfl
@[simp] theorem State.upLnk_msix (s : State) (f : Lnk → Lnk) : (s.upLnk f).msix = s.msix := rfl
@[simp] theorem State.upLnk_pwr (s : State) (f : Lnk → Lnk) : (s.upLnk f).pwr = s.pwr := rfl
@[simp] theorem State.upLnk_flt (s : State) (f : Lnk → Lnk) : (s.upLnk f).flt = s.flt := rfl
@[simp] theorem State.upLnk_ttc (s : State) (f : Lnk → Lnk) : (s.upLnk f).ttc = s.ttc := rfl
@[simp] theorem State.upLnk_mgc (s : State) (f : Lnk → Lnk) : (s.upLnk f).mgc = s.mgc := rfl
@[simp] theorem State.upLnk_latches (s : State) (f : Lnk → Lnk) : (s.upLnk f).latches = s.latches := rfl

/-! ### `upTrn` -/

@[simp] theorem State.upTrn_pending (s : State) (f : Trn → Trn) : (s.upTrn f).pending = s.pending := rfl
@[simp] theorem State.upTrn_waiting (s : State) (f : Trn → Trn) : (s.upTrn f).waiting = s.waiting := rfl
@[simp] theorem State.upTrn_freeCount (s : State) (f : Trn → Trn) : (s.upTrn f).freeCount = s.freeCount := rfl
@[simp] theorem State.upTrn_out (s : State) (f : Trn → Trn) : (s.upTrn f).out = s.out := rfl
@[simp] theorem State.upTrn_coreTime (s : State) (f : Trn → Trn) : (s.upTrn f).coreTime = s.coreTime := rfl
@[simp] theorem State.upTrn_masthead (s : State) (f : Trn → Trn) : (s.upTrn f).masthead = s.masthead := rfl
@[simp] theorem State.upTrn_hly (s : State) (f : Trn → Trn) : (s.upTrn f).hly = s.hly := rfl
@[simp] theorem State.upTrn_ftu (s : State) (f : Trn → Trn) : (s.upTrn f).ftu = s.ftu := rfl
@[simp] theorem State.upTrn_adm (s : State) (f : Trn → Trn) : (s.upTrn f).adm = s.adm := rfl
@[simp] theorem State.upTrn_csc (s : State) (f : Trn → Trn) : (s.upTrn f).csc = s.csc := rfl
@[simp] theorem State.upTrn_obf (s : State) (f : Trn → Trn) : (s.upTrn f).obf = s.obf := rfl
@[simp] theorem State.upTrn_egs (s : State) (f : Trn → Trn) : (s.upTrn f).egs = s.egs := rfl
@[simp] theorem State.upTrn_arbs (s : State) (f : Trn → Trn) : (s.upTrn f).arbs = s.arbs := rfl
@[simp] theorem State.upTrn_rte (s : State) (f : Trn → Trn) : (s.upTrn f).rte = s.rte := rfl
@[simp] theorem State.upTrn_lnk (s : State) (f : Trn → Trn) : (s.upTrn f).lnk = s.lnk := rfl
@[simp] theorem State.upTrn_trn (s : State) (f : Trn → Trn) : (s.upTrn f).trn = f s.trn := rfl
@[simp] theorem State.upTrn_prt (s : State) (f : Trn → Trn) : (s.upTrn f).prt = s.prt := rfl
@[simp] theorem State.upTrn_pool (s : State) (f : Trn → Trn) : (s.upTrn f).pool = s.pool := rfl
@[simp] theorem State.upTrn_dir (s : State) (f : Trn → Trn) : (s.upTrn f).dir = s.dir := rfl
@[simp] theorem State.upTrn_mec (s : State) (f : Trn → Trn) : (s.upTrn f).mec = s.mec := rfl
@[simp] theorem State.upTrn_locks (s : State) (f : Trn → Trn) : (s.upTrn f).locks = s.locks := rfl
@[simp] theorem State.upTrn_mtc (s : State) (f : Trn → Trn) : (s.upTrn f).mtc = s.mtc := rfl
@[simp] theorem State.upTrn_rdx (s : State) (f : Trn → Trn) : (s.upTrn f).rdx = s.rdx := rfl
@[simp] theorem State.upTrn_ins (s : State) (f : Trn → Trn) : (s.upTrn f).ins = s.ins := rfl
@[simp] theorem State.upTrn_mpu (s : State) (f : Trn → Trn) : (s.upTrn f).mpu = s.mpu := rfl
@[simp] theorem State.upTrn_icu (s : State) (f : Trn → Trn) : (s.upTrn f).icu = s.icu := rfl
@[simp] theorem State.upTrn_msix (s : State) (f : Trn → Trn) : (s.upTrn f).msix = s.msix := rfl
@[simp] theorem State.upTrn_pwr (s : State) (f : Trn → Trn) : (s.upTrn f).pwr = s.pwr := rfl
@[simp] theorem State.upTrn_flt (s : State) (f : Trn → Trn) : (s.upTrn f).flt = s.flt := rfl
@[simp] theorem State.upTrn_ttc (s : State) (f : Trn → Trn) : (s.upTrn f).ttc = s.ttc := rfl
@[simp] theorem State.upTrn_mgc (s : State) (f : Trn → Trn) : (s.upTrn f).mgc = s.mgc := rfl
@[simp] theorem State.upTrn_latches (s : State) (f : Trn → Trn) : (s.upTrn f).latches = s.latches := rfl

/-! ### `upPrt` -/

@[simp] theorem State.upPrt_pending (s : State) (f : Prt → Prt) : (s.upPrt f).pending = s.pending := rfl
@[simp] theorem State.upPrt_waiting (s : State) (f : Prt → Prt) : (s.upPrt f).waiting = s.waiting := rfl
@[simp] theorem State.upPrt_freeCount (s : State) (f : Prt → Prt) : (s.upPrt f).freeCount = s.freeCount := rfl
@[simp] theorem State.upPrt_out (s : State) (f : Prt → Prt) : (s.upPrt f).out = s.out := rfl
@[simp] theorem State.upPrt_coreTime (s : State) (f : Prt → Prt) : (s.upPrt f).coreTime = s.coreTime := rfl
@[simp] theorem State.upPrt_masthead (s : State) (f : Prt → Prt) : (s.upPrt f).masthead = s.masthead := rfl
@[simp] theorem State.upPrt_hly (s : State) (f : Prt → Prt) : (s.upPrt f).hly = s.hly := rfl
@[simp] theorem State.upPrt_ftu (s : State) (f : Prt → Prt) : (s.upPrt f).ftu = s.ftu := rfl
@[simp] theorem State.upPrt_adm (s : State) (f : Prt → Prt) : (s.upPrt f).adm = s.adm := rfl
@[simp] theorem State.upPrt_csc (s : State) (f : Prt → Prt) : (s.upPrt f).csc = s.csc := rfl
@[simp] theorem State.upPrt_obf (s : State) (f : Prt → Prt) : (s.upPrt f).obf = s.obf := rfl
@[simp] theorem State.upPrt_egs (s : State) (f : Prt → Prt) : (s.upPrt f).egs = s.egs := rfl
@[simp] theorem State.upPrt_arbs (s : State) (f : Prt → Prt) : (s.upPrt f).arbs = s.arbs := rfl
@[simp] theorem State.upPrt_rte (s : State) (f : Prt → Prt) : (s.upPrt f).rte = s.rte := rfl
@[simp] theorem State.upPrt_lnk (s : State) (f : Prt → Prt) : (s.upPrt f).lnk = s.lnk := rfl
@[simp] theorem State.upPrt_trn (s : State) (f : Prt → Prt) : (s.upPrt f).trn = s.trn := rfl
@[simp] theorem State.upPrt_prt (s : State) (f : Prt → Prt) : (s.upPrt f).prt = f s.prt := rfl
@[simp] theorem State.upPrt_pool (s : State) (f : Prt → Prt) : (s.upPrt f).pool = s.pool := rfl
@[simp] theorem State.upPrt_dir (s : State) (f : Prt → Prt) : (s.upPrt f).dir = s.dir := rfl
@[simp] theorem State.upPrt_mec (s : State) (f : Prt → Prt) : (s.upPrt f).mec = s.mec := rfl
@[simp] theorem State.upPrt_locks (s : State) (f : Prt → Prt) : (s.upPrt f).locks = s.locks := rfl
@[simp] theorem State.upPrt_mtc (s : State) (f : Prt → Prt) : (s.upPrt f).mtc = s.mtc := rfl
@[simp] theorem State.upPrt_rdx (s : State) (f : Prt → Prt) : (s.upPrt f).rdx = s.rdx := rfl
@[simp] theorem State.upPrt_ins (s : State) (f : Prt → Prt) : (s.upPrt f).ins = s.ins := rfl
@[simp] theorem State.upPrt_mpu (s : State) (f : Prt → Prt) : (s.upPrt f).mpu = s.mpu := rfl
@[simp] theorem State.upPrt_icu (s : State) (f : Prt → Prt) : (s.upPrt f).icu = s.icu := rfl
@[simp] theorem State.upPrt_msix (s : State) (f : Prt → Prt) : (s.upPrt f).msix = s.msix := rfl
@[simp] theorem State.upPrt_pwr (s : State) (f : Prt → Prt) : (s.upPrt f).pwr = s.pwr := rfl
@[simp] theorem State.upPrt_flt (s : State) (f : Prt → Prt) : (s.upPrt f).flt = s.flt := rfl
@[simp] theorem State.upPrt_ttc (s : State) (f : Prt → Prt) : (s.upPrt f).ttc = s.ttc := rfl
@[simp] theorem State.upPrt_mgc (s : State) (f : Prt → Prt) : (s.upPrt f).mgc = s.mgc := rfl
@[simp] theorem State.upPrt_latches (s : State) (f : Prt → Prt) : (s.upPrt f).latches = s.latches := rfl

/-! ### `upPool` -/

@[simp] theorem State.upPool_pending (s : State) (f : Pool → Pool) : (s.upPool f).pending = s.pending := rfl
@[simp] theorem State.upPool_waiting (s : State) (f : Pool → Pool) : (s.upPool f).waiting = s.waiting := rfl
@[simp] theorem State.upPool_freeCount (s : State) (f : Pool → Pool) : (s.upPool f).freeCount = s.freeCount := rfl
@[simp] theorem State.upPool_out (s : State) (f : Pool → Pool) : (s.upPool f).out = s.out := rfl
@[simp] theorem State.upPool_coreTime (s : State) (f : Pool → Pool) : (s.upPool f).coreTime = s.coreTime := rfl
@[simp] theorem State.upPool_masthead (s : State) (f : Pool → Pool) : (s.upPool f).masthead = s.masthead := rfl
@[simp] theorem State.upPool_hly (s : State) (f : Pool → Pool) : (s.upPool f).hly = s.hly := rfl
@[simp] theorem State.upPool_ftu (s : State) (f : Pool → Pool) : (s.upPool f).ftu = s.ftu := rfl
@[simp] theorem State.upPool_adm (s : State) (f : Pool → Pool) : (s.upPool f).adm = s.adm := rfl
@[simp] theorem State.upPool_csc (s : State) (f : Pool → Pool) : (s.upPool f).csc = s.csc := rfl
@[simp] theorem State.upPool_obf (s : State) (f : Pool → Pool) : (s.upPool f).obf = s.obf := rfl
@[simp] theorem State.upPool_egs (s : State) (f : Pool → Pool) : (s.upPool f).egs = s.egs := rfl
@[simp] theorem State.upPool_arbs (s : State) (f : Pool → Pool) : (s.upPool f).arbs = s.arbs := rfl
@[simp] theorem State.upPool_rte (s : State) (f : Pool → Pool) : (s.upPool f).rte = s.rte := rfl
@[simp] theorem State.upPool_lnk (s : State) (f : Pool → Pool) : (s.upPool f).lnk = s.lnk := rfl
@[simp] theorem State.upPool_trn (s : State) (f : Pool → Pool) : (s.upPool f).trn = s.trn := rfl
@[simp] theorem State.upPool_prt (s : State) (f : Pool → Pool) : (s.upPool f).prt = s.prt := rfl
@[simp] theorem State.upPool_pool (s : State) (f : Pool → Pool) : (s.upPool f).pool = f s.pool := rfl
@[simp] theorem State.upPool_dir (s : State) (f : Pool → Pool) : (s.upPool f).dir = s.dir := rfl
@[simp] theorem State.upPool_mec (s : State) (f : Pool → Pool) : (s.upPool f).mec = s.mec := rfl
@[simp] theorem State.upPool_locks (s : State) (f : Pool → Pool) : (s.upPool f).locks = s.locks := rfl
@[simp] theorem State.upPool_mtc (s : State) (f : Pool → Pool) : (s.upPool f).mtc = s.mtc := rfl
@[simp] theorem State.upPool_rdx (s : State) (f : Pool → Pool) : (s.upPool f).rdx = s.rdx := rfl
@[simp] theorem State.upPool_ins (s : State) (f : Pool → Pool) : (s.upPool f).ins = s.ins := rfl
@[simp] theorem State.upPool_mpu (s : State) (f : Pool → Pool) : (s.upPool f).mpu = s.mpu := rfl
@[simp] theorem State.upPool_icu (s : State) (f : Pool → Pool) : (s.upPool f).icu = s.icu := rfl
@[simp] theorem State.upPool_msix (s : State) (f : Pool → Pool) : (s.upPool f).msix = s.msix := rfl
@[simp] theorem State.upPool_pwr (s : State) (f : Pool → Pool) : (s.upPool f).pwr = s.pwr := rfl
@[simp] theorem State.upPool_flt (s : State) (f : Pool → Pool) : (s.upPool f).flt = s.flt := rfl
@[simp] theorem State.upPool_ttc (s : State) (f : Pool → Pool) : (s.upPool f).ttc = s.ttc := rfl
@[simp] theorem State.upPool_mgc (s : State) (f : Pool → Pool) : (s.upPool f).mgc = s.mgc := rfl
@[simp] theorem State.upPool_latches (s : State) (f : Pool → Pool) : (s.upPool f).latches = s.latches := rfl

/-! ### `upDir` -/

@[simp] theorem State.upDir_pending (s : State) (f : Dir → Dir) : (s.upDir f).pending = s.pending := rfl
@[simp] theorem State.upDir_waiting (s : State) (f : Dir → Dir) : (s.upDir f).waiting = s.waiting := rfl
@[simp] theorem State.upDir_freeCount (s : State) (f : Dir → Dir) : (s.upDir f).freeCount = s.freeCount := rfl
@[simp] theorem State.upDir_out (s : State) (f : Dir → Dir) : (s.upDir f).out = s.out := rfl
@[simp] theorem State.upDir_coreTime (s : State) (f : Dir → Dir) : (s.upDir f).coreTime = s.coreTime := rfl
@[simp] theorem State.upDir_masthead (s : State) (f : Dir → Dir) : (s.upDir f).masthead = s.masthead := rfl
@[simp] theorem State.upDir_hly (s : State) (f : Dir → Dir) : (s.upDir f).hly = s.hly := rfl
@[simp] theorem State.upDir_ftu (s : State) (f : Dir → Dir) : (s.upDir f).ftu = s.ftu := rfl
@[simp] theorem State.upDir_adm (s : State) (f : Dir → Dir) : (s.upDir f).adm = s.adm := rfl
@[simp] theorem State.upDir_csc (s : State) (f : Dir → Dir) : (s.upDir f).csc = s.csc := rfl
@[simp] theorem State.upDir_obf (s : State) (f : Dir → Dir) : (s.upDir f).obf = s.obf := rfl
@[simp] theorem State.upDir_egs (s : State) (f : Dir → Dir) : (s.upDir f).egs = s.egs := rfl
@[simp] theorem State.upDir_arbs (s : State) (f : Dir → Dir) : (s.upDir f).arbs = s.arbs := rfl
@[simp] theorem State.upDir_rte (s : State) (f : Dir → Dir) : (s.upDir f).rte = s.rte := rfl
@[simp] theorem State.upDir_lnk (s : State) (f : Dir → Dir) : (s.upDir f).lnk = s.lnk := rfl
@[simp] theorem State.upDir_trn (s : State) (f : Dir → Dir) : (s.upDir f).trn = s.trn := rfl
@[simp] theorem State.upDir_prt (s : State) (f : Dir → Dir) : (s.upDir f).prt = s.prt := rfl
@[simp] theorem State.upDir_pool (s : State) (f : Dir → Dir) : (s.upDir f).pool = s.pool := rfl
@[simp] theorem State.upDir_dir (s : State) (f : Dir → Dir) : (s.upDir f).dir = f s.dir := rfl
@[simp] theorem State.upDir_mec (s : State) (f : Dir → Dir) : (s.upDir f).mec = s.mec := rfl
@[simp] theorem State.upDir_locks (s : State) (f : Dir → Dir) : (s.upDir f).locks = s.locks := rfl
@[simp] theorem State.upDir_mtc (s : State) (f : Dir → Dir) : (s.upDir f).mtc = s.mtc := rfl
@[simp] theorem State.upDir_rdx (s : State) (f : Dir → Dir) : (s.upDir f).rdx = s.rdx := rfl
@[simp] theorem State.upDir_ins (s : State) (f : Dir → Dir) : (s.upDir f).ins = s.ins := rfl
@[simp] theorem State.upDir_mpu (s : State) (f : Dir → Dir) : (s.upDir f).mpu = s.mpu := rfl
@[simp] theorem State.upDir_icu (s : State) (f : Dir → Dir) : (s.upDir f).icu = s.icu := rfl
@[simp] theorem State.upDir_msix (s : State) (f : Dir → Dir) : (s.upDir f).msix = s.msix := rfl
@[simp] theorem State.upDir_pwr (s : State) (f : Dir → Dir) : (s.upDir f).pwr = s.pwr := rfl
@[simp] theorem State.upDir_flt (s : State) (f : Dir → Dir) : (s.upDir f).flt = s.flt := rfl
@[simp] theorem State.upDir_ttc (s : State) (f : Dir → Dir) : (s.upDir f).ttc = s.ttc := rfl
@[simp] theorem State.upDir_mgc (s : State) (f : Dir → Dir) : (s.upDir f).mgc = s.mgc := rfl
@[simp] theorem State.upDir_latches (s : State) (f : Dir → Dir) : (s.upDir f).latches = s.latches := rfl

/-! ### `upMec` -/

@[simp] theorem State.upMec_pending (s : State) (f : Mec → Mec) : (s.upMec f).pending = s.pending := rfl
@[simp] theorem State.upMec_waiting (s : State) (f : Mec → Mec) : (s.upMec f).waiting = s.waiting := rfl
@[simp] theorem State.upMec_freeCount (s : State) (f : Mec → Mec) : (s.upMec f).freeCount = s.freeCount := rfl
@[simp] theorem State.upMec_out (s : State) (f : Mec → Mec) : (s.upMec f).out = s.out := rfl
@[simp] theorem State.upMec_coreTime (s : State) (f : Mec → Mec) : (s.upMec f).coreTime = s.coreTime := rfl
@[simp] theorem State.upMec_masthead (s : State) (f : Mec → Mec) : (s.upMec f).masthead = s.masthead := rfl
@[simp] theorem State.upMec_hly (s : State) (f : Mec → Mec) : (s.upMec f).hly = s.hly := rfl
@[simp] theorem State.upMec_ftu (s : State) (f : Mec → Mec) : (s.upMec f).ftu = s.ftu := rfl
@[simp] theorem State.upMec_adm (s : State) (f : Mec → Mec) : (s.upMec f).adm = s.adm := rfl
@[simp] theorem State.upMec_csc (s : State) (f : Mec → Mec) : (s.upMec f).csc = s.csc := rfl
@[simp] theorem State.upMec_obf (s : State) (f : Mec → Mec) : (s.upMec f).obf = s.obf := rfl
@[simp] theorem State.upMec_egs (s : State) (f : Mec → Mec) : (s.upMec f).egs = s.egs := rfl
@[simp] theorem State.upMec_arbs (s : State) (f : Mec → Mec) : (s.upMec f).arbs = s.arbs := rfl
@[simp] theorem State.upMec_rte (s : State) (f : Mec → Mec) : (s.upMec f).rte = s.rte := rfl
@[simp] theorem State.upMec_lnk (s : State) (f : Mec → Mec) : (s.upMec f).lnk = s.lnk := rfl
@[simp] theorem State.upMec_trn (s : State) (f : Mec → Mec) : (s.upMec f).trn = s.trn := rfl
@[simp] theorem State.upMec_prt (s : State) (f : Mec → Mec) : (s.upMec f).prt = s.prt := rfl
@[simp] theorem State.upMec_pool (s : State) (f : Mec → Mec) : (s.upMec f).pool = s.pool := rfl
@[simp] theorem State.upMec_dir (s : State) (f : Mec → Mec) : (s.upMec f).dir = s.dir := rfl
@[simp] theorem State.upMec_mec (s : State) (f : Mec → Mec) : (s.upMec f).mec = f s.mec := rfl
@[simp] theorem State.upMec_locks (s : State) (f : Mec → Mec) : (s.upMec f).locks = s.locks := rfl
@[simp] theorem State.upMec_mtc (s : State) (f : Mec → Mec) : (s.upMec f).mtc = s.mtc := rfl
@[simp] theorem State.upMec_rdx (s : State) (f : Mec → Mec) : (s.upMec f).rdx = s.rdx := rfl
@[simp] theorem State.upMec_ins (s : State) (f : Mec → Mec) : (s.upMec f).ins = s.ins := rfl
@[simp] theorem State.upMec_mpu (s : State) (f : Mec → Mec) : (s.upMec f).mpu = s.mpu := rfl
@[simp] theorem State.upMec_icu (s : State) (f : Mec → Mec) : (s.upMec f).icu = s.icu := rfl
@[simp] theorem State.upMec_msix (s : State) (f : Mec → Mec) : (s.upMec f).msix = s.msix := rfl
@[simp] theorem State.upMec_pwr (s : State) (f : Mec → Mec) : (s.upMec f).pwr = s.pwr := rfl
@[simp] theorem State.upMec_flt (s : State) (f : Mec → Mec) : (s.upMec f).flt = s.flt := rfl
@[simp] theorem State.upMec_ttc (s : State) (f : Mec → Mec) : (s.upMec f).ttc = s.ttc := rfl
@[simp] theorem State.upMec_mgc (s : State) (f : Mec → Mec) : (s.upMec f).mgc = s.mgc := rfl
@[simp] theorem State.upMec_latches (s : State) (f : Mec → Mec) : (s.upMec f).latches = s.latches := rfl

/-! ### `upLocks` -/

@[simp] theorem State.upLocks_pending (s : State) (f : Locks → Locks) : (s.upLocks f).pending = s.pending := rfl
@[simp] theorem State.upLocks_waiting (s : State) (f : Locks → Locks) : (s.upLocks f).waiting = s.waiting := rfl
@[simp] theorem State.upLocks_freeCount (s : State) (f : Locks → Locks) : (s.upLocks f).freeCount = s.freeCount := rfl
@[simp] theorem State.upLocks_out (s : State) (f : Locks → Locks) : (s.upLocks f).out = s.out := rfl
@[simp] theorem State.upLocks_coreTime (s : State) (f : Locks → Locks) : (s.upLocks f).coreTime = s.coreTime := rfl
@[simp] theorem State.upLocks_masthead (s : State) (f : Locks → Locks) : (s.upLocks f).masthead = s.masthead := rfl
@[simp] theorem State.upLocks_hly (s : State) (f : Locks → Locks) : (s.upLocks f).hly = s.hly := rfl
@[simp] theorem State.upLocks_ftu (s : State) (f : Locks → Locks) : (s.upLocks f).ftu = s.ftu := rfl
@[simp] theorem State.upLocks_adm (s : State) (f : Locks → Locks) : (s.upLocks f).adm = s.adm := rfl
@[simp] theorem State.upLocks_csc (s : State) (f : Locks → Locks) : (s.upLocks f).csc = s.csc := rfl
@[simp] theorem State.upLocks_obf (s : State) (f : Locks → Locks) : (s.upLocks f).obf = s.obf := rfl
@[simp] theorem State.upLocks_egs (s : State) (f : Locks → Locks) : (s.upLocks f).egs = s.egs := rfl
@[simp] theorem State.upLocks_arbs (s : State) (f : Locks → Locks) : (s.upLocks f).arbs = s.arbs := rfl
@[simp] theorem State.upLocks_rte (s : State) (f : Locks → Locks) : (s.upLocks f).rte = s.rte := rfl
@[simp] theorem State.upLocks_lnk (s : State) (f : Locks → Locks) : (s.upLocks f).lnk = s.lnk := rfl
@[simp] theorem State.upLocks_trn (s : State) (f : Locks → Locks) : (s.upLocks f).trn = s.trn := rfl
@[simp] theorem State.upLocks_prt (s : State) (f : Locks → Locks) : (s.upLocks f).prt = s.prt := rfl
@[simp] theorem State.upLocks_pool (s : State) (f : Locks → Locks) : (s.upLocks f).pool = s.pool := rfl
@[simp] theorem State.upLocks_dir (s : State) (f : Locks → Locks) : (s.upLocks f).dir = s.dir := rfl
@[simp] theorem State.upLocks_mec (s : State) (f : Locks → Locks) : (s.upLocks f).mec = s.mec := rfl
@[simp] theorem State.upLocks_locks (s : State) (f : Locks → Locks) : (s.upLocks f).locks = f s.locks := rfl
@[simp] theorem State.upLocks_mtc (s : State) (f : Locks → Locks) : (s.upLocks f).mtc = s.mtc := rfl
@[simp] theorem State.upLocks_rdx (s : State) (f : Locks → Locks) : (s.upLocks f).rdx = s.rdx := rfl
@[simp] theorem State.upLocks_ins (s : State) (f : Locks → Locks) : (s.upLocks f).ins = s.ins := rfl
@[simp] theorem State.upLocks_mpu (s : State) (f : Locks → Locks) : (s.upLocks f).mpu = s.mpu := rfl
@[simp] theorem State.upLocks_icu (s : State) (f : Locks → Locks) : (s.upLocks f).icu = s.icu := rfl
@[simp] theorem State.upLocks_msix (s : State) (f : Locks → Locks) : (s.upLocks f).msix = s.msix := rfl
@[simp] theorem State.upLocks_pwr (s : State) (f : Locks → Locks) : (s.upLocks f).pwr = s.pwr := rfl
@[simp] theorem State.upLocks_flt (s : State) (f : Locks → Locks) : (s.upLocks f).flt = s.flt := rfl
@[simp] theorem State.upLocks_ttc (s : State) (f : Locks → Locks) : (s.upLocks f).ttc = s.ttc := rfl
@[simp] theorem State.upLocks_mgc (s : State) (f : Locks → Locks) : (s.upLocks f).mgc = s.mgc := rfl
@[simp] theorem State.upLocks_latches (s : State) (f : Locks → Locks) : (s.upLocks f).latches = s.latches := rfl

/-! ### `upMtc` -/

@[simp] theorem State.upMtc_pending (s : State) (f : Mtc → Mtc) : (s.upMtc f).pending = s.pending := rfl
@[simp] theorem State.upMtc_waiting (s : State) (f : Mtc → Mtc) : (s.upMtc f).waiting = s.waiting := rfl
@[simp] theorem State.upMtc_freeCount (s : State) (f : Mtc → Mtc) : (s.upMtc f).freeCount = s.freeCount := rfl
@[simp] theorem State.upMtc_out (s : State) (f : Mtc → Mtc) : (s.upMtc f).out = s.out := rfl
@[simp] theorem State.upMtc_coreTime (s : State) (f : Mtc → Mtc) : (s.upMtc f).coreTime = s.coreTime := rfl
@[simp] theorem State.upMtc_masthead (s : State) (f : Mtc → Mtc) : (s.upMtc f).masthead = s.masthead := rfl
@[simp] theorem State.upMtc_hly (s : State) (f : Mtc → Mtc) : (s.upMtc f).hly = s.hly := rfl
@[simp] theorem State.upMtc_ftu (s : State) (f : Mtc → Mtc) : (s.upMtc f).ftu = s.ftu := rfl
@[simp] theorem State.upMtc_adm (s : State) (f : Mtc → Mtc) : (s.upMtc f).adm = s.adm := rfl
@[simp] theorem State.upMtc_csc (s : State) (f : Mtc → Mtc) : (s.upMtc f).csc = s.csc := rfl
@[simp] theorem State.upMtc_obf (s : State) (f : Mtc → Mtc) : (s.upMtc f).obf = s.obf := rfl
@[simp] theorem State.upMtc_egs (s : State) (f : Mtc → Mtc) : (s.upMtc f).egs = s.egs := rfl
@[simp] theorem State.upMtc_arbs (s : State) (f : Mtc → Mtc) : (s.upMtc f).arbs = s.arbs := rfl
@[simp] theorem State.upMtc_rte (s : State) (f : Mtc → Mtc) : (s.upMtc f).rte = s.rte := rfl
@[simp] theorem State.upMtc_lnk (s : State) (f : Mtc → Mtc) : (s.upMtc f).lnk = s.lnk := rfl
@[simp] theorem State.upMtc_trn (s : State) (f : Mtc → Mtc) : (s.upMtc f).trn = s.trn := rfl
@[simp] theorem State.upMtc_prt (s : State) (f : Mtc → Mtc) : (s.upMtc f).prt = s.prt := rfl
@[simp] theorem State.upMtc_pool (s : State) (f : Mtc → Mtc) : (s.upMtc f).pool = s.pool := rfl
@[simp] theorem State.upMtc_dir (s : State) (f : Mtc → Mtc) : (s.upMtc f).dir = s.dir := rfl
@[simp] theorem State.upMtc_mec (s : State) (f : Mtc → Mtc) : (s.upMtc f).mec = s.mec := rfl
@[simp] theorem State.upMtc_locks (s : State) (f : Mtc → Mtc) : (s.upMtc f).locks = s.locks := rfl
@[simp] theorem State.upMtc_mtc (s : State) (f : Mtc → Mtc) : (s.upMtc f).mtc = f s.mtc := rfl
@[simp] theorem State.upMtc_rdx (s : State) (f : Mtc → Mtc) : (s.upMtc f).rdx = s.rdx := rfl
@[simp] theorem State.upMtc_ins (s : State) (f : Mtc → Mtc) : (s.upMtc f).ins = s.ins := rfl
@[simp] theorem State.upMtc_mpu (s : State) (f : Mtc → Mtc) : (s.upMtc f).mpu = s.mpu := rfl
@[simp] theorem State.upMtc_icu (s : State) (f : Mtc → Mtc) : (s.upMtc f).icu = s.icu := rfl
@[simp] theorem State.upMtc_msix (s : State) (f : Mtc → Mtc) : (s.upMtc f).msix = s.msix := rfl
@[simp] theorem State.upMtc_pwr (s : State) (f : Mtc → Mtc) : (s.upMtc f).pwr = s.pwr := rfl
@[simp] theorem State.upMtc_flt (s : State) (f : Mtc → Mtc) : (s.upMtc f).flt = s.flt := rfl
@[simp] theorem State.upMtc_ttc (s : State) (f : Mtc → Mtc) : (s.upMtc f).ttc = s.ttc := rfl
@[simp] theorem State.upMtc_mgc (s : State) (f : Mtc → Mtc) : (s.upMtc f).mgc = s.mgc := rfl
@[simp] theorem State.upMtc_latches (s : State) (f : Mtc → Mtc) : (s.upMtc f).latches = s.latches := rfl

/-! ### `upRdx` -/

@[simp] theorem State.upRdx_pending (s : State) (f : Rdx → Rdx) : (s.upRdx f).pending = s.pending := rfl
@[simp] theorem State.upRdx_waiting (s : State) (f : Rdx → Rdx) : (s.upRdx f).waiting = s.waiting := rfl
@[simp] theorem State.upRdx_freeCount (s : State) (f : Rdx → Rdx) : (s.upRdx f).freeCount = s.freeCount := rfl
@[simp] theorem State.upRdx_out (s : State) (f : Rdx → Rdx) : (s.upRdx f).out = s.out := rfl
@[simp] theorem State.upRdx_coreTime (s : State) (f : Rdx → Rdx) : (s.upRdx f).coreTime = s.coreTime := rfl
@[simp] theorem State.upRdx_masthead (s : State) (f : Rdx → Rdx) : (s.upRdx f).masthead = s.masthead := rfl
@[simp] theorem State.upRdx_hly (s : State) (f : Rdx → Rdx) : (s.upRdx f).hly = s.hly := rfl
@[simp] theorem State.upRdx_ftu (s : State) (f : Rdx → Rdx) : (s.upRdx f).ftu = s.ftu := rfl
@[simp] theorem State.upRdx_adm (s : State) (f : Rdx → Rdx) : (s.upRdx f).adm = s.adm := rfl
@[simp] theorem State.upRdx_csc (s : State) (f : Rdx → Rdx) : (s.upRdx f).csc = s.csc := rfl
@[simp] theorem State.upRdx_obf (s : State) (f : Rdx → Rdx) : (s.upRdx f).obf = s.obf := rfl
@[simp] theorem State.upRdx_egs (s : State) (f : Rdx → Rdx) : (s.upRdx f).egs = s.egs := rfl
@[simp] theorem State.upRdx_arbs (s : State) (f : Rdx → Rdx) : (s.upRdx f).arbs = s.arbs := rfl
@[simp] theorem State.upRdx_rte (s : State) (f : Rdx → Rdx) : (s.upRdx f).rte = s.rte := rfl
@[simp] theorem State.upRdx_lnk (s : State) (f : Rdx → Rdx) : (s.upRdx f).lnk = s.lnk := rfl
@[simp] theorem State.upRdx_trn (s : State) (f : Rdx → Rdx) : (s.upRdx f).trn = s.trn := rfl
@[simp] theorem State.upRdx_prt (s : State) (f : Rdx → Rdx) : (s.upRdx f).prt = s.prt := rfl
@[simp] theorem State.upRdx_pool (s : State) (f : Rdx → Rdx) : (s.upRdx f).pool = s.pool := rfl
@[simp] theorem State.upRdx_dir (s : State) (f : Rdx → Rdx) : (s.upRdx f).dir = s.dir := rfl
@[simp] theorem State.upRdx_mec (s : State) (f : Rdx → Rdx) : (s.upRdx f).mec = s.mec := rfl
@[simp] theorem State.upRdx_locks (s : State) (f : Rdx → Rdx) : (s.upRdx f).locks = s.locks := rfl
@[simp] theorem State.upRdx_mtc (s : State) (f : Rdx → Rdx) : (s.upRdx f).mtc = s.mtc := rfl
@[simp] theorem State.upRdx_rdx (s : State) (f : Rdx → Rdx) : (s.upRdx f).rdx = f s.rdx := rfl
@[simp] theorem State.upRdx_ins (s : State) (f : Rdx → Rdx) : (s.upRdx f).ins = s.ins := rfl
@[simp] theorem State.upRdx_mpu (s : State) (f : Rdx → Rdx) : (s.upRdx f).mpu = s.mpu := rfl
@[simp] theorem State.upRdx_icu (s : State) (f : Rdx → Rdx) : (s.upRdx f).icu = s.icu := rfl
@[simp] theorem State.upRdx_msix (s : State) (f : Rdx → Rdx) : (s.upRdx f).msix = s.msix := rfl
@[simp] theorem State.upRdx_pwr (s : State) (f : Rdx → Rdx) : (s.upRdx f).pwr = s.pwr := rfl
@[simp] theorem State.upRdx_flt (s : State) (f : Rdx → Rdx) : (s.upRdx f).flt = s.flt := rfl
@[simp] theorem State.upRdx_ttc (s : State) (f : Rdx → Rdx) : (s.upRdx f).ttc = s.ttc := rfl
@[simp] theorem State.upRdx_mgc (s : State) (f : Rdx → Rdx) : (s.upRdx f).mgc = s.mgc := rfl
@[simp] theorem State.upRdx_latches (s : State) (f : Rdx → Rdx) : (s.upRdx f).latches = s.latches := rfl

/-! ### `upIns` -/

@[simp] theorem State.upIns_pending (s : State) (f : Ins → Ins) : (s.upIns f).pending = s.pending := rfl
@[simp] theorem State.upIns_waiting (s : State) (f : Ins → Ins) : (s.upIns f).waiting = s.waiting := rfl
@[simp] theorem State.upIns_freeCount (s : State) (f : Ins → Ins) : (s.upIns f).freeCount = s.freeCount := rfl
@[simp] theorem State.upIns_out (s : State) (f : Ins → Ins) : (s.upIns f).out = s.out := rfl
@[simp] theorem State.upIns_coreTime (s : State) (f : Ins → Ins) : (s.upIns f).coreTime = s.coreTime := rfl
@[simp] theorem State.upIns_masthead (s : State) (f : Ins → Ins) : (s.upIns f).masthead = s.masthead := rfl
@[simp] theorem State.upIns_hly (s : State) (f : Ins → Ins) : (s.upIns f).hly = s.hly := rfl
@[simp] theorem State.upIns_ftu (s : State) (f : Ins → Ins) : (s.upIns f).ftu = s.ftu := rfl
@[simp] theorem State.upIns_adm (s : State) (f : Ins → Ins) : (s.upIns f).adm = s.adm := rfl
@[simp] theorem State.upIns_csc (s : State) (f : Ins → Ins) : (s.upIns f).csc = s.csc := rfl
@[simp] theorem State.upIns_obf (s : State) (f : Ins → Ins) : (s.upIns f).obf = s.obf := rfl
@[simp] theorem State.upIns_egs (s : State) (f : Ins → Ins) : (s.upIns f).egs = s.egs := rfl
@[simp] theorem State.upIns_arbs (s : State) (f : Ins → Ins) : (s.upIns f).arbs = s.arbs := rfl
@[simp] theorem State.upIns_rte (s : State) (f : Ins → Ins) : (s.upIns f).rte = s.rte := rfl
@[simp] theorem State.upIns_lnk (s : State) (f : Ins → Ins) : (s.upIns f).lnk = s.lnk := rfl
@[simp] theorem State.upIns_trn (s : State) (f : Ins → Ins) : (s.upIns f).trn = s.trn := rfl
@[simp] theorem State.upIns_prt (s : State) (f : Ins → Ins) : (s.upIns f).prt = s.prt := rfl
@[simp] theorem State.upIns_pool (s : State) (f : Ins → Ins) : (s.upIns f).pool = s.pool := rfl
@[simp] theorem State.upIns_dir (s : State) (f : Ins → Ins) : (s.upIns f).dir = s.dir := rfl
@[simp] theorem State.upIns_mec (s : State) (f : Ins → Ins) : (s.upIns f).mec = s.mec := rfl
@[simp] theorem State.upIns_locks (s : State) (f : Ins → Ins) : (s.upIns f).locks = s.locks := rfl
@[simp] theorem State.upIns_mtc (s : State) (f : Ins → Ins) : (s.upIns f).mtc = s.mtc := rfl
@[simp] theorem State.upIns_rdx (s : State) (f : Ins → Ins) : (s.upIns f).rdx = s.rdx := rfl
@[simp] theorem State.upIns_ins (s : State) (f : Ins → Ins) : (s.upIns f).ins = f s.ins := rfl
@[simp] theorem State.upIns_mpu (s : State) (f : Ins → Ins) : (s.upIns f).mpu = s.mpu := rfl
@[simp] theorem State.upIns_icu (s : State) (f : Ins → Ins) : (s.upIns f).icu = s.icu := rfl
@[simp] theorem State.upIns_msix (s : State) (f : Ins → Ins) : (s.upIns f).msix = s.msix := rfl
@[simp] theorem State.upIns_pwr (s : State) (f : Ins → Ins) : (s.upIns f).pwr = s.pwr := rfl
@[simp] theorem State.upIns_flt (s : State) (f : Ins → Ins) : (s.upIns f).flt = s.flt := rfl
@[simp] theorem State.upIns_ttc (s : State) (f : Ins → Ins) : (s.upIns f).ttc = s.ttc := rfl
@[simp] theorem State.upIns_mgc (s : State) (f : Ins → Ins) : (s.upIns f).mgc = s.mgc := rfl
@[simp] theorem State.upIns_latches (s : State) (f : Ins → Ins) : (s.upIns f).latches = s.latches := rfl

/-! ### `upMpu` -/

@[simp] theorem State.upMpu_pending (s : State) (f : Mpu → Mpu) : (s.upMpu f).pending = s.pending := rfl
@[simp] theorem State.upMpu_waiting (s : State) (f : Mpu → Mpu) : (s.upMpu f).waiting = s.waiting := rfl
@[simp] theorem State.upMpu_freeCount (s : State) (f : Mpu → Mpu) : (s.upMpu f).freeCount = s.freeCount := rfl
@[simp] theorem State.upMpu_out (s : State) (f : Mpu → Mpu) : (s.upMpu f).out = s.out := rfl
@[simp] theorem State.upMpu_coreTime (s : State) (f : Mpu → Mpu) : (s.upMpu f).coreTime = s.coreTime := rfl
@[simp] theorem State.upMpu_masthead (s : State) (f : Mpu → Mpu) : (s.upMpu f).masthead = s.masthead := rfl
@[simp] theorem State.upMpu_hly (s : State) (f : Mpu → Mpu) : (s.upMpu f).hly = s.hly := rfl
@[simp] theorem State.upMpu_ftu (s : State) (f : Mpu → Mpu) : (s.upMpu f).ftu = s.ftu := rfl
@[simp] theorem State.upMpu_adm (s : State) (f : Mpu → Mpu) : (s.upMpu f).adm = s.adm := rfl
@[simp] theorem State.upMpu_csc (s : State) (f : Mpu → Mpu) : (s.upMpu f).csc = s.csc := rfl
@[simp] theorem State.upMpu_obf (s : State) (f : Mpu → Mpu) : (s.upMpu f).obf = s.obf := rfl
@[simp] theorem State.upMpu_egs (s : State) (f : Mpu → Mpu) : (s.upMpu f).egs = s.egs := rfl
@[simp] theorem State.upMpu_arbs (s : State) (f : Mpu → Mpu) : (s.upMpu f).arbs = s.arbs := rfl
@[simp] theorem State.upMpu_rte (s : State) (f : Mpu → Mpu) : (s.upMpu f).rte = s.rte := rfl
@[simp] theorem State.upMpu_lnk (s : State) (f : Mpu → Mpu) : (s.upMpu f).lnk = s.lnk := rfl
@[simp] theorem State.upMpu_trn (s : State) (f : Mpu → Mpu) : (s.upMpu f).trn = s.trn := rfl
@[simp] theorem State.upMpu_prt (s : State) (f : Mpu → Mpu) : (s.upMpu f).prt = s.prt := rfl
@[simp] theorem State.upMpu_pool (s : State) (f : Mpu → Mpu) : (s.upMpu f).pool = s.pool := rfl
@[simp] theorem State.upMpu_dir (s : State) (f : Mpu → Mpu) : (s.upMpu f).dir = s.dir := rfl
@[simp] theorem State.upMpu_mec (s : State) (f : Mpu → Mpu) : (s.upMpu f).mec = s.mec := rfl
@[simp] theorem State.upMpu_locks (s : State) (f : Mpu → Mpu) : (s.upMpu f).locks = s.locks := rfl
@[simp] theorem State.upMpu_mtc (s : State) (f : Mpu → Mpu) : (s.upMpu f).mtc = s.mtc := rfl
@[simp] theorem State.upMpu_rdx (s : State) (f : Mpu → Mpu) : (s.upMpu f).rdx = s.rdx := rfl
@[simp] theorem State.upMpu_ins (s : State) (f : Mpu → Mpu) : (s.upMpu f).ins = s.ins := rfl
@[simp] theorem State.upMpu_mpu (s : State) (f : Mpu → Mpu) : (s.upMpu f).mpu = f s.mpu := rfl
@[simp] theorem State.upMpu_icu (s : State) (f : Mpu → Mpu) : (s.upMpu f).icu = s.icu := rfl
@[simp] theorem State.upMpu_msix (s : State) (f : Mpu → Mpu) : (s.upMpu f).msix = s.msix := rfl
@[simp] theorem State.upMpu_pwr (s : State) (f : Mpu → Mpu) : (s.upMpu f).pwr = s.pwr := rfl
@[simp] theorem State.upMpu_flt (s : State) (f : Mpu → Mpu) : (s.upMpu f).flt = s.flt := rfl
@[simp] theorem State.upMpu_ttc (s : State) (f : Mpu → Mpu) : (s.upMpu f).ttc = s.ttc := rfl
@[simp] theorem State.upMpu_mgc (s : State) (f : Mpu → Mpu) : (s.upMpu f).mgc = s.mgc := rfl
@[simp] theorem State.upMpu_latches (s : State) (f : Mpu → Mpu) : (s.upMpu f).latches = s.latches := rfl

/-! ### `upIcu` -/

@[simp] theorem State.upIcu_pending (s : State) (f : Icu → Icu) : (s.upIcu f).pending = s.pending := rfl
@[simp] theorem State.upIcu_waiting (s : State) (f : Icu → Icu) : (s.upIcu f).waiting = s.waiting := rfl
@[simp] theorem State.upIcu_freeCount (s : State) (f : Icu → Icu) : (s.upIcu f).freeCount = s.freeCount := rfl
@[simp] theorem State.upIcu_out (s : State) (f : Icu → Icu) : (s.upIcu f).out = s.out := rfl
@[simp] theorem State.upIcu_coreTime (s : State) (f : Icu → Icu) : (s.upIcu f).coreTime = s.coreTime := rfl
@[simp] theorem State.upIcu_masthead (s : State) (f : Icu → Icu) : (s.upIcu f).masthead = s.masthead := rfl
@[simp] theorem State.upIcu_hly (s : State) (f : Icu → Icu) : (s.upIcu f).hly = s.hly := rfl
@[simp] theorem State.upIcu_ftu (s : State) (f : Icu → Icu) : (s.upIcu f).ftu = s.ftu := rfl
@[simp] theorem State.upIcu_adm (s : State) (f : Icu → Icu) : (s.upIcu f).adm = s.adm := rfl
@[simp] theorem State.upIcu_csc (s : State) (f : Icu → Icu) : (s.upIcu f).csc = s.csc := rfl
@[simp] theorem State.upIcu_obf (s : State) (f : Icu → Icu) : (s.upIcu f).obf = s.obf := rfl
@[simp] theorem State.upIcu_egs (s : State) (f : Icu → Icu) : (s.upIcu f).egs = s.egs := rfl
@[simp] theorem State.upIcu_arbs (s : State) (f : Icu → Icu) : (s.upIcu f).arbs = s.arbs := rfl
@[simp] theorem State.upIcu_rte (s : State) (f : Icu → Icu) : (s.upIcu f).rte = s.rte := rfl
@[simp] theorem State.upIcu_lnk (s : State) (f : Icu → Icu) : (s.upIcu f).lnk = s.lnk := rfl
@[simp] theorem State.upIcu_trn (s : State) (f : Icu → Icu) : (s.upIcu f).trn = s.trn := rfl
@[simp] theorem State.upIcu_prt (s : State) (f : Icu → Icu) : (s.upIcu f).prt = s.prt := rfl
@[simp] theorem State.upIcu_pool (s : State) (f : Icu → Icu) : (s.upIcu f).pool = s.pool := rfl
@[simp] theorem State.upIcu_dir (s : State) (f : Icu → Icu) : (s.upIcu f).dir = s.dir := rfl
@[simp] theorem State.upIcu_mec (s : State) (f : Icu → Icu) : (s.upIcu f).mec = s.mec := rfl
@[simp] theorem State.upIcu_locks (s : State) (f : Icu → Icu) : (s.upIcu f).locks = s.locks := rfl
@[simp] theorem State.upIcu_mtc (s : State) (f : Icu → Icu) : (s.upIcu f).mtc = s.mtc := rfl
@[simp] theorem State.upIcu_rdx (s : State) (f : Icu → Icu) : (s.upIcu f).rdx = s.rdx := rfl
@[simp] theorem State.upIcu_ins (s : State) (f : Icu → Icu) : (s.upIcu f).ins = s.ins := rfl
@[simp] theorem State.upIcu_mpu (s : State) (f : Icu → Icu) : (s.upIcu f).mpu = s.mpu := rfl
@[simp] theorem State.upIcu_icu (s : State) (f : Icu → Icu) : (s.upIcu f).icu = f s.icu := rfl
@[simp] theorem State.upIcu_msix (s : State) (f : Icu → Icu) : (s.upIcu f).msix = s.msix := rfl
@[simp] theorem State.upIcu_pwr (s : State) (f : Icu → Icu) : (s.upIcu f).pwr = s.pwr := rfl
@[simp] theorem State.upIcu_flt (s : State) (f : Icu → Icu) : (s.upIcu f).flt = s.flt := rfl
@[simp] theorem State.upIcu_ttc (s : State) (f : Icu → Icu) : (s.upIcu f).ttc = s.ttc := rfl
@[simp] theorem State.upIcu_mgc (s : State) (f : Icu → Icu) : (s.upIcu f).mgc = s.mgc := rfl
@[simp] theorem State.upIcu_latches (s : State) (f : Icu → Icu) : (s.upIcu f).latches = s.latches := rfl

/-! ### `upPwr` -/

@[simp] theorem State.upPwr_pending (s : State) (f : Pwr → Pwr) : (s.upPwr f).pending = s.pending := rfl
@[simp] theorem State.upPwr_waiting (s : State) (f : Pwr → Pwr) : (s.upPwr f).waiting = s.waiting := rfl
@[simp] theorem State.upPwr_freeCount (s : State) (f : Pwr → Pwr) : (s.upPwr f).freeCount = s.freeCount := rfl
@[simp] theorem State.upPwr_out (s : State) (f : Pwr → Pwr) : (s.upPwr f).out = s.out := rfl
@[simp] theorem State.upPwr_coreTime (s : State) (f : Pwr → Pwr) : (s.upPwr f).coreTime = s.coreTime := rfl
@[simp] theorem State.upPwr_masthead (s : State) (f : Pwr → Pwr) : (s.upPwr f).masthead = s.masthead := rfl
@[simp] theorem State.upPwr_hly (s : State) (f : Pwr → Pwr) : (s.upPwr f).hly = s.hly := rfl
@[simp] theorem State.upPwr_ftu (s : State) (f : Pwr → Pwr) : (s.upPwr f).ftu = s.ftu := rfl
@[simp] theorem State.upPwr_adm (s : State) (f : Pwr → Pwr) : (s.upPwr f).adm = s.adm := rfl
@[simp] theorem State.upPwr_csc (s : State) (f : Pwr → Pwr) : (s.upPwr f).csc = s.csc := rfl
@[simp] theorem State.upPwr_obf (s : State) (f : Pwr → Pwr) : (s.upPwr f).obf = s.obf := rfl
@[simp] theorem State.upPwr_egs (s : State) (f : Pwr → Pwr) : (s.upPwr f).egs = s.egs := rfl
@[simp] theorem State.upPwr_arbs (s : State) (f : Pwr → Pwr) : (s.upPwr f).arbs = s.arbs := rfl
@[simp] theorem State.upPwr_rte (s : State) (f : Pwr → Pwr) : (s.upPwr f).rte = s.rte := rfl
@[simp] theorem State.upPwr_lnk (s : State) (f : Pwr → Pwr) : (s.upPwr f).lnk = s.lnk := rfl
@[simp] theorem State.upPwr_trn (s : State) (f : Pwr → Pwr) : (s.upPwr f).trn = s.trn := rfl
@[simp] theorem State.upPwr_prt (s : State) (f : Pwr → Pwr) : (s.upPwr f).prt = s.prt := rfl
@[simp] theorem State.upPwr_pool (s : State) (f : Pwr → Pwr) : (s.upPwr f).pool = s.pool := rfl
@[simp] theorem State.upPwr_dir (s : State) (f : Pwr → Pwr) : (s.upPwr f).dir = s.dir := rfl
@[simp] theorem State.upPwr_mec (s : State) (f : Pwr → Pwr) : (s.upPwr f).mec = s.mec := rfl
@[simp] theorem State.upPwr_locks (s : State) (f : Pwr → Pwr) : (s.upPwr f).locks = s.locks := rfl
@[simp] theorem State.upPwr_mtc (s : State) (f : Pwr → Pwr) : (s.upPwr f).mtc = s.mtc := rfl
@[simp] theorem State.upPwr_rdx (s : State) (f : Pwr → Pwr) : (s.upPwr f).rdx = s.rdx := rfl
@[simp] theorem State.upPwr_ins (s : State) (f : Pwr → Pwr) : (s.upPwr f).ins = s.ins := rfl
@[simp] theorem State.upPwr_mpu (s : State) (f : Pwr → Pwr) : (s.upPwr f).mpu = s.mpu := rfl
@[simp] theorem State.upPwr_icu (s : State) (f : Pwr → Pwr) : (s.upPwr f).icu = s.icu := rfl
@[simp] theorem State.upPwr_msix (s : State) (f : Pwr → Pwr) : (s.upPwr f).msix = s.msix := rfl
@[simp] theorem State.upPwr_pwr (s : State) (f : Pwr → Pwr) : (s.upPwr f).pwr = f s.pwr := rfl
@[simp] theorem State.upPwr_flt (s : State) (f : Pwr → Pwr) : (s.upPwr f).flt = s.flt := rfl
@[simp] theorem State.upPwr_ttc (s : State) (f : Pwr → Pwr) : (s.upPwr f).ttc = s.ttc := rfl
@[simp] theorem State.upPwr_mgc (s : State) (f : Pwr → Pwr) : (s.upPwr f).mgc = s.mgc := rfl
@[simp] theorem State.upPwr_latches (s : State) (f : Pwr → Pwr) : (s.upPwr f).latches = s.latches := rfl

/-! ### `upFlt` -/

@[simp] theorem State.upFlt_pending (s : State) (f : Flt → Flt) : (s.upFlt f).pending = s.pending := rfl
@[simp] theorem State.upFlt_waiting (s : State) (f : Flt → Flt) : (s.upFlt f).waiting = s.waiting := rfl
@[simp] theorem State.upFlt_freeCount (s : State) (f : Flt → Flt) : (s.upFlt f).freeCount = s.freeCount := rfl
@[simp] theorem State.upFlt_out (s : State) (f : Flt → Flt) : (s.upFlt f).out = s.out := rfl
@[simp] theorem State.upFlt_coreTime (s : State) (f : Flt → Flt) : (s.upFlt f).coreTime = s.coreTime := rfl
@[simp] theorem State.upFlt_masthead (s : State) (f : Flt → Flt) : (s.upFlt f).masthead = s.masthead := rfl
@[simp] theorem State.upFlt_hly (s : State) (f : Flt → Flt) : (s.upFlt f).hly = s.hly := rfl
@[simp] theorem State.upFlt_ftu (s : State) (f : Flt → Flt) : (s.upFlt f).ftu = s.ftu := rfl
@[simp] theorem State.upFlt_adm (s : State) (f : Flt → Flt) : (s.upFlt f).adm = s.adm := rfl
@[simp] theorem State.upFlt_csc (s : State) (f : Flt → Flt) : (s.upFlt f).csc = s.csc := rfl
@[simp] theorem State.upFlt_obf (s : State) (f : Flt → Flt) : (s.upFlt f).obf = s.obf := rfl
@[simp] theorem State.upFlt_egs (s : State) (f : Flt → Flt) : (s.upFlt f).egs = s.egs := rfl
@[simp] theorem State.upFlt_arbs (s : State) (f : Flt → Flt) : (s.upFlt f).arbs = s.arbs := rfl
@[simp] theorem State.upFlt_rte (s : State) (f : Flt → Flt) : (s.upFlt f).rte = s.rte := rfl
@[simp] theorem State.upFlt_lnk (s : State) (f : Flt → Flt) : (s.upFlt f).lnk = s.lnk := rfl
@[simp] theorem State.upFlt_trn (s : State) (f : Flt → Flt) : (s.upFlt f).trn = s.trn := rfl
@[simp] theorem State.upFlt_prt (s : State) (f : Flt → Flt) : (s.upFlt f).prt = s.prt := rfl
@[simp] theorem State.upFlt_pool (s : State) (f : Flt → Flt) : (s.upFlt f).pool = s.pool := rfl
@[simp] theorem State.upFlt_dir (s : State) (f : Flt → Flt) : (s.upFlt f).dir = s.dir := rfl
@[simp] theorem State.upFlt_mec (s : State) (f : Flt → Flt) : (s.upFlt f).mec = s.mec := rfl
@[simp] theorem State.upFlt_locks (s : State) (f : Flt → Flt) : (s.upFlt f).locks = s.locks := rfl
@[simp] theorem State.upFlt_mtc (s : State) (f : Flt → Flt) : (s.upFlt f).mtc = s.mtc := rfl
@[simp] theorem State.upFlt_rdx (s : State) (f : Flt → Flt) : (s.upFlt f).rdx = s.rdx := rfl
@[simp] theorem State.upFlt_ins (s : State) (f : Flt → Flt) : (s.upFlt f).ins = s.ins := rfl
@[simp] theorem State.upFlt_mpu (s : State) (f : Flt → Flt) : (s.upFlt f).mpu = s.mpu := rfl
@[simp] theorem State.upFlt_icu (s : State) (f : Flt → Flt) : (s.upFlt f).icu = s.icu := rfl
@[simp] theorem State.upFlt_msix (s : State) (f : Flt → Flt) : (s.upFlt f).msix = s.msix := rfl
@[simp] theorem State.upFlt_pwr (s : State) (f : Flt → Flt) : (s.upFlt f).pwr = s.pwr := rfl
@[simp] theorem State.upFlt_flt (s : State) (f : Flt → Flt) : (s.upFlt f).flt = f s.flt := rfl
@[simp] theorem State.upFlt_ttc (s : State) (f : Flt → Flt) : (s.upFlt f).ttc = s.ttc := rfl
@[simp] theorem State.upFlt_mgc (s : State) (f : Flt → Flt) : (s.upFlt f).mgc = s.mgc := rfl
@[simp] theorem State.upFlt_latches (s : State) (f : Flt → Flt) : (s.upFlt f).latches = s.latches := rfl

/-! ### `upTtc` -/

@[simp] theorem State.upTtc_pending (s : State) (f : Ttc → Ttc) : (s.upTtc f).pending = s.pending := rfl
@[simp] theorem State.upTtc_waiting (s : State) (f : Ttc → Ttc) : (s.upTtc f).waiting = s.waiting := rfl
@[simp] theorem State.upTtc_freeCount (s : State) (f : Ttc → Ttc) : (s.upTtc f).freeCount = s.freeCount := rfl
@[simp] theorem State.upTtc_out (s : State) (f : Ttc → Ttc) : (s.upTtc f).out = s.out := rfl
@[simp] theorem State.upTtc_coreTime (s : State) (f : Ttc → Ttc) : (s.upTtc f).coreTime = s.coreTime := rfl
@[simp] theorem State.upTtc_masthead (s : State) (f : Ttc → Ttc) : (s.upTtc f).masthead = s.masthead := rfl
@[simp] theorem State.upTtc_hly (s : State) (f : Ttc → Ttc) : (s.upTtc f).hly = s.hly := rfl
@[simp] theorem State.upTtc_ftu (s : State) (f : Ttc → Ttc) : (s.upTtc f).ftu = s.ftu := rfl
@[simp] theorem State.upTtc_adm (s : State) (f : Ttc → Ttc) : (s.upTtc f).adm = s.adm := rfl
@[simp] theorem State.upTtc_csc (s : State) (f : Ttc → Ttc) : (s.upTtc f).csc = s.csc := rfl
@[simp] theorem State.upTtc_obf (s : State) (f : Ttc → Ttc) : (s.upTtc f).obf = s.obf := rfl
@[simp] theorem State.upTtc_egs (s : State) (f : Ttc → Ttc) : (s.upTtc f).egs = s.egs := rfl
@[simp] theorem State.upTtc_arbs (s : State) (f : Ttc → Ttc) : (s.upTtc f).arbs = s.arbs := rfl
@[simp] theorem State.upTtc_rte (s : State) (f : Ttc → Ttc) : (s.upTtc f).rte = s.rte := rfl
@[simp] theorem State.upTtc_lnk (s : State) (f : Ttc → Ttc) : (s.upTtc f).lnk = s.lnk := rfl
@[simp] theorem State.upTtc_trn (s : State) (f : Ttc → Ttc) : (s.upTtc f).trn = s.trn := rfl
@[simp] theorem State.upTtc_prt (s : State) (f : Ttc → Ttc) : (s.upTtc f).prt = s.prt := rfl
@[simp] theorem State.upTtc_pool (s : State) (f : Ttc → Ttc) : (s.upTtc f).pool = s.pool := rfl
@[simp] theorem State.upTtc_dir (s : State) (f : Ttc → Ttc) : (s.upTtc f).dir = s.dir := rfl
@[simp] theorem State.upTtc_mec (s : State) (f : Ttc → Ttc) : (s.upTtc f).mec = s.mec := rfl
@[simp] theorem State.upTtc_locks (s : State) (f : Ttc → Ttc) : (s.upTtc f).locks = s.locks := rfl
@[simp] theorem State.upTtc_mtc (s : State) (f : Ttc → Ttc) : (s.upTtc f).mtc = s.mtc := rfl
@[simp] theorem State.upTtc_rdx (s : State) (f : Ttc → Ttc) : (s.upTtc f).rdx = s.rdx := rfl
@[simp] theorem State.upTtc_ins (s : State) (f : Ttc → Ttc) : (s.upTtc f).ins = s.ins := rfl
@[simp] theorem State.upTtc_mpu (s : State) (f : Ttc → Ttc) : (s.upTtc f).mpu = s.mpu := rfl
@[simp] theorem State.upTtc_icu (s : State) (f : Ttc → Ttc) : (s.upTtc f).icu = s.icu := rfl
@[simp] theorem State.upTtc_msix (s : State) (f : Ttc → Ttc) : (s.upTtc f).msix = s.msix := rfl
@[simp] theorem State.upTtc_pwr (s : State) (f : Ttc → Ttc) : (s.upTtc f).pwr = s.pwr := rfl
@[simp] theorem State.upTtc_flt (s : State) (f : Ttc → Ttc) : (s.upTtc f).flt = s.flt := rfl
@[simp] theorem State.upTtc_ttc (s : State) (f : Ttc → Ttc) : (s.upTtc f).ttc = f s.ttc := rfl
@[simp] theorem State.upTtc_mgc (s : State) (f : Ttc → Ttc) : (s.upTtc f).mgc = s.mgc := rfl
@[simp] theorem State.upTtc_latches (s : State) (f : Ttc → Ttc) : (s.upTtc f).latches = s.latches := rfl

/-! ### `upMgc` -/

@[simp] theorem State.upMgc_pending (s : State) (f : Mgc → Mgc) : (s.upMgc f).pending = s.pending := rfl
@[simp] theorem State.upMgc_waiting (s : State) (f : Mgc → Mgc) : (s.upMgc f).waiting = s.waiting := rfl
@[simp] theorem State.upMgc_freeCount (s : State) (f : Mgc → Mgc) : (s.upMgc f).freeCount = s.freeCount := rfl
@[simp] theorem State.upMgc_out (s : State) (f : Mgc → Mgc) : (s.upMgc f).out = s.out := rfl
@[simp] theorem State.upMgc_coreTime (s : State) (f : Mgc → Mgc) : (s.upMgc f).coreTime = s.coreTime := rfl
@[simp] theorem State.upMgc_masthead (s : State) (f : Mgc → Mgc) : (s.upMgc f).masthead = s.masthead := rfl
@[simp] theorem State.upMgc_hly (s : State) (f : Mgc → Mgc) : (s.upMgc f).hly = s.hly := rfl
@[simp] theorem State.upMgc_ftu (s : State) (f : Mgc → Mgc) : (s.upMgc f).ftu = s.ftu := rfl
@[simp] theorem State.upMgc_adm (s : State) (f : Mgc → Mgc) : (s.upMgc f).adm = s.adm := rfl
@[simp] theorem State.upMgc_csc (s : State) (f : Mgc → Mgc) : (s.upMgc f).csc = s.csc := rfl
@[simp] theorem State.upMgc_obf (s : State) (f : Mgc → Mgc) : (s.upMgc f).obf = s.obf := rfl
@[simp] theorem State.upMgc_egs (s : State) (f : Mgc → Mgc) : (s.upMgc f).egs = s.egs := rfl
@[simp] theorem State.upMgc_arbs (s : State) (f : Mgc → Mgc) : (s.upMgc f).arbs = s.arbs := rfl
@[simp] theorem State.upMgc_rte (s : State) (f : Mgc → Mgc) : (s.upMgc f).rte = s.rte := rfl
@[simp] theorem State.upMgc_lnk (s : State) (f : Mgc → Mgc) : (s.upMgc f).lnk = s.lnk := rfl
@[simp] theorem State.upMgc_trn (s : State) (f : Mgc → Mgc) : (s.upMgc f).trn = s.trn := rfl
@[simp] theorem State.upMgc_prt (s : State) (f : Mgc → Mgc) : (s.upMgc f).prt = s.prt := rfl
@[simp] theorem State.upMgc_pool (s : State) (f : Mgc → Mgc) : (s.upMgc f).pool = s.pool := rfl
@[simp] theorem State.upMgc_dir (s : State) (f : Mgc → Mgc) : (s.upMgc f).dir = s.dir := rfl
@[simp] theorem State.upMgc_mec (s : State) (f : Mgc → Mgc) : (s.upMgc f).mec = s.mec := rfl
@[simp] theorem State.upMgc_locks (s : State) (f : Mgc → Mgc) : (s.upMgc f).locks = s.locks := rfl
@[simp] theorem State.upMgc_mtc (s : State) (f : Mgc → Mgc) : (s.upMgc f).mtc = s.mtc := rfl
@[simp] theorem State.upMgc_rdx (s : State) (f : Mgc → Mgc) : (s.upMgc f).rdx = s.rdx := rfl
@[simp] theorem State.upMgc_ins (s : State) (f : Mgc → Mgc) : (s.upMgc f).ins = s.ins := rfl
@[simp] theorem State.upMgc_mpu (s : State) (f : Mgc → Mgc) : (s.upMgc f).mpu = s.mpu := rfl
@[simp] theorem State.upMgc_icu (s : State) (f : Mgc → Mgc) : (s.upMgc f).icu = s.icu := rfl
@[simp] theorem State.upMgc_msix (s : State) (f : Mgc → Mgc) : (s.upMgc f).msix = s.msix := rfl
@[simp] theorem State.upMgc_pwr (s : State) (f : Mgc → Mgc) : (s.upMgc f).pwr = s.pwr := rfl
@[simp] theorem State.upMgc_flt (s : State) (f : Mgc → Mgc) : (s.upMgc f).flt = s.flt := rfl
@[simp] theorem State.upMgc_ttc (s : State) (f : Mgc → Mgc) : (s.upMgc f).ttc = s.ttc := rfl
@[simp] theorem State.upMgc_mgc (s : State) (f : Mgc → Mgc) : (s.upMgc f).mgc = f s.mgc := rfl
@[simp] theorem State.upMgc_latches (s : State) (f : Mgc → Mgc) : (s.upMgc f).latches = s.latches := rfl

/-! ### `emit` -/

@[simp] theorem State.emit_pending (s : State) (o : Out) : (s.emit o).pending = s.pending := rfl
@[simp] theorem State.emit_waiting (s : State) (o : Out) : (s.emit o).waiting = s.waiting := rfl
@[simp] theorem State.emit_freeCount (s : State) (o : Out) : (s.emit o).freeCount = s.freeCount := rfl
@[simp] theorem State.emit_out (s : State) (o : Out) : (s.emit o).out = o :: s.out := rfl
@[simp] theorem State.emit_coreTime (s : State) (o : Out) : (s.emit o).coreTime = s.coreTime := rfl
@[simp] theorem State.emit_masthead (s : State) (o : Out) : (s.emit o).masthead = s.masthead := rfl
@[simp] theorem State.emit_hly (s : State) (o : Out) : (s.emit o).hly = s.hly := rfl
@[simp] theorem State.emit_ftu (s : State) (o : Out) : (s.emit o).ftu = s.ftu := rfl
@[simp] theorem State.emit_adm (s : State) (o : Out) : (s.emit o).adm = s.adm := rfl
@[simp] theorem State.emit_csc (s : State) (o : Out) : (s.emit o).csc = s.csc := rfl
@[simp] theorem State.emit_obf (s : State) (o : Out) : (s.emit o).obf = s.obf := rfl
@[simp] theorem State.emit_egs (s : State) (o : Out) : (s.emit o).egs = s.egs := rfl
@[simp] theorem State.emit_arbs (s : State) (o : Out) : (s.emit o).arbs = s.arbs := rfl
@[simp] theorem State.emit_rte (s : State) (o : Out) : (s.emit o).rte = s.rte := rfl
@[simp] theorem State.emit_lnk (s : State) (o : Out) : (s.emit o).lnk = s.lnk := rfl
@[simp] theorem State.emit_trn (s : State) (o : Out) : (s.emit o).trn = s.trn := rfl
@[simp] theorem State.emit_prt (s : State) (o : Out) : (s.emit o).prt = s.prt := rfl
@[simp] theorem State.emit_pool (s : State) (o : Out) : (s.emit o).pool = s.pool := rfl
@[simp] theorem State.emit_dir (s : State) (o : Out) : (s.emit o).dir = s.dir := rfl
@[simp] theorem State.emit_mec (s : State) (o : Out) : (s.emit o).mec = s.mec := rfl
@[simp] theorem State.emit_locks (s : State) (o : Out) : (s.emit o).locks = s.locks := rfl
@[simp] theorem State.emit_mtc (s : State) (o : Out) : (s.emit o).mtc = s.mtc := rfl
@[simp] theorem State.emit_rdx (s : State) (o : Out) : (s.emit o).rdx = s.rdx := rfl
@[simp] theorem State.emit_ins (s : State) (o : Out) : (s.emit o).ins = s.ins := rfl
@[simp] theorem State.emit_mpu (s : State) (o : Out) : (s.emit o).mpu = s.mpu := rfl
@[simp] theorem State.emit_icu (s : State) (o : Out) : (s.emit o).icu = s.icu := rfl
@[simp] theorem State.emit_msix (s : State) (o : Out) : (s.emit o).msix = s.msix := rfl
@[simp] theorem State.emit_pwr (s : State) (o : Out) : (s.emit o).pwr = s.pwr := rfl
@[simp] theorem State.emit_flt (s : State) (o : Out) : (s.emit o).flt = s.flt := rfl
@[simp] theorem State.emit_ttc (s : State) (o : Out) : (s.emit o).ttc = s.ttc := rfl
@[simp] theorem State.emit_mgc (s : State) (o : Out) : (s.emit o).mgc = s.mgc := rfl
@[simp] theorem State.emit_latches (s : State) (o : Out) : (s.emit o).latches = s.latches := rfl

end Sys2Proof.Machine
end

