-- ==== Sys2Proof/Laws/Frames.lean ====
section
/-!
SUPPORT. What each shared operation leaves: the blocks of the state that it does not touch.
-/
namespace Sys2Proof.Machine

/-- Counting an event (R541) changes the telltale block alone. -/
@[simp] theorem State.tally_frame (s : State) (e n : Nat) :
    let t := s.tally e n
    t.pending = s.pending ∧ t.waiting = s.waiting ∧ t.freeCount = s.freeCount ∧ t.out = s.out ∧ t.coreTime = s.coreTime ∧
    t.masthead = s.masthead ∧ t.hly = s.hly ∧ t.ftu = s.ftu ∧ t.adm = s.adm ∧ t.csc = s.csc ∧ t.obf = s.obf ∧ t.egs = s.egs ∧
    t.arbs = s.arbs ∧ t.rte = s.rte ∧ t.lnk = s.lnk ∧ t.trn = s.trn ∧ t.prt = s.prt ∧ t.pool = s.pool ∧ t.dir = s.dir ∧ t.mec = s.mec ∧
    t.locks = s.locks ∧ t.mtc = s.mtc ∧ t.rdx = s.rdx ∧ t.ins = s.ins ∧ t.mpu = s.mpu ∧ t.icu = s.icu ∧ t.msix = s.msix ∧ t.pwr = s.pwr ∧
    t.flt = s.flt ∧ t.mgc = s.mgc ∧ t.latches = s.latches := by
  simp [State.tally]

/-- Latching an interrupt source (R482) changes the interrupt block alone. -/
@[simp] theorem State.latchSrc_frame (s : State) (src : Nat) :
    let t := s.latchSrc src
    t.pending = s.pending ∧ t.waiting = s.waiting ∧ t.freeCount = s.freeCount ∧ t.out = s.out ∧ t.coreTime = s.coreTime ∧
    t.masthead = s.masthead ∧ t.hly = s.hly ∧ t.ftu = s.ftu ∧ t.adm = s.adm ∧ t.csc = s.csc ∧ t.obf = s.obf ∧ t.egs = s.egs ∧
    t.arbs = s.arbs ∧ t.rte = s.rte ∧ t.lnk = s.lnk ∧ t.trn = s.trn ∧ t.prt = s.prt ∧ t.pool = s.pool ∧ t.dir = s.dir ∧ t.mec = s.mec ∧
    t.locks = s.locks ∧ t.mtc = s.mtc ∧ t.rdx = s.rdx ∧ t.ins = s.ins ∧ t.mpu = s.mpu ∧ t.msix = s.msix ∧ t.pwr = s.pwr ∧ t.flt = s.flt ∧
    t.ttc = s.ttc ∧ t.mgc = s.mgc ∧ t.latches = s.latches := by
  simp [State.latchSrc]

/-- A change of an instance. -/
@[simp] theorem State.upInst_frame (s : State) (i : Nat) (f : Instance → Instance) :
    let t := s.upInst i f
    t.pending = s.pending ∧ t.waiting = s.waiting ∧ t.freeCount = s.freeCount ∧ t.out = s.out ∧ t.coreTime = s.coreTime ∧
    t.masthead = s.masthead ∧ t.hly = s.hly ∧ t.ftu = s.ftu ∧ t.adm = s.adm ∧ t.csc = s.csc ∧ t.obf = s.obf ∧ t.egs = s.egs ∧
    t.arbs = s.arbs ∧ t.rte = s.rte ∧ t.lnk = s.lnk ∧ t.trn = s.trn ∧ t.prt = s.prt ∧ t.pool = s.pool ∧ t.dir = s.dir ∧ t.mec = s.mec ∧
    t.locks = s.locks ∧ t.mtc = s.mtc ∧ t.rdx = s.rdx ∧ t.mpu = s.mpu ∧ t.icu = s.icu ∧ t.msix = s.msix ∧ t.pwr = s.pwr ∧ t.flt = s.flt ∧
    t.ttc = s.ttc ∧ t.mgc = s.mgc ∧ t.latches = s.latches := by
  simp [State.upInst]

/-- Metering (R549). -/
@[simp] theorem State.meter_frame (s : State) (i : Nat) (f : MeterRec → MeterRec) :
    let t := s.meter i f
    t.pending = s.pending ∧ t.waiting = s.waiting ∧ t.freeCount = s.freeCount ∧ t.out = s.out ∧ t.coreTime = s.coreTime ∧
    t.masthead = s.masthead ∧ t.hly = s.hly ∧ t.ftu = s.ftu ∧ t.adm = s.adm ∧ t.csc = s.csc ∧ t.obf = s.obf ∧ t.egs = s.egs ∧
    t.arbs = s.arbs ∧ t.rte = s.rte ∧ t.lnk = s.lnk ∧ t.trn = s.trn ∧ t.prt = s.prt ∧ t.pool = s.pool ∧ t.dir = s.dir ∧ t.mec = s.mec ∧
    t.locks = s.locks ∧ t.mtc = s.mtc ∧ t.rdx = s.rdx ∧ t.ins = s.ins ∧ t.mpu = s.mpu ∧ t.icu = s.icu ∧ t.msix = s.msix ∧ t.pwr = s.pwr ∧
    t.flt = s.flt ∧ t.mgc = s.mgc ∧ t.latches = s.latches := by
  simp [State.meter]

/-- Counting an ignored doorbell (R334). -/
@[simp] theorem State.countIgnored_frame (s : State) (i : Nat) :
    let t := s.countIgnored i
    t.pending = s.pending ∧ t.waiting = s.waiting ∧ t.freeCount = s.freeCount ∧ t.out = s.out ∧ t.coreTime = s.coreTime ∧
    t.masthead = s.masthead ∧ t.hly = s.hly ∧ t.ftu = s.ftu ∧ t.adm = s.adm ∧ t.csc = s.csc ∧ t.obf = s.obf ∧ t.egs = s.egs ∧
    t.arbs = s.arbs ∧ t.rte = s.rte ∧ t.lnk = s.lnk ∧ t.trn = s.trn ∧ t.prt = s.prt ∧ t.pool = s.pool ∧ t.dir = s.dir ∧
    t.locks = s.locks ∧ t.mtc = s.mtc ∧ t.rdx = s.rdx ∧ t.ins = s.ins ∧ t.mpu = s.mpu ∧ t.icu = s.icu ∧ t.msix = s.msix ∧ t.pwr = s.pwr ∧
    t.flt = s.flt ∧ t.ttc = s.ttc ∧ t.mgc = s.mgc ∧ t.latches = s.latches := by
  simp [State.countIgnored]

/-- An access to host memory goes out or is held with its instance (R428). -/
@[simp] theorem State.access_frame (s : State) (i : Nat) (a : HostAcc) (o : Out) :
    let t := s.access i a o
    t.pending = s.pending ∧ t.waiting = s.waiting ∧ t.freeCount = s.freeCount ∧ t.coreTime = s.coreTime ∧ t.masthead = s.masthead ∧
    t.hly = s.hly ∧ t.ftu = s.ftu ∧ t.adm = s.adm ∧ t.csc = s.csc ∧ t.obf = s.obf ∧ t.egs = s.egs ∧ t.arbs = s.arbs ∧ t.rte = s.rte ∧
    t.lnk = s.lnk ∧ t.trn = s.trn ∧ t.prt = s.prt ∧ t.pool = s.pool ∧ t.dir = s.dir ∧ t.mec = s.mec ∧ t.locks = s.locks ∧ t.mtc = s.mtc ∧
    t.rdx = s.rdx ∧ t.mpu = s.mpu ∧ t.icu = s.icu ∧ t.msix = s.msix ∧ t.pwr = s.pwr ∧ t.flt = s.flt ∧ t.ttc = s.ttc ∧ t.mgc = s.mgc ∧
    t.latches = s.latches := by
  rw [State.access]; split <;> simp

/-- Marks of a dirty-page log written back (R422, R423). -/
@[simp] theorem State.logBack_frame (s : State) (i : Nat) (b : Bool) (p : Nat → Bool) :
    let t := s.logBack i b p
    t.pending = s.pending ∧ t.waiting = s.waiting ∧ t.freeCount = s.freeCount ∧ t.coreTime = s.coreTime ∧ t.masthead = s.masthead ∧
    t.hly = s.hly ∧ t.ftu = s.ftu ∧ t.adm = s.adm ∧ t.csc = s.csc ∧ t.obf = s.obf ∧ t.egs = s.egs ∧ t.arbs = s.arbs ∧ t.rte = s.rte ∧
    t.lnk = s.lnk ∧ t.trn = s.trn ∧ t.prt = s.prt ∧ t.pool = s.pool ∧ t.dir = s.dir ∧ t.mec = s.mec ∧ t.locks = s.locks ∧ t.mtc = s.mtc ∧
    t.rdx = s.rdx ∧ t.mpu = s.mpu ∧ t.icu = s.icu ∧ t.msix = s.msix ∧ t.pwr = s.pwr ∧ t.flt = s.flt ∧ t.ttc = s.ttc ∧ t.mgc = s.mgc ∧
    t.latches = s.latches := by
  simp only [State.logBack]; repeat' split
  all_goals simp

/-- Lines that leave the full log cache (R422). -/
@[simp] theorem State.evictLines_frame (s : State) (i : Nat) :
    let t := s.evictLines i
    t.pending = s.pending ∧ t.waiting = s.waiting ∧ t.freeCount = s.freeCount ∧ t.coreTime = s.coreTime ∧ t.masthead = s.masthead ∧
    t.hly = s.hly ∧ t.ftu = s.ftu ∧ t.adm = s.adm ∧ t.csc = s.csc ∧ t.obf = s.obf ∧ t.egs = s.egs ∧ t.arbs = s.arbs ∧ t.rte = s.rte ∧
    t.lnk = s.lnk ∧ t.trn = s.trn ∧ t.prt = s.prt ∧ t.pool = s.pool ∧ t.dir = s.dir ∧ t.mec = s.mec ∧ t.locks = s.locks ∧ t.mtc = s.mtc ∧
    t.rdx = s.rdx ∧ t.mpu = s.mpu ∧ t.icu = s.icu ∧ t.msix = s.msix ∧ t.pwr = s.pwr ∧ t.flt = s.flt ∧ t.ttc = s.ttc ∧ t.mgc = s.mgc ∧
    t.latches = s.latches := by
  simp [State.evictLines]

/-- A write to host memory (R420). -/
@[simp] theorem State.hostWrite_frame (s : State) (i address : Nat) (data : List Nat) :
    let t := s.hostWrite i address data
    t.pending = s.pending ∧ t.waiting = s.waiting ∧ t.freeCount = s.freeCount ∧ t.coreTime = s.coreTime ∧ t.masthead = s.masthead ∧
    t.hly = s.hly ∧ t.ftu = s.ftu ∧ t.adm = s.adm ∧ t.csc = s.csc ∧ t.obf = s.obf ∧ t.egs = s.egs ∧ t.arbs = s.arbs ∧ t.rte = s.rte ∧
    t.lnk = s.lnk ∧ t.trn = s.trn ∧ t.prt = s.prt ∧ t.pool = s.pool ∧ t.dir = s.dir ∧ t.mec = s.mec ∧ t.locks = s.locks ∧ t.mtc = s.mtc ∧
    t.rdx = s.rdx ∧ t.mpu = s.mpu ∧ t.icu = s.icu ∧ t.msix = s.msix ∧ t.pwr = s.pwr ∧ t.flt = s.flt ∧ t.ttc = s.ttc ∧ t.mgc = s.mgc ∧
    t.latches = s.latches := by
  simp [State.hostWrite]

/-- A read of host memory (R414). -/
@[simp] theorem State.hostRead_frame (s : State) (i address length tag : Nat) :
    let t := s.hostRead i address length tag
    t.pending = s.pending ∧ t.waiting = s.waiting ∧ t.freeCount = s.freeCount ∧ t.coreTime = s.coreTime ∧ t.masthead = s.masthead ∧
    t.hly = s.hly ∧ t.ftu = s.ftu ∧ t.adm = s.adm ∧ t.csc = s.csc ∧ t.obf = s.obf ∧ t.egs = s.egs ∧ t.arbs = s.arbs ∧ t.rte = s.rte ∧
    t.lnk = s.lnk ∧ t.trn = s.trn ∧ t.prt = s.prt ∧ t.pool = s.pool ∧ t.dir = s.dir ∧ t.mec = s.mec ∧ t.locks = s.locks ∧ t.mtc = s.mtc ∧
    t.rdx = s.rdx ∧ t.mpu = s.mpu ∧ t.icu = s.icu ∧ t.msix = s.msix ∧ t.pwr = s.pwr ∧ t.flt = s.flt ∧ t.ttc = s.ttc ∧ t.mgc = s.mgc ∧
    t.latches = s.latches := by
  simp [State.hostRead]

/-- An MSI-X message (R486). -/
@[simp] theorem State.msixSend_frame (s : State) (i vector : Nat) :
    let t := s.msixSend i vector
    t.pending = s.pending ∧ t.waiting = s.waiting ∧ t.freeCount = s.freeCount ∧ t.coreTime = s.coreTime ∧ t.masthead = s.masthead ∧
    t.hly = s.hly ∧ t.ftu = s.ftu ∧ t.adm = s.adm ∧ t.csc = s.csc ∧ t.obf = s.obf ∧ t.egs = s.egs ∧ t.arbs = s.arbs ∧ t.rte = s.rte ∧
    t.lnk = s.lnk ∧ t.trn = s.trn ∧ t.prt = s.prt ∧ t.pool = s.pool ∧ t.dir = s.dir ∧ t.mec = s.mec ∧ t.locks = s.locks ∧ t.mtc = s.mtc ∧
    t.rdx = s.rdx ∧ t.mpu = s.mpu ∧ t.icu = s.icu ∧ t.pwr = s.pwr ∧ t.flt = s.flt ∧ t.ttc = s.ttc ∧ t.mgc = s.mgc ∧
    t.latches = s.latches := by
  simp only [State.msixSend]; split <;> (try split) <;> (try split) <;> simp

/-- An event that is lost (R344). -/
@[simp] theorem State.eventLost_frame (s : State) (i : Nat) :
    let t := s.eventLost i
    t.pending = s.pending ∧ t.waiting = s.waiting ∧ t.freeCount = s.freeCount ∧ t.out = s.out ∧ t.coreTime = s.coreTime ∧
    t.masthead = s.masthead ∧ t.hly = s.hly ∧ t.ftu = s.ftu ∧ t.adm = s.adm ∧ t.csc = s.csc ∧ t.obf = s.obf ∧ t.egs = s.egs ∧
    t.arbs = s.arbs ∧ t.rte = s.rte ∧ t.lnk = s.lnk ∧ t.trn = s.trn ∧ t.prt = s.prt ∧ t.pool = s.pool ∧ t.dir = s.dir ∧
    t.locks = s.locks ∧ t.mtc = s.mtc ∧ t.rdx = s.rdx ∧ t.ins = s.ins ∧ t.mpu = s.mpu ∧ t.icu = s.icu ∧ t.msix = s.msix ∧ t.pwr = s.pwr ∧
    t.flt = s.flt ∧ t.ttc = s.ttc ∧ t.mgc = s.mgc ∧ t.latches = s.latches := by
  simp [State.eventLost]

/-- An event posted (R344). -/
@[simp] theorem State.post_frame (s : State) (i kind detail subject aux data : Nat) :
    let t := s.post i kind detail subject aux data
    t.pending = s.pending ∧ t.waiting = s.waiting ∧ t.freeCount = s.freeCount ∧ t.coreTime = s.coreTime ∧ t.masthead = s.masthead ∧
    t.hly = s.hly ∧ t.ftu = s.ftu ∧ t.adm = s.adm ∧ t.csc = s.csc ∧ t.obf = s.obf ∧ t.egs = s.egs ∧ t.arbs = s.arbs ∧ t.rte = s.rte ∧
    t.lnk = s.lnk ∧ t.trn = s.trn ∧ t.prt = s.prt ∧ t.pool = s.pool ∧ t.dir = s.dir ∧ t.locks = s.locks ∧ t.mtc = s.mtc ∧ t.rdx = s.rdx ∧
    t.mpu = s.mpu ∧ t.icu = s.icu ∧ t.pwr = s.pwr ∧ t.flt = s.flt ∧ t.ttc = s.ttc ∧ t.mgc = s.mgc ∧ t.latches = s.latches := by
  simp only [State.post]; split <;> (try split) <;> simp

/-- A change of a fault source. -/
@[simp] theorem State.upFault_frame (s : State) (src : Nat) (f : FaultSrc → FaultSrc) :
    let t := s.upFault src f
    t.pending = s.pending ∧ t.waiting = s.waiting ∧ t.freeCount = s.freeCount ∧ t.out = s.out ∧ t.coreTime = s.coreTime ∧
    t.masthead = s.masthead ∧ t.hly = s.hly ∧ t.ftu = s.ftu ∧ t.adm = s.adm ∧ t.csc = s.csc ∧ t.obf = s.obf ∧ t.egs = s.egs ∧
    t.arbs = s.arbs ∧ t.rte = s.rte ∧ t.lnk = s.lnk ∧ t.trn = s.trn ∧ t.prt = s.prt ∧ t.pool = s.pool ∧ t.dir = s.dir ∧ t.mec = s.mec ∧
    t.locks = s.locks ∧ t.mtc = s.mtc ∧ t.rdx = s.rdx ∧ t.ins = s.ins ∧ t.mpu = s.mpu ∧ t.icu = s.icu ∧ t.msix = s.msix ∧ t.pwr = s.pwr ∧
    t.ttc = s.ttc ∧ t.mgc = s.mgc ∧ t.latches = s.latches := by
  simp [State.upFault]

/-- What raising a fault notes (R523). -/
@[simp] theorem State.raiseNote_frame (s : State) (src : Nat) (subj : Subject) :
    let t := (s.raiseNote src subj).2
    t.pending = s.pending ∧ t.waiting = s.waiting ∧ t.freeCount = s.freeCount ∧ t.coreTime = s.coreTime ∧ t.masthead = s.masthead ∧
    t.hly = s.hly ∧ t.ftu = s.ftu ∧ t.adm = s.adm ∧ t.csc = s.csc ∧ t.obf = s.obf ∧ t.egs = s.egs ∧ t.arbs = s.arbs ∧ t.rte = s.rte ∧
    t.lnk = s.lnk ∧ t.trn = s.trn ∧ t.prt = s.prt ∧ t.pool = s.pool ∧ t.dir = s.dir ∧ t.mec = s.mec ∧ t.locks = s.locks ∧ t.mtc = s.mtc ∧
    t.rdx = s.rdx ∧ t.mpu = s.mpu ∧ t.icu = s.icu ∧ t.pwr = s.pwr ∧ t.mgc = s.mgc ∧ t.latches = s.latches := by
  simp only [State.raiseNote]; split <;> (try split) <;> (try split) <;> simp

/-- Raising a fault (R523): its action is owed, and nothing of its subject changes yet. -/
@[simp] theorem State.raise_frame (s : State) (src : Nat) (subj : Subject) :
    let t := s.raise src subj
    t.pending = s.pending ∧ t.waiting = s.waiting ∧ t.freeCount = s.freeCount ∧ t.coreTime = s.coreTime ∧ t.masthead = s.masthead ∧
    t.hly = s.hly ∧ t.ftu = s.ftu ∧ t.adm = s.adm ∧ t.csc = s.csc ∧ t.obf = s.obf ∧ t.egs = s.egs ∧ t.arbs = s.arbs ∧ t.rte = s.rte ∧
    t.lnk = s.lnk ∧ t.trn = s.trn ∧ t.prt = s.prt ∧ t.pool = s.pool ∧ t.dir = s.dir ∧ t.mec = s.mec ∧ t.locks = s.locks ∧ t.mtc = s.mtc ∧
    t.rdx = s.rdx ∧ t.mpu = s.mpu ∧ t.icu = s.icu ∧ t.pwr = s.pwr ∧ t.mgc = s.mgc ∧ t.latches = s.latches := by
  simp only [State.raise]; split <;> simp

/-- Raising a level source (R521). -/
@[simp] theorem State.raiseLevel_frame (s : State) (src : Nat) (subj : Subject) :
    let t := s.raiseLevel src subj
    t.pending = s.pending ∧ t.waiting = s.waiting ∧ t.freeCount = s.freeCount ∧ t.coreTime = s.coreTime ∧ t.masthead = s.masthead ∧
    t.hly = s.hly ∧ t.ftu = s.ftu ∧ t.adm = s.adm ∧ t.csc = s.csc ∧ t.obf = s.obf ∧ t.egs = s.egs ∧ t.arbs = s.arbs ∧ t.rte = s.rte ∧
    t.lnk = s.lnk ∧ t.trn = s.trn ∧ t.prt = s.prt ∧ t.pool = s.pool ∧ t.dir = s.dir ∧ t.mec = s.mec ∧ t.locks = s.locks ∧ t.mtc = s.mtc ∧
    t.rdx = s.rdx ∧ t.mpu = s.mpu ∧ t.icu = s.icu ∧ t.pwr = s.pwr ∧ t.mgc = s.mgc ∧ t.latches = s.latches := by
  simp only [State.raiseLevel]; split <;> simp

/-- The end of a level condition (R521). -/
@[simp] theorem State.lower_frame (s : State) (src : Nat) :
    let t := s.lower src
    t.pending = s.pending ∧ t.waiting = s.waiting ∧ t.freeCount = s.freeCount ∧ t.out = s.out ∧ t.coreTime = s.coreTime ∧
    t.masthead = s.masthead ∧ t.hly = s.hly ∧ t.ftu = s.ftu ∧ t.adm = s.adm ∧ t.csc = s.csc ∧ t.obf = s.obf ∧ t.egs = s.egs ∧
    t.arbs = s.arbs ∧ t.rte = s.rte ∧ t.lnk = s.lnk ∧ t.trn = s.trn ∧ t.prt = s.prt ∧ t.pool = s.pool ∧ t.dir = s.dir ∧ t.mec = s.mec ∧
    t.locks = s.locks ∧ t.mtc = s.mtc ∧ t.rdx = s.rdx ∧ t.ins = s.ins ∧ t.mpu = s.mpu ∧ t.icu = s.icu ∧ t.msix = s.msix ∧ t.pwr = s.pwr ∧
    t.ttc = s.ttc ∧ t.mgc = s.mgc ∧ t.latches = s.latches := by
  simp [State.lower]

/-- A change of a host queue. -/
@[simp] theorem State.upHq_frame (s : State) (q : Nat) (f : HQueue → HQueue) :
    let t := s.upHq q f
    t.pending = s.pending ∧ t.waiting = s.waiting ∧ t.freeCount = s.freeCount ∧ t.out = s.out ∧ t.coreTime = s.coreTime ∧
    t.masthead = s.masthead ∧ t.ftu = s.ftu ∧ t.adm = s.adm ∧ t.csc = s.csc ∧ t.obf = s.obf ∧ t.egs = s.egs ∧ t.arbs = s.arbs ∧
    t.rte = s.rte ∧ t.lnk = s.lnk ∧ t.trn = s.trn ∧ t.prt = s.prt ∧ t.pool = s.pool ∧ t.dir = s.dir ∧ t.mec = s.mec ∧ t.locks = s.locks ∧
    t.mtc = s.mtc ∧ t.rdx = s.rdx ∧ t.ins = s.ins ∧ t.mpu = s.mpu ∧ t.icu = s.icu ∧ t.msix = s.msix ∧ t.pwr = s.pwr ∧ t.flt = s.flt ∧
    t.ttc = s.ttc ∧ t.mgc = s.mgc ∧ t.latches = s.latches := by
  simp [State.upHq]

/-- A reply written to its ring (R440). -/
@[simp] theorem State.ringReply_frame (s : State) (q : Nat) (r : Reply) :
    let t := s.ringReply q r
    t.pending = s.pending ∧ t.waiting = s.waiting ∧ t.freeCount = s.freeCount ∧ t.coreTime = s.coreTime ∧ t.masthead = s.masthead ∧
    t.ftu = s.ftu ∧ t.adm = s.adm ∧ t.csc = s.csc ∧ t.obf = s.obf ∧ t.egs = s.egs ∧ t.arbs = s.arbs ∧ t.rte = s.rte ∧ t.lnk = s.lnk ∧
    t.trn = s.trn ∧ t.prt = s.prt ∧ t.pool = s.pool ∧ t.dir = s.dir ∧ t.mec = s.mec ∧ t.locks = s.locks ∧ t.mtc = s.mtc ∧ t.rdx = s.rdx ∧
    t.mpu = s.mpu ∧ t.icu = s.icu ∧ t.pwr = s.pwr ∧ t.flt = s.flt ∧ t.ttc = s.ttc ∧ t.mgc = s.mgc ∧ t.latches = s.latches := by
  simp only [State.ringReply]; split <;> simp

/-- Operations that put packets to the ingress leave the rest, one after the other. -/
theorem foldl_puts {α : Type} {g : State → α → State} (hg : ∀ (s : State) (a : α), ∃ o t, g s a = { s with obf := o, trn := t })
    (l : List α) (s : State) : ∃ o t, l.foldl g s = { s with obf := o, trn := t } := by
  induction l generalizing s with
  | nil => exact ⟨s.obf, s.trn, rfl⟩
  | cons a l ih =>
    obtain ⟨o, t, h⟩ := hg s a
    obtain ⟨o', t', h'⟩ := ih (g s a)
    exact ⟨o', t', by rw [List.foldl_cons, h', h]⟩

/-- The segments of a message put to the ingress (R461). -/
theorem State.sendLane_puts (s : State) (kind target : Nat) (directed : Bool) (ports : List Nat) (queue seq serial attempt : Nat)
    (message : List Nat) :
    ∃ o t u, s.sendLane kind target directed ports queue seq serial attempt message = { s with obf := o, trn := t, out := u } := by
  simp only [State.sendLane]
  split
  · split
    · refine (foldl_puts ?_ _ s).imp fun o h => h.imp fun t h => ⟨s.out, h⟩
      intro s a; exact ⟨_, _, rfl⟩
    · exact ⟨s.obf, s.trn, _, rfl⟩
  · refine (foldl_puts ?_ _ s).imp fun o h => h.imp fun t h => ⟨s.out, h⟩
    intro s a; exact ⟨_, _, rfl⟩

/-- A message sent (R461). -/
@[simp] theorem State.sendLane_frame (s : State) (kind target : Nat) (directed : Bool) (ports : List Nat) (queue seq serial attempt : Nat) (message : List Nat) :
    let t := s.sendLane kind target directed ports queue seq serial attempt message
    t.pending = s.pending ∧ t.waiting = s.waiting ∧ t.freeCount = s.freeCount ∧ t.coreTime = s.coreTime ∧ t.masthead = s.masthead ∧
    t.hly = s.hly ∧ t.ftu = s.ftu ∧ t.adm = s.adm ∧ t.csc = s.csc ∧ t.egs = s.egs ∧ t.arbs = s.arbs ∧ t.rte = s.rte ∧ t.lnk = s.lnk ∧
    t.prt = s.prt ∧ t.pool = s.pool ∧ t.dir = s.dir ∧ t.mec = s.mec ∧ t.locks = s.locks ∧ t.mtc = s.mtc ∧ t.rdx = s.rdx ∧ t.ins = s.ins ∧
    t.mpu = s.mpu ∧ t.icu = s.icu ∧ t.msix = s.msix ∧ t.pwr = s.pwr ∧ t.flt = s.flt ∧ t.ttc = s.ttc ∧ t.mgc = s.mgc ∧
    t.latches = s.latches := by
  obtain ⟨o, t, u, h⟩ := s.sendLane_puts kind target directed ports queue seq serial attempt message; simp [h]

/-- A reply sent in-band (R461). -/
@[simp] theorem State.sendLaneReply_frame (s : State) (k : InbandKey) (directed : Bool) (ports : List Nat) (r : Reply) :
    let t := s.sendLaneReply k directed ports r
    t.pending = s.pending ∧ t.waiting = s.waiting ∧ t.freeCount = s.freeCount ∧ t.coreTime = s.coreTime ∧ t.masthead = s.masthead ∧
    t.hly = s.hly ∧ t.ftu = s.ftu ∧ t.adm = s.adm ∧ t.csc = s.csc ∧ t.egs = s.egs ∧ t.arbs = s.arbs ∧ t.rte = s.rte ∧ t.lnk = s.lnk ∧
    t.prt = s.prt ∧ t.pool = s.pool ∧ t.dir = s.dir ∧ t.mec = s.mec ∧ t.locks = s.locks ∧ t.mtc = s.mtc ∧ t.rdx = s.rdx ∧ t.ins = s.ins ∧
    t.mpu = s.mpu ∧ t.icu = s.icu ∧ t.msix = s.msix ∧ t.pwr = s.pwr ∧ t.flt = s.flt ∧ t.ttc = s.ttc ∧ t.mgc = s.mgc ∧
    t.latches = s.latches := by
  simp [State.sendLaneReply]

/-- A command sent in-band (R461). -/
@[simp] theorem State.sendLaneCommand_frame (s : State) (target : Nat) (directed : Bool) (ports : List Nat) (queue seq attempt descriptor : Nat) (input : List Nat) :
    let t := s.sendLaneCommand target directed ports queue seq attempt descriptor input
    t.pending = s.pending ∧ t.waiting = s.waiting ∧ t.freeCount = s.freeCount ∧ t.coreTime = s.coreTime ∧ t.masthead = s.masthead ∧
    t.hly = s.hly ∧ t.ftu = s.ftu ∧ t.adm = s.adm ∧ t.csc = s.csc ∧ t.egs = s.egs ∧ t.arbs = s.arbs ∧ t.rte = s.rte ∧ t.lnk = s.lnk ∧
    t.prt = s.prt ∧ t.pool = s.pool ∧ t.dir = s.dir ∧ t.mec = s.mec ∧ t.locks = s.locks ∧ t.mtc = s.mtc ∧ t.rdx = s.rdx ∧ t.ins = s.ins ∧
    t.mpu = s.mpu ∧ t.icu = s.icu ∧ t.msix = s.msix ∧ t.pwr = s.pwr ∧ t.flt = s.flt ∧ t.ttc = s.ttc ∧ t.mgc = s.mgc ∧
    t.latches = s.latches := by
  simp [State.sendLaneCommand]

/-- A reply sent (R446). -/
@[simp] theorem State.writeReply_frame (s : State) (r : Reply) :
    let t := s.writeReply r
    t.pending = s.pending ∧ t.waiting = s.waiting ∧ t.freeCount = s.freeCount ∧ t.coreTime = s.coreTime ∧ t.masthead = s.masthead ∧
    t.ftu = s.ftu ∧ t.adm = s.adm ∧ t.csc = s.csc ∧ t.egs = s.egs ∧ t.arbs = s.arbs ∧ t.rte = s.rte ∧ t.lnk = s.lnk ∧ t.prt = s.prt ∧
    t.pool = s.pool ∧ t.dir = s.dir ∧ t.mec = s.mec ∧ t.locks = s.locks ∧ t.mtc = s.mtc ∧ t.rdx = s.rdx ∧ t.mpu = s.mpu ∧ t.icu = s.icu ∧
    t.pwr = s.pwr ∧ t.flt = s.flt ∧ t.ttc = s.ttc ∧ t.mgc = s.mgc ∧ t.latches = s.latches := by
  simp only [State.writeReply]; split <;> (try split) <;> simp

/-- A reply that does not travel in-band puts no packet to the ingress (R446). -/
@[simp] theorem State.writeReply_host (s : State) (r : Reply) (h : srcKey r.src = none) :
    (s.writeReply r).obf = s.obf ∧ (s.writeReply r).trn = s.trn := by
  cases hs : r.src with
  | host q => simp only [State.writeReply, hs]; split <;> simp [State.ringReply]; split <;> simp
  | inband o q n d => simp [srcKey, hs] at h
  | board => simp [State.writeReply, hs, State.emit]

/-- A status noted (R469). -/
@[simp] theorem State.noteStatus_frame (s : State) (st : Nat) :
    let t := s.noteStatus st
    t.pending = s.pending ∧ t.waiting = s.waiting ∧ t.freeCount = s.freeCount ∧ t.out = s.out ∧ t.coreTime = s.coreTime ∧
    t.masthead = s.masthead ∧ t.ftu = s.ftu ∧ t.adm = s.adm ∧ t.csc = s.csc ∧ t.obf = s.obf ∧ t.egs = s.egs ∧ t.arbs = s.arbs ∧
    t.rte = s.rte ∧ t.lnk = s.lnk ∧ t.trn = s.trn ∧ t.prt = s.prt ∧ t.pool = s.pool ∧ t.dir = s.dir ∧ t.mec = s.mec ∧ t.locks = s.locks ∧
    t.mtc = s.mtc ∧ t.rdx = s.rdx ∧ t.ins = s.ins ∧ t.mpu = s.mpu ∧ t.icu = s.icu ∧ t.msix = s.msix ∧ t.pwr = s.pwr ∧ t.flt = s.flt ∧
    t.ttc = s.ttc ∧ t.mgc = s.mgc ∧ t.latches = s.latches := by
  simp only [State.noteStatus]; split <;> (try split) <;> (try split) <;> simp

/-- A command completes (R449). -/
@[simp] theorem State.complete_frame (s : State) (src : CmdSrc) (seq code : Nat) (i e : Bool) (st r : Nat) (o : List Nat) :
    let t := s.complete src seq code i e st r o
    t.pending = s.pending ∧ t.waiting = s.waiting ∧ t.freeCount = s.freeCount ∧ t.coreTime = s.coreTime ∧ t.masthead = s.masthead ∧
    t.ftu = s.ftu ∧ t.adm = s.adm ∧ t.csc = s.csc ∧ t.egs = s.egs ∧ t.arbs = s.arbs ∧ t.rte = s.rte ∧ t.lnk = s.lnk ∧ t.prt = s.prt ∧
    t.pool = s.pool ∧ t.dir = s.dir ∧ t.mec = s.mec ∧ t.locks = s.locks ∧ t.mtc = s.mtc ∧ t.rdx = s.rdx ∧ t.mpu = s.mpu ∧ t.icu = s.icu ∧
    t.pwr = s.pwr ∧ t.flt = s.flt ∧ t.ttc = s.ttc ∧ t.mgc = s.mgc ∧ t.latches = s.latches := by
  simp [State.complete]

/-- A command answers with success. -/
@[simp] theorem State.answer_frame (s : State) (h : HlyHdr) (code r : Nat) (o : List Nat) :
    let t := s.answer h code r o
    t.pending = s.pending ∧ t.waiting = s.waiting ∧ t.freeCount = s.freeCount ∧ t.coreTime = s.coreTime ∧ t.masthead = s.masthead ∧
    t.ftu = s.ftu ∧ t.adm = s.adm ∧ t.csc = s.csc ∧ t.egs = s.egs ∧ t.arbs = s.arbs ∧ t.rte = s.rte ∧ t.lnk = s.lnk ∧ t.prt = s.prt ∧
    t.pool = s.pool ∧ t.dir = s.dir ∧ t.mec = s.mec ∧ t.locks = s.locks ∧ t.mtc = s.mtc ∧ t.rdx = s.rdx ∧ t.mpu = s.mpu ∧ t.icu = s.icu ∧
    t.pwr = s.pwr ∧ t.flt = s.flt ∧ t.ttc = s.ttc ∧ t.mgc = s.mgc ∧ t.latches = s.latches := by
  simp [State.answer]

/-- A command is in progress. -/
@[simp] theorem State.started_frame (s : State) (h : HlyHdr) (code : Nat) (w : Wait) (l : List Obj) :
    let t := s.started h code w l
    t.pending = s.pending ∧ t.waiting = s.waiting ∧ t.freeCount = s.freeCount ∧ t.out = s.out ∧ t.coreTime = s.coreTime ∧
    t.masthead = s.masthead ∧ t.ftu = s.ftu ∧ t.adm = s.adm ∧ t.csc = s.csc ∧ t.obf = s.obf ∧ t.egs = s.egs ∧ t.arbs = s.arbs ∧
    t.rte = s.rte ∧ t.lnk = s.lnk ∧ t.trn = s.trn ∧ t.prt = s.prt ∧ t.pool = s.pool ∧ t.dir = s.dir ∧ t.mec = s.mec ∧ t.locks = s.locks ∧
    t.mtc = s.mtc ∧ t.rdx = s.rdx ∧ t.ins = s.ins ∧ t.mpu = s.mpu ∧ t.icu = s.icu ∧ t.msix = s.msix ∧ t.pwr = s.pwr ∧ t.flt = s.flt ∧
    t.ttc = s.ttc ∧ t.mgc = s.mgc ∧ t.latches = s.latches := by
  simp [State.started]

/-- A command in progress completes (R450). -/
@[simp] theorem State.finish_frame (s : State) (p : Prog → Bool) (st r : Nat) (o : List Nat) :
    let t := s.finish p st r o
    t.pending = s.pending ∧ t.waiting = s.waiting ∧ t.freeCount = s.freeCount ∧ t.coreTime = s.coreTime ∧ t.masthead = s.masthead ∧
    t.ftu = s.ftu ∧ t.adm = s.adm ∧ t.csc = s.csc ∧ t.egs = s.egs ∧ t.arbs = s.arbs ∧ t.rte = s.rte ∧ t.lnk = s.lnk ∧ t.prt = s.prt ∧
    t.pool = s.pool ∧ t.dir = s.dir ∧ t.mec = s.mec ∧ t.locks = s.locks ∧ t.mtc = s.mtc ∧ t.rdx = s.rdx ∧ t.mpu = s.mpu ∧ t.icu = s.icu ∧
    t.pwr = s.pwr ∧ t.flt = s.flt ∧ t.ttc = s.ttc ∧ t.mgc = s.mgc ∧ t.latches = s.latches := by
  simp only [State.finish]; split <;> (try split) <;> simp

/-- The same for what it waits for. -/
@[simp] theorem State.finishWait_frame (s : State) (w : Wait) (st r : Nat) :
    let t := s.finishWait w st r
    t.pending = s.pending ∧ t.waiting = s.waiting ∧ t.freeCount = s.freeCount ∧ t.coreTime = s.coreTime ∧ t.masthead = s.masthead ∧
    t.ftu = s.ftu ∧ t.adm = s.adm ∧ t.csc = s.csc ∧ t.egs = s.egs ∧ t.arbs = s.arbs ∧ t.rte = s.rte ∧ t.lnk = s.lnk ∧ t.prt = s.prt ∧
    t.pool = s.pool ∧ t.dir = s.dir ∧ t.mec = s.mec ∧ t.locks = s.locks ∧ t.mtc = s.mtc ∧ t.rdx = s.rdx ∧ t.mpu = s.mpu ∧ t.icu = s.icu ∧
    t.pwr = s.pwr ∧ t.flt = s.flt ∧ t.ttc = s.ttc ∧ t.mgc = s.mgc ∧ t.latches = s.latches := by
  simp [State.finishWait]

/-- Interrupt flags of power (R519). -/
@[simp] theorem State.powerFlags_frame (s : State) (c : Nat) :
    let t := s.powerFlags c
    t.pending = s.pending ∧ t.waiting = s.waiting ∧ t.freeCount = s.freeCount ∧ t.out = s.out ∧ t.coreTime = s.coreTime ∧
    t.masthead = s.masthead ∧ t.hly = s.hly ∧ t.ftu = s.ftu ∧ t.adm = s.adm ∧ t.csc = s.csc ∧ t.obf = s.obf ∧ t.egs = s.egs ∧
    t.arbs = s.arbs ∧ t.rte = s.rte ∧ t.lnk = s.lnk ∧ t.trn = s.trn ∧ t.prt = s.prt ∧ t.pool = s.pool ∧ t.dir = s.dir ∧ t.mec = s.mec ∧
    t.locks = s.locks ∧ t.mtc = s.mtc ∧ t.rdx = s.rdx ∧ t.ins = s.ins ∧ t.mpu = s.mpu ∧ t.icu = s.icu ∧ t.msix = s.msix ∧ t.flt = s.flt ∧
    t.ttc = s.ttc ∧ t.mgc = s.mgc ∧ t.latches = s.latches := by
  simp only [State.powerFlags]; split <;> (try split) <;> simp

/-- An event of the power and slot die (R518). -/
@[simp] theorem State.powerEvent_frame (s : State) (c : Nat) :
    let t := s.powerEvent c
    t.pending = s.pending ∧ t.waiting = s.waiting ∧ t.freeCount = s.freeCount ∧ t.coreTime = s.coreTime ∧ t.masthead = s.masthead ∧
    t.hly = s.hly ∧ t.ftu = s.ftu ∧ t.adm = s.adm ∧ t.csc = s.csc ∧ t.obf = s.obf ∧ t.egs = s.egs ∧ t.arbs = s.arbs ∧ t.rte = s.rte ∧
    t.lnk = s.lnk ∧ t.trn = s.trn ∧ t.prt = s.prt ∧ t.pool = s.pool ∧ t.dir = s.dir ∧ t.mec = s.mec ∧ t.locks = s.locks ∧ t.mtc = s.mtc ∧
    t.rdx = s.rdx ∧ t.mpu = s.mpu ∧ t.icu = s.icu ∧ t.mgc = s.mgc ∧ t.latches = s.latches := by
  simp only [State.powerEvent]; split <;> simp

/-- A level condition of the power and slot die (R521). -/
@[simp] theorem State.powerLevel_frame (s : State) (c : Nat) (b : Bool) :
    let t := s.powerLevel c b
    t.pending = s.pending ∧ t.waiting = s.waiting ∧ t.freeCount = s.freeCount ∧ t.coreTime = s.coreTime ∧ t.masthead = s.masthead ∧
    t.hly = s.hly ∧ t.ftu = s.ftu ∧ t.adm = s.adm ∧ t.csc = s.csc ∧ t.obf = s.obf ∧ t.egs = s.egs ∧ t.arbs = s.arbs ∧ t.rte = s.rte ∧
    t.lnk = s.lnk ∧ t.trn = s.trn ∧ t.prt = s.prt ∧ t.pool = s.pool ∧ t.dir = s.dir ∧ t.mec = s.mec ∧ t.locks = s.locks ∧ t.mtc = s.mtc ∧
    t.rdx = s.rdx ∧ t.mpu = s.mpu ∧ t.icu = s.icu ∧ t.mgc = s.mgc ∧ t.latches = s.latches := by
  simp only [State.powerLevel]; split <;> split <;> simp

/-- The level conditions of the channels (R518). -/
@[simp] theorem State.settlePower_frame (s : State) (n : Nat) :
    let t := s.settlePower n
    t.pending = s.pending ∧ t.waiting = s.waiting ∧ t.freeCount = s.freeCount ∧ t.coreTime = s.coreTime ∧ t.masthead = s.masthead ∧
    t.hly = s.hly ∧ t.ftu = s.ftu ∧ t.adm = s.adm ∧ t.csc = s.csc ∧ t.obf = s.obf ∧ t.egs = s.egs ∧ t.arbs = s.arbs ∧ t.rte = s.rte ∧
    t.lnk = s.lnk ∧ t.trn = s.trn ∧ t.prt = s.prt ∧ t.pool = s.pool ∧ t.dir = s.dir ∧ t.mec = s.mec ∧ t.locks = s.locks ∧ t.mtc = s.mtc ∧
    t.rdx = s.rdx ∧ t.mpu = s.mpu ∧ t.icu = s.icu ∧ t.mgc = s.mgc ∧ t.latches = s.latches := by
  simp [State.settlePower, apply_ite State.pending, apply_ite State.waiting, apply_ite State.freeCount, apply_ite State.coreTime, apply_ite State.masthead, apply_ite State.hly, apply_ite State.ftu, apply_ite State.adm, apply_ite State.csc, apply_ite State.obf, apply_ite State.egs, apply_ite State.arbs, apply_ite State.rte, apply_ite State.lnk, apply_ite State.trn, apply_ite State.prt, apply_ite State.pool, apply_ite State.dir, apply_ite State.mec, apply_ite State.locks, apply_ite State.mtc, apply_ite State.rdx, apply_ite State.mpu, apply_ite State.icu, apply_ite State.mgc, apply_ite State.latches]

/-- A change of a channel. -/
@[simp] theorem State.upChan_frame (s : State) (c : Nat) (f : Chan → Chan) :
    let t := s.upChan c f
    t.pending = s.pending ∧ t.waiting = s.waiting ∧ t.freeCount = s.freeCount ∧ t.out = s.out ∧ t.coreTime = s.coreTime ∧
    t.masthead = s.masthead ∧ t.hly = s.hly ∧ t.ftu = s.ftu ∧ t.adm = s.adm ∧ t.csc = s.csc ∧ t.obf = s.obf ∧ t.egs = s.egs ∧
    t.arbs = s.arbs ∧ t.rte = s.rte ∧ t.lnk = s.lnk ∧ t.trn = s.trn ∧ t.prt = s.prt ∧ t.pool = s.pool ∧ t.dir = s.dir ∧ t.mec = s.mec ∧
    t.locks = s.locks ∧ t.mtc = s.mtc ∧ t.rdx = s.rdx ∧ t.ins = s.ins ∧ t.mpu = s.mpu ∧ t.icu = s.icu ∧ t.msix = s.msix ∧ t.flt = s.flt ∧
    t.ttc = s.ttc ∧ t.mgc = s.mgc ∧ t.latches = s.latches := by
  simp [State.upChan]

/-- A channel starts to ramp. -/
@[simp] theorem State.startRamp_frame (s : State) (c : Nat) :
    let t := s.startRamp c
    t.pending = s.pending ∧ t.waiting = s.waiting ∧ t.freeCount = s.freeCount ∧ t.out = s.out ∧ t.coreTime = s.coreTime ∧
    t.masthead = s.masthead ∧ t.hly = s.hly ∧ t.ftu = s.ftu ∧ t.adm = s.adm ∧ t.csc = s.csc ∧ t.obf = s.obf ∧ t.egs = s.egs ∧
    t.arbs = s.arbs ∧ t.rte = s.rte ∧ t.lnk = s.lnk ∧ t.trn = s.trn ∧ t.prt = s.prt ∧ t.pool = s.pool ∧ t.dir = s.dir ∧ t.mec = s.mec ∧
    t.locks = s.locks ∧ t.mtc = s.mtc ∧ t.rdx = s.rdx ∧ t.ins = s.ins ∧ t.mpu = s.mpu ∧ t.icu = s.icu ∧ t.msix = s.msix ∧ t.flt = s.flt ∧
    t.ttc = s.ttc ∧ t.mgc = s.mgc ∧ t.latches = s.latches := by
  simp [State.startRamp]

/-- A channel goes off. -/
@[simp] theorem State.chanOff_frame (s : State) (c : Nat) (b : Bool) :
    let t := s.chanOff c b
    t.pending = s.pending ∧ t.waiting = s.waiting ∧ t.freeCount = s.freeCount ∧ t.out = s.out ∧ t.coreTime = s.coreTime ∧
    t.masthead = s.masthead ∧ t.hly = s.hly ∧ t.ftu = s.ftu ∧ t.adm = s.adm ∧ t.csc = s.csc ∧ t.obf = s.obf ∧ t.egs = s.egs ∧
    t.arbs = s.arbs ∧ t.rte = s.rte ∧ t.lnk = s.lnk ∧ t.trn = s.trn ∧ t.prt = s.prt ∧ t.pool = s.pool ∧ t.dir = s.dir ∧ t.mec = s.mec ∧
    t.locks = s.locks ∧ t.mtc = s.mtc ∧ t.rdx = s.rdx ∧ t.ins = s.ins ∧ t.mpu = s.mpu ∧ t.icu = s.icu ∧ t.msix = s.msix ∧ t.flt = s.flt ∧
    t.ttc = s.ttc ∧ t.mgc = s.mgc ∧ t.latches = s.latches := by
  simp [State.chanOff]

/-- An ordered switch-off. -/
@[simp] theorem State.switchOff_frame (s : State) (c : Nat) (b : Bool) :
    let t := s.switchOff c b
    t.pending = s.pending ∧ t.waiting = s.waiting ∧ t.freeCount = s.freeCount ∧ t.coreTime = s.coreTime ∧ t.masthead = s.masthead ∧
    t.hly = s.hly ∧ t.ftu = s.ftu ∧ t.adm = s.adm ∧ t.csc = s.csc ∧ t.obf = s.obf ∧ t.egs = s.egs ∧ t.arbs = s.arbs ∧ t.rte = s.rte ∧
    t.lnk = s.lnk ∧ t.trn = s.trn ∧ t.prt = s.prt ∧ t.pool = s.pool ∧ t.dir = s.dir ∧ t.mec = s.mec ∧ t.locks = s.locks ∧ t.mtc = s.mtc ∧
    t.rdx = s.rdx ∧ t.mpu = s.mpu ∧ t.icu = s.icu ∧ t.mgc = s.mgc ∧ t.latches = s.latches := by
  simp [State.switchOff]

/-- A change of a downstream port. -/
@[simp] theorem State.upDown_frame (s : State) (c : Nat) (f : Downstream → Downstream) :
    let t := s.upDown c f
    t.pending = s.pending ∧ t.waiting = s.waiting ∧ t.freeCount = s.freeCount ∧ t.out = s.out ∧ t.coreTime = s.coreTime ∧
    t.masthead = s.masthead ∧ t.hly = s.hly ∧ t.ftu = s.ftu ∧ t.adm = s.adm ∧ t.csc = s.csc ∧ t.obf = s.obf ∧ t.egs = s.egs ∧
    t.arbs = s.arbs ∧ t.rte = s.rte ∧ t.lnk = s.lnk ∧ t.trn = s.trn ∧ t.prt = s.prt ∧ t.dir = s.dir ∧ t.mec = s.mec ∧ t.locks = s.locks ∧
    t.mtc = s.mtc ∧ t.rdx = s.rdx ∧ t.ins = s.ins ∧ t.mpu = s.mpu ∧ t.icu = s.icu ∧ t.msix = s.msix ∧ t.pwr = s.pwr ∧ t.flt = s.flt ∧
    t.ttc = s.ttc ∧ t.mgc = s.mgc ∧ t.latches = s.latches := by
  simp [State.upDown]

/-- A slot whose presence wants power. -/
@[simp] theorem State.presencePower_frame (s : State) (n : Nat) :
    let t := s.presencePower n
    t.pending = s.pending ∧ t.waiting = s.waiting ∧ t.freeCount = s.freeCount ∧ t.out = s.out ∧ t.coreTime = s.coreTime ∧
    t.masthead = s.masthead ∧ t.hly = s.hly ∧ t.ftu = s.ftu ∧ t.adm = s.adm ∧ t.csc = s.csc ∧ t.obf = s.obf ∧ t.egs = s.egs ∧
    t.arbs = s.arbs ∧ t.rte = s.rte ∧ t.lnk = s.lnk ∧ t.trn = s.trn ∧ t.prt = s.prt ∧ t.dir = s.dir ∧ t.mec = s.mec ∧ t.locks = s.locks ∧
    t.mtc = s.mtc ∧ t.rdx = s.rdx ∧ t.ins = s.ins ∧ t.mpu = s.mpu ∧ t.icu = s.icu ∧ t.msix = s.msix ∧ t.flt = s.flt ∧ t.ttc = s.ttc ∧
    t.mgc = s.mgc ∧ t.latches = s.latches := by
  simp only [State.presencePower]; split <;> (try split) <;> simp

/-- Interrupt flags leave the rest of the power block. -/
@[simp] theorem State.powerFlags_keeps (s : State) (c : Nat) :
    let t := s.powerFlags c
    t.pwr.mode = s.pwr.mode ∧ t.pwr.modeLeft = s.pwr.modeLeft ∧ t.pwr.change = s.pwr.change ∧ t.pwr.reefForm = s.pwr.reefForm ∧
    t.pwr.wakeGpio = s.pwr.wakeGpio ∧ t.pwr.windowMs = s.pwr.windowMs ∧ t.pwr.sleepIdle = s.pwr.sleepIdle ∧
    t.pwr.powerOffIdle = s.pwr.powerOffIdle ∧ t.pwr.chans = s.pwr.chans ∧ t.pwr.domains = s.pwr.domains ∧
    t.pwr.thermTrip = s.pwr.thermTrip := by
  simp only [State.powerFlags]; split <;> (try split) <;> simp

/-- An event of the power and slot die leaves its channels. -/
@[simp] theorem State.powerEvent_keeps (s : State) (c : Nat) :
    let t := s.powerEvent c
    t.pwr.mode = s.pwr.mode ∧ t.pwr.modeLeft = s.pwr.modeLeft ∧ t.pwr.change = s.pwr.change ∧ t.pwr.reefForm = s.pwr.reefForm ∧
    t.pwr.wakeGpio = s.pwr.wakeGpio ∧ t.pwr.windowMs = s.pwr.windowMs ∧ t.pwr.sleepIdle = s.pwr.sleepIdle ∧
    t.pwr.powerOffIdle = s.pwr.powerOffIdle ∧ t.pwr.chans = s.pwr.chans ∧ t.pwr.domains = s.pwr.domains ∧
    t.pwr.thermTrip = s.pwr.thermTrip := by
  simp only [State.powerEvent]; split <;> simp

/-- So does a level condition. -/
@[simp] theorem State.powerLevel_keeps (s : State) (c : Nat) (b : Bool) :
    let t := s.powerLevel c b
    t.pwr.mode = s.pwr.mode ∧ t.pwr.modeLeft = s.pwr.modeLeft ∧ t.pwr.change = s.pwr.change ∧ t.pwr.reefForm = s.pwr.reefForm ∧
    t.pwr.wakeGpio = s.pwr.wakeGpio ∧ t.pwr.windowMs = s.pwr.windowMs ∧ t.pwr.sleepIdle = s.pwr.sleepIdle ∧
    t.pwr.powerOffIdle = s.pwr.powerOffIdle ∧ t.pwr.chans = s.pwr.chans ∧ t.pwr.domains = s.pwr.domains ∧
    t.pwr.thermTrip = s.pwr.thermTrip := by
  simp only [State.powerLevel]; split <;> split <;> simp

/-- So do the level conditions of all channels. -/
@[simp] theorem State.settlePower_keeps (s : State) (n : Nat) :
    let t := s.settlePower n
    t.pwr.mode = s.pwr.mode ∧ t.pwr.modeLeft = s.pwr.modeLeft ∧ t.pwr.change = s.pwr.change ∧ t.pwr.reefForm = s.pwr.reefForm ∧
    t.pwr.wakeGpio = s.pwr.wakeGpio ∧ t.pwr.windowMs = s.pwr.windowMs ∧ t.pwr.sleepIdle = s.pwr.sleepIdle ∧
    t.pwr.powerOffIdle = s.pwr.powerOffIdle ∧ t.pwr.chans = s.pwr.chans ∧ t.pwr.domains = s.pwr.domains ∧
    t.pwr.thermTrip = s.pwr.thermTrip := by
  simp [State.settlePower, apply_ite State.pwr, apply_ite Pwr.mode, apply_ite Pwr.modeLeft, apply_ite Pwr.change, apply_ite Pwr.reefForm, apply_ite Pwr.wakeGpio, apply_ite Pwr.windowMs, apply_ite Pwr.sleepIdle, apply_ite Pwr.powerOffIdle, apply_ite Pwr.chans, apply_ite Pwr.domains, apply_ite Pwr.thermTrip]

end Sys2Proof.Machine
end

