-- ==== Sys2Proof/Laws/Steps.lean ====
section
/-!
SUPPORT. The end of a step, and the one way in which a Halyard command runs: what the statements' proofs cite.
-/
namespace Sys2Proof.Machine

/-- A list whose filter finds nothing. -/
theorem filter_eq_nil_of_all {α : Type} {l : List α} {p : α → Bool} (h : l.all (fun x => !p x) = true) : l.filter p = [] := by
  induction l with
  | nil => rfl
  | cons a t ih =>
    simp only [List.all_cons, Bool.and_eq_true, Bool.not_eq_true'] at h
    simp [List.filter_cons, h.1, ih h.2]

theorem calm_iff (s : State) : s.calm = true ↔ s.flt.actions = [] ∧ s.mec.abandons = [] ∧
    (s.mec.sendQ.all fun q => !q.2.destroying) = true ∧ (s.mec.recvQ.all fun q => !q.2.destroying) = true ∧
    (s.pool.down.all fun e => !e.2.held) = true ∧ s.mgc.leaving = false ∧
    (s.pwr.change.any fun c => c.target == .barePoles) = false := by
  simp only [State.calm, Bool.and_eq_true, List.isEmpty_iff, Bool.not_eq_true', and_assoc]

/-- No action is owed: none is taken. -/
theorem runActions_nil (s : State) (h : s.flt.actions = []) (n : Nat) : s.runActions n = s := by
  cases n with
  | zero => rfl
  | succ n => simp [State.runActions, h]

theorem actAll_nil (s : State) (h : s.flt.actions = []) : s.actAll = s := runActions_nil s h _

theorem sendAbandons_nil (s : State) (h : s.mec.abandons = []) : s.sendAbandons = s := by
  have e : { s.mec with abandons := [] } = s.mec := by rw [← h]
  simp only [State.sendAbandons, h, List.foldl_nil, State.upMec, e]

theorem settleDestroys_none (s : State) (h1 : (s.mec.sendQ.all fun q => !q.2.destroying) = true)
    (h2 : (s.mec.recvQ.all fun q => !q.2.destroying) = true) : s.settleDestroys = s := by
  have e1 : s.mec.sendQ.filter (fun q => q.2.destroying && s.queueSlots q.1 == 0 && q.2.issue.isEmpty) = [] := by
    apply filter_eq_nil_of_all
    refine List.all_eq_true.mpr fun x hx => ?_
    have := List.all_eq_true.mp h1 x hx
    simp_all
  have e2 : s.mec.recvQ.filter (fun q => q.2.destroying && !(s.mtc.msgs.any fun m => m.taken.any fun p => p.queue == q.1)) = [] := by
    apply filter_eq_nil_of_all
    refine List.all_eq_true.mpr fun x hx => ?_
    have := List.all_eq_true.mp h2 x hx
    simp_all
  simp only [State.settleDestroys, e1, List.map_nil, List.foldl_nil, e2]

theorem settleHeld_none (s : State) (h : (s.pool.down.all fun e => !e.2.held) = true) : s.settleHeld = s := by
  have e : s.pool.down.filter (fun e => e.2.held && !s.slotPoisoned e.1) = [] := by
    apply filter_eq_nil_of_all
    refine List.all_eq_true.mpr fun x hx => ?_
    have := List.all_eq_true.mp h x hx
    simp_all
  simp only [State.settleHeld, e, List.map_nil, List.foldl_nil]

theorem settleLeave_none (s : State) (h : s.mgc.leaving = false) : s.settleLeave = s := by
  simp [State.settleLeave, h]

theorem settleBare_none (s : State) (h : (s.pwr.change.any fun c => c.target == .barePoles) = false) : s.settleBare = s := by
  simp [State.settleBare, h]

/-- A step that owes nothing at its end leaves the effect as it is. -/
theorem settle_calm (s : State) (h : s.calm = true) : s.settle = s := by
  obtain ⟨h1, h2, h3, h4, h5, h6, h7⟩ := (calm_iff s).mp h
  simp only [State.settle, actAll_nil s h1, sendAbandons_nil s h2, settleDestroys_none s h3 h4, settleHeld_none s h5,
    settleLeave_none s h6, settleBare_none s h7]

/-- A waking event of a device that is awake is nothing (R42). -/
theorem wake_awake (s : State) (h : s.awake = true) : s.wake = s := by
  simp only [State.awake, Bool.and_eq_true, bne_iff_ne, ne_eq, Bool.not_eq_true'] at h
  simp only [State.wake, h.2, Bool.false_eq_true, if_false, h.1]

/-! ### Running a Halyard command -/

theorem runs_iff (s : State) (h : HlyHdr) (code inLen outLen : Nat) (names : List Obj) :
    s.runs h code inLen outLen names = true ↔
      s.acceptable h = true ∧ s.commonStatus code h inLen outLen names = none ∧ h.remote = false := by
  simp only [State.runs, Bool.and_eq_true, Option.isNone_iff_eq_none, Bool.not_eq_true', and_assoc]

/-- A command that runs and that its chapter completes with success. -/
theorem runHly_done {i : Instr} {code inLen outLen : Nat} {h : HlyHdr} {names : List Obj} {body : State → HRes} {s v : State}
    {result : Nat} {out : List Nat} (hr : s.runs h code inLen outLen names = true)
    (hb : body (s.fetchCmd h) = .done v 0 result out) (hl : out.length ≤ h.dataLength) :
    runHly i code h inLen outLen names body s = v.answer h code result out := by
  obtain ⟨h1, h2, h3⟩ := (runs_iff ..).mp hr
  simp only [runHly, h1, h2, h3, hb]
  simp [Nat.not_lt.mpr hl, State.answer]

/-- A command that runs and that its chapter puts in progress. -/
theorem runHly_pend {i : Instr} {code inLen outLen : Nat} {h : HlyHdr} {names : List Obj} {body : State → HRes} {s v : State}
    {w : Wait} {holds : List Obj} (hr : s.runs h code inLen outLen names = true)
    (hb : body (s.fetchCmd h) = .pend v w holds) :
    runHly i code h inLen outLen names body s = v.started h code w holds := by
  obtain ⟨h1, h2, h3⟩ := (runs_iff ..).mp hr
  simp only [runHly, h1, h2, h3, hb]
  simp [State.started]

theorem answers_of {i : Instr} {code inLen outLen : Nat} {h : HlyHdr} {names : List Obj} {body : State → HRes} {s v : State}
    {result : Nat} {out : List Nat} (hr : s.runs h code inLen outLen names = true)
    (hb : body (s.fetchCmd h) = .done v 0 result out) (hl : out.length ≤ h.dataLength) :
    Answers (ends (runHly i code h inLen outLen names body s)) v h code result out := by
  rw [Answers, ends, runHly_done hr hb hl]

theorem starts_of {i : Instr} {code inLen outLen : Nat} {h : HlyHdr} {names : List Obj} {body : State → HRes} {s v : State}
    {w : Wait} {holds : List Obj} (hr : s.runs h code inLen outLen names = true)
    (hb : body (s.fetchCmd h) = .pend v w holds) :
    Starts (ends (runHly i code h inLen outLen names body s)) v h code w holds := by
  rw [Starts, ends, runHly_pend hr hb]

/-- No condition of a list of refusals holds. -/
theorem refuseIf_none (l : List (Bool × Nat)) (r : HRes) (h : l.all (fun x => !x.1) = true) : refuseIf l r = r := by
  induction l with
  | nil => rfl
  | cons a t ih =>
    simp only [List.all_cons, Bool.and_eq_true, Bool.not_eq_true'] at h
    obtain ⟨b, st⟩ := a
    simp only at h
    simp [refuseIf, h.1, ih h.2]

/-! ### What taking a command's descriptor leaves -/

@[simp] theorem State.fetchCmd_pending (s : State) (h : HlyHdr) : (s.fetchCmd h).pending = s.pending := by cases h with | mk src => cases src <;> rfl
@[simp] theorem State.fetchCmd_waiting (s : State) (h : HlyHdr) : (s.fetchCmd h).waiting = s.waiting := by cases h with | mk src => cases src <;> rfl
@[simp] theorem State.fetchCmd_freeCount (s : State) (h : HlyHdr) : (s.fetchCmd h).freeCount = s.freeCount := by cases h with | mk src => cases src <;> rfl
@[simp] theorem State.fetchCmd_out (s : State) (h : HlyHdr) : (s.fetchCmd h).out = s.out := by cases h with | mk src => cases src <;> rfl
@[simp] theorem State.fetchCmd_coreTime (s : State) (h : HlyHdr) : (s.fetchCmd h).coreTime = s.coreTime := by cases h with | mk src => cases src <;> rfl
@[simp] theorem State.fetchCmd_masthead (s : State) (h : HlyHdr) : (s.fetchCmd h).masthead = s.masthead := by cases h with | mk src => cases src <;> rfl
@[simp] theorem State.fetchCmd_ftu (s : State) (h : HlyHdr) : (s.fetchCmd h).ftu = s.ftu := by cases h with | mk src => cases src <;> rfl
@[simp] theorem State.fetchCmd_adm (s : State) (h : HlyHdr) : (s.fetchCmd h).adm = s.adm := by cases h with | mk src => cases src <;> rfl
@[simp] theorem State.fetchCmd_csc (s : State) (h : HlyHdr) : (s.fetchCmd h).csc = s.csc := by cases h with | mk src => cases src <;> rfl
@[simp] theorem State.fetchCmd_obf (s : State) (h : HlyHdr) : (s.fetchCmd h).obf = s.obf := by cases h with | mk src => cases src <;> rfl
@[simp] theorem State.fetchCmd_egs (s : State) (h : HlyHdr) : (s.fetchCmd h).egs = s.egs := by cases h with | mk src => cases src <;> rfl
@[simp] theorem State.fetchCmd_arbs (s : State) (h : HlyHdr) : (s.fetchCmd h).arbs = s.arbs := by cases h with | mk src => cases src <;> rfl
@[simp] theorem State.fetchCmd_rte (s : State) (h : HlyHdr) : (s.fetchCmd h).rte = s.rte := by cases h with | mk src => cases src <;> rfl
@[simp] theorem State.fetchCmd_lnk (s : State) (h : HlyHdr) : (s.fetchCmd h).lnk = s.lnk := by cases h with | mk src => cases src <;> rfl
@[simp] theorem State.fetchCmd_trn (s : State) (h : HlyHdr) : (s.fetchCmd h).trn = s.trn := by cases h with | mk src => cases src <;> rfl
@[simp] theorem State.fetchCmd_prt (s : State) (h : HlyHdr) : (s.fetchCmd h).prt = s.prt := by cases h with | mk src => cases src <;> rfl
@[simp] theorem State.fetchCmd_pool (s : State) (h : HlyHdr) : (s.fetchCmd h).pool = s.pool := by cases h with | mk src => cases src <;> rfl
@[simp] theorem State.fetchCmd_dir (s : State) (h : HlyHdr) : (s.fetchCmd h).dir = s.dir := by cases h with | mk src => cases src <;> rfl
@[simp] theorem State.fetchCmd_mec (s : State) (h : HlyHdr) : (s.fetchCmd h).mec = s.mec := by cases h with | mk src => cases src <;> rfl
@[simp] theorem State.fetchCmd_locks (s : State) (h : HlyHdr) : (s.fetchCmd h).locks = s.locks := by cases h with | mk src => cases src <;> rfl
@[simp] theorem State.fetchCmd_mtc (s : State) (h : HlyHdr) : (s.fetchCmd h).mtc = s.mtc := by cases h with | mk src => cases src <;> rfl
@[simp] theorem State.fetchCmd_rdx (s : State) (h : HlyHdr) : (s.fetchCmd h).rdx = s.rdx := by cases h with | mk src => cases src <;> rfl
@[simp] theorem State.fetchCmd_ins (s : State) (h : HlyHdr) : (s.fetchCmd h).ins = s.ins := by cases h with | mk src => cases src <;> rfl
@[simp] theorem State.fetchCmd_mpu (s : State) (h : HlyHdr) : (s.fetchCmd h).mpu = s.mpu := by cases h with | mk src => cases src <;> rfl
@[simp] theorem State.fetchCmd_icu (s : State) (h : HlyHdr) : (s.fetchCmd h).icu = s.icu := by cases h with | mk src => cases src <;> rfl
@[simp] theorem State.fetchCmd_msix (s : State) (h : HlyHdr) : (s.fetchCmd h).msix = s.msix := by cases h with | mk src => cases src <;> rfl
@[simp] theorem State.fetchCmd_pwr (s : State) (h : HlyHdr) : (s.fetchCmd h).pwr = s.pwr := by cases h with | mk src => cases src <;> rfl
@[simp] theorem State.fetchCmd_flt (s : State) (h : HlyHdr) : (s.fetchCmd h).flt = s.flt := by cases h with | mk src => cases src <;> rfl
@[simp] theorem State.fetchCmd_ttc (s : State) (h : HlyHdr) : (s.fetchCmd h).ttc = s.ttc := by cases h with | mk src => cases src <;> rfl
@[simp] theorem State.fetchCmd_mgc (s : State) (h : HlyHdr) : (s.fetchCmd h).mgc = s.mgc := by cases h with | mk src => cases src <;> rfl
@[simp] theorem State.fetchCmd_latches (s : State) (h : HlyHdr) : (s.fetchCmd h).latches = s.latches := by cases h with | mk src => cases src <;> rfl

end Sys2Proof.Machine
end

