-- ==== Sys2Proof/Laws/Leaves.lean ====
section
/-!
SUPPORT. How a step is shown to leave parts of the state alone: the relation `Held`, how it chains, and the one lemma for every Halyard
command.
-/
namespace Sys2Proof.Machine

/-- A command's answer keeps `P` where it is refused, complete or in progress. -/
inductive HRes.All (P : State → Prop) : HRes → Prop where
  | refuse {st : Nat} : HRes.All P (.refuse st)
  | done {u : State} {st r : Nat} {o : List Nat} (h : P u) : HRes.All P (.done u st r o)
  | pend {u : State} {w : Wait} {o : List Obj} (h : P u) : HRes.All P (.pend u w o)

/-- The state `t` comes from `s` by changes of the listed parts alone, and owes nothing. -/
def Held (l : List Block) (s t : State) : Prop := t.pending = s.pending ∧ t.calm = true ∧ ∀ b, b ∉ l → Same b s t

theorem Held.refl {l : List Block} {s : State} (h : s.calm = true) : Held l s s := ⟨rfl, h, fun b _ => by cases b <;> rfl⟩

theorem Same.trans {b : Block} {s t u : State} (h : Same b s t) (k : Same b t u) : Same b s u := by
  cases b <;> simp only [Same] at * <;> rw [k, h]

theorem Held.trans {l : List Block} {s t u : State} (h : Held l s t) (k : Held l t u) : Held l s u :=
  ⟨k.1.trans h.1, k.2.1, fun b hb => (h.2.2 b hb).trans (k.2.2 b hb)⟩

theorem Held.mono {l k : List Block} {s t : State} (h : Held l s t) (hl : ∀ b ∈ l, b ∈ k) : Held k s t :=
  ⟨h.1, h.2.1, fun b hb => h.2.2 b fun hx => hb (hl b hx)⟩

theorem held_fetchCmd {s : State} {h : HlyHdr} (hs : s.calm = true) : Held [.hly] s (s.fetchCmd h) := by
  refine ⟨by simp, ?_, ?_⟩
  · simpa [calm_iff] using hs
  · intro b hb; cases b <;> simp_all [Same]

/-- The completion of a command that did not come in-band puts no packet to the ingress. -/
theorem complete_host {s : State} {src : CmdSrc} {seq code : Nat} {i e : Bool} {st r : Nat} {o : List Nat} (h : srcKey src = none) :
    (s.complete src seq code i e st r o).obf = s.obf ∧ (s.complete src seq code i e st r o).trn = s.trn := by
  simp only [State.complete]
  constructor
  · rw [(State.writeReply_host _ _ (by simpa [State.mkReply] using h)).1]; simp
  · rw [(State.writeReply_host _ _ (by simpa [State.mkReply] using h)).2]; simp

theorem held_complete {s : State} {src : CmdSrc} {seq code : Nat} {i e : Bool} {st r : Nat} {o : List Nat} (hs : s.calm = true) :
    Held ([.hly, .ins, .msix, .out] ++ if (srcKey src).isSome then [.obf, .trn] else []) s (s.complete src seq code i e st r o) := by
  refine ⟨by simp, ?_, ?_⟩
  · simpa [calm_iff] using hs
  · intro b hb
    cases hk : srcKey src <;> cases b <;> simp_all [Same, complete_host]

theorem held_upHly {s : State} {f : Hly → Hly} (hs : s.calm = true) : Held [.hly] s (s.upHly f) := by
  refine ⟨by simp, ?_, ?_⟩
  · simpa [calm_iff] using hs
  · intro b hb; cases b <;> simp_all [Same]

theorem held_emit {s : State} {o : Out} (hs : s.calm = true) : Held [.out] s (s.emit o) := by
  refine ⟨by simp [State.emit], ?_, ?_⟩
  · simpa [calm_iff, State.emit] using hs
  · intro b hb; cases b <;> simp_all [Same, State.emit]

theorem held_sendLane {s : State} {target : Nat} {directed : Bool} {ports : List Nat} {queue seq attempt descriptor : Nat} {input : List Nat}
    (hs : s.calm = true) :
    Held [.out, .obf, .trn] s (s.sendLaneCommand target directed ports queue seq attempt descriptor input) := by
  refine ⟨by simp, ?_, ?_⟩
  · simpa [calm_iff] using hs
  · intro b hb; cases b <;> simp_all [Same]

theorem held_foldl {α : Type} {l : List Block} {g : State → α → State} (hg : ∀ (s : State) (a : α), s.calm = true → Held l s (g s a))
    (xs : List α) {s : State} (hs : s.calm = true) : Held l s (xs.foldl g s) := by
  induction xs generalizing s with
  | nil => exact .refl hs
  | cons a t ih => exact (hg s a hs).trans (ih (hg s a hs).2.1)

theorem leaves_ends {l : List Block} {s t : State} (h : Held l s t) : LeavesBut (ends t) s l :=
  ⟨t, by rw [ends, settle_calm t h.2.1], h.1, h.2.2⟩

theorem held_runHly {l : List Block} {i : Instr} {code inLen outLen : Nat} {h : HlyHdr} {names : List Obj} {body : State → HRes} {s : State}
    (hs : s.calm = true) (hl : ∀ b ∈ replyParts h, b ∈ l) (hb : (body (s.fetchCmd h)).All (Held l (s.fetchCmd h))) :
    Held l s (runHly i code h inLen outLen names body s) := by
  have m4 : ∀ b ∈ ([.hly, .ins, .msix, .out] ++ if (srcKey h.src).isSome then [.obf, .trn] else [] : List Block), b ∈ l :=
    fun b hb => hl b (by cases hk : (srcKey h.src).isSome <;> simp [replyParts, hk] at * <;> tauto)
  have m1 : ∀ b ∈ ([.hly] : List Block), b ∈ l := fun b hb => hl b (by simp [replyParts] at *; tauto)
  have hf := (held_fetchCmd (h := h) hs)
  have hc := hf.2.1
  have hF := hf.mono m1
  rw [runHly]
  split
  · refine ⟨rfl, by simpa [calm_iff] using hs, fun b hb => ?_⟩
    have : b ≠ .waiting := fun e => hb (hl b (by simp [e, replyParts]))
    cases b <;> first | rfl | exact absurd rfl this
  · simp only
    split
    · exact hF.trans ((held_complete hc).mono m4)
    · split
      · rename_i hr
        have m2 : ∀ b ∈ ([.out, .obf, .trn] : List Block), b ∈ l := fun b hb => hl b (by simp [replyParts, hr] at *; tauto)
        simp only [State.sendRemote]
        exact hF.trans (((held_upHly hc).mono m1).trans ((held_sendLane (held_upHly hc).2.1).mono m2))
      · cases hr : body (s.fetchCmd h) with
        | refuse st => exact hF.trans ((held_complete hc).mono m4)
        | done u st r o =>
          rw [hr] at hb
          cases hb with
          | done hb =>
          simp only
          split
          · exact hF.trans ((held_complete hc).mono m4)
          · exact (hF.trans hb).trans ((held_complete hb.2.1).mono m4)
        | pend u w o =>
          rw [hr] at hb
          cases hb with
          | pend hb =>
          exact (hF.trans hb).trans ((held_upHly hb.2.1).mono m1)

theorem leaves_runHly {l : List Block} {i : Instr} {code inLen outLen : Nat} {h : HlyHdr} {names : List Obj} {body : State → HRes} {s : State}
    (hs : s.calm = true) (hl : ∀ b ∈ replyParts h, b ∈ l) (hb : ∀ u : State, u.calm = true → (body u).All (Held l u)) :
    LeavesBut (ends (runHly i code h inLen outLen names body s)) s l :=
  leaves_ends (held_runHly hs hl (hb _ (held_fetchCmd hs).2.1))

theorem all_refuseIf {P : State → Prop} {l : List (Bool × Nat)} {r : HRes} (h : r.All P) : (refuseIf l r).All P := by
  induction l with
  | nil => exact h
  | cons a t ih => rw [refuseIf]; split; exact .refuse; exact ih

end Sys2Proof.Machine
end

