-- ==== Sys2Proof/Laws/PerInstr.lean ====
section
/-! SUPPORT. Statements about every command, made per command: the family ParamsFit. -/

/-- The parameters of a Halyard command lie within bits 160 to 511 of its descriptor, where its
lists fill their slots (R442, R443), and an event carries none. -/
def Sys2Proof.Laws.ParamsFit.Statement (i : Sys2Proof.Instr) : Prop :=
  (i.slotsOk = true → (i.params.map Prod.snd).sum ≤ 352) ∧ (i.header = none → i.params = [])

namespace Sys2Proof.Laws.ParamsFit

theorem nop (h : HlyHdr) : Statement (.nop h) :=
  ⟨fun _ => Nat.le_of_ble_eq_true rfl, (absurd · (Option.some_ne_none h))⟩

theorem deviceQuery (h : HlyHdr) : Statement (.deviceQuery h) :=
  ⟨fun _ => Nat.le_of_ble_eq_true rfl, (absurd · (Option.some_ne_none h))⟩

theorem inbandSet (h : HlyHdr) (cm : Nat) (accept : Bool) (count : Nat) (serials : List Nat) (timeout retries hold : Nat) : Statement (.inbandSet h cm accept count serials timeout retries hold) :=
  ⟨fun _ => by
    change (List.map Prod.snd ([(cm, 16), (accept.toNat, 1), (count, 3)] ++ ((List.range 4).map fun k => (serials.getD k 0, 64)) ++ [(timeout, 10), (retries, 4), (hold, 7)])).sum ≤ 352
    simp [List.range, List.range.loop], (absurd · (Option.some_ne_none h))⟩

theorem hostLinkSet (h : HlyHdr) (link cm windowLog2 releaseTimeout : Nat) : Statement (.hostLinkSet h link cm windowLog2 releaseTimeout) :=
  ⟨fun _ => Nat.le_of_ble_eq_true rfl, (absurd · (Option.some_ne_none h))⟩

theorem modeSet (h : HlyHdr) (mode reefForm : Nat) (force : Bool) : Statement (.modeSet h mode reefForm force) :=
  ⟨fun _ => Nat.le_of_ble_eq_true rfl, (absurd · (Option.some_ne_none h))⟩

theorem pwrSet (h : HlyHdr) (feed cm : Nat) (set : ChanSet) (rearm : Bool) (windowMs wakeGpio sleepIdle powerOffIdle : Nat) : Statement (.pwrSet h feed cm set rearm windowMs wakeGpio sleepIdle powerOffIdle) :=
  ⟨fun _ => by
    change (List.map Prod.snd ([(feed, 1), (cm, 16)] ++ set.params ++ [(rearm.toNat, 1), (windowMs, 10), (wakeGpio, 6), (sleepIdle, 10), (powerOffIdle, 14)])).sum ≤ 352
    simp [ChanSet.params], (absurd · (Option.some_ne_none h))⟩

theorem pwrQuery (h : HlyHdr) (channel : Nat) : Statement (.pwrQuery h channel) :=
  ⟨fun _ => Nat.le_of_ble_eq_true rfl, (absurd · (Option.some_ne_none h))⟩

theorem pwrCapture (h : HlyHdr) (action mask channel first count : Nat) : Statement (.pwrCapture h action mask channel first count) :=
  ⟨fun _ => Nat.le_of_ble_eq_true rfl, (absurd · (Option.some_ne_none h))⟩

theorem slotSet (h : HlyHdr) (slot cm : Nat) (enable autoPower pginUse : Bool) (set : ChanSet) : Statement (.slotSet h slot cm enable autoPower pginUse set) :=
  ⟨fun _ => by
    change (List.map Prod.snd ([(slot, 5), (cm, 16), (enable.toNat, 1), (autoPower.toNat, 1), (pginUse.toNat, 1)] ++ set.params)).sum ≤ 352
    simp [ChanSet.params], (absurd · (Option.some_ne_none h))⟩

theorem slotPower (h : HlyHdr) (slot : Nat) (on force : Bool) : Statement (.slotPower h slot on force) :=
  ⟨fun _ => Nat.le_of_ble_eq_true rfl, (absurd · (Option.some_ne_none h))⟩

theorem slotQuery (h : HlyHdr) (slot : Nat) : Statement (.slotQuery h slot) :=
  ⟨fun _ => Nat.le_of_ble_eq_true rfl, (absurd · (Option.some_ne_none h))⟩

theorem portModeSet (h : HlyHdr) (port mode width maxRate : Nat) : Statement (.portModeSet h port mode width maxRate) :=
  ⟨fun _ => Nat.le_of_ble_eq_true rfl, (absurd · (Option.some_ne_none h))⟩

theorem laneSet (h : HlyHdr) (port cm corrThreshold corrWindow marginFloor : Nat) (autoSpare idleEnable : Bool) (idleEntry trainTimeout : Nat) : Statement (.laneSet h port cm corrThreshold corrWindow marginFloor autoSpare idleEnable idleEntry trainTimeout) :=
  ⟨fun _ => Nat.le_of_ble_eq_true rfl, (absurd · (Option.some_ne_none h))⟩

theorem laneSpare (h : HlyHdr) (port action lane : Nat) : Statement (.laneSpare h port action lane) :=
  ⟨fun _ => Nat.le_of_ble_eq_true rfl, (absurd · (Option.some_ne_none h))⟩

theorem laneTest (h : HlyHdr) (lane function pattern userPattern inject symbols every : Nat) : Statement (.laneTest h lane function pattern userPattern inject symbols every) :=
  ⟨fun _ => Nat.le_of_ble_eq_true rfl, (absurd · (Option.some_ne_none h))⟩

theorem laneQuery (h : HlyHdr) (port : Nat) : Statement (.laneQuery h port) :=
  ⟨fun _ => Nat.le_of_ble_eq_true rfl, (absurd · (Option.some_ne_none h))⟩

theorem linkSet (h : HlyHdr) (port cm linkTimeout replayLimit retrainLimit : Nat) (shares : List Nat) : Statement (.linkSet h port cm linkTimeout replayLimit retrainLimit shares) :=
  ⟨fun hs => by
    change (List.map Prod.snd ([(port, 5), (cm, 16), (linkTimeout, 9), (replayLimit, 8), (retrainLimit, 10)] ++ wide 14 shares)).sum ≤ 352
    have hl : shares.length = 7 := of_decide_eq_true hs
    simp [wide, Function.comp_def, hl], (absurd · (Option.some_ne_none h))⟩

theorem trnSet (h : HlyHdr) (cm ackDelay nakDelay retryTimeout retryLimit ctxIdle sendWindow : Nat) : Statement (.trnSet h cm ackDelay nakDelay retryTimeout retryLimit ctxIdle sendWindow) :=
  ⟨fun _ => Nat.le_of_ble_eq_true rfl, (absurd · (Option.some_ne_none h))⟩

theorem contextPin (h : HlyHdr) (peer inst cls half : Nat) (pin : Bool) : Statement (.contextPin h peer inst cls half pin) :=
  ⟨fun _ => Nat.le_of_ble_eq_true rfl, (absurd · (Option.some_ne_none h))⟩

theorem faultInject (h : HlyHdr) (port kind n count : Nat) : Statement (.faultInject h port kind n count) :=
  ⟨fun _ => Nat.le_of_ble_eq_true rfl, (absurd · (Option.some_ne_none h))⟩

theorem linkQuery (h : HlyHdr) (port : Nat) : Statement (.linkQuery h port) :=
  ⟨fun _ => Nat.le_of_ble_eq_true rfl, (absurd · (Option.some_ne_none h))⟩

theorem trnQuery (h : HlyHdr) (peer inst cls half : Nat) : Statement (.trnQuery h peer inst cls half) :=
  ⟨fun _ => Nat.le_of_ble_eq_true rfl, (absurd · (Option.some_ne_none h))⟩

theorem routeWrite (h : HlyHdr) (tiles mode table first count : Nat) (masks : List Nat) : Statement (.routeWrite h tiles mode table first count masks) :=
  ⟨fun _ => Nat.le_of_ble_eq_true rfl, (absurd · (Option.some_ne_none h))⟩

theorem routeEpochAdvance (h : HlyHdr) (epoch : Nat) : Statement (.routeEpochAdvance h epoch) :=
  ⟨fun _ => Nat.le_of_ble_eq_true rfl, (absurd · (Option.some_ne_none h))⟩

theorem routeEpochRetire (h : HlyHdr) : Statement (.routeEpochRetire h) :=
  ⟨fun _ => Nat.le_of_ble_eq_true rfl, (absurd · (Option.some_ne_none h))⟩

theorem routePortSet (h : HlyHdr) (port kind group member : Nat) (up : Bool) : Statement (.routePortSet h port kind group member up) :=
  ⟨fun _ => Nat.le_of_ble_eq_true rfl, (absurd · (Option.some_ne_none h))⟩

theorem routePolicySet (h : HlyHdr) (sl mode bias : Nat) : Statement (.routePolicySet h sl mode bias) :=
  ⟨fun _ => Nat.le_of_ble_eq_true rfl, (absurd · (Option.some_ne_none h))⟩

theorem contractRouteSet (h : HlyHdr) (contractId mode count : Nat) (groups : List Nat) : Statement (.contractRouteSet h contractId mode count groups) :=
  ⟨fun hs => by
    change (List.map Prod.snd ([(contractId, 14), (mode, 1), (count, 3)] ++ wide 10 groups)).sum ≤ 352
    have hl : groups.length = 4 := of_decide_eq_true hs
    simp [wide, Function.comp_def, hl], (absurd · (Option.some_ne_none h))⟩

theorem routeEndpointSet (h : HlyHdr) (endpoint target destination : Nat) : Statement (.routeEndpointSet h endpoint target destination) :=
  ⟨fun _ => Nat.le_of_ble_eq_true rfl, (absurd · (Option.some_ne_none h))⟩

theorem treeInstall (h : HlyHdr) (tree : Nat) (valid : Bool) (upstream branches : Nat) (delivery : Delivery) (leaves : List Nat) : Statement (.treeInstall h tree valid upstream branches delivery leaves) :=
  ⟨fun _ => Nat.le_of_ble_eq_true rfl, (absurd · (Option.some_ne_none h))⟩

theorem treeRemove (h : HlyHdr) (tree : Nat) : Statement (.treeRemove h tree) :=
  ⟨fun _ => Nat.le_of_ble_eq_true rfl, (absurd · (Option.some_ne_none h))⟩

theorem treeFence (h : HlyHdr) (scope tree branch : Nat) : Statement (.treeFence h scope tree branch) :=
  ⟨fun _ => Nat.le_of_ble_eq_true rfl, (absurd · (Option.some_ne_none h))⟩

theorem holdSet (h : HlyHdr) (quota : Nat) : Statement (.holdSet h quota) :=
  ⟨fun _ => Nat.le_of_ble_eq_true rfl, (absurd · (Option.some_ne_none h))⟩

theorem discover (h : HlyHdr) : Statement (.discover h) :=
  ⟨fun _ => Nat.le_of_ble_eq_true rfl, (absurd · (Option.some_ne_none h))⟩

theorem idAssign (h : HlyHdr) (deviceId : Nat) (force : Bool) : Statement (.idAssign h deviceId force) :=
  ⟨fun _ => Nat.le_of_ble_eq_true rfl, (absurd · (Option.some_ne_none h))⟩

theorem contractInstall (h : HlyHdr) (c : ContractP) : Statement (.contractInstall h c) :=
  ⟨fun _ => by
    change (List.map Prod.snd (c.params)).sum ≤ 352
    simp [ContractP.params, List.range, List.range.loop], (absurd · (Option.some_ne_none h))⟩

theorem contractModify (h : HlyHdr) (contractId cm committed peak burst : Nat) (aware : Bool) (bound lateThreshold remoteBudget : Nat) : Statement (.contractModify h contractId cm committed peak burst aware bound lateThreshold remoteBudget) :=
  ⟨fun _ => Nat.le_of_ble_eq_true rfl, (absurd · (Option.some_ne_none h))⟩

theorem contractRemove (h : HlyHdr) (contractId : Nat) : Statement (.contractRemove h contractId) :=
  ⟨fun _ => Nat.le_of_ble_eq_true rfl, (absurd · (Option.some_ne_none h))⟩

theorem contractQuery (h : HlyHdr) (contractId : Nat) : Statement (.contractQuery h contractId) :=
  ⟨fun _ => Nat.le_of_ble_eq_true rfl, (absurd · (Option.some_ne_none h))⟩

theorem hopReserve (h : HlyHdr) (r : ResvP) : Statement (.hopReserve h r) :=
  ⟨fun _ => Nat.le_of_ble_eq_true rfl, (absurd · (Option.some_ne_none h))⟩

theorem hopRelease (h : HlyHdr) (resvId : Nat) : Statement (.hopRelease h resvId) :=
  ⟨fun _ => Nat.le_of_ble_eq_true rfl, (absurd · (Option.some_ne_none h))⟩

theorem meterSet (h : HlyHdr) (inst committed peak committedBurst peakBurst : Nat) : Statement (.meterSet h inst committed peak committedBurst peakBurst) :=
  ⟨fun _ => Nat.le_of_ble_eq_true rfl, (absurd · (Option.some_ne_none h))⟩

theorem portReserveSet (h : HlyHdr) (port fraction : Nat) : Statement (.portReserveSet h port fraction) :=
  ⟨fun _ => Nat.le_of_ble_eq_true rfl, (absurd · (Option.some_ne_none h))⟩

theorem ftuSet (h : HlyHdr) (cm : Nat) (grandmaster : Bool) (parentPort syncPeriod : Nat) (ppsIn ppsOut : Bool) : Statement (.ftuSet h cm grandmaster parentPort syncPeriod ppsIn ppsOut) :=
  ⟨fun _ => Nat.le_of_ble_eq_true rfl, (absurd · (Option.some_ne_none h))⟩

theorem bufferAccountSet (h : HlyHdr) (account minReserve alphaExp markThreshold : Nat) : Statement (.bufferAccountSet h account minReserve alphaExp markThreshold) :=
  ⟨fun _ => Nat.le_of_ble_eq_true rfl, (absurd · (Option.some_ne_none h))⟩

theorem bufferPoolSet (h : HlyHdr) (contractPool : Nat) : Statement (.bufferPoolSet h contractPool) :=
  ⟨fun _ => Nat.le_of_ble_eq_true rfl, (absurd · (Option.some_ne_none h))⟩

theorem auditSet (h : HlyHdr) (enable : Bool) (residencyMs : Nat) : Statement (.auditSet h enable residencyMs) :=
  ⟨fun _ => Nat.le_of_ble_eq_true rfl, (absurd · (Option.some_ne_none h))⟩

theorem bufferReclaim (h : HlyHdr) (mode queue : Nat) : Statement (.bufferReclaim h mode queue) :=
  ⟨fun _ => Nat.le_of_ble_eq_true rfl, (absurd · (Option.some_ne_none h))⟩

theorem bufferQuery (h : HlyHdr) (account : Nat) : Statement (.bufferQuery h account) :=
  ⟨fun _ => Nat.le_of_ble_eq_true rfl, (absurd · (Option.some_ne_none h))⟩

theorem egsLeafBind (h : HlyHdr) (output sl inst queue weight rate burst : Nat) (tokenReset : Bool) : Statement (.egsLeafBind h output sl inst queue weight rate burst tokenReset) :=
  ⟨fun _ => Nat.le_of_ble_eq_true rfl, (absurd · (Option.some_ne_none h))⟩

theorem egsLeafUnbind (h : HlyHdr) (queue : Nat) : Statement (.egsLeafUnbind h queue) :=
  ⟨fun _ => Nat.le_of_ble_eq_true rfl, (absurd · (Option.some_ne_none h))⟩

theorem egsNodeSet (h : HlyHdr) (target output sl queue cm weight rate burst : Nat) (tokenReset : Bool) : Statement (.egsNodeSet h target output sl queue cm weight rate burst tokenReset) :=
  ⟨fun _ => Nat.le_of_ble_eq_true rfl, (absurd · (Option.some_ne_none h))⟩

theorem egsQuery (h : HlyHdr) (target output sl queue : Nat) : Statement (.egsQuery h target output sl queue) :=
  ⟨fun _ => Nat.le_of_ble_eq_true rfl, (absurd · (Option.some_ne_none h))⟩

theorem arbSet (h : HlyHdr) (resource index cm : Nat) (compat : Bool) (thresholdExp requester weight : Nat) : Statement (.arbSet h resource index cm compat thresholdExp requester weight) :=
  ⟨fun _ => Nat.le_of_ble_eq_true rfl, (absurd · (Option.some_ne_none h))⟩

theorem arbQuery (h : HlyHdr) (resource index : Nat) : Statement (.arbQuery h resource index) :=
  ⟨fun _ => Nat.le_of_ble_eq_true rfl, (absurd · (Option.some_ne_none h))⟩

theorem poolLinkSet (h : HlyHdr) (link memInst releaseTimeout : Nat) : Statement (.poolLinkSet h link memInst releaseTimeout) :=
  ⟨fun _ => Nat.le_of_ble_eq_true rfl, (absurd · (Option.some_ne_none h))⟩

theorem extentBind (h : HlyHdr) (b : BindP) : Statement (.extentBind h b) :=
  ⟨fun _ => Nat.le_of_ble_eq_true rfl, (absurd · (Option.some_ne_none h))⟩

theorem extentUnbind (h : HlyHdr) (handle count : Nat) (zero : Bool) : Statement (.extentUnbind h handle count zero) :=
  ⟨fun _ => Nat.le_of_ble_eq_true rfl, (absurd · (Option.some_ne_none h))⟩

theorem importMap (h : HlyHdr) (m : ImportP) : Statement (.importMap h m) :=
  ⟨fun _ => Nat.le_of_ble_eq_true rfl, (absurd · (Option.some_ne_none h))⟩

theorem extentZero (h : HlyHdr) (handle count : Nat) : Statement (.extentZero h handle count) :=
  ⟨fun _ => Nat.le_of_ble_eq_true rfl, (absurd · (Option.some_ne_none h))⟩

theorem extentQuery (h : HlyHdr) (handle count : Nat) : Statement (.extentQuery h handle count) :=
  ⟨fun _ => Nat.le_of_ble_eq_true rfl, (absurd · (Option.some_ne_none h))⟩

theorem functionBind (h : HlyHdr) (port routingId link vslot : Nat) : Statement (.functionBind h port routingId link vslot) :=
  ⟨fun _ => Nat.le_of_ble_eq_true rfl, (absurd · (Option.some_ne_none h))⟩

theorem functionUnbind (h : HlyHdr) (port routingId : Nat) : Statement (.functionUnbind h port routingId) :=
  ⟨fun _ => Nat.le_of_ble_eq_true rfl, (absurd · (Option.some_ne_none h))⟩

theorem slotRemove (h : HlyHdr) (port : Nat) : Statement (.slotRemove h port) :=
  ⟨fun _ => Nat.le_of_ble_eq_true rfl, (absurd · (Option.some_ne_none h))⟩

theorem hbmPartitionSet (h : HlyHdr) (directory matching heaps : Nat) : Statement (.hbmPartitionSet h directory matching heaps) :=
  ⟨fun _ => Nat.le_of_ble_eq_true rfl, (absurd · (Option.some_ne_none h))⟩

theorem cohAgentAdd (h : HlyHdr) (agent kind port : Nat) : Statement (.cohAgentAdd h agent kind port) :=
  ⟨fun _ => Nat.le_of_ble_eq_true rfl, (absurd · (Option.some_ne_none h))⟩

theorem cohAgentRemove (h : HlyHdr) (agent : Nat) : Statement (.cohAgentRemove h agent) :=
  ⟨fun _ => Nat.le_of_ble_eq_true rfl, (absurd · (Option.some_ne_none h))⟩

theorem cohWindowCreate (h : HlyHdr) (window mask : Nat) : Statement (.cohWindowCreate h window mask) :=
  ⟨fun _ => Nat.le_of_ble_eq_true rfl, (absurd · (Option.some_ne_none h))⟩

theorem cohWindowAgents (h : HlyHdr) (window mask : Nat) : Statement (.cohWindowAgents h window mask) :=
  ⟨fun _ => Nat.le_of_ble_eq_true rfl, (absurd · (Option.some_ne_none h))⟩

theorem cohWindowMap (h : HlyHdr) (window inst firstSlot : Nat) (map : Bool) : Statement (.cohWindowMap h window inst firstSlot map) :=
  ⟨fun _ => Nat.le_of_ble_eq_true rfl, (absurd · (Option.some_ne_none h))⟩

theorem cohWindowDestroy (h : HlyHdr) (window : Nat) : Statement (.cohWindowDestroy h window) :=
  ⟨fun _ => Nat.le_of_ble_eq_true rfl, (absurd · (Option.some_ne_none h))⟩

theorem dirSet (h : HlyHdr) (cm snoopTimeout : Nat) (scrubEnable : Bool) : Statement (.dirSet h cm snoopTimeout scrubEnable) :=
  ⟨fun _ => Nat.le_of_ble_eq_true rfl, (absurd · (Option.some_ne_none h))⟩

theorem dirQuery (h : HlyHdr) (window extentIndex lineIndex : Nat) : Statement (.dirQuery h window extentIndex lineIndex) :=
  ⟨fun _ => Nat.le_of_ble_eq_true rfl, (absurd · (Option.some_ne_none h))⟩

theorem queueCreate (h : HlyHdr) (q : QueueP) : Statement (.queueCreate h q) :=
  ⟨fun _ => Nat.le_of_ble_eq_true rfl, (absurd · (Option.some_ne_none h))⟩

theorem queueDestroy (h : HlyHdr) (kind queue : Nat) : Statement (.queueDestroy h kind queue) :=
  ⟨fun _ => Nat.le_of_ble_eq_true rfl, (absurd · (Option.some_ne_none h))⟩

theorem queueMove (h : HlyHdr) (queue engine : Nat) : Statement (.queueMove h queue engine) :=
  ⟨fun _ => Nat.le_of_ble_eq_true rfl, (absurd · (Option.some_ne_none h))⟩

theorem queueRestart (h : HlyHdr) (kind queue : Nat) : Statement (.queueRestart h kind queue) :=
  ⟨fun _ => Nat.le_of_ble_eq_true rfl, (absurd · (Option.some_ne_none h))⟩

theorem regionSet (h : HlyHdr) (r : RegionP) : Statement (.regionSet h r) :=
  ⟨fun _ => by
    change (List.map Prod.snd (r.params)).sum ≤ 352
    simp [RegionP.params], (absurd · (Option.some_ne_none h))⟩

theorem engInstanceSet (h : HlyHdr) (inst counterBase counterCount heap matchEntries onDieReserve : Nat) : Statement (.engInstanceSet h inst counterBase counterCount heap matchEntries onDieReserve) :=
  ⟨fun _ => Nat.le_of_ble_eq_true rfl, (absurd · (Option.some_ne_none h))⟩

theorem engSet (h : HlyHdr) (cm rnrDelay rnrLimit lockAge : Nat) : Statement (.engSet h cm rnrDelay rnrLimit lockAge) :=
  ⟨fun _ => Nat.le_of_ble_eq_true rfl, (absurd · (Option.some_ne_none h))⟩

theorem lockBreak (h : HlyHdr) (index : Nat) : Statement (.lockBreak h index) :=
  ⟨fun _ => Nat.le_of_ble_eq_true rfl, (absurd · (Option.some_ne_none h))⟩

theorem engQuery (h : HlyHdr) (kind index : Nat) : Statement (.engQuery h kind index) :=
  ⟨fun _ => Nat.le_of_ble_eq_true rfl, (absurd · (Option.some_ne_none h))⟩

theorem collGroupSet (h : HlyHdr) (g : GroupP) : Statement (.collGroupSet h g) :=
  ⟨fun _ => Nat.le_of_ble_eq_true rfl, (absurd · (Option.some_ne_none h))⟩

theorem collGroupRemove (h : HlyHdr) (group : Nat) : Statement (.collGroupRemove h group) :=
  ⟨fun _ => Nat.le_of_ble_eq_true rfl, (absurd · (Option.some_ne_none h))⟩

theorem collFence (h : HlyHdr) (group target index : Nat) : Statement (.collFence h group target index) :=
  ⟨fun _ => Nat.le_of_ble_eq_true rfl, (absurd · (Option.some_ne_none h))⟩

theorem collQuery (h : HlyHdr) (group : Nat) : Statement (.collQuery h group) :=
  ⟨fun _ => Nat.le_of_ble_eq_true rfl, (absurd · (Option.some_ne_none h))⟩

theorem instanceCreate (h : HlyHdr) (inst link function resetMode drainTimeout vectors : Nat) : Statement (.instanceCreate h inst link function resetMode drainTimeout vectors) :=
  ⟨fun _ => Nat.le_of_ble_eq_true rfl, (absurd · (Option.some_ne_none h))⟩

theorem instanceSet (h : HlyHdr) (inst cm resetMode drainTimeout vectors : Nat) : Statement (.instanceSet h inst cm resetMode drainTimeout vectors) :=
  ⟨fun _ => Nat.le_of_ble_eq_true rfl, (absurd · (Option.some_ne_none h))⟩

theorem instanceReset (h : HlyHdr) (inst form : Nat) : Statement (.instanceReset h inst form) :=
  ⟨fun _ => Nat.le_of_ble_eq_true rfl, (absurd · (Option.some_ne_none h))⟩

theorem instanceDisable (h : HlyHdr) (inst : Nat) : Statement (.instanceDisable h inst) :=
  ⟨fun _ => Nat.le_of_ble_eq_true rfl, (absurd · (Option.some_ne_none h))⟩

theorem dirtyLogSet (h : HlyHdr) (inst : Nat) (enable : Bool) (baseA baseB rangeBase rangePages : Nat) (inFunction : Bool) : Statement (.dirtyLogSet h inst enable baseA baseB rangeBase rangePages inFunction) :=
  ⟨fun _ => Nat.le_of_ble_eq_true rfl, (absurd · (Option.some_ne_none h))⟩

theorem dirtyLogSwap (h : HlyHdr) (inst : Nat) : Statement (.dirtyLogSwap h inst) :=
  ⟨fun _ => Nat.le_of_ble_eq_true rfl, (absurd · (Option.some_ne_none h))⟩

theorem instanceQuery (h : HlyHdr) (inst : Nat) : Statement (.instanceQuery h inst) :=
  ⟨fun _ => Nat.le_of_ble_eq_true rfl, (absurd · (Option.some_ne_none h))⟩

theorem mpuRulesSet (h : HlyHdr) (master set first count : Nat) (entries : List MpuRegion) : Statement (.mpuRulesSet h master set first count entries) :=
  ⟨fun _ => Nat.le_of_ble_eq_true rfl, (absurd · (Option.some_ne_none h))⟩

theorem mpuSwap (h : HlyHdr) (master : Nat) : Statement (.mpuSwap h master) :=
  ⟨fun _ => Nat.le_of_ble_eq_true rfl, (absurd · (Option.some_ne_none h))⟩

theorem mpuQuery (h : HlyHdr) (master : Nat) : Statement (.mpuQuery h master) :=
  ⟨fun _ => Nat.le_of_ble_eq_true rfl, (absurd · (Option.some_ne_none h))⟩

theorem debugUnlock (h : HlyHdr) (action serial nonce : Nat) (signatureOk : Bool) : Statement (.debugUnlock h action serial nonce signatureOk) :=
  ⟨fun _ => Nat.le_of_ble_eq_true rfl, (absurd · (Option.some_ne_none h))⟩

theorem icuSet (h : HlyHdr) (target first count priority coreMask threshold : Nat) : Statement (.icuSet h target first count priority coreMask threshold) :=
  ⟨fun _ => Nat.le_of_ble_eq_true rfl, (absurd · (Option.some_ne_none h))⟩

theorem icuQuery (h : HlyHdr) (first count : Nat) : Statement (.icuQuery h first count) :=
  ⟨fun _ => Nat.le_of_ble_eq_true rfl, (absurd · (Option.some_ne_none h))⟩

theorem faultSet (h : HlyHdr) (first count cm severity quietMs vector : Nat) : Statement (.faultSet h first count cm severity quietMs vector) :=
  ⟨fun _ => Nat.le_of_ble_eq_true rfl, (absurd · (Option.some_ne_none h))⟩

theorem faultForce (h : HlyHdr) (source : Nat) (force : Bool) (kind subject : Nat) : Statement (.faultForce h source force kind subject) :=
  ⟨fun _ => Nat.le_of_ble_eq_true rfl, (absurd · (Option.some_ne_none h))⟩

theorem faultClear (h : HlyHdr) (first count : Nat) (sticky : Bool) : Statement (.faultClear h first count sticky) :=
  ⟨fun _ => Nat.le_of_ble_eq_true rfl, (absurd · (Option.some_ne_none h))⟩

theorem faultQuery (h : HlyHdr) (first count : Nat) : Statement (.faultQuery h first count) :=
  ⟨fun _ => Nat.le_of_ble_eq_true rfl, (absurd · (Option.some_ne_none h))⟩

theorem spareSwap (h : HlyHdr) (kind unit : Nat) : Statement (.spareSwap h kind unit) :=
  ⟨fun _ => Nat.le_of_ble_eq_true rfl, (absurd · (Option.some_ne_none h))⟩

theorem spareQuery (h : HlyHdr) (kind : Nat) : Statement (.spareQuery h kind) :=
  ⟨fun _ => Nat.le_of_ble_eq_true rfl, (absurd · (Option.some_ne_none h))⟩

theorem backgroundSet (h : HlyHdr) (cm hbmPatrolH sramPatrolMs calPeriodMs trendThreshold trendWindowMin auto : Nat) : Statement (.backgroundSet h cm hbmPatrolH sramPatrolMs calPeriodMs trendThreshold trendWindowMin auto) :=
  ⟨fun _ => Nat.le_of_ble_eq_true rfl, (absurd · (Option.some_ne_none h))⟩

theorem ttcSet (h : HlyHdr) (block counter event samplePeriod : Nat) : Statement (.ttcSet h block counter event samplePeriod) :=
  ⟨fun _ => Nat.le_of_ble_eq_true rfl, (absurd · (Option.some_ne_none h))⟩

theorem dumpSet (h : HlyHdr) (stream cm intervalMs ringBase slots vector : Nat) (inMemory : Bool) : Statement (.dumpSet h stream cm intervalMs ringBase slots vector inMemory) :=
  ⟨fun _ => Nat.le_of_ble_eq_true rfl, (absurd · (Option.some_ne_none h))⟩

theorem probeSet (h : HlyHdr) (probe bridge action source destination kindMask matchAddr mask records : Nat) : Statement (.probeSet h probe bridge action source destination kindMask matchAddr mask records) :=
  ⟨fun _ => Nat.le_of_ble_eq_true rfl, (absurd · (Option.some_ne_none h))⟩

theorem probeQuery (h : HlyHdr) (probe first count : Nat) : Statement (.probeQuery h probe first count) :=
  ⟨fun _ => Nat.le_of_ble_eq_true rfl, (absurd · (Option.some_ne_none h))⟩

theorem mtrSet (h : HlyHdr) (action inst : Nat) : Statement (.mtrSet h action inst) :=
  ⟨fun _ => Nat.le_of_ble_eq_true rfl, (absurd · (Option.some_ne_none h))⟩

theorem fwWrite (h : HlyHdr) (slot offset : Nat) (final : Bool) (data : List Nat) : Statement (.fwWrite h slot offset final data) :=
  ⟨fun _ => Nat.le_of_ble_eq_true rfl, (absurd · (Option.some_ne_none h))⟩

theorem fwActivate (h : HlyHdr) (slot when_ : Nat) (raiseFloor : Bool) : Statement (.fwActivate h slot when_ raiseFloor) :=
  ⟨fun _ => Nat.le_of_ble_eq_true rfl, (absurd · (Option.some_ne_none h))⟩

theorem deviceReset (h : HlyHdr) (kind : Nat) : Statement (.deviceReset h kind) :=
  ⟨fun _ => Nat.le_of_ble_eq_true rfl, (absurd · (Option.some_ne_none h))⟩

theorem fabricLeave (h : HlyHdr) (force : Bool) : Statement (.fabricLeave h force) :=
  ⟨fun _ => Nat.le_of_ble_eq_true rfl, (absurd · (Option.some_ne_none h))⟩

theorem deviceResetEffect : Statement (.deviceResetEffect) :=
  ⟨fun _ => Nat.le_of_ble_eq_true rfl, fun _ => rfl⟩

theorem doorbellSend (inst queue index : Nat) : Statement (.doorbellSend inst queue index) :=
  ⟨fun _ => Nat.le_of_ble_eq_true rfl, fun _ => rfl⟩

theorem doorbellReceive (inst queue index : Nat) : Statement (.doorbellReceive inst queue index) :=
  ⟨fun _ => Nat.le_of_ble_eq_true rfl, fun _ => rfl⟩

theorem doorbellCompletion (inst queue index : Nat) : Statement (.doorbellCompletion inst queue index) :=
  ⟨fun _ => Nat.le_of_ble_eq_true rfl, fun _ => rfl⟩

theorem doorbellCompletionArm (inst queue index : Nat) : Statement (.doorbellCompletionArm inst queue index) :=
  ⟨fun _ => Nat.le_of_ble_eq_true rfl, fun _ => rfl⟩

theorem hlyCommandProducerWrite (q index : Nat) : Statement (.hlyCommandProducerWrite q index) :=
  ⟨fun _ => Nat.le_of_ble_eq_true rfl, fun _ => rfl⟩

theorem hlyReplyConsumerWrite (q index : Nat) : Statement (.hlyReplyConsumerWrite q index) :=
  ⟨fun _ => Nat.le_of_ble_eq_true rfl, fun _ => rfl⟩

theorem hlyQueueEnable (q : Nat) : Statement (.hlyQueueEnable q) :=
  ⟨fun _ => Nat.le_of_ble_eq_true rfl, fun _ => rfl⟩

theorem hlyQueueDisable (q : Nat) : Statement (.hlyQueueDisable q) :=
  ⟨fun _ => Nat.le_of_ble_eq_true rfl, fun _ => rfl⟩

theorem icuClaimRead (core : Nat) (viaBar0 : Bool) : Statement (.icuClaimRead core viaBar0) :=
  ⟨fun _ => Nat.le_of_ble_eq_true rfl, fun _ => rfl⟩

theorem icuCompleteWrite (core source : Nat) (viaBar0 : Bool) : Statement (.icuCompleteWrite core source viaBar0) :=
  ⟨fun _ => Nat.le_of_ble_eq_true rfl, fun _ => rfl⟩

theorem icuSwiWrite (value : Word) : Statement (.icuSwiWrite value) :=
  ⟨fun _ => Nat.le_of_ble_eq_true rfl, fun _ => rfl⟩

theorem mpuViolPop (value : Word) : Statement (.mpuViolPop value) :=
  ⟨fun _ => Nat.le_of_ble_eq_true rfl, fun _ => rfl⟩

theorem ftuTimeLoRead : Statement (.ftuTimeLoRead) :=
  ⟨fun _ => Nat.le_of_ble_eq_true rfl, fun _ => rfl⟩

theorem reg64LowHalfRead (window offset : Nat) : Statement (.reg64LowHalfRead window offset) :=
  ⟨fun _ => Nat.le_of_ble_eq_true rfl, fun _ => rfl⟩

theorem bar0IllegalAccess (write : Bool) : Statement (.bar0IllegalAccess write) :=
  ⟨fun _ => Nat.le_of_ble_eq_true rfl, fun _ => rfl⟩

theorem bar0UnmappedAccess (access : Bar0Access) : Statement (.bar0UnmappedAccess access) :=
  ⟨fun _ => Nat.le_of_ble_eq_true rfl, fun _ => rfl⟩

theorem registerWrite (window offset : Nat) (value : Word) : Statement (.registerWrite window offset value) :=
  ⟨fun _ => Nat.le_of_ble_eq_true rfl, fun _ => rfl⟩

theorem functionLevelReset (inst : Nat) : Statement (.functionLevelReset inst) :=
  ⟨fun _ => Nat.le_of_ble_eq_true rfl, fun _ => rfl⟩

theorem vfEnableClear (link : Nat) : Statement (.vfEnableClear link) :=
  ⟨fun _ => Nat.le_of_ble_eq_true rfl, fun _ => rfl⟩

theorem busMasterEnableClear (inst : Nat) : Statement (.busMasterEnableClear inst) :=
  ⟨fun _ => Nat.le_of_ble_eq_true rfl, fun _ => rfl⟩

theorem msixUnmask (inst vector : Nat) (wholeFunction : Bool) : Statement (.msixUnmask inst vector wholeFunction) :=
  ⟨fun _ => Nat.le_of_ble_eq_true rfl, fun _ => rfl⟩

theorem boardChannelRequest (code inputLength : Nat) : Statement (.boardChannelRequest code inputLength) :=
  ⟨fun _ => Nat.le_of_ble_eq_true rfl, fun _ => rfl⟩

theorem hlyCmdReceive (origin : Origin) (queue seq segIndex segCount attempt : Nat) (directed : Bool) (retPorts : List Nat) : Statement (.hlyCmdReceive origin queue seq segIndex segCount attempt directed retPorts) :=
  ⟨fun _ => Nat.le_of_ble_eq_true rfl, fun _ => rfl⟩

theorem hlyReplyReceive (queue seq segIndex segCount attempt status result : Nat) (deviceValid : Bool) (device : Nat) (out : List Nat) : Statement (.hlyReplyReceive queue seq segIndex segCount attempt status result deviceValid device out) :=
  ⟨fun _ => Nat.le_of_ble_eq_true rfl, fun _ => rfl⟩

theorem inbandTimeout (queue seq : Nat) : Statement (.inbandTimeout queue seq) :=
  ⟨fun _ => Nat.le_of_ble_eq_true rfl, fun _ => rfl⟩

theorem reassemblyTimeout (serial queue seq : Nat) : Statement (.reassemblyTimeout serial queue seq) :=
  ⟨fun _ => Nat.le_of_ble_eq_true rfl, fun _ => rfl⟩

theorem inbandHoldExpiry (serial queue seq : Nat) : Statement (.inbandHoldExpiry serial queue seq) :=
  ⟨fun _ => Nat.le_of_ble_eq_true rfl, fun _ => rfl⟩

theorem directedReceive (port hopCount hopPtr : Nat) (ports : RoutePorts) (message : List Nat) : Statement (.directedReceive port hopCount hopPtr ports message) :=
  ⟨fun _ => Nat.le_of_ble_eq_true rfl, fun _ => rfl⟩

theorem neighbourReceive (port serial neighbourPort : Nat) : Statement (.neighbourReceive port serial neighbourPort) :=
  ⟨fun _ => Nat.le_of_ble_eq_true rfl, fun _ => rfl⟩

theorem syncPeriod : Statement (.syncPeriod) :=
  ⟨fun _ => Nat.le_of_ble_eq_true rfl, fun _ => rfl⟩

theorem ftSyncReqReceive (port exchange t1 : Nat) : Statement (.ftSyncReqReceive port exchange t1) :=
  ⟨fun _ => Nat.le_of_ble_eq_true rfl, fun _ => rfl⟩

theorem ftSyncRspReceive (port exchange depth t2 t3 : Nat) : Statement (.ftSyncRspReceive port exchange depth t2 t3) :=
  ⟨fun _ => Nat.le_of_ble_eq_true rfl, fun _ => rfl⟩

theorem parentReplyLoss : Statement (.parentReplyLoss) :=
  ⟨fun _ => Nat.le_of_ble_eq_true rfl, fun _ => rfl⟩

theorem mastheadTimeTick : Statement (.mastheadTimeTick) :=
  ⟨fun _ => Nat.le_of_ble_eq_true rfl, fun _ => rfl⟩

theorem wakeSyncWindowEnd : Statement (.wakeSyncWindowEnd) :=
  ⟨fun _ => Nat.le_of_ble_eq_true rfl, fun _ => rfl⟩

theorem packetIngress (input : Nat) (p : Packet) (length : Nat) (rxVl : Nat) (preYellow firstOfOp : Bool) : Statement (.packetIngress input p length rxVl preYellow firstOfOp) :=
  ⟨fun _ => Nat.le_of_ble_eq_true rfl, fun _ => rfl⟩

theorem routeRetry (pid : Nat) : Statement (.routeRetry pid) :=
  ⟨fun _ => Nat.le_of_ble_eq_true rfl, fun _ => rfl⟩

theorem bufferAdmission (pid : Nat) : Statement (.bufferAdmission pid) :=
  ⟨fun _ => Nat.le_of_ble_eq_true rfl, fun _ => rfl⟩

theorem egressSelect (output : Nat) : Statement (.egressSelect output) :=
  ⟨fun _ => Nat.le_of_ble_eq_true rfl, fun _ => rfl⟩

theorem framePreempt (output pid progress : Nat) : Statement (.framePreempt output pid progress) :=
  ⟨fun _ => Nat.le_of_ble_eq_true rfl, fun _ => rfl⟩

theorem suspendedFrameResume (output vl : Nat) : Statement (.suspendedFrameResume output vl) :=
  ⟨fun _ => Nat.le_of_ble_eq_true rfl, fun _ => rfl⟩

theorem linkFrameReceive (port : Nat) (sync : BitVec 16) (head : BitVec 128) (pid : Nat) (bytes : List Nat) (frameCrc : BitVec 32) (marked : Bool) (lost : Nat) : Statement (.linkFrameReceive port sync head pid bytes frameCrc marked lost) :=
  ⟨fun _ => Nat.le_of_ble_eq_true rfl, fun _ => rfl⟩

theorem linkControlFlitReceive (port : Nat) (flit : BitVec 512) (sync : BitVec 16) : Statement (.linkControlFlitReceive port flit sync) :=
  ⟨fun _ => Nat.le_of_ble_eq_true rfl, fun _ => rfl⟩

theorem replayTimeout (port : Nat) : Statement (.replayTimeout port) :=
  ⟨fun _ => Nat.le_of_ble_eq_true rfl, fun _ => rfl⟩

theorem retrainLimitExpiry (port : Nat) : Statement (.retrainLimitExpiry port) :=
  ⟨fun _ => Nat.le_of_ble_eq_true rfl, fun _ => rfl⟩

theorem linkInitFlitTimer (port : Nat) : Statement (.linkInitFlitTimer port) :=
  ⟨fun _ => Nat.le_of_ble_eq_true rfl, fun _ => rfl⟩

theorem portDisableDrainTimeout (port : Nat) : Statement (.portDisableDrainTimeout port) :=
  ⟨fun _ => Nat.le_of_ble_eq_true rfl, fun _ => rfl⟩

theorem transportDataReceive (p : Packet) (check : BitVec 64) (ticketUsed : Bool) : Statement (.transportDataReceive p check ticketUsed) :=
  ⟨fun _ => Nat.le_of_ble_eq_true rfl, fun _ => rfl⟩

theorem topenReceive (peer inst cls initialSeq sl : Nat) : Statement (.topenReceive peer inst cls initialSeq sl) :=
  ⟨fun _ => Nat.le_of_ble_eq_true rfl, fun _ => rfl⟩

theorem tcloseReceive (peer inst cls nextSeq sl : Nat) : Statement (.tcloseReceive peer inst cls nextSeq sl) :=
  ⟨fun _ => Nat.le_of_ble_eq_true rfl, fun _ => rfl⟩

theorem tackReceive (peer inst cls ackSeq : Nat) (openAck openRefused closeAck : Bool) (lates : List Nat) (marks ticketsReturned ticketsGranted : Nat) : Statement (.tackReceive peer inst cls ackSeq openAck openRefused closeAck lates marks ticketsReturned ticketsGranted) :=
  ⟨fun _ => Nat.le_of_ble_eq_true rfl, fun _ => rfl⟩

theorem tnakReceive (peer inst cls seq : Nat) (transit : Bool) (reason : Nat) : Statement (.tnakReceive peer inst cls seq transit reason) :=
  ⟨fun _ => Nat.le_of_ble_eq_true rfl, fun _ => rfl⟩

theorem ackDelayExpiry (peer inst cls : Nat) : Statement (.ackDelayExpiry peer inst cls) :=
  ⟨fun _ => Nat.le_of_ble_eq_true rfl, fun _ => rfl⟩

theorem nakDelayExpiry (peer inst cls : Nat) : Statement (.nakDelayExpiry peer inst cls) :=
  ⟨fun _ => Nat.le_of_ble_eq_true rfl, fun _ => rfl⟩

theorem retryTimeout (peer inst cls : Nat) : Statement (.retryTimeout peer inst cls) :=
  ⟨fun _ => Nat.le_of_ble_eq_true rfl, fun _ => rfl⟩

theorem ctxIdleExpiry (peer inst cls : Nat) : Statement (.ctxIdleExpiry peer inst cls) :=
  ⟨fun _ => Nat.le_of_ble_eq_true rfl, fun _ => rfl⟩

theorem contextFetchDone (peer inst cls half : Nat) : Statement (.contextFetchDone peer inst cls half) :=
  ⟨fun _ => Nat.le_of_ble_eq_true rfl, fun _ => rfl⟩

theorem mcAckReceive (port tree srcDevice inst op delivered fenced : Nat) : Statement (.mcAckReceive port tree srcDevice inst op delivered fenced) :=
  ⟨fun _ => Nat.le_of_ble_eq_true rfl, fun _ => rfl⟩

theorem descriptorFetch (queue bits : Nat) (readOk : Bool) : Statement (.descriptorFetch queue bits readOk) :=
  ⟨fun _ => Nat.le_of_ble_eq_true rfl, fun _ => rfl⟩

theorem put (queue : Nat) (d : Desc) : Statement (.put queue d) :=
  ⟨fun _ => Nat.le_of_ble_eq_true rfl, fun _ => rfl⟩

theorem get (queue : Nat) (d : Desc) : Statement (.get queue d) :=
  ⟨fun _ => Nat.le_of_ble_eq_true rfl, fun _ => rfl⟩

theorem atomic (queue : Nat) (d : Desc) : Statement (.atomic queue d) :=
  ⟨fun _ => Nat.le_of_ble_eq_true rfl, fun _ => rfl⟩

theorem send (queue : Nat) (d : Desc) : Statement (.send queue d) :=
  ⟨fun _ => Nat.le_of_ble_eq_true rfl, fun _ => rfl⟩

theorem lock (queue : Nat) (d : Desc) : Statement (.lock queue d) :=
  ⟨fun _ => Nat.le_of_ble_eq_true rfl, fun _ => rfl⟩

theorem unlock (queue : Nat) (d : Desc) : Statement (.unlock queue d) :=
  ⟨fun _ => Nat.le_of_ble_eq_true rfl, fun _ => rfl⟩

theorem counterAdd (queue : Nat) (d : Desc) : Statement (.counterAdd queue d) :=
  ⟨fun _ => Nat.le_of_ble_eq_true rfl, fun _ => rfl⟩

theorem counterSet (queue : Nat) (d : Desc) : Statement (.counterSet queue d) :=
  ⟨fun _ => Nat.le_of_ble_eq_true rfl, fun _ => rfl⟩

theorem descNop (queue : Nat) (d : Desc) : Statement (.descNop queue d) :=
  ⟨fun _ => Nat.le_of_ble_eq_true rfl, fun _ => rfl⟩

theorem triggerFire (engine : Nat) : Statement (.triggerFire engine) :=
  ⟨fun _ => Nat.le_of_ble_eq_true rfl, fun _ => rfl⟩

theorem edgeWaitRelease (pid : Nat) : Statement (.edgeWaitRelease pid) :=
  ⟨fun _ => Nat.le_of_ble_eq_true rfl, fun _ => rfl⟩

theorem flaggedLateSend (peer inst cls : Nat) : Statement (.flaggedLateSend peer inst cls) :=
  ⟨fun _ => Nat.le_of_ble_eq_true rfl, fun _ => rfl⟩

theorem receiveTake (queue bits : Nat) : Statement (.receiveTake queue bits) :=
  ⟨fun _ => Nat.le_of_ble_eq_true rfl, fun _ => rfl⟩

theorem rnrDelayExpiry (opTag : Nat) : Statement (.rnrDelayExpiry opTag) :=
  ⟨fun _ => Nat.le_of_ble_eq_true rfl, fun _ => rfl⟩

theorem lockAgeExpiry (index : Nat) : Statement (.lockAgeExpiry index) :=
  ⟨fun _ => Nat.le_of_ble_eq_true rfl, fun _ => rfl⟩

theorem putArrival (r : Req) (a : Access) (data : List Nat) (last : Bool) : Statement (.putArrival r a data last) :=
  ⟨fun _ => Nat.le_of_ble_eq_true rfl, fun _ => rfl⟩

theorem getArrival (r : Req) (a : Access) (poison : Bool) : Statement (.getArrival r a poison) :=
  ⟨fun _ => Nat.le_of_ble_eq_true rfl, fun _ => rfl⟩

theorem atomicArrival (r : Req) (a : Access) (aop : Nat) (size16 : Bool) (opA opB old : Nat) : Statement (.atomicArrival r a aop size16 opA opB old) :=
  ⟨fun _ => Nat.le_of_ble_eq_true rfl, fun _ => rfl⟩

theorem lockArrival (r : Req) (a : Access) (wait : Bool) : Statement (.lockArrival r a wait) :=
  ⟨fun _ => Nat.le_of_ble_eq_true rfl, fun _ => rfl⟩

theorem unlockArrival (r : Req) (a : Access) : Statement (.unlockArrival r a) :=
  ⟨fun _ => Nat.le_of_ble_eq_true rfl, fun _ => rfl⟩

theorem lockAbandonArrival (r : Req) (queue : Nat) : Statement (.lockAbandonArrival r queue) :=
  ⟨fun _ => Nat.le_of_ble_eq_true rfl, fun _ => rfl⟩

theorem sendEagerArrival (r : Req) (dstInst context msn msgOffset matchBits msgLength : Nat) (data : List Nat) : Statement (.sendEagerArrival r dstInst context msn msgOffset matchBits msgLength data) :=
  ⟨fun _ => Nat.le_of_ble_eq_true rfl, fun _ => rfl⟩

theorem sendRtsArrival (r : Req) (dstInst context msn matchBits msgLength : Nat) : Statement (.sendRtsArrival r dstInst context msn matchBits msgLength) :=
  ⟨fun _ => Nat.le_of_ble_eq_true rfl, fun _ => rfl⟩

theorem rgetArrival (r : Req) (rvTag rvGen offset length : Nat) : Statement (.rgetArrival r rvTag rvGen offset length) :=
  ⟨fun _ => Nat.le_of_ble_eq_true rfl, fun _ => rfl⟩

theorem putAckArrival (r : Rsp) : Statement (.putAckArrival r) :=
  ⟨fun _ => Nat.le_of_ble_eq_true rfl, fun _ => rfl⟩

theorem getDataArrival (r : Rsp) (data : List Nat) : Statement (.getDataArrival r data) :=
  ⟨fun _ => Nat.le_of_ble_eq_true rfl, fun _ => rfl⟩

theorem atomicResultArrival (r : Rsp) (old : Nat) : Statement (.atomicResultArrival r old) :=
  ⟨fun _ => Nat.le_of_ble_eq_true rfl, fun _ => rfl⟩

theorem lockResultArrival (r : Rsp) (lockIndex srcDevice : Nat) : Statement (.lockResultArrival r lockIndex srcDevice) :=
  ⟨fun _ => Nat.le_of_ble_eq_true rfl, fun _ => rfl⟩

theorem sendAckArrival (r : Rsp) : Statement (.sendAckArrival r) :=
  ⟨fun _ => Nat.le_of_ble_eq_true rfl, fun _ => rfl⟩

theorem sendRnrArrival (r : Rsp) : Statement (.sendRnrArrival r) :=
  ⟨fun _ => Nat.le_of_ble_eq_true rfl, fun _ => rfl⟩

theorem rgetDataArrival (r : Rsp) (data : List Nat) : Statement (.rgetDataArrival r data) :=
  ⟨fun _ => Nat.le_of_ble_eq_true rfl, fun _ => rfl⟩

theorem rdoneArrival (r : Rsp) (bytes : Nat) : Statement (.rdoneArrival r bytes) :=
  ⟨fun _ => Nat.le_of_ble_eq_true rfl, fun _ => rfl⟩

theorem engErrorArrival (r : Rsp) : Statement (.engErrorArrival r) :=
  ⟨fun _ => Nat.le_of_ble_eq_true rfl, fun _ => rfl⟩

theorem hostMemoryAccess (inst address length : Nat) (write cxl : Bool) (data : List Nat) : Statement (.hostMemoryAccess inst address length write cxl data) :=
  ⟨fun _ => Nat.le_of_ble_eq_true rfl, fun _ => rfl⟩

theorem hostWindowStore (inst address length : Nat) (posted : Bool) (data : List Nat) : Statement (.hostWindowStore inst address length posted data) :=
  ⟨fun _ => Nat.le_of_ble_eq_true rfl, fun _ => rfl⟩

theorem wreadArrival (srcDevice srcInst sl : Nat) (w : WinF) : Statement (.wreadArrival srcDevice srcInst sl w) :=
  ⟨fun _ => Nat.le_of_ble_eq_true rfl, fun _ => rfl⟩

theorem wwriteArrival (srcDevice srcInst sl : Nat) (w : WinF) (data : List Nat) : Statement (.wwriteArrival srcDevice srcInst sl w data) :=
  ⟨fun _ => Nat.le_of_ble_eq_true rfl, fun _ => rfl⟩

theorem wreadDataArrival (inst : Nat) (w : WinF) (data : List Nat) : Statement (.wreadDataArrival inst w data) :=
  ⟨fun _ => Nat.le_of_ble_eq_true rfl, fun _ => rfl⟩

theorem wwriteDoneArrival (inst : Nat) (w : WinF) : Statement (.wwriteDoneArrival inst w) :=
  ⟨fun _ => Nat.le_of_ble_eq_true rfl, fun _ => rfl⟩

theorem werrorArrival (inst : Nat) (w : WinF) (reason : Nat) : Statement (.werrorArrival inst w reason) :=
  ⟨fun _ => Nat.le_of_ble_eq_true rfl, fun _ => rfl⟩

theorem coherentRequest (agent : Option Nat) (handle lineIndex : Nat) (op : CohOp) (offset : Nat) (data : List Nat) : Statement (.coherentRequest agent handle lineIndex op offset data) :=
  ⟨fun _ => Nat.le_of_ble_eq_true rfl, fun _ => rfl⟩

theorem coherentWriteback (agent handle lineIndex keep : Nat) (data : List Nat) : Statement (.coherentWriteback agent handle lineIndex keep data) :=
  ⟨fun _ => Nat.le_of_ble_eq_true rfl, fun _ => rfl⟩

theorem evictionNotice (agent handle lineIndex : Nat) : Statement (.evictionNotice agent handle lineIndex) :=
  ⟨fun _ => Nat.le_of_ble_eq_true rfl, fun _ => rfl⟩

theorem snoopResponseReceive (agent handle lineIndex : Nat) (form : SnoopForm) (data : List Nat) : Statement (.snoopResponseReceive agent handle lineIndex form data) :=
  ⟨fun _ => Nat.le_of_ble_eq_true rfl, fun _ => rfl⟩

theorem biconflictReceive (agent handle lineIndex : Nat) : Statement (.biconflictReceive agent handle lineIndex) :=
  ⟨fun _ => Nat.le_of_ble_eq_true rfl, fun _ => rfl⟩

theorem memoryWriteDone (handle lineIndex : Nat) : Statement (.memoryWriteDone handle lineIndex) :=
  ⟨fun _ => Nat.le_of_ble_eq_true rfl, fun _ => rfl⟩

theorem snoopTimeoutExpiry (agent handle lineIndex : Nat) : Statement (.snoopTimeoutExpiry agent handle lineIndex) :=
  ⟨fun _ => Nat.le_of_ble_eq_true rfl, fun _ => rfl⟩

theorem recallComplete (recallId : Nat) : Statement (.recallComplete recallId) :=
  ⟨fun _ => Nat.le_of_ble_eq_true rfl, fun _ => rfl⟩

theorem memberArrival (group member : Nat) (values : List Nat) (failed poison : Bool) : Statement (.memberArrival group member values failed poison) :=
  ⟨fun _ => Nat.le_of_ble_eq_true rfl, fun _ => rfl⟩

theorem rdxUpArrival (group srcDevice srcInst sl round members : Nat) (fenced arrival : Bool) (elementOffset : Nat) (poison : Bool) (values : List Nat) : Statement (.rdxUpArrival group srcDevice srcInst sl round members fenced arrival elementOffset poison values) :=
  ⟨fun _ => Nat.le_of_ble_eq_true rfl, fun _ => rfl⟩

theorem rdxDownArrival (group round combined : Nat) (fenced : Bool) (status elementOffset : Nat) (values : List Nat) : Statement (.rdxDownArrival group round combined fenced status elementOffset values) :=
  ⟨fun _ => Nat.le_of_ble_eq_true rfl, fun _ => rfl⟩

theorem zeroingComplete (handle : Nat) : Statement (.zeroingComplete handle) :=
  ⟨fun _ => Nat.le_of_ble_eq_true rfl, fun _ => rfl⟩

theorem dynamicCapacityRelease (release : CapacityRelease) : Statement (.dynamicCapacityRelease release) :=
  ⟨fun _ => Nat.le_of_ble_eq_true rfl, fun _ => rfl⟩

theorem dynamicCapacityAddReject (handle : Nat) : Statement (.dynamicCapacityAddReject handle) :=
  ⟨fun _ => Nat.le_of_ble_eq_true rfl, fun _ => rfl⟩

theorem releaseTimeoutExpiry (handle : Nat) (isFunction : Bool) (port routingId : Nat) : Statement (.releaseTimeoutExpiry handle isFunction port routingId) :=
  ⟨fun _ => Nat.le_of_ble_eq_true rfl, fun _ => rfl⟩

theorem unbindDrainComplete (handle : Nat) : Statement (.unbindDrainComplete handle) :=
  ⟨fun _ => Nat.le_of_ble_eq_true rfl, fun _ => rfl⟩

theorem virtualSlotPowerOff (link vslot : Nat) : Statement (.virtualSlotPowerOff link vslot) :=
  ⟨fun _ => Nat.le_of_ble_eq_true rfl, fun _ => rfl⟩

theorem functionResetComplete (port routingId : Nat) : Statement (.functionResetComplete port routingId) :=
  ⟨fun _ => Nat.le_of_ble_eq_true rfl, fun _ => rfl⟩

theorem expanderEnumerated (port serial : Nat) (isExpander : Bool) (capacity : Nat) (further functions : List Nat) : Statement (.expanderEnumerated port serial isExpander capacity further functions) :=
  ⟨fun _ => Nat.le_of_ble_eq_true rfl, fun _ => rfl⟩

theorem hopReleaseDrained (resvId : Nat) : Statement (.hopReleaseDrained resvId) :=
  ⟨fun _ => Nat.le_of_ble_eq_true rfl, fun _ => rfl⟩

theorem hopReleaseTimeout (resvId : Nat) : Statement (.hopReleaseTimeout resvId) :=
  ⟨fun _ => Nat.le_of_ble_eq_true rfl, fun _ => rfl⟩

theorem treeDrained (tree : Nat) : Statement (.treeDrained tree) :=
  ⟨fun _ => Nat.le_of_ble_eq_true rfl, fun _ => rfl⟩

theorem leafDrained (queue : Nat) : Statement (.leafDrained queue) :=
  ⟨fun _ => Nat.le_of_ble_eq_true rfl, fun _ => rfl⟩

theorem groupDrained (group : Nat) : Statement (.groupDrained group) :=
  ⟨fun _ => Nat.le_of_ble_eq_true rfl, fun _ => rfl⟩

theorem queueMoveForwardDone (queue : Nat) : Statement (.queueMoveForwardDone queue) :=
  ⟨fun _ => Nat.le_of_ble_eq_true rfl, fun _ => rfl⟩

theorem logSwapWritebackDone (inst : Nat) : Statement (.logSwapWritebackDone inst) :=
  ⟨fun _ => Nat.le_of_ble_eq_true rfl, fun _ => rfl⟩

theorem mpuSwapCommit (master : Nat) : Statement (.mpuSwapCommit master) :=
  ⟨fun _ => Nat.le_of_ble_eq_true rfl, fun _ => rfl⟩

theorem mpuSwapRetire (master : Nat) : Statement (.mpuSwapRetire master) :=
  ⟨fun _ => Nat.le_of_ble_eq_true rfl, fun _ => rfl⟩

theorem spareSwapComplete (kind unit : Nat) : Statement (.spareSwapComplete kind unit) :=
  ⟨fun _ => Nat.le_of_ble_eq_true rfl, fun _ => rfl⟩

theorem resetDrainComplete (inst : Nat) : Statement (.resetDrainComplete inst) :=
  ⟨fun _ => Nat.le_of_ble_eq_true rfl, fun _ => rfl⟩

theorem drainTimeoutExpiry (inst : Nat) : Statement (.drainTimeoutExpiry inst) :=
  ⟨fun _ => Nat.le_of_ble_eq_true rfl, fun _ => rfl⟩

theorem generationWaitExpiry (inst : Nat) : Statement (.generationWaitExpiry inst) :=
  ⟨fun _ => Nat.le_of_ble_eq_true rfl, fun _ => rfl⟩

theorem resetForceExpiry (inst : Nat) : Statement (.resetForceExpiry inst) :=
  ⟨fun _ => Nat.le_of_ble_eq_true rfl, fun _ => rfl⟩

theorem resetItemsDone (inst : Nat) : Statement (.resetItemsDone inst) :=
  ⟨fun _ => Nat.le_of_ble_eq_true rfl, fun _ => rfl⟩

theorem stormJibDrained : Statement (.stormJibDrained) :=
  ⟨fun _ => Nat.le_of_ble_eq_true rfl, fun _ => rfl⟩

theorem stormJibWake (cause : Nat) : Statement (.stormJibWake cause) :=
  ⟨fun _ => Nat.le_of_ble_eq_true rfl, fun _ => rfl⟩

theorem barePolesCommandTimeout : Statement (.barePolesCommandTimeout) :=
  ⟨fun _ => Nat.le_of_ble_eq_true rfl, fun _ => rfl⟩

theorem wakeGpio : Statement (.wakeGpio) :=
  ⟨fun _ => Nat.le_of_ble_eq_true rfl, fun _ => rfl⟩

theorem rateStepComplete (port : Nat) : Statement (.rateStepComplete port) :=
  ⟨fun _ => Nat.le_of_ble_eq_true rfl, fun _ => rfl⟩

theorem rateStepTimeout (port : Nat) : Statement (.rateStepTimeout port) :=
  ⟨fun _ => Nat.le_of_ble_eq_true rfl, fun _ => rfl⟩

theorem lossOfSignal (lane : Nat) : Statement (.lossOfSignal lane) :=
  ⟨fun _ => Nat.le_of_ble_eq_true rfl, fun _ => rfl⟩

theorem lossOfLock (lane : Nat) : Statement (.lossOfLock lane) :=
  ⟨fun _ => Nat.le_of_ble_eq_true rfl, fun _ => rfl⟩

theorem codewordLockLoss (port : Nat) : Statement (.codewordLockLoss port) :=
  ⟨fun _ => Nat.le_of_ble_eq_true rfl, fun _ => rfl⟩

theorem corrWindowEnd (lane corrected : Nat) : Statement (.corrWindowEnd lane corrected) :=
  ⟨fun _ => Nat.le_of_ble_eq_true rfl, fun _ => rfl⟩

theorem marginReport (lane margin : Nat) : Statement (.marginReport lane margin) :=
  ⟨fun _ => Nat.le_of_ble_eq_true rfl, fun _ => rfl⟩

theorem wearFlag (lane : Nat) : Statement (.wearFlag lane) :=
  ⟨fun _ => Nat.le_of_ble_eq_true rfl, fun _ => rfl⟩

theorem trainingSequenceReceive (lane : Nat) (seq : TrainSeq) : Statement (.trainingSequenceReceive lane seq) :=
  ⟨fun _ => Nat.le_of_ble_eq_true rfl, fun _ => rfl⟩

theorem trainDetectSignal (lane : Nat) : Statement (.trainDetectSignal lane) :=
  ⟨fun _ => Nat.le_of_ble_eq_true rfl, fun _ => rfl⟩

theorem equaliseTimeout (port : Nat) : Statement (.equaliseTimeout port) :=
  ⟨fun _ => Nat.le_of_ble_eq_true rfl, fun _ => rfl⟩

theorem lockAchieved (port : Nat) (skews : List Nat) : Statement (.lockAchieved port skews) :=
  ⟨fun _ => Nat.le_of_ble_eq_true rfl, fun _ => rfl⟩

theorem trainTimeout (port : Nat) : Statement (.trainTimeout port) :=
  ⟨fun _ => Nat.le_of_ble_eq_true rfl, fun _ => rfl⟩

theorem backoffElapsed (port : Nat) : Statement (.backoffElapsed port) :=
  ⟨fun _ => Nat.le_of_ble_eq_true rfl, fun _ => rfl⟩

theorem idleEntryExpiry (port : Nat) : Statement (.idleEntryExpiry port) :=
  ⟨fun _ => Nat.le_of_ble_eq_true rfl, fun _ => rfl⟩

theorem fastExit (port : Nat) : Statement (.fastExit port) :=
  ⟨fun _ => Nat.le_of_ble_eq_true rfl, fun _ => rfl⟩

theorem fastExitLockTimeout (port : Nat) : Statement (.fastExitLockTimeout port) :=
  ⟨fun _ => Nat.le_of_ble_eq_true rfl, fun _ => rfl⟩

theorem subReq (port : Nat) (msg : BitVec 64) : Statement (.subReq port msg) :=
  ⟨fun _ => Nat.le_of_ble_eq_true rfl, fun _ => rfl⟩

theorem subAck (port : Nat) (msg : BitVec 64) : Statement (.subAck port msg) :=
  ⟨fun _ => Nat.le_of_ble_eq_true rfl, fun _ => rfl⟩

theorem subCompareDone (port differing : Nat) : Statement (.subCompareDone port differing) :=
  ⟨fun _ => Nat.le_of_ble_eq_true rfl, fun _ => rfl⟩

theorem subDone (port : Nat) (msg : BitVec 64) : Statement (.subDone port msg) :=
  ⟨fun _ => Nat.le_of_ble_eq_true rfl, fun _ => rfl⟩

theorem subAbort (port : Nat) (msg : BitVec 64) : Statement (.subAbort port msg) :=
  ⟨fun _ => Nat.le_of_ble_eq_true rfl, fun _ => rfl⟩

theorem stepMsg (port : Nat) (msg : BitVec 64) : Statement (.stepMsg port msg) :=
  ⟨fun _ => Nat.le_of_ble_eq_true rfl, fun _ => rfl⟩

theorem stepAck (port : Nat) (msg : BitVec 64) : Statement (.stepAck port msg) :=
  ⟨fun _ => Nat.le_of_ble_eq_true rfl, fun _ => rfl⟩

theorem idleEnter (port : Nat) (msg : BitVec 64) : Statement (.idleEnter port msg) :=
  ⟨fun _ => Nat.le_of_ble_eq_true rfl, fun _ => rfl⟩

theorem wake (port : Nat) (msg : BitVec 64) : Statement (.wake port msg) :=
  ⟨fun _ => Nat.le_of_ble_eq_true rfl, fun _ => rfl⟩

theorem testReq (port : Nat) (msg : BitVec 64) : Statement (.testReq port msg) :=
  ⟨fun _ => Nat.le_of_ble_eq_true rfl, fun _ => rfl⟩

theorem testAck (port : Nat) (msg : BitVec 64) : Statement (.testAck port msg) :=
  ⟨fun _ => Nat.le_of_ble_eq_true rfl, fun _ => rfl⟩

theorem auditPassEnd : Statement (.auditPassEnd) :=
  ⟨fun _ => Nat.le_of_ble_eq_true rfl, fun _ => rfl⟩

theorem arbStarveThreshold (resource index requester : Nat) (grantedNow : Bool) : Statement (.arbStarveThreshold resource index requester grantedNow) :=
  ⟨fun _ => Nat.le_of_ble_eq_true rfl, fun _ => rfl⟩

theorem feedWindowEnter (feed voltage : Nat) : Statement (.feedWindowEnter feed voltage) :=
  ⟨fun _ => Nat.le_of_ble_eq_true rfl, fun _ => rfl⟩

theorem feedWindowExit (feed voltage : Nat) : Statement (.feedWindowExit feed voltage) :=
  ⟨fun _ => Nat.le_of_ble_eq_true rfl, fun _ => rfl⟩

theorem insertionDelayElapsed (feed : Nat) : Statement (.insertionDelayElapsed feed) :=
  ⟨fun _ => Nat.le_of_ble_eq_true rfl, fun _ => rfl⟩

theorem rampComplete (channel : Nat) : Statement (.rampComplete channel) :=
  ⟨fun _ => Nat.le_of_ble_eq_true rfl, fun _ => rfl⟩

theorem qualificationDone (channel : Nat) (pgin : Bool) : Statement (.qualificationDone channel pgin) :=
  ⟨fun _ => Nat.le_of_ble_eq_true rfl, fun _ => rfl⟩

theorem currentOverLimit (channel current : Nat) : Statement (.currentOverLimit channel current) :=
  ⟨fun _ => Nat.le_of_ble_eq_true rfl, fun _ => rfl⟩

theorem currentBelowRecovery (channel current : Nat) : Statement (.currentBelowRecovery channel current) :=
  ⟨fun _ => Nat.le_of_ble_eq_true rfl, fun _ => rfl⟩

theorem faultTimerTrip (channel : Nat) : Statement (.faultTimerTrip channel) :=
  ⟨fun _ => Nat.le_of_ble_eq_true rfl, fun _ => rfl⟩

theorem fastTrip (channel : Nat) (withEnergy : Bool) : Statement (.fastTrip channel withEnergy) :=
  ⟨fun _ => Nat.le_of_ble_eq_true rfl, fun _ => rfl⟩

theorem energyBudgetTrip (channel : Nat) : Statement (.energyBudgetTrip channel) :=
  ⟨fun _ => Nat.le_of_ble_eq_true rfl, fun _ => rfl⟩

theorem rampTimeout (channel : Nat) : Statement (.rampTimeout channel) :=
  ⟨fun _ => Nat.le_of_ble_eq_true rfl, fun _ => rfl⟩

theorem coolDownElapsed (channel : Nat) : Statement (.coolDownElapsed channel) :=
  ⟨fun _ => Nat.le_of_ble_eq_true rfl, fun _ => rfl⟩

theorem attemptCountReset (channel : Nat) : Statement (.attemptCountReset channel) :=
  ⟨fun _ => Nat.le_of_ble_eq_true rfl, fun _ => rfl⟩

theorem reverseCurrent (feed : Nat) : Statement (.reverseCurrent feed) :=
  ⟨fun _ => Nat.le_of_ble_eq_true rfl, fun _ => rfl⟩

theorem reverseRecovery (feed : Nat) : Statement (.reverseRecovery feed) :=
  ⟨fun _ => Nat.le_of_ble_eq_true rfl, fun _ => rfl⟩

theorem feedBelow5v (feed : Nat) : Statement (.feedBelow5v feed) :=
  ⟨fun _ => Nat.le_of_ble_eq_true rfl, fun _ => rfl⟩

theorem thermalTrip (sensor : Nat) : Statement (.thermalTrip sensor) :=
  ⟨fun _ => Nat.le_of_ble_eq_true rfl, fun _ => rfl⟩

theorem temperatureReading (sensor : Nat) (celsius : Int) : Statement (.temperatureReading sensor celsius) :=
  ⟨fun _ => Nat.le_of_ble_eq_true rfl, fun _ => rfl⟩

theorem presenceDebounced (slot : Nat) : Statement (.presenceDebounced slot) :=
  ⟨fun _ => Nat.le_of_ble_eq_true rfl, fun _ => rfl⟩

theorem presenceLost (slot port : Nat) (linkDown : Bool) : Statement (.presenceLost slot port linkDown) :=
  ⟨fun _ => Nat.le_of_ble_eq_true rfl, fun _ => rfl⟩

theorem pginFall (slot : Nat) : Statement (.pginFall slot) :=
  ⟨fun _ => Nat.le_of_ble_eq_true rfl, fun _ => rfl⟩

theorem measurementWindowEnd (channel vPeak vMin iPeak iMin pMean energy : Nat) : Statement (.measurementWindowEnd channel vPeak vMin iPeak iMin pMean energy) :=
  ⟨fun _ => Nat.le_of_ble_eq_true rfl, fun _ => rfl⟩

theorem captureRecord (channel voltage current power cause : Nat) : Statement (.captureRecord channel voltage current power cause) :=
  ⟨fun _ => Nat.le_of_ble_eq_true rfl, fun _ => rfl⟩

theorem continuousCaptureEnd (channel : Nat) : Statement (.continuousCaptureEnd channel) :=
  ⟨fun _ => Nat.le_of_ble_eq_true rfl, fun _ => rfl⟩

theorem sleepIdleExpiry (domain : Nat) : Statement (.sleepIdleExpiry domain) :=
  ⟨fun _ => Nat.le_of_ble_eq_true rfl, fun _ => rfl⟩

theorem powerOffIdleExpiry (domain : Nat) : Statement (.powerOffIdleExpiry domain) :=
  ⟨fun _ => Nat.le_of_ble_eq_true rfl, fun _ => rfl⟩

theorem domainOffDone (domain : Nat) : Statement (.domainOffDone domain) :=
  ⟨fun _ => Nat.le_of_ble_eq_true rfl, fun _ => rfl⟩

theorem domainPacketArrival (domain : Nat) (p : Packet) : Statement (.domainPacketArrival domain p) :=
  ⟨fun _ => Nat.le_of_ble_eq_true rfl, fun _ => rfl⟩

theorem domainWakeDone (domain : Nat) : Statement (.domainWakeDone domain) :=
  ⟨fun _ => Nat.le_of_ble_eq_true rfl, fun _ => rfl⟩

theorem domainWakeTimeout (domain : Nat) : Statement (.domainWakeTimeout domain) :=
  ⟨fun _ => Nat.le_of_ble_eq_true rfl, fun _ => rfl⟩

theorem quietPeriodExpiry : Statement (.quietPeriodExpiry) :=
  ⟨fun _ => Nat.le_of_ble_eq_true rfl, fun _ => rfl⟩

theorem trendFire (kind unit : Nat) : Statement (.trendFire kind unit) :=
  ⟨fun _ => Nat.le_of_ble_eq_true rfl, fun _ => rfl⟩

theorem hbmUncorrectableError (address : Nat) (owner : Nat) (patrol : Bool) : Statement (.hbmUncorrectableError address owner patrol) :=
  ⟨fun _ => Nat.le_of_ble_eq_true rfl, fun _ => rfl⟩

theorem sramUncorrectableError (row : Nat) : Statement (.sramUncorrectableError row) :=
  ⟨fun _ => Nat.le_of_ble_eq_true rfl, fun _ => rfl⟩

theorem engineDuplicateFail (engine : Nat) : Statement (.engineDuplicateFail engine) :=
  ⟨fun _ => Nat.le_of_ble_eq_true rfl, fun _ => rfl⟩

theorem managementCoreWatchdog (core : Nat) : Statement (.managementCoreWatchdog core) :=
  ⟨fun _ => Nat.le_of_ble_eq_true rfl, fun _ => rfl⟩

theorem calPeriod : Statement (.calPeriod) :=
  ⟨fun _ => Nat.le_of_ble_eq_true rfl, fun _ => rfl⟩

theorem dumpInterval (stream : Nat) (freed : List Nat) : Statement (.dumpInterval stream freed) :=
  ⟨fun _ => Nat.le_of_ble_eq_true rfl, fun _ => rfl⟩

theorem dumpSlotWritten (stream : Nat) (freed : List Nat) : Statement (.dumpSlotWritten stream freed) :=
  ⟨fun _ => Nat.le_of_ble_eq_true rfl, fun _ => rfl⟩

theorem counterAccumulate : Statement (.counterAccumulate) :=
  ⟨fun _ => Nat.le_of_ble_eq_true rfl, fun _ => rfl⟩

theorem sampleCountdownZero (engine counter programCounter : Nat) : Statement (.sampleCountdownZero engine counter programCounter) :=
  ⟨fun _ => Nat.le_of_ble_eq_true rfl, fun _ => rfl⟩

theorem probeMatch (bridge source destination kind address length : Nat) (direction : Bool) : Statement (.probeMatch bridge source destination kind address length direction) :=
  ⟨fun _ => Nat.le_of_ble_eq_true rfl, fun _ => rfl⟩

theorem traceRecordTimeout (probe : Nat) : Statement (.traceRecordTimeout probe) :=
  ⟨fun _ => Nat.le_of_ble_eq_true rfl, fun _ => rfl⟩

theorem coldReset (insdly : Nat) (straps : MgmtStraps) (calibFailed baselines : List Nat) : Statement (.coldReset insdly straps calibFailed baselines) :=
  ⟨fun _ => Nat.le_of_ble_eq_true rfl, fun _ => rfl⟩

theorem vauxLoss : Statement (.vauxLoss) :=
  ⟨fun _ => Nat.le_of_ble_eq_true rfl, fun _ => rfl⟩

theorem warmReset (trigger : Nat) : Statement (.warmReset trigger) :=
  ⟨fun _ => Nat.le_of_ble_eq_true rfl, fun _ => rfl⟩

theorem managementComplexReset (trigger : Nat) : Statement (.managementComplexReset trigger) :=
  ⟨fun _ => Nat.le_of_ble_eq_true rfl, fun _ => rfl⟩

theorem imageCheckDone (slot : Nat) (ok : Bool) (version fwVersion : Nat) : Statement (.imageCheckDone slot ok version fwVersion) :=
  ⟨fun _ => Nat.le_of_ble_eq_true rfl, fun _ => rfl⟩

theorem bootReady : Statement (.bootReady) :=
  ⟨fun _ => Nat.le_of_ble_eq_true rfl, fun _ => rfl⟩

theorem centralSchedulerMatching (stagedFirst stagedNext : List Nat) : Statement (.centralSchedulerMatching stagedFirst stagedNext) :=
  ⟨fun _ => Nat.le_of_ble_eq_true rfl, fun _ => rfl⟩

theorem hostReadCompletion (tag : Nat) (values : List Nat) (error poison : Bool) : Statement (.hostReadCompletion tag values error poison) :=
  ⟨fun _ => Nat.le_of_ble_eq_true rfl, fun _ => rfl⟩

theorem hostCompletionTimeout (tag : Nat) : Statement (.hostCompletionTimeout tag) :=
  ⟨fun _ => Nat.le_of_ble_eq_true rfl, fun _ => rfl⟩

theorem directoryReadDone (handle lineIndex : Nat) (poison : Bool) : Statement (.directoryReadDone handle lineIndex poison) :=
  ⟨fun _ => Nat.le_of_ble_eq_true rfl, fun _ => rfl⟩

theorem vfEnableSet (link numVfs : Nat) : Statement (.vfEnableSet link numVfs) :=
  ⟨fun _ => Nat.le_of_ble_eq_true rfl, fun _ => rfl⟩

theorem busMasterEnableSet (inst : Nat) : Statement (.busMasterEnableSet inst) :=
  ⟨fun _ => Nat.le_of_ble_eq_true rfl, fun _ => rfl⟩

theorem perst0Deassertion : Statement (.perst0Deassertion) :=
  ⟨fun _ => Nat.le_of_ble_eq_true rfl, fun _ => rfl⟩

theorem vaux33Rise (insdly smbaddr ppssel flash : Nat) : Statement (.vaux33Rise insdly smbaddr ppssel flash) :=
  ⟨fun _ => Nat.le_of_ble_eq_true rfl, fun _ => rfl⟩

theorem meteringSlotWaitTimeout (inst : Nat) : Statement (.meteringSlotWaitTimeout inst) :=
  ⟨fun _ => Nat.le_of_ble_eq_true rfl, fun _ => rfl⟩

theorem ppsInputEdge : Statement (.ppsInputEdge) :=
  ⟨fun _ => Nat.le_of_ble_eq_true rfl, fun _ => rfl⟩

theorem ppsOutputSecond : Statement (.ppsOutputSecond) :=
  ⟨fun _ => Nat.le_of_ble_eq_true rfl, fun _ => rfl⟩

theorem mctpControlMessage (command : Nat) : Statement (.mctpControlMessage command) :=
  ⟨fun _ => Nat.le_of_ble_eq_true rfl, fun _ => rfl⟩

theorem jtagInstructionUpdate (instruction : Nat) : Statement (.jtagInstructionUpdate instruction) :=
  ⟨fun _ => Nat.le_of_ble_eq_true rfl, fun _ => rfl⟩

theorem viralReceived (port : Nat) : Statement (.viralReceived port) :=
  ⟨fun _ => Nat.le_of_ble_eq_true rfl, fun _ => rfl⟩

theorem pcieLinkTrained (port rate width : Nat) (cxlOffered flit256 : Bool) : Statement (.pcieLinkTrained port rate width cxlOffered flit256) :=
  ⟨fun _ => Nat.le_of_ble_eq_true rfl, fun _ => rfl⟩

theorem prbsCheckerLock (lane : Nat) : Statement (.prbsCheckerLock lane) :=
  ⟨fun _ => Nat.le_of_ble_eq_true rfl, fun _ => rfl⟩

theorem prbsLockLoss (lane : Nat) : Statement (.prbsLockLoss lane) :=
  ⟨fun _ => Nat.le_of_ble_eq_true rfl, fun _ => rfl⟩

theorem directoryBankFailure (bank : Nat) : Statement (.directoryBankFailure bank) :=
  ⟨fun _ => Nat.le_of_ble_eq_true rfl, fun _ => rfl⟩

theorem routeBankFailure (tile bank : Nat) : Statement (.routeBankFailure tile bank) :=
  ⟨fun _ => Nat.le_of_ble_eq_true rfl, fun _ => rfl⟩

theorem pseudoChannelFailure (channel : Nat) : Statement (.pseudoChannelFailure channel) :=
  ⟨fun _ => Nat.le_of_ble_eq_true rfl, fun _ => rfl⟩

theorem managementCoreFailure (core : Nat) : Statement (.managementCoreFailure core) :=
  ⟨fun _ => Nat.le_of_ble_eq_true rfl, fun _ => rfl⟩

theorem ageingMonitorFlag (kind unit : Nat) : Statement (.ageingMonitorFlag kind unit) :=
  ⟨fun _ => Nat.le_of_ble_eq_true rfl, fun _ => rfl⟩

theorem datapathError : Statement (.datapathError) :=
  ⟨fun _ => Nat.le_of_ble_eq_true rfl, fun _ => rfl⟩

theorem shroudBridgeTimeout (bridge : Nat) : Statement (.shroudBridgeTimeout bridge) :=
  ⟨fun _ => Nat.le_of_ble_eq_true rfl, fun _ => rfl⟩

theorem managementFirmwareFault (source : CmdSrc) (seq : Nat) : Statement (.managementFirmwareFault source seq) :=
  ⟨fun _ => Nat.le_of_ble_eq_true rfl, fun _ => rfl⟩

end Sys2Proof.Laws.ParamsFit
end

