-- ==== Sys2Proof/Laws/Tables.lean ====
section
/-!
SUPPORT. Sparse tables and the byte memory: reading after a change, and the canonical form that every change keeps.
-/
namespace Sys2Proof

/-! ### Look-up after a change -/

theorem Tbl.find_put {α : Type} (t : Tbl α) (k i : Nat) (a : α) : Tbl.find (Tbl.put t k a) i = if i = k then some a else Tbl.find t i := by
  induction t with
  | nil => simp only [Tbl.put, Tbl.find, eq_comm]
  | cons e t ih =>
    obtain ⟨j, b⟩ := e
    by_cases h : i = k
    · subst h
      by_cases h1 : i < j
      · simp [Tbl.put, Tbl.find, h1]
      · by_cases h2 : i = j
        · subst h2; simp [Tbl.put, Tbl.find]
        · simp [Tbl.put, Tbl.find, h1, h2, Ne.symm h2, ih]
    · by_cases h1 : k < j
      · simp [Tbl.put, Tbl.find, h1, h, Ne.symm h]
      · by_cases h2 : k = j
        · subst h2; simp [Tbl.put, Tbl.find, h, Ne.symm h]
        · simp only [Tbl.put, if_neg h1, if_neg h2, Tbl.find, ih, if_neg h]

theorem Tbl.find_del {α : Type} (t : Tbl α) (k i : Nat) : Tbl.find (Tbl.del t k) i = if i = k then none else Tbl.find t i := by
  induction t with
  | nil => simp [Tbl.del, Tbl.find]
  | cons e t ih =>
    obtain ⟨j, b⟩ := e
    by_cases h : i = k
    · subst h
      by_cases h2 : j = i
      · simp [Tbl.del, h2, ih]
      · simp [Tbl.del, Tbl.find, h2, ih]
    · by_cases h2 : j = k
      · subst h2; simp [Tbl.del, Tbl.find, ih, h, Ne.symm h]
      · simp only [Tbl.del, if_neg h2, Tbl.find, ih, if_neg h]

@[simp] theorem Tbl.find_put_self {α : Type} (t : Tbl α) (k : Nat) (a : α) : Tbl.find (Tbl.put t k a) k = some a := by
  simp [Tbl.find_put]

@[simp] theorem Tbl.get_put_self {α : Type} (t : Tbl α) (k : Nat) (a d : α) : Tbl.get (Tbl.put t k a) k d = a := by simp [Tbl.get]

theorem Tbl.get_put {α : Type} (t : Tbl α) (k i : Nat) (a d : α) : Tbl.get (Tbl.put t k a) i d = if i = k then a else Tbl.get t i d := by
  simp only [Tbl.get, Tbl.find_put]; split <;> rfl

@[simp] theorem Tbl.get_upd_self {α : Type} (t : Tbl α) (k : Nat) (d : α) (f : α → α) :
    Tbl.get (Tbl.upd t k d f) k d = f (Tbl.get t k d) := by simp [Tbl.upd]

theorem Tbl.get_upd {α : Type} (t : Tbl α) (k i : Nat) (d : α) (f : α → α) :
    Tbl.get (Tbl.upd t k d f) i d = if i = k then f (Tbl.get t k d) else Tbl.get t i d := by simp [Tbl.upd, Tbl.get_put]

@[simp] theorem Tbl.find_del_self {α : Type} (t : Tbl α) (k : Nat) : Tbl.find (Tbl.del t k) k = none := by simp [Tbl.find_del]

@[simp] theorem Tbl.get_del_self {α : Type} (t : Tbl α) (k : Nat) (d : α) : Tbl.get (Tbl.del t k) k d = d := by simp [Tbl.get]

theorem Tbl.get_del {α : Type} (t : Tbl α) (k i : Nat) (d : α) : Tbl.get (Tbl.del t k) i d = if i = k then d else Tbl.get t i d := by
  simp only [Tbl.get, Tbl.find_del]; split <;> rfl

@[simp] theorem Tbl.has_put_self {α : Type} (t : Tbl α) (k : Nat) (a : α) : Tbl.has (Tbl.put t k a) k = true := by simp [Tbl.has]

@[simp] theorem Tbl.has_upd_self {α : Type} (t : Tbl α) (k : Nat) (d : α) (f : α → α) : Tbl.has (Tbl.upd t k d f) k = true := by
  simp [Tbl.upd]

@[simp] theorem Tbl.has_del_self {α : Type} (t : Tbl α) (k : Nat) : Tbl.has (Tbl.del t k) k = false := by simp [Tbl.has]

/-! ### The canonical form -/

/-- Indexes rise strictly, as a property of all pairs. -/
theorem Tbl.wf_iff {α : Type} (t : Tbl α) : Tbl.wf t = true ↔ t.Pairwise fun a b => a.1 < b.1 := by
  induction t with
  | nil => simp [Tbl.wf]
  | cons e t ih =>
    cases t with
    | nil => simp [Tbl.wf]
    | cons e' t =>
      obtain ⟨j, a⟩ := e
      obtain ⟨k, b⟩ := e'
      simp only [Tbl.wf, Bool.and_eq_true, decide_eq_true_eq, ih, List.pairwise_cons]
      constructor
      · rintro ⟨h, h1, h2⟩
        refine ⟨?_, h1, h2⟩
        intro x hx
        rcases List.mem_cons.mp hx with rfl | hx
        · exact h
        · exact Nat.lt_trans h (h1 x hx)
      · rintro ⟨h, h1, h2⟩
        exact ⟨h (k, b) (by simp), h1, h2⟩

theorem Tbl.mem_put {α : Type} {t : Tbl α} {k : Nat} {a : α} {x : Nat × α} (h : x ∈ Tbl.put t k a) : x = (k, a) ∨ x ∈ t := by
  induction t with
  | nil => simp_all [Tbl.put]
  | cons e t ih =>
    obtain ⟨j, b⟩ := e
    simp only [Tbl.put] at h
    split at h
    · simp_all
    · split at h
      · simp_all; tauto
      · rcases List.mem_cons.mp h with h | h
        · simp [h]
        · rcases ih h with h | h <;> simp [h]

theorem Tbl.del_eq_filter {α : Type} (t : Tbl α) (k : Nat) : Tbl.del t k = t.filter fun e => decide (e.1 ≠ k) := by
  induction t with
  | nil => rfl
  | cons e t ih =>
    obtain ⟨j, b⟩ := e
    simp only [Tbl.del]
    split <;> simp_all

theorem Tbl.wf_put {α : Type} (t : Tbl α) (k : Nat) (a : α) (h : Tbl.wf t = true) : Tbl.wf (Tbl.put t k a) = true := by
  rw [Tbl.wf_iff] at *
  induction t with
  | nil => simp [Tbl.put]
  | cons e t ih =>
    obtain ⟨j, b⟩ := e
    have h' := List.pairwise_cons.mp h
    simp only [Tbl.put]
    split
    · refine List.pairwise_cons.mpr ⟨?_, h⟩
      intro x hx
      rcases List.mem_cons.mp hx with rfl | hx
      · assumption
      · exact Nat.lt_trans (by assumption) (h'.1 x hx)
    · split
      · subst_vars; exact List.pairwise_cons.mpr h'
      · refine List.pairwise_cons.mpr ⟨?_, ih h'.2⟩
        intro x hx
        rcases Tbl.mem_put hx with rfl | hx
        · show j < k; omega
        · exact h'.1 x hx

theorem Tbl.wf_filter {α : Type} (t : Tbl α) (p : Nat × α → Bool) (h : Tbl.wf t = true) : Tbl.wf (t.filter p) = true := by
  rw [Tbl.wf_iff] at *; exact h.filter p

theorem Tbl.wf_del {α : Type} (t : Tbl α) (k : Nat) (h : Tbl.wf t = true) : Tbl.wf (Tbl.del t k) = true := by
  rw [Tbl.del_eq_filter]; exact Tbl.wf_filter t _ h

end Sys2Proof

namespace Sys2Proof.Machine
open Sys2Proof

theorem wf_memPut (m : List Host.Cell) (a : Nat) (b : BitVec 8) (h : Memory.wf m = true) : Memory.wf (memPut m a b) = true := by
  simp only [Memory.wf, Bool.and_eq_true, List.all_eq_true] at *
  simp only [memPut]
  split
  · refine ⟨Tbl.wf_del m a h.1, ?_⟩
    rw [Tbl.del_eq_filter]
    intro x hx
    exact h.2 x (List.mem_filter.mp hx).1
  · refine ⟨Tbl.wf_put m a b h.1, ?_⟩
    intro x hx
    rcases Tbl.mem_put hx with rfl | hx
    · simpa using by assumption
    · exact h.2 x hx

/-- Every memory operation keeps the canonical form. -/
theorem wf_memWrite (m : List Host.Cell) (a : Nat) (bs : List Nat) (h : Memory.wf m = true) : Memory.wf (memWrite m a bs) = true := by
  induction bs generalizing m a with
  | nil => exact h
  | cons b bs ih => exact ih _ _ (wf_memPut m a _ h)

theorem wf_memZero (m : List Host.Cell) (a n : Nat) (h : Memory.wf m = true) : Memory.wf (memZero m a n) = true := by
  simp only [Memory.wf, Bool.and_eq_true, List.all_eq_true] at *
  refine ⟨Tbl.wf_filter m _ h.1, ?_⟩
  intro x hx
  exact h.2 x (List.mem_filter.mp hx).1

/-- A byte reads as it was written, and a write leaves every other byte alone. -/
theorem memByte_memPut (m : List Host.Cell) (a i : Nat) (b : BitVec 8) : memByte (memPut m a b) i = if i = a then b else memByte m i := by
  simp only [memByte, memPut]
  split
  · rw [Tbl.get_del]; split <;> simp_all
  · rw [Tbl.get_put]

theorem memByte_memWrite_outside (m : List Host.Cell) (a i : Nat) (bs : List Nat) (h : i < a ∨ a + bs.length ≤ i) :
    memByte (memWrite m a bs) i = memByte m i := by
  induction bs generalizing m a with
  | nil => rfl
  | cons b bs ih =>
    simp only [List.length_cons] at h
    rw [memWrite, ih _ _ (by omega), memByte_memPut, if_neg (by omega)]

theorem memRead_memPut_below (m : List Host.Cell) (a b n : Nat) (v : BitVec 8) (h : b < a) : memRead (memPut m b v) a n = memRead m a n := by
  induction n generalizing a with
  | zero => rfl
  | succ n ih => simp only [memRead, memByte_memPut, if_neg (Nat.ne_of_gt h), ih (a + 1) (by omega)]

theorem memRead_memWrite_below (m : List Host.Cell) (a b n : Nat) (bs : List Nat) (h : a + n ≤ b) :
    memRead (memWrite m b bs) a n = memRead m a n := by
  induction n generalizing a with
  | zero => rfl
  | succ n ih => simp only [memRead, memByte_memWrite_outside m b a bs (by omega), ih (a + 1) (by omega)]

/-- The bytes written read back, each as 8 bits. -/
theorem memRead_memWrite (m : List Host.Cell) (a : Nat) (bs : List Nat) :
    memRead (memWrite m a bs) a bs.length = bs.map (· % 256) := by
  induction bs generalizing m a with
  | nil => rfl
  | cons b bs ih =>
    simp only [memWrite, List.length_cons, memRead, List.map_cons, ih]
    rw [memByte_memWrite_outside _ _ _ _ (by omega), memByte_memPut, if_pos rfl]
    simp

theorem find_filter_key {α : Type} (t : Tbl α) (p : Nat → Bool) (i : Nat) :
    Tbl.find (t.filter fun e => p e.1) i = if p i then Tbl.find t i else none := by
  induction t with
  | nil => simp [Tbl.find]
  | cons e t ih =>
    obtain ⟨j, b⟩ := e
    by_cases hp : p j = true
    · simp only [List.filter_cons, hp, if_true, Tbl.find, ih]
      by_cases hj : j = i
      · subst hj; simp [hp]
      · simp [hj]
    · simp only [List.filter_cons, hp, Bool.false_eq_true, if_false, ih, Tbl.find]
      by_cases hj : j = i
      · subst hj; simp [hp]
      · simp [hj]

/-- Zeroed memory reads 0 inside, and as before outside. -/
theorem memByte_memZero (m : List Host.Cell) (a n i : Nat) :
    memByte (memZero m a n) i = if a ≤ i ∧ i < a + n then memDefault else memByte m i := by
  simp only [memByte, memZero, Tbl.get]
  rw [find_filter_key m (fun k => !(decide (a ≤ k) && decide (k < a + n))) i]
  by_cases h : a ≤ i ∧ i < a + n
  · simp [h]
  · have : (decide (a ≤ i) && decide (i < a + n)) = false := by simpa using h
    simp [h, this]

end Sys2Proof.Machine
end

