-- ==== Sys2Proof/Machine/Coding.lean ====
section
/-!
DEFINITION. The coding of a native port's lanes (R236 to R238): scrambler, codeword, forward error correction, and symbols. The
commands carry frames, control flits and lane messages whole (log 124); these definitions say which bits of the lanes spell them.
-/
namespace Sys2Proof.Machine

/-! ### Scrambler (R236) -/

/-- The scrambler's output for one payload bit, from the last 58 bits sent, newest first. -/
def scrambleBit (past : BitVec 58) (b : Bool) : Bool := (b != past.getLsbD 38) != past.getLsbD 57

/-- The last 58 bits after one more. -/
def pushBit (past : BitVec 58) (b : Bool) : BitVec 58 := (past <<< 1) ||| (if b then 1 else 0)

/-- Payload bits scrambled, with the register they leave: x^58 + x^39 + 1, self-synchronising, never reset. -/
def scramble (past : BitVec 58) : List Bool → List Bool × BitVec 58
  | [] => ([], past)
  | b :: t =>
    let o := scrambleBit past b
    let (r, p) := scramble (pushBit past o) t
    (o :: r, p)

/-- Received bits descrambled: the register holds the bits received. -/
def descramble (past : BitVec 58) : List Bool → List Bool × BitVec 58
  | [] => ([], past)
  | b :: t =>
    let (r, p) := descramble (pushBit past b) t
    (scrambleBit past b :: r, p)

/-! ### Codewords (R237) -/

/-- A block as it is sent: its sync header and its 64 payload bits. -/
abbrev CodedBlock := BitVec 2 × BitVec 64

/-- The 66 bits of a block in the order of R237. -/
def blockBits (b : CodedBlock) : List Bool := (List.range 2).map b.1.getLsbD ++ (List.range 64).map b.2.getLsbD

/-- The 528 data symbols of a codeword of 80 blocks: data bit i is bit i mod 10 of symbol i / 10. -/
def dataSymbols (blocks : List CodedBlock) : List (BitVec 10) :=
  let bits := blocks.flatMap blockBits
  (List.range 528).map fun j => (List.range 10).foldl (fun (v : BitVec 10) k =>
    if bits.getD (10 * j + k) false then v ||| (1#10 <<< k) else v) 0

/-- Multiplication by α in GF(2^10), with the field polynomial x^10 + x^3 + 1. -/
def gfTimesAlpha (a : BitVec 10) : BitVec 10 := if a.getLsbD 9 then (a <<< 1) ^^^ 9#10 else a <<< 1

/-- A product in GF(2^10). -/
def gfMul (a b : BitVec 10) : BitVec 10 :=
  ((List.range 10).foldl (fun (r : BitVec 10 × BitVec 10) k => (if b.getLsbD k then r.1 ^^^ r.2 else r.1, gfTimesAlpha r.2)) (0, a)).1

/-- A power of α. -/
def gfAlpha : Nat → BitVec 10
  | 0 => 1
  | n + 1 => gfTimesAlpha (gfAlpha n)

/-- The generator (x - α^0)(x - α^1) ... (x - α^15), highest power first. -/
def rsGenerator : List (BitVec 10) :=
  (List.range 16).foldl (fun g i => List.zipWith (· ^^^ ·) (g ++ [0]) (0 :: g.map (gfMul (gfAlpha i)))) [1]

/-- One more symbol through the division by the generator: the remainder of 16 symbols. -/
def rsStep (r : List (BitVec 10)) (d : BitVec 10) : List (BitVec 10) :=
  let f := d ^^^ r.headD 0
  List.zipWith (· ^^^ ·) (r.drop 1 ++ [0]) ((rsGenerator.drop 1).map (gfMul f))

/-- The 16 parity symbols of data symbols: RS(544,528). -/
def rsParity (data : List (BitVec 10)) : List (BitVec 10) := data.foldl rsStep (List.replicate 16 0)

/-- A codeword: symbols 0 to 527 data, 528 to 543 parity. -/
def codewordOf (blocks : List CodedBlock) : List (BitVec 10) :=
  let data := dataSymbols blocks
  data ++ rsParity data

/-- The 16 syndromes of a received codeword: all 0 for a codeword without an error. -/
def syndromes (word : List (BitVec 10)) : List (BitVec 10) :=
  (List.range 16).map fun i => word.foldl (fun s d => gfMul s (gfAlpha i) ^^^ d) 0

/-! ### Symbols on the lanes (R238) -/

/-- The symbols of a codeword that a logical lane carries, at a width of `w` lanes: symbol j goes on lane j mod w. -/
def laneSymbols (word : List (BitVec 10)) (w lane : Nat) : List (BitVec 10) :=
  (word.zipIdx.filter fun e => e.2 % w == lane).map (·.1)

/-- The PAM4 level of a pair of bits, Gray-coded. -/
def grayLevel (b0 b1 : Bool) : Nat :=
  match b1, b0 with
  | false, false => 0
  | false, true => 1
  | true, true => 2
  | true, false => 3

/-- Levels precoded by 1/(1 + D) modulo 4, from the last level sent. -/
def precode (last : Nat) : List Nat → List Nat
  | [] => []
  | v :: t =>
    let o := (v + 4 - last % 4) % 4
    o :: precode o t

/-- Received levels with the precoding undone. -/
def unprecode (last : Nat) : List Nat → List Nat
  | [] => []
  | v :: t => (v + last) % 4 :: unprecode v t

end Sys2Proof.Machine
end

