-- ==== Sys2Proof/Machine/Package.lean ====
section
/-!
DEFINITION. Where the signals stand on the package (R575 to R580): constants, which no command changes.
-/
namespace Sys2Proof.Machine

/-- The 19 row letters, in order (R575). -/
def rowLetters : List String :=
  ["A", "B", "C", "D", "E", "F", "G", "H", "J", "K", "L", "M", "N", "P", "T", "U", "V", "W", "Y"]

/-- The name of a row index from 1 to 68 (R575). -/
def rowName (r : Nat) : String :=
  let k := r - 1
  (match k / 19 with
    | 0 => ""
    | 1 => "A"
    | 2 => "B"
    | _ => "C") ++ rowLetters.getD (k % 19) ""

/-- A ball, by row index and column, and its name. -/
structure Ball where
  row : Nat
  col : Nat
deriving DecidableEq, Repr

def Ball.name (b : Ball) : String := rowName b.row ++ toString b.col

/-- The corner positions without a ball (R576). -/
def noBall (b : Ball) : Bool := (b.row ≤ 2 || 67 ≤ b.row) && (b.col ≤ 2 || 67 ≤ b.col)

/-- The balls of a physical lane: LTX_P, LTX_N, LRX_P, LRX_N (R578). -/
def laneBalls (l : Nat) : List Ball :=
  let p := l / 9
  let t := p / 8
  let j := p % 8
  let k := l % 9
  let col := (if t % 2 = 0 then 5 else 38) + 3 * k
  let tx := if t < 2 then 4 * j + 1 else 68 - 4 * j
  let rx := if t < 2 then 4 * j + 3 else 66 - 4 * j
  [⟨tx, col⟩, ⟨tx, col + 1⟩, ⟨rx, col⟩, ⟨rx, col + 1⟩]

/-- The balls of a slot: GATE, SNSP, SNSN, VOUT, PRSNT_N, PERST_N (R580). -/
def slotBalls (s : Nat) : List Ball :=
  let u := s % 16
  let col := if s < 16 then 1 else 66
  [⟨5 + 2 * u, col⟩, ⟨5 + 2 * u, col + 1⟩, ⟨5 + 2 * u, col + 2⟩, ⟨6 + 2 * u, col⟩, ⟨6 + 2 * u, col + 1⟩, ⟨6 + 2 * u, col + 2⟩]

/-- Row indices of the sideband rows AP, AT and AU. -/
abbrev rowAP : Nat := 33
abbrev rowAT : Nat := 34
abbrev rowAU : Nat := 35

/-- GPIO n, which shares its ball with the auxiliary power-good input of slot n (R577, R582). -/
def gpioBall (n : Nat) : Ball := ⟨rowAP, 5 + n⟩

/-- PERSTk_N of the host link on port pair k (R577). -/
def perstBall (k : Nat) : Ball := ⟨rowAT, 21 + k⟩

/-- The 12 V bus and the auxiliary supply (R577). -/
def isVin12 (b : Ball) : Bool := 33 ≤ b.col && b.col ≤ 36 && ((5 ≤ b.row && b.row ≤ 32) || (37 ≤ b.row && b.row ≤ 64))
def isVaux33 (b : Ball) : Bool := b.row = rowAU && 21 ≤ b.col && b.col ≤ 28

/-- The sideband, clock, feed and thermal signals with their balls (R579). -/
def sideband : List (String × Ball) :=
  let put := fun (row col : Nat) (l : List String) => l.zipIdx.map fun e => (e.1, (⟨row, col + e.2⟩ : Ball))
  let tiles := fun (name : String) => (List.range 4).flatMap fun t => [name ++ toString t ++ "_P", name ++ toString t ++ "_N"]
  put rowAP 37 ["FEED0_GATE", "FEED0_SRC", "FEED0_SNSP", "FEED0_SNSN", "FEED0_VIN", "FEED1_GATE", "FEED1_SRC", "FEED1_SNSP",
    "FEED1_SNSN", "FEED1_VIN"] ++
  put rowAP 47 ((List.range 6).flatMap fun d => ["THERM" ++ toString d ++ "_DP", "THERM" ++ toString d ++ "_DN"]) ++
  put rowAT 5 (tiles "NREFCLK") ++ put rowAT 13 (tiles "PREFCLK") ++
  put rowAT 37 ["SPI_CLK", "SPI_CS_N", "SPI_IO0", "SPI_IO1", "SPI_IO2", "SPI_IO3", "SMB_SCL", "SMB_SDA", "SMB_ALERT_N", "TCK", "TMS", "TDI",
    "TDO", "TRST_N", "XTAL_IN", "XTAL_OUT", "PPS_IN", "PPS_OUT_TRCLK"] ++
  put rowAT 55 ((List.range 8).map fun k => "TRACE_D" ++ toString k) ++ put rowAT 63 ["FAULT_N", "THERMTRIP_N"] ++
  put rowAU 5 ["STRAP_INSDLY0", "STRAP_INSDLY1", "STRAP_SMBADDR0", "STRAP_SMBADDR1", "STRAP_SMBADDR2", "STRAP_PPSSEL", "STRAP_FLASH",
    "TEST_EN"]

end Sys2Proof.Machine
end

