-- ==== Sys2Proof/Tests/Slice0.lean ====
section
/-! SUPPORT. Tests: an ill-formed term for each check of WellFormed, figures and worked examples of the specification, descriptors written
out from R442 and R443, and for every statement that has hypotheses a state and operands that meet them. -/

namespace Sys2Proof.Tests

open Sys2Proof Sys2Proof.Machine

set_option Elab.async false

/-- A header from host queue 0, with a data buffer. -/
def hR : HlyHdr := { src := .host 0, dataLength := 8192 }
/-- A device that runs: firmware running, host queue 0 enabled with one command in its ring, a device ID valid. -/
def sR : State := { State.reset with hly := { fwState := .running, queues := [(0, { enable := true, cmdProducer := 1 })] }, rte := { valid := true } }
/-- A 16-byte frame head with its check (R200). -/
def tHead (body : Nat) : BitVec 128 := BitVec.ofNat 128 (body + 2 ^ 112 * (crc16 body 112 0xFFFF).toNat)
/-- A control flit with its check. -/
def tFlit (body : Nat) : BitVec 512 := BitVec.ofNat 512 (body + 2 ^ 496 * (crc16 body 496 0xFFFF).toNat)
/-- A training sequence with its check. -/
def tSeq (body : Nat) : BitVec 128 := BitVec.ofNat 128 (body + 2 ^ 120 * (crc8 body 120 0).toNat)

/-- Bare poles, where only the board channel may command. -/
def sB : State := { State.reset with pwr := { State.reset.pwr with mode := .barePoles }, hly := { State.reset.hly with fwState := .running, boardReq := some (0x0101, 0) } }

/-! ### Ill-formed commands are refused -/

/-- A header's field does not fit: seq has 16 bits (R442). -/
theorem test_wf_seq : (Instr.nop { hR with seq := 65536 }).wf = false := by decide +kernel

/-- A host queue has a number below 8 (R438). -/
theorem test_wf_source : (Instr.nop { hR with src := .host 8 }).wf = false := by decide +kernel

/-- A parameter does not fit: a port has 5 bits (R443). -/
theorem test_wf_params : (Instr.linkQuery hR 32).wf = false := by decide +kernel

/-- An operand of an event does not fit its field. -/
theorem test_wf_operands : (Instr.managementCoreFailure 8).wf = false := by decide +kernel

/-- A list does not fill its slots: LINK_SET has seven shares (R231). -/
theorem test_wf_slots : (Instr.linkSet hR 0 0 4 4 4 [1, 2, 3]).wf = false := by decide +kernel

/-- A contract's device list has at most eight devices (R48). -/
theorem test_wf_dest : ContractP.slotsOk { contractId := 0, inst := 44, sl := 2, aware := false, destType := 3, dest := [1, 2, 3, 4, 5, 6, 7, 8, 9], committed := 1, peak := 1, burst := 64, maxPacket := 64, bound := 1, replayAllowance := false, lateThreshold := 0, egressPorts := 1, reefedSafe := false, remoteBudget := 0, hostStore := false } = false := by
  decide +kernel

/-- And a well-formed one is accepted. -/
theorem test_wf_ok : (Instr.linkSet hR 31 63 256 255 1000 [66, 66, 66, 66, 66, 66, 66]).wf = true := by decide +kernel

/-! ### Descriptors written out (R442, R443, R455) -/

/-- ID_ASSIGN of step 2 of the worked example of Halyard: code in bits 15 to 0, seq 5 from bit 32, device_id 0x0A43 from bit 160. -/
theorem test_descriptor_idAssign :
    readDescriptor { src := .host 0 } (0x040D + 5 * 2 ^ 32 + 0x0A43 * 2 ^ 160) = some (.idAssign { src := .host 0, seq := 5 } 0x0A43 false) := by
  decide +kernel

/-- CONTEXT_PIN of step 11: peer from bit 160, instance from 176, class at 186, half at 187, pin at 188. -/
theorem test_descriptor_contextPin :
    readDescriptor { src := .host 0 } (0x0303 + 2 ^ 17 + 0x0A51 * 2 ^ 48 + 0x0A43 * 2 ^ 160 + 44 * 2 ^ 176 + 2 ^ 187 + 2 ^ 188) =
      some (.contextPin { src := .host 0, remote := true, target := 0x0A51 } 0x0A43 44 0 1 true) := by
  decide +kernel

/-- A code that the tables do not give is reserved. -/
theorem test_descriptor_reserved : readDescriptor { src := .host 0 } 0x0005 = none := by decide +kernel

/-! ### Figures and worked examples of the specification -/

/-- The largest data packet takes 17 cells. -/
theorem test_cells : cellsOf 4160 = 17 := by decide +kernel

/-- The contract of the worked example of Halyard: its source's hop budget is 2,645 ns. -/
theorem test_hop_budget :
    (({ sR with ftu := { sR.ftu with ports := [(9, { delays := List.replicate 16 384 })] } }.upPort 9 fun x => { x with mode := 1, lastTrained := some (4, 3) }).contractBudget
      { contractId := 0, inst := 44, sl := 2, aware := false, destType := 0, dest := [0x0A51], committed := 100000, peak := 200000, burst := 16384, maxPacket := 4160, bound := 4000, replayAllowance := true, lateThreshold := 16, egressPorts := 2 ^ 9, reefedSafe := false, remoteBudget := 190, hostStore := false }) = 2645 := by
  decide +kernel

/-- The sled with thin reserves: 236 accounts of 34 cells and a contract pool of 393,216 leave 647,336 cells shared. -/
theorem test_shared_pool :
    (sR.upObf fun b => { b with poolSize := 393216, accounts := (List.range 236).map fun a => (a, { minReserve := 34 }) }).sharedSize = 647336 := by
  decide +kernel

/-- The four fp32 members: in order A the sum of 1.0, −16,777,216.0 and the partial of 0x0A43 is 2.0. -/
theorem test_fp32_order_a :
    finalValue 6 0 (combineElem 6 0 (combineElem 6 0 (toElem 6 0 0x3F800000) (toElem 6 0 0xCB800000))
      (combineElem 6 0 (toElem 6 0 0x4B800000) (toElem 6 0 0x3F800000))) = 0x40000000 := by
  decide +kernel

/-- The same members in order B. -/
theorem test_fp32_order_b :
    finalValue 6 0 (combineElem 6 0 (combineElem 6 0 (combineElem 6 0 (toElem 6 0 0x4B800000) (toElem 6 0 0x3F800000)) (toElem 6 0 0x3F800000))
      (toElem 6 0 0xCB800000)) = 0x40000000 := by
  decide +kernel

/-- 16,777,217 rounds to 16,777,216, ties to even. -/
theorem test_fp32_ties : roundValue 6 (2 ^ 173 + 2 ^ 149) = 0x4B800000 := by decide +kernel

/-- Two sources of equal priority: both go to core 1, whose claim takes the lower number; the other then goes to core 2. -/
theorem test_icu_routing :
    let s : State := { sR with icu := { sR.icu with sources := [(64, { priority := 64, mask := 15, latch := true }), (65, { priority := 64, mask := 15, latch := true })], cores := [(0, { threshold := 40 }), (1, { threshold := 10 }), (2, { threshold := 10 }), (3, { threshold := 200 })] } }
    let t : State := s.upIcu fun c => { c with sources := c.sources.upd 64 {} fun x => { x with claimed := some 1, latch := false }, cores := c.cores.upd 1 {} fun k => { k with claims := [64] } }
    s.routeSrc 64 = some 1 ∧ s.routeSrc 65 = some 1 ∧ s.claimable 1 = some 64 ∧ t.routeSrc 65 = some 2 := by
  decide +kernel

/-- The worked example of R578: lane 174 sits on BW14, BW15, BU14 and BU15. -/
theorem test_ball_map : (laneBalls 174).map (fun b => (b.row, b.col)) = [(56, 14), (56, 15), (54, 14), (54, 15)] ∧ rowName 56 = "BW" ∧ rowName 54 = "BU" := by
  decide +kernel

/-- Parity symbols make every syndrome 0, and a flipped bit shows (R237); a codeword that begins with zeros has the same parity. -/
theorem test_codeword :
    let w := [5, 1000, 3] ++ rsParity [5, 1000, 3]
    (syndromes w).all (fun x => x == 0) = true ∧ (syndromes (w.modify 1 (fun x => x ^^^ 1))).all (fun x => x == 0) = false := by
  decide +kernel

/-- Reset values of the register tables: PRT_MODE[0] and [2], LNK_STATE[0], TRN_CFG (R233, R234, R269). -/
theorem test_register_resets :
    (State.reset.port 0).modeReg = 0x16E2 ∧ (State.reset.port 2).modeReg = 0x1118 ∧ (State.reset.port 0).statusReg = 0x7F8 ∧
      State.reset.lneStatus 10 = 0x81 := by
  decide +kernel

/-! ### A state and operands that meet the hypotheses of each statement, clause by clause -/

theorem witness_GeneralCommandsComplete :
(∃ (s : State) (h : HlyHdr), s.runs h 0x0001 0 0 [] = true) ∧
(∃ (s : State) (h : HlyHdr), s.runs h 0x0002 0 64 [] = true) ∧
(∃ (s : State) (h : HlyHdr) (cm count timeout retries hold : Nat), s.runs h 0x0003 0 0 [] = true ∧ count ≤ 4 ∧ 1 ≤ timeout ∧ timeout ≤ 1000 ∧ 1 ≤
    retries ∧ retries ≤ 15 ∧ 1 ≤ hold ∧ hold ≤ 100 ∧ timeout * (retries + 1) < 1000 * hold ∧ (∀ i, i < 6 → cmBit cm i = true)) ∧
(∃ (s : State) (h : HlyHdr) (link cm releaseTimeout : Nat), s.runs h 0x0004 0 0 [.port link] = true ∧ s.namesHostLink link = true ∧ link ≤ 31 ∧ cmBit
    cm 0 = false ∧ releaseTimeout ≤ 60) ∧
(∃ (s : State) (h : HlyHdr) (cm parentPort syncPeriod : Nat), s.runs h 0x0509 0 0 [] = true ∧ cmBit cm 0 = false ∧ 1 ≤ syncPeriod ∧ syncPeriod ≤ 1000
    ∧ parentPort ≤ 31 ∧ s.isNative parentPort = true ∧ s.ftu.grandmaster = true) :=
  ⟨⟨sR, hR, by decide +kernel⟩,
    ⟨sR, hR, by decide +kernel⟩,
    ⟨sR, hR, 63, 2, 20, 8, 100, by decide +kernel⟩,
    ⟨sR, hR, 0, 0, 60, by decide +kernel⟩,
    ⟨(sR.upFtu fun x => { x with grandmaster := true }).upPort 31 fun x => { x with mode := 1 }, hR, 62, 31, 1000, by decide +kernel⟩⟩

theorem witness_PowerCommandsComplete :
(∃ (s : State) (h : HlyHdr) (reefForm : Nat), s.runs h 0x0101 0 0 [] = true ∧ reefForm ≤ 1 ∧ s.pwr.change = none ∧ (s.pwr.mode = .fullSail ∨
    s.pwr.mode = .reefed)) ∧
(∃ (s : State) (h : HlyHdr) (feed cm : Nat) (set : ChanSet) (rearm : Bool) (windowMs wakeGpio sleepIdle powerOffIdle : Nat), s.runs h 0x0102 0 0
    [.chan feed] = true ∧ feed ≤ 1 ∧ chanSetBad feed (mergeSet cm 0 set (s.chanSet feed)) = false ∧ (cmBit cm 7 = true → rearm = true → (s.chan
    feed).state = .latchedOff ∧ s.pwr.thermTrip = false) ∧ 1 ≤ windowMs ∧ windowMs ≤ 1000 ∧ (wakeGpio ≤ 31 ∨ wakeGpio = 63) ∧ sleepIdle ≤ 1000 ∧
    powerOffIdle ≤ 10000) ∧
(∃ (s : State) (h : HlyHdr) (channel : Nat), s.runs h 0x0103 0 68 [] = true ∧ channel ≤ 33 ∧ (s.chanImage channel).length ≤ h.dataLength) ∧
(∃ (s : State) (h : HlyHdr) (action mask channel : Nat), action ≤ 1 ∧ mask < 2 ^ 34 ∧ channel ≤ 33 ∧ s.runs h 0x0104 0 0 [] = true ∧ mask = 2 ^
    channel) ∧
(∃ (s : State) (h : HlyHdr) (channel first count : Nat), channel ≤ 33 ∧ 1 ≤ count ∧ first + count ≤ 4096 ∧ s.runs h 0x0104 0 (8 * count) [] = true) ∧
(∃ (s : State) (h : HlyHdr) (slot cm : Nat) (enable : Bool) (set : ChanSet), s.runs h 0x0105 0 0 [.slot slot] = true ∧ slot ≤ 31 ∧ chanSetBad (slot +
    2) (mergeSet cm 3 set (s.chanSet (slot + 2))) = false ∧ (s.chan (slot + 2)).enabled = true ∧ cmBit cm 0 = true ∧ enable = true ∧ (s.chan (slot +
    2)).present = false) ∧
(∃ (s : State) (h : HlyHdr) (slot cm : Nat) (enable : Bool) (set : ChanSet), s.runs h 0x0105 0 0 [.slot slot] = true ∧ slot ≤ 31 ∧ chanSetBad (slot +
    2) (mergeSet cm 3 set (s.chanSet (slot + 2))) = false ∧ s.slotInUse slot = false ∧ cmBit cm 0 = true ∧ enable = false) ∧
(∃ (s : State) (h : HlyHdr) (slot : Nat), s.runs h 0x0106 0 0 [.slot slot] = true ∧ slot ≤ 31 ∧ (s.chan (slot + 2)).enabled = true ∧ (s.chan (slot +
    2)).state = .off ∨ (s.chan (slot + 2)).state = .latchedOff ∧ (s.downOf (s.leadPort slot)).held = false) ∧
(∃ (s : State) (h : HlyHdr) (slot : Nat), s.runs h 0x0106 0 0 [.slot slot] = true ∧ slot ≤ 31 ∧ (s.chan (slot + 2)).enabled = true ∧ (s.chan (slot +
    2)).state = .on ∨ (s.chan (slot + 2)).state = .ramping ∧ s.slotInUse slot = false) ∧
(∃ (s : State) (h : HlyHdr) (slot : Nat), s.runs h 0x0107 0 76 [] = true ∧ slot ≤ 31 ∧ (s.chanImage (slot + 2)).length + 8 ≤ h.dataLength) :=
  ⟨⟨sR, hR, 1, by decide +kernel⟩,
    ⟨sR.upChan 1 fun x => { x with state := .latchedOff }, hR, 1, 4095, sR.chanSet 1, true, 1000, 63, 1000, 10000, by decide +kernel⟩,
    ⟨sR, hR, 33, by decide +kernel⟩,
    ⟨sR, hR, 0, 2 ^ 33, 33, by decide +kernel⟩,
    ⟨sR, hR, 33, 4092, 4, by decide +kernel⟩,
    ⟨sR.upChan 33 fun x => { x with enabled := true }, hR, 31, 1023, true, sR.chanSet 33, by decide +kernel⟩,
    ⟨sR.upChan 33 fun x => { x with enabled := true }, hR, 31, 1023, false, sR.chanSet 33, by decide +kernel⟩,
    ⟨sR.upChan 33 fun x => { x with enabled := true }, hR, 31, by decide +kernel⟩,
    ⟨sR.upChan 33 fun x => { x with enabled := true, state := .on }, hR, 31, by decide +kernel⟩,
    ⟨sR, hR, 31, by decide +kernel⟩⟩

theorem witness_ChannelEventsTakeEffect :
(∃ (feed : Nat), feed ≤ 1) ∧
(∃ (s : State) (feed voltage : Nat), feed ≤ 1 ∧ (voltage < 10200 ∨ 13800 < voltage) ∧ (s.chan feed).inWindow = true ∧ s.awake = true ∧ s.pwr.mode ≠
    .barePoles) ∧
(∃ (s : State) (feed : Nat), feed ≤ 1 ∧ (s.chan feed).state = .insertion) ∧
(∃ (s : State) (feed : Nat), feed ≤ 1 ∧ (s.chan feed).state = .on) ∧
(∃ (s : State) (feed : Nat), feed ≤ 1 ∧ s.pwr.thermTrip = false) ∧
(∃ (s : State) (c : Nat), c ≤ 33 ∧ (s.chan c).state = .ramping) ∧
(∃ (s : State) (c : Nat) (pgin : Bool), c ≤ 33 ∧ (s.chan c).state = .qualifying ∧ (s.chan c).timer = false ∧ (c < 2 ∨ (s.chan c).pginUse = false ∨
    pgin = true)) ∧
(∃ (s : State) (c : Nat), c ≤ 33 ∧ (s.chan c).state = .qualifying ∧ (s.chan c).timer = true) ∧
(∃ (s : State) (c current : Nat), c ≤ 33 ∧ (s.chan c).state = .ramping ∨ (s.chan c).state = .qualifying ∨ (s.chan c).state = .on ∧ limitMa c
    (s.chanSet c).limit < current) ∧
(∃ (s : State) (c current : Nat), c ≤ 33 ∧ 100 * current < 95 * limitMa c (s.chanSet c).limit) ∧
(∃ (s : State) (c : Nat), c ≤ 33 ∧ (s.chan c).state = .coolDown) ∧
(∃ (s : State) (c : Nat), c ≤ 33 ∧ (s.chan c).state = .on) ∧
(∃ (s : State) (c : Nat), c ≤ 1 ∧ s.awake = true ∧ (s.chan c).state = .on ∧ (s.chan c).timer = true) ∧
(∃ (s : State) (c : Nat), c ≤ 1 ∧ s.awake = true ∧ (s.chan c).state = .on ∧ (s.chan c).reverseOff = false) ∧
(∃ (s : State) (c : Nat), c ≤ 1 ∧ s.awake = true ∧ (s.chan c).state = .ramping ∧ (s.chan c).reverseOff = false ∧ (s.chan c).timer = false) :=
  ⟨⟨1, by decide +kernel⟩,
    ⟨sR.upChan 1 fun x => { x with inWindow := true, state := .on }, 1, 13801, by decide +kernel⟩,
    ⟨sR.upChan 1 fun x => { x with state := .insertion }, 1, by decide +kernel⟩,
    ⟨sR.upChan 0 fun x => { x with state := .on }, 0, by decide +kernel⟩,
    ⟨sR.upChan 0 fun x => { x with state := .latchedOff }, 0, by decide +kernel⟩,
    ⟨sR.upChan 33 fun x => { x with state := .ramping }, 33, by decide +kernel⟩,
    ⟨sR.upChan 33 fun x => { x with state := .qualifying }, 33, true, by decide +kernel⟩,
    ⟨sR.upChan 33 fun x => { x with state := .qualifying, timer := true }, 33, by decide +kernel⟩,
    ⟨sR.upChan 33 fun x => { x with state := .on }, 33, 100000, by decide +kernel⟩,
    ⟨sR.upChan 33 fun x => { x with state := .on, timer := true }, 33, 0, by decide +kernel⟩,
    ⟨sR.upChan 33 fun x => { x with state := .coolDown }, 33, by decide +kernel⟩,
    ⟨sR.upChan 33 fun x => { x with state := .on, attempts := 3 }, 33, by decide +kernel⟩,
    ⟨(sR.upChan 1 fun x => { x with state := .on, timer := true }), 1, by decide +kernel⟩,
    ⟨(sR.upChan 1 fun x => { x with state := .on }), 1, by decide +kernel⟩,
    ⟨(sR.upChan 1 fun x => { x with state := .ramping }), 1, by decide +kernel⟩⟩

theorem witness_SlotAndDomainEventsTakeEffect :
(∃ (s : State) (slot : Nat), slot ≤ 31 ∧ (s.chan (slot + 2)).enabled = true ∧ s.awake = true) ∧
(∃ (s : State) (slot port : Nat), slot ≤ 31 ∧ (s.chan (slot + 2)).enabled = true ∧ s.awake = true ∧ s.isDownstream (s.leadPort port) = false) ∧
(∃ (s : State) (slot : Nat), slot ≤ 31 ∧ (s.chan (slot + 2)).enabled = true) ∧
(∃ (c : Nat), c ≤ 33) ∧
(∃ (s : State) (c : Nat), c ≤ 33 ∧ (s.chan c).capture.any = true) ∧
(∃ (s : State) (c : Nat), c ≤ 33 ∧ (s.chan c).state = .on ∨ (s.chan c).state = .latchedOff) ∧
(∃ (s : State) (d : Nat), d ≤ 15 ∧ (s.domain d).state = .on ∧ s.pwr.sleepIdle ≠ 0 ∧ s.pinned = false) ∧
(∃ (s : State) (d : Nat), d ≤ 15 ∧ (s.domain d).state = .on ∨ (s.domain d).state = .sleep ∧ (s.domain d).waking = false ∧ s.pwr.powerOffIdle ≠ 0 ∧
    s.pinned = false ∧ s.domainIdle d = true) ∧
(∃ (s : State) (d : Nat), (s.domain d).state = .committed) ∧
(∃ (s : State) (d : Nat), d ≤ 15 ∧ (s.domain d).state = .sleep ∨ (s.domain d).state = .off) ∧
(∃ (s : State) (d : Nat), d ≤ 15 ∧ (s.domain d).state = .on) ∧
(∃ (s : State) (d : Nat), (s.domain d).waking = true ∧ s.hly.progress = []) ∧
(∃ (s : State) (d : Nat), (s.domain d).waking = true ∧ s.pwr.mode ≠ .barePoles) ∧
(∃ (s : State) (c : ModeChange), s.pwr.change = some c ∧ c.target = .stormJib ∧ c.draining = true ∧ s.greenHeld = false ∧ s.resetting = false ∧
    s.flt.swaps = [] ∧ s.upPorts = []) ∧
(∃ (s : State), s.pwr.change = none ∧ s.pwr.mode = .stormJib ∧ s.upPorts = []) ∧
(∃ (s : State) (c : ModeChange) (g : Prog), s.pwr.change = some c ∧ c.target = .barePoles ∧ s.hly.progress = [g] ∧ g.wait ≠ .modeChange) ∧
(∃ (s : State), s.pwr.wakeGpio ≤ 31 ∧ s.wakeBlocked = false ∧ s.pwr.change = none ∧ s.pwr.mode = .stormJib ∧ s.upPorts = []) :=
  ⟨⟨sR.upChan 33 fun x => { x with enabled := true }, 31, by decide +kernel⟩,
    ⟨sR.upChan 33 fun x => { x with enabled := true, present := true }, 31, 31, by decide +kernel⟩,
    ⟨sR.upChan 33 fun x => { x with enabled := true, pgin := true }, 31, by decide +kernel⟩,
    ⟨33, by decide +kernel⟩,
    ⟨sR.upChan 33 fun x => { x with capture := { test := true } }, 33, by decide +kernel⟩,
    ⟨sR.upChan 33 fun x => { x with state := .on, capture := { startUp := true } }, 33, by decide +kernel⟩,
    ⟨sR, 15, by decide +kernel⟩,
    ⟨sR.upPwr fun x => { x with powerOffIdle := 5 }, 15, by decide +kernel⟩,
    ⟨sR.upDomain 15 fun x => { x with state := .committed }, 15, by decide +kernel⟩,
    ⟨sR.upDomain 15 fun x => { x with state := .sleep }, 15, by decide +kernel⟩,
    ⟨sR, 15, by decide +kernel⟩,
    ⟨sR.upDomain 15 fun x => { x with state := .sleep, waking := true }, 15, by decide +kernel⟩,
    ⟨sR.upDomain 15 fun x => { x with state := .sleep, waking := true }, 15, by decide +kernel⟩,
    ⟨{ sR with pwr := { change := some { target := .stormJib, reefForm := 0, force := false, draining := true } } },
      { target := .stormJib, reefForm := 0, force := false, draining := true }, by decide +kernel⟩,
    ⟨sR.upPwr fun x => { x with mode := .stormJib }, by decide +kernel⟩,
    ⟨{ sR with pwr := { change := some { target := .barePoles, reefForm := 0, force := true, draining := true } } }.upHly fun x => { x with progress := [{ src := .host 0, seq := 5, code := 0x0B03, interrupt := false, objs := [], wait := .hopRelease 3 }] },
      { target := .barePoles, reefForm := 0, force := true, draining := true },
      { src := .host 0, seq := 5, code := 0x0B03, interrupt := false, objs := [], wait := .hopRelease 3 }, by decide +kernel⟩,
    ⟨sR.upPwr fun x => { x with mode := .stormJib, wakeGpio := 31 }, by decide +kernel⟩⟩

theorem witness_PortCommandsComplete :
(∃ (s : State) (h : HlyHdr) (port width maxRate : Nat), s.runs h 0x0201 0 0 [.port port] = true ∧ 2 ≤ port ∧ port ≤ 31 ∧ width ≤ 3 ∧ maxRate ≤ 4 ∧
    (s.port port).mode = 0) ∧
(∃ (s : State) (h : HlyHdr) (port mode maxRate : Nat), s.runs h 0x0201 0 0 [.port port] = true ∧ 2 ≤ port ∧ port ≤ 31 ∧ 2 ≤ mode ∧ mode ≤ 5 ∧ 5 ≤
    maxRate ∧ maxRate ≤ 10 ∧ (s.port port).mode = 0) ∧
(∃ (s : State) (h : HlyHdr) (port width maxRate : Nat), s.runs h 0x0201 0 0 [.port port] = true ∧ 2 ≤ port ∧ port ≤ 31 ∧ width ≤ 4 ∧ maxRate ≤ 11 ∧
    (s.linkPorts port).any s.portUsed = false ∧ (s.port port).mode = 0) ∧
(∃ (s : State) (h : HlyHdr) (port width maxRate : Nat), s.runs h 0x0201 0 0 [.port port] = true ∧ 2 ≤ port ∧ port ≤ 31 ∧ width ≤ 4 ∧ maxRate ≤ 11 ∧
    s.portUsed port = false ∧ (s.port port).mode ≠ 0 ∧ (s.port port).width ≠ 4 ∧ s.linkUp port = false) ∧
(∃ (s : State) (h : HlyHdr) (port corrThreshold corrWindow marginFloor idleEntry trainTimeout : Nat), s.runs h 0x0202 0 0 [.port port] = true ∧ port ≤
    31 ∧ s.isNative port = true ∧ 1 ≤ corrThreshold ∧ corrThreshold ≤ 65535 ∧ 1 ≤ corrWindow ∧ corrWindow ≤ 1000 ∧ marginFloor ≤ 500 ∧ 1 ≤ idleEntry ∧
    idleEntry ≤ 1000 ∧ 10 ≤ trainTimeout ∧ trainTimeout ≤ 1000) ∧
(∃ (s : State) (h : HlyHdr) (port lane : Nat), s.runs h 0x0203 0 0 [.port port] = true ∧ port ≤ 31 ∧ lane < 2 ^ (s.port port).trainedWidth.getD 3 ∧
    lane ≤ 7 ∧ s.isNative port = true ∧ s.linkUp port = true ∧ (s.port port).busy = false ∧ (s.port port).channelOk = true ∧ (s.port port).spareFailed
    = false ∧ (s.port port).spareFor = none) ∧
(∃ (s : State) (h : HlyHdr) (port lane : Nat), s.runs h 0x0203 0 0 [.port port] = true ∧ port ≤ 31 ∧ lane ≤ 7 ∧ s.isNative port = true ∧ s.linkUp port
    = true ∧ (s.port port).busy = false ∧ (s.port port).channelOk = true ∧ (s.port port).spareFailed = false ∧ (s.port port).spareFor = some lane) ∧
(∃ (s : State) (h : HlyHdr) (lane function pattern inject symbols every : Nat), s.runs h 0x0204 0 0 [.port (lane / 9)] = true ∧ lane ≤ 287 ∧ function
    ≤ 4 ∧ pattern ≤ 8 ∧ (inject ≤ 1 ∨ (10 ≤ inject ∧ inject ≤ 40)) ∧ (function = 4 → 1 ≤ symbols ∧ symbols ≤ 16 ∧ 1 ≤ every) ∧ (function = 0 ∨ (s.port
    (lane / 9)).mode = 6 ∨ s.freeSpare lane = true)) ∧
(∃ (s : State) (h : HlyHdr) (port : Nat), s.runs h 0x0205 0 228 [] = true ∧ port ≤ 31) :=
  ⟨⟨(sR.upPort 31 fun x => { x with mode := 0 }), hR, 31, 3, 4, by decide +kernel⟩,
    ⟨((sR.upPort 30 fun x => { x with mode := 0 }).upPort 31 fun x => { x with mode := 0 }), hR, 30, 4, 10, by decide +kernel⟩,
    ⟨(sR.upPort 31 fun x => { x with mode := 0 }), hR, 31, 4, 11, by decide +kernel⟩,
    ⟨(sR.upPort 31 fun x => { x with mode := 1 }), hR, 31, 4, 11, by decide +kernel⟩,
    ⟨(sR.upPort 31 fun x => { x with mode := 1 }), hR, 31, 65535, 1000, 500, 1000, 1000, by decide +kernel⟩,
    ⟨((sR.upPort 31 fun x => { x with mode := 1, channelOk := true }).upLport 31 fun x => { x with state := .up }), hR, 31, 7, by decide +kernel⟩,
    ⟨((sR.upPort 31 fun x => { x with mode := 1, channelOk := true, spareFor := some 7 }).upLport 31 fun x => { x with state := .up }), hR, 31, 7,
      by decide +kernel⟩,
    ⟨((sR.upPort 31 fun x => { x with mode := 1 }).upLport 31 fun x => { x with state := .up }), hR, 287, 4, 8, 40, 16, 1, by decide +kernel⟩,
    ⟨sR, hR, 31, by decide +kernel⟩⟩

theorem witness_LaneDetectorsTakeEffect :
(∃ (s : State) (lane : Nat), (s.port (lane / 9)).rxIdle = false ∧ s.isNative (lane / 9) = false) ∧
(∃ (s : State) (lane : Nat), s.isNative (lane / 9) = false) ∧
(∃ (s : State) (port : Nat), s.linkUp port = true) ∧
(∃ (s : State) (lane corrected : Nat), corrected ≤ (s.lane lane).threshold) ∧
(∃ (s : State) (lane corrected : Nat), (s.lane lane).threshold < corrected ∧ s.linkUp (lane / 9) = true ∧ (s.port (lane / 9)).autoSpare = true ∧
    s.logicalOf lane < 2 ^ (s.port (lane / 9)).trainedWidth.getD 0 ∧ lane % 9 ≠ 8 ∧ (s.lane lane).logical = none ∧ (s.port (lane / 9)).subst = none ∧
    (s.port (lane / 9)).spareFor = none ∧ (s.port (lane / 9)).spareFailed = false ∧ (s.port (lane / 9)).channelOk = true) ∧
(∃ (s : State) (lane margin : Nat), (s.port (lane / 9)).train ≠ .equalise ∧ (s.port (lane / 9)).marginFloor ≤ margin) ∧
(∃ (s : State) (lane : Nat), (s.port (lane / 9)).train = .detect ∧ (s.port (lane / 9)).contained = false) ∧
(∃ (s : State) (lane : Nat) (q : TrainSeq), s.isNative (lane / 9) = true ∧ seqOk q = true ∧ bitsOf q.toNat 19 16 ≤ 8 ∧ (s.port (lane / 9)).contained =
    false ∧ (s.port (lane / 9)).train = .sync ∧ (s.port (lane / 9)).acks.get (lane % 9) 0 < 15) ∧
(∃ (s : State) (port : Nat), (s.port port).train = .equalise ∧ (s.port port).renegotiated = true) ∧
(∃ (s : State) (port rate width : Nat) (skews : List Nat), (s.port port).train = .lock ∧ (s.port port).agreed = some (rate, width) ∧ (s.port
    port).quick = false ∧ s.pwr.change = none ∧ port ≤ 31 ∧ (s.port port).contained = false ∧ (∀ k ∈ skews, k ≤ 320)) ∧
(∃ (s : State) (port rate width k : Nat) (skews : List Nat), (s.port port).train = .lock ∧ (s.port port).agreed = some (rate, width) ∧ (s.port
    port).quick = false ∧ (s.port port).spareFor.isSome = true ∧ k < 2 ^ width ∧ 320 < skews.getD (s.physicalOf port k % 9) 0) ∧
(∃ (s : State) (port : Nat), (s.port port).train = .sync ∨ (s.port port).train = .lock ∧ s.isNative port = true) ∧
(∃ (s : State) (port : Nat), (s.port port).train = .backoff ∧ (s.port port).contained = false) :=
  ⟨⟨(sR.upPort 31 fun x => { x with mode := 2 }), 287, by decide +kernel⟩,
    ⟨(sR.upPort 31 fun x => { x with mode := 2 }), 287, by decide +kernel⟩,
    ⟨((sR.upPort 31 fun x => { x with mode := 1 }).upLport 31 fun x => { x with state := .up }), 31, by decide +kernel⟩,
    ⟨sR, 287, 5, by decide +kernel⟩,
    ⟨((sR.upPort 31 fun x => { x with mode := 1, autoSpare := true, trainedWidth := some 3, trainedRate := some 4, channelOk := true }).upLport 31 fun x => { x with state := .up }),
      286, 65535, by decide +kernel⟩,
    ⟨sR, 287, 500, by decide +kernel⟩,
    ⟨(sR.upPort 31 fun x => { x with mode := 1, train := .detect }), 287, by decide +kernel⟩,
    ⟨(sR.upPort 31 fun x => { x with mode := 1, train := .sync }), 287, tSeq 0x5A3C, by decide +kernel⟩,
    ⟨(sR.upPort 31 fun x => { x with mode := 1, train := .equalise, renegotiated := true }), 31, by decide +kernel⟩,
    ⟨(sR.upPort 31 fun x => { x with mode := 1, train := .lock, agreed := some (4, 3) }), 31, 4, 3, [], by decide +kernel⟩,
    ⟨(sR.upPort 31 fun x => { x with mode := 1, train := .lock, agreed := some (4, 3), spareFor := some 0 }), 31, 4, 3, 1, [0, 321, 0],
      by decide +kernel⟩,
    ⟨(sR.upPort 31 fun x => { x with mode := 1, train := .lock }), 31, by decide +kernel⟩,
    ⟨(sR.upPort 31 fun x => { x with mode := 1, train := .backoff }), 31, by decide +kernel⟩⟩

theorem witness_LaneExchangesTakeEffect :
(∃ (s : State) (port : Nat), s.mayIdle port = true) ∧
(∃ (s : State) (port : Nat), (s.port port).rxIdle = true ∧ s.linkUp port = true) ∧
(∃ (s : State) (port : Nat) (msg : BitVec 64), msgOk msg = true ∧ s.isNative port = true) ∧
(∃ (s : State) (port : Nat) (msg : BitVec 64), msgOk msg = true ∧ s.isNative port = true ∧ (s.port port).subst = none) ∧
(∃ (s : State) (port : Nat) (msg : BitVec 64) (b : Subst), (s.port port).subst = some b ∧ b.receiver = true ∧ msgOk msg = true) ∧
(∃ (s : State) (port : Nat) (b : Subst), (s.port port).subst = some b ∧ b.receiver = true ∧ (s.port port).subState = .comparing ∧ (s.port
    port).stepHeld = none ∧ (s.port port).stepTarget = none ∧ (s.port port).subWait = [] ∧ b.lane ≤ 7) ∧
(∃ (s : State) (port : Nat) (msg : BitVec 64) (b : Subst), (s.port port).subst = some b ∧ b.receiver = false ∧ msgOk msg = true ∧ (s.port
    port).stepHeld = none ∧ (s.port port).stepTarget = none ∧ (s.port port).subWait = []) ∧
(∃ (s : State) (port : Nat) (msg : BitVec 64) (b : Subst), (s.port port).subst = some b ∧ msgOk msg = true ∧ (s.port port).stepHeld = none ∧ (s.port
    port).stepTarget = none ∧ (s.port port).subWait = []) ∧
(∃ (s : State) (port : Nat) (msg : BitVec 64), msgOk msg = true ∧ s.linkUp port = true ∧ msgRate msg ≤ 4 ∧ msgWidth msg ≤ 3 ∧ (s.port port).subst =
    none) ∧
(∃ (s : State) (port : Nat) (msg : BitVec 64) (t : RateStep), msgOk msg = true ∧ (s.port port).step = some t) ∧
(∃ (s : State) (port : Nat) (t : RateStep), (s.port port).step = some t ∧ t.acked = true ∧ s.pwr.change = none ∧ (s.port port).preStorm = none) ∧
(∃ (s : State) (port : Nat) (t : RateStep), (s.port port).step = some t ∧ (s.lport port).state = .up) ∧
(∃ (s : State) (port : Nat) (msg : BitVec 64), msgOk msg = true ∧ s.isNative port = true ∧ (s.port port).preStorm = none) ∧
(∃ (s : State) (port : Nat) (msg : BitVec 64), msgOk msg = true ∧ s.freeSpare (9 * port + 8) = true) ∧
(∃ (msg : BitVec 64), msgOk msg = true) ∧
(∃ (s : State) (lane : Nat), (s.lane lane).testFn = 2 ∨ (s.lane lane).testFn = 3 ∧ (s.lane lane).testAsked = false) ∧
(∃ (s : State) (lane : Nat), (s.lane lane).prbsLock = true) ∧
(∃ (s : State) (port : Nat), (s.port port).mode = 4 ∨ (s.port port).mode = 5) :=
  ⟨⟨((sR.upPort 31 fun x => { x with mode := 1, idleEnable := true, channelOk := true }).upLport 31 fun x => { x with state := .up }), 31,
      by decide +kernel⟩,
    ⟨((sR.upPort 31 fun x => { x with mode := 1, rxIdle := true }).upLport 31 fun x => { x with state := .up }), 31, by decide +kernel⟩,
    ⟨((sR.upPort 31 fun x => { x with mode := 1 }).upLport 31 fun x => { x with state := .up }), 31, laneMessage 7 0 0 0 9, by decide +kernel⟩,
    ⟨((sR.upPort 31 fun x => { x with mode := 1 }).upLport 31 fun x => { x with state := .up }), 31, laneMessage 1 3 0 0 9, by decide +kernel⟩,
    ⟨((sR.upPort 31 fun x => { x with mode := 1, subst := some { lane := 3, receiver := true, isReturn := false, codeword := 9 }, subState := .bridging }).upLport 31 fun x => { x with state := .up }),
      31, laneMessage 2 3 0 0 9, { lane := 3, receiver := true, isReturn := false, codeword := 9 }, by decide +kernel⟩,
    ⟨((sR.upPort 31 fun x => { x with mode := 1, subst := some { lane := 3, receiver := true, isReturn := false, codeword := 9 }, subState := .comparing }).upLport 31 fun x => { x with state := .up }),
      31, { lane := 3, receiver := true, isReturn := false, codeword := 9 }, by decide +kernel⟩,
    ⟨((sR.upPort 31 fun x => { x with mode := 1, subst := some { lane := 3, receiver := false, isReturn := false, codeword := 9 }, subState := .comparing }).upLport 31 fun x => { x with state := .up }),
      31, laneMessage 3 3 0 0 9, { lane := 3, receiver := false, isReturn := false, codeword := 9 }, by decide +kernel⟩,
    ⟨((sR.upPort 31 fun x => { x with mode := 1, subst := some { lane := 3, receiver := false, isReturn := false, codeword := 9 }, subState := .comparing }).upLport 31 fun x => { x with state := .up }),
      31, laneMessage 3 3 0 0 9, { lane := 3, receiver := false, isReturn := false, codeword := 9 }, by decide +kernel⟩,
    ⟨((sR.upPort 31 fun x => { x with mode := 1 }).upLport 31 fun x => { x with state := .up }), 31, laneMessage 5 0 3 2 9, by decide +kernel⟩,
    ⟨((sR.upPort 31 fun x => { x with mode := 1, step := some { rate := 3, width := 2, codeword := 9, acked := false, initiator := true } }).upLport 31 fun x => { x with state := .up }),
      31, laneMessage 6 0 0 0 9, { rate := 3, width := 2, codeword := 9, acked := false, initiator := true }, by decide +kernel⟩,
    ⟨((sR.upPort 31 fun x => { x with mode := 1, train := .step, step := some { rate := 3, width := 2, codeword := 9, acked := true, initiator := true } }).upLport 31 fun x => { x with state := .up }),
      31, { rate := 3, width := 2, codeword := 9, acked := true, initiator := true }, by decide +kernel⟩,
    ⟨((sR.upPort 31 fun x => { x with mode := 1, train := .step, step := some { rate := 3, width := 2, codeword := 9, acked := false, initiator := true } }).upLport 31 fun x => { x with state := .up }),
      31, { rate := 3, width := 2, codeword := 9, acked := false, initiator := true }, by decide +kernel⟩,
    ⟨((sR.upPort 31 fun x => { x with mode := 1 }).upLport 31 fun x => { x with state := .up }), 31, laneMessage 9 0 0 0 9, by decide +kernel⟩,
    ⟨((sR.upPort 31 fun x => { x with mode := 1 }).upLport 31 fun x => { x with state := .up }), 31, laneMessage 10 8 0 0 9, by decide +kernel⟩,
    ⟨laneMessage 11 8 0 0 9, by decide +kernel⟩,
    ⟨(sR.upLane 287 fun x => { x with testFn := 2 }), 287, by decide +kernel⟩,
    ⟨(sR.upLane 287 fun x => { x with prbsLock := true }), 287, by decide +kernel⟩,
    ⟨(sR.upPort 31 fun x => { x with mode := 4 }), 31, by decide +kernel⟩⟩

theorem witness_LinkAndTransportCommandsComplete :
(∃ (s : State) (h : HlyHdr) (port cm linkTimeout replayLimit retrainLimit : Nat) (shares : List Nat), s.runs h 0x0301 0 0 [.port port] = true ∧ port ≤
    31 ∧ s.isNative port = true ∧ 1 ≤ linkTimeout ∧ linkTimeout ≤ 256 ∧ 1 ≤ replayLimit ∧ replayLimit ≤ 255 ∧ 1 ≤ retrainLimit ∧ retrainLimit ≤ 1000 ∧
    (cmBit cm 0 = true → s.portListed port = false) ∧ (∀ v, v < 7 → cmBit cm (3 + v) = false) ∨ ((s.lport port).state = .down ∧ (∀ x ∈ s.newShares
    port cm shares, 66 ≤ x ∧ x ≤ 12288) ∧ (s.newShares port cm shares).foldl (· + ·) 0 ≤ 12288)) ∧
(∃ (s : State) (h : HlyHdr) (port kind n count : Nat), s.runs h 0x0304 0 0 [.port port] = true ∧ port ≤ 31 ∧ kind ≤ 4 ∧ (kind ≠ 0 → 2 ≤ n ∧ n ≤ 65535)
    ∧ count ≤ 65535 ∧ (1 ≤ kind → kind ≤ 3 → s.isNative port = true)) ∧
(∃ (s : State) (h : HlyHdr) (port : Nat), s.runs h 0x0305 0 72 [] = true ∧ port ≤ 31) ∧
(∃ (s : State) (h : HlyHdr) (ackDelay nakDelay retryTimeout retryLimit ctxIdle sendWindow : Nat), s.runs h 0x0302 0 0 [] = true ∧ 1 ≤ ackDelay ∧
    ackDelay ≤ 256 ∧ 1 ≤ nakDelay ∧ nakDelay ≤ 16000 ∧ 1 ≤ retryTimeout ∧ retryTimeout ≤ 10000 ∧ 1 ≤ retryLimit ∧ retryLimit ≤ 255 ∧ 1 ≤ ctxIdle ∧
    ctxIdle ≤ 1000 ∧ 1 ≤ sendWindow ∧ sendWindow ≤ 64) ∧
(∃ (s : State) (h : HlyHdr) (peer inst cls half : Nat) (pin : Bool), s.runs h 0x0303 0 0 [.inst inst] = true ∧ peer ≤ 65535 ∧ inst ≤ 1023 ∧ cls ≤ 1 ∧
    half ≤ 1 ∧ (pin = false ∨ s.trn.pinned < 8192) ∧ ((s.sendCtx { peer, inst, cls }).all fun c => c.state == .spill) = true ∧ s.recvCtx
    { peer, inst, cls } = none) ∧
(∃ (s : State) (h : HlyHdr) (peer inst cls : Nat) (pin : Bool) (c : SendCtx), s.runs h 0x0303 0 0 [.inst inst] = true ∧ peer ≤ 65535 ∧ inst ≤ 1023 ∧
    cls ≤ 1 ∧ (pin = false ∨ s.trn.pinned < 8192) ∧ s.sendCtx { peer, inst, cls } = some c ∧ c.state ≠ .spill) ∧
(∃ (s : State) (h : HlyHdr) (peer inst cls : Nat) (c : SendCtx), s.runs h 0x0306 0 32 [] = true ∧ peer ≤ 65535 ∧ inst ≤ 1023 ∧ cls ≤ 1 ∧ s.sendCtx
    { peer, inst, cls } = some c) ∧
(∃ (s : State) (h : HlyHdr) (peer inst cls : Nat) (c : RecvCtx), s.runs h 0x0306 0 32 [] = true ∧ peer ≤ 65535 ∧ inst ≤ 1023 ∧ cls ≤ 1 ∧ s.recvCtx
    { peer, inst, cls } = some c) :=
  ⟨⟨(sR.upPort 31 fun x => { x with mode := 1 }), hR, 31, 1023, 256, 255, 1000, [66, 66, 66, 66, 66, 66, 66], by decide +kernel⟩,
    ⟨(sR.upPort 31 fun x => { x with mode := 1 }), hR, 31, 3, 65535, 65535, by decide +kernel⟩,
    ⟨sR, hR, 31, by decide +kernel⟩,
    ⟨sR, hR, 256, 16000, 10000, 255, 1000, 64, by decide +kernel⟩,
    ⟨sR, hR, 65535, 1023, 1, 1, true, by decide +kernel⟩,
    ⟨(sR.upTrn fun t => { t with sends := [{ key := { peer := 65535, inst := 1023, cls := 1 } }] }), hR, 65535, 1023, 1, true,
      { key := { peer := 65535, inst := 1023, cls := 1 } }, by decide +kernel⟩,
    ⟨(sR.upTrn fun t => { t with sends := [{ key := { peer := 65535, inst := 1023, cls := 1 } }] }), hR, 65535, 1023, 1,
      { key := { peer := 65535, inst := 1023, cls := 1 } }, by decide +kernel⟩,
    ⟨(sR.upTrn fun t => { t with recvs := [{ key := { peer := 65535, inst := 1023, cls := 1 } }] }), hR, 65535, 1023, 1,
      { key := { peer := 65535, inst := 1023, cls := 1 } }, by decide +kernel⟩⟩

theorem witness_LinkEventsTakeEffect :
(∃ (s : State) (p : Nat) (sync : BitVec 16) (head : BitVec 128) (pid : Nat) (bytes : List Nat) (frameCrc : BitVec 32) (t : Tag), (s.lport p).state =
    .up ∧ s.awake = true ∧ readTag sync = some t ∧ t.kind = 1 ∧ t.last = true ∧ t.abort = false ∧ headTaken head t = true ∧ frameCrc.toNat = crc32
    bytes ∧ consumedAtPort (readPkt pid bytes).hdr = false ∧ (readPkt pid bytes).hdr.multicast = false ∧ (s.linkVl p t.vl).openFrame = none ∧ (s.lport
    p).rxMap = [] ∧ bitsOf head.toNat 15 0 = (s.lport p).rxExpected) ∧
(∃ (s : State) (p : Nat) (sync : BitVec 16) (head : BitVec 128) (bytes : List Nat) (frameCrc : BitVec 32) (marked : Bool) (t : Tag), (s.lport p).state
    = .up ∧ s.awake = true ∧ readTag sync = some t ∧ t.kind = 1 ∧ t.last = true ∧ t.abort = false ∧ headTaken head t = true ∧ (marked = true ∨
    frameCrc.toNat ≠ crc32 bytes) ∧ (s.linkVl p t.vl).openFrame = none) ∧
(∃ (s : State) (p : Nat) (flit : BitVec 512) (sync : BitVec 16) (t : Tag), (s.lport p).state ≠ .down ∧ readTag sync = some t ∧ t.kind = 2 ∧ flitOk
    flit = true ∧ bitsOf flit.toNat 3 0 = 0 ∧ (s.port p).draining = false) ∧
(∃ (s : State) (p : Nat) (flit : BitVec 512) (sync : BitVec 16) (t : Tag), (s.lport p).state = .init ∧ readTag sync = some t ∧ t.kind = 2 ∧ flitOk
    flit = true ∧ bitsOf flit.toNat 3 0 = 1) ∧
(∃ (s : State) (p : Nat), s.replayTimerRuns p = true ∧ (s.lport p).timeouts + 1 < (s.lport p).limitNow) ∧
(∃ (s : State) (p : Nat), s.replayTimerRuns p = true ∧ (s.lport p).limitNow ≤ (s.lport p).timeouts + 1) ∧
(∃ (s : State) (p : Nat), (s.lport p).state = .retrain) ∧
(∃ (s : State) (p : Nat), (s.lport p).sendInit = true ∧ s.flitReady p = false) ∧
(∃ (s : State) (p : Nat), (s.lport p).sendInit = true ∧ s.flitReady p = true) ∧
(∃ (s : State) (p : Nat), (s.port p).draining = true) :=
  ⟨⟨((sR.upPort 31 fun x => { x with mode := 1 }).upLport 31 fun x => { x with state := .up }), 31,
      syncOf (tagBits { kind := 1, vl := 0, last := true, abort := false }), tHead (1 * 2 ^ 36), 0, List.replicate 16 0,
      BitVec.ofNat 32 (crc32 (List.replicate 16 0)), { kind := 1, vl := 0, last := true, abort := false }, by decide +kernel⟩,
    ⟨((sR.upPort 31 fun x => { x with mode := 1 }).upLport 31 fun x => { x with state := .up }), 31,
      syncOf (tagBits { kind := 1, vl := 0, last := true, abort := false }), tHead (1 * 2 ^ 36), List.replicate 16 0,
      BitVec.ofNat 32 (crc32 (List.replicate 16 0)), true, { kind := 1, vl := 0, last := true, abort := false }, by decide +kernel⟩,
    ⟨((sR.upPort 31 fun x => { x with mode := 1 }).upLport 31 fun x => { x with state := .up }), 31, tFlit 0,
      syncOf (tagBits { kind := 2, vl := 0, last := true, abort := false }), { kind := 2, vl := 0, last := true, abort := false },
      by set_option maxRecDepth 100000 in decide +kernel⟩,
    ⟨((sR.upPort 31 fun x => { x with mode := 1 }).upLport 31 fun x => { x with state := .init }), 31, tFlit 1,
      syncOf (tagBits { kind := 2, vl := 0, last := true, abort := false }), { kind := 2, vl := 0, last := true, abort := false },
      by set_option maxRecDepth 100000 in decide +kernel⟩,
    ⟨((sR.upPort 31 fun x => { x with mode := 1 }).upLport 31 fun x => { x with state := .up, replay := [{ seq := 0, vl := 0, flits := 2, pkt := { pid := 1, hdr := {} }, len := 64, sequenced := false, stamp := 0, sent := 2 }] }),
      31, by decide +kernel⟩,
    ⟨((sR.upPort 31 fun x => { x with mode := 1 }).upLport 31 fun x => { x with state := .up, replay := [{ seq := 0, vl := 0, flits := 2, pkt := { pid := 1, hdr := {} }, len := 64, sequenced := false, stamp := 0, sent := 2 }], timeouts := 255 }),
      31, by decide +kernel⟩,
    ⟨((sR.upPort 31 fun x => { x with mode := 1 }).upLport 31 fun x => { x with state := .retrain, replay := [{ seq := 0, vl := 0, flits := 2, pkt := { pid := 1, hdr := {} }, len := 64, sequenced := false, stamp := 0, sent := 2 }] }),
      31, by decide +kernel⟩,
    ⟨((sR.upPort 31 fun x => { x with mode := 1 }).upLport 31 fun x => { x with state := .init, sendInit := true }), 31, by decide +kernel⟩,
    ⟨((sR.upPort 31 fun x => { x with mode := 1 }).upLport 31 fun x => { x with state := .init, sendInit := true, toReplay := [4] }), 31,
      by decide +kernel⟩,
    ⟨(sR.upPort 31 fun x => { x with mode := 1, draining := true }), 31, by decide +kernel⟩⟩

theorem witness_TransportEventsTakeEffect :
(∃ (s : State) (p : Packet) (check : BitVec 64) (c : RecvCtx), s.recvCtx (recvKey p.hdr) = some c ∧ inStream p.hdr = true ∧ (p.hdr.data = true →
    check.toNat = pktCheck p) ∧ opcodeReserved p.hdr.opcode = false ∧ p.hdr.flagged = false ∧ c.onDie = true ∧ c.fetchWait = [] ∧ c.map = [] ∧ c.held
    = [] ∧ c.closeAt = none ∧ p.hdr.seq = c.expected) ∧
(∃ (s : State) (p : Packet) (check : BitVec 64), p.hdr.multicast = false ∧ inStream p.hdr = false ∧ (p.hdr.data = true → check.toNat = pktCheck p) ∧
    opcodeReserved p.hdr.opcode = false ∧ s.noEndpoint p.hdr = false ∧ p.hdr.flagged = false) ∧
(∃ (s : State) (peer inst cls : Nat), s.recvCtx { peer, inst, cls } = none ∧ s.trn.onDie < 16384) ∧
(∃ (s : State) (peer inst cls seq : Nat) (c : RecvCtx), s.recvCtx { peer, inst, cls } = some c ∧ c.expected = seq % 2 ^ 24 ∧ c.onDie = true ∧ c.pinned
    = false) ∧
(∃ (s : State) (peer inst cls : Nat) (c : RecvCtx), s.recvCtx { peer, inst, cls } = some c ∧ c.onDie = false) ∧
(∃ (s : State) (peer inst cls : Nat) (c : SendCtx), s.sendCtx { peer, inst, cls } = some c ∧ c.onDie = true ∧ c.pinned = false ∧ c.state = .opened ∧
    c.unacked = [] ∧ c.queue = [] ∧ c.resentIdle = false) ∧
(∃ (s : State) (peer inst cls : Nat) (c : SendCtx), s.sendCtx { peer, inst, cls } = some c ∧ c.onDie = true ∧ c.state = .opening ∧ c.queue = [] ∧
    c.unacked = []) ∧
(∃ (s : State) (peer inst cls ack : Nat) (c : SendCtx) (p : SentPkt), s.sendCtx { peer, inst, cls } = some c ∧ c.onDie = true ∧ c.state = .opened ∧
    c.queue = [] ∧ c.unacked = [p] ∧ p.op = none ∧ seqBelow ack p.pkt.hdr.seq = true) ∧
(∃ (s : State) (peer inst cls seq reason : Nat) (c : SendCtx), reason ≤ 3 ∧ s.sendCtx { peer, inst, cls } = some c ∧ c.onDie = true ∧ (c.unacked.any
    fun p => p.pkt.hdr.seq == seq) = true ∧ c.resends < c.retryLimit) ∧
(∃ (s : State) (peer inst cls : Nat) (c : RecvCtx), s.recvCtx { peer, inst, cls } = some c ∧ c.onDie = true ∧ c.sinceAck ≠ 0) ∧
(∃ (s : State) (peer inst cls : Nat) (c : RecvCtx), s.recvCtx { peer, inst, cls } = some c ∧ c.onDie = true ∧ c.map ≠ []) ∧
(∃ (s : State) (peer inst cls : Nat) (c : SendCtx), s.sendCtx { peer, inst, cls } = some c ∧ c.onDie = true ∧ c.state = .opening) ∧
(∃ (s : State) (peer inst cls : Nat) (c : SendCtx), s.sendCtx { peer, inst, cls } = some c ∧ c.onDie = false ∧ c.queue = [] ∧ c.fetchWait = [] ∧
    s.trn.onDie < 16384) ∧
(∃ (s : State) (peer inst cls : Nat) (c : RecvCtx), s.recvCtx { peer, inst, cls } = some c ∧ c.onDie = false ∧ c.fetchWait = [] ∧ s.trn.onDie < 16384) ∧
(∃ (s : State) (peer inst cls : Nat) (c : SendCtx) (p : SentPkt), s.sendCtx { peer, inst, cls } = some c ∧ c.queue = [p] ∧ p.pkt.hdr.flagged = true ∧
    c.unacked = [] ∧ c.ticketsUsed = 0 ∧ c.state = .opened ∧ c.onDie = true ∧ p.policed = true) ∧
(∃ (s : State) (port tree srcDevice inst op : Nat) (t : Tree) (o : McOp), s.tree tree = some t ∧ t.ops = [o] ∧ o.srcDevice = srcDevice ∧ o.inst = inst
    ∧ o.op = op ∧ port ∈ o.awaiting ∧ (∃ b ∈ o.awaiting, b ≠ port)) :=
  ⟨⟨(sR.upTrn fun t => { t with recvs := [{ key := recvKey { srcDevice := 7, inst := 5, opcode := 0x10, seq := 3, data := true }, expected := 3 }] }),
      { pid := 1, hdr := { srcDevice := 7, inst := 5, opcode := 0x10, seq := 3, data := true } },
      BitVec.ofNat 64 (pktCheck ({ pid := 1, hdr := { srcDevice := 7, inst := 5, opcode := 0x10, seq := 3, data := true } } : Packet)),
      { key := recvKey { srcDevice := 7, inst := 5, opcode := 0x10, seq := 3, data := true }, expected := 3 }, by decide +kernel⟩,
    ⟨sR, { pid := 1, hdr := { srcDevice := 7, opcode := 0x81 } }, 0, by decide +kernel⟩,
    ⟨sR, 65535, 1023, 1, by decide +kernel⟩,
    ⟨(sR.upTrn fun t => { t with recvs := [{ key := { peer := 65535, inst := 1023, cls := 1 }, expected := 5 }] }), 65535, 1023, 1, 5,
      { key := { peer := 65535, inst := 1023, cls := 1 }, expected := 5 }, by decide +kernel⟩,
    ⟨(sR.upTrn fun t => { t with recvs := [{ key := { peer := 65535, inst := 1023, cls := 1 }, onDie := false }] }), 65535, 1023, 1,
      { key := { peer := 65535, inst := 1023, cls := 1 }, onDie := false }, by decide +kernel⟩,
    ⟨(sR.upTrn fun t => { t with sends := [{ key := { peer := 65535, inst := 1023, cls := 1 }, state := .opened }] }), 65535, 1023, 1,
      { key := { peer := 65535, inst := 1023, cls := 1 }, state := .opened }, by decide +kernel⟩,
    ⟨(sR.upTrn fun t => { t with sends := [{ key := { peer := 65535, inst := 1023, cls := 1 }, state := .opening }] }), 65535, 1023, 1,
      { key := { peer := 65535, inst := 1023, cls := 1 }, state := .opening }, by decide +kernel⟩,
    ⟨(sR.upTrn fun t => { t with sends := [{ key := { peer := 65535, inst := 1023, cls := 1 }, state := .opened, unacked := [{ pkt := { pid := 1, hdr := { seq := 4 } }, len := 64, input := 32, op := none }], next := 5 }] }),
      65535, 1023, 1, 5,
      { key := { peer := 65535, inst := 1023, cls := 1 }, state := .opened, unacked := [{ pkt := { pid := 1, hdr := { seq := 4 } }, len := 64, input := 32, op := none }], next := 5 },
      { pkt := { pid := 1, hdr := { seq := 4 } }, len := 64, input := 32, op := none }, by decide +kernel⟩,
    ⟨(sR.upTrn fun t => { t with sends := [{ key := { peer := 65535, inst := 1023, cls := 1 }, state := .opened, unacked := [{ pkt := { pid := 1, hdr := { seq := 4 } }, len := 64, input := 32, op := none }], next := 5 }] }),
      65535, 1023, 1, 4, 3,
      { key := { peer := 65535, inst := 1023, cls := 1 }, state := .opened, unacked := [{ pkt := { pid := 1, hdr := { seq := 4 } }, len := 64, input := 32, op := none }], next := 5 },
      by decide +kernel⟩,
    ⟨(sR.upTrn fun t => { t with recvs := [{ key := { peer := 65535, inst := 1023, cls := 1 }, sinceAck := 3 }] }), 65535, 1023, 1,
      { key := { peer := 65535, inst := 1023, cls := 1 }, sinceAck := 3 }, by decide +kernel⟩,
    ⟨(sR.upTrn fun t => { t with recvs := [{ key := { peer := 65535, inst := 1023, cls := 1 }, map := [2] }] }), 65535, 1023, 1,
      { key := { peer := 65535, inst := 1023, cls := 1 }, map := [2] }, by decide +kernel⟩,
    ⟨(sR.upTrn fun t => { t with sends := [{ key := { peer := 65535, inst := 1023, cls := 1 }, state := .opening }] }), 65535, 1023, 1,
      { key := { peer := 65535, inst := 1023, cls := 1 }, state := .opening }, by decide +kernel⟩,
    ⟨(sR.upTrn fun t => { t with sends := [{ key := { peer := 65535, inst := 1023, cls := 1 }, state := .opened, onDie := false }] }), 65535, 1023, 1,
      { key := { peer := 65535, inst := 1023, cls := 1 }, state := .opened, onDie := false }, by decide +kernel⟩,
    ⟨(sR.upTrn fun t => { t with recvs := [{ key := { peer := 65535, inst := 1023, cls := 1 }, onDie := false }] }), 65535, 1023, 1,
      { key := { peer := 65535, inst := 1023, cls := 1 }, onDie := false }, by decide +kernel⟩,
    ⟨(sR.upTrn fun t => { t with sends := [{ key := { peer := 65535, inst := 1023, cls := 1 }, state := .opened, queue := [{ pkt := { pid := 1, hdr := { flagged := true, inst := 1023 } }, len := 64, input := 32, op := none }] }] }),
      65535, 1023, 1,
      { key := { peer := 65535, inst := 1023, cls := 1 }, state := .opened, queue := [{ pkt := { pid := 1, hdr := { flagged := true, inst := 1023 } }, len := 64, input := 32, op := none }] },
      { pkt := { pid := 1, hdr := { flagged := true, inst := 1023 } }, len := 64, input := 32, op := none }, by decide +kernel⟩,
    ⟨(sR.upRte fun r => { r with trees := [(8191, { upstream := 1, branches := 12, loc := false, localEndpoint := 0, leaves := [], ops := [{ srcDevice := 7, inst := 5, op := 9, sl := 1, awaiting := [2, 3], delivered := 0, fenced := 0 }] })] }),
      2, 8191, 7, 5, 9,
      { upstream := 1, branches := 12, loc := false, localEndpoint := 0, leaves := [], ops := [{ srcDevice := 7, inst := 5, op := 9, sl := 1, awaiting := [2, 3], delivered := 0, fenced := 0 }] },
      { srcDevice := 7, inst := 5, op := 9, sl := 1, awaiting := [2, 3], delivered := 0, fenced := 0 }, by decide +kernel⟩⟩

theorem witness_ChannelsOfCommandsTakeEffect :
(∃ (s : State) (q : Nat), q ≤ 7 ∧ s.awake = true ∧ s.mgc.mgmtReset = false ∧ (s.hq q).enable = true ∧ (s.hq q).error = false) ∧
(∃ (s : State) (q : Nat), q ≤ 7 ∧ s.awake = true ∧ s.mgc.mgmtReset = false ∧ (s.hq q).enable = true ∧ s.hly.heldReplies = []) ∧
(∃ (s : State) (q : Nat), q ≤ 7 ∧ s.awake = true ∧ (s.hq q).enable = false) ∧
(∃ (s : State) (q : Nat), q ≤ 7 ∧ s.awake = true) ∧
(∃ (s : State) (origin : Origin) (queue seq : Nat) (directed : Bool), s.awake = true ∧ (s.rte.valid = true ∨ directed = true) ∧
    ({ serial := origin.serial, queue, seq } : InbandKey) ∉ s.hly.inbandReady ∧ (s.hly.progress.any fun g => srcKey g.src == some
    ({ serial := origin.serial, queue, seq } : InbandKey)) = false ∧ (s.hly.replyCache.find? fun e => e.1 == ({ serial := origin.serial, queue, seq }
    : InbandKey)) = none) ∧
(∃ (s : State) (queue seq n t m : Nat) (d : Bool) (ports : List Nat) (g : Prog), s.hly.progress = [g] ∧ g.src = .host queue ∧ g.seq = seq ∧ g.wait =
    .remote n t d ports m) ∧
(∃ (s : State) (queue seq n t m : Nat) (d : Bool) (ports : List Nat) (g : Prog), s.hly.progress = [g] ∧ g.src = .host queue ∧ g.seq = seq ∧ g.wait =
    .remote n t d ports m ∧ n < s.hly.inbandRetries ∧ (d = false ∨ s.linkUp (ports.getD 0 0) = true)) ∧
(∃ (s : State) (queue seq n t m : Nat) (d : Bool) (ports : List Nat) (g : Prog), s.hly.progress = [g] ∧ g.src = .host queue ∧ g.seq = seq ∧ g.wait =
    .remote n t d ports m ∧ s.hly.inbandRetries ≤ n) ∧
(∃ (s : State), s.awake = true) ∧
(∃ (s : State) (source : CmdSrc) (seq : Nat) (g : Prog), s.hly.progress = [g] ∧ g.src = source ∧ g.seq = seq) :=
  ⟨⟨(sR.upHq 7 fun x => { x with enable := true, cmdProducer := 3 }), 7, by decide +kernel⟩,
    ⟨(sR.upHq 7 fun x => { x with enable := true, cmdProducer := 3 }), 7, by decide +kernel⟩,
    ⟨(sR.upHq 7 fun x => { x with cmdProducer := 3 }), 7, by decide +kernel⟩,
    ⟨(sR.upHq 7 fun x => { x with enable := true, cmdProducer := 3 }), 7, by decide +kernel⟩,
    ⟨sR, { serial := 9, device := 4 }, 7, 65535, true, by decide +kernel⟩,
    ⟨(sR.upHly fun x => { x with progress := [{ src := .host 7, seq := 5, code := 1, interrupt := false, objs := [], wait := .remote 0 9 false [] 77 }] }),
      7, 5, 0, 9, 77, false, [], { src := .host 7, seq := 5, code := 1, interrupt := false, objs := [], wait := .remote 0 9 false [] 77 },
      by decide +kernel⟩,
    ⟨(sR.upHly fun x => { x with progress := [{ src := .host 7, seq := 5, code := 1, interrupt := false, objs := [], wait := .remote 7 9 false [] 77 }] }),
      7, 5, 7, 9, 77, false, [], { src := .host 7, seq := 5, code := 1, interrupt := false, objs := [], wait := .remote 7 9 false [] 77 },
      by decide +kernel⟩,
    ⟨(sR.upHly fun x => { x with progress := [{ src := .host 7, seq := 5, code := 1, interrupt := false, objs := [], wait := .remote 8 9 false [] 77 }] }),
      7, 5, 8, 9, 77, false, [], { src := .host 7, seq := 5, code := 1, interrupt := false, objs := [], wait := .remote 8 9 false [] 77 },
      by decide +kernel⟩,
    ⟨sR, by decide +kernel⟩,
    ⟨(sR.upHly fun x => { x with progress := [{ src := .host 7, seq := 5, code := 1, interrupt := false, objs := [], wait := .remote 0 9 false [] 77 }] }),
      .host 7, 5, { src := .host 7, seq := 5, code := 1, interrupt := false, objs := [], wait := .remote 0 9 false [] 77 }, by decide +kernel⟩⟩

theorem witness_RoutingCommandsComplete :
(∃ (s : State) (h : HlyHdr) (tile first m : Nat), tile ≤ 3 ∧ first ≤ 1023 ∧ s.runs h 0x0401 4 0 [] = true ∧ s.maskOk 0 m = true ∧ (s.bank
    s.inactiveBank).state ≠ .old) ∧
(∃ (s : State) (h : HlyHdr) (tile first : Nat), tile ≤ 3 ∧ first ≤ 960 ∧ s.runs h 0x0401 0 0 [] = true ∧ (s.bank s.inactiveBank).state ≠ .old) ∧
(∃ (s : State) (h : HlyHdr), s.runs h 0x0402 0 0 [] = true ∧ (s.bank s.inactiveBank).state = .written) ∧
(∃ (s : State) (h : HlyHdr), s.runs h 0x0403 0 0 [] = true ∧ (s.bank s.inactiveBank).state = .old ∧ s.oldCount = 0) ∧
(∃ (s : State) (h : HlyHdr) (port kind group member : Nat), s.runs h 0x0404 0 0 [.port port] = true ∧ port ≤ 31 ∧ kind ≤ 2 ∧ group ≤ 1023 ∧ member ≤
    63 ∧ s.isNative port = true) ∧
(∃ (s : State) (h : HlyHdr) (sl mode bias : Nat), s.runs h 0x0405 0 0 [] = true ∧ sl ≤ 6 ∧ mode ≤ 2 ∧ bias ≤ 65535) ∧
(∃ (s : State) (h : HlyHdr) (contractId mode count : Nat) (groups : List Nat) (c : Contract), s.runs h 0x0406 0 0 [.contract contractId] = true ∧ mode
    ≤ 1 ∧ 1 ≤ count ∧ count ≤ 4 ∧ (∀ g ∈ groups, g ≤ 1023) ∧ s.adm.contracts.find contractId = some c) ∧
(∃ (s : State) (h : HlyHdr) (endpoint destination : Nat), s.runs h 0x0407 0 0 [] = true ∧ 1 ≤ endpoint ∧ endpoint ≤ 15 ∧ 32 ≤ destination ∧
    destination ≤ 35) ∧
(∃ (s : State) (h : HlyHdr) (endpoint destination : Nat), s.runs h 0x0407 0 0 [] = true ∧ 1 ≤ endpoint ∧ endpoint ≤ 15 ∧ s.namesHostLink destination =
    true) ∧
(∃ (s : State) (h : HlyHdr) (tree upstream branches : Nat) (leaves : List Nat), s.runs h 0x0408 66 0 [.tree tree] = true ∧ tree ≤ 8191 ∧ (upstream ≤
    31 ∨ upstream = 0x3F) ∧ sumOf leaves id ≤ 65535 ∧ (∀ p ∈ portsOf branches, s.isNative p = true) ∧ s.tree tree = none) ∧
(∃ (s : State) (h : HlyHdr) (tree : Nat) (t : Tree), s.runs h 0x0409 0 0 [.tree tree] = true ∧ s.tree tree = some t ∧ s.treePending tree = false) ∧
(∃ (s : State) (h : HlyHdr) (tree : Nat) (t : Tree), s.runs h 0x0409 0 0 [.tree tree] = true ∧ s.tree tree = some t ∧ s.treePending tree = true) ∧
(∃ (s : State) (h : HlyHdr) (tree branch : Nat) (t : Tree), s.runs h 0x040A 0 0 [.tree tree] = true ∧ tree ≤ 8191 ∧ branch ≤ 31 ∧ s.tree tree = some t
    ∧ t.ops = []) ∧
(∃ (s : State) (h : HlyHdr) (quota : Nat), s.runs h 0x040B 0 0 [] = true ∧ quota ≤ 8) ∧
(∃ (s : State) (h : HlyHdr), s.runs h 0x040C 0 528 [] = true) ∧
(∃ (s : State) (h : HlyHdr) (force : Bool), s.runs h 0x040D 0 0 [] = true ∧ (s.rte.valid = false ∨ (force = true ∧ s.adm.contracts = [] ∧ s.adm.resvs
    = [] ∧ s.trn.sends = [] ∧ s.trn.recvs = []))) :=
  ⟨⟨(sR.upRte fun x => { x with ports := [(0, { kind := 1 })] }), hR, 3, 1023, 1, by decide +kernel⟩,
    ⟨sR, hR, 3, 960, by decide +kernel⟩,
    ⟨(sR.upRte fun x => { x with bank1 := { state := .written } }), hR, by decide +kernel⟩,
    ⟨(sR.upRte fun x => { x with bank1 := { state := .old } }), hR, by decide +kernel⟩,
    ⟨(sR.upPort 31 fun x => { x with mode := 1 }), hR, 31, 2, 1023, 63, by decide +kernel⟩,
    ⟨sR, hR, 6, 2, 65535, by decide +kernel⟩,
    ⟨(sR.upAdm fun x => { x with contracts := [(16383, { p := { contractId := 16383, inst := 0, sl := 6, aware := false, destType := 0, dest := [7], committed := 1000, peak := 2000, burst := 4160, maxPacket := 4160, bound := 10000000, replayAllowance := false, lateThreshold := 0, egressPorts := 2147483648, reefedSafe := false, remoteBudget := 0, hostStore := false }, tc := 0, tp := 0, refillAt := 0, hopBudget := 9, share := 5 })] }),
      hR, 16383, 1, 4, [1023, 2, 3, 4],
      { p := { contractId := 16383, inst := 0, sl := 6, aware := false, destType := 0, dest := [7], committed := 1000, peak := 2000, burst := 4160, maxPacket := 4160, bound := 10000000, replayAllowance := false, lateThreshold := 0, egressPorts := 2147483648, reefedSafe := false, remoteBudget := 0, hostStore := false }, tc := 0, tp := 0, refillAt := 0, hopBudget := 9, share := 5 },
      by decide +kernel⟩,
    ⟨sR, hR, 15, 35, by decide +kernel⟩,
    ⟨sR, hR, 15, 0, by decide +kernel⟩,
    ⟨(sR.upPort 31 fun x => { x with mode := 1 }), hR, 8191, 0x3F, 2147483648, [1], by decide +kernel⟩,
    ⟨(sR.upRte fun x => { x with trees := [(8191, { upstream := 1, branches := 12, loc := false, localEndpoint := 0, leaves := [] })] }), hR, 8191,
      { upstream := 1, branches := 12, loc := false, localEndpoint := 0, leaves := [] }, by decide +kernel⟩,
    ⟨(sR.upRte fun x => { x with trees := [(8191, { upstream := 1, branches := 12, loc := false, localEndpoint := 0, leaves := [], ops := [{ srcDevice := 7, inst := 5, op := 9, sl := 1, awaiting := [2, 3], delivered := 0, fenced := 0 }] })] }),
      hR, 8191,
      { upstream := 1, branches := 12, loc := false, localEndpoint := 0, leaves := [], ops := [{ srcDevice := 7, inst := 5, op := 9, sl := 1, awaiting := [2, 3], delivered := 0, fenced := 0 }] },
      by decide +kernel⟩,
    ⟨(sR.upRte fun x => { x with trees := [(8191, { upstream := 1, branches := 12, loc := false, localEndpoint := 0, leaves := [] })] }), hR, 8191,
      31, { upstream := 1, branches := 12, loc := false, localEndpoint := 0, leaves := [] }, by decide +kernel⟩,
    ⟨sR, hR, 8, by decide +kernel⟩,
    ⟨sR, hR, by decide +kernel⟩,
    ⟨sR, hR, true, by decide +kernel⟩⟩

theorem witness_AdmissionCommandsComplete :
(∃ (s : State) (h : HlyHdr) (c : ContractP), s.runs h 0x0501 0 0 [.contract c.contractId] = true ∧ c.sl ≤ 6 ∧ s.contractRates c = true ∧ 64 ≤
    c.maxPacket ∧ c.maxPacket ≤ 4160 ∧ (s.adm.contracts.any fun e => e.2.p.inst == c.inst && e.2.p.sl == c.sl && destMeet e.2.p c) = false ∧ 1000 ≤
    c.bound ∧ c.bound ≤ 10000000 ∧ c.maxPacket ≤ c.burst ∧ c.burst ≤ 16777216 ∧ s.tripFits c.egressPorts = true ∧ s.enabled c.inst = true ∧
    c.contractId ≤ 16383 ∧ s.adm.contracts.has c.contractId = false ∧ s.rateFits c.egressPorts c.committed 0 = true ∧ s.poolFits (portShare c.burst *
    (portsOf c.egressPorts).length) 0 = true ∧ s.contractBudget c + c.remoteBudget ≤ c.bound) ∧
(∃ (s : State) (h : HlyHdr) (id : Nat) (c : Contract), s.runs h 0x0502 0 0 [.contract id] = true ∧ s.adm.contracts.find id = some c) ∧
(∃ (s : State) (h : HlyHdr) (id : Nat) (c : Contract), s.runs h 0x0503 0 0 [.contract id] = true ∧ s.adm.contracts.find id = some c) ∧
(∃ (s : State) (h : HlyHdr) (id : Nat) (c : Contract), s.runs h 0x0504 0 68 [.contract id] = true ∧ s.adm.contracts.find id = some c) ∧
(∃ (s : State) (h : HlyHdr) (r : ResvP), s.runs h 0x0505 0 0 [.resv r.resvId] = true ∧ r.sl ≤ 6 ∧ s.resvRates r = true ∧ 64 ≤ r.maxPacket ∧
    r.maxPacket ≤ 4160 ∧ r.maxPacket ≤ r.burst ∧ r.burst ≤ 16777216 ∧ s.tripFits r.egressPorts = true ∧ r.resvId ≤ 32767 ∧ s.adm.resvs.has r.resvId =
    false ∧ s.rateFits r.egressPorts r.committed 0 = true ∧ s.poolFits (portShare r.burst * (if r.destination then 1 else (portsOf
    r.egressPorts).length)) 0 = true ∧ r.destination = false) ∧
(∃ (s : State) (h : HlyHdr) (r : ResvP), s.runs h 0x0505 0 0 [.resv r.resvId] = true ∧ r.sl ≤ 6 ∧ s.resvRates r = true ∧ 64 ≤ r.maxPacket ∧
    r.maxPacket ≤ 4160 ∧ r.maxPacket ≤ r.burst ∧ r.burst ≤ 16777216 ∧ s.tripFits r.egressPorts = true ∧ r.resvId ≤ 32767 ∧ s.adm.resvs.has r.resvId =
    false ∧ s.rateFits r.egressPorts r.committed 0 = true ∧ s.poolFits (portShare r.burst) 0 = true ∧ r.destination = true ∧ (∃ d, d < 16 ∧ (s.domain
    d).state ≠ .on)) ∧
(∃ (s : State) (h : HlyHdr) (id : Nat) (r : Resv), s.runs h 0x0506 0 0 [.resv id] = true ∧ s.adm.resvs.find id = some r ∧ r.used = 0) ∧
(∃ (s : State) (h : HlyHdr) (id : Nat) (r : Resv), s.runs h 0x0506 0 0 [.resv id] = true ∧ s.adm.resvs.find id = some r ∧ r.used ≠ 0) ∧
(∃ (s : State) (h : HlyHdr) (inst committed peak committedBurst peakBurst : Nat), s.runs h 0x0507 0 0 [.inst inst] = true ∧ (peak = 0 ∨ committed ≤
    peak) ∧ 64 ≤ committedBurst ∧ committedBurst ≤ 16777216 ∧ 64 ≤ peakBurst ∧ peakBurst ≤ 16777216 ∧ s.enabled inst = true) ∧
(∃ (s : State) (h : HlyHdr) (port fraction : Nat), s.runs h 0x0508 0 0 [.port port] = true ∧ port ≤ 31 ∧ fraction ≤ 56 ∧ 64 * s.reservedOn port ≤
    fraction * s.judgedMbps port ∧ fraction + 1 + (s.egress port).unresShare ≤ 64) :=
  ⟨⟨((sR.upPort 31 fun x => { x with mode := 1, channelOk := true, trainedRate := some 4, trainedWidth := some 3 }).upLport 31 fun x => { x with state := .up }),
      hR,
      { contractId := 16383, inst := 0, sl := 6, aware := false, destType := 0, dest := [7], committed := 1000, peak := 2000, burst := 4160, maxPacket := 4160, bound := 10000000, replayAllowance := false, lateThreshold := 0, egressPorts := 2147483648, reefedSafe := false, remoteBudget := 0, hostStore := false },
      by decide +kernel⟩,
    ⟨(sR.upAdm fun x => { x with contracts := [(16383, { p := { contractId := 16383, inst := 0, sl := 6, aware := false, destType := 0, dest := [7], committed := 1000, peak := 2000, burst := 4160, maxPacket := 4160, bound := 10000000, replayAllowance := false, lateThreshold := 0, egressPorts := 2147483648, reefedSafe := false, remoteBudget := 0, hostStore := false }, tc := 0, tp := 0, refillAt := 0, hopBudget := 9, share := 5 })] }),
      hR, 16383,
      { p := { contractId := 16383, inst := 0, sl := 6, aware := false, destType := 0, dest := [7], committed := 1000, peak := 2000, burst := 4160, maxPacket := 4160, bound := 10000000, replayAllowance := false, lateThreshold := 0, egressPorts := 2147483648, reefedSafe := false, remoteBudget := 0, hostStore := false }, tc := 0, tp := 0, refillAt := 0, hopBudget := 9, share := 5 },
      by decide +kernel⟩,
    ⟨(sR.upAdm fun x => { x with contracts := [(16383, { p := { contractId := 16383, inst := 0, sl := 6, aware := false, destType := 0, dest := [7], committed := 1000, peak := 2000, burst := 4160, maxPacket := 4160, bound := 10000000, replayAllowance := false, lateThreshold := 0, egressPorts := 2147483648, reefedSafe := false, remoteBudget := 0, hostStore := false }, tc := 0, tp := 0, refillAt := 0, hopBudget := 9, share := 5 })] }),
      hR, 16383,
      { p := { contractId := 16383, inst := 0, sl := 6, aware := false, destType := 0, dest := [7], committed := 1000, peak := 2000, burst := 4160, maxPacket := 4160, bound := 10000000, replayAllowance := false, lateThreshold := 0, egressPorts := 2147483648, reefedSafe := false, remoteBudget := 0, hostStore := false }, tc := 0, tp := 0, refillAt := 0, hopBudget := 9, share := 5 },
      by decide +kernel⟩,
    ⟨(sR.upAdm fun x => { x with contracts := [(16383, { p := { contractId := 16383, inst := 0, sl := 6, aware := false, destType := 0, dest := [7], committed := 1000, peak := 2000, burst := 4160, maxPacket := 4160, bound := 10000000, replayAllowance := false, lateThreshold := 0, egressPorts := 2147483648, reefedSafe := false, remoteBudget := 0, hostStore := false }, tc := 0, tp := 0, refillAt := 0, hopBudget := 9, share := 5 })] }),
      hR, 16383,
      { p := { contractId := 16383, inst := 0, sl := 6, aware := false, destType := 0, dest := [7], committed := 1000, peak := 2000, burst := 4160, maxPacket := 4160, bound := 10000000, replayAllowance := false, lateThreshold := 0, egressPorts := 2147483648, reefedSafe := false, remoteBudget := 0, hostStore := false }, tc := 0, tp := 0, refillAt := 0, hopBudget := 9, share := 5 },
      by decide +kernel⟩,
    ⟨((sR.upPort 31 fun x => { x with mode := 1, channelOk := true, trainedRate := some 4, trainedWidth := some 3 }).upLport 31 fun x => { x with state := .up }),
      hR,
      { resvId := 32767, srcDevice := 7, inst := 5, sl := 6, destination := false, egressPorts := 2147483648, committed := 1000, burst := 4160, maxPacket := 4160, replayAllowance := false, reefedSafe := false },
      by decide +kernel⟩,
    ⟨((sR.upPort 31 fun x => { x with mode := 1, channelOk := true, trainedRate := some 4, trainedWidth := some 3 }).upLport 31 fun x => { x with state := .up }).upDomain 15 fun x => { x with state := .sleep },
      hR,
      { resvId := 32767, srcDevice := 7, inst := 5, sl := 6, destination := true, egressPorts := 0, committed := 1000, burst := 4160, maxPacket := 4160, replayAllowance := false, reefedSafe := false },
      by decide +kernel⟩,
    ⟨(sR.upAdm fun x => { x with resvs := [(32767, { p := { resvId := 32767, srcDevice := 7, inst := 5, sl := 6, destination := false, egressPorts := 2147483648, committed := 1000, burst := 4160, maxPacket := 4160, replayAllowance := false, reefedSafe := false }, hopBudget := 9, share := 5, used := 0, releasing := false })] }),
      hR, 32767,
      { p := { resvId := 32767, srcDevice := 7, inst := 5, sl := 6, destination := false, egressPorts := 2147483648, committed := 1000, burst := 4160, maxPacket := 4160, replayAllowance := false, reefedSafe := false }, hopBudget := 9, share := 5, used := 0, releasing := false },
      by decide +kernel⟩,
    ⟨(sR.upAdm fun x => { x with resvs := [(32767, { p := { resvId := 32767, srcDevice := 7, inst := 5, sl := 6, destination := false, egressPorts := 2147483648, committed := 1000, burst := 4160, maxPacket := 4160, replayAllowance := false, reefedSafe := false }, hopBudget := 9, share := 5, used := 1, releasing := false })] }),
      hR, 32767,
      { p := { resvId := 32767, srcDevice := 7, inst := 5, sl := 6, destination := false, egressPorts := 2147483648, committed := 1000, burst := 4160, maxPacket := 4160, replayAllowance := false, reefedSafe := false }, hopBudget := 9, share := 5, used := 1, releasing := false },
      by decide +kernel⟩,
    ⟨sR, hR, 0, 5, 5, 16777216, 64, by decide +kernel⟩,
    ⟨sR, hR, 31, 55, by decide +kernel⟩⟩

theorem witness_RoutingEventsTakeEffect :
(∃ (s : State) (tree : Nat) (t : Tree), s.tree tree = some t ∧ t.removing = true ∧ s.treePending tree = false) ∧
(∃ (s : State) (port n : Nat), s.awake = true ∧ s.forwarding = true ∧ s.linkUp port = true ∧ 1 ≤ n ∧ n ≤ 15) ∧
(∃ (s : State) (port n k : Nat) (ports : RoutePorts), s.awake = true ∧ s.forwarding = true ∧ s.linkUp port = true ∧ 1 ≤ k ∧ k < n ∧ n ≤ 15 ∧ s.linkUp
    (ports.outPorts.getD k 0) = true) ∧
(∃ (s : State) (port : Nat), s.awake = true ∧ s.forwarding = true ∧ s.linkUp port = true) ∧
(∃ (s : State) (id : Nat) (r : Resv), s.adm.resvs.find id = some r ∧ r.releasing = true ∧ r.used = 0) ∧
(∃ (s : State) (id : Nat) (r : Resv), s.adm.resvs.find id = some r ∧ r.releasing = true ∧ r.used ≠ 0) :=
  ⟨⟨(sR.upRte fun x => { x with trees := [(8191, { upstream := 1, branches := 12, loc := false, localEndpoint := 0, leaves := [], removing := true })] }),
      8191, { upstream := 1, branches := 12, loc := false, localEndpoint := 0, leaves := [], removing := true }, by decide +kernel⟩,
    ⟨((sR.upPort 31 fun x => { x with mode := 1 }).upLport 31 fun x => { x with state := .up }), 31, 15, by decide +kernel⟩,
    ⟨((((sR.upPort 31 fun x => { x with mode := 1 }).upLport 31 fun x => { x with state := .up }).upPort 30 fun x => { x with mode := 1 }).upLport 30 fun x => { x with state := .up }),
      31, 15, 14, { outPorts := [0,1,2,3,4,5,6,7,8,9,10,11,12,13,30], retPorts := [] }, by decide +kernel⟩,
    ⟨((sR.upPort 31 fun x => { x with mode := 1 }).upLport 31 fun x => { x with state := .up }), 31, by decide +kernel⟩,
    ⟨(sR.upAdm fun x => { x with resvs := [(32767, { p := { resvId := 32767, srcDevice := 7, inst := 5, sl := 6, destination := false, egressPorts := 2147483648, committed := 1000, burst := 4160, maxPacket := 4160, replayAllowance := false, reefedSafe := false }, hopBudget := 9, share := 5, used := 0, releasing := true })] }),
      32767,
      { p := { resvId := 32767, srcDevice := 7, inst := 5, sl := 6, destination := false, egressPorts := 2147483648, committed := 1000, burst := 4160, maxPacket := 4160, replayAllowance := false, reefedSafe := false }, hopBudget := 9, share := 5, used := 0, releasing := true },
      by decide +kernel⟩,
    ⟨(sR.upAdm fun x => { x with resvs := [(32767, { p := { resvId := 32767, srcDevice := 7, inst := 5, sl := 6, destination := false, egressPorts := 2147483648, committed := 1000, burst := 4160, maxPacket := 4160, replayAllowance := false, reefedSafe := false }, hopBudget := 9, share := 5, used := 1, releasing := true })] }),
      32767,
      { p := { resvId := 32767, srcDevice := 7, inst := 5, sl := 6, destination := false, egressPorts := 2147483648, committed := 1000, burst := 4160, maxPacket := 4160, replayAllowance := false, reefedSafe := false }, hopBudget := 9, share := 5, used := 1, releasing := true },
      by decide +kernel⟩⟩

theorem witness_TimeEventsTakeEffect :
(∃ (s : State), s.forwarding = true ∧ s.ftu.fastExchange = false ∧ s.ftu.exchange < 65536) ∧
(∃ (s : State) (port : Nat), s.awake = true ∧ s.forwarding = true ∧ s.linkUp port = true) ∧
(∃ (s : State) (port x : Nat), s.awake = true ∧ s.forwarding = true ∧ (s.ftu.ports.get port {}).outstanding = some x) ∧
(∃ (s : State), s.isChild = true ∧ s.forwarding = true ∧ s.ftu.sync ≠ .unsynchronised) ∧
(∃ (s : State) (t : Nat), s.masthead = some t) ∧
(∃ (s : State), s.pwr.mode ≠ .stormJib) ∧
(∃ (s : State), s.ftu.grandmaster = true ∧ s.ftu.ppsIn = true) ∧
(∃ (s : State), s.ftu.ppsOut = true ∧ s.mgc.ppsSel = 0 ∧ s.pwr.mode ≠ .barePoles) :=
  ⟨⟨((sR.upPort 31 fun x => { x with mode := 1 }).upLport 31 fun x => { x with state := .up }), by decide +kernel⟩,
    ⟨((sR.upPort 31 fun x => { x with mode := 1 }).upLport 31 fun x => { x with state := .up }), 31, by decide +kernel⟩,
    ⟨(((sR.upPort 31 fun x => { x with mode := 1 }).upLport 31 fun x => { x with state := .up }).upFtu fun x => { x with ports := [(31, { outstanding := some 9 })] }),
      31, 9, by decide +kernel⟩,
    ⟨(sR.upFtu fun x => { x with parentSet := true, parentPort := 31, sync := .synchronised }), by decide +kernel⟩,
    ⟨{ sR with masthead := some 7 }, 7, by decide +kernel⟩,
    ⟨sR, by decide +kernel⟩,
    ⟨(sR.upFtu fun x => { x with grandmaster := true, ppsIn := true }), by decide +kernel⟩,
    ⟨(sR.upFtu fun x => { x with ppsOut := true }), by decide +kernel⟩⟩

theorem witness_SwitchCommandsComplete :
(∃ (s : State) (h : HlyHdr) (account minReserve alphaExp mark : Nat), s.runs h 0x0601 0 0 [] = true ∧ account ≤ 235 ∧ 34 ≤ minReserve ∧ minReserve ≤
    4096 ∧ alphaExp ≤ 7 ∧ alphaExp ≠ 4 ∧ mark ≤ 1048575 ∧ s.reserveAfter [account] minReserve + s.obf.poolSize ≤ 1048576 ∧ s.reserveFits [account]
    minReserve = true) ∧
(∃ (s : State) (h : HlyHdr) (minReserve alphaExp mark : Nat), s.runs h 0x0601 0 0 [] = true ∧ 34 ≤ minReserve ∧ minReserve ≤ 4096 ∧ alphaExp ≤ 7 ∧
    alphaExp ≠ 4 ∧ mark ≤ 1048575 ∧ s.reserveAfter (List.range 236) minReserve + s.obf.poolSize ≤ 1048576 ∧ s.reserveFits (List.range 236) minReserve
    = true) ∧
(∃ (s : State) (h : HlyHdr) (pool : Nat), s.runs h 0x0602 0 0 [] = true ∧ pool ≤ 1048575 ∧ s.obf.sumReserve + pool ≤ 1048576 ∧ pool ≤ s.obf.poolSize +
    s.sharedFree ∧ s.poolReserved ≤ pool) ∧
(∃ (s : State) (h : HlyHdr) (ms : Nat), s.runs h 0x0603 0 0 [] = true ∧ 1 ≤ ms ∧ ms ≤ 50) ∧
(∃ (s : State) (h : HlyHdr), s.runs h 0x0604 0 0 [] = true ∧ s.obf.audit.passDone = true) ∧
(∃ (s : State) (h : HlyHdr) (c : Nat) (t : CellTag), s.runs h 0x0604 0 0 [] = true ∧ s.obf.audit.passDone = true ∧ s.obf.audit.orphans = [(c, t)] ∧
    s.obf.cells.find c = some t) ∧
(∃ (s : State) (h : HlyHdr) (queue : Nat), s.runs h 0x0604 0 0 [] = true ∧ s.obf.audit.passDone = true ∧ queue < 0xFFFF ∧ s.obf.pkts = []) ∧
(∃ (s : State) (h : HlyHdr) (account : Nat), account ≤ 235 ∧ s.runs h 0x0605 0 20 [] = true) ∧
(∃ (s : State) (h : HlyHdr), s.runs h 0x0605 0 16 [] = true) ∧
(∃ (s : State) (h : HlyHdr) (output sl inst queue weight rate burst : Nat), s.runs h 0x0606 0 0 [.inst inst, .leaf queue] = true ∧ output ≤ 35 ∧ sl ≤
    6 ∧ inst ≤ 1023 ∧ 0x0800 ≤ queue ∧ queue ≤ 0xFFFE ∧ 1 ≤ weight ∧ weight ≤ 255 ∧ rate ≤ 3200000 ∧ 4224 ≤ burst ∧ burst ≤ 16777216 ∧
    s.egs.leaves.has queue = false ∧ (s.egs.leaves.any fun l => l.2.output == output && l.2.sl == sl && l.2.inst == inst) = false ∧ s.enabled inst =
    true) ∧
(∃ (s : State) (h : HlyHdr) (queue : Nat) (l : Leaf), s.runs h 0x0607 0 0 [.leaf queue] = true ∧ 0x0800 ≤ queue ∧ queue ≤ 0xFFFE ∧ s.egs.leaves.find
    queue = some l ∧ s.queueBusy queue = false) ∧
(∃ (s : State) (h : HlyHdr) (queue : Nat) (l : Leaf), s.runs h 0x0607 0 0 [.leaf queue] = true ∧ 0x0800 ≤ queue ∧ queue ≤ 0xFFFE ∧ s.egs.leaves.find
    queue = some l ∧ s.queueBusy queue = true) ∧
(∃ (s : State) (h : HlyHdr) (target output sl weight rate burst : Nat), (target = 1 ∨ target = 2) ∧ s.runs h 0x0608 0 0 [] = true ∧ output ≤ 35 ∧ sl ≤
    6 ∧ 1 ≤ weight ∧ weight ≤ 255 ∧ rate ≤ 3200000 ∧ 4224 ≤ burst ∧ burst ≤ 16777216) ∧
(∃ (s : State) (h : HlyHdr) (output queue weight rate burst : Nat) (l : Leaf), s.runs h 0x0608 0 0 [.leaf queue] = true ∧ output ≤ 35 ∧ 0x0800 ≤ queue
    ∧ queue ≤ 0xFFFE ∧ s.egs.leaves.find queue = some l ∧ 1 ≤ weight ∧ weight ≤ 255 ∧ rate ≤ 3200000 ∧ 4224 ≤ burst ∧ burst ≤ 16777216) ∧
(∃ (s : State) (h : HlyHdr) (output cm rate : Nat), s.runs h 0x0608 0 0 [] = true ∧ output ≤ 35 ∧ cmBit cm 1 = true ∧ rate ≤ 8 ∧ (output < 32 →
    (s.admPort output).fraction + 1 + rate ≤ 64)) ∧
(∃ (s : State) (h : HlyHdr) (target output sl queue : Nat), s.runs h 0x0609 0 28 [] = true ∧ target ≤ 3 ∧ output ≤ 35 ∧ sl ≤ 6 ∧ (target = 0 → 0x0800
    ≤ queue ∧ queue ≤ 0xFFFE ∧ s.egs.leaves.has queue = true)) ∧
(∃ (s : State) (h : HlyHdr) (resource index cm : Nat) (compat : Bool) (thr requester weight : Nat), s.runs h 0x060A 0 0 [] = true ∧ resource ≤ 3 ∧
    index < arbCount resource ∧ 10 ≤ thr ∧ thr ≤ 24 ∧ 1 ≤ weight ∧ weight ≤ 255 ∧ requester < arbRequesters resource ∧ (resource = 0 → cmBit cm 0 =
    true → compat = true → (s.arbiter 0 index).compat = true ∨ s.controlFigure index = false)) ∧
(∃ (s : State) (h : HlyHdr) (resource index : Nat), s.runs h 0x060B 0 32 [] = true ∧ resource ≤ 3 ∧ index < arbCount resource) :=
  ⟨⟨sR, hR, 235, 4096, 7, 1048575, by decide +kernel⟩,
    ⟨sR, hR, 34, 7, 1048575, by decide +kernel⟩,
    ⟨sR, hR, 1000, by decide +kernel⟩,
    ⟨sR, hR, 50, by decide +kernel⟩,
    ⟨(sR.upObf fun x => { x with audit := { x.audit with passDone := true }, unlisted := [5] }), hR, by decide +kernel⟩,
    ⟨(sR.upObf fun x => { x with audit := { x.audit with passDone := true, orphans := [(1048575, { state := .linked, owner := 3 })] }, cells := [(1048575, { state := .linked, owner := 3 })] }),
      hR, 1048575, { state := .linked, owner := 3 }, by decide +kernel⟩,
    ⟨(sR.upObf fun x => { x with audit := { x.audit with passDone := true } }), hR, 0xFFFE, by decide +kernel⟩,
    ⟨sR, hR, 235, by decide +kernel⟩,
    ⟨sR, hR, by decide +kernel⟩,
    ⟨sR, hR, 35, 6, 0, 0xFFFE, 255, 3200000, 16777216, by decide +kernel⟩,
    ⟨(sR.upEgs fun x => { x with leaves := [(0xFFFE, { output := 35, sl := 6, inst := 0, child := {} })] }), hR, 0xFFFE,
      { output := 35, sl := 6, inst := 0, child := {} }, by decide +kernel⟩,
    ⟨((sR.upEgs fun x => { x with leaves := [(0xFFFE, { output := 35, sl := 6, inst := 0, child := {} })] }).upObf fun x => { x with pkts := [{ pkt := { pid := 1, hdr := {  } }, len := 64, input := 32, rxVl := 0, output := 0, vl := 0, queue := 65534, account := 0, charge := .none, takeR := 0, takeM := 0, takeS := 0, cells := [5], written := 1, routedAt := 0, sequenced := false, fromLocal := true }] }),
      hR, 0xFFFE, { output := 35, sl := 6, inst := 0, child := {} }, by decide +kernel⟩,
    ⟨sR, hR, 2, 35, 6, 255, 3200000, 4224, by decide +kernel⟩,
    ⟨(sR.upEgs fun x => { x with leaves := [(0xFFFE, { output := 35, sl := 6, inst := 0, child := {} })] }), hR, 0, 0xFFFE, 255, 3200000, 4224,
      { output := 35, sl := 6, inst := 0, child := {} }, by decide +kernel⟩,
    ⟨sR, hR, 35, 2, 8, by decide +kernel⟩,
    ⟨(sR.upEgs fun x => { x with leaves := [(0xFFFE, { output := 35, sl := 6, inst := 0, child := {} })] }), hR, 0, 0, 0, 0xFFFE, by decide +kernel⟩,
    ⟨sR, hR, 3, 0, 7, false, 24, 0, 255, by decide +kernel⟩,
    ⟨sR, hR, 3, 0, by decide +kernel⟩⟩

theorem witness_SwitchEventsTakeEffect :
(∃ (s : State) (input : Nat) (p : Packet), s.awake = true ∧ s.forwarding = true ∧ input < 32 ∧ s.isHostLink input = false ∧ s.rte.valid = true ∧
    consumedAtPort p.hdr = false ∧ p.hdr.multicast = false ∧ p.hdr.colour = 0 ∧ p.hdr.sl ≤ 6 ∧ p.hdr.destDevice = s.rte.deviceId) ∧
(∃ (s : State) (input : Nat) (p : Packet), s.forwarding = true ∧ 32 ≤ input ∧ input ≤ 35 ∧ p.hdr.sl = 7 ∧ p.hdr.inst = 0 ∧ p.hdr.multicast = false) ∧
(∃ (s : State) (w : WaitPkt), s.forwarding = true ∧ s.rte.valid = true ∧ s.obf.waiting = [w] ∧ w.outs = [] ∧ w.edgeWait = false ∧ w.built = false ∧
    w.pkt.hdr.multicast = false ∧ w.pkt.hdr.destDevice = s.rte.deviceId) ∧
(∃ (s : State) (w : WaitPkt) (o vl : Nat), s.forwarding = true ∧ s.obf.waiting = [w] ∧ w.outs = [(o, vl)] ∧ w.edgeWait = false ∧ w.built = false ∧
    w.pkt.hdr.multicast = false ∧ isGreen w.pkt.hdr = false ∧ cellsOf w.len ≤ (s.account (accountOf o vl)).reserveFree) ∧
(∃ (s : State) (o : Nat) (b : BufPkt), s.forwarding = true ∧ o ≤ 35 ∧ (s.egress o).sending = none ∧ (s.egress o).resume = [] ∧ (s.lport o).toReplay =
    [] ∧ (s.lport o).replaying = none ∧ (s.lport o).replayCut = none ∧ (s.lport o).inject = {} ∧ (s.refillEgress o).mgmtHead o = some b ∧ b.output =
    o) ∧
(∃ (s : State) (o progress : Nat) (f : Sending) (b c : BufPkt) (t : State), s.forwarding = true ∧ o ≤ 35 ∧ (s.egress o).sending = some f ∧ s.bufPkt
    c.pkt.pid o = some c ∧ s.bufPkt f.pid o = some b ∧ c.output = o ∧ s.slotTaken o b.vl f.pid = false ∧ progress < flitsOf b.len ∧ f.progress ≤
    progress ∧ ((s.refillEgress o).holdFrame o b progress).cutter o b.pkt.hdr = some (c, t)) ∧
(∃ (s : State) (o vl : Nat) (r : ResumeSlot), s.forwarding = true ∧ (s.egress o).resume.find vl = some r ∧ (s.egress o).sending = none ∧ s.canResume o
    r = true) ∧
(∃ (s : State) (b : BufPkt), s.forwarding = true ∧ s.obf.pkts = [b] ∧ b.written = 0 ∧ 2 ≤ b.cells.length ∧ s.csc.a.pairs = [] ∧ s.csc.b.pairs = [] ∧
    s.csc.come = [] ∧ s.csc.back = []) ∧
(∃ (s : State) (w : WaitPkt), s.obf.waiting = [w] ∧ w.edgeWait = true ∧ w.pkt.hdr.sl ≤ 6 ∧ w.pkt.hdr.multicast = false ∧ s.contractFor w.pkt.hdr =
    none ∧ (s.adm.meters.get w.pkt.hdr.inst {}).peak = 0) ∧
(∃ (s : State), s.obf.audit.enabled = true) ∧
(∃ (s : State) (queue : Nat) (l : Leaf), s.egs.leaves.find queue = some l ∧ l.unbinding = true ∧ s.queueBusy queue = false) ∧
(∃ (resource index requester : Nat), resource ≤ 3 ∧ index < arbCount resource ∧ requester < arbRequesters resource) ∧
(∃ (s : State) (o progress n : Nat) (c : BufPkt) (t : State), s.forwarding = true ∧ o ≤ 35 ∧ (s.egress o).sending = none ∧ (s.lport o).replaying =
    none ∧ s.bufPkt c.pkt.pid o = some c ∧ c.output = o ∧ (s.egress o).backSending = some n ∧ 64 * progress < n ∧ ((s.refillEgress o).upEgress o fun e
    =>
    { e with background := (n - 64 * progress) :: e.background, backSending := none, sliceTokens := e.sliceTokens + (3200000 * (n - 64 * progress) : Nat) }).cutter
    o { data := true } = some (c, t)) ∧
(∃ (s : State) (o progress : Nat) (f : ReplayFrame) (c : BufPkt) (t : State), s.forwarding = true ∧ o ≤ 31 ∧ (s.egress o).sending = none ∧ s.bufPkt
    c.pkt.pid o = some c ∧ (s.lport o).replaying = some f.seq ∧ (s.lport o).replay.find? (fun x => x.seq == f.seq) = some f ∧ c.output = o ∧
    s.slotHeld o f.vl = false ∧ progress < f.flits ∧ ((s.refillEgress o).holdReplay o f progress).cutter o f.pkt.hdr = some (c, t)) :=
  ⟨⟨sR, 31, { pid := 9, hdr := { destDevice := 0, inst := 0, sl := 6 } }, by decide +kernel⟩,
    ⟨sR, 35, { pid := 9, hdr := { destDevice := 0, inst := 0, sl := 7 } }, by decide +kernel⟩,
    ⟨(sR.upObf fun x => { x with waiting := [{ pkt := { pid := 9, hdr := { destDevice := 0, inst := 0, sl := 6 } }, len := 64, input := 31, rxVl := 0, routedAt := 0, outs := [], fromLocal := false, sequenced := false, edgeWait := false }] }),
      { pkt := { pid := 9, hdr := { destDevice := 0, inst := 0, sl := 6 } }, len := 64, input := 31, rxVl := 0, routedAt := 0, outs := [], fromLocal := false, sequenced := false, edgeWait := false },
      by decide +kernel⟩,
    ⟨(sR.upObf fun x => { x with waiting := [{ pkt := { pid := 9, hdr := { destDevice := 0, inst := 0, sl := 6 } }, len := 64, input := 31, rxVl := 0, routedAt := 0, outs := [(3, 1)], fromLocal := false, sequenced := false, edgeWait := false }] }),
      { pkt := { pid := 9, hdr := { destDevice := 0, inst := 0, sl := 6 } }, len := 64, input := 31, rxVl := 0, routedAt := 0, outs := [(3, 1)], fromLocal := false, sequenced := false, edgeWait := false },
      3, 1, by decide +kernel⟩,
    ⟨((((sR.upPort 31 fun x => { x with mode := 1 }).upLport 31 fun x => { x with state := .up }).upLport 31 fun x => { x with vls := [(0, { limit := 1984 }), (1, { limit := 1984 }), (6, { limit := 384 })] }).upObf fun x => { x with pkts := [{ pkt := { pid := 1, hdr := { sl := 7 } }, len := 64, input := 32, rxVl := 0, output := 31, vl := 6, queue := 95, account := 0, charge := .none, takeR := 0, takeM := 0, takeS := 0, cells := [5], written := 1, routedAt := 0, sequenced := false, fromLocal := true }] }),
      31,
      { pkt := { pid := 1, hdr := { sl := 7 } }, len := 64, input := 32, rxVl := 0, output := 31, vl := 6, queue := 95, account := 0, charge := .none, takeR := 0, takeM := 0, takeS := 0, cells := [5], written := 1, routedAt := 0, sequenced := false, fromLocal := true },
      by decide +kernel⟩,
    ⟨(((((sR.upPort 31 fun x => { x with mode := 1 }).upLport 31 fun x => { x with state := .up }).upLport 31 fun x => { x with vls := [(0, { limit := 1984 }), (1, { limit := 1984 }), (6, { limit := 384 })] }).upObf fun x => { x with pkts := [{ pkt := { pid := 1, hdr := { data := true, sl := 1 } }, len := 256, input := 32, rxVl := 0, output := 31, vl := 1, queue := 2048, account := 0, charge := .none, takeR := 0, takeM := 0, takeS := 0, cells := [5, 6], written := 2, routedAt := 0, sequenced := false, fromLocal := true }, { pkt := { pid := 2, hdr := { sl := 7 } }, len := 64, input := 32, rxVl := 0, output := 31, vl := 6, queue := 95, account := 0, charge := .none, takeR := 0, takeM := 0, takeS := 0, cells := [7], written := 1, routedAt := 0, sequenced := false, fromLocal := true }] }).upEgs fun x => { x with port := x.port }).upEgress 31 fun e => { e with sending := some { pid := 1, progress := 2 } },
      31, 3, { pid := 1, progress := 2 },
      { pkt := { pid := 1, hdr := { data := true, sl := 1 } }, len := 256, input := 32, rxVl := 0, output := 31, vl := 1, queue := 2048, account := 0, charge := .none, takeR := 0, takeM := 0, takeS := 0, cells := [5, 6], written := 2, routedAt := 0, sequenced := false, fromLocal := true },
      { pkt := { pid := 2, hdr := { sl := 7 } }, len := 64, input := 32, rxVl := 0, output := 31, vl := 6, queue := 95, account := 0, charge := .none, takeR := 0, takeM := 0, takeS := 0, cells := [7], written := 1, routedAt := 0, sequenced := false, fromLocal := true },
      ((((((((((sR.upPort 31 fun x => { x with mode := 1 }).upLport 31 fun x => { x with state := .up }).upLport 31 fun x => { x with vls := [(0, { limit := 1984 }), (1, { limit := 1984 }), (6, { limit := 384 })] }).upObf fun x => { x with pkts := [{ pkt := { pid := 1, hdr := { data := true, sl := 1 } }, len := 256, input := 32, rxVl := 0, output := 31, vl := 1, queue := 2048, account := 0, charge := .none, takeR := 0, takeM := 0, takeS := 0, cells := [5, 6], written := 2, routedAt := 0, sequenced := false, fromLocal := true }, { pkt := { pid := 2, hdr := { sl := 7 } }, len := 64, input := 32, rxVl := 0, output := 31, vl := 6, queue := 95, account := 0, charge := .none, takeR := 0, takeM := 0, takeS := 0, cells := [7], written := 1, routedAt := 0, sequenced := false, fromLocal := true }] }).upEgs fun x => { x with port := x.port }).upEgress 31 fun e => { e with sending := some { pid := 1, progress := 2 } }).refillEgress 31).holdFrame 31 { pkt := { pid := 1, hdr := { data := true, sl := 1 } }, len := 256, input := 32, rxVl := 0, output := 31, vl := 1, queue := 2048, account := 0, charge := .none, takeR := 0, takeM := 0, takeS := 0, cells := [5, 6], written := 2, routedAt := 0, sequenced := false, fromLocal := true } 3).cutter 31 ({ pkt := { pid := 1, hdr := { data := true, sl := 1 } }, len := 256, input := 32, rxVl := 0, output := 31, vl := 1, queue := 2048, account := 0, charge := .none, takeR := 0, takeM := 0, takeS := 0, cells := [5, 6], written := 2, routedAt := 0, sequenced := false, fromLocal := true } : BufPkt).pkt.hdr).elim sR (·.2)),
      by decide +kernel⟩,
    ⟨(((sR.upPort 31 fun x => { x with mode := 1 }).upLport 31 fun x => { x with state := .up }).upObf fun x => { x with pkts := [{ pkt := { pid := 1, hdr := { data := true, sl := 1 } }, len := 256, input := 32, rxVl := 0, output := 31, vl := 1, queue := 2048, account := 0, charge := .none, takeR := 0, takeM := 0, takeS := 0, cells := [5, 6], written := 2, routedAt := 0, sequenced := false, fromLocal := true }] }).upEgress 31 fun e => { e with resume := [(1, { queue := 0x800, pid := 1, firstCell := 5, progress := 2, stalled := false })] },
      31, 1, { queue := 0x800, pid := 1, firstCell := 5, progress := 2, stalled := false }, by decide +kernel⟩,
    ⟨(sR.upObf fun x => { x with pkts := [{ pkt := { pid := 1, hdr := {  } }, len := 64, input := 32, rxVl := 0, output := 3, vl := 1, queue := 2048, account := 0, charge := .none, takeR := 0, takeM := 0, takeS := 0, cells := [5, 6], written := 0, routedAt := 0, sequenced := false, fromLocal := true }] }),
      { pkt := { pid := 1, hdr := {  } }, len := 64, input := 32, rxVl := 0, output := 3, vl := 1, queue := 2048, account := 0, charge := .none, takeR := 0, takeM := 0, takeS := 0, cells := [5, 6], written := 0, routedAt := 0, sequenced := false, fromLocal := true },
      by decide +kernel⟩,
    ⟨(sR.upObf fun x => { x with waiting := [{ pkt := { pid := 9, hdr := { destDevice := 0, inst := 0, sl := 6 } }, len := 64, input := 31, rxVl := 0, routedAt := 0, outs := [], fromLocal := false, sequenced := false, edgeWait := true }] }),
      { pkt := { pid := 9, hdr := { destDevice := 0, inst := 0, sl := 6 } }, len := 64, input := 31, rxVl := 0, routedAt := 0, outs := [], fromLocal := false, sequenced := false, edgeWait := true },
      by decide +kernel⟩,
    ⟨(sR.upObf fun x => { x with audit := { x.audit with enabled := true } }), by decide +kernel⟩,
    ⟨(sR.upEgs fun x => { x with leaves := [(0xFFFE, { output := 35, sl := 6, inst := 0, child := {}, unbinding := true })] }), 0xFFFE,
      { output := 35, sl := 6, inst := 0, child := {}, unbinding := true }, by decide +kernel⟩,
    ⟨3, 0, 0, by decide +kernel⟩,
    ⟨(((((sR.upPort 31 fun x => { x with mode := 1 }).upLport 31 fun x => { x with state := .up }).upLport 31 fun x => { x with vls := [(0, { limit := 1984 }), (1, { limit := 1984 }), (6, { limit := 384 })] }).upObf fun x => { x with pkts := [{ pkt := { pid := 2, hdr := { sl := 7 } }, len := 64, input := 32, rxVl := 0, output := 31, vl := 6, queue := 95, account := 0, charge := .none, takeR := 0, takeM := 0, takeS := 0, cells := [7], written := 1, routedAt := 0, sequenced := false, fromLocal := true }] }).upEgs fun x => { x with port := x.port }).upEgress 31 fun e => { e with backSending := some 256 },
      31, 1, 256,
      { pkt := { pid := 2, hdr := { sl := 7 } }, len := 64, input := 32, rxVl := 0, output := 31, vl := 6, queue := 95, account := 0, charge := .none, takeR := 0, takeM := 0, takeS := 0, cells := [7], written := 1, routedAt := 0, sequenced := false, fromLocal := true },
      (((((((((sR.upPort 31 fun x => { x with mode := 1 }).upLport 31 fun x => { x with state := .up }).upLport 31 fun x => { x with vls := [(0, { limit := 1984 }), (1, { limit := 1984 }), (6, { limit := 384 })] }).upObf fun x => { x with pkts := [{ pkt := { pid := 2, hdr := { sl := 7 } }, len := 64, input := 32, rxVl := 0, output := 31, vl := 6, queue := 95, account := 0, charge := .none, takeR := 0, takeM := 0, takeS := 0, cells := [7], written := 1, routedAt := 0, sequenced := false, fromLocal := true }] }).upEgs fun x => { x with port := x.port }).upEgress 31 fun e => { e with backSending := some 256 }).refillEgress 31).upEgress 31 fun e => { e with background := (256 - 64 * 1) :: e.background, backSending := none, sliceTokens := e.sliceTokens + (3200000 * (256 - 64 * 1) : Nat) }).cutter 31 { data := true }).elim sR (·.2),
      by decide +kernel⟩,
    ⟨(((((sR.upPort 31 fun x => { x with mode := 1 }).upLport 31 fun x => { x with state := .up }).upLport 31 fun x => { x with vls := [(0, { limit := 1984 }), (1, { limit := 1984 }), (6, { limit := 384 })] }).upObf fun x => { x with pkts := [{ pkt := { pid := 2, hdr := { sl := 7 } }, len := 64, input := 32, rxVl := 0, output := 31, vl := 6, queue := 95, account := 0, charge := .none, takeR := 0, takeM := 0, takeS := 0, cells := [7], written := 1, routedAt := 0, sequenced := false, fromLocal := true }] }).upLport 31 fun x => { x with replaying := some 4, replay := [{ seq := 4, vl := 1, flits := 5, pkt := { pid := 8, hdr := { data := true, sl := 1 } }, len := 256, sequenced := false, stamp := 0, sent := 5 }], toReplay := [5] }),
      31, 3,
      { seq := 4, vl := 1, flits := 5, pkt := { pid := 8, hdr := { data := true, sl := 1 } }, len := 256, sequenced := false, stamp := 0, sent := 5 },
      { pkt := { pid := 2, hdr := { sl := 7 } }, len := 64, input := 32, rxVl := 0, output := 31, vl := 6, queue := 95, account := 0, charge := .none, takeR := 0, takeM := 0, takeS := 0, cells := [7], written := 1, routedAt := 0, sequenced := false, fromLocal := true },
      (((((((((sR.upPort 31 fun x => { x with mode := 1 }).upLport 31 fun x => { x with state := .up }).upLport 31 fun x => { x with vls := [(0, { limit := 1984 }), (1, { limit := 1984 }), (6, { limit := 384 })] }).upObf fun x => { x with pkts := [{ pkt := { pid := 2, hdr := { sl := 7 } }, len := 64, input := 32, rxVl := 0, output := 31, vl := 6, queue := 95, account := 0, charge := .none, takeR := 0, takeM := 0, takeS := 0, cells := [7], written := 1, routedAt := 0, sequenced := false, fromLocal := true }] }).upLport 31 fun x => { x with replaying := some 4, replay := [{ seq := 4, vl := 1, flits := 5, pkt := { pid := 8, hdr := { data := true, sl := 1 } }, len := 256, sequenced := false, stamp := 0, sent := 5 }], toReplay := [5] })).refillEgress 31).holdReplay 31 { seq := 4, vl := 1, flits := 5, pkt := { pid := 8, hdr := { data := true, sl := 1 } }, len := 256, sequenced := false, stamp := 0, sent := 5 } 3).cutter 31 ({ seq := 4, vl := 1, flits := 5, pkt := { pid := 8, hdr := { data := true, sl := 1 } }, len := 256, sequenced := false, stamp := 0, sent := 5 } : ReplayFrame).pkt.hdr).elim sR (·.2),
      by decide +kernel⟩⟩

theorem witness_PoolCommandsComplete :
(∃ (s : State) (h : HlyHdr) (link memInst releaseTimeout : Nat), s.runs h 0x0701 0 0 [] = true ∧ memInst ≤ 1023 ∧ releaseTimeout ≤ 60 ∧ s.notFree
    memInst = true ∧ s.namesHostLink link = true ∧ (s.port link).mode = 4 ∧ s.pool.slots = []) ∧
(∃ (s : State) (h : HlyHdr) (b : BindP), b.use = 0 ∧ s.runs h 0x0702 0 0 ((handleRange b.handle b.count).map .extent) = true ∧ bindBad b = false ∧
    s.bindTaken b = false ∧ s.slotCount + b.count ≤ 524288 ∧ s.enabled b.inst = true ∧ (∀ k, k < b.count → (s.extent (b.handle + k)).state =
    .freeClean)) ∧
(∃ (s : State) (h : HlyHdr) (b : BindP), b.use = 0 ∧ b.keep = false ∧ s.runs h 0x0702 0 0 ((handleRange b.handle b.count).map .extent) = true ∧
    bindBad b = false ∧ s.bindTaken b = false ∧ s.slotCount + b.count ≤ 524288 ∧ s.enabled b.inst = true ∧ (∀ k, k < b.count → (s.extent (b.handle +
    k)).state = .freeDirty)) ∧
(∃ (s : State) (h : HlyHdr) (b : BindP), b.use = 2 ∧ b.count = 1 ∧ s.runs h 0x0702 (4 * b.access.length) 0 [.extent b.handle] = true ∧ b.expWindow ≤
    4095 ∧ bindBad b = false ∧ s.bindTaken b = false ∧ (s.extent b.handle).state = .freeClean ∧ s.pool.windows.find b.expWindow = none) ∧
(∃ (s : State) (h : HlyHdr) (handle count : Nat), s.runs h 0x0703 0 0 ((handleRange handle count).map .extent) = true ∧ 1 ≤ count ∧ count ≤ 512 ∧
    handlesOk handle count = true ∧ (∀ k, k < count → (s.extent (handle + k)).state = .bound)) ∧
(∃ (s : State) (h : HlyHdr) (m : ImportP), s.runs h 0x0704 0 0 [.inst m.inst] = true ∧ m.inst ≤ 1023 ∧ m.slot ≤ 16383 ∧ m.window ≤ 4095 ∧ m.index ≤
    4095 ∧ m.preColour ≤ 1 ∧ m.sl ≤ 7 ∧ s.notFree m.inst = true ∧ m.map = true ∧ s.slotEmpty m.inst m.slot = true ∧ s.slotCount < 524288) ∧
(∃ (s : State) (h : HlyHdr) (m : ImportP) (e : Import), s.runs h 0x0704 0 0 [.inst m.inst] = true ∧ m.inst ≤ 1023 ∧ m.slot ≤ 16383 ∧ m.window ≤ 4095 ∧
    m.index ≤ 4095 ∧ m.preColour ≤ 1 ∧ m.sl ≤ 7 ∧ s.notFree m.inst = true ∧ m.map = false ∧ s.slotOf m.inst m.slot = some (.import e)) ∧
(∃ (s : State) (h : HlyHdr) (handle count : Nat), s.runs h 0x0705 0 0 ((handleRange handle count).map .extent) = true ∧ 1 ≤ count ∧ count ≤ 512 ∧
    handlesOk handle count = true ∧ (∀ k, k < count → (s.extent (handle + k)).state = .freeDirty)) ∧
(∃ (s : State) (h : HlyHdr) (handle count : Nat), s.runs h 0x0706 0 (20 * count) ((handleRange handle count).map .extent) = true ∧ 1 ≤ count ∧ count ≤
    64 ∧ handlesOk handle count = true ∧ ((handleRange handle count).flatMap fun k => extentImage (s.extent k)).length ≤ h.dataLength) ∧
(∃ (s : State) (h : HlyHdr) (port routingId link vslot : Nat), s.runs h 0x0707 0 0 [.function port routingId] = true ∧ port ≤ 31 ∧ routingId ≤ 65535 ∧
    s.namesHostLink link = true ∧ vslot ≤ 31 ∧ s.boundFn port routingId = none ∧ 4 ≤ (s.downOf port).step ∧ routingId ∈ (s.downOf port).functions ∧ (∀
    f ∈ s.pool.functions, f.link ≠ link ∨ f.vslot ≠ vslot) ∧ s.pool.functions.length < 256) ∧
(∃ (s : State) (h : HlyHdr) (port routingId : Nat) (f : BoundFn), s.runs h 0x0708 0 0 [.function port routingId] = true ∧ s.boundFn port routingId =
    some f) ∧
(∃ (s : State) (h : HlyHdr) (port : Nat), s.runs h 0x0709 0 0 [.port port] = true ∧ s.isDownstream port = true ∧ s.slotInUse port = false) ∧
(∃ (s : State) (h : HlyHdr) (directory matching heaps : Nat), s.runs h 0x070A 0 0 [] = true ∧ directory ≤ 128 ∧ matching ≤ 32 ∧ heaps ≤ 64 ∧ (∀ r, r <
    5 → s.regionLive r = false)) :=
  ⟨⟨(((sR.upPort 31 fun x => { x with mode := 4, width := 4 }).upPort 30 fun x => { x with mode := 4, width := 4 }).upInst 1023 fun x => { x with state := .enabled }),
      hR, 30, 1023, 60, by decide +kernel⟩,
    ⟨(((sR.upInst 1023 fun x => { x with state := .enabled }).upExtent 262142 fun x => { x with state := .freeClean }).upExtent 262143 fun x => { x with state := .freeClean }),
      hR,
      { handle := 262142, count := 2, use := 0, inst := 1023, firstSlot := 16382, cohWindow := 0, expWindow := 4095, firstIndex := 4095, key := 5, readOnly := true, access := [], keep := false },
      by decide +kernel⟩,
    ⟨(sR.upInst 1023 fun x => { x with state := .enabled }), hR,
      { handle := 262144, count := 2, use := 0, inst := 1023, firstSlot := 16382, cohWindow := 0, expWindow := 4095, firstIndex := 4095, key := 5, readOnly := true, access := [], keep := false },
      by decide +kernel⟩,
    ⟨((sR.upInst 1023 fun x => { x with state := .enabled }).upExtent 262144 fun x => { x with state := .freeClean }), { hR with dataLength := 8 },
      { handle := 262144, count := 1, use := 2, inst := 1023, firstSlot := 16382, cohWindow := 0, expWindow := 4095, firstIndex := 4095, key := 5, readOnly := true, access := [7, 9], keep := false },
      by decide +kernel⟩,
    ⟨((sR.upExtent 262142 fun x => { x with state := .bound }).upExtent 262143 fun x => { x with state := .bound }), hR, 262142, 2, by decide +kernel⟩,
    ⟨(sR.upInst 1023 fun x => { x with state := .enabled }), hR,
      { inst := 1023, slot := 16383, remoteDevice := 9, window := 4095, index := 4095, key := 7, preColour := 1, sl := 7, map := true },
      by decide +kernel⟩,
    ⟨((sR.upInst 1023 fun x => { x with state := .enabled }).upPool fun x => { x with slots := [(slotKey 1023 16383, .import { remoteDevice := 9, window := 4095, index := 4095, key := 7, preColour := 1, sl := 6 })] }),
      hR, { inst := 1023, slot := 16383, remoteDevice := 9, window := 4095, index := 4095, key := 7, preColour := 1, sl := 7, map := false },
      { remoteDevice := 9, window := 4095, index := 4095, key := 7, preColour := 1, sl := 6 }, by decide +kernel⟩,
    ⟨sR, hR, 262144, 2, by decide +kernel⟩,
    ⟨sR, hR, 262144, 64, by decide +kernel⟩,
    ⟨(((sR.upPort 31 fun x => { x with mode := 5 }).upPort 30 fun x => { x with mode := 4 }).upPool fun x => { x with down := [(31, { step := 4, functions := [65535] })] }),
      hR, 31, 65535, 30, 31, by decide +kernel⟩,
    ⟨(sR.upPool fun x => { x with functions := [{ port := 31, routingId := 65535, link := 30, vslot := 31, unbinding := 0 }] }), hR, 31, 65535,
      { port := 31, routingId := 65535, link := 30, vslot := 31, unbinding := 0 }, by decide +kernel⟩,
    ⟨(sR.upPort 31 fun x => { x with mode := 5 }), hR, 31, by decide +kernel⟩,
    ⟨sR, hR, 128, 32, 64, by decide +kernel⟩⟩

theorem witness_PoolEventsTakeEffect :
(∃ (s : State) (handle : Nat), (s.extent handle).state = .zeroing ∧ (s.extent handle).running = false ∧ s.hly.progress = []) ∧
(∃ (s : State) (link handle : Nat), (s.extent handle).releaseWait = [link]) ∧
(∃ (s : State) (handle inst slot link : Nat), (s.extent handle).state = .bound ∧ (s.extent handle).slots = [(inst, slot)] ∧ s.memLink inst = some
    link) ∧
(∃ (s : State) (handle : Nat), (s.extent handle).state = .unbinding ∧ (s.extent handle).running = true ∧ (s.extent handle).fenced = true ∧ (s.extent
    handle).use ≠ 1 ∧ (s.extent handle).zeroAfter = false ∧ s.recallOf handle = none) ∧
(∃ (s : State) (handle : Nat), (s.extent handle).state = .unbinding ∧ (s.extent handle).running = true ∧ (s.extent handle).fenced = true ∧ (s.extent
    handle).use ≠ 1 ∧ (s.extent handle).zeroAfter = true ∧ s.recallOf handle = none ∧ s.rejected handle = false) ∧
(∃ (s : State) (f : BoundFn), s.pool.functions = [f] ∧ f.unbinding = 1) ∧
(∃ (s : State) (handle : Nat), (s.extent handle).releaseWait ≠ []) ∧
(∃ (s : State) (port routingId : Nat) (f : BoundFn), s.boundFn port routingId = some f ∧ f.unbinding = 2) ∧
(∃ (s : State) (port : Nat), s.isDownstream (s.leadPort port) = true ∧ (s.downOf (s.leadPort port)).step = 3) ∧
(∃ (s : State) (port rate width : Nat), 5 ≤ rate ∧ rate ≤ (s.port (s.leadPort port)).maxRate ∧ width ≤ (s.port (s.leadPort port)).width ∧ s.isHostLink
    (s.leadPort port) = true ∧ (s.port (s.leadPort port)).contained = false ∧ s.pwr.mode ≠ .barePoles ∧ s.pwr.lost = false ∧ s.flt.halted = false ∧
    s.mgc.perst0 = false) :=
  ⟨⟨(sR.upExtent 262144 fun x => { x with state := .zeroing }), 262144, by decide +kernel⟩,
    ⟨((sR.upExtent 5 fun x => { x with state := .unbinding, running := true, releaseWait := [30], slots := [(3, 4)] }).upPool fun x => { x with slots := [(slotKey 3 4, .local 5)] }),
      30, 5, by decide +kernel⟩,
    ⟨((sR.upExtent 5 fun x => { x with state := .bound, slots := [(1023, 4)] }).upPool fun x => { x with slots := [(slotKey 1023 4, .local 5)], links := [(30, { memInst := some 1023 })] }),
      5, 1023, 4, 30, by decide +kernel⟩,
    ⟨(sR.upExtent 5 fun x => { x with state := .unbinding, running := true, fenced := true }), 5, by decide +kernel⟩,
    ⟨((sR.upExtent 5 fun x => { x with state := .unbinding, running := true, fenced := true, zeroAfter := true }).upHly fun x => { x with progress := [{ src := .host 0, seq := 0, code := 0x0703, interrupt := false, objs := [], wait := .unbind [5] true }] }),
      5, by decide +kernel⟩,
    ⟨(sR.upPool fun x => { x with functions := [{ port := 31, routingId := 65535, link := 30, vslot := 31, unbinding := 1 }] }),
      { port := 31, routingId := 65535, link := 30, vslot := 31, unbinding := 1 }, by decide +kernel⟩,
    ⟨(sR.upExtent 5 fun x => { x with state := .unbinding, running := true, releaseWait := [30] }), 5, by decide +kernel⟩,
    ⟨(sR.upPool fun x => { x with functions := [{ port := 31, routingId := 65535, link := 30, vslot := 31, unbinding := 2 }] }), 31, 65535,
      { port := 31, routingId := 65535, link := 30, vslot := 31, unbinding := 2 }, by decide +kernel⟩,
    ⟨((sR.upPort 31 fun x => { x with mode := 5 }).upPool fun x => { x with down := [(31, { step := 3 })] }), 31, by decide +kernel⟩,
    ⟨(((sR.upPort 31 fun x => { x with mode := 4, maxRate := 10, width := 4 }).upPort 30 fun x => { x with mode := 4, maxRate := 10, width := 4 }).upMgc fun x => { x with perst0 := false }),
      31, 10, 4, by decide +kernel⟩⟩

theorem witness_DirectoryCommandsComplete :
(∃ (s : State) (h : HlyHdr) (agent kind port : Nat), s.runs h 0x0801 0 0 [.agent agent] = true ∧ agent ≤ 63 ∧ kind ≤ 1 ∧ port ≤ 31 ∧ s.agentPort kind
    port = true ∧ s.dir.agents.length < 64 ∧ (∀ a ∈ s.dir.agents, a.1 ≠ agent ∧ a.2.port ≠ port)) ∧
(∃ (s : State) (h : HlyHdr) (agent : Nat), s.runs h 0x0802 0 0 [.agent agent] = true ∧ agent ≤ 63 ∧ s.dir.agents.has agent = true ∧ (∀ w ∈
    s.dir.windows, w.2.mask.getLsbD agent = false) ∧ s.dir.entries = [] ∧ s.dir.trackers = []) ∧
(∃ (s : State) (h : HlyHdr) (window mask : Nat), s.runs h 0x0803 0 0 [.window window] = true ∧ window ≤ 255 ∧ mask < 2 ^ 64 ∧ s.maskBad mask = false ∧
    s.dir.windows.has window = false) ∧
(∃ (s : State) (h : HlyHdr) (window mask : Nat) (w : CohWindow), s.runs h 0x0804 0 0 [.window window] = true ∧ window ≤ 255 ∧ mask < 2 ^ 64 ∧
    s.maskBad mask = false ∧ s.dir.windows.find window = some w ∧ s.dir.entries = [] ∧ s.dir.trackers = []) ∧
(∃ (s : State) (h : HlyHdr) (window inst firstSlot : Nat) (w : CohWindow), s.runs h 0x0805 0 0 [.window window, .inst inst] = true ∧ firstSlot ≤ 16383
    ∧ firstSlot + w.extents.length ≤ 16384 ∧ s.dir.windows.find window = some w ∧ (∀ k, k < w.extents.length → s.slotEmpty inst (firstSlot + k) =
    true) ∧ (s.windowInsts window).length < 64 ∧ s.slotCount + w.extents.length ≤ 524288 ∧ s.enabled inst = true ∧ (∀ e ∈ w.extents, slotsValid
    (s.extent e) = true)) ∧
(∃ (s : State) (h : HlyHdr) (window inst firstSlot : Nat) (w : CohWindow), s.runs h 0x0805 0 0 [.window window, .inst inst] = true ∧ firstSlot ≤ 16383
    ∧ firstSlot + w.extents.length ≤ 16384 ∧ s.dir.windows.find window = some w ∧ s.enabled inst = true ∧ (∀ k e, w.extents[k]? = some e → (inst,
    firstSlot + k) ∈ (s.extent e).slots)) ∧
(∃ (s : State) (h : HlyHdr) (window : Nat) (w : CohWindow), s.runs h 0x0806 0 0 [.window window] = true ∧ s.dir.windows.find window = some w ∧
    w.extents = []) ∧
(∃ (s : State) (h : HlyHdr) (snoopTimeout : Nat), s.runs h 0x0807 0 0 [] = true ∧ 1 ≤ snoopTimeout ∧ snoopTimeout ≤ 10000) ∧
(∃ (s : State) (h : HlyHdr) (window extentIndex lineIndex e : Nat) (w : CohWindow), s.runs h 0x0808 0 26 [] = true ∧ window ≤ 255 ∧ lineIndex <
    extentLines ∧ s.dir.windows.find window = some w ∧ w.extents[extentIndex]? = some e ∧ s.tracker e lineIndex = none) :=
  ⟨⟨(sR.upPort 31 fun x => { x with mode := 4 }), hR, 63, 0, 31, by decide +kernel⟩,
    ⟨(sR.upDir fun x => { x with agents := [(63, { kind := 0, port := 31 })] }), hR, 63, by decide +kernel⟩,
    ⟨(sR.upDir fun x => { x with agents := [(63, { kind := 0, port := 31 })] }), hR, 255, 2 ^ 63, by decide +kernel⟩,
    ⟨(sR.upDir fun x => { x with agents := [(63, { kind := 0, port := 31 })], windows := [(255, { mask := 1#64 <<< 63 })] }), hR, 255, 0,
      { mask := 1#64 <<< 63 }, by decide +kernel⟩,
    ⟨((((sR.upInst 1023 fun x => { x with state := .enabled }).upExtent 5 fun x => { x with state := .bound, use := 1, owner := .cohWindow 255 }).upExtent 6 fun x => { x with state := .bound, use := 1, owner := .cohWindow 255 }).upDir fun x => { x with agents := [(63, { kind := 0, port := 31 })], windows := [(255, { mask := 1#64 <<< 63, extents := [5, 6] })] }),
      hR, 255, 1023, 16382, { mask := 1#64 <<< 63, extents := [5, 6] }, by decide +kernel⟩,
    ⟨(((((sR.upInst 1023 fun x => { x with state := .enabled }).upExtent 5 fun x => { x with state := .bound, use := 1, owner := .cohWindow 255, slots := [(1023, 16382)] }).upExtent 6 fun x => { x with state := .bound, use := 1, owner := .cohWindow 255, slots := [(1023, 16383)] }).upDir fun x => { x with agents := [(63, { kind := 0, port := 31 })], windows := [(255, { mask := 1#64 <<< 63, extents := [5, 6], maps := [(1023, 16382)] })] }).upPool fun x => { x with slots := [(slotKey 1023 16382, .local 5), (slotKey 1023 16383, .local 6)] }),
      hR, 255, 1023, 16382, { mask := 1#64 <<< 63, extents := [5, 6], maps := [(1023, 16382)] }, by decide +kernel, by decide +kernel,
      by decide +kernel, by decide +kernel, by decide +kernel,
      by
        intro k e h; rcases k with _ | _ | k <;> simp at h <;> subst h <;> decide +kernel⟩,
    ⟨(sR.upDir fun x => { x with agents := [(63, { kind := 0, port := 31 })], windows := [(255, { mask := 1#64 <<< 63 })] }), hR, 255,
      { mask := 1#64 <<< 63 }, by decide +kernel⟩,
    ⟨sR, hR, 10000, by decide +kernel⟩,
    ⟨((((sR.upInst 1023 fun x => { x with state := .enabled }).upExtent 5 fun x => { x with state := .bound, use := 1, owner := .cohWindow 255 }).upExtent 6 fun x => { x with state := .bound, use := 1, owner := .cohWindow 255 }).upDir fun x => { x with agents := [(63, { kind := 0, port := 31 })], windows := [(255, { mask := 1#64 <<< 63, extents := [5, 6] })] }),
      hR, 255, 1, 4194303, 6, { mask := 1#64 <<< 63, extents := [5, 6] }, by decide +kernel⟩⟩

theorem witness_DirectoryEventsTakeEffect :
(∃ (s : State) (a handle line : Nat), s.awake = true ∧ s.forwarding = true ∧ line < extentLines ∧ s.cohServed handle = true ∧ s.servedAs handle (some
    a) = some a ∧ s.tracker handle line = none ∧ lineKey handle line ∉ s.dir.badEntries ∧ s.bankTrackers (s.logicalBank handle line) < 256 ∧
    (s.dirEntry handle line).state = .invalid ∧ s.linePoisoned handle line = false) ∧
(∃ (s : State) (handle line : Nat) (t : Tracker) (r : CohReq), s.forwarding = true ∧ s.tracker handle line = some t ∧ t.kind = .request r ∧ t.reading
    = true ∧ t.queue = [] ∧ s.poisoned handle (64 * line) 64 = false ∧ s.linePoisoned handle line = false) ∧
(∃ (s : State) (a handle line : Nat), s.awake = true ∧ s.forwarding = true ∧ line < extentLines ∧ s.cohServed handle = true ∧ s.tracker handle line =
    none ∧ lineKey handle line ∉ s.dir.badEntries ∧ s.bankTrackers (s.logicalBank handle line) < 256 ∧ s.ownsLine handle line a = true) ∧
(∃ (s : State) (a handle line : Nat) (data : List Nat), s.awake = true ∧ s.forwarding = true ∧ line < extentLines ∧ (a, handle, line) ∉ s.dir.timedOut
    ∧ (s.extent handle).use = 1 ∧ (s.extent handle).window ≠ none ∧ s.ownsLine handle line a = true ∧ s.tracker handle line = none ∧ s.linePoisoned
    handle line = false ∧ s.bankWritebacks (s.logicalBank handle line) < 64 ∧ data.length = 64 ∧ (∀ b ∈ data, b < 256)) ∧
(∃ (s : State) (w : WbPending), s.forwarding = true ∧ s.dir.writebacks = [w] ∧ w.forwarded = false ∧ s.tracker w.handle w.line = none ∧ s.dir.acks =
    []) ∧
(∃ (s : State) (a handle line : Nat) (n : Snoop), s.awake = true ∧ s.forwarding = true ∧ (a, handle, line) ∉ s.dir.timedOut ∧ s.snoopOf handle line a
    = some n ∧ n.wbTaken = false ∧ n.wbInFlight = false ∧ s.ownsLine handle line a = true) ∧
(∃ (s : State) (a handle line id : Nat) (n : Snoop) (t : Tracker), s.awake = true ∧ s.forwarding = true ∧ (a, handle, line) ∉ s.dir.timedOut ∧
    s.tracker handle line = some t ∧ t.kind = .recall id ∧ t.snoops = [n] ∧ n.agent = a ∧ n.wbTaken = false ∧ n.wbInFlight = false ∧ n.conflict =
    false ∧ t.started = true ∧ t.queue = [] ∧ t.writes = 0 ∧ t.reading = false ∧ t.writing = false ∧ s.ownsLine handle line a = true ∧ s.dir.recalls =
    []) ∧
(∃ (s : State) (a handle line : Nat) (n : Snoop), s.awake = true ∧ s.forwarding = true ∧ s.snoopOf handle line a = some n) ∧
(∃ (s : State) (a handle line id : Nat) (n : Snoop) (t : Tracker), s.forwarding = true ∧ s.tracker handle line = some t ∧ t.kind = .recall id ∧
    t.snoops = [n] ∧ n.agent = a ∧ t.started = true ∧ t.queue = [] ∧ t.writes = 0 ∧ t.reading = false ∧ t.writing = false ∧ s.dir.recalls = []) ∧
(∃ (s : State) (r : Recall), s.forwarding = true ∧ s.dir.recalls = [r] ∧ r.todo = [] ∧ s.dir.trackers = [] ∧ r.agents ≠ []) :=
  ⟨⟨(((sR.upExtent 5 fun x => { x with state := .bound, use := 1, owner := .cohWindow 255, window := some (255, 0) }).upDir fun x => { x with agents := [(63, { kind := 0, port := 31 })], windows := [(255, { mask := 1#64 <<< 63, extents := [5, 6] })] }).upDir fun x => { x with entries := x.entries }),
      63, 5, 4194303, by decide +kernel⟩,
    ⟨(((sR.upExtent 5 fun x => { x with state := .bound, use := 1, owner := .cohWindow 255, window := some (255, 0) }).upDir fun x => { x with agents := [(63, { kind := 0, port := 31 })], windows := [(255, { mask := 1#64 <<< 63, extents := [5, 6] })] }).upDir fun x => { x with entries := x.entries, trackers := [{ handle := 5, line := 4194303, kind := .request { who := some 63, agent := some 63, op := .rdS, data := [] }, reading := true }] }),
      5, 4194303, { handle := 5, line := 4194303, kind := .request { who := some 63, agent := some 63, op := .rdS, data := [] }, reading := true },
      { who := some 63, agent := some 63, op := .rdS, data := [] }, by decide +kernel⟩,
    ⟨(((sR.upExtent 5 fun x => { x with state := .bound, use := 1, owner := .cohWindow 255, window := some (255, 0) }).upDir fun x => { x with agents := [(63, { kind := 0, port := 31 })], windows := [(255, { mask := 1#64 <<< 63, extents := [5, 6] })] }).upDir fun x => { x with entries := [(lineKey 5 4194303, { state := .em, sharers := 1#64 <<< 63 })] }),
      63, 5, 4194303, by decide +kernel⟩,
    ⟨(((sR.upExtent 5 fun x => { x with state := .bound, use := 1, owner := .cohWindow 255, window := some (255, 0) }).upDir fun x => { x with agents := [(63, { kind := 0, port := 31 })], windows := [(255, { mask := 1#64 <<< 63, extents := [5, 6] })] }).upDir fun x => { x with entries := [(lineKey 5 4194303, { state := .em, sharers := 1#64 <<< 63 })] }),
      63, 5, 4194303, List.replicate 64 7, by decide +kernel⟩,
    ⟨(((sR.upExtent 5 fun x => { x with state := .bound, use := 1, owner := .cohWindow 255, window := some (255, 0) }).upDir fun x => { x with agents := [(63, { kind := 0, port := 31 })], windows := [(255, { mask := 1#64 <<< 63, extents := [5, 6] })] }).upDir fun x => { x with entries := x.entries, writebacks := [{ handle := 5, line := 4194303, agent := 63 }] }),
      { handle := 5, line := 4194303, agent := 63 }, by decide +kernel⟩,
    ⟨(((sR.upExtent 5 fun x => { x with state := .bound, use := 1, owner := .cohWindow 255, window := some (255, 0) }).upDir fun x => { x with agents := [(63, { kind := 0, port := 31 })], windows := [(255, { mask := 1#64 <<< 63, extents := [5, 6] })] }).upDir fun x => { x with entries := [(lineKey 5 4194303, { state := .em, sharers := 1#64 <<< 63 })], trackers := [{ handle := 5, line := 4194303, kind := .recall 0, started := true, snoops := [{ agent := 63 }] }] }),
      63, 5, 4194303, { agent := 63 }, by decide +kernel⟩,
    ⟨(((sR.upExtent 5 fun x => { x with state := .bound, use := 1, owner := .cohWindow 255, window := some (255, 0) }).upDir fun x => { x with agents := [(63, { kind := 0, port := 31 })], windows := [(255, { mask := 1#64 <<< 63, extents := [5, 6] })] }).upDir fun x => { x with entries := [(lineKey 5 4194303, { state := .em, sharers := 1#64 <<< 63 })], trackers := [{ handle := 5, line := 4194303, kind := .recall 0, started := true, snoops := [{ agent := 63 }] }] }),
      63, 5, 4194303, 0, { agent := 63 }, { handle := 5, line := 4194303, kind := .recall 0, started := true, snoops := [{ agent := 63 }] },
      by decide +kernel⟩,
    ⟨(((sR.upExtent 5 fun x => { x with state := .bound, use := 1, owner := .cohWindow 255, window := some (255, 0) }).upDir fun x => { x with agents := [(63, { kind := 0, port := 31 })], windows := [(255, { mask := 1#64 <<< 63, extents := [5, 6] })] }).upDir fun x => { x with entries := [(lineKey 5 4194303, { state := .em, sharers := 1#64 <<< 63 })], trackers := [{ handle := 5, line := 4194303, kind := .recall 0, started := true, snoops := [{ agent := 63 }] }] }),
      63, 5, 4194303, { agent := 63 }, by decide +kernel⟩,
    ⟨(((sR.upExtent 5 fun x => { x with state := .bound, use := 1, owner := .cohWindow 255, window := some (255, 0) }).upDir fun x => { x with agents := [(63, { kind := 0, port := 31 })], windows := [(255, { mask := 1#64 <<< 63, extents := [5, 6] })] }).upDir fun x => { x with entries := [(lineKey 5 4194303, { state := .em, sharers := 1#64 <<< 63 })], trackers := [{ handle := 5, line := 4194303, kind := .recall 0, started := true, snoops := [{ agent := 63 }] }] }),
      63, 5, 4194303, 0, { agent := 63 }, { handle := 5, line := 4194303, kind := .recall 0, started := true, snoops := [{ agent := 63 }] },
      by decide +kernel⟩,
    ⟨(((sR.upExtent 5 fun x => { x with state := .bound, use := 1, owner := .cohWindow 255, window := some (255, 0) }).upDir fun x => { x with agents := [(63, { kind := 0, port := 31 })], windows := [(255, { mask := 1#64 <<< 63, extents := [5, 6] })] }).upDir fun x => { x with entries := x.entries, recalls := [{ id := 3, handles := [], agents := [63], poison := false, todo := [] }] }),
      { id := 3, handles := [], agents := [63], poison := false, todo := [] }, by decide +kernel⟩⟩

theorem witness_HostMemoryTakesEffect :
(∃ (s : State) (inst address length e : Nat) (cxl : Bool), s.awake = true ∧ s.forwarding = true ∧ (cxl = true ∨ s.reachable inst = true) ∧ s.enabled
    inst = true ∧ 1 ≤ length ∧ address % 2 ^ 28 + length ≤ 2 ^ 28 ∧ s.slotOf inst (address / 2 ^ 28 % 16384) = some (.local e) ∧ (s.extent e).use ≠ 1
    ∧ s.poisoned e (address % 2 ^ 28) length = false) ∧
(∃ (s : State) (inst address length e : Nat) (cxl : Bool) (data : List Nat), s.awake = true ∧ s.forwarding = true ∧ (cxl = true ∨ s.reachable inst =
    true) ∧ s.enabled inst = true ∧ 1 ≤ length ∧ address % 2 ^ 28 + length ≤ 2 ^ 28 ∧ s.slotOf inst (address / 2 ^ 28 % 16384) = some (.local e) ∧
    (s.extent e).use ≠ 1 ∧ (s.extent e).state ≠ .poisoned ∧ data.length = length ∧ (∀ b ∈ data, b < 256)) ∧
(∃ (s : State) (inst address : Nat) (cxl : Bool), s.awake = true ∧ s.forwarding = true ∧ (cxl = true ∨ s.reachable inst = true) ∧ (s.slotOf inst
    (address / 2 ^ 28 % 16384) = none ∨ s.enabled inst = false)) ∧
(∃ (s t : State) (inst address length : Nat) (posted : Bool) (x : Import) (r : WinReq) (hdr : Hdr) (d : Nat), s.awake = true ∧ s.forwarding = true ∧
    (posted = false ∨ s.reachable inst = true) ∧ s.enabled inst = true ∧ 1 ≤ length ∧ address % 2 ^ 28 + length ≤ 2 ^ 28 ∧ s.slotOf inst (address / 2
    ^ 28 % 16384) = some (.import x) ∧ r =
    { inst, remote := x.remoteDevice, write := true, posted, cxl := s.overCxl inst, address, w := { window := x.window, key := x.key, offset := 2 ^ 28 * x.index + address % 2 ^ 28, length } }
    ∧ s.resendBytes + length ≤ 2 ^ 28 ∧ s.noRoute (s.windowHdr x r) 35 none = false ∧ s.police (s.windowHdr x r) (pktLen (s.windowHdr x r)) true
    (x.preColour = 0) = (.send hdr d, t)) ∧
(∃ (s : State) (device inst e : Nat) (w : WinF), s.forwarding = true ∧ s.windowCheck device inst w false = .ok e ∧ s.poisoned e (w.offset % 2 ^ 28)
    w.length = false) ∧
(∃ (s : State) (device inst e : Nat) (w : WinF) (data : List Nat), s.forwarding = true ∧ s.windowCheck device inst w true = .ok e ∧ (s.extent e).state
    ≠ .poisoned ∧ data.length = w.length ∧ (∀ b ∈ data, b < 256)) ∧
(∃ (s : State) (r : WinReq), s.forwarding = true ∧ s.pool.winReqs = [r] ∧ r.write = false ∧ r.w.poison = false ∧ s.hly.progress = []) ∧
(∃ (s : State) (r : WinReq), s.forwarding = true ∧ s.pool.winReqs = [r] ∧ r.write = true ∧ s.hly.progress = []) ∧
(∃ (s : State) (r : WinReq), s.forwarding = true ∧ s.pool.winReqs = [r] ∧ r.write = false ∧ s.hly.progress = []) :=
  ⟨⟨(((sR.upInst 1023 fun x => { x with state := .enabled }).upExtent 262144 fun x => { x with state := .bound, slots := [(1023, 16383)] }).upPool fun x => { x with slots := [(slotKey 1023 16383, .local 262144)] }),
      1023, (16383 * 2 ^ 28 + 2 ^ 28 - 4), 4, 262144, false, by decide +kernel⟩,
    ⟨(((sR.upInst 1023 fun x => { x with state := .enabled }).upExtent 262144 fun x => { x with state := .bound, slots := [(1023, 16383)] }).upPool fun x => { x with slots := [(slotKey 1023 16383, .local 262144)] }),
      1023, (16383 * 2 ^ 28 + 2 ^ 28 - 4), 4, 262144, false, [1, 2, 3, 4], by decide +kernel⟩,
    ⟨(sR.upInst 1023 fun x => { x with state := .enabled }), 1023, 0, false, by decide +kernel⟩,
    ⟨(((sR.upInst 1023 fun x => { x with state := .enabled }).upPool fun x => { x with slots := [(slotKey 1023 16383, .import { remoteDevice := 9, window := 4095, index := 4095, key := 7, preColour := 1, sl := 6 })] }).upRte fun x => { x with deviceId := 9, valid := true }),
      (State.police (((sR.upInst 1023 fun x => { x with state := .enabled }).upPool fun x => { x with slots := [(slotKey 1023 16383, .import { remoteDevice := 9, window := 4095, index := 4095, key := 7, preColour := 1, sl := 6 })] }).upRte fun x => { x with deviceId := 9, valid := true }) (State.windowHdr (((sR.upInst 1023 fun x => { x with state := .enabled }).upPool fun x => { x with slots := [(slotKey 1023 16383, .import { remoteDevice := 9, window := 4095, index := 4095, key := 7, preColour := 1, sl := 6 })] }).upRte fun x => { x with deviceId := 9, valid := true }) { remoteDevice := 9, window := 4095, index := 4095, key := 7, preColour := 1, sl := 6 } { inst := 1023, remote := 9, write := true, posted := false, cxl := false, address := (16383 * 2 ^ 28 + 2 ^ 28 - 4), w := { window := 4095, key := 7, offset := 2 ^ 28 * 4095 + 2 ^ 28 - 4, length := 4 } }) (pktLen (State.windowHdr (((sR.upInst 1023 fun x => { x with state := .enabled }).upPool fun x => { x with slots := [(slotKey 1023 16383, .import { remoteDevice := 9, window := 4095, index := 4095, key := 7, preColour := 1, sl := 6 })] }).upRte fun x => { x with deviceId := 9, valid := true }) { remoteDevice := 9, window := 4095, index := 4095, key := 7, preColour := 1, sl := 6 } { inst := 1023, remote := 9, write := true, posted := false, cxl := false, address := (16383 * 2 ^ 28 + 2 ^ 28 - 4), w := { window := 4095, key := 7, offset := 2 ^ 28 * 4095 + 2 ^ 28 - 4, length := 4 } })) true false).2,
      1023, (16383 * 2 ^ 28 + 2 ^ 28 - 4), 4, false, { remoteDevice := 9, window := 4095, index := 4095, key := 7, preColour := 1, sl := 6 },
      { inst := 1023, remote := 9, write := true, posted := false, cxl := false, address := (16383 * 2 ^ 28 + 2 ^ 28 - 4), w := { window := 4095, key := 7, offset := 2 ^ 28 * 4095 + 2 ^ 28 - 4, length := 4 } },
      { (State.windowHdr (((sR.upInst 1023 fun x => { x with state := .enabled }).upPool fun x => { x with slots := [(slotKey 1023 16383, .import { remoteDevice := 9, window := 4095, index := 4095, key := 7, preColour := 1, sl := 6 })] }).upRte fun x => { x with deviceId := 9, valid := true }) { remoteDevice := 9, window := 4095, index := 4095, key := 7, preColour := 1, sl := 6 } { inst := 1023, remote := 9, write := true, posted := false, cxl := false, address := (16383 * 2 ^ 28 + 2 ^ 28 - 4), w := { window := 4095, key := 7, offset := 2 ^ 28 * 4095 + 2 ^ 28 - 4, length := 4 } }) with colour := 0, deadline := 0 },
      0, by decide +kernel⟩,
    ⟨((sR.upExtent 262144 fun x => { x with state := .bound, use := 2, window := some (4095, 4095) }).upPool fun x => { x with windows := [(4095, { key := 5, readOnly := false, access := [7168], extents := [(4095, 262144)], size := 4096 })] }),
      7, 0, 262144, { window := 4095, key := 5, offset := 2 ^ 28 * 4095 + 2 ^ 28 - 4, length := 4 }, by decide +kernel⟩,
    ⟨((sR.upExtent 262144 fun x => { x with state := .bound, use := 2, window := some (4095, 4095) }).upPool fun x => { x with windows := [(4095, { key := 5, readOnly := false, access := [7168], extents := [(4095, 262144)], size := 4096 })] }),
      7, 0, 262144, { window := 4095, key := 5, offset := 2 ^ 28 * 4095 + 2 ^ 28 - 4, length := 4 }, [1, 2, 3, 4], by decide +kernel⟩,
    ⟨(sR.upPool fun x => { x with winReqs := [{ inst := 1023, remote := 9, write := false, posted := false, cxl := true, address := (16383 * 2 ^ 28 + 2 ^ 28 - 4), w := { window := 4095, key := 5, offset := 2 ^ 28 * 4095 + 2 ^ 28 - 4, length := 4 } }] }),
      { inst := 1023, remote := 9, write := false, posted := false, cxl := true, address := (16383 * 2 ^ 28 + 2 ^ 28 - 4), w := { window := 4095, key := 5, offset := 2 ^ 28 * 4095 + 2 ^ 28 - 4, length := 4 } },
      by decide +kernel⟩,
    ⟨(sR.upPool fun x => { x with winReqs := [{ inst := 1023, remote := 9, write := true, posted := false, cxl := true, address := (16383 * 2 ^ 28 + 2 ^ 28 - 4), w := { window := 4095, key := 5, offset := 2 ^ 28 * 4095 + 2 ^ 28 - 4, length := 4 } }] }),
      { inst := 1023, remote := 9, write := true, posted := false, cxl := true, address := (16383 * 2 ^ 28 + 2 ^ 28 - 4), w := { window := 4095, key := 5, offset := 2 ^ 28 * 4095 + 2 ^ 28 - 4, length := 4 } },
      by decide +kernel⟩,
    ⟨(sR.upPool fun x => { x with winReqs := [{ inst := 1023, remote := 9, write := false, posted := false, cxl := true, address := (16383 * 2 ^ 28 + 2 ^ 28 - 4), w := { window := 4095, key := 5, offset := 2 ^ 28 * 4095 + 2 ^ 28 - 4, length := 4 } }] }),
      { inst := 1023, remote := 9, write := false, posted := false, cxl := true, address := (16383 * 2 ^ 28 + 2 ^ 28 - 4), w := { window := 4095, key := 5, offset := 2 ^ 28 * 4095 + 2 ^ 28 - 4, length := 4 } },
      by decide +kernel⟩⟩

theorem witness_EngineCommandsComplete :
(∃ (s : State) (h : HlyHdr) (q : QueueP), s.runs h 0x0901 0 0 (if q.kind = 0 then [.sendQueue q.queue] else []) = true ∧ queueBad q = false ∧
    s.enabled q.inst = true ∧ s.queueExists q.kind q.queue = false ∧ (q.kind ≤ 1 → ((s.mec.compQ.find q.cq).any fun c => c.inst == q.inst) = true) ∧
    (q.kind = 3 → s.eventQueue q.inst = none) ∧ (q.kind = 0 → s.engineTakes q.engine q.maxOut = true) ∧ s.queueFull q.kind = false) ∧
(∃ (s : State) (h : HlyHdr) (queue : Nat) (x : SendQueue), s.runs h 0x0902 0 0 [.sendQueue queue] = true ∧ queue ≤ 16383 ∧ s.mec.sendQ.find queue =
    some x ∧ (∀ t ∈ s.mec.triggers, t.queue ≠ queue)) ∧
(∃ (s : State) (h : HlyHdr) (queue : Nat) (x : RecvQueue), s.runs h 0x0902 0 0 [] = true ∧ queue ≤ 16383 ∧ s.mec.recvQ.find queue = some x ∧ (∀ p ∈
    s.mtc.posted, p.queue ≠ queue)) ∧
(∃ (s : State) (h : HlyHdr) (queue : Nat), s.runs h 0x0902 0 0 [] = true ∧ queue ≤ 16383 ∧ s.mec.compQ.has queue = true ∧ (∀ q ∈ s.mec.sendQ, q.2.cq ≠
    queue) ∧ (∀ q ∈ s.mec.recvQ, q.2.cq ≠ queue)) ∧
(∃ (s : State) (h : HlyHdr) (queue : Nat), s.runs h 0x0902 0 0 [] = true ∧ queue ≤ 16383 ∧ s.mec.eventQ.has queue = true) ∧
(∃ (s : State) (h : HlyHdr) (queue engine : Nat) (x : SendQueue), s.runs h 0x0903 0 0 [] = true ∧ queue ≤ 16383 ∧ engine ≤ 127 ∧ s.mec.sendQ.find
    queue = some x ∧ x.moving = none ∧ s.engineTakes engine x.maxOut = true ∧ (∃ e ∈ s.mec.slots, e.2.queue = queue ∧ e.2.isRget = false ∧
    e.2.queueGen ≠ (x.gen + 1) % 256)) ∧
(∃ (s : State) (h : HlyHdr) (queue engine : Nat) (x : SendQueue), s.runs h 0x0903 0 0 [] = true ∧ queue ≤ 16383 ∧ engine ≤ 127 ∧ s.mec.sendQ.find
    queue = some x ∧ x.moving = none ∧ s.engineTakes engine x.maxOut = true ∧ s.hly.progress = [] ∧ (∀ e ∈ s.mec.slots, e.2.queue ≠ queue)) ∧
(∃ (s : State) (h : HlyHdr) (queue : Nat) (x : SendQueue), s.runs h 0x0904 0 0 [] = true ∧ s.mec.sendQ.find queue = some x ∧ x.error = true ∧ x.moving
    = none) ∧
(∃ (s : State) (h : HlyHdr) (queue : Nat) (x : RecvQueue), s.runs h 0x0904 0 0 [] = true ∧ s.mec.recvQ.find queue = some x ∧ x.error = true) ∧
(∃ (s : State) (h : HlyHdr) (r : RegionP), s.runs h 0x0905 0 0 [.inst r.inst] = true ∧ s.regionBad r = false ∧ s.enabled r.inst = true) ∧
(∃ (s : State) (h : HlyHdr) (inst base count heap entries reserve : Nat), s.runs h 0x0906 0 0 [.inst inst] = true ∧ inst ≤ 1023 ∧ base + count ≤ 16384
    ∧ base ≤ 16383 ∧ count ≤ 4096 ∧ heap ≤ 65535 ∧ entries < 2 ^ 27 ∧ reserve < 2 ^ 19 ∧ s.notFree inst = true ∧ s.countersTaken inst base count =
    false ∧ heap + sumOf (s.mec.inst.filter fun e => e.1 != inst) (fun e => e.2.heap) ≤ s.heapUnitsAll ∧ entries + sumOf (s.mec.inst.filter fun e =>
    e.1 != inst) (fun e => e.2.matchEntries) ≤ 262144 + s.overflowRoom ∧ reserve + sumOf (s.mec.inst.filter fun e => e.1 != inst) (fun e =>
    e.2.onDieReserve) ≤ 262144 ∧ s.quotaBelow inst count heap entries = false) ∧
(∃ (s : State) (h : HlyHdr) (rnrDelay rnrLimit lockAge : Nat), s.runs h 0x0907 0 0 [] = true ∧ 1 ≤ rnrDelay ∧ rnrDelay ≤ 1000 ∧ rnrLimit ≤ 255 ∧ 1 ≤
    lockAge ∧ lockAge ≤ 10000) ∧
(∃ (s : State) (h : HlyHdr) (index : Nat) (e : LockEntry), s.runs h 0x0908 0 0 [] = true ∧ index ≤ 4095 ∧ s.locks.table.find index = some e ∧
    e.abandoned = false ∧ s.locks.waits = []) ∧
(∃ (s : State) (h : HlyHdr) (kind index : Nat), s.runs h 0x0909 0 (engQueryLen kind) [] = true ∧ kind ≤ 5 ∧ index ≤ 16383 ∧ (kind = 4 → index ≤ 127) ∧
    (kind = 5 → index ≤ 1023 ∧ s.notFree index = true)) ∧
(∃ (s : State) (queue : Nat) (x : SendQueue), s.mec.sendQ.find queue = some x ∧ x.moving ≠ none ∧ s.moveDone queue = true ∧ s.hly.progress = []) :=
  ⟨⟨((sR.upInst 1023 fun x => { x with state := .enabled }).upMec fun x => { x with compQ := [(16383, { inst := 1023, base := 0, log2Size := 6, vector := 0 })] }),
      hR,
      { inst := 1023, kind := 0, queue := 16383, base := 2 ^ 40, log2Size := 16, cq := 16383, engine := 127, weight := 255, maxOut := 512, vector := 2047 },
      by decide +kernel⟩,
    ⟨((sR.upInst 1023 fun x => { x with state := .enabled }).upMec fun x => { x with sendQ := [(16383, { inst := 1023, base := 0, log2Size := 6, cq := 16383, engine := 127, weight := 1, maxOut := 64, locks := [(9, 4), (9, 5)] })], compQ := [(16383, { inst := 1023, base := 0, log2Size := 6, vector := 0 })] }),
      hR, 16383, { inst := 1023, base := 0, log2Size := 6, cq := 16383, engine := 127, weight := 1, maxOut := 64, locks := [(9, 4), (9, 5)] },
      by decide +kernel⟩,
    ⟨((sR.upInst 1023 fun x => { x with state := .enabled }).upMec fun x => { x with recvQ := [(16383, { inst := 1023, base := 0, log2Size := 6, cq := 16383 })], compQ := [(16383, { inst := 1023, base := 0, log2Size := 6, vector := 0 })] }),
      hR, 16383, { inst := 1023, base := 0, log2Size := 6, cq := 16383 }, by decide +kernel⟩,
    ⟨(sR.upMec fun x => { x with compQ := [(16383, { inst := 1023, base := 0, log2Size := 6, vector := 0 })] }), hR, 16383, by decide +kernel⟩,
    ⟨(sR.upMec fun x => { x with eventQ := [(16383, { inst := 1023, base := 0, log2Size := 6, vector := 0 })] }), hR, 16383, by decide +kernel⟩,
    ⟨((sR.upInst 1023 fun x => { x with state := .enabled }).upMec fun x => { x with sendQ := [(16383, { inst := 1023, base := 0, log2Size := 6, cq := 16383, engine := 127, weight := 1, maxOut := 64 })], compQ := [(16383, { inst := 1023, base := 0, log2Size := 6, vector := 0 })], slots := [(65535, { opTag := 65535, queue := 16383, inst := 1023, queueGen := 0, d := { op := 1, length := 8, destDevice := 9, region := 5, key := 6 } })] }),
      hR, 16383, 127, { inst := 1023, base := 0, log2Size := 6, cq := 16383, engine := 127, weight := 1, maxOut := 64 }, by decide +kernel⟩,
    ⟨((sR.upInst 1023 fun x => { x with state := .enabled }).upMec fun x => { x with sendQ := [(16383, { inst := 1023, base := 0, log2Size := 6, cq := 16383, engine := 127, weight := 1, maxOut := 64 })], compQ := [(16383, { inst := 1023, base := 0, log2Size := 6, vector := 0 })] }),
      hR, 16383, 127, { inst := 1023, base := 0, log2Size := 6, cq := 16383, engine := 127, weight := 1, maxOut := 64 }, by decide +kernel⟩,
    ⟨((sR.upInst 1023 fun x => { x with state := .enabled }).upMec fun x => { x with sendQ := [(16383, { inst := 1023, base := 0, log2Size := 6, cq := 16383, engine := 127, weight := 1, maxOut := 64, error := true })], compQ := [(16383, { inst := 1023, base := 0, log2Size := 6, vector := 0 })] }),
      hR, 16383, { inst := 1023, base := 0, log2Size := 6, cq := 16383, engine := 127, weight := 1, maxOut := 64, error := true }, by decide +kernel⟩,
    ⟨((sR.upInst 1023 fun x => { x with state := .enabled }).upMec fun x => { x with recvQ := [(16383, { inst := 1023, base := 0, log2Size := 6, cq := 16383, error := true })], compQ := [(16383, { inst := 1023, base := 0, log2Size := 6, vector := 0 })] }),
      hR, 16383, { inst := 1023, base := 0, log2Size := 6, cq := 16383, error := true }, by decide +kernel⟩,
    ⟨(sR.upInst 1023 fun x => { x with state := .enabled }), hR,
      { region := 65535, valid := true, inst := 1023, kind := 0, base := 16, length := 16777216, key := 65535, rights := 15, filterDevice := 0, filterMask := 0, filterAny := true, filterInst := 0, counterValid := false, counter := 0 },
      by decide +kernel⟩,
    ⟨(sR.upInst 1023 fun x => { x with state := .enabled }), hR, 1023, 12288, 4096, 8, 100, 100, by decide +kernel⟩,
    ⟨sR, hR, 1000, 255, 10000, by decide +kernel⟩,
    ⟨{ sR with locks := { table := [(4095, { region := 65535, offset := 64, length := 64, owner := { device := 7, inst := 5, queue := 16383 } })] } },
      hR, 4095, { region := 65535, offset := 64, length := 64, owner := { device := 7, inst := 5, queue := 16383 } }, by decide +kernel⟩,
    ⟨(sR.upInst 1023 fun x => { x with state := .enabled }), hR, 5, 1023, by decide +kernel⟩,
    ⟨((sR.upInst 1023 fun x => { x with state := .enabled }).upMec fun x => { x with sendQ := [(16383, { inst := 1023, base := 0, log2Size := 6, cq := 16383, engine := 127, weight := 1, maxOut := 64, moving := some 3 })], compQ := [(16383, { inst := 1023, base := 0, log2Size := 6, vector := 0 })] }),
      16383, { inst := 1023, base := 0, log2Size := 6, cq := 16383, engine := 127, weight := 1, maxOut := 64, moving := some 3 }, by decide +kernel⟩⟩

theorem witness_DoorbellsTakeEffect :
(∃ (s : State) (inst queue index : Nat) (x : SendQueue), s.reachable inst = true ∧ s.awake = true ∧ s.forwarding = true ∧ s.enabled inst = true ∧
    s.mec.sendQ.find queue = some x ∧ x.inst = inst ∧ ringUsed index x.consumer ≤ 2 ^ x.log2Size) ∧
(∃ (s : State) (inst queue index : Nat) (x : SendQueue), s.reachable inst = true ∧ s.awake = true ∧ s.forwarding = true ∧ s.enabled inst = true ∧
    s.mec.sendQ.find queue = some x ∧ x.inst = inst ∧ 2 ^ x.log2Size < ringUsed index x.consumer ∧ x.error = false) ∧
(∃ (s : State) (inst queue index : Nat) (x : RecvQueue), s.reachable inst = true ∧ s.awake = true ∧ s.forwarding = true ∧ s.enabled inst = true ∧
    s.mec.recvQ.find queue = some x ∧ x.inst = inst ∧ ringUsed index x.consumer ≤ 2 ^ x.log2Size) ∧
(∃ (s : State) (inst queue : Nat) (x : RecordQueue), s.reachable inst = true ∧ s.awake = true ∧ s.forwarding = true ∧ s.enabled inst = true ∧
    s.mec.compQ.find queue = some x ∧ x.inst = inst ∧ x.held = [] ∧ s.mec.sendQ = []) ∧
(∃ (s : State) (inst queue : Nat), s.reachable inst = true ∧ s.awake = true ∧ s.forwarding = true ∧ s.enabled inst = true ∧ s.mec.sendQ.find queue =
    none) :=
  ⟨⟨((sR.upInst 1023 fun x => { x with state := .enabled }).upMec fun x => { x with sendQ := [(16383, { inst := 1023, base := 0, log2Size := 6, cq := 16383, engine := 127, weight := 1, maxOut := 64 })], compQ := [(16383, { inst := 1023, base := 0, log2Size := 6, vector := 0 })] }),
      1023, 16383, 64, { inst := 1023, base := 0, log2Size := 6, cq := 16383, engine := 127, weight := 1, maxOut := 64 }, by decide +kernel⟩,
    ⟨((sR.upInst 1023 fun x => { x with state := .enabled }).upMec fun x => { x with sendQ := [(16383, { inst := 1023, base := 0, log2Size := 6, cq := 16383, engine := 127, weight := 1, maxOut := 64 })], compQ := [(16383, { inst := 1023, base := 0, log2Size := 6, vector := 0 })] }),
      1023, 16383, 65, { inst := 1023, base := 0, log2Size := 6, cq := 16383, engine := 127, weight := 1, maxOut := 64 }, by decide +kernel⟩,
    ⟨((sR.upInst 1023 fun x => { x with state := .enabled }).upMec fun x => { x with recvQ := [(16383, { inst := 1023, base := 0, log2Size := 6, cq := 16383 })], compQ := [(16383, { inst := 1023, base := 0, log2Size := 6, vector := 0 })] }),
      1023, 16383, 64, { inst := 1023, base := 0, log2Size := 6, cq := 16383 }, by decide +kernel⟩,
    ⟨((sR.upInst 1023 fun x => { x with state := .enabled }).upMec fun x => { x with compQ := [(16383, { inst := 1023, base := 0, log2Size := 6, vector := 0 })] }),
      1023, 16383, { inst := 1023, base := 0, log2Size := 6, vector := 0 }, by decide +kernel⟩,
    ⟨(sR.upInst 1023 fun x => { x with state := .enabled }), 1023, 16383, by decide +kernel⟩⟩

theorem witness_DescriptorOperationsTakeEffect :
(∃ (s : State) (queue tag : Nat) (x : SendQueue) (bits : Nat) (d : Desc), d = sendDescOf bits ∧ s.mec.sendQ.find queue = some x ∧ s.fetchReady queue x
    = true ∧ s.mec.sendQ = [(queue, x)] ∧ x.error = false ∧ d.triggered = false ∧ s.badDesc x.inst d = false ∧ s.freeSlot x.engine = some tag ∧
    s.mpuRefusal
    { master := x.engine, kind := 2, privilege := 0, space := 0, address := x.base + 64 * (x.consumer % 2 ^ x.log2Size), pageCount := 1, inst := x.inst }
    = none) ∧
(∃ (s : State) (queue : Nat) (x : SendQueue) (bits : Nat) (d : Desc), d = sendDescOf bits ∧ s.mec.sendQ.find queue = some x ∧ s.fetchReady queue x =
    true ∧ s.mec.sendQ = [(queue, x)] ∧ x.error = false ∧ d.triggered = true ∧ s.badDesc x.inst d = false ∧ (s.mec.triggers.filter fun t => t.engine
    == x.engine).length < 8192 ∧ s.mpuRefusal
    { master := x.engine, kind := 2, privilege := 0, space := 0, address := x.base + 64 * (x.consumer % 2 ^ x.log2Size), pageCount := 1, inst := x.inst }
    = none) ∧
(∃ (s : State) (queue tag : Nat) (x : SendQueue) (o : OpSlot) (d : Desc), s.startTag queue d = some tag ∧ s.mec.sendQ.find queue = some x ∧ s.slot tag
    = some o ∧ s.engineRuns (tag / 512) = true ∧ s.fenced x tag o = false ∧ d.op = 1) ∧
(∃ (s : State) (queue tag : Nat) (x : SendQueue) (o : OpSlot) (d : Desc), s.startTag queue d = some tag ∧ s.mec.sendQ.find queue = some x ∧ s.slot tag
    = some o ∧ s.engineRuns (tag / 512) = true ∧ s.fenced x tag o = false ∧ d.op = 2 ∧ (s.unqueue queue tag).localOk o 1 0 o.d.length = (true,
    s.unqueue queue tag)) ∧
(∃ (s : State) (queue tag : Nat) (x : SendQueue) (o : OpSlot) (d : Desc), s.startTag queue d = some tag ∧ s.mec.sendQ.find queue = some x ∧ s.slot tag
    = some o ∧ s.engineRuns (tag / 512) = true ∧ s.fenced x tag o = false ∧ d.op = 3 ∧ o.d.size16 = false ∧ (s.unqueue queue tag).localOk o 1 0 8 =
    (true, s.unqueue queue tag)) ∧
(∃ (s : State) (queue tag : Nat) (x : SendQueue) (o : OpSlot) (d : Desc), s.startTag queue d = some tag ∧ s.mec.sendQ.find queue = some x ∧ s.slot tag
    = some o ∧ s.engineRuns (tag / 512) = true ∧ s.fenced x tag o = false ∧ d.op = 4) ∧
(∃ (s : State) (queue tag : Nat) (x : SendQueue) (o : OpSlot) (d : Desc), s.startTag queue d = some tag ∧ s.mec.sendQ.find queue = some x ∧ s.slot tag
    = some o ∧ s.engineRuns (tag / 512) = true ∧ s.fenced x tag o = false ∧ d.op = 5 ∧ s.queueLocks o.queue o.opTag < 8) ∧
(∃ (s : State) (queue tag : Nat) (x : SendQueue) (o : OpSlot) (d : Desc), s.startTag queue d = some tag ∧ s.mec.sendQ.find queue = some x ∧ s.slot tag
    = some o ∧ s.engineRuns (tag / 512) = true ∧ s.fenced x tag o = false ∧ d.op = 6) ∧
(∃ (s : State) (queue tag : Nat) (x : SendQueue) (o : OpSlot) (d : Desc) (c : Nat), s.startTag queue d = some tag ∧ s.mec.sendQ.find queue = some x ∧
    s.slot tag = some o ∧ s.engineRuns (tag / 512) = true ∧ s.fenced x tag o = false ∧ d.op = 7 ∧ s.counterIx o.inst o.d.trigCounter = some c) ∧
(∃ (s : State) (queue tag : Nat) (x : SendQueue) (o : OpSlot) (d : Desc) (c : Nat), s.startTag queue d = some tag ∧ s.mec.sendQ.find queue = some x ∧
    s.slot tag = some o ∧ s.engineRuns (tag / 512) = true ∧ s.fenced x tag o = false ∧ d.op = 8 ∧ s.counterIx o.inst o.d.trigCounter = some c) ∧
(∃ (s : State) (queue tag : Nat) (x : SendQueue) (o : OpSlot) (d : Desc), s.startTag queue d = some tag ∧ s.mec.sendQ.find queue = some x ∧ s.slot tag
    = some o ∧ s.engineRuns (tag / 512) = true ∧ s.fenced x tag o = false ∧ d.op = 9) ∧
(∃ (s : State) (engine tag : Nat) (t : Trigger) (x : SendQueue), s.mec.triggers = [t] ∧ t.engine = engine ∧ t.fired = true ∧ s.mec.sendQ.find t.queue
    = some x ∧ s.engineRuns engine = true ∧ s.enabled x.inst = true ∧ s.queueSlots t.queue < x.maxOut ∧ s.freeSlot engine = some tag ∧ x.error =
    false) ∧
(∃ (s : State) (tag : Nat) (o : OpSlot), s.slot tag = some o ∧ o.rnrWait = true ∧ s.forwarding = true ∧ s.earlierRefused o = false) ∧
(∃ (s : State) (index : Nat) (e : LockEntry), s.locks.table.find index = some e ∧ e.abandoned = false ∧ e.reported = false ∧ s.forwarding = true) ∧
(∃ (s : State) (tag : Nat) (x : OpSlot) (q : SendQueue), s.slot tag = some x ∧ x.opTag = tag ∧ x.isRget = false ∧ x.standIn = none ∧ x.result = none ∧
    x.triggered = false ∧ x.unacked ≠ 0 ∧ s.mec.sendQ.find x.queue = some q ∧ q.order = [tag] ∧ (∀ e ∈ s.mec.slots, e.2.triggered = false)) :=
  ⟨⟨(((sR.upInst 1023 fun x => { x with state := .enabled }).upMpu fun x => { x with masters := [(127, { setA := [(0, { valid := true, space := 0, perm := 511, ownFunction := true, pages := 2 ^ 36 })] })] }).upMec fun x => { x with sendQ := [(16383, { inst := 1023, base := 0, log2Size := 6, cq := 16383, engine := 127, weight := 1, maxOut := 64, producer := 1 })], compQ := [(16383, { inst := 1023, base := 0, log2Size := 6, vector := 0 })] }),
      16383, 65024, { inst := 1023, base := 0, log2Size := 6, cq := 16383, engine := 127, weight := 1, maxOut := 64, producer := 1 },
      (1 + 8 * 2 ^ 32 + 9 * 2 ^ 192 + 5 * 2 ^ 288 + 6 * 2 ^ 304), (sendDescOf (1 + 8 * 2 ^ 32 + 9 * 2 ^ 192 + 5 * 2 ^ 288 + 6 * 2 ^ 304)),
      by decide +kernel⟩,
    ⟨((((sR.upInst 1023 fun x => { x with state := .enabled }).upMec fun x => { x with inst := [(1023, { counterCount := 8, heap := 1 })] }).upMpu fun x => { x with masters := [(127, { setA := [(0, { valid := true, space := 0, perm := 511, ownFunction := true, pages := 2 ^ 36 })] })] }).upMec fun x => { x with sendQ := [(16383, { inst := 1023, base := 0, log2Size := 6, cq := 16383, engine := 127, weight := 1, maxOut := 64, producer := 1 })], compQ := [(16383, { inst := 1023, base := 0, log2Size := 6, vector := 0 })] }),
      16383, { inst := 1023, base := 0, log2Size := 6, cq := 16383, engine := 127, weight := 1, maxOut := 64, producer := 1 },
      (1 + 2 ^ 12 + 8 * 2 ^ 32), (sendDescOf (1 + 2 ^ 12 + 8 * 2 ^ 32)), by decide +kernel⟩,
    ⟨((((sR.upInst 1023 fun x => { x with state := .enabled }).upMec fun x => { x with inst := [(1023, { counterCount := 8, heap := 1 })] }).upMpu fun x => { x with masters := [(127, { setA := [(0, { valid := true, space := 0, perm := 511, ownFunction := true, pages := 2 ^ 36 })] })] }).upMec fun x => { x with sendQ := [(16383, { inst := 1023, base := 0, log2Size := 6, cq := 16383, engine := 127, weight := 1, maxOut := 64, issue := [65535], order := [65535] })], compQ := [(16383, { inst := 1023, base := 0, log2Size := 6, vector := 0 })], slots := [(65535, { opTag := 65535, queue := 16383, inst := 1023, queueGen := 0, d := { op := 1, length := 8, destDevice := 9, region := 5, key := 6 } })] }),
      16383, 65535,
      { inst := 1023, base := 0, log2Size := 6, cq := 16383, engine := 127, weight := 1, maxOut := 64, issue := [65535], order := [65535] },
      { opTag := 65535, queue := 16383, inst := 1023, queueGen := 0, d := { op := 1, length := 8, destDevice := 9, region := 5, key := 6 } },
      { op := 1, length := 8, destDevice := 9, region := 5, key := 6 }, by decide +kernel⟩,
    ⟨((((sR.upInst 1023 fun x => { x with state := .enabled }).upMec fun x => { x with inst := [(1023, { counterCount := 8, heap := 1 })] }).upMpu fun x => { x with masters := [(127, { setA := [(0, { valid := true, space := 0, perm := 511, ownFunction := true, pages := 2 ^ 36 })] })] }).upMec fun x => { x with sendQ := [(16383, { inst := 1023, base := 0, log2Size := 6, cq := 16383, engine := 127, weight := 1, maxOut := 64, issue := [65535], order := [65535] })], compQ := [(16383, { inst := 1023, base := 0, log2Size := 6, vector := 0 })], slots := [(65535, { opTag := 65535, queue := 16383, inst := 1023, queueGen := 0, d := { op := 2, length := 8, destDevice := 9, region := 5, key := 6 } })] }),
      16383, 65535,
      { inst := 1023, base := 0, log2Size := 6, cq := 16383, engine := 127, weight := 1, maxOut := 64, issue := [65535], order := [65535] },
      { opTag := 65535, queue := 16383, inst := 1023, queueGen := 0, d := { op := 2, length := 8, destDevice := 9, region := 5, key := 6 } },
      { op := 2, length := 8, destDevice := 9, region := 5, key := 6 }, by decide +kernel⟩,
    ⟨((((sR.upInst 1023 fun x => { x with state := .enabled }).upMec fun x => { x with inst := [(1023, { counterCount := 8, heap := 1 })] }).upMpu fun x => { x with masters := [(127, { setA := [(0, { valid := true, space := 0, perm := 511, ownFunction := true, pages := 2 ^ 36 })] })] }).upMec fun x => { x with sendQ := [(16383, { inst := 1023, base := 0, log2Size := 6, cq := 16383, engine := 127, weight := 1, maxOut := 64, issue := [65535], order := [65535] })], compQ := [(16383, { inst := 1023, base := 0, log2Size := 6, vector := 0 })], slots := [(65535, { opTag := 65535, queue := 16383, inst := 1023, queueGen := 0, d := { op := 3, length := 8, destDevice := 9, region := 5, key := 6 } })] }),
      16383, 65535,
      { inst := 1023, base := 0, log2Size := 6, cq := 16383, engine := 127, weight := 1, maxOut := 64, issue := [65535], order := [65535] },
      { opTag := 65535, queue := 16383, inst := 1023, queueGen := 0, d := { op := 3, length := 8, destDevice := 9, region := 5, key := 6 } },
      { op := 3, length := 8, destDevice := 9, region := 5, key := 6 }, by decide +kernel⟩,
    ⟨((((sR.upInst 1023 fun x => { x with state := .enabled }).upMec fun x => { x with inst := [(1023, { counterCount := 8, heap := 1 })] }).upMpu fun x => { x with masters := [(127, { setA := [(0, { valid := true, space := 0, perm := 511, ownFunction := true, pages := 2 ^ 36 })] })] }).upMec fun x => { x with sendQ := [(16383, { inst := 1023, base := 0, log2Size := 6, cq := 16383, engine := 127, weight := 1, maxOut := 64, issue := [65535], order := [65535] })], compQ := [(16383, { inst := 1023, base := 0, log2Size := 6, vector := 0 })], slots := [(65535, { opTag := 65535, queue := 16383, inst := 1023, queueGen := 0, d := { op := 4, length := 8, destDevice := 9, region := 5, key := 6 } })] }),
      16383, 65535,
      { inst := 1023, base := 0, log2Size := 6, cq := 16383, engine := 127, weight := 1, maxOut := 64, issue := [65535], order := [65535] },
      { opTag := 65535, queue := 16383, inst := 1023, queueGen := 0, d := { op := 4, length := 8, destDevice := 9, region := 5, key := 6 } },
      { op := 4, length := 8, destDevice := 9, region := 5, key := 6 }, by decide +kernel⟩,
    ⟨((((sR.upInst 1023 fun x => { x with state := .enabled }).upMec fun x => { x with inst := [(1023, { counterCount := 8, heap := 1 })] }).upMpu fun x => { x with masters := [(127, { setA := [(0, { valid := true, space := 0, perm := 511, ownFunction := true, pages := 2 ^ 36 })] })] }).upMec fun x => { x with sendQ := [(16383, { inst := 1023, base := 0, log2Size := 6, cq := 16383, engine := 127, weight := 1, maxOut := 64, issue := [65535], order := [65535] })], compQ := [(16383, { inst := 1023, base := 0, log2Size := 6, vector := 0 })], slots := [(65535, { opTag := 65535, queue := 16383, inst := 1023, queueGen := 0, d := { op := 5, length := 8, destDevice := 9, region := 5, key := 6 } })] }),
      16383, 65535,
      { inst := 1023, base := 0, log2Size := 6, cq := 16383, engine := 127, weight := 1, maxOut := 64, issue := [65535], order := [65535] },
      { opTag := 65535, queue := 16383, inst := 1023, queueGen := 0, d := { op := 5, length := 8, destDevice := 9, region := 5, key := 6 } },
      { op := 5, length := 8, destDevice := 9, region := 5, key := 6 }, by decide +kernel⟩,
    ⟨((((sR.upInst 1023 fun x => { x with state := .enabled }).upMec fun x => { x with inst := [(1023, { counterCount := 8, heap := 1 })] }).upMpu fun x => { x with masters := [(127, { setA := [(0, { valid := true, space := 0, perm := 511, ownFunction := true, pages := 2 ^ 36 })] })] }).upMec fun x => { x with sendQ := [(16383, { inst := 1023, base := 0, log2Size := 6, cq := 16383, engine := 127, weight := 1, maxOut := 64, issue := [65535], order := [65535] })], compQ := [(16383, { inst := 1023, base := 0, log2Size := 6, vector := 0 })], slots := [(65535, { opTag := 65535, queue := 16383, inst := 1023, queueGen := 0, d := { op := 6, length := 8, destDevice := 9, region := 5, key := 6 } })] }),
      16383, 65535,
      { inst := 1023, base := 0, log2Size := 6, cq := 16383, engine := 127, weight := 1, maxOut := 64, issue := [65535], order := [65535] },
      { opTag := 65535, queue := 16383, inst := 1023, queueGen := 0, d := { op := 6, length := 8, destDevice := 9, region := 5, key := 6 } },
      { op := 6, length := 8, destDevice := 9, region := 5, key := 6 }, by decide +kernel⟩,
    ⟨((((sR.upInst 1023 fun x => { x with state := .enabled }).upMec fun x => { x with inst := [(1023, { counterCount := 8, heap := 1 })] }).upMpu fun x => { x with masters := [(127, { setA := [(0, { valid := true, space := 0, perm := 511, ownFunction := true, pages := 2 ^ 36 })] })] }).upMec fun x => { x with sendQ := [(16383, { inst := 1023, base := 0, log2Size := 6, cq := 16383, engine := 127, weight := 1, maxOut := 64, issue := [65535], order := [65535] })], compQ := [(16383, { inst := 1023, base := 0, log2Size := 6, vector := 0 })], slots := [(65535, { opTag := 65535, queue := 16383, inst := 1023, queueGen := 0, d := { op := 7, length := 8, destDevice := 9, region := 5, key := 6 } })] }),
      16383, 65535,
      { inst := 1023, base := 0, log2Size := 6, cq := 16383, engine := 127, weight := 1, maxOut := 64, issue := [65535], order := [65535] },
      { opTag := 65535, queue := 16383, inst := 1023, queueGen := 0, d := { op := 7, length := 8, destDevice := 9, region := 5, key := 6 } },
      { op := 7, length := 8, destDevice := 9, region := 5, key := 6 }, 0, by decide +kernel⟩,
    ⟨((((sR.upInst 1023 fun x => { x with state := .enabled }).upMec fun x => { x with inst := [(1023, { counterCount := 8, heap := 1 })] }).upMpu fun x => { x with masters := [(127, { setA := [(0, { valid := true, space := 0, perm := 511, ownFunction := true, pages := 2 ^ 36 })] })] }).upMec fun x => { x with sendQ := [(16383, { inst := 1023, base := 0, log2Size := 6, cq := 16383, engine := 127, weight := 1, maxOut := 64, issue := [65535], order := [65535] })], compQ := [(16383, { inst := 1023, base := 0, log2Size := 6, vector := 0 })], slots := [(65535, { opTag := 65535, queue := 16383, inst := 1023, queueGen := 0, d := { op := 8, length := 8, destDevice := 9, region := 5, key := 6 } })] }),
      16383, 65535,
      { inst := 1023, base := 0, log2Size := 6, cq := 16383, engine := 127, weight := 1, maxOut := 64, issue := [65535], order := [65535] },
      { opTag := 65535, queue := 16383, inst := 1023, queueGen := 0, d := { op := 8, length := 8, destDevice := 9, region := 5, key := 6 } },
      { op := 8, length := 8, destDevice := 9, region := 5, key := 6 }, 0, by decide +kernel⟩,
    ⟨((((sR.upInst 1023 fun x => { x with state := .enabled }).upMec fun x => { x with inst := [(1023, { counterCount := 8, heap := 1 })] }).upMpu fun x => { x with masters := [(127, { setA := [(0, { valid := true, space := 0, perm := 511, ownFunction := true, pages := 2 ^ 36 })] })] }).upMec fun x => { x with sendQ := [(16383, { inst := 1023, base := 0, log2Size := 6, cq := 16383, engine := 127, weight := 1, maxOut := 64, issue := [65535], order := [65535] })], compQ := [(16383, { inst := 1023, base := 0, log2Size := 6, vector := 0 })], slots := [(65535, { opTag := 65535, queue := 16383, inst := 1023, queueGen := 0, d := { op := 9, length := 8, destDevice := 9, region := 5, key := 6 } })] }),
      16383, 65535,
      { inst := 1023, base := 0, log2Size := 6, cq := 16383, engine := 127, weight := 1, maxOut := 64, issue := [65535], order := [65535] },
      { opTag := 65535, queue := 16383, inst := 1023, queueGen := 0, d := { op := 9, length := 8, destDevice := 9, region := 5, key := 6 } },
      { op := 9, length := 8, destDevice := 9, region := 5, key := 6 }, by decide +kernel⟩,
    ⟨((sR.upInst 1023 fun x => { x with state := .enabled }).upMec fun x => { x with sendQ := [(16383, { inst := 1023, base := 0, log2Size := 6, cq := 16383, engine := 127, weight := 1, maxOut := 64 })], compQ := [(16383, { inst := 1023, base := 0, log2Size := 6, vector := 0 })], triggers := [{ engine := 127, queue := 16383, d := { op := 1, length := 8, destDevice := 9, region := 5, key := 6 }, fired := true }] }),
      127, 65024, { engine := 127, queue := 16383, d := { op := 1, length := 8, destDevice := 9, region := 5, key := 6 }, fired := true },
      { inst := 1023, base := 0, log2Size := 6, cq := 16383, engine := 127, weight := 1, maxOut := 64 }, by decide +kernel⟩,
    ⟨((sR.upInst 1023 fun x => { x with state := .enabled }).upMec fun x => { x with sendQ := [(16383, { inst := 1023, base := 0, log2Size := 6, cq := 16383, engine := 127, weight := 1, maxOut := 64, order := [65535] })], compQ := [(16383, { inst := 1023, base := 0, log2Size := 6, vector := 0 })], slots := [(65535, { opTag := 65535, queue := 16383, inst := 1023, queueGen := 0, d := { op := 4, length := 8, destDevice := 9, region := 5, key := 6 }, rnrWait := true })] }),
      65535,
      { opTag := 65535, queue := 16383, inst := 1023, queueGen := 0, d := { op := 4, length := 8, destDevice := 9, region := 5, key := 6 }, rnrWait := true },
      by decide +kernel⟩,
    ⟨{ sR with locks := { table := [(4095, { region := 65535, offset := 64, length := 64, owner := { device := 7, inst := 5, queue := 16383 } })] } },
      4095, { region := 65535, offset := 64, length := 64, owner := { device := 7, inst := 5, queue := 16383 } }, by decide +kernel⟩,
    ⟨((sR.upInst 1023 fun x => { x with state := .enabled }).upMec fun x => { x with sendQ := [(16383, { inst := 1023, base := 0, log2Size := 6, cq := 16383, engine := 127, weight := 1, maxOut := 64, order := [65535] })], compQ := [(16383, { inst := 1023, base := 0, log2Size := 6, vector := 0 })], slots := [(65535, { opTag := 65535, queue := 16383, inst := 1023, queueGen := 0, d := { op := 4, length := 8, destDevice := 9, region := 5, key := 6 }, unacked := 1 })] }),
      65535,
      { opTag := 65535, queue := 16383, inst := 1023, queueGen := 0, d := { op := 4, length := 8, destDevice := 9, region := 5, key := 6 }, unacked := 1 },
      { inst := 1023, base := 0, log2Size := 6, cq := 16383, engine := 127, weight := 1, maxOut := 64, order := [65535] }, by decide +kernel⟩⟩

theorem witness_EngineRequestsServed :
(∃ (s : State) (r : Req) (a : Access) (data : List Nat) (g : RegionP), s.forwarding = true ∧ s.guard r { a with length := data.length } 1 1 = (.ok g,
    s) ∧ s.heldByOther (ownerOf r) a.region a.offset data.length = false ∧ putName r ∉ s.mec.refusedPuts) ∧
(∃ (s : State) (r : Req) (a : Access) (g : RegionP), s.forwarding = true ∧ s.guard r a 0 0 = (.ok g, s) ∧ s.heldByOther (ownerOf r) a.region a.offset
    a.length = false) ∧
(∃ (s : State) (r : Req) (a : Access) (aop : Nat) (size16 : Bool) (g : RegionP), s.forwarding = true ∧ s.guard r
    { a with length := atomicSize size16 } 2 1 = (.ok g, s) ∧ aop ≤ 6 ∧ a.offset % atomicSize size16 = 0 ∧ g.kind ≠ 0 ∧ s.heldByOther (ownerOf r)
    a.region a.offset (atomicSize size16) = false) ∧
(∃ (s : State) (r : Req) (a : Access) (g : RegionP), s.forwarding = true ∧ s.region a.region = some g ∧ s.regionRefusal r.srcDevice r.srcInst a 3 =
    none ∧ a.offset % 64 = 0 ∧ a.length % 64 = 0 ∧ 0 < a.length ∧ a.length ≤ 1048576 ∧ s.locks.table = []) ∧
(∃ (s : State) (r : Req) (a : Access) (g : RegionP), s.forwarding = true ∧ s.region a.region = some g ∧ s.regionRefusal r.srcDevice r.srcInst a 3 =
    none ∧ a.offset % 64 = 0 ∧ a.length % 64 = 0 ∧ 0 < a.length ∧ a.length ≤ 1048576 ∧ s.held a.region a.offset a.length = true ∧ s.locks.waits.length
    < 4096) ∧
(∃ (s : State) (r : Req) (a : Access) (g : RegionP) (i : Nat), s.forwarding = true ∧ s.region a.region = some g ∧ s.regionRefusal r.srcDevice
    r.srcInst a 3 = none ∧ s.locks.waits = [] ∧ s.locks.table = [(i,
    { region := a.region, offset := a.offset, length := a.length, owner := ownerOf r })]) ∧
(∃ (s : State) (r : Req) (queue i : Nat) (e : LockEntry), s.forwarding = true ∧ s.locks.waits = [] ∧ s.locks.table = [(i, e)] ∧ e.abandoned = false ∧
    e.owner = { device := r.srcDevice, inst := r.srcInst, queue }) :=
  ⟨⟨((((sR.upInst 1023 fun x => { x with state := .enabled }).upMec fun x => { x with inst := [(1023, { counterCount := 8, heap := 1 })] }).upMpu fun x => { x with masters := [(128, { setA := [(0, { valid := true, space := 1, perm := 511, ownFunction := true, pages := 2 ^ 36 })] }), (129, { setA := [(0, { valid := true, space := 1, perm := 511, ownFunction := true, pages := 2 ^ 36 })] }), (130, { setA := [(0, { valid := true, space := 1, perm := 511, ownFunction := true, pages := 2 ^ 36 })] }), (131, { setA := [(0, { valid := true, space := 1, perm := 511, ownFunction := true, pages := 2 ^ 36 })] }), (132, { setA := [(0, { valid := true, space := 1, perm := 511, ownFunction := true, pages := 2 ^ 36 })] }), (133, { setA := [(0, { valid := true, space := 1, perm := 511, ownFunction := true, pages := 2 ^ 36 })] }), (134, { setA := [(0, { valid := true, space := 1, perm := 511, ownFunction := true, pages := 2 ^ 36 })] }), (135, { setA := [(0, { valid := true, space := 1, perm := 511, ownFunction := true, pages := 2 ^ 36 })] }), (136, { setA := [(0, { valid := true, space := 1, perm := 511, ownFunction := true, pages := 2 ^ 36 })] }), (137, { setA := [(0, { valid := true, space := 1, perm := 511, ownFunction := true, pages := 2 ^ 36 })] }), (138, { setA := [(0, { valid := true, space := 1, perm := 511, ownFunction := true, pages := 2 ^ 36 })] }), (139, { setA := [(0, { valid := true, space := 1, perm := 511, ownFunction := true, pages := 2 ^ 36 })] }), (140, { setA := [(0, { valid := true, space := 1, perm := 511, ownFunction := true, pages := 2 ^ 36 })] }), (141, { setA := [(0, { valid := true, space := 1, perm := 511, ownFunction := true, pages := 2 ^ 36 })] }), (142, { setA := [(0, { valid := true, space := 1, perm := 511, ownFunction := true, pages := 2 ^ 36 })] }), (143, { setA := [(0, { valid := true, space := 1, perm := 511, ownFunction := true, pages := 2 ^ 36 })] })] }).upMec fun x => { x with regions := [(65535, { region := 65535, valid := true, inst := 1023, kind := 1, base := 16, length := 16777216, key := 65535, rights := 15, filterDevice := 0, filterMask := 0, filterAny := true, filterInst := 0, counterValid := false, counter := 0 })] }),
      { srcDevice := 7, srcInst := 5, srcQueue := 16383, opTag := 65535, instGen := 0, sl := 1 },
      { region := 65535, key := 65535, offset := 64, length := 64 }, List.replicate 64 7,
      { region := 65535, valid := true, inst := 1023, kind := 1, base := 16, length := 16777216, key := 65535, rights := 15, filterDevice := 0, filterMask := 0, filterAny := true, filterInst := 0, counterValid := false, counter := 0 },
      by decide +kernel⟩,
    ⟨((((sR.upInst 1023 fun x => { x with state := .enabled }).upMec fun x => { x with inst := [(1023, { counterCount := 8, heap := 1 })] }).upMpu fun x => { x with masters := [(128, { setA := [(0, { valid := true, space := 1, perm := 511, ownFunction := true, pages := 2 ^ 36 })] }), (129, { setA := [(0, { valid := true, space := 1, perm := 511, ownFunction := true, pages := 2 ^ 36 })] }), (130, { setA := [(0, { valid := true, space := 1, perm := 511, ownFunction := true, pages := 2 ^ 36 })] }), (131, { setA := [(0, { valid := true, space := 1, perm := 511, ownFunction := true, pages := 2 ^ 36 })] }), (132, { setA := [(0, { valid := true, space := 1, perm := 511, ownFunction := true, pages := 2 ^ 36 })] }), (133, { setA := [(0, { valid := true, space := 1, perm := 511, ownFunction := true, pages := 2 ^ 36 })] }), (134, { setA := [(0, { valid := true, space := 1, perm := 511, ownFunction := true, pages := 2 ^ 36 })] }), (135, { setA := [(0, { valid := true, space := 1, perm := 511, ownFunction := true, pages := 2 ^ 36 })] }), (136, { setA := [(0, { valid := true, space := 1, perm := 511, ownFunction := true, pages := 2 ^ 36 })] }), (137, { setA := [(0, { valid := true, space := 1, perm := 511, ownFunction := true, pages := 2 ^ 36 })] }), (138, { setA := [(0, { valid := true, space := 1, perm := 511, ownFunction := true, pages := 2 ^ 36 })] }), (139, { setA := [(0, { valid := true, space := 1, perm := 511, ownFunction := true, pages := 2 ^ 36 })] }), (140, { setA := [(0, { valid := true, space := 1, perm := 511, ownFunction := true, pages := 2 ^ 36 })] }), (141, { setA := [(0, { valid := true, space := 1, perm := 511, ownFunction := true, pages := 2 ^ 36 })] }), (142, { setA := [(0, { valid := true, space := 1, perm := 511, ownFunction := true, pages := 2 ^ 36 })] }), (143, { setA := [(0, { valid := true, space := 1, perm := 511, ownFunction := true, pages := 2 ^ 36 })] })] }).upMec fun x => { x with regions := [(65535, { region := 65535, valid := true, inst := 1023, kind := 1, base := 16, length := 16777216, key := 65535, rights := 15, filterDevice := 0, filterMask := 0, filterAny := true, filterInst := 0, counterValid := false, counter := 0 })] }),
      { srcDevice := 7, srcInst := 5, srcQueue := 16383, opTag := 65535, instGen := 0, sl := 1 },
      { region := 65535, key := 65535, offset := 64, length := 64 },
      { region := 65535, valid := true, inst := 1023, kind := 1, base := 16, length := 16777216, key := 65535, rights := 15, filterDevice := 0, filterMask := 0, filterAny := true, filterInst := 0, counterValid := false, counter := 0 },
      by decide +kernel⟩,
    ⟨((((sR.upInst 1023 fun x => { x with state := .enabled }).upMec fun x => { x with inst := [(1023, { counterCount := 8, heap := 1 })] }).upMpu fun x => { x with masters := [(128, { setA := [(0, { valid := true, space := 1, perm := 511, ownFunction := true, pages := 2 ^ 36 })] }), (129, { setA := [(0, { valid := true, space := 1, perm := 511, ownFunction := true, pages := 2 ^ 36 })] }), (130, { setA := [(0, { valid := true, space := 1, perm := 511, ownFunction := true, pages := 2 ^ 36 })] }), (131, { setA := [(0, { valid := true, space := 1, perm := 511, ownFunction := true, pages := 2 ^ 36 })] }), (132, { setA := [(0, { valid := true, space := 1, perm := 511, ownFunction := true, pages := 2 ^ 36 })] }), (133, { setA := [(0, { valid := true, space := 1, perm := 511, ownFunction := true, pages := 2 ^ 36 })] }), (134, { setA := [(0, { valid := true, space := 1, perm := 511, ownFunction := true, pages := 2 ^ 36 })] }), (135, { setA := [(0, { valid := true, space := 1, perm := 511, ownFunction := true, pages := 2 ^ 36 })] }), (136, { setA := [(0, { valid := true, space := 1, perm := 511, ownFunction := true, pages := 2 ^ 36 })] }), (137, { setA := [(0, { valid := true, space := 1, perm := 511, ownFunction := true, pages := 2 ^ 36 })] }), (138, { setA := [(0, { valid := true, space := 1, perm := 511, ownFunction := true, pages := 2 ^ 36 })] }), (139, { setA := [(0, { valid := true, space := 1, perm := 511, ownFunction := true, pages := 2 ^ 36 })] }), (140, { setA := [(0, { valid := true, space := 1, perm := 511, ownFunction := true, pages := 2 ^ 36 })] }), (141, { setA := [(0, { valid := true, space := 1, perm := 511, ownFunction := true, pages := 2 ^ 36 })] }), (142, { setA := [(0, { valid := true, space := 1, perm := 511, ownFunction := true, pages := 2 ^ 36 })] }), (143, { setA := [(0, { valid := true, space := 1, perm := 511, ownFunction := true, pages := 2 ^ 36 })] })] }).upMec fun x => { x with regions := [(65535, { region := 65535, valid := true, inst := 1023, kind := 1, base := 16, length := 16777216, key := 65535, rights := 15, filterDevice := 0, filterMask := 0, filterAny := true, filterInst := 0, counterValid := false, counter := 0 })] }),
      { srcDevice := 7, srcInst := 5, srcQueue := 16383, opTag := 65535, instGen := 0, sl := 1 },
      { region := 65535, key := 65535, offset := 64, length := 64 }, 6, true,
      { region := 65535, valid := true, inst := 1023, kind := 1, base := 16, length := 16777216, key := 65535, rights := 15, filterDevice := 0, filterMask := 0, filterAny := true, filterInst := 0, counterValid := false, counter := 0 },
      by decide +kernel⟩,
    ⟨((((sR.upInst 1023 fun x => { x with state := .enabled }).upMec fun x => { x with inst := [(1023, { counterCount := 8, heap := 1 })] }).upMpu fun x => { x with masters := [(128, { setA := [(0, { valid := true, space := 1, perm := 511, ownFunction := true, pages := 2 ^ 36 })] }), (129, { setA := [(0, { valid := true, space := 1, perm := 511, ownFunction := true, pages := 2 ^ 36 })] }), (130, { setA := [(0, { valid := true, space := 1, perm := 511, ownFunction := true, pages := 2 ^ 36 })] }), (131, { setA := [(0, { valid := true, space := 1, perm := 511, ownFunction := true, pages := 2 ^ 36 })] }), (132, { setA := [(0, { valid := true, space := 1, perm := 511, ownFunction := true, pages := 2 ^ 36 })] }), (133, { setA := [(0, { valid := true, space := 1, perm := 511, ownFunction := true, pages := 2 ^ 36 })] }), (134, { setA := [(0, { valid := true, space := 1, perm := 511, ownFunction := true, pages := 2 ^ 36 })] }), (135, { setA := [(0, { valid := true, space := 1, perm := 511, ownFunction := true, pages := 2 ^ 36 })] }), (136, { setA := [(0, { valid := true, space := 1, perm := 511, ownFunction := true, pages := 2 ^ 36 })] }), (137, { setA := [(0, { valid := true, space := 1, perm := 511, ownFunction := true, pages := 2 ^ 36 })] }), (138, { setA := [(0, { valid := true, space := 1, perm := 511, ownFunction := true, pages := 2 ^ 36 })] }), (139, { setA := [(0, { valid := true, space := 1, perm := 511, ownFunction := true, pages := 2 ^ 36 })] }), (140, { setA := [(0, { valid := true, space := 1, perm := 511, ownFunction := true, pages := 2 ^ 36 })] }), (141, { setA := [(0, { valid := true, space := 1, perm := 511, ownFunction := true, pages := 2 ^ 36 })] }), (142, { setA := [(0, { valid := true, space := 1, perm := 511, ownFunction := true, pages := 2 ^ 36 })] }), (143, { setA := [(0, { valid := true, space := 1, perm := 511, ownFunction := true, pages := 2 ^ 36 })] })] }).upMec fun x => { x with regions := [(65535, { region := 65535, valid := true, inst := 1023, kind := 1, base := 16, length := 16777216, key := 65535, rights := 15, filterDevice := 0, filterMask := 0, filterAny := true, filterInst := 0, counterValid := false, counter := 0 })] }),
      { srcDevice := 7, srcInst := 5, srcQueue := 16383, opTag := 65535, instGen := 0, sl := 1 },
      { region := 65535, key := 65535, offset := 64, length := 64 },
      { region := 65535, valid := true, inst := 1023, kind := 1, base := 16, length := 16777216, key := 65535, rights := 15, filterDevice := 0, filterMask := 0, filterAny := true, filterInst := 0, counterValid := false, counter := 0 },
      by decide +kernel⟩,
    ⟨{ ((((sR.upInst 1023 fun x => { x with state := .enabled }).upMec fun x => { x with inst := [(1023, { counterCount := 8, heap := 1 })] }).upMpu fun x => { x with masters := [(128, { setA := [(0, { valid := true, space := 1, perm := 511, ownFunction := true, pages := 2 ^ 36 })] }), (129, { setA := [(0, { valid := true, space := 1, perm := 511, ownFunction := true, pages := 2 ^ 36 })] }), (130, { setA := [(0, { valid := true, space := 1, perm := 511, ownFunction := true, pages := 2 ^ 36 })] }), (131, { setA := [(0, { valid := true, space := 1, perm := 511, ownFunction := true, pages := 2 ^ 36 })] }), (132, { setA := [(0, { valid := true, space := 1, perm := 511, ownFunction := true, pages := 2 ^ 36 })] }), (133, { setA := [(0, { valid := true, space := 1, perm := 511, ownFunction := true, pages := 2 ^ 36 })] }), (134, { setA := [(0, { valid := true, space := 1, perm := 511, ownFunction := true, pages := 2 ^ 36 })] }), (135, { setA := [(0, { valid := true, space := 1, perm := 511, ownFunction := true, pages := 2 ^ 36 })] }), (136, { setA := [(0, { valid := true, space := 1, perm := 511, ownFunction := true, pages := 2 ^ 36 })] }), (137, { setA := [(0, { valid := true, space := 1, perm := 511, ownFunction := true, pages := 2 ^ 36 })] }), (138, { setA := [(0, { valid := true, space := 1, perm := 511, ownFunction := true, pages := 2 ^ 36 })] }), (139, { setA := [(0, { valid := true, space := 1, perm := 511, ownFunction := true, pages := 2 ^ 36 })] }), (140, { setA := [(0, { valid := true, space := 1, perm := 511, ownFunction := true, pages := 2 ^ 36 })] }), (141, { setA := [(0, { valid := true, space := 1, perm := 511, ownFunction := true, pages := 2 ^ 36 })] }), (142, { setA := [(0, { valid := true, space := 1, perm := 511, ownFunction := true, pages := 2 ^ 36 })] }), (143, { setA := [(0, { valid := true, space := 1, perm := 511, ownFunction := true, pages := 2 ^ 36 })] })] }).upMec fun x => { x with regions := [(65535, { region := 65535, valid := true, inst := 1023, kind := 1, base := 16, length := 16777216, key := 65535, rights := 15, filterDevice := 0, filterMask := 0, filterAny := true, filterInst := 0, counterValid := false, counter := 0 })] }) with locks := { table := [(4095, { region := 65535, offset := 64, length := 64, owner := { device := 8, inst := 5, queue := 16383 } })] } },
      { srcDevice := 7, srcInst := 5, srcQueue := 16383, opTag := 65535, instGen := 0, sl := 1 },
      { region := 65535, key := 65535, offset := 64, length := 64 },
      { region := 65535, valid := true, inst := 1023, kind := 1, base := 16, length := 16777216, key := 65535, rights := 15, filterDevice := 0, filterMask := 0, filterAny := true, filterInst := 0, counterValid := false, counter := 0 },
      by decide +kernel⟩,
    ⟨{ ((((sR.upInst 1023 fun x => { x with state := .enabled }).upMec fun x => { x with inst := [(1023, { counterCount := 8, heap := 1 })] }).upMpu fun x => { x with masters := [(128, { setA := [(0, { valid := true, space := 1, perm := 511, ownFunction := true, pages := 2 ^ 36 })] }), (129, { setA := [(0, { valid := true, space := 1, perm := 511, ownFunction := true, pages := 2 ^ 36 })] }), (130, { setA := [(0, { valid := true, space := 1, perm := 511, ownFunction := true, pages := 2 ^ 36 })] }), (131, { setA := [(0, { valid := true, space := 1, perm := 511, ownFunction := true, pages := 2 ^ 36 })] }), (132, { setA := [(0, { valid := true, space := 1, perm := 511, ownFunction := true, pages := 2 ^ 36 })] }), (133, { setA := [(0, { valid := true, space := 1, perm := 511, ownFunction := true, pages := 2 ^ 36 })] }), (134, { setA := [(0, { valid := true, space := 1, perm := 511, ownFunction := true, pages := 2 ^ 36 })] }), (135, { setA := [(0, { valid := true, space := 1, perm := 511, ownFunction := true, pages := 2 ^ 36 })] }), (136, { setA := [(0, { valid := true, space := 1, perm := 511, ownFunction := true, pages := 2 ^ 36 })] }), (137, { setA := [(0, { valid := true, space := 1, perm := 511, ownFunction := true, pages := 2 ^ 36 })] }), (138, { setA := [(0, { valid := true, space := 1, perm := 511, ownFunction := true, pages := 2 ^ 36 })] }), (139, { setA := [(0, { valid := true, space := 1, perm := 511, ownFunction := true, pages := 2 ^ 36 })] }), (140, { setA := [(0, { valid := true, space := 1, perm := 511, ownFunction := true, pages := 2 ^ 36 })] }), (141, { setA := [(0, { valid := true, space := 1, perm := 511, ownFunction := true, pages := 2 ^ 36 })] }), (142, { setA := [(0, { valid := true, space := 1, perm := 511, ownFunction := true, pages := 2 ^ 36 })] }), (143, { setA := [(0, { valid := true, space := 1, perm := 511, ownFunction := true, pages := 2 ^ 36 })] })] }).upMec fun x => { x with regions := [(65535, { region := 65535, valid := true, inst := 1023, kind := 1, base := 16, length := 16777216, key := 65535, rights := 15, filterDevice := 0, filterMask := 0, filterAny := true, filterInst := 0, counterValid := false, counter := 0 })] }) with locks := { table := [(4095, { region := 65535, offset := 64, length := 64, owner := { device := 7, inst := 5, queue := 16383 } })] } },
      { srcDevice := 7, srcInst := 5, srcQueue := 16383, opTag := 65535, instGen := 0, sl := 1 },
      { region := 65535, key := 65535, offset := 64, length := 64 },
      { region := 65535, valid := true, inst := 1023, kind := 1, base := 16, length := 16777216, key := 65535, rights := 15, filterDevice := 0, filterMask := 0, filterAny := true, filterInst := 0, counterValid := false, counter := 0 },
      4095, by decide +kernel⟩,
    ⟨{ ((((sR.upInst 1023 fun x => { x with state := .enabled }).upMec fun x => { x with inst := [(1023, { counterCount := 8, heap := 1 })] }).upMpu fun x => { x with masters := [(128, { setA := [(0, { valid := true, space := 1, perm := 511, ownFunction := true, pages := 2 ^ 36 })] }), (129, { setA := [(0, { valid := true, space := 1, perm := 511, ownFunction := true, pages := 2 ^ 36 })] }), (130, { setA := [(0, { valid := true, space := 1, perm := 511, ownFunction := true, pages := 2 ^ 36 })] }), (131, { setA := [(0, { valid := true, space := 1, perm := 511, ownFunction := true, pages := 2 ^ 36 })] }), (132, { setA := [(0, { valid := true, space := 1, perm := 511, ownFunction := true, pages := 2 ^ 36 })] }), (133, { setA := [(0, { valid := true, space := 1, perm := 511, ownFunction := true, pages := 2 ^ 36 })] }), (134, { setA := [(0, { valid := true, space := 1, perm := 511, ownFunction := true, pages := 2 ^ 36 })] }), (135, { setA := [(0, { valid := true, space := 1, perm := 511, ownFunction := true, pages := 2 ^ 36 })] }), (136, { setA := [(0, { valid := true, space := 1, perm := 511, ownFunction := true, pages := 2 ^ 36 })] }), (137, { setA := [(0, { valid := true, space := 1, perm := 511, ownFunction := true, pages := 2 ^ 36 })] }), (138, { setA := [(0, { valid := true, space := 1, perm := 511, ownFunction := true, pages := 2 ^ 36 })] }), (139, { setA := [(0, { valid := true, space := 1, perm := 511, ownFunction := true, pages := 2 ^ 36 })] }), (140, { setA := [(0, { valid := true, space := 1, perm := 511, ownFunction := true, pages := 2 ^ 36 })] }), (141, { setA := [(0, { valid := true, space := 1, perm := 511, ownFunction := true, pages := 2 ^ 36 })] }), (142, { setA := [(0, { valid := true, space := 1, perm := 511, ownFunction := true, pages := 2 ^ 36 })] }), (143, { setA := [(0, { valid := true, space := 1, perm := 511, ownFunction := true, pages := 2 ^ 36 })] })] }).upMec fun x => { x with regions := [(65535, { region := 65535, valid := true, inst := 1023, kind := 1, base := 16, length := 16777216, key := 65535, rights := 15, filterDevice := 0, filterMask := 0, filterAny := true, filterInst := 0, counterValid := false, counter := 0 })] }) with locks := { table := [(4095, { region := 65535, offset := 64, length := 64, owner := { device := 7, inst := 5, queue := 16383 } })] } },
      { srcDevice := 7, srcInst := 5, srcQueue := 16383, opTag := 65535, instGen := 0, sl := 1 }, 16383, 4095,
      { region := 65535, offset := 64, length := 64, owner := { device := 7, inst := 5, queue := 16383 } }, by decide +kernel⟩⟩

theorem witness_EngineResponsesTakeEffect :
(∃ (s : State) (r : Rsp) (o : OpSlot), s.forwarding = true ∧ s.rspSlot r = some o ∧ o.isRget = false ∧ o.result = none ∧ o.standIn = none ∧ o.d.op =
    1) ∧
(∃ (s : State) (r : Rsp) (o : OpSlot) (data : List Nat), s.forwarding = true ∧ s.rspSlot r = some o ∧ o.isRget = false ∧ o.result = none ∧ o.standIn =
    none ∧ o.d.op = 2 ∧ o.bytes + data.length < o.d.length) ∧
(∃ (s : State) (r : Rsp) (o : OpSlot) (data : List Nat), s.forwarding = true ∧ s.rspSlot r = some o ∧ o.isRget = false ∧ o.result = none ∧ o.standIn =
    none ∧ o.d.op = 2 ∧ o.d.length ≤ o.bytes + data.length) ∧
(∃ (s : State) (r : Rsp) (o : OpSlot), s.forwarding = true ∧ s.rspSlot r = some o ∧ o.isRget = false ∧ o.result = none ∧ o.standIn = none ∧ o.d.op =
    3) ∧
(∃ (s : State) (r : Rsp) (o : OpSlot), s.forwarding = true ∧ s.rspSlot r = some o ∧ o.isRget = false ∧ o.result = none ∧ o.standIn = none ∧ o.d.op =
    4) ∧
(∃ (s : State) (r : Rsp) (o : OpSlot), s.forwarding = true ∧ s.rspSlot r = some o ∧ o.isRget = false ∧ o.result = none ∧ o.standIn = none ∧ o.d.op = 4
    ∧ o.rnrLimit.getD s.mec.rnrLimit = 0) ∧
(∃ (s : State) (r : Rsp) (o : OpSlot) (q : SendQueue), s.forwarding = true ∧ s.rspSlot r = some o ∧ o.isRget = false ∧ o.result = none ∧ o.standIn =
    none ∧ o.d.op = 5 ∧ s.mec.sendQ.find o.queue = some q ∧ q.error = false ∧ q.destroying = false ∧ r.status ≤ 3) ∧
(∃ (s : State) (r : Rsp) (o : OpSlot) (q : SendQueue), s.forwarding = true ∧ s.rspSlot r = some o ∧ o.isRget = false ∧ o.result = none ∧ o.standIn =
    none ∧ o.d.op = 6 ∧ s.mec.sendQ.find o.queue = some q ∧ r.status ≤ 3) ∧
(∃ (s : State) (r : Rsp) (o : OpSlot), s.forwarding = true ∧ s.rspSlot r = some o) ∧
(∃ (s : State) (rvTag offset length : Nat) (o : OpSlot), s.forwarding = true ∧ s.slot rvTag = some o ∧ o.d.op = 4 ∧ o.isRget = false ∧ o.result = none
    ∧ offset + length ≤ o.d.length) ∧
(∃ (s : State) (r : Rsp) (o : OpSlot) (m : Msg), s.forwarding = true ∧ s.rspSlot r = some o ∧ s.rgetMsg r.opTag = some m ∧ o.isRget = true) ∧
(∃ (s : State) (tag : Nat) (p : PendRead), s.mec.reads.find tag = some p ∧ p.again = none ∧ p.opcode = 0x11 ∧ p.left ≤ p.part) ∧
(∃ (s : State) (tag : Nat) (p : PendRead), s.mec.reads.find tag = some p ∧ p.again = none ∧ p.opcode = 0x11 ∧ p.slot = none) :=
  ⟨⟨((((sR.upInst 1023 fun x => { x with state := .enabled }).upMec fun x => { x with inst := [(1023, { counterCount := 8, heap := 1 })] }).upMpu fun x => { x with masters := [(127, { setA := [(0, { valid := true, space := 0, perm := 511, ownFunction := true, pages := 2 ^ 36 })] })] }).upMec fun x => { x with sendQ := [(16383, { inst := 1023, base := 0, log2Size := 6, cq := 16383, engine := 127, weight := 1, maxOut := 64, order := [65535] })], compQ := [(16383, { inst := 1023, base := 0, log2Size := 6, vector := 0 })], slots := [(65535, { opTag := 65535, queue := 16383, inst := 1023, queueGen := 0, d := { op := 1, length := 8, destDevice := 9, region := 5, key := 6 } })] }),
      { inst := 1023, opTag := 65535, instGen := 0, status := 0, dataOffset := 0 },
      { opTag := 65535, queue := 16383, inst := 1023, queueGen := 0, d := { op := 1, length := 8, destDevice := 9, region := 5, key := 6 } },
      by decide +kernel⟩,
    ⟨((((sR.upInst 1023 fun x => { x with state := .enabled }).upMec fun x => { x with inst := [(1023, { counterCount := 8, heap := 1 })] }).upMpu fun x => { x with masters := [(127, { setA := [(0, { valid := true, space := 0, perm := 511, ownFunction := true, pages := 2 ^ 36 })] })] }).upMec fun x => { x with sendQ := [(16383, { inst := 1023, base := 0, log2Size := 6, cq := 16383, engine := 127, weight := 1, maxOut := 64, order := [65535] })], compQ := [(16383, { inst := 1023, base := 0, log2Size := 6, vector := 0 })], slots := [(65535, { opTag := 65535, queue := 16383, inst := 1023, queueGen := 0, d := { op := 2, length := 8, destDevice := 9, region := 5, key := 6 } })] }),
      { inst := 1023, opTag := 65535, instGen := 0, status := 0, dataOffset := 0 },
      { opTag := 65535, queue := 16383, inst := 1023, queueGen := 0, d := { op := 2, length := 8, destDevice := 9, region := 5, key := 6 } },
      [1, 2, 3], by decide +kernel⟩,
    ⟨((((sR.upInst 1023 fun x => { x with state := .enabled }).upMec fun x => { x with inst := [(1023, { counterCount := 8, heap := 1 })] }).upMpu fun x => { x with masters := [(127, { setA := [(0, { valid := true, space := 0, perm := 511, ownFunction := true, pages := 2 ^ 36 })] })] }).upMec fun x => { x with sendQ := [(16383, { inst := 1023, base := 0, log2Size := 6, cq := 16383, engine := 127, weight := 1, maxOut := 64, order := [65535] })], compQ := [(16383, { inst := 1023, base := 0, log2Size := 6, vector := 0 })], slots := [(65535, { opTag := 65535, queue := 16383, inst := 1023, queueGen := 0, d := { op := 2, length := 8, destDevice := 9, region := 5, key := 6 } })] }),
      { inst := 1023, opTag := 65535, instGen := 0, status := 0, dataOffset := 0 },
      { opTag := 65535, queue := 16383, inst := 1023, queueGen := 0, d := { op := 2, length := 8, destDevice := 9, region := 5, key := 6 } },
      [1, 2, 3, 4, 5, 6, 7, 8], by decide +kernel⟩,
    ⟨((((sR.upInst 1023 fun x => { x with state := .enabled }).upMec fun x => { x with inst := [(1023, { counterCount := 8, heap := 1 })] }).upMpu fun x => { x with masters := [(127, { setA := [(0, { valid := true, space := 0, perm := 511, ownFunction := true, pages := 2 ^ 36 })] })] }).upMec fun x => { x with sendQ := [(16383, { inst := 1023, base := 0, log2Size := 6, cq := 16383, engine := 127, weight := 1, maxOut := 64, order := [65535] })], compQ := [(16383, { inst := 1023, base := 0, log2Size := 6, vector := 0 })], slots := [(65535, { opTag := 65535, queue := 16383, inst := 1023, queueGen := 0, d := { op := 3, length := 8, destDevice := 9, region := 5, key := 6 } })] }),
      { inst := 1023, opTag := 65535, instGen := 0, status := 0, dataOffset := 0 },
      { opTag := 65535, queue := 16383, inst := 1023, queueGen := 0, d := { op := 3, length := 8, destDevice := 9, region := 5, key := 6 } },
      by decide +kernel⟩,
    ⟨((((sR.upInst 1023 fun x => { x with state := .enabled }).upMec fun x => { x with inst := [(1023, { counterCount := 8, heap := 1 })] }).upMpu fun x => { x with masters := [(127, { setA := [(0, { valid := true, space := 0, perm := 511, ownFunction := true, pages := 2 ^ 36 })] })] }).upMec fun x => { x with sendQ := [(16383, { inst := 1023, base := 0, log2Size := 6, cq := 16383, engine := 127, weight := 1, maxOut := 64, order := [65535] })], compQ := [(16383, { inst := 1023, base := 0, log2Size := 6, vector := 0 })], slots := [(65535, { opTag := 65535, queue := 16383, inst := 1023, queueGen := 0, d := { op := 4, length := 8, destDevice := 9, region := 5, key := 6 } })] }),
      { inst := 1023, opTag := 65535, instGen := 0, status := 0, dataOffset := 0 },
      { opTag := 65535, queue := 16383, inst := 1023, queueGen := 0, d := { op := 4, length := 8, destDevice := 9, region := 5, key := 6 } },
      by decide +kernel⟩,
    ⟨(((((sR.upInst 1023 fun x => { x with state := .enabled }).upMec fun x => { x with inst := [(1023, { counterCount := 8, heap := 1 })] }).upMpu fun x => { x with masters := [(127, { setA := [(0, { valid := true, space := 0, perm := 511, ownFunction := true, pages := 2 ^ 36 })] })] }).upMec fun x => { x with sendQ := [(16383, { inst := 1023, base := 0, log2Size := 6, cq := 16383, engine := 127, weight := 1, maxOut := 64, order := [65535] })], compQ := [(16383, { inst := 1023, base := 0, log2Size := 6, vector := 0 })], slots := [(65535, { opTag := 65535, queue := 16383, inst := 1023, queueGen := 0, d := { op := 4, length := 8, destDevice := 9, region := 5, key := 6 } })] }).upMec fun x => { x with rnrLimit := 0 }),
      { inst := 1023, opTag := 65535, instGen := 0, status := 0, dataOffset := 0 },
      { opTag := 65535, queue := 16383, inst := 1023, queueGen := 0, d := { op := 4, length := 8, destDevice := 9, region := 5, key := 6 } },
      by decide +kernel⟩,
    ⟨((((sR.upInst 1023 fun x => { x with state := .enabled }).upMec fun x => { x with inst := [(1023, { counterCount := 8, heap := 1 })] }).upMpu fun x => { x with masters := [(127, { setA := [(0, { valid := true, space := 0, perm := 511, ownFunction := true, pages := 2 ^ 36 })] })] }).upMec fun x => { x with sendQ := [(16383, { inst := 1023, base := 0, log2Size := 6, cq := 16383, engine := 127, weight := 1, maxOut := 64, order := [65535] })], compQ := [(16383, { inst := 1023, base := 0, log2Size := 6, vector := 0 })], slots := [(65535, { opTag := 65535, queue := 16383, inst := 1023, queueGen := 0, d := { op := 5, length := 8, destDevice := 9, region := 5, key := 6 } })] }),
      { inst := 1023, opTag := 65535, instGen := 0, status := 0, dataOffset := 0 },
      { opTag := 65535, queue := 16383, inst := 1023, queueGen := 0, d := { op := 5, length := 8, destDevice := 9, region := 5, key := 6 } },
      { inst := 1023, base := 0, log2Size := 6, cq := 16383, engine := 127, weight := 1, maxOut := 64, order := [65535] }, by decide +kernel⟩,
    ⟨((((sR.upInst 1023 fun x => { x with state := .enabled }).upMec fun x => { x with inst := [(1023, { counterCount := 8, heap := 1 })] }).upMpu fun x => { x with masters := [(127, { setA := [(0, { valid := true, space := 0, perm := 511, ownFunction := true, pages := 2 ^ 36 })] })] }).upMec fun x => { x with sendQ := [(16383, { inst := 1023, base := 0, log2Size := 6, cq := 16383, engine := 127, weight := 1, maxOut := 64, order := [65535] })], compQ := [(16383, { inst := 1023, base := 0, log2Size := 6, vector := 0 })], slots := [(65535, { opTag := 65535, queue := 16383, inst := 1023, queueGen := 0, d := { op := 6, length := 8, destDevice := 9, region := 5, key := 6 } })] }),
      { inst := 1023, opTag := 65535, instGen := 0, status := 0, dataOffset := 0 },
      { opTag := 65535, queue := 16383, inst := 1023, queueGen := 0, d := { op := 6, length := 8, destDevice := 9, region := 5, key := 6 } },
      { inst := 1023, base := 0, log2Size := 6, cq := 16383, engine := 127, weight := 1, maxOut := 64, order := [65535] }, by decide +kernel⟩,
    ⟨((((sR.upInst 1023 fun x => { x with state := .enabled }).upMec fun x => { x with inst := [(1023, { counterCount := 8, heap := 1 })] }).upMpu fun x => { x with masters := [(127, { setA := [(0, { valid := true, space := 0, perm := 511, ownFunction := true, pages := 2 ^ 36 })] })] }).upMec fun x => { x with sendQ := [(16383, { inst := 1023, base := 0, log2Size := 6, cq := 16383, engine := 127, weight := 1, maxOut := 64, order := [65535] })], compQ := [(16383, { inst := 1023, base := 0, log2Size := 6, vector := 0 })], slots := [(65535, { opTag := 65535, queue := 16383, inst := 1023, queueGen := 0, d := { op := 1, length := 8, destDevice := 9, region := 5, key := 6 } })] }),
      { inst := 1023, opTag := 65535, instGen := 0, status := 0, dataOffset := 0 },
      { opTag := 65535, queue := 16383, inst := 1023, queueGen := 0, d := { op := 1, length := 8, destDevice := 9, region := 5, key := 6 } },
      by decide +kernel⟩,
    ⟨((((sR.upInst 1023 fun x => { x with state := .enabled }).upMec fun x => { x with inst := [(1023, { counterCount := 8, heap := 1 })] }).upMpu fun x => { x with masters := [(127, { setA := [(0, { valid := true, space := 0, perm := 511, ownFunction := true, pages := 2 ^ 36 })] })] }).upMec fun x => { x with sendQ := [(16383, { inst := 1023, base := 0, log2Size := 6, cq := 16383, engine := 127, weight := 1, maxOut := 64, order := [65535] })], compQ := [(16383, { inst := 1023, base := 0, log2Size := 6, vector := 0 })], slots := [(65535, { opTag := 65535, queue := 16383, inst := 1023, queueGen := 0, d := { op := 4, length := 8, destDevice := 9, region := 5, key := 6 } })] }),
      65535, 2, 6,
      { opTag := 65535, queue := 16383, inst := 1023, queueGen := 0, d := { op := 4, length := 8, destDevice := 9, region := 5, key := 6 } },
      by decide +kernel⟩,
    ⟨(((((sR.upInst 1023 fun x => { x with state := .enabled }).upMec fun x => { x with inst := [(1023, { counterCount := 8, heap := 1 })] }).upMpu fun x => { x with masters := [(127, { setA := [(0, { valid := true, space := 0, perm := 511, ownFunction := true, pages := 2 ^ 36 })] })] }).upMec fun x => { x with sendQ := [(16383, { inst := 1023, base := 0, log2Size := 6, cq := 16383, engine := 127, weight := 1, maxOut := 64, order := [65535] })], compQ := [(16383, { inst := 1023, base := 0, log2Size := 6, vector := 0 })], slots := [(65535, { opTag := 65535, queue := 16383, inst := 1023, queueGen := 0, d := { op := 4, length := 8, destDevice := 9, region := 5, key := 6 }, isRget := true })] }).upMtc fun t => { t with msgs := [{ srcDevice := 7, srcInst := 5, inst := 1023, context := 3, msn := 0, matchBits := 1, length := 8, rendezvous := true, opTag := 4, instGen := 0, sl := 1, data := [], first := true, taken := none, rget := some 65535 }] }),
      { inst := 1023, opTag := 65535, instGen := 0, status := 0, dataOffset := 0 },
      { opTag := 65535, queue := 16383, inst := 1023, queueGen := 0, d := { op := 4, length := 8, destDevice := 9, region := 5, key := 6 }, isRget := true },
      { srcDevice := 7, srcInst := 5, inst := 1023, context := 3, msn := 0, matchBits := 1, length := 8, rendezvous := true, opTag := 4, instGen := 0, sl := 1, data := [], first := true, taken := none, rget := some 65535 },
      by decide +kernel⟩,
    ⟨(((sR.upInst 1023 fun x => { x with state := .enabled }).upMec fun x => { x with inst := [(1023, { counterCount := 8, heap := 1 })] }).upMec fun x => { x with reads := [(3, { inst := 1023, req := { srcDevice := 7, srcInst := 5, srcQueue := 16383, opTag := 65535, instGen := 0, sl := 1 }, opcode := 0x11, address := 64, offset := 0, left := 8, master := 128 })] }),
      3,
      { inst := 1023, req := { srcDevice := 7, srcInst := 5, srcQueue := 16383, opTag := 65535, instGen := 0, sl := 1 }, opcode := 0x11, address := 64, offset := 0, left := 8, master := 128 },
      by decide +kernel⟩,
    ⟨(((sR.upInst 1023 fun x => { x with state := .enabled }).upMec fun x => { x with inst := [(1023, { counterCount := 8, heap := 1 })] }).upMec fun x => { x with reads := [(3, { inst := 1023, req := { srcDevice := 7, srcInst := 5, srcQueue := 16383, opTag := 65535, instGen := 0, sl := 1 }, opcode := 0x11, address := 64, offset := 0, left := 8, master := 128 })] }),
      3,
      { inst := 1023, req := { srcDevice := 7, srcInst := 5, srcQueue := 16383, opTag := 65535, instGen := 0, sl := 1 }, opcode := 0x11, address := 64, offset := 0, left := 8, master := 128 },
      by decide +kernel⟩⟩

theorem witness_MatchingEventsTakeEffect :
(∃ (s : State) (dst length : Nat), s.forwarding = true ∧ s.mtc.ctxs = [] ∧ s.mtc.msgs = [] ∧ s.mtc.posted = [] ∧ s.enabled dst = true ∧ s.quotaRefusal
    dst 1 (heapUnits length) = none) ∧
(∃ (s : State) (dst context bits : Nat) (data : List Nat) (p : Posted), s.forwarding = true ∧ s.mtc.ctxs = [] ∧ s.mtc.msgs = [] ∧ s.mtc.posted = [p] ∧
    s.enabled dst = true ∧ p.inst = dst ∧ p.d.context = context ∧ p.d.matchBits = bits ∧ p.d.anySource = true ∧ data ≠ [] ∧ data.length ≤ p.d.length) ∧
(∃ (s : State) (dst : Nat), s.forwarding = true ∧ s.mtc.ctxs = [] ∧ s.mtc.msgs = [] ∧ s.mtc.posted = [] ∧ s.enabled dst = true ∧ s.quotaRefusal dst 1
    0 = none) ∧
(∃ (s : State) (queue bits : Nat) (d : RecvDesc) (x : RecvQueue), d = recvDescOf bits ∧ s.forwarding = true ∧ s.mec.recvQ.find queue = some x ∧
    s.enabled x.inst = true ∧ (s.instance_ x.inst).bmeHeld = false ∧ x.destroying = false ∧ x.producer ≠ x.consumer ∧ s.cqRoom x.cq = true ∧ x.error =
    false ∧ badRecv d = false ∧ d.localHeap = false ∧ (∀ m ∈ s.mtc.msgs, m.unexpected = false) ∧ s.quotaRefusal x.inst 1 0 = none) :=
  ⟨⟨((sR.upInst 1023 fun x => { x with state := .enabled }).upMec fun x => { x with inst := [(1023, { heap := 1, matchEntries := 100, onDieReserve := 100 })] }),
      1023, 8, by decide +kernel⟩,
    ⟨((((sR.upInst 1023 fun x => { x with state := .enabled }).upMec fun x => { x with inst := [(1023, { heap := 1, matchEntries := 100, onDieReserve := 100 })] }).upMec fun x => { x with recvQ := [(16383, { inst := 1023, base := 0, log2Size := 6, cq := 16383 })], compQ := [(16383, { inst := 1023, base := 0, log2Size := 6, vector := 0 })] }).upMtc fun t => { t with posted := [{ inst := 1023, queue := 16383, d := { anySource := true, length := 8, localAddr := 4096, context := 3, matchBits := 1 }, onDie := true }] }),
      1023, 3, 1, [1,2,3,4,5,6,7,8],
      { inst := 1023, queue := 16383, d := { anySource := true, length := 8, localAddr := 4096, context := 3, matchBits := 1 }, onDie := true },
      by decide +kernel⟩,
    ⟨((sR.upInst 1023 fun x => { x with state := .enabled }).upMec fun x => { x with inst := [(1023, { heap := 1, matchEntries := 100, onDieReserve := 100 })] }),
      1023, by decide +kernel⟩,
    ⟨(((sR.upInst 1023 fun x => { x with state := .enabled }).upMec fun x => { x with inst := [(1023, { heap := 1, matchEntries := 100, onDieReserve := 100 })] }).upMec fun x => { x with recvQ := [(16383, { inst := 1023, base := 0, log2Size := 6, cq := 16383, producer := 1 })], compQ := [(16383, { inst := 1023, base := 0, log2Size := 6, vector := 0 })] }),
      16383, (32 + 2 ^ 8 + 8 * 2 ^ 32 + 4096 * 2 ^ 128 + 3 * 2 ^ 224 + 2 ^ 256),
      (recvDescOf (32 + 2 ^ 8 + 8 * 2 ^ 32 + 4096 * 2 ^ 128 + 3 * 2 ^ 224 + 2 ^ 256)),
      { inst := 1023, base := 0, log2Size := 6, cq := 16383, producer := 1 }, by decide +kernel⟩⟩

theorem witness_CollectivesTakeEffect :
(∃ (s : State) (h : HlyHdr) (p : GroupP), s.runs h 0x0A01 (8 * p.children.length + 16 * p.members.length) 0 [.inst p.inst] = true ∧ s.groupBad p =
    false ∧ s.enabled p.inst = true ∧ (∀ m ∈ p.members, s.enabled m.inst = true) ∧ s.group p.group = none ∧ (∀ m x, p.members[m]? = some x →
    s.memberServed p m x = true) ∧ s.memberSlots + p.members.length ≤ 16384 ∧ (s.engInst p.inst).heapUsed + areaUnits (areaOf p) ≤ 8192 * (s.engInst
    p.inst).heap ∧ p.members ≠ []) ∧
(∃ (s : State) (h : HlyHdr) (gid : Nat) (g : Group), s.runs h 0x0A02 0 0 [.group gid] = true ∧ s.group gid = some g ∧ g.state = .waiting) ∧
(∃ (s : State) (h : HlyHdr) (gid index : Nat) (g : Group), s.runs h 0x0A03 0 0 [.group gid] = true ∧ s.group gid = some g ∧ g.state = .waiting ∧ index
    < g.p.children.length ∧ g.childFenced = []) ∧
(∃ (s : State) (h : HlyHdr) (gid : Nat) (g : Group), s.group gid = some g ∧ s.runs h 0x0A04 0 (20 + 4 * g.chunks) [] = true) ∧
(∃ (s : State) (gid m : Nat) (g : Group) (x : MemberSlot), s.forwarding = true ∧ s.group gid = some g ∧ g.p.members[m]? = some x ∧ g.state =
    .collecting ∧ g.isFenced m = false ∧ (g.input m).arrived = false ∧ s.memberAt g m x g.round = true ∧ readsMember g.p m = false) ∧
(∃ (s : State) (gid device inst round members : Nat) (g : Group), s.forwarding = true ∧ s.group gid = some g ∧ g.p.children =
    [{ device, inst, members }] ∧ g.state = .collecting ∧ g.round % 65536 = round ∧ g.childFenced = []) ∧
(∃ (s : State) (gid : Nat), s.forwarding = true ∧ s.group gid = none) ∧
(∃ (s : State) (gid round : Nat) (g : Group), s.forwarding = true ∧ s.group gid = some g ∧ g.state = .waiting ∧ g.p.root = false ∧ g.round % 65536 =
    round) ∧
(∃ (s : State) (gid : Nat) (g : Group), s.group gid = some g ∧ g.removing = true ∧ g.state = .fenced ∧ s.groupBusy gid = false) :=
  ⟨⟨(((sR.upInst 1023 fun x => { x with state := .enabled }).upMpu fun x => { x with masters := [(128, { setA := [(0, { valid := true, space := 1, perm := 511, ownFunction := true, pages := 2 ^ 36 })] }), (129, { setA := [(0, { valid := true, space := 1, perm := 511, ownFunction := true, pages := 2 ^ 36 })] }), (130, { setA := [(0, { valid := true, space := 1, perm := 511, ownFunction := true, pages := 2 ^ 36 })] }), (131, { setA := [(0, { valid := true, space := 1, perm := 511, ownFunction := true, pages := 2 ^ 36 })] }), (132, { setA := [(0, { valid := true, space := 1, perm := 511, ownFunction := true, pages := 2 ^ 36 })] }), (133, { setA := [(0, { valid := true, space := 1, perm := 511, ownFunction := true, pages := 2 ^ 36 })] }), (134, { setA := [(0, { valid := true, space := 1, perm := 511, ownFunction := true, pages := 2 ^ 36 })] }), (135, { setA := [(0, { valid := true, space := 1, perm := 511, ownFunction := true, pages := 2 ^ 36 })] }), (136, { setA := [(0, { valid := true, space := 1, perm := 511, ownFunction := true, pages := 2 ^ 36 })] }), (137, { setA := [(0, { valid := true, space := 1, perm := 511, ownFunction := true, pages := 2 ^ 36 })] }), (138, { setA := [(0, { valid := true, space := 1, perm := 511, ownFunction := true, pages := 2 ^ 36 })] }), (139, { setA := [(0, { valid := true, space := 1, perm := 511, ownFunction := true, pages := 2 ^ 36 })] }), (140, { setA := [(0, { valid := true, space := 1, perm := 511, ownFunction := true, pages := 2 ^ 36 })] }), (141, { setA := [(0, { valid := true, space := 1, perm := 511, ownFunction := true, pages := 2 ^ 36 })] }), (142, { setA := [(0, { valid := true, space := 1, perm := 511, ownFunction := true, pages := 2 ^ 36 })] }), (143, { setA := [(0, { valid := true, space := 1, perm := 511, ownFunction := true, pages := 2 ^ 36 })] }), (127, { setA := [(0, { valid := true, space := 1, perm := 511, ownFunction := true, pages := 2 ^ 36 })] }), (159, { setA := [(0, { valid := true, space := 1, perm := 511, ownFunction := true, pages := 2 ^ 36 })] })] }).upMec fun x => { x with inst := [(1023, { heap := 64, counterBase := 16, counterCount := 8 })], regions := [(65535, { region := 65535, valid := true, inst := 1023, kind := 1, base := 16, length := 16777216, key := 65535, rights := 15, filterDevice := 0, filterMask := 0, filterAny := true, filterInst := 0, counterValid := false, counter := 0 })], counters := [(16, 1)] }),
      { hR with dataLength := 64 },
      { group := 4095, inst := 1023, sl := 6, operation := 3, type := 0, op := 0, elements := 8, root := true, parent := 9, totalMembers := 1, rootMember := 0, children := [], members := [{ inst := 1023, contribRegion := 65535, contribOffset := 0, resultRegion := 65535, resultOffset := 4096, arrivalCounter := 0 }] },
      by decide +kernel, by decide +kernel, by decide +kernel, by decide +kernel, by decide +kernel,
      by
        intro m x e; rcases m with _ | m <;> simp at e <;> subst e <;> decide +kernel, by decide +kernel, by decide +kernel,
      by decide +kernel⟩,
    ⟨((((sR.upInst 1023 fun x => { x with state := .enabled }).upMpu fun x => { x with masters := [(128, { setA := [(0, { valid := true, space := 1, perm := 511, ownFunction := true, pages := 2 ^ 36 })] }), (129, { setA := [(0, { valid := true, space := 1, perm := 511, ownFunction := true, pages := 2 ^ 36 })] }), (130, { setA := [(0, { valid := true, space := 1, perm := 511, ownFunction := true, pages := 2 ^ 36 })] }), (131, { setA := [(0, { valid := true, space := 1, perm := 511, ownFunction := true, pages := 2 ^ 36 })] }), (132, { setA := [(0, { valid := true, space := 1, perm := 511, ownFunction := true, pages := 2 ^ 36 })] }), (133, { setA := [(0, { valid := true, space := 1, perm := 511, ownFunction := true, pages := 2 ^ 36 })] }), (134, { setA := [(0, { valid := true, space := 1, perm := 511, ownFunction := true, pages := 2 ^ 36 })] }), (135, { setA := [(0, { valid := true, space := 1, perm := 511, ownFunction := true, pages := 2 ^ 36 })] }), (136, { setA := [(0, { valid := true, space := 1, perm := 511, ownFunction := true, pages := 2 ^ 36 })] }), (137, { setA := [(0, { valid := true, space := 1, perm := 511, ownFunction := true, pages := 2 ^ 36 })] }), (138, { setA := [(0, { valid := true, space := 1, perm := 511, ownFunction := true, pages := 2 ^ 36 })] }), (139, { setA := [(0, { valid := true, space := 1, perm := 511, ownFunction := true, pages := 2 ^ 36 })] }), (140, { setA := [(0, { valid := true, space := 1, perm := 511, ownFunction := true, pages := 2 ^ 36 })] }), (141, { setA := [(0, { valid := true, space := 1, perm := 511, ownFunction := true, pages := 2 ^ 36 })] }), (142, { setA := [(0, { valid := true, space := 1, perm := 511, ownFunction := true, pages := 2 ^ 36 })] }), (143, { setA := [(0, { valid := true, space := 1, perm := 511, ownFunction := true, pages := 2 ^ 36 })] }), (127, { setA := [(0, { valid := true, space := 1, perm := 511, ownFunction := true, pages := 2 ^ 36 })] }), (159, { setA := [(0, { valid := true, space := 1, perm := 511, ownFunction := true, pages := 2 ^ 36 })] })] }).upMec fun x => { x with inst := [(1023, { heap := 64, counterBase := 16, counterCount := 8 })], regions := [(65535, { region := 65535, valid := true, inst := 1023, kind := 1, base := 16, length := 16777216, key := 65535, rights := 15, filterDevice := 0, filterMask := 0, filterAny := true, filterInst := 0, counterValid := false, counter := 0 })], counters := [(16, 1)] }).upRdx fun t => { t with groups := [(4095, { p := { group := 4095, inst := 1023, sl := 6, operation := 3, type := 0, op := 0, elements := 8, root := true, parent := 9, totalMembers := 1, rootMember := 0, children := [], members := [{ inst := 1023, contribRegion := 65535, contribOffset := 0, resultRegion := 65535, resultOffset := 4096, arrivalCounter := 0 }] }, bases := [0], area := 0, state := .waiting })] }),
      hR, 4095,
      { p := { group := 4095, inst := 1023, sl := 6, operation := 3, type := 0, op := 0, elements := 8, root := true, parent := 9, totalMembers := 1, rootMember := 0, children := [], members := [{ inst := 1023, contribRegion := 65535, contribOffset := 0, resultRegion := 65535, resultOffset := 4096, arrivalCounter := 0 }] }, bases := [0], area := 0, state := .waiting },
      by decide +kernel⟩,
    ⟨((((sR.upInst 1023 fun x => { x with state := .enabled }).upMpu fun x => { x with masters := [(128, { setA := [(0, { valid := true, space := 1, perm := 511, ownFunction := true, pages := 2 ^ 36 })] }), (129, { setA := [(0, { valid := true, space := 1, perm := 511, ownFunction := true, pages := 2 ^ 36 })] }), (130, { setA := [(0, { valid := true, space := 1, perm := 511, ownFunction := true, pages := 2 ^ 36 })] }), (131, { setA := [(0, { valid := true, space := 1, perm := 511, ownFunction := true, pages := 2 ^ 36 })] }), (132, { setA := [(0, { valid := true, space := 1, perm := 511, ownFunction := true, pages := 2 ^ 36 })] }), (133, { setA := [(0, { valid := true, space := 1, perm := 511, ownFunction := true, pages := 2 ^ 36 })] }), (134, { setA := [(0, { valid := true, space := 1, perm := 511, ownFunction := true, pages := 2 ^ 36 })] }), (135, { setA := [(0, { valid := true, space := 1, perm := 511, ownFunction := true, pages := 2 ^ 36 })] }), (136, { setA := [(0, { valid := true, space := 1, perm := 511, ownFunction := true, pages := 2 ^ 36 })] }), (137, { setA := [(0, { valid := true, space := 1, perm := 511, ownFunction := true, pages := 2 ^ 36 })] }), (138, { setA := [(0, { valid := true, space := 1, perm := 511, ownFunction := true, pages := 2 ^ 36 })] }), (139, { setA := [(0, { valid := true, space := 1, perm := 511, ownFunction := true, pages := 2 ^ 36 })] }), (140, { setA := [(0, { valid := true, space := 1, perm := 511, ownFunction := true, pages := 2 ^ 36 })] }), (141, { setA := [(0, { valid := true, space := 1, perm := 511, ownFunction := true, pages := 2 ^ 36 })] }), (142, { setA := [(0, { valid := true, space := 1, perm := 511, ownFunction := true, pages := 2 ^ 36 })] }), (143, { setA := [(0, { valid := true, space := 1, perm := 511, ownFunction := true, pages := 2 ^ 36 })] }), (127, { setA := [(0, { valid := true, space := 1, perm := 511, ownFunction := true, pages := 2 ^ 36 })] }), (159, { setA := [(0, { valid := true, space := 1, perm := 511, ownFunction := true, pages := 2 ^ 36 })] })] }).upMec fun x => { x with inst := [(1023, { heap := 64, counterBase := 16, counterCount := 8 })], regions := [(65535, { region := 65535, valid := true, inst := 1023, kind := 1, base := 16, length := 16777216, key := 65535, rights := 15, filterDevice := 0, filterMask := 0, filterAny := true, filterInst := 0, counterValid := false, counter := 0 })], counters := [(16, 1)] }).upRdx fun t => { t with groups := [(4095, { p := { group := 4095, inst := 1023, sl := 6, operation := 3, type := 0, op := 0, elements := 8, root := true, parent := 9, totalMembers := 2, rootMember := 0, children := [{ device := 7, inst := 5, members := 1 }], members := [{ inst := 1023, contribRegion := 65535, contribOffset := 0, resultRegion := 65535, resultOffset := 4096, arrivalCounter := 0 }] }, bases := [0], area := 0, state := .waiting })] }),
      hR, 4095, 0,
      { p := { group := 4095, inst := 1023, sl := 6, operation := 3, type := 0, op := 0, elements := 8, root := true, parent := 9, totalMembers := 2, rootMember := 0, children := [{ device := 7, inst := 5, members := 1 }], members := [{ inst := 1023, contribRegion := 65535, contribOffset := 0, resultRegion := 65535, resultOffset := 4096, arrivalCounter := 0 }] }, bases := [0], area := 0, state := .waiting },
      by decide +kernel⟩,
    ⟨((((sR.upInst 1023 fun x => { x with state := .enabled }).upMpu fun x => { x with masters := [(128, { setA := [(0, { valid := true, space := 1, perm := 511, ownFunction := true, pages := 2 ^ 36 })] }), (129, { setA := [(0, { valid := true, space := 1, perm := 511, ownFunction := true, pages := 2 ^ 36 })] }), (130, { setA := [(0, { valid := true, space := 1, perm := 511, ownFunction := true, pages := 2 ^ 36 })] }), (131, { setA := [(0, { valid := true, space := 1, perm := 511, ownFunction := true, pages := 2 ^ 36 })] }), (132, { setA := [(0, { valid := true, space := 1, perm := 511, ownFunction := true, pages := 2 ^ 36 })] }), (133, { setA := [(0, { valid := true, space := 1, perm := 511, ownFunction := true, pages := 2 ^ 36 })] }), (134, { setA := [(0, { valid := true, space := 1, perm := 511, ownFunction := true, pages := 2 ^ 36 })] }), (135, { setA := [(0, { valid := true, space := 1, perm := 511, ownFunction := true, pages := 2 ^ 36 })] }), (136, { setA := [(0, { valid := true, space := 1, perm := 511, ownFunction := true, pages := 2 ^ 36 })] }), (137, { setA := [(0, { valid := true, space := 1, perm := 511, ownFunction := true, pages := 2 ^ 36 })] }), (138, { setA := [(0, { valid := true, space := 1, perm := 511, ownFunction := true, pages := 2 ^ 36 })] }), (139, { setA := [(0, { valid := true, space := 1, perm := 511, ownFunction := true, pages := 2 ^ 36 })] }), (140, { setA := [(0, { valid := true, space := 1, perm := 511, ownFunction := true, pages := 2 ^ 36 })] }), (141, { setA := [(0, { valid := true, space := 1, perm := 511, ownFunction := true, pages := 2 ^ 36 })] }), (142, { setA := [(0, { valid := true, space := 1, perm := 511, ownFunction := true, pages := 2 ^ 36 })] }), (143, { setA := [(0, { valid := true, space := 1, perm := 511, ownFunction := true, pages := 2 ^ 36 })] }), (127, { setA := [(0, { valid := true, space := 1, perm := 511, ownFunction := true, pages := 2 ^ 36 })] }), (159, { setA := [(0, { valid := true, space := 1, perm := 511, ownFunction := true, pages := 2 ^ 36 })] })] }).upMec fun x => { x with inst := [(1023, { heap := 64, counterBase := 16, counterCount := 8 })], regions := [(65535, { region := 65535, valid := true, inst := 1023, kind := 1, base := 16, length := 16777216, key := 65535, rights := 15, filterDevice := 0, filterMask := 0, filterAny := true, filterInst := 0, counterValid := false, counter := 0 })], counters := [(16, 1)] }).upRdx fun t => { t with groups := [(4095, { p := { group := 4095, inst := 1023, sl := 6, operation := 3, type := 0, op := 0, elements := 8, root := true, parent := 9, totalMembers := 2, rootMember := 0, children := [{ device := 7, inst := 5, members := 1 }], members := [{ inst := 1023, contribRegion := 65535, contribOffset := 0, resultRegion := 65535, resultOffset := 4096, arrivalCounter := 0 }] }, bases := [0], area := 0 })] }),
      hR, 4095,
      { p := { group := 4095, inst := 1023, sl := 6, operation := 3, type := 0, op := 0, elements := 8, root := true, parent := 9, totalMembers := 2, rootMember := 0, children := [{ device := 7, inst := 5, members := 1 }], members := [{ inst := 1023, contribRegion := 65535, contribOffset := 0, resultRegion := 65535, resultOffset := 4096, arrivalCounter := 0 }] }, bases := [0], area := 0 },
      by decide +kernel⟩,
    ⟨((((sR.upInst 1023 fun x => { x with state := .enabled }).upMpu fun x => { x with masters := [(128, { setA := [(0, { valid := true, space := 1, perm := 511, ownFunction := true, pages := 2 ^ 36 })] }), (129, { setA := [(0, { valid := true, space := 1, perm := 511, ownFunction := true, pages := 2 ^ 36 })] }), (130, { setA := [(0, { valid := true, space := 1, perm := 511, ownFunction := true, pages := 2 ^ 36 })] }), (131, { setA := [(0, { valid := true, space := 1, perm := 511, ownFunction := true, pages := 2 ^ 36 })] }), (132, { setA := [(0, { valid := true, space := 1, perm := 511, ownFunction := true, pages := 2 ^ 36 })] }), (133, { setA := [(0, { valid := true, space := 1, perm := 511, ownFunction := true, pages := 2 ^ 36 })] }), (134, { setA := [(0, { valid := true, space := 1, perm := 511, ownFunction := true, pages := 2 ^ 36 })] }), (135, { setA := [(0, { valid := true, space := 1, perm := 511, ownFunction := true, pages := 2 ^ 36 })] }), (136, { setA := [(0, { valid := true, space := 1, perm := 511, ownFunction := true, pages := 2 ^ 36 })] }), (137, { setA := [(0, { valid := true, space := 1, perm := 511, ownFunction := true, pages := 2 ^ 36 })] }), (138, { setA := [(0, { valid := true, space := 1, perm := 511, ownFunction := true, pages := 2 ^ 36 })] }), (139, { setA := [(0, { valid := true, space := 1, perm := 511, ownFunction := true, pages := 2 ^ 36 })] }), (140, { setA := [(0, { valid := true, space := 1, perm := 511, ownFunction := true, pages := 2 ^ 36 })] }), (141, { setA := [(0, { valid := true, space := 1, perm := 511, ownFunction := true, pages := 2 ^ 36 })] }), (142, { setA := [(0, { valid := true, space := 1, perm := 511, ownFunction := true, pages := 2 ^ 36 })] }), (143, { setA := [(0, { valid := true, space := 1, perm := 511, ownFunction := true, pages := 2 ^ 36 })] }), (127, { setA := [(0, { valid := true, space := 1, perm := 511, ownFunction := true, pages := 2 ^ 36 })] }), (159, { setA := [(0, { valid := true, space := 1, perm := 511, ownFunction := true, pages := 2 ^ 36 })] })] }).upMec fun x => { x with inst := [(1023, { heap := 64, counterBase := 16, counterCount := 8 })], regions := [(65535, { region := 65535, valid := true, inst := 1023, kind := 1, base := 16, length := 16777216, key := 65535, rights := 15, filterDevice := 0, filterMask := 0, filterAny := true, filterInst := 0, counterValid := false, counter := 0 })], counters := [(16, 1)] }).upRdx fun t => { t with groups := [(4095, { p := { group := 4095, inst := 1023, sl := 6, operation := 0, type := 0, op := 0, elements := 0, root := true, parent := 9, totalMembers := 1, rootMember := 0, children := [], members := [{ inst := 1023, contribRegion := 65535, contribOffset := 0, resultRegion := 65535, resultOffset := 4096, arrivalCounter := 0 }] }, bases := [0], area := 0 })] }),
      4095, 0,
      { p := { group := 4095, inst := 1023, sl := 6, operation := 0, type := 0, op := 0, elements := 0, root := true, parent := 9, totalMembers := 1, rootMember := 0, children := [], members := [{ inst := 1023, contribRegion := 65535, contribOffset := 0, resultRegion := 65535, resultOffset := 4096, arrivalCounter := 0 }] }, bases := [0], area := 0 },
      { inst := 1023, contribRegion := 65535, contribOffset := 0, resultRegion := 65535, resultOffset := 4096, arrivalCounter := 0 },
      by decide +kernel⟩,
    ⟨((((sR.upInst 1023 fun x => { x with state := .enabled }).upMpu fun x => { x with masters := [(128, { setA := [(0, { valid := true, space := 1, perm := 511, ownFunction := true, pages := 2 ^ 36 })] }), (129, { setA := [(0, { valid := true, space := 1, perm := 511, ownFunction := true, pages := 2 ^ 36 })] }), (130, { setA := [(0, { valid := true, space := 1, perm := 511, ownFunction := true, pages := 2 ^ 36 })] }), (131, { setA := [(0, { valid := true, space := 1, perm := 511, ownFunction := true, pages := 2 ^ 36 })] }), (132, { setA := [(0, { valid := true, space := 1, perm := 511, ownFunction := true, pages := 2 ^ 36 })] }), (133, { setA := [(0, { valid := true, space := 1, perm := 511, ownFunction := true, pages := 2 ^ 36 })] }), (134, { setA := [(0, { valid := true, space := 1, perm := 511, ownFunction := true, pages := 2 ^ 36 })] }), (135, { setA := [(0, { valid := true, space := 1, perm := 511, ownFunction := true, pages := 2 ^ 36 })] }), (136, { setA := [(0, { valid := true, space := 1, perm := 511, ownFunction := true, pages := 2 ^ 36 })] }), (137, { setA := [(0, { valid := true, space := 1, perm := 511, ownFunction := true, pages := 2 ^ 36 })] }), (138, { setA := [(0, { valid := true, space := 1, perm := 511, ownFunction := true, pages := 2 ^ 36 })] }), (139, { setA := [(0, { valid := true, space := 1, perm := 511, ownFunction := true, pages := 2 ^ 36 })] }), (140, { setA := [(0, { valid := true, space := 1, perm := 511, ownFunction := true, pages := 2 ^ 36 })] }), (141, { setA := [(0, { valid := true, space := 1, perm := 511, ownFunction := true, pages := 2 ^ 36 })] }), (142, { setA := [(0, { valid := true, space := 1, perm := 511, ownFunction := true, pages := 2 ^ 36 })] }), (143, { setA := [(0, { valid := true, space := 1, perm := 511, ownFunction := true, pages := 2 ^ 36 })] }), (127, { setA := [(0, { valid := true, space := 1, perm := 511, ownFunction := true, pages := 2 ^ 36 })] }), (159, { setA := [(0, { valid := true, space := 1, perm := 511, ownFunction := true, pages := 2 ^ 36 })] })] }).upMec fun x => { x with inst := [(1023, { heap := 64, counterBase := 16, counterCount := 8 })], regions := [(65535, { region := 65535, valid := true, inst := 1023, kind := 1, base := 16, length := 16777216, key := 65535, rights := 15, filterDevice := 0, filterMask := 0, filterAny := true, filterInst := 0, counterValid := false, counter := 0 })], counters := [(16, 1)] }).upRdx fun t => { t with groups := [(4095, { p := { group := 4095, inst := 1023, sl := 6, operation := 3, type := 0, op := 0, elements := 8, root := true, parent := 9, totalMembers := 2, rootMember := 0, children := [{ device := 7, inst := 5, members := 1 }], members := [{ inst := 1023, contribRegion := 65535, contribOffset := 0, resultRegion := 65535, resultOffset := 4096, arrivalCounter := 0 }] }, bases := [0], area := 0 })] }),
      4095, 7, 5, 1, 1,
      { p := { group := 4095, inst := 1023, sl := 6, operation := 3, type := 0, op := 0, elements := 8, root := true, parent := 9, totalMembers := 2, rootMember := 0, children := [{ device := 7, inst := 5, members := 1 }], members := [{ inst := 1023, contribRegion := 65535, contribOffset := 0, resultRegion := 65535, resultOffset := 4096, arrivalCounter := 0 }] }, bases := [0], area := 0 },
      by decide +kernel⟩,
    ⟨sR, 4095, by decide +kernel⟩,
    ⟨((((sR.upInst 1023 fun x => { x with state := .enabled }).upMpu fun x => { x with masters := [(128, { setA := [(0, { valid := true, space := 1, perm := 511, ownFunction := true, pages := 2 ^ 36 })] }), (129, { setA := [(0, { valid := true, space := 1, perm := 511, ownFunction := true, pages := 2 ^ 36 })] }), (130, { setA := [(0, { valid := true, space := 1, perm := 511, ownFunction := true, pages := 2 ^ 36 })] }), (131, { setA := [(0, { valid := true, space := 1, perm := 511, ownFunction := true, pages := 2 ^ 36 })] }), (132, { setA := [(0, { valid := true, space := 1, perm := 511, ownFunction := true, pages := 2 ^ 36 })] }), (133, { setA := [(0, { valid := true, space := 1, perm := 511, ownFunction := true, pages := 2 ^ 36 })] }), (134, { setA := [(0, { valid := true, space := 1, perm := 511, ownFunction := true, pages := 2 ^ 36 })] }), (135, { setA := [(0, { valid := true, space := 1, perm := 511, ownFunction := true, pages := 2 ^ 36 })] }), (136, { setA := [(0, { valid := true, space := 1, perm := 511, ownFunction := true, pages := 2 ^ 36 })] }), (137, { setA := [(0, { valid := true, space := 1, perm := 511, ownFunction := true, pages := 2 ^ 36 })] }), (138, { setA := [(0, { valid := true, space := 1, perm := 511, ownFunction := true, pages := 2 ^ 36 })] }), (139, { setA := [(0, { valid := true, space := 1, perm := 511, ownFunction := true, pages := 2 ^ 36 })] }), (140, { setA := [(0, { valid := true, space := 1, perm := 511, ownFunction := true, pages := 2 ^ 36 })] }), (141, { setA := [(0, { valid := true, space := 1, perm := 511, ownFunction := true, pages := 2 ^ 36 })] }), (142, { setA := [(0, { valid := true, space := 1, perm := 511, ownFunction := true, pages := 2 ^ 36 })] }), (143, { setA := [(0, { valid := true, space := 1, perm := 511, ownFunction := true, pages := 2 ^ 36 })] }), (127, { setA := [(0, { valid := true, space := 1, perm := 511, ownFunction := true, pages := 2 ^ 36 })] }), (159, { setA := [(0, { valid := true, space := 1, perm := 511, ownFunction := true, pages := 2 ^ 36 })] })] }).upMec fun x => { x with inst := [(1023, { heap := 64, counterBase := 16, counterCount := 8 })], regions := [(65535, { region := 65535, valid := true, inst := 1023, kind := 1, base := 16, length := 16777216, key := 65535, rights := 15, filterDevice := 0, filterMask := 0, filterAny := true, filterInst := 0, counterValid := false, counter := 0 })], counters := [(16, 1)] }).upRdx fun t => { t with groups := [(4095, { p := { group := 4095, inst := 1023, sl := 6, operation := 3, type := 0, op := 0, elements := 8, root := false, parent := 9, totalMembers := 2, rootMember := 0, children := [], members := [{ inst := 1023, contribRegion := 65535, contribOffset := 0, resultRegion := 65535, resultOffset := 4096, arrivalCounter := 0 }] }, bases := [0], area := 0, state := .waiting })] }),
      4095, 1,
      { p := { group := 4095, inst := 1023, sl := 6, operation := 3, type := 0, op := 0, elements := 8, root := false, parent := 9, totalMembers := 2, rootMember := 0, children := [], members := [{ inst := 1023, contribRegion := 65535, contribOffset := 0, resultRegion := 65535, resultOffset := 4096, arrivalCounter := 0 }] }, bases := [0], area := 0, state := .waiting },
      by decide +kernel⟩,
    ⟨((((sR.upInst 1023 fun x => { x with state := .enabled }).upMpu fun x => { x with masters := [(128, { setA := [(0, { valid := true, space := 1, perm := 511, ownFunction := true, pages := 2 ^ 36 })] }), (129, { setA := [(0, { valid := true, space := 1, perm := 511, ownFunction := true, pages := 2 ^ 36 })] }), (130, { setA := [(0, { valid := true, space := 1, perm := 511, ownFunction := true, pages := 2 ^ 36 })] }), (131, { setA := [(0, { valid := true, space := 1, perm := 511, ownFunction := true, pages := 2 ^ 36 })] }), (132, { setA := [(0, { valid := true, space := 1, perm := 511, ownFunction := true, pages := 2 ^ 36 })] }), (133, { setA := [(0, { valid := true, space := 1, perm := 511, ownFunction := true, pages := 2 ^ 36 })] }), (134, { setA := [(0, { valid := true, space := 1, perm := 511, ownFunction := true, pages := 2 ^ 36 })] }), (135, { setA := [(0, { valid := true, space := 1, perm := 511, ownFunction := true, pages := 2 ^ 36 })] }), (136, { setA := [(0, { valid := true, space := 1, perm := 511, ownFunction := true, pages := 2 ^ 36 })] }), (137, { setA := [(0, { valid := true, space := 1, perm := 511, ownFunction := true, pages := 2 ^ 36 })] }), (138, { setA := [(0, { valid := true, space := 1, perm := 511, ownFunction := true, pages := 2 ^ 36 })] }), (139, { setA := [(0, { valid := true, space := 1, perm := 511, ownFunction := true, pages := 2 ^ 36 })] }), (140, { setA := [(0, { valid := true, space := 1, perm := 511, ownFunction := true, pages := 2 ^ 36 })] }), (141, { setA := [(0, { valid := true, space := 1, perm := 511, ownFunction := true, pages := 2 ^ 36 })] }), (142, { setA := [(0, { valid := true, space := 1, perm := 511, ownFunction := true, pages := 2 ^ 36 })] }), (143, { setA := [(0, { valid := true, space := 1, perm := 511, ownFunction := true, pages := 2 ^ 36 })] }), (127, { setA := [(0, { valid := true, space := 1, perm := 511, ownFunction := true, pages := 2 ^ 36 })] }), (159, { setA := [(0, { valid := true, space := 1, perm := 511, ownFunction := true, pages := 2 ^ 36 })] })] }).upMec fun x => { x with inst := [(1023, { heap := 64, counterBase := 16, counterCount := 8 })], regions := [(65535, { region := 65535, valid := true, inst := 1023, kind := 1, base := 16, length := 16777216, key := 65535, rights := 15, filterDevice := 0, filterMask := 0, filterAny := true, filterInst := 0, counterValid := false, counter := 0 })], counters := [(16, 1)] }).upRdx fun t => { t with groups := [(4095, { p := { group := 4095, inst := 1023, sl := 6, operation := 3, type := 0, op := 0, elements := 8, root := true, parent := 9, totalMembers := 1, rootMember := 0, children := [], members := [{ inst := 1023, contribRegion := 65535, contribOffset := 0, resultRegion := 65535, resultOffset := 4096, arrivalCounter := 0 }] }, bases := [0], area := 0, state := .fenced, removing := true })] }),
      4095,
      { p := { group := 4095, inst := 1023, sl := 6, operation := 3, type := 0, op := 0, elements := 8, root := true, parent := 9, totalMembers := 1, rootMember := 0, children := [], members := [{ inst := 1023, contribRegion := 65535, contribOffset := 0, resultRegion := 65535, resultOffset := 4096, arrivalCounter := 0 }] }, bases := [0], area := 0, state := .fenced, removing := true },
      by decide +kernel⟩⟩

theorem witness_InstanceCommandsComplete :
(∃ (s : State) (h : HlyHdr) (inst link function resetMode drainTimeout vectors : Nat), s.runs h 0x0B01 0 0 [.inst inst] = true ∧ 1 ≤ inst ∧ inst ≤
    1023 ∧ link ≤ 31 ∧ function ≤ 1023 ∧ resetMode ≤ 1 ∧ 1 ≤ drainTimeout ∧ drainTimeout ≤ 300 ∧ 1 ≤ vectors ∧ vectors ≤ 64 ∧ s.namesHostLink link =
    true ∧ s.notFree inst = false ∧ s.functionTaken link function = false ∧ s.linkVectors link inst + vectors ≤ 4096) ∧
(∃ (s : State) (h : HlyHdr) (inst resetMode drainTimeout vectors : Nat), s.runs h 0x0B02 0 0 [] = true ∧ inst ≤ 1023 ∧ resetMode ≤ 1 ∧ 1 ≤
    drainTimeout ∧ drainTimeout ≤ 300 ∧ 1 ≤ vectors ∧ vectors ≤ 64 ∧ s.notFree inst = true ∧ s.linkVectors (s.instance_ inst).port inst + vectors ≤
    4096) ∧
(∃ (s : State) (h : HlyHdr) (inst form : Nat), s.runs h 0x0B03 0 0 [] = true ∧ 1 ≤ inst ∧ inst ≤ 1023 ∧ form ≤ 2 ∧ s.notFree inst = true ∧
    (s.instance_ inst).state ≠ .resetting) ∧
(∃ (s : State) (h : HlyHdr) (inst : Nat), s.runs h 0x0B04 0 0 [.inst inst] = true ∧ 1 ≤ inst ∧ s.notFree inst = true ∧ s.boundTo inst = false) ∧
(∃ (s : State) (h : HlyHdr) (inst baseA baseB rangeBase rangePages : Nat), s.runs h 0x0B05 0 0 [] = true ∧ inst ≤ 1023 ∧ baseA % 4096 = 0 ∧ baseB %
    4096 = 0 ∧ rangeBase % 4096 = 0 ∧ 1 ≤ rangePages ∧ rangePages ≤ 4294967296 ∧ s.notFree inst = true ∧ (s.instance_ inst).log.swapping = false ∧
    (s.instance_ inst).log.disabling = false) ∧
(∃ (s : State) (h : HlyHdr) (inst : Nat), s.runs h 0x0B05 0 0 [] = true ∧ inst ≤ 1023 ∧ s.notFree inst = true ∧ (s.instance_ inst).log.swapping =
    false ∧ (s.instance_ inst).log.disabling = false ∧ (s.instance_ inst).log.enabled = true) ∧
(∃ (s : State) (h : HlyHdr) (inst : Nat), s.runs h 0x0B06 0 0 [] = true ∧ s.notFree inst = true ∧ (s.instance_ inst).log.enabled = true ∧ (s.instance_
    inst).log.swapping = false ∧ (s.instance_ inst).log.disabling = false) ∧
(∃ (s : State) (h : HlyHdr) (inst : Nat), s.runs h 0x0B07 0 32 [] = true ∧ inst ≤ 1023 ∧ s.notFree inst = true) :=
  ⟨⟨(sR.upPort 30 fun x => { x with mode := 2 }), hR, 1023, 30, 1023, 1, 300, 64, by decide +kernel⟩,
    ⟨(sR.upInst 1023 fun x => { x with state := .enabled }), hR, 1023, 1, 300, 64, by decide +kernel⟩,
    ⟨(sR.upInst 1023 fun x => { x with state := .enabled }), hR, 1023, 2, by decide +kernel⟩,
    ⟨(sR.upInst 1023 fun x => { x with state := .enabled }), hR, 1023, by decide +kernel⟩,
    ⟨(sR.upInst 1023 fun x => { x with state := .enabled }), hR, 1023, 4096, 8192, 4096, 4294967296, by decide +kernel⟩,
    ⟨(sR.upInst 1023 fun x => { x with state := .enabled, log := { enabled := true, baseA := 4096 } }), hR, 1023, by decide +kernel⟩,
    ⟨(sR.upInst 1023 fun x => { x with state := .enabled, log := { enabled := true, baseA := 4096 } }), hR, 1023, by decide +kernel⟩,
    ⟨(sR.upInst 1023 fun x => { x with state := .enabled }), hR, 1023, by decide +kernel⟩⟩

theorem witness_InstanceEventsTakeEffect :
(∃ (s : State) (inst : Nat), (s.instance_ inst).phase = .draining ∧ s.outstanding inst = 0) ∧
(∃ (s : State) (inst : Nat), (s.instance_ inst).phase = .draining ∧ s.outstanding inst ≠ 0) ∧
(∃ (s : State) (inst : Nat), (s.instance_ inst).phase = .genWait) ∧
(∃ (s : State) (inst : Nat), (s.instance_ inst).phase = .ending ∧ s.outstanding inst = 0) ∧
(∃ (s t : State) (inst : Nat), (s.instance_ inst).state = .resetting ∧ s.outstanding inst ≠ 0 ∧ t = (((s.upInst inst fun n =>
    { n with squashed := n.squashed + s.outstanding inst, forced := true }).upIns fun x => { x with intStatus := setFlag x.intStatus 2 }).endItems
    inst).raise 1089 (.inst inst) ∧ (t.instance_ inst).phase = .ending) ∧
(∃ (s : State) (inst : Nat), (s.instance_ inst).writesHeld = false ∧ (s.instance_ inst).log.swapping = true ∧ s.hly.progress = []) ∧
(∃ (s : State) (inst : Nat), 1 ≤ inst ∧ s.reachable inst = true ∧ s.awake = true ∧ s.forwarding = true ∧ (s.instance_ inst).state = .enabled) ∧
(∃ (s : State) (link : Nat), s.awake = true ∧ s.forwarding = true ∧ s.namesHostLink link = true ∧ (s.hostLink link).vfEnable = true) ∧
(∃ (s : State) (link n : Nat), s.awake = true ∧ s.forwarding = true ∧ s.namesHostLink link = true ∧ n ≤ 1023) ∧
(∃ (s : State) (inst : Nat), s.awake = true ∧ s.forwarding = true ∧ s.notFree inst = true) ∧
(∃ (s : State) (inst vector : Nat), s.awake = true ∧ s.forwarding = true ∧ s.notFree inst = true ∧ vector < (s.instance_ inst).vectors ∧ (s.instance_
    inst).bmeHeld = false ∧ (s.msix.get inst {}).functionMask = false ∧ ((s.msix.get inst {}).vectors.get vector {}).pending = true) :=
  ⟨⟨(sR.upInst 1023 fun x => { x with state := .resetting, phase := .draining }), 1023, by decide +kernel⟩,
    ⟨((sR.upInst 1023 fun x => { x with state := .resetting, phase := .draining }).upMec fun x => { x with sendQ := [(16383, { inst := 1023, base := 0, log2Size := 6, cq := 16383, engine := 127, weight := 1, maxOut := 64 })], compQ := [(16383, { inst := 1023, base := 0, log2Size := 6, vector := 0 })], slots := [(65535, { opTag := 65535, queue := 16383, inst := 1023, queueGen := 0, d := { op := 1, length := 8, destDevice := 9, region := 5, key := 6 } })] }),
      1023, by decide +kernel⟩,
    ⟨(sR.upInst 1023 fun x => { x with state := .resetting, phase := .genWait }), 1023, by decide +kernel⟩,
    ⟨(sR.upInst 1023 fun x => { x with state := .resetting, phase := .ending }), 1023, by decide +kernel⟩,
    ⟨((sR.upInst 1023 fun x => { x with state := .resetting, phase := .ending }).upMec fun x => { x with sendQ := [(16383, { inst := 1023, base := 0, log2Size := 6, cq := 16383, engine := 127, weight := 1, maxOut := 64 })], compQ := [(16383, { inst := 1023, base := 0, log2Size := 6, vector := 0 })], slots := [(65535, { opTag := 65535, queue := 16383, inst := 1023, queueGen := 0, d := { op := 1, length := 8, destDevice := 9, region := 5, key := 6 } })] }),
      (((State.upInst (((sR.upInst 1023 fun x => { x with state := .resetting, phase := .ending }).upMec fun x => { x with sendQ := [(16383, { inst := 1023, base := 0, log2Size := 6, cq := 16383, engine := 127, weight := 1, maxOut := 64 })], compQ := [(16383, { inst := 1023, base := 0, log2Size := 6, vector := 0 })], slots := [(65535, { opTag := 65535, queue := 16383, inst := 1023, queueGen := 0, d := { op := 1, length := 8, destDevice := 9, region := 5, key := 6 } })] })) 1023 fun n => { n with squashed := n.squashed + State.outstanding (((sR.upInst 1023 fun x => { x with state := .resetting, phase := .ending }).upMec fun x => { x with sendQ := [(16383, { inst := 1023, base := 0, log2Size := 6, cq := 16383, engine := 127, weight := 1, maxOut := 64 })], compQ := [(16383, { inst := 1023, base := 0, log2Size := 6, vector := 0 })], slots := [(65535, { opTag := 65535, queue := 16383, inst := 1023, queueGen := 0, d := { op := 1, length := 8, destDevice := 9, region := 5, key := 6 } })] })) 1023, forced := true }).upIns fun x => { x with intStatus := setFlag x.intStatus 2 }).endItems 1023).raise 1089 (.inst 1023),
      1023, by decide +kernel⟩,
    ⟨(sR.upInst 1023 fun x => { x with state := .enabled, log := { enabled := true, swapping := true, activeB := true, marksA := [1, 2] } }), 1023,
      by decide +kernel⟩,
    ⟨(sR.upInst 1023 fun x => { x with state := .enabled }), 1023, by decide +kernel⟩,
    ⟨(((sR.upPort 30 fun x => { x with mode := 2 }).upInst 1023 fun x => { x with state := .enabled, port := 30, function := 3 }).upPool fun x => { x with links := [(30, { vfEnable := true, numVfs := 4 })] }),
      30, by decide +kernel⟩,
    ⟨((sR.upPort 30 fun x => { x with mode := 2 }).upInst 1023 fun x => { x with state := .enabled, port := 30, function := 3 }), 30, 1023,
      by decide +kernel⟩,
    ⟨(sR.upInst 1023 fun x => { x with state := .enabled }), 1023, by decide +kernel⟩,
    ⟨{ (sR.upInst 1023 fun x => { x with state := .enabled }) with msix := [(1023, { vectors := [(15, { masked := true, pending := true })] })] },
      1023, 15, by decide +kernel⟩⟩

theorem witness_ProtectionCommandsComplete :
(∃ (s : State) (h : HlyHdr) (master set first count : Nat) (entries : List MpuRegion), s.runs h 0x0C01 (16 * count) 0 [] = true ∧ masterExists master
    = true ∧ set ≤ 1 ∧ first ≤ 63 ∧ 1 ≤ count ∧ first + count ≤ 64 ∧ entries.length = count ∧ (∀ e ∈ entries, badEntry e = false) ∧ (s.master
    master).activeB ≠ (set == 1) ∧ (s.master master).swap = .idle) ∧
(∃ (s : State) (h : HlyHdr) (master : Nat), s.runs h 0x0C02 0 0 [] = true ∧ (master = 255 ∨ masterExists master = true) ∧ (∀ m ∈ swapMasters master,
    (s.master m).swap = .idle)) ∧
(∃ (s : State) (h : HlyHdr) (master : Nat), s.runs h 0x0C03 0 2248 [] = true ∧ masterExists master = true) ∧
(∃ (s : State) (h : HlyHdr), s.runs h 0x0C04 0 0 [] = true) ∧
(∃ (s : State) (h : HlyHdr), s.runs h 0x0C04 0 32 [] = true) ∧
(∃ (s : State) (h : HlyHdr) (nonce : Nat), s.runs h 0x0C04 136 0 [] = true ∧ s.mpu.nonce = some nonce) ∧
(∃ (s : State) (h : HlyHdr) (first count priority mask threshold : Nat), s.runs h 0x0C05 0 0 [] = true ∧ first ≤ 2047 ∧ 1 ≤ count ∧ first + count ≤
    2048 ∧ priority ≤ 255 ∧ mask ≤ 31 ∧ threshold ≤ 255) ∧
(∃ (s : State) (h : HlyHdr) (core count priority mask threshold : Nat), s.runs h 0x0C05 0 0 [] = true ∧ core ≤ 4 ∧ 1 ≤ count ∧ count ≤ 2044 ∧ priority
    ≤ 255 ∧ mask ≤ 31 ∧ threshold ≤ 255) ∧
(∃ (s : State) (h : HlyHdr) (first count : Nat), s.runs h 0x0C06 0 (4 * count) [] = true ∧ first ≤ 2047 ∧ 1 ≤ count ∧ count ≤ 64 ∧ first + count ≤
    2048) :=
  ⟨⟨sR, { hR with dataLength := 1024 }, 127, 1, 62, 2,
      [{ valid := true, perm := 511, ownFunction := true, pages := 1 }, { valid := true, perm := 511, ownFunction := true, pages := 1 }],
      by decide +kernel⟩,
    ⟨sR, hR, 255, by decide +kernel⟩,
    ⟨sR, hR, 160, by decide +kernel⟩,
    ⟨sR, hR, by decide +kernel⟩,
    ⟨sR, hR, by decide +kernel⟩,
    ⟨(sR.upMpu fun x => { x with nonce := some 7 }), { hR with dataLength := 136 }, 7, by decide +kernel⟩,
    ⟨sR, hR, 2047, 1, 255, 31, 255, by decide +kernel⟩,
    ⟨sR, hR, 4, 2044, 255, 31, 255, by decide +kernel⟩,
    ⟨sR, hR, 1984, 64, by decide +kernel⟩⟩

theorem witness_ProtectionEventsTakeEffect :
(∃ (s : State) (m : Nat), (s.master m).swap = .commit) ∧
(∃ (s : State) (m : Nat), (s.master m).swap = .retire ∧ (s.master m).reads = [] ∧ s.hly.progress = []) ∧
(∃ (s : State) (value : Word) (a : Violation) (l : List Violation), s.awake = true ∧ s.mpu.viol = a :: l ∧ value.getLsbD 0 = true) ∧
(∃ (s : State) (core n : Nat), core ≤ 4 ∧ s.claimable core = some n ∧ (s.icu.cores.get core {}).claims.length < 8) ∧
(∃ (s : State) (core : Nat), (s.claimable core = none ∨ 8 ≤ (s.icu.cores.get core {}).claims.length)) ∧
(∃ (s : State) (core n : Nat), n ∈ (s.icu.cores.get core {}).claims) ∧
(∃ (s : State) (core n : Nat), n ∉ (s.icu.cores.get core {}).claims) ∧
(∃ (s : State), s.awake = true) :=
  ⟨⟨(sR.upMpu fun x => { x with masters := [(127, { swap := .commit })] }), 127, by decide +kernel⟩,
    ⟨(sR.upMpu fun x => { x with masters := [(127, { swap := .retire })] }), 127, by decide +kernel⟩,
    ⟨(sR.upMpu fun x => { x with viol := [{ address := 4096, kind := 1, privilege := 0, master := 160, space := 0, setB := false, region := 127 }], lost := 3 }),
      1, { address := 4096, kind := 1, privilege := 0, master := 160, space := 0, setB := false, region := 127 }, [], by decide +kernel⟩,
    ⟨{ sR with icu := { sR.icu with sources := [(2047, { priority := 255, mask := 31, latch := true })], cores := [(4, { claims := [] })] } }, 0,
      2047, by decide +kernel⟩,
    ⟨{ sR with icu := { sR.icu with sources := [(2047, { priority := 255, mask := 31, latch := true })], cores := [(4, { claims := [1, 2, 3, 4, 5, 6, 7, 8] })] } },
      4, by decide +kernel⟩,
    ⟨{ sR with icu := { sR.icu with sources := [(2047, { priority := 255, mask := 31, latch := true })], cores := [(4, { claims := [5, 2047] })] } },
      4, 2047, by decide +kernel⟩,
    ⟨{ sR with icu := { sR.icu with sources := [(2047, { priority := 255, mask := 31, latch := true })], cores := [(4, { claims := [5, 2047] })] } },
      4, 9, by decide +kernel⟩,
    ⟨sR, by decide +kernel⟩⟩

theorem witness_FaultCommandsComplete :
(∃ (s : State) (h : HlyHdr) (first count severity quietMs vector : Nat), s.runs h 0x0D01 0 0 [] = true ∧ 1 ≤ count ∧ count ≤ 2048 ∧ first + count ≤
    2048 ∧ severity ≤ 6 ∧ quietMs ≤ 60000 ∧ vector ≤ 63) ∧
(∃ (s : State) (h : HlyHdr) (source kind subject : Nat), s.runs h 0x0D02 0 0 [] = true ∧ source ≤ 2047 ∧ kind ≤ 2 ∧ subject ≤ 1023 ∧ (kind = 2 →
    subject ≤ 31) ∧ faultKnown source = true) ∧
(∃ (s : State) (h : HlyHdr) (first count : Nat), s.runs h 0x0D03 0 0 [] = true ∧ 1 ≤ count ∧ count ≤ 2048 ∧ first + count ≤ 2048) ∧
(∃ (s : State) (h : HlyHdr) (first count : Nat), s.runs h 0x0D04 0 (16 + 4 * count) [] = true ∧ 1 ≤ count ∧ count ≤ 256 ∧ first + count ≤ 2048) ∧
(∃ (s : State) (h : HlyHdr) (kind unit : Nat), s.runs h 0x0D05 0 0 [] = true ∧ 1 ≤ kind ∧ kind ≤ 7 ∧ unit < unitCount kind ∧ s.spareFree kind unit =
    true ∧ s.flt.swaps = [] ∧ (kind, unit) ∉ s.flt.retired) ∧
(∃ (s : State) (h : HlyHdr) (kind : Nat), s.runs h 0x0D06 0 12 [] = true ∧ 1 ≤ kind ∧ kind ≤ 7 ∧ kind ≠ 4 ∧ 12 + 4 * (s.flt.retired.filter fun r =>
    r.1 == kind).length + 4 * (s.sparesUsed kind).length ≤ h.dataLength) ∧
(∃ (s : State) (h : HlyHdr) (hbm sram cal trend window auto : Nat), s.runs h 0x0D07 0 0 [] = true ∧ 1 ≤ hbm ∧ hbm ≤ 168 ∧ 100 ≤ sram ∧ sram ≤ 60000 ∧
    10 ≤ cal ∧ cal ≤ 10000 ∧ 1 ≤ trend ∧ trend ≤ 1000 ∧ 1 ≤ window ∧ window ≤ 1440 ∧ auto ≤ 127) :=
  ⟨⟨sR, hR, 2046, 2, 6, 60000, 63, by decide +kernel⟩,
    ⟨sR, hR, 1089, 2, 31, by decide +kernel⟩,
    ⟨(sR.upFlt fun x => { x with sources := [(1089, { sticky := true, unc := [(.port 3, 2)] })] }), hR, 0, 2048, by decide +kernel⟩,
    ⟨sR, hR, 1792, 256, by decide +kernel⟩,
    ⟨sR, hR, 7, 7, by decide +kernel⟩,
    ⟨(sR.upFlt fun x => { x with retired := [(7, 1)] }), hR, 7, by decide +kernel⟩,
    ⟨sR, hR, 168, 60000, 10000, 1000, 1440, 127, by decide +kernel⟩⟩

theorem witness_FaultEventsTakeEffect :
(∃ (engine : Nat), engine ≤ 127) ∧
(∃ (core : Nat), core ≤ 4) ∧
(∃ (s : State) (bank : Nat), bank ≤ 31 ∧ (s.dir.banks.get bank {}).moved = none) ∧
(∃ (tile bank : Nat), tile ≤ 3 ∧ bank ≤ 1) ∧
(∃ (channel : Nat), channel ≤ 63) ∧
(∃ (s : State) (kind unit : Nat), kind ∈ [1, 2, 6, 7] ∧ unit < unitCount kind ∧ s.flt.halted = false) ∧
(∃ (s : State) (kind unit : Nat), s.flt.halted = false ∧ 1 ≤ kind ∧ kind ≤ 7 ∧ unit < unitCount kind ∧ s.flt.auto.getLsbD (kind - 1) = true ∧
    s.spareFree kind unit = true ∧ s.flt.swaps = [] ∧ s.flt.swapWait = [] ∧ (kind, unit) ∉ s.flt.retired) ∧
(∃ (s : State) (kind unit : Nat) (c : Bool), s.flt.halted = false ∧ s.flt.swaps = [{ kind, unit, commanded := c }] ∧ s.flt.swapWait = []) ∧
(∃ (s : State), s.flt.quietMs ≠ 0 ∧ s.flt.halted = false ∧ (∃ e ∈ s.flt.sources, ∃ x ∈ e.2.unc, recoverable x.2 = true) ∧ (∀ e ∈ s.flt.sources,
    e.2.active = false ∧ e.2.force = none)) ∧
(∃ (s : State), s.pwr.mode ≠ .stormJib ∧ s.pwr.mode ≠ .barePoles) :=
  ⟨⟨127, by decide +kernel⟩,
    ⟨4, by decide +kernel⟩,
    ⟨sR, 31, by decide +kernel⟩,
    ⟨3, 1, by decide +kernel⟩,
    ⟨63, by decide +kernel⟩,
    ⟨sR, 7, 7, by decide +kernel⟩,
    ⟨(sR.upFlt fun x => { x with auto := 127 }), 7, 7, by decide +kernel⟩,
    ⟨(sR.upFlt fun x => { x with swaps := [{ kind := 7, unit := 7, commanded := true }] }), 7, 7, true, by decide +kernel⟩,
    ⟨(sR.upFlt fun x => { x with quietMs := 5, sources := [(1089, { sticky := true, unc := [(.port 3, 2)] })] }), by decide +kernel⟩,
    ⟨sR, by decide +kernel⟩⟩

theorem witness_RaisedFaultIsNoted :
∃ (s : State) (src : Nat) (subj : Subject), faultKnown src = true ∧ effectiveSeverity (s.severity src) subj ≠ 0 :=
    ⟨sR, 1089, .inst 5, by decide +kernel⟩

theorem witness_ObservationCommandsComplete :
(∃ (s : State) (h : HlyHdr) (block counter event period : Nat), s.runs h 0x0E01 0 0 [] = true ∧ block ≤ 27 ∧ counter ≤ 7 ∧ eventOf block event = true
    ∧ period < 2 ^ 32 ∧ (period ≠ 0 → block = 14) ∧ s.ttc.programmable = true) ∧
(∃ (s : State) (h : HlyHdr) (stream interval base slots vector : Nat), s.runs h 0x0E02 0 0 [] = true ∧ stream ≤ 1 ∧ interval ≤ 60000 ∧ base % 4096 = 0
    ∧ 2 ≤ slots ∧ slots ≤ 64 ∧ vector ≤ 63 ∧ (s.stream stream).interval = 0 ∧ (s.stream stream).pending = none) ∧
(∃ (s : State) (h : HlyHdr) (stream cm interval vector : Nat), s.runs h 0x0E02 0 0 [] = true ∧ stream ≤ 1 ∧ interval ≤ 60000 ∧ vector ≤ 63 ∧ cmBit cm
    1 = false ∧ cmBit cm 2 = false ∧ (s.stream stream).interval ≠ 0 ∧ (s.stream stream).pending = none) ∧
(∃ (s : State) (h : HlyHdr) (probe bridge action source destination kinds records : Nat), s.runs h 0x0E03 0 0 [] = true ∧ probe ≤ 7 ∧ bridge ≤ 255 ∧
    action ≤ 3 ∧ source ≤ 31 ∧ destination ≤ 31 ∧ kinds ≤ 31 ∧ 1 ≤ records ∧ records ≤ 65536 ∧ s.traceBytes probe + 32 * records ≤ 67108864) ∧
(∃ (s : State) (h : HlyHdr) (probe first count : Nat), s.runs h 0x0E04 0 (24 + 32 * count) [] = true ∧ probe ≤ 7 ∧ first ≤ 65535 ∧ count ≤ 4096) ∧
(∃ (s : State) (h : HlyHdr) (action inst : Nat), s.runs h 0x0E05 0 0 [] = true ∧ action ≤ 1 ∧ inst ≤ 1023 ∧ s.notFree inst = true ∧ (s.stream 1).slots
    ≠ 0) :=
  ⟨⟨(sR.upTtc fun x => { x with programmable := true }), hR, 14, 7, 3584, 5, by decide +kernel⟩,
    ⟨sR, hR, 1, 60000, 4096, 64, 63, by decide +kernel⟩,
    ⟨(sR.upTtc fun x => { x with stream1 := { interval := 5, base := 4096, slots := 4 } }), hR, 1, 9, 60000, 63, by decide +kernel⟩,
    ⟨sR, hR, 7, 255, 3, 31, 31, 31, 65536, by decide +kernel⟩,
    ⟨sR, { hR with dataLength := 131096 }, 7, 65535, 4096, by decide +kernel⟩,
    ⟨((sR.upInst 1023 fun x => { x with state := .enabled }).upTtc fun x => { x with stream1 := { interval := 5, base := 4096, slots := 4 } }), hR, 1,
      1023, by decide +kernel⟩⟩

theorem witness_ObservationEventsTakeEffect :
(∃ (s : State), s.ttc.programmable = true) ∧
(∃ (s : State) (engine counter : Nat), s.ttc.programmable = true ∧ counter ≤ 7 ∧ engine ≤ 127 ∧ (s.ttc.counters.get (112 + counter) {}).period ≠ 0) ∧
(∃ (s : State) (stream : Nat), stream ≤ 1 ∧ s.pwr.lost = false ∧ s.pwr.mode ≠ .barePoles ∧ s.pwr.mode ≠ .stormJib ∧ (s.stream stream).pending = none ∧
    (s.stream stream).interval ≠ 0 ∧ (s.stream stream).hasRoom = true) ∧
(∃ (s : State) (stream : Nat), stream ≤ 1 ∧ s.pwr.lost = false ∧ s.pwr.mode ≠ .barePoles ∧ s.pwr.mode ≠ .stormJib ∧ (s.stream stream).pending = none ∧
    (s.stream stream).interval ≠ 0 ∧ (s.stream stream).hasRoom = false) ∧
(∃ (s : State) (stream : Nat) (snap : Snapshot) (rest : List Snapshot), stream ≤ 1 ∧ s.pwr.lost = false ∧ s.pwr.mode ≠ .barePoles ∧ s.pwr.mode ≠
    .stormJib ∧ (s.stream stream).staged = snap :: rest ∧ (s.stream stream).slotFree = true ∧ snap.final = none) ∧
(∃ (s : State) (inst : Nat), (s.instance_ inst).meteringWait = true ∧ s.hly.progress = []) ∧
(∃ (s : State) (bridge source destination kind address p : Nat), probeHits (s.probe p) bridge source destination kind address = true ∧ (s.probe
    p).action = 1) ∧
(∃ (s : State) (p r : Nat) (rest : List Nat), (s.probe p).traceWait = r :: rest) :=
  ⟨⟨(sR.upTtc fun x => { x with programmable := true, counters := [(223, { local_ := 5 })] }), by decide +kernel⟩,
    ⟨(sR.upTtc fun x => { x with programmable := true, counters := [(119, { period := 8 })] }), 127, 7, by decide +kernel⟩,
    ⟨(sR.upTtc fun x => { x with stream1 := { interval := 5, base := 4096, slots := 4 } }), 1, by decide +kernel⟩,
    ⟨(sR.upTtc fun x => { x with stream1 := { interval := 5, base := 4096, slots := 4, full := [0] } }), 1, by decide +kernel⟩,
    ⟨(sR.upTtc fun x => { x with stream1 := { interval := 5, base := 4096, slots := 4, staged := [{ kind := 2, seq := 0, image := [1, 2] }] } }), 1,
      { kind := 2, seq := 0, image := [1, 2] }, [], by decide +kernel⟩,
    ⟨(sR.upInst 1023 fun x => { x with meteringWait := true, gen := 3 }), 1023, by decide +kernel⟩,
    ⟨(sR.upTtc fun x => { x with probes := [(7, { action := 1, bridge := 5, source := 31, destination := 31, kindMask := 31 })] }), 5, 0, 0, 0, 0, 7,
      by decide +kernel⟩,
    ⟨(sR.upTtc fun x => { x with probes := [(7, { traceWait := [99] })] }), 7, 99, [], by decide +kernel⟩⟩

theorem witness_BootAndResetsTakeEffect :
(∃ (s : State) (h : HlyHdr) (slot offset : Nat) (data : List Nat), s.runs h 0x0F01 data.length 0 [] = true ∧ slot ≤ 1 ∧ offset % 4096 = 0 ∧ offset +
    data.length ≤ 33554432 ∧ s.runningSlot slot = false) ∧
(∃ (s : State) (h : HlyHdr) (slot : Nat) (raiseFloor : Bool), s.runs h 0x0F02 0 0 [] = true ∧ slot ≤ 1 ∧ (s.mgc.flashSlot slot).filling = false ∧
    (s.imageOk slot).1 = true ∧ s.floor ≤ (s.imageOk slot).2 ∧ (raiseFloor = true → s.mgc.fusesUsed < 32) ∧ s.mgc.pendingReset = none) ∧
(∃ (s : State) (h : HlyHdr) (kind : Nat), s.runs h 0x0F03 0 0 [] = true ∧ kind ≤ 2) ∧
(∃ (s : State) (h : HlyHdr) (force : Bool), s.runs h 0x0F04 0 0 [] = true ∧ s.rte.valid = true ∧ (force = true ∨ (s.adm.contracts = [] ∧ s.adm.resvs =
    [] ∧ s.rte.trees = [] ∧ s.rdx.groups = []))) ∧
(∃ (s : State) (r : PendingReset), s.mgc.pendingReset = some r ∧ s.pwr.lost = false) ∧
(∃ (s : State), s.mgc.vaux = true ∧ s.mgc.pendingReset = none ∧ s.mgc.trigger ≠ 5) ∧
(∃ (s : State), s.mgc.vaux = false) ∧
(∃ (s : State), s.pwr.mode ≠ .barePoles ∧ s.pwr.lost = false) ∧
(∃ (s : State) (version : Nat), s.hly.fwState = .booting ∧ s.mgc.stage ≠ .fwStart ∧ s.mgc.triedFirst = false ∧ s.mgc.activation ≤ 1 ∧ s.floor ≤
    version) ∧
(∃ (s : State), s.hly.fwState = .booting ∧ s.mgc.stage ≠ .fwStart ∧ s.mgc.triedFirst = false) ∧
(∃ (s : State), s.hly.fwState = .booting ∧ s.mgc.stage = .fwStart ∧ s.mgc.mgmtReset = true ∧ s.mgc.flrWait = false ∧ s.hly.progress = []) ∧
(∃ (s : State), s.hly.fwState = .booting ∧ s.mgc.stage = .fwStart ∧ s.mgc.mgmtReset = false) ∧
(∃ (s : State) (instruction : Nat), s.pwr.mode ≠ .stormJib ∧ s.pwr.mode ≠ .barePoles ∧ s.pwr.lost = false ∧ instruction ≤ 8) :=
  ⟨⟨sR, { hR with dataLength := 3 }, 1, 4096, [1, 2, 3], by decide +kernel⟩,
    ⟨(sR.upMgc fun x => { x with floor := some 3, slot1 := { ok := some true, version := 3 } }), hR, 1, true, by decide +kernel⟩,
    ⟨sR, hR, 2, by decide +kernel⟩,
    ⟨((sR.upPort 31 fun x => { x with mode := 1 }).upLport 31 fun x => { x with state := .up }), hR, true, by decide +kernel⟩,
    ⟨(sR.upMgc fun x => { x with pendingReset := some { kind := 2, trigger := 1 } }), { kind := 2, trigger := 1 }, by decide +kernel⟩,
    ⟨sR, by decide +kernel⟩,
    ⟨(sR.upMgc fun x => { x with vaux := false }), by decide +kernel⟩,
    ⟨sR, by decide +kernel⟩,
    ⟨({ sR with hly := { sR.hly with fwState := .booting } }.upMgc fun x => { x with floor := some 5, stage := .imageRead }), 5, by decide +kernel⟩,
    ⟨({ sR with hly := { sR.hly with fwState := .booting } }.upMgc fun x => { x with stage := .imageRead }), by decide +kernel⟩,
    ⟨({ sR with hly := { sR.hly with fwState := .booting } }.upMgc fun x => { x with stage := .fwStart, mgmtReset := true }), by decide +kernel⟩,
    ⟨({ sR with hly := { sR.hly with fwState := .booting } }.upMgc fun x => { x with stage := .fwStart }), by decide +kernel⟩,
    ⟨sR, 8, by decide +kernel⟩⟩

theorem witness_RegisterAccessesTakeEffect :
(∃ (s : State), s.awake = true) ∧
(∃ (s : State) (block offset v : Nat), s.awake = true ∧ block < 28 ∧ offset < 0x40000 ∧ s.reg64 block offset = some v) ∧
(∃ (s : State) (address : Nat), s.awake = true ∧ ((windowOf address).any fun w => s.holdsReg w.1 w.2) = false) ∧
(∃ (s : State) (window : Nat), s.awake = true ∧ 28 ≤ window) ∧
(∃ (s : State) (q : Nat), s.awake = true ∧ q ≤ 7 ∧ s.queueOpen q = true) ∧
(∃ (s : State) (q : Nat), s.awake = true ∧ q ≤ 7 ∧ s.queueOpen q = false) :=
  ⟨⟨sR, by decide +kernel⟩,
    ⟨(sR.upMpu fun x => { x with viol := [{ address := 4096, kind := 1, privilege := 0, master := 160, space := 0, setB := false, region := 127 }] }),
      19, 0x20, 4096, by decide +kernel⟩,
    ⟨sR, 0x700000, by decide +kernel⟩,
    ⟨sR, 28, by decide +kernel⟩,
    ⟨sR, 7, by decide +kernel⟩,
    ⟨sR, 0, by decide +kernel⟩⟩

theorem witness_QueriesLeaveTheRest :
State.reset.calm = true :=
    by decide +kernel

theorem witness_SettingsLeaveTheRest :
State.reset.calm = true :=
    by decide +kernel

theorem witness_EventsLeaveTheRest :
State.reset.calm = true :=
    by decide +kernel

theorem witness_StepTakesTheFront :
(∃ (s : State) (i : Instr) (rest : List Instr), s.pending = i :: rest) ∧
(State.reset.pending = []) :=
  ⟨⟨sR.front .ftuTimeLoRead, _, _, rfl⟩,
    rfl⟩

theorem witness_AnswerLeavesTheRest :
(State.reset.calm = true) ∧
(∃ (s : State) (h : HlyHdr) (q : Nat), h.src = .host q ∧ h.interrupt = false ∧ (s.hq q).ringFull = false ∧ (s.hly.heldReplies.any fun x => x.src ==
    .host q) = false ∧ h.outputError = false) ∧
(∃ (s : State) (i : Instr) (h : HlyHdr), i.header = some h ∧ s.acceptable h = false ∧ s.calm = true) :=
  ⟨by decide +kernel,
    ⟨sR, hR, 0, by decide +kernel⟩,
    ⟨State.reset, .nop hR, hR, by decide +kernel⟩⟩

theorem witness_ContractsNeedManagement :
∃ (s : State) (i : Instr) (h : HlyHdr), i.header = some h ∧ i.code ∈ [0x0501, 0x0502, 0x0503, 0x0505, 0x0506, 0x0507, 0x0508] ∧ s.acceptable h = true
    ∧ h.reserved = 0 ∧ h.remote = false ∧ h.directed = false ∧ dataBad h 0 0 = false ∧ s.flt.halted = false ∧ s.romOnly = false ∧ s.management h.src =
    false :=
    ⟨sR.upHq 0 fun x => { x with board := true }, .contractRemove hR 5, hR, by decide +kernel⟩

theorem witness_SettingsLeaveTheirNeighbours :
State.reset.calm = true :=
    by decide +kernel

theorem witness_RoutingAfterReset :
(∃ s : State, s.mgc.vaux = true) ∧
(∃ s : State, s.pwr.mode ≠ .barePoles ∧ s.pwr.lost = false) ∧
(∃ (s : State) (r : PendingReset), s.mgc.pendingReset = some r ∧ s.pwr.lost = false ∧ r.kind ≠ 1) ∧
(∃ (s : State) (h : HlyHdr) (reefForm : Nat), s.runs h 0x0101 0 0 [] = true ∧ s.pwr.mode = .barePoles ∧ s.pwr.change = none ∧ reefForm ≤ 1) :=
  ⟨⟨sR, by decide +kernel⟩,
    ⟨sR, by decide +kernel⟩,
    ⟨sR.upMgc fun x => { x with pendingReset := some { kind := 2, trigger := 1 } }, { kind := 2, trigger := 1 }, by decide +kernel⟩,
    ⟨sB, { src := .board }, 1, by decide +kernel⟩⟩

theorem witness_StepKeepsMemoryCanonical :
∃ s t : State, s.memOk = true ∧ step s = .next t :=
    ⟨State.reset, coreCycle State.reset, by decide +kernel, rfl⟩

theorem witness_CommandsLeaveTheQueue :
∃ (i : Instr) (s t : State), exec i s = .next t :=
    ⟨.ftuTimeLoRead, sR, _, rfl⟩

theorem witness_DescriptorsReadBack :
∃ (i : Instr) (h : HlyHdr), i.header = some h ∧ i.wf = true :=
    ⟨.inbandSet hR 63 true 2 [1, 2, 0, 0] 20 8 100, hR, by decide +kernel⟩

theorem witness_RecordsCombineExactly :
∃ (a : Elem) (l k : List Elem), (∀ e ∈ a :: l, ∃ x n p m z, e = .exact x n p m z) ∧ l.Perm k :=
    ⟨.exact 1 false false false false, [.exact 2 true false false false, .exact 3 false false false true],
      [.exact 3 false false false true, .exact 2 true false false false], by simp, by decide⟩

theorem witness_OtherCommandsKeepTheRest :
State.reset.pwr.mode ≠ .barePoles :=
    by decide +kernel

theorem witness_HostAccessesKeepTheRest :
State.reset.awake = true :=
    by decide +kernel

theorem witness_PacketEventsKeepTheRest :
State.reset.awake = true :=
    by decide +kernel

theorem witness_EngineEventsKeepTheRest :
State.reset.awake = true :=
    by decide +kernel

theorem witness_DeviceEventsKeepTheRest :
State.reset.awake = true :=
    by decide +kernel

end Sys2Proof.Tests
end

section
/-! SUPPORT. The host's accesses to BAR0: what an address names, what an access that reaches no register leaves, which offsets hold a
register, and what a write of one gives; then the statement about the accesses of the host. -/
namespace Sys2Proof.Machine

/-! ### Addresses of BAR0 -/

/-- The windows of the blocks (R436): base and offset name the block and the offset again. -/
theorem windowOf_windowBase_add {block offset : Nat} (hb : block < 28) (ho : offset < 0x40000) :
    windowOf (windowBase block + offset) = some (block, offset) := by
  have hlt : 0x40000 * block + offset < 0x700000 := by omega
  have hdiv : (0x40000 * block + offset) / 0x40000 = block := by omega
  have hmod : (0x40000 * block + offset) % 0x40000 = offset := by omega
  rw [windowOf, windowBase, if_pos hlt, hdiv, hmod]

/-- From window 28 up BAR0 is reserved (R436). -/
theorem windowOf_windowBase_reserved {window : Nat} (offset : Nat) (hw : 28 ≤ window) : windowOf (windowBase window + offset) = none := by
  have hge : ¬ 0x40000 * window + offset < 0x700000 := by omega
  rw [windowOf, windowBase, if_neg hge]

/-- The first byte of an entry of a register array names that entry. -/
theorem arrayIndex_entry {base size n i : Nat} (hs : 0 < size) (hi : i < n) : arrayIndex base size n (base + size * i) = some i := by
  have hlt : size * i < size * n := Nat.mul_lt_mul_of_pos_left hi hs
  simp [arrayIndex, hlt, Nat.mul_div_cancel_left i hs]

/-- An offset that an array of a list holds has a value in the list. -/
theorem firstArray_isSome {offset : Nat} {l : List (Nat × Nat × Nat × (Nat → Nat))} {base size n i : Nat} {f : Nat → Nat}
    (hmem : (base, size, n, f) ∈ l) (hi : arrayIndex base size n offset = some i) : (firstArray offset l).isSome = true := by
  induction l with
  | nil => cases hmem
  | cons a t ih =>
    obtain ⟨base', size', n', f'⟩ := a
    simp only [firstArray]
    split
    · rfl
    · next hnone =>
      rcases List.mem_cons.mp hmem with heq | htail
      · cases heq
        simp [hi] at hnone
      · exact ih htail

/-! ### Offsets that hold a register -/

/-- An offset that holds a 32-bit register holds a register. -/
theorem State.holdsReg_of_reg32 {s : State} {block offset : Nat} (h : (s.reg32 block offset).isSome = true) :
    s.holdsReg block offset = true := by
  simp [State.holdsReg, h]

/-- LNK_INT_STATUS (R233). -/
theorem State.holdsReg_lnkIntStatus (s : State) : s.holdsReg 2 0x10 = true := rfl

/-- LNK_INT_ENABLE (R233). -/
theorem State.holdsReg_lnkIntEnable (s : State) : s.holdsReg 2 0x14 = true := rfl

/-- HLY_INT_STATUS (R469). -/
theorem State.holdsReg_hlyIntStatus (s : State) : s.holdsReg 18 0x10 = true := rfl

/-- The lower half of the command base of each of the eight host queues (R469). -/
theorem State.holdsReg_queueCmdBase (s : State) {q : Nat} (hq : q ≤ 7) : s.holdsReg 18 (0x100 + 32 * q) = true := by
  have hmem : (0x100, 32, 8, fun p => s.queueReg p 0) ∈ (List.range 6).map fun k => (0x100 + 4 * k, 32, 8, fun p => s.queueReg p k) :=
    List.mem_map.mpr ⟨0, by decide, rfl⟩
  exact State.holdsReg_of_reg32 (firstArray_isSome (List.mem_append_right _ hmem) (arrayIndex_entry (by decide) (by omega)))

/-! ### Accesses that reach no register -/

/-- A stray read of a device that is awake is counted and answers 0 (R435). -/
theorem State.strayAccess_read {s : State} (hs : s.awake = true) (index : Nat) :
    s.strayAccess false index = (s.tally (evt 18 index)).emit (.readData 0) := by
  simp [State.strayAccess, wake_awake s hs]

/-- A stray write of a device that is awake is counted, and nothing else (R435). -/
theorem State.strayAccess_write {s : State} (hs : s.awake = true) (index : Nat) : s.strayAccess true index = s.tally (evt 18 index) := by
  simp [State.strayAccess, wake_awake s hs]

/-- BAR0_ILLEGAL_ACCESS is a stray access of index 2 (R435, R542). -/
theorem exec_bar0IllegalAccess_gives (write : Bool) (s : State) : Gives (exec (.bar0IllegalAccess write) s) (s.strayAccess write 2) := rfl

/-- BAR0_UNMAPPED_ACCESS, at an address of no register, is a stray access of index 0 (R435, R542). -/
theorem exec_bar0UnmappedAccess_gives {s : State} {access : Bar0Access}
    (h : ((windowOf access.address).any fun w => s.holdsReg w.1 w.2) = false) :
    Gives (exec (.bar0UnmappedAccess access) s) (s.strayAccess access.write 0) := by
  change ends _ = _
  simp [h, ends]

/-- REGISTER_WRITE in the reserved range is a stray write (R435, R436). -/
theorem exec_registerWrite_reserved_gives {window : Nat} (offset : Nat) (value : Word) (s : State) (hw : 28 ≤ window) :
    Gives (exec (.registerWrite window offset value) s) (s.strayAccess true 0) := by
  change ends _ = _
  simp [windowOf_windowBase_reserved offset hw, ends]

/-! ### Accesses that reach a register -/

/-- FTU_TIME_LO_READ of a device that is awake (R92). -/
theorem exec_ftuTimeLoRead_gives {s : State} (hs : s.awake = true) :
    Gives (exec .ftuTimeLoRead s) ((s.upFtu fun f => { f with timeHi := s.ftu.time / 2 ^ 32 }).emit (.readData (s.ftu.time % 2 ^ 32))) := by
  change execFtuTimeLoRead s = _
  simp only [execFtuTimeLoRead, wake_awake s hs, ends]

/-- REG64_LOW_HALF_READ of a 64-bit register of a device that is awake (R435). -/
theorem exec_reg64LowHalfRead_gives {s : State} {block offset v : Nat} (hs : s.awake = true) (hb : block < 28) (ho : offset < 0x40000)
    (hv : s.reg64 block offset = some v) : Gives (exec (.reg64LowHalfRead block offset) s) (s.readLow block offset v) := by
  change execReg64LowHalfRead block offset s = _
  simp only [execReg64LowHalfRead, wake_awake s hs, windowOf_windowBase_add hb ho, hv, ends]

/-- REGISTER_WRITE at an offset that holds a register of a device that is awake (R13, R436). -/
theorem exec_registerWrite_gives {s : State} {block offset : Nat} (value : Word) (hs : s.awake = true) (hb : block < 28)
    (ho : offset < 0x40000) (hr : s.holdsReg block offset = true) :
    Gives (exec (.registerWrite block offset value) s) (s.writeReg block offset value) := by
  change execRegisterWrite block offset value s = _
  simp only [execRegisterWrite, windowOf_windowBase_add hb ho, hr, if_true, wake_awake s hs, ends]

/-! ### What a write does to a register -/

/-- A W1C field clears the bits written 1 (R13). -/
theorem w1c_eq {n : Nat} (v : BitVec n) (value : Word) : w1c v value = v &&& ~~~(value.setWidth n) := by
  rw [w1c, BitVec.ofNat_toNat]

/-- An RW field from bit 0 takes the low bits written (R13, R15). -/
theorem rwLow_eq (n : Nat) (value : Word) : rwLow n value = value.setWidth n := BitVec.ofNat_toNat ..

/-- A write of LNK_INT_STATUS (R13). -/
theorem State.writeReg_lnkIntStatus (s : State) (v : Word) :
    s.writeReg 2 0x10 v = s.upLnk fun x => { x with intStatus := w1c x.intStatus v } := rfl

/-- A write of LNK_INT_ENABLE (R13). -/
theorem State.writeReg_lnkIntEnable (s : State) (v : Word) : s.writeReg 2 0x14 v = s.upLnk fun x => { x with intEnable := rwLow 5 v } := rfl

/-- A write of HLY_INT_STATUS (R13). -/
theorem State.writeReg_hlyIntStatus (s : State) (v : Word) :
    s.writeReg 18 0x10 v = s.upHly fun x => { x with intStatus := w1c x.intStatus v } := rfl

/-- A write of the lower half of a queue's command base: taken while the queue is neither enabled nor busy (R469). -/
theorem State.writeReg_queueCmdBase (s : State) {q : Nat} (v : Word) (hq : q ≤ 7) :
    s.writeReg 18 (0x100 + 32 * q) v = if s.queueOpen q then s.upHq q fun x => { x with cmdBase := putLow x.cmdBase v } else s := by
  have hstatus : ¬ 0x100 + 32 * q = intOffset 18 := by simp only [intOffset]; omega
  have henable : ¬ 0x100 + 32 * q = intOffset 18 + 4 := by simp only [intOffset]; omega
  have hrte : ¬ ((18 : Nat) = 4 ∧ 0x100 + 32 * q = 0x10) := by omega
  have hrange : (18 : Nat) = 18 ∧ 0x100 ≤ 0x100 + 32 * q ∧ 0x100 + 32 * q < 0x200 := by omega
  have hentry : (0x100 + 32 * q - 0x100) / 32 = q := by omega
  have hfield : (0x100 + 32 * q - 0x100) % 32 = 0 := by omega
  rw [State.writeReg, if_neg hstatus, if_neg henable, if_neg hrte, if_pos hrange, hentry, hfield]
  rfl

/-- A queue that is changed reads as changed. -/
theorem State.hq_upHq_self (s : State) (q : Nat) (f : HQueue → HQueue) : (s.upHq q f).hq q = f (s.hq q) := by
  simp [State.upHq, State.hq]

/-! ### The statement -/

/-- Settles O40: each access gives the state that its own lemma names, and the fields are read off that state. -/
theorem registerAccessesTakeEffect : Obligations.RegisterAccessesTakeEffect := by
  refine ⟨?timeLo, ?lowHalf, ?illegal, ?unmapped, ?reserved, ?registers⟩
  case timeLo =>
    intro s hs
    exact ⟨_, exec_ftuTimeLoRead_gives hs, rfl, rfl, rfl⟩
  case lowHalf =>
    intro s block offset v hs hb ho hv
    exact ⟨_, exec_reg64LowHalfRead_gives hs hb ho hv, rfl, rfl, rfl⟩
  case illegal =>
    intro s hs
    refine ⟨⟨_, exec_bar0IllegalAccess_gives false s, ?_⟩, ⟨_, exec_bar0IllegalAccess_gives true s, ?_⟩⟩
    · simp [State.strayAccess_read hs]
    · simp [State.strayAccess_write hs]
  case unmapped =>
    intro s address hs hno
    refine ⟨⟨_, exec_bar0UnmappedAccess_gives hno, ?_⟩, ⟨_, exec_bar0UnmappedAccess_gives hno, ?_⟩⟩
    · simp [State.strayAccess_read hs]
    · simp [State.strayAccess_write hs]
  case reserved =>
    intro s window offset value hs hw
    refine ⟨_, exec_registerWrite_reserved_gives offset value s hw, ?_⟩
    simp [State.strayAccess_write hs]
  case registers =>
    intro s value hs
    refine ⟨?lnkStatus, ?lnkEnable, ?hlyStatus, ?queueOpen, ?queueClosed⟩
    case lnkStatus =>
      refine ⟨_, exec_registerWrite_gives value hs (by decide) (by decide) s.holdsReg_lnkIntStatus, ?_⟩
      simp [State.writeReg_lnkIntStatus, w1c_eq]
    case lnkEnable =>
      refine ⟨_, exec_registerWrite_gives value hs (by decide) (by decide) s.holdsReg_lnkIntEnable, ?_⟩
      simp [State.writeReg_lnkIntEnable, rwLow_eq]
    case hlyStatus =>
      refine ⟨_, exec_registerWrite_gives value hs (by decide) (by decide) s.holdsReg_hlyIntStatus, ?_⟩
      simp [State.writeReg_hlyIntStatus, w1c_eq]
    case queueOpen =>
      intro q hq hopen
      refine ⟨_, exec_registerWrite_gives value hs (by decide) (by omega) (s.holdsReg_queueCmdBase hq), ?_⟩
      rw [s.writeReg_queueCmdBase value hq, if_pos hopen, State.hq_upHq_self]
      rfl
    case queueClosed =>
      intro q hq hclosed
      refine ⟨_, exec_registerWrite_gives value hs (by decide) (by omega) (s.holdsReg_queueCmdBase hq), ?_⟩
      rw [s.writeReg_queueCmdBase value hq, if_neg (by simp [hclosed])]

end Sys2Proof.Machine
end

section
/-! SUPPORT. What the end of a step (R523) leaves of the memory pool: each operation that it reaches leaves the pool alone, or changes the
pool and leaves its counts of refused host accesses. Then the statements about host memory and about the front of the queue. -/
namespace Sys2Proof.Machine

/-! ### Operations one after the other, and operations that answer a value beside the state -/

/-- What each operation of a list keeps, the list keeps. -/
theorem foldl_keeps {α β : Type} (m : State → β) {g : State → α → State} (hg : ∀ s a, m (g s a) = m s) (l : List α)
    (s : State) : m (l.foldl g s) = m s := by
  induction l generalizing s with
  | nil => rfl
  | cons a l ih => rw [List.foldl_cons, ih, hg]

/-- `foldl_keeps` of the memory pool. -/
theorem foldl_keeps_pool {α : Type} {g : State → α → State} (hg : ∀ s a, (g s a).pool = s.pool) (l : List α) (s : State) :
    (l.foldl g s).pool = s.pool :=
  foldl_keeps State.pool hg l s

/-- `foldl_keeps` of the counts of refused host accesses (R33, R279). -/
theorem foldl_keeps_refused {α : Type} {g : State → α → State} (hg : ∀ s a, (g s a).pool.refused = s.pool.refused) (l : List α)
    (s : State) : (l.foldl g s).pool.refused = s.pool.refused :=
  foldl_keeps (fun t => t.pool.refused) hg l s

theorem foldl_emit_pool {α : Type} (f : α → Out) (l : List α) (s : State) : (l.foldl (fun s a => s.emit (f a)) s).pool = s.pool :=
  foldl_keeps_pool (g := fun s a => s.emit (f a)) (fun _ _ => rfl) l s

/-- The state that an operation answers beside a value, named by a case split, is that operation's second part. -/
theorem pool_of_pair {α : Type} {p : α × State} {a : α} {s t : State} (h : p = (a, t)) (hp : p.2.pool = s.pool) : t.pool = s.pool := by
  rw [← hp, h]

theorem refused_of_pair {α : Type} {p : α × State} {a : α} {s t : State} (h : p = (a, t)) (hp : p.2.pool.refused = s.pool.refused) :
    t.pool.refused = s.pool.refused := by
  rw [← hp, h]

/-! ### Values, ports and the output buffer -/

@[simp] theorem State.fresh_pool (s : State) : s.fresh.2.pool = s.pool := rfl

@[simp] theorem State.upPort_pool (s : State) (p : Nat) (f : Port → Port) : (s.upPort p f).pool = s.pool := by
  simp [State.upPort]

@[simp] theorem State.upAccount_pool (s : State) (a : Nat) (f : Account → Account) : (s.upAccount a f).pool = s.pool := rfl

@[simp] theorem State.charge_pool (s : State) (c : Charge) (f : Nat → Nat) : (s.charge c f).pool = s.pool := by
  simp only [State.charge]; (repeat' split) <;> simp

@[simp] theorem State.settleQueue_pool (s : State) (q : Nat) : (s.settleQueue q).pool = s.pool := by
  simp only [State.settleQueue]; split <;> simp

@[simp] theorem State.freePkt_pool (s : State) (p : BufPkt) : (s.freePkt p).pool = s.pool := by
  simp only [State.freePkt]; split <;> simp

@[simp] theorem State.settleOld_pool (s : State) (before : Nat) : (s.settleOld before).pool = s.pool := by
  simp only [State.settleOld]; split <;> simp

/-! ### The protection unit -/

@[simp] theorem State.violate_pool (s : State) (a : MpuAccess) (region page : Nat) : (s.violate a region page).pool = s.pool := by
  simp only [State.violate]; split <;> simp

@[simp] theorem State.noteViolation_pool (s : State) (a : MpuAccess) (region : Nat) : (s.noteViolation a region).pool = s.pool := by
  simp [State.noteViolation, apply_ite State.pool]

@[simp] theorem State.addCounter_pool (s : State) (c n : Nat) : (s.addCounter c n).pool = s.pool := rfl

@[simp] theorem State.bump_pool (s : State) (i idx : Nat) : (s.bump i idx).pool = s.pool := by
  simp only [State.bump]; split <;> simp

@[simp] theorem State.writeRecord_pool (s : State) (cq : Nat) (r : RecordQueue) (l : List Nat) : (s.writeRecord cq r l).pool = s.pool := by
  simp only [State.writeRecord]; (repeat' split) <;> simp

@[simp] theorem State.cqFull_pool (s : State) (cq : Nat) : (s.cqFull cq).pool = s.pool := by
  simp only [State.cqFull]; (repeat' split) <;> simp

@[simp] theorem State.putRecord_pool (s : State) (cq : Nat)
    (kind status queue bytes wrId detail srcDevice srcInst refusal retryAfter : Nat) :
    (s.putRecord cq kind status queue bytes wrId detail srcDevice srcInst refusal retryAfter).pool = s.pool := by
  rw [State.putRecord]; (repeat' split) <;> simp

@[simp] theorem State.upSlot_pool (s : State) (tag : Nat) (f : OpSlot → OpSlot) : (s.upSlot tag f).pool = s.pool := rfl

@[simp] theorem State.abandonLocks_pool (s : State) (q : Nat) : (s.abandonLocks q).pool = s.pool := by
  simp only [State.abandonLocks]; split <;> simp

@[simp] theorem State.sendQueueError_pool (s : State) (q status : Nat) : (s.sendQueueError q status).pool = s.pool := by
  rw [State.sendQueueError]; (repeat' split) <;> simp

@[simp] theorem State.engineBusy_pool (s : State) (i : Nat) : (s.engineBusy i).pool = s.pool := rfl

@[simp] theorem State.retire_pool (s : State) (x : OpSlot) (status bytes : Nat) : (s.retire x status bytes).pool = s.pool := by
  simp [State.retire, apply_ite State.pool]

@[simp] theorem State.drainOrder_pool (s : State) (q : Nat) (n : Nat) : (s.drainOrder q n).pool = s.pool := by
  induction n generalizing s with
  | zero => rfl
  | succ n ih => rw [State.drainOrder]; (repeat' split) <;> simp [ih]

@[simp] theorem State.drainTriggered_pool (s : State) (q : Nat) : (s.drainTriggered q).pool = s.pool := by
  refine foldl_keeps_pool (fun s e => ?_) _ s
  (repeat' split) <;> simp

@[simp] theorem State.drainQueue_pool (s : State) (q : Nat) : (s.drainQueue q).pool = s.pool := by
  simp [State.drainQueue]

@[simp] theorem State.receiveRecord_pool (s : State) (rq status bytes wrId matchBits srcDevice srcInst reason retry : Nat) :
    (s.receiveRecord rq status bytes wrId matchBits srcDevice srcInst reason retry).pool = s.pool := by
  simp only [State.receiveRecord]; split <;> simp

@[simp] theorem State.endRget_pool (s : State) (tag status bytes : Nat) : (s.endRget tag status bytes).pool = s.pool := by
  simp only [State.endRget]; (repeat' split) <;> simp

@[simp] theorem State.finishOp_pool (s : State) (tag status bytes : Nat) : (s.finishOp tag status bytes).pool = s.pool := by
  rw [State.finishOp]; (repeat' split) <;> simp

/-! ### Links and routing -/

@[simp] theorem State.upLport_pool (s : State) (p : Nat) (f : LnkPort → LnkPort) : (s.upLport p f).pool = s.pool := rfl

@[simp] theorem State.upLinkVl_pool (s : State) (p v : Nat) (f : LinkVl → LinkVl) : (s.upLinkVl p v f).pool = s.pool := rfl

@[simp] theorem State.freeFlits_pool (s : State) (p v n : Nat) : (s.freeFlits p v n).pool = s.pool := rfl

@[simp] theorem State.countUnreserved_pool (s : State) : s.countUnreserved.pool = s.pool := by
  simp [State.countUnreserved]

@[simp] theorem State.choosePath_pool (s : State) (tile : Nat) (h : Hdr) (own : Option Nat) :
    (s.choosePath tile h own).2.pool = s.pool := by
  simp only [State.choosePath]; (repeat' split) <;> simp

@[simp] theorem State.lookup_pool (s : State) (h : Hdr) (input rxVl : Nat) (atSource : Bool) (own : Option Nat) :
    (s.lookup h input rxVl atSource own).2.pool = s.pool := by
  simp only [State.lookup]; (repeat' split) <;> simp

@[simp] theorem State.newPid_pool (s : State) : s.newPid.2.pool = s.pool := rfl

@[simp] theorem State.putWaiting_pool (s : State) (w : WaitPkt) : (s.putWaiting w).pool = s.pool := rfl

@[simp] theorem State.rootDone_pool (s : State) (o : McOp) : (s.rootDone o).pool = s.pool := by
  rw [State.rootDone]; (repeat' split) <;> simp

@[simp] theorem State.sendMcAck_pool (s : State) (port t : Nat) (o : McOp) : (s.sendMcAck port t o).pool = s.pool := rfl

@[simp] theorem State.mcEnd_pool (s : State) (t : Nat) (tr : Tree) (o : McOp) : (s.mcEnd t tr o).pool = s.pool := by
  simp only [State.mcEnd]; split <;> simp

@[simp] theorem State.mcSettle_pool (s : State) (t : Nat) : (s.mcSettle t).pool = s.pool := by
  simp only [State.mcSettle]; split <;> simp [foldl_keeps_pool]

@[simp] theorem State.fenceBranch_pool (s : State) (t b : Nat) : (s.fenceBranch t b).pool = s.pool := by
  simp only [State.fenceBranch]; split <;> simp

@[simp] theorem State.fenceAll_pool (s : State) (b : Nat) : (s.fenceAll b).pool = s.pool := by
  simp [State.fenceAll, apply_ite State.pool, foldl_keeps_pool]

@[simp] theorem State.freeRx_pool (s : State) (w : WaitPkt) : (s.freeRx w).pool = s.pool := by
  simp only [State.freeRx]; split <;> simp

@[simp] theorem State.treeMissing_pool (s : State) (h : Hdr) (rxVl : Nat) (port : Option Nat) :
    (s.treeMissing h rxVl port).pool = s.pool := by
  simp only [State.treeMissing]; split <;> simp

@[simp] theorem State.greenTree_pool (s : State) (t : Tree) (h : Hdr) (atSource : Bool) (own : Option Nat) :
    (s.greenTree t h atSource own).pool = s.pool := by
  simp only [State.greenTree]; (repeat' split) <;> simp

@[simp] theorem State.noteFenceSkip_pool (s : State) : s.noteFenceSkip.pool = s.pool := rfl

@[simp] theorem State.routeTree_pool (s : State) (w : WaitPkt) (port : Option Nat) : (s.routeTree w port).pool = s.pool := by
  simp only [State.routeTree]; (repeat' split) <;> simp

@[simp] theorem State.noCandidate_pool (s : State) : s.noCandidate.pool = s.pool := rfl

@[simp] theorem State.inject_pool (s : State) (p : Packet) (len input : Nat) (sequenced : Bool) (own : Option Nat) :
    (s.inject p len input sequenced own).pool = s.pool := by
  rw [State.inject]
  split
  next h t hpath =>
    have ht := pool_of_pair hpath (s.choosePath_pool ..)
    dsimp only
    split
    · simp [ht]
    · split
      next hroute => simp [pool_of_pair hroute (State.lookup_pool ..), ht]
      next hroute => simp [pool_of_pair hroute (State.lookup_pool ..), ht]

@[simp] theorem State.control_pool (s : State) (opcode dest inst sl : Nat) (response : Bool) (fields : List Nat) :
    (s.control opcode dest inst sl response fields).pool = s.pool := by
  simp [State.control]

/-! ### The policer -/

@[simp] theorem State.meterTx_pool (s : State) (i bytes : Nat) (f : MeterRec → MeterRec) : (s.meterTx i bytes f).pool = s.pool := rfl

@[simp] theorem State.meterRefused_pool (s : State) (i : Nat) : (s.meterRefused i).pool = s.pool := rfl

@[simp] theorem State.policeMeter_pool (s : State) (h : Hdr) (len : Nat) (first : Bool) : (s.policeMeter h len first).2.pool = s.pool := by
  rw [State.policeMeter]; (repeat' split) <;> simp

@[simp] theorem State.police_pool (s : State) (h : Hdr) (len : Nat) (first pre : Bool) : (s.police h len first pre).2.pool = s.pool := by
  simp only [State.police]; (repeat' split) <;> simp

@[simp] theorem State.endWait_pool (s : State) (i : Nat) (from_ : Option Nat) : (s.endWait i from_).pool = s.pool := by
  simp only [State.endWait]; split <;> simp

/-! ### Transport -/

@[simp] theorem State.upSend_pool (s : State) (k : CtxKey) (f : SendCtx → SendCtx) : (s.upSend k f).pool = s.pool := rfl

@[simp] theorem State.trnControl_pool (s : State) (opcode peer inst cls sl : Nat) (response : Bool) (fields : List Nat) :
    (s.trnControl opcode peer inst cls sl response fields).pool = s.pool := by
  simp [State.trnControl]

@[simp] theorem State.openSend_pool (s : State) (k : CtxKey) (sl : Nat) : (s.openSend k sl).pool = s.pool := by
  simp only [State.openSend]; split <;> simp

@[simp] theorem State.sendNow_pool (s : State) (k : CtxKey) (p : SentPkt) (ticket : Bool) : (s.sendNow k p ticket).pool = s.pool := by
  simp only [State.sendNow]; (repeat' split) <;> simp

@[simp] theorem State.policeQueued_pool (s : State) (p : SentPkt) : (s.policeQueued p).2.pool = s.pool := by
  rw [State.policeQueued]
  split
  · rfl
  · dsimp only
    split
    next hp => simp [pool_of_pair hp (s.police_pool ..)]
    next hp => simp [pool_of_pair hp (s.police_pool ..)]

@[simp] theorem State.endUnrouted_pool (s : State) (tag : Nat) : (s.endUnrouted tag).pool = s.pool := by
  simp [State.endUnrouted]

@[simp] theorem State.pump_pool (s : State) (k : CtxKey) (n : Nat) : (s.pump k n).pool = s.pool := by
  induction n generalizing s with
  | zero => rfl
  | succ n ih =>
    rw [State.pump]
    (repeat' split) <;> try simp [ih]
    all_goals next hp => exact pool_of_pair hp (s.policeQueued_pool _)

@[simp] theorem State.pumpAll_pool (s : State) (k : CtxKey) : (s.pumpAll k).pool = s.pool := by
  simp [State.pumpAll]

@[simp] theorem State.handOver_pool (s : State) (p : SentPkt) : (s.handOver p).pool = s.pool := by
  simp only [State.handOver]; split <;> simp

@[simp] theorem State.respond_pool (s : State) (opcode dest inst opTag instGen status offset sl : Nat) (data : List Nat)
    (extra : Nat) (own : Option Nat) (input : Nat) (src : Option Source) :
    (s.respond opcode dest inst opTag instGen status offset sl data extra own input src).pool = s.pool := by
  simp [State.respond]

@[simp] theorem State.transitNak_pool (s : State) (h : Hdr) (reason : Nat) : (s.transitNak h reason).pool = s.pool := by
  simp [State.transitNak]

/-! ### Frames, links that go down, and training -/

@[simp] theorem State.frameSent_pool (s : State) (p pid : Nat) (aborted : Bool) : (s.frameSent p pid aborted).pool = s.pool := rfl

@[simp] theorem State.dropCopies_pool (s : State) (pid : Nat) : (s.dropCopies pid).pool = s.pool := by
  simp [State.dropCopies, apply_ite State.pool, foldl_keeps_pool]

@[simp] theorem State.dropOpen_pool (s : State) (p v : Nat) : (s.dropOpen p v).pool = s.pool := by
  rw [State.dropOpen]; (repeat' split) <;> simp

@[simp] theorem State.dropAllOpen_pool (s : State) (p : Nat) : (s.dropAllOpen p).pool = s.pool := by
  simp [State.dropAllOpen, foldl_keeps_pool]

@[simp] theorem State.unsync_pool (s : State) : s.unsync.pool = s.pool := by
  simp only [State.unsync]; split <;> simp

@[simp] theorem State.parentDown_pool (s : State) (p : Nat) : (s.parentDown p).pool = s.pool := by
  simp only [State.parentDown]; split <;> simp

@[simp] theorem State.linkLost_pool (s : State) (p : Nat) : (s.linkLost p).pool = s.pool := by
  simp [State.linkLost, foldl_keeps_pool]

@[simp] theorem State.portDown_pool (s : State) (p : Nat) : (s.portDown p).pool = s.pool := rfl

@[simp] theorem State.upEgress_pool (s : State) (o : Nat) (f : Egress → Egress) : (s.upEgress o f).pool = s.pool := rfl

@[simp] theorem State.refillEgress_pool (s : State) (o : Nat) : (s.refillEgress o).pool = s.pool := rfl

@[simp] theorem State.abortFrame_pool (s : State) (o : Nat) (b : BufPkt) : (s.abortFrame o b).pool = s.pool := by
  simp [State.abortFrame, apply_ite State.pool]

@[simp] theorem State.abortFrom_pool (s : State) (input : Nat) : (s.abortFrom input).pool = s.pool := by
  simp [State.abortFrom, foldl_keeps_pool]

@[simp] theorem State.sendSequences_pool (s : State) (p : Nat) : (s.sendSequences p).pool = s.pool := by
  rw [State.sendSequences]; (repeat' split) <;> simp

@[simp] theorem State.setTrain_pool (s : State) (p : Nat) (t : TrainState) : (s.setTrain p t).pool = s.pool := by
  simp [State.setTrain]

/-! ### Modes of operation -/

@[simp] theorem State.modeReply_pool (s : State) : s.modeReply.pool = s.pool := by
  simp [State.modeReply]

@[simp] theorem State.enterStorm_pool (s : State) : s.enterStorm.pool = s.pool := by
  simp [State.enterStorm]

@[simp] theorem State.modeDone_pool (s : State) : s.modeDone.pool = s.pool := by
  rw [State.modeDone]; (repeat' split) <;> simp

@[simp] theorem State.modeStepDone_pool (s : State) (p : Nat) : (s.modeStepDone p).pool = s.pool := by
  rw [State.modeStepDone]; (repeat' split) <;> simp

/-! ### Extents and the directory -/

@[simp] theorem State.upExtent_refused (s : State) (h : Nat) (f : Extent → Extent) : (s.upExtent h f).pool.refused = s.pool.refused := by
  simp [State.upExtent]

@[simp] theorem State.writeExtent_refused (s : State) (h o : Nat) (data : List Nat) :
    (s.writeExtent h o data).pool.refused = s.pool.refused := by
  simp [State.writeExtent, apply_ite State.pool, apply_ite Pool.refused]

@[simp] theorem State.setEntry_pool (s : State) (h line : Nat) (e : DirEntry) : (s.setEntry h line e).pool = s.pool := rfl

@[simp] theorem State.touchEntry_pool (s : State) (h line : Nat) : (s.touchEntry h line).pool = s.pool := rfl

@[simp] theorem State.upTracker_pool (s : State) (h line : Nat) (f : Tracker → Tracker) : (s.upTracker h line f).pool = s.pool := by
  simp [State.upTracker]

@[simp] theorem State.grantTo_pool (s : State) (h line : Nat) (r : CohReq) (poison : Bool) (data : List Nat) :
    (s.grantTo h line r poison data).pool = s.pool := by
  rw [State.grantTo]; (repeat' split) <;> simp

@[simp] theorem State.wbLost_pool (s : State) : s.wbLost.pool = s.pool := by
  simp [State.wbLost]

@[simp] theorem State.trackStart_pool (s : State) (t : Tracker) : (s.trackStart t).pool = s.pool := by
  rw [State.trackStart]
  dsimp only
  (repeat' split) <;> simp [foldl_emit_pool]

@[simp] theorem State.trackAct_refused (s : State) (t : Tracker) : (s.trackAct t).2.pool.refused = s.pool.refused := by
  simp only [State.trackAct]; (repeat' split) <;> simp

@[simp] theorem State.placeRecall_pool (s : State) (id : Nat) : (s.placeRecall id).pool = s.pool := by
  simp only [State.placeRecall]; (repeat' split) <;> simp

@[simp] theorem State.trackRun_refused (s : State) (h line : Nat) (n : Nat) : (s.trackRun h line n).pool.refused = s.pool.refused := by
  induction n generalizing s with
  | zero => rfl
  | succ n ih =>
    rw [State.trackRun]
    split
    · rfl
    · split
      · simp [ih]
      · split
        · rfl
        · split
          next hact => exact refused_of_pair hact (s.trackAct_refused _)
          next hact =>
            have ht := refused_of_pair hact (s.trackAct_refused _)
            split <;> simp [ih, ht]

@[simp] theorem State.runLine_refused (s : State) (h line : Nat) : (s.runLine h line).pool.refused = s.pool.refused := by
  simp [State.runLine]

@[simp] theorem State.startRecall_refused (s : State) (handles agents : List Nat) (poison : Bool) :
    (s.startRecall handles agents poison).2.pool.refused = s.pool.refused := by
  simp [State.startRecall, foldl_keeps_refused, foldl_keeps_pool]

@[simp] theorem State.upDown_refused (s : State) (p : Nat) (f : Downstream → Downstream) :
    (s.upDown p f).pool.refused = s.pool.refused := rfl

@[simp] theorem State.upVslot_refused (s : State) (link vslot : Nat) (f : VSlot → VSlot) :
    (s.upVslot link vslot f).pool.refused = s.pool.refused := rfl

@[simp] theorem State.announce_pool (s : State) (h : Nat) (at_ : Nat × Nat) : (s.announce h at_).pool = s.pool := by
  simp only [State.announce]; split <;> simp

@[simp] theorem State.bindOne_refused (s : State) (h : Nat) : (s.bindOne h).pool.refused = s.pool.refused := by
  simp only [State.bindOne]; split <;> simp

@[simp] theorem State.commitBind_refused (s : State) (handles : List Nat) : (s.commitBind handles).pool.refused = s.pool.refused := by
  simp [State.commitBind, foldl_keeps_refused]

@[simp] theorem State.settleBind_refused (s : State) (h : Nat) : (s.settleBind h).pool.refused = s.pool.refused := by
  rw [State.settleBind]; (repeat' split) <;> simp [foldl_keeps_refused]

@[simp] theorem State.settleUnbind_refused (s : State) (h : Nat) : (s.settleUnbind h).pool.refused = s.pool.refused := by
  rw [State.settleUnbind]; (repeat' split) <;> simp [foldl_keeps_refused]

@[simp] theorem State.unbindEnds_refused (s : State) (h : Nat) (clean : Bool) : (s.unbindEnds h clean).pool.refused = s.pool.refused := by
  simp [State.unbindEnds]

@[simp] theorem State.functionGone_refused (s : State) (f : BoundFn) (status : Nat) (surprise : Bool) :
    (s.functionGone f status surprise).pool.refused = s.pool.refused := by
  simp [State.functionGone]

@[simp] theorem State.poisonExtent_refused (s : State) (h : Nat) : (s.poisonExtent h).pool.refused = s.pool.refused := by
  rw [State.poisonExtent]
  dsimp only
  rw [foldl_keeps_refused (fun s i => by simp), foldl_keeps_refused (fun s g => by (repeat' split) <;> simp)]
  simp only [apply_ite State.pool, apply_ite Pool.refused, State.settleBind_refused, ite_self]
  (repeat' split) <;> simp

@[simp] theorem State.surpriseRemoval_refused (s : State) (p : Nat) : (s.surpriseRemoval p).pool.refused = s.pool.refused := by
  rw [State.surpriseRemoval]
  simp only [State.raise_frame, State.emit_pool, State.upDown_refused]
  rw [foldl_keeps_refused, foldl_keeps_refused State.poisonExtent_refused]
  intro s f
  (repeat' split) <;> simp

@[simp] theorem State.presencePower_refused (s : State) (slot : Nat) : (s.presencePower slot).pool.refused = s.pool.refused := by
  simp [State.presencePower, apply_ite State.pool, apply_ite Pool.refused]

@[simp] theorem State.settleHeld_refused (s : State) : s.settleHeld.pool.refused = s.pool.refused := by
  simp [State.settleHeld, foldl_keeps_refused]

/-! ### Regions, and the groups of collectives -/

@[simp] theorem State.protect_pool (s : State) (a : MpuAccess) : (s.protect a).2.pool = s.pool := by
  simp only [State.protect]; split <;> simp

@[simp] theorem State.writeRegion_refused (s : State) (g : RegionP) (offset : Nat) (data : List Nat) :
    (s.writeRegion g offset data).pool.refused = s.pool.refused := by
  simp only [State.writeRegion]; split <;> simp

@[simp] theorem State.landed_pool (s : State) (g : RegionP) : (s.landed g).pool = s.pool := by
  simp only [State.landed]; split <;> simp

@[simp] theorem State.engError_pool (s : State) (r : Req) (cluster status : Nat) : (s.engError r cluster status).pool = s.pool := by
  simp [State.engError]

@[simp] theorem State.upGroup_pool (s : State) (g : Nat) (f : Group → Group) : (s.upGroup g f).pool = s.pool := rfl

@[simp] theorem State.sendRdx_pool (s : State) (up : Bool) (gid : Nat) (g : Group) (device inst members : Nat) (fenced : Bool)
    (offset status : Nat) (elems : List Elem) : (s.sendRdx up gid g device inst members fenced offset status elems).pool = s.pool := by
  simp [State.sendRdx]

@[simp] theorem State.sendUp_pool (s : State) (gid : Nat) (g : Group) (fenced : Bool) (offset : Nat) (elems : List Elem) :
    (s.sendUp gid g fenced offset elems).pool = s.pool := by
  simp [State.sendUp]

@[simp] theorem State.sendDown_pool (s : State) (gid : Nat) (g : Group) (c : ChildSlot) (combined : Nat) (fenced : Bool)
    (status : Nat) (values : List Nat) : (s.sendDown gid g c combined fenced status values).pool = s.pool := by
  simp only [State.sendDown]; split <;> simp [foldl_keeps_pool]

@[simp] theorem State.memberGuard_pool (s : State) (inst region offset length right kind : Nat) :
    (s.memberGuard inst region offset length right kind).2.pool = s.pool := by
  rw [State.memberGuard]
  (repeat' split) <;> try simp
  all_goals next hp => exact pool_of_pair hp (s.protect_pool _)

@[simp] theorem State.writeResult_refused (s : State) (gid m round status combined : Nat) (data : List Nat) :
    (s.writeResult gid m round status combined data).pool.refused = s.pool.refused := by
  rw [State.writeResult]
  split
  · rfl
  · split
    · rfl
    · dsimp only
      split
      next hguard => simp [pool_of_pair hguard (State.memberGuard_pool ..)]
      next hguard => split <;> simp [pool_of_pair hguard (State.memberGuard_pool ..)]

@[simp] theorem State.writeMembers_refused (s : State) (gid : Nat) (g : Group) (status combined : Nat) (values : List Nat) :
    (s.writeMembers gid g status combined values).pool.refused = s.pool.refused := by
  simp [State.writeMembers, foldl_keeps_refused]

@[simp] theorem State.enterFenced_pool (s : State) (gid : Nat) : (s.enterFenced gid).pool = s.pool := rfl

@[simp] theorem State.endFenced_refused (s : State) (gid combined : Nat) : (s.endFenced gid combined).pool.refused = s.pool.refused := by
  simp only [State.endFenced]; split <;> simp [foldl_keeps_refused]

@[simp] theorem State.fenceCollecting_refused (s : State) (gid : Nat) : (s.fenceCollecting gid).pool.refused = s.pool.refused := by
  rw [State.fenceCollecting]; (repeat' split) <;> simp

@[simp] theorem State.fenceEffect_refused (s : State) (gid : Nat) : (s.fenceEffect gid).pool.refused = s.pool.refused := by
  rw [State.fenceEffect]; (repeat' split) <;> simp

@[simp] theorem State.fenceSlot_refused (s : State) (gid k : Nat) : (s.fenceSlot gid k).pool.refused = s.pool.refused := by
  rw [State.fenceSlot]; (repeat' split) <;> simp

@[simp] theorem State.fenceMembers_refused (s : State) (i : Nat) : (s.fenceMembers i).pool.refused = s.pool.refused := by
  simp [State.fenceMembers, apply_ite State.pool, apply_ite Pool.refused, foldl_keeps_refused]

/-! ### Instances contained, and engines retired -/

@[simp] theorem State.dropMessages_pool (s : State) (k : CtxKey) : (s.dropMessages k).pool = s.pool := by
  rw [State.dropMessages]
  dsimp only
  rw [foldl_keeps_pool (fun s m => by (repeat' split) <;> simp), foldl_keeps_pool (fun s m => by simp)]
  rfl

@[simp] theorem State.freeRecv_pool (s : State) (k : CtxKey) : (s.freeRecv k).pool = s.pool := by
  simp only [State.freeRecv]; split <;> simp

@[simp] theorem State.squashWork_pool (s : State) (i : Nat) : (s.squashWork i).pool = s.pool := by
  simp [State.squashWork, foldl_keeps_pool]

@[simp] theorem State.releaseWork_refused (s : State) (i : Nat) : (s.releaseWork i).pool.refused = s.pool.refused := by
  simp [State.releaseWork, foldl_keeps_pool]

@[simp] theorem State.containInst_refused (s : State) (i : Nat) : (s.containInst i).pool.refused = s.pool.refused := by
  simp [State.containInst, apply_ite State.pool, apply_ite Pool.refused]

@[simp] theorem State.moveQueue_pool (s : State) (q engine : Nat) : (s.moveQueue q engine).pool = s.pool := rfl

@[simp] theorem State.retireEngine_pool (s : State) (engine : Nat) : (s.retireEngine engine).pool = s.pool := by
  refine foldl_keeps_pool (fun s q => ?_) _ s
  (repeat' split) <;> simp

@[simp] theorem State.degradeWithout_pool (s : State) (kind unit : Nat) : (s.degradeWithout kind unit).pool = s.pool := by
  simp only [State.degradeWithout]; split <;> simp

@[simp] theorem State.wantSwap_pool (s : State) (kind unit : Nat) : (s.wantSwap kind unit).pool = s.pool := by
  simp [State.wantSwap, apply_ite State.pool]

@[simp] theorem State.degrade_pool (s : State) (src : Nat) (subj : Subject) : (s.degrade src subj).pool = s.pool := by
  simp only [State.degrade]; split <;> simp

/-! ### Ports contained, the halt, and the end of a step -/

@[simp] theorem State.abandonAll_pool (s : State) (status : Nat) (lost : Bool) : (s.abandonAll status lost).pool = s.pool := by
  simp [State.abandonAll, apply_ite State.pool, foldl_keeps_pool]

@[simp] theorem State.freeQueued_pool (s : State) (b : BufPkt) : (s.freeQueued b).pool = s.pool := by
  simp [State.freeQueued, apply_ite State.pool]

@[simp] theorem State.linkOff_pool (s : State) (p : Nat) : (s.linkOff p).pool = s.pool := by
  simp [State.linkOff]

@[simp] theorem State.portOff_pool (s : State) (p : Nat) : (s.portOff p).pool = s.pool := by
  simp [State.portOff]

@[simp] theorem State.containNative_pool (s : State) (p : Nat) : (s.containNative p).pool = s.pool := by
  simp only [State.containNative]; split <;> simp [foldl_keeps_pool]

@[simp] theorem State.disableLink_pool (s : State) (p : Nat) : (s.disableLink p).pool = s.pool := by
  simp only [State.disableLink]; split <;> simp [foldl_keeps_pool]

@[simp] theorem State.containPort_refused (s : State) (p : Nat) : (s.containPort p).pool.refused = s.pool.refused := by
  simp [State.containPort, apply_ite State.pool, apply_ite Pool.refused, foldl_keeps_refused, foldl_keeps_pool]

@[simp] theorem State.halt_pool (s : State) : s.halt.pool = s.pool := by
  simp [State.halt, apply_ite State.pool, foldl_keeps_pool]

@[simp] theorem State.act_refused (s : State) (src sev : Nat) (subj : Subject) : (s.act src sev subj).pool.refused = s.pool.refused := by
  simp only [State.act]; (repeat' split) <;> simp

@[simp] theorem State.runActions_refused (s : State) (n : Nat) : (s.runActions n).pool.refused = s.pool.refused := by
  induction n generalizing s with
  | zero => rfl
  | succ n ih => rw [State.runActions]; (repeat' split) <;> simp [ih]

@[simp] theorem State.actAll_refused (s : State) : s.actAll.pool.refused = s.pool.refused := by
  simp [State.actAll]

@[simp] theorem State.sendAbandons_pool (s : State) : s.sendAbandons.pool = s.pool := by
  simp [State.sendAbandons, foldl_keeps_pool]

@[simp] theorem State.settleDestroys_pool (s : State) : s.settleDestroys.pool = s.pool := by
  simp [State.settleDestroys, foldl_keeps_pool]

@[simp] theorem State.settleLeave_pool (s : State) : s.settleLeave.pool = s.pool := by
  simp [State.settleLeave, apply_ite State.pool, foldl_keeps_pool]

/-- The end of a step leaves the counts of refused host accesses, unless it ends in bare poles, where the hub loses power (R510). -/
theorem State.settle_refused_or_barePoles (s : State) :
    s.settle.pool.refused = s.pool.refused ∨ s.settle.pwr.mode = .barePoles := by
  rw [State.settle, State.settleBare]
  split
  · exact .inr rfl
  · exact .inl (by simp)

/-! ### The statements -/

/-- Two effects of one outcome end in the same state. -/
theorem Gives.settle_eq {o : Host.Outcome State Fault Refusal} {u v : State} (hu : Gives o u) (hv : Gives o v) : u.settle = v.settle :=
  Host.Outcome.next.inj (hu.symm.trans hv)

/-- A CXL.mem request carries no function, and is known by the host link that it comes over (R276): where `inst` is the memory
function of no link, there is no such request, and the state is left as it is. -/
theorem exec_hostMemoryAccess_noLink_gives {s : State} {inst : Nat} (h : s.memLink inst = none) (address length : Nat) (write : Bool)
    (data : List Nat) : Gives (exec (.hostMemoryAccess inst address length write true data) s) s := by
  change ends _ = _
  simp [h, ends]

/-- Refutes O22: its clauses for HOST_MEMORY_ACCESS ask `reachable` of a PCIe access, and of a CXL access nothing: not that `inst` is the
memory function of some CXL host link (R276). After a reset it is that of none, so that a CXL.mem read of `inst = 1` changes nothing, where
the third clause claims that it is counted as refused. -/
theorem not_hostMemoryTakesEffect : ¬ Obligations.HostMemoryTakesEffect := by
  rintro ⟨-, -, hrefuse, -⟩
  obtain ⟨u, hu, hcount, -⟩ := hrefuse .reset 1 0 0 false true [] (by decide) (by decide) (.inl rfl) (.inl rfl)
  have hreset : u.settle = .reset :=
    (hu.settle_eq (exec_hostMemoryAccess_noLink_gives rfl 0 0 false [])).trans (settle_calm _ (by decide))
  rcases u.settle_refused_or_barePoles with hrefused | hbare
  · rw [hreset] at hrefused
    rw [← hrefused] at hcount
    exact absurd hcount (by decide)
  · rw [hreset] at hbare
    exact absurd hbare (by decide)

/-- Settles O44: each part is the step's own case of the queue. -/
theorem stepTakesTheFront : Obligations.StepTakesTheFront := by
  refine ⟨?front, ?queue, ?empty⟩
  case front => exact fun s i => rfl
  case queue =>
    intro s i rest h
    simp only [step, h]
  case empty =>
    intro s h
    simp only [step, h]

end Sys2Proof.Machine
end

section
/-! SUPPORT. The values right after reset, and the commands that need management privilege: the statements O49 and O47. -/
namespace Sys2Proof.Machine

/-! ### The state after reset -/

/-- The reserves of the 236 accounts right after reset (R107). -/
theorem reset_sumReserve : State.reset.obf.sumReserve = 236 * 64 := by
  have hreserve (a : Nat) : (State.reset.obf.accounts.get a {}).minReserve = 64 := rfl
  simp only [Obf.sumReserve, sumOf, hreserve, List.foldl_add_const, List.length_range, Nat.zero_add, Nat.mul_comm]

/-- Settles O49: each value is the one that the blocks' own initial values give; the shared pool is what the reserves and the contract
pool leave of the buffer (R106). -/
theorem resetStateIsAsSpecified : Obligations.ResetStateIsAsSpecified := by
  have hshared : State.reset.sharedSize = 771328 := by rw [State.sharedSize, reset_sumReserve]; rfl
  exact ⟨rfl, rfl, rfl, rfl, rfl, rfl, rfl, rfl, rfl, rfl, rfl, hshared, fun _ _ => rfl, rfl, rfl, rfl, rfl, rfl, rfl, rfl, rfl, rfl, rfl,
    rfl, rfl, rfl⟩

/-! ### Commands that need management privilege -/

/-- A command that the common checks refuse (R454). -/
theorem runHly_refused {i : Instr} {code inLen outLen st : Nat} {h : HlyHdr} {names : List Obj} {body : State → HRes} {s : State}
    (ha : s.acceptable h = true) (hst : s.commonStatus code h inLen outLen names = some st) :
    runHly i code h inLen outLen names body s = (s.fetchCmd h).complete h.src h.seq code h.interrupt false st 0 [] := by
  simp [runHly, ha, hst]

/-- A source without management privilege is refused what the board channel may not issue either, where no earlier check of R454
refuses it. -/
theorem commonStatus_noManagement {s : State} {h : HlyHdr} {code inLen outLen : Nat} (names : List Obj) (hreserved : h.reserved = 0)
    (hremote : h.remote = false) (hdirected : h.directed = false) (hdata : dataBad h inLen outLen = false) (hhalt : s.flt.halted = false)
    (hrom : s.romOnly = false) (hmgmt : s.management h.src = false) (hcode : boardCode code = false) :
    s.commonStatus code h inLen outLen names = some 0x0401 := by
  simp [State.commonStatus, hreserved, hremote, hdirected, hdata, hhalt, hrom, hmgmt, hcode]

/-- Settles O47: the seven commands that carry the listed codes have no input and no output, and meet `commonStatus_noManagement`. -/
theorem contractsNeedManagement : Obligations.ContractsNeedManagement := by
  intro s i h hh hcode hacc hreserved hremote hdirected hdata hhalt hrom hmgmt
  have hrefused {code : Nat} (j : Instr) (names : List Obj) (body : State → HRes) (hb : boardCode code = false) :
      runHly j code h 0 0 names body s = (s.fetchCmd h).complete h.src h.seq code h.interrupt false 0x0401 0 [] :=
    runHly_refused hacc (commonStatus_noManagement names hreserved hremote hdirected hdata hhalt hrom hmgmt hb)
  have hlisted : [0x0501, 0x0502, 0x0503, 0x0505, 0x0506, 0x0507, 0x0508].contains i.code = true := List.contains_iff_mem.mpr hcode
  cases i with
  | contractInstall | contractModify | contractRemove | hopReserve | hopRelease | meterSet | portReserveSet =>
    cases hh
    exact congrArg ends (hrefused _ _ _ rfl)
  | _ => exact absurd hlisted Bool.false_ne_true

end Sys2Proof.Machine
end

section
/-! SUPPORT. The commands of admission: how a command runs whose chapter looks at no Halyard state, what a port judged again keeps, what each
body answers, and the statement about all of them. -/
namespace Sys2Proof.Machine

/-! ### Running a command whose chapter looks at no Halyard state -/

/-- Taking a command's descriptor changes the record of commands alone (R447). -/
theorem State.fetchCmd_eq_upHly (s : State) (h : HlyHdr) : ∃ f, s.fetchCmd h = s.upHly f := by
  refine ⟨fun _ => (s.fetchCmd h).hly, ?_⟩
  rw [State.fetchCmd]
  cases h.src <;> rfl

/-- A data buffer that fits holds the command's output (R442). -/
theorem outLen_le_of_dataBad {h : HlyHdr} {inLen outLen : Nat} (hd : dataBad h inLen outLen = false) : outLen ≤ h.dataLength := by
  simp only [dataBad, Bool.or_eq_false_iff, decide_eq_false_iff_not] at hd
  omega

/-- So the data buffer of a command that runs holds its output (R454). -/
theorem runs_outLen_le {s : State} {h : HlyHdr} {code inLen outLen : Nat} {names : List Obj}
    (hr : s.runs h code inLen outLen names = true) : outLen ≤ h.dataLength := by
  obtain ⟨-, hnone, -⟩ := (runs_iff ..).mp hr
  refine outLen_le_of_dataBad (inLen := inLen) (Bool.eq_false_iff.mpr fun hbad => ?_)
  simp only [State.commonStatus, hbad, if_true] at hnone
  split_ifs at hnone

theorem outside_eq_false {lo hi v : Nat} (hlo : lo ≤ v) (hhi : v ≤ hi) : outside lo hi v = false := by
  simp [outside, hlo, hhi]

/-! ### Ports that leave the overcommitted state (R56) -/

/-- A port that leaves the overcommitted state keeps its fraction. -/
@[simp] theorem State.leaveOvercommit_fraction (s : State) (p q : Nat) :
    ((s.leaveOvercommit p).admPort q).fraction = (s.admPort q).fraction := by
  have hput : ((s.adm.ports.upd p {} fun x => { x with overcommit := false }).get q {}).fraction = (s.adm.ports.get q {}).fraction := by
    rw [Tbl.get_upd]; split <;> simp_all
  rw [State.leaveOvercommit]
  split <;> simp [State.admPort, hput]

@[simp] theorem State.leaveOvercommit_frame (s : State) (p : Nat) :
    let t := s.leaveOvercommit p
    t.adm.contracts = s.adm.contracts ∧ t.adm.resvs = s.adm.resvs ∧ t.obf = s.obf := by
  rw [State.leaveOvercommit]
  split <;> simp

@[simp] theorem State.settleReleased_fraction (s : State) (p q : Nat) :
    ((s.settleReleased p).admPort q).fraction = (s.admPort q).fraction := by
  rw [State.settleReleased]; split <;> simp

@[simp] theorem State.settleReleased_frame (s : State) (p : Nat) :
    let t := s.settleReleased p
    t.adm.contracts = s.adm.contracts ∧ t.adm.resvs = s.adm.resvs ∧ t.obf = s.obf := by
  rw [State.settleReleased]; split <;> simp

@[simp] theorem State.settlePorts_frame (s : State) (bitmap : Nat) :
    let t := s.settlePorts bitmap
    t.adm.contracts = s.adm.contracts ∧ t.adm.resvs = s.adm.resvs ∧ t.obf = s.obf :=
  ⟨foldl_keeps (fun t => t.adm.contracts) (by simp) _ s, foldl_keeps (fun t => t.adm.resvs) (by simp) _ s,
    foldl_keeps State.obf (by simp) _ s⟩

@[simp] theorem State.strand_frame (s : State) (c : Charge) :
    let t := s.strand c
    t.adm = s.adm ∧ t.hly = s.hly := by
  simp [State.strand]

/-! ### Domains -/

@[simp] theorem State.wantDomain_adm (s : State) (d : Nat) : (s.wantDomain d).adm = s.adm := by
  rw [State.wantDomain]; split <;> simp [State.upDomain]

@[simp] theorem State.wantAll_adm (s : State) : s.wantAll.adm = s.adm := foldl_keeps State.adm (by simp) _ s

/-! ### What the bodies answer -/

/-- The reservation of HOP_RESERVE entered in its table (R49). -/
def State.reserved (s : State) (r : ResvP) : State := s.upAdm fun a => { a with resvs := a.resvs.put r.resvId {
  p := r, hopBudget := s.resvBudget r, share := portShare r.burst * (if r.destination then 1 else (portsOf r.egressPorts).length)
  control := s.controlPorts r.maxPacket r.egressPorts } }

theorem contractInstallBody_ok {s : State} {c : ContractP} (hsl : c.sl ≤ 6) (hrates : s.contractRates c = true)
    (hmin : 64 ≤ c.maxPacket) (hmax : c.maxPacket ≤ 4160)
    (hmeet : (s.adm.contracts.any fun e => e.2.p.inst == c.inst && e.2.p.sl == c.sl && destMeet e.2.p c) = false)
    (hlow : 1000 ≤ c.bound) (hhigh : c.bound ≤ 10000000) (hburst : c.maxPacket ≤ c.burst) (hmaxBurst : c.burst ≤ 16777216)
    (htrip : s.tripFits c.egressPorts = true) (hinst : s.enabled c.inst = true) (hid : c.contractId ≤ 16383)
    (hfree : s.adm.contracts.has c.contractId = false) (hrate : s.rateFits c.egressPorts c.committed 0 = true)
    (hpool : s.poolFits (portShare c.burst * (portsOf c.egressPorts).length) 0 = true)
    (hbudget : s.contractBudget c + c.remoteBudget ≤ c.bound) :
    contractInstallBody c s = .ok (s.upAdm fun a => { a with contracts := a.contracts.put c.contractId {
      p := c, tc := tok c.burst, tp := tok (2 * c.maxPacket), refillAt := s.coreTime, hopBudget := s.contractBudget c
      share := portShare c.burst * (portsOf c.egressPorts).length, control := s.controlPorts c.maxPacket c.egressPorts } }) := by
  rw [contractInstallBody]
  exact refuseIf_none _ _ (by simp [*, outside_eq_false])

theorem contractModifyBody_ok {s : State} {id : Nat} {c : Contract} (aware : Bool) (lateThreshold : Nat)
    (hfind : s.adm.contracts.find id = some c) :
    contractModifyBody id 40 0 0 0 aware 0 lateThreshold 0 s =
      .ok ((s.upAdm fun a => { a with contracts := a.contracts.put id { c.refilled s.coreTime with
        p := { c.p with aware, lateThreshold }, share := portShare c.p.burst * (portsOf c.p.egressPorts).length
        tc := min (c.refilled s.coreTime).tc (tok c.p.burst) } }).settlePorts c.p.egressPorts) := by
  have hmask : cmBit 40 0 = false ∧ cmBit 40 1 = false ∧ cmBit 40 2 = false ∧ cmBit 40 3 = true ∧ cmBit 40 4 = false ∧
      cmBit 40 5 = true ∧ cmBit 40 6 = false := by decide
  obtain ⟨h0, h1, h2, h3, h4, h5, h6⟩ := hmask
  simp [contractModifyBody, hfind, pick, h0, h1, h2, h3, h4, h5, h6, refuseIf, Contract.refilled]

theorem hopReserveBody_eq {s : State} {r : ResvP} (hsl : r.sl ≤ 6) (hrates : s.resvRates r = true) (hmin : 64 ≤ r.maxPacket)
    (hmax : r.maxPacket ≤ 4160) (hburst : r.maxPacket ≤ r.burst) (hmaxBurst : r.burst ≤ 16777216)
    (htrip : s.tripFits r.egressPorts = true) (hid : r.resvId ≤ 32767) (hfree : s.adm.resvs.has r.resvId = false)
    (hrate : s.rateFits r.egressPorts r.committed 0 = true)
    (hpool : s.poolFits (portShare r.burst * (if r.destination then 1 else (portsOf r.egressPorts).length)) 0 = true) :
    hopReserveBody r s =
      if !r.destination || (List.range 16).all (fun d => (s.domain d).state = .on) then
        .done (s.reserved r) 0 (s.resvBudget r % 2 ^ 24) []
      else .pend (s.reserved r).wantAll (.domainsOn r.resvId (s.resvBudget r % 2 ^ 24)) [.resv r.resvId] := by
  rw [hopReserveBody]
  exact refuseIf_none _ _ (by simp only [hpool]; simp [*, outside_eq_false])

theorem meterSetBody_ok {s : State} {inst committed peak committedBurst peakBurst : Nat} (hpeak : peak = 0 ∨ committed ≤ peak)
    (hc : 64 ≤ committedBurst) (hc' : committedBurst ≤ 16777216) (hp : 64 ≤ peakBurst) (hp' : peakBurst ≤ 16777216)
    (hinst : s.enabled inst = true) :
    ∃ tc tp, meterSetBody inst committed peak committedBurst peakBurst s = .ok (s.upAdm fun a => { a with meters := a.meters.put inst {
      committed, peak, committedBurst, peakBurst, tc, tp, refillAt := s.coreTime } }) := by
  rw [meterSetBody]
  exact ⟨_, _, refuseIf_none _ _ (by simp [outside_eq_false, hc, hc', hp, hp', hinst]; omega)⟩

theorem portReserveSetBody_ok {s : State} {port fraction : Nat} (hport : port ≤ 31) (hfraction : fraction ≤ 56)
    (hrate : 64 * s.reservedOn port ≤ fraction * s.judgedMbps port) (hshare : fraction + 1 + (s.egress port).unresShare ≤ 64) :
    portReserveSetBody port fraction s =
      .ok ((s.upAdm fun a => { a with ports := a.ports.upd port {} fun x => { x with fraction } }).settleReleased port) := by
  rw [portReserveSetBody]
  exact refuseIf_none _ _ (by simp [*])

/-- Values at their numbers of bytes are as many bytes as these numbers say. -/
theorem bytesLE_length (n v : Nat) : (bytesLE n v).length = n := by
  induction n generalizing v with
  | zero => rfl
  | succ n ih => simp [bytesLE, ih]

theorem contractImage_length (c : Contract) : (contractImage c).length = 68 := by
  simp [contractImage, outBytes, bytesLE_length]

@[simp] theorem State.fetchCmd_contractBudget (s : State) (h : HlyHdr) (c : ContractP) :
    (s.fetchCmd h).contractBudget c = s.contractBudget c := by
  obtain ⟨f, hf⟩ := s.fetchCmd_eq_upHly h
  rw [hf]; rfl

@[simp] theorem State.fetchCmd_resvBudget (s : State) (h : HlyHdr) (r : ResvP) : (s.fetchCmd h).resvBudget r = s.resvBudget r := by
  obtain ⟨f, hf⟩ := s.fetchCmd_eq_upHly h
  rw [hf]; rfl

/-- Settles O13: each command by what its body answers, read on the state whose descriptor has been taken. -/
theorem admissionCommandsComplete : Obligations.AdmissionCommandsComplete := by
  refine ⟨?install, ?modify, ?remove, ?query, ?reserve, ?reserveWaits, ?release, ?releaseWaits, ?meter, ?portReserve⟩
  case install =>
    intro s h c hr hsl hrates hmin hmax hmeet hlow hhigh hburst hmaxBurst htrip hinst hid hfree hrate hpool hbudget
    obtain ⟨f, hf⟩ := s.fetchCmd_eq_upHly h
    have hb := contractInstallBody_ok (s := s.upHly f) hsl hrates hmin hmax hmeet hlow hhigh hburst hmaxBurst htrip hinst hid hfree
      hrate hpool hbudget
    rw [← hf] at hb
    exact ⟨_, answers_of hr hb (Nat.zero_le _), by simp, by simp, by simp⟩
  case modify =>
    intro s h id aware lateThreshold c hr hfind
    have hb := contractModifyBody_ok (s := s.fetchCmd h) aware lateThreshold (by simpa using hfind)
    exact ⟨_, answers_of hr hb (Nat.zero_le _), by simp [Contract.refilled], by simp⟩
  case remove =>
    intro s h id c hr hfind
    have hb : contractRemoveBody id (s.fetchCmd h) = .ok ((((s.fetchCmd h).strand (.contract id)).upAdm fun a =>
        { a with contracts := a.contracts.del id }).settlePorts c.p.egressPorts) := by simp [contractRemoveBody, hfind]
    exact ⟨_, answers_of hr hb (Nat.zero_le _), by simp, by simp⟩
  case query =>
    intro s h id c hr hfind
    exact ⟨answers_of hr (by simp [hfind]) (contractImage_length _ ▸ runs_outLen_le hr), contractImage_length _⟩
  case reserve =>
    intro s h r hr hsl hrates hmin hmax hburst hmaxBurst htrip hid hfree hrate hpool hdest
    obtain ⟨f, hf⟩ := s.fetchCmd_eq_upHly h
    have hb := hopReserveBody_eq (s := s.upHly f) hsl hrates hmin hmax hburst hmaxBurst htrip hid hfree hrate hpool
    simp only [hdest, Bool.not_false, Bool.true_or, if_true, ← hf, State.fetchCmd_resvBudget] at hb
    exact ⟨_, answers_of hr hb (Nat.zero_le _), by simp [State.reserved], by simp [State.reserved]⟩
  case reserveWaits =>
    intro s h r hr hsl hrates hmin hmax hburst hmaxBurst htrip hid hfree hrate hpool hdest hoff
    obtain ⟨f, hf⟩ := s.fetchCmd_eq_upHly h
    have hb := hopReserveBody_eq (s := s.upHly f) hsl hrates hmin hmax hburst hmaxBurst htrip hid hfree hrate
      (by rw [hdest, if_pos rfl, Nat.mul_one]; exact hpool)
    have hsome : ∃ d < 16, ((s.upHly f).domain d).state ≠ .on := hoff
    rw [if_neg (by simpa [hdest] using hsome), ← hf, State.fetchCmd_resvBudget] at hb
    exact ⟨_, starts_of hr hb, by simp [State.reserved]⟩
  case release =>
    intro s h id r hr hfind hused
    have hb : hopReleaseBody id (s.fetchCmd h) = .ok ((s.fetchCmd h).releaseResv id r) := by simp [hopReleaseBody, hfind, hused]
    exact ⟨_, answers_of hr hb (Nat.zero_le _), by simp [State.releaseResv], by simp [State.releaseResv]⟩
  case releaseWaits =>
    intro s h id r hr hfind hused
    have hb : hopReleaseBody id (s.fetchCmd h) = .pend ((s.fetchCmd h).upAdm fun a =>
        { a with resvs := a.resvs.put id { r with releasing := true } }) (.hopRelease id) [.resv id] := by
      simp [hopReleaseBody, hfind, hused]
    exact ⟨_, starts_of hr hb, by simp⟩
  case meter =>
    intro s h inst committed peak committedBurst peakBurst hr hpeak hc hc' hp hp' hinst
    obtain ⟨f, hf⟩ := s.fetchCmd_eq_upHly h
    obtain ⟨tc, tp, hb⟩ := meterSetBody_ok (s := s.upHly f) hpeak hc hc' hp hp' hinst
    rw [← hf] at hb
    exact ⟨_, answers_of hr hb (Nat.zero_le _), by simp⟩
  case portReserve =>
    intro s h port fraction hr hport hfraction hrate hshare
    obtain ⟨f, hf⟩ := s.fetchCmd_eq_upHly h
    have hb := portReserveSetBody_ok (s := s.upHly f) hport hfraction hrate hshare
    rw [← hf] at hb
    refine ⟨_, answers_of hr hb (Nat.zero_le _), ?_, by simp⟩
    rw [State.settleReleased_fraction]
    simp [State.admPort]

end Sys2Proof.Machine
end

section
/-! SUPPORT. The events of routing, of released reservations and of fabric time: what a management packet put to its ingress keeps, what each
change of the fabric-time unit keeps, and the statements about them. -/
namespace Sys2Proof.Machine

/-! ### An event's effect, and the management lane -/

/-- The end of a step adds to an event's effect what `settle` says, and nothing more. -/
theorem gives_ends {u v : State} (h : u = v) : Gives (ends u) v := congrArg ends h

@[simp] theorem State.putWaiting_frame (s : State) (w : WaitPkt) :
    let t := s.putWaiting w
    t.out = s.out ∧ t.ftu = s.ftu ∧ t.rte = s.rte ∧ t.lnk = s.lnk ∧ t.prt = s.prt := by
  simp [State.putWaiting]

@[simp] theorem State.sendMgmt_frame (s : State) (opcode : Nat) (response data : Bool) (fields payload : List Nat) (port : Nat) :
    let t := s.sendMgmt opcode response data fields payload port
    t.out = s.out ∧ t.ftu = s.ftu ∧ t.rte = s.rte ∧ t.lnk = s.lnk ∧ t.prt = s.prt := by
  simp [State.sendMgmt, State.putPort, State.newPid]

/-! ### Directed packets (R192) -/

theorem recordPort_length (hopPtr port : Nat) (l : List Nat) : (recordPort hopPtr port l).length = 15 := by simp [recordPort]

/-- The ingress port is recorded in the slot of the hop just travelled. -/
theorem recordPort_getElem? {hopPtr : Nat} (port : Nat) (l : List Nat) (hlow : 1 ≤ hopPtr) (hhigh : hopPtr ≤ 15) :
    (recordPort hopPtr port l)[hopPtr - 1]? = some port := by
  have hlt : hopPtr - 1 < 15 := by omega
  simp [recordPort, hlt, Nat.sub_add_cancel hlow]

theorem routeOk_of_le {hopCount hopPtr : Nat} (hlow : 1 ≤ hopPtr) (hle : hopPtr ≤ hopCount) (hhigh : hopCount ≤ 15) :
    routeOk hopCount hopPtr = true := by
  simp [routeOk, hlow, hle, hhigh]

/-- DIRECTED_RECEIVE on an Up link of a device that runs (R42, R192). -/
theorem exec_directedReceive_gives {s : State} {port : Nat} (hopCount hopPtr : Nat) (ports : RoutePorts) (message : List Nat)
    (hawake : s.awake = true) (hrun : s.forwarding = true) (hup : s.linkUp port = true) :
    Gives (exec (.directedReceive port hopCount hopPtr ports message) s) (s.directed port hopCount hopPtr ports message) := by
  refine gives_ends ?_
  simp [hup, wake_awake s hawake, hrun]

/-! ### The statement about routing -/

/-- Settles O14: each event by its own effect; what ends the command that waits for a tree or a reservation keeps their tables. -/
theorem routingEventsTakeEffect : Obligations.RoutingEventsTakeEffect := by
  refine ⟨?treeDrained, ?delivered, ?forwarded, ?neighbour, ?drained, ?timeout⟩
  case treeDrained =>
    intro s tree t hfind hremoving hpending
    refine ⟨(s.dropTree tree).finishWait (.treeRemove tree) 0 0, gives_ends (by simp [hfind, hremoving, hpending]), ?_⟩
    simp [State.tree, State.dropTree]
  case delivered =>
    intro s port n ports message hawake hrun hup hlow hhigh
    refine ⟨_, recordPort n port ports.retPorts, exec_directedReceive_gives n n ports message hawake hrun hup, recordPort_length ..,
      recordPort_getElem? _ _ hlow hhigh, ?_⟩
    simp [State.directed, routeOk_of_le hlow (Nat.le_refl n) hhigh, State.emit]
  case forwarded =>
    intro s port n k ports message hawake hrun hup hlow hlt hhigh hnext
    refine ⟨_, recordPort k port ports.retPorts, exec_directedReceive_gives n k ports message hawake hrun hup,
      recordPort_getElem? _ _ hlow (by omega), ?_⟩
    rw [List.getD_eq_getElem?_getD] at hnext
    simp [State.directed, routeOk_of_le hlow (Nat.le_of_lt hlt) hhigh, hlt.ne, hnext, State.emit]
  case neighbour =>
    intro s port serial nbr hawake hrun hup
    refine ⟨s.upRte fun r => { r with ports := r.ports.upd port {} fun x => { x with
      nbrValid := true, nbrSerial := serial % 2 ^ 64, nbrPort := nbr % 32 } }, gives_ends ?_, ?_⟩
    · simp [hup, wake_awake s hawake, hrun]
    · simp [State.rport]
  case drained =>
    intro s id r hfind hreleasing hused
    refine ⟨(s.releaseResv id r).finishWait (.hopRelease id) 0 0, gives_ends (by simp [hfind, hreleasing, hused]), ?_⟩
    simp [State.releaseResv]
  case timeout =>
    intro s id r hfind hreleasing hused
    refine ⟨(s.releaseResv id r).finishWait (.hopRelease id) 0x0601 0, gives_ends (by simp [hfind, hreleasing, hused]), ?_⟩
    simp [State.releaseResv]

/-! ### Exchanges of fabric time (R70) -/

@[simp] theorem State.askTime_out (s : State) (p : Nat) :
    (s.askTime p).out = .oneHop 0xC3 p [(s.ftu.exchange + 1) % 65536, s.ftu.time] :: s.out := by
  simp [State.askTime, State.emit]

@[simp] theorem State.askTime_ftu (s : State) (p : Nat) :
    let t := s.askTime p
    t.ftu.exchange = (s.ftu.exchange + 1) % 65536 ∧ t.ftu.time = s.ftu.time := by
  simp [State.askTime, State.emit]

/-- Requests on some ports number their exchanges one after the other, and each goes out. -/
theorem foldl_askTime (ps : List Nat) {s : State} (hs : s.ftu.exchange < 65536) :
    let t := ps.foldl State.askTime s
    t.ftu.exchange = (s.ftu.exchange + ps.length) % 65536 ∧ t.out.length = s.out.length + ps.length ∧ t.ftu.time = s.ftu.time := by
  induction ps generalizing s with
  | nil => simp [Nat.mod_eq_of_lt hs]
  | cons p ps ih =>
    obtain ⟨hex, hout, htime⟩ := ih (s := s.askTime p) (by simp; omega)
    simp only [List.foldl_cons, hex, hout, htime, State.askTime_ftu, State.askTime_out, List.length_cons]
    refine ⟨by omega, by omega, trivial⟩

/-! ### The state of R71 -/

/-- A device that becomes Unsynchronised keeps what its exchanges have found. -/
@[simp] theorem State.unsync_ftu (s : State) :
    s.unsync.ftu = { s.ftu with sync := .unsynchronised, goodRun := 0, badRun := 0 } := by
  simp only [State.unsync]; split <;> simp

theorem State.unsync_adm_of_lost {s : State} (h : s.ftu.sync ≠ .unsynchronised) :
    s.unsync.adm = { s.adm with intStatus := setFlag s.adm.intStatus 3 } := by
  simp [State.unsync, h]

@[simp] theorem State.unsync_stormSuspend (s : State) : s.unsync.adm.stormSuspend = s.adm.stormSuspend := by
  simp only [State.unsync]; split <;> simp

@[simp] theorem State.synchronise_ftu (s : State) :
    s.synchronise.ftu = { s.ftu with sync := .synchronised, goodRun := 0, badRun := 0, fastExchange := false } := by
  simp only [State.synchronise]; split <;> simp

/-- The judgement of an exchange keeps what the exchange has found. -/
@[simp] theorem State.judgeOffset_ftu (s : State) (off2 : Int) :
    let t := s.judgeOffset off2
    t.ftu.ports = s.ftu.ports ∧ t.ftu.depth = s.ftu.depth ∧ t.ftu.lastOffset = s.ftu.lastOffset := by
  simp only [State.judgeOffset]; (repeat' split) <;> simp

/-- An exchange on the parent port (R70): depth and offset, and the ports as they were. -/
@[simp] theorem State.parentExchange_ftu (s : State) (depth : Nat) (off2 : Int) :
    let t := s.parentExchange depth off2
    t.ftu.ports = s.ftu.ports ∧ t.ftu.depth = min 63 (depth + 1) ∧
      t.ftu.lastOffset = max (-32768) (min 32767 (off2.tdiv 2)) := by
  simp only [State.parentExchange]; split <;> simp [Ftu.steer]

/-- The exchange outstanding on a port is answered (R70): its delay is noted. -/
def State.noteDelay (s : State) (port t2 t3 : Nat) : State :=
  let x := s.ftu.ports.get port {}
  s.upFtu fun f => { f with ports := f.ports.put port { x with
    outstanding := none, delays := (((s.ftu.time : Int) - x.t1 - ((t3 : Int) - t2)) :: x.delays).take 16 } }

/-- The answer to the exchange outstanding on a port: a child steers by it where it came from the parent. -/
theorem State.timeAnswer_eq {s : State} {port x : Nat} (depth t2 t3 : Nat) (hout : (s.ftu.ports.get port {}).outstanding = some x) :
    s.timeAnswer port x depth t2 t3 = if s.isChild = true ∧ s.ftu.parentPort = port then
      (s.noteDelay port t2 t3).parentExchange depth (((t2 : Int) - (s.ftu.ports.get port {}).t1) - ((s.ftu.time : Int) - t3))
    else s.noteDelay port t2 t3 := by
  rw [State.timeAnswer, if_neg (not_not.mpr hout)]
  simp only [Bool.and_eq_true, decide_eq_true_eq]
  rfl

/-- FT_SYNC_RSP_RECEIVE at a device that runs, whether or not its link is up (R42). -/
theorem exec_ftSyncRspReceive_gives {s : State} (port x depth t2 t3 : Nat) (hawake : s.awake = true) (hrun : s.forwarding = true) :
    Gives (exec (.ftSyncRspReceive port x depth t2 t3) s) (s.timeAnswer port x depth t2 t3) := by
  refine gives_ends ?_
  simp [wake_awake s hawake, hrun]

/-! ### Time that passes -/

@[simp] theorem State.chargeMs_frame (s : State) : s.chargeMs.masthead = s.masthead ∧ s.chargeMs.ftu = s.ftu := by
  rw [State.chargeMs]
  constructor
  · rw [foldl_keeps State.masthead fun s e => foldl_keeps State.masthead (fun s i => ?_) _ s, foldl_keeps State.masthead fun s e => ?_] <;>
      split <;> simp
  · rw [foldl_keeps State.ftu fun s e => foldl_keeps State.ftu (fun s i => ?_) _ s, foldl_keeps State.ftu fun s e => ?_] <;>
      split <;> simp

@[simp] theorem State.lanesPass_frame (s : State) (dt : Nat) : (s.lanesPass dt).masthead = s.masthead ∧ (s.lanesPass dt).ftu = s.ftu := by
  simp [State.lanesPass]

@[simp] theorem State.passTime_frame (s : State) (dt : Nat) : (s.passTime dt).masthead = s.masthead ∧ (s.passTime dt).ftu = s.ftu := by
  simp only [State.passTime]; split <;> simp

theorem clipPpm_bounds (x : Rat) : -1 / 1000 ≤ clipPpm x ∧ clipPpm x ≤ 1 / 1000 :=
  ⟨le_max_left .., max_le (by norm_num) (min_le_left ..)⟩

/-! ### The statement about fabric time -/

/-- Settles O15: each event by its own effect; what becomes of the state of R71 keeps what the exchange has found. -/
theorem timeEventsTakeEffect : Obligations.TimeEventsTakeEffect := by
  refine ⟨?period, ?request, ?response, ?loss, ?tick, ?window, ?edge, ?second⟩
  case period =>
    intro s hrun hslow hexchange
    exact ⟨s.upPorts.foldl State.askTime s, gives_ends (by simp [hrun, hslow]), foldl_askTime _ hexchange⟩
  case request =>
    intro s port x t1 hawake hrun hup
    refine ⟨s.answerTime port x, gives_ends (by simp [hup, wake_awake s hawake, hrun]), ?_⟩
    simp [State.answerTime, State.emit]
  case response =>
    intro s port x depth t2 t3 hawake hrun hout
    refine ⟨_, exec_ftSyncRspReceive_gives port x depth t2 t3 hawake hrun, ?_⟩
    rw [State.timeAnswer_eq depth t2 t3 hout]
    by_cases hparent : s.isChild = true ∧ s.ftu.parentPort = port
    · rw [if_pos hparent]
      simp [State.noteDelay, hparent]
    · rw [if_neg hparent]
      simp only [not_and] at hparent
      simp +contextual [State.noteDelay, hparent]
  case loss =>
    intro s hchild hrun hsync
    refine ⟨s.unsync, gives_ends (by simp [hchild, hrun, hsync]), by simp, ?_⟩
    rw [State.unsync_adm_of_lost hsync]
  case tick =>
    intro s t ht
    refine ⟨_, gives_ends (if_neg (by simp [ht])), ?_⟩
    simp [ht]
  case window =>
    intro s hmode
    refine ⟨_, gives_ends (if_neg hmode), ?_⟩
    dsimp only
    split
    · simp
    · simpa
  case edge =>
    intro s hgm hin
    refine ⟨_, gives_ends (if_pos (by simp [hgm, hin])), ?_⟩
    obtain ⟨hlow, hhigh⟩ := clipPpm_bounds (((s.fresh.1 % 2001 : Nat) : Rat) / 1000000 - 1 / 1000)
    exact ⟨rfl, hlow, hhigh, rfl⟩
  case second =>
    intro s hout hstrap hmode
    exact ⟨s.emit .pps, gives_ends (by simp [hout, hstrap, hmode]), rfl, rfl⟩

end Sys2Proof.Machine
end

section
/-! SUPPORT. A packet's way to the buffer: what its lookup finds and keeps, how it comes to wait at its ingress, and how a packet that waits
alone is admitted. -/
namespace Sys2Proof.Machine

/-! ### The lookup (R160 to R170) -/

@[simp] theorem State.countUnreserved_frame (s : State) :
    let t := s.countUnreserved
    t.obf = s.obf ∧ t.rte = s.rte := by
  simp [State.countUnreserved]

@[simp] theorem State.noCandidate_obf (s : State) : s.noCandidate.obf = s.obf := rfl

@[simp] theorem State.lookup_obf (s : State) (h : Hdr) (input rxVl : Nat) (atSource : Bool) (own : Option Nat) :
    (s.lookup h input rxVl atSource own).2.obf = s.obf := by
  simp only [State.lookup]; (repeat' split) <;> simp

/-- The virtual lane of a packet that ends at this device (R169): that of its class, or the one that it came on. -/
def laneHere (h : Hdr) (input rxVl : Nat) (atSource : Bool) : Nat :=
  if isMgmt h then 6 else if decide (input < 32) && !atSource then rxVl else 3 * b2n h.response

/-- A packet for this device is led to the output of its endpoint (R160). -/
theorem State.lookup_here {s : State} {h : Hdr} (input rxVl : Nat) (atSource : Bool) (own : Option Nat) (hvalid : s.rte.valid = true)
    (hdest : h.destDevice = s.rte.deviceId) :
    (s.lookup h input rxVl atSource own).1 = .out (s.endpointOut h.destEndpoint) (laneHere h input rxVl atSource) := by
  simp [State.lookup, hvalid, hdest, laneHere]

/-- The path that a packet takes changes where it travels, not its colour or its kind (R165). -/
@[simp] theorem State.choosePath_hdr (s : State) (tile : Nat) (h : Hdr) (own : Option Nat) :
    let g := (s.choosePath tile h own).1
    g.colour = h.colour ∧ g.multicast = h.multicast := by
  simp only [State.choosePath]; (repeat' split) <;> simp

@[simp] theorem State.choosePath_obf (s : State) (tile : Nat) (h : Hdr) (own : Option Nat) :
    (s.choosePath tile h own).2.obf = s.obf := by
  simp only [State.choosePath]; (repeat' split) <;> simp [State.fresh]

/-! ### Coming to wait at the ingress (R82, R97) -/

/-- A packet with its number in the order of arrival. -/
def State.numbered (s : State) (w : WaitPkt) : WaitPkt := { w with no := if w.no = 0 then s.obf.arrived + 1 else w.no }

theorem State.putWaiting_waiting (s : State) (w : WaitPkt) : (s.putWaiting w).obf.waiting = s.obf.waiting ++ [s.numbered w] := rfl

theorem State.putWaiting_pkts (s : State) (w : WaitPkt) : (s.putWaiting w).obf.pkts = s.obf.pkts := rfl

/-- A packet of this device that is no multicast comes to wait at its ingress, with a route or without one (R168). -/
theorem State.inject_waiting (s : State) {p : Packet} (len input : Nat) (sequenced : Bool) (own : Option Nat)
    (hmc : p.hdr.multicast = false) :
    ∃ w : WaitPkt, (s.inject p len input sequenced own).obf.waiting = s.obf.waiting ++ [w] ∧ w.pkt.pid = p.pid ∧
      w.pkt.hdr.colour = p.hdr.colour ∧ w.fromLocal = true ∧ w.edgeWait = false := by
  rw [State.inject]
  have hpath := s.choosePath_hdr (tileOf input) { p.hdr with epoch := s.activeEpoch } own
  have hobf := s.choosePath_obf (tileOf input) { p.hdr with epoch := s.activeEpoch } own
  revert hpath hobf
  rcases s.choosePath (tileOf input) { p.hdr with epoch := s.activeEpoch } own with ⟨g, t⟩
  rintro ⟨hcolour, hkind⟩ hobf
  replace hkind : g.multicast = false := hkind.trans hmc
  have hlook := (t.emit (.packet { p with hdr := g } (lenAs len p.hdr g))).lookup_obf g input 0 true own
  simp only [hkind, Bool.false_eq_true, if_false]
  split
  all_goals
    next u hroute =>
    rw [hroute] at hlook
    have hsame : u.obf = s.obf := hlook.trans hobf
    exact ⟨_, (State.putWaiting_waiting ..).trans (by simp [hsame]; rfl), rfl, hcolour, rfl, rfl⟩

/-- A packet that waits alone and is looked up again (R168): its route is found where it ends at this device. -/
theorem State.retryRoute_here {s : State} {w : WaitPkt} (hvalid : s.rte.valid = true) (halone : s.obf.waiting = [w]) (houts : w.outs = [])
    (hedge : w.edgeWait = false) (hbuilt : w.built = false) (hmc : w.pkt.hdr.multicast = false)
    (hdest : w.pkt.hdr.destDevice = s.rte.deviceId) :
    (s.retryRoute w.pkt.pid).obf.waiting =
      [{ w with outs := [(s.endpointOut w.pkt.hdr.destEndpoint, laneHere w.pkt.hdr w.input w.rxVl w.fromLocal)] }] := by
  have htake : takeFirst (fun x : WaitPkt => x.pkt.pid == w.pkt.pid && x.outs.isEmpty && !x.edgeWait && !x.built) s.obf.waiting =
      some (w, []) := by
    simp [halone, takeFirst, houts, hedge, hbuilt]
  have hans := State.lookup_here w.input w.rxVl w.fromLocal w.own hvalid hdest
  have hobf := s.lookup_obf w.pkt.hdr w.input w.rxVl w.fromLocal w.own
  simp only [State.retryRoute, htake, hvalid, hmc, Bool.not_true, Bool.false_eq_true, if_false]
  split
  next hroute => simp [hroute] at hans
  next o v t hroute =>
    rw [hroute] at hans hobf
    obtain ⟨rfl, rfl⟩ := RouteAns.out.inj hans
    simp only at hobf
    simp [hobf, halone, updFirst, houts]

/-! ### Admission of a packet that waits alone (R110, R125) -/

@[simp] theorem State.settleOld_obf (s : State) (before : Nat) : (s.settleOld before).obf = s.obf := by
  simp only [State.settleOld]; split <;> simp

/-- A packet that is not green takes its cells from the free part of its account's reserve while that suffices. -/
theorem State.takes_of_reserve {s : State} (c : Charge) {a n : Nat} (h : n ≤ (s.account a).reserveFree) :
    s.takes false c a n = some (0, n, 0) := by
  simp [State.takes, h]

theorem State.chargeOf_of_notGreen {s : State} {w : WaitPkt} (output : Nat) (h : isGreen w.pkt.hdr = false) :
    s.chargeOf w output = .none := by
  simp [State.chargeOf, h]

/-- Such a packet is taken into the buffer. -/
theorem State.takeIn_of_reserve {s : State} {w : WaitPkt} {o vl : Nat} (hgreen : isGreen w.pkt.hdr = false)
    (hfree : cellsOf w.len ≤ (s.account (accountOf o vl)).reserveFree) :
    ∃ t : State, ∃ b : BufPkt, s.takeIn w o vl = some t ∧ t.obf.waiting = s.obf.waiting ∧ t.obf.pkts = s.obf.pkts ++ [b] ∧
      b.pkt = w.pkt ∧ b.output = o ∧ b.vl = vl ∧ b.takeM = cellsOf w.len ∧ b.takeS = 0 ∧
      (t.account (accountOf o vl)).fromReserve = (s.account (accountOf o vl)).fromReserve + cellsOf w.len := by
  simp only [State.takeIn, hgreen, State.takes_of_reserve _ hfree, State.chargeOf_of_notGreen o hgreen]
  exact ⟨_, _, rfl, rfl, rfl, rfl, rfl, rfl, rfl, rfl, by simp [State.account, State.upAccount, State.charge]⟩

/-- A packet that waits alone is the oldest of its lane. -/
theorem State.offered_alone {s : State} {w : WaitPkt} (halone : s.obf.waiting = [w]) (hedge : w.edgeWait = false) (hbuilt : w.built = false) :
    s.offered w = true := by
  simp [State.offered, halone, hedge, hbuilt]

/-- A packet that waits alone takes no other's last cells. -/
theorem State.losers_alone {s : State} {w : WaitPkt} (t : State) (halone : s.obf.waiting = [w]) : s.losers t w.pkt.pid = [] := by
  simp [State.losers, halone]

theorem State.admitOut_alone {s t : State} {w : WaitPkt} {o vl : Nat} (halone : s.obf.waiting = [w]) (htake : s.takeIn w o vl = some t) :
    s.admitOut w (o, vl) = (true, t.moveTurns w.input o []) := by
  simp [State.admitOut, htake, State.losers_alone t halone]

theorem State.offer_alone {s t : State} {w : WaitPkt} {b : BufPkt} {o vl : Nat} (halone : s.obf.waiting = [w]) (houts : w.outs = [(o, vl)])
    (hedge : w.edgeWait = false) (hbuilt : w.built = false) (hmc : w.pkt.hdr.multicast = false) (htake : s.takeIn w o vl = some t)
    (hpkts : t.obf.pkts = s.obf.pkts ++ [b]) (hpkt : b.pkt = w.pkt) :
    s.offer w.pkt.pid = ((t.moveTurns w.input o []).upObf fun x => { x with
      waiting := x.waiting.filter fun y => y.pkt.pid != w.pkt.pid }).settleOld s.oldCount := by
  have hfind : s.obf.waiting.find? (fun x => x.pkt.pid == w.pkt.pid && !x.outs.isEmpty) = some w := by simp [halone, houts]
  have hopen : s.branchOpen w.pkt.hdr o = true := by simp [State.branchOpen, hmc]
  simp [State.offer, hfind, State.offered_alone halone hedge hbuilt, houts, hopen, State.admitOut_alone halone htake, State.moveTurns, hpkts,
    hpkt]

end Sys2Proof.Machine
end

section
/-! SUPPORT. Egress (R127 to R141): what a packet that starts to leave keeps of its output, what the choice of a control packet keeps, and the
frame boundary at which a management packet goes. -/
namespace Sys2Proof.Machine

/-! ### An output and a port that are changed -/

@[simp] theorem State.egress_upEgress_self (s : State) (o : Nat) (f : Egress → Egress) : (s.upEgress o f).egress o = f (s.egress o) := by
  simp [State.egress, State.upEgress]

theorem State.egress_upEgress (s : State) (o q : Nat) (f : Egress → Egress) :
    (s.upEgress o f).egress q = if q = o then f (s.egress o) else s.egress q := by
  simp [State.egress, State.upEgress, Tbl.get_upd]

@[simp] theorem State.lport_upLport_self (s : State) (p : Nat) (f : LnkPort → LnkPort) : (s.upLport p f).lport p = f (s.lport p) := by
  simp [State.lport, State.upLport]

@[simp] theorem State.upLport_egs (s : State) (p : Nat) (f : LnkPort → LnkPort) : (s.upLport p f).egs = s.egs := rfl

@[simp] theorem State.upEgress_obf (s : State) (o : Nat) (f : Egress → Egress) : (s.upEgress o f).obf = s.obf := rfl

@[simp] theorem State.upEgress_lnk (s : State) (o : Nat) (f : Egress → Egress) : (s.upEgress o f).lnk = s.lnk := rfl

/-! ### A frame put on the wire -/

@[simp] theorem State.told_frame (s : State) (p : Nat) (vls : List Nat) :
    let t := s.told p vls
    t.egs = s.egs ∧ (t.lport p).replayCut = (s.lport p).replayCut := by
  simp [State.told]

@[simp] theorem State.countInject_frame (s : State) (p : Nat) :
    let t := (s.countInject p).2
    t.egs = s.egs ∧ (t.lport p).replayCut = (s.lport p).replayCut := by
  simp only [State.countInject]
  (repeat' split) <;> simp [State.lport, State.upLport]

@[simp] theorem State.sendFrame_frame (s : State) (p : Nat) (f : ReplayFrame) (damage : WireFrame → WireFrame) :
    let t := s.sendFrame p f damage
    t.egs = s.egs ∧ t.lnk = s.lnk := by
  simp [State.sendFrame]

@[simp] theorem State.emit_lport (s : State) (o : Out) (p : Nat) : (s.emit o).lport p = s.lport p := rfl

@[simp] theorem State.sendFrame_lport (s : State) (p q : Nat) (f : ReplayFrame) (damage : WireFrame → WireFrame) :
    (s.sendFrame p f damage).lport q = s.lport q := rfl

/-- A frame on the wire, whole or as an injection lets it, leaves the egress and a cut replayed frame as they were. -/
@[simp] theorem State.putFrame_frame (s : State) (p : Nat) (f : ReplayFrame) :
    let t := s.putFrame p f
    t.egs = s.egs ∧ (t.lport p).replayCut = (s.lport p).replayCut := by
  simp only [State.putFrame]
  split
  · simp
  · have hcount := s.countInject_frame p
    revert hcount
    rcases s.countInject p with ⟨hit, t⟩
    rintro ⟨hegs, hcut⟩
    simp only at hegs hcut ⊢
    (repeat' split) <;> simp [hegs, hcut]

/-- So does a frame that starts. -/
@[simp] theorem State.startFrame_frame (s : State) (p v : Nat) (pkt : Packet) (len : Nat) (sequenced : Bool) :
    let t := s.startFrame p v pkt len sequenced
    t.egs = s.egs ∧ (t.lport p).replayCut = (s.lport p).replayCut := by
  simp [State.startFrame, State.upLinkVl]

/-! ### A packet that starts to leave (R128) -/

@[simp] theorem State.leaveHdr_frame (s : State) (b : BufPkt) :
    let t := (s.leaveHdr b).2
    t.egs = s.egs ∧ t.lnk = s.lnk := by
  simp only [State.leaveHdr]
  (repeat' split) <;> simp [State.countUnjudged]

@[simp] theorem State.upBufPkt_frame (s : State) (pid output : Nat) (f : BufPkt → BufPkt) :
    let t := s.upBufPkt pid output f
    t.egs = s.egs ∧ t.lnk = s.lnk := by
  simp [State.upBufPkt]

@[simp] theorem State.upCell_frame (s : State) (c : Nat) (f : CellTag → CellTag) :
    let t := s.upCell c f
    t.egs = s.egs ∧ t.lnk = s.lnk := by
  simp [State.upCell]

@[simp] theorem State.keepT1_frame (s : State) (port : Nat) (p : Packet) :
    let t := s.keepT1 port p
    t.egs = s.egs ∧ t.lnk = s.lnk := by
  simp only [State.keepT1]; split <;> simp

/-- The first cells of a packet are read. -/
theorem foldl_upCell_frame (l : List Nat) (f : CellTag → CellTag) (s : State) :
    let t := l.foldl (fun s c => s.upCell c f) s
    t.egs = s.egs ∧ t.lnk = s.lnk :=
  ⟨foldl_keeps State.egs (by simp) l s, foldl_keeps State.lnk (by simp) l s⟩

/-- A packet is being read for its output, with the header that it leaves with, and is not yet on the wire. -/
def State.beginSend (s : State) (b : BufPkt) (h : Hdr) : State :=
  let s := s.upBufPkt b.pkt.pid b.output fun x => { x with started := true, pkt := { x.pkt with hdr := h } }
  let s := b.cells.foldl (fun s c => s.upCell c fun t => if t.state = .linked then { t with state := .reading } else t) s
  s.upEgress b.output fun e => { e with
    sending := some { pid := b.pkt.pid, progress := 0 }
    vl6Sent := if b.vl = 6 then (s.coreTime, b.len) :: e.vl6Sent.filter fun x => decide (s.coreTime < x.1 + 400000) else e.vl6Sent }

@[simp] theorem State.beginSend_lnk (s : State) (b : BufPkt) (h : Hdr) : (s.beginSend b h).lnk = s.lnk := by
  simp [State.beginSend, foldl_upCell_frame]

/-- What goes on the wire leaves the egress and a cut replayed frame as they were. -/
theorem State.startSend_frame (s : State) (b : BufPkt) : ∃ h,
    let u := (s.leaveHdr b).2.beginSend b h
    (s.startSend b).egs = u.egs ∧ ((s.startSend b).lport b.output).replayCut = (u.lport b.output).replayCut := by
  refine ⟨(s.leaveHdr b).1, ?_⟩
  simp only [State.startSend]
  generalize hv : State.keepT1 _ b.output _ = v
  have hegs : v.egs = ((s.leaveHdr b).2.beginSend b (s.leaveHdr b).1).egs := by rw [← hv]; exact (State.keepT1_frame ..).1
  have hlnk : v.lnk = ((s.leaveHdr b).2.beginSend b (s.leaveHdr b).1).lnk := by rw [← hv]; exact (State.keepT1_frame ..).2
  have hlport : v.lport b.output = ((s.leaveHdr b).2.beginSend b (s.leaveHdr b).1).lport b.output := by rw [State.lport, hlnk]; rfl
  split
  · split <;> simp [hegs, State.lport, hlnk]
  · split <;> simp [hegs, hlport]

/-- A packet that starts to leave is what its output sends, from its first flit; what the output holds beside it stays. -/
theorem State.startSend_egress (s : State) (b : BufPkt) :
    let e := (s.startSend b).egress b.output
    e.sending = some { pid := b.pkt.pid, progress := 0 } ∧ e.resume = (s.egress b.output).resume ∧
      e.background = (s.egress b.output).background ∧ e.backSending = (s.egress b.output).backSending := by
  obtain ⟨h, hwire, -⟩ := s.startSend_frame b
  simp [State.egress, hwire, State.beginSend, State.upEgress, foldl_upCell_frame]

theorem State.startSend_replayCut (s : State) (b : BufPkt) :
    ((s.startSend b).lport b.output).replayCut = (s.lport b.output).replayCut := by
  obtain ⟨h, -, hwire⟩ := s.startSend_frame b
  rw [hwire]; simp [State.lport]

/-! ### The choice of a packet that cuts a frame (R138, R141) -/

/-- What an output holds beside the turns of its scheduler and its tokens: the choice of a packet leaves it. -/
def SameHeld (o : Nat) (s t : State) : Prop :=
  (t.egress o).resume = (s.egress o).resume ∧ (t.egress o).background = (s.egress o).background ∧
    (t.egress o).backSending = (s.egress o).backSending ∧ t.lnk = s.lnk

theorem SameHeld.refl (o : Nat) (s : State) : SameHeld o s s := ⟨rfl, rfl, rfl, rfl⟩

theorem State.sameHeld_spendGreen (s : State) (o : Nat) (b : BufPkt) : SameHeld o s (s.spendGreen o b) := by
  rw [State.spendGreen]
  split
  · simp [SameHeld]
  · exact .refl o s

/-- The children of a node put back leave the outputs. -/
theorem State.putSubs_frame (s : State) (t : Tbl Child) : (s.putSubs t).egs.out = s.egs.out ∧ (s.putSubs t).lnk = s.lnk := by
  refine ⟨foldl_keeps (fun t => t.egs.out) (fun s e => ?_) t s, foldl_keeps State.lnk (fun _ _ => State.upEgs_lnk ..) t s⟩
  simp only [State.upEgs_egs]
  (repeat' split) <;> rfl

theorem State.sameHeld_yellowPick {s t : State} {o : Nat} {ok : BufPkt → Bool} {b : BufPkt} (h : s.yellowPick o ok = some (b, t)) :
    SameHeld o s t := by
  simp only [State.yellowPick] at h
  split at h
  · cases h
  · split at h
    · cases h
    · split at h
      · cases h
      next subs sv _ =>
        obtain ⟨-, rfl⟩ := Prod.mk.inj (Option.some.inj h)
        obtain ⟨hout, hlnk⟩ := s.putSubs_frame subs
        refine ⟨?_, ?_, ?_, hlnk⟩ <;> simp [State.egress, State.upEgress, hout]

theorem State.sameHeld_cutter {s t : State} {o : Nat} {frame : Hdr} {c : BufPkt} (h : s.cutter o frame = some (c, t)) : SameHeld o s t := by
  simp only [State.cutter] at h
  split at h
  · obtain ⟨-, rfl⟩ := Prod.mk.inj (Option.some.inj h)
    exact .refl o s
  · split at h
    · obtain ⟨-, rfl⟩ := Prod.mk.inj (Option.some.inj h)
      exact s.sameHeld_spendGreen o _
    · split at h
      · cases h
      · exact State.sameHeld_yellowPick h

theorem State.cutBy_of_cutter {s t : State} {o : Nat} {frame : Hdr} {c : BufPkt} (h : s.cutter o frame = some (c, t)) :
    s.cutBy o c frame = some t := by
  simp [State.cutBy, h]

/-! ### Frames that are cut (R138, R139, R213) -/

@[simp] theorem State.refillEgress_frame (s : State) (o : Nat) :
    let t := s.refillEgress o
    t.obf = s.obf ∧ t.lnk = s.lnk ∧ (t.egress o).sending = (s.egress o).sending ∧ (t.egress o).resume = (s.egress o).resume ∧
      (t.egress o).background = (s.egress o).background := by
  simp [State.refillEgress]

@[simp] theorem State.refillEgress_bufPkt (s : State) (o pid output : Nat) : (s.refillEgress o).bufPkt pid output = s.bufPkt pid output := rfl

@[simp] theorem State.refillEgress_lport (s : State) (o p : Nat) : (s.refillEgress o).lport p = s.lport p := rfl

@[simp] theorem State.refillEgress_slotTaken (s : State) (o vl pid : Nat) : (s.refillEgress o).slotTaken o vl pid = s.slotTaken o vl pid := by
  simp [State.slotTaken]

@[simp] theorem State.refillEgress_slotHeld (s : State) (o vl : Nat) : (s.refillEgress o).slotHeld o vl = s.slotHeld o vl := by
  simp [State.slotHeld]

/-- A frame of the output's queues is cut (R138). -/
theorem State.cutFrame_of_sending {s t : State} {o progress : Nat} {f : Sending} {b c : BufPkt} (hsend : (s.egress o).sending = some f)
    (hc : s.bufPkt c.pkt.pid o = some c) (hb : s.bufPkt f.pid o = some b) (hslot : s.slotTaken o b.vl f.pid = false)
    (hlast : progress < flitsOf b.len) (hfirst : f.progress ≤ progress)
    (hcut : ((s.refillEgress o).holdFrame o b progress).cutter o b.pkt.hdr = some (c, t)) :
    s.cutFrame o c.pkt.pid progress = t.startSend c := by
  simp [State.cutFrame, hsend, hc, hb, hslot, Nat.not_le.mpr hlast, Nat.not_lt.mpr hfirst, State.cutBy_of_cutter hcut]

/-- A background frame is cut (R45). -/
theorem State.cutFrame_of_background {s t : State} {o progress n : Nat} {c : BufPkt} (hsend : (s.egress o).sending = none)
    (hreplay : (s.lport o).replaying = none) (hc : s.bufPkt c.pkt.pid o = some c) (hback : (s.egress o).backSending = some n)
    (hlast : 64 * progress < n)
    (hcut : ((s.refillEgress o).upEgress o fun e => { e with
      background := (n - 64 * progress) :: e.background, backSending := none,
      sliceTokens := e.sliceTokens + (3200000 * (n - 64 * progress) : Nat) }).cutter o { data := true } = some (c, t)) :
    s.cutFrame o c.pkt.pid progress = t.startSend c := by
  simp only [State.cutFrame, State.refillEgress_bufPkt, State.refillEgress_lport, State.refillEgress_frame, hc, hsend, hreplay, Option.bind_none,
    State.cutBackground, hback, if_neg (Nat.not_le.mpr hlast), State.cutBy_of_cutter hcut]

/-- A replayed frame is cut (R213). -/
theorem State.cutFrame_of_replaying {s t : State} {o progress : Nat} {f : ReplayFrame} {c : BufPkt} (hsend : (s.egress o).sending = none)
    (hc : s.bufPkt c.pkt.pid o = some c) (hreplay : (s.lport o).replaying = some f.seq)
    (hframe : (s.lport o).replay.find? (fun x => x.seq == f.seq) = some f) (hslot : s.slotHeld o f.vl = false) (hlast : progress < f.flits)
    (hcut : ((s.refillEgress o).holdReplay o f progress).cutter o f.pkt.hdr = some (c, t)) :
    s.cutFrame o c.pkt.pid progress = t.startSend c := by
  simp [State.cutFrame, hsend, hc, hreplay, hframe, hslot, Nat.not_le.mpr hlast, State.cutBy_of_cutter hcut]

/-! ### A frame boundary at which a management packet goes (R127, R128) -/

@[simp] theorem State.settleDeficits_egress (s : State) (o q : Nat) : (s.settleDeficits o).egress q = s.egress q := rfl

/-- Which management packet goes depends on the egress block through the resume slots and what VL6 has sent alone. -/
theorem State.mgmtHead_upEgs {s : State} {F : Egs → Egs} (o : Nat) (hresume : ∀ q, ((s.upEgs F).egress q).resume = (s.egress q).resume)
    (hsent : ∀ q, ((s.upEgs F).egress q).vl6Sent = (s.egress q).vl6Sent) : (s.upEgs F).mgmtHead o = s.mgmtHead o := by
  have hheld (q vl : Nat) : (s.upEgs F).slotHeld q vl = s.slotHeld q vl := by rw [State.slotHeld, hresume]; rfl
  have heligible (b : BufPkt) : (s.upEgs F).eligible b = s.eligible b := by rw [State.eligible, State.readyBut, hheld]; rfl
  have hbytes : (s.upEgs F).vl6Bytes o = s.vl6Bytes o := by rw [State.vl6Bytes, hsent]; rfl
  have hqueue : (s.upEgs F).queueHead (0x40 + o) = s.queueHead (0x40 + o) := by
    simp only [State.queueHead, State.queueHeadOf, heligible]; rfl
  rw [State.mgmtHead, hqueue, hbytes]; rfl

theorem State.mgmtHead_upEgress {s : State} {f : Egress → Egress} (o p : Nat) (hresume : ∀ e, (f e).resume = e.resume)
    (hsent : ∀ e, (f e).vl6Sent = e.vl6Sent) : (s.upEgress p f).mgmtHead o = s.mgmtHead o := by
  have hegress (q : Nat) := s.egress_upEgress p q f
  refine State.mgmtHead_upEgs o (fun q => ?_) fun q => ?_
  · change ((s.upEgress p f).egress q).resume = _
    rw [hegress]; split <;> simp_all
  · change ((s.upEgress p f).egress q).vl6Sent = _
    rw [hegress]; split <;> simp_all

@[simp] theorem State.mgmtHead_refillEgress (s : State) (o p : Nat) : (s.refillEgress p).mgmtHead o = s.mgmtHead o :=
  State.mgmtHead_upEgress o p (fun _ => rfl) fun _ => rfl

@[simp] theorem State.mgmtHead_settleDeficits (s : State) (o p : Nat) : (s.settleDeficits p).mgmtHead o = s.mgmtHead o :=
  State.mgmtHead_upEgs o (fun _ => rfl) fun _ => rfl

theorem State.replayOver_idle {s : State} {p : Nat} (hreplaying : (s.lport p).replaying = none) (hcut : (s.lport p).replayCut = none) :
    s.replayOver p = s := by
  simp [State.replayOver, hreplaying, hcut]

theorem State.select_mgmt {s : State} {o : Nat} {b : BufPkt} (hhead : s.mgmtHead o = some b) : s.select o = s.startSend b := by
  simp [State.select, hhead]

theorem State.selectInjected_off {s : State} {o : Nat} (hinject : (s.lport o).inject = {}) : s.selectInjected o = s.select o := by
  simp [State.selectInjected, hinject]

/-- At the boundary of an idle output, with nothing cut, suspended, replayed or injected, the management packet at the head goes first. -/
theorem State.selectOut_mgmt {s : State} {o : Nat} {b : BufPkt} (hsend : (s.egress o).sending = none) (hresume : (s.egress o).resume = [])
    (hreplays : (s.lport o).toReplay = []) (hreplaying : (s.lport o).replaying = none) (hcut : (s.lport o).replayCut = none)
    (hinject : (s.lport o).inject = {}) (hhead : s.mgmtHead o = some b) (hout : b.output = o) :
    ((s.selectOut o).egress o).sending = some { pid := b.pkt.pid, progress := 0 } := by
  have hboundary : s.boundary o = s.upEgress o fun e => { e with backSending := none } := by rw [State.boundary, hsend]
  generalize hu : (((s.boundary o).replayOver o).refillEgress o).settleDeficits o = u
  have hidle : u = ((s.upEgress o fun e => { e with backSending := none }).refillEgress o).settleDeficits o := by
    rw [← hu, State.replayOver_idle (by rw [hboundary]; exact hreplaying) (by rw [hboundary]; exact hcut), hboundary]
  have hlport : u.lport o = s.lport o := by rw [hidle]; rfl
  have hnone : (s.lport o).cutFrame = none := by rw [LnkPort.cutFrame, hcut]; rfl
  have hfree : (u.egress o).resume = [] := by simp [hidle, hresume]
  have hclear : (s.upEgress o fun e => { e with backSending := none }).mgmtHead o = s.mgmtHead o :=
    State.mgmtHead_upEgress o o (fun _ => rfl) fun _ => rfl
  have hsame : u.mgmtHead o = some b := by
    rw [hidle, State.mgmtHead_settleDeficits, State.mgmtHead_refillEgress, hclear, hhead]
  have hsel : u.selectInjected o = u.startSend b := by
    rw [State.selectInjected_off (by rw [hlport, hinject]), State.select_mgmt hsame]
  simp only [State.selectOut, hu, hnone, hlport, hreplays, hfree, hsel, List.find?_nil, List.isEmpty_nil, Bool.not_true, Bool.and_false,
    Bool.false_eq_true, if_false, State.settleDeficits_egress]
  rw [← hout]
  exact (u.startSend_egress b).1

end Sys2Proof.Machine
end

section
/-! SUPPORT. The central scheduler (R96 to R102) with a packet that is in the buffer alone, and the statement about the switch. -/
namespace Sys2Proof.Machine

/-! ### A packet in the buffer alone -/

/-- The pair of a packet (R98). -/
def BufPkt.pair (b : BufPkt) : Pair := { input := b.input, output := b.output, pid := b.pkt.pid }

/-- Its first cell comes to the empty staging buffer of its input (R96). -/
theorem State.stageCells_alone {s : State} {b : BufPkt} (halone : s.obf.pkts = [b]) (hcells : 2 ≤ b.cells.length) (hcome : s.csc.come = [])
    (hback : s.csc.back = []) :
    let t := s.stageCells [b.pkt.pid]
    t.obf = s.obf ∧ t.csc.a = s.csc.a ∧ t.csc.b = s.csc.b ∧ t.csc.come = [(b.pkt.pid, 1)] := by
  have hfirst : ¬ b.cells.length ≤ 0 := by omega
  simp [State.stageCells, State.stageCell, State.inputOf, State.cellsTotal, State.occupancy, sumOf, Tbl.keep, Tbl.get, Tbl.find, Tbl.put,
    hback, hcome, halone, List.ne_nil_of_length_pos (show 0 < b.cells.length by omega)]

theorem State.iterate_nil (s : State) (first : Bool) (m : Matching) : s.iterate [] first m = m := rfl

/-- In an empty matching it is granted and accepted (R99). -/
theorem State.iterate_alone (s : State) (b : BufPkt) (first : Bool) {m : Matching} (hm : m.pairs = []) :
    (s.iterate [b] first m).pairs = [b.pair] := by
  simp [State.iterate, hm, State.grantOf, BufPkt.pair, apply_ite Matching.pairs]

/-- Once matched it asks no more. -/
theorem State.iterate_matched (s : State) (b : BufPkt) (first : Bool) {m : Matching} (hm : m.pairs = [b.pair]) :
    s.iterate [b] first m = m := by
  simp [State.iterate, hm, BufPkt.pair]

theorem State.breakPairs_nil (s : State) (reqs : List BufPkt) {m : Matching} (hm : m.pairs = []) : (s.breakPairs reqs m).pairs = [] := by
  rw [State.breakPairs]
  generalize reqs.filter _ = high
  induction high generalizing m with
  | nil => exact hm
  | cons b high ih =>
    refine ih ?_
    simp [hm]

theorem State.computeMatching_alone {s : State} {b : BufPkt} {other : List Pair} {m : Matching} (halone : s.obf.pkts = [b]) (hm : m.pairs = [])
    (hreq : s.requests b other = true) : (s.computeMatching other m).pairs = [b.pair] := by
  have hfirst := s.iterate_alone b true (s.breakPairs_nil [b] hm)
  simp only [State.computeMatching, hm, List.nil_append, halone, List.filter_cons, hreq, if_true, List.filter_nil]
  rw [s.iterate_matched b false hfirst, s.iterate_matched b false hfirst, hfirst]

theorem State.computeMatching_taken {s : State} {b : BufPkt} {other : List Pair} {m : Matching} (halone : s.obf.pkts = [b]) (hm : m.pairs = [])
    (hreq : s.requests b other = false) : (s.computeMatching other m).pairs = [] := by
  simp only [State.computeMatching, hm, List.nil_append, halone, List.filter_cons, hreq, Bool.false_eq_true, if_false, List.filter_nil,
    State.iterate_nil]
  exact s.breakPairs_nil [] hm

@[simp] theorem State.upCell_pkts (s : State) (c : Nat) (f : CellTag → CellTag) : (s.upCell c f).obf.pkts = s.obf.pkts := by
  simp only [State.upCell, State.upObf_obf]; split <;> rfl

theorem State.upBufPkt_alone {s : State} {b : BufPkt} (f : BufPkt → BufPkt) (halone : s.obf.pkts = [b]) :
    (s.upBufPkt b.pkt.pid b.output f).obf.pkts = [f b] := by
  simp [State.upBufPkt, halone, updFirst]

/-- A staged cell that is not its last crosses (R100). -/
theorem State.crossPairs_alone {s : State} {b : BufPkt} (halone : s.obf.pkts = [b]) (hstaged : s.staged b = true)
    (hmore : b.written + 1 < b.cells.length) :
    (s.crossPairs [b.pair]).obf.pkts = [{ b with written := b.written + 1 }] := by
  have hfind : s.bufPkt b.pkt.pid b.output = some b := by simp [State.bufPkt, halone]
  have hcells : ¬ b.cells.length ≤ b.written := by omega
  simp only [State.crossPairs, List.foldl_cons, List.foldl_nil, BufPkt.pair, hfind, hstaged, if_true, State.moveCell, if_neg hcells]
  generalize hcell : s.upCell _ _ = t
  have hpkts : t.obf.pkts = [b] := by rw [← hcell, State.upCell_pkts, halone]
  have hup := State.upBufPkt_alone (fun x => { x with written := x.written + 1 }) hpkts
  have hcrossing : (t.upBufPkt b.pkt.pid b.output fun x => { x with written := x.written + 1 }).crossing b.pkt.pid = true := by
    simp [State.crossing, hup, hmore]
  rw [hcrossing]
  exact hup

/-- One core cycle of the scheduler, in which the first cell of the one packet in the buffer comes to staging and crosses (R98 to R100). -/
theorem exec_matching_alone {s : State} {b : BufPkt} (hrun : s.forwarding = true) (halone : s.obf.pkts = [b]) (hwritten : b.written = 0)
    (hcells : 2 ≤ b.cells.length) (ha : s.csc.a.pairs = []) (hb : s.csc.b.pairs = []) (hcome : s.csc.come = []) (hback : s.csc.back = []) :
    ∃ u : State, Gives (exec (.centralSchedulerMatching [b.pkt.pid] []) s) u ∧ u.obf.pkts = [{ b with written := 1 }] ∧
      u.csc.a.pairs = [b.pair] := by
  refine ⟨_, gives_ends (if_neg (by simp [hrun])), ?_⟩
  obtain ⟨hobf, hsa, hsb, hstaged⟩ := State.stageCells_alone halone hcells hcome hback
  simp only [List.append_nil]
  generalize s.stageCells [b.pkt.pid] = t at *
  replace halone : t.obf.pkts = [b] := by rw [hobf, halone]
  have hready : t.staged b = true := by simp [State.staged, hwritten, hstaged, Tbl.get, Tbl.find]
  have hpos : 0 < b.cells.length := by omega
  have hmatchA : (t.computeMatching t.csc.b.pairs t.csc.a).pairs = [b.pair] :=
    State.computeMatching_alone halone (by rw [hsa, ha]) (by simp [State.requests, hready, hwritten, hpos, hsb, hb])
  have hmatchB : (t.computeMatching [b.pair] t.csc.b).pairs = [] :=
    State.computeMatching_taken halone (by rw [hsb, hb]) (by simp [State.requests, BufPkt.pair])
  have hcross := State.crossPairs_alone halone hready (by omega)
  simp only [hmatchA, hmatchB, List.append_nil]
  generalize t.crossPairs [b.pair] = v at *
  rw [hwritten] at hcross
  have hmore : 1 < b.cells.length := by omega
  simp [hcross, State.keepPairs, State.bufPkt, BufPkt.pair, hmore]

/-! ### Packets that enter -/

/-- A packet of the old epoch is noted, and no route changes (R173). -/
@[simp] theorem State.noteOld_frame (s : State) (h : Hdr) :
    let t := s.noteOld h
    t.obf = s.obf ∧ t.rte.valid = s.rte.valid ∧ t.rte.deviceId = s.rte.deviceId ∧ ∀ e, t.endpointOut e = s.endpointOut e := by
  rw [State.noteOld]; split <;> simp [State.endpointOut]

/-- A packet that came on a link and ends at this device comes to wait for the output of its endpoint (R160). -/
theorem State.routeArrived_here {s : State} {w : WaitPkt} (port : Nat) (hport : consumedAtPort w.pkt.hdr = false)
    (hvalid : s.rte.valid = true) (hmc : w.pkt.hdr.multicast = false) (hdest : w.pkt.hdr.destDevice = s.rte.deviceId) :
    ∃ x : WaitPkt, (s.routeArrived w port).obf.waiting = s.obf.waiting ++ [x] ∧ (s.routeArrived w port).obf.pkts = s.obf.pkts ∧
      x.pkt = w.pkt ∧ x.len = w.len ∧ x.input = w.input ∧
      x.outs = [(s.endpointOut w.pkt.hdr.destEndpoint, laneHere w.pkt.hdr port w.rxVl false)] := by
  have hans := State.lookup_here port w.rxVl false none hvalid hdest
  have hobf := s.lookup_obf w.pkt.hdr port w.rxVl false none
  simp only [State.routeArrived, hport, hvalid, hmc, Bool.not_true, Bool.false_eq_true, if_false]
  split
  next hroute => simp [hroute] at hans
  next o v t hroute =>
    rw [hroute] at hans hobf
    obtain ⟨rfl, rfl⟩ := RouteAns.out.inj hans
    simp only at hobf
    exact ⟨t.numbered { w with outs := [(_, _)] }, by rw [State.putWaiting_waiting, hobf], by rw [State.putWaiting_pkts, hobf],
      rfl, rfl, rfl, rfl⟩

/-- Such a packet from a link that is no host link, at a device that runs (R42, R163). -/
theorem exec_packetIngress_here {s : State} {input : Nat} {p : Packet} (length rxVl : Nat) (pre first : Bool) (hawake : s.awake = true)
    (hrun : s.forwarding = true) (hinput : input < 32) (hhost : s.isHostLink input = false) (hvalid : s.rte.valid = true)
    (hport : consumedAtPort p.hdr = false) (hmc : p.hdr.multicast = false) (hcolour : p.hdr.colour = 0) (hsl : p.hdr.sl ≤ 6)
    (hdest : p.hdr.destDevice = s.rte.deviceId) :
    ∃ u : State, ∃ w : WaitPkt, Gives (exec (.packetIngress input p length rxVl pre first) s) u ∧ u.obf.waiting = s.obf.waiting ++ [w] ∧
      w.pkt = p ∧ w.len = length ∧ w.input = input ∧ w.outs = [(s.endpointOut p.hdr.destEndpoint, rxVl)] ∧ u.obf.pkts = s.obf.pkts := by
  have hmgmt : isMgmt p.hdr = false := by simp [isMgmt]; omega
  have hlane : laneHere p.hdr input rxVl false = rxVl := by simp [laneHere, hmgmt, hinput]
  have hgives : Gives (exec (.packetIngress input p length rxVl pre first) s) (s.arrive input p length rxVl (flitsOf length)) := by
    refine gives_ends ?_
    simp [hinput, wake_awake s hawake, hrun, hhost, show ¬ 35 < input by omega]
  simp only [State.arrive, hcolour, OfNat.zero_ne_ofNat, if_false] at hgives
  obtain ⟨hobf, hvalid', hdevice, hendpoint⟩ := s.noteOld_frame p.hdr
  obtain ⟨w, hwait, hpkts, hpkt, hlen, hin, houts⟩ := State.routeArrived_here (s := s.noteOld p.hdr) (w := {
    pkt := p, len := length, input, rxVl, flits := flitsOf length, routedAt := s.obf.residency, outs := []
    fromLocal := false, sequenced := inStream p.hdr }) input hport (hvalid'.trans hvalid) hmc (hdest.trans hdevice.symm)
  exact ⟨_, w, hgives, by rw [hwait, hobf], hpkt, hlen, hin, by rw [houts, hendpoint, hlane], by rw [hpkts, hobf]⟩

/-- A management packet of this device's own comes to wait in the colour of its class, whatever its route (R58, R163). -/
theorem exec_packetIngress_mgmt {s : State} {input : Nat} {p : Packet} (length rxVl : Nat) (pre first : Bool) (hrun : s.forwarding = true)
    (hlow : 32 ≤ input) (hhigh : input ≤ 35) (hsl : p.hdr.sl = 7) (hinst : p.hdr.inst = 0) (hmc : p.hdr.multicast = false) :
    ∃ u : State, ∃ w : WaitPkt, Gives (exec (.packetIngress input p length rxVl pre first) s) u ∧ u.obf.waiting = s.obf.waiting ++ [w] ∧
      w.pkt.hdr.colour = 3 ∧ w.pkt.pid = p.pid ∧ w.fromLocal = true := by
  have hpolice : s.police p.hdr length first pre = (.send { p.hdr with colour := 3, deadline := 0 } 0, s) := by
    simp [State.police, hsl, hinst]
  obtain ⟨w, hwait, hpid, hcolour, hlocal, -⟩ := s.inject_waiting (p := { p with hdr := { p.hdr with colour := 3, deadline := 0 } })
    length input false none hmc
  refine ⟨_, w, gives_ends ?_, hwait, hcolour, hpid, hlocal⟩
  have hin : ¬ input < 32 := by omega
  simp [hin, hhigh, hrun, State.enterSource, hpolice]

/-- A packet that no contract matches and no meter judges is best effort (R67). -/
theorem State.police_unmetered {s : State} {h : Hdr} (len : Nat) (first pre : Bool) (hsl : h.sl ≤ 6) (hcontract : s.contractFor h = none)
    (hmeter : (s.adm.meters.get h.inst {}).peak = 0) :
    ∃ t, s.police h len first pre = (.send { h with colour := 0, deadline := 0 } 0, t) := by
  have hclass : ¬ h.sl = 7 := by omega
  have hpeak : ((s.adm.meters.get h.inst {}).refilled s.coreTime).peak = 0 := hmeter
  rw [State.police, if_neg hclass, hcontract]
  simp [State.policeMeter, hpeak]

@[simp] theorem State.endWait_obf (s : State) (i : Nat) (from_ : Option Nat) : (s.endWait i from_).obf = s.obf := by
  simp only [State.endWait]; split <;> simp

/-- Such a packet, which waits alone for peak tokens, goes on as best effort (R64, R67). -/
theorem exec_edgeWaitRelease_unmetered {s : State} {w : WaitPkt} (halone : s.obf.waiting = [w]) (hedge : w.edgeWait = true)
    (hsl : w.pkt.hdr.sl ≤ 6) (hmc : w.pkt.hdr.multicast = false) (hcontract : s.contractFor w.pkt.hdr = none)
    (hmeter : (s.adm.meters.get w.pkt.hdr.inst {}).peak = 0) :
    ∃ u : State, ∃ x : WaitPkt, Gives (exec (.edgeWaitRelease w.pkt.pid) s) u ∧ u.obf.waiting = [x] ∧ x.edgeWait = false ∧
      x.pkt.pid = w.pkt.pid ∧ x.pkt.hdr.colour = 0 := by
  have htake : takeFirst (fun x : WaitPkt => x.pkt.pid == w.pkt.pid && x.edgeWait) s.obf.waiting = some (w, []) := by
    simp [halone, takeFirst, hedge]
  obtain ⟨t, hpolice⟩ := State.police_unmetered (w.len) false w.preYellow hsl hcontract hmeter
  obtain ⟨x, hwait, hpid, hcolour, -, hfree⟩ := ((t.upObf fun b => { b with waiting := [] }).endWait w.pkt.hdr.inst w.waitFrom).inject_waiting
    (p := { w.pkt with hdr := { w.pkt.hdr with colour := 0, deadline := 0 } }) w.len w.input false none hmc
  refine ⟨_, x, gives_ends ?_, hwait.trans (by simp), hfree, hpid, hcolour⟩
  simp only [State.releaseEdge, htake, hpolice]

/-! ### The audit and the arbiters -/

/-- A pass of the audit ends (R116, R117, R119): what it finds is told by flags and sources, and the packets stay. -/
theorem State.auditPass_obf {s : State} (h : s.obf.audit.enabled = true) :
    let u := s.auditPass
    u.obf.audit.passDone = true ∧ u.obf.audit.passCount = (s.obf.audit.passCount + 1) % 65536 ∧
      u.obf.audit.residencyMs = s.obf.audit.nextResidencyMs ∧ u.obf.pkts = s.obf.pkts := by
  simp only [State.auditPass, h, Bool.not_true, Bool.false_eq_true, if_false]
  (repeat' split) <;> simp

theorem State.arbiter_upArb_self (s : State) (resource index : Nat) (f : Arb → Arb) :
    (s.upArb resource index f).arbiter resource index = f (s.arbiter resource index) := by
  simp [State.arbiter, State.upArb]

theorem State.arbiter_starve (s : State) (resource index requester : Nat) :
    (s.starve resource index requester).arbiter resource index =
      { s.arbiter resource index with
        starved := setFlag (s.arbiter resource index).starved requester, reached := addOnce (s.arbiter resource index).reached requester } := by
  simp [State.starve, State.arbiter, State.upArb]

/-! ### The statement -/

/-- Settles O17: a packet's way by what each stage does with a packet that is there alone, or that its output has chosen; what the
stages beside it find keeps the packets. -/
theorem switchEventsTakeEffect : Obligations.SwitchEventsTakeEffect := by
  refine ⟨?ingress, ?management, ?retry, ?admission, ?select, ?cutQueued, ?resume, ?matching, ?edge, ?audit, ?leaf, ?starve, ?cutBackground,
    ?cutReplayed⟩
  case ingress =>
    intro s input length rxVl p pre first hawake hrun hinput hhost hvalid hport hmc hcolour hsl hdest
    exact exec_packetIngress_here length rxVl pre first hawake hrun hinput hhost hvalid hport hmc hcolour hsl hdest
  case management =>
    intro s input length rxVl p pre first hrun hlow hhigh hsl hinst hmc
    exact exec_packetIngress_mgmt length rxVl pre first hrun hlow hhigh hsl hinst hmc
  case retry =>
    intro s w hrun hvalid halone houts hedge hbuilt hmc hdest
    exact ⟨_, _, gives_ends (if_pos hrun), State.retryRoute_here hvalid halone houts hedge hbuilt hmc hdest, rfl⟩
  case admission =>
    intro s w o vl hrun halone houts hedge hbuilt hmc hgreen hfree
    obtain ⟨t, b, htake, hwait, hpkts, hpkt, hout, hvl, hm, hs, hreserve⟩ := State.takeIn_of_reserve hgreen hfree
    refine ⟨_, b, gives_ends (if_pos hrun), ?_⟩
    rw [State.offer_alone halone houts hedge hbuilt hmc htake hpkts hpkt]
    simp only [State.account] at hreserve ⊢
    simp [State.moveTurns, hwait, halone, hpkts, hpkt, hout, hvl, hm, hs, hreserve]
  case select =>
    intro s o b hrun ho hsend hresume hreplays hreplaying hcut hinject hhead hout
    rw [State.mgmtHead_refillEgress] at hhead
    exact ⟨_, gives_ends (if_pos (by simp [hrun, ho])),
      State.selectOut_mgmt hsend hresume hreplays hreplaying hcut hinject hhead hout⟩
  case cutQueued =>
    intro s o progress f b c t hrun ho hsend hc hb hout hslot hlast hfirst hcut
    refine ⟨t.startSend c, gives_ends ?_, ?_⟩
    · rw [if_pos (by simp [hrun, ho])]
      exact State.cutFrame_of_sending hsend hc hb hslot hlast hfirst hcut
    · obtain ⟨hsent, hresume, -, -⟩ := t.startSend_egress c
      obtain ⟨hheld, -, -, -⟩ := State.sameHeld_cutter hcut
      have hpid : b.pkt.pid = f.pid := by
        have := List.find?_some hb
        simp_all
      subst hout
      refine ⟨hsent, ?_⟩
      rw [hresume, hheld]
      simp [State.holdFrame, hpid]
  case resume =>
    intro s o vl r hrun hfind hsend hcan
    refine ⟨s.resumeSend o vl, gives_ends ?_, ?_⟩
    · simp [hfind, hrun, hsend, hcan]
    · simp [State.resumeSend, hfind]
  case matching =>
    intro s b hrun halone hwritten hcells ha hb hcome hback
    exact exec_matching_alone hrun halone hwritten hcells ha hb hcome hback
  case edge =>
    intro s w halone hedge hsl hmc hcontract hmeter
    exact exec_edgeWaitRelease_unmetered halone hedge hsl hmc hcontract hmeter
  case audit =>
    intro s henabled
    exact ⟨s.auditPass, gives_ends rfl, State.auditPass_obf henabled⟩
  case leaf =>
    intro s queue l hfind hunbinding hbusy
    refine ⟨(s.unbindLeaf queue).finishWait (.leafUnbind queue) 0 0, gives_ends (by simp [hfind, hunbinding, hbusy]), ?_⟩
    simp [State.unbindLeaf]
  case starve =>
    intro s resource index requester now hresource hindex hrequester
    refine ⟨_, gives_ends (if_neg (by simp; omega)), ?_⟩
    cases now with
    | false => simp [State.arbiter_starve]
    | true => simp [State.arbiter_upArb_self, State.arbiter_starve, Arb.grant]
  case cutBackground =>
    intro s o progress n c t hrun ho hsend hreplaying hc hout hback hlast hcut
    refine ⟨t.startSend c, gives_ends ?_, ?_⟩
    · rw [if_pos (by simp [hrun, ho])]
      exact State.cutFrame_of_background hsend hreplaying hc hback hlast hcut
    · obtain ⟨hsent, -, hqueue, hgone⟩ := t.startSend_egress c
      obtain ⟨-, hheld, hnone, -⟩ := State.sameHeld_cutter hcut
      subst hout
      refine ⟨hsent, ?_, ?_⟩
      · rw [hgone, hnone]
        simp
      · rw [hqueue, hheld]
        simp
  case cutReplayed =>
    intro s o progress f c t hrun ho hsend hc hreplaying hframe hout hslot hlast hcut
    refine ⟨t.startSend c, gives_ends ?_, ?_⟩
    · rw [if_pos (by simp [hrun]; omega)]
      exact State.cutFrame_of_replaying hsend hc hreplaying hframe hslot hlast hcut
    · obtain ⟨hsent, -, -, -⟩ := t.startSend_egress c
      obtain ⟨-, -, -, hlnk⟩ := State.sameHeld_cutter hcut
      subst hout
      refine ⟨hsent, ?_⟩
      rw [State.startSend_replayCut, State.lport, hlnk]
      simp [State.holdReplay, State.upLport]

end Sys2Proof.Machine
end

section
/-! SUPPORT. The commands of the output buffer, of egress and of the arbiters: how a command runs whose chapter reads its own blocks, what
each body answers, how long each query's output is, and the statement about all of them. -/
namespace Sys2Proof.Machine

/-- A command whose body answers on every state that differs from this one in the record of commands alone. -/
theorem answers_taken {i : Instr} {code inLen outLen : Nat} {h : HlyHdr} {names : List Obj} {body : State → HRes} {s : State}
    {v : (Hly → Hly) → State} {result : Nat} (hr : s.runs h code inLen outLen names = true)
    (hb : ∀ f, body (s.upHly f) = .done (v f) 0 result []) :
    ∃ f, Answers (ends (runHly i code h inLen outLen names body s)) (v f) h code result := by
  obtain ⟨f, hf⟩ := s.fetchCmd_eq_upHly h
  exact ⟨f, answers_of hr (hf ▸ hb f) (Nat.zero_le _)⟩

/-- Values at their numbers of bytes are as many bytes as these numbers say together. -/
theorem outBytes_length (l : List (Nat × Nat)) : (outBytes l).length = (l.map Prod.fst).sum := by
  induction l with
  | nil => rfl
  | cons e l ih => simp [outBytes, bytesLE_length, ih]

/-! ### Buffer accounts (R106, R107) -/

@[simp] theorem State.upHly_account (s : State) (f : Hly → Hly) (a : Nat) : (s.upHly f).account a = s.account a := rfl

theorem State.account_upAccount (s : State) (b a : Nat) (f : Account → Account) :
    (s.upAccount b f).account a = if a = b then f (s.account b) else s.account a :=
  Tbl.get_upd ..

/-- Accounts set one after the other (R121). -/
def State.setAccounts (s : State) (l : List Nat) (minReserve : Nat) (alpha : Int) (mark : Nat) : State :=
  l.foldl (fun s b => s.upAccount b fun x => x.set_ minReserve alpha mark) s

/-- Each account of the list is set, and no other. -/
@[simp] theorem State.setAccounts_account (s : State) (l : List Nat) (minReserve : Nat) (alpha : Int) (mark a : Nat) :
    (s.setAccounts l minReserve alpha mark).account a =
      if a ∈ l then (s.account a).set_ minReserve alpha mark else s.account a := by
  simp only [State.setAccounts]
  induction l generalizing s with
  | nil => rfl
  | cons b l ih =>
    rw [List.foldl_cons, ih, State.account_upAccount]
    by_cases hab : a = b
    · subst hab
      by_cases hal : a ∈ l <;> simp [hal, Account.set_]
    · simp [hab]

@[simp] theorem State.setAccounts_pkts (s : State) (l : List Nat) (minReserve : Nat) (alpha : Int) (mark : Nat) :
    (s.setAccounts l minReserve alpha mark).obf.pkts = s.obf.pkts :=
  foldl_keeps (fun t => t.obf.pkts) (by simp [State.upAccount]) l s

/-- BUFFER_ACCOUNT_SET of the accounts that it names, one or all 236. -/
theorem bufferAccountSetBody_ok {s : State} {account minReserve alphaExp mark : Nat} {l : List Nat}
    (hl : (if account = 0x3FF then List.range 236 else [account]) = l) (haccount : account = 0x3FF ∨ account ≤ 235)
    (hmin : 34 ≤ minReserve) (hmax : minReserve ≤ 4096) (halpha : alphaExp ≤ 7) (halpha4 : alphaExp ≠ 4) (hmark : mark ≤ 1048575)
    (hsum : s.reserveAfter l minReserve + s.obf.poolSize ≤ 1048576) (hfits : s.reserveFits l minReserve = true) :
    bufferAccountSetBody account minReserve alphaExp mark s = .ok (s.setAccounts l minReserve (signed3 alphaExp) mark) := by
  have hnamed : account ≠ 0x3FF → account ≤ 235 := haccount.resolve_left
  rw [bufferAccountSetBody, hl]
  exact refuseIf_none _ _ (by simp [outside_eq_false, *])

/-! ### The contract pool and the audit (R106, R108, R116) -/

theorem bufferPoolSetBody_ok {s : State} {pool : Nat} (hmax : pool ≤ 1048575) (hsum : s.obf.sumReserve + pool ≤ 1048576)
    (hfree : pool ≤ s.obf.poolSize + s.sharedFree) (hheld : s.poolReserved ≤ pool) :
    bufferPoolSetBody pool s = .ok (s.upObf fun b => { b with poolSize := pool }) :=
  refuseIf_none _ _ (by simp [*])

theorem auditSetBody_ok (s : State) (enable : Bool) {ms : Nat} (hmin : 1 ≤ ms) (hmax : ms ≤ 50) :
    ∃ residencyMs passDone, auditSetBody enable ms s = .ok (s.upObf fun b => { b with
      audit := { b.audit with enabled := enable, nextResidencyMs := ms, residencyMs, passDone } }) :=
  ⟨_, _, refuseIf_none _ _ (by simp [outside_eq_false hmin hmax])⟩

/-- The bit of a reclaim that has run (R125). -/
def State.noteReclaim (s : State) : State := s.upObf fun b => { b with intStatus := setFlag b.intStatus 3 }

theorem bufferReclaimBody_unlisted {s : State} (queue : Nat) (hpass : s.obf.audit.passDone = true) :
    bufferReclaimBody 2 queue s = .done (s.upObf fun b => { b with unlisted := [] }).noteReclaim 0
      (packBits [(s.obf.unlisted.length, 21), (0, 21)]) [] :=
  refuseIf_none _ _ (by simp [hpass])

theorem State.reclaimOrphans_one {s : State} {c : Nat} {t : CellTag} (horphans : s.obf.audit.orphans = [(c, t)])
    (hcell : s.obf.cells.find c = some t) : s.reclaimOrphans = ((1, 0), s.upObf fun b => { b with cells := b.cells.del c }) := by
  simp [State.reclaimOrphans, horphans, hcell]

theorem bufferReclaimBody_orphan {s : State} {c : Nat} {t : CellTag} (queue : Nat) (hpass : s.obf.audit.passDone = true)
    (horphans : s.obf.audit.orphans = [(c, t)]) (hcell : s.obf.cells.find c = some t) :
    bufferReclaimBody 0 queue s = .done (s.upObf fun b => { b with cells := b.cells.del c }).noteReclaim 0 1 [] := by
  simp only [bufferReclaimBody, State.reclaimOrphans_one horphans hcell]
  exact refuseIf_none _ _ (by simp [hpass])

theorem bufferReclaimBody_noPkts {s : State} {queue : Nat} (hpass : s.obf.audit.passDone = true) (hqueue : queue < 0xFFFF)
    (hpkts : s.obf.pkts = []) : bufferReclaimBody 1 queue s = .done s.noteReclaim 0 0 [] := by
  simp only [bufferReclaimBody, State.reclaimQueue, hpkts]
  exact refuseIf_none _ _ (by simp [hpass, hqueue])

theorem State.bufferImage_length (s : State) (account : Nat) :
    (s.bufferImage account).length = if account = 0x3FF then 16 else 20 := by
  rw [State.bufferImage]
  split <;> simp [outBytes_length]

@[simp] theorem State.fetchCmd_bufferImage (s : State) (h : HlyHdr) (account : Nat) :
    (s.fetchCmd h).bufferImage account = s.bufferImage account := by
  obtain ⟨f, hf⟩ := s.fetchCmd_eq_upHly h
  rw [hf]; rfl

theorem exec_bufferQuery_answers {s : State} {h : HlyHdr} {account : Nat} (haccount : account = 0x3FF ∨ account ≤ 235)
    (hr : s.runs h 0x0605 0 (if account = 0x3FF then 16 else 20) [] = true) :
    Answers (exec (.bufferQuery h account) s) (s.fetchCmd h) h 0x0605 0 (s.bufferImage account) := by
  refine answers_of hr ?_ (s.bufferImage_length account ▸ runs_outLen_le hr)
  rw [← s.fetchCmd_bufferImage h]
  exact refuseIf_none _ _ (by simpa using haccount)

/-! ### Leaves and nodes of the yellow hierarchy (R130 to R134, R148 to R150) -/

theorem shaperBad_eq_false (cmW cmR cmB : Bool) {weight rate burst : Nat} (hlow : 1 ≤ weight) (hhigh : weight ≤ 255)
    (hrate : rate ≤ 3200000) (hmin : 4224 ≤ burst) (hmax : burst ≤ 16777216) : shaperBad cmW cmR cmB weight rate burst = false := by
  simp [shaperBad, outside_eq_false, *]

theorem egsLeafBindBody_ok {s : State} {output sl inst queue weight rate burst : Nat} (tokenReset : Bool) (houtput : output ≤ 35)
    (hsl : sl ≤ 6) (hinst : inst ≤ 1023) (hqueue : outside 0x0800 0xFFFE queue = false)
    (hshaper : shaperBad true true true weight rate burst = false) (hfree : s.egs.leaves.has queue = false)
    (hnone : (s.egs.leaves.any fun l => l.2.output == output && l.2.sl == sl && l.2.inst == inst) = false)
    (henabled : s.enabled inst = true) :
    egsLeafBindBody output sl inst queue weight rate burst tokenReset s = .ok (s.upEgs fun e => { e with
      leaves := e.leaves.put queue { output, sl, inst, child := { weight, shaper := {
        rate, burst, tokenReset, tokens := if tokenReset then 0 else (3200000 * burst : Nat), refillAt := s.coreTime } } } }) :=
  refuseIf_none _ _ (by simp only [hqueue, hshaper, hfree, hnone, henabled]; simp [*])

theorem egsLeafUnbindBody_idle {s : State} {queue : Nat} {l : Leaf} (hqueue : outside 0x0800 0xFFFE queue = false)
    (hfind : s.egs.leaves.find queue = some l) (hidle : s.queueBusy queue = false) :
    egsLeafUnbindBody queue s = .ok (s.unbindLeaf queue) := by
  simp [egsLeafUnbindBody, *]

theorem egsLeafUnbindBody_busy {s : State} {queue : Nat} {l : Leaf} (hqueue : outside 0x0800 0xFFFE queue = false)
    (hfind : s.egs.leaves.find queue = some l) (hbusy : s.queueBusy queue = true) :
    egsLeafUnbindBody queue s =
      .pend (s.upEgs fun e => { e with leaves := e.leaves.put queue { l with unbinding := true } }) (.leafUnbind queue) [.leaf queue] := by
  simp [egsLeafUnbindBody, *]

@[simp] theorem Shaper.refilled_rate (h : Shaper) (now : Nat) : (h.refilled now).rate = h.rate := by
  rw [Shaper.refilled]; split <;> rfl

@[simp] theorem Shaper.refilled_burst (h : Shaper) (now : Nat) : (h.refilled now).burst = h.burst := by
  rw [Shaper.refilled]; split <;> rfl

/-- A shaper that is set has the rate and the burst named, and keeps those not named. -/
theorem Shaper.set_figures (h : Shaper) (now : Nat) (rateTo burstTo : Option Nat) (resetTo : Option Bool) :
    (h.set_ now rateTo burstTo resetTo).rate = rateTo.getD h.rate ∧ (h.set_ now rateTo burstTo resetTo).burst = burstTo.getD h.burst := by
  simp only [Shaper.set_]
  split
  · simp
  · simp_all

theorem masked_getD {α : Type} (cm i : Nat) (new old : α) :
    ((if cmBit cm i then some new else none).getD old) = pick cm i new old := by
  rw [pick]; split <;> rfl

/-- A node has the figures whose bits of the change mask are set, and keeps the others (R150, R443). -/
theorem Child.set_figures (c : Child) (now cm weight rate burst : Nat) (tokenReset : Bool) :
    let d := c.set_ now cm weight rate burst tokenReset
    d.weight = pick cm 0 weight c.weight ∧ d.shaper.rate = pick cm 1 rate c.shaper.rate ∧
      d.shaper.burst = pick cm 2 burst c.shaper.burst := by
  obtain ⟨hrate, hburst⟩ := c.shaper.set_figures now (if cmBit cm 1 then some rate else none) (if cmBit cm 2 then some burst else none)
    (if cmBit cm 3 then some tokenReset else none)
  rw [masked_getD] at hrate hburst
  have hshaper : (if cmBit cm 0 then c.setWeight weight else c).shaper = c.shaper := by split <;> rfl
  simp only [Child.set_, hshaper]
  refine ⟨?_, hrate, hburst⟩
  rw [pick]; split <;> rfl

theorem egsNodeSetBody_leaf {s : State} {output queue cm weight rate burst : Nat} {l : Leaf} (sl : Nat) (tokenReset : Bool)
    (houtput : output ≤ 35) (hqueue : outside 0x0800 0xFFFE queue = false) (hfind : s.egs.leaves.find queue = some l)
    (hshaper : shaperBad (cmBit cm 0) (cmBit cm 1) (cmBit cm 2) weight rate burst = false) :
    egsNodeSetBody 0 output sl queue cm weight rate burst tokenReset s = .ok (s.upEgs fun e => { e with
      leaves := e.leaves.put queue { l with child := l.child.set_ s.coreTime cm weight rate burst tokenReset } }) := by
  have hhas : s.egs.leaves.has queue = true := by rw [Tbl.has, hfind]; rfl
  simp only [egsNodeSetBody]
  rw [if_neg (by decide), refuseIf_none]
  · simp [State.upEgs, hfind]
  · simp [*]

theorem egsNodeSetBody_svc (s : State) {output sl cm weight rate burst : Nat} (queue : Nat) (tokenReset : Bool) (houtput : output ≤ 35)
    (hsl : sl ≤ 6) (hshaper : shaperBad (cmBit cm 0) (cmBit cm 1) (cmBit cm 2) weight rate burst = false) :
    egsNodeSetBody 1 output sl queue cm weight rate burst tokenReset s = .ok (s.upEgs fun e => { e with
      svc := e.svc.upd (7 * output + sl) {} fun c => c.set_ s.coreTime cm weight rate burst tokenReset }) :=
  refuseIf_none _ _ (by simp [*])

theorem egsNodeSetBody_port (s : State) {output cm weight rate burst : Nat} (sl queue : Nat) (tokenReset : Bool) (houtput : output ≤ 35)
    (hshaper : shaperBad (cmBit cm 0) (cmBit cm 1) (cmBit cm 2) weight rate burst = false) :
    egsNodeSetBody 2 output sl queue cm weight rate burst tokenReset s = .ok (s.upEgs fun e => { e with
      port := e.port.upd output {} fun c => c.set_ s.coreTime cm weight rate burst tokenReset }) :=
  refuseIf_none _ _ (by simp [*])

theorem egsNodeSetBody_share {s : State} {output cm rate : Nat} (sl queue weight burst : Nat) (tokenReset : Bool) (houtput : output ≤ 35)
    (hmask : cmBit cm 1 = true) (hrate : rate ≤ 8) (hshare : output < 32 → (s.admPort output).fraction + 1 + rate ≤ 64) :
    egsNodeSetBody 3 output sl queue cm weight rate burst tokenReset s =
      .ok ((s.refillEgress output).upEgress output fun e => { e with unresShare := rate }) := by
  simp only [egsNodeSetBody, hmask]
  exact refuseIf_none _ _ (by simp [houtput, hrate]; omega)

theorem nodeImage_length (c : Child) (now queued resume : Nat) : (nodeImage c now queued resume).length = 28 := by
  simp [nodeImage, outBytes_length]

theorem egsQueryBody_data {s : State} {target output sl queue : Nat} (htarget : target ≤ 3) (houtput : output ≤ 35) (hsl : sl ≤ 6)
    (hleaf : target = 0 → 0x0800 ≤ queue ∧ queue ≤ 0xFFFE ∧ s.egs.leaves.has queue = true) :
    ∃ out, egsQueryBody target output sl queue s = .data s out ∧ out.length = 28 ∧
      (target = 2 → out = nodeImage (s.egs.port.get output {}) s.coreTime
        (s.cellsWhere fun b => b.output == output && isYellow b.pkt.hdr) (s.resumeHeld output)) := by
  obtain rfl | rfl | rfl | rfl : target = 0 ∨ target = 1 ∨ target = 2 ∨ target = 3 := by omega
  · obtain ⟨hlow, hhigh, hhas⟩ := hleaf rfl
    exact ⟨_, refuseIf_none _ _ (by simp [houtput, outside_eq_false hlow hhigh, hhas]), nodeImage_length .., nofun⟩
  · exact ⟨_, refuseIf_none _ _ (by simp [houtput, hsl]), nodeImage_length .., nofun⟩
  · exact ⟨_, refuseIf_none _ _ (by simp [houtput]), nodeImage_length .., fun _ => rfl⟩
  · exact ⟨_, refuseIf_none _ _ (by simp [houtput]), by simp [outBytes_length], nofun⟩

/-! ### Arbiters (R142, R148) -/

theorem arbCount_le (resource : Nat) : arbCount resource ≤ 64 := by
  unfold arbCount; split <;> decide

/-- An arbiter changed by ARB_SET (R148). -/
def Arb.set_ (a : Arb) (cm : Nat) (compat : Bool) (thr requester weight : Nat) : Arb :=
  { a with
    compat := pick cm 0 compat a.compat
    thresholdExp := pick cm 1 thr a.thresholdExp
    weights := if cmBit cm 2 then a.weights.put requester weight else a.weights }

theorem arbSetBody_ok {s : State} {resource index cm thr requester weight : Nat} {compat : Bool} (hresource : resource ≤ 3)
    (hindex : index < arbCount resource) (hlow : 10 ≤ thr) (hhigh : thr ≤ 24) (hweight : 1 ≤ weight) (hmax : weight ≤ 255)
    (hrequester : requester < arbRequesters resource)
    (hfigure : resource = 0 → cmBit cm 0 = true → compat = true → (s.arbiter 0 index).compat = true ∨ s.controlFigure index = false) :
    arbSetBody resource index cm compat thr requester weight s =
      .ok (s.upArb resource index fun a => a.set_ cm compat thr requester weight) := by
  have hone : index ≠ 0xFF := by have := arbCount_le resource; omega
  have hclear : (resource = 0 && cmBit cm 0 && compat && (!(s.arbiter 0 index).compat && s.controlFigure index)) = false := by
    by_contra hset
    simp only [Bool.not_eq_false, Bool.and_eq_true, decide_eq_true_eq, Bool.not_eq_true'] at hset
    obtain ⟨⟨⟨hzero, hmask⟩, hcompat⟩, hoff, hon⟩ := hset
    simpa [hoff, hon] using hfigure hzero hmask hcompat
  simp only [arbSetBody, if_neg hone]
  exact refuseIf_none _ _ (by simp only [List.any_cons, List.any_nil, Bool.or_false, hclear]; simp [outside_eq_false, *])

@[simp] theorem State.fetchCmd_arbImage (s : State) (h : HlyHdr) (resource index : Nat) :
    (s.fetchCmd h).arbImage resource index = s.arbImage resource index := by
  obtain ⟨f, hf⟩ := s.fetchCmd_eq_upHly h
  rw [hf]; rfl

theorem State.arbImage_length (s : State) (resource index : Nat) : (s.arbImage resource index).length = 32 := by
  simp [State.arbImage, outBytes_length, Function.comp_def]

theorem exec_arbQuery_answers {s : State} {h : HlyHdr} {resource index : Nat} (hr : s.runs h 0x060B 0 32 [] = true) (hresource : resource ≤ 3)
    (hindex : index < arbCount resource) :
    Answers (exec (.arbQuery h resource index) s) (s.fetchCmd h) h 0x060B 0 (s.arbImage resource index) := by
  refine answers_of hr ?_ (s.arbImage_length resource index ▸ runs_outLen_le hr)
  rw [← s.fetchCmd_arbImage h]
  exact refuseIf_none _ _ (by simp [hresource, hindex])

/-! ### The statement -/

/-- Settles O16: each command by what its body answers on the state whose descriptor has been taken. -/
theorem switchCommandsComplete : Obligations.SwitchCommandsComplete := by
  refine ⟨?account, ?allAccounts, ?pool, ?audit, ?unlisted, ?orphan, ?noPkts, ?query, ?queryAll, ?bind, ?unbind, ?unbindWaits, ?node, ?leaf,
    ?share, ?nodeQuery, ?arb, ?arbQuery⟩
  case account =>
    intro s h account minReserve alphaExp mark hr haccount hmin hmax halpha halpha4 hmark hsum hfits
    obtain ⟨f, hans⟩ := answers_taken hr (fun f => bufferAccountSetBody_ok (s := s.upHly f) (if_neg (by omega)) (.inr haccount) hmin hmax
      halpha halpha4 hmark hsum hfits)
    refine ⟨_, hans, ?_⟩
    simp +contextual [Account.set_]
  case allAccounts =>
    intro s h minReserve alphaExp mark hr hmin hmax halpha halpha4 hmark hsum hfits
    obtain ⟨f, hans⟩ := answers_taken hr (fun f => bufferAccountSetBody_ok (s := s.upHly f) (if_pos rfl) (.inl rfl) hmin hmax
      halpha halpha4 hmark hsum hfits)
    refine ⟨_, hans, ?_⟩
    simp +contextual [Account.set_]
  case pool =>
    intro s h pool hr hmax hsum hfree hheld
    obtain ⟨f, hans⟩ := answers_taken hr (fun f => bufferPoolSetBody_ok (s := s.upHly f) hmax hsum hfree hheld)
    exact ⟨_, hans, rfl, rfl⟩
  case audit =>
    intro s h enable ms hr hmin hmax
    obtain ⟨residencyMs, passDone, hb⟩ := auditSetBody_ok (s.fetchCmd h) enable hmin hmax
    exact ⟨_, answers_of hr hb (Nat.zero_le _), rfl, rfl, by simp⟩
  case unlisted =>
    intro s h queue hr hpass
    obtain ⟨f, hans⟩ := answers_taken (result := packBits [(s.obf.unlisted.length, 21), (0, 21)]) hr fun f =>
      bufferReclaimBody_unlisted (s := s.upHly f) queue hpass
    exact ⟨_, hans, rfl, rfl, rfl⟩
  case orphan =>
    intro s h queue c t hr hpass horphans hcell
    obtain ⟨f, hans⟩ := answers_taken hr (fun f => bufferReclaimBody_orphan (s := s.upHly f) queue hpass horphans hcell)
    exact ⟨_, hans, by simp [State.noteReclaim], rfl⟩
  case noPkts =>
    intro s h queue hr hpass hqueue hpkts
    obtain ⟨f, hans⟩ := answers_taken hr (fun f => bufferReclaimBody_noPkts (s := s.upHly f) hpass hqueue hpkts)
    exact ⟨_, hans, rfl⟩
  case query =>
    intro s h account haccount hr
    have hone : account ≠ 0x3FF := by omega
    exact ⟨exec_bufferQuery_answers (.inr haccount) (by rwa [if_neg hone]), by rw [State.bufferImage_length, if_neg hone]⟩
  case queryAll =>
    intro s h hr
    exact ⟨exec_bufferQuery_answers (.inl rfl) hr, s.bufferImage_length 0x3FF⟩
  case bind =>
    intro s h output sl inst queue weight rate burst tokenReset hr houtput hsl hinst hlow hhigh hw hw' hrate hb hb' hfree hnone henabled
    have hshaper := shaperBad_eq_false true true true hw hw' hrate hb hb'
    obtain ⟨f, hans⟩ := answers_taken hr (fun f => egsLeafBindBody_ok (s := s.upHly f) tokenReset houtput hsl hinst
      (outside_eq_false hlow hhigh) hshaper hfree hnone henabled)
    exact ⟨_, hans, by simp⟩
  case unbind =>
    intro s h queue l hr hlow hhigh hfind hidle
    obtain ⟨f, hans⟩ := answers_taken hr (fun f => egsLeafUnbindBody_idle (s := s.upHly f) (outside_eq_false hlow hhigh) hfind hidle)
    exact ⟨_, hans, by simp [State.unbindLeaf]⟩
  case unbindWaits =>
    intro s h queue l hr hlow hhigh hfind hbusy
    obtain ⟨f, hf⟩ := s.fetchCmd_eq_upHly h
    have hb := egsLeafUnbindBody_busy (s := s.upHly f) (outside_eq_false hlow hhigh) hfind hbusy
    rw [← hf] at hb
    exact ⟨_, starts_of hr hb, by simp⟩
  case node =>
    intro s h target output sl queue cm weight rate burst tokenReset htarget hr houtput hsl hw hw' hrate hb hb'
    have hshaper := shaperBad_eq_false (cmBit cm 0) (cmBit cm 1) (cmBit cm 2) hw hw' hrate hb hb'
    obtain rfl | rfl := htarget
    · refine ⟨_, answers_of hr (egsNodeSetBody_svc (s.fetchCmd h) queue tokenReset houtput hsl hshaper) (Nat.zero_le _), ?_⟩
      simp [Child.set_figures]
    · refine ⟨_, answers_of hr (egsNodeSetBody_port (s.fetchCmd h) sl queue tokenReset houtput hshaper) (Nat.zero_le _), ?_⟩
      simp [Child.set_figures]
  case leaf =>
    intro s h output sl queue cm weight rate burst tokenReset l hr houtput hlow hhigh hfind hw hw' hrate hb hb'
    have hshaper := shaperBad_eq_false (cmBit cm 0) (cmBit cm 1) (cmBit cm 2) hw hw' hrate hb hb'
    obtain ⟨f, hans⟩ := answers_taken hr (fun f => egsNodeSetBody_leaf (s := s.upHly f) sl tokenReset houtput (outside_eq_false hlow hhigh)
      hfind hshaper)
    exact ⟨_, hans, by simp [Child.set_figures]⟩
  case share =>
    intro s h output sl queue cm weight rate burst tokenReset hr houtput hmask hrate hshare
    obtain ⟨f, hans⟩ := answers_taken hr (fun f => egsNodeSetBody_share (s := s.upHly f) sl queue weight burst tokenReset houtput hmask
      hrate hshare)
    exact ⟨_, hans, by simp, rfl⟩
  case nodeQuery =>
    intro s h target output sl queue hr htarget houtput hsl hleaf
    obtain ⟨f, hf⟩ := s.fetchCmd_eq_upHly h
    obtain ⟨out, hb, hlen, himage⟩ := egsQueryBody_data (s := s.upHly f) htarget houtput hsl hleaf
    rw [← hf] at hb
    exact ⟨out, answers_of hr hb (hlen ▸ runs_outLen_le hr), hlen, himage⟩
  case arb =>
    intro s h resource index cm compat thr requester weight hr hresource hindex hlow hhigh hweight hmax hrequester hfigure
    obtain ⟨f, hans⟩ := answers_taken hr (fun f => arbSetBody_ok (s := s.upHly f) hresource hindex hlow hhigh hweight hmax hrequester
      hfigure)
    refine ⟨_, hans, ?_⟩
    rw [State.arbiter_upArb_self]
    exact ⟨rfl, rfl, by simp +contextual [Arb.set_], rfl⟩
  case arbQuery =>
    intro s h resource index hr hresource hindex
    exact ⟨exec_arbQuery_answers hr hresource hindex, s.arbImage_length resource index⟩

end Sys2Proof.Machine
end

section
/-! SUPPORT. The commands of routing, of multicast trees, of discovery and of device IDs: what each leaves of the banks and the tables, what each
body answers, and the statement about all of them. -/
namespace Sys2Proof.Machine

/-! ### Banks and tables (R161) -/

theorem State.inactiveBank_ne (s : State) : s.inactiveBank ≠ s.activeBank := by
  rw [State.inactiveBank, State.activeBank]; split <;> decide

theorem State.one_sub_inactiveBank (s : State) : 1 - s.inactiveBank = s.activeBank := by
  rw [State.inactiveBank, State.activeBank]; split <;> decide

/-- The two banks are numbered 0 and 1. -/
theorem State.activeBank_le (s : State) : s.activeBank ≤ 1 := by
  rw [State.activeBank]; split <;> decide

theorem State.inactiveBank_le (s : State) : s.inactiveBank ≤ 1 := Nat.sub_le ..

/-- A bank that is changed reads as changed. -/
@[simp] theorem State.bank_upBank_self (s : State) (b : Nat) (f : Bank → Bank) : (s.upBank b f).bank b = f (s.bank b) := by
  by_cases hb : b = 0 <;> simp [State.bank, State.upBank, hb]

/-- A change of one bank leaves the other. -/
theorem State.bank_upBank_other {s : State} {b c : Nat} (f : Bank → Bank) (hb : b ≤ 1) (hc : c ≤ 1) (hne : c ≠ b) :
    (s.upBank b f).bank c = s.bank c := by
  obtain ⟨rfl, rfl⟩ | ⟨rfl, rfl⟩ : (b = 0 ∧ c = 1) ∨ (b = 1 ∧ c = 0) := by omega
  all_goals rfl

@[simp] theorem State.upBank_tables (s : State) (b : Nat) (f : Bank → Bank) : (s.upBank b f).rte.tables = s.rte.tables := by
  simp only [State.upBank, State.upRte_rte]; split <;> rfl

@[simp] theorem State.upBank_routeTables (s : State) (b tile c : Nat) (f : Bank → Bank) :
    (s.upBank b f).routeTables tile c = s.routeTables tile c := by
  simp [State.routeTables]

@[simp] theorem State.upTables_bank (s : State) (tile b c : Nat) (f : RouteTables → RouteTables) : (s.upTables tile b f).bank c = s.bank c :=
  rfl

@[simp] theorem State.routeTables_upTables_self (s : State) (tile b : Nat) (f : RouteTables → RouteTables) :
    (s.upTables tile b f).routeTables tile b = f (s.routeTables tile b) := by
  simp [State.routeTables, State.upTables]

theorem State.routeTables_upTables_other {s : State} {tile b c : Nat} (f : RouteTables → RouteTables) (hne : c ≠ b) :
    (s.upTables tile b f).routeTables tile c = s.routeTables tile c := by
  simp [State.routeTables, State.upTables, Tbl.get_upd, hne]

/-! ### ROUTE_WRITE (R172, R194, R195) -/

/-- The bit of one tile names that tile alone. -/
theorem filter_testBit_pow {tile : Nat} (htile : tile ≤ 3) : (List.range 4).filter (2 ^ tile).testBit = [tile] := by
  revert tile; decide

/-- The tables of a tile's inactive bank written, which marks the bank (R172). -/
def State.written (s : State) (tile : Nat) (f : RouteTables → RouteTables) : State :=
  (s.upTables tile s.inactiveBank f).upBank s.inactiveBank fun x => { x with state := .written, tag := (s.activeEpoch + 1) % 4 }

/-- What ROUTE_WRITE of one tile's group table answers, in either mode, where no check refuses it. -/
theorem routeWriteBody_oneTile {s : State} {tile mode first count : Nat} {masks : List Nat} (htile : tile ≤ 3) (hmode : mode ≤ 1)
    (hcount : 1 ≤ count) (hcount64 : count ≤ 64) (hfits : first + count ≤ 1024)
    (hmasks : mode = 0 → ∀ i, i < count → s.maskOk 0 (masks.getD i 0) = true) (hold : (s.bank s.inactiveBank).state ≠ .old) :
    routeWriteBody (2 ^ tile) mode 0 first count masks s = .ok (s.written tile fun t =>
      if mode = 1 then s.routeTables tile s.activeBank
      else { t with group := writeMasks t.group first ((List.range count).map fun i => masks.getD i 0) }) := by
  have hnamed : 2 ^ tile % 16 ≠ 0 ∧ 2 ^ tile ≤ 15 := by revert tile; decide
  rw [routeWriteBody, refuseIf_none]
  · simp only [filter_testBit_pow htile, List.foldl_cons, List.foldl_nil, State.written]
    split <;> rfl
  · have hgood : (mode = 0 && ((List.range count).map fun i => masks.getD i 0).any fun m => !s.maskOk 0 m) = false := by
      by_cases hzero : mode = 0 <;> simp_all
    simp only [List.all_cons, hgood]
    simp [hnamed, outside_eq_false hcount hcount64, hold]
    omega

theorem State.written_group_self (s : State) (tile first : Nat) (m : Nat) :
    ((s.written tile fun t => { t with group := writeMasks t.group first [m] }).routeTables tile s.inactiveBank).group.get first 0 =
      BitVec.ofNat 32 m := by
  simp [State.written, writeMasks]

/-- The inactive bank is written, with the tag that follows the active one (R172). -/
theorem State.written_bank (s : State) (tile : Nat) (f : RouteTables → RouteTables) :
    (s.written tile f).bank s.inactiveBank = { state := .written, tag := (s.activeEpoch + 1) % 4 } := by
  simp [State.written]

theorem State.written_routeTables (s : State) (tile : Nat) (f : RouteTables → RouteTables) :
    (s.written tile f).routeTables tile s.inactiveBank = f (s.routeTables tile s.inactiveBank) := by
  simp [State.written]

/-- The active bank routes as before (R172). -/
theorem State.written_active (s : State) (tile : Nat) (f : RouteTables → RouteTables) :
    (s.written tile f).routeTables tile s.activeBank = s.routeTables tile s.activeBank ∧
      (s.written tile f).bank s.activeBank = s.bank s.activeBank := by
  have hne := s.inactiveBank_ne.symm
  simp [State.written, State.routeTables_upTables_other f hne, State.bank_upBank_other _ s.inactiveBank_le s.activeBank_le hne]

/-- ROUTE_WRITE of one entry of a tile's group table. -/
theorem routeWriteBody_entry {s : State} {tile first m : Nat} (htile : tile ≤ 3) (hfirst : first ≤ 1023) (hmask : s.maskOk 0 m = true)
    (hold : (s.bank s.inactiveBank).state ≠ .old) :
    routeWriteBody (2 ^ tile) 0 0 first 1 [m] s = .ok (s.written tile fun t => { t with group := writeMasks t.group first [m] }) := by
  refine routeWriteBody_oneTile htile (by decide) (by decide) (by decide) (by omega) (fun _ i hi => ?_) hold
  obtain rfl : i = 0 := by omega
  exact hmask

/-- ROUTE_WRITE that copies a tile's active tables. -/
theorem routeWriteBody_copy {s : State} {tile first : Nat} (masks : List Nat) (htile : tile ≤ 3) (hfirst : first ≤ 960)
    (hold : (s.bank s.inactiveBank).state ≠ .old) :
    routeWriteBody (2 ^ tile) 1 0 first 64 masks s = .ok (s.written tile fun _ => s.routeTables tile s.activeBank) :=
  routeWriteBody_oneTile htile (by decide) (by decide) (by decide) (by omega) nofun hold

/-! ### ROUTE_EPOCH_ADVANCE and ROUTE_EPOCH_RETIRE (R172 to R174) -/

/-- The written bank becomes active, and the active one old (R173). -/
def State.advanced (s : State) : State :=
  (s.upBank s.activeBank fun x => { x with state := .old }).upBank s.inactiveBank fun x => { x with state := .active }

theorem State.advanced_banks (s : State) :
    (s.advanced.bank s.inactiveBank).state = .active ∧ (s.advanced.bank s.activeBank).state = .old ∧
      s.advanced.rte.tables = s.rte.tables := by
  simp [State.advanced, State.bank_upBank_other _ s.inactiveBank_le s.activeBank_le s.inactiveBank_ne.symm]

theorem routeEpochAdvanceBody_ok {s : State} (hwritten : (s.bank s.inactiveBank).state = .written) :
    routeEpochAdvanceBody ((s.activeEpoch + 1) % 4) s = .ok (if s.advanced.oldCount = 0 then
      s.advanced.upRte fun r => { r with intStatus := setFlag r.intStatus 1 } else s.advanced) := by
  rw [routeEpochAdvanceBody, refuseIf_none _ _ (by simp [hwritten]), s.one_sub_inactiveBank]
  rfl

theorem routeEpochRetireBody_ok {s : State} (hold : (s.bank s.inactiveBank).state = .old) (hcount : s.oldCount = 0) :
    routeEpochRetireBody s = .ok (s.upBank s.inactiveBank fun x => { x with state := .empty }) :=
  refuseIf_none _ _ (by simp [hold, hcount])

/-! ### Ports, contracts and endpoints (R160, R166) -/

theorem routePortSetBody_ok {s : State} {port kind group member : Nat} (up : Bool) (hport : port ≤ 31) (hkind : kind ≤ 2)
    (hgroup : group ≤ 1023) (hmember : member ≤ 63) (hnative : s.isNative port = true) :
    routePortSetBody port kind group member up s =
      .ok (s.upRte fun r => { r with ports := r.ports.upd port {} fun x => { x with kind, up, group, member } }) :=
  refuseIf_none _ _ (by simp [*])

theorem contractRouteSetBody_ok {s : State} {contractId mode count : Nat} {groups : List Nat} {c : Contract} (hmode : mode ≤ 1)
    (hlow : 1 ≤ count) (hhigh : count ≤ 4) (hgroups : ∀ g ∈ groups, g ≤ 1023) (hfind : s.adm.contracts.find contractId = some c) :
    contractRouteSetBody contractId mode count groups s = .ok (s.upAdm fun a => { a with
      contracts := a.contracts.put contractId { c with routeMode := mode, routeGroups := groups.take count } }) := by
  have hrange : ((groups.take count).any fun g => decide (1023 < g)) = false := by
    simpa using fun g hg => hgroups g (List.mem_of_mem_take hg)
  simp only [contractRouteSetBody, hfind, Tbl.has, hrange]
  exact refuseIf_none _ _ (by simp [outside_eq_false hlow hhigh, hmode])

theorem routeEndpointSetBody_local (s : State) {endpoint destination : Nat} (hlow : 1 ≤ endpoint) (hhigh : endpoint ≤ 15)
    (hout : 32 ≤ destination) (hout' : destination ≤ 35) :
    routeEndpointSetBody endpoint 1 destination s =
      .ok (s.upRte fun r => { r with endpoints := r.endpoints.put endpoint (.localOutput destination) }) :=
  refuseIf_none _ _ (by simp [outside_eq_false, *])

theorem routeEndpointSetBody_hostLink {s : State} {endpoint destination : Nat} (hlow : 1 ≤ endpoint) (hhigh : endpoint ≤ 15)
    (hlink : s.namesHostLink destination = true) :
    routeEndpointSetBody endpoint 2 destination s =
      .ok (s.upRte fun r => { r with endpoints := r.endpoints.put endpoint (.hostLink destination) }) :=
  refuseIf_none _ _ (by simp [outside_eq_false, *])

/-! ### Trees (R185 to R190) -/

/-- A branch marked as fenced is fenced (R185). -/
theorem getLsbD_or_shiftOne {w : Nat} (v : BitVec w) {b : Nat} (hb : b < w) : (v ||| (1#w <<< b)).getLsbD b = true := by
  simp [hb]

@[simp] theorem State.tree_putTree (s : State) (tree : Nat) (t : Tree) :
    (s.upRte fun r => { r with trees := r.trees.put tree t }).tree tree = some t :=
  Tbl.find_put_self ..

/-- While every operation of a tree waits for a branch, none ends (R188). -/
theorem State.tree_mcSettle {s : State} {tree : Nat} {t : Tree} (hfind : s.tree tree = some t)
    (hwait : ∀ o ∈ t.ops, o.awaiting ≠ []) : (s.mcSettle tree).tree tree = some t := by
  have hended : t.ops.filter (fun o => o.awaiting.isEmpty) = [] := by simpa using hwait
  have hkept : t.ops.filter (fun o => !o.awaiting.isEmpty) = t.ops := by simpa using hwait
  simp [State.mcSettle, hfind, hended, hkept]

/-- With no operation under way, to fence a branch marks it and does no more (R189). -/
theorem State.tree_fenceBranch {s : State} {tree : Nat} (b : Nat) {t : Tree} (hfind : s.tree tree = some t) (hops : t.ops = []) :
    (s.fenceBranch tree b).tree tree = some { t with fenced := t.fenced ||| (1#33 <<< b) } := by
  rw [State.fenceBranch, hfind]
  exact (State.tree_mcSettle (State.tree_putTree ..) (by simp [hops])).trans (by simp [hops])

theorem treeInstallBody_ok {s : State} {tree upstream branches : Nat} {leaves : List Nat} (delivery : Delivery) (htree : tree ≤ 8191)
    (hup : upstream ≤ 31 ∨ upstream = 0x3F) (hsum : sumOf leaves id ≤ 65535) (hports : ∀ p ∈ portsOf branches, s.isNative p = true)
    (hnone : s.tree tree = none) :
    treeInstallBody tree true upstream branches delivery leaves s = .ok (s.upRte fun r => { r with trees := r.trees.put tree {
      upstream, branches := BitVec.ofNat 32 branches, loc := delivery.here, localEndpoint := delivery.endpoint
      leaves := (leaves.zip (List.range 33)).foldl (fun (t : Tbl Nat) e => if e.1 = 0 then t else t.put e.2 e.1) [] } }) := by
  have hlink : upstream ≤ 31 ∨ upstream = 63 := hup
  have hnative : ((portsOf branches).any fun p => !s.isNative p) = false := by simpa using hports
  refine refuseIf_none _ _ ?_
  simp only [List.all_cons, hnative, hnone]
  simp [htree, hsum]
  omega

theorem treeFenceBody_ok {s : State} {tree branch : Nat} {t : Tree} (htree : tree ≤ 8191) (hbranch : branch ≤ 31)
    (hfind : s.tree tree = some t) : treeFenceBody 0 tree branch s = .ok (s.fenceBranch tree branch) := by
  have hport : branch ≠ 0x3F := by omega
  rw [treeFenceBody, if_neg hport]
  exact refuseIf_none _ _ (by simp [htree, hbranch, hfind])

/-! ### Discovery and device IDs (R193, R595) -/

theorem State.discoverPort_length (s : State) (p : Nat) : (s.discoverPort p).length = 16 := by
  simp [State.discoverPort, outBytes_length]

theorem State.discoverImage_length (s : State) : s.discoverImage.length = 528 := by
  simp [State.discoverImage, outBytes_length, List.length_flatMap, State.discoverPort_length]

@[simp] theorem State.fetchCmd_discoverImage (s : State) (h : HlyHdr) : (s.fetchCmd h).discoverImage = s.discoverImage := by
  obtain ⟨f, hf⟩ := s.fetchCmd_eq_upHly h
  rw [hf]; rfl

/-- ID_ASSIGN to a device without an ID, or forced on one that has nothing installed (R193). -/
theorem idAssignBody_ok {s : State} (deviceId : Nat) {force : Bool} (hfree : s.rte.valid = false ∨ (force = true ∧
    s.adm.contracts = [] ∧ s.adm.resvs = [] ∧ s.trn.sends = [] ∧ s.trn.recvs = [])) :
    idAssignBody deviceId force s = .ok (s.upRte fun r => { r with deviceId := deviceId % 65536, valid := true }) := by
  rw [idAssignBody]
  rcases hfree with hnone | ⟨hforce, hcontracts, hresvs, hsends, hrecvs⟩
  · exact refuseIf_none _ _ (by simp [hnone])
  · exact refuseIf_none _ _ (by simp [*])

/-! ### The statement -/

/-- Settles O12: each command by what its body answers on the state whose descriptor has been taken. -/
theorem routingCommandsComplete : Obligations.RoutingCommandsComplete := by
  refine ⟨?write, ?copy, ?advance, ?retire, ?port, ?policy, ?contract, ?localOutput, ?hostLink, ?install, ?remove, ?removeWaits, ?fence,
    ?hold, ?discover, ?assign⟩
  case write =>
    intro s h tile first m htile hfirst hr hmask hold
    obtain ⟨f, hans⟩ := answers_taken hr (fun f => routeWriteBody_entry (s := s.upHly f) htile hfirst hmask hold)
    obtain ⟨htables, hbank⟩ := (s.upHly f).written_active tile fun t => { t with group := writeMasks t.group first [m] }
    exact ⟨_, hans, State.written_group_self .., congrArg Bank.state (State.written_bank ..), congrArg Bank.tag (State.written_bank ..),
      htables, hbank⟩
  case copy =>
    intro s h tile first masks htile hfirst hr hold
    obtain ⟨f, hans⟩ := answers_taken hr (fun f => routeWriteBody_copy (s := s.upHly f) masks htile hfirst hold)
    exact ⟨_, hans, State.written_routeTables .., congrArg Bank.state (State.written_bank ..)⟩
  case advance =>
    intro s h hr hwritten
    obtain ⟨f, hans⟩ := answers_taken (body := routeEpochAdvanceBody ((s.activeEpoch + 1) % 4)) hr
      (fun f => routeEpochAdvanceBody_ok (s := s.upHly f) hwritten)
    refine ⟨_, hans, ?_⟩
    split
    · exact (s.upHly f).advanced_banks
    · exact (s.upHly f).advanced_banks
  case retire =>
    intro s h hr hold hcount
    obtain ⟨f, hans⟩ := answers_taken hr (fun f => routeEpochRetireBody_ok (s := s.upHly f) hold hcount)
    exact ⟨_, hans, congrArg Bank.state (State.bank_upBank_self ..),
      State.bank_upBank_other _ s.inactiveBank_le s.activeBank_le s.inactiveBank_ne.symm⟩
  case port =>
    intro s h port kind group member up hr hport hkind hgroup hmember hnative
    obtain ⟨f, hans⟩ := answers_taken hr (fun f => routePortSetBody_ok (s := s.upHly f) up hport hkind hgroup hmember hnative)
    refine ⟨_, hans, ?_⟩
    simp +contextual [State.rport, Tbl.get_upd]
  case policy =>
    intro s h sl mode bias hr hsl hmode hbias
    obtain ⟨f, hans⟩ : ∃ f, Answers (exec (.routePolicySet h sl mode bias) s)
        ((s.upHly f).upRte fun r => { r with policies := r.policies.put sl { mode, bias } }) h 0x0405 :=
      answers_taken hr fun f => refuseIf_none _ _ (by simp [hsl, hmode, hbias])
    exact ⟨_, hans, by simp, by simp⟩
  case contract =>
    intro s h contractId mode count groups c hr hmode hlow hhigh hgroups hfind
    obtain ⟨f, hans⟩ := answers_taken hr (fun f => contractRouteSetBody_ok (s := s.upHly f) hmode hlow hhigh hgroups hfind)
    exact ⟨_, hans, by simp⟩
  case localOutput =>
    intro s h endpoint destination hr hlow hhigh hout hout'
    obtain ⟨f, hans⟩ := answers_taken hr (fun f => routeEndpointSetBody_local (s.upHly f) hlow hhigh hout hout')
    exact ⟨_, hans, by simp⟩
  case hostLink =>
    intro s h endpoint destination hr hlow hhigh hlink
    obtain ⟨f, hans⟩ := answers_taken hr (fun f => routeEndpointSetBody_hostLink (s := s.upHly f) hlow hhigh hlink)
    exact ⟨_, hans, by simp⟩
  case install =>
    intro s h tree upstream branches delivery leaves hr htree hup hsum hports hnone
    obtain ⟨f, hans⟩ := answers_taken hr (fun f => treeInstallBody_ok (s := s.upHly f) delivery htree hup hsum hports hnone)
    exact ⟨_, hans, by simp [State.tree]⟩
  case remove =>
    intro s h tree t hr hfind hpending
    have hb (f : Hly → Hly) : treeRemoveBody tree (s.upHly f) = .ok ((s.upHly f).dropTree tree) := by
      rw [treeRemoveBody, show (s.upHly f).tree tree = some t from hfind]
      exact if_neg (ne_true_of_eq_false hpending)
    obtain ⟨f, hans⟩ := answers_taken hr hb
    exact ⟨_, hans, by simp [State.dropTree, State.tree]⟩
  case removeWaits =>
    intro s h tree t hr hfind hpending
    obtain ⟨f, hf⟩ := s.fetchCmd_eq_upHly h
    have hb : treeRemoveBody tree (s.upHly f) = .pend ((s.upHly f).upRte fun r => { r with
        trees := r.trees.put tree { t with removing := true } }) (.treeRemove tree) [.tree tree] := by
      rw [treeRemoveBody, show (s.upHly f).tree tree = some t from hfind]
      exact if_pos hpending
    exact ⟨_, starts_of hr (hf ▸ hb), by simp [State.tree]⟩
  case fence =>
    intro s h tree branch t hr htree hbranch hfind hops
    obtain ⟨f, hans⟩ := answers_taken hr (fun f => treeFenceBody_ok (s := s.upHly f) htree hbranch hfind)
    refine ⟨_, hans, ?_⟩
    rw [State.tree_fenceBranch (s := s.upHly f) branch hfind hops]
    exact congrArg some (getLsbD_or_shiftOne _ (by omega))
  case hold =>
    intro s h quota hr hquota
    obtain ⟨f, hans⟩ : ∃ f, Answers (exec (.holdSet h quota) s) ((s.upHly f).upRte fun r => { r with quota }) h 0x040B :=
      answers_taken hr fun f => refuseIf_none _ _ (by simp [hquota])
    exact ⟨_, hans, by simp, by simp⟩
  case discover =>
    intro s h hr
    exact ⟨answers_of hr (by simp) (s.discoverImage_length ▸ runs_outLen_le hr), s.discoverImage_length⟩
  case assign =>
    intro s h deviceId force hr hfree
    obtain ⟨f, hans⟩ := answers_taken hr (fun f => idAssignBody_ok (s := s.upHly f) deviceId hfree)
    exact ⟨_, hans, by simp, by simp⟩

end Sys2Proof.Machine
end

section
/-! SUPPORT. The routing block after a reset: what a reboot leaves to be done at its end, what first calibration and the switching-off of the
channels keep of that, and the statement about every reset. -/
namespace Sys2Proof.Machine

/-! ### A step that ends with the routing block of a reset -/

/-- The values that a reset gives the routing block are those of R163. -/
theorem State.rteFresh_of_rte {s : State} (h : s.rte = {}) : s.rteFresh := by
  simp [State.rteFresh, State.activeEpoch, State.activeBank, State.bank, State.routeTables, Tbl.get, Tbl.find, h]

/-- A step that owes nothing at its end keeps the routing block of a reset to its end. -/
theorem rteFresh_ends {u : State} (hcalm : u.calm = true) (hrte : u.rte = {}) : ∃ t, ends u = .next t ∧ t.rteFresh :=
  ⟨u, by rw [ends, settle_calm u hcalm], u.rteFresh_of_rte hrte⟩

/-! ### The reboot (R558) -/

@[simp] theorem State.reboot_rte (s : State) (kind trigger : Nat) : (s.reboot kind trigger).rte = {} := rfl

@[simp] theorem State.reboot_calm (s : State) (kind trigger : Nat) : (s.reboot kind trigger).calm = true := rfl

/-- A table with each value changed by its index finds the changed value. -/
theorem find_map_indexed {α : Type} (t : Tbl α) (g : Nat → α → α) (i : Nat) :
    Tbl.find (t.map fun e => (e.1, g e.1 e.2)) i = (Tbl.find t i).map (g i) := by
  induction t with
  | nil => rfl
  | cons e t ih =>
    obtain ⟨j, a⟩ := e
    by_cases hj : j = i
    · subst hj; simp [Tbl.find]
    · simpa [Tbl.find, hj] using ih

/-- Severities that FAULT_SET has changed are those of the source map again (R539). -/
theorem State.reboot_severity (s : State) (kind trigger src : Nat) : (s.reboot kind trigger).severity src = faultDefault src := by
  have hfind : (s.reboot kind trigger).flt.sources.find src = (s.flt.sources.find src).map (FaultSrc.kept src) :=
    find_map_indexed s.flt.sources FaultSrc.kept src
  rw [State.severity, State.fault, Tbl.get, hfind]
  cases s.flt.sources.find src <;> rfl

/-! ### The channels switched off (R558) -/

@[simp] theorem State.chanOff_change (s : State) (c : Nat) (clear : Bool) : (s.chanOff c clear).pwr.change = s.pwr.change := by
  simp [State.chanOff, State.upChan]

@[simp] theorem State.chanOff_calm (s : State) (c : Nat) (clear : Bool) : (s.chanOff c clear).calm = s.calm := by
  simp [State.calm]

@[simp] theorem State.allOff_rte (s : State) : s.allOff.rte = s.rte := by
  rw [State.allOff, State.upPwr_rte, foldl_keeps State.rte (by simp)]

@[simp] theorem State.allOff_calm (s : State) : s.allOff.calm = s.calm := by
  have hlost (t : State) : (t.upPwr fun w => { w with lost := true }).calm = t.calm := rfl
  rw [State.allOff, hlost, foldl_keeps State.calm (by simp)]

/-- A reset of the whole device that was asked for. -/
theorem State.takeReset_fresh (s : State) {kind : Nat} (trigger : Nat) (hkind : kind ≠ 1) :
    (s.takeReset kind trigger).calm = true ∧ (s.takeReset kind trigger).rte = {} := by
  rcases kind with _ | _ | kind
  · exact ⟨rfl, rfl⟩
  · exact absurd rfl hkind
  · exact ⟨(State.allOff_calm _).trans rfl, (State.allOff_rte _).trans rfl⟩

/-! ### First calibration (R568) -/

theorem State.severity_upFault {s : State} {src k : Nat} {f : FaultSrc → FaultSrc} (hf : ∀ x, (f x).severity = x.severity) :
    (s.upFault src f).severity k = s.severity k := by
  by_cases hk : k = src
  · subst hk; simp [State.severity, State.fault, State.upFault, hf]
  · simp [State.severity, State.fault, State.upFault, Tbl.get_upd, hk]

/-- What raising a fault notes of it changes neither severities nor the actions owed. -/
theorem State.raiseNote_keeps (s : State) (src k : Nat) (subj : Subject) :
    let t := (s.raiseNote src subj).2
    t.severity k = s.severity k ∧ t.flt.actions = s.flt.actions := by
  have hupd (u : State) (f : FaultSrc → FaultSrc) : (u.upFault src f).flt.actions = u.flt.actions := rfl
  have htally (u : State) (e : Nat) : (u.tally e).severity k = u.severity k := rfl
  have hmsix (u : State) (v : Nat) : (u.msixSend 0 v).severity k = u.severity k := by simp [State.severity, State.fault]
  have hflag (u : State) : (u.upFlt fun f => { f with intStatus := setFlag f.intStatus 0 }).severity k = u.severity k := rfl
  simp only [State.raiseNote]
  (repeat' split) <;> simp [State.severity_upFault, hupd, htally, hmsix, hflag]

/-- A fault of a severity below 3 calls for no action (R523). -/
theorem State.raise_mild {s : State} {src : Nat} {subj : Subject} (hsev : effectiveSeverity (s.severity src) subj < 3) :
    s.raise src subj = (s.raiseNote src subj).2 := by
  have hlow : ¬ 3 ≤ (s.raiseNote src subj).1 := by
    simp only [State.raiseNote]
    (repeat' split) <;> simp only <;> omega
  rw [State.raise, if_neg hlow]

theorem State.raise_calm {s : State} {src : Nat} {subj : Subject} (hsev : effectiveSeverity (s.severity src) subj < 3) :
    (s.raise src subj).calm = s.calm := by
  have hactions := (s.raiseNote_keeps src src subj).2
  rw [← State.raise_mild hsev] at hactions
  simp [State.calm, hactions]

/-- A lane core that fails first calibration raises LNE_CALIB (R568). -/
def State.failLane (s : State) (l : Nat) : State := (s.upLane l fun x => { x with calibFailed := true }).raise 3 (.unit l)

/-- At its default severity, LNE_CALIB calls for no action (R521). -/
theorem State.failLane_keeps {s : State} (l : Nat) (hsev : s.severity 3 = 2) :
    let t := s.failLane l
    t.severity 3 = 2 ∧ t.calm = s.calm ∧ t.rte = s.rte := by
  have hlane : (s.upLane l fun x => { x with calibFailed := true }).severity 3 = 2 := hsev
  have hmild : effectiveSeverity ((s.upLane l fun x => { x with calibFailed := true }).severity 3) (.unit l) < 3 := by
    rw [hlane]; show 2 < 3; decide
  refine ⟨?_, State.raise_calm hmild, by simp [State.failLane, State.upLane]⟩
  rw [State.failLane, State.raise_mild hmild, (State.raiseNote_keeps ..).1, hlane]

theorem foldl_failLane_keeps (l : List Nat) {s : State} (hsev : s.severity 3 = 2) :
    let t := l.foldl State.failLane s
    t.calm = s.calm ∧ t.rte = s.rte := by
  induction l generalizing s with
  | nil => exact ⟨rfl, rfl⟩
  | cons a l ih =>
    obtain ⟨hsev', hcalm, hrte⟩ := State.failLane_keeps a hsev
    obtain ⟨hcalm', hrte'⟩ := ih hsev'
    exact ⟨hcalm'.trans hcalm, hrte'.trans hrte⟩

/-- The baselines of the ageing monitors, as first calibration records them (R568). -/
def State.recordBaselines (s : State) (baselines : List Nat) : State :=
  (List.range 288).foldl (fun s l => if (baselines.getD l 0) = 0 then s
    else s.upLane l fun x => { x with baseline := baselines.getD l 0 % 2 ^ 32 }) s

theorem State.recordBaselines_keeps (s : State) (baselines : List Nat) :
    let t := s.recordBaselines baselines
    t.severity 3 = s.severity 3 ∧ t.calm = s.calm ∧ t.rte = s.rte := by
  refine ⟨foldl_keeps (fun t => t.severity 3) (fun t l => ?_) _ s, foldl_keeps State.calm (fun t l => ?_) _ s,
    foldl_keeps State.rte (fun t l => ?_) _ s⟩ <;> split <;> rfl

theorem State.calibrate_eq (s : State) (failed baselines : List Nat) :
    s.calibrate failed baselines = (failed.filter (· < 288)).foldl State.failLane (s.recordBaselines baselines) := rfl

theorem State.calibrate_keeps {s : State} (failed baselines : List Nat) (hsev : s.severity 3 = 2) :
    let t := s.calibrate failed baselines
    t.calm = s.calm ∧ t.rte = s.rte := by
  obtain ⟨hsev', hcalm, hrte⟩ := s.recordBaselines_keeps baselines
  obtain ⟨hcalm', hrte'⟩ := foldl_failLane_keeps (failed.filter (· < 288)) (hsev'.trans hsev)
  rw [State.calibrate_eq]
  exact ⟨hcalm'.trans hcalm, hrte'.trans hrte⟩

/-- A cold boot with its straps sampled and its lanes calibrated (R557, R568). -/
theorem State.coldBoot_fresh (s : State) (trigger insdly smbaddr ppssel flash : Nat) (failed baselines : List Nat) :
    let t := ((s.reboot 0 trigger).sampleStraps insdly smbaddr ppssel flash).calibrate failed baselines
    t.calm = true ∧ t.rte = {} := by
  obtain ⟨hcalm, hrte⟩ := State.calibrate_keeps (s := (s.reboot 0 trigger).sampleStraps insdly smbaddr ppssel flash) failed baselines
    (s.reboot_severity 0 trigger 3)
  exact ⟨hcalm.trans rfl, hrte.trans rfl⟩

/-! ### The statement -/

/-- Settles O50: each reset reboots, owes nothing after that, and leaves the routing block as the reboot made it. -/
theorem routingAfterReset : Obligations.RoutingAfterReset := by
  refine ⟨?cold, ?warm, ?vaux, ?asked, ?wake, ?start⟩
  case cold =>
    intro s insdly straps failed baselines hvaux
    have hon : ¬ (!s.mgc.vaux) = true := by simp [hvaux]
    obtain ⟨hcalm, hrte⟩ := s.coldBoot_fresh (if s.mgc.pendingReset.any fun r => r.kind == 2 then 1
      else if s.mgc.trigger = 5 && s.pwr.lost then 5 else 0) insdly straps.smbaddr straps.ppssel straps.flash failed baselines
    exact rteFresh_ends ((congrArg State.calm (if_neg hon)).trans hcalm) ((congrArg State.rte (if_neg hon)).trans hrte)
  case warm =>
    intro s trigger hmode hlost
    refine rteFresh_ends ?_ ?_
    all_goals
      simp only [hmode, hlost]
      split <;> rfl
  case vaux =>
    intro s
    exact rteFresh_ends rfl rfl
  case asked =>
    intro s r hasked hlost hkind
    obtain ⟨hcalm, hrte⟩ := s.takeReset_fresh r.trigger hkind
    exact rteFresh_ends (by simpa [hasked, hlost] using hcalm) (by simpa [hasked, hlost] using hrte)
  case wake =>
    intro s h reefForm force hr hmode hchange hform
    have hb : modeSetBody 0 reefForm force (s.fetchCmd h) = .ok (s.fetchCmd h).leaveBare := by
      rw [modeSetBody, refuseIf_none _ _ (by simp [hchange, hform])]
      simp [hmode, modeOf]
    obtain ⟨-, hcalm, -⟩ := held_complete (src := h.src) (seq := h.seq) (code := 0x0101) (i := h.interrupt) (e := h.outputError) (st := 0)
      (r := 0) (o := []) ((s.fetchCmd h).reboot_calm 1 6)
    refine ⟨_, answers_of hr hb (Nat.zero_le _), State.rteFresh_of_rte ?_⟩
    rw [State.answer, State.leaveBare, settle_calm _ hcalm]
    simp
  case start => exact State.rteFresh_of_rte rfl

end Sys2Proof.Machine
end

section
/-! SUPPORT. What the halves of transport keep while packets are put to the ingress: records of operations and lookups leave the transport block,
a packet that the device builds adds to its count of packets built alone, and what is handed to transport leaves the receive halves, but for
where they are held. -/
namespace Sys2Proof.Machine

/-- What an operation that answers a value beside the state keeps, the state named by a case split keeps. -/
theorem keeps_of_pair {α β : Type} (m : State → β) {p : α × State} {a : α} {s t : State} (h : p = (a, t)) (hp : m p.2 = m s) : m t = m s := by
  rw [← hp, h]

/-! ### Records of operations (R340 to R343, R372) -/

@[simp] theorem State.fresh_trn (s : State) : s.fresh.2.trn = s.trn := rfl

@[simp] theorem State.upSlot_trn (s : State) (tag : Nat) (f : OpSlot → OpSlot) : (s.upSlot tag f).trn = s.trn := rfl

@[simp] theorem State.addCounter_trn (s : State) (c n : Nat) : (s.addCounter c n).trn = s.trn := rfl

@[simp] theorem State.bump_trn (s : State) (i idx : Nat) : (s.bump i idx).trn = s.trn := by
  simp only [State.bump]; split <;> simp

@[simp] theorem State.writeRecord_trn (s : State) (cq : Nat) (r : RecordQueue) (l : List Nat) : (s.writeRecord cq r l).trn = s.trn := by
  simp only [State.writeRecord]; (repeat' split) <;> simp

@[simp] theorem State.cqFull_trn (s : State) (cq : Nat) : (s.cqFull cq).trn = s.trn := by
  simp only [State.cqFull]; (repeat' split) <;> simp

@[simp] theorem State.putRecord_trn (s : State) (cq : Nat)
    (kind status queue bytes wrId detail srcDevice srcInst refusal retryAfter : Nat) :
    (s.putRecord cq kind status queue bytes wrId detail srcDevice srcInst refusal retryAfter).trn = s.trn := by
  rw [State.putRecord]; (repeat' split) <;> simp

@[simp] theorem State.abandonLocks_trn (s : State) (q : Nat) : (s.abandonLocks q).trn = s.trn := by
  simp only [State.abandonLocks]; split <;> simp

@[simp] theorem State.sendQueueError_trn (s : State) (q status : Nat) : (s.sendQueueError q status).trn = s.trn := by
  rw [State.sendQueueError]; (repeat' split) <;> simp

@[simp] theorem State.engineBusy_trn (s : State) (i : Nat) : (s.engineBusy i).trn = s.trn := rfl

@[simp] theorem State.retire_trn (s : State) (x : OpSlot) (status bytes : Nat) : (s.retire x status bytes).trn = s.trn := by
  simp [State.retire, apply_ite State.trn]

@[simp] theorem State.drainOrder_trn (s : State) (q n : Nat) : (s.drainOrder q n).trn = s.trn := by
  induction n generalizing s with
  | zero => rfl
  | succ n ih => rw [State.drainOrder]; (repeat' split) <;> simp [ih]

@[simp] theorem State.drainTriggered_trn (s : State) (q : Nat) : (s.drainTriggered q).trn = s.trn := by
  refine foldl_keeps State.trn (fun s e => ?_) _ s
  (repeat' split) <;> simp

@[simp] theorem State.drainQueue_trn (s : State) (q : Nat) : (s.drainQueue q).trn = s.trn := by
  simp [State.drainQueue]

@[simp] theorem State.receiveRecord_trn (s : State) (rq status bytes wrId matchBits srcDevice srcInst reason retry : Nat) :
    (s.receiveRecord rq status bytes wrId matchBits srcDevice srcInst reason retry).trn = s.trn := by
  simp only [State.receiveRecord]; split <;> simp

@[simp] theorem State.endRget_trn (s : State) (tag status bytes : Nat) : (s.endRget tag status bytes).trn = s.trn := by
  simp only [State.endRget]; (repeat' split) <;> simp

@[simp] theorem State.finishOp_trn (s : State) (tag status bytes : Nat) : (s.finishOp tag status bytes).trn = s.trn := by
  rw [State.finishOp]; (repeat' split) <;> simp

/-- The messages of a stream that are discarded (R364). -/
@[simp] theorem State.dropMessages_trn (s : State) (k : CtxKey) : (s.dropMessages k).trn = s.trn := by
  rw [State.dropMessages]
  dsimp only
  rw [foldl_keeps State.trn (fun s m => by (repeat' split) <;> simp), foldl_keeps State.trn (fun s m => by simp)]
  rfl

/-! ### Lookups (R160 to R170) and the policer (R59 to R68) -/

@[simp] theorem State.countUnreserved_trn (s : State) : s.countUnreserved.trn = s.trn := by
  simp [State.countUnreserved]

@[simp] theorem State.choosePath_trn (s : State) (tile : Nat) (h : Hdr) (own : Option Nat) :
    (s.choosePath tile h own).2.trn = s.trn := by
  simp only [State.choosePath]; (repeat' split) <;> simp

@[simp] theorem State.lookup_trn (s : State) (h : Hdr) (input rxVl : Nat) (atSource : Bool) (own : Option Nat) :
    (s.lookup h input rxVl atSource own).2.trn = s.trn := by
  simp only [State.lookup]; (repeat' split) <;> simp

@[simp] theorem State.putWaiting_trn (s : State) (w : WaitPkt) : (s.putWaiting w).trn = s.trn := rfl

@[simp] theorem State.noCandidate_trn (s : State) : s.noCandidate.trn = s.trn := rfl

@[simp] theorem State.noteFenceSkip_trn (s : State) : s.noteFenceSkip.trn = s.trn := rfl

@[simp] theorem State.freeRx_trn (s : State) (w : WaitPkt) : (s.freeRx w).trn = s.trn := by
  simp only [State.freeRx]; split <;> rfl

@[simp] theorem State.greenTree_trn (s : State) (t : Tree) (h : Hdr) (atSource : Bool) (own : Option Nat) :
    (s.greenTree t h atSource own).trn = s.trn := by
  simp only [State.greenTree]; (repeat' split) <;> simp

@[simp] theorem State.rootDone_trn (s : State) (o : McOp) : (s.rootDone o).trn = s.trn := by
  rw [State.rootDone]; (repeat' split) <;> simp

@[simp] theorem State.meterTx_trn (s : State) (i bytes : Nat) (f : MeterRec → MeterRec) : (s.meterTx i bytes f).trn = s.trn := rfl

@[simp] theorem State.meterRefused_trn (s : State) (i : Nat) : (s.meterRefused i).trn = s.trn := rfl

@[simp] theorem State.policeMeter_trn (s : State) (h : Hdr) (len : Nat) (first : Bool) : (s.policeMeter h len first).2.trn = s.trn := by
  rw [State.policeMeter]; (repeat' split) <;> simp

@[simp] theorem State.police_trn (s : State) (h : Hdr) (len : Nat) (first pre : Bool) : (s.police h len first pre).2.trn = s.trn := by
  simp only [State.police]; (repeat' split) <;> simp

@[simp] theorem State.endWait_trn (s : State) (i : Nat) (from_ : Option Nat) : (s.endWait i from_).trn = s.trn := by
  simp only [State.endWait]; split <;> simp

@[simp] theorem State.policeQueued_trn (s : State) (p : SentPkt) : (s.policeQueued p).2.trn = s.trn := by
  rw [State.policeQueued]
  split
  · rfl
  · dsimp only
    split
    next hp => simp [keeps_of_pair State.trn hp (s.police_trn ..)]
    next hp => simp [keeps_of_pair State.trn hp (s.police_trn ..)]

@[simp] theorem State.endUnrouted_trn (s : State) (tag : Nat) : (s.endUnrouted tag).trn = s.trn := by
  simp [State.endUnrouted]

/-! ### Packets that the device builds, put to their ingress -/

@[simp] theorem State.newPid_halves (s : State) :
    let t := s.newPid.2
    t.trn.sends = s.trn.sends ∧ t.trn.recvs = s.trn.recvs := ⟨rfl, rfl⟩

@[simp] theorem State.sendMcAck_halves (s : State) (port t : Nat) (o : McOp) :
    let u := s.sendMcAck port t o
    u.trn.sends = s.trn.sends ∧ u.trn.recvs = s.trn.recvs := ⟨rfl, rfl⟩

@[simp] theorem State.mcEnd_halves (s : State) (t : Nat) (tr : Tree) (o : McOp) :
    let u := s.mcEnd t tr o
    u.trn.sends = s.trn.sends ∧ u.trn.recvs = s.trn.recvs := by
  simp only [State.mcEnd]; split <;> simp

@[simp] theorem State.mcSettle_halves (s : State) (t : Nat) :
    let u := s.mcSettle t
    u.trn.sends = s.trn.sends ∧ u.trn.recvs = s.trn.recvs := by
  simp only [State.mcSettle]
  split
  · exact ⟨rfl, rfl⟩
  · exact ⟨foldl_keeps (fun u => u.trn.sends) (by simp) _ _, foldl_keeps (fun u => u.trn.recvs) (by simp) _ _⟩

@[simp] theorem State.treeMissing_halves (s : State) (h : Hdr) (rxVl : Nat) (port : Option Nat) :
    let u := s.treeMissing h rxVl port
    u.trn.sends = s.trn.sends ∧ u.trn.recvs = s.trn.recvs := by
  simp only [State.treeMissing]; split <;> simp

@[simp] theorem State.routeTree_halves (s : State) (w : WaitPkt) (port : Option Nat) :
    let u := s.routeTree w port
    u.trn.sends = s.trn.sends ∧ u.trn.recvs = s.trn.recvs := by
  simp only [State.routeTree]; (repeat' split) <;> simp

@[simp] theorem State.inject_halves (s : State) (p : Packet) (len input : Nat) (sequenced : Bool) (own : Option Nat) :
    let u := s.inject p len input sequenced own
    u.trn.sends = s.trn.sends ∧ u.trn.recvs = s.trn.recvs := by
  dsimp only
  rw [State.inject]
  split
  next h t hpath =>
    have ht := keeps_of_pair State.trn hpath (s.choosePath_trn ..)
    dsimp only
    split
    · simp [ht]
    · split
      next hroute => simp [keeps_of_pair State.trn hroute (State.lookup_trn ..), ht]
      next hroute => simp [keeps_of_pair State.trn hroute (State.lookup_trn ..), ht]

@[simp] theorem State.control_halves (s : State) (opcode dest inst sl : Nat) (response : Bool) (fields : List Nat) :
    let u := s.control opcode dest inst sl response fields
    u.trn.sends = s.trn.sends ∧ u.trn.recvs = s.trn.recvs := by
  simp [State.control]

@[simp] theorem State.trnControl_halves (s : State) (opcode peer inst cls sl : Nat) (response : Bool) (fields : List Nat) :
    let u := s.trnControl opcode peer inst cls sl response fields
    u.trn.sends = s.trn.sends ∧ u.trn.recvs = s.trn.recvs := by
  simp [State.trnControl]

/-- The control packet of a context is the last that it has shown. -/
@[simp] theorem State.trnControl_head (s : State) (opcode peer inst cls sl : Nat) (response : Bool) (fields : List Nat) :
    (s.trnControl opcode peer inst cls sl response fields).out.head? = some (.trnControl opcode peer inst cls fields) := rfl

/-! ### Halves found by their key (R217) -/

/-- What a change of the first element that a test picks finds by the test. -/
theorem find?_updFirst {α : Type} (p : α → Bool) {f : α → α} (l : List α) (hf : ∀ x, p x = true → p (f x) = true) :
    (updFirst p f l).find? p = (l.find? p).map f := by
  induction l with
  | nil => rfl
  | cons x l ih =>
    by_cases hx : p x = true
    · simp [updFirst, hx, hf x hx]
    · simp [updFirst, hx, ih]

theorem State.key_of_sendCtx {s : State} {k : CtxKey} {c : SendCtx} (h : s.sendCtx k = some c) : c.key = k := by
  simpa using List.find?_some h

theorem State.key_of_recvCtx {s : State} {k : CtxKey} {c : RecvCtx} (h : s.recvCtx k = some c) : c.key = k := by
  simpa using List.find?_some h

@[simp] theorem State.sendCtx_upSend {s : State} {k : CtxKey} {f : SendCtx → SendCtx} (hf : ∀ c, c.key = k → (f c).key = k) :
    (s.upSend k f).sendCtx k = (s.sendCtx k).map f :=
  find?_updFirst _ _ (by simpa using hf)

@[simp] theorem State.recvCtx_upRecv {s : State} {k : CtxKey} {f : RecvCtx → RecvCtx} (hf : ∀ c, c.key = k → (f c).key = k) :
    (s.upRecv k f).recvCtx k = (s.recvCtx k).map f :=
  find?_updFirst _ _ (by simpa using hf)

theorem State.sendCtx_of_sends {s t : State} (h : t.trn.sends = s.trn.sends) (k : CtxKey) : t.sendCtx k = s.sendCtx k := by
  rw [State.sendCtx, h]; rfl

theorem State.recvCtx_of_recvs {s t : State} (h : t.trn.recvs = s.trn.recvs) (k : CtxKey) : t.recvCtx k = s.recvCtx k := by
  rw [State.recvCtx, h]; rfl

@[simp] theorem State.trnControl_sendCtx (s : State) (opcode peer inst cls sl : Nat) (response : Bool) (fields : List Nat) (k : CtxKey) :
    (s.trnControl opcode peer inst cls sl response fields).sendCtx k = s.sendCtx k :=
  State.sendCtx_of_sends (s.trnControl_halves ..).1 k

@[simp] theorem State.trnControl_recvCtx (s : State) (opcode peer inst cls sl : Nat) (response : Bool) (fields : List Nat) (k : CtxKey) :
    (s.trnControl opcode peer inst cls sl response fields).recvCtx k = s.recvCtx k :=
  State.recvCtx_of_recvs (s.trnControl_halves ..).2 k

end Sys2Proof.Machine
end

section
/-! SUPPORT. The send halves of transport: what an acknowledgement, a resend, a fetch and a late flagged packet do to the half that they name. -/
namespace Sys2Proof.Machine

/-! ### Events of a half on die, and of one in HBM (R217, R230) -/

theorem State.onSend_onDie {s : State} {k : CtxKey} {c : SendCtx} (what : Instr) (f : State → State) (h : s.sendCtx k = some c)
    (hdie : c.onDie = true) : s.onSend k what f = f s := by
  simp [State.onSend, h, hdie]

theorem State.onRecv_onDie {s : State} {k : CtxKey} {c : RecvCtx} (what : Instr) (f : State → State) (h : s.recvCtx k = some c)
    (hdie : c.onDie = true) : s.onRecv k what f = f s := by
  simp [State.onRecv, h, hdie]

theorem State.onRecv_inHbm {s : State} {k : CtxKey} {c : RecvCtx} (what : Instr) (f : State → State) (h : s.recvCtx k = some c)
    (hdie : c.onDie = false) : s.onRecv k what f = s.upRecv k fun c => { c with fetchWait := c.fetchWait ++ [what] } := by
  simp [State.onRecv, h, hdie]

/-! ### A half with nothing queued, and one with nothing acknowledged (R220, R222) -/

theorem State.pumpAll_idle {s : State} {k : CtxKey} {c : SendCtx} (h : s.sendCtx k = some c) (hqueue : c.queue = []) : s.pumpAll k = s := by
  simp [State.pumpAll, State.pump, h, hqueue]

theorem State.ackTo_none {s : State} {k : CtxKey} {c : SendCtx} (e : Nat) (h : s.sendCtx k = some c) (hnone : c.unacked = []) :
    s.ackTo k e = s := by
  simp [State.ackTo, h, hnone, splitAcked]

/-- The one packet of a half that waits for its acknowledgement, not of an operation, is acknowledged (R222, R225). -/
theorem State.ackTo_last {s : State} {k : CtxKey} {c : SendCtx} {p : SentPkt} {e : Nat} (h : s.sendCtx k = some c) (hlast : c.unacked = [p])
    (hop : p.op = none) (hbelow : seqBelow e p.pkt.hdr.seq = true) (hqueue : c.queue = []) :
    s.ackTo k e = s.upSend k fun c => { c with unacked := [], resends := 0, retryLimit := s.trn.retryLimit, resentIdle := false } := by
  have hafter : (s.upSend k fun c => { c with unacked := [], resends := 0, retryLimit := s.trn.retryLimit, resentIdle := false }).sendCtx k =
      some { c with unacked := [], resends := 0, retryLimit := s.trn.retryLimit, resentIdle := false } := by
    simp [h]
  simp only [State.ackTo, h, hlast, splitAcked, List.filter_cons, hbelow]
  simp [State.ackOps, hop, State.pumpAll_idle hafter hqueue]

/-! ### TACK (R222) -/

@[simp] theorem State.takeLates_nil (s : State) (k : CtxKey) : s.takeLates k [] = s := by
  simp [State.takeLates]

/-- What a TACK without late packets, marks and tickets leaves of its half: the tickets that count (R180). -/
def SendCtx.tacked (c : SendCtx) : SendCtx := { c with tickets := min 15 c.tickets }

theorem State.sendCtx_tacked {s : State} {k : CtxKey} {c : SendCtx} (h : s.sendCtx k = some c) :
    (s.upSend k SendCtx.tacked).sendCtx k = some c.tacked :=
  (State.sendCtx_upSend (f := SendCtx.tacked) fun _ hkey => hkey).trans (congrArg _ h)

/-- Such a TACK acknowledges what lies below its number, and opens a half that asked to be opened (R219, R222). -/
theorem State.rxTack_plain {s : State} {k : CtxKey} {c : SendCtx} (ack : Nat) (openAck : Bool) (h : s.sendCtx k = some c) :
    s.rxTack k ack openAck false false [] 0 0 0 =
      ((if openAck = true ∧ c.state = .opening then (s.upSend k SendCtx.tacked).upSend k fun c => { c with state := .opened }
        else s.upSend k SendCtx.tacked).ackTo k ack).pumpAll k := by
  simp only [State.rxTack, h, State.takeLates_nil, reduceIte, Bool.false_and, Bool.false_eq_true, Bool.and_eq_true, decide_eq_true_eq]
  rfl

/-- A TACK that opens a half with nothing to send (R219). -/
theorem State.rxTack_opens {s : State} {k : CtxKey} {c : SendCtx} (ack : Nat) (h : s.sendCtx k = some c) (hstate : c.state = .opening)
    (hqueue : c.queue = []) (hnone : c.unacked = []) :
    ((s.rxTack k ack true false false [] 0 0 0).sendCtx k).map (·.state) = some .opened := by
  have hafter : ((s.upSend k SendCtx.tacked).upSend k fun c => { c with state := .opened }).sendCtx k =
      some { c.tacked with state := .opened } := by
    simp [State.sendCtx_tacked h]
  rw [State.rxTack_plain ack true h, if_pos ⟨rfl, hstate⟩, State.ackTo_none ack hafter hnone, State.pumpAll_idle hafter hqueue, hafter]
  rfl

/-- A TACK for the last packet of a half that is open (R222, R225). -/
theorem State.rxTack_last {s : State} {k : CtxKey} {c : SendCtx} {p : SentPkt} {ack : Nat} (h : s.sendCtx k = some c) (hqueue : c.queue = [])
    (hlast : c.unacked = [p]) (hop : p.op = none) (hbelow : seqBelow ack p.pkt.hdr.seq = true) :
    ((s.rxTack k ack false false false [] 0 0 0).sendCtx k).map (fun x => (x.unacked, x.resends)) = some ([], 0) := by
  have htacked := State.sendCtx_tacked h
  have hafter (limit : Nat) : ((s.upSend k SendCtx.tacked).upSend k fun c => { c with
      unacked := [], resends := 0, retryLimit := limit, resentIdle := false }).sendCtx k =
      some { c.tacked with unacked := [], resends := 0, retryLimit := limit, resentIdle := false } := by
    simp [htacked]
  rw [State.rxTack_plain ack false h, if_neg (by simp), State.ackTo_last htacked hlast hop hbelow hqueue,
    State.pumpAll_idle (hafter _) hqueue, hafter]
  rfl

/-! ### Resends (R225, R226, R230) -/

/-- The unacknowledged packets of a send half, and the resends without progress. -/
def State.outstandingOf (s : State) (k : CtxKey) : Option (List SentPkt × Nat) := (s.sendCtx k).map fun x => (x.unacked, x.resends)

theorem State.outstandingOf_of_sends {s t : State} (h : t.trn.sends = s.trn.sends) (k : CtxKey) :
    t.outstandingOf k = s.outstandingOf k := by
  rw [State.outstandingOf, State.sendCtx_of_sends h]; rfl

/-- A change of a half that leaves these leaves them. -/
theorem State.outstandingOf_upSend {s : State} {k : CtxKey} {f : SendCtx → SendCtx}
    (hf : ∀ c, (f c).key = c.key ∧ (f c).unacked = c.unacked ∧ (f c).resends = c.resends) :
    (s.upSend k f).outstandingOf k = s.outstandingOf k := by
  simp [State.outstandingOf, hf, Function.comp_def]

@[simp] theorem State.sendAgain_sends (s : State) (p : SentPkt) : (s.sendAgain p).trn.sends = s.trn.sends := by
  simp [State.sendAgain]

@[simp] theorem State.issueRead_trn (s : State) (p : PendRead) : (s.issueRead p).trn = s.trn := by
  simp [State.issueRead]

theorem State.pumpAgain_outstandingOf (s : State) (k : CtxKey) (n : Nat) : (s.pumpAgain k n).outstandingOf k = s.outstandingOf k := by
  induction n generalizing s with
  | zero => rfl
  | succ n ih =>
    have hrest (rest : List Nat) : (s.upSend k fun c => { c with again := rest }).outstandingOf k = s.outstandingOf k :=
      State.outstandingOf_upSend fun _ => ⟨rfl, rfl, rfl⟩
    have hsent (rest : List Nat) (p : SentPkt) :
        ((s.upSend k fun c => { c with again := rest }).sendAgain p).outstandingOf k = s.outstandingOf k :=
      (State.outstandingOf_of_sends (State.sendAgain_sends ..) k).trans (hrest rest)
    have hread (m : Source) : ((s.upSend k fun c => { c with reread := some s.mec.readCount }).issueRead (m.read k)).outstandingOf k =
        s.outstandingOf k :=
      (State.outstandingOf_of_sends (congrArg Trn.sends (State.issueRead_trn ..)) k).trans
        (State.outstandingOf_upSend (f := fun c => { c with reread := some s.mec.readCount }) fun _ => ⟨rfl, rfl, rfl⟩)
    rw [State.pumpAgain]
    (repeat' split) <;> simp only [ih, hrest, hsent, hread]

/-- A resend leaves what is unacknowledged, and counts nothing (R225). -/
theorem State.resendFrom_outstandingOf (s : State) (k : CtxKey) (n : Nat) : (s.resendFrom k n).outstandingOf k = s.outstandingOf k :=
  (State.pumpAgain_outstandingOf ..).trans (State.outstandingOf_upSend fun _ => ⟨rfl, rfl, rfl⟩)

/-- A TNAK from a device on the way asks for a resend, which is counted (R225). -/
theorem State.rxTnak_transit {s : State} {k : CtxKey} {c : SendCtx} {seq : Nat} (h : s.sendCtx k = some c)
    (hheld : (c.unacked.any fun p => p.pkt.hdr.seq == seq) = true) (hlimit : c.resends < c.retryLimit) :
    (s.rxTnak k seq true).outstandingOf k = some (c.unacked, c.resends + 1) := by
  simp only [State.rxTnak, h, hheld, State.retryFrom, if_neg (Nat.not_le.mpr hlimit), Bool.not_true, Bool.false_eq_true, reduceIte,
    State.resendFrom_outstandingOf]
  simp [State.outstandingOf, h]

/-! ### Halves fetched from HBM (R217) -/

/-- A change of one element brings at most one more under a test. -/
theorem length_filter_updFirst_le {α : Type} (p q : α → Bool) (f : α → α) (l : List α) :
    ((updFirst p f l).filter q).length ≤ (l.filter q).length + 1 := by
  induction l with
  | nil => simp [updFirst]
  | cons x l ih =>
    by_cases hp : p x = true <;> by_cases hq : q x = true <;> by_cases hf : q (f x) = true <;>
      simp [updFirst, hp, hq, hf] <;> omega

theorem Trn.onDie_place_le (t : Trn) (half : Bool × CtxKey) (onDie : Bool) : (t.place half onDie).onDie ≤ t.onDie + 1 := by
  simp only [Trn.place, Trn.onDie]
  split
  · have := length_filter_updFirst_le (fun c : SendCtx => c.key == half.2) (fun c => c.onDie && c.state != .spill)
      (fun c => { c with onDie, used := if onDie then t.useCount else c.used }) t.sends
    simp only; omega
  · have := length_filter_updFirst_le (fun c : RecvCtx => c.key == half.2) (·.onDie)
      (fun c => { c with onDie, used := if onDie then t.useCount else c.used }) t.recvs
    simp only; omega

/-- While there is room on die, a fetch writes no other half out. -/
theorem Trn.fetched_of_room {t : Trn} (half : Bool × CtxKey) (hroom : t.onDie < 16384) :
    t.fetched half = { t.place half true with useCount := t.useCount + 1 } := by
  have hle : ({ t.place half true with useCount := t.useCount + 1 } : Trn).onDie ≤ 16384 :=
    Nat.le_trans (t.onDie_place_le half true) hroom
  rw [Trn.fetched, if_pos hle]

/-- A send half with nothing that waits for it is brought on die, and sends nothing (R217). -/
theorem State.fetchDone_send {s : State} {k : CtxKey} {c : SendCtx} (h : s.sendCtx k = some c) (hdie : c.onDie = false)
    (hqueue : c.queue = []) (hwait : c.fetchWait = []) (hroom : s.trn.onDie < 16384) :
    ((s.fetchDone k 0).sendCtx k).map (·.onDie) = some true := by
  generalize hu : (s.upTrn fun t => t.fetched (true, k)).upSend k (fun c => { c with fetchWait := [] }) = u
  have hfetched : (s.upTrn fun t => t.fetched (true, k)).sendCtx k = some { c with onDie := true, used := s.trn.useCount } := by
    have hplace := find?_updFirst (fun c : SendCtx => c.key == k) (f := fun c => { c with onDie := true, used := s.trn.useCount })
      s.trn.sends fun _ hk => hk
    rw [State.sendCtx, State.upTrn_trn, Trn.fetched_of_room _ hroom]
    exact hplace.trans (congrArg _ h)
  have hafter : u.sendCtx k = some { c with onDie := true, used := s.trn.useCount, fetchWait := [] } := by
    simp [← hu, hfetched]
  have hdone : s.fetchDone k 0 = u := by
    simp only [State.fetchDone, reduceIte, h, Option.bind_some, hdie, hwait, List.foldl_nil, Bool.false_eq_true]
    exact (congrArg (State.pumpAll · k) hu).trans (State.pumpAll_idle hafter hqueue)
  rw [hdone, hafter]
  rfl

/-- A receive half with nothing that waits for it is brought on die (R217). -/
theorem State.fetchDone_recv {s : State} {k : CtxKey} {c : RecvCtx} (h : s.recvCtx k = some c) (hdie : c.onDie = false)
    (hwait : c.fetchWait = []) (hroom : s.trn.onDie < 16384) :
    ((s.fetchDone k 1).recvCtx k).map (·.onDie) = some true := by
  have hfetched : (s.upTrn fun t => t.fetched (false, k)).recvCtx k = some { c with onDie := true, used := s.trn.useCount } := by
    have hplace := find?_updFirst (fun c : RecvCtx => c.key == k) (f := fun c => { c with onDie := true, used := s.trn.useCount })
      s.trn.recvs fun _ hk => hk
    rw [State.recvCtx, State.upTrn_trn, Trn.fetched_of_room _ hroom]
    exact hplace.trans (congrArg _ h)
  have hdone : s.fetchDone k 1 = (s.upTrn fun t => t.fetched (false, k)).upRecv k fun c => { c with fetchWait := [] } := by
    simp only [State.fetchDone, h, Option.bind_some, hdie, hwait, List.foldl_nil, Bool.false_eq_true, reduceIte, Nat.one_ne_zero]
    rfl
  rw [hdone]
  simp [hfetched]

/-! ### Packets sent (R180, R220) -/

/-- What a half has to send, the number of its next packet, and how many packets wait for their acknowledgement. -/
def SendCtx.line (c : SendCtx) : List SentPkt × Nat × Nat := (c.queue, c.next, c.unacked.length)

theorem State.sendCtx_upTrn {s : State} {f : Trn → Trn} (hf : (f s.trn).sends = s.trn.sends) (k : CtxKey) :
    (s.upTrn f).sendCtx k = s.sendCtx k :=
  State.sendCtx_of_sends hf k

theorem State.tally_sendCtx (s : State) (e n : Nat) (k : CtxKey) : (s.tally e n).sendCtx k = s.sendCtx k :=
  State.sendCtx_of_sends (by simp) k

/-- A packet sent is numbered and kept until it is acknowledged; what waits to be sent stays. -/
theorem State.sendNow_line {s : State} {k : CtxKey} {c : SendCtx} (p : SentPkt) (ticket : Bool) (h : s.sendCtx k = some c) :
    ((s.sendNow k p ticket).sendCtx k).map SendCtx.line = some (c.queue, (c.next + 1) % 2 ^ 24, c.unacked.length + 1) := by
  have hkey := State.key_of_sendCtx h
  simp only [State.sendNow, h]
  rw [State.sendCtx_of_sends (State.inject_halves ..).1]
  split
  · rw [State.tally_sendCtx, State.sendCtx_upTrn rfl, State.sendCtx_upTrn rfl]
    simp [h, hkey, SendCtx.line, stampSend]
  · rw [State.sendCtx_upTrn rfl]
    simp [h, hkey, SendCtx.line, stampSend]

/-- The flagged packet at the head of a queue goes alone, once nothing of its stream is outstanding (R180). -/
theorem State.lateSend_alone {s : State} {k : CtxKey} {c : SendCtx} {p : SentPkt} (h : s.sendCtx k = some c) (hqueue : c.queue = [p])
    (hflagged : p.pkt.hdr.flagged = true) (hnone : c.unacked = []) (htickets : c.ticketsUsed = 0) (hopened : c.state = .opened)
    (hdie : c.onDie = true) (hpoliced : p.policed = true) :
    ((s.lateSend k).sendCtx k).map SendCtx.line = some ([], (c.next + 1) % 2 ^ 24, 1) := by
  have hshort : (s.upSend k fun c => { c with queue := [] }).sendCtx k = some { c with queue := [] } := by simp [h]
  have hsent := State.sendNow_line p false hshort
  have hgoes : s.lateSend k = ((s.upSend k fun c => { c with queue := [] }).sendNow k p false).pumpAll k := by
    simp [State.lateSend, h, hqueue, SendCtx.closes, hflagged, hnone, htickets, hopened, hdie, State.policeQueued, hpoliced]
  obtain ⟨d, hd, hline⟩ := Option.map_eq_some_iff.mp hsent
  rw [hgoes, State.pumpAll_idle hd (congrArg Prod.fst hline), hsent, hnone]
  rfl

end Sys2Proof.Machine
end

section
/-! SUPPORT. The receive halves of transport: what a packet in order, an opening, a closing and an acknowledgement do to the half that they name.
What a packet's delivery asks of the device itself may open a send half, which writes another half out to HBM: no more of a receive half. -/
namespace Sys2Proof.Machine

/-! ### What the sending side leaves of the receive halves (R217) -/

/-- A receive half but for where it is held. -/
def RecvCtx.offDie (c : RecvCtx) : RecvCtx := { c with onDie := false }

/-- The receive halves, wherever they are held. -/
def Trn.halves (t : Trn) : List RecvCtx := t.recvs.map RecvCtx.offDie

/-- A change of one element that a map does not see. -/
theorem map_updFirst {α β : Type} {p : α → Bool} {f : α → α} {g : α → β} (hf : ∀ x, g (f x) = g x) (l : List α) :
    (updFirst p f l).map g = l.map g := by
  induction l with
  | nil => rfl
  | cons x l ih => by_cases hx : p x = true <;> simp [updFirst, hx, hf, ih]

theorem Trn.halves_of_recvs {t u : Trn} (h : u.recvs = t.recvs) : u.halves = t.halves := congrArg (List.map _) h

/-- A half written out to HBM is the same half there. -/
theorem Trn.place_out_halves (t : Trn) (half : Bool × CtxKey) : (t.place half false).halves = t.halves := by
  cases hside : half.1 with
  | true => simp [Trn.place, hside, Trn.halves]
  | false =>
    simp only [Trn.place, hside, Trn.halves]
    exact map_updFirst (g := RecvCtx.offDie) (f := fun c => { c with onDie := false, used := c.used }) (fun _ => rfl) _

theorem Trn.makeRoom_halves {t u : Trn} (h : t.makeRoom = some u) : u.halves = t.halves := by
  rw [Trn.makeRoom] at h
  split at h
  · cases h; rfl
  · split at h
    · cases h
    · obtain ⟨v, -, rfl⟩ := Option.map_eq_some_iff.mp h
      exact t.place_out_halves v

/-- A send half that opens may write a receive half out, and does no more to it. -/
theorem State.openSend_halves (s : State) (k : CtxKey) (sl : Nat) : (s.openSend k sl).trn.halves = s.trn.halves := by
  rw [State.openSend]
  split
  · exact Trn.halves_of_recvs (by simp)
  next t hroom =>
    rw [Trn.halves_of_recvs (State.trnControl_halves ..).2]
    exact (Trn.halves_of_recvs (t := t) rfl).trans (Trn.makeRoom_halves hroom)

@[simp] theorem State.sendNow_recvs (s : State) (k : CtxKey) (p : SentPkt) (ticket : Bool) : (s.sendNow k p ticket).trn.recvs = s.trn.recvs := by
  rw [State.sendNow]
  split
  · rfl
  · dsimp only
    rw [(State.inject_halves ..).2]
    split
    · simp [State.upSend]
    · rfl

@[simp] theorem State.pump_recvs (s : State) (k : CtxKey) (n : Nat) : (s.pump k n).trn.recvs = s.trn.recvs := by
  induction n generalizing s with
  | zero => rfl
  | succ n ih =>
    rw [State.pump]
    split
    · rfl
    · split
      · rfl
      next p rest _ =>
        split
        · rfl
        split
        · rfl
        split
        · simp [ih, State.upSend]
        · split
          next hpoliced => simp [ih, State.upSend, keeps_of_pair State.trn hpoliced (s.policeQueued_trn p)]
          next hpoliced => simp [State.upSend, keeps_of_pair State.trn hpoliced (s.policeQueued_trn p)]

theorem State.handOver_halves (s : State) (p : SentPkt) : (s.handOver p).trn.halves = s.trn.halves := by
  rw [State.handOver, State.pumpAll, Trn.halves_of_recvs (State.pump_recvs ..)]
  split
  · rfl
  · exact State.openSend_halves ..

theorem State.complexAnswer_halves (s : State) (p : Packet) : (s.complexAnswer p).trn.halves = s.trn.halves := by
  simp only [State.complexAnswer, State.respond, State.handOver_halves]
  rfl

/-- A packet handed to the path of its opcode, or to the management complex (R47, R157, R160). -/
theorem State.hand_halves (s : State) (p : Packet) (len : Nat) : (s.hand p len).trn.halves = s.trn.halves := by
  rw [State.hand]
  (repeat' split) <;> simp [State.reservedOpcode, State.unassignedEndpoint, State.complexAnswer_halves, State.meter]

/-! ### The numbering of a receive half (R220 to R222) -/

/-- The number that a receive half expects, the packets above it that are held, and where its stream closes. -/
def RecvCtx.numbering (c : RecvCtx) : Nat × List Nat × Option Nat := (c.expected, c.map, c.closeAt)

/-- The numbering of the half of a key. -/
def State.numbering (s : State) (k : CtxKey) : Option (Nat × List Nat × Option Nat) := (s.recvCtx k).map RecvCtx.numbering

theorem State.numbering_eq_find? (s : State) (k : CtxKey) :
    s.numbering k = (s.trn.halves.find? fun c => c.key == k).map RecvCtx.numbering := by
  rw [Trn.halves, List.find?_map, Option.map_map]
  rfl

theorem State.numbering_of_halves {s t : State} (h : t.trn.halves = s.trn.halves) (k : CtxKey) : t.numbering k = s.numbering k := by
  rw [State.numbering_eq_find?, h, State.numbering_eq_find?]

theorem State.numbering_of_recvs {s t : State} (h : t.trn.recvs = s.trn.recvs) (k : CtxKey) : t.numbering k = s.numbering k :=
  State.numbering_of_halves (Trn.halves_of_recvs h) k

/-- A change of a half that leaves its numbering. -/
theorem State.numbering_upRecv {s : State} {k : CtxKey} {f : RecvCtx → RecvCtx} (hf : ∀ c, (f c).key = c.key ∧ (f c).numbering = c.numbering) :
    (s.upRecv k f).numbering k = s.numbering k := by
  simp [State.numbering, hf, Function.comp_def]

/-- What a half's numbering says of the number that it expects and of its gaps. -/
theorem State.expected_of_numbering {s : State} {k : CtxKey} {e : Nat} {m : List Nat} {close : Option Nat} (h : s.numbering k = some (e, m, close)) :
    ((s.recvCtx k).map fun x => (x.expected, x.map)) = some (e, m) := by
  obtain ⟨c, hc, hnum⟩ := Option.map_eq_some_iff.mp h
  cases hnum
  rw [hc]; rfl

/-! ### TACK and TNAK sent (R222, R223) -/

theorem State.recvCtx_upTrn {s : State} {f : Trn → Trn} (hf : (f s.trn).recvs = s.trn.recvs) (k : CtxKey) :
    (s.upTrn f).recvCtx k = s.recvCtx k :=
  State.recvCtx_of_recvs hf k

/-- A TACK takes what has come since the last one with it, and grants tickets. -/
theorem State.sendTack_recvCtx {s : State} {k : CtxKey} {c : RecvCtx} (openAck openRefused closeAck : Bool) (sl : Nat)
    (h : s.recvCtx k = some c) :
    (s.sendTack k openAck openRefused closeAck sl).recvCtx k = some { c with
      sinceAck := 0, lateBySl := [], marksSinceAck := 0, toReturn := 0
      granted := c.granted + if openAck then 0 else s.trn.grantFor k } := by
  simp only [State.sendTack, h, trnControl_recvCtx]
  refine Eq.trans (State.recvCtx_upRecv fun _ hkey => hkey) ?_
  rw [State.recvCtx_upTrn (by simp only [apply_ite Trn.recvs, ite_self]), h]
  rfl

theorem State.sendTack_numbering {s : State} {k : CtxKey} {c : RecvCtx} (openAck openRefused closeAck : Bool) (sl : Nat)
    (h : s.recvCtx k = some c) : (s.sendTack k openAck openRefused closeAck sl).numbering k = some c.numbering := by
  rw [State.numbering, State.sendTack_recvCtx _ _ _ _ h]
  rfl

/-- A TACK changes no number of the half that it is for. -/
theorem State.sendTack_keeps_numbering {s : State} {k : CtxKey} {x : Nat × List Nat × Option Nat} (h : s.numbering k = some x)
    (openAck openRefused closeAck : Bool) (sl : Nat) : (s.sendTack k openAck openRefused closeAck sl).numbering k = some x := by
  obtain ⟨c, hc, rfl⟩ := Option.map_eq_some_iff.mp h
  exact State.sendTack_numbering _ _ _ _ hc

/-! ### A packet in order (R220) -/

/-- A half that is not closing stays open. -/
theorem State.settleClose_open {s : State} {k : CtxKey} {e : Nat} {m : List Nat} (h : s.numbering k = some (e, m, none)) :
    s.settleClose k = s := by
  obtain ⟨c, hc, hnum⟩ := Option.map_eq_some_iff.mp h
  have hclose : c.closeAt = none := congrArg (·.2.2) hnum
  simp [State.settleClose, hc, hclose]

@[simp] theorem State.countUnjudged_recvs (s : State) : s.countUnjudged.trn.recvs = s.trn.recvs := by
  simp [State.countUnjudged]

/-- The late bit is judged: the header is flagged as before, and no half is seen (R86). -/
theorem State.judgeArrival_keeps (s : State) (h : Hdr) :
    (s.judgeArrival h).1.flagged = h.flagged ∧ (s.judgeArrival h).2.trn.recvs = s.trn.recvs := by
  simp only [State.judgeArrival]
  (repeat' split) <;> simp [State.countMiss]

theorem RecvCtx.setCount_keeps (c : RecvCtx) (parity : Bool) (n : Nat) :
    (c.setCount parity n).key = c.key ∧ (c.setCount parity n).numbering = c.numbering := by
  cases parity <;> exact ⟨rfl, rfl⟩

/-- An unflagged packet is delivered at once, and its half's numbering stays (R181). -/
theorem State.deliverOrdered_numbering {s : State} {k : CtxKey} {c : RecvCtx} {p : Packet} (ticket : Bool) (h : s.recvCtx k = some c)
    (hheld : c.held = []) (hflagged : p.hdr.flagged = false) : (s.deliverOrdered k p ticket).numbering k = s.numbering k := by
  have hcount : (s.upRecv k fun c => c.setCount p.hdr.ordSeg (c.count p.hdr.ordSeg + 1)).numbering k = s.numbering k :=
    State.numbering_upRecv fun c => c.setCount_keeps ..
  have hdelivered : s.deliverOrdered k p ticket =
      (s.upRecv k fun c => c.setCount p.hdr.ordSeg (c.count p.hdr.ordSeg + 1)).hand p (pktLen p.hdr) := by
    simp [State.deliverOrdered, h, hheld, hflagged, State.releaseHeld]
  rw [hdelivered, State.numbering_of_halves (State.hand_halves ..), hcount]

theorem modSub_self (m a : Nat) : modSub m a a = 0 := by
  rw [modSub, show a + m - a % m = m * (a / m + 1) by have := Nat.div_add_mod a m; rw [Nat.mul_add]; omega]
  exact Nat.mul_mod_right ..

/-- The expected packet alone moves the expected number on by one (R220). -/
theorem advanceMap_expected (m e : Nat) : advanceMap m 1 e [0] = ((e + 1) % m, []) := rfl

/-- The expected packet of an open half without gaps: the half expects the next one (R220). -/
theorem State.judgeSeq_expected {s : State} {p : Packet} {c : RecvCtx} (ticket : Bool) (h : s.recvCtx (recvKey p.hdr) = some c)
    (hmap : c.map = []) (hheld : c.held = []) (hclose : c.closeAt = none) (hflagged : p.hdr.flagged = false) (hseq : p.hdr.seq = c.expected) :
    (s.judgeSeq p ticket).numbering (recvKey p.hdr) = some ((c.expected + 1) % 2 ^ 24, [], none) := by
  obtain ⟨hgflag, hrecvs⟩ := s.judgeArrival_keeps p.hdr
  generalize hjudged : s.judgeArrival p.hdr = judged at hgflag hrecvs
  obtain ⟨g, t⟩ := judged
  have ht : t.recvCtx (recvKey p.hdr) = some c := (State.recvCtx_of_recvs hrecvs _).trans h
  simp only [State.judgeSeq, h, hseq, hmap, hjudged, modSub_self]
  rw [if_neg (by simp), if_neg (by simp)]
  generalize hnoted : State.upTrn _ _ = v
  have hv : (v.recvCtx (recvKey p.hdr)).map (fun d => (d.held, d.numbering)) = some ([], (c.expected + 1) % 2 ^ 24, [], none) := by
    rw [← hnoted, State.recvCtx_upTrn rfl]
    simp [ht, RecvCtx.numbering, hheld, hclose, addOnce, advanceMap_expected]
  obtain ⟨d, hd, hdv⟩ := Option.map_eq_some_iff.mp hv
  obtain ⟨hdheld, hdnum⟩ := Prod.mk.inj hdv
  generalize hdelivered : State.deliverOrdered _ _ _ _ = u
  have hu : u.numbering (recvKey p.hdr) = some ((c.expected + 1) % 2 ^ 24, [], none) := by
    rw [← hdelivered, State.deliverOrdered_numbering ticket hd hdheld (hgflag.trans hflagged), State.numbering, hd, ← hdnum]
    rfl
  split
  next hnone => simp [State.numbering, hnone] at hu
  next =>
    split
    · have htack := State.sendTack_keeps_numbering hu false false false 0
      rw [State.settleClose_open htack, htack]
    · rw [State.settleClose_open hu, hu]

@[simp] theorem State.noEndpoint_emit (s : State) (o : Out) (h : Hdr) : (s.emit o).noEndpoint h = s.noEndpoint h := rfl

@[simp] theorem State.noEndpoint_meter (s : State) (i : Nat) (f : MeterRec → MeterRec) (h : Hdr) :
    (s.meter i f).noEndpoint h = s.noEndpoint h := rfl

/-- A packet of a known opcode for an endpoint that is not unassigned is shown, and transport sees nothing of it (R47). -/
theorem State.hand_emits (s : State) {p : Packet} (len : Nat) (hknown : opcodeReserved p.hdr.opcode = false) (hassigned : s.noEndpoint p.hdr = false) :
    (s.hand p len).out = .handed p :: s.out ∧ (s.hand p len).trn = s.trn := by
  rw [State.hand]
  cases s.servedInst p <;> simp [hknown, hassigned]

/-! ### The delivery stage (R47, R154, R178) -/

/-- A packet whose check holds goes to its half, where that is on die (R217). -/
theorem State.rxData_inStream {s : State} {p : Packet} {check : BitVec 64} {c : RecvCtx} (ticket : Bool) (h : s.recvCtx (recvKey p.hdr) = some c)
    (hstream : inStream p.hdr = true) (hcheck : p.hdr.data = true → check.toNat = pktCheck p) (hflagged : p.hdr.flagged = false)
    (hdie : c.onDie = true) : s.rxData p check ticket = s.judgeSeq p ticket := by
  have huni : p.hdr.multicast = false := by
    by_contra hmulti
    simp [inStream, hmulti] at hstream
  have hok : (!p.hdr.data || decide (check.toNat = pktCheck p)) = true := by
    cases hdata : p.hdr.data <;> simp [hdata, hcheck]
  simp [State.rxData, hok, huni, hstream, hflagged, h, hdie]

/-- A packet out of every stream is handed to the path of its opcode, and transport keeps nothing of it (R178). -/
theorem State.rxData_outOfStream {s : State} {p : Packet} {check : BitVec 64} (ticket : Bool) (huni : p.hdr.multicast = false)
    (hstream : inStream p.hdr = false) (hcheck : p.hdr.data = true → check.toNat = pktCheck p) (hknown : opcodeReserved p.hdr.opcode = false)
    (hassigned : s.noEndpoint p.hdr = false) (hflagged : p.hdr.flagged = false) :
    (s.rxData p check ticket).out = .handed p :: s.out ∧ (s.rxData p check ticket).trn = s.trn := by
  have hok : (!p.hdr.data || decide (check.toNat = pktCheck p)) = true := by
    cases hdata : p.hdr.data <;> simp [hdata, hcheck]
  have hpacket : ({ p with hdr := { p.hdr with flagged := false } } : Packet) = p := by rw [← hflagged]
  simp only [huni] at hpacket
  have hhanded : s.rxData p check ticket = s.hand p (pktLen p.hdr) := by
    simp only [State.rxData, hok, huni, hstream, hflagged, Bool.false_and, Bool.not_true, Bool.not_false, Bool.false_eq_true, reduceIte, hpacket]
  rw [hhanded]
  exact s.hand_emits (pktLen p.hdr) hknown hassigned

/-! ### Openings and closings (R219, R221) -/

/-- While there is room on die, a half is made beside the others (R217, R219). -/
theorem State.openRecv_makes {s : State} (k : CtxKey) (n sl : Nat) (hroom : s.trn.onDie < 16384) :
    ∃ t c, s.openRecv k n sl = some t ∧ t.trn.recvs = s.trn.recvs ++ [c] ∧ c.key = k ∧ c.numbering = (n, [], none) := by
  have hmade : s.trn.makeRoom = some s.trn := by rw [Trn.makeRoom, if_pos hroom]
  simp only [State.openRecv, hmade]
  exact ⟨_, _, rfl, rfl, rfl, rfl⟩

/-- An opening, where there is room on die, makes a half that expects the number that it names (R219). -/
theorem State.rxOpen_numbering {s : State} {k : CtxKey} (seq sl : Nat) (hclosed : s.recvCtx k = none) (hroom : s.trn.onDie < 16384) :
    (s.rxOpen k seq sl).numbering k = some (seq % 2 ^ 24, [], none) := by
  obtain ⟨t, c, hopen, hrecvs, hkey, hnum⟩ := State.openRecv_makes k (seq % 2 ^ 24) sl hroom
  have hfound : t.recvCtx k = some c := by
    have hrest : s.trn.recvs.find? (fun c => c.key == k) = none := hclosed
    simp [State.recvCtx, hrecvs, hrest, hkey]
  have hopened : s.rxOpen k seq sl = t.sendTack k true false false := by
    simp only [State.rxOpen, hclosed, Option.isSome_none, Bool.false_eq_true, reduceIte, hopen]
  rw [hopened, State.sendTack_numbering true false false 0 hfound, hnum]

theorem State.freeRecv_recvCtx (s : State) (k : CtxKey) : (s.freeRecv k).recvCtx k = none := by
  have hgone : (s.freeRecv k).trn.recvs = s.trn.recvs.filter fun c => c.key != k := by
    simp only [State.freeRecv]
    split <;> simp
  rw [State.recvCtx, hgone]
  simp

/-- A closing at the number that an unpinned half expects frees it (R221). -/
theorem State.rxClose_frees {s : State} {k : CtxKey} {c : RecvCtx} {seq : Nat} (sl : Nat) (h : s.recvCtx k = some c)
    (hall : c.expected = seq % 2 ^ 24) (hpin : c.pinned = false) : (s.rxClose k seq sl).recvCtx k = none := by
  have hclosing : (s.upRecv k fun c => { c with closeAt := some (seq % 2 ^ 24), sl }).recvCtx k =
      some { c with closeAt := some (seq % 2 ^ 24), sl } := by
    simp [h]
  simp [State.rxClose, h, State.settleClose, hall, hpin, State.freeRecv_recvCtx]

/-! ### Timers (R221 to R223, R225) -/

theorem State.ackDue_recvCtx {s : State} {k : CtxKey} {c : RecvCtx} (h : s.recvCtx k = some c) (hsince : c.sinceAck ≠ 0) :
    ((s.ackDue k).recvCtx k).map (fun x => (x.expected, x.sinceAck)) = some (c.expected, 0) := by
  simp only [State.ackDue, h, if_neg hsince]
  rw [State.sendTack_recvCtx false false false 0 h]
  rfl

theorem State.nakDue_gaps {s : State} {k : CtxKey} {c : RecvCtx} (h : s.recvCtx k = some c) (hgaps : c.map ≠ []) :
    s.nakDue k = s.trnControl 0x81 k.peer k.inst k.cls c.sl true [c.expected, 0] := by
  simp [State.nakDue, h, hgaps]

theorem State.retryExpiry_opening {s : State} {k : CtxKey} {c : SendCtx} (h : s.sendCtx k = some c) (hstate : c.state = .opening) :
    s.retryExpiry k = s.trnControl 0x82 k.peer k.inst k.cls c.sl false [c.next] := by
  simp [State.retryExpiry, h, hstate]

/-- A half with nothing outstanding closes when its idle time ends (R221). -/
theorem State.idleExpiry_closes {s : State} {k : CtxKey} {c : SendCtx} (h : s.sendCtx k = some c) (hpin : c.pinned = false)
    (hopened : c.state = .opened) (hnone : c.unacked = []) (hqueue : c.queue = []) (hresent : c.resentIdle = false) :
    s.idleExpiry k =
      (s.upSend k fun c => { c with state := .closing }).trnControl 0x83 k.peer k.inst k.cls c.sl false [c.next] := by
  simp [State.idleExpiry, h, hpin, hopened, hnone, hqueue, hresent]

/-! ### Multicast acknowledgements (R188) -/

/-- One of several branches of a tree's one operation is acknowledged: the operation waits for the others. -/
theorem State.mcBranchDone_waits {s : State} {tree port : Nat} {t : Tree} {o : McOp} (delivered fenced : Nat) (h : s.tree tree = some t)
    (hops : t.ops = [o]) (hport : port ∈ o.awaiting) (hother : ∃ b ∈ o.awaiting, b ≠ port) :
    ((s.mcBranchDone tree port o.srcDevice o.inst o.op delivered fenced).tree tree).map (·.ops) = some
      [{ o with awaiting := o.awaiting.filter (· ≠ port), delivered := o.delivered + delivered, fenced := o.fenced + fenced }] := by
  have hwait : o.awaiting.filter (· ≠ port) ≠ [] := by
    obtain ⟨b, hb, hne⟩ := hother
    exact List.ne_nil_of_mem (List.mem_filter.mpr ⟨hb, by simpa using hne⟩)
  simp only [State.mcBranchDone, h, hops]
  rw [State.tree_mcSettle (State.tree_putTree ..)]
  · simp [updFirst, hport]
  · simpa [updFirst, hport] using hwait

/-! ### The statement -/

/-- Settles O10: each event does to the half that it names, on die or in HBM, what the lemmas above say. -/
theorem transportEventsTakeEffect : Obligations.TransportEventsTakeEffect := by
  unfold Obligations.TransportEventsTakeEffect
  refine ⟨fun s p check c ticket h hstream hcheck _ hflagged hdie _ hmap hheld hclose hseq => ?dataInOrder,
    fun s p check ticket huni hstream hcheck hknown hassigned hflagged => ?dataOutOfStream,
    fun s peer inst cls seq sl hclosed hroom => ?topen, fun s peer inst cls seq sl c h hall hdie hpin => ?tclose,
    fun s peer inst cls seq sl c h hhbm => ?tcloseWaits,
    fun s peer inst cls c h hdie hpin hopened hnone hqueue hresent => ?idle,
    fun s peer inst cls ack c h hdie hopening hqueue hnone => ?tackOpens,
    fun s peer inst cls ack c p h hdie _ hqueue hlast hop hbelow => ?tackLast,
    fun s peer inst cls seq reason c hreason h hdie hheld hlimit => ?tnak,
    fun s peer inst cls c h hdie hsince => ?ackDelay, fun s peer inst cls c h hdie hgaps => ?nakDelay,
    fun s peer inst cls c h hdie hopening => ?retry, fun s peer inst cls c h hhbm hqueue hwait hroom => ?fetchSend,
    fun s peer inst cls c h hhbm hwait hroom => ?fetchRecv,
    fun s peer inst cls c p h hqueue hflagged hnone htickets hopened hdie hpoliced => ?lateSend,
    fun s port tree srcDevice inst op delivered fenced t o h hops hsrc hinst hop hport hother => ?mcAck⟩
  case dataInOrder =>
    exact ⟨_, gives_ends (State.rxData_inStream ticket h hstream hcheck hflagged hdie),
      State.expected_of_numbering (State.judgeSeq_expected ticket h hmap hheld hclose hflagged hseq)⟩
  case dataOutOfStream => exact ⟨_, gives_ends rfl, State.rxData_outOfStream ticket huni hstream hcheck hknown hassigned hflagged⟩
  case topen => exact ⟨_, gives_ends rfl, State.expected_of_numbering (State.rxOpen_numbering seq sl hclosed hroom)⟩
  case tclose => exact ⟨_, gives_ends (State.onRecv_onDie _ _ h hdie), State.rxClose_frees sl h hall hpin⟩
  case tcloseWaits => exact ⟨_, gives_ends (State.onRecv_inHbm _ _ h hhbm), by simp [h]⟩
  case idle =>
    refine ⟨_, gives_ends ((State.onSend_onDie _ _ h hdie).trans (State.idleExpiry_closes h hpin hopened hnone hqueue hresent)), ?_, ?_⟩
    · simp [h]
    · exact State.trnControl_head ..
  case tackOpens => exact ⟨_, gives_ends (State.onSend_onDie _ _ h hdie), State.rxTack_opens ack h hopening hqueue hnone⟩
  case tackLast => exact ⟨_, gives_ends (State.onSend_onDie _ _ h hdie), State.rxTack_last h hqueue hlast hop hbelow⟩
  case tnak =>
    exact ⟨_, gives_ends ((if_neg (Nat.not_lt.mpr hreason)).trans (State.onSend_onDie _ _ h hdie)), State.rxTnak_transit h hheld hlimit⟩
  case ackDelay => exact ⟨_, gives_ends (State.onRecv_onDie _ _ h hdie), State.ackDue_recvCtx h hsince⟩
  case nakDelay =>
    exact ⟨_, gives_ends ((State.onRecv_onDie _ _ h hdie).trans (State.nakDue_gaps h hgaps)), State.trnControl_head ..,
      (State.trnControl_halves ..).2⟩
  case retry =>
    exact ⟨_, gives_ends ((State.onSend_onDie _ _ h hdie).trans (State.retryExpiry_opening h hopening)), State.trnControl_head ..,
      (State.trnControl_halves ..).1⟩
  case fetchSend => exact ⟨_, gives_ends rfl, State.fetchDone_send h hhbm hqueue hwait hroom⟩
  case fetchRecv => exact ⟨_, gives_ends rfl, State.fetchDone_recv h hhbm hwait hroom⟩
  case lateSend => exact ⟨_, gives_ends rfl, State.lateSend_alone h hqueue hflagged hnone htickets hopened hdie hpoliced⟩
  case mcAck =>
    subst hsrc hinst hop
    exact ⟨_, gives_ends rfl, State.mcBranchDone_waits delivered fenced h hops hport hother⟩

end Sys2Proof.Machine
end

section
/-! SUPPORT. The commands of the link layer and of transport: what each body answers on operands in range, what reads the links and the halves
and not the record of commands, and the statement about all of them. -/
namespace Sys2Proof.Machine

/-! ### What the record of commands leaves (R447), and what a link layer leaves -/

@[simp] theorem State.upLport_frame (s : State) (p : Nat) (f : LnkPort → LnkPort) :
    let t := s.upLport p f
    t.prt = s.prt ∧ t.obf = s.obf ∧ t.out = s.out := ⟨rfl, rfl, rfl⟩

@[simp] theorem State.upHly_lport (s : State) (f : Hly → Hly) (p : Nat) : (s.upHly f).lport p = s.lport p := rfl

@[simp] theorem State.upHly_sendCtx (s : State) (f : Hly → Hly) (k : CtxKey) : (s.upHly f).sendCtx k = s.sendCtx k := rfl

/-- A query whose body answers with an image that the record of commands leaves. -/
theorem answers_query {i : Instr} {code outLen : Nat} {h : HlyHdr} {names : List Obj} {body : State → HRes} {s : State} {image : List Nat}
    (hr : s.runs h code 0 outLen names = true) (hb : ∀ f, body (s.upHly f) = .data (s.upHly f) image) (hlen : image.length = outLen) :
    Answers (ends (runHly i code h 0 outLen names body s)) (s.fetchCmd h) h code 0 image ∧ image.length = outLen := by
  obtain ⟨f, hf⟩ := s.fetchCmd_eq_upHly h
  exact ⟨answers_of hr (hf ▸ hb f) (hlen ▸ runs_outLen_le hr), hlen⟩

/-! ### The link layer (R231, R232, R595) -/

/-- LINK_SET changes the figures that its mask names, and the shares for the next initialisation (R231). -/
def LnkPort.set_ (l : LnkPort) (cm linkTimeout replayLimit retrainLimit : Nat) (vls : Tbl LinkVl) : LnkPort :=
  { l with
    timeout := pick cm 0 linkTimeout l.timeout
    replayLimit := pick cm 1 replayLimit l.replayLimit
    retrainLimit := pick cm 2 retrainLimit l.retrainLimit
    vls }

/-- LINK_SET that names no share, or shares in range for a port that is Down. -/
theorem linkSetBody_ok {s : State} {port cm linkTimeout replayLimit retrainLimit : Nat} {shares : List Nat} (hport : port ≤ 31)
    (hnative : s.isNative port = true) (htime : 1 ≤ linkTimeout) (htime' : linkTimeout ≤ 256) (hreplay : 1 ≤ replayLimit)
    (hreplay' : replayLimit ≤ 255) (hretrain : 1 ≤ retrainLimit) (hretrain' : retrainLimit ≤ 1000)
    (hlisted : cmBit cm 0 = true → s.portListed port = false)
    (hshares : (∀ v, v < 7 → cmBit cm (3 + v) = false) ∨ ((s.lport port).state = .down ∧
      (∀ x ∈ s.newShares port cm shares, 66 ≤ x ∧ x ≤ 12288) ∧ (s.newShares port cm shares).foldl (· + ·) 0 ≤ 12288)) :
    ∃ vls : LnkPort → Tbl LinkVl, linkSetBody port cm linkTimeout replayLimit retrainLimit shares s =
      .ok (s.upLport port fun l => l.set_ cm linkTimeout replayLimit retrainLimit (vls l)) := by
  have hfree : (cmBit cm 0 && s.portListed port) = false := by
    cases hmask : cmBit cm 0 <;> simp [hlisted, hmask]
  refine ⟨_, refuseIf_none _ _ ?_⟩
  obtain hnone | ⟨hdown, hrange, hsum⟩ := hshares
  · have hany : ((List.range 7).any fun v => cmBit cm (3 + v)) = false := by simpa using hnone
    simp [outside_eq_false, *]
  · have hin : ((s.newShares port cm shares).any fun x => outside 66 12288 x) = false :=
      List.any_eq_false.mpr fun x hx => by simp [outside_eq_false (hrange x hx).1 (hrange x hx).2]
    simp [outside_eq_false, *]

theorem faultInjectBody_ok {s : State} {port kind n count : Nat} (hport : port ≤ 31) (hkind : kind ≤ 4)
    (hn : kind ≠ 0 → 2 ≤ n ∧ n ≤ 65535) (hcount : count ≤ 65535) (hnative : 1 ≤ kind → kind ≤ 3 → s.isNative port = true) :
    faultInjectBody port kind n count s =
      .ok (s.upLport port fun l => { l with inject := if kind = 0 then {} else { kind, n, count } }) := by
  have hrange : (kind ≠ 0 && outside 2 65535 n) = false := by
    by_cases hzero : kind = 0
    · simp [hzero]
    · simp [outside_eq_false (hn hzero).1 (hn hzero).2]
  have hmode : (decide (1 ≤ kind) && decide (kind ≤ 3) && !s.isNative port) = false := by
    by_contra hset
    simp only [Bool.not_eq_false, Bool.and_eq_true, decide_eq_true_eq, Bool.not_eq_true'] at hset
    obtain ⟨⟨hlow, hhigh⟩, hoff⟩ := hset
    simp [hnative hlow hhigh] at hoff
  exact refuseIf_none _ _ (by simp only [List.all_cons, hrange, hmode]; simp [*])

theorem State.linkImage_length (s : State) (port : Nat) : (s.linkImage port).length = 72 := by
  simp [State.linkImage, outBytes_length, List.range_succ]

/-! ### Transport (R218, R228, R231, R595) -/

theorem trnSetBody_ok {s : State} (cm : Nat) {ackDelay nakDelay retryTimeout retryLimit ctxIdle sendWindow : Nat} (hack : 1 ≤ ackDelay)
    (hack' : ackDelay ≤ 256) (hnak : 1 ≤ nakDelay) (hnak' : nakDelay ≤ 16000) (hretry : 1 ≤ retryTimeout) (hretry' : retryTimeout ≤ 10000)
    (hlimit : 1 ≤ retryLimit) (hlimit' : retryLimit ≤ 255) (hidle : 1 ≤ ctxIdle) (hidle' : ctxIdle ≤ 1000) (hwindow : 1 ≤ sendWindow)
    (hwindow' : sendWindow ≤ 64) :
    trnSetBody cm ackDelay nakDelay retryTimeout retryLimit ctxIdle sendWindow s = .ok (s.upTrn fun t => { t with
      ackDelay := pick cm 0 ackDelay t.ackDelay
      nakDelay := pick cm 1 nakDelay t.nakDelay
      retryTimeout := pick cm 2 retryTimeout t.retryTimeout
      retryLimit := pick cm 3 retryLimit t.retryLimit
      ctxIdle := pick cm 4 ctxIdle t.ctxIdle
      sendWindow := pick cm 5 sendWindow t.sendWindow }) :=
  refuseIf_none _ _ (by simp [outside_eq_false, *])

/-- CONTEXT_PIN within the limit of pinned halves (R218). -/
theorem contextPinBody_ok {s : State} {peer inst cls half : Nat} {pin : Bool} (hpeer : peer ≤ 65535) (hinst : inst ≤ 1023) (hcls : cls ≤ 1)
    (hhalf : half ≤ 1) (hroom : pin = false ∨ s.trn.pinned < 8192) :
    contextPinBody peer inst cls half pin s = .ok (s.setPin { peer, inst, cls } half pin) := by
  have hlimit : (pin && !s.isPinned { peer, inst, cls } half && decide (8192 ≤ s.trn.pinned)) = false := by
    obtain hoff | hless := hroom
    · simp [hoff]
    · simp [Nat.not_le.mpr hless]
  simp only [contextPinBody, hlimit]
  simp [*]

/-- The pin of a half that is not open, kept for its opening (R218). -/
def Trn.setPins (t : Trn) (k : CtxKey) (half : Nat) (pin : Bool) : Trn :=
  { t with pins := if pin then addOnce t.pins (k, half) else t.pins.filter (· != (k, half)) }

@[simp] theorem Trn.pinWaits_setPins (t : Trn) (k : CtxKey) (half : Nat) (pin : Bool) : (t.setPins k half pin).pinWaits k half = pin := by
  cases pin with
  | false => simp [Trn.pinWaits, Trn.setPins]
  | true =>
    simp only [Trn.pinWaits, Trn.setPins, addOnce, if_true]
    split <;> simp [*]

theorem State.setPin_closed {s : State} {k : CtxKey} (half : Nat) (pin : Bool)
    (hsend : ((s.sendCtx k).all fun c => c.state == .spill) = true) (hrecv : s.recvCtx k = none) :
    s.setPin k half pin = s.upTrn fun t => t.setPins k half pin := by
  have hspill : ((s.sendCtx k).any fun c => c.state != .spill) = false := by
    cases hc : s.sendCtx k with
    | none => rfl
    | some c => simpa [hc] using hsend
  simp [State.setPin, hspill, hrecv]
  rfl

theorem State.setPin_open {s : State} {k : CtxKey} {c : SendCtx} (pin : Bool) (h : s.sendCtx k = some c) (hopen : c.state ≠ .spill) :
    s.setPin k 0 pin = s.upSend k fun c => { c with pinned := pin } := by
  simp [State.setPin, h, hopen]

theorem sendImage_length (c : SendCtx) : (sendImage c).length = 32 := by simp [sendImage, outBytes_length]

theorem recvImage_length (c : RecvCtx) : (recvImage c).length = 32 := by simp [recvImage, outBytes_length]

theorem trnQueryBody_send {s : State} {peer inst cls : Nat} {c : SendCtx} (hpeer : peer ≤ 65535) (hinst : inst ≤ 1023) (hcls : cls ≤ 1)
    (h : s.sendCtx { peer, inst, cls } = some c) : trnQueryBody peer inst cls 0 s = .data s (sendImage c) := by
  simp [trnQueryBody, *]

/-- The number of the next message of the stream that a receive half receives (R364, R595). -/
def State.queriedMsn (s : State) (peer inst : Nat) : Nat :=
  ((s.mtc.ctxs.find? fun m => m.srcDevice == peer && m.srcInst == inst).map (·.expected)).getD 0

theorem trnQueryBody_recv {s : State} {peer inst cls : Nat} {c : RecvCtx} (hpeer : peer ≤ 65535) (hinst : inst ≤ 1023) (hcls : cls ≤ 1)
    (h : s.recvCtx { peer, inst, cls } = some c) :
    trnQueryBody peer inst cls 1 s = .data s (recvImage { c with expectedMsn := s.queriedMsn peer inst }) := by
  simp [trnQueryBody, State.queriedMsn, *]

/-! ### The statement -/

/-- Settles O8: each command by what its body answers on the state whose descriptor has been taken. -/
theorem linkAndTransportCommandsComplete : Obligations.LinkAndTransportCommandsComplete := by
  refine ⟨?linkSet, ?inject, ?linkQuery, ?trnSet, ?pinClosed, ?pinOpen, ?querySend, ?queryRecv⟩
  case linkSet =>
    intro s h port cm linkTimeout replayLimit retrainLimit shares hr hport hnative ht ht' hp hp' hl hl' hlisted hshares
    have hbody (f : Hly → Hly) := linkSetBody_ok (s := s.upHly f) hport hnative ht ht' hp hp' hl hl' hlisted hshares
    choose vls hb using hbody
    obtain ⟨f, hans⟩ := answers_taken hr hb
    refine ⟨_, hans, ?_⟩
    simp [LnkPort.set_]
  case inject =>
    intro s h port kind n count hr hport hkind hn hcount hnative
    obtain ⟨f, hans⟩ := answers_taken hr fun f => faultInjectBody_ok (s := s.upHly f) hport hkind hn hcount hnative
    refine ⟨_, hans, ?_⟩
    by_cases hzero : kind = 0 <;> simp [hzero]
  case linkQuery =>
    intro s h port hr hport
    exact answers_query hr (fun f => refuseIf_none _ _ (by simp [hport])) (s.linkImage_length port)
  case trnSet =>
    intro s h cm ackDelay nakDelay retryTimeout retryLimit ctxIdle sendWindow hr ha ha' hn hn' hr' hr'' hl hl' hi hi' hw hw'
    obtain ⟨f, hans⟩ := answers_taken hr fun f => trnSetBody_ok (s := s.upHly f) cm ha ha' hn hn' hr' hr'' hl hl' hi hi' hw hw'
    exact ⟨_, hans, rfl, rfl, rfl, rfl, rfl, rfl, rfl, rfl⟩
  case pinClosed =>
    intro s h peer inst cls half pin hr hpeer hinst hcls hhalf hroom hsend hrecv
    obtain ⟨f, hans⟩ := answers_taken hr fun f => contextPinBody_ok (s := s.upHly f) hpeer hinst hcls hhalf hroom
    rw [State.setPin_closed (s := s.upHly f) half pin hsend hrecv] at hans
    exact ⟨_, hans, Trn.pinWaits_setPins .., rfl, rfl⟩
  case pinOpen =>
    intro s h peer inst cls pin c hr hpeer hinst hcls hroom hc hopen
    obtain ⟨f, hans⟩ := answers_taken hr fun f => contextPinBody_ok (s := s.upHly f) hpeer hinst hcls (Nat.zero_le 1) hroom
    rw [State.setPin_open (s := s.upHly f) pin hc hopen] at hans
    exact ⟨_, hans, by simp [hc]⟩
  case querySend =>
    intro s h peer inst cls c hr hpeer hinst hcls hc
    exact answers_query hr (fun f => trnQueryBody_send (s := s.upHly f) hpeer hinst hcls hc) (sendImage_length c)
  case queryRecv =>
    intro s h peer inst cls c hr hpeer hinst hcls hc
    exact ⟨s.queriedMsn peer inst, answers_query hr (fun f => trnQueryBody_recv (s := s.upHly f) hpeer hinst hcls hc) (recvImage_length _)⟩

end Sys2Proof.Machine
end

section
/-! SUPPORT. What the links and the ports keep while packets are put to the ingress: records of operations, lookups, packets that the device
builds, fences of trees and changes of mode leave the link block and the port block. -/
namespace Sys2Proof.Machine

/-- What each operation of a list leaves of the links and the ports, the list leaves. -/
theorem foldl_keeps_links {α : Type} {g : State → α → State} (hg : ∀ s a, (g s a).lnk = s.lnk ∧ (g s a).prt = s.prt) (l : List α)
    (s : State) : (l.foldl g s).lnk = s.lnk ∧ (l.foldl g s).prt = s.prt :=
  ⟨foldl_keeps State.lnk (fun s a => (hg s a).1) l s, foldl_keeps State.prt (fun s a => (hg s a).2) l s⟩

/-- So does the state named by a case split on an operation that answers a value beside the state. -/
theorem links_of_pair {α : Type} {p : α × State} {a : α} {s t : State} (h : p = (a, t)) (hp : p.2.lnk = s.lnk ∧ p.2.prt = s.prt) :
    t.lnk = s.lnk ∧ t.prt = s.prt :=
  ⟨keeps_of_pair State.lnk h hp.1, keeps_of_pair State.prt h hp.2⟩

/-! ### Records of operations (R340 to R343, R372) -/

@[simp] theorem State.fresh_links (s : State) : s.fresh.2.lnk = s.lnk ∧ s.fresh.2.prt = s.prt := ⟨rfl, rfl⟩

@[simp] theorem State.upSlot_links (s : State) (tag : Nat) (f : OpSlot → OpSlot) :
    (s.upSlot tag f).lnk = s.lnk ∧ (s.upSlot tag f).prt = s.prt := ⟨rfl, rfl⟩

@[simp] theorem State.addCounter_links (s : State) (c n : Nat) : (s.addCounter c n).lnk = s.lnk ∧ (s.addCounter c n).prt = s.prt := ⟨rfl, rfl⟩

@[simp] theorem State.bump_links (s : State) (i idx : Nat) : (s.bump i idx).lnk = s.lnk ∧ (s.bump i idx).prt = s.prt := by
  simp only [State.bump]; split <;> simp

@[simp] theorem State.writeRecord_links (s : State) (cq : Nat) (r : RecordQueue) (l : List Nat) :
    (s.writeRecord cq r l).lnk = s.lnk ∧ (s.writeRecord cq r l).prt = s.prt := by
  simp only [State.writeRecord]; (repeat' split) <;> simp

@[simp] theorem State.cqFull_links (s : State) (cq : Nat) : (s.cqFull cq).lnk = s.lnk ∧ (s.cqFull cq).prt = s.prt := by
  simp only [State.cqFull]; (repeat' split) <;> simp

@[simp] theorem State.putRecord_links (s : State) (cq : Nat)
    (kind status queue bytes wrId detail srcDevice srcInst refusal retryAfter : Nat) :
    let t := s.putRecord cq kind status queue bytes wrId detail srcDevice srcInst refusal retryAfter
    t.lnk = s.lnk ∧ t.prt = s.prt := by
  rw [State.putRecord]; (repeat' split) <;> simp

@[simp] theorem State.abandonLocks_links (s : State) (q : Nat) : (s.abandonLocks q).lnk = s.lnk ∧ (s.abandonLocks q).prt = s.prt := by
  simp only [State.abandonLocks]; split <;> simp

@[simp] theorem State.sendQueueError_links (s : State) (q status : Nat) :
    (s.sendQueueError q status).lnk = s.lnk ∧ (s.sendQueueError q status).prt = s.prt := by
  rw [State.sendQueueError]; (repeat' split) <;> simp

@[simp] theorem State.engineBusy_links (s : State) (i : Nat) : (s.engineBusy i).lnk = s.lnk ∧ (s.engineBusy i).prt = s.prt := ⟨rfl, rfl⟩

@[simp] theorem State.retire_links (s : State) (x : OpSlot) (status bytes : Nat) :
    (s.retire x status bytes).lnk = s.lnk ∧ (s.retire x status bytes).prt = s.prt := by
  simp [State.retire, apply_ite State.lnk, apply_ite State.prt]

@[simp] theorem State.drainOrder_links (s : State) (q n : Nat) : (s.drainOrder q n).lnk = s.lnk ∧ (s.drainOrder q n).prt = s.prt := by
  induction n generalizing s with
  | zero => exact ⟨rfl, rfl⟩
  | succ n ih => rw [State.drainOrder]; (repeat' split) <;> simp [ih]

@[simp] theorem State.drainTriggered_links (s : State) (q : Nat) : (s.drainTriggered q).lnk = s.lnk ∧ (s.drainTriggered q).prt = s.prt := by
  refine foldl_keeps_links (fun s e => ?_) _ s
  (repeat' split) <;> simp

@[simp] theorem State.drainQueue_links (s : State) (q : Nat) : (s.drainQueue q).lnk = s.lnk ∧ (s.drainQueue q).prt = s.prt := by
  simp [State.drainQueue]

@[simp] theorem State.receiveRecord_links (s : State) (rq status bytes wrId matchBits srcDevice srcInst reason retry : Nat) :
    let t := s.receiveRecord rq status bytes wrId matchBits srcDevice srcInst reason retry
    t.lnk = s.lnk ∧ t.prt = s.prt := by
  simp only [State.receiveRecord]; split <;> simp

@[simp] theorem State.endRget_links (s : State) (tag status bytes : Nat) :
    (s.endRget tag status bytes).lnk = s.lnk ∧ (s.endRget tag status bytes).prt = s.prt := by
  simp only [State.endRget]; (repeat' split) <;> simp

@[simp] theorem State.finishOp_links (s : State) (tag status bytes : Nat) :
    (s.finishOp tag status bytes).lnk = s.lnk ∧ (s.finishOp tag status bytes).prt = s.prt := by
  rw [State.finishOp]; (repeat' split) <;> simp

/-! ### Lookups (R160 to R170) -/

@[simp] theorem State.countUnreserved_links (s : State) : s.countUnreserved.lnk = s.lnk ∧ s.countUnreserved.prt = s.prt := by
  simp [State.countUnreserved]

@[simp] theorem State.choosePath_links (s : State) (tile : Nat) (h : Hdr) (own : Option Nat) :
    let t := (s.choosePath tile h own).2
    t.lnk = s.lnk ∧ t.prt = s.prt := by
  simp only [State.choosePath]; (repeat' split) <;> simp

@[simp] theorem State.lookup_links (s : State) (h : Hdr) (input rxVl : Nat) (atSource : Bool) (own : Option Nat) :
    let t := (s.lookup h input rxVl atSource own).2
    t.lnk = s.lnk ∧ t.prt = s.prt := by
  simp only [State.lookup]; (repeat' split) <;> simp

@[simp] theorem State.noCandidate_links (s : State) : s.noCandidate.lnk = s.lnk ∧ s.noCandidate.prt = s.prt := ⟨rfl, rfl⟩

@[simp] theorem State.noteFenceSkip_links (s : State) : s.noteFenceSkip.lnk = s.lnk ∧ s.noteFenceSkip.prt = s.prt := ⟨rfl, rfl⟩

@[simp] theorem State.settleOld_links (s : State) (before : Nat) : (s.settleOld before).lnk = s.lnk ∧ (s.settleOld before).prt = s.prt := by
  simp only [State.settleOld]; split <;> simp

/-! ### Multicast trees (R185 to R190) -/

@[simp] theorem State.rootDone_links (s : State) (o : McOp) : (s.rootDone o).lnk = s.lnk ∧ (s.rootDone o).prt = s.prt := by
  rw [State.rootDone]; (repeat' split) <;> simp

@[simp] theorem State.sendMcAck_links (s : State) (port t : Nat) (o : McOp) :
    (s.sendMcAck port t o).lnk = s.lnk ∧ (s.sendMcAck port t o).prt = s.prt := ⟨rfl, rfl⟩

@[simp] theorem State.mcEnd_links (s : State) (t : Nat) (tr : Tree) (o : McOp) :
    (s.mcEnd t tr o).lnk = s.lnk ∧ (s.mcEnd t tr o).prt = s.prt := by
  simp only [State.mcEnd]; split <;> simp

@[simp] theorem State.mcSettle_links (s : State) (t : Nat) : (s.mcSettle t).lnk = s.lnk ∧ (s.mcSettle t).prt = s.prt := by
  simp only [State.mcSettle]
  split
  · exact ⟨rfl, rfl⟩
  · exact foldl_keeps_links (by simp) _ _

@[simp] theorem State.fenceBranch_links (s : State) (t b : Nat) : (s.fenceBranch t b).lnk = s.lnk ∧ (s.fenceBranch t b).prt = s.prt := by
  simp only [State.fenceBranch]; split <;> simp

@[simp] theorem State.fenceAll_links (s : State) (b : Nat) : (s.fenceAll b).lnk = s.lnk ∧ (s.fenceAll b).prt = s.prt := by
  refine foldl_keeps_links (fun s t => ?_) _ s
  split <;> simp

@[simp] theorem State.treeMissing_links (s : State) (h : Hdr) (rxVl : Nat) (port : Option Nat) :
    (s.treeMissing h rxVl port).lnk = s.lnk ∧ (s.treeMissing h rxVl port).prt = s.prt := by
  simp only [State.treeMissing]; split <;> simp

@[simp] theorem State.greenTree_links (s : State) (t : Tree) (h : Hdr) (atSource : Bool) (own : Option Nat) :
    (s.greenTree t h atSource own).lnk = s.lnk ∧ (s.greenTree t h atSource own).prt = s.prt := by
  simp only [State.greenTree]; (repeat' split) <;> simp

/-- A packet of this device holds no link buffer space (R209). -/
theorem State.freeRx_local (s : State) {w : WaitPkt} (hlocal : w.fromLocal = true) : s.freeRx w = s := by
  simp [State.freeRx, hlocal]

theorem State.routeTree_links (s : State) {w : WaitPkt} (port : Option Nat) (hlocal : w.fromLocal = true) :
    (s.routeTree w port).lnk = s.lnk ∧ (s.routeTree w port).prt = s.prt := by
  simp only [State.routeTree, State.freeRx_local _ hlocal]; (repeat' split) <;> simp

/-! ### Packets that the device builds, put to their ingress -/

@[simp] theorem State.inject_links (s : State) (p : Packet) (len input : Nat) (sequenced : Bool) (own : Option Nat) :
    let t := s.inject p len input sequenced own
    t.lnk = s.lnk ∧ t.prt = s.prt := by
  dsimp only
  rw [State.inject]
  split
  next h t hpath =>
    have ht := links_of_pair hpath (s.choosePath_links ..)
    dsimp only
    split
    · simpa [ht] using State.routeTree_links (t.emit _) none rfl
    · split
      next hroute => simp [links_of_pair hroute (State.lookup_links ..), ht]
      next hroute => simp [links_of_pair hroute (State.lookup_links ..), ht]

@[simp] theorem State.transitNak_links (s : State) (h : Hdr) (reason : Nat) :
    (s.transitNak h reason).lnk = s.lnk ∧ (s.transitNak h reason).prt = s.prt := by
  simp [State.transitNak, State.trnControl, State.control, State.newPid]

/-! ### Fabric time and changes of mode (R71, R506 to R508) -/

@[simp] theorem State.parentDown_links (s : State) (p : Nat) : (s.parentDown p).lnk = s.lnk ∧ (s.parentDown p).prt = s.prt := by
  simp only [State.parentDown, State.unsync]; (repeat' split) <;> simp

@[simp] theorem State.modeReply_links (s : State) : s.modeReply.lnk = s.lnk ∧ s.modeReply.prt = s.prt := by
  simp [State.modeReply]

@[simp] theorem State.modeDone_links (s : State) : s.modeDone.lnk = s.lnk ∧ s.modeDone.prt = s.prt := by
  rw [State.modeDone]; (repeat' split) <;> simp [State.enterStorm]

@[simp] theorem State.modeStepDone_links (s : State) (p : Nat) : (s.modeStepDone p).lnk = s.lnk ∧ (s.modeStepDone p).prt = s.prt := by
  rw [State.modeStepDone]; (repeat' split) <;> simp

end Sys2Proof.Machine
end

section
/-! SUPPORT. The link layer of a port: its frames, its control flits and its timers, and the statement about its events. -/
namespace Sys2Proof.Machine

/-! ### A port, its link layer and its credits, after a change -/

theorem State.lport_of_lnk {s t : State} (h : t.lnk = s.lnk) (p : Nat) : t.lport p = s.lport p := by
  rw [State.lport, h]; rfl

theorem State.linkVl_of_lnk {s t : State} (h : t.lnk = s.lnk) (p v : Nat) : t.linkVl p v = s.linkVl p v := by
  rw [State.linkVl, h]; rfl

theorem State.port_of_prt {s t : State} (h : t.prt = s.prt) (p : Nat) : t.port p = s.port p := by
  rw [State.port, h]; rfl

@[simp] theorem State.port_upPort_self (s : State) (p : Nat) (f : Port → Port) : (s.upPort p f).port p = f (s.port p) := by
  simp [State.port, State.upPort]

@[simp] theorem State.upPort_frame (s : State) (p : Nat) (f : Port → Port) :
    let t := s.upPort p f
    t.lnk = s.lnk ∧ t.obf = s.obf ∧ t.out = s.out ∧ t.pwr = s.pwr := by
  simp [State.upPort]

@[simp] theorem State.lport_upPort (s : State) (p q : Nat) (f : Port → Port) : (s.upPort p f).lport q = s.lport q := State.lport_of_lnk (by simp) q

@[simp] theorem State.lport_tally (s : State) (e n q : Nat) : (s.tally e n).lport q = s.lport q := State.lport_of_lnk (by simp) q

@[simp] theorem State.lport_settleOld (s : State) (before q : Nat) : (s.settleOld before).lport q = s.lport q := State.lport_of_lnk (by simp) q

/-- A change of the interrupt flags leaves every link. -/
@[simp] theorem State.lport_upLnk_intStatus (s : State) (q : Nat) (f : Lnk → BitVec 5) :
    (s.upLnk fun l => { l with intStatus := f l }).lport q = s.lport q := rfl

@[simp] theorem State.upLport_intStatus (s : State) (p : Nat) (f : LnkPort → LnkPort) : (s.upLport p f).lnk.intStatus = s.lnk.intStatus := rfl

@[simp] theorem State.port_emit (s : State) (o : Out) (q : Nat) : (s.emit o).port q = s.port q := rfl

@[simp] theorem State.port_upLport (s : State) (p : Nat) (f : LnkPort → LnkPort) (q : Nat) : (s.upLport p f).port q = s.port q := rfl

@[simp] theorem State.port_finishWait (s : State) (w : Wait) (status result q : Nat) : (s.finishWait w status result).port q = s.port q :=
  State.port_of_prt (by simp) q

/-- The credits of a virtual lane stand in the link layer of its port. -/
theorem State.linkVl_eq (s : State) (p v : Nat) : s.linkVl p v = (s.lport p).vls.get v (vlDefault v) := rfl

@[simp] theorem State.linkVl_upLport_self (s : State) (p v : Nat) (f : LnkPort → LnkPort) :
    (s.upLport p f).linkVl p v = (f (s.lport p)).vls.get v (vlDefault v) := by
  simp [State.linkVl_eq]

/-- What a port's receiver expects and sends: its own next number, the number it expects, what has come beyond that, and whether it still
initialises. -/
def LnkPort.numbering (l : LnkPort) : Nat × Nat × List Nat × Bool := (l.txNext, l.rxExpected, l.rxMap, l.sendInit)

theorem Tbl.get_upd_ne {α : Type} (t : Tbl α) {k i : Nat} (h : i ≠ k) (d e : α) (f : α → α) : (t.upd k d f).get i e = t.get i e := by
  simp [Tbl.get, Tbl.upd, Tbl.find_put, h]

theorem State.linkVl_upLinkVl (s : State) (p v w : Nat) (f : LinkVl → LinkVl) :
    (s.upLinkVl p v f).linkVl p w = if w = v then f (s.linkVl p v) else s.linkVl p w := by
  rw [State.upLinkVl, State.linkVl_upLport_self]
  split
  next h => subst h; exact Tbl.get_upd_self ..
  next h => exact Tbl.get_upd_ne _ h ..

@[simp] theorem State.upLinkVl_frame (s : State) (p v : Nat) (f : LinkVl → LinkVl) :
    let t := s.upLinkVl p v f
    t.prt = s.prt ∧ t.obf = s.obf ∧ (t.lport p).numbering = (s.lport p).numbering ∧ (t.lport p).state = (s.lport p).state := by
  simp [State.upLinkVl, LnkPort.numbering]

/-- A part of the link layers that a change does not touch is the same at every port. -/
theorem State.lport_upLport_keeps {β : Type} {g : LnkPort → β} {f : LnkPort → LnkPort} (hf : ∀ l, g (f l) = g l) (s : State) (p q : Nat) :
    g ((s.upLport p f).lport q) = g (s.lport q) := by
  simp only [State.lport, State.upLport, State.upLnk_lnk, Tbl.get_upd]
  split
  next h => subst h; exact hf _
  · rfl

@[simp] theorem State.sendSequences_links (s : State) (p : Nat) : (s.sendSequences p).lnk = s.lnk ∧ (s.sendSequences p).prt = s.prt := by
  rw [State.sendSequences]; (repeat' split) <;> simp

/-- A port that enters a training state keeps its mode and its drain, and its link. -/
@[simp] theorem State.setTrain_frame (s : State) (p : Nat) (t : TrainState) :
    let u := s.setTrain p t
    u.lnk = s.lnk ∧ (u.port p).train = t ∧ (u.port p).mode = (s.port p).mode ∧ (u.port p).draining = (s.port p).draining := by
  rw [State.setTrain]
  simp [State.port_of_prt (State.sendSequences_links ..).2]

@[simp] theorem State.lport_setTrain (s : State) (p : Nat) (t : TrainState) (q : Nat) : (s.setTrain p t).lport q = s.lport q :=
  State.lport_of_lnk (by simp) q

/-! ### Acknowledgements and credit reports (R205, R209) -/

@[simp] theorem State.takeAck_frame (s : State) (p ack : Nat) :
    let t := s.takeAck p ack
    t.prt = s.prt ∧ t.obf = s.obf ∧ (t.lport p).vls = (s.lport p).vls ∧ (t.lport p).numbering = (s.lport p).numbering := by
  simp only [State.takeAck]
  split
  · simp
  · refine ⟨?_, ?_, ?_, ?_⟩ <;> simp [LnkPort.restart, LnkPort.numbering]

/-- Only a replay that an acknowledgement ends changes the state of the link (R213). -/
theorem State.takeAck_state {s : State} {p : Nat} (ack : Nat) (h : (s.lport p).state ≠ .replay) :
    ((s.takeAck p ack).lport p).state = (s.lport p).state := by
  simp only [State.takeAck]
  split
  · rfl
  · simp [LnkPort.restart, h]

theorem State.takeAck_linkVl (s : State) (p ack v : Nat) : (s.takeAck p ack).linkVl p v = s.linkVl p v := by
  rw [State.linkVl_eq, (State.takeAck_frame ..).2.2.1]; rfl

/-- What a virtual lane holds of frames received. -/
def LinkVl.received (c : LinkVl) : Nat × Option OpenFrame := (c.held, c.openFrame)

/-- The receiver of a port is the same in both states: its numbers, what its virtual lanes hold, the ports and the output buffer. -/
def SameReceiver (p : Nat) (s t : State) : Prop :=
  (t.lport p).numbering = (s.lport p).numbering ∧ (∀ v, (t.linkVl p v).received = (s.linkVl p v).received) ∧ t.prt = s.prt ∧ t.obf = s.obf

theorem SameReceiver.refl (p : Nat) (s : State) : SameReceiver p s s := ⟨rfl, fun _ => rfl, rfl, rfl⟩

theorem SameReceiver.trans {p : Nat} {s t u : State} (h : SameReceiver p s t) (k : SameReceiver p t u) : SameReceiver p s u :=
  ⟨k.1.trans h.1, fun v => (k.2.1 v).trans (h.2.1 v), k.2.2.1.trans h.2.2.1, k.2.2.2.trans h.2.2.2⟩

/-- A change of a virtual lane that leaves what the lane has received. -/
theorem State.sameReceiver_upLinkVl (s : State) {p v : Nat} {f : LinkVl → LinkVl} (hf : (f (s.linkVl p v)).received = (s.linkVl p v).received) :
    SameReceiver p s (s.upLinkVl p v f) := by
  refine ⟨(s.upLinkVl_frame p v f).2.2.1, fun w => ?_, rfl, rfl⟩
  rw [State.linkVl_upLinkVl]
  split
  next h => rw [h, hf]
  · rfl

theorem State.sameReceiver_takeAck (s : State) (p ack : Nat) : SameReceiver p s (s.takeAck p ack) := by
  obtain ⟨hprt, hobf, -, hnum⟩ := s.takeAck_frame p ack
  exact ⟨hnum, fun v => by rw [State.takeAck_linkVl], hprt, hobf⟩

theorem State.sameReceiver_takeCredit (s : State) (p v count : Nat) : SameReceiver p s (s.takeCredit p v count) :=
  s.sameReceiver_upLinkVl rfl

/-- What a head tells of the other direction leaves the receiver as it is (R200). -/
theorem State.sameReceiver_takeHead (s : State) (p h : Nat) : SameReceiver p s (s.takeHead p h) := by
  have hack : SameReceiver p s (if h.testBit 32 then s.takeAck p (bitsOf h 31 16) else s) := by
    split
    · exact s.sameReceiver_takeAck ..
    · exact .refl p s
  have hcredit (t : State) (b : Bool) (v n : Nat) : SameReceiver p t (if b then t.takeCredit p v n else t) := by
    split
    · exact t.sameReceiver_takeCredit ..
    · exact .refl p t
  exact (hack.trans (hcredit ..)).trans (hcredit ..)

/-! ### Frames (R204, R206, R207) -/

/-- The number that the receiver expects is that of a new frame. -/
theorem LnkPort.judge_expected {l : LnkPort} (hmap : l.rxMap = []) : l.judge l.rxExpected = some 0 := by
  simp [LnkPort.judge, modSub_self, hmap]

theorem LnkPort.judge_of_numbering {l m : LnkPort} (h : m.numbering = l.numbering) (seq : Nat) : m.judge seq = l.judge seq := by
  simp only [LnkPort.numbering, Prod.mk.injEq] at h
  obtain ⟨-, hexpected, hmap, -⟩ := h
  simp [LnkPort.judge, hexpected, hmap]

theorem State.judge_upLinkVl (s : State) (p v seq : Nat) (f : LinkVl → LinkVl) :
    ((s.upLinkVl p v f).lport p).judge seq = (s.lport p).judge seq :=
  LnkPort.judge_of_numbering (s.upLinkVl_frame p v f).2.2.1 seq

/-- The space that a frame of one transfer took is free again where its CRC fails (R207). -/
theorem State.frameEnd_bad {s : State} {p seq d : Nat} (v flits : Nat) (pkt : Packet) (hnew : (s.lport p).judge seq = some d) :
    s.frameEnd p v seq flits pkt false false none =
      (s.upLinkVl p v fun c => { c with openFrame := none }).upLinkVl p v fun c => { c with held := c.held - flits } := by
  simp [State.frameEnd, State.judge_upLinkVl, hnew]

/-- A good frame of one transfer is accepted, and its packet goes to the routing stage (R204). -/
theorem State.frameEnd_good {s : State} {p seq d : Nat} (v flits : Nat) (pkt : Packet) (hnew : (s.lport p).judge seq = some d) :
    s.frameEnd p v seq flits pkt true false none =
      ((s.upLinkVl p v fun c => { c with openFrame := none }).acceptFrame p d).arrive p pkt (pktLen pkt.hdr) v flits := by
  simp [State.frameEnd, State.judge_upLinkVl, hnew]

/-- A frame whose CRC fails takes no space and changes no number, new or not (R207). -/
theorem State.sameReceiver_beginFrame_bad (s : State) {p head : Nat} (pkt : Packet) {t : Tag} (hlast : t.last = true) (habort : t.abort = false)
    (hopen : (s.linkVl p (bitsOf head 35 33)).openFrame = none) : SameReceiver p s (s.beginFrame p head pkt false t) := by
  simp only [State.beginFrame, hlast, habort, if_true]
  split
  next => simp [SameReceiver, State.lport, State.linkVl]
  next d hnew =>
    rw [State.frameEnd_bad _ _ _ ((State.judge_upLinkVl ..).trans hnew)]
    refine ⟨by simp, fun w => ?_, rfl, rfl⟩
    simp only [State.linkVl_upLinkVl]
    split
    next h => simp [h, LinkVl.received, hopen]
    · rfl

/-- Where a packet goes that is neither the port's own nor multicast leaves the links as they are (R163). -/
theorem State.routeArrived_lnk (s : State) {w : WaitPkt} (port : Nat) (hconsumed : consumedAtPort w.pkt.hdr = false)
    (hmulti : w.pkt.hdr.multicast = false) : (s.routeArrived w port).lnk = s.lnk := by
  simp only [State.routeArrived, hconsumed, hmulti, Bool.false_eq_true, if_false]
  split
  · simp
  · split
    next hroute => simp [links_of_pair hroute (State.lookup_links ..)]
    next hroute => simp [links_of_pair hroute (State.lookup_links ..)]

theorem State.arrive_lnk (s : State) {pkt : Packet} (port len rxVl flits : Nat) (hconsumed : consumedAtPort pkt.hdr = false)
    (hmulti : pkt.hdr.multicast = false) : (s.arrive port pkt len rxVl flits).lnk = s.lnk := by
  refine (State.routeArrived_lnk _ port hconsumed hmulti).trans ?_
  simp only [State.noteOld]
  (repeat' split) <;> simp

/-- The expected frame is accepted: the next one is expected (R204). -/
theorem State.acceptFrame_expected {s : State} {p tx e : Nat} {init : Bool} (hnum : (s.lport p).numbering = (tx, e, [], init)) :
    let t := s.acceptFrame p 0
    (t.lport p).numbering = (tx, (e + 1) % 65536, [], init) ∧ ∀ v, t.linkVl p v = s.linkVl p v := by
  simp only [LnkPort.numbering, Prod.mk.injEq] at hnum
  simp [State.acceptFrame, hnum, addOnce, advanceMap_expected, LnkPort.numbering, State.linkVl_eq]

/-- A good frame of one transfer that the receiver expects: its flits are held, and the next one is expected (R204, R209). -/
theorem State.beginFrame_expected {s : State} {p head : Nat} {pkt : Packet} {t : Tag} {tx e : Nat} {init : Bool} (hlast : t.last = true)
    (habort : t.abort = false) (hconsumed : consumedAtPort pkt.hdr = false) (hmulti : pkt.hdr.multicast = false)
    (hnum : (s.lport p).numbering = (tx, e, [], init)) (hseq : bitsOf head 15 0 = e) :
    let u := s.beginFrame p head pkt true t
    (u.lport p).numbering = (tx, (e + 1) % 65536, [], init) ∧
      (u.linkVl p (bitsOf head 35 33)).held = (s.linkVl p (bitsOf head 35 33)).held + bitsOf head 42 36 := by
  have hnew : (s.lport p).judge (bitsOf head 15 0) = some 0 := by
    simp only [LnkPort.numbering, Prod.mk.injEq] at hnum
    rw [hseq, ← hnum.2.1, LnkPort.judge_expected hnum.2.2.1]
  simp only [State.beginFrame, hnew, hlast, habort, if_true]
  rw [State.frameEnd_good _ _ _ ((State.judge_upLinkVl ..).trans hnew)]
  generalize hv : State.upLinkVl (State.upLinkVl s _ _ _) _ _ _ = v
  have hvnum : (v.lport p).numbering = (tx, e, [], init) := by simp [← hv, hnum]
  have hvheld : (v.linkVl p (bitsOf head 35 33)).held = (s.linkVl p (bitsOf head 35 33)).held + bitsOf head 42 36 := by
    simp [← hv, State.linkVl_upLinkVl]
  obtain ⟨haccept, hvls⟩ := State.acceptFrame_expected hvnum
  have hlnk := (v.acceptFrame p 0).arrive_lnk p (pktLen pkt.hdr) (bitsOf head 35 33) (bitsOf head 42 36) hconsumed hmulti
  rw [State.lport_of_lnk hlnk, State.linkVl_of_lnk hlnk, haccept, hvls, hvheld]
  exact ⟨rfl, rfl⟩

/-- A start flit with a good head is heard (R198, R200, R205, R209): it wakes the port's receiver, ends its initialisation, and tells of
the other direction. -/
def State.hearHead (s : State) (p head : Nat) : State :=
  ((s.upPort p fun x => { x with rxIdle := false }).upLport p fun l => { l with sendInit := false, initDue := false }).takeHead p head

/-- What the receiver is like when a head has been heard. -/
theorem State.hearHead_frame (s : State) (p head : Nat) :
    let t := s.hearHead p head
    (t.lport p).numbering = ((s.lport p).txNext, (s.lport p).rxExpected, (s.lport p).rxMap, false) ∧
      (∀ v, (t.linkVl p v).received = (s.linkVl p v).received) ∧ (t.port p).uncorr = (s.port p).uncorr ∧ t.obf = s.obf := by
  obtain ⟨hnum, hvls, hprt, hobf⟩ := ((s.upPort p fun x => { x with rxIdle := false }).upLport p fun l => { l with
    sendInit := false, initDue := false }).sameReceiver_takeHead p head
  refine ⟨hnum.trans ?_, fun v => (hvls v).trans ?_, ?_, hobf.trans ?_⟩
  · simp [LnkPort.numbering]
  · simp [State.linkVl_eq]
  · simp [State.hearHead, State.port_of_prt hprt]
  · simp

/-- A start flit with a good head, on a lane with no frame open, of a device that is awake (R42, R204). -/
theorem State.rxFrame_start {s : State} {p : Nat} {sync : BitVec 16} {head : BitVec 128} {t : Tag} (pkt : Packet) (crcOk : Bool)
    (hawake : s.awake = true) (hup : (s.lport p).state = .up) (htag : readTag sync = some t) (hkind : t.kind = 1)
    (hhead : headTaken head t = true) (hopen : (s.linkVl p t.vl).openFrame = none) :
    bitsOf head.toNat 35 33 = t.vl ∧
      s.rxFrame p sync head pkt crcOk = (s.hearHead p head.toNat).beginFrame p head.toNat pkt crcOk t := by
  have hvl : bitsOf head.toNat 35 33 = t.vl := by
    simp only [headTaken, Bool.and_eq_true, beq_iff_eq] at hhead
    exact hhead.1.1.2
  have hnone : ((s.hearHead p head.toNat).linkVl p t.vl).openFrame = none :=
    (congrArg Prod.snd ((s.hearHead_frame p head.toNat).2.1 t.vl)).trans hopen
  refine ⟨hvl, ?_⟩
  simp only [State.hearHead] at hnone ⊢
  simp [State.rxFrame, hup, htag, hkind, hhead, wake_awake s hawake, State.frameStart, hvl, hnone]

/-- The uncorrectable codewords that came since the last flit are counted (R239). -/
def State.countLost (s : State) (p lost : Nat) : State := s.upPort p fun x => { x with uncorr := satAdd 32 x.uncorr lost }

/-- LINK_FRAME_RECEIVE of a start flit with a good head, on a lane with no frame open (R200, R204). -/
theorem exec_linkFrameReceive_gives {s : State} {p : Nat} {sync : BitVec 16} {head : BitVec 128} {t : Tag} (pid : Nat) (bytes : List Nat)
    (frameCrc : BitVec 32) (marked : Bool) (lost : Nat) (hawake : s.awake = true) (hup : (s.lport p).state = .up)
    (htag : readTag sync = some t) (hkind : t.kind = 1) (hhead : headTaken head t = true) (hopen : (s.linkVl p t.vl).openFrame = none) :
    bitsOf head.toNat 35 33 = t.vl ∧ Gives (exec (.linkFrameReceive p sync head pid bytes frameCrc marked lost) s)
      (((s.countLost p lost).hearHead p head.toNat).beginFrame p head.toNat (readPkt pid bytes) (!marked && frameCrc.toNat == crc32 bytes) t) := by
  obtain ⟨hvl, hstart⟩ := State.rxFrame_start (s := s.countLost p lost) (readPkt pid bytes) (!marked && frameCrc.toNat == crc32 bytes) hawake
    hup htag hkind hhead hopen
  exact ⟨hvl, gives_ends hstart⟩

/-- What the receiver is like when a head has been heard and the lost codewords are counted. -/
theorem State.heard_frame (s : State) (p lost head : Nat) :
    let t := (s.countLost p lost).hearHead p head
    (t.lport p).numbering = ((s.lport p).txNext, (s.lport p).rxExpected, (s.lport p).rxMap, false) ∧
      (∀ v, (t.linkVl p v).received = (s.linkVl p v).received) ∧ (t.port p).uncorr = satAdd 32 (s.port p).uncorr lost ∧ t.obf = s.obf := by
  obtain ⟨hnum, hvls, huncorr, hobf⟩ := (s.countLost p lost).hearHead_frame p head
  exact ⟨hnum, hvls, by simpa [State.countLost] using huncorr, hobf⟩

/-! ### Link control flits (R201, R207, R209, R214) -/

/-- Virtual lanes changed one after the other: each lane of the list by its own change, and no other. -/
theorem State.foldl_upLinkVl (f : Nat → LinkVl → LinkVl) {l : List Nat} (hl : l.Nodup) (s : State) (p w : Nat) :
    (l.foldl (fun s v => s.upLinkVl p v (f v)) s).linkVl p w = if w ∈ l then f w (s.linkVl p w) else s.linkVl p w := by
  induction l generalizing s with
  | nil => rfl
  | cons v l ih =>
    obtain ⟨hv, hl⟩ := List.nodup_cons.mp hl
    rw [List.foldl_cons, ih hl, State.linkVl_upLinkVl]
    by_cases hw : w = v
    · subst hw; simp [hv]
    · simp [hw]

@[simp] theorem State.foldl_upLinkVl_frame (f : Nat → LinkVl → LinkVl) (l : List Nat) (s : State) (p : Nat) :
    let t := l.foldl (fun s v => s.upLinkVl p v (f v)) s
    t.prt = s.prt ∧ (t.lport p).numbering = (s.lport p).numbering ∧ (t.lport p).state = (s.lport p).state :=
  ⟨foldl_keeps State.prt (by simp) l s, foldl_keeps (fun t => (t.lport p).numbering) (by simp) l s,
    foldl_keeps (fun t => (t.lport p).state) (by simp) l s⟩

/-- A good control flit is heard (R201, R205). -/
def State.hearControl (s : State) (p f : Nat) : State :=
  let s := s.upPort p fun x => { x with rxIdle := false }
  if f.testBit 20 then s.takeAck p (bitsOf f 19 4) else s

theorem State.hearControl_frame (s : State) (p f : Nat) :
    let t := s.hearControl p f
    (t.lport p).vls = (s.lport p).vls ∧ (t.port p).draining = (s.port p).draining := by
  simp only [State.hearControl]
  split <;> simp [State.port_of_prt (State.takeAck_frame ..).1]

theorem State.hearControl_state {s : State} {p : Nat} (f : Nat) (h : (s.lport p).state ≠ .replay) :
    ((s.hearControl p f).lport p).state = (s.lport p).state := by
  simp only [State.hearControl]
  split
  · simp [State.takeAck_state _, h]
  · simp

/-- The count of flits freed of a virtual lane in a control flit, or its share (R201). -/
def flitCount (f v : Nat) : Nat := bitsOf f (34 + 14 * v) (21 + 14 * v)

/-- A virtual lane whose far end reports a count of flits freed (R209). -/
def LinkVl.credit (c : LinkVl) (count : Nat) : LinkVl :=
  { c with debited := c.debited - modSub 16384 count c.reported, reported := count }

theorem State.settleDrain_idle {s : State} {p : Nat} (h : (s.port p).draining = false) : s.settleDrain p = s := by
  simp [State.settleDrain, h]

/-- A control flit of subtype 0, at a port that does not drain, reports credit for every virtual lane (R209). -/
theorem State.rxControl_credit {s : State} {p : Nat} {flit : BitVec 512} {sync : BitVec 16} {t : Tag} (hup : (s.lport p).state ≠ .down)
    (htag : readTag sync = some t) (hkind : t.kind = 2) (hflit : flitOk flit = true) (htype : bitsOf flit.toNat 3 0 = 0)
    (hdrain : (s.port p).draining = false) :
    s.rxControl p flit sync = (List.range 7).foldl (fun s v => s.upLinkVl p v fun c => c.credit (flitCount flit.toNat v))
      ((s.hearControl p flit.toNat).upLport p fun l => { l with sendInit := false, initDue := false }) := by
  refine Eq.trans ?_ (State.settleDrain_idle (p := p) ?_)
  · simp [State.rxControl, hup, htag, hkind, hflit, htype]
    rfl
  · rw [State.port_of_prt (State.foldl_upLinkVl_frame ..).1, State.port_upLport, (s.hearControl_frame p _).2, hdrain]

/-- A control flit of subtype 1 brings a link that initialises up, with the far end's shares as its limits (R214). -/
theorem State.rxControl_init {s : State} {p : Nat} {flit : BitVec 512} {sync : BitVec 16} {t : Tag} (hinit : (s.lport p).state = .init)
    (htag : readTag sync = some t) (hkind : t.kind = 2) (hflit : flitOk flit = true) (htype : bitsOf flit.toNat 3 0 = 1) :
    s.rxControl p flit sync = (List.range 7).foldl (fun s v => s.upLinkVl p v fun c =>
        { c with limit := flitCount flit.toNat v, debited := 0, reported := 0 })
      ((s.hearControl p flit.toNat).upLport p fun l => { l with state := .up }) := by
  have hheard := State.hearControl_state flit.toNat (show (s.lport p).state ≠ .replay by simp [hinit])
  rw [hinit] at hheard
  simp only [State.hearControl] at hheard
  simp [State.rxControl, hinit, htag, hkind, hflit, htype, hheard]
  rfl

/-! ### The replay timer (R213, R214) -/

/-- The replay timer runs on a link that is up, for a frame that is unacknowledged. -/
theorem State.replayTimerRuns_up {s : State} {p : Nat} (hruns : s.replayTimerRuns p = true) :
    ((s.lport p).state = .up ∨ (s.lport p).state = .replay) ∧ ∃ f fs, (s.lport p).replay = f :: fs := by
  simp only [State.replayTimerRuns, Bool.and_eq_true, Bool.or_eq_true, decide_eq_true_eq] at hruns
  obtain ⟨⟨hup, -⟩, hsent⟩ := hruns
  refine ⟨hup, ?_⟩
  cases h : (s.lport p).replay with
  | nil => simp [h] at hsent
  | cons f fs => exact ⟨f, fs, rfl⟩

/-- Every unacknowledged frame is to be sent again. -/
@[simp] theorem State.enterReplay_frame (s : State) (p : Nat) :
    let u := s.enterReplay p
    (u.lport p).state = (if (s.lport p).replay.isEmpty then .up else .replay) ∧ (u.lport p).timeouts = (s.lport p).timeouts ∧
      (u.lport p).toReplay = (s.lport p).replay.map (·.seq) ∧ u.lnk.intStatus = s.lnk.intStatus := by
  simp [State.enterReplay, LnkPort.restart]

/-- Below the limit, every unacknowledged frame is replayed. -/
theorem State.replayTimeout_replays {s : State} {p : Nat} (hruns : s.replayTimerRuns p = true)
    (hbelow : (s.lport p).timeouts + 1 < (s.lport p).limitNow) :
    let u := s.replayTimeout p
    (u.lport p).state = .replay ∧ (u.lport p).timeouts = (s.lport p).timeouts + 1 ∧
      (u.lport p).toReplay = (s.lport p).replay.map (·.seq) ∧ u.lnk.intStatus = setFlag s.lnk.intStatus 0 := by
  obtain ⟨-, f, fs, hreplay⟩ := State.replayTimerRuns_up hruns
  have hless : ¬ (s.lport p).limitNow ≤ (s.lport p).timeouts + 1 := Nat.not_le.mpr hbelow
  simp [State.replayTimeout, hruns, hless, hreplay]

/-- The lanes of a link that is up train again (R214, R246). -/
theorem State.retrainPort_up {s : State} {p : Nat} (hup : (s.lport p).state = .up ∨ (s.lport p).state = .replay) :
    ((s.retrainPort p).lport p).state = .retrain ∧ ((s.retrainPort p).port p).train = .sync := by
  simp [State.retrainPort, State.startSync, State.enterRetrain, hup]

/-- At the limit, the link retrains. -/
theorem State.replayTimeout_retrains {s : State} {p : Nat} (hruns : s.replayTimerRuns p = true)
    (hlimit : (s.lport p).limitNow ≤ (s.lport p).timeouts + 1) :
    let u := s.replayTimeout p
    (u.lport p).state = .retrain ∧ (u.port p).train = .sync := by
  simp only [State.replayTimeout, hruns, hlimit, Bool.not_true, Bool.false_eq_true, if_false, if_true]
  exact State.retrainPort_up (by simpa using (State.replayTimerRuns_up hruns).1)

/-! ### Links that go down (R214, R215, R262) -/

@[simp] theorem State.settleQueue_prt (s : State) (q : Nat) : (s.settleQueue q).prt = s.prt := by
  simp only [State.settleQueue]; split <;> simp

@[simp] theorem State.charge_prt (s : State) (c : Charge) (f : Nat → Nat) : (s.charge c f).prt = s.prt := by
  simp only [State.charge]; (repeat' split) <;> simp

@[simp] theorem State.freePkt_prt (s : State) (b : BufPkt) : (s.freePkt b).prt = s.prt := by
  simp only [State.freePkt, State.upAccount]; split <;> simp

@[simp] theorem State.dropCopies_prt (s : State) (pid : Nat) : (s.dropCopies pid).prt = s.prt := by
  refine foldl_keeps State.prt (fun s b => ?_) _ _
  split <;> simp [State.frameSent]

@[simp] theorem State.dropOpen_prt (s : State) (p v : Nat) : (s.dropOpen p v).prt = s.prt := by
  rw [State.dropOpen]; (repeat' split) <;> simp

@[simp] theorem State.dropAllOpen_prt (s : State) (p : Nat) : (s.dropAllOpen p).prt = s.prt :=
  foldl_keeps State.prt (by simp) _ s

/-- A link that is lost is Down, with nothing to replay, and the ports are as they were (R215). -/
theorem State.linkLost_frame (s : State) (p : Nat) :
    let u := s.linkLost p
    (u.lport p).state = .down ∧ (u.lport p).replay = [] ∧ u.prt = s.prt := by
  simp only [State.linkLost]
  generalize hdown : State.upLport _ p _ = v
  have hv : (v.lport p).state = .down ∧ (v.lport p).replay = [] ∧ v.prt = s.prt := by simp [← hdown]
  obtain ⟨hlnk, hprt⟩ := foldl_keeps_links (g := fun s (f : ReplayFrame) => s.transitNak f.pkt.hdr 3) (by simp)
    ((s.lport p).replay.filter (·.sequenced)) v
  simp [State.lport_of_lnk hlnk, hprt, hv]

theorem State.linkDown_frame (s : State) (p : Nat) :
    let u := s.linkDown p
    (u.lport p).state = .down ∧ (u.lport p).replay = [] ∧ u.prt = s.prt := by
  have hlnk : (s.linkDown p).lnk = ((s.linkLost p).upLnk fun l => { l with intStatus := setFlag l.intStatus 2 }).lnk := by
    simp [State.linkDown]
  obtain ⟨hstate, hreplay, hprt⟩ := s.linkLost_frame p
  refine ⟨?_, ?_, ?_⟩
  · rw [State.lport_of_lnk hlnk, State.lport_upLnk_intStatus, hstate]
  · rw [State.lport_of_lnk hlnk, State.lport_upLnk_intStatus, hreplay]
  · simp [State.linkDown, hprt]

theorem State.startDetect_train (s : State) (p : Nat) : ((s.startDetect p).port p).train = .detect :=
  (State.setTrain_frame ..).2.1

/-- A port that is switched off is Disabled, and drains no more (R262). -/
theorem State.portOff_port (s : State) (p : Nat) :
    let x := (s.portOff p).port p
    x.mode = 0 ∧ x.train = .disabled ∧ x.draining = false := by
  simp [State.portOff]

/-! ### Initialisation flits (R202, R214) -/

/-- A subtype 1 flit falls due. -/
def LnkPort.due (l : LnkPort) : LnkPort := { l with initDue := true }

/-- What such a flit leaves of a link layer, it leaves of all. -/
theorem State.lport_due_keeps {β : Type} (g : LnkPort → β) (hg : ∀ l, g l.due = g l) (s : State) (p q : Nat) :
    g ((s.upLport p LnkPort.due).lport q) = g (s.lport q) :=
  State.lport_upLport_keeps hg s p q

/-- A flit that is due has no part in which packets may be selected (R128). -/
theorem State.eligible_due (s : State) (p : Nat) : (s.upLport p LnkPort.due).eligible = s.eligible := by
  funext b
  have hcut (q : Nat) := s.lport_due_keeps LnkPort.cutFrame (fun _ => rfl) p q
  have hstart (o v n : Nat) : (s.upLport p LnkPort.due).canStart o v n = s.canStart o v n := by
    have hstate := s.lport_due_keeps LnkPort.state (fun _ => rfl) p o
    have hagain := s.lport_due_keeps LnkPort.toReplay (fun _ => rfl) p o
    have hreplayCut := s.lport_due_keeps LnkPort.replayCut (fun _ => rfl) p o
    have hflits := s.lport_due_keeps LnkPort.flits (fun _ => rfl) p o
    have hvl : (s.upLport p LnkPort.due).linkVl o v = s.linkVl o v := by
      rw [State.linkVl_eq, s.lport_due_keeps LnkPort.vls (fun _ => rfl) p o]; rfl
    simp only [State.canStart, hstate, hagain, hreplayCut, hflits, hvl, State.port_upLport]
  have hheld : (s.upLport p LnkPort.due).slotHeld b.output b.vl = s.slotHeld b.output b.vl := by
    rw [State.slotHeld, hcut]; rfl
  simp only [State.eligible, State.readyBut, State.credited, hstart, hheld]
  rfl

theorem State.flitReady_due (s : State) (p : Nat) : (s.upLport p LnkPort.due).flitReady p = s.flitReady p := by
  simp only [State.flitReady, State.lport_upLport_self, State.eligible_due]
  rfl

/-- The flit goes in a slot that no frame flit is ready for. -/
theorem State.controlSlot_due {s : State} {p : Nat} (hready : s.flitReady p = false) :
    let u := (s.upLport p LnkPort.due).controlSlot p
    (u.lport p).initDue = false ∧ (u.lport p).ackTold = (s.lport p).rxExpected ∧
      u.out = .controlFlit p (controlFlit 1 (s.lport p).rxExpected ((List.range 7).map fun v => (s.linkVl p v).share)) :: s.out := by
  have hsent : (s.upLport p LnkPort.due).controlSlot p =
      ((s.upLport p LnkPort.due).upPort p fun x => { x with txIdle := false }).sendControl p 1 := by
    simp [State.controlSlot, State.flitReady_due, hready, LnkPort.due]
  have hshare (v : Nat) : ((s.upLport p LnkPort.due).upPort p fun x => { x with txIdle := false }).linkVl p v = s.linkVl p v := by
    simp [State.linkVl_eq, LnkPort.due]
  simp [hsent, State.sendControl, hshare, LnkPort.due]

theorem State.controlSlot_waits {s : State} {p : Nat} (hready : s.flitReady p = true) :
    (s.upLport p LnkPort.due).controlSlot p = s.upLport p LnkPort.due := by
  simp [State.controlSlot, State.flitReady_due, hready]

/-! ### The statement -/

/-- Settles O9: a frame, a control flit and each timer by what the lemmas above say of the link layer that it reaches. -/
theorem linkEventsTakeEffect : Obligations.LinkEventsTakeEffect := by
  unfold Obligations.LinkEventsTakeEffect
  refine ⟨?good, ?bad, ?credit, ?init, ?replay, ?retrain, ?limit, ?flitGoes, ?flitWaits, ?drain⟩
  case good =>
    intro s p sync head pid bytes frameCrc lost t hup hawake htag hkind hlast habort hhead hcrc hconsumed hmulti hopen hmap hseq
    obtain ⟨hvl, hgives⟩ := exec_linkFrameReceive_gives pid bytes frameCrc false lost hawake hup htag hkind hhead hopen
    have hok : (!false && frameCrc.toNat == crc32 bytes) = true := by simp [hcrc]
    obtain ⟨hnum, hreceived, -, -⟩ := s.heard_frame p lost head.toNat
    rw [hmap] at hnum
    have hbefore : (((s.countLost p lost).hearHead p head.toNat).linkVl p t.vl).held = (s.linkVl p t.vl).held :=
      congrArg Prod.fst (hreceived t.vl)
    obtain ⟨hafter, hheld⟩ := State.beginFrame_expected hlast habort hconsumed hmulti hnum hseq
    rw [hok] at hgives
    simp only [LnkPort.numbering, Prod.mk.injEq] at hafter
    obtain ⟨htx, hexpected, hnone, hinit⟩ := hafter
    rw [hvl, hbefore] at hheld
    exact ⟨_, hgives, hexpected, hnone, hinit, hheld, htx⟩
  case bad =>
    intro s p sync head pid bytes frameCrc marked lost t hup hawake htag hkind hlast habort hhead hbad hopen
    obtain ⟨hvl, hgives⟩ := exec_linkFrameReceive_gives pid bytes frameCrc marked lost hawake hup htag hkind hhead hopen
    have hok : (!marked && frameCrc.toNat == crc32 bytes) = false := by
      rcases hbad with hmarked | hcrc
      · simp [hmarked]
      · simp [hcrc]
    obtain ⟨hnum, hreceived, huncorr, hobf⟩ := s.heard_frame p lost head.toNat
    have hnone := (congrArg Prod.snd (hreceived t.vl)).trans hopen
    obtain ⟨hafter, hvls, hprt, hbuffer⟩ := State.sameReceiver_beginFrame_bad _ (readPkt pid bytes) hlast habort (hvl ▸ hnone)
    rw [hok] at hgives
    refine ⟨_, hgives, ?_, ?_, hbuffer.trans hobf, ?_⟩
    · exact congrArg (·.2.1) (hafter.trans hnum)
    · exact congrArg Prod.fst ((hvls t.vl).trans (hreceived t.vl))
    · rw [State.port_of_prt hprt, huncorr]; rfl
  case credit =>
    intro s p flit sync t hup htag hkind hflit htype hdrain
    refine ⟨_, gives_ends (State.rxControl_credit hup htag hkind hflit htype hdrain), ?_, fun v hv => ?_⟩
    · exact congrArg (·.2.2.2) ((State.foldl_upLinkVl_frame ..).2.1.trans (congrArg LnkPort.numbering (State.lport_upLport_self ..)))
    · have hheard : ((s.hearControl p flit.toNat).upLport p fun l => { l with sendInit := false, initDue := false }).linkVl p v =
          s.linkVl p v := by
        rw [State.linkVl_upLport_self, (s.hearControl_frame p _).1]; rfl
      rw [State.foldl_upLinkVl _ List.nodup_range, if_pos (List.mem_range.mpr hv), hheard]
      exact ⟨rfl, rfl, rfl⟩
  case init =>
    intro s p flit sync t hinit htag hkind hflit htype
    refine ⟨_, gives_ends (State.rxControl_init hinit htag hkind hflit htype), ?_, fun v hv => ?_⟩
    · simp
    · rw [State.foldl_upLinkVl _ List.nodup_range, if_pos (List.mem_range.mpr hv)]
      exact ⟨rfl, rfl⟩
  case replay =>
    intro s p hruns hbelow
    exact ⟨_, gives_ends rfl, State.replayTimeout_replays hruns hbelow⟩
  case retrain =>
    intro s p hruns hlimit
    exact ⟨_, gives_ends rfl, State.replayTimeout_retrains hruns hlimit⟩
  case limit =>
    intro s p hretrain
    refine ⟨((s.startDetect p).linkDown p).modeStepDone p, gives_ends (if_pos hretrain), ?_⟩
    obtain ⟨hlnk, hmode⟩ := ((s.startDetect p).linkDown p).modeStepDone_links p
    obtain ⟨hdown, hreplay, hprt⟩ := (s.startDetect p).linkDown_frame p
    rw [State.lport_of_lnk hlnk, State.port_of_prt (hmode.trans hprt)]
    exact ⟨hdown, hreplay, s.startDetect_train p⟩
  case flitGoes =>
    intro s p hsend hready
    exact ⟨_, gives_ends (if_pos hsend), State.controlSlot_due hready⟩
  case flitWaits =>
    intro s p hsend hready
    refine ⟨_, gives_ends ((if_pos hsend).trans (State.controlSlot_waits hready)), ?_⟩
    simp [LnkPort.due]
  case drain =>
    intro s p hdrain
    exact ⟨_, gives_ends (if_pos hdrain), s.portOff_port p⟩

end Sys2Proof.Machine
end

section
/-! SUPPORT. Lanes and ports: what a change of one leaves of the others, what a port that enters a training state keeps, what the commands of
ports and lanes answer, and the statement about them. -/
namespace Sys2Proof.Machine

/-! ### A port and a lane after a change -/

theorem State.port_upPort (s : State) (p q : Nat) (f : Port → Port) : (s.upPort p f).port q = if q = p then f (s.port p) else s.port q := by
  split
  next h => subst h; exact s.port_upPort_self q f
  next h => simp [State.port, State.upPort, Tbl.get_put, h]

theorem State.lane_of_prt {s t : State} (h : t.prt = s.prt) (l : Nat) : t.lane l = s.lane l := by
  rw [State.lane, h]; rfl

theorem State.lane_upLane (s : State) (l k : Nat) (f : Lane → Lane) : (s.upLane l f).lane k = if k = l then f (s.lane l) else s.lane k :=
  Tbl.get_upd ..

@[simp] theorem State.lane_upLane_self (s : State) (l : Nat) (f : Lane → Lane) : (s.upLane l f).lane l = f (s.lane l) := Tbl.get_upd_self ..

@[simp] theorem State.port_upLane (s : State) (l : Nat) (f : Lane → Lane) (p : Nat) : (s.upLane l f).port p = s.port p := rfl

@[simp] theorem State.lane_upPort (s : State) (p : Nat) (f : Port → Port) (l : Nat) : (s.upPort p f).lane l = s.lane l := rfl

@[simp] theorem State.lane_emit (s : State) (o : Out) (l : Nat) : (s.emit o).lane l = s.lane l := rfl

@[simp] theorem State.port_upHly (s : State) (f : Hly → Hly) (p : Nat) : (s.upHly f).port p = s.port p := rfl

@[simp] theorem State.lane_upHly (s : State) (f : Hly → Hly) (l : Nat) : (s.upHly f).lane l = s.lane l := rfl

/-- A change of a lane leaves the ports and the flags of interrupts (R269), and the other blocks. -/
@[simp] theorem State.upLane_frame (s : State) (l : Nat) (f : Lane → Lane) :
    let t := s.upLane l f
    t.prt.ports = s.prt.ports ∧ t.prt.intStatus = s.prt.intStatus ∧ t.prt.lneStatus = s.prt.lneStatus ∧ t.out = s.out ∧ t.pwr = s.pwr ∧
      t.lnk = s.lnk := ⟨rfl, rfl, rfl, rfl, rfl, rfl⟩

/-- A change of a port leaves the lanes and the flags of interrupts (R269), and the reservations. -/
@[simp] theorem State.upPort_keeps (s : State) (p : Nat) (f : Port → Port) :
    let t := s.upPort p f
    t.prt.lanes = s.prt.lanes ∧ t.prt.intStatus = s.prt.intStatus ∧ t.prt.lneStatus = s.prt.lneStatus ∧ t.adm = s.adm :=
  ⟨rfl, rfl, rfl, rfl⟩

@[simp] theorem State.refillEgress_keeps (s : State) (o : Nat) :
    let t := s.refillEgress o
    t.prt = s.prt ∧ t.adm = s.adm ∧ t.pwr = s.pwr := ⟨rfl, rfl, rfl⟩

@[simp] theorem State.port_refillEgress (s : State) (o p : Nat) : (s.refillEgress o).port p = s.port p := rfl

/-- A message on the lane-management channel is an output, and nothing else (R250). -/
@[simp] theorem State.sendLaneMsg_frame (s : State) (p type lane rate width codeword : Nat) :
    let t := s.sendLaneMsg p type lane rate width codeword
    t.prt = s.prt ∧ t.lnk = s.lnk ∧ t.pwr = s.pwr ∧ t.out = .laneMsg p (laneMessage type lane rate width codeword) :: s.out :=
  ⟨rfl, rfl, rfl, rfl⟩

@[simp] theorem State.port_sendLaneMsg (s : State) (p type lane rate width codeword q : Nat) :
    (s.sendLaneMsg p type lane rate width codeword).port q = s.port q := rfl

@[simp] theorem State.lane_sendLaneMsg (s : State) (p type lane rate width codeword l : Nat) :
    (s.sendLaneMsg p type lane rate width codeword).lane l = s.lane l := rfl

/-! ### A port that enters a training state (R243, R251) -/

/-- The port in the training state that it enters: the codewords are numbered from its entry to Lock. -/
def Port.entered (x : Port) (t : TrainState) : Port := { x with
  train := t, codeword := if t = .lock then 0 else x.codeword, codewordPart := if t = .lock then 0 else x.codewordPart }

@[simp] theorem State.sendSequences_frame (s : State) (p : Nat) : (s.sendSequences p).adm = s.adm ∧ (s.sendSequences p).pwr = s.pwr := by
  rw [State.sendSequences]; (repeat' split) <;> simp

/-- Entering a training state changes the port alone. -/
theorem State.setTrain_prt (s : State) (p : Nat) (t : TrainState) : (s.setTrain p t).prt = (s.upPort p fun x => x.entered t).prt := by
  rw [State.setTrain, (State.sendSequences_links ..).2]; rfl

@[simp] theorem State.setTrain_keeps (s : State) (p : Nat) (t : TrainState) :
    let u := s.setTrain p t
    u.prt.lanes = s.prt.lanes ∧ u.prt.intStatus = s.prt.intStatus ∧ u.prt.lneStatus = s.prt.lneStatus ∧ u.adm = s.adm ∧ u.pwr = s.pwr := by
  simp only [State.setTrain_prt]
  simp [State.setTrain]

@[simp] theorem State.port_setTrain_self (s : State) (p : Nat) (t : TrainState) : (s.setTrain p t).port p = (s.port p).entered t :=
  (State.port_of_prt (s.setTrain_prt p t) p).trans (s.port_upPort_self p _)

theorem State.port_setTrain_other (s : State) {p q : Nat} (t : TrainState) (h : q ≠ p) : (s.setTrain p t).port q = s.port q := by
  rw [State.port_of_prt (s.setTrain_prt p t), State.port_upPort, if_neg h]

@[simp] theorem State.lane_setTrain (s : State) (p : Nat) (t : TrainState) (l : Nat) : (s.setTrain p t).lane l = s.lane l :=
  State.lane_of_prt (s.setTrain_prt p t) l

/-- Training starts at Detect with nothing known of the far end, and with what the port is set to (R243). -/
theorem State.startDetect_frame (s : State) (p : Nat) :
    let u := s.startDetect p
    let x := u.port p
    x.train = .detect ∧ x.trainedRate = none ∧ x.mode = (s.port p).mode ∧ x.width = (s.port p).width ∧ x.maxRate = (s.port p).maxRate ∧
      x.backoffs = (s.port p).backoffs ∧ u.pool = s.pool ∧ u.adm = s.adm := by
  simp [State.startDetect, Port.entered]

/-! ### PORT_MODE_SET (R262, R266) -/

theorem State.linkPorts_single {s : State} {p : Nat} (h : (s.port p).width ≠ 4) : s.linkPorts p = [p] := by
  simp [State.linkPorts, h]

/-- A port that is Disabled takes a mode of one port. -/
theorem portModeSetBody_enters {s : State} {port mode width maxRate : Nat} (hlow : 2 ≤ port) (hhigh : port ≤ 31)
    (htakes : modeTakes mode width maxRate = true) (hmode : mode ≠ 0) (hwidth : width ≠ 4) (hoff : (s.port port).mode = 0) :
    portModeSetBody port mode width maxRate s = .ok (s.setMode port mode width maxRate false) := by
  have hport : ¬ port ≤ 1 := by omega
  rw [portModeSetBody, refuseIf_none _ _ (by simp [*])]
  simp [hmode, hwidth]

/-- Mode 0 of a port that is Disabled already. -/
theorem portModeSetBody_disabled {s : State} {port width maxRate : Nat} (hlow : 2 ≤ port) (hhigh : port ≤ 31) (hwidth : width ≤ 4)
    (hrate : maxRate ≤ 11) (hfree : (s.linkPorts port).any s.portUsed = false) (hoff : (s.port port).mode = 0) :
    portModeSetBody port 0 width maxRate s = .ok s := by
  have hport : ¬ port ≤ 1 := by omega
  rw [portModeSetBody, refuseIf_none _ _ (by simp [modeTakes, *])]
  simp [hoff]

/-- Mode 0 of a port that nothing uses and whose link is not up. -/
theorem portModeSetBody_off {s : State} {port width maxRate : Nat} (hlow : 2 ≤ port) (hhigh : port ≤ 31) (hwidth : width ≤ 4)
    (hrate : maxRate ≤ 11) (hfree : s.portUsed port = false) (hon : (s.port port).mode ≠ 0) (hsingle : (s.port port).width ≠ 4)
    (hdown : s.linkUp port = false) : portModeSetBody port 0 width maxRate s = .ok (s.portOff port) := by
  have hport : ¬ port ≤ 1 := by omega
  have hports := State.linkPorts_single hsingle
  rw [portModeSetBody, refuseIf_none _ _ (by simp [modeTakes, *])]
  simp [hon, hdown, hports]

/-- Native mode starts the training at Detect (R243). -/
theorem State.setMode_native (s : State) (p width maxRate : Nat) (lead : Bool) :
    let u := s.setMode p 1 width maxRate lead
    let x := u.port p
    x.mode = 1 ∧ x.width = width ∧ x.maxRate = maxRate ∧ x.train = .detect ∧ x.trainedRate = none ∧ u.pool = s.pool ∧ u.adm = s.adm := by
  simp [State.setMode, State.startDetect_frame]

/-- The other modes train by their own standard, which the model starts at Sync (R263). -/
theorem State.setMode_other {mode : Nat} (hnative : mode ≠ 1) (htest : mode ≠ 6) (s : State) (p width maxRate : Nat) (lead : Bool) :
    let u := s.setMode p mode width maxRate lead
    let x := u.port p
    x.mode = mode ∧ x.train = .sync ∧ u.pool = s.pool := by
  simp [State.setMode, Port.entered]

/-! ### LANE_SET, LANE_SPARE, LANE_TEST and LANE_QUERY (R252, R257, R266, R267) -/

/-- LANE_SET changes the figures that its mask names (R267). -/
def Port.setLane (x : Port) (cm corrThreshold corrWindow marginFloor : Nat) (autoSpare idleEnable : Bool) (idleEntry trainTimeout : Nat) :
    Port := { x with
  corrThreshold := pick cm 0 corrThreshold x.corrThreshold
  corrWindow := pick cm 1 corrWindow x.corrWindow
  marginFloor := pick cm 2 marginFloor x.marginFloor
  autoSpare := pick cm 3 autoSpare x.autoSpare
  idleEnable := pick cm 4 idleEnable x.idleEnable
  idleEntry := pick cm 5 idleEntry x.idleEntry
  trainTimeout := pick cm 6 trainTimeout x.trainTimeout }

theorem laneSetBody_ok {s : State} {port : Nat} (cm : Nat) {corrThreshold corrWindow marginFloor : Nat} (autoSpare idleEnable : Bool)
    {idleEntry trainTimeout : Nat} (hport : port ≤ 31) (hnative : s.isNative port = true) (hthreshold : 1 ≤ corrThreshold)
    (hthreshold' : corrThreshold ≤ 65535) (hwindow : 1 ≤ corrWindow) (hwindow' : corrWindow ≤ 1000) (hfloor : marginFloor ≤ 500)
    (hidle : 1 ≤ idleEntry) (hidle' : idleEntry ≤ 1000) (htrain : 10 ≤ trainTimeout) (htrain' : trainTimeout ≤ 1000) :
    laneSetBody port cm corrThreshold corrWindow marginFloor autoSpare idleEnable idleEntry trainTimeout s =
      .ok (s.upPort port fun x => x.setLane cm corrThreshold corrWindow marginFloor autoSpare idleEnable idleEntry trainTimeout) :=
  refuseIf_none _ _ (by simp [outside_eq_false, *])

/-- LANE_SPARE on an Up port at rest, with a channel and a good spare that is free or holds the lane to be returned. -/
theorem laneSpareBody_ok {s : State} {port action lane : Nat} (hport : port ≤ 31) (hlane : lane ≤ 7) (hnative : s.isNative port = true)
    (hup : s.linkUp port = true) (hrest : (s.port port).busy = false) (hchannel : (s.port port).channelOk = true)
    (hgood : (s.port port).spareFailed = false)
    (hspare : action = 0 ∧ lane < 2 ^ (s.port port).trainedWidth.getD 3 ∧ (s.port port).spareFor = none ∨
      action = 1 ∧ (s.port port).spareFor = some lane) :
    laneSpareBody port action lane s = .ok (s.askSubst port lane (action = 1)) := by
  refine refuseIf_none _ _ ?_
  rcases hspare with ⟨rfl, hactive, hfree⟩ | ⟨rfl, hheld⟩
  · simp [*]
  · simp [*]

@[simp] theorem State.stopSpareTest_frame (s : State) (p : Nat) :
    let t := s.stopSpareTest p
    t.prt.ports = s.prt.ports ∧ t.prt.intStatus = s.prt.intStatus ∧ t.prt.lneStatus = s.prt.lneStatus ∧ t.out = s.out := ⟨rfl, rfl, rfl, rfl⟩

@[simp] theorem State.port_stopSpareTest (s : State) (p q : Nat) : (s.stopSpareTest p).port q = s.port q := rfl

/-- A request for a substitution: the port notes it, and its message goes out (R252, R253). -/
theorem State.askSubst_frame (s : State) (p lane : Nat) (isReturn : Bool) :
    let u := s.askSubst p lane isReturn
    (u.port p).subst = some { lane, receiver := true, isReturn, codeword := 0 } ∧ (u.port p).spareFor = (s.port p).spareFor ∧
      u.out = .laneMsg p (laneMessage 0x01 lane 0 0 0) :: s.out ∧ u.prt.lneStatus = s.prt.lneStatus := by
  simp [State.askSubst]

/-- The lane under test (R257, R258): a checker starts with its counts at 0. -/
def Lane.testing (l : Lane) (function pattern userPattern inject symbols every : Nat) (asked : Bool) : Lane := { l with
  testFn := function, pattern, userPattern, inject, symbols, every, prbsLock := false
  prbsErr := if function = 2 ∨ function = 3 then 0 else l.prbsErr
  prbsBits := if function = 2 ∨ function = 3 then 0 else l.prbsBits
  prbsPart := if function = 2 ∨ function = 3 then 0 else l.prbsPart
  testAsked := asked }

/-- LANE_TEST: on a free spare, the far end is asked first (R259). -/
theorem laneTestBody_ok {s : State} {lane function pattern : Nat} (userPattern : Nat) {inject symbols every : Nat} (hlane : lane ≤ 287)
    (hfunction : function ≤ 4) (hpattern : pattern ≤ 8) (hinject : inject ≤ 1 ∨ (10 ≤ inject ∧ inject ≤ 40))
    (hburst : function = 4 → 1 ≤ symbols ∧ symbols ≤ 16 ∧ 1 ≤ every)
    (hfree : function = 0 ∨ (s.port (lane / 9)).mode = 6 ∨ s.freeSpare lane = true) :
    ∃ u : State, laneTestBody lane function pattern userPattern inject symbols every s = .ok u ∧
      u.prt = (s.upLane lane fun l => l.testing function pattern userPattern inject symbols every
        (function ≠ 0 && (s.port (lane / 9)).mode ≠ 6)).prt := by
  have hinjected : (decide (inject ≤ 1) || (decide (10 ≤ inject) && decide (inject ≤ 40))) = true := by simpa using hinject
  have hrange : (function = 4 && (outside 1 16 symbols || decide (every = 0))) = false := by
    by_cases hfour : function = 4
    · obtain ⟨hlow, hhigh, hevery⟩ := hburst hfour
      simp [outside_eq_false hlow hhigh, Nat.ne_of_gt hevery]
    · simp [hfour]
  have hallowed : (function ≠ 0 && !((s.port (lane / 9)).mode = 6) && !s.freeSpare lane) = false := by
    rcases hfree with hzero | htest | hspare
    · simp [hzero]
    · simp [htest]
    · simp [hspare]
  refine ⟨_, refuseIf_none _ _ ?_, ?_⟩
  · simp only [List.all_cons, hinjected, hrange, hallowed]
    simp [*]
  · split
    · simp [Lane.testing]
    · simp [Lane.testing]

theorem State.laneImage_length (s : State) (port : Nat) : (s.laneImage port).length = 228 := by
  simp [State.laneImage, outBytes_length, List.range_succ]

/-! ### The statement -/

/-- Settles O5: each command by what its body answers on the state whose descriptor has been taken. -/
theorem portCommandsComplete : Obligations.PortCommandsComplete := by
  refine ⟨?native, ?host, ?stays, ?off, ?laneSet, ?spare, ?back, ?test, ?query⟩
  case native =>
    intro s h port width maxRate hr hlow hhigh hwidth hrate hoff
    have htakes : modeTakes 1 width maxRate = true := by simp [modeTakes, hwidth, hrate]
    obtain ⟨f, hans⟩ := answers_taken hr fun f => portModeSetBody_enters (s := s.upHly f) hlow hhigh htakes (by decide) (by omega) hoff
    exact ⟨_, hans, State.setMode_native ..⟩
  case host =>
    intro s h port mode maxRate hr hlow hhigh hmode hmode' hrate hrate' hoff
    have htakes : modeTakes mode 3 maxRate = true := by
      obtain rfl | rfl | rfl | rfl : mode = 2 ∨ mode = 3 ∨ mode = 4 ∨ mode = 5 := by omega
      all_goals simp [modeTakes]; omega
    obtain ⟨f, hans⟩ := answers_taken hr fun f => portModeSetBody_enters (s := s.upHly f) hlow hhigh htakes (by omega) (by decide) hoff
    exact ⟨_, hans, State.setMode_other (by omega) (by omega) ..⟩
  case stays =>
    intro s h port width maxRate hr hlow hhigh hwidth hrate hfree hoff
    obtain ⟨f, hf⟩ := s.fetchCmd_eq_upHly h
    exact answers_of hr (hf ▸ portModeSetBody_disabled (s := s.upHly f) hlow hhigh hwidth hrate hfree hoff) (Nat.zero_le _)
  case off =>
    intro s h port width maxRate hr hlow hhigh hwidth hrate hfree hon hsingle hdown
    obtain ⟨f, hans⟩ := answers_taken hr fun f => portModeSetBody_off (s := s.upHly f) hlow hhigh hwidth hrate hfree hon hsingle hdown
    obtain ⟨hmode, htrain, -⟩ := (s.upHly f).portOff_port port
    exact ⟨_, hans, hmode, htrain, State.portOff_pool ..⟩
  case laneSet =>
    intro s h port cm corrThreshold corrWindow marginFloor autoSpare idleEnable idleEntry trainTimeout hr hport hnative ht ht' hw hw' hf
      hi hi' hl hl'
    obtain ⟨f, hans⟩ := answers_taken hr fun f => laneSetBody_ok (s := s.upHly f) cm autoSpare idleEnable hport hnative ht ht' hw hw' hf
      hi hi' hl hl'
    refine ⟨_, hans, ?_⟩
    simp +contextual [Port.setLane, State.port_upPort]
  case spare =>
    intro s h port lane hr hport hactive hlane hnative hup hrest hchannel hgood hfree
    obtain ⟨f, hans⟩ := answers_taken hr fun f => laneSpareBody_ok (s := s.upHly f) hport hlane hnative hup hrest hchannel hgood
      (.inl ⟨rfl, hactive, hfree⟩)
    obtain ⟨hsubst, hspare, hout, -⟩ := (s.upHly f).askSubst_frame port lane false
    exact ⟨_, hans, hsubst, hout, hspare.trans hfree⟩
  case back =>
    intro s h port lane hr hport hlane hnative hup hrest hchannel hgood hheld
    obtain ⟨f, hans⟩ := answers_taken hr fun f => laneSpareBody_ok (s := s.upHly f) hport hlane hnative hup hrest hchannel hgood
      (.inr ⟨rfl, hheld⟩)
    exact ⟨_, hans, ((s.upHly f).askSubst_frame port lane true).1⟩
  case test =>
    intro s h lane function pattern userPattern inject symbols every hr hlane hfunction hpattern hinject hburst hfree
    have hbody (f : Hly → Hly) := laneTestBody_ok (s := s.upHly f) userPattern hlane hfunction hpattern hinject hburst hfree
    choose u hb hprt using hbody
    obtain ⟨f, hans⟩ := answers_taken hr hb
    have hself := (State.lane_of_prt (hprt f) lane).trans (State.lane_upLane_self ..)
    refine ⟨_, hans, ?_⟩
    rw [hself]
    refine ⟨rfl, rfl, rfl, rfl, rfl, fun hstarts => ⟨if_pos hstarts, if_pos hstarts⟩, fun k hk => ?_⟩
    rw [State.lane_of_prt (hprt f), State.lane_upLane, if_neg hk, State.lane_upHly]
  case query =>
    intro s h port hr hport
    exact answers_query hr (fun f => refuseIf_none _ _ (by simp [hport])) (s.laneImage_length port)

end Sys2Proof.Machine
end

section
/-! SUPPORT. The detectors of lanes and the training of native ports: what a lane that fails, a link that retrains and a port that reaches
Ready change and leave, and the statement about them. -/
namespace Sys2Proof.Machine

/-! ### Flags of interrupts, and faults that are raised (R269, R523) -/

@[simp] theorem State.port_upPrt_intStatus (s : State) (f : Prt → BitVec 7) (p : Nat) :
    (s.upPrt fun t => { t with intStatus := f t }).port p = s.port p := rfl

@[simp] theorem State.port_upPrt_lneStatus (s : State) (f : Prt → BitVec 5) (p : Nat) :
    (s.upPrt fun t => { t with lneStatus := f t }).port p = s.port p := rfl

@[simp] theorem State.lane_upPrt_intStatus (s : State) (f : Prt → BitVec 7) (l : Nat) :
    (s.upPrt fun t => { t with intStatus := f t }).lane l = s.lane l := rfl

@[simp] theorem State.lane_upPrt_lneStatus (s : State) (f : Prt → BitVec 5) (l : Nat) :
    (s.upPrt fun t => { t with lneStatus := f t }).lane l = s.lane l := rfl

@[simp] theorem State.port_raise (s : State) (src : Nat) (subj : Subject) (p : Nat) : (s.raise src subj).port p = s.port p :=
  State.port_of_prt (by simp) p

@[simp] theorem State.lport_raise (s : State) (src : Nat) (subj : Subject) (p : Nat) : (s.raise src subj).lport p = s.lport p :=
  State.lport_of_lnk (by simp) p

@[simp] theorem State.port_raiseLevel (s : State) (src : Nat) (subj : Subject) (p : Nat) : (s.raiseLevel src subj).port p = s.port p :=
  State.port_of_prt (by simp) p

@[simp] theorem State.lane_raiseLevel (s : State) (src : Nat) (subj : Subject) (l : Nat) : (s.raiseLevel src subj).lane l = s.lane l :=
  State.lane_of_prt (by simp) l

@[simp] theorem State.lport_upPrt (s : State) (f : Prt → Prt) (p : Nat) : (s.upPrt f).lport p = s.lport p := rfl

/-! ### Links that retrain (R214, R246) -/

theorem State.linkUp_iff (s : State) (p : Nat) :
    s.linkUp p = true ↔ s.isNative p = true ∧ ((s.lport p).state = .up ∨ (s.lport p).state = .replay) := by
  simp [State.linkUp]

theorem State.isNative_iff (s : State) (p : Nat) : s.isNative p = true ↔ (s.port p).mode = 1 := by simp [State.isNative]

@[simp] theorem State.enterRetrain_prt (s : State) (p : Nat) : (s.enterRetrain p).prt = s.prt := by simp [State.enterRetrain]

@[simp] theorem State.port_enterRetrain (s : State) (p q : Nat) : (s.enterRetrain p).port q = s.port q := State.port_of_prt (by simp) q

/-- Training enters Sync, with what the port has found on its lanes forgotten. -/
def Port.syncing (x : Port) (quick : Bool) : Port := ({ x with
  synced := [], acks := [], goodSeqs := [], quick, subst := none, subWait := [], subState := .idle
  step := none, stepHeld := none, txIdle := false, rxIdle := false }).entered .sync

@[simp] theorem State.startSync_frame (s : State) (p : Nat) (quick : Bool) :
    let u := s.startSync p quick
    u.port p = (s.port p).syncing quick ∧ u.prt.intStatus = s.prt.intStatus ∧ u.lnk = s.lnk ∧ ∀ l, u.lane l = s.lane l := by
  simp [State.startSync, Port.syncing]

/-- The lanes of a link that is up train again; the target of a step under way is left to be trained at (R255). -/
theorem State.retrainPort_port {s : State} {p : Nat} (hup : (s.lport p).state = .up ∨ (s.lport p).state = .replay) :
    let u := s.retrainPort p
    u.port p = ({ s.port p with stepTarget := ((s.port p).step.map fun t : RateStep => (t.rate, t.width)).orElse fun _ => (s.port p).stepTarget }).syncing
      true ∧ u.prt.intStatus = s.prt.intStatus := by
  simp [State.retrainPort, hup]

/-- Eight codewords that could not be corrected are counted, and their flag is set (R239, R242). -/
def State.noteCodeword (s : State) (p : Nat) : State :=
  (s.upPort p fun x => { x with uncorr := satAdd 32 x.uncorr 8 }).upPrt fun t => { t with intStatus := setFlag t.intStatus 6 }

/-- Codeword lock lost on a link that is up (R242). -/
theorem State.lostCodeword_up {s : State} {p : Nat} (hlink : s.linkUp p = true) :
    let u := s.lostCodeword p
    (u.lport p).state = .retrain ∧ (u.port p).train = .sync ∧ (u.port p).rxIdle = false ∧
      u.prt.intStatus = setFlag s.prt.intStatus 6 := by
  have hnoted : (s.noteCodeword p).linkUp p = true := by
    simpa [State.linkUp, State.isNative, State.noteCodeword] using hlink
  have hlost : s.lostCodeword p = ((s.noteCodeword p).raise 64 (.port p)).retrainPort p := if_pos hnoted
  have hup := ((State.linkUp_iff _ p).mp hnoted).2
  rw [← State.lport_raise _ 64 (.port p)] at hup
  obtain ⟨hretrain, hsync⟩ := State.retrainPort_up hup
  obtain ⟨hport, hint⟩ := State.retrainPort_port hup
  rw [hlost]
  refine ⟨hretrain, hsync, by rw [hport]; rfl, ?_⟩
  rw [hint]
  simp [State.noteCodeword]

/-! ### Detectors (R242, R252, R268) -/

/-- A lane that is not of a native port starts no retrain. -/
theorem State.lostLane_notNative {s : State} {l : Nat} (src : Nat) (h : s.isNative (l / 9) = false) : s.lostLane l src = s := by
  simp [State.lostLane, h]

/-- A lane that is not of a native port starts no substitution. -/
theorem State.detected_notNative {s : State} {l : Nat} (h : s.isNative (l / 9) = false) : s.detected l = s := by
  have hsame : s.detector l = s := by simp [State.detector, h]
  cases hsubst : (s.port (l / 9)).subst with
  | none => simp [State.detected, hsame, hsubst]
  | some b => simp [State.detected, hsame, hsubst]

/-- Where no substitution is in progress, none ends. -/
theorem State.detected_noSubst {s : State} {l : Nat} (h : (s.port (l / 9)).subst = none) : s.detected l = s.detector l := by
  simp [State.detected, h]

/-- On an active lane of an Up link with the spare free and good, a detector asks for a substitution where the port spares by itself. -/
theorem State.detector_asks {s : State} {l : Nat} (hup : s.linkUp (l / 9) = true) (hauto : (s.port (l / 9)).autoSpare = true)
    (hactive : s.logicalOf l < 2 ^ (s.port (l / 9)).trainedWidth.getD 0) (hlane : s.logicalOf l < 8)
    (hsubst : (s.port (l / 9)).subst = none) (hfree : (s.port (l / 9)).spareFor = none) (hgood : (s.port (l / 9)).spareFailed = false)
    (hchannel : (s.port (l / 9)).channelOk = true) : s.detector l = s.askSubst (l / 9) (s.logicalOf l) false := by
  obtain ⟨hnative, hstate⟩ := (s.linkUp_iff _).mp hup
  have hspare : s.logicalOf l ≠ 8 := by omega
  have hnone : s.logicalOf l ≠ 15 := by omega
  have hlink : (decide ((s.lport (l / 9)).state = .up) || decide ((s.lport (l / 9)).state = .replay)) = true := by simpa using hstate
  simp only [State.detector, hlink]
  simp [*]

/-- A window that ends above its threshold: its count, the threshold that the next one begins with, and the flag (R242, R267). -/
def State.noteCorrected (s : State) (lane corrected : Nat) : State :=
  (s.upLane lane fun l => { l with
    corrected := min 65535 corrected, threshold := (s.port (lane / 9)).corrThreshold
    marked := l.marked || (decide ((s.lane lane).threshold < corrected) && !s.isNative (lane / 9)) }).upPrt fun t => { t with
      lneStatus := setFlag t.lneStatus 2 }

theorem State.noteCorrected_logicalOf (s : State) (lane corrected : Nat) :
    (s.noteCorrected lane corrected).logicalOf lane = s.logicalOf lane := by
  simp [State.logicalOf, State.noteCorrected]

/-! ### Sync, Backoff and Equalise (R243, R244) -/

/-- A good sequence heard on a lane at Sync (R243). -/
def Port.hears (x : Port) (k : Nat) (q : TrainSeq) : Port := { x with
  synced := if x.synced.any (·.1 == k) then x.synced else x.synced ++ [(k, bitsOf q.toNat 19 16)]
  goodSeqs := x.goodSeqs.put k (x.goodSeqs.get k 0 + 1)
  acks := if q.toNat.testBit 39 then x.acks.put k (x.acks.get k 0 + 1) else x.acks }

/-- The state in which it has been heard: the 16th one is told to the far end. -/
def State.heardSequence (s : State) (lane : Nat) (q : TrainSeq) : State :=
  let t := (s.upPort (lane / 9) fun x => x.hears (lane % 9) q).upLane lane fun l => { l with locked := true }
  if (t.port (lane / 9)).goodSeqs.get (lane % 9) 0 = 16 then t.sendSequences (lane / 9) else t

theorem State.heardSequence_prt (s : State) (lane : Nat) (q : TrainSeq) : (s.heardSequence lane q).prt =
    ((s.upPort (lane / 9) fun x => x.hears (lane % 9) q).upLane lane fun l => { l with locked := true }).prt := by
  rw [State.heardSequence]; split <;> simp

@[simp] theorem State.heardSequence_port (s : State) (lane : Nat) (q : TrainSeq) :
    (s.heardSequence lane q).port (lane / 9) = (s.port (lane / 9)).hears (lane % 9) q := by
  rw [State.port_of_prt (s.heardSequence_prt lane q)]; simp

@[simp] theorem State.heardSequence_lane (s : State) (lane : Nat) (q : TrainSeq) :
    (s.heardSequence lane q).lane lane = { s.lane lane with locked := true } := by
  rw [State.lane_of_prt (s.heardSequence_prt lane q)]; simp

/-- Below 16 acknowledgements, a good sequence is counted and the port stays at Sync. -/
theorem State.rxSequence_sync {s : State} {lane : Nat} {q : TrainSeq} (hnative : s.isNative (lane / 9) = true) (hok : seqOk q = true)
    (hlane : bitsOf q.toNat 19 16 ≤ 8) (hfree : (s.port (lane / 9)).contained = false) (hsync : (s.port (lane / 9)).train = .sync)
    (hacks : (s.port (lane / 9)).acks.get (lane % 9) 0 < 15) : s.rxSequence lane q = s.heardSequence lane q := by
  have hfew : ¬ 16 ≤ ((s.heardSequence lane q).port (lane / 9)).acks.get (lane % 9) 0 := by
    rw [State.heardSequence_port, Port.hears]
    dsimp only
    split
    · rw [Tbl.get_put_self]; omega
    · omega
  have htaken : (!s.isNative (lane / 9) || !seqOk q || decide (8 < bitsOf q.toNat 19 16) || (s.port (lane / 9)).contained) = false := by
    simp [*]
  calc s.rxSequence lane q
      = if 16 ≤ ((s.heardSequence lane q).port (lane / 9)).acks.get (lane % 9) 0 then (s.heardSequence lane q).leaveSync (lane / 9)
        else s.heardSequence lane q := by simp only [State.rxSequence, htaken, hsync]; rfl
    _ = s.heardSequence lane q := if_neg hfew

/-- A failed attempt is Backoff, which counts the attempts (R243). -/
theorem State.enterBackoff_frame (s : State) (p : Nat) :
    let u := s.enterBackoff p
    (u.port p).train = .backoff ∧ (u.port p).backoffs = min 6 ((s.port p).backoffs + 1) ∧ u.prt.intStatus = setFlag s.prt.intStatus 1 := by
  simp [State.enterBackoff, Port.entered]

/-! ### Lock and Ready (R241, R243, R245, R246) -/

@[simp] theorem State.frameSent_prt (s : State) (p pid : Nat) (aborted : Bool) : (s.frameSent p pid aborted).prt = s.prt := rfl

@[simp] theorem State.abortFrame_prt (s : State) (o : Nat) (b : BufPkt) : (s.abortFrame o b).prt = s.prt := by
  rw [State.abortFrame]; (repeat' split) <;> simp [State.upEgress]

@[simp] theorem State.abortCut_prt (s : State) (o : Nat) : (s.abortCut o).prt = s.prt := by
  refine foldl_keeps State.prt (fun s r => ?_) _ _
  split <;> simp

@[simp] theorem State.leaveOvercommit_prt (s : State) (p : Nat) : (s.leaveOvercommit p).prt = s.prt := by
  rw [State.leaveOvercommit]; split <;> simp

@[simp] theorem State.settleTrained_prt (s : State) (p before : Nat) : (s.settleTrained p before).prt = s.prt := by
  rw [State.settleTrained]; (repeat' split) <;> simp [State.enterOvercommit]

@[simp] theorem State.lanesTrained_prt (s : State) (p : Nat) : (s.lanesTrained p).prt = s.prt := by
  rw [State.lanesTrained]; split <;> simp [State.enterInit, State.enterReplay]

@[simp] theorem State.port_settleTrained (s : State) (p before q : Nat) : (s.settleTrained p before).port q = s.port q :=
  State.port_of_prt (by simp) q

@[simp] theorem State.port_lanesTrained (s : State) (p q : Nat) : (s.lanesTrained p).port q = s.port q := State.port_of_prt (by simp) q

/-- Changes of lanes, one after the other, leave the ports. -/
@[simp] theorem State.port_foldl_upLane (s : State) (l : List Nat) (g : Nat → Nat) (f : Nat → Lane → Lane) (q : Nat) :
    (l.foldl (fun s j => s.upLane (g j) (f j)) s).port q = s.port q :=
  foldl_keeps (fun t => t.port q) (g := fun s j => s.upLane (g j) (f j)) (by simp) l s

/-- A port reaches Ready at its rate and width (R243, R245). -/
theorem State.portReady_port (s : State) (p rate width skew : Nat) :
    let x := (s.portReady p rate width skew).port p
    x.train = .ready ∧ x.trainedRate = some rate ∧ x.trainedWidth = some width ∧ x.skew = skew := by
  simp [State.portReady, apply_ite (fun t : State => t.port p), Port.entered]

theorem mem_foldl_addOnce {α : Type} [DecidableEq α] {x : α} {l acc : List α} (h : x ∈ acc ∨ x ∈ l) : x ∈ l.foldl addOnce acc := by
  induction l generalizing acc with
  | nil => simpa using h
  | cons y l ih =>
    refine ih ?_
    simp only [addOnce]
    split
    next hmem =>
      rcases h with hacc | hl
      · exact .inl hacc
      · rcases List.mem_cons.mp hl with rfl | hl
        · exact .inl hmem
        · exact .inr hl
    next => simpa [or_assoc] using h

@[simp] theorem State.physicalOf_upPort (s : State) (p q k : Nat) (f : Port → Port) : (s.upPort q f).physicalOf p k = s.physicalOf p k := rfl

/-- With the spare in use, lanes that fail take the port back to Negotiate (R245, R246). -/
theorem State.lanesFail_back {s : State} {p : Nat} {bad : List Nat} (next : TrainState) (hbad : bad ≠ [])
    (hused : (s.port p).spareFor.isSome = true) :
    let y := (s.lanesFail p bad next).port p
    y.train = .negotiate ∧ y.failedLanes = (bad.map fun k => s.physicalOf p k % 9).foldl addOnce (s.port p).failedLanes ∧
      y.trainedRate = (s.port p).trainedRate := by
  have hnone : (s.port p).spareFor.isNone = false := by simpa using hused
  match bad, hbad with
  | [k], _ => simp [State.lanesFail, hnone, Port.entered]
  | k :: j :: l, _ => simp [State.lanesFail, Port.entered]

/-- The lanes of a width that lie beyond the range of alignment (R241). -/
def State.skewedLanes (s : State) (p width : Nat) (skews : List Nat) : List Nat :=
  (List.range (2 ^ width)).filter fun k => skewed skews (s.physicalOf p k)

/-- The skews of the lanes judged at Lock: a free spare beyond the range is marked, and active lanes beyond it fail (R241). -/
def State.lockJudged (s : State) (p width : Nat) (skews : List Nat) : State :=
  (s.upPort p fun y => { y with spareFailed := y.spareFailed || (y.spareFor.isNone && skewed skews (s.physicalOf p 8)) }).lanesFail p
    (s.skewedLanes p width skews) .lock

/-- The skew of a port: the greatest of the lanes within the range of alignment (R241). -/
def portSkew (skews : List Nat) : Nat := (((List.range 9).map fun k => skews.getD k 0).filter (· ≤ 320)).foldl max 0

/-- Lock achieved at a rate and width: Ready, and NEIGHBOUR to the far end (R191, R243). -/
def State.lockReached (s : State) (p rate width : Nat) (skews : List Nat) : State :=
  (((s.portReady p rate width (portSkew skews)).emit (.oneHop 0xC5 p [Config.serial, p])).sendMgmt 0xC5 false false
    [Config.serial, p] [] p).modeStepDone p

theorem exec_lockAchieved_eq {s : State} {port rate width : Nat} (skews : List Nat) (hlock : (s.port port).train = .lock)
    (hagreed : (s.port port).agreed = some (rate, width)) (hquick : (s.port port).quick = false) :
    exec (.lockAchieved port skews) s = ends (if ((s.lockJudged port width skews).port port).train ≠ .lock then s.lockJudged port width skews
      else (s.lockJudged port width skews).lockReached port rate width skews) := by
  change execLockAchieved port skews s = _
  simp only [execLockAchieved, hlock, hagreed, hquick]
  rfl

theorem State.lockReached_port (s : State) (p rate width : Nat) (skews : List Nat) :
    let x := (s.lockReached p rate width skews).port p
    x.train = .ready ∧ x.trainedRate = some rate ∧ x.trainedWidth = some width ∧ x.skew = portSkew skews := by
  have hport : (s.lockReached p rate width skews).port p = (s.portReady p rate width (portSkew skews)).port p :=
    State.port_of_prt (by simp [State.lockReached]) p
  rw [hport]
  exact s.portReady_port ..

/-- The skew of a lane that none is given for is 0. -/
theorem skew_le {skews : List Nat} (h : ∀ k ∈ skews, k ≤ 320) (l : Nat) : skews.getD l 0 ≤ 320 := by
  rw [List.getD_eq_getElem?_getD]
  cases hl : skews[l]? with
  | none => simp
  | some k => exact h k (List.mem_of_getElem? hl)

/-- Where every lane is within the range of alignment, none fails at Lock. -/
theorem State.lockJudged_aligned (s : State) (p width : Nat) {skews : List Nat} (h : ∀ k ∈ skews, k ≤ 320) :
    ((s.lockJudged p width skews).port p).train = .lock ∧ portSkew skews = ((List.range 9).map fun k => skews.getD k 0).foldl max 0 := by
  have hnone : s.skewedLanes p width skews = [] :=
    List.filter_eq_nil_iff.mpr fun k _ => by simpa [skewed] using skew_le h _
  have hall : ((List.range 9).map fun k => skews.getD k 0).filter (· ≤ 320) = (List.range 9).map fun k => skews.getD k 0 :=
    List.filter_eq_self.mpr fun x hx => by
      obtain ⟨k, -, rfl⟩ := List.mem_map.mp hx
      simpa using skew_le h k
  rw [State.lockJudged, hnone, portSkew, hall]
  exact ⟨(State.setTrain_frame ..).2.1, rfl⟩

/-- With the spare in use, a lane beyond the range of alignment takes the port back to Negotiate (R241, R246). -/
theorem State.lockJudged_skewed {s : State} {p width k : Nat} {skews : List Nat} (hused : (s.port p).spareFor.isSome = true)
    (hk : k < 2 ^ width) (hskew : 320 < skews.getD (s.physicalOf p k % 9) 0) :
    let y := (s.lockJudged p width skews).port p
    y.train = .negotiate ∧ s.physicalOf p k % 9 ∈ y.failedLanes ∧ y.trainedRate = (s.port p).trainedRate := by
  have hmem : k ∈ s.skewedLanes p width skews :=
    List.mem_filter.mpr ⟨List.mem_range.mpr hk, by simpa [skewed] using hskew⟩
  obtain ⟨htrain, hfailed, hrate⟩ := State.lanesFail_back .lock (List.ne_nil_of_mem hmem)
    (show ((s.upPort p fun y => { y with
      spareFailed := y.spareFailed || (y.spareFor.isNone && skewed skews (s.physicalOf p 8)) }).port p).spareFor.isSome = true by simpa using hused)
  refine ⟨htrain, ?_, hrate.trans (by simp)⟩
  rw [State.lockJudged, hfailed]
  exact mem_foldl_addOnce (.inr (List.mem_map_of_mem hmem))

/-! ### The statement -/

/-- Settles O6: each detector and each event of training by what the lemmas above say of the lane, the port and the link that it reaches. -/
theorem laneDetectorsTakeEffect : Obligations.LaneDetectorsTakeEffect := by
  refine ⟨?signal, ?lock, ?codeword, ?below, ?above, ?margin, ?wear, ?detect, ?sequence, ?equalise, ?ready, ?skew, ?timeout, ?elapsed⟩
  case signal =>
    intro s lane hawake hnative
    refine ⟨_, gives_ends ((if_neg (by simp [hawake])).trans (State.lostLane_notNative 0 hnative)), ?_⟩
    simp +contextual [State.lane_upLane]
  case lock =>
    intro s lane hnative
    refine ⟨_, gives_ends (State.lostLane_notNative 1 hnative), ?_⟩
    simp +contextual [State.lane_upLane]
  case codeword =>
    intro s port hlink
    obtain ⟨hretrain, hsync, -, hint⟩ := State.lostCodeword_up hlink
    refine ⟨_, gives_ends rfl, hretrain, hsync, ?_⟩
    rw [hint]
    exact getLsbD_or_shiftOne _ (by decide)
  case below =>
    intro s lane corrected hbelow
    refine ⟨_, gives_ends (if_neg (by simpa using hbelow)), ?_⟩
    simp
  case above =>
    intro s lane corrected habove hlink hauto hactive hlane hlogical hsubst hfree hgood hchannel
    have hown : s.logicalOf lane = lane % 9 := by simp [State.logicalOf, hlogical]
    have hstill := (s.noteCorrected_logicalOf lane corrected).trans hown
    have hasks : (s.noteCorrected lane corrected).detected lane = (s.noteCorrected lane corrected).askSubst (lane / 9) (lane % 9) false := by
      rw [State.detected_noSubst (s := s.noteCorrected lane corrected) hsubst, ← hstill]
      exact State.detector_asks hlink hauto (by rw [hstill, ← hown]; exact hactive) (by omega) hsubst hfree hgood hchannel
    obtain ⟨hasked, -, -, hflags⟩ := (s.noteCorrected lane corrected).askSubst_frame (lane / 9) (lane % 9) false
    exact ⟨_, gives_ends ((if_pos (by simpa using habove)).trans hasks), hasked, hflags⟩
  case margin =>
    intro s lane margin hlink hfloor
    refine ⟨_, gives_ends ((if_neg hlink).trans (if_neg (Nat.not_lt.mpr hfloor))), ?_⟩
    simp
  case wear =>
    intro s lane hnative
    refine ⟨_, gives_ends (State.detected_notNative (by simpa [State.isNative] using hnative)), ?_⟩
    simp
  case detect =>
    intro s lane hdetect hfree
    refine ⟨_, gives_ends (if_pos (by simp [hdetect, hfree])), ?_⟩
    simp [Port.syncing, Port.entered]
  case sequence =>
    intro s lane q hnative hok hlane hfree hsync hacks
    refine ⟨_, gives_ends (State.rxSequence_sync hnative hok hlane hfree hsync hacks), ?_⟩
    simp [Port.hears, hsync]
  case equalise =>
    intro s port hequalise hagain
    refine ⟨_, gives_ends ((if_neg (by simp [hequalise])).trans (if_pos (by simp [hagain]))), ?_⟩
    exact (State.setTrain_frame ..).2.1
  case ready =>
    intro s port rate width skews hlock hagreed hquick hmode hport hfree hskews
    obtain ⟨htrain, hskew⟩ := s.lockJudged_aligned port width hskews
    refine ⟨_, (exec_lockAchieved_eq skews hlock hagreed hquick).trans (gives_ends (if_neg (not_not.mpr htrain))), ?_⟩
    rw [← hskew]
    exact State.lockReached_port ..
  case skew =>
    intro s port rate width k skews hlock hagreed hquick hused hk hskew
    obtain ⟨htrain, hfailed, hrate⟩ := State.lockJudged_skewed hused hk hskew
    exact ⟨_, (exec_lockAchieved_eq skews hlock hagreed hquick).trans (gives_ends (if_pos (by simp [htrain]))), htrain, hfailed, hrate⟩
  case timeout =>
    intro s port htrain hnative
    exact ⟨_, gives_ends (if_pos (by simpa [hnative] using htrain)), s.enterBackoff_frame port⟩
  case elapsed =>
    intro s port hbackoff hfree
    obtain ⟨htrain, -, -, -, -, hcount, -⟩ := s.startDetect_frame port
    exact ⟨_, gives_ends (if_pos (by simp [hbackoff, hfree])), htrain, hcount⟩

end Sys2Proof.Machine
end

section
/-! SUPPORT. The exchanges of two ports over their lanes: how a substitution ends, which lanes it moves, how a step completes, and the
statement about the lane-management channel. -/
namespace Sys2Proof.Machine

/-! ### The end of a substitution (R253, R268) -/

/-- No substitution is in progress on the port, and nothing waits for one. -/
def Port.atRest (x : Port) : Port := { x with subst := none, subState := .idle, subWait := [], stepHeld := none }

/-- A substitution that nothing waits for ends, and nothing else follows on the port. -/
theorem State.substEnd_unawaited {s : State} {p : Nat} (hheld : (s.port p).stepHeld = none) (htarget : (s.port p).stepTarget = none)
    (hwait : (s.port p).subWait = []) : s.substEnd p = s.upPort p Port.atRest := by
  simp [State.substEnd, hheld, htarget, hwait]
  rfl

theorem State.modeStepDone_noChange {s : State} (p : Nat) (h : s.pwr.change = none) : s.modeStepDone p = s := by
  simp [State.modeStepDone, h]

/-- Where it ends, a mode change that awaits the port goes on (R43); without one, nothing goes out. -/
theorem State.substOver_unawaited {s : State} {p : Nat} (hheld : (s.port p).stepHeld = none) (htarget : (s.port p).stepTarget = none)
    (hwait : (s.port p).subWait = []) :
    let u := s.substOver p
    u.port p = (s.port p).atRest ∧ (∀ l, u.lane l = s.lane l) ∧ u.prt.intStatus = s.prt.intStatus ∧
      (s.pwr.change = none → u.out = s.out) := by
  have hprt : (s.substOver p).prt = (s.upPort p Port.atRest).prt := by
    simp only [State.substOver, State.substEnd_unawaited hheld htarget hwait]
    split
    · rfl
    · exact (State.modeStepDone_links ..).2
  refine ⟨?_, State.lane_of_prt (s := s.upPort p Port.atRest) hprt, (congrArg Prt.intStatus hprt).trans rfl, fun hchange => ?_⟩
  · rw [State.port_of_prt hprt, State.port_upPort_self]
  · have hnone : (s.upPort p Port.atRest).pwr.change = none := by simpa using hchange
    simp only [State.substOver, State.substEnd_unawaited hheld htarget hwait, State.modeStepDone_noChange p hnone, ite_self]
    rfl

/-! ### Lanes that a substitution moves (R253, R254, R269) -/

/-- The spare takes a lane: it is retired, and no logical lane uses it. -/
theorem State.laneToSpare_frame (s : State) (p k : Nat) (retired : Bool) :
    let u := s.laneToSpare p k retired
    u.port p = { s.port p with spareFor := some k } ∧ (u.lane (s.physicalOf p k)).retired = retired ∧
      (u.lane (s.physicalOf p k)).logical = some 15 ∧ u.out = s.out ∧ u.pwr = s.pwr ∧ u.prt.intStatus = s.prt.intStatus := by
  simp [State.laneToSpare]

/-- The one retired lane of a port is the one found. -/
theorem State.find?_retired {s : State} {p j : Nat} (hj : j < 9) (hretired : (s.lane (9 * p + j)).retired = true)
    (honly : ∀ i, i < 9 → (s.lane (9 * p + i)).retired = true → i = j) :
    ((List.range 9).map (9 * p + ·)).find? (fun l => (s.lane l).retired) = some (9 * p + j) := by
  cases hfind : ((List.range 9).map (9 * p + ·)).find? fun l => (s.lane l).retired with
  | none =>
    have hno := List.find?_eq_none.mp hfind (9 * p + j) (List.mem_map.mpr ⟨j, List.mem_range.mpr hj, rfl⟩)
    exact absurd hretired hno
  | some l =>
    obtain ⟨i, hi, rfl⟩ := List.mem_map.mp (List.mem_of_find?_eq_some hfind)
    rw [honly i (List.mem_range.mp hi) (List.find?_some (p := fun l => (s.lane l).retired) hfind)]

/-- The spare gives a lane back: the retired lane carries it again. -/
theorem State.laneFromSpare_frame (s : State) (p k : Nat) :
    let u := s.laneFromSpare p k
    u.port p = { s.port p with spareFor := none } ∧ u.out = s.out ∧ u.pwr = s.pwr ∧ u.prt.intStatus = s.prt.intStatus ∧
      ∀ j, j < 9 → (s.lane (9 * p + j)).retired = true → (∀ i, i < 9 → (s.lane (9 * p + i)).retired = true → i = j) →
        (u.lane (9 * p + j)).retired = false ∧ (u.lane (9 * p + j)).logical = some k := by
  refine ⟨by simp [State.laneFromSpare], rfl, rfl, rfl, fun j hj hretired honly => ?_⟩
  simp [State.laneFromSpare, State.find?_retired hj hretired honly]

/-- A substitution, or the return of one, in the receiving direction. -/
theorem State.swapLane_frame (s : State) (p k : Nat) (isReturn : Bool) :
    let u := s.swapLane p k isReturn
    u.port p = { s.port p with spareFor := if isReturn then none else some k } ∧ u.out = s.out ∧ u.pwr = s.pwr ∧
      u.prt.intStatus = s.prt.intStatus ∧
      (isReturn = false → (u.lane (s.physicalOf p k)).retired = true ∧ (u.lane (s.physicalOf p k)).logical = some 15) ∧
      ∀ j, j < 9 → isReturn = true → (s.lane (9 * p + j)).retired = true →
        (∀ i, i < 9 → (s.lane (9 * p + i)).retired = true → i = j) →
        (u.lane (9 * p + j)).retired = false ∧ (u.lane (9 * p + j)).logical = some k := by
  cases isReturn with
  | false =>
    obtain ⟨hport, hretired, hlogical, hout, hpwr, hint⟩ := s.laneToSpare_frame p k true
    exact ⟨hport, hout, hpwr, hint, fun _ => ⟨hretired, hlogical⟩, fun _ _ h => absurd h Bool.false_ne_true⟩
  | true =>
    obtain ⟨hport, hout, hpwr, hint, hlanes⟩ := s.laneFromSpare_frame p k
    exact ⟨hport, hout, hpwr, hint, fun h => absurd h.symm Bool.false_ne_true, fun j hj _ => hlanes j hj⟩

@[simp] theorem State.checkChannel_frame (s : State) (p : Nat) :
    let u := s.checkChannel p
    u.out = s.out ∧ u.pwr = s.pwr ∧ u.prt.intStatus = s.prt.intStatus ∧
      u.port p = { s.port p with channelOk := (s.port p).channelOk && s.channelLane p } := by
  simp [State.checkChannel]

/-- The comparison has succeeded: the lanes are swapped, and the far end is told (R253, step 4). -/
def State.compareGood (s : State) (p : Nat) (b : Subst) : State :=
  ((s.swapLane p b.lane b.isReturn).sendLaneMsg p 0x03 b.lane 0 0 0).upPrt fun t => { t with intStatus := setFlag t.intStatus 2 }

/-- The comparison has failed: the spare that was to take the lane is marked failed, and the far end is told (R253, step 4). -/
def State.compareBad (s : State) (p : Nat) (b : Subst) : State :=
  ((s.upPort p fun y => { y with spareFailed := y.spareFailed || !b.isReturn }).sendLaneMsg p 0x04 b.lane 0 0 0).checkChannel p

theorem exec_subCompareDone_gives {s : State} {port : Nat} (differing : Nat) {b : Subst} (hsubst : (s.port port).subst = some b)
    (hreceiver : b.receiver = true) (hcomparing : (s.port port).subState = .comparing) :
    Gives (exec (.subCompareDone port differing) s)
      (if differing ≤ 4 then (s.compareGood port b).substOver port else (s.compareBad port b).substOver port) := by
  refine gives_ends ?_
  simp only [hsubst, hreceiver, hcomparing]
  rfl

/-- The sender stops driving the lane, or drives it again (R253, step 5). -/
def State.laneLeft (s : State) (p : Nat) (b : Subst) : State :=
  s.upPort p fun y => { y with txSpareFor := if b.isReturn then none else some b.lane }

theorem exec_subDone_gives {s : State} {port : Nat} {msg : BitVec 64} {b : Subst} (hsubst : (s.port port).subst = some b)
    (hsender : b.receiver = false) (hok : msgOk msg = true) : Gives (exec (.subDone port msg) s) ((s.laneLeft port b).substOver port) := by
  refine gives_ends ?_
  simp only [hsubst, hsender, hok]
  rfl

/-- The lane is kept, and the spare that was to take it is marked failed (R253). -/
def State.laneKept (s : State) (p : Nat) (b : Subst) : State :=
  (s.upPort p fun y => { y with spareFailed := y.spareFailed || !b.isReturn }).checkChannel p

theorem exec_subAbort_gives {s : State} {port : Nat} {msg : BitVec 64} {b : Subst} (hsubst : (s.port port).subst = some b)
    (hok : msgOk msg = true) : Gives (exec (.subAbort port msg) s) ((s.laneKept port b).substOver port) := by
  refine gives_ends ?_
  simp only [hsubst, hok]
  rfl

/-! ### Steps (R255, R256) -/

@[simp] theorem State.leaveOvercommit_pwr (s : State) (p : Nat) : (s.leaveOvercommit p).pwr = s.pwr := by
  rw [State.leaveOvercommit]; split <;> simp

@[simp] theorem State.settleTrained_pwr (s : State) (p before : Nat) : (s.settleTrained p before).pwr = s.pwr := by
  rw [State.settleTrained]; (repeat' split) <;> simp [State.enterOvercommit]

/-- A port with nothing kept from before storm jib steps back to nothing (R256). -/
theorem State.stepBack_none {s : State} {p : Nat} (h : (s.port p).preStorm = none) : s.stepBack p = s := by
  simp [State.stepBack, h]

/-- The port runs at the step's rate and width, with no step to storm jib (R255). -/
def Port.stepTaken (y : Port) (t : RateStep) : Port := { y with
  trainedRate := some t.rate, trainedWidth := some t.width, lastTrained := some (t.rate, t.width)
  step := none, stepTarget := none, train := .ready, stepped := false, preStorm := none }

/-- A step that is complete, and is not one to storm jib: the port is judged at its new rate (R56, R255). -/
def State.stepTaken (s : State) (p : Nat) (t : RateStep) : State :=
  (((((s.refillEgress p).upPort p fun y => y.stepTaken t).emit (.training p .ready)).upPrt fun u => { u with
    intStatus := setFlag u.intStatus 5 }).settleTrained p (s.judgedMbps p))

@[simp] theorem State.stepTaken_frame (s : State) (p : Nat) (t : RateStep) :
    (s.stepTaken p t).port p = (s.port p).stepTaken t ∧ (s.stepTaken p t).pwr = s.pwr := by
  simp [State.stepTaken]

/-- Without a mode change and with nothing kept from before storm jib, nothing follows a step (R255, R256). -/
theorem exec_rateStepComplete_gives {s : State} {port : Nat} {t : RateStep} (hstep : (s.port port).step = some t) (hacked : t.acked = true)
    (hchange : s.pwr.change = none) (hstorm : (s.port port).preStorm = none) :
    Gives (exec (.rateStepComplete port) s) (s.stepTaken port t) := by
  have hover : (s.stepTaken port t).modeStepDone port = s.stepTaken port t := State.modeStepDone_noChange port (by simpa using hchange)
  have hback : (s.stepTaken port t).stepBack port = s.stepTaken port t := State.stepBack_none (by simp [Port.stepTaken])
  refine gives_ends ?_
  conv_rhs => rw [← hback, ← hover]
  simp only [hstep, hacked, hstorm, Option.isSome_none, Bool.and_false]
  rfl

/-! ### Faults that are noted (R523) -/

theorem State.fault_upFault_self (s : State) (src : Nat) (f : FaultSrc → FaultSrc) : (s.upFault src f).fault src = f (s.fault src) :=
  Tbl.get_upd_self ..

/-- A source of the map is marked where an event of it has any effect (R523, R524). -/
theorem State.raise_sticky {s : State} {src : Nat} (subj : Subject) (hknown : faultKnown src = true) :
    ((s.raise src subj).fault src).sticky =
      decide ((s.fault src).sticky = true ∨ 0 < effectiveSeverity (s.severity src) subj) := by
  have hraise : ((s.raise src subj).fault src).sticky = ((s.raiseNote src subj).2.fault src).sticky := by
    simp only [State.raise]; split <;> rfl
  have hmsix (u : State) (v : Nat) : (u.msixSend 0 v).fault src = u.fault src := by simp [State.fault]
  rw [hraise]
  simp only [State.raiseNote, hknown]
  by_cases hzero : effectiveSeverity (s.severity src) subj = 0
  · simp [hzero]
  · have hpos := Nat.pos_of_ne_zero hzero
    have hflag (u : State) : (u.upFlt fun f => { f with intStatus := setFlag f.intStatus 0 }).fault src = u.fault src := rfl
    simp only [Bool.not_true, Bool.false_eq_true, if_false, if_neg hzero, hpos, or_true, decide_true]
    split
    · simp [hmsix, hflag, State.fault_upFault_self]
    · simp [State.fault_upFault_self]

/-! ### The statement -/

/-- Settles O7: each message and each event of an exchange by the state that it gives. -/
theorem laneExchangesTakeEffect : Obligations.LaneExchangesTakeEffect := by
  refine ⟨?idle, ?exit, ?exitFails, ?enter, ?subReq, ?subAck, ?compared, ?subDone, ?subAbort, ?step, ?stepAck, ?stepped, ?stepFails, ?wake,
    ?testReq, ?testAck, ?prbsLock, ?prbsLoss, ?viral⟩
  case idle =>
    intro s port hidle
    refine ⟨_, gives_ends (if_pos hidle), ?_⟩
    simp
  case exit =>
    intro s port
    refine ⟨_, gives_ends rfl, ?_⟩
    simp +contextual [State.port_upPort]
  case exitFails =>
    intro s port hidle hlink
    have hstill : (s.upPort port fun x => { x with rxIdle := false }).linkUp port = true := by
      simpa [State.linkUp, State.isNative] using hlink
    obtain ⟨hretrain, -, hawake, -⟩ := State.lostCodeword_up hstill
    exact ⟨_, gives_ends (if_pos hidle), hawake, hretrain⟩
  case enter =>
    intro s port msg hok hnative
    refine ⟨_, gives_ends (if_pos (by simp [hok, hnative])), ?_⟩
    simp
  case subReq =>
    intro s port msg hok hnative hsubst
    refine ⟨_, gives_ends (if_neg (by simp [hok, hnative, hsubst])), ?_⟩
    simp
  case subAck =>
    intro s port msg b hsubst hreceiver hok
    refine ⟨s.upPort port fun y => { y with subst := some { b with codeword := msgCodeword msg }, subState := .comparing },
      gives_ends ?_, ?_⟩
    · simp [hsubst, hok, hreceiver]
    · simp
  case compared =>
    intro s port differing b hsubst hreceiver hcomparing hheld htarget hwait hlane
    have hgives := exec_subCompareDone_gives differing hsubst hreceiver hcomparing
    by_cases hfew : differing ≤ 4
    · obtain ⟨hport, hout, hpwr, hint, htaken, hback⟩ := s.swapLane_frame port b.lane b.isReturn
      have hgood : (s.compareGood port b).port port = { s.port port with spareFor := if b.isReturn then none else some b.lane } := hport
      obtain ⟨hrest, hlanes, hflags, hquiet⟩ := State.substOver_unawaited (s := s.compareGood port b) (p := port)
        (by rw [hgood]; exact hheld) (by rw [hgood]; exact htarget) (by rw [hgood]; exact hwait)
      rw [if_pos hfew] at hgives
      refine ⟨_, hgives, ?_⟩
      rw [hrest, hgood, hflags]
      refine ⟨rfl, rfl, fun _ => ⟨rfl, fun hchange => ?_, congrArg (setFlag · 2) hint, ?_, ?_⟩, fun hmany => absurd hmany (by omega)⟩
      · rw [hquiet ((congrArg Pwr.change hpwr).trans hchange)]
        exact congrArg (_ :: ·) hout
      · simp only [hlanes]; exact htaken
      · simp only [hlanes]; exact hback
    · have hbad : (s.compareBad port b).port port = { s.port port with
          spareFailed := (s.port port).spareFailed || !b.isReturn
          channelOk := ((s.compareBad port b).port port).channelOk } := by simp [State.compareBad]
      obtain ⟨hrest, -, -, hquiet⟩ := State.substOver_unawaited (s := s.compareBad port b) (p := port)
        (by rw [hbad]; exact hheld) (by rw [hbad]; exact htarget) (by rw [hbad]; exact hwait)
      rw [if_neg hfew] at hgives
      refine ⟨_, hgives, ?_⟩
      rw [hrest, hbad]
      exact ⟨rfl, rfl, fun h => absurd h hfew, fun _ => ⟨rfl, rfl, hquiet⟩⟩
  case subDone =>
    intro s port msg b hsubst hsender hok hheld htarget hwait
    have hport : (s.laneLeft port b).port port = { s.port port with txSpareFor := if b.isReturn then none else some b.lane } := by
      simp [State.laneLeft]
    obtain ⟨hrest, -⟩ := State.substOver_unawaited (s := s.laneLeft port b) (p := port) (by rw [hport]; exact hheld)
      (by rw [hport]; exact htarget) (by rw [hport]; exact hwait)
    refine ⟨_, exec_subDone_gives hsubst hsender hok, ?_⟩
    rw [hrest, hport]
    exact ⟨rfl, rfl⟩
  case subAbort =>
    intro s port msg b hsubst hok hheld htarget hwait
    have hport : (s.laneKept port b).port port = { s.port port with
        spareFailed := (s.port port).spareFailed || !b.isReturn, channelOk := ((s.laneKept port b).port port).channelOk } := by
      simp [State.laneKept]
    obtain ⟨hrest, -⟩ := State.substOver_unawaited (s := s.laneKept port b) (p := port) (by rw [hport]; exact hheld)
      (by rw [hport]; exact htarget) (by rw [hport]; exact hwait)
    refine ⟨_, exec_subAbort_gives hsubst hok, ?_⟩
    rw [hrest, hport]
    exact ⟨rfl, rfl, rfl⟩
  case step =>
    intro s port msg hok hlink hrate hwidth hsubst
    have htaken : ¬ (!msgOk msg || !s.linkUp port || decide (4 < msgRate msg) || decide (3 < msgWidth msg)) = true := by
      simp [hok, hlink, hrate, hwidth]
    refine ⟨_, gives_ends ((if_neg htaken).trans (if_neg (by simp [hsubst]))), ?_⟩
    simp
  case stepAck =>
    intro s port msg t hok hstep
    refine ⟨_, gives_ends (if_pos hok), ?_⟩
    simp [hstep]
  case stepped =>
    intro s port t hstep hacked hchange hstorm
    refine ⟨_, exec_rateStepComplete_gives hstep hacked hchange hstorm, ?_⟩
    simp [Port.stepTaken]
  case stepFails =>
    intro s port t hstep hup
    obtain ⟨hretrain, -⟩ := State.retrainPort_up (.inl hup)
    obtain ⟨hport, -⟩ := State.retrainPort_port (.inl hup)
    refine ⟨_, gives_ends (if_pos (by simp [hstep])), hretrain, ?_⟩
    rw [hport, hstep]
    exact ⟨rfl, rfl⟩
  case wake =>
    intro s port msg hok hnative hstorm
    have hback : (s.upPort port fun y => { y with wakeSeen := true }).stepBack port = s.upPort port fun y => { y with wakeSeen := true } :=
      State.stepBack_none (by simpa using hstorm)
    refine ⟨_, gives_ends ((if_pos (by simp [hok, hnative])).trans hback), ?_⟩
    simp
  case testReq =>
    intro s port msg hok hspare
    exact ⟨_, gives_ends (if_pos (by simp [hok, hspare])), rfl, rfl⟩
  case testAck =>
    intro s port msg hok
    refine ⟨_, gives_ends (if_pos hok), ?_⟩
    simp
  case prbsLock =>
    intro s lane hchecker hrunning
    refine ⟨_, gives_ends rfl, ?_⟩
    simp [hchecker, hrunning]
  case prbsLoss =>
    intro s lane hlock
    refine ⟨_, gives_ends (if_pos hlock), ?_⟩
    simp [satAdd]
  case viral =>
    intro s port hcxl
    exact ⟨_, gives_ends (if_pos (by simpa using hcxl)), State.raise_sticky _ (by decide)⟩

end Sys2Proof.Machine
end

section
/-! SUPPORT. The events of the memory and device pools: what zeroing, the fence and the end of an unbind do to an extent, what a function's
release and an arrival leave, how the ports of a link train, and the statement about them. -/
namespace Sys2Proof.Machine

/-! ### Extents after a change (R280) -/

@[simp] theorem State.extent_upExtent_self (s : State) (h : Nat) (f : Extent → Extent) : (s.upExtent h f).extent h = f (s.extent h) := by
  simp [State.extent, State.upExtent]

theorem State.extent_upExtent_other (s : State) {h x : Nat} (f : Extent → Extent) (hne : x ≠ h) : (s.upExtent h f).extent x = s.extent x := by
  simp only [State.extent, State.upExtent, State.upPool_pool, Tbl.find_put, if_neg hne]
  rfl

theorem State.extent_of_pool {s t : State} (h : t.pool = s.pool) (x : Nat) : t.extent x = s.extent x := by
  have hnear : t.isNear x = s.isNear x := by rw [State.isNear, State.nearUnits, h]; rfl
  rw [State.extent, h, hnear]
  rfl

@[simp] theorem State.upExtent_mem (s : State) (h : Nat) (f : Extent → Extent) : (s.upExtent h f).pool.mem = s.pool.mem := rfl

theorem Tbl.mem_of_find {α : Type} {t : Tbl α} {k : Nat} {a : α} (h : t.find k = some a) : (k, a) ∈ t := by
  induction t with
  | nil => cases h
  | cons e t ih =>
    obtain ⟨j, b⟩ := e
    simp only [Tbl.find] at h
    split at h
    next hj =>
      subst hj
      exact Option.some.inj h ▸ List.mem_cons_self
    next => exact List.mem_cons_of_mem _ (ih h)

/-! ### Zeroing (R280, R535) -/

/-- The bytes of an extent read 0, and none of its lines is known to be bad. -/
def State.wiped (s : State) (h : Nat) : State :=
  let t := s.upPool fun p => { p with mem := memZero p.mem (extentByte h 0) (2 ^ 28) }
  if t.isNear h then t.upFlt fun f => { f with
    poisonLines := f.poisonLines.filter fun l => !(decide (s.hbmLine h 0 ≤ l) && decide (l < s.hbmLine h 0 + 2 ^ 22)) } else t

@[simp] theorem State.wiped_frame (s : State) (h : Nat) :
    (s.wiped h).hly = s.hly ∧ (s.wiped h).pool = { s.pool with mem := memZero s.pool.mem (extentByte h 0) (2 ^ 28) } := by
  simp only [State.wiped]; split <;> exact ⟨rfl, rfl⟩

/-- Zeroing that no command awaits and no unbind goes on from. -/
theorem State.zeroed_idle {s : State} {h : Nat} (hrunning : (s.extent h).running = false) (hprogress : s.hly.progress = []) :
    s.zeroed h = (s.wiped h).upExtent h fun x => { x with state := .freeClean } := by
  have hbound : (s.wiped h).hly.progress = [] := (congrArg (·.progress) (s.wiped_frame h).1).trans hprogress
  have hzeroing : ((s.wiped h).upExtent h fun x => { x with state := .freeClean }).hly.progress = [] := hbound
  change (if (s.extent h).running = true then (s.wiped h).unbindEnds h true else if (s.wiped h).hly.progress.any _ = true then _ else
    ((s.wiped h).upExtent h fun x => { x with state := .freeClean }).hly.progress.foldl _
      ((s.wiped h).upExtent h fun x => { x with state := .freeClean })) = _
  rw [if_neg (by simp [hrunning]), hbound, if_neg (by simp), hzeroing, List.foldl_nil]

/-! ### The fence and the end of an unbind (R283, R296) -/

/-- Past its fence, no slot maps an extent. -/
theorem State.fenceExtent_frame (s : State) (h : Nat) :
    let u := s.fenceExtent h
    u.extent h = { s.extent h with fenced := true, releaseWait := [], slots := [], pending := [] } ∧ u.pool.mem = s.pool.mem ∧
      ∀ i slot, u.slotOf i slot ≠ some (.local h) := by
  refine ⟨?_, rfl, fun i slot hslot => ?_⟩
  · exact s.extent_upExtent_self h fun e => { e with fenced := true, releaseWait := [], slots := [], pending := [] }
  · have hkept := (List.mem_filter.mp (Tbl.mem_of_find hslot)).2
    simp at hkept

theorem State.finishWait_pool (s : State) (w : Wait) (status result : Nat) : (s.finishWait w status result).pool = s.pool := by simp

/-- What the reply of an unbind leaves of an extent, of its note apart. -/
def State.unbindStage (s : State) (x : Nat) : ExtState × Bool × List Host.Cell := ((s.extent x).state, (s.extent x).running, s.pool.mem)

theorem State.unbindStage_note (s : State) (x y : Nat) : (s.upExtent y fun e => { e with note := 0 }).unbindStage x = s.unbindStage x := by
  by_cases hxy : x = y
  · subst hxy; simp [State.unbindStage]
  · rw [State.unbindStage, State.extent_upExtent_other _ _ hxy]; rfl

theorem State.unbindStage_settleUnbind (s : State) (h x : Nat) : (s.settleUnbind h).unbindStage x = s.unbindStage x := by
  simp only [State.settleUnbind]
  split
  next => rfl
  next hs z _ =>
    split
    next => rfl
    next =>
      rw [State.unbindStage, State.extent_of_pool (State.finishWait_pool ..), State.finishWait_pool]
      exact foldl_keeps (fun t => t.unbindStage x) (fun t y => t.unbindStage_note x y) hs s

/-- An unbind that ends without zeroing leaves its extent Free dirty. -/
theorem State.unbindEnds_dirty {s : State} {h : Nat} (hstate : (s.extent h).state ≠ .poisoned) :
    let u := s.unbindEnds h false
    (u.extent h).state = .freeDirty ∧ (u.extent h).running = false ∧ u.pool.mem = s.pool.mem := by
  have hstage : (s.unbindEnds h false).unbindStage h = (.freeDirty, false, s.pool.mem) := by
    rw [State.unbindEnds, State.unbindStage_settleUnbind]
    simp [State.unbindStage, hstate]
  simpa [State.unbindStage] using hstage

/-! ### Functions (R286, R287) -/

/-- The one bound function is reset. -/
theorem State.resetFunction_alone {s : State} {f : BoundFn} (late : Bool) (h : s.pool.functions = [f]) :
    (s.resetFunction f late).pool.functions = [{ f with unbinding := 2, lateRelease := late }] := by
  simp [State.resetFunction, State.upFn, h, updFirst]

theorem State.functionGone_boundFn (s : State) (f : BoundFn) (status : Nat) (surprise : Bool) :
    (s.functionGone f status surprise).boundFn f.port f.routingId = none := by
  have hfns : (s.functionGone f status surprise).pool.functions =
      s.pool.functions.filter fun x => !(x.port == f.port && x.routingId == f.routingId) := by
    simp [State.functionGone, State.upVslot]
  rw [State.boundFn, hfns, List.find?_eq_none]
  intro x hx
  have hkept := (List.mem_filter.mp hx).2
  simpa [or_iff_not_imp_left] using hkept

theorem State.name_of_boundFn {s : State} {port rid : Nat} {f : BoundFn} (h : s.boundFn port rid = some f) :
    f.port = port ∧ f.routingId = rid := by
  have hname := List.find?_some h
  simpa using hname

/-! ### Arrival (R271, R288) -/

@[simp] theorem State.downOf_upDown_self (s : State) (p : Nat) (f : Downstream → Downstream) : (s.upDown p f).downOf p = f (s.downOf p) :=
  Tbl.get_upd_self ..

theorem Tbl.find_foldl_put {α : Type} (a : α) (t : Tbl α) (first : Nat) {n k : Nat} (hk : k < n) :
    ((List.range n).foldl (fun (t : Tbl α) k => t.put (first + k) a) t).find (first + k) = some a := by
  induction n with
  | zero => omega
  | succ n ih =>
    rw [List.range_succ, List.foldl_append, List.foldl_cons, List.foldl_nil, Tbl.find_put]
    split
    · rfl
    next hne => exact ih (by omega)

/-- A device enumerated behind a downstream link: its units of 256 MiB become Free dirty, as far as the link's handles go. -/
def State.enumerated (s : State) (lead serial : Nat) (isExpander : Bool) (units functions : List Nat) : State :=
  let made := min units.sum (s.portHandles lead).2
  ((s.upPool fun p => { p with
    extents := (List.range made).foldl (fun (t : Tbl Extent) k => t.put ((s.portHandles lead).1 + k) { state := .freeDirty }) p.extents }).upDown
    lead fun d => { d with
      serial := serial % 2 ^ 64, isExpander, layout := units, functions := if isExpander then [] else functions, step := 4
      caching := !isExpander && (s.port lead).cxlUp }).emit (.poolEvent true [lead, serial % 2 ^ 64, made, units.sum - made])

theorem exec_expanderEnumerated_gives {s : State} {port : Nat} (serial : Nat) (isExpander : Bool) (capacity : Nat)
    (further functions : List Nat) (hdown : s.isDownstream (s.leadPort port) = true) (hstep : (s.downOf (s.leadPort port)).step = 3) :
    Gives (exec (.expanderEnumerated port serial isExpander capacity further functions) s)
      (s.enumerated (s.leadPort port) serial isExpander (if isExpander then expanderUnits (capacity :: further) else []) functions) :=
  gives_ends (if_neg (by simp [hdown, hstep]))

/-- The record of the link after the device is enumerated. -/
theorem State.downOf_enumerated (s : State) (lead serial : Nat) (isExpander : Bool) (units functions : List Nat) :
    (s.enumerated lead serial isExpander units functions).downOf lead = { s.downOf lead with
      serial := serial % 2 ^ 64, isExpander, layout := units, functions := if isExpander then [] else functions, step := 4
      caching := !isExpander && (s.port lead).cxlUp } :=
  State.downOf_upDown_self ..

theorem State.extent_enumerated (s : State) (lead serial : Nat) (isExpander : Bool) (units functions : List Nat) {k : Nat}
    (hk : k < min units.sum (s.portHandles lead).2) :
    ((s.enumerated lead serial isExpander units functions).extent ((s.portHandles lead).1 + k)).state = .freeDirty := by
  have hfound : (s.enumerated lead serial isExpander units functions).pool.extents.find ((s.portHandles lead).1 + k) =
      some { state := .freeDirty } := Tbl.find_foldl_put _ _ _ hk
  rw [State.extent, hfound]
  rfl

/-! ### PCIe and CXL links that train (R263 to R265) -/

@[simp] theorem State.port_assignLanes (s : State) (p : Nat) (spare : Option Nat) (q : Nat) : (s.assignLanes p spare).port q = s.port q :=
  foldl_keeps (fun t => t.port q) (by simp) _ s

/-- What a port of a link that has trained shows. -/
def Port.Trained (x : Port) (rate width : Nat) (cxlUp : Bool) : Prop :=
  x.train = .ready ∧ x.trainedRate = some rate ∧ x.trainedWidth = some width ∧ x.cxlUp = cxlUp

/-- One port of the link trains. -/
def State.trainPort (s : State) (rate width : Nat) (cxlUp downgraded : Bool) (p : Nat) : State :=
  let spare := (List.range 8).find? fun k => s.worn p k
  (((s.refillEgress p).assignLanes p spare).upPort p fun y => { y with
    trainedRate := some rate, trainedWidth := some width, lastTrained := some (rate, width), spareFor := spare
    cxlUp, downgraded }).setTrain p .ready

theorem State.trainPort_self (s : State) (rate width : Nat) (cxlUp downgraded : Bool) (p : Nat) :
    ((s.trainPort rate width cxlUp downgraded p).port p).Trained rate width cxlUp := by
  simp [State.trainPort, Port.Trained, Port.entered]

theorem State.trainPort_other (s : State) (rate width : Nat) (cxlUp downgraded : Bool) {p q : Nat} (h : q ≠ p) :
    (s.trainPort rate width cxlUp downgraded p).port q = s.port q := by
  simp [State.trainPort, State.port_setTrain_other _ _ h, State.port_upPort, h]

/-- Every port of a list that trains is trained at the end. -/
theorem State.foldl_trainPort (rate width : Nat) (cxlUp downgraded : Bool) (l : List Nat) (s : State) {p : Nat}
    (h : p ∈ l ∨ (s.port p).Trained rate width cxlUp) :
    ((l.foldl (fun s p => s.trainPort rate width cxlUp downgraded p) s).port p).Trained rate width cxlUp := by
  induction l generalizing s with
  | nil => simpa using h
  | cons q l ih =>
    refine ih _ ?_
    by_cases hq : p = q
    · subst hq; exact .inr (s.trainPort_self ..)
    · rw [State.trainPort_other _ _ _ _ _ hq]
      exact h.imp_left fun hmem => (List.mem_cons.mp hmem).resolve_left hq

/-- A PCIe or CXL link has trained at a rate and width. -/
def State.linkTrained (s : State) (lead rate width : Nat) (cxlOffered flit256 : Bool) : State :=
  let cxl := (s.port lead).mode == 4 || (s.port lead).mode == 5
  let t := ((s.linkPorts lead).foldl
    (fun s p => s.trainPort rate width (cxl && cxlOffered && flit256) (cxl && !(cxlOffered && flit256)) p) s).upPrt
    fun t => { t with intStatus := setFlag t.intStatus 0 }
  let t := if cxl && cxlOffered && !flit256 then t.raise 68 (.port lead) else t
  t.upDown lead fun d => if t.isDownstream lead && d.step = 2 then { d with step := 3 } else d

@[simp] theorem State.port_upDown (s : State) (p : Nat) (f : Downstream → Downstream) (q : Nat) : (s.upDown p f).port q = s.port q := rfl

theorem State.port_linkTrained (s : State) (lead rate width : Nat) (cxlOffered flit256 : Bool) {p : Nat} (hp : p ∈ s.linkPorts lead) :
    ((s.linkTrained lead rate width cxlOffered flit256).port p).Trained rate width
      (((s.port lead).mode == 4 || (s.port lead).mode == 5) && cxlOffered && flit256) := by
  have hports := s.foldl_trainPort rate width (((s.port lead).mode == 4 || (s.port lead).mode == 5) && cxlOffered && flit256)
    (((s.port lead).mode == 4 || (s.port lead).mode == 5) && !(cxlOffered && flit256)) (s.linkPorts lead) (.inl hp)
  simp only [State.linkTrained, State.port_upDown]
  split <;> simpa using hports

/-! ### The statement -/

/-- Settles O19: each event of the pools by what the lemmas above say of the extent, the function, the device or the ports that it
reaches. -/
theorem poolEventsTakeEffect : Obligations.PoolEventsTakeEffect := by
  refine ⟨?zeroed, ?released, ?rejected, ?drained, ?zeroing, ?off, ?late, ?lateFunction, ?gone, ?expander, ?device, ?trained⟩
  case zeroed =>
    intro s handle hstate hrunning hprogress
    refine ⟨_, gives_ends ((if_pos hstate).trans (State.zeroed_idle hrunning hprogress)), ?_, fun o ho => ?_, fun a ha => ?_⟩
    · rw [State.extent_upExtent_self]
    · rw [State.upExtent_mem, (s.wiped_frame handle).2, memByte_memZero, if_pos (by simp only [extentByte]; omega)]
    · rw [State.upExtent_mem, (s.wiped_frame handle).2, memByte_memZero, if_neg (by omega)]
  case released =>
    intro s link handle hwait
    obtain ⟨hextent, hmem, hslots⟩ := s.fenceExtent_frame handle
    refine ⟨_, gives_ends ((if_neg (by simp [hwait])).trans (if_pos (by simp [hwait]))), ?_, ?_, ?_, hslots, hmem⟩ <;> rw [hextent]
  case rejected =>
    intro s handle inst slot link hstate hslots hlink
    obtain ⟨hextent, -⟩ := (s.upExtent handle fun x => { x with
      state := .unbinding, running := true, zeroAfter := false, note := 0 }).fenceExtent_frame handle
    refine ⟨_, gives_ends (if_neg (by simp [hstate, hslots, hlink])), ?_⟩
    have hposts (t : State) (l : List (Nat × Nat)) : (l.foldl (fun s x => s.post x.1 0x04 0 x.2 0 handle) t).pool = t.pool :=
      foldl_keeps_pool (fun t x => by simp) l t
    dsimp only
    rw [State.extent_of_pool (hposts _ _), hextent, State.extent_upExtent_self]
    exact ⟨rfl, rfl, rfl⟩
  case drained =>
    intro s handle hstate hrunning hfenced huse hzero hrecall
    refine ⟨_, gives_ends ((if_neg (by simp [hrunning, hfenced, hstate, hrecall])).trans ?_),
      State.unbindEnds_dirty (s := s) (by simp [hstate])⟩
    split
    next => rfl
    next => simp [State.unbindDrained, State.unbindZero, huse, hzero]
  case zeroing =>
    intro s handle hstate hrunning hfenced huse hzero hrecall hkept
    have hnext : s.unbindDrained handle = s.upExtent handle fun e => { e with state := .zeroing } := by
      simp [State.unbindDrained, State.unbindZero, huse, hzero, hstate]
    refine ⟨_, gives_ends ((if_neg (by simp [hrunning, hfenced, hstate, hrecall])).trans ((if_neg (by simp [hkept])).trans hnext)), ?_⟩
    rw [State.extent_upExtent_self]
  case off =>
    intro s f hfns hstage
    have hfound : s.pool.functions.find? (fun x => x.link == f.link && x.vslot == f.vslot && x.unbinding == 1) = some f := by
      simp [hfns, hstage]
    exact ⟨_, gives_ends (by rw [hfound]), State.resetFunction_alone false hfns⟩
  case late =>
    intro s handle port routingId hwait
    obtain ⟨hextent, -⟩ := (s.upExtent handle fun e => { e with note := 0x0602 }).fenceExtent_frame handle
    refine ⟨_, gives_ends ((if_neg (by decide)).trans (if_pos (by simpa using hwait))), ?_⟩
    rw [hextent, State.extent_upExtent_self]
    exact ⟨rfl, rfl⟩
  case lateFunction =>
    intro s handle f hfns hstage
    have hfound : s.boundFn f.port f.routingId = some f := by simp [State.boundFn, hfns]
    have hreset := State.resetFunction_alone (s := s.upVslot f.link f.vslot fun v => { v with linkDown := true }) true hfns
    exact ⟨_, gives_ends ((if_pos rfl).trans (by rw [hfound]; exact if_pos hstage)), hreset⟩
  case gone =>
    intro s port routingId f hfound hstage
    obtain ⟨rfl, rfl⟩ := State.name_of_boundFn hfound
    exact ⟨_, gives_ends (by rw [hfound]; exact if_pos hstage), s.functionGone_boundFn f _ _⟩
  case expander =>
    intro s port serial capacity further functions hdown hstep
    refine ⟨_, exec_expanderEnumerated_gives serial true capacity further functions hdown hstep, ?_⟩
    rw [State.downOf_enumerated]
    refine ⟨rfl, rfl, rfl, rfl, fun k hk hroom => ?_⟩
    exact s.extent_enumerated _ _ _ _ _ (Nat.lt_min.mpr ⟨hk, hroom⟩)
  case device =>
    intro s port serial capacity further functions hdown hstep
    refine ⟨_, exec_expanderEnumerated_gives serial false capacity further functions hdown hstep, ?_⟩
    rw [State.downOf_enumerated]
    exact ⟨rfl, rfl, rfl, by simp [State.enumerated, State.upDown]⟩
  case trained =>
    intro s port rate width cxl flit256 hlow hrate hwidth hhost hfree hmode hlost hhalted hperst
    exact ⟨s.linkTrained (s.leadPort port) rate width cxl flit256,
      gives_ends (if_neg (by simp [hlow, hrate, hwidth, hhost, hfree, hmode, hlost, hhalted, hperst])),
      fun p hp => s.port_linkTrained (s.leadPort port) rate width cxl flit256 hp⟩

end Sys2Proof.Machine
end

section
/-! SUPPORT. What writes no byte of the memory: the operations of the model that leave the pool, or at least its memory,
as it was, in the order of the chapters. -/
namespace Sys2Proof.Machine

theorem foldl_keeps_mem {α : Type} {g : State → α → State} (hg : ∀ s a, (g s a).pool.mem = s.pool.mem) (l : List α) (s : State) :
    (l.foldl g s).pool.mem = s.pool.mem :=
  foldl_keeps (fun t => t.pool.mem) hg l s

theorem foldl_snd_keeps_pool {α β : Type} {g : β × State → α → β × State} (hg : ∀ r a, (g r a).2.pool = r.2.pool) (l : List α)
    (r : β × State) : (l.foldl g r).2.pool = r.2.pool := by
  induction l generalizing r with
  | nil => rfl
  | cons a l ih => rw [List.foldl_cons, ih, hg]

@[simp] theorem foldl_upExtent_mem (f : Extent → Extent) (l : List Nat) (s : State) :
    (l.foldl (fun s x => s.upExtent x f) s).pool.mem = s.pool.mem :=
  foldl_keeps_mem (fun s x => s.upExtent_mem x f) l s

/-! ### Buffer -/

@[simp] theorem State.upCell_pool (s : State) (c : Nat) (f : CellTag → CellTag) : (s.upCell c f).pool = s.pool := by
  simp [State.upCell]

theorem State.takeIn_pool {s t : State} {w : WaitPkt} {output vl : Nat} (h : s.takeIn w output vl = some t) : t.pool = s.pool := by
  rw [State.takeIn] at h
  dsimp only at h
  split at h
  · cases h
  · cases h; simp

@[simp] theorem State.upBufPkt_pool (s : State) (pid output : Nat) (f : BufPkt → BufPkt) : (s.upBufPkt pid output f).pool = s.pool := by
  simp [State.upBufPkt]

@[simp] theorem State.strand_pool (s : State) (c : Charge) : (s.strand c).pool = s.pool := by
  simp [State.strand]

/-! ### Protection -/

@[simp] theorem State.upMaster_pool (s : State) (m : Nat) (f : Master → Master) : (s.upMaster m f).pool = s.pool := by
  simp [State.upMaster]

/-! ### Records -/

@[simp] theorem State.fireTriggers_pool (s : State) : s.fireTriggers.pool = s.pool := by
  simp [State.fireTriggers]

@[simp] theorem State.setCounter_pool (s : State) (c v : Nat) : (s.setCounter c v).pool = s.pool := by
  simp [State.setCounter]

@[simp] theorem State.writeHeld_pool (s : State) (cq fuel : Nat) : (s.writeHeld cq fuel).pool = s.pool := by
  induction fuel generalizing s with
  | zero => rfl
  | succ fuel ih => rw [State.writeHeld]; (repeat' split) <;> simp [ih]

/-! ### Routing -/

@[simp] theorem State.putPort_pool (s : State) (pkt : Packet) (len port vl : Nat) : (s.putPort pkt len port vl).pool = s.pool := by
  simp [State.putPort]

@[simp] theorem State.sendMgmt_pool (s : State) (opcode : Nat) (response data : Bool) (fields payload : List Nat) (port : Nat) :
    (s.sendMgmt opcode response data fields payload port).pool = s.pool := by
  simp [State.sendMgmt]

@[simp] theorem State.mcBranchDone_pool (s : State) (t b srcDevice inst op delivered fenced : Nat) :
    (s.mcBranchDone t b srcDevice inst op delivered fenced).pool = s.pool := by
  simp only [State.mcBranchDone]; split <;> simp

@[simp] theorem State.mcLocal_pool (s : State) (h : Hdr) (ok : Bool) : (s.mcLocal h ok).pool = s.pool := by
  simp only [State.mcLocal]; split <;> simp

@[simp] theorem State.routeBuilt_pool (s : State) : s.routeBuilt.pool = s.pool := by
  simp [State.routeBuilt, foldl_keeps_pool]

/-! ### The board's commands -/

@[simp] theorem State.finishEvery_pool (s : State) (w : Wait) (status result : Nat) : (s.finishEvery w status result).pool = s.pool := by
  simp [State.finishEvery, foldl_keeps_pool]

/-! ### Policing -/

@[simp] theorem State.edgeWait_pool (s : State) (p : Packet) (len input : Nat) (preYellow : Bool) :
    (s.edgeWait p len input preYellow).pool = s.pool := by
  simp [State.edgeWait]

/-! ### Transport -/

@[simp] theorem State.upRecv_pool (s : State) (k : CtxKey) (f : RecvCtx → RecvCtx) : (s.upRecv k f).pool = s.pool := by
  simp [State.upRecv]

@[simp] theorem State.ackOps_pool (s : State) (ps : List SentPkt) : (s.ackOps ps).pool = s.pool := by
  refine foldl_keeps_pool (fun s p => ?_) _ s
  split
  · rfl
  · dsimp only
    split <;> simp

@[simp] theorem State.ackTo_pool (s : State) (k : CtxKey) (e : Nat) : (s.ackTo k e).pool = s.pool := by
  rw [State.ackTo]
  (repeat' split) <;> simp

@[simp] theorem State.issueRead_pool (s : State) (p : PendRead) : (s.issueRead p).pool = s.pool := by
  simp [State.issueRead]

@[simp] theorem State.sendAgain_pool (s : State) (p : SentPkt) : (s.sendAgain p).pool = s.pool := by
  simp [State.sendAgain]

@[simp] theorem State.pumpAgain_pool (s : State) (k : CtxKey) (fuel : Nat) : (s.pumpAgain k fuel).pool = s.pool := by
  induction fuel generalizing s with
  | zero => rfl
  | succ fuel ih => rw [State.pumpAgain]; (repeat' split) <;> simp [ih]

@[simp] theorem State.resendAll_pool (s : State) (k : CtxKey) : (s.resendAll k).pool = s.pool := by
  simp [State.resendAll]

@[simp] theorem State.resendFrom_pool (s : State) (k : CtxKey) (n : Nat) : (s.resendFrom k n).pool = s.pool := by
  simp [State.resendFrom]

@[simp] theorem State.rereadDone_pool (s : State) (k : CtxKey) (tag : Nat) (values : List Nat) (bad : Bool) :
    (s.rereadDone k tag values bad).pool = s.pool := by
  rw [State.rereadDone]
  split
  · rfl
  · split
    · rfl
    · simp only [State.resendAll_pool]
      split
      · rfl
      · split
        next p _ _ => cases p.op <;> simp
        · simp

@[simp] theorem State.failImport_pool (s : State) (r : WinReq) (kind reason : Nat) : (s.failImport r kind reason).pool = s.pool := by
  simp [State.failImport, apply_ite State.pool]

@[simp] theorem State.settleUnmap_pool (s : State) (i slot : Nat) : (s.settleUnmap i slot).pool = s.pool := by
  simp only [State.settleUnmap]; split <;> simp

@[simp] theorem State.failWindows_mem (s : State) (k : CtxKey) (ps : List SentPkt) : (s.failWindows k ps).pool.mem = s.pool.mem := by
  refine foldl_keeps_mem (fun s p => ?_) _ s
  dsimp only
  split <;> simp

@[simp] theorem State.failSend_mem (s : State) (k : CtxKey) : (s.failSend k).pool.mem = s.pool.mem := by
  rw [State.failSend]
  split
  · rfl
  · rw [foldl_keeps_mem fun s tag => by simp]; simp

@[simp] theorem State.sendTack_pool (s : State) (k : CtxKey) (openAck openRefused closeAck : Bool) (sl : Nat) :
    (s.sendTack k openAck openRefused closeAck sl).pool = s.pool := by
  simp only [State.sendTack]; split <;> simp

theorem State.openRecv_pool {s t : State} {k : CtxKey} {initial sl : Nat} (h : s.openRecv k initial sl = some t) : t.pool = s.pool := by
  rw [State.openRecv] at h
  split at h <;> cases h
  rfl

/-! ### Link -/

@[simp] theorem State.replayOver_pool (s : State) (p : Nat) : (s.replayOver p).pool = s.pool := by
  simp only [State.replayOver]; split <;> simp

@[simp] theorem State.countInject_pool (s : State) (p : Nat) : (s.countInject p).2.pool = s.pool := by
  rw [State.countInject]; (repeat' split) <;> simp

@[simp] theorem State.told_pool (s : State) (p : Nat) (vls : List Nat) : (s.told p vls).pool = s.pool := by
  simp [State.told]

@[simp] theorem State.sendFrame_pool (s : State) (p : Nat) (f : ReplayFrame) (damage : WireFrame → WireFrame) :
    (s.sendFrame p f damage).pool = s.pool := by
  simp [State.sendFrame]

@[simp] theorem State.putFrame_pool (s : State) (p : Nat) (f : ReplayFrame) : (s.putFrame p f).pool = s.pool := by
  simp only [State.putFrame]; (repeat' split) <;> simp

@[simp] theorem State.startFrame_pool (s : State) (p v : Nat) (pkt : Packet) (len : Nat) (sequenced : Bool) :
    (s.startFrame p v pkt len sequenced).pool = s.pool := by
  simp [State.startFrame]

@[simp] theorem State.takeAck_pool (s : State) (p ack : Nat) : (s.takeAck p ack).pool = s.pool := by
  simp only [State.takeAck]; split <;> simp

@[simp] theorem State.takeCredit_pool (s : State) (p v count : Nat) : (s.takeCredit p v count).pool = s.pool := by
  simp [State.takeCredit]

@[simp] theorem State.linkProtocol_pool (s : State) (p : Nat) : (s.linkProtocol p).pool = s.pool := by
  simp [State.linkProtocol]

@[simp] theorem State.acceptFrame_pool (s : State) (p d : Nat) : (s.acceptFrame p d).pool = s.pool := by
  simp [State.acceptFrame]

@[simp] theorem State.enterInit_pool (s : State) (p : Nat) : (s.enterInit p).pool = s.pool := by
  simp [State.enterInit]

@[simp] theorem State.enterReplay_pool (s : State) (p : Nat) : (s.enterReplay p).pool = s.pool := by
  simp [State.enterReplay]

@[simp] theorem State.enterRetrain_pool (s : State) (p : Nat) : (s.enterRetrain p).pool = s.pool := by
  simp [State.enterRetrain]

@[simp] theorem State.lanesTrained_pool (s : State) (p : Nat) : (s.lanesTrained p).pool = s.pool := by
  simp only [State.lanesTrained]; split <;> simp

@[simp] theorem State.linkDown_pool (s : State) (p : Nat) : (s.linkDown p).pool = s.pool := by
  simp [State.linkDown]

/-! ### Egress -/

@[simp] theorem State.putSubs_pool (s : State) (t : Tbl Child) : (s.putSubs t).pool = s.pool :=
  foldl_keeps_pool (fun _ _ => by simp) _ s

theorem State.yellowPick_pool {s t : State} {o : Nat} {ok : BufPkt → Bool} {b : BufPkt} (h : s.yellowPick o ok = some (b, t)) :
    t.pool = s.pool := by
  rw [State.yellowPick] at h
  dsimp only at h
  (repeat' split at h) <;> cases h
  all_goals simp only [State.upEgress_pool, State.upEgs_pool, State.putSubs_pool]

@[simp] theorem State.settleDeficits_pool (s : State) (o : Nat) : (s.settleDeficits o).pool = s.pool := by
  simp [State.settleDeficits]

@[simp] theorem State.countUnjudged_pool (s : State) : s.countUnjudged.pool = s.pool := by
  simp [State.countUnjudged]

@[simp] theorem State.leaveHdr_pool (s : State) (b : BufPkt) : (s.leaveHdr b).2.pool = s.pool := by
  simp only [State.leaveHdr]; (repeat' split) <;> simp

@[simp] theorem State.keepT1_pool (s : State) (port : Nat) (p : Packet) : (s.keepT1 port p).pool = s.pool := by
  simp only [State.keepT1]; split <;> simp

@[simp] theorem State.startSend_pool (s : State) (b : BufPkt) : (s.startSend b).pool = s.pool := by
  simp [State.startSend, apply_ite State.pool, foldl_keeps_pool]

@[simp] theorem State.endFrame_pool (s : State) (o : Nat) (b : BufPkt) : (s.endFrame o b).pool = s.pool := by
  simp only [State.endFrame]; split <;> simp

@[simp] theorem State.suspendFrame_pool (s : State) (o : Nat) (b : BufPkt) : (s.suspendFrame o b).pool = s.pool := by
  simp only [State.suspendFrame]; split <;> simp

@[simp] theorem State.boundary_pool (s : State) (o : Nat) : (s.boundary o).pool = s.pool := by
  rw [State.boundary]; (repeat' split) <;> simp

@[simp] theorem State.resumeSend_pool (s : State) (o vl : Nat) : (s.resumeSend o vl).pool = s.pool := by
  simp only [State.resumeSend]; split <;> simp

@[simp] theorem State.spendGreen_pool (s : State) (o : Nat) (b : BufPkt) : (s.spendGreen o b).pool = s.pool := by
  simp only [State.spendGreen]; split <;> simp

theorem State.cutter_pool {s t : State} {o : Nat} {frame : Hdr} {b : BufPkt} (h : s.cutter o frame = some (b, t)) : t.pool = s.pool := by
  rw [State.cutter] at h
  (repeat' split at h) <;> try cases h
  · rfl
  · simp
  · exact State.yellowPick_pool h

theorem State.cutBy_pool {s t : State} {o : Nat} {c : BufPkt} {frame : Hdr} (h : s.cutBy o c frame = some t) : t.pool = s.pool := by
  rw [State.cutBy] at h
  split at h
  next hc =>
    split at h <;> cases h
    exact State.cutter_pool hc
  · cases h

@[simp] theorem State.replayNext_pool (s : State) (p : Nat) : (s.replayNext p).pool = s.pool := by
  rw [State.replayNext]; (repeat' split) <;> simp

@[simp] theorem State.sendBackground_pool (s : State) (o : Nat) : (s.sendBackground o).pool = s.pool := by
  simp only [State.sendBackground]; split <;> simp

@[simp] theorem State.queueBackground_pool (s : State) (o : Nat) (lens : List Nat) : (s.queueBackground o lens).pool = s.pool := by
  simp [State.queueBackground]

@[simp] theorem State.select_pool (s : State) (o : Nat) : (s.select o).pool = s.pool := by
  rw [State.select]
  dsimp only
  (repeat' split) <;> try simp
  all_goals next h => simp [State.yellowPick_pool h]

@[simp] theorem State.selectPast_pool (s : State) (o pid : Nat) : (s.selectPast o pid).pool = s.pool := by
  simp [State.selectPast]

@[simp] theorem State.selectInjected_pool (s : State) (o : Nat) : (s.selectInjected o).pool = s.pool := by
  simp only [State.selectInjected]; (repeat' split) <;> simp

@[simp] theorem State.selectOut_pool (s : State) (o : Nat) : (s.selectOut o).pool = s.pool := by
  simp only [State.selectOut, State.settleDeficits_pool]
  (repeat' split) <;> try simp
  all_goals next h => simp [State.cutter_pool h]

@[simp] theorem State.holdFrame_pool (s : State) (o : Nat) (b : BufPkt) (progress : Nat) : (s.holdFrame o b progress).pool = s.pool := by
  simp [State.holdFrame]

@[simp] theorem State.holdReplay_pool (s : State) (o : Nat) (f : ReplayFrame) (progress : Nat) :
    (s.holdReplay o f progress).pool = s.pool := by
  simp [State.holdReplay]

@[simp] theorem State.cutBackground_pool (s : State) (o : Nat) (c : BufPkt) (progress : Nat) :
    (s.cutBackground o c progress).pool = s.pool := by
  rw [State.cutBackground]
  (repeat' split) <;> try rfl
  next h => simp [State.cutBy_pool h]

@[simp] theorem State.sendControl_pool (s : State) (p subtype : Nat) : (s.sendControl p subtype).pool = s.pool := by
  simp only [State.sendControl]; split <;> simp

@[simp] theorem State.controlSlot_pool (s : State) (p : Nat) : (s.controlSlot p).pool = s.pool := by
  simp [State.controlSlot, apply_ite State.pool]

@[simp] theorem State.cutFrame_pool (s : State) (o pid progress : Nat) : (s.cutFrame o pid progress).pool = s.pool := by
  rw [State.cutFrame]
  (repeat' split) <;> try simp
  all_goals next h => simp [State.cutBy_pool h]

@[simp] theorem State.abortCut_pool (s : State) (o : Nat) : (s.abortCut o).pool = s.pool := by
  refine foldl_keeps_pool (fun s r => ?_) _ s
  split <;> simp

/-! ### Ports -/

@[simp] theorem State.upLane_pool (s : State) (l : Nat) (f : Lane → Lane) : (s.upLane l f).pool = s.pool := by
  simp [State.upLane]

@[simp] theorem State.enterOvercommit_pool (s : State) (p : Nat) : (s.enterOvercommit p).pool = s.pool := by
  simp [State.enterOvercommit]

@[simp] theorem State.leaveOvercommit_pool (s : State) (p : Nat) : (s.leaveOvercommit p).pool = s.pool := by
  simp only [State.leaveOvercommit]; split <;> simp

@[simp] theorem State.settleTrained_pool (s : State) (p before : Nat) : (s.settleTrained p before).pool = s.pool := by
  simp [State.settleTrained, apply_ite State.pool]

@[simp] theorem State.settleReleased_pool (s : State) (p : Nat) : (s.settleReleased p).pool = s.pool := by
  simp only [State.settleReleased]; split <;> simp

@[simp] theorem State.sendLaneMsg_pool (s : State) (p type lane rate width codeword : Nat) :
    (s.sendLaneMsg p type lane rate width codeword).pool = s.pool := by
  simp [State.sendLaneMsg]

@[simp] theorem State.startDetect_pool (s : State) (p : Nat) : (s.startDetect p).pool = s.pool := by
  simp [State.startDetect]

@[simp] theorem State.startSync_pool (s : State) (p : Nat) (quick : Bool) : (s.startSync p quick).pool = s.pool := by
  simp [State.startSync]

@[simp] theorem State.retrainPort_pool (s : State) (p : Nat) : (s.retrainPort p).pool = s.pool := by
  simp only [State.retrainPort]; split <;> simp

@[simp] theorem State.enterBackoff_pool (s : State) (p : Nat) : (s.enterBackoff p).pool = s.pool := by
  simp [State.enterBackoff]

@[simp] theorem State.assignLanes_pool (s : State) (p : Nat) (spare : Option Nat) : (s.assignLanes p spare).pool = s.pool := by
  simp [State.assignLanes, foldl_keeps_pool]

@[simp] theorem State.negotiate_pool (s : State) (p : Nat) : (s.negotiate p).pool = s.pool := by
  rw [State.negotiate]; (repeat' split) <;> simp

@[simp] theorem State.checkChannel_pool (s : State) (p : Nat) : (s.checkChannel p).pool = s.pool := by
  simp [State.checkChannel]

@[simp] theorem State.laneToSpare_pool (s : State) (p k : Nat) (retired : Bool) : (s.laneToSpare p k retired).pool = s.pool := by
  simp [State.laneToSpare]

@[simp] theorem State.laneFromSpare_pool (s : State) (p k : Nat) : (s.laneFromSpare p k).pool = s.pool := by
  simp [State.laneFromSpare]

@[simp] theorem State.lanesFail_pool (s : State) (p : Nat) (bad : List Nat) (next : TrainState) :
    (s.lanesFail p bad next).pool = s.pool := by
  simp only [State.lanesFail]; (repeat' split) <;> simp

@[simp] theorem foldl_upLane_pool (lane : Nat → Nat) (f : Lane → Lane) (l : List Nat) (s : State) :
    (l.foldl (fun s j => s.upLane (lane j) f) s).pool = s.pool :=
  foldl_keeps_pool (fun s j => s.upLane_pool (lane j) f) l s

@[simp] theorem State.portReady_pool (s : State) (p rate width skew : Nat) : (s.portReady p rate width skew).pool = s.pool := by
  simp only [State.portReady]
  simp [apply_ite State.pool]

@[simp] theorem State.stopSpareTest_pool (s : State) (p : Nat) : (s.stopSpareTest p).pool = s.pool := by
  simp [State.stopSpareTest]

@[simp] theorem State.askStep_pool (s : State) (p rate width : Nat) : (s.askStep p rate width).pool = s.pool := by
  simp [State.askStep]

@[simp] theorem State.askSubst_pool (s : State) (p lane : Nat) (isReturn : Bool) : (s.askSubst p lane isReturn).pool = s.pool := by
  simp [State.askSubst]

@[simp] theorem State.detector_pool (s : State) (l : Nat) : (s.detector l).pool = s.pool := by
  rw [State.detector]; (repeat' split) <;> simp

@[simp] theorem State.substEnd_pool (s : State) (p : Nat) : (s.substEnd p).pool = s.pool := by
  rw [State.substEnd]; (repeat' split) <;> simp

@[simp] theorem State.swapLane_pool (s : State) (p k : Nat) (isReturn : Bool) : (s.swapLane p k isReturn).pool = s.pool := by
  simp only [State.swapLane]; split <;> simp

@[simp] theorem State.stepPort_pool (s : State) (p rate width : Nat) : (s.stepPort p rate width).pool = s.pool := by
  simp [State.stepPort, apply_ite State.pool]

/-! ### Ingress -/

@[simp] theorem State.noteOld_pool (s : State) (h : Hdr) : (s.noteOld h).pool = s.pool := by
  simp only [State.noteOld]; split <;> simp

@[simp] theorem State.routeArrived_pool (s : State) (w : WaitPkt) (port : Nat) : (s.routeArrived w port).pool = s.pool := by
  rw [State.routeArrived]
  dsimp only
  (repeat' split) <;> try simp
  all_goals next h => simp [pool_of_pair h (State.lookup_pool ..)]

@[simp] theorem State.arrive_pool (s : State) (port : Nat) (pkt : Packet) (len rxVl flits : Nat) :
    (s.arrive port pkt len rxVl flits).pool = s.pool := by
  simp [State.arrive, apply_ite State.pool]

@[simp] theorem State.retryRoute_pool (s : State) (pid : Nat) : (s.retryRoute pid).pool = s.pool := by
  rw [State.retryRoute]
  dsimp only
  (repeat' split) <;> try simp
  next h => simp [pool_of_pair h (State.lookup_pool ..)]

@[simp] theorem State.moveTurns_pool (s : State) (input o : Nat) (outs : List Nat) : (s.moveTurns input o outs).pool = s.pool := by
  simp [State.moveTurns]

@[simp] theorem State.admitOut_pool (s : State) (w : WaitPkt) (o : Nat × Nat) : (s.admitOut w o).2.pool = s.pool := by
  rw [State.admitOut]
  dsimp only
  split
  · simp
  next h => split <;> simp [State.takeIn_pool h]

@[simp] theorem State.offer_pool (s : State) (pid : Nat) : (s.offer pid).pool = s.pool := by
  rw [State.offer]
  split
  · rfl
  · split
    · rfl
    · dsimp only
      simp only [State.settleOld_pool, apply_ite State.pool, State.freeRx_pool, State.upObf_pool, ite_self]
      rw [foldl_snd_keeps_pool (fun r o => by simp)]
      split <;> simp

@[simp] theorem State.stageCell_pool (s : State) (pid : Nat) : (s.stageCell pid).pool = s.pool := by
  rw [State.stageCell]; (repeat' split) <;> simp

@[simp] theorem State.stageCells_pool (s : State) (new : List Nat) : (s.stageCells new).pool = s.pool := by
  simp [State.stageCells, foldl_keeps_pool]

@[simp] theorem State.moveCell_pool (s : State) (pid output : Nat) : (s.moveCell pid output).pool = s.pool := by
  simp only [State.moveCell]; (repeat' split) <;> simp

@[simp] theorem State.crossPairs_pool (s : State) (pairs : List Pair) : (s.crossPairs pairs).pool = s.pool := by
  refine foldl_keeps_pool (fun s q => ?_) _ s
  (repeat' split) <;> simp

/-! ### Modes -/

@[simp] theorem State.stepPorts_pool (s : State) (ps : List Nat) (target : Nat → Nat × Nat) : (s.stepPorts ps target).pool = s.pool := by
  simp [State.stepPorts, foldl_keeps_pool]

@[simp] theorem State.hostLinksL1_pool (s : State) (on : Bool) : (s.hostLinksL1 on).pool = s.pool := by
  simp [State.hostLinksL1]

@[simp] theorem State.stormSteps_pool (s : State) : s.stormSteps.pool = s.pool := by
  simp [State.stormSteps, foldl_keeps_pool]

@[simp] theorem State.stepBack_pool (s : State) (p : Nat) : (s.stepBack p).pool = s.pool := by
  rw [State.stepBack]; (repeat' split) <;> simp

@[simp] theorem State.wakePort_pool (s : State) (p : Nat) : (s.wakePort p).pool = s.pool := by
  simp [State.wakePort]

@[simp] theorem State.wake_pool (s : State) : s.wake.pool = s.pool := by
  simp [State.wake, apply_ite State.pool, foldl_keeps_pool]

/-! ### Directory -/

@[simp] theorem State.wbUnexpected_pool (s : State) : s.wbUnexpected.pool = s.pool := by
  simp [State.wbUnexpected]

@[simp] theorem State.settleAcks_pool (s : State) : s.settleAcks.pool = s.pool := by
  simp only [State.settleAcks]
  rw [foldl_emit_pool]
  rfl

@[simp] theorem State.upSnoop_pool (s : State) (h line a : Nat) (f : Snoop → Snoop) : (s.upSnoop h line a f).pool = s.pool := by
  simp [State.upSnoop]

/-! ### Pool -/

@[simp] theorem State.upHostLink_mem (s : State) (l : Nat) (f : HostLink → HostLink) : (s.upHostLink l f).pool.mem = s.pool.mem := by
  simp [State.upHostLink]

@[simp] theorem State.upDown_mem (s : State) (p : Nat) (f : Downstream → Downstream) : (s.upDown p f).pool.mem = s.pool.mem := by
  simp [State.upDown]

@[simp] theorem State.upVslot_mem (s : State) (link vslot : Nat) (f : VSlot → VSlot) :
    (s.upVslot link vslot f).pool.mem = s.pool.mem := by
  simp [State.upVslot]

@[simp] theorem State.refuseAccess_mem (s : State) (i result : Nat) : (s.refuseAccess i result).pool.mem = s.pool.mem := by
  simp [State.refuseAccess]

@[simp] theorem State.bindOne_mem (s : State) (h : Nat) : (s.bindOne h).pool.mem = s.pool.mem := by
  simp only [State.bindOne]; split <;> simp

@[simp] theorem State.commitBind_mem (s : State) (handles : List Nat) : (s.commitBind handles).pool.mem = s.pool.mem := by
  simp [State.commitBind, foldl_keeps_mem]

@[simp] theorem State.settleBind_mem (s : State) (h : Nat) : (s.settleBind h).pool.mem = s.pool.mem := by
  rw [State.settleBind]
  (repeat' split) <;> simp

@[simp] theorem State.fenceExtent_mem (s : State) (h : Nat) : (s.fenceExtent h).pool.mem = s.pool.mem := by
  simp [State.fenceExtent]

@[simp] theorem State.settleUnbind_mem (s : State) (h : Nat) : (s.settleUnbind h).pool.mem = s.pool.mem := by
  rw [State.settleUnbind]
  (repeat' split) <;> simp

@[simp] theorem State.unbindEnds_mem (s : State) (h : Nat) (clean : Bool) : (s.unbindEnds h clean).pool.mem = s.pool.mem := by
  simp [State.unbindEnds]

@[simp] theorem State.unbindZero_mem (s : State) (h : Nat) : (s.unbindZero h).pool.mem = s.pool.mem := by
  simp only [State.unbindZero]; split <;> simp

@[simp] theorem State.functionGone_mem (s : State) (f : BoundFn) (status : Nat) (surprise : Bool) :
    (s.functionGone f status surprise).pool.mem = s.pool.mem := by
  simp [State.functionGone]

/-! ### Power -/

@[simp] theorem State.presenceFlag_pool (s : State) (slot : Nat) : (s.presenceFlag slot).pool = s.pool := by
  simp [State.presenceFlag]

@[simp] theorem State.windowTrip_pool (s : State) (feed cause : Nat) : (s.windowTrip feed cause).pool = s.pool := by
  simp only [State.windowTrip]; split <;> simp

@[simp] theorem State.presencePower_mem (s : State) (slot : Nat) : (s.presencePower slot).pool.mem = s.pool.mem := by
  simp [State.presencePower, apply_ite State.pool, apply_ite Pool.mem]

@[simp] theorem State.settleHeld_mem (s : State) : s.settleHeld.pool.mem = s.pool.mem := by
  simp [State.settleHeld, foldl_keeps_mem]

@[simp] theorem State.presenceSeen_mem (s : State) (slot : Nat) : (s.presenceSeen slot).pool.mem = s.pool.mem := by
  simp only [State.presenceSeen]; split <;> simp

@[simp] theorem State.actRecorded_mem (s : State) : s.actRecorded.pool.mem = s.pool.mem := by
  simp [State.actRecorded, apply_ite State.pool, apply_ite Pool.mem, foldl_keeps_mem]

/-! ### Access -/

@[simp] theorem State.guard_pool (s : State) (r : Req) (a : Access) (right kind : Nat) : (s.guard r a right kind).2.pool = s.pool := by
  rw [State.guard]
  (repeat' split) <;> try rfl
  all_goals next h => exact pool_of_pair h (State.protect_pool ..)

@[simp] theorem State.sendData_pool (s : State) (r : Req) (opcode own cluster offset : Nat) (src : Source) (data : List Nat) :
    (s.sendData r opcode own cluster offset src data).pool = s.pool := by
  simp [State.sendData]

@[simp] theorem State.sendHeapData_pool (s : State) (r : Req) (opcode own cluster address offset length fuel : Nat) :
    (s.sendHeapData r opcode own cluster address offset length fuel).pool = s.pool := by
  induction fuel generalizing s offset with
  | zero => rfl
  | succ fuel ih => rw [State.sendHeapData]; split <;> simp [ih]

@[simp] theorem State.serveGet_pool (s : State) (g : RegionP) (r : Req) (a : Access) (poison : Bool) :
    (s.serveGet g r a poison).pool = s.pool := by
  simp only [State.serveGet]
  split
  · simp
  · split <;> simp

@[simp] theorem State.lockResult_pool (s : State) (r : Req) (a : Access) (status index : Nat) :
    (s.lockResult r a status index).pool = s.pool := by
  simp [State.lockResult]

@[simp] theorem State.grantLock_pool (s : State) (r : Req) (a : Access) : (s.grantLock r a).pool = s.pool := by
  unfold State.grantLock
  generalize List.range 4096 = slots
  dsimp only
  split <;> simp

@[simp] theorem State.waitLock_pool (s : State) (g : RegionP) (r : Req) (a : Access) (isLock : Bool) (what : Instr) :
    (s.waitLock g r a isLock what).pool = s.pool := by
  simp [State.waitLock]

@[simp] theorem State.serveLock_pool (s : State) (g : RegionP) (r : Req) (a : Access) (wait : Bool) (what : Instr) :
    (s.serveLock g r a wait what).pool = s.pool := by
  rw [State.serveLock]; (repeat' split) <;> simp

/-! ### Dumps -/

@[simp] theorem State.upStream_pool (s : State) (n : Nat) (f : Stream → Stream) : (s.upStream n f).pool = s.pool := by
  simp [State.upStream]

@[simp] theorem State.stage_pool (s : State) (n kind i : Nat) (final : Option Nat) : (s.stage n kind i final).pool = s.pool := by
  simp [State.stage, apply_ite State.pool]

@[simp] theorem State.freeSlots_pool (s : State) (n : Nat) (freed : List Nat) : (s.freeSlots n freed).pool = s.pool := by
  simp [State.freeSlots]

@[simp] theorem State.freeInstance_pool (s : State) (i : Nat) : (s.freeInstance i).pool = s.pool := by
  simp [State.freeInstance]

@[simp] theorem State.writeSlot_pool (s : State) (n : Nat) : (s.writeSlot n).pool = s.pool := by
  rw [State.writeSlot]; (repeat' split) <;> simp

@[simp] theorem State.loseSnapshot_pool (s : State) (n : Nat) : (s.loseSnapshot n).pool = s.pool := by
  simp only [State.loseSnapshot]; split <;> simp

@[simp] theorem State.disableEnds_pool (s : State) (i : Nat) : (s.disableEnds i).pool = s.pool := by
  simp only [State.disableEnds]; split <;> simp

@[simp] theorem State.chargeMs_pool (s : State) : s.chargeMs.pool = s.pool := by
  simp [State.chargeMs, apply_ite State.pool, foldl_keeps_pool]

@[simp] theorem State.lanesPass_pool (s : State) (dt : Nat) : (s.lanesPass dt).pool = s.pool := by
  simp [State.lanesPass]

@[simp] theorem State.passTime_pool (s : State) (dt : Nat) : (s.passTime dt).pool = s.pool := by
  simp only [State.passTime]; split <;> simp

/-! ### Resets -/

@[simp] theorem State.restartQueue_pool (s : State) (kind queue : Nat) : (s.restartQueue kind queue).pool = s.pool := by
  simp only [State.restartQueue]; split <;> simp

@[simp] theorem State.finishMove_pool (s : State) (q : Nat) : (s.finishMove q).pool = s.pool := by
  simp only [State.finishMove]; (repeat' split) <;> simp

@[simp] theorem State.dropQueues_pool (s : State) (i : Nat) : (s.dropQueues i).pool = s.pool := by
  simp [State.dropQueues, foldl_keeps_pool]

@[simp] theorem State.clearContained_pool (s : State) (i : Nat) : (s.clearContained i).pool = s.pool := by
  simp [State.clearContained]

@[simp] theorem State.resetEnds_pool (s : State) (i : Nat) : (s.resetEnds i).pool = s.pool := by
  simp [State.resetEnds, apply_ite State.pool]

/-! ### Spares -/

@[simp] theorem State.spareTakes_pool (s : State) (kind unit : Nat) : (s.spareTakes kind unit).pool = s.pool := by
  simp only [State.spareTakes]; split <;> simp

@[simp] theorem State.swapDone_pool (s : State) (kind unit : Nat) : (s.swapDone kind unit).pool = s.pool := by
  simp only [State.swapDone]; (repeat' split) <;> simp

/-! ### Containment -/

@[simp] theorem State.recoverPorts_pool (s : State) : s.recoverPorts.pool = s.pool := by
  simp [State.recoverPorts, apply_ite State.pool, foldl_keeps_pool]

/-! ### Commands and events of the board's queues -/

@[simp] theorem State.flushReplies_pool (s : State) (q fuel : Nat) : (s.flushReplies q fuel).pool = s.pool := by
  induction fuel generalizing s with
  | zero => rfl
  | succ fuel ih => rw [State.flushReplies]; (repeat' split) <;> simp [ih]

@[simp] theorem State.producerWrite_pool (s : State) (q index : Nat) : (s.producerWrite q index).pool = s.pool := by
  simp [State.producerWrite, apply_ite State.pool]

@[simp] theorem State.enableQueue_pool (s : State) (q : Nat) : (s.enableQueue q).pool = s.pool := by
  simp only [State.enableQueue]; split <;> simp

@[simp] theorem State.inbandWhole_pool (s : State) (k : InbandKey) (directed : Bool) (ports : List Nat) :
    (s.inbandWhole k directed ports).pool = s.pool := by
  rw [State.inbandWhole]; (repeat' split) <;> simp

@[simp] theorem State.inbandSegment_pool (s : State) (k : InbandKey) (index count : Nat) (directed : Bool) (ports : List Nat) :
    (s.inbandSegment k index count directed ports).pool = s.pool := by
  simp [State.inbandSegment, apply_ite State.pool]

@[simp] theorem State.remoteReply_pool (s : State) (queue seq status result : Nat) (deviceValid : Bool) (device : Nat) (out : List Nat) :
    (s.remoteReply queue seq status result deviceValid device out).pool = s.pool := by
  rw [State.remoteReply]; (repeat' split) <;> simp

@[simp] theorem State.inbandRetry_pool (s : State) (queue seq : Nat) : (s.inbandRetry queue seq).pool = s.pool := by
  rw [State.inbandRetry]; (repeat' split) <;> simp

@[simp] theorem State.dropMessage_pool (s : State) (k : InbandKey) : (s.dropMessage k).pool = s.pool := by
  simp [State.dropMessage, foldl_keeps_pool]

/-! ### Commands and events of the link -/

@[simp] theorem State.takeHead_pool (s : State) (p h : Nat) : (s.takeHead p h).pool = s.pool := by
  simp [State.takeHead, apply_ite State.pool]

@[simp] theorem State.getD_dropCopies_pool (q : Option Nat) (s : State) : ((q.map s.dropCopies).getD s).pool = s.pool := by
  cases q <;> simp

@[simp] theorem State.frameEnd_pool (s : State) (p v seq flits : Nat) (pkt : Packet) (crcOk abort : Bool) (open_ : Option OpenFrame) :
    (s.frameEnd p v seq flits pkt crcOk abort open_).pool = s.pool := by
  simp only [State.frameEnd]
  (repeat' split) <;> simp only [State.freeFlits_pool, State.acceptFrame_pool, State.getD_dropCopies_pool, State.upLinkVl_pool,
    State.arrive_pool]

@[simp] theorem State.beginFrame_pool (s : State) (p head : Nat) (pkt : Packet) (crcOk : Bool) (t : Tag) :
    (s.beginFrame p head pkt crcOk t).pool = s.pool := by
  rw [State.beginFrame]; dsimp only; (repeat' split) <;> simp

@[simp] theorem State.frameStart_pool (s : State) (p head : Nat) (pkt : Packet) (crcOk : Bool) (t : Tag) :
    (s.frameStart p head pkt crcOk t).pool = s.pool := by
  rw [State.frameStart]; dsimp only; (repeat' split) <;> simp

@[simp] theorem State.damagedStart_pool (s : State) (p head : Nat) (t : Tag) : (s.damagedStart p head t).pool = s.pool := by
  simp only [State.damagedStart]; split <;> simp

@[simp] theorem State.continueFrame_pool (s : State) (p : Nat) (pkt : Packet) (crcOk : Bool) (t : Tag) :
    (s.continueFrame p pkt crcOk t).pool = s.pool := by
  rw [State.continueFrame]; (repeat' split) <;> simp

@[simp] theorem State.rxFrame_pool (s : State) (p : Nat) (sync : BitVec 16) (head : BitVec 128) (pkt : Packet) (crcOk : Bool) :
    (s.rxFrame p sync head pkt crcOk).pool = s.pool := by
  rw [State.rxFrame]; (repeat' split) <;> simp

@[simp] theorem State.settleDrain_pool (s : State) (p : Nat) : (s.settleDrain p).pool = s.pool := by
  simp only [State.settleDrain]; split <;> simp

@[simp] theorem State.rxControl_pool (s : State) (p : Nat) (flit : BitVec 512) (sync : BitVec 16) :
    (s.rxControl p flit sync).pool = s.pool := by
  have hcredit (g : Nat → Nat) (l : List Nat) (t : State) : (l.foldl (fun s v => s.takeCredit p v (g v)) t).pool = t.pool :=
    foldl_keeps_pool (fun s v => s.takeCredit_pool ..) l t
  have hlimit (g : Nat → LinkVl → LinkVl) (l : List Nat) (t : State) : (l.foldl (fun s v => s.upLinkVl p v (g v)) t).pool = t.pool :=
    foldl_keeps_pool (fun s v => s.upLinkVl_pool ..) l t
  simp only [State.rxControl]
  (repeat' split) <;> simp [hcredit, hlimit]

@[simp] theorem State.replayTimeout_pool (s : State) (p : Nat) : (s.replayTimeout p).pool = s.pool := by
  simp [State.replayTimeout, apply_ite State.pool]

/-! ### Commands and events of the transport -/

@[simp] theorem State.settleClose_pool (s : State) (k : CtxKey) : (s.settleClose k).pool = s.pool := by
  rw [State.settleClose]; (repeat' split) <;> simp

@[simp] theorem State.setPin_pool (s : State) (k : CtxKey) (half : Nat) (pin : Bool) : (s.setPin k half pin).pool = s.pool := by
  simp [State.setPin, apply_ite State.pool]

@[simp] theorem State.complexAnswer_pool (s : State) (p : Packet) : (s.complexAnswer p).pool = s.pool := by
  simp [State.complexAnswer]

@[simp] theorem State.reservedOpcode_pool (s : State) (p : Packet) : (s.reservedOpcode p).pool = s.pool := by
  simp [State.reservedOpcode]

@[simp] theorem State.unassignedEndpoint_pool (s : State) (p : Packet) : (s.unassignedEndpoint p).pool = s.pool := by
  simp [State.unassignedEndpoint]

@[simp] theorem State.hand_pool (s : State) (p : Packet) (len : Nat) : (s.hand p len).pool = s.pool := by
  rw [State.hand]; (repeat' split) <;> simp

@[simp] theorem State.countMiss_pool (s : State) : s.countMiss.pool = s.pool := by
  simp [State.countMiss]

@[simp] theorem State.judgeArrival_pool (s : State) (h : Hdr) : (s.judgeArrival h).2.pool = s.pool := by
  rw [State.judgeArrival]; (repeat' split) <;> simp

@[simp] theorem State.releaseHeld_pool (s : State) (k : CtxKey) (fuel : Nat) : (s.releaseHeld k fuel).pool = s.pool := by
  induction fuel generalizing s with
  | zero => rfl
  | succ fuel ih => rw [State.releaseHeld]; (repeat' split) <;> simp [ih]

@[simp] theorem State.noteHold_pool (s : State) : s.noteHold.pool = s.pool := by
  simp [State.noteHold]

@[simp] theorem State.deliverOrdered_pool (s : State) (k : CtxKey) (p : Packet) (ticket : Bool) :
    (s.deliverOrdered k p ticket).pool = s.pool := by
  rw [State.deliverOrdered]; dsimp only; (repeat' split) <;> simp

@[simp] theorem State.judgeSeq_pool (s : State) (p : Packet) (ticket : Bool) : (s.judgeSeq p ticket).pool = s.pool := by
  simp only [State.judgeSeq]
  (repeat' split) <;> simp

@[simp] theorem State.rxData_pool (s : State) (p : Packet) (check : BitVec 64) (ticket : Bool) :
    (s.rxData p check ticket).pool = s.pool := by
  simp only [State.rxData]
  (repeat' split) <;> simp

@[simp] theorem State.rxOpen_pool (s : State) (k : CtxKey) (initialSeq sl : Nat) : (s.rxOpen k initialSeq sl).pool = s.pool := by
  simp only [State.rxOpen]
  split
  next h => rw [State.sendTack_pool, State.openRecv_pool h]; split <;> simp
  · simp [apply_ite State.pool]

@[simp] theorem State.rxClose_pool (s : State) (k : CtxKey) (nextSeq sl : Nat) : (s.rxClose k nextSeq sl).pool = s.pool := by
  simp only [State.rxClose]; split <;> simp

@[simp] theorem State.idleExpiry_pool (s : State) (k : CtxKey) : (s.idleExpiry k).pool = s.pool := by
  rw [State.idleExpiry]; (repeat' split) <;> simp

@[simp] theorem State.miss_pool (s : State) (id : Nat) : (s.miss id).pool = s.pool := by
  simp only [State.miss]; (repeat' split) <;> simp

@[simp] theorem State.takeLates_pool (s : State) (k : CtxKey) (lates : List Nat) : (s.takeLates k lates).pool = s.pool := by
  refine foldl_keeps_pool (fun s sl => foldl_keeps_pool (fun s i => ?_) _ s) _ s
  dsimp only
  split <;> simp

@[simp] theorem State.closeSend_pool (s : State) (k : CtxKey) (c : SendCtx) : (s.closeSend k c).pool = s.pool := by
  simp [State.closeSend, apply_ite State.pool, foldl_keeps_pool]

@[simp] theorem State.rxTack_pool (s : State) (k : CtxKey) (ack : Nat) (openAck openRefused closeAck : Bool) (lates : List Nat)
    (marks returned granted : Nat) : (s.rxTack k ack openAck openRefused closeAck lates marks returned granted).pool = s.pool := by
  rw [State.rxTack]
  (repeat' split) <;> simp

@[simp] theorem State.ackDue_pool (s : State) (k : CtxKey) : (s.ackDue k).pool = s.pool := by
  rw [State.ackDue]; (repeat' split) <;> simp

@[simp] theorem State.nakDue_pool (s : State) (k : CtxKey) : (s.nakDue k).pool = s.pool := by
  rw [State.nakDue]; (repeat' split) <;> simp

@[simp] theorem State.lateSend_pool (s : State) (k : CtxKey) : (s.lateSend k).pool = s.pool := by
  rw [State.lateSend]
  (repeat' split) <;> try simp
  all_goals next h => simp [pool_of_pair h (State.policeQueued_pool ..)]

/-! ### Commands and events of the ports -/

@[simp] theorem State.setMode_pool (s : State) (p mode width maxRate : Nat) (lead : Bool) :
    (s.setMode p mode width maxRate lead).pool = s.pool := by
  simp only [State.setMode]; split <;> simp

@[simp] theorem State.substOver_pool (s : State) (p : Nat) : (s.substOver p).pool = s.pool := by
  simp only [State.substOver]; split <;> simp

@[simp] theorem State.detected_pool (s : State) (l : Nat) : (s.detected l).pool = s.pool := by
  simp only [State.detected]; split <;> simp

@[simp] theorem State.lostLane_pool (s : State) (l src : Nat) : (s.lostLane l src).pool = s.pool := by
  simp [State.lostLane, apply_ite State.pool]

@[simp] theorem State.lostCodeword_pool (s : State) (p : Nat) : (s.lostCodeword p).pool = s.pool := by
  simp only [State.lostCodeword]; split <;> simp

@[simp] theorem State.settleEqualise_pool (s : State) (p : Nat) : (s.settleEqualise p).pool = s.pool := by
  simp only [State.settleEqualise]; split <;> simp

@[simp] theorem State.leaveSync_pool (s : State) (p : Nat) : (s.leaveSync p).pool = s.pool := by
  simp [State.leaveSync, apply_ite State.pool]

@[simp] theorem State.rxSequence_pool (s : State) (lane : Nat) (q : TrainSeq) : (s.rxSequence lane q).pool = s.pool := by
  simp only [State.rxSequence]; (repeat' split) <;> simp

/-! ### Commands and events of power -/

@[simp] theorem State.keepSail_pool (s : State) : s.keepSail.pool = s.pool := by
  simp [State.keepSail, foldl_keeps_pool]

@[simp] theorem State.releaseFeed_pool (s : State) (feed : Nat) : (s.releaseFeed feed).pool = s.pool := by
  simp only [State.releaseFeed]; split <;> simp

@[simp] theorem State.powerGood_mem (s : State) (c : Nat) : (s.powerGood c).pool.mem = s.pool.mem := by
  simp only [State.powerGood]; split <;> simp

@[simp] theorem State.upDomain_pool (s : State) (d : Nat) (f : Domain → Domain) : (s.upDomain d f).pool = s.pool := by
  simp [State.upDomain]

@[simp] theorem State.wantDomain_pool (s : State) (d : Nat) : (s.wantDomain d).pool = s.pool := by
  simp only [State.wantDomain]; split <;> simp

@[simp] theorem State.turnAway_pool (s : State) (domain : Nat) (p : Packet) : (s.turnAway domain p).pool = s.pool := by
  simp only [State.turnAway]; split <;> simp

@[simp] theorem State.domainsReady_pool (s : State) : s.domainsReady.pool = s.pool := by
  rw [State.domainsReady]
  split
  · refine foldl_keeps_pool (fun s g => ?_) _ s
    split <;> simp
  · rfl

/-! ### Commands and events of the boot -/

@[simp] theorem State.mgmtStart_pool (s : State) (trigger : Nat) : (s.mgmtStart trigger).pool = s.pool := by
  simp [State.mgmtStart]

@[simp] theorem State.allOff_pool (s : State) : s.allOff.pool = s.pool := by
  simp [State.allOff, foldl_keeps_pool]

@[simp] theorem State.sampleStraps_pool (s : State) (insdly smbaddr ppssel flash : Nat) :
    (s.sampleStraps insdly smbaddr ppssel flash).pool = s.pool := by
  simp [State.sampleStraps]

@[simp] theorem State.calibrate_pool (s : State) (failed baselines : List Nat) : (s.calibrate failed baselines).pool = s.pool := by
  simp [State.calibrate, apply_ite State.pool, foldl_keeps_pool]

@[simp] theorem State.upFlash_pool (s : State) (n : Nat) (f : FlashSlot → FlashSlot) : (s.upFlash n f).pool = s.pool := by
  simp [State.upFlash]

@[simp] theorem State.imageRuns_pool (s : State) (slot fwVersion : Nat) : (s.imageRuns slot fwVersion).pool = s.pool := by
  simp only [State.imageRuns]; split <;> simp

@[simp] theorem State.bootPort_pool (s : State) (cfg : Nat → Nat × Nat × Nat) (p : Nat) : (s.bootPort cfg p).pool = s.pool := by
  simp [State.bootPort, apply_ite State.pool]

@[simp] theorem State.applyRepairs_pool (s : State) : s.applyRepairs.pool = s.pool := by
  simp [State.applyRepairs]

@[simp] theorem State.applyBoot_mem (s : State) : s.applyBoot.pool.mem = s.pool.mem := by
  simp [State.applyBoot, foldl_keeps_mem]

/-! ### Commands and events of the switch -/

@[simp] theorem State.reclaimOrphans_pool (s : State) : s.reclaimOrphans.2.pool = s.pool := by
  refine foldl_snd_keeps_pool (fun r e => ?_) _ _
  dsimp only
  (repeat' split) <;> simp

@[simp] theorem State.reclaimQueue_pool (s : State) (queue : Nat) : (s.reclaimQueue queue).2.pool = s.pool := by
  refine foldl_snd_keeps_pool (fun r b => ?_) _ _
  dsimp only
  (repeat' split) <;> simp

@[simp] theorem State.auditPass_pool (s : State) : s.auditPass.pool = s.pool := by
  simp [State.auditPass, apply_ite State.pool]

@[simp] theorem State.unbindLeaf_pool (s : State) (queue : Nat) : (s.unbindLeaf queue).pool = s.pool := by
  simp [State.unbindLeaf]

@[simp] theorem State.upArb_pool (s : State) (resource index : Nat) (f : Arb → Arb) : (s.upArb resource index f).pool = s.pool := by
  simp [State.upArb]

@[simp] theorem State.starve_pool (s : State) (resource index requester : Nat) : (s.starve resource index requester).pool = s.pool := by
  simp [State.starve]

@[simp] theorem State.enterSource_pool (s : State) (input : Nat) (p : Packet) (length : Nat) (preYellow first : Bool) :
    (s.enterSource input p length preYellow first).pool = s.pool := by
  rw [State.enterSource]
  split <;> next h => simp [pool_of_pair h (State.police_pool ..)]

@[simp] theorem State.releaseEdge_pool (s : State) (pid : Nat) : (s.releaseEdge pid).pool = s.pool := by
  rw [State.releaseEdge]
  (repeat' split) <;> try simp
  all_goals next h => simp [pool_of_pair h (State.police_pool ..)]

/-! ### Commands and events of admission -/

@[simp] theorem State.settlePorts_pool (s : State) (bitmap : Nat) : (s.settlePorts bitmap).pool = s.pool := by
  simp [State.settlePorts, foldl_keeps_pool]

@[simp] theorem State.wantAll_pool (s : State) : s.wantAll.pool = s.pool := by
  simp [State.wantAll, foldl_keeps_pool]

@[simp] theorem State.releaseResv_pool (s : State) (resvId : Nat) (r : Resv) : (s.releaseResv resvId r).pool = s.pool := by
  simp [State.releaseResv]

/-! ### Commands and events of routing -/

@[simp] theorem State.upBank_pool (s : State) (b : Nat) (f : Bank → Bank) : (s.upBank b f).pool = s.pool := by
  simp [State.upBank]

@[simp] theorem State.upTables_pool (s : State) (tile b : Nat) (f : RouteTables → RouteTables) : (s.upTables tile b f).pool = s.pool := by
  simp [State.upTables]

@[simp] theorem State.dropTree_pool (s : State) (tree : Nat) : (s.dropTree tree).pool = s.pool := by
  simp [State.dropTree]

@[simp] theorem State.sendUnreachable_pool (s : State) (ports : List Nat) : (s.sendUnreachable ports).pool = s.pool := by
  simp [State.sendUnreachable]

@[simp] theorem State.directed_pool (s : State) (port hopCount hopPtr : Nat) (ports : RoutePorts) (message : List Nat) :
    (s.directed port hopCount hopPtr ports message).pool = s.pool := by
  simp [State.directed, apply_ite State.pool]

/-! ### Commands and events of the pool -/

@[simp] theorem State.bindExtent_mem (s : State) (b : BindP) (k : Nat) : (s.bindExtent b k).pool.mem = s.pool.mem := by
  simp only [State.bindExtent]; split <;> simp

@[simp] theorem State.unbindExtent_mem (s : State) (zero : Bool) (h : Nat) : (s.unbindExtent zero h).pool.mem = s.pool.mem := by
  simp only [State.unbindExtent]
  split <;> simp [foldl_emit_pool]

@[simp] theorem State.upFn_mem (s : State) (port rid : Nat) (f : BoundFn → BoundFn) : (s.upFn port rid f).pool.mem = s.pool.mem := by
  simp [State.upFn]

@[simp] theorem State.resetFunction_mem (s : State) (f : BoundFn) (late : Bool) : (s.resetFunction f late).pool.mem = s.pool.mem := by
  simp [State.resetFunction]

/-! ### Commands and events of the directory -/

@[simp] theorem State.closeRecall_pool (s : State) (id : Nat) : (s.closeRecall id).pool = s.pool := by
  simp [State.closeRecall]

@[simp] theorem State.mapCoherent_mem (s : State) (inst slot h : Nat) : (s.mapCoherent inst slot h).pool.mem = s.pool.mem := by
  simp only [State.mapCoherent]; split <;> simp

@[simp] theorem State.unmapCoherent_mem (s : State) (inst slot h : Nat) : (s.unmapCoherent inst slot h).pool.mem = s.pool.mem := by
  simp [State.unmapCoherent]

@[simp] theorem State.bankTurn_pool (s : State) (h line pos : Nat) : (s.bankTurn h line pos).pool = s.pool := by
  simp [State.bankTurn]

@[simp] theorem State.cohRefused_mem (s : State) (agent : Option Nat) (h line : Nat) :
    (s.cohRefused agent h line).pool.mem = s.pool.mem := by
  rw [State.cohRefused]; (repeat' split) <;> simp

@[simp] theorem State.keepState_pool (s : State) (h line a keep : Nat) : (s.keepState h line a keep).pool = s.pool := by
  simp [State.keepState, apply_ite State.pool]

/-! ### Accesses of the hosts -/

@[simp] theorem State.refuseImport_pool (s : State) (r : WinReq) (reason : Nat) : (s.refuseImport r reason).pool = s.pool := by
  simp [State.refuseImport, apply_ite State.pool]

@[simp] theorem State.importAccess_mem (s : State) (x : Import) (r : WinReq) (data : List Nat) (again : Instr) :
    (s.importAccess x r data again).pool.mem = s.pool.mem := by
  simp only [State.importAccess]
  split
  · rfl
  · split
    · simp
    · split <;> next h => simp [pool_of_pair h (State.police_pool ..), apply_ite State.pool]

@[simp] theorem State.windowRsp_pool (s : State) (opcode dest inst sl : Nat) (w : WinF) (data : List Nat) :
    (s.windowRsp opcode dest inst sl w data).pool = s.pool := by
  simp [State.windowRsp]

@[simp] theorem State.serveWread_pool (s : State) (device inst sl : Nat) (w : WinF) : (s.serveWread device inst sl w).pool = s.pool := by
  simp only [State.serveWread]; split <;> simp

/-! ### Commands and events of the engines -/

@[simp] theorem State.addQueue_pool (s : State) (q : QueueP) : (s.addQueue q).pool = s.pool := by
  simp only [State.addQueue]; split <;> simp

@[simp] theorem State.flushTriggers_pool (s : State) (q : Nat) : (s.flushTriggers q).pool = s.pool := by
  simp [State.flushTriggers, foldl_keeps_pool]

@[simp] theorem State.flushPosted_pool (s : State) (q : Nat) : (s.flushPosted q).pool = s.pool := by
  simp [State.flushPosted, foldl_keeps_pool]

@[simp] theorem State.ignoreDoorbell_pool (s : State) (i : Nat) : (s.ignoreDoorbell i).pool = s.pool := by
  simp [State.ignoreDoorbell]

@[simp] theorem State.recvQueueError_pool (s : State) (q status : Nat) : (s.recvQueueError q status).pool = s.pool := by
  rw [State.recvQueueError]; (repeat' split) <;> simp

@[simp] theorem State.sendDoorbell_pool (s : State) (i q index : Nat) : (s.sendDoorbell i q index).pool = s.pool := by
  rw [State.sendDoorbell]; (repeat' split) <;> simp

@[simp] theorem State.recvDoorbell_pool (s : State) (i q index : Nat) : (s.recvDoorbell i q index).pool = s.pool := by
  rw [State.recvDoorbell]; (repeat' split) <;> simp

@[simp] theorem State.resumeCq_pool (s : State) (cq : Nat) : (s.resumeCq cq).pool = s.pool := by
  simp [State.resumeCq, apply_ite State.pool, foldl_keeps_pool]

@[simp] theorem State.compDoorbell_pool (s : State) (i q index : Nat) (arm : Bool) : (s.compDoorbell i q index arm).pool = s.pool := by
  rw [State.compDoorbell]; (repeat' split) <;> simp

/-! ### Operations of the engines -/

@[simp] theorem State.localOk_pool (s : State) (o : OpSlot) (kind offset n : Nat) : (s.localOk o kind offset n).2.pool = s.pool := by
  simp only [State.localOk]; split <;> simp

@[simp] theorem State.countVisit_pool (s : State) (q : Nat) (x : SendQueue) : (s.countVisit q x).pool = s.pool := by
  simp [State.countVisit]

theorem State.takeSlot_pool {s t : State} {q engine tag : Nat} {x : SendQueue} {d : Desc} {triggered : Bool}
    (h : s.takeSlot q x engine d triggered = some (tag, t)) : t.pool = s.pool := by
  unfold State.takeSlot at h
  generalize s.freeSlot engine = slot at h
  cases slot <;> cases h
  rfl

@[simp] theorem State.unqueue_pool (s : State) (q tag : Nat) : (s.unqueue q tag).pool = s.pool := by
  simp [State.unqueue]

@[simp] theorem State.failStart_pool (s : State) (q tag status : Nat) : (s.failStart q tag status).pool = s.pool := by
  simp [State.failStart, apply_ite State.pool, foldl_keeps_pool]

@[simp] theorem State.takeDesc_pool (s : State) (q : Nat) (x : SendQueue) (d : Desc) : (s.takeDesc q x d).pool = s.pool := by
  simp only [State.takeDesc]
  split
  · (repeat' split) <;> simp
  · split
    · rfl
    next h => (repeat' split) <;> simp [State.takeSlot_pool h]

@[simp] theorem State.fetchDesc_pool (s : State) (q : Nat) (d : Desc) (readOk : Bool) : (s.fetchDesc q d readOk).pool = s.pool := by
  simp only [State.fetchDesc]
  split
  · rfl
  · split
    · rfl
    · split
      next h => simp [pool_of_pair h (State.protect_pool ..)]
      next h => (repeat' split) <;> simp [pool_of_pair h (State.protect_pool ..)]

@[simp] theorem State.fireTrigger_pool (s : State) (engine : Nat) : (s.fireTrigger engine).pool = s.pool := by
  rw [State.fireTrigger]
  (repeat' split) <;> try simp
  all_goals next h _ => simp [State.takeSlot_pool h]

theorem State.withLocal_pool {s : State} {f : State → State} (hf : ∀ t, (f t).pool = t.pool) (o : OpSlot) (kind offset n : Nat) :
    (s.withLocal o kind offset n f).pool = s.pool := by
  rw [State.withLocal]
  split <;> next h => simp [hf, pool_of_pair h (State.localOk_pool ..)]

@[simp] theorem State.launch_pool (s : State) (o : OpSlot) (p : SentPkt) : (s.launch o p).pool = s.pool := by
  rw [State.launch]
  (repeat' split) <;> try simp
  all_goals next h => simp [pool_of_pair h (State.police_pool ..)]

@[simp] theorem State.sendOp_pool (s : State) (o : OpSlot) (opcode payload : Nat) (carries : Bool) (fields data : List Nat)
    (first last : Bool) (src : Option Source) : (s.sendOp o opcode payload carries fields data first last src).pool = s.pool := by
  simp only [State.sendOp]
  generalize (ite (o.d.multicast = true) _ _ : Hdr) = h
  split
  · simp
  · split
    · split <;> next h => simp [pool_of_pair h (State.police_pool ..), apply_ite State.pool]
    · simp [apply_ite State.pool]

@[simp] theorem State.sendPart_pool (s : State) (o : OpSlot) (opcode offset : Nat) (data : List Nat) (src : Option Source) :
    (s.sendPart o opcode offset data src).pool = s.pool := by
  simp [State.sendPart, apply_ite State.pool]

@[simp] theorem State.sendHeap_pool (s : State) (o : OpSlot) (opcode offset fuel : Nat) :
    (s.sendHeap o opcode offset fuel).pool = s.pool := by
  induction fuel generalizing s offset with
  | zero => rfl
  | succ fuel ih => rw [State.sendHeap]; split <;> simp [ih]

@[simp] theorem State.startData_pool (s : State) (o : OpSlot) (opcode : Nat) : (s.sendData_ o opcode).pool = s.pool := by
  simp only [State.sendData_]; split <;> simp

@[simp] theorem State.startPut_pool (s : State) (o : OpSlot) : (s.startPut o).pool = s.pool := by
  refine State.withLocal_pool (fun t => ?_) ..
  (repeat' split) <;> simp

@[simp] theorem State.sendAtomic_pool (s : State) (o : OpSlot) (a b : Nat) (src : Option Source) :
    (s.sendAtomic o a b src).pool = s.pool := by
  simp [State.sendAtomic]

@[simp] theorem State.startAtomic_pool (s : State) (o : OpSlot) : (s.startAtomic o).pool = s.pool := by
  rw [State.startAtomic]
  split
  · refine State.withLocal_pool (fun t => State.withLocal_pool (fun u => ?_) ..) ..
    split <;> simp
  · exact State.withLocal_pool (fun t => t.sendAtomic_pool ..) ..

@[simp] theorem State.takeMsn_pool (s : State) (k : CtxKey) (sl : Nat) : (s.takeMsn k sl).2.pool = s.pool := by
  simp only [State.takeMsn]; split <;> simp

@[simp] theorem State.sendMessage_pool (s : State) (o : OpSlot) : (s.sendMessage o).pool = s.pool := by
  rw [State.sendMessage]; (repeat' split) <;> simp

@[simp] theorem State.startMessage_pool (s : State) (o : OpSlot) : (s.startMessage o).pool = s.pool :=
  State.withLocal_pool (fun t => by simp) ..

@[simp] theorem State.startLock_pool (s : State) (o : OpSlot) : (s.startLock o).pool = s.pool := by
  rw [State.startLock]; split <;> simp

/-! ### Arrivals at the engines -/

@[simp] theorem State.dropPut_pool (s : State) (r : Req) (last : Bool) : (s.dropPut r last).pool = s.pool := by
  simp [State.dropPut]

@[simp] theorem State.refusePut_pool (s : State) (r : Req) (a : Access) (last : Bool) (status : Nat) :
    (s.refusePut r a last status).pool = s.pool := by
  simp only [State.refusePut]; split <;> simp

@[simp] theorem State.readDone_pool (s : State) (tag i : Nat) : (s.readDone tag i).pool = s.pool := by
  simp [State.readDone]

@[simp] theorem State.getRest_pool (s : State) (p : PendRead) : (s.getRest p).pool = s.pool := by
  simp [State.getRest, apply_ite State.pool]

@[simp] theorem State.serveRead_pool (s : State) (p : PendRead) (values : List Nat) (bad : Bool) :
    (s.serveRead p values bad).pool = s.pool := by
  rw [State.serveRead]; (repeat' split) <;> simp

@[simp] theorem State.feedOp_pool (s : State) (p : PendRead) (o : OpSlot) (values : List Nat) (bad : Bool) :
    (s.feedOp p o values bad).pool = s.pool := by
  simp only [State.feedOp]; (repeat' split) <;> simp

@[simp] theorem State.readReturns_pool (s : State) (tag : Nat) (values : List Nat) (bad : Bool) :
    (s.readReturns tag values bad).pool = s.pool := by
  rw [State.readReturns]
  split
  · exact foldl_keeps_pool (fun s i => by simp) _ s
  · dsimp only
    (repeat' split) <;> simp

@[simp] theorem State.refusedSend_pool (s : State) (o : OpSlot) : (s.refusedSend o).pool = s.pool := by
  rw [State.refusedSend]; dsimp only; split <;> simp

@[simp] theorem State.serveRget_pool (s : State) (r : Req) (rvTag rvGen offset length : Nat) :
    (s.serveRget r rvTag rvGen offset length).pool = s.pool := by
  simp only [State.serveRget]; (repeat' split) <;> simp

@[simp] theorem State.rendezvousDone_pool (s : State) (m : Msg) (tag bytes : Nat) : (s.rendezvousDone m tag bytes).pool = s.pool := by
  simp [State.rendezvousDone]

/-! ### Matching -/

@[simp] theorem State.upMtcCtx_pool (s : State) (dev inst : Nat) (f : MtcCtx → MtcCtx) : (s.upMtcCtx dev inst f).pool = s.pool := by
  simp [State.upMtcCtx]

@[simp] theorem State.putMsg_pool (s : State) (m : Msg) : (s.putMsg m).pool = s.pool := by
  simp [State.putMsg]

@[simp] theorem State.dropMsg_pool (s : State) (m : Msg) : (s.dropMsg m).pool = s.pool := by
  simp [State.dropMsg]

@[simp] theorem State.useHeap_pool (s : State) (i : Nat) (f : Nat → Nat) : (s.useHeap i f).pool = s.pool := by
  simp [State.useHeap]

@[simp] theorem State.setHeap_pool (s : State) (m : Msg) (n : Nat) : (s.setHeap m n).2.pool = s.pool := by
  simp [State.setHeap]

@[simp] theorem State.ackMsg_pool (s : State) (m : Msg) : (s.ackMsg m).pool = s.pool := by
  simp only [State.ackMsg]; split <;> simp

@[simp] theorem State.finishEager_pool (s : State) (m : Msg) : (s.finishEager m).pool = s.pool := by
  rw [State.finishEager]; (repeat' split) <;> simp

@[simp] theorem State.takeRendezvous_pool (s : State) (m : Msg) (p : Posted) : (s.takeRendezvous m p).pool = s.pool := by
  rw [State.takeRendezvous]
  dsimp only
  (repeat' split) <;> try simp
  all_goals next h => simp [pool_of_pair h (State.localOk_pool ..)]

@[simp] theorem State.retryRgets_pool (s : State) : s.retryRgets.pool = s.pool := by
  refine foldl_keeps_pool (fun s m => ?_) _ s
  split <;> simp

@[simp] theorem State.storeFull_pool (s : State) (why : Nat) : (s.storeFull why).pool = s.pool := by
  simp only [State.storeFull]; split <;> simp

@[simp] theorem State.refuseMsg_pool (s : State) (r : Req) (dst msn length : Nat) (rendezvous : Bool) :
    (s.refuseMsg r dst msn length rendezvous).pool = s.pool := by
  simp only [State.refuseMsg]; split <;> simp

@[simp] theorem State.endRecv_pool (s : State) (q status : Nat) (d : RecvDesc) : (s.endRecv q status d).pool = s.pool := by
  simp only [State.endRecv]; split <;> simp

/-! ### Collectives -/

@[simp] theorem State.settleGroup_pool (s : State) (gid : Nat) : (s.settleGroup gid).pool = s.pool := by
  rw [State.settleGroup]; (repeat' split) <;> simp

@[simp] theorem State.answerUp_pool (s : State) (gid dev inst sl round : Nat) (own : Option Nat) :
    (s.answerUp gid dev inst sl round own).pool = s.pool := by
  simp [State.answerUp]

@[simp] theorem State.unknownGroup_pool (s : State) : s.unknownGroup.pool = s.pool := by
  simp [State.unknownGroup]

/-! ### Commands and events of faults -/

@[simp] theorem State.forceFault_pool (s : State) (source : Nat) (force : Bool) (subj : Subject) :
    (s.forceFault source force subj).pool = s.pool := by
  simp [State.forceFault, apply_ite State.pool]

@[simp] theorem State.clearFaults_pool (s : State) (p sev : Nat → Bool) : (s.clearFaults p sev).pool = s.pool := by
  simp [State.clearFaults]

@[simp] theorem State.recover_pool (s : State) : s.recover.pool = s.pool := by
  simp only [State.recover]; split <;> simp

@[simp] theorem State.coreFails_pool (s : State) (src core : Nat) : (s.coreFails src core).pool = s.pool := by
  simp only [State.coreFails]; split <;> simp

@[simp] theorem State.lostEntries_pool (s : State) (address : Nat) : (s.lostEntries address).pool = s.pool := by
  simp only [State.lostEntries]; split <;> simp

@[simp] theorem State.lostSystemItem_mem (s : State) (n : Nat) : (s.lostSystemItem n).pool.mem = s.pool.mem := by
  unfold State.lostSystemItem
  (repeat' split) <;> simp

/-! ### Commands and events of the instances -/

@[simp] theorem State.release_pool (s : State) (i : Nat) (a : HostAcc) : (s.release i a).pool = s.pool := by
  simp only [State.release]; split <;> simp

@[simp] theorem State.flushLog_pool (s : State) (i : Nat) (b : Bool) : (s.flushLog i b).pool = s.pool := by
  simp [State.flushLog]

@[simp] theorem State.sendPending_pool (s : State) (i v : Nat) : (s.sendPending i v).pool = s.pool := by
  simp only [State.sendPending]; split <;> simp

/-! ### Commands and events of protection -/

@[simp] theorem State.ruleSwapDone_pool (s : State) (master : Nat) : (s.ruleSwapDone master).pool = s.pool := by
  simp only [State.ruleSwapDone]; split <;> simp

@[simp] theorem State.freshNonce_pool (s : State) : s.freshNonce.2.pool = s.pool := by
  simp [State.freshNonce]

/-! ### Commands and events of observation -/

@[simp] theorem State.snapshot_pool (s : State) (n : Nat) : (s.snapshot n).pool = s.pool := by
  simp [State.snapshot, apply_ite State.pool]

@[simp] theorem State.writeTraces_pool (s : State) : s.writeTraces.pool = s.pool := by
  refine foldl_keeps_pool (fun s e => ?_) _ s
  simp [apply_ite State.pool, foldl_emit_pool]

/-! ### Registers -/

@[simp] theorem State.readLow_pool (s : State) (block offset v : Nat) : (s.readLow block offset v).pool = s.pool := by
  simp [State.readLow]

@[simp] theorem State.strayAccess_pool (s : State) (write : Bool) (index : Nat) : (s.strayAccess write index).pool = s.pool := by
  simp only [State.strayAccess]; split <;> simp

@[simp] theorem State.writeIntStatus_pool (s : State) (block : Nat) (v : Word) : (s.writeIntStatus block v).pool = s.pool := by
  simp only [State.writeIntStatus]; split <;> simp

@[simp] theorem State.writeIntEnable_pool (s : State) (block : Nat) (v : Word) : (s.writeIntEnable block v).pool = s.pool := by
  simp only [State.writeIntEnable]; split <;> simp

@[simp] theorem State.writeArb_pool (s : State) (res n offset : Nat) (v : Word) : (s.writeArb res n offset v).pool = s.pool := by
  rw [State.writeArb]; (repeat' split) <;> simp

@[simp] theorem State.writeQcfg_pool (s : State) (q : Nat) (v : Word) : (s.writeQcfg q v).pool = s.pool := by
  simp only [State.writeQcfg]; split <;> simp

@[simp] theorem State.writeQueueReg_pool (s : State) (q off : Nat) (v : Word) : (s.writeQueueReg q off v).pool = s.pool := by
  simp only [State.writeQueueReg]; (repeat' split) <;> simp

@[simp] theorem State.writeReg_pool (s : State) (block offset : Nat) (v : Word) : (s.writeReg block offset v).pool = s.pool := by
  rw [State.writeReg]; (repeat' split) <;> simp

/-! ### Arbiters -/

@[simp] theorem State.arbCycle_pool (s : State) (key : Nat) (asks : List Ask) : (s.arbCycle key asks).pool = s.pool := by
  simp [State.arbCycle, apply_ite State.pool, foldl_keeps_pool]

@[simp] theorem State.arbitrate_pool (s : State) : s.arbitrate.pool = s.pool := by
  simp [State.arbitrate, foldl_keeps_pool]

/-! ### Clock -/

@[simp] theorem State.takeWaiting_pool (s : State) : s.takeWaiting.pool = s.pool := by
  simp [State.takeWaiting]

@[simp] theorem State.flitSlots_pool (s : State) : s.flitSlots.pool = s.pool := by
  simp [State.flitSlots, foldl_keeps_pool]

@[simp] theorem coreCycle_pool (s : State) : (coreCycle s).pool = s.pool := by
  rw [coreCycle]
  (repeat' split) <;> simp

/-! ### Commands and events of time -/

@[simp] theorem State.synchronise_pool (s : State) : s.synchronise.pool = s.pool := by
  simp only [State.synchronise]; split <;> simp

@[simp] theorem State.askTime_pool (s : State) (p : Nat) : (s.askTime p).pool = s.pool := by
  simp [State.askTime]

@[simp] theorem State.answerTime_pool (s : State) (port exchange : Nat) : (s.answerTime port exchange).pool = s.pool := by
  simp [State.answerTime]

@[simp] theorem State.judgeOffset_pool (s : State) (off2 : ℤ) : (s.judgeOffset off2).pool = s.pool := by
  simp [State.judgeOffset, apply_ite State.pool]

@[simp] theorem State.parentExchange_pool (s : State) (depth : Nat) (off2 : ℤ) : (s.parentExchange depth off2).pool = s.pool := by
  simp only [State.parentExchange]; split <;> simp

@[simp] theorem State.timeAnswer_pool (s : State) (port exchange depth t2 t3 : Nat) :
    (s.timeAnswer port exchange depth t2 t3).pool = s.pool := by
  simp [State.timeAnswer, apply_ite State.pool]

end Sys2Proof.Machine
end

section
/-! SUPPORT. What writes the memory and keeps its form: the three writers, what reaches them, and the operations that run another one. -/
namespace Sys2Proof.Machine

theorem foldl_keeps_wf {α : Type} {g : State → α → State} (hg : ∀ s a, Memory.wf s.pool.mem → Memory.wf (g s a).pool.mem) (l : List α)
    {s : State} (hs : Memory.wf s.pool.mem) : Memory.wf (l.foldl g s).pool.mem := by
  induction l generalizing s with
  | nil => exact hs
  | cons a l ih => exact ih (hg s a hs)

theorem wf_of_pair {α : Type} {p : α × State} {a : α} {t : State} (h : p = (a, t)) (hp : Memory.wf p.2.pool.mem) :
    Memory.wf t.pool.mem := by
  rw [h] at hp; exact hp

/-! ### The three writers of the memory -/

@[simp] theorem State.writeRegion_wf {s : State} (hs : Memory.wf s.pool.mem) (g : RegionP) (offset : Nat) (data : List Nat) :
    Memory.wf (s.writeRegion g offset data).pool.mem := by
  rw [State.writeRegion]
  split
  · simpa using hs
  · exact wf_memWrite _ _ _ hs

@[simp] theorem State.writeExtent_wf {s : State} (hs : Memory.wf s.pool.mem) (h o : Nat) (data : List Nat) :
    Memory.wf (s.writeExtent h o data).pool.mem := by
  rw [State.writeExtent]
  split
  · exact hs
  · dsimp only
    split <;> exact wf_memWrite _ _ _ hs

@[simp] theorem State.localWrite_wf {s : State} (hs : Memory.wf s.pool.mem) (o : OpSlot) (offset : Nat) (data : List Nat) :
    Memory.wf (s.localWrite o offset data).pool.mem := by
  rw [State.localWrite]
  split
  · exact wf_memWrite _ _ _ hs
  · simpa using hs

/-! ### Collectives -/

@[simp] theorem State.writeResult_wf {s : State} (hs : Memory.wf s.pool.mem) (gid m round status combined : Nat) (data : List Nat) :
    Memory.wf (s.writeResult gid m round status combined data).pool.mem := by
  rw [State.writeResult]
  split
  · exact hs
  · split
    · exact hs
    · dsimp only
      split <;> next h =>
        have ht := wf_of_pair h ((State.memberGuard_pool ..).symm ▸ hs)
        (repeat' split) <;> simp [ht]

@[simp] theorem State.writeMembers_wf {s : State} (hs : Memory.wf s.pool.mem) (gid : Nat) (g : Group) (status combined : Nat)
    (values : List Nat) : Memory.wf (s.writeMembers gid g status combined values).pool.mem :=
  foldl_keeps_wf (fun _ _ h => State.writeResult_wf h ..) _ hs

theorem foldl_sendDown_pool (gid : Nat) (g : Group) (combined : Nat) (fenced : Bool) (status : Nat) (values : List Nat)
    (l : List ChildSlot) (s : State) : (l.foldl (fun s c => s.sendDown gid g c combined fenced status values) s).pool = s.pool :=
  foldl_keeps_pool (fun s _ => s.sendDown_pool ..) l s

@[simp] theorem State.endFenced_wf {s : State} (hs : Memory.wf s.pool.mem) (gid combined : Nat) :
    Memory.wf (s.endFenced gid combined).pool.mem := by
  rw [State.endFenced]
  split
  · exact hs
  · simp [foldl_sendDown_pool, hs]

@[simp] theorem State.fenceCollecting_wf {s : State} (hs : Memory.wf s.pool.mem) (gid : Nat) :
    Memory.wf (s.fenceCollecting gid).pool.mem := by
  rw [State.fenceCollecting]
  (repeat' split) <;> simp [hs]

@[simp] theorem State.fenceEffect_wf {s : State} (hs : Memory.wf s.pool.mem) (gid : Nat) : Memory.wf (s.fenceEffect gid).pool.mem := by
  rw [State.fenceEffect]
  (repeat' split) <;> simp [hs]

@[simp] theorem State.fenceSlot_wf {s : State} (hs : Memory.wf s.pool.mem) (gid k : Nat) : Memory.wf (s.fenceSlot gid k).pool.mem := by
  rw [State.fenceSlot]
  (repeat' split) <;> simp [hs]

@[simp] theorem State.fenceMembers_wf {s : State} (hs : Memory.wf s.pool.mem) (i : Nat) : Memory.wf (s.fenceMembers i).pool.mem := by
  refine foldl_keeps_wf (fun s e h => foldl_keeps_wf (fun s m h => ?_) _ h) _ hs
  split <;> simp [h]

@[simp] theorem State.rootRound_wf {s : State} (hs : Memory.wf s.pool.mem) (gid : Nat) (g : Group) :
    Memory.wf (s.rootRound gid g).pool.mem := by
  simp only [State.rootRound]
  split
  · simp [hs]
  · simp [foldl_sendDown_pool, hs]

@[simp] theorem State.rdxProgress_wf {s : State} (hs : Memory.wf s.pool.mem) (gid fuel : Nat) :
    Memory.wf (s.rdxProgress gid fuel).pool.mem := by
  induction fuel generalizing s with
  | zero => exact hs
  | succ fuel ih => simp only [State.rdxProgress]; (repeat' split) <;> simp [hs, ih]

@[simp] theorem State.runGroup_wf {s : State} (hs : Memory.wf s.pool.mem) (gid : Nat) : Memory.wf (s.runGroup gid).pool.mem := by
  simp [State.runGroup, hs]

@[simp] theorem State.arriveFenced_wf {s : State} (hs : Memory.wf s.pool.mem) (gid : Nat) (g : Group) (m : Nat) (x : MemberSlot) :
    Memory.wf (s.arriveFenced gid g m x).pool.mem := by
  simp only [State.arriveFenced]; split <;> simp [hs]

@[simp] theorem State.memberReadFails_wf {s : State} (hs : Memory.wf s.pool.mem) (gid m : Nat) :
    Memory.wf (s.memberReadFails gid m).pool.mem := by
  simp [State.memberReadFails, hs]

@[simp] theorem State.countMember_wf {s : State} (hs : Memory.wf s.pool.mem) (gid m : Nat) (elems : List Elem) :
    Memory.wf (s.countMember gid m elems).pool.mem := by
  simp [State.countMember, hs]

@[simp] theorem State.readMember_wf {s : State} (hs : Memory.wf s.pool.mem) (gid : Nat) (g : Group) (m : Nat) (x : MemberSlot)
    (values : List Nat) (failed poison : Bool) : Memory.wf (s.readMember gid g m x values failed poison).pool.mem := by
  rw [State.readMember]
  split <;> next h =>
    have ht := wf_of_pair h ((State.memberGuard_pool ..).symm ▸ hs)
    (repeat' split) <;> simp [ht]

@[simp] theorem State.takeUp_wf {s : State} (hs : Memory.wf s.pool.mem) (gid : Nat) (g : Group) (c members offset : Nat) (poison : Bool)
    (values : List Nat) : Memory.wf (s.takeUp gid g c members offset poison values).pool.mem := by
  simp [State.takeUp, hs]

@[simp] theorem State.upArrives_wf {s : State} (hs : Memory.wf s.pool.mem) (gid : Nat) (g : Group) (c : Nat) (x : ChildSlot)
    (round members : Nat) (fenced : Bool) (offset : Nat) (poison : Bool) (values : List Nat) :
    Memory.wf (s.upArrives gid g c x round members fenced offset poison values).pool.mem := by
  rw [State.upArrives]; (repeat' split) <;> simp [hs]

@[simp] theorem State.downDone_wf {s : State} (hs : Memory.wf s.pool.mem) (gid combined status : Nat) (values : List Nat) :
    Memory.wf (s.downDone gid combined status values).pool.mem := by
  rw [State.downDone]
  split
  · exact hs
  · dsimp only
    split <;> simp [foldl_sendDown_pool, hs]

@[simp] theorem State.downArrives_wf {s : State} (hs : Memory.wf s.pool.mem) (gid : Nat) (g : Group) (round combined : Nat)
    (fenced : Bool) (status offset : Nat) (values : List Nat) :
    Memory.wf (s.downArrives gid g round combined fenced status offset values).pool.mem := by
  rw [State.downArrives]; dsimp only; (repeat' split) <;> simp [hs]

/-! ### Instances -/

@[simp] theorem State.releaseWork_wf {s : State} (hs : Memory.wf s.pool.mem) (i : Nat) : Memory.wf (s.releaseWork i).pool.mem := by
  simp [State.releaseWork, foldl_keeps_pool, hs]

@[simp] theorem State.containInst_wf {s : State} (hs : Memory.wf s.pool.mem) (i : Nat) : Memory.wf (s.containInst i).pool.mem := by
  simp only [State.containInst]
  (repeat' split) <;> simp [hs]

@[simp] theorem State.genStep_wf {s : State} (hs : Memory.wf s.pool.mem) (i : Nat) : Memory.wf (s.genStep i).pool.mem := by
  simp only [State.genStep]; split <;> simp [hs]

@[simp] theorem State.startReset_wf {s : State} (hs : Memory.wf s.pool.mem) (i : Nat) (squash : Bool) :
    Memory.wf (s.startReset i squash).pool.mem := by
  simp only [State.startReset]; split <;> simp [hs]

@[simp] theorem State.beginDisable_wf {s : State} (hs : Memory.wf s.pool.mem) (i : Nat) : Memory.wf (s.beginDisable i).pool.mem := by
  simp only [State.beginDisable]; (repeat' split) <;> simp [hs]

@[simp] theorem State.flr0_wf {s : State} (hs : Memory.wf s.pool.mem) : Memory.wf s.flr0.pool.mem := by
  simp [State.flr0, hs]

@[simp] theorem State.flr_wf {s : State} (hs : Memory.wf s.pool.mem) (i : Nat) : Memory.wf (s.flr i).pool.mem := by
  simp only [State.flr]; (repeat' split) <;> simp [hs]

@[simp] theorem State.vfReset_wf {s : State} (hs : Memory.wf s.pool.mem) (i : Nat) : Memory.wf (s.vfReset i).pool.mem := by
  simp only [State.vfReset]; split <;> simp [hs]

@[simp] theorem State.endItems_wf {s : State} (hs : Memory.wf s.pool.mem) (i : Nat) : Memory.wf (s.endItems i).pool.mem := by
  simp [State.endItems, hs]

@[simp] theorem State.mgmtEnds_wf {s : State} (hs : Memory.wf s.pool.mem) : Memory.wf s.mgmtEnds.pool.mem := by
  simp only [State.mgmtEnds]; split <;> simp [hs]

/-! ### The directory and the extents -/

@[simp] theorem State.trackAct_wf {s : State} (hs : Memory.wf s.pool.mem) (t : Tracker) : Memory.wf (s.trackAct t).2.pool.mem := by
  simp only [State.trackAct]; (repeat' split) <;> simp [hs]

@[simp] theorem State.trackRun_wf {s : State} (hs : Memory.wf s.pool.mem) (h line fuel : Nat) :
    Memory.wf (s.trackRun h line fuel).pool.mem := by
  induction fuel generalizing s with
  | zero => exact hs
  | succ fuel ih =>
    rw [State.trackRun]
    split
    · exact hs
    · split
      · simp [hs, ih]
      · split
        · exact hs
        · split
          next h => exact wf_of_pair h (State.trackAct_wf hs _)
          next h =>
            have ht := wf_of_pair h (State.trackAct_wf hs _)
            split <;> simp [ih, ht]

@[simp] theorem State.runLine_wf {s : State} (hs : Memory.wf s.pool.mem) (h line : Nat) : Memory.wf (s.runLine h line).pool.mem := by
  simp [State.runLine, hs]

@[simp] theorem State.startRecall_wf {s : State} (hs : Memory.wf s.pool.mem) (handles agents : List Nat) (poison : Bool) :
    Memory.wf (s.startRecall handles agents poison).2.pool.mem := by
  simp only [State.startRecall]
  refine foldl_keeps_wf (fun s k h => by simp [h]) _ ?_
  simp [foldl_keeps_pool, hs]

@[simp] theorem State.poisonExtent_wf {s : State} (hs : Memory.wf s.pool.mem) (h : Nat) : Memory.wf (s.poisonExtent h).pool.mem := by
  rw [State.poisonExtent]
  dsimp only
  rw [foldl_keeps_mem fun s i => by simp, foldl_keeps_mem fun s g => by (repeat' split) <;> simp]
  simp only [apply_ite State.pool, apply_ite Pool.mem, State.settleBind_mem, ite_self]
  (repeat' split) <;> simp [hs]

@[simp] theorem State.surpriseRemoval_wf {s : State} (hs : Memory.wf s.pool.mem) (p : Nat) :
    Memory.wf (s.surpriseRemoval p).pool.mem := by
  rw [State.surpriseRemoval]
  simp only [State.raise_frame, State.emit_pool, State.upDown_mem]
  rw [foldl_keeps_mem fun s f => by (repeat' split) <;> simp]
  exact foldl_keeps_wf (fun s h hs => State.poisonExtent_wf hs h) _ hs

@[simp] theorem State.containPort_wf {s : State} (hs : Memory.wf s.pool.mem) (p : Nat) : Memory.wf (s.containPort p).pool.mem := by
  rw [State.containPort]
  split
  · exact hs
  · have ht : Memory.wf ((s.linkPorts (s.leadPort p)).foldl (fun s q => s.upPort q fun x => { x with contained := true }) s).pool.mem := by
      simpa [foldl_keeps_pool] using hs
    dsimp only
    split
    · simp [ht]
    · split
      · exact foldl_keeps_wf (fun s i h => State.containInst_wf h i) _ (by simp [ht])
      · split <;> simp [ht]

@[simp] theorem State.slotSurprise_wf {s : State} (hs : Memory.wf s.pool.mem) (c : Nat) : Memory.wf (s.slotSurprise c).pool.mem := by
  simp only [State.slotSurprise]; split <;> simp [hs]

@[simp] theorem State.snoopFinal_wf {s : State} (hs : Memory.wf s.pool.mem) (h line a : Nat) :
    Memory.wf (s.snoopFinal h line a).pool.mem := by
  simp [State.snoopFinal, hs]

@[simp] theorem State.endWbWait_wf {s : State} (hs : Memory.wf s.pool.mem) (h line : Nat) (a : Option Nat) :
    Memory.wf (s.endWbWait h line a).pool.mem := by
  unfold State.endWbWait; (repeat' split) <;> simp [hs]

@[simp] theorem State.takeRequest_wf {s : State} (hs : Memory.wf s.pool.mem) (h line : Nat) (k : TrackKind) :
    Memory.wf (s.takeRequest h line k).2.pool.mem := by
  simp only [State.takeRequest]; (repeat' split) <;> simp [hs]

@[simp] theorem State.dirRequest_wf {s : State} (hs : Memory.wf s.pool.mem) (h line : Nat) (who : Option Nat) (k : TrackKind)
    (again : Instr) : Memory.wf (s.dirRequest h line who k again).pool.mem := by
  simp only [State.dirRequest]
  have ht := State.takeRequest_wf (State.endWbWait_wf hs h line who) h line k
  split <;> next hp => simp [wf_of_pair hp ht]

@[simp] theorem State.cohRequest_wf {s : State} (hs : Memory.wf s.pool.mem) (agent : Option Nat) (h line : Nat) (op : CohOp)
    (offset : Nat) (data : List Nat) : Memory.wf (s.cohRequest agent h line op offset data).pool.mem := by
  simp only [State.cohRequest]; (repeat' split) <;> simp [hs]

@[simp] theorem State.uncachedAccess_wf {s : State} (hs : Memory.wf s.pool.mem) (h o n : Nat) (write : Bool) (data : List Nat) :
    Memory.wf (s.uncachedAccess h o n write data).pool.mem :=
  foldl_keeps_wf (fun _ _ hs => State.cohRequest_wf hs ..) _ hs

@[simp] theorem State.localAccess_wf {s : State} (hs : Memory.wf s.pool.mem) (i h o n : Nat) (write posted : Bool) (data : List Nat) :
    Memory.wf (s.localAccess i h o n write posted data).pool.mem := by
  simp only [State.localAccess]; (repeat' split) <;> simp [hs]

@[simp] theorem State.hostAccess_wf {s : State} (hs : Memory.wf s.pool.mem) (i address length : Nat) (write posted cxl : Bool)
    (data : List Nat) (again : Instr) : Memory.wf (s.hostAccess i address length write posted cxl data again).pool.mem := by
  simp only [State.hostAccess]; (repeat' split) <;> simp [hs]

@[simp] theorem State.serveWwrite_wf {s : State} (hs : Memory.wf s.pool.mem) (device inst sl : Nat) (w : WinF) (data : List Nat) :
    Memory.wf (s.serveWwrite device inst sl w data).pool.mem := by
  rw [State.serveWwrite]; (repeat' split) <;> simp [hs]

@[simp] theorem State.writeBack_wf {s : State} (hs : Memory.wf s.pool.mem) (h line a : Nat) (data : List Nat) (forwarded : Bool) :
    Memory.wf (s.writeBack h line a data forwarded).pool.mem := by
  simp [State.writeBack, hs]

@[simp] theorem State.takeWriteback_wf {s : State} (hs : Memory.wf s.pool.mem) (a h line keep : Nat) (data : List Nat) :
    Memory.wf (s.takeWriteback a h line keep data).pool.mem := by
  simp only [State.takeWriteback]; (repeat' split) <;> simp [hs]

@[simp] theorem State.ownerResponse_wf {s : State} (hs : Memory.wf s.pool.mem) (a h line : Nat) (n : Snoop) (form : SnoopForm)
    (data : List Nat) : Memory.wf (s.ownerResponse a h line n form data).pool.mem := by
  rw [State.ownerResponse]; (repeat' split) <;> simp [hs]

@[simp] theorem State.otherResponse_wf {s : State} (hs : Memory.wf s.pool.mem) (a h line : Nat) (form : SnoopForm) :
    Memory.wf (s.otherResponse a h line form).pool.mem := by
  simp only [State.otherResponse]; (repeat' split) <;> simp [hs]

@[simp] theorem State.snoopResponse_wf {s : State} (hs : Memory.wf s.pool.mem) (a h line : Nat) (form : SnoopForm) (data : List Nat) :
    Memory.wf (s.snoopResponse a h line form data).pool.mem := by
  rw [State.snoopResponse]; (repeat' split) <;> simp [hs]

@[simp] theorem State.trackDone_wf {s : State} (hs : Memory.wf s.pool.mem) (h line : Nat) (poison : Bool) :
    Memory.wf (s.trackDone h line poison).pool.mem := by
  simp only [State.trackDone]; (repeat' split) <;> simp [hs]

@[simp] theorem State.lineWritten_wf {s : State} (hs : Memory.wf s.pool.mem) (h line : Nat) :
    Memory.wf (s.lineWritten h line).pool.mem := by
  simp only [State.lineWritten]; (repeat' split) <;> simp [hs]

@[simp] theorem State.recallStep_wf {s : State} (hs : Memory.wf s.pool.mem) (r : Recall) : Memory.wf (s.recallStep r).pool.mem := by
  rw [State.recallStep]
  generalize hfold : List.foldl _ s (List.range r.todo.length) = t
  have ht : Memory.wf t.pool.mem := hfold ▸ foldl_keeps_wf (fun s _ h => by dsimp only; (repeat' split) <;> simp [h]) _ hs
  dsimp only
  (repeat' split) <;> simp [ht]

theorem State.wiped_wf {s : State} (hs : Memory.wf s.pool.mem) (h : Nat) : Memory.wf (s.wiped h).pool.mem := by
  rw [(s.wiped_frame h).2]
  exact wf_memZero _ _ _ hs

theorem wf_ite {c : Prop} [Decidable c] {s t : State} (hs : Memory.wf s.pool.mem) (ht : Memory.wf t.pool.mem) :
    Memory.wf (if c then s else t).pool.mem := by
  split <;> assumption

@[simp] theorem State.zeroed_wf {s : State} (hs : Memory.wf s.pool.mem) (h : Nat) : Memory.wf (s.zeroed h).pool.mem := by
  have hw : Memory.wf (s.wiped h).pool.mem := State.wiped_wf hs h
  refine wf_ite ?_ (wf_ite (t := List.foldl _ ((s.wiped h).upExtent h _) _) ?_ ?_)
  · exact (State.unbindEnds_mem (s.wiped h) h true).symm ▸ hw
  · exact (State.settleBind_mem ((s.wiped h).upExtent h _) h).symm ▸ hw
  · rw [foldl_keeps_mem fun s g => by (repeat' split) <;> simp]
    exact hw

@[simp] theorem State.unbindDrained_wf {s : State} (hs : Memory.wf s.pool.mem) (h : Nat) : Memory.wf (s.unbindDrained h).pool.mem := by
  simp only [State.unbindDrained]
  (repeat' split) <;> simp [hs]

/-! ### Transport -/

@[simp] theorem State.rdxContextLost_wf {s : State} (hs : Memory.wf s.pool.mem) (k : CtxKey) :
    Memory.wf (s.rdxContextLost k).pool.mem := by
  refine foldl_keeps_wf (fun s e h => ?_) _ hs
  dsimp only
  split
  · refine foldl_keeps_wf (fun s c h => ?_) _ h
    (repeat' split) <;> simp [h]
  · split <;> simp [h]

@[simp] theorem State.retryFrom_wf {s : State} (hs : Memory.wf s.pool.mem) (k : CtxKey) (n : Nat) :
    Memory.wf (s.retryFrom k n).pool.mem := by
  rw [State.retryFrom]; (repeat' split) <;> simp [hs]

@[simp] theorem State.rxTnak_wf {s : State} (hs : Memory.wf s.pool.mem) (k : CtxKey) (seq : Nat) (transit : Bool) :
    Memory.wf (s.rxTnak k seq transit).pool.mem := by
  rw [State.rxTnak]; (repeat' split) <;> simp [hs]

@[simp] theorem State.retryExpiry_wf {s : State} (hs : Memory.wf s.pool.mem) (k : CtxKey) : Memory.wf (s.retryExpiry k).pool.mem := by
  rw [State.retryExpiry]; (repeat' split) <;> simp [hs]

@[simp] theorem State.goOn_wf {s : State} (hs : Memory.wf s.pool.mem) (i : Instr) : Memory.wf (s.goOn i).pool.mem := by
  unfold State.goOn; split <;> simp [hs]

@[simp] theorem State.fetchDone_wf {s : State} (hs : Memory.wf s.pool.mem) (k : CtxKey) (half : Nat) :
    Memory.wf (s.fetchDone k half).pool.mem := by
  simp only [State.fetchDone]
  generalize (ite (half = 0) _ _ : Option (List Instr)) = wait
  cases wait with
  | none => exact hs
  | some w =>
    have ht : Memory.wf (w.foldl State.goOn (if half = 0 then (s.upTrn fun t => t.fetched (half == 0, k)).upSend k fun c => { c with fetchWait := [] }
      else (s.upTrn fun t => t.fetched (half == 0, k)).upRecv k fun c => { c with fetchWait := [] })).pool.mem :=
      foldl_keeps_wf (fun s i h => State.goOn_wf h i) _ (by split <;> simp [hs])
    dsimp only
    split <;> simp_all

/-! ### One-sided operations and locks -/

@[simp] theorem State.servePut_wf {s : State} (hs : Memory.wf s.pool.mem) (g : RegionP) (r : Req) (a : Access) (data : List Nat)
    (last : Bool) :

    Memory.wf (s.servePut g r a data last).pool.mem := by
  simp only [State.servePut]; split <;> simp [hs]

@[simp] theorem State.serveAtomic_wf {s : State} (hs : Memory.wf s.pool.mem) (g : RegionP) (r : Req) (a : Access) (aop : Nat) (size16 : Bool)
    (opA opB old : Nat) : Memory.wf (s.serveAtomic g r a aop size16 opA opB old).pool.mem := by
  simp only [State.serveAtomic]; split <;> simp [hs]

@[simp] theorem State.serveWaiter_wf {s : State} (hs : Memory.wf s.pool.mem) (w : LockWait) : Memory.wf (s.serveWaiter w).pool.mem := by
  unfold State.serveWaiter; split <;> simp [hs]

@[simp] theorem State.runWaits_wf {s : State} (hs : Memory.wf s.pool.mem) : Memory.wf s.runWaits.pool.mem := by
  refine foldl_keeps_wf (fun s w h => ?_) _ (by simpa using hs)
  dsimp only
  (repeat' split) <;> simp [h]

@[simp] theorem State.abandonLock_wf {s : State} (hs : Memory.wf s.pool.mem) (i : Nat) : Memory.wf (s.abandonLock i).pool.mem := by
  rw [State.abandonLock]; split <;> simp [hs]

@[simp] theorem State.serveUnlock_wf {s : State} (hs : Memory.wf s.pool.mem) (r : Req) (a : Access) :
    Memory.wf (s.serveUnlock r a).pool.mem := by
  rw [State.serveUnlock]; split <;> simp [hs]

@[simp] theorem State.abandonOwner_wf {s : State} (hs : Memory.wf s.pool.mem) (o : LockOwner) :
    Memory.wf (s.abandonOwner o).pool.mem := by
  simp only [State.abandonOwner]
  split
  · simpa using hs
  · exact foldl_keeps_wf (fun s i h => State.abandonLock_wf h i) _ hs

/-! ### Messages and receives -/

@[simp] theorem State.place_wf {s : State} (hs : Memory.wf s.pool.mem) (p : Posted) (m : Msg) (offset : Nat) (data : List Nat) :
    Memory.wf (s.place p m offset data).pool.mem := by
  simp only [State.place]; split <;> simp [hs]

@[simp] theorem State.takeEager_wf {s : State} (hs : Memory.wf s.pool.mem) (m : Msg) (p : Posted) :
    Memory.wf (s.takeEager m p).pool.mem := by
  have ht : Memory.wf (m.data.foldl (fun s e => s.place p m e.1 e.2) s).pool.mem :=
    foldl_keeps_wf (fun s e h => State.place_wf h ..) _ hs
  simp [State.takeEager, ht]

@[simp] theorem State.takeMsg_wf {s : State} (hs : Memory.wf s.pool.mem) (m : Msg) (p : Posted) : Memory.wf (s.takeMsg m p).pool.mem := by
  rw [State.takeMsg]; split <;> simp [hs]

@[simp] theorem State.postReceive_wf {s : State} (hs : Memory.wf s.pool.mem) (q : Nat) (x : RecvQueue) (d : RecvDesc) :
    Memory.wf (s.postReceive q x d).pool.mem := by
  simp only [State.postReceive]; (repeat' split) <;> simp [hs]

@[simp] theorem State.takeReceive_wf {s : State} (hs : Memory.wf s.pool.mem) (q : Nat) (d : RecvDesc) :
    Memory.wf (s.takeReceive q d).pool.mem := by
  simp only [State.takeReceive]; (repeat' split) <;> simp [hs]

@[simp] theorem State.laterPacket_wf {s : State} (hs : Memory.wf s.pool.mem) (r : Req) (dst context msn offset : Nat) (data : List Nat) :
    Memory.wf (s.laterPacket r dst context msn offset data).pool.mem := by
  simp only [State.laterPacket]; (repeat' split) <;> simp [hs]

@[simp] theorem State.enterMatching_wf {s : State} (hs : Memory.wf s.pool.mem) (m : Msg) : Memory.wf (s.enterMatching m).pool.mem := by
  rw [State.enterMatching]; split <;> simp [hs]

@[simp] theorem State.advance_wf {s : State} (hs : Memory.wf s.pool.mem) (dev inst fuel : Nat) :
    Memory.wf (s.advance dev inst fuel).pool.mem := by
  induction fuel generalizing s with
  | zero => exact hs
  | succ fuel ih => simp only [State.advance]; (repeat' split) <;> simp [hs, ih]

@[simp] theorem State.advanceAll_wf {s : State} (hs : Memory.wf s.pool.mem) (dev inst : Nat) :
    Memory.wf (s.advanceAll dev inst).pool.mem := State.advance_wf hs ..

@[simp] theorem State.passMsn_wf {s : State} (hs : Memory.wf s.pool.mem) (dev inst msn : Nat) :
    Memory.wf (s.passMsn dev inst msn).pool.mem := by
  simp [State.passMsn, hs]

@[simp] theorem State.firstPacket_wf {s : State} (hs : Memory.wf s.pool.mem) (r : Req) (m : Msg) :
    Memory.wf (s.firstPacket r m).pool.mem := by
  simp only [State.firstPacket]; (repeat' split) <;> simp [hs]

/-! ### Power -/

@[simp] theorem State.trip_wf {s : State} (hs : Memory.wf s.pool.mem) (c cause : Nat) : Memory.wf (s.trip c cause).pool.mem := by
  simp only [State.trip]
  split <;> simp [hs]

@[simp] theorem State.presenceGone_wf {s : State} (hs : Memory.wf s.pool.mem) (slot port : Nat) :
    Memory.wf (s.presenceGone slot port).pool.mem := by
  simp only [State.presenceGone]; (repeat' split) <;> simp [hs]

/-! ### Resets: the hub of the pool loses power, and its memory with it -/

theorem State.reboot_wf (s : State) (kind trigger : Nat) : Memory.wf (s.reboot kind trigger).pool.mem := rfl

theorem State.enterBare_wf (s : State) : Memory.wf s.enterBare.pool.mem := rfl

@[simp] theorem State.settleBare_wf {s : State} (hs : Memory.wf s.pool.mem) : Memory.wf s.settleBare.pool.mem := by
  rw [State.settleBare]
  split
  · exact s.enterBare_wf
  · exact hs

@[simp] theorem State.leaveBare_wf (s : State) : Memory.wf s.leaveBare.pool.mem := s.reboot_wf ..

@[simp] theorem State.takeReset_wf {s : State} (hs : Memory.wf s.pool.mem) (kind trigger : Nat) :
    Memory.wf (s.takeReset kind trigger).pool.mem := by
  unfold State.takeReset
  split <;> simp [hs, State.reboot_wf]

@[simp] theorem State.activateNow_wf {s : State} (hs : Memory.wf s.pool.mem) : Memory.wf s.activateNow.pool.mem := by
  rw [State.activateNow]; (repeat' split) <;> simp [hs]

/-! ### The end of a step (R523) -/

@[simp] theorem State.act_wf {s : State} (hs : Memory.wf s.pool.mem) (src sev : Nat) (subj : Subject) :
    Memory.wf (s.act src sev subj).pool.mem := by
  unfold State.act; (repeat' split) <;> simp [hs]

@[simp] theorem State.runActions_wf {s : State} (hs : Memory.wf s.pool.mem) (fuel : Nat) : Memory.wf (s.runActions fuel).pool.mem := by
  induction fuel generalizing s with
  | zero => exact hs
  | succ fuel ih => rw [State.runActions]; (repeat' split) <;> simp [hs, ih]

@[simp] theorem State.actAll_wf {s : State} (hs : Memory.wf s.pool.mem) : Memory.wf s.actAll.pool.mem := by
  simp [State.actAll, hs]

@[simp] theorem State.settle_wf {s : State} (hs : Memory.wf s.pool.mem) : Memory.wf s.settle.pool.mem := by
  have h1 : Memory.wf s.actAll.sendAbandons.actAll.pool.mem := by simp [hs]
  rw [State.settle]
  exact State.settleBare_wf (by simp [h1])

/-! ### What runs an operation -/

theorem State.ring_wf {s : State} {f : State → State} (hs : Memory.wf s.pool.mem)
    (hf : ∀ t, Memory.wf t.pool.mem → Memory.wf (f t).pool.mem) (i : Nat) : Memory.wf (s.ring i f).pool.mem := by
  simp only [State.ring]; (repeat' split) <;> simp [hs, hf]

theorem State.doorbell_wf {s : State} {f : State → State} (hs : Memory.wf s.pool.mem)
    (hf : ∀ t, Memory.wf t.pool.mem → Memory.wf (f t).pool.mem) (i : Instr) : Memory.wf (s.doorbell i f).pool.mem := by
  rw [State.doorbell]; split <;> simp [hs, hf]

theorem State.hostConfig_wf {s : State} {f : State → State} (hs : Memory.wf s.pool.mem)
    (hf : ∀ t, Memory.wf t.pool.mem → Memory.wf (f t).pool.mem) : Memory.wf (s.hostConfig f).pool.mem := by
  simp only [State.hostConfig]; split <;> simp [hs, hf]

theorem State.onRecv_wf {s : State} {f : State → State} (hs : Memory.wf s.pool.mem)
    (hf : ∀ t, Memory.wf t.pool.mem → Memory.wf (f t).pool.mem) (k : CtxKey) (what : Instr) : Memory.wf (s.onRecv k what f).pool.mem := by
  rw [State.onRecv]; (repeat' split) <;> simp [hs, hf]

theorem State.onSend_wf {s : State} {f : State → State} (hs : Memory.wf s.pool.mem)
    (hf : ∀ t, Memory.wf t.pool.mem → Memory.wf (f t).pool.mem) (k : CtxKey) (what : Instr) : Memory.wf (s.onSend k what f).pool.mem := by
  rw [State.onSend]; (repeat' split) <;> simp [hs, hf]

theorem State.startOp_wf {s : State} {f : OpSlot → State → State} (hs : Memory.wf s.pool.mem)
    (hf : ∀ o t, Memory.wf t.pool.mem → Memory.wf (f o t).pool.mem) (q : Nat) (d : Desc) (op : Nat) :
    Memory.wf (s.startOp q d op f).pool.mem := by
  rw [State.startOp]; (repeat' split) <;> simp [hs, hf]

theorem State.behindLock_wf {s : State} {serve : State → State} (hs : Memory.wf s.pool.mem)
    (hf : ∀ t, Memory.wf t.pool.mem → Memory.wf (serve t).pool.mem) (g : RegionP) (r : Req) (a : Access) (what : Instr) :
    Memory.wf (s.behindLock g r a what serve).pool.mem := by
  rw [State.behindLock]; (repeat' split) <;> simp [hs, hf]

theorem State.checked_wf {s : State} {serve : RegionP → State → State} (hs : Memory.wf s.pool.mem)
    (hf : ∀ g t, Memory.wf t.pool.mem → Memory.wf (serve g t).pool.mem) (r : Req) (a : Access) (right kind : Nat) :
    Memory.wf (s.checked r a right kind serve).pool.mem := by
  rw [State.checked]
  split <;> next h => simp [hf, wf_of_pair h ((State.guard_pool ..).symm ▸ hs)]

theorem State.checkedLock_wf {s : State} {serve : RegionP → State → State} (hs : Memory.wf s.pool.mem)
    (hf : ∀ g t, Memory.wf t.pool.mem → Memory.wf (serve g t).pool.mem) (r : Req) (a : Access) :
    Memory.wf (s.checkedLock r a serve).pool.mem := by
  rw [State.checkedLock]; split <;> simp [hs, hf]

theorem State.answered_wf {s : State} {f : OpSlot → State → State} (hs : Memory.wf s.pool.mem)
    (hf : ∀ o t, Memory.wf t.pool.mem → Memory.wf (f o t).pool.mem) (r : Rsp) (ops : List Nat) :
    Memory.wf (s.answered r ops f).pool.mem := by
  rw [State.answered]; (repeat' split) <;> simp [hs, hf]

theorem State.windowDone_wf {s : State} {f : WinReq → State → State} (hs : Memory.wf s.pool.mem)
    (hf : ∀ r t, Memory.wf t.pool.mem → Memory.wf (f r t).pool.mem) (i : Nat) (w : WinF) (write : Option Bool) :
    Memory.wf (s.windowDone i w write f).pool.mem := by
  rw [State.windowDone]; split <;> simp [hs, hf]

/-! ### Answers of commands -/

@[simp] theorem all_refuse_iff {P : State → Prop} {st : Nat} : (HRes.refuse st).All P ↔ True := ⟨fun _ => trivial, fun _ => .refuse⟩

@[simp] theorem all_done_iff {P : State → Prop} {u : State} {st r : Nat} {o : List Nat} : (HRes.done u st r o).All P ↔ P u :=
  ⟨fun h => by cases h; assumption, .done⟩

@[simp] theorem all_pend_iff {P : State → Prop} {u : State} {w : Wait} {o : List Obj} : (HRes.pend u w o).All P ↔ P u :=
  ⟨fun h => by cases h; assumption, .pend⟩

/-- A command whose answer leaves a canonical memory. -/
abbrev HRes.Wf (r : HRes) : Prop := r.All fun u => Memory.wf u.pool.mem

@[simp] theorem wf_refuseIf {l : List (Bool × Nat)} {r : HRes} (h : r.Wf) : (refuseIf l r).Wf := all_refuseIf h

theorem HRes.wf_ite {c : Prop} [Decidable c] {a b : HRes} (ha : a.Wf) (hb : b.Wf) : (if c then a else b).Wf := by
  split <;> assumption

/-- `runHly` keeps the memory canonical where the command's body does. -/
theorem runHly_wf {i : Instr} {code inLen outLen : Nat} {h : HlyHdr} {names : List Obj} {body : State → HRes} {s : State}
    (hs : Memory.wf s.pool.mem) (hb : (body (s.fetchCmd h)).Wf) :
    Memory.wf (runHly i code h inLen outLen names body s).pool.mem := by
  simp only [runHly]
  split
  · exact hs
  · split
    · simpa using hs
    · split
      · simpa [State.sendRemote] using hs
      · cases hr : body (s.fetchCmd h) with
        | refuse st => simpa using hs
        | done u st r o =>
          have hu : Memory.wf u.pool.mem := by simpa [hr] using hb
          dsimp only
          split
          · simpa using hs
          · simpa using hu
        | pend u w o => simpa [hr] using hb

theorem State.changeRes_wf {s : State} (hs : Memory.wf s.pool.mem) : s.changeRes.Wf := by
  rw [State.changeRes]; split <;> simp [hs]

theorem State.beginMode_wf {s : State} (hs : Memory.wf s.pool.mem) (target : Mode) (reefForm : Nat) (force : Bool) :
    (s.beginMode target reefForm force).Wf := by
  unfold State.beginMode
  dsimp only
  split <;> exact State.changeRes_wf (by simp [hs, apply_ite State.pool])

theorem State.recallOrWait_wf {s : State} {over_ : State → State} (hs : Memory.wf s.pool.mem)
    (hf : ∀ t, Memory.wf t.pool.mem → Memory.wf (over_ t).pool.mem) (handles agents : List Nat) (holds : List Obj) :
    (s.recallOrWait handles agents holds over_).Wf := by
  simp only [State.recallOrWait]; split <;> simp [hs, hf]

end Sys2Proof.Machine
end

section
/-! SUPPORT. What the body of each command keeps: its answer leaves a canonical memory. -/
namespace Sys2Proof.Machine

section
variable {s : State} (hs : Memory.wf s.pool.mem)
include hs

/-- What a state taken from the answer of a body's checks holds. -/
theorem wf_of_checks {l : List (Bool × Nat)} {u : State} {st r : Nat} {o : List Nat} (h : refuseIf l (.ok s) = .done u st r o) :
    Memory.wf u.pool.mem := by
  have hr : (refuseIf l (.ok s)).Wf := all_refuseIf (.done hs)
  rw [h] at hr
  simpa using hr

/-! ### Commands and events of the board's queues -/

theorem inbandSetBody_wf (cm : Nat) (accept : Bool) (count : Nat) (serials : List Nat) (timeout retries hold : Nat) :
    (inbandSetBody cm accept count serials timeout retries hold s).Wf := by
  simp [inbandSetBody, hs]

theorem hostLinkSetBody_wf (link cm windowLog2 releaseTimeout : Nat) : (hostLinkSetBody link cm windowLog2 releaseTimeout s).Wf := by
  simp only [hostLinkSetBody]; refine wf_refuseIf ?_; split <;> simp [hs]

/-! ### Commands and events of the link -/

theorem linkSetBody_wf (port cm linkTimeout replayLimit retrainLimit : Nat) (shares : List Nat) :
    (linkSetBody port cm linkTimeout replayLimit retrainLimit shares s).Wf := by
  simp [linkSetBody, hs]

theorem faultInjectBody_wf (port kind n count : Nat) : (faultInjectBody port kind n count s).Wf := by
  simp [faultInjectBody, hs]

/-! ### Commands and events of the transport -/

theorem trnSetBody_wf (cm ackDelay nakDelay retryTimeout retryLimit ctxIdle sendWindow : Nat) :
    (trnSetBody cm ackDelay nakDelay retryTimeout retryLimit ctxIdle sendWindow s).Wf := by
  simp [trnSetBody, hs]

theorem contextPinBody_wf (peer inst cls half : Nat) (pin : Bool) : (contextPinBody peer inst cls half pin s).Wf := by
  simp only [contextPinBody]; (repeat' split) <;> simp [hs]

theorem trnQueryBody_wf (peer inst cls half : Nat) : (trnQueryBody peer inst cls half s).Wf := by
  simp only [trnQueryBody]; (repeat' split) <;> simp [hs]

/-! ### Commands and events of the ports -/

theorem portModeSetBody_wf (port mode width maxRate : Nat) : (portModeSetBody port mode width maxRate s).Wf := by
  simp only [portModeSetBody]; refine wf_refuseIf ?_; (repeat' split) <;> simp [hs, foldl_keeps_pool]

theorem laneSetBody_wf (port cm corrThreshold corrWindow marginFloor : Nat) (autoSpare idleEnable : Bool) (idleEntry trainTimeout : Nat) :
    (laneSetBody port cm corrThreshold corrWindow marginFloor autoSpare idleEnable idleEntry trainTimeout s).Wf := by
  simp [laneSetBody, hs]

theorem laneSpareBody_wf (port action lane : Nat) : (laneSpareBody port action lane s).Wf := by
  simp [laneSpareBody, hs]

theorem laneTestBody_wf (lane function pattern userPattern inject symbols every : Nat) :
    (laneTestBody lane function pattern userPattern inject symbols every s).Wf := by
  simp only [laneTestBody]; refine wf_refuseIf ?_; split <;> simp [hs]

/-! ### Commands and events of power -/

theorem modeSetBody_wf (mode reefForm : Nat) (force : Bool) : (modeSetBody mode reefForm force s).Wf := by
  refine wf_refuseIf ?_
  split
  · simpa using hs
  · split
    · split
      · exact .done (s.leaveBare_wf)
      · exact .refuse
    · exact wf_refuseIf (State.beginMode_wf hs ..)

theorem pwrSetBody_wf (feed cm : Nat) (set : ChanSet) (rearm : Bool) (windowMs wakeGpio sleepIdle powerOffIdle : Nat) :
    (pwrSetBody feed cm set rearm windowMs wakeGpio sleepIdle powerOffIdle s).Wf := by
  simp only [pwrSetBody]; refine wf_refuseIf ?_; split <;> simp [hs]

theorem pwrCaptureBody_wf (action mask channel first count : Nat) : (pwrCaptureBody action mask channel first count s).Wf := by
  simp only [pwrCaptureBody]; refine wf_refuseIf ?_; split <;> simp [hs]

theorem slotSetBody_wf (slot cm : Nat) (enable autoPower pginUse : Bool) (set : ChanSet) :
    (slotSetBody slot cm enable autoPower pginUse set s).Wf := by
  simp only [slotSetBody]; (repeat' split) <;> simp [hs]

theorem slotPowerBody_wf (slot : Nat) (on force : Bool) : (slotPowerBody slot on force s).Wf := by
  simp only [slotPowerBody]; (repeat' split) <;> simp [hs]

/-! ### Commands and events of the boot -/

theorem fwWriteBody_wf (slot offset : Nat) (final : Bool) (data : List Nat) : (fwWriteBody slot offset final data s).Wf := by
  simp [fwWriteBody, hs]

theorem fwActivateBody_wf (slot when_ : Nat) (raiseFloor : Bool) : (fwActivateBody slot when_ raiseFloor s).Wf := by
  simp [fwActivateBody, hs]

theorem fabricLeaveBody_wf (force : Bool) : (fabricLeaveBody force s).Wf := by
  simp [fabricLeaveBody, hs, foldl_keeps_pool]

/-! ### Commands and events of the switch -/

theorem bufferAccountSetBody_wf (account minReserve alphaExp markThreshold : Nat) :
    (bufferAccountSetBody account minReserve alphaExp markThreshold s).Wf := by
  refine wf_refuseIf (.done ?_)
  rwa [foldl_keeps_pool fun s a => State.upAccount_pool ..]

theorem bufferPoolSetBody_wf (contractPool : Nat) : (bufferPoolSetBody contractPool s).Wf := by
  simp [bufferPoolSetBody, hs]

theorem auditSetBody_wf (enable : Bool) (residencyMs : Nat) : (auditSetBody enable residencyMs s).Wf := by
  simp [auditSetBody, hs]

theorem bufferReclaimBody_wf (mode queue : Nat) : (bufferReclaimBody mode queue s).Wf := by
  simp only [bufferReclaimBody]; refine wf_refuseIf ?_; split <;> simp [hs]

theorem egsLeafBindBody_wf (output sl inst queue weight rate burst : Nat) (tokenReset : Bool) :
    (egsLeafBindBody output sl inst queue weight rate burst tokenReset s).Wf := by
  simp [egsLeafBindBody, hs]

theorem egsLeafUnbindBody_wf (queue : Nat) : (egsLeafUnbindBody queue s).Wf := by
  simp only [egsLeafUnbindBody]; (repeat' split) <;> simp [hs]

theorem egsNodeSetBody_wf (target output sl queue cm weight rate burst : Nat) (tokenReset : Bool) :
    (egsNodeSetBody target output sl queue cm weight rate burst tokenReset s).Wf := by
  simp only [egsNodeSetBody]; (repeat' split) <;> simp [hs]

theorem egsQueryBody_wf (target output sl queue : Nat) : (egsQueryBody target output sl queue s).Wf := by
  simp only [egsQueryBody]; refine wf_refuseIf ?_; split <;> simp [hs]

theorem arbSetBody_wf (resource index cm : Nat) (compat : Bool) (thresholdExp requester weight : Nat) :
    (arbSetBody resource index cm compat thresholdExp requester weight s).Wf := by
  simp [arbSetBody, hs, foldl_keeps_pool]

/-! ### Commands and events of admission -/

theorem contractInstallBody_wf (c : ContractP) : (contractInstallBody c s).Wf := by
  simp [contractInstallBody, hs]

theorem contractModifyBody_wf (contractId cm committed peak burst : Nat) (aware : Bool) (bound lateThreshold remoteBudget : Nat) :
    (contractModifyBody contractId cm committed peak burst aware bound lateThreshold remoteBudget s).Wf := by
  rw [contractModifyBody]; (repeat' split) <;> simp [hs]

theorem contractRemoveBody_wf (contractId : Nat) : (contractRemoveBody contractId s).Wf := by
  simp only [contractRemoveBody]; split <;> simp [hs]

theorem hopReserveBody_wf (r : ResvP) : (hopReserveBody r s).Wf := by
  simp only [hopReserveBody]; (repeat' split) <;> simp [hs]

theorem hopReleaseBody_wf (resvId : Nat) : (hopReleaseBody resvId s).Wf := by
  simp only [hopReleaseBody]; (repeat' split) <;> simp [hs]

theorem meterSetBody_wf (inst committed peak committedBurst peakBurst : Nat) :
    (meterSetBody inst committed peak committedBurst peakBurst s).Wf := by
  simp [meterSetBody, hs]

theorem portReserveSetBody_wf (port fraction : Nat) : (portReserveSetBody port fraction s).Wf := by
  simp [portReserveSetBody, hs]

/-! ### Commands and events of routing -/

theorem routeWriteBody_wf (tiles mode table first count : Nat) (masks : List Nat) :
    (routeWriteBody tiles mode table first count masks s).Wf := by
  simp [routeWriteBody, hs, apply_ite State.pool, foldl_keeps_pool]

theorem routeEpochAdvanceBody_wf (epoch : Nat) : (routeEpochAdvanceBody epoch s).Wf := by
  simp only [routeEpochAdvanceBody]; refine wf_refuseIf ?_; split <;> simp [hs]

theorem routeEpochRetireBody_wf : (routeEpochRetireBody s).Wf := by
  simp [routeEpochRetireBody, hs]

theorem routePortSetBody_wf (port kind group member : Nat) (up : Bool) : (routePortSetBody port kind group member up s).Wf := by
  simp [routePortSetBody, hs]

theorem contractRouteSetBody_wf (contractId mode count : Nat) (groups : List Nat) :
    (contractRouteSetBody contractId mode count groups s).Wf := by
  simp only [contractRouteSetBody]; refine wf_refuseIf ?_; split <;> simp [hs]

theorem routeEndpointSetBody_wf (endpoint target destination : Nat) : (routeEndpointSetBody endpoint target destination s).Wf := by
  simp [routeEndpointSetBody, hs]

theorem treeInstallBody_wf (tree : Nat) (valid : Bool) (upstream branches : Nat) (delivery : Delivery) (leaves : List Nat) :
    (treeInstallBody tree valid upstream branches delivery leaves s).Wf := by
  simp only [treeInstallBody]; refine wf_refuseIf ?_; split <;> simp [hs]

theorem treeRemoveBody_wf (tree : Nat) : (treeRemoveBody tree s).Wf := by
  simp only [treeRemoveBody]; (repeat' split) <;> simp [hs]

theorem treeFenceBody_wf (scope tree branch : Nat) : (treeFenceBody scope tree branch s).Wf := by
  simp only [treeFenceBody]; refine wf_refuseIf ?_; split <;> simp [hs]

theorem idAssignBody_wf (deviceId : Nat) (force : Bool) : (idAssignBody deviceId force s).Wf := by
  simp [idAssignBody, hs]

/-! ### Commands and events of the pool -/

theorem poolLinkSetBody_wf (link memInst releaseTimeout : Nat) : (poolLinkSetBody link memInst releaseTimeout s).Wf := by
  simp [poolLinkSetBody, hs]

theorem extentBindBody_wf (b : BindP) : (extentBindBody b s).Wf := by
  refine wf_refuseIf ?_
  have ht : Memory.wf ((List.range b.count).foldl (fun s k => s.bindExtent b k) s).pool.mem := by
    rwa [foldl_keeps_mem fun s k => State.bindExtent_mem ..]
  generalize (List.range b.count).foldl (fun s k => s.bindExtent b k) s = t at ht ⊢
  refine HRes.wf_ite (.pend ?_) (.done ?_) <;> simp [ht, apply_ite State.pool, apply_ite Pool.mem]

theorem extentZeroBody_wf (handle count : Nat) : (extentZeroBody handle count s).Wf := by
  simp [extentZeroBody, hs]

theorem extentUnbindBody_wf (handle count : Nat) (zero : Bool) : (extentUnbindBody handle count zero s).Wf :=
  wf_refuseIf (.pend (by rwa [foldl_keeps_mem fun s h => State.unbindExtent_mem ..]))

theorem importMapBody_wf (m : ImportP) : (importMapBody m s).Wf := by
  simp only [importMapBody]; (repeat' split) <;> simp [hs]

theorem functionBindBody_wf (port routingId link vslot : Nat) : (functionBindBody port routingId link vslot s).Wf := by
  simp [functionBindBody, hs]

theorem functionUnbindBody_wf (port routingId : Nat) : (functionUnbindBody port routingId s).Wf := by
  simp only [functionUnbindBody]; (repeat' split) <;> simp [hs]

theorem slotRemoveBody_wf (port : Nat) : (slotRemoveBody port s).Wf := by
  simp [slotRemoveBody, hs, foldl_keeps_pool]

theorem hbmPartitionSetBody_wf (directory matching heaps : Nat) : (hbmPartitionSetBody directory matching heaps s).Wf := by
  simp [hbmPartitionSetBody, hs]

/-! ### Commands and events of the directory -/

theorem cohAgentAddBody_wf (agent kind port : Nat) : (cohAgentAddBody agent kind port s).Wf := by
  simp [cohAgentAddBody, hs]

theorem cohAgentRemoveBody_wf (agent : Nat) : (cohAgentRemoveBody agent s).Wf :=
  wf_refuseIf (State.recallOrWait_wf (by simpa using hs) (fun t ht => by simpa using ht) ..)

theorem cohWindowCreateBody_wf (window mask : Nat) : (cohWindowCreateBody window mask s).Wf := by
  simp [cohWindowCreateBody, hs]

theorem cohWindowAgentsBody_wf (window mask : Nat) : (cohWindowAgentsBody window mask s).Wf := by
  refine wf_refuseIf ?_
  dsimp only
  split
  · simpa using hs
  · exact State.recallOrWait_wf (by simpa using hs) (fun t ht => ht) ..

theorem cohWindowMapBody_wf (window inst firstSlot : Nat) (map : Bool) : (cohWindowMapBody window inst firstSlot map s).Wf :=
  wf_refuseIf (.done (foldl_keeps_wf (fun s x h => by split <;> simp [h]) _ (by simpa using hs)))

theorem cohWindowDestroyBody_wf (window : Nat) : (cohWindowDestroyBody window s).Wf := by
  simp [cohWindowDestroyBody, hs]

theorem dirSetBody_wf (cm snoopTimeout : Nat) (scrubEnable : Bool) : (dirSetBody cm snoopTimeout scrubEnable s).Wf := by
  simp [dirSetBody, hs]

theorem dirQueryBody_wf (window extentIndex lineIndex : Nat) : (dirQueryBody window extentIndex lineIndex s).Wf := by
  rw [dirQueryBody]
  split
  · exact .refuse
  · next h _ => exact .done (by simpa using wf_of_checks hs h)
  · exact wf_refuseIf (.done hs)

/-! ### Commands and events of the engines -/

theorem queueCreateBody_wf (q : QueueP) : (queueCreateBody q s).Wf := by
  simp [queueCreateBody, hs]

theorem queueDestroyBody_wf (kind queue : Nat) : (queueDestroyBody kind queue s).Wf := by
  simp only [queueDestroyBody]; refine wf_refuseIf ?_; split <;> simp [hs]

theorem queueMoveBody_wf (queue engine : Nat) : (queueMoveBody queue engine s).Wf := by
  rw [queueMoveBody]
  split
  · next h =>
    have := wf_of_checks hs h
    dsimp only
    split <;> simp [this]
  · exact wf_refuseIf (.done hs)

theorem queueRestartBody_wf (kind queue : Nat) : (queueRestartBody kind queue s).Wf := by
  simp only [queueRestartBody]; refine wf_refuseIf ?_; split <;> simp [hs]

theorem regionSetBody_wf (r : RegionP) : (regionSetBody r s).Wf := by
  simp [regionSetBody, hs]

theorem engInstanceSetBody_wf (inst base count heap entries reserve : Nat) :
    (engInstanceSetBody inst base count heap entries reserve s).Wf := by
  simp [engInstanceSetBody, hs]

theorem engSetBody_wf (cm rnrDelay rnrLimit lockAge : Nat) : (engSetBody cm rnrDelay rnrLimit lockAge s).Wf := by
  simp [engSetBody, hs]

/-! ### Collectives -/

theorem collGroupSetBody_wf (p : GroupP) : (collGroupSetBody p s).Wf := by
  simp [collGroupSetBody, hs]

theorem collGroupRemoveBody_wf (gid : Nat) : (collGroupRemoveBody gid s).Wf := by
  simp only [collGroupRemoveBody]; (repeat' split) <;> simp [hs]

theorem collFenceBody_wf (gid target index : Nat) : (collFenceBody gid target index s).Wf := by
  simp only [collFenceBody]; split <;> simp [hs]

/-! ### Commands and events of faults -/

theorem faultSetBody_wf (first count cm severity quietMs vector : Nat) : (faultSetBody first count cm severity quietMs vector s).Wf := by
  simp [faultSetBody, hs]

theorem faultForceBody_wf (source : Nat) (force : Bool) (kind subject : Nat) : (faultForceBody source force kind subject s).Wf := by
  simp [faultForceBody, hs]

theorem faultClearBody_wf (first count : Nat) (sticky : Bool) : (faultClearBody first count sticky s).Wf := by
  simp [faultClearBody, hs]

theorem spareSwapBody_wf (kind unit : Nat) : (spareSwapBody kind unit s).Wf := by
  simp [spareSwapBody, hs]

theorem spareQueryBody_wf (kind : Nat) : (spareQueryBody kind s).Wf := by
  simp only [spareQueryBody]; (repeat' split) <;> simp [hs]

theorem backgroundSetBody_wf (cm hbmPatrolH sramPatrolMs calPeriodMs trendThreshold trendWindowMin auto : Nat) :
    (backgroundSetBody cm hbmPatrolH sramPatrolMs calPeriodMs trendThreshold trendWindowMin auto s).Wf := by
  simp [backgroundSetBody, hs]

/-! ### Commands and events of the instances -/

theorem instanceCreateBody_wf (inst link function resetMode drainTimeout vectors : Nat) :
    (instanceCreateBody inst link function resetMode drainTimeout vectors s).Wf := by
  simp [instanceCreateBody, hs]

theorem instanceSetBody_wf (inst cm resetMode drainTimeout vectors : Nat) :
    (instanceSetBody inst cm resetMode drainTimeout vectors s).Wf := by
  simp [instanceSetBody, hs]

theorem instanceResetBody_wf (inst form : Nat) : (instanceResetBody inst form s).Wf := by
  simp [instanceResetBody, hs]

theorem instanceDisableBody_wf (inst : Nat) : (instanceDisableBody inst s).Wf := by
  simp [instanceDisableBody, hs]

theorem dirtyLogSetBody_wf (inst : Nat) (enable : Bool) (baseA baseB rangeBase rangePages : Nat) (inFunction : Bool) :
    (dirtyLogSetBody inst enable baseA baseB rangeBase rangePages inFunction s).Wf := by
  simp only [dirtyLogSetBody]; (repeat' split) <;> simp [hs]

theorem dirtyLogSwapBody_wf (inst : Nat) : (dirtyLogSwapBody inst s).Wf := by
  simp [dirtyLogSwapBody, hs]

/-! ### Commands and events of protection -/

theorem mpuRulesSetBody_wf (master set first count : Nat) (entries : List MpuRegion) :
    (mpuRulesSetBody master set first count entries s).Wf := by
  simp [mpuRulesSetBody, hs]

theorem mpuSwapBody_wf (master : Nat) : (mpuSwapBody master s).Wf := by
  simp [mpuSwapBody, hs, foldl_keeps_pool]

theorem debugUnlockBody_wf (action serial nonce : Nat) (signatureOk : Bool) : (debugUnlockBody action serial nonce signatureOk s).Wf := by
  simp only [debugUnlockBody]; refine wf_refuseIf ?_; split <;> simp [hs]

theorem icuSetBody_wf (target first count priority coreMask threshold : Nat) :
    (icuSetBody target first count priority coreMask threshold s).Wf := by
  simp [icuSetBody, hs]

/-! ### Commands and events of observation -/

theorem ttcSetBody_wf (block counter event samplePeriod : Nat) : (ttcSetBody block counter event samplePeriod s).Wf := by
  simp [ttcSetBody, hs]

theorem dumpSetBody_wf (stream cm intervalMs ringBase slots vector : Nat) (inMemory : Bool) :
    (dumpSetBody stream cm intervalMs ringBase slots vector inMemory s).Wf := by
  simp [dumpSetBody, hs]

theorem mtrSetBody_wf (action inst : Nat) : (mtrSetBody action inst s).Wf := by
  simp [mtrSetBody, hs]

theorem probeSetBody_wf (probe bridge action source destination kindMask matchAddr mask records : Nat) :
    (probeSetBody probe bridge action source destination kindMask matchAddr mask records s).Wf := by
  simp [probeSetBody, hs]

/-! ### Commands and events of time -/

theorem ftuSetBody_wf (cm : Nat) (grandmaster : Bool) (parentPort syncPeriod : Nat) (ppsIn ppsOut : Bool) :
    (ftuSetBody cm grandmaster parentPort syncPeriod ppsIn ppsOut s).Wf := by
  simp only [ftuSetBody]; (repeat' split) <;> simp [hs]

end

end Sys2Proof.Machine
end

section
/-! SUPPORT. What the meaning of an instruction leaves. -/
namespace Sys2Proof.Machine

/-- A meaning that leaves a canonical memory in the state it answers. -/
structure LeavesWf (o : Host.Outcome State Fault Refusal) : Prop where
  wf_of_next : ∀ t, o = .next t → Memory.wf t.pool.mem

theorem leavesWf_ends {u : State} (hu : Memory.wf u.pool.mem) : LeavesWf (ends u) := by
  constructor
  intro t ht
  have h : u.settle = t := Host.Outcome.next.inj ht
  exact h ▸ State.settle_wf hu

theorem leavesWf_hly {s : State} (hs : Memory.wf s.pool.mem) {i : Instr} {code inLen outLen : Nat} {h : HlyHdr} {names : List Obj}
    {body : State → HRes} (hb : ∀ {u : State}, Memory.wf u.pool.mem → (body u).Wf) :
    LeavesWf (ends (runHly i code h inLen outLen names body s)) :=
  leavesWf_ends (runHly_wf hs (hb (by simpa using hs)))

end Sys2Proof.Machine
end

section
/-! SUPPORT. What each event keeps, and each command whose meaning has no body of its own. -/
namespace Sys2Proof.Machine

section
variable {s : State} (hs : Memory.wf s.pool.mem)
include hs

/-! ### Commands and events of the board's queues -/

theorem execNop_wf (h : HlyHdr) : LeavesWf (execNop h s) :=
  leavesWf_hly hs fun h => by simp [h]

theorem execDeviceQuery_wf (h : HlyHdr) : LeavesWf (execDeviceQuery h s) :=
  leavesWf_hly hs fun h => by simp [h]

theorem execHlyCommandProducerWrite_wf (q index : Nat) : LeavesWf (execHlyCommandProducerWrite q index s) :=
  leavesWf_ends (State.doorbell_wf (by simpa using hs) (fun t ht => by split <;> simp [ht]) _)

theorem execHlyReplyConsumerWrite_wf (q index : Nat) : LeavesWf (execHlyReplyConsumerWrite q index s) :=
  leavesWf_ends (State.doorbell_wf (by simpa using hs) (fun t ht => by split <;> simp [ht]) _)

theorem execHlyQueueEnable_wf (q : Nat) : LeavesWf (execHlyQueueEnable q s) :=
  leavesWf_ends (by split <;> simp [hs])

theorem execHlyQueueDisable_wf (q : Nat) : LeavesWf (execHlyQueueDisable q s) :=
  leavesWf_ends (by split <;> simp [hs])

theorem execHlyCmdReceive_wf (origin : Origin) (queue seq segIndex segCount attempt : Nat) (directed : Bool) (retPorts : List Nat) :
    LeavesWf (execHlyCmdReceive origin queue seq segIndex segCount attempt directed retPorts s) :=
  leavesWf_ends (by split <;> simp [hs])

theorem execHlyReplyReceive_wf (queue seq segIndex segCount attempt status result : Nat) (deviceValid : Bool) (device : Nat)
    (out : List Nat) :
    LeavesWf (execHlyReplyReceive queue seq segIndex segCount attempt status result deviceValid device out s) :=
  leavesWf_ends (by simp [hs, apply_ite State.pool])

theorem execInbandTimeout_wf (queue seq : Nat) : LeavesWf (execInbandTimeout queue seq s) :=
  leavesWf_ends (by simp [hs])

theorem execReassemblyTimeout_wf (serial queue seq : Nat) : LeavesWf (execReassemblyTimeout serial queue seq s) :=
  leavesWf_ends (by simp [hs])

theorem execInbandHoldExpiry_wf (serial queue seq : Nat) : LeavesWf (execInbandHoldExpiry serial queue seq s) :=
  leavesWf_ends (by simp [hs])

theorem execBoardChannelRequest_wf (code inputLength : Nat) : LeavesWf (execBoardChannelRequest code inputLength s) :=
  leavesWf_ends (by split <;> simp [hs])

theorem execMctpControlMessage_wf (command : Nat) : LeavesWf (execMctpControlMessage command s) :=
  leavesWf_ends (by simp [hs])

theorem execManagementFirmwareFault_wf (source : CmdSrc) (seq : Nat) : LeavesWf (execManagementFirmwareFault source seq s) :=
  leavesWf_ends (by simp [hs])

/-! ### Commands and events of the link -/

theorem execLinkQuery_wf (h : HlyHdr) (port : Nat) : LeavesWf (execLinkQuery h port s) :=
  leavesWf_hly hs fun h => by simp [h]

theorem execLinkFrameReceive_wf (port : Nat) (sync : BitVec 16) (head : BitVec 128) (pid : Nat) (bytes : List Nat)
    (frameCrc : BitVec 32) (marked : Bool) (lost : Nat) :
    LeavesWf (execLinkFrameReceive port sync head pid bytes frameCrc marked lost s) :=
  leavesWf_ends (by simp [hs])

theorem execLinkControlFlitReceive_wf (port : Nat) (flit : BitVec 512) (sync : BitVec 16) :
    LeavesWf (execLinkControlFlitReceive port flit sync s) :=
  leavesWf_ends (by simp [hs])

theorem execReplayTimeout_wf (port : Nat) : LeavesWf (execReplayTimeout port s) :=
  leavesWf_ends (by simp [hs])

theorem execRetrainLimitExpiry_wf (port : Nat) : LeavesWf (execRetrainLimitExpiry port s) :=
  leavesWf_ends (by split <;> simp [hs])

theorem execLinkInitFlitTimer_wf (port : Nat) : LeavesWf (execLinkInitFlitTimer port s) :=
  leavesWf_ends (by split <;> simp [hs])

theorem execPortDisableDrainTimeout_wf (port : Nat) : LeavesWf (execPortDisableDrainTimeout port s) :=
  leavesWf_ends (by split <;> simp [hs])

/-! ### Commands and events of the transport -/

theorem execTransportDataReceive_wf (p : Packet) (check : BitVec 64) (ticketUsed : Bool) :
    LeavesWf (execTransportDataReceive p check ticketUsed s) :=
  leavesWf_ends (by simp [hs])

theorem execTopenReceive_wf (peer inst cls initialSeq sl : Nat) : LeavesWf (execTopenReceive peer inst cls initialSeq sl s) :=
  leavesWf_ends (by simp [hs])

theorem execTcloseReceive_wf (peer inst cls nextSeq sl : Nat) : LeavesWf (execTcloseReceive peer inst cls nextSeq sl s) :=
  leavesWf_ends (State.onRecv_wf hs (fun t ht => by simp [ht]) ..)

theorem execCtxIdleExpiry_wf (peer inst cls : Nat) : LeavesWf (execCtxIdleExpiry peer inst cls s) :=
  leavesWf_ends (State.onSend_wf hs (fun t ht => by simp [ht]) ..)

theorem execTackReceive_wf (peer inst cls ackSeq : Nat) (openAck openRefused closeAck : Bool) (lates : List Nat)
    (marks ticketsReturned ticketsGranted : Nat) :
    LeavesWf (execTackReceive peer inst cls ackSeq openAck openRefused closeAck lates marks ticketsReturned ticketsGranted s) :=
  leavesWf_ends (State.onSend_wf hs (fun t ht => by simp [ht]) ..)

theorem execTnakReceive_wf (peer inst cls seq : Nat) (transit : Bool) (reason : Nat) :
    LeavesWf (execTnakReceive peer inst cls seq transit reason s) := by
  refine leavesWf_ends ?_
  split
  · exact hs
  · exact State.onSend_wf hs (fun t ht => by simp [ht]) ..

theorem execAckDelayExpiry_wf (peer inst cls : Nat) : LeavesWf (execAckDelayExpiry peer inst cls s) :=
  leavesWf_ends (State.onRecv_wf hs (fun t ht => by simp [ht]) ..)

theorem execNakDelayExpiry_wf (peer inst cls : Nat) : LeavesWf (execNakDelayExpiry peer inst cls s) :=
  leavesWf_ends (State.onRecv_wf hs (fun t ht => by simp [ht]) ..)

theorem execRetryTimeout_wf (peer inst cls : Nat) : LeavesWf (execRetryTimeout peer inst cls s) :=
  leavesWf_ends (State.onSend_wf hs (fun t ht => by simp [ht]) ..)

theorem execContextFetchDone_wf (peer inst cls half : Nat) : LeavesWf (execContextFetchDone peer inst cls half s) :=
  leavesWf_ends (by simp [hs])

theorem execFlaggedLateSend_wf (peer inst cls : Nat) : LeavesWf (execFlaggedLateSend peer inst cls s) :=
  leavesWf_ends (by simp [hs])

theorem execMcAckReceive_wf (port tree srcDevice inst op delivered fenced : Nat) :
    LeavesWf (execMcAckReceive port tree srcDevice inst op delivered fenced s) :=
  leavesWf_ends (by simp [hs])

/-! ### Commands and events of the ports -/

theorem execLaneQuery_wf (h : HlyHdr) (port : Nat) : LeavesWf (execLaneQuery h port s) :=
  leavesWf_hly hs fun h => by simp [h]

theorem execLossOfSignal_wf (lane : Nat) : LeavesWf (execLossOfSignal lane s) :=
  leavesWf_ends (by split <;> simp [hs])

theorem execLossOfLock_wf (lane : Nat) : LeavesWf (execLossOfLock lane s) :=
  leavesWf_ends (by simp [hs])

theorem execCodewordLockLoss_wf (port : Nat) : LeavesWf (execCodewordLockLoss port s) :=
  leavesWf_ends (by simp [hs])

theorem execCorrWindowEnd_wf (lane corrected : Nat) : LeavesWf (execCorrWindowEnd lane corrected s) :=
  leavesWf_ends (by split <;> simp [hs])

theorem execMarginReport_wf (lane margin : Nat) : LeavesWf (execMarginReport lane margin s) :=
  leavesWf_ends (by (repeat' split) <;> simp [hs])

theorem execWearFlag_wf (lane : Nat) : LeavesWf (execWearFlag lane s) :=
  leavesWf_ends (by simp [hs])

theorem execTrainDetectSignal_wf (lane : Nat) : LeavesWf (execTrainDetectSignal lane s) :=
  leavesWf_ends (by split <;> simp [hs])

theorem execTrainingSequenceReceive_wf (lane : Nat) (seq : TrainSeq) : LeavesWf (execTrainingSequenceReceive lane seq s) :=
  leavesWf_ends (by simp [hs])

theorem execEqualiseTimeout_wf (port : Nat) : LeavesWf (execEqualiseTimeout port s) :=
  leavesWf_ends (by (repeat' split) <;> simp [hs])

theorem execLockAchieved_wf (port : Nat) (skews : List Nat) : LeavesWf (execLockAchieved port skews s) :=
  leavesWf_ends (by simp [hs, apply_ite State.pool])

theorem execTrainTimeout_wf (port : Nat) : LeavesWf (execTrainTimeout port s) :=
  leavesWf_ends (by split <;> simp [hs])

theorem execBackoffElapsed_wf (port : Nat) : LeavesWf (execBackoffElapsed port s) :=
  leavesWf_ends (by split <;> simp [hs])

theorem execIdleEntryExpiry_wf (port : Nat) : LeavesWf (execIdleEntryExpiry port s) :=
  leavesWf_ends (by split <;> simp [hs])

theorem execFastExit_wf (port : Nat) : LeavesWf (execFastExit port s) :=
  leavesWf_ends (by simp [hs])

theorem execFastExitLockTimeout_wf (port : Nat) : LeavesWf (execFastExitLockTimeout port s) :=
  leavesWf_ends (by split <;> simp [hs])

theorem execIdleEnter_wf (port : Nat) (msg : BitVec 64) : LeavesWf (execIdleEnter port msg s) :=
  leavesWf_ends (by split <;> simp [hs])

theorem execSubReq_wf (port : Nat) (msg : BitVec 64) : LeavesWf (execSubReq port msg s) :=
  leavesWf_ends (by split <;> simp [hs])

theorem execSubAck_wf (port : Nat) (msg : BitVec 64) : LeavesWf (execSubAck port msg s) :=
  leavesWf_ends (by (repeat' split) <;> simp [hs])

theorem execSubCompareDone_wf (port differing : Nat) : LeavesWf (execSubCompareDone port differing s) :=
  leavesWf_ends (by (repeat' split) <;> simp [hs])

theorem execSubDone_wf (port : Nat) (msg : BitVec 64) : LeavesWf (execSubDone port msg s) :=
  leavesWf_ends (by (repeat' split) <;> simp [hs])

theorem execSubAbort_wf (port : Nat) (msg : BitVec 64) : LeavesWf (execSubAbort port msg s) :=
  leavesWf_ends (by (repeat' split) <;> simp [hs])

theorem execStepMsg_wf (port : Nat) (msg : BitVec 64) : LeavesWf (execStepMsg port msg s) :=
  leavesWf_ends (by (repeat' split) <;> simp [hs])

theorem execStepAck_wf (port : Nat) (msg : BitVec 64) : LeavesWf (execStepAck port msg s) :=
  leavesWf_ends (by split <;> simp [hs])

theorem execRateStepComplete_wf (port : Nat) : LeavesWf (execRateStepComplete port s) :=
  leavesWf_ends (by (repeat' split) <;> simp [hs])

theorem execRateStepTimeout_wf (port : Nat) : LeavesWf (execRateStepTimeout port s) :=
  leavesWf_ends (by split <;> simp [hs])

theorem execWake_wf (port : Nat) (msg : BitVec 64) : LeavesWf (execWake port msg s) :=
  leavesWf_ends (by split <;> simp [hs])

theorem execTestReq_wf (port : Nat) (msg : BitVec 64) : LeavesWf (execTestReq port msg s) :=
  leavesWf_ends (by split <;> simp [hs])

theorem execTestAck_wf (port : Nat) (msg : BitVec 64) : LeavesWf (execTestAck port msg s) :=
  leavesWf_ends (by split <;> simp [hs])

theorem execPrbsCheckerLock_wf (lane : Nat) : LeavesWf (execPrbsCheckerLock lane s) :=
  leavesWf_ends (by simp [hs])

theorem execPrbsLockLoss_wf (lane : Nat) : LeavesWf (execPrbsLockLoss lane s) :=
  leavesWf_ends (by split <;> simp [hs])

theorem execViralReceived_wf (port : Nat) : LeavesWf (execViralReceived port s) :=
  leavesWf_ends (by split <;> simp [hs])

/-! ### Commands and events of power -/

theorem execStormJibDrained_wf : LeavesWf (execStormJibDrained s) :=
  leavesWf_ends (by (repeat' split) <;> simp [hs])

theorem execStormJibWake_wf (cause : Nat) : LeavesWf (execStormJibWake cause s) :=
  leavesWf_ends (by simp [hs])

theorem execBarePolesCommandTimeout_wf : LeavesWf (execBarePolesCommandTimeout s) :=
  leavesWf_ends (by (repeat' split) <;> simp [hs, foldl_keeps_pool])

theorem execWakeGpio_wf : LeavesWf (execWakeGpio s) :=
  leavesWf_ends (by (repeat' split) <;> simp [hs])

theorem execPwrQuery_wf (h : HlyHdr) (channel : Nat) : LeavesWf (execPwrQuery h channel s) :=
  leavesWf_hly hs fun h => by split <;> simp [h]

theorem execSlotQuery_wf (h : HlyHdr) (slot : Nat) : LeavesWf (execSlotQuery h slot s) :=
  leavesWf_hly hs fun h => by split <;> simp [h]

theorem execFeedWindowEnter_wf (feed voltage : Nat) : LeavesWf (execFeedWindowEnter feed voltage s) :=
  leavesWf_ends (by split <;> simp [hs])

theorem execFeedWindowExit_wf (feed voltage : Nat) : LeavesWf (execFeedWindowExit feed voltage s) :=
  leavesWf_ends (by simp [hs, apply_ite State.pool])

theorem execInsertionDelayElapsed_wf (feed : Nat) : LeavesWf (execInsertionDelayElapsed feed s) :=
  leavesWf_ends (by split <;> simp [hs])

theorem execReverseCurrent_wf (feed : Nat) : LeavesWf (execReverseCurrent feed s) :=
  leavesWf_ends (by split <;> simp [hs])

theorem execReverseRecovery_wf (feed : Nat) : LeavesWf (execReverseRecovery feed s) :=
  leavesWf_ends (by split <;> simp [hs])

theorem execFeedBelow5v_wf (feed : Nat) : LeavesWf (execFeedBelow5v feed s) :=
  leavesWf_ends (by simp [hs, apply_ite State.pool])

theorem execThermalTrip_wf (sensor : Nat) : LeavesWf (execThermalTrip sensor s) :=
  leavesWf_ends (by simp [hs])

theorem execTemperatureReading_wf (sensor : Nat) (celsius : ℤ) : LeavesWf (execTemperatureReading sensor celsius s) :=
  leavesWf_ends (by split <;> simp [hs])

theorem execRampComplete_wf (channel : Nat) : LeavesWf (execRampComplete channel s) :=
  leavesWf_ends (by split <;> simp [hs])

theorem execQualificationDone_wf (channel : Nat) (pgin : Bool) : LeavesWf (execQualificationDone channel pgin s) :=
  leavesWf_ends (by dsimp only; (repeat' split) <;> simp [hs])

theorem execCurrentOverLimit_wf (channel current : Nat) : LeavesWf (execCurrentOverLimit channel current s) :=
  leavesWf_ends (by split <;> simp [hs])

theorem execCurrentBelowRecovery_wf (channel current : Nat) : LeavesWf (execCurrentBelowRecovery channel current s) :=
  leavesWf_ends (by split <;> simp [hs])

theorem execFaultTimerTrip_wf (channel : Nat) : LeavesWf (execFaultTimerTrip channel s) :=
  leavesWf_ends (by split <;> simp [hs])

theorem execFastTrip_wf (channel : Nat) (withEnergy : Bool) : LeavesWf (execFastTrip channel withEnergy s) :=
  leavesWf_ends (by split <;> simp [hs])

theorem execEnergyBudgetTrip_wf (channel : Nat) : LeavesWf (execEnergyBudgetTrip channel s) :=
  leavesWf_ends (by split <;> simp [hs])

theorem execRampTimeout_wf (channel : Nat) : LeavesWf (execRampTimeout channel s) :=
  leavesWf_ends (by split <;> simp [hs])

theorem execCoolDownElapsed_wf (channel : Nat) : LeavesWf (execCoolDownElapsed channel s) :=
  leavesWf_ends (by split <;> simp [hs])

theorem execAttemptCountReset_wf (channel : Nat) : LeavesWf (execAttemptCountReset channel s) :=
  leavesWf_ends (by split <;> simp [hs])

theorem execPresenceDebounced_wf (slot : Nat) : LeavesWf (execPresenceDebounced slot s) :=
  leavesWf_ends (by split <;> simp [hs])

theorem execPresenceLost_wf (slot port : Nat) (linkDown : Bool) : LeavesWf (execPresenceLost slot port linkDown s) :=
  leavesWf_ends (by dsimp only; (repeat' split) <;> simp [hs, foldl_keeps_pool])

theorem execPginFall_wf (slot : Nat) : LeavesWf (execPginFall slot s) :=
  leavesWf_ends (by (repeat' split) <;> simp [hs])

theorem execMeasurementWindowEnd_wf (channel vPeak vMin iPeak iMin pMean energy : Nat) :
    LeavesWf (execMeasurementWindowEnd channel vPeak vMin iPeak iMin pMean energy s) :=
  leavesWf_ends (by split <;> simp [hs])

theorem execCaptureRecord_wf (channel voltage current power cause : Nat) :
    LeavesWf (execCaptureRecord channel voltage current power cause s) :=
  leavesWf_ends (by split <;> simp [hs])

theorem execContinuousCaptureEnd_wf (channel : Nat) : LeavesWf (execContinuousCaptureEnd channel s) :=
  leavesWf_ends (by split <;> simp [hs])

theorem execSleepIdleExpiry_wf (domain : Nat) : LeavesWf (execSleepIdleExpiry domain s) :=
  leavesWf_ends (by split <;> simp [hs])

theorem execPowerOffIdleExpiry_wf (domain : Nat) : LeavesWf (execPowerOffIdleExpiry domain s) :=
  leavesWf_ends (by split <;> simp [hs])

theorem execDomainOffDone_wf (domain : Nat) : LeavesWf (execDomainOffDone domain s) :=
  leavesWf_ends (by split <;> simp [hs])

theorem execDomainPacketArrival_wf (domain : Nat) (p : Packet) : LeavesWf (execDomainPacketArrival domain p s) :=
  leavesWf_ends (by (repeat' split) <;> simp [hs])

theorem execDomainWakeDone_wf (domain : Nat) : LeavesWf (execDomainWakeDone domain s) := by
  refine leavesWf_ends ?_
  split
  · exact hs
  · simp [hs, foldl_emit_pool]

theorem execDomainWakeTimeout_wf (domain : Nat) : LeavesWf (execDomainWakeTimeout domain s) :=
  leavesWf_ends (by split <;> simp [hs])

/-! ### Commands and events of the boot -/

theorem execDeviceReset_wf (h : HlyHdr) (kind : Nat) : LeavesWf (execDeviceReset h kind s) :=
  leavesWf_hly hs fun h => by split <;> simp [h]

theorem execDeviceResetEffect_wf : LeavesWf (execDeviceResetEffect s) :=
  leavesWf_ends (by (repeat' split) <;> simp [hs])

theorem execColdReset_wf (insdly : Nat) (straps : MgmtStraps) (calibFailed baselines : List Nat) :
    LeavesWf (execColdReset insdly straps calibFailed baselines s) := by
  refine leavesWf_ends ?_
  split
  · exact hs
  · simp [State.reboot_wf]

omit hs in
theorem execVauxLoss_wf : LeavesWf (execVauxLoss s) :=
  leavesWf_ends (s.reboot_wf 0 5)

theorem execVaux33Rise_wf (insdly smbaddr ppssel flash : Nat) : LeavesWf (execVaux33Rise insdly smbaddr ppssel flash s) :=
  leavesWf_ends (by split <;> simp [hs])

theorem execWarmReset_wf (trigger : Nat) : LeavesWf (execWarmReset trigger s) := by
  refine leavesWf_ends ?_
  have ht : Memory.wf (if s.pwr.mode = .barePoles || s.pwr.lost then s else s.reboot 2 trigger).pool.mem := by
    split
    · exact hs
    · exact s.reboot_wf 2 trigger
  split <;> simpa using ht

theorem execManagementComplexReset_wf (trigger : Nat) : LeavesWf (execManagementComplexReset trigger s) :=
  leavesWf_ends (by split <;> simp [hs])

theorem execFwActivate_wf (h : HlyHdr) (slot when_ : Nat) (raiseFloor : Bool) : LeavesWf (execFwActivate h slot when_ raiseFloor s) := by
  have ht : Memory.wf (runHly (.fwActivate h slot when_ raiseFloor) 0x0F02 h 0 0 [] (fwActivateBody slot when_ raiseFloor) s).pool.mem :=
    runHly_wf hs (fwActivateBody_wf (by simpa using hs) ..)
  refine leavesWf_ends ?_
  split
  · exact State.activateNow_wf ht
  · exact ht

theorem execImageCheckDone_wf (slot : Nat) (ok : Bool) (version fwVersion : Nat) :
    LeavesWf (execImageCheckDone slot ok version fwVersion s) :=
  leavesWf_ends (by simp [hs, apply_ite State.pool])

theorem execBootReady_wf : LeavesWf (execBootReady s) :=
  leavesWf_ends (by dsimp only; (repeat' split) <;> simp [hs])

theorem execPerst0Deassertion_wf : LeavesWf (execPerst0Deassertion s) :=
  leavesWf_ends (by split <;> simp [hs])

theorem execJtagInstructionUpdate_wf (instruction : Nat) : LeavesWf (execJtagInstructionUpdate instruction s) :=
  leavesWf_ends (by simp [hs])

/-! ### Commands and events of the switch -/

theorem execBufferQuery_wf (h : HlyHdr) (account : Nat) : LeavesWf (execBufferQuery h account s) :=
  leavesWf_hly hs fun h => by simp [h]

theorem execAuditPassEnd_wf : LeavesWf (execAuditPassEnd s) :=
  leavesWf_ends (by simp [hs])

theorem execLeafDrained_wf (queue : Nat) : LeavesWf (execLeafDrained queue s) :=
  leavesWf_ends (by (repeat' split) <;> simp [hs])

theorem execArbQuery_wf (h : HlyHdr) (resource index : Nat) : LeavesWf (execArbQuery h resource index s) :=
  leavesWf_hly hs fun h => by simp [h]

theorem execArbStarveThreshold_wf (resource index requester : Nat) (grantedNow : Bool) :
    LeavesWf (execArbStarveThreshold resource index requester grantedNow s) :=
  leavesWf_ends (by (repeat' split) <;> simp [hs])

theorem execPacketIngress_wf (input : Nat) (p : Packet) (length rxVl : Nat) (preYellow firstOfOp : Bool) :
    LeavesWf (execPacketIngress input p length rxVl preYellow firstOfOp s) :=
  leavesWf_ends (by (repeat' split) <;> simp [hs])

theorem execRouteRetry_wf (pid : Nat) : LeavesWf (execRouteRetry pid s) :=
  leavesWf_ends (by split <;> simp [hs])

theorem execBufferAdmission_wf (pid : Nat) : LeavesWf (execBufferAdmission pid s) :=
  leavesWf_ends (by split <;> simp [hs])

theorem execEgressSelect_wf (output : Nat) : LeavesWf (execEgressSelect output s) :=
  leavesWf_ends (by split <;> simp [hs])

theorem execFramePreempt_wf (output pid progress : Nat) : LeavesWf (execFramePreempt output pid progress s) :=
  leavesWf_ends (by split <;> simp [hs])

theorem execSuspendedFrameResume_wf (output vl : Nat) : LeavesWf (execSuspendedFrameResume output vl s) :=
  leavesWf_ends (by (repeat' split) <;> simp [hs])

theorem execCentralSchedulerMatching_wf (stagedFirst stagedNext : List Nat) :
    LeavesWf (execCentralSchedulerMatching stagedFirst stagedNext s) :=
  leavesWf_ends (by split <;> simp [hs])

theorem execEdgeWaitRelease_wf (pid : Nat) : LeavesWf (execEdgeWaitRelease pid s) :=
  leavesWf_ends (by simp [hs])

/-! ### Commands and events of admission -/

theorem execContractQuery_wf (h : HlyHdr) (contractId : Nat) : LeavesWf (execContractQuery h contractId s) :=
  leavesWf_hly hs fun h => by split <;> simp [h]

theorem execHopReleaseDrained_wf (resvId : Nat) : LeavesWf (execHopReleaseDrained resvId s) :=
  leavesWf_ends (by (repeat' split) <;> simp [hs])

theorem execHopReleaseTimeout_wf (resvId : Nat) : LeavesWf (execHopReleaseTimeout resvId s) :=
  leavesWf_ends (by (repeat' split) <;> simp [hs])

/-! ### Commands and events of routing -/

theorem execRoutePolicySet_wf (h : HlyHdr) (sl mode bias : Nat) : LeavesWf (execRoutePolicySet h sl mode bias s) :=
  leavesWf_hly hs fun h => by simp [h]

theorem execTreeDrained_wf (tree : Nat) : LeavesWf (execTreeDrained tree s) :=
  leavesWf_ends (by (repeat' split) <;> simp [hs])

theorem execHoldSet_wf (h : HlyHdr) (quota : Nat) : LeavesWf (execHoldSet h quota s) :=
  leavesWf_hly hs fun h => by simp [h]

theorem execDiscover_wf (h : HlyHdr) : LeavesWf (execDiscover h s) :=
  leavesWf_hly hs fun h => by simp [h]

theorem execDirectedReceive_wf (port hopCount hopPtr : Nat) (ports : RoutePorts) (message : List Nat) :
    LeavesWf (execDirectedReceive port hopCount hopPtr ports message s) :=
  leavesWf_ends (by simp [hs, apply_ite State.pool])

theorem execNeighbourReceive_wf (port serial neighbourPort : Nat) : LeavesWf (execNeighbourReceive port serial neighbourPort s) :=
  leavesWf_ends (by simp [hs, apply_ite State.pool])

/-! ### Commands and events of the pool -/

theorem execZeroingComplete_wf (handle : Nat) : LeavesWf (execZeroingComplete handle s) :=
  leavesWf_ends (by split <;> simp [hs])

theorem execDynamicCapacityRelease_wf (release : CapacityRelease) : LeavesWf (execDynamicCapacityRelease release s) :=
  leavesWf_ends (by (repeat' split) <;> simp [hs])

theorem execDynamicCapacityAddReject_wf (handle : Nat) : LeavesWf (execDynamicCapacityAddReject handle s) :=
  leavesWf_ends (by (repeat' split) <;> simp [hs, foldl_keeps_pool])

theorem execUnbindDrainComplete_wf (handle : Nat) : LeavesWf (execUnbindDrainComplete handle s) :=
  leavesWf_ends (by (repeat' split) <;> simp [hs])

theorem execExtentQuery_wf (h : HlyHdr) (handle count : Nat) : LeavesWf (execExtentQuery h handle count s) :=
  leavesWf_hly hs fun h => by simp [h]

theorem execVirtualSlotPowerOff_wf (link vslot : Nat) : LeavesWf (execVirtualSlotPowerOff link vslot s) :=
  leavesWf_ends (by split <;> simp [hs])

theorem execReleaseTimeoutExpiry_wf (handle : Nat) (isFunction : Bool) (port routingId : Nat) :
    LeavesWf (execReleaseTimeoutExpiry handle isFunction port routingId s) :=
  leavesWf_ends (by (repeat' split) <;> simp [hs])

theorem execFunctionResetComplete_wf (port routingId : Nat) : LeavesWf (execFunctionResetComplete port routingId s) :=
  leavesWf_ends (by (repeat' split) <;> simp [hs])

theorem execExpanderEnumerated_wf (port serial : Nat) (isExpander : Bool) (capacity : Nat) (further functions : List Nat) :
    LeavesWf (execExpanderEnumerated port serial isExpander capacity further functions s) :=
  leavesWf_ends (by split <;> simp [hs])

theorem execPcieLinkTrained_wf (port rate width : Nat) (cxlOffered flit256 : Bool) :
    LeavesWf (execPcieLinkTrained port rate width cxlOffered flit256 s) :=
  leavesWf_ends (by (repeat' split) <;> simp [hs, foldl_keeps_pool])

/-! ### Commands and events of the directory -/

theorem execCoherentRequest_wf (agent : Option Nat) (handle lineIndex : Nat) (op : CohOp) (offset : Nat) (data : List Nat) :
    LeavesWf (execCoherentRequest agent handle lineIndex op offset data s) :=
  leavesWf_ends (by split <;> simp [hs])

theorem execEvictionNotice_wf (agent handle lineIndex : Nat) : LeavesWf (execEvictionNotice agent handle lineIndex s) :=
  leavesWf_ends (by (repeat' split) <;> simp [hs])

theorem execCoherentWriteback_wf (agent handle lineIndex keep : Nat) (data : List Nat) :
    LeavesWf (execCoherentWriteback agent handle lineIndex keep data s) :=
  leavesWf_ends (by (repeat' split) <;> simp [hs])

theorem execMemoryWriteDone_wf (handle lineIndex : Nat) : LeavesWf (execMemoryWriteDone handle lineIndex s) :=
  leavesWf_ends (by split <;> simp [hs])

theorem execDirectoryReadDone_wf (handle lineIndex : Nat) (poison : Bool) : LeavesWf (execDirectoryReadDone handle lineIndex poison s) :=
  leavesWf_ends (by split <;> simp [hs])

theorem execSnoopResponseReceive_wf (agent handle lineIndex : Nat) (form : SnoopForm) (data : List Nat) :
    LeavesWf (execSnoopResponseReceive agent handle lineIndex form data s) :=
  leavesWf_ends (by split <;> simp [hs])

theorem execBiconflictReceive_wf (agent handle lineIndex : Nat) : LeavesWf (execBiconflictReceive agent handle lineIndex s) :=
  leavesWf_ends (by split <;> simp [hs])

theorem execSnoopTimeoutExpiry_wf (agent handle lineIndex : Nat) : LeavesWf (execSnoopTimeoutExpiry agent handle lineIndex s) :=
  leavesWf_ends (by split <;> simp [hs])

theorem execRecallComplete_wf (recallId : Nat) : LeavesWf (execRecallComplete recallId s) :=
  leavesWf_ends (by split <;> simp [hs])

/-! ### Accesses of the hosts -/

theorem execHostMemoryAccess_wf (inst address length : Nat) (write cxl : Bool) (data : List Nat) :
    LeavesWf (execHostMemoryAccess inst address length write cxl data s) :=
  leavesWf_ends (by (repeat' split) <;> simp [hs])

theorem execHostWindowStore_wf (inst address length : Nat) (posted : Bool) (data : List Nat) :
    LeavesWf (execHostWindowStore inst address length posted data s) :=
  leavesWf_ends (by (repeat' split) <;> simp [hs])

theorem execWreadArrival_wf (srcDevice srcInst sl : Nat) (w : WinF) : LeavesWf (execWreadArrival srcDevice srcInst sl w s) :=
  leavesWf_ends (by split <;> simp [hs])

theorem execWwriteArrival_wf (srcDevice srcInst sl : Nat) (w : WinF) (data : List Nat) :
    LeavesWf (execWwriteArrival srcDevice srcInst sl w data s) :=
  leavesWf_ends (by split <;> simp [hs])

theorem execWreadDataArrival_wf (inst : Nat) (w : WinF) (data : List Nat) : LeavesWf (execWreadDataArrival inst w data s) := by
  refine leavesWf_ends ?_
  split
  · exact State.windowDone_wf hs (fun r t ht => by split <;> simp [ht]) ..
  · exact hs

theorem execWwriteDoneArrival_wf (inst : Nat) (w : WinF) : LeavesWf (execWwriteDoneArrival inst w s) := by
  refine leavesWf_ends ?_
  split
  · exact State.windowDone_wf hs (fun r t ht => by exact ht) ..
  · exact hs

theorem execWerrorArrival_wf (inst : Nat) (w : WinF) (reason : Nat) : LeavesWf (execWerrorArrival inst w reason s) := by
  refine leavesWf_ends ?_
  split
  · exact State.windowDone_wf hs (fun r t ht => by split <;> simp [ht]) ..
  · exact hs

/-! ### Commands and events of the engines -/

theorem execQueueMoveForwardDone_wf (queue : Nat) : LeavesWf (execQueueMoveForwardDone queue s) :=
  leavesWf_ends (by split <;> simp [hs])

theorem execLockBreak_wf (h : HlyHdr) (index : Nat) : LeavesWf (execLockBreak h index s) :=
  leavesWf_hly hs fun h => by simp [h]

theorem execEngQuery_wf (h : HlyHdr) (kind index : Nat) : LeavesWf (execEngQuery h kind index s) :=
  leavesWf_hly hs fun h => by simp [h]

theorem execDoorbellSend_wf (inst queue index : Nat) : LeavesWf (execDoorbellSend inst queue index s) :=
  leavesWf_ends (State.ring_wf hs (fun t ht => by simp [ht]) _)

theorem execDoorbellReceive_wf (inst queue index : Nat) : LeavesWf (execDoorbellReceive inst queue index s) :=
  leavesWf_ends (State.ring_wf hs (fun t ht => by simp [ht]) _)

theorem execDoorbellCompletion_wf (inst queue index : Nat) : LeavesWf (execDoorbellCompletion inst queue index s) :=
  leavesWf_ends (State.ring_wf hs (fun t ht => by simp [ht]) _)

theorem execDoorbellCompletionArm_wf (inst queue index : Nat) : LeavesWf (execDoorbellCompletionArm inst queue index s) :=
  leavesWf_ends (State.ring_wf hs (fun t ht => by simp [ht]) _)

/-! ### Operations of the engines -/

theorem execDescriptorFetch_wf (queue bits : Nat) (readOk : Bool) : LeavesWf (execDescriptorFetch queue bits readOk s) :=
  leavesWf_ends (by simp [hs])

theorem execTriggerFire_wf (engine : Nat) : LeavesWf (execTriggerFire engine s) :=
  leavesWf_ends (by simp [hs])

theorem execPut_wf (queue : Nat) (d : Desc) : LeavesWf (execPut queue d s) :=
  leavesWf_ends (State.startOp_wf hs (fun o t ht => by simp [ht]) ..)

theorem execGet_wf (queue : Nat) (d : Desc) : LeavesWf (execGet queue d s) :=
  leavesWf_ends (State.startOp_wf hs (fun o t ht => by rwa [State.withLocal_pool fun u => by simp]) ..)

theorem execAtomic_wf (queue : Nat) (d : Desc) : LeavesWf (execAtomic queue d s) :=
  leavesWf_ends (State.startOp_wf hs (fun o t ht => by simp [ht]) ..)

theorem execSend_wf (queue : Nat) (d : Desc) : LeavesWf (execSend queue d s) :=
  leavesWf_ends (State.startOp_wf hs (fun o t ht => by simp [ht]) ..)

theorem execLock_wf (queue : Nat) (d : Desc) : LeavesWf (execLock queue d s) :=
  leavesWf_ends (State.startOp_wf hs (fun o t ht => by simp [ht]) ..)

theorem execUnlock_wf (queue : Nat) (d : Desc) : LeavesWf (execUnlock queue d s) :=
  leavesWf_ends (State.startOp_wf hs (fun o t ht => by simp [ht]) ..)

theorem execCounterAdd_wf (queue : Nat) (d : Desc) : LeavesWf (execCounterAdd queue d s) :=
  leavesWf_ends (State.startOp_wf hs (fun o t ht => by split <;> simp [ht]) ..)

theorem execCounterSet_wf (queue : Nat) (d : Desc) : LeavesWf (execCounterSet queue d s) :=
  leavesWf_ends (State.startOp_wf hs (fun o t ht => by split <;> simp [ht]) ..)

theorem execDescNop_wf (queue : Nat) (d : Desc) : LeavesWf (execDescNop queue d s) :=
  leavesWf_ends (State.startOp_wf hs (fun o t ht => by simpa using ht) ..)

theorem execRnrDelayExpiry_wf (opTag : Nat) : LeavesWf (execRnrDelayExpiry opTag s) :=
  leavesWf_ends (by (repeat' split) <;> simp [hs])

theorem execLockAgeExpiry_wf (index : Nat) : LeavesWf (execLockAgeExpiry index s) :=
  leavesWf_ends (by (repeat' split) <;> simp [hs])

/-! ### Arrivals at the engines -/

theorem execPutArrival_wf (r : Req) (a : Access) (data : List Nat) (last : Bool) : LeavesWf (execPutArrival r a data last s) := by
  refine leavesWf_ends ?_
  split
  · exact hs
  · split
    · next h => simp [wf_of_pair h ((State.guard_pool ..).symm ▸ hs)]
    · next h =>
      have ht := wf_of_pair h ((State.guard_pool ..).symm ▸ hs)
      split
      · simp [ht]
      · split
        · simp [ht]
        · exact State.behindLock_wf (by simpa using ht) (fun u hu => by simp [hu]) ..

theorem execGetArrival_wf (r : Req) (a : Access) (poison : Bool) : LeavesWf (execGetArrival r a poison s) := by
  refine leavesWf_ends ?_
  split
  · exact hs
  · exact State.checked_wf hs (fun g t ht => State.behindLock_wf ht (fun u hu => by simp [hu]) ..) ..

theorem execAtomicArrival_wf (r : Req) (a : Access) (aop : Nat) (size16 : Bool) (opA opB old : Nat) :
    LeavesWf (execAtomicArrival r a aop size16 opA opB old s) := by
  refine leavesWf_ends ?_
  split
  · exact hs
  · exact State.checked_wf hs (fun g t ht => State.behindLock_wf ht (fun u hu => by simp [hu]) ..) ..

theorem execLockArrival_wf (r : Req) (a : Access) (wait : Bool) : LeavesWf (execLockArrival r a wait s) := by
  refine leavesWf_ends ?_
  split
  · exact hs
  · exact State.checkedLock_wf hs (fun g t ht => by simp [ht]) ..

theorem execUnlockArrival_wf (r : Req) (a : Access) : LeavesWf (execUnlockArrival r a s) := by
  refine leavesWf_ends ?_
  split
  · exact hs
  · exact State.checkedLock_wf hs (fun g t ht => by simp [ht]) ..

theorem execLockAbandonArrival_wf (r : Req) (queue : Nat) : LeavesWf (execLockAbandonArrival r queue s) :=
  leavesWf_ends (by split <;> simp [hs])

theorem execHostReadCompletion_wf (tag : Nat) (values : List Nat) (error poison : Bool) :
    LeavesWf (execHostReadCompletion tag values error poison s) :=
  leavesWf_ends (by simp [hs])

theorem execHostCompletionTimeout_wf (tag : Nat) : LeavesWf (execHostCompletionTimeout tag s) :=
  leavesWf_ends (by simp [hs])

theorem execPutAckArrival_wf (r : Rsp) : LeavesWf (execPutAckArrival r s) :=
  leavesWf_ends (State.answered_wf hs (fun o t ht => by simp [ht]) ..)

theorem execGetDataArrival_wf (r : Rsp) (data : List Nat) : LeavesWf (execGetDataArrival r data s) :=
  leavesWf_ends (State.answered_wf hs (fun o t ht => by dsimp only; split <;> simp [ht]) ..)

theorem execAtomicResultArrival_wf (r : Rsp) (old : Nat) : LeavesWf (execAtomicResultArrival r old s) :=
  leavesWf_ends (State.answered_wf hs (fun o t ht => by simp [ht]) ..)

theorem execLockResultArrival_wf (r : Rsp) (lockIndex srcDevice : Nat) : LeavesWf (execLockResultArrival r lockIndex srcDevice s) := by
  refine leavesWf_ends (State.answered_wf hs (fun o t ht => ?_) ..)
  dsimp only
  (repeat' split) <;> simp [ht]

theorem execSendAckArrival_wf (r : Rsp) : LeavesWf (execSendAckArrival r s) :=
  leavesWf_ends (State.answered_wf hs (fun o t ht => by simp [ht]) ..)

theorem execSendRnrArrival_wf (r : Rsp) : LeavesWf (execSendRnrArrival r s) :=
  leavesWf_ends (State.answered_wf hs (fun o t ht => by simp [ht]) ..)

theorem execRdoneArrival_wf (r : Rsp) (bytes : Nat) : LeavesWf (execRdoneArrival r bytes s) :=
  leavesWf_ends (State.answered_wf hs (fun o t ht => by simp [ht]) ..)

theorem execEngErrorArrival_wf (r : Rsp) : LeavesWf (execEngErrorArrival r s) :=
  leavesWf_ends (by (repeat' split) <;> simp [hs])

theorem execRgetArrival_wf (r : Req) (rvTag rvGen offset length : Nat) : LeavesWf (execRgetArrival r rvTag rvGen offset length s) :=
  leavesWf_ends (by split <;> simp [hs])

theorem execRgetDataArrival_wf (r : Rsp) (data : List Nat) : LeavesWf (execRgetDataArrival r data s) :=
  leavesWf_ends (by (repeat' split) <;> simp [hs])

/-! ### Matching -/

theorem execSendEagerArrival_wf (r : Req) (dstInst context msn msgOffset matchBits msgLength : Nat) (data : List Nat) :
    LeavesWf (execSendEagerArrival r dstInst context msn msgOffset matchBits msgLength data s) := by
  refine leavesWf_ends ?_
  split
  · exact hs
  · split
    · simp [hs]
    · exact State.firstPacket_wf hs ..

theorem execSendRtsArrival_wf (r : Req) (dstInst context msn matchBits msgLength : Nat) :
    LeavesWf (execSendRtsArrival r dstInst context msn matchBits msgLength s) :=
  leavesWf_ends (by split <;> simp [hs])

theorem execReceiveTake_wf (queue bits : Nat) : LeavesWf (execReceiveTake queue bits s) :=
  leavesWf_ends (by simp [hs])

/-! ### Collectives -/

theorem execGroupDrained_wf (group : Nat) : LeavesWf (execGroupDrained group s) :=
  leavesWf_ends (by simp [hs])

theorem execCollQuery_wf (h : HlyHdr) (group : Nat) : LeavesWf (execCollQuery h group s) :=
  leavesWf_hly hs fun h => by split <;> simp [h]

theorem execMemberArrival_wf (group member : Nat) (values : List Nat) (failed poison : Bool) :
    LeavesWf (execMemberArrival group member values failed poison s) :=
  leavesWf_ends (by (repeat' split) <;> simp [hs])

theorem execRdxUpArrival_wf (group srcDevice srcInst sl round members : Nat) (fenced arrival : Bool) (elementOffset : Nat)
    (poison : Bool) (values : List Nat) :
    LeavesWf (execRdxUpArrival group srcDevice srcInst sl round members fenced arrival elementOffset poison values s) :=
  leavesWf_ends (by (repeat' split) <;> simp [hs])

theorem execRdxDownArrival_wf (group round combined : Nat) (fenced : Bool) (status elementOffset : Nat) (values : List Nat) :
    LeavesWf (execRdxDownArrival group round combined fenced status elementOffset values s) :=
  leavesWf_ends (by (repeat' split) <;> simp [hs])

/-! ### Commands and events of faults -/

theorem execFaultQuery_wf (h : HlyHdr) (first count : Nat) : LeavesWf (execFaultQuery h first count s) :=
  leavesWf_hly hs fun h => by split <;> simp [h]

theorem execQuietPeriodExpiry_wf : LeavesWf (execQuietPeriodExpiry s) :=
  leavesWf_ends (by simp [hs])

theorem execTrendFire_wf (kind unit : Nat) : LeavesWf (execTrendFire kind unit s) :=
  leavesWf_ends (by split <;> simp [hs])

theorem execSpareSwapComplete_wf (kind unit : Nat) : LeavesWf (execSpareSwapComplete kind unit s) :=
  leavesWf_ends (by simp [hs])

theorem execSramUncorrectableError_wf (row : Nat) : LeavesWf (execSramUncorrectableError row s) :=
  leavesWf_ends (by simp [hs])

theorem execEngineDuplicateFail_wf (engine : Nat) : LeavesWf (execEngineDuplicateFail engine s) :=
  leavesWf_ends (by split <;> simp [hs])

theorem execManagementCoreWatchdog_wf (core : Nat) : LeavesWf (execManagementCoreWatchdog core s) :=
  leavesWf_ends (by simp [hs])

theorem execManagementCoreFailure_wf (core : Nat) : LeavesWf (execManagementCoreFailure core s) :=
  leavesWf_ends (by simp [hs])

theorem execDirectoryBankFailure_wf (bank : Nat) : LeavesWf (execDirectoryBankFailure bank s) :=
  leavesWf_ends (by split <;> simp [hs])

theorem execRouteBankFailure_wf (tile bank : Nat) : LeavesWf (execRouteBankFailure tile bank s) :=
  leavesWf_ends (by split <;> simp [hs])

theorem execPseudoChannelFailure_wf (channel : Nat) : LeavesWf (execPseudoChannelFailure channel s) :=
  leavesWf_ends (by split <;> simp [hs])

theorem execAgeingMonitorFlag_wf (kind unit : Nat) : LeavesWf (execAgeingMonitorFlag kind unit s) :=
  leavesWf_ends (by split <;> simp [hs])

theorem execHbmUncorrectableError_wf (address owner : Nat) (patrol : Bool) :
    LeavesWf (execHbmUncorrectableError address owner patrol s) :=
  leavesWf_ends (by split <;> simp [hs])

theorem execDatapathError_wf : LeavesWf (execDatapathError s) :=
  leavesWf_ends (by simp [hs])

theorem execShroudBridgeTimeout_wf (bridge : Nat) : LeavesWf (execShroudBridgeTimeout bridge s) :=
  leavesWf_ends (by simp [hs])

theorem execCalPeriod_wf : LeavesWf (execCalPeriod s) :=
  leavesWf_ends (by split <;> simp [hs])

/-! ### Commands and events of the instances -/

theorem execResetDrainComplete_wf (inst : Nat) : LeavesWf (execResetDrainComplete inst s) :=
  leavesWf_ends (by split <;> simp [hs])

theorem execDrainTimeoutExpiry_wf (inst : Nat) : LeavesWf (execDrainTimeoutExpiry inst s) :=
  leavesWf_ends (by split <;> simp [hs])

theorem execGenerationWaitExpiry_wf (inst : Nat) : LeavesWf (execGenerationWaitExpiry inst s) :=
  leavesWf_ends (by split <;> simp [hs])

theorem execResetItemsDone_wf (inst : Nat) : LeavesWf (execResetItemsDone inst s) :=
  leavesWf_ends (by split <;> simp [hs])

theorem execResetForceExpiry_wf (inst : Nat) : LeavesWf (execResetForceExpiry inst s) :=
  leavesWf_ends (by dsimp only; (repeat' split) <;> simp [hs])

theorem execFunctionLevelReset_wf (inst : Nat) : LeavesWf (execFunctionLevelReset inst s) := by
  refine leavesWf_ends ?_
  split
  · exact hs
  · exact State.hostConfig_wf hs fun t ht => by simp [ht]

theorem execVfEnableClear_wf (link : Nat) : LeavesWf (execVfEnableClear link s) :=
  leavesWf_ends (State.hostConfig_wf hs fun t ht => by
    split
    · exact ht
    · exact foldl_keeps_wf (fun u i hu => by simp [hu]) _ (by simpa using ht))

theorem execVfEnableSet_wf (link numVfs : Nat) : LeavesWf (execVfEnableSet link numVfs s) :=
  leavesWf_ends (State.hostConfig_wf hs fun t ht => by
    split
    · exact ht
    · exact foldl_keeps_wf (fun u i hu => by simpa using hu) _ (by simpa using ht))

theorem execBusMasterEnableClear_wf (inst : Nat) : LeavesWf (execBusMasterEnableClear inst s) :=
  leavesWf_ends (State.hostConfig_wf hs fun t ht => by split <;> simp [ht])

theorem execBusMasterEnableSet_wf (inst : Nat) : LeavesWf (execBusMasterEnableSet inst s) :=
  leavesWf_ends (State.hostConfig_wf hs fun t ht => by
    dsimp only
    split
    · exact foldl_keeps_wf (fun u a hu => by simp [hu]) _ (by simpa using ht)
    · exact ht)

theorem execLogSwapWritebackDone_wf (inst : Nat) : LeavesWf (execLogSwapWritebackDone inst s) :=
  leavesWf_ends (by (repeat' split) <;> simp [hs])

theorem execInstanceQuery_wf (h : HlyHdr) (inst : Nat) : LeavesWf (execInstanceQuery h inst s) :=
  leavesWf_hly hs fun h => by simp [h]

theorem execMsixUnmask_wf (inst vector : Nat) (wholeFunction : Bool) : LeavesWf (execMsixUnmask inst vector wholeFunction s) :=
  leavesWf_ends (State.hostConfig_wf hs fun t ht => by
    dsimp only
    split
    · exact ht
    · split
      · exact foldl_keeps_wf (fun u v hu => by simpa using hu) _ ht
      · simpa using ht)

/-! ### Commands and events of protection -/

theorem execMpuSwapCommit_wf (master : Nat) : LeavesWf (execMpuSwapCommit master s) :=
  leavesWf_ends (by split <;> simp [hs])

theorem execMpuSwapRetire_wf (master : Nat) : LeavesWf (execMpuSwapRetire master s) :=
  leavesWf_ends (by simp [hs, apply_ite State.pool])

theorem execMpuQuery_wf (h : HlyHdr) (master : Nat) : LeavesWf (execMpuQuery h master s) :=
  leavesWf_hly hs fun h => by split <;> simp [h]

theorem execMpuViolPop_wf (value : Word) : LeavesWf (execMpuViolPop value s) :=
  leavesWf_ends (by split <;> simp [hs])

theorem execIcuQuery_wf (h : HlyHdr) (first count : Nat) : LeavesWf (execIcuQuery h first count s) :=
  leavesWf_hly hs fun h => by simp [h]

theorem execIcuClaimRead_wf (core : Nat) (viaBar0 : Bool) : LeavesWf (execIcuClaimRead core viaBar0 s) :=
  leavesWf_ends (by (repeat' split) <;> simp [hs])

theorem execIcuCompleteWrite_wf (core source : Nat) (viaBar0 : Bool) : LeavesWf (execIcuCompleteWrite core source viaBar0 s) :=
  leavesWf_ends (by (repeat' split) <;> simp [hs])

theorem execIcuSwiWrite_wf (value : Word) : LeavesWf (execIcuSwiWrite value s) :=
  leavesWf_ends (by simp [hs, foldl_keeps_pool])

/-! ### Commands and events of observation -/

theorem execCounterAccumulate_wf : LeavesWf (execCounterAccumulate s) :=
  leavesWf_ends (by split <;> simp [hs])

theorem execSampleCountdownZero_wf (engine counter programCounter : Nat) :
    LeavesWf (execSampleCountdownZero engine counter programCounter s) :=
  leavesWf_ends (by split <;> simp [hs])

theorem execDumpInterval_wf (stream : Nat) (freed : List Nat) : LeavesWf (execDumpInterval stream freed s) :=
  leavesWf_ends (by split <;> simp [hs])

theorem execDumpSlotWritten_wf (stream : Nat) (freed : List Nat) : LeavesWf (execDumpSlotWritten stream freed s) :=
  leavesWf_ends (by split <;> simp [hs])

theorem execMeteringSlotWaitTimeout_wf (inst : Nat) : LeavesWf (execMeteringSlotWaitTimeout inst s) :=
  leavesWf_ends (by split <;> simp [hs])

theorem execProbeMatch_wf (bridge source destination kind address length : Nat) (direction : Bool) :
    LeavesWf (execProbeMatch bridge source destination kind address length direction s) :=
  leavesWf_ends (by simp [hs])

theorem execTraceRecordTimeout_wf (probe : Nat) : LeavesWf (execTraceRecordTimeout probe s) :=
  leavesWf_ends (by split <;> simp [hs])

theorem execProbeQuery_wf (h : HlyHdr) (probe first count : Nat) : LeavesWf (execProbeQuery h probe first count s) :=
  leavesWf_hly hs fun h => by simp [h]

/-! ### Registers -/

theorem execFtuTimeLoRead_wf : LeavesWf (execFtuTimeLoRead s) :=
  leavesWf_ends (by simp [hs])

theorem execReg64LowHalfRead_wf (window offset : Nat) : LeavesWf (execReg64LowHalfRead window offset s) :=
  leavesWf_ends (by (repeat' split) <;> simp [hs])

theorem execBar0IllegalAccess_wf (write : Bool) : LeavesWf (execBar0IllegalAccess write s) :=
  leavesWf_ends (by simp [hs])

theorem execBar0UnmappedAccess_wf (access : Bar0Access) : LeavesWf (execBar0UnmappedAccess access s) :=
  leavesWf_ends (by split <;> simp [hs])

theorem execRegisterWrite_wf (window offset : Nat) (value : Word) : LeavesWf (execRegisterWrite window offset value s) :=
  leavesWf_ends (by (repeat' split) <;> simp [hs])

/-! ### Commands and events of time -/

theorem execSyncPeriod_wf : LeavesWf (execSyncPeriod s) :=
  leavesWf_ends (by (repeat' split) <;> simp [hs, foldl_keeps_pool])

theorem execFtSyncReqReceive_wf (port exchange t1 : Nat) : LeavesWf (execFtSyncReqReceive port exchange t1 s) :=
  leavesWf_ends (by (repeat' split) <;> simp [hs])

theorem execFtSyncRspReceive_wf (port exchange depth t2 t3 : Nat) : LeavesWf (execFtSyncRspReceive port exchange depth t2 t3 s) :=
  leavesWf_ends (by (repeat' split) <;> simp [hs])

theorem execParentReplyLoss_wf : LeavesWf (execParentReplyLoss s) :=
  leavesWf_ends (by split <;> simp [hs])

theorem execMastheadTimeTick_wf : LeavesWf (execMastheadTimeTick s) :=
  leavesWf_ends (by split <;> simp [hs])

theorem execWakeSyncWindowEnd_wf : LeavesWf (execWakeSyncWindowEnd s) :=
  leavesWf_ends (by dsimp only; (repeat' split) <;> simp [hs])

theorem execPpsInputEdge_wf : LeavesWf (execPpsInputEdge s) :=
  leavesWf_ends (by split <;> simp [hs])

theorem execPpsOutputSecond_wf : LeavesWf (execPpsOutputSecond s) :=
  leavesWf_ends (by split <;> simp [hs])

end

end Sys2Proof.Machine
end

section
/-! SUPPORT. The statements on the memory: an instruction leaves a canonical memory, and so does a step. -/
namespace Sys2Proof.Machine

/-- Every instruction leaves a canonical memory canonical. -/
theorem exec_wf {s : State} (hs : Memory.wf s.pool.mem) : (i : Instr) → LeavesWf (exec i s)
  | .nop .. => execNop_wf hs ..
  | .deviceQuery .. => execDeviceQuery_wf hs ..
  | .inbandSet .. => leavesWf_hly hs fun h => inbandSetBody_wf h ..
  | .hostLinkSet .. => leavesWf_hly hs fun h => hostLinkSetBody_wf h ..
  | .modeSet .. => leavesWf_hly hs fun h => modeSetBody_wf h ..
  | .pwrSet .. => leavesWf_hly hs fun h => pwrSetBody_wf h ..
  | .pwrQuery .. => execPwrQuery_wf hs ..
  | .pwrCapture .. => leavesWf_hly hs fun h => pwrCaptureBody_wf h ..
  | .slotSet .. => leavesWf_hly hs fun h => slotSetBody_wf h ..
  | .slotPower .. => leavesWf_hly hs fun h => slotPowerBody_wf h ..
  | .slotQuery .. => execSlotQuery_wf hs ..
  | .portModeSet .. => leavesWf_hly hs fun h => portModeSetBody_wf h ..
  | .laneSet .. => leavesWf_hly hs fun h => laneSetBody_wf h ..
  | .laneSpare .. => leavesWf_hly hs fun h => laneSpareBody_wf h ..
  | .laneTest .. => leavesWf_hly hs fun h => laneTestBody_wf h ..
  | .laneQuery .. => execLaneQuery_wf hs ..
  | .linkSet .. => leavesWf_hly hs fun h => linkSetBody_wf h ..
  | .trnSet .. => leavesWf_hly hs fun h => trnSetBody_wf h ..
  | .contextPin .. => leavesWf_hly hs fun h => contextPinBody_wf h ..
  | .faultInject .. => leavesWf_hly hs fun h => faultInjectBody_wf h ..
  | .linkQuery .. => execLinkQuery_wf hs ..
  | .trnQuery .. => leavesWf_hly hs fun h => trnQueryBody_wf h ..
  | .routeWrite .. => leavesWf_hly hs fun h => routeWriteBody_wf h ..
  | .routeEpochAdvance .. => leavesWf_hly hs fun h => routeEpochAdvanceBody_wf h ..
  | .routeEpochRetire .. => leavesWf_hly hs fun h => routeEpochRetireBody_wf h
  | .routePortSet .. => leavesWf_hly hs fun h => routePortSetBody_wf h ..
  | .routePolicySet .. => execRoutePolicySet_wf hs ..
  | .contractRouteSet .. => leavesWf_hly hs fun h => contractRouteSetBody_wf h ..
  | .routeEndpointSet .. => leavesWf_hly hs fun h => routeEndpointSetBody_wf h ..
  | .treeInstall .. => leavesWf_hly hs fun h => treeInstallBody_wf h ..
  | .treeRemove .. => leavesWf_hly hs fun h => treeRemoveBody_wf h ..
  | .treeFence .. => leavesWf_hly hs fun h => treeFenceBody_wf h ..
  | .holdSet .. => execHoldSet_wf hs ..
  | .discover .. => execDiscover_wf hs ..
  | .idAssign .. => leavesWf_hly hs fun h => idAssignBody_wf h ..
  | .contractInstall .. => leavesWf_hly hs fun h => contractInstallBody_wf h ..
  | .contractModify .. => leavesWf_hly hs fun h => contractModifyBody_wf h ..
  | .contractRemove .. => leavesWf_hly hs fun h => contractRemoveBody_wf h ..
  | .contractQuery .. => execContractQuery_wf hs ..
  | .hopReserve .. => leavesWf_hly hs fun h => hopReserveBody_wf h ..
  | .hopRelease .. => leavesWf_hly hs fun h => hopReleaseBody_wf h ..
  | .meterSet .. => leavesWf_hly hs fun h => meterSetBody_wf h ..
  | .portReserveSet .. => leavesWf_hly hs fun h => portReserveSetBody_wf h ..
  | .ftuSet .. => leavesWf_hly hs fun h => ftuSetBody_wf h ..
  | .bufferAccountSet .. => leavesWf_hly hs fun h => bufferAccountSetBody_wf h ..
  | .bufferPoolSet .. => leavesWf_hly hs fun h => bufferPoolSetBody_wf h ..
  | .auditSet .. => leavesWf_hly hs fun h => auditSetBody_wf h ..
  | .bufferReclaim .. => leavesWf_hly hs fun h => bufferReclaimBody_wf h ..
  | .bufferQuery .. => execBufferQuery_wf hs ..
  | .egsLeafBind .. => leavesWf_hly hs fun h => egsLeafBindBody_wf h ..
  | .egsLeafUnbind .. => leavesWf_hly hs fun h => egsLeafUnbindBody_wf h ..
  | .egsNodeSet .. => leavesWf_hly hs fun h => egsNodeSetBody_wf h ..
  | .egsQuery .. => leavesWf_hly hs fun h => egsQueryBody_wf h ..
  | .arbSet .. => leavesWf_hly hs fun h => arbSetBody_wf h ..
  | .arbQuery .. => execArbQuery_wf hs ..
  | .poolLinkSet .. => leavesWf_hly hs fun h => poolLinkSetBody_wf h ..
  | .extentBind .. => leavesWf_hly hs fun h => extentBindBody_wf h ..
  | .extentUnbind .. => leavesWf_hly hs fun h => extentUnbindBody_wf h ..
  | .importMap .. => leavesWf_hly hs fun h => importMapBody_wf h ..
  | .extentZero .. => leavesWf_hly hs fun h => extentZeroBody_wf h ..
  | .extentQuery .. => execExtentQuery_wf hs ..
  | .functionBind .. => leavesWf_hly hs fun h => functionBindBody_wf h ..
  | .functionUnbind .. => leavesWf_hly hs fun h => functionUnbindBody_wf h ..
  | .slotRemove .. => leavesWf_hly hs fun h => slotRemoveBody_wf h ..
  | .hbmPartitionSet .. => leavesWf_hly hs fun h => hbmPartitionSetBody_wf h ..
  | .cohAgentAdd .. => leavesWf_hly hs fun h => cohAgentAddBody_wf h ..
  | .cohAgentRemove .. => leavesWf_hly hs fun h => cohAgentRemoveBody_wf h ..
  | .cohWindowCreate .. => leavesWf_hly hs fun h => cohWindowCreateBody_wf h ..
  | .cohWindowAgents .. => leavesWf_hly hs fun h => cohWindowAgentsBody_wf h ..
  | .cohWindowMap .. => leavesWf_hly hs fun h => cohWindowMapBody_wf h ..
  | .cohWindowDestroy .. => leavesWf_hly hs fun h => cohWindowDestroyBody_wf h ..
  | .dirSet .. => leavesWf_hly hs fun h => dirSetBody_wf h ..
  | .dirQuery .. => leavesWf_hly hs fun h => dirQueryBody_wf h ..
  | .queueCreate .. => leavesWf_hly hs fun h => queueCreateBody_wf h ..
  | .queueDestroy .. => leavesWf_hly hs fun h => queueDestroyBody_wf h ..
  | .queueMove .. => leavesWf_hly hs fun h => queueMoveBody_wf h ..
  | .queueRestart .. => leavesWf_hly hs fun h => queueRestartBody_wf h ..
  | .regionSet .. => leavesWf_hly hs fun h => regionSetBody_wf h ..
  | .engInstanceSet .. => leavesWf_hly hs fun h => engInstanceSetBody_wf h ..
  | .engSet .. => leavesWf_hly hs fun h => engSetBody_wf h ..
  | .lockBreak .. => execLockBreak_wf hs ..
  | .engQuery .. => execEngQuery_wf hs ..
  | .collGroupSet .. => leavesWf_hly hs fun h => collGroupSetBody_wf h ..
  | .collGroupRemove .. => leavesWf_hly hs fun h => collGroupRemoveBody_wf h ..
  | .collFence .. => leavesWf_hly hs fun h => collFenceBody_wf h ..
  | .collQuery .. => execCollQuery_wf hs ..
  | .instanceCreate .. => leavesWf_hly hs fun h => instanceCreateBody_wf h ..
  | .instanceSet .. => leavesWf_hly hs fun h => instanceSetBody_wf h ..
  | .instanceReset .. => leavesWf_hly hs fun h => instanceResetBody_wf h ..
  | .instanceDisable .. => leavesWf_hly hs fun h => instanceDisableBody_wf h ..
  | .dirtyLogSet .. => leavesWf_hly hs fun h => dirtyLogSetBody_wf h ..
  | .dirtyLogSwap .. => leavesWf_hly hs fun h => dirtyLogSwapBody_wf h ..
  | .instanceQuery .. => execInstanceQuery_wf hs ..
  | .mpuRulesSet .. => leavesWf_hly hs fun h => mpuRulesSetBody_wf h ..
  | .mpuSwap .. => leavesWf_hly hs fun h => mpuSwapBody_wf h ..
  | .mpuQuery .. => execMpuQuery_wf hs ..
  | .debugUnlock .. => leavesWf_hly hs fun h => debugUnlockBody_wf h ..
  | .icuSet .. => leavesWf_hly hs fun h => icuSetBody_wf h ..
  | .icuQuery .. => execIcuQuery_wf hs ..
  | .faultSet .. => leavesWf_hly hs fun h => faultSetBody_wf h ..
  | .faultForce .. => leavesWf_hly hs fun h => faultForceBody_wf h ..
  | .faultClear .. => leavesWf_hly hs fun h => faultClearBody_wf h ..
  | .faultQuery .. => execFaultQuery_wf hs ..
  | .spareSwap .. => leavesWf_hly hs fun h => spareSwapBody_wf h ..
  | .spareQuery .. => leavesWf_hly hs fun h => spareQueryBody_wf h ..
  | .backgroundSet .. => leavesWf_hly hs fun h => backgroundSetBody_wf h ..
  | .ttcSet .. => leavesWf_hly hs fun h => ttcSetBody_wf h ..
  | .dumpSet .. => leavesWf_hly hs fun h => dumpSetBody_wf h ..
  | .probeSet .. => leavesWf_hly hs fun h => probeSetBody_wf h ..
  | .probeQuery .. => execProbeQuery_wf hs ..
  | .mtrSet .. => leavesWf_hly hs fun h => mtrSetBody_wf h ..
  | .fwWrite .. => leavesWf_hly hs fun h => fwWriteBody_wf h ..
  | .fwActivate .. => execFwActivate_wf hs ..
  | .deviceReset .. => execDeviceReset_wf hs ..
  | .fabricLeave .. => leavesWf_hly hs fun h => fabricLeaveBody_wf h ..
  | .deviceResetEffect => execDeviceResetEffect_wf hs
  | .doorbellSend .. => execDoorbellSend_wf hs ..
  | .doorbellReceive .. => execDoorbellReceive_wf hs ..
  | .doorbellCompletion .. => execDoorbellCompletion_wf hs ..
  | .doorbellCompletionArm .. => execDoorbellCompletionArm_wf hs ..
  | .hlyCommandProducerWrite .. => execHlyCommandProducerWrite_wf hs ..
  | .hlyReplyConsumerWrite .. => execHlyReplyConsumerWrite_wf hs ..
  | .hlyQueueEnable .. => execHlyQueueEnable_wf hs ..
  | .hlyQueueDisable .. => execHlyQueueDisable_wf hs ..
  | .icuClaimRead .. => execIcuClaimRead_wf hs ..
  | .icuCompleteWrite .. => execIcuCompleteWrite_wf hs ..
  | .icuSwiWrite .. => execIcuSwiWrite_wf hs ..
  | .mpuViolPop .. => execMpuViolPop_wf hs ..
  | .ftuTimeLoRead => execFtuTimeLoRead_wf hs
  | .reg64LowHalfRead .. => execReg64LowHalfRead_wf hs ..
  | .bar0IllegalAccess .. => execBar0IllegalAccess_wf hs ..
  | .bar0UnmappedAccess .. => execBar0UnmappedAccess_wf hs ..
  | .registerWrite .. => execRegisterWrite_wf hs ..
  | .functionLevelReset .. => execFunctionLevelReset_wf hs ..
  | .vfEnableClear .. => execVfEnableClear_wf hs ..
  | .busMasterEnableClear .. => execBusMasterEnableClear_wf hs ..
  | .msixUnmask .. => execMsixUnmask_wf hs ..
  | .boardChannelRequest .. => execBoardChannelRequest_wf hs ..
  | .hlyCmdReceive .. => execHlyCmdReceive_wf hs ..
  | .hlyReplyReceive _ _ _ _ attempt .. => execHlyReplyReceive_wf hs _ _ _ _ attempt ..
  | .inbandTimeout .. => execInbandTimeout_wf hs ..
  | .reassemblyTimeout .. => execReassemblyTimeout_wf hs ..
  | .inbandHoldExpiry .. => execInbandHoldExpiry_wf hs ..
  | .directedReceive .. => execDirectedReceive_wf hs ..
  | .neighbourReceive .. => execNeighbourReceive_wf hs ..
  | .syncPeriod => execSyncPeriod_wf hs
  | .ftSyncReqReceive _ _ t1 => execFtSyncReqReceive_wf hs _ _ t1
  | .ftSyncRspReceive .. => execFtSyncRspReceive_wf hs ..
  | .parentReplyLoss => execParentReplyLoss_wf hs
  | .mastheadTimeTick => execMastheadTimeTick_wf hs
  | .wakeSyncWindowEnd => execWakeSyncWindowEnd_wf hs
  | .packetIngress .. => execPacketIngress_wf hs ..
  | .routeRetry .. => execRouteRetry_wf hs ..
  | .bufferAdmission .. => execBufferAdmission_wf hs ..
  | .egressSelect .. => execEgressSelect_wf hs ..
  | .framePreempt .. => execFramePreempt_wf hs ..
  | .suspendedFrameResume .. => execSuspendedFrameResume_wf hs ..
  | .linkFrameReceive .. => execLinkFrameReceive_wf hs ..
  | .linkControlFlitReceive .. => execLinkControlFlitReceive_wf hs ..
  | .replayTimeout .. => execReplayTimeout_wf hs ..
  | .retrainLimitExpiry .. => execRetrainLimitExpiry_wf hs ..
  | .linkInitFlitTimer .. => execLinkInitFlitTimer_wf hs ..
  | .portDisableDrainTimeout .. => execPortDisableDrainTimeout_wf hs ..
  | .transportDataReceive .. => execTransportDataReceive_wf hs ..
  | .topenReceive .. => execTopenReceive_wf hs ..
  | .tcloseReceive .. => execTcloseReceive_wf hs ..
  | .tackReceive .. => execTackReceive_wf hs ..
  | .tnakReceive .. => execTnakReceive_wf hs ..
  | .ackDelayExpiry .. => execAckDelayExpiry_wf hs ..
  | .nakDelayExpiry .. => execNakDelayExpiry_wf hs ..
  | .retryTimeout .. => execRetryTimeout_wf hs ..
  | .ctxIdleExpiry .. => execCtxIdleExpiry_wf hs ..
  | .contextFetchDone .. => execContextFetchDone_wf hs ..
  | .mcAckReceive .. => execMcAckReceive_wf hs ..
  | .descriptorFetch .. => execDescriptorFetch_wf hs ..
  | .put .. => execPut_wf hs ..
  | .get .. => execGet_wf hs ..
  | .atomic .. => execAtomic_wf hs ..
  | .send .. => execSend_wf hs ..
  | .lock .. => execLock_wf hs ..
  | .unlock .. => execUnlock_wf hs ..
  | .counterAdd .. => execCounterAdd_wf hs ..
  | .counterSet .. => execCounterSet_wf hs ..
  | .descNop .. => execDescNop_wf hs ..
  | .triggerFire .. => execTriggerFire_wf hs ..
  | .edgeWaitRelease .. => execEdgeWaitRelease_wf hs ..
  | .flaggedLateSend .. => execFlaggedLateSend_wf hs ..
  | .receiveTake .. => execReceiveTake_wf hs ..
  | .rnrDelayExpiry .. => execRnrDelayExpiry_wf hs ..
  | .lockAgeExpiry .. => execLockAgeExpiry_wf hs ..
  | .putArrival .. => execPutArrival_wf hs ..
  | .getArrival .. => execGetArrival_wf hs ..
  | .atomicArrival .. => execAtomicArrival_wf hs ..
  | .lockArrival .. => execLockArrival_wf hs ..
  | .unlockArrival .. => execUnlockArrival_wf hs ..
  | .lockAbandonArrival .. => execLockAbandonArrival_wf hs ..
  | .sendEagerArrival .. => execSendEagerArrival_wf hs ..
  | .sendRtsArrival .. => execSendRtsArrival_wf hs ..
  | .rgetArrival .. => execRgetArrival_wf hs ..
  | .putAckArrival .. => execPutAckArrival_wf hs ..
  | .getDataArrival .. => execGetDataArrival_wf hs ..
  | .atomicResultArrival .. => execAtomicResultArrival_wf hs ..
  | .lockResultArrival .. => execLockResultArrival_wf hs ..
  | .sendAckArrival .. => execSendAckArrival_wf hs ..
  | .sendRnrArrival .. => execSendRnrArrival_wf hs ..
  | .rgetDataArrival .. => execRgetDataArrival_wf hs ..
  | .rdoneArrival .. => execRdoneArrival_wf hs ..
  | .engErrorArrival .. => execEngErrorArrival_wf hs ..
  | .hostMemoryAccess .. => execHostMemoryAccess_wf hs ..
  | .hostWindowStore .. => execHostWindowStore_wf hs ..
  | .wreadArrival .. => execWreadArrival_wf hs ..
  | .wwriteArrival .. => execWwriteArrival_wf hs ..
  | .wreadDataArrival .. => execWreadDataArrival_wf hs ..
  | .wwriteDoneArrival .. => execWwriteDoneArrival_wf hs ..
  | .werrorArrival .. => execWerrorArrival_wf hs ..
  | .coherentRequest .. => execCoherentRequest_wf hs ..
  | .coherentWriteback .. => execCoherentWriteback_wf hs ..
  | .evictionNotice .. => execEvictionNotice_wf hs ..
  | .snoopResponseReceive .. => execSnoopResponseReceive_wf hs ..
  | .biconflictReceive .. => execBiconflictReceive_wf hs ..
  | .memoryWriteDone .. => execMemoryWriteDone_wf hs ..
  | .snoopTimeoutExpiry .. => execSnoopTimeoutExpiry_wf hs ..
  | .recallComplete .. => execRecallComplete_wf hs ..
  | .memberArrival .. => execMemberArrival_wf hs ..
  | .rdxUpArrival .. => execRdxUpArrival_wf hs ..
  | .rdxDownArrival .. => execRdxDownArrival_wf hs ..
  | .zeroingComplete .. => execZeroingComplete_wf hs ..
  | .dynamicCapacityRelease .. => execDynamicCapacityRelease_wf hs ..
  | .dynamicCapacityAddReject .. => execDynamicCapacityAddReject_wf hs ..
  | .releaseTimeoutExpiry .. => execReleaseTimeoutExpiry_wf hs ..
  | .unbindDrainComplete .. => execUnbindDrainComplete_wf hs ..
  | .virtualSlotPowerOff .. => execVirtualSlotPowerOff_wf hs ..
  | .functionResetComplete .. => execFunctionResetComplete_wf hs ..
  | .expanderEnumerated .. => execExpanderEnumerated_wf hs ..
  | .hopReleaseDrained .. => execHopReleaseDrained_wf hs ..
  | .hopReleaseTimeout .. => execHopReleaseTimeout_wf hs ..
  | .treeDrained .. => execTreeDrained_wf hs ..
  | .leafDrained .. => execLeafDrained_wf hs ..
  | .groupDrained .. => execGroupDrained_wf hs ..
  | .queueMoveForwardDone .. => execQueueMoveForwardDone_wf hs ..
  | .logSwapWritebackDone .. => execLogSwapWritebackDone_wf hs ..
  | .mpuSwapCommit .. => execMpuSwapCommit_wf hs ..
  | .mpuSwapRetire .. => execMpuSwapRetire_wf hs ..
  | .spareSwapComplete .. => execSpareSwapComplete_wf hs ..
  | .resetDrainComplete .. => execResetDrainComplete_wf hs ..
  | .drainTimeoutExpiry .. => execDrainTimeoutExpiry_wf hs ..
  | .generationWaitExpiry .. => execGenerationWaitExpiry_wf hs ..
  | .resetForceExpiry .. => execResetForceExpiry_wf hs ..
  | .resetItemsDone .. => execResetItemsDone_wf hs ..
  | .stormJibDrained => execStormJibDrained_wf hs
  | .stormJibWake cause => execStormJibWake_wf hs cause
  | .barePolesCommandTimeout => execBarePolesCommandTimeout_wf hs
  | .wakeGpio => execWakeGpio_wf hs
  | .rateStepComplete .. => execRateStepComplete_wf hs ..
  | .rateStepTimeout .. => execRateStepTimeout_wf hs ..
  | .lossOfSignal .. => execLossOfSignal_wf hs ..
  | .lossOfLock .. => execLossOfLock_wf hs ..
  | .codewordLockLoss .. => execCodewordLockLoss_wf hs ..
  | .corrWindowEnd .. => execCorrWindowEnd_wf hs ..
  | .marginReport .. => execMarginReport_wf hs ..
  | .wearFlag .. => execWearFlag_wf hs ..
  | .trainingSequenceReceive .. => execTrainingSequenceReceive_wf hs ..
  | .trainDetectSignal .. => execTrainDetectSignal_wf hs ..
  | .equaliseTimeout .. => execEqualiseTimeout_wf hs ..
  | .lockAchieved .. => execLockAchieved_wf hs ..
  | .trainTimeout .. => execTrainTimeout_wf hs ..
  | .backoffElapsed .. => execBackoffElapsed_wf hs ..
  | .idleEntryExpiry .. => execIdleEntryExpiry_wf hs ..
  | .fastExit .. => execFastExit_wf hs ..
  | .fastExitLockTimeout .. => execFastExitLockTimeout_wf hs ..
  | .subReq .. => execSubReq_wf hs ..
  | .subAck .. => execSubAck_wf hs ..
  | .subCompareDone .. => execSubCompareDone_wf hs ..
  | .subDone .. => execSubDone_wf hs ..
  | .subAbort .. => execSubAbort_wf hs ..
  | .stepMsg .. => execStepMsg_wf hs ..
  | .stepAck .. => execStepAck_wf hs ..
  | .idleEnter .. => execIdleEnter_wf hs ..
  | .wake .. => execWake_wf hs ..
  | .testReq .. => execTestReq_wf hs ..
  | .testAck .. => execTestAck_wf hs ..
  | .auditPassEnd => execAuditPassEnd_wf hs
  | .arbStarveThreshold .. => execArbStarveThreshold_wf hs ..
  | .feedWindowEnter .. => execFeedWindowEnter_wf hs ..
  | .feedWindowExit .. => execFeedWindowExit_wf hs ..
  | .insertionDelayElapsed .. => execInsertionDelayElapsed_wf hs ..
  | .rampComplete .. => execRampComplete_wf hs ..
  | .qualificationDone .. => execQualificationDone_wf hs ..
  | .currentOverLimit .. => execCurrentOverLimit_wf hs ..
  | .currentBelowRecovery .. => execCurrentBelowRecovery_wf hs ..
  | .faultTimerTrip .. => execFaultTimerTrip_wf hs ..
  | .fastTrip .. => execFastTrip_wf hs ..
  | .energyBudgetTrip .. => execEnergyBudgetTrip_wf hs ..
  | .rampTimeout .. => execRampTimeout_wf hs ..
  | .coolDownElapsed .. => execCoolDownElapsed_wf hs ..
  | .attemptCountReset .. => execAttemptCountReset_wf hs ..
  | .reverseCurrent .. => execReverseCurrent_wf hs ..
  | .reverseRecovery .. => execReverseRecovery_wf hs ..
  | .feedBelow5v .. => execFeedBelow5v_wf hs ..
  | .thermalTrip sensor => execThermalTrip_wf hs sensor
  | .temperatureReading .. => execTemperatureReading_wf hs ..
  | .presenceDebounced .. => execPresenceDebounced_wf hs ..
  | .presenceLost .. => execPresenceLost_wf hs ..
  | .pginFall .. => execPginFall_wf hs ..
  | .measurementWindowEnd .. => execMeasurementWindowEnd_wf hs ..
  | .captureRecord .. => execCaptureRecord_wf hs ..
  | .continuousCaptureEnd .. => execContinuousCaptureEnd_wf hs ..
  | .sleepIdleExpiry .. => execSleepIdleExpiry_wf hs ..
  | .powerOffIdleExpiry .. => execPowerOffIdleExpiry_wf hs ..
  | .domainOffDone .. => execDomainOffDone_wf hs ..
  | .domainPacketArrival .. => execDomainPacketArrival_wf hs ..
  | .domainWakeDone .. => execDomainWakeDone_wf hs ..
  | .domainWakeTimeout .. => execDomainWakeTimeout_wf hs ..
  | .quietPeriodExpiry => execQuietPeriodExpiry_wf hs
  | .trendFire .. => execTrendFire_wf hs ..
  | .hbmUncorrectableError .. => execHbmUncorrectableError_wf hs ..
  | .sramUncorrectableError .. => execSramUncorrectableError_wf hs ..
  | .engineDuplicateFail .. => execEngineDuplicateFail_wf hs ..
  | .managementCoreWatchdog .. => execManagementCoreWatchdog_wf hs ..
  | .calPeriod => execCalPeriod_wf hs
  | .dumpInterval .. => execDumpInterval_wf hs ..
  | .dumpSlotWritten .. => execDumpSlotWritten_wf hs ..
  | .counterAccumulate => execCounterAccumulate_wf hs
  | .sampleCountdownZero .. => execSampleCountdownZero_wf hs ..
  | .probeMatch .. => execProbeMatch_wf hs ..
  | .traceRecordTimeout .. => execTraceRecordTimeout_wf hs ..
  | .coldReset .. => execColdReset_wf hs ..
  | .vauxLoss => execVauxLoss_wf
  | .warmReset .. => execWarmReset_wf hs ..
  | .managementComplexReset .. => execManagementComplexReset_wf hs ..
  | .imageCheckDone .. => execImageCheckDone_wf hs ..
  | .bootReady => execBootReady_wf hs
  | .centralSchedulerMatching .. => execCentralSchedulerMatching_wf hs ..
  | .hostReadCompletion .. => execHostReadCompletion_wf hs ..
  | .hostCompletionTimeout .. => execHostCompletionTimeout_wf hs ..
  | .directoryReadDone .. => execDirectoryReadDone_wf hs ..
  | .vfEnableSet .. => execVfEnableSet_wf hs ..
  | .busMasterEnableSet .. => execBusMasterEnableSet_wf hs ..
  | .perst0Deassertion => execPerst0Deassertion_wf hs
  | .vaux33Rise .. => execVaux33Rise_wf hs ..
  | .meteringSlotWaitTimeout .. => execMeteringSlotWaitTimeout_wf hs ..
  | .ppsInputEdge => execPpsInputEdge_wf hs
  | .ppsOutputSecond => execPpsOutputSecond_wf hs
  | .mctpControlMessage .. => execMctpControlMessage_wf hs ..
  | .jtagInstructionUpdate .. => execJtagInstructionUpdate_wf hs ..
  | .viralReceived .. => execViralReceived_wf hs ..
  | .pcieLinkTrained .. => execPcieLinkTrained_wf hs ..
  | .prbsCheckerLock .. => execPrbsCheckerLock_wf hs ..
  | .prbsLockLoss .. => execPrbsLockLoss_wf hs ..
  | .directoryBankFailure .. => execDirectoryBankFailure_wf hs ..
  | .routeBankFailure .. => execRouteBankFailure_wf hs ..
  | .pseudoChannelFailure .. => execPseudoChannelFailure_wf hs ..
  | .managementCoreFailure .. => execManagementCoreFailure_wf hs ..
  | .ageingMonitorFlag .. => execAgeingMonitorFlag_wf hs ..
  | .datapathError => execDatapathError_wf hs
  | .shroudBridgeTimeout bridge => execShroudBridgeTimeout_wf hs bridge
  | .managementFirmwareFault .. => execManagementFirmwareFault_wf hs ..

/-- Settles O51: the list of a reset is empty. -/
theorem resetMemoryIsCanonical : Obligations.ResetMemoryIsCanonical := by
  exact ⟨rfl, fun _ => rfl⟩

/-- Settles O52: an instruction keeps the memory canonical by `exec_wf`, and the cycle of the cores on an empty queue leaves the pool
as it was. -/
theorem stepKeepsMemoryCanonical : Obligations.StepKeepsMemoryCanonical := by
  intro s t hs ht
  have hs : Memory.wf s.pool.mem := hs
  rw [step] at ht
  split at ht
  · have h : coreCycle s = t := Host.Outcome.next.inj ht
    rw [← h, State.memOk, coreCycle_pool]
    exact hs
  · next i rest _ =>
    have hrest : Memory.wf ({ s with pending := rest } : State).pool.mem := hs
    exact (exec_wf hrest i).wf_of_next t ht

end Sys2Proof.Machine
end

section
/-! SUPPORT. The commands of the memory and device pools: what an operation on each extent of a range leaves, what a bind enters and
commits, what each body answers, and the statement about all of them. -/
namespace Sys2Proof.Machine

/-! ### An operation on each extent of a range -/

/-- An operation that runs over the extents of a range one by one makes of each, as far as `φ` looks, its own change alone. -/
theorem extent_foldl_range {α : Type} {φ : Extent → α} {g : State → Nat → State} {F : α → Nat → α} {base : Nat}
    (hself : ∀ t k, φ ((g t k).extent (base + k)) = F (φ (t.extent (base + k))) k)
    (hother : ∀ t k x, x ≠ base + k → (g t k).extent x = t.extent x) (s : State) (n k : Nat) :
    φ (((List.range n).foldl g s).extent (base + k)) = if k < n then F (φ (s.extent (base + k))) k else φ (s.extent (base + k)) := by
  induction n with
  | zero => rfl
  | succ n ih =>
    rw [List.range_succ, List.foldl_concat]
    by_cases hk : k = n
    · subst hk
      rw [hself, ih, if_neg (Nat.lt_irrefl k), if_pos (Nat.lt_succ_self k)]
    · rw [hother _ _ _ (by omega), ih]
      exact if_congr (by omega) rfl rfl

theorem foldl_handleRange (g : State → Nat → State) (s : State) (handle count : Nat) :
    (handleRange handle count).foldl g s = (List.range count).foldl (fun t k => g t (handle + k)) s := by
  rw [handleRange, List.foldl_map]
  simp only [Nat.add_comm]

theorem any_handleRange_eq_false {p : Nat → Bool} {handle count : Nat} (h : ∀ k, k < count → p (handle + k) = false) :
    (handleRange handle count).any p = false := by
  rw [List.any_eq_false, handleRange]
  simpa [Nat.add_comm handle] using h

theorem any_handleRange_eq_true {p : Nat → Bool} {handle count : Nat} (hcount : 1 ≤ count) (h : p handle = true) :
    (handleRange handle count).any p = true :=
  List.any_eq_true.mpr ⟨handle, List.mem_map.mpr ⟨0, List.mem_range.mpr hcount, Nat.zero_add _⟩, h⟩

/-- The extents of a range changed one by one: each is changed once. -/
theorem extent_foldl_upExtent {F : Extent → Extent} {handle count k : Nat} (s : State) (hk : k < count) :
    ((handleRange handle count).foldl (fun t x => t.upExtent x F) s).extent (handle + k) = F (s.extent (handle + k)) := by
  rw [foldl_handleRange]
  exact (extent_foldl_range (φ := id) (F := fun e _ => F e) (fun t k => t.extent_upExtent_self ..)
    (fun t k x => t.extent_upExtent_other F) s count k).trans (if_pos hk)

theorem foldl_upExtent_slots (F : Extent → Extent) (l : List Nat) (s : State) :
    (l.foldl (fun t x => t.upExtent x F) s).pool.slots = s.pool.slots :=
  foldl_keeps (g := fun t x => t.upExtent x F) (fun t => t.pool.slots) (fun _ _ => rfl) l s

@[simp] theorem State.fetchCmd_extent (s : State) (h : HlyHdr) (x : Nat) : (s.fetchCmd h).extent x = s.extent x :=
  State.extent_of_pool (s.fetchCmd_pool h) x

/-! ### Binding (R281, R282) -/

/-- What a bind without a coherence window makes of the extent that takes its place `k`. -/
def enterBind (b : BindP) (e : Extent) (k : Nat) : Extent :=
  let kept := e.state == .freeDirty && b.keep && e.owner == bindOwner b
  { e with
    state := if e.state == .freeDirty && !kept then .zeroing else .binding, use := b.use, binder := b.inst, owner := bindOwner b
    window := if b.use = 2 then some (b.expWindow, b.firstIndex + k) else none, backing := none
    pending := if b.use = 2 then [] else [(b.inst, b.firstSlot + k)], zeroAfter := !kept, note := 0 }

/-- The state in which every extent of a bind has entered it. -/
def State.entered (s : State) (b : BindP) : State := (List.range b.count).foldl (fun s k => s.bindExtent b k) s

theorem State.bindExtent_eq (s : State) {b : BindP} (huse : b.use ≠ 1) (k : Nat) :
    s.bindExtent b k = s.upExtent (b.handle + k) fun e => enterBind b e k := by
  simp only [State.bindExtent, if_neg huse]
  rfl

theorem State.extent_entered {b : BindP} (huse : b.use ≠ 1) (s : State) {k : Nat} (hk : k < b.count) :
    (s.entered b).extent (b.handle + k) = enterBind b (s.extent (b.handle + k)) k := by
  refine (extent_foldl_range (φ := id) (F := enterBind b) (fun t k => ?_) (fun t k x hx => ?_) s b.count k).trans (if_pos hk)
  · rw [t.bindExtent_eq huse, State.extent_upExtent_self]; rfl
  · rw [t.bindExtent_eq huse, State.extent_upExtent_other _ _ hx]

/-- What enters a bind changes nothing of the pool but the extents. -/
theorem State.entered_slots {b : BindP} (huse : b.use ≠ 1) (s : State) :
    (s.entered b).pool.slots = s.pool.slots ∧ (s.entered b).pool.windows = s.pool.windows :=
  ⟨foldl_keeps (fun t => t.pool.slots) (fun t k => by rw [t.bindExtent_eq huse]; rfl) _ s,
    foldl_keeps (fun t => t.pool.windows) (fun t k => by rw [t.bindExtent_eq huse]; rfl) _ s⟩

@[simp] theorem State.entered_mem (s : State) (b : BindP) : (s.entered b).pool.mem = s.pool.mem :=
  foldl_keeps_mem (fun t k => t.bindExtent_mem b k) _ s

/-- What the commit of a bind makes of an extent that has entered it. -/
def commitEntry (e : Extent) : Extent := { e with state := .bound, slots := e.pending, pending := [], note := 0, zeroAfter := false }

theorem State.extent_bindOne (s : State) (h x : Nat) :
    (s.bindOne h).extent x = (s.upExtent h commitEntry).extent x := by
  simp only [State.bindOne]
  split <;> rfl

theorem State.extent_bindOne_other (s : State) {h x : Nat} (hx : x ≠ h) : (s.bindOne h).extent x = s.extent x := by
  rw [State.extent_bindOne, State.extent_upExtent_other _ _ hx]

theorem State.bindOne_slots (s : State) (h : Nat) :
    (s.bindOne h).pool.slots = (s.extent h).pending.foldl (fun (t : Tbl Slot) x => t.put (slotKey x.1 x.2) (.local h)) s.pool.slots := by
  simp only [State.bindOne]
  split <;> rfl

/-- The announcements of a commit leave the pool as it was. -/
theorem State.commitBind_pool (s : State) (handles : List Nat) : (s.commitBind handles).pool = (handles.foldl State.bindOne s).pool := by
  refine foldl_keeps_pool (fun t h => ?_) ..
  exact foldl_keeps_pool (fun u x => u.announce_pool h x) ..

theorem State.extent_commitBind (s : State) {handle count k : Nat} (hk : k < count) :
    (s.commitBind (handleRange handle count)).extent (handle + k) = commitEntry (s.extent (handle + k)) := by
  rw [State.extent_of_pool (s.commitBind_pool _), foldl_handleRange]
  refine (extent_foldl_range (φ := id) (F := fun e _ => commitEntry e) (fun t k => ?_)
    (fun t k x hx => t.extent_bindOne_other hx) s count k).trans (if_pos hk)
  rw [State.extent_bindOne, State.extent_upExtent_self]
  rfl

/-- A commit writes each slot that its extents await. -/
theorem State.slotOf_commitBind {s : State} {inst first handle count : Nat}
    (hpending : ∀ k, k < count → (s.extent (handle + k)).pending = [(inst, first + k)]) {k : Nat} (hk : k < count) :
    (s.commitBind (handleRange handle count)).slotOf inst (first + k) = some (.local (handle + k)) := by
  rw [State.slotOf, State.commitBind_pool, foldl_handleRange]
  induction count with
  | zero => omega
  | succ n ih =>
    have hlast := extent_foldl_range (φ := id) (F := fun e _ => commitEntry e) (g := fun t k => t.bindOne (handle + k)) (base := handle)
      (fun t k => by rw [State.extent_bindOne, State.extent_upExtent_self]; rfl) (fun t k x hx => t.extent_bindOne_other hx) s n n
    rw [if_neg (Nat.lt_irrefl n), id, id] at hlast
    rw [List.range_succ, List.foldl_concat, State.bindOne_slots, hlast, hpending n (Nat.lt_succ_self n), List.foldl_cons, List.foldl_nil,
      Tbl.find_put]
    by_cases hkn : k = n
    · subst hkn; exact if_pos rfl
    · rw [if_neg (by simp only [slotKey]; omega)]
      exact ih (fun j hj => hpending j (by omega)) (by omega)

/-- The exported window of a bind, which a bind that is the first to name it creates (R274). -/
def State.windowed (s : State) (b : BindP) : State :=
  if b.use = 2 && !s.pool.windows.has b.expWindow then
    s.upPool fun p => { p with windows := p.windows.put b.expWindow { key := b.key, readOnly := b.readOnly, access := b.access, extents := [] } }
  else s

/-- The answer of a bind that every extent has entered (R282). -/
def bindAnswer (b : BindP) (t : State) : HRes :=
  let hs := handleRange b.handle b.count
  if hs.any fun h => (t.extent h).state == .zeroing then .pend t (.bind hs) (hs.map .extent) else .ok (t.commitBind hs)

/-- EXTENT_BIND that nothing refuses. -/
theorem extentBindBody_eq {s : State} {b : BindP} (huse : b.use = 0 ∧ s.slotCount + b.count ≤ 524288 ∧ s.enabled b.inst = true ∨
      b.use = 2 ∧ b.expWindow ≤ 4095) (hbad : bindBad b = false) (htaken : s.bindTaken b = false)
    (hfree : ∀ k, k < b.count → isFree (s.extent (b.handle + k)) = true) :
    extentBindBody b s = bindAnswer b ((s.entered b).windowed b) := by
  have hany : (handleRange b.handle b.count).any (fun h => !isFree (s.extent h)) = false :=
    any_handleRange_eq_false fun k hk => by rw [hfree k hk]; rfl
  refine refuseIf_none _ _ ?_
  obtain ⟨hprivate, hroom, hinst⟩ | ⟨hexported, hwindow⟩ := huse
  · simp [hbad, hprivate, hany, htaken, hinst, hroom]
  · simp [hbad, hexported, hany, htaken, hwindow]

theorem bindAnswer_commits {b : BindP} {t : State} (h : ∀ k, k < b.count → (t.extent (b.handle + k)).state ≠ .zeroing) :
    bindAnswer b t = .ok (t.commitBind (handleRange b.handle b.count)) := by
  have hany : (handleRange b.handle b.count).any (fun x => (t.extent x).state == .zeroing) = false :=
    any_handleRange_eq_false fun k hk => beq_eq_false_iff_ne.mpr (h k hk)
  exact if_neg (by simp only [hany, Bool.false_eq_true, not_false_iff])

theorem bindAnswer_waits {b : BindP} {t : State} (hcount : 1 ≤ b.count) (h : (t.extent b.handle).state = .zeroing) :
    bindAnswer b t = .pend t (.bind (handleRange b.handle b.count)) ((handleRange b.handle b.count).map .extent) :=
  if_pos (any_handleRange_eq_true hcount (by simp [h]))

/-- A bind to slots needs no exported window. -/
theorem State.windowed_private {b : BindP} (huse : b.use = 0) (s : State) : s.windowed b = s := if_neg (by simp [huse])

theorem State.windowed_new {s : State} {b : BindP} (huse : b.use = 2) (hnew : s.pool.windows.find b.expWindow = none) :
    s.windowed b = s.upPool fun p => { p with
      windows := p.windows.put b.expWindow { key := b.key, readOnly := b.readOnly, access := b.access, extents := [] } } :=
  if_pos (by simp [huse, Tbl.has, hnew])

/-- An extent that is clean enters a bind without being zeroed. -/
theorem enterBind_clean {b : BindP} {e : Extent} (h : e.state = .freeClean) (k : Nat) : (enterBind b e k).state = .binding := by
  simp [enterBind, h]

theorem enterBind_dirty {b : BindP} {e : Extent} (h : e.state = .freeDirty) (hkeep : b.keep = false) (k : Nat) :
    (enterBind b e k).state = .zeroing := by
  simp [enterBind, h, hkeep]

theorem one_le_of_bindBad {b : BindP} (h : bindBad b = false) : 1 ≤ b.count := by
  simp only [bindBad, outside, Bool.or_eq_false_iff, decide_eq_false_iff_not] at h
  omega

/-- The commit of one extent of an exported window that lists none. -/
theorem State.commitBind_window {s : State} {h w i : Nat} {x : ExpWindow} (huse : (s.extent h).use = 2)
    (hwindow : (s.extent h).window = some (w, i)) (hfind : s.pool.windows.find w = some x) :
    (s.commitBind [h]).pool.windows.find w = some { x with extents := x.extents.put i h, size := max x.size (i + 1) } := by
  rw [State.commitBind_pool]
  simp only [List.foldl_cons, List.foldl_nil, State.bindOne, huse, hwindow]
  simp [State.upExtent, hfind]

theorem isFree_of_clean {e : Extent} (h : e.state = .freeClean) : isFree e = true := by simp [isFree, h]

theorem isFree_of_dirty {e : Extent} (h : e.state = .freeDirty) : isFree e = true := by simp [isFree, h]

/-- EXTENT_BIND of clean extents to slots commits at once (R282). -/
theorem extentBindBody_clean {s : State} {b : BindP} (huse : b.use = 0) (hbad : bindBad b = false) (htaken : s.bindTaken b = false)
    (hroom : s.slotCount + b.count ≤ 524288) (hinst : s.enabled b.inst = true)
    (hclean : ∀ k, k < b.count → (s.extent (b.handle + k)).state = .freeClean) :
    ∃ v, extentBindBody b s = .ok v ∧ v.pool.mem = s.pool.mem ∧
      ∀ k, k < b.count → (v.extent (b.handle + k)).state = .bound ∧ (v.extent (b.handle + k)).owner = .inst b.inst ∧
        (v.extent (b.handle + k)).slots = [(b.inst, b.firstSlot + k)] ∧ v.slotOf b.inst (b.firstSlot + k) = some (.local (b.handle + k)) := by
  have hentered (k : Nat) (hk : k < b.count) := State.extent_entered (b := b) (by omega) s hk
  have hpending (k : Nat) (hk : k < b.count) : ((s.entered b).extent (b.handle + k)).pending = [(b.inst, b.firstSlot + k)] := by
    simp [hentered k hk, enterBind, huse]
  have hb := extentBindBody_eq (.inl ⟨huse, hroom, hinst⟩) hbad htaken fun k hk => isFree_of_clean (hclean k hk)
  rw [State.windowed_private huse, bindAnswer_commits fun k hk => by rw [hentered k hk, enterBind_clean (hclean k hk)]; decide] at hb
  refine ⟨_, hb, by simp, fun k hk => ?_⟩
  rw [State.extent_commitBind _ hk]
  refine ⟨rfl, ?_, hpending k hk, State.slotOf_commitBind hpending hk⟩
  simp [hentered k hk, commitEntry, enterBind, bindOwner, huse]

/-- EXTENT_BIND of dirty extents to slots zeroes them first (R281, R282). -/
theorem extentBindBody_dirty {s : State} {b : BindP} (huse : b.use = 0) (hkeep : b.keep = false) (hbad : bindBad b = false)
    (htaken : s.bindTaken b = false) (hroom : s.slotCount + b.count ≤ 524288) (hinst : s.enabled b.inst = true)
    (hdirty : ∀ k, k < b.count → (s.extent (b.handle + k)).state = .freeDirty) :
    ∃ v, extentBindBody b s = .pend v (.bind (handleRange b.handle b.count)) ((handleRange b.handle b.count).map .extent) ∧
      v.pool.slots = s.pool.slots ∧
      ∀ k, k < b.count → (v.extent (b.handle + k)).state = .zeroing ∧
        (v.extent (b.handle + k)).slots = (s.extent (b.handle + k)).slots := by
  have hentered (k : Nat) (hk : k < b.count) := State.extent_entered (b := b) (by omega) s hk
  have hstate (k : Nat) (hk : k < b.count) : ((s.entered b).extent (b.handle + k)).state = .zeroing := by
    rw [hentered k hk, enterBind_dirty (hdirty k hk) hkeep]
  have hcount := one_le_of_bindBad hbad
  have hb := extentBindBody_eq (.inl ⟨huse, hroom, hinst⟩) hbad htaken fun k hk => isFree_of_dirty (hdirty k hk)
  rw [State.windowed_private huse, bindAnswer_waits hcount (hstate 0 hcount)] at hb
  exact ⟨_, hb, (State.entered_slots (by omega) s).1, fun k hk => ⟨hstate k hk, by rw [hentered k hk]; rfl⟩⟩

/-- EXTENT_BIND of one clean extent to an exported window that it creates (R274). -/
theorem extentBindBody_window {s : State} {b : BindP} (huse : b.use = 2) (hcount : b.count = 1) (hwindow : b.expWindow ≤ 4095)
    (hbad : bindBad b = false) (htaken : s.bindTaken b = false) (hclean : (s.extent b.handle).state = .freeClean)
    (hnew : s.pool.windows.find b.expWindow = none) :
    ∃ v, extentBindBody b s = .ok v ∧ (v.extent b.handle).state = .bound ∧ (v.extent b.handle).owner = .expWindow b.expWindow ∧
      v.pool.windows.find b.expWindow = some {
        key := b.key, readOnly := b.readOnly, access := b.access, extents := [(b.firstIndex, b.handle)], size := b.firstIndex + 1 } := by
  have hone (k : Nat) (hk : k < b.count) : b.handle + k = b.handle := by omega
  have hrange : handleRange b.handle b.count = [b.handle] := by simp [handleRange, hcount]
  have hb := extentBindBody_eq (.inr ⟨huse, hwindow⟩) hbad htaken fun k hk => by rw [hone k hk]; exact isFree_of_clean hclean
  have hfirst : (s.entered b).pool.windows.find b.expWindow = none := by rw [(State.entered_slots (by omega) s).2, hnew]
  have hextent : ((s.entered b).windowed b).extent b.handle = enterBind b (s.extent b.handle) 0 := by
    rw [State.windowed_new huse hfirst]
    exact State.extent_entered (by omega) s (by omega : 0 < b.count)
  have hfind : ((s.entered b).windowed b).pool.windows.find b.expWindow =
      some { key := b.key, readOnly := b.readOnly, access := b.access, extents := [] } := by
    rw [State.windowed_new huse hfirst]
    exact Tbl.find_put_self ..
  rw [bindAnswer_commits fun k hk => by rw [hone k hk, hextent, enterBind_clean hclean]; decide, hrange] at hb
  have hcommit := ((s.entered b).windowed b).extent_commitBind (handle := b.handle) (by omega : 0 < b.count)
  rw [hrange, Nat.add_zero, hextent] at hcommit
  refine ⟨_, hb, by rw [hcommit]; rfl, ?_, ?_⟩
  · simp [hcommit, commitEntry, enterBind, bindOwner, huse]
  · rw [State.commitBind_window (by rw [hextent]; exact huse) (by rw [hextent]; exact if_pos huse) hfind]
    simp [Tbl.put]

/-! ### Unbinding (R283) -/

theorem State.extent_fenceExtent_other (s : State) {h x : Nat} (hx : x ≠ h) : (s.fenceExtent h).extent x = s.extent x :=
  s.extent_upExtent_other (fun e => { e with fenced := true, releaseWait := [], slots := [], pending := [] }) hx

/-- What the request for an unbind marks in an extent: its stage, that it runs, and whether it zeroes. -/
def unbindMarks (e : Extent) : ExtState × Bool × Bool := (e.state, e.running, e.zeroAfter)

theorem State.unbindMarks_unbindExtent (s : State) (zero : Bool) (h : Nat) :
    unbindMarks ((s.unbindExtent zero h).extent h) = (if (s.extent h).state = .poisoned then .poisoned else .unbinding, true, zero) := by
  simp only [State.unbindExtent]
  split
  · simp [(State.fenceExtent_frame _ h).1, unbindMarks]
  · rw [State.extent_of_pool (foldl_emit_pool ..)]
    simp [unbindMarks]

theorem State.extent_unbindExtent_other (s : State) (zero : Bool) {h x : Nat} (hx : x ≠ h) :
    (s.unbindExtent zero h).extent x = s.extent x := by
  simp only [State.unbindExtent]
  split
  · rw [State.extent_fenceExtent_other _ hx, State.extent_upExtent_other _ _ hx]
  · rw [State.extent_of_pool (foldl_emit_pool ..), State.extent_upExtent_other _ _ hx, State.extent_upExtent_other _ _ hx]

theorem State.unbindMarks_foldl_unbindExtent {s : State} (zero : Bool) {handle count k : Nat} (hk : k < count)
    (hbound : (s.extent (handle + k)).state = .bound) :
    unbindMarks (((handleRange handle count).foldl (fun t h => t.unbindExtent zero h) s).extent (handle + k)) = (.unbinding, true, zero) := by
  rw [foldl_handleRange]
  refine (extent_foldl_range (φ := unbindMarks) (F := fun m _ => (if m.1 = .poisoned then .poisoned else .unbinding, true, zero))
    (fun t k => t.unbindMarks_unbindExtent ..) (fun t k x hx => t.extent_unbindExtent_other _ hx) s count k).trans ?_
  simp [hk, unbindMarks, hbound]

theorem extentUnbindBody_eq {s : State} (zero : Bool) {handle count : Nat} (hlow : 1 ≤ count) (hhigh : count ≤ 512)
    (hok : handlesOk handle count = true) (hbound : ∀ k, k < count → (s.extent (handle + k)).state = .bound) :
    extentUnbindBody handle count zero s = .pend ((handleRange handle count).foldl (fun t h => t.unbindExtent zero h) s)
      (.unbind (handleRange handle count) zero) ((handleRange handle count).map .extent) := by
  have hany : (handleRange handle count).any (fun h => (s.extent h).state != .bound && (s.extent h).state != .poisoned) = false :=
    any_handleRange_eq_false fun k hk => by simp [hbound k hk]
  refine refuseIf_none _ _ ?_
  simp [outside_eq_false hlow hhigh, hok, hany]

/-! ### Zeroing, imports, functions and the partition (R277, R280, R286, R287, R293) -/

theorem extentZeroBody_eq {s : State} {handle count : Nat} (hlow : 1 ≤ count) (hhigh : count ≤ 512) (hok : handlesOk handle count = true)
    (hdirty : ∀ k, k < count → (s.extent (handle + k)).state = .freeDirty) :
    extentZeroBody handle count s = .pend ((handleRange handle count).foldl (fun t h => t.upExtent h fun e => { e with state := .zeroing }) s)
      (.zeroing (handleRange handle count) 0) ((handleRange handle count).map .extent) := by
  have hany : (handleRange handle count).any (fun h => (s.extent h).state != .freeDirty) = false :=
    any_handleRange_eq_false fun k hk => by simp [hdirty k hk]
  refine refuseIf_none _ _ ?_
  simp [outside_eq_false hlow hhigh, hok, hany]

/-- What IMPORT_MAP writes (R277). -/
def importOf (m : ImportP) : Import :=
  { remoteDevice := m.remoteDevice, window := m.window, index := m.index, key := m.key, preColour := m.preColour, sl := m.sl }

/-- The parameters of IMPORT_MAP are in their ranges, and the function it maps for is there (R277, R295). -/
def State.importOk (s : State) (m : ImportP) : Prop :=
  m.inst ≤ 1023 ∧ m.slot ≤ 16383 ∧ m.window ≤ 4095 ∧ m.index ≤ 4095 ∧ m.preColour ≤ 1 ∧ m.sl ≤ 7 ∧ s.notFree m.inst = true

theorem State.importOk_passes {s : State} {m : ImportP} (h : s.importOk m) (r : HRes) :
    refuseIf [
      (decide (1023 < m.inst) || decide (16383 < m.slot) || decide (4095 < m.window) || decide (4095 < m.index) ||
        decide (1 < m.preColour) || decide (7 < m.sl), 0x011A),
      (!s.notFree m.inst, 0x0301)] r = r := by
  obtain ⟨hinst, hslot, hwindow, hindex, hcolour, hsl, hfree⟩ := h
  refine refuseIf_none _ _ ?_
  simp [hfree, Nat.not_lt.mpr hinst, Nat.not_lt.mpr hslot, Nat.not_lt.mpr hwindow, Nat.not_lt.mpr hindex, Nat.not_lt.mpr hcolour,
    Nat.not_lt.mpr hsl]

theorem importMapBody_map {s : State} {m : ImportP} (hok : s.importOk m) (hmap : m.map = true)
    (hempty : s.slotEmpty m.inst m.slot = true) (hroom : s.slotCount < 524288) :
    importMapBody m s = .ok (s.upPool fun p => { p with slots := p.slots.put (slotKey m.inst m.slot) (.import (importOf m)) }) := by
  rw [importMapBody, State.importOk_passes hok, if_pos hmap]
  exact refuseIf_none _ _ (by simp [hempty, hroom])

theorem importMapBody_unmap {s : State} {m : ImportP} {e : Import} (hok : s.importOk m) (hmap : m.map = false)
    (hslot : s.slotOf m.inst m.slot = some (.import e)) :
    importMapBody m s =
      if s.importBusy m.inst m.slot then
        .pend (s.upPool fun p => { p with slots := p.slots.del (slotKey m.inst m.slot) }) (.importUnmap m.inst m.slot) []
      else .ok (s.upPool fun p => { p with slots := p.slots.del (slotKey m.inst m.slot) }) := by
  rw [importMapBody, State.importOk_passes hok, if_neg (by simp [hmap]), hslot]

/-- A function that is changed keeps its name, and is found by it (R286). -/
theorem State.boundFn_upFn (s : State) {port rid : Nat} {f : BoundFn → BoundFn} (hport : ∀ x, (f x).port = x.port)
    (hrid : ∀ x, (f x).routingId = x.routingId) : (s.upFn port rid f).boundFn port rid = (s.boundFn port rid).map f :=
  find?_updFirst _ _ fun x hx => by simpa only [hport, hrid] using hx

/-- POOL_LINK_SET to a CXL host link, while no slot is mapped (R276, R295). -/
theorem poolLinkSetBody_eq {s : State} {link memInst releaseTimeout : Nat} (hinst : memInst ≤ 1023) (htimeout : releaseTimeout ≤ 60)
    (hfree : s.notFree memInst = true) (hlink : s.namesHostLink link = true) (hmode : (s.port link).mode = 4) (hslots : s.pool.slots = []) :
    poolLinkSetBody link memInst releaseTimeout s = .ok (s.upHostLink link fun l => { l with memInst := some memInst, releaseTimeout }) := by
  refine refuseIf_none _ _ ?_
  simp [hfree, hlink, hmode, hslots, Nat.not_lt.mpr hinst, Nat.not_lt.mpr htimeout]

/-- FUNCTION_BIND of an enumerated function to a virtual slot that is free (R286). -/
theorem functionBindBody_eq {s : State} {port rid link vslot : Nat} (hport : port ≤ 31) (hrid : rid ≤ 65535)
    (hlink : s.namesHostLink link = true) (hvslot : vslot ≤ 31) (hfree : s.boundFn port rid = none) (hstep : 4 ≤ (s.downOf port).step)
    (hfn : rid ∈ (s.downOf port).functions) (hvfree : ∀ f ∈ s.pool.functions, f.link ≠ link ∨ f.vslot ≠ vslot)
    (hroom : s.pool.functions.length < 256) :
    functionBindBody port rid link vslot s =
      .ok ((s.upPool fun p => { p with functions := p.functions ++ [{ port, routingId := rid, link, vslot }] }).upVslot link vslot fun _ =>
        { present := true }) := by
  have hany : s.pool.functions.any (fun f => f.link == link && f.vslot == vslot) = false :=
    List.any_eq_false.mpr fun f hf => by simpa [imp_iff_not_or] using hvfree f hf
  refine refuseIf_none _ _ ?_
  simp [hfree, hlink, hfn, hany, Nat.not_lt.mpr hport, Nat.not_lt.mpr hrid, Nat.not_lt.mpr hvslot, Nat.not_lt.mpr hstep,
    Nat.not_le.mpr hroom]

/-- FUNCTION_UNBIND of a function that is bound (R284, R287). -/
theorem functionUnbindBody_eq {s : State} {port rid : Nat} {f : BoundFn} (hfound : s.boundFn port rid = some f) :
    ∃ v, functionUnbindBody port rid s = .pend v (.functionUnbind port rid) [.function port rid] ∧
      (v.boundFn port rid).map (·.unbinding) = some (if (s.hostLink f.link).releaseTimeout = 0 then 2 else 1) ∧
      (v.pool.vslots.get (32 * f.link + f.vslot) {}).attention = true := by
  obtain ⟨rfl, rfl⟩ := State.name_of_boundFn hfound
  have hmarked : (s.upVslot f.link f.vslot fun v => { v with attention := true }).boundFn f.port f.routingId = some f := hfound
  refine ⟨_, by rw [functionUnbindBody, hfound], ?_, ?_⟩
  · split
    · change ((State.upFn _ f.port f.routingId fun x => { x with unbinding := 2, lateRelease := false }).boundFn _ _).map _ = _
      rw [State.boundFn_upFn, hmarked] <;> intros <;> rfl
    · rw [State.boundFn_upFn, hmarked] <;> intros <;> rfl
  · split <;> simp [State.resetFunction, State.upFn, State.upVslot]

/-- SLOT_REMOVE of a downstream port whose slot nothing uses: it ends with the port's record cleared (R289). -/
theorem slotRemoveBody_eq {s : State} {port : Nat} (hdown : s.isDownstream port = true) (hfree : s.slotInUse port = false) :
    ∃ t, slotRemoveBody port s = .ok (State.upDown t (s.leadPort port) fun d => { d with
      removing := false, step := 0, layout := [], functions := [], held := false, caching := false, isExpander := false }) :=
  ⟨_, (refuseIf_none _ _ (by simp [hdown, hfree])).trans rfl⟩

/-- HBM_PARTITION_SET while no region holds live contents (R293). -/
theorem hbmPartitionSetBody_eq {s : State} {directory matching heaps : Nat} (hd : directory ≤ 128) (hm : matching ≤ 32) (hh : heaps ≤ 64)
    (hidle : ∀ r, r < 5 → s.regionLive r = false) :
    ∃ keep, hbmPartitionSetBody directory matching heaps s = .ok (s.upPool fun p => { p with
      dirUnits := directory, mtcUnits := matching, heapUnits := heaps, extents := p.extents.keep keep }) := by
  have hlive (p : Nat → Bool) : ((List.range 5).any fun r => p r && s.regionLive r) = false :=
    List.any_eq_false.mpr fun r hr => by simp [hidle r (List.mem_range.mp hr)]
  refine ⟨_, (refuseIf_none _ _ ?_).trans rfl⟩
  simp only [hlive]
  simp [Nat.not_lt.mpr hd, Nat.not_lt.mpr hm, Nat.not_lt.mpr hh]

/-- Settles O18: each command by what its body answers on the state whose descriptor has been taken. -/
theorem poolCommandsComplete : Obligations.PoolCommandsComplete := by
  refine ⟨?linkSet, ?bindClean, ?bindDirty, ?bindWindow, ?unbind, ?importMap, ?importUnmap, ?zero, ?query, ?functionBind, ?functionUnbind,
    ?remove, ?partition⟩
  case linkSet =>
    intro s h link memInst releaseTimeout hr hinst htimeout hfree hlink hmode hslots
    obtain ⟨f, hf⟩ := s.fetchCmd_eq_upHly h
    have hb := poolLinkSetBody_eq (s := s.upHly f) hinst htimeout hfree hlink hmode hslots
    rw [← hf] at hb
    refine ⟨_, answers_of hr hb (Nat.zero_le _), ?_, ?_, ?_, fun l hl => ?_, ?_⟩
    · simp [State.hostLink, State.upHostLink]
    · simp [State.hostLink, State.upHostLink]
    · simp [State.hostLink, State.upHostLink]
    · simp [State.hostLink, State.upHostLink, Tbl.get_upd_ne _ hl]
    · simp
  case bindClean =>
    intro s h b huse hr hbad htaken hroom hinst hclean
    obtain ⟨f, hf⟩ := s.fetchCmd_eq_upHly h
    obtain ⟨v, hb, hv⟩ := extentBindBody_clean (s := s.upHly f) huse hbad htaken hroom hinst hclean
    rw [← hf] at hb
    exact ⟨v, answers_of (by simpa [huse] using hr) hb (Nat.zero_le _), hv⟩
  case bindDirty =>
    intro s h b huse hkeep hr hbad htaken hroom hinst hdirty
    obtain ⟨f, hf⟩ := s.fetchCmd_eq_upHly h
    obtain ⟨v, hb, hv⟩ := extentBindBody_dirty (s := s.upHly f) huse hkeep hbad htaken hroom hinst hdirty
    rw [← hf] at hb
    exact ⟨v, starts_of (by simpa [huse] using hr) hb, hv⟩
  case bindWindow =>
    intro s h b huse hcount hr hwindow hbad htaken hclean hnew
    obtain ⟨f, hf⟩ := s.fetchCmd_eq_upHly h
    obtain ⟨v, hb, hv⟩ := extentBindBody_window (s := s.upHly f) huse hcount hwindow hbad htaken hclean hnew
    rw [← hf] at hb
    exact ⟨v, answers_of (by simpa [huse, hcount, handleRange] using hr) hb (Nat.zero_le _), hv⟩
  case unbind =>
    intro s h handle count zero hr hlow hhigh hok hbound
    have hbound' : ∀ k, k < count → ((s.fetchCmd h).extent (handle + k)).state = .bound := by simpa using hbound
    have hb := extentUnbindBody_eq zero hlow hhigh hok hbound'
    refine ⟨_, starts_of hr hb, ?_, fun k hk => ?_⟩
    · rw [foldl_keeps_mem fun t k => t.unbindExtent_mem ..]; simp
    · have hmarks := State.unbindMarks_foldl_unbindExtent zero hk (hbound' k hk)
      simpa [unbindMarks] using hmarks
  case importMap =>
    intro s h m hr hinst hslot hwindow hindex hcolour hsl hfree hmap hempty hroom
    obtain ⟨f, hf⟩ := s.fetchCmd_eq_upHly h
    have hb := importMapBody_map (s := s.upHly f) ⟨hinst, hslot, hwindow, hindex, hcolour, hsl, hfree⟩ hmap hempty hroom
    rw [← hf] at hb
    exact ⟨_, answers_of hr hb (Nat.zero_le _), by simp [State.slotOf, importOf], by simp⟩
  case importUnmap =>
    intro s h m e hr hinst hslot hwindow hindex hcolour hsl hfree hmap hmapped
    obtain ⟨f, hf⟩ := s.fetchCmd_eq_upHly h
    have hb := importMapBody_unmap (s := s.upHly f) ⟨hinst, hslot, hwindow, hindex, hcolour, hsl, hfree⟩ hmap hmapped
    rw [show (s.upHly f).importBusy m.inst m.slot = s.importBusy m.inst m.slot from rfl, ← hf] at hb
    refine ⟨(s.fetchCmd h).upPool fun p => { p with slots := p.slots.del (slotKey m.inst m.slot) }, by simp [State.slotOf],
      fun hidle => ?_, fun hwaits => ?_⟩
    · exact answers_of hr (hb.trans (if_neg (by simp [hidle]))) (Nat.zero_le _)
    · exact starts_of hr (hb.trans (if_pos hwaits))
  case zero =>
    intro s h handle count hr hlow hhigh hok hdirty
    have hb := extentZeroBody_eq (s := s.fetchCmd h) hlow hhigh hok (by simpa using hdirty)
    refine ⟨_, starts_of hr hb, ?_, fun k hk => by rw [extent_foldl_upExtent _ hk]⟩
    rw [foldl_upExtent_slots, State.fetchCmd_pool]
  case query =>
    intro s h handle count hr hlow hhigh hok hlength
    exact answers_of hr ((refuseIf_none _ _ (by simp [outside_eq_false hlow hhigh, hok])).trans (by simp)) hlength
  case functionBind =>
    intro s h port routingId link vslot hr hport hrid hlink hvslot hfree hstep hfn hvfree hroom
    obtain ⟨f, hf⟩ := s.fetchCmd_eq_upHly h
    have hb := functionBindBody_eq (s := s.upHly f) hport hrid hlink hvslot hfree hstep hfn hvfree hroom
    rw [← hf] at hb
    exact ⟨_, answers_of hr hb (Nat.zero_le _), by simp [State.upVslot], by simp [State.upVslot]⟩
  case functionUnbind =>
    intro s h port routingId f hr hfound
    have hfound' : (s.fetchCmd h).boundFn port routingId = some f := by simpa [State.boundFn] using hfound
    obtain ⟨v, hb, hunbinding, hattention⟩ := functionUnbindBody_eq hfound'
    refine ⟨v, starts_of hr hb, ?_, hattention⟩
    rwa [show (s.fetchCmd h).hostLink f.link = s.hostLink f.link by simp [State.hostLink]] at hunbinding
  case remove =>
    intro s h port hr hdown hfree
    obtain ⟨f, hf⟩ := s.fetchCmd_eq_upHly h
    obtain ⟨t, hb⟩ := slotRemoveBody_eq (s := s.upHly f) hdown hfree
    rw [← hf] at hb
    refine ⟨_, answers_of hr hb (Nat.zero_le _), ?_⟩
    rw [show (s.fetchCmd h).leadPort port = s.leadPort port by rw [hf]; rfl, State.downOf_upDown_self]
    exact ⟨rfl, rfl, rfl⟩
  case partition =>
    intro s h directory matching heaps hr hd hm hh hidle
    obtain ⟨f, hf⟩ := s.fetchCmd_eq_upHly h
    obtain ⟨keep, hb⟩ := hbmPartitionSetBody_eq (s := s.upHly f) hd hm hh hidle
    rw [← hf] at hb
    exact ⟨_, answers_of hr hb (Nat.zero_le _), rfl, rfl, rfl, by simp⟩

end Sys2Proof.Machine
end

section
/-! SUPPORT. The lines of the directory: what an entry, a tracker and a snoop read after a change, how a tracker runs (R312, R315), and how
a request opens the tracker of an idle line. -/
namespace Sys2Proof.Machine

/-! ### Entries, trackers and snoops after a change (R302, R315, R316) -/

theorem State.dirEntry_of_entries {s t : State} (h : t.dir.entries = s.dir.entries) (x line : Nat) :
    t.dirEntry x line = s.dirEntry x line := by
  rw [State.dirEntry, h]; rfl

theorem State.tracker_of_trackers {s t : State} (h : t.dir.trackers = s.dir.trackers) (x line : Nat) :
    t.tracker x line = s.tracker x line := by
  rw [State.tracker, h]; rfl

theorem State.linePoisoned_of_entry {s t : State} {h line : Nat} (hpool : t.pool = s.pool) (hentry : t.dirEntry h line = s.dirEntry h line) :
    t.linePoisoned h line = s.linePoisoned h line := by
  rw [State.linePoisoned, State.extent_of_pool hpool, hentry]; rfl

@[simp] theorem State.dirEntry_setEntry (s : State) (h line : Nat) (e : DirEntry) : (s.setEntry h line e).dirEntry h line = e := by
  simp only [State.dirEntry, State.setEntry, State.upDir_dir]
  split
  next he => rw [he, Tbl.get_del_self]
  next => rw [Tbl.get_put_self]

/-- A line's tracker that is changed stays with its line. -/
@[simp] theorem State.tracker_upTracker (s : State) (h line : Nat) {f : Tracker → Tracker} (hhandle : ∀ t, (f t).handle = t.handle)
    (hline : ∀ t, (f t).line = t.line) : (s.upTracker h line f).tracker h line = (s.tracker h line).map f :=
  find?_updFirst _ _ (by simp [hhandle, hline])

@[simp] theorem State.dirEntry_bankTurn (s : State) (h line pos x y : Nat) : (s.bankTurn h line pos).dirEntry x y = s.dirEntry x y := rfl

@[simp] theorem State.tracker_bankTurn (s : State) (h line pos x y : Nat) : (s.bankTurn h line pos).tracker x y = s.tracker x y := rfl

@[simp] theorem State.bankTurn_out (s : State) (h line pos : Nat) : (s.bankTurn h line pos).out = s.out := rfl

@[simp] theorem State.dirEntry_emit (s : State) (o : Out) (x y : Nat) : (s.emit o).dirEntry x y = s.dirEntry x y := rfl

@[simp] theorem State.tracker_emit (s : State) (o : Out) (x y : Nat) : (s.emit o).tracker x y = s.tracker x y := rfl

@[simp] theorem State.setEntry_out (s : State) (h line : Nat) (e : DirEntry) : (s.setEntry h line e).out = s.out := rfl

@[simp] theorem State.upTracker_out (s : State) (h line : Nat) (f : Tracker → Tracker) : (s.upTracker h line f).out = s.out := rfl

theorem updFirst_of_find?_none {α : Type} {p : α → Bool} {l : List α} (h : l.find? p = none) (f : α → α) : updFirst p f l = l := by
  induction l with
  | nil => rfl
  | cons x l ih =>
    rw [List.find?_cons] at h
    split at h
    next => cases h
    next hx => simp [updFirst, hx, ih h]

/-- Where a line has no tracker, there is none to change. -/
theorem State.upTracker_none {s : State} {h line : Nat} (ht : s.tracker h line = none) (f : Tracker → Tracker) :
    s.upTracker h line f = s := by
  rw [State.upTracker, State.upDir, updFirst_of_find?_none ht]

theorem State.snoopOf_none {s : State} {h line : Nat} (ht : s.tracker h line = none) (a : Nat) : s.snoopOf h line a = none := by
  rw [State.snoopOf, ht]; rfl

/-- A snoop that is changed stays with its agent. -/
theorem State.snoopOf_upSnoop (s : State) (h line a : Nat) {f : Snoop → Snoop} (hagent : ∀ n, (f n).agent = n.agent) :
    (s.upSnoop h line a f).snoopOf h line a = (s.snoopOf h line a).map f := by
  have ht := s.tracker_upTracker h line (f := fun t => { t with snoops := updFirst (fun n => n.agent == a) f t.snoops })
    (fun _ => rfl) (fun _ => rfl)
  rw [State.snoopOf, State.upSnoop, ht, State.snoopOf]
  cases s.tracker h line with
  | none => rfl
  | some t => exact find?_updFirst _ _ (by simp [hagent])

theorem State.snoopOf_of_trackers {s t : State} (h : t.dir.trackers = s.dir.trackers) (x line a : Nat) :
    t.snoopOf x line a = s.snoopOf x line a := by
  rw [State.snoopOf, State.tracker_of_trackers h]; rfl

/-- Acknowledging conflicts changes, of the directory, the conflicts that wait alone (R309). -/
theorem State.settleAcks_dir (s : State) : ∃ l, s.settleAcks.dir = { s.dir with acks := l } :=
  ⟨_, foldl_keeps State.dir (g := fun s (k : Nat × Nat × Nat) => s.emit (.conflictAck k.1 k.2.1 k.2.2)) (fun _ _ => rfl) _ _⟩

theorem State.settleAcks_frame (s : State) :
    let u := s.settleAcks
    u.dir.trackers = s.dir.trackers ∧ u.dir.entries = s.dir.entries ∧ u.dir.timedOut = s.dir.timedOut ∧
      u.dir.intStatus = s.dir.intStatus := by
  obtain ⟨l, hl⟩ := s.settleAcks_dir
  simp [hl]

theorem State.settleAcks_none {s : State} (h : s.dir.acks = []) : s.settleAcks = s := by
  have hacks : { s.dir with acks := [] } = s.dir := by rw [← h]
  simp only [State.settleAcks, h, List.filter_nil, List.foldl_nil, State.upDir, hacks]

/-! ### A tracker runs (R312, R315) -/

/-- The line's tracker is freed. -/
def State.freeLine (s : State) (h line : Nat) : State :=
  s.upDir fun d => { d with trackers := d.trackers.filter fun x => !(x.handle == h && x.line == line) }

@[simp] theorem State.dirEntry_freeLine (s : State) (h line x y : Nat) : (s.freeLine h line).dirEntry x y = s.dirEntry x y := rfl

@[simp] theorem State.freeLine_out (s : State) (h line : Nat) : (s.freeLine h line).out = s.out := rfl

@[simp] theorem State.tracker_freeLine (s : State) (h line : Nat) : (s.freeLine h line).tracker h line = none := by
  rw [State.tracker, List.find?_eq_none]
  intro x hx
  have hkept := (List.mem_filter.mp hx).2
  simpa [imp_iff_not_or] using hkept

/-- A tracker's snoops are final, no write of its line is outstanding, and nothing waits behind it: it acts, and its line is then free. -/
structure Tracker.Acts (t : Tracker) : Prop where
  started : t.started = true
  snoops : t.snoops = []
  writes : t.writes = 0
  reading : t.reading = false
  writing : t.writing = false
  queue : t.queue = []

/-- A tracker that acts issues a read or a write, or ends. -/
theorem State.trackRun_acts {s : State} {h line : Nat} {t : Tracker} (ht : s.tracker h line = some t) (hacts : t.Acts) (n : Nat) :
    s.trackRun h line (n + 1) = if (s.trackAct t).1 then (s.trackAct t).2.freeLine h line else (s.trackAct t).2 := by
  obtain ⟨hstarted, hsnoops, hwrites, hreading, hwriting, hqueue⟩ := hacts
  simp only [State.trackRun, ht, hstarted, hsnoops, hwrites, hreading, hwriting]
  rcases s.trackAct t with ⟨_ | _, u⟩ <;> simp [hqueue, State.freeLine]

theorem State.runLine_acts {s : State} {h line : Nat} {t : Tracker} (ht : s.tracker h line = some t) (hacts : t.Acts) :
    s.runLine h line = if (s.trackAct t).1 then (s.trackAct t).2.freeLine h line else (s.trackAct t).2 := by
  rw [State.runLine, ht]
  exact State.trackRun_acts ht hacts _

theorem State.runLine_none {s : State} {h line : Nat} (ht : s.tracker h line = none) : s.runLine h line = s := by
  rw [State.runLine, ht]; rfl

/-- A tracker that has not started sends its snoops first. -/
theorem State.trackRun_starts {s : State} {h line : Nat} {t : Tracker} (ht : s.tracker h line = some t) (hnew : t.started = false) (n : Nat) :
    s.trackRun h line (n + 1) = (s.trackStart t).trackRun h line n := by
  simp [State.trackRun, ht, hnew]

/-! ### A request takes the tracker of an idle line (R312, R315) -/

/-- A line is idle and its bank has room: no tracker is on it, its entry passes its check, and the bank has a tracker free. -/
structure State.LineIdle (s : State) (h line : Nat) : Prop where
  tracker : s.tracker h line = none
  entry : lineKey h line ∉ s.dir.badEntries
  room : s.bankTrackers (s.logicalBank h line) < 256

/-- The tracker of a line that takes `k`, when it has started and called for no snoop. -/
def startedOn (h line : Nat) (k : TrackKind) : Tracker := { handle := h, line, kind := k, started := true }

theorem startedOn_acts (h line : Nat) (k : TrackKind) : (startedOn h line k).Acts := ⟨rfl, rfl, rfl, rfl, rfl, rfl⟩

/-- What a line's tracker takes calls for no snoop (R312). -/
def State.NoSnoops (s : State) (h line : Nat) : TrackKind → Prop
  | .request r => r.op ≠ .rdAny ∧ snoopsFor r (s.dirEntry h line) = []
  | .evict _ => True
  | _ => False

/-- The state `u` comes from `s` by work of the directory on its trackers alone, with the tracker `t` on the line. -/
structure State.OnLine (s u : State) (h line : Nat) (t : Tracker) : Prop where
  tracker : u.tracker h line = some t
  entries : u.dir.entries = s.dir.entries
  pool : u.pool = s.pool
  out : u.out = s.out

theorem State.OnLine.dirEntry {s u : State} {h line : Nat} {t : Tracker} (o : s.OnLine u h line t) :
    u.dirEntry h line = s.dirEntry h line :=
  State.dirEntry_of_entries o.entries ..

theorem State.OnLine.linePoisoned {s u : State} {h line : Nat} {t : Tracker} (o : s.OnLine u h line t) :
    u.linePoisoned h line = s.linePoisoned h line :=
  State.linePoisoned_of_entry o.pool o.dirEntry

/-- A tracker that calls for no snoop has its snoops done as it starts. -/
theorem State.trackStart_noSnoops {s : State} {h line : Nat} {k : TrackKind} (ht : s.tracker h line = some { handle := h, line, kind := k })
    (hentry : lineKey h line ∉ s.dir.badEntries) (hquiet : s.NoSnoops h line k) :
    s.OnLine (s.trackStart { handle := h, line, kind := k }) h line (startedOn h line k) := by
  have hgood : (s.touchEntry h line).dir.badEntries.contains (lineKey h line) = false := by simpa [State.touchEntry] using hentry
  have htouch : (s.touchEntry h line).tracker h line = some { handle := h, line, kind := k } := ht
  cases k with
  | evict a =>
    simp only [State.trackStart, hgood, Bool.false_eq_true, if_false, List.map_nil, List.foldl_nil]
    exact ⟨by simp [htouch, startedOn], rfl, rfl, rfl⟩
  | request r =>
    obtain ⟨hop, hnone⟩ := hquiet
    have hsnoops : snoopsFor r ((s.touchEntry h line).dirEntry h line) = [] := hnone
    simp only [State.trackStart, hgood, Bool.false_eq_true, if_false, hop, hsnoops, ite_self, List.map_nil, List.foldl_nil]
    exact ⟨by simp [htouch, startedOn], rfl, rfl, rfl⟩
  | _ => exact hquiet.elim

/-- The tracker that takes `k` is put on the line; a bank that has none left then says so (R315, R327). -/
def State.tracked (s : State) (h line : Nat) (k : TrackKind) : State :=
  let t := s.upDir fun d => { d with trackers := d.trackers ++ [{ handle := h, line, kind := k }] }
  if t.bankTrackers (s.logicalBank h line) = 256 then t.upDir fun d => { d with intStatus := setFlag d.intStatus 5 } else t

theorem State.onLine_tracked {s : State} {h line : Nat} (ht : s.tracker h line = none) (k : TrackKind) :
    s.OnLine (s.tracked h line k) h line { handle := h, line, kind := k } := by
  have htrackers : (s.tracked h line k).dir.trackers = s.dir.trackers ++ [{ handle := h, line, kind := k }] := by
    simp only [State.tracked]; split <;> rfl
  refine ⟨?_, ?_, ?_, ?_⟩
  · rw [State.tracker, htrackers, List.find?_append, show s.dir.trackers.find? _ = none from ht]
    simp
  all_goals simp only [State.tracked]; split <;> rfl

theorem State.tracked_badEntries (s : State) (h line : Nat) (k : TrackKind) : (s.tracked h line k).dir.badEntries = s.dir.badEntries := by
  simp only [State.tracked]; split <;> rfl

/-- A request to an idle line that calls for no snoop: its tracker acts at once. -/
theorem State.dirRequest_idle {s : State} {h line : Nat} {k : TrackKind} (hidle : s.LineIdle h line) (hquiet : s.NoSnoops h line k)
    (who : Option Nat) (again : Instr) :
    ∃ u, s.OnLine u h line (startedOn h line k) ∧
      s.dirRequest h line who k again = (u.trackRun h line 5).bankTurn h line (who.getD 64) := by
  obtain ⟨ht, hentry, hroom⟩ := hidle
  have hwait : s.endWbWait h line who = s := by
    cases who with
    | none => rfl
    | some a => simp [State.endWbWait, State.snoopOf_none ht]
  have htake : s.takeRequest h line k = (true, (s.tracked h line k).runLine h line) := by
    simp only [State.takeRequest, ht, hroom, if_true]
    rfl
  have hon := State.onLine_tracked ht k
  have hquiet' : (s.tracked h line k).NoSnoops h line k := by
    cases k with
    | request r => rwa [State.NoSnoops, hon.dirEntry]
    | _ => exact hquiet
  have hstart := State.trackStart_noSnoops hon.tracker (by rwa [State.tracked_badEntries]) hquiet'
  refine ⟨_, ⟨hstart.tracker, hstart.entries.trans hon.entries, hstart.pool.trans hon.pool, hstart.out.trans hon.out⟩, ?_⟩
  simp only [State.dirRequest, hwait, htake]
  rw [State.runLine, hon.tracker]
  exact congrArg (fun x : State => x.bankTurn h line (who.getD 64)) (State.trackRun_starts hon.tracker rfl 5)

/-! ### A recall that is over (R320) -/

theorem State.closeRecall_frame (s : State) (id : Nat) :
    let u := s.closeRecall id
    u.dir.recalls = s.dir.recalls.filter (fun x => x.id ≠ id) ∧ u.dir.intStatus = setFlag s.dir.intStatus 4 ∧
      u.dir.entries = s.dir.entries ∧ u.dir.windows = s.dir.windows := by
  simp [State.closeRecall]

end Sys2Proof.Machine
end

section
/-! SUPPORT. The commands of the directory: what mapping a window leaves of the slots, what a recall that finds no line cached leaves, what
each body answers, and the statement about all of them. -/
namespace Sys2Proof.Machine

/-! ### The extents of a window mapped in window order (R300) -/

/-- The extents of a window with their places in it. -/
def windowPairs (l : List Nat) : List (Nat × Nat) := (List.range l.length).zip l

theorem windowPairs_concat (l : List Nat) (e : Nat) : windowPairs (l ++ [e]) = windowPairs l ++ [(l.length, e)] := by
  rw [windowPairs, List.length_append, List.length_singleton, List.range_succ, List.zip_append (by simp)]
  rfl

theorem any_windowPairs_eq_false {p : Nat × Nat → Bool} {l : List Nat} (h : ∀ k e, l[k]? = some e → p (k, e) = false) :
    (windowPairs l).any p = false := by
  rw [List.any_eq_false]
  intro x hx
  obtain ⟨i, hi⟩ := List.mem_iff_getElem?.mp hx
  obtain ⟨hplace, hextent⟩ : (List.range l.length)[i]? = some x.1 ∧ l[i]? = some x.2 := by
    simpa [windowPairs, List.getElem?_zip_eq_some] using hi
  obtain ⟨_, hplace⟩ := List.getElem?_eq_some_iff.mp hplace
  rw [List.getElem_range] at hplace
  simpa using h x.1 x.2 (hplace ▸ hextent)

/-- Every extent of a window mapped, in window order, from a first slot on. -/
def State.mapWindow (s : State) (inst first : Nat) (l : List Nat) : State :=
  (windowPairs l).foldl (fun s x => s.mapCoherent inst (first + x.1) x.2) s

/-- Every slot of a window's mapping removed. -/
def State.unmapWindow (s : State) (inst first : Nat) (l : List Nat) : State :=
  (windowPairs l).foldl (fun s x => s.unmapCoherent inst (first + x.1) x.2) s

theorem State.mapWindow_concat (s : State) (inst first : Nat) (l : List Nat) (e : Nat) :
    s.mapWindow inst first (l ++ [e]) = (s.mapWindow inst first l).mapCoherent inst (first + l.length) e := by
  rw [State.mapWindow, windowPairs_concat, List.foldl_concat]; rfl

theorem State.unmapWindow_concat (s : State) (inst first : Nat) (l : List Nat) (e : Nat) :
    s.unmapWindow inst first (l ++ [e]) = (s.unmapWindow inst first l).unmapCoherent inst (first + l.length) e := by
  rw [State.unmapWindow, windowPairs_concat, List.foldl_concat]; rfl

@[simp] theorem State.mapWindow_mem (s : State) (inst first : Nat) (l : List Nat) : (s.mapWindow inst first l).pool.mem = s.pool.mem :=
  foldl_keeps_mem (fun _ _ => State.mapCoherent_mem ..) _ s

@[simp] theorem State.unmapWindow_mem (s : State) (inst first : Nat) (l : List Nat) : (s.unmapWindow inst first l).pool.mem = s.pool.mem :=
  foldl_keeps_mem (fun _ _ => State.unmapCoherent_mem ..) _ s

@[simp] theorem State.mapWindow_dir (s : State) (inst first : Nat) (l : List Nat) : (s.mapWindow inst first l).dir = s.dir := by
  refine foldl_keeps State.dir (fun t x => ?_) _ s
  simp only [State.mapCoherent]
  split <;> rfl

theorem slotKey_right_inj {inst a b : Nat} : slotKey inst a = slotKey inst b ↔ a = b := by
  simp [slotKey]

theorem State.extent_upPool_slots (s : State) (f : Pool → Tbl Slot) (x : Nat) :
    (s.upPool fun p => { p with slots := f p }).extent x = s.extent x := rfl

theorem State.slotsValid_upExtent {f : Extent → Extent} (hf : ∀ e, slotsValid (f e) = slotsValid e) (s : State) (h x : Nat) :
    slotsValid ((s.upExtent h f).extent x) = slotsValid (s.extent x) := by
  by_cases hx : x = h
  · rw [hx, State.extent_upExtent_self, hf]
  · rw [State.extent_upExtent_other _ _ hx]

theorem State.slotsValid_mapCoherent (s : State) (inst slot h x : Nat) :
    slotsValid ((s.mapCoherent inst slot h).extent x) = slotsValid (s.extent x) := by
  rw [State.mapCoherent]
  split
  · rw [State.extent_upPool_slots]
    exact State.slotsValid_upExtent (f := fun e => { e with slots := e.slots ++ [(inst, slot)] }) (fun _ => rfl) s h x
  · exact State.slotsValid_upExtent (f := fun e => { e with pending := e.pending ++ [(inst, slot)] }) (fun _ => rfl) s h x

theorem State.slotsValid_mapWindow (s : State) (inst first : Nat) (l : List Nat) (x : Nat) :
    slotsValid ((s.mapWindow inst first l).extent x) = slotsValid (s.extent x) :=
  foldl_keeps (g := fun t (y : Nat × Nat) => t.mapCoherent inst (first + y.1) y.2) (fun t => slotsValid (t.extent x))
    (fun t y => t.slotsValid_mapCoherent inst (first + y.1) y.2 x) (windowPairs l) s

/-- An extent whose slots are valid is mapped at once, and no other slot changes. -/
theorem State.slotOf_mapCoherent {s : State} {h : Nat} (hvalid : slotsValid (s.extent h) = true) (inst slot x : Nat) :
    (s.mapCoherent inst slot h).slotOf inst x = if x = slot then some (.local h) else s.slotOf inst x := by
  rw [State.mapCoherent, if_pos hvalid, State.slotOf]
  simp only [State.upPool_pool, Tbl.find_put, slotKey_right_inj]
  rfl

theorem State.slotOf_unmapCoherent (s : State) (inst slot h x : Nat) :
    (s.unmapCoherent inst slot h).slotOf inst x = if x = slot then none else s.slotOf inst x := by
  rw [State.unmapCoherent, State.slotOf]
  simp only [State.upPool_pool, Tbl.find_del, slotKey_right_inj]
  rfl

/-- After the mapping, slot `k` of the window's range holds the window's extent `k`. -/
theorem State.slotOf_mapWindow {s : State} {l : List Nat} (hvalid : ∀ e ∈ l, slotsValid (s.extent e) = true) (inst first : Nat) {k e : Nat}
    (hk : l[k]? = some e) : (s.mapWindow inst first l).slotOf inst (first + k) = some (.local e) := by
  induction l using List.reverseRecOn with
  | nil => simp at hk
  | append_singleton l d ih =>
    rw [State.mapWindow_concat, State.slotOf_mapCoherent (by rw [State.slotsValid_mapWindow]; exact hvalid d (by simp))]
    by_cases hlast : k = l.length
    · subst hlast
      simpa using hk
    · rw [if_neg (by omega)]
      refine ih (fun x hx => hvalid x (by simp [hx])) ?_
      have hlt : k < (l ++ [d]).length := (List.getElem?_eq_some_iff.mp hk).1
      rwa [List.getElem?_append_left (by simp at hlt; omega)] at hk

/-- After the mapping is removed, the slots of the window's range are empty. -/
theorem State.slotOf_unmapWindow (s : State) (inst first : Nat) (l : List Nat) {k : Nat} (hk : k < l.length) :
    (s.unmapWindow inst first l).slotOf inst (first + k) = none := by
  induction l using List.reverseRecOn with
  | nil => simp at hk
  | append_singleton l d ih =>
    rw [State.unmapWindow_concat, State.slotOf_unmapCoherent]
    split
    · rfl
    next hne => exact ih (by simp at hk; omega)

/-! ### A recall that finds no line cached (R320) -/

/-- A recall of lines that agents hold, listed while no line is held: it has nothing to do. -/
def State.recallListed (s : State) (handles agents : List Nat) : State :=
  s.upDir fun d => { d with
    recallCount := s.dir.recallCount + 1
    recalls := d.recalls ++ [{ id := s.dir.recallCount, handles, agents, poison := false, todo := [] }] }

theorem State.startRecall_idle {s : State} (hentries : s.dir.entries = []) (handles agents : List Nat) :
    s.startRecall handles agents false = (s.dir.recallCount, s.recallListed handles agents) := by
  simp [State.startRecall, hentries, State.recallListed]

theorem State.recallListed_ended {s : State} (htrackers : s.dir.trackers = []) (handles agents : List Nat) :
    (s.recallListed handles agents).dir.recalls.any
      (fun r => r.id == s.dir.recallCount && (s.recallListed handles agents).recallEnded r) = true := by
  simp [State.recallListed, State.recallEnded, htrackers]

/-- A command that recalls while the directory holds no entry and no tracker completes at once, with every window as it was. -/
theorem State.recallOrWait_idle {s : State} (hentries : s.dir.entries = []) (htrackers : s.dir.trackers = []) (handles agents : List Nat)
    (holds : List Obj) (over_ : State → State) :
    ∃ t, s.recallOrWait handles agents holds over_ = .ok (over_ t) ∧ t.dir.windows = s.dir.windows := by
  obtain ⟨-, -, -, hwindows⟩ := (s.recallListed handles agents).closeRecall_frame s.dir.recallCount
  refine ⟨_, ?_, hwindows⟩
  simp only [State.recallOrWait, State.startRecall_idle hentries, State.recallListed_ended htrackers, if_true]

/-! ### What the bodies answer -/

theorem cohAgentAddBody_ok {s : State} {agent kind port : Nat} (hagent : agent ≤ 63) (hkind : kind ≤ 1) (hport : port ≤ 31)
    (hfits : s.agentPort kind port = true) (hroom : s.dir.agents.length < 64)
    (hnew : ∀ a ∈ s.dir.agents, a.1 ≠ agent ∧ a.2.port ≠ port) :
    cohAgentAddBody agent kind port s = .ok (s.upDir fun d => { d with agents := d.agents.put agent { kind, port } }) := by
  have hany : s.dir.agents.any (fun a => a.1 == agent || a.2.port == port) = false :=
    List.any_eq_false.mpr fun a ha => by simpa using hnew a ha
  refine refuseIf_none _ _ ?_
  simp [hfits, hany, Nat.not_lt.mpr hagent, Nat.not_lt.mpr hkind, Nat.not_lt.mpr hport, Nat.not_le.mpr hroom]

/-- COH_AGENT_REMOVE of an agent that no window names, while nothing is cached. -/
theorem cohAgentRemoveBody_ok {s : State} {agent : Nat} (hagent : agent ≤ 63) (hhas : s.dir.agents.has agent = true)
    (hnamed : ∀ w ∈ s.dir.windows, w.2.mask.getLsbD agent = false) (hentries : s.dir.entries = []) (htrackers : s.dir.trackers = []) :
    ∃ t : State, cohAgentRemoveBody agent s = .ok (t.upDir fun d => { d with agents := d.agents.del agent }) ∧ t.dir.windows = s.dir.windows := by
  have hany : s.dir.windows.any (fun w => w.2.mask.getLsbD agent) = false :=
    List.any_eq_false.mpr fun w hw => by simp [hnamed w hw]
  obtain ⟨t, hrecall, hwindows⟩ := State.recallOrWait_idle (s := s.upDir fun d => { d with
    agents := d.agents.upd agent { kind := 0, port := 0 } fun a => { a with removing := true } }) hentries htrackers s.allCoherent [agent]
    [.agent agent] fun s => s.upDir fun d => { d with agents := d.agents.del agent }
  refine ⟨t, (refuseIf_none _ _ ?_).trans hrecall, hwindows⟩
  simp [hhas, hany, Nat.not_lt.mpr hagent]

theorem cohWindowCreateBody_ok {s : State} {window mask : Nat} (hwindow : window ≤ 255) (hmask : mask < 2 ^ 64)
    (hgood : s.maskBad mask = false) (hnew : s.dir.windows.has window = false) :
    cohWindowCreateBody window mask s =
      .ok (s.upDir fun d => { d with windows := d.windows.put window { mask := BitVec.ofNat 64 mask } }) := by
  refine refuseIf_none _ _ ?_
  simpa [hgood, hnew, Nat.not_lt.mpr hwindow] using hmask

theorem Tbl.get_of_find {α : Type} {t : Tbl α} {k : Nat} {a : α} (h : t.find k = some a) (d : α) : t.get k d = a := by
  rw [Tbl.get, h]; rfl

theorem Tbl.has_of_find {α : Type} {t : Tbl α} {k : Nat} {a : α} (h : t.find k = some a) : t.has k = true := by
  rw [Tbl.has, h]; rfl

/-- COH_WINDOW_AGENTS, while nothing is cached: the new mask stands, and the recall of cleared agents ends at once. -/
theorem cohWindowAgentsBody_ok {s : State} {window mask : Nat} {w : CohWindow} (hwindow : window ≤ 255) (hmask : mask < 2 ^ 64)
    (hgood : s.maskBad mask = false) (hfind : s.dir.windows.find window = some w) (hentries : s.dir.entries = [])
    (htrackers : s.dir.trackers = []) :
    ∃ t, cohWindowAgentsBody window mask s = .ok t ∧ t.dir.windows = s.dir.windows.put window { w with mask := BitVec.ofNat 64 mask } := by
  let u := s.upDir fun d => { d with windows := d.windows.put window { w with mask := BitVec.ofNat 64 mask } }
  let cleared := (List.range 64).filter fun a => w.mask.getLsbD a && !mask.testBit a
  have hbody : cohWindowAgentsBody window mask s =
      if cleared.isEmpty then .ok u else u.recallOrWait w.extents cleared [.window window] id := by
    rw [cohWindowAgentsBody, Tbl.get_of_find hfind]
    refine refuseIf_none _ _ ?_
    simpa [hgood, Tbl.has_of_find hfind, Nat.not_lt.mpr hwindow] using hmask
  rw [hbody]
  split
  · exact ⟨u, rfl, rfl⟩
  · exact State.recallOrWait_idle (s := u) hentries htrackers w.extents cleared [.window window] id

theorem cohWindowMapBody_map {s : State} {window inst first : Nat} {w : CohWindow} (hfirst : first ≤ 16383)
    (hfits : first + w.extents.length ≤ 16384) (hfind : s.dir.windows.find window = some w)
    (hempty : ∀ k, k < w.extents.length → s.slotEmpty inst (first + k) = true) (hinsts : (s.windowInsts window).length < 64)
    (hroom : s.slotCount + w.extents.length ≤ 524288) (henabled : s.enabled inst = true) :
    cohWindowMapBody window inst first true s = .ok ((s.upDir fun d => { d with
      windows := d.windows.put window { w with maps := w.maps ++ [(inst, first)] } }).mapWindow inst first w.extents) := by
  have hany : (windowPairs w.extents).any (fun x => !s.slotEmpty inst (first + x.1)) = false :=
    any_windowPairs_eq_false fun k e hk => by simp [hempty k (List.getElem?_eq_some_iff.mp hk).1]
  rw [windowPairs] at hany
  rw [cohWindowMapBody, Tbl.get_of_find hfind]
  refine (refuseIf_none _ _ ?_).trans rfl
  simp [hany, Tbl.has_of_find hfind, henabled, Nat.not_lt.mpr hfirst, Nat.not_lt.mpr hfits, Nat.not_le.mpr hinsts, Nat.not_lt.mpr hroom]

theorem cohWindowMapBody_unmap {s : State} {window inst first : Nat} {w : CohWindow} (hfirst : first ≤ 16383)
    (hfits : first + w.extents.length ≤ 16384) (hfind : s.dir.windows.find window = some w) (henabled : s.enabled inst = true)
    (hmapped : ∀ k e, w.extents[k]? = some e → (inst, first + k) ∈ (s.extent e).slots) :
    cohWindowMapBody window inst first false s = .ok ((s.upDir fun d => { d with
      windows := d.windows.put window { w with maps := w.maps.filter (· ≠ (inst, first)) } }).unmapWindow inst first w.extents) := by
  have hany : (windowPairs w.extents).any (fun x =>
      !((s.extent x.2).slots ++ (s.extent x.2).pending).contains (inst, first + x.1)) = false :=
    any_windowPairs_eq_false fun k e hk => by simp [hmapped k e hk]
  rw [windowPairs] at hany
  rw [cohWindowMapBody, Tbl.get_of_find hfind]
  refine (refuseIf_none _ _ ?_).trans rfl
  simp only [hany]
  simp [Tbl.has_of_find hfind, henabled, Nat.not_lt.mpr hfirst, Nat.not_lt.mpr hfits]

theorem cohWindowDestroyBody_ok {s : State} {window : Nat} {w : CohWindow} (hfind : s.dir.windows.find window = some w)
    (hempty : w.extents = []) :
    cohWindowDestroyBody window s = .ok (s.upDir fun d => { d with windows := d.windows.del window }) := by
  refine refuseIf_none _ _ ?_
  simp [Tbl.has_of_find hfind, Tbl.get_of_find hfind, hempty]

theorem dirSetBody_ok {s : State} {cm snoopTimeout : Nat} (scrubEnable : Bool) (hlow : 1 ≤ snoopTimeout) (hhigh : snoopTimeout ≤ 10000) :
    dirSetBody cm snoopTimeout scrubEnable s = .ok (s.upDir fun d => { d with
      snoopTimeout := pick cm 0 snoopTimeout d.snoopTimeout, scrub := pick cm 1 scrubEnable d.scrub }) :=
  refuseIf_none _ _ (by simp [outside_eq_false hlow hhigh])

/-- What DIR_QUERY returns of a line that no tracker holds, with a check byte (R302, R594). -/
def State.lineImage (s : State) (e lineIndex check : Nat) : List Nat :=
  outBytes [(8, (s.dirEntry e lineIndex).sharers.toNat),
    (7, lineStateNum (s.dirEntry e lineIndex).state + 4 * b2n ((s.dirEntry e lineIndex).poisoned ||
      ((s.dirEntry e lineIndex).state == .invalid && s.linePoisoned e lineIndex))), (1, check), (1, b2n (s.cachedEntry e lineIndex)), (4, 0),
    (1, 0), (4, 0)]

theorem dirQueryBody_idle {s : State} {window extentIndex lineIndex e : Nat} {w : CohWindow} (hwindow : window ≤ 255)
    (hline : lineIndex < extentLines) (hfind : s.dir.windows.find window = some w) (he : w.extents[extentIndex]? = some e)
    (ht : s.tracker e lineIndex = none) :
    dirQueryBody window extentIndex lineIndex s = .data s.fresh.2 (s.lineImage e lineIndex (s.fresh.1 % 256)) := by
  have ht' : s.fresh.2.tracker e lineIndex = none := ht
  simp only [dirQueryBody, Tbl.get_of_find hfind, he]
  rw [refuseIf_none _ _ (by simp [Tbl.has_of_find hfind, Nat.not_lt.mpr hwindow, Nat.not_le.mpr hline])]
  simp only [ht']
  rfl

/-! ### The statement -/

/-- Settles O20: each command by what its body answers on the state whose descriptor has been taken. -/
theorem directoryCommandsComplete : Obligations.DirectoryCommandsComplete := by
  refine ⟨?add, ?remove, ?create, ?agents, ?map, ?unmap, ?destroy, ?set, ?query⟩
  case add =>
    intro s h agent kind port hr hagent hkind hport hfits hroom hnew
    obtain ⟨f, hv⟩ := answers_taken hr fun f => cohAgentAddBody_ok (s := s.upHly f) hagent hkind hport hfits hroom hnew
    exact ⟨_, hv, by simp, fun a ha => by simp [Tbl.find_put, ha], rfl⟩
  case remove =>
    intro s h agent hr hagent hhas hnamed hentries htrackers
    obtain ⟨t, hb, hwindows⟩ := cohAgentRemoveBody_ok (s := s.fetchCmd h) hagent (by simpa using hhas) (by simpa using hnamed)
      (by simpa using hentries) (by simpa using htrackers)
    exact ⟨_, answers_of hr hb (Nat.zero_le _), by simp, by simpa using hwindows⟩
  case create =>
    intro s h window mask hr hwindow hmask hgood hnew
    obtain ⟨f, hv⟩ := answers_taken hr fun f => cohWindowCreateBody_ok (s := s.upHly f) hwindow hmask hgood hnew
    exact ⟨_, hv, by simp, rfl⟩
  case agents =>
    intro s h window mask w hr hwindow hmask hgood hfind hentries htrackers
    obtain ⟨f, hf⟩ := s.fetchCmd_eq_upHly h
    obtain ⟨t, hb, hwindows⟩ := cohWindowAgentsBody_ok (s := s.upHly f) hwindow hmask hgood hfind hentries htrackers
    rw [← hf] at hb
    exact ⟨t, answers_of hr hb (Nat.zero_le _), by simp [hwindows]⟩
  case map =>
    intro s h window inst first w hr hfirst hfits hfind hempty hinsts hroom henabled hvalid
    obtain ⟨f, hv⟩ := answers_taken hr fun f =>
      cohWindowMapBody_map (s := s.upHly f) hfirst hfits hfind hempty hinsts hroom henabled
    exact ⟨_, hv, by simp, fun k e hk => State.slotOf_mapWindow (s := (s.upHly f).upDir _) hvalid inst first hk, by simp⟩
  case unmap =>
    intro s h window inst first w hr hfirst hfits hfind henabled hmapped
    obtain ⟨f, hv⟩ := answers_taken hr fun f => cohWindowMapBody_unmap (s := s.upHly f) hfirst hfits hfind henabled hmapped
    exact ⟨_, hv, fun k hk => State.slotOf_unmapWindow _ inst first _ hk, by simp⟩
  case destroy =>
    intro s h window w hr hfind hempty
    obtain ⟨f, hv⟩ := answers_taken hr fun f => cohWindowDestroyBody_ok (s := s.upHly f) hfind hempty
    exact ⟨_, hv, by simp, rfl⟩
  case set =>
    intro s h cm snoopTimeout scrubEnable hr hlow hhigh
    obtain ⟨f, hv⟩ := answers_taken hr fun f => dirSetBody_ok (s := s.upHly f) (cm := cm) scrubEnable hlow hhigh
    exact ⟨_, hv, rfl, rfl, rfl⟩
  case query =>
    intro s h window extentIndex lineIndex e w hr hwindow hline hfind he ht
    obtain ⟨f, hf⟩ := s.fetchCmd_eq_upHly h
    have hb := dirQueryBody_idle (s := s.upHly f) hwindow hline hfind he ht
    rw [← hf] at hb
    have hlength (check : Nat) : (s.lineImage e lineIndex check).length = 26 := by rw [State.lineImage, outBytes_length]; rfl
    refine ⟨(s.fetchCmd h).fresh.2, (s.fetchCmd h).fresh.1 % 256, Nat.mod_lt _ (by decide), s.fetchCmd_dir h, ?_⟩
    exact answers_of hr (hb.trans (by rw [hf]; rfl)) (hlength _ ▸ runs_outLen_le hr)

end Sys2Proof.Machine
end

section
/-! SUPPORT. The events of the directory: what the grant of a request, a writeback, the answer to a snoop and the end of a recall do to the
line and the directory, and the statement about them. -/
namespace Sys2Proof.Machine

/-! ### Requests and grants (R308, R312) -/

/-- A grant for a line that is not poisoned records what it gives. -/
theorem State.grantTo_frame {s : State} {h line : Nat} (hclean : s.linePoisoned h line = false) (r : CohReq) (poison : Bool)
    (data : List Nat) :
    let u := s.grantTo h line r poison data
    u.dirEntry h line = entryAfter r (s.dirEntry h line) ∧ u.out = .grant r.who (opCode r.op) h line poison data :: s.out := by
  have hentry := s.dirEntry_setEntry h line (entryAfter r (s.dirEntry h line))
  simp only [State.grantTo, hclean, Bool.false_eq_true, if_false]
  cases r.agent <;> exact ⟨hentry, rfl⟩

/-- A request that is no write and no upgrade without data reads the line. -/
theorem State.OnLine.run_reads {s u : State} {h line : Nat} {r : CohReq} (o : s.OnLine u h line (startedOn h line (.request r)))
    (hclean : s.linePoisoned h line = false) (hown : r.op ≠ .own) (hwrite : r.op ≠ .wrNC) (n : Nat) :
    u.trackRun h line (n + 1) = (u.emit (.lineRead h line)).upTracker h line fun t => { t with reading := true } := by
  have hact : u.trackAct (startedOn h line (.request r)) =
      (false, (u.emit (.lineRead h line)).upTracker h line fun t => { t with reading := true }) := by
    simp [State.trackAct, startedOn, o.linePoisoned, hclean, hown, hwrite]
  rw [State.trackRun_acts o.tracker (startedOn_acts ..), hact]
  rfl

/-- A request for ownership without data is granted at once. -/
theorem State.OnLine.run_owns {s u : State} {h line : Nat} {r : CohReq} (o : s.OnLine u h line (startedOn h line (.request r)))
    (hclean : s.linePoisoned h line = false) (hown : r.op = .own) (n : Nat) :
    u.trackRun h line (n + 1) = (u.grantTo h line r false).freeLine h line := by
  have hact : u.trackAct (startedOn h line (.request r)) = (true, u.grantTo h line r false) := by
    simp [State.trackAct, startedOn, o.linePoisoned, hclean, hown]
  rw [State.trackRun_acts o.tracker (startedOn_acts ..), hact]
  rfl

/-- An owner's eviction notice leaves the line Invalid and is completed. -/
theorem State.OnLine.run_evicts {s u : State} {h line a : Nat} (o : s.OnLine u h line (startedOn h line (.evict a)))
    (howns : s.ownsLine h line a = true) (n : Nat) :
    u.trackRun h line (n + 1) = ((u.setEntry h line { u.dirEntry h line with state := .invalid, sharers := 0 }).emit
      (.grant (some a) 6 h line false)).freeLine h line := by
  have howns' : ((u.dirEntry h line).state = .em && (u.dirEntry h line).sharers.getLsbD a) = true := by
    rw [o.dirEntry]; exact howns
  have hact : u.trackAct (startedOn h line (.evict a)) =
      (true, (u.setEntry h line { u.dirEntry h line with state := .invalid, sharers := 0 }).emit (.grant (some a) 6 h line false)) := by
    exact congrArg (fun v : State => (true, v.emit (.grant (some a) 6 h line false))) (if_pos howns')
  rw [State.trackRun_acts o.tracker (startedOn_acts ..), hact]
  rfl

/-- A caching agent's own request. -/
def requestOf (a : Nat) (op : CohOp) (offset : Nat) (data : List Nat) : CohReq := { who := some a, agent := some a, op, offset, data }

theorem entryAfter_own (a offset : Nat) (data : List Nat) (e : DirEntry) :
    entryAfter (requestOf a .own offset data) e = { e with state := .em, sharers := 1#64 <<< a } := rfl

theorem snoopsFor_invalid {r : CohReq} {e : DirEntry} (hop : r.op ≠ .wrNC) (he : e.state = .invalid) : snoopsFor r e = [] := by
  obtain ⟨_, _, op, _, _⟩ := r
  cases op <;> simp_all [snoopsFor]

/-- A caching agent's request to an idle line that is Invalid: its tracker acts at once. -/
theorem exec_coherentRequest_invalid {s : State} {a handle line : Nat} {op : CohOp} (offset : Nat) (data : List Nat)
    (hawake : s.awake = true) (hforward : s.forwarding = true) (hline : line < extentLines) (hserved : s.cohServed handle = true)
    (has : s.servedAs handle (some a) = some a) (hidle : s.LineIdle handle line) (hinvalid : (s.dirEntry handle line).state = .invalid)
    (hop : op = .rdS ∨ op = .own) :
    ∃ u, s.OnLine u handle line (startedOn handle line (.request (requestOf a op offset data))) ∧
      Gives (exec (.coherentRequest (some a) handle line op offset data) s) ((u.trackRun handle line 5).bankTurn handle line a) := by
  have hquiet : s.NoSnoops handle line (.request (requestOf a op offset data)) := by
    refine ⟨?_, snoopsFor_invalid ?_ hinvalid⟩ <;> rcases hop with rfl | rfl <;> nofun
  obtain ⟨u, hon, hrun⟩ := State.dirRequest_idle hidle hquiet (some a) (.coherentRequest (some a) handle line op offset data)
  refine ⟨u, hon, gives_ends ?_⟩
  rw [wake_awake s hawake, if_neg (by simp [hforward, hline])]
  refine Eq.trans ?_ hrun
  rcases hop with rfl | rfl <;> simp [State.cohRequest, hserved, has, servedOp, requestOf]

/-- An owner's eviction notice for an idle line: its tracker acts at once. -/
theorem exec_evictionNotice_idle {s : State} {a handle line : Nat} (hawake : s.awake = true) (hforward : s.forwarding = true)
    (hline : line < extentLines) (hserved : s.cohServed handle = true) (hidle : s.LineIdle handle line) :
    ∃ u, s.OnLine u handle line (startedOn handle line (.evict a)) ∧
      Gives (exec (.evictionNotice a handle line) s) ((u.trackRun handle line 5).bankTurn handle line a) := by
  obtain ⟨u, hon, hrun⟩ := State.dirRequest_idle (k := .evict a) hidle trivial (some a) (.evictionNotice a handle line)
  refine ⟨u, hon, gives_ends ?_⟩
  rw [wake_awake s hawake, if_neg (by simp [hforward, hline]), if_neg (by simp [hserved])]
  exact hrun

/-- The read that a tracker with an empty queue awaited is done: its requester is answered with the line, which is free (R308, R312). -/
theorem State.trackDone_reads {s : State} {h line : Nat} {t : Tracker} {r : CohReq} (ht : s.tracker h line = some t)
    (hkind : t.kind = .request r) (hreading : t.reading = true) (hqueue : t.queue = []) (hclean : s.linePoisoned h line = false) :
    let u := s.trackDone h line false
    u.dirEntry h line = entryAfter r (s.dirEntry h line) ∧ u.tracker h line = none ∧
      u.out = .grant r.who (opCode r.op) h line false (s.readExtent h (64 * line) 64) :: s.out := by
  let v := s.upTracker h line fun t => { t with reading := false, writing := false }
  have hclean' : v.linePoisoned h line = false := hclean
  have hdone : s.trackDone h line false = (v.grantTo h line r false (s.readExtent h (64 * line) 64)).freeLine h line := by
    simp only [State.trackDone, ht, hkind, hreading, hqueue, hclean', v]
    rfl
  obtain ⟨hgranted, hout⟩ := State.grantTo_frame hclean' r false (s.readExtent h (64 * line) 64)
  rw [hdone]
  exact ⟨hgranted, State.tracker_freeLine .., hout⟩

/-! ### Writebacks (R312 to R316) -/

theorem State.writeExtent_frame (s : State) (h o : Nat) (data : List Nat) :
    let u := s.writeExtent h o data
    u.dir = s.dir ∧ u.out = s.out := by
  simp [State.writeExtent, apply_ite State.dir, apply_ite State.out]

/-- Bytes written to an extent that is not poisoned are in its memory (R34). -/
theorem State.writeExtent_mem_of_clean {s : State} {h : Nat} (hclean : (s.extent h).state ≠ .poisoned) (o : Nat) (data : List Nat) :
    (s.writeExtent h o data).pool.mem = memWrite s.pool.mem (extentByte h o) data := by
  rw [State.writeExtent, if_neg hclean]
  dsimp only
  split <;> rfl

theorem map_mod_256_of_bytes {l : List Nat} (h : ∀ b ∈ l, b < 256) : l.map (· % 256) = l :=
  (List.map_congr_left fun b hb => Nat.mod_eq_of_lt (h b hb)).trans (List.map_id l)

/-- The writeback of an owner that keeps nothing, taken for a line that no tracker holds. -/
theorem State.takeWriteback_idle {s : State} {a h line : Nat} {data : List Nat} (htimely : (a, h, line) ∉ s.dir.timedOut)
    (huse : (s.extent h).use = 1) (hwindow : (s.extent h).window ≠ none) (howns : s.ownsLine h line a = true)
    (ht : s.tracker h line = none) (hclean : s.linePoisoned h line = false) :
    s.takeWriteback a h line 0 data =
      ((s.touchEntry h line).setEntry h line ((s.dirEntry h line).without a)).writeBack h line a data false := by
  let u := (s.touchEntry h line).setEntry h line ((s.dirEntry h line).without a)
  have ht' : u.tracker h line = none := ht
  have hkeep : (s.touchEntry h line).keepState h line a 0 = u := by
    have hrebuild : ((s.touchEntry h line).tracker h line).any (fun t => t.kind == .rebuild) = false :=
      congrArg (fun x : Option Tracker => x.any fun t => t.kind == .rebuild) ht
    simp only [State.keepState, hrebuild, Bool.false_eq_true, if_false]
    rfl
  have hclean' : u.discards h line = false := by
    simp only [State.discards, State.linePoisoned, u, State.dirEntry_setEntry]
    exact hclean
  have hsnoop : u.upSnoop h line a (fun n => { n with wbTaken := true }) = u := State.upTracker_none ht' _
  simp only [State.takeWriteback, hkeep, State.snoopOf_none ht', Option.any_none, Bool.false_eq_true, if_false, hsnoop, hclean']
  simp [htimely, huse, hwindow, State.mayOwn, howns, u]

/-- What a writeback to an extent that is not poisoned leaves (R314, R315). -/
theorem State.writeBack_frame {s : State} {h : Nat} (hclean : (s.extent h).state ≠ .poisoned) (line a : Nat) (data : List Nat)
    (forwarded : Bool) :
    let u := s.writeBack h line a data forwarded
    u.pool.mem = memWrite s.pool.mem (extentByte h (64 * line)) (data.take 64) ∧ u.dir.entries = s.dir.entries ∧
      u.dir.writebacks = s.dir.writebacks ++ [{ handle := h, line, agent := a, forwarded }] := by
  obtain ⟨hdir, -⟩ := s.writeExtent_frame h (64 * line) (data.take 64)
  simp [State.writeBack, State.upTracker, hdir, State.writeExtent_mem_of_clean hclean]

/-- The one writeback that is outstanding is in memory, and it is completed (R314). -/
theorem State.lineWritten_alone {s : State} {w : WbPending} (hw : s.dir.writebacks = [w]) (hforwarded : w.forwarded = false)
    (ht : s.tracker w.handle w.line = none) (hacks : s.dir.acks = []) :
    s.lineWritten w.handle w.line =
      (s.upDir fun d => { d with writebacks := [] }).emit (.grant (some w.agent) 5 w.handle w.line false) := by
  have hfirst : takeFirst (fun x : WbPending => x.handle == w.handle && x.line == w.line) s.dir.writebacks = some (w, []) := by
    simp [hw, takeFirst]
  have ht' : ((s.upDir fun d => { d with writebacks := [] }).emit (.grant (some w.agent) 5 w.handle w.line false)).tracker w.handle w.line =
      none := ht
  simp only [State.lineWritten, hfirst, hforwarded, Bool.false_eq_true, if_false, State.upTracker_none ht', State.snoopOf_none ht',
    Option.any_none, State.runLine_none ht']
  exact State.settleAcks_none (by simpa using hacks)

/-! ### Snoops (R309, R316, R318) -/

/-- The tracker of a recall awaits one snoop and nothing else (R320). -/
structure Tracker.AwaitsLast (t : Tracker) (id : Nat) (n : Snoop) : Prop where
  kind : t.kind = .recall id
  snoops : t.snoops = [n]
  started : t.started = true
  queue : t.queue = []
  writes : t.writes = 0
  reading : t.reading = false
  writing : t.writing = false

/-- The agent whose snoop is final has its bit cleared, and its snoop is no longer awaited (R316). -/
def State.snoopCleared (s : State) (h line a : Nat) : State :=
  (s.setEntry h line ((s.dirEntry h line).without a)).upTracker h line fun t => { t with snoops := t.snoops.filter fun n => n.agent ≠ a }

theorem State.snoopFinal_eq (s : State) (h line a : Nat) : s.snoopFinal h line a = ((s.snoopCleared h line a).runLine h line).settleAcks := rfl

theorem State.snoopCleared_frame (s : State) (h line a : Nat) :
    let u := s.snoopCleared h line a
    u.dirEntry h line = (s.dirEntry h line).without a ∧ u.dir.timedOut = s.dir.timedOut ∧ u.dir.intStatus = s.dir.intStatus ∧
      u.dir.recalls = s.dir.recalls :=
  ⟨s.dirEntry_setEntry .., rfl, rfl, rfl⟩

theorem State.tracker_snoopCleared (s : State) (h line a : Nat) :
    (s.snoopCleared h line a).tracker h line = (s.tracker h line).map fun t => { t with snoops := t.snoops.filter fun n => n.agent ≠ a } :=
  State.tracker_upTracker (s.setEntry h line ((s.dirEntry h line).without a)) h line (fun _ => rfl) (fun _ => rfl)

/-- The last snoop of a recall's line is final: the agent's bit is cleared, and the line is free. -/
theorem State.snoopFinal_last {s : State} {h line id : Nat} {n : Snoop} {t : Tracker} (ht : s.tracker h line = some t)
    (hlast : t.AwaitsLast id n) (hrecalls : s.dir.recalls = []) :
    let u := s.snoopFinal h line n.agent
    u.tracker h line = none ∧ u.dirEntry h line = (s.dirEntry h line).without n.agent ∧ u.dir.timedOut = s.dir.timedOut ∧
      u.dir.intStatus = s.dir.intStatus := by
  obtain ⟨hkind, hsnoops, hstarted, hqueue, hwrites, hreading, hwriting⟩ := hlast
  obtain ⟨hentry, htimedOut, hintStatus, hkept⟩ := s.snoopCleared_frame h line n.agent
  have hv : (s.snoopCleared h line n.agent).tracker h line = some { t with snoops := [] } := by
    rw [State.tracker_snoopCleared, ht]
    simp [hsnoops]
  have hact : (s.snoopCleared h line n.agent).trackAct { t with snoops := [] } = (true, s.snoopCleared h line n.agent) := by
    simp [State.trackAct, hkind, hkept.trans hrecalls]
  have hrun : s.snoopFinal h line n.agent = ((s.snoopCleared h line n.agent).freeLine h line).settleAcks := by
    rw [State.snoopFinal_eq, State.runLine_acts hv ⟨hstarted, rfl, hwrites, hreading, hwriting, hqueue⟩, hact]
    rfl
  obtain ⟨htrackers, hentries, htimes, hflags⟩ := ((s.snoopCleared h line n.agent).freeLine h line).settleAcks_frame
  rw [hrun]
  exact ⟨(State.tracker_of_trackers htrackers ..).trans (State.tracker_freeLine ..),
    (State.dirEntry_of_entries hentries ..).trans hentry, htimes.trans htimedOut, hflags.trans hintStatus⟩

theorem State.snoopOf_last {s : State} {h line id : Nat} {n : Snoop} {t : Tracker} (ht : s.tracker h line = some t)
    (hlast : t.AwaitsLast id n) : s.snoopOf h line n.agent = some n := by
  simp [State.snoopOf, ht, hlast.snoops]

/-- An owner's answer in time, to a snoop of which no writeback has come (R309). -/
theorem exec_snoopResponseReceive_owner {s u : State} {a handle line : Nat} {n : Snoop} {form : SnoopForm} {data : List Nat}
    (hu : s.ownerResponse a handle line n form data = u)
    (hawake : s.awake = true) (hforward : s.forwarding = true) (htimely : (a, handle, line) ∉ s.dir.timedOut)
    (hn : s.snoopOf handle line a = some n) (htaken : n.wbTaken = false) (hflight : n.wbInFlight = false)
    (howns : s.ownsLine handle line a = true) : Gives (exec (.snoopResponseReceive a handle line form data) s) u := by
  subst hu
  refine gives_ends ?_
  rw [wake_awake s hawake, if_pos hforward]
  simp [State.snoopResponse, htimely, hn, htaken, hflight, State.mayOwn, howns]

/-- A BIConflict for a snoop, noted and yet to be acknowledged (R309). -/
def State.conflictNoted (s : State) (a h line : Nat) : State :=
  (s.upSnoop h line a fun n => { n with conflict := true }).upDir fun d => { d with acks := d.acks ++ [(a, h, line)] }

theorem State.snoopOf_conflictNoted (s : State) (a h line : Nat) :
    (s.conflictNoted a h line).snoopOf h line a = (s.snoopOf h line a).map fun n => { n with conflict := true } :=
  s.snoopOf_upSnoop h line a fun _ => rfl

/-- A snoop that is not final in time, noted (R318). -/
def State.timeoutNoted (s : State) (a h line : Nat) : State :=
  (s.upDir fun d => { d with
    timedOut := d.timedOut ++ [(a, h, line)], intStatus := setFlag d.intStatus 0
    agents := if d.agents.has a then
        d.agents.upd a { kind := 0, port := 0 } fun x => { x with timeouts := satAdd 16 x.timeouts 1 } else d.agents })

theorem exec_snoopTimeoutExpiry_gives {s : State} {a handle line : Nat} {n : Snoop} (hforward : s.forwarding = true)
    (hn : s.snoopOf handle line a = some n) :
    ∃ subj, Gives (exec (.snoopTimeoutExpiry a handle line) s) (((s.timeoutNoted a handle line).raise 772 subj).snoopFinal handle line a) :=
  ⟨_, gives_ends (if_neg (by simp [hforward, hn]))⟩

/-! ### Recalls (R320) -/

/-- A recall of some agents whose lines are all done ends. -/
theorem State.recallStep_ends {s : State} {r : Recall} (hr : s.dir.recalls = [r]) (htodo : r.todo = []) (htrackers : s.dir.trackers = [])
    (hagents : r.agents ≠ []) : s.recallStep r = s.closeRecall r.id := by
  have hfound : s.dir.recalls.find? (fun x => x.id == r.id) = some r := by simp [hr]
  have hended : s.recallEnded r = true := by simp [State.recallEnded, htodo, htrackers]
  have hsome : (r.agents.isEmpty && !r.poison) = false := by simp [hagents]
  simp only [State.recallStep, htodo, List.length_nil, List.range_zero, List.foldl_nil, hfound, hended, hsome, if_true]
  cases r.handles with
  | nil => rfl
  | cons h l => cases l <;> rfl

/-! ### The statement -/

/-- Settles O21: each event by what it leaves of the line's entry and tracker. -/
theorem directoryEventsTakeEffect : Obligations.DirectoryEventsTakeEffect := by
  refine ⟨?readShared, ?own, ?readDone, ?evict, ?writeback, ?written, ?writebackFollows, ?invalidated, ?conflict, ?timeout, ?recalled⟩
  case readShared =>
    intro s a handle line offset data hawake hforward hline hserved has ht hentry hroom hinvalid hclean
    obtain ⟨u, hon, hu⟩ := exec_coherentRequest_invalid offset data hawake hforward hline hserved has ⟨ht, hentry, hroom⟩ hinvalid
      (.inl rfl)
    rw [hon.run_reads hclean nofun nofun] at hu
    exact ⟨_, hu, by simp [hon.tracker, startedOn, requestOf], by simp [hon.out], by simp [hon.pool]⟩
  case own =>
    intro s a handle line offset data hawake hforward hline hserved has ht hentry hroom hinvalid hclean
    obtain ⟨u, hon, hu⟩ := exec_coherentRequest_invalid offset data hawake hforward hline hserved has ⟨ht, hentry, hroom⟩ hinvalid
      (.inr rfl)
    rw [hon.run_owns hclean rfl] at hu
    obtain ⟨hgranted, hout⟩ := State.grantTo_frame (hon.linePoisoned.trans hclean) (requestOf a .own offset data) false []
    change _ = Out.grant (some a) 2 handle line false [] :: u.out at hout
    rw [entryAfter_own] at hgranted
    exact ⟨_, hu, by simp [hgranted], by simp [hgranted], by simp, by simp [hout, hon.out]⟩
  case readDone =>
    intro s handle line t r hforward ht hkind hreading hqueue hpoison hclean
    have hreads : (s.tracker handle line).any (·.reading) = true := by simp [ht, hreading]
    refine ⟨s.trackDone handle line false, gives_ends ?_, State.trackDone_reads ht hkind hreading hqueue hclean⟩
    rw [if_pos (by simp [hforward, hreads]), hpoison]
    rfl
  case evict =>
    intro s a handle line hawake hforward hline hserved ht hentry hroom howns
    obtain ⟨u, hon, hu⟩ := exec_evictionNotice_idle (a := a) hawake hforward hline hserved ⟨ht, hentry, hroom⟩
    rw [hon.run_evicts howns] at hu
    exact ⟨_, hu, by simp, by simp, by simp [hon.out]⟩
  case writeback =>
    intro s a handle line data hawake hforward hline htimely huse hwindow howns ht hclean hroom hlength hbytes
    have hextent : (s.extent handle).state ≠ .poisoned := by
      simp only [State.linePoisoned, Bool.or_eq_false_iff, decide_eq_false_iff_not] at hclean
      exact hclean.1
    obtain ⟨hmem, hentries, hwritebacks⟩ := State.writeBack_frame
      (s := (s.touchEntry handle line).setEntry handle line ((s.dirEntry handle line).without a)) hextent line a data false
    rw [List.take_of_length_le hlength.le] at hmem
    refine ⟨_, gives_ends ?_, ?_, ?_, hwritebacks, fun x hx => ?_⟩
    · rw [wake_awake s hawake, if_neg (by simp [hforward, hline]), if_neg (Nat.not_le.mpr hroom)]
      exact State.takeWriteback_idle htimely huse hwindow howns ht hclean
    · rw [State.readExtent, hmem, ← hlength, memRead_memWrite, map_mod_256_of_bytes hbytes]
    · rw [State.dirEntry_of_entries hentries, State.dirEntry_setEntry]
    · rw [hmem, memByte_memWrite_outside _ _ _ _ (by rwa [hlength])]
      rfl
  case written =>
    intro s w hforward hwritebacks hforwarded ht hacks
    exact ⟨_, gives_ends ((if_pos hforward).trans (State.lineWritten_alone hwritebacks hforwarded ht hacks)), rfl, rfl, rfl⟩
  case writebackFollows =>
    intro s a handle line n data hawake hforward htimely hn htaken hflight howns
    have hresponse : s.ownerResponse a handle line n .invalidWriteback data =
        s.upSnoop handle line a fun n => { n with wbInFlight := true } := by
      simp [State.ownerResponse]
    have hsnoop : (s.upSnoop handle line a fun n => { n with wbInFlight := true }).snoopOf handle line a = _ :=
      s.snoopOf_upSnoop handle line a fun _ => rfl
    exact ⟨_, exec_snoopResponseReceive_owner hresponse hawake hforward htimely hn htaken hflight howns, by rw [hsnoop, hn]; rfl, rfl,
      by simp⟩
  case invalidated =>
    rintro s _ handle line id n t data hawake hforward htimely ht hkind hsnoops rfl htaken hflight hconflict hstarted hqueue hwrites
      hreading hwriting howns hrecalls
    have hlast : t.AwaitsLast id n := ⟨hkind, hsnoops, hstarted, hqueue, hwrites, hreading, hwriting⟩
    have hresponse : s.ownerResponse n.agent handle line n .invalid data = s.snoopFinal handle line n.agent := by
      simp [State.ownerResponse, hconflict]
    obtain ⟨htracker, hentry, -⟩ := State.snoopFinal_last ht hlast hrecalls
    exact ⟨_, exec_snoopResponseReceive_owner hresponse hawake hforward htimely (State.snoopOf_last ht hlast) htaken hflight howns,
      htracker, hentry⟩
  case conflict =>
    intro s a handle line n hawake hforward hn
    obtain ⟨htrackers, hentries, -⟩ := (s.conflictNoted a handle line).settleAcks_frame
    refine ⟨(s.conflictNoted a handle line).settleAcks, gives_ends ?_, ?_, hentries⟩
    · rw [wake_awake s hawake, if_neg (by simp [hforward])]
      rfl
    · rw [State.snoopOf_of_trackers htrackers, State.snoopOf_conflictNoted, hn]
      rfl
  case timeout =>
    rintro s _ handle line id n t hforward ht hkind hsnoops rfl hstarted hqueue hwrites hreading hwriting hrecalls
    have hlast : t.AwaitsLast id n := ⟨hkind, hsnoops, hstarted, hqueue, hwrites, hreading, hwriting⟩
    obtain ⟨subj, hu⟩ := exec_snoopTimeoutExpiry_gives hforward (State.snoopOf_last ht hlast)
    let v := (s.timeoutNoted n.agent handle line).raise 772 subj
    have hv : v.dir = (s.timeoutNoted n.agent handle line).dir := by simp [v]
    have htracker : v.tracker handle line = some t := (State.tracker_of_trackers (congrArg Dir.trackers hv) ..).trans ht
    have hentry : v.dirEntry handle line = s.dirEntry handle line := State.dirEntry_of_entries (congrArg Dir.entries hv) ..
    obtain ⟨hfree, hcleared, htimes, hflags⟩ := State.snoopFinal_last htracker hlast ((congrArg Dir.recalls hv).trans hrecalls)
    rw [hentry] at hcleared
    refine ⟨_, hu, ?_, hfree, hcleared, ?_⟩
    · rw [htimes, hv]
      simp [State.timeoutNoted]
    · rw [hflags, hv]
      exact getLsbD_or_shiftOne _ (by decide)
  case recalled =>
    intro s r hforward hrecalls htodo htrackers hagents
    obtain ⟨hleft, hflag, hentries, -⟩ := s.closeRecall_frame r.id
    refine ⟨_, gives_ends ?_, by simp [hleft, hrecalls], hflag, hentries⟩
    rw [hforward, hrecalls]
    simpa using State.recallStep_ends hrecalls htodo htrackers hagents

end Sys2Proof.Machine
end

section
/-! SUPPORT. The doorbells of an instance: what an event that is posted, a domain that is wanted and the error state of a queue leave of the
engines' tables, and the statement about the doorbells. -/
namespace Sys2Proof.Machine

/-! ### Parts of the engines' block that shared operations leave -/

/-- An event posted (R344) changes event queues and the counts of an instance alone. -/
@[simp] theorem State.post_engines (s : State) (i kind detail subject aux data : Nat) :
    let m := (s.post i kind detail subject aux data).mec
    m.sendQ = s.mec.sendQ ∧ m.recvQ = s.mec.recvQ ∧ m.compQ = s.mec.compQ ∧ m.slots = s.mec.slots ∧ m.triggers = s.mec.triggers ∧
    m.abandons = s.mec.abandons ∧ m.counters = s.mec.counters ∧ m.regions = s.mec.regions ∧ m.reads = s.mec.reads ∧
    m.intStatus = s.mec.intStatus := by
  simp only [State.post]; split <;> (try split) <;> simp [State.eventLost]

@[simp] theorem State.wantDomain_engines (s : State) (d : Nat) :
    (s.wantDomain d).mec = s.mec ∧ (s.wantDomain d).hly = s.hly := by
  rw [State.wantDomain]; split <;> simp [State.upDomain]

@[simp] theorem State.ignoreDoorbell_sendQ (s : State) (i : Nat) : (s.ignoreDoorbell i).mec.sendQ = s.mec.sendQ := by
  simp [State.ignoreDoorbell, State.countIgnored]

/-- A doorbell that is ignored is counted against its instance (R334). -/
theorem State.ignoreDoorbell_ignored (s : State) (i : Nat) :
    ((s.ignoreDoorbell i).engInst i).ignored = (s.engInst i).ignored + 1 := by
  simp [State.ignoreDoorbell, State.countIgnored, State.engInst]

/-- A send queue's error state (R372) is noted in its entry; the locks that it held are owed their LOCK_ABANDONs. -/
theorem State.sendQueueError_find {s : State} {q : Nat} {x : SendQueue} (status : Nat) (hfind : s.mec.sendQ.find q = some x)
    (hgood : x.error = false) : (s.sendQueueError q status).mec.sendQ.find q = some { x with error := true, locks := [] } := by
  simp [State.sendQueueError, State.abandonLocks, hfind, hgood]

/-! ### Doorbells (R333, R334) -/

/-- A doorbell of an Enabled instance of an awake device that runs takes effect. -/
theorem State.ring_taken {s : State} {i : Nat} (hreach : s.reachable i = true) (hawake : s.awake = true) (hforward : s.forwarding = true)
    (henabled : s.enabled i = true) (f : State → State) : s.ring i f = f s := by
  simp [State.ring, hreach, wake_awake s hawake, hforward, henabled]

theorem State.sendDoorbell_within {s : State} {q index : Nat} {x : SendQueue} (hfind : s.mec.sendQ.find q = some x)
    (hring : ringUsed index x.consumer ≤ 2 ^ x.log2Size) :
    s.sendDoorbell x.inst q index =
      (s.upMec fun m => { m with sendQ := m.sendQ.put q { x with producer := index % 65536 } }).wantDomain (x.engine / 8) := by
  simp [State.sendDoorbell, hfind, Nat.not_lt.mpr hring]

theorem State.sendDoorbell_beyond {s : State} {q index : Nat} {x : SendQueue} (hfind : s.mec.sendQ.find q = some x)
    (hring : 2 ^ x.log2Size < ringUsed index x.consumer) : s.sendDoorbell x.inst q index = s.sendQueueError q stBadDescriptor := by
  simp [State.sendDoorbell, hfind, hring]

theorem State.sendDoorbell_unknown {s : State} {i q index : Nat} (hfind : s.mec.sendQ.find q = none) :
    s.sendDoorbell i q index = s.ignoreDoorbell i := by
  simp [State.sendDoorbell, hfind]

theorem State.recvDoorbell_within {s : State} {q index : Nat} {x : RecvQueue} (hfind : s.mec.recvQ.find q = some x)
    (hring : ringUsed index x.consumer ≤ 2 ^ x.log2Size) :
    s.recvDoorbell x.inst q index = s.upMec fun m => { m with recvQ := m.recvQ.put q { x with producer := index % 65536 } } := by
  simp [State.recvDoorbell, hfind, Nat.not_lt.mpr hring]

/-- Room in a completion queue on which no record waits writes nothing, and there is no send queue to fetch for (R343). -/
theorem State.resumeCq_idle {s : State} {cq : Nat} {x : RecordQueue} (hfind : s.mec.compQ.find cq = some x) (hheld : x.held = [])
    (hsend : s.mec.sendQ = []) : (s.resumeCq cq).mec.compQ = s.mec.compQ := by
  cases hfull : x.full <;> simp [State.resumeCq, State.writeHeld, hfind, hheld, hsend, hfull, Tbl.mapv]

/-- The new consumer index of a completion queue (R333, R343), and whether its next record is to raise its vector. -/
theorem State.compDoorbell_idle {s : State} {q index : Nat} {x : RecordQueue} (arm : Bool) (hfind : s.mec.compQ.find q = some x)
    (hheld : x.held = []) (hsend : s.mec.sendQ = []) :
    (s.compDoorbell x.inst q index arm).mec.compQ.find q =
      some { x with consumer := index % 65536, armed := x.armed || arm } := by
  let y := { x with consumer := index % 65536, armed := x.armed || arm }
  have hcomp := State.resumeCq_idle (s := s.upMec fun m => { m with compQ := m.compQ.put q y }) (cq := q) (x := y) (by simp)
    hheld hsend
  have hbell : s.compDoorbell x.inst q index arm = (s.upMec fun m => { m with compQ := m.compQ.put q y }).resumeCq q := by
    simp [State.compDoorbell, hfind, y]
  simp [hbell, hcomp, y]

/-! ### The statement -/

/-- Settles O24: a doorbell that is taken by what its queue's entry then holds, an unknown one by the count. -/
theorem doorbellsTakeEffect : Obligations.DoorbellsTakeEffect := by
  refine ⟨?send, ?beyond, ?receive, ?completion, ?arm, ?ignored⟩
  case send =>
    rintro s _ queue index x hreach hawake hforward henabled hfind rfl hring
    exact ⟨_, gives_ends ((State.ring_taken hreach hawake hforward henabled _).trans (State.sendDoorbell_within hfind hring)),
      by simp, fun q hq => by simp [Tbl.find_put, hq], by simp⟩
  case beyond =>
    rintro s _ queue index x hreach hawake hforward henabled hfind rfl hring hgood
    have herror := State.sendQueueError_find stBadDescriptor hfind hgood
    exact ⟨_, gives_ends ((State.ring_taken hreach hawake hforward henabled _).trans (State.sendDoorbell_beyond hfind hring)),
      by rw [herror]; rfl, by rw [herror]; rfl, by simp⟩
  case receive =>
    rintro s _ queue index x hreach hawake hforward henabled hfind rfl hring
    exact ⟨_, gives_ends ((State.ring_taken hreach hawake hforward henabled _).trans (State.recvDoorbell_within hfind hring)),
      by simp, rfl⟩
  case completion =>
    rintro s _ queue index x hreach hawake hforward henabled hfind rfl hheld hsend
    have hentry := State.compDoorbell_idle (index := index) false hfind hheld hsend
    exact ⟨_, gives_ends (State.ring_taken hreach hawake hforward henabled _), by simpa using hentry, by simp⟩
  case arm =>
    rintro s _ queue index x hreach hawake hforward henabled hfind rfl hheld hsend
    have hentry := State.compDoorbell_idle (index := index) true hfind hheld hsend
    exact ⟨_, gives_ends (State.ring_taken hreach hawake hforward henabled _), by simpa using hentry, by simp⟩
  case ignored =>
    intro s inst queue index hreach hawake hforward henabled hfind
    exact ⟨_, gives_ends ((State.ring_taken hreach hawake hforward henabled _).trans (State.sendDoorbell_unknown hfind)),
      s.ignoreDoorbell_ignored inst, by simp, by simp⟩

end Sys2Proof.Machine
end

section
/-! SUPPORT. The commands of the message engines and of matching: what each body answers, how long each query's output is, and the statement
about all of them. -/
namespace Sys2Proof.Machine

/-- Taking a command's descriptor leaves the commands in progress (R447, R450). -/
@[simp] theorem State.fetchCmd_progress (s : State) (h : HlyHdr) : (s.fetchCmd h).hly.progress = s.hly.progress := by
  cases h with | mk src => cases src <;> rfl

@[simp] theorem State.fetchCmd_engineTakes (s : State) (h : HlyHdr) (engine maxOut : Nat) :
    (s.fetchCmd h).engineTakes engine maxOut = s.engineTakes engine maxOut := by
  obtain ⟨f, hf⟩ := s.fetchCmd_eq_upHly h
  rw [hf]
  rfl

/-! ### Queues (R332, R370 to R374) -/

theorem queueCreateBody_ok {s : State} {q : QueueP} (hgood : queueBad q = false) (henabled : s.enabled q.inst = true)
    (hnew : s.queueExists q.kind q.queue = false)
    (hcq : q.kind ≤ 1 → ((s.mec.compQ.find q.cq).any fun c => c.inst == q.inst) = true)
    (hevent : q.kind = 3 → s.eventQueue q.inst = none) (htakes : q.kind = 0 → s.engineTakes q.engine q.maxOut = true)
    (hroom : s.queueFull q.kind = false) : queueCreateBody q s = .ok (s.addQueue q) := by
  have hcomp : (decide (q.kind ≤ 1) && !(s.mec.compQ.find q.cq).any fun c => c.inst == q.inst) = false := by
    simpa using hcq
  have hone : (decide (q.kind = 3) && (s.eventQueue q.inst).isSome) = false := by
    simpa using hevent
  have hload : (decide (q.kind = 0) && !s.engineTakes q.engine q.maxOut) = false := by
    simpa using htakes
  exact refuseIf_none _ _ (by simp [hgood, henabled, hnew, hcomp, hone, hload, hroom])

/-- A queue added stands in the table of its kind (R332). -/
theorem State.addQueue_find (s : State) (q : QueueP) :
    let m := (s.addQueue q).mec
    (q.kind = 0 → m.sendQ.find q.queue = some { inst := q.inst, base := q.base, log2Size := q.log2Size, cq := q.cq, engine := q.engine, weight := q.weight, maxOut := q.maxOut }) ∧
    (q.kind = 1 → m.recvQ.find q.queue = some { inst := q.inst, base := q.base, log2Size := q.log2Size, cq := q.cq }) ∧
    (q.kind = 2 → m.compQ.find q.queue = some { inst := q.inst, base := q.base, log2Size := q.log2Size, vector := q.vector }) ∧
    (q.kind = 3 → m.eventQ.find q.queue = some { inst := q.inst, base := q.base, log2Size := q.log2Size, vector := q.vector }) := by
  refine ⟨?_, ?_, ?_, ?_⟩ <;> intro hkind <;> simp [State.addQueue, hkind]

/-- QUEUE_DESTROY of a send queue without held triggers begins: its locks are owed their LOCK_ABANDONs (R368, R374). -/
theorem queueDestroyBody_send {s : State} {queue : Nat} {x : SendQueue} (hqueue : queue ≤ 16383) (hfind : s.mec.sendQ.find queue = some x)
    (htriggers : ∀ t ∈ s.mec.triggers, t.queue ≠ queue) :
    ∃ v, queueDestroyBody 0 queue s = .pend v (.queueDestroy queue) [.sendQueue queue] ∧
      v.mec.sendQ.find queue = some { x with destroying := true, locks := [] } ∧
      v.mec.abandons = s.mec.abandons ++ (x.locks.map (·.1)).dedup.map fun d => (d, x.inst, queue) := by
  have hmine : s.mec.triggers.filter (fun t => t.queue == queue) = [] := by simpa using htriggers
  refine ⟨_, refuseIf_none _ _ ?_, ?_, ?_⟩
  · simp [Nat.not_lt.mpr hqueue, State.queueExists, Tbl.has_of_find hfind]
  · simp [State.flushTriggers, State.abandonLocks, hfind, hmine]
  · simp [State.flushTriggers, State.abandonLocks, hfind, hmine]

/-- QUEUE_DESTROY of a receive queue without posted receives begins (R374). -/
theorem queueDestroyBody_receive {s : State} {queue : Nat} {x : RecvQueue} (hqueue : queue ≤ 16383)
    (hfind : s.mec.recvQ.find queue = some x) (hposted : ∀ p ∈ s.mtc.posted, p.queue ≠ queue) :
    ∃ v, queueDestroyBody 1 queue s = .pend v (.queueDestroy (65536 + queue)) [] ∧
      v.mec.recvQ.find queue = some { x with destroying := true } := by
  have hmine : s.mtc.posted.filter (fun p => p.queue == queue) = [] := by simpa using hposted
  refine ⟨_, refuseIf_none _ _ ?_, ?_⟩
  · simp [Nat.not_lt.mpr hqueue, State.queueExists, Tbl.has_of_find hfind]
  · simp [State.flushPosted, hfind, hmine]

theorem queueDestroyBody_completion {s : State} {queue : Nat} (hqueue : queue ≤ 16383) (hhas : s.mec.compQ.has queue = true)
    (hsend : ∀ q ∈ s.mec.sendQ, q.2.cq ≠ queue) (hrecv : ∀ q ∈ s.mec.recvQ, q.2.cq ≠ queue) :
    queueDestroyBody 2 queue s = .ok (s.upMec fun m => { m with compQ := m.compQ.del queue }) := by
  have hs : (s.mec.sendQ.any fun q => q.2.cq == queue) = false := List.any_eq_false.mpr fun q hq => by simp [hsend q hq]
  have hr : (s.mec.recvQ.any fun q => q.2.cq == queue) = false := List.any_eq_false.mpr fun q hq => by simp [hrecv q hq]
  exact refuseIf_none _ _ (by simp [Nat.not_lt.mpr hqueue, State.queueExists, hhas, hs, hr])

theorem queueDestroyBody_event {s : State} {queue : Nat} (hqueue : queue ≤ 16383) (hhas : s.mec.eventQ.has queue = true) :
    queueDestroyBody 3 queue s = .ok (s.upMec fun m => { m with eventQ := m.eventQ.del queue }) :=
  refuseIf_none _ _ (by simp [Nat.not_lt.mpr hqueue, State.queueExists, hhas])

/-- A send queue moved to another engine (R370). -/
def SendQueue.moved (x : SendQueue) (engine : Nat) : SendQueue :=
  { x with engine, gen := (x.gen + 1) % 256, moving := some x.engine, visits := 0 }

/-- The state in which a send queue has been moved, and the domain of its new engine is wanted (R370, R513). -/
def State.queueMoved (s : State) (queue engine : Nat) : State := (s.moveQueue queue engine).wantDomain (engine / 8)

theorem State.queueMoved_find {s : State} {queue : Nat} {x : SendQueue} (engine : Nat) (hfind : s.mec.sendQ.find queue = some x) :
    (s.queueMoved queue engine).mec.sendQ.find queue = some (x.moved engine) := by
  simp [State.queueMoved, State.moveQueue, hfind, SendQueue.moved]

@[simp] theorem State.queueMoved_frame (s : State) (queue engine : Nat) :
    (s.queueMoved queue engine).mec.slots = s.mec.slots ∧ (s.queueMoved queue engine).hly = s.hly := by
  simp only [State.queueMoved, State.wantDomain_engines, State.moveQueue, State.upMec_mec, State.upMec_hly, and_true]
  split <;> rfl

theorem queueMoveBody_moves {s : State} {queue engine : Nat} {x : SendQueue} (hqueue : queue ≤ 16383) (hengine : engine ≤ 127)
    (hfind : s.mec.sendQ.find queue = some x) (hstill : x.moving = none) (htakes : s.engineTakes engine x.maxOut = true) :
    queueMoveBody queue engine s =
      if (s.queueMoved queue engine).moveDone queue then .ok ((s.queueMoved queue engine).finishMove queue)
      else .pend (s.queueMoved queue engine) (.queueMove queue) [.sendQueue queue] := by
  rw [queueMoveBody, refuseIf_none _ _ (by
    simp [Nat.not_lt.mpr hqueue, Nat.not_lt.mpr hengine, Tbl.has_of_find hfind, hfind, hstill, htakes])]
  rfl

/-- A queue that was moved still has an operation of its old generation (R370). -/
theorem State.moveDone_of_old {s : State} {queue : Nat} {x : SendQueue} (hfind : s.mec.sendQ.find queue = some x)
    (hold : ∃ e ∈ s.mec.slots, e.2.queue = queue ∧ e.2.isRget = false ∧ e.2.queueGen ≠ x.gen) : s.moveDone queue = false := by
  obtain ⟨e, he, hqueue, hrget, hgen⟩ := hold
  rw [State.moveDone, hfind]
  exact congrArg not (List.any_eq_true.mpr ⟨e, he, by simp [hqueue, hrget, hgen]⟩)

/-- A queue without operations has none of its old generation. -/
theorem State.moveDone_of_idle {s : State} {queue : Nat} {x : SendQueue} (hfind : s.mec.sendQ.find queue = some x)
    (hidle : ∀ e ∈ s.mec.slots, e.2.queue ≠ queue) : s.moveDone queue = true := by
  rw [State.moveDone, hfind]
  exact congrArg not (List.any_eq_false.mpr fun e he => by simp [hidle e he])

/-- A move that no command waits for ends in the queue's entry alone (R370). -/
theorem State.finishMove_find {s : State} {queue : Nat} {x : SendQueue} (hfind : s.mec.sendQ.find queue = some x)
    (hprogress : s.hly.progress = []) : (s.finishMove queue).mec.sendQ.find queue = some { x with moving := none } := by
  simp [State.finishMove, hfind, State.finish, hprogress, takeFirst]

theorem queueRestartBody_send {s : State} {queue : Nat} {x : SendQueue} (hfind : s.mec.sendQ.find queue = some x)
    (herror : x.error = true) (hstill : x.moving = none) : queueRestartBody 0 queue s = .ok (s.restartQueue 0 queue) :=
  (refuseIf_none _ _ (by simp [State.queueInError, hfind, herror])).trans (if_neg (by simp [hfind, hstill]))

theorem queueRestartBody_receive {s : State} {queue : Nat} {x : RecvQueue} (hfind : s.mec.recvQ.find queue = some x)
    (herror : x.error = true) : queueRestartBody 1 queue s = .ok (s.restartQueue 1 queue) :=
  (refuseIf_none _ _ (by simp [State.queueInError, hfind, herror])).trans (if_neg (by simp))

/-! ### Regions, quotas, settings and locks (R345, R353, R368, R373, R375) -/

theorem regionSetBody_ok {s : State} {r : RegionP} (hgood : s.regionBad r = false) (henabled : s.enabled r.inst = true) :
    regionSetBody r s = .ok (s.upMec fun m => { m with
      regions := if r.valid then m.regions.put r.region r else m.regions.del r.region }) :=
  refuseIf_none _ _ (by simp [hgood, henabled])

/-- The quotas of an instance that the other instances and the pools leave room for, and that it does not use beyond (R362, R373). -/
theorem engInstanceSetBody_ok {s : State} {inst base count heap entries reserve : Nat} (hinst : inst ≤ 1023)
    (hrange : base + count ≤ 16384) (hbase : base ≤ 16383) (hcount : count ≤ 4096) (hheap : heap ≤ 65535) (hentries : entries < 2 ^ 27)
    (hreserve : reserve < 2 ^ 19) (hused : s.notFree inst = true) (hfree : s.countersTaken inst base count = false)
    (hheaps : heap + sumOf (s.mec.inst.filter fun e => e.1 != inst) (fun e => e.2.heap) ≤ s.heapUnitsAll)
    (hlists : entries + sumOf (s.mec.inst.filter fun e => e.1 != inst) (fun e => e.2.matchEntries) ≤ 262144 + s.overflowRoom)
    (hreserves : reserve + sumOf (s.mec.inst.filter fun e => e.1 != inst) (fun e => e.2.onDieReserve) ≤ 262144)
    (hquota : s.quotaBelow inst count heap entries = false) :
    engInstanceSetBody inst base count heap entries reserve s = .ok (s.upMec fun m => { m with inst := m.inst.upd inst {} fun e => { e with
      counterBase := base, counterCount := count, heap, matchEntries := entries, onDieReserve := reserve } }).fireTriggers := by
  refine refuseIf_none _ _ ?_
  simp only [List.all_cons, List.all_nil, Bool.and_true, hused, hfree, hquota, Nat.not_lt.mpr hinst, Nat.not_lt.mpr hrange,
    Nat.not_lt.mpr hbase, Nat.not_lt.mpr hcount, Nat.not_lt.mpr hheap, Nat.not_le.mpr hentries, Nat.not_le.mpr hreserve,
    Nat.not_lt.mpr hheaps, Nat.not_lt.mpr hlists, Nat.not_lt.mpr hreserves, decide_false, Bool.or_false, Bool.not_false, Bool.not_true]

theorem engSetBody_ok {s : State} {cm rnrDelay rnrLimit lockAge : Nat} (hlow : 1 ≤ rnrDelay) (hhigh : rnrDelay ≤ 1000)
    (hlimit : rnrLimit ≤ 255) (hage : 1 ≤ lockAge) (hages : lockAge ≤ 10000) :
    engSetBody cm rnrDelay rnrLimit lockAge s = .ok (s.upMec fun m => { m with
      rnrDelay := pick cm 0 rnrDelay m.rnrDelay, rnrLimit := pick cm 1 rnrLimit m.rnrLimit, lockAge := pick cm 2 lockAge m.lockAge }) :=
  refuseIf_none _ _ (by simp [outside_eq_false hlow hhigh, outside_eq_false hage hages, Nat.not_lt.mpr hlimit])

/-- Nothing waits for a lock, so that none is served as the table changes (R368). -/
theorem State.runWaits_none {s : State} (h : s.locks.waits = []) : s.runWaits = s.upLocks fun l => { l with waits := [] } := by
  simp [State.runWaits, h]

/-- A Held entry for which nothing waits becomes Abandoned, and nothing else happens (R368). -/
theorem State.abandonLock_alone {s : State} {i : Nat} {e : LockEntry} (hfind : s.locks.table.find i = some e)
    (hwaits : s.locks.waits = []) :
    s.abandonLock i = s.upLocks fun l => { l with table := l.table.put i { e with abandoned := true }, waits := [] } := by
  rw [State.abandonLock, hfind]
  exact State.runWaits_none (by simpa using hwaits)

/-- What LOCK_BREAK does (R368, R373). -/
def lockBreakBody (index : Nat) (s : State) : HRes :=
  refuseIf [(decide (4095 < index), 0x011C), (!((s.locks.table.find index).any fun e => !e.abandoned), 0x0321)] (.ok (s.abandonLock index))

theorem lockBreakBody_held {s : State} {index : Nat} {e : LockEntry} (hindex : index ≤ 4095) (hfind : s.locks.table.find index = some e)
    (hheld : e.abandoned = false) : lockBreakBody index s = .ok (s.abandonLock index) :=
  refuseIf_none _ _ (by simp [Nat.not_lt.mpr hindex, hfind, hheld])

/-! ### Queries (R595) -/

theorem State.queueImage_length (s : State) (kind q : Nat) : (s.queueImage kind q).length = 16 := by
  simp only [State.queueImage]
  (repeat' split) <;> simp [outBytes_length]

theorem State.engImage_length (s : State) (kind index : Nat) : (s.engImage kind index).length = if kind = 4 then 8 else 24 := by
  simp only [State.engImage]
  split <;> simp [outBytes_length]

/-- What ENG_QUERY answers: the image of a queue, of an engine or of an instance. -/
def State.engAnswer (s : State) (kind index : Nat) : List Nat := if kind ≤ 3 then s.queueImage kind index else s.engImage kind index

theorem State.engAnswer_length (s : State) (kind index : Nat) : (s.engAnswer kind index).length = engQueryLen kind := by
  rw [State.engAnswer, engQueryLen]
  split
  · exact s.queueImage_length kind index
  · exact s.engImage_length kind index

/-- What ENG_QUERY does (R373, R595). -/
def engQueryBody (kind index : Nat) (s : State) : HRes :=
  refuseIf [
    (decide (5 < kind) || decide (16383 < index) || (kind = 4 && decide (127 < index)) || (kind = 5 && decide (1023 < index)), 0x011C),
    (kind = 5 && !s.notFree index, 0x0301)]
    (.data s (s.engAnswer kind index))

theorem engQueryBody_ok {s : State} {kind index : Nat} (hkind : kind ≤ 5) (hindex : index ≤ 16383) (hengine : kind = 4 → index ≤ 127)
    (hinst : kind = 5 → index ≤ 1023 ∧ s.notFree index = true) : engQueryBody kind index s = .data s (s.engAnswer kind index) := by
  have hposition : (decide (kind = 4) && decide (127 < index)) = false := by simpa using hengine
  have hnumber : (decide (kind = 5) && decide (1023 < index)) = false := by simpa using fun h => (hinst h).1
  have hused : (decide (kind = 5) && !s.notFree index) = false := by simpa using fun h => (hinst h).2
  exact refuseIf_none _ _ (by simp [Nat.not_lt.mpr hkind, Nat.not_lt.mpr hindex, hposition, hnumber, hused])

/-! ### The statement -/

/-- Settles O23: each command by what its body answers on the state whose descriptor has been taken. -/
theorem engineCommandsComplete : Obligations.EngineCommandsComplete := by
  refine ⟨?create, ?destroySend, ?destroyRecv, ?destroyComp, ?destroyEvent, ?moves, ?moved, ?restartSend, ?restartRecv, ?region, ?quota, ?set,
    ?breakLock, ?query, ?done⟩
  case create =>
    intro s h q hr hgood henabled hnew hcq hevent htakes hroom
    obtain ⟨f, hv⟩ := answers_taken hr fun f => queueCreateBody_ok (s := s.upHly f) hgood henabled hnew hcq hevent htakes hroom
    exact ⟨_, hv, State.addQueue_find _ q⟩
  case destroySend =>
    intro s h queue x hr hqueue hfind htriggers
    obtain ⟨v, hb, hentry, hlocks⟩ := queueDestroyBody_send (s := s.fetchCmd h) hqueue (by simpa using hfind) (by simpa using htriggers)
    exact ⟨v, starts_of hr hb, hentry, by simpa using hlocks⟩
  case destroyRecv =>
    intro s h queue x hr hqueue hfind hposted
    obtain ⟨v, hb, hentry⟩ := queueDestroyBody_receive (s := s.fetchCmd h) hqueue (by simpa using hfind) (by simpa using hposted)
    exact ⟨v, starts_of hr hb, hentry⟩
  case destroyComp =>
    intro s h queue hr hqueue hhas hsend hrecv
    obtain ⟨f, hv⟩ := answers_taken hr fun f => queueDestroyBody_completion (s := s.upHly f) hqueue hhas hsend hrecv
    exact ⟨_, hv, by simp⟩
  case destroyEvent =>
    intro s h queue hr hqueue hhas
    obtain ⟨f, hv⟩ := answers_taken hr fun f => queueDestroyBody_event (s := s.upHly f) hqueue hhas
    exact ⟨_, hv, by simp⟩
  case moves =>
    intro s h queue engine x hr hqueue hengine hfind hstill htakes hold
    have hb := queueMoveBody_moves (s := s.fetchCmd h) hqueue hengine (by simpa using hfind) hstill (by simpa using htakes)
    have hentry := State.queueMoved_find (s := s.fetchCmd h) engine (by simpa using hfind)
    rw [State.moveDone_of_old hentry (by simpa [SendQueue.moved] using hold)] at hb
    exact ⟨_, starts_of hr hb, hentry⟩
  case moved =>
    intro s h queue engine x hr hqueue hengine hfind hstill htakes hprogress hidle
    have hb := queueMoveBody_moves (s := s.fetchCmd h) hqueue hengine (by simpa using hfind) hstill (by simpa using htakes)
    have hentry := State.queueMoved_find (s := s.fetchCmd h) engine (by simpa using hfind)
    rw [State.moveDone_of_idle hentry (by simpa using hidle)] at hb
    exact ⟨_, answers_of hr hb (Nat.zero_le _), State.finishMove_find hentry (by simpa using hprogress)⟩
  case restartSend =>
    intro s h queue x hr hfind herror hstill
    obtain ⟨f, hv⟩ := answers_taken hr fun f => queueRestartBody_send (s := s.upHly f) hfind herror hstill
    exact ⟨_, hv, by simp [State.restartQueue, hfind]⟩
  case restartRecv =>
    intro s h queue x hr hfind herror
    obtain ⟨f, hv⟩ := answers_taken hr fun f => queueRestartBody_receive (s := s.upHly f) hfind herror
    exact ⟨_, hv, by simp [State.restartQueue, hfind]⟩
  case region =>
    intro s h r hr hgood henabled
    obtain ⟨f, hv⟩ := answers_taken hr fun f => regionSetBody_ok (s := s.upHly f) hgood henabled
    refine ⟨_, hv, ?_, fun i hi => ?_⟩
    · cases r.valid <;> simp
    · cases r.valid <;> simp [Tbl.find_put, Tbl.find_del, hi]
  case quota =>
    intro s h inst base count heap entries reserve hr hinst hrange hbase hcount hheap hentries hreserve hused hfree hheaps hlists hreserves
      hquota
    obtain ⟨f, hv⟩ := answers_taken hr fun f => engInstanceSetBody_ok (s := s.upHly f) hinst hrange hbase hcount hheap hentries hreserve
      hused hfree hheaps hlists hreserves hquota
    exact ⟨_, hv, by simp [State.fireTriggers, State.engInst], rfl⟩
  case set =>
    intro s h cm rnrDelay rnrLimit lockAge hr hlow hhigh hlimit hage hages
    obtain ⟨f, hv⟩ := answers_taken hr fun f => engSetBody_ok (s := s.upHly f) (cm := cm) hlow hhigh hlimit hage hages
    exact ⟨_, hv, rfl, rfl, rfl, rfl⟩
  case breakLock =>
    intro s h index e hr hindex hfind hheld hwaits
    obtain ⟨f, hv⟩ := answers_taken hr fun f => lockBreakBody_held (s := s.upHly f) hindex hfind hheld
    have hlock := State.abandonLock_alone (s := s.upHly f) hfind hwaits
    exact ⟨_, hv, by simp [hlock], by simp [hlock]⟩
  case query =>
    intro s h kind index hr hkind hindex hengine hinst
    obtain ⟨hv, hlen⟩ := answers_query hr (fun f => engQueryBody_ok (s := s.upHly f) hkind hindex hengine hinst)
      (s.engAnswer_length kind index)
    exact ⟨_, hv, hlen, rfl⟩
  case done =>
    intro s queue x hfind hmoving hdone hprogress
    have hmoves : x.moving.isSome = true := Option.isSome_iff_ne_none.mpr hmoving
    exact ⟨s.finishMove queue, gives_ends (by simp [hfind, hmoves, hdone]), State.finishMove_find hfind hprogress, by simp⟩

end Sys2Proof.Machine
end

section
/-! SUPPORT. What a packet on its way leaves: the records of operations, the routing stage, the policer and transport leave the lock table and
the matching unit, and put no read of host memory out. -/
namespace Sys2Proof.Machine

/-! ### Operations that leave the lock table, the matching unit and the reads of host memory -/

/-- The lock table, the matching unit and the reads of host memory that are out (R347, R356, R365). -/
def State.matching (s : State) : Locks × Mtc × Tbl PendRead := (s.locks, s.mtc, s.mec.reads)

theorem State.matching_of {s t : State} (hl : t.locks = s.locks) (hm : t.mtc = s.mtc) (hr : t.mec.reads = s.mec.reads) :
    t.matching = s.matching := by
  rw [State.matching, hl, hm, hr]; rfl

theorem matching_of_pair {α : Type} {p : α × State} {a : α} {s t : State} (h : p = (a, t)) (hp : p.2.matching = s.matching) :
    t.matching = s.matching := by
  rw [← hp, h]

@[simp] theorem State.upTrn_matching (s : State) (f : Trn → Trn) : (s.upTrn f).matching = s.matching := rfl
@[simp] theorem State.upRte_matching (s : State) (f : Rte → Rte) : (s.upRte f).matching = s.matching := rfl
@[simp] theorem State.upAdm_matching (s : State) (f : Adm → Adm) : (s.upAdm f).matching = s.matching := rfl
@[simp] theorem State.upLnk_matching (s : State) (f : Lnk → Lnk) : (s.upLnk f).matching = s.matching := rfl
@[simp] theorem State.emit_matching (s : State) (o : Out) : (s.emit o).matching = s.matching := rfl
@[simp] theorem State.fresh_matching (s : State) : s.fresh.2.matching = s.matching := rfl
@[simp] theorem State.newPid_matching (s : State) : s.newPid.2.matching = s.matching := rfl
@[simp] theorem State.putWaiting_matching (s : State) (w : WaitPkt) : (s.putWaiting w).matching = s.matching := rfl
@[simp] theorem State.meter_matching (s : State) (i : Nat) (f : MeterRec → MeterRec) : (s.meter i f).matching = s.matching := rfl
@[simp] theorem State.engineBusy_matching (s : State) (i : Nat) : (s.engineBusy i).matching = s.matching := rfl

@[simp] theorem State.tally_matching (s : State) (e n : Nat) : (s.tally e n).matching = s.matching := by
  simp [State.matching]

@[simp] theorem State.raise_matching (s : State) (src : Nat) (subj : Subject) : (s.raise src subj).matching = s.matching := by
  simp [State.matching]

@[simp] theorem State.upSlot_matching (s : State) (tag : Nat) (f : OpSlot → OpSlot) : (s.upSlot tag f).matching = s.matching :=
  State.matching_of rfl rfl (by simp only [State.upSlot, State.upMec_mec]; split <;> rfl)

@[simp] theorem State.bump_matching (s : State) (i idx : Nat) : (s.bump i idx).matching = s.matching := by
  rw [State.bump]; split <;> rfl

@[simp] theorem State.writeRecord_matching (s : State) (cq : Nat) (r : RecordQueue) (l : List Nat) :
    (s.writeRecord cq r l).matching = s.matching := by
  simp only [State.writeRecord]; (repeat' split) <;> simp [State.matching]

@[simp] theorem State.cqFull_matching (s : State) (cq : Nat) : (s.cqFull cq).matching = s.matching := by
  simp only [State.cqFull]; (repeat' split) <;> simp [State.matching]

@[simp] theorem State.putRecord_matching (s : State) (cq kind status queue bytes wrId detail srcDevice srcInst refusal retryAfter : Nat) :
    (s.putRecord cq kind status queue bytes wrId detail srcDevice srcInst refusal retryAfter).matching = s.matching := by
  rw [State.putRecord]
  split
  · rfl
  · split
    · exact State.cqFull_matching _ cq
    · exact s.writeRecord_matching ..

@[simp] theorem State.sendQueueError_matching (s : State) (q status : Nat) : (s.sendQueueError q status).matching = s.matching := by
  simp only [State.sendQueueError, State.abandonLocks]; (repeat' split) <;> simp [State.matching]

@[simp] theorem State.receiveRecord_matching (s : State) (rq status bytes wrId matchBits srcDevice srcInst reason retry : Nat) :
    (s.receiveRecord rq status bytes wrId matchBits srcDevice srcInst reason retry).matching = s.matching := by
  rw [State.receiveRecord]; split <;> simp

@[simp] theorem State.countUnreserved_matching (s : State) : s.countUnreserved.matching = s.matching := by simp [State.countUnreserved]

@[simp] theorem State.choosePath_matching (s : State) (tile : Nat) (h : Hdr) (own : Option Nat) :
    (s.choosePath tile h own).2.matching = s.matching := by
  simp only [State.choosePath]; (repeat' split) <;> simp

@[simp] theorem State.lookup_matching (s : State) (h : Hdr) (input rxVl : Nat) (atSource : Bool) (own : Option Nat) :
    (s.lookup h input rxVl atSource own).2.matching = s.matching := by
  simp only [State.lookup]; (repeat' split) <;> simp

@[simp] theorem State.greenTree_matching (s : State) (t : Tree) (h : Hdr) (atSource : Bool) (own : Option Nat) :
    (s.greenTree t h atSource own).matching = s.matching := by
  simp only [State.greenTree]; (repeat' split) <;> simp

@[simp] theorem State.noteFenceSkip_matching (s : State) : s.noteFenceSkip.matching = s.matching := rfl

@[simp] theorem State.freeRx_matching (s : State) (w : WaitPkt) : (s.freeRx w).matching = s.matching := by
  rw [State.freeRx]; split <;> rfl

@[simp] theorem State.policeMeter_matching (s : State) (h : Hdr) (len : Nat) (first : Bool) :
    (s.policeMeter h len first).2.matching = s.matching := by
  rw [State.policeMeter]; (repeat' split) <;> simp [State.meterTx, State.meterRefused]

@[simp] theorem State.police_matching (s : State) (h : Hdr) (len : Nat) (first pre : Bool) :
    (s.police h len first pre).2.matching = s.matching := by
  simp only [State.police]; (repeat' split) <;> simp [State.meterTx, State.meterRefused]

@[simp] theorem State.endWait_matching (s : State) (i : Nat) (from_ : Option Nat) : (s.endWait i from_).matching = s.matching := by
  cases from_ <;> rfl

@[simp] theorem State.policeQueued_matching (s : State) (p : SentPkt) : (s.policeQueued p).2.matching = s.matching := by
  rw [State.policeQueued]
  split
  · rfl
  · dsimp only
    split
    next hp => simp [matching_of_pair hp (s.police_matching ..)]
    next hp => simp [matching_of_pair hp (s.police_matching ..)]

/-! ### Operations that end reads and rendezvous messages at most -/

/-- From `s` to `t` the lock table stands, the matching unit stands while no RGET is out, and no read of host memory is put out. -/
structure State.Spares (s t : State) : Prop where
  locks : t.locks = s.locks
  mtc : (∀ m ∈ s.mtc.msgs, m.rget = none) → t.mtc = s.mtc
  reads : ∀ k, s.mec.reads.find k = none → t.mec.reads.find k = none

namespace State.Spares

theorem trans {s t u : State} (h : s.Spares t) (k : t.Spares u) : s.Spares u where
  locks := k.locks.trans h.locks
  mtc hm := (k.mtc ((h.mtc hm).symm ▸ hm)).trans (h.mtc hm)
  reads i hi := k.reads i (h.reads i hi)

theorem of_matching {s t : State} (h : t.matching = s.matching) : s.Spares t := by
  simp only [State.matching, Prod.mk.injEq] at h
  obtain ⟨hl, hm, hr⟩ := h
  exact ⟨hl, fun _ => hm, fun _ hi => hr ▸ hi⟩

theorem refl (s : State) : s.Spares s := of_matching rfl

theorem foldl {α : Type} {g : State → α → State} (hg : ∀ (u : State) a, u.Spares (g u a)) (l : List α) (s : State) : s.Spares (l.foldl g s) := by
  induction l generalizing s with
  | nil => exact refl s
  | cons a l ih => exact (hg s a).trans (ih _)

end State.Spares

/-- A choice among the entries of a table lists no index that the table did not. -/
theorem Tbl.find_keep_none {α : Type} {t : Tbl α} {k : Nat} (h : t.find k = none) (p : Nat → α → Bool) : (t.keep p).find k = none := by
  induction t with
  | nil => rfl
  | cons e t ih =>
    obtain ⟨j, a⟩ := e
    by_cases hj : j = k
    · simp [Tbl.find, hj] at h
    · have ht := ih (by simpa [Tbl.find, hj] using h)
      cases hp : p j a
      · simpa [Tbl.keep, hp] using ht
      · simpa [Tbl.keep, hp, Tbl.find, hj] using ht

/-- The record of an operation ends the reads that were for it (R340, R347). -/
theorem State.retire_matching (s : State) (x : OpSlot) (status bytes : Nat) :
    (s.retire x status bytes).matching = (s.locks, s.mtc, s.mec.reads.keep fun _ p => p.slot != some x.opTag) := by
  simp only [State.retire]
  (repeat' split) <;> simp <;> rfl

theorem State.spares_retire (s : State) (x : OpSlot) (status bytes : Nat) : s.Spares (s.retire x status bytes) := by
  obtain ⟨hl, hm, hr⟩ : _ ∧ _ ∧ _ := by simpa only [State.matching, Prod.mk.injEq] using s.retire_matching x status bytes
  exact ⟨hl, fun _ => hm, fun _ hk => hr ▸ Tbl.find_keep_none hk _⟩

theorem State.spares_drainOrder (s : State) (q n : Nat) : s.Spares (s.drainOrder q n) := by
  induction n generalizing s with
  | zero => exact .refl s
  | succ n ih =>
    rw [State.drainOrder]
    split
    · exact .refl s
    next x _ =>
      split
      · exact .refl s
      next tag rest _ =>
        have horder : s.Spares (s.upMec fun m => { m with sendQ := m.sendQ.put q { x with order := rest } }) := .of_matching rfl
        split
        · exact horder.trans (ih _)
        · split
          · exact .refl s
          · split
            · exact (horder.trans (State.spares_retire ..)).trans (ih _)
            · split
              · exact .of_matching (s.cqFull_matching x.cq)
              · exact .refl s

theorem State.spares_drainTriggered (s : State) (q : Nat) : s.Spares (s.drainTriggered q) := by
  refine .foldl (fun u e => ?_) _ s
  split
  · exact .refl u
  · split
    · exact u.spares_retire ..
    · split
      · exact .of_matching (by simp)
      · exact .refl u

theorem State.spares_drainQueue (s : State) (q : Nat) : s.Spares (s.drainQueue q) :=
  (s.spares_drainOrder ..).trans (State.spares_drainTriggered ..)

theorem takeFirst_eq_none {α : Type} {p : α → Bool} {l : List α} (h : ∀ x ∈ l, p x = false) : takeFirst p l = none := by
  induction l with
  | nil => rfl
  | cons x l ih => simp [takeFirst, h x, ih fun y hy => h y (List.mem_cons_of_mem x hy)]

/-- The end of a rendezvous read takes the message that its RGET is out for, where there is one (R361). -/
theorem State.spares_endRget (s : State) (tag status bytes : Nat) : s.Spares (s.endRget tag status bytes) := by
  simp only [State.endRget, State.upMec_mtc]
  split
  · exact .of_matching rfl
  next m rest htake =>
    have htaken : s.Spares ((s.upMec fun m => { m with slots := m.slots.del tag }).upMtc fun t => { t with msgs := rest }) := by
      refine ⟨rfl, fun hnone => ?_, fun _ hk => hk⟩
      rw [takeFirst_eq_none fun m hm => by simp [hnone m hm]] at htake
      cases htake
    split
    · exact htaken
    · exact htaken.trans (.of_matching (by simp))

theorem State.spares_finishOp (s : State) (tag status bytes : Nat) : s.Spares (s.finishOp tag status bytes) := by
  rw [State.finishOp]
  split
  · exact .refl s
  · split
    · exact s.spares_endRget ..
    · split
      · exact .of_matching rfl
      · exact .of_matching (by simp)
      · split
        · exact .refl s
        · exact (State.Spares.of_matching (by simp)).trans (State.spares_drainQueue ..)

/-! ### Packets of this device at the routing stage (R168, R186 to R190) -/

theorem State.spares_rootDone (s : State) (o : McOp) : s.Spares (s.rootDone o) := by
  rw [State.rootDone]
  split
  · exact .refl s
  · dsimp only
    split
    · exact (State.Spares.of_matching (by simp)).trans (State.spares_finishOp ..)
    · exact .of_matching (by simp)

theorem State.spares_sendMcAck (s : State) (port t : Nat) (o : McOp) : s.Spares (s.sendMcAck port t o) := .of_matching rfl

theorem State.spares_mcSettle (s : State) (t : Nat) : s.Spares (s.mcSettle t) := by
  rw [State.mcSettle]
  split
  · exact .refl s
  · refine (State.Spares.of_matching (s.upRte_matching _)).trans (.foldl (fun u o => ?_) _ _)
    rw [State.mcEnd]
    split
    · exact u.spares_rootDone o
    · exact u.spares_sendMcAck ..

theorem State.spares_treeMissing (s : State) (h : Hdr) (rxVl : Nat) (port : Option Nat) : s.Spares (s.treeMissing h rxVl port) := by
  have hraised (f : Rte → Rte) : s.Spares ((s.upRte f).raise 260) := .of_matching (by simp)
  simp only [State.treeMissing]
  split
  · refine .trans ?_ (State.spares_sendMcAck ..)
    exact hraised _
  · refine .trans ?_ (State.spares_rootDone ..)
    exact hraised _

theorem State.spares_routeTree (s : State) (w : WaitPkt) (port : Option Nat) : s.Spares (s.routeTree w port) := by
  simp only [State.routeTree]
  split
  · refine .trans (s.spares_treeMissing w.pkt.hdr w.rxVl port) (.of_matching ?_)
    simp
  · split
    all_goals
      split
      · refine .trans (.trans (.of_matching ?_) (State.spares_mcSettle ..)) (.of_matching (State.freeRx_matching ..))
        simp
      · exact .of_matching (by simp)

theorem State.spares_inject (s : State) (p : Packet) (len input : Nat) (sequenced : Bool) (own : Option Nat) :
    s.Spares (s.inject p len input sequenced own) := by
  rw [State.inject]
  split
  next h t hpath =>
    have ht : s.Spares t := .of_matching (matching_of_pair hpath (s.choosePath_matching ..))
    dsimp only
    split
    · refine .trans (ht.trans (.of_matching ?_)) (State.spares_routeTree ..)
      exact State.emit_matching ..
    · refine ht.trans ?_
      split
      next hroute => exact .of_matching (by simp [matching_of_pair hroute (State.lookup_matching ..)])
      next hroute => exact .of_matching (by simp [State.noCandidate, matching_of_pair hroute (State.lookup_matching ..)])

/-! ### Transport (R168, R180, R219, R220) -/

theorem State.spares_trnControl (s : State) (opcode peer inst cls sl : Nat) (response : Bool) (fields : List Nat) :
    s.Spares (s.trnControl opcode peer inst cls sl response fields) :=
  .trans (.trans (.of_matching s.newPid_matching) (State.spares_inject ..)) (.of_matching (State.emit_matching ..))

theorem State.spares_openSend (s : State) (k : CtxKey) (sl : Nat) : s.Spares (s.openSend k sl) := by
  simp only [State.openSend]
  split
  · exact .of_matching (by simp)
  · refine .trans ?_ (State.spares_trnControl ..)
    exact .of_matching (s.upTrn_matching _)

theorem State.spares_sendNow (s : State) (k : CtxKey) (p : SentPkt) (ticket : Bool) : s.Spares (s.sendNow k p ticket) := by
  simp only [State.sendNow]
  split
  · exact .refl s
  · refine State.Spares.trans (.of_matching ?_) (State.spares_inject ..)
    split <;> simp [State.upSend]

theorem State.spares_pump (s : State) (k : CtxKey) (n : Nat) : s.Spares (s.pump k n) := by
  induction n generalizing s with
  | zero => exact .refl s
  | succ n ih =>
    rw [State.pump]
    split
    · exact .refl s
    · split
      · exact .refl s
      · split
        · exact .refl s
        · split
          · exact .refl s
          · split
            · refine .trans (.trans ?_ (State.spares_finishOp ..)) (ih _)
              exact .of_matching (by simp [State.upSend])
            · split
              next hp =>
                have hqueue : s.Spares _ := .of_matching (matching_of_pair hp (s.policeQueued_matching _))
                refine .trans (.trans ?_ (State.spares_sendNow ..)) (ih _)
                exact hqueue.trans (.of_matching (State.upTrn_matching ..))
              next hp => exact .trans (.of_matching (matching_of_pair hp (s.policeQueued_matching _))) (.of_matching (State.upTrn_matching ..))

theorem State.spares_handOver (s : State) (p : SentPkt) : s.Spares (s.handOver p) := by
  simp only [State.handOver, State.pumpAll]
  split
  · refine .trans ?_ (State.spares_pump ..)
    exact .of_matching (State.upTrn_matching ..)
  · refine .trans (.trans (s.spares_openSend (sendKey p.pkt.hdr) p.pkt.hdr.sl) ?_) (State.spares_pump ..)
    exact .of_matching (State.upTrn_matching ..)

/-- A response built and handed to transport (R350, R351). -/
theorem State.spares_respond (s : State) (opcode dest inst opTag instGen status offset sl : Nat) (data : List Nat) (extra : Nat)
    (own : Option Nat) (input : Nat) (src : Option Source) :
    s.Spares (s.respond opcode dest inst opTag instGen status offset sl data extra own input src) := by
  dsimp only [State.respond]
  refine .trans (.of_matching ?_) (State.spares_handOver ..)
  simp

end Sys2Proof.Machine
end

section
/-! SUPPORT. One-sided requests and locks at their destination: what the checks let through, what lands in a heap, what becomes of the lock
table, and the statement about them. -/
namespace Sys2Proof.Machine

/-! ### Checks that an access passes (R346, R367) -/

theorem State.checked_ok {s : State} {r : Req} {a : Access} {right kind : Nat} {g : RegionP} (hguard : s.guard r a right kind = (.ok g, s))
    (serve : RegionP → State → State) : s.checked r a right kind serve = serve g (s.engineBusy g.inst) := by
  rw [State.checked, hguard]

theorem State.behindLock_free {s : State} {r : Req} {a : Access} (g : RegionP) (what : Instr) (serve : State → State)
    (hfree : s.heldByOther (ownerOf r) a.region a.offset a.length = false) : s.behindLock g r a what serve = serve s := by
  simp [State.behindLock, hfree]

theorem State.checkedLock_ok {s : State} {r : Req} {a : Access} {g : RegionP} (hregion : s.region a.region = some g)
    (hpass : s.regionRefusal r.srcDevice r.srcInst a 3 = none) (serve : RegionP → State → State) : s.checkedLock r a serve = serve g s := by
  rw [State.checkedLock, hpass, hregion]

/-- PUT_ARRIVAL that passes every check is served (R346, R347). -/
theorem exec_putArrival_serves {s : State} {r : Req} {a : Access} {data : List Nat} {g : RegionP} (last : Bool)
    (hforward : s.forwarding = true) (hguard : s.guard r { a with length := data.length } 1 1 = (.ok g, s))
    (hfree : s.heldByOther (ownerOf r) a.region a.offset data.length = false) (hnew : putName r ∉ s.mec.refusedPuts) :
    Gives (exec (.putArrival r a data last) s) ((s.engineBusy g.inst).servePut g r a data last) := by
  refine gives_ends ?_
  simp only [hforward, hguard, hfree, hnew, List.contains_eq_mem, Bool.not_true, Bool.false_eq_true, decide_false, if_false, Bool.false_and]
  exact State.behindLock_free g _ _ hfree

/-- GET_ARRIVAL that passes every check is served (R346, R347). -/
theorem exec_getArrival_serves {s : State} {r : Req} {a : Access} {g : RegionP} (poison : Bool) (hforward : s.forwarding = true)
    (hguard : s.guard r a 0 0 = (.ok g, s)) (hfree : s.heldByOther (ownerOf r) a.region a.offset a.length = false) :
    Gives (exec (.getArrival r a poison) s) ((s.engineBusy g.inst).serveGet g r a poison) :=
  gives_ends <| (if_neg (by simp [hforward])).trans <| (State.checked_ok hguard _).trans <|
    State.behindLock_free (s := s.engineBusy g.inst) g _ _ hfree

/-- ATOMIC_ARRIVAL that passes every check is served (R346, R348). -/
theorem exec_atomicArrival_serves {s : State} {r : Req} {a : Access} {size16 : Bool} {g : RegionP} (aop opA opB old : Nat)
    (hforward : s.forwarding = true) (hguard : s.guard r { a with length := atomicSize size16 } 2 1 = (.ok g, s))
    (hfree : s.heldByOther (ownerOf r) a.region a.offset (atomicSize size16) = false) :
    Gives (exec (.atomicArrival r a aop size16 opA opB old) s)
      ((s.engineBusy g.inst).serveAtomic g r { a with length := atomicSize size16 } aop size16 opA opB old) :=
  gives_ends <| (if_neg (by simp [hforward])).trans <| (State.checked_ok hguard _).trans <|
    State.behindLock_free (s := s.engineBusy g.inst) (a := { a with length := atomicSize size16 }) g _ _ hfree

/-- LOCK_ARRIVAL that passes R346 is served (R366). -/
theorem exec_lockArrival_serves {s : State} {r : Req} {a : Access} {g : RegionP} (wait : Bool) (hforward : s.forwarding = true)
    (hregion : s.region a.region = some g) (hpass : s.regionRefusal r.srcDevice r.srcInst a 3 = none) :
    Gives (exec (.lockArrival r a wait) s) (s.serveLock g r a wait (.lockArrival r a wait)) :=
  gives_ends ((if_neg (by simp [hforward])).trans (State.checkedLock_ok hregion hpass _))

/-- UNLOCK_ARRIVAL that passes R346 is served (R367). -/
theorem exec_unlockArrival_serves {s : State} {r : Req} {a : Access} {g : RegionP} (hforward : s.forwarding = true)
    (hregion : s.region a.region = some g) (hpass : s.regionRefusal r.srcDevice r.srcInst a 3 = none) :
    Gives (exec (.unlockArrival r a) s) (s.serveUnlock r a) :=
  gives_ends ((if_neg (by simp [hforward])).trans (State.checkedLock_ok hregion hpass _))

/-! ### What lands in a region (R347, R348) -/

theorem State.writeRegion_mem (s : State) (g : RegionP) (offset : Nat) (data : List Nat) :
    (s.writeRegion g offset data).pool.mem =
      if g.kind = 0 then s.pool.mem else memWrite s.pool.mem (heapByte g.inst (4096 * g.base + offset)) data := by
  rw [State.writeRegion]; split <;> simp

theorem State.writeRegion_pool_host (s : State) {g : RegionP} (offset : Nat) (data : List Nat) (hhost : g.kind = 0) :
    (s.writeRegion g offset data).pool = s.pool := by
  rw [State.writeRegion, if_pos hhost]; simp

/-- Bytes beside a region's write are left. -/
theorem State.memByte_writeRegion_outside (s : State) (g : RegionP) {offset x : Nat} (data : List Nat)
    (hout : x < heapByte g.inst (4096 * g.base + offset) ∨ heapByte g.inst (4096 * g.base + offset) + data.length ≤ x) :
    memByte (s.writeRegion g offset data).pool.mem x = memByte s.pool.mem x := by
  rw [State.writeRegion_mem]
  split
  · rfl
  · exact memByte_memWrite_outside _ _ _ _ hout

/-- Bytes written to a heap read back. -/
theorem State.memRead_writeRegion (s : State) {g : RegionP} (offset : Nat) {data : List Nat} (hheap : g.kind ≠ 0)
    (hbytes : ∀ b ∈ data, b < 256) :
    memRead (s.writeRegion g offset data).pool.mem (heapByte g.inst (4096 * g.base + offset)) data.length = data := by
  rw [State.writeRegion_mem, if_neg hheap, memRead_memWrite, map_mod_256_of_bytes hbytes]

/-- After its bytes, a PUT changes the pool no more. -/
theorem State.servePut_pool (s : State) (g : RegionP) (r : Req) (a : Access) (data : List Nat) (last : Bool) :
    (s.servePut g r a data last).pool = (s.writeRegion g a.offset data).pool := by
  rw [State.servePut]; split <;> simp

theorem bytesLE_lt_256 (n v : Nat) : ∀ b ∈ bytesLE n v, b < 256 := by
  induction n generalizing v with
  | zero => simp [bytesLE]
  | succ n ih => simpa [bytesLE, Nat.mod_lt] using ih (v / 256)

/-- The bytes that an atomic stores in a heap (R348). -/
def State.atomicBytes (s : State) (g : RegionP) (a : Access) (aop : Nat) (size16 : Bool) (opA opB : Nat) : List Nat :=
  bytesLE (atomicSize size16) (atomicStore aop (8 * atomicSize size16) (opA % 2 ^ (8 * atomicSize size16))
    (opB % 2 ^ (8 * atomicSize size16))
    (ofBytesLE (memRead s.pool.mem (heapByte g.inst (4096 * g.base + a.offset)) (atomicSize size16))))

/-- What an atomic stores in a heap reads back (R348). -/
theorem State.memRead_writeRegion_atomicBytes (s : State) {g : RegionP} (a : Access) (aop : Nat) (size16 : Bool) (opA opB : Nat)
    (hheap : g.kind ≠ 0) :
    memRead (s.writeRegion g a.offset (s.atomicBytes g a aop size16 opA opB)).pool.mem (heapByte g.inst (4096 * g.base + a.offset))
      (atomicSize size16) = s.atomicBytes g a aop size16 opA opB := by
  have hread := State.memRead_writeRegion s a.offset (data := s.atomicBytes g a aop size16 opA opB) hheap (bytesLE_lt_256 _ _)
  rwa [State.atomicBytes, bytesLE_length] at hread

theorem State.serveAtomic_pool (s : State) {g : RegionP} (r : Req) {a : Access} {aop : Nat} {size16 : Bool} (opA opB old : Nat)
    (haop : aop ≤ 6) (halign : a.offset % atomicSize size16 = 0) (hheap : g.kind ≠ 0) :
    (s.serveAtomic g r a aop size16 opA opB old).pool = (s.writeRegion g a.offset (s.atomicBytes g a aop size16 opA opB)).pool := by
  simp [State.serveAtomic, Nat.not_lt.mpr haop, halign, hheap, State.atomicBytes]

/-- The read issued is held under the next tag (R347). -/
theorem State.issueRead_find (s : State) (p : PendRead) : (s.issueRead p).mec.reads.find s.mec.readCount = some p := by
  simp [State.issueRead, Tbl.find_put_self]

/-! ### Locks (R366 to R368) -/

/-- A range that the LOCK's checks of R366 accept. -/
structure LockRangeOk (a : Access) : Prop where
  offset : a.offset % 64 = 0
  length : a.length % 64 = 0
  some : 0 < a.length
  bound : a.length ≤ 1048576

theorem State.serveLock_ok (s : State) (g : RegionP) (r : Req) {a : Access} (wait : Bool) (what : Instr) (hok : LockRangeOk a) :
    s.serveLock g r a wait what =
      if s.held a.region a.offset a.length then
        if wait && decide (s.locks.waits.length < 4096) then s.waitLock g r a true what else s.lockResult r a stLockBusy 0
      else s.grantLock r a := by
  obtain ⟨hoffset, hlength, hsome, hbound⟩ := hok
  refine if_neg ?_
  simp [hoffset, hlength, Nat.ne_of_gt hsome, hbound]

@[simp] theorem State.lockResult_locks (s : State) (r : Req) (a : Access) (status index : Nat) :
    (s.lockResult r a status index).locks = s.locks :=
  (State.spares_respond ..).locks

/-- A range that no entry meets takes the first free entry. -/
theorem State.grantLock_free {s : State} (r : Req) (a : Access) {free : Nat}
    (hfirst : (List.range 4096).find? (fun i => !(s.locks.table.keep fun _ e =>
      !(e.abandoned && e.meets a.region a.offset a.length)).has i) = some free)
    (hold : (s.locks.table.filter fun e => e.2.abandoned && e.2.meets a.region a.offset a.length) = []) :
    s.grantLock r a = (s.upLocks fun l => { l with
      table := (s.locks.table.keep fun _ e => !(e.abandoned && e.meets a.region a.offset a.length)).put free
        { region := a.region, offset := a.offset, length := a.length, owner := ownerOf r } }).lockResult r a stSuccess free := by
  unfold State.grantLock
  extract_lets old table
  have hfind : List.find? (fun i => !table.has i) (List.range 4096) = some free := hfirst
  rw [hfind]
  simp [old, table, hold]

/-- In an empty table the range takes the entry 0. -/
theorem State.grantLock_empty {s : State} (r : Req) (a : Access) (hempty : s.locks.table = []) :
    (s.grantLock r a).locks =
      { s.locks with table := [(0, { region := a.region, offset := a.offset, length := a.length, owner := ownerOf r })] } ∧
    (s.grantLock r a).pool = s.pool := by
  rw [State.grantLock_free r a (free := 0)]
  · simp [hempty, Tbl.keep, Tbl.put]
  · rw [List.find?_range_eq_some]
    simp [hempty, Tbl.keep, Tbl.has, Tbl.find]
  · simp [hempty]

theorem State.serveUnlock_alone {s : State} {r : Req} {a : Access} {i : Nat} (hwaits : s.locks.waits = [])
    (htable : s.locks.table = [(i, { region := a.region, offset := a.offset, length := a.length, owner := ownerOf r })]) :
    (s.serveUnlock r a).locks.table = [] ∧ (s.serveUnlock r a).pool = s.pool := by
  have hserve : s.serveUnlock r a =
      ((s.upLocks fun l => { l with table := l.table.del i }).lockResult r a stSuccess i).runWaits := by
    simp [State.serveUnlock, htable]
  rw [hserve, State.runWaits_none (by simp [hwaits])]
  simp [htable, Tbl.del]

theorem State.abandonOwner_alone {s : State} {i : Nat} {e : LockEntry} (htable : s.locks.table = [(i, e)]) (hheld : e.abandoned = false) :
    s.abandonOwner e.owner = s.abandonLock i := by
  simp [State.abandonOwner, htable, hheld]

/-! ### The statement -/

/-- Settles O26: each request by what its serving unit then does; a response leaves the memory and the lock table. -/
theorem engineRequestsServed : Obligations.EngineRequestsServed := by
  refine ⟨?put, ?get, ?atomic, ?lock, ?wait, ?unlock, ?abandon⟩
  case put =>
    intro s r a data last g hforward hguard hfree hnew
    refine ⟨_, exec_putArrival_serves last hforward hguard hfree hnew, rfl, fun hheap hbytes => ?_, fun hhost => ?_, fun x hout => ?_⟩
    · rw [State.servePut_pool]
      exact State.memRead_writeRegion _ a.offset hheap hbytes
    · rw [State.servePut_pool]
      exact State.writeRegion_pool_host _ a.offset data hhost
    · rw [State.servePut_pool]
      exact State.memByte_writeRegion_outside _ g data hout
  case get =>
    intro s r a g hforward hguard hfree
    refine ⟨_, exec_getArrival_serves false hforward hguard hfree, by simp, fun hheap => ?_, fun hhost => ?_⟩
    · simp [State.serveGet, hheap]
    · rw [State.serveGet, if_pos hhost]
      exact congrArg _ (State.issueRead_find ..)
  case atomic =>
    intro s r a aop size16 opA opB old g hforward hguard haop halign hheap hfree
    refine ⟨_, exec_atomicArrival_serves aop opA opB old hforward hguard hfree, ?_, fun x hout => ?_⟩
    · rw [State.serveAtomic_pool (a := { a with length := atomicSize size16 }) _ r opA opB old haop halign hheap]
      exact State.memRead_writeRegion_atomicBytes (s.engineBusy g.inst) { a with length := atomicSize size16 } aop size16 opA opB hheap
    · rw [State.serveAtomic_pool (a := { a with length := atomicSize size16 }) _ r opA opB old haop halign hheap]
      refine State.memByte_writeRegion_outside _ g _ ?_
      rwa [State.atomicBytes, bytesLE_length]
  case lock =>
    intro s r a wait g hforward hregion hpass hoffset hlength hsome hbound hempty
    have hgrant : s.serveLock g r a wait (.lockArrival r a wait) = s.grantLock r a := by
      simp [State.serveLock_ok s g r wait _ ⟨hoffset, hlength, hsome, hbound⟩, State.held, hempty]
    obtain ⟨hlocks, hpool⟩ := State.grantLock_empty r a hempty
    exact ⟨_, exec_lockArrival_serves wait hforward hregion hpass, by rw [hgrant, hlocks], by rw [hgrant, hlocks], by rw [hgrant, hpool]⟩
  case wait =>
    intro s r a g hforward hregion hpass hoffset hlength hsome hbound hheld hroom
    have hwait : s.serveLock g r a true (.lockArrival r a true) = s.waitLock g r a true (.lockArrival r a true) := by
      simp [State.serveLock_ok s g r true _ ⟨hoffset, hlength, hsome, hbound⟩, hheld, hroom]
    exact ⟨_, exec_lockArrival_serves true hforward hregion hpass, by simp [hwait, State.waitLock], by simp [hwait, State.waitLock]⟩
  case unlock =>
    intro s r a g i hforward hregion hpass hwaits htable
    exact ⟨_, exec_unlockArrival_serves hforward hregion hpass, State.serveUnlock_alone hwaits htable⟩
  case abandon =>
    intro s r queue i e hforward hwaits htable hheld howner
    have hlock := State.abandonLock_alone (s := s) (i := i) (e := e) (by simp [htable, Tbl.find]) hwaits
    refine ⟨s.abandonLock i, gives_ends ((if_neg (by simp [hforward])).trans ?_), by simp [hlock, htable, Tbl.put], by simp [hlock]⟩
    rw [← howner]
    exact State.abandonOwner_alone htable hheld

end Sys2Proof.Machine
end

section
/-! SUPPORT. Send descriptors: how one is taken from its ring, where an operation starts, which result stays in its slot, and the statement
about them. -/
namespace Sys2Proof.Machine

/-! ### Slots and triggers -/

theorem Tbl.find_mapv {α : Type} (t : Tbl α) (f : α → α) (k : Nat) : (t.mapv f).find k = (t.find k).map f := by
  induction t with
  | nil => rfl
  | cons e t ih =>
    obtain ⟨j, a⟩ := e
    simp only [Tbl.mapv, List.map_cons, Tbl.find]
    split
    · rfl
    · exact ih

theorem State.slot_upSlot {s : State} {tag : Nat} {o : OpSlot} (hslot : s.slot tag = some o) (f : OpSlot → OpSlot) :
    (s.upSlot tag f).mec = { s.mec with slots := s.mec.slots.put tag (f o) } := by
  have hfind : s.mec.slots.find tag = some o := hslot
  simp [State.upSlot, hfind]

@[simp] theorem fireOne_d (m : Mec) (t : Trigger) : (fireOne m t).d = t.d := by
  rw [fireOne]; (repeat' split) <;> rfl

/-- A trigger that fires keeps its descriptor (R354). -/
theorem State.fireTriggers_descs (s : State) : s.fireTriggers.mec.triggers.map (·.d) = s.mec.triggers.map (·.d) := by
  simp [State.fireTriggers, Function.comp_def]

/-- A slot that is free is taken (R330, R340): the operation waits to start, in order unless it was triggered. -/
theorem State.takeSlot_of_free {s : State} (q : Nat) (x : SendQueue) {engine tag : Nat} (d : Desc) (triggered : Bool)
    (hfree : s.freeSlot engine = some tag) :
    ∃ t, s.takeSlot q x engine d triggered = some (tag, t) ∧ t.waiting = s.waiting ∧
      t.mec.sendQ = s.mec.sendQ.put q { x with
        issue := x.issue ++ [tag], order := if triggered then x.order else x.order ++ [tag] } ∧
      ∃ fences, t.mec.slots = s.mec.slots.put tag {
        opTag := tag, queue := q, inst := x.inst, queueGen := x.gen, d, triggered, fenceOn := fences } := by
  unfold State.takeSlot
  generalize s.freeSlot engine = free at hfree ⊢
  subst hfree
  exact ⟨_, rfl, rfl, rfl, _, rfl⟩

/-! ### A descriptor is fetched (R335, R336, R340, R354) -/

/-- The only queue has its turn. -/
theorem State.myTurn_alone {s : State} {q : Nat} {x : SendQueue} (halone : s.mec.sendQ = [(q, x)]) : s.myTurn q x = true := by
  simp [State.myTurn, halone]

/-- A visit of the only queue changes its count of visits alone. -/
theorem State.countVisit_alone {s : State} {q : Nat} {x : SendQueue} (halone : s.mec.sendQ = [(q, x)]) :
    ∃ v, s.countVisit q x = s.upMec fun m => { m with sendQ := [(q, { x with visits := v })] } := by
  by_cases hround : x.visits < x.weight
  · exact ⟨x.visits + 1, by simp [State.countVisit, State.upMec, hround, halone, Tbl.find, Tbl.put]⟩
  · exact ⟨1, by simp [State.countVisit, State.upMec, hround, halone, Tbl.find, Tbl.put, Tbl.mapv]⟩

/-- The read of a queue's next descriptor (R335), as the protection unit sees it. -/
def ringRead (x : SendQueue) : MpuAccess :=
  { master := x.engine, kind := 2, privilege := 0, space := 0, address := x.base + 64 * (x.consumer % 2 ^ x.log2Size), pageCount := 1
    inst := x.inst }

theorem State.protect_ok {s : State} {a : MpuAccess} (hpass : s.mpuRefusal a = none) : s.protect a = (true, s) := by
  rw [State.protect, hpass]

/-- The fetch from the only queue, where the protection unit lets it read its ring (R335): the descriptor is taken. -/
theorem State.fetchDesc_alone {s : State} {q : Nat} {x : SendQueue} (d : Desc) (hready : s.fetchReady q x = true)
    (halone : s.mec.sendQ = [(q, x)])
    (hpass : s.mpuRefusal (ringRead x) = none) :
    ∃ v, s.fetchDesc q d true =
      (s.upMec fun m => { m with sendQ := [(q, { x with visits := v })] }).takeDesc q { x with visits := v } d := by
  obtain ⟨v, hvisit⟩ := State.countVisit_alone halone
  have hfind : s.mec.sendQ.find q = some x := by simp [halone, Tbl.find]
  refine ⟨v, ?_⟩
  have hopen : (s.countVisit q x).protect (ringRead x) = (true, s.countVisit q x) :=
    State.protect_ok (by rw [hvisit]; exact hpass)
  rw [hvisit, ringRead] at hopen
  simp [State.fetchDesc, hfind, hready, State.myTurn_alone halone, hopen, hvisit, Tbl.find]

/-- A descriptor that is neither triggered nor bad takes a slot and waits to start (R340). -/
theorem State.takeDesc_starts {s : State} (q : Nat) {x : SendQueue} {d : Desc} {tag : Nat} (herror : x.error = false)
    (hnow : d.triggered = false) (hgood : s.badDesc x.inst d = false) (hfree : s.freeSlot x.engine = some tag) :
    (s.takeDesc q x d).waiting = s.waiting ++ [opCommand q d] ∧
    ((s.takeDesc q x d).mec.sendQ.find q).map (fun y => (y.consumer, y.issue, y.order)) =
      some ((x.consumer + 1) % 65536, x.issue ++ [tag], x.order ++ [tag]) ∧
    ((s.takeDesc q x d).slot tag).map (fun o => (o.queue, o.inst, o.d, o.result)) = some (q, x.inst, d, none) := by
  obtain ⟨t, htake, hwaiting, hqueues, fences, hslots⟩ :=
    State.takeSlot_of_free q { x with consumer := (x.consumer + 1) % 65536, stalled := false } d false hfree
  have hdesc : s.takeDesc q x d = { t with waiting := t.waiting ++ [opCommand q d] } := by
    simp only [State.takeDesc, htake]
    simp [hnow, hgood, herror]
  rw [hdesc]
  exact ⟨by simp [hwaiting], by simp [hqueues], by simp [State.slot, hslots]⟩

/-- A triggered descriptor joins the triggers of its engine (R354). -/
theorem State.takeDesc_triggers {s : State} (q : Nat) {x : SendQueue} {d : Desc} (herror : x.error = false) (hlater : d.triggered = true)
    (hgood : s.badDesc x.inst d = false) (hroom : (s.mec.triggers.filter fun t => t.engine == x.engine).length < 8192) :
    s.takeDesc q x d = (s.upMec fun m => { m with
      sendQ := m.sendQ.put q { x with consumer := (x.consumer + 1) % 65536, stalled := false }
      triggers := m.triggers ++ [{ engine := x.engine, queue := q, d }] }).fireTriggers := by
  simp [State.takeDesc, hlater, hgood, herror, Nat.not_le.mpr hroom]

/-- The only trigger, which may start, takes a slot and waits to start (R354). -/
theorem State.fireTrigger_alone {s : State} {engine tag : Nat} {t : Trigger} {x : SendQueue} (halone : s.mec.triggers = [t])
    (hfire : s.canFire engine t = true) (hqueue : s.mec.sendQ.find t.queue = some x) (hfree : s.freeSlot engine = some tag)
    (herror : x.error = false) :
    (s.fireTrigger engine).mec.triggers = [] ∧ (s.fireTrigger engine).waiting = s.waiting ++ [opCommand t.queue t.d] ∧
    ((s.fireTrigger engine).slot tag).map (fun o => (o.queue, o.d, o.triggered)) = some (t.queue, t.d, true) := by
  obtain ⟨u, htake, hwaiting, -, fences, hslots⟩ := State.takeSlot_of_free t.queue x t.d true hfree
  have hfirst : takeFirst (s.canFire engine) s.mec.triggers = some (t, []) := by simp [halone, takeFirst, hfire]
  simp only [State.fireTrigger, hfirst, hqueue, htake, herror]
  refine ⟨rfl, by simp [hwaiting], ?_⟩
  simp only [State.slot, State.upMec_mec, hslots, Tbl.find_mapv, Tbl.find_put_self, Option.map_some, Bool.false_eq_true, if_false]
  split <;> rfl

/-! ### An operation starts (R338 to R340, R353, R365) -/

theorem State.startOp_runs {s : State} {queue tag op : Nat} {x : SendQueue} {o : OpSlot} {d : Desc}
    (htag : s.startTag queue d = some tag) (hqueue : s.mec.sendQ.find queue = some x) (hslot : s.slot tag = some o)
    (hruns : s.engineRuns (tag / 512) = true) (hfree : s.fenced x tag o = false) (hop : d.op = op) (f : OpSlot → State → State) :
    s.startOp queue d op f = f o (s.unqueue queue tag) := by
  simp [State.startOp, htag, hqueue, hslot, hop, hruns, hfree]

theorem State.unqueue_mec (s : State) (q tag : Nat) : ∃ queues, (s.unqueue q tag).mec = { s.mec with sendQ := queues } := by
  simp only [State.unqueue, State.upMec_mec]
  split
  · exact ⟨_, rfl⟩
  · exact ⟨_, rfl⟩

@[simp] theorem State.unqueue_counters (s : State) (q tag : Nat) : (s.unqueue q tag).mec.counters = s.mec.counters := by
  obtain ⟨_, h⟩ := s.unqueue_mec q tag
  rw [h]

@[simp] theorem State.unqueue_counterIx (s : State) (q tag i idx : Nat) : (s.unqueue q tag).counterIx i idx = s.counterIx i idx := by
  obtain ⟨_, h⟩ := s.unqueue_mec q tag
  simp only [State.counterIx, State.engInst, h]
  rfl

/-- A queue that no longer lists an operation holds the locks that it held. -/
@[simp] theorem State.unqueue_queueLocks (s : State) (queue waiting q tag : Nat) :
    (s.unqueue queue waiting).queueLocks q tag = s.queueLocks q tag := by
  simp only [State.queueLocks, State.unqueue, State.upMec_mec]
  split
  · rfl
  next x hx =>
    rw [Tbl.find_put]
    split
    next heq => simp [heq, hx]
    · rfl

theorem State.withLocal_ok {s : State} {o : OpSlot} {kind offset n : Nat} (hpass : s.localOk o kind offset n = (true, s)) (f : State → State) :
    s.withLocal o kind offset n f = f s := by
  rw [State.withLocal, hpass]

theorem State.startAtomic_short {s : State} {o : OpSlot} (hshort : o.d.size16 = false) (hpass : s.localOk o 1 0 8 = (true, s)) :
    s.startAtomic o = s.sendOp o 0x02 28 false [o.d.region, o.d.key, o.d.remoteOffset]
      (o.d.aop :: (bytesLE 8 o.d.operandA ++ bytesLE 8 o.d.operandB)) true true := by
  simp [State.startAtomic, hshort, State.withLocal_ok hpass, State.sendAtomic, accessFields, b2n]

theorem State.startLock_room {s : State} {o : OpSlot} (hroom : s.queueLocks o.queue o.opTag < 8) :
    s.startLock o = s.fresh.2.sendOp o 0x03 16 false [o.d.region, o.d.key, o.d.remoteOffset]
      (bytesLE 4 o.d.length ++ [s.fresh.1 % 2]) true true :=
  if_neg (Nat.not_le.mpr hroom)

/-! ### A result stays while packets are not acknowledged (R338, R340) -/

/-- The oldest operation of a queue is not drained while packets of it are not acknowledged. -/
theorem State.drainOrder_unacked {s : State} {q tag : Nat} {x : SendQueue} {o : OpSlot} (hqueue : s.mec.sendQ.find q = some x)
    (horder : x.order = [tag]) (hslot : s.slot tag = some o) (hunacked : o.unacked ≠ 0) (fuel : Nat) : s.drainOrder q fuel = s := by
  cases fuel with
  | zero => rfl
  | succ fuel =>
    simp only [State.drainOrder, hqueue, horder, hslot]
    split
    · rfl
    · simp [State.writable, hunacked]

theorem State.drainTriggered_none {s : State} (q : Nat) (hnone : ∀ e ∈ s.mec.slots, e.2.triggered = false) : s.drainTriggered q = s := by
  have hempty : (s.mec.slots.filter fun e => e.2.queue == q && e.2.triggered) = [] :=
    List.filter_eq_nil_iff.mpr fun e he => by simp [hnone e he]
  rw [State.drainTriggered, hempty]
  rfl

theorem State.finishOp_unacked {s : State} {tag : Nat} {x : OpSlot} {q : SendQueue} (status bytes : Nat) (hslot : s.slot tag = some x)
    (hown : x.isRget = false) (hstand : x.standIn = none) (hopen : x.result = none) (hunacked : x.unacked ≠ 0)
    (hqueue : s.mec.sendQ.find x.queue = some q) (horder : q.order = [tag]) (hnone : ∀ e ∈ s.mec.slots, e.2.triggered = false) :
    s.finishOp tag status bytes = s.upSlot tag fun o => { o with result := some (status, bytes) } := by
  have hmec := State.slot_upSlot hslot fun o => { o with result := some (status, bytes) }
  have hstart : s.finishOp tag status bytes = (s.upSlot tag fun o => { o with result := some (status, bytes) }).drainQueue x.queue := by
    simp [State.finishOp, hslot, hown, hstand, hopen]
  have hstays := State.drainOrder_unacked (s := s.upSlot tag fun o => { o with result := some (status, bytes) }) (x := q)
    (o := { x with result := some (status, bytes) }) (by rw [hmec]; exact hqueue) horder (by simp [State.slot, hmec]) hunacked
  rw [hstart, State.drainQueue, hstays]
  refine State.drainTriggered_none _ fun e he => ?_
  rw [hmec] at he
  obtain rfl | he := Tbl.mem_put he
  · exact hnone (tag, x) (Tbl.mem_of_find hslot)
  · exact hnone e he

/-! ### The statement -/

/-- Settles O25: a fetched descriptor by what takes it, an operation that starts by its own start, a result by what it may not drain. -/
theorem descriptorOperationsTakeEffect : Obligations.DescriptorOperationsTakeEffect := by
  refine ⟨?fetch, ?triggered, ?start, ?fire, ?rnrDelay, ?lockAge, ?result⟩
  case fetch =>
    intro s queue tag x bits d hd hqueue hready halone herror hnow hgood hfree hpass
    obtain ⟨v, hfetch⟩ := State.fetchDesc_alone d hready halone hpass
    subst hd
    exact ⟨_, gives_ends hfetch, State.takeDesc_starts queue (x := { x with visits := v }) herror hnow hgood hfree⟩
  case triggered =>
    intro s queue x bits d hd hqueue hready halone herror hlater hgood hroom hpass
    obtain ⟨v, hfetch⟩ := State.fetchDesc_alone d hready halone hpass
    subst hd
    have htake := hfetch.trans (State.takeDesc_triggers queue (x := { x with visits := v }) herror hlater hgood hroom)
    exact ⟨_, gives_ends htake, rfl, rfl, by rw [State.fireTriggers_descs]; simp⟩
  case start =>
    intro s queue tag x o d htag hqueue hslot hruns hfree
    have hstart := fun op hop => State.startOp_runs (op := op) htag hqueue hslot hruns hfree hop
    refine ⟨fun hop => ?_, fun hop hpass => ?_, fun hop hshort hpass => ?_, fun hop => ?_, fun hop hroom => ?_, fun hop => ?_,
      fun hop c hc => ?_, fun hop c hc => ?_, fun hop => ?_⟩
    · exact ⟨_, gives_ends (hstart 1 hop _), rfl⟩
    · exact ⟨_, gives_ends ((hstart 2 hop _).trans (State.withLocal_ok hpass _)), rfl⟩
    · exact ⟨_, gives_ends ((hstart 3 hop _).trans (State.startAtomic_short hshort hpass)), rfl⟩
    · exact ⟨_, gives_ends (hstart 4 hop _), rfl⟩
    · exact ⟨_, _, Nat.mod_lt _ (by decide), gives_ends ((hstart 5 hop _).trans (State.startLock_room (by simpa using hroom))), rfl⟩
    · exact ⟨_, gives_ends (hstart 6 hop _), rfl⟩
    · refine ⟨_, gives_ends ((hstart 7 hop _).trans ?_), rfl⟩
      simp [hc, State.addCounter]
    · refine ⟨_, gives_ends ((hstart 8 hop _).trans ?_), rfl⟩
      simp [hc]
    · exact ⟨_, gives_ends (hstart 9 hop _), rfl⟩
  case fire =>
    intro s engine tag t x halone hengine hfired hqueue hruns henabled hslots hfree herror
    have hfire : s.canFire engine t = true := by simp [State.canFire, hengine, hfired, hqueue, hruns, henabled, hslots]
    exact ⟨_, gives_ends rfl, State.fireTrigger_alone halone hfire hqueue hfree herror⟩
  case rnrDelay =>
    intro s tag o hslot hwait hforward hfirst
    exact ⟨_, gives_ends (by simp [hslot, hwait, hforward, hfirst]), rfl⟩
  case lockAge =>
    intro s index e hentry hheld hfirst hforward
    exact ⟨_, gives_ends (by simp only [hentry, hheld, hfirst, hforward]; rfl), by simp [hheld], by simp, by simp⟩
  case result =>
    intro s tag status bytes x q hslot _ hown hstand hopen _ hunacked hqueue horder hnone
    exact State.finishOp_unacked status bytes hslot hown hstand hopen hunacked hqueue horder hnone

end Sys2Proof.Machine
end

section
/-! SUPPORT. Responses and reads that return: the operation that a response acts on, the read that ends, and the statement about them. -/
namespace Sys2Proof.Machine

/-! ### The operation that a response names (R338, R352) -/

/-- A response of the operation's kind acts on it while it has no result. -/
theorem State.answered_open {s : State} {r : Rsp} {o : OpSlot} {ops : List Nat} (hforward : s.forwarding = true)
    (hslot : s.rspSlot r = some o) (hown : o.isRget = false) (hopen : o.result = none) (hop : o.d.op ∈ ops) (f : OpSlot → State → State) :
    s.answered r ops f = f o s := by
  simp [State.answered, hforward, hslot, hown, hopen, hop]

/-- A refused SEND whose limit is 0 waits for its next turn (R363, R375). -/
theorem State.refusedSend_waits {s : State} {o : OpSlot} (hlimit : o.rnrLimit.getD s.mec.rnrLimit = 0) :
    s.refusedSend o = s.upSlot o.opTag fun x => { x with rnrCount := o.rnrCount + 1, rnrWait := true, rnrLimit := some s.mec.rnrLimit } := by
  simp [State.refusedSend, hlimit]

/-- A part of a GET is written; the last one completes it (R347). -/
theorem exec_getDataArrival_writes {s : State} {r : Rsp} {o : OpSlot} (data : List Nat) (hforward : s.forwarding = true)
    (hslot : s.rspSlot r = some o) (hown : o.isRget = false) (hopen : o.result = none) (hop : o.d.op = 2) :
    Gives (exec (.getDataArrival r data) s)
      (if o.d.length ≤ o.bytes + data.length then
        ((s.localWrite o r.dataOffset data).upSlot o.opTag fun x => { x with bytes := x.bytes + data.length }).finishOp o.opTag stSuccess o.d.length
      else (s.localWrite o r.dataOffset data).upSlot o.opTag fun x => { x with bytes := x.bytes + data.length }) :=
  gives_ends (State.answered_open hforward hslot hown hopen (by simp [hop]) _)

/-- A part of a rendezvous message is written; the last one ends it (R361). -/
theorem exec_rgetDataArrival_writes {s : State} {r : Rsp} {o : OpSlot} {m : Msg} (data : List Nat) (hforward : s.forwarding = true)
    (hslot : s.rspSlot r = some o) (hmsg : s.rgetMsg r.opTag = some m) (hread : o.isRget = true) :
    Gives (exec (.rgetDataArrival r data) s)
      (if o.d.length ≤ o.bytes + data.length then
        ((s.localWrite o r.dataOffset data).upSlot o.opTag fun x => { x with bytes := x.bytes + data.length }).rendezvousDone m o.opTag o.d.length
      else (s.localWrite o r.dataOffset data).upSlot o.opTag fun x => { x with bytes := x.bytes + data.length }) :=
  gives_ends (by simp [hforward, hslot, hmsg, hread])

/-! ### Rendezvous reads (R361) -/

theorem State.serveRget_open {s : State} {rvTag offset length : Nat} {o : OpSlot} (r : Req) (hslot : s.slot rvTag = some o) (hop : o.d.op = 4)
    (hown : o.isRget = false) (hopen : o.result = none) (hwithin : offset + length ≤ o.d.length) :
    s.serveRget r rvTag (s.instance_ o.inst).gen offset length =
      if o.d.localHeap then
        s.sendHeapData r 0x16 o.inst (rvTag / 4096) (heapByte o.inst o.d.localAddr) offset (offset + length) (ceilDiv length 4096)
      else s.issueRead {
        inst := o.inst, req := r, opcode := 0x16, address := o.d.localAddr + offset, offset, left := length
        master := rvTag / 512, slot := some rvTag } := by
  simp [State.serveRget, hslot, hop, hown, hopen, Nat.not_lt.mpr hwithin]

/-! ### Reads of host memory that return (R347, R477) -/

@[simp] theorem State.readDone_find (s : State) (tag i : Nat) : (s.readDone tag i).mec.reads.find tag = none := by
  simp [State.readDone]

/-- A read for a GET that returns is served (R347). -/
theorem State.readReturns_get {s : State} {tag : Nat} {p : PendRead} (values : List Nat) (bad : Bool) (hread : s.mec.reads.find tag = some p)
    (hfirst : p.again = none) (hget : p.opcode = 0x11) :
    s.readReturns tag values bad = (s.readDone tag p.inst).serveRead p values bad := by
  simp [State.readReturns, hread, hfirst, hget]

/-- The last part of a GET's data goes on to its requester (R347). -/
theorem State.serveRead_last (s : State) {p : PendRead} (values : List Nat) (hlast : p.left ≤ p.part) :
    s.serveRead p values false = s.sendData p.req p.opcode p.inst p.cluster p.offset p.source (values.take p.part) := by
  simp [State.serveRead, State.getRest, PendRead.more, Nat.not_lt.mpr hlast]

/-- Poison, or a read that never came, answers a GET (R347, R477). -/
theorem State.serveRead_bad (s : State) {p : PendRead} (values : List Nat) (hget : p.slot = none) :
    s.serveRead p values true = s.engError p.req p.cluster stPoisoned := by
  simp [State.serveRead, hget]

/-! ### The statement -/

/-- Settles O27: each response by the operation that it is answered for, each read by what serves it. -/
theorem engineResponsesTakeEffect : Obligations.EngineResponsesTakeEffect := by
  refine ⟨?answers, ?error, ?rget, ?rgetData, ?read, ?timeout⟩
  case answers =>
    intro s r o hforward hslot hown hopen _
    have hanswered := fun ops hop => State.answered_open (ops := ops) hforward hslot hown hopen hop
    refine ⟨fun hop => ?_, fun hop data hmore => ?_, fun hop data hlast => ?_, fun hop old => ?_, fun hop => ?_, fun hop hlimit => ?_,
      fun hop bytes => ?_, fun hop index device q hqueue herror hstays hstatus => ?_, fun hop index device q hqueue hstatus => ?_⟩
    · exact ⟨_, gives_ends (hanswered [1] (by simp [hop]) _), rfl⟩
    · exact ⟨_, exec_getDataArrival_writes data hforward hslot hown hopen hop, if_neg (Nat.not_le.mpr hmore)⟩
    · exact ⟨_, exec_getDataArrival_writes data hforward hslot hown hopen hop, if_pos hlast⟩
    · exact ⟨_, gives_ends (hanswered [3] (by simp [hop]) _), rfl⟩
    · exact ⟨_, gives_ends (hanswered [4] (by simp [hop]) _), rfl⟩
    · exact ⟨_, gives_ends (hanswered [4] (by simp [hop]) _), State.refusedSend_waits hlimit⟩
    · exact ⟨_, gives_ends (hanswered [4] (by simp [hop]) _), rfl⟩
    · refine ⟨_, gives_ends ((hanswered [5, 6] (by simp [hop]) _).trans ?_), rfl⟩
      simp [hqueue, hop, isSuccess, hstatus, herror, hstays]
    · refine ⟨_, gives_ends ((hanswered [5, 6] (by simp [hop]) _).trans ?_), rfl⟩
      simp [hqueue, hop, isSuccess, hstatus]
  case error =>
    intro s r o hforward hslot
    exact ⟨_, gives_ends (by simp [hforward, hslot]), rfl⟩
  case rget =>
    intro s r rvTag offset length o hforward hslot hop hown hopen hwithin
    have hserve := State.serveRget_open r hslot hop hown hopen hwithin
    refine ⟨_, gives_ends ((if_neg (by simp [hforward])).trans hserve), ?_, fun hheap => if_pos hheap, fun hhost => ?_⟩
    · split <;> simp
    · rw [if_neg (by simp [hhost]), State.issueRead_find]
      rfl
  case rgetData =>
    intro s r o m data hforward hslot hmsg hread
    exact ⟨_, exec_rgetDataArrival_writes data hforward hslot hmsg hread, fun hmore => if_neg (Nat.not_le.mpr hmore), fun hlast => if_pos hlast⟩
  case read =>
    intro s tag values p hread hfirst hget hlast
    have hserve := (State.readReturns_get values false hread hfirst hget).trans (State.serveRead_last _ values hlast)
    rw [hget] at hserve
    exact ⟨_, gives_ends hserve, (State.spares_respond ..).reads tag (s.readDone_find tag p.inst), rfl⟩
  case timeout =>
    intro s tag p hread hfirst hget hslot
    have hserve := (State.readReturns_get [] true hread hfirst hget).trans (State.serveRead_bad _ [] hslot)
    exact ⟨_, gives_ends hserve, (State.spares_respond ..).reads tag (s.readDone_find tag p.inst), rfl⟩

end Sys2Proof.Machine
end

section
/-! SUPPORT. The matching unit with one message: a stream's context, what a first packet opens, where the message ends up, and the statement
about messages and receives that meet. -/
namespace Sys2Proof.Machine

/-! ### A stream's context (R359) -/

/-- A stream that nothing of has been refused or passed over, at a message number (R359). -/
def streamAt (r : Req) (expected : Nat) : MtcCtx := { srcDevice := r.srcDevice, srcInst := r.srcInst, expected }

theorem State.mtcCtx_new {s : State} (r : Req) (hnone : s.mtc.ctxs = []) : s.mtcCtx r.srcDevice r.srcInst = streamAt r 0 := by
  simp [State.mtcCtx, hnone, streamAt]

theorem State.mtcCtx_alone {s : State} {r : Req} {n : Nat} (hctxs : s.mtc.ctxs = [streamAt r n]) :
    s.mtcCtx r.srcDevice r.srcInst = streamAt r n := by
  simp [State.mtcCtx, hctxs, streamAt]

theorem State.upMtcCtx_alone {s : State} {r : Req} (hctxs : ∀ c ∈ s.mtc.ctxs, c = streamAt r c.expected) (f : MtcCtx → MtcCtx) :
    (s.upMtcCtx r.srcDevice r.srcInst f).mtc = { s.mtc with ctxs := [f (s.mtcCtx r.srcDevice r.srcInst)] } := by
  have hothers : (s.mtc.ctxs.filter fun c => !(c.srcDevice == r.srcDevice && c.srcInst == r.srcInst)) = [] := by
    refine List.filter_eq_nil_iff.mpr fun c hc => ?_
    rw [hctxs c hc]
    simp [streamAt]
  simp only [State.upMtcCtx, State.upMtc_mtc, hothers, List.nil_append]

/-! ### One message (R358, R359, R361) -/

theorem Msg.isIt_self (m : Msg) : m.isIt m.srcDevice m.srcInst m.msn = true := by simp [Msg.isIt]

theorem State.putMsg_first {s : State} {m : Msg} (hnone : s.mtc.msgs = []) : (s.putMsg m).mtc = { s.mtc with msgs := [m] } := by
  simp [State.putMsg, hnone]

theorem State.putMsg_alone {s : State} {m x : Msg} (halone : s.mtc.msgs = [x]) (hsame : x.isIt m.srcDevice m.srcInst m.msn = true) :
    (s.putMsg m).mtc = { s.mtc with msgs := [m] } := by
  simp [State.putMsg, halone, hsame]

theorem State.dropMsg_alone {s : State} {m x : Msg} (halone : s.mtc.msgs = [x]) (hsame : x.isIt m.srcDevice m.srcInst m.msn = true) :
    (s.dropMsg m).mtc = { s.mtc with msgs := [] } := by
  simp [State.dropMsg, halone, hsame]

/-- The acknowledgement of the only message marks it at most (R361). -/
theorem State.ackMsg_alone {s : State} {m : Msg} (halone : s.mtc.msgs = [m]) (hrget : m.rget = none) :
    ∃ acked, (s.ackMsg m).mtc = { s.mtc with msgs := [{ m with acked }] } := by
  rw [State.ackMsg]
  split
  · exact ⟨m.acked, by simp [← halone]⟩
  · have hput := State.putMsg_alone (m := { m with acked := true }) halone m.isIt_self
    refine ⟨true, ((State.spares_respond ..).mtc ?_).trans hput⟩
    rw [hput]
    simpa using hrget

@[simp] theorem State.useHeap_mtc (s : State) (i : Nat) (f : Nat → Nat) : (s.useHeap i f).mtc = s.mtc := rfl

@[simp] theorem State.place_mtc (s : State) (p : Posted) (m : Msg) (offset : Nat) (data : List Nat) : (s.place p m offset data).mtc = s.mtc := by
  simp only [State.place, State.localWrite]
  (repeat' split) <;> simp

@[simp] theorem State.receiveRecord_mtc (s : State) (rq status bytes wrId matchBits srcDevice srcInst reason retry : Nat) :
    (s.receiveRecord rq status bytes wrId matchBits srcDevice srcInst reason retry).mtc = s.mtc :=
  congrArg (·.2.1) (s.receiveRecord_matching ..)

/-- The only message, without a receive, is the last of the unexpected ones (R358). -/
theorem State.enterMatching_unexpected {s : State} {m : Msg} (halone : s.mtc.msgs = [m]) (hposted : s.mtc.posted = []) (hrget : m.rget = none) :
    (s.enterMatching m).pool = s.pool ∧
    ∃ acked, (s.enterMatching m).mtc = { s.mtc with msgs := [{ m with unexpected := true, acked }] } := by
  have hdrop := State.dropMsg_alone halone m.isIt_self
  have henter : s.enterMatching m =
      ((s.dropMsg m).upMtc fun t => { t with msgs := t.msgs ++ [{ m with unexpected := true }] }).ackMsg { m with unexpected := true } := by
    simp [State.enterMatching, hposted, takeFirst, State.dropMsg]
  rw [henter]
  refine ⟨by simp, ?_⟩
  obtain ⟨acked, hack⟩ := State.ackMsg_alone (m := { m with unexpected := true })
    (s := (s.dropMsg m).upMtc fun t => { t with msgs := t.msgs ++ [{ m with unexpected := true }] }) (by simp [hdrop]) hrget
  exact ⟨acked, by rw [hack]; simp [hdrop]⟩

/-- An eager message is taken by the only receive, which matches it (R358). -/
theorem State.enterMatching_takes {s : State} {m : Msg} {p : Posted} (hposted : s.mtc.posted = [p]) (hmatch : matches_ m p = true)
    (heager : m.rendezvous = false) : s.enterMatching m = (s.upMtc fun t => { t with posted := [] }).takeEager m p := by
  simp [State.enterMatching, hposted, takeFirst, hmatch, State.takeMsg, heager]

/-- A message that a receive has taken (R361). -/
def takenMsg (m : Msg) (p : Posted) : Msg := { m with taken := some p, unexpected := false, got := m.come, data := [], heap := 0 }

/-- An eager message that has come whole leaves with the receive that takes it (R361). -/
theorem State.takeEager_whole {s : State} {m : Msg} (p : Posted) (halone : s.mtc.msgs = [m]) (hrget : m.rget = none)
    (hwhole : m.length ≤ m.come) : (s.takeEager m p).mtc = { s.mtc with msgs := [] } := by
  obtain ⟨u, htake, humtc⟩ : ∃ u : State, s.takeEager m p = ((u.putMsg (takenMsg m p)).ackMsg (takenMsg m p)).finishEager (takenMsg m p) ∧
      u.mtc = s.mtc := ⟨_, rfl, foldl_keeps State.mtc (fun _ _ => State.place_mtc ..) _ s⟩
  have hput : (u.putMsg (takenMsg m p)).mtc = { s.mtc with msgs := [takenMsg m p] } := by
    rw [State.putMsg_alone (m := takenMsg m p) (x := m) (by rw [humtc, halone]) m.isIt_self, humtc]
  obtain ⟨acked, hack⟩ := State.ackMsg_alone (s := u.putMsg (takenMsg m p)) (m := takenMsg m p) (by rw [hput]) hrget
  have hdrop := State.dropMsg_alone (s := (u.putMsg (takenMsg m p)).ackMsg (takenMsg m p)) (m := takenMsg m p)
    (x := { takenMsg m p with acked }) (by rw [hack]) m.isIt_self
  rw [htake]
  simp only [State.finishEager, takenMsg, Nat.not_lt.mpr hwhole, if_false, State.receiveRecord_mtc]
  exact hdrop.trans (by rw [hack, hput])

/-! ### The first packet of a stream (R359) -/

/-- A stream at its end does not go on. -/
theorem State.advance_done {s : State} {r : Req} {n : Nat} (hctxs : s.mtc.ctxs = [streamAt r n]) (hmsgs : ∀ m ∈ s.mtc.msgs, m.msn ≠ n)
    (fuel : Nat) : s.advance r.srcDevice r.srcInst fuel = s := by
  cases fuel with
  | zero => rfl
  | succ fuel =>
    have hnone : s.msg r.srcDevice r.srcInst n = none :=
      List.find?_eq_none.mpr fun m hm => by simp [Msg.isIt, hmsgs m hm]
    rw [State.advance, State.mtcCtx_alone hctxs]
    simp [streamAt, hnone]

/-- The message that a new stream expects enters matching (R358, R359). -/
theorem State.advanceAll_first {s : State} {r : Req} {m : Msg} (hctxs : s.mtc.ctxs = [streamAt r 0]) (halone : s.mtc.msgs = [m])
    (hit : m.isIt r.srcDevice r.srcInst 0 = true) (hfirst : m.first = true) (hearly : m.early = true) :
    ∃ t : State, s.advanceAll r.srcDevice r.srcInst = (t.enterMatching m).advance r.srcDevice r.srcInst 1 ∧
      t.mtc = { s.mtc with ctxs := [streamAt r 1] } ∧ t.pool = s.pool := by
  have hmsg : s.msg r.srcDevice r.srcInst 0 = some m := by simp [State.msg, halone, hit]
  have hctx := State.mtcCtx_alone hctxs
  refine ⟨s.upMtcCtx r.srcDevice r.srcInst fun c => { c with expected := (c.expected + 1) % 65536 }, ?_, ?_, by simp⟩
  · rw [State.advanceAll, halone, hctx]
    simp [State.advance, hctx, streamAt, hmsg, hfirst, hearly]
  · rw [State.upMtcCtx_alone (by simp [hctxs, streamAt]), hctx]
    rfl

/-- The first packet `m` of a new stream, of an enabled instance, while no message is known. -/
structure FirstOfStream (s : State) (r : Req) (m : Msg) : Prop where
  ctxs : s.mtc.ctxs = []
  msgs : s.mtc.msgs = []
  device : m.srcDevice = r.srcDevice
  source : m.srcInst = r.srcInst
  msn : m.msn = 0
  first : m.first = true
  early : m.early = true
  heap : m.heap = 0
  rget : m.rget = none
  enabled : s.enabled m.inst = true

/-- The state in which a first packet with this number is not refused (R363): the stream's floor at it is gone. -/
def State.clearFloor (s : State) (r : Req) (msn : Nat) : State :=
  s.upMtcCtx r.srcDevice r.srcInst fun c => { c with floor := c.floor.filter fun f => f.1 ≠ msn }

/-- The message of a first packet as it is kept: its entry's place, and its heap units unless a receive takes it at once (R361, R362). -/
def State.keptMsg (s : State) (r : Req) (m : Msg) : Msg :=
  { m with
    onDie := ((s.clearFloor r m.msn).entryPlace m.inst).getD true
    heap := if (s.mtc.posted.any fun p => matches_ m p) || m.rendezvous then 0 else heapUnits m.length }

theorem State.clearFloor_mtc {s : State} (r : Req) (msn : Nat) (hctxs : s.mtc.ctxs = []) :
    (s.clearFloor r msn).mtc = { s.mtc with ctxs := [streamAt r 0] } := by
  rw [State.clearFloor, State.upMtcCtx_alone (by simp [hctxs]), State.mtcCtx_new r hctxs]
  rfl

/-- The first packet of a new stream, of an enabled instance that has room for it or a receive, is kept (R359, R362). -/
theorem State.firstPacket_kept {s : State} {r : Req} {m : Msg} (h : FirstOfStream s r m)
    (hroom : (s.mtc.posted.any fun p => matches_ m p) = true ∨ s.quotaRefusal m.inst 1 (if m.rendezvous then 0 else heapUnits m.length) = none) :
    s.firstPacket r m = ((((s.clearFloor r m.msn).useHeap m.inst fun u => u + (s.keptMsg r m).heap - m.heap).putMsg (s.keptMsg r m)).ackMsg
      (s.keptMsg r m)).advanceAll r.srcDevice r.srcInst := by
  have hctx := State.mtcCtx_new r h.ctxs
  have hmsg : s.msg r.srcDevice r.srcInst m.msn = none := by simp [State.msg, h.msgs]
  have hnext : modSub 65536 m.msn (streamAt r 0).expected = 0 := by simp [h.msn, modSub, streamAt]
  have hfloor : aboveFloor (streamAt r 0) m.msn = false := rfl
  have hpassed : (streamAt r 0).passed.contains m.msn = false := rfl
  cases hany : s.mtc.posted.any fun p => matches_ m p with
  | true =>
    simp only [State.firstPacket, hctx, hmsg, hnext, hfloor, hpassed, h.enabled, hany, State.setHeap, State.keptMsg]
    simp [h.heap, State.clearFloor]
  | false =>
    have hquota := hroom.resolve_left (by simp [hany])
    simp only [State.firstPacket, hctx, hmsg, hnext, hfloor, hpassed, h.enabled, hany, State.setHeap, State.keptMsg]
    cases hkind : m.rendezvous with
    | true =>
      rw [hkind, if_pos rfl] at hquota
      simp [h.heap, hquota, b2n, State.clearFloor]
    | false =>
      rw [hkind, if_neg Bool.false_ne_true] at hquota
      simp [h.heap, hquota, b2n, State.clearFloor]

/-- The first packet of a new stream, of an enabled instance that has room for it or a receive, enters matching (R358, R359, R362). -/
theorem State.firstPacket_enters {s : State} {r : Req} {m : Msg} (h : FirstOfStream s r m)
    (hroom : (s.mtc.posted.any fun p => matches_ m p) = true ∨ s.quotaRefusal m.inst 1 (if m.rendezvous then 0 else heapUnits m.length) = none) :
    ∃ (t : State) (onDie : Bool) (heap : Nat) (acked : Bool),
      s.firstPacket r m = (t.enterMatching { m with onDie, heap, acked }).advance r.srcDevice r.srcInst 1 ∧
      t.mtc = { s.mtc with ctxs := [streamAt r 1], msgs := [{ m with onDie, heap, acked }] } ∧ t.pool = s.pool := by
  have hit : m.isIt r.srcDevice r.srcInst 0 = true := by simp [Msg.isIt, h.device, h.source, h.msn]
  rw [State.firstPacket_kept h hroom]
  generalize hopen : (s.clearFloor r m.msn).useHeap m.inst (fun u => u + (s.keptMsg r m).heap - m.heap) = t
  have hstream : t.mtc = { s.mtc with ctxs := [streamAt r 0] } := by rw [← hopen]; exact State.clearFloor_mtc r m.msn h.ctxs
  have hpool : t.pool = s.pool := by simp [← hopen, State.clearFloor]
  have hput : (t.putMsg (s.keptMsg r m)).mtc = { s.mtc with ctxs := [streamAt r 0], msgs := [s.keptMsg r m] } := by
    rw [State.putMsg_first (by simp [hstream, h.msgs]), hstream]
  obtain ⟨acked, hack⟩ := State.ackMsg_alone (s := t.putMsg (s.keptMsg r m)) (m := s.keptMsg r m) (by rw [hput]) h.rget
  rw [hput] at hack
  obtain ⟨u, hadvance, humtc, hupool⟩ := State.advanceAll_first (r := r) (m := { s.keptMsg r m with acked })
    (s := (t.putMsg (s.keptMsg r m)).ackMsg (s.keptMsg r m)) (by rw [hack]) (by rw [hack]) hit h.first h.early
  exact ⟨u, _, _, acked, hadvance, by rw [humtc, hack]; rfl, by simp [hupool, hpool]⟩

/-- A first packet that no receive awaits becomes the only message of its stream, unexpected (R358, R359). -/
theorem State.firstPacket_unexpected {s : State} {r : Req} {m : Msg} (h : FirstOfStream s r m) (hposted : s.mtc.posted = [])
    (hquota : s.quotaRefusal m.inst 1 (if m.rendezvous then 0 else heapUnits m.length) = none) :
    (s.firstPacket r m).pool = s.pool ∧ ((s.firstPacket r m).mtcCtx r.srcDevice r.srcInst).expected = 1 ∧
    ∃ onDie heap acked, (s.firstPacket r m).mtc.msgs = [{ m with onDie, heap, acked, unexpected := true }] := by
  obtain ⟨t, onDie, heap, first, henter, htmtc, htpool⟩ := State.firstPacket_enters h (.inr hquota)
  obtain ⟨hpool, acked, hkept⟩ := State.enterMatching_unexpected (s := t) (m := { m with onDie, heap, acked := first })
    (by rw [htmtc]) (by rw [htmtc]; exact hposted) h.rget
  rw [htmtc] at hkept
  rw [henter, State.advance_done (n := 1) (by rw [hkept]) (by rw [hkept]; simp [h.msn])]
  exact ⟨hpool.trans htpool, by rw [State.mtcCtx_alone (n := 1) (by rw [hkept])]; rfl, onDie, heap, acked, by rw [hkept]⟩

/-- An eager message of one packet that the only receive awaits leaves with it (R358, R361). -/
theorem State.firstPacket_taken {s : State} {r : Req} {m : Msg} {p : Posted} (h : FirstOfStream s r m) (hposted : s.mtc.posted = [p])
    (hmatch : matches_ m p = true) (heager : m.rendezvous = false) (hwhole : m.length ≤ m.come) :
    (s.firstPacket r m).mtc.msgs = [] ∧ (s.firstPacket r m).mtc.posted = [] ∧ ((s.firstPacket r m).mtcCtx r.srcDevice r.srcInst).expected = 1 := by
  obtain ⟨t, onDie, heap, acked, henter, htmtc, _⟩ := State.firstPacket_enters h (.inl (by simp [hposted, hmatch]))
  have htake : t.enterMatching { m with onDie, heap, acked } =
      (t.upMtc fun x => { x with posted := [] }).takeEager { m with onDie, heap, acked } p :=
    State.enterMatching_takes (by rw [htmtc]; exact hposted) hmatch heager
  have hmtc := State.takeEager_whole (s := t.upMtc fun x => { x with posted := [] }) (m := { m with onDie, heap, acked }) p
    (by simp [htmtc]) h.rget hwhole
  rw [← htake] at hmtc
  simp only [State.upMtc_mtc, htmtc] at hmtc
  rw [henter, State.advance_done (n := 1) (by rw [hmtc]) (by simp [hmtc])]
  exact ⟨by rw [hmtc], by rw [hmtc], by rw [State.mtcCtx_alone (n := 1) (by rw [hmtc])]; rfl⟩

/-! ### The packets that begin a message (R352, R359) -/

/-- The message of an eager first packet with number 0 (R352, R359). -/
def eagerMsg (r : Req) (inst context matchBits length : Nat) (data : List Nat) : Msg :=
  { srcDevice := r.srcDevice, srcInst := r.srcInst, inst, context, msn := 0, matchBits, length, rendezvous := false, opTag := r.opTag
    instGen := r.instGen, sl := r.sl, first := true, taken := none, data := if data.isEmpty then [] else [(0, data)] }

theorem eagerMsg_opens {s : State} (r : Req) {dst : Nat} (context bits length : Nat) (data : List Nat) (hctxs : s.mtc.ctxs = [])
    (hmsgs : s.mtc.msgs = []) (henabled : s.enabled dst = true) : FirstOfStream s r (eagerMsg r dst context bits length data) :=
  ⟨hctxs, hmsgs, rfl, rfl, rfl, rfl, rfl, rfl, rfl, henabled⟩

theorem exec_sendEagerArrival_first {s : State} (r : Req) (dst context bits length : Nat) (data : List Nat) (hforward : s.forwarding = true)
    (hmsgs : s.mtc.msgs = []) :
    Gives (exec (.sendEagerArrival r dst context 0 0 bits length data) s) (s.firstPacket r (eagerMsg r dst context bits length data)) :=
  gives_ends (by simp [hforward, State.msg, hmsgs, eagerMsg])

/-- The message of a rendezvous' first packet with number 0 (R352, R359). -/
def rtsMsg (r : Req) (inst context matchBits length : Nat) : Msg := { eagerMsg r inst context matchBits length [] with rendezvous := true }

theorem rtsMsg_opens {s : State} (r : Req) {dst : Nat} (context bits length : Nat) (hctxs : s.mtc.ctxs = [])
    (hmsgs : s.mtc.msgs = []) (henabled : s.enabled dst = true) : FirstOfStream s r (rtsMsg r dst context bits length) :=
  ⟨hctxs, hmsgs, rfl, rfl, rfl, rfl, rfl, rfl, rfl, henabled⟩

theorem exec_sendRtsArrival_first {s : State} (r : Req) (dst context bits length : Nat) (hforward : s.forwarding = true) :
    Gives (exec (.sendRtsArrival r dst context 0 bits length) s) (s.firstPacket r (rtsMsg r dst context bits length)) :=
  gives_ends (if_neg (by simp [hforward]))

/-! ### A receive that is posted (R358) -/

/-- A receive that no unexpected message awaits joins the posted list. -/
theorem State.takeReceive_posts {s : State} {q : Nat} {x : RecvQueue} {d : RecvDesc} (hforward : s.forwarding = true)
    (hqueue : s.mec.recvQ.find q = some x) (henabled : s.enabled x.inst = true) (hbus : (s.instance_ x.inst).bmeHeld = false)
    (hstays : x.destroying = false) (hsome : x.producer ≠ x.consumer) (hroom : s.cqRoom x.cq = true) (herror : x.error = false)
    (hgood : badRecv d = false) (hhost : d.localHeap = false) (hmsgs : ∀ m ∈ s.mtc.msgs, m.unexpected = false)
    (hquota : s.quotaRefusal x.inst 1 0 = none) :
    s.takeReceive q d = ((s.upMec fun m => { m with
      recvQ := m.recvQ.put q { x with consumer := (x.consumer + 1) % 65536, stalled := false } }).upMtc fun t => { t with
      posted := t.posted ++ [{ inst := x.inst, queue := q, d, onDie := (s.entryPlace x.inst).getD true }] }) := by
  have hnone : ∀ p, s.mtc.msgs.find? (fun m => m.unexpected && matches_ m p) = none := fun p =>
    List.find?_eq_none.mpr fun m hm => by simp [hmsgs m hm]
  have hpost : s.takeReceive q d = s.postReceive q x d := by
    simp [State.takeReceive, hqueue, hforward, henabled, hbus, hstays, hsome, hroom, herror, hgood, hhost]
  rw [hpost]
  simp only [State.postReceive, hnone, hquota]

/-! ### The statement -/

/-- Settles O28: a first packet by where its message ends up, a receive by its posting. -/
theorem matchingEventsTakeEffect : Obligations.MatchingEventsTakeEffect := by
  refine ⟨?unexpected, ?taken, ?rendezvous, ?posted⟩
  case unexpected =>
    intro s r dst context bits length data hforward hctxs hmsgs hposted henabled hquota
    obtain ⟨hpool, hctx, onDie, heap, acked, hkept⟩ := State.firstPacket_unexpected
      (eagerMsg_opens r context bits length data hctxs hmsgs henabled) hposted hquota
    exact ⟨_, exec_sendEagerArrival_first r dst context bits length data hforward hmsgs, by rw [hkept]; rfl, hctx, hpool⟩
  case taken =>
    intro s r dst context bits data p hforward hctxs hmsgs hposted henabled hinst hcontext hbits hsource hdata _
    have hmatch : matches_ (eagerMsg r dst context bits data.length data) p = true := by
      simp [matches_, eagerMsg, hinst, hcontext, hbits, hsource]
    have hwhole : (eagerMsg r dst context bits data.length data).length ≤ (eagerMsg r dst context bits data.length data).come := by
      simp [eagerMsg, Msg.come, sumOf, hdata]
    exact ⟨_, exec_sendEagerArrival_first r dst context bits data.length data hforward hmsgs,
      State.firstPacket_taken (eagerMsg_opens r context bits _ data hctxs hmsgs henabled) hposted hmatch rfl hwhole⟩
  case rendezvous =>
    intro s r dst context bits length hforward hctxs hmsgs hposted henabled hquota
    obtain ⟨hpool, hctx, onDie, heap, acked, hkept⟩ := State.firstPacket_unexpected
      (rtsMsg_opens r context bits length hctxs hmsgs henabled) hposted hquota
    exact ⟨_, exec_sendRtsArrival_first r dst context bits length hforward, by rw [hkept]; rfl, hctx, hpool⟩
  case posted =>
    intro s queue bits d x hd hforward hqueue henabled hbus hstays hsome hroom herror hgood hhost hmsgs hquota
    subst hd
    have hpost := State.takeReceive_posts hforward hqueue henabled hbus hstays hsome hroom herror hgood hhost hmsgs hquota
    exact ⟨_, gives_ends hpost, by simp, by simp, rfl⟩

end Sys2Proof.Machine
end

section
/-! SUPPORT. Exact records (R383, R385): how two of them combine, and what a sum of records is. -/
namespace Sys2Proof.Machine

/-- An element is an exact record (R383). -/
def Elem.isRecord (e : Elem) : Prop := ∃ x n p m z, e = .exact x n p m z

/-- Records are combined to the right of any element in either order: the sums and the flags commute (R385). -/
theorem combineElem_right_comm {t op : Nat} {a b : Elem} (ha : a.isRecord) (hb : b.isRecord) (c : Elem) :
    combineElem t op (combineElem t op c a) b = combineElem t op (combineElem t op c b) a := by
  obtain ⟨x, n, p, m, z, rfl⟩ := ha
  obtain ⟨y, n', p', m', z', rfl⟩ := hb
  cases c with
  | native v => rfl
  | exact w i j k l => simp [combineElem, add_right_comm w x y, Bool.or_right_comm]

/-- A sum of records does not depend on their order (R385). -/
theorem foldl_combineElem_perm {t op : Nat} {l k : List Elem} (hl : ∀ e ∈ l, e.isRecord) (h : l.Perm k) (a : Elem) :
    l.foldl (combineElem t op) a = k.foldl (combineElem t op) a :=
  h.foldl_eq' (fun _ hx _ hy c => (combineElem_right_comm (hl _ hx) (hl _ hy) c)) a

/-- Finite contributions added to a record add their accumulators, as integers modulo 2^320, and leave its flags. -/
theorem foldl_combineElem_acc (t op : Nat) (l : List (BitVec 320)) (x : BitVec 320) (n p m z : Bool) :
    (l.map fun y => Elem.exact y false false false false).foldl (combineElem t op) (.exact x n p m z) =
      .exact (x + BitVec.ofNat 320 (l.map BitVec.toNat).sum) n p m z := by
  induction l generalizing x with
  | nil => simp
  | cons y l ih =>
    have hstep : combineElem t op (.exact x n p m z) (.exact y false false false false) = .exact (x + y) n p m z := by simp [combineElem]
    rw [List.map_cons, List.foldl_cons, hstep, ih]
    simp [BitVec.ofNat_add, BitVec.add_assoc]

/-- Settles O55: two records by the definition, their order by `foldl_combineElem_perm`, the accumulator by `foldl_combineElem_acc`. -/
theorem recordsCombineExactly : Obligations.RecordsCombineExactly := by
  refine ⟨?pair, ?order, ?sum⟩
  case pair => exact fun t op x y n p m z n' p' m' z' => rfl
  case order =>
    intro t op a l k hrecords hperm
    exact foldl_combineElem_perm (fun e he => hrecords e (List.mem_cons_of_mem a he)) hperm a
  case sum =>
    intro t op l
    exact ⟨false, false, false, false, by simp [foldl_combineElem_acc]⟩

end Sys2Proof.Machine
end

section
/-! SUPPORT. What a packet on its way leaves: the records of operations, the routing stage, the policer and transport leave the reduction
unit, so that an answer to an unknown group changes none of its groups (R404). -/
namespace Sys2Proof.Machine

/-- The state that an operation answers beside a value, named by a case split, is that operation's second part. -/
theorem rdx_of_pair {α : Type} {p : α × State} {a : α} {s t : State} (h : p = (a, t)) (hp : p.2.rdx = s.rdx) : t.rdx = s.rdx := by
  rw [← hp, h]

/-! ### Operations that end (R168, R340 to R343, R361) -/

@[simp] theorem State.bump_rdx (s : State) (i idx : Nat) : (s.bump i idx).rdx = s.rdx := by
  rw [State.bump]; split <;> rfl

@[simp] theorem State.cqFull_rdx (s : State) (cq : Nat) : (s.cqFull cq).rdx = s.rdx := by
  simp only [State.cqFull]; (repeat' split) <;> simp

@[simp] theorem State.putRecord_rdx (s : State) (cq kind status queue bytes wrId detail srcDevice srcInst refusal retryAfter : Nat) :
    (s.putRecord cq kind status queue bytes wrId detail srcDevice srcInst refusal retryAfter).rdx = s.rdx := by
  simp only [State.putRecord, State.writeRecord]; (repeat' split) <;> simp

@[simp] theorem State.sendQueueError_rdx (s : State) (q status : Nat) : (s.sendQueueError q status).rdx = s.rdx := by
  simp only [State.sendQueueError, State.abandonLocks]; (repeat' split) <;> simp

@[simp] theorem State.retire_rdx (s : State) (x : OpSlot) (status bytes : Nat) : (s.retire x status bytes).rdx = s.rdx := by
  have hbusy (u : State) (i : Nat) : (u.engineBusy i).rdx = u.rdx := rfl
  simp [State.retire, apply_ite State.rdx, hbusy]

@[simp] theorem State.drainOrder_rdx (s : State) (q n : Nat) : (s.drainOrder q n).rdx = s.rdx := by
  induction n generalizing s with
  | zero => rfl
  | succ n ih => rw [State.drainOrder]; (repeat' split) <;> simp [ih]

@[simp] theorem State.drainTriggered_rdx (s : State) (q : Nat) : (s.drainTriggered q).rdx = s.rdx := by
  refine foldl_keeps State.rdx (fun s e => ?_) _ s
  (repeat' split) <;> simp

@[simp] theorem State.endRget_rdx (s : State) (tag status bytes : Nat) : (s.endRget tag status bytes).rdx = s.rdx := by
  simp only [State.endRget, State.receiveRecord]; (repeat' split) <;> simp

@[simp] theorem State.upSlot_rdx (s : State) (tag : Nat) (f : OpSlot → OpSlot) : (s.upSlot tag f).rdx = s.rdx := rfl

@[simp] theorem State.finishOp_rdx (s : State) (tag status bytes : Nat) : (s.finishOp tag status bytes).rdx = s.rdx := by
  rw [State.finishOp]; (repeat' split) <;> simp [State.drainQueue]

/-! ### The routing stage (R165 to R168, R186 to R190) -/

@[simp] theorem State.countUnreserved_rdx (s : State) : s.countUnreserved.rdx = s.rdx := by simp [State.countUnreserved]

@[simp] theorem State.choosePath_rdx (s : State) (tile : Nat) (h : Hdr) (own : Option Nat) : (s.choosePath tile h own).2.rdx = s.rdx := by
  simp only [State.choosePath]; (repeat' split) <;> rfl

@[simp] theorem State.lookup_rdx (s : State) (h : Hdr) (input rxVl : Nat) (atSource : Bool) (own : Option Nat) :
    (s.lookup h input rxVl atSource own).2.rdx = s.rdx := by
  simp only [State.lookup]; (repeat' split) <;> simp

@[simp] theorem State.greenTree_rdx (s : State) (t : Tree) (h : Hdr) (atSource : Bool) (own : Option Nat) :
    (s.greenTree t h atSource own).rdx = s.rdx := by
  simp only [State.greenTree]; (repeat' split) <;> simp

@[simp] theorem State.rootDone_rdx (s : State) (o : McOp) : (s.rootDone o).rdx = s.rdx := by
  rw [State.rootDone]; (repeat' split) <;> simp

@[simp] theorem State.sendMcAck_rdx (s : State) (port t : Nat) (o : McOp) : (s.sendMcAck port t o).rdx = s.rdx := rfl

@[simp] theorem State.mcSettle_rdx (s : State) (t : Nat) : (s.mcSettle t).rdx = s.rdx := by
  rw [State.mcSettle]
  split
  · rfl
  · refine foldl_keeps State.rdx (fun u o => ?_) _ _
    rw [State.mcEnd]; split <;> simp

@[simp] theorem State.freeRx_rdx (s : State) (w : WaitPkt) : (s.freeRx w).rdx = s.rdx := by
  rw [State.freeRx]; split <;> rfl

@[simp] theorem State.putWaiting_rdx (s : State) (w : WaitPkt) : (s.putWaiting w).rdx = s.rdx := rfl

@[simp] theorem State.routeTree_rdx (s : State) (w : WaitPkt) (port : Option Nat) : (s.routeTree w port).rdx = s.rdx := by
  simp only [State.routeTree, State.treeMissing, State.noteFenceSkip]; (repeat' split) <;> simp

@[simp] theorem State.inject_rdx (s : State) (p : Packet) (len input : Nat) (sequenced : Bool) (own : Option Nat) :
    (s.inject p len input sequenced own).rdx = s.rdx := by
  rw [State.inject]
  split
  next h t hpath =>
    have ht := rdx_of_pair hpath (s.choosePath_rdx ..)
    dsimp only
    split
    · simp [ht]
    · split
      all_goals next hroute => simp [State.noCandidate, rdx_of_pair hroute (State.lookup_rdx ..), ht]

/-! ### The policer and transport (R64, R168, R180, R219, R220) -/

@[simp] theorem State.police_rdx (s : State) (h : Hdr) (len : Nat) (first pre : Bool) : (s.police h len first pre).2.rdx = s.rdx := by
  simp only [State.police, State.policeMeter, State.meterTx, State.meterRefused]; (repeat' split) <;> simp

@[simp] theorem State.policeQueued_rdx (s : State) (p : SentPkt) : (s.policeQueued p).2.rdx = s.rdx := by
  have hwait (u : State) (i : Nat) (from_ : Option Nat) : (u.endWait i from_).rdx = u.rdx := by cases from_ <;> rfl
  rw [State.policeQueued]
  split
  · rfl
  · dsimp only
    split
    all_goals next hp => simp [hwait, rdx_of_pair hp (s.police_rdx ..)]

@[simp] theorem State.newPid_rdx (s : State) : s.newPid.2.rdx = s.rdx := rfl

@[simp] theorem State.upSend_rdx (s : State) (k : CtxKey) (f : SendCtx → SendCtx) : (s.upSend k f).rdx = s.rdx := rfl

@[simp] theorem State.openSend_rdx (s : State) (k : CtxKey) (sl : Nat) : (s.openSend k sl).rdx = s.rdx := by
  simp only [State.openSend, State.trnControl, State.control]; split <;> simp

@[simp] theorem State.sendNow_rdx (s : State) (k : CtxKey) (p : SentPkt) (ticket : Bool) : (s.sendNow k p ticket).rdx = s.rdx := by
  simp only [State.sendNow]; (repeat' split) <;> simp

@[simp] theorem State.pump_rdx (s : State) (k : CtxKey) (n : Nat) : (s.pump k n).rdx = s.rdx := by
  induction n generalizing s with
  | zero => rfl
  | succ n ih =>
    rw [State.pump]
    (repeat' split) <;> try simp [ih, State.endUnrouted]
    all_goals next hp => exact rdx_of_pair hp (s.policeQueued_rdx _)

/-- A packet handed to transport leaves the reduction unit. -/
@[simp] theorem State.handOver_rdx (s : State) (p : SentPkt) : (s.handOver p).rdx = s.rdx := by
  simp only [State.handOver, State.pumpAll]; split <;> simp

end Sys2Proof.Machine
end

section
/-! SUPPORT. The collectives (R378 to R404): what a group's table gives after a change, when a round stands still, what each command's body and
each event does, and the statement about all of them. -/
namespace Sys2Proof.Machine

/-! ### The table of groups -/

@[simp] theorem State.upHly_group (s : State) (f : Hly → Hly) (gid : Nat) : (s.upHly f).group gid = s.group gid := rfl

@[simp] theorem State.upMec_group (s : State) (f : Mec → Mec) (gid : Nat) : (s.upMec f).group gid = s.group gid := rfl

@[simp] theorem State.upGroup_mec (s : State) (gid : Nat) (f : Group → Group) : (s.upGroup gid f).mec = s.mec := rfl

/-- A change of an installed group is what its entry then holds. -/
theorem State.group_upGroup {s : State} {gid : Nat} {g : Group} (h : s.group gid = some g) (f : Group → Group) :
    (s.upGroup gid f).group gid = some (f g) := by
  have hfind : s.rdx.groups.find gid = some g := h
  simp [State.group, State.upGroup, hfind]

theorem State.group_of_rdx {s t : State} (h : t.rdx = s.rdx) (gid : Nat) : t.group gid = s.group gid := by
  rw [State.group, h, State.group]

theorem State.engInst_of_mec {s t : State} (h : t.mec = s.mec) (i : Nat) : t.engInst i = s.engInst i := by
  rw [State.engInst, h, State.engInst]

/-- The heap units in use by an instance changed (R400, R403). -/
theorem State.useHeap_heapUsed (s : State) (i : Nat) (f : Nat → Nat) : ((s.useHeap i f).engInst i).heapUsed = f (s.engInst i).heapUsed := by
  simp [State.useHeap, State.engInst]

/-! ### A round that stands still (R391, R392) -/

theorem typeWidth_mem (t : Nat) : typeWidth t = 2 ∨ typeWidth t = 4 ∨ typeWidth t = 8 := by
  rw [typeWidth.eq_def]; split <;> decide

theorem Group.chunk_pos (g : Group) : 0 < g.chunk := by
  rw [Group.chunk]
  split
  · decide
  · split
    · decide
    · rcases typeWidth_mem g.p.type with h | h | h <;> simp [h]

theorem Group.allArrived_eq_false {g : Group} {k : Nat} (hslot : k ∈ g.slots) (hfenced : g.isFenced k = false)
    (h : (g.input k).arrived = false) : g.allArrived = false :=
  List.all_eq_false.mpr ⟨k, List.mem_filter.mpr ⟨hslot, by simp [hfenced]⟩, by simp [h]⟩

theorem Group.holds_eq_false {g : Group} {k : Nat} (hslot : k ∈ g.slots) (hfenced : g.isFenced k = false)
    (h : (g.input k).elems = []) {n : Nat} (hn : 0 < n) (a : Nat) : g.holds a n = false :=
  List.all_eq_false.mpr ⟨k, List.mem_filter.mpr ⟨hslot, by simp [hfenced]⟩,
    by simpa [h, Tbl.has, Tbl.find] using ⟨0, hn⟩⟩

/-- A group that waits for an input of which nothing has come goes no further (R391). -/
theorem State.runGroup_waits {s : State} {gid k : Nat} {g : Group} (hg : s.group gid = some g) (hslot : k ∈ g.slots)
    (hfenced : g.isFenced k = false) (hinput : g.input k = {}) (hleft : g.arrivalsOnly = false → g.sentUp < g.p.elements) :
    s.runGroup gid = s := by
  have harrived := Group.allArrived_eq_false hslot hfenced (by rw [hinput])
  simp only [State.runGroup, hg, Option.map_some, Option.getD_some, State.rdxProgress, harrived, Bool.false_and, Bool.false_eq_true,
    if_false]
  cases honly : g.arrivalsOnly
  case true => simp
  case false =>
    have hchunk : 0 < min g.chunk (g.p.elements - g.sentUp) := lt_min g.chunk_pos (Nat.sub_pos_of_lt (hleft honly))
    simp [Group.holds_eq_false hslot hfenced (by rw [hinput]) hchunk]

/-! ### Installing a group (R378 to R381, R400 to R402) -/

/-- The entry of a group at its installation: round 1 is open, and each member's base is its counter (R388, R392). -/
def State.newGroup (s : State) (p : GroupP) : Group :=
  { p, bases := p.members.map fun m => s.mec.counters.get ((s.engInst m.inst).counterBase + m.arrivalCounter) 0, area := areaOf p }

/-- A group installed, with its working area taken from its instance's heap (R378, R400). -/
def State.install (s : State) (p : GroupP) : State :=
  (s.upRdx fun r => { r with groups := r.groups.put p.group (s.newGroup p) }).useHeap p.inst fun u => u + areaUnits (areaOf p)

@[simp] theorem State.install_group (s : State) (p : GroupP) : (s.install p).group p.group = some (s.newGroup p) := by
  simp [State.install, State.useHeap, State.group]

/-- A group that may be installed has elements, unless it is a barrier (R378). -/
theorem State.elements_pos_of_groupBad {s : State} {p : GroupP} (h : s.groupBad p = false) (hoperation : p.operation ≠ 0) : 0 < p.elements := by
  by_contra hzero
  simp [State.groupBad, hoperation, outside, Nat.eq_zero_of_not_pos hzero] at h

theorem collGroupSetBody_installs {s : State} {p : GroupP} (hgood : s.groupBad p = false) (henabled : s.enabled p.inst = true)
    (hmembers : ∀ m ∈ p.members, s.enabled m.inst = true) (hnew : s.group p.group = none)
    (hserved : ∀ m x, p.members[m]? = some x → s.memberServed p m x = true) (hslots : s.memberSlots + p.members.length ≤ 16384)
    (hheap : (s.engInst p.inst).heapUsed + areaUnits (areaOf p) ≤ 8192 * (s.engInst p.inst).heap) (hsome : p.members ≠ []) :
    collGroupSetBody p s = .ok (s.install p) := by
  have hserves : ((List.range p.members.length).any fun m => (p.members[m]?).any fun x => !s.memberServed p m x) = false := by
    refine List.any_eq_false.mpr fun m _ => ?_
    cases hx : p.members[m]? with
    | none => simp
    | some x => simp [hserved m x hx]
  have hstill : (s.install p).runGroup p.group = s.install p := by
    refine State.runGroup_waits (k := 0) (s.install_group p) ?_ rfl rfl fun honly => s.elements_pos_of_groupBad hgood ?_
    · simp [Group.slots, State.newGroup, List.length_pos_iff, hsome]
    · have hreads : 1 < p.operation := Nat.lt_of_not_le (of_decide_eq_false honly)
      exact Nat.ne_zero_of_lt hreads
  have hpasses : collGroupSetBody p s = .ok ((s.install p).runGroup p.group) :=
    refuseIf_none _ _ (by simpa [hgood, henabled, hnew, hserves, hslots, hheap] using hmembers)
  rw [hpasses, hstill]

/-! ### Removing, fencing and querying (R395, R402, R403) -/

/-- The device owes a fence to the round that it waits for (R395). -/
theorem State.fenceEffect_waiting {s : State} {gid : Nat} {g : Group} (hg : s.group gid = some g) (hstate : g.state = .waiting) :
    s.fenceEffect gid = s.upGroup gid fun g => { g with fenceNext := true } := by
  rw [State.fenceEffect, hg]
  simp only [hstate]

/-- Every slot of a group that waits is fenced, and the group is being removed (R403). -/
theorem collGroupRemoveBody_waiting {s : State} {gid : Nat} {g : Group} (hg : s.group gid = some g) (hstate : g.state = .waiting) :
    ∃ v, collGroupRemoveBody gid s = .pend v (.groupRemove gid) [.group gid] ∧
      ((v.group gid).map fun x => (x.removing, x.memberFenced, x.childFenced)) =
        some (true, List.range g.p.members.length, List.range g.p.children.length) := by
  have hfenced := State.group_upGroup hg fun g => { g with
    removing := true, memberFenced := List.range g.p.members.length, childFenced := List.range g.p.children.length }
  rw [collGroupRemoveBody, hg]
  refine ⟨_, rfl, ?_⟩
  split
  · simp [hfenced]
  · simp [State.fenceEffect_waiting hfenced hstate, State.group_upGroup hfenced]

/-- A child slot of a group that waits is fenced, with the round it waits for (R395). -/
theorem State.fenceSlot_child {s : State} {gid index : Nat} {g : Group} (hg : s.group gid = some g) (hstate : g.state = .waiting)
    (hopen : g.childFenced.contains index = false) :
    (s.fenceSlot gid (16 + index)).group gid = some { g with childFenced := g.childFenced ++ [index], fenceNext := true } := by
  have hfree : g.isFenced (16 + index) = false := by simpa [Group.isFenced] using hopen
  have hfenced : (s.upGroup gid fun g =>
      if 16 + index < 16 then { g with memberFenced := g.memberFenced ++ [16 + index] }
      else { g with childFenced := g.childFenced ++ [16 + index - 16] }).group gid =
        some { g with childFenced := g.childFenced ++ [index] } := by
    simp [State.group_upGroup hg]
  rw [State.fenceSlot, hg]
  simp only [hfree, Bool.false_eq_true, if_false]
  rw [State.fenceEffect_waiting hfenced hstate, State.group_upGroup hfenced]

theorem collFenceBody_child {s : State} {gid index : Nat} {g : Group} (hg : s.group gid = some g) (hindex : index < g.p.children.length) :
    collFenceBody gid 1 index s = .ok (s.fenceSlot gid (16 + index)) := by
  simp [collFenceBody, hg, refuseIf, hindex]

theorem groupImage_length (g : Group) : (groupImage g).length = 20 + 4 * g.chunks := by
  simp [groupImage, outBytes_length, Function.comp_def]
  omega

/-- What COLL_QUERY does (R402, R594). -/
def collQueryBody (gid : Nat) (s : State) : HRes :=
  match s.group gid with
  | none => .refuse 0x0324
  | some g => .data s (groupImage g)

theorem exec_collQuery (h : HlyHdr) (gid : Nat) (s : State) :
    exec (.collQuery h gid) s = ends (runHly (.collQuery h gid) 0x0A04 h 0 (s.groupQueryLen gid) [] (collQueryBody gid) s) := rfl

/-! ### Members that arrive (R388) -/

/-- A member whose contribution is not read is counted as it arrives. -/
theorem exec_memberArrival_counts {s : State} {gid m : Nat} {g : Group} {x : MemberSlot} (values : List Nat) (failed poison : Bool)
    (hforward : s.forwarding = true) (hg : s.group gid = some g) (hx : g.p.members[m]? = some x) (hstate : g.state = .collecting)
    (hopen : g.isFenced m = false) (hnew : (g.input m).arrived = false) (hat : s.memberAt g m x g.round = true)
    (hreads : readsMember g.p m = false) : Gives (exec (.memberArrival gid m values failed poison) s) (s.countMember gid m []) :=
  gives_ends (by simp [hg, hx, hforward, hstate, hopen, hnew, hat, hreads])

/-! ### Up and down the tree (R391 to R397, R404) -/

/-- The answer to an RDX_UP leaves the groups as they are. -/
@[simp] theorem State.answerUp_rdx (s : State) (gid dev inst sl round : Nat) (own : Option Nat) :
    (s.answerUp gid dev inst sl round own).rdx = s.rdx := by
  simp [State.answerUp]

/-- An RDX_UP of the group's one child, for the open round and with the count of its slot, is taken into the round (R391). -/
theorem exec_rdxUpArrival_takes {s : State} {gid device inst round members : Nat} {g : Group} (sl offset : Nat) (poison : Bool)
    (values : List Nat) (hforward : s.forwarding = true) (hg : s.group gid = some g) (hchild : g.p.children = [{ device, inst, members }])
    (hstate : g.state = .collecting) (hround : g.round % 65536 = round) (hopen : g.childFenced = []) :
    Gives (exec (.rdxUpArrival gid device inst sl round members false false offset poison values) s)
      (s.takeUp gid g 0 members offset poison values) := by
  have hfree : g.isFenced 16 = false := by simp [Group.isFenced, hopen]
  exact gives_ends (by simp [hforward, hg, hchild, List.range_succ, State.upArrives, hstate, hround, hfree])

theorem exec_rdxUpArrival_unknown {s : State} {gid : Nat} (device inst sl round members offset : Nat) (fenced arrival poison : Bool)
    (values : List Nat) (hforward : s.forwarding = true) (hg : s.group gid = none) :
    Gives (exec (.rdxUpArrival gid device inst sl round members fenced arrival offset poison values) s)
      (s.answerUp gid device inst sl round none).unknownGroup :=
  gives_ends (by simp [hforward, hg])

/-- A control RDX_DOWN for the round that a device waits for completes it (R392). -/
theorem exec_rdxDownArrival_completes {s : State} {gid round : Nat} {g : Group} (combined : Nat) (hforward : s.forwarding = true)
    (hg : s.group gid = some g) (hstate : g.state = .waiting) (hroot : g.p.root = false) (hround : g.round % 65536 = round) :
    Gives (exec (.rdxDownArrival gid round combined false 0 0 []) s) (s.downDone gid combined 0 []) :=
  gives_ends (by simp [hforward, hg, State.downArrives, hstate, hroot, hround, stFenced])

theorem exec_rdxDownArrival_unknown {s : State} {gid : Nat} (round combined status offset : Nat) (fenced : Bool) (values : List Nat)
    (hforward : s.forwarding = true) (hg : s.group gid = none) :
    Gives (exec (.rdxDownArrival gid round combined fenced status offset values) s)
      (s.upRdx fun r => { r with unknownDown := r.unknownDown + 1 }).unknownGroup :=
  gives_ends (by simp [hforward, hg])

/-! ### A group that has drained (R403) -/

/-- A group freed: its entry goes, and its working area is its instance's again (R400, R403). -/
def State.freeGroup (s : State) (gid : Nat) (g : Group) : State :=
  (s.upRdx fun r => { r with groups := r.groups.del gid, intStatus := setFlag r.intStatus 5 }).useHeap g.p.inst fun u => u - areaUnits g.area

/-- A group that is being removed, is Fenced and has drained is freed, and its COLL_GROUP_REMOVE completes (R403). -/
theorem exec_groupDrained_frees {s : State} {gid : Nat} {g : Group} (hg : s.group gid = some g) (hremoving : g.removing = true)
    (hstate : g.state = .fenced) (hidle : s.groupBusy gid = false) :
    Gives (exec (.groupDrained gid) s) ((s.freeGroup gid g).finishWait (.groupRemove gid) 0 0) :=
  gives_ends (by simp [State.settleGroup, hg, hremoving, hstate, hidle, State.freeGroup, State.useHeap])

/-! ### The statement -/

/-- Settles O29: each command by what its body answers on the state whose descriptor has been taken, each event by its own effect. -/
theorem collectivesTakeEffect : Obligations.CollectivesTakeEffect := by
  refine ⟨?set, ?remove, ?fence, ?query, ?member, ?up, ?upUnknown, ?down, ?downUnknown, ?drained⟩
  case set =>
    intro s h p hr hgood henabled hmembers hnew hserved hslots hheap hsome
    obtain ⟨f, hv⟩ := answers_taken hr fun f =>
      collGroupSetBody_installs (s := s.upHly f) hgood henabled hmembers hnew hserved hslots hheap hsome
    exact ⟨_, hv, by rw [State.install_group]; rfl, State.useHeap_heapUsed .., rfl⟩
  case remove =>
    intro s h gid g hr hg hstate
    obtain ⟨v, hb, hgroup⟩ := collGroupRemoveBody_waiting (s := s.fetchCmd h) ((State.group_of_rdx (by simp) gid).trans hg) hstate
    exact ⟨v, starts_of hr hb, hgroup⟩
  case fence =>
    intro s h gid index g hr hg hstate hindex hnone
    obtain ⟨f, hv⟩ := answers_taken hr fun f => collFenceBody_child (s := s.upHly f) hg hindex
    refine ⟨_, hv, ?_⟩
    rw [State.fenceSlot_child (s := s.upHly f) hg hstate (by simp [hnone])]
    simp [hnone, hstate]
  case query =>
    intro s h gid g hg hr
    have hlen : s.groupQueryLen gid = 20 + 4 * g.chunks := by simp [State.groupQueryLen, hg]
    rw [exec_collQuery, hlen]
    exact answers_query hr (fun f => by simp [collQueryBody, hg]) (groupImage_length g)
  case member =>
    intro s gid m values failed poison g x hforward hg hx hstate hopen hnew hat hreads
    exact ⟨_, exec_memberArrival_counts values failed poison hforward hg hx hstate hopen hnew hat hreads, rfl⟩
  case up =>
    intro s gid device inst sl round members offset poison values g hforward hg hchild hstate hround hopen
    exact ⟨_, exec_rdxUpArrival_takes sl offset poison values hforward hg hchild hstate hround hopen, rfl⟩
  case upUnknown =>
    intro s gid device inst sl round members offset fenced arrival poison values hforward hg
    refine ⟨_, exec_rdxUpArrival_unknown device inst sl round members offset fenced arrival poison values hforward hg, ?_⟩
    simp [State.unknownGroup]
  case down =>
    intro s gid round combined g hforward hg hstate hroot hround
    exact ⟨_, exec_rdxDownArrival_completes combined hforward hg hstate hroot hround, rfl⟩
  case downUnknown =>
    intro s gid round combined status offset fenced values hforward hg
    refine ⟨_, exec_rdxDownArrival_unknown round combined status offset fenced values hforward hg, ?_⟩
    simp [State.unknownGroup]
  case drained =>
    intro s gid g hg hremoving hstate hidle
    refine ⟨_, exec_groupDrained_frees hg hremoving hstate hidle, ?_⟩
    have hmec : ((s.freeGroup gid g).finishWait (.groupRemove gid) 0 0).mec = (s.freeGroup gid g).mec := by simp
    refine ⟨by simp [State.group, State.freeGroup, State.useHeap], by simp [State.freeGroup, State.useHeap], ?_⟩
    rw [State.engInst_of_mec hmec]
    exact State.useHeap_heapUsed ..

end Sys2Proof.Machine
end

section
/-! SUPPORT. Agreement outside some parts: `State.but` blanks the listed parts of a state, so that what an operation leaves alone is one equation of
states, which `simp` carries through every composition of operations. -/
namespace Sys2Proof.Machine

/-- The state with the listed parts blanked: two states that agree here differ in those parts at most. -/
def State.but (l : List Block) (s : State) : State where
  pending := s.pending
  waiting := if .waiting ∈ l then [] else s.waiting
  freeCount := if .freeCount ∈ l then 0 else s.freeCount
  out := if .out ∈ l then [] else s.out
  coreTime := if .coreTime ∈ l then 0 else s.coreTime
  masthead := if .masthead ∈ l then none else s.masthead
  hly := if .hly ∈ l then {} else s.hly
  ftu := if .ftu ∈ l then {} else s.ftu
  adm := if .adm ∈ l then {} else s.adm
  csc := if .csc ∈ l then {} else s.csc
  obf := if .obf ∈ l then {} else s.obf
  egs := if .egs ∈ l then {} else s.egs
  arbs := if .arbs ∈ l then {} else s.arbs
  rte := if .rte ∈ l then {} else s.rte
  lnk := if .lnk ∈ l then {} else s.lnk
  trn := if .trn ∈ l then {} else s.trn
  prt := if .prt ∈ l then {} else s.prt
  pool := if .pool ∈ l then {} else s.pool
  dir := if .dir ∈ l then {} else s.dir
  mec := if .mec ∈ l then {} else s.mec
  locks := if .locks ∈ l then {} else s.locks
  mtc := if .mtc ∈ l then {} else s.mtc
  rdx := if .rdx ∈ l then {} else s.rdx
  ins := if .ins ∈ l then {} else s.ins
  mpu := if .mpu ∈ l then {} else s.mpu
  icu := if .icu ∈ l then {} else s.icu
  msix := if .msix ∈ l then [] else s.msix
  pwr := if .pwr ∈ l then {} else s.pwr
  flt := if .flt ∈ l then {} else s.flt
  ttc := if .ttc ∈ l then {} else s.ttc
  mgc := if .mgc ∈ l then {} else s.mgc
  latches := if .latches ∈ l then [] else s.latches

/-- Agreement outside `l` is agreement of the queue and of every part not in `l`. -/
theorem State.but_eq_iff {l : List Block} {s t : State} :
    t.but l = s.but l ↔ t.pending = s.pending ∧ ∀ b, b ∉ l → Same b s t := by
  constructor
  · intro h
    refine ⟨by simpa [State.but] using congrArg State.pending h, fun b hb => ?_⟩
    cases b
    case waiting => simpa [Same, State.but, hb] using congrArg State.waiting h
    case freeCount => simpa [Same, State.but, hb] using congrArg State.freeCount h
    case out => simpa [Same, State.but, hb] using congrArg State.out h
    case coreTime => simpa [Same, State.but, hb] using congrArg State.coreTime h
    case masthead => simpa [Same, State.but, hb] using congrArg State.masthead h
    case hly => simpa [Same, State.but, hb] using congrArg State.hly h
    case ftu => simpa [Same, State.but, hb] using congrArg State.ftu h
    case adm => simpa [Same, State.but, hb] using congrArg State.adm h
    case csc => simpa [Same, State.but, hb] using congrArg State.csc h
    case obf => simpa [Same, State.but, hb] using congrArg State.obf h
    case egs => simpa [Same, State.but, hb] using congrArg State.egs h
    case arbs => simpa [Same, State.but, hb] using congrArg State.arbs h
    case rte => simpa [Same, State.but, hb] using congrArg State.rte h
    case lnk => simpa [Same, State.but, hb] using congrArg State.lnk h
    case trn => simpa [Same, State.but, hb] using congrArg State.trn h
    case prt => simpa [Same, State.but, hb] using congrArg State.prt h
    case pool => simpa [Same, State.but, hb] using congrArg State.pool h
    case dir => simpa [Same, State.but, hb] using congrArg State.dir h
    case mec => simpa [Same, State.but, hb] using congrArg State.mec h
    case locks => simpa [Same, State.but, hb] using congrArg State.locks h
    case mtc => simpa [Same, State.but, hb] using congrArg State.mtc h
    case rdx => simpa [Same, State.but, hb] using congrArg State.rdx h
    case ins => simpa [Same, State.but, hb] using congrArg State.ins h
    case mpu => simpa [Same, State.but, hb] using congrArg State.mpu h
    case icu => simpa [Same, State.but, hb] using congrArg State.icu h
    case msix => simpa [Same, State.but, hb] using congrArg State.msix h
    case pwr => simpa [Same, State.but, hb] using congrArg State.pwr h
    case flt => simpa [Same, State.but, hb] using congrArg State.flt h
    case ttc => simpa [Same, State.but, hb] using congrArg State.ttc h
    case mgc => simpa [Same, State.but, hb] using congrArg State.mgc h
    case latches => simpa [Same, State.but, hb] using congrArg State.latches h
  · rintro ⟨hp, hs⟩
    have same : ∀ {α : Type} (b : Block) (x y z : α), (b ∉ l → y = z) → (if b ∈ l then x else y) = if b ∈ l then x else z := by
      intro α b x y z hyz
      split
      · rfl
      · next hb => exact hyz hb
    simp only [State.but, hp]
    congr 1
    · exact same .waiting _ _ _ (hs .waiting)
    · exact same .freeCount _ _ _ (hs .freeCount)
    · exact same .out _ _ _ (hs .out)
    · exact same .coreTime _ _ _ (hs .coreTime)
    · exact same .masthead _ _ _ (hs .masthead)
    · exact same .hly _ _ _ (hs .hly)
    · exact same .ftu _ _ _ (hs .ftu)
    · exact same .adm _ _ _ (hs .adm)
    · exact same .csc _ _ _ (hs .csc)
    · exact same .obf _ _ _ (hs .obf)
    · exact same .egs _ _ _ (hs .egs)
    · exact same .arbs _ _ _ (hs .arbs)
    · exact same .rte _ _ _ (hs .rte)
    · exact same .lnk _ _ _ (hs .lnk)
    · exact same .trn _ _ _ (hs .trn)
    · exact same .prt _ _ _ (hs .prt)
    · exact same .pool _ _ _ (hs .pool)
    · exact same .dir _ _ _ (hs .dir)
    · exact same .mec _ _ _ (hs .mec)
    · exact same .locks _ _ _ (hs .locks)
    · exact same .mtc _ _ _ (hs .mtc)
    · exact same .rdx _ _ _ (hs .rdx)
    · exact same .ins _ _ _ (hs .ins)
    · exact same .mpu _ _ _ (hs .mpu)
    · exact same .icu _ _ _ (hs .icu)
    · exact same .msix _ _ _ (hs .msix)
    · exact same .pwr _ _ _ (hs .pwr)
    · exact same .flt _ _ _ (hs .flt)
    · exact same .ttc _ _ _ (hs .ttc)
    · exact same .mgc _ _ _ (hs .mgc)
    · exact same .latches _ _ _ (hs .latches)

@[simp] theorem State.upHly_but {l : List Block} (h : .hly ∈ l) (s : State) (f : Hly → Hly) : (s.upHly f).but l = s.but l := by
  simp [State.but, h]
@[simp] theorem State.upFtu_but {l : List Block} (h : .ftu ∈ l) (s : State) (f : Ftu → Ftu) : (s.upFtu f).but l = s.but l := by
  simp [State.but, h]
@[simp] theorem State.upAdm_but {l : List Block} (h : .adm ∈ l) (s : State) (f : Adm → Adm) : (s.upAdm f).but l = s.but l := by
  simp [State.but, h]
@[simp] theorem State.upCsc_but {l : List Block} (h : .csc ∈ l) (s : State) (f : Csc → Csc) : (s.upCsc f).but l = s.but l := by
  simp [State.but, h]
@[simp] theorem State.upObf_but {l : List Block} (h : .obf ∈ l) (s : State) (f : Obf → Obf) : (s.upObf f).but l = s.but l := by
  simp [State.but, h]
@[simp] theorem State.upEgs_but {l : List Block} (h : .egs ∈ l) (s : State) (f : Egs → Egs) : (s.upEgs f).but l = s.but l := by
  simp [State.but, h]
@[simp] theorem State.upArbs_but {l : List Block} (h : .arbs ∈ l) (s : State) (f : Arbs → Arbs) : (s.upArbs f).but l = s.but l := by
  simp [State.but, h]
@[simp] theorem State.upRte_but {l : List Block} (h : .rte ∈ l) (s : State) (f : Rte → Rte) : (s.upRte f).but l = s.but l := by
  simp [State.but, h]
@[simp] theorem State.upLnk_but {l : List Block} (h : .lnk ∈ l) (s : State) (f : Lnk → Lnk) : (s.upLnk f).but l = s.but l := by
  simp [State.but, h]
@[simp] theorem State.upTrn_but {l : List Block} (h : .trn ∈ l) (s : State) (f : Trn → Trn) : (s.upTrn f).but l = s.but l := by
  simp [State.but, h]
@[simp] theorem State.upPrt_but {l : List Block} (h : .prt ∈ l) (s : State) (f : Prt → Prt) : (s.upPrt f).but l = s.but l := by
  simp [State.but, h]
@[simp] theorem State.upPool_but {l : List Block} (h : .pool ∈ l) (s : State) (f : Pool → Pool) : (s.upPool f).but l = s.but l := by
  simp [State.but, h]
@[simp] theorem State.upDir_but {l : List Block} (h : .dir ∈ l) (s : State) (f : Dir → Dir) : (s.upDir f).but l = s.but l := by
  simp [State.but, h]
@[simp] theorem State.upMec_but {l : List Block} (h : .mec ∈ l) (s : State) (f : Mec → Mec) : (s.upMec f).but l = s.but l := by
  simp [State.but, h]
@[simp] theorem State.upLocks_but {l : List Block} (h : .locks ∈ l) (s : State) (f : Locks → Locks) : (s.upLocks f).but l = s.but l := by
  simp [State.but, h]
@[simp] theorem State.upMtc_but {l : List Block} (h : .mtc ∈ l) (s : State) (f : Mtc → Mtc) : (s.upMtc f).but l = s.but l := by
  simp [State.but, h]
@[simp] theorem State.upRdx_but {l : List Block} (h : .rdx ∈ l) (s : State) (f : Rdx → Rdx) : (s.upRdx f).but l = s.but l := by
  simp [State.but, h]
@[simp] theorem State.upIns_but {l : List Block} (h : .ins ∈ l) (s : State) (f : Ins → Ins) : (s.upIns f).but l = s.but l := by
  simp [State.but, h]
@[simp] theorem State.upMpu_but {l : List Block} (h : .mpu ∈ l) (s : State) (f : Mpu → Mpu) : (s.upMpu f).but l = s.but l := by
  simp [State.but, h]
@[simp] theorem State.upIcu_but {l : List Block} (h : .icu ∈ l) (s : State) (f : Icu → Icu) : (s.upIcu f).but l = s.but l := by
  simp [State.but, h]
@[simp] theorem State.upPwr_but {l : List Block} (h : .pwr ∈ l) (s : State) (f : Pwr → Pwr) : (s.upPwr f).but l = s.but l := by
  simp [State.but, h]
@[simp] theorem State.upFlt_but {l : List Block} (h : .flt ∈ l) (s : State) (f : Flt → Flt) : (s.upFlt f).but l = s.but l := by
  simp [State.but, h]
@[simp] theorem State.upTtc_but {l : List Block} (h : .ttc ∈ l) (s : State) (f : Ttc → Ttc) : (s.upTtc f).but l = s.but l := by
  simp [State.but, h]
@[simp] theorem State.upMgc_but {l : List Block} (h : .mgc ∈ l) (s : State) (f : Mgc → Mgc) : (s.upMgc f).but l = s.but l := by
  simp [State.but, h]

@[simp] theorem State.but_ite {l : List Block} (c : Prop) [Decidable c] (s t : State) :
    (if c then s else t).but l = if c then s.but l else t.but l :=
  apply_ite ..

@[simp] theorem foldl_but {α : Type} {l : List Block} {g : State → α → State} (hg : ∀ s a, (g s a).but l = s.but l) (xs : List α) (s : State) :
    (xs.foldl g s).but l = s.but l :=
  foldl_keeps (fun t => t.but l) hg xs s
/-- The state of a pair that is known in parts. -/
theorem but_snd {α : Type} {l : List Block} {r : α × State} {a : α} {t : State} (e : r = (a, t)) : t.but l = r.2.but l := by
  rw [e]

theorem State.setWaiting_but {l : List Block} (h : .waiting ∈ l) (s : State) (x : List Instr) : ({ s with waiting := x } : State).but l = s.but l :=
    by
  simp [State.but, h]

theorem State.setMasthead_but {l : List Block} (h : .masthead ∈ l) (s : State) (x : Option Nat) : ({ s with masthead := x } :
    State).but l = s.but l := by
  simp [State.but, h]

theorem State.setCoreTime_but {l : List Block} (h : .coreTime ∈ l) (s : State) (x : Nat) : ({ s with coreTime := x } : State).but l = s.but l := by
  simp [State.but, h]

@[simp] theorem foldl_snd_but {α β : Type} {l : List Block} {g : β × State → α → β × State} (hg : ∀ r a, (g r a).2.but l = r.2.but l)
    (xs : List α) (r : β × State) : (xs.foldl g r).2.but l = r.2.but l := by
  induction xs generalizing r with
  | nil => rfl
  | cons a xs ih => rw [List.foldl_cons, ih, hg]

end Sys2Proof.Machine
end

section
/-! SUPPORT. What each operation of the state changes: the parts named in its hypothesis at most. -/
namespace Sys2Proof.Machine

/-! ### The shared operations -/

@[simp] theorem State.emit_but {l : List Block} (h : .out ∈ l) (s : State) (o : Out) : (s.emit o).but l = s.but l := by
  simp [State.emit, State.but, h]

@[simp] theorem State.fresh_but {l : List Block} (h : .freeCount ∈ l) (s : State) : (s.fresh).2.but l = s.but l := by
  simp [State.fresh, State.but, h]

@[simp] theorem State.tally_but {l : List Block} (h : .ttc ∈ l) (s : State) (e n : Nat) : (s.tally e n).but l = s.but l := by
  simp [State.tally, h]

@[simp] theorem State.latchSrc_but {l : List Block} (h : .icu ∈ l) (s : State) (src : Nat) : (s.latchSrc src).but l = s.but l := by
  simp [State.latchSrc, h]

@[simp] theorem State.upInst_but {l : List Block} (h : .ins ∈ l) (s : State) (i : Nat) (f : Instance → Instance) : (s.upInst i f).but l = s.but l :=
    by
  simp [State.upInst, h]

@[simp] theorem State.meter_but {l : List Block} (h : .ttc ∈ l) (s : State) (i : Nat) (f : MeterRec → MeterRec) : (s.meter i f).but l = s.but l := by
  simp [State.meter, h]

@[simp] theorem State.countIgnored_but {l : List Block} (h : .mec ∈ l) (s : State) (i : Nat) : (s.countIgnored i).but l = s.but l := by
  simp [State.countIgnored, h]

@[simp] theorem State.access_but {l : List Block} (h : .out ∈ l ∧ .ins ∈ l) (s : State) (i : Nat) (a : HostAcc) (o : Out) :
    (s.access i a o).but l = s.but l := by
  simp [State.access, h]

@[simp] theorem State.logBack_but {l : List Block} (h : .out ∈ l ∧ .ins ∈ l) (s : State) (i : Nat) (b : Bool) (p : Nat → Bool) :
    (s.logBack i b p).but l = s.but l := by
  simp [State.logBack, h]

@[simp] theorem State.evictLines_but {l : List Block} (h : .out ∈ l ∧ .ins ∈ l) (s : State) (i : Nat) : (s.evictLines i).but l = s.but l := by
  simp [State.evictLines, h]

@[simp] theorem State.hostWrite_but {l : List Block} (h : .out ∈ l ∧ .ins ∈ l) (s : State) (i address : Nat) (data : List Nat) :
    (s.hostWrite i address data).but l = s.but l := by
  simp [State.hostWrite, h]

@[simp] theorem State.hostRead_but {l : List Block} (h : .out ∈ l ∧ .ins ∈ l) (s : State) (i address length tag : Nat) :
    (s.hostRead i address length tag).but l = s.but l := by
  simp [State.hostRead, h]

@[simp] theorem State.msixSend_but {l : List Block} (h : .out ∈ l ∧ .ins ∈ l ∧ .msix ∈ l) (s : State) (i vector : Nat) :
    (s.msixSend i vector).but l = s.but l := by
  simp only [State.msixSend]
  (repeat' split) <;> simp [h, State.but]

@[simp] theorem State.eventLost_but {l : List Block} (h : .mec ∈ l) (s : State) (i : Nat) : (s.eventLost i).but l = s.but l := by
  simp [State.eventLost, h]

@[simp] theorem State.post_but {l : List Block} (h : .out ∈ l ∧ .mec ∈ l ∧ .ins ∈ l ∧ .msix ∈ l) (s : State) (i kind detail subject aux data : Nat) :
    (s.post i kind detail subject aux data).but l = s.but l := by
  simp only [State.post]
  split <;> simp [h]

@[simp] theorem State.upFault_but {l : List Block} (h : .flt ∈ l) (s : State) (src : Nat) (f : FaultSrc → FaultSrc) :
    (s.upFault src f).but l = s.but l := by
  simp [State.upFault, h]

@[simp] theorem State.raiseNote_but {l : List Block} (h : .out ∈ l ∧ .ins ∈ l ∧ .msix ∈ l ∧ .flt ∈ l ∧ .ttc ∈ l) (s : State) (src : Nat) (subj :
    Subject) : (s.raiseNote src subj).2.but l = s.but l := by
  simp only [State.raiseNote]
  (repeat' split) <;> simp [h]

@[simp] theorem State.raise_but {l : List Block} (h : .out ∈ l ∧ .ins ∈ l ∧ .msix ∈ l ∧ .flt ∈ l ∧ .ttc ∈ l) (s : State) (src : Nat) (subj :
    Subject) : (s.raise src subj).but l = s.but l := by
  simp [State.raise, h]

@[simp] theorem State.raiseLevel_but {l : List Block} (h : .out ∈ l ∧ .ins ∈ l ∧ .msix ∈ l ∧ .flt ∈ l ∧ .ttc ∈ l) (s : State) (src : Nat) (subj :
    Subject) : (s.raiseLevel src subj).but l = s.but l := by
  simp [State.raiseLevel, h]

@[simp] theorem State.lower_but {l : List Block} (h : .flt ∈ l) (s : State) (src : Nat) : (s.lower src).but l = s.but l := by
  simp [State.lower, h]

/-! ### The outbound buffers -/

@[simp] theorem State.upPort_but {l : List Block} (h : .prt ∈ l) (s : State) (p : Nat) (f : Port → Port) : (s.upPort p f).but l = s.but l := by
  simp [State.upPort, h]

@[simp] theorem State.upAccount_but {l : List Block} (h : .obf ∈ l) (s : State) (a : Nat) (f : Account → Account) :
    (s.upAccount a f).but l = s.but l := by
  simp [State.upAccount, h]

@[simp] theorem State.charge_but {l : List Block} (h : .adm ∈ l) (s : State) (c : Charge) (f : Nat → Nat) : (s.charge c f).but l = s.but l := by
  simp only [State.charge]
  (repeat' split) <;> simp [h]

@[simp] theorem State.upCell_but {l : List Block} (h : .obf ∈ l) (s : State) (c : Nat) (f : CellTag → CellTag) : (s.upCell c f).but l = s.but l := by
  simp [State.upCell, h]

@[simp] theorem State.settleQueue_but {l : List Block} (h : .obf ∈ l) (s : State) (q : Nat) : (s.settleQueue q).but l = s.but l := by
  simp [State.settleQueue, h]

theorem State.takeIn_but {l : List Block} (h : .adm ∈ l ∧ .obf ∈ l) (s : State) (w : WaitPkt) (output vl : Nat) {t : State} (ht :
    s.takeIn w output vl = some t) : t.but l = s.but l := by
  rw [State.takeIn] at ht
  dsimp only at ht
  split at ht
  · cases ht
  · cases ht; simp [h]

@[simp] theorem State.freePkt_but {l : List Block} (h : .adm ∈ l ∧ .obf ∈ l) (s : State) (p : BufPkt) : (s.freePkt p).but l = s.but l := by
  simp [State.freePkt, h]

@[simp] theorem State.upBufPkt_but {l : List Block} (h : .obf ∈ l) (s : State) (pid output : Nat) (f : BufPkt → BufPkt) :
    (s.upBufPkt pid output f).but l = s.but l := by
  simp [State.upBufPkt, h]

@[simp] theorem State.strand_but {l : List Block} (h : .obf ∈ l) (s : State) (c : Charge) : (s.strand c).but l = s.but l := by
  simp [State.strand, h]

@[simp] theorem State.settleOld_but {l : List Block} (h : .rte ∈ l) (s : State) (before : Nat) : (s.settleOld before).but l = s.but l := by
  simp [State.settleOld, h]

/-! ### Memory protection and interrupts -/

@[simp] theorem State.upMaster_but {l : List Block} (h : .mpu ∈ l) (s : State) (m : Nat) (f : Master → Master) : (s.upMaster m f).but l = s.but l :=
    by
  simp [State.upMaster, h]

@[simp] theorem State.violate_but {l : List Block} (h : .out ∈ l ∧ .ins ∈ l ∧ .mpu ∈ l ∧ .msix ∈ l ∧ .flt ∈ l ∧ .ttc ∈ l) (s : State) (a :
    MpuAccess) (region page : Nat) : (s.violate a region page).but l = s.but l := by
  simp [State.violate, h]

@[simp] theorem State.noteViolation_but {l : List Block} (h : .out ∈ l ∧ .ins ∈ l ∧ .mpu ∈ l ∧ .msix ∈ l ∧ .flt ∈ l ∧ .ttc ∈ l) (s : State) (a :
    MpuAccess) (region : Nat) : (s.noteViolation a region).but l = s.but l := by
  simp [State.noteViolation, h]

/-! ### Records and completions -/

@[simp] theorem State.fireTriggers_but {l : List Block} (h : .mec ∈ l) (s : State) : (s.fireTriggers).but l = s.but l := by
  simp [State.fireTriggers, h]

@[simp] theorem State.setCounter_but {l : List Block} (h : .mec ∈ l) (s : State) (c v : Nat) : (s.setCounter c v).but l = s.but l := by
  simp [State.setCounter, h]

@[simp] theorem State.addCounter_but {l : List Block} (h : .mec ∈ l) (s : State) (c n : Nat) : (s.addCounter c n).but l = s.but l := by
  simp [State.addCounter, h]

@[simp] theorem State.bump_but {l : List Block} (h : .mec ∈ l) (s : State) (i idx : Nat) : (s.bump i idx).but l = s.but l := by
  simp only [State.bump]
  split <;> simp [h]

@[simp] theorem State.writeRecord_but {l : List Block} (h : .out ∈ l ∧ .mec ∈ l ∧ .ins ∈ l ∧ .msix ∈ l) (s : State) (cq : Nat) (r : RecordQueue)
    (ls : List Nat) : (s.writeRecord cq r ls).but l = s.but l := by
  simp only [State.writeRecord]
  split <;> simp [h]

@[simp] theorem State.cqFull_but {l : List Block} (h : .out ∈ l ∧ .mec ∈ l ∧ .ins ∈ l ∧ .msix ∈ l) (s : State) (cq : Nat) :
    (s.cqFull cq).but l = s.but l := by
  simp only [State.cqFull]
  split <;> simp [h]

@[simp] theorem State.putRecord_but {l : List Block} (h : .out ∈ l ∧ .mec ∈ l ∧ .ins ∈ l ∧ .msix ∈ l) (s : State)
    (cq kind status queue bytes wrId detail srcDevice srcInst refusal retryAfter : Nat) :
    (s.putRecord cq kind status queue bytes wrId detail srcDevice srcInst refusal retryAfter).but l = s.but l := by
  simp only [State.putRecord]
  split <;> simp [h]

@[simp] theorem State.writeHeld_but {l : List Block} (h : .out ∈ l ∧ .mec ∈ l ∧ .ins ∈ l ∧ .msix ∈ l) (s : State) (cq fuel : Nat) :
    (s.writeHeld cq fuel).but l = s.but l := by
  induction fuel generalizing s with
  | zero => rfl
  | succ fuel ih =>
    rw [State.writeHeld]
    (repeat' split) <;> simp [ih, h]

@[simp] theorem State.upSlot_but {l : List Block} (h : .mec ∈ l) (s : State) (tag : Nat) (f : OpSlot → OpSlot) : (s.upSlot tag f).but l = s.but l :=
    by
  simp [State.upSlot, h]

@[simp] theorem State.abandonLocks_but {l : List Block} (h : .mec ∈ l) (s : State) (q : Nat) : (s.abandonLocks q).but l = s.but l := by
  simp only [State.abandonLocks]
  split <;> simp [h]

@[simp] theorem State.sendQueueError_but {l : List Block} (h : .out ∈ l ∧ .mec ∈ l ∧ .ins ∈ l ∧ .msix ∈ l) (s : State) (q status : Nat) :
    (s.sendQueueError q status).but l = s.but l := by
  simp only [State.sendQueueError]
  split <;> simp [h]

@[simp] theorem State.engineBusy_but {l : List Block} (h : .freeCount ∈ l ∧ .ttc ∈ l) (s : State) (i : Nat) : (s.engineBusy i).but l = s.but l := by
  simp [State.engineBusy, h]

@[simp] theorem State.retire_but {l : List Block} (h : .freeCount ∈ l ∧ .out ∈ l ∧ .mec ∈ l ∧ .ins ∈ l ∧ .msix ∈ l ∧ .ttc ∈ l) (s : State) (x :
    OpSlot) (status bytes : Nat) : (s.retire x status bytes).but l = s.but l := by
  simp [State.retire, h]

@[simp] theorem State.drainOrder_but {l : List Block} (h : .freeCount ∈ l ∧ .out ∈ l ∧ .mec ∈ l ∧ .ins ∈ l ∧ .msix ∈ l ∧ .ttc ∈ l) (s : State)
    (q fuel : Nat) : (s.drainOrder q fuel).but l = s.but l := by
  induction fuel generalizing s with
  | zero => rfl
  | succ fuel ih =>
    rw [State.drainOrder]
    (repeat' split) <;> simp [ih, h]

@[simp] theorem State.drainTriggered_but {l : List Block} (h : .freeCount ∈ l ∧ .out ∈ l ∧ .mec ∈ l ∧ .ins ∈ l ∧ .msix ∈ l ∧ .ttc ∈ l) (s : State)
    (q : Nat) : (s.drainTriggered q).but l = s.but l := by
  refine foldl_but (fun s x => ?_) _ _
  (repeat' split) <;> simp [h]

@[simp] theorem State.drainQueue_but {l : List Block} (h : .freeCount ∈ l ∧ .out ∈ l ∧ .mec ∈ l ∧ .ins ∈ l ∧ .msix ∈ l ∧ .ttc ∈ l) (s : State) (q :
    Nat) : (s.drainQueue q).but l = s.but l := by
  simp [State.drainQueue, h]

@[simp] theorem State.receiveRecord_but {l : List Block} (h : .out ∈ l ∧ .mec ∈ l ∧ .ins ∈ l ∧ .msix ∈ l) (s : State)
    (rq status bytes wrId matchBits srcDevice srcInst reason retry : Nat) :
    (s.receiveRecord rq status bytes wrId matchBits srcDevice srcInst reason retry).but l = s.but l := by
  simp only [State.receiveRecord]
  split <;> simp [h]

@[simp] theorem State.endRget_but {l : List Block} (h : .out ∈ l ∧ .mec ∈ l ∧ .mtc ∈ l ∧ .ins ∈ l ∧ .msix ∈ l) (s : State) (tag status bytes : Nat) :
    (s.endRget tag status bytes).but l = s.but l := by
  simp only [State.endRget]
  (repeat' split) <;> simp [h]

@[simp] theorem State.finishOp_but {l : List Block} (h : .freeCount ∈ l ∧ .out ∈ l ∧ .mec ∈ l ∧ .mtc ∈ l ∧ .ins ∈ l ∧ .msix ∈ l ∧ .ttc ∈ l) (s :
    State) (tag status bytes : Nat) : (s.finishOp tag status bytes).but l = s.but l := by
  simp only [State.finishOp]
  (repeat' split) <;> simp [h]

@[simp] theorem State.failOp_but {l : List Block} (h : .freeCount ∈ l ∧ .out ∈ l ∧ .mec ∈ l ∧ .mtc ∈ l ∧ .ins ∈ l ∧ .msix ∈ l ∧ .ttc ∈ l) (s :
    State) (tag status : Nat) : (s.failOp tag status).but l = s.but l := by
  simp [State.failOp, h]

/-! ### Routing -/

@[simp] theorem State.upLport_but {l : List Block} (h : .lnk ∈ l) (s : State) (p : Nat) (f : LnkPort → LnkPort) : (s.upLport p f).but l = s.but l :=
    by
  simp [State.upLport, h]

@[simp] theorem State.upLinkVl_but {l : List Block} (h : .lnk ∈ l) (s : State) (p v : Nat) (f : LinkVl → LinkVl) :
    (s.upLinkVl p v f).but l = s.but l := by
  simp [State.upLinkVl, h]

@[simp] theorem State.freeFlits_but {l : List Block} (h : .lnk ∈ l) (s : State) (p v n : Nat) : (s.freeFlits p v n).but l = s.but l := by
  simp [State.freeFlits, h]

@[simp] theorem State.countUnreserved_but {l : List Block} (h : .out ∈ l ∧ .adm ∈ l ∧ .ins ∈ l ∧ .msix ∈ l ∧ .flt ∈ l ∧ .ttc ∈ l) (s : State) :
    (s.countUnreserved).but l = s.but l := by
  simp [State.countUnreserved, h]

@[simp] theorem State.choosePath_but {l : List Block} (h : .freeCount ∈ l) (s : State) (tile : Nat) (hd : Hdr) (own : Option Nat) :
    (s.choosePath tile hd own).2.but l = s.but l := by
  simp only [State.choosePath]
  (repeat' split) <;> simp [h]

@[simp] theorem State.lookup_but {l : List Block} (h : .out ∈ l ∧ .adm ∈ l ∧ .rte ∈ l ∧ .ins ∈ l ∧ .msix ∈ l ∧ .flt ∈ l ∧ .ttc ∈ l) (s : State) (hd :
    Hdr) (input rxVl : Nat) (atSource : Bool) (own : Option Nat) : (s.lookup hd input rxVl atSource own).2.but l = s.but l := by
  simp only [State.lookup]
  (repeat' split) <;> simp [h]

@[simp] theorem State.newPid_but {l : List Block} (h : .trn ∈ l) (s : State) : (s.newPid).2.but l = s.but l := by
  simp [State.newPid, h]

@[simp] theorem State.putWaiting_but {l : List Block} (h : .obf ∈ l) (s : State) (w : WaitPkt) : (s.putWaiting w).but l = s.but l := by
  simp [State.putWaiting, h]

@[simp] theorem State.putPort_but {l : List Block} (h : .obf ∈ l) (s : State) (pkt : Packet) (len port vl : Nat) :
    (s.putPort pkt len port vl).but l = s.but l := by
  simp [State.putPort, h]

@[simp] theorem State.putBuilt_but {l : List Block} (h : .obf ∈ l) (s : State) (pkt : Packet) (len : Nat) : (s.putBuilt pkt len).but l = s.but l := by
  simp [State.putBuilt, h]

@[simp] theorem State.sendMgmt_but {l : List Block} (h : .obf ∈ l ∧ .trn ∈ l) (s : State) (opcode : Nat) (response data : Bool) (fields payload :
    List Nat) (port : Nat) : (s.sendMgmt opcode response data fields payload port).but l = s.but l := by
  simp [State.sendMgmt, h]

@[simp] theorem State.rootDone_but {l : List Block} (h : .freeCount ∈ l ∧ .out ∈ l ∧ .mec ∈ l ∧ .mtc ∈ l ∧ .ins ∈ l ∧ .msix ∈ l ∧ .ttc ∈ l) (s :
    State) (o : McOp) : (s.rootDone o).but l = s.but l := by
  simp only [State.rootDone]
  split <;> simp [h]

@[simp] theorem State.sendMcAck_but {l : List Block} (h : .out ∈ l ∧ .obf ∈ l ∧ .trn ∈ l) (s : State) (port t : Nat) (o : McOp) :
    (s.sendMcAck port t o).but l = s.but l := by
  simp [State.sendMcAck, h]

@[simp] theorem State.mcEnd_but {l : List Block} (h : .freeCount ∈ l ∧ .out ∈ l ∧ .obf ∈ l ∧ .trn ∈ l ∧ .mec ∈ l ∧ .mtc ∈ l ∧ .ins ∈ l ∧ .msix ∈ l ∧
    .ttc ∈ l) (s : State) (t : Nat) (tr : Tree) (o : McOp) : (s.mcEnd t tr o).but l = s.but l := by
  simp [State.mcEnd, h]

@[simp] theorem State.mcSettle_but {l : List Block} (h : .freeCount ∈ l ∧ .out ∈ l ∧ .obf ∈ l ∧ .rte ∈ l ∧ .trn ∈ l ∧ .mec ∈ l ∧ .mtc ∈ l ∧
    .ins ∈ l ∧ .msix ∈ l ∧ .ttc ∈ l) (s : State) (t : Nat) : (s.mcSettle t).but l = s.but l := by
  simp only [State.mcSettle]
  split <;> simp [h]

@[simp] theorem State.fenceBranch_but {l : List Block} (h : .freeCount ∈ l ∧ .out ∈ l ∧ .obf ∈ l ∧ .rte ∈ l ∧ .trn ∈ l ∧ .mec ∈ l ∧ .mtc ∈ l ∧
    .ins ∈ l ∧ .msix ∈ l ∧ .ttc ∈ l) (s : State) (t b : Nat) : (s.fenceBranch t b).but l = s.but l := by
  simp only [State.fenceBranch]
  split <;> simp [h]

@[simp] theorem State.fenceAll_but {l : List Block} (h : .freeCount ∈ l ∧ .out ∈ l ∧ .obf ∈ l ∧ .rte ∈ l ∧ .trn ∈ l ∧ .mec ∈ l ∧ .mtc ∈ l ∧
    .ins ∈ l ∧ .msix ∈ l ∧ .ttc ∈ l) (s : State) (b : Nat) : (s.fenceAll b).but l = s.but l := by
  simp [State.fenceAll, h]

@[simp] theorem State.mcBranchDone_but {l : List Block} (h : .freeCount ∈ l ∧ .out ∈ l ∧ .obf ∈ l ∧ .rte ∈ l ∧ .trn ∈ l ∧ .mec ∈ l ∧ .mtc ∈ l ∧
    .ins ∈ l ∧ .msix ∈ l ∧ .ttc ∈ l) (s : State) (t b srcDevice inst op delivered fenced : Nat) :
    (s.mcBranchDone t b srcDevice inst op delivered fenced).but l = s.but l := by
  simp only [State.mcBranchDone]
  split <;> simp [h]

@[simp] theorem State.mcLocal_but {l : List Block} (h : .freeCount ∈ l ∧ .out ∈ l ∧ .obf ∈ l ∧ .rte ∈ l ∧ .trn ∈ l ∧ .mec ∈ l ∧ .mtc ∈ l ∧ .ins ∈ l ∧
    .msix ∈ l ∧ .ttc ∈ l) (s : State) (hd : Hdr) (ok : Bool) : (s.mcLocal hd ok).but l = s.but l := by
  simp only [State.mcLocal]
  split <;> simp [h]

@[simp] theorem State.freeRx_but {l : List Block} (h : .lnk ∈ l) (s : State) (w : WaitPkt) : (s.freeRx w).but l = s.but l := by
  simp [State.freeRx, h]

@[simp] theorem State.treeMissing_but {l : List Block} (h : .freeCount ∈ l ∧ .out ∈ l ∧ .obf ∈ l ∧ .rte ∈ l ∧ .trn ∈ l ∧ .mec ∈ l ∧ .mtc ∈ l ∧
    .ins ∈ l ∧ .msix ∈ l ∧ .flt ∈ l ∧ .ttc ∈ l) (s : State) (hd : Hdr) (rxVl : Nat) (port : Option Nat) :
    (s.treeMissing hd rxVl port).but l = s.but l := by
  simp only [State.treeMissing]
  split <;> simp [h]

@[simp] theorem State.greenTree_but {l : List Block} (h : .out ∈ l ∧ .adm ∈ l ∧ .rte ∈ l ∧ .ins ∈ l ∧ .msix ∈ l ∧ .flt ∈ l ∧ .ttc ∈ l) (s : State)
    (t : Tree) (hd : Hdr) (atSource : Bool) (own : Option Nat) : (s.greenTree t hd atSource own).but l = s.but l := by
  simp only [State.greenTree]
  (repeat' split) <;> simp [h]

@[simp] theorem State.noteFenceSkip_but {l : List Block} (h : .rte ∈ l) (s : State) : (s.noteFenceSkip).but l = s.but l := by
  simp [State.noteFenceSkip, h]

@[simp] theorem State.routeTree_but {l : List Block} (h : .freeCount ∈ l ∧ .out ∈ l ∧ .adm ∈ l ∧ .obf ∈ l ∧ .rte ∈ l ∧ .lnk ∈ l ∧ .trn ∈ l ∧
    .mec ∈ l ∧ .mtc ∈ l ∧ .ins ∈ l ∧ .msix ∈ l ∧ .flt ∈ l ∧ .ttc ∈ l) (s : State) (w : WaitPkt) (port : Option Nat) :
    (s.routeTree w port).but l = s.but l := by
  simp only [State.routeTree]
  split <;> simp [h]

@[simp] theorem State.noCandidate_but {l : List Block} (h : .rte ∈ l) (s : State) : (s.noCandidate).but l = s.but l := by
  simp [State.noCandidate, h]

theorem State.routeTree_local_but {l : List Block} (h : .freeCount ∈ l ∧ .out ∈ l ∧ .adm ∈ l ∧ .obf ∈ l ∧ .rte ∈ l ∧ .trn ∈ l ∧ .mec ∈ l ∧ .mtc ∈ l ∧
    .ins ∈ l ∧ .msix ∈ l ∧ .flt ∈ l ∧ .ttc ∈ l) (s : State) {w : WaitPkt} (hw : w.fromLocal = true) :
    (s.routeTree w none).but l = s.but l := by
  rw [State.routeTree]
  split
  · rw [State.freeRx_local _ hw]; simp [h]
  · dsimp only
    rw [State.freeRx_local _ hw]
    simp [h]

@[simp] theorem State.inject_but {l : List Block} (h : .freeCount ∈ l ∧ .out ∈ l ∧ .adm ∈ l ∧ .obf ∈ l ∧ .rte ∈ l ∧ .trn ∈ l ∧ .mec ∈ l ∧ .mtc ∈ l ∧
    .ins ∈ l ∧ .msix ∈ l ∧ .flt ∈ l ∧ .ttc ∈ l) (s : State) (p : Packet) (len input : Nat) (sequenced : Bool) (own : Option Nat) :
    (s.inject p len input sequenced own).but l = s.but l := by
  rw [State.inject]
  dsimp only
  split
  · rw [State.routeTree_local_but (by simp [h]) _ rfl]; simp [h]
  · split
    · next e => simp [but_snd e, h]
    · next e => simp [but_snd e, h]

@[simp] theorem State.routeBuilt_but {l : List Block} (h : .freeCount ∈ l ∧ .out ∈ l ∧ .adm ∈ l ∧ .obf ∈ l ∧ .rte ∈ l ∧ .trn ∈ l ∧ .mec ∈ l ∧
    .mtc ∈ l ∧ .ins ∈ l ∧ .msix ∈ l ∧ .flt ∈ l ∧ .ttc ∈ l) (s : State) : (s.routeBuilt).but l = s.but l := by
  simp [State.routeBuilt, h]

theorem State.inject_but_single {l : List Block} (h : .freeCount ∈ l ∧ .out ∈ l ∧ .adm ∈ l ∧ .obf ∈ l ∧ .rte ∈ l ∧ .trn ∈ l ∧ .ins ∈ l ∧ .msix ∈ l ∧
    .flt ∈ l ∧ .ttc ∈ l) (s : State) {p : Packet} (len input : Nat) (sequenced : Bool) (own : Option Nat)
    (hp : p.hdr.multicast = false) : (s.inject p len input sequenced own).but l = s.but l := by
  rw [State.inject]
  dsimp only
  rw [if_neg (by simp [hp])]
  split
  · next e => simp [but_snd e, h]
  · next e => simp [but_snd e, h]

@[simp] theorem State.control_but {l : List Block} (h : .freeCount ∈ l ∧ .out ∈ l ∧ .adm ∈ l ∧ .obf ∈ l ∧ .rte ∈ l ∧ .trn ∈ l ∧ .ins ∈ l ∧
    .msix ∈ l ∧ .flt ∈ l ∧ .ttc ∈ l) (s : State) (opcode dest inst sl : Nat) (response : Bool) (fields : List Nat) :
    (s.control opcode dest inst sl response fields).but l = s.but l := by
  rw [State.control]
  dsimp only
  rw [State.inject_but_single (by simp [h]) _ _ _ _ _ rfl]
  simp [h]

/-! ### The answers of commands -/

@[simp] theorem State.upHq_but {l : List Block} (h : .hly ∈ l) (s : State) (q : Nat) (f : HQueue → HQueue) : (s.upHq q f).but l = s.but l := by
  simp [State.upHq, h]

@[simp] theorem State.ringReply_but {l : List Block} (h : .out ∈ l ∧ .hly ∈ l ∧ .ins ∈ l ∧ .msix ∈ l) (s : State) (q : Nat) (r : Reply) :
    (s.ringReply q r).but l = s.but l := by
  simp [State.ringReply, h]

@[simp] theorem State.sendLane_but {l : List Block} (h : .out ∈ l ∧ .obf ∈ l ∧ .trn ∈ l) (s : State) (kind target : Nat) (directed : Bool) (ports :
    List Nat) (queue seq serial attempt : Nat) (message : List Nat) :
    (s.sendLane kind target directed ports queue seq serial attempt message).but l = s.but l := by
  simp [State.sendLane, h]

@[simp] theorem State.sendLaneReply_but {l : List Block} (h : .out ∈ l ∧ .obf ∈ l ∧ .trn ∈ l) (s : State) (k : InbandKey) (directed : Bool) (ports :
    List Nat) (r : Reply) : (s.sendLaneReply k directed ports r).but l = s.but l := by
  simp [State.sendLaneReply, h]

@[simp] theorem State.sendLaneCommand_but {l : List Block} (h : .out ∈ l ∧ .obf ∈ l ∧ .trn ∈ l) (s : State) (target : Nat) (directed : Bool) (ports :
    List Nat) (queue seq attempt descriptor : Nat) (input : List Nat) :
    (s.sendLaneCommand target directed ports queue seq attempt descriptor input).but l = s.but l := by
  simp [State.sendLaneCommand, h]

@[simp] theorem State.writeReply_but {l : List Block} (h : .out ∈ l ∧ .hly ∈ l ∧ .obf ∈ l ∧ .trn ∈ l ∧ .ins ∈ l ∧ .msix ∈ l) (s : State) (r :
    Reply) : (s.writeReply r).but l = s.but l := by
  simp only [State.writeReply]
  split <;> simp [h]

@[simp] theorem State.noteStatus_but {l : List Block} (h : .hly ∈ l) (s : State) (status : Nat) : (s.noteStatus status).but l = s.but l := by
  simp [State.noteStatus, h]

@[simp] theorem State.complete_but {l : List Block} (h : .out ∈ l ∧ .hly ∈ l ∧ .obf ∈ l ∧ .trn ∈ l ∧ .ins ∈ l ∧ .msix ∈ l) (s : State) (src :
    CmdSrc) (seq code : Nat) (interrupt outErr : Bool) (status result : Nat) (out : List Nat) :
    (s.complete src seq code interrupt outErr status result out).but l = s.but l := by
  simp [State.complete, h]

@[simp] theorem State.finish_but {l : List Block} (h : .out ∈ l ∧ .hly ∈ l ∧ .obf ∈ l ∧ .trn ∈ l ∧ .ins ∈ l ∧ .msix ∈ l) (s : State) (p :
    Prog → Bool) (status result : Nat) (out : List Nat) : (s.finish p status result out).but l = s.but l := by
  simp only [State.finish]
  split <;> simp [h]

@[simp] theorem State.finishWait_but {l : List Block} (h : .out ∈ l ∧ .hly ∈ l ∧ .obf ∈ l ∧ .trn ∈ l ∧ .ins ∈ l ∧ .msix ∈ l) (s : State) (w : Wait)
    (status result : Nat) : (s.finishWait w status result).but l = s.but l := by
  simp [State.finishWait, h]

@[simp] theorem State.finishEvery_but {l : List Block} (h : .out ∈ l ∧ .hly ∈ l ∧ .obf ∈ l ∧ .trn ∈ l ∧ .ins ∈ l ∧ .msix ∈ l) (s : State) (w : Wait)
    (status result : Nat) : (s.finishEvery w status result).but l = s.but l := by
  simp [State.finishEvery, h]

@[simp] theorem State.fetchCmd_but {l : List Block} (h : .hly ∈ l) (s : State) (hd : HlyHdr) : (s.fetchCmd hd).but l = s.but l := by
  simp only [State.fetchCmd]
  split <;> simp [h]

@[simp] theorem State.sendRemote_but {l : List Block} (h : .out ∈ l ∧ .hly ∈ l ∧ .obf ∈ l ∧ .trn ∈ l) (s : State) (hd : HlyHdr) (code descriptor :
    Nat) (input : List Nat) : (s.sendRemote hd code descriptor input).but l = s.but l := by
  simp [State.sendRemote, h]

/-! ### Policing -/

@[simp] theorem State.meterTx_but {l : List Block} (h : .ttc ∈ l) (s : State) (i bytes : Nat) (f : MeterRec → MeterRec) :
    (s.meterTx i bytes f).but l = s.but l := by
  simp [State.meterTx, h]

@[simp] theorem State.meterRefused_but {l : List Block} (h : .adm ∈ l ∧ .ttc ∈ l) (s : State) (i : Nat) : (s.meterRefused i).but l = s.but l := by
  simp [State.meterRefused, h]

@[simp] theorem State.policeMeter_but {l : List Block} (h : .adm ∈ l ∧ .ttc ∈ l) (s : State) (hd : Hdr) (len : Nat) (first : Bool) :
    (s.policeMeter hd len first).2.but l = s.but l := by
  simp only [State.policeMeter]
  (repeat' split) <;> simp [h]

@[simp] theorem State.police_but {l : List Block} (h : .out ∈ l ∧ .adm ∈ l ∧ .ins ∈ l ∧ .msix ∈ l ∧ .flt ∈ l ∧ .ttc ∈ l) (s : State) (hd : Hdr)
    (len : Nat) (first pre : Bool) : (s.police hd len first pre).2.but l = s.but l := by
  simp only [State.police]
  (repeat' split) <;> simp [h]

@[simp] theorem State.endWait_but {l : List Block} (h : .ttc ∈ l) (s : State) (i : Nat) (from_ : Option Nat) : (s.endWait i from_).but l = s.but l :=
    by
  simp only [State.endWait]
  split <;> simp [h]

@[simp] theorem State.edgeWait_but {l : List Block} (h : .obf ∈ l) (s : State) (p : Packet) (len input : Nat) (preYellow : Bool) :
    (s.edgeWait p len input preYellow).but l = s.but l := by
  simp [State.edgeWait, h]

/-! ### Transport contexts -/

@[simp] theorem State.upSend_but {l : List Block} (h : .trn ∈ l) (s : State) (k : CtxKey) (f : SendCtx → SendCtx) : (s.upSend k f).but l = s.but l :=
    by
  simp [State.upSend, h]

@[simp] theorem State.upRecv_but {l : List Block} (h : .trn ∈ l) (s : State) (k : CtxKey) (f : RecvCtx → RecvCtx) : (s.upRecv k f).but l = s.but l :=
    by
  simp [State.upRecv, h]

@[simp] theorem State.trnControl_but {l : List Block} (h : .freeCount ∈ l ∧ .out ∈ l ∧ .adm ∈ l ∧ .obf ∈ l ∧ .rte ∈ l ∧ .trn ∈ l ∧ .ins ∈ l ∧
    .msix ∈ l ∧ .flt ∈ l ∧ .ttc ∈ l) (s : State) (opcode peer inst cls sl : Nat) (response : Bool) (fields : List Nat) :
    (s.trnControl opcode peer inst cls sl response fields).but l = s.but l := by
  simp [State.trnControl, h]

@[simp] theorem State.openSend_but {l : List Block} (h : .freeCount ∈ l ∧ .out ∈ l ∧ .adm ∈ l ∧ .obf ∈ l ∧ .rte ∈ l ∧ .trn ∈ l ∧ .ins ∈ l ∧
    .msix ∈ l ∧ .flt ∈ l ∧ .ttc ∈ l) (s : State) (k : CtxKey) (sl : Nat) : (s.openSend k sl).but l = s.but l := by
  simp only [State.openSend]
  split <;> simp [h]

@[simp] theorem State.sendNow_but {l : List Block} (h : .freeCount ∈ l ∧ .out ∈ l ∧ .adm ∈ l ∧ .obf ∈ l ∧ .rte ∈ l ∧ .trn ∈ l ∧ .mec ∈ l ∧ .mtc ∈ l ∧
    .ins ∈ l ∧ .msix ∈ l ∧ .flt ∈ l ∧ .ttc ∈ l) (s : State) (k : CtxKey) (p : SentPkt) (ticket : Bool) : (s.sendNow k p ticket).but l = s.but l := by
  simp only [State.sendNow]
  split <;> simp [h]

@[simp] theorem State.policeQueued_but {l : List Block} (h : .out ∈ l ∧ .adm ∈ l ∧ .ins ∈ l ∧ .msix ∈ l ∧ .flt ∈ l ∧ .ttc ∈ l) (s : State) (p :
    SentPkt) : (s.policeQueued p).2.but l = s.but l := by
  rw [State.policeQueued]
  split
  · rfl
  · dsimp only
    split
    · next e => simp [but_snd e, h]
    · next e => simp [but_snd e, h]

@[simp] theorem State.endUnrouted_but {l : List Block} (h : .freeCount ∈ l ∧ .out ∈ l ∧ .mec ∈ l ∧ .mtc ∈ l ∧ .ins ∈ l ∧ .msix ∈ l ∧ .ttc ∈ l) (s :
    State) (tag : Nat) : (s.endUnrouted tag).but l = s.but l := by
  simp [State.endUnrouted, h]

@[simp] theorem State.pump_but {l : List Block} (h : .freeCount ∈ l ∧ .out ∈ l ∧ .adm ∈ l ∧ .obf ∈ l ∧ .rte ∈ l ∧ .trn ∈ l ∧ .mec ∈ l ∧ .mtc ∈ l ∧
    .ins ∈ l ∧ .msix ∈ l ∧ .flt ∈ l ∧ .ttc ∈ l) (s : State) (k : CtxKey) (fuel : Nat) : (s.pump k fuel).but l = s.but l := by
  induction fuel generalizing s with
  | zero => rfl
  | succ fuel ih =>
    rw [State.pump]
    split
    · rfl
    · split
      · rfl
      · split
        · rfl
        · split
          · rfl
          · split
            · simp [ih, h]
            · split
              · next e => simp [ih, but_snd e, h]
              · next e => simp [but_snd e, h]

@[simp] theorem State.pumpAll_but {l : List Block} (h : .freeCount ∈ l ∧ .out ∈ l ∧ .adm ∈ l ∧ .obf ∈ l ∧ .rte ∈ l ∧ .trn ∈ l ∧ .mec ∈ l ∧ .mtc ∈ l ∧
    .ins ∈ l ∧ .msix ∈ l ∧ .flt ∈ l ∧ .ttc ∈ l) (s : State) (k : CtxKey) : (s.pumpAll k).but l = s.but l := by
  simp [State.pumpAll, h]

@[simp] theorem State.handOver_but {l : List Block} (h : .freeCount ∈ l ∧ .out ∈ l ∧ .adm ∈ l ∧ .obf ∈ l ∧ .rte ∈ l ∧ .trn ∈ l ∧ .mec ∈ l ∧
    .mtc ∈ l ∧ .ins ∈ l ∧ .msix ∈ l ∧ .flt ∈ l ∧ .ttc ∈ l) (s : State) (p : SentPkt) : (s.handOver p).but l = s.but l := by
  simp [State.handOver, h]

@[simp] theorem State.respond_but {l : List Block} (h : .freeCount ∈ l ∧ .out ∈ l ∧ .adm ∈ l ∧ .obf ∈ l ∧ .rte ∈ l ∧ .trn ∈ l ∧ .mec ∈ l ∧ .mtc ∈ l ∧
    .ins ∈ l ∧ .msix ∈ l ∧ .flt ∈ l ∧ .ttc ∈ l) (s : State) (opcode dest inst opTag instGen status offset sl : Nat) (data : List Nat) (extra : Nat)
    (own : Option Nat) (input : Nat) (src : Option Source) :
    (s.respond opcode dest inst opTag instGen status offset sl data extra own input src).but l = s.but l := by
  simp [State.respond, h]

@[simp] theorem State.ackOps_but {l : List Block} (h : .freeCount ∈ l ∧ .out ∈ l ∧ .mec ∈ l ∧ .ins ∈ l ∧ .msix ∈ l ∧ .ttc ∈ l) (s : State) (ps :
    List SentPkt) : (s.ackOps ps).but l = s.but l := by
  refine foldl_but (fun s p => ?_) _ _
  split
  · rfl
  · dsimp only
    split <;> simp [h]

@[simp] theorem State.ackTo_but {l : List Block} (h : .freeCount ∈ l ∧ .out ∈ l ∧ .adm ∈ l ∧ .obf ∈ l ∧ .rte ∈ l ∧ .trn ∈ l ∧ .mec ∈ l ∧ .mtc ∈ l ∧
    .ins ∈ l ∧ .msix ∈ l ∧ .flt ∈ l ∧ .ttc ∈ l) (s : State) (k : CtxKey) (e : Nat) : (s.ackTo k e).but l = s.but l := by
  simp only [State.ackTo]
  split <;> simp [h]

@[simp] theorem State.issueRead_but {l : List Block} (h : .out ∈ l ∧ .mec ∈ l ∧ .ins ∈ l) (s : State) (p : PendRead) :
    (s.issueRead p).but l = s.but l := by
  simp [State.issueRead, h]

@[simp] theorem State.sendAgain_but {l : List Block} (h : .freeCount ∈ l ∧ .out ∈ l ∧ .adm ∈ l ∧ .obf ∈ l ∧ .rte ∈ l ∧ .trn ∈ l ∧ .mec ∈ l ∧
    .mtc ∈ l ∧ .ins ∈ l ∧ .msix ∈ l ∧ .flt ∈ l ∧ .ttc ∈ l) (s : State) (p : SentPkt) : (s.sendAgain p).but l = s.but l := by
  simp [State.sendAgain, h]

@[simp] theorem State.pumpAgain_but {l : List Block} (h : .freeCount ∈ l ∧ .out ∈ l ∧ .adm ∈ l ∧ .obf ∈ l ∧ .rte ∈ l ∧ .trn ∈ l ∧ .mec ∈ l ∧
    .mtc ∈ l ∧ .ins ∈ l ∧ .msix ∈ l ∧ .flt ∈ l ∧ .ttc ∈ l) (s : State) (k : CtxKey) (fuel : Nat) : (s.pumpAgain k fuel).but l = s.but l := by
  induction fuel generalizing s with
  | zero => rfl
  | succ fuel ih =>
    rw [State.pumpAgain]
    (repeat' split) <;> simp [ih, h]

@[simp] theorem State.resendAll_but {l : List Block} (h : .freeCount ∈ l ∧ .out ∈ l ∧ .adm ∈ l ∧ .obf ∈ l ∧ .rte ∈ l ∧ .trn ∈ l ∧ .mec ∈ l ∧
    .mtc ∈ l ∧ .ins ∈ l ∧ .msix ∈ l ∧ .flt ∈ l ∧ .ttc ∈ l) (s : State) (k : CtxKey) : (s.resendAll k).but l = s.but l := by
  simp [State.resendAll, h]

@[simp] theorem State.resendFrom_but {l : List Block} (h : .freeCount ∈ l ∧ .out ∈ l ∧ .adm ∈ l ∧ .obf ∈ l ∧ .rte ∈ l ∧ .trn ∈ l ∧ .mec ∈ l ∧
    .mtc ∈ l ∧ .ins ∈ l ∧ .msix ∈ l ∧ .flt ∈ l ∧ .ttc ∈ l) (s : State) (k : CtxKey) (n : Nat) : (s.resendFrom k n).but l = s.but l := by
  simp [State.resendFrom, h]

@[simp] theorem State.rereadDone_but {l : List Block} (h : .freeCount ∈ l ∧ .out ∈ l ∧ .adm ∈ l ∧ .obf ∈ l ∧ .rte ∈ l ∧ .trn ∈ l ∧ .mec ∈ l ∧
    .mtc ∈ l ∧ .ins ∈ l ∧ .msix ∈ l ∧ .flt ∈ l ∧ .ttc ∈ l) (s : State) (k : CtxKey) (tag : Nat) (values : List Nat) (bad : Bool) :
    (s.rereadDone k tag values bad).but l = s.but l := by
  rw [State.rereadDone]
  split
  · rfl
  · split
    · rfl
    · rw [State.resendAll_but (by simp [h])]
      split
      · simp [h]
      · next p _ => cases p.op <;> simp [h]

@[simp] theorem State.failImport_but {l : List Block} (h : .out ∈ l ∧ .mec ∈ l ∧ .ins ∈ l ∧ .msix ∈ l) (s : State) (r : WinReq) (kind reason : Nat) :
    (s.failImport r kind reason).but l = s.but l := by
  simp [State.failImport, h]

@[simp] theorem State.settleUnmap_but {l : List Block} (h : .out ∈ l ∧ .hly ∈ l ∧ .obf ∈ l ∧ .trn ∈ l ∧ .ins ∈ l ∧ .msix ∈ l) (s : State) (i slot :
    Nat) : (s.settleUnmap i slot).but l = s.but l := by
  simp [State.settleUnmap, h]

@[simp] theorem State.failWindows_but {l : List Block} (h : .out ∈ l ∧ .hly ∈ l ∧ .obf ∈ l ∧ .trn ∈ l ∧ .pool ∈ l ∧ .mec ∈ l ∧ .ins ∈ l ∧ .msix ∈ l)
    (s : State) (k : CtxKey) (ps : List SentPkt) : (s.failWindows k ps).but l = s.but l := by
  refine foldl_but (fun s p => ?_) _ _
  dsimp only
  split <;> simp [h]

@[simp] theorem State.failSend_but {l : List Block} (h : .freeCount ∈ l ∧ .out ∈ l ∧ .hly ∈ l ∧ .obf ∈ l ∧ .trn ∈ l ∧ .pool ∈ l ∧ .mec ∈ l ∧
    .mtc ∈ l ∧ .ins ∈ l ∧ .msix ∈ l ∧ .flt ∈ l ∧ .ttc ∈ l) (s : State) (k : CtxKey) : (s.failSend k).but l = s.but l := by
  simp only [State.failSend]
  split <;> simp [h]

@[simp] theorem State.transitNak_but {l : List Block} (h : .freeCount ∈ l ∧ .out ∈ l ∧ .adm ∈ l ∧ .obf ∈ l ∧ .rte ∈ l ∧ .trn ∈ l ∧ .ins ∈ l ∧
    .msix ∈ l ∧ .flt ∈ l ∧ .ttc ∈ l) (s : State) (hd : Hdr) (reason : Nat) : (s.transitNak hd reason).but l = s.but l := by
  simp [State.transitNak, h]

@[simp] theorem State.sendTack_but {l : List Block} (h : .freeCount ∈ l ∧ .out ∈ l ∧ .adm ∈ l ∧ .obf ∈ l ∧ .rte ∈ l ∧ .trn ∈ l ∧ .ins ∈ l ∧
    .msix ∈ l ∧ .flt ∈ l ∧ .ttc ∈ l) (s : State) (k : CtxKey) (openAck openRefused closeAck : Bool) (sl : Nat) :
    (s.sendTack k openAck openRefused closeAck sl).but l = s.but l := by
  simp only [State.sendTack]
  split <;> simp [h]

theorem State.openRecv_but {l : List Block} (h : .trn ∈ l) (s : State) (k : CtxKey) (initial sl : Nat) {t : State} (ht :
    s.openRecv k initial sl = some t) : t.but l = s.but l := by
  rw [State.openRecv] at ht
  split at ht <;> cases ht
  simp [h]

/-! ### Links -/

@[simp] theorem State.replayOver_but {l : List Block} (h : .lnk ∈ l) (s : State) (p : Nat) : (s.replayOver p).but l = s.but l := by
  simp [State.replayOver, h]

@[simp] theorem State.countInject_but {l : List Block} (h : .lnk ∈ l) (s : State) (p : Nat) : (s.countInject p).2.but l = s.but l := by
  simp only [State.countInject]
  (repeat' split) <;> simp [h]

@[simp] theorem State.told_but {l : List Block} (h : .lnk ∈ l) (s : State) (p : Nat) (vls : List Nat) : (s.told p vls).but l = s.but l := by
  simp [State.told, h]

@[simp] theorem State.sendFrame_but {l : List Block} (h : .out ∈ l) (s : State) (p : Nat) (f : ReplayFrame) (damage : WireFrame → WireFrame) :
    (s.sendFrame p f damage).but l = s.but l := by
  simp [State.sendFrame, h]

@[simp] theorem State.putFrame_but {l : List Block} (h : .out ∈ l ∧ .lnk ∈ l) (s : State) (p : Nat) (f : ReplayFrame) :
    (s.putFrame p f).but l = s.but l := by
  simp only [State.putFrame]
  (repeat' split) <;> simp [h]

@[simp] theorem State.startFrame_but {l : List Block} (h : .out ∈ l ∧ .lnk ∈ l) (s : State) (p v : Nat) (pkt : Packet) (len : Nat) (sequenced :
    Bool) : (s.startFrame p v pkt len sequenced).but l = s.but l := by
  simp [State.startFrame, h]

@[simp] theorem State.frameSent_but {l : List Block} (h : .lnk ∈ l) (s : State) (p pid : Nat) (aborted : Bool) :
    (s.frameSent p pid aborted).but l = s.but l := by
  simp [State.frameSent, h]

@[simp] theorem State.takeAck_but {l : List Block} (h : .rte ∈ l ∧ .lnk ∈ l) (s : State) (p ack : Nat) : (s.takeAck p ack).but l = s.but l := by
  simp [State.takeAck, h]

@[simp] theorem State.takeCredit_but {l : List Block} (h : .lnk ∈ l) (s : State) (p v count : Nat) : (s.takeCredit p v count).but l = s.but l := by
  simp [State.takeCredit, h]

@[simp] theorem State.linkProtocol_but {l : List Block} (h : .out ∈ l ∧ .lnk ∈ l ∧ .ins ∈ l ∧ .msix ∈ l ∧ .flt ∈ l ∧ .ttc ∈ l) (s : State) (p :
    Nat) : (s.linkProtocol p).but l = s.but l := by
  simp [State.linkProtocol, h]

@[simp] theorem State.dropCopies_but {l : List Block} (h : .out ∈ l ∧ .adm ∈ l ∧ .obf ∈ l ∧ .egs ∈ l ∧ .lnk ∈ l) (s : State) (pid : Nat) :
    (s.dropCopies pid).but l = s.but l := by
  simp [State.dropCopies, h]

@[simp] theorem State.dropOpen_but {l : List Block} (h : .out ∈ l ∧ .adm ∈ l ∧ .obf ∈ l ∧ .egs ∈ l ∧ .lnk ∈ l) (s : State) (p v : Nat) :
    (s.dropOpen p v).but l = s.but l := by
  simp only [State.dropOpen]
  (repeat' split) <;> simp [h]

@[simp] theorem State.dropAllOpen_but {l : List Block} (h : .out ∈ l ∧ .adm ∈ l ∧ .obf ∈ l ∧ .egs ∈ l ∧ .lnk ∈ l) (s : State) (p : Nat) :
    (s.dropAllOpen p).but l = s.but l := by
  simp [State.dropAllOpen, h]

@[simp] theorem State.acceptFrame_but {l : List Block} (h : .lnk ∈ l) (s : State) (p d : Nat) : (s.acceptFrame p d).but l = s.but l := by
  simp [State.acceptFrame, h]

@[simp] theorem State.enterInit_but {l : List Block} (h : .lnk ∈ l) (s : State) (p : Nat) : (s.enterInit p).but l = s.but l := by
  simp [State.enterInit, h]

@[simp] theorem State.enterReplay_but {l : List Block} (h : .lnk ∈ l) (s : State) (p : Nat) : (s.enterReplay p).but l = s.but l := by
  simp [State.enterReplay, h]

@[simp] theorem State.enterRetrain_but {l : List Block} (h : .lnk ∈ l ∧ .ttc ∈ l) (s : State) (p : Nat) : (s.enterRetrain p).but l = s.but l := by
  simp [State.enterRetrain, h]

@[simp] theorem State.lanesTrained_but {l : List Block} (h : .lnk ∈ l) (s : State) (p : Nat) : (s.lanesTrained p).but l = s.but l := by
  simp only [State.lanesTrained]
  split <;> simp [h]

@[simp] theorem State.unsync_but {l : List Block} (h : .out ∈ l ∧ .ftu ∈ l ∧ .adm ∈ l ∧ .ins ∈ l ∧ .msix ∈ l ∧ .flt ∈ l ∧ .ttc ∈ l) (s : State) :
    (s.unsync).but l = s.but l := by
  simp [State.unsync, h]

@[simp] theorem State.parentDown_but {l : List Block} (h : .out ∈ l ∧ .ftu ∈ l ∧ .adm ∈ l ∧ .ins ∈ l ∧ .msix ∈ l ∧ .flt ∈ l ∧ .ttc ∈ l) (s : State)
    (p : Nat) : (s.parentDown p).but l = s.but l := by
  simp [State.parentDown, h]

@[simp] theorem State.linkLost_but {l : List Block} (h : .freeCount ∈ l ∧ .out ∈ l ∧ .ftu ∈ l ∧ .adm ∈ l ∧ .obf ∈ l ∧ .egs ∈ l ∧ .rte ∈ l ∧
    .lnk ∈ l ∧ .trn ∈ l ∧ .ins ∈ l ∧ .msix ∈ l ∧ .flt ∈ l ∧ .ttc ∈ l) (s : State) (p : Nat) : (s.linkLost p).but l = s.but l := by
  simp [State.linkLost, h]

@[simp] theorem State.portDown_but {l : List Block} (h : .rte ∈ l) (s : State) (p : Nat) : (s.portDown p).but l = s.but l := by
  simp [State.portDown, h]

@[simp] theorem State.linkDown_but {l : List Block} (h : .freeCount ∈ l ∧ .out ∈ l ∧ .ftu ∈ l ∧ .adm ∈ l ∧ .obf ∈ l ∧ .egs ∈ l ∧ .rte ∈ l ∧
    .lnk ∈ l ∧ .trn ∈ l ∧ .mec ∈ l ∧ .mtc ∈ l ∧ .ins ∈ l ∧ .msix ∈ l ∧ .flt ∈ l ∧ .ttc ∈ l) (s : State) (p : Nat) : (s.linkDown p).but l = s.but l :=
    by
  simp [State.linkDown, h]

/-! ### Egress -/

@[simp] theorem State.upEgress_but {l : List Block} (h : .egs ∈ l) (s : State) (o : Nat) (f : Egress → Egress) : (s.upEgress o f).but l = s.but l :=
    by
  simp [State.upEgress, h]

@[simp] theorem State.refillEgress_but {l : List Block} (h : .egs ∈ l) (s : State) (o : Nat) : (s.refillEgress o).but l = s.but l := by
  simp [State.refillEgress, h]

@[simp] theorem State.putSubs_but {l : List Block} (h : .egs ∈ l) (s : State) (t : Tbl Child) : (s.putSubs t).but l = s.but l := by
  simp [State.putSubs, h]

theorem State.yellowPick_but {l : List Block} (h : .egs ∈ l) {s : State} {o : Nat} {ok : BufPkt → Bool} {b : BufPkt} {t : State}
    (ht : s.yellowPick o ok = some (b, t)) : t.but l = s.but l := by
  rw [State.yellowPick] at ht
  dsimp only at ht
  (repeat' split at ht) <;> cases ht
  all_goals simp [h]

@[simp] theorem State.settleDeficits_but {l : List Block} (h : .egs ∈ l) (s : State) (o : Nat) : (s.settleDeficits o).but l = s.but l := by
  simp [State.settleDeficits, h]

@[simp] theorem State.countUnjudged_but {l : List Block} (h : .adm ∈ l ∧ .ttc ∈ l) (s : State) : (s.countUnjudged).but l = s.but l := by
  simp [State.countUnjudged, h]

@[simp] theorem State.leaveHdr_but {l : List Block} (h : .adm ∈ l ∧ .ttc ∈ l) (s : State) (b : BufPkt) : (s.leaveHdr b).2.but l = s.but l := by
  simp only [State.leaveHdr]
  (repeat' split) <;> simp [h]

@[simp] theorem State.keepT1_but {l : List Block} (h : .ftu ∈ l) (s : State) (port : Nat) (p : Packet) : (s.keepT1 port p).but l = s.but l := by
  simp [State.keepT1, h]

@[simp] theorem State.startSend_but {l : List Block} (h : .out ∈ l ∧ .ftu ∈ l ∧ .adm ∈ l ∧ .obf ∈ l ∧ .egs ∈ l ∧ .lnk ∈ l ∧ .ttc ∈ l) (s : State)
    (b : BufPkt) : (s.startSend b).but l = s.but l := by
  simp [State.startSend, h]

@[simp] theorem State.endFrame_but {l : List Block} (h : .adm ∈ l ∧ .obf ∈ l ∧ .egs ∈ l ∧ .rte ∈ l ∧ .lnk ∈ l) (s : State) (o : Nat) (b : BufPkt) :
    (s.endFrame o b).but l = s.but l := by
  simp [State.endFrame, h]

@[simp] theorem State.suspendFrame_but {l : List Block} (h : .egs ∈ l) (s : State) (o : Nat) (b : BufPkt) : (s.suspendFrame o b).but l = s.but l := by
  simp [State.suspendFrame, h]

@[simp] theorem State.boundary_but {l : List Block} (h : .adm ∈ l ∧ .obf ∈ l ∧ .egs ∈ l ∧ .rte ∈ l ∧ .lnk ∈ l) (s : State) (o : Nat) :
    (s.boundary o).but l = s.but l := by
  simp only [State.boundary]
  (repeat' split) <;> simp [h]

@[simp] theorem State.resumeSend_but {l : List Block} (h : .egs ∈ l) (s : State) (o vl : Nat) : (s.resumeSend o vl).but l = s.but l := by
  simp only [State.resumeSend]
  split <;> simp [h]

@[simp] theorem State.spendGreen_but {l : List Block} (h : .egs ∈ l) (s : State) (o : Nat) (b : BufPkt) : (s.spendGreen o b).but l = s.but l := by
  simp [State.spendGreen, h]

theorem State.cutter_but {l : List Block} (h : .egs ∈ l) {s : State} {o : Nat} {frame : Hdr} {b : BufPkt} {t : State}
    (ht : s.cutter o frame = some (b, t)) : t.but l = s.but l := by
  rw [State.cutter] at ht
  (repeat' split at ht) <;> try cases ht
  · rfl
  · simp [h]
  · exact State.yellowPick_but h ht

theorem State.cutBy_but {l : List Block} (h : .egs ∈ l) (s : State) (o : Nat) (c : BufPkt) (frame : Hdr) {t : State} (ht :
    s.cutBy o c frame = some t) : t.but l = s.but l := by
  rw [State.cutBy] at ht
  split at ht
  next hc =>
    split at ht <;> cases ht
    exact State.cutter_but h hc
  · cases ht

@[simp] theorem State.replayNext_but {l : List Block} (h : .out ∈ l ∧ .lnk ∈ l) (s : State) (p : Nat) : (s.replayNext p).but l = s.but l := by
  simp only [State.replayNext]
  (repeat' split) <;> simp [h]

@[simp] theorem State.sendBackground_but {l : List Block} (h : .out ∈ l ∧ .egs ∈ l) (s : State) (o : Nat) : (s.sendBackground o).but l = s.but l := by
  simp only [State.sendBackground]
  split <;> simp [h]

@[simp] theorem State.queueBackground_but {l : List Block} (h : .egs ∈ l) (s : State) (o : Nat) (lens : List Nat) :
    (s.queueBackground o lens).but l = s.but l := by
  simp [State.queueBackground, h]

@[simp] theorem State.select_but {l : List Block} (h : .out ∈ l ∧ .ftu ∈ l ∧ .adm ∈ l ∧ .obf ∈ l ∧ .egs ∈ l ∧ .lnk ∈ l ∧ .ttc ∈ l) (s : State) (o :
    Nat) : (s.select o).but l = s.but l := by
  rw [State.select]
  split
  · simp [h]
  · dsimp only
    generalize ht : ite ((s.greenHead o fun b => s.unresHeld o b).isSome = true) _ s = t
    have hb : t.but l = s.but l := by rw [← ht]; simp [h]
    split
    · simp [hb, h]
    · split
      · simp [hb, h]
      · split
        · next e => rw [State.startSend_but (by simp [h]), State.yellowPick_but (by simp [h]) e, hb]
        · simp [hb, h]

@[simp] theorem State.selectPast_but {l : List Block} (h : .out ∈ l ∧ .ftu ∈ l ∧ .adm ∈ l ∧ .obf ∈ l ∧ .egs ∈ l ∧ .lnk ∈ l ∧ .ttc ∈ l) (s : State)
    (o pid : Nat) : (s.selectPast o pid).but l = s.but l := by
  simp [State.selectPast, h]

@[simp] theorem State.selectInjected_but {l : List Block} (h : .out ∈ l ∧ .ftu ∈ l ∧ .adm ∈ l ∧ .obf ∈ l ∧ .egs ∈ l ∧ .lnk ∈ l ∧ .ttc ∈ l) (s :
    State) (o : Nat) : (s.selectInjected o).but l = s.but l := by
  simp only [State.selectInjected]
  split <;> simp [h]

@[simp] theorem State.selectOut_but {l : List Block} (h : .out ∈ l ∧ .ftu ∈ l ∧ .adm ∈ l ∧ .obf ∈ l ∧ .egs ∈ l ∧ .rte ∈ l ∧ .lnk ∈ l ∧ .ttc ∈ l) (s :
    State) (o : Nat) : (s.selectOut o).but l = s.but l := by
  rw [State.selectOut]
  rw [State.settleDeficits_but (by simp [h])]
  split
  · split
    · next e => rw [State.startSend_but (by simp [h]), State.cutter_but (by simp [h]) e]; simp [h]
    · simp [h]
  · split
    · simp [h]
    · split
      · split
        · next e => rw [State.startSend_but (by simp [h]), State.cutter_but (by simp [h]) e]; simp [h]
        · simp [h]
      · simp [h]

@[simp] theorem State.holdFrame_but {l : List Block} (h : .egs ∈ l) (s : State) (o : Nat) (b : BufPkt) (progress : Nat) :
    (s.holdFrame o b progress).but l = s.but l := by
  simp [State.holdFrame, h]

@[simp] theorem State.holdReplay_but {l : List Block} (h : .lnk ∈ l) (s : State) (o : Nat) (f : ReplayFrame) (progress : Nat) :
    (s.holdReplay o f progress).but l = s.but l := by
  simp [State.holdReplay, h]

@[simp] theorem State.cutBackground_but {l : List Block} (h : .out ∈ l ∧ .ftu ∈ l ∧ .adm ∈ l ∧ .obf ∈ l ∧ .egs ∈ l ∧ .lnk ∈ l ∧ .ttc ∈ l) (s :
    State) (o : Nat) (c : BufPkt) (progress : Nat) : (s.cutBackground o c progress).but l = s.but l := by
  rw [State.cutBackground]
  split
  · rfl
  · split
    · rfl
    · split
      · rfl
      · next e => rw [State.startSend_but (by simp [h]), State.cutBy_but (by simp [h]) _ _ _ _ e]; simp [h]

@[simp] theorem State.sendControl_but {l : List Block} (h : .out ∈ l ∧ .lnk ∈ l) (s : State) (p subtype : Nat) :
    (s.sendControl p subtype).but l = s.but l := by
  simp [State.sendControl, h]

@[simp] theorem State.controlSlot_but {l : List Block} (h : .out ∈ l ∧ .lnk ∈ l ∧ .prt ∈ l) (s : State) (p : Nat) :
    (s.controlSlot p).but l = s.but l := by
  simp [State.controlSlot, h]

@[simp] theorem State.cutFrame_but {l : List Block} (h : .out ∈ l ∧ .ftu ∈ l ∧ .adm ∈ l ∧ .obf ∈ l ∧ .egs ∈ l ∧ .lnk ∈ l ∧ .ttc ∈ l) (s : State)
    (o pid progress : Nat) : (s.cutFrame o pid progress).but l = s.but l := by
  rw [State.cutFrame]
  split
  · rfl
  · split
    · rfl
    · split
      · rfl
      · split
        · rfl
        · next e => rw [State.startSend_but (by simp [h]), State.cutBy_but (by simp [h]) _ _ _ _ e]; simp [h]
  · split
    · simp [h]
    · split
      · rfl
      · split
        · rfl
        · next e => rw [State.startSend_but (by simp [h]), State.cutBy_but (by simp [h]) _ _ _ _ e]; simp [h]

@[simp] theorem State.abortFrame_but {l : List Block} (h : .freeCount ∈ l ∧ .out ∈ l ∧ .adm ∈ l ∧ .obf ∈ l ∧ .egs ∈ l ∧ .rte ∈ l ∧ .lnk ∈ l ∧
    .trn ∈ l ∧ .ins ∈ l ∧ .msix ∈ l ∧ .flt ∈ l ∧ .ttc ∈ l) (s : State) (o : Nat) (b : BufPkt) : (s.abortFrame o b).but l = s.but l := by
  simp [State.abortFrame, h]

@[simp] theorem State.abortCut_but {l : List Block} (h : .freeCount ∈ l ∧ .out ∈ l ∧ .adm ∈ l ∧ .obf ∈ l ∧ .egs ∈ l ∧ .rte ∈ l ∧ .lnk ∈ l ∧
    .trn ∈ l ∧ .ins ∈ l ∧ .msix ∈ l ∧ .flt ∈ l ∧ .ttc ∈ l) (s : State) (o : Nat) : (s.abortCut o).but l = s.but l := by
  refine foldl_but (fun s x => ?_) _ _
  (repeat' split) <;> simp [h]

@[simp] theorem State.abortFrom_but {l : List Block} (h : .freeCount ∈ l ∧ .out ∈ l ∧ .adm ∈ l ∧ .obf ∈ l ∧ .egs ∈ l ∧ .rte ∈ l ∧ .lnk ∈ l ∧
    .trn ∈ l ∧ .ins ∈ l ∧ .msix ∈ l ∧ .flt ∈ l ∧ .ttc ∈ l) (s : State) (input : Nat) : (s.abortFrom input).but l = s.but l := by
  simp [State.abortFrom, h]

/-! ### Ports -/

@[simp] theorem State.upLane_but {l : List Block} (h : .prt ∈ l) (s : State) (ls : Nat) (f : Lane → Lane) : (s.upLane ls f).but l = s.but l := by
  simp [State.upLane, h]

@[simp] theorem State.enterOvercommit_but {l : List Block} (h : .out ∈ l ∧ .adm ∈ l ∧ .ins ∈ l ∧ .msix ∈ l ∧ .flt ∈ l ∧ .ttc ∈ l) (s : State) (p :
    Nat) : (s.enterOvercommit p).but l = s.but l := by
  simp [State.enterOvercommit, h]

@[simp] theorem State.leaveOvercommit_but {l : List Block} (h : .adm ∈ l ∧ .flt ∈ l) (s : State) (p : Nat) : (s.leaveOvercommit p).but l = s.but l :=
    by
  simp only [State.leaveOvercommit]
  split <;> simp [h]

@[simp] theorem State.settleTrained_but {l : List Block} (h : .out ∈ l ∧ .adm ∈ l ∧ .ins ∈ l ∧ .msix ∈ l ∧ .flt ∈ l ∧ .ttc ∈ l) (s : State)
    (p before : Nat) : (s.settleTrained p before).but l = s.but l := by
  simp [State.settleTrained, h]

@[simp] theorem State.settleReleased_but {l : List Block} (h : .adm ∈ l ∧ .flt ∈ l) (s : State) (p : Nat) : (s.settleReleased p).but l = s.but l := by
  simp [State.settleReleased, h]

@[simp] theorem State.sendLaneMsg_but {l : List Block} (h : .out ∈ l) (s : State) (p type lane rate width codeword : Nat) :
    (s.sendLaneMsg p type lane rate width codeword).but l = s.but l := by
  simp [State.sendLaneMsg, h]

@[simp] theorem State.sendSequences_but {l : List Block} (h : .out ∈ l) (s : State) (p : Nat) : (s.sendSequences p).but l = s.but l := by
  simp only [State.sendSequences]
  split <;> simp [h]

@[simp] theorem State.setTrain_but {l : List Block} (h : .out ∈ l ∧ .prt ∈ l) (s : State) (p : Nat) (t : TrainState) :
    (s.setTrain p t).but l = s.but l := by
  simp [State.setTrain, h]

@[simp] theorem State.startDetect_but {l : List Block} (h : .out ∈ l ∧ .egs ∈ l ∧ .prt ∈ l) (s : State) (p : Nat) :
    (s.startDetect p).but l = s.but l := by
  simp [State.startDetect, h]

@[simp] theorem State.startSync_but {l : List Block} (h : .out ∈ l ∧ .prt ∈ l) (s : State) (p : Nat) (quick : Bool) :
    (s.startSync p quick).but l = s.but l := by
  simp [State.startSync, h]

@[simp] theorem State.retrainPort_but {l : List Block} (h : .out ∈ l ∧ .lnk ∈ l ∧ .prt ∈ l ∧ .ttc ∈ l) (s : State) (p : Nat) :
    (s.retrainPort p).but l = s.but l := by
  simp [State.retrainPort, h]

@[simp] theorem State.enterBackoff_but {l : List Block} (h : .out ∈ l ∧ .prt ∈ l ∧ .ins ∈ l ∧ .msix ∈ l ∧ .flt ∈ l ∧ .ttc ∈ l) (s : State) (p :
    Nat) : (s.enterBackoff p).but l = s.but l := by
  simp [State.enterBackoff, h]

@[simp] theorem State.assignLanes_but {l : List Block} (h : .prt ∈ l) (s : State) (p : Nat) (spare : Option Nat) :
    (s.assignLanes p spare).but l = s.but l := by
  simp [State.assignLanes, h]

@[simp] theorem State.negotiate_but {l : List Block} (h : .out ∈ l ∧ .prt ∈ l ∧ .ins ∈ l ∧ .msix ∈ l ∧ .flt ∈ l ∧ .ttc ∈ l) (s : State) (p : Nat) :
    (s.negotiate p).but l = s.but l := by
  simp only [State.negotiate]
  (repeat' split) <;> simp [h]

@[simp] theorem State.checkChannel_but {l : List Block} (h : .prt ∈ l) (s : State) (p : Nat) : (s.checkChannel p).but l = s.but l := by
  simp [State.checkChannel, h]

@[simp] theorem State.laneToSpare_but {l : List Block} (h : .prt ∈ l) (s : State) (p k : Nat) (retired : Bool) :
    (s.laneToSpare p k retired).but l = s.but l := by
  simp [State.laneToSpare, h]

@[simp] theorem State.laneFromSpare_but {l : List Block} (h : .prt ∈ l) (s : State) (p k : Nat) : (s.laneFromSpare p k).but l = s.but l := by
  simp [State.laneFromSpare, h]

@[simp] theorem State.lanesFail_but {l : List Block} (h : .out ∈ l ∧ .prt ∈ l) (s : State) (p : Nat) (bad : List Nat) (next : TrainState) :
    (s.lanesFail p bad next).but l = s.but l := by
  simp only [State.lanesFail]
  split <;> simp [h]

@[simp] theorem State.portReady_but {l : List Block} (h : .freeCount ∈ l ∧ .out ∈ l ∧ .adm ∈ l ∧ .obf ∈ l ∧ .egs ∈ l ∧ .rte ∈ l ∧ .lnk ∈ l ∧
    .trn ∈ l ∧ .prt ∈ l ∧ .ins ∈ l ∧ .msix ∈ l ∧ .flt ∈ l ∧ .ttc ∈ l) (s : State) (p rate width skew : Nat) :
    (s.portReady p rate width skew).but l = s.but l := by
  simp [State.portReady, h]

@[simp] theorem State.stopSpareTest_but {l : List Block} (h : .prt ∈ l) (s : State) (p : Nat) : (s.stopSpareTest p).but l = s.but l := by
  simp [State.stopSpareTest, h]

@[simp] theorem State.askStep_but {l : List Block} (h : .out ∈ l ∧ .prt ∈ l) (s : State) (p rate width : Nat) :
    (s.askStep p rate width).but l = s.but l := by
  simp [State.askStep, h]

@[simp] theorem State.askSubst_but {l : List Block} (h : .out ∈ l ∧ .prt ∈ l) (s : State) (p lane : Nat) (isReturn : Bool) :
    (s.askSubst p lane isReturn).but l = s.but l := by
  simp [State.askSubst, h]

@[simp] theorem State.detector_but {l : List Block} (h : .out ∈ l ∧ .prt ∈ l ∧ .ins ∈ l ∧ .msix ∈ l ∧ .flt ∈ l ∧ .ttc ∈ l) (s : State) (ls : Nat) :
    (s.detector ls).but l = s.but l := by
  simp only [State.detector]
  (repeat' split) <;> simp [h]

@[simp] theorem State.substEnd_but {l : List Block} (h : .out ∈ l ∧ .prt ∈ l ∧ .ins ∈ l ∧ .msix ∈ l ∧ .flt ∈ l ∧ .ttc ∈ l) (s : State) (p : Nat) :
    (s.substEnd p).but l = s.but l := by
  simp only [State.substEnd]
  split <;> simp [h]

@[simp] theorem State.swapLane_but {l : List Block} (h : .prt ∈ l) (s : State) (p k : Nat) (isReturn : Bool) :
    (s.swapLane p k isReturn).but l = s.but l := by
  simp [State.swapLane, h]

@[simp] theorem State.stepPort_but {l : List Block} (h : .out ∈ l ∧ .lnk ∈ l ∧ .prt ∈ l ∧ .ttc ∈ l) (s : State) (p rate width : Nat) :
    (s.stepPort p rate width).but l = s.but l := by
  simp [State.stepPort, h]

/-! ### Ingress -/

@[simp] theorem State.noteOld_but {l : List Block} (h : .rte ∈ l) (s : State) (hd : Hdr) : (s.noteOld hd).but l = s.but l := by
  simp [State.noteOld, h]

@[simp] theorem State.routeArrived_but {l : List Block} (h : .freeCount ∈ l ∧ .out ∈ l ∧ .adm ∈ l ∧ .obf ∈ l ∧ .rte ∈ l ∧ .lnk ∈ l ∧ .trn ∈ l ∧
    .mec ∈ l ∧ .mtc ∈ l ∧ .ins ∈ l ∧ .msix ∈ l ∧ .flt ∈ l ∧ .ttc ∈ l) (s : State) (w : WaitPkt) (port : Nat) :
    (s.routeArrived w port).but l = s.but l := by
  rw [State.routeArrived]
  dsimp only
  split
  · simp [h]
  · split
    · simp [h]
    · split
      · simp [h]
      · split
        · next e => simp [but_snd e, h]
        · next e => simp [but_snd e, h]

@[simp] theorem State.arrive_but {l : List Block} (h : .freeCount ∈ l ∧ .out ∈ l ∧ .adm ∈ l ∧ .obf ∈ l ∧ .rte ∈ l ∧ .lnk ∈ l ∧ .trn ∈ l ∧ .mec ∈ l ∧
    .mtc ∈ l ∧ .ins ∈ l ∧ .msix ∈ l ∧ .flt ∈ l ∧ .ttc ∈ l) (s : State) (port : Nat) (pkt : Packet) (len rxVl flits : Nat) :
    (s.arrive port pkt len rxVl flits).but l = s.but l := by
  simp [State.arrive, h]

@[simp] theorem State.retryRoute_but {l : List Block} (h : .freeCount ∈ l ∧ .out ∈ l ∧ .adm ∈ l ∧ .obf ∈ l ∧ .rte ∈ l ∧ .lnk ∈ l ∧ .trn ∈ l ∧
    .mec ∈ l ∧ .mtc ∈ l ∧ .ins ∈ l ∧ .msix ∈ l ∧ .flt ∈ l ∧ .ttc ∈ l) (s : State) (pid : Nat) : (s.retryRoute pid).but l = s.but l := by
  rw [State.retryRoute]
  split
  · rfl
  · split
    · rfl
    · dsimp only
      split
      · simp [h]
      · split
        · rfl
        · next e => simp [but_snd e, h]

@[simp] theorem State.moveTurns_but {l : List Block} (h : .obf ∈ l) (s : State) (input o : Nat) (outs : List Nat) :
    (s.moveTurns input o outs).but l = s.but l := by
  simp [State.moveTurns, h]

@[simp] theorem State.admitOut_but {l : List Block} (h : .adm ∈ l ∧ .obf ∈ l ∧ .ttc ∈ l) (s : State) (w : WaitPkt) (o : Nat × Nat) :
    (s.admitOut w o).2.but l = s.but l := by
  rw [State.admitOut]
  split
  · simp [h]
  · next e =>
    dsimp only
    split
    · simp [h]
    · rw [State.moveTurns_but (by simp [h]), State.takeIn_but (by simp [h]) _ _ _ _ e]

@[simp] theorem State.offer_but {l : List Block} (h : .adm ∈ l ∧ .obf ∈ l ∧ .rte ∈ l ∧ .lnk ∈ l ∧ .ttc ∈ l) (s : State) (pid : Nat) :
    (s.offer pid).but l = s.but l := by
  rw [State.offer]
  split
  · rfl
  · next w _ =>
    split
    · rfl
    · dsimp only
      have tried : ∀ (xs : List (Nat × Nat)) (r : List (Nat × Nat) × State),
          (xs.foldl (fun (a : List (Nat × Nat) × State) o =>
            ((if (a.2.admitOut w o).1 then a.1 else a.1 ++ [o]), (a.2.admitOut w o).2)) r).2.but l = r.2.but l := by
        intro xs
        induction xs with
        | nil => exact fun r => rfl
        | cons o xs ih => exact fun r => (ih _).trans (State.admitOut_but (by simp [h]) _ _ _)
      simp [tried, h]

@[simp] theorem State.stageCell_but {l : List Block} (h : .csc ∈ l) (s : State) (pid : Nat) : (s.stageCell pid).but l = s.but l := by
  simp only [State.stageCell]
  split <;> simp [h]

@[simp] theorem State.stageCells_but {l : List Block} (h : .csc ∈ l) (s : State) (new : List Nat) : (s.stageCells new).but l = s.but l := by
  simp [State.stageCells, h]

@[simp] theorem State.moveCell_but {l : List Block} (h : .obf ∈ l ∧ .lnk ∈ l) (s : State) (pid output : Nat) :
    (s.moveCell pid output).but l = s.but l := by
  simp only [State.moveCell]
  split <;> simp [h]

@[simp] theorem State.crossPairs_but {l : List Block} (h : .obf ∈ l ∧ .lnk ∈ l) (s : State) (pairs : List Pair) :
    (s.crossPairs pairs).but l = s.but l := by
  refine foldl_but (fun s x => ?_) _ _
  (repeat' split) <;> simp [h]

/-! ### Modes -/

@[simp] theorem State.stepPorts_but {l : List Block} (h : .out ∈ l ∧ .lnk ∈ l ∧ .prt ∈ l ∧ .pwr ∈ l ∧ .ttc ∈ l) (s : State) (ps : List Nat) (target :
    Nat → Nat × Nat) : (s.stepPorts ps target).but l = s.but l := by
  simp [State.stepPorts, h]

@[simp] theorem State.modeReply_but {l : List Block} (h : .out ∈ l ∧ .hly ∈ l ∧ .obf ∈ l ∧ .trn ∈ l ∧ .ins ∈ l ∧ .msix ∈ l ∧ .pwr ∈ l) (s : State) :
    (s.modeReply).but l = s.but l := by
  simp [State.modeReply, h]

@[simp] theorem State.enterStorm_but {l : List Block} (h : .out ∈ l ∧ .masthead ∈ l ∧ .hly ∈ l ∧ .ftu ∈ l ∧ .obf ∈ l ∧ .trn ∈ l ∧ .ins ∈ l ∧
    .msix ∈ l ∧ .pwr ∈ l) (s : State) : (s.enterStorm).but l = s.but l := by
  rw [State.enterStorm, State.setMasthead_but (by simp [h])]
  simp [h]

@[simp] theorem State.modeDone_but {l : List Block} (h : .out ∈ l ∧ .masthead ∈ l ∧ .hly ∈ l ∧ .ftu ∈ l ∧ .obf ∈ l ∧ .trn ∈ l ∧ .ins ∈ l ∧
    .msix ∈ l ∧ .pwr ∈ l) (s : State) : (s.modeDone).but l = s.but l := by
  simp only [State.modeDone]
  (repeat' split) <;> simp [h]

@[simp] theorem State.hostLinksL1_but {l : List Block} (h : .prt ∈ l) (s : State) (on : Bool) : (s.hostLinksL1 on).but l = s.but l := by
  simp [State.hostLinksL1, h]

@[simp] theorem State.modeStepDone_but {l : List Block} (h : .out ∈ l ∧ .masthead ∈ l ∧ .hly ∈ l ∧ .ftu ∈ l ∧ .obf ∈ l ∧ .trn ∈ l ∧ .ins ∈ l ∧
    .msix ∈ l ∧ .pwr ∈ l) (s : State) (p : Nat) : (s.modeStepDone p).but l = s.but l := by
  simp only [State.modeStepDone]
  split <;> simp [h]

@[simp] theorem State.stormSteps_but {l : List Block} (h : .out ∈ l ∧ .masthead ∈ l ∧ .hly ∈ l ∧ .ftu ∈ l ∧ .obf ∈ l ∧ .lnk ∈ l ∧ .trn ∈ l ∧
    .prt ∈ l ∧ .ins ∈ l ∧ .msix ∈ l ∧ .pwr ∈ l ∧ .ttc ∈ l) (s : State) : (s.stormSteps).but l = s.but l := by
  simp [State.stormSteps, h]

@[simp] theorem State.stepBack_but {l : List Block} (h : .out ∈ l ∧ .lnk ∈ l ∧ .prt ∈ l ∧ .ttc ∈ l) (s : State) (p : Nat) :
    (s.stepBack p).but l = s.but l := by
  simp only [State.stepBack]
  split <;> simp [h]

@[simp] theorem State.wakePort_but {l : List Block} (h : .out ∈ l ∧ .lnk ∈ l ∧ .prt ∈ l ∧ .ttc ∈ l) (s : State) (p : Nat) :
    (s.wakePort p).but l = s.but l := by
  simp [State.wakePort, h]

@[simp] theorem State.wake_but {l : List Block} (h : .out ∈ l ∧ .masthead ∈ l ∧ .hly ∈ l ∧ .ftu ∈ l ∧ .adm ∈ l ∧ .obf ∈ l ∧ .lnk ∈ l ∧ .trn ∈ l ∧
    .prt ∈ l ∧ .ins ∈ l ∧ .msix ∈ l ∧ .pwr ∈ l ∧ .ttc ∈ l) (s : State) : (s.wake).but l = s.but l := by
  rw [State.wake]
  dsimp only
  split
  · simp [h]
  · split
    · rw [foldl_but (fun s p => by simp [h]), State.upAdm_but (by simp [h]), State.upFtu_but (by simp [h]), State.setMasthead_but (by simp [h])]
      simp [h]
    · rfl

/-! ### Directories -/

@[simp] theorem State.upExtent_but {l : List Block} (h : .pool ∈ l) (s : State) (hd : Nat) (f : Extent → Extent) :
    (s.upExtent hd f).but l = s.but l := by
  simp [State.upExtent, h]

@[simp] theorem State.writeExtent_but {l : List Block} (h : .pool ∈ l ∧ .flt ∈ l) (s : State) (hd o : Nat) (data : List Nat) :
    (s.writeExtent hd o data).but l = s.but l := by
  simp [State.writeExtent, h]

@[simp] theorem State.setEntry_but {l : List Block} (h : .dir ∈ l) (s : State) (hd line : Nat) (e : DirEntry) :
    (s.setEntry hd line e).but l = s.but l := by
  simp [State.setEntry, h]

@[simp] theorem State.touchEntry_but {l : List Block} (h : .dir ∈ l) (s : State) (hd line : Nat) : (s.touchEntry hd line).but l = s.but l := by
  simp [State.touchEntry, h]

@[simp] theorem State.upTracker_but {l : List Block} (h : .dir ∈ l) (s : State) (hd line : Nat) (f : Tracker → Tracker) :
    (s.upTracker hd line f).but l = s.but l := by
  simp [State.upTracker, h]

@[simp] theorem State.grantTo_but {l : List Block} (h : .out ∈ l ∧ .dir ∈ l) (s : State) (hd line : Nat) (r : CohReq) (poison : Bool) (data :
    List Nat) : (s.grantTo hd line r poison data).but l = s.but l := by
  simp only [State.grantTo]
  split <;> simp [h]

@[simp] theorem State.wbLost_but {l : List Block} (h : .out ∈ l ∧ .dir ∈ l ∧ .ins ∈ l ∧ .msix ∈ l ∧ .flt ∈ l ∧ .ttc ∈ l) (s : State) :
    (s.wbLost).but l = s.but l := by
  simp [State.wbLost, h]

@[simp] theorem State.wbUnexpected_but {l : List Block} (h : .out ∈ l ∧ .dir ∈ l ∧ .ins ∈ l ∧ .msix ∈ l ∧ .flt ∈ l ∧ .ttc ∈ l) (s : State) :
    (s.wbUnexpected).but l = s.but l := by
  simp [State.wbUnexpected, h]

@[simp] theorem State.trackStart_but {l : List Block} (h : .out ∈ l ∧ .dir ∈ l ∧ .ins ∈ l ∧ .msix ∈ l ∧ .flt ∈ l ∧ .ttc ∈ l) (s : State) (t :
    Tracker) : (s.trackStart t).but l = s.but l := by
  simp only [State.trackStart]
  (repeat' split) <;> simp [h]

@[simp] theorem State.trackAct_but {l : List Block} (h : .out ∈ l ∧ .pool ∈ l ∧ .dir ∈ l ∧ .ins ∈ l ∧ .msix ∈ l ∧ .flt ∈ l ∧ .ttc ∈ l) (s : State)
    (t : Tracker) : (s.trackAct t).2.but l = s.but l := by
  simp only [State.trackAct]
  (repeat' split) <;> simp [h]

@[simp] theorem State.placeRecall_but {l : List Block} (h : .dir ∈ l) (s : State) (id : Nat) : (s.placeRecall id).but l = s.but l := by
  simp only [State.placeRecall]
  (repeat' split) <;> simp [h]

@[simp] theorem State.trackRun_but {l : List Block} (h : .out ∈ l ∧ .pool ∈ l ∧ .dir ∈ l ∧ .ins ∈ l ∧ .msix ∈ l ∧ .flt ∈ l ∧ .ttc ∈ l) (s : State)
    (hd line fuel : Nat) : (s.trackRun hd line fuel).but l = s.but l := by
  induction fuel generalizing s with
  | zero => rfl
  | succ fuel ih =>
    rw [State.trackRun]
    split
    · rfl
    · split
      · simp [ih, h]
      · split
        · rfl
        · split
          · next e => simp [but_snd e, h]
          · next e => split <;> simp [ih, but_snd e, h]

@[simp] theorem State.runLine_but {l : List Block} (h : .out ∈ l ∧ .pool ∈ l ∧ .dir ∈ l ∧ .ins ∈ l ∧ .msix ∈ l ∧ .flt ∈ l ∧ .ttc ∈ l) (s : State)
    (hd line : Nat) : (s.runLine hd line).but l = s.but l := by
  simp [State.runLine, h]

@[simp] theorem State.trackDone_but {l : List Block} (h : .out ∈ l ∧ .pool ∈ l ∧ .dir ∈ l ∧ .ins ∈ l ∧ .msix ∈ l ∧ .flt ∈ l ∧ .ttc ∈ l) (s : State)
    (hd line : Nat) (poison : Bool) : (s.trackDone hd line poison).but l = s.but l := by
  simp only [State.trackDone]
  (repeat' split) <;> simp [h]

@[simp] theorem State.settleAcks_but {l : List Block} (h : .out ∈ l ∧ .dir ∈ l) (s : State) : (s.settleAcks).but l = s.but l := by
  simp [State.settleAcks, h]

@[simp] theorem State.snoopFinal_but {l : List Block} (h : .out ∈ l ∧ .pool ∈ l ∧ .dir ∈ l ∧ .ins ∈ l ∧ .msix ∈ l ∧ .flt ∈ l ∧ .ttc ∈ l) (s : State)
    (hd line a : Nat) : (s.snoopFinal hd line a).but l = s.but l := by
  simp [State.snoopFinal, h]

@[simp] theorem State.upSnoop_but {l : List Block} (h : .dir ∈ l) (s : State) (hd line a : Nat) (f : Snoop → Snoop) :
    (s.upSnoop hd line a f).but l = s.but l := by
  simp [State.upSnoop, h]

@[simp] theorem State.writeBack_but {l : List Block} (h : .out ∈ l ∧ .pool ∈ l ∧ .dir ∈ l ∧ .flt ∈ l) (s : State) (hd line a : Nat) (data :
    List Nat) (forwarded : Bool) : (s.writeBack hd line a data forwarded).but l = s.but l := by
  simp [State.writeBack, h]

@[simp] theorem State.startRecall_but {l : List Block} (h : .out ∈ l ∧ .pool ∈ l ∧ .dir ∈ l ∧ .ins ∈ l ∧ .msix ∈ l ∧ .flt ∈ l ∧ .ttc ∈ l) (s :
    State) (handles agents : List Nat) (poison : Bool) : (s.startRecall handles agents poison).2.but l = s.but l := by
  simp [State.startRecall, h]

/-! ### The pool -/

@[simp] theorem State.upHostLink_but {l : List Block} (h : .pool ∈ l) (s : State) (ls : Nat) (f : HostLink → HostLink) :
    (s.upHostLink ls f).but l = s.but l := by
  simp [State.upHostLink, h]

@[simp] theorem State.upDown_but {l : List Block} (h : .pool ∈ l) (s : State) (p : Nat) (f : Downstream → Downstream) :
    (s.upDown p f).but l = s.but l := by
  simp [State.upDown, h]

@[simp] theorem State.upVslot_but {l : List Block} (h : .pool ∈ l) (s : State) (link vslot : Nat) (f : VSlot → VSlot) :
    (s.upVslot link vslot f).but l = s.but l := by
  simp [State.upVslot, h]

@[simp] theorem State.refuseAccess_but {l : List Block} (h : .out ∈ l ∧ .pool ∈ l) (s : State) (i result : Nat) :
    (s.refuseAccess i result).but l = s.but l := by
  simp [State.refuseAccess, h]

@[simp] theorem State.announce_but {l : List Block} (h : .out ∈ l ∧ .mec ∈ l ∧ .ins ∈ l ∧ .msix ∈ l) (s : State) (hd : Nat) (at_ : Nat × Nat) :
    (s.announce hd at_).but l = s.but l := by
  simp only [State.announce]
  split <;> simp [h]

@[simp] theorem State.bindOne_but {l : List Block} (h : .pool ∈ l) (s : State) (hd : Nat) : (s.bindOne hd).but l = s.but l := by
  simp only [State.bindOne]
  split <;> simp [h]

@[simp] theorem State.commitBind_but {l : List Block} (h : .out ∈ l ∧ .pool ∈ l ∧ .mec ∈ l ∧ .ins ∈ l ∧ .msix ∈ l) (s : State) (handles : List Nat) :
    (s.commitBind handles).but l = s.but l := by
  rw [State.commitBind, foldl_but (fun s x => foldl_but (fun s y => by simp [h]) _ _), foldl_but (fun s x => by simp [h])]

@[simp] theorem State.settleBind_but {l : List Block} (h : .out ∈ l ∧ .hly ∈ l ∧ .obf ∈ l ∧ .trn ∈ l ∧ .pool ∈ l ∧ .dir ∈ l ∧ .mec ∈ l ∧ .ins ∈ l ∧
    .msix ∈ l) (s : State) (hd : Nat) : (s.settleBind hd).but l = s.but l := by
  simp only [State.settleBind]
  split <;> simp [h]

@[simp] theorem State.fenceExtent_but {l : List Block} (h : .pool ∈ l) (s : State) (hd : Nat) : (s.fenceExtent hd).but l = s.but l := by
  simp [State.fenceExtent, h]

@[simp] theorem State.settleUnbind_but {l : List Block} (h : .out ∈ l ∧ .hly ∈ l ∧ .obf ∈ l ∧ .trn ∈ l ∧ .pool ∈ l ∧ .ins ∈ l ∧ .msix ∈ l) (s :
    State) (hd : Nat) : (s.settleUnbind hd).but l = s.but l := by
  simp only [State.settleUnbind]
  split <;> simp [h]

@[simp] theorem State.unbindEnds_but {l : List Block} (h : .out ∈ l ∧ .hly ∈ l ∧ .obf ∈ l ∧ .trn ∈ l ∧ .pool ∈ l ∧ .dir ∈ l ∧ .ins ∈ l ∧ .msix ∈ l)
    (s : State) (hd : Nat) (clean : Bool) : (s.unbindEnds hd clean).but l = s.but l := by
  simp [State.unbindEnds, h]

@[simp] theorem State.unbindZero_but {l : List Block} (h : .out ∈ l ∧ .hly ∈ l ∧ .obf ∈ l ∧ .trn ∈ l ∧ .pool ∈ l ∧ .dir ∈ l ∧ .ins ∈ l ∧ .msix ∈ l)
    (s : State) (hd : Nat) : (s.unbindZero hd).but l = s.but l := by
  simp [State.unbindZero, h]

@[simp] theorem State.unbindDrained_but {l : List Block} (h : .out ∈ l ∧ .hly ∈ l ∧ .obf ∈ l ∧ .trn ∈ l ∧ .pool ∈ l ∧ .dir ∈ l ∧ .ins ∈ l ∧
    .msix ∈ l ∧ .flt ∈ l ∧ .ttc ∈ l) (s : State) (hd : Nat) : (s.unbindDrained hd).but l = s.but l := by
  simp only [State.unbindDrained]
  (repeat' split) <;> simp [h]

@[simp] theorem State.functionGone_but {l : List Block} (h : .out ∈ l ∧ .hly ∈ l ∧ .obf ∈ l ∧ .trn ∈ l ∧ .pool ∈ l ∧ .ins ∈ l ∧ .msix ∈ l) (s :
    State) (f : BoundFn) (status : Nat) (surprise : Bool) : (s.functionGone f status surprise).but l = s.but l := by
  simp [State.functionGone, h]

@[simp] theorem State.poisonExtent_but {l : List Block} (h : .out ∈ l ∧ .hly ∈ l ∧ .obf ∈ l ∧ .trn ∈ l ∧ .pool ∈ l ∧ .dir ∈ l ∧ .mec ∈ l ∧ .ins ∈ l ∧
    .msix ∈ l ∧ .flt ∈ l ∧ .ttc ∈ l) (s : State) (hd : Nat) : (s.poisonExtent hd).but l = s.but l := by
  rw [State.poisonExtent]
  dsimp only
  rw [foldl_but (fun s i => by simp [h]), foldl_but (fun s g => by (repeat' split) <;> simp [h])]
  simp only [State.but_ite, State.settleBind_but (l := l) (by simp [h]), ite_self]
  (repeat' split) <;> simp [h]

@[simp] theorem State.surpriseRemoval_but {l : List Block} (h : .out ∈ l ∧ .hly ∈ l ∧ .obf ∈ l ∧ .trn ∈ l ∧ .pool ∈ l ∧ .dir ∈ l ∧ .mec ∈ l ∧
    .ins ∈ l ∧ .msix ∈ l ∧ .flt ∈ l ∧ .ttc ∈ l) (s : State) (p : Nat) : (s.surpriseRemoval p).but l = s.but l := by
  rw [State.surpriseRemoval]
  dsimp only
  rw [State.raise_but (by simp [h]), State.emit_but (by simp [h]), State.upDown_but (by simp [h]), foldl_but]
  · simp [h]
  · intro s f
    split <;> simp [h]

/-! ### Power channels -/

@[simp] theorem State.upChan_but {l : List Block} (h : .pwr ∈ l) (s : State) (c : Nat) (f : Chan → Chan) : (s.upChan c f).but l = s.but l := by
  simp [State.upChan, h]

@[simp] theorem State.powerFlags_but {l : List Block} (h : .pwr ∈ l) (s : State) (code : Nat) : (s.powerFlags code).but l = s.but l := by
  simp only [State.powerFlags]
  (repeat' split) <;> simp [h]

@[simp] theorem State.presenceFlag_but {l : List Block} (h : .icu ∈ l ∧ .pwr ∈ l) (s : State) (slot : Nat) : (s.presenceFlag slot).but l = s.but l :=
    by
  simp [State.presenceFlag, h]

@[simp] theorem State.powerEvent_but {l : List Block} (h : .out ∈ l ∧ .ins ∈ l ∧ .msix ∈ l ∧ .pwr ∈ l ∧ .flt ∈ l ∧ .ttc ∈ l) (s : State) (code :
    Nat) : (s.powerEvent code).but l = s.but l := by
  simp [State.powerEvent, h]

@[simp] theorem State.powerLevel_but {l : List Block} (h : .out ∈ l ∧ .ins ∈ l ∧ .msix ∈ l ∧ .pwr ∈ l ∧ .flt ∈ l ∧ .ttc ∈ l) (s : State) (code :
    Nat) (holds : Bool) : (s.powerLevel code holds).but l = s.but l := by
  simp [State.powerLevel, h]

@[simp] theorem State.settlePower_but {l : List Block} (h : .out ∈ l ∧ .ins ∈ l ∧ .msix ∈ l ∧ .pwr ∈ l ∧ .flt ∈ l ∧ .ttc ∈ l) (s : State) (had :
    Nat) : (s.settlePower had).but l = s.but l := by
  simp [State.settlePower, h]

@[simp] theorem State.startRamp_but {l : List Block} (h : .pwr ∈ l) (s : State) (c : Nat) : (s.startRamp c).but l = s.but l := by
  simp [State.startRamp, h]

@[simp] theorem State.chanOff_but {l : List Block} (h : .pwr ∈ l) (s : State) (c : Nat) (clear : Bool) : (s.chanOff c clear).but l = s.but l := by
  simp [State.chanOff, h]

@[simp] theorem State.slotSurprise_but {l : List Block} (h : .out ∈ l ∧ .hly ∈ l ∧ .obf ∈ l ∧ .trn ∈ l ∧ .pool ∈ l ∧ .dir ∈ l ∧ .mec ∈ l ∧ .ins ∈ l ∧
    .msix ∈ l ∧ .flt ∈ l ∧ .ttc ∈ l) (s : State) (c : Nat) : (s.slotSurprise c).but l = s.but l := by
  simp [State.slotSurprise, h]

/-- A waking event changes no part outside `l`: the device is awake, or the parts that waking changes (R511) are all in `l`. -/
def State.mayWake (s : State) (l : List Block) : Prop :=
  s.awake = true ∨ (.out ∈ l ∧ .masthead ∈ l ∧ .hly ∈ l ∧ .ftu ∈ l ∧ .adm ∈ l ∧ .obf ∈ l ∧ .lnk ∈ l ∧ .trn ∈ l ∧ .prt ∈ l ∧ .ins ∈ l ∧ .msix ∈ l ∧
      .pwr ∈ l ∧ .ttc ∈ l)

@[simp] theorem State.wake_but_mayWake {l : List Block} {s : State} (hw : s.mayWake l) : s.wake.but l = s.but l :=
  hw.elim (fun ha => by rw [wake_awake s ha]) fun h => s.wake_but h

@[simp] theorem State.trip_but {l : List Block} (h : .out ∈ l ∧ .hly ∈ l ∧ .obf ∈ l ∧ .trn ∈ l ∧ .pool ∈ l ∧ .dir ∈ l ∧ .mec ∈ l ∧ .ins ∈ l ∧
    .msix ∈ l ∧ .pwr ∈ l ∧ .flt ∈ l ∧ .ttc ∈ l) {s : State} (hw : s.mayWake l) (c cause : Nat) : (s.trip c cause).but l = s.but l := by
  simp [State.trip, h, hw]

@[simp] theorem State.windowTrip_but {l : List Block} (h : .out ∈ l ∧ .ins ∈ l ∧ .msix ∈ l ∧ .pwr ∈ l ∧ .flt ∈ l ∧ .ttc ∈ l) {s : State} (hw :
    s.mayWake l) (feed cause : Nat) : (s.windowTrip feed cause).but l = s.but l := by
  simp [State.windowTrip, h, hw]

@[simp] theorem State.switchOff_but {l : List Block} (h : .out ∈ l ∧ .ins ∈ l ∧ .msix ∈ l ∧ .pwr ∈ l ∧ .flt ∈ l ∧ .ttc ∈ l) (s : State) (c : Nat)
    (clear : Bool) : (s.switchOff c clear).but l = s.but l := by
  simp [State.switchOff, h]

@[simp] theorem State.presencePower_but {l : List Block} (h : .pool ∈ l ∧ .pwr ∈ l) (s : State) (slot : Nat) :
    (s.presencePower slot).but l = s.but l := by
  simp [State.presencePower, h]

@[simp] theorem State.settleHeld_but {l : List Block} (h : .pool ∈ l ∧ .pwr ∈ l) (s : State) : (s.settleHeld).but l = s.but l := by
  simp [State.settleHeld, h]

@[simp] theorem State.presenceSeen_but {l : List Block} (h : .pool ∈ l ∧ .icu ∈ l ∧ .pwr ∈ l) (s : State) (slot : Nat) :
    (s.presenceSeen slot).but l = s.but l := by
  simp [State.presenceSeen, h]

@[simp] theorem State.presenceGone_but {l : List Block} (h : .out ∈ l ∧ .hly ∈ l ∧ .obf ∈ l ∧ .trn ∈ l ∧ .pool ∈ l ∧ .dir ∈ l ∧ .mec ∈ l ∧ .ins ∈ l ∧
    .icu ∈ l ∧ .msix ∈ l ∧ .pwr ∈ l ∧ .flt ∈ l ∧ .ttc ∈ l) (s : State) (slot port : Nat) : (s.presenceGone slot port).but l = s.but l := by
  simp [State.presenceGone, h]

@[simp] theorem State.actRecorded_but {l : List Block} (h : .out ∈ l ∧ .pool ∈ l ∧ .ins ∈ l ∧ .icu ∈ l ∧ .msix ∈ l ∧ .pwr ∈ l ∧ .flt ∈ l ∧ .ttc ∈ l)
    (s : State) : (s.actRecorded).but l = s.but l := by
  simp [State.actRecorded, h]

/-! ### Register accesses -/

@[simp] theorem State.protect_but {l : List Block} (h : .out ∈ l ∧ .ins ∈ l ∧ .mpu ∈ l ∧ .msix ∈ l ∧ .flt ∈ l ∧ .ttc ∈ l) (s : State) (a :
    MpuAccess) : (s.protect a).2.but l = s.but l := by
  simp only [State.protect]
  split <;> simp [h]

@[simp] theorem State.guard_but {l : List Block} (h : .out ∈ l ∧ .ins ∈ l ∧ .mpu ∈ l ∧ .msix ∈ l ∧ .flt ∈ l ∧ .ttc ∈ l) (s : State) (r : Req) (a :
    Access) (right kind : Nat) : (s.guard r a right kind).2.but l = s.but l := by
  rw [State.guard]
  (repeat' split) <;> try rfl
  all_goals next e => simp [but_snd e, h]

@[simp] theorem State.writeRegion_but {l : List Block} (h : .out ∈ l ∧ .pool ∈ l ∧ .ins ∈ l) (s : State) (g : RegionP) (offset : Nat) (data :
    List Nat) : (s.writeRegion g offset data).but l = s.but l := by
  simp [State.writeRegion, h]

@[simp] theorem State.landed_but {l : List Block} (h : .mec ∈ l) (s : State) (g : RegionP) : (s.landed g).but l = s.but l := by
  simp [State.landed, h]

@[simp] theorem State.engError_but {l : List Block} (h : .freeCount ∈ l ∧ .out ∈ l ∧ .adm ∈ l ∧ .obf ∈ l ∧ .rte ∈ l ∧ .trn ∈ l ∧ .mec ∈ l ∧
    .mtc ∈ l ∧ .ins ∈ l ∧ .msix ∈ l ∧ .flt ∈ l ∧ .ttc ∈ l) (s : State) (r : Req) (cluster status : Nat) :
    (s.engError r cluster status).but l = s.but l := by
  simp [State.engError, h]

@[simp] theorem State.checked_but {l : List Block} (h : .freeCount ∈ l ∧ .out ∈ l ∧ .adm ∈ l ∧ .obf ∈ l ∧ .rte ∈ l ∧ .trn ∈ l ∧ .mec ∈ l ∧ .mtc ∈ l ∧
    .ins ∈ l ∧ .mpu ∈ l ∧ .msix ∈ l ∧ .flt ∈ l ∧ .ttc ∈ l) (s : State) (r : Req) (a : Access) (right kind : Nat) (serve : RegionP → State → State)
    (hs : ∀ (g : RegionP) (s : State), (serve g s).but l = s.but l) : (s.checked r a right kind serve).but l = s.but l := by
  rw [State.checked]
  split
  · next e => simp [but_snd e, h]
  · next e => simp [hs, but_snd e, h]

@[simp] theorem State.servePut_but {l : List Block} (h : .freeCount ∈ l ∧ .out ∈ l ∧ .adm ∈ l ∧ .obf ∈ l ∧ .rte ∈ l ∧ .trn ∈ l ∧ .pool ∈ l ∧
    .mec ∈ l ∧ .mtc ∈ l ∧ .ins ∈ l ∧ .msix ∈ l ∧ .flt ∈ l ∧ .ttc ∈ l) (s : State) (g : RegionP) (r : Req) (a : Access) (data : List Nat) (last :
    Bool) : (s.servePut g r a data last).but l = s.but l := by
  simp [State.servePut, h]

@[simp] theorem State.sendData_but {l : List Block} (h : .freeCount ∈ l ∧ .out ∈ l ∧ .adm ∈ l ∧ .obf ∈ l ∧ .rte ∈ l ∧ .trn ∈ l ∧ .mec ∈ l ∧
    .mtc ∈ l ∧ .ins ∈ l ∧ .msix ∈ l ∧ .flt ∈ l ∧ .ttc ∈ l) (s : State) (r : Req) (opcode own cluster offset : Nat) (src : Source) (data : List Nat) :
    (s.sendData r opcode own cluster offset src data).but l = s.but l := by
  simp [State.sendData, h]

@[simp] theorem State.sendHeapData_but {l : List Block} (h : .freeCount ∈ l ∧ .out ∈ l ∧ .adm ∈ l ∧ .obf ∈ l ∧ .rte ∈ l ∧ .trn ∈ l ∧ .mec ∈ l ∧
    .mtc ∈ l ∧ .ins ∈ l ∧ .msix ∈ l ∧ .flt ∈ l ∧ .ttc ∈ l) (s : State) (r : Req) (opcode own cluster address offset length fuel : Nat) :
    (s.sendHeapData r opcode own cluster address offset length fuel).but l = s.but l := by
  induction fuel generalizing s offset with
  | zero => rfl
  | succ fuel ih =>
    rw [State.sendHeapData]
    split <;> simp [ih, h]

@[simp] theorem State.serveGet_but {l : List Block} (h : .freeCount ∈ l ∧ .out ∈ l ∧ .adm ∈ l ∧ .obf ∈ l ∧ .rte ∈ l ∧ .trn ∈ l ∧ .mec ∈ l ∧
    .mtc ∈ l ∧ .ins ∈ l ∧ .msix ∈ l ∧ .flt ∈ l ∧ .ttc ∈ l) (s : State) (g : RegionP) (r : Req) (a : Access) (poison : Bool) :
    (s.serveGet g r a poison).but l = s.but l := by
  simp [State.serveGet, h]

@[simp] theorem State.serveAtomic_but {l : List Block} (h : .freeCount ∈ l ∧ .out ∈ l ∧ .adm ∈ l ∧ .obf ∈ l ∧ .rte ∈ l ∧ .trn ∈ l ∧ .pool ∈ l ∧
    .mec ∈ l ∧ .mtc ∈ l ∧ .ins ∈ l ∧ .msix ∈ l ∧ .flt ∈ l ∧ .ttc ∈ l) (s : State) (g : RegionP) (r : Req) (a : Access) (aop : Nat) (size16 : Bool)
    (opA opB old : Nat) : (s.serveAtomic g r a aop size16 opA opB old).but l = s.but l := by
  simp [State.serveAtomic, h]

@[simp] theorem State.lockResult_but {l : List Block} (h : .freeCount ∈ l ∧ .out ∈ l ∧ .adm ∈ l ∧ .obf ∈ l ∧ .rte ∈ l ∧ .trn ∈ l ∧ .mec ∈ l ∧
    .mtc ∈ l ∧ .ins ∈ l ∧ .msix ∈ l ∧ .flt ∈ l ∧ .ttc ∈ l) (s : State) (r : Req) (a : Access) (status index : Nat) :
    (s.lockResult r a status index).but l = s.but l := by
  simp [State.lockResult, h]

@[simp] theorem State.grantLock_but {l : List Block} (h : .freeCount ∈ l ∧ .out ∈ l ∧ .adm ∈ l ∧ .obf ∈ l ∧ .rte ∈ l ∧ .trn ∈ l ∧ .mec ∈ l ∧
    .locks ∈ l ∧ .mtc ∈ l ∧ .ins ∈ l ∧ .msix ∈ l ∧ .flt ∈ l ∧ .ttc ∈ l) (s : State) (r : Req) (a : Access) : (s.grantLock r a).but l = s.but l := by
  unfold State.grantLock
  generalize List.range 4096 = slots
  dsimp only
  split <;> simp [h]

@[simp] theorem State.waitLock_but {l : List Block} (h : .locks ∈ l) (s : State) (g : RegionP) (r : Req) (a : Access) (isLock : Bool) (what :
    Instr) : (s.waitLock g r a isLock what).but l = s.but l := by
  simp [State.waitLock, h]

@[simp] theorem State.serveLock_but {l : List Block} (h : .freeCount ∈ l ∧ .out ∈ l ∧ .adm ∈ l ∧ .obf ∈ l ∧ .rte ∈ l ∧ .trn ∈ l ∧ .mec ∈ l ∧
    .locks ∈ l ∧ .mtc ∈ l ∧ .ins ∈ l ∧ .msix ∈ l ∧ .flt ∈ l ∧ .ttc ∈ l) (s : State) (g : RegionP) (r : Req) (a : Access) (wait : Bool) (what :
    Instr) : (s.serveLock g r a wait what).but l = s.but l := by
  simp [State.serveLock, h]

@[simp] theorem State.checkedLock_but {l : List Block} (h : .freeCount ∈ l ∧ .out ∈ l ∧ .adm ∈ l ∧ .obf ∈ l ∧ .rte ∈ l ∧ .trn ∈ l ∧ .mec ∈ l ∧
    .mtc ∈ l ∧ .ins ∈ l ∧ .msix ∈ l ∧ .flt ∈ l ∧ .ttc ∈ l) (s : State) (r : Req) (a : Access) (serve : RegionP → State → State)
    (hs : ∀ (g : RegionP) (s : State), (serve g s).but l = s.but l) : (s.checkedLock r a serve).but l = s.but l := by
  rw [State.checkedLock]
  split <;> simp [hs, h]

@[simp] theorem State.behindLock_but {l : List Block} (h : .freeCount ∈ l ∧ .out ∈ l ∧ .adm ∈ l ∧ .obf ∈ l ∧ .rte ∈ l ∧ .trn ∈ l ∧ .mec ∈ l ∧
    .locks ∈ l ∧ .mtc ∈ l ∧ .ins ∈ l ∧ .msix ∈ l ∧ .flt ∈ l ∧ .ttc ∈ l) (s : State) (g : RegionP) (r : Req) (a : Access) (what : Instr) (serve :
    State → State)
    (hs : ∀ s : State, (serve s).but l = s.but l) : (s.behindLock g r a what serve).but l = s.but l := by
  rw [State.behindLock]
  (repeat' split) <;> simp [hs, h]

@[simp] theorem State.serveWaiter_but {l : List Block} (h : .freeCount ∈ l ∧ .out ∈ l ∧ .adm ∈ l ∧ .obf ∈ l ∧ .rte ∈ l ∧ .trn ∈ l ∧ .pool ∈ l ∧
    .mec ∈ l ∧ .locks ∈ l ∧ .mtc ∈ l ∧ .ins ∈ l ∧ .msix ∈ l ∧ .flt ∈ l ∧ .ttc ∈ l) (s : State) (w : LockWait) : (s.serveWaiter w).but l = s.but l :=
    by
  simp only [State.serveWaiter]
  split <;> simp [h]

@[simp] theorem State.runWaits_but {l : List Block} (h : .freeCount ∈ l ∧ .out ∈ l ∧ .adm ∈ l ∧ .obf ∈ l ∧ .rte ∈ l ∧ .trn ∈ l ∧ .pool ∈ l ∧
    .mec ∈ l ∧ .locks ∈ l ∧ .mtc ∈ l ∧ .ins ∈ l ∧ .msix ∈ l ∧ .flt ∈ l ∧ .ttc ∈ l) (s : State) : (s.runWaits).but l = s.but l := by
  simp [State.runWaits, h]

@[simp] theorem State.abandonLock_but {l : List Block} (h : .freeCount ∈ l ∧ .out ∈ l ∧ .adm ∈ l ∧ .obf ∈ l ∧ .rte ∈ l ∧ .trn ∈ l ∧ .pool ∈ l ∧
    .mec ∈ l ∧ .locks ∈ l ∧ .mtc ∈ l ∧ .ins ∈ l ∧ .msix ∈ l ∧ .flt ∈ l ∧ .ttc ∈ l) (s : State) (i : Nat) : (s.abandonLock i).but l = s.but l := by
  simp only [State.abandonLock]
  split <;> simp [h]

@[simp] theorem State.serveUnlock_but {l : List Block} (h : .freeCount ∈ l ∧ .out ∈ l ∧ .adm ∈ l ∧ .obf ∈ l ∧ .rte ∈ l ∧ .trn ∈ l ∧ .pool ∈ l ∧
    .mec ∈ l ∧ .locks ∈ l ∧ .mtc ∈ l ∧ .ins ∈ l ∧ .msix ∈ l ∧ .flt ∈ l ∧ .ttc ∈ l) (s : State) (r : Req) (a : Access) :
    (s.serveUnlock r a).but l = s.but l := by
  simp only [State.serveUnlock]
  split <;> simp [h]

@[simp] theorem State.abandonOwner_but {l : List Block} (h : .freeCount ∈ l ∧ .out ∈ l ∧ .adm ∈ l ∧ .obf ∈ l ∧ .rte ∈ l ∧ .trn ∈ l ∧ .pool ∈ l ∧
    .mec ∈ l ∧ .locks ∈ l ∧ .mtc ∈ l ∧ .ins ∈ l ∧ .msix ∈ l ∧ .flt ∈ l ∧ .ttc ∈ l) (s : State) (o : LockOwner) :
    (s.abandonOwner o).but l = s.but l := by
  simp [State.abandonOwner, h]

/-! ### Rounds of collectives -/

@[simp] theorem State.upGroup_but {l : List Block} (h : .rdx ∈ l) (s : State) (g : Nat) (f : Group → Group) : (s.upGroup g f).but l = s.but l := by
  simp [State.upGroup, h]

@[simp] theorem State.sendRdx_but {l : List Block} (h : .freeCount ∈ l ∧ .out ∈ l ∧ .adm ∈ l ∧ .obf ∈ l ∧ .rte ∈ l ∧ .trn ∈ l ∧ .mec ∈ l ∧ .mtc ∈ l ∧
    .ins ∈ l ∧ .msix ∈ l ∧ .flt ∈ l ∧ .ttc ∈ l) (s : State) (up : Bool) (gid : Nat) (g : Group) (device inst members : Nat) (fenced : Bool)
    (offset status : Nat) (elems : List Elem) : (s.sendRdx up gid g device inst members fenced offset status elems).but l = s.but l := by
  simp [State.sendRdx, h]

@[simp] theorem State.sendUp_but {l : List Block} (h : .freeCount ∈ l ∧ .out ∈ l ∧ .adm ∈ l ∧ .obf ∈ l ∧ .rte ∈ l ∧ .trn ∈ l ∧ .mec ∈ l ∧ .mtc ∈ l ∧
    .ins ∈ l ∧ .msix ∈ l ∧ .flt ∈ l ∧ .ttc ∈ l) (s : State) (gid : Nat) (g : Group) (fenced : Bool) (offset : Nat) (elems : List Elem) :
    (s.sendUp gid g fenced offset elems).but l = s.but l := by
  simp [State.sendUp, h]

@[simp] theorem State.sendDown_but {l : List Block} (h : .freeCount ∈ l ∧ .out ∈ l ∧ .adm ∈ l ∧ .obf ∈ l ∧ .rte ∈ l ∧ .trn ∈ l ∧ .mec ∈ l ∧
    .mtc ∈ l ∧ .ins ∈ l ∧ .msix ∈ l ∧ .flt ∈ l ∧ .ttc ∈ l) (s : State) (gid : Nat) (g : Group) (c : ChildSlot) (combined : Nat) (fenced : Bool)
    (status : Nat) (values : List Nat) : (s.sendDown gid g c combined fenced status values).but l = s.but l := by
  simp [State.sendDown, h]

@[simp] theorem State.memberGuard_but {l : List Block} (h : .out ∈ l ∧ .ins ∈ l ∧ .mpu ∈ l ∧ .msix ∈ l ∧ .flt ∈ l ∧ .ttc ∈ l) (s : State)
    (inst region offset length right kind : Nat) : (s.memberGuard inst region offset length right kind).2.but l = s.but l := by
  rw [State.memberGuard]
  (repeat' split) <;> try rfl
  all_goals next e => simp [but_snd e, h]

@[simp] theorem State.writeResult_but {l : List Block} (h : .out ∈ l ∧ .pool ∈ l ∧ .mec ∈ l ∧ .rdx ∈ l ∧ .ins ∈ l ∧ .mpu ∈ l ∧ .msix ∈ l ∧ .flt ∈ l ∧
    .ttc ∈ l) (s : State) (gid m round status combined : Nat) (data : List Nat) : (s.writeResult gid m round status combined data).but l = s.but l :=
    by
  rw [State.writeResult]
  split
  · rfl
  · split
    · rfl
    · dsimp only
      split
      · next e => simp [but_snd e, h]
      · next e => simp [but_snd e, h]

@[simp] theorem State.writeMembers_but {l : List Block} (h : .out ∈ l ∧ .pool ∈ l ∧ .mec ∈ l ∧ .rdx ∈ l ∧ .ins ∈ l ∧ .mpu ∈ l ∧ .msix ∈ l ∧
    .flt ∈ l ∧ .ttc ∈ l) (s : State) (gid : Nat) (g : Group) (status combined : Nat) (values : List Nat) :
    (s.writeMembers gid g status combined values).but l = s.but l := by
  simp [State.writeMembers, h]

@[simp] theorem State.enterFenced_but {l : List Block} (h : .rdx ∈ l) (s : State) (gid : Nat) : (s.enterFenced gid).but l = s.but l := by
  simp [State.enterFenced, h]

@[simp] theorem State.endFenced_but {l : List Block} (h : .freeCount ∈ l ∧ .out ∈ l ∧ .adm ∈ l ∧ .obf ∈ l ∧ .rte ∈ l ∧ .trn ∈ l ∧ .pool ∈ l ∧
    .mec ∈ l ∧ .mtc ∈ l ∧ .rdx ∈ l ∧ .ins ∈ l ∧ .mpu ∈ l ∧ .msix ∈ l ∧ .flt ∈ l ∧ .ttc ∈ l) (s : State) (gid combined : Nat) :
    (s.endFenced gid combined).but l = s.but l := by
  simp only [State.endFenced]
  split <;> simp [h]

@[simp] theorem State.fenceCollecting_but {l : List Block} (h : .freeCount ∈ l ∧ .out ∈ l ∧ .adm ∈ l ∧ .obf ∈ l ∧ .rte ∈ l ∧ .trn ∈ l ∧ .pool ∈ l ∧
    .mec ∈ l ∧ .mtc ∈ l ∧ .rdx ∈ l ∧ .ins ∈ l ∧ .mpu ∈ l ∧ .msix ∈ l ∧ .flt ∈ l ∧ .ttc ∈ l) (s : State) (gid : Nat) :
    (s.fenceCollecting gid).but l = s.but l := by
  simp only [State.fenceCollecting]
  split <;> simp [h]

@[simp] theorem State.fenceEffect_but {l : List Block} (h : .freeCount ∈ l ∧ .out ∈ l ∧ .adm ∈ l ∧ .obf ∈ l ∧ .rte ∈ l ∧ .trn ∈ l ∧ .pool ∈ l ∧
    .mec ∈ l ∧ .mtc ∈ l ∧ .rdx ∈ l ∧ .ins ∈ l ∧ .mpu ∈ l ∧ .msix ∈ l ∧ .flt ∈ l ∧ .ttc ∈ l) (s : State) (gid : Nat) :
    (s.fenceEffect gid).but l = s.but l := by
  simp only [State.fenceEffect]
  (repeat' split) <;> simp [h]

@[simp] theorem State.fenceSlot_but {l : List Block} (h : .freeCount ∈ l ∧ .out ∈ l ∧ .adm ∈ l ∧ .obf ∈ l ∧ .rte ∈ l ∧ .trn ∈ l ∧ .pool ∈ l ∧
    .mec ∈ l ∧ .mtc ∈ l ∧ .rdx ∈ l ∧ .ins ∈ l ∧ .mpu ∈ l ∧ .msix ∈ l ∧ .flt ∈ l ∧ .ttc ∈ l) (s : State) (gid k : Nat) :
    (s.fenceSlot gid k).but l = s.but l := by
  simp only [State.fenceSlot]
  split <;> simp [h]

@[simp] theorem State.rootRound_but {l : List Block} (h : .freeCount ∈ l ∧ .out ∈ l ∧ .adm ∈ l ∧ .obf ∈ l ∧ .rte ∈ l ∧ .trn ∈ l ∧ .pool ∈ l ∧
    .mec ∈ l ∧ .mtc ∈ l ∧ .rdx ∈ l ∧ .ins ∈ l ∧ .mpu ∈ l ∧ .msix ∈ l ∧ .flt ∈ l ∧ .ttc ∈ l) (s : State) (gid : Nat) (g : Group) :
    (s.rootRound gid g).but l = s.but l := by
  simp [State.rootRound, h]

@[simp] theorem State.rdxProgress_but {l : List Block} (h : .freeCount ∈ l ∧ .out ∈ l ∧ .adm ∈ l ∧ .obf ∈ l ∧ .rte ∈ l ∧ .trn ∈ l ∧ .pool ∈ l ∧
    .mec ∈ l ∧ .mtc ∈ l ∧ .rdx ∈ l ∧ .ins ∈ l ∧ .mpu ∈ l ∧ .msix ∈ l ∧ .flt ∈ l ∧ .ttc ∈ l) (s : State) (gid fuel : Nat) :
    (s.rdxProgress gid fuel).but l = s.but l := by
  induction fuel generalizing s with
  | zero => rfl
  | succ fuel ih =>
    rw [State.rdxProgress]
    (repeat' split) <;> simp [ih, h]

@[simp] theorem State.runGroup_but {l : List Block} (h : .freeCount ∈ l ∧ .out ∈ l ∧ .adm ∈ l ∧ .obf ∈ l ∧ .rte ∈ l ∧ .trn ∈ l ∧ .pool ∈ l ∧
    .mec ∈ l ∧ .mtc ∈ l ∧ .rdx ∈ l ∧ .ins ∈ l ∧ .mpu ∈ l ∧ .msix ∈ l ∧ .flt ∈ l ∧ .ttc ∈ l) (s : State) (gid : Nat) :
    (s.runGroup gid).but l = s.but l := by
  simp [State.runGroup, h]

@[simp] theorem State.fenceMembers_but {l : List Block} (h : .freeCount ∈ l ∧ .out ∈ l ∧ .adm ∈ l ∧ .obf ∈ l ∧ .rte ∈ l ∧ .trn ∈ l ∧ .pool ∈ l ∧
    .mec ∈ l ∧ .mtc ∈ l ∧ .rdx ∈ l ∧ .ins ∈ l ∧ .mpu ∈ l ∧ .msix ∈ l ∧ .flt ∈ l ∧ .ttc ∈ l) (s : State) (i : Nat) :
    (s.fenceMembers i).but l = s.but l := by
  refine foldl_but (fun s x => ?_) _ _
  simp [h]

@[simp] theorem State.rdxContextLost_but {l : List Block} (h : .freeCount ∈ l ∧ .out ∈ l ∧ .adm ∈ l ∧ .obf ∈ l ∧ .rte ∈ l ∧ .trn ∈ l ∧ .pool ∈ l ∧
    .mec ∈ l ∧ .mtc ∈ l ∧ .rdx ∈ l ∧ .ins ∈ l ∧ .mpu ∈ l ∧ .msix ∈ l ∧ .flt ∈ l ∧ .ttc ∈ l) (s : State) (k : CtxKey) :
    (s.rdxContextLost k).but l = s.but l := by
  refine foldl_but (fun s e => ?_) _ _
  dsimp only
  split
  · exact foldl_but (fun s c => by split <;> simp [h]) _ _
  · simp [h]

/-! ### Dumps and traces -/

@[simp] theorem State.upStream_but {l : List Block} (h : .ttc ∈ l) (s : State) (n : Nat) (f : Stream → Stream) : (s.upStream n f).but l = s.but l :=
    by
  simp [State.upStream, h]

@[simp] theorem State.stage_but {l : List Block} (h : .csc ∈ l ∧ .egs ∈ l ∧ .rte ∈ l ∧ .ttc ∈ l) (s : State) (n kind i : Nat) (final : Option Nat) :
    (s.stage n kind i final).but l = s.but l := by
  simp [State.stage, h]

@[simp] theorem State.freeSlots_but {l : List Block} (h : .ttc ∈ l) (s : State) (n : Nat) (freed : List Nat) :
    (s.freeSlots n freed).but l = s.but l := by
  simp [State.freeSlots, h]

@[simp] theorem State.freeInstance_but {l : List Block} (h : .out ∈ l ∧ .hly ∈ l ∧ .obf ∈ l ∧ .trn ∈ l ∧ .ins ∈ l ∧ .msix ∈ l) (s : State) (i :
    Nat) : (s.freeInstance i).but l = s.but l := by
  simp [State.freeInstance, h]

@[simp] theorem State.writeSlot_but {l : List Block} (h : .out ∈ l ∧ .hly ∈ l ∧ .obf ∈ l ∧ .egs ∈ l ∧ .trn ∈ l ∧ .ins ∈ l ∧ .msix ∈ l ∧ .ttc ∈ l)
    (s : State) (n : Nat) : (s.writeSlot n).but l = s.but l := by
  simp only [State.writeSlot]
  (repeat' split) <;> simp [h]

@[simp] theorem State.loseSnapshot_but {l : List Block} (h : .ttc ∈ l) (s : State) (n : Nat) : (s.loseSnapshot n).but l = s.but l := by
  simp [State.loseSnapshot, h]

@[simp] theorem State.disableEnds_but {l : List Block} (h : .out ∈ l ∧ .hly ∈ l ∧ .csc ∈ l ∧ .obf ∈ l ∧ .egs ∈ l ∧ .rte ∈ l ∧ .trn ∈ l ∧ .ins ∈ l ∧
    .msix ∈ l ∧ .ttc ∈ l) (s : State) (i : Nat) : (s.disableEnds i).but l = s.but l := by
  simp [State.disableEnds, h]

@[simp] theorem State.chargeMs_but {l : List Block} (h : .ttc ∈ l) (s : State) : (s.chargeMs).but l = s.but l := by
  rw [State.chargeMs, foldl_but (fun s x => foldl_but (fun s y => by simp [h]) _ _), foldl_but (fun s x => by simp [h])]

@[simp] theorem State.lanesPass_but {l : List Block} (h : .prt ∈ l) (s : State) (dt : Nat) : (s.lanesPass dt).but l = s.but l := by
  simp [State.lanesPass, h]

@[simp] theorem State.passTime_but {l : List Block} (h : .prt ∈ l ∧ .ttc ∈ l) (s : State) (dt : Nat) : (s.passTime dt).but l = s.but l := by
  simp [State.passTime, h]

/-! ### Resets of instances -/

@[simp] theorem State.dropMessages_but {l : List Block} (h : .out ∈ l ∧ .mec ∈ l ∧ .mtc ∈ l ∧ .ins ∈ l ∧ .msix ∈ l) (s : State) (k : CtxKey) :
    (s.dropMessages k).but l = s.but l := by
  rw [State.dropMessages]
  dsimp only
  rw [foldl_but, foldl_but (fun s x => by simp [h])]
  · simp [h]
  · intro s m
    split <;> split <;> simp [h]

@[simp] theorem State.freeRecv_but {l : List Block} (h : .out ∈ l ∧ .trn ∈ l ∧ .mec ∈ l ∧ .mtc ∈ l ∧ .ins ∈ l ∧ .msix ∈ l) (s : State) (k : CtxKey) :
    (s.freeRecv k).but l = s.but l := by
  simp [State.freeRecv, h]

@[simp] theorem State.squashWork_but {l : List Block} (h : .freeCount ∈ l ∧ .out ∈ l ∧ .adm ∈ l ∧ .obf ∈ l ∧ .rte ∈ l ∧ .trn ∈ l ∧ .mec ∈ l ∧
    .locks ∈ l ∧ .mtc ∈ l ∧ .ins ∈ l ∧ .msix ∈ l ∧ .flt ∈ l ∧ .ttc ∈ l) (s : State) (i : Nat) : (s.squashWork i).but l = s.but l := by
  simp [State.squashWork, h]

@[simp] theorem State.releaseWork_but {l : List Block} (h : .freeCount ∈ l ∧ .out ∈ l ∧ .adm ∈ l ∧ .obf ∈ l ∧ .rte ∈ l ∧ .trn ∈ l ∧ .pool ∈ l ∧
    .mec ∈ l ∧ .mtc ∈ l ∧ .rdx ∈ l ∧ .ins ∈ l ∧ .mpu ∈ l ∧ .msix ∈ l ∧ .flt ∈ l ∧ .ttc ∈ l) (s : State) (i : Nat) :
    (s.releaseWork i).but l = s.but l := by
  simp [State.releaseWork, h]

@[simp] theorem State.genStep_but {l : List Block} (h : .freeCount ∈ l ∧ .out ∈ l ∧ .adm ∈ l ∧ .obf ∈ l ∧ .rte ∈ l ∧ .trn ∈ l ∧ .pool ∈ l ∧
    .mec ∈ l ∧ .locks ∈ l ∧ .mtc ∈ l ∧ .rdx ∈ l ∧ .ins ∈ l ∧ .mpu ∈ l ∧ .msix ∈ l ∧ .flt ∈ l ∧ .ttc ∈ l) (s : State) (i : Nat) :
    (s.genStep i).but l = s.but l := by
  simp [State.genStep, h]

@[simp] theorem State.startReset_but {l : List Block} (h : .freeCount ∈ l ∧ .out ∈ l ∧ .adm ∈ l ∧ .obf ∈ l ∧ .rte ∈ l ∧ .trn ∈ l ∧ .pool ∈ l ∧
    .mec ∈ l ∧ .locks ∈ l ∧ .mtc ∈ l ∧ .rdx ∈ l ∧ .ins ∈ l ∧ .mpu ∈ l ∧ .msix ∈ l ∧ .flt ∈ l ∧ .ttc ∈ l) (s : State) (i : Nat) (squash : Bool) :
    (s.startReset i squash).but l = s.but l := by
  simp [State.startReset, h]

@[simp] theorem State.flr0_but {l : List Block} (h : .waiting ∈ l ∧ .freeCount ∈ l ∧ .out ∈ l ∧ .hly ∈ l ∧ .adm ∈ l ∧ .obf ∈ l ∧ .rte ∈ l ∧
    .trn ∈ l ∧ .pool ∈ l ∧ .mec ∈ l ∧ .locks ∈ l ∧ .mtc ∈ l ∧ .rdx ∈ l ∧ .ins ∈ l ∧ .mpu ∈ l ∧ .msix ∈ l ∧ .flt ∈ l ∧ .ttc ∈ l) (s : State) :
    (s.flr0).but l = s.but l := by
  rw [State.flr0]
  dsimp only
  rw [State.startReset_but (by simp [h]), State.emit_but (by simp [h]), State.upInst_but (by simp [h]), State.setWaiting_but (by simp [h])]
  simp [h]

@[simp] theorem State.restartQueue_but {l : List Block} (h : .mec ∈ l) (s : State) (kind queue : Nat) :
    (s.restartQueue kind queue).but l = s.but l := by
  simp [State.restartQueue, h]

@[simp] theorem State.finishMove_but {l : List Block} (h : .out ∈ l ∧ .hly ∈ l ∧ .obf ∈ l ∧ .trn ∈ l ∧ .mec ∈ l ∧ .ins ∈ l ∧ .msix ∈ l) (s : State)
    (q : Nat) : (s.finishMove q).but l = s.but l := by
  simp only [State.finishMove]
  split <;> simp [h]

@[simp] theorem State.dropQueues_but {l : List Block} (h : .out ∈ l ∧ .hly ∈ l ∧ .obf ∈ l ∧ .trn ∈ l ∧ .mec ∈ l ∧ .ins ∈ l ∧ .msix ∈ l) (s : State)
    (i : Nat) : (s.dropQueues i).but l = s.but l := by
  simp [State.dropQueues, h]

@[simp] theorem State.clearContained_but {l : List Block} (h : .flt ∈ l) (s : State) (i : Nat) : (s.clearContained i).but l = s.but l := by
  simp [State.clearContained, h]

@[simp] theorem State.resetEnds_but {l : List Block} (h : .out ∈ l ∧ .hly ∈ l ∧ .csc ∈ l ∧ .obf ∈ l ∧ .egs ∈ l ∧ .rte ∈ l ∧ .trn ∈ l ∧ .mec ∈ l ∧
    .ins ∈ l ∧ .msix ∈ l ∧ .flt ∈ l ∧ .ttc ∈ l) (s : State) (i : Nat) : (s.resetEnds i).but l = s.but l := by
  simp [State.resetEnds, h]

@[simp] theorem State.containInst_but {l : List Block} (h : .freeCount ∈ l ∧ .out ∈ l ∧ .hly ∈ l ∧ .adm ∈ l ∧ .obf ∈ l ∧ .rte ∈ l ∧ .trn ∈ l ∧
    .pool ∈ l ∧ .mec ∈ l ∧ .locks ∈ l ∧ .mtc ∈ l ∧ .rdx ∈ l ∧ .ins ∈ l ∧ .mpu ∈ l ∧ .msix ∈ l ∧ .flt ∈ l ∧ .ttc ∈ l) (s : State) (i : Nat) :
    (s.containInst i).but l = s.but l := by
  simp [State.containInst, h]

/-! ### Spares -/

@[simp] theorem State.moveQueue_but {l : List Block} (h : .mec ∈ l) (s : State) (q engine : Nat) : (s.moveQueue q engine).but l = s.but l := by
  simp [State.moveQueue, h]

@[simp] theorem State.retireEngine_but {l : List Block} (h : .out ∈ l ∧ .mec ∈ l ∧ .ins ∈ l ∧ .msix ∈ l) (s : State) (engine : Nat) :
    (s.retireEngine engine).but l = s.but l := by
  refine foldl_but (fun s x => ?_) _ _
  (repeat' split) <;> simp [h]

@[simp] theorem State.degradeWithout_but {l : List Block} (h : .out ∈ l ∧ .mec ∈ l ∧ .ins ∈ l ∧ .msix ∈ l ∧ .flt ∈ l ∧ .ttc ∈ l) (s : State)
    (kind unit : Nat) : (s.degradeWithout kind unit).but l = s.but l := by
  simp only [State.degradeWithout]
  split <;> simp [h]

@[simp] theorem State.wantSwap_but {l : List Block} (h : .out ∈ l ∧ .mec ∈ l ∧ .ins ∈ l ∧ .msix ∈ l ∧ .flt ∈ l ∧ .ttc ∈ l) (s : State) (kind unit :
    Nat) : (s.wantSwap kind unit).but l = s.but l := by
  simp [State.wantSwap, h]

@[simp] theorem State.degrade_but {l : List Block} (h : .out ∈ l ∧ .mec ∈ l ∧ .ins ∈ l ∧ .msix ∈ l ∧ .flt ∈ l ∧ .ttc ∈ l) (s : State) (src : Nat)
    (subj : Subject) : (s.degrade src subj).but l = s.but l := by
  simp only [State.degrade]
  split <;> simp [h]

@[simp] theorem State.spareTakes_but {l : List Block} (h : .rte ∈ l ∧ .dir ∈ l ∧ .mec ∈ l ∧ .icu ∈ l) (s : State) (kind unit : Nat) :
    (s.spareTakes kind unit).but l = s.but l := by
  simp only [State.spareTakes]
  split <;> simp [h]

@[simp] theorem State.swapDone_but {l : List Block} (h : .out ∈ l ∧ .hly ∈ l ∧ .obf ∈ l ∧ .rte ∈ l ∧ .trn ∈ l ∧ .dir ∈ l ∧ .mec ∈ l ∧ .ins ∈ l ∧
    .icu ∈ l ∧ .msix ∈ l ∧ .flt ∈ l ∧ .ttc ∈ l) (s : State) (kind unit : Nat) : (s.swapDone kind unit).but l = s.but l := by
  simp only [State.swapDone]
  (repeat' split) <;> simp [h]

/-! ### Containment -/

@[simp] theorem State.abandonAll_but {l : List Block} (h : .out ∈ l ∧ .hly ∈ l ∧ .obf ∈ l ∧ .trn ∈ l ∧ .ins ∈ l ∧ .msix ∈ l) (s : State) (status :
    Nat) (lost : Bool) : (s.abandonAll status lost).but l = s.but l := by
  simp [State.abandonAll, h]

@[simp] theorem State.freeQueued_but {l : List Block} (h : .freeCount ∈ l ∧ .out ∈ l ∧ .adm ∈ l ∧ .obf ∈ l ∧ .rte ∈ l ∧ .lnk ∈ l ∧ .trn ∈ l ∧
    .ins ∈ l ∧ .msix ∈ l ∧ .flt ∈ l ∧ .ttc ∈ l) (s : State) (b : BufPkt) : (s.freeQueued b).but l = s.but l := by
  simp [State.freeQueued, h]

@[simp] theorem State.linkOff_but {l : List Block} (h : .out ∈ l ∧ .egs ∈ l ∧ .prt ∈ l) (s : State) (p : Nat) : (s.linkOff p).but l = s.but l := by
  simp [State.linkOff, h]

@[simp] theorem State.portOff_but {l : List Block} (h : .freeCount ∈ l ∧ .out ∈ l ∧ .hly ∈ l ∧ .ftu ∈ l ∧ .adm ∈ l ∧ .obf ∈ l ∧ .egs ∈ l ∧ .rte ∈ l ∧
    .lnk ∈ l ∧ .trn ∈ l ∧ .prt ∈ l ∧ .ins ∈ l ∧ .msix ∈ l ∧ .flt ∈ l ∧ .ttc ∈ l) (s : State) (p : Nat) : (s.portOff p).but l = s.but l := by
  simp [State.portOff, h]

@[simp] theorem State.containNative_but {l : List Block} (h : .freeCount ∈ l ∧ .out ∈ l ∧ .masthead ∈ l ∧ .hly ∈ l ∧ .ftu ∈ l ∧ .adm ∈ l ∧ .obf ∈ l ∧
    .egs ∈ l ∧ .rte ∈ l ∧ .lnk ∈ l ∧ .trn ∈ l ∧ .prt ∈ l ∧ .mec ∈ l ∧ .mtc ∈ l ∧ .ins ∈ l ∧ .msix ∈ l ∧ .pwr ∈ l ∧ .flt ∈ l ∧ .ttc ∈ l) (s : State)
    (p : Nat) : (s.containNative p).but l = s.but l := by
  simp only [State.containNative]
  split <;> simp [h]

@[simp] theorem State.disableLink_but {l : List Block} (h : .out ∈ l ∧ .egs ∈ l ∧ .prt ∈ l) (s : State) (p : Nat) :
    (s.disableLink p).but l = s.but l := by
  simp [State.disableLink, h]

@[simp] theorem State.halt_but {l : List Block} (h : .freeCount ∈ l ∧ .out ∈ l ∧ .hly ∈ l ∧ .ftu ∈ l ∧ .adm ∈ l ∧ .csc ∈ l ∧ .obf ∈ l ∧ .egs ∈ l ∧
    .rte ∈ l ∧ .lnk ∈ l ∧ .trn ∈ l ∧ .prt ∈ l ∧ .mec ∈ l ∧ .ins ∈ l ∧ .msix ∈ l ∧ .pwr ∈ l ∧ .flt ∈ l ∧ .ttc ∈ l) (s : State) :
    (s.halt).but l = s.but l := by
  simp [State.halt, h]

@[simp] theorem State.sendAbandons_but {l : List Block} (h : .freeCount ∈ l ∧ .out ∈ l ∧ .adm ∈ l ∧ .obf ∈ l ∧ .rte ∈ l ∧ .trn ∈ l ∧ .mec ∈ l ∧
    .mtc ∈ l ∧ .ins ∈ l ∧ .msix ∈ l ∧ .flt ∈ l ∧ .ttc ∈ l) (s : State) : (s.sendAbandons).but l = s.but l := by
  simp [State.sendAbandons, h]

@[simp] theorem State.settleDestroys_but {l : List Block} (h : .out ∈ l ∧ .hly ∈ l ∧ .obf ∈ l ∧ .trn ∈ l ∧ .mec ∈ l ∧ .ins ∈ l ∧ .msix ∈ l) (s :
    State) : (s.settleDestroys).but l = s.but l := by
  simp [State.settleDestroys, h]

@[simp] theorem State.settleLeave_but {l : List Block} (h : .freeCount ∈ l ∧ .out ∈ l ∧ .hly ∈ l ∧ .ftu ∈ l ∧ .adm ∈ l ∧ .obf ∈ l ∧ .egs ∈ l ∧
    .rte ∈ l ∧ .lnk ∈ l ∧ .trn ∈ l ∧ .prt ∈ l ∧ .ins ∈ l ∧ .msix ∈ l ∧ .flt ∈ l ∧ .ttc ∈ l ∧ .mgc ∈ l) (s : State) :
    (s.settleLeave).but l = s.but l := by
  simp [State.settleLeave, h]

@[simp] theorem State.recoverPorts_but {l : List Block} (h : .out ∈ l ∧ .egs ∈ l ∧ .prt ∈ l) (s : State) : (s.recoverPorts).but l = s.but l := by
  simp [State.recoverPorts, h]

/-! ### Host queues and the board channel -/

@[simp] theorem State.flushReplies_but {l : List Block} (h : .out ∈ l ∧ .hly ∈ l ∧ .ins ∈ l ∧ .msix ∈ l) (s : State) (q fuel : Nat) :
    (s.flushReplies q fuel).but l = s.but l := by
  induction fuel generalizing s with
  | zero => rfl
  | succ fuel ih =>
    rw [State.flushReplies]
    (repeat' split) <;> simp [ih, h]

@[simp] theorem State.doorbell_but {l : List Block} (h : .waiting ∈ l) (s : State) (i : Instr) (f : State → State)
    (hf : ∀ s : State, (f s).but l = s.but l) : (s.doorbell i f).but l = s.but l := by
  rw [State.doorbell]
  split
  · rw [State.setWaiting_but h]
  · exact hf s

@[simp] theorem State.producerWrite_but {l : List Block} (h : .hly ∈ l ∧ .icu ∈ l) (s : State) (q index : Nat) :
    (s.producerWrite q index).but l = s.but l := by
  simp [State.producerWrite, h]

@[simp] theorem State.enableQueue_but {l : List Block} (h : .hly ∈ l) (s : State) (q : Nat) : (s.enableQueue q).but l = s.but l := by
  simp [State.enableQueue, h]

@[simp] theorem State.inbandWhole_but {l : List Block} (h : .out ∈ l ∧ .hly ∈ l ∧ .obf ∈ l ∧ .trn ∈ l ∧ .icu ∈ l) (s : State) (k : InbandKey)
    (directed : Bool) (ports : List Nat) : (s.inbandWhole k directed ports).but l = s.but l := by
  simp only [State.inbandWhole]
  (repeat' split) <;> simp [h]

@[simp] theorem State.inbandSegment_but {l : List Block} (h : .out ∈ l ∧ .hly ∈ l ∧ .obf ∈ l ∧ .trn ∈ l ∧ .icu ∈ l ∧ .ttc ∈ l) (s : State) (k :
    InbandKey) (index count : Nat) (directed : Bool) (ports : List Nat) : (s.inbandSegment k index count directed ports).but l = s.but l := by
  simp [State.inbandSegment, h]

@[simp] theorem State.remoteReply_but {l : List Block} (h : .out ∈ l ∧ .hly ∈ l ∧ .obf ∈ l ∧ .trn ∈ l ∧ .ins ∈ l ∧ .msix ∈ l) (s : State)
    (queue seq status result : Nat) (deviceValid : Bool) (device : Nat) (out : List Nat) :
    (s.remoteReply queue seq status result deviceValid device out).but l = s.but l := by
  simp only [State.remoteReply]
  split <;> simp [h]

@[simp] theorem State.inbandRetry_but {l : List Block} (h : .out ∈ l ∧ .hly ∈ l ∧ .obf ∈ l ∧ .trn ∈ l ∧ .ins ∈ l ∧ .msix ∈ l) (s : State)
    (queue seq : Nat) : (s.inbandRetry queue seq).but l = s.but l := by
  simp only [State.inbandRetry]
  split <;> simp [h]

@[simp] theorem State.dropMessage_but {l : List Block} (h : .hly ∈ l ∧ .ttc ∈ l) (s : State) (k : InbandKey) : (s.dropMessage k).but l = s.but l := by
  simp [State.dropMessage, h]

/-! ### Links and lanes -/

@[simp] theorem State.takeHead_but {l : List Block} (h : .rte ∈ l ∧ .lnk ∈ l) (s : State) (p hd : Nat) : (s.takeHead p hd).but l = s.but l := by
  simp [State.takeHead, h]

@[simp] theorem State.frameEnd_but {l : List Block} (h : .freeCount ∈ l ∧ .out ∈ l ∧ .adm ∈ l ∧ .obf ∈ l ∧ .egs ∈ l ∧ .rte ∈ l ∧ .lnk ∈ l ∧
    .trn ∈ l ∧ .mec ∈ l ∧ .mtc ∈ l ∧ .ins ∈ l ∧ .msix ∈ l ∧ .flt ∈ l ∧ .ttc ∈ l) (s : State) (p v seq flits : Nat) (pkt : Packet) (crcOk abort :
    Bool) (open_ : Option OpenFrame) : (s.frameEnd p v seq flits pkt crcOk abort open_).but l = s.but l := by
  rw [State.frameEnd]
  dsimp only
  cases hp : Option.bind open_ (·.pid) <;> (repeat' split) <;> simp_all

@[simp] theorem State.beginFrame_but {l : List Block} (h : .freeCount ∈ l ∧ .out ∈ l ∧ .adm ∈ l ∧ .obf ∈ l ∧ .egs ∈ l ∧ .rte ∈ l ∧ .lnk ∈ l ∧
    .trn ∈ l ∧ .mec ∈ l ∧ .mtc ∈ l ∧ .ins ∈ l ∧ .msix ∈ l ∧ .flt ∈ l ∧ .ttc ∈ l) (s : State) (p head : Nat) (pkt : Packet) (crcOk : Bool) (t : Tag) :
    (s.beginFrame p head pkt crcOk t).but l = s.but l := by
  simp only [State.beginFrame]
  split <;> simp [h]

@[simp] theorem State.frameStart_but {l : List Block} (h : .freeCount ∈ l ∧ .out ∈ l ∧ .adm ∈ l ∧ .obf ∈ l ∧ .egs ∈ l ∧ .rte ∈ l ∧ .lnk ∈ l ∧
    .trn ∈ l ∧ .mec ∈ l ∧ .mtc ∈ l ∧ .ins ∈ l ∧ .msix ∈ l ∧ .flt ∈ l ∧ .ttc ∈ l) (s : State) (p head : Nat) (pkt : Packet) (crcOk : Bool) (t : Tag) :
    (s.frameStart p head pkt crcOk t).but l = s.but l := by
  simp only [State.frameStart]
  split <;> simp [h]

@[simp] theorem State.damagedStart_but {l : List Block} (h : .out ∈ l ∧ .adm ∈ l ∧ .obf ∈ l ∧ .egs ∈ l ∧ .lnk ∈ l) (s : State) (p head : Nat) (t :
    Tag) : (s.damagedStart p head t).but l = s.but l := by
  simp [State.damagedStart, h]

@[simp] theorem State.continueFrame_but {l : List Block} (h : .freeCount ∈ l ∧ .out ∈ l ∧ .adm ∈ l ∧ .obf ∈ l ∧ .egs ∈ l ∧ .rte ∈ l ∧ .lnk ∈ l ∧
    .trn ∈ l ∧ .mec ∈ l ∧ .mtc ∈ l ∧ .ins ∈ l ∧ .msix ∈ l ∧ .flt ∈ l ∧ .ttc ∈ l) (s : State) (p : Nat) (pkt : Packet) (crcOk : Bool) (t : Tag) :
    (s.continueFrame p pkt crcOk t).but l = s.but l := by
  simp only [State.continueFrame]
  split <;> simp [h]

@[simp] theorem State.rxFrame_but {l : List Block} (h : .freeCount ∈ l ∧ .out ∈ l ∧ .adm ∈ l ∧ .obf ∈ l ∧ .egs ∈ l ∧ .rte ∈ l ∧ .lnk ∈ l ∧ .trn ∈ l ∧
    .prt ∈ l ∧ .mec ∈ l ∧ .mtc ∈ l ∧ .ins ∈ l ∧ .msix ∈ l ∧ .flt ∈ l ∧ .ttc ∈ l) {s : State} (hw : s.mayWake l) (p : Nat) (sync : BitVec 16) (head :
    BitVec 128) (pkt : Packet) (crcOk : Bool) : (s.rxFrame p sync head pkt crcOk).but l = s.but l := by
  simp only [State.rxFrame]
  (repeat' split) <;> simp [h, hw]

@[simp] theorem State.settleDrain_but {l : List Block} (h : .freeCount ∈ l ∧ .out ∈ l ∧ .hly ∈ l ∧ .ftu ∈ l ∧ .adm ∈ l ∧ .obf ∈ l ∧ .egs ∈ l ∧
    .rte ∈ l ∧ .lnk ∈ l ∧ .trn ∈ l ∧ .prt ∈ l ∧ .ins ∈ l ∧ .msix ∈ l ∧ .flt ∈ l ∧ .ttc ∈ l) (s : State) (p : Nat) :
    (s.settleDrain p).but l = s.but l := by
  simp [State.settleDrain, h]

@[simp] theorem State.rxControl_but {l : List Block} (h : .freeCount ∈ l ∧ .out ∈ l ∧ .hly ∈ l ∧ .ftu ∈ l ∧ .adm ∈ l ∧ .obf ∈ l ∧ .egs ∈ l ∧
    .rte ∈ l ∧ .lnk ∈ l ∧ .trn ∈ l ∧ .prt ∈ l ∧ .ins ∈ l ∧ .msix ∈ l ∧ .flt ∈ l ∧ .ttc ∈ l) (s : State) (p : Nat) (flit : BitVec 512) (sync :
    BitVec 16) : (s.rxControl p flit sync).but l = s.but l := by
  simp only [State.rxControl]
  (repeat' split) <;> simp [h]

@[simp] theorem State.replayTimeout_but {l : List Block} (h : .out ∈ l ∧ .lnk ∈ l ∧ .prt ∈ l ∧ .ttc ∈ l) (s : State) (p : Nat) :
    (s.replayTimeout p).but l = s.but l := by
  simp [State.replayTimeout, h]

/-! ### Frames and transport -/

@[simp] theorem State.settleClose_but {l : List Block} (h : .freeCount ∈ l ∧ .out ∈ l ∧ .adm ∈ l ∧ .obf ∈ l ∧ .rte ∈ l ∧ .trn ∈ l ∧ .mec ∈ l ∧
    .mtc ∈ l ∧ .ins ∈ l ∧ .msix ∈ l ∧ .flt ∈ l ∧ .ttc ∈ l) (s : State) (k : CtxKey) : (s.settleClose k).but l = s.but l := by
  simp only [State.settleClose]
  (repeat' split) <;> simp [h]

@[simp] theorem State.setPin_but {l : List Block} (h : .freeCount ∈ l ∧ .out ∈ l ∧ .adm ∈ l ∧ .obf ∈ l ∧ .rte ∈ l ∧ .trn ∈ l ∧ .mec ∈ l ∧ .mtc ∈ l ∧
    .ins ∈ l ∧ .msix ∈ l ∧ .flt ∈ l ∧ .ttc ∈ l) (s : State) (k : CtxKey) (half : Nat) (pin : Bool) : (s.setPin k half pin).but l = s.but l := by
  simp [State.setPin, h]

@[simp] theorem State.complexAnswer_but {l : List Block} (h : .freeCount ∈ l ∧ .out ∈ l ∧ .adm ∈ l ∧ .obf ∈ l ∧ .rte ∈ l ∧ .trn ∈ l ∧ .mec ∈ l ∧
    .mtc ∈ l ∧ .ins ∈ l ∧ .msix ∈ l ∧ .flt ∈ l ∧ .ttc ∈ l) (s : State) (p : Packet) : (s.complexAnswer p).but l = s.but l := by
  simp [State.complexAnswer, h]

@[simp] theorem State.reservedOpcode_but {l : List Block} (h : .freeCount ∈ l ∧ .out ∈ l ∧ .adm ∈ l ∧ .obf ∈ l ∧ .rte ∈ l ∧ .trn ∈ l ∧ .mec ∈ l ∧
    .mtc ∈ l ∧ .ins ∈ l ∧ .msix ∈ l ∧ .flt ∈ l ∧ .ttc ∈ l ∧ .mgc ∈ l) (s : State) (p : Packet) : (s.reservedOpcode p).but l = s.but l := by
  simp [State.reservedOpcode, h]

@[simp] theorem State.unassignedEndpoint_but {l : List Block} (h : .freeCount ∈ l ∧ .out ∈ l ∧ .adm ∈ l ∧ .obf ∈ l ∧ .rte ∈ l ∧ .trn ∈ l ∧ .mec ∈ l ∧
    .mtc ∈ l ∧ .ins ∈ l ∧ .msix ∈ l ∧ .flt ∈ l ∧ .ttc ∈ l ∧ .mgc ∈ l) (s : State) (p : Packet) : (s.unassignedEndpoint p).but l = s.but l := by
  simp [State.unassignedEndpoint, h]

@[simp] theorem State.hand_but {l : List Block} (h : .freeCount ∈ l ∧ .out ∈ l ∧ .adm ∈ l ∧ .obf ∈ l ∧ .rte ∈ l ∧ .trn ∈ l ∧ .mec ∈ l ∧ .mtc ∈ l ∧
    .ins ∈ l ∧ .msix ∈ l ∧ .flt ∈ l ∧ .ttc ∈ l ∧ .mgc ∈ l) (s : State) (p : Packet) (len : Nat) : (s.hand p len).but l = s.but l := by
  simp only [State.hand]
  (repeat' split) <;> simp [h]

@[simp] theorem State.countMiss_but {l : List Block} (h : .trn ∈ l) (s : State) : (s.countMiss).but l = s.but l := by
  simp [State.countMiss, h]

@[simp] theorem State.judgeArrival_but {l : List Block} (h : .adm ∈ l ∧ .trn ∈ l ∧ .ttc ∈ l) (s : State) (hd : Hdr) :
    (s.judgeArrival hd).2.but l = s.but l := by
  simp only [State.judgeArrival]
  (repeat' split) <;> simp [h]

@[simp] theorem State.releaseHeld_but {l : List Block} (h : .freeCount ∈ l ∧ .out ∈ l ∧ .adm ∈ l ∧ .obf ∈ l ∧ .rte ∈ l ∧ .trn ∈ l ∧ .mec ∈ l ∧
    .mtc ∈ l ∧ .ins ∈ l ∧ .msix ∈ l ∧ .flt ∈ l ∧ .ttc ∈ l ∧ .mgc ∈ l) (s : State) (k : CtxKey) (fuel : Nat) :
    (s.releaseHeld k fuel).but l = s.but l := by
  induction fuel generalizing s with
  | zero => rfl
  | succ fuel ih =>
    rw [State.releaseHeld]
    (repeat' split) <;> simp [ih, h]

@[simp] theorem State.noteHold_but {l : List Block} (h : .rte ∈ l) (s : State) : (s.noteHold).but l = s.but l := by
  simp [State.noteHold, h]

@[simp] theorem State.deliverOrdered_but {l : List Block} (h : .freeCount ∈ l ∧ .out ∈ l ∧ .adm ∈ l ∧ .obf ∈ l ∧ .rte ∈ l ∧ .trn ∈ l ∧ .mec ∈ l ∧
    .mtc ∈ l ∧ .ins ∈ l ∧ .msix ∈ l ∧ .flt ∈ l ∧ .ttc ∈ l ∧ .mgc ∈ l) (s : State) (k : CtxKey) (p : Packet) (ticket : Bool) :
    (s.deliverOrdered k p ticket).but l = s.but l := by
  simp only [State.deliverOrdered]
  split <;> simp [h]

@[simp] theorem State.judgeSeq_but {l : List Block} (h : .freeCount ∈ l ∧ .out ∈ l ∧ .adm ∈ l ∧ .obf ∈ l ∧ .rte ∈ l ∧ .trn ∈ l ∧ .mec ∈ l ∧
    .mtc ∈ l ∧ .ins ∈ l ∧ .msix ∈ l ∧ .flt ∈ l ∧ .ttc ∈ l ∧ .mgc ∈ l) (s : State) (p : Packet) (ticket : Bool) :
    (s.judgeSeq p ticket).but l = s.but l := by
  simp only [State.judgeSeq]
  (repeat' split) <;> simp [h]

@[simp] theorem State.rxData_but {l : List Block} (h : .freeCount ∈ l ∧ .out ∈ l ∧ .adm ∈ l ∧ .obf ∈ l ∧ .rte ∈ l ∧ .trn ∈ l ∧ .mec ∈ l ∧ .mtc ∈ l ∧
    .ins ∈ l ∧ .msix ∈ l ∧ .flt ∈ l ∧ .ttc ∈ l ∧ .mgc ∈ l) (s : State) (p : Packet) (check : BitVec 64) (ticket : Bool) :
    (s.rxData p check ticket).but l = s.but l := by
  simp only [State.rxData]
  (repeat' split) <;> simp [h]

@[simp] theorem State.onSend_but {l : List Block} (h : .trn ∈ l) (s : State) (k : CtxKey) (what : Instr) (f : State → State)
    (hf : ∀ s : State, (f s).but l = s.but l) : (s.onSend k what f).but l = s.but l := by
  rw [State.onSend]
  (repeat' split) <;> simp [hf, h]

@[simp] theorem State.onRecv_but {l : List Block} (h : .trn ∈ l) (s : State) (k : CtxKey) (what : Instr) (f : State → State)
    (hf : ∀ s : State, (f s).but l = s.but l) : (s.onRecv k what f).but l = s.but l := by
  rw [State.onRecv]
  (repeat' split) <;> simp [hf, h]

@[simp] theorem State.rxOpen_but {l : List Block} (h : .freeCount ∈ l ∧ .out ∈ l ∧ .adm ∈ l ∧ .obf ∈ l ∧ .rte ∈ l ∧ .trn ∈ l ∧ .mec ∈ l ∧ .mtc ∈ l ∧
    .ins ∈ l ∧ .msix ∈ l ∧ .flt ∈ l ∧ .ttc ∈ l) (s : State) (k : CtxKey) (initialSeq sl : Nat) : (s.rxOpen k initialSeq sl).but l = s.but l := by
  rw [State.rxOpen]
  split
  · next e => rw [State.sendTack_but (by simp [h]), State.openRecv_but (by simp [h]) _ _ _ _ e]; simp [h]
  · simp [h]

@[simp] theorem State.rxClose_but {l : List Block} (h : .freeCount ∈ l ∧ .out ∈ l ∧ .adm ∈ l ∧ .obf ∈ l ∧ .rte ∈ l ∧ .trn ∈ l ∧ .mec ∈ l ∧ .mtc ∈ l ∧
    .ins ∈ l ∧ .msix ∈ l ∧ .flt ∈ l ∧ .ttc ∈ l) (s : State) (k : CtxKey) (nextSeq sl : Nat) : (s.rxClose k nextSeq sl).but l = s.but l := by
  simp [State.rxClose, h]

@[simp] theorem State.idleExpiry_but {l : List Block} (h : .freeCount ∈ l ∧ .out ∈ l ∧ .adm ∈ l ∧ .obf ∈ l ∧ .rte ∈ l ∧ .trn ∈ l ∧ .ins ∈ l ∧
    .msix ∈ l ∧ .flt ∈ l ∧ .ttc ∈ l) (s : State) (k : CtxKey) : (s.idleExpiry k).but l = s.but l := by
  simp only [State.idleExpiry]
  split <;> simp [h]

@[simp] theorem State.miss_but {l : List Block} (h : .out ∈ l ∧ .adm ∈ l ∧ .mec ∈ l ∧ .ins ∈ l ∧ .msix ∈ l) (s : State) (id : Nat) :
    (s.miss id).but l = s.but l := by
  simp only [State.miss]
  split <;> simp [h]

@[simp] theorem State.takeLates_but {l : List Block} (h : .out ∈ l ∧ .adm ∈ l ∧ .mec ∈ l ∧ .ins ∈ l ∧ .msix ∈ l ∧ .ttc ∈ l) (s : State) (k : CtxKey)
    (lates : List Nat) : (s.takeLates k lates).but l = s.but l := by
  refine foldl_but (fun s sl => ?_) _ _
  refine foldl_but (fun s i => ?_) _ _
  dsimp only
  split <;> simp [h]

@[simp] theorem State.closeSend_but {l : List Block} (h : .freeCount ∈ l ∧ .out ∈ l ∧ .adm ∈ l ∧ .obf ∈ l ∧ .rte ∈ l ∧ .trn ∈ l ∧ .mec ∈ l ∧
    .mtc ∈ l ∧ .ins ∈ l ∧ .msix ∈ l ∧ .flt ∈ l ∧ .ttc ∈ l) (s : State) (k : CtxKey) (c : SendCtx) : (s.closeSend k c).but l = s.but l := by
  simp [State.closeSend, h]

@[simp] theorem State.rxTack_but {l : List Block} (h : .freeCount ∈ l ∧ .out ∈ l ∧ .adm ∈ l ∧ .obf ∈ l ∧ .rte ∈ l ∧ .trn ∈ l ∧ .mec ∈ l ∧ .mtc ∈ l ∧
    .ins ∈ l ∧ .msix ∈ l ∧ .flt ∈ l ∧ .ttc ∈ l) (s : State) (k : CtxKey) (ack : Nat) (openAck openRefused closeAck : Bool) (lates : List Nat)
    (marks returned granted : Nat) : (s.rxTack k ack openAck openRefused closeAck lates marks returned granted).but l = s.but l := by
  simp only [State.rxTack]
  split <;> simp [h]

@[simp] theorem State.retryFrom_but {l : List Block} (h : .freeCount ∈ l ∧ .out ∈ l ∧ .hly ∈ l ∧ .adm ∈ l ∧ .obf ∈ l ∧ .rte ∈ l ∧ .trn ∈ l ∧
    .pool ∈ l ∧ .mec ∈ l ∧ .mtc ∈ l ∧ .rdx ∈ l ∧ .ins ∈ l ∧ .mpu ∈ l ∧ .msix ∈ l ∧ .flt ∈ l ∧ .ttc ∈ l) (s : State) (k : CtxKey) (n : Nat) :
    (s.retryFrom k n).but l = s.but l := by
  simp only [State.retryFrom]
  split <;> simp [h]

@[simp] theorem State.rxTnak_but {l : List Block} (h : .freeCount ∈ l ∧ .out ∈ l ∧ .hly ∈ l ∧ .adm ∈ l ∧ .obf ∈ l ∧ .rte ∈ l ∧ .trn ∈ l ∧ .pool ∈ l ∧
    .mec ∈ l ∧ .mtc ∈ l ∧ .rdx ∈ l ∧ .ins ∈ l ∧ .mpu ∈ l ∧ .msix ∈ l ∧ .flt ∈ l ∧ .ttc ∈ l) (s : State) (k : CtxKey) (seq : Nat) (transit : Bool) :
    (s.rxTnak k seq transit).but l = s.but l := by
  simp only [State.rxTnak]
  split <;> simp [h]

@[simp] theorem State.ackDue_but {l : List Block} (h : .freeCount ∈ l ∧ .out ∈ l ∧ .adm ∈ l ∧ .obf ∈ l ∧ .rte ∈ l ∧ .trn ∈ l ∧ .ins ∈ l ∧ .msix ∈ l ∧
    .flt ∈ l ∧ .ttc ∈ l) (s : State) (k : CtxKey) : (s.ackDue k).but l = s.but l := by
  simp only [State.ackDue]
  split <;> simp [h]

@[simp] theorem State.nakDue_but {l : List Block} (h : .freeCount ∈ l ∧ .out ∈ l ∧ .adm ∈ l ∧ .obf ∈ l ∧ .rte ∈ l ∧ .trn ∈ l ∧ .ins ∈ l ∧ .msix ∈ l ∧
    .flt ∈ l ∧ .ttc ∈ l) (s : State) (k : CtxKey) : (s.nakDue k).but l = s.but l := by
  simp only [State.nakDue]
  split <;> simp [h]

@[simp] theorem State.retryExpiry_but {l : List Block} (h : .freeCount ∈ l ∧ .out ∈ l ∧ .hly ∈ l ∧ .adm ∈ l ∧ .obf ∈ l ∧ .rte ∈ l ∧ .trn ∈ l ∧
    .pool ∈ l ∧ .mec ∈ l ∧ .mtc ∈ l ∧ .rdx ∈ l ∧ .ins ∈ l ∧ .mpu ∈ l ∧ .msix ∈ l ∧ .flt ∈ l ∧ .ttc ∈ l) (s : State) (k : CtxKey) :
    (s.retryExpiry k).but l = s.but l := by
  simp only [State.retryExpiry]
  (repeat' split) <;> simp [h]

@[simp] theorem State.goOn_but {l : List Block} (h : .freeCount ∈ l ∧ .out ∈ l ∧ .hly ∈ l ∧ .adm ∈ l ∧ .obf ∈ l ∧ .rte ∈ l ∧ .trn ∈ l ∧ .pool ∈ l ∧
    .mec ∈ l ∧ .mtc ∈ l ∧ .rdx ∈ l ∧ .ins ∈ l ∧ .mpu ∈ l ∧ .msix ∈ l ∧ .flt ∈ l ∧ .ttc ∈ l ∧ .mgc ∈ l) (s : State) (i : Instr) :
    (s.goOn i).but l = s.but l := by
  simp only [State.goOn]
  split <;> simp [h]

@[simp] theorem State.fetchDone_but {l : List Block} (h : .freeCount ∈ l ∧ .out ∈ l ∧ .hly ∈ l ∧ .adm ∈ l ∧ .obf ∈ l ∧ .rte ∈ l ∧ .trn ∈ l ∧
    .pool ∈ l ∧ .mec ∈ l ∧ .mtc ∈ l ∧ .rdx ∈ l ∧ .ins ∈ l ∧ .mpu ∈ l ∧ .msix ∈ l ∧ .flt ∈ l ∧ .ttc ∈ l ∧ .mgc ∈ l) (s : State) (k : CtxKey) (half :
    Nat) : (s.fetchDone k half).but l = s.but l := by
  simp only [State.fetchDone]
  split <;> simp [h]

@[simp] theorem State.lateSend_but {l : List Block} (h : .freeCount ∈ l ∧ .out ∈ l ∧ .adm ∈ l ∧ .obf ∈ l ∧ .rte ∈ l ∧ .trn ∈ l ∧ .mec ∈ l ∧
    .mtc ∈ l ∧ .ins ∈ l ∧ .msix ∈ l ∧ .flt ∈ l ∧ .ttc ∈ l) (s : State) (k : CtxKey) : (s.lateSend k).but l = s.but l := by
  rw [State.lateSend]
  split
  · rfl
  · split
    · rfl
    · split
      · rfl
      · split
        · next e => simp [but_snd e, h]
        · next e => simp [but_snd e, h]

/-! ### Ports -/

@[simp] theorem State.setMode_but {l : List Block} (h : .out ∈ l ∧ .egs ∈ l ∧ .prt ∈ l) (s : State) (p mode width maxRate : Nat) (lead : Bool) :
    (s.setMode p mode width maxRate lead).but l = s.but l := by
  simp only [State.setMode]
  split <;> simp [h]

@[simp] theorem State.substOver_but {l : List Block} (h : .out ∈ l ∧ .masthead ∈ l ∧ .hly ∈ l ∧ .ftu ∈ l ∧ .obf ∈ l ∧ .trn ∈ l ∧ .prt ∈ l ∧
    .ins ∈ l ∧ .msix ∈ l ∧ .pwr ∈ l ∧ .flt ∈ l ∧ .ttc ∈ l) (s : State) (p : Nat) : (s.substOver p).but l = s.but l := by
  simp [State.substOver, h]

@[simp] theorem State.detected_but {l : List Block} (h : .out ∈ l ∧ .masthead ∈ l ∧ .hly ∈ l ∧ .ftu ∈ l ∧ .obf ∈ l ∧ .trn ∈ l ∧ .prt ∈ l ∧ .ins ∈ l ∧
    .msix ∈ l ∧ .pwr ∈ l ∧ .flt ∈ l ∧ .ttc ∈ l) (s : State) (ls : Nat) : (s.detected ls).but l = s.but l := by
  simp [State.detected, h]

@[simp] theorem State.lostLane_but {l : List Block} (h : .out ∈ l ∧ .masthead ∈ l ∧ .hly ∈ l ∧ .ftu ∈ l ∧ .obf ∈ l ∧ .lnk ∈ l ∧ .trn ∈ l ∧ .prt ∈ l ∧
    .ins ∈ l ∧ .msix ∈ l ∧ .pwr ∈ l ∧ .flt ∈ l ∧ .ttc ∈ l) (s : State) (ls src : Nat) : (s.lostLane ls src).but l = s.but l := by
  simp [State.lostLane, h]

@[simp] theorem State.lostCodeword_but {l : List Block} (h : .out ∈ l ∧ .lnk ∈ l ∧ .prt ∈ l ∧ .ins ∈ l ∧ .msix ∈ l ∧ .flt ∈ l ∧ .ttc ∈ l) (s :
    State) (p : Nat) : (s.lostCodeword p).but l = s.but l := by
  simp [State.lostCodeword, h]

@[simp] theorem State.settleEqualise_but {l : List Block} (h : .out ∈ l ∧ .prt ∈ l) (s : State) (p : Nat) : (s.settleEqualise p).but l = s.but l := by
  simp [State.settleEqualise, h]

@[simp] theorem State.leaveSync_but {l : List Block} (h : .out ∈ l ∧ .prt ∈ l) (s : State) (p : Nat) : (s.leaveSync p).but l = s.but l := by
  simp [State.leaveSync, h]

@[simp] theorem State.rxSequence_but {l : List Block} (h : .out ∈ l ∧ .prt ∈ l ∧ .ins ∈ l ∧ .msix ∈ l ∧ .flt ∈ l ∧ .ttc ∈ l) (s : State) (lane :
    Nat) (q : TrainSeq) : (s.rxSequence lane q).but l = s.but l := by
  simp only [State.rxSequence]
  (repeat' split) <;> simp [h]

/-! ### Power, slots and modes -/

@[simp] theorem State.keepSail_but {l : List Block} (h : .prt ∈ l) (s : State) : (s.keepSail).but l = s.but l := by
  simp [State.keepSail, h]

@[simp] theorem State.releaseFeed_but {l : List Block} (h : .out ∈ l ∧ .ins ∈ l ∧ .msix ∈ l ∧ .pwr ∈ l ∧ .flt ∈ l ∧ .ttc ∈ l) (s : State) (feed :
    Nat) : (s.releaseFeed feed).but l = s.but l := by
  simp [State.releaseFeed, h]

@[simp] theorem State.powerGood_but {l : List Block} (h : .out ∈ l ∧ .pool ∈ l ∧ .ins ∈ l ∧ .msix ∈ l ∧ .pwr ∈ l ∧ .flt ∈ l ∧ .ttc ∈ l) (s : State)
    (c : Nat) : (s.powerGood c).but l = s.but l := by
  simp [State.powerGood, h]

@[simp] theorem State.upDomain_but {l : List Block} (h : .pwr ∈ l) (s : State) (d : Nat) (f : Domain → Domain) : (s.upDomain d f).but l = s.but l :=
    by
  simp [State.upDomain, h]

@[simp] theorem State.wantDomain_but {l : List Block} (h : .pwr ∈ l) (s : State) (d : Nat) : (s.wantDomain d).but l = s.but l := by
  simp only [State.wantDomain]
  split <;> simp [h]

@[simp] theorem State.turnAway_but {l : List Block} (h : .freeCount ∈ l ∧ .out ∈ l ∧ .adm ∈ l ∧ .obf ∈ l ∧ .rte ∈ l ∧ .trn ∈ l ∧ .mec ∈ l ∧
    .mtc ∈ l ∧ .ins ∈ l ∧ .msix ∈ l ∧ .pwr ∈ l ∧ .flt ∈ l ∧ .ttc ∈ l) (s : State) (domain : Nat) (p : Packet) :
    (s.turnAway domain p).but l = s.but l := by
  simp [State.turnAway, h]

@[simp] theorem State.domainsReady_but {l : List Block} (h : .out ∈ l ∧ .hly ∈ l ∧ .obf ∈ l ∧ .trn ∈ l ∧ .ins ∈ l ∧ .msix ∈ l) (s : State) :
    (s.domainsReady).but l = s.but l := by
  rw [State.domainsReady]
  split
  · refine foldl_but (fun s g => ?_) _ _
    split <;> simp [h]
  · rfl

/-! ### Firmware and boot -/

@[simp] theorem State.mgmtStart_but {l : List Block} (h : .hly ∈ l ∧ .mpu ∈ l ∧ .icu ∈ l ∧ .mgc ∈ l) (s : State) (trigger : Nat) :
    (s.mgmtStart trigger).but l = s.but l := by
  simp [State.mgmtStart, h]

@[simp] theorem State.allOff_but {l : List Block} (h : .pwr ∈ l) (s : State) : (s.allOff).but l = s.but l := by
  simp [State.allOff, h]

@[simp] theorem State.sampleStraps_but {l : List Block} (h : .pwr ∈ l ∧ .mgc ∈ l) (s : State) (insdly smbaddr ppssel flash : Nat) :
    (s.sampleStraps insdly smbaddr ppssel flash).but l = s.but l := by
  simp [State.sampleStraps, h]

@[simp] theorem State.calibrate_but {l : List Block} (h : .out ∈ l ∧ .prt ∈ l ∧ .ins ∈ l ∧ .msix ∈ l ∧ .flt ∈ l ∧ .ttc ∈ l) (s : State)
    (failed baselines : List Nat) : (s.calibrate failed baselines).but l = s.but l := by
  simp [State.calibrate, h]

@[simp] theorem State.upFlash_but {l : List Block} (h : .mgc ∈ l) (s : State) (n : Nat) (f : FlashSlot → FlashSlot) :
    (s.upFlash n f).but l = s.but l := by
  simp [State.upFlash, h]

@[simp] theorem State.imageRuns_but {l : List Block} (h : .hly ∈ l ∧ .mpu ∈ l ∧ .mgc ∈ l) (s : State) (slot fwVersion : Nat) :
    (s.imageRuns slot fwVersion).but l = s.but l := by
  simp [State.imageRuns, h]

@[simp] theorem State.bootPort_but {l : List Block} (h : .out ∈ l ∧ .egs ∈ l ∧ .prt ∈ l) (s : State) (cfg : Nat → Nat × Nat × Nat) (p : Nat) :
    (s.bootPort cfg p).but l = s.but l := by
  simp [State.bootPort, h]

@[simp] theorem State.applyRepairs_but {l : List Block} (h : .flt ∈ l ∧ .mgc ∈ l) (s : State) : (s.applyRepairs).but l = s.but l := by
  simp [State.applyRepairs, h]

@[simp] theorem State.applyBoot_but {l : List Block} (h : .out ∈ l ∧ .egs ∈ l ∧ .prt ∈ l ∧ .pool ∈ l ∧ .ins ∈ l ∧ .icu ∈ l ∧ .msix ∈ l ∧ .pwr ∈ l ∧
    .flt ∈ l ∧ .ttc ∈ l ∧ .mgc ∈ l) (s : State) : (s.applyBoot).but l = s.but l := by
  simp [State.applyBoot, h]

@[simp] theorem State.mgmtEnds_but {l : List Block} (h : .waiting ∈ l ∧ .freeCount ∈ l ∧ .out ∈ l ∧ .hly ∈ l ∧ .adm ∈ l ∧ .obf ∈ l ∧ .rte ∈ l ∧
    .trn ∈ l ∧ .pool ∈ l ∧ .mec ∈ l ∧ .locks ∈ l ∧ .mtc ∈ l ∧ .rdx ∈ l ∧ .ins ∈ l ∧ .mpu ∈ l ∧ .msix ∈ l ∧ .flt ∈ l ∧ .ttc ∈ l ∧ .mgc ∈ l) (s :
    State) : (s.mgmtEnds).but l = s.but l := by
  simp [State.mgmtEnds, h]

/-! ### Buffers, egress and arbiters -/

@[simp] theorem State.reclaimOrphans_but {l : List Block} (h : .obf ∈ l) (s : State) : (s.reclaimOrphans).2.but l = s.but l := by
  exact foldl_snd_but (fun r e => by simp [apply_ite Prod.snd, h]) _ _

@[simp] theorem State.reclaimQueue_but {l : List Block} (h : .freeCount ∈ l ∧ .out ∈ l ∧ .adm ∈ l ∧ .obf ∈ l ∧ .rte ∈ l ∧ .lnk ∈ l ∧ .trn ∈ l ∧
    .ins ∈ l ∧ .msix ∈ l ∧ .flt ∈ l ∧ .ttc ∈ l) (s : State) (queue : Nat) : (s.reclaimQueue queue).2.but l = s.but l := by
  refine foldl_snd_but (fun r b => ?_) _ _
  dsimp only
  split <;> simp [h]

@[simp] theorem State.auditPass_but {l : List Block} (h : .out ∈ l ∧ .obf ∈ l ∧ .ins ∈ l ∧ .msix ∈ l ∧ .flt ∈ l ∧ .ttc ∈ l) (s : State) :
    (s.auditPass).but l = s.but l := by
  simp [State.auditPass, h]

@[simp] theorem State.unbindLeaf_but {l : List Block} (h : .egs ∈ l) (s : State) (queue : Nat) : (s.unbindLeaf queue).but l = s.but l := by
  simp [State.unbindLeaf, h]

@[simp] theorem State.upArb_but {l : List Block} (h : .arbs ∈ l) (s : State) (resource index : Nat) (f : Arb → Arb) :
    (s.upArb resource index f).but l = s.but l := by
  simp [State.upArb, h]

@[simp] theorem State.starve_but {l : List Block} (h : .arbs ∈ l ∧ .ttc ∈ l) (s : State) (resource index requester : Nat) :
    (s.starve resource index requester).but l = s.but l := by
  simp [State.starve, h]

@[simp] theorem State.enterSource_but {l : List Block} (h : .freeCount ∈ l ∧ .out ∈ l ∧ .adm ∈ l ∧ .obf ∈ l ∧ .rte ∈ l ∧ .trn ∈ l ∧ .mec ∈ l ∧
    .mtc ∈ l ∧ .ins ∈ l ∧ .msix ∈ l ∧ .flt ∈ l ∧ .ttc ∈ l) (s : State) (input : Nat) (p : Packet) (length : Nat) (preYellow first : Bool) :
    (s.enterSource input p length preYellow first).but l = s.but l := by
  rw [State.enterSource]
  split
  · next e => simp [but_snd e, h]
  · next e => simp [but_snd e, h]
  · next e => simp [but_snd e, h]

@[simp] theorem State.releaseEdge_but {l : List Block} (h : .freeCount ∈ l ∧ .out ∈ l ∧ .adm ∈ l ∧ .obf ∈ l ∧ .rte ∈ l ∧ .trn ∈ l ∧ .mec ∈ l ∧
    .mtc ∈ l ∧ .ins ∈ l ∧ .msix ∈ l ∧ .flt ∈ l ∧ .ttc ∈ l) (s : State) (pid : Nat) : (s.releaseEdge pid).but l = s.but l := by
  rw [State.releaseEdge]
  split
  · split
    · next e => simp [but_snd e, h]
    · next e => simp [but_snd e, h]
  · split <;> simp [h]

/-! ### Admission -/

@[simp] theorem State.settlePorts_but {l : List Block} (h : .adm ∈ l ∧ .flt ∈ l) (s : State) (bitmap : Nat) :
    (s.settlePorts bitmap).but l = s.but l := by
  simp [State.settlePorts, h]

@[simp] theorem State.wantAll_but {l : List Block} (h : .pwr ∈ l) (s : State) : (s.wantAll).but l = s.but l := by
  simp [State.wantAll, h]

@[simp] theorem State.releaseResv_but {l : List Block} (h : .adm ∈ l ∧ .obf ∈ l ∧ .flt ∈ l) (s : State) (resvId : Nat) (r : Resv) :
    (s.releaseResv resvId r).but l = s.but l := by
  simp [State.releaseResv, h]

/-! ### Routing -/

@[simp] theorem State.upBank_but {l : List Block} (h : .rte ∈ l) (s : State) (b : Nat) (f : Bank → Bank) : (s.upBank b f).but l = s.but l := by
  simp [State.upBank, h]

@[simp] theorem State.upTables_but {l : List Block} (h : .rte ∈ l) (s : State) (tile b : Nat) (f : RouteTables → RouteTables) :
    (s.upTables tile b f).but l = s.but l := by
  simp [State.upTables, h]

@[simp] theorem State.dropTree_but {l : List Block} (h : .rte ∈ l) (s : State) (tree : Nat) : (s.dropTree tree).but l = s.but l := by
  simp [State.dropTree, h]

@[simp] theorem State.sendUnreachable_but {l : List Block} (h : .out ∈ l ∧ .obf ∈ l ∧ .trn ∈ l) (s : State) (ports : List Nat) :
    (s.sendUnreachable ports).but l = s.but l := by
  simp [State.sendUnreachable, h]

@[simp] theorem State.directed_but {l : List Block} (h : .out ∈ l ∧ .obf ∈ l ∧ .trn ∈ l ∧ .ttc ∈ l) (s : State) (port hopCount hopPtr : Nat) (ports :
    RoutePorts) (message : List Nat) : (s.directed port hopCount hopPtr ports message).but l = s.but l := by
  simp [State.directed, h]

/-! ### The pool -/

@[simp] theorem State.bindExtent_but {l : List Block} (h : .pool ∈ l ∧ .dir ∈ l) (s : State) (b : BindP) (k : Nat) :
    (s.bindExtent b k).but l = s.but l := by
  simp [State.bindExtent, h]

@[simp] theorem State.zeroed_but {l : List Block} (h : .out ∈ l ∧ .hly ∈ l ∧ .obf ∈ l ∧ .trn ∈ l ∧ .pool ∈ l ∧ .dir ∈ l ∧ .mec ∈ l ∧ .ins ∈ l ∧
    .msix ∈ l ∧ .flt ∈ l) (s : State) (hd : Nat) : (s.zeroed hd).but l = s.but l := by
  rw [State.zeroed]
  dsimp only
  (repeat' split) <;> try simp [h]
  all_goals
    rw [foldl_but (fun s g => by (repeat' split) <;> simp [h])]
    simp [h]

@[simp] theorem State.unbindExtent_but {l : List Block} (h : .out ∈ l ∧ .pool ∈ l) (s : State) (zero : Bool) (hd : Nat) :
    (s.unbindExtent zero hd).but l = s.but l := by
  simp [State.unbindExtent, h]

@[simp] theorem State.upFn_but {l : List Block} (h : .pool ∈ l) (s : State) (port rid : Nat) (f : BoundFn → BoundFn) :
    (s.upFn port rid f).but l = s.but l := by
  simp [State.upFn, h]

@[simp] theorem State.resetFunction_but {l : List Block} (h : .out ∈ l ∧ .pool ∈ l) (s : State) (f : BoundFn) (late : Bool) :
    (s.resetFunction f late).but l = s.but l := by
  simp [State.resetFunction, h]

/-! ### Directories -/

@[simp] theorem State.closeRecall_but {l : List Block} (h : .out ∈ l ∧ .hly ∈ l ∧ .obf ∈ l ∧ .trn ∈ l ∧ .dir ∈ l ∧ .ins ∈ l ∧ .msix ∈ l) (s : State)
    (id : Nat) : (s.closeRecall id).but l = s.but l := by
  simp [State.closeRecall, h]

@[simp] theorem State.mapCoherent_but {l : List Block} (h : .pool ∈ l) (s : State) (inst slot hd : Nat) :
    (s.mapCoherent inst slot hd).but l = s.but l := by
  simp [State.mapCoherent, h]

@[simp] theorem State.unmapCoherent_but {l : List Block} (h : .pool ∈ l) (s : State) (inst slot hd : Nat) :
    (s.unmapCoherent inst slot hd).but l = s.but l := by
  simp [State.unmapCoherent, h]

@[simp] theorem State.takeRequest_but {l : List Block} (h : .out ∈ l ∧ .pool ∈ l ∧ .dir ∈ l ∧ .ins ∈ l ∧ .msix ∈ l ∧ .flt ∈ l ∧ .ttc ∈ l) (s :
    State) (hd line : Nat) (k : TrackKind) : (s.takeRequest hd line k).2.but l = s.but l := by
  simp only [State.takeRequest]
  (repeat' split) <;> simp [h]

@[simp] theorem State.bankTurn_but {l : List Block} (h : .dir ∈ l) (s : State) (hd line pos : Nat) : (s.bankTurn hd line pos).but l = s.but l := by
  simp [State.bankTurn, h]

@[simp] theorem State.endWbWait_but {l : List Block} (h : .out ∈ l ∧ .pool ∈ l ∧ .dir ∈ l ∧ .ins ∈ l ∧ .msix ∈ l ∧ .flt ∈ l ∧ .ttc ∈ l) (s : State)
    (hd line : Nat) (a : Option Nat) : (s.endWbWait hd line a).but l = s.but l := by
  simp only [State.endWbWait]
  (repeat' split) <;> simp [h]

@[simp] theorem State.dirRequest_but {l : List Block} (h : .waiting ∈ l ∧ .out ∈ l ∧ .pool ∈ l ∧ .dir ∈ l ∧ .ins ∈ l ∧ .msix ∈ l ∧ .flt ∈ l ∧
    .ttc ∈ l) (s : State) (hd line : Nat) (who : Option Nat) (k : TrackKind) (again : Instr) : (s.dirRequest hd line who k again).but l = s.but l :=
    by
  rw [State.dirRequest]
  split
  · next e => simp [but_snd e, h]
  · next e => rw [State.setWaiting_but (by simp [h])]; simp [but_snd e, h]

@[simp] theorem State.cohRefused_but {l : List Block} (h : .out ∈ l ∧ .pool ∈ l) (s : State) (agent : Option Nat) (hd line : Nat) :
    (s.cohRefused agent hd line).but l = s.but l := by
  simp only [State.cohRefused]
  (repeat' split) <;> simp [h]

@[simp] theorem State.cohRequest_but {l : List Block} (h : .waiting ∈ l ∧ .out ∈ l ∧ .pool ∈ l ∧ .dir ∈ l ∧ .ins ∈ l ∧ .msix ∈ l ∧ .flt ∈ l ∧
    .ttc ∈ l) (s : State) (agent : Option Nat) (hd line : Nat) (op : CohOp) (offset : Nat) (data : List Nat) :
    (s.cohRequest agent hd line op offset data).but l = s.but l := by
  simp [State.cohRequest, h]

@[simp] theorem State.keepState_but {l : List Block} (h : .dir ∈ l) (s : State) (hd line a keep : Nat) :
    (s.keepState hd line a keep).but l = s.but l := by
  simp [State.keepState, h]

@[simp] theorem State.takeWriteback_but {l : List Block} (h : .out ∈ l ∧ .pool ∈ l ∧ .dir ∈ l ∧ .ins ∈ l ∧ .msix ∈ l ∧ .flt ∈ l ∧ .ttc ∈ l) (s :
    State) (a hd line keep : Nat) (data : List Nat) : (s.takeWriteback a hd line keep data).but l = s.but l := by
  simp [State.takeWriteback, h]

@[simp] theorem State.lineWritten_but {l : List Block} (h : .out ∈ l ∧ .pool ∈ l ∧ .dir ∈ l ∧ .ins ∈ l ∧ .msix ∈ l ∧ .flt ∈ l ∧ .ttc ∈ l) (s :
    State) (hd line : Nat) : (s.lineWritten hd line).but l = s.but l := by
  simp only [State.lineWritten]
  split <;> simp [h]

@[simp] theorem State.otherResponse_but {l : List Block} (h : .out ∈ l ∧ .pool ∈ l ∧ .dir ∈ l ∧ .ins ∈ l ∧ .msix ∈ l ∧ .flt ∈ l ∧ .ttc ∈ l) (s :
    State) (a hd line : Nat) (form : SnoopForm) : (s.otherResponse a hd line form).but l = s.but l := by
  simp [State.otherResponse, h]

@[simp] theorem State.ownerResponse_but {l : List Block} (h : .out ∈ l ∧ .pool ∈ l ∧ .dir ∈ l ∧ .ins ∈ l ∧ .msix ∈ l ∧ .flt ∈ l ∧ .ttc ∈ l) (s :
    State) (a hd line : Nat) (n : Snoop) (form : SnoopForm) (data : List Nat) : (s.ownerResponse a hd line n form data).but l = s.but l := by
  simp only [State.ownerResponse]
  split <;> simp [h]

@[simp] theorem State.snoopResponse_but {l : List Block} (h : .out ∈ l ∧ .pool ∈ l ∧ .dir ∈ l ∧ .ins ∈ l ∧ .msix ∈ l ∧ .flt ∈ l ∧ .ttc ∈ l) (s :
    State) (a hd line : Nat) (form : SnoopForm) (data : List Nat) : (s.snoopResponse a hd line form data).but l = s.but l := by
  simp only [State.snoopResponse]
  (repeat' split) <;> simp [h]

@[simp] theorem State.recallStep_but {l : List Block} (h : .out ∈ l ∧ .hly ∈ l ∧ .obf ∈ l ∧ .trn ∈ l ∧ .pool ∈ l ∧ .dir ∈ l ∧ .ins ∈ l ∧ .msix ∈ l ∧
    .flt ∈ l ∧ .ttc ∈ l) (s : State) (r : Recall) : (s.recallStep r).but l = s.but l := by
  have steps : ∀ t : State, ((List.range r.todo.length).foldl (fun s _ =>
      match (s.dir.recalls.find? fun x => x.id == r.id) with
      | none => s
      | some x =>
        let t := s.placeRecall r.id
        match t.dir.recalls.find? fun y => y.id == r.id with
        | some y => match x.todo.find? fun k => !y.todo.contains k with
          | some k => t.runLine (k / extentLines) (k % extentLines)
          | none => s
        | none => s) t).but l = t.but l := by
    refine fun t => foldl_but (fun s x => ?_) _ _
    split
    · rfl
    · dsimp only
      (repeat' split) <;> simp [h]
  rw [State.recallStep]
  dsimp only at steps ⊢
  generalize he : List.foldl _ s _ = t
  have ht : t.but l = s.but l := he ▸ steps s
  (repeat' split) <;> simp [ht, h]

/-! ### Host memory and imports -/

@[simp] theorem State.refuseImport_but {l : List Block} (h : .out ∈ l ∧ .mec ∈ l ∧ .ins ∈ l ∧ .msix ∈ l) (s : State) (r : WinReq) (reason : Nat) :
    (s.refuseImport r reason).but l = s.but l := by
  simp [State.refuseImport, h]

@[simp] theorem State.importAccess_but {l : List Block} (h : .waiting ∈ l ∧ .freeCount ∈ l ∧ .out ∈ l ∧ .adm ∈ l ∧ .obf ∈ l ∧ .rte ∈ l ∧ .trn ∈ l ∧
    .pool ∈ l ∧ .mec ∈ l ∧ .mtc ∈ l ∧ .ins ∈ l ∧ .msix ∈ l ∧ .flt ∈ l ∧ .ttc ∈ l) (s : State) (x : Import) (r : WinReq) (data : List Nat) (again :
    Instr) : (s.importAccess x r data again).but l = s.but l := by
  rw [State.importAccess]
  split
  · rw [State.setWaiting_but (by simp [h])]
  · dsimp only
    split
    · simp [h]
    · split
      · next e => simp [but_snd e, h]
      · next e => simp [but_snd e, h]
      · next e => simp [but_snd e, h]

@[simp] theorem State.localAccess_but {l : List Block} (h : .out ∈ l ∧ .pool ∈ l ∧ .flt ∈ l) (s : State) (i hd o n : Nat) (write posted : Bool)
    (data : List Nat) : (s.localAccess i hd o n write posted data).but l = s.but l := by
  simp [State.localAccess, h]

@[simp] theorem State.uncachedAccess_but {l : List Block} (h : .waiting ∈ l ∧ .out ∈ l ∧ .pool ∈ l ∧ .dir ∈ l ∧ .ins ∈ l ∧ .msix ∈ l ∧ .flt ∈ l ∧
    .ttc ∈ l) (s : State) (hd o n : Nat) (write : Bool) (data : List Nat) : (s.uncachedAccess hd o n write data).but l = s.but l := by
  simp [State.uncachedAccess, h]

@[simp] theorem State.hostAccess_but {l : List Block} (h : .waiting ∈ l ∧ .freeCount ∈ l ∧ .out ∈ l ∧ .adm ∈ l ∧ .obf ∈ l ∧ .rte ∈ l ∧ .trn ∈ l ∧
    .pool ∈ l ∧ .dir ∈ l ∧ .mec ∈ l ∧ .mtc ∈ l ∧ .ins ∈ l ∧ .msix ∈ l ∧ .flt ∈ l ∧ .ttc ∈ l) (s : State) (i address length : Nat) (write posted cxl :
    Bool) (data : List Nat) (again : Instr) : (s.hostAccess i address length write posted cxl data again).but l = s.but l := by
  simp only [State.hostAccess]
  (repeat' split) <;> simp [h]

@[simp] theorem State.windowRsp_but {l : List Block} (h : .freeCount ∈ l ∧ .out ∈ l ∧ .adm ∈ l ∧ .obf ∈ l ∧ .rte ∈ l ∧ .trn ∈ l ∧ .mec ∈ l ∧
    .mtc ∈ l ∧ .ins ∈ l ∧ .msix ∈ l ∧ .flt ∈ l ∧ .ttc ∈ l) (s : State) (opcode dest inst sl : Nat) (w : WinF) (data : List Nat) :
    (s.windowRsp opcode dest inst sl w data).but l = s.but l := by
  simp [State.windowRsp, h]

@[simp] theorem State.serveWread_but {l : List Block} (h : .freeCount ∈ l ∧ .out ∈ l ∧ .adm ∈ l ∧ .obf ∈ l ∧ .rte ∈ l ∧ .trn ∈ l ∧ .mec ∈ l ∧
    .mtc ∈ l ∧ .ins ∈ l ∧ .msix ∈ l ∧ .flt ∈ l ∧ .ttc ∈ l) (s : State) (device inst sl : Nat) (w : WinF) :
    (s.serveWread device inst sl w).but l = s.but l := by
  simp only [State.serveWread]
  split <;> simp [h]

@[simp] theorem State.serveWwrite_but {l : List Block} (h : .freeCount ∈ l ∧ .out ∈ l ∧ .adm ∈ l ∧ .obf ∈ l ∧ .rte ∈ l ∧ .trn ∈ l ∧ .pool ∈ l ∧
    .mec ∈ l ∧ .mtc ∈ l ∧ .ins ∈ l ∧ .msix ∈ l ∧ .flt ∈ l ∧ .ttc ∈ l) (s : State) (device inst sl : Nat) (w : WinF) (data : List Nat) :
    (s.serveWwrite device inst sl w data).but l = s.but l := by
  simp only [State.serveWwrite]
  split <;> simp [h]

@[simp] theorem State.windowDone_but {l : List Block} (h : .out ∈ l ∧ .hly ∈ l ∧ .obf ∈ l ∧ .trn ∈ l ∧ .pool ∈ l ∧ .ins ∈ l ∧ .msix ∈ l) (s : State)
    (i : Nat) (w : WinF) (write : Option Bool) (f : WinReq → State → State)
    (hf : ∀ (r : WinReq) (s : State), (f r s).but l = s.but l) : (s.windowDone i w write f).but l = s.but l := by
  rw [State.windowDone]
  split <;> simp [hf, h]

/-! ### Queues and engines -/

@[simp] theorem State.addQueue_but {l : List Block} (h : .mec ∈ l ∧ .pwr ∈ l) (s : State) (q : QueueP) : (s.addQueue q).but l = s.but l := by
  simp only [State.addQueue]
  split <;> simp [h]

@[simp] theorem State.flushTriggers_but {l : List Block} (h : .out ∈ l ∧ .mec ∈ l ∧ .ins ∈ l ∧ .msix ∈ l) (s : State) (q : Nat) :
    (s.flushTriggers q).but l = s.but l := by
  simp [State.flushTriggers, h]

@[simp] theorem State.flushPosted_but {l : List Block} (h : .out ∈ l ∧ .mec ∈ l ∧ .mtc ∈ l ∧ .ins ∈ l ∧ .msix ∈ l) (s : State) (q : Nat) :
    (s.flushPosted q).but l = s.but l := by
  simp [State.flushPosted, h]

@[simp] theorem State.ignoreDoorbell_but {l : List Block} (h : .mec ∈ l ∧ .ttc ∈ l) (s : State) (i : Nat) : (s.ignoreDoorbell i).but l = s.but l := by
  simp [State.ignoreDoorbell, h]

@[simp] theorem State.recvQueueError_but {l : List Block} (h : .out ∈ l ∧ .mec ∈ l ∧ .ins ∈ l ∧ .msix ∈ l) (s : State) (q status : Nat) :
    (s.recvQueueError q status).but l = s.but l := by
  simp only [State.recvQueueError]
  split <;> simp [h]

@[simp] theorem State.ring_but {l : List Block} {s : State} (hw : s.mayWake l) (i : Nat) (f : State → State)
    (hf : ∀ s : State, (f s).but l = s.but l) : (s.ring i f).but l = s.but l := by
  rw [State.ring]
  (repeat' split) <;> simp [hf, hw]

@[simp] theorem State.sendDoorbell_but {l : List Block} (h : .out ∈ l ∧ .mec ∈ l ∧ .ins ∈ l ∧ .msix ∈ l ∧ .pwr ∈ l ∧ .ttc ∈ l) (s : State)
    (i q index : Nat) : (s.sendDoorbell i q index).but l = s.but l := by
  simp only [State.sendDoorbell]
  split <;> simp [h]

@[simp] theorem State.recvDoorbell_but {l : List Block} (h : .out ∈ l ∧ .mec ∈ l ∧ .ins ∈ l ∧ .msix ∈ l ∧ .ttc ∈ l) (s : State) (i q index : Nat) :
    (s.recvDoorbell i q index).but l = s.but l := by
  simp only [State.recvDoorbell]
  split <;> simp [h]

@[simp] theorem State.resumeCq_but {l : List Block} (h : .freeCount ∈ l ∧ .out ∈ l ∧ .mec ∈ l ∧ .ins ∈ l ∧ .msix ∈ l ∧ .ttc ∈ l) (s : State) (cq :
    Nat) : (s.resumeCq cq).but l = s.but l := by
  simp [State.resumeCq, h]

@[simp] theorem State.compDoorbell_but {l : List Block} (h : .freeCount ∈ l ∧ .out ∈ l ∧ .mec ∈ l ∧ .ins ∈ l ∧ .msix ∈ l ∧ .ttc ∈ l) (s : State)
    (i q index : Nat) (arm : Bool) : (s.compDoorbell i q index arm).but l = s.but l := by
  simp only [State.compDoorbell]
  split <;> simp [h]

/-! ### Operations of the engines -/

@[simp] theorem State.localOk_but {l : List Block} (h : .out ∈ l ∧ .ins ∈ l ∧ .mpu ∈ l ∧ .msix ∈ l ∧ .flt ∈ l ∧ .ttc ∈ l) (s : State) (o : OpSlot)
    (kind offset n : Nat) : (s.localOk o kind offset n).2.but l = s.but l := by
  simp only [State.localOk]
  split <;> simp [h]

@[simp] theorem State.localWrite_but {l : List Block} (h : .out ∈ l ∧ .pool ∈ l ∧ .ins ∈ l) (s : State) (o : OpSlot) (offset : Nat) (data :
    List Nat) : (s.localWrite o offset data).but l = s.but l := by
  simp [State.localWrite, h]

@[simp] theorem State.countVisit_but {l : List Block} (h : .mec ∈ l) (s : State) (q : Nat) (x : SendQueue) : (s.countVisit q x).but l = s.but l := by
  simp [State.countVisit, h]

theorem State.takeSlot_but {l : List Block} (h : .mec ∈ l) {s : State} {q : Nat} {x : SendQueue} {engine : Nat} {d : Desc} {triggered : Bool} {a :
    Nat} {t : State} (ht : s.takeSlot q x engine d triggered = some (a, t)) : t.but l = s.but l := by
  unfold State.takeSlot at ht
  generalize s.freeSlot engine = free at ht
  cases free with
  | none => cases ht
  | some tag => cases ht; simp [h]

@[simp] theorem State.unqueue_but {l : List Block} (h : .mec ∈ l) (s : State) (q tag : Nat) : (s.unqueue q tag).but l = s.but l := by
  simp [State.unqueue, h]

@[simp] theorem State.failStart_but {l : List Block} (h : .freeCount ∈ l ∧ .out ∈ l ∧ .mec ∈ l ∧ .mtc ∈ l ∧ .ins ∈ l ∧ .msix ∈ l ∧ .ttc ∈ l) (s :
    State) (q tag status : Nat) : (s.failStart q tag status).but l = s.but l := by
  simp [State.failStart, h]

@[simp] theorem State.takeDesc_but {l : List Block} (h : .waiting ∈ l ∧ .freeCount ∈ l ∧ .out ∈ l ∧ .mec ∈ l ∧ .mtc ∈ l ∧ .ins ∈ l ∧ .msix ∈ l ∧
    .ttc ∈ l) (s : State) (q : Nat) (x : SendQueue) (d : Desc) : (s.takeDesc q x d).but l = s.but l := by
  simp only [State.takeDesc]
  split
  · (repeat' split) <;> simp [h]
  · split
    · rfl
    · next e =>
      split
      · simp [State.takeSlot_but (l := l) (by simp [h]) e, h]
      · split
        · simp [State.takeSlot_but (l := l) (by simp [h]) e, h]
        · rw [State.setWaiting_but (by simp [h]), State.takeSlot_but (by simp [h]) e]

@[simp] theorem State.fetchDesc_but {l : List Block} (h : .waiting ∈ l ∧ .freeCount ∈ l ∧ .out ∈ l ∧ .mec ∈ l ∧ .mtc ∈ l ∧ .ins ∈ l ∧ .mpu ∈ l ∧
    .msix ∈ l ∧ .flt ∈ l ∧ .ttc ∈ l) (s : State) (q : Nat) (d : Desc) (readOk : Bool) : (s.fetchDesc q d readOk).but l = s.but l := by
  rw [State.fetchDesc]
  split
  · rfl
  · split
    · rfl
    · dsimp only
      split
      · next e => simp [but_snd e, h]
      · next e => (repeat' split) <;> simp [but_snd e, h]

@[simp] theorem State.fireTrigger_but {l : List Block} (h : .waiting ∈ l ∧ .freeCount ∈ l ∧ .out ∈ l ∧ .mec ∈ l ∧ .mtc ∈ l ∧ .ins ∈ l ∧ .msix ∈ l ∧
    .ttc ∈ l) (s : State) (engine : Nat) : (s.fireTrigger engine).but l = s.but l := by
  rw [State.fireTrigger]
  split
  · rfl
  · split
    · simp [h]
    · split
      · rfl
      · next e =>
        dsimp only
        split
        · simp [State.takeSlot_but (l := l) (by simp [h]) e, h]
        · rw [State.setWaiting_but (by simp [h])]; simp [State.takeSlot_but (l := l) (by simp [h]) e, h]

@[simp] theorem State.startOp_but {l : List Block} (h : .waiting ∈ l ∧ .mec ∈ l) (s : State) (q : Nat) (d : Desc) (op : Nat) (f :
    OpSlot → State → State)
    (hf : ∀ (o : OpSlot) (s : State), (f o s).but l = s.but l) : (s.startOp q d op f).but l = s.but l := by
  rw [State.startOp]
  split
  · split
    · rfl
    · split
      · rfl
      · split
        · rw [State.setWaiting_but (by simp [h])]
        · simp [hf, h]
  · rfl

@[simp] theorem State.withLocal_but {l : List Block} (h : .freeCount ∈ l ∧ .out ∈ l ∧ .mec ∈ l ∧ .mtc ∈ l ∧ .ins ∈ l ∧ .mpu ∈ l ∧ .msix ∈ l ∧
    .flt ∈ l ∧ .ttc ∈ l) (s : State) (o : OpSlot) (kind offset n : Nat) (f : State → State)
    (hf : ∀ s : State, (f s).but l = s.but l) : (s.withLocal o kind offset n f).but l = s.but l := by
  rw [State.withLocal]
  split
  · next e => simp [hf, but_snd e, h]
  · next e => simp [but_snd e, h]

@[simp] theorem State.launch_but {l : List Block} (h : .freeCount ∈ l ∧ .out ∈ l ∧ .adm ∈ l ∧ .obf ∈ l ∧ .rte ∈ l ∧ .trn ∈ l ∧ .mec ∈ l ∧ .mtc ∈ l ∧
    .ins ∈ l ∧ .msix ∈ l ∧ .flt ∈ l ∧ .ttc ∈ l) (s : State) (o : OpSlot) (p : SentPkt) : (s.launch o p).but l = s.but l := by
  rw [State.launch]
  split
  · split
    · simp [h]
    · split
      · next e => simp [but_snd e, h]
      · next e => simp [but_snd e, h]
  · simp [h]

@[simp] theorem State.sendOp_but {l : List Block} (h : .freeCount ∈ l ∧ .out ∈ l ∧ .adm ∈ l ∧ .obf ∈ l ∧ .rte ∈ l ∧ .trn ∈ l ∧ .mec ∈ l ∧ .mtc ∈ l ∧
    .ins ∈ l ∧ .msix ∈ l ∧ .flt ∈ l ∧ .ttc ∈ l) (s : State) (o : OpSlot) (opcode payload : Nat) (carries : Bool) (fields data : List Nat)
    (first last : Bool) (src : Option Source) : (s.sendOp o opcode payload carries fields data first last src).but l = s.but l := by
  simp only [State.sendOp]
  generalize (ite (o.d.multicast = true) _ _ : Hdr) = g
  split
  · simp [h]
  · split
    · split <;> next e => simp [but_snd e, h]
    · simp [h]

@[simp] theorem State.sendPart_but {l : List Block} (h : .freeCount ∈ l ∧ .out ∈ l ∧ .adm ∈ l ∧ .obf ∈ l ∧ .rte ∈ l ∧ .trn ∈ l ∧ .mec ∈ l ∧
    .mtc ∈ l ∧ .ins ∈ l ∧ .msix ∈ l ∧ .flt ∈ l ∧ .ttc ∈ l) (s : State) (o : OpSlot) (opcode offset : Nat) (data : List Nat) (src : Option Source) :
    (s.sendPart o opcode offset data src).but l = s.but l := by
  simp [State.sendPart, h]

@[simp] theorem State.sendHeap_but {l : List Block} (h : .freeCount ∈ l ∧ .out ∈ l ∧ .adm ∈ l ∧ .obf ∈ l ∧ .rte ∈ l ∧ .trn ∈ l ∧ .mec ∈ l ∧
    .mtc ∈ l ∧ .ins ∈ l ∧ .msix ∈ l ∧ .flt ∈ l ∧ .ttc ∈ l) (s : State) (o : OpSlot) (opcode offset fuel : Nat) :
    (s.sendHeap o opcode offset fuel).but l = s.but l := by
  induction fuel generalizing s offset with
  | zero => rfl
  | succ fuel ih =>
    rw [State.sendHeap]
    (repeat' split) <;> simp [ih, h]

@[simp] theorem State.sendDataOp_but {l : List Block} (h : .freeCount ∈ l ∧ .out ∈ l ∧ .adm ∈ l ∧ .obf ∈ l ∧ .rte ∈ l ∧ .trn ∈ l ∧ .mec ∈ l ∧
    .mtc ∈ l ∧ .ins ∈ l ∧ .msix ∈ l ∧ .flt ∈ l ∧ .ttc ∈ l) (s : State) (o : OpSlot) (opcode : Nat) : (s.sendData_ o opcode).but l = s.but l := by
  simp [State.sendData_, h]

@[simp] theorem State.startPut_but {l : List Block} (h : .freeCount ∈ l ∧ .out ∈ l ∧ .adm ∈ l ∧ .obf ∈ l ∧ .rte ∈ l ∧ .trn ∈ l ∧ .mec ∈ l ∧
    .mtc ∈ l ∧ .ins ∈ l ∧ .mpu ∈ l ∧ .msix ∈ l ∧ .flt ∈ l ∧ .ttc ∈ l) (s : State) (o : OpSlot) : (s.startPut o).but l = s.but l := by
  simp [State.startPut, h]

@[simp] theorem State.sendAtomic_but {l : List Block} (h : .freeCount ∈ l ∧ .out ∈ l ∧ .adm ∈ l ∧ .obf ∈ l ∧ .rte ∈ l ∧ .trn ∈ l ∧ .mec ∈ l ∧
    .mtc ∈ l ∧ .ins ∈ l ∧ .msix ∈ l ∧ .flt ∈ l ∧ .ttc ∈ l) (s : State) (o : OpSlot) (a b : Nat) (src : Option Source) :
    (s.sendAtomic o a b src).but l = s.but l := by
  simp [State.sendAtomic, h]

@[simp] theorem State.startAtomic_but {l : List Block} (h : .freeCount ∈ l ∧ .out ∈ l ∧ .adm ∈ l ∧ .obf ∈ l ∧ .rte ∈ l ∧ .trn ∈ l ∧ .mec ∈ l ∧
    .mtc ∈ l ∧ .ins ∈ l ∧ .mpu ∈ l ∧ .msix ∈ l ∧ .flt ∈ l ∧ .ttc ∈ l) (s : State) (o : OpSlot) : (s.startAtomic o).but l = s.but l := by
  rw [State.startAtomic]
  split
  · refine State.withLocal_but (by simp [h]) _ _ _ _ _ _ fun t => ?_
    refine State.withLocal_but (by simp [h]) _ _ _ _ _ _ fun u => ?_
    split <;> simp [h]
  · simp [h]

@[simp] theorem State.takeMsn_but {l : List Block} (h : .freeCount ∈ l ∧ .out ∈ l ∧ .adm ∈ l ∧ .obf ∈ l ∧ .rte ∈ l ∧ .trn ∈ l ∧ .ins ∈ l ∧
    .msix ∈ l ∧ .flt ∈ l ∧ .ttc ∈ l) (s : State) (k : CtxKey) (sl : Nat) : (s.takeMsn k sl).2.but l = s.but l := by
  simp [State.takeMsn, h]

@[simp] theorem State.sendMessage_but {l : List Block} (h : .freeCount ∈ l ∧ .out ∈ l ∧ .adm ∈ l ∧ .obf ∈ l ∧ .rte ∈ l ∧ .trn ∈ l ∧ .mec ∈ l ∧
    .mtc ∈ l ∧ .ins ∈ l ∧ .msix ∈ l ∧ .flt ∈ l ∧ .ttc ∈ l) (s : State) (o : OpSlot) : (s.sendMessage o).but l = s.but l := by
  simp [State.sendMessage, h]

@[simp] theorem State.startMessage_but {l : List Block} (h : .freeCount ∈ l ∧ .out ∈ l ∧ .adm ∈ l ∧ .obf ∈ l ∧ .rte ∈ l ∧ .trn ∈ l ∧ .mec ∈ l ∧
    .mtc ∈ l ∧ .ins ∈ l ∧ .mpu ∈ l ∧ .msix ∈ l ∧ .flt ∈ l ∧ .ttc ∈ l) (s : State) (o : OpSlot) : (s.startMessage o).but l = s.but l := by
  simp [State.startMessage, h]

@[simp] theorem State.startLock_but {l : List Block} (h : .freeCount ∈ l ∧ .out ∈ l ∧ .adm ∈ l ∧ .obf ∈ l ∧ .rte ∈ l ∧ .trn ∈ l ∧ .mec ∈ l ∧
    .mtc ∈ l ∧ .ins ∈ l ∧ .msix ∈ l ∧ .flt ∈ l ∧ .ttc ∈ l) (s : State) (o : OpSlot) : (s.startLock o).but l = s.but l := by
  simp [State.startLock, h]

/-! ### Arrivals at the engines -/

@[simp] theorem State.dropPut_but {l : List Block} (h : .mec ∈ l) (s : State) (r : Req) (last : Bool) : (s.dropPut r last).but l = s.but l := by
  simp [State.dropPut, h]

@[simp] theorem State.refusePut_but {l : List Block} (h : .freeCount ∈ l ∧ .out ∈ l ∧ .adm ∈ l ∧ .obf ∈ l ∧ .rte ∈ l ∧ .trn ∈ l ∧ .mec ∈ l ∧
    .mtc ∈ l ∧ .ins ∈ l ∧ .msix ∈ l ∧ .flt ∈ l ∧ .ttc ∈ l) (s : State) (r : Req) (a : Access) (last : Bool) (status : Nat) :
    (s.refusePut r a last status).but l = s.but l := by
  simp [State.refusePut, h]

@[simp] theorem State.readDone_but {l : List Block} (h : .mec ∈ l ∧ .ins ∈ l ∧ .mpu ∈ l) (s : State) (tag i : Nat) :
    (s.readDone tag i).but l = s.but l := by
  simp [State.readDone, h]

@[simp] theorem State.getRest_but {l : List Block} (h : .freeCount ∈ l ∧ .out ∈ l ∧ .adm ∈ l ∧ .obf ∈ l ∧ .rte ∈ l ∧ .trn ∈ l ∧ .mec ∈ l ∧ .mtc ∈ l ∧
    .ins ∈ l ∧ .msix ∈ l ∧ .flt ∈ l ∧ .ttc ∈ l) (s : State) (p : PendRead) : (s.getRest p).but l = s.but l := by
  simp [State.getRest, h]

@[simp] theorem State.serveRead_but {l : List Block} (h : .freeCount ∈ l ∧ .out ∈ l ∧ .adm ∈ l ∧ .obf ∈ l ∧ .rte ∈ l ∧ .trn ∈ l ∧ .mec ∈ l ∧
    .mtc ∈ l ∧ .ins ∈ l ∧ .msix ∈ l ∧ .flt ∈ l ∧ .ttc ∈ l) (s : State) (p : PendRead) (values : List Nat) (bad : Bool) :
    (s.serveRead p values bad).but l = s.but l := by
  simp only [State.serveRead]
  (repeat' split) <;> simp [h]

@[simp] theorem State.feedOp_but {l : List Block} (h : .freeCount ∈ l ∧ .out ∈ l ∧ .adm ∈ l ∧ .obf ∈ l ∧ .rte ∈ l ∧ .trn ∈ l ∧ .mec ∈ l ∧ .mtc ∈ l ∧
    .ins ∈ l ∧ .msix ∈ l ∧ .flt ∈ l ∧ .ttc ∈ l) (s : State) (p : PendRead) (o : OpSlot) (values : List Nat) (bad : Bool) :
    (s.feedOp p o values bad).but l = s.but l := by
  simp [State.feedOp, h]

@[simp] theorem State.readReturns_but {l : List Block} (h : .freeCount ∈ l ∧ .out ∈ l ∧ .adm ∈ l ∧ .obf ∈ l ∧ .rte ∈ l ∧ .trn ∈ l ∧ .mec ∈ l ∧
    .mtc ∈ l ∧ .ins ∈ l ∧ .mpu ∈ l ∧ .msix ∈ l ∧ .flt ∈ l ∧ .ttc ∈ l) (s : State) (tag : Nat) (values : List Nat) (bad : Bool) :
    (s.readReturns tag values bad).but l = s.but l := by
  simp only [State.readReturns]
  (repeat' split) <;> simp [h]

@[simp] theorem State.answered_but {l : List Block} (s : State) (r : Rsp) (ops : List Nat) (f : OpSlot → State → State)
    (hf : ∀ (o : OpSlot) (s : State), (f o s).but l = s.but l) : (s.answered r ops f).but l = s.but l := by
  rw [State.answered]
  (repeat' split) <;> simp [hf]

@[simp] theorem State.refusedSend_but {l : List Block} (h : .freeCount ∈ l ∧ .out ∈ l ∧ .adm ∈ l ∧ .obf ∈ l ∧ .rte ∈ l ∧ .trn ∈ l ∧ .mec ∈ l ∧
    .mtc ∈ l ∧ .ins ∈ l ∧ .msix ∈ l ∧ .flt ∈ l ∧ .ttc ∈ l) (s : State) (o : OpSlot) : (s.refusedSend o).but l = s.but l := by
  simp [State.refusedSend, h]

@[simp] theorem State.serveRget_but {l : List Block} (h : .freeCount ∈ l ∧ .out ∈ l ∧ .adm ∈ l ∧ .obf ∈ l ∧ .rte ∈ l ∧ .trn ∈ l ∧ .mec ∈ l ∧
    .mtc ∈ l ∧ .ins ∈ l ∧ .msix ∈ l ∧ .flt ∈ l ∧ .ttc ∈ l) (s : State) (r : Req) (rvTag rvGen offset length : Nat) :
    (s.serveRget r rvTag rvGen offset length).but l = s.but l := by
  simp only [State.serveRget]
  split <;> simp [h]

@[simp] theorem State.rendezvousDone_but {l : List Block} (h : .freeCount ∈ l ∧ .out ∈ l ∧ .adm ∈ l ∧ .obf ∈ l ∧ .rte ∈ l ∧ .trn ∈ l ∧ .mec ∈ l ∧
    .mtc ∈ l ∧ .ins ∈ l ∧ .msix ∈ l ∧ .flt ∈ l ∧ .ttc ∈ l) (s : State) (m : Msg) (tag bytes : Nat) :
    (s.rendezvousDone m tag bytes).but l = s.but l := by
  simp [State.rendezvousDone, h]

/-! ### Matching and locks -/

@[simp] theorem State.upMtcCtx_but {l : List Block} (h : .mtc ∈ l) (s : State) (dev inst : Nat) (f : MtcCtx → MtcCtx) :
    (s.upMtcCtx dev inst f).but l = s.but l := by
  simp [State.upMtcCtx, h]

@[simp] theorem State.putMsg_but {l : List Block} (h : .mtc ∈ l) (s : State) (m : Msg) : (s.putMsg m).but l = s.but l := by
  simp [State.putMsg, h]

@[simp] theorem State.dropMsg_but {l : List Block} (h : .mtc ∈ l) (s : State) (m : Msg) : (s.dropMsg m).but l = s.but l := by
  simp [State.dropMsg, h]

@[simp] theorem State.useHeap_but {l : List Block} (h : .mec ∈ l) (s : State) (i : Nat) (f : Nat → Nat) : (s.useHeap i f).but l = s.but l := by
  simp [State.useHeap, h]

@[simp] theorem State.setHeap_but {l : List Block} (h : .mec ∈ l) (s : State) (m : Msg) (n : Nat) : (s.setHeap m n).2.but l = s.but l := by
  simp [State.setHeap, h]

@[simp] theorem State.place_but {l : List Block} (h : .out ∈ l ∧ .pool ∈ l ∧ .ins ∈ l) (s : State) (p : Posted) (m : Msg) (offset : Nat) (data :
    List Nat) : (s.place p m offset data).but l = s.but l := by
  simp [State.place, h]

@[simp] theorem State.ackMsg_but {l : List Block} (h : .freeCount ∈ l ∧ .out ∈ l ∧ .adm ∈ l ∧ .obf ∈ l ∧ .rte ∈ l ∧ .trn ∈ l ∧ .mec ∈ l ∧ .mtc ∈ l ∧
    .ins ∈ l ∧ .msix ∈ l ∧ .flt ∈ l ∧ .ttc ∈ l) (s : State) (m : Msg) : (s.ackMsg m).but l = s.but l := by
  simp [State.ackMsg, h]

@[simp] theorem State.finishEager_but {l : List Block} (h : .out ∈ l ∧ .mec ∈ l ∧ .mtc ∈ l ∧ .ins ∈ l ∧ .msix ∈ l) (s : State) (m : Msg) :
    (s.finishEager m).but l = s.but l := by
  simp only [State.finishEager]
  split <;> simp [h]

@[simp] theorem State.takeEager_but {l : List Block} (h : .freeCount ∈ l ∧ .out ∈ l ∧ .adm ∈ l ∧ .obf ∈ l ∧ .rte ∈ l ∧ .trn ∈ l ∧ .pool ∈ l ∧
    .mec ∈ l ∧ .mtc ∈ l ∧ .ins ∈ l ∧ .msix ∈ l ∧ .flt ∈ l ∧ .ttc ∈ l) (s : State) (m : Msg) (p : Posted) : (s.takeEager m p).but l = s.but l := by
  simp [State.takeEager, h]

@[simp] theorem State.takeRendezvous_but {l : List Block} (h : .freeCount ∈ l ∧ .out ∈ l ∧ .adm ∈ l ∧ .obf ∈ l ∧ .rte ∈ l ∧ .trn ∈ l ∧ .mec ∈ l ∧
    .mtc ∈ l ∧ .ins ∈ l ∧ .mpu ∈ l ∧ .msix ∈ l ∧ .flt ∈ l ∧ .ttc ∈ l) (s : State) (m : Msg) (p : Posted) : (s.takeRendezvous m p).but l = s.but l :=
    by
  rw [State.takeRendezvous]
  dsimp only
  (repeat' split) <;> try simp [h]
  all_goals next e => simp [but_snd e, h]

@[simp] theorem State.takeMsg_but {l : List Block} (h : .freeCount ∈ l ∧ .out ∈ l ∧ .adm ∈ l ∧ .obf ∈ l ∧ .rte ∈ l ∧ .trn ∈ l ∧ .pool ∈ l ∧
    .mec ∈ l ∧ .mtc ∈ l ∧ .ins ∈ l ∧ .mpu ∈ l ∧ .msix ∈ l ∧ .flt ∈ l ∧ .ttc ∈ l) (s : State) (m : Msg) (p : Posted) :
    (s.takeMsg m p).but l = s.but l := by
  simp [State.takeMsg, h]

@[simp] theorem State.retryRgets_but {l : List Block} (h : .freeCount ∈ l ∧ .out ∈ l ∧ .adm ∈ l ∧ .obf ∈ l ∧ .rte ∈ l ∧ .trn ∈ l ∧ .mec ∈ l ∧
    .mtc ∈ l ∧ .ins ∈ l ∧ .mpu ∈ l ∧ .msix ∈ l ∧ .flt ∈ l ∧ .ttc ∈ l) (s : State) : (s.retryRgets).but l = s.but l := by
  refine foldl_but (fun s x => ?_) _ _
  (repeat' split) <;> simp [h]

@[simp] theorem State.enterMatching_but {l : List Block} (h : .freeCount ∈ l ∧ .out ∈ l ∧ .adm ∈ l ∧ .obf ∈ l ∧ .rte ∈ l ∧ .trn ∈ l ∧ .pool ∈ l ∧
    .mec ∈ l ∧ .mtc ∈ l ∧ .ins ∈ l ∧ .mpu ∈ l ∧ .msix ∈ l ∧ .flt ∈ l ∧ .ttc ∈ l) (s : State) (m : Msg) : (s.enterMatching m).but l = s.but l := by
  simp only [State.enterMatching]
  split <;> simp [h]

@[simp] theorem State.advance_but {l : List Block} (h : .freeCount ∈ l ∧ .out ∈ l ∧ .adm ∈ l ∧ .obf ∈ l ∧ .rte ∈ l ∧ .trn ∈ l ∧ .pool ∈ l ∧
    .mec ∈ l ∧ .mtc ∈ l ∧ .ins ∈ l ∧ .mpu ∈ l ∧ .msix ∈ l ∧ .flt ∈ l ∧ .ttc ∈ l) (s : State) (dev inst fuel : Nat) :
    (s.advance dev inst fuel).but l = s.but l := by
  induction fuel generalizing s with
  | zero => rfl
  | succ fuel ih =>
    rw [State.advance]
    (repeat' split) <;> simp [ih, h]

@[simp] theorem State.advanceAll_but {l : List Block} (h : .freeCount ∈ l ∧ .out ∈ l ∧ .adm ∈ l ∧ .obf ∈ l ∧ .rte ∈ l ∧ .trn ∈ l ∧ .pool ∈ l ∧
    .mec ∈ l ∧ .mtc ∈ l ∧ .ins ∈ l ∧ .mpu ∈ l ∧ .msix ∈ l ∧ .flt ∈ l ∧ .ttc ∈ l) (s : State) (dev inst : Nat) :
    (s.advanceAll dev inst).but l = s.but l := by
  simp [State.advanceAll, h]

@[simp] theorem State.storeFull_but {l : List Block} (h : .out ∈ l ∧ .mtc ∈ l ∧ .ins ∈ l ∧ .msix ∈ l ∧ .flt ∈ l ∧ .ttc ∈ l) (s : State) (why : Nat) :
    (s.storeFull why).but l = s.but l := by
  simp [State.storeFull, h]

@[simp] theorem State.refuseMsg_but {l : List Block} (h : .freeCount ∈ l ∧ .out ∈ l ∧ .adm ∈ l ∧ .obf ∈ l ∧ .rte ∈ l ∧ .trn ∈ l ∧ .mec ∈ l ∧
    .mtc ∈ l ∧ .ins ∈ l ∧ .msix ∈ l ∧ .flt ∈ l ∧ .ttc ∈ l) (s : State) (r : Req) (dst msn length : Nat) (rendezvous : Bool) :
    (s.refuseMsg r dst msn length rendezvous).but l = s.but l := by
  simp only [State.refuseMsg]
  split <;> simp [h]

@[simp] theorem State.passMsn_but {l : List Block} (h : .freeCount ∈ l ∧ .out ∈ l ∧ .adm ∈ l ∧ .obf ∈ l ∧ .rte ∈ l ∧ .trn ∈ l ∧ .pool ∈ l ∧
    .mec ∈ l ∧ .mtc ∈ l ∧ .ins ∈ l ∧ .mpu ∈ l ∧ .msix ∈ l ∧ .flt ∈ l ∧ .ttc ∈ l) (s : State) (dev inst msn : Nat) :
    (s.passMsn dev inst msn).but l = s.but l := by
  simp [State.passMsn, h]

@[simp] theorem State.firstPacket_but {l : List Block} (h : .freeCount ∈ l ∧ .out ∈ l ∧ .adm ∈ l ∧ .obf ∈ l ∧ .rte ∈ l ∧ .trn ∈ l ∧ .pool ∈ l ∧
    .mec ∈ l ∧ .mtc ∈ l ∧ .ins ∈ l ∧ .mpu ∈ l ∧ .msix ∈ l ∧ .flt ∈ l ∧ .ttc ∈ l) (s : State) (r : Req) (m : Msg) :
    (s.firstPacket r m).but l = s.but l := by
  simp only [State.firstPacket]
  (repeat' split) <;> simp [h]

@[simp] theorem State.laterPacket_but {l : List Block} (h : .freeCount ∈ l ∧ .out ∈ l ∧ .adm ∈ l ∧ .obf ∈ l ∧ .rte ∈ l ∧ .trn ∈ l ∧ .pool ∈ l ∧
    .mec ∈ l ∧ .mtc ∈ l ∧ .ins ∈ l ∧ .msix ∈ l ∧ .flt ∈ l ∧ .ttc ∈ l) (s : State) (r : Req) (dst context msn offset : Nat) (data : List Nat) :
    (s.laterPacket r dst context msn offset data).but l = s.but l := by
  simp only [State.laterPacket]
  (repeat' split) <;> simp [h]

@[simp] theorem State.endRecv_but {l : List Block} (h : .out ∈ l ∧ .mec ∈ l ∧ .ins ∈ l ∧ .msix ∈ l) (s : State) (q status : Nat) (d : RecvDesc) :
    (s.endRecv q status d).but l = s.but l := by
  simp [State.endRecv, h]

@[simp] theorem State.postReceive_but {l : List Block} (h : .freeCount ∈ l ∧ .out ∈ l ∧ .adm ∈ l ∧ .obf ∈ l ∧ .rte ∈ l ∧ .trn ∈ l ∧ .pool ∈ l ∧
    .mec ∈ l ∧ .mtc ∈ l ∧ .ins ∈ l ∧ .mpu ∈ l ∧ .msix ∈ l ∧ .flt ∈ l ∧ .ttc ∈ l) (s : State) (q : Nat) (x : RecvQueue) (d : RecvDesc) :
    (s.postReceive q x d).but l = s.but l := by
  simp only [State.postReceive]
  (repeat' split) <;> simp [h]

@[simp] theorem State.takeReceive_but {l : List Block} (h : .freeCount ∈ l ∧ .out ∈ l ∧ .adm ∈ l ∧ .obf ∈ l ∧ .rte ∈ l ∧ .trn ∈ l ∧ .pool ∈ l ∧
    .mec ∈ l ∧ .mtc ∈ l ∧ .ins ∈ l ∧ .mpu ∈ l ∧ .msix ∈ l ∧ .flt ∈ l ∧ .ttc ∈ l) (s : State) (q : Nat) (d : RecvDesc) :
    (s.takeReceive q d).but l = s.but l := by
  simp only [State.takeReceive]
  split <;> simp [h]

/-! ### Collectives -/

@[simp] theorem State.settleGroup_but {l : List Block} (h : .out ∈ l ∧ .hly ∈ l ∧ .obf ∈ l ∧ .trn ∈ l ∧ .mec ∈ l ∧ .rdx ∈ l ∧ .ins ∈ l ∧ .msix ∈ l)
    (s : State) (gid : Nat) : (s.settleGroup gid).but l = s.but l := by
  simp only [State.settleGroup]
  split <;> simp [h]

@[simp] theorem State.countMember_but {l : List Block} (h : .freeCount ∈ l ∧ .out ∈ l ∧ .adm ∈ l ∧ .obf ∈ l ∧ .rte ∈ l ∧ .trn ∈ l ∧ .pool ∈ l ∧
    .mec ∈ l ∧ .mtc ∈ l ∧ .rdx ∈ l ∧ .ins ∈ l ∧ .mpu ∈ l ∧ .msix ∈ l ∧ .flt ∈ l ∧ .ttc ∈ l) (s : State) (gid m : Nat) (elems : List Elem) :
    (s.countMember gid m elems).but l = s.but l := by
  simp [State.countMember, h]

@[simp] theorem State.memberReadFails_but {l : List Block} (h : .freeCount ∈ l ∧ .out ∈ l ∧ .adm ∈ l ∧ .obf ∈ l ∧ .rte ∈ l ∧ .trn ∈ l ∧ .pool ∈ l ∧
    .mec ∈ l ∧ .mtc ∈ l ∧ .rdx ∈ l ∧ .ins ∈ l ∧ .mpu ∈ l ∧ .msix ∈ l ∧ .flt ∈ l ∧ .ttc ∈ l) (s : State) (gid m : Nat) :
    (s.memberReadFails gid m).but l = s.but l := by
  simp [State.memberReadFails, h]

@[simp] theorem State.readMember_but {l : List Block} (h : .freeCount ∈ l ∧ .out ∈ l ∧ .adm ∈ l ∧ .obf ∈ l ∧ .rte ∈ l ∧ .trn ∈ l ∧ .pool ∈ l ∧
    .mec ∈ l ∧ .mtc ∈ l ∧ .rdx ∈ l ∧ .ins ∈ l ∧ .mpu ∈ l ∧ .msix ∈ l ∧ .flt ∈ l ∧ .ttc ∈ l) (s : State) (gid : Nat) (g : Group) (m : Nat) (x :
    MemberSlot) (values : List Nat) (failed poison : Bool) : (s.readMember gid g m x values failed poison).but l = s.but l := by
  rw [State.readMember]
  split
  · next e => simp [but_snd e, h]
  · next e => simp [but_snd e, h]

@[simp] theorem State.arriveFenced_but {l : List Block} (h : .out ∈ l ∧ .pool ∈ l ∧ .mec ∈ l ∧ .rdx ∈ l ∧ .ins ∈ l ∧ .mpu ∈ l ∧ .msix ∈ l ∧
    .flt ∈ l ∧ .ttc ∈ l) (s : State) (gid : Nat) (g : Group) (m : Nat) (x : MemberSlot) : (s.arriveFenced gid g m x).but l = s.but l := by
  simp [State.arriveFenced, h]

@[simp] theorem State.answerUp_but {l : List Block} (h : .freeCount ∈ l ∧ .out ∈ l ∧ .adm ∈ l ∧ .obf ∈ l ∧ .rte ∈ l ∧ .trn ∈ l ∧ .mec ∈ l ∧
    .mtc ∈ l ∧ .ins ∈ l ∧ .msix ∈ l ∧ .flt ∈ l ∧ .ttc ∈ l) (s : State) (gid dev inst sl round : Nat) (own : Option Nat) :
    (s.answerUp gid dev inst sl round own).but l = s.but l := by
  simp [State.answerUp, h]

@[simp] theorem State.unknownGroup_but {l : List Block} (h : .out ∈ l ∧ .rdx ∈ l ∧ .ins ∈ l ∧ .msix ∈ l ∧ .flt ∈ l ∧ .ttc ∈ l) (s : State) :
    (s.unknownGroup).but l = s.but l := by
  simp [State.unknownGroup, h]

@[simp] theorem State.takeUp_but {l : List Block} (h : .freeCount ∈ l ∧ .out ∈ l ∧ .adm ∈ l ∧ .obf ∈ l ∧ .rte ∈ l ∧ .trn ∈ l ∧ .pool ∈ l ∧ .mec ∈ l ∧
    .mtc ∈ l ∧ .rdx ∈ l ∧ .ins ∈ l ∧ .mpu ∈ l ∧ .msix ∈ l ∧ .flt ∈ l ∧ .ttc ∈ l) (s : State) (gid : Nat) (g : Group) (c members offset : Nat)
    (poison : Bool) (values : List Nat) : (s.takeUp gid g c members offset poison values).but l = s.but l := by
  simp [State.takeUp, h]

@[simp] theorem State.upArrives_but {l : List Block} (h : .freeCount ∈ l ∧ .out ∈ l ∧ .adm ∈ l ∧ .obf ∈ l ∧ .rte ∈ l ∧ .trn ∈ l ∧ .pool ∈ l ∧
    .mec ∈ l ∧ .mtc ∈ l ∧ .rdx ∈ l ∧ .ins ∈ l ∧ .mpu ∈ l ∧ .msix ∈ l ∧ .flt ∈ l ∧ .ttc ∈ l) (s : State) (gid : Nat) (g : Group) (c : Nat) (x :
    ChildSlot) (round members : Nat) (fenced : Bool) (offset : Nat) (poison : Bool) (values : List Nat) :
    (s.upArrives gid g c x round members fenced offset poison values).but l = s.but l := by
  simp [State.upArrives, h]

@[simp] theorem State.downDone_but {l : List Block} (h : .freeCount ∈ l ∧ .out ∈ l ∧ .adm ∈ l ∧ .obf ∈ l ∧ .rte ∈ l ∧ .trn ∈ l ∧ .pool ∈ l ∧
    .mec ∈ l ∧ .mtc ∈ l ∧ .rdx ∈ l ∧ .ins ∈ l ∧ .mpu ∈ l ∧ .msix ∈ l ∧ .flt ∈ l ∧ .ttc ∈ l) (s : State) (gid combined status : Nat) (values :
    List Nat) : (s.downDone gid combined status values).but l = s.but l := by
  simp only [State.downDone]
  split <;> simp [h]

@[simp] theorem State.downArrives_but {l : List Block} (h : .freeCount ∈ l ∧ .out ∈ l ∧ .adm ∈ l ∧ .obf ∈ l ∧ .rte ∈ l ∧ .trn ∈ l ∧ .pool ∈ l ∧
    .mec ∈ l ∧ .mtc ∈ l ∧ .rdx ∈ l ∧ .ins ∈ l ∧ .mpu ∈ l ∧ .msix ∈ l ∧ .flt ∈ l ∧ .ttc ∈ l) (s : State) (gid : Nat) (g : Group) (round combined :
    Nat) (fenced : Bool) (status offset : Nat) (values : List Nat) :
    (s.downArrives gid g round combined fenced status offset values).but l = s.but l := by
  simp [State.downArrives, h]

/-! ### Faults, spares and background work -/

@[simp] theorem State.forceFault_but {l : List Block} (h : .out ∈ l ∧ .ins ∈ l ∧ .msix ∈ l ∧ .flt ∈ l ∧ .ttc ∈ l) (s : State) (source : Nat) (force :
    Bool) (subj : Subject) : (s.forceFault source force subj).but l = s.but l := by
  simp [State.forceFault, h]

@[simp] theorem State.clearFaults_but {l : List Block} (h : .flt ∈ l) (s : State) (p sev : Nat → Bool) : (s.clearFaults p sev).but l = s.but l := by
  simp [State.clearFaults, h]

@[simp] theorem State.recover_but {l : List Block} (h : .out ∈ l ∧ .egs ∈ l ∧ .prt ∈ l ∧ .flt ∈ l) (s : State) : (s.recover).but l = s.but l := by
  simp [State.recover, h]

@[simp] theorem State.coreFails_but {l : List Block} (h : .out ∈ l ∧ .ins ∈ l ∧ .msix ∈ l ∧ .flt ∈ l ∧ .ttc ∈ l ∧ .mgc ∈ l) (s : State) (src core :
    Nat) : (s.coreFails src core).but l = s.but l := by
  simp [State.coreFails, h]

@[simp] theorem State.lostEntries_but {l : List Block} (h : .dir ∈ l) (s : State) (address : Nat) : (s.lostEntries address).but l = s.but l := by
  simp only [State.lostEntries]
  split <;> simp [h]

@[simp] theorem State.lostSystemItem_but {l : List Block} (h : .freeCount ∈ l ∧ .out ∈ l ∧ .hly ∈ l ∧ .obf ∈ l ∧ .trn ∈ l ∧ .pool ∈ l ∧ .mec ∈ l ∧
    .mtc ∈ l ∧ .ins ∈ l ∧ .msix ∈ l ∧ .flt ∈ l ∧ .ttc ∈ l) (s : State) (n : Nat) : (s.lostSystemItem n).but l = s.but l := by
  simp only [State.lostSystemItem]
  (repeat' split) <;> simp [h]

/-! ### Instances -/

@[simp] theorem State.beginDisable_but {l : List Block} (h : .freeCount ∈ l ∧ .out ∈ l ∧ .adm ∈ l ∧ .obf ∈ l ∧ .rte ∈ l ∧ .trn ∈ l ∧ .pool ∈ l ∧
    .mec ∈ l ∧ .locks ∈ l ∧ .mtc ∈ l ∧ .rdx ∈ l ∧ .ins ∈ l ∧ .mpu ∈ l ∧ .msix ∈ l ∧ .flt ∈ l ∧ .ttc ∈ l) (s : State) (i : Nat) :
    (s.beginDisable i).but l = s.but l := by
  simp [State.beginDisable, h]

@[simp] theorem State.endItems_but {l : List Block} (h : .freeCount ∈ l ∧ .out ∈ l ∧ .adm ∈ l ∧ .obf ∈ l ∧ .rte ∈ l ∧ .trn ∈ l ∧ .pool ∈ l ∧
    .mec ∈ l ∧ .locks ∈ l ∧ .mtc ∈ l ∧ .rdx ∈ l ∧ .ins ∈ l ∧ .mpu ∈ l ∧ .msix ∈ l ∧ .flt ∈ l ∧ .ttc ∈ l) (s : State) (i : Nat) :
    (s.endItems i).but l = s.but l := by
  simp [State.endItems, h]

@[simp] theorem State.hostConfig_but {l : List Block} {s : State} (hw : s.mayWake l) (f : State → State)
    (hf : ∀ s : State, (f s).but l = s.but l) : (s.hostConfig f).but l = s.but l := by
  simp only [State.hostConfig]
  split <;> simp [hf, hw]

@[simp] theorem State.flr_but {l : List Block} (h : .waiting ∈ l ∧ .freeCount ∈ l ∧ .out ∈ l ∧ .hly ∈ l ∧ .adm ∈ l ∧ .obf ∈ l ∧ .rte ∈ l ∧ .trn ∈ l ∧
    .pool ∈ l ∧ .mec ∈ l ∧ .locks ∈ l ∧ .mtc ∈ l ∧ .rdx ∈ l ∧ .ins ∈ l ∧ .mpu ∈ l ∧ .icu ∈ l ∧ .msix ∈ l ∧ .flt ∈ l ∧ .ttc ∈ l ∧ .mgc ∈ l) (s :
    State) (i : Nat) : (s.flr i).but l = s.but l := by
  simp only [State.flr]
  split <;> simp [h]

@[simp] theorem State.vfReset_but {l : List Block} (h : .freeCount ∈ l ∧ .out ∈ l ∧ .adm ∈ l ∧ .obf ∈ l ∧ .rte ∈ l ∧ .trn ∈ l ∧ .pool ∈ l ∧
    .mec ∈ l ∧ .locks ∈ l ∧ .mtc ∈ l ∧ .rdx ∈ l ∧ .ins ∈ l ∧ .mpu ∈ l ∧ .icu ∈ l ∧ .msix ∈ l ∧ .flt ∈ l ∧ .ttc ∈ l) (s : State) (i : Nat) :
    (s.vfReset i).but l = s.but l := by
  simp [State.vfReset, h]

@[simp] theorem State.release_but {l : List Block} (h : .out ∈ l) (s : State) (i : Nat) (a : HostAcc) : (s.release i a).but l = s.but l := by
  simp only [State.release]
  split <;> simp [h]

@[simp] theorem State.flushLog_but {l : List Block} (h : .out ∈ l ∧ .ins ∈ l) (s : State) (i : Nat) (b : Bool) : (s.flushLog i b).but l = s.but l :=
    by
  simp [State.flushLog, h]

@[simp] theorem State.sendPending_but {l : List Block} (h : .out ∈ l ∧ .ins ∈ l ∧ .msix ∈ l) (s : State) (i v : Nat) :
    (s.sendPending i v).but l = s.but l := by
  simp only [State.sendPending]
  split <;> simp [h, State.but]

/-! ### Protection, debug and interrupts -/

@[simp] theorem State.ruleSwapDone_but {l : List Block} (h : .out ∈ l ∧ .hly ∈ l ∧ .obf ∈ l ∧ .trn ∈ l ∧ .ins ∈ l ∧ .mpu ∈ l ∧ .msix ∈ l) (s :
    State) (master : Nat) : (s.ruleSwapDone master).but l = s.but l := by
  simp [State.ruleSwapDone, h]

@[simp] theorem State.freshNonce_but {l : List Block} (h : .freeCount ∈ l) (s : State) : (s.freshNonce).2.but l = s.but l := by
  simp [State.freshNonce, h]

/-! ### Observation -/

@[simp] theorem State.snapshot_but {l : List Block} (h : .csc ∈ l ∧ .egs ∈ l ∧ .rte ∈ l ∧ .ttc ∈ l) (s : State) (n : Nat) :
    (s.snapshot n).but l = s.but l := by
  simp [State.snapshot, h]

@[simp] theorem State.writeTraces_but {l : List Block} (h : .out ∈ l ∧ .ttc ∈ l) (s : State) : (s.writeTraces).but l = s.but l := by
  refine foldl_but (fun s x => ?_) _ _
  simp [h]

/-! ### Registers -/

@[simp] theorem State.readLow_but {l : List Block} (h : .out ∈ l ∧ .latches ∈ l) (s : State) (block offset v : Nat) :
    (s.readLow block offset v).but l = s.but l := by
  simp [State.readLow, State.but, h]

@[simp] theorem State.strayAccess_but {l : List Block} (h : .out ∈ l ∧ .ttc ∈ l) {s : State} (hw : s.mayWake l) (write : Bool) (index : Nat) :
    (s.strayAccess write index).but l = s.but l := by
  simp [State.strayAccess, h, hw]

@[simp] theorem State.writeIntStatus_but {l : List Block} (h : .hly ∈ l ∧ .adm ∈ l ∧ .obf ∈ l ∧ .egs ∈ l ∧ .rte ∈ l ∧ .lnk ∈ l ∧ .trn ∈ l ∧
    .prt ∈ l ∧ .dir ∈ l ∧ .mec ∈ l ∧ .mtc ∈ l ∧ .rdx ∈ l ∧ .ins ∈ l ∧ .mpu ∈ l ∧ .pwr ∈ l ∧ .flt ∈ l ∧ .ttc ∈ l) (s : State) (block : Nat) (v :
    Word) : (s.writeIntStatus block v).but l = s.but l := by
  simp only [State.writeIntStatus]
  split <;> simp [h]

@[simp] theorem State.writeIntEnable_but {l : List Block} (h : .hly ∈ l ∧ .adm ∈ l ∧ .obf ∈ l ∧ .egs ∈ l ∧ .rte ∈ l ∧ .lnk ∈ l ∧ .trn ∈ l ∧
    .prt ∈ l ∧ .dir ∈ l ∧ .mec ∈ l ∧ .mtc ∈ l ∧ .rdx ∈ l ∧ .ins ∈ l ∧ .mpu ∈ l ∧ .pwr ∈ l ∧ .flt ∈ l ∧ .ttc ∈ l) (s : State) (block : Nat) (v :
    Word) : (s.writeIntEnable block v).but l = s.but l := by
  simp only [State.writeIntEnable]
  split <;> simp [h]

@[simp] theorem State.writeArb_but {l : List Block} (h : .arbs ∈ l) (s : State) (res n offset : Nat) (v : Word) :
    (s.writeArb res n offset v).but l = s.but l := by
  simp only [State.writeArb]
  (repeat' split) <;> simp [h]

@[simp] theorem State.writeQcfg_but {l : List Block} (h : .hly ∈ l) (s : State) (q : Nat) (v : Word) : (s.writeQcfg q v).but l = s.but l := by
  simp [State.writeQcfg, h]

@[simp] theorem State.writeQueueReg_but {l : List Block} (h : .hly ∈ l) (s : State) (q off : Nat) (v : Word) :
    (s.writeQueueReg q off v).but l = s.but l := by
  simp only [State.writeQueueReg]
  split <;> simp [h]

@[simp] theorem State.writeReg_but {l : List Block} (h : .hly ∈ l ∧ .adm ∈ l ∧ .obf ∈ l ∧ .egs ∈ l ∧ .arbs ∈ l ∧ .rte ∈ l ∧ .lnk ∈ l ∧ .trn ∈ l ∧
    .prt ∈ l ∧ .dir ∈ l ∧ .mec ∈ l ∧ .mtc ∈ l ∧ .rdx ∈ l ∧ .ins ∈ l ∧ .mpu ∈ l ∧ .pwr ∈ l ∧ .flt ∈ l ∧ .ttc ∈ l) (s : State) (block offset : Nat)
    (v : Word) : (s.writeReg block offset v).but l = s.but l := by
  simp only [State.writeReg]
  (repeat' split) <;> simp [h]

/-! ### Arbiters -/

@[simp] theorem State.arbCycle_but {l : List Block} (h : .arbs ∈ l ∧ .ttc ∈ l) (s : State) (key : Nat) (asks : List Ask) :
    (s.arbCycle key asks).but l = s.but l := by
  simp [State.arbCycle, h]

@[simp] theorem State.arbitrate_but {l : List Block} (h : .arbs ∈ l ∧ .ttc ∈ l) (s : State) : (s.arbitrate).but l = s.but l := by
  simp [State.arbitrate, h]

/-! ### The clock -/

@[simp] theorem State.flitSlots_but {l : List Block} (h : .out ∈ l ∧ .lnk ∈ l ∧ .prt ∈ l) (s : State) : (s.flitSlots).but l = s.but l := by
  simp [State.flitSlots, h]

/-! ### Fabric time -/

@[simp] theorem State.synchronise_but {l : List Block} (h : .ftu ∈ l ∧ .adm ∈ l) (s : State) : (s.synchronise).but l = s.but l := by
  simp [State.synchronise, h]

@[simp] theorem State.askTime_but {l : List Block} (h : .out ∈ l ∧ .ftu ∈ l ∧ .obf ∈ l ∧ .trn ∈ l) (s : State) (p : Nat) :
    (s.askTime p).but l = s.but l := by
  simp [State.askTime, h]

@[simp] theorem State.answerTime_but {l : List Block} (h : .out ∈ l ∧ .obf ∈ l ∧ .trn ∈ l) (s : State) (port exchange : Nat) :
    (s.answerTime port exchange).but l = s.but l := by
  simp [State.answerTime, h]

@[simp] theorem State.judgeOffset_but {l : List Block} (h : .out ∈ l ∧ .ftu ∈ l ∧ .adm ∈ l ∧ .ins ∈ l ∧ .msix ∈ l ∧ .flt ∈ l ∧ .ttc ∈ l) (s : State)
    (off2 : Int) : (s.judgeOffset off2).but l = s.but l := by
  simp [State.judgeOffset, h]

@[simp] theorem State.parentExchange_but {l : List Block} (h : .out ∈ l ∧ .ftu ∈ l ∧ .adm ∈ l ∧ .ins ∈ l ∧ .msix ∈ l ∧ .flt ∈ l ∧ .ttc ∈ l) (s :
    State) (depth : Nat) (off2 : Int) : (s.parentExchange depth off2).but l = s.but l := by
  simp [State.parentExchange, h]

@[simp] theorem State.timeAnswer_but {l : List Block} (h : .out ∈ l ∧ .ftu ∈ l ∧ .adm ∈ l ∧ .ins ∈ l ∧ .msix ∈ l ∧ .flt ∈ l ∧ .ttc ∈ l) (s : State)
    (port exchange depth t2 t3 : Nat) : (s.timeAnswer port exchange depth t2 t3).but l = s.but l := by
  simp [State.timeAnswer, h]

end Sys2Proof.Machine
end

section
/-! SUPPORT. What a Halyard command and the end of a step change. -/
namespace Sys2Proof.Machine

/-! ### Halyard commands and the ends of steps -/

@[simp] theorem HRes.all_refuse_iff {P : State → Prop} {st : Nat} : HRes.All P (.refuse st) ↔ True := ⟨fun _ => trivial, fun _ => .refuse⟩

@[simp] theorem HRes.all_done_iff {P : State → Prop} {u : State} {st r : Nat} {o : List Nat} : HRes.All P (.done u st r o) ↔ P u :=
  ⟨fun | .done h => h, .done⟩

@[simp] theorem HRes.all_pend_iff {P : State → Prop} {u : State} {w : Wait} {o : List Obj} : HRes.All P (.pend u w o) ↔ P u :=
  ⟨fun | .pend h => h, .pend⟩

@[simp] theorem HRes.all_ite_iff {P : State → Prop} {c : Prop} [Decidable c] {r q : HRes} :
    HRes.All P (if c then r else q) ↔ if c then r.All P else q.All P := by
  split <;> rfl

@[simp] theorem HRes.all_refuseIf {P : State → Prop} {xs : List (Bool × Nat)} {r : HRes} (h : r.All P) : (refuseIf xs r).All P :=
  Machine.all_refuseIf h

/-- A command's answer changes what carries it. -/
theorem State.complete_but_src {l : List Block} {src : CmdSrc} (h : .hly ∈ l ∧ .ins ∈ l ∧ .msix ∈ l ∧ .out ∈ l)
    (hk : (srcKey src).isSome = true → .obf ∈ l ∧ .trn ∈ l) (s : State) (seq code : Nat) (i e : Bool) (st r : Nat) (o : List Nat) :
    (s.complete src seq code i e st r o).but l = s.but l := by
  refine State.but_eq_iff.mpr ⟨by simp, fun b hb => ?_⟩
  cases hs : srcKey src <;> cases b <;> simp_all [Same, complete_host]

/-- A Halyard command changes what carries its answer, and what its own meaning changes. -/
theorem runHly_but {l : List Block} {i : Instr} {code inLen outLen : Nat} {h : HlyHdr} {names : List Obj} {body : State → HRes}
    {s : State} (hl : ∀ b ∈ replyParts h, b ∈ l) (hb : (body (s.fetchCmd h)).All fun u => u.but l = (s.fetchCmd h).but l) :
    (runHly i code h inLen outLen names body s).but l = s.but l := by
  have hp : .hly ∈ l ∧ .ins ∈ l ∧ .msix ∈ l ∧ .out ∈ l := by simp [replyParts] at hl; simp [hl]
  have hw : .waiting ∈ l := by simp [replyParts] at hl; simp [hl]
  have hk : (srcKey h.src).isSome = true → .obf ∈ l ∧ .trn ∈ l := fun e => ⟨hl _ (by simp [replyParts, e]), hl _ (by simp [replyParts, e])⟩
  have hf : (s.fetchCmd h).but l = s.but l := by
    refine State.but_eq_iff.mpr ⟨by simp, fun b hb => ?_⟩
    cases b <;> simp_all [Same]
  rw [runHly]
  split
  · rw [State.setWaiting_but hw]
  · dsimp only
    split
    · rw [State.complete_but_src hp hk, hf]
    · split
      · next hr =>
        have hr : .obf ∈ l ∧ .trn ∈ l := ⟨hl _ (by simp [replyParts, hr]), hl _ (by simp [replyParts, hr])⟩
        simp [State.sendRemote, hp, hr, hf]
      · split
        · rw [State.complete_but_src hp hk, hf]
        · next e =>
          simp only [e, HRes.all_done_iff] at hb
          split
          · rw [State.complete_but_src hp hk, hf]
          · rw [State.complete_but_src hp hk, hb, hf]
        · next e =>
          simp only [e, HRes.all_pend_iff] at hb
          rw [State.upHly_but hp.1, hb, hf]

theorem keepsBut_ends {l : List Block} {s u : State} (h : u.but l = s.but l) : KeepsBut (ends u) s l :=
  ⟨u, rfl, State.but_eq_iff.mp h⟩

theorem keepsBut_runHly {l : List Block} {i : Instr} {code inLen outLen : Nat} {h : HlyHdr} {names : List Obj} {body : State → HRes}
    {s : State} (hl : ∀ b ∈ replyParts h, b ∈ l) (hb : ∀ s : State, (body s).All fun u => u.but l = s.but l) :
    KeepsBut (ends (runHly i code h inLen outLen names body s)) s l :=
  keepsBut_ends (runHly_but hl (hb _))

/-- Only the mode and its change say whether a waking event wakes the device. -/
theorem State.mayWake_congr {l : List Block} {s t : State} (hm : t.pwr.mode = s.pwr.mode) (hc : t.pwr.change = s.pwr.change)
    (hw : s.mayWake l) : t.mayWake l := by
  simpa [State.mayWake, State.awake, hm, hc] using hw

theorem State.setMsix_but {l : List Block} (h : .msix ∈ l) (s : State) (x : Tbl Msix) : ({ s with msix := x } : State).but l = s.but l := by
  simp [State.but, h]

theorem HRes.All.but_trans {l : List Block} {s t : State} {r : HRes} (ht : t.but l = s.but l) (hr : r.All fun u => u.but l = t.but l) :
    r.All fun u => u.but l = s.but l :=
  ht ▸ hr

/-- The same where the command's own meaning is told on the state whose descriptor has been taken. -/
theorem keepsBut_runHly_of {l : List Block} {i : Instr} {code inLen outLen : Nat} {h : HlyHdr} {names : List Obj} {body : State → HRes}
    {s : State} (hl : ∀ b ∈ replyParts h, b ∈ l) (hb : (body (s.fetchCmd h)).All fun u => u.but l = (s.fetchCmd h).but l) :
    KeepsBut (ends (runHly i code h inLen outLen names body s)) s l :=
  keepsBut_ends (runHly_but hl hb)

end Sys2Proof.Machine
end

section
/-! SUPPORT. What each command and each event changes before the actions of the faults that it raises (R523): the parts that its rules name. -/
namespace Sys2Proof.Machine

/-! ### Host queues and the board channel -/

theorem execNop_keeps (h : HlyHdr) (s : State) : KeepsBut (execNop h s) s (replyParts h) :=
  keepsBut_runHly (fun _ hb => hb) fun s => by simp [replyParts]

theorem execDeviceQuery_keeps (h : HlyHdr) (s : State) : KeepsBut (execDeviceQuery h s) s (replyParts h) :=
  keepsBut_runHly (fun _ hb => hb) fun s => by simp [replyParts]

@[simp] theorem inbandSetBody_but {l : List Block} (h : .hly ∈ l) (cm : Nat) (accept : Bool) (count : Nat) (serials : List Nat)
    (timeout retries hold : Nat) (s : State) : (inbandSetBody cm accept count serials timeout retries hold s).All fun u => u.but l = s.but l := by
  simp [inbandSetBody, h]

theorem execInbandSet_keeps (h : HlyHdr) (cm : Nat) (accept : Bool) (count : Nat) (serials : List Nat) (timeout retries hold : Nat) (s : State) :
    KeepsBut (execInbandSet h cm accept count serials timeout retries hold s) s (replyParts h) :=
  keepsBut_runHly (fun _ hb => hb) fun s => by simp [replyParts]

@[simp] theorem hostLinkSetBody_but {l : List Block} (h : .freeCount ∈ l ∧ .pool ∈ l) (link cm windowLog2 releaseTimeout : Nat) (s : State) :
    (hostLinkSetBody link cm windowLog2 releaseTimeout s).All fun u => u.but l = s.but l := by
  simp [hostLinkSetBody, h]

theorem execHostLinkSet_keeps (h : HlyHdr) (link cm windowLog2 releaseTimeout : Nat) (s : State) : KeepsBut
    (execHostLinkSet h link cm windowLog2 releaseTimeout s) s ((.pool :: .freeCount :: replyParts h)) :=
  keepsBut_runHly (fun _ hb => by simp [hb]) fun s => by simp [replyParts]

theorem execHlyCommandProducerWrite_keeps {l : List Block} (h : .waiting ∈ l ∧ .hly ∈ l ∧ .icu ∈ l) (q index : Nat) {s : State} (hw : s.mayWake l) :
    KeepsBut (execHlyCommandProducerWrite q index s) s l := by
  exact keepsBut_ends (by simp [hw, h])

theorem execHlyReplyConsumerWrite_keeps {l : List Block} (h : .waiting ∈ l ∧ .out ∈ l ∧ .hly ∈ l ∧ .ins ∈ l ∧ .msix ∈ l) (q index : Nat) {s : State}
    (hw : s.mayWake l) :
    KeepsBut (execHlyReplyConsumerWrite q index s) s l := by
  exact keepsBut_ends (by simp [hw, h])

theorem execHlyQueueEnable_keeps {l : List Block} (h : .hly ∈ l) (q : Nat) {s : State} (hw : s.mayWake l) :
    KeepsBut (execHlyQueueEnable q s) s l := by
  exact keepsBut_ends (by simp [hw, h])

theorem execHlyQueueDisable_keeps {l : List Block} (h : .hly ∈ l) (q : Nat) {s : State} (hw : s.mayWake l) :
    KeepsBut (execHlyQueueDisable q s) s l := by
  exact keepsBut_ends (by simp [hw, h])

theorem execHlyCmdReceive_keeps {l : List Block} (h : .waiting ∈ l ∧ .out ∈ l ∧ .hly ∈ l ∧ .obf ∈ l ∧ .trn ∈ l ∧ .ttc ∈ l ∧ .icu ∈ l) (origin :
    Origin) (queue seq segIndex segCount attempt : Nat) (directed : Bool) (retPorts : List Nat) {s : State} (hw : s.mayWake l) :
    KeepsBut (execHlyCmdReceive origin queue seq segIndex segCount attempt directed retPorts s) s l := by
  rw [execHlyCmdReceive]
  refine keepsBut_ends ?_
  split
  · rw [State.setWaiting_but (by simp [h])]; simp [hw]
  · simp [hw, h]

theorem execHlyReplyReceive_keeps (queue seq segIndex segCount attempt status result : Nat) (deviceValid : Bool) (device : Nat) (out : List Nat) (s :
    State) : KeepsBut (execHlyReplyReceive queue seq segIndex segCount attempt status result deviceValid device out s) s [.out, .hly, .obf, .trn,
    .ins, .msix, .ttc] := by
  exact keepsBut_ends (by simp)

theorem execInbandTimeout_keeps (queue seq : Nat) (s : State) : KeepsBut (execInbandTimeout queue seq s) s [.out, .hly, .obf, .trn, .ins, .msix] := by
  exact keepsBut_ends (by simp)

theorem execReassemblyTimeout_keeps (serial queue seq : Nat) (s : State) : KeepsBut (execReassemblyTimeout serial queue seq s) s [.hly, .ttc] := by
  exact keepsBut_ends (by simp)

theorem execInbandHoldExpiry_keeps (serial queue seq : Nat) (s : State) : KeepsBut (execInbandHoldExpiry serial queue seq s) s [.hly] := by
  exact keepsBut_ends (by simp)

theorem execBoardChannelRequest_keeps {l : List Block} (h : .out ∈ l ∧ .hly ∈ l ∧ .icu ∈ l) (code inputLength : Nat) {s : State} (hw : s.mayWake l) :
    KeepsBut (execBoardChannelRequest code inputLength s) s l := by
  exact keepsBut_ends (by simp [hw, h])

theorem execMctpControlMessage_keeps (command : Nat) (s : State) : KeepsBut (execMctpControlMessage command s) s [.mgc, .out] := by
  exact keepsBut_ends (by simp)

theorem execManagementFirmwareFault_keeps (source : CmdSrc) (seq : Nat) (s : State) : KeepsBut (execManagementFirmwareFault source seq s) s [.out,
    .hly, .obf, .trn, .ins, .msix, .flt, .ttc] := by
  exact keepsBut_ends (by simp)

/-! ### Links and lanes -/

@[simp] theorem linkSetBody_but {l : List Block} (h : .lnk ∈ l) (port cm linkTimeout replayLimit retrainLimit : Nat) (shares : List Nat) (s :
    State) : (linkSetBody port cm linkTimeout replayLimit retrainLimit shares s).All fun u => u.but l = s.but l := by
  simp [linkSetBody, h]

theorem execLinkSet_keeps (h : HlyHdr) (port cm linkTimeout replayLimit retrainLimit : Nat) (shares : List Nat) (s : State) : KeepsBut
    (execLinkSet h port cm linkTimeout replayLimit retrainLimit shares s) s ((.lnk :: replyParts h)) :=
  keepsBut_runHly (fun _ hb => by simp [hb]) fun s => by simp [replyParts]

@[simp] theorem faultInjectBody_but {l : List Block} (h : .lnk ∈ l) (port kind n count : Nat) (s : State) :
    (faultInjectBody port kind n count s).All fun u => u.but l = s.but l := by
  simp [faultInjectBody, h]

theorem execFaultInject_keeps (h : HlyHdr) (port kind n count : Nat) (s : State) : KeepsBut (execFaultInject h port kind n count s) s ((.lnk ::
    replyParts h)) :=
  keepsBut_runHly (fun _ hb => by simp [hb]) fun s => by simp [replyParts]

theorem execLinkQuery_keeps (h : HlyHdr) (port : Nat) (s : State) : KeepsBut (execLinkQuery h port s) s (replyParts h) :=
  keepsBut_runHly (fun _ hb => hb) fun s => by simp [replyParts]

theorem execLinkFrameReceive_keeps {l : List Block} (h : .freeCount ∈ l ∧ .out ∈ l ∧ .adm ∈ l ∧ .obf ∈ l ∧ .egs ∈ l ∧ .rte ∈ l ∧ .lnk ∈ l ∧
    .trn ∈ l ∧ .prt ∈ l ∧ .mec ∈ l ∧ .mtc ∈ l ∧ .ins ∈ l ∧ .msix ∈ l ∧ .flt ∈ l ∧ .ttc ∈ l) (port : Nat) (sync : BitVec 16) (head : BitVec 128)
    (pid : Nat) (bytes : List Nat) (frameCrc : BitVec 32) (marked : Bool) (lost : Nat) {s : State} (hw : s.mayWake l) :
    KeepsBut (execLinkFrameReceive port sync head pid bytes frameCrc marked lost s) s l := by
  have hw' := State.mayWake_congr (t := s.upPort port fun x => { x with uncorr := satAdd 32 x.uncorr lost }) (by simp) (by simp) hw
  exact keepsBut_ends (by simp [hw', h])

theorem execLinkControlFlitReceive_keeps (port : Nat) (flit : BitVec 512) (sync : BitVec 16) (s : State) : KeepsBut
    (execLinkControlFlitReceive port flit sync s) s [.freeCount, .out, .hly, .ftu, .adm, .obf, .egs, .rte, .lnk, .trn, .prt, .ins, .msix, .flt,
    .ttc] := by
  exact keepsBut_ends (by simp)

theorem execReplayTimeout_keeps (port : Nat) (s : State) : KeepsBut (execReplayTimeout port s) s [.out, .lnk, .prt, .ttc] := by
  exact keepsBut_ends (by simp)

theorem execRetrainLimitExpiry_keeps (port : Nat) (s : State) : KeepsBut (execRetrainLimitExpiry port s) s [.freeCount, .out, .masthead, .hly, .ftu,
    .adm, .obf, .egs, .rte, .lnk, .trn, .prt, .mec, .mtc, .ins, .msix, .pwr, .flt, .ttc] := by
  exact keepsBut_ends (by simp)

theorem execLinkInitFlitTimer_keeps (port : Nat) (s : State) : KeepsBut (execLinkInitFlitTimer port s) s [.out, .lnk, .prt] := by
  exact keepsBut_ends (by simp)

theorem execPortDisableDrainTimeout_keeps (port : Nat) (s : State) : KeepsBut (execPortDisableDrainTimeout port s) s [.freeCount, .out, .hly, .ftu,
    .adm, .obf, .egs, .rte, .lnk, .trn, .prt, .ins, .msix, .flt, .ttc] := by
  exact keepsBut_ends (by simp)

/-! ### Frames and transport -/

@[simp] theorem trnSetBody_but {l : List Block} (h : .trn ∈ l) (cm ackDelay nakDelay retryTimeout retryLimit ctxIdle sendWindow : Nat) (s : State) :
    (trnSetBody cm ackDelay nakDelay retryTimeout retryLimit ctxIdle sendWindow s).All fun u => u.but l = s.but l := by
  simp [trnSetBody, h]

theorem execTrnSet_keeps (h : HlyHdr) (cm ackDelay nakDelay retryTimeout retryLimit ctxIdle sendWindow : Nat) (s : State) : KeepsBut
    (execTrnSet h cm ackDelay nakDelay retryTimeout retryLimit ctxIdle sendWindow s) s ((.trn :: replyParts h)) :=
  keepsBut_runHly (fun _ hb => by simp [hb]) fun s => by simp [replyParts]

@[simp] theorem contextPinBody_but {l : List Block} (h : .freeCount ∈ l ∧ .out ∈ l ∧ .adm ∈ l ∧ .obf ∈ l ∧ .rte ∈ l ∧ .trn ∈ l ∧ .mec ∈ l ∧
    .mtc ∈ l ∧ .ins ∈ l ∧ .msix ∈ l ∧ .flt ∈ l ∧ .ttc ∈ l) (peer inst cls half : Nat) (pin : Bool) (s : State) :
    (contextPinBody peer inst cls half pin s).All fun u => u.but l = s.but l := by
  simp [contextPinBody, h]

theorem execContextPin_keeps (h : HlyHdr) (peer inst cls half : Nat) (pin : Bool) (s : State) : KeepsBut
    (execContextPin h peer inst cls half pin s) s ((.obf :: .trn :: .freeCount :: .adm :: .rte :: .mec :: .mtc :: .flt :: .ttc :: replyParts h)) :=
  keepsBut_runHly (fun _ hb => by simp [hb]) fun s => by simp [replyParts]

@[simp] theorem trnQueryBody_but {l : List Block} (peer inst cls half : Nat) (s : State) : (trnQueryBody peer inst cls half s).All fun u =>
    u.but l = s.but l := by
  rw [trnQueryBody]
  (repeat' split) <;> simp

theorem execTrnQuery_keeps (h : HlyHdr) (peer inst cls half : Nat) (s : State) : KeepsBut (execTrnQuery h peer inst cls half s) s (replyParts h) :=
  keepsBut_runHly (fun _ hb => hb) fun s => by simp [replyParts]

theorem execTransportDataReceive_keeps (p : Packet) (check : BitVec 64) (ticketUsed : Bool) (s : State) : KeepsBut
    (execTransportDataReceive p check ticketUsed s) s [.freeCount, .out, .adm, .obf, .rte, .trn, .mec, .mtc, .ins, .msix, .flt, .ttc, .mgc] := by
  exact keepsBut_ends (by simp)

theorem execTopenReceive_keeps (peer inst cls initialSeq sl : Nat) (s : State) : KeepsBut
    (execTopenReceive peer inst cls initialSeq sl s) s [.freeCount, .out, .adm, .obf, .rte, .trn, .mec, .mtc, .ins, .msix, .flt, .ttc] := by
  exact keepsBut_ends (by simp)

theorem execTcloseReceive_keeps (peer inst cls nextSeq sl : Nat) (s : State) : KeepsBut (execTcloseReceive peer inst cls nextSeq sl s) s [.freeCount,
    .out, .adm, .obf, .rte, .trn, .mec, .mtc, .ins, .msix, .flt, .ttc] := by
  exact keepsBut_ends (by simp)

theorem execCtxIdleExpiry_keeps (peer inst cls : Nat) (s : State) : KeepsBut (execCtxIdleExpiry peer inst cls s) s [.freeCount, .out, .adm, .obf,
    .rte, .trn, .ins, .msix, .flt, .ttc] := by
  exact keepsBut_ends (by simp)

theorem execTackReceive_keeps (peer inst cls ackSeq : Nat) (openAck openRefused closeAck : Bool) (lates : List Nat)
    (marks ticketsReturned ticketsGranted : Nat) (s : State) : KeepsBut
    (execTackReceive peer inst cls ackSeq openAck openRefused closeAck lates marks ticketsReturned ticketsGranted s) s [.freeCount, .out, .adm, .obf,
    .rte, .trn, .mec, .mtc, .ins, .msix, .flt, .ttc] := by
  exact keepsBut_ends (by simp)

theorem execTnakReceive_keeps (peer inst cls seq : Nat) (transit : Bool) (reason : Nat) (s : State) : KeepsBut
    (execTnakReceive peer inst cls seq transit reason s) s [.freeCount, .out, .hly, .adm, .obf, .rte, .trn, .pool, .mec, .mtc, .rdx, .ins, .mpu,
    .msix, .flt, .ttc] := by
  exact keepsBut_ends (by simp)

theorem execAckDelayExpiry_keeps (peer inst cls : Nat) (s : State) : KeepsBut (execAckDelayExpiry peer inst cls s) s [.freeCount, .out, .adm, .obf,
    .rte, .trn, .ins, .msix, .flt, .ttc] := by
  exact keepsBut_ends (by simp)

theorem execNakDelayExpiry_keeps (peer inst cls : Nat) (s : State) : KeepsBut (execNakDelayExpiry peer inst cls s) s [.freeCount, .out, .adm, .obf,
    .rte, .trn, .ins, .msix, .flt, .ttc] := by
  exact keepsBut_ends (by simp)

theorem execRetryTimeout_keeps (peer inst cls : Nat) (s : State) : KeepsBut (execRetryTimeout peer inst cls s) s [.freeCount, .out, .hly, .adm, .obf,
    .rte, .trn, .pool, .mec, .mtc, .rdx, .ins, .mpu, .msix, .flt, .ttc] := by
  exact keepsBut_ends (by simp)

theorem execContextFetchDone_keeps (peer inst cls half : Nat) (s : State) : KeepsBut (execContextFetchDone peer inst cls half s) s [.freeCount, .out,
    .hly, .adm, .obf, .rte, .trn, .pool, .mec, .mtc, .rdx, .ins, .mpu, .msix, .flt, .ttc, .mgc] := by
  exact keepsBut_ends (by simp)

theorem execFlaggedLateSend_keeps (peer inst cls : Nat) (s : State) : KeepsBut (execFlaggedLateSend peer inst cls s) s [.freeCount, .out, .adm, .obf,
    .rte, .trn, .mec, .mtc, .ins, .msix, .flt, .ttc] := by
  exact keepsBut_ends (by simp)

theorem execMcAckReceive_keeps (port tree srcDevice inst op delivered fenced : Nat) (s : State) : KeepsBut
    (execMcAckReceive port tree srcDevice inst op delivered fenced s) s [.freeCount, .out, .obf, .rte, .trn, .mec, .mtc, .ins, .msix, .ttc] := by
  exact keepsBut_ends (by simp)

/-! ### Ports -/

@[simp] theorem portModeSetBody_but {l : List Block} (h : .freeCount ∈ l ∧ .out ∈ l ∧ .hly ∈ l ∧ .ftu ∈ l ∧ .adm ∈ l ∧ .obf ∈ l ∧ .egs ∈ l ∧
    .rte ∈ l ∧ .lnk ∈ l ∧ .trn ∈ l ∧ .prt ∈ l ∧ .ins ∈ l ∧ .msix ∈ l ∧ .flt ∈ l ∧ .ttc ∈ l) (port mode width maxRate : Nat) (s : State) :
    (portModeSetBody port mode width maxRate s).All fun u => u.but l = s.but l := by
  rw [portModeSetBody]
  refine HRes.all_refuseIf ?_
  (repeat' split) <;> simp [h]

theorem execPortModeSet_keeps (h : HlyHdr) (port mode width maxRate : Nat) (s : State) : KeepsBut (execPortModeSet h port mode width maxRate s) s
    ((.freeCount :: .ftu :: .adm :: .obf :: .egs :: .rte :: .lnk :: .trn :: .prt :: .flt :: .ttc :: replyParts h)) :=
  keepsBut_runHly (fun _ hb => by simp [hb]) fun s => by simp [replyParts]

@[simp] theorem laneSetBody_but {l : List Block} (h : .prt ∈ l) (port cm corrThreshold corrWindow marginFloor : Nat) (autoSpare idleEnable : Bool)
    (idleEntry trainTimeout : Nat) (s : State) :
    (laneSetBody port cm corrThreshold corrWindow marginFloor autoSpare idleEnable idleEntry trainTimeout s).All fun u => u.but l = s.but l := by
  simp [laneSetBody, h]

theorem execLaneSet_keeps (h : HlyHdr) (port cm corrThreshold corrWindow marginFloor : Nat) (autoSpare idleEnable : Bool) (idleEntry trainTimeout :
    Nat) (s : State) : KeepsBut (execLaneSet h port cm corrThreshold corrWindow marginFloor autoSpare idleEnable idleEntry trainTimeout s) s
    ((.prt :: replyParts h)) :=
  keepsBut_runHly (fun _ hb => by simp [hb]) fun s => by simp [replyParts]

@[simp] theorem laneSpareBody_but {l : List Block} (h : .out ∈ l ∧ .prt ∈ l) (port action lane : Nat) (s : State) :
    (laneSpareBody port action lane s).All fun u => u.but l = s.but l := by
  simp [laneSpareBody, h]

theorem execLaneSpare_keeps (h : HlyHdr) (port action lane : Nat) (s : State) : KeepsBut (execLaneSpare h port action lane s) s ((.prt ::
    replyParts h)) :=
  keepsBut_runHly (fun _ hb => by simp [hb]) fun s => by simp [replyParts]

@[simp] theorem laneTestBody_but {l : List Block} (h : .out ∈ l ∧ .prt ∈ l) (lane function pattern userPattern inject symbols every : Nat) (s :
    State) : (laneTestBody lane function pattern userPattern inject symbols every s).All fun u => u.but l = s.but l := by
  simp [laneTestBody, h]

theorem execLaneTest_keeps (h : HlyHdr) (lane function pattern userPattern inject symbols every : Nat) (s : State) : KeepsBut
    (execLaneTest h lane function pattern userPattern inject symbols every s) s ((.prt :: replyParts h)) :=
  keepsBut_runHly (fun _ hb => by simp [hb]) fun s => by simp [replyParts]

theorem execLaneQuery_keeps (h : HlyHdr) (port : Nat) (s : State) : KeepsBut (execLaneQuery h port s) s (replyParts h) :=
  keepsBut_runHly (fun _ hb => hb) fun s => by simp [replyParts]

theorem execLossOfSignal_keeps (lane : Nat) (s : State) : KeepsBut (execLossOfSignal lane s) s [.out, .masthead, .hly, .ftu, .obf, .lnk, .trn, .prt,
    .ins, .msix, .pwr, .flt, .ttc] := by
  exact keepsBut_ends (by simp)

theorem execLossOfLock_keeps (lane : Nat) (s : State) : KeepsBut (execLossOfLock lane s) s [.out, .masthead, .hly, .ftu, .obf, .lnk, .trn, .prt,
    .ins, .msix, .pwr, .flt, .ttc] := by
  exact keepsBut_ends (by simp)

theorem execCodewordLockLoss_keeps (port : Nat) (s : State) : KeepsBut (execCodewordLockLoss port s) s [.out, .lnk, .prt, .ins, .msix, .flt, .ttc] :=
    by
  exact keepsBut_ends (by simp)

theorem execCorrWindowEnd_keeps (lane corrected : Nat) (s : State) : KeepsBut (execCorrWindowEnd lane corrected s) s [.out, .masthead, .hly, .ftu,
    .obf, .trn, .prt, .ins, .msix, .pwr, .flt, .ttc] := by
  exact keepsBut_ends (by simp)

theorem execMarginReport_keeps (lane margin : Nat) (s : State) : KeepsBut (execMarginReport lane margin s) s [.out, .masthead, .hly, .ftu, .obf,
    .trn, .prt, .ins, .msix, .pwr, .flt, .ttc] := by
  refine keepsBut_ends ?_
  (repeat' split) <;> simp

theorem execWearFlag_keeps (lane : Nat) (s : State) : KeepsBut (execWearFlag lane s) s [.out, .masthead, .hly, .ftu, .obf, .trn, .prt, .ins, .msix,
    .pwr, .flt, .ttc] := by
  exact keepsBut_ends (by simp)

theorem execTrainDetectSignal_keeps (lane : Nat) (s : State) : KeepsBut (execTrainDetectSignal lane s) s [.out, .prt] := by
  exact keepsBut_ends (by simp)

theorem execTrainingSequenceReceive_keeps (lane : Nat) (seq : TrainSeq) (s : State) : KeepsBut (execTrainingSequenceReceive lane seq s) s [.out,
    .prt, .ins, .msix, .flt, .ttc] := by
  exact keepsBut_ends (by simp)

theorem execEqualiseTimeout_keeps (port : Nat) (s : State) : KeepsBut (execEqualiseTimeout port s) s [.out, .prt, .ins, .msix, .flt, .ttc] := by
  exact keepsBut_ends (by simp)

theorem execLockAchieved_keeps (port : Nat) (skews : List Nat) (s : State) : KeepsBut (execLockAchieved port skews s) s [.freeCount, .out, .masthead,
    .hly, .ftu, .adm, .obf, .egs, .rte, .lnk, .trn, .prt, .ins, .msix, .pwr, .flt, .ttc] := by
  exact keepsBut_ends (by simp)

theorem execTrainTimeout_keeps (port : Nat) (s : State) : KeepsBut (execTrainTimeout port s) s [.out, .prt, .ins, .msix, .flt, .ttc] := by
  exact keepsBut_ends (by simp)

theorem execBackoffElapsed_keeps (port : Nat) (s : State) : KeepsBut (execBackoffElapsed port s) s [.out, .egs, .prt] := by
  exact keepsBut_ends (by simp)

theorem execIdleEntryExpiry_keeps (port : Nat) (s : State) : KeepsBut (execIdleEntryExpiry port s) s [.out, .prt] := by
  exact keepsBut_ends (by simp)

theorem execFastExit_keeps (port : Nat) (s : State) : KeepsBut (execFastExit port s) s [.prt] := by
  exact keepsBut_ends (by simp)

theorem execFastExitLockTimeout_keeps (port : Nat) (s : State) : KeepsBut (execFastExitLockTimeout port s) s [.out, .lnk, .prt, .ins, .msix, .flt,
    .ttc] := by
  exact keepsBut_ends (by simp)

theorem execIdleEnter_keeps (port : Nat) (msg : BitVec 64) (s : State) : KeepsBut (execIdleEnter port msg s) s [.prt] := by
  exact keepsBut_ends (by simp)

theorem execSubReq_keeps (port : Nat) (msg : BitVec 64) (s : State) : KeepsBut (execSubReq port msg s) s [.out, .prt] := by
  exact keepsBut_ends (by simp)

theorem execSubAck_keeps (port : Nat) (msg : BitVec 64) (s : State) : KeepsBut (execSubAck port msg s) s [.prt] := by
  refine keepsBut_ends ?_
  (repeat' split) <;> simp

theorem execSubCompareDone_keeps (port differing : Nat) (s : State) : KeepsBut (execSubCompareDone port differing s) s [.out, .masthead, .hly, .ftu,
    .obf, .trn, .prt, .ins, .msix, .pwr, .flt, .ttc] := by
  refine keepsBut_ends ?_
  (repeat' split) <;> simp

theorem execSubDone_keeps (port : Nat) (msg : BitVec 64) (s : State) : KeepsBut (execSubDone port msg s) s [.out, .masthead, .hly, .ftu, .obf, .trn,
    .prt, .ins, .msix, .pwr, .flt, .ttc] := by
  refine keepsBut_ends ?_
  (repeat' split) <;> simp

theorem execSubAbort_keeps (port : Nat) (msg : BitVec 64) (s : State) : KeepsBut (execSubAbort port msg s) s [.out, .masthead, .hly, .ftu, .obf,
    .trn, .prt, .ins, .msix, .pwr, .flt, .ttc] := by
  refine keepsBut_ends ?_
  (repeat' split) <;> simp

theorem execStepMsg_keeps (port : Nat) (msg : BitVec 64) (s : State) : KeepsBut (execStepMsg port msg s) s [.out, .prt] := by
  exact keepsBut_ends (by simp)

theorem execStepAck_keeps (port : Nat) (msg : BitVec 64) (s : State) : KeepsBut (execStepAck port msg s) s [.prt] := by
  exact keepsBut_ends (by simp)

theorem execRateStepComplete_keeps (port : Nat) (s : State) : KeepsBut (execRateStepComplete port s) s [.out, .masthead, .hly, .ftu, .adm, .obf,
    .egs, .lnk, .trn, .prt, .ins, .msix, .pwr, .flt, .ttc] := by
  refine keepsBut_ends ?_
  (repeat' split) <;> simp

theorem execRateStepTimeout_keeps (port : Nat) (s : State) : KeepsBut (execRateStepTimeout port s) s [.out, .lnk, .prt, .ttc] := by
  exact keepsBut_ends (by simp)

theorem execWake_keeps (port : Nat) (msg : BitVec 64) (s : State) : KeepsBut (execWake port msg s) s [.out, .lnk, .prt, .ttc] := by
  exact keepsBut_ends (by simp)

theorem execTestReq_keeps (port : Nat) (msg : BitVec 64) (s : State) : KeepsBut (execTestReq port msg s) s [.out] := by
  exact keepsBut_ends (by simp)

theorem execTestAck_keeps (port : Nat) (msg : BitVec 64) (s : State) : KeepsBut (execTestAck port msg s) s [.prt] := by
  exact keepsBut_ends (by simp)

theorem execPrbsCheckerLock_keeps (lane : Nat) (s : State) : KeepsBut (execPrbsCheckerLock lane s) s [.prt] := by
  exact keepsBut_ends (by simp)

theorem execPrbsLockLoss_keeps (lane : Nat) (s : State) : KeepsBut (execPrbsLockLoss lane s) s [.prt] := by
  exact keepsBut_ends (by simp)

theorem execViralReceived_keeps (port : Nat) (s : State) : KeepsBut (execViralReceived port s) s [.out, .ins, .msix, .flt, .ttc] := by
  exact keepsBut_ends (by simp)

/-! ### Power, slots and modes -/

@[simp] theorem State.changeRes_but {l : List Block} (h : .out ∈ l ∧ .masthead ∈ l ∧ .hly ∈ l ∧ .ftu ∈ l ∧ .obf ∈ l ∧ .trn ∈ l ∧ .ins ∈ l ∧
    .msix ∈ l ∧ .pwr ∈ l) (s : State) : (s.changeRes).All fun u => u.but l = s.but l := by
  simp [State.changeRes, h]

/-- Steps of ports that a change of mode begins leave the target and whether it drains. -/
theorem State.stepPorts_change {s : State} {x : ModeChange} (hx : s.pwr.change = some x) (ps : List Nat) (target : Nat → Nat × Nat) :
    ∃ steps, (s.stepPorts ps target).pwr.change = some { x with steps } := by
  have hp : ∀ t : State, ∀ qs : List Nat, (qs.foldl (fun s p => s.stepPort p (target p).1 (target p).2) t).pwr = t.pwr := fun t qs =>
    (State.but_eq_iff.mp (foldl_but (l := [.out, .lnk, .prt, .ttc]) (fun s p => by simp) qs t)).2 .pwr (by decide)
  exact ⟨ps.filter fun p => (s.port p).trainedRate ≠ some (target p).1 || (s.port p).trainedWidth ≠ some (target p).2 || (s.port p).subst.isSome,
    by simp only [State.stepPorts, State.upPwr_pwr, hp, hx, Option.map_some]⟩

/-- The end of a change of mode that does not enter storm jib leaves the time units. -/
theorem State.modeDone_but_awake {l : List Block} (h : .out ∈ l ∧ .hly ∈ l ∧ .obf ∈ l ∧ .trn ∈ l ∧ .ins ∈ l ∧ .msix ∈ l ∧ .pwr ∈ l) {s : State}
    {x : ModeChange} (hx : s.pwr.change = some x) (ht : x.target = .stormJib → x.draining = true) : s.modeDone.but l = s.but l := by
  simp only [State.modeDone, hx]
  split
  · rfl
  · next hd =>
    split
    · next e => simp [ht e] at hd
    · simp [h]
    · simp [h]
    · rfl

theorem State.changeRes_but_awake {l : List Block} (h : .out ∈ l ∧ .hly ∈ l ∧ .obf ∈ l ∧ .trn ∈ l ∧ .ins ∈ l ∧ .msix ∈ l ∧ .pwr ∈ l) {s : State}
    {x : ModeChange} (hx : s.pwr.change = some x) (ht : x.target = .stormJib → x.draining = true) :
    s.changeRes.All fun u => u.but l = s.but l := by
  rw [State.changeRes]
  split
  · exact .done (State.modeDone_but_awake h hx ht)
  · exact .pend rfl

theorem State.stepPorts_changeRes_but {l : List Block}
    (h : .out ∈ l ∧ .hly ∈ l ∧ .obf ∈ l ∧ .lnk ∈ l ∧ .trn ∈ l ∧ .prt ∈ l ∧ .ins ∈ l ∧ .msix ∈ l ∧ .pwr ∈ l ∧ .ttc ∈ l) {s : State} {x : ModeChange}
    (hx : s.pwr.change = some x) (ht : x.target ≠ .stormJib) (ps : List Nat) (target : Nat → Nat × Nat) :
    (s.stepPorts ps target).changeRes.All fun u => u.but l = s.but l := by
  obtain ⟨steps, hs⟩ := State.stepPorts_change hx ps target
  exact .but_trans (by simp [h]) (State.changeRes_but_awake (by simp [h]) hs fun e => absurd e ht)

theorem State.beginMode_but {l : List Block}
    (h : .out ∈ l ∧ .hly ∈ l ∧ .adm ∈ l ∧ .obf ∈ l ∧ .lnk ∈ l ∧ .trn ∈ l ∧ .prt ∈ l ∧ .ins ∈ l ∧ .msix ∈ l ∧ .pwr ∈ l ∧ .ttc ∈ l)
    (s : State) (target : Mode) (reefForm : Nat) (force : Bool) : (s.beginMode target reefForm force).All fun u => u.but l = s.but l := by
  have hl : .out ∈ l ∧ .hly ∈ l ∧ .obf ∈ l ∧ .lnk ∈ l ∧ .trn ∈ l ∧ .prt ∈ l ∧ .ins ∈ l ∧ .msix ∈ l ∧ .pwr ∈ l ∧ .ttc ∈ l := by simp [h]
  have hd : .out ∈ l ∧ .hly ∈ l ∧ .obf ∈ l ∧ .trn ∈ l ∧ .ins ∈ l ∧ .msix ∈ l ∧ .pwr ∈ l := by simp [h]
  unfold State.beginMode
  cases target
  case fullSail => exact .but_trans (by simp [h]) (State.stepPorts_changeRes_but hl rfl (by simp) _ _)
  case reefed =>
    have hk : ∀ t : State, t.keepSail.pwr = t.pwr := fun t => (State.but_eq_iff.mp (State.keepSail_but (l := [.prt]) (by simp) t)).2 .pwr (by decide)
    dsimp only
    split
    · exact .but_trans (by simp [h]) (State.stepPorts_changeRes_but hl (by rw [hk]; rfl) (by simp) _ _)
    · exact .but_trans (by simp [h]) (State.stepPorts_changeRes_but hl rfl (by simp) _ _)
  case stormJib => exact .but_trans (by simp [h]) (State.changeRes_but_awake hd rfl fun _ => rfl)
  case barePoles => exact .but_trans (by simp [h]) (State.changeRes_but_awake hd rfl (by simp))

/-- Outside bare poles, which a command leaves by a reset. -/
theorem modeSetBody_but {l : List Block} (h : .out ∈ l ∧ .hly ∈ l ∧ .adm ∈ l ∧ .obf ∈ l ∧ .lnk ∈ l ∧ .trn ∈ l ∧ .prt ∈ l ∧ .ins ∈ l ∧ .msix ∈ l ∧
    .pwr ∈ l ∧ .ttc ∈ l)
    (mode reefForm : Nat) (force : Bool) {s : State} (hm : s.pwr.mode ≠ .barePoles) :
    (modeSetBody mode reefForm force s).All fun u => u.but l = s.but l := by
  rw [modeSetBody]
  refine HRes.all_refuseIf ?_
  split
  · simp
  · exact HRes.all_refuseIf (State.beginMode_but (by simp [h]) _ _ _ _)

theorem execModeSet_keeps (h : HlyHdr) (mode reefForm : Nat) (force : Bool) {s : State} (hm : s.pwr.mode ≠ .barePoles) :
    KeepsBut (execModeSet h mode reefForm force s) s (.obf :: .trn :: .adm :: .lnk :: .prt :: .pwr :: .ttc :: replyParts h) :=
  keepsBut_runHly_of (fun _ hb => by simp [hb]) (modeSetBody_but (by simp [replyParts]) _ _ _ (by simpa using hm))

theorem execStormJibDrained_keeps (s : State) : KeepsBut (execStormJibDrained s) s [.out, .masthead, .hly, .ftu, .obf, .lnk, .trn, .prt, .ins, .msix,
    .pwr, .ttc] := by
  refine keepsBut_ends ?_
  (repeat' split) <;> simp

theorem execStormJibWake_keeps (cause : Nat) (s : State) : KeepsBut (execStormJibWake cause s) s [.out, .masthead, .hly, .ftu, .adm, .obf, .lnk,
    .trn, .prt, .ins, .msix, .pwr, .ttc] := by
  exact keepsBut_ends (by simp)

theorem execBarePolesCommandTimeout_keeps (s : State) : KeepsBut (execBarePolesCommandTimeout s) s [.out, .hly, .obf, .trn, .ins, .msix] := by
  exact keepsBut_ends (by simp)

@[simp] theorem pwrSetBody_but {l : List Block} (h : .out ∈ l ∧ .ins ∈ l ∧ .msix ∈ l ∧ .pwr ∈ l ∧ .flt ∈ l ∧ .ttc ∈ l) (feed cm : Nat) (set :
    ChanSet) (rearm : Bool) (windowMs wakeGpio sleepIdle powerOffIdle : Nat) (s : State) :
    (pwrSetBody feed cm set rearm windowMs wakeGpio sleepIdle powerOffIdle s).All fun u => u.but l = s.but l := by
  simp [pwrSetBody, h]

theorem execPwrSet_keeps (h : HlyHdr) (feed cm : Nat) (set : ChanSet) (rearm : Bool) (windowMs wakeGpio sleepIdle powerOffIdle : Nat) (s : State) :
    KeepsBut (execPwrSet h feed cm set rearm windowMs wakeGpio sleepIdle powerOffIdle s) s ((.pwr :: .flt :: .ttc :: replyParts h)) :=
  keepsBut_runHly (fun _ hb => by simp [hb]) fun s => by simp [replyParts]

theorem execPwrQuery_keeps (h : HlyHdr) (channel : Nat) (s : State) : KeepsBut (execPwrQuery h channel s) s (replyParts h) :=
  keepsBut_runHly (fun _ hb => hb) fun s => by simp [replyParts]

@[simp] theorem pwrCaptureBody_but {l : List Block} (h : .pwr ∈ l) (action mask channel first count : Nat) (s : State) :
    (pwrCaptureBody action mask channel first count s).All fun u => u.but l = s.but l := by
  simp only [pwrCaptureBody]
  (repeat' split) <;> simp [h]

theorem execPwrCapture_keeps (h : HlyHdr) (action mask channel first count : Nat) (s : State) : KeepsBut
    (execPwrCapture h action mask channel first count s) s ((.pwr :: replyParts h)) :=
  keepsBut_runHly (fun _ hb => by simp [hb]) fun s => by simp [replyParts]

@[simp] theorem slotSetBody_but {l : List Block} (h : .out ∈ l ∧ .pool ∈ l ∧ .ins ∈ l ∧ .msix ∈ l ∧ .pwr ∈ l ∧ .flt ∈ l ∧ .ttc ∈ l) (slot cm : Nat)
    (enable autoPower pginUse : Bool) (set : ChanSet) (s : State) : (slotSetBody slot cm enable autoPower pginUse set s).All fun u =>
    u.but l = s.but l := by
  simp [slotSetBody, h]

theorem execSlotSet_keeps (h : HlyHdr) (slot cm : Nat) (enable autoPower pginUse : Bool) (set : ChanSet) (s : State) : KeepsBut
    (execSlotSet h slot cm enable autoPower pginUse set s) s ((.pool :: .pwr :: .flt :: .ttc :: replyParts h)) :=
  keepsBut_runHly (fun _ hb => by simp [hb]) fun s => by simp [replyParts]

@[simp] theorem slotPowerBody_but {l : List Block} (h : .out ∈ l ∧ .hly ∈ l ∧ .obf ∈ l ∧ .trn ∈ l ∧ .pool ∈ l ∧ .dir ∈ l ∧ .mec ∈ l ∧ .ins ∈ l ∧
    .msix ∈ l ∧ .pwr ∈ l ∧ .flt ∈ l ∧ .ttc ∈ l) (slot : Nat) (on force : Bool) (s : State) : (slotPowerBody slot on force s).All fun u =>
    u.but l = s.but l := by
  simp [slotPowerBody, h]

theorem execSlotPower_keeps (h : HlyHdr) (slot : Nat) (on force : Bool) (s : State) : KeepsBut (execSlotPower h slot on force s) s ((.freeCount ::
    .ftu :: .adm :: .obf :: .egs :: .rte :: .lnk :: .trn :: .pool :: .dir :: .mec :: .mtc :: .pwr :: .flt :: .ttc :: replyParts h)) :=
  keepsBut_runHly (fun _ hb => by simp [hb]) fun s => by simp [replyParts]

theorem execSlotQuery_keeps (h : HlyHdr) (slot : Nat) (s : State) : KeepsBut (execSlotQuery h slot s) s (replyParts h) :=
  keepsBut_runHly (fun _ hb => hb) fun s => by simp [replyParts]

theorem execFeedWindowEnter_keeps (feed voltage : Nat) (s : State) : KeepsBut (execFeedWindowEnter feed voltage s) s [.pwr] := by
  exact keepsBut_ends (by simp)

theorem execFeedWindowExit_keeps {l : List Block} (h : .out ∈ l ∧ .ins ∈ l ∧ .msix ∈ l ∧ .pwr ∈ l ∧ .flt ∈ l ∧ .ttc ∈ l) (feed voltage : Nat) {s :
    State} (hw : s.mayWake l) :
    KeepsBut (execFeedWindowExit feed voltage s) s l := by
  rw [execFeedWindowExit]
  refine keepsBut_ends ?_
  split
  · rfl
  · dsimp only
    rw [State.powerEvent_but (by simp [h])]
    split
    · rw [State.windowTrip_but (by simp [h]) (State.mayWake_congr (by simp [State.upChan]) (by simp [State.upChan]) hw)]; simp [h]
    · simp [h]

theorem execInsertionDelayElapsed_keeps (feed : Nat) (s : State) : KeepsBut (execInsertionDelayElapsed feed s) s [.pwr] := by
  exact keepsBut_ends (by simp)

theorem execReverseCurrent_keeps (feed : Nat) (s : State) : KeepsBut (execReverseCurrent feed s) s [.out, .ins, .msix, .pwr, .flt, .ttc] := by
  exact keepsBut_ends (by simp)

theorem execReverseRecovery_keeps (feed : Nat) (s : State) : KeepsBut (execReverseRecovery feed s) s [.pwr] := by
  exact keepsBut_ends (by simp)

theorem execFeedBelow5v_keeps (feed : Nat) (s : State) : KeepsBut (execFeedBelow5v feed s) s [.out, .ins, .msix, .pwr, .flt, .ttc] := by
  exact keepsBut_ends (by simp)

theorem execThermalTrip_keeps (sensor : Nat) (s : State) : KeepsBut (execThermalTrip sensor s) s [.out, .ins, .msix, .pwr, .flt, .ttc] := by
  exact keepsBut_ends (by simp)

theorem execTemperatureReading_keeps (sensor : Nat) (celsius : Int) (s : State) : KeepsBut (execTemperatureReading sensor celsius s) s [.out, .ins,
    .msix, .pwr, .flt, .ttc] := by
  exact keepsBut_ends (by simp)

theorem execRampComplete_keeps (channel : Nat) (s : State) : KeepsBut (execRampComplete channel s) s [.pwr] := by
  exact keepsBut_ends (by simp)

theorem execQualificationDone_keeps (channel : Nat) (pgin : Bool) (s : State) : KeepsBut (execQualificationDone channel pgin s) s [.out, .pool, .ins,
    .msix, .pwr, .flt, .ttc] := by
  exact keepsBut_ends (by simp)

theorem execCurrentOverLimit_keeps (channel current : Nat) (s : State) : KeepsBut (execCurrentOverLimit channel current s) s [.pwr] := by
  exact keepsBut_ends (by simp)

theorem execCurrentBelowRecovery_keeps (channel current : Nat) (s : State) : KeepsBut (execCurrentBelowRecovery channel current s) s [.pwr] := by
  exact keepsBut_ends (by simp)

theorem execFaultTimerTrip_keeps {l : List Block} (h : .freeCount ∈ l ∧ .out ∈ l ∧ .hly ∈ l ∧ .ftu ∈ l ∧ .adm ∈ l ∧ .obf ∈ l ∧ .egs ∈ l ∧ .rte ∈ l ∧
    .lnk ∈ l ∧ .trn ∈ l ∧ .pool ∈ l ∧ .dir ∈ l ∧ .mec ∈ l ∧ .mtc ∈ l ∧ .ins ∈ l ∧ .msix ∈ l ∧ .pwr ∈ l ∧ .flt ∈ l ∧ .ttc ∈ l) (channel : Nat) {s :
    State} (hw : s.mayWake l) :
    KeepsBut (execFaultTimerTrip channel s) s l := by
  exact keepsBut_ends (by simp [hw, h])

theorem execFastTrip_keeps {l : List Block} (h : .freeCount ∈ l ∧ .out ∈ l ∧ .hly ∈ l ∧ .ftu ∈ l ∧ .adm ∈ l ∧ .obf ∈ l ∧ .egs ∈ l ∧ .rte ∈ l ∧
    .lnk ∈ l ∧ .trn ∈ l ∧ .pool ∈ l ∧ .dir ∈ l ∧ .mec ∈ l ∧ .mtc ∈ l ∧ .ins ∈ l ∧ .msix ∈ l ∧ .pwr ∈ l ∧ .flt ∈ l ∧ .ttc ∈ l) (channel : Nat)
    (withEnergy : Bool) {s : State} (hw : s.mayWake l) :
    KeepsBut (execFastTrip channel withEnergy s) s l := by
  exact keepsBut_ends (by simp [hw, h])

theorem execEnergyBudgetTrip_keeps {l : List Block} (h : .freeCount ∈ l ∧ .out ∈ l ∧ .hly ∈ l ∧ .ftu ∈ l ∧ .adm ∈ l ∧ .obf ∈ l ∧ .egs ∈ l ∧
    .rte ∈ l ∧ .lnk ∈ l ∧ .trn ∈ l ∧ .pool ∈ l ∧ .dir ∈ l ∧ .mec ∈ l ∧ .mtc ∈ l ∧ .ins ∈ l ∧ .msix ∈ l ∧ .pwr ∈ l ∧ .flt ∈ l ∧ .ttc ∈ l) (channel :
    Nat) {s : State} (hw : s.mayWake l) :
    KeepsBut (execEnergyBudgetTrip channel s) s l := by
  exact keepsBut_ends (by simp [hw, h])

theorem execRampTimeout_keeps {l : List Block} (h : .freeCount ∈ l ∧ .out ∈ l ∧ .hly ∈ l ∧ .ftu ∈ l ∧ .adm ∈ l ∧ .obf ∈ l ∧ .egs ∈ l ∧ .rte ∈ l ∧
    .lnk ∈ l ∧ .trn ∈ l ∧ .pool ∈ l ∧ .dir ∈ l ∧ .mec ∈ l ∧ .mtc ∈ l ∧ .ins ∈ l ∧ .msix ∈ l ∧ .pwr ∈ l ∧ .flt ∈ l ∧ .ttc ∈ l) (channel : Nat) {s :
    State} (hw : s.mayWake l) :
    KeepsBut (execRampTimeout channel s) s l := by
  exact keepsBut_ends (by simp [hw, h])

theorem execCoolDownElapsed_keeps (channel : Nat) (s : State) : KeepsBut (execCoolDownElapsed channel s) s [.pwr] := by
  exact keepsBut_ends (by simp)

theorem execAttemptCountReset_keeps (channel : Nat) (s : State) : KeepsBut (execAttemptCountReset channel s) s [.pwr] := by
  exact keepsBut_ends (by simp)

theorem execPresenceDebounced_keeps {l : List Block} (h : .pool ∈ l ∧ .pwr ∈ l ∧ .icu ∈ l) (slot : Nat) {s : State} (hw : s.mayWake l) :
    KeepsBut (execPresenceDebounced slot s) s l := by
  exact keepsBut_ends (by simp [hw, h])

theorem execPresenceLost_keeps {l : List Block} (h : .freeCount ∈ l ∧ .out ∈ l ∧ .hly ∈ l ∧ .ftu ∈ l ∧ .adm ∈ l ∧ .obf ∈ l ∧ .egs ∈ l ∧ .rte ∈ l ∧
    .lnk ∈ l ∧ .trn ∈ l ∧ .prt ∈ l ∧ .pool ∈ l ∧ .dir ∈ l ∧ .mec ∈ l ∧ .mtc ∈ l ∧ .ins ∈ l ∧ .msix ∈ l ∧ .pwr ∈ l ∧ .flt ∈ l ∧ .ttc ∈ l ∧ .icu ∈ l)
    (slot port : Nat) (linkDown : Bool) {s : State} (hw : s.mayWake l) :
    KeepsBut (execPresenceLost slot port linkDown s) s l := by
  exact keepsBut_ends (by simp [hw, h])

theorem execPginFall_keeps (slot : Nat) (s : State) : KeepsBut (execPginFall slot s) s [.out, .ins, .msix, .pwr, .flt, .ttc] := by
  exact keepsBut_ends (by simp)

theorem execMeasurementWindowEnd_keeps (channel vPeak vMin iPeak iMin pMean energy : Nat) (s : State) : KeepsBut
    (execMeasurementWindowEnd channel vPeak vMin iPeak iMin pMean energy s) s [.pwr] := by
  exact keepsBut_ends (by simp)

theorem execCaptureRecord_keeps (channel voltage current power cause : Nat) (s : State) : KeepsBut
    (execCaptureRecord channel voltage current power cause s) s [.pwr] := by
  exact keepsBut_ends (by simp)

theorem execContinuousCaptureEnd_keeps (channel : Nat) (s : State) : KeepsBut (execContinuousCaptureEnd channel s) s [.pwr] := by
  exact keepsBut_ends (by simp)

theorem execSleepIdleExpiry_keeps (domain : Nat) (s : State) : KeepsBut (execSleepIdleExpiry domain s) s [.pwr] := by
  exact keepsBut_ends (by simp)

theorem execPowerOffIdleExpiry_keeps (domain : Nat) (s : State) : KeepsBut (execPowerOffIdleExpiry domain s) s [.pwr] := by
  exact keepsBut_ends (by simp)

theorem execDomainOffDone_keeps (domain : Nat) (s : State) : KeepsBut (execDomainOffDone domain s) s [.pwr] := by
  exact keepsBut_ends (by simp)

theorem execDomainPacketArrival_keeps (domain : Nat) (p : Packet) (s : State) : KeepsBut (execDomainPacketArrival domain p s) s [.freeCount, .out,
    .adm, .obf, .rte, .trn, .mec, .mtc, .ins, .msix, .pwr, .flt, .ttc] := by
  refine keepsBut_ends ?_
  (repeat' split) <;> simp

theorem execDomainWakeDone_keeps (domain : Nat) (s : State) : KeepsBut (execDomainWakeDone domain s) s [.out, .hly, .obf, .trn, .ins, .msix, .pwr] :=
    by
  exact keepsBut_ends (by simp)

theorem execDomainWakeTimeout_keeps (domain : Nat) (s : State) : KeepsBut (execDomainWakeTimeout domain s) s [.out, .ins, .msix, .pwr, .flt, .ttc] :=
    by
  exact keepsBut_ends (by simp)

/-! ### Firmware and boot -/

theorem execDeviceReset_keeps (h : HlyHdr) (kind : Nat) (s : State) : KeepsBut (execDeviceReset h kind s) s ((.mgc :: replyParts h)) :=
  keepsBut_runHly (fun _ hb => by simp [hb]) fun s => by simp [replyParts]

@[simp] theorem fwWriteBody_but {l : List Block} (h : .mgc ∈ l) (slot offset : Nat) (final : Bool) (data : List Nat) (s : State) :
    (fwWriteBody slot offset final data s).All fun u => u.but l = s.but l := by
  simp [fwWriteBody, h]

theorem execFwWrite_keeps (h : HlyHdr) (slot offset : Nat) (final : Bool) (data : List Nat) (s : State) : KeepsBut
    (execFwWrite h slot offset final data s) s ((.mgc :: replyParts h)) :=
  keepsBut_runHly (fun _ hb => by simp [hb]) fun s => by simp [replyParts]

@[simp] theorem fwActivateBody_but {l : List Block} (h : .mgc ∈ l) (slot when_ : Nat) (raiseFloor : Bool) (s : State) :
    (fwActivateBody slot when_ raiseFloor s).All fun u => u.but l = s.but l := by
  simp [fwActivateBody, h]

theorem execPerst0Deassertion_keeps (s : State) : KeepsBut (execPerst0Deassertion s) s [.mgc, .out, .prt] := by
  exact keepsBut_ends (by simp)

theorem execJtagInstructionUpdate_keeps (instruction : Nat) (s : State) : KeepsBut (execJtagInstructionUpdate instruction s) s [.mgc] := by
  exact keepsBut_ends (by simp)

@[simp] theorem fabricLeaveBody_but {l : List Block} (h : .rte ∈ l ∧ .prt ∈ l ∧ .mgc ∈ l) (force : Bool) (s : State) :
    (fabricLeaveBody force s).All fun u => u.but l = s.but l := by
  rw [fabricLeaveBody]
  dsimp only
  refine HRes.all_refuseIf ?_
  simp [h]

theorem execFabricLeave_keeps (h : HlyHdr) (force : Bool) (s : State) : KeepsBut (execFabricLeave h force s) s ((.rte :: .prt :: .mgc ::
    replyParts h)) :=
  keepsBut_runHly (fun _ hb => by simp [hb]) fun s => by simp [replyParts]

/-! ### Buffers, egress and arbiters -/

@[simp] theorem bufferAccountSetBody_but {l : List Block} (h : .obf ∈ l) (account minReserve alphaExp markThreshold : Nat) (s : State) :
    (bufferAccountSetBody account minReserve alphaExp markThreshold s).All fun u => u.but l = s.but l := by
  rw [bufferAccountSetBody]
  refine HRes.all_refuseIf ?_
  (repeat' split) <;> simp [h]

theorem execBufferAccountSet_keeps (h : HlyHdr) (account minReserve alphaExp markThreshold : Nat) (s : State) : KeepsBut
    (execBufferAccountSet h account minReserve alphaExp markThreshold s) s ((.obf :: replyParts h)) :=
  keepsBut_runHly (fun _ hb => by simp [hb]) fun s => by simp [replyParts]

@[simp] theorem bufferPoolSetBody_but {l : List Block} (h : .obf ∈ l) (contractPool : Nat) (s : State) :
    (bufferPoolSetBody contractPool s).All fun u => u.but l = s.but l := by
  simp [bufferPoolSetBody, h]

theorem execBufferPoolSet_keeps (h : HlyHdr) (contractPool : Nat) (s : State) : KeepsBut (execBufferPoolSet h contractPool s) s ((.obf ::
    replyParts h)) :=
  keepsBut_runHly (fun _ hb => by simp [hb]) fun s => by simp [replyParts]

@[simp] theorem auditSetBody_but {l : List Block} (h : .obf ∈ l) (enable : Bool) (residencyMs : Nat) (s : State) :
    (auditSetBody enable residencyMs s).All fun u => u.but l = s.but l := by
  simp [auditSetBody, h]

theorem execAuditSet_keeps (h : HlyHdr) (enable : Bool) (residencyMs : Nat) (s : State) : KeepsBut (execAuditSet h enable residencyMs s) s ((.obf ::
    replyParts h)) :=
  keepsBut_runHly (fun _ hb => by simp [hb]) fun s => by simp [replyParts]

@[simp] theorem bufferReclaimBody_but {l : List Block} (h : .freeCount ∈ l ∧ .out ∈ l ∧ .adm ∈ l ∧ .obf ∈ l ∧ .rte ∈ l ∧ .lnk ∈ l ∧ .trn ∈ l ∧
    .ins ∈ l ∧ .msix ∈ l ∧ .flt ∈ l ∧ .ttc ∈ l) (mode queue : Nat) (s : State) : (bufferReclaimBody mode queue s).All fun u => u.but l = s.but l := by
  simp only [bufferReclaimBody]
  (repeat' split) <;> simp [h]

theorem execBufferReclaim_keeps (h : HlyHdr) (mode queue : Nat) (s : State) : KeepsBut (execBufferReclaim h mode queue s) s ((.freeCount :: .adm ::
    .obf :: .rte :: .lnk :: .trn :: .flt :: .ttc :: replyParts h)) :=
  keepsBut_runHly (fun _ hb => by simp [hb]) fun s => by simp [replyParts]

theorem execBufferQuery_keeps (h : HlyHdr) (account : Nat) (s : State) : KeepsBut (execBufferQuery h account s) s (replyParts h) :=
  keepsBut_runHly (fun _ hb => hb) fun s => by simp [replyParts]

theorem execAuditPassEnd_keeps (s : State) : KeepsBut (execAuditPassEnd s) s [.out, .obf, .ins, .msix, .flt, .ttc] := by
  exact keepsBut_ends (by simp)

@[simp] theorem egsLeafBindBody_but {l : List Block} (h : .egs ∈ l) (output sl inst queue weight rate burst : Nat) (tokenReset : Bool) (s : State) :
    (egsLeafBindBody output sl inst queue weight rate burst tokenReset s).All fun u => u.but l = s.but l := by
  simp [egsLeafBindBody, h]

theorem execEgsLeafBind_keeps (h : HlyHdr) (output sl inst queue weight rate burst : Nat) (tokenReset : Bool) (s : State) : KeepsBut
    (execEgsLeafBind h output sl inst queue weight rate burst tokenReset s) s ((.egs :: replyParts h)) :=
  keepsBut_runHly (fun _ hb => by simp [hb]) fun s => by simp [replyParts]

@[simp] theorem egsLeafUnbindBody_but {l : List Block} (h : .egs ∈ l) (queue : Nat) (s : State) : (egsLeafUnbindBody queue s).All fun u =>
    u.but l = s.but l := by
  rw [egsLeafUnbindBody]
  (repeat' split) <;> simp [h]

theorem execEgsLeafUnbind_keeps (h : HlyHdr) (queue : Nat) (s : State) : KeepsBut (execEgsLeafUnbind h queue s) s ((.egs :: replyParts h)) :=
  keepsBut_runHly (fun _ hb => by simp [hb]) fun s => by simp [replyParts]

theorem execLeafDrained_keeps (queue : Nat) (s : State) : KeepsBut (execLeafDrained queue s) s [.out, .hly, .obf, .egs, .trn, .ins, .msix] := by
  refine keepsBut_ends ?_
  (repeat' split) <;> simp

@[simp] theorem egsNodeSetBody_but {l : List Block} (h : .egs ∈ l) (target output sl queue cm weight rate burst : Nat) (tokenReset : Bool) (s :
    State) : (egsNodeSetBody target output sl queue cm weight rate burst tokenReset s).All fun u => u.but l = s.but l := by
  simp [egsNodeSetBody, h]

theorem execEgsNodeSet_keeps (h : HlyHdr) (target output sl queue cm weight rate burst : Nat) (tokenReset : Bool) (s : State) : KeepsBut
    (execEgsNodeSet h target output sl queue cm weight rate burst tokenReset s) s ((.egs :: replyParts h)) :=
  keepsBut_runHly (fun _ hb => by simp [hb]) fun s => by simp [replyParts]

@[simp] theorem egsQueryBody_but {l : List Block} (target output sl queue : Nat) (s : State) : (egsQueryBody target output sl queue s).All fun u =>
    u.but l = s.but l := by
  simp only [egsQueryBody]
  (repeat' split) <;> simp

theorem execEgsQuery_keeps (h : HlyHdr) (target output sl queue : Nat) (s : State) : KeepsBut (execEgsQuery h target output sl queue s) s ((.egs ::
    replyParts h)) :=
  keepsBut_runHly (fun _ hb => by simp [hb]) fun s => by simp [replyParts]

@[simp] theorem arbSetBody_but {l : List Block} (h : .arbs ∈ l) (resource index cm : Nat) (compat : Bool) (thresholdExp requester weight : Nat) (s :
    State) : (arbSetBody resource index cm compat thresholdExp requester weight s).All fun u => u.but l = s.but l := by
  rw [arbSetBody]
  refine HRes.all_refuseIf ?_
  (repeat' split) <;> simp [h]

theorem execArbSet_keeps (h : HlyHdr) (resource index cm : Nat) (compat : Bool) (thresholdExp requester weight : Nat) (s : State) : KeepsBut
    (execArbSet h resource index cm compat thresholdExp requester weight s) s ((.arbs :: replyParts h)) :=
  keepsBut_runHly (fun _ hb => by simp [hb]) fun s => by simp [replyParts]

theorem execArbQuery_keeps (h : HlyHdr) (resource index : Nat) (s : State) : KeepsBut (execArbQuery h resource index s) s (replyParts h) :=
  keepsBut_runHly (fun _ hb => hb) fun s => by simp [replyParts]

theorem execArbStarveThreshold_keeps (resource index requester : Nat) (grantedNow : Bool) (s : State) : KeepsBut
    (execArbStarveThreshold resource index requester grantedNow s) s [.arbs, .ttc] := by
  exact keepsBut_ends (by simp)

theorem execPacketIngress_keeps {l : List Block} (h : .freeCount ∈ l ∧ .out ∈ l ∧ .adm ∈ l ∧ .obf ∈ l ∧ .rte ∈ l ∧ .lnk ∈ l ∧ .trn ∈ l ∧ .mec ∈ l ∧
    .mtc ∈ l ∧ .ins ∈ l ∧ .msix ∈ l ∧ .flt ∈ l ∧ .ttc ∈ l) (input : Nat) (p : Packet) (length rxVl : Nat) (preYellow firstOfOp : Bool) {s : State}
    (hw : s.mayWake l) :
    KeepsBut (execPacketIngress input p length rxVl preYellow firstOfOp s) s l := by
  exact keepsBut_ends (by simp [hw, h])

theorem execRouteRetry_keeps (pid : Nat) (s : State) : KeepsBut (execRouteRetry pid s) s [.freeCount, .out, .adm, .obf, .rte, .lnk, .trn, .mec, .mtc,
    .ins, .msix, .flt, .ttc] := by
  exact keepsBut_ends (by simp)

theorem execBufferAdmission_keeps (pid : Nat) (s : State) : KeepsBut (execBufferAdmission pid s) s [.adm, .obf, .rte, .lnk, .ttc] := by
  exact keepsBut_ends (by simp)

theorem execEgressSelect_keeps (output : Nat) (s : State) : KeepsBut (execEgressSelect output s) s [.out, .ftu, .adm, .obf, .egs, .rte, .lnk,
    .ttc] := by
  exact keepsBut_ends (by simp)

theorem execFramePreempt_keeps (output pid progress : Nat) (s : State) : KeepsBut (execFramePreempt output pid progress s) s [.out, .ftu, .adm, .obf,
    .egs, .lnk, .ttc] := by
  exact keepsBut_ends (by simp)

theorem execSuspendedFrameResume_keeps (output vl : Nat) (s : State) : KeepsBut (execSuspendedFrameResume output vl s) s [.egs] := by
  refine keepsBut_ends ?_
  (repeat' split) <;> simp

theorem execCentralSchedulerMatching_keeps (stagedFirst stagedNext : List Nat) (s : State) : KeepsBut
    (execCentralSchedulerMatching stagedFirst stagedNext s) s [.csc, .lnk, .obf] := by
  exact keepsBut_ends (by simp)

theorem execEdgeWaitRelease_keeps (pid : Nat) (s : State) : KeepsBut (execEdgeWaitRelease pid s) s [.freeCount, .out, .adm, .obf, .rte, .trn, .mec,
    .mtc, .ins, .msix, .flt, .ttc] := by
  exact keepsBut_ends (by simp)

/-! ### Admission -/

@[simp] theorem contractInstallBody_but {l : List Block} (h : .adm ∈ l) (c : ContractP) (s : State) : (contractInstallBody c s).All fun u =>
    u.but l = s.but l := by
  simp [contractInstallBody, h]

theorem execContractInstall_keeps (h : HlyHdr) (c : ContractP) (s : State) : KeepsBut (execContractInstall h c s) s ((.adm :: replyParts h)) :=
  keepsBut_runHly (fun _ hb => by simp [hb]) fun s => by simp [replyParts]

@[simp] theorem contractModifyBody_but {l : List Block} (h : .adm ∈ l ∧ .flt ∈ l) (contractId cm committed peak burst : Nat) (aware : Bool)
    (bound lateThreshold remoteBudget : Nat) (s : State) :
    (contractModifyBody contractId cm committed peak burst aware bound lateThreshold remoteBudget s).All fun u => u.but l = s.but l := by
  rw [contractModifyBody]
  (repeat' split) <;> simp [h]

theorem execContractModify_keeps (h : HlyHdr) (contractId cm committed peak burst : Nat) (aware : Bool) (bound lateThreshold remoteBudget : Nat) (s :
    State) : KeepsBut (execContractModify h contractId cm committed peak burst aware bound lateThreshold remoteBudget s) s ((.adm :: .flt ::
    replyParts h)) :=
  keepsBut_runHly (fun _ hb => by simp [hb]) fun s => by simp [replyParts]

@[simp] theorem contractRemoveBody_but {l : List Block} (h : .adm ∈ l ∧ .obf ∈ l ∧ .flt ∈ l) (contractId : Nat) (s : State) :
    (contractRemoveBody contractId s).All fun u => u.but l = s.but l := by
  rw [contractRemoveBody]
  (repeat' split) <;> simp [h]

theorem execContractRemove_keeps (h : HlyHdr) (contractId : Nat) (s : State) : KeepsBut (execContractRemove h contractId s) s ((.adm :: .obf ::
    .flt :: replyParts h)) :=
  keepsBut_runHly (fun _ hb => by simp [hb]) fun s => by simp [replyParts]

theorem execContractQuery_keeps (h : HlyHdr) (contractId : Nat) (s : State) : KeepsBut (execContractQuery h contractId s) s (replyParts h) :=
  keepsBut_runHly (fun _ hb => hb) fun s => by (repeat' split) <;> simp [replyParts]

@[simp] theorem hopReserveBody_but {l : List Block} (h : .adm ∈ l ∧ .pwr ∈ l) (r : ResvP) (s : State) : (hopReserveBody r s).All fun u =>
    u.but l = s.but l := by
  simp [hopReserveBody, h]

theorem execHopReserve_keeps (h : HlyHdr) (r : ResvP) (s : State) : KeepsBut (execHopReserve h r s) s ((.adm :: .pwr :: replyParts h)) :=
  keepsBut_runHly (fun _ hb => by simp [hb]) fun s => by simp [replyParts]

@[simp] theorem hopReleaseBody_but {l : List Block} (h : .adm ∈ l ∧ .obf ∈ l ∧ .flt ∈ l) (resvId : Nat) (s : State) :
    (hopReleaseBody resvId s).All fun u => u.but l = s.but l := by
  rw [hopReleaseBody]
  (repeat' split) <;> simp [h]

theorem execHopRelease_keeps (h : HlyHdr) (resvId : Nat) (s : State) : KeepsBut (execHopRelease h resvId s) s ((.adm :: .obf :: .flt ::
    replyParts h)) :=
  keepsBut_runHly (fun _ hb => by simp [hb]) fun s => by simp [replyParts]

theorem execHopReleaseDrained_keeps (resvId : Nat) (s : State) : KeepsBut (execHopReleaseDrained resvId s) s [.out, .hly, .adm, .obf, .trn, .ins,
    .msix, .flt] := by
  refine keepsBut_ends ?_
  (repeat' split) <;> simp

theorem execHopReleaseTimeout_keeps (resvId : Nat) (s : State) : KeepsBut (execHopReleaseTimeout resvId s) s [.out, .hly, .adm, .obf, .trn, .ins,
    .msix, .flt] := by
  refine keepsBut_ends ?_
  (repeat' split) <;> simp

@[simp] theorem meterSetBody_but {l : List Block} (h : .adm ∈ l) (inst committed peak committedBurst peakBurst : Nat) (s : State) :
    (meterSetBody inst committed peak committedBurst peakBurst s).All fun u => u.but l = s.but l := by
  simp [meterSetBody, h]

theorem execMeterSet_keeps (h : HlyHdr) (inst committed peak committedBurst peakBurst : Nat) (s : State) : KeepsBut
    (execMeterSet h inst committed peak committedBurst peakBurst s) s ((.adm :: replyParts h)) :=
  keepsBut_runHly (fun _ hb => by simp [hb]) fun s => by simp [replyParts]

@[simp] theorem portReserveSetBody_but {l : List Block} (h : .adm ∈ l ∧ .flt ∈ l) (port fraction : Nat) (s : State) :
    (portReserveSetBody port fraction s).All fun u => u.but l = s.but l := by
  simp [portReserveSetBody, h]

theorem execPortReserveSet_keeps (h : HlyHdr) (port fraction : Nat) (s : State) : KeepsBut (execPortReserveSet h port fraction s) s ((.adm :: .flt ::
    replyParts h)) :=
  keepsBut_runHly (fun _ hb => by simp [hb]) fun s => by simp [replyParts]

/-! ### Routing -/

@[simp] theorem routeWriteBody_but {l : List Block} (h : .rte ∈ l) (tiles mode table first count : Nat) (masks : List Nat) (s : State) :
    (routeWriteBody tiles mode table first count masks s).All fun u => u.but l = s.but l := by
  rw [routeWriteBody]
  dsimp only
  refine HRes.all_refuseIf ?_
  (repeat' split) <;> simp [h]

theorem execRouteWrite_keeps (h : HlyHdr) (tiles mode table first count : Nat) (masks : List Nat) (s : State) : KeepsBut
    (execRouteWrite h tiles mode table first count masks s) s ((.rte :: replyParts h)) :=
  keepsBut_runHly (fun _ hb => by simp [hb]) fun s => by simp [replyParts]

@[simp] theorem routeEpochAdvanceBody_but {l : List Block} (h : .rte ∈ l) (epoch : Nat) (s : State) : (routeEpochAdvanceBody epoch s).All fun u =>
    u.but l = s.but l := by
  simp [routeEpochAdvanceBody, h]

theorem execRouteEpochAdvance_keeps (h : HlyHdr) (epoch : Nat) (s : State) : KeepsBut (execRouteEpochAdvance h epoch s) s ((.rte :: replyParts h)) :=
  keepsBut_runHly (fun _ hb => by simp [hb]) fun s => by simp [replyParts]

@[simp] theorem routeEpochRetireBody_but {l : List Block} (h : .rte ∈ l) (s : State) : (routeEpochRetireBody s).All fun u => u.but l = s.but l := by
  simp [routeEpochRetireBody, h]

theorem execRouteEpochRetire_keeps (h : HlyHdr) (s : State) : KeepsBut (execRouteEpochRetire h s) s ((.rte :: replyParts h)) :=
  keepsBut_runHly (fun _ hb => by simp [hb]) fun s => by simp [replyParts]

@[simp] theorem routePortSetBody_but {l : List Block} (h : .rte ∈ l) (port kind group member : Nat) (up : Bool) (s : State) :
    (routePortSetBody port kind group member up s).All fun u => u.but l = s.but l := by
  simp [routePortSetBody, h]

theorem execRoutePortSet_keeps (h : HlyHdr) (port kind group member : Nat) (up : Bool) (s : State) : KeepsBut
    (execRoutePortSet h port kind group member up s) s ((.rte :: replyParts h)) :=
  keepsBut_runHly (fun _ hb => by simp [hb]) fun s => by simp [replyParts]

theorem execRoutePolicySet_keeps (h : HlyHdr) (sl mode bias : Nat) (s : State) : KeepsBut (execRoutePolicySet h sl mode bias s) s ((.rte ::
    replyParts h)) :=
  keepsBut_runHly (fun _ hb => by simp [hb]) fun s => by simp [replyParts]

@[simp] theorem contractRouteSetBody_but {l : List Block} (h : .adm ∈ l) (contractId mode count : Nat) (groups : List Nat) (s : State) :
    (contractRouteSetBody contractId mode count groups s).All fun u => u.but l = s.but l := by
  rw [contractRouteSetBody]
  (repeat' split) <;> simp [h]

theorem execContractRouteSet_keeps (h : HlyHdr) (contractId mode count : Nat) (groups : List Nat) (s : State) : KeepsBut
    (execContractRouteSet h contractId mode count groups s) s ((.adm :: replyParts h)) :=
  keepsBut_runHly (fun _ hb => by simp [hb]) fun s => by simp [replyParts]

@[simp] theorem routeEndpointSetBody_but {l : List Block} (h : .rte ∈ l) (endpoint target destination : Nat) (s : State) :
    (routeEndpointSetBody endpoint target destination s).All fun u => u.but l = s.but l := by
  simp [routeEndpointSetBody, h]

theorem execRouteEndpointSet_keeps (h : HlyHdr) (endpoint target destination : Nat) (s : State) : KeepsBut
    (execRouteEndpointSet h endpoint target destination s) s ((.rte :: replyParts h)) :=
  keepsBut_runHly (fun _ hb => by simp [hb]) fun s => by simp [replyParts]

@[simp] theorem treeInstallBody_but {l : List Block} (h : .rte ∈ l) (tree : Nat) (valid : Bool) (upstream branches : Nat) (delivery : Delivery)
    (leaves : List Nat) (s : State) : (treeInstallBody tree valid upstream branches delivery leaves s).All fun u => u.but l = s.but l := by
  simp [treeInstallBody, h]

theorem execTreeInstall_keeps (h : HlyHdr) (tree : Nat) (valid : Bool) (upstream branches : Nat) (delivery : Delivery) (leaves : List Nat) (s :
    State) : KeepsBut (execTreeInstall h tree valid upstream branches delivery leaves s) s ((.rte :: replyParts h)) :=
  keepsBut_runHly (fun _ hb => by simp [hb]) fun s => by simp [replyParts]

@[simp] theorem treeRemoveBody_but {l : List Block} (h : .rte ∈ l) (tree : Nat) (s : State) : (treeRemoveBody tree s).All fun u =>
    u.but l = s.but l := by
  rw [treeRemoveBody]
  (repeat' split) <;> simp [h]

theorem execTreeRemove_keeps (h : HlyHdr) (tree : Nat) (s : State) : KeepsBut (execTreeRemove h tree s) s ((.rte :: replyParts h)) :=
  keepsBut_runHly (fun _ hb => by simp [hb]) fun s => by simp [replyParts]

theorem execTreeDrained_keeps (tree : Nat) (s : State) : KeepsBut (execTreeDrained tree s) s [.out, .hly, .obf, .rte, .trn, .ins, .msix] := by
  refine keepsBut_ends ?_
  (repeat' split) <;> simp

@[simp] theorem treeFenceBody_but {l : List Block} (h : .freeCount ∈ l ∧ .out ∈ l ∧ .obf ∈ l ∧ .rte ∈ l ∧ .trn ∈ l ∧ .mec ∈ l ∧ .mtc ∈ l ∧ .ins ∈ l ∧
    .msix ∈ l ∧ .ttc ∈ l) (scope tree branch : Nat) (s : State) : (treeFenceBody scope tree branch s).All fun u => u.but l = s.but l := by
  simp [treeFenceBody, h]

theorem execTreeFence_keeps (h : HlyHdr) (scope tree branch : Nat) (s : State) : KeepsBut (execTreeFence h scope tree branch s) s ((.obf :: .trn ::
    .freeCount :: .rte :: .mec :: .mtc :: .ttc :: replyParts h)) :=
  keepsBut_runHly (fun _ hb => by simp [hb]) fun s => by simp [replyParts]

theorem execHoldSet_keeps (h : HlyHdr) (quota : Nat) (s : State) : KeepsBut (execHoldSet h quota s) s ((.rte :: replyParts h)) :=
  keepsBut_runHly (fun _ hb => by simp [hb]) fun s => by simp [replyParts]

theorem execDiscover_keeps (h : HlyHdr) (s : State) : KeepsBut (execDiscover h s) s (replyParts h) :=
  keepsBut_runHly (fun _ hb => hb) fun s => by simp [replyParts]

@[simp] theorem idAssignBody_but {l : List Block} (h : .rte ∈ l) (deviceId : Nat) (force : Bool) (s : State) :
    (idAssignBody deviceId force s).All fun u => u.but l = s.but l := by
  simp [idAssignBody, h]

theorem execIdAssign_keeps (h : HlyHdr) (deviceId : Nat) (force : Bool) (s : State) : KeepsBut (execIdAssign h deviceId force s) s ((.rte ::
    replyParts h)) :=
  keepsBut_runHly (fun _ hb => by simp [hb]) fun s => by simp [replyParts]

theorem execDirectedReceive_keeps {l : List Block} (h : .waiting ∈ l ∧ .out ∈ l ∧ .obf ∈ l ∧ .trn ∈ l ∧ .ttc ∈ l) (port hopCount hopPtr : Nat)
    (ports : RoutePorts) (message : List Nat) {s : State} (hw : s.mayWake l) :
    KeepsBut (execDirectedReceive port hopCount hopPtr ports message s) s l := by
  rw [execDirectedReceive]
  refine keepsBut_ends ?_
  split
  · rfl
  · dsimp only
    split
    · simp [hw, h]
    · rw [State.setWaiting_but (by simp [h])]; simp [hw]

theorem execNeighbourReceive_keeps {l : List Block} (h : .waiting ∈ l ∧ .rte ∈ l) (port serial neighbourPort : Nat) {s : State} (hw : s.mayWake l) :
    KeepsBut (execNeighbourReceive port serial neighbourPort s) s l := by
  rw [execNeighbourReceive]
  refine keepsBut_ends ?_
  split
  · rfl
  · dsimp only
    split
    · simp [hw, h]
    · rw [State.setWaiting_but (by simp [h])]; simp [hw]

/-! ### The pool -/

@[simp] theorem poolLinkSetBody_but {l : List Block} (h : .pool ∈ l) (link memInst releaseTimeout : Nat) (s : State) :
    (poolLinkSetBody link memInst releaseTimeout s).All fun u => u.but l = s.but l := by
  simp [poolLinkSetBody, h]

theorem execPoolLinkSet_keeps (h : HlyHdr) (link memInst releaseTimeout : Nat) (s : State) : KeepsBut
    (execPoolLinkSet h link memInst releaseTimeout s) s ((.pool :: replyParts h)) :=
  keepsBut_runHly (fun _ hb => by simp [hb]) fun s => by simp [replyParts]

@[simp] theorem extentBindBody_but {l : List Block} (h : .out ∈ l ∧ .pool ∈ l ∧ .dir ∈ l ∧ .mec ∈ l ∧ .ins ∈ l ∧ .msix ∈ l) (b : BindP) (s : State) :
    (extentBindBody b s).All fun u => u.but l = s.but l := by
  rw [extentBindBody]
  dsimp only
  refine HRes.all_refuseIf ?_
  (repeat' split) <;> simp [h]

theorem execExtentBind_keeps (h : HlyHdr) (b : BindP) (s : State) : KeepsBut (execExtentBind h b s) s ((.pool :: .dir :: .mec :: replyParts h)) :=
  keepsBut_runHly (fun _ hb => by simp [hb]) fun s => by simp [replyParts]

theorem execZeroingComplete_keeps (handle : Nat) (s : State) : KeepsBut (execZeroingComplete handle s) s [.out, .hly, .obf, .trn, .pool, .dir, .mec,
    .ins, .msix, .flt] := by
  exact keepsBut_ends (by simp)

@[simp] theorem extentZeroBody_but {l : List Block} (h : .pool ∈ l) (handle count : Nat) (s : State) : (extentZeroBody handle count s).All fun u =>
    u.but l = s.but l := by
  rw [extentZeroBody]
  refine HRes.all_refuseIf ?_
  simp [h]

theorem execExtentZero_keeps (h : HlyHdr) (handle count : Nat) (s : State) : KeepsBut (execExtentZero h handle count s) s ((.pool :: replyParts h)) :=
  keepsBut_runHly (fun _ hb => by simp [hb]) fun s => by simp [replyParts]

@[simp] theorem extentUnbindBody_but {l : List Block} (h : .out ∈ l ∧ .pool ∈ l) (handle count : Nat) (zero : Bool) (s : State) :
    (extentUnbindBody handle count zero s).All fun u => u.but l = s.but l := by
  rw [extentUnbindBody]
  refine HRes.all_refuseIf ?_
  simp [h]

theorem execExtentUnbind_keeps (h : HlyHdr) (handle count : Nat) (zero : Bool) (s : State) : KeepsBut (execExtentUnbind h handle count zero s) s
    ((.pool :: replyParts h)) :=
  keepsBut_runHly (fun _ hb => by simp [hb]) fun s => by simp [replyParts]

theorem execDynamicCapacityRelease_keeps (release : CapacityRelease) (s : State) : KeepsBut (execDynamicCapacityRelease release s) s [.pool] := by
  exact keepsBut_ends (by simp)

theorem execDynamicCapacityAddReject_keeps (handle : Nat) (s : State) : KeepsBut (execDynamicCapacityAddReject handle s) s [.ins, .mec, .msix, .out,
    .pool] := by
  exact keepsBut_ends (by simp)

theorem execUnbindDrainComplete_keeps (handle : Nat) (s : State) : KeepsBut (execUnbindDrainComplete handle s) s [.out, .hly, .obf, .trn, .pool,
    .dir, .ins, .msix, .flt, .ttc] := by
  exact keepsBut_ends (by simp)

@[simp] theorem importMapBody_but {l : List Block} (h : .pool ∈ l) (m : ImportP) (s : State) : (importMapBody m s).All fun u => u.but l = s.but l :=
    by
  rw [importMapBody]
  dsimp only
  refine HRes.all_refuseIf ?_
  (repeat' split) <;> simp [h]

theorem execImportMap_keeps (h : HlyHdr) (m : ImportP) (s : State) : KeepsBut (execImportMap h m s) s ((.pool :: replyParts h)) :=
  keepsBut_runHly (fun _ hb => by simp [hb]) fun s => by simp [replyParts]

theorem execExtentQuery_keeps (h : HlyHdr) (handle count : Nat) (s : State) : KeepsBut (execExtentQuery h handle count s) s (replyParts h) :=
  keepsBut_runHly (fun _ hb => hb) fun s => by simp [replyParts]

@[simp] theorem functionBindBody_but {l : List Block} (h : .pool ∈ l) (port routingId link vslot : Nat) (s : State) :
    (functionBindBody port routingId link vslot s).All fun u => u.but l = s.but l := by
  simp [functionBindBody, h]

theorem execFunctionBind_keeps (h : HlyHdr) (port routingId link vslot : Nat) (s : State) : KeepsBut
    (execFunctionBind h port routingId link vslot s) s ((.pool :: replyParts h)) :=
  keepsBut_runHly (fun _ hb => by simp [hb]) fun s => by simp [replyParts]

@[simp] theorem functionUnbindBody_but {l : List Block} (h : .out ∈ l ∧ .pool ∈ l) (port routingId : Nat) (s : State) :
    (functionUnbindBody port routingId s).All fun u => u.but l = s.but l := by
  rw [functionUnbindBody]
  (repeat' split) <;> simp [h]

theorem execFunctionUnbind_keeps (h : HlyHdr) (port routingId : Nat) (s : State) : KeepsBut (execFunctionUnbind h port routingId s) s ((.pool ::
    replyParts h)) :=
  keepsBut_runHly (fun _ hb => by simp [hb]) fun s => by simp [replyParts]

theorem execVirtualSlotPowerOff_keeps (link vslot : Nat) (s : State) : KeepsBut (execVirtualSlotPowerOff link vslot s) s [.out, .pool] := by
  refine keepsBut_ends ?_
  (repeat' split) <;> simp

theorem execReleaseTimeoutExpiry_keeps (handle : Nat) (isFunction : Bool) (port routingId : Nat) (s : State) : KeepsBut
    (execReleaseTimeoutExpiry handle isFunction port routingId s) s [.out, .pool] := by
  refine keepsBut_ends ?_
  (repeat' split) <;> simp

theorem execFunctionResetComplete_keeps (port routingId : Nat) (s : State) : KeepsBut (execFunctionResetComplete port routingId s) s [.freeCount,
    .out, .hly, .ftu, .adm, .obf, .egs, .rte, .lnk, .trn, .pool, .mec, .mtc, .ins, .msix, .flt, .ttc] := by
  refine keepsBut_ends ?_
  (repeat' split) <;> simp

@[simp] theorem slotRemoveBody_but {l : List Block} (h : .out ∈ l ∧ .egs ∈ l ∧ .prt ∈ l ∧ .pool ∈ l ∧ .ins ∈ l ∧ .msix ∈ l ∧ .pwr ∈ l ∧ .flt ∈ l ∧
    .ttc ∈ l) (port : Nat) (s : State) : (slotRemoveBody port s).All fun u => u.but l = s.but l := by
  rw [slotRemoveBody]
  dsimp only
  refine HRes.all_refuseIf ?_
  simp [h]

theorem execSlotRemove_keeps (h : HlyHdr) (port : Nat) (s : State) : KeepsBut (execSlotRemove h port s) s ((.egs :: .prt :: .pool :: .pwr :: .flt ::
    .ttc :: replyParts h)) :=
  keepsBut_runHly (fun _ hb => by simp [hb]) fun s => by simp [replyParts]

theorem execExpanderEnumerated_keeps (port serial : Nat) (isExpander : Bool) (capacity : Nat) (further functions : List Nat) (s : State) : KeepsBut
    (execExpanderEnumerated port serial isExpander capacity further functions s) s [.out, .pool] := by
  exact keepsBut_ends (by simp)

theorem execPcieLinkTrained_keeps (port rate width : Nat) (cxlOffered flit256 : Bool) (s : State) : KeepsBut
    (execPcieLinkTrained port rate width cxlOffered flit256 s) s [.out, .egs, .prt, .pool, .ins, .msix, .flt, .ttc] := by
  exact keepsBut_ends (by simp)

@[simp] theorem hbmPartitionSetBody_but {l : List Block} (h : .pool ∈ l) (directory matching heaps : Nat) (s : State) :
    (hbmPartitionSetBody directory matching heaps s).All fun u => u.but l = s.but l := by
  simp [hbmPartitionSetBody, h]

theorem execHbmPartitionSet_keeps (h : HlyHdr) (directory matching heaps : Nat) (s : State) : KeepsBut
    (execHbmPartitionSet h directory matching heaps s) s ((.pool :: replyParts h)) :=
  keepsBut_runHly (fun _ hb => by simp [hb]) fun s => by simp [replyParts]

/-! ### Directories -/

@[simp] theorem cohAgentAddBody_but {l : List Block} (h : .dir ∈ l) (agent kind port : Nat) (s : State) :
    (cohAgentAddBody agent kind port s).All fun u => u.but l = s.but l := by
  simp [cohAgentAddBody, h]

theorem execCohAgentAdd_keeps (h : HlyHdr) (agent kind port : Nat) (s : State) : KeepsBut (execCohAgentAdd h agent kind port s) s ((.dir ::
    replyParts h)) :=
  keepsBut_runHly (fun _ hb => by simp [hb]) fun s => by simp [replyParts]

theorem State.recallOrWait_but {l : List Block} (h : .out ∈ l ∧ .hly ∈ l ∧ .obf ∈ l ∧ .trn ∈ l ∧ .pool ∈ l ∧ .dir ∈ l ∧ .ins ∈ l ∧ .msix ∈ l ∧
    .flt ∈ l ∧ .ttc ∈ l) (s : State) (handles agents : List Nat) (holds : List Obj)
    {over_ : State → State} (ho : ∀ s : State, (over_ s).but l = s.but l) :
    (s.recallOrWait handles agents holds over_).All fun u => u.but l = s.but l := by
  rw [State.recallOrWait]
  dsimp only
  split <;> simp [ho, h]

@[simp] theorem cohAgentRemoveBody_but {l : List Block} (h : .out ∈ l ∧ .hly ∈ l ∧ .obf ∈ l ∧ .trn ∈ l ∧ .pool ∈ l ∧ .dir ∈ l ∧ .ins ∈ l ∧
    .msix ∈ l ∧ .flt ∈ l ∧ .ttc ∈ l) (agent : Nat) (s : State) : (cohAgentRemoveBody agent s).All fun u => u.but l = s.but l := by
  rw [cohAgentRemoveBody]
  exact HRes.all_refuseIf (.but_trans (by simp [h]) (State.recallOrWait_but (by simp [h]) _ _ _ _ fun s => by simp [h]))

theorem execCohAgentRemove_keeps (h : HlyHdr) (agent : Nat) (s : State) : KeepsBut (execCohAgentRemove h agent s) s ((.obf :: .trn :: .pool ::
    .dir :: .flt :: .ttc :: replyParts h)) :=
  keepsBut_runHly (fun _ hb => by simp [hb]) fun s => by simp [replyParts]

@[simp] theorem cohWindowCreateBody_but {l : List Block} (h : .dir ∈ l) (window mask : Nat) (s : State) :
    (cohWindowCreateBody window mask s).All fun u => u.but l = s.but l := by
  simp [cohWindowCreateBody, h]

theorem execCohWindowCreate_keeps (h : HlyHdr) (window mask : Nat) (s : State) : KeepsBut (execCohWindowCreate h window mask s) s ((.dir ::
    replyParts h)) :=
  keepsBut_runHly (fun _ hb => by simp [hb]) fun s => by simp [replyParts]

@[simp] theorem cohWindowAgentsBody_but {l : List Block} (h : .out ∈ l ∧ .hly ∈ l ∧ .obf ∈ l ∧ .trn ∈ l ∧ .pool ∈ l ∧ .dir ∈ l ∧ .ins ∈ l ∧
    .msix ∈ l ∧ .flt ∈ l ∧ .ttc ∈ l) (window mask : Nat) (s : State) : (cohWindowAgentsBody window mask s).All fun u => u.but l = s.but l := by
  rw [cohWindowAgentsBody]
  refine HRes.all_refuseIf ?_
  dsimp only
  split
  · simp [h]
  · exact .but_trans (by simp [h]) (State.recallOrWait_but (by simp [h]) _ _ _ _ fun s => rfl)

theorem execCohWindowAgents_keeps (h : HlyHdr) (window mask : Nat) (s : State) : KeepsBut (execCohWindowAgents h window mask s) s ((.obf :: .trn ::
    .pool :: .dir :: .flt :: .ttc :: replyParts h)) :=
  keepsBut_runHly (fun _ hb => by simp [hb]) fun s => by simp [replyParts]

@[simp] theorem cohWindowMapBody_but {l : List Block} (h : .pool ∈ l ∧ .dir ∈ l) (window inst firstSlot : Nat) (map : Bool) (s : State) :
    (cohWindowMapBody window inst firstSlot map s).All fun u => u.but l = s.but l := by
  rw [cohWindowMapBody]
  dsimp only
  refine HRes.all_refuseIf ?_
  (repeat' split) <;> simp [h]

theorem execCohWindowMap_keeps (h : HlyHdr) (window inst firstSlot : Nat) (map : Bool) (s : State) : KeepsBut
    (execCohWindowMap h window inst firstSlot map s) s ((.dir :: .pool :: replyParts h)) :=
  keepsBut_runHly (fun _ hb => by simp [hb]) fun s => by simp [replyParts]

@[simp] theorem cohWindowDestroyBody_but {l : List Block} (h : .dir ∈ l) (window : Nat) (s : State) : (cohWindowDestroyBody window s).All fun u =>
    u.but l = s.but l := by
  simp [cohWindowDestroyBody, h]

theorem execCohWindowDestroy_keeps (h : HlyHdr) (window : Nat) (s : State) : KeepsBut (execCohWindowDestroy h window s) s ((.dir :: replyParts h)) :=
  keepsBut_runHly (fun _ hb => by simp [hb]) fun s => by simp [replyParts]

@[simp] theorem dirSetBody_but {l : List Block} (h : .dir ∈ l) (cm snoopTimeout : Nat) (scrubEnable : Bool) (s : State) :
    (dirSetBody cm snoopTimeout scrubEnable s).All fun u => u.but l = s.but l := by
  simp [dirSetBody, h]

theorem execDirSet_keeps (h : HlyHdr) (cm snoopTimeout : Nat) (scrubEnable : Bool) (s : State) : KeepsBut
    (execDirSet h cm snoopTimeout scrubEnable s) s ((.dir :: replyParts h)) :=
  keepsBut_runHly (fun _ hb => by simp [hb]) fun s => by simp [replyParts]

@[simp] theorem dirQueryBody_but {l : List Block} (h : .freeCount ∈ l) (window extentIndex lineIndex : Nat) (s : State) :
    (dirQueryBody window extentIndex lineIndex s).All fun u => u.but l = s.but l := by
  have hr : (refuseIf [
    (decide (255 < window) || decide (extentLines ≤ lineIndex), 0x011B),
    (!s.dir.windows.has window, 0x031B)] (.ok s)).All fun u => u.but l = s.but l := by simp
  rw [dirQueryBody]
  dsimp only
  generalize refuseIf _ _ = r at hr ⊢
  split
  · simp
  · simp only [HRes.all_done_iff] at hr
    simp [hr, h]
  · exact hr

theorem execDirQuery_keeps (h : HlyHdr) (window extentIndex lineIndex : Nat) (s : State) : KeepsBut
    (execDirQuery h window extentIndex lineIndex s) s ((.freeCount :: replyParts h)) :=
  keepsBut_runHly (fun _ hb => by simp [hb]) fun s => by simp [replyParts]

theorem execCoherentRequest_keeps {l : List Block} (h : .waiting ∈ l ∧ .out ∈ l ∧ .pool ∈ l ∧ .dir ∈ l ∧ .ins ∈ l ∧ .msix ∈ l ∧ .flt ∈ l ∧ .ttc ∈ l)
    (agent : Option Nat) (handle lineIndex : Nat) (op : CohOp) (offset : Nat) (data : List Nat) {s : State} (hw : s.mayWake l) :
    KeepsBut (execCoherentRequest agent handle lineIndex op offset data s) s l := by
  exact keepsBut_ends (by simp [hw, h])

theorem execEvictionNotice_keeps {l : List Block} (h : .waiting ∈ l ∧ .out ∈ l ∧ .pool ∈ l ∧ .dir ∈ l ∧ .ins ∈ l ∧ .msix ∈ l ∧ .flt ∈ l ∧ .ttc ∈ l)
    (agent handle lineIndex : Nat) {s : State} (hw : s.mayWake l) :
    KeepsBut (execEvictionNotice agent handle lineIndex s) s l := by
  exact keepsBut_ends (by simp [hw, h])

theorem execCoherentWriteback_keeps {l : List Block} (h : .waiting ∈ l ∧ .out ∈ l ∧ .pool ∈ l ∧ .dir ∈ l ∧ .ins ∈ l ∧ .msix ∈ l ∧ .flt ∈ l ∧
    .ttc ∈ l) (agent handle lineIndex keep : Nat) (data : List Nat) {s : State} (hw : s.mayWake l) :
    KeepsBut (execCoherentWriteback agent handle lineIndex keep data s) s l := by
  rw [execCoherentWriteback]
  refine keepsBut_ends ?_
  split
  · simp [hw]
  · split
    · rw [State.setWaiting_but (by simp [h])]; simp [hw]
    · simp [hw, h]

theorem execMemoryWriteDone_keeps (handle lineIndex : Nat) (s : State) : KeepsBut (execMemoryWriteDone handle lineIndex s) s [.out, .pool, .dir,
    .ins, .msix, .flt, .ttc] := by
  exact keepsBut_ends (by simp)

theorem execDirectoryReadDone_keeps (handle lineIndex : Nat) (poison : Bool) (s : State) : KeepsBut
    (execDirectoryReadDone handle lineIndex poison s) s [.out, .pool, .dir, .ins, .msix, .flt, .ttc] := by
  exact keepsBut_ends (by simp)

theorem execSnoopResponseReceive_keeps {l : List Block} (h : .out ∈ l ∧ .pool ∈ l ∧ .dir ∈ l ∧ .ins ∈ l ∧ .msix ∈ l ∧ .flt ∈ l ∧ .ttc ∈ l)
    (agent handle lineIndex : Nat) (form : SnoopForm) (data : List Nat) {s : State} (hw : s.mayWake l) :
    KeepsBut (execSnoopResponseReceive agent handle lineIndex form data s) s l := by
  exact keepsBut_ends (by simp [hw, h])

theorem execBiconflictReceive_keeps {l : List Block} (h : .out ∈ l ∧ .dir ∈ l) (agent handle lineIndex : Nat) {s : State} (hw : s.mayWake l) :
    KeepsBut (execBiconflictReceive agent handle lineIndex s) s l := by
  exact keepsBut_ends (by simp [hw, h])

theorem execSnoopTimeoutExpiry_keeps (agent handle lineIndex : Nat) (s : State) : KeepsBut (execSnoopTimeoutExpiry agent handle lineIndex s) s [.out,
    .pool, .dir, .ins, .msix, .flt, .ttc] := by
  exact keepsBut_ends (by simp)

theorem execRecallComplete_keeps (recallId : Nat) (s : State) : KeepsBut (execRecallComplete recallId s) s [.out, .hly, .obf, .trn, .pool, .dir,
    .ins, .msix, .flt, .ttc] := by
  refine keepsBut_ends ?_
  (repeat' split) <;> simp

/-! ### Host memory and imports -/

theorem execHostMemoryAccess_keeps {l : List Block} (h : .waiting ∈ l ∧ .freeCount ∈ l ∧ .out ∈ l ∧ .adm ∈ l ∧ .obf ∈ l ∧ .rte ∈ l ∧ .trn ∈ l ∧
    .pool ∈ l ∧ .dir ∈ l ∧ .mec ∈ l ∧ .mtc ∈ l ∧ .ins ∈ l ∧ .msix ∈ l ∧ .flt ∈ l ∧ .ttc ∈ l) (inst address length : Nat) (write cxl : Bool) (data :
    List Nat) {s : State} (hw : s.mayWake l) :
    KeepsBut (execHostMemoryAccess inst address length write cxl data s) s l := by
  exact keepsBut_ends (by simp [hw, h])

theorem execHostWindowStore_keeps {l : List Block} (h : .waiting ∈ l ∧ .freeCount ∈ l ∧ .out ∈ l ∧ .adm ∈ l ∧ .obf ∈ l ∧ .rte ∈ l ∧ .trn ∈ l ∧
    .pool ∈ l ∧ .dir ∈ l ∧ .mec ∈ l ∧ .mtc ∈ l ∧ .ins ∈ l ∧ .msix ∈ l ∧ .flt ∈ l ∧ .ttc ∈ l) (inst address length : Nat) (posted : Bool) (data :
    List Nat) {s : State} (hw : s.mayWake l) :
    KeepsBut (execHostWindowStore inst address length posted data s) s l := by
  exact keepsBut_ends (by simp [hw, h])

theorem execWreadArrival_keeps (srcDevice srcInst sl : Nat) (w : WinF) (s : State) : KeepsBut
    (execWreadArrival srcDevice srcInst sl w s) s [.freeCount, .out, .adm, .obf, .rte, .trn, .mec, .mtc, .ins, .msix, .flt, .ttc] := by
  exact keepsBut_ends (by simp)

theorem execWwriteArrival_keeps (srcDevice srcInst sl : Nat) (w : WinF) (data : List Nat) (s : State) : KeepsBut
    (execWwriteArrival srcDevice srcInst sl w data s) s [.freeCount, .out, .adm, .obf, .rte, .trn, .pool, .mec, .mtc, .ins, .msix, .flt, .ttc] := by
  exact keepsBut_ends (by simp)

theorem execWreadDataArrival_keeps (inst : Nat) (w : WinF) (data : List Nat) (s : State) : KeepsBut (execWreadDataArrival inst w data s) s [.out,
    .hly, .obf, .trn, .pool, .ins, .msix] := by
  exact keepsBut_ends (by simp)

theorem execWwriteDoneArrival_keeps (inst : Nat) (w : WinF) (s : State) : KeepsBut (execWwriteDoneArrival inst w s) s [.out, .hly, .obf, .trn, .pool,
    .ins, .msix] := by
  exact keepsBut_ends (by simp)

theorem execWerrorArrival_keeps (inst : Nat) (w : WinF) (reason : Nat) (s : State) : KeepsBut (execWerrorArrival inst w reason s) s [.out, .hly,
    .obf, .trn, .pool, .mec, .ins, .msix] := by
  exact keepsBut_ends (by simp)

/-! ### Queues and engines -/

@[simp] theorem queueCreateBody_but {l : List Block} (h : .mec ∈ l ∧ .pwr ∈ l) (q : QueueP) (s : State) : (queueCreateBody q s).All fun u =>
    u.but l = s.but l := by
  simp [queueCreateBody, h]

theorem execQueueCreate_keeps (h : HlyHdr) (q : QueueP) (s : State) : KeepsBut (execQueueCreate h q s) s ((.mec :: .pwr :: replyParts h)) :=
  keepsBut_runHly (fun _ hb => by simp [hb]) fun s => by simp [replyParts]

@[simp] theorem queueDestroyBody_but {l : List Block} (h : .out ∈ l ∧ .mec ∈ l ∧ .mtc ∈ l ∧ .ins ∈ l ∧ .msix ∈ l) (kind queue : Nat) (s : State) :
    (queueDestroyBody kind queue s).All fun u => u.but l = s.but l := by
  simp only [queueDestroyBody]
  (repeat' split) <;> simp [h]

theorem execQueueDestroy_keeps (h : HlyHdr) (kind queue : Nat) (s : State) : KeepsBut (execQueueDestroy h kind queue s) s ((.mec :: .mtc ::
    replyParts h)) :=
  keepsBut_runHly (fun _ hb => by simp [hb]) fun s => by simp [replyParts]

@[simp] theorem queueMoveBody_but {l : List Block} (h : .out ∈ l ∧ .hly ∈ l ∧ .obf ∈ l ∧ .trn ∈ l ∧ .mec ∈ l ∧ .ins ∈ l ∧ .msix ∈ l ∧ .pwr ∈ l)
    (queue engine : Nat) (s : State) : (queueMoveBody queue engine s).All fun u => u.but l = s.but l := by
  have hr : (refuseIf [
    (decide (16383 < queue) || decide (127 < engine), 0x011C),
    (!s.mec.sendQ.has queue, 0x031E),
    ((s.mec.sendQ.find queue).any fun q => q.moving.isSome, 0x031F),
    (!s.engineTakes engine (((s.mec.sendQ.find queue).map (·.maxOut)).getD 0), 0x020F)] (.ok s)).All fun u => u.but l = s.but l := by simp
  rw [queueMoveBody]
  generalize refuseIf _ _ = r at hr ⊢
  split
  · simp only [HRes.all_done_iff] at hr
    dsimp only
    split <;> simp [hr, h]
  · exact hr

theorem execQueueMove_keeps (h : HlyHdr) (queue engine : Nat) (s : State) : KeepsBut (execQueueMove h queue engine s) s ((.obf :: .trn :: .mec ::
    .pwr :: replyParts h)) :=
  keepsBut_runHly (fun _ hb => by simp [hb]) fun s => by simp [replyParts]

theorem execQueueMoveForwardDone_keeps (queue : Nat) (s : State) : KeepsBut (execQueueMoveForwardDone queue s) s [.out, .hly, .obf, .trn, .mec, .ins,
    .msix] := by
  exact keepsBut_ends (by simp)

@[simp] theorem queueRestartBody_but {l : List Block} (h : .mec ∈ l) (kind queue : Nat) (s : State) : (queueRestartBody kind queue s).All fun u =>
    u.but l = s.but l := by
  simp [queueRestartBody, h]

theorem execQueueRestart_keeps (h : HlyHdr) (kind queue : Nat) (s : State) : KeepsBut (execQueueRestart h kind queue s) s ((.mec :: replyParts h)) :=
  keepsBut_runHly (fun _ hb => by simp [hb]) fun s => by simp [replyParts]

@[simp] theorem regionSetBody_but {l : List Block} (h : .mec ∈ l) (r : RegionP) (s : State) : (regionSetBody r s).All fun u => u.but l = s.but l := by
  simp [regionSetBody, h]

theorem execRegionSet_keeps (h : HlyHdr) (r : RegionP) (s : State) : KeepsBut (execRegionSet h r s) s ((.mec :: replyParts h)) :=
  keepsBut_runHly (fun _ hb => by simp [hb]) fun s => by simp [replyParts]

@[simp] theorem engInstanceSetBody_but {l : List Block} (h : .mec ∈ l) (inst base count heap entries reserve : Nat) (s : State) :
    (engInstanceSetBody inst base count heap entries reserve s).All fun u => u.but l = s.but l := by
  simp [engInstanceSetBody, h]

theorem execEngInstanceSet_keeps (h : HlyHdr) (inst counterBase counterCount heap matchEntries onDieReserve : Nat) (s : State) : KeepsBut
    (execEngInstanceSet h inst counterBase counterCount heap matchEntries onDieReserve s) s ((.mec :: replyParts h)) :=
  keepsBut_runHly (fun _ hb => by simp [hb]) fun s => by simp [replyParts]

@[simp] theorem engSetBody_but {l : List Block} (h : .mec ∈ l) (cm rnrDelay rnrLimit lockAge : Nat) (s : State) :
    (engSetBody cm rnrDelay rnrLimit lockAge s).All fun u => u.but l = s.but l := by
  simp [engSetBody, h]

theorem execEngSet_keeps (h : HlyHdr) (cm rnrDelay rnrLimit lockAge : Nat) (s : State) : KeepsBut (execEngSet h cm rnrDelay rnrLimit lockAge s) s
    ((.mec :: replyParts h)) :=
  keepsBut_runHly (fun _ hb => by simp [hb]) fun s => by simp [replyParts]

theorem execLockBreak_keeps (h : HlyHdr) (index : Nat) (s : State) : KeepsBut (execLockBreak h index s) s ((.obf :: .trn :: .freeCount :: .adm ::
    .rte :: .pool :: .mec :: .locks :: .mtc :: .flt :: .ttc :: replyParts h)) :=
  keepsBut_runHly (fun _ hb => by simp [hb]) fun s => by simp [replyParts]

theorem execEngQuery_keeps (h : HlyHdr) (kind index : Nat) (s : State) : KeepsBut (execEngQuery h kind index s) s (replyParts h) :=
  keepsBut_runHly (fun _ hb => hb) fun s => by simp [replyParts]

theorem execDoorbellSend_keeps {l : List Block} (h : .out ∈ l ∧ .mec ∈ l ∧ .ins ∈ l ∧ .msix ∈ l ∧ .pwr ∈ l ∧ .ttc ∈ l) (inst queue index : Nat) {s :
    State} (hw : s.mayWake l) :
    KeepsBut (execDoorbellSend inst queue index s) s l := by
  exact keepsBut_ends (by simp [hw, h])

theorem execDoorbellReceive_keeps {l : List Block} (h : .out ∈ l ∧ .mec ∈ l ∧ .ins ∈ l ∧ .msix ∈ l ∧ .ttc ∈ l) (inst queue index : Nat) {s : State}
    (hw : s.mayWake l) :
    KeepsBut (execDoorbellReceive inst queue index s) s l := by
  exact keepsBut_ends (by simp [hw, h])

theorem execDoorbellCompletion_keeps {l : List Block} (h : .freeCount ∈ l ∧ .out ∈ l ∧ .mec ∈ l ∧ .ins ∈ l ∧ .msix ∈ l ∧ .ttc ∈ l)
    (inst queue index : Nat) {s : State} (hw : s.mayWake l) :
    KeepsBut (execDoorbellCompletion inst queue index s) s l := by
  exact keepsBut_ends (by simp [hw, h])

theorem execDoorbellCompletionArm_keeps {l : List Block} (h : .freeCount ∈ l ∧ .out ∈ l ∧ .mec ∈ l ∧ .ins ∈ l ∧ .msix ∈ l ∧ .ttc ∈ l)
    (inst queue index : Nat) {s : State} (hw : s.mayWake l) :
    KeepsBut (execDoorbellCompletionArm inst queue index s) s l := by
  exact keepsBut_ends (by simp [hw, h])

/-! ### Operations of the engines -/

theorem execDescriptorFetch_keeps (queue bits : Nat) (readOk : Bool) (s : State) : KeepsBut (execDescriptorFetch queue bits readOk s) s [.waiting,
    .freeCount, .out, .mec, .mtc, .ins, .mpu, .msix, .flt, .ttc] := by
  exact keepsBut_ends (by simp)

theorem execTriggerFire_keeps (engine : Nat) (s : State) : KeepsBut (execTriggerFire engine s) s [.waiting, .freeCount, .out, .mec, .mtc, .ins,
    .msix, .ttc] := by
  exact keepsBut_ends (by simp)

theorem execPut_keeps (queue : Nat) (d : Desc) (s : State) : KeepsBut (execPut queue d s) s [.waiting, .freeCount, .out, .adm, .obf, .rte, .trn,
    .mec, .mtc, .ins, .mpu, .msix, .flt, .ttc] := by
  exact keepsBut_ends (by simp)

theorem execGet_keeps (queue : Nat) (d : Desc) (s : State) : KeepsBut (execGet queue d s) s [.waiting, .freeCount, .out, .adm, .obf, .rte, .trn,
    .mec, .mtc, .ins, .mpu, .msix, .flt, .ttc] := by
  exact keepsBut_ends (State.startOp_but (by simp) _ _ _ _ _ fun o s => State.withLocal_but (by simp) _ _ _ _ _ _ fun s => by simp)

theorem execAtomic_keeps (queue : Nat) (d : Desc) (s : State) : KeepsBut (execAtomic queue d s) s [.waiting, .freeCount, .out, .adm, .obf, .rte,
    .trn, .mec, .mtc, .ins, .mpu, .msix, .flt, .ttc] := by
  exact keepsBut_ends (by simp)

theorem execSend_keeps (queue : Nat) (d : Desc) (s : State) : KeepsBut (execSend queue d s) s [.waiting, .freeCount, .out, .adm, .obf, .rte, .trn,
    .mec, .mtc, .ins, .mpu, .msix, .flt, .ttc] := by
  exact keepsBut_ends (by simp)

theorem execLock_keeps (queue : Nat) (d : Desc) (s : State) : KeepsBut (execLock queue d s) s [.waiting, .freeCount, .out, .adm, .obf, .rte, .trn,
    .mec, .mtc, .ins, .msix, .flt, .ttc] := by
  exact keepsBut_ends (by simp)

theorem execUnlock_keeps (queue : Nat) (d : Desc) (s : State) : KeepsBut (execUnlock queue d s) s [.waiting, .freeCount, .out, .adm, .obf, .rte,
    .trn, .mec, .mtc, .ins, .msix, .flt, .ttc] := by
  exact keepsBut_ends (by simp)

theorem execCounterAdd_keeps (queue : Nat) (d : Desc) (s : State) : KeepsBut (execCounterAdd queue d s) s [.waiting, .freeCount, .out, .mec, .mtc,
    .ins, .msix, .ttc] := by
  refine keepsBut_ends (State.startOp_but (by simp) _ _ _ _ _ fun o s => ?_)
  split <;> simp

theorem execCounterSet_keeps (queue : Nat) (d : Desc) (s : State) : KeepsBut (execCounterSet queue d s) s [.waiting, .freeCount, .out, .mec, .mtc,
    .ins, .msix, .ttc] := by
  refine keepsBut_ends (State.startOp_but (by simp) _ _ _ _ _ fun o s => ?_)
  split <;> simp

theorem execDescNop_keeps (queue : Nat) (d : Desc) (s : State) : KeepsBut (execDescNop queue d s) s [.waiting, .freeCount, .out, .mec, .mtc, .ins,
    .msix, .ttc] := by
  exact keepsBut_ends (by simp)

theorem execRnrDelayExpiry_keeps (opTag : Nat) (s : State) : KeepsBut (execRnrDelayExpiry opTag s) s [.waiting, .freeCount, .out, .adm, .obf, .rte,
    .trn, .mec, .mtc, .ins, .msix, .flt, .ttc] := by
  refine keepsBut_ends ?_
  split
  · rfl
  · split
    · rfl
    · split
      · rw [State.setWaiting_but (by simp)]
      · simp

theorem execLockAgeExpiry_keeps (index : Nat) (s : State) : KeepsBut (execLockAgeExpiry index s) s [.out, .mec, .locks, .ins, .msix, .flt, .ttc] := by
  refine keepsBut_ends ?_
  (repeat' split) <;> simp

/-! ### Arrivals at the engines -/

theorem execPutArrival_keeps (r : Req) (a : Access) (data : List Nat) (last : Bool) (s : State) : KeepsBut
    (execPutArrival r a data last s) s [.freeCount, .out, .adm, .obf, .rte, .trn, .pool, .mec, .locks, .mtc, .ins, .mpu, .msix, .flt, .ttc] := by
  refine keepsBut_ends ?_
  split
  · rfl
  · split
    · next e => simp [but_snd e]
    · next e =>
      (repeat' split) <;> simp [but_snd e]

theorem execGetArrival_keeps (r : Req) (a : Access) (poison : Bool) (s : State) : KeepsBut (execGetArrival r a poison s) s [.freeCount, .out, .adm,
    .obf, .rte, .trn, .mec, .locks, .mtc, .ins, .mpu, .msix, .flt, .ttc] := by
  refine keepsBut_ends ?_
  split
  · rfl
  · exact State.checked_but (by simp) _ _ _ _ _ _ fun g s => State.behindLock_but (by simp) _ _ _ _ _ _ fun s => by simp

theorem execAtomicArrival_keeps (r : Req) (a : Access) (aop : Nat) (size16 : Bool) (opA opB old : Nat) (s : State) : KeepsBut
    (execAtomicArrival r a aop size16 opA opB old s) s [.freeCount, .out, .adm, .obf, .rte, .trn, .pool, .mec, .locks, .mtc, .ins, .mpu, .msix, .flt,
    .ttc] := by
  refine keepsBut_ends ?_
  split
  · rfl
  · exact State.checked_but (by simp) _ _ _ _ _ _ fun g s => State.behindLock_but (by simp) _ _ _ _ _ _ fun s => by simp

theorem execLockArrival_keeps (r : Req) (a : Access) (wait : Bool) (s : State) : KeepsBut (execLockArrival r a wait s) s [.freeCount, .out, .adm,
    .obf, .rte, .trn, .mec, .locks, .mtc, .ins, .msix, .flt, .ttc] := by
  exact keepsBut_ends (by simp)

theorem execUnlockArrival_keeps (r : Req) (a : Access) (s : State) : KeepsBut (execUnlockArrival r a s) s [.freeCount, .out, .adm, .obf, .rte, .trn,
    .pool, .mec, .locks, .mtc, .ins, .msix, .flt, .ttc] := by
  exact keepsBut_ends (by simp)

theorem execLockAbandonArrival_keeps (r : Req) (queue : Nat) (s : State) : KeepsBut (execLockAbandonArrival r queue s) s [.freeCount, .out, .adm,
    .obf, .rte, .trn, .pool, .mec, .locks, .mtc, .ins, .msix, .flt, .ttc] := by
  exact keepsBut_ends (by simp)

theorem execHostReadCompletion_keeps (tag : Nat) (values : List Nat) (error poison : Bool) (s : State) : KeepsBut
    (execHostReadCompletion tag values error poison s) s [.freeCount, .out, .adm, .obf, .rte, .trn, .mec, .mtc, .ins, .mpu, .msix, .flt, .ttc] := by
  exact keepsBut_ends (by simp)

theorem execHostCompletionTimeout_keeps (tag : Nat) (s : State) : KeepsBut (execHostCompletionTimeout tag s) s [.freeCount, .out, .adm, .obf, .rte,
    .trn, .mec, .mtc, .ins, .mpu, .msix, .flt, .ttc] := by
  exact keepsBut_ends (by simp)

theorem execPutAckArrival_keeps (r : Rsp) (s : State) : KeepsBut (execPutAckArrival r s) s [.freeCount, .out, .mec, .mtc, .ins, .msix, .ttc] := by
  exact keepsBut_ends (by simp)

theorem execGetDataArrival_keeps (r : Rsp) (data : List Nat) (s : State) : KeepsBut (execGetDataArrival r data s) s [.freeCount, .out, .pool, .mec,
    .mtc, .ins, .msix, .ttc] := by
  exact keepsBut_ends (by simp)

theorem execAtomicResultArrival_keeps (r : Rsp) (old : Nat) (s : State) : KeepsBut (execAtomicResultArrival r old s) s [.freeCount, .out, .pool,
    .mec, .mtc, .ins, .msix, .ttc] := by
  exact keepsBut_ends (by simp)

theorem execLockResultArrival_keeps (r : Rsp) (lockIndex srcDevice : Nat) (s : State) : KeepsBut
    (execLockResultArrival r lockIndex srcDevice s) s [.freeCount, .out, .mec, .mtc, .ins, .msix, .ttc] := by
  refine keepsBut_ends (State.answered_but _ _ _ _ fun o s => ?_)
  dsimp only
  rw [State.finishOp_but (by simp)]
  (repeat' split) <;> simp

theorem execSendAckArrival_keeps (r : Rsp) (s : State) : KeepsBut (execSendAckArrival r s) s [.freeCount, .out, .mec, .mtc, .ins, .msix, .ttc] := by
  exact keepsBut_ends (by simp)

theorem execSendRnrArrival_keeps (r : Rsp) (s : State) : KeepsBut (execSendRnrArrival r s) s [.freeCount, .out, .adm, .obf, .rte, .trn, .mec, .mtc,
    .ins, .msix, .flt, .ttc] := by
  exact keepsBut_ends (by simp)

theorem execRdoneArrival_keeps (r : Rsp) (bytes : Nat) (s : State) : KeepsBut (execRdoneArrival r bytes s) s [.freeCount, .out, .mec, .mtc, .ins,
    .msix, .ttc] := by
  exact keepsBut_ends (by simp)

theorem execEngErrorArrival_keeps (r : Rsp) (s : State) : KeepsBut (execEngErrorArrival r s) s [.freeCount, .out, .mec, .mtc, .ins, .msix, .ttc] := by
  refine keepsBut_ends ?_
  (repeat' split) <;> simp

theorem execRgetArrival_keeps (r : Req) (rvTag rvGen offset length : Nat) (s : State) : KeepsBut
    (execRgetArrival r rvTag rvGen offset length s) s [.freeCount, .out, .adm, .obf, .rte, .trn, .mec, .mtc, .ins, .msix, .flt, .ttc] := by
  exact keepsBut_ends (by simp)

theorem execRgetDataArrival_keeps (r : Rsp) (data : List Nat) (s : State) : KeepsBut (execRgetDataArrival r data s) s [.freeCount, .out, .adm, .obf,
    .rte, .trn, .pool, .mec, .mtc, .ins, .msix, .flt, .ttc] := by
  refine keepsBut_ends ?_
  (repeat' split) <;> simp

/-! ### Matching and locks -/

theorem execSendEagerArrival_keeps (r : Req) (dstInst context msn msgOffset matchBits msgLength : Nat) (data : List Nat) (s : State) : KeepsBut
    (execSendEagerArrival r dstInst context msn msgOffset matchBits msgLength data s) s [.freeCount, .out, .adm, .obf, .rte, .trn, .pool, .mec, .mtc,
    .ins, .mpu, .msix, .flt, .ttc] := by
  exact keepsBut_ends (by simp)

theorem execSendRtsArrival_keeps (r : Req) (dstInst context msn matchBits msgLength : Nat) (s : State) : KeepsBut
    (execSendRtsArrival r dstInst context msn matchBits msgLength s) s [.freeCount, .out, .adm, .obf, .rte, .trn, .pool, .mec, .mtc, .ins, .mpu,
    .msix, .flt, .ttc] := by
  exact keepsBut_ends (by simp)

theorem execReceiveTake_keeps (queue bits : Nat) (s : State) : KeepsBut (execReceiveTake queue bits s) s [.freeCount, .out, .adm, .obf, .rte, .trn,
    .pool, .mec, .mtc, .ins, .mpu, .msix, .flt, .ttc] := by
  exact keepsBut_ends (by simp)

/-! ### Collectives -/

@[simp] theorem collGroupSetBody_but {l : List Block} (h : .freeCount ∈ l ∧ .out ∈ l ∧ .adm ∈ l ∧ .obf ∈ l ∧ .rte ∈ l ∧ .trn ∈ l ∧ .pool ∈ l ∧
    .mec ∈ l ∧ .mtc ∈ l ∧ .rdx ∈ l ∧ .ins ∈ l ∧ .mpu ∈ l ∧ .msix ∈ l ∧ .flt ∈ l ∧ .ttc ∈ l) (p : GroupP) (s : State) :
    (collGroupSetBody p s).All fun u => u.but l = s.but l := by
  simp [collGroupSetBody, h]

theorem execCollGroupSet_keeps (h : HlyHdr) (g : GroupP) (s : State) : KeepsBut (execCollGroupSet h g s) s ((.obf :: .trn :: .freeCount :: .adm ::
    .rte :: .pool :: .mec :: .mtc :: .rdx :: .mpu :: .flt :: .ttc :: replyParts h)) :=
  keepsBut_runHly (fun _ hb => by simp [hb]) fun s => by simp [replyParts]

theorem execGroupDrained_keeps (group : Nat) (s : State) : KeepsBut (execGroupDrained group s) s [.out, .hly, .obf, .trn, .mec, .rdx, .ins, .msix] :=
    by
  exact keepsBut_ends (by simp)

@[simp] theorem collGroupRemoveBody_but {l : List Block} (h : .freeCount ∈ l ∧ .out ∈ l ∧ .adm ∈ l ∧ .obf ∈ l ∧ .rte ∈ l ∧ .trn ∈ l ∧ .pool ∈ l ∧
    .mec ∈ l ∧ .mtc ∈ l ∧ .rdx ∈ l ∧ .ins ∈ l ∧ .mpu ∈ l ∧ .msix ∈ l ∧ .flt ∈ l ∧ .ttc ∈ l) (gid : Nat) (s : State) :
    (collGroupRemoveBody gid s).All fun u => u.but l = s.but l := by
  rw [collGroupRemoveBody]
  (repeat' split) <;> simp [h]

theorem execCollGroupRemove_keeps (h : HlyHdr) (group : Nat) (s : State) : KeepsBut (execCollGroupRemove h group s) s ((.obf :: .trn :: .freeCount ::
    .adm :: .rte :: .pool :: .mec :: .mtc :: .rdx :: .mpu :: .flt :: .ttc :: replyParts h)) :=
  keepsBut_runHly (fun _ hb => by simp [hb]) fun s => by simp [replyParts]

@[simp] theorem collFenceBody_but {l : List Block} (h : .freeCount ∈ l ∧ .out ∈ l ∧ .adm ∈ l ∧ .obf ∈ l ∧ .rte ∈ l ∧ .trn ∈ l ∧ .pool ∈ l ∧
    .mec ∈ l ∧ .mtc ∈ l ∧ .rdx ∈ l ∧ .ins ∈ l ∧ .mpu ∈ l ∧ .msix ∈ l ∧ .flt ∈ l ∧ .ttc ∈ l) (gid target index : Nat) (s : State) :
    (collFenceBody gid target index s).All fun u => u.but l = s.but l := by
  rw [collFenceBody]
  (repeat' split) <;> simp [h]

theorem execCollFence_keeps (h : HlyHdr) (group target index : Nat) (s : State) : KeepsBut (execCollFence h group target index s) s ((.obf :: .trn ::
    .freeCount :: .adm :: .rte :: .pool :: .mec :: .mtc :: .rdx :: .mpu :: .flt :: .ttc :: replyParts h)) :=
  keepsBut_runHly (fun _ hb => by simp [hb]) fun s => by simp [replyParts]

theorem execCollQuery_keeps (h : HlyHdr) (group : Nat) (s : State) : KeepsBut (execCollQuery h group s) s (replyParts h) :=
  keepsBut_runHly (fun _ hb => hb) fun s => by (repeat' split) <;> simp [replyParts]

theorem execMemberArrival_keeps (group member : Nat) (values : List Nat) (failed poison : Bool) (s : State) : KeepsBut
    (execMemberArrival group member values failed poison s) s [.freeCount, .out, .adm, .obf, .rte, .trn, .pool, .mec, .mtc, .rdx, .ins, .mpu, .msix,
    .flt, .ttc] := by
  refine keepsBut_ends ?_
  (repeat' split) <;> simp

theorem execRdxUpArrival_keeps (group srcDevice srcInst sl round members : Nat) (fenced arrival : Bool) (elementOffset : Nat) (poison : Bool)
    (values : List Nat) (s : State) : KeepsBut
    (execRdxUpArrival group srcDevice srcInst sl round members fenced arrival elementOffset poison values s) s [.freeCount, .out, .adm, .obf, .rte,
    .trn, .pool, .mec, .mtc, .rdx, .ins, .mpu, .msix, .flt, .ttc] := by
  refine keepsBut_ends ?_
  (repeat' split) <;> simp

theorem execRdxDownArrival_keeps (group round combined : Nat) (fenced : Bool) (status elementOffset : Nat) (values : List Nat) (s : State) :
    KeepsBut (execRdxDownArrival group round combined fenced status elementOffset values s) s [.freeCount, .out, .adm, .obf, .rte, .trn, .pool, .mec,
    .mtc, .rdx, .ins, .mpu, .msix, .flt, .ttc] := by
  refine keepsBut_ends ?_
  (repeat' split) <;> simp

/-! ### Faults, spares and background work -/

@[simp] theorem faultSetBody_but {l : List Block} (h : .flt ∈ l) (first count cm severity quietMs vector : Nat) (s : State) :
    (faultSetBody first count cm severity quietMs vector s).All fun u => u.but l = s.but l := by
  simp [faultSetBody, h]

theorem execFaultSet_keeps (h : HlyHdr) (first count cm severity quietMs vector : Nat) (s : State) : KeepsBut
    (execFaultSet h first count cm severity quietMs vector s) s ((.flt :: replyParts h)) :=
  keepsBut_runHly (fun _ hb => by simp [hb]) fun s => by simp [replyParts]

@[simp] theorem faultForceBody_but {l : List Block} (h : .out ∈ l ∧ .ins ∈ l ∧ .msix ∈ l ∧ .flt ∈ l ∧ .ttc ∈ l) (source : Nat) (force : Bool)
    (kind subject : Nat) (s : State) : (faultForceBody source force kind subject s).All fun u => u.but l = s.but l := by
  simp [faultForceBody, h]

theorem execFaultForce_keeps (h : HlyHdr) (source : Nat) (force : Bool) (kind subject : Nat) (s : State) : KeepsBut
    (execFaultForce h source force kind subject s) s ((.flt :: .ttc :: replyParts h)) :=
  keepsBut_runHly (fun _ hb => by simp [hb]) fun s => by simp [replyParts]

@[simp] theorem faultClearBody_but {l : List Block} (h : .out ∈ l ∧ .egs ∈ l ∧ .prt ∈ l ∧ .flt ∈ l) (first count : Nat) (sticky : Bool) (s : State) :
    (faultClearBody first count sticky s).All fun u => u.but l = s.but l := by
  simp [faultClearBody, h]

theorem execFaultClear_keeps (h : HlyHdr) (first count : Nat) (sticky : Bool) (s : State) : KeepsBut (execFaultClear h first count sticky s) s
    ((.egs :: .prt :: .flt :: replyParts h)) :=
  keepsBut_runHly (fun _ hb => by simp [hb]) fun s => by simp [replyParts]

theorem execFaultQuery_keeps (h : HlyHdr) (first count : Nat) (s : State) : KeepsBut (execFaultQuery h first count s) s (replyParts h) :=
  keepsBut_runHly (fun _ hb => hb) fun s => by simp [replyParts]

@[simp] theorem spareSwapBody_but {l : List Block} (h : .flt ∈ l) (kind unit : Nat) (s : State) : (spareSwapBody kind unit s).All fun u =>
    u.but l = s.but l := by
  simp [spareSwapBody, h]

theorem execSpareSwap_keeps (h : HlyHdr) (kind unit : Nat) (s : State) : KeepsBut (execSpareSwap h kind unit s) s ((.flt :: replyParts h)) :=
  keepsBut_runHly (fun _ hb => by simp [hb]) fun s => by simp [replyParts]

@[simp] theorem spareQueryBody_but {l : List Block} (h : .freeCount ∈ l) (kind : Nat) (s : State) : (spareQueryBody kind s).All fun u =>
    u.but l = s.but l := by
  simp only [spareQueryBody]
  (repeat' split) <;> simp [h]

theorem execSpareQuery_keeps (h : HlyHdr) (kind : Nat) (s : State) : KeepsBut (execSpareQuery h kind s) s ((.freeCount :: replyParts h)) :=
  keepsBut_runHly (fun _ hb => by simp [hb]) fun s => by simp [replyParts]

@[simp] theorem backgroundSetBody_but {l : List Block} (h : .flt ∈ l) (cm hbmPatrolH sramPatrolMs calPeriodMs trendThreshold trendWindowMin auto :
    Nat) (s : State) : (backgroundSetBody cm hbmPatrolH sramPatrolMs calPeriodMs trendThreshold trendWindowMin auto s).All fun u =>
    u.but l = s.but l := by
  simp [backgroundSetBody, h]

theorem execBackgroundSet_keeps (h : HlyHdr) (cm hbmPatrolH sramPatrolMs calPeriodMs trendThreshold trendWindowMin auto : Nat) (s : State) :
    KeepsBut (execBackgroundSet h cm hbmPatrolH sramPatrolMs calPeriodMs trendThreshold trendWindowMin auto s) s ((.flt :: replyParts h)) :=
  keepsBut_runHly (fun _ hb => by simp [hb]) fun s => by simp [replyParts]

theorem execQuietPeriodExpiry_keeps (s : State) : KeepsBut (execQuietPeriodExpiry s) s [.out, .egs, .prt, .flt] := by
  exact keepsBut_ends (by simp)

theorem execTrendFire_keeps (kind unit : Nat) (s : State) : KeepsBut (execTrendFire kind unit s) s [.out, .mec, .ins, .msix, .flt, .ttc] := by
  exact keepsBut_ends (by simp)

theorem execSpareSwapComplete_keeps (kind unit : Nat) (s : State) : KeepsBut (execSpareSwapComplete kind unit s) s [.out, .hly, .obf, .rte, .trn,
    .dir, .mec, .ins, .icu, .msix, .flt, .ttc] := by
  exact keepsBut_ends (by simp)

theorem execSramUncorrectableError_keeps (row : Nat) (s : State) : KeepsBut (execSramUncorrectableError row s) s [.out, .ins, .msix, .flt, .ttc] := by
  exact keepsBut_ends (by simp)

theorem execEngineDuplicateFail_keeps (engine : Nat) (s : State) : KeepsBut (execEngineDuplicateFail engine s) s [.out, .ins, .msix, .flt, .ttc] := by
  exact keepsBut_ends (by simp)

theorem execManagementCoreWatchdog_keeps (core : Nat) (s : State) : KeepsBut (execManagementCoreWatchdog core s) s [.out, .ins, .msix, .flt, .ttc,
    .mgc] := by
  exact keepsBut_ends (by simp)

theorem execManagementCoreFailure_keeps (core : Nat) (s : State) : KeepsBut (execManagementCoreFailure core s) s [.out, .ins, .msix, .flt, .ttc,
    .mgc] := by
  exact keepsBut_ends (by simp)

theorem execDirectoryBankFailure_keeps (bank : Nat) (s : State) : KeepsBut (execDirectoryBankFailure bank s) s [.out, .dir, .ins, .msix, .flt,
    .ttc] := by
  exact keepsBut_ends (by simp)

theorem execRouteBankFailure_keeps (tile bank : Nat) (s : State) : KeepsBut (execRouteBankFailure tile bank s) s [.out, .ins, .msix, .flt, .ttc] := by
  exact keepsBut_ends (by simp)

theorem execPseudoChannelFailure_keeps (channel : Nat) (s : State) : KeepsBut (execPseudoChannelFailure channel s) s [.out, .ins, .msix, .flt,
    .ttc] := by
  exact keepsBut_ends (by simp)

theorem execAgeingMonitorFlag_keeps (kind unit : Nat) (s : State) : KeepsBut (execAgeingMonitorFlag kind unit s) s [.out, .mec, .ins, .msix, .flt,
    .ttc] := by
  exact keepsBut_ends (by simp)

theorem execHbmUncorrectableError_keeps (address owner : Nat) (patrol : Bool) (s : State) : KeepsBut
    (execHbmUncorrectableError address owner patrol s) s [.waiting, .freeCount, .out, .hly, .adm, .obf, .rte, .trn, .pool, .dir, .mec, .locks, .mtc,
    .rdx, .ins, .mpu, .icu, .msix, .flt, .ttc, .mgc] := by
  refine keepsBut_ends ?_
  (repeat' split) <;> simp

theorem execDatapathError_keeps (s : State) : KeepsBut (execDatapathError s) s [.out, .ins, .msix, .flt, .ttc] := by
  exact keepsBut_ends (by simp)

theorem execShroudBridgeTimeout_keeps (bridge : Nat) (s : State) : KeepsBut (execShroudBridgeTimeout bridge s) s [.out, .ins, .msix, .flt, .ttc] := by
  exact keepsBut_ends (by simp)

theorem execCalPeriod_keeps (s : State) : KeepsBut (execCalPeriod s) s [.flt] := by
  exact keepsBut_ends (by simp)

/-! ### Instances -/

@[simp] theorem instanceCreateBody_but {l : List Block} (h : .ins ∈ l ∧ .ttc ∈ l) (inst link function resetMode drainTimeout vectors : Nat) (s :
    State) : (instanceCreateBody inst link function resetMode drainTimeout vectors s).All fun u => u.but l = s.but l := by
  simp [instanceCreateBody, h]

theorem execInstanceCreate_keeps (h : HlyHdr) (inst link function resetMode drainTimeout vectors : Nat) (s : State) : KeepsBut
    (execInstanceCreate h inst link function resetMode drainTimeout vectors s) s ((.ttc :: replyParts h)) :=
  keepsBut_runHly (fun _ hb => by simp [hb]) fun s => by simp [replyParts]

@[simp] theorem instanceSetBody_but {l : List Block} (h : .ins ∈ l) (inst cm resetMode drainTimeout vectors : Nat) (s : State) :
    (instanceSetBody inst cm resetMode drainTimeout vectors s).All fun u => u.but l = s.but l := by
  simp [instanceSetBody, h]

theorem execInstanceSet_keeps (h : HlyHdr) (inst cm resetMode drainTimeout vectors : Nat) (s : State) : KeepsBut
    (execInstanceSet h inst cm resetMode drainTimeout vectors s) s (replyParts h) :=
  keepsBut_runHly (fun _ hb => hb) fun s => by simp [replyParts]

@[simp] theorem instanceResetBody_but {l : List Block} (h : .freeCount ∈ l ∧ .out ∈ l ∧ .adm ∈ l ∧ .obf ∈ l ∧ .rte ∈ l ∧ .trn ∈ l ∧ .pool ∈ l ∧
    .mec ∈ l ∧ .locks ∈ l ∧ .mtc ∈ l ∧ .rdx ∈ l ∧ .ins ∈ l ∧ .mpu ∈ l ∧ .msix ∈ l ∧ .flt ∈ l ∧ .ttc ∈ l) (inst form : Nat) (s : State) :
    (instanceResetBody inst form s).All fun u => u.but l = s.but l := by
  simp [instanceResetBody, h]

theorem execInstanceReset_keeps (h : HlyHdr) (inst form : Nat) (s : State) : KeepsBut (execInstanceReset h inst form s) s ((.freeCount :: .adm ::
    .obf :: .rte :: .trn :: .pool :: .mec :: .locks :: .mtc :: .rdx :: .mpu :: .flt :: .ttc :: replyParts h)) :=
  keepsBut_runHly (fun _ hb => by simp [hb]) fun s => by simp [replyParts]

@[simp] theorem instanceDisableBody_but {l : List Block} (h : .freeCount ∈ l ∧ .out ∈ l ∧ .adm ∈ l ∧ .obf ∈ l ∧ .rte ∈ l ∧ .trn ∈ l ∧ .pool ∈ l ∧
    .mec ∈ l ∧ .locks ∈ l ∧ .mtc ∈ l ∧ .rdx ∈ l ∧ .ins ∈ l ∧ .mpu ∈ l ∧ .msix ∈ l ∧ .flt ∈ l ∧ .ttc ∈ l) (inst : Nat) (s : State) :
    (instanceDisableBody inst s).All fun u => u.but l = s.but l := by
  simp [instanceDisableBody, h]

theorem execInstanceDisable_keeps (h : HlyHdr) (inst : Nat) (s : State) : KeepsBut (execInstanceDisable h inst s) s ((.freeCount :: .adm :: .obf ::
    .rte :: .trn :: .pool :: .mec :: .locks :: .mtc :: .rdx :: .mpu :: .flt :: .ttc :: replyParts h)) :=
  keepsBut_runHly (fun _ hb => by simp [hb]) fun s => by simp [replyParts]

theorem execResetDrainComplete_keeps (inst : Nat) (s : State) : KeepsBut (execResetDrainComplete inst s) s [.freeCount, .out, .adm, .obf, .rte, .trn,
    .pool, .mec, .locks, .mtc, .rdx, .ins, .mpu, .msix, .flt, .ttc] := by
  exact keepsBut_ends (by simp)

theorem execDrainTimeoutExpiry_keeps (inst : Nat) (s : State) : KeepsBut (execDrainTimeoutExpiry inst s) s [.freeCount, .out, .adm, .obf, .rte, .trn,
    .pool, .mec, .locks, .mtc, .rdx, .ins, .mpu, .msix, .flt, .ttc] := by
  exact keepsBut_ends (by simp)

theorem execGenerationWaitExpiry_keeps (inst : Nat) (s : State) : KeepsBut (execGenerationWaitExpiry inst s) s [.freeCount, .out, .adm, .obf, .rte,
    .trn, .pool, .mec, .locks, .mtc, .rdx, .ins, .mpu, .msix, .flt, .ttc] := by
  exact keepsBut_ends (by simp)

theorem execResetItemsDone_keeps (inst : Nat) (s : State) : KeepsBut (execResetItemsDone inst s) s [.waiting, .freeCount, .out, .hly, .adm, .csc,
    .obf, .egs, .rte, .trn, .pool, .mec, .locks, .mtc, .rdx, .ins, .mpu, .icu, .msix, .flt, .ttc, .mgc] := by
  exact keepsBut_ends (by simp)

theorem execResetForceExpiry_keeps (inst : Nat) (s : State) : KeepsBut (execResetForceExpiry inst s) s [.waiting, .freeCount, .out, .hly, .adm, .csc,
    .obf, .egs, .rte, .trn, .pool, .mec, .locks, .mtc, .rdx, .ins, .mpu, .icu, .msix, .flt, .ttc, .mgc] := by
  exact keepsBut_ends (by simp)

theorem execFunctionLevelReset_keeps {l : List Block} (h : .waiting ∈ l ∧ .freeCount ∈ l ∧ .out ∈ l ∧ .hly ∈ l ∧ .adm ∈ l ∧ .obf ∈ l ∧ .rte ∈ l ∧
    .trn ∈ l ∧ .pool ∈ l ∧ .mec ∈ l ∧ .locks ∈ l ∧ .mtc ∈ l ∧ .rdx ∈ l ∧ .ins ∈ l ∧ .mpu ∈ l ∧ .icu ∈ l ∧ .msix ∈ l ∧ .flt ∈ l ∧ .ttc ∈ l ∧
    .mgc ∈ l) (inst : Nat) {s : State} (hw : s.mayWake l) :
    KeepsBut (execFunctionLevelReset inst s) s l := by
  exact keepsBut_ends (by simp [hw, h])

theorem execVfEnableClear_keeps {l : List Block} (h : .freeCount ∈ l ∧ .out ∈ l ∧ .adm ∈ l ∧ .obf ∈ l ∧ .rte ∈ l ∧ .trn ∈ l ∧ .pool ∈ l ∧ .mec ∈ l ∧
    .locks ∈ l ∧ .mtc ∈ l ∧ .rdx ∈ l ∧ .ins ∈ l ∧ .mpu ∈ l ∧ .icu ∈ l ∧ .msix ∈ l ∧ .flt ∈ l ∧ .ttc ∈ l) (link : Nat) {s : State} (hw : s.mayWake l) :
    KeepsBut (execVfEnableClear link s) s l := by
  refine keepsBut_ends (State.hostConfig_but hw _ fun s => ?_)
  split <;> simp [h]

theorem execVfEnableSet_keeps {l : List Block} (h : .pool ∈ l ∧ .icu ∈ l) (link numVfs : Nat) {s : State} (hw : s.mayWake l) :
    KeepsBut (execVfEnableSet link numVfs s) s l := by
  refine keepsBut_ends (State.hostConfig_but hw _ fun s => ?_)
  split <;> simp [h]

theorem execBusMasterEnableClear_keeps {l : List Block} (h : .ins ∈ l) (inst : Nat) {s : State} (hw : s.mayWake l) :
    KeepsBut (execBusMasterEnableClear inst s) s l := by
  exact keepsBut_ends (by simp [hw, h])

theorem execBusMasterEnableSet_keeps {l : List Block} (h : .out ∈ l ∧ .ins ∈ l) (inst : Nat) {s : State} (hw : s.mayWake l) :
    KeepsBut (execBusMasterEnableSet inst s) s l := by
  refine keepsBut_ends (State.hostConfig_but hw _ fun s => ?_)
  dsimp only
  split <;> simp [h]

@[simp] theorem dirtyLogSetBody_but {l : List Block} (h : .out ∈ l ∧ .ins ∈ l) (inst : Nat) (enable : Bool) (baseA baseB rangeBase rangePages : Nat)
    (inFunction : Bool) (s : State) : (dirtyLogSetBody inst enable baseA baseB rangeBase rangePages inFunction s).All fun u => u.but l = s.but l := by
  simp [dirtyLogSetBody, h]

theorem execDirtyLogSet_keeps (h : HlyHdr) (inst : Nat) (enable : Bool) (baseA baseB rangeBase rangePages : Nat) (inFunction : Bool) (s : State) :
    KeepsBut (execDirtyLogSet h inst enable baseA baseB rangeBase rangePages inFunction s) s (replyParts h) :=
  keepsBut_runHly (fun _ hb => hb) fun s => by simp [replyParts]

@[simp] theorem dirtyLogSwapBody_but {l : List Block} (h : .ins ∈ l) (inst : Nat) (s : State) : (dirtyLogSwapBody inst s).All fun u =>
    u.but l = s.but l := by
  simp [dirtyLogSwapBody, h]

theorem execDirtyLogSwap_keeps (h : HlyHdr) (inst : Nat) (s : State) : KeepsBut (execDirtyLogSwap h inst s) s (replyParts h) :=
  keepsBut_runHly (fun _ hb => hb) fun s => by simp [replyParts]

theorem execLogSwapWritebackDone_keeps (inst : Nat) (s : State) : KeepsBut (execLogSwapWritebackDone inst s) s [.out, .hly, .obf, .trn, .ins,
    .msix] := by
  exact keepsBut_ends (by simp)

theorem execInstanceQuery_keeps (h : HlyHdr) (inst : Nat) (s : State) : KeepsBut (execInstanceQuery h inst s) s (replyParts h) :=
  keepsBut_runHly (fun _ hb => hb) fun s => by simp [replyParts]

theorem execMsixUnmask_keeps {l : List Block} (h : .out ∈ l ∧ .ins ∈ l ∧ .msix ∈ l) (inst vector : Nat) (wholeFunction : Bool) {s : State} (hw :
    s.mayWake l) :
    KeepsBut (execMsixUnmask inst vector wholeFunction s) s l := by
  refine keepsBut_ends (State.hostConfig_but hw _ fun s => ?_)
  dsimp only
  split
  · rfl
  · split
    · rw [foldl_but (fun s v => by simp [h]), State.setMsix_but (by simp [h])]
    · rw [State.sendPending_but (by simp [h]), State.setMsix_but (by simp [h])]

/-! ### Protection, debug and interrupts -/

@[simp] theorem mpuRulesSetBody_but {l : List Block} (h : .mpu ∈ l) (master set first count : Nat) (entries : List MpuRegion) (s : State) :
    (mpuRulesSetBody master set first count entries s).All fun u => u.but l = s.but l := by
  simp [mpuRulesSetBody, h]

theorem execMpuRulesSet_keeps (h : HlyHdr) (master set first count : Nat) (entries : List MpuRegion) (s : State) : KeepsBut
    (execMpuRulesSet h master set first count entries s) s ((.mpu :: replyParts h)) :=
  keepsBut_runHly (fun _ hb => by simp [hb]) fun s => by simp [replyParts]

@[simp] theorem mpuSwapBody_but {l : List Block} (h : .mpu ∈ l) (master : Nat) (s : State) : (mpuSwapBody master s).All fun u => u.but l = s.but l :=
    by
  rw [mpuSwapBody]
  refine HRes.all_refuseIf ?_
  simp [h]

theorem execMpuSwap_keeps (h : HlyHdr) (master : Nat) (s : State) : KeepsBut (execMpuSwap h master s) s ((.mpu :: replyParts h)) :=
  keepsBut_runHly (fun _ hb => by simp [hb]) fun s => by simp [replyParts]

theorem execMpuSwapCommit_keeps (master : Nat) (s : State) : KeepsBut (execMpuSwapCommit master s) s [.freeCount, .out, .mec, .ins, .mpu, .msix,
    .ttc] := by
  exact keepsBut_ends (by simp)

theorem execMpuSwapRetire_keeps (master : Nat) (s : State) : KeepsBut (execMpuSwapRetire master s) s [.freeCount, .out, .hly, .obf, .trn, .mec, .ins,
    .mpu, .msix, .ttc] := by
  exact keepsBut_ends (by simp)

theorem execMpuQuery_keeps (h : HlyHdr) (master : Nat) (s : State) : KeepsBut (execMpuQuery h master s) s (replyParts h) :=
  keepsBut_runHly (fun _ hb => hb) fun s => by simp [replyParts]

theorem execMpuViolPop_keeps {l : List Block} (h : .mpu ∈ l) (value : Word) {s : State} (hw : s.mayWake l) :
    KeepsBut (execMpuViolPop value s) s l := by
  exact keepsBut_ends (by simp [hw, h])

@[simp] theorem debugUnlockBody_but {l : List Block} (h : .freeCount ∈ l ∧ .mpu ∈ l) (action serial nonce : Nat) (signatureOk : Bool) (s : State) :
    (debugUnlockBody action serial nonce signatureOk s).All fun u => u.but l = s.but l := by
  simp only [debugUnlockBody]
  (repeat' split) <;> simp [h]

theorem execDebugUnlock_keeps (h : HlyHdr) (action serial nonce : Nat) (signatureOk : Bool) (s : State) : KeepsBut
    (execDebugUnlock h action serial nonce signatureOk s) s ((.mpu :: .freeCount :: replyParts h)) :=
  keepsBut_runHly (fun _ hb => by simp [hb]) fun s => by simp [replyParts]

@[simp] theorem icuSetBody_but {l : List Block} (h : .icu ∈ l) (target first count priority coreMask threshold : Nat) (s : State) :
    (icuSetBody target first count priority coreMask threshold s).All fun u => u.but l = s.but l := by
  simp [icuSetBody, h]

theorem execIcuSet_keeps (h : HlyHdr) (target first count priority coreMask threshold : Nat) (s : State) : KeepsBut
    (execIcuSet h target first count priority coreMask threshold s) s ((.icu :: replyParts h)) :=
  keepsBut_runHly (fun _ hb => by simp [hb]) fun s => by simp [replyParts]

theorem execIcuQuery_keeps (h : HlyHdr) (first count : Nat) (s : State) : KeepsBut (execIcuQuery h first count s) s (replyParts h) :=
  keepsBut_runHly (fun _ hb => hb) fun s => by simp [replyParts]

theorem execIcuClaimRead_keeps {l : List Block} (h : .out ∈ l ∧ .icu ∈ l) (core : Nat) (viaBar0 : Bool) {s : State} (hw : s.mayWake l) :
    KeepsBut (execIcuClaimRead core viaBar0 s) s l := by
  refine keepsBut_ends ?_
  (repeat' split) <;> simp [hw, h]

theorem execIcuCompleteWrite_keeps {l : List Block} (h : .icu ∈ l) (core source : Nat) (viaBar0 : Bool) {s : State} (hw : s.mayWake l) :
    KeepsBut (execIcuCompleteWrite core source viaBar0 s) s l := by
  exact keepsBut_ends (by simp [hw, h])

theorem execIcuSwiWrite_keeps {l : List Block} (h : .icu ∈ l) (value : Word) {s : State} (hw : s.mayWake l) :
    KeepsBut (execIcuSwiWrite value s) s l := by
  exact keepsBut_ends (by simp [hw, h])

/-! ### Observation -/

@[simp] theorem ttcSetBody_but {l : List Block} (h : .ttc ∈ l) (block counter event samplePeriod : Nat) (s : State) :
    (ttcSetBody block counter event samplePeriod s).All fun u => u.but l = s.but l := by
  simp [ttcSetBody, h]

theorem execTtcSet_keeps (h : HlyHdr) (block counter event samplePeriod : Nat) (s : State) : KeepsBut
    (execTtcSet h block counter event samplePeriod s) s ((.ttc :: replyParts h)) :=
  keepsBut_runHly (fun _ hb => by simp [hb]) fun s => by simp [replyParts]

theorem execCounterAccumulate_keeps (s : State) : KeepsBut (execCounterAccumulate s) s [.ttc] := by
  exact keepsBut_ends (by simp)

theorem execSampleCountdownZero_keeps (engine counter programCounter : Nat) (s : State) : KeepsBut
    (execSampleCountdownZero engine counter programCounter s) s [.icu, .ttc] := by
  exact keepsBut_ends (by simp)

@[simp] theorem dumpSetBody_but {l : List Block} (h : .ttc ∈ l) (stream cm intervalMs ringBase slots vector : Nat) (inMemory : Bool) (s : State) :
    (dumpSetBody stream cm intervalMs ringBase slots vector inMemory s).All fun u => u.but l = s.but l := by
  simp [dumpSetBody, h]

theorem execDumpSet_keeps (h : HlyHdr) (stream cm intervalMs ringBase slots vector : Nat) (inMemory : Bool) (s : State) : KeepsBut
    (execDumpSet h stream cm intervalMs ringBase slots vector inMemory s) s ((.ttc :: replyParts h)) :=
  keepsBut_runHly (fun _ hb => by simp [hb]) fun s => by simp [replyParts]

theorem execDumpInterval_keeps (stream : Nat) (freed : List Nat) (s : State) : KeepsBut (execDumpInterval stream freed s) s [.csc, .egs, .rte,
    .ttc] := by
  exact keepsBut_ends (by simp)

theorem execDumpSlotWritten_keeps (stream : Nat) (freed : List Nat) (s : State) : KeepsBut (execDumpSlotWritten stream freed s) s [.out, .hly, .obf,
    .egs, .trn, .ins, .msix, .ttc] := by
  exact keepsBut_ends (by simp)

@[simp] theorem mtrSetBody_but {l : List Block} (h : .csc ∈ l ∧ .egs ∈ l ∧ .rte ∈ l ∧ .ttc ∈ l) (action inst : Nat) (s : State) :
    (mtrSetBody action inst s).All fun u => u.but l = s.but l := by
  simp [mtrSetBody, h]

theorem execMtrSet_keeps (h : HlyHdr) (action inst : Nat) (s : State) : KeepsBut (execMtrSet h action inst s) s ((.csc :: .egs :: .rte :: .ttc ::
    replyParts h)) :=
  keepsBut_runHly (fun _ hb => by simp [hb]) fun s => by simp [replyParts]

theorem execMeteringSlotWaitTimeout_keeps (inst : Nat) (s : State) : KeepsBut (execMeteringSlotWaitTimeout inst s) s [.out, .hly, .obf, .trn, .ins,
    .msix, .ttc] := by
  exact keepsBut_ends (by simp)

@[simp] theorem probeSetBody_but {l : List Block} (h : .ttc ∈ l) (probe bridge action source destination kindMask matchAddr mask records : Nat) (s :
    State) : (probeSetBody probe bridge action source destination kindMask matchAddr mask records s).All fun u => u.but l = s.but l := by
  simp [probeSetBody, h]

theorem execProbeSet_keeps (h : HlyHdr) (probe bridge action source destination kindMask matchAddr mask records : Nat) (s : State) : KeepsBut
    (execProbeSet h probe bridge action source destination kindMask matchAddr mask records s) s ((.ttc :: replyParts h)) :=
  keepsBut_runHly (fun _ hb => by simp [hb]) fun s => by simp [replyParts]

theorem execProbeMatch_keeps (bridge source destination kind address length : Nat) (direction : Bool) (s : State) : KeepsBut
    (execProbeMatch bridge source destination kind address length direction s) s [.ttc] := by
  exact keepsBut_ends (by simp)

theorem execTraceRecordTimeout_keeps (probe : Nat) (s : State) : KeepsBut (execTraceRecordTimeout probe s) s [.ttc] := by
  exact keepsBut_ends (by simp)

theorem execProbeQuery_keeps (h : HlyHdr) (probe first count : Nat) (s : State) : KeepsBut (execProbeQuery h probe first count s) s (replyParts h) :=
  keepsBut_runHly (fun _ hb => hb) fun s => by simp [replyParts]

/-! ### Registers -/

theorem execFtuTimeLoRead_keeps {l : List Block} (h : .out ∈ l ∧ .ftu ∈ l)  {s : State} (hw : s.mayWake l) :
    KeepsBut (execFtuTimeLoRead s) s l := by
  exact keepsBut_ends (by simp [hw, h])

theorem execReg64LowHalfRead_keeps {l : List Block} (h : .out ∈ l ∧ .latches ∈ l) (window offset : Nat) {s : State} (hw : s.mayWake l) :
    KeepsBut (execReg64LowHalfRead window offset s) s l := by
  refine keepsBut_ends ?_
  (repeat' split) <;> simp [hw, h]

theorem execBar0IllegalAccess_keeps {l : List Block} (h : .out ∈ l ∧ .ttc ∈ l) (write : Bool) {s : State} (hw : s.mayWake l) :
    KeepsBut (execBar0IllegalAccess write s) s l := by
  exact keepsBut_ends (by simp [hw, h])

theorem execBar0UnmappedAccess_keeps {l : List Block} (h : .out ∈ l ∧ .ttc ∈ l) (access : Bar0Access) {s : State} (hw : s.mayWake l) :
    KeepsBut (execBar0UnmappedAccess access s) s l := by
  exact keepsBut_ends (by simp [hw, h])

theorem execRegisterWrite_keeps {l : List Block} (h : .hly ∈ l ∧ .adm ∈ l ∧ .obf ∈ l ∧ .egs ∈ l ∧ .arbs ∈ l ∧ .rte ∈ l ∧ .lnk ∈ l ∧ .trn ∈ l ∧
    .prt ∈ l ∧ .dir ∈ l ∧ .mec ∈ l ∧ .mtc ∈ l ∧ .rdx ∈ l ∧ .ins ∈ l ∧ .mpu ∈ l ∧ .pwr ∈ l ∧ .flt ∈ l ∧ .ttc ∈ l) (window offset : Nat) (value :
    Word) {s : State} (hw : s.mayWake l) :
    KeepsBut (execRegisterWrite window offset value s) s l := by
  refine keepsBut_ends ?_
  split
  · simp [State.strayAccess, hw, h]
  · split
    · simp [hw, h]
    · simp [State.strayAccess, hw, h]

/-! ### Fabric time -/

@[simp] theorem ftuSetBody_but {l : List Block} (h : .out ∈ l ∧ .ftu ∈ l ∧ .adm ∈ l ∧ .ins ∈ l ∧ .msix ∈ l ∧ .flt ∈ l ∧ .ttc ∈ l) (cm : Nat)
    (grandmaster : Bool) (parentPort syncPeriod : Nat) (ppsIn ppsOut : Bool) (s : State) :
    (ftuSetBody cm grandmaster parentPort syncPeriod ppsIn ppsOut s).All fun u => u.but l = s.but l := by
  simp [ftuSetBody, h]

theorem execFtuSet_keeps (h : HlyHdr) (cm : Nat) (grandmaster : Bool) (parentPort syncPeriod : Nat) (ppsIn ppsOut : Bool) (s : State) : KeepsBut
    (execFtuSet h cm grandmaster parentPort syncPeriod ppsIn ppsOut s) s ((.ftu :: .adm :: .flt :: .ttc :: replyParts h)) :=
  keepsBut_runHly (fun _ hb => by simp [hb]) fun s => by simp [replyParts]

theorem execSyncPeriod_keeps (s : State) : KeepsBut (execSyncPeriod s) s [.out, .ftu, .obf, .trn] := by
  exact keepsBut_ends (by simp)

theorem execFtSyncReqReceive_keeps {l : List Block} (h : .out ∈ l ∧ .obf ∈ l ∧ .trn ∈ l) (port exchange t1 : Nat) {s : State} (hw : s.mayWake l) :
    KeepsBut (execFtSyncReqReceive port exchange t1 s) s l := by
  exact keepsBut_ends (by simp [hw, h])

theorem execFtSyncRspReceive_keeps {l : List Block} (h : .out ∈ l ∧ .ftu ∈ l ∧ .adm ∈ l ∧ .ins ∈ l ∧ .msix ∈ l ∧ .flt ∈ l ∧ .ttc ∈ l)
    (port exchange depth t2 t3 : Nat) {s : State} (hw : s.mayWake l) :
    KeepsBut (execFtSyncRspReceive port exchange depth t2 t3 s) s l := by
  exact keepsBut_ends (by simp [hw, h])

theorem execParentReplyLoss_keeps (s : State) : KeepsBut (execParentReplyLoss s) s [.out, .ftu, .adm, .ins, .msix, .flt, .ttc] := by
  exact keepsBut_ends (by simp)

theorem execMastheadTimeTick_keeps (s : State) : KeepsBut (execMastheadTimeTick s) s [.masthead, .prt, .ttc] := by
  refine keepsBut_ends ?_
  split
  · rfl
  · rw [State.passTime_but (by simp), State.setMasthead_but (by simp)]

theorem execWakeSyncWindowEnd_keeps (s : State) : KeepsBut (execWakeSyncWindowEnd s) s [.out, .ftu, .adm, .ins, .msix, .flt, .ttc] := by
  simp only [execWakeSyncWindowEnd]
  refine keepsBut_ends ?_
  (repeat' split) <;> simp

theorem execPpsInputEdge_keeps (s : State) : KeepsBut (execPpsInputEdge s) s [.ftu, .freeCount] := by
  exact keepsBut_ends (by simp)

theorem execPpsOutputSecond_keeps (s : State) : KeepsBut (execPpsOutputSecond s) s [.out] := by
  exact keepsBut_ends (by simp)

end Sys2Proof.Machine
end

section
/-! The frames of commands and events (R523, spec/95_what_each_step_holds.md). -/
namespace Sys2Proof.Machine

/-- Settles O56: by the frame lemma of each command. -/
theorem otherCommandsKeepTheRest : Obligations.OtherCommandsKeepTheRest := by
  unfold Obligations.OtherCommandsKeepTheRest
  exact ⟨
    fun s h contractId cm committed peak burst aware bound lateThreshold remoteBudget =>
        execContractModify_keeps h contractId cm committed peak burst aware bound lateThreshold remoteBudget s,
    fun s h peer inst cls half pin => execContextPin_keeps h peer inst cls half pin s,
    fun s h port fraction => execPortReserveSet_keeps h port fraction s,
    fun s h kind queue => execQueueDestroy_keeps h kind queue s,
    fun s h source force kind subject => execFaultForce_keeps h source force kind subject s,
    fun s h first count sticky => execFaultClear_keeps h first count sticky s,
    fun s h feed cm set rearm windowMs wakeGpio sleepIdle powerOffIdle =>
        execPwrSet_keeps h feed cm set rearm windowMs wakeGpio sleepIdle powerOffIdle s,
    fun s h contractId => execContractRemove_keeps h contractId s,
    fun s h resvId => execHopRelease_keeps h resvId s,
    fun s h b => execExtentBind_keeps h b s,
    fun s h action inst => execMtrSet_keeps h action inst s,
    fun s h force => execFabricLeave_keeps h force s,
    fun s h mode reefForm force hm => execModeSet_keeps h mode reefForm force hm,
    fun s h slot cm enable autoPower pginUse set => execSlotSet_keeps h slot cm enable autoPower pginUse set s,
    fun s h cm grandmaster parentPort syncPeriod ppsIn ppsOut => execFtuSet_keeps h cm grandmaster parentPort syncPeriod ppsIn ppsOut s,
    fun s h agent => execCohAgentRemove_keeps h agent s,
    fun s h window mask => execCohWindowAgents_keeps h window mask s,
    fun s h scope tree branch => execTreeFence_keeps h scope tree branch s,
    fun s h port => execSlotRemove_keeps h port s,
    fun s h mode queue => execBufferReclaim_keeps h mode queue s,
    fun s h index => execLockBreak_keeps h index s,
    fun s h port mode width maxRate => execPortModeSet_keeps h port mode width maxRate s,
    fun s h g => execCollGroupSet_keeps h g s,
    fun s h group => execCollGroupRemove_keeps h group s,
    fun s h group target index => execCollFence_keeps h group target index s,
    fun s h inst form => execInstanceReset_keeps h inst form s,
    fun s h inst => execInstanceDisable_keeps h inst s,
    fun s h slot on force => execSlotPower_keeps h slot on force s⟩

/-- Settles O57: by the frame lemma of each access. -/
theorem hostAccessesKeepTheRest : Obligations.HostAccessesKeepTheRest := by
  unfold Obligations.HostAccessesKeepTheRest
  exact ⟨
    fun s q ha => execHlyQueueEnable_keeps (by simp) q (.inl ha),
    fun s q ha => execHlyQueueDisable_keeps (by simp) q (.inl ha),
    fun s core source viaBar0 ha => execIcuCompleteWrite_keeps (by simp) core source viaBar0 (.inl ha),
    fun s value ha => execIcuSwiWrite_keeps (by simp) value (.inl ha),
    fun s value ha => execMpuViolPop_keeps (by simp) value (.inl ha),
    fun s inst ha => execBusMasterEnableClear_keeps (by simp) inst (.inl ha),
    fun s q index ha => execHlyCommandProducerWrite_keeps (by simp) q index (.inl ha),
    fun s core viaBar0 ha => execIcuClaimRead_keeps (by simp) core viaBar0 (.inl ha),
    fun s ha => execFtuTimeLoRead_keeps (by simp) (.inl ha),
    fun s window offset ha => execReg64LowHalfRead_keeps (by simp) window offset (.inl ha),
    fun s write ha => execBar0IllegalAccess_keeps (by simp) write (.inl ha),
    fun s access ha => execBar0UnmappedAccess_keeps (by simp) access (.inl ha),
    fun s code inputLength ha => execBoardChannelRequest_keeps (by simp) code inputLength (.inl ha),
    fun s link numVfs ha => execVfEnableSet_keeps (by simp) link numVfs (.inl ha),
    fun s inst ha => execBusMasterEnableSet_keeps (by simp) inst (.inl ha),
    fun s inst vector wholeFunction ha => execMsixUnmask_keeps (by simp) inst vector wholeFunction (.inl ha),
    fun s origin queue seq segIndex segCount attempt directed retPorts ha => execHlyCmdReceive_keeps
        (by simp) origin queue seq segIndex segCount attempt directed retPorts (.inl ha),
    fun s inst queue index ha => execDoorbellReceive_keeps (by simp) inst queue index (.inl ha),
    fun s q index ha => execHlyReplyConsumerWrite_keeps (by simp) q index (.inl ha),
    fun s inst queue index ha => execDoorbellSend_keeps (by simp) inst queue index (.inl ha),
    fun s inst queue index ha => execDoorbellCompletion_keeps (by simp) inst queue index (.inl ha),
    fun s inst queue index ha => execDoorbellCompletionArm_keeps (by simp) inst queue index (.inl ha),
    fun s inst address length write cxl data ha => execHostMemoryAccess_keeps (by simp) inst address length write cxl data (.inl ha),
    fun s inst address length posted data ha => execHostWindowStore_keeps (by simp) inst address length posted data (.inl ha),
    fun s link ha => execVfEnableClear_keeps (by simp) link (.inl ha),
    fun s window offset value ha => execRegisterWrite_keeps (by simp) window offset value (.inl ha),
    fun s inst ha => execFunctionLevelReset_keeps (by simp) inst (.inl ha)⟩

/-- Settles O58: by the frame lemma of each event. -/
theorem packetEventsKeepTheRest : Obligations.PacketEventsKeepTheRest := by
  unfold Obligations.PacketEventsKeepTheRest
  exact ⟨
    fun s port => execReplayTimeout_keeps port s,
    fun s => execAuditPassEnd_keeps s,
    fun s port exchange depth t2 t3 ha => execFtSyncRspReceive_keeps (by simp) port exchange depth t2 t3 (.inl ha),
    fun s => execParentReplyLoss_keeps s,
    fun s => execWakeSyncWindowEnd_keeps s,
    fun s resvId => execHopReleaseDrained_keeps resvId s,
    fun s resvId => execHopReleaseTimeout_keeps resvId s,
    fun s pid => execEdgeWaitRelease_keeps pid s,
    fun s input p length rxVl preYellow firstOfOp ha => execPacketIngress_keeps (by simp) input p length rxVl preYellow firstOfOp (.inl ha),
    fun s pid => execRouteRetry_keeps pid s,
    fun s output => execEgressSelect_keeps output s,
    fun s output pid progress => execFramePreempt_keeps output pid progress s,
    fun s port sync head pid bytes frameCrc marked lost ha => execLinkFrameReceive_keeps (by simp) port sync head pid bytes frameCrc marked lost
        (.inl ha),
    fun s port flit sync => execLinkControlFlitReceive_keeps port flit sync s,
    fun s port => execPortDisableDrainTimeout_keeps port s,
    fun s port => execRetrainLimitExpiry_keeps port s⟩

/-- Settles O59: by the frame lemma of each event. -/
theorem engineEventsKeepTheRest : Obligations.EngineEventsKeepTheRest := by
  unfold Obligations.EngineEventsKeepTheRest
  exact ⟨
    fun s inst w reason => execWerrorArrival_keeps inst w reason s,
    fun s group => execGroupDrained_keeps group s,
    fun s index => execLockAgeExpiry_keeps index s,
    fun s r => execPutAckArrival_keeps r s,
    fun s r lockIndex srcDevice => execLockResultArrival_keeps r lockIndex srcDevice s,
    fun s r => execSendAckArrival_keeps r s,
    fun s r bytes => execRdoneArrival_keeps r bytes s,
    fun s r => execEngErrorArrival_keeps r s,
    fun s queue d => execCounterAdd_keeps queue d s,
    fun s queue d => execCounterSet_keeps queue d s,
    fun s queue d => execDescNop_keeps queue d s,
    fun s engine => execTriggerFire_keeps engine s,
    fun s r data => execGetDataArrival_keeps r data s,
    fun s r old => execAtomicResultArrival_keeps r old s,
    fun s queue bits readOk => execDescriptorFetch_keeps queue bits readOk s,
    fun s srcDevice srcInst sl w => execWreadArrival_keeps srcDevice srcInst sl w s,
    fun s r a wait => execLockArrival_keeps r a wait s,
    fun s r rvTag rvGen offset length => execRgetArrival_keeps r rvTag rvGen offset length s,
    fun s srcDevice srcInst sl w data => execWwriteArrival_keeps srcDevice srcInst sl w data s,
    fun s r => execSendRnrArrival_keeps r s,
    fun s queue d => execLock_keeps queue d s,
    fun s queue d => execUnlock_keeps queue d s,
    fun s opTag => execRnrDelayExpiry_keeps opTag s,
    fun s r a poison => execGetArrival_keeps r a poison s,
    fun s r a => execUnlockArrival_keeps r a s,
    fun s r queue => execLockAbandonArrival_keeps r queue s,
    fun s r data => execRgetDataArrival_keeps r data s,
    fun s tag values error poison => execHostReadCompletion_keeps tag values error poison s,
    fun s tag => execHostCompletionTimeout_keeps tag s,
    fun s queue d => execPut_keeps queue d s,
    fun s queue d => execGet_keeps queue d s,
    fun s queue d => execAtomic_keeps queue d s,
    fun s queue d => execSend_keeps queue d s,
    fun s queue bits => execReceiveTake_keeps queue bits s,
    fun s r a data last => execPutArrival_keeps r a data last s,
    fun s r a aop size16 opA opB old => execAtomicArrival_keeps r a aop size16 opA opB old s,
    fun s r dstInst context msn msgOffset matchBits msgLength data =>
        execSendEagerArrival_keeps r dstInst context msn msgOffset matchBits msgLength data s,
    fun s r dstInst context msn matchBits msgLength => execSendRtsArrival_keeps r dstInst context msn matchBits msgLength s,
    fun s group member values failed poison => execMemberArrival_keeps group member values failed poison s,
    fun s group srcDevice srcInst sl round members fenced arrival elementOffset poison values =>
        execRdxUpArrival_keeps group srcDevice srcInst sl round members fenced arrival elementOffset poison values s,
    fun s group round combined fenced status elementOffset values =>
        execRdxDownArrival_keeps group round combined fenced status elementOffset values s⟩

/-- Settles O60: by the frame lemma of each event. -/
theorem deviceEventsKeepTheRest : Obligations.DeviceEventsKeepTheRest := by
  unfold Obligations.DeviceEventsKeepTheRest
  exact ⟨
    fun s agent handle lineIndex ha => execBiconflictReceive_keeps (by simp) agent handle lineIndex (.inl ha),
    fun s slot ha => execPresenceDebounced_keeps (by simp) slot (.inl ha),
    fun s => execQuietPeriodExpiry_keeps s,
    fun s stream freed => execDumpInterval_keeps stream freed s,
    fun s port => execRateStepTimeout_keeps port s,
    fun s row => execSramUncorrectableError_keeps row s,
    fun s engine => execEngineDuplicateFail_keeps engine s,
    fun s port => execViralReceived_keeps port s,
    fun s tile bank => execRouteBankFailure_keeps tile bank s,
    fun s channel => execPseudoChannelFailure_keeps channel s,
    fun s => execDatapathError_keeps s,
    fun s bridge => execShroudBridgeTimeout_keeps bridge s,
    fun s lane corrected => execCorrWindowEnd_keeps lane corrected s,
    fun s lane margin => execMarginReport_keeps lane margin s,
    fun s lane => execWearFlag_keeps lane s,
    fun s port => execTrainTimeout_keeps port s,
    fun s port differing => execSubCompareDone_keeps port differing s,
    fun s port msg => execSubDone_keeps port msg s,
    fun s port msg => execSubAbort_keeps port msg s,
    fun s feed voltage ha => execFeedWindowExit_keeps (by simp) feed voltage (.inl ha),
    fun s feed => execReverseCurrent_keeps feed s,
    fun s feed => execFeedBelow5v_keeps feed s,
    fun s sensor => execThermalTrip_keeps sensor s,
    fun s sensor celsius => execTemperatureReading_keeps sensor celsius s,
    fun s slot => execPginFall_keeps slot s,
    fun s domain => execDomainWakeTimeout_keeps domain s,
    fun s kind unit => execTrendFire_keeps kind unit s,
    fun s core => execManagementCoreWatchdog_keeps core s,
    fun s bank => execDirectoryBankFailure_keeps bank s,
    fun s core => execManagementCoreFailure_keeps core s,
    fun s kind unit => execAgeingMonitorFlag_keeps kind unit s,
    fun s source seq => execManagementFirmwareFault_keeps source seq s,
    fun s agent handle lineIndex keep data ha => execCoherentWriteback_keeps (by simp) agent handle lineIndex keep data (.inl ha),
    fun s agent handle lineIndex form data ha => execSnoopResponseReceive_keeps (by simp) agent handle lineIndex form data (.inl ha),
    fun s handle lineIndex => execMemoryWriteDone_keeps handle lineIndex s,
    fun s agent handle lineIndex => execSnoopTimeoutExpiry_keeps agent handle lineIndex s,
    fun s master => execMpuSwapCommit_keeps master s,
    fun s lane => execLossOfSignal_keeps lane s,
    fun s lane => execLossOfLock_keeps lane s,
    fun s port => execCodewordLockLoss_keeps port s,
    fun s port => execFastExitLockTimeout_keeps port s,
    fun s channel pgin => execQualificationDone_keeps channel pgin s,
    fun s handle lineIndex poison => execDirectoryReadDone_keeps handle lineIndex poison s,
    fun s port rate width cxlOffered flit256 => execPcieLinkTrained_keeps port rate width cxlOffered flit256 s,
    fun s port tree srcDevice inst op delivered fenced => execMcAckReceive_keeps port tree srcDevice inst op delivered fenced s,
    fun s agent handle lineIndex op offset data ha => execCoherentRequest_keeps (by simp) agent handle lineIndex op offset data (.inl ha),
    fun s agent handle lineIndex ha => execEvictionNotice_keeps (by simp) agent handle lineIndex (.inl ha),
    fun s recallId => execRecallComplete_keeps recallId s,
    fun s handle => execZeroingComplete_keeps handle s,
    fun s handle => execUnbindDrainComplete_keeps handle s,
    fun s master => execMpuSwapRetire_keeps master s,
    fun s => execStormJibDrained_keeps s,
    fun s lane seq => execTrainingSequenceReceive_keeps lane seq s,
    fun s port => execEqualiseTimeout_keeps port s,
    fun s cause => execStormJibWake_keeps cause s,
    fun s peer inst cls => execAckDelayExpiry_keeps peer inst cls s,
    fun s peer inst cls => execNakDelayExpiry_keeps peer inst cls s,
    fun s peer inst cls => execCtxIdleExpiry_keeps peer inst cls s,
    fun s peer inst cls => execFlaggedLateSend_keeps peer inst cls s,
    fun s kind unit => execSpareSwapComplete_keeps kind unit s,
    fun s port => execRateStepComplete_keeps port s,
    fun s peer inst cls ackSeq openAck openRefused closeAck lates marks ticketsReturned ticketsGranted =>
        execTackReceive_keeps peer inst cls ackSeq openAck openRefused closeAck lates marks ticketsReturned ticketsGranted s,
    fun s domain p => execDomainPacketArrival_keeps domain p s,
    fun s peer inst cls initialSeq sl => execTopenReceive_keeps peer inst cls initialSeq sl s,
    fun s peer inst cls nextSeq sl => execTcloseReceive_keeps peer inst cls nextSeq sl s,
    fun s p check ticketUsed => execTransportDataReceive_keeps p check ticketUsed s,
    fun s peer inst cls half => execContextFetchDone_keeps peer inst cls half s,
    fun s peer inst cls seq transit reason => execTnakReceive_keeps peer inst cls seq transit reason s,
    fun s peer inst cls => execRetryTimeout_keeps peer inst cls s,
    fun s inst => execResetDrainComplete_keeps inst s,
    fun s inst => execDrainTimeoutExpiry_keeps inst s,
    fun s inst => execGenerationWaitExpiry_keeps inst s,
    fun s port skews => execLockAchieved_keeps port skews s,
    fun s port routingId => execFunctionResetComplete_keeps port routingId s,
    fun s channel ha => execFaultTimerTrip_keeps (by simp) channel (.inl ha),
    fun s channel withEnergy ha => execFastTrip_keeps (by simp) channel withEnergy (.inl ha),
    fun s channel ha => execEnergyBudgetTrip_keeps (by simp) channel (.inl ha),
    fun s channel ha => execRampTimeout_keeps (by simp) channel (.inl ha),
    fun s slot port linkDown ha => execPresenceLost_keeps (by simp) slot port linkDown (.inl ha),
    fun s inst => execResetForceExpiry_keeps inst s,
    fun s inst => execResetItemsDone_keeps inst s,
    fun s address owner patrol => execHbmUncorrectableError_keeps address owner patrol s⟩

end Sys2Proof.Machine
end

section
/-! SUPPORT. What a step without a fault owes at its end: nothing that was not owed before (`State.calm`). -/
namespace Sys2Proof.Machine

/-- The blocks in which what is owed is listed. -/
def owing : List Block := [.flt, .mec, .pool, .mgc, .pwr]

/-- What `calm` reads of a state. -/
theorem State.calm_congr {s t : State} (hf : t.flt.actions = s.flt.actions) (ha : t.mec.abandons = s.mec.abandons)
    (hs : t.mec.sendQ = s.mec.sendQ) (hr : t.mec.recvQ = s.mec.recvQ) (hd : t.pool.down = s.pool.down)
    (hl : t.mgc.leaving = s.mgc.leaving) (hc : t.pwr.change = s.pwr.change) : t.calm = s.calm := by
  simp only [State.calm, hf, ha, hs, hr, hd, hl, hc]

theorem State.calm_of_but {l : List Block} {s t : State} (h : t.but l = s.but l) (hl : ∀ b ∈ owing, b ∉ l) : t.calm = s.calm := by
  have hb := fun b (hb : b ∈ owing) => (State.but_eq_iff.mp h).2 b (hl b hb)
  have hf : t.flt = s.flt := hb .flt (by decide)
  have hm : t.mec = s.mec := hb .mec (by decide)
  have hp : t.pool = s.pool := hb .pool (by decide)
  have hg : t.mgc = s.mgc := hb .mgc (by decide)
  have hw : t.pwr = s.pwr := hb .pwr (by decide)
  simp only [State.calm, hf, hm, hp, hg, hw]

@[simp] theorem State.upPool_calm (s : State) {f : Pool → Pool} (h : (f s.pool).down = s.pool.down) : (s.upPool f).calm = s.calm :=
  State.calm_congr rfl rfl rfl rfl h rfl rfl

@[simp] theorem State.upPwr_calm (s : State) {f : Pwr → Pwr} (h : (f s.pwr).change = s.pwr.change) : (s.upPwr f).calm = s.calm :=
  State.calm_congr rfl rfl rfl rfl rfl rfl h

@[simp] theorem State.upFlt_calm (s : State) {f : Flt → Flt} (h : (f s.flt).actions = s.flt.actions) : (s.upFlt f).calm = s.calm :=
  State.calm_congr h rfl rfl rfl rfl rfl rfl

@[simp] theorem State.upMgc_calm (s : State) {f : Mgc → Mgc} (h : (f s.mgc).leaving = s.mgc.leaving) : (s.upMgc f).calm = s.calm :=
  State.calm_congr rfl rfl rfl rfl rfl h rfl

@[simp] theorem State.upMec_calm (s : State) {f : Mec → Mec} (ha : (f s.mec).abandons = s.mec.abandons) (hs : (f s.mec).sendQ = s.mec.sendQ)
    (hr : (f s.mec).recvQ = s.mec.recvQ) : (s.upMec f).calm = s.calm :=
  State.calm_congr rfl ha hs hr rfl rfl rfl

@[simp] theorem State.upAdm_calm (s : State) (f : Adm → Adm) : (s.upAdm f).calm = s.calm := rfl
@[simp] theorem State.upDir_calm (s : State) (f : Dir → Dir) : (s.upDir f).calm = s.calm := rfl
@[simp] theorem State.emit_calm (s : State) (o : Out) : (s.emit o).calm = s.calm := rfl
@[simp] theorem State.upHly_calm (s : State) (f : Hly → Hly) : (s.upHly f).calm = s.calm := rfl

@[simp] theorem State.upChan_calm (s : State) (c : Nat) (f : Chan → Chan) : (s.upChan c f).calm = s.calm := by simp [State.upChan]
@[simp] theorem State.startRamp_calm (s : State) (c : Nat) : (s.startRamp c).calm = s.calm := by simp [State.startRamp]
@[simp] theorem State.upDomain_calm (s : State) (d : Nat) (f : Domain → Domain) : (s.upDomain d f).calm = s.calm := by simp [State.upDomain]
@[simp] theorem State.upExtent_calm (s : State) (h : Nat) (f : Extent → Extent) : (s.upExtent h f).calm = s.calm := by simp [State.upExtent]
@[simp] theorem State.upVslot_calm (s : State) (l v : Nat) (f : VSlot → VSlot) : (s.upVslot l v f).calm = s.calm := by simp [State.upVslot]
@[simp] theorem State.upHostLink_calm (s : State) (l : Nat) (f : HostLink → HostLink) : (s.upHostLink l f).calm = s.calm := by
  simp [State.upHostLink]
@[simp] theorem State.upFn_calm (s : State) (p r : Nat) (f : BoundFn → BoundFn) : (s.upFn p r f).calm = s.calm := by simp [State.upFn]
@[simp] theorem State.fenceExtent_calm (s : State) (h : Nat) : (s.fenceExtent h).calm = s.calm := by simp [State.fenceExtent]
@[simp] theorem State.resetFunction_calm (s : State) (f : BoundFn) (late : Bool) : (s.resetFunction f late).calm = s.calm := by
  simp [State.resetFunction]
@[simp] theorem State.post_calm (s : State) (i kind detail subject aux data : Nat) :
    (s.post i kind detail subject aux data).calm = s.calm :=
  State.calm_congr (by simp) (by simp) (by simp) (by simp) (by simp) (by simp) (by simp)
@[simp] theorem State.finish_calm (s : State) (p : Prog → Bool) (st r : Nat) : (s.finish p st r).calm = s.calm :=
  State.calm_congr (by simp) (by simp) (by simp) (by simp) (by simp) (by simp) (by simp)
@[simp] theorem State.finishWait_calm (s : State) (w : Wait) (st r : Nat) : (s.finishWait w st r).calm = s.calm :=
  State.calm_congr (by simp) (by simp) (by simp) (by simp) (by simp) (by simp) (by simp)
@[simp] theorem State.finishEvery_calm (s : State) (w : Wait) (st r : Nat) : (s.finishEvery w st r).calm = s.calm :=
  State.calm_of_but (State.finishEvery_but (l := [.out, .hly, .obf, .trn, .ins, .msix]) (by simp) s w st r) (by decide)
@[simp] theorem State.settleUnmap_calm (s : State) (i slot : Nat) : (s.settleUnmap i slot).calm = s.calm := by
  rw [State.settleUnmap]; split <;> simp
@[simp] theorem State.wantDomain_calm (s : State) (d : Nat) : (s.wantDomain d).calm = s.calm := by
  rw [State.wantDomain]; split <;> simp
@[simp] theorem State.fireTriggers_calm (s : State) : s.fireTriggers.calm = s.calm := by simp [State.fireTriggers]

theorem foldl_calm {α : Type} {f : State → α → State} (h : ∀ s x, (f s x).calm = s.calm) (xs : List α) (s : State) :
    (xs.foldl f s).calm = s.calm := by
  induction xs generalizing s with
  | nil => rfl
  | cons x xs ih => exact (ih _).trans (h s x)

@[simp] theorem State.wantAll_calm (s : State) : s.wantAll.calm = s.calm := foldl_calm (fun s d => by simp) _ s

@[simp] theorem State.domainsReady_calm (s : State) : s.domainsReady.calm = s.calm := by
  rw [State.domainsReady]
  split
  · refine foldl_calm (fun s g => ?_) _ s
    split <;> simp
  · rfl

@[simp] theorem State.setTrain_calm (s : State) (p : Nat) (x : TrainState) : (s.setTrain p x).calm = s.calm :=
  State.calm_of_but (State.setTrain_but (l := [.out, .lnk, .prt, .ttc]) (by simp) s p x) (by decide)

@[simp] theorem State.setWaiting_calm (s : State) (w : List Instr) : ({ s with waiting := w } : State).calm = s.calm := rfl
@[simp] theorem State.fetchCmd_calm (s : State) (h : HlyHdr) : (s.fetchCmd h).calm = s.calm :=
  State.calm_congr (by simp) (by simp) (by simp) (by simp) (by simp) (by simp) (by simp)
@[simp] theorem State.complete_calm (s : State) (src : CmdSrc) (seq code : Nat) (i e : Bool) (st r : Nat) (o : List Nat) :
    (s.complete src seq code i e st r o).calm = s.calm :=
  State.calm_congr (by simp) (by simp) (by simp) (by simp) (by simp) (by simp) (by simp)
@[simp] theorem State.sendLaneCommand_calm (s : State) (target : Nat) (directed : Bool) (ports : List Nat) (queue seq attempt descriptor : Nat)
    (input : List Nat) : (s.sendLaneCommand target directed ports queue seq attempt descriptor input).calm = s.calm :=
  State.calm_congr (by simp) (by simp) (by simp) (by simp) (by simp) (by simp) (by simp)

/-- A Halyard command owes nothing at its end where its own meaning owes nothing. -/
theorem runHly_calm {i : Instr} {code inLen outLen : Nat} {h : HlyHdr} {names : List Obj} {body : State → HRes} {s : State}
    (hs : s.calm = true) (hb : ∀ u : State, u.calm = true → (body u).All fun v => v.calm = true) :
    (runHly i code h inLen outLen names body s).calm = true := by
  have hb := hb (s.fetchCmd h) (by simpa using hs)
  rw [runHly]
  split
  · simpa using hs
  · dsimp only
    split
    · simpa using hs
    · split
      · simpa [State.sendRemote] using hs
      · split
        · simpa using hs
        · next e =>
          simp only [e, HRes.all_done_iff] at hb
          split
          · simpa using hs
          · simpa using hb
        · next e =>
          simp only [e, HRes.all_pend_iff] at hb
          simpa using hb

/-- A step whose effect changes the parts `l` and owes nothing does nothing more. -/
theorem leaves_ends_but {l : List Block} {s t : State} (h : t.but l = s.but l) (ht : t.calm = true) : LeavesBut (ends t) s l :=
  leaves_ends ⟨(State.but_eq_iff.mp h).1, ht, (State.but_eq_iff.mp h).2⟩

theorem leaves_runHly_but {l : List Block} {i : Instr} {code inLen outLen : Nat} {h : HlyHdr} {names : List Obj} {body : State → HRes}
    {s : State} (hs : s.calm = true) (hl : ∀ b ∈ replyParts h, b ∈ l) (hb : ∀ u : State, (body u).All fun v => v.but l = u.but l)
    (hc : ∀ u : State, u.calm = true → (body u).All fun v => v.calm = true) :
    LeavesBut (ends (runHly i code h inLen outLen names body s)) s l :=
  leaves_ends_but (runHly_but hl (hb _)) (runHly_calm hs hc)

/-- Where the parts that an effect changes owe nothing, the step does nothing more. -/
theorem KeepsBut.leaves {l : List Block} {s : State} {o : Host.Outcome State Fault Refusal} (h : KeepsBut o s l) (hl : ∀ b ∈ owing, b ∉ l)
    (hs : s.calm = true) : LeavesBut o s l := by
  obtain ⟨u, hu, hk⟩ := h
  have hc : u.calm = true := (State.calm_of_but (State.but_eq_iff.mpr hk) hl).trans hs
  exact ⟨u, by rw [hu, settle_calm u hc], hk⟩

/-- The parts of an answer owe nothing. -/
theorem owing_replyParts (h : HlyHdr) : ∀ b ∈ owing, b ∉ replyParts h := by
  intro b hb hr
  simp only [owing, List.mem_cons, List.not_mem_nil, or_false] at hb
  rcases hb with rfl | rfl | rfl | rfl | rfl <;> simp [replyParts] at hr


theorem Tbl.all_put {α : Type} {t : Tbl α} {p : α → Bool} (k : Nat) {a : α} (h : (t.all fun e => p e.2) = true) (ha : p a = true) :
    ((Tbl.put t k a).all fun e => p e.2) = true := by
  rw [List.all_eq_true] at h ⊢
  intro x hx
  rcases Tbl.mem_put hx with rfl | hx
  · exact ha
  · exact h x hx

theorem Tbl.all_find {α : Type} {t : Tbl α} {p : α → Bool} {k : Nat} {a : α} (h : (t.all fun e => p e.2) = true) (ha : t.find k = some a) :
    p a = true :=
  List.all_eq_true.mp h _ (Tbl.mem_of_find ha)

/-- A change of a send queue that does not mark it for destruction. -/
theorem State.putSend_calm {s : State} (q : Nat) {x : SendQueue} (hs : s.calm = true) (hx : x.destroying = false) {f : Mec → Mec}
    (hf : (f s.mec).sendQ = s.mec.sendQ.put q x) (ha : (f s.mec).abandons = s.mec.abandons) (hr : (f s.mec).recvQ = s.mec.recvQ) :
    (s.upMec f).calm = true := by
  rw [calm_iff] at hs ⊢
  obtain ⟨h1, h2, h3, h4, h5, h6, h7⟩ := hs
  refine ⟨h1, ha.trans h2, ?_, ?_, h5, h6, h7⟩
  · rw [State.upMec_mec, hf]
    exact Tbl.all_put (p := fun x : SendQueue => !x.destroying) q h3 (by simp [hx])
  · rw [State.upMec_mec, hr]
    exact h4

/-- A change of a receive queue that does not mark it for destruction. -/
theorem State.putRecv_calm {s : State} (q : Nat) {x : RecvQueue} (hs : s.calm = true) (hx : x.destroying = false) {f : Mec → Mec}
    (hf : (f s.mec).recvQ = s.mec.recvQ.put q x) (ha : (f s.mec).abandons = s.mec.abandons) (hr : (f s.mec).sendQ = s.mec.sendQ) :
    (s.upMec f).calm = true := by
  rw [calm_iff] at hs ⊢
  obtain ⟨h1, h2, h3, h4, h5, h6, h7⟩ := hs
  refine ⟨h1, ha.trans h2, ?_, ?_, h5, h6, h7⟩
  · rw [State.upMec_mec, hr]
    exact h3
  · rw [State.upMec_mec, hf]
    exact Tbl.all_put (p := fun x : RecvQueue => !x.destroying) q h4 (by simp [hx])

theorem State.sendQ_kept {s : State} {q : Nat} {x : SendQueue} (hs : s.calm = true) (h : s.mec.sendQ.find q = some x) :
    x.destroying = false := by
  obtain ⟨_, _, h3, _⟩ := (calm_iff s).mp hs
  simpa using Tbl.all_find (p := fun x : SendQueue => !x.destroying) h3 h

theorem State.recvQ_kept {s : State} {q : Nat} {x : RecvQueue} (hs : s.calm = true) (h : s.mec.recvQ.find q = some x) :
    x.destroying = false := by
  obtain ⟨_, _, _, h4, _⟩ := (calm_iff s).mp hs
  simpa using Tbl.all_find (p := fun x : RecvQueue => !x.destroying) h4 h

theorem State.restartQueue_calm {s : State} (kind queue : Nat) (hs : s.calm = true) : (s.restartQueue kind queue).calm = true := by
  rw [State.restartQueue]
  split
  · cases h : s.mec.sendQ.find queue with
    | none => rw [State.upMec_calm] <;> simp [h, hs]
    | some x => exact State.putSend_calm queue hs (x := { x with error := false }) (by simpa using State.sendQ_kept hs h) (by rw [h]) (by rw [h])
                  (by rw [h])
  · cases h : s.mec.recvQ.find queue with
    | none => rw [State.upMec_calm] <;> simp [h, hs]
    | some x => exact State.putRecv_calm queue hs (x := { x with error := false }) (by simpa using State.recvQ_kept hs h) (by rw [h]) (by rw [h])
                  (by rw [h])

theorem State.moveQueue_calm {s : State} (q engine : Nat) (hs : s.calm = true) : (s.moveQueue q engine).calm = true := by
  rw [State.moveQueue]
  cases h : s.mec.sendQ.find q with
  | none => rw [State.upMec_calm] <;> simp [h, hs]
  | some x =>
    exact State.putSend_calm q hs (x := { x with engine, gen := (x.gen + 1) % 256, moving := some x.engine, visits := 0 })
      (by simpa using State.sendQ_kept hs h) (by rw [h]) (by rw [h]) (by rw [h])

theorem State.finishMove_calm {s : State} (q : Nat) (hs : s.calm = true) : (s.finishMove q).calm = true := by
  rw [State.finishMove]
  split
  · exact hs
  · next x h =>
    have hp : (s.upMec fun m => { m with
        sendQ := m.sendQ.put q { x with moving := none }, intStatus := setFlag m.intStatus 4 }).calm = true :=
      State.putSend_calm q hs (x := { x with moving := none }) (by simpa using State.sendQ_kept hs h) rfl rfl rfl
    dsimp only
    rw [State.post_calm]
    split
    · rw [State.finishEvery_calm]
      exact State.restartQueue_calm 0 q (by rw [State.finish_calm, hp])
    · rw [State.finish_calm, hp]

theorem State.addQueue_calm {s : State} (q : QueueP) (hs : s.calm = true) : (s.addQueue q).calm = true := by
  rw [State.addQueue]
  split
  · rw [State.wantDomain_calm]
    exact State.putSend_calm q.queue hs rfl rfl rfl rfl
  · exact State.putRecv_calm q.queue hs rfl rfl rfl rfl
  · simpa using hs
  · simpa using hs

/-- A port below keeps its freedom from a hold. -/
theorem State.upDown_calm {s : State} (p : Nat) {f : Downstream → Downstream} (hf : ∀ d, d.held = false → (f d).held = false)
    (hs : s.calm = true) : (s.upDown p f).calm = true := by
  rw [calm_iff] at hs ⊢
  obtain ⟨h1, h2, h3, h4, h5, h6, h7⟩ := hs
  refine ⟨h1, h2, h3, h4, Tbl.all_put (p := fun d : Downstream => !d.held) p h5 ?_, h6, h7⟩
  rw [Bool.not_eq_true']
  refine hf _ ?_
  cases h : Tbl.find s.pool.down p with
  | none => simp [Tbl.get, h]
  | some d => simpa [Tbl.get, h] using Tbl.all_find (p := fun d : Downstream => !d.held) h5 h

@[simp] theorem State.upFlash_calm (s : State) (n : Nat) (f : FlashSlot → FlashSlot) : (s.upFlash n f).calm = s.calm :=
  State.upMgc_calm s (by split <;> rfl)

@[simp] theorem State.fresh_calm (s : State) : s.fresh.2.calm = s.calm := rfl

@[simp] theorem State.unbindExtent_calm (s : State) (zero : Bool) (h : Nat) : (s.unbindExtent zero h).calm = s.calm := by
  rw [State.unbindExtent]
  split
  · simp
  · rw [foldl_calm fun s l => State.emit_calm s _]
    simp

@[simp] theorem State.mapCoherent_calm (s : State) (inst slot h : Nat) : (s.mapCoherent inst slot h).calm = s.calm := by
  rw [State.mapCoherent]
  split <;> simp

@[simp] theorem State.unmapCoherent_calm (s : State) (inst slot h : Nat) : (s.unmapCoherent inst slot h).calm = s.calm := by
  simp [State.unmapCoherent]

theorem State.windowDone_calm {s : State} (i : Nat) (w : WinF) (write : Option Bool) {f : WinReq → State → State}
    (hf : ∀ r s, (f r s).calm = s.calm) : (s.windowDone i w write f).calm = s.calm := by
  rw [State.windowDone]
  split
  · rfl
  · simp [hf]

/-- What is checked before a command's effect changes nothing. -/
theorem refuseIf_cases (xs : List (Bool × Nat)) (r : HRes) : refuseIf xs r = r ∨ ∃ st, refuseIf xs r = .refuse st := by
  induction xs with
  | nil => exact .inl rfl
  | cons x xs ih =>
    rw [refuseIf]
    split
    · exact .inr ⟨_, rfl⟩
    · exact ih

/-! ### Settings and events that change a part in which something could be owed -/

theorem pwrCaptureBody_calm (action mask channel first count : Nat) {s : State} (hs : s.calm = true) :
    (pwrCaptureBody action mask channel first count s).All fun u => u.calm = true := by
  unfold pwrCaptureBody
  refine all_refuseIf ?_
  rcases action with _ | _ | action
  · exact .done (by simp [hs])
  · exact .done (by simp [hs])
  · exact .done hs

theorem execPwrCapture_leaves (h : HlyHdr) (action mask channel first count : Nat) {s : State} (hs : s.calm = true) :
    LeavesBut (execPwrCapture h action mask channel first count s) s ((.pwr :: (replyParts h))) :=
  leaves_runHly_but hs (fun _ hb => by simp [hb]) (fun u => by simp [replyParts]) (fun u hu => pwrCaptureBody_calm _ _ _ _ _ hu)

theorem faultSetBody_calm (first count cm severity quietMs vector : Nat) {s : State} (hs : s.calm = true) :
    (faultSetBody first count cm severity quietMs vector s).All fun u => u.calm = true := by
  simp [faultSetBody, hs]

theorem execFaultSet_leaves (h : HlyHdr) (first count cm severity quietMs vector : Nat) {s : State} (hs : s.calm = true) :
    LeavesBut (execFaultSet h first count cm severity quietMs vector s) s ((.flt :: (replyParts h))) :=
  leaves_runHly_but hs (fun _ hb => by simp [hb]) (fun u => by simp [replyParts]) (fun u hu => faultSetBody_calm _ _ _ _ _ _ hu)

theorem spareSwapBody_calm (kind unit : Nat) {s : State} (hs : s.calm = true) : (spareSwapBody kind unit s).All fun u => u.calm = true := by
  simp [spareSwapBody, hs]

theorem execSpareSwap_leaves (h : HlyHdr) (kind unit : Nat) {s : State} (hs : s.calm = true) :
    LeavesBut (execSpareSwap h kind unit s) s ((.flt :: (replyParts h))) :=
  leaves_runHly_but hs (fun _ hb => by simp [hb]) (fun u => by simp [replyParts]) (fun u hu => spareSwapBody_calm _ _ hu)

theorem backgroundSetBody_calm (cm hbmPatrolH sramPatrolMs calPeriodMs trendThreshold trendWindowMin auto : Nat) {s : State} (hs : s.calm = true) :
    (backgroundSetBody cm hbmPatrolH sramPatrolMs calPeriodMs trendThreshold trendWindowMin auto s).All fun u => u.calm = true := by
  simp [backgroundSetBody, hs]

theorem execBackgroundSet_leaves (h : HlyHdr) (cm hbmPatrolH sramPatrolMs calPeriodMs trendThreshold trendWindowMin auto : Nat) {s : State} (hs :
    s.calm = true) :
    LeavesBut (execBackgroundSet h cm hbmPatrolH sramPatrolMs calPeriodMs trendThreshold trendWindowMin auto s) s ((.flt :: (replyParts h))) :=
  leaves_runHly_but hs (fun _ hb => by simp [hb]) (fun u => by simp [replyParts]) (fun u hu => backgroundSetBody_calm _ _ _ _ _ _ _ hu)

theorem fwWriteBody_calm (slot offset : Nat) (final : Bool) (data : List Nat) {s : State} (hs : s.calm = true) :
    (fwWriteBody slot offset final data s).All fun u => u.calm = true := by
  simp [fwWriteBody, hs]

theorem execFwWrite_leaves (h : HlyHdr) (slot offset : Nat) (final : Bool) (data : List Nat) {s : State} (hs : s.calm = true) :
    LeavesBut (execFwWrite h slot offset final data s) s ((.mgc :: (replyParts h))) :=
  leaves_runHly_but hs (fun _ hb => by simp [hb]) (fun u => by simp [replyParts]) (fun u hu => fwWriteBody_calm _ _ _ _ hu)

theorem hopReserveBody_calm (r : ResvP) {s : State} (hs : s.calm = true) : (hopReserveBody r s).All fun u => u.calm = true := by
  simp [hopReserveBody, hs]

theorem execHopReserve_leaves (h : HlyHdr) (r : ResvP) {s : State} (hs : s.calm = true) :
    LeavesBut (execHopReserve h r s) s ((.adm :: .pwr :: (replyParts h))) :=
  leaves_runHly_but hs (fun _ hb => by simp [hb]) (fun u => by simp [replyParts]) (fun u hu => hopReserveBody_calm _ hu)

theorem poolLinkSetBody_calm (link memInst releaseTimeout : Nat) {s : State} (hs : s.calm = true) :
    (poolLinkSetBody link memInst releaseTimeout s).All fun u => u.calm = true := by
  simp [poolLinkSetBody, hs]

theorem execPoolLinkSet_leaves (h : HlyHdr) (link memInst releaseTimeout : Nat) {s : State} (hs : s.calm = true) :
    LeavesBut (execPoolLinkSet h link memInst releaseTimeout s) s ((.pool :: (replyParts h))) :=
  leaves_runHly_but hs (fun _ hb => by simp [hb]) (fun u => by simp [replyParts]) (fun u hu => poolLinkSetBody_calm _ _ _ hu)

theorem extentZeroBody_calm (handle count : Nat) {s : State} (hs : s.calm = true) : (extentZeroBody handle count s).All fun u => u.calm = true := by
  have hz := foldl_calm (f := fun s h => s.upExtent h fun e => { e with state := .zeroing }) (fun s h => by simp) (handleRange handle count) s
  simp [extentZeroBody, hz, hs]

theorem execExtentZero_leaves (h : HlyHdr) (handle count : Nat) {s : State} (hs : s.calm = true) :
    LeavesBut (execExtentZero h handle count s) s ((.pool :: (replyParts h))) :=
  leaves_runHly_but hs (fun _ hb => by simp [hb]) (fun u => by simp [replyParts]) (fun u hu => extentZeroBody_calm _ _ hu)

theorem extentUnbindBody_calm (handle count : Nat) (zero : Bool) {s : State} (hs : s.calm = true) :
    (extentUnbindBody handle count zero s).All fun u => u.calm = true := by
  have hz := foldl_calm (f := fun s h => s.unbindExtent zero h) (fun s h => State.unbindExtent_calm s zero h) (handleRange handle count) s
  simp [extentUnbindBody, hz, hs]

theorem execExtentUnbind_leaves (h : HlyHdr) (handle count : Nat) (zero : Bool) {s : State} (hs : s.calm = true) :
    LeavesBut (execExtentUnbind h handle count zero s) s ((.pool :: (replyParts h))) :=
  leaves_runHly_but hs (fun _ hb => by simp [hb]) (fun u => by simp [replyParts]) (fun u hu => extentUnbindBody_calm _ _ _ hu)

theorem importMapBody_calm (m : ImportP) {s : State} (hs : s.calm = true) : (importMapBody m s).All fun u => u.calm = true := by
  rw [importMapBody]
  refine all_refuseIf ?_
  split
  · simp [hs]
  · split
    · dsimp only
      split <;> simp [hs]
    · simp

theorem execImportMap_leaves (h : HlyHdr) (m : ImportP) {s : State} (hs : s.calm = true) :
    LeavesBut (execImportMap h m s) s ((.pool :: (replyParts h))) :=
  leaves_runHly_but hs (fun _ hb => by simp [hb]) (fun u => by simp [replyParts]) (fun u hu => importMapBody_calm _ hu)

theorem functionBindBody_calm (port routingId link vslot : Nat) {s : State} (hs : s.calm = true) :
    (functionBindBody port routingId link vslot s).All fun u => u.calm = true := by
  simp [functionBindBody, hs]

theorem execFunctionBind_leaves (h : HlyHdr) (port routingId link vslot : Nat) {s : State} (hs : s.calm = true) :
    LeavesBut (execFunctionBind h port routingId link vslot s) s ((.pool :: (replyParts h))) :=
  leaves_runHly_but hs (fun _ hb => by simp [hb]) (fun u => by simp [replyParts]) (fun u hu => functionBindBody_calm _ _ _ _ hu)

theorem functionUnbindBody_calm (port routingId : Nat) {s : State} (hs : s.calm = true) : (functionUnbindBody port routingId s).All fun u =>
    u.calm = true := by
  rw [functionUnbindBody]
  split
  · simp
  · dsimp only
    split <;> simp [hs]

theorem execFunctionUnbind_leaves (h : HlyHdr) (port routingId : Nat) {s : State} (hs : s.calm = true) :
    LeavesBut (execFunctionUnbind h port routingId s) s ((.pool :: (replyParts h))) :=
  leaves_runHly_but hs (fun _ hb => by simp [hb]) (fun u => by simp [replyParts]) (fun u hu => functionUnbindBody_calm _ _ hu)

theorem hbmPartitionSetBody_calm (directory matching heaps : Nat) {s : State} (hs : s.calm = true) :
    (hbmPartitionSetBody directory matching heaps s).All fun u => u.calm = true := by
  rw [hbmPartitionSetBody]
  exact all_refuseIf (.done (by rw [State.upPool_calm _ rfl, State.upPool_calm _ rfl, hs]))

theorem execHbmPartitionSet_leaves (h : HlyHdr) (directory matching heaps : Nat) {s : State} (hs : s.calm = true) :
    LeavesBut (execHbmPartitionSet h directory matching heaps s) s ((.pool :: (replyParts h))) :=
  leaves_runHly_but hs (fun _ hb => by simp [hb]) (fun u => by simp [replyParts]) (fun u hu => hbmPartitionSetBody_calm _ _ _ hu)

theorem hostLinkSetBody_calm (link cm windowLog2 releaseTimeout : Nat) {s : State} (hs : s.calm = true) :
    (hostLinkSetBody link cm windowLog2 releaseTimeout s).All fun u => u.calm = true := by
  rw [hostLinkSetBody]
  refine all_refuseIf (.done ?_)
  rw [State.upHostLink_calm]
  split
  · exact hs
  · exact hs

theorem execHostLinkSet_leaves (h : HlyHdr) (link cm windowLog2 releaseTimeout : Nat) {s : State} (hs : s.calm = true) :
    LeavesBut (execHostLinkSet h link cm windowLog2 releaseTimeout s) s ((.pool :: .freeCount :: (replyParts h))) :=
  leaves_runHly_but hs (fun _ hb => by simp [hb]) (fun u => by simp [replyParts]) (fun u hu => hostLinkSetBody_calm _ _ _ _ hu)

theorem cohWindowMapBody_calm (window inst firstSlot : Nat) (map : Bool) {s : State} (hs : s.calm = true) :
    (cohWindowMapBody window inst firstSlot map s).All fun u => u.calm = true := by
  rw [cohWindowMapBody]
  refine all_refuseIf (.done ?_)
  rw [foldl_calm]
  · simp [hs]
  · intro s x
    split <;> simp

theorem execCohWindowMap_leaves (h : HlyHdr) (window inst firstSlot : Nat) (map : Bool) {s : State} (hs : s.calm = true) :
    LeavesBut (execCohWindowMap h window inst firstSlot map s) s ((.dir :: .pool :: (replyParts h))) :=
  leaves_runHly_but hs (fun _ hb => by simp [hb]) (fun u => by simp [replyParts]) (fun u hu => cohWindowMapBody_calm _ _ _ _ hu)

theorem queueRestartBody_calm (kind queue : Nat) {s : State} (hs : s.calm = true) : (queueRestartBody kind queue s).All fun u => u.calm = true := by
  rw [queueRestartBody]
  refine all_refuseIf ?_
  split
  · exact .pend hs
  · exact .done (State.restartQueue_calm _ _ hs)

theorem execQueueRestart_leaves (h : HlyHdr) (kind queue : Nat) {s : State} (hs : s.calm = true) :
    LeavesBut (execQueueRestart h kind queue s) s ((.mec :: (replyParts h))) :=
  leaves_runHly_but hs (fun _ hb => by simp [hb]) (fun u => by simp [replyParts]) (fun u hu => queueRestartBody_calm _ _ hu)

theorem regionSetBody_calm (r : RegionP) {s : State} (hs : s.calm = true) : (regionSetBody r s).All fun u => u.calm = true := by
  simp [regionSetBody, hs]

theorem execRegionSet_leaves (h : HlyHdr) (r : RegionP) {s : State} (hs : s.calm = true) :
    LeavesBut (execRegionSet h r s) s ((.mec :: (replyParts h))) :=
  leaves_runHly_but hs (fun _ hb => by simp [hb]) (fun u => by simp [replyParts]) (fun u hu => regionSetBody_calm _ hu)

theorem engInstanceSetBody_calm (inst base count heap entries reserve : Nat) {s : State} (hs : s.calm = true) :
    (engInstanceSetBody inst base count heap entries reserve s).All fun u => u.calm = true := by
  simp [engInstanceSetBody, hs]

theorem execEngInstanceSet_leaves (h : HlyHdr) (inst counterBase counterCount heap matchEntries onDieReserve : Nat) {s : State} (hs : s.calm = true) :
    LeavesBut (execEngInstanceSet h inst counterBase counterCount heap matchEntries onDieReserve s) s ((.mec :: (replyParts h))) :=
  leaves_runHly_but hs (fun _ hb => by simp [hb]) (fun u => by simp [replyParts]) (fun u hu => engInstanceSetBody_calm _ _ _ _ _ _ hu)

theorem engSetBody_calm (cm rnrDelay rnrLimit lockAge : Nat) {s : State} (hs : s.calm = true) :
    (engSetBody cm rnrDelay rnrLimit lockAge s).All fun u => u.calm = true := by
  simp [engSetBody, hs]

theorem execEngSet_leaves (h : HlyHdr) (cm rnrDelay rnrLimit lockAge : Nat) {s : State} (hs : s.calm = true) :
    LeavesBut (execEngSet h cm rnrDelay rnrLimit lockAge s) s ((.mec :: (replyParts h))) :=
  leaves_runHly_but hs (fun _ hb => by simp [hb]) (fun u => by simp [replyParts]) (fun u hu => engSetBody_calm _ _ _ _ hu)

theorem queueCreateBody_calm (q : QueueP) {s : State} (hs : s.calm = true) : (queueCreateBody q s).All fun u => u.calm = true := by
  rw [queueCreateBody]
  exact all_refuseIf (.done (State.addQueue_calm _ hs))

theorem execQueueCreate_leaves (h : HlyHdr) (q : QueueP) {s : State} (hs : s.calm = true) :
    LeavesBut (execQueueCreate h q s) s ((.mec :: .pwr :: (replyParts h))) :=
  leaves_runHly_but hs (fun _ hb => by simp [hb]) (fun u => by simp [replyParts]) (fun u hu => queueCreateBody_calm _ hu)

theorem queueMoveBody_calm (queue engine : Nat) {s : State} (hs : s.calm = true) : (queueMoveBody queue engine s).All fun u => u.calm = true := by
  have hw : ((s.moveQueue queue engine).wantDomain (engine / 8)).calm = true := by simpa using State.moveQueue_calm queue engine hs
  rw [queueMoveBody]
  rcases refuseIf_cases [(decide (16383 < queue) || decide (127 < engine), 0x011C), (!s.mec.sendQ.has queue, 0x031E),
    ((s.mec.sendQ.find queue).any fun q => q.moving.isSome, 0x031F),
    (!s.engineTakes engine (((s.mec.sendQ.find queue).map (·.maxOut)).getD 0), 0x020F)] (.ok s) with e | ⟨st, e⟩
  · rw [e]
    dsimp only [HRes.ok]
    split
    · exact .done (State.finishMove_calm _ hw)
    · exact .pend hw
  · rw [e]
    exact .refuse

theorem execQueueMove_leaves (h : HlyHdr) (queue engine : Nat) {s : State} (hs : s.calm = true) :
    LeavesBut (execQueueMove h queue engine s) s ((.obf :: .trn :: .mec :: .pwr :: (replyParts h))) :=
  leaves_runHly_but hs (fun _ hb => by simp [hb]) (fun u => by simp [replyParts]) (fun u hu => queueMoveBody_calm _ _ hu)

theorem execFeedWindowEnter_leaves (feed voltage : Nat) {s : State} (hs : s.calm = true) :
    LeavesBut (execFeedWindowEnter feed voltage s) s [.pwr] := by
  refine leaves_ends_but ?_ ?_ <;> (repeat' split) <;> simp [hs]

theorem execInsertionDelayElapsed_leaves (feed : Nat) {s : State} (hs : s.calm = true) :
    LeavesBut (execInsertionDelayElapsed feed s) s [.pwr] := by
  refine leaves_ends_but ?_ ?_ <;> (repeat' split) <;> simp [hs]

theorem execReverseRecovery_leaves (feed : Nat) {s : State} (hs : s.calm = true) :
    LeavesBut (execReverseRecovery feed s) s [.pwr] := by
  refine leaves_ends_but ?_ ?_ <;> (repeat' split) <;> simp [hs]

theorem execRampComplete_leaves (channel : Nat) {s : State} (hs : s.calm = true) :
    LeavesBut (execRampComplete channel s) s [.pwr] := by
  refine leaves_ends_but ?_ ?_ <;> (repeat' split) <;> simp [hs]

theorem execCurrentOverLimit_leaves (channel current : Nat) {s : State} (hs : s.calm = true) :
    LeavesBut (execCurrentOverLimit channel current s) s [.pwr] := by
  refine leaves_ends_but ?_ ?_ <;> (repeat' split) <;> simp [hs]

theorem execCurrentBelowRecovery_leaves (channel current : Nat) {s : State} (hs : s.calm = true) :
    LeavesBut (execCurrentBelowRecovery channel current s) s [.pwr] := by
  refine leaves_ends_but ?_ ?_ <;> (repeat' split) <;> simp [hs]

theorem execCoolDownElapsed_leaves (channel : Nat) {s : State} (hs : s.calm = true) :
    LeavesBut (execCoolDownElapsed channel s) s [.pwr] := by
  refine leaves_ends_but ?_ ?_ <;> (repeat' split) <;> simp [hs]

theorem execAttemptCountReset_leaves (channel : Nat) {s : State} (hs : s.calm = true) :
    LeavesBut (execAttemptCountReset channel s) s [.pwr] := by
  refine leaves_ends_but ?_ ?_ <;> (repeat' split) <;> simp [hs]

theorem execMeasurementWindowEnd_leaves (channel vPeak vMin iPeak iMin pMean energy : Nat) {s : State} (hs : s.calm = true) :
    LeavesBut (execMeasurementWindowEnd channel vPeak vMin iPeak iMin pMean energy s) s [.pwr] := by
  refine leaves_ends_but ?_ ?_ <;> (repeat' split) <;> simp [hs]

theorem execCaptureRecord_leaves (channel voltage current power cause : Nat) {s : State} (hs : s.calm = true) :
    LeavesBut (execCaptureRecord channel voltage current power cause s) s [.pwr] := by
  refine leaves_ends_but ?_ ?_ <;> (repeat' split) <;> simp [hs]

theorem execContinuousCaptureEnd_leaves (channel : Nat) {s : State} (hs : s.calm = true) :
    LeavesBut (execContinuousCaptureEnd channel s) s [.pwr] := by
  refine leaves_ends_but ?_ ?_ <;> (repeat' split) <;> simp [hs]

theorem execSleepIdleExpiry_leaves (domain : Nat) {s : State} (hs : s.calm = true) :
    LeavesBut (execSleepIdleExpiry domain s) s [.pwr] := by
  refine leaves_ends_but ?_ ?_ <;> (repeat' split) <;> simp [hs]

theorem execPowerOffIdleExpiry_leaves (domain : Nat) {s : State} (hs : s.calm = true) :
    LeavesBut (execPowerOffIdleExpiry domain s) s [.pwr] := by
  refine leaves_ends_but ?_ ?_ <;> (repeat' split) <;> simp [hs]

theorem execDomainOffDone_leaves (domain : Nat) {s : State} (hs : s.calm = true) :
    LeavesBut (execDomainOffDone domain s) s [.pwr] := by
  refine leaves_ends_but ?_ ?_ <;> (repeat' split) <;> simp [hs]

theorem execCalPeriod_leaves  {s : State} (hs : s.calm = true) :
    LeavesBut (execCalPeriod  s) s [.flt] := by
  refine leaves_ends_but ?_ ?_ <;> (repeat' split) <;> simp [hs]

theorem execDynamicCapacityRelease_leaves (release : CapacityRelease) {s : State} (hs : s.calm = true) :
    LeavesBut (execDynamicCapacityRelease release s) s [.pool] := by
  refine leaves_ends_but ?_ ?_ <;> (repeat' split) <;> simp [hs]

theorem execMctpControlMessage_leaves (command : Nat) {s : State} (hs : s.calm = true) :
    LeavesBut (execMctpControlMessage command s) s [.mgc, .out] := by
  exact leaves_ends_but (by simp) (by simp [hs])

theorem execJtagInstructionUpdate_leaves (instruction : Nat) {s : State} (hs : s.calm = true) :
    LeavesBut (execJtagInstructionUpdate instruction s) s [.mgc] := by
  exact leaves_ends_but (by simp) (by simp [hs])

theorem execVirtualSlotPowerOff_leaves (link vslot : Nat) {s : State} (hs : s.calm = true) :
    LeavesBut (execVirtualSlotPowerOff link vslot s) s [.out, .pool] := by
  refine leaves_ends_but ?_ ?_ <;> (repeat' split) <;> simp [hs]

theorem execReleaseTimeoutExpiry_leaves (handle : Nat) (isFunction : Bool) (port routingId : Nat) {s : State} (hs : s.calm = true) :
    LeavesBut (execReleaseTimeoutExpiry handle isFunction port routingId s) s [.out, .pool] := by
  refine leaves_ends_but ?_ ?_ <;> (repeat' split) <;> simp [hs]

theorem execExpanderEnumerated_leaves (port serial : Nat) (isExpander : Bool) (capacity : Nat) (further functions : List Nat) {s : State} (hs :
    s.calm = true) :
    LeavesBut (execExpanderEnumerated port serial isExpander capacity further functions s) s [.out, .pool] := by
  refine leaves_ends_but ?_ ?_
  · (repeat' split) <;> simp
  · split
    · exact hs
    · rw [State.emit_calm]
      refine State.upDown_calm _ (fun d hd => hd) ?_
      simpa using hs

theorem execPerst0Deassertion_leaves  {s : State} (hs : s.calm = true) :
    LeavesBut (execPerst0Deassertion  s) s [.mgc, .out, .prt] := by
  refine leaves_ends_but ?_ ?_ <;> (repeat' split) <;> simp [hs]

theorem execDomainWakeDone_leaves (domain : Nat) {s : State} (hs : s.calm = true) :
    LeavesBut (execDomainWakeDone domain s) s [.out, .hly, .obf, .trn, .ins, .msix, .pwr] := by
  refine leaves_ends_but (by (repeat' split) <;> simp) ?_
  split
  · exact hs
  · rw [State.domainsReady_calm, foldl_calm fun s p => State.emit_calm s _]
    simpa using hs

theorem execDynamicCapacityAddReject_leaves (handle : Nat) {s : State} (hs : s.calm = true) :
    LeavesBut (execDynamicCapacityAddReject handle s) s [.ins, .mec, .msix, .out, .pool] := by
  refine leaves_ends_but (by (repeat' split) <;> simp) ?_
  split
  · exact hs
  · rw [foldl_calm fun s x => State.post_calm s _ _ _ _ _ _]
    simpa using hs

theorem execWreadDataArrival_leaves (inst : Nat) (w : WinF) (data : List Nat) {s : State} (hs : s.calm = true) :
    LeavesBut (execWreadDataArrival inst w data s) s [.out, .hly, .obf, .trn, .pool, .ins, .msix] := by
  refine leaves_ends_but (by (repeat' split) <;> simp) ?_
  split
  · rw [State.windowDone_calm]
    · exact hs
    · intro r s
      split <;> simp
  · exact hs

theorem execWwriteDoneArrival_leaves (inst : Nat) (w : WinF) {s : State} (hs : s.calm = true) :
    LeavesBut (execWwriteDoneArrival inst w s) s [.out, .hly, .obf, .trn, .pool, .ins, .msix] := by
  refine leaves_ends_but (by (repeat' split) <;> simp) ?_
  split
  · rw [State.windowDone_calm _ _ _ fun _ _ => rfl]
    exact hs
  · exact hs

theorem execQueueMoveForwardDone_leaves (queue : Nat) {s : State} (hs : s.calm = true) :
    LeavesBut (execQueueMoveForwardDone queue s) s [.out, .hly, .obf, .trn, .mec, .ins, .msix] := by
  refine leaves_ends_but (by (repeat' split) <;> simp) ?_
  split
  · exact State.finishMove_calm _ hs
  · exact hs

theorem execDeviceReset_leaves (h : HlyHdr) (kind : Nat) {s : State} (hs : s.calm = true) :
    LeavesBut (execDeviceReset h kind s) s (.mgc :: replyParts h) :=
  leaves_runHly_but hs (fun _ hb => by simp [hb]) (fun u => by split <;> simp) (fun u hu => by split <;> simp [hu])

end Sys2Proof.Machine
end

section
/-! What queries, settings and events leave (spec/95_what_each_step_holds.md). -/
namespace Sys2Proof.Machine

/-- Settles O41: what each changes owes nothing at the end of the step, so that its own effect is all of it. -/
theorem queriesLeaveTheRest : Obligations.QueriesLeaveTheRest := by
  unfold Obligations.QueriesLeaveTheRest
  exact ⟨
    fun s h hs => (execNop_keeps h s).leaves (owing_replyParts h) hs,
    fun s h hs => (execDeviceQuery_keeps h s).leaves (owing_replyParts h) hs,
    fun s h port hs => (execLinkQuery_keeps h port s).leaves (owing_replyParts h) hs,
    fun s h peer inst cls half hs => (execTrnQuery_keeps h peer inst cls half s).leaves (owing_replyParts h) hs,
    fun s h port hs => (execLaneQuery_keeps h port s).leaves (owing_replyParts h) hs,
    fun s h account hs => (execBufferQuery_keeps h account s).leaves (owing_replyParts h) hs,
    fun s h resource index hs => (execArbQuery_keeps h resource index s).leaves (owing_replyParts h) hs,
    fun s h channel hs => (execPwrQuery_keeps h channel s).leaves (owing_replyParts h) hs,
    fun s h slot hs => (execSlotQuery_keeps h slot s).leaves (owing_replyParts h) hs,
    fun s h first count hs => (execFaultQuery_keeps h first count s).leaves (owing_replyParts h) hs,
    fun s h contractId hs => (execContractQuery_keeps h contractId s).leaves (owing_replyParts h) hs,
    fun s h hs => (execDiscover_keeps h s).leaves (owing_replyParts h) hs,
    fun s h handle count hs => (execExtentQuery_keeps h handle count s).leaves (owing_replyParts h) hs,
    fun s h kind index hs => (execEngQuery_keeps h kind index s).leaves (owing_replyParts h) hs,
    fun s h target output sl queue hs => (execEgsQuery_keeps h target output sl queue s).leaves (by simp [owing, replyParts]) hs,
    fun s h group hs => (execCollQuery_keeps h group s).leaves (owing_replyParts h) hs,
    fun s h inst hs => (execInstanceQuery_keeps h inst s).leaves (owing_replyParts h) hs,
    fun s h master hs => (execMpuQuery_keeps h master s).leaves (owing_replyParts h) hs,
    fun s h first count hs => (execIcuQuery_keeps h first count s).leaves (owing_replyParts h) hs,
    fun s h probe first count hs => (execProbeQuery_keeps h probe first count s).leaves (owing_replyParts h) hs,
    fun s h kind hs => (execSpareQuery_keeps h kind s).leaves (by simp [owing, replyParts]) hs,
    fun s h window extentIndex lineIndex hs => (execDirQuery_keeps h window extentIndex lineIndex s).leaves (by simp [owing, replyParts]) hs⟩

/-- Settles O42: what each changes owes nothing at the end of the step, so that its own effect is all of it. -/
theorem settingsLeaveTheRest : Obligations.SettingsLeaveTheRest := by
  unfold Obligations.SettingsLeaveTheRest
  exact ⟨
    fun s h cm accept count serials timeout retries hold hs => (execInbandSet_keeps h cm accept count serials timeout retries hold s).leaves
        (owing_replyParts h) hs,
    fun s h inst cm resetMode drainTimeout vectors hs => (execInstanceSet_keeps h inst cm resetMode drainTimeout vectors s).leaves
        (owing_replyParts h) hs,
    fun s h inst enable baseA baseB rangeBase rangePages inFunction hs =>
        (execDirtyLogSet_keeps h inst enable baseA baseB rangeBase rangePages inFunction s).leaves (owing_replyParts h) hs,
    fun s h inst hs => (execDirtyLogSwap_keeps h inst s).leaves (owing_replyParts h) hs,
    fun s h port cm linkTimeout replayLimit retrainLimit shares hs =>
        (execLinkSet_keeps h port cm linkTimeout replayLimit retrainLimit shares s).leaves (by simp [owing, replyParts]) hs,
    fun s h port kind n count hs => (execFaultInject_keeps h port kind n count s).leaves (by simp [owing, replyParts]) hs,
    fun s h cm ackDelay nakDelay retryTimeout retryLimit ctxIdle sendWindow hs =>
        (execTrnSet_keeps h cm ackDelay nakDelay retryTimeout retryLimit ctxIdle sendWindow s).leaves (by simp [owing, replyParts]) hs,
    fun s h port cm corrThreshold corrWindow marginFloor autoSpare idleEnable idleEntry trainTimeout hs =>
        (execLaneSet_keeps h port cm corrThreshold corrWindow marginFloor autoSpare idleEnable idleEntry trainTimeout s).leaves (by simp [owing,
        replyParts]) hs,
    fun s h port action lane hs => (execLaneSpare_keeps h port action lane s).leaves (by simp [owing, replyParts]) hs,
    fun s h lane function pattern userPattern inject symbols every hs =>
        (execLaneTest_keeps h lane function pattern userPattern inject symbols every s).leaves (by simp [owing, replyParts]) hs,
    fun s h account minReserve alphaExp markThreshold hs => (execBufferAccountSet_keeps h account minReserve alphaExp markThreshold s).leaves
        (by simp [owing, replyParts]) hs,
    fun s h contractPool hs => (execBufferPoolSet_keeps h contractPool s).leaves (by simp [owing, replyParts]) hs,
    fun s h enable residencyMs hs => (execAuditSet_keeps h enable residencyMs s).leaves (by simp [owing, replyParts]) hs,
    fun s h output sl inst queue weight rate burst tokenReset hs =>
        (execEgsLeafBind_keeps h output sl inst queue weight rate burst tokenReset s).leaves (by simp [owing, replyParts]) hs,
    fun s h queue hs => (execEgsLeafUnbind_keeps h queue s).leaves (by simp [owing, replyParts]) hs,
    fun s h target output sl queue cm weight rate burst tokenReset hs =>
        (execEgsNodeSet_keeps h target output sl queue cm weight rate burst tokenReset s).leaves (by simp [owing, replyParts]) hs,
    fun s h resource index cm compat thresholdExp requester weight hs =>
        (execArbSet_keeps h resource index cm compat thresholdExp requester weight s).leaves (by simp [owing, replyParts]) hs,
    fun s h action mask channel first count hs => execPwrCapture_leaves h action mask channel first count hs,
    fun s h first count cm severity quietMs vector hs => execFaultSet_leaves h first count cm severity quietMs vector hs,
    fun s h kind unit hs => execSpareSwap_leaves h kind unit hs,
    fun s h cm hbmPatrolH sramPatrolMs calPeriodMs trendThreshold trendWindowMin auto hs =>
        execBackgroundSet_leaves h cm hbmPatrolH sramPatrolMs calPeriodMs trendThreshold trendWindowMin auto hs,
    fun s h kind hs => execDeviceReset_leaves h kind hs,
    fun s h slot offset final data hs => execFwWrite_leaves h slot offset final data hs,
    fun s h c hs => (execContractInstall_keeps h c s).leaves (by simp [owing, replyParts]) hs,
    fun s h inst committed peak committedBurst peakBurst hs => (execMeterSet_keeps h inst committed peak committedBurst peakBurst s).leaves
        (by simp [owing, replyParts]) hs,
    fun s h contractId mode count groups hs => (execContractRouteSet_keeps h contractId mode count groups s).leaves (by simp [owing, replyParts]) hs,
    fun s h r hs => execHopReserve_leaves h r hs,
    fun s h tiles mode table first count masks hs => (execRouteWrite_keeps h tiles mode table first count masks s).leaves (by simp [owing,
        replyParts]) hs,
    fun s h epoch hs => (execRouteEpochAdvance_keeps h epoch s).leaves (by simp [owing, replyParts]) hs,
    fun s h hs => (execRouteEpochRetire_keeps h s).leaves (by simp [owing, replyParts]) hs,
    fun s h port kind group member up hs => (execRoutePortSet_keeps h port kind group member up s).leaves (by simp [owing, replyParts]) hs,
    fun s h sl mode bias hs => (execRoutePolicySet_keeps h sl mode bias s).leaves (by simp [owing, replyParts]) hs,
    fun s h endpoint target destination hs => (execRouteEndpointSet_keeps h endpoint target destination s).leaves (by simp [owing, replyParts]) hs,
    fun s h tree valid upstream branches delivery leaves hs => (execTreeInstall_keeps h tree valid upstream branches delivery leaves s).leaves
        (by simp [owing, replyParts]) hs,
    fun s h tree hs => (execTreeRemove_keeps h tree s).leaves (by simp [owing, replyParts]) hs,
    fun s h quota hs => (execHoldSet_keeps h quota s).leaves (by simp [owing, replyParts]) hs,
    fun s h deviceId force hs => (execIdAssign_keeps h deviceId force s).leaves (by simp [owing, replyParts]) hs,
    fun s h link memInst releaseTimeout hs => execPoolLinkSet_leaves h link memInst releaseTimeout hs,
    fun s h handle count hs => execExtentZero_leaves h handle count hs,
    fun s h handle count zero hs => execExtentUnbind_leaves h handle count zero hs,
    fun s h m hs => execImportMap_leaves h m hs,
    fun s h port routingId link vslot hs => execFunctionBind_leaves h port routingId link vslot hs,
    fun s h port routingId hs => execFunctionUnbind_leaves h port routingId hs,
    fun s h directory matching heaps hs => execHbmPartitionSet_leaves h directory matching heaps hs,
    fun s h link cm windowLog2 releaseTimeout hs => execHostLinkSet_leaves h link cm windowLog2 releaseTimeout hs,
    fun s h agent kind port hs => (execCohAgentAdd_keeps h agent kind port s).leaves (by simp [owing, replyParts]) hs,
    fun s h window mask hs => (execCohWindowCreate_keeps h window mask s).leaves (by simp [owing, replyParts]) hs,
    fun s h window hs => (execCohWindowDestroy_keeps h window s).leaves (by simp [owing, replyParts]) hs,
    fun s h cm snoopTimeout scrubEnable hs => (execDirSet_keeps h cm snoopTimeout scrubEnable s).leaves (by simp [owing, replyParts]) hs,
    fun s h window inst firstSlot map hs => execCohWindowMap_leaves h window inst firstSlot map hs,
    fun s h kind queue hs => execQueueRestart_leaves h kind queue hs,
    fun s h r hs => execRegionSet_leaves h r hs,
    fun s h inst counterBase counterCount heap matchEntries onDieReserve hs =>
        execEngInstanceSet_leaves h inst counterBase counterCount heap matchEntries onDieReserve hs,
    fun s h cm rnrDelay rnrLimit lockAge hs => execEngSet_leaves h cm rnrDelay rnrLimit lockAge hs,
    fun s h q hs => execQueueCreate_leaves h q hs,
    fun s h queue engine hs => execQueueMove_leaves h queue engine hs,
    fun s h inst link function resetMode drainTimeout vectors hs =>
        (execInstanceCreate_keeps h inst link function resetMode drainTimeout vectors s).leaves (by simp [owing, replyParts]) hs,
    fun s h block counter event samplePeriod hs => (execTtcSet_keeps h block counter event samplePeriod s).leaves (by simp [owing, replyParts]) hs,
    fun s h stream cm intervalMs ringBase slots vector inMemory hs =>
        (execDumpSet_keeps h stream cm intervalMs ringBase slots vector inMemory s).leaves (by simp [owing, replyParts]) hs,
    fun s h probe bridge action source destination kindMask matchAddr mask records hs =>
        (execProbeSet_keeps h probe bridge action source destination kindMask matchAddr mask records s).leaves (by simp [owing, replyParts]) hs,
    fun s h master set first count entries hs => (execMpuRulesSet_keeps h master set first count entries s).leaves (by simp [owing, replyParts]) hs,
    fun s h master hs => (execMpuSwap_keeps h master s).leaves (by simp [owing, replyParts]) hs,
    fun s h action serial nonce signatureOk hs => (execDebugUnlock_keeps h action serial nonce signatureOk s).leaves (by simp [owing, replyParts]) hs,
    fun s h target first count priority coreMask threshold hs => (execIcuSet_keeps h target first count priority coreMask threshold s).leaves
        (by simp [owing, replyParts]) hs⟩

/-- Settles O43: what each changes owes nothing at the end of the step, so that its own effect is all of it. -/
theorem eventsLeaveTheRest : Obligations.EventsLeaveTheRest := by
  unfold Obligations.EventsLeaveTheRest
  exact ⟨
    fun s serial queue seq hs => (execReassemblyTimeout_keeps serial queue seq s).leaves (by decide) hs,
    fun s serial queue seq hs => (execInbandHoldExpiry_keeps serial queue seq s).leaves (by decide) hs,
    fun s port exchange t1 hs ha => (execFtSyncReqReceive_keeps (by simp) port exchange t1 (.inl ha)).leaves (by decide) hs,
    fun s hs => (execPpsOutputSecond_keeps s).leaves (by decide) hs,
    fun s port hs => (execLinkInitFlitTimer_keeps port s).leaves (by decide) hs,
    fun s port msg hs => (execTestReq_keeps port msg s).leaves (by decide) hs,
    fun s port hopCount hopPtr ports message hs ha => (execDirectedReceive_keeps (by simp) port hopCount hopPtr ports message (.inl ha)).leaves
        (by decide) hs,
    fun s port hs => (execFastExit_keeps port s).leaves (by decide) hs,
    fun s port msg hs => (execIdleEnter_keeps port msg s).leaves (by decide) hs,
    fun s port msg hs => (execSubAck_keeps port msg s).leaves (by decide) hs,
    fun s port msg hs => (execStepAck_keeps port msg s).leaves (by decide) hs,
    fun s port msg hs => (execTestAck_keeps port msg s).leaves (by decide) hs,
    fun s lane hs => (execPrbsCheckerLock_keeps lane s).leaves (by decide) hs,
    fun s lane hs => (execPrbsLockLoss_keeps lane s).leaves (by decide) hs,
    fun s output vl hs => (execSuspendedFrameResume_keeps output vl s).leaves (by decide) hs,
    fun s feed voltage hs => execFeedWindowEnter_leaves feed voltage hs,
    fun s feed hs => execInsertionDelayElapsed_leaves feed hs,
    fun s feed hs => execReverseRecovery_leaves feed hs,
    fun s channel hs => execRampComplete_leaves channel hs,
    fun s channel current hs => execCurrentOverLimit_leaves channel current hs,
    fun s channel current hs => execCurrentBelowRecovery_leaves channel current hs,
    fun s channel hs => execCoolDownElapsed_leaves channel hs,
    fun s channel hs => execAttemptCountReset_leaves channel hs,
    fun s channel vPeak vMin iPeak iMin pMean energy hs => execMeasurementWindowEnd_leaves channel vPeak vMin iPeak iMin pMean energy hs,
    fun s channel voltage current power cause hs => execCaptureRecord_leaves channel voltage current power cause hs,
    fun s channel hs => execContinuousCaptureEnd_leaves channel hs,
    fun s domain hs => execSleepIdleExpiry_leaves domain hs,
    fun s domain hs => execPowerOffIdleExpiry_leaves domain hs,
    fun s domain hs => execDomainOffDone_leaves domain hs,
    fun s hs => execCalPeriod_leaves hs,
    fun s port serial neighbourPort hs ha => (execNeighbourReceive_keeps (by simp) port serial neighbourPort (.inl ha)).leaves (by decide) hs,
    fun s release hs => execDynamicCapacityRelease_leaves release hs,
    fun s hs => (execCounterAccumulate_keeps s).leaves (by decide) hs,
    fun s bridge source destination kind address length direction hs =>
        (execProbeMatch_keeps bridge source destination kind address length direction s).leaves (by decide) hs,
    fun s probe hs => (execTraceRecordTimeout_keeps probe s).leaves (by decide) hs,
    fun s command hs => execMctpControlMessage_leaves command hs,
    fun s instruction hs => execJtagInstructionUpdate_leaves instruction hs,
    fun s hs => (execSyncPeriod_keeps s).leaves (by decide) hs,
    fun s hs => (execMastheadTimeTick_keeps s).leaves (by decide) hs,
    fun s hs => (execPpsInputEdge_keeps s).leaves (by decide) hs,
    fun s lane hs => (execTrainDetectSignal_keeps lane s).leaves (by decide) hs,
    fun s port hs => (execBackoffElapsed_keeps port s).leaves (by decide) hs,
    fun s port hs => (execIdleEntryExpiry_keeps port s).leaves (by decide) hs,
    fun s port msg hs => (execSubReq_keeps port msg s).leaves (by decide) hs,
    fun s port msg hs => (execStepMsg_keeps port msg s).leaves (by decide) hs,
    fun s port msg hs => (execWake_keeps port msg s).leaves (by decide) hs,
    fun s resource index requester grantedNow hs => (execArbStarveThreshold_keeps resource index requester grantedNow s).leaves (by decide) hs,
    fun s link vslot hs => execVirtualSlotPowerOff_leaves link vslot hs,
    fun s handle isFunction port routingId hs => execReleaseTimeoutExpiry_leaves handle isFunction port routingId hs,
    fun s port serial isExpander capacity further functions hs => execExpanderEnumerated_leaves port serial isExpander capacity further functions hs,
    fun s engine counter programCounter hs => (execSampleCountdownZero_keeps engine counter programCounter s).leaves (by decide) hs,
    fun s pid hs => (execBufferAdmission_keeps pid s).leaves (by decide) hs,
    fun s stagedFirst stagedNext hs => (execCentralSchedulerMatching_keeps stagedFirst stagedNext s).leaves (by decide) hs,
    fun s hs => execPerst0Deassertion_leaves hs,
    fun s queue seq hs => (execInbandTimeout_keeps queue seq s).leaves (by decide) hs,
    fun s hs => (execBarePolesCommandTimeout_keeps s).leaves (by decide) hs,
    fun s inst hs => (execLogSwapWritebackDone_keeps inst s).leaves (by decide) hs,
    fun s queue seq segIndex segCount attempt status result deviceValid device out hs =>
        (execHlyReplyReceive_keeps queue seq segIndex segCount attempt status result deviceValid device out s).leaves (by decide) hs,
    fun s stream freed hs => (execDumpSlotWritten_keeps stream freed s).leaves (by decide) hs,
    fun s inst hs => (execMeteringSlotWaitTimeout_keeps inst s).leaves (by decide) hs,
    fun s queue hs => (execLeafDrained_keeps queue s).leaves (by decide) hs,
    fun s domain hs => execDomainWakeDone_leaves domain hs,
    fun s tree hs => (execTreeDrained_keeps tree s).leaves (by decide) hs,
    fun s handle hs => execDynamicCapacityAddReject_leaves handle hs,
    fun s inst w data hs => execWreadDataArrival_leaves inst w data hs,
    fun s inst w hs => execWwriteDoneArrival_leaves inst w hs,
    fun s queue hs => execQueueMoveForwardDone_leaves queue hs⟩

end Sys2Proof.Machine
end

section
/-! The queue of commands and events (R447, R448): no command and no event changes it. -/
namespace Sys2Proof.Machine

/-! ### The queue of commands and events: it is what agreement outside every part leaves -/

/-- Every part of a state but the queue. -/
def everyPart : List Block :=
  [.waiting, .freeCount, .out, .coreTime, .masthead, .hly, .ftu, .adm, .csc, .obf, .egs, .arbs, .rte, .lnk, .trn, .prt, .pool, .dir, .mec,
    .locks, .mtc, .rdx, .ins, .mpu, .icu, .msix, .pwr, .flt, .ttc, .mgc, .latches]

@[simp] theorem mem_everyPart (b : Block) : b ∈ everyPart := by cases b <;> decide

theorem but_everyPart {s t : State} : t.but everyPart = s.but everyPart ↔ t.pending = s.pending := by
  simp [State.but_eq_iff]

@[simp] theorem State.reboot_but_every (s : State) (kind trigger : Nat) : (s.reboot kind trigger).but everyPart = s.but everyPart :=
  but_everyPart.mpr rfl

theorem State.containPort_but_every (s : State) (p : Nat) : (s.containPort p).but everyPart = s.but everyPart := by
  have hm : ∀ qs : List Nat, (qs.foldl (fun s q => s.upPort q fun x => { x with contained := true }) s).but everyPart = s.but everyPart :=
    fun qs => foldl_but (fun s q => by simp) qs s
  have hi : ∀ (t : State) (is : List Nat), (is.foldl State.containInst t).but everyPart = t.but everyPart :=
    fun t is => foldl_but (fun s i => by simp) is t
  rw [State.containPort]
  split
  · rfl
  · dsimp only
    (repeat' split) <;> simp [hm, hi]

theorem State.act_but_every (s : State) (src sev : Nat) (subj : Subject) : (s.act src sev subj).but everyPart = s.but everyPart := by
  unfold State.act
  (repeat' split) <;> simp [State.containPort_but_every]

theorem State.runActions_but_every (s : State) (fuel : Nat) : (s.runActions fuel).but everyPart = s.but everyPart := by
  induction fuel generalizing s with
  | zero => rfl
  | succ fuel ih =>
    rw [State.runActions]
    split
    · simp
    · split
      · rfl
      · simp [ih, State.act_but_every]

theorem State.settleBare_but_every (s : State) : s.settleBare.but everyPart = s.but everyPart := by
  rw [State.settleBare]
  split
  · exact (but_everyPart.mpr rfl).trans (State.modeReply_but (l := everyPart) (by simp) s)
  · rfl

/-- The end of a step leaves the queue. -/
theorem State.settle_pending (s : State) : s.settle.pending = s.pending := by
  refine but_everyPart.mp ?_
  simp [State.settle, State.actAll, State.settleBare_but_every, State.runActions_but_every]

/-- A command or an event answers with the queue that it found. -/
def KeepsQueue (o : Host.Outcome State Fault Refusal) (s : State) : Prop := ∀ t : State, o = .next t → t.pending = s.pending

theorem KeepsBut.queue {l : List Block} {s : State} {o : Host.Outcome State Fault Refusal} (h : KeepsBut o s l) : KeepsQueue o s := by
  obtain ⟨u, hu, hp, _⟩ := h
  rintro t rfl
  rw [Host.Outcome.next.inj hu, State.settle_pending, hp]

theorem keepsQueue_ends {s t : State} (h : t.but everyPart = s.but everyPart) : KeepsQueue (ends t) s := (keepsBut_ends h).queue

theorem keepsQueue_runHly {i : Instr} {code inLen outLen : Nat} {h : HlyHdr} {names : List Obj} {body : State → HRes} {s : State}
    (hb : (body (s.fetchCmd h)).All fun u => u.but everyPart = (s.fetchCmd h).but everyPart) :
    KeepsQueue (ends (runHly i code h inLen outLen names body s)) s :=
  keepsQueue_ends (runHly_but (fun _ _ => mem_everyPart _) hb)

/-! ### The resets and the steps of a boot -/

theorem State.allOff_but_every (s : State) : s.allOff.but everyPart = s.but everyPart := by
  rw [State.allOff, State.upPwr_but (by simp), foldl_but fun s c => by simp]

theorem State.takeReset_but_every (s : State) (kind trigger : Nat) : (s.takeReset kind trigger).but everyPart = s.but everyPart := by
  unfold State.takeReset
  split
  · simp
  · simp
  · rw [State.allOff_but_every]
    simp

theorem State.activateNow_but_every (s : State) : s.activateNow.but everyPart = s.but everyPart := by
  rw [State.activateNow]
  split
  · split
    · exact s.takeReset_but_every _ _
    · rfl
  · rfl

theorem execFwActivate_queue (h : HlyHdr) (slot when_ : Nat) (raiseFloor : Bool) (s : State) :
    KeepsQueue (execFwActivate h slot when_ raiseFloor s) s := by
  have hr : (runHly (.fwActivate h slot when_ raiseFloor) 0x0F02 h 0 0 [] (fwActivateBody slot when_ raiseFloor) s).but everyPart =
      s.but everyPart := runHly_but (fun _ _ => mem_everyPart _) (by simp [fwActivateBody])
  rw [execFwActivate]
  refine keepsQueue_ends ?_
  split
  · rw [State.activateNow_but_every, hr]
  · exact hr

theorem execDeviceResetEffect_queue (s : State) : KeepsQueue (execDeviceResetEffect s) s := by
  refine keepsQueue_ends ?_
  (repeat' split) <;> simp [State.takeReset_but_every]

theorem execWakeGpio_queue (s : State) : KeepsQueue (execWakeGpio s) s := by
  refine keepsQueue_ends ?_
  (repeat' split) <;> simp [State.leaveBare]

theorem execColdReset_queue (insdly : Nat) (straps : MgmtStraps) (calibFailed baselines : List Nat) (s : State) :
    KeepsQueue (execColdReset insdly straps calibFailed baselines s) s := by
  refine keepsQueue_ends ?_
  split <;> simp

theorem execVauxLoss_queue (s : State) : KeepsQueue (execVauxLoss s) s := keepsQueue_ends (but_everyPart.mpr rfl)

theorem execWarmReset_queue (trigger : Nat) (s : State) : KeepsQueue (execWarmReset trigger s) s := by
  refine keepsQueue_ends ?_
  (repeat' split) <;> simp

theorem execManagementComplexReset_queue (trigger : Nat) (s : State) : KeepsQueue (execManagementComplexReset trigger s) s := by
  refine keepsQueue_ends ?_
  split <;> simp

theorem execImageCheckDone_queue (slot : Nat) (ok : Bool) (version fwVersion : Nat) (s : State) :
    KeepsQueue (execImageCheckDone slot ok version fwVersion s) s := by
  refine keepsQueue_ends ?_
  (repeat' split) <;> simp

theorem execBootReady_queue (s : State) : KeepsQueue (execBootReady s) s := by
  refine keepsQueue_ends ?_
  split
  · rfl
  · dsimp only
    split <;> simp

theorem execVaux33Rise_queue (insdly smbaddr ppssel flash : Nat) (s : State) : KeepsQueue (execVaux33Rise insdly smbaddr ppssel flash s) s := by
  refine keepsQueue_ends ?_
  split <;> simp

theorem execModeSet_queue (h : HlyHdr) (mode reefForm : Nat) (force : Bool) (s : State) : KeepsQueue (execModeSet h mode reefForm force s) s := by
  refine keepsQueue_runHly ?_
  rw [modeSetBody]
  refine HRes.all_refuseIf ?_
  split
  · simp
  · split
    · simp [State.leaveBare]
    · exact HRes.all_refuseIf (State.beginMode_but (by simp) _ _ _ _)

/-! ### The statement -/

/-- Each command and each event leaves the queue, by its frame. -/
theorem exec_keepsQueue (i : Instr) (s : State) : KeepsQueue (exec i s) s := by
  cases i with
  | nop h => exact (execNop_keeps h s).queue
  | deviceQuery h => exact (execDeviceQuery_keeps h s).queue
  | inbandSet h cm accept count serials timeout retries hold => exact (execInbandSet_keeps h cm accept count serials timeout retries hold s).queue
  | hostLinkSet h link cm windowLog2 releaseTimeout => exact (execHostLinkSet_keeps h link cm windowLog2 releaseTimeout s).queue
  | modeSet h mode reefForm force => exact execModeSet_queue h mode reefForm force s
  | pwrSet h feed cm set rearm windowMs wakeGpio sleepIdle powerOffIdle => exact (execPwrSet_keeps h feed cm set rearm windowMs wakeGpio sleepIdle
                                                                             powerOffIdle s).queue
  | pwrQuery h channel => exact (execPwrQuery_keeps h channel s).queue
  | pwrCapture h action mask channel first count => exact (execPwrCapture_keeps h action mask channel first count s).queue
  | slotSet h slot cm enable autoPower pginUse set => exact (execSlotSet_keeps h slot cm enable autoPower pginUse set s).queue
  | slotPower h slot on force => exact (execSlotPower_keeps h slot on force s).queue
  | slotQuery h slot => exact (execSlotQuery_keeps h slot s).queue
  | portModeSet h port mode width maxRate => exact (execPortModeSet_keeps h port mode width maxRate s).queue
  | laneSet h port cm corrThreshold corrWindow marginFloor autoSpare idleEnable idleEntry trainTimeout => exact (execLaneSet_keeps h port cm
                                                                                                            corrThreshold corrWindow marginFloor
                                                                                                            autoSpare idleEnable idleEntry
                                                                                                            trainTimeout s).queue
  | laneSpare h port action lane => exact (execLaneSpare_keeps h port action lane s).queue
  | laneTest h lane function pattern userPattern inject symbols every => exact (execLaneTest_keeps h lane function pattern userPattern inject symbols
                                                                           every s).queue
  | laneQuery h port => exact (execLaneQuery_keeps h port s).queue
  | linkSet h port cm linkTimeout replayLimit retrainLimit shares => exact (execLinkSet_keeps h port cm linkTimeout replayLimit retrainLimit shares
                                                                       s).queue
  | trnSet h cm ackDelay nakDelay retryTimeout retryLimit ctxIdle sendWindow => exact (execTrnSet_keeps h cm ackDelay nakDelay retryTimeout
                                                                                  retryLimit ctxIdle sendWindow s).queue
  | contextPin h peer inst cls half pin => exact (execContextPin_keeps h peer inst cls half pin s).queue
  | faultInject h port kind n count => exact (execFaultInject_keeps h port kind n count s).queue
  | linkQuery h port => exact (execLinkQuery_keeps h port s).queue
  | trnQuery h peer inst cls half => exact (execTrnQuery_keeps h peer inst cls half s).queue
  | routeWrite h tiles mode table first count masks => exact (execRouteWrite_keeps h tiles mode table first count masks s).queue
  | routeEpochAdvance h epoch => exact (execRouteEpochAdvance_keeps h epoch s).queue
  | routeEpochRetire h => exact (execRouteEpochRetire_keeps h s).queue
  | routePortSet h port kind group member up => exact (execRoutePortSet_keeps h port kind group member up s).queue
  | routePolicySet h sl mode bias => exact (execRoutePolicySet_keeps h sl mode bias s).queue
  | contractRouteSet h contractId mode count groups => exact (execContractRouteSet_keeps h contractId mode count groups s).queue
  | routeEndpointSet h endpoint target destination => exact (execRouteEndpointSet_keeps h endpoint target destination s).queue
  | treeInstall h tree valid upstream branches delivery leaves => exact (execTreeInstall_keeps h tree valid upstream branches delivery leaves s).queue
  | treeRemove h tree => exact (execTreeRemove_keeps h tree s).queue
  | treeFence h scope tree branch => exact (execTreeFence_keeps h scope tree branch s).queue
  | holdSet h quota => exact (execHoldSet_keeps h quota s).queue
  | discover h => exact (execDiscover_keeps h s).queue
  | idAssign h deviceId force => exact (execIdAssign_keeps h deviceId force s).queue
  | contractInstall h c => exact (execContractInstall_keeps h c s).queue
  | contractModify h contractId cm committed peak burst aware bound lateThreshold remoteBudget => exact (execContractModify_keeps h contractId cm
                                                                                                    committed peak burst aware bound lateThreshold
                                                                                                    remoteBudget s).queue
  | contractRemove h contractId => exact (execContractRemove_keeps h contractId s).queue
  | contractQuery h contractId => exact (execContractQuery_keeps h contractId s).queue
  | hopReserve h r => exact (execHopReserve_keeps h r s).queue
  | hopRelease h resvId => exact (execHopRelease_keeps h resvId s).queue
  | meterSet h inst committed peak committedBurst peakBurst => exact (execMeterSet_keeps h inst committed peak committedBurst peakBurst s).queue
  | portReserveSet h port fraction => exact (execPortReserveSet_keeps h port fraction s).queue
  | ftuSet h cm grandmaster parentPort syncPeriod ppsIn ppsOut => exact (execFtuSet_keeps h cm grandmaster parentPort syncPeriod ppsIn ppsOut s).queue
  | bufferAccountSet h account minReserve alphaExp markThreshold => exact (execBufferAccountSet_keeps h account minReserve alphaExp markThreshold
                                                                      s).queue
  | bufferPoolSet h contractPool => exact (execBufferPoolSet_keeps h contractPool s).queue
  | auditSet h enable residencyMs => exact (execAuditSet_keeps h enable residencyMs s).queue
  | bufferReclaim h mode queue => exact (execBufferReclaim_keeps h mode queue s).queue
  | bufferQuery h account => exact (execBufferQuery_keeps h account s).queue
  | egsLeafBind h output sl inst queue weight rate burst tokenReset => exact (execEgsLeafBind_keeps h output sl inst queue weight rate burst
                                                                         tokenReset s).queue
  | egsLeafUnbind h queue => exact (execEgsLeafUnbind_keeps h queue s).queue
  | egsNodeSet h target output sl queue cm weight rate burst tokenReset => exact (execEgsNodeSet_keeps h target output sl queue cm weight rate burst
                                                                             tokenReset s).queue
  | egsQuery h target output sl queue => exact (execEgsQuery_keeps h target output sl queue s).queue
  | arbSet h resource index cm compat thresholdExp requester weight => exact (execArbSet_keeps h resource index cm compat thresholdExp requester
                                                                         weight s).queue
  | arbQuery h resource index => exact (execArbQuery_keeps h resource index s).queue
  | poolLinkSet h link memInst releaseTimeout => exact (execPoolLinkSet_keeps h link memInst releaseTimeout s).queue
  | extentBind h b => exact (execExtentBind_keeps h b s).queue
  | extentUnbind h handle count zero => exact (execExtentUnbind_keeps h handle count zero s).queue
  | importMap h m => exact (execImportMap_keeps h m s).queue
  | extentZero h handle count => exact (execExtentZero_keeps h handle count s).queue
  | extentQuery h handle count => exact (execExtentQuery_keeps h handle count s).queue
  | functionBind h port routingId link vslot => exact (execFunctionBind_keeps h port routingId link vslot s).queue
  | functionUnbind h port routingId => exact (execFunctionUnbind_keeps h port routingId s).queue
  | slotRemove h port => exact (execSlotRemove_keeps h port s).queue
  | hbmPartitionSet h directory matching heaps => exact (execHbmPartitionSet_keeps h directory matching heaps s).queue
  | cohAgentAdd h agent kind port => exact (execCohAgentAdd_keeps h agent kind port s).queue
  | cohAgentRemove h agent => exact (execCohAgentRemove_keeps h agent s).queue
  | cohWindowCreate h window mask => exact (execCohWindowCreate_keeps h window mask s).queue
  | cohWindowAgents h window mask => exact (execCohWindowAgents_keeps h window mask s).queue
  | cohWindowMap h window inst firstSlot map => exact (execCohWindowMap_keeps h window inst firstSlot map s).queue
  | cohWindowDestroy h window => exact (execCohWindowDestroy_keeps h window s).queue
  | dirSet h cm snoopTimeout scrubEnable => exact (execDirSet_keeps h cm snoopTimeout scrubEnable s).queue
  | dirQuery h window extentIndex lineIndex => exact (execDirQuery_keeps h window extentIndex lineIndex s).queue
  | queueCreate h q => exact (execQueueCreate_keeps h q s).queue
  | queueDestroy h kind queue => exact (execQueueDestroy_keeps h kind queue s).queue
  | queueMove h queue engine => exact (execQueueMove_keeps h queue engine s).queue
  | queueRestart h kind queue => exact (execQueueRestart_keeps h kind queue s).queue
  | regionSet h r => exact (execRegionSet_keeps h r s).queue
  | engInstanceSet h inst counterBase counterCount heap matchEntries onDieReserve => exact (execEngInstanceSet_keeps h inst counterBase counterCount
                                                                                       heap matchEntries onDieReserve s).queue
  | engSet h cm rnrDelay rnrLimit lockAge => exact (execEngSet_keeps h cm rnrDelay rnrLimit lockAge s).queue
  | lockBreak h index => exact (execLockBreak_keeps h index s).queue
  | engQuery h kind index => exact (execEngQuery_keeps h kind index s).queue
  | collGroupSet h g => exact (execCollGroupSet_keeps h g s).queue
  | collGroupRemove h group => exact (execCollGroupRemove_keeps h group s).queue
  | collFence h group target index => exact (execCollFence_keeps h group target index s).queue
  | collQuery h group => exact (execCollQuery_keeps h group s).queue
  | instanceCreate h inst link function resetMode drainTimeout vectors => exact (execInstanceCreate_keeps h inst link function resetMode drainTimeout
                                                                            vectors s).queue
  | instanceSet h inst cm resetMode drainTimeout vectors => exact (execInstanceSet_keeps h inst cm resetMode drainTimeout vectors s).queue
  | instanceReset h inst form => exact (execInstanceReset_keeps h inst form s).queue
  | instanceDisable h inst => exact (execInstanceDisable_keeps h inst s).queue
  | dirtyLogSet h inst enable baseA baseB rangeBase rangePages inFunction => exact (execDirtyLogSet_keeps h inst enable baseA baseB rangeBase
                                                                               rangePages inFunction s).queue
  | dirtyLogSwap h inst => exact (execDirtyLogSwap_keeps h inst s).queue
  | instanceQuery h inst => exact (execInstanceQuery_keeps h inst s).queue
  | mpuRulesSet h master set first count entries => exact (execMpuRulesSet_keeps h master set first count entries s).queue
  | mpuSwap h master => exact (execMpuSwap_keeps h master s).queue
  | mpuQuery h master => exact (execMpuQuery_keeps h master s).queue
  | debugUnlock h action serial nonce signatureOk => exact (execDebugUnlock_keeps h action serial nonce signatureOk s).queue
  | icuSet h target first count priority coreMask threshold => exact (execIcuSet_keeps h target first count priority coreMask threshold s).queue
  | icuQuery h first count => exact (execIcuQuery_keeps h first count s).queue
  | faultSet h first count cm severity quietMs vector => exact (execFaultSet_keeps h first count cm severity quietMs vector s).queue
  | faultForce h source force kind subject => exact (execFaultForce_keeps h source force kind subject s).queue
  | faultClear h first count sticky => exact (execFaultClear_keeps h first count sticky s).queue
  | faultQuery h first count => exact (execFaultQuery_keeps h first count s).queue
  | spareSwap h kind unit => exact (execSpareSwap_keeps h kind unit s).queue
  | spareQuery h kind => exact (execSpareQuery_keeps h kind s).queue
  | backgroundSet h cm hbmPatrolH sramPatrolMs calPeriodMs trendThreshold trendWindowMin auto => exact (execBackgroundSet_keeps h cm hbmPatrolH
                                                                                                   sramPatrolMs calPeriodMs trendThreshold
                                                                                                   trendWindowMin auto s).queue
  | ttcSet h block counter event samplePeriod => exact (execTtcSet_keeps h block counter event samplePeriod s).queue
  | dumpSet h stream cm intervalMs ringBase slots vector inMemory => exact (execDumpSet_keeps h stream cm intervalMs ringBase slots vector inMemory
                                                                       s).queue
  | probeSet h probe bridge action source destination kindMask matchAddr mask records => exact (execProbeSet_keeps h probe bridge action source
                                                                                           destination kindMask matchAddr mask records s).queue
  | probeQuery h probe first count => exact (execProbeQuery_keeps h probe first count s).queue
  | mtrSet h action inst => exact (execMtrSet_keeps h action inst s).queue
  | fwWrite h slot offset final data => exact (execFwWrite_keeps h slot offset final data s).queue
  | fwActivate h slot when raiseFloor => exact execFwActivate_queue h slot when raiseFloor s
  | deviceReset h kind => exact (execDeviceReset_keeps h kind s).queue
  | fabricLeave h force => exact (execFabricLeave_keeps h force s).queue
  | deviceResetEffect => exact execDeviceResetEffect_queue s
  | doorbellSend inst queue index => exact (execDoorbellSend_keeps (l := everyPart) (by simp) inst queue index (.inr (by simp))).queue
  | doorbellReceive inst queue index => exact (execDoorbellReceive_keeps (l := everyPart) (by simp) inst queue index (.inr (by simp))).queue
  | doorbellCompletion inst queue index => exact (execDoorbellCompletion_keeps (l := everyPart) (by simp) inst queue index (.inr (by simp))).queue
  | doorbellCompletionArm inst queue index => exact (execDoorbellCompletionArm_keeps (l := everyPart) (by simp) inst queue index (.inr
                                                (by simp))).queue
  | hlyCommandProducerWrite q index => exact (execHlyCommandProducerWrite_keeps (l := everyPart) (by simp) q index (.inr (by simp))).queue
  | hlyReplyConsumerWrite q index => exact (execHlyReplyConsumerWrite_keeps (l := everyPart) (by simp) q index (.inr (by simp))).queue
  | hlyQueueEnable q => exact (execHlyQueueEnable_keeps (l := everyPart) (by simp) q (.inr (by simp))).queue
  | hlyQueueDisable q => exact (execHlyQueueDisable_keeps (l := everyPart) (by simp) q (.inr (by simp))).queue
  | icuClaimRead core viaBar0 => exact (execIcuClaimRead_keeps (l := everyPart) (by simp) core viaBar0 (.inr (by simp))).queue
  | icuCompleteWrite core source viaBar0 => exact (execIcuCompleteWrite_keeps (l := everyPart) (by simp) core source viaBar0 (.inr (by simp))).queue
  | icuSwiWrite value => exact (execIcuSwiWrite_keeps (l := everyPart) (by simp) value (.inr (by simp))).queue
  | mpuViolPop value => exact (execMpuViolPop_keeps (l := everyPart) (by simp) value (.inr (by simp))).queue
  | ftuTimeLoRead => exact (execFtuTimeLoRead_keeps (l := everyPart) (by simp) (.inr (by simp))).queue
  | reg64LowHalfRead window offset => exact (execReg64LowHalfRead_keeps (l := everyPart) (by simp) window offset (.inr (by simp))).queue
  | bar0IllegalAccess write => exact (execBar0IllegalAccess_keeps (l := everyPart) (by simp) write (.inr (by simp))).queue
  | bar0UnmappedAccess access => exact (execBar0UnmappedAccess_keeps (l := everyPart) (by simp) access (.inr (by simp))).queue
  | registerWrite window offset value => exact (execRegisterWrite_keeps (l := everyPart) (by simp) window offset value (.inr (by simp))).queue
  | functionLevelReset inst => exact (execFunctionLevelReset_keeps (l := everyPart) (by simp) inst (.inr (by simp))).queue
  | vfEnableClear link => exact (execVfEnableClear_keeps (l := everyPart) (by simp) link (.inr (by simp))).queue
  | busMasterEnableClear inst => exact (execBusMasterEnableClear_keeps (l := everyPart) (by simp) inst (.inr (by simp))).queue
  | msixUnmask inst vector wholeFunction => exact (execMsixUnmask_keeps (l := everyPart) (by simp) inst vector wholeFunction (.inr (by simp))).queue
  | boardChannelRequest code inputLength => exact (execBoardChannelRequest_keeps (l := everyPart) (by simp) code inputLength (.inr (by simp))).queue
  | hlyCmdReceive origin queue seq segIndex segCount attempt directed retPorts => exact (execHlyCmdReceive_keeps (l := everyPart)
                                                                                    (by simp) origin queue seq segIndex segCount attempt directed
                                                                                    retPorts (.inr (by simp))).queue
  | hlyReplyReceive queue seq segIndex segCount attempt status result deviceValid device out => exact (execHlyReplyReceive_keeps queue seq segIndex
                                                                                                  segCount attempt status result deviceValid device
                                                                                                  out s).queue
  | inbandTimeout queue seq => exact (execInbandTimeout_keeps queue seq s).queue
  | reassemblyTimeout serial queue seq => exact (execReassemblyTimeout_keeps serial queue seq s).queue
  | inbandHoldExpiry serial queue seq => exact (execInbandHoldExpiry_keeps serial queue seq s).queue
  | directedReceive port hopCount hopPtr ports message => exact (execDirectedReceive_keeps (l := everyPart)
                                                            (by simp) port hopCount hopPtr ports message (.inr (by simp))).queue
  | neighbourReceive port serial neighbourPort => exact (execNeighbourReceive_keeps (l := everyPart) (by simp) port serial neighbourPort (.inr
                                                    (by simp))).queue
  | syncPeriod => exact (execSyncPeriod_keeps s).queue
  | ftSyncReqReceive port exchange t1 => exact (execFtSyncReqReceive_keeps (l := everyPart) (by simp) port exchange t1 (.inr (by simp))).queue
  | ftSyncRspReceive port exchange depth t2 t3 => exact (execFtSyncRspReceive_keeps (l := everyPart) (by simp) port exchange depth t2 t3 (.inr
                                                    (by simp))).queue
  | parentReplyLoss => exact (execParentReplyLoss_keeps s).queue
  | mastheadTimeTick => exact (execMastheadTimeTick_keeps s).queue
  | wakeSyncWindowEnd => exact (execWakeSyncWindowEnd_keeps s).queue
  | packetIngress input p length rxVl preYellow firstOfOp => exact (execPacketIngress_keeps (l := everyPart)
                                                               (by simp) input p length rxVl preYellow firstOfOp (.inr (by simp))).queue
  | routeRetry pid => exact (execRouteRetry_keeps pid s).queue
  | bufferAdmission pid => exact (execBufferAdmission_keeps pid s).queue
  | egressSelect output => exact (execEgressSelect_keeps output s).queue
  | framePreempt output pid progress => exact (execFramePreempt_keeps output pid progress s).queue
  | suspendedFrameResume output vl => exact (execSuspendedFrameResume_keeps output vl s).queue
  | linkFrameReceive port sync head pid bytes frameCrc marked lost => exact (execLinkFrameReceive_keeps (l := everyPart)
                                                                        (by simp) port sync head pid bytes frameCrc marked lost (.inr
                                                                        (by simp))).queue
  | linkControlFlitReceive port flit sync => exact (execLinkControlFlitReceive_keeps port flit sync s).queue
  | replayTimeout port => exact (execReplayTimeout_keeps port s).queue
  | retrainLimitExpiry port => exact (execRetrainLimitExpiry_keeps port s).queue
  | linkInitFlitTimer port => exact (execLinkInitFlitTimer_keeps port s).queue
  | portDisableDrainTimeout port => exact (execPortDisableDrainTimeout_keeps port s).queue
  | transportDataReceive p check ticketUsed => exact (execTransportDataReceive_keeps p check ticketUsed s).queue
  | topenReceive peer inst cls initialSeq sl => exact (execTopenReceive_keeps peer inst cls initialSeq sl s).queue
  | tcloseReceive peer inst cls nextSeq sl => exact (execTcloseReceive_keeps peer inst cls nextSeq sl s).queue
  | tackReceive peer inst cls ackSeq openAck openRefused closeAck lates marks ticketsReturned ticketsGranted => exact (execTackReceive_keeps peer
                                                                                                                  inst cls ackSeq openAck openRefused
                                                                                                                  closeAck lates marks
                                                                                                                  ticketsReturned ticketsGranted
                                                                                                                  s).queue
  | tnakReceive peer inst cls seq transit reason => exact (execTnakReceive_keeps peer inst cls seq transit reason s).queue
  | ackDelayExpiry peer inst cls => exact (execAckDelayExpiry_keeps peer inst cls s).queue
  | nakDelayExpiry peer inst cls => exact (execNakDelayExpiry_keeps peer inst cls s).queue
  | retryTimeout peer inst cls => exact (execRetryTimeout_keeps peer inst cls s).queue
  | ctxIdleExpiry peer inst cls => exact (execCtxIdleExpiry_keeps peer inst cls s).queue
  | contextFetchDone peer inst cls half => exact (execContextFetchDone_keeps peer inst cls half s).queue
  | mcAckReceive port tree srcDevice inst op delivered fenced => exact (execMcAckReceive_keeps port tree srcDevice inst op delivered fenced s).queue
  | descriptorFetch queue bits readOk => exact (execDescriptorFetch_keeps queue bits readOk s).queue
  | put queue d => exact (execPut_keeps queue d s).queue
  | get queue d => exact (execGet_keeps queue d s).queue
  | atomic queue d => exact (execAtomic_keeps queue d s).queue
  | send queue d => exact (execSend_keeps queue d s).queue
  | lock queue d => exact (execLock_keeps queue d s).queue
  | unlock queue d => exact (execUnlock_keeps queue d s).queue
  | counterAdd queue d => exact (execCounterAdd_keeps queue d s).queue
  | counterSet queue d => exact (execCounterSet_keeps queue d s).queue
  | descNop queue d => exact (execDescNop_keeps queue d s).queue
  | triggerFire engine => exact (execTriggerFire_keeps engine s).queue
  | edgeWaitRelease pid => exact (execEdgeWaitRelease_keeps pid s).queue
  | flaggedLateSend peer inst cls => exact (execFlaggedLateSend_keeps peer inst cls s).queue
  | receiveTake queue bits => exact (execReceiveTake_keeps queue bits s).queue
  | rnrDelayExpiry opTag => exact (execRnrDelayExpiry_keeps opTag s).queue
  | lockAgeExpiry index => exact (execLockAgeExpiry_keeps index s).queue
  | putArrival r a data last => exact (execPutArrival_keeps r a data last s).queue
  | getArrival r a poison => exact (execGetArrival_keeps r a poison s).queue
  | atomicArrival r a aop size16 opA opB old => exact (execAtomicArrival_keeps r a aop size16 opA opB old s).queue
  | lockArrival r a wait => exact (execLockArrival_keeps r a wait s).queue
  | unlockArrival r a => exact (execUnlockArrival_keeps r a s).queue
  | lockAbandonArrival r queue => exact (execLockAbandonArrival_keeps r queue s).queue
  | sendEagerArrival r dstInst context msn msgOffset matchBits msgLength data => exact (execSendEagerArrival_keeps r dstInst context msn msgOffset
                                                                                   matchBits msgLength data s).queue
  | sendRtsArrival r dstInst context msn matchBits msgLength => exact (execSendRtsArrival_keeps r dstInst context msn matchBits msgLength s).queue
  | rgetArrival r rvTag rvGen offset length => exact (execRgetArrival_keeps r rvTag rvGen offset length s).queue
  | putAckArrival r => exact (execPutAckArrival_keeps r s).queue
  | getDataArrival r data => exact (execGetDataArrival_keeps r data s).queue
  | atomicResultArrival r old => exact (execAtomicResultArrival_keeps r old s).queue
  | lockResultArrival r lockIndex srcDevice => exact (execLockResultArrival_keeps r lockIndex srcDevice s).queue
  | sendAckArrival r => exact (execSendAckArrival_keeps r s).queue
  | sendRnrArrival r => exact (execSendRnrArrival_keeps r s).queue
  | rgetDataArrival r data => exact (execRgetDataArrival_keeps r data s).queue
  | rdoneArrival r bytes => exact (execRdoneArrival_keeps r bytes s).queue
  | engErrorArrival r => exact (execEngErrorArrival_keeps r s).queue
  | hostMemoryAccess inst address length write cxl data => exact (execHostMemoryAccess_keeps (l := everyPart)
                                                             (by simp) inst address length write cxl data (.inr (by simp))).queue
  | hostWindowStore inst address length posted data => exact (execHostWindowStore_keeps (l := everyPart) (by simp) inst address length posted data
                                                         (.inr (by simp))).queue
  | wreadArrival srcDevice srcInst sl w => exact (execWreadArrival_keeps srcDevice srcInst sl w s).queue
  | wwriteArrival srcDevice srcInst sl w data => exact (execWwriteArrival_keeps srcDevice srcInst sl w data s).queue
  | wreadDataArrival inst w data => exact (execWreadDataArrival_keeps inst w data s).queue
  | wwriteDoneArrival inst w => exact (execWwriteDoneArrival_keeps inst w s).queue
  | werrorArrival inst w reason => exact (execWerrorArrival_keeps inst w reason s).queue
  | coherentRequest agent handle lineIndex op offset data => exact (execCoherentRequest_keeps (l := everyPart)
                                                               (by simp) agent handle lineIndex op offset data (.inr (by simp))).queue
  | coherentWriteback agent handle lineIndex keep data => exact (execCoherentWriteback_keeps (l := everyPart)
                                                            (by simp) agent handle lineIndex keep data (.inr (by simp))).queue
  | evictionNotice agent handle lineIndex => exact (execEvictionNotice_keeps (l := everyPart) (by simp) agent handle lineIndex (.inr (by simp))).queue
  | snoopResponseReceive agent handle lineIndex form data => exact (execSnoopResponseReceive_keeps (l := everyPart)
                                                               (by simp) agent handle lineIndex form data (.inr (by simp))).queue
  | biconflictReceive agent handle lineIndex => exact (execBiconflictReceive_keeps (l := everyPart) (by simp) agent handle lineIndex (.inr
                                                  (by simp))).queue
  | memoryWriteDone handle lineIndex => exact (execMemoryWriteDone_keeps handle lineIndex s).queue
  | snoopTimeoutExpiry agent handle lineIndex => exact (execSnoopTimeoutExpiry_keeps agent handle lineIndex s).queue
  | recallComplete recallId => exact (execRecallComplete_keeps recallId s).queue
  | memberArrival group member values failed poison => exact (execMemberArrival_keeps group member values failed poison s).queue
  | rdxUpArrival group srcDevice srcInst sl round members fenced arrival elementOffset poison values => exact (execRdxUpArrival_keeps group srcDevice
                                                                                                          srcInst sl round members fenced arrival
                                                                                                          elementOffset poison values s).queue
  | rdxDownArrival group round combined fenced status elementOffset values => exact (execRdxDownArrival_keeps group round combined fenced status
                                                                                elementOffset values s).queue
  | zeroingComplete handle => exact (execZeroingComplete_keeps handle s).queue
  | dynamicCapacityRelease release => exact (execDynamicCapacityRelease_keeps release s).queue
  | dynamicCapacityAddReject handle => exact (execDynamicCapacityAddReject_keeps handle s).queue
  | releaseTimeoutExpiry handle isFunction port routingId => exact (execReleaseTimeoutExpiry_keeps handle isFunction port routingId s).queue
  | unbindDrainComplete handle => exact (execUnbindDrainComplete_keeps handle s).queue
  | virtualSlotPowerOff link vslot => exact (execVirtualSlotPowerOff_keeps link vslot s).queue
  | functionResetComplete port routingId => exact (execFunctionResetComplete_keeps port routingId s).queue
  | expanderEnumerated port serial isExpander capacity further functions => exact (execExpanderEnumerated_keeps port serial isExpander capacity
                                                                              further functions s).queue
  | hopReleaseDrained resvId => exact (execHopReleaseDrained_keeps resvId s).queue
  | hopReleaseTimeout resvId => exact (execHopReleaseTimeout_keeps resvId s).queue
  | treeDrained tree => exact (execTreeDrained_keeps tree s).queue
  | leafDrained queue => exact (execLeafDrained_keeps queue s).queue
  | groupDrained group => exact (execGroupDrained_keeps group s).queue
  | queueMoveForwardDone queue => exact (execQueueMoveForwardDone_keeps queue s).queue
  | logSwapWritebackDone inst => exact (execLogSwapWritebackDone_keeps inst s).queue
  | mpuSwapCommit master => exact (execMpuSwapCommit_keeps master s).queue
  | mpuSwapRetire master => exact (execMpuSwapRetire_keeps master s).queue
  | spareSwapComplete kind unit => exact (execSpareSwapComplete_keeps kind unit s).queue
  | resetDrainComplete inst => exact (execResetDrainComplete_keeps inst s).queue
  | drainTimeoutExpiry inst => exact (execDrainTimeoutExpiry_keeps inst s).queue
  | generationWaitExpiry inst => exact (execGenerationWaitExpiry_keeps inst s).queue
  | resetForceExpiry inst => exact (execResetForceExpiry_keeps inst s).queue
  | resetItemsDone inst => exact (execResetItemsDone_keeps inst s).queue
  | stormJibDrained => exact (execStormJibDrained_keeps s).queue
  | stormJibWake cause => exact (execStormJibWake_keeps cause s).queue
  | barePolesCommandTimeout => exact (execBarePolesCommandTimeout_keeps s).queue
  | wakeGpio => exact execWakeGpio_queue s
  | rateStepComplete port => exact (execRateStepComplete_keeps port s).queue
  | rateStepTimeout port => exact (execRateStepTimeout_keeps port s).queue
  | lossOfSignal lane => exact (execLossOfSignal_keeps lane s).queue
  | lossOfLock lane => exact (execLossOfLock_keeps lane s).queue
  | codewordLockLoss port => exact (execCodewordLockLoss_keeps port s).queue
  | corrWindowEnd lane corrected => exact (execCorrWindowEnd_keeps lane corrected s).queue
  | marginReport lane margin => exact (execMarginReport_keeps lane margin s).queue
  | wearFlag lane => exact (execWearFlag_keeps lane s).queue
  | trainingSequenceReceive lane seq => exact (execTrainingSequenceReceive_keeps lane seq s).queue
  | trainDetectSignal lane => exact (execTrainDetectSignal_keeps lane s).queue
  | equaliseTimeout port => exact (execEqualiseTimeout_keeps port s).queue
  | lockAchieved port skews => exact (execLockAchieved_keeps port skews s).queue
  | trainTimeout port => exact (execTrainTimeout_keeps port s).queue
  | backoffElapsed port => exact (execBackoffElapsed_keeps port s).queue
  | idleEntryExpiry port => exact (execIdleEntryExpiry_keeps port s).queue
  | fastExit port => exact (execFastExit_keeps port s).queue
  | fastExitLockTimeout port => exact (execFastExitLockTimeout_keeps port s).queue
  | subReq port msg => exact (execSubReq_keeps port msg s).queue
  | subAck port msg => exact (execSubAck_keeps port msg s).queue
  | subCompareDone port differing => exact (execSubCompareDone_keeps port differing s).queue
  | subDone port msg => exact (execSubDone_keeps port msg s).queue
  | subAbort port msg => exact (execSubAbort_keeps port msg s).queue
  | stepMsg port msg => exact (execStepMsg_keeps port msg s).queue
  | stepAck port msg => exact (execStepAck_keeps port msg s).queue
  | idleEnter port msg => exact (execIdleEnter_keeps port msg s).queue
  | wake port msg => exact (execWake_keeps port msg s).queue
  | testReq port msg => exact (execTestReq_keeps port msg s).queue
  | testAck port msg => exact (execTestAck_keeps port msg s).queue
  | auditPassEnd => exact (execAuditPassEnd_keeps s).queue
  | arbStarveThreshold resource index requester grantedNow => exact (execArbStarveThreshold_keeps resource index requester grantedNow s).queue
  | feedWindowEnter feed voltage => exact (execFeedWindowEnter_keeps feed voltage s).queue
  | feedWindowExit feed voltage => exact (execFeedWindowExit_keeps (l := everyPart) (by simp) feed voltage (.inr (by simp))).queue
  | insertionDelayElapsed feed => exact (execInsertionDelayElapsed_keeps feed s).queue
  | rampComplete channel => exact (execRampComplete_keeps channel s).queue
  | qualificationDone channel pgin => exact (execQualificationDone_keeps channel pgin s).queue
  | currentOverLimit channel current => exact (execCurrentOverLimit_keeps channel current s).queue
  | currentBelowRecovery channel current => exact (execCurrentBelowRecovery_keeps channel current s).queue
  | faultTimerTrip channel => exact (execFaultTimerTrip_keeps (l := everyPart) (by simp) channel (.inr (by simp))).queue
  | fastTrip channel withEnergy => exact (execFastTrip_keeps (l := everyPart) (by simp) channel withEnergy (.inr (by simp))).queue
  | energyBudgetTrip channel => exact (execEnergyBudgetTrip_keeps (l := everyPart) (by simp) channel (.inr (by simp))).queue
  | rampTimeout channel => exact (execRampTimeout_keeps (l := everyPart) (by simp) channel (.inr (by simp))).queue
  | coolDownElapsed channel => exact (execCoolDownElapsed_keeps channel s).queue
  | attemptCountReset channel => exact (execAttemptCountReset_keeps channel s).queue
  | reverseCurrent feed => exact (execReverseCurrent_keeps feed s).queue
  | reverseRecovery feed => exact (execReverseRecovery_keeps feed s).queue
  | feedBelow5v feed => exact (execFeedBelow5v_keeps feed s).queue
  | thermalTrip sensor => exact (execThermalTrip_keeps sensor s).queue
  | temperatureReading sensor celsius => exact (execTemperatureReading_keeps sensor celsius s).queue
  | presenceDebounced slot => exact (execPresenceDebounced_keeps (l := everyPart) (by simp) slot (.inr (by simp))).queue
  | presenceLost slot port linkDown => exact (execPresenceLost_keeps (l := everyPart) (by simp) slot port linkDown (.inr (by simp))).queue
  | pginFall slot => exact (execPginFall_keeps slot s).queue
  | measurementWindowEnd channel vPeak vMin iPeak iMin pMean energy => exact (execMeasurementWindowEnd_keeps channel vPeak vMin iPeak iMin pMean
                                                                         energy s).queue
  | captureRecord channel voltage current power cause => exact (execCaptureRecord_keeps channel voltage current power cause s).queue
  | continuousCaptureEnd channel => exact (execContinuousCaptureEnd_keeps channel s).queue
  | sleepIdleExpiry domain => exact (execSleepIdleExpiry_keeps domain s).queue
  | powerOffIdleExpiry domain => exact (execPowerOffIdleExpiry_keeps domain s).queue
  | domainOffDone domain => exact (execDomainOffDone_keeps domain s).queue
  | domainPacketArrival domain p => exact (execDomainPacketArrival_keeps domain p s).queue
  | domainWakeDone domain => exact (execDomainWakeDone_keeps domain s).queue
  | domainWakeTimeout domain => exact (execDomainWakeTimeout_keeps domain s).queue
  | quietPeriodExpiry => exact (execQuietPeriodExpiry_keeps s).queue
  | trendFire kind unit => exact (execTrendFire_keeps kind unit s).queue
  | hbmUncorrectableError address owner patrol => exact (execHbmUncorrectableError_keeps address owner patrol s).queue
  | sramUncorrectableError row => exact (execSramUncorrectableError_keeps row s).queue
  | engineDuplicateFail engine => exact (execEngineDuplicateFail_keeps engine s).queue
  | managementCoreWatchdog core => exact (execManagementCoreWatchdog_keeps core s).queue
  | calPeriod => exact (execCalPeriod_keeps s).queue
  | dumpInterval stream freed => exact (execDumpInterval_keeps stream freed s).queue
  | dumpSlotWritten stream freed => exact (execDumpSlotWritten_keeps stream freed s).queue
  | counterAccumulate => exact (execCounterAccumulate_keeps s).queue
  | sampleCountdownZero engine counter programCounter => exact (execSampleCountdownZero_keeps engine counter programCounter s).queue
  | probeMatch bridge source destination kind address length direction => exact (execProbeMatch_keeps bridge source destination kind address length
                                                                            direction s).queue
  | traceRecordTimeout probe => exact (execTraceRecordTimeout_keeps probe s).queue
  | coldReset insdly straps calibFailed baselines => exact execColdReset_queue insdly straps calibFailed baselines s
  | vauxLoss => exact execVauxLoss_queue s
  | warmReset trigger => exact execWarmReset_queue trigger s
  | managementComplexReset trigger => exact execManagementComplexReset_queue trigger s
  | imageCheckDone slot ok version fwVersion => exact execImageCheckDone_queue slot ok version fwVersion s
  | bootReady => exact execBootReady_queue s
  | centralSchedulerMatching stagedFirst stagedNext => exact (execCentralSchedulerMatching_keeps stagedFirst stagedNext s).queue
  | hostReadCompletion tag values error poison => exact (execHostReadCompletion_keeps tag values error poison s).queue
  | hostCompletionTimeout tag => exact (execHostCompletionTimeout_keeps tag s).queue
  | directoryReadDone handle lineIndex poison => exact (execDirectoryReadDone_keeps handle lineIndex poison s).queue
  | vfEnableSet link numVfs => exact (execVfEnableSet_keeps (l := everyPart) (by simp) link numVfs (.inr (by simp))).queue
  | busMasterEnableSet inst => exact (execBusMasterEnableSet_keeps (l := everyPart) (by simp) inst (.inr (by simp))).queue
  | perst0Deassertion => exact (execPerst0Deassertion_keeps s).queue
  | vaux33Rise insdly smbaddr ppssel flash => exact execVaux33Rise_queue insdly smbaddr ppssel flash s
  | meteringSlotWaitTimeout inst => exact (execMeteringSlotWaitTimeout_keeps inst s).queue
  | ppsInputEdge => exact (execPpsInputEdge_keeps s).queue
  | ppsOutputSecond => exact (execPpsOutputSecond_keeps s).queue
  | mctpControlMessage command => exact (execMctpControlMessage_keeps command s).queue
  | jtagInstructionUpdate instruction => exact (execJtagInstructionUpdate_keeps instruction s).queue
  | viralReceived port => exact (execViralReceived_keeps port s).queue
  | pcieLinkTrained port rate width cxlOffered flit256 => exact (execPcieLinkTrained_keeps port rate width cxlOffered flit256 s).queue
  | prbsCheckerLock lane => exact (execPrbsCheckerLock_keeps lane s).queue
  | prbsLockLoss lane => exact (execPrbsLockLoss_keeps lane s).queue
  | directoryBankFailure bank => exact (execDirectoryBankFailure_keeps bank s).queue
  | routeBankFailure tile bank => exact (execRouteBankFailure_keeps tile bank s).queue
  | pseudoChannelFailure channel => exact (execPseudoChannelFailure_keeps channel s).queue
  | managementCoreFailure core => exact (execManagementCoreFailure_keeps core s).queue
  | ageingMonitorFlag kind unit => exact (execAgeingMonitorFlag_keeps kind unit s).queue
  | datapathError => exact (execDatapathError_keeps s).queue
  | shroudBridgeTimeout bridge => exact (execShroudBridgeTimeout_keeps bridge s).queue
  | managementFirmwareFault source seq => exact (execManagementFirmwareFault_keeps source seq s).queue

/-- Settles O53: what a command or an event changes are parts of the state, of which the queue is none, and so it is with the end of a step. -/
theorem commandsLeaveTheQueue : Obligations.CommandsLeaveTheQueue :=
  fun i s t => exec_keepsQueue i s t

end Sys2Proof.Machine
end

section
/-! Every step answers (spec/95_what_each_step_holds.md). -/
namespace Sys2Proof.Machine

/-- Every command and every event answers a next state. -/
theorem exec_answersNext (i : Instr) (s : State) : ∃ t : State, exec i s = .next t := by
  cases i <;> exact ⟨_, rfl⟩

/-- Settles O45: every meaning ends in a next state, and a step is a meaning or a core cycle. -/
theorem everyStepAnswersNext : Obligations.EveryStepAnswersNext := by
  refine ⟨exec_answersNext, fun s => ?_⟩
  rw [step]
  split
  · exact ⟨_, rfl⟩
  · exact exec_answersNext _ _

end Sys2Proof.Machine
end

section
/-! Commands that wait, and what an answer changes (R446 to R452, R461). -/
namespace Sys2Proof.Machine

theorem runHly_waits {i : Instr} {code inLen outLen : Nat} {h : HlyHdr} {names : List Obj} {body : State → HRes} {s : State}
    (ha : s.acceptable h = false) : runHly i code h inLen outLen names body s = { s with waiting := s.waiting ++ [i] } := by
  rw [runHly]
  simp [ha]

/-- A Halyard command that cannot be accepted yet waits. -/
theorem exec_waits {i : Instr} {h : HlyHdr} {s : State} (hi : i.header = some h) (ha : s.acceptable h = false) :
    exec i s = ends { s with waiting := s.waiting ++ [i] } := by
  cases i
  case fwActivate =>
    cases hi
    simp [exec, execFwActivate, ha, runHly_waits]
  all_goals
    cases hi
  all_goals
    exact congrArg ends (runHly_waits ha)

/-- The reply to a host queue whose ring has room, of a command that has succeeded without interrupt. -/
theorem State.answer_host {s : State} {h : HlyHdr} {q : Nat} (code result : Nat) (out : List Nat) (hq : h.src = .host q)
    (hi : h.interrupt = false) (hroom : (s.hq q).ringFull = false) (hheld : (s.hly.heldReplies.any fun x => x.src == .host q) = false)
    (he : h.outputError = false) :
    s.answer h code result out = (s.upHq q fun x => { x with replyProducer := (x.replyProducer + 1) % 65536 }).emit
      (.reply { s.mkReply h.src h.seq code false 0 result out with phase := ringPhase (s.hq q).replyProducer (s.hq q).log2Size }) := by
  have hn : s.noteStatus 0 = s := by simp [State.noteStatus]
  simp [State.answer, State.complete, he, hi, hn, State.writeReply, State.mkReply, hq, hroom, hheld, State.ringReply]

/-- Settles O46: an answer is taking the command and completing it, each of which owes nothing; a command that is not accepted waits. -/
theorem answerLeavesTheRest : Obligations.AnswerLeavesTheRest := by
  unfold Obligations.AnswerLeavesTheRest
  refine ⟨fun s h hs => ?taken, fun s h code result out hs => ?answered, fun s h code w holds hs => ?started,
    fun s h q code result out hq hi hroom hheld he => ?reply, fun s i h hi ha hs => ?waits⟩
  case taken =>
    obtain ⟨-, hc, hk⟩ := held_fetchCmd (h := h) hs
    exact ⟨hc, fun b hb => hk b (by simpa using hb)⟩
  case answered =>
    obtain ⟨hp, hc, hk⟩ := held_complete (src := h.src) (seq := h.seq) (code := code) (i := h.interrupt) (e := h.outputError) (st := 0)
      (r := result) (o := out) hs
    exact ⟨settle_calm _ hc, hp, hk⟩
  case started =>
    obtain ⟨hp, hc, hk⟩ := held_upHly (f := fun x => { x with progress := x.progress ++ [{
      src := h.src, seq := h.seq, code, interrupt := h.interrupt, objs := holds, wait := w, outErr := h.outputError }] }) hs
    exact ⟨settle_calm _ hc, hp, fun b hb => hk b (by simpa using hb), _, rfl, rfl, rfl, rfl, rfl⟩
  case reply =>
    rw [State.answer_host code result out hq hi hroom hheld he]
    exact ⟨_, rfl, rfl, rfl, rfl, hq, rfl, rfl, rfl, by simp [State.hq, State.upHq]⟩
  case waits =>
    rw [exec_waits hi ha, ends, settle_calm]
    simpa using hs

end Sys2Proof.Machine
end

section
/-! What raising a fault notes (R520 to R524). -/
namespace Sys2Proof.Machine

/-- The record of a source with a fault noted at the severity `e` (R521 to R524). -/
def FaultSrc.noted (f : FaultSrc) (subj : Subject) (e : Nat) : FaultSrc :=
  { f with sticky := true, effective := e, unc := if 2 ≤ e then addOnce f.unc (subj, e) else f.unc }

theorem State.raiseNote_sources {s : State} {src : Nat} {subj : Subject} (hk : faultKnown src = true)
    (he : effectiveSeverity (s.severity src) subj ≠ 0) :
    (s.raiseNote src subj).2.flt.sources =
      s.flt.sources.upd src {} fun f => f.noted subj (effectiveSeverity (s.severity src) subj) := by
  simp only [State.raiseNote, hk, Bool.not_true, Bool.false_eq_true, if_false, he]
  split
  · next h2 => simp [State.upFault, FaultSrc.noted, h2]
  · next h2 => simp [State.upFault, FaultSrc.noted, h2]

/-- The actions that a fault owes do not touch the records of the sources. -/
theorem State.raise_sources {s : State} {src : Nat} {subj : Subject} (hk : faultKnown src = true)
    (he : effectiveSeverity (s.severity src) subj ≠ 0) :
    (s.raise src subj).flt.sources =
      s.flt.sources.upd src {} fun f => f.noted subj (effectiveSeverity (s.severity src) subj) := by
  rw [← State.raiseNote_sources hk he, State.raise]
  split <;> rfl

theorem State.faultN_of_unc {s : State} {src : Nat} {f : FaultSrc} {x : Subject × Nat} (hf : s.flt.sources.find src = some f) (hx : x ∈ f.unc) :
    s.faultN = true :=
  List.any_eq_true.mpr ⟨(src, f), Tbl.mem_of_find hf, by simpa using List.ne_nil_of_mem hx⟩

/-- Settles O36: the record of the source is the one noted, and no other record changes. -/
theorem raisedFaultIsNoted : Obligations.RaisedFaultIsNoted := by
  unfold Obligations.RaisedFaultIsNoted
  intro s src subj hk he
  have hs := State.raise_sources hk he
  have hf : (s.raise src subj).fault src = (s.fault src).noted subj (effectiveSeverity (s.severity src) subj) := by
    rw [State.fault, hs, Tbl.get_upd_self]
    rfl
  refine ⟨by rw [hf]; rfl, by rw [hf]; rfl, fun h2 => ?_, fun n hn => ?_, by simp⟩
  · have hu : (subj, effectiveSeverity (s.severity src) subj) ∈ ((s.fault src).noted subj (effectiveSeverity (s.severity src) subj)).unc := by
      rw [FaultSrc.noted, if_pos h2]
      exact mem_foldl_addOnce (l := [_]) (.inr (List.mem_singleton_self _))
    exact ⟨hf ▸ hu, State.faultN_of_unc (by rw [hs]; exact Tbl.find_put_self ..) hu⟩
  · rw [State.fault, hs, Tbl.get_upd, if_neg hn]
    rfl

end Sys2Proof.Machine
end

section
/-! The descriptors of Halyard commands (R442, R443): packed fields read back, then the header, then each command. -/
namespace Sys2Proof
open Machine

/-! ### Packed fields (R443) -/

/-- Fields that fit read back, whatever is packed above them. -/
theorem unpackBits_packBits {fs : List (Nat × Nat)} (gs : List (Nat × Nat)) (hf : fits fs = true) :
    unpackBits (fs.map Prod.snd) (packBits (fs ++ gs)) = fs.map Prod.fst := by
  induction fs with
  | nil => rfl
  | cons f fs ih =>
    obtain ⟨hv, hfs⟩ : f.1 < 2 ^ f.2 ∧ fits fs = true := by simpa [fits] using hf
    have hlow : (f.1 % 2 ^ f.2 + 2 ^ f.2 * packBits (fs ++ gs)) % 2 ^ f.2 = f.1 := by simp [Nat.mod_eq_of_lt hv]
    have hhigh : (f.1 % 2 ^ f.2 + 2 ^ f.2 * packBits (fs ++ gs)) / 2 ^ f.2 = packBits (fs ++ gs) := by
      rw [Nat.add_mul_div_left _ _ (Nat.two_pow_pos _), Nat.mod_eq_of_lt hv, Nat.div_eq_of_lt hv, Nat.zero_add]
    rw [List.map_cons, List.map_cons, List.cons_append, packBits, unpackBits, hlow, hhigh, ih hfs]

/-- What is packed above some fields stands above their widths. -/
theorem packBits_append_div (fs gs : List (Nat × Nat)) : packBits (fs ++ gs) / 2 ^ (fs.map Prod.snd).sum = packBits gs := by
  induction fs with
  | nil => simp
  | cons f fs ih =>
    have hhigh : (f.1 % 2 ^ f.2 + 2 ^ f.2 * packBits (fs ++ gs)) / 2 ^ f.2 = packBits (fs ++ gs) := by
      rw [Nat.add_mul_div_left _ _ (Nat.two_pow_pos _), Nat.div_eq_of_lt (Nat.mod_lt _ (Nat.two_pow_pos _)), Nat.zero_add]
    rw [List.map_cons, List.sum_cons, Nat.pow_add, ← Nat.div_div_eq_div_mul, List.cons_append, packBits, hhigh, ih]

/-! ### The header (R442) -/

theorem Instr.code_lt (i : Instr) : i.code < 2 ^ 16 := by cases i <;> exact Nat.le_of_ble_eq_true rfl

/-- What a command brings holds its header's own part. -/
theorem Instr.brought_header (i : Instr) (h : HlyHdr) :
    (i.brought h).src = h.src ∧ (i.brought h).hopCount = h.hopCount ∧ (i.brought h).outPorts = h.outPorts ∧
      (i.brought h).inputError = h.inputError ∧ (i.brought h).outputError = h.outputError := by
  cases i <;> exact ⟨rfl, rfl, rfl, rfl, rfl⟩

theorem HlyHdr.fits_fields {h : HlyHdr} (hw : h.wf = true) {code : Nat} (hc : code < 2 ^ 16) : fits (h.fields code) = true := by
  simp only [HlyHdr.wf, fits, Bool.and_eq_true, List.all_append, List.all_cons, decide_eq_true_eq] at hw
  obtain ⟨-, ⟨hreserved, hseq, htarget, hlen, haddr, -⟩, -⟩ := hw
  simp only [HlyHdr.fields, fits, List.all_cons, List.all_nil, Bool.and_eq_true, decide_eq_true_eq, and_true]
  exact ⟨hc, Bool.toNat_lt _, Bool.toNat_lt _, Bool.toNat_lt _, Bool.toNat_lt _, hreserved, hseq, htarget, hlen, haddr⟩

/-- The header reads back. -/
theorem readHeader_descriptor {i : Instr} {h : HlyHdr} (hw : h.wf = true) : readHeader (i.brought h) (i.descriptor h) = h := by
  obtain ⟨hsrc, hhop, hports, hin, hout⟩ := i.brought_header h
  have hu : unpackBits headWidths (i.descriptor h) = (h.fields i.code).map Prod.fst :=
    unpackBits_packBits i.params (h.fits_fields hw i.code_lt)
  simp only [readHeader, hu, HlyHdr.fields, List.map_cons, List.map_nil, hsrc, hhop, hports, hin, hout]
  simp

/-! ### The commands, by class (R455) -/

/-- The command that a code and the bits of its parameters spell. -/
def readBody (c : Brought) (h : HlyHdr) (code p : Nat) : Option Instr :=
  match code / 256 with
  | 0x00 => readGeneral c h code p
  | 0x01 => readPower c h code p
  | 0x02 => readPorts c h code p
  | 0x03 => readLinks c h code p
  | 0x04 => readRouting c h code p
  | 0x05 => readContracts c h code p
  | 0x06 => readSwitch c h code p
  | 0x07 => readPools c h code p
  | 0x08 => readDirectory c h code p
  | 0x09 => readEngines c h code p
  | 0x0A => readCollectives c h code p
  | 0x0B => readInstances c h code p
  | 0x0C => readProtection c h code p
  | 0x0D => readFaults c h code p
  | 0x0E => readObservation c h code p
  | 0x0F => readBoot c h code p
  | _ => none

/-- A descriptor reads as its code and the bits above its header spell. -/
theorem readDescriptor_descriptor {i : Instr} {h : HlyHdr} (hw : h.wf = true) :
    readDescriptor (i.brought h) (i.descriptor h) = readBody (i.brought h) h i.code (packBits i.params) := by
  have hcode : i.descriptor h % 2 ^ 16 = i.code := by
    rw [Instr.descriptor, HlyHdr.fields, List.cons_append, packBits, Nat.add_mul_mod_self_left, Nat.mod_mod, Nat.mod_eq_of_lt i.code_lt]
  have hp : i.descriptor h / 2 ^ 160 = packBits i.params := packBits_append_div (h.fields i.code) i.params
  simp only [readDescriptor, hcode, hp, readHeader_descriptor hw]
  rfl

/-- The parameters of a command spell the command, in the fields that hold them. -/
def Instr.Reads (i : Instr) : Prop :=
  ∀ (h : HlyHdr) (p : Nat), i.header = some h → i.slotsOk = true → unpackBits (i.params.map Prod.snd) p = i.params.map Prod.fst →
    readBody (i.brought h) h i.code p = some i

/-- A list of at most eight entries, filled up with a mark that it does not hold, is what is left without the mark (R48, R158). -/
theorem filter_slots {l : List Nat} {x : Nat} (hl : l.length ≤ 8) (h : l.all (· != x) = true) :
    ((List.range 8).map fun k => l.getD k x).filter (· != x) = l := by
  have hfill : ((List.range 8).map fun k => l.getD k x) = l ++ List.replicate (8 - l.length) x := by
    refine List.ext_getElem (by simp; omega) fun k h1 h2 => ?_
    by_cases hk : k < l.length
    · simp [hk]
    · simp [hk, List.getElem_append_right (Nat.le_of_not_lt hk)]
  have hkeep : l.filter (· != x) = l := List.filter_eq_self.mpr fun a ha => List.all_eq_true.mp h a ha
  rw [hfill, List.filter_append, hkeep]
  simp

/-- Every Halyard command spells itself; an event has no descriptor. -/
theorem Instr.reads (i : Instr) : i.Reads := by
  intro h p hh hs hp
  cases i
  case nop | deviceQuery | hostLinkSet =>
    cases hh
    simp_all [Instr.params, Instr.code, readBody, readGeneral]
  case modeSet | pwrSet | pwrQuery | pwrCapture | slotSet | slotPower | slotQuery =>
    cases hh
    simp_all [Instr.params, Instr.code, readBody, readPower, ChanSet.params]
  case portModeSet | laneSet | laneSpare | laneTest | laneQuery =>
    cases hh
    simp_all [Instr.params, Instr.code, readBody, readPorts]
  case trnSet | contextPin | faultInject | linkQuery | trnQuery =>
    cases hh
    simp_all [Instr.params, Instr.code, readBody, readLinks]
  case routeWrite | routeEpochAdvance | routeEpochRetire | routePortSet | routePolicySet | routeEndpointSet | treeInstall | treeRemove | treeFence |
      holdSet | discover | idAssign =>
    cases hh
    simp_all [Instr.params, Instr.code, readBody, readRouting, Instr.brought]
  case contractModify | contractRemove | contractQuery | hopReserve | hopRelease | meterSet | portReserveSet | ftuSet =>
    cases hh
    simp_all [Instr.params, Instr.code, readBody, readContracts, ResvP.params]
  case bufferAccountSet | bufferPoolSet | auditSet | bufferReclaim | bufferQuery | egsLeafBind | egsLeafUnbind | egsNodeSet | egsQuery | arbSet |
      arbQuery =>
    cases hh
    simp_all [Instr.params, Instr.code, readBody, readSwitch]
  case poolLinkSet | extentUnbind | importMap | extentZero | extentQuery | functionBind | functionUnbind | slotRemove | hbmPartitionSet =>
    cases hh
    simp_all [Instr.params, Instr.code, readBody, readPools, ImportP.params]
  case cohAgentAdd | cohAgentRemove | cohWindowCreate | cohWindowAgents | cohWindowMap | cohWindowDestroy | dirSet | dirQuery =>
    cases hh
    simp_all [Instr.params, Instr.code, readBody, readDirectory]
  case queueCreate | queueDestroy | queueMove | queueRestart | regionSet | engInstanceSet | engSet | lockBreak | engQuery =>
    cases hh
    simp_all [Instr.params, Instr.code, readBody, readEngines, QueueP.params, RegionP.params]
  case collGroupRemove | collFence | collQuery =>
    cases hh
    simp_all [Instr.params, Instr.code, readBody, readCollectives]
  case instanceCreate | instanceSet | instanceReset | instanceDisable | dirtyLogSet | dirtyLogSwap | instanceQuery =>
    cases hh
    simp_all [Instr.params, Instr.code, readBody, readInstances, Instr.brought]
  case mpuRulesSet | mpuSwap | mpuQuery | debugUnlock | icuSet | icuQuery =>
    cases hh
    simp_all [Instr.params, Instr.code, readBody, readProtection, Instr.brought]
  case faultSet | faultForce | faultClear | faultQuery | spareSwap | spareQuery | backgroundSet =>
    cases hh
    simp_all [Instr.params, Instr.code, readBody, readFaults]
  case ttcSet | dumpSet | probeSet | probeQuery | mtrSet =>
    cases hh
    simp_all [Instr.params, Instr.code, readBody, readObservation, Instr.brought]
  case fwWrite | fwActivate | deviceReset | fabricLeave =>
    cases hh
    simp_all [Instr.params, Instr.code, readBody, readBoot, Instr.brought]
  case inbandSet serials _ _ _ =>
    cases hh
    match serials, hs with
    | [a, b, c, d], _ => simp_all [Instr.params, Instr.code, readBody, readGeneral, List.range, List.range.loop]
  case linkSet shares =>
    cases hh
    match shares, hs with
    | [a, b, c, d, e, f, g], _ => simp_all [Instr.params, Instr.code, readBody, readLinks, wide]
  case contractRouteSet groups =>
    cases hh
    match groups, hs with
    | [a, b, c, d], _ => simp_all [Instr.params, Instr.code, readBody, readRouting, wide]
  case extentBind b =>
    cases hh
    simp_all [Instr.params, Instr.code, readBody, readPools, BindP.params, Instr.brought]
  case collGroupSet g =>
    cases hh
    simp_all [Instr.params, Instr.code, readBody, readCollectives, GroupP.params, Instr.brought]
  case contractInstall c =>
    cases hh
    simp only [Instr.params, ContractP.params, List.range, List.range.loop, List.map_cons, List.map_nil, List.cons_append, List.nil_append] at hp
    simp only [Instr.slotsOk, ContractP.slotsOk] at hs
    by_cases ht : c.destType = 3
    · simp only [if_pos ht, Bool.and_eq_true, decide_eq_true_eq] at hs hp
      have hdest := filter_slots hs.1 hs.2
      simp only [List.range, List.range.loop, List.map_cons, List.map_nil] at hdest
      simp only [readBody, Instr.code, readContracts, hp, if_pos ht, hdest]
      simp
    · simp only [if_neg ht, beq_iff_eq] at hs hp
      obtain ⟨a, ha⟩ := List.length_eq_one_iff.mp hs
      have hdest : [c.dest.getD 0 0] = c.dest := by rw [ha]; rfl
      simp only [readBody, Instr.code, readContracts, hp, if_neg ht, hdest]
      simp
  all_goals cases hh

/-! ### The statement -/

/-- Settles O54: the header reads back, the code chooses the command's layout, and the fields of that layout read back. -/
theorem descriptorsReadBack : Obligations.DescriptorsReadBack := by
  unfold Obligations.DescriptorsReadBack
  intro i h hh hw
  simp only [Instr.wf, hh, Option.all_some, Bool.and_eq_true] at hw
  obtain ⟨⟨⟨hhdr, hparams⟩, -⟩, hslots⟩ := hw
  have hu : unpackBits (i.params.map Prod.snd) (packBits i.params) = i.params.map Prod.fst := by
    simpa using unpackBits_packBits [] hparams
  rw [readDescriptor_descriptor hhdr]
  exact i.reads h _ hh hslots hu

end Sys2Proof
end

section
/-! The general commands of Halyard (R434, R456, R457, R465, R69). -/
namespace Sys2Proof.Machine

@[simp] theorem State.fetchCmd_deviceImage (s : State) (h : HlyHdr) : (s.fetchCmd h).deviceImage = s.deviceImage := by
  cases h with | mk src => cases src <;> rfl

theorem State.deviceImage_length (s : State) : s.deviceImage.length = 64 := by
  rw [State.deviceImage]
  split <;> simp [outBytes_length]

/-- INBAND_SET of every setting (R465), within the range in which a message is timed out before it is given up. -/
theorem inbandSetBody_ok {cm : Nat} {accept : Bool} {count timeout retries hold : Nat} {serials : List Nat} (s : State) (hcount : count ≤ 4)
    (ht : 1 ≤ timeout) (ht' : timeout ≤ 1000) (hr : 1 ≤ retries) (hr' : retries ≤ 15) (hh : 1 ≤ hold) (hh' : hold ≤ 100)
    (hsum : timeout * (retries + 1) < 1000 * hold) (hcm : ∀ i, i < 6 → cmBit cm i = true) :
    inbandSetBody cm accept count serials timeout retries hold s = .ok (s.upHly fun x => { x with
      trustedOnly := accept, trusted := serials.take count, inbandTimeout := timeout, inbandRetries := retries, inbandHold := hold }) := by
  have h0 := hcm 0 (by decide); have h1 := hcm 1 (by decide); have h2 := hcm 2 (by decide)
  have h3 := hcm 3 (by decide); have h4 := hcm 4 (by decide); have h5 := hcm 5 (by decide)
  simp only [inbandSetBody, pick, h0, h1, h2, h3, h4, h5, if_true]
  exact refuseIf_none _ _ (by simp [outside_eq_false, *])

/-- HOST_LINK_SET that keeps the window (R434, R456). -/
theorem hostLinkSetBody_ok {s : State} {link cm windowLog2 releaseTimeout : Nat} (hname : s.namesHostLink link = true) (hlink : link ≤ 31)
    (hcm : cmBit cm 0 = false) (ht : releaseTimeout ≤ 60) :
    hostLinkSetBody link cm windowLog2 releaseTimeout s = .ok (s.upHostLink link fun l => { l with
      windowLog2 := pick cm 0 windowLog2 l.windowLog2, releaseTimeout := pick cm 1 releaseTimeout l.releaseTimeout }) := by
  simp only [hostLinkSetBody, hcm, if_false, Bool.false_eq_true]
  exact refuseIf_none _ _ (by simp [hname, hlink, ht])

/-- FTU_SET that keeps the role of the device (R69). -/
theorem ftuSetBody_ok {s : State} {cm parentPort syncPeriod : Nat} {grandmaster ppsIn ppsOut : Bool} (hcm : cmBit cm 0 = false)
    (hp : 1 ≤ syncPeriod) (hp' : syncPeriod ≤ 1000) (hport : parentPort ≤ 31) (hnative : s.isNative parentPort = true)
    (hgm : s.ftu.grandmaster = true) :
    ftuSetBody cm grandmaster parentPort syncPeriod ppsIn ppsOut s = .ok (s.upFtu fun f => { f with
      grandmaster := true, ppsIn := pick cm 3 ppsIn s.ftu.ppsIn, ppsOut := pick cm 4 ppsOut f.ppsOut
      parentPort := pick cm 1 parentPort f.parentPort, parentSet := f.parentSet || cmBit cm 1
      syncPeriod := pick cm 2 syncPeriod f.syncPeriod, depth := 0, ppsLocked := f.ppsLocked && pick cm 3 ppsIn s.ftu.ppsIn }) := by
  have hrole : pick cm 0 grandmaster s.ftu.grandmaster = true := by simp [pick, hcm, hgm]
  simp only [ftuSetBody, hrole, hcm]
  exact refuseIf_none _ _ (by simp [outside_eq_false, *])

/-- Settles O1: each command's body completes with the registers that it names. -/
theorem generalCommandsComplete : Obligations.GeneralCommandsComplete := by
  unfold Obligations.GeneralCommandsComplete
  refine ⟨?nop, ?device, ?inband, ?hostLink, ?ftu⟩
  case nop =>
    intro s h hr
    exact answers_of hr rfl (Nat.zero_le _)
  case device =>
    intro s h hr
    have hlen := s.deviceImage_length
    exact ⟨answers_of hr (by rw [State.fetchCmd_deviceImage]) (hlen ▸ runs_outLen_le hr), hlen⟩
  case inband =>
    intro s h cm accept count serials timeout retries hold hr hcount ht ht' hre hre' hh hh' hsum hcm
    exact ⟨_, answers_of hr (inbandSetBody_ok _ hcount ht ht' hre hre' hh hh' hsum hcm) (Nat.zero_le _), rfl, rfl, rfl, rfl, rfl, by simp⟩
  case hostLink =>
    intro s h link cm windowLog2 releaseTimeout hr hname hlink hcm ht
    obtain ⟨f, hans⟩ := answers_taken hr fun f => hostLinkSetBody_ok (s := s.upHly f) (windowLog2 := windowLog2) hname hlink hcm ht
    exact ⟨_, hans, by simp [State.hostLink, State.upHostLink], by simp [State.hostLink, State.upHostLink, pick, hcm], rfl⟩
  case ftu =>
    intro s h cm grandmaster parentPort syncPeriod ppsIn ppsOut hr hcm hp hp' hport hnative hgm
    obtain ⟨f, hans⟩ := answers_taken hr fun f => ftuSetBody_ok (s := s.upHly f) (grandmaster := grandmaster) (ppsIn := ppsIn)
      (ppsOut := ppsOut) hcm hp hp' hport hnative hgm
    exact ⟨_, hans, rfl, rfl, rfl, rfl, hgm.symm, rfl, rfl, rfl⟩

end Sys2Proof.Machine
end

section
/-! The power commands (R506, R508, R515). -/
namespace Sys2Proof.Machine

/-! ### Channels -/

theorem State.chan_upChan (s : State) (c d : Nat) (f : Chan → Chan) : (s.upChan c f).chan d = if d = c then f (s.chan c) else s.chan d :=
  Tbl.get_upd ..

@[simp] theorem State.chan_upChan_self (s : State) (c : Nat) (f : Chan → Chan) : (s.upChan c f).chan c = f (s.chan c) := Tbl.get_upd_self ..

@[simp] theorem State.upHly_chan (s : State) (f : Hly → Hly) (c : Nat) : (s.upHly f).chan c = s.chan c := rfl

@[simp] theorem State.upHly_chanSet (s : State) (f : Hly → Hly) (c : Nat) : (s.upHly f).chanSet c = s.chanSet c := rfl

@[simp] theorem State.fetchCmd_chan (s : State) (h : HlyHdr) (c : Nat) : (s.fetchCmd h).chan c = s.chan c := by simp [State.chan]

@[simp] theorem State.fetchCmd_chanImage (s : State) (h : HlyHdr) (c : Nat) : (s.fetchCmd h).chanImage c = s.chanImage c := by
  simp [State.chanImage, State.chanSet]

@[simp] theorem State.upPwr_chan (s : State) {f : Pwr → Pwr} (h : (f s.pwr).chans = s.pwr.chans) (c : Nat) : (s.upPwr f).chan c = s.chan c := by
  simp [State.chan, h]

@[simp] theorem State.settlePower_chan (s : State) (had c : Nat) : (s.settlePower had).chan c = s.chan c := by simp [State.chan]

@[simp] theorem State.upDown_chan (s : State) (p c : Nat) (f : Downstream → Downstream) : (s.upDown p f).chan c = s.chan c := by simp [State.chan]

@[simp] theorem State.powerEvent_chan (s : State) (code c : Nat) : (s.powerEvent code).chan c = s.chan c := by simp [State.chan]

@[simp] theorem State.powerFlags_chan (s : State) (code c : Nat) : (s.powerFlags code).chan c = s.chan c := by simp [State.chan]

@[simp] theorem State.upChan_mode (s : State) (c : Nat) (f : Chan → Chan) : (s.upChan c f).pwr.mode = s.pwr.mode := rfl

/-- Settings given are the settings in force, whether or not they are kept as given (R516). -/
theorem State.chanSet_upChan (s : State) (c : Nat) (f : Chan → Chan) (n : ChanSet)
    (hf : (f (s.chan c)).set_ = if n = s.chanSet c then (s.chan c).set_ else some n) : (s.upChan c f).chanSet c = n := by
  rw [State.chanSet, State.chan_upChan_self, hf]
  split
  · next hn => rw [hn, State.chanSet]
  · rfl

/-! ### The commands of power and slots -/

/-- MODE_SET to storm jib begins by suspending green packets (R508). -/
theorem modeSetBody_storm {s : State} {reefForm : Nat} (force : Bool) (hreef : reefForm ≤ 1) (hchange : s.pwr.change = none)
    (hmode : s.pwr.mode = .fullSail ∨ s.pwr.mode = .reefed) :
    modeSetBody 2 reefForm force s = .pend ((s.upPwr fun w => { w with
      change := some { target := .stormJib, reefForm, force, draining := true } }).upAdm fun a => { a with stormSuspend := true })
      .modeChange [.device] := by
  have hstorm : s.pwr.mode ≠ .stormJib ∧ s.pwr.mode ≠ .barePoles := by rcases hmode with h | h <;> simp [h]
  rw [modeSetBody, refuseIf_none _ _ (by simp [hreef, hchange]), if_neg (by simpa [modeOf] using hstorm.1.symm), if_neg hstorm.2,
    refuseIf_none _ _ (by simp)]
  simp [modeOf, State.beginMode, State.changeRes]

/-- The settings of PWR_SET, without the rearming of a feed (R515, R516). -/
def State.pwrSettings (s : State) (feed cm : Nat) (set : ChanSet) (windowMs wakeGpio sleepIdle powerOffIdle : Nat) : State :=
  let n := mergeSet cm 0 set (s.chanSet feed)
  (s.upChan feed fun x => { x with set_ := if n = s.chanSet feed then x.set_ else some n }).upPwr fun w => { w with
    windowMs := pick cm 8 windowMs w.windowMs, wakeGpio := pick cm 9 wakeGpio w.wakeGpio
    sleepIdle := pick cm 10 sleepIdle w.sleepIdle, powerOffIdle := pick cm 11 powerOffIdle w.powerOffIdle }

theorem State.pwrSettings_chanSet (s : State) (feed cm : Nat) (set : ChanSet) (windowMs wakeGpio sleepIdle powerOffIdle : Nat) :
    (s.pwrSettings feed cm set windowMs wakeGpio sleepIdle powerOffIdle).chanSet feed = mergeSet cm 0 set (s.chanSet feed) :=
  State.chanSet_upChan s feed (fun x => { x with
    set_ := if mergeSet cm 0 set (s.chanSet feed) = s.chanSet feed then x.set_ else some (mergeSet cm 0 set (s.chanSet feed)) }) _ rfl

theorem pwrSetBody_ok {s : State} {feed cm : Nat} {set : ChanSet} {rearm : Bool} {windowMs wakeGpio sleepIdle powerOffIdle : Nat}
    (hfeed : feed ≤ 1) (hset : chanSetBad feed (mergeSet cm 0 set (s.chanSet feed)) = false)
    (hrearm : cmBit cm 7 = true → rearm = true → (s.chan feed).state = .latchedOff ∧ s.pwr.thermTrip = false)
    (hlow : 1 ≤ windowMs) (hhigh : windowMs ≤ 1000) (hwake : wakeGpio ≤ 31 ∨ wakeGpio = 63) (hsleep : sleepIdle ≤ 1000)
    (hoff : powerOffIdle ≤ 10000) :
    pwrSetBody feed cm set rearm windowMs wakeGpio sleepIdle powerOffIdle s =
      .ok (if cmBit cm 7 && rearm then (s.pwrSettings feed cm set windowMs wakeGpio sleepIdle powerOffIdle).switchOff feed true
        else s.pwrSettings feed cm set windowMs wakeGpio sleepIdle powerOffIdle) := by
  have hgpio : (decide (31 < wakeGpio) && decide (wakeGpio ≠ 63)) = false := by
    rcases hwake with h | h <;> simp [h]
  have hgoes : cmBit cm 7 = false ∨ rearm = false ∨ (s.chan feed).state = .latchedOff ∧ s.pwr.thermTrip = false := by
    by_cases hc : cmBit cm 7 = true
    · by_cases hr : rearm = true
      · exact .inr (.inr (hrearm hc hr))
      · exact .inr (.inl (by simpa using hr))
    · exact .inl (by simpa using hc)
  exact refuseIf_none _ _ (by simp_all [outside_eq_false, Bool.and_assoc])

/-- PWR_CAPTURE of the test regime, on the channels of a mask (R504). -/
theorem find_foldl_test {b : Bool} {c : Nat} (l : List Nat) (t : Tbl Chan) :
    (l.foldl (fun (t : Tbl Chan) c => t.upd c {} fun x => { x with capture := { x.capture with test := b } }) t).get c {} =
      if c ∈ l then { t.get c {} with capture := { (t.get c {}).capture with test := b } } else t.get c {} := by
  induction l generalizing t with
  | nil => rfl
  | cons d l ih =>
    rw [List.foldl_cons, ih, Tbl.get_upd]
    by_cases hd : c = d
    · subst hd
      simp
    · simp [hd]

theorem pwrCaptureBody_test {s : State} {action mask : Nat} (channel first count : Nat) (haction : action ≤ 1) (hmask : mask < 2 ^ 34) :
    pwrCaptureBody action mask channel first count s = .ok (s.upPwr fun w => { w with
      chans := ((List.range 34).filter mask.testBit).foldl (fun (t : Tbl Chan) c =>
        t.upd c {} fun x => { x with capture := { x.capture with test := decide (action = 0) } }) w.chans }) := by
  unfold pwrCaptureBody
  rw [refuseIf_none _ _ (by simp; omega)]
  match action, haction with
  | 0, _ => rfl
  | 1, _ => rfl

theorem pwrCaptureBody_read {s : State} (mask : Nat) {channel first count : Nat} (hchannel : channel ≤ 33) (hcount : 1 ≤ count)
    (hlast : first + count ≤ 4096) :
    pwrCaptureBody 2 mask channel first count s =
      .data s (outBytes ((List.range count).map fun i => (8, (s.chan channel).records.getD (first + i) 0))) := by
  unfold pwrCaptureBody
  exact refuseIf_none _ _ (by simp [outside_eq_false hcount (show count ≤ 4096 by omega), hchannel, hlast])

/-- The settings of SLOT_SET, without what enabling and disabling do besides (R501, R515). -/
def State.slotSettings (s : State) (c cm : Nat) (enabled autoPower pginUse : Bool) (set : ChanSet) : State :=
  let n := mergeSet cm 3 set (s.chanSet c)
  s.upChan c fun x => { x with
    enabled, autoPower := pick cm 1 autoPower x.autoPower, pginUse := pick cm 2 pginUse x.pginUse
    present := x.present && enabled, set_ := if n = s.chanSet c then x.set_ else some n }

theorem slotSetBody_enabled {s : State} {slot cm : Nat} {enable autoPower pginUse : Bool} {set : ChanSet} (hslot : slot ≤ 31)
    (hset : chanSetBad (slot + 2) (mergeSet cm 3 set (s.chanSet (slot + 2))) = false) (hcm : cmBit cm 0 = true) (henable : enable = true)
    (hpresent : (s.chan (slot + 2)).present = false) :
    slotSetBody slot cm enable autoPower pginUse set s = .ok (s.slotSettings (slot + 2) cm true autoPower pginUse set) := by
  have hen : pick cm 0 enable (s.chan (slot + 2)).enabled = true := by simp [pick, hcm, henable]
  rw [slotSetBody, refuseIf_none _ _ (by simp [hslot, hset, hen])]
  simp [hen, hpresent, State.slotSettings]

theorem slotSetBody_disabled {s : State} {slot cm : Nat} {enable autoPower pginUse : Bool} {set : ChanSet} (hslot : slot ≤ 31)
    (hset : chanSetBad (slot + 2) (mergeSet cm 3 set (s.chanSet (slot + 2))) = false) (hcm : cmBit cm 0 = true) (henable : enable = false)
    (huse : s.slotInUse slot = false) :
    slotSetBody slot cm enable autoPower pginUse set s = .ok (
      let t := s.slotSettings (slot + 2) cm false autoPower pginUse set
      if (s.chan (slot + 2)).enabled then (t.switchOff (slot + 2) true).upDown (s.leadPort slot) fun d => { d with held := false, step := 0 }
      else t) := by
  have hen : pick cm 0 enable (s.chan (slot + 2)).enabled = false := by simp [pick, hcm, henable]
  rw [slotSetBody, refuseIf_none _ _ (by simp [hslot, hset, huse])]
  simp [hen, State.slotSettings]

theorem slotPowerBody_on {s : State} {slot : Nat} (force : Bool) (hslot : slot ≤ 31) (henabled : (s.chan (slot + 2)).enabled = true)
    (hstate : (s.chan (slot + 2)).state = .off ∨ (s.chan (slot + 2)).state = .latchedOff) (hheld : (s.downOf (s.leadPort slot)).held = false) :
    slotPowerBody slot true force s =
      .ok ((if (s.chan (slot + 2)).state = .latchedOff then s.switchOff (slot + 2) true else s).startRamp (slot + 2)) := by
  simp only [slotPowerBody]
  exact refuseIf_none _ _ (by rcases hstate with h | h <;> simp [hslot, henabled, h, hheld])

theorem slotPowerBody_off {s : State} {slot : Nat} (hslot : slot ≤ 31) (henabled : (s.chan (slot + 2)).enabled = true)
    (hstate : (s.chan (slot + 2)).state = .on ∨ (s.chan (slot + 2)).state = .ramping) (huse : s.slotInUse slot = false) :
    slotPowerBody slot false false s = .ok (s.switchOff (slot + 2) false) := by
  have hcool : decide ((s.chan (slot + 2)).state = .coolDown) = false := by rcases hstate with h | h <;> simp [h]
  simp only [slotPowerBody, hcool]
  exact refuseIf_none _ _ (by rcases hstate with h | h <;> simp [hslot, henabled, h, huse])

/-- A slot that is switched off is Off. -/
theorem State.switchOff_slot_state (s : State) {c : Nat} (hc : 2 ≤ c) (clear : Bool) : ((s.switchOff c clear).chan c).state = .off := by
  simp [State.switchOff, State.chanOff, Nat.not_lt.mpr hc]

/-- A feed that is switched off waits for its window (R491, R494). -/
theorem State.switchOff_feed (s : State) {c : Nat} (hc : c ≤ 1) :
    ((s.switchOff c true).chan c).attempts = 0 ∧
      ((s.switchOff c true).chan c).state = if (s.chan c).inWindow then .insertion else .off := by
  simp [State.switchOff, State.chanOff, show c < 2 by omega]

@[simp] theorem State.switchOff_chanSet (s : State) (c d : Nat) (clear : Bool) : (s.switchOff c clear).chanSet d = s.chanSet d := by
  rw [State.chanSet, State.chanSet, State.switchOff, State.settlePower_chan, State.chanOff, State.chan_upChan]
  split
  · next hd => rw [hd]
  · rfl

/-- Settles O2: what each body does, and the channel's fields in it. -/
theorem powerCommandsComplete : Obligations.PowerCommandsComplete := by
  unfold Obligations.PowerCommandsComplete
  refine ⟨?storm, ?pwrSet, ?pwrQuery, ?test, ?read, ?enabled, ?disabled, ?on, ?off, ?slotQuery⟩
  case storm =>
    intro s h reefForm force hr hreef hchange hmode
    exact ⟨_, starts_of hr (modeSetBody_storm force hreef (by simpa using hchange) (by simpa using hmode)), rfl, rfl, by simp, by simp⟩
  case pwrSet =>
    intro s h feed cm set rearm windowMs wakeGpio sleepIdle powerOffIdle hr hfeed hset hrearm hlow hhigh hwake hsleep hoff
    obtain ⟨f, hans⟩ := answers_taken hr fun f => pwrSetBody_ok (s := s.upHly f) hfeed hset hrearm hlow hhigh hwake hsleep hoff
    have hset' := (s.upHly f).pwrSettings_chanSet feed cm set windowMs wakeGpio sleepIdle powerOffIdle
    refine ⟨_, hans, ?_⟩
    by_cases hgo : (cmBit cm 7 && rearm) = true
    · obtain ⟨hcount, hstate⟩ := ((s.upHly f).pwrSettings feed cm set windowMs wakeGpio sleepIdle powerOffIdle).switchOff_feed hfeed
      rw [if_pos hgo]
      refine ⟨by rw [State.switchOff_chanSet, hset']; rfl, ?_, ?_, ?_, ?_, ?_, ?_, fun _ _ => ⟨hcount, ?_⟩⟩
      · simp [State.switchOff, State.chanOff, State.upChan, State.pwrSettings]
      · simp [State.switchOff, State.chanOff, State.upChan, State.pwrSettings]
      · simp [State.switchOff, State.chanOff, State.upChan, State.pwrSettings]
      · simp [State.switchOff, State.chanOff, State.upChan, State.pwrSettings]
      · simp [State.switchOff, State.chanOff, State.upChan, State.pwrSettings]
      · simp [State.switchOff, State.chanOff, State.upChan, State.pwrSettings]
      · rw [hstate]
        simp [State.pwrSettings]
    · rw [if_neg hgo]
      exact ⟨hset', rfl, rfl, rfl, rfl, rfl, rfl, fun hc hre => absurd (by simp [hc, hre]) hgo⟩
  case pwrQuery =>
    intro s h channel hr hchannel hlen
    exact answers_of hr (by rw [if_neg (by omega), State.fetchCmd_chanImage]) hlen
  case test =>
    intro s h action mask channel first count haction hmask hchannel hr hm
    replace hr : s.runs h 0x0104 0 (if action = 2 then 8 * count else 0) [] = true := by rwa [if_neg (by omega)]
    obtain ⟨f, hans⟩ := answers_taken hr fun f => pwrCaptureBody_test (s := s.upHly f) channel first count haction hmask
    have hin : channel ∈ (List.range 34).filter mask.testBit := by simp [hm, Nat.testBit_two_pow_self]; omega
    refine ⟨_, hans, ?_, ?_⟩ <;> simp [State.chan, find_foldl_test, hin]
  case read =>
    intro s h mask channel first count hchannel hcount hlast hr
    have hlen : (outBytes ((List.range count).map fun i => (8, (s.chan channel).records.getD (first + i) 0))).length = 8 * count := by
      simp [outBytes_length, Function.comp_def]; omega
    exact ⟨_, hlen, answers_of hr (by rw [pwrCaptureBody_read mask hchannel hcount hlast, State.fetchCmd_chan])
      (hlen ▸ runs_outLen_le hr), rfl⟩
  case enabled =>
    intro s h slot cm enable autoPower pginUse set hr hslot hset henabled hcm henable hpresent
    obtain ⟨f, hans⟩ := answers_taken hr fun f => slotSetBody_enabled (s := s.upHly f) (autoPower := autoPower) (pginUse := pginUse)
      hslot hset hcm henable hpresent
    exact ⟨_, hans, by simp [State.slotSettings], by simp [State.slotSettings], by simp [State.slotSettings],
      State.chanSet_upChan _ _ _ _ rfl, by simp [State.slotSettings], rfl⟩
  case disabled =>
    intro s h slot cm enable autoPower pginUse set hr hslot hset huse hcm henable
    obtain ⟨f, hans⟩ := answers_taken hr fun f => slotSetBody_disabled (s := s.upHly f) (autoPower := autoPower) (pginUse := pginUse)
      hslot hset hcm henable huse
    refine ⟨_, hans, ?_⟩
    cases hx : (s.chan (slot + 2)).enabled
    · simp [hx, State.slotSettings]
    · simp [hx, State.slotSettings, State.switchOff, State.chanOff]
  case on =>
    intro s h slot force hr hslot henabled hstate hheld
    obtain ⟨f, hans⟩ := answers_taken hr fun f => slotPowerBody_on (s := s.upHly f) force hslot henabled hstate hheld
    refine ⟨_, hans, by simp [State.startRamp], ?_⟩
    split <;> simp [State.startRamp, State.switchOff, State.chanOff, State.upChan]
  case off =>
    intro s h slot hr hslot henabled hstate huse
    obtain ⟨f, hans⟩ := answers_taken hr fun f => slotPowerBody_off (s := s.upHly f) hslot henabled hstate huse
    exact ⟨_, hans, State.switchOff_slot_state _ (by omega) _, by simp [State.switchOff, State.chanOff, State.upChan]⟩
  case slotQuery =>
    intro s h slot hr hslot hlen
    exact answers_of hr (by rw [if_neg (by omega), State.fetchCmd_chanImage, State.fetchCmd_chan]) (by simpa [outBytes_length] using hlen)

end Sys2Proof.Machine
end

section
/-! The channel of a feed through the end of a step, and an end of qualification that does not leave Qualifying (R496). -/
namespace Sys2Proof.Machine

/-! ### What the end of a step leaves of the channels: the actions of faults, holds and modes do not set the state of a feed -/

theorem State.pwr_of_but {l : List Block} {s t : State} (h : t.but l = s.but l) (hl : .pwr ∉ l) : t.pwr = s.pwr :=
  (State.but_eq_iff.mp h).2 .pwr hl

@[simp] theorem State.modeReply_chans (s : State) : s.modeReply.pwr.chans = s.pwr.chans := by simp [State.modeReply]

@[simp] theorem State.enterStorm_chans (s : State) : s.enterStorm.pwr.chans = s.pwr.chans := by simp [State.enterStorm]

@[simp] theorem State.modeDone_chans (s : State) : s.modeDone.pwr.chans = s.pwr.chans := by
  rw [State.modeDone]
  (repeat' split) <;> simp

@[simp] theorem State.modeStepDone_chans (s : State) (p : Nat) : (s.modeStepDone p).pwr.chans = s.pwr.chans := by
  rw [State.modeStepDone]
  (repeat' split) <;> simp

/-- The parts other than the power block. -/
def notPower : List Block := everyPart.filter (· ≠ .pwr)

@[simp] theorem mem_notPower (b : Block) : b ∈ notPower ↔ b ≠ .pwr := by simp [notPower]

/-- What changes parts other than the power block leaves it. -/
theorem State.pwr_of_but_notPower {s t : State} (h : t.but notPower = s.but notPower) : t.pwr = s.pwr :=
  State.pwr_of_but h (by simp)

theorem State.containNative_chans (s : State) (p : Nat) : (s.containNative p).pwr.chans = s.pwr.chans := by
  have hq : ∀ (t : State) (bs : List BufPkt), (bs.foldl State.freeQueued t).but notPower = t.but notPower :=
    fun t bs => foldl_but (fun s b => by simp) bs t
  rw [State.containNative, State.modeStepDone_chans]
  refine congrArg Pwr.chans (State.pwr_of_but_notPower ?_)
  split <;> simp [hq]

theorem State.containPort_chans (s : State) (p : Nat) : (s.containPort p).pwr.chans = s.pwr.chans := by
  have hm : ∀ qs : List Nat, (qs.foldl (fun s q => s.upPort q fun x => { x with contained := true }) s).pwr = s.pwr :=
    fun qs => State.pwr_of_but_notPower (foldl_but (fun s q => by simp) qs s)
  have hi : ∀ (t : State) (is : List Nat), (is.foldl State.containInst t).pwr = t.pwr :=
    fun t is => State.pwr_of_but_notPower (foldl_but (fun s i => by simp) is t)
  have hd : ∀ (t : State) (q : Nat), (t.disableLink q).pwr = t.pwr := fun t q => State.pwr_of_but_notPower (by simp)
  have hr : ∀ (t : State) (q : Nat), (t.surpriseRemoval q).pwr = t.pwr := fun t q => State.pwr_of_but_notPower (by simp)
  rw [State.containPort]
  split
  · rfl
  · dsimp only
    (repeat' split) <;> simp [State.containNative_chans, hm, hi, hd, hr]

theorem State.halt_chans (s : State) : s.halt.pwr.chans = s.pwr.chans := by
  have ha : ∀ t : State, (t.abandonAll 0x0503 true).pwr = t.pwr := fun t => State.pwr_of_but_notPower (by simp)
  rw [State.halt]
  split
  · rfl
  · dsimp only
    rw [State.pwr_of_but_notPower (foldl_but (fun s p => ?_) _ _)]
    · simp [ha]
    · (repeat' split) <;> simp

theorem State.act_chans (s : State) (src sev : Nat) (subj : Subject) : (s.act src sev subj).pwr.chans = s.pwr.chans := by
  have hd : ∀ (src : Nat) (subj : Subject), (s.degrade src subj).pwr = s.pwr := fun _ _ => State.pwr_of_but_notPower (by simp)
  have hi : ∀ i : Nat, (s.containInst i).pwr = s.pwr := fun _ => State.pwr_of_but_notPower (by simp)
  unfold State.act
  (repeat' split) <;> simp [State.halt_chans, State.containPort_chans, hd, hi]

theorem State.runActions_chans (s : State) (fuel : Nat) : (s.runActions fuel).pwr.chans = s.pwr.chans := by
  induction fuel generalizing s with
  | zero => rfl
  | succ fuel ih =>
    rw [State.runActions]
    split
    · simp [State.halt_chans]
    · split
      · rfl
      · simp [ih, State.act_chans]

/-- A slot that may be powered is not a feed. -/
theorem State.presencePower_feed (s : State) (n : Nat) : (s.presencePower n).chan 0 = s.chan 0 := by
  rw [State.presencePower]
  dsimp only
  (repeat' split) <;> simp [State.startRamp, State.chan_upChan]

theorem State.settleHeld_feed (s : State) : s.settleHeld.chan 0 = s.chan 0 :=
  foldl_keeps (fun t : State => t.chan 0) (fun t p => by simp [State.presencePower_feed]) _ s

theorem State.settleBare_chans (s : State) : s.settleBare.pwr.chans = s.pwr.chans := by
  rw [State.settleBare]
  split
  · exact State.modeReply_chans s
  · rfl

theorem State.settle_feed (s : State) : s.settle.chan 0 = s.chan 0 := by
  have hb : ∀ t : State, t.sendAbandons.pwr = t.pwr := fun t => State.pwr_of_but_notPower (by simp)
  have hd : ∀ t : State, t.settleDestroys.pwr = t.pwr := fun t => State.pwr_of_but_notPower (by simp)
  have hl : ∀ t : State, t.settleLeave.pwr = t.pwr := fun t => State.pwr_of_but_notPower (by simp)
  have hheld := State.settleHeld_feed s.actAll.sendAbandons.actAll.settleDestroys
  rw [State.chan, State.chan] at hheld ⊢
  rw [State.settle, State.settleBare_chans, hl, hheld, hd, State.actAll, State.runActions_chans, hb, State.actAll, State.runActions_chans]

/-! ### The counterexample: a feed whose auxiliary input is used -/

/-- Feed 0 qualifies and is set to use the auxiliary power-good input, which no command sets on a feed. -/
def feedWithInput : State := State.reset.upChan 0 fun x => { x with state := .qualifying, pginUse := true }

/-- Refutes O3: the clause of QUALIFICATION_DONE lets a feed come On with a low auxiliary input; the event withholds power-good from any
channel that uses the input. -/
theorem not_channelEventsTakeEffect : ¬ Obligations.ChannelEventsTakeEffect := by
  unfold Obligations.ChannelEventsTakeEffect
  rintro ⟨-, -, -, -, -, -, -, -, -, hgood, -⟩
  have hchan : feedWithInput.chan 0 = { state := .qualifying, pginUse := true } := by decide
  obtain ⟨u, hu, hon, -⟩ := hgood feedWithInput 0 false (by decide) (by rw [hchan]) (by rw [hchan]) (.inl (by decide))
  have hstep : exec (.qualificationDone 0 false) feedWithInput = .next feedWithInput.settle := rfl
  have hsettle : u.settle = feedWithInput.settle := (Host.Outcome.next.inj (hstep.symm.trans hu)).symm
  have hfeed : u.chan 0 = feedWithInput.chan 0 := by rw [← State.settle_feed u, hsettle, State.settle_feed]
  rw [hfeed, hchan] at hon
  exact absurd hon (by decide)

end Sys2Proof.Machine
end

section
/-! Slots, captures, domains and modes (R501 to R514). -/
namespace Sys2Proof.Machine

/-! ### What an answer leaves of the commands in progress -/

@[simp] theorem State.noteStatus_progress (s : State) (st : Nat) : (s.noteStatus st).hly.progress = s.hly.progress := by
  rw [State.noteStatus]
  (repeat' split) <;> simp

@[simp] theorem State.writeReply_progress (s : State) (r : Reply) : (s.writeReply r).hly.progress = s.hly.progress := by
  cases hs : r.src with
  | host q =>
    simp only [State.writeReply, hs, State.ringReply]
    (repeat' split) <;> simp [State.upHq]
  | inband o q n d => simp [State.writeReply, hs]
  | board => simp [State.writeReply, hs]

@[simp] theorem State.complete_progress (s : State) (src : CmdSrc) (seq code : Nat) (i e : Bool) (st r : Nat) (o : List Nat) :
    (s.complete src seq code i e st r o).hly.progress = s.hly.progress := by simp [State.complete]

/-- The one command in progress is finished. -/
theorem State.finish_only {s : State} {g : Prog} {p : Prog → Bool} (st r : Nat) (hp : s.hly.progress = [g]) (hg : p g = true) :
    (s.finish p st r).hly.progress = [] := by
  have ht : takeFirst p s.hly.progress = some (g, []) := by simp [hp, takeFirst, hg]
  simp only [State.finish, ht]
  split <;> simp

/-! ### Domains (R512, R513) -/

@[simp] theorem State.domain_upDomain_self (s : State) (d : Nat) (f : Domain → Domain) : (s.upDomain d f).domain d = f (s.domain d) :=
  Tbl.get_upd_self ..

/-- Packets handed over are outputs, the latest first. -/
theorem State.foldl_handed (ps : List Packet) (s : State) :
    ps.foldl (fun s p => s.emit (.handed p)) s = { s with out := (ps.map Out.handed).reverse ++ s.out } := by
  induction ps generalizing s with
  | nil => rfl
  | cons p ps ih =>
    rw [List.foldl_cons, ih]
    simp [State.emit]

/-- No command waits for the domains. -/
theorem State.domainsReady_idle {s : State} (h : s.hly.progress = []) : s.domainsReady = s := by
  rw [State.domainsReady, h]
  split <;> rfl

/-! ### Ports that L1 leaves as they are (R509) -/

theorem State.hostLinksL1_port (s : State) (on : Bool) (p : Nat) :
    ((s.hostLinksL1 on).port p).mode = (s.port p).mode := by
  simp only [State.hostLinksL1, State.port, State.upPrt_prt, Tbl.get, Tbl.find_mapv]
  cases Tbl.find s.prt.ports p <;> rfl

/-- Which links are up is read from the link layer and the modes of the ports. -/
theorem State.upPorts_congr {s t : State} (hl : t.lnk = s.lnk) (hm : ∀ p, (t.port p).mode = (s.port p).mode) : t.upPorts = s.upPorts := by
  have hup : ∀ p, t.linkUp p = s.linkUp p := fun p => by
    simp only [State.linkUp, State.isNative, State.lport, hm, hl]
    rfl
  simp only [State.upPorts, funext hup]

@[simp] theorem State.hostLinksL1_upPorts (s : State) (on : Bool) : (s.hostLinksL1 on).upPorts = s.upPorts :=
  State.upPorts_congr rfl (s.hostLinksL1_port on)

@[simp] theorem State.hostLinksL1_blocks (s : State) (on : Bool) :
    (s.hostLinksL1 on).pwr = s.pwr ∧ (s.hostLinksL1 on).ftu = s.ftu ∧ (s.hostLinksL1 on).adm = s.adm ∧ (s.hostLinksL1 on).lnk = s.lnk :=
  ⟨rfl, rfl, rfl, rfl⟩

/-! ### Storm jib (R508, R509) -/

/-- With no link up, a drained change enters storm jib. -/
theorem State.stormSteps_noLinks {s : State} {c : ModeChange} (hc : s.pwr.change = some c) (ht : c.target = .stormJib) (hd : c.draining = false)
    (hup : s.upPorts = []) :
    s.stormSteps.pwr.mode = .stormJib ∧ s.stormSteps.pwr.change = none ∧ s.stormSteps.pwr.modeLeft = s.pwr.mode ∧
      s.stormSteps.masthead = some (s.ftu.time / 16 * 16) := by
  simp [State.stormSteps, hup, State.stepPorts, State.modeDone, hc, ht, hd, State.enterStorm, State.modeReply]

/-- With no link up, waking from storm jib leaves it for the mode it was entered from. -/
theorem State.wake_noLinks {s : State} (hc : s.pwr.change = none) (hm : s.pwr.mode = .stormJib) (hup : s.upPorts = []) :
    s.wake.pwr.mode = s.pwr.modeLeft ∧ s.wake.masthead = none ∧ s.wake.ftu.time = max s.ftu.time (s.masthead.getD s.ftu.time) := by
  have hnone : ∀ t : State, t.lnk = s.lnk → t.prt = (s.hostLinksL1 false).prt → t.upPorts = [] := fun t hl hp =>
    (State.upPorts_congr hl fun p => by rw [State.port, hp]; exact State.hostLinksL1_port s false p).trans hup
  rw [State.wake, if_neg (by simp [hc]), if_pos hm]
  dsimp only
  have hfold : ∀ t : State, t.upPorts = [] → t.upPorts.foldl State.wakePort t = t := fun t ht => by rw [ht]; rfl
  rw [hfold]
  · exact ⟨rfl, rfl, rfl⟩
  · exact hnone _ rfl rfl

/-! ### Presence (R288, R290, R501) -/

@[simp] theorem State.presenceFlag_chan (s : State) (slot c : Nat) : (s.presenceFlag slot).chan c = s.chan c := by
  simp [State.presenceFlag, State.chan, State.latchSrc]

theorem State.presencePower_present (s : State) (slot c : Nat) : ((s.presencePower slot).chan c).present = (s.chan c).present := by
  rw [State.presencePower]
  dsimp only
  (repeat' split) <;> simp [State.startRamp, State.chan_upChan]
  split <;> simp_all

theorem State.presenceSeen_present (s : State) (slot : Nat) : ((s.presenceSeen slot).chan (slot + 2)).present = true := by
  rw [State.presenceSeen]
  split <;> simp [State.presencePower_present]

/-- Presence that is lost takes a slot's channel to no presence and no attempts; a ramp ends (R290, R494). -/
theorem State.presenceGone_chan {s : State} (slot port : Nat) (hport : s.isDownstream (s.leadPort port) = false) :
    (((s.presenceGone slot port).chan (slot + 2)).present = false ∧ ((s.presenceGone slot port).chan (slot + 2)).attempts = 0) ∧
      ((s.chan (slot + 2)).state = .ramping → ((s.presenceGone slot port).chan (slot + 2)).state = .off) := by
  have hflag : ∀ t : State, t.prt = s.prt → (t.presenceFlag slot).isDownstream ((t.presenceFlag slot).leadPort port) = false := fun t ht => by
    have hprt : (t.presenceFlag slot).prt = s.prt := by simp [State.presenceFlag, State.latchSrc, ht]
    simp only [State.isDownstream, State.leadPort, State.port, hprt]
    exact hport
  rw [State.presenceGone]
  have hlast : ∀ t : State, t.prt = s.prt →
      (if t.pwr.mode = .barePoles then t.upPwr fun w => { w with recorded := addOnce w.recorded (4096 + slot) }
        else
          let t := t.presenceFlag slot
          let p := t.leadPort port
          if t.isDownstream p && decide (0 < (t.downOf p).step) then t.surpriseRemoval p else t).chan (slot + 2) =
        t.chan (slot + 2) := fun t ht => by
    split
    · simp
    · dsimp only
      rw [hflag t ht, Bool.false_and, if_neg Bool.false_ne_true]
      simp
  rw [hlast _ (by split <;> simp)]
  split
  · simp [State.chanOff]
  · simp_all

/-- Settles O4. -/
theorem slotAndDomainEventsTakeEffect : Obligations.SlotAndDomainEventsTakeEffect := by
  unfold Obligations.SlotAndDomainEventsTakeEffect
  refine ⟨?present, ?lost, ?pgin, ?window, ?record, ?capture, ?sleep, ?powerOff, ?offDone, ?arrival, ?handed, ?wakeDone, ?wakeTimeout,
    ?drained, ?wake, ?timeout, ?gpio⟩
  case present =>
    intro s slot hslot henabled ha
    refine ⟨_, rfl, ?_⟩
    simp [show ¬ 31 < slot by omega, henabled, wake_awake s ha, State.presenceSeen_present]
  case lost =>
    intro s slot port hslot henabled ha hport
    obtain ⟨⟨hp, hat⟩, hst⟩ := State.presenceGone_chan slot port hport
    refine ⟨s.presenceGone slot port, ?_, hp, hat, hst⟩
    simp [Gives, exec, execPresenceLost, ends, show ¬ 31 < slot by omega, henabled, wake_awake s ha]
  case pgin =>
    intro s slot hslot henabled
    refine ⟨_, rfl, ?_⟩
    rw [if_neg (by simp only [henabled, show ¬ 31 < slot by omega]; decide)]
    split
    · dsimp only
      simp
    · simp
  case window =>
    intro s c vPeak vMin iPeak iMin pMean energy hc
    refine ⟨_, rfl, ?_⟩
    simp +contextual [isChan, show c < 34 by omega, satAdd]
  case record =>
    intro s c voltage current power cause hc hany
    refine ⟨_, rfl, ?_⟩
    simp [isChan, show c < 34 by omega, hany]
    intro h
    split
    · rw [List.length_tail]
      omega
    · omega
  case capture =>
    intro s c hc hstate
    refine ⟨_, rfl, ?_⟩
    rw [if_pos (by simpa [isChan, show c < 34 by omega] using hstate)]
    simp
  case sleep =>
    intro s d hd hstate hidle hpin
    refine ⟨_, rfl, ?_⟩
    simp [show ¬ 15 < d by omega, hstate, hidle, hpin]
  case powerOff =>
    intro s d hd hstate hwaking hidle hpin hdom
    refine ⟨_, rfl, ?_⟩
    rcases hstate with h | h <;> simp [show ¬ 15 < d by omega, h, hwaking, hidle, hpin, hdom]
  case offDone =>
    intro s d hstate
    refine ⟨_, rfl, ?_⟩
    simp [hstate]
  case arrival =>
    intro s d p hd hstate
    refine ⟨_, rfl, ?_⟩
    rcases hstate with h | h <;> simp [show ¬ 15 < d by omega, h]
  case handed =>
    intro s d p hd hstate
    refine ⟨_, rfl, ?_⟩
    simp [show ¬ 15 < d by omega, hstate]
  case wakeDone =>
    intro s d hwaking hprog
    refine ⟨_, rfl, ?_⟩
    rw [if_neg (by simp [hwaking])]
    dsimp only
    rw [State.foldl_handed, State.domainsReady_idle (by simpa [State.upDomain] using hprog)]
    have hd := s.domain_upDomain_self d fun x => { x with state := .on, waking := false, wakes := satAdd 16 x.wakes 1, held := [] }
    exact ⟨congrArg Domain.state hd, congrArg Domain.waking hd, congrArg Domain.held hd, congrArg Domain.wakes hd, rfl⟩
  case wakeTimeout =>
    intro s d hwaking hmode
    refine ⟨_, rfl, ?_⟩
    rw [if_pos hwaking]
    have hdom : ∀ t : State, t.pwr.domains = s.pwr.domains → (t.domain d).waking = true := fun t ht => by
      rw [State.domain, ht]; exact hwaking
    exact ⟨hdom _ (by simp), by simp [State.powerEvent, hmode, State.powerFlags]⟩
  case drained =>
    intro s c hc ht hd hgreen hreset hswaps hup
    refine ⟨(s.upPwr fun w => { w with change := some { c with draining := false } }).stormSteps, ?_, ?_⟩
    · simp [Gives, exec, execStormJibDrained, ends, hc, hd, hgreen, hreset, hswaps]
    · exact State.stormSteps_noLinks rfl ht rfl hup
  case wake =>
    intro s cause hc hm hup
    exact ⟨_, rfl, State.wake_noLinks hc hm hup⟩
  case timeout =>
    intro s c g hc ht hprog hwait
    refine ⟨_, rfl, ?_⟩
    simp [hc, ht, hprog, hwait, State.finish_only]
  case gpio =>
    intro s hgpio hblocked hc hm hup
    refine ⟨_, rfl, ?_⟩
    simp [show ¬ 31 < s.pwr.wakeGpio by omega, hblocked, hm, State.wake_noLinks hc hm hup]

end Sys2Proof.Machine
end

section
/-! Host queues, the board channel and in-band messages (R440, R441, R461 to R469). -/
namespace Sys2Proof.Machine

/-! ### Host queues and what is held for them (R440, R441) -/

@[simp] theorem State.hq_upHq (s : State) (q : Nat) (f : HQueue → HQueue) : (s.upHq q f).hq q = f (s.hq q) := s.hq_upHq_self q f

@[simp] theorem State.upHly_hq (s : State) {f : Hly → Hly} (h : (f s.hly).queues = s.hly.queues) (q : Nat) : (s.upHly f).hq q = s.hq q :=
  congrArg (fun t : Tbl HQueue => t.get q {}) h

@[simp] theorem State.latchSrc_hq (s : State) (src q : Nat) : (s.latchSrc src).hq q = s.hq q := rfl

@[simp] theorem State.latchSrc_hly (s : State) (src : Nat) : (s.latchSrc src).hly = s.hly := rfl

@[simp] theorem State.upHq_hly (s : State) (q : Nat) (f : HQueue → HQueue) :
    (s.upHq q f).hly = { s.hly with queues := s.hly.queues.upd q {} f } := rfl

/-- With no reply held, a turn of the ring leaves every queue but for its mark of a full ring. -/
theorem State.flushReplies_none {s : State} (q : Nat) (h : s.hly.heldReplies = []) :
    (s.flushReplies q 1).out = s.out ∧ ((s.flushReplies q 1).hq q).replyConsumer = (s.hq q).replyConsumer ∧
      ((s.flushReplies q 1).hq q).replyProducer = (s.hq q).replyProducer := by
  simp only [State.flushReplies, h, takeFirst]
  split <;> simp

/-! ### Messages in-band (R461 to R465) -/

theorem foldl_out {α : Type} {g : State → α → State} (hg : ∀ s a, (g s a).out = s.out) (l : List α) (s : State) :
    (l.foldl g s).out = s.out := by
  induction l generalizing s with
  | nil => rfl
  | cons a l ih => rw [List.foldl_cons, ih, hg]

/-- A message that can be sent puts its packets at the egress and gives nothing out. -/
theorem State.sendLane_out {s : State} {directed : Bool} {ports : List Nat} (kind target queue seq serial attempt : Nat) (message : List Nat)
    (h : directed = false ∨ s.linkUp (ports.getD 0 0) = true) :
    (s.sendLane kind target directed ports queue seq serial attempt message).out = s.out := by
  rw [State.sendLane]
  dsimp only
  split
  next hd =>
    rw [if_pos (h.resolve_left (by simp [hd]))]
    apply foldl_out
    intro s a
    rfl
  next =>
    apply foldl_out
    intro s a
    rfl

/-- The one command of a host queue waits on for the reply of another device. -/
theorem State.awaitsRemote_only {s : State} {g : Prog} {queue seq n t m : Nat} {d : Bool} {ports : List Nat} (hp : s.hly.progress = [g])
    (hsrc : g.src = .host queue) (hseq : g.seq = seq) (hw : g.wait = .remote n t d ports m) : s.awaitsRemote queue seq = true := by
  simp [State.awaitsRemote, hp, hsrc, hseq, hw]

theorem State.remoteReply_only {s : State} {g : Prog} {queue seq n t m : Nat} {d : Bool} {ports : List Nat} (hp : s.hly.progress = [g])
    (hsrc : g.src = .host queue) (hseq : g.seq = seq) (hw : g.wait = .remote n t d ports m) (status result device : Nat) (dv : Bool) (out :
        List Nat) :
    (s.remoteReply queue seq status result dv device out).hly.progress = [] := by
  simp only [State.remoteReply, hp, takeFirst, hsrc, hseq, hw, beq_self_eq_true, Bool.and_self, if_true]
  split <;> simp

/-- A command in a whole message that is neither waiting, in progress nor answered waits at the ingress. -/
theorem State.inbandWhole_new {s : State} {k : InbandKey} (directed : Bool) (ports : List Nat) (hready : k ∉ s.hly.inbandReady)
    (hprog : (s.hly.progress.any fun g => srcKey g.src == some k) = false) (hcache : (s.hly.replyCache.find? fun e => e.1 == k) = none) :
    (s.inbandWhole k directed ports).hly.inbandReady = s.hly.inbandReady ++ [k] := by
  cases directed <;> simp [State.inbandWhole, hready, hprog, hcache, State.latchSrc]

theorem foldl_tally_hly {α : Type} (l : List α) (e : Nat) (s : State) : (l.foldl (fun s _ => s.tally e) s).hly = s.hly := by
  induction l generalizing s with
  | nil => rfl
  | cons x l ih => simp [ih]

theorem one_le_addOnce (l : List Nat) : 1 ≤ (addOnce l 0).length := by
  rw [addOnce]
  split
  next h => exact List.length_pos_of_mem h
  next => simp

/-- A command whose only segment arrives is whole (R462). -/
theorem State.inbandSegment_single (s : State) (k : InbandKey) (directed : Bool) (ports : List Nat) :
    s.inbandSegment k 0 1 directed ports =
      (s.upHly fun h => { h with reassembly := h.reassembly.filter fun r => r.key != k }).inbandWhole k directed ports := by
  rw [State.inbandSegment, if_neg (by decide), if_pos (one_le_addOnce _)]

/-- Settles O11. -/
theorem channelsOfCommandsTakeEffect : Obligations.ChannelsOfCommandsTakeEffect := by
  unfold Obligations.ChannelsOfCommandsTakeEffect
  refine ⟨?producer, ?consumer, ?enable, ?disable, ?receive, ?reply, ?retry, ?giveUp, ?reassembly, ?hold, ?board, ?mctp, ?firmware⟩
  case producer =>
    intro s q index hq ha hm he herr
    refine ⟨_, rfl, ?_, ?_⟩ <;> intro hused
    · simp [wake_awake s ha, State.doorbell, hm, show ¬ 7 < q by omega, State.producerWrite, he, herr, Nat.not_lt.mpr hused]
    · simp [wake_awake s ha, State.doorbell, hm, show ¬ 7 < q by omega, State.producerWrite, he, herr, hused]
  case consumer =>
    intro s q index hq ha hm he hheld
    refine ⟨_, rfl, ?_⟩
    obtain ⟨hout, hrc, hrp⟩ := State.flushReplies_none (s := s.upHq q fun x => { x with replyConsumer := index % 65536 }) q hheld
    simp [wake_awake s ha, State.doorbell, hm, show ¬ 7 < q by omega, he, hheld, hout, hrc, hrp]
  case enable =>
    intro s q hq ha he
    refine ⟨_, rfl, ?_⟩
    simp [wake_awake s ha, show ¬ 7 < q by omega, State.enableQueue, he]
  case disable =>
    intro s q hq ha
    refine ⟨_, rfl, ?_⟩
    simp [wake_awake s ha, show ¬ 7 < q by omega]
  case receive =>
    intro s origin queue seq attempt directed ports ha hvalid hready hprog hcache
    refine ⟨_, rfl, ?_⟩
    have hgo : (!s.rte.valid && !directed) = false := by rcases hvalid with h | h <;> simp [h]
    simp only [wake_awake s ha, hgo, Bool.false_eq_true, if_false, State.inbandSegment_single]
    refine State.inbandWhole_new directed ports ?_ ?_ ?_
    · exact hready
    · exact hprog
    · exact hcache
  case reply =>
    intro s queue seq attempt status result n t m device d ports dv out g hp hsrc hseq hw
    refine ⟨_, rfl, ?_⟩
    simp only [State.awaitsRemote_only hp hsrc hseq hw]
    rw [if_neg (by decide), if_neg (by decide), if_pos (one_le_addOnce _)]
    refine State.remoteReply_only (g := g) ?_ hsrc hseq hw ..
    exact hp
  case retry =>
    intro s queue seq n t m d ports g hp hsrc hseq hw hn hlink
    refine ⟨_, rfl, ?_⟩
    simp only [State.inbandRetry, hp, List.findSome?_cons, hsrc, hseq, hw, beq_self_eq_true, Bool.and_self, if_true, hn]
    refine ⟨by simp [hp, updFirst, hsrc, hseq], ?_⟩
    rw [State.sendLaneCommand, State.sendLane_out]
    · rfl
    · exact hlink
  case giveUp =>
    intro s queue seq n t m d ports g hp hsrc hseq hw hn
    refine ⟨_, rfl, ?_⟩
    simp only [State.inbandRetry, hp, List.findSome?_cons, hsrc, hseq, hw, beq_self_eq_true, Bool.and_self, if_true, Nat.not_lt.mpr hn, if_false]
    exact State.finish_only (g := g) _ _ hp (by simp [hsrc, hseq])
  case reassembly =>
    intro s serial queue seq
    refine ⟨_, rfl, ?_⟩
    simp [State.dropMessage, foldl_tally_hly]
  case hold =>
    intro s serial queue seq
    refine ⟨_, rfl, ?_⟩
    simp
  case board =>
    intro s code len ha
    refine ⟨_, rfl, ?_, ?_⟩ <;> intro hbusy <;> simp [wake_awake s ha, hbusy]
  case mctp =>
    intro s command
    exact ⟨_, rfl, rfl, rfl, rfl⟩
  case firmware =>
    intro s source seq g hp hsrc hseq
    refine ⟨_, rfl, ?_⟩
    simp [State.finish_only 0x0503 0 hp (p := fun g => g.src == source && g.seq == seq) (by simp [hsrc, hseq])]

end Sys2Proof.Machine
end

section
/-! The instance commands (R407 to R413, R418 to R427). -/
namespace Sys2Proof.Machine

/-! ### Commands that stay in progress -/

/-- A command that runs and is put in progress, whatever taking its descriptor changes of the record of commands. -/
theorem starts_taken {i : Instr} {code inLen outLen : Nat} {h : HlyHdr} {names : List Obj} {body : State → HRes} {s : State}
    {v : (Hly → Hly) → State} {w : Wait} {holds : List Obj} (hr : s.runs h code inLen outLen names = true)
    (hb : ∀ f, body (s.upHly f) = .pend (v f) w holds) :
    ∃ f, Starts (ends (runHly i code h inLen outLen names body s)) (v f) h code w holds := by
  obtain ⟨f, hf⟩ := s.fetchCmd_eq_upHly h
  exact ⟨f, starts_of hr (hf ▸ hb f)⟩

/-! ### Instances -/

theorem State.instance_upInst (s : State) (i j : Nat) (f : Instance → Instance) :
    (s.upInst i f).instance_ j = if j = i then f (s.instance_ i) else s.instance_ j := by
  split
  next h => subst h; exact Tbl.get_upd_self ..
  next h => exact Tbl.get_upd_ne _ h _ _ _

@[simp] theorem State.instance_upInst_self (s : State) (i : Nat) (f : Instance → Instance) : (s.upInst i f).instance_ i = f (s.instance_ i) :=
  Tbl.get_upd_self ..

@[simp] theorem State.upHly_instance (s : State) (f : Hly → Hly) (i : Nat) : (s.upHly f).instance_ i = s.instance_ i := rfl

@[simp] theorem State.upTtc_instance (s : State) (f : Ttc → Ttc) (i : Nat) : (s.upTtc f).instance_ i = s.instance_ i := rfl

@[simp] theorem State.emit_instance (s : State) (o : Out) (i : Nat) : (s.emit o).instance_ i = s.instance_ i := rfl

@[simp] theorem State.fetchCmd_instance (s : State) (h : HlyHdr) (i : Nat) : (s.fetchCmd h).instance_ i = s.instance_ i := by simp [State.instance_]

/-- A dirty-page log written back whole holds no mark in that bitmap, and nothing else of its instance changes (R423). -/
@[simp] theorem State.flushLog_instance (s : State) (i : Nat) (b : Bool) :
    (s.flushLog i b).instance_ i = { s.instance_ i with log :=
      if b then { (s.instance_ i).log with marksB := [] } else { (s.instance_ i).log with marksA := [] } } := by
  have hrest : ∀ l : List Nat, (l.filter fun _ => !true) = [] := fun l => List.filter_eq_nil_iff.mpr (by simp)
  have hout : ∀ (c : Bool) (t : State) (o : Out), (if c then t else t.emit o).instance_ i = t.instance_ i := fun c t o => by cases c <;> rfl
  simp only [State.flushLog, State.logBack, hrest, hout, State.instance_upInst_self]

/-! ### The bodies of the instance commands -/

theorem instanceCreateBody_ok {s : State} {inst link function resetMode drainTimeout vectors : Nat} (hinst : 1 ≤ inst) (hinst' : inst ≤ 1023)
    (hlink : link ≤ 31) (hfunction : function ≤ 1023) (hmode : resetMode ≤ 1) (ht : 1 ≤ drainTimeout) (ht' : drainTimeout ≤ 300)
    (hv : 1 ≤ vectors) (hv' : vectors ≤ 64) (hname : s.namesHostLink link = true) (hfree : s.notFree inst = false)
    (htaken : s.functionTaken link function = false) (hroom : s.linkVectors link inst + vectors ≤ 4096) :
    instanceCreateBody inst link function resetMode drainTimeout vectors s =
      .ok ((s.upInst inst fun n => {
        state := .enabled, gen := n.gen, retired := n.retired, squash := resetMode == 1, port := link, function, drainTimeout
        vectors }).upTtc fun t => { t with meters := t.meters.put inst { created := true } }) := by
  rw [instanceCreateBody, refuseIf_none _ _ (by simp [outside_eq_false, *]; omega)]
  rfl

theorem instanceSetBody_ok {s : State} {inst resetMode drainTimeout vectors : Nat} (cm : Nat) (hinst : inst ≤ 1023) (hmode : resetMode ≤ 1)
    (ht : 1 ≤ drainTimeout) (ht' : drainTimeout ≤ 300) (hv : 1 ≤ vectors) (hv' : vectors ≤ 64) (hused : s.notFree inst = true)
    (hroom : s.linkVectors (s.instance_ inst).port inst + vectors ≤ 4096) :
    instanceSetBody inst cm resetMode drainTimeout vectors s = .ok (s.upInst inst fun n => { n with
      squash := pick cm 0 (resetMode == 1) n.squash, drainTimeout := pick cm 1 drainTimeout n.drainTimeout
      vectors := pick cm 2 vectors n.vectors }) := by
  have hpick : ∀ old : Bool, (if cmBit cm 0 then decide (resetMode = 1) else old) = pick cm 0 (resetMode == 1) old := fun old => rfl
  rw [instanceSetBody, refuseIf_none _ _ (by simp [outside_eq_false, *])]
  simp only [hpick]

/-- INSTANCE_RESET of an instance that no reset has in hand (R411). -/
theorem instanceResetBody_pend {s : State} {inst form : Nat} (hinst : 1 ≤ inst) (hinst' : inst ≤ 1023) (hform : form ≤ 2)
    (hused : s.notFree inst = true) (hst : (s.instance_ inst).state ≠ .resetting) :
    instanceResetBody inst form s =
      .pend (s.startReset inst (form = 2 || (form = 0 && (s.instance_ inst).squash))) (.instReset inst) [.inst inst] :=
  refuseIf_none _ _ (by simp [*]; omega)

theorem instanceDisableBody_pend {s : State} {inst : Nat} (hinst : 1 ≤ inst) (hused : s.notFree inst = true) (hbound : s.boundTo inst = false) :
    instanceDisableBody inst s = .pend (s.beginDisable inst) (.instDisable inst) [.inst inst] :=
  refuseIf_none _ _ (by simp [*]; omega)

theorem dirtyLogSetBody_enable {s : State} {inst baseA baseB rangeBase rangePages : Nat} (hinst : inst ≤ 1023) (hA : baseA % 4096 = 0)
    (hB : baseB % 4096 = 0) (hR : rangeBase % 4096 = 0) (hp : 1 ≤ rangePages) (hp' : rangePages ≤ 4294967296) (hused : s.notFree inst = true)
    (hswap : (s.instance_ inst).log.swapping = false) (hdis : (s.instance_ inst).log.disabling = false) :
    dirtyLogSetBody inst true baseA baseB rangeBase rangePages true s =
      .ok (((s.flushLog inst false).flushLog inst true).upInst inst fun n => { n with log := { n.log with
        enabled := true, activeB := false, baseA, baseB, rangeBase, rangePages, outOfRange := 0 } }) :=
  refuseIf_none _ _ (by simp [logBad, outside_eq_false, *])

theorem dirtyLogSetBody_disable {s : State} {inst : Nat} (baseA baseB rangeBase rangePages : Nat) (inFunction : Bool) (hinst : inst ≤ 1023)
    (hused : s.notFree inst = true) (hswap : (s.instance_ inst).log.swapping = false) (hdis : (s.instance_ inst).log.disabling = false)
    (hon : (s.instance_ inst).log.enabled = true) :
    dirtyLogSetBody inst false baseA baseB rangeBase rangePages inFunction s =
      .pend (s.upInst inst fun n => { n with log := { n.log with enabled := false, disabling := true } }) (.logSwap inst) [] := by
  rw [dirtyLogSetBody, refuseIf_none _ _ (by simp [logBad, *]), if_neg (by decide), if_pos hon]

theorem dirtyLogSwapBody_pend {s : State} {inst : Nat} (hused : s.notFree inst = true) (hon : (s.instance_ inst).log.enabled = true)
    (hswap : (s.instance_ inst).log.swapping = false) (hdis : (s.instance_ inst).log.disabling = false) :
    dirtyLogSwapBody inst s = .pend (s.upInst inst fun n => { n with log := { n.log with
      activeB := !n.log.activeB, swapping := true, replyRange := n.log.outOfRange, outOfRange := 0 } }) (.logSwap inst) [] :=
  refuseIf_none _ _ (by simp [*])

@[simp] theorem State.outstanding_upHly (s : State) (f : Hly → Hly) (i : Nat) : (s.upHly f).outstanding i = s.outstanding i := rfl

/-- An instance whose reset begins to drain it (R411). -/
def Instance.drains (n : Instance) : Instance :=
  { n with state := .resetting, phase := .draining, squashed := 0, timedOut := false, forced := false }

theorem State.startReset_eq (s : State) (i : Nat) (squash : Bool) :
    s.startReset i squash = if squash || (s.upInst i Instance.drains).outstanding i = 0 then (s.upInst i Instance.drains).genStep i
      else s.upInst i Instance.drains := rfl

/-- A reset that does not squash drains first, while work is outstanding (R411). -/
theorem State.startReset_drains {s : State} {i : Nat} (h : s.outstanding i ≠ 0) :
    s.startReset i false = s.upInst i Instance.drains := by
  have hout : (s.upInst i Instance.drains).outstanding i = s.outstanding i := by simp [State.outstanding, State.ownHalf, Instance.drains]
  rw [State.startReset_eq, hout, if_neg (by simpa using h)]

theorem State.instanceImage_length (s : State) (i : Nat) : (s.instanceImage i).length = 32 := by
  simp [State.instanceImage, outBytes_length]

/-- Settles O30. -/
theorem instanceCommandsComplete : Obligations.InstanceCommandsComplete := by
  unfold Obligations.InstanceCommandsComplete
  refine ⟨?create, ?set, ?reset, ?disable, ?logOn, ?logOff, ?swap, ?query⟩
  case create =>
    intro s h inst link function resetMode drainTimeout vectors hr hinst hinst' hlink hfunction hmode ht ht' hv hv' hname hfree htaken hroom
    obtain ⟨f, hans⟩ := answers_taken hr fun f => instanceCreateBody_ok (s := s.upHly f) hinst hinst' hlink hfunction hmode ht ht' hv hv' hname
      hfree htaken hroom
    refine ⟨_, hans, by simp, fun i hi => by simp [State.instance_upInst, hi], by simp⟩
  case set =>
    intro s h inst cm resetMode drainTimeout vectors hr hinst hmode ht ht' hv hv' hused hroom
    obtain ⟨f, hans⟩ := answers_taken hr fun f => instanceSetBody_ok (s := s.upHly f) cm hinst hmode ht ht' hv hv' hused hroom
    exact ⟨_, hans, by simp, fun i hi => by simp [State.instance_upInst, hi]⟩
  case reset =>
    intro s h inst form hr hinst hinst' hform hused hst
    obtain ⟨f, hf⟩ := s.fetchCmd_eq_upHly h
    have hbody := instanceResetBody_pend (s := s.fetchCmd h) hinst hinst' hform (by rw [hf]; exact hused) (by rw [hf]; exact hst)
    rw [State.fetchCmd_instance] at hbody
    refine ⟨_, starts_of hr hbody, rfl, fun hform hout => ?_⟩
    subst hform
    rw [hf, show (decide (1 = 2) || decide (1 = 0) && (s.instance_ inst).squash) = false by simp,
      State.startReset_drains (s := s.upHly f) hout]
    simp [Instance.drains]
  case disable =>
    intro s h inst hr hinst hused hbound
    obtain ⟨f, hf⟩ := s.fetchCmd_eq_upHly h
    exact ⟨_, starts_of hr (instanceDisableBody_pend hinst (by rw [hf]; exact hused) (by rw [hf]; exact hbound)), rfl⟩
  case logOn =>
    intro s h inst baseA baseB rangeBase rangePages hr hinst hA hB hR hp hp' hused hswap hdis
    obtain ⟨f, hans⟩ := answers_taken hr fun f => dirtyLogSetBody_enable (s := s.upHly f) hinst hA hB hR hp hp' hused hswap hdis
    exact ⟨_, hans, by simp, by simp, by simp, by simp, by simp, by simp, by simp, by simp⟩
  case logOff =>
    intro s h inst baseA baseB rangeBase rangePages inFunction hr hinst hused hswap hdis hon
    obtain ⟨f, hst⟩ := starts_taken hr fun f => dirtyLogSetBody_disable (s := s.upHly f) baseA baseB rangeBase rangePages inFunction hinst hused
      hswap hdis hon
    exact ⟨_, hst, by simp⟩
  case swap =>
    intro s h inst hr hused hon hswap hdis
    obtain ⟨f, hst⟩ := starts_taken hr fun f => dirtyLogSwapBody_pend (s := s.upHly f) hused hon hswap hdis
    exact ⟨_, hst, by simp⟩
  case query =>
    intro s h inst hr hinst hused
    exact answers_query hr (fun f => refuseIf_none _ _ (by simp [hinst]; exact hused)) (s.instanceImage_length inst)

end Sys2Proof.Machine
end

section
/-! The commands of protection, debug and interrupts (R470 to R485). -/
namespace Sys2Proof.Machine

/-! ### Tables changed at a run of keys -/

/-- One change at each key of a run of keys. -/
theorem Tbl.get_foldl_upd {α : Type} (d : α) (f : α → α) (t : Tbl α) (first n k : Nat) :
    ((List.range n).foldl (fun (t : Tbl α) i => t.upd (first + i) d f) t).get k d =
      if first ≤ k ∧ k < first + n then f (t.get k d) else t.get k d := by
  induction n with
  | zero => rw [if_neg (by omega)]; rfl
  | succ n ih =>
    rw [List.range_succ, List.foldl_append, List.foldl_cons, List.foldl_nil, Tbl.get_upd]
    by_cases hk : k = first + n
    · subst hk
      rw [if_pos rfl, ih, if_neg (by omega), if_pos (by omega)]
    · rw [if_neg hk, ih]
      congr 1
      simp only [eq_iff_iff]
      omega

/-! ### Masters and their rule sets (R470 to R477) -/

theorem State.master_upMaster (s : State) (m n : Nat) (f : Master → Master) :
    (s.upMaster m f).master n = if n = m then f (s.master m) else s.master n := Tbl.get_upd ..

@[simp] theorem State.master_upMaster_self (s : State) (m : Nat) (f : Master → Master) : (s.upMaster m f).master m = f (s.master m) :=
  Tbl.get_upd_self ..

@[simp] theorem State.upHly_master (s : State) (f : Hly → Hly) (m : Nat) : (s.upHly f).master m = s.master m := rfl

@[simp] theorem State.fetchCmd_master (s : State) (h : HlyHdr) (m : Nat) : (s.fetchCmd h).master m = s.master m := by simp [State.master]

/-- A swap that begins at each of several masters (R477). -/
theorem State.master_foldl_commit (l : List Nat) (s : State) (n : Nat) :
    (l.foldl (fun s m => s.upMaster m fun x => { x with swap := .commit }) s).master n =
      if n ∈ l then { s.master n with swap := .commit } else s.master n := by
  induction l generalizing s with
  | nil => simp
  | cons m l ih =>
    rw [List.foldl_cons, ih, State.master_upMaster]
    by_cases hm : n = m <;> by_cases hl : n ∈ l <;> simp [hm, hl]

/-- A rule set other than the active one may be written: the active one is as before (R471). -/
theorem mpuRulesSetBody_ok {s : State} {master set first count : Nat} {entries : List MpuRegion} (hm : masterExists master = true) (hset : set ≤ 1)
    (hfirst : first ≤ 63) (hcount : 1 ≤ count) (hlast : first + count ≤ 64) (hlen : entries.length = count)
    (hgood : ∀ e ∈ entries, badEntry e = false) (hactive : (s.master master).activeB ≠ (set == 1)) (hswap : (s.master master).swap = .idle) :
    mpuRulesSetBody master set first count entries s = .ok (s.upMaster master fun m =>
      if set = 1 then { m with setB := putEntries m.setB first entries } else { m with setA := putEntries m.setA first entries }) := by
  have hany : entries.any badEntry = false := List.any_eq_false.mpr fun e he => by simp [hgood e he]
  have hcount' : count ≤ 64 := by omega
  exact refuseIf_none _ _ (by simp [hm, hset, hfirst, outside_eq_false hcount hcount', hlast, hlen, hany, hswap, hactive])

theorem mpuSwapBody_pend {s : State} {master : Nat} (hm : master = 255 ∨ masterExists master = true)
    (hidle : ∀ m ∈ swapMasters master, (s.master m).swap = .idle) :
    mpuSwapBody master s = .pend ((swapMasters master).foldl (fun s m => s.upMaster m fun x => { x with swap := .commit }) s) (.mpuSwap master) [] :=
        by
  have hex : (decide (master ≠ 255) && !masterExists master) = false := by rcases hm with h | h <;> simp [h]
  have hany : ((swapMasters master).any fun m => decide ((s.master m).swap ≠ .idle)) = false :=
    List.any_eq_false.mpr fun m h => by simp [hidle m h]
  exact refuseIf_none _ _ (by simp only [List.all_cons, hex, hany]; rfl)

theorem entryImage_length (e : MpuRegion) : (entryImage e).length = 16 := by
  exact bytesLE_length ..

theorem length_flatMap_range {f : Nat → List Nat} {k : Nat} (h : ∀ i, (f i).length = k) (n : Nat) : ((List.range n).flatMap f).length = n * k := by
  simp [List.length_flatMap, h]

theorem State.mpuImage_length (s : State) (master : Nat) : (s.mpuImage master).length = 2248 := by
  simp only [State.mpuImage, List.length_append, length_flatMap_range fun i => entryImage_length _]
  rw [length_flatMap_range (k := 12) fun i => ?_]
  · simp [outBytes_length]
  · split <;> simp [outBytes_length]

/-! ### Debug (R480) -/

@[simp] theorem State.fresh_mpu (s : State) : s.fresh.2.mpu = s.mpu := rfl

/-- A command that runs and that its chapter refuses. -/
theorem ends_refused {i : Instr} {code inLen outLen st : Nat} {h : HlyHdr} {names : List Obj} {body : State → HRes} {s : State}
    (hr : s.runs h code inLen outLen names = true) (hb : body (s.fetchCmd h) = .refuse st) :
    ends (runHly i code h inLen outLen names body s) = .next ((s.fetchCmd h).complete h.src h.seq code h.interrupt false st 0 []).settle := by
  obtain ⟨h1, h2, h3⟩ := (runs_iff ..).mp hr
  simp [ends, runHly, h1, h2, h3, hb]

/-- On a production part DEBUG_UNLOCK is refused (R480). -/
theorem debugUnlockBody_production {action serial nonce : Nat} {ok : Bool} {s : State} (haction : action ≤ 2) (hp : Config.production = true) :
    debugUnlockBody action serial nonce ok s = .refuse 0x0403 := by
  simp [debugUnlockBody, refuseIf, hp, haction]

theorem debugUnlockBody_lock {serial nonce : Nat} {ok : Bool} {s : State} (hp : Config.production = false) :
    debugUnlockBody 2 serial nonce ok s = .ok (s.upMpu fun u => { u with unlocked := false }) :=
  refuseIf_none _ _ (by simp [hp])

theorem debugUnlockBody_challenge {serial nonce : Nat} {ok : Bool} {s : State} (hp : Config.production = false) :
    debugUnlockBody 0 serial nonce ok s =
      .data (s.freshNonce.2.upMpu fun u => { u with nonce := some s.freshNonce.1 }) (bytesLE 32 s.freshNonce.1) :=
  refuseIf_none _ _ (by simp [hp])

theorem debugUnlockBody_unlock {nonce : Nat} {s : State} (hp : Config.production = false) (hn : s.mpu.nonce = some nonce) :
    debugUnlockBody 1 Config.serial nonce true s = .ok (s.upMpu fun u => { u with nonce := none, unlocked := true }) := by
  rw [debugUnlockBody, refuseIf_none _ _ (by simp [hp, hn])]
  simp [hn]

/-! ### The interrupt controller (R482 to R485) -/

/-- ICU_SET gives a run of sources one priority and mask (R482). -/
def prioritised (t : Tbl IcuSource) (first count priority mask : Nat) : Tbl IcuSource :=
  (List.range count).foldl (fun (t : Tbl IcuSource) i => t.upd (first + i) {} fun x => { x with priority, mask := BitVec.ofNat 5 mask }) t

theorem get_prioritised (t : Tbl IcuSource) {first count : Nat} (priority mask : Nat) {i : Nat} (hi : i < count) :
    (prioritised t first count priority mask).get (first + i) {} = { t.get (first + i) {} with priority, mask := BitVec.ofNat 5 mask } := by
  rw [prioritised, Tbl.get_foldl_upd, if_pos (by omega)]

theorem icuSetBody_sources {s : State} {first count priority mask threshold : Nat} (hfirst : first ≤ 2047) (hcount : 1 ≤ count)
    (hlast : first + count ≤ 2048) (hpr : priority ≤ 255) (hmask : mask ≤ 31) (hth : threshold ≤ 255) :
    icuSetBody 0 first count priority mask threshold s =
      .ok (s.upIcu fun c => { c with sources := prioritised c.sources first count priority mask }) := by
  have hcount' : count ≤ 2048 := by omega
  rw [icuSetBody, refuseIf_none _ _ (by simp [outside_eq_false hcount hcount', *])]
  rfl

theorem icuSetBody_core {s : State} {core count priority mask threshold : Nat} (hcore : core ≤ 4) (hcount : 1 ≤ count) (hcount' : count ≤ 2044)
    (hpr : priority ≤ 255) (hmask : mask ≤ 31) (hth : threshold ≤ 255) :
    icuSetBody 1 core count priority mask threshold s =
      .ok (s.upIcu fun c => { c with cores := c.cores.upd core {} fun x => { x with threshold } }) := by
  have hcount'' : count ≤ 2048 := by omega
  rw [icuSetBody, refuseIf_none _ _ (by simp [outside_eq_false hcount hcount'', *]; omega)]
  rfl

@[simp] theorem State.fetchCmd_icuSourceReg (s : State) (h : HlyHdr) (n : Nat) : (s.fetchCmd h).icuSourceReg n = s.icuSourceReg n := by
  cases h with | mk src => cases src <;> rfl

/-- Settles O32. -/
theorem protectionCommandsComplete : Obligations.ProtectionCommandsComplete := by
  unfold Obligations.ProtectionCommandsComplete
  refine ⟨?rules, ?swap, ?query, ?lock, ?challenge, ?unlock, ?sources, ?core, ?icu⟩
  case rules =>
    intro s h master set first count entries hr hm hset hfirst hcount hlast hlen hgood hactive hswap
    obtain ⟨f, hans⟩ := answers_taken hr fun f => mpuRulesSetBody_ok (s := s.upHly f) hm hset hfirst hcount hlast hlen hgood hactive hswap
    refine ⟨_, hans, ?_, ?_, ?_⟩
    · rcases (by omega : set = 0 ∨ set = 1) with h | h
      · subst h
        simp at hactive
        simp [Master.active, hactive]
      · subst h
        simp at hactive
        simp [Master.active, hactive]
    · intro h
      simp [h]
    · intro h
      simp [h]
  case swap =>
    intro s h master hr hm hidle
    obtain ⟨f, hf⟩ := s.fetchCmd_eq_upHly h
    refine ⟨_, starts_of hr (hf ▸ mpuSwapBody_pend (s := s.upHly f) hm hidle), fun m hmem => ?_⟩
    rw [hf, State.master_foldl_commit, if_pos hmem]
    exact ⟨rfl, rfl⟩
  case query =>
    intro s h master hr hm
    exact answers_query hr (fun f => if_pos hm) (s.mpuImage_length master)
  case lock =>
    intro s h serial nonce ok hr
    refine ⟨fun hp => ?_, fun hp => ends_refused hr (debugUnlockBody_production (by decide) hp)⟩
    exact ⟨_, answers_of hr (debugUnlockBody_lock hp) (Nat.zero_le _), rfl, by simp⟩
  case challenge =>
    intro s h serial nonce ok hr
    refine ⟨fun hp => ?_, fun hp => ends_refused hr (debugUnlockBody_production (by decide) hp)⟩
    refine ⟨_, _, answers_of hr (debugUnlockBody_challenge hp) ?_, rfl, ?_⟩
    · rw [bytesLE_length]
      exact runs_outLen_le hr
    · simp [State.freshNonce]
  case unlock =>
    intro s h nonce hr hn
    refine ⟨fun hp => ?_, fun hp => ends_refused hr (debugUnlockBody_production (by decide) hp)⟩
    exact ⟨_, answers_of hr (debugUnlockBody_unlock hp (by simp [hn])) (Nat.zero_le _), rfl, rfl⟩
  case sources =>
    intro s h first count priority mask threshold hr hfirst hcount hlast hpr hmask hth
    obtain ⟨f, hans⟩ := answers_taken hr fun f => icuSetBody_sources (s := s.upHly f) hfirst hcount hlast hpr hmask hth
    refine ⟨_, hans, fun i hi => ?_, rfl⟩
    have hget := get_prioritised s.icu.sources (first := first) priority mask hi
    exact ⟨congrArg IcuSource.priority hget, congrArg IcuSource.mask hget, (congrArg IcuSource.latch hget).trans rfl⟩
  case core =>
    intro s h core count priority mask threshold hr hcore hcount hcount' hpr hmask hth
    obtain ⟨f, hans⟩ := answers_taken hr fun f => icuSetBody_core (s := s.upHly f) hcore hcount hcount' hpr hmask hth
    exact ⟨_, hans, by simp, by simp, rfl⟩
  case icu =>
    intro s h first count hr hfirst hcount hcount' hlast
    have hout : ((List.range count).flatMap fun i => outBytes [(4, s.icuSourceReg (first + i))]).length = 4 * count := by
      rw [length_flatMap_range (k := 4) fun i => outBytes_length _, Nat.mul_comm]
    refine ⟨_, answers_of hr ?_ (hout ▸ runs_outLen_le hr), hout, by simp [outBytes]⟩
    simp only [State.fetchCmd_icuSourceReg]
    exact refuseIf_none _ _ (by simp [outside_eq_false hcount hcount', hfirst, hlast])

end Sys2Proof.Machine
end

section
/-! Rule sets, violations and the interrupt controller (R475 to R488). -/
namespace Sys2Proof.Machine

/-! ### Sources latched one after the other (R483) -/

theorem State.latchSrc_source (s : State) (src n : Nat) :
    (s.latchSrc src).icu.sources.get n {} = if n = src then { s.icu.sources.get n {} with latch := true } else s.icu.sources.get n {} := by
  rw [State.latchSrc, State.upIcu_icu, Tbl.get_upd]
  split
  next h => rw [h]
  next => rfl

/-- A source is latched by a run of latches when it is among them, and is otherwise as before. -/
theorem State.foldl_latchSrc_source {α : Type} (g : α → Nat) (l : List α) (s : State) (n : Nat) :
    (l.foldl (fun s c => s.latchSrc (g c)) s).icu.sources.get n {} =
      if n ∈ l.map g then { s.icu.sources.get n {} with latch := true } else s.icu.sources.get n {} := by
  induction l generalizing s with
  | nil => rfl
  | cons c l ih =>
    rw [List.foldl_cons, ih, State.latchSrc_source]
    by_cases hc : n = g c <;> by_cases hl : n ∈ l.map g <;> simp [hc, hl]

/-! ### The end of a swap (R477) -/

theorem State.finishWait_idle {s : State} (h : s.hly.progress = []) (w : Wait) (st r : Nat) : s.finishWait w st r = s := by
  simp [State.finishWait, State.finish, h, takeFirst]

theorem State.ruleSwapDone_idle {s : State} (h : s.hly.progress = []) (m : Nat) :
    s.ruleSwapDone m = s.upMpu fun u => { u with intStatus := setFlag u.intStatus 3 } := by
  rw [State.ruleSwapDone, h]
  simp [State.finishWait_idle, h]

/-- Settles O33. -/
theorem protectionEventsTakeEffect : Obligations.ProtectionEventsTakeEffect := by
  unfold Obligations.ProtectionEventsTakeEffect
  refine ⟨?commit, ?retire, ?pop, ?claim, ?noClaim, ?complete, ?badComplete, ?swi⟩
  case commit =>
    intro s m hm
    refine ⟨_, rfl, ?_⟩
    rw [if_pos hm]
    exact ⟨by simp, by simp, by simp, by simp, fun n hn => by rw [State.master_upMaster, if_neg hn]⟩
  case retire =>
    intro s m hm hreads hprog
    refine ⟨_, rfl, ?_⟩
    rw [if_pos (by simp [hm, hreads])]
    dsimp only
    rw [if_neg (by simp [State.upMaster, hprog]), State.ruleSwapDone_idle (s := s.upMaster m _) hprog]
    have hself := s.master_upMaster_self m fun x => { x with swap := .idle }
    exact ⟨congrArg Master.swap hself, (congrArg Master.activeB hself).trans rfl, rfl⟩
  case pop =>
    intro s value a l ha hviol hbit
    refine ⟨_, rfl, ?_⟩
    rw [wake_awake s ha, if_neg (by simp [hviol, -BitVec.getLsbD_eq_getElem, hbit])]
    cases l <;> simp [hviol]
  case claim =>
    intro s core n hcore hn hdepth
    refine ⟨_, rfl, ?_⟩
    simp [hn, show ¬ 4 < core by omega, Nat.not_le.mpr hdepth]
  case noClaim =>
    intro s core hnone
    refine ⟨_, rfl, ?_⟩
    cases hc : s.claimable core with
    | none => simp [hc]
    | some n =>
      have hfull := hnone.resolve_left (by simp [hc])
      simp [hc, hfull]
  case complete =>
    intro s core n hn
    refine ⟨_, rfl, ?_⟩
    simp [hn]
  case badComplete =>
    intro s core n hn
    refine ⟨_, rfl, ?_⟩
    simp [hn]
  case swi =>
    intro s value ha
    refine ⟨_, rfl, fun c hc => ?_, fun n hn => ?_⟩
    · rw [State.foldl_latchSrc_source, wake_awake s ha]
      cases hv : value.getLsbD c <;> simp [hv, hc]
    · rw [State.foldl_latchSrc_source, wake_awake s ha, if_neg]
      simp
      omega

end Sys2Proof.Machine
end

section
/-! The commands of faults, spares and background work (R520 to R537). -/
namespace Sys2Proof.Machine

/-! ### Records of the sources of faults (R521, R528) -/

/-- One change at each key of a list of keys; a second change at a key does nothing more. -/
theorem Tbl.get_foldl_upd_mem {α : Type} {d : α} {f : α → α} (hf : ∀ a, f (f a) = f a) (l : List Nat) (t : Tbl α) (k : Nat) :
    (l.foldl (fun (t : Tbl α) n => t.upd n d f) t).get k d = if k ∈ l then f (t.get k d) else t.get k d := by
  induction l generalizing t with
  | nil => rfl
  | cons n l ih =>
    rw [List.foldl_cons, ih, Tbl.get_upd]
    by_cases hn : k = n
    · subst hn
      simp [hf]
    · simp [hn]

/-- A table changed entry by entry holds each entry changed. -/
theorem Tbl.get_map_indexed {α : Type} {d : α} {f : Nat → α → α} (t : Tbl α) (k : Nat) (hd : f k d = d) :
    Tbl.get (t.map fun e => (e.1, f e.1 e.2)) k d = f k (t.get k d) := by
  rw [Tbl.get, find_map_indexed, Tbl.get]
  cases t.find k <;> simp [hd]

/-- The record of a source whose recoverable faults are cleared (R528). -/
def FaultSrc.cleared (sev : Nat → Bool) (f : FaultSrc) : FaultSrc :=
  if f.active || f.force.isSome then f else { f with unc := f.unc.filter fun u => !sev u.2 }

theorem FaultSrc.cleared_sticky (sev : Nat → Bool) (f : FaultSrc) : (f.cleared sev).sticky = f.sticky := by
  rw [FaultSrc.cleared]
  split <;> rfl

@[simp] theorem State.fault_upHly (s : State) (f : Hly → Hly) (n : Nat) : (s.upHly f).fault n = s.fault n := rfl

theorem State.clearFaults_fault (s : State) (p sev : Nat → Bool) (n : Nat) :
    (s.clearFaults p sev).fault n = if p n then (s.fault n).cleared sev else s.fault n := by
  have hmap : (s.clearFaults p sev).flt.sources = s.flt.sources.map fun e => (e.1, if p e.1 then e.2.cleared sev else e.2) := by
    refine List.map_congr_left fun e _ => ?_
    cases hp : p e.1 <;> cases ha : e.2.active <;> cases hf : e.2.force.isSome <;> simp [FaultSrc.cleared, ha, hf]
  rw [State.fault, hmap, Tbl.get_map_indexed (f := fun (k : Nat) (x : FaultSrc) => if p k then x.cleared sev else x) _ _ (by simp [FaultSrc.cleared])]
  rfl

theorem State.recoverPorts_flt (s : State) : s.recoverPorts.flt = s.flt :=
  (State.but_eq_iff.mp (State.recoverPorts_but (l := [.out, .egs, .prt]) (by simp) s)).2 .flt (by decide)

@[simp] theorem State.recoverPorts_fault (s : State) (n : Nat) : s.recoverPorts.fault n = s.fault n := by
  rw [State.fault, State.recoverPorts_flt]
  rfl

/-- Raising a fault leaves what is forced (R523). -/
theorem State.raise_force (s : State) (src n : Nat) (subj : Subject) : ((s.raise src subj).fault n).force = (s.fault n).force := by
  by_cases hk : faultKnown src = true
  · by_cases he : effectiveSeverity (s.severity src) subj = 0
    · simp [State.raise, State.raiseNote, hk, he]
    · rw [State.fault, State.raise_sources hk he, Tbl.get_upd]
      split
      next h => rw [h]; rfl
      next => rfl
  · simp [State.raise, State.raiseNote, hk]

/-! ### The bodies of the commands -/

/-- The sources of a range whose severity FAULT_SET changes (R528). -/
def rangeSources (cm first count : Nat) : List Nat :=
  if cmBit cm 0 then (faultMap.map (·.1)).filter fun n => decide (first ≤ n) && decide (n < first + count) else []

theorem mem_rangeSources {cm first count n : Nat} :
    n ∈ rangeSources cm first count ↔ cmBit cm 0 = true ∧ faultKnown n = true ∧ first ≤ n ∧ n < first + count := by
  rw [rangeSources]
  split
  next h => simp [h, faultKnown]
  next h => simp [h]

theorem faultSetBody_ok {s : State} {first count cm severity quietMs vector : Nat} (hcount : 1 ≤ count) (hcount' : count ≤ 2048)
    (hlast : first + count ≤ 2048) (hsev : severity ≤ 6) (hquiet : quietMs ≤ 60000) (hvector : vector ≤ 63) :
    faultSetBody first count cm severity quietMs vector s = .ok (s.upFlt fun f => { f with
      sources := (rangeSources cm first count).foldl (fun (t : Tbl FaultSrc) n => t.upd n {} fun x => { x with severity := some severity }) f.sources
      quietMs := pick cm 1 quietMs f.quietMs, vector := pick cm 2 vector f.vector }) :=
  refuseIf_none _ _ (by simp [rangeBad, outside_eq_false, *])

theorem faultForceBody_ok {s : State} {source kind subject : Nat} (force : Bool) (hsource : source ≤ 2047) (hkind : kind ≤ 2)
    (hsubject : subject ≤ 1023) (hport : kind = 2 → subject ≤ 31) :
    faultForceBody source force kind subject s = .ok (s.forceFault source force (subjectOf kind subject)) :=
  refuseIf_none _ _ (by simp [hsource, hkind, hsubject]; tauto)

/-- The record of a source whose sticky bit goes with the faults of its range (R528). -/
def unstick (first count : Nat) (sticky : Bool) (n : Nat) (x : FaultSrc) : FaultSrc :=
  if decide (first ≤ n) && decide (n < first + count) && sticky then { x with sticky := false } else x

theorem unstick_unc (first count : Nat) (sticky : Bool) (n : Nat) (x : FaultSrc) : (unstick first count sticky n x).unc = x.unc := by
  rw [unstick]
  split <;> rfl

theorem unstick_inside {first count n : Nat} (h1 : first ≤ n) (h2 : n < first + count) (sticky : Bool) (x : FaultSrc) :
    (unstick first count sticky n x).sticky = if sticky then false else x.sticky := by
  cases sticky <;> simp [unstick, h1, h2]

theorem unstick_outside {first count n : Nat} (h : n < first ∨ first + count ≤ n) (sticky : Bool) (x : FaultSrc) :
    unstick first count sticky n x = x := by
  rw [unstick, if_neg]
  simp
  omega

theorem State.upFlt_unstick_fault (s : State) (first count : Nat) (sticky : Bool) (n : Nat) :
    (s.upFlt fun f => { f with sources := f.sources.map fun e => (e.1, unstick first count sticky e.1 e.2) }).fault n =
      unstick first count sticky n (s.fault n) :=
  Tbl.get_map_indexed _ _ (by rw [unstick]; split <;> rfl)

theorem faultClearBody_ok {s : State} {first count : Nat} (sticky : Bool) (hcount : 1 ≤ count) (hcount' : count ≤ 2048) (hlast :
    first + count ≤ 2048) :
    faultClearBody first count sticky s = .ok
      ((s.clearFaults (fun n => decide (first ≤ n) && decide (n < first + count)) fun _ => true).upFlt fun f => { f with
        sources := f.sources.map fun e => (e.1, unstick first count sticky e.1 e.2) }).recoverPorts := by
  have hmap : ∀ e : Nat × FaultSrc,
      (if decide (first ≤ e.1) && decide (e.1 < first + count) && sticky then (e.1, { e.2 with sticky := false }) else e) =
        (e.1, unstick first count sticky e.1 e.2) := fun e => by
    rw [unstick]
    split <;> rfl
  rw [faultClearBody, refuseIf_none _ _ (by simp [rangeBad, outside_eq_false, *])]
  simp only [hmap]

theorem unitCount_le (kind : Nat) : unitCount kind ≤ 1048576 := by
  unfold unitCount
  split <;> decide

theorem spareSwapBody_pend {s : State} {kind unit : Nat} (hkind : 1 ≤ kind) (hkind' : kind ≤ 7) (hunit : unit < unitCount kind)
    (hfree : s.spareFree kind unit = true) (hswaps : s.flt.swaps = []) (hretired : (kind, unit) ∉ s.flt.retired) :
    spareSwapBody kind unit s = .pend (s.upFlt fun f => { f with swaps := f.swaps ++ [{ kind, unit, commanded := true }] }) (.spareSwap kind unit)
      [.spare kind unit] := by
  have hsmall : unit ≤ 1048575 := by have := unitCount_le kind; omega
  exact refuseIf_none _ _ (by simp [outside_eq_false, hkind, hkind', hsmall, hfree, hswaps, hretired, hunit])

theorem backgroundSetBody_ok {s : State} {cm hbm sram cal trend window auto : Nat} (h : 1 ≤ hbm) (h' : hbm ≤ 168) (hs : 100 ≤ sram)
    (hs' : sram ≤ 60000) (hc : 10 ≤ cal) (hc' : cal ≤ 10000) (ht : 1 ≤ trend) (ht' : trend ≤ 1000) (hw : 1 ≤ window) (hw' : window ≤ 1440)
    (ha : auto ≤ 127) :
    backgroundSetBody cm hbm sram cal trend window auto s = .ok (s.upFlt fun f => { f with
      hbmPatrolH := pick cm 0 hbm f.hbmPatrolH, sramPatrolMs := pick cm 1 sram f.sramPatrolMs
      calPeriodMs := pick cm 2 cal f.calPeriodMs, trendThreshold := pick cm 3 trend f.trendThreshold
      trendWindowMin := pick cm 4 window f.trendWindowMin, auto := pick cm 5 (BitVec.ofNat 7 auto) f.auto }) :=
  refuseIf_none _ _ (by simp [outside_eq_false, *])

@[simp] theorem State.fetchCmd_sparesUsed (s : State) (h : HlyHdr) (kind : Nat) : (s.fetchCmd h).sparesUsed kind = s.sparesUsed kind := by
  simp [State.sparesUsed]

/-- SPARE_QUERY of a kind whose number of spares is fixed (R533). -/
theorem spareQueryBody_data {s : State} {kind : Nat} (hkind : 1 ≤ kind) (hkind' : kind ≤ 7) (hne : kind ≠ 4) :
    spareQueryBody kind s = .data s (outBytes ([(4, spareCount kind - (s.sparesUsed kind).length),
      (4, ((s.flt.retired.filter fun r => r.1 == kind).map (·.2)).length)] ++
      ((s.flt.retired.filter fun r => r.1 == kind).map (·.2)).map (fun u => (4, u)) ++ [(4, (s.sparesUsed kind).length)] ++
      (s.sparesUsed kind).map fun x => (4, x.2.2))) := by
  rw [spareQueryBody, if_neg (by simp [outside_eq_false hkind hkind'])]
  simp only [hne, if_false]

/-- Settles O34. -/
theorem faultCommandsComplete : Obligations.FaultCommandsComplete := by
  unfold Obligations.FaultCommandsComplete
  refine ⟨?set, ?force, ?clear, ?query, ?swap, ?spares, ?background⟩
  case set =>
    intro s h first count cm severity quietMs vector hr hcount hcount' hlast hsev hquiet hvector
    obtain ⟨f, hans⟩ := answers_taken hr fun f => faultSetBody_ok (s := s.upHly f) (cm := cm) hcount hcount' hlast hsev hquiet hvector
    have hget := fun n => Tbl.get_foldl_upd_mem (d := ({} : FaultSrc)) (f := fun x => { x with severity := some severity }) (fun a => rfl)
      (rangeSources cm first count) s.flt.sources n
    refine ⟨_, hans, rfl, rfl, fun n hn h1 h2 => ?_, fun n hn => ?_⟩
    · have hsrc : (n ∈ rangeSources cm first count) = (cmBit cm 0 = true) := by simp [mem_rangeSources, hn, h1, h2]
      rw [State.severity, State.fault, State.upFlt_flt]
      dsimp only
      rw [State.upHly_flt, hget]
      simp only [hsrc, pick]
      split <;> rfl
    · rw [State.severity, State.fault, State.upFlt_flt]
      dsimp only
      rw [State.upHly_flt, hget, if_neg (by rw [mem_rangeSources]; omega)]
      rfl
  case force =>
    intro s h source kind subject hr hsource hkind hsubject hport hknown
    obtain ⟨f, hans⟩ := answers_taken hr fun f => faultForceBody_ok (s := s.upHly f) false hsource hkind hsubject hport
    obtain ⟨g, hans'⟩ := answers_taken hr fun f => faultForceBody_ok (s := s.upHly f) true hsource hkind hsubject hport
    refine ⟨⟨_, hans, ?_⟩, _, hans', ?_⟩
    · simp [State.forceFault, hknown, State.fault_upFault_self]
    · rw [State.forceFault, if_neg (by simp [hknown]), if_neg (by simp)]
      dsimp only
      split <;> simp [State.raise_force, State.fault_upFault_self]
  case clear =>
    intro s h first count sticky hr hcount hcount' hlast
    obtain ⟨f, hans⟩ := answers_taken hr fun f => faultClearBody_ok (s := s.upHly f) sticky hcount hcount' hlast
    refine ⟨_, hans, fun n h1 h2 ha hf => ?_, fun n h1 h2 => ?_, fun n hn => ?_⟩
    · rw [State.recoverPorts_fault, State.upFlt_unstick_fault, unstick_unc, State.clearFaults_fault, if_pos (by simp [h1, h2]),
        FaultSrc.cleared, State.fault_upHly, if_neg (by simp [ha, hf])]
      simp
    · have hin : (decide (first ≤ n) && decide (n < first + count)) = true := by simp [h1, h2]
      rw [State.recoverPorts_fault, State.upFlt_unstick_fault, State.clearFaults_fault, hin, if_pos rfl, unstick_inside h1 h2,
        FaultSrc.cleared_sticky, State.fault_upHly]
    · rw [State.recoverPorts_fault, State.upFlt_unstick_fault, unstick_outside hn, State.clearFaults_fault, if_neg, State.fault_upHly]
      simp
      omega
  case query =>
    intro s h first count hr hcount hcount' hlast
    replace hr : s.runs h 0x0D04 0 (16 + 4 * min count 256) [] = true := by rwa [Nat.min_eq_left hcount']
    have hlen : ∀ u : State, (outBytes ([(4, u.fltStatus), (4, u.flt.recoveries), (4, u.fltCfg), (4, count)] ++
        (List.range count).map fun i => (4, u.fltSource (first + i)))).length = 16 + 4 * count := fun u => by
      simp [outBytes_length, Function.comp_def]
      omega
    refine ⟨_, answers_of hr (if_neg ?_) ?_, hlen _⟩
    · simp [rangeBad, outside_eq_false hcount hcount', hlast]
    · rw [hlen, ← Nat.min_eq_left hcount']
      exact runs_outLen_le hr
  case swap =>
    intro s h kind unit hr hkind hkind' hunit hfree hswaps hretired
    obtain ⟨f, hst⟩ := starts_taken hr fun f => spareSwapBody_pend (s := s.upHly f) hkind hkind' hunit hfree hswaps hretired
    exact ⟨_, hst, by simp [hswaps], rfl⟩
  case spares =>
    intro s h kind hr hkind hkind' hne hroom
    have hbody := spareQueryBody_data (s := s.fetchCmd h) hkind hkind' hne
    rw [State.fetchCmd_flt, State.fetchCmd_sparesUsed] at hbody
    refine ⟨_, answers_of hr hbody ?_, ?_⟩
    · simp [outBytes_length, Function.comp_def]
      omega
    · exact List.take_left' (bytesLE_length ..)
  case background =>
    intro s h cm hbm sram cal trend window auto hr h1 h2 h3 h4 h5 h6 h7 h8 h9 h10 h11
    obtain ⟨f, hans⟩ := answers_taken hr fun f => backgroundSetBody_ok (s := s.upHly f) (cm := cm) h1 h2 h3 h4 h5 h6 h7 h8 h9 h10 h11
    exact ⟨_, hans, rfl, rfl, rfl, rfl, rfl, rfl⟩

end Sys2Proof.Machine
end

section
/-! Events that raise faults, spares and background work (R521 to R536). -/
namespace Sys2Proof.Machine

/-! ### What a fault that is raised leaves of the fault block -/

theorem State.raiseNote_flt (s : State) (src : Nat) (subj : Subject) :
    ∃ a c, (s.raiseNote src subj).2.flt = { s.flt with sources := a, intStatus := c } := by
  have hsend : ∀ (t : State) (v : Nat), (t.msixSend 0 v).flt = t.flt := fun t v => by simp
  rw [State.raiseNote]
  split
  · exact ⟨_, _, rfl⟩
  · dsimp only
    split
    · exact ⟨_, _, rfl⟩
    · split
      · exact ⟨_, _, (hsend _ _).trans rfl⟩
      · exact ⟨_, _, rfl⟩

/-- A fault that is raised changes the records of the sources, the interrupt bits and what is owed, and nothing else of the block. -/
theorem State.raise_flt (s : State) (src : Nat) (subj : Subject) :
    ∃ a b c, (s.raise src subj).flt = { s.flt with sources := a, actions := b, intStatus := c } := by
  obtain ⟨a, c, h⟩ := s.raiseNote_flt src subj
  rw [State.raise]
  dsimp only
  split
  · exact ⟨a, _, c, by rw [State.upFlt_flt, h]⟩
  · exact ⟨a, s.flt.actions, c, h⟩

theorem State.raise_poisonLines (s : State) (src : Nat) (subj : Subject) : (s.raise src subj).flt.poisonLines = s.flt.poisonLines := by
  obtain ⟨a, b, c, h⟩ := s.raise_flt src subj
  rw [h]

theorem State.raiseLevel_halted (s : State) (src : Nat) (subj : Subject) : (s.raiseLevel src subj).flt.halted = s.flt.halted := by
  rw [State.raiseLevel]
  split
  · rfl
  · obtain ⟨a, b, c, h⟩ := (s.upFault src fun f => { f with active := true }).raise_flt src subj
    rw [h]
    rfl

theorem mem_addOnce_self {α : Type} [DecidableEq α] (l : List α) (x : α) : x ∈ addOnce l x := by
  rw [addOnce]
  split
  next h => exact h
  next => simp

/-! ### Swaps of spares (R533, R534) -/

@[simp] theorem State.spareTakes_flt (s : State) (kind unit : Nat) : (s.spareTakes kind unit).flt = s.flt :=
  (State.but_eq_iff.mp (State.spareTakes_but (l := [.rte, .dir, .mec, .icu]) (by simp) s kind unit)).2 .flt (by decide)

@[simp] theorem State.finishWait_flt (s : State) (w : Wait) (st r : Nat) : (s.finishWait w st r).flt = s.flt :=
  (State.but_eq_iff.mp (State.finishWait_but (l := [.out, .hly, .obf, .trn, .ins, .msix]) (by simp) s w st r)).2 .flt (by decide)

/-- The one swap under way ends with its spare in use. -/
theorem State.swapDone_only {s : State} {kind unit : Nat} {c : Bool} (hrun : s.flt.halted = false)
    (hswaps : s.flt.swaps = [{ kind, unit, commanded := c }]) (hwait : s.flt.swapWait = []) :
    (s.swapDone kind unit).flt = { s.flt with swaps := [], spares := s.flt.spares ++ [(kind, spareNumber kind unit, unit)]
                                              intStatus := setFlag s.flt.intStatus 2 } := by
  simp [State.swapDone, hrun, hswaps, hwait, takeFirst]

/-- After the quiet period no recoverable fault is left (R524). -/
theorem State.recover_unc {s : State} (hquiet : s.flt.quietMs ≠ 0) (hrun : s.flt.halted = false)
    (hdue : ∃ e ∈ s.flt.sources, ∃ x ∈ e.2.unc, recoverable x.2 = true) (hidle : ∀ e ∈ s.flt.sources, e.2.active = false ∧ e.2.force = none) :
    s.recover = ((s.clearFaults (fun _ => true) recoverable).upFlt fun f => { f with
      recoveries := satAdd 32 f.recoveries 1, intStatus := setFlag f.intStatus 1 }).recoverPorts := by
  have hany : (s.flt.sources.any fun e => e.2.unc.any fun u => recoverable u.2) = true := by simpa using hdue
  have hnone : (s.flt.sources.any fun e => (e.2.active || e.2.force.isSome) && decide (2 ≤ e.2.effective)) = false :=
    List.any_eq_false.mpr fun e he => by simp [hidle e he]
  rw [State.recover]
  rw [hany, hnone, if_neg (by simp [hquiet, hrun])]

/-- A fault of a source at rest that is cleared is gone. -/
theorem FaultSrc.cleared_unc {f : FaultSrc} (ha : f.active = false) (hf : f.force = none) (sev : Nat → Bool) {x : Subject × Nat}
    (hx : x ∈ (f.cleared sev).unc) : sev x.2 = false := by
  rw [FaultSrc.cleared, if_neg (by simp [ha, hf])] at hx
  simpa using (List.mem_filter.mp hx).2

/-- What holds of every source noted and of an unknown one holds of every source. -/
theorem State.fault_all {s : State} {p : FaultSrc → Prop} (hd : p {}) (h : ∀ e ∈ s.flt.sources, p e.2) (n : Nat) : p (s.fault n) := by
  rw [State.fault, Tbl.get]
  cases hf : s.flt.sources.find n with
  | none => exact hd
  | some f => exact h _ (Tbl.mem_of_find hf)

/-! ### Errors of memory (R535) -/

theorem State.lostEntries_flt (s : State) (address : Nat) : (s.lostEntries address).flt = s.flt :=
  (State.but_eq_iff.mp (State.lostEntries_but (l := [.dir]) (by simp) s address)).2 .flt (by decide)

theorem State.raise_hbmRegion (s : State) (src : Nat) (subj : Subject) (address : Nat) :
    (s.raise src subj).hbmRegion address = s.hbmRegion address := by
  simp [State.hbmRegion]

theorem State.swap_started {s : State} {kind unit : Nat} (hfree : s.spareFree kind unit = true) (hswaps : s.flt.swaps = [])
    (hwait : s.flt.swapWait = []) (hretired : (kind, unit) ∉ s.flt.retired) :
    (s.wantSwap kind unit).flt.swaps = [{ kind, unit, commanded := false }] := by
  simp [State.wantSwap, hfree, hswaps, hwait, hretired]

theorem State.coreFails_coresFailed (s : State) {core : Nat} (src : Nat) (hcore : core ≤ 4) :
    s.coreFails src core = (s.upMgc fun m => { m with coresFailed := addOnce m.coresFailed core }).raise src (.unit core) ∧
      core ∈ (s.coreFails src core).mgc.coresFailed := by
  have heq : s.coreFails src core = (s.upMgc fun m => { m with coresFailed := addOnce m.coresFailed core }).raise src (.unit core) :=
    if_neg (by omega)
  refine ⟨heq, ?_⟩
  simp [heq, mem_addOnce_self]

/-- Settles O35. -/
theorem faultEventsTakeEffect : Obligations.FaultEventsTakeEffect := by
  unfold Obligations.FaultEventsTakeEffect
  refine ⟨?sram, ?engine, ?core, ?directory, ?route, ?channel, ?datapath, ?bridge, ?hbm, ?ageing, ?trend, ?done, ?quiet, ?calibrate⟩
  case sram =>
    intro s row
    rfl
  case engine =>
    intro s engine he
    exact congrArg ends (if_neg (by omega))
  case core =>
    intro s core hc
    exact ⟨⟨_, rfl, (s.coreFails_coresFailed 1729 hc).2, (s.coreFails_coresFailed 1729 hc).1⟩,
      _, rfl, (s.coreFails_coresFailed 1728 hc).2, (s.coreFails_coresFailed 1728 hc).1⟩
  case directory =>
    intro s bank hb hmoved
    refine ⟨_, rfl, ?_, ?_⟩ <;> rw [if_neg (by omega)]
    · simp
    · simp [hmoved, show bank ≠ 32 by omega, show bank ≠ 63 by omega]
  case route =>
    intro s tile bank ht hb
    exact congrArg ends (if_neg (by simp; omega))
  case channel =>
    intro s channel hc
    exact congrArg ends (if_neg (by omega))
  case datapath =>
    intro s
    rfl
  case bridge =>
    intro s bridge
    rfl
  case hbm =>
    intro s address owner
    have hline : address / 64 ∈ ((s.upFlt fun f => { f with poisonLines := addOnce f.poisonLines (address / 64) }).raise 833
        (.unit (Config.hbmRow address))).flt.poisonLines := by
      rw [State.raise_poisonLines]
      exact mem_addOnce_self ..
    refine ⟨_, rfl, ?_, fun hregion => ?_⟩
    · split
      · rw [State.lostEntries_flt]
        exact hline
      · contradiction
      · contradiction
      · exact hline
    · split
      next h => exact absurd ((State.raise_hbmRegion ..).symm.trans h) hregion
      next => contradiction
      next => contradiction
      next => rfl
  case ageing =>
    intro s kind unit hkind hunit hrun
    refine ⟨_, rfl, if_neg ?_⟩
    simp [State.raiseLevel_halted, hrun, hunit, -List.mem_cons, hkind]
  case trend =>
    intro s kind unit hrun hkind hkind' hunit hauto hfree hswaps hwait hretired
    refine ⟨_, rfl, ?_⟩
    rw [if_neg (by simp [hrun, outside_eq_false hkind hkind', hunit, -BitVec.getLsbD_eq_getElem, hauto])]
    exact State.swap_started hfree hswaps hwait hretired
  case done =>
    intro s kind unit c hrun hswaps hwait
    have hflt := State.swapDone_only hrun hswaps hwait
    exact ⟨_, rfl, congrArg Flt.swaps hflt, congrArg Flt.spares hflt, congrArg Flt.intStatus hflt⟩
  case quiet =>
    intro s hquiet hrun hdue hidle
    refine ⟨_, rfl, ?_⟩
    rw [State.recover_unc hquiet hrun hdue hidle]
    refine ⟨by rw [State.recoverPorts_flt]; rfl, fun n x hx => ?_⟩
    obtain ⟨ha, hf⟩ := s.fault_all (p := fun f => f.active = false ∧ f.force = none) ⟨rfl, rfl⟩ hidle n
    rw [State.recoverPorts_fault] at hx
    exact FaultSrc.cleared_unc ha hf recoverable ((s.clearFaults_fault (fun _ => true) recoverable n).trans (if_pos rfl) ▸ hx)
  case calibrate =>
    intro s hstorm hbare
    refine ⟨_, rfl, ?_⟩
    rw [if_neg (by simp [hstorm, hbare])]
    exact ⟨rfl, rfl⟩

end Sys2Proof.Machine
end

section
/-! The observation commands (R540 to R554). -/
namespace Sys2Proof.Machine

/-! ### Streams (R545 to R554) -/

@[simp] theorem State.stream_upStream_self (s : State) (n : Nat) (f : Stream → Stream) : (s.upStream n f).stream n = f (s.stream n) := by
  by_cases h : n = 0 <;> simp [State.stream, State.upStream, h]

@[simp] theorem State.upHly_stream (s : State) (f : Hly → Hly) (n : Nat) : (s.upHly f).stream n = s.stream n := rfl

@[simp] theorem State.upTtc_stream {s : State} {f : Ttc → Ttc} (h0 : (f s.ttc).stream0 = s.ttc.stream0) (h1 : (f s.ttc).stream1 = s.ttc.stream1)
    (n : Nat) : (s.upTtc f).stream n = s.stream n := by
  simp only [State.stream, State.upTtc_ttc, h0, h1]

@[simp] theorem State.upCsc_stream (s : State) (f : Csc → Csc) (n : Nat) : (s.upCsc f).stream n = s.stream n := rfl

@[simp] theorem State.upRte_stream (s : State) (f : Rte → Rte) (n : Nat) : (s.upRte f).stream n = s.stream n := rfl

@[simp] theorem State.emit_stream (s : State) (o : Out) (n : Nat) : (s.emit o).stream n = s.stream n := rfl

theorem State.stream_of_but {l : List Block} {s t : State} (h : t.but l = s.but l) (hl : .ttc ∉ l) (n : Nat) : t.stream n = s.stream n := by
  rw [State.stream, (State.but_eq_iff.mp h).2 .ttc hl]
  rfl

/-- What a stream becomes depends on the stream as it is. -/
theorem State.upStream_congr {s : State} {n : Nat} {f g : Stream → Stream} (h : f (s.stream n) = g (s.stream n)) :
    s.upStream n f = s.upStream n g := by
  by_cases hn : n = 0 <;> simp [State.stream, hn] at h <;> simp [State.upStream, State.upTtc, hn, h]

@[simp] theorem State.queueBackground_stream (s : State) (o : Nat) (p : List Nat) (n : Nat) : (s.queueBackground o p).stream n = s.stream n :=
  State.stream_of_but (l := [.egs]) (by simp) (by decide) n

/-- A snapshot staged (R546): it waits behind the others, and the next has the next sequence number. -/
theorem State.stage_stream (s : State) (n kind i : Nat) (final : Option Nat) :
    ((s.stage n kind i final).stream n).staged = (s.stream n).staged ++
        [{ kind, seq := (s.stream n).sequence, final, image := s.slotImage (s.stream n) kind i }] ∧
      ((s.stage n kind i final).stream n).sequence = ((s.stream n).sequence + 1) % 2 ^ 32 ∧
      ((s.stage n kind i final).stream n).lost = (s.stream n).lost := by
  rw [State.stage]
  dsimp only
  split <;> split <;> simp

/-! ### The bodies of the observation commands -/

theorem ttcSetBody_ok {s : State} {block counter event period : Nat} (hblock : block ≤ 27) (hcounter : counter ≤ 7)
    (hevent : eventOf block event = true) (hperiod : period < 2 ^ 32) (hsampled : period ≠ 0 → block = 14) (hprog : s.ttc.programmable = true) :
    ttcSetBody block counter event period s = .ok (s.upTtc fun t => { t with counters := t.counters.upd (8 * block + counter) {} fun c =>
      { c with event := some event, period, countdown := [] } }) := by
  have hp : (decide (period ≠ 0) && decide (block ≠ 14)) = false := by
    by_cases h : period = 0
    · simp [h]
    · simp [hsampled h]
  exact refuseIf_none _ _ (by
    simp only [List.all_cons, hp]
    simp [hblock, hcounter, hevent, hprog]
    omega)

/-- DUMP_SET of a stream that is off applies at once (R545). -/
theorem dumpSetBody_off {s : State} {stream cm interval base slots vector : Nat} (hs : stream ≤ 1) (hi : interval ≤ 60000) (hb : base % 4096 = 0)
    (hslots : 2 ≤ slots) (hslots' : slots ≤ 64) (hv : vector ≤ 63) (hoff : (s.stream stream).interval = 0)
    (hpend : (s.stream stream).pending = none) :
    dumpSetBody stream cm interval base slots vector true s = .ok (s.upStream stream fun st => st.apply
      (pick cm 0 interval (s.stream stream).interval, pick cm 1 base (s.stream stream).base, pick cm 2 slots (s.stream stream).slots,
        pick cm 3 vector (s.stream stream).vector)) := by
  rw [dumpSetBody, refuseIf_none _ _ (by simp [outside_eq_false, *])]
  refine congrArg HRes.ok (State.upStream_congr ?_)
  simp [hoff, hpend]

/-- DUMP_SET of a stream that is on waits for the next boundary of its interval (R554). -/
theorem dumpSetBody_on {s : State} {stream cm interval base slots vector : Nat} (hs : stream ≤ 1) (hi : interval ≤ 60000) (hv : vector ≤ 63)
    (h1 : cmBit cm 1 = false) (h2 : cmBit cm 2 = false) (hon : (s.stream stream).interval ≠ 0) (hpend : (s.stream stream).pending = none) :
    dumpSetBody stream cm interval base slots vector true s = .ok (s.upStream stream fun st => { st with
      pending := some (pick cm 0 interval (s.stream stream).interval, (s.stream stream).base, (s.stream stream).slots,
        pick cm 3 vector (s.stream stream).vector) }) := by
  rw [dumpSetBody, refuseIf_none _ _ (by simp [*])]
  refine congrArg HRes.ok (State.upStream_congr ?_)
  simp [hon, hpend, pick, h1, h2]

theorem probeSetBody_ok {s : State} {probe bridge action source destination kinds addr mask records : Nat} (hp : probe ≤ 7) (hb : bridge ≤ 255)
    (ha : action ≤ 3) (hs : source ≤ 31) (hd : destination ≤ 31) (hk : kinds ≤ 31) (hr : 1 ≤ records) (hr' : records ≤ 65536)
    (hroom : s.traceBytes probe + 32 * records ≤ 67108864) (hex : Config.bridgeExists bridge = true) :
    probeSetBody probe bridge action source destination kinds addr mask records s = .ok (s.upTtc fun t => { t with probes := t.probes.put probe {
      action, bridge, source, destination, kindMask := BitVec.ofNat 5 kinds, matchAddr := BitVec.ofNat 64 addr, mask := BitVec.ofNat 64 mask
      records } }) :=
  refuseIf_none _ _ (by simp [outside_eq_false, *])

theorem probeSetBody_noBridge {s : State} {bridge : Nat} (probe action source destination kinds addr mask records : Nat)
    (hex : Config.bridgeExists bridge = false) :
    probeSetBody probe bridge action source destination kinds addr mask records s = .refuse 0x012A := by
  simp [probeSetBody, refuseIf, hex]

theorem probeImage_length (p : Probe) (first count : Nat) : (probeImage p first count).length = 24 + 32 * count := by
  rw [probeImage, List.length_append, length_flatMap_range fun i => bytesLE_length .., Nat.mul_comm]
  simp [outBytes_length]

theorem mtrSetBody_pend {s : State} {action inst : Nat} (ha : action ≤ 1) (hinst : inst ≤ 1023) (hused : s.notFree inst = true)
    (hslots : (s.stream 1).slots ≠ 0) :
    mtrSetBody action inst s = .pend (s.stage 1 (if action = 0 then 3 else 4) inst none) (.dump (s.stream 1).sequence) [] :=
  refuseIf_none _ _ (by simp [*])

/-- Settles O37. -/
theorem observationCommandsComplete : Obligations.ObservationCommandsComplete := by
  unfold Obligations.ObservationCommandsComplete
  refine ⟨?ttc, ?dumpOff, ?dumpOn, ?probe, ?query, ?metering⟩
  case ttc =>
    intro s h block counter event period hr hblock hcounter hevent hperiod hsampled hprog
    obtain ⟨f, hans⟩ := answers_taken hr fun f => ttcSetBody_ok (s := s.upHly f) hblock hcounter hevent hperiod hsampled hprog
    refine ⟨_, hans, by simp, fun k hk => ?_⟩
    simp [Tbl.get_upd, hk]
  case dumpOff =>
    intro s h stream cm interval base slots vector hr hs hi hb hslots hslots' hv hoff hpend
    obtain ⟨f, hans⟩ := answers_taken hr fun f => dumpSetBody_off (s := s.upHly f) (cm := cm) hs hi hb hslots hslots' hv hoff hpend
    exact ⟨_, hans, by simp [Stream.apply], by simp [Stream.apply], by simp [Stream.apply], by simp [Stream.apply], by simp [Stream.apply]⟩
  case dumpOn =>
    intro s h stream cm interval base slots vector hr hs hi hv h1 h2 hon hpend
    obtain ⟨f, hans⟩ := answers_taken hr fun f => dumpSetBody_on (s := s.upHly f) (cm := cm) hs hi hv h1 h2 hon hpend
    exact ⟨_, hans, by simp, by simp⟩
  case probe =>
    intro s h probe bridge action source destination kinds addr mask records hr hp hb ha hs hd hk hrec hrec' hroom
    refine ⟨fun hex => ?_, fun hex => ends_refused hr (probeSetBody_noBridge probe action source destination kinds addr mask records hex)⟩
    obtain ⟨f, hans⟩ := answers_taken hr fun f => probeSetBody_ok (s := s.upHly f) (addr := addr) (mask := mask) hp hb ha hs hd hk hrec hrec'
      hroom hex
    refine ⟨_, hans, by simp [State.probe], fun p hne => ?_⟩
    exact (Tbl.get_put ..).trans (if_neg hne)
  case query =>
    intro s h probe first count hr hp hf hc
    exact answers_query hr (fun f => refuseIf_none _ _ (by simp [hp, hf, hc])) (probeImage_length ..)
  case metering =>
    intro s h action inst hr ha hinst hused hslots
    obtain ⟨f, hst⟩ := starts_taken hr fun f => show _ = HRes.pend _ (.dump (s.stream 1).sequence) [] from
      mtrSetBody_pend (s := s.upHly f) ha hinst hused hslots
    obtain ⟨hstaged, hseq, -⟩ := (s.upHly f).stage_stream 1 (if action = 0 then 3 else 4) inst none
    exact ⟨_, hst, by rw [hstaged]; simp, hseq⟩

end Sys2Proof.Machine
end

section
/-! Counters, snapshots, probes and metering (R541 to R553). -/
namespace Sys2Proof.Machine

/-! ### What is given out stays in the record of outputs -/

theorem State.mem_out_emit {s : State} {o : Out} (h : o ∈ s.out) (p : Out) : o ∈ (s.emit p).out := List.mem_cons_of_mem _ h

theorem State.mem_out_access {s : State} {o : Out} (h : o ∈ s.out) (i : Nat) (a : HostAcc) (p : Out) : o ∈ (s.access i a p).out := by
  rw [State.access]
  split
  · exact h
  · exact State.mem_out_emit h _

theorem State.mem_out_logBack {s : State} {o : Out} (h : o ∈ s.out) (i : Nat) (b : Bool) (p : Nat → Bool) : o ∈ (s.logBack i b p).out := by
  have hsplit : ∀ (c : Bool) (t : State) (x : Out), t.out = s.out → o ∈ (if c then t else t.emit x).out := fun c t x ht => by
    cases c
    · exact State.mem_out_emit (ht ▸ h) x
    · exact ht ▸ h
  exact hsplit _ _ _ rfl

theorem State.mem_out_hostWrite {s : State} {o : Out} (h : o ∈ s.out) (i address : Nat) (data : List Nat) :
    o ∈ (s.hostWrite i address data).out := by
  rw [State.hostWrite, State.evictLines]
  apply State.mem_out_access
  apply State.mem_out_logBack
  exact h

theorem State.mem_out_msixSend {s : State} {o : Out} (h : o ∈ s.out) (i vector : Nat) : o ∈ (s.msixSend i vector).out := by
  rw [State.msixSend]
  dsimp only
  (repeat' split)
  · exact h
  · exact h
  · exact h
  · exact State.mem_out_access h _ _ _

theorem State.mem_out_sendLane {s : State} {o : Out} (h : o ∈ s.out) (kind target queue seq serial attempt : Nat) (directed : Bool)
    (ports message : List Nat) : o ∈ (s.sendLane kind target directed ports queue seq serial attempt message).out := by
  by_cases hd : directed = false ∨ s.linkUp (ports.getD 0 0) = true
  · rw [State.sendLane_out _ _ _ _ _ _ _ hd]
    exact h
  · obtain ⟨h1, h2⟩ := not_or.mp hd
    rw [State.sendLane]
    dsimp only
    rw [if_pos (by simpa using h1), if_neg h2]
    exact State.mem_out_emit h _

theorem State.mem_out_ringReply {s : State} {o : Out} (h : o ∈ s.out) (q : Nat) (r : Reply) : o ∈ (s.ringReply q r).out := by
  rw [State.ringReply]
  dsimp only
  split
  · apply State.mem_out_msixSend
    exact State.mem_out_emit h _
  · exact State.mem_out_emit h _

theorem State.mem_out_writeReply {s : State} {o : Out} (h : o ∈ s.out) (r : Reply) : o ∈ (s.writeReply r).out := by
  cases hs : r.src with
  | host q =>
    simp only [State.writeReply, hs]
    split
    · exact h
    · exact State.mem_out_ringReply h _ _
  | inband a q n d =>
    simp only [State.writeReply, hs]
    apply State.mem_out_sendLane
    exact State.mem_out_emit h _
  | board =>
    simp only [State.writeReply, hs]
    exact State.mem_out_emit h _

theorem State.noteStatus_out (s : State) (st : Nat) : (s.noteStatus st).out = s.out := by
  rw [State.noteStatus]
  (repeat' split) <;> rfl

theorem State.mem_out_finish {s : State} {o : Out} (h : o ∈ s.out) (p : Prog → Bool) (st r : Nat) : o ∈ (s.finish p st r).out := by
  rw [State.finish]
  split
  · exact h
  · dsimp only
    split
    · rw [State.noteStatus_out]
      exact h
    · refine State.mem_out_writeReply ?_ _
      rw [State.noteStatus_out]
      exact h

/-! ### Tables changed value by value -/

/-- A change of every value that keeps the default changes what is read. -/
theorem Tbl.get_mapv {α : Type} (t : Tbl α) {f : α → α} {d : α} (hd : f d = d) (k : Nat) : (t.mapv f).get k d = f (t.get k d) := by
  rw [Tbl.get, Tbl.find_mapv, Tbl.get]
  cases t.find k <;> simp [hd]

/-! ### Snapshots and their slots (R546 to R551) -/

@[simp] theorem State.hostWrite_stream (s : State) (i address : Nat) (data : List Nat) (n : Nat) :
    (s.hostWrite i address data).stream n = s.stream n :=
  State.stream_of_but (l := [.out, .ins]) (by simp) (by decide) n

@[simp] theorem State.msixSend_stream (s : State) (i v n : Nat) : (s.msixSend i v).stream n = s.stream n :=
  State.stream_of_but (l := [.out, .ins, .msix]) (by simp) (by decide) n

@[simp] theorem State.finishWait_stream (s : State) (w : Wait) (st r n : Nat) : (s.finishWait w st r).stream n = s.stream n :=
  State.stream_of_but (l := [.out, .hly, .obf, .trn, .ins, .msix]) (by simp) (by decide) n

@[simp] theorem State.upEgress_stream (s : State) (o : Nat) (f : Egress → Egress) (n : Nat) : (s.upEgress o f).stream n = s.stream n := rfl

/-- With no change of settings owed and no slot freed, an interval of a stream that is on takes its snapshot (R546). -/
theorem State.snapshot_room {s : State} {n : Nat} (hon : (s.stream n).interval ≠ 0) (hstorm : s.pwr.mode ≠ .stormJib)
    (hroom : (s.stream n).hasRoom = true) : ∃ k, s.snapshot n = s.stage n k 0 none := by
  rw [State.snapshot]
  rw [if_neg hon, if_neg hstorm, if_neg (by simp [hroom])]
  exact ⟨_, rfl⟩

theorem State.snapshot_noRoom {s : State} {n : Nat} (hon : (s.stream n).interval ≠ 0) (hstorm : s.pwr.mode ≠ .stormJib)
    (hroom : (s.stream n).hasRoom = false) : s.snapshot n = s.loseSnapshot n := by
  rw [State.snapshot]
  rw [if_neg hon, if_neg hstorm, if_pos (by simp [hroom])]

theorem State.loseSnapshot_stream (s : State) (n : Nat) :
    (s.loseSnapshot n).stream n = { s.stream n with lost := ((s.stream n).lost + 1) % 2 ^ 32, sequence := ((s.stream n).sequence + 1) % 2 ^ 32 } := by
  rw [State.loseSnapshot]
  dsimp only
  split <;> simp

theorem State.upStream_eq_self {s : State} {n : Nat} {f : Stream → Stream} (h : f (s.stream n) = s.stream n) : s.upStream n f = s := by
  by_cases hn : n = 0 <;> simp [State.stream, hn] at h <;> simp [State.upStream, State.upTtc, hn, h]

@[simp] theorem State.freeSlots_nil (s : State) (n : Nat) : s.freeSlots n [] = s :=
  State.upStream_eq_self (by simp)

@[simp] theorem State.upStream_instance (s : State) (n : Nat) (f : Stream → Stream) (i : Nat) : (s.upStream n f).instance_ i = s.instance_ i := rfl

@[simp] theorem State.upInst_stream (s : State) (i : Nat) (f : Instance → Instance) (n : Nat) : (s.upInst i f).stream n = s.stream n := rfl

theorem State.freeInstance_idle {s : State} (h : s.hly.progress = []) (i : Nat) :
    s.freeInstance i = s.upInst i fun n => { gen := n.gen, retired := n.retired } := by
  rw [State.freeInstance, State.finishWait_idle (s := s.upInst i _) h]

/-- The oldest snapshot is written to the next slot, which is then full (R546). -/
theorem State.writeSlot_writes {s : State} {n : Nat} {snap : Snapshot} {rest : List Snapshot} (hstaged : (s.stream n).staged = snap :: rest)
    (hfree : (s.stream n).slotFree = true) (hfinal : snap.final = none) :
    (s.writeSlot n).stream n = { s.stream n with
        staged := rest, full := (s.stream n).full ++ [(s.stream n).next], next := ((s.stream n).next + 1) % (s.stream n).slots } ∧
      .dump n (s.stream n).next snap.image ∈ (s.writeSlot n).out := by
  simp only [State.writeSlot, hstaged, hfree, hfinal, Bool.not_true, Bool.false_eq_true, if_false]
  constructor
  · split <;> split <;> simp
  · have hflag : ∀ (c : Prop) [Decidable c] (t : State) (f : Ttc → Ttc) (o : Out), o ∈ t.out → o ∈ (if c then t.upTtc f else t).out :=
      fun c _ t f o h => by split <;> exact h
    split
    · apply State.mem_out_finish
      apply State.mem_out_msixSend
      apply hflag
      apply State.mem_out_hostWrite
      exact List.mem_cons_self
    · apply State.mem_out_msixSend
      apply hflag
      apply State.mem_out_hostWrite
      exact List.mem_cons_self

/-- A probe that only counts keeps no record (R552). -/
theorem Probe.hit_counts {p : Probe} (h : p.action = 1) (length record : Nat) :
    p.hit length record = { p with matches_ := (p.matches_ + 1) % 2 ^ 64, bytes := (p.bytes + length) % 2 ^ 64 } := by
  rw [Probe.hit, if_neg (by simp [h])]

/-- Settles O38. -/
theorem observationEventsTakeEffect : Obligations.ObservationEventsTakeEffect := by
  unfold Obligations.ObservationEventsTakeEffect
  refine ⟨?accumulate, ?sample, ?room, ?noRoom, ?written, ?metering, ?probe, ?trace⟩
  case accumulate =>
    intro s hprog
    refine ⟨_, rfl, fun k => ?_⟩
    rw [if_pos hprog, State.upTtc_ttc, Tbl.get_mapv _ rfl]
    exact ⟨rfl, rfl⟩
  case sample =>
    intro s engine counter pc hprog hc he hperiod
    refine ⟨_, rfl, ?_⟩
    rw [if_neg (by simp [hprog, hc, he, hperiod])]
    simp [State.latchSrc]
  case room =>
    intro s stream hs hlost hbare hstorm hpend hon hroom
    refine ⟨_, rfl, ?_⟩
    rw [if_neg (by simp [hlost, hbare, hs])]
    dsimp only
    rw [State.freeSlots_nil, State.upStream_eq_self (by simp only [hpend])]
    obtain ⟨k, hk⟩ := State.snapshot_room hon hstorm hroom
    obtain ⟨hstaged, hseq, hl⟩ := s.stage_stream stream k 0 none
    rw [hk, hstaged]
    exact ⟨by simp, hseq, hl⟩
  case noRoom =>
    intro s stream hs hlost hbare hstorm hpend hon hroom
    refine ⟨_, rfl, ?_⟩
    rw [if_neg (by simp [hlost, hbare, hs])]
    dsimp only
    rw [State.freeSlots_nil, State.upStream_eq_self (by simp only [hpend]), State.snapshot_noRoom hon hstorm hroom, State.loseSnapshot_stream]
    exact ⟨rfl, rfl, rfl⟩
  case written =>
    intro s stream snap rest hs hlost hbare hstorm hstaged hfree hfinal
    refine ⟨_, rfl, ?_⟩
    rw [if_neg (by simp [hlost, hbare, hstorm, hs]), State.freeSlots_nil]
    obtain ⟨hstream, hout⟩ := State.writeSlot_writes hstaged hfree hfinal
    rw [hstream]
    exact ⟨rfl, rfl, rfl, hout⟩
  case metering =>
    intro s inst hwait hprog
    refine ⟨_, rfl, ?_⟩
    rw [if_neg (by simp [hwait])]
    dsimp only
    rw [State.finishWait_idle (s := s.upStream 1 _) hprog, State.freeInstance_idle (s := s.upStream 1 _) hprog]
    simp
  case probe =>
    intro s bridge source destination kind address length p direction hhits haction
    have hget := fun q => Tbl.get_mapv s.ttc.probes (d := ({} : Probe)) (f := fun p => if probeHits p bridge source destination kind address then
      p.hit length (traceImage s.ftu.time bridge source destination kind address length direction) else p) (if_neg (by simp [probeHits])) q
    refine ⟨_, rfl, ?_⟩
    simp only [State.probe, State.upTtc_ttc, hget]
    rw [if_pos (by exact hhits)]
    rw [Probe.hit_counts (by exact haction)]
    exact ⟨rfl, rfl, rfl, fun q hq => if_neg (ne_true_of_eq_false hq)⟩
  case trace =>
    intro s p r rest hwait
    refine ⟨_, rfl, ?_⟩
    rw [if_neg (by simp [hwait])]
    exact (Tbl.get_put_self ..).trans (by rw [hwait]; rfl)

end Sys2Proof.Machine
end

section
/-! Firmware, resets and the steps of a boot (R557 to R572, R587). -/
namespace Sys2Proof.Machine

/-! ### Firmware and leaving the fabric (R564, R570) -/

@[simp] theorem State.fetchCmd_imageOk (s : State) (h : HlyHdr) (n : Nat) : (s.fetchCmd h).imageOk n = s.imageOk n := by simp [State.imageOk]

@[simp] theorem State.fetchCmd_runningSlot (s : State) (h : HlyHdr) (n : Nat) : (s.fetchCmd h).runningSlot n = s.runningSlot n := by
  cases h with | mk src => cases src <;> rfl

@[simp] theorem State.fetchCmd_floor (s : State) (h : HlyHdr) : (s.fetchCmd h).floor = s.floor := by simp [State.floor]

theorem Mgc.flashSlot_upFlash_self (s : State) (n : Nat) (f : FlashSlot → FlashSlot) :
    (s.upFlash n f).mgc.flashSlot n = f (s.mgc.flashSlot n) := by
  by_cases h : n = 0 <;> simp [State.upFlash, Mgc.flashSlot, h]

theorem Mgc.flashSlot_upFlash_other (s : State) {n : Nat} (hn : n ≤ 1) (f : FlashSlot → FlashSlot) :
    (s.upFlash n f).mgc.flashSlot (1 - n) = s.mgc.flashSlot (1 - n) := by
  rcases (by omega : n = 0 ∨ n = 1) with h | h <;> subst h <;> rfl

/-- A flash slot with a piece of an image written to it (R564). -/
def FlashSlot.written (offset : Nat) (data : List Nat) (final : Bool) (f : FlashSlot) : FlashSlot :=
  { f with pieces := (offset, data) :: f.pieces, filling := !final, ok := none }

theorem fwWriteBody_ok {s : State} {slot offset : Nat} {data : List Nat} (final : Bool) (hslot : slot ≤ 1) (hoffset : offset % 4096 = 0)
    (hlen : offset + data.length ≤ 33554432) (hrun : s.runningSlot slot = false) :
    fwWriteBody slot offset final data s = .ok (s.upFlash slot (FlashSlot.written offset data final)) :=
  refuseIf_none _ _ (by simp [hslot, hoffset, hlen, hrun])

theorem State.upFlash_triedFirst (s : State) (n : Nat) (f : FlashSlot → FlashSlot) : (s.upFlash n f).mgc.triedFirst = s.mgc.triedFirst := by
  by_cases h : n = 0 <;> simp [State.upFlash, h]

/-- An image that runs is the one loaded, at the start of the firmware (R560, R561). -/
theorem State.imageRuns_mgc (s : State) (slot fwVersion : Nat) : (s.imageRuns slot fwVersion).mgc = { s.mgc with stage := .fwStart } := by
  rw [State.imageRuns]
  dsimp only
  split <;> rfl

theorem State.imageRuns_hly (s : State) (slot fwVersion : Nat) :
    (s.imageRuns slot fwVersion).hly = { s.hly with fwVersion := fwVersion % 2 ^ 24, fwImage := slot } := by
  rw [State.imageRuns]
  dsimp only
  split <;> rfl

/-- With no command in progress and no FUNCTION_LEVEL_RESET of instance 0 waiting, a reset of the management complex only ends (R563). -/
theorem State.mgmtEnds_idle {s : State} (hprog : s.hly.progress = []) (hflr : s.mgc.flrWait = false) :
    s.mgmtEnds = s.upMgc fun m => { m with mgmtReset := false, flrWait := false } := by
  simp [State.mgmtEnds, State.abandonAll, hprog, hflr]

theorem State.applyBoot_hly (s : State) : s.applyBoot.hly = s.hly :=
  (State.but_eq_iff.mp (State.applyBoot_but (l := [.out, .egs, .prt, .pool, .ins, .icu, .msix, .pwr, .flt, .ttc, .mgc]) (by simp) s)).2 .hly
    (by decide)

theorem State.setTrain_mgc (s : State) (p : Nat) (t : TrainState) : (s.setTrain p t).mgc = s.mgc :=
  (State.but_eq_iff.mp (State.setTrain_but (l := [.out, .prt]) (by simp) s p t)).2 .mgc (by decide)

/-- FW_ACTIVATE for the next reset (R564). -/
theorem fwActivateBody_ok {s : State} {slot : Nat} {raiseFloor : Bool} (hslot : slot ≤ 1) (hfill : (s.mgc.flashSlot slot).filling = false)
    (hgood : (s.imageOk slot).1 = true) (hfloor : s.floor ≤ (s.imageOk slot).2) (hfuse : raiseFloor = true → s.mgc.fusesUsed < 32) :
    fwActivateBody slot 0 raiseFloor s = .ok (s.upMgc fun m => { m with
      activation := slot, floor := if raiseFloor then some (s.imageOk slot).2 else m.floor
      fusesUsed := if raiseFloor then m.fusesUsed + 1 else m.fusesUsed }) := by
  have hburn : (raiseFloor && decide (32 ≤ s.mgc.fusesUsed)) = false := by
    cases raiseFloor
    · rfl
    · simpa using hfuse rfl
  have himage : s.imageOk slot = (true, (s.imageOk slot).2) := Prod.ext hgood rfl
  rw [fwActivateBody, himage]
  exact refuseIf_none _ _ (by simp [hslot, hfill, hburn]; exact hfloor)

/-- With no reset asked for, an activation waits. -/
theorem State.activateNow_none {s : State} (h : s.mgc.pendingReset = none) : s.activateNow = s := by
  rw [State.activateNow, h]

theorem fwActivate_answers {s v : State} {h : HlyHdr} {slot when_ : Nat} {raiseFloor : Bool} (hr : s.runs h 0x0F02 0 0 [] = true)
    (hbody : fwActivateBody slot when_ raiseFloor (s.fetchCmd h) = .ok v) (hpend : v.mgc.pendingReset = none) :
    Answers (exec (.fwActivate h slot when_ raiseFloor) s) v h 0x0F02 := by
  obtain ⟨hacc, -, -⟩ := (runs_iff ..).mp hr
  rw [Answers, exec, execFwActivate, if_pos hacc, runHly_done hr hbody (Nat.zero_le _), State.activateNow_none (by simp [State.answer, hpend])]
  rfl

theorem State.linkUp_upPort (s : State) {p : Nat} {f : Port → Port} (hf : ∀ x, (f x).mode = x.mode) (q : Nat) :
    (s.upPort p f).linkUp q = s.linkUp q := by
  have hmode : ((s.upPort p f).port q).mode = (s.port q).mode := by
    rw [State.port_upPort]
    split
    next h => rw [hf, h]
    next => rfl
  simp only [State.linkUp, State.isNative, hmode]
  rfl

/-- The ports of a fabric that is left drain while their link is up (R570). -/
theorem State.port_foldl_draining (l : List Nat) (s : State) (p : Nat) :
    ((l.foldl (fun s p => s.upPort p fun x => { x with draining := s.linkUp p }) s).port p).draining =
      if p ∈ l then s.linkUp p else (s.port p).draining := by
  induction l generalizing s with
  | nil => rfl
  | cons q l ih =>
    rw [List.foldl_cons, ih, State.linkUp_upPort, State.port_upPort]
    swap; · exact fun x => rfl
    by_cases hl : p ∈ l
    · simp [hl]
    · by_cases hq : p = q <;> simp [hl, hq]

theorem fabricLeaveBody_pend {s : State} {force : Bool} (hvalid : s.rte.valid = true)
    (hleft : force = true ∨ (s.adm.contracts = [] ∧ s.adm.resvs = [] ∧ s.rte.trees = [] ∧ s.rdx.groups = [])) :
    fabricLeaveBody force s = .pend (((List.range 32).filter s.isNative).foldl (fun s p => s.upPort p fun x => { x with draining := s.linkUp p })
      ((s.upRte fun r => { r with valid := false }).upMgc fun m => { m with leaving := true })) (.portMode 32) ((List.range 32).map Obj.port) := by
  have hok : (!force && (!s.adm.contracts.isEmpty || !s.adm.resvs.isEmpty || !s.rte.trees.isEmpty || !s.rdx.groups.isEmpty)) = false := by
    rcases hleft with h | ⟨h1, h2, h3, h4⟩
    · simp [h]
    · simp [h1, h2, h3, h4]
  exact refuseIf_none _ _ (by simp only [List.all_cons, hok, hvalid]; rfl)

/-! ### First calibration (R568) -/

/-- The baseline of one lane recorded (R568). -/
def State.recordBaseline (baselines : List Nat) (s : State) (l : Nat) : State :=
  if baselines.getD l 0 = 0 then s else s.upLane l fun x => { x with baseline := baselines.getD l 0 % 2 ^ 32 }

theorem State.recordBaseline_lane_other (baselines : List Nat) (s : State) {l n : Nat} (h : l ≠ n) :
    (State.recordBaseline baselines s n).lane l = s.lane l := by
  rw [State.recordBaseline]
  split
  · rfl
  · rw [State.lane_upLane, if_neg h]

/-- A lane without a baseline gets its own, which a baseline of 0 is already. -/
theorem State.recordBaseline_lane_self (baselines : List Nat) {s : State} {l : Nat} (h : s.lane l = {}) :
    (State.recordBaseline baselines s l).lane l = { baseline := baselines.getD l 0 % 2 ^ 32 } := by
  rw [State.recordBaseline]
  split
  next h0 => rw [h, h0]; rfl
  next => rw [State.lane_upLane_self, h]

/-- From lanes without a baseline, the first lanes get theirs. -/
theorem State.foldl_recordBaseline_lane (baselines : List Nat) {s : State} (h0 : ∀ l, s.lane l = {}) (n l : Nat) :
    ((List.range n).foldl (State.recordBaseline baselines) s).lane l = if l < n then { baseline := baselines.getD l 0 % 2 ^ 32 } else {} := by
  induction n with
  | zero => exact h0 l
  | succ n ih =>
    rw [List.range_succ, List.foldl_append, List.foldl_cons, List.foldl_nil]
    by_cases hl : l = n
    · subst hl
      rw [State.recordBaseline_lane_self _ (by rw [ih, if_neg (Nat.lt_irrefl l)]), if_pos (Nat.lt_succ_self l)]
    · rw [State.recordBaseline_lane_other _ _ hl, ih]
      congr 1
      simp only [eq_iff_iff]
      omega

theorem State.failLane_lane (s : State) (l n : Nat) : (s.failLane l).lane n = if n = l then { s.lane l with calibFailed := true } else s.lane n := by
  have hraise : ∀ (t : State) (src : Nat) (subj : Subject), (t.raise src subj).lane n = t.lane n := fun t src subj => by simp [State.lane]
  rw [State.failLane, hraise, State.lane_upLane]

/-- A lane is failed by first calibration when it is among those that fail. -/
theorem State.foldl_failLane_lane (l : List Nat) (s : State) (n : Nat) :
    (l.foldl State.failLane s).lane n = if n ∈ l then { s.lane n with calibFailed := true } else s.lane n := by
  induction l generalizing s with
  | nil => rfl
  | cons a l ih =>
    rw [List.foldl_cons, ih, State.failLane_lane]
    by_cases ha : n = a <;> by_cases hl : n ∈ l <;> simp [ha, hl]

/-- A lane after first calibration: its baseline, and whether it failed (R568). -/
theorem State.calibrate_lane {s : State} (failed baselines : List Nat) (h0 : ∀ l, s.lane l = {}) {l : Nat} (hl : l < 288) :
    (s.calibrate failed baselines).lane l = { baseline := baselines.getD l 0 % 2 ^ 32, calibFailed := decide (l ∈ failed) } := by
  have hbase : (s.recordBaselines baselines).lane l = { baseline := baselines.getD l 0 % 2 ^ 32 } :=
    (State.foldl_recordBaseline_lane baselines h0 288 l).trans (if_pos hl)
  rw [State.calibrate_eq, State.foldl_failLane_lane, hbase]
  by_cases hf : l ∈ failed <;> simp [hf, hl]

/-- A lane that fails marks LNE_CALIB (R521, R568). -/
theorem State.foldl_failLane_sticky {l : List Nat} {s : State} (hsev : s.severity 3 = 2) (h : (s.fault 3).sticky = true ∨ l ≠ []) :
    ((l.foldl State.failLane s).fault 3).sticky = true := by
  induction l generalizing s with
  | nil => simpa using h
  | cons a l ih =>
    refine ih (State.failLane_keeps a hsev).1 (.inl ?_)
    have hlane : (s.upLane a fun x => { x with calibFailed := true }).severity 3 = 2 := hsev
    rw [State.failLane, State.raise_sticky _ (by decide), hlane]
    exact decide_eq_true (.inr (show 0 < 2 by decide))

theorem State.calibrate_sticky {s : State} {failed baselines : List Nat} (hsev : s.severity 3 = 2) {l : Nat} (hl : l < 288) (hf : l ∈ failed) :
    ((s.calibrate failed baselines).fault 3).sticky = true := by
  rw [State.calibrate_eq]
  refine State.foldl_failLane_sticky ((s.recordBaselines_keeps baselines).1.trans hsev) (.inr (List.ne_nil_of_mem (a := l) ?_))
  simp [hf, hl]

theorem State.mem_out_emit_self (s : State) (o : Out) : o ∈ (s.emit o).out := List.mem_cons_self

/-- Settles O39. -/
theorem bootAndResetsTakeEffect : Obligations.BootAndResetsTakeEffect := by
  unfold Obligations.BootAndResetsTakeEffect
  refine ⟨?write, ?activate, ?reset, ?leave, ?effect, ?cold, ?vaux, ?rise, ?warm, ?complex, ?good, ?bad, ?ends, ?ready, ?perst, ?jtag⟩
  case write =>
    intro s h slot offset final data hr hslot hoffset hlen hrun
    have hbody := fwWriteBody_ok (s := s.fetchCmd h) final hslot hoffset hlen (by simpa using hrun)
    have hself := Mgc.flashSlot_upFlash_self (s.fetchCmd h) slot (FlashSlot.written offset data final)
    have hother := Mgc.flashSlot_upFlash_other (s.fetchCmd h) hslot (FlashSlot.written offset data final)
    rw [State.fetchCmd_mgc] at hself hother
    exact ⟨_, answers_of hr hbody (Nat.zero_le _), congrArg FlashSlot.pieces hself, congrArg FlashSlot.filling hself, congrArg FlashSlot.ok hself,
      hother⟩
  case activate =>
    intro s h slot raiseFloor hr hslot hfill hgood hfloor hfuse hpend
    have hbody := fwActivateBody_ok (s := s.fetchCmd h) (raiseFloor := raiseFloor) hslot (by simpa using hfill) (by simpa using hgood)
      (by simpa using hfloor) (by simpa using hfuse)
    refine ⟨_, fwActivate_answers hr hbody (by simp [hpend]), rfl, ?_, ?_, by simp [hpend]⟩ <;> cases raiseFloor <;> simp [State.floor]
  case reset =>
    intro s h kind hr hkind
    exact ⟨_, answers_of hr (if_neg (Nat.not_lt.mpr hkind)) (Nat.zero_le _), rfl, by simp, by simp⟩
  case leave =>
    intro s h force hr hvalid hleft
    obtain ⟨f, hst⟩ := starts_taken hr fun f => fabricLeaveBody_pend (s := s.upHly f) hvalid hleft
    refine ⟨_, hst, ?_, ?_, fun p hp hn => ?_⟩
    · rw [foldl_keeps State.rte]
      · rfl
      · exact fun t q => rfl
    · rw [foldl_keeps State.mgc]
      · rfl
      · exact fun t q => rfl
    · rw [State.port_foldl_draining, if_pos (by simp [hp]; exact hn)]
      rfl
  case effect =>
    intro s r hp hl
    refine ⟨_, rfl, ?_⟩
    simp [hp, hl]
  case cold =>
    intro s insdly straps failed baselines hvaux hp ht
    refine ⟨_, rfl, ?_⟩
    rw [if_neg (by simp [hvaux]), hp, if_neg (by simp), if_neg (by simp [ht])]
    obtain ⟨hpending, hkept⟩ := State.but_eq_iff.mp (State.calibrate_but (l := [.out, .prt, .ins, .msix, .flt, .ttc]) (by simp)
      ((s.reboot 0 0).sampleStraps insdly straps.smbaddr straps.ppssel straps.flash) failed baselines)
    have hmgc := hkept .mgc (by decide)
    have hpwr := hkept .pwr (by decide)
    have hlane := fun l => State.calibrate_lane (s := (s.reboot 0 0).sampleStraps insdly straps.smbaddr straps.ppssel straps.flash) (l := l)
      failed baselines fun l => rfl
    refine ⟨congrArg Mgc.resetKind hmgc, congrArg Mgc.trigger hmgc, congrArg Mgc.warmCount hmgc, congrArg Pwr.insdly hpwr,
      congrArg Mgc.smbAddr hmgc, congrArg Mgc.ppsSel hmgc, congrArg Mgc.flash hmgc, hkept .pool (by decide), hkept .adm (by decide),
      hkept .rte (by decide), hpending, fun l hl hf => ⟨?_, ?_⟩, fun l hl hf => ?_, fun l hl => ?_⟩
    · rw [hlane l hl]
      exact decide_eq_true hf
    · exact State.calibrate_sticky (s.reboot_severity 0 0 3) hl hf
    · rw [hlane l hl]
      exact decide_eq_false hf
    · rw [hlane l hl]
  case vaux =>
    intro s
    exact ⟨_, rfl, rfl, rfl, rfl, rfl, rfl, rfl, rfl, rfl⟩
  case rise =>
    intro s insdly smbaddr ppssel flash hvaux
    refine ⟨_, rfl, ?_⟩
    rw [if_neg (by simp [hvaux])]
    exact ⟨rfl, rfl, rfl, rfl, rfl⟩
  case warm =>
    intro s trigger hb hl
    have hgo : (decide (s.pwr.mode = .barePoles) || s.pwr.lost) = false := by simp [hb, hl]
    refine ⟨_, rfl, ?_⟩
    simp only [hgo, Bool.false_eq_true, if_false]
    by_cases ht : trigger = 2
    · rw [if_pos ht]
      exact ⟨rfl, rfl, rfl, rfl, rfl, rfl, rfl, rfl, fun _ => rfl⟩
    · rw [if_neg ht]
      exact ⟨rfl, rfl, rfl, rfl, rfl, rfl, rfl, rfl, fun h => absurd h ht⟩
  case complex =>
    intro s trigger hb hl
    refine ⟨_, rfl, ?_⟩
    rw [if_neg (by simp [hb, hl])]
    have hkept := (State.but_eq_iff.mp (State.mgmtStart_but (l := [.hly, .mpu, .icu, .mgc]) (by simp) s trigger)).2
    exact ⟨rfl, rfl, rfl, rfl, rfl, hkept .pool (by decide), hkept .rte (by decide), hkept .obf (by decide), hkept .trn (by decide)⟩
  case good =>
    intro s version fwVersion hboot hstage htried hact hfloor
    refine ⟨_, rfl, ?_⟩
    rw [if_neg (by simp [hboot, hstage, htried])]
    dsimp only
    rw [show (true && decide (s.floor ≤ version)) = true by simp [hfloor], if_pos rfl, State.imageRuns_mgc, State.imageRuns_hly]
    have hself := Mgc.flashSlot_upFlash_self s s.mgc.activation fun f => { f with ok := some true, version, fwVersion := fwVersion % 2 ^ 24 }
    exact ⟨rfl, rfl, rfl, congrArg FlashSlot.ok hself⟩
  case bad =>
    intro s version fwVersion hboot hstage htried
    refine ⟨_, rfl, ?_⟩
    rw [if_neg (by simp [hboot, hstage, htried])]
    dsimp only
    rw [if_neg (by simp), if_neg (by rw [State.upFlash_triedFirst, htried]; decide)]
    exact ⟨rfl, hboot⟩
  case ends =>
    intro s hboot hstage hreset hflr hprog
    refine ⟨_, rfl, ?_⟩
    rw [if_neg (by simp [hboot, hstage])]
    dsimp only
    rw [if_pos (by exact hreset), State.mgmtEnds_idle (by exact hprog) (by exact hflr)]
    exact ⟨rfl, rfl, rfl, rfl⟩
  case ready =>
    intro s hboot hstage hreset
    refine ⟨_, rfl, ?_⟩
    rw [if_neg (by simp [hboot, hstage])]
    dsimp only
    rw [if_neg (by simp [hreset])]
    refine ⟨?_, State.mem_out_emit_self ..⟩
    rw [State.emit_hly, State.applyBoot_hly]
    rfl
  case perst =>
    intro s hb hl
    refine ⟨_, rfl, ?_⟩
    rw [if_neg (by simp [hb, hl])]
    refine ⟨by rw [State.setTrain_mgc, State.setTrain_mgc]; rfl, ?_, ?_⟩
    · rw [State.port_setTrain_other _ _ (by decide), State.port_setTrain_self]
      rfl
    · rw [State.port_setTrain_self]
      rfl
  case jtag =>
    intro s instruction hstorm hbare hl hi
    refine ⟨_, rfl, fun h => if_neg ?_, fun h1 h2 h3 => if_pos ?_⟩
    · rcases h with h | h | h <;> simp [hstorm, hbare, hl, h] <;> omega
    · simp [hstorm, hbare, hl, h1, h2, h3]

end Sys2Proof.Machine
end

section
/-! Where each instance stands in its life: what squashed and released work leaves (R409 to R419). -/
namespace Sys2Proof.Machine

/-! ### The stage of each instance: what no work that is squashed or released changes -/

/-- Where an instance stands in its life: its state, the phase of its reset, and its generation (R409 to R417). -/
def Instance.stage (n : Instance) : InstState × ResetPhase × Nat := (n.state, n.phase, n.gen)

@[simp] theorem Instance.stage_eq_iff {n m : Instance} : n.stage = m.stage ↔ n.state = m.state ∧ n.phase = m.phase ∧ n.gen = m.gen := by
  simp [Instance.stage]

def State.stages (s : State) (i : Nat) : InstState × ResetPhase × Nat := (s.instance_ i).stage

@[simp] theorem State.upAdm_stages (s : State) (f : Adm → Adm) : (s.upAdm f).stages = s.stages := rfl
@[simp] theorem State.upCsc_stages (s : State) (f : Csc → Csc) : (s.upCsc f).stages = s.stages := rfl
@[simp] theorem State.upObf_stages (s : State) (f : Obf → Obf) : (s.upObf f).stages = s.stages := rfl
@[simp] theorem State.upRte_stages (s : State) (f : Rte → Rte) : (s.upRte f).stages = s.stages := rfl
@[simp] theorem State.upLnk_stages (s : State) (f : Lnk → Lnk) : (s.upLnk f).stages = s.stages := rfl
@[simp] theorem State.upTrn_stages (s : State) (f : Trn → Trn) : (s.upTrn f).stages = s.stages := rfl
@[simp] theorem State.upPool_stages (s : State) (f : Pool → Pool) : (s.upPool f).stages = s.stages := rfl
@[simp] theorem State.upDir_stages (s : State) (f : Dir → Dir) : (s.upDir f).stages = s.stages := rfl
@[simp] theorem State.upMec_stages (s : State) (f : Mec → Mec) : (s.upMec f).stages = s.stages := rfl
@[simp] theorem State.upLocks_stages (s : State) (f : Locks → Locks) : (s.upLocks f).stages = s.stages := rfl
@[simp] theorem State.upMtc_stages (s : State) (f : Mtc → Mtc) : (s.upMtc f).stages = s.stages := rfl
@[simp] theorem State.upRdx_stages (s : State) (f : Rdx → Rdx) : (s.upRdx f).stages = s.stages := rfl
@[simp] theorem State.upMpu_stages (s : State) (f : Mpu → Mpu) : (s.upMpu f).stages = s.stages := rfl
@[simp] theorem State.upFlt_stages (s : State) (f : Flt → Flt) : (s.upFlt f).stages = s.stages := rfl
@[simp] theorem State.upTtc_stages (s : State) (f : Ttc → Ttc) : (s.upTtc f).stages = s.stages := rfl

@[simp] theorem State.emit_stages (s : State) (o : Out) : (s.emit o).stages = s.stages := rfl

@[simp] theorem State.tally_stages (s : State) (e n : Nat) : (s.tally e n).stages = s.stages := rfl

@[simp] theorem State.upInst_stages (s : State) (i : Nat) {f : Instance → Instance} (h : ∀ n, (f n).stage = n.stage) :
    (s.upInst i f).stages = s.stages := by
  funext j
  rw [State.stages, State.instance_upInst]
  split
  next hj => rw [h, hj]; rfl
  next => rfl

@[simp] theorem State.stages_ite (c : Prop) [Decidable c] (s t : State) : (if c then s else t).stages = if c then s.stages else t.stages :=
  apply_ite ..

theorem State.stages_of_ins {s t : State} (h : s.ins = t.ins) : s.stages = t.stages := by
  funext i
  rw [State.stages, State.stages, State.instance_, State.instance_, h]

@[simp] theorem State.fresh_stages (s : State) : s.fresh.2.stages = s.stages := rfl

@[simp] theorem State.meter_stages (s : State) (i : Nat) (f : MeterRec → MeterRec) : (s.meter i f).stages = s.stages := rfl

@[simp] theorem State.putPort_stages (s : State) (p : Packet) (n q v : Nat) : (s.putPort p n q v).stages = s.stages := rfl

@[simp] theorem State.freeFlits_stages (s : State) (p v n : Nat) : (s.freeFlits p v n).stages = s.stages := rfl

@[simp] theorem foldl_stages {α : Type} {g : State → α → State} (hg : ∀ s a, (g s a).stages = s.stages) (xs : List α) (s : State) :
    (xs.foldl g s).stages = s.stages :=
  foldl_keeps State.stages hg xs s

theorem stages_snd {α : Type} {r : α × State} {a : α} {t : State} (e : r = (a, t)) : t.stages = r.2.stages := by
  rw [e]

@[simp] theorem State.access_stages (s : State) (i : Nat) (a : HostAcc) (o : Out) : (s.access i a o).stages = s.stages := by
  simp [State.access]

@[simp] theorem State.logBack_stages (s : State) (i : Nat) (b : Bool) (p : Nat → Bool) : (s.logBack i b p).stages = s.stages := by
  simp [State.logBack]

@[simp] theorem State.evictLines_stages (s : State) (i : Nat) : (s.evictLines i).stages = s.stages := by
  simp [State.evictLines]

@[simp] theorem State.hostWrite_stages (s : State) (i address : Nat) (data : List Nat) : (s.hostWrite i address data).stages = s.stages := by
  simp [State.hostWrite]

@[simp] theorem State.msixSend_stages (s : State) (i vector : Nat) : (s.msixSend i vector).stages = s.stages := by
  rw [State.msixSend]
  dsimp only
  split
  · rfl
  · split
    · rfl
    · split
      · rfl
      · simp

@[simp] theorem State.eventLost_stages (s : State) (i : Nat) : (s.eventLost i).stages = s.stages := by
  simp [State.eventLost]

@[simp] theorem State.post_stages (s : State) (i kind detail subject aux data : Nat) : (s.post i kind detail subject aux data).stages = s.stages := by
  simp only [State.post]
  split <;> simp

@[simp] theorem State.upFault_stages (s : State) (src : Nat) (f : FaultSrc → FaultSrc) : (s.upFault src f).stages = s.stages := by
  simp [State.upFault]

@[simp] theorem State.raiseNote_stages (s : State) (src : Nat) (subj : Subject) : (s.raiseNote src subj).2.stages = s.stages := by
  simp only [State.raiseNote]
  (repeat' split) <;> simp

@[simp] theorem State.raise_stages (s : State) (src : Nat) (subj : Subject) : (s.raise src subj).stages = s.stages := by
  simp [State.raise]

@[simp] theorem State.violate_stages (s : State) (a : MpuAccess) (region page : Nat) : (s.violate a region page).stages = s.stages := by
  simp [State.violate]

@[simp] theorem State.noteViolation_stages (s : State) (a : MpuAccess) (region : Nat) : (s.noteViolation a region).stages = s.stages := by
  simp [State.noteViolation]

@[simp] theorem State.bump_stages (s : State) (i idx : Nat) : (s.bump i idx).stages = s.stages := by
  rw [State.bump]
  split
  · simp
  · rfl

@[simp] theorem State.writeRecord_stages (s : State) (cq : Nat) (r : RecordQueue) (ls : List Nat) : (s.writeRecord cq r ls).stages = s.stages := by
  simp only [State.writeRecord]
  split <;> simp

@[simp] theorem State.cqFull_stages (s : State) (cq : Nat) : (s.cqFull cq).stages = s.stages := by
  simp only [State.cqFull]
  split <;> simp

@[simp] theorem State.putRecord_stages (s : State) (cq kind status queue bytes wrId detail srcDevice srcInst refusal retryAfter : Nat) :
    (s.putRecord cq kind status queue bytes wrId detail srcDevice srcInst refusal retryAfter).stages = s.stages := by
  simp only [State.putRecord]
  split <;> simp

@[simp] theorem State.upSlot_stages (s : State) (tag : Nat) (f : OpSlot → OpSlot) : (s.upSlot tag f).stages = s.stages := by
  simp [State.upSlot]

@[simp] theorem State.abandonLocks_stages (s : State) (q : Nat) : (s.abandonLocks q).stages = s.stages := by
  simp only [State.abandonLocks]
  split <;> simp

@[simp] theorem State.sendQueueError_stages (s : State) (q status : Nat) : (s.sendQueueError q status).stages = s.stages := by
  simp only [State.sendQueueError]
  split <;> simp

@[simp] theorem State.engineBusy_stages (s : State) (i : Nat) : (s.engineBusy i).stages = s.stages := by
  simp [State.engineBusy]

@[simp] theorem State.retire_stages (s : State) (x : OpSlot) (status bytes : Nat) : (s.retire x status bytes).stages = s.stages := by
  simp [State.retire]

@[simp] theorem State.drainOrder_stages (s : State) (q fuel : Nat) : (s.drainOrder q fuel).stages = s.stages := by
  induction fuel generalizing s with
  | zero => rfl
  | succ fuel ih =>
    rw [State.drainOrder]
    (repeat' split) <;> simp [ih]

@[simp] theorem State.drainTriggered_stages (s : State) (q : Nat) : (s.drainTriggered q).stages = s.stages := by
  refine foldl_stages (fun s x => ?_) _ _
  (repeat' split) <;> simp

@[simp] theorem State.drainQueue_stages (s : State) (q : Nat) : (s.drainQueue q).stages = s.stages := by
  simp [State.drainQueue]

@[simp] theorem State.receiveRecord_stages (s : State) (rq status bytes wrId matchBits srcDevice srcInst reason retry : Nat) :
    (s.receiveRecord rq status bytes wrId matchBits srcDevice srcInst reason retry).stages = s.stages := by
  simp only [State.receiveRecord]
  split <;> simp

@[simp] theorem State.endRget_stages (s : State) (tag status bytes : Nat) : (s.endRget tag status bytes).stages = s.stages := by
  simp only [State.endRget]
  (repeat' split) <;> simp

@[simp] theorem State.finishOp_stages (s : State) (tag status bytes : Nat) : (s.finishOp tag status bytes).stages = s.stages := by
  simp only [State.finishOp]
  (repeat' split) <;> simp

@[simp] theorem State.countUnreserved_stages (s : State) : (s.countUnreserved).stages = s.stages := by
  simp [State.countUnreserved]

@[simp] theorem State.choosePath_stages (s : State) (tile : Nat) (hd : Hdr) (own : Option Nat) : (s.choosePath tile hd own).2.stages = s.stages := by
  simp only [State.choosePath]
  (repeat' split) <;> simp

@[simp] theorem State.lookup_stages (s : State) (hd : Hdr) (input rxVl : Nat) (atSource : Bool) (own : Option Nat) :
    (s.lookup hd input rxVl atSource own).2.stages = s.stages := by
  simp only [State.lookup]
  (repeat' split) <;> simp

@[simp] theorem State.newPid_stages (s : State) : (s.newPid).2.stages = s.stages := by
  simp [State.newPid]

@[simp] theorem State.putWaiting_stages (s : State) (w : WaitPkt) : (s.putWaiting w).stages = s.stages := by
  simp [State.putWaiting]

@[simp] theorem State.rootDone_stages (s : State) (o : McOp) : (s.rootDone o).stages = s.stages := by
  simp only [State.rootDone]
  split <;> simp

@[simp] theorem State.sendMcAck_stages (s : State) (port t : Nat) (o : McOp) : (s.sendMcAck port t o).stages = s.stages := by
  simp [State.sendMcAck]

@[simp] theorem State.mcEnd_stages (s : State) (t : Nat) (tr : Tree) (o : McOp) : (s.mcEnd t tr o).stages = s.stages := by
  simp [State.mcEnd]

@[simp] theorem State.mcSettle_stages (s : State) (t : Nat) : (s.mcSettle t).stages = s.stages := by
  simp only [State.mcSettle]
  split <;> simp

@[simp] theorem State.freeRx_stages (s : State) (w : WaitPkt) : (s.freeRx w).stages = s.stages := by
  simp [State.freeRx]

@[simp] theorem State.treeMissing_stages (s : State) (hd : Hdr) (rxVl : Nat) (port : Option Nat) : (s.treeMissing hd rxVl port).stages = s.stages :=
    by
  simp only [State.treeMissing]
  split <;> simp

@[simp] theorem State.greenTree_stages (s : State) (t : Tree) (hd : Hdr) (atSource : Bool) (own : Option Nat) :
    (s.greenTree t hd atSource own).stages = s.stages := by
  simp only [State.greenTree]
  (repeat' split) <;> simp

@[simp] theorem State.noteFenceSkip_stages (s : State) : (s.noteFenceSkip).stages = s.stages := by
  simp [State.noteFenceSkip]

@[simp] theorem State.routeTree_stages (s : State) (w : WaitPkt) (port : Option Nat) : (s.routeTree w port).stages = s.stages := by
  simp only [State.routeTree]
  split <;> simp

@[simp] theorem State.noCandidate_stages (s : State) : (s.noCandidate).stages = s.stages := by
  simp [State.noCandidate]

@[simp] theorem State.inject_stages (s : State) (p : Packet) (len input : Nat) (sequenced : Bool) (own : Option Nat) :
    (s.inject p len input sequenced own).stages = s.stages := by
  rw [State.inject]
  dsimp only
  split
  · rw [State.routeTree_stages]; simp
  · split
    · next e => simp [stages_snd e]
    · next e => simp [stages_snd e]

@[simp] theorem State.control_stages (s : State) (opcode dest inst sl : Nat) (response : Bool) (fields : List Nat) :
    (s.control opcode dest inst sl response fields).stages = s.stages := by
  rw [State.control]
  dsimp only
  rw [State.inject_stages]
  simp

@[simp] theorem State.meterTx_stages (s : State) (i bytes : Nat) (f : MeterRec → MeterRec) : (s.meterTx i bytes f).stages = s.stages := by
  simp [State.meterTx]

@[simp] theorem State.meterRefused_stages (s : State) (i : Nat) : (s.meterRefused i).stages = s.stages := by
  simp [State.meterRefused]

@[simp] theorem State.policeMeter_stages (s : State) (hd : Hdr) (len : Nat) (first : Bool) : (s.policeMeter hd len first).2.stages = s.stages := by
  simp only [State.policeMeter]
  (repeat' split) <;> simp

@[simp] theorem State.police_stages (s : State) (hd : Hdr) (len : Nat) (first pre : Bool) : (s.police hd len first pre).2.stages = s.stages := by
  simp only [State.police]
  (repeat' split) <;> simp

@[simp] theorem State.endWait_stages (s : State) (i : Nat) (from_ : Option Nat) : (s.endWait i from_).stages = s.stages := by
  simp only [State.endWait]
  split <;> simp

@[simp] theorem State.upSend_stages (s : State) (k : CtxKey) (f : SendCtx → SendCtx) : (s.upSend k f).stages = s.stages := by
  simp [State.upSend]

@[simp] theorem State.trnControl_stages (s : State) (opcode peer inst cls sl : Nat) (response : Bool) (fields : List Nat) :
    (s.trnControl opcode peer inst cls sl response fields).stages = s.stages := by
  simp [State.trnControl]

@[simp] theorem State.openSend_stages (s : State) (k : CtxKey) (sl : Nat) : (s.openSend k sl).stages = s.stages := by
  simp only [State.openSend]
  split <;> simp

@[simp] theorem State.sendNow_stages (s : State) (k : CtxKey) (p : SentPkt) (ticket : Bool) : (s.sendNow k p ticket).stages = s.stages := by
  simp only [State.sendNow]
  split <;> simp

@[simp] theorem State.policeQueued_stages (s : State) (p : SentPkt) : (s.policeQueued p).2.stages = s.stages := by
  rw [State.policeQueued]
  split
  · rfl
  · dsimp only
    split
    · next e => simp [stages_snd e]
    · next e => simp [stages_snd e]

@[simp] theorem State.endUnrouted_stages (s : State) (tag : Nat) : (s.endUnrouted tag).stages = s.stages := by
  simp [State.endUnrouted]

@[simp] theorem State.pump_stages (s : State) (k : CtxKey) (fuel : Nat) : (s.pump k fuel).stages = s.stages := by
  induction fuel generalizing s with
  | zero => rfl
  | succ fuel ih =>
    rw [State.pump]
    split
    · rfl
    · split
      · rfl
      · split
        · rfl
        · split
          · rfl
          · split
            · simp [ih]
            · split
              · next e => simp [ih, stages_snd e]
              · next e => simp [stages_snd e]

@[simp] theorem State.pumpAll_stages (s : State) (k : CtxKey) : (s.pumpAll k).stages = s.stages := by
  simp [State.pumpAll]

@[simp] theorem State.handOver_stages (s : State) (p : SentPkt) : (s.handOver p).stages = s.stages := by
  simp [State.handOver]

@[simp] theorem State.respond_stages (s : State) (opcode dest inst opTag instGen status offset sl : Nat) (data : List Nat) (extra : Nat) (own :
    Option Nat) (input : Nat) (src : Option Source) :
    (s.respond opcode dest inst opTag instGen status offset sl data extra own input src).stages = s.stages := by
  simp [State.respond]

@[simp] theorem State.protect_stages (s : State) (a : MpuAccess) : (s.protect a).2.stages = s.stages := by
  simp only [State.protect]
  split <;> simp

@[simp] theorem State.writeRegion_stages (s : State) (g : RegionP) (offset : Nat) (data : List Nat) :
    (s.writeRegion g offset data).stages = s.stages := by
  simp [State.writeRegion]

@[simp] theorem State.landed_stages (s : State) (g : RegionP) : (s.landed g).stages = s.stages := by
  simp [State.landed]

@[simp] theorem State.engError_stages (s : State) (r : Req) (cluster status : Nat) : (s.engError r cluster status).stages = s.stages := by
  simp [State.engError]

@[simp] theorem State.upGroup_stages (s : State) (g : Nat) (f : Group → Group) : (s.upGroup g f).stages = s.stages := by
  simp [State.upGroup]

@[simp] theorem State.sendRdx_stages (s : State) (up : Bool) (gid : Nat) (g : Group) (device inst members : Nat) (fenced : Bool) (offset status :
    Nat) (elems : List Elem) : (s.sendRdx up gid g device inst members fenced offset status elems).stages = s.stages := by
  simp [State.sendRdx]

@[simp] theorem State.sendUp_stages (s : State) (gid : Nat) (g : Group) (fenced : Bool) (offset : Nat) (elems : List Elem) :
    (s.sendUp gid g fenced offset elems).stages = s.stages := by
  simp [State.sendUp]

@[simp] theorem State.sendDown_stages (s : State) (gid : Nat) (g : Group) (c : ChildSlot) (combined : Nat) (fenced : Bool) (status : Nat) (values :
    List Nat) : (s.sendDown gid g c combined fenced status values).stages = s.stages := by
  simp [State.sendDown]

@[simp] theorem State.memberGuard_stages (s : State) (inst region offset length right kind : Nat) :
    (s.memberGuard inst region offset length right kind).2.stages = s.stages := by
  rw [State.memberGuard]
  (repeat' split) <;> try rfl
  all_goals next e => simp [stages_snd e]

@[simp] theorem State.writeResult_stages (s : State) (gid m round status combined : Nat) (data : List Nat) :
    (s.writeResult gid m round status combined data).stages = s.stages := by
  rw [State.writeResult]
  split
  · rfl
  · split
    · rfl
    · dsimp only
      split
      · next e => simp [stages_snd e]
      · next e => simp [stages_snd e]

@[simp] theorem State.writeMembers_stages (s : State) (gid : Nat) (g : Group) (status combined : Nat) (values : List Nat) :
    (s.writeMembers gid g status combined values).stages = s.stages := by
  simp [State.writeMembers]

@[simp] theorem State.enterFenced_stages (s : State) (gid : Nat) : (s.enterFenced gid).stages = s.stages := by
  simp [State.enterFenced]

@[simp] theorem State.endFenced_stages (s : State) (gid combined : Nat) : (s.endFenced gid combined).stages = s.stages := by
  simp only [State.endFenced]
  split <;> simp

@[simp] theorem State.fenceCollecting_stages (s : State) (gid : Nat) : (s.fenceCollecting gid).stages = s.stages := by
  simp only [State.fenceCollecting]
  split <;> simp

@[simp] theorem State.fenceEffect_stages (s : State) (gid : Nat) : (s.fenceEffect gid).stages = s.stages := by
  simp only [State.fenceEffect]
  (repeat' split) <;> simp

@[simp] theorem State.fenceSlot_stages (s : State) (gid k : Nat) : (s.fenceSlot gid k).stages = s.stages := by
  simp only [State.fenceSlot]
  split <;> simp

@[simp] theorem State.fenceMembers_stages (s : State) (i : Nat) : (s.fenceMembers i).stages = s.stages := by
  refine foldl_stages (fun s x => ?_) _ _
  simp

@[simp] theorem State.dropMessages_stages (s : State) (k : CtxKey) : (s.dropMessages k).stages = s.stages := by
  rw [State.dropMessages]
  dsimp only
  rw [foldl_stages, foldl_stages (fun s x => by simp)]
  · simp
  · intro s m
    split <;> split <;> simp

@[simp] theorem State.freeRecv_stages (s : State) (k : CtxKey) : (s.freeRecv k).stages = s.stages := by
  simp [State.freeRecv]

@[simp] theorem State.squashWork_stages (s : State) (i : Nat) : (s.squashWork i).stages = s.stages := by
  simp [State.squashWork]

@[simp] theorem State.releaseWork_stages (s : State) (i : Nat) : (s.releaseWork i).stages = s.stages := by
  simp [State.releaseWork]

end Sys2Proof.Machine
end

section
/-! Resets of an instance, its dirty-page log and its configuration writes (R408 to R428, R486). -/
namespace Sys2Proof.Machine

/-! ### The steps of an instance's reset (R411, R415 to R419) -/

/-- While the next generation number is one that was retired within a minute, the reset waits for it (R417). -/
theorem State.genStep_wait {s : State} {i : Nat} (h : (s.retiredNow i).contains (((s.instance_ i).gen + 1) % 16) = true) :
    s.genStep i = (s.upInst i fun n => { n with phase := .genWait }).upIns fun x => { x with
      intStatus := if (s.instance_ i).phase = .genWait then x.intStatus else setFlag x.intStatus 3 } :=
  if_pos h

/-- Once its next generation number is free, an instance takes it and ends its work: its state stays (R411, R417). -/
theorem State.genStep_stages {s : State} {i : Nat} (h : (s.retiredNow i).contains (((s.instance_ i).gen + 1) % 16) = false) :
    (s.genStep i).stages i = ((s.instance_ i).state, .ending, ((s.instance_ i).gen + 1) % 16) := by
  rw [State.genStep, if_neg (ne_true_of_eq_false h), State.releaseWork_stages, State.squashWork_stages, State.stages, State.instance_upInst_self]
  rfl

/-- A generation number whose wait is over is not among the retired ones (R417). -/
theorem State.retiredNow_forget (s : State) (i g : Nat) :
    ((s.upInst i fun n => { n with retired := n.retired.filter fun r => r.1 ≠ g }).retiredNow i).contains g = false := by
  rw [State.retiredNow, State.instance_upInst_self]
  simp

theorem State.upIns_instance (s : State) {f : Ins → Ins} (h : (f s.ins).inst = s.ins.inst) (i : Nat) :
    (s.upIns f).instance_ i = s.instance_ i :=
  congrArg (fun t : Tbl Instance => t.get i {}) h

theorem execResetDrainComplete_gives {s : State} {inst : Nat} (hd : (s.instance_ inst).phase = .draining) (ho : s.outstanding inst = 0) :
    Gives (execResetDrainComplete inst s) (s.genStep inst) := by
  rw [execResetDrainComplete, if_pos (by simp [hd, ho])]
  rfl

theorem execGenerationWaitExpiry_gives {s : State} {inst : Nat} (hg : (s.instance_ inst).phase = .genWait) :
    Gives (execGenerationWaitExpiry inst s)
      ((s.upInst inst fun n => { n with retired := n.retired.filter fun r => r.1 ≠ (n.gen + 1) % 16 }).genStep inst) := by
  rw [execGenerationWaitExpiry, if_pos hg]
  rfl

/-- What a reset forced after its drain still holds is ended, and then the instance itself (R418). -/
theorem execResetForceExpiry_gives {s t : State} {inst : Nat} (hr : (s.instance_ inst).state = .resetting) (ho : s.outstanding inst ≠ 0)
    (ht : t = (((s.upInst inst fun n => { n with squashed := n.squashed + s.outstanding inst, forced := true }).upIns fun x => { x with
      intStatus := setFlag x.intStatus 2 }).endItems inst).raise 1089 (.inst inst)) (he : (t.instance_ inst).phase = .ending) :
    Gives (execResetForceExpiry inst s) (t.resetEnds inst) := by
  rw [execResetForceExpiry, if_pos (by simp [hr, ho])]
  dsimp only
  rw [← ht, if_pos he, if_pos he]
  rfl

/-! ### The write-back of a dirty-page log (R423) -/

theorem State.flushLog_intStatus (s : State) (i : Nat) (b : Bool) : (s.flushLog i b).ins.intStatus = s.ins.intStatus :=
  (apply_ite (fun t : State => t.ins.intStatus) _ _ _).trans (ite_self _)

theorem State.flushLog_hly (s : State) (i : Nat) (b : Bool) : (s.flushLog i b).hly = s.hly :=
  (apply_ite State.hly _ _ _).trans (ite_self _)

theorem execLogSwapWritebackDone_gives {s : State} {inst : Nat} (hw : (s.instance_ inst).writesHeld = false)
    (hs : (s.instance_ inst).log.swapping = true) (hp : s.hly.progress = []) :
    Gives (execLogSwapWritebackDone inst s)
      (((s.flushLog inst (!(s.instance_ inst).log.activeB)).upInst inst fun n => { n with log := { n.log with
        swapping := false, swaps := (n.log.swaps + 1) % 2 ^ 32 } }).upIns fun x => { x with intStatus := setFlag x.intStatus 4 }) := by
  have hidle : (s.flushLog inst (!(s.instance_ inst).log.activeB)).hly.progress = [] := by rw [State.flushLog_hly, hp]
  rw [execLogSwapWritebackDone]
  dsimp only
  rw [if_neg (ne_true_of_eq_false hw), if_pos hs, State.finishWait_idle (by exact hidle)]
  rfl

/-! ### What a host's configuration writes do (R408, R415, R428, R486) -/

/-- A configuration access that finds the device awake and forwarding has its effect (R42). -/
theorem State.hostConfig_awake {s : State} (ha : s.awake = true) (hf : s.forwarding = true) (f : State → State) : s.hostConfig f = f s := by
  rw [State.hostConfig, wake_awake s ha]
  exact if_pos hf

@[simp] theorem State.release_instance (s : State) (i : Nat) (a : HostAcc) (j : Nat) : (s.release i a).instance_ j = s.instance_ j := by
  cases a <;> rfl

@[simp] theorem State.release_out_length (s : State) (i : Nat) (a : HostAcc) : (s.release i a).out.length = s.out.length + 1 := by
  cases a <;> rfl

/-- The accesses that waited go out, one output for each (R428). -/
theorem State.foldl_release (i : Nat) (l : List HostAcc) (s : State) :
    (∀ j, (l.foldl (fun s a => s.release i a) s).instance_ j = s.instance_ j) ∧
      (l.foldl (fun s a => s.release i a) s).out.length = s.out.length + l.length := by
  induction l generalizing s with
  | nil => simp
  | cons a l ih => simp [ih]; omega

@[simp] theorem State.upHostLink_hostLink (s : State) (link : Nat) (f : HostLink → HostLink) :
    (s.upHostLink link f).hostLink link = f (s.hostLink link) :=
  Tbl.get_upd_self ..

/-- A vector that is pending and unmasked sends its message where Bus Master Enable lets it (R428, R486). -/
theorem State.sendPending_sends {s : State} {i v : Nat} (hb : (s.instance_ i).bmeHeld = false) (hf : (s.msix.get i {}).functionMask = false)
    (he : (s.msix.get i {}).enable = true) (hp : ((s.msix.get i {}).vectors.get v {}).pending = true)
    (hm : ((s.msix.get i {}).vectors.get v {}).masked = false) :
    s.sendPending i v = ({ s with msix := s.msix.put i { s.msix.get i {} with
      vectors := (s.msix.get i {}).vectors.put v { (s.msix.get i {}).vectors.get v {} with pending := false } } }).emit (.msix i v) := by
  rw [State.sendPending]
  dsimp only
  rw [if_neg (by simp [hf, he, hp, hm]), State.access]
  exact if_neg (ne_true_of_eq_false hb)

/-- A reset by FLR of an instance that runs, other than instance 0, begins (R415, R428). -/
theorem State.flr_enabled {s : State} {i : Nat} (hi : 1 ≤ i) (he : (s.instance_ i).state = .enabled) :
    s.flr i = (((s.latchSrc (1024 + i)).upInst i fun n => { n with flr := true }).emit (.config i false)).startReset i (s.instance_ i).squash := by
  rw [State.flr]
  simp only [he]
  exact if_neg (by omega)

/-- Settles O31: each reset step, each write-back and each configuration write has its one effect; what is squashed and released at the end
of a wait for a generation number leaves the instance's state, phase and generation (`releaseWork_stages`). -/
theorem instanceEventsTakeEffect : Obligations.InstanceEventsTakeEffect := by
  refine ⟨?drained, ?timeout, ?generation, ?items, ?force, ?log, ?flr, ?vfClear, ?vfSet, ?bmeClear, ?bmeSet, ?unmask⟩
  case drained =>
    intro s inst hd ho
    refine ⟨_, execResetDrainComplete_gives hd ho, rfl, fun hr => ?_⟩
    rw [State.genStep_wait hr, State.upIns_instance, State.instance_upInst_self]
    · exact ⟨rfl, if_neg (by simp [hd])⟩
    · rfl
  case timeout =>
    intro s inst hd ho
    refine ⟨_, ?_, rfl⟩
    exact congrArg ends (if_pos (by simp [hd, ho]))
  case generation =>
    intro s inst hg
    refine ⟨_, execGenerationWaitExpiry_gives hg, ?_⟩
    have h := State.genStep_stages (i := inst) (s := s.upInst inst fun n => { n with retired := n.retired.filter fun r => r.1 ≠ (n.gen + 1) % 16 })
      (by rw [State.instance_upInst_self]; exact s.retiredNow_forget inst _)
    rw [State.instance_upInst_self, State.stages, Instance.stage] at h
    simp only [Prod.mk.injEq] at h
    obtain ⟨hstate, hphase, hgen⟩ := h
    exact ⟨hphase, hgen, hstate⟩
  case items =>
    intro s inst he ho
    exact ⟨_, congrArg ends (if_pos (by simp [he, ho])), rfl⟩
  case force =>
    intro s t inst hr ho ht he
    exact ⟨_, execResetForceExpiry_gives hr ho ht he, rfl⟩
  case log =>
    intro s inst hw hs hp
    refine ⟨_, execLogSwapWritebackDone_gives hw hs hp, ?_⟩
    rw [State.upIns_instance, State.instance_upInst_self, State.flushLog_instance]
    · refine ⟨?_, ?_, congrArg (setFlag · 4) (s.flushLog_intStatus inst _), ?_⟩
      all_goals cases (s.instance_ inst).log.activeB <;> rfl
    · rfl
  case flr =>
    intro s inst hi hreach ha hf he
    refine ⟨_, congrArg ends ((if_neg (by simp [hreach])).trans ?_), rfl⟩
    rw [State.hostConfig_awake ha hf, State.flr_enabled hi he]
  case vfClear =>
    intro s link ha hf hn hv
    refine ⟨_, congrArg ends ((State.hostConfig_awake ha hf _).trans (if_neg (by simp [hn, hv]))), rfl⟩
  case vfSet =>
    intro s link n ha hf hn hle
    refine ⟨_, congrArg ends ((State.hostConfig_awake ha hf _).trans (if_neg (by simp [hn]))), ?_⟩
    have hkeep := fun l t => foldl_keeps (fun t => t.hostLink link) (g := fun s i => s.latchSrc (1024 + i)) (fun _ _ => rfl) l t
    simp only [hkeep, State.foldl_latchSrc_source]
    refine ⟨?_, ?_, fun i hi => ?_⟩
    · rw [State.upHostLink_hostLink]
    · rw [State.upHostLink_hostLink]; exact Nat.min_eq_left hle
    · rw [if_pos (List.mem_map_of_mem hi)]
  case bmeClear =>
    intro s inst ha hf hn
    refine ⟨_, congrArg ends ((State.hostConfig_awake ha hf _).trans (if_pos hn)), ?_, rfl⟩
    rw [State.instance_upInst_self]
  case bmeSet =>
    intro s inst ha hf hn
    refine ⟨_, congrArg ends ((State.hostConfig_awake ha hf _).trans (if_pos hn)), ?_⟩
    obtain ⟨hinst, hout⟩ := State.foldl_release inst (s.instance_ inst).heldAcc (s.upInst inst fun n => { n with bmeHeld := false, heldAcc := [] })
    rw [hinst, hout, State.instance_upInst_self]
    exact ⟨rfl, rfl⟩
  case unmask =>
    intro s inst vector ha hf hn hv hb hfm hp
    refine ⟨_, congrArg ends ((State.hostConfig_awake ha hf _).trans ((if_neg (by simp [hn, hv])).trans ((if_neg (by simp)).trans
      (State.sendPending_sends (by exact hb) ?_ ?_ ?_ ?_)))), ?_⟩
    all_goals simp [hfm, hp]

end Sys2Proof.Machine
end
